-- ==== Sys2Proof/Word.lean ====
section
/-! DEFINITION. The words of the PYV-16xx: a 32-bit register word (R7) and a byte of host memory. -/

namespace Sys2Proof

/-- A register word: registers are 32 bits wide (R7). -/
abbrev Word := BitVec 32

/-- A byte of host memory, of a frame or of a command payload. -/
abbrev Byte := BitVec 8

end Sys2Proof
end

