-- ==== Sys2Proof/Syntax.lean ====
section
/-! DEFINITION. The commands of the engine: one constructor of `Instr` per row of spec/opcode_table.json, with the
operands the row's rule gives it. A register row carries the accessing master (R32); a row that time or the outside
world drives carries the raw-counter reading at which it comes (`t`, in q) and what the outside world decides
(a level, a measurement, a frame). -/

namespace Sys2Proof.Machine

/-- The blocks of R25 that own registers; each of the 32 ports is a block of its own. -/
inductive Blk
  | glb | fab | tsc | ref | dsc | cko | grt | gna | gnc | tdc | evt | vid
  | prt (p : Nat)
  | rsp | ptp | nts | pke | key | hif | seq | fls | pwr | bst | pmc | twn
  deriving DecidableEq, Repr

/-- A host command on its way to its block (R359): where its completion goes, what it carries, and the status
HIF's own checks gave it (0 where they passed). -/
structure HostCmd where
  ring : Nat
  slot : Nat
  fn : Nat
  tag : Nat
  block : Nat
  opcode : Nat
  payload : List Byte
  pre : Nat
  deriving DecidableEq, Repr

/-- How the image copy checks of R64 come out for one copy: what the medium and the signature check answer. -/
structure CopyCheck where
  readable : Bool
  kindOk : Bool
  version : Nat
  sigOk : Bool
  bytes : List Byte
  deriving DecidableEq, Repr

/-- What a sample port latches at an epoch strobe (R196): the port, the number of its first sample at or after the
strobe, and the timescale-0 time of that sample's I edge. -/
structure PortLatch where
  port : Nat
  sample : Nat
  t0 : Nat
  deriving DecidableEq, Repr

/-- What an FFT engine finds for one index (R177, R180): metric and second peak in 1/16, C/N0 in 1/256 dB-Hz, code
phase in 2^-16 chip, Doppler in 2^-8 Hz, a peak in an outermost bin, and a poisoned read of the capture buffer. -/
structure AcqRes where
  index : Nat
  metric : Nat
  second : Nat
  cn0 : Nat
  codePhase : Nat
  doppler : Int
  edge : Bool
  poisoned : Bool
  deriving DecidableEq, Repr

/-- What the correlators of one channel accumulated up to a millisecond boundary (R188): the channel, the number of the
boundary's sample, VE E P L VL N S as I then Q, and poison. -/
structure DumpIn where
  ch : Nat
  sample : Nat
  iq : List Int
  poisoned : Bool
  deriving DecidableEq, Repr

/-- A source of calendar messages (R275, R280, R282): a domain's multicast on a port, a grant entry, an upstream's
Delay_Req, or a port's Pdelay_Req. -/
inductive CalSrc
  | mcast (dom port : Nat) (ann : Bool)
  | grant (idx : Nat) (ann : Bool)
  | dreq (u : Nat)
  | pdelay (port : Nat)
  deriving DecidableEq, Repr

/-- What the NAND medium answers to an operation on it (R421 to R426): erases made, program and erase failures, blocks
grown bad, bits corrected, sectors uncorrectable, blocks refreshed, the lowest and highest erase count where they
changed, the SEQ of journal records found unreadable, and the image copies found unreadable (keyed 4 × KIND + COPY). -/
structure NandOut where
  erases : Nat
  progFails : Nat
  grown : Nat
  corrected : Nat
  uncorr : Nat
  refreshed : Nat
  wear : Option (Nat × Nat)
  jrnBad : List Nat
  imgBad : List Nat
  deriving DecidableEq, Repr

/-- What a waking domain brings from outside the registers: corrected granules of each retained bank (R471), the BAR0 addresses of
retained registers found poisoned (R470), whether the device key derives again (R395), the banks its sequencers load from
Flowstone where theirs were lost (R390: sequencer and image), and the mean power of the Keep-alive that ends, in mW. -/
structure WakeScrub where
  corrected : List (Nat × Nat)
  lost : List Nat
  keyOk : Bool
  images : List (Nat × List Byte)
  powerMw : Nat
  deriving DecidableEq, Repr

/-- What a unit test gives (R453, R454): whether it ran to its end, the patterns applied, the MISR, whether it equals the
signature of calibration image kind 7, rows repaired and memory failures that could not be. -/
structure TestOut where
  done : Bool
  applied : Nat
  misr : Nat
  sigOk : Bool
  repaired : Nat
  memFails : Nat
  deriving DecidableEq, Repr
/-- A key the twin mirrors (R464): its head slot, metadata and material. -/
structure MirrorKey where
  slot : Nat
  typ : Nat
  usage : Nat
  curve : Nat
  bits : Nat
  owner : Nat
  label : Nat
  uses : Nat
  material : List Byte
  deriving DecidableEq, Repr

/-- A mirrored item (R464), with the rows of its table: a timescale with its difference from timescale 0 in q; words of the leap
table and of the smear profiles; records of the history (second, hour block, hour base, record word, ambient temperature);
words of a commit group, by key; a grant entry, as its 16 words; a bucket of a quad; the NTS generations; another key slot. -/
inductive MirrorItem
  | timescale (n ctrl rateLo rateHi bound : Nat) (diff : Int)
  | leapSmear (words : List (Nat × Nat))
  | history (recs : List (Nat × Nat × Int × Nat × Int))
  | config (b : Blk) (words : List (Nat × Nat))
  | grant (idx : Nat) (words : List Nat)
  | bucket (q idx level cls : Nat) (clsValid : Bool)
  | ntsGens (gen curSlot : Nat) (curValid prevValid : Bool) (keys : List MirrorKey)
  | keySlot (k : MirrorKey)
  deriving DecidableEq, Repr

/-- What an identity exchange over the Nirel link brings (R461): the twin's role, its public device key, whether it proved
possession of it, word 0 of its serial number, and its mode. -/
structure Peer where
  role : Nat
  pub : List Byte
  proved : Bool
  serial : Nat
  mode : Nat
  deriving DecidableEq, Repr

/-- A timing frame from the twin (R462): the twin's stamp of our last frame's arrival, where it had one, its own departure
stamp, its mode, the rank of its active reference, and whether its DSC is in FREE_RUN. -/
structure TimingFrame where
  arrived : Option Nat
  departed : Nat
  mode : Nat
  qrank : Nat
  free : Bool
  deriving DecidableEq, Repr

/-- What the scrubber finds in a granule (R471): nothing, an error it corrects, or one it cannot, in a granule newly marked
poisoned or already so. -/
inductive ScrubRes
  | clean
  | corrected
  | poisoned (newly : Bool)
  deriving DecidableEq, Repr

/-- What a power-on brings from outside (R59, R60, R66): the level of ball LOSEL (high selects the Grotto), whether TEST_EN is
high with the factory-test fuse intact and whether the read-back of R66 is clean, whether the device key derives (R395), and
whether the BIST of the timing domain failed. -/
structure PowerOn where
  losel : Bool
  test : Bool
  clearOk : Bool
  keyOk : Bool
  coreFail : Bool
  deriving DecidableEq, Repr

/-- The NAND medium as the boot ROM finds it (R420): whether it answers, in NV-DDR3, with how many targets, and its identity. -/
structure Medium where
  ok : Bool
  nvddr3 : Bool
  targets : Nat
  id : List Nat
  deriving DecidableEq, Repr

/-- What the medium holds of one image kind (R64): copies A, B and golden. The signed access tables of the boot stage, as key and
word, stand for the contents of a kind-0 image. -/
structure BootImages where
  a : CopyCheck
  b : CopyCheck
  golden : CopyCheck
  acl : List (Nat × Nat)
  medium : Medium
  deriving DecidableEq, Repr

end Sys2Proof.Machine

namespace Sys2Proof

open Machine

/-- The commands: one constructor per row of the opcode table. -/
inductive Instr
  /-- REGISTER_WRITE: A host or master write to a register that has no row of its own sets the value or its shadow
    according to the access code. (R11) -/
  | registerWrite (m addr val : Nat)
  /-- STICKY_CLEAR: A W1C write clears each named sticky bit, unless its event recurs in the same cycle. (R12) -/
  | stickyClear (m : Nat) (b : Blk) (val recurs : Nat)
  /-- MULTIWORD_LOW_READ: A read of the lowest word of a multi-word value latches the higher words for the reading
    master. (R14) -/
  | multiwordLowRead (m addr : Nat)
  /-- MULTIWORD_HIGH_WRITE: A write of the highest word of an RW multi-word value makes the held lower words and
    the whole value take effect. (R15) -/
  | multiwordHighWrite (m addr val : Nat)
  /-- PARTIAL_BYTE_WRITE: A BAR0 write with fewer than four byte enables is ignored and sets
    FAB.STICKY.CFG_REFUSED. (R503) -/
  | partialByteWrite (m addr val enables : Nat)
  /-- COMMIT_GO: A write of GO to a block's COMMIT register validates the shadow set and then leaves it pending, or
    refuses it. (R18) -/
  | commitGo (m : Nat) (b : Blk)
  /-- COMMIT_DISCARD: A write of DISCARD copies every live value into its shadow, unless a commit is pending. (R16)
    -/
  | commitDiscard (m : Nat) (b : Blk)
  /-- COMMIT_TAKES_EFFECT: At the block's safe point every field of the pending group takes effect in one
    timing-clock cycle, and COUNT advances. (R17) -/
  | commitTakesEffect (b : Blk) (t : Nat)
  /-- RSP_BANK_RELEASE: Once no request holds the old RSP bank, PENDING clears and the new live set is copied into
    the shadow. (R262) -/
  | rspBankRelease (t : Nat)
  /-- LEDGER_AUDIT_REQUEST: A write of 1 to FAB.LEDGER_CTRL.AUDIT captures the ledger counts and starts an audit.
    (R44) -/
  | ledgerAuditRequest (m val t : Nat)
  /-- LEDGER_AUTO_AUDIT: The expiry of the AUTO_PERIOD interval captures the ledger counts and starts an audit.
    (R44) -/
  | ledgerAutoAudit (t : Nat)
  /-- LEDGER_AUDIT_END: After all 1 325 instances have been compared the audit ends, AUDIT_COUNT advances and
    AUDIT_DONE sets. (R46) -/
  | ledgerAuditEnd (t : Nat)
  /-- UNIT_REINIT: An isolated unit is re-initialised or spared, or it is marked unusable on a second failure
    within 3 600 s. (R48) -/
  | unitReinit (kind inst t : Nat)
  /-- QUEUE_HW_RESET: A write of FAB.QUEUE_STAT.HW_RESET sets HIGH_WATER to the present occupancy. (R31) -/
  | queueHwReset (m val t : Nat)
  /-- POWER_ON_RESET: Release of PORN, or a low PORN of 2 µs or more, resets all logic and enters Boot. (R60) -/
  | powerOnReset (p : PowerOn)
  /-- LO_READY: The oscillator selected at power-on reports ready. (R59) -/
  | loReady (grotto : Bool)
  /-- LO_FALLBACK: The selected oscillator is not ready after its timeout and retry, so the other is used and
    LO_FALLBACK sets. (R59) -/
  | loFallback (grottoReady : Bool)
  /-- TIMING_PLL_LOCK: The timing PLL locks and the raw counter starts counting from zero. (R60) -/
  | timingPllLock
  /-- BOOT_IMAGE_LOAD: The boot ROM tries the copies of one image kind in order and loads the first that passes.
    (R64) -/
  | bootImageLoad (x : BootImages) (t : Nat)
  /-- POWERON_SELF_TEST: Self-test runs memory and logic tests on every present unit. (R457) -/
  | poweronSelfTest (t : Nat)
  /-- SELF_TEST_DONE: BIST ends: failed units are marked unusable and spared, and the next mode is selected by R55.
    (R457) -/
  | selfTestDone (failed again : List (Nat × Nat)) (repaired ms t : Nat)
  /-- MODE_REQ_SERVICE: A host request for TARGET 4 moves the engine to Service or Degraded, or completes with an
    error code. (R68) -/
  | modeReqService (m t : Nat)
  /-- MODE_REQ_DEGRADED: A host request naming TARGET 5 completes REFUSED and leaves the mode unchanged. (R68) -/
  | modeReqDegraded (m t : Nat)
  /-- MODE_REQ_MAINTENANCE: A host request for Maintenance naming a block fences that block and adds it to
    GLB.MAINT_SET. (R55) -/
  | modeReqMaintenance (m block t : Nat)
  /-- MODE_REQ_RELEASE: A host release of a block in GLB.MAINT_SET unfences it, and leaves Maintenance after the
    last one. (R55) -/
  | modeReqRelease (m block t : Nat)
  /-- MODE_REQ_QUIESCE: A host request for Quiesce refuses new work and parks traffic. (R55) -/
  | modeReqQuiesce (m t : Nat)
  /-- MODE_REQ_TWIN_STANDBY: A host request for Twin-standby from Provisioning starts mirroring when the Nirel link
    is up. (R55) -/
  | modeReqTwinStandby (m t : Nat)
  /-- MODE_REQ_PROVISIONING: A host request for Provisioning from Twin-standby stops mirroring. (R55) -/
  | modeReqProvisioning (m t : Nat)
  /-- MODE_REQ_KEEP_ALIVE: A host request for Keep-alive starts the consent protocol that takes the domains down in
    order. (R442) -/
  | modeReqKeepAlive (m : Nat) (delta : Int) (t : Nat)
  /-- MODE_REQ_LOCKDOWN: A host request for Lockdown zeroises the secrets and enters Lockdown. (R67) -/
  | modeReqLockdown (m t : Nat)
  /-- TWIN_MODE_REQUEST: The twin requests Quiesce or a handover over the Nirel link, which is obeyed only while
    TWIN_REQ is 1. (R57) -/
  | twinModeRequest (handover : Bool) (t : Nat)
  /-- WARM_RESET: A write of GLB.RESET_CTRL with KEY 0xA5 and WARM 1 flushes the work in flight, journals the
    ledger and resets every domain except timing. (R507) -/
  | warmReset (m : Nat) (skipBist keyOk : Bool) (t : Nat)
  /-- PERST: PERST# resets HIF only, acts as an FLR of every function and is recorded in GLB.RESET_CAUSE. (R62) -/
  | perst (t : Nat)
  /-- TAMPER_EVENT: An enabled TAMPER input going to its active level zeroises the secrets and enters Lockdown, or
    is recorded during Boot and Self-test. (R506) -/
  | tamperEvent (ball t : Nat)
  /-- POLICY_WRITE: A write of GLB.POLICY takes effect only in Provisioning, and may itself be a tamper event.
    (R506) -/
  | policyWrite (m val t : Nat)
  /-- LO_LOSS: Loss of the active oscillator sets LO_LOST, puts the timing PLL in hold and switches over when AUTO
    is 1. (R73) -/
  | loLoss (delta : Int) (t : Nat)
  /-- LO_CTRL_WRITE: A write of TSC.LO_CTRL may request a switchover, or is refused for XO_FREQ. (R76) -/
  | loCtrlWrite (m val : Nat) (delta : Int) (t : Nat)
  /-- LO_SWITCH_RETRY: After 10 ms the switch to an alternate that was not ready is tried once more, and LO_FAIL
    sets if it fails. (R74) -/
  | loSwitchRetry (delta : Int) (t : Nat)
  /-- OSCILLATOR_READY: An oscillator becomes ready, ending PLL hold after a loss. (R73) -/
  | oscillatorReady (grotto : Bool) (delta : Int) (t : Nat)
  /-- STEERING_PORT_WRITE: The discipline port writes the rate, target or slew bound of timescale 0, effective at
    the next edge. (R80) -/
  | steeringPortWrite (rate target bound : Option Int) (t : Nat)
  /-- SLEW_DONE: The remaining offset reaches zero: σ becomes 0, the timescale re-anchors and SLEW_DONE sets. (R83)
    -/
  | slewDone (n t : Nat)
  /-- LEAP_WARN_START: 86 400 s before the L of the next leap entry, LEAP_WARN reads insert or delete. (R90) -/
  | leapWarnStart (t : Nat)
  /-- LEAP_DONE: At L, LEAP_WARN returns to 0 and LEAP_DONE sets. (R90) -/
  | leapDone (t : Nat)
  /-- SMEAR_START: At L − 60 × LEAD every SMEAR timescale of the profile takes −Δ s into R_n with the smear bound.
    (R91) -/
  | smearStart (prof entry t : Nat)
  /-- SNAP_GO: A write of TSC.SNAP_CTRL.GO captures T, A and B of the chosen timescale at one edge. (R60) -/
  | snapGo (m ts t : Nat)
  /-- COMPARE_FIRE: A compare unit fires at the last edge before its target and hands the residual to its user.
    (R94) -/
  | compareFire (u : Nat) (latch : List PortLatch) (t : Nat)
  /-- SELECTOR_TICK: Every 1 ms the selector applies commits, updates the tests, moves slots, selects and names the
    standby, and DSC evaluates its states. (R113) -/
  | selectorTick (rclk : List (Nat × Int)) (t : Nat)
  /-- HOLDOFF_ELAPSED: HOLDOFF seconds of unbroken passes end, and the slot becomes QUALIFIED. (R109) -/
  | holdoffElapsed (n t : Nat)
  /-- FAIL_HOLD_ELAPSED: FAIL_HOLD ends with its conditions met, and the FAILED slot moves to QUALIFYING. (R121) -/
  | failHoldElapsed (n t : Nat)
  /-- DISPUTE_WINDOW_END: A dispute window ends; equal-rank pairs are compared, and open disputes are voted on by
    the arbiter. (R119) -/
  | disputeWindowEnd (t : Nat)
  /-- REF_IN_EDGE: An active edge on a REF_IN input is stamped and yields a phase or frequency measurement. (R98)
    -/
  | refInEdge (i n t : Nat)
  /-- REF_IN_ABSENT: No edge arrives within the input mode's timeout, so PRESENT clears. (R100) -/
  | refInAbsent (i t : Nat)
  /-- REFOK_CHANGE: A change of the REFOKi ball sets or clears QRANK 15 for the slot. (R101) -/
  | refokChange (i : Nat) (level : Bool) (t : Nat)
  /-- GNSS_SOLUTION: A host GNSS solution is accepted as a phase sample for the GNSS slot, or refused or stale.
    (R104) -/
  | gnssSolution (c : HostCmd) (t : Nat)
  /-- GNSS_SLOT_LOS: No solution has completed OK for 2.5 s, so the GNSS slot enters LOS. (R105) -/
  | gnssSlotLos (t : Nat)
  /-- LOOP_UPDATE: A sample of the active slot updates the main loop and writes u to ρ_0. (R126) -/
  | loopUpdate (t : Nat)
  /-- FALLBACK_UPDATE: A sample of the standby updates the fallback loop and FB_VAL. (R128) -/
  | fallbackUpdate (t : Nat)
  /-- PULL_DONE: R_0 reaches zero, DSC reports the pull complete, PULL_DONE sets and the full loop resumes. (R133)
    -/
  | pullDone (t : Nat)
  /-- LOCK_TIME_ELAPSED: The lock criteria have held for LOCK_TIME, so DSC enters LOCKED. (R141) -/
  | lockTimeElapsed (t : Nat)
  /-- UNLOCK_TIMEOUT: |e| has stayed above 4 × LOCK_PHASE for 10 s, so DSC returns to ACQUIRING. (R141) -/
  | unlockTimeout (t : Nat)
  /-- HOLDOVER_SECOND: Each second in holdover, u_HO is written to ρ_0, subject to the ramp. (R146) -/
  | holdoverSecond (t : Nat)
  /-- ESTIMATOR_UPDATE: Each second the error bound E(t) is computed and compared with the budget. (R149) -/
  | estimatorUpdate (t : Nat)
  /-- HISTORY_RECORD: Each second the mean u is recorded in the history bank, and each completed hour is mirrored
    to Flowstone. (R145) -/
  | historyRecord (theta xdiff : Int) (mirrorOk : Bool) (t : Nat)
  /-- SW_CTRL_WRITE: A write of DSC.SW_CTRL's highest word sets u in software-steered mode, or is refused. (R130)
    -/
  | swCtrlWrite (m val t : Nat)
  /-- SW_TIMEOUT: No software write has arrived for SW_TIMEOUT seconds, so DSC closes the loop and SW_LAPSED sets.
    (R130) -/
  | swTimeout (t : Nat)
  /-- STEP_CMD: A write of DSC.STEP_CMD in Maintenance of DSC steps timescale 0 by the active slot's φ. (R140) -/
  | stepCmd (m val t : Nat)
  /-- DSC_SEQ_FAULT_TIMEOUT: The main-loop sequencer has been faulted for 1 s, so DSC acts as for no active slot.
    (R141) -/
  | dscSeqFaultTimeout (t : Nat)
  /-- GRT_CTRL_WRITE: A write of GRT.CTRL.HEAT_EN starts or stops the heater, and is refused while the Grotto is
    active. (R154) -/
  | grtCtrlWrite (m val t : Nat)
  /-- GRT_RETRY: A write of RETRY moves GRT from FAULT to OFF and then to WARMING. (R153) -/
  | grtRetry (m t : Nat)
  /-- GROTTO_WARM: Both sensors have stayed within ±0.25 K for 10 s, so GRT enters WARM. (R153) -/
  | grottoWarm (cavity : Int) (t : Nat)
  /-- GROTTO_READY: The cavity has stayed within ±10 mK for 600 s with HEAT_TIME of at least 1 800 s, so GRT enters
    READY. (R153) -/
  | grottoReady (cavity : Int) (t : Nat)
  /-- GROTTO_READY_LOST: The cavity has been outside ±20 mK for 10 s, so GRT returns to WARM. (R153) -/
  | grottoReadyLost (cavity : Int) (t : Nat)
  /-- GROTTO_BAND_LOST: The cavity leaves ±0.5 K, so GRT returns to WARMING. (R153) -/
  | grottoBandLost (cavity : Int) (t : Nat)
  /-- VHTR_LOW: VHTR has been below 4.5 V for 1 ms, so the heater goes off. (R153) -/
  | vhtrLow (mv t : Nat)
  /-- GROTTO_SENSOR_FAULT: The sensors disagree, or one reads above 125 °C, so GRT enters FAULT. (R153) -/
  | grottoSensorFault (sensor0 sensor1 : Int) (t : Nat)
  /-- ALIGN_GO: A write of CKO.ALIGN_CTRL.GO aligns every enabled output with ALIGN_EN, in permitted modes only.
    (R160) -/
  | alignGo (m t : Nat)
  /-- OUTPUT_ALIGN: At a second boundary an output is restarted aligned, and ALIGN_DONE sets. (R160) -/
  | outputAlign (n residual t : Nat)
  /-- PLANE_LOCK_LOST: A CKO plane loses lock, and its outputs are squelched when SQUELCH is 1. (R163) -/
  | planeLockLost (p t : Nat)
  /-- PLANE_LOCK_RETURN: A plane regains lock and its squelched outputs realign. (R163) -/
  | planeLockReturn (p t : Nat)
  /-- PHASE_WALK_DONE: An output's walk to a new OUT_PHASE arrives, and PHASE_DONE sets. (R162) -/
  | phaseWalkDone (n t : Nat)
  /-- SEARCH: The GNA SEARCH command queues an acquisition search on an FFT engine, or completes with an error.
    (R179) -/
  | search (c : HostCmd) (t : Nat)
  /-- SEARCH_CAPTURE_START: A free engine starts capturing a queued search's blocks at the next whole millisecond.
    (R175) -/
  | searchCaptureStart (e t : Nat)
  /-- SEARCH_REPORT: A search's transforms end; its result records are written and the search completes. (R180) -/
  | searchReport (e : Nat) (results : List AcqRes) (t : Nat)
  /-- SEARCH_ABORT: The GNA ABORT command stops the issuing function's searches on the named engines. (R182) -/
  | searchAbort (c : HostCmd) (t : Nat)
  /-- SAMPLE_PORT_PRESENT: Two consecutive milliseconds in the rate window make a GNSS sample port present. (R170)
    -/
  | samplePortPresent (p : Nat) (freq : Int) (t : Nat)
  /-- SAMPLE_PORT_LOST: A sample port loses its clock or leaves the rate window; channels bound to it go to HOLD.
    (R170) -/
  | samplePortLost (p : Nat) (freq : Option Int) (t : Nat)
  /-- SAMPLE_TICK: Each millisecond a present port stamps a sample edge and latches its sample number. (R171) -/
  | sampleTick (p n clip meanI meanQ : Nat) (freq : Int) (t : Nat)
  /-- CORRELATOR_DUMP: At a millisecond boundary a unit sends each correlating channel's dump, or keeps integrating
    while it has no credit. (R188) -/
  | correlatorDump (u : Nat) (dumps : List DumpIn) (t : Nat)
  /-- DUMP_CLEAR: After 255 ms integrated without a credit, the accumulators are cleared. (R189) -/
  | dumpClear (ch t : Nat)
  /-- DUMP_POP: A sequencer write of DUMP_POP removes the dump at the head of its queue and returns its credit.
    (R377) -/
  | dumpPop (g t : Nat)
  /-- CHANNEL_STEERING_WRITE: A loop program writes a channel's rates and lock flags, which take effect at the next
    port boundary. (R190) -/
  | channelSteeringWrite (g ch : Nat) (codeRate carrRate word1 : Option Nat) (t : Nat)
  /-- STEER_TIMEOUT: STEER_TO consecutive missed milliseconds clear the channel's lock flags and set STALE. (R190)
    -/
  | steerTimeout (ch t : Nat)
  /-- CH_READ: GNC.CH_SEL OP 1 copies a channel's record into CH_DATA. (R192) -/
  | chRead (m ch t : Nat)
  /-- CH_LOAD: GNC.CH_SEL OP 2 loads an IDLE channel from CH_DATA. (R192) -/
  | chLoad (m ch t : Nat)
  /-- CH_RELEASE: GNC.CH_SEL OP 3 makes a channel IDLE. (R192) -/
  | chRelease (m ch t : Nat)
  /-- CH_OP_NONE: GNC.CH_SEL GO with OP 0 completes REFUSED and does nothing else. (R192) -/
  | chOpNone (m ch t : Nat)
  /-- CHANNEL_START: The START_MS boundary of a LOADED channel starts its NCOs in TRACK or GAP. (R191) -/
  | channelStart (ch sample t : Nat)
  /-- BURST_START: A burst begins and its channels correlate the burst's antenna. (R193) -/
  | burstStart (g t : Nat)
  /-- BURST_END: A burst ends; its channels go to GAP with the NCOs running on. (R193) -/
  | burstEnd (g t : Nat)
  /-- EPOCH_DELIVER: The latched epoch passes through queue 136 to its ring as GNSS_MEAS, or goes to the Sump.
    (R199) -/
  | epochDeliver (t : Nat)
  /-- GNSS_NAV_SEND: A program's send word writes a GNSS_NAV event to NAV_RING. (R200) -/
  | gnssNavSend (g : Nat) (body : List Byte) (t : Nat)
  /-- SPOOF_INDICATOR_WRITE: A loop program raises or clears a spoofing or interference indicator. (R201) -/
  | spoofIndicatorWrite (g word t : Nat)
  /-- LINK_LOCK: PCS and FEC lock and the port begins measuring its lane latencies. (R210) -/
  | linkLock (p t : Nat)
  /-- CAL_DONE: Lane calibration ends: CAL_VALID and LINK set, or the port drops lock and retries, or CAL_FAIL
    sets. (R210) -/
  | calDone (p : Nat) (lats : List (Nat × Int)) (ok : Bool) (t : Nat)
  /-- LINK_DOWN: Loss of lock or a fault clears LINK, sets LINK_DOWN and cancels reservations LINK. (R210) -/
  | linkDown (p cause : Nat) (hostSent : Option (Nat × Nat)) (t : Nat)
  /-- FRAME_RECEIVE: A received frame is handed to its quad as a request, or is discarded by the port. (R215) -/
  | frameReceive (p : Nat) (frame : List Byte) (fcsOk express poisoned : Bool) (rawS t : Nat)
  /-- PORT_WAKE_COMPLETE: A sleeping port's datapath returns to Run and SLEEPING clears. (R228) -/
  | portWakeComplete (p t : Nat)
  /-- PORT_SLEEP_ENTRY: After IDLE_MS without frames, a PYV-1616 port enters sleep through the consent protocol.
    (R228) -/
  | portSleepEntry (p t : Nat)
  /-- DOWNSHIFT: Light traffic over 1 ms drops the MAC datapath to a quarter clock. (R229) -/
  | downshift (p rxPct txPct t : Nat)
  /-- UPSHIFT: Traffic above DOWN_PCT, or a full buffer, returns the datapath to full clock. (R229) -/
  | upshift (p rxPct txPct t : Nat)
  /-- PREEMPT_VERIFY: Every VERIFY_MS the port runs the 802.3br verify exchange; success sets PREEMPT_ACTIVE and
    the third failure sets PREEMPT_FAIL. (R218) -/
  | preemptVerify (p : Nat) (ok : Bool) (t : Nat)
  /-- STATS_SNAP: The PRT STATS_SNAP command captures the selected counters of the selected ports as PORT_STATS
    events. (R223) -/
  | statsSnap (c : HostCmd) (t : Nat)
  /-- STATS_PERIODIC_SNAP: At each matching second boundary a port snapshots all 64 counters with PERIODIC. (R224)
    -/
  | statsPeriodicSnap (p t : Nat)
  /-- ESMC_PDU_RECEIVE: A received ESMC PDU is consumed and its codes are recorded, or it is sent to the host.
    (R231) -/
  | esmcPduReceive (id t : Nat)
  /-- ESMC_TIMEOUT: 5 s without an ESMC PDU sets ESMC_TIMEOUT. (R231) -/
  | esmcTimeout (p t : Nat)
  /-- ESMC_INFO_TX: At each second boundary the port sends an ESMC information PDU. (R232) -/
  | esmcInfoTx (p t : Nat)
  /-- ESMC_EVENT_TX: Within 1 ms of a change of its advertised code the port sends an event PDU. (R232) -/
  | esmcEventTx (p t : Nat)
  /-- REQUEST_ARRIVAL: A request passes stages 1 to 4 of its quad's fast path and is built, declined, sent to the
    slow path or sumped. (R234) -/
  | requestArrival (id t : Nat)
  /-- RESERVATION_GRANT: The port calendar grants a departure slot and the predicted stamp is written, or the first
    build finds no slot and expires. (R247) -/
  | reservationGrant (id : Nat) (starts : List Nat) (busyUntil t : Nat)
  /-- SEAL_DONE: The frame's NTS authentication, UDP checksum and FCS are complete. (R291) -/
  | sealDone (id t : Nat)
  /-- LAUNCH_CHECK: Sixteen cycles before launch the port cancels the frame LATE if unsealed, or MISMATCH if the
    re-evaluated stamp differs. (R251) -/
  | launchCheck (id t : Nat)
  /-- REBUILD: A cancelled request re-enters stage 4 once and requests a new reservation. (R255) -/
  | rebuild (id t : Nat)
  /-- FRAME_COMMIT: A frame's last FCS byte passes into the PCS: tokens are returned, counters move and stamp
    records are written. (R252) -/
  | frameCommit (id rawS t : Nat)
  /-- SIDE_BUFFER_EXPIRE: A request waits in the side buffer longer than MAX_RES and goes to the Sump as EXPIRED.
    (R257) -/
  | sideBufferExpire (id t : Nat)
  /-- REQ_ACTION_BUILD: A quad sequencer's REQ_ACTION 1 retires the head request for a build. (R258) -/
  | reqActionBuild (n t : Nat)
  /-- REQ_ACTION_SLOW_PATH: A quad sequencer's REQ_ACTION 2 passes the head request to the slow path. (R258) -/
  | reqActionSlowPath (n t : Nat)
  /-- REQ_ACTION_DISCARD: A quad sequencer's REQ_ACTION 3 discards the head request with a named reason. (R258) -/
  | reqActionDiscard (n reason t : Nat)
  /-- BUILD_GO: A quad sequencer's BUILD_GO sends its built response into stage 5. (R258) -/
  | buildGo (n : Nat) (frame : List Byte) (stamp : Option (Nat × Bool)) (t : Nat)
  /-- LIMIT_SCRUB_VISIT: The scrubber visits a bucket and refills it, or sets its STAMP. (R241) -/
  | limitScrubVisit (q bucket t : Nat)
  /-- MAINT_QUADS_WRITE: A write of RSP.MAINT_QUADS names the quads to fence, and is accepted only in Maintenance
    of RSP. (R236) -/
  | maintQuadsWrite (m val t : Nat)
  /-- QUAD_FENCE: A named quad's last reservation has an outcome, so the quad is fenced and FENCED sets. (R236) -/
  | quadFence (q t : Nat)
  /-- Q_LAT_RESET: A write of RSP.Q_LAT.RESET clears both latency maxima. (R261) -/
  | qLatReset (m q t : Nat)
  /-- CALENDAR_HANDOFF: Compare unit 16 + q hands a Sync, Announce, Delay_Req or Pdelay_Req to stage 4 before its
    due time. (R276) -/
  | calendarHandoff (src : CalSrc) (t : Nat)
  /-- GRANT_EXPIRY: Timescale-0 seconds reach a grant's expiry and nothing more is emitted for it. (R273) -/
  | grantExpiry (idx typ t : Nat)
  /-- GRANT_SCRUB_VISIT: The scrubber frees an entry whose three grants have all ended. (R273) -/
  | grantScrubVisit (idx t : Nat)
  /-- GRANT_FREE: PTP.GRANT_CMD OP 1 frees one grant entry silently. (R274) -/
  | grantFree (m idx t : Nat)
  /-- GRANT_CANCEL: PTP.GRANT_CMD OP 2 sends cancels for an entry's live grants and frees it. (R274) -/
  | grantCancel (m idx t : Nat)
  /-- GRANT_CANCEL_DOMAIN: PTP.GRANT_CMD OP 3 cancels and frees every entry of one domain. (R274) -/
  | grantCancelDomain (m dom t : Nat)
  /-- GRANT_CMD_NONE: PTP.GRANT_CMD GO with OP 0 completes REFUSED. (R274) -/
  | grantCmdNone (m idx t : Nat)
  /-- UPSTREAM_RENEW: Half a grant's duration has passed, so the slave renews its unicast request. (R280) -/
  | upstreamRenew (u typ t : Nat)
  /-- UPSTREAM_RETRY: Every 2 s a refused or unanswered upstream request is sent again. (R280) -/
  | upstreamRetry (u typ t : Nat)
  /-- ANNOUNCE_TIMEOUT: The Announce receipt timeout expires, the upstream slot enters LOS and ANN_TIMEOUT sets.
    (R279) -/
  | announceTimeout (u t : Nat)
  /-- MINT: The NTS MINT command mints up to eight cookies from host keys for NTS-KE. (R299) -/
  | mint (c : HostCmd) (keyErr outAfter : Option Nat) (t : Nat)
  /-- ROTATE: The NTS ROTATE command retires generation g − 1, zeroises its slot and generates g + 1. (R298) -/
  | rotate (c : HostCmd) (t : Nat)
  /-- ROTATE_COMPLETE: The new generation becomes current on every quad, and ROTATED sets or the rotation aborts.
    (R298) -/
  | rotateComplete (ok : Bool) (t : Nat)
  /-- PIPE_KAT: Each millisecond a pipe runs a known-answer block, and a mismatch marks it unusable and brings in a
    spare. (R301) -/
  | pipeKat (p : Nat) (ok : Bool) (t : Nat)
  /-- PULSE_TRAILING_EDGE: Width W after the leading edge, the trailing edge is placed. (R306) -/
  | pulseTrailingEdge (n t : Nat)
  /-- CAPTURE_EDGE: An edge on a capture input is stamped and written as a CAPTURE event, or lost to dead time or
    overflow. (R311) -/
  | captureEdge (i : Nat) (rising poisoned : Bool) (edge t : Nat)
  /-- SCHEDULE: The EVT SCHEDULE command arms a slot to write one register at a timescale value. (R314) -/
  | schedule (c : HostCmd) (t : Nat)
  /-- SCHEDULE_CANCEL: The EVT CANCEL command ends the named pending slots, which complete ABORTED. (R317) -/
  | scheduleCancel (c : HostCmd) (t : Nat)
  /-- VIDEO_OUTPUT_START: A waiting output begins at its next sequence, frame or edge boundary. (R324) -/
  | videoOutputStart (o t : Nat)
  /-- VIDEO_WALK_DONE: An output's walk to a new DELAY arrives and WALKING clears. (R324) -/
  | videoWalkDone (o t : Nat)
  /-- LTC_FRAME: An LTC frame starts with its time address and with user bits latched 100 µs earlier. (R322) -/
  | ltcFrame (n t : Nat)
  /-- GENLOCK_FRAME: A genlock frame is checked, lock state moves, and while locked its alignment point is stamped
    as a sample. (R325) -/
  | genlockFrame (lines period syncMv burstMv edge t : Nat)
  /-- POS_GO: A write of VID.POS_CTRL.GO evaluates the frame and line position at one edge. (R319) -/
  | posGo (m val t : Nat)
  /-- LTC_UBITS_PORT_WRITE: A line sequencer writes LTC user bits for the next frame. (R327) -/
  | ltcUbitsPortWrite (n val t : Nat)
  /-- COMPARE_REARM: A line sequencer re-arms compare unit 21 or 22. (R377) -/
  | compareRearm (u ts target t : Nat)
  /-- TDC_EDGE: A counted edge on a TDC input is stamped by the measuring interpolator, or lost to dead time.
    (R333) -/
  | tdcEdge (c : Nat) (rising : Bool) (coarse code : Nat) (other : Option Nat) (poisoned : Bool) (t : Nat)
  /-- TDC_GATE_END: A frequency gate ends and its TDC_FREQ result is written. (R343) -/
  | tdcGateEnd (c coarse t : Nat)
  /-- TDC_CAL_START: The idle interpolator is connected to the random edge source to calibrate. (R339) -/
  | tdcCalStart (c t : Nat)
  /-- TDC_CAL_DONE: 2^20 hits complete and the candidate table is accepted, or rejected and restarted. (R337) -/
  | tdcCalDone (c : Nat) (hist : List Nat) (t : Nat)
  /-- INTERP_SWAP: After the shared edges the interpolators swap at a quiet coarse edge. (R339) -/
  | interpSwap (c t : Nat)
  /-- TB_PRESENT: TB_IN becomes present, base TB re-anchors and TB_BACK sets. (R331) -/
  | tbPresent (freq : Int) (edge t : Nat)
  /-- TB_LOST: TB_IN becomes absent, the TB PLL holds and TB_LOST sets. (R331) -/
  | tbLost (freq : Option Int) (t : Nat)
  /-- TB_SETTLED: TB_IN has been present and locked for SETTLE_S seconds, so SETTLED sets. (R331) -/
  | tbSettled (t : Nat)
  /-- ANCHOR_GO_TB: A write of TDC.ANCHOR_CTRL.GO_TB re-anchors base TB. (R332) -/
  | anchorGoTb (m edge t : Nat)
  /-- ANCHOR_GO_GR: A write of TDC.ANCHOR_CTRL.GO_GR re-anchors base GR. (R332) -/
  | anchorGoGr (m edge t : Nat)
  /-- RING_DATA_WRITE: A write of a ring word through HIF.RING_DATA is taken only while the ring is DISABLED.
    (R350) -/
  | ringDataWrite (m val t : Nat)
  /-- RING_ENABLE: HIF.RING_CTRL OP 1 enables a ring from its words, or refuses it. (R351) -/
  | ringEnable (m ring t : Nat)
  /-- RING_DISABLE: HIF.RING_CTRL OP 2 stops fetching and puts the ring in DRAINING. (R351) -/
  | ringDisable (m ring t : Nat)
  /-- RING_OP_INVALID: HIF.RING_CTRL with OP 0 or 3 completes REFUSED. (R351) -/
  | ringOpInvalid (m ring op t : Nat)
  /-- RING_DRAINED: A DRAINING ring holds no DESC token and becomes DISABLED. (R352) -/
  | ringDrained (ring t : Nat)
  /-- DOORBELL_SQ_TAIL: A doorbell write with WHICH 0 sets the ring's SQ tail, or is rejected as DB_BAD. (R354) -/
  | doorbellSqTail (f i index rsvd t : Nat)
  /-- DOORBELL_CQ_HEAD: A doorbell write with WHICH 1 sets the CQ head or the stamp consumer index, or is rejected
    as DB_BAD. (R354) -/
  | doorbellCqHead (f i index rsvd t : Nat)
  /-- DESC_FETCH: The engine fetches the next submission descriptor and issues a DESC token. (R353) -/
  | descFetch (ring : Nat) (descErr payErr : Option Nat) (t : Nat)
  /-- COMPLETION_WRITE: A completion is written into a free CQ slot once one exists, returning its DESC tokens.
    (R358) -/
  | completionWrite (ring t : Nat)
  /-- MSIX_MODERATION_TIMEOUT: MOD_US expires after the first unsignalled entry and the ring's vector is signalled.
    (R355) -/
  | msixModerationTimeout (ring t : Nat)
  /-- NOP: The HIF NOP command completes OK with COUNT 0. (R360) -/
  | nop (c : HostCmd) (t : Nat)
  /-- TRANSMIT_FRAME: A host transmit frame's descriptors are checked and its data is read into the host-transmit
    pool and queued for egress. (R361) -/
  | transmitFrame (ring : Nat) (dataErr : Option Nat) (poisoned : Bool) (t : Nat)
  /-- TX_LINK_TIMEOUT: LINK has stayed 0 for 10 ms after a frame was read, so the frame completes TIMEOUT. (R362)
    -/
  | txLinkTimeout (id t : Nat)
  /-- RECEIVE_FRAME_WRITE: A slow-path frame claims its buffers and CQ slot and is written to its receive ring.
    (R364) -/
  | receiveFrameWrite (id t : Nat)
  /-- RX_STARVED: A frame whose claim has failed for HOLDOFF_US goes to the Sump as RING_STARVED. (R364) -/
  | rxStarved (id t : Nat)
  /-- EVENT_DELIVER: An event leaving queue 142 is packed into the open buffer of its ring, or lost as EVENT_OVF.
    (R366) -/
  | eventDeliver (t : Nat)
  /-- EVENT_FLUSH_TIMEOUT: The first event of an open buffer has waited FLUSH_US, so the buffer closes and its
    completion is written. (R366) -/
  | eventFlushTimeout (ring t : Nat)
  /-- FLR: A function-level reset disables every ring of the function without completions. (R348) -/
  | flr (f t : Nat)
  /-- BUS_MASTER_CLEAR: Clearing Bus Master Enable pauses fetching and writing for the function's rings. (R348) -/
  | busMasterClear (f t : Nat)
  /-- BUS_MASTER_SET: Setting Bus Master Enable again resumes the function's rings. (R348) -/
  | busMasterSet (f t : Nat)
  /-- PCIE_LINK_LOSS: Loss of the PCI Express link acts as an FLR of every function and resets the HIF registers.
    (R348) -/
  | pcieLinkLoss (t : Nat)
  /-- PCIE_LINK_UP: The link trains, and LINK_DEGRADED sets when it is below 8.0 GT/s or narrower than x4. (R346)
    -/
  | pcieLinkUp (gen width numVfs t : Nat)
  /-- SEQ_NOP: A sequencer executes NOP. (R375) -/
  | seqNop (n : Nat) (poisoned : Bool) (t : Nat)
  /-- SEQ_ADD: A sequencer executes ADD with carry out. (R375) -/
  | seqAdd (n : Nat) (poisoned : Bool) (t : Nat)
  /-- SEQ_SUB: A sequencer executes SUB with borrow. (R375) -/
  | seqSub (n : Nat) (poisoned : Bool) (t : Nat)
  /-- SEQ_ADDC: A sequencer executes ADDC. (R375) -/
  | seqAddc (n : Nat) (poisoned : Bool) (t : Nat)
  /-- SEQ_SUBC: A sequencer executes SUBC. (R375) -/
  | seqSubc (n : Nat) (poisoned : Bool) (t : Nat)
  /-- SEQ_AND: A sequencer executes a bitwise AND. (R375) -/
  | seqAnd (n : Nat) (poisoned : Bool) (t : Nat)
  /-- SEQ_OR: A sequencer executes a bitwise OR. (R375) -/
  | seqOr (n : Nat) (poisoned : Bool) (t : Nat)
  /-- SEQ_XOR: A sequencer executes a bitwise XOR. (R375) -/
  | seqXor (n : Nat) (poisoned : Bool) (t : Nat)
  /-- SEQ_SHL: A sequencer executes a left shift by a register. (R375) -/
  | seqShl (n : Nat) (poisoned : Bool) (t : Nat)
  /-- SEQ_SHR: A sequencer executes a logical right shift by a register. (R375) -/
  | seqShr (n : Nat) (poisoned : Bool) (t : Nat)
  /-- SEQ_SAR: A sequencer executes an arithmetic right shift by a register. (R375) -/
  | seqSar (n : Nat) (poisoned : Bool) (t : Nat)
  /-- SEQ_MUL: A sequencer executes MUL, giving the low 32 bits of the product. (R375) -/
  | seqMul (n : Nat) (poisoned : Bool) (t : Nat)
  /-- SEQ_MULH: A sequencer executes MULH, giving the signed high 32 bits. (R375) -/
  | seqMulh (n : Nat) (poisoned : Bool) (t : Nat)
  /-- SEQ_MULHU: A sequencer executes MULHU, giving the unsigned high 32 bits. (R375) -/
  | seqMulhu (n : Nat) (poisoned : Bool) (t : Nat)
  /-- SEQ_CLZ: A sequencer executes CLZ. (R375) -/
  | seqClz (n : Nat) (poisoned : Bool) (t : Nat)
  /-- SEQ_ADDI: A sequencer executes ADDI. (R375) -/
  | seqAddi (n : Nat) (poisoned : Bool) (t : Nat)
  /-- SEQ_ANDI: A sequencer executes ANDI with a zero-extended immediate. (R375) -/
  | seqAndi (n : Nat) (poisoned : Bool) (t : Nat)
  /-- SEQ_ORI: A sequencer executes ORI. (R375) -/
  | seqOri (n : Nat) (poisoned : Bool) (t : Nat)
  /-- SEQ_XORI: A sequencer executes XORI. (R375) -/
  | seqXori (n : Nat) (poisoned : Bool) (t : Nat)
  /-- SEQ_SHLI: A sequencer executes SHLI. (R375) -/
  | seqShli (n : Nat) (poisoned : Bool) (t : Nat)
  /-- SEQ_SHRI: A sequencer executes SHRI. (R375) -/
  | seqShri (n : Nat) (poisoned : Bool) (t : Nat)
  /-- SEQ_SARI: A sequencer executes SARI. (R375) -/
  | seqSari (n : Nat) (poisoned : Bool) (t : Nat)
  /-- SEQ_LUI: A sequencer executes LUI. (R375) -/
  | seqLui (n : Nat) (poisoned : Bool) (t : Nat)
  /-- SEQ_LD: A sequencer loads a word from local data or its block port. (R376) -/
  | seqLd (n : Nat) (poisoned dataPoisoned : Bool) (t : Nat)
  /-- SEQ_ST: A sequencer stores a word to local data or its block port. (R376) -/
  | seqSt (n : Nat) (poisoned : Bool) (t : Nat)
  /-- SEQ_FLD: A sequencer issues a fabric read, checked under its master ID. (R376) -/
  | seqFld (n : Nat) (poisoned : Bool) (t : Nat)
  /-- FLD_DATA_RETURN: The data of an FLD arrives, or a poisoned read faults POISON. (R376) -/
  | fldDataReturn (n : Nat) (poisoned : Bool) (t : Nat)
  /-- FLD_BUS_TIMEOUT: An FLD not answered within 10 µs faults BUS. (R376) -/
  | fldBusTimeout (n t : Nat)
  /-- SEQ_FST: A sequencer posts a fabric write. (R376) -/
  | seqFst (n : Nat) (poisoned : Bool) (t : Nat)
  /-- SEQ_BEQ: A sequencer branches when equal. (R375) -/
  | seqBeq (n : Nat) (poisoned : Bool) (t : Nat)
  /-- SEQ_BNE: A sequencer branches when not equal. (R375) -/
  | seqBne (n : Nat) (poisoned : Bool) (t : Nat)
  /-- SEQ_BLT: A sequencer branches when signed less than. (R375) -/
  | seqBlt (n : Nat) (poisoned : Bool) (t : Nat)
  /-- SEQ_BGE: A sequencer branches when signed greater or equal. (R375) -/
  | seqBge (n : Nat) (poisoned : Bool) (t : Nat)
  /-- SEQ_BLTU: A sequencer branches when unsigned less than. (R375) -/
  | seqBltu (n : Nat) (poisoned : Bool) (t : Nat)
  /-- SEQ_BGEU: A sequencer branches when unsigned greater or equal. (R375) -/
  | seqBgeu (n : Nat) (poisoned : Bool) (t : Nat)
  /-- SEQ_JAL: A sequencer jumps and links into w15. (R375) -/
  | seqJal (n : Nat) (poisoned : Bool) (t : Nat)
  /-- SEQ_JR: A sequencer jumps to a register address. (R375) -/
  | seqJr (n : Nat) (poisoned : Bool) (t : Nat)
  /-- SEQ_SAFE: At SAFE the watchdog restarts, and a pending HALT or an armed swap takes effect or parks the
    sequencer. (R379) -/
  | seqSafe (n : Nat) (poisoned : Bool) (t : Nat)
  /-- SEQ_WAIT: A sequencer stalls until a masked event is pending, or returns at once while a swap is armed or a
    HALT is pending. (R379) -/
  | seqWait (n : Nat) (poisoned : Bool) (t : Nat)
  /-- WAIT_WAKE: An event, an armed swap or a HALT ends a WAIT and w_d is written. (R380) -/
  | waitWake (n t : Nat)
  /-- SEQ_TIME: A sequencer reads 64 bits of a timescale or of the raw counter. (R375) -/
  | seqTime (n : Nat) (poisoned : Bool) (t : Nat)
  /-- SEQ_FAULT_INSTR: A sequencer executes FAULT and faults PROGRAM with a code. (R375) -/
  | seqFaultInstr (n : Nat) (poisoned : Bool) (t : Nat)
  /-- SEQ_AUTO_RESTART: 1 µs after a fault, the RESTART policy is applied within the RESTART_MAX limit. (R382) -/
  | seqAutoRestart (n t : Nat)
  /-- SEQ_WATCHDOG: No SAFE within PERIOD × 10 µs faults the sequencer WATCHDOG. (R383) -/
  | seqWatchdog (n t : Nat)
  /-- PROG_LOAD: The SEQ PROG_LOAD command verifies images, writes the idle banks and optionally arms swaps. (R385)
    -/
  | progLoad (c : HostCmd) (readErr : Option Nat) (t : Nat)
  /-- SWAP_TIMEOUT: A swap not taken within SWAP_TO completes TIMEOUT and is disarmed. (R386) -/
  | swapTimeout (n t : Nat)
  /-- SWAP_ARM: SEQ.SWAP_CTRL ARM arms a swap to the selected sequencer's idle bank. (R387) -/
  | swapArm (m : Nat) (sync init : Bool) (t : Nat)
  /-- SWAP_DISARM: SEQ.SWAP_CTRL DISARM disarms the selected sequencer's swap. (R387) -/
  | swapDisarm (m : Nat) (sync init : Bool) (t : Nat)
  /-- SWAP_OP_INVALID: SEQ.SWAP_CTRL with OP 0 or 3 completes REFUSED. (R387) -/
  | swapOpInvalid (m op t : Nat)
  /-- SEQ_HALT: SEQ.RUN_CTRL HALT halts the selected sequencer at its next SAFE. (R389) -/
  | seqHalt (m t : Nat)
  /-- SEQ_RESUME: SEQ.RUN_CTRL RESUME continues a HALTED sequencer. (R389) -/
  | seqResume (m t : Nat)
  /-- SEQ_RESTART: SEQ.RUN_CTRL RESTART restarts a HALTED or FAULTED sequencer as restart code 2. (R389) -/
  | seqRestart (m t : Nat)
  /-- LD_DATA_WRITE: A host write of SEQ.LD_DATA writes a local-data word of a halted or faulted sequencer, or is
    refused. (R389) -/
  | ldDataWrite (m val t : Nat)
  /-- KEY_USE: A key sequencer's KEY_USE loads key material into operand memory, with randomised representation.
    (R378) -/
  | keyUse (k slot part dst modulus t : Nat)
  /-- ROW_GO: A key sequencer starts a row multiply-accumulate on its engine. (R405) -/
  | rowGo (k d a b c w t : Nat)
  /-- ROW_DONE: A row operation completes and raises its event. (R405) -/
  | rowDone (k t : Nat)
  /-- KEY_HEAD_COMPLETE: A key sequencer completes the head descriptor of its queue with a status. (R377) -/
  | keyHeadComplete (k status t : Nat)
  /-- KEY_IMPORT: The KEY_IMPORT command unwraps a blob into key slots through the stages of R401. (R401) -/
  | keyImport (c : HostCmd) (hdrErr : Option Nat) (t : Nat)
  /-- KEY_GENERATE: The KEY_GENERATE command generates a key into slots and optionally writes a blob or the public
    key. (R400) -/
  | keyGenerate (c : HostCmd) (t : Nat)
  /-- KEY_ZEROISE: The KEY_ZEROISE command aborts users of the key, zeroises the slot or every slot, and reads them
    back. (R402) -/
  | keyZeroise (c : HostCmd) (bad : List Nat) (t : Nat)
  /-- PK_RUN: The PKE PK_RUN command queues a public-key job on an engine, or refuses it. (R414) -/
  | pkRun (c : HostCmd) (t : Nat)
  /-- PK_JOB_COMPLETE: A public-key job ends at its fixed time, writes its output and returns its KEYTOK. (R415) -/
  | pkJobComplete (q : Nat) (readErr : Option Nat) (primes : List Nat) (t : Nat)
  /-- PKE_KAT: Every 10 s an engine runs a P-256 known-answer test, and a mismatch marks it unusable. (R417) -/
  | pkeKat (e : Nat) (ok : Bool) (t : Nat)
  /-- FIND_GO: A write of KEY.FIND_CTRL.GO searches for the lowest free run of SPAN slots. (R419) -/
  | findGo (m span t : Nat)
  /-- JOURNAL_APPEND: The FLS JOURNAL_APPEND command makes a HOST record. (R433) -/
  | journalAppend (c : HostCmd) (t : Nat)
  /-- IMAGE_WRITE: The FLS IMAGE_WRITE command erases, writes and verifies a copy of an image or key blob. (R433)
    -/
  | imageWrite (c : HostCmd) (busy : Bool) (readErr : Option Nat) (chk : CopyCheck) (out : NandOut) (t : Nat)
  /-- IMAGE_COMMIT: The FLS IMAGE_COMMIT command makes a copy preferred, optionally raises the fused minimum
    version, and writes the boot record. (R433) -/
  | imageCommit (c : HostCmd) (busy : Bool) (out : NandOut) (t : Nat)
  /-- FLS_READ: The FLS_READ command copies journal, history, image or calibration data to host memory. (R433) -/
  | flsRead (c : HostCmd) (busy : Bool) (dma : Option (Nat × Nat)) (out : NandOut) (t : Nat)
  /-- JOURNAL_RECORD: A record from queue 141 gets its SEQ and CHECK and enters the journal buffer, and is streamed
    when enabled. (R427) -/
  | journalRecord (t : Nat)
  /-- JOURNAL_PAGE_PROGRAM: A page of 240 complete records is programmed to NAND and becomes durable. (R427) -/
  | journalPageProgram (out : NandOut) (t : Nat)
  /-- JOURNAL_FLUSH_TIMEOUT: The oldest buffered record has waited FLUSH_S, so the page is padded with FILLER and
    programmed. (R427) -/
  | journalFlushTimeout (out : NandOut) (t : Nat)
  /-- SCRUB_PASS_START: Every SCRUB_DAYS a pass reads every programmed page and refreshes blocks where needed.
    (R425) -/
  | scrubPassStart (t : Nat)
  /-- SCRUB_PASS_END: A scrub pass completes and SCRUB_DONE sets. (R425) -/
  | scrubPassEnd (corrMax : Nat) (out : NandOut) (t : Nat)
  /-- WEAR_LEVEL_MOVE: At most every 60 s, a spread of erase counts above 64 moves the least-erased block. (R424)
    -/
  | wearLevelMove (out : NandOut) (t : Nat)
  /-- FLOWSTONE_KA_CYCLE: In Keep-alive, 1 536 buffered records bring the Flowstone domain up to program pages and
    back to Off. (R431) -/
  | flowstoneKaCycle (out : NandOut) (t : Nat)
  /-- NAND_TIMEOUT: The medium does not answer within 100 ms and the command completes TIMEOUT. (R433) -/
  | nandTimeout (c : HostCmd) (t : Nat)
  /-- DOMAIN_CONSENT: A domain's blocks consent or refuse after preparing, and the domain enters Retain or Off or
    the request rolls back. (R440) -/
  | domainConsent (d : Nat) (refuse : Option Nat) (t : Nat)
  /-- CONSENT_TIMEOUT: A block gives no answer within CONSENT_TO, which is a refusal with cause TIMEOUT. (R440) -/
  | consentTimeout (d block t : Nat)
  /-- WAKE_REGULATOR_DONE: A waking domain's power switch is on and its rail is in range. (R446) -/
  | wakeRegulatorDone (d t : Nat)
  /-- WAKE_OSC_READY: An oscillator that was switched off for the waking domain reports ready. (R446) -/
  | wakeOscReady (d : Nat) (delta : Int) (t : Nat)
  /-- WAKE_PLL_LOCK: The waking domain's PLLs lock and the domain is in Run. (R446) -/
  | wakePllLock (d : Nat) (w : WakeScrub) (t : Nat)
  /-- WAKE_STEP_TIMEOUT: A wake step times out; it is retried once, then the domain is marked FAILED and its work
    spared or declared unusable. (R446) -/
  | wakeStepTimeout (d t : Nat)
  /-- DOM_REQ: A write of PWR.DOM_REQ moves one unused domain between Run, Retain and Off. (R449) -/
  | domReq (m val t : Nat)
  /-- DOZE_ENTER: Hardware gates the clocks of a domain that holds no token or queue entry. (R438) -/
  | dozeEnter (d t : Nat)
  /-- DOZE_EXIT: Hardware ungates a dozing domain's clocks within 200 ns. (R438) -/
  | dozeExit (d t : Nat)
  /-- RAIL_FAULT: A rail of a domain in Run leaves its range and RAIL_FAULT sets. (R490) -/
  | railFault (r uv t : Nat)
  /-- TEMP_HIGH: Tj reaches TJ_ALARM and TEMP_HIGH sets. (R493) -/
  | tempHigh (mK : Int) (t : Nat)
  /-- TEST_BLOCK: The BST TEST_BLOCK command moves a unit's work to a spare, fences it, clears its secrets and
    tests or recalibrates it. (R459) -/
  | testBlock (c : HostCmd) (clearOk : Bool) (t : Nat)
  /-- TEST_COMPLETE: A unit test ends: the unit is re-initialised or marked unusable, and the command completes.
    (R459) -/
  | testComplete (o : TestOut) (t : Nat)
  /-- JTAG_IDCODE: The JTAG IDCODE instruction is answered in every mode. (R456) -/
  | jtagIdcode (t : Nat)
  /-- JTAG_BYPASS: The JTAG BYPASS instruction is answered in every mode. (R456) -/
  | jtagBypass (t : Nat)
  /-- JTAG_SAMPLE_PRELOAD: The JTAG SAMPLE/PRELOAD instruction is answered in every mode. (R456) -/
  | jtagSamplePreload (t : Nat)
  /-- JTAG_EXTEST: The JTAG EXTEST instruction is decoded only in Factory-test, and otherwise acts as BYPASS.
    (R456) -/
  | jtagExtest (t : Nat)
  /-- JTAG_INTEST: The JTAG INTEST instruction is decoded only in Factory-test, and otherwise acts as BYPASS.
    (R456) -/
  | jtagIntest (t : Nat)
  /-- NIREL_LINK_LOCK: The Nirel lanes lock and the link moves from TRAINING to PAIRING. (R461) -/
  | nirelLinkLock (t : Nat)
  /-- NIREL_PAIRING: The ECDH identity exchange completes and the link is UP, or it fails with ROLE_CLASH or
    PEER_BAD. (R461) -/
  | nirelPairing (p : Peer) (t : Nat)
  /-- NIREL_PAIRING_RETRY: Every second a failed pairing is retried. (R461) -/
  | nirelPairingRetry (p : Peer) (t : Nat)
  /-- NIREL_LINK_DOWN: The Nirel link leaves UP and LINK_DOWN sets. (R461) -/
  | nirelLinkDown (t : Nat)
  /-- TIMING_FRAME_TX: Every 1 ms a timing frame is sent and stamped on departure. (R462) -/
  | timingFrameTx (t : Nat)
  /-- TIMING_FRAME_RX: A timing frame from the twin is stamped on arrival and φ is formed. (R462) -/
  | timingFrameRx (frame : Option TimingFrame) (arrivalRaw t : Nat)
  /-- TWIN_SAMPLE: Each second the mean φ is sent as one sample to the twin slot, marked invalid where required.
    (R462) -/
  | twinSample (t : Nat)
  /-- MIRROR_ITEM_RECEIVE: The standby applies a mirrored state item. (R464) -/
  | mirrorItemReceive (item : MirrorItem) (inStep : Bool) (lagUs t : Nat)
  /-- HANDOVER_GIVE: HANDOVER with DIR 0 on the active engine quiesces it and starts the handover. (R465) -/
  | handoverGive (c : HostCmd) (t : Nat)
  /-- HANDOVER_TAKE: HANDOVER with DIR 1 on the standby asks the active engine to hand over. (R465) -/
  | handoverTake (c : HostCmd) (peerAllows : Bool) (t : Nat)
  /-- HANDOVER_DRAIN_DONE: The last granted reservation reaches its outcome, and the final mirror delta is sent.
    (R465) -/
  | handoverDrainDone (bytes keys t : Nat)
  /-- HANDOVER_DELTA_ACK: The final delta is acknowledged: the standby enters Service and the old engine enters
    Twin-standby. (R465) -/
  | handoverDeltaAck (t : Nat)
  /-- GLOBAL_FREEZE: A write of PMC.FREEZE.GO freezes every counter and triggers an audit and port snapshots.
    (R477) -/
  | globalFreeze (m val t : Nat)
  /-- PERIODIC_FREEZE: At each matching second boundary a freeze is triggered, or skipped while a delivery runs.
    (R477) -/
  | periodicFreeze (t : Nat)
  /-- COUNTER_SNAP: The PMC COUNTER_SNAP command freezes or delivers counters as a COUNTER_SNAP event. (R479) -/
  | counterSnap (c : HostCmd) (t : Nat)
  /-- SNAP_DELIVERY_END: Delivery of the frozen counters ends and its event closes. (R478) -/
  | snapDeliveryEnd (poisoned : Bool) (t : Nat)
  /-- MEMORY_SCRUB_VISIT: The scrubber reads a granule and writes back a correction, or marks it poisoned. (R471)
    -/
  | memoryScrubVisit (target offset : Nat) (res : ScrubRes) (last : Bool) (t : Nat)
  /-- VHTR_RESTORED: VHTR rises above 4.6 V while HEAT_EN is 1, so GRT leaves OFF, starts the heater and enters
    WARMING with HEAT_TIME at 0. (R153) -/
  | vhtrRestored (mv t : Nat)
  /-- GENLOCK_FRAME_MISSING: A frame period passes with no genlock frame, and after two consecutive missing frames
    the input becomes unlocked and the genlock slot enters LOS. (R325) -/
  | genlockFrameMissing (t : Nat)
  /-- TAMPER_RELEASE: An enabled TAMPER input returns to its inactive level, re-arming it so that a later assertion
    is a new tamper event. (R506) -/
  | tamperRelease (ball t : Nat)
  /-- MSIX_UNMASK: A host unmasks an MSI-X vector or function, or enables MSI-X, and every pending signal on that
    vector is sent as a message. (R355) -/
  | msixUnmask (f what vec t : Nat)
  /-- MODE_REQ_UNREACHABLE: A GLB.MODE_REQ GO naming a mode that no transition reaches by host request (for example
    Boot, Self-test, Recovery, Factory-test or codes 12–15) completes REFUSED. (R55) -/
  | modeReqUnreachable (m target t : Nat)
  /-- SEQ_RUN_OP_NONE: SEQ.RUN_CTRL GO with OP 0 completes REFUSED and does nothing else. (R389) -/
  | seqRunOpNone (m t : Nat)
  /-- RESET_CTRL_WRONG_KEY: A write of GLB.RESET_CTRL with a KEY other than 0xA5 is ignored and sets
    GLB.STICKY.CFG_REFUSED. (R61) -/
  | resetCtrlWrongKey (m val t : Nat)
  /-- ALTERNATE_NOT_READY: The alternate oscillator loses its edges or leaves ±100 ppm, so its READY bit clears and
    TSC.LO_XDIFF reads 0x8000_0000. (R73) -/
  | alternateNotReady (t : Nat)
  deriving DecidableEq, Repr

end Sys2Proof
end

