-- ==== Sys2Proof/WellFormed.lean ====
section
/-! DEFINITION. Which commands are well formed: each operand lies within the range the manual gives what it names. A meaning is
total all the same: what names nothing changes nothing. -/

namespace Sys2Proof

open Machine

/-- A master ID (R32). -/
def okMaster (n : Nat) : Bool := decide (n < 120)

/-- A 32-bit word. -/
def okWord (n : Nat) : Bool := decide (n < 2 ^ 32)

/-- A port. -/
def okPort (n : Nat) : Bool := decide (n < 32)

/-- One of four: a quad, an FFT engine, a smear profile. -/
def okQuad (n : Nat) : Bool := decide (n < 4)

/-- A ring (R349). -/
def okRing (n : Nat) : Bool := decide (n < 1024)

/-- A PCI Express function (R347). -/
def okFn (n : Nat) : Bool := decide (n < 64)

/-- A sequencer (R372). -/
def okSeq (n : Nat) : Bool := decide (n < 52)

/-- A tracking channel (R186). -/
def okChan (n : Nat) : Bool := decide (n < 384)

/-- A value of `GNC.CH_SEL.CHANNEL`. -/
def okChanSel (n : Nat) : Bool := decide (n < 512)

/-- A timescale (R77). -/
def okTs (n : Nat) : Bool := decide (n < 64)

/-- One of sixteen: a reference slot, a pulse output, a TDC channel. -/
def okSlot16 (n : Nat) : Bool := decide (n < 16)

/-- A clock output (R158). -/
def okOut12 (n : Nat) : Bool := decide (n < 12)

/-- A clock plane. -/
def okPlane (n : Nat) : Bool := decide (n < 2)

/-- One of eight: a GNSS sample port, a GNSS sequencer. -/
def okGp (n : Nat) : Bool := decide (n < 8)

/-- A cipher pipe, spares included. -/
def okPipe (n : Nat) : Bool := decide (n < 26)

/-- A five-bit number: a compare unit, a leap entry, a Sump reason, a block. -/
def okUnit32 (n : Nat) : Bool := decide (n < 32)

/-- A VID output. -/
def okVidOut (n : Nat) : Bool := decide (n < 8)

/-- A key sequencer. -/
def okKeySeq (n : Nat) : Bool := decide (n < 4)

/-- A PKE engine, the spare included. -/
def okEng (n : Nat) : Bool := decide (n < 5)

/-- A power domain (R436). -/
def okDomain (n : Nat) : Bool := decide (n < 44)

/-- A TAMPER ball. -/
def okBall (n : Nat) : Bool := decide (n < 4)

/-- An LTC output. -/
def okLtc (n : Nat) : Bool := decide (n < 2)

/-- A PTP upstream. -/
def okUp (n : Nat) : Bool := decide (n < 4)

/-- A rail (R490). -/
def okRail (n : Nat) : Bool := decide (n < 10)

/-- A REF_IN input. -/
def okRef8 (n : Nat) : Bool := decide (n < 8)

/-- A quad sequencer. -/
def okQuadSeq (n : Nat) : Bool := decide (n < 32)

/-- A key slot (R394). -/
def okKeySlot (n : Nat) : Bool := decide (n < 1024)

/-- A capture input (R311). -/
def okCapture (n : Nat) : Bool := decide (n < 8)

/-- A target (R33). -/
def okTarget (n : Nat) : Bool := decide (n < 32)

/-- A 64-bit value. -/
def okWord64 (n : Nat) : Bool := decide (n < 2 ^ 64)

/-- A word address of BAR0 (R502). -/
def okAddr (a : Nat) : Bool := decide (a < 2 ^ 22) && a % 4 == 0

/-- Fewer than four byte enables (R503). -/
def okPartial (e : Nat) : Bool := decide (e < 15)

/-- A block that exists: of PRT, a port below 32. -/
def okBlk : Blk → Bool
  | .prt p => decide (p < 32)
  | _ => true

/-- A frame that fits a build buffer (R377). -/
def okFrame (f : List Byte) : Bool := decide (f.length ≤ 2048)

/-- A host command (R359): its ring and function exist, and its payload has 32 bytes. -/
def okCmd (c : HostCmd) : Bool := okRing c.ring && okFn c.fn && c.payload.length == 32

/-- Well-formedness. -/
def Instr.wf : Instr → Bool
  | .registerWrite m addr val => okMaster m && okAddr addr && okWord val
  | .stickyClear m b val _ => okMaster m && okBlk b && okWord val
  | .multiwordLowRead m addr => okMaster m && okAddr addr
  | .multiwordHighWrite m addr val => okMaster m && okAddr addr && okWord val
  | .partialByteWrite m addr val enables => okMaster m && okAddr addr && okWord val && okPartial enables
  | .commitGo m b => okMaster m && okBlk b
  | .commitDiscard m b => okMaster m && okBlk b
  | .commitTakesEffect b _ => okBlk b
  | .rspBankRelease _ => true
  | .ledgerAuditRequest m val _ => okMaster m && okWord val
  | .ledgerAutoAudit _ => true
  | .ledgerAuditEnd _ => true
  | .unitReinit _ _ _ => true
  | .queueHwReset m val _ => okMaster m && okWord val
  | .powerOnReset _ => true
  | .loReady _ => true
  | .loFallback _ => true
  | .timingPllLock => true
  | .bootImageLoad _ _ => true
  | .poweronSelfTest _ => true
  | .selfTestDone _ _ _ _ _ => true
  | .modeReqService m _ => okMaster m
  | .modeReqDegraded m _ => okMaster m
  | .modeReqMaintenance m block _ => okMaster m && okUnit32 block
  | .modeReqRelease m block _ => okMaster m && okUnit32 block
  | .modeReqQuiesce m _ => okMaster m
  | .modeReqTwinStandby m _ => okMaster m
  | .modeReqProvisioning m _ => okMaster m
  | .modeReqKeepAlive m _ _ => okMaster m
  | .modeReqLockdown m _ => okMaster m
  | .twinModeRequest _ _ => true
  | .warmReset m _ _ _ => okMaster m
  | .perst _ => true
  | .tamperEvent ball _ => okBall ball
  | .policyWrite m val _ => okMaster m && okWord val
  | .loLoss _ _ => true
  | .loCtrlWrite m val _ _ => okMaster m && okWord val
  | .loSwitchRetry _ _ => true
  | .oscillatorReady _ _ _ => true
  | .steeringPortWrite _ _ _ _ => true
  | .slewDone n _ => okTs n
  | .leapWarnStart _ => true
  | .leapDone _ => true
  | .smearStart prof entry _ => okQuad prof && okUnit32 entry
  | .snapGo m ts _ => okMaster m && okTs ts
  | .compareFire u _ _ => okUnit32 u
  | .selectorTick _ _ => true
  | .holdoffElapsed n _ => okSlot16 n
  | .failHoldElapsed n _ => okSlot16 n
  | .disputeWindowEnd _ => true
  | .refInEdge i _ _ => okRef8 i
  | .refInAbsent i _ => okRef8 i
  | .refokChange i _ _ => okRef8 i
  | .gnssSolution c _ => okCmd c
  | .gnssSlotLos _ => true
  | .loopUpdate _ => true
  | .fallbackUpdate _ => true
  | .pullDone _ => true
  | .lockTimeElapsed _ => true
  | .unlockTimeout _ => true
  | .holdoverSecond _ => true
  | .estimatorUpdate _ => true
  | .historyRecord _ _ _ _ => true
  | .swCtrlWrite m val _ => okMaster m && okWord64 val
  | .swTimeout _ => true
  | .stepCmd m val _ => okMaster m && okWord val
  | .dscSeqFaultTimeout _ => true
  | .grtCtrlWrite m val _ => okMaster m && okWord val
  | .grtRetry m _ => okMaster m
  | .grottoWarm _ _ => true
  | .grottoReady _ _ => true
  | .grottoReadyLost _ _ => true
  | .grottoBandLost _ _ => true
  | .vhtrLow _ _ => true
  | .grottoSensorFault _ _ _ => true
  | .alignGo m _ => okMaster m
  | .outputAlign n _ _ => okOut12 n
  | .planeLockLost p _ => okPlane p
  | .planeLockReturn p _ => okPlane p
  | .phaseWalkDone n _ => okOut12 n
  | .search c _ => okCmd c
  | .searchCaptureStart e _ => okQuad e
  | .searchReport e _ _ => okQuad e
  | .searchAbort c _ => okCmd c
  | .samplePortPresent p _ _ => okGp p
  | .samplePortLost p _ _ => okGp p
  | .sampleTick p _ _ _ _ _ _ => okGp p
  | .correlatorDump u _ _ => okGp u
  | .dumpClear ch _ => okChan ch
  | .dumpPop g _ => okGp g
  | .channelSteeringWrite g ch _ _ _ _ => okGp g && okChan ch
  | .steerTimeout ch _ => okChan ch
  | .chRead m ch _ => okMaster m && okChanSel ch
  | .chLoad m ch _ => okMaster m && okChanSel ch
  | .chRelease m ch _ => okMaster m && okChanSel ch
  | .chOpNone m ch _ => okMaster m && okChanSel ch
  | .channelStart ch _ _ => okChan ch
  | .burstStart g _ => okGp g
  | .burstEnd g _ => okGp g
  | .epochDeliver _ => true
  | .gnssNavSend g _ _ => okGp g
  | .spoofIndicatorWrite g word _ => okGp g && okWord word
  | .linkLock p _ => okPort p
  | .calDone p _ _ _ => okPort p
  | .linkDown p _ _ _ => okPort p
  | .frameReceive p _ _ _ _ _ _ => okPort p
  | .portWakeComplete p _ => okPort p
  | .portSleepEntry p _ => okPort p
  | .downshift p _ _ _ => okPort p
  | .upshift p _ _ _ => okPort p
  | .preemptVerify p _ _ => okPort p
  | .statsSnap c _ => okCmd c
  | .statsPeriodicSnap p _ => okPort p
  | .esmcPduReceive _ _ => true
  | .esmcTimeout p _ => okPort p
  | .esmcInfoTx p _ => okPort p
  | .esmcEventTx p _ => okPort p
  | .requestArrival _ _ => true
  | .reservationGrant _ _ _ _ => true
  | .sealDone _ _ => true
  | .launchCheck _ _ => true
  | .rebuild _ _ => true
  | .frameCommit _ _ _ => true
  | .sideBufferExpire _ _ => true
  | .reqActionBuild n _ => okQuadSeq n
  | .reqActionSlowPath n _ => okQuadSeq n
  | .reqActionDiscard n reason _ => okQuadSeq n && okUnit32 reason
  | .buildGo n frame _ _ => okQuadSeq n && okFrame frame
  | .limitScrubVisit q _ _ => okQuad q
  | .maintQuadsWrite m val _ => okMaster m && okWord val
  | .quadFence q _ => okQuad q
  | .qLatReset m q _ => okMaster m && okQuad q
  | .calendarHandoff _ _ => true
  | .grantExpiry _ _ _ => true
  | .grantScrubVisit _ _ => true
  | .grantFree m _ _ => okMaster m
  | .grantCancel m _ _ => okMaster m
  | .grantCancelDomain m _ _ => okMaster m
  | .grantCmdNone m _ _ => okMaster m
  | .upstreamRenew u _ _ => okUp u
  | .upstreamRetry u _ _ => okUp u
  | .announceTimeout u _ => okUp u
  | .mint c _ _ _ => okCmd c
  | .rotate c _ => okCmd c
  | .rotateComplete _ _ => true
  | .pipeKat p _ _ => okPipe p
  | .pulseTrailingEdge n _ => okSlot16 n
  | .captureEdge i _ _ _ _ => okCapture i
  | .schedule c _ => okCmd c
  | .scheduleCancel c _ => okCmd c
  | .videoOutputStart o _ => okVidOut o
  | .videoWalkDone o _ => okVidOut o
  | .ltcFrame n _ => okLtc n
  | .genlockFrame _ _ _ _ _ _ => true
  | .posGo m val _ => okMaster m && okWord val
  | .ltcUbitsPortWrite n val _ => okLtc n && okWord val
  | .compareRearm u ts _ _ => okUnit32 u && okTs ts
  | .tdcEdge c _ _ _ _ _ _ => okSlot16 c
  | .tdcGateEnd c _ _ => okSlot16 c
  | .tdcCalStart c _ => okSlot16 c
  | .tdcCalDone c _ _ => okSlot16 c
  | .interpSwap c _ => okSlot16 c
  | .tbPresent _ _ _ => true
  | .tbLost _ _ => true
  | .tbSettled _ => true
  | .anchorGoTb m _ _ => okMaster m
  | .anchorGoGr m _ _ => okMaster m
  | .ringDataWrite m val _ => okMaster m && okWord val
  | .ringEnable m ring _ => okMaster m && okRing ring
  | .ringDisable m ring _ => okMaster m && okRing ring
  | .ringOpInvalid m ring _ _ => okMaster m && okRing ring
  | .ringDrained ring _ => okRing ring
  | .doorbellSqTail f _ _ _ _ => okFn f
  | .doorbellCqHead f _ _ _ _ => okFn f
  | .descFetch ring _ _ _ => okRing ring
  | .completionWrite ring _ => okRing ring
  | .msixModerationTimeout ring _ => okRing ring
  | .nop c _ => okCmd c
  | .transmitFrame ring _ _ _ => okRing ring
  | .txLinkTimeout _ _ => true
  | .receiveFrameWrite _ _ => true
  | .rxStarved _ _ => true
  | .eventDeliver _ => true
  | .eventFlushTimeout ring _ => okRing ring
  | .flr f _ => okFn f
  | .busMasterClear f _ => okFn f
  | .busMasterSet f _ => okFn f
  | .pcieLinkLoss _ => true
  | .pcieLinkUp _ _ _ _ => true
  | .seqNop n _ _ => okSeq n
  | .seqAdd n _ _ => okSeq n
  | .seqSub n _ _ => okSeq n
  | .seqAddc n _ _ => okSeq n
  | .seqSubc n _ _ => okSeq n
  | .seqAnd n _ _ => okSeq n
  | .seqOr n _ _ => okSeq n
  | .seqXor n _ _ => okSeq n
  | .seqShl n _ _ => okSeq n
  | .seqShr n _ _ => okSeq n
  | .seqSar n _ _ => okSeq n
  | .seqMul n _ _ => okSeq n
  | .seqMulh n _ _ => okSeq n
  | .seqMulhu n _ _ => okSeq n
  | .seqClz n _ _ => okSeq n
  | .seqAddi n _ _ => okSeq n
  | .seqAndi n _ _ => okSeq n
  | .seqOri n _ _ => okSeq n
  | .seqXori n _ _ => okSeq n
  | .seqShli n _ _ => okSeq n
  | .seqShri n _ _ => okSeq n
  | .seqSari n _ _ => okSeq n
  | .seqLui n _ _ => okSeq n
  | .seqLd n _ _ _ => okSeq n
  | .seqSt n _ _ => okSeq n
  | .seqFld n _ _ => okSeq n
  | .fldDataReturn n _ _ => okSeq n
  | .fldBusTimeout n _ => okSeq n
  | .seqFst n _ _ => okSeq n
  | .seqBeq n _ _ => okSeq n
  | .seqBne n _ _ => okSeq n
  | .seqBlt n _ _ => okSeq n
  | .seqBge n _ _ => okSeq n
  | .seqBltu n _ _ => okSeq n
  | .seqBgeu n _ _ => okSeq n
  | .seqJal n _ _ => okSeq n
  | .seqJr n _ _ => okSeq n
  | .seqSafe n _ _ => okSeq n
  | .seqWait n _ _ => okSeq n
  | .waitWake n _ => okSeq n
  | .seqTime n _ _ => okSeq n
  | .seqFaultInstr n _ _ => okSeq n
  | .seqAutoRestart n _ => okSeq n
  | .seqWatchdog n _ => okSeq n
  | .progLoad c _ _ => okCmd c
  | .swapTimeout n _ => okSeq n
  | .swapArm m _ _ _ => okMaster m
  | .swapDisarm m _ _ _ => okMaster m
  | .swapOpInvalid m _ _ => okMaster m
  | .seqHalt m _ => okMaster m
  | .seqResume m _ => okMaster m
  | .seqRestart m _ => okMaster m
  | .ldDataWrite m val _ => okMaster m && okWord val
  | .keyUse k slot _ _ _ _ => okKeySeq k && okKeySlot slot
  | .rowGo k _ _ _ _ _ _ => okKeySeq k
  | .rowDone k _ => okKeySeq k
  | .keyHeadComplete k _ _ => okKeySeq k
  | .keyImport c _ _ => okCmd c
  | .keyGenerate c _ => okCmd c
  | .keyZeroise c _ _ => okCmd c
  | .pkRun c _ => okCmd c
  | .pkJobComplete q _ _ _ => okKeySeq q
  | .pkeKat e _ _ => okEng e
  | .findGo m _ _ => okMaster m
  | .journalAppend c _ => okCmd c
  | .imageWrite c _ _ _ _ _ => okCmd c
  | .imageCommit c _ _ _ => okCmd c
  | .flsRead c _ _ _ _ => okCmd c
  | .journalRecord _ => true
  | .journalPageProgram _ _ => true
  | .journalFlushTimeout _ _ => true
  | .scrubPassStart _ => true
  | .scrubPassEnd _ _ _ => true
  | .wearLevelMove _ _ => true
  | .flowstoneKaCycle _ _ => true
  | .nandTimeout c _ => okCmd c
  | .domainConsent d _ _ => okDomain d
  | .consentTimeout d _ _ => okDomain d
  | .wakeRegulatorDone d _ => okDomain d
  | .wakeOscReady d _ _ => okDomain d
  | .wakePllLock d _ _ => okDomain d
  | .wakeStepTimeout d _ => okDomain d
  | .domReq m val _ => okMaster m && okWord val
  | .dozeEnter d _ => okDomain d
  | .dozeExit d _ => okDomain d
  | .railFault r _ _ => okRail r
  | .tempHigh _ _ => true
  | .testBlock c _ _ => okCmd c
  | .testComplete _ _ => true
  | .jtagIdcode _ => true
  | .jtagBypass _ => true
  | .jtagSamplePreload _ => true
  | .jtagExtest _ => true
  | .jtagIntest _ => true
  | .nirelLinkLock _ => true
  | .nirelPairing _ _ => true
  | .nirelPairingRetry _ _ => true
  | .nirelLinkDown _ => true
  | .timingFrameTx _ => true
  | .timingFrameRx _ _ _ => true
  | .twinSample _ => true
  | .mirrorItemReceive _ _ _ _ => true
  | .handoverGive c _ => okCmd c
  | .handoverTake c _ _ => okCmd c
  | .handoverDrainDone _ _ _ => true
  | .handoverDeltaAck _ => true
  | .globalFreeze m val _ => okMaster m && okWord val
  | .periodicFreeze _ => true
  | .counterSnap c _ => okCmd c
  | .snapDeliveryEnd _ _ => true
  | .memoryScrubVisit target _ _ _ _ => okTarget target
  | .vhtrRestored _ _ => true
  | .genlockFrameMissing _ => true
  | .tamperRelease ball _ => okBall ball
  | .msixUnmask f _ _ _ => okFn f
  | .modeReqUnreachable m _ _ => okMaster m
  | .seqRunOpNone m _ => okMaster m
  | .resetCtrlWrongKey m val _ => okMaster m && okWord val
  | .alternateNotReady _ => true

/-- A well-formed command. -/
abbrev WellFormed (i : Instr) : Prop := i.wf = true

end Sys2Proof
end

