-- ==== Sys2Proof/Machine/Bits.lean ====
section
/-! DEFINITION. Bit fields, signs and byte order: the plain arithmetic every register and record uses.
Fields are numbered as the manual numbers them, bit 0 the least significant (R8); records are little-endian
(R4, R7). -/

namespace Sys2Proof.Machine

/-- The `w` bits of `x` from bit `lo` up. -/
def bitsOf (x lo w : Nat) : Nat := (x >>> lo) % 2 ^ w

/-- `x` with its `w` bits from bit `lo` up replaced by the low `w` bits of `v`. -/
def withBits (x lo w v : Nat) : Nat := x - (bitsOf x lo w) * 2 ^ lo + (v % 2 ^ w) * 2 ^ lo

/-- Bit `i` of `x`. -/
def bitAt (x i : Nat) : Bool := (x >>> i) % 2 == 1

/-- 1 for true, 0 for false. -/
def b2n (b : Bool) : Nat := if b then 1 else 0

/-- The two's-complement reading of the low `w` bits of `x`. -/
def toSigned (w x : Nat) : Int :=
  let y := x % 2 ^ w
  if y < 2 ^ (w - 1) then (y : Int) else (y : Int) - (2 ^ w : Nat)

/-- The low `w` bits of the two's complement of `i`. -/
def ofSigned (w : Nat) (i : Int) : Nat := (i % ((2 ^ w : Nat) : Int)).toNat

/-- `i` held within ±(2^(w-1) - 1), as a saturating signed register shows it. -/
def saturate (w : Nat) (i : Int) : Int :=
  let m : Int := ((2 ^ (w - 1) : Nat) : Int) - 1
  if i > m then m else if i < -m then -m else i

/-- Division truncating towards zero. -/
def truncDiv (a b : Int) : Int := a.tdiv b

/-- Division rounded to the nearest integer, ties away from zero; `b` positive. -/
def roundDiv (a b : Int) : Int :=
  if 0 ≤ a then (2 * a + b) / (2 * b) else -((2 * (-a) + b) / (2 * b))

/-- Division rounded up; 0 for a zero divisor. -/
def ceilDiv (a b : Nat) : Nat := if b = 0 then 0 else (a + b - 1) / b

/-- The number a list of bytes spells, byte 0 least significant. -/
def leNat : List Byte → Nat
  | [] => 0
  | b :: r => b.toNat + 256 * leNat r

/-- `n` bytes of `x`, byte 0 least significant. -/
def leBytes : Nat → Nat → List Byte
  | 0, _ => []
  | n + 1, x => BitVec.ofNat 8 x :: leBytes n (x / 256)

/-- The number in bytes `[off, off + n)` of a record; bytes beyond its end read 0. -/
def leAt (p : List Byte) (off n : Nat) : Nat := leNat ((p.drop off).take n)

/-- The bytes `[lo, hi)` of a payload are all zero. -/
def zeroBytes (p : List Byte) (lo hi : Nat) : Bool := ((p.drop lo).take (hi - lo)).all (· == 0)

/-- `n` zero bytes. -/
def zeros (n : Nat) : List Byte := List.replicate n 0

/-- `p` cut or padded with zeros to `n` bytes. -/
def fit (n : Nat) (p : List Byte) : List Byte := (p ++ zeros n).take n

/-- One more, modulo 2^w: the manual's counters. -/
def incMod (w x : Nat) : Nat := (x + 1) % 2 ^ w

/-- The lowest code among those given, 0 (OK) excepted: R24. An empty list answers 0. -/
def lowestCode : List Nat → Nat
  | [] => 0
  | c :: r =>
    let d := lowestCode r
    if c = 0 then d else if d = 0 then c else min c d

/-- `c` if the condition holds, else no code. -/
def codeIf (b : Bool) (c : Nat) : Nat := if b then c else 0

/-- The number of bits set among the low `n` bits of `x`. -/
def popCount : Nat → Nat → Nat
  | 0, _ => 0
  | n + 1, x => x % 2 + popCount n (x / 2)

/-- The least `i < n` for which `p i`, if any. -/
def firstIdx (n : Nat) (p : Nat → Bool) : Option Nat := (List.range n).find? p

end Sys2Proof.Machine
end

