-- ==== Sys2Proof/Machine/RegSpec.lean ====
section
/-! DEFINITION. What a register table of the manual says of one register: its offset, stride and count, and of
each field its bits, access code and after-reset value (R7 to R11). -/

namespace Sys2Proof.Machine

/-- The access codes of R11. -/
inductive Acc | rw | ro | wo | w1c | w1s | rws
  deriving DecidableEq, Repr

/-- One field of a register table. -/
structure FieldSpec where
  name : String
  hi : Nat
  lo : Nat
  acc : Acc
  reset : Nat
  deriving DecidableEq, Repr

/-- One register (or an array of them) of a block's table; `off` is the byte offset from the block's base.
A register that is one word of a multi-word value (R14) has `words` above 1 and is the `lead`-th word of it. -/
structure RegSpec where
  name : String
  off : Nat
  stride : Nat
  count : Nat
  lead : Nat
  words : Nat
  fields : List FieldSpec
  deriving DecidableEq, Repr

/-- A field's place: the register's BAR0 address, its lowest bit and its width. -/
structure Fld where
  addr : Nat
  lo : Nat
  w : Nat
  deriving DecidableEq, Repr

/-- The bits of a field as a mask. -/
def FieldSpec.mask (f : FieldSpec) : Nat := 2 ^ (f.hi + 1) - 2 ^ f.lo

/-- The bits of the fields with access code `a`. -/
def RegSpec.maskOf (r : RegSpec) (a : Acc) : Nat :=
  r.fields.foldl (fun m f => if f.acc = a then m ||| f.mask else m) 0

/-- The after-reset value of the register. -/
def RegSpec.resetVal (r : RegSpec) : Nat :=
  r.fields.foldl (fun m f => m ||| (f.reset <<< f.lo)) 0

/-- The index of the instance of the array that lies at offset `o`, if one does. -/
def RegSpec.indexAt (r : RegSpec) (o : Nat) : Option Nat :=
  if o < r.off then none
  else if r.stride = 0 then (if o = r.off then some 0 else none)
  else
    let d := o - r.off
    if d % r.stride = 0 ∧ d / r.stride < r.count then some (d / r.stride) else none

/-- The row of a table that holds offset `o`. -/
def findRow (t : List RegSpec) (o : Nat) : Option RegSpec := t.find? (fun r => (r.indexAt o).isSome)

end Sys2Proof.Machine
end

