-- ==== Sys2Proof/Machine/RegsHost.lean ====
section
/-! DEFINITION. The register tables of the manual for the remaining blocks: PKE, KEY, HIF, SEQ, FLS, PWR, BST,
    PMC and TWN. Each block has
its registers as rows (offset, stride, count, and every field with its bits, access and after-reset
value; the bits no field names are RSVD, R9), and the addresses and fields the meanings use as names. An
after-reset value that the manual does not give as one number stands as 0 here and is set in
Machine/RegReset.lean. -/

namespace Sys2Proof.Machine

namespace PKE

def CTRL : Nat := 0x380000
def CTRL_ENG_EN : Fld := ⟨CTRL, 0, 4⟩
def COMMIT : Nat := 0x380004
def COMMIT_PENDING : Fld := ⟨COMMIT, 2, 1⟩
def STICKY : Nat := 0x380008
def STICKY_INPUT_REFUSED : Fld := ⟨STICKY, 1, 1⟩
def STICKY_PARAM_INSANE : Fld := ⟨STICKY, 2, 1⟩
def STICKY_ABORTED : Fld := ⟨STICKY, 3, 1⟩
def STICKY_POISON : Fld := ⟨STICKY, 4, 1⟩
def STICKY_KAT_FAIL : Fld := ⟨STICKY, 5, 1⟩
def STICKY_ENG_UNUSABLE : Fld := ⟨STICKY, 6, 1⟩
def STICKY_SPARE_USED : Fld := ⟨STICKY, 7, 1⟩
def STICKY_JOB_FAIL : Fld := ⟨STICKY, 8, 1⟩
def STAT : Nat := 0x380010
def STAT_SPARE_FOR : Fld := ⟨STAT, 16, 3⟩
def STAT_SPARE_USED : Fld := ⟨STAT, 19, 1⟩
def TBL_SEL : Nat := 0x380014
def TBL_SEL_CURVE : Fld := ⟨TBL_SEL, 0, 4⟩
def TBL_SEL_PARAM : Fld := ⟨TBL_SEL, 4, 3⟩
def TBL_SEL_WORD : Fld := ⟨TBL_SEL, 8, 5⟩
def TBL_DATA : Nat := 0x380018
def CURVE_STAT : Nat := 0x38001C
def ENG_STAT (n : Nat) : Nat := 0x380020 + 0x4 * n
def ENG_STAT_DONE (n : Nat) : Fld := ⟨ENG_STAT n, 0, 16⟩
def ENG_STAT_QUEUED (n : Nat) : Fld := ⟨ENG_STAT n, 16, 6⟩
def LAST : Nat := 0x380034
def ROWS_LO : Nat := 0x380038
def JOBS_OK : Nat := 0x380040
def JOBS_FAIL : Nat := 0x380044
def INPUT_REFUSED : Nat := 0x380048
def ABORTS : Nat := 0x38004C
def FN_COUNT (n : Nat) : Nat := 0x380050 + 0x4 * n

def rows0 : List RegSpec := [
  ⟨"CTRL", 0x0, 0x0, 1, 0, 1, [⟨"ENG_EN", 3, 0, .rws, 0xF⟩]⟩,
  ⟨"COMMIT", 0x4, 0x0, 1, 0, 1, [⟨"GO", 0, 0, .w1s, 0⟩, ⟨"VIEW", 1, 1, .rw, 0⟩, ⟨"PENDING", 2, 2, .ro, 0⟩,
    ⟨"DISCARD", 3, 3, .w1s, 0⟩, ⟨"REFUSED", 4, 4, .w1c, 0⟩, ⟨"COUNT", 31, 16, .ro, 0⟩]⟩,
  ⟨"STICKY", 0x8, 0x0, 1, 0, 1, [⟨"CFG_REFUSED", 0, 0, .w1c, 0⟩, ⟨"INPUT_REFUSED", 1, 1, .w1c, 0⟩, ⟨"PARAM_INSANE",
    2, 2, .w1c, 0⟩, ⟨"ABORTED", 3, 3, .w1c, 0⟩, ⟨"POISON", 4, 4, .w1c, 0⟩, ⟨"KAT_FAIL", 5, 5, .w1c, 0⟩,
    ⟨"ENG_UNUSABLE", 6, 6, .w1c, 0⟩, ⟨"SPARE_USED", 7, 7, .w1c, 0⟩, ⟨"JOB_FAIL", 8, 8, .w1c, 0⟩]⟩,
  ⟨"INT_EN", 0xC, 0x0, 1, 0, 1, [⟨"EN", 8, 0, .rw, 0xFD⟩]⟩,
  ⟨"STAT", 0x10, 0x0, 1, 0, 1, [⟨"BUSY", 4, 0, .ro, 0⟩, ⟨"USABLE", 12, 8, .ro, 0x1F⟩, ⟨"SPARE_FOR", 18, 16, .ro,
    0⟩, ⟨"SPARE_USED", 19, 19, .ro, 0⟩]⟩,
  ⟨"TBL_SEL", 0x14, 0x0, 1, 0, 1, [⟨"CURVE", 3, 0, .rw, 0⟩, ⟨"PARAM", 6, 4, .rw, 0⟩, ⟨"WORD", 12, 8, .rw, 0⟩]⟩,
  ⟨"TBL_DATA", 0x18, 0x0, 1, 0, 1, [⟨"WORD", 31, 0, .rws, 0⟩]⟩,
  ⟨"CURVE_STAT", 0x1C, 0x0, 1, 0, 1, [⟨"CHECKED", 15, 0, .ro, 0x1F⟩, ⟨"INSANE", 31, 16, .ro, 0⟩]⟩,
  ⟨"ENG_STAT", 0x20, 0x4, 5, 0, 1, [⟨"DONE", 15, 0, .ro, 0⟩, ⟨"QUEUED", 21, 16, .ro, 0⟩]⟩,
  ⟨"LAST", 0x34, 0x0, 1, 0, 1, [⟨"FUNCTION", 7, 0, .ro, 0⟩, ⟨"STATUS", 15, 8, .ro, 0⟩, ⟨"ENGINE", 18, 16, .ro, 0⟩]⟩,
  ⟨"ROWS_LO", 0x38, 0x0, 1, 0, 2, [⟨"VAL", 31, 0, .ro, 0⟩]⟩,
  ⟨"ROWS_HI", 0x3C, 0x0, 1, 1, 2, [⟨"VAL", 15, 0, .ro, 0⟩]⟩,
  ⟨"JOBS_OK", 0x40, 0x0, 1, 0, 1, [⟨"VAL", 31, 0, .ro, 0⟩]⟩,
  ⟨"JOBS_FAIL", 0x44, 0x0, 1, 0, 1, [⟨"VAL", 31, 0, .ro, 0⟩]⟩,
  ⟨"INPUT_REFUSED", 0x48, 0x0, 1, 0, 1, [⟨"VAL", 31, 0, .ro, 0⟩]⟩,
  ⟨"ABORTS", 0x4C, 0x0, 1, 0, 1, [⟨"VAL", 31, 0, .ro, 0⟩]⟩,
  ⟨"FN_COUNT", 0x50, 0x4, 12, 0, 1, [⟨"VAL", 31, 0, .ro, 0⟩]⟩]

/-- The PKE registers (18_key_store_and_public_key.md). -/
def rows : List RegSpec := rows0

end PKE

namespace KEY

def CTRL : Nat := 0x390000
def STICKY : Nat := 0x390008
def STICKY_CFG_REFUSED : Fld := ⟨STICKY, 0, 1⟩
def STICKY_IMPORTED : Fld := ⟨STICKY, 1, 1⟩
def STICKY_GENERATED : Fld := ⟨STICKY, 2, 1⟩
def STICKY_ZEROISED : Fld := ⟨STICKY, 3, 1⟩
def STICKY_UNWRAP_FAIL : Fld := ⟨STICKY, 4, 1⟩
def STICKY_POISON : Fld := ⟨STICKY, 5, 1⟩
def STICKY_ALL_ZEROISED : Fld := ⟨STICKY, 6, 1⟩
def STICKY_ABORT_ZEROISED : Fld := ⟨STICKY, 7, 1⟩
def STAT : Nat := 0x390010
def STAT_VALID : Fld := ⟨STAT, 0, 11⟩
def STAT_POISONED : Fld := ⟨STAT, 16, 11⟩
def STAT_DEVKEY_OK : Fld := ⟨STAT, 31, 1⟩
def SLOT_SEL : Nat := 0x390014
def SLOT_SEL_SLOT : Fld := ⟨SLOT_SEL, 0, 10⟩
def SLOT_SEL_WORD : Fld := ⟨SLOT_SEL, 16, 2⟩
def SLOT_META : Nat := 0x390018
def IMPORTS : Nat := 0x39001C
def GENERATES : Nat := 0x390020
def ZEROISES : Nat := 0x390024
def UNWRAP_FAILS : Nat := 0x390028
def USES_LO : Nat := 0x39002C
def LAST : Nat := 0x390034
def ZERO_ALL_SEC : Nat := 0x390038
def DEVKEY_ID : Nat := 0x39003C
def FIND_CTRL : Nat := 0x390040
def FIND_CTRL_SPAN : Fld := ⟨FIND_CTRL, 0, 5⟩
def FIND_RESULT : Nat := 0x390044
def USAGE_SLOTS (n : Nat) : Nat := 0x390048 + 0x4 * n
def REFUSED : Nat := 0x39005C

def rows0 : List RegSpec := [
  ⟨"CTRL", 0x0, 0x0, 1, 0, 1, [⟨"VF_IMPORT", 0, 0, .rws, 0⟩, ⟨"VF_GENERATE", 1, 1, .rws, 0⟩, ⟨"VF_ZEROISE", 2, 2,
    .rws, 0⟩]⟩,
  ⟨"COMMIT", 0x4, 0x0, 1, 0, 1, [⟨"GO", 0, 0, .w1s, 0⟩, ⟨"VIEW", 1, 1, .rw, 0⟩, ⟨"PENDING", 2, 2, .ro, 0⟩,
    ⟨"DISCARD", 3, 3, .w1s, 0⟩, ⟨"REFUSED", 4, 4, .w1c, 0⟩, ⟨"COUNT", 31, 16, .ro, 0⟩]⟩,
  ⟨"STICKY", 0x8, 0x0, 1, 0, 1, [⟨"CFG_REFUSED", 0, 0, .w1c, 0⟩, ⟨"IMPORTED", 1, 1, .w1c, 0⟩, ⟨"GENERATED", 2, 2,
    .w1c, 0⟩, ⟨"ZEROISED", 3, 3, .w1c, 0⟩, ⟨"UNWRAP_FAIL", 4, 4, .w1c, 0⟩, ⟨"POISON", 5, 5, .w1c, 0⟩,
    ⟨"ALL_ZEROISED", 6, 6, .w1c, 0⟩, ⟨"ABORT_ZEROISED", 7, 7, .w1c, 0⟩]⟩,
  ⟨"INT_EN", 0xC, 0x0, 1, 0, 1, [⟨"EN", 7, 0, .rw, 0xF1⟩]⟩,
  ⟨"STAT", 0x10, 0x0, 1, 0, 1, [⟨"VALID", 10, 0, .ro, 1⟩, ⟨"POISONED", 26, 16, .ro, 0⟩, ⟨"DEVKEY_OK", 31, 31, .ro,
    1⟩]⟩,
  ⟨"SLOT_SEL", 0x14, 0x0, 1, 0, 1, [⟨"SLOT", 9, 0, .rw, 0⟩, ⟨"WORD", 17, 16, .rw, 0⟩]⟩,
  ⟨"SLOT_META", 0x18, 0x0, 1, 0, 1, [⟨"VAL", 31, 0, .ro, 0⟩]⟩,
  ⟨"IMPORTS", 0x1C, 0x0, 1, 0, 1, [⟨"VAL", 31, 0, .ro, 0⟩]⟩,
  ⟨"GENERATES", 0x20, 0x0, 1, 0, 1, [⟨"VAL", 31, 0, .ro, 0⟩]⟩,
  ⟨"ZEROISES", 0x24, 0x0, 1, 0, 1, [⟨"VAL", 31, 0, .ro, 0⟩]⟩,
  ⟨"UNWRAP_FAILS", 0x28, 0x0, 1, 0, 1, [⟨"VAL", 31, 0, .ro, 0⟩]⟩,
  ⟨"USES_LO", 0x2C, 0x0, 1, 0, 2, [⟨"VAL", 31, 0, .ro, 0⟩]⟩,
  ⟨"USES_HI", 0x30, 0x0, 1, 1, 2, [⟨"VAL", 15, 0, .ro, 0⟩]⟩,
  ⟨"LAST", 0x34, 0x0, 1, 0, 1, [⟨"OP", 1, 0, .ro, 0⟩, ⟨"STATUS", 15, 8, .ro, 0⟩, ⟨"SLOT", 25, 16, .ro, 0⟩]⟩,
  ⟨"ZERO_ALL_SEC", 0x38, 0x0, 1, 0, 1, [⟨"VAL", 31, 0, .ro, 0⟩]⟩,
  ⟨"DEVKEY_ID", 0x3C, 0x0, 1, 0, 1, [⟨"VAL", 31, 0, .ro, 0⟩]⟩,
  ⟨"FIND_CTRL", 0x40, 0x0, 1, 0, 1, [⟨"SPAN", 4, 0, .rw, 1⟩, ⟨"GO", 8, 8, .w1s, 0⟩, ⟨"BUSY", 9, 9, .ro, 0⟩]⟩,
  ⟨"FIND_RESULT", 0x44, 0x0, 1, 0, 1, [⟨"SLOT", 9, 0, .ro, 0⟩, ⟨"FOUND", 16, 16, .ro, 0⟩]⟩,
  ⟨"USAGE_SLOTS", 0x48, 0x4, 5, 0, 1, [⟨"VAL", 31, 0, .ro, 0⟩]⟩,
  ⟨"REFUSED", 0x5C, 0x0, 1, 0, 1, [⟨"VAL", 31, 0, .ro, 0⟩]⟩]

/-- The KEY registers (18_key_store_and_public_key.md). -/
def rows : List RegSpec := rows0

end KEY

namespace HIF

def CTRL : Nat := 0x3A0000
def CTRL_ALARM_VEC : Fld := ⟨CTRL, 0, 6⟩
def CTRL_ALARM_EN : Fld := ⟨CTRL, 6, 1⟩
def CTRL_ALARM_RING : Fld := ⟨CTRL, 16, 10⟩
def STICKY : Nat := 0x3A0008
def STICKY_CFG_REFUSED : Fld := ⟨STICKY, 0, 1⟩
def STICKY_DMA_ABORT : Fld := ⟨STICKY, 1, 1⟩
def STICKY_DB_BAD : Fld := ⟨STICKY, 2, 1⟩
def STICKY_RING_ERROR : Fld := ⟨STICKY, 3, 1⟩
def STICKY_RX_STARVED : Fld := ⟨STICKY, 4, 1⟩
def STICKY_EVENT_LOST : Fld := ⟨STICKY, 5, 1⟩
def STICKY_STAMP_OVF : Fld := ⟨STICKY, 6, 1⟩
def STICKY_FLR : Fld := ⟨STICKY, 7, 1⟩
def STICKY_LINK_DOWN : Fld := ⟨STICKY, 8, 1⟩
def STICKY_LINK_DEGRADED : Fld := ⟨STICKY, 9, 1⟩
def STICKY_CMD_FAIL : Fld := ⟨STICKY, 11, 1⟩
def LINK_STAT : Nat := 0x3A0010
def LINK_STAT_UP : Fld := ⟨LINK_STAT, 0, 1⟩
def LINK_STAT_GEN : Fld := ⟨LINK_STAT, 1, 3⟩
def LINK_STAT_WIDTH : Fld := ⟨LINK_STAT, 4, 5⟩
def LINK_STAT_NUM_VFS : Fld := ⟨LINK_STAT, 16, 6⟩
def LINK_STAT_DOWNS : Fld := ⟨LINK_STAT, 24, 8⟩
def LINK_CTRL : Nat := 0x3A0014
def LINK_CTRL_MAX_GEN : Fld := ⟨LINK_CTRL, 0, 3⟩
def LINK_CTRL_MAX_WIDTH : Fld := ⟨LINK_CTRL, 3, 5⟩
def FN_SEL : Nat := 0x3A0018
def FN_CFG : Nat := 0x3A001C
def FN_STAT : Nat := 0x3A0020
def RING_SEL : Nat := 0x3A0024
def RING_DATA : Nat := 0x3A0028
def RING_CTRL : Nat := 0x3A002C
def RING_STAT : Nat := 0x3A0030
def RING_IDX : Nat := 0x3A0034
def RING_DROP : Nat := 0x3A0038
def RING_DONE : Nat := 0x3A003C
def DMA_ABORTS : Nat := 0x3A0040
def DMA_ABORT_LAST : Nat := 0x3A0044
def RX_STARVED : Nat := 0x3A0050
def EVENT_LOST : Nat := 0x3A0054
def STAMP_LOST : Nat := 0x3A0058
def DESC_FETCHED_LO : Nat := 0x3A005C
def CPL_WRITTEN_LO : Nat := 0x3A0064
def MSIX_SENT : Nat := 0x3A006C
def CMD_REFUSED : Nat := 0x3A0070
def RING_ERR_SUMMARY : Nat := 0x3A0074
def FLR_COUNT : Nat := 0x3A0078
def LAST_CMD : Nat := 0x3A007C
def RING_ERR (n : Nat) : Nat := 0x3A0080 + 0x4 * n

def rows0 : List RegSpec := [
  ⟨"CTRL", 0x0, 0x0, 1, 0, 1, [⟨"ALARM_VEC", 5, 0, .rws, 0⟩, ⟨"ALARM_EN", 6, 6, .rws, 0⟩, ⟨"ALARM_RING", 25, 16,
    .rws, 0⟩]⟩,
  ⟨"COMMIT", 0x4, 0x0, 1, 0, 1, [⟨"GO", 0, 0, .w1s, 0⟩, ⟨"VIEW", 1, 1, .rw, 0⟩, ⟨"PENDING", 2, 2, .ro, 0⟩,
    ⟨"DISCARD", 3, 3, .w1s, 0⟩, ⟨"REFUSED", 4, 4, .w1c, 0⟩, ⟨"COUNT", 31, 16, .ro, 0⟩]⟩,
  ⟨"STICKY", 0x8, 0x0, 1, 0, 1, [⟨"CFG_REFUSED", 0, 0, .w1c, 0⟩, ⟨"DMA_ABORT", 1, 1, .w1c, 0⟩, ⟨"DB_BAD", 2, 2,
    .w1c, 0⟩, ⟨"RING_ERROR", 3, 3, .w1c, 0⟩, ⟨"RX_STARVED", 4, 4, .w1c, 0⟩, ⟨"EVENT_LOST", 5, 5, .w1c, 0⟩,
    ⟨"STAMP_OVF", 6, 6, .w1c, 0⟩, ⟨"FLR", 7, 7, .w1c, 0⟩, ⟨"LINK_DOWN", 8, 8, .w1c, 0⟩, ⟨"LINK_DEGRADED", 9, 9,
    .w1c, 0⟩, ⟨"PCIE_UNCOR", 10, 10, .w1c, 0⟩, ⟨"CMD_FAIL", 11, 11, .w1c, 0⟩]⟩,
  ⟨"INT_EN", 0xC, 0x0, 1, 0, 1, [⟨"EN", 11, 0, .rw, 0x5FB⟩]⟩,
  ⟨"LINK_STAT", 0x10, 0x0, 1, 0, 1, [⟨"UP", 0, 0, .ro, 0⟩, ⟨"GEN", 3, 1, .ro, 0⟩, ⟨"WIDTH", 8, 4, .ro, 0⟩,
    ⟨"NUM_VFS", 21, 16, .ro, 0⟩, ⟨"DOWNS", 31, 24, .ro, 0⟩]⟩,
  ⟨"LINK_CTRL", 0x14, 0x0, 1, 0, 1, [⟨"MAX_GEN", 2, 0, .rws, 5⟩, ⟨"MAX_WIDTH", 7, 3, .rws, 0x10⟩]⟩,
  ⟨"FN_SEL", 0x18, 0x0, 1, 0, 1, [⟨"FN", 5, 0, .rw, 0⟩]⟩,
  ⟨"FN_CFG", 0x1C, 0x0, 1, 0, 1, [⟨"RING_BASE", 9, 0, .rws, 0⟩, ⟨"RING_COUNT", 19, 10, .rws, 0⟩, ⟨"VECTORS", 26,
    20, .rws, 0⟩]⟩,
  ⟨"FN_STAT", 0x20, 0x0, 1, 0, 1, [⟨"BME", 0, 0, .ro, 0⟩, ⟨"MSIX_EN", 1, 1, .ro, 0⟩, ⟨"FN_MASK", 2, 2, .ro, 0⟩,
    ⟨"FLR_ACTIVE", 3, 3, .ro, 0⟩, ⟨"ENABLED", 25, 16, .ro, 0⟩]⟩,
  ⟨"RING_SEL", 0x24, 0x0, 1, 0, 1, [⟨"RING", 9, 0, .rw, 0⟩, ⟨"WORD", 18, 16, .rw, 0⟩]⟩,
  ⟨"RING_DATA", 0x28, 0x0, 1, 0, 1, [⟨"WORD", 31, 0, .rw, 0⟩]⟩,
  ⟨"RING_CTRL", 0x2C, 0x0, 1, 0, 1, [⟨"RING", 9, 0, .rw, 0⟩, ⟨"OP", 13, 12, .rw, 0⟩, ⟨"GO", 15, 15, .w1s, 0⟩,
    ⟨"BUSY", 16, 16, .ro, 0⟩, ⟨"STATUS", 31, 24, .ro, 0⟩]⟩,
  ⟨"RING_STAT", 0x30, 0x0, 1, 0, 1, [⟨"STATE", 1, 0, .ro, 0⟩, ⟨"OWNER", 13, 8, .ro, 0⟩, ⟨"OWNED", 14, 14, .ro, 1⟩,
    ⟨"HELD", 31, 16, .ro, 0⟩]⟩,
  ⟨"RING_IDX", 0x34, 0x0, 1, 0, 1, [⟨"SQ_HEAD", 15, 0, .ro, 0⟩, ⟨"CQ_TAIL", 31, 16, .ro, 0⟩]⟩,
  ⟨"RING_DROP", 0x38, 0x0, 1, 0, 1, [⟨"VAL", 31, 0, .ro, 0⟩]⟩,
  ⟨"RING_DONE", 0x3C, 0x0, 1, 0, 1, [⟨"VAL", 31, 0, .ro, 0⟩]⟩,
  ⟨"DMA_ABORTS", 0x40, 0x0, 1, 0, 1, [⟨"VAL", 31, 0, .ro, 0⟩]⟩,
  ⟨"DMA_ABORT_LAST", 0x44, 0x0, 1, 0, 1, [⟨"RING", 9, 0, .ro, 0⟩, ⟨"FN", 21, 16, .ro, 0⟩, ⟨"CAUSE", 25, 24, .ro,
    0⟩, ⟨"WHAT", 27, 26, .ro, 0⟩]⟩,
  ⟨"PCIE_ERR_COR", 0x48, 0x0, 1, 0, 1, [⟨"VAL", 31, 0, .ro, 0⟩]⟩,
  ⟨"PCIE_ERR_UNCOR", 0x4C, 0x0, 1, 0, 1, [⟨"VAL", 31, 0, .ro, 0⟩]⟩,
  ⟨"RX_STARVED", 0x50, 0x0, 1, 0, 1, [⟨"VAL", 31, 0, .ro, 0⟩]⟩,
  ⟨"EVENT_LOST", 0x54, 0x0, 1, 0, 1, [⟨"VAL", 31, 0, .ro, 0⟩]⟩,
  ⟨"STAMP_LOST", 0x58, 0x0, 1, 0, 1, [⟨"VAL", 31, 0, .ro, 0⟩]⟩,
  ⟨"DESC_FETCHED_LO", 0x5C, 0x0, 1, 0, 2, [⟨"VAL", 31, 0, .ro, 0⟩]⟩]

def rows1 : List RegSpec := [
  ⟨"DESC_FETCHED_HI", 0x60, 0x0, 1, 1, 2, [⟨"VAL", 15, 0, .ro, 0⟩]⟩,
  ⟨"CPL_WRITTEN_LO", 0x64, 0x0, 1, 0, 2, [⟨"VAL", 31, 0, .ro, 0⟩]⟩,
  ⟨"CPL_WRITTEN_HI", 0x68, 0x0, 1, 1, 2, [⟨"VAL", 15, 0, .ro, 0⟩]⟩,
  ⟨"MSIX_SENT", 0x6C, 0x0, 1, 0, 1, [⟨"VAL", 31, 0, .ro, 0⟩]⟩,
  ⟨"CMD_REFUSED", 0x70, 0x0, 1, 0, 1, [⟨"VAL", 31, 0, .ro, 0⟩]⟩,
  ⟨"RING_ERR_SUMMARY", 0x74, 0x0, 1, 0, 1, [⟨"ERR", 31, 0, .ro, 0⟩]⟩,
  ⟨"FLR_COUNT", 0x78, 0x0, 1, 0, 1, [⟨"VAL", 31, 0, .ro, 0⟩]⟩,
  ⟨"LAST_CMD", 0x7C, 0x0, 1, 0, 1, [⟨"BLOCK", 4, 0, .ro, 0⟩, ⟨"OPCODE", 15, 8, .ro, 0⟩, ⟨"STATUS", 23, 16, .ro, 0⟩,
    ⟨"FN", 29, 24, .ro, 0⟩]⟩,
  ⟨"RING_ERR", 0x80, 0x4, 32, 0, 1, [⟨"ERR", 31, 0, .ro, 0⟩]⟩]

/-- The HIF registers (16_host_interface.md). -/
def rows : List RegSpec := rows0 ++ rows1

end HIF

namespace SEQ

def CTRL : Nat := 0x3C0000
def CTRL_SWAP_TO : Fld := ⟨CTRL, 0, 16⟩
def CTRL_RESTART_MAX : Fld := ⟨CTRL, 16, 8⟩
def STICKY : Nat := 0x3C0008
def STICKY_CFG_REFUSED : Fld := ⟨STICKY, 0, 1⟩
def STICKY_FAULT : Fld := ⟨STICKY, 1, 1⟩
def STICKY_WATCHDOG : Fld := ⟨STICKY, 2, 1⟩
def STICKY_SWAPPED : Fld := ⟨STICKY, 3, 1⟩
def STICKY_SWAP_TIMEOUT : Fld := ⟨STICKY, 4, 1⟩
def STICKY_LOAD_FAIL : Fld := ⟨STICKY, 5, 1⟩
def STICKY_RESTARTED : Fld := ⟨STICKY, 6, 1⟩
def STICKY_GAVE_UP : Fld := ⟨STICKY, 7, 1⟩
def STICKY_DENIED : Fld := ⟨STICKY, 8, 1⟩
def SEL : Nat := 0x3C0010
def STATE : Nat := 0x3C0014
def WDOG : Nat := 0x3C0018
def FAULT : Nat := 0x3C001C
def BANK_INFO (n : Nat) : Nat := 0x3C0020 + 0x4 * n
def SWAP_CTRL : Nat := 0x3C0028
def RUN_CTRL : Nat := 0x3C002C
def REG_SEL : Nat := 0x3C0030
def REG_DATA : Nat := 0x3C0034
def LD_ADDR : Nat := 0x3C0038
def LD_DATA : Nat := 0x3C003C
def PROG_ADDR : Nat := 0x3C0040
def PROG_DATA : Nat := 0x3C0044
def CYCLES_LO : Nat := 0x3C0048
def CYCLES_HI : Nat := 0x3C004C
def FAULT_SUM_LO : Nat := 0x3C0050
def FAULT_SUM_HI : Nat := 0x3C0054
def HALT_SUM_LO : Nat := 0x3C0058
def HALT_SUM_HI : Nat := 0x3C005C
def ARMED_SUM_LO : Nat := 0x3C0060
def ARMED_SUM_HI : Nat := 0x3C0064
def LOAD_LAST : Nat := 0x3C0068
def SWAPS : Nat := 0x3C006C
def FAULTS : Nat := 0x3C0070
def RESTARTS : Nat := 0x3C0074
def SPARE_MAP : Nat := 0x3C0078
def LOAD_COUNT : Nat := 0x3C007C
def HB (n : Nat) : Nat := 0x3C0080 + 0x4 * n
def BANK_SUM_LO : Nat := 0x3C00E8
def BANK_SUM_HI : Nat := 0x3C00EC
def RUN_SUM_LO : Nat := 0x3C00F0
def RUN_SUM_HI : Nat := 0x3C00F4
def IDLE_OK_SUM_LO : Nat := 0x3C00F8
def IDLE_OK_SUM_HI : Nat := 0x3C00FC

def rows0 : List RegSpec := [
  ⟨"CTRL", 0x0, 0x0, 1, 0, 1, [⟨"SWAP_TO", 15, 0, .rws, 0x64⟩, ⟨"RESTART_MAX", 23, 16, .rws, 3⟩]⟩,
  ⟨"COMMIT", 0x4, 0x0, 1, 0, 1, [⟨"GO", 0, 0, .w1s, 0⟩, ⟨"VIEW", 1, 1, .rw, 0⟩, ⟨"PENDING", 2, 2, .ro, 0⟩,
    ⟨"DISCARD", 3, 3, .w1s, 0⟩, ⟨"REFUSED", 4, 4, .w1c, 0⟩, ⟨"COUNT", 31, 16, .ro, 0⟩]⟩,
  ⟨"STICKY", 0x8, 0x0, 1, 0, 1, [⟨"CFG_REFUSED", 0, 0, .w1c, 0⟩, ⟨"FAULT", 1, 1, .w1c, 0⟩, ⟨"WATCHDOG", 2, 2, .w1c,
    0⟩, ⟨"SWAPPED", 3, 3, .w1c, 0⟩, ⟨"SWAP_TIMEOUT", 4, 4, .w1c, 0⟩, ⟨"LOAD_FAIL", 5, 5, .w1c, 0⟩, ⟨"RESTARTED", 6,
    6, .w1c, 0⟩, ⟨"GAVE_UP", 7, 7, .w1c, 0⟩, ⟨"DENIED", 8, 8, .w1c, 0⟩]⟩,
  ⟨"INT_EN", 0xC, 0x0, 1, 0, 1, [⟨"EN", 8, 0, .rw, 0x1B6⟩]⟩,
  ⟨"SEL", 0x10, 0x0, 1, 0, 1, [⟨"SEQ", 5, 0, .rw, 0⟩]⟩,
  ⟨"STATE", 0x14, 0x0, 1, 0, 1, [⟨"STATE", 2, 0, .ro, 0⟩, ⟨"BANK", 4, 4, .ro, 0⟩, ⟨"ARMED", 5, 5, .ro, 0⟩,
    ⟨"IDLE_OK", 6, 6, .ro, 0⟩, ⟨"SPARED", 7, 7, .ro, 0⟩, ⟨"RESTARTS", 11, 8, .ro, 0⟩, ⟨"PC", 27, 16, .ro, 0⟩]⟩,
  ⟨"WDOG", 0x18, 0x0, 1, 0, 1, [⟨"PERIOD", 15, 0, .rws, 0⟩, ⟨"RESTART", 17, 16, .rws, 2⟩]⟩,
  ⟨"FAULT", 0x1C, 0x0, 1, 0, 1, [⟨"CAUSE", 3, 0, .ro, 0⟩, ⟨"BANK", 4, 4, .ro, 0⟩, ⟨"PC", 19, 8, .ro, 0⟩, ⟨"CODE",
    27, 20, .ro, 0⟩]⟩,
  ⟨"BANK_INFO", 0x20, 0x4, 2, 0, 1, [⟨"VERSION", 15, 0, .ro, 0⟩, ⟨"PROG_ID", 31, 16, .ro, 0⟩]⟩,
  ⟨"SWAP_CTRL", 0x28, 0x0, 1, 0, 1, [⟨"OP", 1, 0, .rw, 0⟩, ⟨"GO", 2, 2, .w1s, 0⟩, ⟨"BUSY", 3, 3, .ro, 0⟩, ⟨"SYNC",
    4, 4, .rw, 0⟩, ⟨"INIT", 5, 5, .rw, 0⟩, ⟨"STATUS", 15, 8, .ro, 0⟩]⟩,
  ⟨"RUN_CTRL", 0x2C, 0x0, 1, 0, 1, [⟨"OP", 1, 0, .rw, 0⟩, ⟨"GO", 2, 2, .w1s, 0⟩, ⟨"BUSY", 3, 3, .ro, 0⟩, ⟨"SYNC",
    4, 4, .rw, 0⟩, ⟨"INIT", 5, 5, .rw, 0⟩, ⟨"STATUS", 15, 8, .ro, 0⟩]⟩,
  ⟨"REG_SEL", 0x30, 0x0, 1, 0, 1, [⟨"VAL", 4, 0, .rw, 0⟩]⟩,
  ⟨"REG_DATA", 0x34, 0x0, 1, 0, 1, [⟨"VAL", 31, 0, .ro, 0⟩]⟩,
  ⟨"LD_ADDR", 0x38, 0x0, 1, 0, 1, [⟨"VAL", 31, 0, .rw, 0⟩]⟩,
  ⟨"LD_DATA", 0x3C, 0x0, 1, 0, 1, [⟨"VAL", 31, 0, .rw, 0⟩]⟩,
  ⟨"PROG_ADDR", 0x40, 0x0, 1, 0, 1, [⟨"VAL", 12, 0, .rw, 0⟩]⟩,
  ⟨"PROG_DATA", 0x44, 0x0, 1, 0, 1, [⟨"VAL", 31, 0, .ro, 0⟩]⟩,
  ⟨"CYCLES_LO", 0x48, 0x0, 1, 0, 2, [⟨"VAL", 31, 0, .ro, 0⟩]⟩,
  ⟨"CYCLES_HI", 0x4C, 0x0, 1, 1, 2, [⟨"VAL", 15, 0, .ro, 0⟩]⟩,
  ⟨"FAULT_SUM_LO", 0x50, 0x0, 1, 0, 2, [⟨"VAL", 31, 0, .ro, 0⟩]⟩,
  ⟨"FAULT_SUM_HI", 0x54, 0x0, 1, 1, 2, [⟨"VAL", 19, 0, .ro, 0⟩]⟩,
  ⟨"HALT_SUM_LO", 0x58, 0x0, 1, 0, 2, [⟨"VAL", 31, 0, .ro, 0⟩]⟩,
  ⟨"HALT_SUM_HI", 0x5C, 0x0, 1, 1, 2, [⟨"VAL", 19, 0, .ro, 0⟩]⟩,
  ⟨"ARMED_SUM_LO", 0x60, 0x0, 1, 0, 2, [⟨"VAL", 31, 0, .ro, 0⟩]⟩]

def rows1 : List RegSpec := [
  ⟨"ARMED_SUM_HI", 0x64, 0x0, 1, 1, 2, [⟨"VAL", 19, 0, .ro, 0⟩]⟩,
  ⟨"LOAD_LAST", 0x68, 0x0, 1, 0, 1, [⟨"PLACE", 2, 0, .ro, 0⟩, ⟨"STATUS", 15, 8, .ro, 0⟩, ⟨"COUNT", 21, 16, .ro, 0⟩]⟩,
  ⟨"SWAPS", 0x6C, 0x0, 1, 0, 1, [⟨"VAL", 31, 0, .ro, 0⟩]⟩,
  ⟨"FAULTS", 0x70, 0x0, 1, 0, 1, [⟨"VAL", 31, 0, .ro, 0⟩]⟩,
  ⟨"RESTARTS", 0x74, 0x0, 1, 0, 1, [⟨"VAL", 31, 0, .ro, 0⟩]⟩,
  ⟨"SPARE_MAP", 0x78, 0x0, 1, 0, 1, [⟨"FOR_0", 2, 0, .ro, 0⟩, ⟨"USED_0", 3, 3, .ro, 0⟩, ⟨"FOR_1", 10, 8, .ro, 0⟩,
    ⟨"USED_1", 11, 11, .ro, 0⟩, ⟨"FOR_2", 18, 16, .ro, 0⟩, ⟨"USED_2", 19, 19, .ro, 0⟩, ⟨"FOR_3", 26, 24, .ro, 0⟩,
    ⟨"USED_3", 27, 27, .ro, 0⟩]⟩,
  ⟨"LOAD_COUNT", 0x7C, 0x0, 1, 0, 1, [⟨"VAL", 31, 0, .ro, 0⟩]⟩,
  ⟨"HB", 0x80, 0x4, 26, 0, 1, [⟨"VAL", 31, 0, .ro, 0⟩]⟩,
  ⟨"BANK_SUM_LO", 0xE8, 0x0, 1, 0, 2, [⟨"VAL", 31, 0, .ro, 0⟩]⟩,
  ⟨"BANK_SUM_HI", 0xEC, 0x0, 1, 1, 2, [⟨"VAL", 19, 0, .ro, 0⟩]⟩,
  ⟨"RUN_SUM_LO", 0xF0, 0x0, 1, 0, 2, [⟨"VAL", 31, 0, .ro, 0⟩]⟩,
  ⟨"RUN_SUM_HI", 0xF4, 0x0, 1, 1, 2, [⟨"VAL", 19, 0, .ro, 0⟩]⟩,
  ⟨"IDLE_OK_SUM_LO", 0xF8, 0x0, 1, 0, 2, [⟨"VAL", 31, 0, .ro, 0⟩]⟩,
  ⟨"IDLE_OK_SUM_HI", 0xFC, 0x0, 1, 1, 2, [⟨"VAL", 19, 0, .ro, 0⟩]⟩]

/-- The SEQ registers (17_umber_sequencers.md). -/
def rows : List RegSpec := rows0 ++ rows1

end SEQ

namespace FLS

def CTRL : Nat := 0x3D0000
def CTRL_FLUSH_S : Fld := ⟨CTRL, 0, 8⟩
def CTRL_SCRUB_DAYS : Fld := ⟨CTRL, 8, 8⟩
def CTRL_REFRESH_DAYS : Fld := ⟨CTRL, 16, 9⟩
def STICKY : Nat := 0x3D0008
def STICKY_JRN_LOST : Fld := ⟨STICKY, 1, 1⟩
def STICKY_OVERRUN : Fld := ⟨STICKY, 2, 1⟩
def STICKY_GROWN : Fld := ⟨STICKY, 3, 1⟩
def STICKY_SPARE_LOW : Fld := ⟨STICKY, 4, 1⟩
def STICKY_UNCORR : Fld := ⟨STICKY, 5, 1⟩
def STICKY_REFRESH : Fld := ⟨STICKY, 6, 1⟩
def STICKY_SCRUB_DONE : Fld := ⟨STICKY, 7, 1⟩
def STICKY_IMAGE_FAIL : Fld := ⟨STICKY, 8, 1⟩
def STICKY_READ_ONLY : Fld := ⟨STICKY, 9, 1⟩
def STICKY_NAND_FAIL : Fld := ⟨STICKY, 10, 1⟩
def STAT : Nat := 0x3D0010
def STAT_MEDIUM_OK : Fld := ⟨STAT, 0, 1⟩
def STAT_NVDDR3 : Fld := ⟨STAT, 1, 1⟩
def STAT_READ_ONLY : Fld := ⟨STAT, 2, 1⟩
def STAT_SCRUBBING : Fld := ⟨STAT, 3, 1⟩
def STAT_TARGETS : Fld := ⟨STAT, 4, 4⟩
def STAT_BUF : Fld := ⟨STAT, 8, 12⟩
def JRN_CFG : Nat := 0x3D0014
def JRN_CFG_RING : Fld := ⟨JRN_CFG, 0, 10⟩
def JRN_CFG_STREAM_EN : Fld := ⟨JRN_CFG, 16, 1⟩
def SEQ_LO : Nat := 0x3D0018
def DURABLE_LO : Nat := 0x3D0020
def ARCHIVED_LO : Nat := 0x3D0028
def ARCHIVED_HI : Nat := 0x3D002C
def CHECK_LO : Nat := 0x3D0030
def CHECK_HI : Nat := 0x3D0034
def JRN_LOST : Nat := 0x3D0038
def OVERRUN : Nat := 0x3D003C
def BLOCKS : Nat := 0x3D0040
def SPARE : Nat := 0x3D0044
def WEAR : Nat := 0x3D0048
def SCRUB_STAT : Nat := 0x3D004C
def CORR_MAX : Nat := 0x3D0050
def PART_SEL : Nat := 0x3D0054
def PART_SEL_PART : Fld := ⟨PART_SEL, 0, 3⟩
def PART_INFO : Nat := 0x3D0058
def PART_FREE : Nat := 0x3D005C
def BOOTREC : Nat := 0x3D0060
def BOOTREC_PREF : Fld := ⟨BOOTREC, 0, 8⟩
def BOOTREC_PREF_KEYS : Fld := ⟨BOOTREC, 8, 1⟩
def BOOTREC_GEN : Fld := ⟨BOOTREC, 16, 16⟩
def IMG_SEL : Nat := 0x3D0064
def IMG_INFO : Nat := 0x3D0068
def LAST_CMD : Nat := 0x3D006C
def PAGES_LO : Nat := 0x3D0070
def ERASES : Nat := 0x3D0078
def CORRECTED : Nat := 0x3D007C
def JRN_UNREADABLE : Nat := 0x3D0080
def NAND_ID (n : Nat) : Nat := 0x3D0084 + 0x4 * n
def PROG_FAILS : Nat := 0x3D0094
def SCRUB_LAST : Nat := 0x3D0098
def UNCORR : Nat := 0x3D009C

def rows0 : List RegSpec := [
  ⟨"CTRL", 0x0, 0x0, 1, 0, 1, [⟨"FLUSH_S", 7, 0, .rws, 0x3C⟩, ⟨"SCRUB_DAYS", 15, 8, .rws, 0x1E⟩, ⟨"REFRESH_DAYS",
    24, 16, .rws, 0x14A⟩]⟩,
  ⟨"COMMIT", 0x4, 0x0, 1, 0, 1, [⟨"GO", 0, 0, .w1s, 0⟩, ⟨"VIEW", 1, 1, .rw, 0⟩, ⟨"PENDING", 2, 2, .ro, 0⟩,
    ⟨"DISCARD", 3, 3, .w1s, 0⟩, ⟨"REFUSED", 4, 4, .w1c, 0⟩, ⟨"COUNT", 31, 16, .ro, 0⟩]⟩,
  ⟨"STICKY", 0x8, 0x0, 1, 0, 1, [⟨"CFG_REFUSED", 0, 0, .w1c, 0⟩, ⟨"JRN_LOST", 1, 1, .w1c, 0⟩, ⟨"OVERRUN", 2, 2,
    .w1c, 0⟩, ⟨"GROWN", 3, 3, .w1c, 0⟩, ⟨"SPARE_LOW", 4, 4, .w1c, 0⟩, ⟨"UNCORR", 5, 5, .w1c, 0⟩, ⟨"REFRESH", 6, 6,
    .w1c, 0⟩, ⟨"SCRUB_DONE", 7, 7, .w1c, 0⟩, ⟨"IMAGE_FAIL", 8, 8, .w1c, 0⟩, ⟨"READ_ONLY", 9, 9, .w1c, 0⟩,
    ⟨"NAND_FAIL", 10, 10, .w1c, 0⟩]⟩,
  ⟨"INT_EN", 0xC, 0x0, 1, 0, 1, [⟨"EN", 10, 0, .rw, 0x73F⟩]⟩,
  ⟨"STAT", 0x10, 0x0, 1, 0, 1, [⟨"MEDIUM_OK", 0, 0, .ro, 0⟩, ⟨"NVDDR3", 1, 1, .ro, 0⟩, ⟨"READ_ONLY", 2, 2, .ro, 0⟩,
    ⟨"SCRUBBING", 3, 3, .ro, 0⟩, ⟨"TARGETS", 7, 4, .ro, 0⟩, ⟨"BUF", 19, 8, .ro, 0⟩]⟩,
  ⟨"JRN_CFG", 0x14, 0x0, 1, 0, 1, [⟨"RING", 9, 0, .rws, 0⟩, ⟨"STREAM_EN", 16, 16, .rws, 0⟩]⟩,
  ⟨"SEQ_LO", 0x18, 0x0, 1, 0, 2, [⟨"VAL", 31, 0, .ro, 0⟩]⟩,
  ⟨"SEQ_HI", 0x1C, 0x0, 1, 1, 2, [⟨"VAL", 15, 0, .ro, 0⟩]⟩,
  ⟨"DURABLE_LO", 0x20, 0x0, 1, 0, 2, [⟨"VAL", 31, 0, .ro, 0⟩]⟩,
  ⟨"DURABLE_HI", 0x24, 0x0, 1, 1, 2, [⟨"VAL", 15, 0, .ro, 0⟩]⟩,
  ⟨"ARCHIVED_LO", 0x28, 0x0, 1, 0, 2, [⟨"VAL", 31, 0, .rw, 0⟩]⟩,
  ⟨"ARCHIVED_HI", 0x2C, 0x0, 1, 1, 2, [⟨"VAL", 15, 0, .rw, 0⟩]⟩,
  ⟨"CHECK_LO", 0x30, 0x0, 1, 0, 2, [⟨"VAL", 31, 0, .ro, 0⟩]⟩,
  ⟨"CHECK_HI", 0x34, 0x0, 1, 1, 2, [⟨"VAL", 31, 0, .ro, 0⟩]⟩,
  ⟨"JRN_LOST", 0x38, 0x0, 1, 0, 1, [⟨"VAL", 31, 0, .ro, 0⟩]⟩,
  ⟨"OVERRUN", 0x3C, 0x0, 1, 0, 1, [⟨"VAL", 31, 0, .ro, 0⟩]⟩,
  ⟨"BLOCKS", 0x40, 0x0, 1, 0, 1, [⟨"VAL", 31, 0, .ro, 0⟩]⟩,
  ⟨"SPARE", 0x44, 0x0, 1, 0, 1, [⟨"VAL", 31, 0, .ro, 0⟩]⟩,
  ⟨"WEAR", 0x48, 0x0, 1, 0, 1, [⟨"VAL", 31, 0, .ro, 0⟩]⟩,
  ⟨"SCRUB_STAT", 0x4C, 0x0, 1, 0, 1, [⟨"VAL", 31, 0, .ro, 0⟩]⟩,
  ⟨"CORR_MAX", 0x50, 0x0, 1, 0, 1, [⟨"VAL", 7, 0, .ro, 0⟩]⟩,
  ⟨"PART_SEL", 0x54, 0x0, 1, 0, 1, [⟨"PART", 2, 0, .rw, 0⟩]⟩,
  ⟨"PART_INFO", 0x58, 0x0, 1, 0, 1, [⟨"VAL", 31, 0, .ro, 0⟩]⟩,
  ⟨"PART_FREE", 0x5C, 0x0, 1, 0, 1, [⟨"VAL", 15, 0, .ro, 0⟩]⟩]

def rows1 : List RegSpec := [
  ⟨"BOOTREC", 0x60, 0x0, 1, 0, 1, [⟨"PREF", 7, 0, .ro, 0⟩, ⟨"PREF_KEYS", 8, 8, .ro, 0⟩, ⟨"GEN", 31, 16, .ro, 0⟩]⟩,
  ⟨"IMG_SEL", 0x64, 0x0, 1, 0, 1, [⟨"VAL", 5, 0, .rw, 0⟩]⟩,
  ⟨"IMG_INFO", 0x68, 0x0, 1, 0, 1, [⟨"VAL", 16, 0, .ro, 0⟩]⟩,
  ⟨"LAST_CMD", 0x6C, 0x0, 1, 0, 1, [⟨"VAL", 15, 0, .ro, 0⟩]⟩,
  ⟨"PAGES_LO", 0x70, 0x0, 1, 0, 2, [⟨"VAL", 31, 0, .ro, 0⟩]⟩,
  ⟨"PAGES_HI", 0x74, 0x0, 1, 1, 2, [⟨"VAL", 15, 0, .ro, 0⟩]⟩,
  ⟨"ERASES", 0x78, 0x0, 1, 0, 1, [⟨"VAL", 31, 0, .ro, 0⟩]⟩,
  ⟨"CORRECTED", 0x7C, 0x0, 1, 0, 1, [⟨"VAL", 31, 0, .ro, 0⟩]⟩,
  ⟨"JRN_UNREADABLE", 0x80, 0x0, 1, 0, 1, [⟨"VAL", 31, 0, .ro, 0⟩]⟩,
  ⟨"NAND_ID", 0x84, 0x4, 4, 0, 1, [⟨"VAL", 31, 0, .ro, 0⟩]⟩,
  ⟨"PROG_FAILS", 0x94, 0x0, 1, 0, 1, [⟨"VAL", 31, 0, .ro, 0⟩]⟩,
  ⟨"SCRUB_LAST", 0x98, 0x0, 1, 0, 1, [⟨"VAL", 31, 0, .ro, 0⟩]⟩,
  ⟨"UNCORR", 0x9C, 0x0, 1, 0, 1, [⟨"VAL", 31, 0, .ro, 0⟩]⟩]

/-- The FLS registers (19_flowstone.md). -/
def rows : List RegSpec := rows0 ++ rows1

end FLS

namespace PWR

def CTRL : Nat := 0x3E0000
def CTRL_TJ_ALARM : Fld := ⟨CTRL, 8, 8⟩
def STICKY : Nat := 0x3E0008
def STICKY_SLEEP_ABORT : Fld := ⟨STICKY, 1, 1⟩
def STICKY_WAKE_FAILED : Fld := ⟨STICKY, 2, 1⟩
def STICKY_KA_ENTER : Fld := ⟨STICKY, 3, 1⟩
def STICKY_KA_EXIT : Fld := ⟨STICKY, 4, 1⟩
def STICKY_RAIL_FAULT : Fld := ⟨STICKY, 5, 1⟩
def STICKY_TEMP_HIGH : Fld := ⟨STICKY, 6, 1⟩
def STICKY_RET_ERR : Fld := ⟨STICKY, 7, 1⟩
def INT_EN : Nat := 0x3E000C
def KA_CFG : Nat := 0x3E0010
def KA_CFG_XO_OFF : Fld := ⟨KA_CFG, 0, 1⟩
def RET_MASK : Nat := 0x3E0014
def CONSENT_TO : Nat := 0x3E0018
def SLEEP_STAT : Nat := 0x3E001C
def SLEEP_STAT_STATE : Fld := ⟨SLEEP_STAT, 0, 3⟩
def SLEEP_STAT_DOMAIN : Fld := ⟨SLEEP_STAT, 8, 6⟩
def SLEEP_STAT_REFUSER : Fld := ⟨SLEEP_STAT, 16, 6⟩
def SLEEP_STAT_CAUSE : Fld := ⟨SLEEP_STAT, 24, 2⟩
def SLEEP_STAT_TARGET : Fld := ⟨SLEEP_STAT, 26, 5⟩
def DOM_REQ : Nat := 0x3E0020
def DOM_REQ_DOMAIN : Fld := ⟨DOM_REQ, 0, 6⟩
def DOM_REQ_STATE : Fld := ⟨DOM_REQ, 8, 2⟩
def DOM_REQ_BUSY : Fld := ⟨DOM_REQ, 16, 1⟩
def DOM_REQ_STATUS : Fld := ⟨DOM_REQ, 24, 8⟩
def WAKE_LAST : Nat := 0x3E0024
def WAKE_FAIL_LAST : Nat := 0x3E0028
def RAIL_STAT : Nat := 0x3E002C
def DOM_STATE (n : Nat) : Nat := 0x3E0030 + 0x4 * n
def KA_ENTRIES : Nat := 0x3E0048
def KA_SECONDS : Nat := 0x3E004C
def WAKES : Nat := 0x3E0050
def WAKE_FAILS : Nat := 0x3E0054
def ROLLBACKS : Nat := 0x3E0058
def PORT_SLEEPS : Nat := 0x3E005C
def CORE_MV : Nat := 0x3E0060
def TJ : Nat := 0x3E006C
def BANK_STAT (n : Nat) : Nat := 0x3E0070 + 0x4 * n
def BANK_STAT_RETAINED (n : Nat) : Fld := ⟨BANK_STAT n, 0, 1⟩
def BANK_STAT_CORRECTED (n : Nat) : Fld := ⟨BANK_STAT n, 16, 16⟩
def RAIL_MV (n : Nat) : Nat := 0x3E0090 + 0x4 * n
def KA_POWER_MW : Nat := 0x3E00B8
def LAST_ENTRY_SEC : Nat := 0x3E00BC

def rows0 : List RegSpec := [
  ⟨"CTRL", 0x0, 0x0, 1, 0, 1, [⟨"AVS_EN", 0, 0, .rws, 1⟩, ⟨"TJ_ALARM", 15, 8, .rws, 0x69⟩]⟩,
  ⟨"COMMIT", 0x4, 0x0, 1, 0, 1, [⟨"GO", 0, 0, .w1s, 0⟩, ⟨"VIEW", 1, 1, .rw, 0⟩, ⟨"PENDING", 2, 2, .ro, 0⟩,
    ⟨"DISCARD", 3, 3, .w1s, 0⟩, ⟨"REFUSED", 4, 4, .w1c, 0⟩, ⟨"COUNT", 31, 16, .ro, 0⟩]⟩,
  ⟨"STICKY", 0x8, 0x0, 1, 0, 1, [⟨"CFG_REFUSED", 0, 0, .w1c, 0⟩, ⟨"SLEEP_ABORT", 1, 1, .w1c, 0⟩, ⟨"WAKE_FAILED", 2,
    2, .w1c, 0⟩, ⟨"KA_ENTER", 3, 3, .w1c, 0⟩, ⟨"KA_EXIT", 4, 4, .w1c, 0⟩, ⟨"RAIL_FAULT", 5, 5, .w1c, 0⟩,
    ⟨"TEMP_HIGH", 6, 6, .w1c, 0⟩, ⟨"RET_ERR", 7, 7, .w1c, 0⟩]⟩,
  ⟨"INT_EN", 0xC, 0x0, 1, 0, 1, [⟨"EN", 7, 0, .rw, 0xE6⟩]⟩,
  ⟨"KA_CFG", 0x10, 0x0, 1, 0, 1, [⟨"XO_OFF", 0, 0, .rws, 0⟩, ⟨"TX_IDLE", 1, 1, .rws, 1⟩]⟩,
  ⟨"RET_MASK", 0x14, 0x0, 1, 0, 1, [⟨"BANKS", 7, 0, .rws, 0xFF⟩]⟩,
  ⟨"CONSENT_TO", 0x18, 0x0, 1, 0, 1, [⟨"VAL", 7, 0, .rws, 2⟩]⟩,
  ⟨"SLEEP_STAT", 0x1C, 0x0, 1, 0, 1, [⟨"STATE", 2, 0, .ro, 0⟩, ⟨"DOMAIN", 13, 8, .ro, 0⟩, ⟨"REFUSER", 21, 16, .ro,
    0⟩, ⟨"CAUSE", 25, 24, .ro, 0⟩, ⟨"TARGET", 30, 26, .ro, 0⟩]⟩,
  ⟨"DOM_REQ", 0x20, 0x0, 1, 0, 1, [⟨"DOMAIN", 5, 0, .rw, 0⟩, ⟨"STATE", 9, 8, .rw, 0⟩, ⟨"GO", 15, 15, .w1s, 0⟩,
    ⟨"BUSY", 16, 16, .ro, 0⟩, ⟨"STATUS", 31, 24, .ro, 0⟩]⟩,
  ⟨"WAKE_LAST", 0x24, 0x0, 1, 0, 1, [⟨"CAUSE", 2, 0, .ro, 0⟩, ⟨"PORT", 12, 8, .ro, 0⟩, ⟨"SECONDS", 31, 16, .ro, 0⟩]⟩,
  ⟨"WAKE_FAIL_LAST", 0x28, 0x0, 1, 0, 1, [⟨"DOMAIN", 5, 0, .ro, 0⟩, ⟨"STEP", 9, 8, .ro, 0⟩, ⟨"SECONDS", 31, 16,
    .ro, 0⟩]⟩,
  ⟨"RAIL_STAT", 0x2C, 0x0, 1, 0, 1, [⟨"VAL", 9, 0, .ro, 0⟩]⟩,
  ⟨"DOM_STATE", 0x30, 0x4, 6, 0, 1, [⟨"STATE", 1, 0, .ro, 0⟩, ⟨"FAILED", 2, 2, .ro, 0⟩, ⟨"ABSENT", 3, 3, .ro, 0⟩,
    ⟨"DOMAINS 8k + 1 to 8k + 7", 31, 4, .ro, 0⟩]⟩,
  ⟨"KA_ENTRIES", 0x48, 0x0, 1, 0, 1, [⟨"VAL", 31, 0, .ro, 0⟩]⟩,
  ⟨"KA_SECONDS", 0x4C, 0x0, 1, 0, 1, [⟨"VAL", 31, 0, .ro, 0⟩]⟩,
  ⟨"WAKES", 0x50, 0x0, 1, 0, 1, [⟨"VAL", 31, 0, .ro, 0⟩]⟩,
  ⟨"WAKE_FAILS", 0x54, 0x0, 1, 0, 1, [⟨"VAL", 31, 0, .ro, 0⟩]⟩,
  ⟨"ROLLBACKS", 0x58, 0x0, 1, 0, 1, [⟨"VAL", 31, 0, .ro, 0⟩]⟩,
  ⟨"PORT_SLEEPS", 0x5C, 0x0, 1, 0, 1, [⟨"VAL", 31, 0, .ro, 0⟩]⟩,
  ⟨"CORE_MV", 0x60, 0x0, 1, 0, 1, [⟨"VAL", 31, 0, .ro, 0⟩]⟩,
  ⟨"CORE_MA", 0x64, 0x0, 1, 0, 1, [⟨"VAL", 31, 0, .ro, 0⟩]⟩,
  ⟨"POWER_MW", 0x68, 0x0, 1, 0, 1, [⟨"VAL", 31, 0, .ro, 0⟩]⟩,
  ⟨"TJ", 0x6C, 0x0, 1, 0, 1, [⟨"VAL", 31, 0, .ro, 0⟩]⟩,
  ⟨"BANK_STAT", 0x70, 0x4, 8, 0, 1, [⟨"RETAINED", 0, 0, .ro, 1⟩, ⟨"FORCED", 1, 1, .ro, 0⟩, ⟨"CORRECTED", 31, 16,
    .ro, 0⟩]⟩]

def rows1 : List RegSpec := [
  ⟨"RAIL_MV", 0x90, 0x4, 10, 0, 1, [⟨"VAL", 31, 0, .ro, 0⟩]⟩,
  ⟨"KA_POWER_MW", 0xB8, 0x0, 1, 0, 1, [⟨"VAL", 31, 0, .ro, 0⟩]⟩,
  ⟨"LAST_ENTRY_SEC", 0xBC, 0x0, 1, 0, 1, [⟨"VAL", 31, 0, .ro, 0⟩]⟩]

/-- The PWR registers (20_power.md). -/
def rows : List RegSpec := rows0 ++ rows1

end PWR

namespace BST

def CTRL : Nat := 0x3E8000
def CTRL_ROTATE : Fld := ⟨CTRL, 0, 1⟩
def STICKY : Nat := 0x3E8008
def STICKY_TEST_DONE : Fld := ⟨STICKY, 1, 1⟩
def STICKY_TEST_FAIL : Fld := ⟨STICKY, 2, 1⟩
def STICKY_INCOMPLETE : Fld := ⟨STICKY, 3, 1⟩
def STICKY_UNUSABLE : Fld := ⟨STICKY, 4, 1⟩
def STICKY_SPARE_USED : Fld := ⟨STICKY, 5, 1⟩
def STICKY_SPARES_OUT : Fld := ⟨STICKY, 6, 1⟩
def STICKY_SECRET_CLEAR : Fld := ⟨STICKY, 7, 1⟩
def STAT : Nat := 0x3E8010
def STAT_RUNNING : Fld := ⟨STAT, 0, 1⟩
def STAT_POWERON_DONE : Fld := ⟨STAT, 20, 1⟩
def UNIT_SEL : Nat := 0x3E8014
def UNIT_SEL_KIND : Fld := ⟨UNIT_SEL, 0, 3⟩
def UNIT_SEL_INDEX : Fld := ⟨UNIT_SEL, 8, 6⟩
def UNIT_STAT : Nat := 0x3E8018
def TEST_LAST : Nat := 0x3E801C
def TEST_LAST_STATUS : Fld := ⟨TEST_LAST, 16, 8⟩
def MISR_LO : Nat := 0x3E8020
def APPLIED : Nat := 0x3E8028
def EXPECTED : Nat := 0x3E802C
def SECRET_STAT : Nat := 0x3E8030
def TESTS : Nat := 0x3E8034
def FAILS : Nat := 0x3E8038
def SWAPS : Nat := 0x3E803C
def KIND_STAT (n : Nat) : Nat := 0x3E8040 + 0x4 * n
def KIND_STAT_UNUSABLE (n : Nat) : Fld := ⟨KIND_STAT n, 0, 8⟩
def KIND_STAT_SPARES_FREE (n : Nat) : Fld := ⟨KIND_STAT n, 8, 8⟩
def KIND_STAT_UNSERVED (n : Nat) : Fld := ⟨KIND_STAT n, 24, 8⟩
def MEM_REPAIRED : Nat := 0x3E8060
def MEM_FAILS : Nat := 0x3E8064
def INCOMPLETES : Nat := 0x3E8068
def LAST_FAIL_SEC : Nat := 0x3E806C
def POWERON_MS : Nat := 0x3E8070
def REINITS : Nat := 0x3E8074
def RECALS : Nat := 0x3E8078
def UNSERVED_KINDS : Nat := 0x3E807C

def rows0 : List RegSpec := [
  ⟨"CTRL", 0x0, 0x0, 1, 0, 1, [⟨"ROTATE", 0, 0, .rws, 1⟩]⟩,
  ⟨"COMMIT", 0x4, 0x0, 1, 0, 1, [⟨"GO", 0, 0, .w1s, 0⟩, ⟨"VIEW", 1, 1, .rw, 0⟩, ⟨"PENDING", 2, 2, .ro, 0⟩,
    ⟨"DISCARD", 3, 3, .w1s, 0⟩, ⟨"REFUSED", 4, 4, .w1c, 0⟩, ⟨"COUNT", 31, 16, .ro, 0⟩]⟩,
  ⟨"STICKY", 0x8, 0x0, 1, 0, 1, [⟨"CFG_REFUSED", 0, 0, .w1c, 0⟩, ⟨"TEST_DONE", 1, 1, .w1c, 0⟩, ⟨"TEST_FAIL", 2, 2,
    .w1c, 0⟩, ⟨"INCOMPLETE", 3, 3, .w1c, 0⟩, ⟨"UNUSABLE", 4, 4, .w1c, 0⟩, ⟨"SPARE_USED", 5, 5, .w1c, 0⟩,
    ⟨"SPARES_OUT", 6, 6, .w1c, 0⟩, ⟨"SECRET_CLEAR", 7, 7, .w1c, 0⟩]⟩,
  ⟨"INT_EN", 0xC, 0x0, 1, 0, 1, [⟨"EN", 7, 0, .rw, 0x5C⟩]⟩,
  ⟨"STAT", 0x10, 0x0, 1, 0, 1, [⟨"RUNNING", 0, 0, .ro, 0⟩, ⟨"KIND", 6, 4, .ro, 0⟩, ⟨"INDEX", 13, 8, .ro, 0⟩,
    ⟨"PHASE", 17, 16, .ro, 0⟩, ⟨"POWERON_DONE", 20, 20, .ro, 0⟩]⟩,
  ⟨"UNIT_SEL", 0x14, 0x0, 1, 0, 1, [⟨"KIND", 2, 0, .rw, 0⟩, ⟨"INDEX", 13, 8, .rw, 0⟩]⟩,
  ⟨"UNIT_STAT", 0x18, 0x0, 1, 0, 1, [⟨"STATE", 1, 0, .ro, 0⟩, ⟨"PRESENT", 2, 2, .ro, 0⟩, ⟨"FOR", 13, 8, .ro, 0⟩,
    ⟨"TESTS", 31, 16, .ro, 0⟩]⟩,
  ⟨"TEST_LAST", 0x1C, 0x0, 1, 0, 1, [⟨"KIND", 2, 0, .ro, 0⟩, ⟨"MODE", 5, 4, .ro, 0⟩, ⟨"DONE", 6, 6, .ro, 0⟩,
    ⟨"INDEX", 13, 8, .ro, 0⟩, ⟨"STATUS", 23, 16, .ro, 0⟩]⟩,
  ⟨"MISR_LO", 0x20, 0x0, 1, 0, 2, [⟨"VAL", 31, 0, .ro, 0⟩]⟩,
  ⟨"MISR_HI", 0x24, 0x0, 1, 1, 2, [⟨"VAL", 31, 0, .ro, 0⟩]⟩,
  ⟨"APPLIED", 0x28, 0x0, 1, 0, 1, [⟨"VAL", 31, 0, .ro, 0⟩]⟩,
  ⟨"EXPECTED", 0x2C, 0x0, 1, 0, 1, [⟨"VAL", 31, 0, .ro, 0⟩]⟩,
  ⟨"SECRET_STAT", 0x30, 0x0, 1, 0, 1, [⟨"VAL", 31, 0, .ro, 0⟩]⟩,
  ⟨"TESTS", 0x34, 0x0, 1, 0, 1, [⟨"VAL", 31, 0, .ro, 0⟩]⟩,
  ⟨"FAILS", 0x38, 0x0, 1, 0, 1, [⟨"VAL", 31, 0, .ro, 0⟩]⟩,
  ⟨"SWAPS", 0x3C, 0x0, 1, 0, 1, [⟨"VAL", 31, 0, .ro, 0⟩]⟩,
  ⟨"KIND_STAT", 0x40, 0x4, 8, 0, 1, [⟨"UNUSABLE", 7, 0, .ro, 0⟩, ⟨"SPARES_FREE", 15, 8, .ro, 0⟩, ⟨"TOTAL", 23, 16,
    .ro, 0⟩, ⟨"UNSERVED", 31, 24, .ro, 0⟩]⟩,
  ⟨"MEM_REPAIRED", 0x60, 0x0, 1, 0, 1, [⟨"VAL", 31, 0, .ro, 0⟩]⟩,
  ⟨"MEM_FAILS", 0x64, 0x0, 1, 0, 1, [⟨"VAL", 31, 0, .ro, 0⟩]⟩,
  ⟨"INCOMPLETES", 0x68, 0x0, 1, 0, 1, [⟨"VAL", 31, 0, .ro, 0⟩]⟩,
  ⟨"LAST_FAIL_SEC", 0x6C, 0x0, 1, 0, 1, [⟨"VAL", 31, 0, .ro, 0⟩]⟩,
  ⟨"POWERON_MS", 0x70, 0x0, 1, 0, 1, [⟨"VAL", 31, 0, .ro, 0⟩]⟩,
  ⟨"REINITS", 0x74, 0x0, 1, 0, 1, [⟨"VAL", 31, 0, .ro, 0⟩]⟩,
  ⟨"RECALS", 0x78, 0x0, 1, 0, 1, [⟨"VAL", 31, 0, .ro, 0⟩]⟩]

def rows1 : List RegSpec := [
  ⟨"UNSERVED_KINDS", 0x7C, 0x0, 1, 0, 1, [⟨"VAL", 7, 0, .ro, 0⟩]⟩]

/-- The BST registers (21_selftest_and_live_replacement.md). -/
def rows : List RegSpec := rows0 ++ rows1

end BST

namespace PMC

def CTRL : Nat := 0x3F0000
def CTRL_RING : Fld := ⟨CTRL, 0, 10⟩
def CTRL_PERIOD : Fld := ⟨CTRL, 12, 4⟩
def CTRL_SNAP_EN : Fld := ⟨CTRL, 16, 1⟩
def CTRL_TD_SNAP : Fld := ⟨CTRL, 17, 1⟩
def STICKY : Nat := 0x3F0008
def STICKY_FROZE : Fld := ⟨STICKY, 1, 1⟩
def STICKY_FREEZE_SKIP : Fld := ⟨STICKY, 2, 1⟩
def STICKY_SNAP_LOST : Fld := ⟨STICKY, 3, 1⟩
def STICKY_HALF : Fld := ⟨STICKY, 4, 1⟩
def STICKY_ECC_UNCORR : Fld := ⟨STICKY, 5, 1⟩
def STICKY_POISON : Fld := ⟨STICKY, 6, 1⟩
def STICKY_SCRUB_DONE : Fld := ⟨STICKY, 7, 1⟩
def INT_EN : Nat := 0x3F000C
def FREEZE : Nat := 0x3F0010
def SNAP_RANGE : Nat := 0x3F0014
def SNAP_RANGE_FIRST : Fld := ⟨SNAP_RANGE, 0, 11⟩
def SNAP_RANGE_COUNT : Fld := ⟨SNAP_RANGE, 16, 11⟩
def CNT_SEL : Nat := 0x3F0018
def CNT_SEL_INDEX : Fld := ⟨CNT_SEL, 0, 11⟩
def CNT_CFG : Nat := 0x3F001C
def CNT_VAL_LO : Nat := 0x3F0020
def CNT_VAL_HI : Nat := 0x3F0024
def CNT_FROZEN_LO : Nat := 0x3F0028
def CNT_FROZEN_HI : Nat := 0x3F002C
def FREEZE_TIME_LO : Nat := 0x3F0030
def FREEZE_SKIPPED : Nat := 0x3F003C
def HALF_IDX : Nat := 0x3F0040
def ALARM_SUM : Nat := 0x3F0044
def ALARM_PORTS : Nat := 0x3F0048
def JRN_SEL : Nat := 0x3F004C
def JRN_SEL_TARGET : Fld := ⟨JRN_SEL, 0, 5⟩
def JRN_SEL_PORT : Fld := ⟨JRN_SEL, 8, 5⟩
def JRN_MASK : Nat := 0x3F0050
def ECC_CORR : Nat := 0x3F0054
def ECC_UNCORR : Nat := 0x3F0058
def ECC_LAST : Nat := 0x3F005C
def SCRUB_CTRL : Nat := 0x3F0060
def SCRUB_CTRL_MINUTES : Fld := ⟨SCRUB_CTRL, 0, 16⟩
def SCRUB_STAT : Nat := 0x3F0064
def TD_SEL : Nat := 0x3F0068
def TD_SEL_UNIT : Fld := ⟨TD_SEL, 0, 6⟩
def TD_RETIRED_LO : Nat := 0x3F006C
def TD_RETIRED_HI : Nat := 0x3F0070
def TD_WASTED_LO : Nat := 0x3F0074
def TD_WASTED_HI : Nat := 0x3F0078
def TD_FRONT_LO : Nat := 0x3F007C
def TD_FRONT_HI : Nat := 0x3F0080
def TD_BACK_LO : Nat := 0x3F0084
def TD_BACK_HI : Nat := 0x3F0088
def TD_PENDING : Nat := 0x3F008C
def SNAP_LAST : Nat := 0x3F0090
def JRN_COUNT : Nat := 0x3F0094
def POISON_SEEN : Nat := 0x3F0098
def CNT_ENABLED : Nat := 0x3F009C

def rows0 : List RegSpec := [
  ⟨"CTRL", 0x0, 0x0, 1, 0, 1, [⟨"RING", 9, 0, .rws, 0⟩, ⟨"PERIOD", 15, 12, .rws, 0⟩, ⟨"SNAP_EN", 16, 16, .rws, 0⟩,
    ⟨"TD_SNAP", 17, 17, .rws, 0⟩]⟩,
  ⟨"COMMIT", 0x4, 0x0, 1, 0, 1, [⟨"GO", 0, 0, .w1s, 0⟩, ⟨"VIEW", 1, 1, .rw, 0⟩, ⟨"PENDING", 2, 2, .ro, 0⟩,
    ⟨"DISCARD", 3, 3, .w1s, 0⟩, ⟨"REFUSED", 4, 4, .w1c, 0⟩, ⟨"COUNT", 31, 16, .ro, 0⟩]⟩,
  ⟨"STICKY", 0x8, 0x0, 1, 0, 1, [⟨"CFG_REFUSED", 0, 0, .w1c, 0⟩, ⟨"FROZE", 1, 1, .w1c, 0⟩, ⟨"FREEZE_SKIP", 2, 2,
    .w1c, 0⟩, ⟨"SNAP_LOST", 3, 3, .w1c, 0⟩, ⟨"HALF", 4, 4, .w1c, 0⟩, ⟨"ECC_UNCORR", 5, 5, .w1c, 0⟩, ⟨"POISON", 6,
    6, .w1c, 0⟩, ⟨"SCRUB_DONE", 7, 7, .w1c, 0⟩]⟩,
  ⟨"INT_EN", 0xC, 0x0, 1, 0, 1, [⟨"EN", 7, 0, .rw, 0x7D⟩]⟩,
  ⟨"FREEZE", 0x10, 0x0, 1, 0, 1, [⟨"GO", 0, 0, .w1s, 0⟩, ⟨"BUSY", 1, 1, .ro, 0⟩, ⟨"COUNT", 31, 16, .ro, 0⟩]⟩,
  ⟨"SNAP_RANGE", 0x14, 0x0, 1, 0, 1, [⟨"FIRST", 10, 0, .rws, 0⟩, ⟨"COUNT", 26, 16, .rws, 0⟩]⟩,
  ⟨"CNT_SEL", 0x18, 0x0, 1, 0, 1, [⟨"INDEX", 10, 0, .rw, 0⟩]⟩,
  ⟨"CNT_CFG", 0x1C, 0x0, 1, 0, 1, [⟨"EVENT", 11, 0, .rws, 0⟩, ⟨"EN", 12, 12, .rws, 0⟩, ⟨"UNIT", 21, 16, .rws, 0⟩]⟩,
  ⟨"CNT_VAL_LO", 0x20, 0x0, 1, 0, 2, [⟨"VAL", 31, 0, .ro, 0⟩]⟩,
  ⟨"CNT_VAL_HI", 0x24, 0x0, 1, 1, 2, [⟨"VAL", 15, 0, .ro, 0⟩]⟩,
  ⟨"CNT_FROZEN_LO", 0x28, 0x0, 1, 0, 2, [⟨"VAL", 31, 0, .ro, 0⟩]⟩,
  ⟨"CNT_FROZEN_HI", 0x2C, 0x0, 1, 1, 2, [⟨"VAL", 15, 0, .ro, 0⟩]⟩,
  ⟨"FREEZE_TIME_LO", 0x30, 0x0, 1, 0, 3, [⟨"VAL", 31, 0, .ro, 0⟩]⟩,
  ⟨"FREEZE_TIME_MID", 0x34, 0x0, 1, 1, 3, [⟨"VAL", 31, 0, .ro, 0⟩]⟩,
  ⟨"FREEZE_TIME_HI", 0x38, 0x0, 1, 2, 3, [⟨"VAL", 31, 0, .ro, 0⟩]⟩,
  ⟨"FREEZE_SKIPPED", 0x3C, 0x0, 1, 0, 1, [⟨"VAL", 31, 0, .ro, 0⟩]⟩,
  ⟨"HALF_IDX", 0x40, 0x0, 1, 0, 1, [⟨"VAL", 31, 0, .ro, 0⟩]⟩,
  ⟨"ALARM_SUM", 0x44, 0x0, 1, 0, 1, [⟨"VAL", 24, 0, .ro, 0⟩]⟩,
  ⟨"ALARM_PORTS", 0x48, 0x0, 1, 0, 1, [⟨"VAL", 31, 0, .ro, 0⟩]⟩,
  ⟨"JRN_SEL", 0x4C, 0x0, 1, 0, 1, [⟨"TARGET", 4, 0, .rw, 0⟩, ⟨"PORT", 12, 8, .rw, 0⟩]⟩,
  ⟨"JRN_MASK", 0x50, 0x0, 1, 0, 1, [⟨"VAL", 31, 0, .rw, 0⟩]⟩,
  ⟨"ECC_CORR", 0x54, 0x0, 1, 0, 1, [⟨"VAL", 31, 0, .ro, 0⟩]⟩,
  ⟨"ECC_UNCORR", 0x58, 0x0, 1, 0, 1, [⟨"VAL", 31, 0, .ro, 0⟩]⟩,
  ⟨"ECC_LAST", 0x5C, 0x0, 1, 0, 1, [⟨"TARGET", 4, 0, .ro, 0⟩, ⟨"OFFSET", 31, 8, .ro, 0⟩]⟩]

def rows1 : List RegSpec := [
  ⟨"SCRUB_CTRL", 0x60, 0x0, 1, 0, 1, [⟨"MINUTES", 15, 0, .rws, 0x3C⟩]⟩,
  ⟨"SCRUB_STAT", 0x64, 0x0, 1, 0, 1, [⟨"VAL", 15, 0, .ro, 0⟩]⟩,
  ⟨"TD_SEL", 0x68, 0x0, 1, 0, 1, [⟨"UNIT", 5, 0, .rw, 0⟩]⟩,
  ⟨"TD_RETIRED_LO", 0x6C, 0x0, 1, 0, 2, [⟨"VAL", 31, 0, .ro, 0⟩]⟩,
  ⟨"TD_RETIRED_HI", 0x70, 0x0, 1, 1, 2, [⟨"VAL", 15, 0, .ro, 0⟩]⟩,
  ⟨"TD_WASTED_LO", 0x74, 0x0, 1, 0, 2, [⟨"VAL", 31, 0, .ro, 0⟩]⟩,
  ⟨"TD_WASTED_HI", 0x78, 0x0, 1, 1, 2, [⟨"VAL", 15, 0, .ro, 0⟩]⟩,
  ⟨"TD_FRONT_LO", 0x7C, 0x0, 1, 0, 2, [⟨"VAL", 31, 0, .ro, 0⟩]⟩,
  ⟨"TD_FRONT_HI", 0x80, 0x0, 1, 1, 2, [⟨"VAL", 15, 0, .ro, 0⟩]⟩,
  ⟨"TD_BACK_LO", 0x84, 0x0, 1, 0, 2, [⟨"VAL", 31, 0, .ro, 0⟩]⟩,
  ⟨"TD_BACK_HI", 0x88, 0x0, 1, 1, 2, [⟨"VAL", 15, 0, .ro, 0⟩]⟩,
  ⟨"TD_PENDING", 0x8C, 0x0, 1, 0, 1, [⟨"VAL", 31, 0, .ro, 0⟩]⟩,
  ⟨"SNAP_LAST", 0x90, 0x0, 1, 0, 1, [⟨"VAL", 31, 0, .ro, 0⟩]⟩,
  ⟨"JRN_COUNT", 0x94, 0x0, 1, 0, 1, [⟨"VAL", 31, 0, .ro, 0⟩]⟩,
  ⟨"POISON_SEEN", 0x98, 0x0, 1, 0, 1, [⟨"VAL", 31, 0, .ro, 0⟩]⟩,
  ⟨"CNT_ENABLED", 0x9C, 0x0, 1, 0, 1, [⟨"VAL", 10, 0, .ro, 0⟩]⟩]

/-- The PMC registers (22_integrity_and_counters.md). -/
def rows : List RegSpec := rows0 ++ rows1

end PMC

namespace TWN

def CTRL : Nat := 0x3F8000
def CTRL_EN : Fld := ⟨CTRL, 0, 1⟩
def CTRL_ROLE : Fld := ⟨CTRL, 1, 1⟩
def CTRL_CMP_EN : Fld := ⟨CTRL, 2, 1⟩
def CTRL_MIRROR_EN : Fld := ⟨CTRL, 3, 1⟩
def CTRL_MIRROR_KEYS : Fld := ⟨CTRL, 4, 1⟩
def STICKY : Nat := 0x3F8008
def STICKY_LINK_UP : Fld := ⟨STICKY, 1, 1⟩
def STICKY_LINK_DOWN : Fld := ⟨STICKY, 2, 1⟩
def STICKY_ROLE_CLASH : Fld := ⟨STICKY, 3, 1⟩
def STICKY_PEER_BAD : Fld := ⟨STICKY, 4, 1⟩
def STICKY_MIRROR_ERR : Fld := ⟨STICKY, 5, 1⟩
def STICKY_HANDOVER : Fld := ⟨STICKY, 6, 1⟩
def STICKY_BOTH_ACTIVE : Fld := ⟨STICKY, 7, 1⟩
def STAT : Nat := 0x3F8010
def STAT_LINK : Fld := ⟨STAT, 0, 2⟩
def STAT_CMP_VALID : Fld := ⟨STAT, 2, 1⟩
def STAT_MIRROR_SYNC : Fld := ⟨STAT, 3, 1⟩
def STAT_PEER_ROLE : Fld := ⟨STAT, 4, 1⟩
def STAT_PEER_MODE : Fld := ⟨STAT, 8, 4⟩
def STAT_HO_PHASE : Fld := ⟨STAT, 16, 3⟩
def ASYM : Nat := 0x3F8014
def OFFSET : Nat := 0x3F8018
def RTT : Nat := 0x3F801C
def PEER_ID (n : Nat) : Nat := 0x3F8020 + 0x4 * n
def MIRROR_LAG : Nat := 0x3F8030
def MIRROR_STAT : Nat := 0x3F8034
def HO_LAST : Nat := 0x3F8038
def HANDOVERS : Nat := 0x3F803C
def LINK_DOWNS : Nat := 0x3F8040
def CRC_ERRS : Nat := 0x3F8044
def FRAMES_TX_LO : Nat := 0x3F8048
def FRAMES_RX_LO : Nat := 0x3F8050
def CAL_TX : Nat := 0x3F8058
def CAL_RX : Nat := 0x3F805C
def SAMPLES : Nat := 0x3F8060
def PEER_QRANK : Nat := 0x3F8064
def MIRROR_BYTES_LO : Nat := 0x3F8068
def HO_LAST_SEC : Nat := 0x3F8070
def MIRROR_ERRS : Nat := 0x3F8074
def PEER_SERIAL : Nat := 0x3F8078
def KEY_XFERS : Nat := 0x3F807C

def rows0 : List RegSpec := [
  ⟨"CTRL", 0x0, 0x0, 1, 0, 1, [⟨"EN", 0, 0, .rws, 0⟩, ⟨"ROLE", 1, 1, .rws, 0⟩, ⟨"CMP_EN", 2, 2, .rws, 1⟩,
    ⟨"MIRROR_EN", 3, 3, .rws, 0⟩, ⟨"MIRROR_KEYS", 4, 4, .rws, 0⟩]⟩,
  ⟨"COMMIT", 0x4, 0x0, 1, 0, 1, [⟨"GO", 0, 0, .w1s, 0⟩, ⟨"VIEW", 1, 1, .rw, 0⟩, ⟨"PENDING", 2, 2, .ro, 0⟩,
    ⟨"DISCARD", 3, 3, .w1s, 0⟩, ⟨"REFUSED", 4, 4, .w1c, 0⟩, ⟨"COUNT", 31, 16, .ro, 0⟩]⟩,
  ⟨"STICKY", 0x8, 0x0, 1, 0, 1, [⟨"CFG_REFUSED", 0, 0, .w1c, 0⟩, ⟨"LINK_UP", 1, 1, .w1c, 0⟩, ⟨"LINK_DOWN", 2, 2,
    .w1c, 0⟩, ⟨"ROLE_CLASH", 3, 3, .w1c, 0⟩, ⟨"PEER_BAD", 4, 4, .w1c, 0⟩, ⟨"MIRROR_ERR", 5, 5, .w1c, 0⟩,
    ⟨"HANDOVER", 6, 6, .w1c, 0⟩, ⟨"BOTH_ACTIVE", 7, 7, .w1c, 0⟩]⟩,
  ⟨"INT_EN", 0xC, 0x0, 1, 0, 1, [⟨"EN", 7, 0, .rw, 0xFD⟩]⟩,
  ⟨"STAT", 0x10, 0x0, 1, 0, 1, [⟨"LINK", 1, 0, .ro, 0⟩, ⟨"CMP_VALID", 2, 2, .ro, 0⟩, ⟨"MIRROR_SYNC", 3, 3, .ro, 0⟩,
    ⟨"PEER_ROLE", 4, 4, .ro, 0⟩, ⟨"PEER_MODE", 11, 8, .ro, 0⟩, ⟨"HO_PHASE", 18, 16, .ro, 0⟩]⟩,
  ⟨"ASYM", 0x14, 0x0, 1, 0, 1, [⟨"VAL", 31, 0, .rws, 0⟩]⟩,
  ⟨"OFFSET", 0x18, 0x0, 1, 0, 1, [⟨"VAL", 31, 0, .ro, 0⟩]⟩,
  ⟨"RTT", 0x1C, 0x0, 1, 0, 1, [⟨"VAL", 31, 0, .ro, 0⟩]⟩,
  ⟨"PEER_ID", 0x20, 0x4, 4, 0, 1, [⟨"VAL", 31, 0, .rws, 0⟩]⟩,
  ⟨"MIRROR_LAG", 0x30, 0x0, 1, 0, 1, [⟨"VAL", 31, 0, .ro, 0⟩]⟩,
  ⟨"MIRROR_STAT", 0x34, 0x0, 1, 0, 1, [⟨"VAL", 6, 0, .ro, 0⟩]⟩,
  ⟨"HO_LAST", 0x38, 0x0, 1, 0, 1, [⟨"VAL", 31, 0, .ro, 0⟩]⟩,
  ⟨"HANDOVERS", 0x3C, 0x0, 1, 0, 1, [⟨"VAL", 31, 0, .ro, 0⟩]⟩,
  ⟨"LINK_DOWNS", 0x40, 0x0, 1, 0, 1, [⟨"VAL", 31, 0, .ro, 0⟩]⟩,
  ⟨"CRC_ERRS", 0x44, 0x0, 1, 0, 1, [⟨"VAL", 31, 0, .ro, 0⟩]⟩,
  ⟨"FRAMES_TX_LO", 0x48, 0x0, 1, 0, 2, [⟨"VAL", 31, 0, .ro, 0⟩]⟩,
  ⟨"FRAMES_TX_HI", 0x4C, 0x0, 1, 1, 2, [⟨"VAL", 15, 0, .ro, 0⟩]⟩,
  ⟨"FRAMES_RX_LO", 0x50, 0x0, 1, 0, 2, [⟨"VAL", 31, 0, .ro, 0⟩]⟩,
  ⟨"FRAMES_RX_HI", 0x54, 0x0, 1, 1, 2, [⟨"VAL", 15, 0, .ro, 0⟩]⟩,
  ⟨"CAL_TX", 0x58, 0x0, 1, 0, 1, [⟨"VAL", 31, 0, .ro, 0⟩]⟩,
  ⟨"CAL_RX", 0x5C, 0x0, 1, 0, 1, [⟨"VAL", 31, 0, .ro, 0⟩]⟩,
  ⟨"SAMPLES", 0x60, 0x0, 1, 0, 1, [⟨"VAL", 31, 0, .ro, 0⟩]⟩,
  ⟨"PEER_QRANK", 0x64, 0x0, 1, 0, 1, [⟨"VAL", 3, 0, .ro, 0xF⟩]⟩,
  ⟨"MIRROR_BYTES_LO", 0x68, 0x0, 1, 0, 2, [⟨"VAL", 31, 0, .ro, 0⟩]⟩]

def rows1 : List RegSpec := [
  ⟨"MIRROR_BYTES_HI", 0x6C, 0x0, 1, 1, 2, [⟨"VAL", 15, 0, .ro, 0⟩]⟩,
  ⟨"HO_LAST_SEC", 0x70, 0x0, 1, 0, 1, [⟨"VAL", 31, 0, .ro, 0⟩]⟩,
  ⟨"MIRROR_ERRS", 0x74, 0x0, 1, 0, 1, [⟨"VAL", 31, 0, .ro, 0⟩]⟩,
  ⟨"PEER_SERIAL", 0x78, 0x0, 1, 0, 1, [⟨"VAL", 31, 0, .ro, 0⟩]⟩,
  ⟨"KEY_XFERS", 0x7C, 0x0, 1, 0, 1, [⟨"VAL", 31, 0, .ro, 0⟩]⟩]

/-- The TWN registers (21_selftest_and_live_replacement.md). -/
def rows : List RegSpec := rows0 ++ rows1

end TWN

end Sys2Proof.Machine
end

