-- ==== Sys2Proof/Machine/RegsNet.lean ====
section
/-! DEFINITION. The register tables of the manual for the network blocks: PRT, RSP, PTP and NTS. Each block has
its registers as rows (offset, stride, count, and every field with its bits, access and after-reset
value; the bits no field names are RSVD, R9), and the addresses and fields the meanings use as names. An
after-reset value that the manual does not give as one number stands as 0 here and is set in
Machine/RegReset.lean. -/

namespace Sys2Proof.Machine

namespace PRT

def CTRL (p : Nat) : Nat := 0x100000 + 0x10000 * p
def CTRL_EN (p : Nat) : Fld := ⟨CTRL p, 0, 1⟩
def CTRL_SPEED (p : Nat) : Fld := ⟨CTRL p, 1, 3⟩
def CTRL_FEC (p : Nat) : Fld := ⟨CTRL p, 4, 2⟩
def CTRL_PREEMPT_EN (p : Nat) : Fld := ⟨CTRL p, 6, 1⟩
def CTRL_EEE_EN (p : Nat) : Fld := ⟨CTRL p, 7, 1⟩
def CTRL_TRUNC_DISCARD (p : Nat) : Fld := ⟨CTRL p, 8, 1⟩
def STICKY (p : Nat) : Nat := 0x100008 + 0x10000 * p
def STICKY_CFG_REFUSED (p : Nat) : Fld := ⟨STICKY p, 0, 1⟩
def STICKY_LINK_UP (p : Nat) : Fld := ⟨STICKY p, 1, 1⟩
def STICKY_LINK_DOWN (p : Nat) : Fld := ⟨STICKY p, 2, 1⟩
def STICKY_LOCAL_FAULT (p : Nat) : Fld := ⟨STICKY p, 3, 1⟩
def STICKY_REMOTE_FAULT (p : Nat) : Fld := ⟨STICKY p, 4, 1⟩
def STICKY_TRUNC (p : Nat) : Fld := ⟨STICKY p, 6, 1⟩
def STICKY_STATS_HALF (p : Nat) : Fld := ⟨STICKY p, 7, 1⟩
def STICKY_STATS_LOST (p : Nat) : Fld := ⟨STICKY p, 8, 1⟩
def STICKY_STAMP_OVF (p : Nat) : Fld := ⟨STICKY p, 9, 1⟩
def STICKY_PREEMPT_FAIL (p : Nat) : Fld := ⟨STICKY p, 10, 1⟩
def STICKY_WAKE_MATCH (p : Nat) : Fld := ⟨STICKY p, 11, 1⟩
def STICKY_SLEEP (p : Nat) : Fld := ⟨STICKY p, 12, 1⟩
def STICKY_ESMC_CHANGE (p : Nat) : Fld := ⟨STICKY p, 13, 1⟩
def STICKY_ESMC_TIMEOUT (p : Nat) : Fld := ⟨STICKY p, 14, 1⟩
def STICKY_CAL_FAIL (p : Nat) : Fld := ⟨STICKY p, 15, 1⟩
def STAT (p : Nat) : Nat := 0x100010 + 0x10000 * p
def STAT_LINK (p : Nat) : Fld := ⟨STAT p, 0, 1⟩
def STAT_PCS_LOCK (p : Nat) : Fld := ⟨STAT p, 1, 1⟩
def STAT_FEC_LOCK (p : Nat) : Fld := ⟨STAT p, 2, 1⟩
def STAT_LOCAL_FAULT (p : Nat) : Fld := ⟨STAT p, 3, 1⟩
def STAT_REMOTE_FAULT (p : Nat) : Fld := ⟨STAT p, 4, 1⟩
def STAT_PREEMPT_ACTIVE (p : Nat) : Fld := ⟨STAT p, 5, 1⟩
def STAT_SLEEPING (p : Nat) : Fld := ⟨STAT p, 8, 1⟩
def STAT_DOWNSHIFTED (p : Nat) : Fld := ⟨STAT p, 9, 1⟩
def STAT_CAL_VALID (p : Nat) : Fld := ⟨STAT p, 10, 1⟩
def STAT_PRESENT (p : Nat) : Fld := ⟨STAT p, 11, 1⟩
def STAT_LINK_CHANGES (p : Nat) : Fld := ⟨STAT p, 16, 16⟩
def QUAD_CFG (p : Nat) : Nat := 0x100014 + 0x10000 * p
def QUAD_CFG_LAYOUT (p : Nat) : Fld := ⟨QUAD_CFG p, 0, 3⟩
def MAX_FRAME (p : Nat) : Nat := 0x100018 + 0x10000 * p
def VLAN_CFG (p : Nat) : Nat := 0x10001C + 0x10000 * p
def VLAN_CFG_ACCEPT (p : Nat) : Fld := ⟨VLAN_CFG p, 0, 3⟩
def VLAN_CFG_OUTER_TPID (p : Nat) : Fld := ⟨VLAN_CFG p, 16, 16⟩
def RX_DELAY (p : Nat) : Nat := 0x100020 + 0x10000 * p
def TX_DELAY (p : Nat) : Nat := 0x100024 + 0x10000 * p
def PREEMPT_CFG (p : Nat) : Nat := 0x100028 + 0x10000 * p
def PREEMPT_CFG_VERIFY_EN (p : Nat) : Fld := ⟨PREEMPT_CFG p, 0, 1⟩
def PREEMPT_CFG_VERIFY_MS (p : Nat) : Fld := ⟨PREEMPT_CFG p, 8, 7⟩
def WAKE_CTRL (p : Nat) : Nat := 0x10002C + 0x10000 * p
def WAKE_CTRL_PAT_EN (p : Nat) : Fld := ⟨WAKE_CTRL p, 0, 16⟩
def WAKE_CTRL_LINK_WAKE (p : Nat) : Fld := ⟨WAKE_CTRL p, 16, 1⟩
def WAKE_CTRL_ANY_FRAME (p : Nat) : Fld := ⟨WAKE_CTRL p, 17, 1⟩
def WAKE_SEL (p : Nat) : Nat := 0x100030 + 0x10000 * p
def WAKE_SEL_PATTERN (p : Nat) : Fld := ⟨WAKE_SEL p, 0, 4⟩
def WAKE_SEL_WORD (p : Nat) : Fld := ⟨WAKE_SEL p, 8, 3⟩
def WAKE_DATA (p : Nat) : Nat := 0x100034 + 0x10000 * p
def WAKE_STAT (p : Nat) : Nat := 0x100038 + 0x10000 * p
def WAKE_STAT_LAST (p : Nat) : Fld := ⟨WAKE_STAT p, 0, 4⟩
def WAKE_STAT_LAST_VALID (p : Nat) : Fld := ⟨WAKE_STAT p, 4, 1⟩
def WAKE_STAT_CAUSE (p : Nat) : Fld := ⟨WAKE_STAT p, 8, 2⟩
def WAKE_STAT_MATCHES (p : Nat) : Fld := ⟨WAKE_STAT p, 16, 16⟩
def STATS_CTRL (p : Nat) : Nat := 0x10003C + 0x10000 * p
def STATS_CTRL_PERIOD (p : Nat) : Fld := ⟨STATS_CTRL p, 0, 4⟩
def STATS_CTRL_FREEZE_SNAP (p : Nat) : Fld := ⟨STATS_CTRL p, 4, 1⟩
def STATS_CTRL_RING (p : Nat) : Fld := ⟨STATS_CTRL p, 8, 10⟩
def STATS_SEL (p : Nat) : Nat := 0x100040 + 0x10000 * p
def STATS_SEL_INDEX (p : Nat) : Fld := ⟨STATS_SEL p, 0, 6⟩
def STATS_SEL_HALF_IDX (p : Nat) : Fld := ⟨STATS_SEL p, 16, 6⟩
def STATS_SEL_HALF_VALID (p : Nat) : Fld := ⟨STATS_SEL p, 22, 1⟩
def STATS_LO (p : Nat) : Nat := 0x100044 + 0x10000 * p
def STATS_HI (p : Nat) : Nat := 0x100048 + 0x10000 * p
def SYNCE_CFG (p : Nat) : Nat := 0x10004C + 0x10000 * p
def SYNCE_CFG_RCLK_EN (p : Nat) : Fld := ⟨SYNCE_CFG p, 0, 1⟩
def SYNCE_CFG_RCLK_IDX (p : Nat) : Fld := ⟨SYNCE_CFG p, 1, 2⟩
def SYNCE_CFG_ESMC_RX_EN (p : Nat) : Fld := ⟨SYNCE_CFG p, 3, 1⟩
def SYNCE_CFG_ESMC_TX_EN (p : Nat) : Fld := ⟨SYNCE_CFG p, 4, 1⟩
def SYNCE_CFG_ESMC_EXT (p : Nat) : Fld := ⟨SYNCE_CFG p, 5, 1⟩
def SYNCE_CFG_TX_DNU_LOOP (p : Nat) : Fld := ⟨SYNCE_CFG p, 6, 1⟩
def SYNCE_CFG_ESMC_TO_HOST (p : Nat) : Fld := ⟨SYNCE_CFG p, 7, 1⟩
def SYNCE_CFG_TX_ESSM (p : Nat) : Fld := ⟨SYNCE_CFG p, 16, 8⟩
def ESMC_STAT (p : Nat) : Nat := 0x100050 + 0x10000 * p
def ESMC_STAT_SSM (p : Nat) : Fld := ⟨ESMC_STAT p, 0, 4⟩
def ESMC_STAT_ESSM (p : Nat) : Fld := ⟨ESMC_STAT p, 8, 8⟩
def ESMC_STAT_EXT (p : Nat) : Fld := ⟨ESMC_STAT p, 24, 1⟩
def ESMC_STAT_TX_SSM (p : Nat) : Fld := ⟨ESMC_STAT p, 28, 4⟩
def IDLE_CFG (p : Nat) : Nat := 0x100054 + 0x10000 * p
def IDLE_CFG_SLEEP_EN (p : Nat) : Fld := ⟨IDLE_CFG p, 0, 1⟩
def IDLE_CFG_DOWN_EN (p : Nat) : Fld := ⟨IDLE_CFG p, 1, 1⟩
def IDLE_CFG_DOWN_PCT (p : Nat) : Fld := ⟨IDLE_CFG p, 8, 8⟩
def IDLE_CFG_IDLE_MS (p : Nat) : Fld := ⟨IDLE_CFG p, 16, 16⟩
def LANE_CAL_SEL (p : Nat) : Nat := 0x100058 + 0x10000 * p
def LANE_LAT (p : Nat) : Nat := 0x10005C + 0x10000 * p

def rows0 : List RegSpec := [
  ⟨"CTRL", 0x0, 0x0, 1, 0, 1, [⟨"EN", 0, 0, .rws, 0⟩, ⟨"SPEED", 3, 1, .rws, 0⟩, ⟨"FEC", 5, 4, .rws, 0⟩,
    ⟨"PREEMPT_EN", 6, 6, .rws, 0⟩, ⟨"EEE_EN", 7, 7, .rws, 0⟩, ⟨"TRUNC_DISCARD", 8, 8, .rws, 1⟩]⟩,
  ⟨"COMMIT", 0x4, 0x0, 1, 0, 1, [⟨"GO", 0, 0, .w1s, 0⟩, ⟨"VIEW", 1, 1, .rw, 0⟩, ⟨"PENDING", 2, 2, .ro, 0⟩,
    ⟨"DISCARD", 3, 3, .w1s, 0⟩, ⟨"REFUSED", 4, 4, .w1c, 0⟩, ⟨"COUNT", 31, 16, .ro, 0⟩]⟩,
  ⟨"STICKY", 0x8, 0x0, 1, 0, 1, [⟨"CFG_REFUSED", 0, 0, .w1c, 0⟩, ⟨"LINK_UP", 1, 1, .w1c, 0⟩, ⟨"LINK_DOWN", 2, 2,
    .w1c, 0⟩, ⟨"LOCAL_FAULT", 3, 3, .w1c, 0⟩, ⟨"REMOTE_FAULT", 4, 4, .w1c, 0⟩, ⟨"FEC_UNCORR", 5, 5, .w1c, 0⟩,
    ⟨"TRUNC", 6, 6, .w1c, 0⟩, ⟨"STATS_HALF", 7, 7, .w1c, 0⟩, ⟨"STATS_LOST", 8, 8, .w1c, 0⟩, ⟨"STAMP_OVF", 9, 9,
    .w1c, 0⟩, ⟨"PREEMPT_FAIL", 10, 10, .w1c, 0⟩, ⟨"WAKE_MATCH", 11, 11, .w1c, 0⟩, ⟨"SLEEP", 12, 12, .w1c, 0⟩,
    ⟨"ESMC_CHANGE", 13, 13, .w1c, 0⟩, ⟨"ESMC_TIMEOUT", 14, 14, .w1c, 0⟩, ⟨"CAL_FAIL", 15, 15, .w1c, 0⟩]⟩,
  ⟨"INT_EN", 0xC, 0x0, 1, 0, 1, [⟨"EN", 15, 0, .rw, 0xE79D⟩]⟩,
  ⟨"STAT", 0x10, 0x0, 1, 0, 1, [⟨"LINK", 0, 0, .ro, 0⟩, ⟨"PCS_LOCK", 1, 1, .ro, 0⟩, ⟨"FEC_LOCK", 2, 2, .ro, 0⟩,
    ⟨"LOCAL_FAULT", 3, 3, .ro, 0⟩, ⟨"REMOTE_FAULT", 4, 4, .ro, 0⟩, ⟨"PREEMPT_ACTIVE", 5, 5, .ro, 0⟩, ⟨"LPI_TX", 6,
    6, .ro, 0⟩, ⟨"LPI_RX", 7, 7, .ro, 0⟩, ⟨"SLEEPING", 8, 8, .ro, 0⟩, ⟨"DOWNSHIFTED", 9, 9, .ro, 0⟩, ⟨"CAL_VALID",
    10, 10, .ro, 0⟩, ⟨"PRESENT", 11, 11, .ro, 0⟩, ⟨"LINK_CHANGES", 31, 16, .ro, 0⟩]⟩,
  ⟨"QUAD_CFG", 0x14, 0x0, 1, 0, 1, [⟨"LAYOUT", 2, 0, .rws, 0⟩]⟩,
  ⟨"MAX_FRAME", 0x18, 0x0, 1, 0, 1, [⟨"VAL", 13, 0, .rws, 0x5F2⟩]⟩,
  ⟨"VLAN_CFG", 0x1C, 0x0, 1, 0, 1, [⟨"ACCEPT", 2, 0, .rws, 7⟩, ⟨"OUTER_TPID", 31, 16, .rws, 0x88A8⟩]⟩,
  ⟨"RX_DELAY", 0x20, 0x0, 1, 0, 1, [⟨"VAL", 31, 0, .rws, 0⟩]⟩,
  ⟨"TX_DELAY", 0x24, 0x0, 1, 0, 1, [⟨"VAL", 31, 0, .rws, 0⟩]⟩,
  ⟨"PREEMPT_CFG", 0x28, 0x0, 1, 0, 1, [⟨"VERIFY_EN", 0, 0, .rws, 1⟩, ⟨"ADD_FRAG", 2, 1, .rws, 0⟩, ⟨"VERIFY_MS", 14,
    8, .rws, 0xA⟩]⟩,
  ⟨"WAKE_CTRL", 0x2C, 0x0, 1, 0, 1, [⟨"PAT_EN", 15, 0, .rws, 0⟩, ⟨"LINK_WAKE", 16, 16, .rws, 1⟩, ⟨"ANY_FRAME", 17,
    17, .rws, 0⟩]⟩,
  ⟨"WAKE_SEL", 0x30, 0x0, 1, 0, 1, [⟨"PATTERN", 3, 0, .rw, 0⟩, ⟨"WORD", 10, 8, .rw, 0⟩]⟩,
  ⟨"WAKE_DATA", 0x34, 0x0, 1, 0, 1, [⟨"VAL", 31, 0, .rws, 0⟩]⟩,
  ⟨"WAKE_STAT", 0x38, 0x0, 1, 0, 1, [⟨"LAST", 3, 0, .ro, 0⟩, ⟨"LAST_VALID", 4, 4, .ro, 0⟩, ⟨"CAUSE", 9, 8, .ro, 0⟩,
    ⟨"MATCHES", 31, 16, .ro, 0⟩]⟩,
  ⟨"STATS_CTRL", 0x3C, 0x0, 1, 0, 1, [⟨"PERIOD", 3, 0, .rw, 0⟩, ⟨"FREEZE_SNAP", 4, 4, .rw, 0⟩, ⟨"RING", 17, 8, .rw,
    0⟩]⟩,
  ⟨"STATS_SEL", 0x40, 0x0, 1, 0, 1, [⟨"INDEX", 5, 0, .rw, 0⟩, ⟨"HALF_IDX", 21, 16, .ro, 0⟩, ⟨"HALF_VALID", 22, 22,
    .ro, 0⟩]⟩,
  ⟨"STATS_LO", 0x44, 0x0, 1, 0, 2, [⟨"VAL", 31, 0, .ro, 0⟩]⟩,
  ⟨"STATS_HI", 0x48, 0x0, 1, 1, 2, [⟨"VAL", 15, 0, .ro, 0⟩]⟩,
  ⟨"SYNCE_CFG", 0x4C, 0x0, 1, 0, 1, [⟨"RCLK_EN", 0, 0, .rws, 0⟩, ⟨"RCLK_IDX", 2, 1, .rws, 0⟩, ⟨"ESMC_RX_EN", 3, 3,
    .rws, 0⟩, ⟨"ESMC_TX_EN", 4, 4, .rws, 0⟩, ⟨"ESMC_EXT", 5, 5, .rws, 0⟩, ⟨"TX_DNU_LOOP", 6, 6, .rws, 1⟩,
    ⟨"ESMC_TO_HOST", 7, 7, .rws, 0⟩, ⟨"TX_ESSM", 23, 16, .rws, 0xFF⟩]⟩,
  ⟨"ESMC_STAT", 0x50, 0x0, 1, 0, 1, [⟨"SSM", 3, 0, .ro, 0⟩, ⟨"ESSM", 15, 8, .ro, 0⟩, ⟨"AGE", 23, 16, .ro, 0xFF⟩,
    ⟨"EXT", 24, 24, .ro, 0⟩, ⟨"TX_SSM", 31, 28, .ro, 0⟩]⟩,
  ⟨"IDLE_CFG", 0x54, 0x0, 1, 0, 1, [⟨"SLEEP_EN", 0, 0, .rws, 0⟩, ⟨"DOWN_EN", 1, 1, .rws, 0⟩, ⟨"DOWN_PCT", 15, 8,
    .rws, 0x14⟩, ⟨"IDLE_MS", 31, 16, .rws, 0x64⟩]⟩,
  ⟨"LANE_CAL_SEL", 0x58, 0x0, 1, 0, 1, [⟨"LANE", 2, 0, .rw, 0⟩, ⟨"DIR", 3, 3, .rw, 0⟩]⟩,
  ⟨"LANE_LAT", 0x5C, 0x0, 1, 0, 1, [⟨"VAL", 31, 0, .ro, 0x80000000⟩]⟩]

/-- The PRT registers (09_ports.md). -/
def rows : List RegSpec := rows0

end PRT

namespace RSP

def CTRL : Nat := 0x300000
def CTRL_DEFAULT_ACTION : Fld := ⟨CTRL, 0, 1⟩
def CTRL_SMEAR_LI : Fld := ⟨CTRL, 1, 1⟩
def CTRL_TOL_Q : Fld := ⟨CTRL, 16, 8⟩
def STICKY : Nat := 0x300008
def STICKY_CFG_REFUSED : Fld := ⟨STICKY, 0, 1⟩
def STICKY_CANCEL : Fld := ⟨STICKY, 1, 1⟩
def STICKY_REBUILD_DROP : Fld := ⟨STICKY, 2, 1⟩
def STICKY_MISMATCH : Fld := ⟨STICKY, 3, 1⟩
def STICKY_LATE : Fld := ⟨STICKY, 4, 1⟩
def STICKY_EXPIRED : Fld := ⟨STICKY, 5, 1⟩
def STICKY_LIMIT_EMPTY : Fld := ⟨STICKY, 6, 1⟩
def STICKY_SIDE_FULL : Fld := ⟨STICKY, 7, 1⟩
def STICKY_SEQ_FAULT : Fld := ⟨STICKY, 8, 1⟩
def STICKY_FENCED : Fld := ⟨STICKY, 9, 1⟩
def TBL_SEL : Nat := 0x300010
def TBL_SEL_TABLE : Fld := ⟨TBL_SEL, 0, 3⟩
def TBL_SEL_WORD : Fld := ⟨TBL_SEL, 3, 4⟩
def TBL_SEL_INDEX : Fld := ⟨TBL_SEL, 8, 20⟩
def TBL_DATA : Nat := 0x300014
def DEFAULT_RING : Nat := 0x300018
def DEFAULT_RING_RING : Fld := ⟨DEFAULT_RING, 0, 10⟩
def DEFAULT_RING_MAX_RES : Fld := ⟨DEFAULT_RING, 16, 16⟩
def LIMIT_SEED : Nat := 0x30001C
def NTP_ROOT_DELAY : Nat := 0x300020
def NTP_ROOT_DISP : Nat := 0x300024
def REFID_NONE : Nat := 0x300028
def MAINT_QUADS : Nat := 0x30002C
def MAINT_QUADS_QUADS : Fld := ⟨MAINT_QUADS, 0, 4⟩
def STAT : Nat := 0x300030
def STAT_FENCED : Fld := ⟨STAT, 4, 4⟩
def STAT_BANK : Fld := ⟨STAT, 16, 1⟩
def CANCEL_LAST : Nat := 0x300034
def CANCEL_LAST_COUNT : Fld := ⟨CANCEL_LAST, 16, 16⟩
def REFTIME : Nat := 0x300038
def LIMIT_STAT : Nat := 0x30003C
def LIMIT_STAT_SCRUB_PASS : Fld := ⟨LIMIT_STAT, 0, 16⟩
def REFID (n : Nat) : Nat := 0x300040 + 0x4 * n
def Q_STAT (n : Nat) : Nat := 0x300100 + 0x40 * n
def Q_STAT_FENCED (n : Nat) : Fld := ⟨Q_STAT n, 1, 1⟩
def Q_ANSWERED_LO (n : Nat) : Nat := 0x300104 + 0x40 * n
def Q_KOD_LO (n : Nat) : Nat := 0x30010C + 0x40 * n
def Q_DECLINED_LO (n : Nat) : Nat := 0x300114 + 0x40 * n
def Q_REBUILT_LO (n : Nat) : Nat := 0x30011C + 0x40 * n
def Q_CANCEL_LO (n : Nat) : Nat := 0x300124 + 0x40 * n
def Q_CANCEL_SEL (n : Nat) : Nat := 0x30012C + 0x40 * n
def Q_CANCEL_CNT (n : Nat) : Nat := 0x300130 + 0x40 * n
def Q_LIMIT_EMPTY (n : Nat) : Nat := 0x300134 + 0x40 * n
def Q_LAT (n : Nat) : Nat := 0x300138 + 0x40 * n
def Q_LAT_MAX_BUILD (n : Nat) : Fld := ⟨Q_LAT n, 0, 16⟩
def Q_LAT_MAX_WAIT (n : Nat) : Fld := ⟨Q_LAT n, 16, 15⟩
def Q_LAT_RESET (n : Nat) : Fld := ⟨Q_LAT n, 31, 1⟩
def Q_EXPIRED (n : Nat) : Nat := 0x30013C + 0x40 * n

def rows0 : List RegSpec := [
  ⟨"CTRL", 0x0, 0x0, 1, 0, 1, [⟨"DEFAULT_ACTION", 0, 0, .rws, 0⟩, ⟨"SMEAR_LI", 1, 1, .rws, 0⟩, ⟨"TOL_Q", 23, 16,
    .rws, 1⟩]⟩,
  ⟨"COMMIT", 0x4, 0x0, 1, 0, 1, [⟨"GO", 0, 0, .w1s, 0⟩, ⟨"VIEW", 1, 1, .rw, 0⟩, ⟨"PENDING", 2, 2, .ro, 0⟩,
    ⟨"DISCARD", 3, 3, .w1s, 0⟩, ⟨"REFUSED", 4, 4, .w1c, 0⟩, ⟨"COUNT", 31, 16, .ro, 0⟩]⟩,
  ⟨"STICKY", 0x8, 0x0, 1, 0, 1, [⟨"CFG_REFUSED", 0, 0, .w1c, 0⟩, ⟨"CANCEL", 1, 1, .w1c, 0⟩, ⟨"REBUILD_DROP", 2, 2,
    .w1c, 0⟩, ⟨"MISMATCH", 3, 3, .w1c, 0⟩, ⟨"LATE", 4, 4, .w1c, 0⟩, ⟨"EXPIRED", 5, 5, .w1c, 0⟩, ⟨"LIMIT_EMPTY", 6,
    6, .w1c, 0⟩, ⟨"SIDE_FULL", 7, 7, .w1c, 0⟩, ⟨"SEQ_FAULT", 8, 8, .w1c, 0⟩, ⟨"FENCED", 9, 9, .w1c, 0⟩]⟩,
  ⟨"INT_EN", 0xC, 0x0, 1, 0, 1, [⟨"EN", 9, 0, .rw, 0x38D⟩]⟩,
  ⟨"TBL_SEL", 0x10, 0x0, 1, 0, 1, [⟨"TABLE", 2, 0, .rw, 0⟩, ⟨"WORD", 6, 3, .rw, 0⟩, ⟨"INDEX", 27, 8, .rw, 0⟩,
    ⟨"QUAD", 29, 28, .rw, 0⟩]⟩,
  ⟨"TBL_DATA", 0x14, 0x0, 1, 0, 1, [⟨"WORD", 31, 0, .rws, 0⟩]⟩,
  ⟨"DEFAULT_RING", 0x18, 0x0, 1, 0, 1, [⟨"RING", 9, 0, .rws, 0⟩, ⟨"MAX_RES", 31, 16, .rws, 0x3E8⟩]⟩,
  ⟨"LIMIT_SEED", 0x1C, 0x0, 1, 0, 1, [⟨"SEED", 31, 0, .rws, 0⟩]⟩,
  ⟨"NTP_ROOT_DELAY", 0x20, 0x0, 1, 0, 1, [⟨"VAL", 31, 0, .rws, 0⟩]⟩,
  ⟨"NTP_ROOT_DISP", 0x24, 0x0, 1, 0, 1, [⟨"VAL", 31, 0, .rws, 0⟩]⟩,
  ⟨"REFID_NONE", 0x28, 0x0, 1, 0, 1, [⟨"VAL", 31, 0, .rws, 0x54494E49⟩]⟩,
  ⟨"MAINT_QUADS", 0x2C, 0x0, 1, 0, 1, [⟨"QUADS", 3, 0, .rw, 0⟩]⟩,
  ⟨"STAT", 0x30, 0x0, 1, 0, 1, [⟨"PRESENT", 3, 0, .ro, 0⟩, ⟨"FENCED", 7, 4, .ro, 0⟩, ⟨"ISOLATED", 11, 8, .ro, 0⟩,
    ⟨"BANK", 16, 16, .ro, 0⟩]⟩,
  ⟨"CANCEL_LAST", 0x34, 0x0, 1, 0, 1, [⟨"PORT", 4, 0, .ro, 0⟩, ⟨"REASON", 10, 8, .ro, 0⟩, ⟨"AFTER_LAUNCH", 11, 11,
    .ro, 0⟩, ⟨"REBUILD", 12, 12, .ro, 0⟩, ⟨"COUNT", 31, 16, .ro, 0⟩]⟩,
  ⟨"REFTIME", 0x38, 0x0, 1, 0, 1, [⟨"VAL", 31, 0, .ro, 0⟩]⟩,
  ⟨"LIMIT_STAT", 0x3C, 0x0, 1, 0, 1, [⟨"SCRUB_PASS", 15, 0, .ro, 0⟩, ⟨"BUCKETS_LOG2", 20, 16, .ro, 0⟩]⟩,
  ⟨"REFID", 0x40, 0x4, 16, 0, 1, [⟨"VAL", 31, 0, .rws, 0⟩]⟩,
  ⟨"Q_STAT", 0x100, 0x40, 4, 0, 1, [⟨"PRESENT", 0, 0, .ro, 0⟩, ⟨"FENCED", 1, 1, .ro, 0⟩, ⟨"ISOLATED", 2, 2, .ro,
    0⟩, ⟨"RESV", 17, 8, .ro, 0⟩, ⟨"SIDE", 28, 18, .ro, 0⟩]⟩,
  ⟨"Q_ANSWERED_LO", 0x104, 0x40, 4, 0, 2, [⟨"VAL", 31, 0, .ro, 0⟩]⟩,
  ⟨"Q_ANSWERED_HI", 0x108, 0x40, 4, 1, 2, [⟨"VAL", 15, 0, .ro, 0⟩]⟩,
  ⟨"Q_KOD_LO", 0x10C, 0x40, 4, 0, 2, [⟨"VAL", 31, 0, .ro, 0⟩]⟩,
  ⟨"Q_KOD_HI", 0x110, 0x40, 4, 1, 2, [⟨"VAL", 15, 0, .ro, 0⟩]⟩,
  ⟨"Q_DECLINED_LO", 0x114, 0x40, 4, 0, 2, [⟨"VAL", 31, 0, .ro, 0⟩]⟩,
  ⟨"Q_DECLINED_HI", 0x118, 0x40, 4, 1, 2, [⟨"VAL", 15, 0, .ro, 0⟩]⟩]

def rows1 : List RegSpec := [
  ⟨"Q_REBUILT_LO", 0x11C, 0x40, 4, 0, 2, [⟨"VAL", 31, 0, .ro, 0⟩]⟩,
  ⟨"Q_REBUILT_HI", 0x120, 0x40, 4, 1, 2, [⟨"VAL", 15, 0, .ro, 0⟩]⟩,
  ⟨"Q_CANCEL_LO", 0x124, 0x40, 4, 0, 2, [⟨"VAL", 31, 0, .ro, 0⟩]⟩,
  ⟨"Q_CANCEL_HI", 0x128, 0x40, 4, 1, 2, [⟨"VAL", 15, 0, .ro, 0⟩]⟩,
  ⟨"Q_CANCEL_SEL", 0x12C, 0x40, 4, 0, 1, [⟨"REASON", 2, 0, .rw, 0⟩, ⟨"AFTER", 3, 3, .rw, 0⟩]⟩,
  ⟨"Q_CANCEL_CNT", 0x130, 0x40, 4, 0, 1, [⟨"VAL", 31, 0, .ro, 0⟩]⟩,
  ⟨"Q_LIMIT_EMPTY", 0x134, 0x40, 4, 0, 1, [⟨"VAL", 31, 0, .ro, 0⟩]⟩,
  ⟨"Q_LAT", 0x138, 0x40, 4, 0, 1, [⟨"MAX_BUILD", 15, 0, .ro, 0⟩, ⟨"MAX_WAIT", 30, 16, .ro, 0⟩, ⟨"RESET", 31, 31,
    .w1s, 0⟩]⟩,
  ⟨"Q_EXPIRED", 0x13C, 0x40, 4, 0, 1, [⟨"VAL", 31, 0, .ro, 0⟩]⟩]

/-- The RSP registers (10_response_pipeline.md). -/
def rows : List RegSpec := rows0 ++ rows1

end RSP

namespace PTP

def CTRL : Nat := 0x340000
def CTRL_PDELAY_EN : Fld := ⟨CTRL, 0, 1⟩
def CTRL_RENEW_INV : Fld := ⟨CTRL, 1, 1⟩
def CTRL_G82751_MAC : Fld := ⟨CTRL, 2, 1⟩
def CTRL_LATE_US : Fld := ⟨CTRL, 8, 8⟩
def STICKY : Nat := 0x340008
def STICKY_CFG_REFUSED : Fld := ⟨STICKY, 0, 1⟩
def STICKY_GRANT_REFUSED : Fld := ⟨STICKY, 1, 1⟩
def STICKY_GRANT_FULL : Fld := ⟨STICKY, 2, 1⟩
def STICKY_CAL_MISSED : Fld := ⟨STICKY, 3, 1⟩
def STICKY_UP_LOST : Fld := ⟨STICKY, 4, 1⟩
def STICKY_ANN_TIMEOUT : Fld := ⟨STICKY, 5, 1⟩
def STICKY_EVENT_LOST : Fld := ⟨STICKY, 6, 1⟩
def TBL_SEL : Nat := 0x340010
def TBL_SEL_TABLE : Fld := ⟨TBL_SEL, 0, 2⟩
def TBL_SEL_WORD : Fld := ⟨TBL_SEL, 2, 4⟩
def TBL_SEL_INDEX : Fld := ⟨TBL_SEL, 8, 18⟩
def TBL_DATA : Nat := 0x340014
def GRANT_CMD : Nat := 0x340018
def GRANT_CMD_STATUS : Fld := ⟨GRANT_CMD, 24, 8⟩
def HASH_SEED : Nat := 0x34001C
def QUAL_EXT (n : Nat) : Nat := 0x340020 + 0x4 * n
def QUAL_EXT_ACCURACY (n : Nat) : Fld := ⟨QUAL_EXT n, 0, 8⟩
def QUAL_EXT_VARIANCE (n : Nat) : Fld := ⟨QUAL_EXT n, 8, 16⟩
def QUAL_EXT_TIME_TRACE (n : Nat) : Fld := ⟨QUAL_EXT n, 24, 1⟩
def QUAL_EXT_FREQ_TRACE (n : Nat) : Fld := ⟨QUAL_EXT n, 25, 1⟩
def STAT : Nat := 0x340030
def STAT_DOMAINS : Fld := ⟨STAT, 0, 7⟩
def STAT_GM_TBI : Fld := ⟨STAT, 8, 16⟩
def Q_GRANTS (n : Nat) : Nat := 0x340034 + 0x4 * n
def Q_GRANTS_USED (n : Nat) : Fld := ⟨Q_GRANTS n, 0, 19⟩
def Q_GRANTS_FULL (n : Nat) : Fld := ⟨Q_GRANTS n, 24, 8⟩
def Q_RATE (n : Nat) : Nat := 0x340044 + 0x4 * n
def GRANT_REFUSED : Nat := 0x340054
def CAL_MISSED : Nat := 0x340058
def CAL_SENT_LO : Nat := 0x34005C
def EVENT_CFG : Nat := 0x340064
def EVENT_CFG_RING : Fld := ⟨EVENT_CFG, 0, 10⟩
def EVENT_CFG_UP_EVENTS : Fld := ⟨EVENT_CFG, 10, 1⟩
def AS_CAPABLE : Nat := 0x340068
def TSRC : Nat := 0x34006C
def TSRC_OTHER : Fld := ⟨TSRC, 0, 8⟩
def GRANT_SCRUB : Nat := 0x340070
def GRANTS_ISSUED : Nat := 0x340074
def CANCELS_RX : Nat := 0x340078
def UP_SUMMARY : Nat := 0x34007C
def UP_CFG (n : Nat) : Nat := 0x340080 + 0x20 * n
def UP_CFG_EN (n : Nat) : Fld := ⟨UP_CFG n, 0, 1⟩
def UP_CFG_MODE (n : Nat) : Fld := ⟨UP_CFG n, 1, 1⟩
def UP_CFG_ANN_TO_HOST (n : Nat) : Fld := ⟨UP_CFG n, 2, 1⟩
def UP_CFG_DOMAIN (n : Nat) : Fld := ⟨UP_CFG n, 4, 6⟩
def UP_CFG_PORT (n : Nat) : Fld := ⟨UP_CFG n, 10, 5⟩
def UP_CFG_ANN_TO (n : Nat) : Fld := ⟨UP_CFG n, 16, 4⟩
def UP_CFG_DELAY_AVG (n : Nat) : Fld := ⟨UP_CFG n, 20, 3⟩
def UP_MASTER_LO (n : Nat) : Nat := 0x340084 + 0x20 * n
def UP_MASTER_HI (n : Nat) : Nat := 0x340088 + 0x20 * n
def UP_MASTER_PORT (n : Nat) : Nat := 0x34008C + 0x20 * n
def UP_INTERVALS (n : Nat) : Nat := 0x340090 + 0x20 * n
def UP_INTERVALS_LOG_SYNC (n : Nat) : Fld := ⟨UP_INTERVALS n, 0, 8⟩
def UP_INTERVALS_LOG_ANN (n : Nat) : Fld := ⟨UP_INTERVALS n, 8, 8⟩
def UP_INTERVALS_LOG_DREQ (n : Nat) : Fld := ⟨UP_INTERVALS n, 16, 8⟩
def UP_INTERVALS_DUR_10S (n : Nat) : Fld := ⟨UP_INTERVALS n, 24, 8⟩
def UP_ASYM (n : Nat) : Nat := 0x340094 + 0x20 * n
def UP_STAT (n : Nat) : Nat := 0x340098 + 0x20 * n
def UP_STAT_ANN_OK (n : Nat) : Fld := ⟨UP_STAT n, 3, 1⟩
def UP_STAT_MPD_VALID (n : Nat) : Fld := ⟨UP_STAT n, 4, 1⟩
def UP_STAT_TWO_STEP (n : Nat) : Fld := ⟨UP_STAT n, 5, 1⟩
def UP_STAT_UNMATCHED (n : Nat) : Fld := ⟨UP_STAT n, 8, 8⟩
def UP_STAT_SAMPLES (n : Nat) : Fld := ⟨UP_STAT n, 16, 16⟩
def UP_MPD (n : Nat) : Nat := 0x34009C + 0x20 * n

def rows0 : List RegSpec := [
  ⟨"CTRL", 0x0, 0x0, 1, 0, 1, [⟨"PDELAY_EN", 0, 0, .rws, 0⟩, ⟨"RENEW_INV", 1, 1, .rws, 1⟩, ⟨"G82751_MAC", 2, 2,
    .rws, 0⟩, ⟨"LATE_US", 15, 8, .rws, 0x64⟩]⟩,
  ⟨"COMMIT", 0x4, 0x0, 1, 0, 1, [⟨"GO", 0, 0, .w1s, 0⟩, ⟨"VIEW", 1, 1, .rw, 0⟩, ⟨"PENDING", 2, 2, .ro, 0⟩,
    ⟨"DISCARD", 3, 3, .w1s, 0⟩, ⟨"REFUSED", 4, 4, .w1c, 0⟩, ⟨"COUNT", 31, 16, .ro, 0⟩]⟩,
  ⟨"STICKY", 0x8, 0x0, 1, 0, 1, [⟨"CFG_REFUSED", 0, 0, .w1c, 0⟩, ⟨"GRANT_REFUSED", 1, 1, .w1c, 0⟩, ⟨"GRANT_FULL",
    2, 2, .w1c, 0⟩, ⟨"CAL_MISSED", 3, 3, .w1c, 0⟩, ⟨"UP_LOST", 4, 4, .w1c, 0⟩, ⟨"ANN_TIMEOUT", 5, 5, .w1c, 0⟩,
    ⟨"EVENT_LOST", 6, 6, .w1c, 0⟩]⟩,
  ⟨"INT_EN", 0xC, 0x0, 1, 0, 1, [⟨"EN", 6, 0, .rw, 0x7D⟩]⟩,
  ⟨"TBL_SEL", 0x10, 0x0, 1, 0, 1, [⟨"TABLE", 1, 0, .rw, 0⟩, ⟨"WORD", 5, 2, .rw, 0⟩, ⟨"INDEX", 25, 8, .rw, 0⟩]⟩,
  ⟨"TBL_DATA", 0x14, 0x0, 1, 0, 1, [⟨"WORD", 31, 0, .rws, 0⟩]⟩,
  ⟨"GRANT_CMD", 0x18, 0x0, 1, 0, 1, [⟨"INDEX", 17, 0, .rw, 0⟩, ⟨"OP", 19, 18, .rw, 0⟩, ⟨"GO", 20, 20, .w1s, 0⟩,
    ⟨"BUSY", 21, 21, .ro, 0⟩, ⟨"STATUS", 31, 24, .ro, 0⟩]⟩,
  ⟨"HASH_SEED", 0x1C, 0x0, 1, 0, 1, [⟨"VAL", 31, 0, .rws, 0⟩]⟩,
  ⟨"QUAL_EXT", 0x20, 0x4, 4, 0, 1, [⟨"ACCURACY", 7, 0, .rws, 0⟩, ⟨"VARIANCE", 23, 8, .rws, 0⟩, ⟨"TIME_TRACE", 24,
    24, .rws, 0⟩, ⟨"FREQ_TRACE", 25, 25, .rws, 0⟩]⟩,
  ⟨"STAT", 0x30, 0x0, 1, 0, 1, [⟨"DOMAINS", 6, 0, .ro, 0⟩, ⟨"GM_TBI", 23, 8, .ro, 0⟩, ⟨"UP_ACTIVE", 27, 24, .ro, 0⟩]⟩,
  ⟨"Q_GRANTS", 0x34, 0x4, 4, 0, 1, [⟨"USED", 18, 0, .ro, 0⟩, ⟨"FULL", 31, 24, .ro, 0⟩]⟩,
  ⟨"Q_RATE", 0x44, 0x4, 4, 0, 1, [⟨"VAL", 31, 0, .ro, 0⟩]⟩,
  ⟨"GRANT_REFUSED", 0x54, 0x0, 1, 0, 1, [⟨"VAL", 31, 0, .ro, 0⟩]⟩,
  ⟨"CAL_MISSED", 0x58, 0x0, 1, 0, 1, [⟨"VAL", 31, 0, .ro, 0⟩]⟩,
  ⟨"CAL_SENT_LO", 0x5C, 0x0, 1, 0, 2, [⟨"VAL", 31, 0, .ro, 0⟩]⟩,
  ⟨"CAL_SENT_HI", 0x60, 0x0, 1, 1, 2, [⟨"VAL", 15, 0, .ro, 0⟩]⟩,
  ⟨"EVENT_CFG", 0x64, 0x0, 1, 0, 1, [⟨"RING", 9, 0, .rws, 0⟩, ⟨"UP_EVENTS", 10, 10, .rws, 0⟩]⟩,
  ⟨"AS_CAPABLE", 0x68, 0x0, 1, 0, 1, [⟨"VAL", 31, 0, .rw, 0⟩]⟩,
  ⟨"TSRC", 0x6C, 0x0, 1, 0, 1, [⟨"OTHER", 7, 0, .rws, 0x10⟩]⟩,
  ⟨"GRANT_SCRUB", 0x70, 0x0, 1, 0, 1, [⟨"VAL", 31, 0, .ro, 0⟩]⟩,
  ⟨"GRANTS_ISSUED", 0x74, 0x0, 1, 0, 1, [⟨"VAL", 31, 0, .ro, 0⟩]⟩,
  ⟨"CANCELS_RX", 0x78, 0x0, 1, 0, 1, [⟨"VAL", 31, 0, .ro, 0⟩]⟩,
  ⟨"UP_SUMMARY", 0x7C, 0x0, 1, 0, 1, [⟨"VAL", 31, 0, .ro, 0⟩]⟩,
  ⟨"UP_CFG", 0x80, 0x20, 4, 0, 1, [⟨"EN", 0, 0, .rws, 0⟩, ⟨"MODE", 1, 1, .rws, 0⟩, ⟨"ANN_TO_HOST", 2, 2, .rws, 0⟩,
    ⟨"DOMAIN", 9, 4, .rws, 0⟩, ⟨"PORT", 14, 10, .rws, 0⟩, ⟨"ANN_TO", 19, 16, .rws, 3⟩, ⟨"DELAY_AVG", 22, 20, .rws,
    3⟩]⟩]

def rows1 : List RegSpec := [
  ⟨"UP_MASTER_LO", 0x84, 0x20, 4, 0, 2, [⟨"VAL", 31, 0, .rws, 0⟩]⟩,
  ⟨"UP_MASTER_HI", 0x88, 0x20, 4, 1, 2, [⟨"VAL", 31, 0, .rws, 0⟩]⟩,
  ⟨"UP_MASTER_PORT", 0x8C, 0x20, 4, 0, 1, [⟨"VAL", 16, 0, .rws, 0x10000⟩]⟩,
  ⟨"UP_INTERVALS", 0x90, 0x20, 4, 0, 1, [⟨"LOG_SYNC", 7, 0, .rws, 0xFC⟩, ⟨"LOG_ANN", 15, 8, .rws, 0xFD⟩,
    ⟨"LOG_DREQ", 23, 16, .rws, 0xFC⟩, ⟨"DUR_10S", 31, 24, .rws, 0x1E⟩]⟩,
  ⟨"UP_ASYM", 0x94, 0x20, 4, 0, 1, [⟨"VAL", 31, 0, .rws, 0⟩]⟩,
  ⟨"UP_STAT", 0x98, 0x20, 4, 0, 1, [⟨"GRANTED", 2, 0, .ro, 0⟩, ⟨"ANN_OK", 3, 3, .ro, 0⟩, ⟨"MPD_VALID", 4, 4, .ro,
    0⟩, ⟨"TWO_STEP", 5, 5, .ro, 0⟩, ⟨"UNMATCHED", 15, 8, .ro, 0⟩, ⟨"SAMPLES", 31, 16, .ro, 0⟩]⟩,
  ⟨"UP_MPD", 0x9C, 0x20, 4, 0, 1, [⟨"VAL", 31, 0, .ro, 0⟩]⟩]

/-- The PTP registers (11_ptp_service.md). -/
def rows : List RegSpec := rows0 ++ rows1

end PTP

namespace NTS

def CTRL : Nat := 0x360000
def CTRL_NAK_EN : Fld := ⟨CTRL, 0, 1⟩
def CTRL_MAX_COOKIES : Fld := ⟨CTRL, 4, 4⟩
def STICKY : Nat := 0x360008
def STICKY_ROTATED : Fld := ⟨STICKY, 1, 1⟩
def STICKY_ROTATE_FAIL : Fld := ⟨STICKY, 2, 1⟩
def STICKY_COOKIE_FAIL : Fld := ⟨STICKY, 3, 1⟩
def STICKY_AUTH_FAIL : Fld := ⟨STICKY, 4, 1⟩
def STICKY_FORMAT_FAIL : Fld := ⟨STICKY, 5, 1⟩
def STICKY_PIPE_FAIL : Fld := ⟨STICKY, 6, 1⟩
def STICKY_MK_POISON : Fld := ⟨STICKY, 7, 1⟩
def STICKY_NO_KEY : Fld := ⟨STICKY, 8, 1⟩
def MK_CFG : Nat := 0x360010
def MK_CFG_SLOT_A : Fld := ⟨MK_CFG, 0, 10⟩
def MK_CFG_SLOT_B : Fld := ⟨MK_CFG, 16, 10⟩
def MK_STAT : Nat := 0x360014
def MK_STAT_CUR_GEN : Fld := ⟨MK_STAT, 0, 8⟩
def MK_STAT_CUR_VALID : Fld := ⟨MK_STAT, 8, 1⟩
def MK_STAT_PREV_VALID : Fld := ⟨MK_STAT, 9, 1⟩
def MK_STAT_ROTATING : Fld := ⟨MK_STAT, 10, 1⟩
def MK_STAT_CUR_SLOT : Fld := ⟨MK_STAT, 11, 1⟩
def MK_STAT_ROTATIONS : Fld := ⟨MK_STAT, 16, 16⟩
def MK_ROTATED : Nat := 0x360018
def PIPE_USABLE : Nat := 0x36001C
def PIPE_SPARE : Nat := 0x360020
def PIPE_SPARE_SPARE0_FOR : Fld := ⟨PIPE_SPARE, 0, 5⟩
def PIPE_SPARE_SPARE0_USED : Fld := ⟨PIPE_SPARE, 5, 1⟩
def PIPE_SPARE_SPARE1_FOR : Fld := ⟨PIPE_SPARE, 8, 5⟩
def PIPE_SPARE_SPARE1_USED : Fld := ⟨PIPE_SPARE, 13, 1⟩
def OPS_LO : Nat := 0x360024
def COOKIES_OUT_LO : Nat := 0x36002C
def NAK_COUNT : Nat := 0x360034
def MINT_COUNT : Nat := 0x360038
def PREV_ACCEPT : Nat := 0x36003C
def Q_STAT (n : Nat) : Nat := 0x360040 + 0x20 * n
def Q_STAT_PIPES (n : Nat) : Fld := ⟨Q_STAT n, 8, 4⟩
def Q_RESP_LO (n : Nat) : Nat := 0x360044 + 0x20 * n
def Q_COOKIE_FAIL (n : Nat) : Nat := 0x36004C + 0x20 * n
def Q_AUTH_FAIL (n : Nat) : Nat := 0x360050 + 0x20 * n
def Q_FORMAT_FAIL (n : Nat) : Nat := 0x360054 + 0x20 * n

def rows0 : List RegSpec := [
  ⟨"CTRL", 0x0, 0x0, 1, 0, 1, [⟨"NAK_EN", 0, 0, .rws, 1⟩, ⟨"MAX_COOKIES", 7, 4, .rws, 8⟩]⟩,
  ⟨"COMMIT", 0x4, 0x0, 1, 0, 1, [⟨"GO", 0, 0, .w1s, 0⟩, ⟨"VIEW", 1, 1, .rw, 0⟩, ⟨"PENDING", 2, 2, .ro, 0⟩,
    ⟨"DISCARD", 3, 3, .w1s, 0⟩, ⟨"REFUSED", 4, 4, .w1c, 0⟩, ⟨"COUNT", 31, 16, .ro, 0⟩]⟩,
  ⟨"STICKY", 0x8, 0x0, 1, 0, 1, [⟨"CFG_REFUSED", 0, 0, .w1c, 0⟩, ⟨"ROTATED", 1, 1, .w1c, 0⟩, ⟨"ROTATE_FAIL", 2, 2,
    .w1c, 0⟩, ⟨"COOKIE_FAIL", 3, 3, .w1c, 0⟩, ⟨"AUTH_FAIL", 4, 4, .w1c, 0⟩, ⟨"FORMAT_FAIL", 5, 5, .w1c, 0⟩,
    ⟨"PIPE_FAIL", 6, 6, .w1c, 0⟩, ⟨"MK_POISON", 7, 7, .w1c, 0⟩, ⟨"NO_KEY", 8, 8, .w1c, 0⟩]⟩,
  ⟨"INT_EN", 0xC, 0x0, 1, 0, 1, [⟨"EN", 8, 0, .rw, 0x1C7⟩]⟩,
  ⟨"MK_CFG", 0x10, 0x0, 1, 0, 1, [⟨"SLOT_A", 9, 0, .rws, 0x3FE⟩, ⟨"SLOT_B", 25, 16, .rws, 0x3FF⟩]⟩,
  ⟨"MK_STAT", 0x14, 0x0, 1, 0, 1, [⟨"CUR_GEN", 7, 0, .ro, 0⟩, ⟨"CUR_VALID", 8, 8, .ro, 0⟩, ⟨"PREV_VALID", 9, 9,
    .ro, 0⟩, ⟨"ROTATING", 10, 10, .ro, 0⟩, ⟨"CUR_SLOT", 11, 11, .ro, 0⟩, ⟨"ROTATIONS", 31, 16, .ro, 0⟩]⟩,
  ⟨"MK_ROTATED", 0x18, 0x0, 1, 0, 1, [⟨"VAL", 31, 0, .ro, 0⟩]⟩,
  ⟨"PIPE_USABLE", 0x1C, 0x0, 1, 0, 1, [⟨"VAL", 25, 0, .ro, 0⟩]⟩,
  ⟨"PIPE_SPARE", 0x20, 0x0, 1, 0, 1, [⟨"SPARE0_FOR", 4, 0, .ro, 0⟩, ⟨"SPARE0_USED", 5, 5, .ro, 0⟩, ⟨"SPARE1_FOR",
    12, 8, .ro, 0⟩, ⟨"SPARE1_USED", 13, 13, .ro, 0⟩]⟩,
  ⟨"OPS_LO", 0x24, 0x0, 1, 0, 2, [⟨"VAL", 31, 0, .ro, 0⟩]⟩,
  ⟨"OPS_HI", 0x28, 0x0, 1, 1, 2, [⟨"VAL", 15, 0, .ro, 0⟩]⟩,
  ⟨"COOKIES_OUT_LO", 0x2C, 0x0, 1, 0, 2, [⟨"VAL", 31, 0, .ro, 0⟩]⟩,
  ⟨"COOKIES_OUT_HI", 0x30, 0x0, 1, 1, 2, [⟨"VAL", 15, 0, .ro, 0⟩]⟩,
  ⟨"NAK_COUNT", 0x34, 0x0, 1, 0, 1, [⟨"VAL", 31, 0, .ro, 0⟩]⟩,
  ⟨"MINT_COUNT", 0x38, 0x0, 1, 0, 1, [⟨"VAL", 31, 0, .ro, 0⟩]⟩,
  ⟨"PREV_ACCEPT", 0x3C, 0x0, 1, 0, 1, [⟨"VAL", 31, 0, .ro, 0⟩]⟩,
  ⟨"Q_STAT", 0x40, 0x20, 4, 0, 1, [⟨"JOBS", 6, 0, .ro, 0⟩, ⟨"PIPES", 11, 8, .ro, 0⟩]⟩,
  ⟨"Q_RESP_LO", 0x44, 0x20, 4, 0, 2, [⟨"VAL", 31, 0, .ro, 0⟩]⟩,
  ⟨"Q_RESP_HI", 0x48, 0x20, 4, 1, 2, [⟨"VAL", 15, 0, .ro, 0⟩]⟩,
  ⟨"Q_COOKIE_FAIL", 0x4C, 0x20, 4, 0, 1, [⟨"VAL", 31, 0, .ro, 0⟩]⟩,
  ⟨"Q_AUTH_FAIL", 0x50, 0x20, 4, 0, 1, [⟨"VAL", 31, 0, .ro, 0⟩]⟩,
  ⟨"Q_FORMAT_FAIL", 0x54, 0x20, 4, 0, 1, [⟨"VAL", 31, 0, .ro, 0⟩]⟩]

/-- The NTS registers (12_nts_and_cipher_pipes.md). -/
def rows : List RegSpec := rows0

end NTS

end Sys2Proof.Machine
end

