-- ==== Sys2Proof/Machine/RegsSignal.lean ====
section
/-! DEFINITION. The register tables of the manual for the signal blocks: GNA, GNC, TDC, EVT and VID. Each block has
its registers as rows (offset, stride, count, and every field with its bits, access and after-reset
value; the bits no field names are RSVD, R9), and the addresses and fields the meanings use as names. An
after-reset value that the manual does not give as one number stands as 0 here and is set in
Machine/RegReset.lean. -/

namespace Sys2Proof.Machine

namespace GNA

def CTRL : Nat := 0x70000
def CTRL_ENG_EN : Fld := ⟨CTRL, 0, 4⟩
def CTRL_CLIP_FLAG : Fld := ⟨CTRL, 8, 8⟩
def STICKY : Nat := 0x70008
def STICKY_PORT_LOST : Fld := ⟨STICKY, 1, 1⟩
def STICKY_PORT_OOR : Fld := ⟨STICKY, 2, 1⟩
def STICKY_CLIP : Fld := ⟨STICKY, 3, 1⟩
def STICKY_REC_LOST : Fld := ⟨STICKY, 4, 1⟩
def STICKY_POISON : Fld := ⟨STICKY, 5, 1⟩
def STICKY_ENG_UNUSABLE : Fld := ⟨STICKY, 6, 1⟩
def STICKY_SEARCH_DONE : Fld := ⟨STICKY, 7, 1⟩
def THRESH : Nat := 0x70010
def THRESH_M : Fld := ⟨THRESH, 0, 16⟩
def STAT : Nat := 0x70014
def STAT_USABLE : Fld := ⟨STAT, 4, 4⟩
def STAT_QUEUED : Fld := ⟨STAT, 16, 7⟩
def ENG_STAT (n : Nat) : Nat := 0x70018 + 0x4 * n
def ENG_STAT_SEARCHES (n : Nat) : Fld := ⟨ENG_STAT n, 0, 16⟩
def ENG_STAT_DETECTS (n : Nat) : Fld := ⟨ENG_STAT n, 16, 16⟩
def TICK_SEL : Nat := 0x70028
def TICK_SEL_PORT : Fld := ⟨TICK_SEL, 0, 3⟩
def TICK_SAMPLES_LO : Nat := 0x7002C
def TICK_TIME_LO : Nat := 0x70034
def TICK_TIME_MID : Nat := 0x70038
def TICK_TIME_HI : Nat := 0x7003C
def PORT_CFG (n : Nat) : Nat := 0x70040 + 0x10 * n
def PORT_CFG_EN (n : Nat) : Fld := ⟨PORT_CFG n, 0, 1⟩
def PORT_CFG_FORMAT (n : Nat) : Fld := ⟨PORT_CFG n, 1, 2⟩
def PORT_CFG_ANTENNA (n : Nat) : Fld := ⟨PORT_CFG n, 6, 2⟩
def PORT_CFG_BAND (n : Nat) : Fld := ⟨PORT_CFG n, 8, 1⟩
def PORT_CFG_RATE_KHZ (n : Nat) : Fld := ⟨PORT_CFG n, 15, 17⟩
def PORT_IF (n : Nat) : Nat := 0x70044 + 0x10 * n
def PORT_STAT (n : Nat) : Nat := 0x70048 + 0x10 * n
def PORT_STAT_PRESENT (n : Nat) : Fld := ⟨PORT_STAT n, 0, 1⟩
def PORT_STAT_RATE_OOR (n : Nat) : Fld := ⟨PORT_STAT n, 1, 1⟩
def PORT_STAT_FREQ (n : Nat) : Fld := ⟨PORT_STAT n, 16, 16⟩
def PORT_LEVEL (n : Nat) : Nat := 0x7004C + 0x10 * n
def PORT_LEVEL_CLIP (n : Nat) : Fld := ⟨PORT_LEVEL n, 0, 8⟩
def PORT_LEVEL_MEAN_I (n : Nat) : Fld := ⟨PORT_LEVEL n, 8, 8⟩
def PORT_LEVEL_MEAN_Q (n : Nat) : Fld := ⟨PORT_LEVEL n, 16, 8⟩

def rows0 : List RegSpec := [
  ⟨"CTRL", 0x0, 0x0, 1, 0, 1, [⟨"ENG_EN", 3, 0, .rws, 0xF⟩, ⟨"CLIP_FLAG", 15, 8, .rws, 4⟩]⟩,
  ⟨"COMMIT", 0x4, 0x0, 1, 0, 1, [⟨"GO", 0, 0, .w1s, 0⟩, ⟨"VIEW", 1, 1, .rw, 0⟩, ⟨"PENDING", 2, 2, .ro, 0⟩,
    ⟨"DISCARD", 3, 3, .w1s, 0⟩, ⟨"REFUSED", 4, 4, .w1c, 0⟩, ⟨"COUNT", 31, 16, .ro, 0⟩]⟩,
  ⟨"STICKY", 0x8, 0x0, 1, 0, 1, [⟨"CFG_REFUSED", 0, 0, .w1c, 0⟩, ⟨"PORT_LOST", 1, 1, .w1c, 0⟩, ⟨"PORT_OOR", 2, 2,
    .w1c, 0⟩, ⟨"CLIP", 3, 3, .w1c, 0⟩, ⟨"REC_LOST", 4, 4, .w1c, 0⟩, ⟨"POISON", 5, 5, .w1c, 0⟩, ⟨"ENG_UNUSABLE", 6,
    6, .w1c, 0⟩, ⟨"SEARCH_DONE", 7, 7, .w1c, 0⟩]⟩,
  ⟨"INT_EN", 0xC, 0x0, 1, 0, 1, [⟨"EN", 7, 0, .rw, 0x77⟩]⟩,
  ⟨"THRESH", 0x10, 0x0, 1, 0, 1, [⟨"M", 15, 0, .rws, 0x160⟩]⟩,
  ⟨"STAT", 0x14, 0x0, 1, 0, 1, [⟨"BUSY", 3, 0, .ro, 0⟩, ⟨"USABLE", 7, 4, .ro, 0xF⟩, ⟨"QUEUED", 22, 16, .ro, 0⟩]⟩,
  ⟨"ENG_STAT", 0x18, 0x4, 4, 0, 1, [⟨"SEARCHES", 15, 0, .ro, 0⟩, ⟨"DETECTS", 31, 16, .ro, 0⟩]⟩,
  ⟨"TICK_SEL", 0x28, 0x0, 1, 0, 1, [⟨"PORT", 2, 0, .rw, 0⟩]⟩,
  ⟨"TICK_SAMPLES_LO", 0x2C, 0x0, 1, 0, 2, [⟨"VAL", 31, 0, .ro, 0⟩]⟩,
  ⟨"TICK_SAMPLES_HI", 0x30, 0x0, 1, 1, 2, [⟨"VAL", 15, 0, .ro, 0⟩]⟩,
  ⟨"TICK_TIME_LO", 0x34, 0x0, 1, 0, 3, [⟨"VAL", 31, 0, .ro, 0⟩]⟩,
  ⟨"TICK_TIME_MID", 0x38, 0x0, 1, 1, 3, [⟨"VAL", 31, 0, .ro, 0⟩]⟩,
  ⟨"TICK_TIME_HI", 0x3C, 0x0, 1, 2, 3, [⟨"VAL", 31, 0, .ro, 0⟩]⟩,
  ⟨"PORT_CFG", 0x40, 0x10, 8, 0, 1, [⟨"EN", 0, 0, .rws, 0⟩, ⟨"FORMAT", 2, 1, .rws, 0⟩, ⟨"IQ_SWAP", 3, 3, .rws, 0⟩,
    ⟨"SPEC_INV", 4, 4, .rws, 0⟩, ⟨"EDGE", 5, 5, .rws, 0⟩, ⟨"ANTENNA", 7, 6, .rws, 0⟩, ⟨"BAND", 8, 8, .rws, 0⟩,
    ⟨"DLY", 12, 9, .rws, 0⟩, ⟨"RATE_KHZ", 31, 15, .rws, 0⟩]⟩,
  ⟨"PORT_IF", 0x44, 0x10, 8, 0, 1, [⟨"HZ", 31, 0, .rws, 0⟩]⟩,
  ⟨"PORT_STAT", 0x48, 0x10, 8, 0, 1, [⟨"PRESENT", 0, 0, .ro, 0⟩, ⟨"RATE_OOR", 1, 1, .ro, 0⟩, ⟨"FREQ", 31, 16, .ro,
    0x8000⟩]⟩,
  ⟨"PORT_LEVEL", 0x4C, 0x10, 8, 0, 1, [⟨"CLIP", 7, 0, .ro, 0⟩, ⟨"MEAN_I", 15, 8, .ro, 0⟩, ⟨"MEAN_Q", 23, 16, .ro,
    0⟩]⟩]

/-- The GNA registers (07_gnss_acquisition.md). -/
def rows : List RegSpec := rows0

end GNA

namespace GNC

def CTRL : Nat := 0x80000
def CTRL_STEER_TO : Fld := ⟨CTRL, 0, 8⟩
def STICKY : Nat := 0x80008
def STICKY_CFG_REFUSED : Fld := ⟨STICKY, 0, 1⟩
def STICKY_EPOCH_DONE : Fld := ⟨STICKY, 1, 1⟩
def STICKY_EPOCH_LOST : Fld := ⟨STICKY, 2, 1⟩
def STICKY_EPOCH_LATE : Fld := ⟨STICKY, 3, 1⟩
def STICKY_STEER_LATE : Fld := ⟨STICKY, 4, 1⟩
def STICKY_CH_DROPPED : Fld := ⟨STICKY, 5, 1⟩
def STICKY_SPOOF_POWER : Fld := ⟨STICKY, 6, 1⟩
def STICKY_SPOOF_CARR : Fld := ⟨STICKY, 7, 1⟩
def STICKY_SPOOF_TIME : Fld := ⟨STICKY, 8, 1⟩
def STICKY_INTERF : Fld := ⟨STICKY, 9, 1⟩
def STICKY_UNIT_FAIL : Fld := ⟨STICKY, 10, 1⟩
def STICKY_SEQ_FAULT : Fld := ⟨STICKY, 11, 1⟩
def STICKY_EXTENDED : Fld := ⟨STICKY, 12, 1⟩
def EPOCH_CFG : Nat := 0x80010
def EPOCH_CFG_EN : Fld := ⟨EPOCH_CFG, 0, 1⟩
def EPOCH_CFG_PERIOD_MS : Fld := ⟨EPOCH_CFG, 1, 10⟩
def EPOCH_CFG_OFFSET_MS : Fld := ⟨EPOCH_CFG, 11, 10⟩
def EPOCH_CFG_RING : Fld := ⟨EPOCH_CFG, 21, 10⟩
def EPOCH_STAT : Nat := 0x80014
def EPOCH_STAT_COUNT : Fld := ⟨EPOCH_STAT, 0, 16⟩
def EPOCH_STAT_LOST : Fld := ⟨EPOCH_STAT, 16, 8⟩
def EPOCH_STAT_LATE : Fld := ⟨EPOCH_STAT, 24, 8⟩
def SPOOF_CFG : Nat := 0x80018
def SPOOF_CFG_TIME_NS : Fld := ⟨SPOOF_CFG, 16, 12⟩
def SPOOF_CFG_AUTO_SPOOF : Fld := ⟨SPOOF_CFG, 28, 1⟩
def SPOOF_STAT : Nat := 0x8001C
def SPOOF_STAT_GROTTO_READY : Fld := ⟨SPOOF_STAT, 10, 1⟩
def SPOOF_STAT_VAR : Fld := ⟨SPOOF_STAT, 16, 8⟩
def SPOOF_STAT_SATS : Fld := ⟨SPOOF_STAT, 24, 8⟩
def UNIT_MAP_LO : Nat := 0x80020
def UNIT_MAP_HI : Nat := 0x80024
def KA_CFG : Nat := 0x80028
def KA_CFG_LEN_MS : Fld := ⟨KA_CFG, 0, 10⟩
def KA_CFG_PERIOD_MS : Fld := ⟨KA_CFG, 16, 10⟩
def CH_SEL : Nat := 0x8002C
def CH_SEL_CHANNEL : Fld := ⟨CH_SEL, 0, 9⟩
def CH_SEL_OP : Fld := ⟨CH_SEL, 12, 2⟩
def CH_SEL_STATUS : Fld := ⟨CH_SEL, 16, 8⟩
def CH_SEL_BUSY : Fld := ⟨CH_SEL, 24, 1⟩
def CH_DATA (n : Nat) : Nat := 0x80030 + 0x4 * n
def PORT_DELAY (n : Nat) : Nat := 0x80060 + 0x4 * n
def GSEQ_CFG (n : Nat) : Nat := 0x80080 + 0x10 * n
def GSEQ_CFG_NAV_EN (n : Nat) : Fld := ⟨GSEQ_CFG n, 12, 1⟩
def GSEQ_CFG_NAV_RING (n : Nat) : Fld := ⟨GSEQ_CFG n, 16, 10⟩
def GSEQ_BURST (n : Nat) : Nat := 0x80084 + 0x10 * n
def GSEQ_BURST_BURST_EN (n : Nat) : Fld := ⟨GSEQ_BURST n, 0, 1⟩
def GSEQ_BURST_ANT_MASK (n : Nat) : Fld := ⟨GSEQ_BURST n, 4, 4⟩
def GSEQ_BURST_LEN_MS (n : Nat) : Fld := ⟨GSEQ_BURST n, 8, 10⟩
def GSEQ_BURST_PERIOD_MS (n : Nat) : Fld := ⟨GSEQ_BURST n, 18, 10⟩
def GSEQ_STAT (n : Nat) : Nat := 0x80088 + 0x10 * n
def GSEQ_STAT_LATE (n : Nat) : Fld := ⟨GSEQ_STAT n, 24, 8⟩
def GSEQ_LAG (n : Nat) : Nat := 0x8008C + 0x10 * n
def GSEQ_LAG_EXT (n : Nat) : Fld := ⟨GSEQ_LAG n, 0, 16⟩
def GSEQ_LAG_MAX_INT (n : Nat) : Fld := ⟨GSEQ_LAG n, 16, 8⟩
def GSEQ_LAG_CLEARED (n : Nat) : Fld := ⟨GSEQ_LAG n, 24, 8⟩

def rows0 : List RegSpec := [
  ⟨"CTRL", 0x0, 0x0, 1, 0, 1, [⟨"STEER_TO", 7, 0, .rws, 0x14⟩]⟩,
  ⟨"COMMIT", 0x4, 0x0, 1, 0, 1, [⟨"GO", 0, 0, .w1s, 0⟩, ⟨"VIEW", 1, 1, .rw, 0⟩, ⟨"PENDING", 2, 2, .ro, 0⟩,
    ⟨"DISCARD", 3, 3, .w1s, 0⟩, ⟨"REFUSED", 4, 4, .w1c, 0⟩, ⟨"COUNT", 31, 16, .ro, 0⟩]⟩,
  ⟨"STICKY", 0x8, 0x0, 1, 0, 1, [⟨"CFG_REFUSED", 0, 0, .w1c, 0⟩, ⟨"EPOCH_DONE", 1, 1, .w1c, 0⟩, ⟨"EPOCH_LOST", 2,
    2, .w1c, 0⟩, ⟨"EPOCH_LATE", 3, 3, .w1c, 0⟩, ⟨"STEER_LATE", 4, 4, .w1c, 0⟩, ⟨"CH_DROPPED", 5, 5, .w1c, 0⟩,
    ⟨"SPOOF_POWER", 6, 6, .w1c, 0⟩, ⟨"SPOOF_CARR", 7, 7, .w1c, 0⟩, ⟨"SPOOF_TIME", 8, 8, .w1c, 0⟩, ⟨"INTERF", 9, 9,
    .w1c, 0⟩, ⟨"UNIT_FAIL", 10, 10, .w1c, 0⟩, ⟨"SEQ_FAULT", 11, 11, .w1c, 0⟩, ⟨"EXTENDED", 12, 12, .w1c, 0⟩]⟩,
  ⟨"INT_EN", 0xC, 0x0, 1, 0, 1, [⟨"EN", 12, 0, .rw, 0xFED⟩]⟩,
  ⟨"EPOCH_CFG", 0x10, 0x0, 1, 0, 1, [⟨"EN", 0, 0, .rws, 0⟩, ⟨"PERIOD_MS", 10, 1, .rws, 0x3E8⟩, ⟨"OFFSET_MS", 20,
    11, .rws, 0⟩, ⟨"RING", 30, 21, .rws, 0⟩]⟩,
  ⟨"EPOCH_STAT", 0x14, 0x0, 1, 0, 1, [⟨"COUNT", 15, 0, .ro, 0⟩, ⟨"LOST", 23, 16, .ro, 0⟩, ⟨"LATE", 31, 24, .ro, 0⟩]⟩,
  ⟨"SPOOF_CFG", 0x18, 0x0, 1, 0, 1, [⟨"POW_DB", 3, 0, .rws, 3⟩, ⟨"CARR_MIN", 7, 4, .rws, 5⟩, ⟨"CARR_VAR", 15, 8,
    .rws, 0xD⟩, ⟨"TIME_NS", 27, 16, .rws, 0x64⟩, ⟨"AUTO_SPOOF", 28, 28, .rws, 0⟩]⟩,
  ⟨"SPOOF_STAT", 0x1C, 0x0, 1, 0, 1, [⟨"POWER", 3, 0, .ro, 0⟩, ⟨"INTERF", 7, 4, .ro, 0⟩, ⟨"CARR", 8, 8, .ro, 0⟩,
    ⟨"TIME", 9, 9, .ro, 0⟩, ⟨"GROTTO_READY", 10, 10, .ro, 0⟩, ⟨"VAR", 23, 16, .ro, 0⟩, ⟨"SATS", 31, 24, .ro, 0⟩]⟩,
  ⟨"UNIT_MAP_LO", 0x20, 0x0, 1, 0, 2, [⟨"SERVED", 31, 0, .ro, 0xFFFFFFFF⟩]⟩,
  ⟨"UNIT_MAP_HI", 0x24, 0x0, 1, 1, 2, [⟨"SERVED", 15, 0, .ro, 0xFFFF⟩, ⟨"SPARE_FREE", 19, 16, .ro, 0xF⟩]⟩,
  ⟨"KA_CFG", 0x28, 0x0, 1, 0, 1, [⟨"LEN_MS", 9, 0, .rws, 0x14⟩, ⟨"PERIOD_MS", 25, 16, .rws, 0x3E8⟩]⟩,
  ⟨"CH_SEL", 0x2C, 0x0, 1, 0, 1, [⟨"CHANNEL", 8, 0, .rw, 0⟩, ⟨"OP", 13, 12, .rw, 0⟩, ⟨"GO", 15, 15, .w1s, 0⟩,
    ⟨"STATUS", 23, 16, .ro, 0⟩, ⟨"BUSY", 24, 24, .ro, 0⟩]⟩,
  ⟨"CH_DATA", 0x30, 0x4, 12, 0, 1, [⟨"WORD", 31, 0, .rw, 0⟩]⟩,
  ⟨"PORT_DELAY", 0x60, 0x4, 8, 0, 1, [⟨"DELAY", 31, 0, .rws, 0⟩]⟩,
  ⟨"GSEQ_CFG", 0x80, 0x10, 8, 0, 1, [⟨"PLL_BW", 3, 0, .rws, 6⟩, ⟨"DLL_BW", 7, 4, .rws, 3⟩, ⟨"FLL_BW", 11, 8, .rws,
    4⟩, ⟨"NAV_EN", 12, 12, .rws, 0⟩, ⟨"NAV_RING", 25, 16, .rws, 0⟩]⟩,
  ⟨"GSEQ_BURST", 0x84, 0x10, 8, 0, 1, [⟨"BURST_EN", 0, 0, .rws, 0⟩, ⟨"ANT_MASK", 7, 4, .rws, 1⟩, ⟨"LEN_MS", 17, 8,
    .rws, 0x64⟩, ⟨"PERIOD_MS", 27, 18, .rws, 0x3E8⟩]⟩,
  ⟨"GSEQ_STAT", 0x88, 0x10, 8, 0, 1, [⟨"TRACKING", 5, 0, .ro, 0⟩, ⟨"LOCKED", 13, 8, .ro, 0⟩, ⟨"FAULT", 14, 14, .ro,
    0⟩, ⟨"HB", 23, 16, .ro, 0⟩, ⟨"LATE", 31, 24, .ro, 0⟩]⟩,
  ⟨"GSEQ_LAG", 0x8C, 0x10, 8, 0, 1, [⟨"EXT", 15, 0, .ro, 0⟩, ⟨"MAX_INT", 23, 16, .ro, 0⟩, ⟨"CLEARED", 31, 24, .ro,
    0⟩]⟩]

/-- The GNC registers (08_gnss_tracking.md). -/
def rows : List RegSpec := rows0

end GNC

namespace TDC

def CTRL : Nat := 0x90000
def CTRL_CAL_PERIOD : Fld := ⟨CTRL, 0, 8⟩
def CTRL_CAL_JUMP : Fld := ⟨CTRL, 8, 8⟩
def STICKY : Nat := 0x90008
def STICKY_TB_LOST : Fld := ⟨STICKY, 1, 1⟩
def STICKY_TB_BACK : Fld := ⟨STICKY, 2, 1⟩
def STICKY_TB_OOR : Fld := ⟨STICKY, 3, 1⟩
def STICKY_ANCHORED : Fld := ⟨STICKY, 4, 1⟩
def STICKY_CAL_FAIL : Fld := ⟨STICKY, 5, 1⟩
def STICKY_CAL_JUMP : Fld := ⟨STICKY, 6, 1⟩
def STICKY_SINGLE : Fld := ⟨STICKY, 7, 1⟩
def STICKY_CH_UNUSABLE : Fld := ⟨STICKY, 8, 1⟩
def STICKY_DEAD : Fld := ⟨STICKY, 9, 1⟩
def STICKY_LOST : Fld := ⟨STICKY, 10, 1⟩
def STICKY_FREQ_LOST : Fld := ⟨STICKY, 11, 1⟩
def STICKY_GATE_INVALID : Fld := ⟨STICKY, 12, 1⟩
def TB_CFG : Nat := 0x90010
def TB_CFG_FREQ : Fld := ⟨TB_CFG, 0, 3⟩
def TB_CFG_TS : Fld := ⟨TB_CFG, 4, 6⟩
def TB_CFG_WIN_PPM : Fld := ⟨TB_CFG, 16, 10⟩
def TB_CFG_SETTLE_S : Fld := ⟨TB_CFG, 26, 6⟩
def TB_STAT : Nat := 0x90014
def TB_STAT_PRESENT : Fld := ⟨TB_STAT, 0, 1⟩
def TB_STAT_LOCKED : Fld := ⟨TB_STAT, 1, 1⟩
def TB_STAT_SETTLED : Fld := ⟨TB_STAT, 2, 1⟩
def TB_STAT_FREQ : Fld := ⟨TB_STAT, 16, 16⟩
def GR_CFG : Nat := 0x90018
def GR_CFG_TS : Fld := ⟨GR_CFG, 0, 6⟩
def GR_STAT : Nat := 0x9001C
def ANCHOR_CTRL : Nat := 0x90020
def ANCHOR_CTRL_BASE : Fld := ⟨ANCHOR_CTRL, 0, 1⟩
def ANCHOR_LO : Nat := 0x90024
def ANCHOR_MID : Nat := 0x90028
def ANCHOR_HI : Nat := 0x9002C
def CAL_SEL : Nat := 0x90030
def CAL_DATA : Nat := 0x90034
def CH_SUMMARY : Nat := 0x90038
def CAL_COUNT : Nat := 0x9003C
def CAL_COUNT_DONE : Fld := ⟨CAL_COUNT, 0, 16⟩
def CAL_COUNT_FAILS : Fld := ⟨CAL_COUNT, 16, 16⟩
def CH_CFG (n : Nat) : Nat := 0x90040 + 0x20 * n
def CH_CFG_EN (n : Nat) : Fld := ⟨CH_CFG n, 0, 1⟩
def CH_CFG_EDGE (n : Nat) : Fld := ⟨CH_CFG n, 1, 2⟩
def CH_CFG_STREAM_EN (n : Nat) : Fld := ⟨CH_CFG n, 3, 1⟩
def CH_CFG_FREQ_EN (n : Nat) : Fld := ⟨CH_CFG n, 4, 1⟩
def CH_CFG_TAG (n : Nat) : Fld := ⟨CH_CFG n, 8, 8⟩
def CH_CFG_DIV (n : Nat) : Fld := ⟨CH_CFG n, 16, 16⟩
def CH_RING (n : Nat) : Nat := 0x90044 + 0x20 * n
def CH_RING_RING (n : Nat) : Fld := ⟨CH_RING n, 0, 10⟩
def CH_RING_FREQ_RING (n : Nat) : Fld := ⟨CH_RING n, 16, 10⟩
def CH_GATE (n : Nat) : Nat := 0x90048 + 0x20 * n
def CH_GATE_GATE_MS (n : Nat) : Fld := ⟨CH_GATE n, 0, 20⟩
def CH_DELAY (n : Nat) : Nat := 0x9004C + 0x20 * n
def CH_COUNT (n : Nat) : Nat := 0x90050 + 0x20 * n
def CH_STAT (n : Nat) : Nat := 0x90054 + 0x20 * n
def CH_STAT_ACTIVE_B (n : Nat) : Fld := ⟨CH_STAT n, 0, 1⟩
def CH_STAT_SINGLE (n : Nat) : Fld := ⟨CH_STAT n, 1, 1⟩
def CH_STAT_UNUSABLE (n : Nat) : Fld := ⟨CH_STAT n, 2, 1⟩
def CH_STAT_GATE_OPEN (n : Nat) : Fld := ⟨CH_STAT n, 3, 1⟩
def CH_STAT_DEAD (n : Nat) : Fld := ⟨CH_STAT n, 8, 8⟩
def CH_STAT_LOST (n : Nat) : Fld := ⟨CH_STAT n, 16, 8⟩
def CH_STAT_CAL_FAILS (n : Nat) : Fld := ⟨CH_STAT n, 24, 8⟩

def rows0 : List RegSpec := [
  ⟨"CTRL", 0x0, 0x0, 1, 0, 1, [⟨"CAL_PERIOD", 7, 0, .rws, 0xA⟩, ⟨"CAL_JUMP", 15, 8, .rws, 0x14⟩]⟩,
  ⟨"COMMIT", 0x4, 0x0, 1, 0, 1, [⟨"GO", 0, 0, .w1s, 0⟩, ⟨"VIEW", 1, 1, .rw, 0⟩, ⟨"PENDING", 2, 2, .ro, 0⟩,
    ⟨"DISCARD", 3, 3, .w1s, 0⟩, ⟨"REFUSED", 4, 4, .w1c, 0⟩, ⟨"COUNT", 31, 16, .ro, 0⟩]⟩,
  ⟨"STICKY", 0x8, 0x0, 1, 0, 1, [⟨"CFG_REFUSED", 0, 0, .w1c, 0⟩, ⟨"TB_LOST", 1, 1, .w1c, 0⟩, ⟨"TB_BACK", 2, 2,
    .w1c, 0⟩, ⟨"TB_OOR", 3, 3, .w1c, 0⟩, ⟨"ANCHORED", 4, 4, .w1c, 0⟩, ⟨"CAL_FAIL", 5, 5, .w1c, 0⟩, ⟨"CAL_JUMP", 6,
    6, .w1c, 0⟩, ⟨"SINGLE", 7, 7, .w1c, 0⟩, ⟨"CH_UNUSABLE", 8, 8, .w1c, 0⟩, ⟨"DEAD", 9, 9, .w1c, 0⟩, ⟨"LOST", 10,
    10, .w1c, 0⟩, ⟨"FREQ_LOST", 11, 11, .w1c, 0⟩, ⟨"GATE_INVALID", 12, 12, .w1c, 0⟩]⟩,
  ⟨"INT_EN", 0xC, 0x0, 1, 0, 1, [⟨"EN", 12, 0, .rw, 0xDA7⟩]⟩,
  ⟨"TB_CFG", 0x10, 0x0, 1, 0, 1, [⟨"FREQ", 2, 0, .rws, 1⟩, ⟨"TS", 9, 4, .rws, 0⟩, ⟨"WIN_PPM", 25, 16, .rws, 0x32⟩,
    ⟨"SETTLE_S", 31, 26, .rws, 0xA⟩]⟩,
  ⟨"TB_STAT", 0x14, 0x0, 1, 0, 1, [⟨"PRESENT", 0, 0, .ro, 0⟩, ⟨"LOCKED", 1, 1, .ro, 0⟩, ⟨"SETTLED", 2, 2, .ro, 0⟩,
    ⟨"FREQ", 31, 16, .ro, 0x8000⟩]⟩,
  ⟨"GR_CFG", 0x18, 0x0, 1, 0, 1, [⟨"TS", 5, 0, .rws, 0⟩]⟩,
  ⟨"GR_STAT", 0x1C, 0x0, 1, 0, 1, [⟨"VALID", 0, 0, .ro, 0⟩, ⟨"WARM", 1, 1, .ro, 0⟩, ⟨"READY", 2, 2, .ro, 0⟩,
    ⟨"LOCKED", 3, 3, .ro, 0⟩]⟩,
  ⟨"ANCHOR_CTRL", 0x20, 0x0, 1, 0, 1, [⟨"BASE", 0, 0, .rw, 0⟩, ⟨"GO_TB", 1, 1, .w1s, 0⟩, ⟨"GO_GR", 2, 2, .w1s, 0⟩,
    ⟨"COUNT_TB", 23, 16, .ro, 0⟩, ⟨"COUNT_GR", 31, 24, .ro, 0⟩]⟩,
  ⟨"ANCHOR_LO", 0x24, 0x0, 1, 0, 3, [⟨"VAL", 31, 0, .ro, 0⟩]⟩,
  ⟨"ANCHOR_MID", 0x28, 0x0, 1, 1, 3, [⟨"VAL", 31, 0, .ro, 0⟩]⟩,
  ⟨"ANCHOR_HI", 0x2C, 0x0, 1, 2, 3, [⟨"VAL", 31, 0, .ro, 0⟩]⟩,
  ⟨"CAL_SEL", 0x30, 0x0, 1, 0, 1, [⟨"CHANNEL", 3, 0, .rw, 0⟩, ⟨"INTERP", 4, 4, .rw, 0⟩, ⟨"BIN", 15, 8, .rw, 0⟩]⟩,
  ⟨"CAL_DATA", 0x34, 0x0, 1, 0, 1, [⟨"HITS", 20, 0, .ro, 0⟩, ⟨"TABLE_VALID", 31, 31, .ro, 0⟩]⟩,
  ⟨"CH_SUMMARY", 0x38, 0x0, 1, 0, 1, [⟨"ENABLED", 15, 0, .ro, 0⟩, ⟨"UNUSABLE", 31, 16, .ro, 0⟩]⟩,
  ⟨"CAL_COUNT", 0x3C, 0x0, 1, 0, 1, [⟨"DONE", 15, 0, .ro, 0⟩, ⟨"FAILS", 31, 16, .ro, 0⟩]⟩,
  ⟨"CH_CFG", 0x40, 0x20, 16, 0, 1, [⟨"EN", 0, 0, .rws, 0⟩, ⟨"EDGE", 2, 1, .rws, 0⟩, ⟨"STREAM_EN", 3, 3, .rws, 1⟩,
    ⟨"FREQ_EN", 4, 4, .rws, 0⟩, ⟨"TAG", 15, 8, .rws, 0⟩, ⟨"DIV", 31, 16, .rws, 1⟩]⟩,
  ⟨"CH_RING", 0x44, 0x20, 16, 0, 1, [⟨"RING", 9, 0, .rws, 0⟩, ⟨"FREQ_RING", 25, 16, .rws, 0⟩]⟩,
  ⟨"CH_GATE", 0x48, 0x20, 16, 0, 1, [⟨"GATE_MS", 19, 0, .rws, 0x3E8⟩]⟩,
  ⟨"CH_DELAY", 0x4C, 0x20, 16, 0, 1, [⟨"VAL", 31, 0, .rws, 0⟩]⟩,
  ⟨"CH_COUNT", 0x50, 0x20, 16, 0, 1, [⟨"VAL", 31, 0, .ro, 0⟩]⟩,
  ⟨"CH_STAT", 0x54, 0x20, 16, 0, 1, [⟨"ACTIVE_B", 0, 0, .ro, 0⟩, ⟨"SINGLE", 1, 1, .ro, 0⟩, ⟨"UNUSABLE", 2, 2, .ro,
    0⟩, ⟨"GATE_OPEN", 3, 3, .ro, 0⟩, ⟨"DEAD", 15, 8, .ro, 0⟩, ⟨"LOST", 23, 16, .ro, 0⟩, ⟨"CAL_FAILS", 31, 24, .ro,
    0⟩]⟩]

/-- The TDC registers (15_time_interval_measurement.md). -/
def rows : List RegSpec := rows0

end TDC

namespace EVT

def CTRL : Nat := 0xA0000
def CTRL_SCHED_VF : Fld := ⟨CTRL, 0, 1⟩
def COMMIT : Nat := 0xA0004
def COMMIT_PENDING : Fld := ⟨COMMIT, 2, 1⟩
def STICKY : Nat := 0xA0008
def STICKY_PULSE_LATE : Fld := ⟨STICKY, 1, 1⟩
def STICKY_PULSE_SUPPRESSED : Fld := ⟨STICKY, 2, 1⟩
def STICKY_CAP_DEAD : Fld := ⟨STICKY, 3, 1⟩
def STICKY_CAP_LOST : Fld := ⟨STICKY, 4, 1⟩
def STICKY_SCHED_DONE : Fld := ⟨STICKY, 5, 1⟩
def STICKY_SCHED_FAIL : Fld := ⟨STICKY, 6, 1⟩
def PULSE_STAT : Nat := 0xA0010
def DELAY_SEL : Nat := 0xA0014
def DELAY_DATA : Nat := 0xA0018
def CAP_SEL : Nat := 0xA001C
def CAP_SEL_INPUT : Fld := ⟨CAP_SEL, 0, 4⟩
def CAP_LAST_LO : Nat := 0xA0020
def CAP_LAST_INFO : Nat := 0xA002C
def SCHED_STAT : Nat := 0xA0030
def SCHED_STAT_DONE : Fld := ⟨SCHED_STAT, 16, 16⟩
def SCHED_LAST : Nat := 0xA0034
def SCHED_LAST_SLOT : Fld := ⟨SCHED_LAST, 0, 3⟩
def SCHED_LAST_STATUS : Fld := ⟨SCHED_LAST, 8, 8⟩
def SCHED_LAST_SECONDS : Fld := ⟨SCHED_LAST, 16, 16⟩
def SCHED_REFUSED : Nat := 0xA0038
def MISSED : Nat := 0xA003C
def PULSE_CFG (n : Nat) : Nat := 0xA0040 + 0x10 * n
def PULSE_CFG_EN (n : Nat) : Fld := ⟨PULSE_CFG n, 0, 1⟩
def PULSE_CFG_PERIODIC (n : Nat) : Fld := ⟨PULSE_CFG n, 1, 1⟩
def PULSE_CFG_POL (n : Nat) : Fld := ⟨PULSE_CFG n, 2, 1⟩
def PULSE_CFG_LATE_FIRE (n : Nat) : Fld := ⟨PULSE_CFG n, 3, 1⟩
def PULSE_CFG_TS (n : Nat) : Fld := ⟨PULSE_CFG n, 4, 6⟩
def PULSE_CFG_GATE (n : Nat) : Fld := ⟨PULSE_CFG n, 10, 2⟩
def PULSE_CFG_WUNIT (n : Nat) : Fld := ⟨PULSE_CFG n, 12, 3⟩
def PULSE_CFG_WIDTH (n : Nat) : Fld := ⟨PULSE_CFG n, 16, 16⟩
def PULSE_START_LO (n : Nat) : Nat := 0xA0044 + 0x10 * n
def PULSE_START_HI (n : Nat) : Nat := 0xA0048 + 0x10 * n
def PULSE_PERIOD (n : Nat) : Nat := 0xA004C + 0x10 * n
def CAP_CFG (n : Nat) : Nat := 0xA0140 + 0x8 * n
def CAP_CFG_EN (n : Nat) : Fld := ⟨CAP_CFG n, 0, 1⟩
def CAP_CFG_EDGE (n : Nat) : Fld := ⟨CAP_CFG n, 1, 2⟩
def CAP_CFG_RAW (n : Nat) : Fld := ⟨CAP_CFG n, 3, 1⟩
def CAP_CFG_TS (n : Nat) : Fld := ⟨CAP_CFG n, 4, 6⟩
def CAP_CFG_RING (n : Nat) : Fld := ⟨CAP_CFG n, 10, 10⟩
def CAP_CFG_TAG (n : Nat) : Fld := ⟨CAP_CFG n, 20, 11⟩
def CAP_STAT (n : Nat) : Nat := 0xA0144 + 0x8 * n
def CAP_STAT_COUNT (n : Nat) : Fld := ⟨CAP_STAT n, 0, 16⟩
def CAP_STAT_DEAD (n : Nat) : Fld := ⟨CAP_STAT n, 16, 8⟩
def CAP_STAT_LOST (n : Nat) : Fld := ⟨CAP_STAT n, 24, 8⟩

def rows0 : List RegSpec := [
  ⟨"CTRL", 0x0, 0x0, 1, 0, 1, [⟨"SCHED_VF", 0, 0, .rws, 0⟩]⟩,
  ⟨"COMMIT", 0x4, 0x0, 1, 0, 1, [⟨"GO", 0, 0, .w1s, 0⟩, ⟨"VIEW", 1, 1, .rw, 0⟩, ⟨"PENDING", 2, 2, .ro, 0⟩,
    ⟨"DISCARD", 3, 3, .w1s, 0⟩, ⟨"REFUSED", 4, 4, .w1c, 0⟩, ⟨"COUNT", 31, 16, .ro, 0⟩]⟩,
  ⟨"STICKY", 0x8, 0x0, 1, 0, 1, [⟨"CFG_REFUSED", 0, 0, .w1c, 0⟩, ⟨"PULSE_LATE", 1, 1, .w1c, 0⟩,
    ⟨"PULSE_SUPPRESSED", 2, 2, .w1c, 0⟩, ⟨"CAP_DEAD", 3, 3, .w1c, 0⟩, ⟨"CAP_LOST", 4, 4, .w1c, 0⟩, ⟨"SCHED_DONE",
    5, 5, .w1c, 0⟩, ⟨"SCHED_FAIL", 6, 6, .w1c, 0⟩]⟩,
  ⟨"INT_EN", 0xC, 0x0, 1, 0, 1, [⟨"EN", 6, 0, .rw, 0x5B⟩]⟩,
  ⟨"PULSE_STAT", 0x10, 0x0, 1, 0, 1, [⟨"LEVEL", 15, 0, .ro, 0⟩, ⟨"ARMED", 31, 16, .ro, 0⟩]⟩,
  ⟨"DELAY_SEL", 0x14, 0x0, 1, 0, 1, [⟨"OUT", 3, 0, .rw, 0⟩, ⟨"DIR", 4, 4, .rw, 0⟩]⟩,
  ⟨"DELAY_DATA", 0x18, 0x0, 1, 0, 1, [⟨"DELAY", 31, 0, .rws, 0⟩]⟩,
  ⟨"CAP_SEL", 0x1C, 0x0, 1, 0, 1, [⟨"INPUT", 3, 0, .rw, 0⟩]⟩,
  ⟨"CAP_LAST_LO", 0x20, 0x0, 1, 0, 3, [⟨"VAL", 31, 0, .ro, 0⟩]⟩,
  ⟨"CAP_LAST_MID", 0x24, 0x0, 1, 1, 3, [⟨"VAL", 31, 0, .ro, 0⟩]⟩,
  ⟨"CAP_LAST_HI", 0x28, 0x0, 1, 2, 3, [⟨"VAL", 31, 0, .ro, 0⟩]⟩,
  ⟨"CAP_LAST_INFO", 0x2C, 0x0, 1, 0, 1, [⟨"TSIDX", 7, 0, .ro, 0⟩, ⟨"FLAGS", 15, 8, .ro, 0⟩, ⟨"TAG", 31, 16, .ro, 0⟩]⟩,
  ⟨"SCHED_STAT", 0x30, 0x0, 1, 0, 1, [⟨"BUSY", 7, 0, .ro, 0⟩, ⟨"DONE", 31, 16, .ro, 0⟩]⟩,
  ⟨"SCHED_LAST", 0x34, 0x0, 1, 0, 1, [⟨"SLOT", 2, 0, .ro, 0⟩, ⟨"STATUS", 15, 8, .ro, 0⟩, ⟨"SECONDS", 31, 16, .ro,
    0⟩]⟩,
  ⟨"SCHED_REFUSED", 0x38, 0x0, 1, 0, 1, [⟨"VAL", 31, 0, .ro, 0⟩]⟩,
  ⟨"MISSED", 0x3C, 0x0, 1, 0, 1, [⟨"VAL", 31, 0, .ro, 0⟩]⟩,
  ⟨"PULSE_CFG", 0x40, 0x10, 16, 0, 1, [⟨"EN", 0, 0, .rws, 0⟩, ⟨"PERIODIC", 1, 1, .rws, 0⟩, ⟨"POL", 2, 2, .rws, 0⟩,
    ⟨"LATE_FIRE", 3, 3, .rws, 0⟩, ⟨"TS", 9, 4, .rws, 0⟩, ⟨"GATE", 11, 10, .rws, 0⟩, ⟨"WUNIT", 14, 12, .rws, 0⟩,
    ⟨"WIDTH", 31, 16, .rws, 0⟩]⟩,
  ⟨"PULSE_START_LO", 0x44, 0x10, 16, 0, 2, [⟨"START", 31, 0, .rws, 0⟩]⟩,
  ⟨"PULSE_START_HI", 0x48, 0x10, 16, 1, 2, [⟨"START", 31, 0, .rws, 0⟩]⟩,
  ⟨"PULSE_PERIOD", 0x4C, 0x10, 16, 0, 1, [⟨"PERIOD", 31, 0, .rws, 0x3B9ACA00⟩]⟩,
  ⟨"CAP_CFG", 0x140, 0x8, 16, 0, 1, [⟨"EN", 0, 0, .rws, 0⟩, ⟨"EDGE", 2, 1, .rws, 0⟩, ⟨"RAW", 3, 3, .rws, 0⟩, ⟨"TS",
    9, 4, .rws, 0⟩, ⟨"RING", 19, 10, .rws, 0⟩, ⟨"TAG", 30, 20, .rws, 0⟩]⟩,
  ⟨"CAP_STAT", 0x144, 0x8, 16, 0, 1, [⟨"COUNT", 15, 0, .ro, 0⟩, ⟨"DEAD", 23, 16, .ro, 0⟩, ⟨"LOST", 31, 24, .ro, 0⟩]⟩]

/-- The EVT registers (13_pulses_and_captures.md). -/
def rows : List RegSpec := rows0

end EVT

namespace VID

def CTRL : Nat := 0xB0000
def CTRL_MUTE_FREE : Fld := ⟨CTRL, 0, 1⟩
def STICKY : Nat := 0xB0008
def STICKY_GL_LOCK : Fld := ⟨STICKY, 1, 1⟩
def STICKY_GL_UNLOCK : Fld := ⟨STICKY, 2, 1⟩
def STICKY_GL_FORMAT : Fld := ⟨STICKY, 3, 1⟩
def STICKY_RESTART : Fld := ⟨STICKY, 4, 1⟩
def STICKY_LTC_LEAP : Fld := ⟨STICKY, 5, 1⟩
def STICKY_SEQ_FAULT : Fld := ⟨STICKY, 6, 1⟩
def STICKY_MUTED : Fld := ⟨STICKY, 7, 1⟩
def STAT : Nat := 0xB0010
def STAT_GL_LOCKED : Fld := ⟨STAT, 8, 1⟩
def STAT_MUTED : Fld := ⟨STAT, 9, 1⟩
def GL_CFG : Nat := 0xB0014
def GL_CFG_EN : Fld := ⟨GL_CFG, 0, 1⟩
def GL_CFG_FORMAT : Fld := ⟨GL_CFG, 1, 4⟩
def GL_STAT : Nat := 0xB0018
def GL_STAT_LOCKED : Fld := ⟨GL_STAT, 0, 1⟩
def GL_STAT_LINES : Fld := ⟨GL_STAT, 8, 11⟩
def GL_STAT_GOOD : Fld := ⟨GL_STAT, 24, 8⟩
def GL_DELAY : Nat := 0xB001C
def GL_PHASE : Nat := 0xB0020
def GL_LEVEL : Nat := 0xB0024
def GL_LEVEL_SYNC_MV : Fld := ⟨GL_LEVEL, 0, 12⟩
def GL_LEVEL_BURST_MV : Fld := ⟨GL_LEVEL, 16, 12⟩
def SEQ_STAT : Nat := 0xB0028
def SEQ_STAT_FAULT1 : Fld := ⟨SEQ_STAT, 17, 1⟩
def GL_FRAMES : Nat := 0xB002C
def GL_UNLOCKS : Nat := 0xB0030
def RESTARTS : Nat := 0xB0034
def DAC_CAL : Nat := 0xB0038
def LAST_COMMIT : Nat := 0xB003C
def OUT_CFG (n : Nat) : Nat := 0xB0040 + 0x10 * n
def OUT_CFG_EN (n : Nat) : Fld := ⟨OUT_CFG n, 0, 1⟩
def OUT_CFG_FORMAT (n : Nat) : Fld := ⟨OUT_CFG n, 1, 4⟩
def OUT_CFG_CUT (n : Nat) : Fld := ⟨OUT_CFG n, 5, 1⟩
def OUT_DELAY (n : Nat) : Nat := 0xB0044 + 0x10 * n
def OUT_STAT (n : Nat) : Nat := 0xB004C + 0x10 * n
def OUT_STAT_MUTED (n : Nat) : Fld := ⟨OUT_STAT n, 3, 1⟩
def OUT_STAT_RESTARTS (n : Nat) : Fld := ⟨OUT_STAT n, 16, 16⟩
def LTC_CFG (n : Nat) : Nat := 0xB0080 + 0x10 * n
def LTC_CFG_EN (n : Nat) : Fld := ⟨LTC_CFG n, 0, 1⟩
def LTC_CFG_RATE (n : Nat) : Fld := ⟨LTC_CFG n, 1, 3⟩
def LTC_CFG_UTC (n : Nat) : Fld := ⟨LTC_CFG n, 4, 1⟩
def LTC_CFG_TS (n : Nat) : Fld := ⟨LTC_CFG n, 5, 6⟩
def LTC_CFG_ZONE (n : Nat) : Fld := ⟨LTC_CFG n, 16, 8⟩
def LTC_DELAY (n : Nat) : Nat := 0xB0084 + 0x10 * n
def LTC_UBITS (n : Nat) : Nat := 0xB0088 + 0x10 * n
def LTC_STAT (n : Nat) : Nat := 0xB008C + 0x10 * n
def WC_CFG (n : Nat) : Nat := 0xB00A0 + 0x10 * n
def WC_CFG_EN (n : Nat) : Fld := ⟨WC_CFG n, 0, 1⟩
def WC_CFG_RATE (n : Nat) : Fld := ⟨WC_CFG n, 1, 2⟩
def WC_CFG_PULLDOWN (n : Nat) : Fld := ⟨WC_CFG n, 3, 1⟩
def WC_DELAY (n : Nat) : Nat := 0xB00A4 + 0x10 * n
def WC_STAT (n : Nat) : Nat := 0xB00A8 + 0x10 * n
def WC_EDGES (n : Nat) : Nat := 0xB00AC + 0x10 * n
def POS_CTRL : Nat := 0xB00C0
def POS_CTRL_FORMAT : Fld := ⟨POS_CTRL, 0, 4⟩
def POS_CTRL_COUNT : Fld := ⟨POS_CTRL, 16, 16⟩
def POS_FRAME_LO : Nat := 0xB00C4
def POS_FRAME_HI : Nat := 0xB00C8
def POS_LINE : Nat := 0xB00CC
def POS_LINE_LINE : Fld := ⟨POS_LINE, 0, 11⟩
def POS_FRAC : Nat := 0xB00D0
def POS_TIME_LO : Nat := 0xB00D4

def rows0 : List RegSpec := [
  ⟨"CTRL", 0x0, 0x0, 1, 0, 1, [⟨"MUTE_FREE", 0, 0, .rws, 0⟩]⟩,
  ⟨"COMMIT", 0x4, 0x0, 1, 0, 1, [⟨"GO", 0, 0, .w1s, 0⟩, ⟨"VIEW", 1, 1, .rw, 0⟩, ⟨"PENDING", 2, 2, .ro, 0⟩,
    ⟨"DISCARD", 3, 3, .w1s, 0⟩, ⟨"REFUSED", 4, 4, .w1c, 0⟩, ⟨"COUNT", 31, 16, .ro, 0⟩]⟩,
  ⟨"STICKY", 0x8, 0x0, 1, 0, 1, [⟨"CFG_REFUSED", 0, 0, .w1c, 0⟩, ⟨"GL_LOCK", 1, 1, .w1c, 0⟩, ⟨"GL_UNLOCK", 2, 2,
    .w1c, 0⟩, ⟨"GL_FORMAT", 3, 3, .w1c, 0⟩, ⟨"RESTART", 4, 4, .w1c, 0⟩, ⟨"LTC_LEAP", 5, 5, .w1c, 0⟩, ⟨"SEQ_FAULT",
    6, 6, .w1c, 0⟩, ⟨"MUTED", 7, 7, .w1c, 0⟩]⟩,
  ⟨"INT_EN", 0xC, 0x0, 1, 0, 1, [⟨"EN", 7, 0, .rw, 0x4D⟩]⟩,
  ⟨"STAT", 0x10, 0x0, 1, 0, 1, [⟨"DAC_RUN", 3, 0, .ro, 0⟩, ⟨"LTC_RUN", 5, 4, .ro, 0⟩, ⟨"WC_RUN", 7, 6, .ro, 0⟩,
    ⟨"GL_LOCKED", 8, 8, .ro, 0⟩, ⟨"MUTED", 9, 9, .ro, 0⟩]⟩,
  ⟨"GL_CFG", 0x14, 0x0, 1, 0, 1, [⟨"EN", 0, 0, .rws, 0⟩, ⟨"FORMAT", 4, 1, .rws, 0⟩]⟩,
  ⟨"GL_STAT", 0x18, 0x0, 1, 0, 1, [⟨"LOCKED", 0, 0, .ro, 0⟩, ⟨"LINES", 18, 8, .ro, 0⟩, ⟨"GOOD", 31, 24, .ro, 0⟩]⟩,
  ⟨"GL_DELAY", 0x1C, 0x0, 1, 0, 1, [⟨"VAL", 31, 0, .rws, 0⟩]⟩,
  ⟨"GL_PHASE", 0x20, 0x0, 1, 0, 1, [⟨"VAL", 31, 0, .ro, 0⟩]⟩,
  ⟨"GL_LEVEL", 0x24, 0x0, 1, 0, 1, [⟨"SYNC_MV", 11, 0, .ro, 0⟩, ⟨"BURST_MV", 27, 16, .ro, 0⟩]⟩,
  ⟨"SEQ_STAT", 0x28, 0x0, 1, 0, 1, [⟨"HB0", 7, 0, .ro, 0⟩, ⟨"HB1", 15, 8, .ro, 0⟩, ⟨"FAULT0", 16, 16, .ro, 0⟩,
    ⟨"FAULT1", 17, 17, .ro, 0⟩]⟩,
  ⟨"GL_FRAMES", 0x2C, 0x0, 1, 0, 1, [⟨"VAL", 31, 0, .ro, 0⟩]⟩,
  ⟨"GL_UNLOCKS", 0x30, 0x0, 1, 0, 1, [⟨"VAL", 31, 0, .ro, 0⟩]⟩,
  ⟨"RESTARTS", 0x34, 0x0, 1, 0, 1, [⟨"VAL", 31, 0, .ro, 0⟩]⟩,
  ⟨"DAC_CAL", 0x38, 0x0, 1, 0, 1, [⟨"VAL", 31, 0, .ro, 0⟩]⟩,
  ⟨"LAST_COMMIT", 0x3C, 0x0, 1, 0, 1, [⟨"VAL", 31, 0, .ro, 0⟩]⟩,
  ⟨"OUT_CFG", 0x40, 0x10, 4, 0, 1, [⟨"EN", 0, 0, .rws, 0⟩, ⟨"FORMAT", 4, 1, .rws, 0⟩, ⟨"CUT", 5, 5, .rws, 0⟩]⟩,
  ⟨"OUT_DELAY", 0x44, 0x10, 4, 0, 1, [⟨"VAL", 31, 0, .rws, 0⟩]⟩,
  ⟨"OUT_LEVEL", 0x48, 0x10, 4, 0, 1, [⟨"GAIN", 9, 0, .rws, 0⟩, ⟨"OFFSET", 25, 16, .rws, 0⟩]⟩,
  ⟨"OUT_STAT", 0x4C, 0x10, 4, 0, 1, [⟨"RUNNING", 0, 0, .ro, 0⟩, ⟨"WAITING", 1, 1, .ro, 0⟩, ⟨"WALKING", 2, 2, .ro,
    0⟩, ⟨"MUTED", 3, 3, .ro, 0⟩, ⟨"RESTARTS", 31, 16, .ro, 0⟩]⟩,
  ⟨"LTC_CFG", 0x80, 0x10, 2, 0, 1, [⟨"EN", 0, 0, .rws, 0⟩, ⟨"RATE", 3, 1, .rws, 1⟩, ⟨"UTC", 4, 4, .rws, 1⟩, ⟨"TS",
    10, 5, .rws, 0⟩, ⟨"ZONE", 23, 16, .rws, 0⟩]⟩,
  ⟨"LTC_DELAY", 0x84, 0x10, 2, 0, 1, [⟨"VAL", 31, 0, .rws, 0⟩]⟩,
  ⟨"LTC_UBITS", 0x88, 0x10, 2, 0, 1, [⟨"VAL", 31, 0, .rw, 0⟩]⟩,
  ⟨"LTC_STAT", 0x8C, 0x10, 2, 0, 1, [⟨"FF", 7, 0, .ro, 0⟩, ⟨"SS", 15, 8, .ro, 0⟩, ⟨"MM", 23, 16, .ro, 0⟩, ⟨"HH",
    31, 24, .ro, 0⟩]⟩]

def rows1 : List RegSpec := [
  ⟨"WC_CFG", 0xA0, 0x10, 2, 0, 1, [⟨"EN", 0, 0, .rws, 0⟩, ⟨"RATE", 2, 1, .rws, 1⟩, ⟨"PULLDOWN", 3, 3, .rws, 0⟩]⟩,
  ⟨"WC_DELAY", 0xA4, 0x10, 2, 0, 1, [⟨"VAL", 31, 0, .rws, 0⟩]⟩,
  ⟨"WC_STAT", 0xA8, 0x10, 2, 0, 1, [⟨"RUNNING", 0, 0, .ro, 0⟩, ⟨"WAITING", 1, 1, .ro, 0⟩, ⟨"WALKING", 2, 2, .ro,
    0⟩, ⟨"MUTED", 3, 3, .ro, 0⟩, ⟨"RESTARTS", 31, 16, .ro, 0⟩]⟩,
  ⟨"WC_EDGES", 0xAC, 0x10, 2, 0, 1, [⟨"VAL", 31, 0, .ro, 0⟩]⟩,
  ⟨"POS_CTRL", 0xC0, 0x0, 1, 0, 1, [⟨"FORMAT", 3, 0, .rw, 0⟩, ⟨"GO", 8, 8, .w1s, 0⟩, ⟨"COUNT", 31, 16, .ro, 0⟩]⟩,
  ⟨"POS_FRAME_LO", 0xC4, 0x0, 1, 0, 2, [⟨"VAL", 31, 0, .ro, 0⟩]⟩,
  ⟨"POS_FRAME_HI", 0xC8, 0x0, 1, 1, 2, [⟨"VAL", 15, 0, .ro, 0⟩]⟩,
  ⟨"POS_LINE", 0xCC, 0x0, 1, 0, 1, [⟨"LINE", 10, 0, .ro, 0⟩, ⟨"SEQ", 19, 16, .ro, 0⟩]⟩,
  ⟨"POS_FRAC", 0xD0, 0x0, 1, 0, 1, [⟨"VAL", 31, 0, .ro, 0⟩]⟩,
  ⟨"POS_TIME_LO", 0xD4, 0x0, 1, 0, 3, [⟨"VAL", 31, 0, .ro, 0⟩]⟩,
  ⟨"POS_TIME_MID", 0xD8, 0x0, 1, 1, 3, [⟨"VAL", 31, 0, .ro, 0⟩]⟩,
  ⟨"POS_TIME_HI", 0xDC, 0x0, 1, 2, 3, [⟨"VAL", 31, 0, .ro, 0⟩]⟩]

/-- The VID registers (14_video_and_audio_reference.md). -/
def rows : List RegSpec := rows0 ++ rows1

end VID

end Sys2Proof.Machine
end

