-- ==== Sys2Proof/Machine/RegsTime.lean ====
section
/-! DEFINITION. The register tables of the manual for the timing blocks: GLB, FAB, TSC, REF, DSC,
    CKO and GRT. Each block has
its registers as rows (offset, stride, count, and every field with its bits, access and after-reset
value; the bits no field names are RSVD, R9), and the addresses and fields the meanings use as names. An
after-reset value that the manual does not give as one number stands as 0 here and is set in
Machine/RegReset.lean. -/

namespace Sys2Proof.Machine

namespace GLB

def ID : Nat := 0x0
def FEATURES : Nat := 0x4
def MODE : Nat := 0x8
def MODE_CURRENT : Fld := ⟨MODE, 0, 4⟩
def MODE_PREVIOUS : Fld := ⟨MODE, 4, 4⟩
def MODE_LOG_NEXT : Fld := ⟨MODE, 8, 4⟩
def MODE_CHANGES : Fld := ⟨MODE, 16, 16⟩
def MODE_REQ : Nat := 0xC
def MODE_STAT : Nat := 0x10
def MODE_STAT_PENDING : Fld := ⟨MODE_STAT, 0, 1⟩
def MODE_STAT_STATUS : Fld := ⟨MODE_STAT, 8, 8⟩
def MODE_STAT_BLOCK : Fld := ⟨MODE_STAT, 16, 5⟩
def STICKY : Nat := 0x14
def STICKY_CFG_REFUSED : Fld := ⟨STICKY, 0, 1⟩
def STICKY_MODE_CHANGE : Fld := ⟨STICKY, 1, 1⟩
def STICKY_MODE_DONE : Fld := ⟨STICKY, 2, 1⟩
def STICKY_TAMPER : Fld := ⟨STICKY, 3, 1⟩
def STICKY_IMAGE_FAIL : Fld := ⟨STICKY, 4, 1⟩
def STICKY_CORE_FAIL : Fld := ⟨STICKY, 5, 1⟩
def STICKY_LO_FALLBACK : Fld := ⟨STICKY, 6, 1⟩
def BOOT_STAT : Nat := 0x1C
def BOOT_STAT_STAGE : Fld := ⟨BOOT_STAT, 0, 4⟩
def BOOT_STAT_DONE : Fld := ⟨BOOT_STAT, 4, 1⟩
def BOOT_STAT_FATAL : Fld := ⟨BOOT_STAT, 5, 1⟩
def BOOT_STAT_GOLDEN : Fld := ⟨BOOT_STAT, 6, 1⟩
def BOOT_STAT_FAIL_KIND : Fld := ⟨BOOT_STAT, 8, 4⟩
def BOOT_STAT_FAIL_CODE : Fld := ⟨BOOT_STAT, 16, 8⟩
def RESET_CAUSE : Nat := 0x20
def RESET_CAUSE_WARM : Fld := ⟨RESET_CAUSE, 1, 1⟩
def RESET_CAUSE_PERST : Fld := ⟨RESET_CAUSE, 2, 1⟩
def RESET_CTRL : Nat := 0x24
def POLICY : Nat := 0x28
def POLICY_LOCKDOWN_SERVE : Fld := ⟨POLICY, 0, 1⟩
def POLICY_TAMPER_EN : Fld := ⟨POLICY, 1, 4⟩
def POLICY_TAMPER_POL : Fld := ⟨POLICY, 5, 4⟩
def POLICY_TWIN_REQ : Fld := ⟨POLICY, 9, 1⟩
def MAINT_SET : Nat := 0x2C
def MAINT_SET_TARGETS : Fld := ⟨MAINT_SET, 0, 25⟩
def SERIAL (n : Nat) : Nat := 0x30 + 0x4 * n
def IMAGE_STAT (n : Nat) : Nat := 0x40 + 0x4 * n
def IMAGE_STAT_VERSION (n : Nat) : Fld := ⟨IMAGE_STAT n, 0, 16⟩
def IMAGE_STAT_SLOT (n : Nat) : Fld := ⟨IMAGE_STAT n, 16, 2⟩
def MODE_LOG (n : Nat) : Nat := 0x80 + 0x4 * n

def rows0 : List RegSpec := [
  ⟨"ID", 0x0, 0x0, 1, 0, 1, [⟨"DEVICE", 15, 0, .ro, 0⟩, ⟨"FAMILY", 23, 16, .ro, 1⟩, ⟨"STEPPING", 31, 24, .ro, 0⟩]⟩,
  ⟨"FEATURES", 0x4, 0x0, 1, 0, 1, [⟨"LANES", 5, 0, .ro, 0⟩, ⟨"QUADS", 10, 8, .ro, 0⟩, ⟨"PIPES", 20, 16, .ro, 0⟩]⟩,
  ⟨"MODE", 0x8, 0x0, 1, 0, 1, [⟨"CURRENT", 3, 0, .ro, 0⟩, ⟨"PREVIOUS", 7, 4, .ro, 0⟩, ⟨"LOG_NEXT", 11, 8, .ro, 0⟩,
    ⟨"CHANGES", 31, 16, .ro, 0⟩]⟩,
  ⟨"MODE_REQ", 0xC, 0x0, 1, 0, 1, [⟨"TARGET", 3, 0, .rw, 0⟩, ⟨"BLOCK", 12, 8, .rw, 0⟩, ⟨"RELEASE", 13, 13, .rw, 0⟩,
    ⟨"GO", 31, 31, .w1s, 0⟩]⟩,
  ⟨"MODE_STAT", 0x10, 0x0, 1, 0, 1, [⟨"PENDING", 0, 0, .ro, 0⟩, ⟨"STATUS", 15, 8, .ro, 0⟩, ⟨"BLOCK", 20, 16, .ro,
    0⟩]⟩,
  ⟨"STICKY", 0x14, 0x0, 1, 0, 1, [⟨"CFG_REFUSED", 0, 0, .w1c, 0⟩, ⟨"MODE_CHANGE", 1, 1, .w1c, 0⟩, ⟨"MODE_DONE", 2,
    2, .w1c, 0⟩, ⟨"TAMPER", 3, 3, .w1c, 0⟩, ⟨"IMAGE_FAIL", 4, 4, .w1c, 0⟩, ⟨"CORE_FAIL", 5, 5, .w1c, 0⟩,
    ⟨"LO_FALLBACK", 6, 6, .w1c, 0⟩]⟩,
  ⟨"INT_EN", 0x18, 0x0, 1, 0, 1, [⟨"EN", 6, 0, .rw, 0x7E⟩]⟩,
  ⟨"BOOT_STAT", 0x1C, 0x0, 1, 0, 1, [⟨"STAGE", 3, 0, .ro, 0⟩, ⟨"DONE", 4, 4, .ro, 0⟩, ⟨"FATAL", 5, 5, .ro, 0⟩,
    ⟨"GOLDEN", 6, 6, .ro, 0⟩, ⟨"FAIL_KIND", 11, 8, .ro, 0⟩, ⟨"FAIL_CODE", 23, 16, .ro, 0⟩]⟩,
  ⟨"RESET_CAUSE", 0x20, 0x0, 1, 0, 1, [⟨"POR", 0, 0, .w1c, 1⟩, ⟨"WARM", 1, 1, .w1c, 0⟩, ⟨"PERST", 2, 2, .w1c, 0⟩]⟩,
  ⟨"RESET_CTRL", 0x24, 0x0, 1, 0, 1, [⟨"KEY", 7, 0, .wo, 0⟩, ⟨"WARM", 8, 8, .wo, 0⟩, ⟨"SKIP_BIST", 9, 9, .wo, 0⟩]⟩,
  ⟨"POLICY", 0x28, 0x0, 1, 0, 1, [⟨"LOCKDOWN_SERVE", 0, 0, .rw, 0⟩, ⟨"TAMPER_EN", 4, 1, .rw, 0⟩, ⟨"TAMPER_POL", 8,
    5, .rw, 0⟩, ⟨"TWIN_REQ", 9, 9, .rw, 0⟩]⟩,
  ⟨"MAINT_SET", 0x2C, 0x0, 1, 0, 1, [⟨"TARGETS", 24, 0, .ro, 0⟩]⟩,
  ⟨"SERIAL", 0x30, 0x4, 4, 0, 1, [⟨"VALUE", 31, 0, .ro, 0⟩]⟩,
  ⟨"IMAGE_STAT", 0x40, 0x4, 16, 0, 1, [⟨"VERSION", 15, 0, .ro, 0⟩, ⟨"SLOT", 17, 16, .ro, 0⟩, ⟨"A_BAD", 18, 18, .ro,
    0⟩, ⟨"B_BAD", 19, 19, .ro, 0⟩, ⟨"GOLD_BAD", 20, 20, .ro, 0⟩]⟩,
  ⟨"MODE_LOG", 0x80, 0x4, 16, 0, 1, [⟨"FROM", 3, 0, .ro, 0⟩, ⟨"TO", 7, 4, .ro, 0⟩, ⟨"CAUSE", 12, 8, .ro, 0⟩,
    ⟨"SECONDS", 31, 16, .ro, 0⟩]⟩]

/-- The GLB registers (02_modes_and_boot.md). -/
def rows : List RegSpec := rows0

end GLB

namespace FAB

def CTRL : Nat := 0x10000
def CTRL_REINIT_ON_FAULT : Fld := ⟨CTRL, 0, 1⟩
def CTRL_SAMPLE_EN : Fld := ⟨CTRL, 1, 1⟩
def CTRL_SAMPLE_RING : Fld := ⟨CTRL, 16, 10⟩
def STICKY : Nat := 0x10004
def STICKY_CFG_REFUSED : Fld := ⟨STICKY, 0, 1⟩
def STICKY_DENIED : Fld := ⟨STICKY, 1, 1⟩
def STICKY_LEDGER_FAULT : Fld := ⟨STICKY, 2, 1⟩
def STICKY_AUDIT_DONE : Fld := ⟨STICKY, 3, 1⟩
def STICKY_SUMP_HALF : Fld := ⟨STICKY, 4, 1⟩
def STICKY_UNUSABLE : Fld := ⟨STICKY, 5, 1⟩
def STICKY_SAMPLE_LOST : Fld := ⟨STICKY, 6, 1⟩
def ACL_SEL : Nat := 0x10010
def ACL_SEL_TARGET : Fld := ⟨ACL_SEL, 0, 5⟩
def ACL_SEL_WINDOW : Fld := ⟨ACL_SEL, 8, 4⟩
def ACL_SEL_MASTER : Fld := ⟨ACL_SEL, 16, 7⟩
def ACL_BASE : Nat := 0x10014
def ACL_LIMIT : Nat := 0x10018
def ACL_RIGHTS : Nat := 0x1001C
def DENY_COUNT : Nat := 0x10020
def DENY_LAST : Nat := 0x10024
def QUEUE_SEL : Nat := 0x10028
def QUEUE_SEL_QUEUE : Fld := ⟨QUEUE_SEL, 0, 8⟩
def QUEUE_STAT : Nat := 0x1002C
def LEDGER_CTRL : Nat := 0x10030
def LEDGER_CTRL_AUDITING : Fld := ⟨LEDGER_CTRL, 1, 1⟩
def LEDGER_CTRL_AUTO_PERIOD : Fld := ⟨LEDGER_CTRL, 8, 4⟩
def LEDGER_CTRL_AUDIT_COUNT : Fld := ⟨LEDGER_CTRL, 16, 16⟩
def LEDGER_SEL : Nat := 0x10034
def LEDGER_FAULT : Nat := 0x10038
def LEDGER_FAULT_KIND : Fld := ⟨LEDGER_FAULT, 0, 3⟩
def LEDGER_FAULT_VALID : Fld := ⟨LEDGER_FAULT, 4, 1⟩
def LEDGER_FAULT_FAILS : Fld := ⟨LEDGER_FAULT, 8, 8⟩
def LEDGER_FAULT_INSTANCE : Fld := ⟨LEDGER_FAULT, 16, 10⟩
def LG_ISSUED_LO : Nat := 0x1003C
def LG_ISSUED_HI : Nat := 0x10040
def LG_RETURNED_LO : Nat := 0x10044
def LG_RETURNED_HI : Nat := 0x10048
def LG_HELD_LO : Nat := 0x1004C
def LG_HELD_HI : Nat := 0x10050
def RB_RECEIVED_LO : Nat := 0x10054
def RB_RECEIVED_HI : Nat := 0x10058
def RB_ANSWERED_LO : Nat := 0x1005C
def RB_ANSWERED_HI : Nat := 0x10060
def RB_CANCEL_DROP_LO : Nat := 0x10064
def RB_CANCEL_DROP_HI : Nat := 0x10068
def RB_TO_HOST_LO : Nat := 0x1006C
def RB_TO_HOST_HI : Nat := 0x10070
def RB_SUMPED_LO : Nat := 0x10074
def RB_SUMPED_HI : Nat := 0x10078
def RB_INFLIGHT : Nat := 0x1007C
def SUMP_CNT_LO (n : Nat) : Nat := 0x10100 + 0x8 * n
def SUMP_CNT_HI (n : Nat) : Nat := 0x10104 + 0x8 * n
def SUMP_CNT_HI_COUNT (n : Nat) : Fld := ⟨SUMP_CNT_HI n, 0, 16⟩
def SUMP_CNT_HI_SAMPLE (n : Nat) : Fld := ⟨SUMP_CNT_HI n, 31, 1⟩

def rows0 : List RegSpec := [
  ⟨"CTRL", 0x0, 0x0, 1, 0, 1, [⟨"REINIT_ON_FAULT", 0, 0, .rw, 1⟩, ⟨"SAMPLE_EN", 1, 1, .rw, 0⟩, ⟨"SAMPLE_RING", 25,
    16, .rw, 0⟩]⟩,
  ⟨"STICKY", 0x4, 0x0, 1, 0, 1, [⟨"CFG_REFUSED", 0, 0, .w1c, 0⟩, ⟨"DENIED", 1, 1, .w1c, 0⟩, ⟨"LEDGER_FAULT", 2, 2,
    .w1c, 0⟩, ⟨"AUDIT_DONE", 3, 3, .w1c, 0⟩, ⟨"SUMP_HALF", 4, 4, .w1c, 0⟩, ⟨"UNUSABLE", 5, 5, .w1c, 0⟩,
    ⟨"SAMPLE_LOST", 6, 6, .w1c, 0⟩]⟩,
  ⟨"INT_EN", 0x8, 0x0, 1, 0, 1, [⟨"EN", 6, 0, .rw, 0x36⟩]⟩,
  ⟨"COMMIT", 0xC, 0x0, 1, 0, 1, [⟨"GO", 0, 0, .w1s, 0⟩, ⟨"VIEW", 1, 1, .rw, 0⟩, ⟨"PENDING", 2, 2, .ro, 0⟩,
    ⟨"DISCARD", 3, 3, .w1s, 0⟩, ⟨"REFUSED", 4, 4, .w1c, 0⟩, ⟨"COUNT", 31, 16, .ro, 0⟩]⟩,
  ⟨"ACL_SEL", 0x10, 0x0, 1, 0, 1, [⟨"TARGET", 4, 0, .rw, 0⟩, ⟨"WINDOW", 11, 8, .rw, 0⟩, ⟨"MASTER", 22, 16, .rw, 0⟩]⟩,
  ⟨"ACL_BASE", 0x14, 0x0, 1, 0, 1, [⟨"PAGE", 19, 0, .rws, 0⟩]⟩,
  ⟨"ACL_LIMIT", 0x18, 0x0, 1, 0, 1, [⟨"PAGE", 19, 0, .rws, 0⟩]⟩,
  ⟨"ACL_RIGHTS", 0x1C, 0x0, 1, 0, 1, [⟨"R", 0, 0, .rws, 0⟩, ⟨"W", 1, 1, .rws, 0⟩, ⟨"X", 2, 2, .rws, 0⟩, ⟨"USE_KEY",
    3, 3, .rws, 0⟩]⟩,
  ⟨"DENY_COUNT", 0x20, 0x0, 1, 0, 1, [⟨"COUNT", 31, 0, .ro, 0⟩]⟩,
  ⟨"DENY_LAST", 0x24, 0x0, 1, 0, 1, [⟨"MASTER", 6, 0, .ro, 0⟩, ⟨"TARGET", 12, 8, .ro, 0⟩, ⟨"KIND", 17, 16, .ro, 0⟩,
    ⟨"SECRET", 18, 18, .ro, 0⟩]⟩,
  ⟨"QUEUE_SEL", 0x28, 0x0, 1, 0, 1, [⟨"QUEUE", 7, 0, .rw, 0⟩]⟩,
  ⟨"QUEUE_STAT", 0x2C, 0x0, 1, 0, 1, [⟨"OCCUPIED", 12, 0, .ro, 0⟩, ⟨"HIGH_WATER", 28, 16, .ro, 0⟩, ⟨"HW_RESET", 31,
    31, .w1s, 0⟩]⟩,
  ⟨"LEDGER_CTRL", 0x30, 0x0, 1, 0, 1, [⟨"AUDIT", 0, 0, .w1s, 0⟩, ⟨"AUDITING", 1, 1, .ro, 0⟩, ⟨"AUTO_PERIOD", 11, 8,
    .rw, 1⟩, ⟨"AUDIT_COUNT", 31, 16, .ro, 0⟩]⟩,
  ⟨"LEDGER_SEL", 0x34, 0x0, 1, 0, 1, [⟨"KIND", 2, 0, .rw, 0⟩, ⟨"INSTANCE", 25, 16, .rw, 0⟩]⟩,
  ⟨"LEDGER_FAULT", 0x38, 0x0, 1, 0, 1, [⟨"KIND", 2, 0, .ro, 0⟩, ⟨"VALID", 4, 4, .ro, 0⟩, ⟨"FAILS", 15, 8, .ro, 0⟩,
    ⟨"INSTANCE", 25, 16, .ro, 0⟩]⟩,
  ⟨"LG_ISSUED_LO", 0x3C, 0x0, 1, 0, 2, [⟨"VAL", 31, 0, .ro, 0⟩]⟩,
  ⟨"LG_ISSUED_HI", 0x40, 0x0, 1, 1, 2, [⟨"VAL", 15, 0, .ro, 0⟩]⟩,
  ⟨"LG_RETURNED_LO", 0x44, 0x0, 1, 0, 2, [⟨"VAL", 31, 0, .ro, 0⟩]⟩,
  ⟨"LG_RETURNED_HI", 0x48, 0x0, 1, 1, 2, [⟨"VAL", 15, 0, .ro, 0⟩]⟩,
  ⟨"LG_HELD_LO", 0x4C, 0x0, 1, 0, 2, [⟨"VAL", 31, 0, .ro, 0⟩]⟩,
  ⟨"LG_HELD_HI", 0x50, 0x0, 1, 1, 2, [⟨"VAL", 15, 0, .ro, 0⟩]⟩,
  ⟨"RB_RECEIVED_LO", 0x54, 0x0, 1, 0, 2, [⟨"VAL", 31, 0, .ro, 0⟩]⟩,
  ⟨"RB_RECEIVED_HI", 0x58, 0x0, 1, 1, 2, [⟨"VAL", 15, 0, .ro, 0⟩]⟩,
  ⟨"RB_ANSWERED_LO", 0x5C, 0x0, 1, 0, 2, [⟨"VAL", 31, 0, .ro, 0⟩]⟩]

def rows1 : List RegSpec := [
  ⟨"RB_ANSWERED_HI", 0x60, 0x0, 1, 1, 2, [⟨"VAL", 15, 0, .ro, 0⟩]⟩,
  ⟨"RB_CANCEL_DROP_LO", 0x64, 0x0, 1, 0, 2, [⟨"VAL", 31, 0, .ro, 0⟩]⟩,
  ⟨"RB_CANCEL_DROP_HI", 0x68, 0x0, 1, 1, 2, [⟨"VAL", 15, 0, .ro, 0⟩]⟩,
  ⟨"RB_TO_HOST_LO", 0x6C, 0x0, 1, 0, 2, [⟨"VAL", 31, 0, .ro, 0⟩]⟩,
  ⟨"RB_TO_HOST_HI", 0x70, 0x0, 1, 1, 2, [⟨"VAL", 15, 0, .ro, 0⟩]⟩,
  ⟨"RB_SUMPED_LO", 0x74, 0x0, 1, 0, 2, [⟨"VAL", 31, 0, .ro, 0⟩]⟩,
  ⟨"RB_SUMPED_HI", 0x78, 0x0, 1, 1, 2, [⟨"VAL", 15, 0, .ro, 0⟩]⟩,
  ⟨"RB_INFLIGHT", 0x7C, 0x0, 1, 0, 1, [⟨"COUNT", 31, 0, .ro, 0⟩]⟩,
  ⟨"SUMP_CNT_LO", 0x100, 0x8, 32, 0, 2, [⟨"COUNT", 31, 0, .ro, 0⟩]⟩,
  ⟨"SUMP_CNT_HI", 0x104, 0x8, 32, 1, 2, [⟨"COUNT", 15, 0, .ro, 0⟩, ⟨"SAMPLE", 31, 31, .rw, 0⟩]⟩]

/-- The FAB registers (01_architecture.md). -/
def rows : List RegSpec := rows0 ++ rows1

end FAB

namespace TSC

def CTRL (n : Nat) : Nat := 0x20000 + 0x20 * n
def CTRL_FOLLOW (n : Nat) : Fld := ⟨CTRL n, 0, 1⟩
def CTRL_KIND (n : Nat) : Fld := ⟨CTRL n, 1, 2⟩
def CTRL_SMEAR_PROF (n : Nat) : Fld := ⟨CTRL n, 3, 2⟩
def CTRL_LOAD_TARGET (n : Nat) : Fld := ⟨CTRL n, 5, 1⟩
def STATUS (n : Nat) : Nat := 0x20004 + 0x20 * n
def STATUS_SLEWING (n : Nat) : Fld := ⟨STATUS n, 0, 1⟩
def STATUS_FROZEN (n : Nat) : Fld := ⟨STATUS n, 1, 1⟩
def STATUS_SMEARING (n : Nat) : Fld := ⟨STATUS n, 2, 1⟩
def STATUS_RE_ANCHORS (n : Nat) : Fld := ⟨STATUS n, 16, 16⟩
def RATE_LO (n : Nat) : Nat := 0x20008 + 0x20 * n
def RATE_HI (n : Nat) : Nat := 0x2000C + 0x20 * n
def TARGET_LO (n : Nat) : Nat := 0x20010 + 0x20 * n
def TARGET_HI (n : Nat) : Nat := 0x20014 + 0x20 * n
def SLEW_BOUND (n : Nat) : Nat := 0x20018 + 0x20 * n
def SLEW_BOUND_BOUND (n : Nat) : Fld := ⟨SLEW_BOUND n, 0, 31⟩
def REMAIN (n : Nat) : Nat := 0x2001C + 0x20 * n
def STICKY : Nat := 0x20804
def STICKY_LO_LOST : Fld := ⟨STICKY, 1, 1⟩
def STICKY_LO_SWITCH : Fld := ⟨STICKY, 2, 1⟩
def STICKY_PLL_HOLD : Fld := ⟨STICKY, 3, 1⟩
def STICKY_LO_FAIL : Fld := ⟨STICKY, 4, 1⟩
def STICKY_STEPPED : Fld := ⟨STICKY, 5, 1⟩
def STICKY_SMEAR_LATE : Fld := ⟨STICKY, 6, 1⟩
def STICKY_CMP_LATE : Fld := ⟨STICKY, 7, 1⟩
def STICKY_LEAP_DONE : Fld := ⟨STICKY, 8, 1⟩
def STICKY_SLEW_DONE : Fld := ⟨STICKY, 9, 1⟩
def RAW_LO : Nat := 0x2080C
def RAW_MID : Nat := 0x20810
def RAW_HI : Nat := 0x20814
def SNAP_CTRL : Nat := 0x20818
def SNAP_CTRL_TS : Fld := ⟨SNAP_CTRL, 0, 6⟩
def SNAP_CTRL_COUNT : Fld := ⟨SNAP_CTRL, 16, 16⟩
def SNAP_VAL_LO : Nat := 0x2081C
def SNAP_ANC_LO : Nat := 0x20828
def SNAP_BASE_LO : Nat := 0x20834
def STEP_CTRL : Nat := 0x20840
def STEP_CTRL_TS : Fld := ⟨STEP_CTRL, 0, 6⟩
def STEP_CTRL_MODE : Fld := ⟨STEP_CTRL, 8, 2⟩
def STEP_CTRL_ARM : Fld := ⟨STEP_CTRL, 16, 1⟩
def STEP_VAL_LO : Nat := 0x20844
def STEP_VAL_MID : Nat := 0x20848
def STEP_VAL_HI : Nat := 0x2084C
def LO_CTRL : Nat := 0x20850
def LO_CTRL_SEL : Fld := ⟨LO_CTRL, 0, 1⟩
def LO_CTRL_AUTO : Fld := ⟨LO_CTRL, 1, 1⟩
def LO_CTRL_XO_FREQ : Fld := ⟨LO_CTRL, 4, 3⟩
def LO_STAT : Nat := 0x20854
def LO_STAT_ACTIVE : Fld := ⟨LO_STAT, 0, 1⟩
def LO_STAT_XO_READY : Fld := ⟨LO_STAT, 1, 1⟩
def LO_STAT_GR_READY : Fld := ⟨LO_STAT, 2, 1⟩
def LO_STAT_PLL_LOCK : Fld := ⟨LO_STAT, 3, 1⟩
def LO_STAT_PLL_HOLD : Fld := ⟨LO_STAT, 4, 1⟩
def LO_STAT_SWITCHES : Fld := ⟨LO_STAT, 16, 16⟩
def LO_XDIFF : Nat := 0x20858
def LEAP_SEL : Nat := 0x2085C
def LEAP_SEL_ENTRY : Fld := ⟨LEAP_SEL, 0, 5⟩
def LEAP_SEC : Nat := 0x20860
def LEAP_OFS : Nat := 0x20864
def SMEAR_CFG (n : Nat) : Nat := 0x20868 + 0x4 * n
def SMEAR_CFG_LEAD (n : Nat) : Fld := ⟨SMEAR_CFG n, 0, 14⟩
def UTC_STAT : Nat := 0x20878
def UTC_STAT_LEAP_WARN : Fld := ⟨UTC_STAT, 16, 2⟩
def UTC_STAT_NEXT : Fld := ⟨UTC_STAT, 24, 5⟩
def CMP_LATE_COUNT : Nat := 0x2087C

def rows0 : List RegSpec := [
  ⟨"CTRL", 0x0, 0x20, 64, 0, 1, [⟨"FOLLOW", 0, 0, .rws, 0⟩, ⟨"KIND", 2, 1, .rws, 0⟩, ⟨"SMEAR_PROF", 4, 3, .rws, 0⟩,
    ⟨"LOAD_TARGET", 5, 5, .rws, 0⟩]⟩,
  ⟨"STATUS", 0x4, 0x20, 64, 0, 1, [⟨"SLEWING", 0, 0, .ro, 0⟩, ⟨"FROZEN", 1, 1, .ro, 0⟩, ⟨"SMEARING", 2, 2, .ro, 0⟩,
    ⟨"OWNER", 3, 3, .ro, 0⟩, ⟨"RE_ANCHORS", 31, 16, .ro, 0⟩]⟩,
  ⟨"RATE_LO", 0x8, 0x20, 64, 0, 2, [⟨"RATE", 31, 0, .rws, 0⟩]⟩,
  ⟨"RATE_HI", 0xC, 0x20, 64, 1, 2, [⟨"RATE", 31, 0, .rws, 0⟩]⟩,
  ⟨"TARGET_LO", 0x10, 0x20, 64, 0, 2, [⟨"TARGET", 31, 0, .rws, 0⟩]⟩,
  ⟨"TARGET_HI", 0x14, 0x20, 64, 1, 2, [⟨"TARGET", 31, 0, .rws, 0⟩]⟩,
  ⟨"SLEW_BOUND", 0x18, 0x20, 64, 0, 1, [⟨"BOUND", 30, 0, .rws, 0⟩]⟩,
  ⟨"REMAIN", 0x1C, 0x20, 64, 0, 1, [⟨"NS", 31, 0, .ro, 0⟩]⟩,
  ⟨"COMMIT", 0x800, 0x0, 1, 0, 1, [⟨"GO", 0, 0, .w1s, 0⟩, ⟨"VIEW", 1, 1, .rw, 0⟩, ⟨"PENDING", 2, 2, .ro, 0⟩,
    ⟨"DISCARD", 3, 3, .w1s, 0⟩, ⟨"REFUSED", 4, 4, .w1c, 0⟩, ⟨"COUNT", 31, 16, .ro, 0⟩]⟩,
  ⟨"STICKY", 0x804, 0x0, 1, 0, 1, [⟨"CFG_REFUSED", 0, 0, .w1c, 0⟩, ⟨"LO_LOST", 1, 1, .w1c, 0⟩, ⟨"LO_SWITCH", 2, 2,
    .w1c, 0⟩, ⟨"PLL_HOLD", 3, 3, .w1c, 0⟩, ⟨"LO_FAIL", 4, 4, .w1c, 0⟩, ⟨"STEPPED", 5, 5, .w1c, 0⟩, ⟨"SMEAR_LATE",
    6, 6, .w1c, 0⟩, ⟨"CMP_LATE", 7, 7, .w1c, 0⟩, ⟨"LEAP_DONE", 8, 8, .w1c, 0⟩, ⟨"SLEW_DONE", 9, 9, .w1c, 0⟩]⟩,
  ⟨"INT_EN", 0x808, 0x0, 1, 0, 1, [⟨"EN", 9, 0, .rw, 0x17F⟩]⟩,
  ⟨"RAW_LO", 0x80C, 0x0, 1, 0, 3, [⟨"VAL", 31, 0, .ro, 0⟩]⟩,
  ⟨"RAW_MID", 0x810, 0x0, 1, 1, 3, [⟨"VAL", 31, 0, .ro, 0⟩]⟩,
  ⟨"RAW_HI", 0x814, 0x0, 1, 2, 3, [⟨"VAL", 31, 0, .ro, 0⟩]⟩,
  ⟨"SNAP_CTRL", 0x818, 0x0, 1, 0, 1, [⟨"TS", 5, 0, .rw, 0⟩, ⟨"GO", 8, 8, .w1s, 0⟩, ⟨"COUNT", 31, 16, .ro, 0⟩]⟩,
  ⟨"SNAP_VAL_LO", 0x81C, 0x0, 1, 0, 3, [⟨"VAL", 31, 0, .ro, 0⟩]⟩,
  ⟨"SNAP_VAL_MID", 0x820, 0x0, 1, 1, 3, [⟨"VAL", 31, 0, .ro, 0⟩]⟩,
  ⟨"SNAP_VAL_HI", 0x824, 0x0, 1, 2, 3, [⟨"VAL", 31, 0, .ro, 0⟩]⟩,
  ⟨"SNAP_ANC_LO", 0x828, 0x0, 1, 0, 3, [⟨"VAL", 31, 0, .ro, 0⟩]⟩,
  ⟨"SNAP_ANC_MID", 0x82C, 0x0, 1, 1, 3, [⟨"VAL", 31, 0, .ro, 0⟩]⟩,
  ⟨"SNAP_ANC_HI", 0x830, 0x0, 1, 2, 3, [⟨"VAL", 31, 0, .ro, 0⟩]⟩,
  ⟨"SNAP_BASE_LO", 0x834, 0x0, 1, 0, 3, [⟨"VAL", 31, 0, .ro, 0⟩]⟩,
  ⟨"SNAP_BASE_MID", 0x838, 0x0, 1, 1, 3, [⟨"VAL", 31, 0, .ro, 0⟩]⟩,
  ⟨"SNAP_BASE_HI", 0x83C, 0x0, 1, 2, 3, [⟨"VAL", 31, 0, .ro, 0⟩]⟩]

def rows1 : List RegSpec := [
  ⟨"STEP_CTRL", 0x840, 0x0, 1, 0, 1, [⟨"TS", 5, 0, .rws, 0⟩, ⟨"MODE", 9, 8, .rws, 0⟩, ⟨"ARM", 16, 16, .rws, 0⟩]⟩,
  ⟨"STEP_VAL_LO", 0x844, 0x0, 1, 0, 3, [⟨"VAL", 31, 0, .rws, 0⟩]⟩,
  ⟨"STEP_VAL_MID", 0x848, 0x0, 1, 1, 3, [⟨"VAL", 31, 0, .rws, 0⟩]⟩,
  ⟨"STEP_VAL_HI", 0x84C, 0x0, 1, 2, 3, [⟨"VAL", 31, 0, .rws, 0⟩]⟩,
  ⟨"LO_CTRL", 0x850, 0x0, 1, 0, 1, [⟨"SEL", 0, 0, .rw, 0⟩, ⟨"AUTO", 1, 1, .rw, 1⟩, ⟨"XO_FREQ", 6, 4, .rw, 0⟩]⟩,
  ⟨"LO_STAT", 0x854, 0x0, 1, 0, 1, [⟨"ACTIVE", 0, 0, .ro, 0⟩, ⟨"XO_READY", 1, 1, .ro, 0⟩, ⟨"GR_READY", 2, 2, .ro,
    0⟩, ⟨"PLL_LOCK", 3, 3, .ro, 0⟩, ⟨"PLL_HOLD", 4, 4, .ro, 0⟩, ⟨"SWITCHES", 31, 16, .ro, 0⟩]⟩,
  ⟨"LO_XDIFF", 0x858, 0x0, 1, 0, 1, [⟨"DIFF", 31, 0, .ro, 0x80000000⟩]⟩,
  ⟨"LEAP_SEL", 0x85C, 0x0, 1, 0, 1, [⟨"ENTRY", 4, 0, .rw, 0⟩]⟩,
  ⟨"LEAP_SEC", 0x860, 0x0, 1, 0, 1, [⟨"L", 31, 0, .rws, 0⟩]⟩,
  ⟨"LEAP_OFS", 0x864, 0x0, 1, 0, 1, [⟨"OFS", 15, 0, .rws, 0⟩, ⟨"VALID", 16, 16, .rws, 0⟩]⟩,
  ⟨"SMEAR_CFG", 0x868, 0x4, 4, 0, 1, [⟨"LEAD", 13, 0, .rws, 0⟩, ⟨"SPAN", 27, 14, .rws, 0⟩]⟩,
  ⟨"UTC_STAT", 0x878, 0x0, 1, 0, 1, [⟨"TAI_UTC", 15, 0, .ro, 0⟩, ⟨"LEAP_WARN", 17, 16, .ro, 0⟩, ⟨"UTC_UNKNOWN", 18,
    18, .ro, 1⟩, ⟨"NEXT", 28, 24, .ro, 0⟩]⟩,
  ⟨"CMP_LATE_COUNT", 0x87C, 0x0, 1, 0, 1, [⟨"COUNT", 31, 0, .ro, 0⟩]⟩]

/-- The TSC registers (03_timescales.md). -/
def rows : List RegSpec := rows0 ++ rows1

end TSC

namespace REF

def CTRL : Nat := 0x30000
def CTRL_REVERTIVE : Fld := ⟨CTRL, 0, 1⟩
def CTRL_ORDER : Fld := ⟨CTRL, 1, 1⟩
def CTRL_FORCE_EN : Fld := ⟨CTRL, 2, 1⟩
def CTRL_FORCE_SLOT : Fld := ⟨CTRL, 4, 4⟩
def CTRL_SSM_OPT : Fld := ⟨CTRL, 8, 1⟩
def STICKY : Nat := 0x30008
def STICKY_SWITCH : Fld := ⟨STICKY, 1, 1⟩
def STICKY_NO_REF : Fld := ⟨STICKY, 2, 1⟩
def STICKY_DISPUTE : Fld := ⟨STICKY, 3, 1⟩
def STICKY_RESOLVED : Fld := ⟨STICKY, 4, 1⟩
def STICKY_FORCE_UNQUAL : Fld := ⟨STICKY, 5, 1⟩
def STICKY_GNSS_STALE : Fld := ⟨STICKY, 6, 1⟩
def STICKY_PHASE_BIG : Fld := ⟨STICKY, 7, 1⟩
def STICKY_RETARGET : Fld := ⟨STICKY, 8, 1⟩
def STICKY_SLOT : Fld := ⟨STICKY, 9, 1⟩
def SEL_STAT : Nat := 0x30010
def SEL_STAT_ACTIVE : Fld := ⟨SEL_STAT, 0, 4⟩
def SEL_STAT_ACTIVE_VALID : Fld := ⟨SEL_STAT, 4, 1⟩
def SEL_STAT_PULLING : Fld := ⟨SEL_STAT, 5, 1⟩
def SEL_STAT_STANDBY : Fld := ⟨SEL_STAT, 8, 4⟩
def SEL_STAT_STANDBY_VALID : Fld := ⟨SEL_STAT, 12, 1⟩
def QUAL_MASK : Nat := 0x30014
def PRIO (n : Nat) : Nat := 0x30018 + 0x4 * n
def DISPUTE_CFG : Nat := 0x30028
def DISPUTE_CFG_THRESH : Fld := ⟨DISPUTE_CFG, 0, 16⟩
def DISPUTE_CFG_WINDOW : Fld := ⟨DISPUTE_CFG, 16, 8⟩
def DISPUTE_CFG_GROTTO_ARB : Fld := ⟨DISPUTE_CFG, 24, 1⟩
def DISPUTE_STAT : Nat := 0x3002C
def DISPUTE_STAT_SLOT_A : Fld := ⟨DISPUTE_STAT, 0, 4⟩
def DISPUTE_STAT_SLOT_B : Fld := ⟨DISPUTE_STAT, 4, 4⟩
def DISPUTE_STAT_ARBITER : Fld := ⟨DISPUTE_STAT, 8, 2⟩
def DISPUTE_STAT_ARB_SLOT : Fld := ⟨DISPUTE_STAT, 12, 4⟩
def DISPUTE_STAT_OUTCOME : Fld := ⟨DISPUTE_STAT, 16, 2⟩
def DISPUTE_STAT_COUNT : Fld := ⟨DISPUTE_STAT, 24, 8⟩
def PHASE_REPORT : Nat := 0x30030
def PHASE_REPORT_NS : Fld := ⟨PHASE_REPORT, 0, 24⟩
def GNSS_STAT : Nat := 0x30034
def GNSS_STAT_LAST_SEC : Fld := ⟨GNSS_STAT, 0, 16⟩
def GNSS_STAT_STALE_CNT : Fld := ⟨GNSS_STAT, 24, 8⟩
def SLOT_SUMMARY : Nat := 0x30038
def SWITCH_STAT : Nat := 0x3003C
def SWITCH_STAT_LOG_NEXT : Fld := ⟨SWITCH_STAT, 0, 4⟩
def SWITCH_STAT_COUNT : Fld := ⟨SWITCH_STAT, 16, 16⟩
def SWITCH_LOG (n : Nat) : Nat := 0x30040 + 0x4 * n
def SLOT_CFG (n : Nat) : Nat := 0x30100 + 0x20 * n
def SLOT_CFG_ENABLE (n : Nat) : Fld := ⟨SLOT_CFG n, 0, 1⟩
def SLOT_CFG_LOAD_DEFAULTS (n : Nat) : Fld := ⟨SLOT_CFG n, 1, 1⟩
def SLOT_CFG_BIND_TYPE (n : Nat) : Fld := ⟨SLOT_CFG n, 4, 3⟩
def SLOT_CFG_BIND_INDEX (n : Nat) : Fld := ⟨SLOT_CFG n, 8, 3⟩
def SLOT_CFG_DECL_RANK (n : Nat) : Fld := ⟨SLOT_CFG n, 12, 4⟩
def SLOT_CFG_MIN_RANK (n : Nat) : Fld := ⟨SLOT_CFG n, 16, 4⟩
def SLOT_LIMITS (n : Nat) : Nat := 0x30104 + 0x20 * n
def SLOT_LIMITS_FREQ_LIMIT (n : Nat) : Fld := ⟨SLOT_LIMITS n, 0, 16⟩
def SLOT_LIMITS_HOLDOFF (n : Nat) : Fld := ⟨SLOT_LIMITS n, 16, 16⟩
def SLOT_PHASE_CFG (n : Nat) : Nat := 0x30108 + 0x20 * n
def SLOT_PHASE_CFG_JUMP_LIMIT (n : Nat) : Fld := ⟨SLOT_PHASE_CFG n, 0, 16⟩
def SLOT_PHASE_CFG_FAIL_HOLD (n : Nat) : Fld := ⟨SLOT_PHASE_CFG n, 16, 16⟩
def SLOT_STATE (n : Nat) : Nat := 0x3010C + 0x20 * n
def SLOT_STATE_STATE (n : Nat) : Fld := ⟨SLOT_STATE n, 0, 3⟩
def SLOT_STATE_PHASE_BEARING (n : Nat) : Fld := ⟨SLOT_STATE n, 3, 1⟩
def SLOT_STATE_QRANK (n : Nat) : Fld := ⟨SLOT_STATE n, 4, 4⟩
def SLOT_STATE_LOS (n : Nat) : Fld := ⟨SLOT_STATE n, 8, 1⟩
def SLOT_STATE_FREQ_OOR (n : Nat) : Fld := ⟨SLOT_STATE n, 9, 1⟩
def SLOT_STATE_QL_LOW (n : Nat) : Fld := ⟨SLOT_STATE n, 10, 1⟩
def SLOT_STATE_PHASE_BIG (n : Nat) : Fld := ⟨SLOT_STATE n, 11, 1⟩
def SLOT_STATE_HOLDOFF_LEFT (n : Nat) : Fld := ⟨SLOT_STATE n, 16, 16⟩
def SLOT_PHASE (n : Nat) : Nat := 0x30110 + 0x20 * n
def SLOT_FREQ (n : Nat) : Nat := 0x30114 + 0x20 * n
def SLOT_QUALITY (n : Nat) : Nat := 0x30118 + 0x20 * n
def SLOT_STICKY (n : Nat) : Nat := 0x3011C + 0x20 * n
def IN_CFG (n : Nat) : Nat := 0x30300 + 0x10 * n
def IN_CFG_MODE (n : Nat) : Fld := ⟨IN_CFG n, 0, 3⟩
def IN_CFG_POL (n : Nat) : Fld := ⟨IN_CFG n, 3, 1⟩
def IN_CFG_COMP_EN (n : Nat) : Fld := ⟨IN_CFG n, 4, 1⟩
def IN_CFG_COMP_IN (n : Nat) : Fld := ⟨IN_CFG n, 5, 3⟩
def IN_CFG_REFOK_EN (n : Nat) : Fld := ⟨IN_CFG n, 8, 1⟩
def IN_CFG_REFOK_POL (n : Nat) : Fld := ⟨IN_CFG n, 9, 1⟩
def IN_FREQ (n : Nat) : Nat := 0x30304 + 0x10 * n
def IN_FREQ_HZ (n : Nat) : Fld := ⟨IN_FREQ n, 0, 30⟩
def IN_DELAY (n : Nat) : Nat := 0x30308 + 0x10 * n
def IN_STAT (n : Nat) : Nat := 0x3030C + 0x10 * n
def IN_STAT_PRESENT (n : Nat) : Fld := ⟨IN_STAT n, 0, 1⟩
def IN_STAT_REFOK (n : Nat) : Fld := ⟨IN_STAT n, 1, 1⟩
def IN_STAT_EDGES (n : Nat) : Fld := ⟨IN_STAT n, 16, 16⟩

def rows0 : List RegSpec := [
  ⟨"CTRL", 0x0, 0x0, 1, 0, 1, [⟨"REVERTIVE", 0, 0, .rws, 0⟩, ⟨"ORDER", 1, 1, .rws, 0⟩, ⟨"FORCE_EN", 2, 2, .rws, 0⟩,
    ⟨"FORCE_SLOT", 7, 4, .rws, 0⟩, ⟨"SSM_OPT", 8, 8, .rws, 0⟩]⟩,
  ⟨"COMMIT", 0x4, 0x0, 1, 0, 1, [⟨"GO", 0, 0, .w1s, 0⟩, ⟨"VIEW", 1, 1, .rw, 0⟩, ⟨"PENDING", 2, 2, .ro, 0⟩,
    ⟨"DISCARD", 3, 3, .w1s, 0⟩, ⟨"REFUSED", 4, 4, .w1c, 0⟩, ⟨"COUNT", 31, 16, .ro, 0⟩]⟩,
  ⟨"STICKY", 0x8, 0x0, 1, 0, 1, [⟨"CFG_REFUSED", 0, 0, .w1c, 0⟩, ⟨"SWITCH", 1, 1, .w1c, 0⟩, ⟨"NO_REF", 2, 2, .w1c,
    0⟩, ⟨"DISPUTE", 3, 3, .w1c, 0⟩, ⟨"RESOLVED", 4, 4, .w1c, 0⟩, ⟨"FORCE_UNQUAL", 5, 5, .w1c, 0⟩, ⟨"GNSS_STALE", 6,
    6, .w1c, 0⟩, ⟨"PHASE_BIG", 7, 7, .w1c, 0⟩, ⟨"RETARGET", 8, 8, .w1c, 0⟩, ⟨"SLOT", 9, 9, .w1c, 0⟩]⟩,
  ⟨"INT_EN", 0xC, 0x0, 1, 0, 1, [⟨"EN", 9, 0, .rw, 0x2DF⟩]⟩,
  ⟨"SEL_STAT", 0x10, 0x0, 1, 0, 1, [⟨"ACTIVE", 3, 0, .ro, 0⟩, ⟨"ACTIVE_VALID", 4, 4, .ro, 0⟩, ⟨"PULLING", 5, 5,
    .ro, 0⟩, ⟨"STANDBY", 11, 8, .ro, 0⟩, ⟨"STANDBY_VALID", 12, 12, .ro, 0⟩]⟩,
  ⟨"QUAL_MASK", 0x14, 0x0, 1, 0, 1, [⟨"QUALIFIED", 15, 0, .ro, 0⟩, ⟨"DISPUTED", 31, 16, .ro, 0⟩]⟩,
  ⟨"PRIO", 0x18, 0x4, 4, 0, 1, [⟨"SLOT", 3, 0, .rws, 0⟩, ⟨"LEVEL", 6, 4, .rws, 0⟩, ⟨"VALID", 7, 7, .rws, 0⟩,
    ⟨"ENTRY_1", 15, 8, .rws, 0⟩, ⟨"ENTRY_2", 23, 16, .rws, 0⟩, ⟨"ENTRY_3", 31, 24, .rws, 0⟩]⟩,
  ⟨"DISPUTE_CFG", 0x28, 0x0, 1, 0, 1, [⟨"THRESH", 15, 0, .rws, 0x14⟩, ⟨"WINDOW", 23, 16, .rws, 0x10⟩,
    ⟨"GROTTO_ARB", 24, 24, .rws, 1⟩]⟩,
  ⟨"DISPUTE_STAT", 0x2C, 0x0, 1, 0, 1, [⟨"SLOT_A", 3, 0, .ro, 0⟩, ⟨"SLOT_B", 7, 4, .ro, 0⟩, ⟨"ARBITER", 9, 8, .ro,
    0⟩, ⟨"ARB_SLOT", 15, 12, .ro, 0⟩, ⟨"OUTCOME", 17, 16, .ro, 0⟩, ⟨"COUNT", 31, 24, .ro, 0⟩]⟩,
  ⟨"PHASE_REPORT", 0x30, 0x0, 1, 0, 1, [⟨"NS", 23, 0, .rws, 0x3E8⟩]⟩,
  ⟨"GNSS_STAT", 0x34, 0x0, 1, 0, 1, [⟨"LAST_SEC", 15, 0, .ro, 0⟩, ⟨"AGE", 23, 16, .ro, 0xFF⟩, ⟨"STALE_CNT", 31, 24,
    .ro, 0⟩]⟩,
  ⟨"SLOT_SUMMARY", 0x38, 0x0, 1, 0, 1, [⟨"HISTORY", 15, 0, .ro, 0⟩]⟩,
  ⟨"SWITCH_STAT", 0x3C, 0x0, 1, 0, 1, [⟨"LOG_NEXT", 3, 0, .ro, 0⟩, ⟨"COUNT", 31, 16, .ro, 0⟩]⟩,
  ⟨"SWITCH_LOG", 0x40, 0x4, 16, 0, 1, [⟨"FROM", 3, 0, .ro, 0⟩, ⟨"TO", 7, 4, .ro, 0⟩, ⟨"FROM_NONE", 8, 8, .ro, 0⟩,
    ⟨"TO_NONE", 9, 9, .ro, 0⟩, ⟨"CAUSE", 14, 12, .ro, 0⟩, ⟨"SECONDS", 31, 16, .ro, 0⟩]⟩,
  ⟨"SLOT_CFG", 0x100, 0x20, 16, 0, 1, [⟨"ENABLE", 0, 0, .rws, 0⟩, ⟨"LOAD_DEFAULTS", 1, 1, .rws, 0⟩, ⟨"BIND_TYPE",
    6, 4, .rws, 0⟩, ⟨"BIND_INDEX", 10, 8, .rws, 0⟩, ⟨"DECL_RANK", 15, 12, .rws, 0xF⟩, ⟨"MIN_RANK", 19, 16, .rws,
    0xE⟩]⟩,
  ⟨"SLOT_LIMITS", 0x104, 0x20, 16, 0, 1, [⟨"FREQ_LIMIT", 15, 0, .rws, 0x32⟩, ⟨"HOLDOFF", 31, 16, .rws, 0xA⟩]⟩,
  ⟨"SLOT_PHASE_CFG", 0x108, 0x20, 16, 0, 1, [⟨"JUMP_LIMIT", 15, 0, .rws, 0x64⟩, ⟨"FAIL_HOLD", 31, 16, .rws, 0x3C⟩]⟩,
  ⟨"SLOT_STATE", 0x10C, 0x20, 16, 0, 1, [⟨"STATE", 2, 0, .ro, 0⟩, ⟨"PHASE_BEARING", 3, 3, .ro, 0⟩, ⟨"QRANK", 7, 4,
    .ro, 0xF⟩, ⟨"LOS", 8, 8, .ro, 0⟩, ⟨"FREQ_OOR", 9, 9, .ro, 0⟩, ⟨"QL_LOW", 10, 10, .ro, 0⟩, ⟨"PHASE_BIG", 11, 11,
    .ro, 0⟩, ⟨"HOLDOFF_LEFT", 31, 16, .ro, 0⟩]⟩,
  ⟨"SLOT_PHASE", 0x110, 0x20, 16, 0, 1, [⟨"PHASE", 31, 0, .ro, 0⟩]⟩,
  ⟨"SLOT_FREQ", 0x114, 0x20, 16, 0, 1, [⟨"FREQ", 31, 0, .ro, 0x80000000⟩]⟩,
  ⟨"SLOT_QUALITY", 0x118, 0x20, 16, 0, 1, [⟨"Q0", 7, 0, .ro, 0⟩, ⟨"Q1", 15, 8, .ro, 0⟩, ⟨"Q2", 31, 16, .ro, 0⟩]⟩,
  ⟨"SLOT_STICKY", 0x11C, 0x20, 16, 0, 1, [⟨"LOS_SEEN", 0, 0, .w1c, 0⟩, ⟨"FREQ_OOR_SEEN", 1, 1, .w1c, 0⟩,
    ⟨"PHASE_JUMP_SEEN", 2, 2, .w1c, 0⟩, ⟨"QL_DROP_SEEN", 3, 3, .w1c, 0⟩, ⟨"DISPUTE_SEEN", 4, 4, .w1c, 0⟩,
    ⟨"SWITCH_SEEN", 5, 5, .w1c, 0⟩, ⟨"INT_EN", 21, 16, .rw, 0x3F⟩]⟩,
  ⟨"IN_CFG", 0x300, 0x10, 8, 0, 1, [⟨"MODE", 2, 0, .rws, 0⟩, ⟨"POL", 3, 3, .rws, 0⟩, ⟨"COMP_EN", 4, 4, .rws, 0⟩,
    ⟨"COMP_IN", 7, 5, .rws, 0⟩, ⟨"REFOK_EN", 8, 8, .rws, 0⟩, ⟨"REFOK_POL", 9, 9, .rws, 0⟩]⟩,
  ⟨"IN_FREQ", 0x304, 0x10, 8, 0, 1, [⟨"HZ", 29, 0, .rws, 0⟩]⟩]

def rows1 : List RegSpec := [
  ⟨"IN_DELAY", 0x308, 0x10, 8, 0, 1, [⟨"DELAY", 31, 0, .rws, 0⟩]⟩,
  ⟨"IN_STAT", 0x30C, 0x10, 8, 0, 1, [⟨"PRESENT", 0, 0, .ro, 0⟩, ⟨"REFOK", 1, 1, .ro, 0⟩, ⟨"EDGES", 31, 16, .ro, 0⟩]⟩]

/-- The REF registers (04_references.md). -/
def rows : List RegSpec := rows0 ++ rows1

end REF

namespace DSC

def LOOP_CFG : Nat := 0x40000
def LOOP_CFG_MAIN_BW : Fld := ⟨LOOP_CFG, 0, 5⟩
def LOOP_CFG_DAMP : Fld := ⟨LOOP_CFG, 5, 2⟩
def LOOP_CFG_MAIN_OPEN : Fld := ⟨LOOP_CFG, 8, 1⟩
def LOOP_CFG_FB_OPEN : Fld := ⟨LOOP_CFG, 9, 1⟩
def LOOP_CFG_SW_HOLDOVER : Fld := ⟨LOOP_CFG, 10, 1⟩
def LOOP_CFG_PROV_STEP : Fld := ⟨LOOP_CFG, 11, 1⟩
def LOOP_CFG_SW_TIMEOUT : Fld := ⟨LOOP_CFG, 16, 8⟩
def STICKY : Nat := 0x40008
def STICKY_STATE_CHANGE : Fld := ⟨STICKY, 1, 1⟩
def STICKY_HO_ENTER : Fld := ⟨STICKY, 2, 1⟩
def STICKY_HO_EXPIRED : Fld := ⟨STICKY, 3, 1⟩
def STICKY_HO_EXIT : Fld := ⟨STICKY, 4, 1⟩
def STICKY_PULL_DONE : Fld := ⟨STICKY, 5, 1⟩
def STICKY_UNLOCK : Fld := ⟨STICKY, 6, 1⟩
def STICKY_SW_TIMEOUT : Fld := ⟨STICKY, 7, 1⟩
def STICKY_CTRL_LIMIT : Fld := ⟨STICKY, 8, 1⟩
def STICKY_BW_CLAMP : Fld := ⟨STICKY, 9, 1⟩
def STICKY_AGE_RESTART : Fld := ⟨STICKY, 10, 1⟩
def STICKY_MIRROR_FAIL : Fld := ⟨STICKY, 11, 1⟩
def STICKY_SEQ_FAULT : Fld := ⟨STICKY, 12, 1⟩
def STATE : Nat := 0x40010
def STATE_STATE : Fld := ⟨STATE, 0, 3⟩
def STATE_ADV : Fld := ⟨STATE, 4, 2⟩
def STATE_PULLING : Fld := ⟨STATE, 8, 1⟩
def STATE_BUILDOUT : Fld := ⟨STATE, 9, 1⟩
def STATE_FB_SETTLED : Fld := ⟨STATE, 10, 1⟩
def STATE_SW_LAPSED : Fld := ⟨STATE, 11, 1⟩
def STATE_BW_CLAMPED : Fld := ⟨STATE, 12, 1⟩
def STATE_AGE_VALID : Fld := ⟨STATE, 13, 1⟩
def STATE_EFF_BW : Fld := ⟨STATE, 16, 5⟩
def FB_BW_LO : Nat := 0x40014
def FB_BW_LO_REFIN_PHASE : Fld := ⟨FB_BW_LO, 0, 5⟩
def FB_BW_LO_REFIN_FREQ : Fld := ⟨FB_BW_LO, 5, 5⟩
def FB_BW_LO_GNSS : Fld := ⟨FB_BW_LO, 10, 5⟩
def FB_BW_LO_PTP : Fld := ⟨FB_BW_LO, 15, 5⟩
def FB_BW_LO_SYNCE : Fld := ⟨FB_BW_LO, 20, 5⟩
def FB_BW_LO_GENLOCK : Fld := ⟨FB_BW_LO, 25, 5⟩
def FB_BW_HI : Nat := 0x40018
def FB_BW_HI_TWIN : Fld := ⟨FB_BW_HI, 0, 5⟩
def PULL_CFG : Nat := 0x4001C
def PULL_CFG_SLOPE : Fld := ⟨PULL_CFG, 0, 14⟩
def PULL_CFG_FRAMP_EN : Fld := ⟨PULL_CFG, 15, 1⟩
def PULL_CFG_FRAMP : Fld := ⟨PULL_CFG, 16, 16⟩
def PULL_STAT : Nat := 0x40020
def PULL_STAT_PULLING : Fld := ⟨PULL_STAT, 0, 1⟩
def PULL_STAT_KIND : Fld := ⟨PULL_STAT, 1, 2⟩
def PULL_STAT_TARGET : Fld := ⟨PULL_STAT, 4, 4⟩
def PULL_STAT_RETARGETS : Fld := ⟨PULL_STAT, 8, 8⟩
def PULL_STAT_PULLS : Fld := ⟨PULL_STAT, 16, 16⟩
def LOCK_CFG : Nat := 0x40024
def LOCK_CFG_LOCK_PHASE : Fld := ⟨LOCK_CFG, 0, 16⟩
def LOCK_CFG_LOCK_FREQ : Fld := ⟨LOCK_CFG, 16, 8⟩
def LOCK_CFG_LOCK_TIME : Fld := ⟨LOCK_CFG, 24, 8⟩
def HO_WINDOW : Nat := 0x40028
def HO_WINDOW_W : Fld := ⟨HO_WINDOW, 0, 20⟩
def HO_WINDOW_G : Fld := ⟨HO_WINDOW, 20, 12⟩
def HO_BUDGET : Nat := 0x4002C
def HO_UNC_F : Nat := 0x40030
def HO_UNC_F_F_UNC : Fld := ⟨HO_UNC_F, 0, 16⟩
def HO_UNC_F_AGE_UNC : Fld := ⟨HO_UNC_F, 16, 16⟩
def HO_UNC_T : Nat := 0x40034
def HO_UNC_T_TEMP_UNC : Fld := ⟨HO_UNC_T, 0, 16⟩
def HO_UNC_T_E0 : Fld := ⟨HO_UNC_T, 16, 16⟩
def HO_TEMP_COEF : Nat := 0x40038
def HO_STAT : Nat := 0x4003C
def HO_STAT_ELAPSED : Fld := ⟨HO_STAT, 0, 24⟩
def HO_STAT_SHORT : Fld := ⟨HO_STAT, 24, 1⟩
def HO_ERR : Nat := 0x40040
def HO_SDEV : Nat := 0x40044
def AGEING : Nat := 0x40048
def AGE_STAT : Nat := 0x4004C
def AGE_STAT_LEARNED : Fld := ⟨AGE_STAT, 0, 20⟩
def AGE_STAT_VALID : Fld := ⟨AGE_STAT, 20, 1⟩
def PD_PHASE : Nat := 0x40050
def PD_FREQ : Nat := 0x40054
def PULL_REMAIN : Nat := 0x40058
def STEP_CMD : Nat := 0x4005C
def CTRL_VAL_LO : Nat := 0x40060
def FB_VAL_LO : Nat := 0x40068
def HO_MEAN_LO : Nat := 0x40070
def SW_CTRL_LO : Nat := 0x40078
def SW_CTRL_HI : Nat := 0x4007C
def FREE_CTRL_LO : Nat := 0x40080
def FREE_CTRL_HI : Nat := 0x40084
def HIST_SEL : Nat := 0x40088
def HIST_DATA : Nat := 0x4008C
def HO_TEMP_MEAN : Nat := 0x40090
def HO_TEMP_NOW : Nat := 0x40094
def HO_SAMPLES : Nat := 0x40098
def QUAL_NOW : Nat := 0x4009C
def QUAL_NOW_CLASS_DEF : Fld := ⟨QUAL_NOW, 0, 8⟩
def QUAL_NOW_CLASS_G8275 : Fld := ⟨QUAL_NOW, 8, 8⟩
def QUAL_NOW_STRATUM : Fld := ⟨QUAL_NOW, 16, 5⟩
def QUAL_NOW_LI3 : Fld := ⟨QUAL_NOW, 21, 1⟩
def QUAL_NOW_QL1 : Fld := ⟨QUAL_NOW, 24, 4⟩
def QUAL_NOW_QL2 : Fld := ⟨QUAL_NOW, 28, 4⟩
def QUAL (n : Nat) : Nat := 0x400A0 + 0x4 * n
def STATE_STAT : Nat := 0x400B0
def STATE_STAT_LOG_NEXT : Fld := ⟨STATE_STAT, 0, 4⟩
def STATE_STAT_COUNT : Fld := ⟨STATE_STAT, 16, 16⟩
def SEQ_STAT : Nat := 0x400B4
def HO_ENTRY : Nat := 0x400B8
def HO_EXIT : Nat := 0x400BC
def STATE_LOG (n : Nat) : Nat := 0x400C0 + 0x4 * n
def SLOT_LOOP (n : Nat) : Nat := 0x40100 + 0x4 * n
def SLOT_LOOP_BW (n : Nat) : Fld := ⟨SLOT_LOOP n, 0, 5⟩
def SLOT_LOOP_DAMP (n : Nat) : Fld := ⟨SLOT_LOOP n, 5, 2⟩
def SLOT_LOOP_OVERRIDE (n : Nat) : Fld := ⟨SLOT_LOOP n, 7, 1⟩
def SLOT_PULL (n : Nat) : Nat := 0x40140 + 0x4 * n

def rows0 : List RegSpec := [
  ⟨"LOOP_CFG", 0x0, 0x0, 1, 0, 1, [⟨"MAIN_BW", 4, 0, .rws, 3⟩, ⟨"DAMP", 6, 5, .rws, 0⟩, ⟨"MAIN_OPEN", 8, 8, .rws,
    0⟩, ⟨"FB_OPEN", 9, 9, .rws, 0⟩, ⟨"SW_HOLDOVER", 10, 10, .rws, 0⟩, ⟨"PROV_STEP", 11, 11, .rws, 1⟩,
    ⟨"SW_TIMEOUT", 23, 16, .rws, 0xA⟩]⟩,
  ⟨"COMMIT", 0x4, 0x0, 1, 0, 1, [⟨"GO", 0, 0, .w1s, 0⟩, ⟨"VIEW", 1, 1, .rw, 0⟩, ⟨"PENDING", 2, 2, .ro, 0⟩,
    ⟨"DISCARD", 3, 3, .w1s, 0⟩, ⟨"REFUSED", 4, 4, .w1c, 0⟩, ⟨"COUNT", 31, 16, .ro, 0⟩]⟩,
  ⟨"STICKY", 0x8, 0x0, 1, 0, 1, [⟨"CFG_REFUSED", 0, 0, .w1c, 0⟩, ⟨"STATE_CHANGE", 1, 1, .w1c, 0⟩, ⟨"HO_ENTER", 2,
    2, .w1c, 0⟩, ⟨"HO_EXPIRED", 3, 3, .w1c, 0⟩, ⟨"HO_EXIT", 4, 4, .w1c, 0⟩, ⟨"PULL_DONE", 5, 5, .w1c, 0⟩,
    ⟨"UNLOCK", 6, 6, .w1c, 0⟩, ⟨"SW_TIMEOUT", 7, 7, .w1c, 0⟩, ⟨"CTRL_LIMIT", 8, 8, .w1c, 0⟩, ⟨"BW_CLAMP", 9, 9,
    .w1c, 0⟩, ⟨"AGE_RESTART", 10, 10, .w1c, 0⟩, ⟨"MIRROR_FAIL", 11, 11, .w1c, 0⟩, ⟨"SEQ_FAULT", 12, 12, .w1c, 0⟩]⟩,
  ⟨"INT_EN", 0xC, 0x0, 1, 0, 1, [⟨"EN", 12, 0, .rw, 0x19DD⟩]⟩,
  ⟨"STATE", 0x10, 0x0, 1, 0, 1, [⟨"STATE", 2, 0, .ro, 0⟩, ⟨"ADV", 5, 4, .ro, 0⟩, ⟨"PULLING", 8, 8, .ro, 0⟩,
    ⟨"BUILDOUT", 9, 9, .ro, 0⟩, ⟨"FB_SETTLED", 10, 10, .ro, 0⟩, ⟨"SW_LAPSED", 11, 11, .ro, 0⟩, ⟨"BW_CLAMPED", 12,
    12, .ro, 0⟩, ⟨"AGE_VALID", 13, 13, .ro, 0⟩, ⟨"EFF_BW", 20, 16, .ro, 0⟩, ⟨"LOCK_LEFT", 31, 24, .ro, 0⟩]⟩,
  ⟨"FB_BW_LO", 0x14, 0x0, 1, 0, 1, [⟨"REFIN_PHASE", 4, 0, .rws, 3⟩, ⟨"REFIN_FREQ", 9, 5, .rws, 9⟩, ⟨"GNSS", 14, 10,
    .rws, 3⟩, ⟨"PTP", 19, 15, .rws, 3⟩, ⟨"SYNCE", 24, 20, .rws, 9⟩, ⟨"GENLOCK", 29, 25, .rws, 6⟩]⟩,
  ⟨"FB_BW_HI", 0x18, 0x0, 1, 0, 1, [⟨"TWIN", 4, 0, .rws, 3⟩]⟩,
  ⟨"PULL_CFG", 0x1C, 0x0, 1, 0, 1, [⟨"SLOPE", 13, 0, .rws, 0xA⟩, ⟨"FRAMP_EN", 15, 15, .rws, 0⟩, ⟨"FRAMP", 31, 16,
    .rws, 0⟩]⟩,
  ⟨"PULL_STAT", 0x20, 0x0, 1, 0, 1, [⟨"PULLING", 0, 0, .ro, 0⟩, ⟨"KIND", 2, 1, .ro, 0⟩, ⟨"TARGET", 7, 4, .ro, 0⟩,
    ⟨"RETARGETS", 15, 8, .ro, 0⟩, ⟨"PULLS", 31, 16, .ro, 0⟩]⟩,
  ⟨"LOCK_CFG", 0x24, 0x0, 1, 0, 1, [⟨"LOCK_PHASE", 15, 0, .rws, 0x64⟩, ⟨"LOCK_FREQ", 23, 16, .rws, 0xA⟩,
    ⟨"LOCK_TIME", 31, 24, .rws, 0x3C⟩]⟩,
  ⟨"HO_WINDOW", 0x28, 0x0, 1, 0, 1, [⟨"W", 19, 0, .rws, 0x400⟩, ⟨"G", 31, 20, .rws, 0x78⟩]⟩,
  ⟨"HO_BUDGET", 0x2C, 0x0, 1, 0, 1, [⟨"VAL", 31, 0, .rws, 0x5DC⟩]⟩,
  ⟨"HO_UNC_F", 0x30, 0x0, 1, 0, 1, [⟨"F_UNC", 15, 0, .rws, 0x14⟩, ⟨"AGE_UNC", 31, 16, .rws, 0x32⟩]⟩,
  ⟨"HO_UNC_T", 0x34, 0x0, 1, 0, 1, [⟨"TEMP_UNC", 15, 0, .rws, 0xA⟩, ⟨"E0", 31, 16, .rws, 0xA⟩]⟩,
  ⟨"HO_TEMP_COEF", 0x38, 0x0, 1, 0, 1, [⟨"VAL", 31, 0, .rws, 0⟩]⟩,
  ⟨"HO_STAT", 0x3C, 0x0, 1, 0, 1, [⟨"ELAPSED", 23, 0, .ro, 0⟩, ⟨"SHORT", 24, 24, .ro, 0⟩]⟩,
  ⟨"HO_ERR", 0x40, 0x0, 1, 0, 1, [⟨"VAL", 31, 0, .ro, 0⟩]⟩,
  ⟨"HO_SDEV", 0x44, 0x0, 1, 0, 1, [⟨"VAL", 31, 0, .ro, 0⟩]⟩,
  ⟨"AGEING", 0x48, 0x0, 1, 0, 1, [⟨"VAL", 31, 0, .ro, 0⟩]⟩,
  ⟨"AGE_STAT", 0x4C, 0x0, 1, 0, 1, [⟨"LEARNED", 19, 0, .ro, 0⟩, ⟨"VALID", 20, 20, .ro, 0⟩]⟩,
  ⟨"PD_PHASE", 0x50, 0x0, 1, 0, 1, [⟨"VAL", 31, 0, .ro, 0⟩]⟩,
  ⟨"PD_FREQ", 0x54, 0x0, 1, 0, 1, [⟨"VAL", 31, 0, .ro, 0x80000000⟩]⟩,
  ⟨"PULL_REMAIN", 0x58, 0x0, 1, 0, 1, [⟨"VAL", 31, 0, .ro, 0⟩]⟩,
  ⟨"STEP_CMD", 0x5C, 0x0, 1, 0, 1, [⟨"KEY", 7, 0, .wo, 0⟩, ⟨"GO", 8, 8, .wo, 0⟩]⟩]

def rows1 : List RegSpec := [
  ⟨"CTRL_VAL_LO", 0x60, 0x0, 1, 0, 2, [⟨"VAL", 31, 0, .ro, 0⟩]⟩,
  ⟨"CTRL_VAL_HI", 0x64, 0x0, 1, 1, 2, [⟨"VAL", 31, 0, .ro, 0⟩]⟩,
  ⟨"FB_VAL_LO", 0x68, 0x0, 1, 0, 2, [⟨"VAL", 31, 0, .ro, 0⟩]⟩,
  ⟨"FB_VAL_HI", 0x6C, 0x0, 1, 1, 2, [⟨"VAL", 31, 0, .ro, 0⟩]⟩,
  ⟨"HO_MEAN_LO", 0x70, 0x0, 1, 0, 2, [⟨"VAL", 31, 0, .ro, 0⟩]⟩,
  ⟨"HO_MEAN_HI", 0x74, 0x0, 1, 1, 2, [⟨"VAL", 31, 0, .ro, 0⟩]⟩,
  ⟨"SW_CTRL_LO", 0x78, 0x0, 1, 0, 2, [⟨"VAL", 31, 0, .rw, 0⟩]⟩,
  ⟨"SW_CTRL_HI", 0x7C, 0x0, 1, 1, 2, [⟨"VAL", 31, 0, .rw, 0⟩]⟩,
  ⟨"FREE_CTRL_LO", 0x80, 0x0, 1, 0, 2, [⟨"VAL", 31, 0, .rws, 0⟩]⟩,
  ⟨"FREE_CTRL_HI", 0x84, 0x0, 1, 1, 2, [⟨"VAL", 31, 0, .rws, 0⟩]⟩,
  ⟨"HIST_SEL", 0x88, 0x0, 1, 0, 1, [⟨"AGE", 19, 0, .rw, 0⟩, ⟨"HDR", 20, 20, .rw, 0⟩, ⟨"WORD", 22, 21, .rw, 0⟩]⟩,
  ⟨"HIST_DATA", 0x8C, 0x0, 1, 0, 1, [⟨"VAL", 31, 0, .ro, 0⟩]⟩,
  ⟨"HO_TEMP_MEAN", 0x90, 0x0, 1, 0, 1, [⟨"VAL", 31, 0, .ro, 0⟩]⟩,
  ⟨"HO_TEMP_NOW", 0x94, 0x0, 1, 0, 1, [⟨"VAL", 31, 0, .ro, 0⟩]⟩,
  ⟨"HO_SAMPLES", 0x98, 0x0, 1, 0, 1, [⟨"VAL", 31, 0, .ro, 0⟩]⟩,
  ⟨"QUAL_NOW", 0x9C, 0x0, 1, 0, 1, [⟨"CLASS_DEF", 7, 0, .ro, 0⟩, ⟨"CLASS_G8275", 15, 8, .ro, 0⟩, ⟨"STRATUM", 20,
    16, .ro, 0⟩, ⟨"LI3", 21, 21, .ro, 0⟩, ⟨"QL1", 27, 24, .ro, 0⟩, ⟨"QL2", 31, 28, .ro, 0⟩]⟩,
  ⟨"QUAL", 0xA0, 0x4, 4, 0, 1, [⟨"CLASS_DEF", 7, 0, .rws, 0⟩, ⟨"CLASS_G8275", 15, 8, .rws, 0⟩, ⟨"STRATUM", 20, 16,
    .rws, 0⟩, ⟨"LI3", 21, 21, .rws, 0⟩, ⟨"QL1", 27, 24, .rws, 0⟩, ⟨"QL2", 31, 28, .rws, 0⟩]⟩,
  ⟨"STATE_STAT", 0xB0, 0x0, 1, 0, 1, [⟨"LOG_NEXT", 3, 0, .ro, 0⟩, ⟨"COUNT", 31, 16, .ro, 0⟩]⟩,
  ⟨"SEQ_STAT", 0xB4, 0x0, 1, 0, 1, [⟨"HB0", 7, 0, .ro, 0⟩, ⟨"HB1", 15, 8, .ro, 0⟩, ⟨"HB2", 23, 16, .ro, 0⟩, ⟨"HB3",
    31, 24, .ro, 0⟩]⟩,
  ⟨"HO_ENTRY", 0xB8, 0x0, 1, 0, 1, [⟨"VAL", 31, 0, .ro, 0⟩]⟩,
  ⟨"HO_EXIT", 0xBC, 0x0, 1, 0, 1, [⟨"VAL", 31, 0, .ro, 0⟩]⟩,
  ⟨"STATE_LOG", 0xC0, 0x4, 16, 0, 1, [⟨"FROM", 2, 0, .ro, 0⟩, ⟨"TO", 5, 3, .ro, 0⟩, ⟨"CAUSE", 8, 6, .ro, 0⟩,
    ⟨"SECONDS", 31, 16, .ro, 0⟩]⟩,
  ⟨"SLOT_LOOP", 0x100, 0x4, 16, 0, 1, [⟨"BW", 4, 0, .rws, 3⟩, ⟨"DAMP", 6, 5, .rws, 0⟩, ⟨"OVERRIDE", 7, 7, .rws, 0⟩]⟩,
  ⟨"SLOT_PULL", 0x140, 0x4, 16, 0, 1, [⟨"VAL", 31, 0, .ro, 0⟩]⟩]

/-- The DSC registers (05_discipline_and_holdover.md). -/
def rows : List RegSpec := rows0 ++ rows1

end DSC

namespace CKO

def CTRL : Nat := 0x50000
def CTRL_SQUELCH : Fld := ⟨CTRL, 0, 1⟩
def CTRL_AUTO_ALIGN : Fld := ⟨CTRL, 1, 1⟩
def STICKY : Nat := 0x50008
def STICKY_CFG_REFUSED : Fld := ⟨STICKY, 0, 1⟩
def STICKY_LOCK_LOST_A : Fld := ⟨STICKY, 1, 1⟩
def STICKY_LOCK_LOST_B : Fld := ⟨STICKY, 2, 1⟩
def STICKY_ALIGN_LOST : Fld := ⟨STICKY, 3, 1⟩
def STICKY_ALIGN_DONE : Fld := ⟨STICKY, 4, 1⟩
def STICKY_PHASE_DONE : Fld := ⟨STICKY, 5, 1⟩
def STAT : Nat := 0x50010
def SDS_REF : Nat := 0x50014
def SDS_REF_DIV : Fld := ⟨SDS_REF, 0, 8⟩
def ALIGN_CTRL : Nat := 0x50018
def ALIGN_CTRL_COUNT : Fld := ⟨ALIGN_CTRL, 16, 16⟩
def ALIGN_STAT : Nat := 0x5001C
def ALIGN_STAT_WORST : Fld := ⟨ALIGN_STAT, 0, 16⟩
def PLANE_CFG (n : Nat) : Nat := 0x50020 + 0x4 * n
def PLANE_CFG_EN (n : Nat) : Fld := ⟨PLANE_CFG n, 0, 1⟩
def PLANE_CFG_INT (n : Nat) : Fld := ⟨PLANE_CFG n, 8, 4⟩
def PLANE_NUM (n : Nat) : Nat := 0x50028 + 0x4 * n
def PLANE_NUM_NUM (n : Nat) : Fld := ⟨PLANE_NUM n, 0, 24⟩
def PLANE_DEN (n : Nat) : Nat := 0x50030 + 0x4 * n
def PLANE_DEN_DEN (n : Nat) : Fld := ⟨PLANE_DEN n, 0, 24⟩
def PLANE_STAT (n : Nat) : Nat := 0x50038 + 0x4 * n
def PLANE_STAT_LOCK (n : Nat) : Fld := ⟨PLANE_STAT n, 0, 1⟩
def PLANE_STAT_LOSSES (n : Nat) : Fld := ⟨PLANE_STAT n, 16, 16⟩
def OUT_CFG (n : Nat) : Nat := 0x50040 + 0x10 * n
def OUT_CFG_EN (n : Nat) : Fld := ⟨OUT_CFG n, 0, 1⟩
def OUT_CFG_FORMAT (n : Nat) : Fld := ⟨OUT_CFG n, 1, 2⟩
def OUT_CFG_PLANE (n : Nat) : Fld := ⟨OUT_CFG n, 3, 1⟩
def OUT_CFG_ALIGN_EN (n : Nat) : Fld := ⟨OUT_CFG n, 4, 1⟩
def OUT_DIV (n : Nat) : Nat := 0x50044 + 0x10 * n
def OUT_DIV_DIV (n : Nat) : Fld := ⟨OUT_DIV n, 0, 24⟩
def OUT_PHASE (n : Nat) : Nat := 0x50048 + 0x10 * n
def OUT_STAT (n : Nat) : Nat := 0x5004C + 0x10 * n
def OUT_STAT_RUNNING (n : Nat) : Fld := ⟨OUT_STAT n, 0, 1⟩
def OUT_STAT_ALIGNED (n : Nat) : Fld := ⟨OUT_STAT n, 1, 1⟩
def OUT_STAT_WALKING (n : Nat) : Fld := ⟨OUT_STAT n, 2, 1⟩
def OUT_STAT_SQUELCHED (n : Nat) : Fld := ⟨OUT_STAT n, 3, 1⟩
def OUT_STAT_RESTARTS (n : Nat) : Fld := ⟨OUT_STAT n, 16, 16⟩

def rows0 : List RegSpec := [
  ⟨"CTRL", 0x0, 0x0, 1, 0, 1, [⟨"SQUELCH", 0, 0, .rws, 1⟩, ⟨"AUTO_ALIGN", 1, 1, .rws, 1⟩]⟩,
  ⟨"COMMIT", 0x4, 0x0, 1, 0, 1, [⟨"GO", 0, 0, .w1s, 0⟩, ⟨"VIEW", 1, 1, .rw, 0⟩, ⟨"PENDING", 2, 2, .ro, 0⟩,
    ⟨"DISCARD", 3, 3, .w1s, 0⟩, ⟨"REFUSED", 4, 4, .w1c, 0⟩, ⟨"COUNT", 31, 16, .ro, 0⟩]⟩,
  ⟨"STICKY", 0x8, 0x0, 1, 0, 1, [⟨"CFG_REFUSED", 0, 0, .w1c, 0⟩, ⟨"LOCK_LOST_A", 1, 1, .w1c, 0⟩, ⟨"LOCK_LOST_B", 2,
    2, .w1c, 0⟩, ⟨"ALIGN_LOST", 3, 3, .w1c, 0⟩, ⟨"ALIGN_DONE", 4, 4, .w1c, 0⟩, ⟨"PHASE_DONE", 5, 5, .w1c, 0⟩]⟩,
  ⟨"INT_EN", 0xC, 0x0, 1, 0, 1, [⟨"EN", 5, 0, .rw, 0xE⟩]⟩,
  ⟨"STAT", 0x10, 0x0, 1, 0, 1, [⟨"LOCK_A", 0, 0, .ro, 0⟩, ⟨"LOCK_B", 1, 1, .ro, 0⟩, ⟨"ALIGNED", 27, 16, .ro, 0⟩]⟩,
  ⟨"SDS_REF", 0x14, 0x0, 1, 0, 1, [⟨"DIV", 7, 0, .rws, 0x40⟩]⟩,
  ⟨"ALIGN_CTRL", 0x18, 0x0, 1, 0, 1, [⟨"GO", 0, 0, .w1s, 0⟩, ⟨"COUNT", 31, 16, .ro, 0⟩]⟩,
  ⟨"ALIGN_STAT", 0x1C, 0x0, 1, 0, 1, [⟨"WORST", 15, 0, .ro, 0⟩]⟩,
  ⟨"PLANE_CFG", 0x20, 0x4, 2, 0, 1, [⟨"EN", 0, 0, .rws, 0⟩, ⟨"BW", 2, 1, .rws, 1⟩, ⟨"INT", 11, 8, .rws, 0xA⟩]⟩,
  ⟨"PLANE_NUM", 0x28, 0x4, 2, 0, 1, [⟨"NUM", 23, 0, .rws, 0⟩]⟩,
  ⟨"PLANE_DEN", 0x30, 0x4, 2, 0, 1, [⟨"DEN", 23, 0, .rws, 1⟩]⟩,
  ⟨"PLANE_STAT", 0x38, 0x4, 2, 0, 1, [⟨"LOCK", 0, 0, .ro, 0⟩, ⟨"LOSSES", 31, 16, .ro, 0⟩]⟩,
  ⟨"OUT_CFG", 0x40, 0x10, 12, 0, 1, [⟨"EN", 0, 0, .rws, 0⟩, ⟨"FORMAT", 2, 1, .rws, 0⟩, ⟨"PLANE", 3, 3, .rws, 0⟩,
    ⟨"ALIGN_EN", 4, 4, .rws, 1⟩, ⟨"INV", 5, 5, .rws, 0⟩, ⟨"SWING", 9, 8, .rws, 1⟩]⟩,
  ⟨"OUT_DIV", 0x44, 0x10, 12, 0, 1, [⟨"DIV", 23, 0, .rws, 0x40⟩]⟩,
  ⟨"OUT_PHASE", 0x48, 0x10, 12, 0, 1, [⟨"PHASE", 31, 0, .rws, 0⟩]⟩,
  ⟨"OUT_STAT", 0x4C, 0x10, 12, 0, 1, [⟨"RUNNING", 0, 0, .ro, 0⟩, ⟨"ALIGNED", 1, 1, .ro, 0⟩, ⟨"WALKING", 2, 2, .ro,
    0⟩, ⟨"SQUELCHED", 3, 3, .ro, 0⟩, ⟨"RESTARTS", 31, 16, .ro, 0⟩]⟩]

/-- The CKO registers (06_grotto_and_clock_outputs.md). -/
def rows : List RegSpec := rows0

end CKO

namespace GRT

def CTRL : Nat := 0x60000
def CTRL_HEAT_EN : Fld := ⟨CTRL, 0, 1⟩
def STATE : Nat := 0x60004
def STATE_STATE : Fld := ⟨STATE, 0, 3⟩
def STATE_LO_ACTIVE : Fld := ⟨STATE, 4, 1⟩
def STATE_LOG_NEXT : Fld := ⟨STATE, 8, 4⟩
def STATE_CHANGES : Fld := ⟨STATE, 16, 16⟩
def STICKY : Nat := 0x60008
def STICKY_CFG_REFUSED : Fld := ⟨STICKY, 0, 1⟩
def STICKY_WARM : Fld := ⟨STICKY, 1, 1⟩
def STICKY_READY : Fld := ⟨STICKY, 2, 1⟩
def STICKY_READY_LOST : Fld := ⟨STICKY, 3, 1⟩
def STICKY_WARMING : Fld := ⟨STICKY, 4, 1⟩
def STICKY_VHTR_LOW : Fld := ⟨STICKY, 5, 1⟩
def STICKY_FAULT : Fld := ⟨STICKY, 6, 1⟩
def CAVITY_T : Nat := 0x60010
def AMBIENT_T : Nat := 0x60014
def VHTR_MV : Nat := 0x6001C
def STATE_TIME : Nat := 0x60020
def HEAT_TIME : Nat := 0x60024
def CAL_OFS : Nat := 0x60028
def CAL_TEMP : Nat := 0x6002C
def RUN_HOURS : Nat := 0x60030
def FAULTS : Nat := 0x60034
def STATE_LOG (n : Nat) : Nat := 0x60038 + 0x4 * n

def rows0 : List RegSpec := [
  ⟨"CTRL", 0x0, 0x0, 1, 0, 1, [⟨"HEAT_EN", 0, 0, .rw, 1⟩, ⟨"RETRY", 1, 1, .w1s, 0⟩]⟩,
  ⟨"STATE", 0x4, 0x0, 1, 0, 1, [⟨"STATE", 2, 0, .ro, 0⟩, ⟨"LO_ACTIVE", 4, 4, .ro, 0⟩, ⟨"LOG_NEXT", 11, 8, .ro, 0⟩,
    ⟨"CHANGES", 31, 16, .ro, 0⟩]⟩,
  ⟨"STICKY", 0x8, 0x0, 1, 0, 1, [⟨"CFG_REFUSED", 0, 0, .w1c, 0⟩, ⟨"WARM", 1, 1, .w1c, 0⟩, ⟨"READY", 2, 2, .w1c, 0⟩,
    ⟨"READY_LOST", 3, 3, .w1c, 0⟩, ⟨"WARMING", 4, 4, .w1c, 0⟩, ⟨"VHTR_LOW", 5, 5, .w1c, 0⟩, ⟨"FAULT", 6, 6, .w1c,
    0⟩]⟩,
  ⟨"INT_EN", 0xC, 0x0, 1, 0, 1, [⟨"EN", 6, 0, .rw, 0x7A⟩]⟩,
  ⟨"CAVITY_T", 0x10, 0x0, 1, 0, 1, [⟨"VAL", 31, 0, .ro, 0⟩]⟩,
  ⟨"AMBIENT_T", 0x14, 0x0, 1, 0, 1, [⟨"VAL", 31, 0, .ro, 0⟩]⟩,
  ⟨"HEATER_P", 0x18, 0x0, 1, 0, 1, [⟨"VAL", 31, 0, .ro, 0⟩]⟩,
  ⟨"VHTR_MV", 0x1C, 0x0, 1, 0, 1, [⟨"VAL", 31, 0, .ro, 0⟩]⟩,
  ⟨"STATE_TIME", 0x20, 0x0, 1, 0, 1, [⟨"VAL", 31, 0, .ro, 0⟩]⟩,
  ⟨"HEAT_TIME", 0x24, 0x0, 1, 0, 1, [⟨"VAL", 31, 0, .ro, 0⟩]⟩,
  ⟨"CAL_OFS", 0x28, 0x0, 1, 0, 1, [⟨"VAL", 31, 0, .ro, 0⟩]⟩,
  ⟨"CAL_TEMP", 0x2C, 0x0, 1, 0, 1, [⟨"VAL", 31, 0, .ro, 0⟩]⟩,
  ⟨"RUN_HOURS", 0x30, 0x0, 1, 0, 1, [⟨"VAL", 31, 0, .ro, 0⟩]⟩,
  ⟨"FAULTS", 0x34, 0x0, 1, 0, 1, [⟨"VAL", 31, 0, .ro, 0⟩]⟩,
  ⟨"STATE_LOG", 0x38, 0x4, 10, 0, 1, [⟨"FROM", 2, 0, .ro, 0⟩, ⟨"TO", 5, 3, .ro, 0⟩, ⟨"CAUSE", 8, 6, .ro, 0⟩,
    ⟨"SECONDS", 31, 16, .ro, 0⟩]⟩]

/-- The GRT registers (06_grotto_and_clock_outputs.md). -/
def rows : List RegSpec := rows0

end GRT

end Sys2Proof.Machine
end

