-- ==== Sys2Proof/Machine/Blocks.lean ====
section
/-! DEFINITION. The blocks on the register bus: base addresses (R502), target numbers (R33), where each block's
COMMIT, STICKY and INT_EN registers lie, and the row of the manual's tables that holds an address. -/

namespace Sys2Proof.Machine

/-- The base of a block in BAR0 (R502). -/
def Blk.base : Blk → Nat
  | .glb => 0x0
  | .fab => 0x10000
  | .tsc => 0x20000
  | .ref => 0x30000
  | .dsc => 0x40000
  | .cko => 0x50000
  | .grt => 0x60000
  | .gna => 0x70000
  | .gnc => 0x80000
  | .tdc => 0x90000
  | .evt => 0xA0000
  | .vid => 0xB0000
  | .prt p => 0x100000 + 0x10000 * p
  | .rsp => 0x300000
  | .ptp => 0x340000
  | .nts => 0x360000
  | .pke => 0x380000
  | .key => 0x390000
  | .hif => 0x3A0000
  | .seq => 0x3C0000
  | .fls => 0x3D0000
  | .pwr => 0x3E0000
  | .bst => 0x3E8000
  | .pmc => 0x3F0000
  | .twn => 0x3F8000

/-- The target number of a block (R33). -/
def Blk.target : Blk → Nat
  | .glb => 0
  | .fab => 1
  | .tsc => 2
  | .ref => 3
  | .dsc => 4
  | .cko => 5
  | .grt => 6
  | .gna => 7
  | .gnc => 8
  | .tdc => 9
  | .evt => 10
  | .vid => 11
  | .prt _ => 12
  | .rsp => 13
  | .ptp => 14
  | .nts => 15
  | .pke => 16
  | .key => 17
  | .hif => 18
  | .seq => 19
  | .fls => 20
  | .pwr => 21
  | .bst => 22
  | .pmc => 23
  | .twn => 24

/-- The register table of a block. -/
def Blk.rows : Blk → List RegSpec
  | .glb => GLB.rows
  | .fab => FAB.rows
  | .tsc => TSC.rows
  | .ref => REF.rows
  | .dsc => DSC.rows
  | .cko => CKO.rows
  | .grt => GRT.rows
  | .gna => GNA.rows
  | .gnc => GNC.rows
  | .tdc => TDC.rows
  | .evt => EVT.rows
  | .vid => VID.rows
  | .prt _ => PRT.rows
  | .rsp => RSP.rows
  | .ptp => PTP.rows
  | .nts => NTS.rows
  | .pke => PKE.rows
  | .key => KEY.rows
  | .hif => HIF.rows
  | .seq => SEQ.rows
  | .fls => FLS.rows
  | .pwr => PWR.rows
  | .bst => BST.rows
  | .pmc => PMC.rows
  | .twn => TWN.rows

/-- The block whose BAR0 range holds an address (R502); none in the unassigned ranges. -/
def blkAt (a : Nat) : Option Blk :=
  if a < 0xC0000 then
    match a / 0x10000 with
    | 0 => some .glb | 1 => some .fab | 2 => some .tsc | 3 => some .ref | 4 => some .dsc | 5 => some .cko
    | 6 => some .grt | 7 => some .gna | 8 => some .gnc | 9 => some .tdc | 10 => some .evt | _ => some .vid
  else if a < 0x100000 then none
  else if a < 0x300000 then some (.prt (a / 0x10000 - 0x10))
  else if a < 0x340000 then some .rsp
  else if a < 0x360000 then some .ptp
  else if a < 0x380000 then some .nts
  else if a < 0x390000 then some .pke
  else if a < 0x3A0000 then some .key
  else if a < 0x3B0000 then some .hif
  else if a < 0x3C0000 then none
  else if a < 0x3D0000 then some .seq
  else if a < 0x3D8000 then some .fls
  else if a < 0x3E0000 then none
  else if a < 0x3E8000 then some .pwr
  else if a < 0x3F0000 then some .bst
  else if a < 0x3F8000 then some .pmc
  else if a < 0x400000 then some .twn
  else none

/-- The block of a target number (R33); port `p` for target 12. -/
def blkOfTarget (t p : Nat) : Option Blk :=
  match t with
  | 0 => some .glb
  | 1 => some .fab
  | 2 => some .tsc
  | 3 => some .ref
  | 4 => some .dsc
  | 5 => some .cko
  | 6 => some .grt
  | 7 => some .gna
  | 8 => some .gnc
  | 9 => some .tdc
  | 10 => some .evt
  | 11 => some .vid
  | 12 => some (.prt p)
  | 13 => some .rsp
  | 14 => some .ptp
  | 15 => some .nts
  | 16 => some .pke
  | 17 => some .key
  | 18 => some .hif
  | 19 => some .seq
  | 20 => some .fls
  | 21 => some .pwr
  | 22 => some .bst
  | 23 => some .pmc
  | 24 => some .twn
  | _ => none

/-- The offset of a block's COMMIT register; none for GLB and GRT, which have no commit group. -/
def Blk.commitOff : Blk → Option Nat
  | .glb => none
  | .grt => none
  | .fab => some 0xC
  | .tsc => some 0x800
  | _ => some 0x4

/-- The offset of a block's STICKY register. -/
def Blk.stickyOff : Blk → Nat
  | .glb => 0x14
  | .fab => 0x4
  | .tsc => 0x804
  | _ => 0x8

/-- The address of a block's STICKY register. -/
def Blk.sticky (b : Blk) : Nat := b.base + b.stickyOff

/-- The address of a block's INT_EN register: it follows STICKY in every block. -/
def Blk.intEn (b : Blk) : Nat := b.base + b.stickyOff + 4

/-- The address of a block's COMMIT register (0, which is no COMMIT register, where there is none). -/
def Blk.commit (b : Blk) : Nat := match b.commitOff with | some o => b.base + o | none => 0

/-- The fields of a COMMIT register (R16). -/
def cmGO (b : Blk) : Fld := ⟨b.commit, 0, 1⟩
def cmVIEW (b : Blk) : Fld := ⟨b.commit, 1, 1⟩
def cmPENDING (b : Blk) : Fld := ⟨b.commit, 2, 1⟩
def cmREFUSED (b : Blk) : Fld := ⟨b.commit, 4, 1⟩
def cmCOUNT (b : Blk) : Fld := ⟨b.commit, 16, 16⟩

/-- The CFG_REFUSED sticky bit of a block: bit 0 of its STICKY register in every block. -/
def Blk.cfgRefused (b : Blk) : Fld := ⟨b.sticky, 0, 1⟩

/-- The row of the manual's register tables that holds a BAR0 address. -/
def rowAt (a : Nat) : Option RegSpec :=
  match blkAt a with
  | none => none
  | some b => findRow b.rows (a - b.base)

end Sys2Proof.Machine
end

