-- ==== Sys2Proof/Config.lean ====
section
/-! DEFINITION. What an implementation fixes and what the manual leaves open: opaque constants with no body, so
that no proof can lean on a value the manual does not give. A free value is one of them applied to the free-value
counter of the state (`freeCtr`) or to the operands it depends on. -/

namespace Sys2Proof.Config

/-- A free value: whatever the manual leaves open, drawn anew at every use (the argument is the state's
free-value counter). -/
opaque free : Nat → Nat

/-- The on-chip random source (R240, R271, R289, R400): the n-th draw. -/
opaque random : Nat → Nat

/-- The 128-bit unique serial number, word n (fused, R53's `GLB.SERIAL`). -/
opaque fusedSerial : Nat → Nat

/-- What calibration image kind 7 gives for item n (its contents are the factory's, R63). -/
opaque calImage : Nat → Nat

/-- The fused secret the device key is derived from (R395). -/
opaque deviceKey : Nat

/-- The SHA-384 of the public key that images are signed with, in fuses (R64, R384), as one big-endian number. -/
opaque signerHash : Nat

end Sys2Proof.Config
end

