-- ==== Sys2Proof/Machine/Crypto.lean ====
section
/-! DEFINITION. The ciphers and digests the manual names: AES-128 and AES-256 (FIPS 197), CMAC and AES-SIV (RFC 4493,
RFC 5297; AEAD 15 of R289), AES-GCM (R286, R399), SHA-256 and SHA-512 (R395, R399, R412). Pure functions of bytes. -/

namespace Sys2Proof.Machine

/-! ### AES -/

def xtime (b : Byte) : Byte := (b <<< 1) ^^^ (if b.msb then 0x1B#8 else 0#8)

/-- Multiplication in GF(2^8). -/
def gmulFuel : Nat → Byte → Byte → Byte
  | 0, _, _ => 0
  | n + 1, a, b => (if b.getLsbD 0 then a else 0#8) ^^^ gmulFuel n (xtime a) (b >>> 1)
def gmul (a b : Byte) : Byte := gmulFuel 8 a b

/-- The inverse in GF(2^8), a^254; 0 for 0. -/
def ginv (a : Byte) : Byte :=
  let a2 := gmul a a
  let a4 := gmul a2 a2
  let a8 := gmul a4 a4
  let a16 := gmul a8 a8
  let a32 := gmul a16 a16
  let a64 := gmul a32 a32
  let a128 := gmul a64 a64
  gmul a128 (gmul a64 (gmul a32 (gmul a16 (gmul a8 (gmul a4 a2)))))

def subByte (a : Byte) : Byte :=
  let x := ginv a
  x ^^^ x.rotateLeft 1 ^^^ x.rotateLeft 2 ^^^ x.rotateLeft 3 ^^^ x.rotateLeft 4 ^^^ 0x63#8

def xorBytes (a b : List Byte) : List Byte := List.zipWith (· ^^^ ·) a b

def rconOf : Nat → Byte
  | 0 => 1
  | n + 1 => xtime (rconOf n)

/-- The next word of the key schedule, from the words made so far, newest first. -/
def nextWord (nk i : Nat) (ws : List (List Byte)) : List Byte :=
  let prev := ws.headD []
  let old := ws.getD (nk - 1) []
  let t :=
    if i % nk = 0 then
      let r := ((prev.drop 1) ++ prev.take 1).map subByte
      match r with | a :: b => (a ^^^ rconOf (i / nk - 1)) :: b | [] => []
    else if nk = 8 ∧ i % nk = 4 then prev.map subByte
    else prev
  xorBytes old t

def schedule : Nat → Nat → Nat → List (List Byte) → List (List Byte)
  | 0, _, _, ws => ws
  | n + 1, nk, i, ws => schedule n nk (i + 1) (nextWord nk i ws :: ws)

/-- A byte string cut into pieces of `n`. -/
def chunks (n : Nat) : Nat → List Byte → List (List Byte)
  | 0, _ => []
  | fuel + 1, l => if l.isEmpty then [] else l.take n :: chunks n fuel (l.drop n)

def blocks16 (l : List Byte) : List (List Byte) := chunks 16 (l.length / 16 + 1) l

/-- The round keys of a 16- or 32-byte key. -/
def roundKeys (key : List Byte) : List (List Byte) :=
  let nk := key.length / 4
  let total := 4 * (nk + 7)
  let ws := schedule (total - nk) nk nk (chunks 4 nk key).reverse
  blocks16 ws.reverse.flatten

/-- Row shifts of a state held by columns. -/
def shiftRows (s : List Byte) : List Byte := (List.range 16).map (fun i => s.getD ((i + 4 * (i % 4)) % 16) 0)

def mixCol (c : List Byte) : List Byte :=
  let f := fun i => c.getD (i % 4) 0
  (List.range 4).map (fun i => gmul 2 (f i) ^^^ gmul 3 (f (i + 1)) ^^^ f (i + 2) ^^^ f (i + 3))

def aesRounds : List (List Byte) → List Byte → List Byte
  | [], s => s
  | [k], s => xorBytes (shiftRows (s.map subByte)) k
  | k :: r, s => aesRounds r (xorBytes ((chunks 4 4 (shiftRows (s.map subByte))).flatMap mixCol) k)

/-- AES of one block under a 128- or 256-bit key. -/
def aes (key block : List Byte) : List Byte :=
  match roundKeys key with
  | [] => block
  | k :: r => aesRounds r (xorBytes block k)

/-! ### CMAC and SIV -/

/-- A 16-byte block as a number, first byte most significant, and back. -/
def blockNat (b : List Byte) : Nat := b.foldl (fun a x => a * 256 + x.toNat) 0
def natBlock (n x : Nat) : List Byte := (leBytes n x).reverse

def dbl128 (x : Nat) : Nat := (2 * x) % 2 ^ 128 ^^^ (if 2 ^ 127 ≤ x then 0x87 else 0)
def pad128 (l : List Byte) : List Byte := (l ++ 0x80#8 :: zeros 16).take 16

def cmacFold (key : List Byte) : List Byte → List (List Byte) → List Byte
  | acc, [] => acc
  | acc, b :: r => cmacFold key (aes key (xorBytes acc b)) r

def cmac (key m : List Byte) : List Byte :=
  let k1 := dbl128 (blockNat (aes key (zeros 16)))
  let bs := blocks16 m
  let last := bs.getLastD []
  let z := if last.length = 16 then xorBytes last (natBlock 16 k1) else xorBytes (pad128 last) (natBlock 16 (dbl128 k1))
  cmacFold key (zeros 16) (bs.dropLast ++ [z])

/-- Counter blocks from a first one, `inc` stepping the counter. -/
def ctrBlocks (key : List Byte) (inc : Nat → Nat) : Nat → Nat → List Byte
  | 0, _ => []
  | n + 1, c => aes key (natBlock 16 c) ++ ctrBlocks key inc n (inc c)

def ctrMode (key : List Byte) (inc : Nat → Nat) (first : Nat) (p : List Byte) : List Byte :=
  xorBytes p (ctrBlocks key inc ((p.length + 15) / 16) first)

/-- S2V over the associated data, the nonce and the plaintext. -/
def s2v (key : List Byte) (ads : List (List Byte)) (p : List Byte) : List Byte :=
  let d := ads.foldl (fun d a => dbl128 d ^^^ blockNat (cmac key a)) (blockNat (cmac key (zeros 16)))
  let t := if 16 ≤ p.length then
      p.take (p.length - 16) ++ xorBytes (p.drop (p.length - 16)) (natBlock 16 d)
    else xorBytes (natBlock 16 (dbl128 d)) (pad128 p)
  cmac key t

def sivStart (v : List Byte) : Nat := blockNat v &&& (2 ^ 128 - 1 - 2 ^ 63 - 2 ^ 31)

/-- AES-SIV-CMAC-256 (AEAD 15): the SIV, then the ciphertext. -/
def sivSeal (key ad nonce p : List Byte) : List Byte :=
  let v := s2v (key.take 16) [ad, nonce] p
  v ++ ctrMode (key.drop 16) (fun c => (c + 1) % 2 ^ 128) (sivStart v) p

/-- The plaintext, where the SIV is right. -/
def sivOpen (key ad nonce c : List Byte) : Option (List Byte) :=
  let v := c.take 16
  let p := ctrMode (key.drop 16) (fun c => (c + 1) % 2 ^ 128) (sivStart v) (c.drop 16)
  if s2v (key.take 16) [ad, nonce] p = v then some p else none

/-! ### GCM -/

/-- Multiplication in GF(2^128) as GCM numbers it: bit 127 is the coefficient of 1. -/
def ghMulFuel : Nat → Nat → Nat → Nat → Nat
  | 0, _, _, z => z
  | n + 1, x, v, z =>
    ghMulFuel n x (if v % 2 = 1 then (v / 2) ^^^ (0xE1 * 2 ^ 120) else v / 2) (if bitAt x n then z ^^^ v else z)
def ghMul (x y : Nat) : Nat := ghMulFuel 128 x y 0

def pad16 (l : List Byte) : List Byte := l ++ zeros ((16 - l.length % 16) % 16)
def ghash (h : Nat) (m : List Byte) : Nat := (blocks16 m).foldl (fun y b => ghMul (y ^^^ blockNat b) h) 0
def ghLens (a c : Nat) : List Byte := natBlock 8 (8 * a) ++ natBlock 8 (8 * c)

/-- J0: a 96-bit IV is used as it is, any other goes through GHASH. -/
def gcmJ0 (h : Nat) (iv : List Byte) : Nat :=
  if iv.length = 12 then blockNat (iv ++ [0, 0, 0, 1]) else ghash h (pad16 iv ++ ghLens 0 iv.length)

def inc32 (c : Nat) : Nat := c / 2 ^ 32 * 2 ^ 32 + (c + 1) % 2 ^ 32

def gcmTag (key : List Byte) (h j0 : Nat) (ad c : List Byte) : List Byte :=
  xorBytes (natBlock 16 (ghash h (pad16 ad ++ pad16 c ++ ghLens ad.length c.length))) (aes key (natBlock 16 j0))

/-- Ciphertext, then the whole 16-byte tag. -/
def gcmSeal (key iv ad p : List Byte) : List Byte :=
  let h := blockNat (aes key (zeros 16))
  let j0 := gcmJ0 h iv
  let c := ctrMode key inc32 (inc32 j0) p
  c ++ gcmTag key h j0 ad c

/-- The plaintext, where the tag's leading bytes, as many as are given, are right. -/
def gcmOpen (key iv ad c tag : List Byte) : Option (List Byte) :=
  let h := blockNat (aes key (zeros 16))
  let j0 := gcmJ0 h iv
  if (gcmTag key h j0 ad c).take tag.length = tag then some (ctrMode key inc32 (inc32 j0) c) else none

/-! ### SHA-2 -/

/-- The first `n` primes above `i`, by trial division. -/
def primesFrom : Nat → Nat → Nat → List Nat
  | 0, _, _ => []
  | fuel + 1, n, i =>
    if n = 0 then []
    else if (List.range (i - 2)).all (fun d => i % (d + 2) != 0) then i :: primesFrom fuel (n - 1) (i + 1)
    else primesFrom fuel n (i + 1)

/-- The integer `k`-th root of `x`, by bisection from bit `n` down. -/
def rootBits (k x : Nat) : Nat → Nat → Nat
  | 0, r => r
  | n + 1, r => rootBits k x n (if (r + 2 ^ n) ^ k ≤ x then r + 2 ^ n else r)

/-- The first `w` bits of the fractional part of the square (k = 2) or cube (k = 3) root of `p`. -/
def rootFrac (k w p : Nat) : Nat := rootBits k (p * 2 ^ (k * w)) (w + 5) 0 % 2 ^ w

structure Sha where
  w : Nat
  rounds : Nat
  big : List Nat
  small : List Nat
  k : List Nat
  h0 : List Nat

def sha256P : Sha :=
  let p := primesFrom 400 64 2
  ⟨32, 64, [2, 13, 22, 6, 11, 25], [7, 18, 3, 17, 19, 10], p.map (rootFrac 3 32), (p.take 8).map (rootFrac 2 32)⟩
def sha512P : Sha :=
  let p := primesFrom 500 80 2
  ⟨64, 80, [28, 34, 39, 14, 18, 41], [1, 8, 7, 19, 61, 6], p.map (rootFrac 3 64), (p.take 8).map (rootFrac 2 64)⟩

def rotr (w n x : Nat) : Nat := (x >>> n ||| x <<< (w - n)) % 2 ^ w

def shaSched (s : Sha) : Nat → List Nat → List Nat
  | 0, l => l
  | n + 1, l =>
    let a := l.getD 14 0
    let b := l.getD 1 0
    let g := fun i => s.small.getD i 0
    let s0 := rotr s.w (g 0) a ^^^ rotr s.w (g 1) a ^^^ a >>> g 2
    let s1 := rotr s.w (g 3) b ^^^ rotr s.w (g 4) b ^^^ b >>> g 5
    shaSched s n ((l.getD 15 0 + s0 + l.getD 6 0 + s1) % 2 ^ s.w :: l)

def shaRound (s : Sha) (v : List Nat) (kw : Nat × Nat) : List Nat :=
  let g := fun i => s.big.getD i 0
  let x := fun i => v.getD i 0
  let m := 2 ^ s.w
  let e := x 4
  let a := x 0
  let s1 := rotr s.w (g 3) e ^^^ rotr s.w (g 4) e ^^^ rotr s.w (g 5) e
  let ch := (e &&& x 5) ^^^ ((m - 1 - e) &&& x 6)
  let t1 := x 7 + s1 + ch + kw.1 + kw.2
  let s0 := rotr s.w (g 0) a ^^^ rotr s.w (g 1) a ^^^ rotr s.w (g 2) a
  let mj := (a &&& x 1) ^^^ (a &&& x 2) ^^^ (x 1 &&& x 2)
  [(t1 + s0 + mj) % m, a, x 1, x 2, (x 3 + t1) % m, e, x 5, x 6]

def shaBlock (s : Sha) (h : List Nat) (b : List Byte) : List Nat :=
  let ws := (chunks (s.w / 8) 16 b).map blockNat
  let sched := (shaSched s (s.rounds - 16) ws.reverse).reverse
  List.zipWith (fun a c => (a + c) % 2 ^ s.w) h ((s.k.zip sched).foldl (shaRound s) h)

def shaOf (s : Sha) (m : List Byte) : List Byte :=
  let bl := 2 * s.w
  let ln := s.w / 4
  let z := (2 * bl - (m.length + 1 + ln) % bl) % bl
  let p := m ++ 0x80#8 :: zeros z ++ natBlock ln (8 * m.length)
  ((chunks bl (p.length / bl + 1) p).foldl (shaBlock s) s.h0).flatMap (natBlock (s.w / 8))

def sha256 (m : List Byte) : List Byte := shaOf sha256P m
def sha512 (m : List Byte) : List Byte := shaOf sha512P m

/-- SHA-384: SHA-512 from the square roots of the ninth to the sixteenth prime, cut to 48 bytes. -/
def sha384P : Sha := { sha512P with h0 := ((primesFrom 500 16 2).drop 8).map (rootFrac 2 64) }
def sha384 (m : List Byte) : List Byte := (shaOf sha384P m).take 48

end Sys2Proof.Machine
end

