-- ==== Sys2Proof/Machine/Curve.lean ====
section
/-! DEFINITION. The arithmetic of the public-key functions (R409 to R415): modular powers and inverses, primality, short
Weierstrass curves with ECDSA and ECDH, X25519 (RFC 7748), Ed25519 (RFC 8032) and RSA. Pure functions of numbers. -/

namespace Sys2Proof.Machine

/-! ### Modular arithmetic -/

def powModFuel : Nat → Nat → Nat → Nat → Nat → Nat
  | 0, _, _, _, acc => acc
  | n + 1, b, e, m, acc => powModFuel n (b * b % m) (e / 2) m (if e % 2 = 1 then acc * b % m else acc)
/-- b^e mod m. -/
def powMod (b e m : Nat) : Nat := powModFuel (Nat.log2 e + 1) (b % m) e m (1 % m)

def egcd : Nat → Int → Int → Int → Int → Int
  | 0, _, _, x, _ => x
  | n + 1, a, b, x, y => if b = 0 then x else egcd n b (a % b) y (x - (a / b) * y)
/-- The inverse of a modulo m, where there is one. -/
def invMod (a m : Nat) : Nat := (egcd (2 * Nat.log2 m + 4) (a % m : Nat) m 1 0 % (m : Int)).toNat

/-- a − b mod m. -/
def subMod (a b m : Nat) : Nat := (a + (m - b % m)) % m

/-- One Miller–Rabin round of an odd n with a base. -/
def mrTry (n a : Nat) : Nat → Nat → Bool
  | 0, _ => false
  | k + 1, x => x == n - 1 || mrTry n a k (x * x % n)
def oddPart : Nat → Nat → Nat
  | 0, d => d
  | k + 1, d => if d % 2 = 0 then oddPart k (d / 2) else d
def mrRound (n a : Nat) : Bool :=
  let d := oddPart (Nat.log2 n + 1) (n - 1)
  let r := Nat.log2 ((n - 1) / d)
  let x := powMod a d n
  x == 1 || mrTry n a r x

/-- n passes a round for each of the bases. -/
def isPrime (n : Nat) (bases : List Nat) : Bool :=
  n == 2 || n == 3 || (decide (3 < n) && n % 2 == 1 && bases.all (fun b => mrRound n (2 + b % (n - 3))))

/-- Parameter `j` (0 p, 1 a, 2 b, 3 Gx, 4 Gy, 5 n, 6 h, 7 BITS) of a built-in curve (R409).
PRESUMED: the manual names the curves; their numbers are those of FIPS 186-4 and RFC 7748 (log entry 12). -/
def builtinCurve (c j : Nat) : Nat :=
  match c, j with
  | 0, 0 => 0xFFFFFFFF00000001000000000000000000000000FFFFFFFFFFFFFFFFFFFFFFFF
  | 0, 1 => 0xFFFFFFFF00000001000000000000000000000000FFFFFFFFFFFFFFFFFFFFFFFC
  | 0, 2 => 0x5AC635D8AA3A93E7B3EBBD55769886BC651D06B0CC53B0F63BCE3C3E27D2604B
  | 0, 3 => 0x6B17D1F2E12C4247F8BCE6E563A440F277037D812DEB33A0F4A13945D898C296
  | 0, 4 => 0x4FE342E2FE1A7F9B8EE7EB4A7C0F9E162BCE33576B315ECECBB6406837BF51F5
  | 0, 5 => 0xFFFFFFFF00000000FFFFFFFFFFFFFFFFBCE6FAADA7179E84F3B9CAC2FC632551
  | 0, 6 => 1
  | 0, 7 => 0x100
  | 1, 0 => 0xFFFFFFFFFFFFFFFFFFFFFFFFFFFFFFFFFFFFFFFFFFFFFFFFFFFFFFFFFFFFFFFEFFFFFFFF0000000000000000FFFFFFFF
  | 1, 1 => 0xFFFFFFFFFFFFFFFFFFFFFFFFFFFFFFFFFFFFFFFFFFFFFFFFFFFFFFFFFFFFFFFEFFFFFFFF0000000000000000FFFFFFFC
  | 1, 2 => 0xB3312FA7E23EE7E4988E056BE3F82D19181D9C6EFE8141120314088F5013875AC656398D8A2ED19D2A85C8EDD3EC2AEF
  | 1, 3 => 0xAA87CA22BE8B05378EB1C71EF320AD746E1D3B628BA79B9859F741E082542A385502F25DBF55296C3A545E3872760AB7
  | 1, 4 => 0x3617DE4A96262C6F5D9E98BF9292DC29F8F41DBD289A147CE9DA3113B5F0B8C00A60B1CE1D7E819D7A431D7C90EA0E5F
  | 1, 5 => 0xFFFFFFFFFFFFFFFFFFFFFFFFFFFFFFFFFFFFFFFFFFFFFFFFC7634D81F4372DDF581A0DB248B0A77AECEC196ACCC52973
  | 1, 6 => 1
  | 1, 7 => 0x180
  | 2, 0 => 0x1FFFFFFFFFFFFFFFFFFFFFFFFFFFFFFFFFFFFFFFFFFFFFFFFFFFFFFFFFFFFFFFFFFFFFFFFFFFFFFFFFFFFFFFFFFFFFFFFFFFFFFFFFFFFFFFFFFFFFFFFFFFFFFFFFF
  | 2, 1 => 0x1FFFFFFFFFFFFFFFFFFFFFFFFFFFFFFFFFFFFFFFFFFFFFFFFFFFFFFFFFFFFFFFFFFFFFFFFFFFFFFFFFFFFFFFFFFFFFFFFFFFFFFFFFFFFFFFFFFFFFFFFFFFFFFFFFC
  | 2, 2 => 0x51953EB9618E1C9A1F929A21A0B68540EEA2DA725B99B315F3B8B489918EF109E156193951EC7E937B1652C0BD3BB1BF073573DF883D2C34F1EF451FD46B503F00
  | 2, 3 => 0xC6858E06B70404E9CD9E3ECB662395B4429C648139053FB521F828AF606B4D3DBAA14B5E77EFE75928FE1DC127A2FFA8DE3348B3C1856A429BF97E7E31C2E5BD66
  | 2, 4 => 0x11839296A789A3BC0045C8A5FB42C7D1BD998F54449579B446817AFBD17273E662C97EE72995EF42640C550B9013FAD0761353C7086A272C24088BE94769FD16650
  | 2, 5 => 0x1FFFFFFFFFFFFFFFFFFFFFFFFFFFFFFFFFFFFFFFFFFFFFFFFFFFFFFFFFFFFFFFFFA51868783BF2F966B7FCC0148F709A5D03BB5C9B8899C47AEBB6FB71E91386409
  | 2, 6 => 1
  | 2, 7 => 0x209
  | 3, 0 => 0x7FFFFFFFFFFFFFFFFFFFFFFFFFFFFFFFFFFFFFFFFFFFFFFFFFFFFFFFFFFFFFED
  | 3, 1 => 0x76D06
  | 3, 2 => 1
  | 3, 3 => 9
  | 3, 4 => 0x20AE19A1B8A086B4E01EDD2C7748D14C923D4D7E6D7C61B229E9C5A27ECED3D9
  | 3, 5 => 0x1000000000000000000000000000000014DEF9DEA2F79CD65812631A5CF5D3ED
  | 3, 6 => 8
  | 3, 7 => 0xFF
  | 4, 0 => 0x7FFFFFFFFFFFFFFFFFFFFFFFFFFFFFFFFFFFFFFFFFFFFFFFFFFFFFFFFFFFFFED
  | 4, 1 => 0x7FFFFFFFFFFFFFFFFFFFFFFFFFFFFFFFFFFFFFFFFFFFFFFFFFFFFFFFFFFFFFEC
  | 4, 2 => 0x52036CEE2B6FFE738CC740797779E89800700A4D4141D8AB75EB4DCA135978A3
  | 4, 3 => 0x216936D3CD6E53FEC0A4E231FDD6DC5C692CC7609525A7B2C9562D608F25D51A
  | 4, 4 => 0x6666666666666666666666666666666666666666666666666666666666666658
  | 4, 5 => 0x1000000000000000000000000000000014DEF9DEA2F79CD65812631A5CF5D3ED
  | 4, 6 => 8
  | 4, 7 => 0xFF
  | _, _ => 0

/-! ### Short Weierstrass curves -/

/-- A curve y² = x³ + ax + b over p, with base point, order and cofactor. -/
structure Curve where
  p : Nat
  a : Nat
  b : Nat
  gx : Nat
  gy : Nat
  n : Nat
  h : Nat
  bits : Nat
  deriving DecidableEq, Repr

/-- A point; none is the point at infinity. -/
abbrev Pt := Option (Nat × Nat)

def Curve.on (c : Curve) (x y : Nat) : Bool :=
  decide (x < c.p) && decide (y < c.p) && y * y % c.p == (x * x * x + c.a * x + c.b) % c.p

def Curve.add (c : Curve) (s t : Pt) : Pt :=
  match s, t with
  | none, q => q
  | q, none => q
  | some (x1, y1), some (x2, y2) =>
    if x1 = x2 then
      if (y1 + y2) % c.p = 0 then none
      else
        let l := (3 * x1 * x1 + c.a) * invMod (2 * y1) c.p % c.p
        let x := subMod (subMod (l * l) x1 c.p) x2 c.p
        some (x, subMod (l * subMod x1 x c.p) y1 c.p)
    else
      let l := subMod y2 y1 c.p * invMod (subMod x2 x1 c.p) c.p % c.p
      let x := subMod (subMod (l * l) x1 c.p) x2 c.p
      some (x, subMod (l * subMod x1 x c.p) y1 c.p)

def Curve.mulFuel (c : Curve) : Nat → Nat → Pt → Pt → Pt
  | 0, _, _, acc => acc
  | n + 1, k, q, acc => Curve.mulFuel c n (k / 2) (c.add q q) (if k % 2 = 1 then c.add acc q else acc)
def Curve.mul (c : Curve) (k : Nat) (q : Pt) : Pt := c.mulFuel (Nat.log2 k + 1) k q none
def Curve.base (c : Curve) : Pt := some (c.gx, c.gy)

/-- Byte lengths of p and of n. -/
def byteLen (x : Nat) : Nat := (Nat.log2 x + 8) / 8
def Curve.lp (c : Curve) : Nat := byteLen c.p
def Curve.ln (c : Curve) : Nat := byteLen c.n

/-- The number a hash stands for: its leftmost bits, as many as n has. -/
def Curve.hashNat (c : Curve) (h : List Byte) : Nat := blockNat h / 2 ^ (8 * h.length - (Nat.log2 c.n + 1))

/-- ECDSA with nonce k; none where r or s is 0. -/
def Curve.sign (c : Curve) (d k : Nat) (h : List Byte) : Option (Nat × Nat) :=
  match c.mul k c.base with
  | none => none
  | some (x, _) =>
    let r := x % c.n
    let s := invMod k c.n * (c.hashNat h + r * d) % c.n
    if r = 0 ∨ s = 0 then none else some (r, s)

def Curve.verify (c : Curve) (qx qy r s : Nat) (h : List Byte) : Bool :=
  let w := invMod s c.n
  match c.add (c.mul (c.hashNat h * w % c.n) c.base) (c.mul (r * w % c.n) (some (qx, qy))) with
  | none => false
  | some (x, _) => x % c.n == r

/-- The seven conditions of CURVE_CHECK (R410). -/
def Curve.sane (c : Curve) (bases : List Nat) : Bool :=
  let m := c.p + 1
  let t : Int := (c.h * c.n : Nat) - (m : Nat)
  decide (160 ≤ c.bits) && decide (c.bits ≤ 576) && c.p % 2 == 1 && Nat.log2 c.p + 1 == c.bits
    && isPrime c.p bases && isPrime c.n bases
    && decide (c.a < c.p) && decide (c.b < c.p) && decide (c.gx < c.p) && decide (c.gy < c.p)
    && (4 * c.a * c.a * c.a + 27 * c.b * c.b) % c.p != 0
    && c.on c.gx c.gy && (c.mul c.n c.base).isNone
    && decide (t * t ≤ 4 * (c.p : Int))

/-- A built-in curve. -/
def stdCurve (c : Nat) : Curve :=
  ⟨builtinCurve c 0, builtinCurve c 1, builtinCurve c 2, builtinCurve c 3, builtinCurve c 4, builtinCurve c 5, builtinCurve c 6,
    builtinCurve c 7⟩

/-- The device key's scalar, a P-384 private key (R395). -/
def devScalar : Nat := 1 + Config.deviceKey % ((stdCurve 1).n - 1)
/-- x‖y of a point, each coordinate in n bytes. -/
def ptBytes (n : Nat) (q : Pt) : List Byte := match q with | some (x, y) => natBlock n x ++ natBlock n y | none => zeros (2 * n)
def devPublic : Pt := (stdCurve 1).mul devScalar (stdCurve 1).base
/-- `KEY.DEVKEY_ID`: the first 32 bits of SHA-256 over the device key's public point, first byte in bits [7:0]. -/
def devKeyId : Nat := leNat ((sha256 (ptBytes 48 devPublic)).take 4)

/-! ### X25519 (RFC 7748) -/

def p25519 : Nat := 2 ^ 255 - 19

/-- One step of the Montgomery ladder for a bit of the scalar. -/
def ladderStep (u : Nat) (st : Nat × Nat × Nat × Nat × Bool) (bit : Bool) : Nat × Nat × Nat × Nat × Bool :=
  let p := p25519
  let sw := st.2.2.2.2 != bit
  let x2 := if sw then st.2.2.1 else st.1
  let z2 := if sw then st.2.2.2.1 else st.2.1
  let x3 := if sw then st.1 else st.2.2.1
  let z3 := if sw then st.2.1 else st.2.2.2.1
  let a := (x2 + z2) % p
  let aa := a * a % p
  let b := subMod x2 z2 p
  let bb := b * b % p
  let e := subMod aa bb p
  let da := subMod x3 z3 p * a % p
  let cb := (x3 + z3) * b % p
  let y := (da + cb) % p
  let w := subMod da cb p
  (aa * bb % p, e * ((aa + 121665 * e) % p) % p, y * y % p, u * (w * w % p) % p, bit)

def x25519 (k u : List Byte) : List Byte :=
  let kn := leNat (fit 32 k)
  let clamp := (kn / 8 * 8) % 2 ^ 254 + 2 ^ 254
  let x1 := leNat (fit 32 u) % 2 ^ 255 % p25519
  let r := ((List.range 255).reverse.map (bitAt clamp)).foldl (ladderStep x1) (1, 0, x1, 1, false)
  let x := if r.2.2.2.2 then r.2.2.1 else r.1
  let z := if r.2.2.2.2 then r.2.2.2.1 else r.2.1
  leBytes 32 (x * powMod z (p25519 - 2) p25519 % p25519)

/-! ### Ed25519 (RFC 8032) -/

def edL : Nat := 2 ^ 252 + 27742317777372353535851937790883648493
def edD : Nat := subMod 0 (121665 * invMod 121666 p25519) p25519

/-- Addition of affine points on the twisted Edwards curve. -/
def edAdd (s t : Nat × Nat) : Nat × Nat :=
  let p := p25519
  let m := edD * (s.1 * t.1 % p) % p * (s.2 * t.2 % p) % p
  ((s.1 * t.2 + t.1 * s.2) % p * invMod (1 + m) p % p, (s.2 * t.2 + s.1 * t.1) % p * invMod (subMod 1 m p) p % p)

def edMulFuel : Nat → Nat → Nat × Nat → Nat × Nat → Nat × Nat
  | 0, _, _, acc => acc
  | n + 1, k, q, acc => edMulFuel n (k / 2) (edAdd q q) (if k % 2 = 1 then edAdd acc q else acc)
def edMul (k : Nat) (q : Nat × Nat) : Nat × Nat := edMulFuel (Nat.log2 k + 1) k q (0, 1)

def edY : Nat := 4 * invMod 5 p25519 % p25519

/-- The x of a y with the sign asked for, where the point is on the curve. -/
def edX (y sign : Nat) : Option Nat :=
  let p := p25519
  let u := subMod (y * y) 1 p
  let v := (edD * (y * y % p) + 1) % p
  let w := u * invMod v p % p
  let x0 := powMod w ((p + 3) / 8) p
  let x1 := if x0 * x0 % p = w then x0 else x0 * powMod 2 ((p - 1) / 4) p % p
  if p ≤ y ∨ x1 * x1 % p ≠ w ∨ (x1 = 0 ∧ sign = 1) then none
  else some (if x1 % 2 = sign then x1 else p - x1)

def edBase : Nat × Nat := ((edX edY 0).getD 0, edY)
def edEncode (q : Nat × Nat) : List Byte := leBytes 32 (q.2 + 2 ^ 255 * (q.1 % 2))
def edDecode (b : List Byte) : Option (Nat × Nat) :=
  let n := leNat (fit 32 b)
  let y := n % 2 ^ 255
  match edX y (n / 2 ^ 255) with | some x => some (x, y) | none => none

def edScalar (seed : List Byte) : Nat := (leNat ((sha512 seed).take 32) / 8 * 8) % 2 ^ 254 + 2 ^ 254
def edPub (seed : List Byte) : List Byte := edEncode (edMul (edScalar seed) edBase)

def edSign (seed m : List Byte) : List Byte :=
  let r := leNat (sha512 ((sha512 seed).drop 32 ++ m)) % edL
  let rb := edEncode (edMul r edBase)
  let k := leNat (sha512 (rb ++ edPub seed ++ m)) % edL
  rb ++ leBytes 32 ((r + k * edScalar seed) % edL)

/-- The signature equation; A and R must decode and S lie below the order. -/
def edVerify (a sig m : List Byte) : Bool :=
  match edDecode a, edDecode (sig.take 32) with
  | some q, some r =>
    let s := leNat (sig.drop 32)
    let k := leNat (sha512 (sig.take 32 ++ a ++ m)) % edL
    decide (s < edL) && edMul s edBase == edAdd r (edMul k q)
  | _, _ => false

/-! ### RSA -/

/-- x^d mod n by the Chinese remainder theorem. -/
def rsaCrt (p q dp dq qinv x : Nat) : Nat :=
  let m1 := powMod x dp p
  let m2 := powMod x dq q
  m2 + q * (qinv * subMod m1 m2 p % p)

end Sys2Proof.Machine
end

