-- ==== Sys2Proof/Machine/Store.lean ====
section
/-! DEFINITION. A sparse table in one canonical form: keys strictly rising, and no entry equal to what an
unlisted key reads as. The register bank, the shadows, host memory and every numbered table of the engine
(timescales, rings, ledger instances and so on) are held in it, so equal tables are equal data. -/

namespace Sys2Proof.Machine

/-- A sparse table from numbers to values. -/
abbrev Store (α : Type) := List (Nat × α)

/-- The value at key `k`; an unlisted key reads as `d k`. -/
def Store.get {α : Type} (d : Nat → α) : Store α → Nat → α
  | [], k => d k
  | (a, v) :: r, k => if a = k then v else if k < a then d k else Store.get d r k

/-- The table with `v` at key `k`; writing what an unlisted key reads as removes the entry. -/
def Store.put {α : Type} [DecidableEq α] (d : Nat → α) : Store α → Nat → α → Store α
  | [], k, v => if v = d k then [] else [(k, v)]
  | (a, w) :: r, k, v =>
    if a = k then (if v = d k then r else (k, v) :: r)
    else if k < a then (if v = d k then (a, w) :: r else (k, v) :: (a, w) :: r)
    else (a, w) :: Store.put d r k v

/-- Canonical form above a bound: every key is at least `lo`, keys rise strictly, and no entry holds the
default of its key. -/
def Store.wfFrom {α : Type} [DecidableEq α] (d : Nat → α) : Nat → Store α → Bool
  | _, [] => true
  | lo, (a, v) :: r => decide (lo ≤ a) && decide (v ≠ d a) && Store.wfFrom d (a + 1) r

/-- Canonical form. -/
def Store.wf {α : Type} [DecidableEq α] (d : Nat → α) (m : Store α) : Bool := Store.wfFrom d 0 m

/-- Keys alone: they rise strictly. -/
def Store.rising {α : Type} (m : Store α) : Prop := List.Pairwise (fun a b => a.1 < b.1) m

/-- Read-modify-write of one entry. -/
def Store.upd {α : Type} [DecidableEq α] (d : Nat → α) (m : Store α) (k : Nat) (f : α → α) : Store α :=
  Store.put d m k (f (Store.get d m k))

/-- The table without the keys that satisfy `p`: those keys read as their default again. -/
def Store.drop {α : Type} (p : Nat → Bool) (m : Store α) : Store α := m.filter (fun e => !p e.1)

end Sys2Proof.Machine
end

