-- ==== Sys2Proof/Machine/State.lean ====
section
/-! DEFINITION. Everything the manual gives the engine, as plain data. Registers live in one bank keyed by BAR0
address (their after-reset values are the bank's defaults, Machine/RegReset.lean); what no register shows lives in
the records of the blocks. -/

namespace Sys2Proof.Machine

/-- The three ordering codes (R1). -/
inductive Variant | pyv1616 | pyv1608 | pyv1604
  deriving DecidableEq, Repr

/-- One timescale (R77, R82): anchor `anc` in q of raw count, base `base` in units of 2^-32 q, and the remaining
slew offset `rem` at the anchor, in units of 2^-32 q. `smearBound` is the slew bound a smear put in force (R91),
0 where the committed bound is. -/
structure Ts where
  anc : Nat
  base : Int
  rem : Int
  smearBound : Nat
  deriving DecidableEq, Repr

/-- One compare unit (R94): its timescale, the low 64 bits of its target, and whether it is armed. -/
structure Cmp where
  ts : Nat
  target : Nat
  armed : Bool
  deriving DecidableEq, Repr

/-- One instance of the conservation ledger (R40). -/
structure LInst where
  issued : Nat
  returned : Nat
  held : Nat
  deriving DecidableEq, Repr

/-- The four terminal terms of one quad's requests (R43). -/
structure ReqTerms where
  answered : Nat
  cancelDrop : Nat
  toHost : Nat
  sumped : Nat
  deriving DecidableEq, Repr

/-- One captured copy of the ledger's counts (R45). `skip` lists the instances the audit passes over because the
audit before it re-baselined them. -/
structure LedgerCopy where
  insts : Store LInst
  terms : Store ReqTerms
  skip : List Nat
  deriving DecidableEq, Repr

/-- FAB: the ledger, the captured copies (the head is being audited), high-water marks of the queues, the isolated
and unusable units (keyed by ledger kind and instance), when each unit first failed an audit, and the aligned
millisecond of the last Sump sample of each reason. -/
structure FabS where
  ledger : Store LInst
  terms : Store ReqTerms
  copies : List LedgerCopy
  qHigh : Store Nat
  isolated : List Nat
  unusable : List Nat
  failRaw : Store Nat
  sampleMs : Store Nat
  deriving DecidableEq, Repr

/-- An event on its way to an event ring (R366, R367). -/
structure Event where
  ring : Nat
  kind : Nat
  payload : List Byte
  deriving DecidableEq, Repr

/-- A journal record (R428) without its SEQ and CHECK, which the buffer gives it; `gap` counts the records lost just
before it (R427). -/
structure JRec where
  time : Nat
  typ : Nat
  src : Nat
  ka : Bool
  gap : Nat
  body : List Byte
  deriving DecidableEq, Repr

/-- A journal record in the retained buffer. -/
structure JBuf where
  seq : Nat
  check : Nat
  rcd : JRec
  raw : Nat
  deriving DecidableEq, Repr

/-- A completion (R357) that waits for a free CQ slot; `tokens` are the DESC tokens it returns. -/
structure Cpl where
  slot : Nat
  status : Nat
  kind3 : Nat
  count : Nat
  kind8 : Nat
  tag : Nat
  flags : Nat
  tokens : Nat
  quad : Option Nat
  deriving DecidableEq, Repr

/-- The states of a ring (R352). -/
inductive RingSt | disabled | enabled | draining | error
  deriving DecidableEq, Repr

/-- The open event buffer group of a ring (R366): its first slot, the addresses of its buffers, the bytes used, the
events in it, and when the first of them came. -/
structure OpenBuf where
  slot : Nat
  addrs : List Nat
  used : Nat
  events : Nat
  firstRaw : Nat
  deriving DecidableEq, Repr

/-- One ring (R349 to R353). `posted` are fetched buffer descriptors nothing has claimed, as slot and address; `txd` are
fetched transmit descriptors of frames not yet read, as slot and bytes; `cpls` are completions that wait for a CQ slot; `evSeq` is the SEQ of the next event; `sigN` and `sigRaw` are the entries not yet
signalled and when the first of them was written. -/
structure Ring where
  st : RingSt
  sqHead : Nat
  sqTail : Nat
  cqHead : Nat
  cqTail : Nat
  phase : Bool
  posted : List (Nat × Nat)
  txd : List (Nat × List Byte)
  cpls : List Cpl
  openBuf : Option OpenBuf
  evSeq : Nat
  sigN : Nat
  sigRaw : Nat
  drops : Nat
  writes : Nat
  deriving DecidableEq, Repr

/-- The PCI Express state of one function. -/
structure FnSt where
  bme : Bool
  msixEn : Bool
  fnMask : Bool
  deriving DecidableEq, Repr

/-- TSC beyond its registers: the timescales, the 32 compare units, when the retry of R74 is due (none where no
switch waits), whether the switch that waits follows a loss (else it was commanded), and the smears already started,
by profile and leap second (R91), and how often timescale 0 was stepped. -/
structure TscS where
  ts : Store Ts
  cmps : Store Cmp
  retryAt : Option Nat
  afterLoss : Bool
  smeared : List (Nat × Nat)
  steps0 : Nat
  deriving DecidableEq, Repr

/-- HIF beyond its registers: the rings, the functions, the commands in queue 143, the events in queue 142, the
MSI-X masks and pending bits (keyed by 64 × function + vector) and the last MSI-X message sent. -/
structure HifS where
  rings : Store Ring
  fns : Store FnSt
  cmdQ : List HostCmd
  evQ : List Event
  msixMask : Store Bool
  msixPend : Store Bool
  lastMsg : Option (Nat × Nat)
  deriving DecidableEq, Repr

/-- The journal side of FLS: records in queue 141, the retained buffer, and the records lost since the last one
made (R427). -/
structure JrnS where
  q : List JRec
  buf : List JBuf
  lost : Nat
  deriving DecidableEq, Repr

/-- Top-down counts of one unit (R480, R481): retired, wasted, back-stalled and pending slots, and how long (in q) its domain
has been out of Run since the counts began. The rest of its elapsed slots were front-starved. -/
structure Td where
  retired : Nat
  wasted : Nat
  outQ : Nat
  back : Nat
  pend : Nat
  deriving DecidableEq, Repr

/-- A delivery of frozen counters (R478, R479): the FLAGS of its payload, and the COUNTER_SNAP command it answers, if one. -/
structure Delivery where
  flags : Nat
  cmd : Option HostCmd
  deriving DecidableEq, Repr

/-- PMC beyond its registers: the counters' live values, the frozen copies, the top-down counts and their frozen
copies (retired, wasted, front-starved, back-stalled, pending), the deliveries that run, the freezes taken, and the raw time at
which the top-down counts began (R477 to R480). -/
structure PmcS where
  cnt : Store Nat
  frozen : Store Nat
  td : Store Td
  tdFrozen : Store (List Nat)
  delivering : List Delivery
  freezes : Nat
  tdRaw : Nat
  deriving DecidableEq, Repr

/-- GLB beyond its registers: the words the signed access tables of the boot stage last wrote (R37), as key and word; the levels
of the four TAMPER balls; whether `GLB.POLICY` has been written since Boot (R68); whether Self-test is skipped in this Boot
(R61); and whether this Boot recorded a tamper event. -/
structure GlbS where
  bootAcl : List (Nat × Nat)
  tamper : Nat
  policySet : Bool
  skipBist : Bool
  tampered : Bool
  deriving DecidableEq, Repr

/-- One measurement of a reference: its timescale-0 time in q, φ (reference minus timescale 0, in q, whole cycles
counted where the source is not phase-bearing), and its raw time (R125). -/
structure Smp where
  t0 : Nat
  phi : Int
  raw : Nat
  deriving DecidableEq, Repr

/-- A reference slot beyond its registers (R108 to R121): the samples its frequency is formed from, newest first;
the last of its phase; those on their way to DSC, oldest first; when its source's first sample came; its one-second frequency results, newest
first; a phase-jump event not yet judged; the outcome of tests 1, 2 and 4 at the last look; when the HOLDOFF count
began, when it last failed, since when it is FAILED as an outlier, whether a whole window has since agreed with the
active slot, since when it has been QUALIFIED or ACTIVE, and whether its PHASE_BIG condition holds. -/
structure RSlot where
  smps : List Smp
  last : Option Smp
  wait : List Smp
  firstAt : Option Nat
  results : List (Nat × Int)
  jumped : Bool
  okLos : Bool
  okFreq : Bool
  okJump : Bool
  countAt : Nat
  failAt : Nat
  outlierAt : Option Nat
  agreed : Bool
  steady : Option Nat
  big : Bool
  deriving DecidableEq, Repr

/-- A REF_IN input beyond its registers: raw and timescale-0 time of its last edge, raw time of its last stamp, and
its unwrapped phase in q at that stamp (R98, R100). -/
structure RIn where
  lastRaw : Option Nat
  lastT0 : Nat
  stampRaw : Nat
  phi : Int
  deriving DecidableEq, Repr

/-- What the Announces and Syncs of one PTP upstream said last (R106, R107): quality, whether its time is TAI, the raw
time its Announce receipt timeout runs out, and the raw time and interval of its last measured Sync. -/
structure UpQ where
  cls : Nat
  acc : Nat
  var : Nat
  tai : Bool
  annUntil : Nat
  syncRaw : Nat
  syncInt : Nat
  deriving DecidableEq, Repr

/-- An open dispute (R119 to R121): its members, and whether it closes at the next tick. -/
structure Disp where
  a : Nat
  b : Nat
  since : Nat
  closing : Bool
  deriving DecidableEq, Repr

/-- REF beyond its registers: slots, inputs, upstream qualities, raw time of the last ESMC PDU of each port (plus one;
0 for none), the EPOCH values and raw times of the last eight strobes, newest first, timescale-0 time of the last accepted solution, the open
disputes, the end of the last dispute window judged, why the active slot left where a commit or a vote took it, and
whether FORCE_UNQUAL's condition holds. -/
structure RefS where
  slots : Store RSlot
  ins : Store RIn
  ups : Store UpQ
  esmcAt : Store Nat
  epochs : List (Nat × Nat)
  gnssOk : Option Nat
  disp : List Disp
  winEnd : Nat
  cause : Option Nat
  forceBad : Bool
  deriving DecidableEq, Repr

/-- One second of the history (R145): its timescale-0 second, the hour block it stands in and that block's base, the
record word, the Grotto's ambient temperature, how many oscillator switchovers came before it, and whether it was made
since the last power-on. -/
structure HRec where
  sec : Nat
  hour : Nat
  base : Int
  word : Nat
  theta : Int
  lo : Nat
  live : Bool
  deriving DecidableEq, Repr

/-- The error-bound estimator while it runs (R149): when it started (timescale-0 q), |e_entry| in q, SDEV, the ambient
temperature then, the sum of its departures in mK·s, and the time of the last update. -/
structure Est where
  t0 : Nat
  e : Nat
  sdev : Nat
  theta : Int
  integral : Nat
  last : Nat
  deriving DecidableEq, Repr

/-- The holdover value's constants (R146): when the loss was declared (timescale-0 q), ū in units of 2^-64, and θ̄. -/
structure Hold where
  t0 : Nat
  mean : Int
  theta : Int
  deriving DecidableEq, Repr

/-- DSC beyond its registers (R125 to R150): I and the value it still moves to, in units of 2^-128; P in q; timescale-0
time of the last update of I; the tick at which the pull began; the fallback loop's I, its slot and since when it has
tracked; since when the lock criteria have held and |e| has been large; the state ACQUIRING was entered from; whether the
budget is spent; the estimator; the holdover value; the phase errors measured, newest first; the history, newest first,
its mirror in Flowstone, how many records it made, and whether the present second has so far been LOCKED with no pull;
the integral of u since the last record and when it was brought up to date and begun; the δ of each oscillator
switchover, newest first; whether the next phase-bearing selection is the first in Provisioning; and when software last
wrote u. -/
structure DscS where
  i : Int
  want : Int
  build : Int
  updT0 : Nat
  pullRaw : Nat
  fbI : Int
  fbSlot : Option Nat
  fbSince : Nat
  lockAt : Option Nat
  farAt : Option Nat
  entered : Nat
  spent : Bool
  est : Option Est
  hold : Option Hold
  es : List (Nat × Int)
  hist : List HRec
  mirror : List HRec
  nrec : Nat
  clean : Bool
  sumU : Int
  sumRaw : Nat
  secRaw : Nat
  los : List Int
  first : Bool
  swT0 : Nat
  deriving DecidableEq, Repr

/-- GRT beyond its registers (R153): when its state and its heating began, and the raw time spent in READY since
manufacture that RUN_HOURS has not yet shown. -/
structure GrtS where
  stateRaw : Nat
  heatRaw : Nat
  readyQ : Nat
  deriving DecidableEq, Repr

/-- A walk of an output's edge offset (R162): where from and to, in units of 2^-8 ns, and when it began. -/
structure Walk where
  start : Int
  goal : Int
  t0 : Nat
  deriving DecidableEq, Repr

/-- CKO beyond its registers: the outputs that wait to be aligned, with the timescale-0 second the wait began in (plus
one), and the walks. -/
structure CkoS where
  waiting : Store Nat
  walks : Store Walk
  deriving DecidableEq, Repr

/-- A sample port beyond its registers (R171): its latest tick records, newest first, as sample number and
timescale-0 time. -/
structure GPort where
  ticks : List (Nat × Nat)
  deriving DecidableEq, Repr

/-- A queued or running search (R175): its command, its engine, and once running the time of its first sample, the raw
time its capture ends, how many steps timescale 0 had taken, and whether the port clipped. -/
structure Search where
  cmd : HostCmd
  eng : Nat
  running : Bool
  time : Nat
  capEnd : Nat
  steps : Nat
  clipped : Bool
  deriving DecidableEq, Repr

/-- GNA beyond its registers. -/
structure GnaS where
  ports : Store GPort
  searches : List Search
  deriving DecidableEq, Repr

/-- The states of a tracking channel (R191). -/
inductive ChSt | idle | loaded | track | gap | hold
  deriving DecidableEq, Repr

/-- A steering write that waits for its boundary (R190). -/
structure Steer where
  codeRate : Option Nat
  carrRate : Option Nat
  word1 : Option Nat
  deriving DecidableEq, Repr

/-- A tracking channel (R186 to R192): binding, NCO values as they stand at sample `sample` of its port, counters,
lock flags, START_MS as a whole millisecond of timescale 0, the antenna it correlates, the milliseconds integrated, the
flags its next dump carries, the steering that waits, the consecutive missed updates, and the timescale-0 time its
CARR_LOCK last set. -/
structure Chan where
  st : ChSt
  sig : Nat
  idx : Nat
  port : Nat
  space : Nat
  vspace : Nat
  spare : Nat
  rsv : Bool
  code : Nat
  chips : Nat
  periods : Nat
  codeRate : Nat
  carr : Nat
  cycles : Int
  carrRate : Int
  startMs : Nat
  sample : Nat
  locks : Nat
  stale : Bool
  cn0 : Nat
  ant : Nat
  intMs : Nat
  first : Bool
  cleared : Bool
  steer : Option Steer
  missed : Nat
  lockT0 : Nat
  lastMs : Nat
  burstT0 : Nat
  deriving DecidableEq, Repr

/-- GNC beyond its registers: the channels, the dumps that wait in queues 128 to 135, the latched epochs in queue 136,
the strobe number, whether timescale 0 was stepped or Keep-alive left since the last strobe, the burst each sequencer is
in (antenna plus one; 5 for each channel's own), the indicator word of each sequencer, and the accepted solutions of the
last 600 s as raw time and GNSS time minus raw time. -/
structure GncS where
  chans : Store Chan
  dumps : Store (List (List Byte))
  epochQ : List (List Byte)
  seq : Nat
  stepped : Bool
  kaExit : Bool
  burst : Store Nat
  words : Store Nat
  fit : List (Nat × Int)
  deriving DecidableEq, Repr

/-- A host frame in the host-transmit pool (R361): its ring, last descriptor slot and number of descriptors, port, what
its first descriptor asked for, its bytes, when it was read, and whether a granule of it is poisoned. -/
structure TxFrame where
  id : Nat
  ring : Nat
  slot : Nat
  ndesc : Nat
  port : Nat
  express : Bool
  stamp : Bool
  tag : Nat
  ts : Nat
  rawTs : Bool
  bytes : List Byte
  readRaw : Nat
  poisoned : Bool
  deriving DecidableEq, Repr

/-- PRT beyond its registers: the 64 counters of every port (keyed 64 × port + index), the lane latencies measured
(keyed 16 × port + 8 × direction + lane), failed calibrations since the link was last restarted, failed verify attempts, raw
time of each port's last frame or attempt to sleep, the host frames read, when LINK last changed, and when the port last downshifted. -/
structure PrtS where
  stats : Store Nat
  lat : Store Int
  calFails : Store Nat
  verify : Store Nat
  idleRaw : Store Nat
  tx : List TxFrame
  linkRaw : Store Nat
  downRaw : Store Nat
  deriving DecidableEq, Repr

/-- What the engine sends in a job: an NTP response (0), KoD RATE (1) or NTS NAK (2); the PTP replies and messages of
ch. 11 (a unicast message with the interval of its grant); an ESMC PDU; or a frame a quad sequencer built, with the place
of its transmit stamp and whether it is a PTP one. -/
inductive What
  | ntp (kod : Nat)
  | delayResp
  | pdelayResp
  | signaling (tlvs : List Byte)
  | sync (dom : Nat) (grant : Option Int)
  | announce (dom : Nat) (grant : Option Int)
  | followUp (dom : Nat) (grant : Option Int) (stamp : Nat)
  | pdelayFollow (dom : Nat) (stamp : Nat)
  | delayReq (u : Nat)
  | pdelayReq (dom : Nat)
  | upRequest (u : Nat) (typ : Nat)
  | cancelGrant (dom : Nat) (body : List Byte)
  | esmc (event : Bool)
  | program (frame : List Byte) (stamp : Option (Nat × Bool))
  deriving DecidableEq, Repr

/-- Where a job stands: received and not yet parsed; declined in the side buffer; in the sequencers' queue; retired by
sequencer n for a build; bound for the slow path in the side buffer; in the staging queue; cancelled and waiting for its
rebuild; asking for a departure slot; or holding one. -/
inductive JobSt
  | rx | declined | atSeq
  | building (n : Nat)
  | slow | staged | again | wantSlot | held
  deriving DecidableEq, Repr

/-- An NTS job's context in its pipe (R293, R302): the two session keys, the request's Unique Identifier, cookies to send,
the pipe, and whether the response carries an Authenticator. -/
structure NtsCtx where
  c2s : List Byte
  s2c : List Byte
  uid : List Byte
  cookies : Nat
  pipe : Nat
  auth : Bool
  deriving DecidableEq, Repr

/-- A frame to send, from the destination address up to the FCS: the Ethernet header, the IP and UDP fields (version 0
for none) and the payload. The UDP checksum is made when the bytes are. -/
structure Out where
  dmac : List Byte
  smac : List Byte
  tags : List (Nat × Nat)
  etype : Nat
  v : Nat
  src : List Byte
  dst : List Byte
  sport : Nat
  dport : Nat
  tos : Nat
  ttl : Nat
  df : Bool
  flow : Nat
  body : List Byte
  deriving DecidableEq, Repr

/-- A frame in a quad: a received request, or a message the engine sends (`isReq` false). `frame` is what was received,
`rawS` the raw instant its S crossed the boundary, `since` when it entered its present stage, `cells` what it holds of the
receive buffer; `bank` and `profile` what it was classified under; `ring` and `cause` its slow path. For what is sent:
`what`, the sequenceId, the due time on a timescale with what may be added to it (R276), the earliest and latest raw times,
when the slot was asked for, the slot granted, the predicted stamp, the frame, and how far it has come; whether it has its
place in queue 108 + q, and whether a stage-4 issue slot of it is pending. `rxT` are the values of the 64 timescales at
`rawS` (R72), and `gotRaw` when the last byte reached the MAC. -/
structure Job where
  id : Nat
  quad : Nat
  port : Nat
  isReq : Bool
  st : JobSt
  frame : List Byte
  rawS : Nat
  since : Nat
  trunc : Bool
  cells : Nat
  poisoned : Bool
  bank : Nat
  profile : Option Nat
  ring : Nat
  cause : Nat
  slowOk : Bool
  maxRes : Nat
  what : Option What
  seqId : Nat
  due : Option (Nat × Nat × Option Nat)
  te : Nat
  tl : Nat
  reqRaw : Nat
  slot : Option Nat
  ts : Nat
  lead : Nat
  pred : Nat
  out : Option Out
  sealed : Bool
  checked : Bool
  rebuilt : Bool
  kod : Bool
  nts : Option NtsCtx
  inQ : Bool
  slotted : Bool
  rxT : List Nat
  gotRaw : Nat
  deriving DecidableEq, Repr

/-- A token bucket (R241). -/
structure Bucket where
  level : Nat
  cls : Nat
  clsValid : Bool
  stamp : Nat
  deriving DecidableEq, Repr

/-- RSP beyond its registers: the jobs in the quads, the next job number, the buckets (keyed 2^20 × quad + index), each
class's EMPTY_HITS on each quad (16 × quad + class), cancellations by quad, stage and reason (16 × quad + 8 × after +
reason), HITS of the rules and REQS of the profiles, the words of the bank that some
request still holds, and the raw value of the last timescale-0 second boundary at which the engine was LOCKED (R244), and
whether the live set was swapped and the old bank still drains (R262). -/
structure RspS where
  jobs : List Job
  nextId : Nat
  buckets : Store Bucket
  emptyHits : Store Nat
  cancels : Store Nat
  hits : Store Nat
  reqs : Store Nat
  old : Store Word
  refRaw : Option Nat
  draining : Bool
  deriving DecidableEq, Repr

/-- A grant entry (R274). -/
structure Grant where
  valid : Bool
  dom : Nat
  port : Nat
  transport : Nat
  tagged : Bool
  vid : Nat
  clockId : List Byte
  portNum : Nat
  addr : List Byte
  mac : List Byte
  logs : List Int
  live : Nat
  exps : List Nat
  seqAnn : Nat
  seqSync : Nat
  phase : Nat
  deriving DecidableEq, Repr

/-- A Delay_Req sent and not yet answered: its sequenceId, t3 once committed, when, and t2 − t1 of the latest Sync before
it, in units of 2^-16 ns. -/
structure DreqP where
  seqId : Nat
  t3 : Option Nat
  raw : Nat
  fwd : Option Int
  deriving DecidableEq, Repr

/-- One of the three grants an upstream gives us (R280): the raw time at which it is asked for again, and the raw time at
which it runs out (0 where there is none). -/
structure Nego where
  due : Nat
  exp : Nat
  deriving DecidableEq, Repr

/-- An upstream master beyond its registers (R279 to R281): a two-step Sync that waits for its Follow_Up (sequenceId, t2,
correction), t2 − t1 of the latest Sync, the Delay_Reqs pending, the sums of the latest complete exchanges, newest first,
t3 and t4 of the latest, the last accepted Announce, the grants asked for (Announce, Sync, Delay_Resp), and the next
sequenceIds of its Delay_Reqs and Signaling messages. -/
structure UpS where
  sync : Option (Nat × Nat × Int)
  fwd : Option Int
  dreqs : List DreqP
  exch : List Int
  t3 : Nat
  t4 : Nat
  ann : Option (List Byte)
  nego : List Nego
  dreqSeq : Nat
  sigSeq : Nat
  deriving DecidableEq, Repr

/-- A port's peer-delay measurement (R282): the next sequenceId, that of the Pdelay_Req under way, its stamps so far (t2 as
the responder gave it, none where one-step), the corrections summed, whether the two-step response came, and the latest
values of twice the delay, newest first, in units of q. -/
structure PdS where
  nextSeq : Nat
  seqId : Nat
  t1 : Option Nat
  t2 : Option Nat
  t4 : Option Nat
  corr : Int
  wait : Bool
  vals : List Int
  deriving DecidableEq, Repr

/-- PTP beyond its registers: the grant table, the upstreams, the ports' peer delays, for each source up to which value of
its timescale due times have been handed off or passed over, and the next sequenceIds of multicast messages. -/
structure PtpS where
  grants : Store Grant
  ups : Store UpS
  pds : Store PdS
  handed : List (CalSrc × Nat)
  seqs : Store Nat
  deriving DecidableEq, Repr

/-- NTS beyond its registers: the ROTATE that runs, each pipe's mint counter and response counter, and which draw of the
random source the response nonces carry (R290). -/
structure NtsS where
  rot : Option HostCmd
  minted : Store Nat
  sent : Store Nat
  tail : Nat
  deriving DecidableEq, Repr

/-- A key at its head slot (R397): metadata and material. -/
structure Key where
  valid : Bool
  poisoned : Bool
  secret : Bool
  writing : Bool
  typ : Nat
  usage : Nat
  curve : Nat
  span : Nat
  origin : Nat
  bits : Nat
  owner : Nat
  label : Nat
  uses : Nat
  material : List Byte
  deriving DecidableEq, Repr

/-- The active level of a pulse output (R306, R318): where its trailing edge falls at the plane, on which timescale, with
which delay and polarity. -/
structure Active where
  trail : Nat
  ts : Nat
  delay : Int
  pol : Bool
  deriving DecidableEq, Repr

/-- A pulse output (R306 to R310, R318): the low 64 bits of the next leading edge, its active level, and whether it still has
to take a committed set and restart with it. -/
structure Pulse where
  next : Option Nat
  act : Option Active
  waits : Bool
  restart : Bool
  deriving DecidableEq, Repr

/-- A scheduled-command slot that holds a command (R314). -/
structure Sched where
  cmd : HostCmd
  ts : Nat
  target : Nat
  lateOk : Bool
  addr : Nat
  value : Nat
  deriving DecidableEq, Repr

/-- EVT beyond its registers: the pulse outputs; of each capture input the raw time of its last stamped edge (plus one) and
its latest stamp record; and the scheduled-command slots. -/
structure EvtS where
  pulses : Store Pulse
  capRaw : Store Nat
  capLast : Store (List Byte)
  slots : Store (Option Sched)
  deriving DecidableEq, Repr

/-- A VID output (R324): whether it runs, the timescale-0 value from which it waits for its first boundary, the walk of its
DELAY, and, of a word clock, its rising edges sent up to its start and the index of the edge it started at. -/
structure VOut where
  running : Bool
  waiting : Option Nat
  walk : Option Walk
  sent : Nat
  startIdx : Int
  deriving DecidableEq, Repr

/-- VID beyond its registers: the outputs (DACs 0 to 3, LTC 4 and 5, word clocks 6 and 7); the latest user-bit writes of each
LTC output, newest first, as raw time and value; the number, TAI second offset and user bits of its last frame; and how many
consecutive genlock frames were missing or did not match, and the genlock phase with whole frames counted. -/
structure VidS where
  outs : Store VOut
  ubits : Store (List (Nat × Nat))
  lastFrame : Store Int
  lastOfs : Store Int
  sentBits : Store Nat
  glBad : Nat
  glPhi : Option Int
  deriving DecidableEq, Repr

/-- A base of TDC (R332): the value set at its last anchor, and whether it has been anchored. -/
structure TBase where
  anchor : Nat
  set : Bool
  deriving DecidableEq, Repr

/-- An open frequency gate (R342): its index in whole GATE_MS of base time, its start, the sums over its stamps, the edge index
of its first and last stamp, the TAG, SRC_WARM and READY of its last stamp, and whether every stamp was valid, one was
poisoned, or an anchor fell within it. -/
structure Gate where
  idx : Nat
  start : Nat
  n : Nat
  sm : Nat
  st : Nat
  smm : Nat
  smt : Nat
  first : Nat
  last : Nat
  tag : Nat
  warm : Bool
  ready : Bool
  valid : Bool
  poisoned : Bool
  anchored : Bool
  deriving DecidableEq, Repr

/-- What the calibrating interpolator of a channel is doing (R337, R339): filling its histogram, or measuring shared edges
(how many, the sum of the differences in units of P_c / 2^21, and since when). -/
inductive CalPhase
  | hits
  | shared (n : Nat) (sum : Int) (since : Nat)
  deriving DecidableEq, Repr

/-- A TDC channel (R333 to R343): whether it measures and on which interpolator; the two tables in force (empty: none) and
offsets (units of P_c / 2^21 / 2^32; none before the first); the calibration under way and its interpolator; consecutive
rejections of each; when the failed interpolator of a SINGLE channel is tried again; counted edges and those since the last
due one; base time of the last stamp; whether the next stamp is the first after an anchor; the open gate, and the gate
index in which none is opened. -/
structure TCh where
  on : Bool
  measB : Bool
  tblA : List Nat
  tblB : List Nat
  offA : Option Int
  offB : Option Int
  cal : Option (Bool × CalPhase)
  rejA : Nat
  rejB : Nat
  retry : Nat
  edges : Nat
  div : Nat
  lastT : Option Nat
  fresh : Bool
  gate : Option Gate
  skip : Option Nat
  deriving DecidableEq, Repr

/-- TDC beyond its registers: the bases (0 TB, 1 GR), the channels, the stamps in queues 112 to 127 with their rings, and when
TB_IN became present. -/
structure TdcS where
  bases : Store TBase
  chs : Store TCh
  q : Store (List (Nat × List Byte))
  tbRaw : Nat
  deriving DecidableEq, Repr

/-- The states of a sequencer (R380). -/
inductive SqSt | empty | run | wait | parked | halted | faulted | off
  deriving DecidableEq, Repr

/-- A program bank (R373, R384): its words, its local-data initial image, ENTRY, VERSION, PROG_ID and LD_LAYOUT; no
words where nothing was loaded. -/
structure SqBank where
  words : List Word
  init : List Word
  entry : Nat
  version : Nat
  progId : Nat
  layout : Nat
  deriving DecidableEq, Repr

/-- An armed swap (R386): its members, those that have not swapped or parked yet, SYNC, INIT, when it was armed, who armed
it (a PROG_LOAD command, or none for `SEQ.SWAP_CTRL`), and how many of its members have swapped. -/
structure SqSwap where
  members : List Nat
  waiting : List Nat
  sync : Bool
  init : Bool
  raw : Nat
  cmd : Option HostCmd
  swapped : Nat
  deriving DecidableEq, Repr

/-- One Umber sequencer (R373, R380): state, w0 to w15, C, PC, whether bank B is active, the banks, local data, IDLE_OK,
a pending HALT, pending events, the WAIT it stalls in (destination and mask), the FLD it stalls on (destination, fabric
address, and since when), the raw time of its last SAFE, of its fault or halt, of its automatic restarts; its FAULT,
SWAP_CTRL and RUN_CTRL words; the issued cycles of its work item, if in one (R481); the time it has spent in RUN and since
when it runs; and its iterations (R379). -/
structure Sq where
  st : SqSt
  w : Store Word
  c : Bool
  pc : Nat
  bankB : Bool
  a : SqBank
  b : SqBank
  ld : Store Word
  idleOk : Bool
  haltPend : Bool
  events : Nat
  waitOn : Option (Nat × Nat)
  fldTo : Option (Nat × Nat × Nat)
  safeRaw : Nat
  stopRaw : Nat
  restartsRaw : List Nat
  fault : Nat
  swapCtrl : Nat
  runCtrl : Nat
  item : Option Nat
  runQ : Nat
  runFrom : Nat
  iter : Nat
  deriving DecidableEq, Repr

/-- SEQ beyond its registers: the sequencers, the swaps that are armed, the issued cycles held for requests in a build
(job, sequencer, cycles: R481), and the memory targets 25 to 27 as far as masters have written them (keyed
2^27 × target + byte offset of the word). -/
structure SeqS where
  sq : Store Sq
  swaps : List SqSwap
  owed : List (Nat × Nat × Nat)
  sram : Store (Option Word)
  deriving DecidableEq, Repr

/-- KEY and PKE beyond their registers: the keys by head slot. -/
structure KeyS where
  slots : Store Key
  deriving DecidableEq, Repr

/-- A job on an engine's queue (R413): the command, what it is (0 PK_RUN, 1 KEY_IMPORT, 2 KEY_GENERATE), the head slot it
has claimed, whether it runs, since when, and the input it read as it started. -/
structure PkJob where
  cmd : HostCmd
  op : Nat
  claim : Option Nat
  running : Bool
  start : Nat
  input : List Byte
  deriving DecidableEq, Repr

/-- A row operation in flight (R405): D := D + A·b + c over w bits. -/
structure RowOp where
  d : Nat
  a : Nat
  b : Nat
  c : Nat
  w : Nat
  deriving DecidableEq, Repr

/-- PKE beyond its registers: the jobs in queues 137 to 140 (keyed 0 to 3), the operand memory of each engine (keyed
64·e + operand slot), and the row each engine has in flight. -/
structure PkeS where
  queues : Store (List PkJob)
  opmem : Store Nat
  rows : Store (Option RowOp)
  deriving DecidableEq, Repr

/-- One copy of an image or key blob on the medium (R63, R433): whether it is valid, its security version, its bytes. -/
structure Img where
  valid : Bool
  version : Nat
  bytes : List Byte
  deriving DecidableEq, Repr

/-- FLS beyond its registers and the journal buffer: records taken from queue 141 so far; JOURNAL_APPEND commands that
wait, with the number their record takes from the queue and, once it is in the buffer, its SEQ; the journal pages on the
medium with their ordinals, how many were ever programmed and the first still held; the blocks of the journal partition;
the SEQ of unreadable records; the image copies (keyed 4 × KIND + COPY: 1 A, 2 B, 3 golden); the fused minimum versions;
the boot record not in force; the timescale-0 second of the last scrub start, and the raw time of the last wear move. -/
structure FlsS where
  taken : Nat
  apps : List (Nat × HostCmd × Option Nat)
  pages : List (Nat × List JBuf)
  made : Nat
  first : Nat
  blocks : Nat
  unread : List Nat
  imgs : Store Img
  minVer : Store Nat
  oldRec : Nat
  scrubSec : Nat
  moveRaw : Nat
  deriving DecidableEq, Repr

/-- A domain on its way back to Run (R446): the step it is in (1 regulator, 2 oscillator, 3 PLL), whether that step has been
tried again, and when it began. -/
structure Wake where
  dom : Nat
  step : Nat
  again : Bool
  t0 : Nat
  deriving DecidableEq, Repr

/-- The requests that run through the consent protocol and wait for its end (R440): Keep-alive entry, port sleep, and
`PWR.DOM_REQ` for a domain and a state. -/
inductive SleepKind
  | keepAlive
  | port (p : Nat)
  | dom (d st : Nat)
  deriving DecidableEq, Repr

/-- A request that runs (R440, R441): the steps not yet taken, the head being in prepare (in Keep-alive entry a number below 32
stands for all eight ports of its quad); the domains it stopped, latest first; when the head began to prepare; and once it
rolls back, its completion code. -/
structure SleepReq where
  kind : SleepKind
  todo : List Nat
  stopped : List Nat
  t0 : Nat
  rolling : Option Nat
  deriving DecidableEq, Repr

/-- PWR beyond its registers: the request that runs; the domains that wake; the groups of domains that wake one after another
(R441, R448) and the group whose turn it is; whether Keep-alive is being left; the raw time it was entered and the time spent
in it; whether XO_IN was switched off at entry; whether a wake failed in this exit or rollback; whether Lockdown is due at its
end (R441, R444), with its cause; and when each stopped domain left Run. -/
structure PwrS where
  sleep : Option SleepReq
  wakes : List Wake
  chain : List (List Nat)
  cur : List Nat
  exiting : Bool
  kaRaw : Nat
  kaQ : Nat
  xoOff : Bool
  failed : Bool
  lock : Option Nat
  outRaw : Store Nat
  deriving DecidableEq, Repr

/-- One unit of BST (R452): unusable, fenced, free of work (a spare not in use), the INDEX whose work it serves otherwise,
and how many tests it has had. -/
structure UnitS where
  unusable : Bool
  fenced : Bool
  idle : Bool
  serves : Nat
  tests : Nat
  deriving DecidableEq, Repr

/-- A test that runs (R459): its command, unit, MODE, patterns asked for, and whether its work moved to a spare. -/
structure TestRun where
  cmd : HostCmd
  kind : Nat
  index : Nat
  mode : Nat
  patterns : Nat
  moved : Bool
  deriving DecidableEq, Repr

/-- What the JTAG port's instruction register selects (R456). -/
inductive JtagSel
  | idcode | bypass | sample | extest | intest
  deriving DecidableEq, Repr

/-- BST beyond its registers: the units (keyed 64 × KIND + INDEX), the test that runs, and the JTAG instruction in force. -/
structure BstS where
  units : Store UnitS
  test : Option TestRun
  jtag : JtagSel
  deriving DecidableEq, Repr

/-- A handover that runs (R465): the HANDOVER command it answers, if this engine's host gave one, its DIR, and when it began. -/
structure Handover where
  cmd : Option HostCmd
  dir : Nat
  t0 : Nat
  deriving DecidableEq, Repr

/-- TWN beyond its registers: the departure of the last timing frame; the sum of 2φ in q over the present second and how many
exchanges it holds; whether the present second is to be marked invalid; whether the twin's DSC is in FREE_RUN; the handover that
runs; and ball TWIN_ACT. -/
structure TwnS where
  sentT0 : Option Nat
  sum : Int
  n : Nat
  bad : Bool
  peerFree : Bool
  ho : Option Handover
  act : Bool
  deriving DecidableEq, Repr

/-- Why the machine stops with a fault. No command of this engine does: the manual gives every command an effect on
every operand, so no meaning raises one. -/
inductive Fault
  /-- Raised by nothing: kept so that the type is inhabited. Safe: a state that never stops claims nothing. -/
  | none
  deriving DecidableEq, Repr

/-- Why a command has no meaning. -/
inductive Refusal
  /-- Raised only by an arm of `exec` whose command has no meaning yet. Safe: the run stops. -/
  | notModelled (mnemonic : String)
  deriving DecidableEq, Repr

/-- The engine. -/
structure State where
  /-- The commands that wait, first in, first out. -/
  pending : List Instr
  /-- The ordering code (R1). -/
  variant : Variant
  /-- The counter of free values drawn: the model's own, no state of the manual. -/
  freeCtr : Nat
  /-- The raw counter, in q (R70). -/
  raw : Nat
  /-- The timing PLL has locked since power-on, so the raw counter counts (R60). -/
  rawRun : Bool
  /-- Live register and table words by key: a BAR0 address, or a table key above 2^32. -/
  regs : Store Word
  /-- Shadow words of RWS registers and tables that have been written since they last equalled the live word. -/
  shadow : Store Word
  /-- The higher words latched per master by a read of a lowest word (R14). -/
  latch : Store Word
  /-- The lower words of RW multi-word values written and held until the highest word is written (R15). -/
  held : Store (Option Word)
  /-- Host memory, as the engine's DMA sees it. -/
  mem : List Host.Cell
  /-- FAB (R25): ledger, queues, isolation. -/
  fab : FabS
  /-- TSC: timescales and compare units. -/
  tsc : TscS
  /-- HIF: rings, functions, MSI-X. -/
  hif : HifS
  /-- FLS: the journal. -/
  jrn : JrnS
  /-- PMC: performance counters. -/
  pmc : PmcS
  /-- GLB: boot, policy and the TAMPER balls. -/
  glb : GlbS
  /-- REF: slots, inputs, disputes. -/
  ref : RefS
  /-- DSC: loops, holdover, history. -/
  dsc : DscS
  /-- GRT: times. -/
  grt : GrtS
  /-- CKO: alignments and walks. -/
  cko : CkoS
  /-- GNA: sample ports and searches. -/
  gna : GnaS
  /-- GNC: tracking channels. -/
  gnc : GncS
  /-- PRT: counters, latencies, host frames. -/
  prt : PrtS
  /-- RSP: the jobs in the quads, the limiter. -/
  rsp : RspS
  /-- PTP: grants, upstreams, peer delays. -/
  ptp : PtpS
  /-- NTS: rotation, pipe counters. -/
  nts : NtsS
  /-- EVT: pulses, captures, scheduled commands. -/
  evt : EvtS
  /-- VID: outputs and genlock. -/
  vid : VidS
  /-- TDC: bases, channels, stamp queues. -/
  tdc : TdcS
  /-- SEQ: the 52 Umber sequencers. -/
  seq : SeqS
  /-- KEY: the key store. -/
  key : KeyS
  /-- PKE: queues, operand memories and rows in flight. -/
  pke : PkeS
  /-- FLS: the medium and the commands that wait for it. -/
  fls : FlsS
  /-- PWR: sleep requests and wakes. -/
  pwr : PwrS
  /-- BST: the units and the test that runs. -/
  bst : BstS
  /-- TWN: the comparison with the twin and the handover. -/
  twn : TwnS
  deriving DecidableEq, Repr

/-- The machine right after power-on reset: every register at its after-reset value (the bank lists nothing), mode
Boot, the raw counter at zero and not yet counting (R60), nothing held, no command waiting. -/
def State.reset : State where
  pending := []
  variant := .pyv1616
  freeCtr := 3
  raw := 0
  rawRun := false
  regs := []
  shadow := []
  latch := []
  held := []
  mem := []
  fab := ⟨[], [], [], [], [], [], [], []⟩
  tsc := ⟨[], [], none, false, [], 0⟩
  hif := ⟨[], [], [], [], [], [], none⟩
  jrn := ⟨[], [], 0⟩
  pmc := ⟨[], [], [], [], [], 0, 0⟩
  glb := ⟨[], 15, false, false, false⟩
  ref := ⟨[], [], [], [], [], none, [], 0, none, false⟩
  dsc := ⟨0, 0, 0, 0, 0, 0, none, 0, none, none, 0, false, none, none, [], [], [], 0, false, 0, 0, 0, [], false, 0⟩
  grt := ⟨0, 0, 0⟩
  cko := ⟨[], []⟩
  gna := ⟨[], []⟩
  gnc := ⟨[], [], [], 0, false, false, [], [], []⟩
  prt := ⟨[], [], [], [], [], [], [], []⟩
  rsp := ⟨[], 0, [], [], [], [], [], [], none, false⟩
  ptp := ⟨[], [], [], [], []⟩
  nts := ⟨none, [], [], 2⟩
  evt := ⟨[], [], [], []⟩
  vid := ⟨[], [], [], [], [], 0, none⟩
  tdc := ⟨[], [], [], 0⟩
  seq := ⟨[], [], [], []⟩
  key := ⟨[]⟩
  pke := ⟨[], [], []⟩
  fls := ⟨0, [], [], 0, 0, 3072, [], [], [], 0, 0, 0⟩
  pwr := ⟨none, [], [], [], false, 0, 0, false, false, none, []⟩
  bst := ⟨[], none, .idcode⟩
  twn := ⟨none, 0, 0, false, false, none, false⟩

end Sys2Proof.Machine
end

