-- ==== Sys2Proof/Machine/RegReset.lean ====
section
/-! DEFINITION. What the register bank and the numbered tables hold after power-on reset: the after-reset column of
the manual's tables (R10), the values it gives in words (per variant, per index, from the fuses), and the keys under
which the words behind a table window are held (R504). -/

namespace Sys2Proof.Machine

/-- The tables behind table windows and the banked selectors, in the order of their key ranges. -/
inductive Tbl
  | aclBase | aclLimit | aclRights | leapSec | leapOfs | chData | wakeData | evtDelay
  | rspRules | rspProfiles | rspClasses | rspTemplates | ptpDomains
  | pkeCurves | fnCfg | ringWord | seqWdog | cntCfg | jrnMask
  | fnSel | ringSel | ringCtrl | seqSel
  deriving DecidableEq, Repr

/-- The position of a table among the key ranges. -/
def Tbl.num : Tbl → Nat
  | .aclBase => 0 | .aclLimit => 1 | .aclRights => 2 | .leapSec => 3 | .leapOfs => 4 | .chData => 5
  | .wakeData => 6 | .evtDelay => 7 | .rspRules => 8 | .rspProfiles => 9 | .rspClasses => 10
  | .rspTemplates => 11 | .ptpDomains => 12 | .pkeCurves => 13 | .fnCfg => 14 | .ringWord => 15
  | .seqWdog => 16 | .cntCfg => 17 | .jrnMask => 18 | .fnSel => 19 | .ringSel => 20 | .ringCtrl => 21
  | .seqSel => 22

/-- The key of word `i` of a table. -/
def Tbl.key (t : Tbl) (i : Nat) : Nat := 2 ^ 32 * (t.num + 1) + i

/-- The commit group of a table's words, as the address of its COMMIT register; 0 where the words are not RWS. -/
def Tbl.group (t : Tbl) (i : Nat) : Nat :=
  match t with
  | .aclBase | .aclLimit | .aclRights => Blk.fab.commit
  | .leapSec | .leapOfs => Blk.tsc.commit
  | .wakeData => (Blk.prt (i / 256)).commit
  | .evtDelay => Blk.evt.commit
  | .rspRules | .rspProfiles | .rspClasses | .rspTemplates => Blk.rsp.commit
  | .ptpDomains => Blk.ptp.commit
  | .pkeCurves => Blk.pke.commit
  | .fnCfg => Blk.hif.commit
  | .seqWdog => Blk.seq.commit
  | .cntCfg => Blk.pmc.commit
  | _ => 0

/-- Present quads of a variant (R1). -/
def Variant.quads : Variant → Nat | .pyv1616 => 4 | .pyv1608 => 2 | .pyv1604 => 1

/-- SerDes lanes, and so ports, of a variant (R1). -/
def Variant.lanes (v : Variant) : Nat := 8 * v.quads

/-- Cipher pipes of a variant, spares excluded (R1). -/
def Variant.pipes (v : Variant) : Nat := 6 * v.quads

/-- The ordering code of a variant (R1). -/
def Variant.device : Variant → Nat | .pyv1616 => 0x1616 | .pyv1608 => 0x1608 | .pyv1604 => 0x1604

/-- log2 of the rate-limit buckets per quad (R1). -/
def Variant.bucketsLog2 : Variant → Nat | .pyv1616 => 18 | .pyv1608 => 19 | .pyv1604 => 20

/-- PTP grant entries per quad (R1). -/
def Variant.grants : Variant → Nat | .pyv1616 => 65536 | .pyv1608 => 131072 | .pyv1604 => 262144

/-- PTP calendar share per quad, messages/s (R1). -/
def Variant.calShare : Variant → Nat | .pyv1616 => 16000000 | .pyv1608 => 32000000 | .pyv1604 => 64000000

/-- The place of a sequencer (R384): 0 quad, 1 GNSS, 2 discipline, 3 key, 4 line, 5 Flowstone. -/
def seqPlace (n : Nat) : Nat :=
  if n < 32 then 0 else if n < 40 then 1 else if n < 44 then 2 else if n < 48 then 3 else if n < 50 then 4 else 5

/-- The event group of a performance counter (R474). -/
def cntGroup (c : Nat) : Nat :=
  if c < 512 then 0 else if c < 1024 then 1 else if c < 1120 then 2 else if c < 1184 then 3 else if c < 1248 then 4
  else if c < 1312 then 5 else if c < 1376 then 6 else if c < 1440 then 7 else if c < 1472 then 8
  else if c < 1504 then 9 else if c < 1520 then 10 else 11

/-- The quality sets after reset (R143). -/
def qualReset (k : Nat) : Nat :=
  let w (d g st li q1 q2 : Nat) : Nat := d + 2 ^ 8 * g + 2 ^ 16 * st + 2 ^ 21 * li + 2 ^ 24 * q1 + 2 ^ 28 * q2
  match k with
  | 0 => w 248 248 16 1 0xB 0xA
  | 1 => w 6 6 1 0 0x2 0x1
  | 2 => w 7 7 1 0 0x4 0x7
  | _ => w 187 140 16 1 0xB 0xA

/-- `PTP.QUAL_EXT[k]` after reset. -/
def qualExtReset (k : Nat) : Nat :=
  match k with
  | 0 => 0xFE + 2 ^ 8 * 0xFFFF
  | 1 => 0x21 + 2 ^ 8 * 0x4E5D + 2 ^ 24 + 2 ^ 25
  | 2 => 0x22 + 2 ^ 8 * 0x5A00 + 2 ^ 24 + 2 ^ 25
  | _ => 0xFE + 2 ^ 8 * 0xFFFF

/-- Whether a power domain is absent on the variant (R2, R436). -/
def domAbsent (v : Variant) (d : Nat) : Bool :=
  if d < 32 then decide (v.lanes ≤ d) else if d < 36 then decide (v.quads ≤ d - 32) else decide (44 ≤ d)

/-- The DOM_STATE nibbles after reset: Run, or Off and ABSENT. -/
def domStateReset (v : Variant) (k : Nat) : Nat :=
  (List.range 8).foldl (fun x m => if domAbsent v (8 * k + m) then x + 0xB * 2 ^ (4 * m) else x) 0

/-- Present units of a BST kind, spares included, and its spares (R452). -/
def bstTotal (v : Variant) (k : Nat) : Nat :=
  match k with
  | 0 => 9 * v.quads | 1 => v.pipes + 2 | 2 => 5 | 3 => 52 | 4 => 4 | 5 => 16 | 6 => v.lanes | _ => 28
def bstSpares (v : Variant) (k : Nat) : Nat :=
  match k with
  | 0 => v.quads | 1 => 2 | 2 => 1 | 3 => 4 | _ => 0

/-- The after-reset value of a register. First the values the manual gives in words, then the table's. -/
def resetReg (v : Variant) (a : Nat) : Nat :=
  if a = GLB.ID then v.device + 2 ^ 16
  else if a = GLB.FEATURES then v.lanes + 2 ^ 8 * v.quads + 2 ^ 16 * v.pipes
  else if GLB.SERIAL 0 ≤ a ∧ a ≤ GLB.SERIAL 3 ∧ a % 4 = 0 then Config.fusedSerial ((a - GLB.SERIAL 0) / 4)
  else if a = TSC.STATUS 0 then 8
  else if a = GRT.CAL_OFS then Config.calImage 32
  else if a = GRT.CAL_TEMP then Config.calImage 33
  else if a = VID.DAC_CAL then Config.calImage 34
  else if a = TWN.CAL_TX then Config.calImage 35
  else if a = TWN.CAL_RX then Config.calImage 36
  else if DSC.QUAL 0 ≤ a ∧ a ≤ DSC.QUAL 3 ∧ a % 4 = 0 then qualReset ((a - DSC.QUAL 0) / 4)
  else if a = DSC.QUAL_NOW then qualReset 0
  else if a = CKO.PLANE_CFG 0 then 1 + (match rowAt a with | some r => r.resetVal | none => 0)
  else if a = RSP.LIMIT_SEED then Config.random 0
  else if a = PTP.HASH_SEED then Config.random 1
  else if a = RSP.STAT then 2 ^ v.quads - 1 + (match rowAt a with | some r => r.resetVal | none => 0)
  else if a = RSP.LIMIT_STAT then
    2 ^ 16 * v.bucketsLog2 + (match rowAt a with | some r => r.resetVal | none => 0)
  else if RSP.Q_STAT 0 ≤ a ∧ a < RSP.Q_STAT v.quads ∧ (a - RSP.Q_STAT 0) % 0x40 = 0 then
    1 + (match rowAt a with | some r => r.resetVal | none => 0)
  else if PTP.QUAL_EXT 0 ≤ a ∧ a ≤ PTP.QUAL_EXT 3 ∧ a % 4 = 0 then qualExtReset ((a - PTP.QUAL_EXT 0) / 4)
  else if a = NTS.PIPE_USABLE then 2 ^ v.pipes - 1 + 2 ^ 24 + 2 ^ 25
  else if NTS.Q_STAT 0 ≤ a ∧ a < NTS.Q_STAT v.quads ∧ (a - NTS.Q_STAT 0) % 0x20 = 0 then 2 ^ 8 * 6
  else if a = KEY.DEVKEY_ID then devKeyId
  else if a = FLS.BLOCKS then 4096                               -- the minimum medium (R422)
  else if a = FLS.SPARE then 41
  else if a = KEY.USAGE_SLOTS 3 then 1
  else if PWR.DOM_STATE 0 ≤ a ∧ a ≤ PWR.DOM_STATE 5 ∧ a % 4 = 0 then domStateReset v ((a - PWR.DOM_STATE 0) / 4)
  else if PWR.BANK_STAT 0 ≤ a ∧ a ≤ PWR.BANK_STAT 7 ∧ a % 4 = 0 then
    let b := (a - PWR.BANK_STAT 0) / 4
    1 + (if 3 ≤ b ∧ b ≤ 6 then 0 else 2)
  else if a = PWR.RAIL_STAT then 0x3FF
  else if a = PWR.CORE_MV then 775                                -- the code driven while PORN is low (R489)
  else if BST.KIND_STAT 0 ≤ a ∧ a ≤ BST.KIND_STAT 7 ∧ a % 4 = 0 then
    let k := (a - BST.KIND_STAT 0) / 4
    2 ^ 8 * bstSpares v k + 2 ^ 16 * bstTotal v k
  else
    match blkAt a with
    | none => 0
    | some b =>
      let w := match findRow b.rows (a - b.base) with | some r => r.resetVal | none => 0
      match b with
      | .prt p =>
        if v.lanes ≤ p then 0
        else if a = PRT.STAT p then w + 2 ^ 11
        else if a = PRT.IDLE_CFG p ∧ v ≠ .pyv1616 then w + 2
        else w
      | _ => w

/-- The after-reset value of a table word: table number `t` counted from 1, word `i`. -/
def resetTbl (v : Variant) (t i : Nat) : Nat :=
  match t - 1 with
  | 0 => if i % 16 = 0 then 0 else 0xFFFFF                       -- ACL_BASE (R37)
  | 1 => if i % 16 = 0 then                                      -- ACL_LIMIT (R34, R37)
      (match i / 16 with | 25 => 0x17FF | 26 => 0x07FF | 27 => 0x0FFF | _ => 0xFFFFF) else 0
  | 2 =>                                                         -- ACL_RIGHTS (R37)
    if (i / 128) % 16 = 0 then
      (if i % 128 = 118 then (if i / 2048 = 19 then 7 else 3) else if i % 128 = 0 then 3 else 0) else 0
  | 13 =>                                                        -- curves (R409)
    let c := i / 256; let j := (i / 32) % 8
    bitsOf (builtinCurve c j) (32 * (i % 32)) 32
  | 14 => if i = 0 then 2 ^ 10 * 512 + 2 ^ 20 * 64 else 0        -- HIF.FN_CFG
  | 15 => if i % 8 = 7 then 100 else 0                           -- ring words (R350)
  | 16 => (match seqPlace i with | 0 => 10 | 1 => 400 | 2 => 1000 | 3 => 5000 | 4 => 1000 | _ => 10000)
  | 17 => 2 ^ 8 * cntGroup i                                     -- PMC.CNT_CFG
  | 18 =>                                                        -- journal masks (R473)
    (match blkOfTarget (i % 32) (i / 32) with
     | some b => if v.lanes ≤ i / 32 then 0
                 else (match findRow b.rows (b.stickyOff + 4) with | some r => r.resetVal | none => 0)
     | none => 0)
  | _ => 0

/-- The after-reset value at a key: a register word or a table word. -/
def resetWord (v : Variant) (k : Nat) : Word :=
  BitVec.ofNat 32 (if k < 2 ^ 32 then resetReg v k else resetTbl v (k / 2 ^ 32) (k % 2 ^ 32))

end Sys2Proof.Machine
end

