-- ==== Sys2Proof/Machine/Ops.lean ====
section
/-! DEFINITION. The named operations over the register bank, the timescales, the ledger and the queues, which every
meaning is built from. -/

namespace Sys2Proof.Machine

/-! ### The register bank -/

/-- The live word at a key. -/
def State.reg (s : State) (k : Nat) : Word := Store.get (resetWord s.variant) s.regs k

/-- The state with live word `w` at key `k`. -/
def State.setReg (s : State) (k : Nat) (w : Word) : State :=
  { s with regs := Store.put (resetWord s.variant) s.regs k w }

/-- The live word as a number. -/
def State.nreg (s : State) (k : Nat) : Nat := (s.reg k).toNat

/-- The state with the low 32 bits of `v` at key `k`. -/
def State.setN (s : State) (k v : Nat) : State := s.setReg k (BitVec.ofNat 32 v)

/-- A field's value. -/
def State.rd (s : State) (f : Fld) : Nat := bitsOf (s.nreg f.addr) f.lo f.w

/-- A one-bit field, as a truth value. -/
def State.on (s : State) (f : Fld) : Bool := s.rd f != 0

/-- A signed field. -/
def State.rdI (s : State) (f : Fld) : Int := toSigned f.w (s.rd f)

/-- The state with the low bits of `v` in a field. -/
def State.wr (s : State) (f : Fld) (v : Nat) : State := s.setN f.addr (withBits (s.nreg f.addr) f.lo f.w v)

/-- The state with a one-bit field set or clear. -/
def State.wrB (s : State) (f : Fld) (b : Bool) : State := s.wr f (b2n b)

/-- The state with a signed value in a field, two's complement. -/
def State.wrI (s : State) (f : Fld) (i : Int) : State := s.wr f (ofSigned f.w i)

/-- A register read as signed 32 bits. -/
def State.sreg (s : State) (k : Nat) : Int := toSigned 32 (s.nreg k)

/-- A register written with a signed value, saturating. -/
def State.setSat (s : State) (k : Nat) (i : Int) : State := s.setN k (ofSigned 32 (saturate 32 i))

/-- A field of a counter, one more, modulo its width. -/
def State.bumpF (s : State) (f : Fld) (n : Nat := 1) : State := s.wr f (s.rd f + n)

/-- A 32-bit counter register, `n` more, modulo 2^32. -/
def State.bump (s : State) (k : Nat) (n : Nat := 1) : State := s.setN k (s.nreg k + n)

/-- The 64 bits of a register and the one above it. -/
def State.reg64 (s : State) (k : Nat) : Nat := s.nreg k + 2 ^ 32 * s.nreg (k + 4)

/-- The 96 bits of three consecutive registers. -/
def State.reg96 (s : State) (k : Nat) : Nat := s.reg64 k + 2 ^ 64 * s.nreg (k + 8)

def State.set64 (s : State) (k v : Nat) : State := (s.setN k v).setN (k + 4) (v / 2 ^ 32)

def State.set96 (s : State) (k v : Nat) : State := (s.set64 k v).setN (k + 8) (v / 2 ^ 64)

/-- A 48-bit count held in a LO register and bits [15:0] of the HI register above it, `n` more, modulo 2^48. Bits
[31:16] of the HI register are kept. -/
def State.bump48 (s : State) (k : Nat) (n : Nat := 1) : State :=
  let v := (s.nreg k + 2 ^ 32 * bitsOf (s.nreg (k + 4)) 0 16 + n) % 2 ^ 48
  (s.setN k v).wr ⟨k + 4, 0, 16⟩ (v / 2 ^ 32)

/-- A 48-bit count as held by `State.bump48`. -/
def State.reg48 (s : State) (k : Nat) : Nat := s.nreg k + 2 ^ 32 * bitsOf (s.nreg (k + 4)) 0 16

/-- The shadow word of an RWS key: what was written, or the live word (R11, R20). -/
def State.shadowWord (s : State) (k : Nat) : Nat :=
  match s.shadow.find? (fun e => e.1 == k) with
  | some e => e.2.toNat
  | none => s.nreg k

/-- A shadow field's value. -/
def State.shd (s : State) (f : Fld) : Nat := bitsOf (s.shadowWord f.addr) f.lo f.w

/-- The state with a shadow word. A shadow equal to its live word lists nothing (R20). -/
def State.setShadow (s : State) (k v : Nat) : State :=
  { s with shadow := Store.put (fun _ => s.reg k) s.shadow k (BitVec.ofNat 32 v) }

/-- A free value: the next of the values the manual leaves open. -/
def State.free (s : State) : Nat × State := (Config.free s.freeCtr, { s with freeCtr := s.freeCtr + 1 })

/-- The next value of the on-chip random source. -/
def State.draw (s : State) : Nat × State := (Config.random s.freeCtr, { s with freeCtr := s.freeCtr + 1 })

/-! ### Commit groups -/

/-- The commit group a key belongs to, as the address of its COMMIT register (R16); 0 for none. -/
def groupOf (k : Nat) : Nat :=
  if k < 2 ^ 32 then (match blkAt k with | some b => b.commit | none => 0)
  else
    let t := k / 2 ^ 32 - 1
    let i := k % 2 ^ 32
    match t with
    | 0 | 1 | 2 => Tbl.group .aclBase i
    | 3 | 4 => Tbl.group .leapSec i
    | 6 => Tbl.group .wakeData i
    | 7 => Tbl.group .evtDelay i
    | 8 | 9 | 10 | 11 => Tbl.group .rspRules i
    | 12 => Tbl.group .ptpDomains i
    | 13 => Tbl.group .pkeCurves i
    | 14 => Tbl.group .fnCfg i
    | 16 => Tbl.group .seqWdog i
    | 17 => Tbl.group .cntCfg i
    | _ => 0

/-- Every shadow of a group abandoned: it equals its live value again (R16's DISCARD). -/
def State.dropShadows (s : State) (b : Blk) : State :=
  { s with shadow := Store.drop (fun k => groupOf k == b.commit) s.shadow }

/-- Every field of a group takes its shadow's value, in one cycle (R17). -/
def State.applyShadows (s : State) (b : Blk) : State :=
  let mine := s.shadow.filter (fun e => groupOf e.1 == b.commit)
  mine.foldl (fun t e => t.setReg e.1 e.2) (s.dropShadows b)

/-- The engine sets an RWS value outside a commit: live value and shadow together. -/
def State.setBoth (s : State) (k v : Nat) : State :=
  { s.setN k v with shadow := Store.drop (fun j => j == k) s.shadow }

/-! ### Modes and units -/

/-- The device mode (R53). -/
def State.mode (s : State) : Nat := s.rd GLB.MODE_CURRENT

/-- Whether a quad, and whether a port, exists on this variant (R2). -/
def State.quadPresent (s : State) (q : Nat) : Bool := decide (q < s.variant.quads)
def State.portPresent (s : State) (p : Nat) : Bool := decide (p < s.variant.lanes)

/-- Whether target `t` stands in `GLB.MAINT_SET`. -/
def State.maint (s : State) (t : Nat) : Bool := bitAt (s.rd GLB.MAINT_SET_TARGETS) t

/-! ### Timescales (R77 to R85) -/

/-- q per nanosecond and per second (R93). -/
def qNs : Nat := 65536
def qSec : Nat := 65536 * 10 ^ 9

/-- The default entry of the timescale table: A = 0, B = 0, nothing to slew (R77). -/
def dTs : Nat → Ts := fun _ => ⟨0, 0, 0, 0⟩

/-- A change to the part of the state that belongs to TSC. -/
def State.setTsc (s : State) (f : TscS → TscS) : State := { s with tsc := f s.tsc }

def State.tsOf (s : State) (n : Nat) : Ts := Store.get dTs s.tsc.ts n
def State.setTs (s : State) (n : Nat) (t : Ts) : State :=
  { s with tsc := { s.tsc with ts := Store.put dTs s.tsc.ts n t } }

/-- The committed (for timescale 0, the discipline-written) rate ρ_n, in units of 2^-64. -/
def State.rho (s : State) (n : Nat) : Int := toSigned 64 (s.reg64 (TSC.RATE_LO n))

/-- The slew bound in force: a smear's while one runs (R91), else the committed one. -/
def State.boundOf (s : State) (n : Nat) : Nat :=
  let t := s.tsOf n
  if t.smearBound ≠ 0 then t.smearBound else s.rd (TSC.SLEW_BOUND_BOUND n)

/-- FOLLOW, which timescale 0 never has (R81). -/
def State.follows (s : State) (n : Nat) : Bool := n != 0 && s.on (TSC.CTRL_FOLLOW n)

/-- What the slew engine of timescale `n` has moved since its anchor, in units of 2^-32 q: one share of
65 536 × b × 2^-40 q per edge, and never more than the remaining offset (R83). -/
def State.absorbed (s : State) (n raw : Nat) : Int :=
  let t := s.tsOf n
  let b := s.boundOf n
  let moved : Int := (((raw - t.anc) / 65536 * (b * 256) : Nat) : Int)
  if t.rem > 0 then min t.rem moved else -(min (-t.rem) moved)

/-- T_n at raw value `raw`, exactly, in units of 2^-64 q (R77, R78): a follower inherits both the rate of
timescale 0 and what its slew engine moves. -/
def State.tsExact (s : State) (n raw : Nat) : Int :=
  let t := s.tsOf n
  let inherit : Int := if s.follows n then s.rho 0 else 0
  let moved0 : Int := if s.follows n then s.absorbed 0 raw - s.absorbed 0 t.anc else 0
  t.base * 2 ^ 32 + ((raw : Int) - (t.anc : Int)) * (2 ^ 64 + s.rho n + inherit)
    + (s.absorbed n raw + moved0) * 2 ^ 32

/-- T_n at raw value `raw`, truncated towards minus infinity to whole q, as an unsigned 96-bit value (R3, R77). -/
def State.tsAt (s : State) (n raw : Nat) : Nat := ofSigned 96 (s.tsExact n raw / 2 ^ 64)

/-- T_n now. -/
def State.tsNow (s : State) (n : Nat) : Nat := s.tsAt n s.raw

/-- Timescale-0 whole seconds now. -/
def State.sec0 (s : State) : Nat := s.tsNow 0 / qSec

/-- What remains of the offset of timescale `n` at raw value `raw`, in units of 2^-32 q. -/
def State.remAt (s : State) (n raw : Nat) : Int := (s.tsOf n).rem - s.absorbed n raw

/-- Timescale `n` re-anchored at raw value `e`: no value that can be read changes (R79). -/
def State.reanchor (s : State) (n e : Nat) : State :=
  let t := s.tsOf n
  let s1 := s.setTs n { t with anc := e, base := s.tsExact n e / 2 ^ 32, rem := s.remAt n e }
  s1.bumpF (TSC.STATUS_RE_ANCHORS n)

/-- Timescale `n` and, for timescale 0, every follower, re-anchored at `e` (R79). -/
def State.reanchorAll (s : State) (n e : Nat) : State :=
  if n = 0 then
    let fs := (List.range 64).filter (fun k => k == 0 || s.follows k)
    -- followers first: their values are formed with timescale 0's old anchor
    fs.reverse.foldl (fun t k => t.reanchor k e) s
  else s.reanchor n e

/-- `TSC.STATUS` and `TSC.REMAIN` brought up to date with the slew engine (R84, R85). -/
def State.showSlew (s : State) (n : Nat) : State :=
  let r := s.remAt n s.raw
  let b := s.boundOf n
  let s1 := s.wrB (TSC.STATUS_SLEWING n) (r != 0 && b != 0)
  let s2 := s1.wrB (TSC.STATUS_FROZEN n) (r != 0 && b == 0)
  s2.setSat (TSC.REMAIN n) (truncDiv r (2 ^ 48))

/-- The stamp of R5 as 16 bytes. -/
def stampBytes (time tsidx flags tag : Nat) : List Byte :=
  leBytes 12 time ++ leBytes 1 tsidx ++ leBytes 1 flags ++ leBytes 2 tag

/-- The signed 64-bit difference of a compare target and a value (R94). -/
def cmpDiff (g v : Nat) : Int := toSigned 64 (g + 2 ^ 64 - v % 2 ^ 64)

/-- Time passes to raw value `t`: never backwards, on whole edges, and only once the counter counts (R60, R70). -/
def State.advance (s : State) (t : Nat) : State :=
  if s.rawRun && decide (s.raw < t) then { s with raw := t / 65536 * 65536 } else s

/-! ### The ledger and the queues (R29 to R31, R40, R41) -/

/-- A change to the fabric's own part of the state. -/
def State.setFab (s : State) (f : FabS → FabS) : State := { s with fab := f s.fab }

def dLInst : Nat → LInst := fun _ => ⟨0, 0, 0⟩
def dTerms : Nat → ReqTerms := fun _ => ⟨0, 0, 0, 0⟩

/-- The token kinds of R40. -/
inductive Tok | request | buffer | credit | desc | depart | keytok
  deriving DecidableEq, Repr

def Tok.code : Tok → Nat
  | .request => 0 | .buffer => 1 | .credit => 2 | .desc => 3 | .depart => 4 | .keytok => 5

/-- The key of one ledger instance. -/
def Tok.key (k : Tok) (i : Nat) : Nat := 1024 * k.code + i

def State.lget (s : State) (k : Tok) (i : Nat) : LInst := Store.get dLInst s.fab.ledger (k.key i)

def State.lset (s : State) (k : Tok) (i : Nat) (l : LInst) : State :=
  { s with fab := { s.fab with ledger := Store.put dLInst s.fab.ledger (k.key i) l } }

/-- `n` tokens issued: they are held until returned; all counts modulo 2^48 (R41). -/
def State.issue (s : State) (k : Tok) (i n : Nat) : State :=
  let l := s.lget k i
  s.lset k i { l with issued := (l.issued + n) % 2 ^ 48, held := (l.held + n) % 2 ^ 48 }

/-- `n` tokens returned (no more than are held). -/
def State.give (s : State) (k : Tok) (i n : Nat) : State :=
  let l := s.lget k i
  let m := min n l.held
  s.lset k i { l with returned := (l.returned + m) % 2 ^ 48, held := l.held - m }

/-- The terminal terms of R43. -/
inductive Term | answered | cancelDrop | toHost | sumped
  deriving DecidableEq, Repr

/-- A request of quad `q` reaches its terminal term: the term counts it and its token is returned (R42, R43). -/
def State.endRequest (s : State) (q : Nat) (t : Term) : State :=
  let x := Store.get dTerms s.fab.terms q
  let y := match t with
    | .answered => { x with answered := (x.answered + 1) % 2 ^ 48 }
    | .cancelDrop => { x with cancelDrop := (x.cancelDrop + 1) % 2 ^ 48 }
    | .toHost => { x with toHost := (x.toHost + 1) % 2 ^ 48 }
    | .sumped => { x with sumped := (x.sumped + 1) % 2 ^ 48 }
  ({ s with fab := { s.fab with terms := Store.put dTerms s.fab.terms q y } }).give .request q 1

/-- The capacity of a queue (R31); 0 for numbers that select no queue. -/
def queueCap (v : Variant) (q : Nat) : Nat :=
  if q < 32 then (if q < v.lanes then 1024 else 0)
  else if q < 64 then (if q - 32 < v.lanes then 128 else 0)
  else if q < 96 then (if q - 64 < v.lanes then 64 else 0)
  else if q < 100 then (if q - 96 < v.quads then 512 else 0)
  else if q < 104 then (if q - 100 < v.quads then 96 else 0)
  else if q < 108 then (if q - 104 < v.quads then 256 else 0)
  else if q < 112 then (if q - 108 < v.quads then 64 else 0)
  else if q < 128 then 4096
  else if q < 136 then 96
  else if q = 136 then 8
  else if q < 141 then 32
  else if q = 141 then 1024
  else if q = 142 then 1024
  else if q = 143 then 256
  else if q < 160 then 64
  else 0

/-- Entries in a queue: its credits that are held (R29). -/
def State.qOcc (s : State) (q : Nat) : Nat := (s.lget .credit q).held

/-- The producer holds `n` credits (R29). FAB has taken back those of a queue whose consumer is isolated (R47). -/
def State.qRoom (s : State) (q n : Nat) : Bool :=
  decide (s.qOcc q + n ≤ queueCap s.variant q) && !s.fab.isolated.contains (Tok.credit.key q)

/-- `n` entries put into a queue; the high-water mark follows. -/
def State.qPut (s : State) (q : Nat) (n : Nat := 1) : State :=
  let s1 := s.issue .credit q n
  let occ := s1.qOcc q
  let hw := Store.get (fun _ => 0) s1.fab.qHigh q
  if occ > hw then s1.setFab (fun f => { f with qHigh := Store.put (fun _ => 0) f.qHigh q occ }) else s1

/-- `n` entries taken from a queue: the consumer returns their credits. -/
def State.qTake (s : State) (q : Nat) (n : Nat := 1) : State := s.give .credit q n

/-! ### Rings (R349 to R353) -/

def dRing : Nat → Ring := fun _ => ⟨.disabled, 0, 0, 0, 0, true, [], [], [], none, 0, 0, 0, 0, 0⟩
def dFn : Nat → FnSt := fun _ => ⟨false, false, false⟩

def State.ringOf (s : State) (r : Nat) : Ring := Store.get dRing s.hif.rings r
def State.setRing (s : State) (r : Nat) (x : Ring) : State :=
  { s with hif := { s.hif with rings := Store.put dRing s.hif.rings r x } }
def State.fnOf (s : State) (f : Nat) : FnSt := Store.get dFn s.hif.fns f
def State.setFn (s : State) (f : Nat) (x : FnSt) : State :=
  { s with hif := { s.hif with fns := Store.put dFn s.hif.fns f x } }

/-- A field of a function's `HIF.FN_CFG`. -/
def fnCfgFld (f lo w : Nat) : Fld := ⟨Tbl.fnCfg.key f, lo, w⟩
def State.ringBase (s : State) (f : Nat) : Nat := s.rd (fnCfgFld f 0 10)
def State.ringCount (s : State) (f : Nat) : Nat := s.rd (fnCfgFld f 10 10)
def State.vectors (s : State) (f : Nat) : Nat := s.rd (fnCfgFld f 20 7)

/-- Whether ring `r` lies in the range of function `f` (R349). -/
def State.owns (s : State) (f r : Nat) : Bool :=
  decide (s.ringBase f ≤ r) && decide (r < s.ringBase f + s.ringCount f)

/-- The function that owns a ring, if one does. -/
def State.ringOwner (s : State) (r : Nat) : Option Nat := firstIdx 64 (fun f => s.owns f r)

/-- A field of a ring's words (R350). -/
def ringFld (r word lo w : Nat) : Fld := ⟨Tbl.ringWord.key (8 * r + word), lo, w⟩
def State.ringKind (s : State) (r : Nat) : Nat := s.rd (ringFld r 0 0 3)
def State.ringSize (s : State) (r : Nat) : Nat := s.rd (ringFld r 1 0 17)
def State.bufSize (s : State) (r : Nat) : Nat := 2 ^ (s.rd (ringFld r 0 16 4) + 8)
def State.sqAddr (s : State) (r : Nat) : Nat := s.reg64 (Tbl.ringWord.key (8 * r + 2)) % 2 ^ 32 +
  2 ^ 32 * s.nreg (Tbl.ringWord.key (8 * r + 3))
def State.cqAddr (s : State) (r : Nat) : Nat :=
  s.nreg (Tbl.ringWord.key (8 * r + 4)) + 2 ^ 32 * s.nreg (Tbl.ringWord.key (8 * r + 5))

/-- Ring `r` is an ENABLED ring of kind `k` owned by function `f`. -/
def State.ringIs (s : State) (f k r : Nat) : Bool :=
  s.owns f r && decide ((s.ringOf r).st = .enabled) && decide (s.ringKind r = k)

/-! ### Host memory -/

/-- What a byte of host memory that nothing has written reads as. DESIGN CHOICE (log entry 3): zero. -/
def dByte : Nat → Byte := fun _ => 0

/-- The canonical form of host memory. -/
abbrev Memory.wf (m : List Host.Cell) : Prop := Store.wf dByte m = true

def State.byteAt (s : State) (a : Nat) : Byte := Store.get dByte s.mem (a % 2 ^ 64)

/-- `n` bytes of host memory from address `a`. -/
def State.bytesAt (s : State) (a n : Nat) : List Byte := (List.range n).map (fun i => s.byteAt (a + i))

/-- Host memory with bytes written from address `a` up. -/
def State.setBytes (s : State) : Nat → List Byte → State
  | _, [] => s
  | a, b :: r => State.setBytes { s with mem := Store.put dByte s.mem (a % 2 ^ 64) b } (a + 1) r

/-! ### Performance counters (R474 to R476) -/

def zNat : Nat → Nat := fun _ => 0

/-- The counters in the store of counter set-ups that are enabled and count event `e` of group `g` from unit `u`: for
groups 0 and 1 the unit is the quad or port the counter belongs to, for the groups that name a UNIT it is UNIT. -/
def State.cntMatches (s : State) (g e u : Nat) : List Nat :=
  (s.regs.filter (fun x =>
    let i := x.1 - Tbl.cntCfg.key 0
    let w := x.2.toNat
    decide (Tbl.cntCfg.key 0 ≤ x.1) && decide (x.1 < Tbl.cntCfg.key 1536)
      && bitsOf w 12 1 == 1 && bitsOf w 0 12 == 256 * g + e
      && (if g = 0 then i / 128 == u else if g = 1 then (i - 512) / 16 == u
          else if g = 2 || g = 7 || g = 10 || g = 11 || (g = 5 && decide (3 ≤ e)) then true else bitsOf w 16 6 == u))).map
    (fun x => x.1 - Tbl.cntCfg.key 0)

/-- `n` occurrences of an event added to every counter that counts it; the first counter whose bit 47 set, if any. -/
def State.pmcAdd (s : State) (g e u n : Nat) : State × Option Nat :=
  (s.cntMatches g e u).foldl (fun acc i =>
    let old := Store.get zNat acc.1.pmc.cnt i
    let new := (old + n) % 2 ^ 48
    let half := !bitAt old 47 && bitAt new 47
    let s1 := { acc.1 with pmc := { acc.1.pmc with cnt := Store.put zNat acc.1.pmc.cnt i new } }
    (s1, match acc.2 with | some j => some j | none => if half then some i else none)) (s, none)

def dTd : Nat → Td := fun _ => ⟨0, 0, 0, 0, 0⟩

/-- A top-down count of a unit changed (R480, R481). -/
def State.updTd (s : State) (u : Nat) (f : Td → Td) : State :=
  { s with pmc := { s.pmc with td := Store.upd dTd s.pmc.td u f } }

/-! ### The sequencers (R373, R380) -/

def dBank : SqBank := ⟨[], [], 0, 0, 0, 0⟩
def dSq : Nat → Sq := fun _ => 
  ⟨.empty, [], false, 0, false, dBank, dBank, [], false, false, 0, none, none, 0, 0, [], 0, 0, 0, none, 0, 0, 0⟩
/-- A change to the sequencers' part of the state. -/
def State.setSeqS (s : State) (f : SeqS → SeqS) : State := { s with seq := f s.seq }
def State.sq (s : State) (n : Nat) : Sq := Store.get dSq s.seq.sq n
def State.setSq (s : State) (n : Nat) (x : Sq) : State :=
  { s with seq := { s.seq with sq := Store.put dSq s.seq.sq n x } }

/-- Event `bit` of a sequencer becomes pending (R377, R379). A bank-less or stopped sequencer keeps none. -/
def State.seqEvent (s : State) (n bit : Nat) : State :=
  let x := s.sq n
  if x.st = .empty ∨ x.st = .off then s else s.setSq n { x with events := x.events ||| 2 ^ bit }

end Sys2Proof.Machine
end

