-- ==== Sys2Proof/Machine/Flags.lean ====
section
/-! DEFINITION. Sticky bits and what they raise: the alarm summary, the interrupt, the ALARM event and the journal
record (R12, R472, R473); the journal queue (R427), the event queue (R366), MSI-X (R355) and the Sump (R50 to R52). -/

namespace Sys2Proof.Machine

def zBool (b : Bool) : Nat → Bool := fun _ => b

/-- A message on a vector of a function, or its pending bit (R355). An MSI-X vector comes up masked, as PCI Express
has it. -/
def State.msixCore (s : State) (fn vec : Nat) : State × Bool :=
  let f := s.fnOf fn
  let k := 64 * fn + vec
  if f.msixEn && !f.fnMask && f.bme && !Store.get (zBool true) s.hif.msixMask k then
    (({ s with hif := { s.hif with lastMsg := some (fn, vec),
                                   msixPend := Store.put (zBool false) s.hif.msixPend k false } }).bump HIF.MSIX_SENT,
     true)
  else
    ({ s with hif := { s.hif with msixPend := Store.put (zBool false) s.hif.msixPend k true } }, false)

/-- The HALF sticky bit of PMC and the first counter that set it (R476). -/
def State.markHalf (s : State) (c : Option Nat) : State :=
  match c with
  | none => s
  | some i =>
    let s1 := if s.on PMC.STICKY_HALF then s else s.setN PMC.HALF_IDX (i + 2 ^ 16)
    let s2 := s1.wr PMC.STICKY_HALF 1
    if s2.on ⟨PMC.INT_EN, 4, 1⟩ then s2.wr ⟨PMC.ALARM_SUM, 23, 1⟩ 1 else s2

/-- The interrupt of an enabled sticky bit: an MSI-X on ALARM_VEC of function 0 (R355, R472). A HALF that counting the
message itself sets is covered by the same message. -/
def State.alarmMsix (s : State) : State :=
  let r := s.msixCore 0 (s.rd HIF.CTRL_ALARM_VEC)
  if r.2 then
    let p := r.1.pmcAdd 2 9 0 1
    p.1.markHalf p.2
  else r.1

/-- A sticky bit sets (R12); on 0 to 1 with its INT_EN bit 1, the summary bits set and the interrupt is raised
(R472). -/
def State.raiseBit (s : State) (f : Fld) : State :=
  if s.on f then s
  else
    let s1 := s.wr f 1
    if s1.on ⟨f.addr + 4, f.lo, 1⟩ then
      match blkAt f.addr with
      | none => s1
      | some b =>
        let s2 := s1.wr ⟨PMC.ALARM_SUM, b.target, 1⟩ 1
        let s3 := match b with | .prt p => s2.wr ⟨PMC.ALARM_PORTS, p, 1⟩ 1 | _ => s2
        s3.alarmMsix
    else s1

/-- Occurrences of a performance event; bit 47 setting raises HALF (R475, R476). -/
def State.count (s : State) (g e u : Nat) (n : Nat := 1) : State :=
  let p := s.pmcAdd g e u n
  match p.2 with
  | none => p.1
  | some i =>
    let s1 := if p.1.on PMC.STICKY_HALF then p.1 else p.1.setN PMC.HALF_IDX (i + 2 ^ 16)
    s1.raiseBit PMC.STICKY_HALF

/-- Discards counted by the Sump under their reason, modulo 2^48 (R50), and whether bit 47 of the count set (R52). -/
def State.sumpTally (s : State) (reason n : Nat) : State × Bool :=
  let k := FAB.SUMP_CNT_LO reason
  let old := s.reg48 k
  let s1 := (s.bump48 k n).count 2 6 0 n
  (s1, !bitAt old 47 && bitAt (s1.reg48 k) 47)

/-- A discard counted where the item is itself a record or an event that found no room: SUMP_HALF raises its
interrupt, and neither an event nor a record is made of it (their queue is the one that is full). -/
def State.sumpCount (s : State) (reason : Nat) (n : Nat := 1) : State :=
  let r := s.sumpTally reason n
  if r.2 then r.1.raiseBit FAB.STICKY_SUMP_HALF else r.1

/-- An event put into queue 142; without credit it goes to the Sump as EVENT_OVF (R30), and its ring's SEQ still
advances. The answer says whether it was taken. -/
def State.postEvent (s : State) (ring kind : Nat) (payload : List Byte) : State × Bool :=
  if s.qRoom 142 1 then
    ({ s.qPut 142 with hif := { s.hif with evQ := s.hif.evQ ++ [⟨ring, kind, payload⟩] } }, true)
  else
    let x := s.ringOf ring
    ((s.setRing ring { x with evSeq := (x.evSeq + 1) % 2 ^ 32, drops := (x.drops + 1) % 2 ^ 32 }).sumpCount 0x17, false)

/-- The ALARM payload (R368). -/
def State.alarmPayload (s : State) (b : Blk) (bits : Nat) : List Byte :=
  leBytes 12 (s.tsNow 0) ++ leBytes 1 b.target ++ zeros 3 ++ leBytes 4 bits ++ zeros 4

/-- A sticky bit sets with its interrupt, preceded by the ALARM event when ALARM_EN is 1 (R368, R472); not journalled
here. -/
def State.setQuiet (s : State) (f : Fld) : State :=
  if s.on f then s
  else
    match blkAt f.addr with
    | none => s.raiseBit f
    | some b =>
      if s.on HIF.CTRL_ALARM_EN && s.on ⟨f.addr + 4, f.lo, 1⟩ then
        (s.postEvent (s.rd HIF.CTRL_ALARM_RING) 1 (s.alarmPayload b (2 ^ f.lo))).1.raiseBit f
      else s.raiseBit f

/-- A record put into journal queue 141 (R427): TIME is timescale 0 now, KA is set in Keep-alive. A record that finds
the queue full goes to the Sump as EVENT_OVF and counts in JRN_LOST. -/
def State.journal (s : State) (typ src : Nat) (body : List Byte) : State :=
  if s.qRoom 141 1 then
    let r : JRec := ⟨s.tsNow 0, typ, src, s.mode == 8, s.jrn.lost, fit 34 body⟩
    ({ s.qPut 141 with jrn := { s.jrn with q := s.jrn.q ++ [r], lost := 0 } }).seqEvent 50 1
  else
    let s1 := (s.sumpCount 0x17).bump FLS.JRN_LOST
    ({ s1 with jrn := { s1.jrn with lost := s1.jrn.lost + 1 } }).setQuiet FLS.STICKY_JRN_LOST

/-- The journal mask of a block (R473). -/
def State.jrnMask (s : State) (b : Blk) : Nat :=
  s.nreg (Tbl.jrnMask.key (b.target + 32 * (match b with | .prt p => p | _ => 0)))

/-- A sticky bit sets: interrupt, ALARM event, and a STICKY journal record when its mask bit is 1 and it was 0 (R12,
R472, R473). -/
def State.sticky (s : State) (f : Fld) : State :=
  if s.on f then s
  else
    let s1 := s.setQuiet f
    match blkAt f.addr with
    | none => s1
    | some b =>
      if bitAt (s1.jrnMask b) f.lo then
        let p := match b with | .prt p => p | _ => 0
        (s1.bump PMC.JRN_COUNT).journal 9 b.target (leBytes 1 f.lo ++ leBytes 1 p)
      else s1

/-- A refused write, commit or command: the block's CFG_REFUSED sticky bit (R18, R21). -/
def State.refuseCfg (s : State) (b : Blk) : State := s.sticky b.cfgRefused

/-- Clearing sticky bits (R12): the bits of `val` clear, and those of `recurs`, whose events recur in the same cycle,
stay set. The block's alarm bit clears once no enabled bit is left (R472). -/
def State.clearSticky (s : State) (b : Blk) (val recurs : Nat) : State :=
  let old := s.nreg b.sticky
  let new := (old &&& (0xFFFFFFFF - (val &&& 0xFFFFFFFF))) ||| (old &&& val &&& recurs)
  let s1 := s.setN b.sticky new
  if s1.nreg b.sticky &&& s1.nreg b.intEn = 0 then
    match b with
    | .prt p =>
      let s2 := s1.wr ⟨PMC.ALARM_PORTS, p, 1⟩ 0
      if s2.nreg PMC.ALARM_PORTS = 0 then s2.wr ⟨PMC.ALARM_SUM, 12, 1⟩ 0 else s2
    | _ => s1.wr ⟨PMC.ALARM_SUM, b.target, 1⟩ 0
  else s1

/-- The Sump classes of R368. -/
inductive SClass | request | buffer | credit | stamp | event | keytok
  deriving DecidableEq, Repr

def SClass.code : SClass → Nat
  | .request => 0 | .buffer => 1 | .credit => 2 | .stamp => 3 | .event => 4 | .keytok => 5

/-- The SUMP_SAMPLE payload (R368). -/
def State.samplePayload (s : State) (reason : Nat) (c : SClass) (tgt inst : Nat) (frame : List Byte) (flen : Nat) :
    List Byte :=
  leBytes 12 (s.tsNow 0) ++ leBytes 1 reason ++ leBytes 1 c.code ++ leBytes 1 tgt ++ zeros 1 ++ leBytes 2 inst
    ++ leBytes 2 (min 128 frame.length) ++ leBytes 2 flen ++ zeros 10 ++ fit 128 (frame.take 128)

/-- Discards to the Sump with one reason (R50), and the sample of R51: at most one per reason in each aligned
millisecond of raw count, to an enabled event ring of function 0. -/
def State.sump (s : State) (reason : Nat) (c : SClass) (tgt inst : Nat) (n : Nat := 1) (frame : List Byte := [])
    (flen : Nat := 0) : State :=
  if n = 0 then s
  else
    let r := s.sumpTally reason n
    let s1 := if r.2 then r.1.sticky FAB.STICKY_SUMP_HALF else r.1
    let ms := s.raw / (qNs * 1000000) + 1
    let ring := s.rd FAB.CTRL_SAMPLE_RING
    if s.on FAB.CTRL_SAMPLE_EN && s.on (FAB.SUMP_CNT_HI_SAMPLE reason) && s.ringIs 0 3 ring
        && Store.get zNat s.fab.sampleMs reason != ms then
      if s1.qRoom 142 1 then
        let s2 := s1.setFab (fun f => { f with sampleMs := Store.put zNat f.sampleMs reason ms })
        (s2.postEvent ring 0 (s2.samplePayload reason c tgt inst frame flen)).1
      else s1.sticky FAB.STICKY_SAMPLE_LOST
    else s1

/-- A request of quad `q` discarded: it counts in the Sump and in the sumped term (R43, R50). -/
def State.sumpRequest (s : State) (reason q tgt inst : Nat) (frame : List Byte := []) (flen : Nat := 0) : State :=
  (((s.sump reason .request tgt inst 1 frame flen).endRequest q .sumped).count 0 7 q)

/-- A consumed poisoned granule (R470). -/
def State.poisonSeen (s : State) : State := (s.bump PMC.POISON_SEEN).sticky PMC.STICKY_POISON

/-- An MSI-X on a ring's vector. -/
def State.msix (s : State) (fn vec : Nat) : State :=
  let r := s.msixCore fn vec
  if r.2 then r.1.count 2 9 0 else r.1

end Sys2Proof.Machine
end

