-- ==== Sys2Proof/Machine/Operands.lean ====
section
/-! DEFINITION. What a command's operands reach and whether they may: the access tables (R34 to R37), the mode's host
access (R54), the key a register address reaches through its selector (R504), and the completion of a host command
(R22 to R24, R357 to R360). -/

namespace Sys2Proof.Machine

/-! ### Status codes (R22) -/

def stOK : Nat := 0
def stZERO_LEN : Nat := 1
def stREFUSED : Nat := 2
def stABORTED : Nat := 3
def stPOISONED : Nat := 4
def stBUSY : Nat := 5
def stINPUT_ZERO : Nat := 6
def stINPUT_RANGE : Nat := 7
def stNOT_ON_CURVE : Nat := 8
def stPARAM_INSANE : Nat := 9
def stNOT_INVERTIBLE : Nat := 0x0A
def stNO_KEY : Nat := 0x0B
def stDENIED : Nat := 0x0C
def stRING_STARVED : Nat := 0x0D
def stTIMEOUT : Nat := 0x0E
def stINCOMPLETE : Nat := 0x0F
def stSTALE : Nat := 0x10
def stDISPUTED : Nat := 0x11
def stWAKE_FAILED : Nat := 0x12
def stROLLED_BACK : Nat := 0x13
def stSIGNATURE_BAD : Nat := 0x14
def stMODE_FORBIDS : Nat := 0x15

/-! ### Access tables (R34 to R36) -/

/-- The rights of R34. -/
inductive Right | read | write | exec | useKey
  deriving DecidableEq, Repr

def Right.code : Right → Nat | .read => 0 | .write => 1 | .exec => 2 | .useKey => 3

/-- Window `w` of target `t` covers page `p` and grants master `m` the right (R34). -/
def State.windowGrants (s : State) (m t p : Nat) (r : Right) (w : Nat) : Bool :=
  let i := 16 * t + w
  let base := s.nreg (Tbl.aclBase.key i)
  let limit := s.nreg (Tbl.aclLimit.key i)
  decide (base ≤ p) && decide (p ≤ limit) && bitAt (s.nreg (Tbl.aclRights.key (128 * i + m))) r.code

/-- Whether an access is granted: the union of the windows (R34), with the overrides of R35. -/
def State.granted (s : State) (m t p : Nat) (r : Right) : Bool :=
  if m = 117 && s.mode != 11 then false
  else if m = 118 && s.mode != 0 && s.mode != 2 then false
  else if r = .exec && t != 19 then false
  else (List.range 16).any (s.windowGrants m t p r)

/-- A denied access (R36): counted, recorded and sticky. -/
def State.deny (s : State) (m t : Nat) (r : Right) (secret : Bool := false) : State :=
  let s1 := s.bump FAB.DENY_COUNT
  let s2 := s1.setN FAB.DENY_LAST (m + 2 ^ 8 * t + 2 ^ 16 * r.code + 2 ^ 18 * b2n secret)
  (s2.sticky FAB.STICKY_DENIED).count 2 5 0

/-- The page of a BAR0 address within its block's target (R502). -/
def pageOf (a : Nat) : Nat :=
  match blkAt a with
  | some (.prt _) => (a - 0x100000) / 4096
  | some b => (a - b.base) / 4096
  | none => 0

/-- The host access of the mode (R54). Only functions are the host: masters 64 and up are not held by it. -/
def State.modeAllows (s : State) (m : Nat) (b : Blk) (a : Nat) (write : Bool) : Bool :=
  if 64 ≤ m then true
  else
    match s.mode with
    | 0 => if write then m == 0 && a == GLB.RESET_CTRL && s.on GLB.BOOT_STAT_FATAL else b == .glb
    | 1 => b == .glb || b == .bst
    | 8 => b == .glb || b == .pwr
    | 10 => b != .key && b != .pke
    | 11 => false
    | _ => true

/-- Registers only master 0 may write, whatever the tables grant (R57, R371, R449). -/
def masterZeroOnly (a : Nat) : Bool :=
  a == GLB.MODE_REQ || a == GLB.RESET_CTRL || a == HIF.FN_CFG || a == PWR.DOM_REQ

/-- A register whose block or instance the variant lacks (R2). -/
def State.absentReg (s : State) (a : Nat) : Bool :=
  match blkAt a with
  | some (.prt p) => !s.portPresent p
  | some .rsp =>
    let o := a - Blk.rsp.base
    decide (0x100 ≤ o) && decide (o < 0x200) && !s.quadPresent ((o - 0x100) / 0x40)
  | some .nts =>
    let o := a - Blk.nts.base
    decide (0x40 ≤ o) && decide (o < 0xC0) && !s.quadPresent ((o - 0x40) / 0x20)
  | some .ptp =>
    (decide (PTP.Q_GRANTS 0 ≤ a) && decide (a ≤ PTP.Q_GRANTS 3) && !s.quadPresent ((a - PTP.Q_GRANTS 0) / 4))
      || (decide (PTP.Q_RATE 0 ≤ a) && decide (a ≤ PTP.Q_RATE 3) && !s.quadPresent ((a - PTP.Q_RATE 0) / 4))
  | _ => false

/-- Where an access to a BAR0 address stands (R2, R54, R57, R502): not decoded, held back by the mode, denied, or
granted. -/
inductive Access | undecoded | modeHeld | denied | granted
  deriving DecidableEq, Repr

def State.access (s : State) (m a : Nat) (r : Right) : Access :=
  match blkAt a, rowAt a with
  | some b, some _ =>
    if s.absentReg a then .undecoded
    else if !s.modeAllows m b a (r == .write) then .modeHeld
    else if r == .write && masterZeroOnly a && m != 0 then .denied
    else if s.granted m b.target (pageOf a) r then .granted
    else .denied
  | _, _ => .undecoded

/-! ### Table windows (R504) -/

/-- The ring and word a master's banked `HIF.RING_SEL` names. -/
def State.selRing (s : State) (m : Nat) : Nat := s.rd ⟨Tbl.ringSel.key m, 0, 10⟩
def State.selFn (s : State) (m : Nat) : Nat := s.rd ⟨Tbl.fnSel.key m, 0, 6⟩
def State.selSeq (s : State) (m : Nat) : Nat := s.rd ⟨Tbl.seqSel.key m, 0, 6⟩

/-- The RSP table word `RSP.TBL_SEL` names, among rules, profiles, classes and templates; the read-only bucket
table is shown by its own records. -/
def State.rspKey (s : State) : Option Nat :=
  let w := s.rd RSP.TBL_SEL_WORD
  let i := s.rd RSP.TBL_SEL_INDEX
  match s.rd RSP.TBL_SEL_TABLE with
  | 0 => if i < 4096 then some (Tbl.rspRules.key (16 * i + w)) else none
  | 1 => if i < 64 ∧ w < 4 then some (Tbl.rspProfiles.key (4 * i + w)) else none
  | 2 => if i < 16 ∧ w < 4 then some (Tbl.rspClasses.key (4 * i + w)) else none
  | 3 => if i < 64 then some (Tbl.rspTemplates.key (16 * i + w)) else none
  | _ => none

/-- The PTP table word `PTP.TBL_SEL` names, among domains and upstream addresses (which follow the domains). -/
def State.ptpKey (s : State) : Option Nat :=
  let w := s.rd PTP.TBL_SEL_WORD
  let i := s.rd PTP.TBL_SEL_INDEX
  match s.rd PTP.TBL_SEL_TABLE with
  | 0 => if i < 64 ∧ w < 8 then some (Tbl.ptpDomains.key (8 * i + w)) else none
  | 2 => if i < 4 ∧ w < 8 then some (Tbl.ptpDomains.key (512 + 8 * i + w)) else none
  | _ => none

/-- The wake-pattern word `PRT.WAKE_SEL` of port `p` names: 16 patterns of five words (R226). -/
def State.wakeKey (s : State) (p : Nat) : Option Nat :=
  let w := s.rd (PRT.WAKE_SEL_WORD p)
  if w < 5 then some (Tbl.wakeData.key (256 * p + 8 * s.rd (PRT.WAKE_SEL_PATTERN p) + w)) else none

/-- The key a register access by master `m` reaches: the register itself, the banked copy (R347), or the word the
selection register names; none where nothing is selected. -/
def State.keyOf (s : State) (m a : Nat) : Option Nat :=
  if a = FAB.ACL_BASE || a = FAB.ACL_LIMIT || a = FAB.ACL_RIGHTS then
    let t := s.rd FAB.ACL_SEL_TARGET
    let w := s.rd FAB.ACL_SEL_WINDOW
    let k := s.rd FAB.ACL_SEL_MASTER
    if t > 27 || k > 119 then none
    else if a = FAB.ACL_BASE then some (Tbl.aclBase.key (16 * t + w))
    else if a = FAB.ACL_LIMIT then some (Tbl.aclLimit.key (16 * t + w))
    else some (Tbl.aclRights.key (128 * (16 * t + w) + k))
  else if a = TSC.LEAP_SEC then some (Tbl.leapSec.key (s.rd TSC.LEAP_SEL_ENTRY))
  else if a = TSC.LEAP_OFS then some (Tbl.leapOfs.key (s.rd TSC.LEAP_SEL_ENTRY))
  else if GNC.CH_DATA 0 ≤ a ∧ a ≤ GNC.CH_DATA 11 then some a
  else if a = EVT.DELAY_DATA then some (Tbl.evtDelay.key (s.nreg EVT.DELAY_SEL % 32))
  else if a = RSP.TBL_DATA then s.rspKey
  else if a = PTP.TBL_DATA then s.ptpKey
  else if a = PKE.TBL_DATA then
    let c := s.rd PKE.TBL_SEL_CURVE
    let w := s.rd PKE.TBL_SEL_WORD
    if (5 ≤ c ∧ c ≤ 7) ∨ 17 < w then none
    else some (Tbl.pkeCurves.key (256 * c + 32 * s.rd PKE.TBL_SEL_PARAM + w))
  else if a = HIF.FN_SEL then some (Tbl.fnSel.key m)
  else if a = HIF.RING_SEL then some (Tbl.ringSel.key m)
  else if a = HIF.RING_CTRL then some (Tbl.ringCtrl.key m)
  else if a = HIF.FN_CFG then some (Tbl.fnCfg.key (s.selFn m))
  else if a = HIF.RING_DATA then
    some (Tbl.ringWord.key (8 * s.selRing m + s.rd ⟨Tbl.ringSel.key m, 16, 3⟩))
  else if a = SEQ.SEL then some (Tbl.seqSel.key m)
  else if a = SEQ.WDOG then
    let n := s.selSeq m
    if n < 52 ∧ (32 ≤ n ∨ s.quadPresent (n / 8) = true) then some (Tbl.seqWdog.key n) else none
  else if a = PMC.CNT_CFG then
    let c := s.rd PMC.CNT_SEL_INDEX
    let here := if c < 512 then s.quadPresent (c / 128) else if c < 1024 then s.portPresent ((c - 512) / 16) else true
    if c < 1536 ∧ here = true then some (Tbl.cntCfg.key c) else none
  else if a = PMC.JRN_MASK then
    let t := s.rd PMC.JRN_SEL_TARGET
    if t < 25 then some (Tbl.jrnMask.key (t + 32 * (if t = 12 then s.rd PMC.JRN_SEL_PORT else 0))) else none
  else
    match blkAt a with
    | some (.prt p) =>
      if a = PRT.WAKE_DATA p then s.wakeKey p else some a
    | _ => some a

/-! ### Completions of host commands (R357 to R360) -/

/-- A completion queued on a ring until a CQ slot is free (R358); a ring that is DISABLED discards it (R352). -/
def State.postCpl (s : State) (r : Nat) (c : Cpl) : State :=
  let x := s.ringOf r
  if x.st = .disabled then s else s.setRing r { x with cpls := x.cpls ++ [c] }

/-- The command leaves queue 143, if it waits there. -/
def State.takeCmd (s : State) (c : HostCmd) : State :=
  if s.hif.cmdQ.contains c then { s.qTake 143 with hif := { s.hif with cmdQ := s.hif.cmdQ.erase c } } else s

/-- A command completes (R357): any code other than OK and ZERO_LEN sets CMD_FAIL and LAST_CMD; REFUSED and DENIED
count in CMD_REFUSED. -/
def State.complete (s : State) (c : HostCmd) (status count : Nat) : State :=
  let s1 := s.takeCmd c
  let s2 :=
    if status = stOK || status = stZERO_LEN then s1
    else (s1.setN HIF.LAST_CMD (c.block + 2 ^ 8 * c.opcode + 2 ^ 16 * status + 2 ^ 24 * c.fn)).sticky HIF.STICKY_CMD_FAIL
  let s3 := if status = stREFUSED || status = stDENIED then s2.bump HIF.CMD_REFUSED else s2
  s3.postCpl c.ring ⟨c.slot, status, c.block, count, c.opcode, c.tag, 0, 1, none⟩

/-- The lowest of the codes that apply, over HIF's own checks and the block's (R24, R359). -/
def HostCmd.code (c : HostCmd) (codes : List Nat) : Nat := lowestCode (c.pre :: codes)

/-- Fields of a command's payload. -/
def HostCmd.u (c : HostCmd) (off n : Nat) : Nat := leAt c.payload off n
def HostCmd.zero (c : HostCmd) (lo hi : Nat) : Bool := zeroBytes c.payload lo hi

/-- The modes in which a ring-borne command of most blocks is forbidden: Boot, Self-test, Keep-alive, Factory-test. -/
def State.modeNoCmd (s : State) : Bool := s.mode == 0 || s.mode == 1 || s.mode == 8 || s.mode == 11

end Sys2Proof.Machine
end

