-- ==== Sys2Proof/Machine/Timescale.lean ====
section
/-! DEFINITION. TSC: the timescales and their slew engines (R77 to R85), steps (R86, R87), the leap table, UTC and
smear (R88 to R92), the format converters (R93), compare units (R94 to R96) and commit group TSC (R97). -/

namespace Sys2Proof.Machine

/-! ### Re-anchoring and steering -/

/-- Timescale `n` given anchor `e` with nothing else changed: what `reanchor` does, uncounted. -/
def State.rebase (s : State) (n e : Nat) : State :=
  let t := s.tsOf n
  s.setTs n { t with anc := e, base := s.tsExact n e / 2 ^ 32, rem := s.remAt n e }

/-- Timescale 0 and every follower rebased at `e`, followers first: their values are formed with timescale 0's old anchor. -/
def State.rebaseAll (s : State) (e : Nat) : State :=
  ((List.range 64).filter (fun k => k == 0 || s.follows k)).reverse.foldl (fun t k => t.rebase k e) s

/-- σ_n in units of 2^-64, for a remaining offset `r` and a bound `b` (R83). -/
def sigma (r : Int) (b : Nat) : Int := if r > 0 then b * 2 ^ 24 else if r < 0 then -(b * 2 ^ 24) else 0

/-- The discipline steering port writes timescale 0's rate, target and slew bound (R80): live value and shadow
together, with one re-anchor of timescale 0 and its followers where ρeff_0 changes (R79). The order is that of R87. A
rate beyond ±2^54 is one the manual gives no result for: a free rate within the range stands for it. -/
def State.steer (s : State) (rate target bound : Option Int) : State :=
  let e := s.raw
  let sig0 := sigma (s.remAt 0 e) (s.boundOf 0)
  let b' : Nat := match bound with | some b => ofSigned 31 b | none => s.boundOf 0
  let r' : Int := match target with | some x => x * 2 ^ 32 | none => s.remAt 0 e
  let rp : Int × State := match rate with
    | none => (s.rho 0, s)
    | some x => if -(2 ^ 54) ≤ x ∧ x ≤ 2 ^ 54 then (x, s)
                else let f := s.free; ((f.1 : Int) % (2 ^ 55 + 1) - 2 ^ 54, f.2)
  let s0 := rp.2
  let s1 := if rp.1 ≠ s0.rho 0 ∨ sigma r' b' ≠ sig0 then (s0.reanchorAll 0 e).count 7 2 0
    else if (s0.tsOf 0).rem ≠ 0 then s0.rebaseAll e else s0
  let s2 := match rate with
    | none => s1
    | some _ => (s1.setBoth (TSC.RATE_LO 0) (ofSigned 64 rp.1)).setBoth (TSC.RATE_HI 0) (ofSigned 64 rp.1 / 2 ^ 32)
  let s3 := match bound with
    | none => s2
    | some _ => s2.setBoth (TSC.SLEW_BOUND 0) b'
  let s4 := match target with
    | none => s3
    | some x => ((s3.setBoth (TSC.TARGET_LO 0) (ofSigned 64 x)).setBoth (TSC.TARGET_HI 0)
        (ofSigned 64 x / 2 ^ 32)).setTs 0 { s3.tsOf 0 with rem := x * 2 ^ 32 }
  s4.showSlew 0

/-- The raw value of the edge at which the slew of timescale `n` absorbs the last of its offset (R83). -/
def State.slewEnd (s : State) (n : Nat) : Nat :=
  let t := s.tsOf n
  t.anc + 65536 * ceilDiv t.rem.natAbs (s.boundOf n * 256)

/-- A slew reaches its target: σ becomes 0 with a re-anchor at the edge that absorbs the remainder, SMEARING clears
with the committed bound restored, and SLEW_DONE sets (R83, R91). -/
def State.endSlew (s : State) (n : Nat) : State :=
  let t := s.tsOf n
  if t.rem ≠ 0 ∧ s.boundOf n ≠ 0 ∧ s.slewEnd n ≤ s.raw then
    let s1 := (s.reanchorAll n (s.slewEnd n)).count 7 2 0
    let s2 := s1.setTs n { s1.tsOf n with smearBound := 0 }
    ((s2.wr (TSC.STATUS_SMEARING n) 0).showSlew n).sticky TSC.STICKY_SLEW_DONE
  else s.showSlew n

/-! ### Steps (R86) -/

/-- A step by `amount` whole q of timescale `n`: every timescale the step moves takes the value read just before the
edge plus the amount, its fraction bits clear, and R stays. A step of timescale 0 moves every follower. -/
def State.stepBy (s : State) (n : Nat) (amount : Int) : State :=
  let moved := if n = 0 then (List.range 64).filter (fun k => k == 0 || s.follows k) else [n]
  let vals := moved.map (fun k => (k, s.tsExact k s.raw / 2 ^ 64 + amount, s.remAt k s.raw))
  let s1 := vals.foldl (fun t v =>
    t.setTs v.1 { t.tsOf v.1 with anc := s.raw, base := v.2.1 * 2 ^ 32, rem := v.2.2 }) s
  let s2 := s1.setTsc (fun x => { x with steps0 := x.steps0 + b2n (n == 0) })
  (s2.setQuiet TSC.STICKY_STEPPED).journal 6 2 (leBytes 1 0 ++ leBytes 1 n ++ leBytes 12 (ofSigned 96 amount))

/-! ### The leap table (R89 to R92) -/

/-- A leap entry: its TAI second and its offset. -/
structure Leap where
  idx : Nat
  sec : Nat
  ofs : Int
  deriving DecidableEq, Repr

/-- The valid entries of the table, live or shadow, in index order. -/
def leapsOf (word : Nat → Nat) : List Leap :=
  (List.range 32).filterMap (fun i =>
    let o := word (Tbl.leapOfs.key i)
    if bitAt o 16 then some ⟨i, word (Tbl.leapSec.key i), toSigned 16 o⟩ else none)

def State.leaps (s : State) : List Leap := leapsOf s.nreg

/-- The entry in force at TAI second `sec`: the valid one with the greatest L at or before it (R89). -/
def State.leapAt (s : State) (sec : Nat) : Option Leap := (s.leaps.filter (fun l => decide (l.sec ≤ sec))).getLast?

/-- TAI−UTC at a TAI second, 0 where no entry is in force. -/
def State.taiUtc (s : State) (sec : Nat) : Int := match s.leapAt sec with | some l => l.ofs | none => 0

/-- The leap entries: every valid entry but the lowest, with its step (R89). -/
def State.leapSteps (s : State) : List (Leap × Int) :=
  let ls := s.leaps
  (ls.zip ls.tail).map (fun p => (p.2, p.2.ofs - p.1.ofs))

/-- The next leap entry ahead of a TAI second, with its step. -/
def State.nextLeap (s : State) (sec : Nat) : Option (Leap × Int) :=
  s.leapSteps.find? (fun p => decide (sec < p.1.sec))

/-- LEAP_WARN at a TAI second: 1 before an insertion, 2 before a deletion, from 86 400 s ahead (R90). -/
def State.leapWarn (s : State) (sec : Nat) : Nat :=
  match s.nextLeap sec with
  | some p => if p.1.sec ≤ sec + 86400 then (if p.2 > 0 then 1 else 2) else 0
  | none => 0

/-- What `TSC.UTC_STAT` shows (R89, R90). -/
def State.utcStat (s : State) : Nat :=
  let sec := s.sec0
  ofSigned 16 (s.taiUtc sec) + 2 ^ 16 * s.leapWarn sec + 2 ^ 18 * b2n (s.leapAt sec).isNone
    + 2 ^ 24 * (match s.nextLeap sec with | some p => p.1.idx | none => 0)

/-- A smear starts on every SMEAR timescale of a profile for one leap entry (R91). -/
def State.startSmear (s : State) (prof sec : Nat) (delta : Int) : State :=
  let span := s.rd ⟨TSC.SMEAR_CFG prof, 14, 14⟩
  let ns := (List.range 64).filter (fun n =>
    s.rd (TSC.CTRL_KIND n) == 1 && s.rd (TSC.CTRL_SMEAR_PROF n) == prof)
  let s1 := ns.foldl (fun t n =>
    let u := (t.reanchor n t.raw).count 7 2 0
    let x := u.tsOf n
    let v := u.setTs n { x with rem := x.rem - delta * (qSec : Nat) * 2 ^ 32, smearBound := ceilDiv (2 ^ 40) (60 * span) }
    (v.wr (TSC.STATUS_SMEARING n) 1).showSlew n) s
  s1.setTsc (fun x => { x with smeared := (prof, sec) :: x.smeared })

/-- Whether a smear of profile `prof` for leap `l` is due at timescale-0 second `sec`. -/
def State.smearDue (s : State) (prof : Nat) (l : Leap) : Bool :=
  decide (l.sec ≤ s.sec0 + 60 * s.rd (TSC.SMEAR_CFG_LEAD prof)) && decide (s.sec0 < l.sec)
    && !s.tsc.smeared.contains (prof, l.sec)

/-! ### Format converters (R93) -/

/-- The seconds, the nanoseconds and the sub-nanosecond part of a time value. -/
def taiSec (t : Nat) : Nat := t / qSec
def taiNs (t : Nat) : Nat := (t % qSec) / 65536
def taiSub (t : Nat) : Nat := t % 65536

/-- PTP timestamp: secondsField (48 bits) and nanosecondsField. -/
def ptpSec (t : Nat) : Nat := taiSec t % 2 ^ 48

/-- UTC seconds of value `t` on timescale `n`. -/
def State.utcSec (s : State) (n t : Nat) : Int :=
  if s.rd (TSC.CTRL_KIND n) = 1 then taiSec t else taiSec t - s.taiUtc (taiSec t)

/-- NTP era, seconds and fraction of value `t` on timescale `n`. -/
def State.ntpEra (s : State) (n t : Nat) : Int := (s.utcSec n t + 2208988800) / 2 ^ 32
def State.ntpSec (s : State) (n t : Nat) : Nat := ofSigned 32 (s.utcSec n t + 2208988800)
def ntpFrac (t : Nat) : Nat := (t % qSec) * 2 ^ 32 / qSec

/-- An NTP timestamp as 64 bits, seconds above fraction. -/
def State.ntp64 (s : State) (n t : Nat) : Nat := s.ntpSec n t * 2 ^ 32 + ntpFrac t

/-- The converters' LEAP_WARN and UTC_UNKNOWN for value `t` on timescale `n`: a SMEAR timescale shows timescale 0's. -/
def State.convWarn (s : State) (n t : Nat) : Nat :=
  if s.rd (TSC.CTRL_KIND n) = 1 then s.leapWarn s.sec0 else s.leapWarn (taiSec t)
def State.convUnknown (s : State) (n t : Nat) : Bool :=
  if s.rd (TSC.CTRL_KIND n) = 1 then (s.leapAt s.sec0).isNone else (s.leapAt (taiSec t)).isNone

/-! ### Commit group TSC (R97) -/

/-- A shadow rate, target, and the bound. -/
def State.shRho (s : State) (n : Nat) : Int :=
  toSigned 64 (s.shadowWord (TSC.RATE_LO n) + 2 ^ 32 * s.shadowWord (TSC.RATE_HI n))
def State.shTarget (s : State) (n : Nat) : Int :=
  toSigned 64 (s.shadowWord (TSC.TARGET_LO n) + 2 ^ 32 * s.shadowWord (TSC.TARGET_HI n))

/-- The rules of R97 for one timescale. -/
def State.tscOk (s : State) (n : Nat) : Bool :=
  let rho := s.shRho n
  let b := s.shd (TSC.SLEW_BOUND_BOUND n)
  let kind := s.shd (TSC.CTRL_KIND n)
  let follow := s.shd (TSC.CTRL_FOLLOW n)
  let load := s.shd (TSC.CTRL_LOAD_TARGET n) == 1
  let smearing := s.on (TSC.STATUS_SMEARING n)
  decide (-(2 ^ 54) ≤ rho) && decide (rho ≤ 2 ^ 54) && decide (b ≤ 1099511627)
    && (if n = 0 then !load && follow == 0 && kind == 0
        else
          (smearing || !(b == 0 && (if load then s.shTarget n != 0 else s.remAt n s.raw != 0)))
            && decide (kind < 2) && (kind == 0 || follow == 1)
            && !(smearing && (load || b != s.rd (TSC.SLEW_BOUND_BOUND n)))
            && (kind == 0 || decide (17 ≤ bitsOf (s.shadowWord (TSC.SMEAR_CFG (s.shd (TSC.CTRL_SMEAR_PROF n)))) 14 14)))

/-- The rules of R86 for an armed step. -/
def State.stepOk (s : State) : Bool :=
  if s.shd TSC.STEP_CTRL_ARM = 1 then
    let m := s.shd TSC.STEP_CTRL_MODE
    (s.mode == 3 || (s.mode == 6 && s.maint 2)) && m != 0 && !(m == 3 && s.shd TSC.STEP_CTRL_TS == 0)
  else true

/-- The rules of R89 for the leap table. -/
def State.leapOk (s : State) : Bool :=
  let new := leapsOf s.shadowWord
  let lim := s.sec0 + 2
  (new.zip new.tail).all (fun p => decide (p.1.sec < p.2.sec) && ((p.2.ofs - p.1.ofs).natAbs == 1))
    && (s.mode == 3 || (List.range 32).all (fun i =>
        let ls := Tbl.leapSec.key i
        let lo := Tbl.leapOfs.key i
        let same := s.nreg ls == s.shadowWord ls && s.nreg lo == s.shadowWord lo
        let oldBad := bitAt (s.nreg lo) 16 && decide (s.nreg ls ≤ lim)
        let newBad := bitAt (s.shadowWord lo) 16 && decide (s.shadowWord ls ≤ lim)
        same || !(oldBad || newBad)))

/-- Whether commit group TSC passes (R97). -/
def State.tscValid (s : State) : Bool := (List.range 64).all s.tscOk && s.stepOk && s.leapOk

/-- The armed step of a commit (R86). -/
def State.commitStep (s : State) : State :=
  if s.shd TSC.STEP_CTRL_ARM = 1 then
    let n := s.shd TSC.STEP_CTRL_TS
    let v : Nat := s.shadowWord TSC.STEP_VAL_LO + 2 ^ 32 * s.shadowWord TSC.STEP_VAL_MID + 2 ^ 64 * s.shadowWord TSC.STEP_VAL_HI
    let cur := s.tsExact n s.raw / 2 ^ 64
    match s.shd TSC.STEP_CTRL_MODE with
    | 1 => s.stepBy n ((v : Int) - cur)
    | 2 => s.stepBy n (toSigned 96 v)
    | _ =>
      let t0 := s.tsExact 0 s.raw / 2 ^ 64
      let new := if s.shd (TSC.CTRL_KIND n) = 1 then t0 - s.taiUtc s.sec0 * (qSec : Nat) else t0
      s.stepBy n (new - cur)
  else s

/-- The leap entries whose smear start has passed when a commit brings them start at once, with SMEAR_LATE (R92). -/
def State.lateSmears (s old : State) : State :=
  (List.range 4).foldl (fun t p =>
    t.leapSteps.foldl (fun u l =>
      let known := old.leapSteps.contains l
      if !known && u.smearDue p l.1 && (List.range 64).any (fun n =>
          u.rd (TSC.CTRL_KIND n) == 1 && u.rd (TSC.CTRL_SMEAR_PROF n) == p) then
        (u.startSmear p l.1.sec l.2).sticky TSC.STICKY_SMEAR_LATE
      else u) t) s

/-- Commit group TSC takes effect at one edge, in the order of R87: step, rate and following, target load, smear
start; one re-anchor for each timescale whose ρeff changes. ARM and LOAD_TARGET clear in shadow and live. -/
def State.tscApply (s : State) : State :=
  let s1 := s.commitStep
  let touched := (List.range 64).filter (fun n =>
    s1.shRho n != s1.rho n || s1.shd (TSC.CTRL_FOLLOW n) != s1.rd (TSC.CTRL_FOLLOW n)
      || s1.shd (TSC.SLEW_BOUND_BOUND n) != s1.rd (TSC.SLEW_BOUND_BOUND n)
      || s1.shd (TSC.CTRL_LOAD_TARGET n) == 1)
  let loads := touched.filterMap (fun n =>
    if s1.shd (TSC.CTRL_LOAD_TARGET n) = 1 then some (n, s1.shTarget n) else none)
  let s2 := touched.reverse.foldl (fun t n =>
    let r : Int := match loads.find? (fun p => p.1 == n) with | some p => p.2 * 2 ^ 32 | none => t.remAt n t.raw
    let b := if (t.tsOf n).smearBound ≠ 0 then (t.tsOf n).smearBound else s1.shd (TSC.SLEW_BOUND_BOUND n)
    if s1.shRho n ≠ s1.rho n ∨ s1.shd (TSC.CTRL_FOLLOW n) ≠ s1.rd (TSC.CTRL_FOLLOW n)
        ∨ sigma r b ≠ sigma (t.remAt n t.raw) (t.boundOf n) then (t.reanchor n t.raw).count 7 2 0
    else if (t.tsOf n).rem ≠ 0 then t.rebase n t.raw else t) s1
  let s3 := s2.applyShadows .tsc
  let s4 := loads.foldl (fun t p => (t.setTs p.1 { t.tsOf p.1 with rem := p.2 * 2 ^ 32 }).wr (TSC.CTRL_LOAD_TARGET p.1) 0) s3
  let s5 := s4.wr TSC.STEP_CTRL_ARM 0
  let s6 := s5.lateSmears s
  let s7 := touched.foldl (fun t n => t.showSlew n) s6
  s7.setN TSC.UTC_STAT s7.utcStat

/-! ### Compare units (R94 to R96) -/

def dCmp : Nat → Cmp := fun _ => ⟨0, 0, false⟩
def State.cmpOf (s : State) (u : Nat) : Cmp := Store.get dCmp s.tsc.cmps u
def State.setCmp (s : State) (u : Nat) (c : Cmp) : State :=
  { s with tsc := { s.tsc with cmps := Store.put dCmp s.tsc.cmps u c } }

/-- Unit `u` armed on timescale `ts` for the low 64 bits of target `g`. -/
def State.arm (s : State) (u ts g : Nat) : State := s.setCmp u ⟨ts, g % 2 ^ 64, true⟩
def State.disarm (s : State) (u : Nat) : State := s.setCmp u { s.cmpOf u with armed := false }

/-- How a unit stands now: not due, due with its residual, or late (R94, R95). -/
inductive CmpAns | notDue | fires (residual : Nat) | late
  deriving DecidableEq, Repr

def State.cmpAns (s : State) (u : Nat) : CmpAns :=
  let c := s.cmpOf u
  if !c.armed then .notDue
  else
    let d := cmpDiff c.target (s.tsNow c.ts)
    let dNext := cmpDiff c.target (s.tsAt c.ts (s.raw + 65536))
    if d < 0 then .late else if dNext < 0 then .fires d.toNat else .notDue

/-- A unit that is due fires: it is disarmed, and a LATE firing counts (R95). The answer is the residual and whether
it was late; none where it is not due. -/
def State.fireCmp (s : State) (u : Nat) : State × Option (Nat × Bool) :=
  match s.cmpAns u with
  | .notDue => (s, none)
  | .fires d => ((s.disarm u).count 7 3 0, some (d, false))
  | .late => ((((s.disarm u).bump TSC.CMP_LATE_COUNT).sticky TSC.STICKY_CMP_LATE).count 7 3 0, some (0, true))

/-! ### The commands of this chapter -/

/-- R80: the discipline steering port. -/
def execSteeringPortWrite (rate target bound : Option Int) (t : Nat) (s : State) :
    Host.Outcome State Fault Refusal :=
  .next ((s.advance t).steer rate target bound)

/-- R83: a slew reaches its target. -/
def execSlewDone (n t : Nat) (s : State) : Host.Outcome State Fault Refusal :=
  .next (if n < 64 then (s.advance t).endSlew n else s.advance t)

/-- R90: LEAP_WARN begins to read. -/
def execLeapWarnStart (t : Nat) (s : State) : Host.Outcome State Fault Refusal :=
  let s1 := s.advance t
  .next (s1.setN TSC.UTC_STAT s1.utcStat)

/-- R90: at L the warning returns to 0 and LEAP_DONE sets; the leap is journalled. -/
def execLeapDone (t : Nat) (s : State) : Host.Outcome State Fault Refusal :=
  let s1 := s.advance t
  let was := s1.rd TSC.UTC_STAT_LEAP_WARN
  let i := s1.rd TSC.UTC_STAT_NEXT
  let due := was != 0 && s1.leaps.any (fun l => l.idx == i && decide (l.sec ≤ s1.sec0))
  let s2 := s1.setN TSC.UTC_STAT s1.utcStat
  .next (if due then (s2.setQuiet TSC.STICKY_LEAP_DONE).journal 6 2 (leBytes 1 1 ++ leBytes 1 i) else s2)

/-- R91: a smear starts at its time. -/
def execSmearStart (prof entry t : Nat) (s : State) : Host.Outcome State Fault Refusal :=
  let s1 := s.advance t
  .next (match s1.leapSteps.find? (fun l => l.1.idx == entry) with
    | some l => if prof < 4 && s1.smearDue prof l.1 then s1.startSmear prof l.1.sec l.2 else s1
    | none => s1)

/-- A snapshot of T, A and B of one timescale at one edge. Before the counter runs it captures the values at raw 0
(R60). -/
def State.snap (s : State) (n : Nat) : State :=
  let x := s.tsOf n
  let s1 := s.set96 TSC.SNAP_VAL_LO (s.tsNow n)
  let s2 := s1.set96 TSC.SNAP_ANC_LO x.anc
  let s3 := s2.set96 TSC.SNAP_BASE_LO (ofSigned 96 (x.base / 2 ^ 32))
  (s3.wr TSC.SNAP_CTRL_TS n).bumpF TSC.SNAP_CTRL_COUNT

/-- `TSC.SNAP_CTRL.GO`. -/
def execSnapGo (m ts t : Nat) (s : State) : Host.Outcome State Fault Refusal :=
  let s1 := s.advance t
  .next (match s1.access m TSC.SNAP_CTRL .write with
    | .granted => s1.snap (ts % 64)
    | .denied => s1.deny m 2 .write
    | _ => s1)

end Sys2Proof.Machine
end

