-- ==== Sys2Proof/Machine/Ref.lean ====
section
/-! DEFINITION. REF: measurement of the reference inputs (R98 to R101), bindings (R102, R103), loss and quality (R105
to R107), the tests (R108), slot states and history (R109 to R112), disputes (R119 to R121), selection (R114 to R118)
and commit group REF (R122). The selector tick itself, which also drives DSC, is in Machine/Selector.lean. -/

namespace Sys2Proof.Machine

def dRSlot : Nat → RSlot := fun _ => ⟨[], none, [], none, [], false, false, false, true, 0, 0, none, false, none, false⟩
def dRIn : Nat → RIn := fun _ => ⟨none, 0, 0, 0⟩
def dUpQ : Nat → UpQ := fun _ => ⟨255, 0, 0, false, 0, 0, 0⟩

def State.slot (s : State) (n : Nat) : RSlot := Store.get dRSlot s.ref.slots n
def State.setSlot (s : State) (n : Nat) (x : RSlot) : State :=
  { s with ref := { s.ref with slots := Store.put dRSlot s.ref.slots n x } }
def State.rin (s : State) (i : Nat) : RIn := Store.get dRIn s.ref.ins i
def State.setRin (s : State) (i : Nat) (x : RIn) : State :=
  { s with ref := { s.ref with ins := Store.put dRIn s.ref.ins i x } }
def State.upq (s : State) (u : Nat) : UpQ := Store.get dUpQ s.ref.ups u
def State.setUpq (s : State) (u : Nat) (x : UpQ) : State :=
  { s with ref := { s.ref with ups := Store.put dUpQ s.ref.ups u x } }

/-- Why the active slot leaves, where a commit (5) or a vote (4) takes it. -/
def State.setCause (s : State) (c : Nat) : State := { s with ref := { s.ref with cause := some c } }

/-! ### Slot states (R111) -/

def slDISABLED : Nat := 0
def slUNQUALIFIED : Nat := 1
def slQUALIFYING : Nat := 2
def slQUALIFIED : Nat := 3
def slACTIVE : Nat := 4
def slDISPUTED : Nat := 5
def slFAILED : Nat := 6

def State.slotState (s : State) (n : Nat) : Nat := s.rd (REF.SLOT_STATE_STATE n)
def State.setSlotState (s : State) (n st : Nat) : State := s.wr (REF.SLOT_STATE_STATE n) st

/-- The active and the standby slot. -/
def State.active (s : State) : Option Nat := if s.on REF.SEL_STAT_ACTIVE_VALID then some (s.rd REF.SEL_STAT_ACTIVE) else none
def State.standby (s : State) : Option Nat := if s.on REF.SEL_STAT_STANDBY_VALID then some (s.rd REF.SEL_STAT_STANDBY) else none

/-! ### Bindings (R102) -/

def State.bindType (s : State) (n : Nat) : Nat := s.rd (REF.SLOT_CFG_BIND_TYPE n)
def State.bindIndex (s : State) (n : Nat) : Nat := s.rd (REF.SLOT_CFG_BIND_INDEX n)

/-- The enabled slot bound to a source, if one is. -/
def State.slotBound (s : State) (bt ix : Nat) : Option Nat :=
  firstIdx 16 (fun n => s.on (REF.SLOT_CFG_ENABLE n) && s.bindType n == bt && s.bindIndex n == ix)

/-- Phase-bearing per R102. -/
def State.phaseBearing (s : State) (n : Nat) : Bool :=
  match s.bindType n with
  | 0 => s.rd (REF.IN_CFG_MODE (s.bindIndex n)) == 1 || s.on (REF.IN_CFG_COMP_EN (s.bindIndex n))
  | 1 | 2 | 5 => true
  | _ => false

/-- The nominal frequency of a frequency input in Hz (R98). -/
def State.inHz (s : State) (i : Nat) : Nat :=
  match s.rd (REF.IN_CFG_MODE i) with
  | 2 => 10000000
  | 3 => 1544000
  | 4 => 2048000
  | _ => s.rd (REF.IN_FREQ_HZ i)

/-- The SyncE port that holds an index (R103, R230). -/
def State.syncePort (s : State) (ix : Nat) : Option Nat :=
  firstIdx 32 (fun p => s.portPresent p && s.on (PRT.SYNCE_CFG_RCLK_EN p) && s.rd (PRT.SYNCE_CFG_RCLK_IDX p) == ix)

/-- A video format of R319: LINES, P_f in seconds as numerator and denominator, S_f. -/
structure VidFormat where
  lines : Nat
  num : Nat
  den : Nat
  seq : Nat
  deriving DecidableEq, Repr

/-- R319's table; none for format 0. -/
def vidFormat (f : Nat) : Option VidFormat :=
  match f with
  | 1 => some ⟨625, 1, 25, 4⟩
  | 2 => some ⟨525, 1001, 30000, 10⟩
  | 3 => some ⟨1125, 1, 25, 1⟩
  | 4 => some ⟨1125, 1001, 30000, 1⟩
  | 5 => some ⟨1125, 1, 30, 1⟩
  | 6 => some ⟨1125, 1001, 24000, 1⟩
  | 7 => some ⟨1125, 1, 24, 1⟩
  | 8 => some ⟨1125, 1, 25, 1⟩
  | 9 => some ⟨1125, 1001, 30000, 1⟩
  | 10 => some ⟨1125, 1, 30, 1⟩
  | 11 => some ⟨1125, 1, 50, 1⟩
  | 12 => some ⟨1125, 1001, 60000, 1⟩
  | 13 => some ⟨750, 1, 50, 1⟩
  | 14 => some ⟨750, 1001, 60000, 1⟩
  | 15 => some ⟨750, 1, 60, 1⟩
  | _ => none

/-- The frame period of the genlock format in q, rounded. -/
def State.glFrame (s : State) : Nat :=
  match vidFormat (s.rd VID.GL_CFG_FORMAT) with
  | some v => (roundDiv ((v.num * qSec : Nat) : Int) v.den).toNat
  | none => qSec

/-- The sample interval of a slot's source in q (R127; SyncE and frequency inputs every 125 µs, the PTP upstream at its
Sync interval). -/
def State.smpInt (s : State) (n : Nat) : Nat :=
  match s.bindType n with
  | 0 => if s.phaseBearing n then qSec else 125000 * qNs
  | 2 => (s.upq (s.bindIndex n)).syncInt
  | 3 => 125000 * qNs
  | 4 => s.glFrame
  | _ => qSec

/-! ### Loss (R105, R106) -/

/-- No solution has completed OK for 2.5 s of timescale 0 (R105). -/
def State.gnssLos (s : State) : Bool :=
  match s.ref.gnssOk with
  | none => true
  | some t => decide (t + qSec * 5 / 2 < s.tsNow 0)

/-- R106. -/
def State.slotLos (s : State) (n : Nat) : Bool :=
  let ix := s.bindIndex n
  match s.bindType n with
  | 0 => !s.on (REF.IN_STAT_PRESENT ix)
      || (s.on (REF.IN_CFG_COMP_EN ix) && !s.on (REF.IN_STAT_PRESENT (s.rd (REF.IN_CFG_COMP_IN ix))))
  | 1 => s.gnssLos
  | 2 =>
    let u := s.upq ix
    u.syncInt == 0 || decide (u.syncRaw + 3 * u.syncInt < s.raw) || decide (u.annUntil ≤ s.raw)
  | 3 => match s.syncePort ix with
    | none => true
    | some p => !s.on (PRT.STAT_LINK p) || !s.on (PRT.STAT_PCS_LOCK p)
  | 4 => !s.on VID.GL_STAT_LOCKED
  | _ => s.rd TWN.STAT_LINK != 3 || !s.on TWN.STAT_CMP_VALID

/-! ### Quality (R107) -/

/-- PTP clockClass to QRANK. -/
def rankOfClass (c : Nat) : Nat :=
  match c with
  | 6 => 1 | 13 => 2 | 7 => 3 | 135 => 5 | 14 => 6 | 140 => 6 | 150 => 7 | 160 => 8 | 165 => 9 | 187 => 12
  | 248 => 13 | 255 => 15 | _ => 14

/-- The enhanced ESMC codes the table lists. -/
def rankOfEssm (c : Nat) : Option Nat :=
  match c with
  | 0x20 => some 1 | 0x21 => some 0 | 0x22 => some 10 | 0x23 => some 2 | _ => none

/-- An SSM code under option I or II. -/
def rankOfSsm (opt2 : Bool) (c : Nat) : Nat :=
  if opt2 then
    match c with
    | 0x0 => 6 | 0x1 => 2 | 0x4 => 6 | 0x7 => 5 | 0xA => 10 | 0xC => 11 | 0xD => 8 | 0xE => 9 | 0xF => 15 | _ => 14
  else
    match c with
    | 0x2 => 2 | 0x4 => 5 | 0x8 => 7 | 0xB => 10 | 0xF => 15 | _ => 14

/-- The SSM or listed enhanced code a SyncE port shows, and its rank. -/
def State.esmcRank (s : State) (p : Nat) : Nat × Nat :=
  let ssm := s.rd (PRT.ESMC_STAT_SSM p)
  let ext := if s.on (PRT.ESMC_STAT_EXT p) then rankOfEssm (s.rd (PRT.ESMC_STAT_ESSM p)) else none
  match ext with
  | some r => (s.rd (PRT.ESMC_STAT_ESSM p), r)
  | none => (ssm, rankOfSsm (s.on REF.CTRL_SSM_OPT) ssm)

/-- No ESMC PDU has arrived on a port for 5 s. -/
def State.esmcOld (s : State) (p : Nat) : Bool :=
  let a := Store.get zNat s.ref.esmcAt p
  a == 0 || decide (a - 1 + 5 * qSec ≤ s.raw)

/-- QRANK of a slot. -/
def State.qrank (s : State) (n : Nat) : Nat :=
  let ix := s.bindIndex n
  match s.bindType n with
  | 0 =>
    if s.on (REF.IN_CFG_REFOK_EN ix) && (s.on (REF.IN_STAT_REFOK ix) != s.on (REF.IN_CFG_REFOK_POL ix)) then 15
    else s.rd (REF.SLOT_CFG_DECL_RANK n)
  | 1 =>
    let q := s.nreg (REF.SLOT_QUALITY n)
    if s.ref.gnssOk.isNone || bitAt q 4 || bitAt q 5 then 15 else q % 16
  | 2 =>
    let u := s.upq ix
    if u.tai then rankOfClass u.cls else 15
  | 3 => match s.syncePort ix with
    | none => 15
    | some p => if s.esmcOld p then 15 else (s.esmcRank p).2
  | 4 => s.rd (REF.SLOT_CFG_DECL_RANK n)
  | _ => min 15 (s.nreg TWN.PEER_QRANK % 16 + 1)

/-- What `REF.SLOT_QUALITY` shows (the GNSS slot's word is written with each solution). -/
def State.slotQuality (s : State) (n : Nat) : Nat :=
  let ix := s.bindIndex n
  match s.bindType n with
  | 0 => b2n (s.on (REF.IN_STAT_REFOK ix))
  | 1 => s.nreg (REF.SLOT_QUALITY n)
  | 2 => let u := s.upq ix; u.cls + 2 ^ 8 * u.acc + 2 ^ 16 * u.var
  | 3 => match s.syncePort ix with | none => 0 | some p => (s.esmcRank p).1
  | 4 => 0
  | _ => 2 ^ 8 * (s.nreg TWN.PEER_QRANK % 16)

/-! ### History bits (R112) -/

def hbLOS : Nat := 0
def hbFREQ : Nat := 1
def hbJUMP : Nat := 2
def hbQL : Nat := 3
def hbDISPUTE : Nat := 4
def hbSWITCH : Nat := 5

/-- A history bit of a slot sets: journalled, and towards `REF.STICKY.SLOT` where its enable is 1. -/
def State.history (s : State) (n bit : Nat) : State :=
  let s1 := s.wr ⟨REF.SLOT_STICKY n, bit, 1⟩ 1
  let s2 := s1.journal 3 3 (leBytes 1 n ++ leBytes 1 bit ++ leBytes 12 (s1.tsNow 0))
  if s2.on ⟨REF.SLOT_STICKY n, 16 + bit, 1⟩ then s2.sticky REF.STICKY_SLOT else s2

/-! ### Measurements (R98, R99, R108) -/

/-- The least-squares slope of phase against time over samples, in units of 2^-40, rounded to nearest; none for fewer
than two times. -/
def lsSlope (xs : List Smp) : Option Int :=
  match xs.getLast? with
  | none => none
  | some o =>
    let n : Int := xs.length
    let pts := xs.map (fun p => ((p.t0 : Int) - o.t0, p.phi - o.phi))
    let sx := (pts.map (·.1)).sum
    let sy := (pts.map (·.2)).sum
    let sxx := (pts.map (fun p => p.1 * p.1)).sum
    let sxy := (pts.map (fun p => p.1 * p.2)).sum
    let den := n * sxx - sx * sx
    if den > 0 then some (roundDiv ((n * sxy - sx * sy) * 2 ^ 40) den) else none

/-- The frequency result of a slot, in units of 2^-40; none until the first. -/
def State.freqOf (s : State) (n : Nat) : Option Int :=
  let w := s.nreg (REF.SLOT_FREQ n)
  if w = 2 ^ 31 then none else some (toSigned 32 w)

/-- A sample added to what the frequency is formed from (R108 test 2): the slope over the last second for a faster
source, once each second; the difference of the last two samples, no more than twice the nominal interval apart, for
one that gives a sample a second or fewer. -/
def State.addFreq (s : State) (n : Nat) (p : Smp) (nominal : Nat) : State :=
  let x := s.slot n
  let first := match x.firstAt with | some t => t | none => p.t0
  let fast := decide (nominal < qSec)
  let smps := if fast then p :: x.smps.filter (fun q => decide (p.t0 ≤ q.t0 + qSec)) else (p :: x.smps).take 2
  let sameSec := match x.smps with | q :: _ => decide (q.t0 / qSec = p.t0 / qSec) | [] => false
  let f : Option Int :=
    if fast then
      if sameSec then s.freqOf n
      else if first + qSec ≤ p.t0 then lsSlope smps else none
    else match x.smps with
      | q :: _ => if q.t0 < p.t0 ∧ p.t0 - q.t0 ≤ 2 * nominal
          then some (roundDiv ((p.phi - q.phi) * 2 ^ 40) ((p.t0 : Int) - q.t0)) else none
      | [] => none
  let isNew := !(fast && sameSec)
  let results := match f with
    | some v => if isNew then (p.t0, v) :: x.results.filter (fun r => decide (p.t0 ≤ r.1 + 520 * qSec)) else x.results
    | none => x.results
  let s1 := s.setSlot n { x with smps := smps, firstAt := some first, results := results }
  match f with
  | some v => s1.setSat (REF.SLOT_FREQ n) v
  | none => s1.setN (REF.SLOT_FREQ n) 0x80000000

/-- φ as `REF.SLOT_PHASE` shows it: units of 2^-8 ns, saturating. -/
def phaseReg (phi : Int) : Int := saturate 32 (roundDiv phi 256)

/-- An event of the four discipline sequencers (R377). -/
def State.dscEvent (s : State) (bit : Nat) : State := (List.range 4).foldl (fun t i => t.seqEvent (40 + i) bit) s

/-- A measurement passes towards DSC through queue 144 + n; with no credit the producer holds it (R29, R125). DSC takes
at once the samples of a slot that neither loop tracks. -/
def State.toDsc (s : State) (n : Nat) (p : Smp) : State :=
  let x := s.slot n
  if s.active = some n ∨ s.standby = some n then
    let s1 := s.setSlot n { x with last := some p, wait := x.wait ++ [p] }
    if s1.qRoom (144 + n) 1 then (s1.qPut (144 + n)).dscEvent 0 else s1
  else (((s.setSlot n { x with last := some p }).qPut (144 + n)).dscEvent 0).qTake (144 + n)

/-- The next measurement of a slot, taken from its queue; a held one takes the freed place. -/
def State.takeSmp (s : State) (n : Nat) : State × Option Smp :=
  let x := s.slot n
  match x.wait with
  | [] => (s, none)
  | p :: r =>
    let s1 := (s.setSlot n { x with wait := r }).qTake (144 + n)
    (if s1.qOcc (144 + n) < r.length then s1.qPut (144 + n) else s1, some p)

/-- PHASE_BIG of R110. -/
def State.phaseBig (s : State) (n : Nat) (phi : Int) : State :=
  let big := decide (phi.natAbs > s.rd REF.PHASE_REPORT_NS * qNs)
  let x := s.slot n
  let s1 := (s.setSlot n { x with big := big }).wrB (REF.SLOT_STATE_PHASE_BIG n) big
  if big && !x.big then s1.sticky REF.STICKY_PHASE_BIG else s1

/-- A phase sample of a slot: the phase-jump test (R108 test 4), `SLOT_PHASE`, PHASE_BIG and the way to DSC. `shown`
is the phase as the register shows it. The sample before it is that of the same signal: the companion's for a frequency
input that takes its phase from one (R101). -/
def State.addPhase (s : State) (n : Nat) (p : Smp) (shown : Int) (jumpEvent : Bool) : State :=
  let x := s.slot n
  let comp := s.bindType n == 0 && s.on (REF.IN_CFG_COMP_EN (s.bindIndex n))
  let prev := if comp then x.last else x.smps.head?
  let jump : Bool := jumpEvent || (match prev with
    | some q =>
      let f : Int := match s.freqOf n with | some v => v | none => 0
      decide (((p.phi - q.phi) * 2 ^ 40 - f * ((p.t0 : Int) - q.t0)).natAbs
        > s.rd (REF.SLOT_PHASE_CFG_JUMP_LIMIT n) * qNs * 2 ^ 40)
    | none => false)
  let s1 := if s.phaseBearing n ∧ jump = true then s.setSlot n { x with jumped := true } else s
  let s2 := s1.setN (REF.SLOT_PHASE n) (ofSigned 32 (phaseReg shown))
  let s3 := if s2.phaseBearing n then s2.phaseBig n p.phi else s2
  (s3.toDsc n p).count 7 4 0

/-- A whole measurement of a slot: phase, then frequency. -/
def State.measure (s : State) (n : Nat) (p : Smp) (shown : Int) (jumpEvent : Bool) : State :=
  (s.addPhase n p shown jumpEvent).addFreq n p (s.smpInt n)

/-- What a lost source leaves: its frequency is formed anew once it is present again (R108 test 2). -/
def State.forgetSource (s : State) (n : Nat) : State :=
  (s.setSlot n { s.slot n with smps := [], firstAt := none }).setN (REF.SLOT_FREQ n) 0x80000000

/-- φ of R99 for an edge at timescale-0 time `t0` with delay `d` in units of 2^-8 ns. -/
def ppsPhi (t0 : Nat) (d : Int) : Int :=
  let x : Int := (t0 : Int) - d * 256
  ((2 * x + qSec) / (2 * qSec)) * qSec - x

/-- The phase of a frequency input's edge within one nominal period, in q (R98). -/
def freqPhi (t0 hz : Nat) : Int :=
  let x := t0 * hz % qSec
  let y : Int := if 2 * x < qSec then -(x : Int) else (qSec : Int) - x
  if hz = 0 then 0 else roundDiv y hz

/-- Whole periods added to a phase so that it lies nearest to the one before (R125). -/
def unwrap (prev phi : Int) (hz : Nat) : Int :=
  if hz = 0 then phi else phi + roundDiv (roundDiv ((prev - phi) * hz) qSec * qSec) hz

/-- An edge of input `i` in mode 1 (R98 to R100). -/
def State.ppsEdge (s : State) (i : Nat) : State :=
  let x := s.rin i
  let t0 := s.tsNow 0
  let was := s.on (REF.IN_STAT_PRESENT i)
  let near := x.lastRaw.isSome && decide (x.lastT0 + qSec * 999 / 1000 ≤ t0) && decide (t0 ≤ x.lastT0 + qSec * 1001 / 1000)
  let jump := was && !near
  let s1 := (s.setRin i { x with lastRaw := some s.raw, lastT0 := t0, stampRaw := s.raw }).bumpF (REF.IN_STAT_EDGES i)
  let s2 := if near then s1.wr (REF.IN_STAT_PRESENT i) 1 else s1
  let phi := ppsPhi t0 (s2.sreg (REF.IN_DELAY i))
  let s3 := match s2.slotBound 0 i with
    | some n => s2.measure n ⟨t0, phi, s2.raw⟩ phi jump
    | none => s2
  -- slots of frequency inputs that take their phase from this one (R101)
  (List.range 8).foldl (fun t k =>
    if k ≠ i ∧ t.on (REF.IN_CFG_COMP_EN k) = true ∧ t.rd (REF.IN_CFG_COMP_IN k) = i then
      match t.slotBound 0 k with
      | some n => t.addPhase n ⟨t0, phi, t.raw⟩ phi jump
      | none => t
    else t) s3

/-- The `n`-th edge since the last one told of a frequency input (modes 2 to 5): the first after each 125 µs of raw
count is stamped; presence follows the spacing (R98, R100). -/
def State.freqEdge (s : State) (i n : Nat) : State :=
  let x := s.rin i
  let t0 := s.tsNow 0
  let hz := s.inHz i
  let near := match x.lastRaw with
    | some r => decide ((s.raw - r) * hz ≤ 4 * qSec * max 1 n)
    | none => false
  let stamped := x.lastRaw.isNone || decide (s.raw / (125000 * qNs) ≠ x.stampRaw / (125000 * qNs))
  let s1 := if near then s.wr (REF.IN_STAT_PRESENT i) 1 else s
  if stamped then
    let shown := freqPhi t0 hz
    let phi := if x.lastRaw.isSome then unwrap x.phi shown hz else shown
    let s2 := (s1.setRin i ⟨some s.raw, t0, s.raw, phi⟩).bumpF (REF.IN_STAT_EDGES i)
    match s2.slotBound 0 i with
    | some m =>
      if s2.on (REF.IN_CFG_COMP_EN i) then s2.addFreq m ⟨t0, phi, s2.raw⟩ (125000 * qNs)
      else s2.measure m ⟨t0, phi, s2.raw⟩ shown false
    | none => s2
  else s1.setRin i { x with lastRaw := some s.raw, lastT0 := t0 }

/-- Whether input `i` has had no edge for the time of R100. -/
def State.inAbsent (s : State) (i : Nat) : Bool :=
  match (s.rin i).lastRaw with
  | none => true
  | some r => if s.rd (REF.IN_CFG_MODE i) = 1 then decide (r + qSec * 3 / 2 < s.raw)
      else decide (4 * qSec < (s.raw - r) * s.inHz i)

/-- A GNSS solution accepted (R104). -/
def State.gnssAccept (s : State) (n epoch : Nat) (offset : Int) (qword : Nat) : State :=
  let s1 := s.setN (REF.SLOT_QUALITY n) qword
  let s2 := { s1 with ref := { s1.ref with gnssOk := some (s1.tsNow 0) } }
  let s3 := s2.wr REF.GNSS_STAT_LAST_SEC (epoch / qSec)
  s3.measure n ⟨epoch, offset, s3.raw⟩ offset false

/-- EPOCH is none of the last eight strobes, or more than 2 s older than timescale 0 (R104). -/
def State.epochStale (s : State) (epoch : Nat) : Bool :=
  !s.ref.epochs.any (fun e => e.1 == epoch) || decide (epoch + 2 * qSec < s.tsNow 0)

/-! ### The tests and the transitions of a tick (R108 to R111) -/

/-- |f| in units of 2^-40 lies within a limit in ppb. -/
def withinPpb (f : Int) (ppb : Nat) : Bool := decide (f.natAbs * 10 ^ 9 ≤ ppb * 2 ^ 40)

def State.testFreq (s : State) (n : Nat) : Bool :=
  match s.freqOf n with
  | some f => withinPpb f (s.rd (REF.SLOT_LIMITS_FREQ_LIMIT n))
  | none => false
def State.testRank (s : State) (n : Nat) : Bool := decide (s.qrank n ≤ s.rd (REF.SLOT_CFG_MIN_RANK n))
def State.testsPass (s : State) (n : Nat) : Bool :=
  !s.slotLos n && s.testFreq n && s.testRank n && !(s.slot n).jumped

/-- Step 2 of R113 for one slot: loss, tests, QRANK, their registers and history bits. -/
def State.lookSlot (s : State) (n : Nat) : State :=
  if s.slotState n = slDISABLED then s
  else
    let x := s.slot n
    let los := s.slotLos n
    let fq := s.testFreq n
    let r := s.qrank n
    let st := s.slotState n
    let drop := decide (s.rd (REF.SLOT_STATE_QRANK n) < r) && decide (slQUALIFYING ≤ st) && decide (st ≤ slDISPUTED)
    let s1 := s.setSlot n { x with okLos := !los, okFreq := fq, okJump := !x.jumped }
    let s2 := ((((s1.wrB (REF.SLOT_STATE_LOS n) los).wrB (REF.SLOT_STATE_FREQ_OOR n) !fq).wrB (REF.SLOT_STATE_QL_LOW n)
      !(s1.testRank n)).wr (REF.SLOT_STATE_QRANK n) r).wrB (REF.SLOT_STATE_PHASE_BEARING n) (s1.phaseBearing n)
    let s3 := s2.setN (REF.SLOT_QUALITY n) (s2.slotQuality n)
    let s4 := if drop then s3.history n hbQL else s3
    let s5 := if x.okLos && los then s4.history n hbLOS else s4
    let s6 := if x.okFreq && !fq && (s.freqOf n).isSome then s5.history n hbFREQ else s5
    if x.okJump && x.jumped then s6.history n hbJUMP else s6

/-- Seconds of a hold that began at `from` and lasts `hold` seconds still to run. -/
def secsLeft (start hold now : Nat) : Nat := ceilDiv (start + hold * qSec - now) qSec

/-- The exit condition of R121 at the present time: FAIL_HOLD without a break, and agreement where it was an outlier. -/
def State.failOver (s : State) (n : Nat) : Bool :=
  let x := s.slot n
  s.testsPass n && decide (x.failAt + s.rd (REF.SLOT_PHASE_CFG_FAIL_HOLD n) * qSec ≤ s.tsNow 0)
    && (x.outlierAt.isNone || x.agreed)

/-- HOLDOFF has elapsed for a QUALIFYING slot (R109). -/
def State.holdoffOver (s : State) (n : Nat) : Bool :=
  s.testsPass n && decide ((s.slot n).countAt + s.rd (REF.SLOT_LIMITS_HOLDOFF n) * qSec ≤ s.tsNow 0)

/-- QUALIFYING becomes QUALIFIED. -/
def State.qualify (s : State) (n : Nat) : State :=
  if s.slotState n = slQUALIFYING ∧ s.holdoffOver n = true then
    (s.setSlotState n slQUALIFIED).setSlot n { s.slot n with steady := some (s.tsNow 0) }
  else s

/-- FAILED becomes QUALIFYING. -/
def State.leaveFailed (s : State) (n : Nat) : State :=
  if s.slotState n = slFAILED ∧ s.failOver n = true then
    (s.setSlotState n slQUALIFYING).setSlot n
      { s.slot n with countAt := s.tsNow 0, outlierAt := none, agreed := false }
  else s

/-- Step 3 of R113 for one slot. -/
def State.moveSlot (s : State) (n : Nat) : State :=
  let st := s.slotState n
  let now := s.tsNow 0
  let x := s.slot n
  let ok := s.testsPass n
  let s1 :=
    if st = slDISABLED then s
    else if st = slUNQUALIFIED then
      (if ok then (s.setSlotState n slQUALIFYING).setSlot n { x with countAt := now } else s)
    else if st = slQUALIFYING then (if ok then s else s.setSlotState n slUNQUALIFIED)
    else if st = slFAILED then (if ok then s.leaveFailed n else s.setSlot n { x with failAt := now })
    else if ok then s
    else (s.setSlotState n slFAILED).setSlot n { x with failAt := now, steady := none }
  let s2 := s1.qualify n
  let y := s2.slot n
  let left := if s2.slotState n = slQUALIFYING then secsLeft y.countAt (s2.rd (REF.SLOT_LIMITS_HOLDOFF n)) now
    else if s2.slotState n = slFAILED then secsLeft y.failAt (s2.rd (REF.SLOT_PHASE_CFG_FAIL_HOLD n)) now else 0
  (s2.setSlot n { y with jumped := false }).wr (REF.SLOT_STATE_HOLDOFF_LEFT n) left

/-! ### Order and candidates (R114) -/

/-- The valid entries of the priority table that name slot `n`: entry index and LEVEL of the first. -/
def prioOf (word : Nat → Nat) (n : Nat) : Option (Nat × Nat) :=
  ((List.range 16).filterMap (fun k =>
    let e := bitsOf (word (REF.PRIO (k / 4))) (8 * (k % 4)) 8
    if bitAt e 7 && e % 16 == n then some (k, bitsOf e 4 3) else none)).head?

def State.candidate (s : State) (n : Nat) : Bool :=
  (prioOf s.nreg n).isSome && (s.slotState n == slQUALIFIED || s.slotState n == slACTIVE)

def State.candidates (s : State) : List Nat := (List.range 16).filter s.candidate

/-- The key of R114 without the entry index: two fields in the order's order, then the PTP sub-key as two more where
both slots are PTP upstream. -/
def State.keyLess (s : State) (a b : Nat) : Option Bool :=
  let lv := fun n => match prioOf s.nreg n with | some e => e.2 | none => 8
  let q := s.qrank
  let ptp := s.bindType a == 2 && s.bindType b == 2
  let ua := s.upq (s.bindIndex a)
  let ub := s.upq (s.bindIndex b)
  let ka := (if s.on REF.CTRL_ORDER then [q a, lv a] else [lv a, q a]) ++ (if ptp then [ua.acc, ua.var] else [])
  let kb := (if s.on REF.CTRL_ORDER then [q b, lv b] else [lv b, q b]) ++ (if ptp then [ub.acc, ub.var] else [])
  match (ka.zip kb).find? (fun p => p.1 != p.2) with
  | some p => some (decide (p.1 < p.2))
  | none => none

/-- `a` is better than `b` in a field other than entry index. -/
def State.better (s : State) (a b : Nat) : Bool := s.keyLess a b == some true

/-- Equal rank. -/
def State.equalRank (s : State) (a b : Nat) : Bool := (s.keyLess a b).isNone

/-- `a` comes before `b`, entry index last. -/
def State.before (s : State) (a b : Nat) : Bool :=
  match s.keyLess a b with
  | some x => x
  | none => match prioOf s.nreg a, prioOf s.nreg b with
    | some x, some y => decide (x.1 < y.1)
    | some _, none => true
    | _, _ => false

/-- The best of some slots. -/
def State.best (s : State) (ns : List Nat) : Option Nat :=
  ns.foldl (fun acc n => match acc with | none => some n | some m => if s.before n m then some n else some m) none

/-! ### Disputes (R119 to R121) -/

/-- The one-second results of a slot completed in a window, by second. -/
def State.inWindow (s : State) (n lo hi : Nat) : List (Nat × Int) :=
  ((s.slot n).results.filter (fun r => decide (lo ≤ r.1) && decide (r.1 < hi))).map (fun r => (r.1 / qSec, r.2))

/-- Sum and count of the differences of two slots' results over a window. -/
def State.windowDiff (s : State) (a b lo hi : Nat) : Int × Nat :=
  let xb := s.inWindow b lo hi
  let ds := (s.inWindow a lo hi).filterMap (fun r => (xb.find? (fun q => q.1 == r.1)).map (fun q => r.2 - q.2))
  (ds.sum, ds.length)

/-- A mean (sum and count, units of 2^-40) exceeds `num`/`den` ppb; none without results. -/
def meanAbove (m : Int × Nat) (num den : Nat) : Option Bool :=
  if m.2 = 0 then none else some (decide (m.1.natAbs * 10 ^ 9 * den > num * 2 ^ 40 * m.2))

/-- The arbiter of R120. -/
inductive Arb | none | grotto | slot (n : Nat)
  deriving DecidableEq, Repr

def State.grottoReady (s : State) : Bool := s.rd GRT.STATE_STATE == 3
def State.grottoActive (s : State) : Bool := s.on TSC.LO_STAT_ACTIVE

def State.arbiter (s : State) : Arb :=
  if s.on REF.DISPUTE_CFG_GROTTO_ARB && s.grottoReady then .grotto
  else match s.best s.candidates with | some n => .slot n | none => .none

/-- ρeff_0 in units of 2^-64 (R78). -/
def State.rhoEff0 (s : State) : Int := s.rho 0 + sigma (s.remAt 0 s.raw) (s.boundOf 0)

/-- A member's mean frequency relative to the arbiter, as sum and count. -/
def State.arbDiff (s : State) (a : Arb) (n lo hi : Nat) : Int × Nat :=
  match a with
  | .none => (0, 0)
  | .slot m => s.windowDiff n m lo hi
  | .grotto =>
    let rs := (s.inWindow n lo hi).map (·.2)
    let x : Int := if s.grottoActive then 0 else s.sreg TSC.LO_XDIFF
    (rs.sum + (rs.length : Int) * (roundDiv s.rhoEff0 (2 ^ 24) - x), rs.length)

/-- A disputed slot restored. -/
def State.restoreSlot (s : State) (n : Nat) : State :=
  if s.slotState n = slDISPUTED then
    (s.setSlotState n (if s.active = some n then slACTIVE else slQUALIFIED)).setSlot n
      { s.slot n with steady := some (s.tsNow 0) }
  else s

def State.setDisp (s : State) (ds : List Disp) : State := { s with ref := { s.ref with disp := ds } }

/-- `REF.DISPUTE_STAT` records an outcome of the latest dispute. -/
def State.outcome (s : State) (d : Disp) (out : Nat) (arb : Option Arb) : State :=
  if s.rd REF.DISPUTE_STAT_SLOT_A = d.a ∧ s.rd REF.DISPUTE_STAT_SLOT_B = d.b then
    let s1 := s.wr REF.DISPUTE_STAT_OUTCOME out
    match arb with
    | none => s1
    | some .none => (s1.wr REF.DISPUTE_STAT_ARBITER 0).wr REF.DISPUTE_STAT_ARB_SLOT 0
    | some .grotto => (s1.wr REF.DISPUTE_STAT_ARBITER 1).wr REF.DISPUTE_STAT_ARB_SLOT 0
    | some (.slot n) => (s1.wr REF.DISPUTE_STAT_ARBITER 2).wr REF.DISPUTE_STAT_ARB_SLOT n
  else s

/-- A vote on one dispute (R120). -/
def State.vote (s : State) (d : Disp) (lo hi : Nat) : State :=
  let thr := s.rd REF.DISPUTE_CFG_THRESH
  let arb := s.arbiter
  match meanAbove (s.arbDiff arb d.a lo hi) thr 2, meanAbove (s.arbDiff arb d.b lo hi) thr 2 with
  | some oa, some ob =>
    if oa = ob then s.outcome d 0 (some arb)
    else
      let out := if oa then d.a else d.b
      let keep := if oa then d.b else d.a
      let now := s.tsNow 0
      let s1 := (s.setSlotState out slFAILED).setSlot out
        { s.slot out with failAt := now, outlierAt := some now, agreed := false, steady := none }
      let s2 := if s1.active = some out then s1.setCause 4 else s1
      let s3 := (s2.restoreSlot keep).sticky REF.STICKY_RESOLVED
      let s4 := s3.outcome d (if oa then 1 else 2) (some arb)
      s4.setDisp (s4.ref.disp.filter (fun e => e != d))
  | _, _ => s.outcome d 0 (some arb)

/-- A pair of equal rank found apart over a window becomes disputed (R119). -/
def State.declare (s : State) (a b hi : Nat) : State :=
  let s1 := ((s.setSlotState a slDISPUTED).setSlotState b slDISPUTED)
  let s2 := (s1.setSlot a { s1.slot a with steady := none })
  let s3 := (s2.setSlot b { s2.slot b with steady := none })
  let s4 := ((s3.history a hbDISPUTE).history b hbDISPUTE).sticky REF.STICKY_DISPUTE
  let s5 := s4.setN REF.DISPUTE_STAT (a + 2 ^ 4 * b + 2 ^ 24 * ((s4.rd REF.DISPUTE_STAT_COUNT + 1) % 256))
  s5.setDisp (s5.ref.disp ++ [⟨a, b, hi, false⟩])

/-- Step 4 of R113, first part: disputes whose member left close (R121). -/
def State.closeDisputes (s : State) : State :=
  s.ref.disp.foldl (fun t d =>
    if d.closing then
      let t1 := ((t.restoreSlot d.a).restoreSlot d.b).outcome d 3 none
      t1.setDisp (t1.ref.disp.filter (fun e => e != d))
    else if t.slotState d.a ≠ slDISPUTED ∨ t.slotState d.b ≠ slDISPUTED then
      t.setDisp (t.ref.disp.map (fun e => if e = d then { e with closing := true } else e))
    else t) s

/-- The end of the last dispute window at or before now, and the window's length in q. -/
def State.windowLen (s : State) : Nat := s.rd REF.DISPUTE_CFG_WINDOW * qSec
def State.windowEnd (s : State) : Nat := s.tsNow 0 / s.windowLen * s.windowLen

/-- Step 4, second part: a window that has ended is judged once: votes on the disputes open through it, agreement of
outliers with the active slot, and new disputes. -/
def State.judgeWindow (s : State) : State :=
  let hi := s.windowEnd
  let lo := hi - s.windowLen
  if s.windowLen = 0 ∨ hi ≤ s.ref.winEnd then s
  else
    let thr := s.rd REF.DISPUTE_CFG_THRESH
    let s0 := { s with ref := { s.ref with winEnd := hi } }
    let s1 := s0.ref.disp.foldl (fun t d => if d.closing = false ∧ d.since ≤ lo then t.vote d lo hi else t) s0
    let s2 := (List.range 16).foldl (fun t n =>
      match (t.slot n).outlierAt, t.active with
      | some since, some a =>
        if t.slotState n = slFAILED ∧ since ≤ lo ∧ meanAbove (t.windowDiff n a lo hi) thr 1 = some false
        then t.setSlot n { t.slot n with agreed := true } else t
      | _, _ => t) s1
    let pairs := (List.range 16).flatMap (fun a => ((List.range 16).filter (fun b => decide (a < b))).map (fun b => (a, b)))
    pairs.foldl (fun t p =>
      let thru := fun n => match (t.slot n).steady with | some since => decide (since ≤ lo) | none => false
      if t.candidate p.1 && t.candidate p.2 && thru p.1 && thru p.2 && t.equalRank p.1 p.2
          && meanAbove (t.windowDiff p.1 p.2 lo hi) thr 1 == some true
      then t.declare p.1 p.2 hi else t) s2

/-! ### Selection (R115 to R118) -/

/-- Which slot step 5 of R113 chooses, the SWITCH_LOG cause, and whether RETARGET sets. -/
structure Choice where
  slot : Option Nat
  cause : Nat
  retarget : Bool
  deriving DecidableEq, Repr

def State.choose (s : State) : Choice :=
  let act := s.active
  let cs := s.candidates
  let pulling := s.on REF.SEL_STAT_PULLING
  let f := s.rd REF.CTRL_FORCE_SLOT
  let gone : Nat := match s.ref.cause with | some c => c | none => 0
  if s.on REF.CTRL_FORCE_EN && cs.contains f then ⟨some f, 3, false⟩
  else
    match act with
    | none => match s.best cs with
      | some n => ⟨some n, 6, false⟩
      | none => ⟨none, 0, false⟩
    | some a =>
      if cs.contains a || (s.slotState a == slDISPUTED && (prioOf s.nreg a).isSome) then
        match s.best (cs.filter (fun n => s.better n a)) with
        | some n => if pulling then ⟨some n, 2, true⟩
            else if s.on REF.CTRL_REVERTIVE then ⟨some n, 1, false⟩ else ⟨some a, 0, false⟩
        | none => ⟨some a, 0, false⟩
      else match s.best cs with
        | some n => if pulling then ⟨some n, 2, true⟩ else ⟨some n, gone, false⟩
        | none => ⟨none, gone, false⟩

/-- Steps 5 and 6 of R113: the choice, its log and history, and the standby. The answer says whether the active slot
changed. -/
def State.select (s : State) : State × Bool :=
  let c := s.choose
  let act := s.active
  let bad := s.on REF.CTRL_FORCE_EN && !s.candidates.contains (s.rd REF.CTRL_FORCE_SLOT)
  let s1 := if bad && !s.ref.forceBad then s.sticky REF.STICKY_FORCE_UNQUAL else s
  let s2 := { s1 with ref := { s1.ref with forceBad := bad, cause := none } }
  let changed := decide (c.slot ≠ act)
  let s9 := if changed then
      let s3 := match act with
        | some a => (if s2.slotState a = slACTIVE then s2.setSlotState a slQUALIFIED else s2).history a hbSWITCH
        | none => s2
      let s4 := match c.slot with
        | some n => (s3.setSlotState n slACTIVE).history n hbSWITCH
        | none => s3
      let s5 := if c.retarget then s4.sticky REF.STICKY_RETARGET else s4
      let s6 := if c.slot.isNone then s5.sticky REF.STICKY_NO_REF else s5
      let e := act.getD 0 + 2 ^ 4 * c.slot.getD 0 + 2 ^ 8 * b2n act.isNone + 2 ^ 9 * b2n c.slot.isNone
        + 2 ^ 12 * c.cause + 2 ^ 16 * (s6.sec0 % 65536)
      let i := s6.rd REF.SWITCH_STAT_LOG_NEXT
      let s7 := (((s6.setN (REF.SWITCH_LOG i) e).bumpF REF.SWITCH_STAT_LOG_NEXT).bumpF REF.SWITCH_STAT_COUNT).journal 4 3 (leBytes 4 e)
      let s8 := s7.sticky REF.STICKY_SWITCH
      ((s8.wr REF.SEL_STAT_ACTIVE (c.slot.getD (s8.rd REF.SEL_STAT_ACTIVE))).wrB REF.SEL_STAT_ACTIVE_VALID
        c.slot.isSome).wrB REF.SEL_STAT_PULLING c.slot.isSome
    else s2
  let sb := s9.best (s9.candidates.filter (fun n => decide (s9.active ≠ some n)))
  ((s9.wr REF.SEL_STAT_STANDBY (sb.getD 0)).wrB REF.SEL_STAT_STANDBY_VALID sb.isSome, changed)

/-! ### Commit group REF (R103, R109, R122) -/

/-- The highest BIND_INDEX of each BIND_TYPE (R102); none for the types the commit refuses. -/
def bindMax (bt : Nat) : Option Nat :=
  match bt with
  | 0 => some 7 | 1 => some 0 | 2 => some 3 | 3 => some 3 | 4 => some 0 | 5 => some 0 | _ => none

/-- Whether commit group REF passes. -/
def State.refValid (s : State) : Bool :=
  let inOk := (List.range 8).all (fun i =>
    let m := s.shd (REF.IN_CFG_MODE i)
    let hz := s.shd (REF.IN_FREQ_HZ i)
    let c := s.shd (REF.IN_CFG_COMP_IN i)
    decide (m < 6) && (m != 5 || (decide (1000 ≤ hz) && decide (hz ≤ 800000000)))
      && (s.shd (REF.IN_CFG_COMP_EN i) == 0 || (c != i && s.shd (REF.IN_CFG_MODE c) == 1)))
  let slotOk := (List.range 16).all (fun n =>
    let bt := s.shd (REF.SLOT_CFG_BIND_TYPE n)
    let ix := s.shd (REF.SLOT_CFG_BIND_INDEX n)
    let en := s.shd (REF.SLOT_CFG_ENABLE n) == 1
    (match bindMax bt with | some m => decide (ix ≤ m) | none => false)
      && !(en && s.shd (REF.SLOT_CFG_LOAD_DEFAULTS n) == 0 && s.shd (REF.SLOT_LIMITS_FREQ_LIMIT n) == 0)
      && (!en || (List.range n).all (fun k =>
        !(s.shd (REF.SLOT_CFG_ENABLE k) == 1 && s.shd (REF.SLOT_CFG_BIND_TYPE k) == bt && s.shd (REF.SLOT_CFG_BIND_INDEX k) == ix))))
  let names := (List.range 16).filterMap (fun k =>
    let e := bitsOf (s.shadowWord (REF.PRIO (k / 4))) (8 * (k % 4)) 8
    if bitAt e 7 then some (e % 16) else none)
  inOk && slotOk && decide (names.Nodup) && decide (5 ≤ s.shd REF.DISPUTE_CFG_THRESH) && s.shd REF.DISPUTE_CFG_WINDOW != 0

/-- The defaults of R109: FREQ_LIMIT, HOLDOFF, JUMP_LIMIT (none where not used), FAIL_HOLD. -/
def slotDefaults (bt : Nat) : Nat × Nat × Option Nat × Nat :=
  match bt with
  | 0 => (50, 10, some 100, 60)
  | 1 => (100, 60, some 200, 300)
  | 2 => (4600, 30, some 1000, 60)
  | 3 => (4600, 10, none, 60)
  | 4 => (10000, 10, none, 60)
  | _ => (50, 10, some 100, 60)

/-- A slot enabled, disabled or bound anew: its qualification state is cleared (R111). -/
def State.restartSlot (s : State) (n : Nat) : State :=
  let st := if s.on (REF.SLOT_CFG_ENABLE n) then slUNQUALIFIED else slDISABLED
  let s1 := s.setSlot n { dRSlot n with wait := (s.slot n).wait }
  let s2 := (s1.setN (REF.SLOT_FREQ n) 0x80000000).setN (REF.SLOT_STATE n) (0xF0 + st)
  if s.active = some n then s2.setCause 5 else s2

/-- Commit group REF takes effect, at step 1 of a tick: defaults load, inputs and slots whose set-up changed start
anew (R109, R111). -/
def State.refApply (old : State) : State :=
  let s := old.applyShadows .ref
  let s1 := (List.range 16).foldl (fun t n =>
    if t.on (REF.SLOT_CFG_LOAD_DEFAULTS n) then
      let d := slotDefaults (t.bindType n)
      let j := d.2.2.1.getD (t.rd (REF.SLOT_PHASE_CFG_JUMP_LIMIT n))
      ((t.setBoth (REF.SLOT_LIMITS n) (d.1 + 2 ^ 16 * d.2.1)).setBoth (REF.SLOT_PHASE_CFG n) (j + 2 ^ 16 * d.2.2.2)).setBoth
        (REF.SLOT_CFG n) (withBits (t.nreg (REF.SLOT_CFG n)) 1 1 0)
    else t) s
  let s2 := (List.range 8).foldl (fun t i =>
    if old.rd (REF.IN_CFG_MODE i) ≠ t.rd (REF.IN_CFG_MODE i) ∨ old.rd (REF.IN_CFG_POL i) ≠ t.rd (REF.IN_CFG_POL i)
        ∨ old.nreg (REF.IN_FREQ i) ≠ t.nreg (REF.IN_FREQ i) then
      let u := (t.setRin i (dRIn i)).wr (REF.IN_STAT_PRESENT i) 0
      match u.slotBound 0 i with | some n => u.forgetSource n | none => u
    else t) s1
  let s3 := (List.range 16).foldl (fun t n =>
    if old.rd (REF.SLOT_CFG_ENABLE n) ≠ t.rd (REF.SLOT_CFG_ENABLE n) ∨ old.bindType n ≠ t.bindType n
        ∨ old.bindIndex n ≠ t.bindIndex n then
      t.restartSlot n
    else t) s2
  match s3.active with
  | some a => if (prioOf s3.nreg a).isNone then s3.setCause 5 else s3
  | none => s3

/-! ### The commands of this chapter that DSC does not share -/

/-- R109: HOLDOFF of slot `n` ends. -/
def execHoldoffElapsed (n t : Nat) (s : State) : Host.Outcome State Fault Refusal :=
  .next (if n < 16 then (s.advance t).qualify n else s.advance t)

/-- R121: FAIL_HOLD of slot `n` ends. -/
def execFailHoldElapsed (n t : Nat) (s : State) : Host.Outcome State Fault Refusal :=
  .next (if n < 16 then (s.advance t).leaveFailed n else s.advance t)

/-- R119, R120: a dispute window ends. -/
def execDisputeWindowEnd (t : Nat) (s : State) : Host.Outcome State Fault Refusal := .next (s.advance t).judgeWindow

/-- R98: an active edge on input `i`; `n` is how many edges came since the last one told. -/
def execRefInEdge (i n t : Nat) (s : State) : Host.Outcome State Fault Refusal :=
  let s1 := s.advance t
  .next (if 8 ≤ i then s1
    else match s1.rd (REF.IN_CFG_MODE i) with
      | 0 => s1
      | 1 => s1.ppsEdge i
      | _ => s1.freqEdge i n)

/-- R100: no edge within the mode's time. -/
def execRefInAbsent (i t : Nat) (s : State) : Host.Outcome State Fault Refusal :=
  let s1 := s.advance t
  .next (if i < 8 ∧ s1.rd (REF.IN_CFG_MODE i) ≠ 0 ∧ s1.inAbsent i = true then
      let s2 := s1.wr (REF.IN_STAT_PRESENT i) 0
      match s2.slotBound 0 i with | some n => s2.forgetSource n | none => s2
    else s1)

/-- R101: ball REFOKi changes; QRANK follows at once. -/
def execRefokChange (i : Nat) (level : Bool) (t : Nat) (s : State) : Host.Outcome State Fault Refusal :=
  let s1 := s.advance t
  .next (if i < 8 then
      let s2 := s1.wrB (REF.IN_STAT_REFOK i) level
      match s2.slotBound 0 i with | some n => s2.lookSlot n | none => s2
    else s1)

/-- R105: the GNSS slot enters LOS. -/
def execGnssSlotLos (t : Nat) (s : State) : Host.Outcome State Fault Refusal :=
  let s1 := s.advance t
  .next (match s1.slotBound 1 0 with
    | some n => if s1.gnssLos then (s1.forgetSource n).lookSlot n else s1
    | none => s1)

end Sys2Proof.Machine
end

