-- ==== Sys2Proof/Machine/Dsc.lean ====
section
/-! DEFINITION. DSC: the loops (R125 to R131), switching (R132 to R140), the discipline states and the advertised
quality (R141 to R144), history, holdover and the error bound (R145 to R150) and commit group DSC (R151). -/

namespace Sys2Proof.Machine

def State.setDsc (s : State) (f : DscS → DscS) : State := { s with dsc := f s.dsc }

/-! ### Sequencers (R124, R141, R380) -/

/-- A sequencer executes its program: RUN or WAIT. -/
def State.sqRuns (s : State) (n : Nat) : Bool := (s.sq n).st == .run || (s.sq n).st == .wait

/-- The discipline sequencers (R124), as sequencer numbers of R372. -/
def sqMain : Nat := 40
def sqFallback : Nat := 41
def sqHistory : Nat := 42
def sqPublish : Nat := 43

/-- The main-loop sequencer has been faulted (HALTED or FAULTED) for 1 s. -/
def State.mainFaulted (s : State) : Bool :=
  let x := s.sq sqMain
  (x.st == .faulted || x.st == .halted) && decide (x.stopRaw + qSec ≤ s.raw)

/-! ### States (R141) -/

def dFREE : Nat := 0
def dACQ : Nat := 1
def dLOCKED : Nat := 2
def dHOLD : Nat := 3
def dEXPIRED : Nat := 4

def State.dstate (s : State) : Nat := s.rd DSC.STATE_STATE

/-! ### Gains (R126, R127) -/

/-- B of a bandwidth code, in mHz. -/
def bwMilli (c : Nat) : Nat :=
  match c with
  | 0 => 1 | 1 => 2 | 2 => 5 | 3 => 10 | 4 => 20 | 5 => 50 | 6 => 100 | 7 => 200 | 8 => 500 | 9 => 1000 | 10 => 2000
  | 11 => 5000 | 12 => 10000 | 13 => 20000 | 14 => 50000 | 15 => 100000 | 16 => 300000 | 17 => 1000000 | _ => 2000000

/-- ζ of a DAMP code, in thousandths. -/
def zetaMilli (d : Nat) : Nat := match d with | 0 => 707 | 1 => 1000 | 2 => 2000 | _ => 5000

/-- 2π / k(ζ) in units of 2^-128, rounded (R126). DESIGN CHOICE (log entry 20): the gains are real numbers in the
manual; here they are held to 2^-128. -/
def omegaOf (d : Nat) : Nat :=
  match d with
  | 0 => 1038884298145395938718808677399455937977
  | 1 => 861288566219807357521858490563321601317
  | 2 => 503171384819715324487644448336505818630
  | _ => 211689032954314682322559338016431678976

/-- Configured bandwidth and damping codes of the main loop for active slot `n`. -/
def State.mainLoop (s : State) (n : Nat) : Nat × Nat :=
  if s.on (DSC.SLOT_LOOP_OVERRIDE n) then (s.rd (DSC.SLOT_LOOP_BW n), s.rd (DSC.SLOT_LOOP_DAMP n))
  else (s.rd DSC.LOOP_CFG_MAIN_BW, s.rd DSC.LOOP_CFG_DAMP)

/-- The fallback code for a slot's binding (R128). -/
def State.fallbackBw (s : State) (n : Nat) : Nat :=
  match s.bindType n with
  | 0 => if s.phaseBearing n then s.rd DSC.FB_BW_LO_REFIN_PHASE else s.rd DSC.FB_BW_LO_REFIN_FREQ
  | 1 => s.rd DSC.FB_BW_LO_GNSS
  | 2 => s.rd DSC.FB_BW_LO_PTP
  | 3 => s.rd DSC.FB_BW_LO_SYNCE
  | 4 => s.rd DSC.FB_BW_LO_GENLOCK
  | _ => s.rd DSC.FB_BW_HI_TWIN

/-- The effective code: the greatest whose B exceeds neither the configured B nor a quarter of the sample rate; code 0
where even that is too wide (R127). -/
def effBw (conf interval : Nat) : Nat :=
  match ((List.range 19).filter (fun c =>
    decide (c ≤ conf) && decide (4 * bwMilli c * interval ≤ 1000 * qSec))).getLast? with
  | some c => c
  | none => 0

/-- Kp × e in units of 2^-128, for bandwidth code `c`, damping `d` and e in q. -/
def kpE (c d : Nat) (e : Int) : Int :=
  roundDiv (2 * (zetaMilli d : Int) * bwMilli c * omegaOf d * e) (1000000 * qSec)

/-- Ki × e in units of 2^-128, for sample interval `ts` in q. -/
def kiE (c d ts : Nat) (e : Int) : Int :=
  roundDiv ((bwMilli c : Int) ^ 2 * (omegaOf d : Int) ^ 2 * ts * e) (1000000 * 2 ^ 128 * (qSec : Int) ^ 2)

/-- ω_n × T_s × ν in units of 2^-128, ν in units of 2^-40 (R133). -/
def omegaTsNu (c d ts : Nat) (nu : Int) : Int :=
  roundDiv ((bwMilli c : Int) * omegaOf d * ts * nu) (1000 * 2 ^ 40 * (qSec : Int))

/-! ### The control value (R129, R136) -/

def uMax : Int := 2 ^ 54

/-- u in units of 2^-64 from a value in units of 2^-128, clamped (R129). -/
def clampU (x : Int) : Int :=
  let u := roundDiv x (2 ^ 64)
  if u > uMax then uMax else if u < -uMax then -uMax else u

/-- A value in units of 2^-128 rounds to a u beyond ±2^54 (R129). -/
def beyondU (x : Int) : Bool := decide ((roundDiv x (2 ^ 64)).natAbs > 2 ^ 54)

/-- The integral of u over raw count brought up to now (R145). -/
def State.accU (s : State) : State :=
  s.setDsc (fun d => { d with sumU := d.sumU + s.rho 0 * ((s.raw : Int) - d.sumRaw), sumRaw := s.raw })

/-- u written to ρ_0 and shown (R123, R126). -/
def State.emitU (s : State) (u : Int) : State :=
  (s.accU.steer (some u) none none).set64 DSC.CTRL_VAL_LO (ofSigned 64 u)

/-- I moves towards a value: at once, or by at most FRAMP × 10^-12 per second of timescale 0 since the last update
(R136). -/
def State.moveI (s : State) (want : Int) : State :=
  let now := s.tsNow 0
  let lim : Int := ((s.rd DSC.PULL_CFG_FRAMP * 2 ^ 128 * (now - s.dsc.updT0) / (10 ^ 12 * qSec) : Nat) : Int)
  let i := if s.on DSC.PULL_CFG_FRAMP_EN then max (s.dsc.i - lim) (min (s.dsc.i + lim) want) else want
  s.setDsc (fun d => { d with i := i, want := want, updT0 := now })

/-- I given a value at a switch: at once, or the rest carried to the updates (R132, R136). -/
def State.loadI (s : State) (want : Int) : State :=
  if s.on DSC.PULL_CFG_FRAMP_EN then s.setDsc (fun d => { d with want := want })
  else s.setDsc (fun d => { d with i := want, want := want })

/-- The main loop is open: software steers, and has not lapsed (R130). -/
def State.loopOpen (s : State) : Bool := s.on DSC.LOOP_CFG_MAIN_OPEN && !s.on DSC.STATE_SW_LAPSED

/-- The slew bound of R134. -/
def State.pullBound (s : State) : Nat := s.rd DSC.PULL_CFG_SLOPE * 2 ^ 40 / 10 ^ 10

/-- ν: a slot's frequency relative to timescale 0 with σ_0 removed, in units of 2^-40 (R133). -/
def State.nuOf (s : State) (n : Nat) : Option Int :=
  (s.freqOf n).map (fun f => f + roundDiv (sigma (s.remAt 0 s.raw) (s.boundOf 0)) (2 ^ 24))

/-- PULLING and KIND of `DSC.PULL_STAT` and its mirror in `DSC.STATE`. -/
def State.setPull (s : State) (kind : Nat) : State :=
  ((s.wrB DSC.PULL_STAT_PULLING (kind != 0)).wr DSC.PULL_STAT_KIND kind).wrB DSC.STATE_PULLING (kind != 0)

def State.pullKind (s : State) : Nat := s.rd DSC.PULL_STAT_KIND

/-- The build-out offset P and its flag. -/
def State.setBuild (s : State) (p : Int) : State :=
  (s.setDsc (fun d => { d with build := p })).wrB DSC.STATE_BUILDOUT (p != 0)

/-! ### The main loop -/

/-- e judged against the lock criteria (R142) and 4 × LOCK_PHASE, on one sample of the active slot. -/
def State.judgeLock (s : State) (e : Int) (nu : Option Int) : State :=
  let now := s.tsNow 0
  let lp := s.rd DSC.LOCK_CFG_LOCK_PHASE * qNs
  let ok := decide (e.natAbs ≤ lp) && (match nu with
    | some v => decide (v.natAbs * 10 ^ 10 ≤ s.rd DSC.LOCK_CFG_LOCK_FREQ * 2 ^ 40)
    | none => false)
  let far := decide (4 * lp < e.natAbs)
  s.setDsc (fun d => { d with
    lockAt := if ok then some (d.lockAt.getD now) else none,
    farAt := if far then some (d.farAt.getD now) else none,
    es := (now, e) :: d.es })

/-- The bandwidth clamp of R127 shown for the active slot. -/
def State.showBw (s : State) (conf eff : Nat) : State :=
  let clamped := decide (eff < conf)
  let s1 := if clamped && !s.on DSC.STATE_BW_CLAMPED then s.sticky DSC.STICKY_BW_CLAMP else s
  (s1.wrB DSC.STATE_BW_CLAMPED clamped).wr DSC.STATE_EFF_BW eff

/-- One sample of active slot `n` through the main loop (R125, R126, R129, R133). -/
def State.mainUpdate (s : State) (n : Nat) (p : Smp) : State :=
  let e := p.phi - s.dsc.build
  let nu := s.nuOf n
  let s1 := (s.setN DSC.PD_PHASE (ofSigned 32 (phaseReg e))).judgeLock e nu
  let s2 := match nu with | some v => s1.setSat DSC.PD_FREQ v | none => s1.setN DSC.PD_FREQ 0x80000000
  if s2.loopOpen then s2
  else
    let cfg := s2.mainLoop n
    let ts := s2.smpInt n
    let c := effBw cfg.1 ts
    let s3 := s2.showBw cfg.1 c
    if s3.pullKind = 1 then
      let next := s3.dsc.want + (match nu with | some v => omegaTsNu c cfg.2 ts v | none => 0)
      let ovr := beyondU next
      let s4 := s3.moveI (if ovr && decide (next.natAbs > s3.dsc.want.natAbs) then s3.dsc.want else next)
      let s5 := if ovr then s4.sticky DSC.STICKY_CTRL_LIMIT else s4
      s5.emitU (clampU s5.dsc.i)
    else
      let next := s3.dsc.want + kiE c cfg.2 ts e
      let kp := kpE c cfg.2 e
      let ovr := beyondU (next + kp)
      let held := if ovr && decide (next.natAbs > s3.dsc.want.natAbs) then s3.dsc.want else next
      let s4 := s3.moveI held
      let s5 := if ovr then s4.sticky DSC.STICKY_CTRL_LIMIT else s4
      s5.emitU (clampU (s5.dsc.i + kp))

/-! ### The fallback loop (R128, R131) -/

/-- The loop follows the standby: where it changed, it restarts from the present u. -/
def State.fbFollow (s : State) : State :=
  if s.standby = s.dsc.fbSlot then s
  else
    let u := s.rho 0
    let s1 := s.setDsc (fun d => { d with fbSlot := s.standby, fbI := u * 2 ^ 64, fbSince := s.tsNow 0 })
    (s1.set64 DSC.FB_VAL_LO (ofSigned 64 u)).wr DSC.STATE_FB_SETTLED 0

/-- FB_SETTLED: 4/B seconds of unbroken tracking, cleared by LOS of the standby and by FB_OPEN. -/
def State.fbSettle (s : State) : State :=
  match s.dsc.fbSlot with
  | none => s.wr DSC.STATE_FB_SETTLED 0
  | some n =>
    let now := s.tsNow 0
    if s.slotLos n || s.on DSC.LOOP_CFG_FB_OPEN then
      (s.setDsc (fun d => { d with fbSince := now })).wr DSC.STATE_FB_SETTLED 0
    else
      let b := bwMilli (effBw (s.fallbackBw n) (s.smpInt n))
      s.wrB DSC.STATE_FB_SETTLED (decide (4000 * qSec ≤ (now - s.dsc.fbSince) * b))

/-- One sample of standby `n` through the fallback loop, ζ = 1. -/
def State.fbUpdate (s : State) (n : Nat) (p : Smp) : State :=
  if s.on DSC.LOOP_CFG_FB_OPEN then s
  else
    let ts := s.smpInt n
    let c := effBw (s.fallbackBw n) ts
    let i := s.dsc.fbI + kiE c 1 ts p.phi
    let s1 := s.setDsc (fun d => { d with fbI := i })
    (s1.set64 DSC.FB_VAL_LO (ofSigned 64 (saturate 64 (roundDiv (i + kpE c 1 p.phi) (2 ^ 64))))).fbSettle

/-! ### Advertised quality (R143, R144) -/

/-- k of the set advertised. -/
def State.advSet (s : State) : Nat :=
  match s.dstate with
  | 0 => 0
  | 2 => 1
  | 3 => 2
  | 4 => 3
  | _ => if s.dsc.entered = dFREE then 0 else if s.dsc.entered = dEXPIRED ∨ s.dsc.spent = true then 3 else 2

/-- The advertised set put in force, as one set. -/
def State.publish (s : State) : State :=
  let k := s.advSet
  (s.wr DSC.STATE_ADV k).setN DSC.QUAL_NOW (s.nreg (DSC.QUAL k))

/-- A change of discipline state: logged, journalled, with the advertised set (R141, R144). -/
def State.dchange (s : State) (new cause : Nat) : State :=
  let old := s.dstate
  let e := old + 2 ^ 3 * new + 2 ^ 6 * cause + 2 ^ 16 * (s.sec0 % 65536)
  let i := s.rd DSC.STATE_STAT_LOG_NEXT
  let s1 := ((s.setN (DSC.STATE_LOG i) e).bumpF DSC.STATE_STAT_LOG_NEXT).bumpF DSC.STATE_STAT_COUNT
  let s2 := s1.setDsc (fun d => { d with entered := if new = dACQ then old else d.entered, clean := false })
  let s3 := (s2.wr DSC.STATE_STATE new).publish
  (s3.journal 5 4 (leBytes 4 e)).sticky DSC.STICKY_STATE_CHANGE

/-! ### History and holdover (R145 to R149) -/

/-- An oscillator switchover maps a fractional frequency in units of 2^-64 by (1 + x)/(1 + δ) − 1, δ in units of 2^-40
(R75, R150). -/
def mapLo (u delta : Int) : Int := roundDiv (u * 2 ^ 40 - 2 ^ 64 * delta) (2 ^ 40 + delta)

/-- The value of a record in units of 2^-64, mapped through the switchovers after it. -/
def State.recU (s : State) (r : HRec) : Int :=
  (s.dsc.los.take (s.dsc.los.length - r.lo)).reverse.foldl mapLo (r.base + toSigned 30 r.word * 2 ^ 8)

def HRec.locked (r : HRec) : Bool := bitAt r.word 30
def HRec.sat (r : HRec) : Bool := bitAt r.word 31

/-- The LOCKED, unsaturated records made since power-on in the window of W seconds that ends G seconds before second
`now`. -/
def State.winRecs (s : State) (now : Nat) : List HRec :=
  let w := s.rd DSC.HO_WINDOW_W
  let g := s.rd DSC.HO_WINDOW_G
  s.dsc.hist.filter (fun r => r.locked && !r.sat && r.live && decide (r.sec + 1 + g ≤ now) && decide (now ≤ r.sec + g + w))

/-- Count, ū in units of 2^-64, θ̄ in mK and SDEV in units of 10^-12 over a window (R146, R149). -/
structure WinStat where
  n : Nat
  mean : Int
  theta : Int
  sdev : Nat
  deriving DecidableEq, Repr

def State.winStat (s : State) (now : Nat) : WinStat :=
  let rs := s.winRecs now
  let us := rs.map s.recU
  let n := us.length
  let sum := us.sum
  let sq := (us.map (fun u => u * u)).sum
  let th := (rs.map (·.theta)).sum
  if n = 0 then ⟨0, 0, 0, 0⟩
  else ⟨n, roundDiv sum n, roundDiv th n,
    Nat.sqrt (((n : Int) * sq - sum * sum).toNat * 10 ^ 24) / (n * 2 ^ 64)⟩

/-- The window's registers; SDEV stays while the estimator runs. -/
def State.showWin (s : State) (now : Nat) : State :=
  let w := s.winStat now
  let s1 := ((s.set64 DSC.HO_MEAN_LO (ofSigned 64 w.mean)).setN DSC.HO_TEMP_MEAN (ofSigned 32 w.theta)).setN DSC.HO_SAMPLES w.n
  if s1.dsc.est.isSome then s1 else s1.setN DSC.HO_SDEV w.sdev

/-- Sums of the least-squares ageing (R148): n, Σx, Σy, Σxx, Σxy over the LOCKED records of the present oscillator. -/
def State.ageFit (s : State) : Nat × Int × Int :=
  let rs := s.dsc.hist.filter (fun r => r.locked && decide (r.lo = s.dsc.los.length))
  let x0 : Int := match rs.getLast? with | some r => r.sec | none => 0
  let pts := rs.map (fun r => ((r.sec : Int) - x0, s.recU r))
  let n : Int := pts.length
  let sx := (pts.map (·.1)).sum
  let sy := (pts.map (·.2)).sum
  let sxx := (pts.map (fun p => p.1 * p.1)).sum
  let sxy := (pts.map (fun p => p.1 * p.2)).sum
  (pts.length, n * sxy - sx * sy, n * sxx - sx * sx)

/-- The ageing registers (R148). -/
def State.showAge (s : State) : State :=
  let f := s.ageFit
  let ok := decide (86400 ≤ f.1)
  let s1 := ((s.wr DSC.AGE_STAT_LEARNED (min f.1 (2 ^ 20 - 1))).wrB DSC.AGE_STAT_VALID ok).wrB DSC.STATE_AGE_VALID ok
  if 0 < f.2.2 then s1.setSat DSC.AGEING (roundDiv f.2.1 f.2.2) else s1

/-- θ now, in mK. -/
def State.theta (s : State) : Int := s.sreg GRT.AMBIENT_T

/-- u_HO at the present second, in units of 2^-128 (R146). -/
def State.uHo (s : State) (h : Hold) : Int :=
  let t : Int := (((s.tsNow 0 - h.t0) / qSec : Nat) : Int)
  let w : Int := s.rd DSC.HO_WINDOW_W
  let g : Int := s.rd DSC.HO_WINDOW_G
  let f := s.ageFit
  let a : Int := if s.on DSC.AGE_STAT_VALID then roundDiv (f.2.1 * (2 * t + 2 * g + w) * 2 ^ 64) (2 * f.2.2) else 0
  let c : Int := if s.grottoActive then s.sreg DSC.HO_TEMP_COEF * (s.theta - h.theta) else 0
  (h.mean + c) * 2 ^ 64 + a

/-- The holdover value written to ρ_0, through the ramp; in software-steered mode with SW_HOLDOVER the software value
stands (R146). -/
def State.applyHo (s : State) : State :=
  match s.dsc.hold with
  | none => s
  | some h =>
    if s.loopOpen && s.on DSC.LOOP_CFG_SW_HOLDOVER then s
    else
      let u := s.uHo h
      let s1 := s.moveI (if beyondU u then clampU u * 2 ^ 64 else u)
      let s2 := if beyondU u then s1.sticky DSC.STICKY_CTRL_LIMIT else s1
      s2.emitU (clampU s2.dsc.i)

/-- |e_entry|: the last e of the active slot at or before G seconds before now (R149). -/
def State.eEntry (s : State) : Nat :=
  let lim := s.tsNow 0 - s.rd DSC.HO_WINDOW_G * qSec
  match s.dsc.es.find? (fun p => decide (p.1 ≤ lim)) with | some p => p.2.natAbs | none => 0

/-- The estimator starts (R149). -/
def State.startEst (s : State) : State :=
  let now := s.tsNow 0
  let w := s.winStat s.sec0
  (s.setDsc (fun d => { d with est := some ⟨now, s.eEntry, w.sdev, s.theta, 0, now⟩, spent := false })).setN DSC.HO_SDEV w.sdev

/-- E(t) in units of 1 / (65 536 × 2 × 86 400 × 10^7) ns (R149). -/
def State.errNum (s : State) (x : Est) : Nat :=
  let t := (s.tsNow 0 - x.t0) / qSec
  let d := 65536 * 2 * 86400 * 10 ^ 7
  s.rd DSC.HO_UNC_T_E0 * d + x.e * (d / 65536)
    + max (s.rd DSC.HO_UNC_F_F_UNC) x.sdev * t * (d / 1000)
    + s.rd DSC.HO_UNC_F_AGE_UNC * t * t * (d / (2 * 86400 * 10 ^ 4))
    + s.rd DSC.HO_UNC_T_TEMP_UNC * x.integral * (d / 10 ^ 7)

def errUnit : Nat := 65536 * 2 * 86400 * 10 ^ 7

/-- Holdover is entered, or FREE_RUN where the window holds too few samples (R141, R147). -/
def State.loseRef (s : State) (cause : Nat) : State :=
  let w := s.winStat s.sec0
  if w.n < 64 then
    let u := s.rho 0
    let s1 := (s.setBoth DSC.FREE_CTRL_LO (ofSigned 64 u % 2 ^ 32)).setBoth DSC.FREE_CTRL_HI (ofSigned 64 u / 2 ^ 32)
    let s2 := (s1.setDsc (fun d => { d with i := u * 2 ^ 64, want := u * 2 ^ 64, est := none, hold := none })).wr DSC.HO_STAT_SHORT 1
    s2.dchange dFREE (if cause = 6 then 6 else 5)
  else
    let s1 := (s.startEst.setDsc (fun d => { d with hold := some ⟨s.tsNow 0, w.mean, w.theta⟩ })).wr DSC.HO_STAT_SHORT 0
    let s2 := ((s1.setN DSC.HO_ENTRY s1.sec0).wr DSC.HO_STAT_ELAPSED 0).sticky DSC.STICKY_HO_ENTER
    (s2.dchange dHOLD cause).applyHo

/-- The estimate against the budget (R141, R149). -/
def State.checkBudget (s : State) : State :=
  match s.dsc.est with
  | none => s
  | some x =>
    let ovr := decide (s.rd ⟨DSC.HO_BUDGET, 0, 32⟩ * errUnit < s.errNum x)
      || (s.nreg DSC.HO_BUDGET == 0 && decide (x.t0 + qSec ≤ s.tsNow 0))
    if ovr && !s.dsc.spent then
      let s1 := (s.setDsc (fun d => { d with spent := true })).sticky DSC.STICKY_HO_EXPIRED
      if s1.dstate = dHOLD then s1.dchange dEXPIRED 3
      else if s1.dstate = dACQ then s1.publish else s1
    else s

/-- The state table, evaluated after step 7 of a tick: the first row whose state and event match (R141). -/
def State.dscEval (s : State) : State :=
  let st := s.dstate
  let act := s.active.isSome
  let now := s.tsNow 0
  let lockedFor := match s.dsc.lockAt with
    | some t => decide (t + s.rd DSC.LOCK_CFG_LOCK_TIME * qSec ≤ now) | none => false
  let farFor := match s.dsc.farAt with | some t => decide (t + 10 * qSec ≤ now) | none => false
  let fromHo := s.dsc.entered == dHOLD || s.dsc.entered == dEXPIRED
  let faulted := s.mainFaulted
  if st = dFREE ∧ act = true ∧ faulted = false then s.dchange dACQ 0
  else if st = dACQ ∧ act = true ∧ s.pullKind = 0 ∧ lockedFor = true then
    let s1 := (s.dchange dLOCKED 1).setDsc (fun d => { d with est := none, hold := none, spent := false })
    if fromHo then (s1.setN DSC.HO_EXIT s1.sec0).sticky DSC.STICKY_HO_EXIT else s1
  else if st = dACQ ∧ act = false then
    if fromHo then (s.dchange (if s.dsc.spent || s.dsc.entered == dEXPIRED then dEXPIRED else dHOLD) 2).applyHo else s.loseRef 2
  else if st = dLOCKED ∧ act = true ∧ farFor = true then
    ((s.sticky DSC.STICKY_UNLOCK).dchange dACQ 4).startEst.publish
  else if st = dLOCKED ∧ act = false then s.loseRef 2
  else if st = dHOLD ∧ s.dsc.spent = true then s.dchange dEXPIRED 3
  else if (st = dHOLD ∨ st = dEXPIRED) ∧ act = true ∧ faulted = false then s.dchange dACQ 0
  else if faulted = true ∧ (st = dACQ ∨ st = dLOCKED) then
    let s1 := s.sticky DSC.STICKY_SEQ_FAULT
    if st = dACQ ∧ fromHo = true then
      (s1.dchange (if s1.dsc.spent || s1.dsc.entered == dEXPIRED then dEXPIRED else dHOLD) 6).applyHo
    else s1.loseRef 6
  else if faulted = true ∧ s.raw < (s.sq sqMain).stopRaw + qSec + 1000000 * qNs then s.sticky DSC.STICKY_SEQ_FAULT
  else s

/-! ### Switching (R130, R132 to R139) -/

/-- The switch is complete: reported to REF, `DSC.STICKY.PULL_DONE` (R133). -/
def State.pullDone (s : State) : State := ((s.setPull 0).wr REF.SEL_STAT_PULLING 0).sticky DSC.STICKY_PULL_DONE

/-- At a tick: a pull whose R_0 is absorbed, or a build-out, is complete once its ramp is (R133, R135, R136). -/
def State.pullCheck (s : State) : State :=
  let k := s.pullKind
  if k = 0 ∨ s.raw ≤ s.dsc.pullRaw then s
  else
    let s0 := s.showSlew 0
    if k = 1 ∧ s0.on (TSC.STATUS_SLEWING 0) = true then s0
    else if s0.dsc.i = s0.dsc.want then s0.pullDone
    else s0.setPull 3

/-- φ of a slot as last measured, in q. -/
def State.phiOf (s : State) (n : Nat) : Int := match (s.slot n).last with | some p => p.phi | none => 0

/-- Step 7 of R113: REF's change of active slot. -/
def State.dscSwitch (s : State) (retarget : Bool) : State :=
  let s0 := s.setDsc (fun d => { d with lockAt := none, farAt := none, clean := false })
  match s0.active with
  | none =>
    let s1 := if s0.pullKind = 1 then s0.steer none (some 0) none else s0
    (s1.setPull 0).setN DSC.PD_FREQ 0x80000000
  | some n =>
    let phi := s0.phiOf n
    let pb := s0.phaseBearing n
    let s1 := s0.setN (DSC.SLOT_PULL n) (ofSigned 32 (phaseReg phi))
    let s2 := if retarget then s1.bumpF DSC.PULL_STAT_RETARGETS else s1.bumpF DSC.PULL_STAT_PULLS
    let first := s2.dsc.first && pb
    let s3 := (s2.wr DSC.PULL_STAT_TARGET n).setDsc (fun d =>
      { d with pullRaw := s.raw, first := if pb then false else d.first })
    if s3.loopOpen then ((s3.setBuild (if pb then 0 else phi)).setPull 0).wr REF.SEL_STAT_PULLING 0
    else
      let s4 :=
        if s3.dsc.fbSlot = some n ∧ s3.on DSC.STATE_FB_SETTLED = true then
          s3.loadI (toSigned 64 (s3.reg64 DSC.FB_VAL_LO) * 2 ^ 64)
        else match s3.freqOf n with
          | some f => s3.loadI ((s3.rho 0 + f * 2 ^ 24) * 2 ^ 64)
          | none => s3
      if pb then
        let s5 := (s4.setBuild 0).setPull 1
        if first && s5.mode == 3 && s5.on DSC.LOOP_CFG_PROV_STEP
            && decide (s5.rd DSC.LOCK_CFG_LOCK_PHASE * qNs < phi.natAbs) then
          (s5.stepBy 0 phi).steer none (some 0) (some (s5.pullBound : Int))
        else s5.steer none (some phi) (some (s5.pullBound : Int))
      else (s4.setBuild phi).setPull 2

/-- I, FB_VAL, ū and the holdover value mapped at an oscillator switchover; ageing is relearnt (R148, R150). -/
def State.dscLoSwitch (s : State) (delta : Int) : State :=
  let wasValid := s.on DSC.AGE_STAT_VALID
  let m64 := fun u => mapLo u delta
  let m128 := fun (x : Int) => roundDiv (x * 2 ^ 40 - 2 ^ 128 * delta) (2 ^ 40 + delta)
  let s1 := s.accU.setDsc (fun d => { d with
    i := m128 d.i, want := m128 d.want, fbI := m128 d.fbI, los := delta :: d.los,
    hold := d.hold.map (fun h => { h with mean := m64 h.mean }) })
  let s2 := (s1.set64 DSC.FB_VAL_LO (ofSigned 64 (m64 (toSigned 64 (s.reg64 DSC.FB_VAL_LO))))).set64 DSC.HO_MEAN_LO
    (ofSigned 64 (m64 (toSigned 64 (s.reg64 DSC.HO_MEAN_LO))))
  let s3 := ((s2.wr DSC.AGE_STAT_VALID 0).wr DSC.STATE_AGE_VALID 0).wr DSC.AGE_STAT_LEARNED 0
  if wasValid then s3.sticky DSC.STICKY_AGE_RESTART else s3

/-! ### Commit group DSC (R151) -/

def State.dscValid (s : State) : Bool :=
  let f := toSigned 64 (s.shadowWord DSC.FREE_CTRL_LO + 2 ^ 32 * s.shadowWord DSC.FREE_CTRL_HI)
  let w := s.shd DSC.HO_WINDOW_W
  let sl := s.shd DSC.PULL_CFG_SLOPE
  decide (s.shd DSC.LOOP_CFG_MAIN_BW ≤ 18)
    && (List.range 16).all (fun n => decide (s.shd (DSC.SLOT_LOOP_BW n) ≤ 18))
    && [DSC.FB_BW_LO_REFIN_PHASE, DSC.FB_BW_LO_REFIN_FREQ, DSC.FB_BW_LO_GNSS, DSC.FB_BW_LO_PTP, DSC.FB_BW_LO_SYNCE,
        DSC.FB_BW_LO_GENLOCK, DSC.FB_BW_HI_TWIN].all (fun x => decide (s.shd x ≤ 18))
    && w != 0 && decide (w + s.shd DSC.HO_WINDOW_G ≤ 604800)
    && sl != 0 && decide (sl ≤ 10000)
    && !(s.shd DSC.PULL_CFG_FRAMP_EN == 1 && s.shd DSC.PULL_CFG_FRAMP == 0)
    && !(s.shd DSC.LOOP_CFG_MAIN_OPEN == 1 && s.shd DSC.LOOP_CFG_SW_TIMEOUT == 0)
    && s.shd DSC.LOCK_CFG_LOCK_PHASE != 0 && s.shd DSC.LOCK_CFG_LOCK_FREQ != 0
    && decide (-(2 ^ 54) ≤ f) && decide (f ≤ 2 ^ 54)

/-- u becomes `DSC.FREE_CTRL`, and the loop starts from it (R151). -/
def State.freeRate (s : State) : State :=
  let u := toSigned 64 (s.reg64 DSC.FREE_CTRL_LO)
  (s.setDsc (fun d => { d with i := u * 2 ^ 64, want := u * 2 ^ 64 })).emitU u

/-- Commit group DSC takes effect: a new SLOPE changes the bound of a pull that runs, a new FREE_CTRL is a rate change
in FREE_RUN, the advertised set follows its register. -/
def State.dscApply (old : State) : State :=
  let s := old.applyShadows .dsc
  let s1 := if s.pullKind = 1 ∧ old.rd DSC.PULL_CFG_SLOPE ≠ s.rd DSC.PULL_CFG_SLOPE
    then s.steer none none (some (s.pullBound : Int)) else s
  let s2 := if s1.dstate = dFREE ∧ old.reg64 DSC.FREE_CTRL_LO ≠ s1.reg64 DSC.FREE_CTRL_LO then s1.freeRate
    else s1
  let opened := s2.on DSC.LOOP_CFG_MAIN_OPEN && !old.on DSC.LOOP_CFG_MAIN_OPEN
  let s3 := if opened then s2.setDsc (fun d => { d with swT0 := s2.tsNow 0 })
    else if s2.on DSC.LOOP_CFG_MAIN_OPEN then s2 else s2.wr DSC.STATE_SW_LAPSED 0
  (s3.fbSettle).publish

/-! ### The commands of this chapter -/

/-- R126: the sample at the head of the active slot's queue, while the main-loop sequencer runs (R141). -/
def execLoopUpdate (t : Nat) (s : State) : Host.Outcome State Fault Refusal :=
  let s1 := s.advance t
  .next (match s1.active with
    | some n => if s1.sqRuns sqMain then
        match s1.takeSmp n with
        | (s2, some p) => s2.mainUpdate n p
        | (s2, none) => s2
      else s1
    | none => s1)

/-- R128: the sample at the head of the standby's queue. -/
def execFallbackUpdate (t : Nat) (s : State) : Host.Outcome State Fault Refusal :=
  let s1 := s.advance t
  .next (match s1.standby with
    | some n => if s1.sqRuns sqFallback then
        match s1.takeSmp n with
        | (s2, some p) => s2.fbFollow.fbUpdate n p
        | (s2, none) => s2
      else s1
    | none => s1)

/-- R133: the pull is complete. -/
def execPullDone (t : Nat) (s : State) : Host.Outcome State Fault Refusal := .next (s.advance t).pullCheck

/-- R146: each second in holdover. -/
def execHoldoverSecond (t : Nat) (s : State) : Host.Outcome State Fault Refusal :=
  let s1 := s.advance t
  .next (if s1.dstate = dHOLD ∨ s1.dstate = dEXPIRED then
      let el := match s1.dsc.hold with | some h => (s1.tsNow 0 - h.t0) / qSec | none => 0
      (s1.wr DSC.HO_STAT_ELAPSED (min el (2 ^ 24 - 1))).applyHo
    else s1)

/-- R145: the second just past is recorded; each completed hour is mirrored, and journalled as SECOND (R428). -/
def State.recordSecond (s : State) (mirrorOk : Bool) : State :=
  let s1 := s.accU
  let d := s1.dsc
  let span : Int := (s1.raw : Int) - d.secRaw
  let new := d.nrec % 3600 == 0
  let mean64 := if span > 0 then roundDiv d.sumU span else s1.rho 0
  let base := if new then mean64 else match d.hist with | r :: _ => r.base | [] => mean64
  let v := if span > 0 then roundDiv (d.sumU - base * span) (span * 2 ^ 8) else roundDiv (s1.rho 0 - base) (2 ^ 8)
  let sat := decide (v.natAbs > 2 ^ 29)
  let w := ofSigned 30 (if v > 2 ^ 29 - 1 then 2 ^ 29 - 1 else if v < -(2 ^ 29) then -(2 ^ 29) else v)
  let locked := d.clean && s1.dstate == dLOCKED && s1.pullKind == 0
  let r : HRec := ⟨s1.sec0 - 1, d.nrec / 3600, base, w + 2 ^ 30 * b2n locked + 2 ^ 31 * b2n sat, s1.theta,
    d.los.length, true⟩
  let hist := (r :: d.hist).take 604800
  let full := (d.nrec + 1) % 3600 == 0
  let s2 := s1.setDsc (fun d => { d with
    hist := hist, nrec := d.nrec + 1, sumU := 0, sumRaw := s1.raw, secRaw := s1.raw,
    clean := s1.dstate == dLOCKED && s1.pullKind == 0,
    mirror := if full && mirrorOk then (hist.take 3600 ++ d.mirror).take 604800 else d.mirror })
  let s3 := if full && !mirrorOk then s2.sticky DSC.STICKY_MIRROR_FAIL else s2
  let s4 := (s3.showWin s3.sec0).showAge
  let s5 := s4.setN DSC.HO_TEMP_NOW (ofSigned 32 s4.theta)
  if s5.mode = 8 ∧ s5.sec0 % 60 ≠ 0 then s5
  else s5.journal 1 4 (leBytes 8 (ofSigned 64 (s5.rho 0)) ++ leBytes 4 (s5.nreg DSC.PD_PHASE)
    ++ leBytes 1 ((s5.active).getD 255) ++ leBytes 1 s5.dstate)

/-- The raw value at which timescale 0 read `v`, near now. -/
def State.rawOf0 (s : State) (v : Nat) : Nat := s.raw + v - s.tsNow 0

/-- `RSP.REFTIME` at a second boundary: the last one at which the state was LOCKED (R244). -/
def State.markLocked (s : State) : State :=
  if s.dstate = dLOCKED then
    let s1 := s.setN RSP.REFTIME s.sec0
    let r := s1.rawOf0 (s1.sec0 * qSec)
    { s1 with rsp := { s1.rsp with refRaw := some r } }
  else s

/-- R145; with it the readings that are renewed each second (R73, R155): the ambient temperature `theta`, and the
alternate oscillator's fractional frequency `xdiff` while it is ready. -/
def execHistoryRecord (theta xdiff : Int) (mirrorOk : Bool) (t : Nat) (s : State) : Host.Outcome State Fault Refusal :=
  let s1 := (s.advance t).setN GRT.AMBIENT_T (ofSigned 32 theta)
  let alt := s1.on (if s1.grottoActive then TSC.LO_STAT_XO_READY else TSC.LO_STAT_GR_READY)
  let s1' := s1.markLocked
  let s2 := if alt then s1'.setSat TSC.LO_XDIFF xdiff else s1'
  .next ((if s2.sqRuns sqHistory then s2.recordSecond mirrorOk else s2).dscEvent 2)

/-- R130: software writes u. -/
def State.swWrite (s : State) (val : Nat) : State :=
  let u := toSigned 64 val
  let inHold := s.dstate == dHOLD || s.dstate == dEXPIRED
  if !s.on DSC.LOOP_CFG_MAIN_OPEN || decide (u.natAbs > 2 ^ 54) || (inHold && !s.on DSC.LOOP_CFG_SW_HOLDOVER) then
    s.refuseCfg .dsc
  else
    let s1 := (s.set64 DSC.SW_CTRL_LO val).wr DSC.STATE_SW_LAPSED 0
    (s1.setDsc (fun d => { d with i := u * 2 ^ 64, want := u * 2 ^ 64, swT0 := s1.tsNow 0 })).emitU u

def execSwCtrlWrite (m val t : Nat) (s : State) : Host.Outcome State Fault Refusal :=
  let s1 := s.advance t
  .next (match s1.access m DSC.SW_CTRL_HI .write with
    | .granted => s1.swWrite (val % 2 ^ 64)
    | .denied => s1.deny m 4 .write
    | _ => s1)

/-- R130: no software write for SW_TIMEOUT seconds. -/
def execSwTimeout (t : Nat) (s : State) : Host.Outcome State Fault Refusal :=
  let s1 := s.advance t
  .next (if s1.loopOpen ∧ s1.dsc.swT0 + s1.rd DSC.LOOP_CFG_SW_TIMEOUT * qSec ≤ s1.tsNow 0 then
      let u := toSigned 64 (s1.reg64 DSC.SW_CTRL_LO)
      ((s1.setDsc (fun d => { d with i := u * 2 ^ 64, want := u * 2 ^ 64 })).wr DSC.STATE_SW_LAPSED 1).sticky
        DSC.STICKY_SW_TIMEOUT
    else s1)

/-- R140: a step of timescale 0 by the active slot's φ. -/
def State.stepCmd (s : State) (val : Nat) : State :=
  match s.active with
  | some n =>
    if val % 256 = 0x5A ∧ bitAt val 8 = true ∧ s.mode = 6 ∧ s.maint 4 = true ∧ s.phaseBearing n = true then
      (s.stepBy 0 (s.phiOf n)).steer none (some 0) none
    else s.refuseCfg .dsc
  | none => s.refuseCfg .dsc

end Sys2Proof.Machine
end

