-- ==== Sys2Proof/Machine/Selector.lean ====
section
/-! DEFINITION. The selector tick (R113): commits, tests, slots, disputes, selection, standby, and DSC's table. -/

namespace Sys2Proof.Machine

/-- A commit that waits takes effect: PENDING clears, COUNT advances, the change is journalled (R17, R428). `apply`
moves the shadows. -/
def State.commitDone (s : State) (b : Blk) (apply : State → State) : State :=
  let s1 := apply (s.wr (cmPENDING b) 0)
  let s2 := s1.bumpF (cmCOUNT b)
  s2.journal 7 b.target (leBytes 1 b.target ++ leBytes 1 (match b with | .prt p => p | _ => 0) ++ leBytes 2 (s2.rd (cmCOUNT b)))

/-- Samples of slots that neither loop tracks any more are dropped, their credits returned (R125). -/
def State.drainIdle (s : State) : State :=
  (List.range 16).foldl (fun t n =>
    if t.active = some n ∨ t.standby = some n ∨ (t.slot n).wait = [] then t
    else (t.setSlot n { t.slot n with wait := [] }).qTake (144 + n) (t.qOcc (144 + n))) s

/-- One tick, in the order of R113, then R141. `rclk` are the phases measured on SyncE indices since the last tick:
pairs of index and φ in q within one period of 125 µs. -/
def State.tick (s : State) (rclk : List (Nat × Int)) : State :=
  let s1 := if s.on (cmPENDING .ref) then s.commitDone .ref State.refApply else s
  let s2 := if s1.on (cmPENDING .dsc) then s1.commitDone .dsc State.dscApply else s1
  let s3 := rclk.foldl (fun t p =>
    match t.slotBound 3 p.1, t.syncePort p.1 with
    | some n, some _ =>
      let prev : Int := t.phiOf n
      t.measure n ⟨t.tsNow 0, unwrap prev p.2 8000, t.raw⟩ p.2 false
    | _, _ => t) s2
  let s4 := (List.range 16).foldl (fun t n => t.lookSlot n) s3
  let s5 := (List.range 16).foldl (fun t n => t.moveSlot n) s4
  let s6 := s5.closeDisputes.judgeWindow
  let wasPulling := s6.on REF.SEL_STAT_PULLING
  let was := s6.active
  let c := s6.select
  let s7 := if c.2 then c.1.dscSwitch (wasPulling && was.isSome && c.1.active.isSome) else c.1
  ((s7.drainIdle.pullCheck).fbFollow.fbSettle).dscEval

end Sys2Proof.Machine
end

