-- ==== Sys2Proof/Machine/GrtCko.lean ====
section
/-! DEFINITION. GRT: the Grotto's states (R152 to R155). CKO: alignment, phase walks and squelch of the clock outputs
(R157 to R164) and commit group CKO (R166). -/

namespace Sys2Proof.Machine

/-! ### GRT (R153) -/

def gOFF : Nat := 0
def gWARMING : Nat := 1
def gWARM : Nat := 2
def gREADY : Nat := 3
def gFAULT : Nat := 4

def State.gstate (s : State) : Nat := s.rd GRT.STATE_STATE
def State.setGrt (s : State) (f : GrtS → GrtS) : State := { s with grt := f s.grt }

/-- The cavity setpoint, mK (R152). -/
def setpoint : Int := 110000

/-- The cavity lies within a band of the setpoint, mK. -/
def inBand (cavity : Int) (band : Nat) : Bool := decide ((cavity - setpoint).natAbs ≤ band)

/-- A change of GRT's state: logged and journalled; leaving READY adds to RUN_HOURS. -/
def State.gchange (s : State) (new cause : Nat) : State :=
  let old := s.gstate
  let e := old + 2 ^ 3 * new + 2 ^ 6 * cause + 2 ^ 16 * (s.sec0 % 65536)
  let i := s.rd GRT.STATE_LOG_NEXT
  let ready := s.grt.readyQ + (if old = gREADY then s.raw - s.grt.stateRaw else 0)
  let s1 := (s.setN (GRT.STATE_LOG i) e).wr GRT.STATE_LOG_NEXT ((i + 1) % 10)
  let s2 := (s1.bumpF GRT.STATE_CHANGES).wr GRT.STATE_STATE new
  let s3 := (s2.setN GRT.RUN_HOURS (min (2 ^ 32 - 1) (s2.nreg GRT.RUN_HOURS + ready / (3600 * qSec)))).setGrt
    (fun g => ⟨s.raw, if new = gWARMING then s.raw else g.heatRaw, ready % (3600 * qSec)⟩)
  s3.journal 9 6 (leBytes 4 e)

/-- The heater starts where it may: HEAT_EN and VHTR above 4.6 V (R153, first row). -/
def State.heatStart (s : State) : State :=
  if s.gstate = gOFF ∧ s.on GRT.CTRL_HEAT_EN = true ∧ 4600 < s.nreg GRT.VHTR_MV then s.gchange gWARMING 0 else s

/-- A written HEAT_EN (R154): 0 is refused while the Grotto is the active oscillator. -/
def State.heatWrite (s : State) (en : Bool) : State :=
  if !en && s.grottoActive then s.refuseCfg .grt
  else
    let s1 := s.wrB GRT.CTRL_HEAT_EN en
    if en then s1.heatStart
    else if s1.gstate = gFAULT ∨ s1.gstate = gOFF then s1 else s1.gchange gOFF 3

/-- RETRY written 1: FAULT is left for OFF, and the first row follows. -/
def State.grtRetry (s : State) : State := if s.gstate = gFAULT then (s.gchange gOFF 6).heatStart else s

def State.grtCtrl (s : State) (val : Nat) : State :=
  let s1 := s.heatWrite (bitAt val 0)
  if bitAt val 1 then s1.grtRetry else s1

/-- Seconds since the last entry to WARMING, in q. -/
def State.heatTime (s : State) : Nat := s.raw - s.grt.heatRaw

def execGrtCtrlWrite (m val t : Nat) (s : State) : Host.Outcome State Fault Refusal :=
  let s1 := s.advance t
  .next (match s1.access m GRT.CTRL .write with
    | .granted => s1.grtCtrl val
    | .denied => s1.deny m 6 .write
    | _ => s1)

def execGrtRetry (m t : Nat) (s : State) : Host.Outcome State Fault Refusal :=
  let s1 := s.advance t
  .next (match s1.access m GRT.CTRL .write with
    | .granted => s1.grtRetry
    | .denied => s1.deny m 6 .write
    | _ => s1)

/-- A reading of the cavity. -/
def State.setCavity (s : State) (c : Int) : State := s.setN GRT.CAVITY_T (ofSigned 32 c)

def execGrottoWarm (cavity : Int) (t : Nat) (s : State) : Host.Outcome State Fault Refusal :=
  let s1 := (s.advance t).setCavity cavity
  .next (if s1.gstate = gWARMING ∧ inBand cavity 250 = true then (s1.gchange gWARM 1).sticky GRT.STICKY_WARM else s1)

def execGrottoReady (cavity : Int) (t : Nat) (s : State) : Host.Outcome State Fault Refusal :=
  let s1 := (s.advance t).setCavity cavity
  .next (if s1.gstate = gWARM ∧ inBand cavity 10 = true ∧ 1800 * qSec ≤ s1.heatTime then
      (s1.gchange gREADY 1).sticky GRT.STICKY_READY
    else s1)

def execGrottoReadyLost (cavity : Int) (t : Nat) (s : State) : Host.Outcome State Fault Refusal :=
  let s1 := (s.advance t).setCavity cavity
  .next (if s1.gstate = gREADY ∧ inBand cavity 20 = false then (s1.gchange gWARM 2).sticky GRT.STICKY_READY_LOST else s1)

def execGrottoBandLost (cavity : Int) (t : Nat) (s : State) : Host.Outcome State Fault Refusal :=
  let s1 := (s.advance t).setCavity cavity
  .next (if (s1.gstate = gWARM ∨ s1.gstate = gREADY) ∧ inBand cavity 500 = false then
      (s1.gchange gWARMING 2).sticky GRT.STICKY_WARMING
    else s1)

/-- R153: VHTR below 4.5 V for 1 ms. -/
def execVhtrLow (mv t : Nat) (s : State) : Host.Outcome State Fault Refusal :=
  let s1 := (s.advance t).setN GRT.VHTR_MV mv
  .next (if mv < 4500 ∧ s1.gstate ≠ gFAULT then
      (if s1.gstate = gOFF then s1 else s1.gchange gOFF 4).sticky GRT.STICKY_VHTR_LOW
    else s1)

/-- R153: the sensors disagree by more than 1 K, or one reads above 125 °C. -/
def execGrottoSensorFault (sensor0 sensor1 : Int) (t : Nat) (s : State) : Host.Outcome State Fault Refusal :=
  let s1 := (s.advance t).setCavity (roundDiv (sensor0 + sensor1) 2)
  .next (if (1000 < (sensor0 - sensor1).natAbs ∨ 125000 < sensor0 ∨ 125000 < sensor1) ∧ s1.gstate ≠ gFAULT then
      ((s1.gchange gFAULT 5).bump GRT.FAULTS).sticky GRT.STICKY_FAULT
    else s1)

/-- R153, first row: VHTR rises above 4.6 V. -/
def execVhtrRestored (mv t : Nat) (s : State) : Host.Outcome State Fault Refusal :=
  .next (((s.advance t).setN GRT.VHTR_MV mv).heatStart)

/-! ### CKO (R157 to R163) -/

def State.setCko (s : State) (f : CkoS → CkoS) : State := { s with cko := f s.cko }

/-- Output `n` waits to be aligned at the next second boundary. -/
def State.askAlign (s : State) (n : Nat) : State :=
  s.setCko (fun c => { c with waiting := Store.put zNat c.waiting n (s.sec0 + 1) })

def State.setAligned (s : State) (n : Nat) (b : Bool) : State :=
  (s.wrB (CKO.OUT_STAT_ALIGNED n) b).wrB ⟨CKO.STAT, 16 + n, 1⟩ b

/-- The plane of an output is locked. -/
def State.planeOf (s : State) (n : Nat) : Nat := s.rd (CKO.OUT_CFG_PLANE n)
def State.planeLocked (s : State) (p : Nat) : Bool := s.on (CKO.PLANE_STAT_LOCK p)

/-- Outputs that take part in alignment. -/
def State.alignable (s : State) (n : Nat) : Bool := s.on (CKO.OUT_CFG_EN n) && s.on (CKO.OUT_CFG_ALIGN_EN n)

/-- A step of timescale 0 clears ALIGNED everywhere; with AUTO_ALIGN the outputs realign (R161). -/
def State.alignLost (s : State) : State :=
  let s1 := (List.range 12).foldl (fun t n =>
    let u := t.setAligned n false
    if u.on CKO.CTRL_AUTO_ALIGN ∧ u.alignable n = true then u.askAlign n else u) s
  s1.sticky CKO.STICKY_ALIGN_LOST

/-- GO of ALIGN_CTRL (R160). -/
def State.alignGo (s : State) : State :=
  if s.mode = 3 ∨ (s.mode = 6 ∧ s.maint 5 = true) then
    (List.range 12).foldl (fun t n => if t.alignable n then t.askAlign n else t) s
  else s.refuseCfg .cko

def execAlignGo (m t : Nat) (s : State) : Host.Outcome State Fault Refusal :=
  let s1 := s.advance t
  .next (match s1.access m CKO.ALIGN_CTRL .write with
    | .granted => s1.alignGo
    | .denied => s1.deny m 5 .write
    | _ => s1)

def dWalk : Nat → Walk := fun _ => ⟨0, 0, 0⟩

/-- The edge of output `n` has arrived at its new phase (R162). -/
def State.walkDone (s : State) (n : Nat) : State :=
  ((s.setCko (fun c => { c with walks := Store.put dWalk c.walks n ⟨0, 0, 0⟩ })).wr (CKO.OUT_STAT_WALKING n) 0).sticky
    CKO.STICKY_PHASE_DONE

/-- R160: output `n` restarts aligned at a second boundary, with its edges at OUT_PHASE, which ends a
walk of R162; `residual` is its internal residual in ps. -/
def execOutputAlign (n residual t : Nat) (s : State) : Host.Outcome State Fault Refusal :=
  let s1 := s.advance t
  let w := Store.get zNat s1.cko.waiting n
  .next (if n < 12 ∧ w ≠ 0 ∧ w ≤ s1.sec0 ∧ s1.alignable n = true ∧ s1.planeLocked (s1.planeOf n) = true then
      let s2 := s1.setCko (fun c => { c with waiting := Store.put zNat c.waiting n 0 })
      let s3 := (((s2.setAligned n true).wr (CKO.OUT_STAT_RUNNING n) 1).wr (CKO.OUT_STAT_SQUELCHED n) 0).bumpF (CKO.OUT_STAT_RESTARTS n)
      let s4 := if s3.on (CKO.OUT_STAT_WALKING n) then s3.walkDone n else s3
      ((s4.bumpF CKO.ALIGN_CTRL_COUNT).wr CKO.ALIGN_STAT_WORST (min residual 65535)).sticky CKO.STICKY_ALIGN_DONE
    else s1)

/-- R163: plane `p` loses lock. -/
def execPlaneLockLost (p t : Nat) (s : State) : Host.Outcome State Fault Refusal :=
  let s1 := s.advance t
  .next (if p < 2 ∧ s1.planeLocked p = true then
      let s2 := ((s1.wr (CKO.PLANE_STAT_LOCK p) 0).wr ⟨CKO.STAT, p, 1⟩ 0).bumpF (CKO.PLANE_STAT_LOSSES p)
      let s3 := if s2.on CKO.CTRL_SQUELCH then
          (List.range 12).foldl (fun u n =>
            if u.planeOf n = p ∧ u.on (CKO.OUT_CFG_EN n) = true then
              ((u.wr (CKO.OUT_STAT_RUNNING n) 0).wr (CKO.OUT_STAT_SQUELCHED n) 1).setAligned n false
            else u) s2
        else s2
      s3.sticky (if p = 0 then CKO.STICKY_LOCK_LOST_A else CKO.STICKY_LOCK_LOST_B)
    else s1)

/-- R163: plane `p` locks; its squelched outputs realign, those without ALIGN_EN restart. -/
def execPlaneLockReturn (p t : Nat) (s : State) : Host.Outcome State Fault Refusal :=
  let s1 := s.advance t
  .next (if p < 2 ∧ s1.planeLocked p = false ∧ s1.on (CKO.PLANE_CFG_EN p) = true then
      let s2 := (s1.wr (CKO.PLANE_STAT_LOCK p) 1).wr ⟨CKO.STAT, p, 1⟩ 1
      (List.range 12).foldl (fun u n =>
        if u.planeOf n = p ∧ u.on (CKO.OUT_STAT_SQUELCHED n) = true then
          if u.alignable n then u.askAlign n
          else ((u.wr (CKO.OUT_STAT_SQUELCHED n) 0).wr (CKO.OUT_STAT_RUNNING n) 1).bumpF (CKO.OUT_STAT_RESTARTS n)
        else if u.planeOf n = p ∧ u.on (CKO.OUT_CFG_EN n) = true then u.wr (CKO.OUT_STAT_RUNNING n) 1 else u) s2
    else s1)

/-- How far a walk has come at timescale-0 time `now`, in units of 2^-8 ns: SLOPE × 0.1 ns/s (R162). -/
def walkAt (w : Walk) (slope now : Nat) : Int :=
  let moved : Int := ((slope * 256 * (now - w.t0) / (10 * qSec) : Nat) : Int)
  if w.start ≤ w.goal then min w.goal (w.start + moved) else max w.goal (w.start - moved)

/-- R162: the walk of output `n` arrives. -/
def execPhaseWalkDone (n t : Nat) (s : State) : Host.Outcome State Fault Refusal :=
  let s1 := s.advance t
  let w := Store.get dWalk s1.cko.walks n
  .next (if n < 12 ∧ s1.on (CKO.OUT_STAT_WALKING n) = true ∧ walkAt w (s1.rd DSC.PULL_CFG_SLOPE) (s1.tsNow 0) = w.goal then
      s1.walkDone n
    else s1)

/-! ### Commit group CKO (R166) -/

/-- M_p × DEN of a plane in the shadow, and DEN. -/
def State.shM (s : State) (p : Nat) : Nat × Nat :=
  let d := s.shd (CKO.PLANE_DEN_DEN p)
  (s.shd (CKO.PLANE_CFG_INT p) * d + s.shd (CKO.PLANE_NUM_NUM p), d)

/-- The highest frequency of a format in MHz; none for the refused one (R158). -/
def fmtLimit (f : Nat) : Option Nat := match f with | 0 => some 1000 | 1 => some 400 | 2 => some 2800 | _ => none

def State.ckoValid (s : State) : Bool :=
  let planeOk := (List.range 2).all (fun p =>
    let m := s.shM p
    m.2 != 0 && decide (s.shd (CKO.PLANE_NUM_NUM p) < m.2)
      && (s.shd (CKO.PLANE_CFG_EN p) == 0 || (decide (96 * m.2 ≤ 10 * m.1) && decide (10 * m.1 ≤ 112 * m.2))))
  let outOk := (List.range 12).all (fun n =>
    s.shd (CKO.OUT_CFG_EN n) == 0 ||
      (let d := s.shd (CKO.OUT_DIV_DIV n)
       let p := s.shd (CKO.OUT_CFG_PLANE n)
       let m := s.shM p
       decide (4 ≤ d) && s.shd (CKO.PLANE_CFG_EN p) == 1
         && (match fmtLimit (s.shd (CKO.OUT_CFG_FORMAT n)) with
             | some l => decide (m.1 * 1000 ≤ l * m.2 * d) | none => false)))
  let a := s.shM 0
  let sds := s.shd (CKO.PLANE_CFG_EN 0) == 1 && decide (a.1 * 4000 = 625 * s.shd CKO.SDS_REF_DIV * a.2)
  let frozen := s.mode == 3 || (List.range 2).all (fun p =>
    let changes := s.shadowWord (CKO.PLANE_CFG p) != s.nreg (CKO.PLANE_CFG p)
      || s.shadowWord (CKO.PLANE_NUM p) != s.nreg (CKO.PLANE_NUM p) || s.shadowWord (CKO.PLANE_DEN p) != s.nreg (CKO.PLANE_DEN p)
    !(changes && (p == 0 || (List.range 12).any (fun n => s.on (CKO.OUT_CFG_EN n) && s.planeOf n == p))))
  planeOk && outOk && sds && frozen

/-- Commit group CKO takes effect: a plane that is disabled has no lock, outputs whose plane or divider
changes restart (R160), a new phase of a running output is walked to (R162). -/
def State.ckoApply (old : State) : State :=
  let s := old.applyShadows .cko
  let planeChanged := fun p => decide (old.nreg (CKO.PLANE_CFG p) ≠ s.nreg (CKO.PLANE_CFG p)
    ∨ old.nreg (CKO.PLANE_NUM p) ≠ s.nreg (CKO.PLANE_NUM p) ∨ old.nreg (CKO.PLANE_DEN p) ≠ s.nreg (CKO.PLANE_DEN p))
  let s1 := (List.range 2).foldl (fun t p =>
    if t.on (CKO.PLANE_CFG_EN p) then t else (t.wr (CKO.PLANE_STAT_LOCK p) 0).wr ⟨CKO.STAT, p, 1⟩ 0) s
  (List.range 12).foldl (fun t n =>
    if t.on (CKO.OUT_CFG_EN n) then
      let restart := !old.on (CKO.OUT_CFG_EN n) || old.planeOf n != t.planeOf n
        || old.nreg (CKO.OUT_DIV n) != t.nreg (CKO.OUT_DIV n) || planeChanged (t.planeOf n)
      if restart then
        let u := (t.setAligned n false).wrB (CKO.OUT_STAT_RUNNING n) (t.planeLocked (t.planeOf n))
        if u.alignable n then u.askAlign n else u
      else if old.nreg (CKO.OUT_PHASE n) ≠ t.nreg (CKO.OUT_PHASE n) then
        let present := if old.on (CKO.OUT_STAT_WALKING n) then
            walkAt (Store.get dWalk old.cko.walks n) (old.rd DSC.PULL_CFG_SLOPE) (old.tsNow 0)
          else old.sreg (CKO.OUT_PHASE n)
        (t.setCko (fun c => { c with walks := Store.put dWalk c.walks n ⟨present, t.sreg (CKO.OUT_PHASE n), t.tsNow 0⟩ })).wr
          (CKO.OUT_STAT_WALKING n) 1
      else t
    else ((t.setN (CKO.OUT_STAT n) (t.nreg (CKO.OUT_STAT n) / 65536 * 65536)).setAligned n false).setCko
      (fun c => { c with waiting := Store.put zNat c.waiting n 0, walks := Store.put dWalk c.walks n ⟨0, 0, 0⟩ })) s1

end Sys2Proof.Machine
end

