-- ==== Sys2Proof/Machine/Osc.lean ====
section
/-! DEFINITION. The local oscillators and the timing PLL: power-on selection (R59, R60), loss (R73), switchover (R74,
R75) and `TSC.LO_CTRL` (R76). -/

namespace Sys2Proof.Machine

/-- The ready bit of an oscillator: 0 XO_IN, 1 the Grotto. -/
def loReady (grotto : Bool) : Fld := if grotto then TSC.LO_STAT_GR_READY else TSC.LO_STAT_XO_READY

/-- The active oscillator, as a truth value: the Grotto. -/
def State.altReady (s : State) : Bool := s.on (loReady (!s.grottoActive))

/-- `LO_STAT.ACTIVE`, and GRT's mirror of it. -/
def State.setActiveLo (s : State) (grotto : Bool) : State :=
  (s.wrB TSC.LO_STAT_ACTIVE grotto).wrB GRT.STATE_LO_ACTIVE grotto

/-- R75: the last completed one-second value of `TSC.LO_XDIFF`, else the mean since the alternate became ready. -/
def State.loDelta (s : State) (delta : Int) : Int :=
  if s.nreg TSC.LO_XDIFF = 0x80000000 then delta else s.sreg TSC.LO_XDIFF

/-- The switchover at this edge (R74, R75): every rate that is not inherited is mapped, live and shadow; no timescale
value changes. -/
def State.switchover (s : State) (delta0 : Int) : State :=
  let delta := s.loDelta delta0
  let ns := (List.range 64).filter (fun n => n == 0 || !s.follows n)
  let s0 := s.accU
  -- followers first: their values are formed with timescale 0's old anchor
  let s1 := (List.range 64).reverse.foldl (fun t n => (t.reanchor n t.raw).count 7 2 0) s0
  let s2 := ns.foldl (fun t n =>
    let live := ofSigned 64 (mapLo (s.rho n) delta)
    let sh := ofSigned 64 (mapLo (s.shRho n) delta)
    if n = 0 then (t.setBoth (TSC.RATE_LO 0) (live % 2 ^ 32)).setBoth (TSC.RATE_HI 0) (live / 2 ^ 32)
    else ((t.set64 (TSC.RATE_LO n) live).setShadow (TSC.RATE_LO n) sh).setShadow (TSC.RATE_HI n) (sh / 2 ^ 32)) s1
  let g := !s.grottoActive
  let s3 := (((s2.setActiveLo g).bumpF TSC.LO_STAT_SWITCHES).wr TSC.LO_STAT_PLL_HOLD 0).wrB TSC.LO_CTRL_SEL g
  let s4 := (s3.setTsc (fun x => { x with retryAt := none, afterLoss := false })).setN TSC.LO_XDIFF 0x80000000
  let s5 := (s4.dscLoSwitch delta).set64 DSC.CTRL_VAL_LO (ofSigned 64 (s4.rho 0))
  (s5.setQuiet TSC.STICKY_LO_SWITCH).journal 6 2 (leBytes 1 2 ++ leBytes 1 (b2n g) ++ leBytes 8 (ofSigned 64 delta))

/-- A switch asked for (R74): done now if the alternate is ready, else tried once more 10 ms later. -/
def State.askSwitch (s : State) (delta : Int) (afterLoss : Bool) : State :=
  if s.altReady then s.switchover delta
  else s.setTsc (fun x => { x with retryAt := some (s.raw + 10000000 * qNs), afterLoss := afterLoss })

/-- R59: the oscillator selected at power-on reports ready. -/
def execLoReady (grotto : Bool) (s : State) : Host.Outcome State Fault Refusal :=
  .next (s.wr (loReady grotto) 1)

/-- R59: after a retry the engine uses the other oscillator. -/
def execLoFallback (grottoReady : Bool) (s : State) : Host.Outcome State Fault Refusal :=
  .next (if s.rawRun = false ∧ s.on (loReady s.grottoActive) = false then
      let g := !s.grottoActive
      let s1 := (s.setActiveLo g).wrB TSC.LO_CTRL_SEL g
      (s1.wrB (loReady g) grottoReady).sticky GLB.STICKY_LO_FALLBACK
    else s)

/-- R60: the timing PLL locks, and the raw counter counts from zero. -/
def execTimingPllLock (s : State) : Host.Outcome State Fault Refusal :=
  .next (if s.rawRun then s else ({ s with rawRun := true, raw := 0 }).wr TSC.LO_STAT_PLL_LOCK 1)

/-- R73: the active oscillator is lost. -/
def execLoLoss (delta : Int) (t : Nat) (s : State) : Host.Outcome State Fault Refusal :=
  let s1 := s.advance t
  let s2 := (s1.wr (loReady s1.grottoActive) 0).wr TSC.LO_STAT_PLL_HOLD 1
  let s3 := (s2.sticky TSC.STICKY_LO_LOST).sticky TSC.STICKY_PLL_HOLD
  .next (if s3.on TSC.LO_CTRL_AUTO then s3.askSwitch delta true else s3)

/-- What a write of `TSC.LO_CTRL` does (R74, R76). -/
def State.loCtrl (s : State) (val : Nat) (delta : Int) : State :=
  let f := bitsOf val 4 3
  let bad := decide (6 ≤ f) || (f != s.rd TSC.LO_CTRL_XO_FREQ && !s.grottoActive)
  let s1 := if bad then s.refuseCfg .tsc else s.wr TSC.LO_CTRL_XO_FREQ f
  let s2 := s1.wrB TSC.LO_CTRL_AUTO (bitAt val 1)
  let sel := bitAt val 0
  let s3 := s2.wrB TSC.LO_CTRL_SEL sel
  if sel = s3.grottoActive then s3 else s3.askSwitch delta false

def execLoCtrlWrite (m val : Nat) (delta : Int) (t : Nat) (s : State) : Host.Outcome State Fault Refusal :=
  let s1 := s.advance t
  .next (match s1.access m TSC.LO_CTRL .write with
    | .granted => s1.loCtrl val delta
    | .denied => s1.deny m 2 .write
    | _ => s1)

/-- R74: the second try, 10 ms after the first. -/
def execLoSwitchRetry (delta : Int) (t : Nat) (s : State) : Host.Outcome State Fault Refusal :=
  let s1 := s.advance t
  .next (match s1.tsc.retryAt with
    | some at' =>
      if s1.raw < at' then s1
      else if s1.altReady then s1.switchover delta
      else
        let s2 := ((s1.setTsc (fun x => { x with retryAt := none })).sticky TSC.STICKY_LO_FAIL)
        if s2.tsc.afterLoss then s2 else s2.wrB TSC.LO_CTRL_SEL s2.grottoActive
    | none => s1)

/-- R73, R74: an oscillator becomes ready. After a loss whose switch failed, the engine leaves PLL hold on it. -/
def execOscillatorReady (grotto : Bool) (delta : Int) (t : Nat) (s : State) : Host.Outcome State Fault Refusal :=
  let s1 := (s.advance t).wr (loReady grotto) 1
  .next (if s1.on TSC.LO_STAT_PLL_HOLD then
      if grotto = s1.grottoActive then
        let s2 := s1.wr TSC.LO_STAT_PLL_HOLD 0
        s2.setTsc (fun x => { x with retryAt := if x.afterLoss then none else x.retryAt, afterLoss := false })
      else if s1.on TSC.LO_CTRL_AUTO ∧ s1.tsc.retryAt = none then s1.switchover delta else s1
    else s1)

/-- R73: the alternate is no longer ready. -/
def execAlternateNotReady (t : Nat) (s : State) : Host.Outcome State Fault Refusal :=
  let s1 := s.advance t
  .next ((s1.wr (loReady !s1.grottoActive) 0).setN TSC.LO_XDIFF 0x80000000)

end Sys2Proof.Machine
end

