-- ==== Sys2Proof/Machine/Gnc.lean ====
section
/-! DEFINITION. GNC: signals (R173, R174), tracking channels (R186 to R192), bursts (R193 to R195), the epoch strobe
and its record (R196 to R199), indicators (R201, R202), Keep-alive and faults (R203, R204), commit group GNC (R206). -/

namespace Sys2Proof.Machine

/-! ### Signals (R173) -/

/-- A signal: band, code length in chips, code period in ms, search rate in Hz, T_c in ms, highest index. -/
structure Sig where
  band : Nat
  chips : Nat
  periodMs : Nat
  rate : Nat
  tc : Nat
  maxIdx : Nat
  deriving DecidableEq, Repr

def sigOf (c : Nat) : Option Sig :=
  match c with
  | 0 => some ⟨0, 1023, 1, 8192000, 4, 32⟩
  | 1 => some ⟨1, 10230, 1, 32768000, 1, 32⟩
  | 2 => some ⟨0, 4092, 4, 8192000, 4, 36⟩
  | 3 => some ⟨1, 10230, 1, 32768000, 1, 36⟩
  | 4 => some ⟨0, 10230, 10, 3276800, 10, 63⟩
  | 5 => some ⟨1, 10230, 1, 32768000, 1, 63⟩
  | 6 => some ⟨0, 511, 1, 8192000, 4, 14⟩
  | 7 => some ⟨0, 1023, 1, 8192000, 4, 10⟩
  | 8 => some ⟨1, 10230, 1, 32768000, 1, 10⟩
  | _ => none

/-- Nominal chip rate in Hz. -/
def Sig.chipRate (g : Sig) : Nat := g.chips * 1000 / g.periodMs

/-- Offset of the carrier from the band centre in Hz (R174): GLONASS alone has one, for k = index − 8. -/
def carrierOffset (c idx : Nat) : Int := if c = 6 then 26580000 + 562500 * ((idx : Int) - 8) else 0

/-- Nominal carrier in Hz. -/
def carrierHz (c idx : Nat) : Int :=
  (match sigOf c with | some g => if g.band = 0 then 1575420000 else 1176450000 | none => 1575420000) + carrierOffset c idx

def State.portRate (s : State) (p : Nat) : Nat := s.rd (GNA.PORT_CFG_RATE_KHZ p) * 1000
def State.portIf (s : State) (p : Nat) : Int := s.sreg (GNA.PORT_IF p)

/-- R174's condition on a carrier for a port and a signal's search rate. -/
def State.carrierFits (s : State) (p c idx : Nat) (rate : Nat) : Bool :=
  decide (2 * (carrierOffset c idx + s.portIf p).natAbs ≤ s.portRate p - rate)

/-- R187: band and rate of a port suit a signal. -/
def State.portSuits (s : State) (p c : Nat) : Bool :=
  match sigOf c with
  | some g => s.rd (GNA.PORT_CFG_BAND p) == g.band && decide (g.rate ≤ s.portRate p)
  | none => false

/-- The rate words of R187 for Doppler `d` in units of 2^-8 Hz. -/
def State.codeRateFor (s : State) (p c idx : Nat) (d : Int) : Nat :=
  match sigOf c with
  | some g =>
    let fc := carrierHz c idx
    (roundDiv (2 ^ 48 * (g.chipRate : Int) * (256 * fc + d)) (256 * fc * s.portRate p)).toNat % 2 ^ 48
  | none => 0
def State.carrRateFor (s : State) (p c idx : Nat) (d : Int) : Int :=
  roundDiv (2 ^ 48 * (256 * (s.portIf p + carrierOffset c idx) + d)) (256 * (s.portRate p : Int))

/-! ### Channels (R186, R187) -/

def dChan : Nat → Chan := fun _ =>
  ⟨.idle, 0, 0, 0, 0, 0, 0, false, 0, 0, 0, 0, 0, 0, 0, 0, 0, 0, false, 0, 0, 0, false, false, none, 0, 0, 0, 0⟩
def State.chan (s : State) (c : Nat) : Chan := Store.get dChan s.gnc.chans c
def State.setChan (s : State) (c : Nat) (x : Chan) : State :=
  { s with gnc := { s.gnc with chans := Store.put dChan s.gnc.chans c x } }
def State.setGnc (s : State) (f : GncS → GncS) : State := { s with gnc := f s.gnc }

/-- Channels that are not IDLE, in ascending order. -/
def State.busyChans (s : State) : List Nat := (List.range 384).filter (fun c => (s.chan c).st != .idle)

/-- The code length of a channel's signal. -/
def Chan.length (x : Chan) : Nat := match sigOf x.sig with | some g => g.chips | none => 1

/-- The NCOs run on by `n` samples at their rates (R187). -/
def Chan.run (x : Chan) (n : Nat) : Chan :=
  let a := x.code + n * x.codeRate
  let chips := x.chips + a / 2 ^ 48
  let b : Int := (x.carr : Int) + n * x.carrRate
  { x with code := a % 2 ^ 48, chips := chips % x.length, periods := (x.periods + chips / x.length) % 65536,
           carr := (b % 2 ^ 48).toNat, cycles := toSigned 32 (ofSigned 32 (x.cycles + b / 2 ^ 48)), sample := x.sample + n }

/-- The NCOs at sample `k` of the channel's port. -/
def Chan.runTo (x : Chan) (k : Nat) : Chan := x.run (k - x.sample)

/-- Steering takes effect at a boundary (R190): rates, lock flags and C/N0. -/
def Chan.steered (x : Chan) (now : Nat) : Chan :=
  match x.steer with
  | none => x
  | some w =>
    let y := { x with steer := none, stale := false, missed := 0,
                      codeRate := w.codeRate.getD x.codeRate,
                      carrRate := (match w.carrRate with | some v => toSigned 48 v | none => x.carrRate) }
    match w.word1 with
    | none => y
    | some v => { y with locks := bitsOf v 3 3, cn0 := bitsOf v 8 16,
                         lockT0 := if bitAt v 4 ∧ bitsOf x.locks 1 1 = 0 then now else x.lockT0 }

/-- A channel becomes IDLE, its record cleared (R191). -/
def State.clearChan (s : State) (c : Nat) : State := s.setChan c { dChan c with rsv := (s.chan c).rsv }

/-- Channels dropped, with CH_DROPPED if any (R191, R203). -/
def State.dropChans (s : State) (p : Nat → Chan → Bool) : State :=
  let cs := s.busyChans.filter (fun c => p c (s.chan c))
  let s1 := cs.foldl (fun t c => t.clearChan c) s
  if cs.isEmpty then s1 else s1.sticky GNC.STICKY_CH_DROPPED

/-! ### Bursts (R193, R194) -/

/-- The burst schedule of a sequencer, as LEN_MS and PERIOD_MS; none where its channels correlate continuously. In
Keep-alive `GNC.KA_CFG` replaces it (R203). -/
def State.burstPlan (s : State) (g : Nat) : Option (Nat × Nat) :=
  if s.mode = 8 then some (s.rd GNC.KA_CFG_LEN_MS, s.rd GNC.KA_CFG_PERIOD_MS)
  else if s.on (GNC.GSEQ_BURST_BURST_EN g) then some (s.rd (GNC.GSEQ_BURST_LEN_MS g), s.rd (GNC.GSEQ_BURST_PERIOD_MS g))
  else none

/-- Milliseconds into the present second of timescale 0. -/
def State.msOfSec (s : State) : Nat := s.tsNow 0 % qSec / (qNs * 1000000)

/-- The burst a sequencer is in by its schedule: antenna plus one, 5 for each channel's own antenna, 0 for none. -/
def State.burstNow (s : State) (g : Nat) : Nat :=
  match s.burstPlan g with
  | none => 5
  | some (len, per) =>
    let ms := s.msOfSec
    if per = 0 ∨ len ≤ ms % per then 0
    else if s.mode = 8 then 5
    else
      let mask := s.rd (GNC.GSEQ_BURST_ANT_MASK g)
      let ants := (List.range 4).filter (fun a => bitAt mask a)
      match ants[(ms / per) % ants.length]? with | some a => a + 1 | none => 0

/-- A channel's reference antenna. -/
def State.refAnt (s : State) (x : Chan) : Nat := s.rd (GNA.PORT_CFG_ANTENNA x.port)

/-- The enabled port that serves an antenna on a channel's band (R194). -/
def State.servingPort (s : State) (x : Chan) (a : Nat) : Option Nat :=
  firstIdx 8 (fun p => s.on (GNA.PORT_CFG_EN p) && s.rd (GNA.PORT_CFG_ANTENNA p) == a
    && (match sigOf x.sig with | some g => s.rd (GNA.PORT_CFG_BAND p) == g.band | none => false))

/-- Channels of sequencer `g`. -/
def gseqChans (g : Nat) : List Nat := (List.range 48).map (fun i => 48 * g + i)

/-- A burst of sequencer `g` begins on antenna code `b` (as `burstNow`): channels an enabled port serves correlate. -/
def State.beginBurst (s : State) (g b : Nat) : State :=
  let s1 := s.setGnc (fun k => { k with burst := Store.put zNat k.burst g b })
  (gseqChans g).foldl (fun t c =>
    let x := t.chan c
    let a := if b = 5 then t.refAnt x else b - 1
    if (x.st = .gap ∨ x.st = .track) ∧ (t.servingPort x a).isSome = true then
      t.setChan c { x with st := .track, ant := a, first := if x.st = .gap then true else x.first, burstT0 := t.tsNow 0 }
    else if x.st = .track then t.setChan c { x with st := .gap } else t) s1

/-- A burst ends: channels in TRACK go to GAP, the NCOs running on. -/
def State.endBurst (s : State) (g : Nat) : State :=
  let s1 := s.setGnc (fun k => { k with burst := Store.put zNat k.burst g 0 })
  (gseqChans g).foldl (fun t c =>
    let x := t.chan c
    if x.st = .track then t.setChan c { x with st := .gap, intMs := 0 } else t) s1

/-! ### Ports and HOLD (R170, R171, R195) -/

def dGPort : Nat → GPort := fun _ => ⟨[]⟩
def State.gport (s : State) (p : Nat) : GPort := Store.get dGPort s.gna.ports p
def State.setGport (s : State) (p : Nat) (x : GPort) : State :=
  { s with gna := { s.gna with ports := Store.put dGPort s.gna.ports p x } }

/-- f_m: the port's rate over the last millisecond in timescale-0 time, as samples and q (R197). -/
def State.measuredRate (s : State) (p : Nat) : Nat × Nat :=
  match (s.gport p).ticks with
  | a :: b :: _ => if b.2 < a.2 then (a.1 - b.1, a.2 - b.2) else (s.portRate p, qSec)
  | _ => (s.portRate p, qSec)

/-- Channels bound to a port that becomes absent go to HOLD; one that returns resumes at its sample 0. -/
def State.holdPort (s : State) (p : Nat) : State :=
  s.busyChans.foldl (fun t c =>
    let x := t.chan c
    if x.port = p ∧ (x.st = .track ∨ x.st = .gap) then t.setChan c { x with st := .hold, intMs := 0, burstT0 := t.tsNow 0 } else t) s

/-- While in HOLD the NCOs advance by the nominal rate over the elapsed timescale-0 time (R195). -/
def State.catchUp (s : State) (x : Chan) : Chan :=
  let n := s.portRate x.port * (s.tsNow 0 - x.burstT0) / qSec
  { x.run n with sample := 0, burstT0 := s.tsNow 0 }

def State.resumePort (s : State) (p : Nat) : State :=
  s.busyChans.foldl (fun t c =>
    let x := t.chan c
    if x.port = p ∧ x.st = .hold then
      let g := c / 48
      let b := Store.get zNat t.gnc.burst g
      let on := (t.burstPlan g).isNone || b == 5 || (b != 0 && b - 1 == t.refAnt x)
      t.setChan c { t.catchUp x with st := if on then .track else .gap, first := true }
    else t) s

/-! ### Dumps and steering (R188 to R190) -/

/-- A saturating signed 16-bit value as two bytes. -/
def sat16 (i : Int) : List Byte := leBytes 2 (ofSigned 16 (if i < -32768 then -32768 else if i > 32767 then 32767 else i))

/-- The 32-byte dump of a channel (R188). -/
def State.dumpBytes (s : State) (c : Nat) (x : Chan) (d : DumpIn) : List Byte :=
  leBytes 2 (c + 2 ^ 9 * x.ant) ++ leBytes 1 x.intMs
    ++ leBytes 1 (b2n d.poisoned + 2 * b2n x.first + 4 * b2n (x.ant == s.refAnt x) + 8 * b2n x.cleared)
    ++ fit 28 (d.iq.flatMap sat16)

def dDumps : Nat → List (List Byte) := fun _ => []

/-- A saturating 8-bit field, one more. -/
def State.satF (s : State) (f : Fld) : State := if s.rd f = 2 ^ f.w - 1 then s else s.wr f (s.rd f + 1)

/-- One millisecond boundary of channel `c` (R188 to R190): the dump goes out if the queue has room, else integration
goes on; steering takes effect; a missed update counts. -/
def State.boundary (s : State) (c : Nat) (d : DumpIn) : State :=
  let x0 := s.chan c
  if x0.st ≠ .track then s
  else
    let g := c / 48
    let now := s.tsNow 0
    let x := { x0.runTo d.sample with intMs := min 255 (x0.intMs + 1) }
    let sent := s.qRoom (128 + g) 1
    let s1 := if sent then
        let b := s.dumpBytes c x d
        let q := Store.get dDumps s.gnc.dumps g ++ [b]
        let u := ((s.qPut (128 + g)).setGnc (fun k => { k with dumps := Store.put dDumps k.dumps g q })).seqEvent (32 + g) 0
        let v := (if u.rd (GNC.GSEQ_LAG_MAX_INT g) < x.intMs then u.wr (GNC.GSEQ_LAG_MAX_INT g) x.intMs else u).count 5 1 g
        if 2 ≤ x.intMs then ((v.bumpF (GNC.GSEQ_LAG_EXT g)).sticky GNC.STICKY_EXTENDED).count 5 2 g else v
      else s
    let y := if sent then { x with intMs := 0, first := false, cleared := false } else x
    let onRef := y.ant == s.refAnt y
    let miss := y.steer.isNone && onRef
    let z := { y.steered now with missed := if miss then y.missed + 1 else 0, lastMs := now / (qNs * 1000000) }
    let s2 := s1.setChan c z
    if miss then (s2.satF (GNC.GSEQ_STAT_LATE g)).sticky GNC.STICKY_STEER_LATE else s2

/-- After 255 ms integrated without a credit the accumulators are cleared (R189). -/
def State.dumpClear (s : State) (c : Nat) : State :=
  let x := s.chan c
  let g := c / 48
  if x.st = .track ∧ x.intMs = 255 then
    ((s.setChan c { x with intMs := 0, cleared := true }).satF (GNC.GSEQ_LAG_CLEARED g)).sticky GNC.STICKY_EXTENDED
  else s

/-! ### The channel record (R192) -/

/-- The twelve words of a channel. -/
def State.chanWords (s : State) (c : Nat) : List Nat :=
  let x := s.chan c
  let st := match x.st with | .idle => 0 | .loaded => 1 | .track => 2 | .gap => 3 | .hold => 4
  let rate := ofSigned 48 x.carrRate
  [x.sig + 2 ^ 4 * x.idx + 2 ^ 10 * x.port + 2 ^ 13 * x.space + 2 ^ 17 * x.vspace + 2 ^ 20 * x.spare + 2 ^ 22 * b2n x.rsv,
   st + 2 ^ 3 * x.locks + 2 ^ 6 * b2n x.stale + 2 ^ 8 * x.cn0 + 2 ^ 24 * x.ant,
   x.code % 2 ^ 32, x.code / 2 ^ 32 + 2 ^ 16 * x.chips, x.codeRate % 2 ^ 32, x.codeRate / 2 ^ 32,
   x.carr % 2 ^ 32, x.carr / 2 ^ 32, ofSigned 32 x.cycles, rate % 2 ^ 32, rate / 2 ^ 32,
   (if x.st = .loaded then x.startMs else x.lastMs) % 2 ^ 32]

/-- The modes in which channel operations are forbidden (R192). -/
def State.chForbidden (s : State) : Bool := s.mode == 8 || s.mode == 1 || s.mode == 0 || s.mode == 11

/-- The whole milliseconds of timescale 0. -/
def State.msNow (s : State) : Nat := s.tsNow 0 / (qNs * 1000000)

/-- The code of a LOAD from the words in CH_DATA (R192, R24). -/
def State.loadCode (s : State) (c : Nat) : Nat :=
  let w := fun k => s.nreg (GNC.CH_DATA k)
  let sig := bitsOf (w 0) 0 4
  let idx := bitsOf (w 0) 4 6
  let p := bitsOf (w 0) 10 3
  let ahead := (w 11 + 2 ^ 32 - s.msNow % 2 ^ 32) % 2 ^ 32
  let bad := decide (384 ≤ c) || !s.on (GNA.PORT_CFG_EN p) || !s.on (GNA.PORT_STAT_PRESENT p)
    || (match sigOf sig with | some g => decide (idx = 0 ∨ g.maxIdx < idx) | none => true)
    || !s.portSuits p sig || bitsOf (w 0) 13 4 == 0 || decide (bitsOf (w 0) 17 3 < 2) || decide (2 ≤ bitsOf (w 0) 20 2)
  lowestCode [codeIf bad stREFUSED, codeIf (decide (c < 384) && (s.chan c).st != .idle) stBUSY,
    codeIf (ahead == 0 || decide (1000 < ahead)) stSTALE, codeIf s.chForbidden stMODE_FORBIDS]

/-- A LOAD that passes: the values wait for START_MS. -/
def State.loadChan (s : State) (c : Nat) : State :=
  let w := fun k => s.nreg (GNC.CH_DATA k)
  let ahead := (w 11 + 2 ^ 32 - s.msNow % 2 ^ 32) % 2 ^ 32
  let p := bitsOf (w 0) 10 3
  s.setChan c { dChan c with
    st := .loaded, sig := bitsOf (w 0) 0 4, idx := bitsOf (w 0) 4 6, port := p, space := bitsOf (w 0) 13 4,
    vspace := bitsOf (w 0) 17 3, spare := bitsOf (w 0) 20 2, rsv := bitAt (w 0) 22,
    code := w 2 + 2 ^ 32 * (w 3 % 65536), chips := w 3 / 65536, codeRate := w 4 + 2 ^ 32 * (w 5 % 65536),
    carr := w 6 + 2 ^ 32 * (w 7 % 65536), cycles := toSigned 32 (w 8), carrRate := toSigned 48 (w 9 + 2 ^ 32 * (w 10 % 65536)),
    startMs := s.msNow + ahead, first := true, ant := s.rd (GNA.PORT_CFG_ANTENNA p) }

/-- STATUS of CH_SEL, with CFG_REFUSED for REFUSED. -/
def State.chStatus (s : State) (code : Nat) : State :=
  let s1 := (s.wr GNC.CH_SEL_STATUS code).wr GNC.CH_SEL_BUSY 0
  if code = stREFUSED then s1.refuseCfg .gnc else s1

/-- CH_SEL with GO: the operation `op` on channel `c` (R192). -/
def State.chOp (s0 : State) (c op : Nat) : State :=
  let s := (s0.wr GNC.CH_SEL_CHANNEL c).wr GNC.CH_SEL_OP op
  let common := lowestCode [codeIf (decide (384 ≤ c)) stREFUSED, codeIf s.chForbidden stMODE_FORBIDS]
  match op with
  | 1 =>
    if common ≠ 0 then s.chStatus common
    else ((s.chanWords c).zipIdx.foldl (fun t v => t.setN (GNC.CH_DATA v.2) v.1) s).chStatus stOK
  | 2 =>
    let code := s.loadCode c
    if code ≠ 0 then s.chStatus code else (s.loadChan c).chStatus stOK
  | 3 => if common ≠ 0 then s.chStatus common else (s.setChan c (dChan c)).chStatus stOK
  | _ => s.chStatus stREFUSED

/-- A write of CH_SEL with GO by master `m`. -/
def State.chWrite (s : State) (m c op : Nat) : State :=
  match s.access m GNC.CH_SEL .write with
  | .granted => s.chOp (c % 512) op
  | .denied => (s.deny m 8 .write).wr GNC.CH_SEL_STATUS stDENIED
  | _ => s

/-! ### The epoch strobe (R196 to R198) -/

/-- One 32-byte entry of the record (R197), the channel latched at its port's sample `k`. -/
def State.epochEntry (s : State) (c k : Nat) : List Byte :=
  let x0 := s.chan c
  let present := s.on (GNA.PORT_STAT_PRESENT x0.port)
  let due := x0.st = .loaded ∧ x0.startMs ≤ s.msNow
  let x := if x0.st = .hold then { s.catchUp x0 with st := .hold } else if x0.st = .loaded then x0 else x0.runTo k
  let fm := s.measuredRate x.port
  let dop := roundDiv (x.carrRate * fm.1 * qSec * 256) (2 ^ 48 * (fm.2 : Int)) - 256 * (s.portIf x.port + carrierOffset x.sig x.idx)
  let prop := x.st == .gap || x.st == .hold || (x.st == .track && decide (s.tsNow 0 < x.burstT0 + qNs * 1000000)
    && (s.burstPlan (c / 48)).isSome)
  let locks := if due then 0 else x.locks
  let ms := if bitAt locks 1 then min (2 ^ 32 - 1) ((s.tsNow 0 - x.lockT0) / (qNs * 1000000)) else 0
  leBytes 2 (c + 2 ^ 9 * x.port) ++ leBytes 1 x.sig ++ leBytes 1 x.idx ++ leBytes 4 (x.code / 2 ^ 16) ++ leBytes 2 x.chips
    ++ leBytes 2 x.periods ++ leBytes 4 (x.carr / 2 ^ 16) ++ leBytes 4 (ofSigned 32 x.cycles) ++ leBytes 4 (ofSigned 32 dop)
    ++ leBytes 2 x.cn0 ++ leBytes 1 (locks + 8 * b2n x.stale + 16 * b2n prop + 64 * b2n present) ++ leBytes 1 x.ant ++ leBytes 4 ms

/-- RES_p (R198): in q, 0x8000_0000 for a port that is absent or disabled. -/
def State.resOf (s : State) (epoch p : Nat) (latch : List PortLatch) : Nat :=
  match latch.find? (fun l => l.port == p) with
  | some l =>
    if s.on (GNA.PORT_CFG_EN p) && s.on (GNA.PORT_STAT_PRESENT p) then
      ofSigned 32 ((l.t0 : Int) - s.sreg (GNC.PORT_DELAY p) * 256 - epoch)
    else 0x80000000
  | none => 0x80000000

/-- Any indicator of R201 is raised. -/
def State.spoofAny (s : State) : Bool := s.nreg GNC.SPOOF_STAT % 2 ^ 10 != 0

/-- A strobe (R196): every channel latches, and the record waits in queue 136; it counts among the last eight. A late
strobe carries the time of its latch edge. -/
def State.strobe (s : State) (late : Bool) (target : Nat) (latch : List PortLatch) : State :=
  let epoch := if late then s.tsNow 0 else target
  let chans := s.busyChans
  let sampleOf := fun p => match latch.find? (fun l => l.port == p) with | some l => l.sample | none => 0
  let flags := b2n s.gnc.stepped + 2 * b2n late + 4 * b2n s.gnc.kaExit + 8 * b2n s.spoofAny + 16 * b2n s.grottoReady
  let head := leBytes 12 epoch ++ leBytes 4 s.gnc.seq ++ leBytes 2 chans.length ++ leBytes 1 flags ++ zeros 1
    ++ (List.range 8).flatMap (fun p => leBytes 4 (s.resOf epoch p latch)) ++ leBytes 4 (s.nreg GNC.SPOOF_STAT) ++ zeros 8
  let bytes := head ++ chans.flatMap (fun c => s.epochEntry c (sampleOf (s.chan c).port))
  let s1 := s.setGnc (fun g => { g with seq := (g.seq + 1) % 2 ^ 32, stepped := false, kaExit := false })
  let s2 := { s1 with ref := { s1.ref with epochs := ((epoch, s1.raw) :: s1.ref.epochs).take 8 } }
  let s3 := (if late then (s2.satF GNC.EPOCH_STAT_LATE).sticky GNC.STICKY_EPOCH_LATE else s2).count 5 4 0
  if s3.qRoom 136 1 then (s3.qPut 136).setGnc (fun g => { g with epochQ := g.epochQ ++ [bytes] })
  else ((s3.sump 0x17 .event 8 136).satF GNC.EPOCH_STAT_LOST).sticky GNC.STICKY_EPOCH_LOST

/-- The next strobe time after a timescale-0 value: k × PERIOD_MS + OFFSET_MS milliseconds. -/
def State.nextStrobe (s : State) (now : Nat) : Nat :=
  let ms := qNs * 1000000
  let per := s.rd GNC.EPOCH_CFG_PERIOD_MS * ms
  let off := s.rd GNC.EPOCH_CFG_OFFSET_MS * ms
  if per = 0 then now + 1 else if now < off then off else off + ((now - off) / per + 1) * per

/-- Compare unit 20 armed for the next strobe while EN = 1 outside Keep-alive (R196, R203). -/
def State.armStrobe (s : State) : State :=
  if s.on GNC.EPOCH_CFG_EN ∧ s.mode ≠ 8 then s.arm 20 0 (s.nextStrobe (s.tsNow 0)) else s.disarm 20

/-- What the firing of unit 20 does. -/
def State.strobeFire (s : State) (residual : Nat) (late : Bool) (latch : List PortLatch) : State :=
  (s.strobe late (s.tsNow 0 + residual) latch).armStrobe

/-! ### Indicators (R201, R202) and the accepted solution (R104) -/

/-- An indicator bit raised or cleared; raising sets its sticky bit once. -/
def State.setIndicator (s : State) (bit : Nat) (b : Bool) : State :=
  let f : Fld := ⟨GNC.SPOOF_STAT, bit, 1⟩
  let st := if bit < 4 then GNC.STICKY_SPOOF_POWER else if bit < 8 then GNC.STICKY_INTERF
    else if bit = 8 then GNC.STICKY_SPOOF_CARR else GNC.STICKY_SPOOF_TIME
  let s1 := s.wrB f b
  if b && !s.on f then s1.sticky st else s1

/-- The indicators the programs write: the OR of the words of all sequencers. -/
def State.writeIndicators (s : State) (g word : Nat) : State :=
  let s1 := s.setGnc (fun k => { k with words := Store.put zNat k.words g word })
  let all := (List.range 8).foldl (fun a i => a ||| Store.get zNat s1.gnc.words i) 0
  let s2 := (List.range 9).foldl (fun t i => t.setIndicator i (bitAt all i)) s1
  (s2.wr GNC.SPOOF_STAT_VAR (bitsOf word 16 8)).wr GNC.SPOOF_STAT_SATS (bitsOf word 24 8)

/-- The linear fit through points, evaluated at `x`, as numerator and denominator; none for fewer than two times. -/
def fitAt (pts : List (Nat × Int)) (x : Nat) : Option (Int × Int) :=
  match pts.getLast? with
  | none => none
  | some o =>
    let n : Int := pts.length
    let ps := pts.map (fun p => ((p.1 : Int) - o.1, p.2 - o.2))
    let sx := (ps.map (·.1)).sum
    let sy := (ps.map (·.2)).sum
    let sxx := (ps.map (fun p => p.1 * p.1)).sum
    let sxy := (ps.map (fun p => p.1 * p.2)).sum
    let den := n * sxx - sx * sx
    if den > 0 then
      -- slope (n sxy - sx sy) / den, intercept (sy - slope sx) / n, both over n * den
      some (o.2 * n * den + sy * den + (n * sxy - sx * sy) * (n * ((x : Int) - o.1) - sx), n * den)
    else none

/-- The TIME check on an accepted solution (R201): GNSS time minus raw Grotto time against the fit of the 600 s
before. -/
def State.timeCheck (s : State) (raw : Nat) (y : Int) : State :=
  let pts := s.gnc.fit.filter (fun p => decide (raw ≤ p.1 + 600 * qSec) && decide (p.1 < raw))
  let active := s.grottoReady && s.grottoActive && decide (64 ≤ pts.length)
  let s1 := s.wrB GNC.SPOOF_STAT_GROTTO_READY active
  let far := active && (match fitAt pts raw with
    | some f => decide (s.rd GNC.SPOOF_CFG_TIME_NS * qNs * f.2.natAbs < (y * f.2 - f.1).natAbs)
    | none => false)
  (s1.setIndicator 9 far).setGnc (fun g => { g with fit := (raw, y) :: pts })

/-- R104: a host GNSS solution. -/
def execGnssSolution (c : HostCmd) (t : Nat) (s : State) : Host.Outcome State Fault Refusal :=
  let s1 := s.advance t
  let epoch := c.u 0 12
  let offset := toSigned 64 (c.u 12 8)
  let slot := s1.slotBound 1 0
  let stale := s1.epochStale epoch
  let code := c.code [codeIf (!c.zero 24 32 || slot.isNone) stREFUSED, codeIf stale stSTALE]
  .next (
    if code = stOK then
      match slot, s1.ref.epochs.find? (fun e => e.1 == epoch) with
      | some n, some e =>
        let s2 := s1.timeCheck e.2 ((epoch : Int) + offset - e.2)
        let q := c.u 20 4
        let q1 := if s2.on GNC.SPOOF_CFG_AUTO_SPOOF ∧ s2.spoofAny = true then q ||| 16 else q
        (s2.gnssAccept n epoch offset q1).complete c stOK 0
      | _, _ => s1.complete c stREFUSED 0
    else
      let s2 := if code = stSTALE then (s1.satF REF.GNSS_STAT_STALE_CNT).sticky REF.STICKY_GNSS_STALE else s1
      s2.complete c code 0)

/-! ### Keep-alive and faults (R203, R204) -/

/-- Before the GNSS domain consents to Keep-alive: channels without CODE_LOCK are released, strobes stop. -/
def State.gncEnterKa (s : State) : State := (s.dropChans (fun _ x => !bitAt x.locks 0)).disarm 20

/-- On exit: strobes resume, and the first carries KA_EXIT. -/
def State.gncLeaveKa (s : State) : State := (s.setGnc (fun g => { g with kaExit := true })).armStrobe

/-- The channels of a correlator unit found faulty with no spare left are released (R204). -/
def State.unitLost (s : State) (u : Nat) : State := s.dropChans (fun c _ => c / 8 == u)

/-! ### Commit group GNC (R206) -/

def divides1000 (p : Nat) : Bool := p != 0 && 1000 % p == 0

def State.gncValid (s : State) : Bool :=
  let per := s.shd GNC.EPOCH_CFG_PERIOD_MS
  let kaP := s.shd GNC.KA_CFG_PERIOD_MS
  let kaL := s.shd GNC.KA_CFG_LEN_MS
  divides1000 per && decide (s.shd GNC.EPOCH_CFG_OFFSET_MS < per)
    && divides1000 kaP && kaL != 0 && decide (kaL ≤ kaP)
    && (s.shd GNC.EPOCH_CFG_EN == 0 || s.ringIs 0 3 (s.shd GNC.EPOCH_CFG_RING))
    && s.shd GNC.CTRL_STEER_TO != 0
    && (List.range 8).all (fun p => decide ((toSigned 32 (s.shadowWord (GNC.PORT_DELAY p))).natAbs ≤ 5120000))
    && (List.range 8).all (fun g =>
      let p := s.shd (GNC.GSEQ_BURST_PERIOD_MS g)
      let l := s.shd (GNC.GSEQ_BURST_LEN_MS g)
      divides1000 p && l != 0 && decide (l ≤ p)
        && !(s.shd (GNC.GSEQ_BURST_BURST_EN g) == 1 && s.shd (GNC.GSEQ_BURST_ANT_MASK g) == 0)
        && (s.shd (GNC.GSEQ_CFG_NAV_EN g) == 0 || s.ringIs 0 3 (s.shd (GNC.GSEQ_CFG_NAV_RING g))))

def State.gncApply (old : State) : State :=
  let s := (old.applyShadows .gnc).armStrobe
  (List.range 8).foldl (fun t g =>
    if old.nreg (GNC.GSEQ_BURST g) = t.nreg (GNC.GSEQ_BURST g) then t
    else let b := t.burstNow g; if b = 0 then t.endBurst g else t.beginBurst g b) s

/-! ### The commands of this chapter -/

/-- R188: a unit's boundary. -/
def execCorrelatorDump (u : Nat) (dumps : List DumpIn) (t : Nat) (s : State) : Host.Outcome State Fault Refusal :=
  .next ((dumps.filter (fun d => decide (d.ch < 384) && d.ch / 8 == u)).foldl (fun a d => a.boundary d.ch d) (s.advance t))

def execDumpClear (ch t : Nat) (s : State) : Host.Outcome State Fault Refusal :=
  .next (if ch < 384 then (s.advance t).dumpClear ch else s.advance t)

/-- The head dump of a sequencer's queue is removed (R377). -/
def State.dumpPop (s : State) (g : Nat) : State :=
  match Store.get dDumps s.gnc.dumps g with
  | [] => s
  | _ :: r => (s.setGnc (fun k => { k with dumps := Store.put dDumps k.dumps g r })).qTake (128 + g)

def execDumpPop (g t : Nat) (s : State) : Host.Outcome State Fault Refusal :=
  .next (if g < 8 then (s.advance t).dumpPop g else s.advance t)

/-- R190: a loop program's write; the last before a boundary is used. -/
def State.steerWrite (s : State) (c : Nat) (w : Steer) : State :=
  let x := s.chan c
  let o : Steer := x.steer.getD ⟨none, none, none⟩
  s.setChan c { x with steer := some ⟨w.codeRate <|> o.codeRate, w.carrRate <|> o.carrRate, w.word1 <|> o.word1⟩ }

def execChannelSteeringWrite (g ch : Nat) (codeRate carrRate word1 : Option Nat) (t : Nat) (s : State) :
    Host.Outcome State Fault Refusal :=
  let s1 := s.advance t
  .next (if ch < 384 ∧ ch / 48 = g ∧ (s1.chan ch).st ≠ .idle then
      s1.steerWrite ch ⟨codeRate.map (· % 2 ^ 48), carrRate.map (· % 2 ^ 48), word1.map (· % 2 ^ 32)⟩
    else s1)

/-- R190: STEER_TO consecutive missed milliseconds. -/
def execSteerTimeout (ch t : Nat) (s : State) : Host.Outcome State Fault Refusal :=
  let s1 := s.advance t
  let x := s1.chan ch
  .next (if ch < 384 ∧ x.st = .track ∧ s1.rd GNC.CTRL_STEER_TO ≤ x.missed then
      s1.setChan ch { x with locks := 0, stale := true }
    else s1)

def execChRead (m ch t : Nat) (s : State) : Host.Outcome State Fault Refusal := .next ((s.advance t).chWrite m ch 1)
def execChLoad (m ch t : Nat) (s : State) : Host.Outcome State Fault Refusal := .next ((s.advance t).chWrite m ch 2)
def execChRelease (m ch t : Nat) (s : State) : Host.Outcome State Fault Refusal := .next ((s.advance t).chWrite m ch 3)
def execChOpNone (m ch t : Nat) (s : State) : Host.Outcome State Fault Refusal := .next ((s.advance t).chWrite m ch 0)

/-- R191: the START_MS boundary of a LOADED channel; `sample` is the port's sample there. -/
def execChannelStart (ch sample t : Nat) (s : State) : Host.Outcome State Fault Refusal :=
  let s1 := s.advance t
  let x := s1.chan ch
  .next (if ch < 384 ∧ x.st = .loaded ∧ x.startMs ≤ s1.msNow then
      let b := s1.burstNow (ch / 48)
      let on := b == 5 || (b != 0 && b - 1 == s1.refAnt x)
      s1.setChan ch { x with st := if on then .track else .gap, sample := sample, first := true, lastMs := s1.msNow,
                             burstT0 := s1.tsNow 0 }
    else s1)

def execBurstStart (g t : Nat) (s : State) : Host.Outcome State Fault Refusal :=
  let s1 := s.advance t
  .next (if g < 8 ∧ (s1.burstPlan g).isSome = true ∧ s1.burstNow g ≠ 0 then
      (s1.seqEvent (32 + g) 1).beginBurst g (s1.burstNow g)
    else s1)

def execBurstEnd (g t : Nat) (s : State) : Host.Outcome State Fault Refusal :=
  let s1 := s.advance t
  .next (if g < 8 ∧ (s1.burstPlan g).isSome = true ∧ s1.burstNow g = 0 then
      (s1.seqEvent (32 + g) 1).endBurst g
    else s1)

/-- R200: a program's send word: a GNSS_NAV event to NAV_RING; a lost one counts in the Sump. -/
def execGnssNavSend (g : Nat) (body : List Byte) (t : Nat) (s : State) : Host.Outcome State Fault Refusal :=
  let s1 := s.advance t
  .next (if g < 8 ∧ s1.on (GNC.GSEQ_CFG_NAV_EN g) = true ∧ s1.mode ≠ 8 then
      (s1.postEvent (s1.rd (GNC.GSEQ_CFG_NAV_RING g)) 5 (fit 32 body)).1
    else s1)

def execSpoofIndicatorWrite (g word t : Nat) (s : State) : Host.Outcome State Fault Refusal :=
  .next (if g < 8 then (s.advance t).writeIndicators g (word % 2 ^ 32) else s.advance t)

end Sys2Proof.Machine
end

