-- ==== Sys2Proof/Machine/Frame.lean ====
section
/-! DEFINITION. Frames as bytes: the CRCs the manual names, checksums, the header forms stage 1 reads (R217, R235) and
the frame a response or message is sent as (R243). Pure functions of bytes. -/

namespace Sys2Proof.Machine

/-! ### Byte order, checksums and CRCs -/

/-- The number `n` bytes from `off` spell in network order; bytes beyond the end read 0. -/
def beAt (p : List Byte) (off n : Nat) : Nat := (fit n (p.drop off)).foldl (fun a b => a * 256 + b.toNat) 0

/-- `n` bytes of `x` in network order. -/
def beBytes (n x : Nat) : List Byte := (leBytes n x).reverse

/-- `v` in place of the bytes of `p` from `off`. -/
def setAt (p : List Byte) (off : Nat) (v : List Byte) : List Byte := p.take off ++ v ++ p.drop (off + v.length)

/-- One bit of a reflected CRC-32 with polynomial `poly`. -/
def crcBit (poly c : Nat) : Nat := if c % 2 = 1 then (c / 2) ^^^ poly else c / 2

def crcByte (poly c : Nat) (b : Byte) : Nat :=
  let x := c ^^^ b.toNat
  crcBit poly (crcBit poly (crcBit poly (crcBit poly (crcBit poly (crcBit poly (crcBit poly (crcBit poly x)))))))

def crc32With (poly : Nat) (p : List Byte) : Nat := (p.foldl (crcByte poly) 0xFFFFFFFF) ^^^ 0xFFFFFFFF

/-- CRC-32 of IEEE 802.3: polynomial 0x04C1_1DB7 reflected (R226). -/
def crc32 (p : List Byte) : Nat := crc32With 0xEDB88320 p
/-- CRC-32C: polynomial 0x1EDC_6F41 reflected. PRESUMED (log entry 11): the Castagnoli form the name stands for. -/
def crc32c (p : List Byte) : Nat := crc32With 0x82F63B78 p

/-- The 16-bit words of a byte string, the last padded with a zero byte. -/
def words16 : List Byte → List Nat
  | [] => []
  | [a] => [a.toNat * 256]
  | a :: b :: r => (a.toNat * 256 + b.toNat) :: words16 r

def fold16 (x : Nat) : Nat :=
  let y := x % 65536 + x / 65536
  y % 65536 + y / 65536

/-- The ones' complement sum of a byte string. -/
def onesSum (p : List Byte) : Nat := fold16 (words16 p).sum

/-! ### Tags and the Ethernet header (R217) -/

/-- An Ethernet header: addresses, tags as TPID and TCI, EtherType, and where the payload begins. -/
structure Eth where
  dst : List Byte
  src : List Byte
  tags : List (Nat × Nat)
  etype : Nat
  off : Nat
  deriving DecidableEq, Repr

/-- R217: untagged, single-tagged, or double-tagged; none where the header is cut short. -/
def ethOf (outer : Nat) (f : List Byte) : Option Eth :=
  let t0 := beAt f 12 2
  if f.length < 14 then none
  else if t0 = 0x8100 ∨ t0 = outer then
    if f.length < 18 then none
    else if t0 = outer ∧ beAt f 16 2 = 0x8100 then
      if f.length < 22 then none
      else some ⟨f.take 6, (f.drop 6).take 6, [(t0, beAt f 14 2), (0x8100, beAt f 18 2)], beAt f 20 2, 22⟩
    else some ⟨f.take 6, (f.drop 6).take 6, [(t0, beAt f 14 2)], beAt f 16 2, 18⟩
  else some ⟨f.take 6, (f.drop 6).take 6, [], t0, 14⟩

def tagBytes (ts : List (Nat × Nat)) : List Byte := ts.flatMap (fun t => beBytes 2 t.1 ++ beBytes 2 t.2)

/-! ### IP and UDP (R235) -/

/-- An IP header: version, addresses in network order, protocol, where its payload begins and the datagram ends, whether
it is a fragment, whether its options are ones stage 1 serves, and whether its own checksum holds. -/
structure Ip where
  v : Nat
  src : List Byte
  dst : List Byte
  proto : Nat
  off : Nat
  stop : Nat
  frag : Bool
  plain : Bool
  sumOk : Bool
  deriving DecidableEq, Repr

/-- The chain of IPv6 extension headers: protocol, offset, bytes walked, fragment, and whether all are of the kinds of
R235. -/
def ext6 (f : List Byte) : Nat → Nat → Nat → Nat → Bool → Nat × Nat × Nat × Bool
  | 0, nh, off, n, fr => (nh, off, n, fr)
  | fuel + 1, nh, off, n, fr =>
    if nh = 0 ∨ nh = 43 ∨ nh = 60 then
      let l := 8 * (beAt f (off + 1) 1 + 1)
      ext6 f fuel (beAt f off 1) (off + l) (n + l) fr
    else if nh = 44 then ext6 f fuel (beAt f off 1) (off + 8) (n + 8) true
    else (nh, off, n, fr)

def ip4Of (f : List Byte) (off : Nat) : Option Ip :=
  let ihl := beAt f off 1 % 16
  if f.length < off + 20 ∨ beAt f off 1 / 16 ≠ 4 ∨ ihl < 5 ∨ f.length < off + 4 * ihl then none
  else
    let fr := beAt f (off + 6) 2
    some ⟨4, (f.drop (off + 12)).take 4, (f.drop (off + 16)).take 4, beAt f (off + 9) 1, off + 4 * ihl,
      off + beAt f (off + 2) 2, fr % 0x4000 != 0, ihl == 5, onesSum ((f.drop off).take (4 * ihl)) == 0xFFFF⟩

def ip6Of (f : List Byte) (off : Nat) : Option Ip :=
  if f.length < off + 40 ∨ beAt f off 1 / 16 ≠ 6 then none
  else
    let x := ext6 f 16 (beAt f (off + 6) 1) (off + 40) 0 false
    some ⟨6, (f.drop (off + 8)).take 16, (f.drop (off + 24)).take 16, x.1, x.2.1, off + 40 + beAt f (off + 4) 2, x.2.2.2,
      decide (x.2.2.1 ≤ 64), true⟩

/-- What stage 1 makes of a frame's headers. -/
inductive L3
  | ip (h : Ip)
  | ptp (off : Nat)
  | other
  | bad
  deriving DecidableEq, Repr

def l3Of (f : List Byte) (e : Eth) : L3 :=
  if e.etype = 0x0800 then (match ip4Of f e.off with | some h => .ip h | none => .bad)
  else if e.etype = 0x86DD then (match ip6Of f e.off with | some h => .ip h | none => .bad)
  else if e.etype = 0x88F7 then .ptp e.off
  else .other

/-- The pseudo-header of a UDP checksum. -/
def pseudo (src dst : List Byte) (len : Nat) : List Byte := src ++ dst ++ beBytes 4 len ++ zeros 3 ++ [17]

/-- How the checks of R235 come out: passed, or the Sump reason. -/
def headerFault (f : List Byte) (e : Eth) : Option Nat :=
  match l3Of f e with
  | .bad => some 3
  | .ip h =>
    let padded := decide (f.length + 4 ≤ 64 + 4 * e.tags.length) && decide (h.stop ≤ f.length)
    if !h.sumOk then some 3
    else if !(decide (h.stop = f.length) || padded) || decide (h.stop < h.off) then some 3
    else if h.frag then none
    else if h.proto ≠ 17 then none
    else
      let n := h.stop - h.off
      if n < 8 ∨ beAt f (h.off + 4) 2 ≠ n then some 3
      else
        let sum := beAt f (h.off + 6) 2
        if sum = 0 then (if h.v = 6 then some 4 else none)
        else if onesSum (pseudo h.src h.dst n ++ (f.drop h.off).take n) = 0xFFFF then none else some 4
  | _ => none

/-- A UDP request, or PTP over Ethernet: what stages 2 to 4 need of it. `v` is 0 for PTP over Ethernet. -/
structure Pkt where
  eth : Eth
  v : Nat
  src : List Byte
  dst : List Byte
  sport : Nat
  dport : Nat
  body : List Byte
  deriving DecidableEq, Repr

/-- A frame stage 1 serves (R235), as a packet; none for any other. -/
def pktOf (outer : Nat) (f : List Byte) : Option Pkt :=
  match ethOf outer f with
  | none => none
  | some e =>
    match l3Of f e with
    | .ip h =>
      if h.frag ∨ !h.plain ∨ h.proto ≠ 17 ∨ h.stop < h.off + 8 then none
      else some ⟨e, h.v, h.src, h.dst, beAt f h.off 2, beAt f (h.off + 2) 2, (f.drop (h.off + 8)).take (h.stop - h.off - 8)⟩
    | .ptp off => some ⟨e, 0, [], [], 0, 0, f.drop off⟩
    | _ => none

/-! ### Frames sent (R243) -/

/-- A ones' complement sum as the checksum field: never zero in UDP. -/
def csumField (s : Nat) : Nat := if s = 0xFFFF then 0xFFFF else 0xFFFF - s

/-- The UDP header and payload, its checksum over the payload as it stands. -/
def Out.udp (o : Out) : List Byte :=
  let n := 8 + o.body.length
  let h := beBytes 2 o.sport ++ beBytes 2 o.dport ++ beBytes 2 n
  h ++ beBytes 2 (csumField (onesSum (pseudo o.src o.dst n ++ h ++ zeros 2 ++ o.body))) ++ o.body

/-- The bytes of the frame, not yet padded: IPv4 with IHL 5 and identification 0, IPv6 with no extension headers. -/
def Out.bytes (o : Out) : List Byte :=
  o.dmac ++ o.smac ++ tagBytes o.tags ++ beBytes 2 o.etype ++
    (if o.v = 4 then
      let h := beBytes 1 0x45 ++ beBytes 1 o.tos ++ beBytes 2 (28 + o.body.length) ++ zeros 2
        ++ beBytes 2 (if o.df then 0x4000 else 0) ++ beBytes 1 o.ttl ++ beBytes 1 17
      h ++ beBytes 2 (0xFFFF - onesSum (h ++ zeros 2 ++ o.src ++ o.dst)) ++ o.src ++ o.dst ++ o.udp
    else if o.v = 6 then
      beBytes 4 (6 * 2 ^ 28 + o.tos * 2 ^ 20 + o.flow) ++ beBytes 2 (8 + o.body.length) ++ beBytes 1 17 ++ beBytes 1 o.ttl
        ++ o.src ++ o.dst ++ o.udp
    else o.body)

/-- The frame length from destination address to FCS, padded to 60 bytes before the FCS. -/
def frameLen (n : Nat) : Nat := max 60 n + 4
def Out.len (o : Out) : Nat := frameLen o.bytes.length

/-- The destination class of a MAC address: 0 unicast, 1 multicast, 2 broadcast. -/
def castOf (m : List Byte) : Nat :=
  if m.all (· == 0xFF) then 2 else match m with | a :: _ => if a.toNat % 2 = 1 then 1 else 0 | [] => 0

/-- A multicast or broadcast IP address. -/
def ipMulti (v : Nat) (a : List Byte) : Bool :=
  if v = 4 then (a.all (· == 0xFF)) || decide (beAt a 0 1 / 16 = 14)
  else if v = 6 then decide (beAt a 0 1 = 0xFF) else false

/-! ### Wake patterns (R226) -/

/-- The bytes of a frame a 128-bit mask selects, in ascending order. -/
def masked (m : Nat) (f : List Byte) : List Byte := ((f.take 128).zipIdx.filter (fun x => bitAt m x.2)).map (·.1)

/-- The number of bytes a frame needs for a mask: its highest selected byte plus one. -/
def maskNeed (m : Nat) : Nat := match (List.range 128).reverse.find? (fun i => bitAt m i) with | some i => i + 1 | none => 0

def patternHits (m check : Nat) (f : List Byte) : Bool :=
  decide (maskNeed m ≤ f.length) && crc32 (masked m f) == check

end Sys2Proof.Machine
end

