-- ==== Sys2Proof/Machine/Jobs.lean ====
section
/-! DEFINITION. The frames the quads hold: lookup, the side buffer and its queues (R257 to R259), port counters (R221,
R225), stage-4 slot accounting (R480), and the ways a frame leaves (R43, R50, R260). -/

namespace Sys2Proof.Machine

/-! ### Port counters (R221, R222, R225) -/

/-- Counter `i` of port `p`, `n` more modulo 2^48; bit 47 setting raises STATS_HALF and names the counter (R225). -/
def State.stat (s : State) (p i : Nat) (n : Nat := 1) : State :=
  let k := 64 * p + i
  let old := Store.get zNat s.prt.stats k
  let new := (old + n) % 2 ^ 48
  let s1 := { s with prt := { s.prt with stats := Store.put zNat s.prt.stats k new } }
  if !bitAt old 47 && bitAt new 47 then
    let s2 := if s1.on (PRT.STICKY_STATS_HALF p) then s1
      else (s1.wr (PRT.STATS_SEL_HALF_IDX p) i).wr (PRT.STATS_SEL_HALF_VALID p) 1
    s2.sticky (PRT.STICKY_STATS_HALF p)
  else s1

/-- The size bin of a good frame, from the first bin's index. -/
def sizeBin (base len : Nat) : Nat :=
  base + (if len ≤ 64 then 0 else if len ≤ 127 then 1 else if len ≤ 255 then 2 else if len ≤ 511 then 3
    else if len ≤ 1023 then 4 else if len ≤ 1518 then 5 else if len ≤ 2047 then 6 else 7)

def State.linkUp (s : State) (p : Nat) : Bool := s.on (PRT.STAT_LINK p)
def State.idleNow (s : State) (p : Nat) : State :=
  { s with prt := { s.prt with idleRaw := Store.put zNat s.prt.idleRaw p s.raw } }

/-! ### Power domains (R436, R437) -/

def domFld (d : Nat) : Fld := ⟨PWR.DOM_STATE (d / 8), 4 * (d % 8), 2⟩
def domFailed (d : Nat) : Fld := ⟨PWR.DOM_STATE (d / 8), 4 * (d % 8) + 2, 1⟩
/-- A domain's state: 0 Run, 1 Doze, 2 Retain, 3 Off. -/
def State.domState (s : State) (d : Nat) : Nat := s.rd (domFld d)

/-- A domain that is stopped begins to wake (R446). Outside a request `PWR.SLEEP_STAT` reads waking. -/
def State.startWake (s : State) (d : Nat) : State :=
  if s.domState d < 2 ∨ s.pwr.wakes.any (fun w => w.dom == d) = true then s
  else
    let s1 := if s.pwr.sleep.isNone && !s.pwr.exiting then (s.wr PWR.SLEEP_STAT_STATE 4).wr PWR.SLEEP_STAT_DOMAIN d else s
    { s1 with pwr := { s1.pwr with wakes := s1.pwr.wakes ++ [⟨d, 1, false, s1.raw⟩] } }

/-- Keep-alive is in force or being entered. -/
def State.kaNow (s : State) : Bool :=
  s.mode == 8 || (match s.pwr.sleep with | some r => r.kind == .keepAlive | none => false)

/-- A sleeping port asked to wake (R227): `cause` as `PRT.WAKE_STAT`. In Keep-alive PWR wakes it in its turn (R448). -/
def State.wakePort (s : State) (p cause : Nat) : State :=
  let s1 := s.wr (PRT.WAKE_STAT_CAUSE p) cause
  if s1.kaNow then s1 else s1.startWake p

/-! ### Jobs -/

def State.findJob (s : State) (id : Nat) : Option Job := s.rsp.jobs.find? (fun j => j.id == id)
def State.setJobs (s : State) (l : List Job) : State := { s with rsp := { s.rsp with jobs := l } }
/-- A job in place of the one with its number. -/
def State.putJob (s : State) (j : Job) : State := s.setJobs (s.rsp.jobs.map (fun x => if x.id = j.id then j else x))
def State.delJob (s : State) (id : Nat) : State := s.setJobs (s.rsp.jobs.filter (fun x => x.id != id))

/-- A job takes the next number and joins the others. -/
def State.addJob (s : State) (j : Job) : State :=
  { s with rsp := { s.rsp with jobs := s.rsp.jobs ++ [{ j with id := s.rsp.nextId }], nextId := s.rsp.nextId + 1 } }

/-- A blank job of a port's quad. -/
def blankJob (p : Nat) : Job :=
  ⟨0, p / 8, p, false, .rx, [], 0, 0, false, 0, false, 0, none, 0, 0, true, 0, none, 0, none, 0, 0, 0, none, 0, 0, 0, none, false,
    false, false, false, none, false, false, [], 0⟩

/-- Requests of quad `q` in a stage. -/
def State.jobsIn (s : State) (q : Nat) (st : JobSt) : List Job := s.rsp.jobs.filter (fun j => j.quad == q && j.st == st)

/-- Side-buffer occupancy (R257). -/
def State.sideUsed (s : State) (q : Nat) : Nat := (s.jobsIn q .declined).length + (s.jobsIn q .slow).length

/-- Event `bit` of every sequencer of a quad (R377). -/
def State.quadEvent (s : State) (q bit : Nat) : State := (List.range 8).foldl (fun t i => t.seqEvent (8 * q + i) bit) s

/-- Requests pass from the side buffer to queue 96 + q and queue 104 + q, and reservation requests into queue 108 + q (R247),
as credit allows (R258, R259), in order. -/
def State.pump (s : State) (q : Nat) : State :=
  let s1 := (s.jobsIn q .declined).foldl (fun t j =>
    if t.qRoom (96 + q) 1 then ((t.qPut (96 + q)).putJob { j with st := .atSeq }).quadEvent q 0 else t) s
  let s2 := (s1.jobsIn q .slow).foldl (fun t j =>
    if t.qRoom (104 + q) 1 then (t.qPut (104 + q)).putJob { j with st := .staged, since := t.raw } else t) s1
  (s2.jobsIn q .wantSlot).foldl (fun t j =>
    if !j.inQ && t.qRoom (108 + q) 1 then (t.qPut (108 + q)).putJob { j with inQ := true } else t) s2

/-! ### Slot accounting of stage 4 (R480) -/

def State.slotIssued (s : State) (q : Nat) : State := s.updTd q (fun t => { t with pend := t.pend + 1 })
def State.slotRetired (s : State) (q : Nat) : State :=
  (s.updTd q (fun t => { t with pend := t.pend - 1, retired := (t.retired + 1) % 2 ^ 64 })).count 0 9 q
def State.slotWasted (s : State) (q : Nat) : State :=
  (s.updTd q (fun t => { t with pend := t.pend - 1, wasted := (t.wasted + 1) % 2 ^ 64 })).count 0 10 q

/-! ### Work items of the sequencers (R481) -/

/-- The issued cycles of a work item of sequencer `n`, held until now: retired or wasted. -/
def State.itemCycles (s : State) (n k : Nat) (ok : Bool) : State :=
  if k = 0 then s
  else if ok then (s.updTd (64 + n) (fun t => { t with pend := t.pend - k, retired := (t.retired + k) % 2 ^ 64 })).count 6 1 n k
  else (s.updTd (64 + n) (fun t => { t with pend := t.pend - k, wasted := (t.wasted + k) % 2 ^ 64 })).count 6 2 n k

/-- The work item of sequencer `n` ends. -/
def State.itemEnd (s : State) (n : Nat) (ok : Bool) : State :=
  match (s.sq n).item with
  | none => s
  | some k => (s.setSq n { s.sq n with item := none }).itemCycles n k ok

/-- The work item of sequencer `n` ends in a build: its cycles wait for the job's outcome. -/
def State.itemOwe (s : State) (n id : Nat) : State :=
  match (s.sq n).item with
  | none => s
  | some k =>
    let s1 := s.setSq n { s.sq n with item := none }
    s1.setSeqS (fun x => { x with owed := x.owed ++ [(id, n, k)] })

/-- The outcome of a job settles what a sequencer issued for it. -/
def State.itemSettle (s : State) (id : Nat) (ok : Bool) : State :=
  match s.seq.owed.find? (fun x => x.1 == id) with
  | none => s
  | some x => (s.setSeqS (fun z => { z with owed := z.owed.filter (fun y => y.1 != id) })).itemCycles x.2.1 x.2.2 ok

/-! ### How a job leaves (R43, R260) -/

/-- What a job holds of queues is returned: receive-buffer cells, its place in queues 96, 104 and 108. -/
def State.leaveQueues (s : State) (j : Job) : State :=
  let s1 := if j.cells = 0 then s else s.qTake j.port j.cells
  match j.st with
  | .atSeq => s1.qTake (96 + j.quad)
  | .staged => s1.qTake (104 + j.quad)
  | .wantSlot => if j.inQ then s1.qTake (108 + j.quad) else s1
  | _ => s1

/-- A departure slot is returned (R252, R253). -/
def State.leaveSlot (s : State) (j : Job) : State := if j.st = .held then s.give .depart j.port 1 else s

/-- The job's buffers and places are freed and it is gone. -/
def State.freeJob (s : State) (j : Job) : State :=
  (((((s.leaveQueues j).leaveSlot j).give .buffer j.quad 1).delJob j.id).quadEvent j.quad 1).pump j.quad

/-- A job goes to the Sump with a reason: a request under its term, a message as a buffer (R277). -/
def State.sumpJob (s : State) (j : Job) (reason : Nat) : State :=
  let s1 := (s.freeJob j).itemSettle j.id false
  let s2 := if j.slotted then s1.slotWasted j.quad else s1
  if j.isReq then s2.sumpRequest reason j.quad 13 j.quad j.frame (j.frame.length + 4)
  else s2.sump reason .buffer 14 j.quad

/-- A request counts as answered (R43). -/
def State.answerJob (s : State) (j : Job) : State :=
  let s0 := (s.freeJob j).itemSettle j.id true
  let s1 := if j.slotted then s0.slotRetired j.quad else s0
  if j.isReq then (s1.endRequest j.quad .answered).count 0 2 j.quad else s1

/-- A rebuild cancelled or without a slot: CANCEL_DROP, in the cancelled-then-dropped term (R255). -/
def State.cancelDrop (s : State) (j : Job) : State :=
  let s0 := (s.freeJob j).itemSettle j.id false
  let s1 := if j.isReq then s0.sticky RSP.STICKY_REBUILD_DROP else s0
  let s2 := if j.slotted then s1.slotWasted j.quad else s1
  if j.isReq then (s2.sump 0x0F .request 13 j.quad 1 j.frame (j.frame.length + 4)).endRequest j.quad .cancelDrop
  else s2.sump 0x0F .buffer 14 j.quad

/-! ### Stamp flags (R6, R312) -/

/-- SRC_WARM: the active oscillator is XO_IN, or the Grotto in WARM or READY. -/
def State.srcWarm (s : State) : Bool := !s.grottoActive || s.rd GRT.STATE_STATE == 2 || s.rd GRT.STATE_STATE == 3
/-- The time base is valid while the PLL is not in hold. -/
def State.stampValid (s : State) : Bool := !s.on TSC.LO_STAT_PLL_HOLD
def State.stampFlags (s : State) (poisoned predicted : Bool) : Nat :=
  b2n s.stampValid + 2 * b2n s.srcWarm + 4 * b2n poisoned + 8 * b2n predicted

/-! ### Stamps of received frames (R211) -/

/-- LAT and the delay to the reference plane of a port in one direction, in q (units of 2^-8 ns are 256 q). -/
def State.laneLat (s : State) (p dir : Nat) : Int := Store.get (fun _ => 0) s.prt.lat (16 * p + 8 * dir) * 256
def State.rxLag (s : State) (p : Nat) : Int := s.laneLat p 0 + s.sreg (PRT.RX_DELAY p) * 256
/-- L_tx of R212. -/
def State.txLag (s : State) (p : Nat) : Int := s.laneLat p 1 + s.sreg (PRT.TX_DELAY p) * 256

/-- T_rx of a received frame on timescale `n` (R211). -/
def State.rxStamp (s : State) (j : Job) (n : Nat) : Nat := ofSigned 96 ((j.rxT.getD n 0 : Int) - s.rxLag j.port)

end Sys2Proof.Machine
end

