-- ==== Sys2Proof/Machine/Hif.lean ====
section
/-! DEFINITION. HIF: rings (R349 to R353), doorbells (R354), MSI-X (R355), completions (R357, R358), commands (R359,
R360), transmit (R361, R362), receive (R364, R365), events (R366), DMA errors (R369), Keep-alive (R370) and commit group
HIF (R371). -/

namespace Sys2Proof.Machine

/-! ### Rings -/

/-- Bus Master Enable of the function that owns a ring (R348). -/
def State.ringBme (s : State) (r : Nat) : Bool := match s.ringOwner r with | some f => (s.fnOf f).bme | none => false

/-- Entries of the CQ not yet taken by the host. -/
def State.cqUsed (s : State) (r : Nat) : Nat :=
  let x := s.ringOf r
  (x.cqTail + s.ringSize r - x.cqHead) % s.ringSize r

/-- CQ slots neither written nor promised. -/
def State.cqFree (s : State) (r : Nat) : Nat :=
  let x := s.ringOf r
  s.ringSize r - 1 - s.cqUsed r - x.cpls.length - (if x.openBuf.isSome then 1 else 0)

def State.descHeld (s : State) (r : Nat) : Nat := (s.lget .desc r).held

/-- `HIF.RING_ERR` and its summary for ring `r`. -/
def State.markErr (s : State) (r : Nat) (b : Bool) : State :=
  let s1 := s.wrB ⟨HIF.RING_ERR (r / 32), r % 32, 1⟩ b
  s1.wrB ⟨HIF.RING_ERR_SUMMARY, r / 32, 1⟩ (s1.nreg (HIF.RING_ERR (r / 32)) != 0)

/-- A DMA read failed (R369): `what` 0 descriptor, 1 transmit data, 2 command payload, 3 other; `cause` 0 timeout,
1 Unsupported Request, 2 Completer Abort, 3 poisoned TLP. -/
def State.dmaAbort (s : State) (r what cause : Nat) : State :=
  let f := (s.ringOwner r).getD 0
  ((s.bump HIF.DMA_ABORTS).setN HIF.DMA_ABORT_LAST (r % 1024 + 2 ^ 16 * f + 2 ^ 24 * (cause % 4) + 2 ^ 26 * what)).sticky
    HIF.STICKY_DMA_ABORT

/-! ### Interrupts of rings (R355) -/

/-- A ring's vector is signalled, once the entries since the last signal or the time since the first of them call for
it. -/
def State.signal (s : State) (r : Nat) : State :=
  let x := s.ringOf r
  if s.on (ringFld r 0 14 1) && decide (max (s.rd (ringFld r 6 16 16)) 1 ≤ x.sigN) then
    match s.ringOwner r with
    | some f => (s.setRing r { x with sigN := 0 }).msix f (s.rd (ringFld r 0 8 6))
    | none => s
  else s

/-- One more completion or record on a ring. -/
def State.entryWritten (s : State) (r : Nat) : State :=
  let x := s.ringOf r
  (s.setRing r { x with writes := (x.writes + 1) % 2 ^ 32, sigN := x.sigN + 1,
                        sigRaw := if x.sigN = 0 then s.raw else x.sigRaw }).signal r

/-! ### Completions (R357, R358) -/

/-- The 16 bytes of a completion: bytes 8 to 11 are held as one number. -/
def Cpl.bytes (c : Cpl) (phase : Bool) : List Byte :=
  leBytes 2 c.slot ++ leBytes 1 c.status ++ leBytes 1 c.kind3 ++ leBytes 4 c.count ++ leBytes 4 c.kind8 ++ leBytes 2 c.tag
    ++ leBytes 1 c.flags ++ leBytes 1 (128 * b2n phase)

/-- The oldest waiting completion of a ring is written into a free CQ slot; its DESC tokens are returned. -/
def State.writeCpl (s : State) (r : Nat) : State :=
  let x := s.ringOf r
  match x.cpls with
  | [] => s
  | c :: rest =>
    if x.st = .disabled ∨ !s.ringBme r ∨ s.cqUsed r + 1 ≥ s.ringSize r then s
    else
      let last := x.cqTail + 1 = s.ringSize r
      let s1 := (s.setBytes (s.cqAddr r + 16 * x.cqTail) (c.bytes x.phase)).setRing r
        { x with cpls := rest, cqTail := if last then 0 else x.cqTail + 1, phase := if last then !x.phase else x.phase }
      let s2 := (((s1.give .desc r c.tokens).bump48 HIF.CPL_WRITTEN_LO).count 2 8 0).entryWritten r
      match c.quad with
      | some q => s2.endRequest q .toHost
      | none => s2

def execCompletionWrite (ring t : Nat) (s : State) : Host.Outcome State Fault Refusal :=
  .next ((s.advance t).writeCpl ring)

def execMsixModerationTimeout (ring t : Nat) (s0 : State) : Host.Outcome State Fault Refusal :=
  let s := s0.advance t
  let x := s.ringOf ring
  let us := s.rd (ringFld ring 6 0 16)
  .next (if s.on (ringFld ring 0 14 1) ∧ 0 < x.sigN ∧ 0 < us ∧ x.sigRaw + us * 1000 * qNs ≤ s.raw then
      match s.ringOwner ring with
      | some f => (s.setRing ring { x with sigN := 0 }).msix f (s.rd (ringFld ring 0 8 6))
      | none => s
    else s)

/-- R355: every pending signal that unmasking lets through is sent. `what` 0 unmasks vector `vec`, 1 the function, 2
enables MSI-X. -/
def execMsixUnmask (f what vec t : Nat) (s0 : State) : Host.Outcome State Fault Refusal :=
  let s := s0.advance t
  let x := s.fnOf f
  let s1 := match what with
    | 0 => { s with hif := { s.hif with msixMask := Store.put (zBool true) s.hif.msixMask (64 * f + vec) false } }
    | 1 => s.setFn f { x with fnMask := false }
    | _ => s.setFn f { x with msixEn := true }
  .next (if 64 ≤ f ∨ 64 ≤ vec then s
    else (List.range 64).foldl (fun t v =>
      if Store.get (zBool false) t.hif.msixPend (64 * f + v) && (what != 0 || v == vec) then t.msix f v else t) s1)

/-! ### Event buffers (R366) -/

/-- The open buffer group of a ring closes: one completion with the bytes used. -/
def State.closeBuf (s : State) (r : Nat) : State :=
  let x := s.ringOf r
  match x.openBuf with
  | none => s
  | some b =>
    (s.setRing r { x with openBuf := none }).postCpl r
      ⟨b.slot, stOK, b.addrs.length, b.used, b.events, 0, 0, b.addrs.length, none⟩

/-- A buffer group of `n` posted buffers opened, if they and a CQ slot are to be had. -/
def State.openGroup (s : State) (r n : Nat) : Option State :=
  let x := s.ringOf r
  match x.posted with
  | [] => none
  | h :: _ =>
    if x.posted.length < n ∨ s.cqFree r = 0 ∨ x.st ≠ .enabled ∨ !s.ringBme r then none
    else some (s.setRing r { x with posted := x.posted.drop n,
                                    openBuf := some ⟨h.1, (x.posted.take n).map (·.2), 0, 0, s.raw⟩ })

/-- The host address of byte `off` of a group. -/
def groupAddr (addrs : List Nat) (size off : Nat) : Nat :=
  match addrs[off / size]? with | some a => a + off % size | none => 0

/-- Bytes written across the buffers of a group. -/
def State.putGroup (s : State) (addrs : List Nat) (size : Nat) : Nat → List Byte → State
  | _, [] => s
  | off, b :: rest => State.putGroup (s.setBytes (groupAddr addrs size off) [b]) addrs size (off + 1) rest

/-- An event written into the open group, which closes when full or when FLUSH_US is 0. -/
def State.placeEvent (s : State) (r : Nat) (bytes : List Byte) : State :=
  let x := s.ringOf r
  match x.openBuf with
  | none => s
  | some b =>
    let size := s.bufSize r
    let used := b.used + bytes.length
    let s1 := (s.putGroup b.addrs size b.used bytes).setRing r
      { x with openBuf := some { b with used := used, events := b.events + 1,
                                        firstRaw := if b.events = 0 then s.raw else b.firstRaw } }
    if b.addrs.length * size < used + 8 ∨ s.rd (ringFld r 1 20 12) = 0 then s1.closeBuf r else s1

/-- An event that cannot be placed (R366). A Sump sample is not itself sumped (R51). -/
def State.eventLost (s : State) (r kind : Nat) : State :=
  let x := s.ringOf r
  let s1 := (s.setRing r { x with drops := (x.drops + 1) % 2 ^ 32 }).bump HIF.EVENT_LOST
  (if kind = 0 then s1 else s1.sumpCount 0x17).sticky HIF.STICKY_EVENT_LOST

/-- An event delivered to its ring, or lost. The answer says which. -/
def State.deliver (s : State) (e : Event) : State × Bool :=
  let r := e.ring
  let x := s.ringOf r
  let seq := x.evSeq
  let s1 := s.setRing r { x with evSeq := (seq + 1) % 2 ^ 32 }
  let body := leBytes 1 e.kind ++ zeros 1 ++ leBytes 2 e.payload.length ++ leBytes 4 seq ++ e.payload
  let bytes := body ++ zeros ((8 - body.length % 8) % 8)
  let size := s1.bufSize r
  let fits := match x.openBuf with
    | some b => decide (b.used + bytes.length ≤ b.addrs.length * size)
    | none => false
  if x.st ≠ .enabled ∨ s.ringKind r ≠ 3 then (s1.eventLost r e.kind, false)
  else if fits then (s1.placeEvent r bytes, true)
  else
    let s2 := s1.closeBuf r
    match s2.openGroup r (max 1 (ceilDiv bytes.length size)) with
    | some s3 => (s3.placeEvent r bytes, true)
    | none => (s2.eventLost r e.kind, false)

/-- What the block that made an event keeps of its loss. -/
def State.noteLost (s : State) (e : Event) : State :=
  match e.kind with
  | 0 => s.sticky FAB.STICKY_SAMPLE_LOST
  | 6 => s.sticky (PRT.STICKY_STATS_LOST (leAt e.payload 12 1))
  | 7 => (s.satF (EVT.CAP_STAT_LOST (leAt e.payload 14 1 % 16))).sticky EVT.STICKY_CAP_LOST
  | 8 =>
    let f := TDC.CH_STAT_LOST (leAt e.payload 14 1 % 16)
    (if s.rd f = 255 then s else s.wr f (s.rd f + 1)).sticky TDC.STICKY_LOST
  | 9 => s.sticky TDC.STICKY_FREQ_LOST
  | 10 => s.sticky PTP.STICKY_EVENT_LOST
  | 11 => s.sticky PMC.STICKY_SNAP_LOST
  | _ => s

/-- An event whose maker keeps its loss, posted. -/
def State.postNoted (s : State) (ring kind : Nat) (payload : List Byte) : State :=
  let r := s.postEvent ring kind payload
  if r.2 then r.1 else r.1.noteLost ⟨ring, kind, payload⟩

/-- What the block that made an event keeps of its delivery (R312). -/
def State.noteSent (s : State) (e : Event) : State :=
  match e.kind with
  | 7 => s.bumpF (EVT.CAP_STAT_COUNT (leAt e.payload 14 1 % 16))
  | _ => s

/-- Stamps pass from a TDC channel's queue 112 + c into queue 142 as it has credit (R336). -/
def State.tdcPump (s : State) (c : Nat) : State :=
  (Store.get (fun _ => []) s.tdc.q c).foldl (fun t x =>
    if t.qRoom 142 1 then
      let t1 := t.qTake (112 + c)
      let left := (Store.get (fun _ => []) t1.tdc.q c).drop 1
      let t2 := { t1 with tdc := { t1.tdc with q := Store.put (fun _ => []) t1.tdc.q c left } }
      (t2.postEvent x.1 8 x.2).1
    else t) s

/-- The event at the head of queue 142 goes to its ring; the channel queues follow, the lowest first. -/
def State.deliverHead (s : State) : State :=
  match s.hif.evQ with
  | [] => s
  | e :: rest =>
    let s1 := s.qTake 142
    let d := ({ s1 with hif := { s1.hif with evQ := rest } }).deliver e
    let s2 := if d.2 then d.1.noteSent e else d.1.noteLost e
    if s2.tdc.q.isEmpty then s2 else (List.range 16).foldl State.tdcPump s2

def execEventDeliver (t : Nat) (s : State) : Host.Outcome State Fault Refusal := .next (s.advance t).deliverHead

/-- Queue 142 drained in order. -/
def State.drainEvents (s : State) : State := s.hif.evQ.foldl (fun t _ => t.deliverHead) s

/-- An event of a command whose completion reports whether it was written: the events ahead of it go first (R366). -/
def State.sendEvent (s : State) (ring kind : Nat) (payload : List Byte) : State × Bool :=
  s.drainEvents.deliver ⟨ring, kind, payload⟩

/-- R199: the epoch at the head of queue 136 goes to its ring, or to the Sump. -/
def State.deliverEpoch (s : State) : State :=
  match s.gnc.epochQ with
  | [] => s
  | b :: rest =>
    let d := ((s.qTake 136).setGnc (fun g => { g with epochQ := rest })).deliver ⟨s.rd GNC.EPOCH_CFG_RING, 4, b⟩
    if d.2 then (d.1.bumpF GNC.EPOCH_STAT_COUNT).sticky GNC.STICKY_EPOCH_DONE
    else (d.1.satF GNC.EPOCH_STAT_LOST).sticky GNC.STICKY_EPOCH_LOST

def execEpochDeliver (t : Nat) (s : State) : Host.Outcome State Fault Refusal := .next (s.advance t).deliverEpoch

def execEventFlushTimeout (ring t : Nat) (s0 : State) : Host.Outcome State Fault Refusal :=
  let s := s0.advance t
  .next (match (s.ringOf ring).openBuf with
    | some b => if b.firstRaw + s.rd (ringFld ring 1 20 12) * 1000 * qNs ≤ s.raw then s.closeBuf ring else s
    | none => s)

/-! ### Transmit frames (R361, R362) -/

def State.setTx (s : State) (l : List TxFrame) : State := { s with prt := { s.prt with tx := l } }
def State.findTx (s : State) (id : Nat) : Option TxFrame := s.prt.tx.find? (fun f => f.id == id)

/-- A transmit frame's completion. -/
def State.txCpl (s : State) (r slot ndesc tag status count : Nat) (flags : Nat) : State :=
  s.postCpl r ⟨slot, status, ndesc, count, 0, tag, flags, ndesc, none⟩

/-- A frame leaves the host-transmit pool: its place in the egress queue and its buffer are returned. -/
def State.freeTx (s : State) (f : TxFrame) : State :=
  ((s.setTx (s.prt.tx.filter (fun x => x.id != f.id))).qTake (32 + f.port)).give .buffer 4 1

/-- A host frame ends without having been sent: buffer to the Sump, completion with a status (R362). -/
def State.dropTx (s : State) (f : TxFrame) (status reason : Nat) : State :=
  ((s.freeTx f).sump reason .buffer 18 f.ring 1 f.bytes (f.bytes.length + 4)).txCpl f.ring f.slot f.ndesc f.tag status 0
    (b2n f.stamp)

/-- The descriptors of the frame at the head of a transmit ring's fetched descriptors: up to the first without MORE, or
nine. -/
def txFrameDescs : Nat → List (Nat × List Byte) → Option (List (Nat × List Byte))
  | _, [] => none
  | 0, d :: _ => some [d]
  | n + 1, d :: r =>
    if bitAt (leAt d.2 11 1) 0 then (match txFrameDescs n r with | some l => some (d :: l) | none => none) else some [d]

/-- A transmit descriptor with a RSVD bit set. -/
def txRsvd (d : List Byte) : Bool :=
  decide (32 ≤ leAt d 10 1) || decide (8 ≤ leAt d 11 1) || decide (128 ≤ leAt d 14 1) || !zeroBytes d 15 32

/-- The lowest code of R362 before the data is read. -/
def State.txCode (s : State) (r : Nat) (ds : List (Nat × List Byte)) : Nat :=
  let d := match ds with | x :: _ => x.2 | [] => []
  let p := leAt d 10 1 % 32
  let len := (ds.map (fun x => leAt x.2 8 2)).sum
  let f := (s.ringOwner r).getD 0
  lowestCode [codeIf (len == 0) stZERO_LEN,
    codeIf (!s.portPresent p || !s.on (PRT.CTRL_EN p) || !s.on (PRT.STAT_PRESENT p) || decide (s.nreg (PRT.MAX_FRAME p) % 2 ^ 14 < len + 4)
      || decide (9600 < len + 4) || decide (8 < ds.length) || (bitAt (leAt d 11 1) 1 && !s.on (ringFld r 7 26 1))
      || ds.any (fun x => txRsvd x.2)) stREFUSED,
    codeIf (!s.granted f 12 (16 * p) .write) stDENIED,
    codeIf (!(s.mode == 3 || s.mode == 4 || s.mode == 5 || s.mode == 6 || s.mode == 10) || bitAt (s.rd RSP.STAT_FENCED) (p / 8))
      stMODE_FORBIDS]

/-- Whether the host-transmit pool takes frames (R47). -/
def State.txPoolOpen (s : State) : Bool := !s.fab.isolated.contains (Tok.buffer.key 4)

/-- R361: the frame at the head of ring `r` is checked and read. A full egress queue holds it back (R29). -/
def State.transmit (s : State) (r : Nat) (dataErr : Option Nat) (poisoned : Bool) : State :=
  let x := s.ringOf r
  match txFrameDescs 8 x.txd with
  | none => s
  | some ds =>
    let d := match ds with | y :: _ => y.2 | [] => []
    let slot := match ds.getLast? with | some y => y.1 | none => 0
    let p := leAt d 10 1 % 32
    let flags := leAt d 11 1
    let tag := leAt d 12 2
    let code := s.txCode r ds
    let taken := s.setRing r { x with txd := x.txd.drop ds.length }
    if x.st ≠ .enabled ∨ s.ringKind r ≠ 1 ∨ !s.txPoolOpen then s
    else if code ≠ 0 then
      let f := (s.ringOwner r).getD 0
      let s1 := if !s.granted f 12 (16 * p) .write then taken.deny f 12 .write else taken
      s1.txCpl r slot ds.length tag code 0 (b2n (bitAt flags 1))
    else if !s.qRoom (32 + p) 1 then s
    else
      let bytes := ds.flatMap (fun y => s.bytesAt (leAt y.2 0 8) (leAt y.2 8 2))
      match dataErr with
      | some c =>
        ((taken.dmaAbort r 1 c).sump 0x1B .buffer 18 r 1 [] 0).txCpl r slot ds.length tag stABORTED 0 (b2n (bitAt flags 1))
      | none =>
        let ts := leAt d 14 1
        let f : TxFrame := ⟨s.rsp.nextId, r, slot, ds.length, p, bitAt flags 2, bitAt flags 1, tag, ts % 64, bitAt ts 6, bytes,
          s.raw, poisoned⟩
        let s1 := ((taken.setTx (taken.prt.tx ++ [f])).qPut (32 + p)).issue .buffer 4 1
        let s2 := { s1 with rsp := { s1.rsp with nextId := s1.rsp.nextId + 1 } }
        let s3 := if s2.on (PRT.STAT_SLEEPING p) then s2.wakePort p 3 else s2
        if poisoned then (s3.poisonSeen).dropTx f stPOISONED 0x10 else s3

def execTransmitFrame (ring : Nat) (dataErr : Option Nat) (poisoned : Bool) (t : Nat) (s : State) :
    Host.Outcome State Fault Refusal :=
  .next ((s.advance t).transmit ring dataErr poisoned)

/-- R362: LINK stayed 0 for 10 ms after the frame was read. -/
def execTxLinkTimeout (id t : Nat) (s0 : State) : Host.Outcome State Fault Refusal :=
  let s := s0.advance t
  .next (match s.findTx id with
    | some f =>
      if !s.linkUp f.port && decide (f.readRaw + 10000000 * qNs ≤ s.raw)
          && decide (Store.get zNat s.prt.linkRaw f.port + 10000000 * qNs ≤ s.raw) then s.dropTx f stTIMEOUT 0x1B else s
    | none => s)

/-! ### Ring operations (R350 to R352) -/

def isPow2 (n : Nat) : Bool := n != 0 && n &&& (n - 1) == 0

/-- What ENABLE refuses (R351). -/
def State.enableBad (s : State) (r : Nat) : Bool :=
  let kind := s.ringKind r
  let size := s.ringSize r
  let w := fun k => s.nreg (Tbl.ringWord.key (8 * r + k))
  let o := s.ringOwner r
  let sr := s.rd (ringFld r 7 16 10)
  o.isNone || decide (5 ≤ kind) || !(isPow2 size && decide (64 ≤ size) && decide (size ≤ 65536))
    || s.sqAddr r % 64 != 0 || s.cqAddr r % (if kind = 4 then 4 else 64) != 0
    || ((kind == 2 || kind == 3) && decide (8 < s.rd (ringFld r 0 16 4)))
    || (s.on (ringFld r 0 14 1) && decide (s.vectors (o.getD 0) ≤ s.rd (ringFld r 0 8 6)))
    || (kind == 1 && s.on (ringFld r 7 26 1) && !s.ringIs (o.getD 0) 4 sr)
    || bitsOf (w 0) 3 5 != 0 || bitsOf (w 0) 15 1 != 0 || bitsOf (w 0) 27 5 != 0 || bitsOf (w 1) 17 3 != 0 || bitsOf (w 7) 27 5 != 0

/-- STATUS and the banked copy of `HIF.RING_CTRL` for master `m`. -/
def State.ringCtrl (s : State) (m ring op code : Nat) : State :=
  let s1 := s.setN (Tbl.ringCtrl.key m) (ring % 1024 + 2 ^ 12 * (op % 4) + 2 ^ 24 * code)
  if code = stREFUSED then s1.refuseCfg .hif else if code = stDENIED then s1.deny m 18 .write else s1

/-- A ring that ENABLE or DISABLE may not touch: outside the master's range, the master not being 0. -/
def State.ringDenied (s : State) (m r : Nat) : Bool := m != 0 && !s.owns m r

def State.ringEnable (s : State) (m r : Nat) : State :=
  let x := s.ringOf r
  let code := lowestCode [codeIf (s.enableBad r) stREFUSED, codeIf (x.st != .disabled) stBUSY, codeIf (s.ringDenied m r) stDENIED,
    codeIf s.modeNoCmd stMODE_FORBIDS]
  let s1 := if code = 0 then s.setRing r { x with st := .enabled, sqHead := 0, sqTail := 0, cqHead := 0, cqTail := 0, phase := true,
                                                  posted := [], txd := [], cpls := [], openBuf := none, sigN := 0 } else s
  s1.ringCtrl m r 1 code

/-- Commands of a ring that wait in queue 143 complete ABORTED. -/
def State.abortCmds (s : State) (r : Nat) : State :=
  (s.hif.cmdQ.filter (fun c => c.ring == r)).foldl (fun t c => t.complete c stABORTED 0) s

/-- Every fetched transmit descriptor of a ring completes ABORTED, one completion a frame. -/
def State.abortTxd (s : State) (r : Nat) : Nat → List (Nat × List Byte) → State
  | 0, _ => s
  | fuel + 1, l =>
    match l with
    | [] => s
    | d :: _ =>
      let ds := (txFrameDescs 8 l).getD l
      let slot := match ds.getLast? with | some y => y.1 | none => 0
      State.abortTxd (s.txCpl r slot ds.length (leAt d.2 12 2) stABORTED 0 (b2n (bitAt (leAt d.2 11 1) 1))) r fuel
        (l.drop ds.length)

/-- Unclaimed buffers of a ring complete ABORTED with COUNT 0, one completion each. -/
def State.abortPosted (s : State) (r : Nat) : State :=
  let x := s.ringOf r
  x.posted.foldl (fun t b => t.postCpl r ⟨b.1, stABORTED, 1, 0, 0, 0, 0, 1, none⟩) (s.setRing r { x with posted := [] })

/-- R352: DISABLE of an ENABLED or ERROR ring. -/
def State.startDrain (s : State) (r : Nat) : State :=
  let x := s.ringOf r
  let s1 := (s.setRing r { x with st := .draining, txd := [] }).markErr r false
  let s2 := (s1.abortCmds r).abortTxd r x.txd.length x.txd
  let s3 := (s2.prt.tx.filter (fun f => f.ring == r)).foldl (fun t f => t.dropTx f stABORTED 0x1B) s2
  (s3.closeBuf r).abortPosted r

def State.ringDisable (s : State) (m r : Nat) : State :=
  let x := s.ringOf r
  if s.ringDenied m r then s.ringCtrl m r 2 stDENIED
  else
    let s1 := if x.st = .enabled ∨ x.st = .error then s.startDrain r else s
    s1.ringCtrl m r 2 stOK

/-- R352, last row: every ring that satisfies `p` goes to DISABLED at once, with no completion. -/
def State.killRing (s : State) (r : Nat) : State :=
  let x := s.ringOf r
  if x.st = .disabled then s
  else
    let s0 := (s.setRing r { x with st := .disabled, posted := [], txd := [], cpls := [], openBuf := none, sigN := 0 }).markErr r false
    let s1 := s0.give .desc r (s0.descHeld r)
    let s2 := (s1.hif.cmdQ.filter (fun c => c.ring == r)).foldl (fun t c => t.takeCmd c) s1
    let s3 := (s2.prt.tx.filter (fun f => f.ring == r)).foldl (fun t f => t.dropTx f stABORTED 0x12) s2
    let s4 := (s3.rsp.jobs.filter (fun j => (j.st == .slow || j.st == .staged) && j.ring == r)).foldl
      (fun t j => t.sumpJob j 0x12) s3
    let lost := (s4.hif.evQ.filter (fun e => e.ring == r)).length + (match x.openBuf with | some b => b.events | none => 0)
    let n := (s4.hif.evQ.filter (fun e => e.ring == r)).length
    let s5 := { s4.qTake 142 n with hif := { s4.hif with evQ := s4.hif.evQ.filter (fun e => e.ring != r) } }
    let s6 := if lost = 0 then s5 else s5.sumpCount 0x17 lost
    -- requests whose completion waits and is discarded go to the Sump as well
    x.cpls.foldl (fun t c => match c.quad with | some q => t.sumpRequest 0x12 q 13 q | none => t) s6

/-- A write through the bus, checked for a register of HIF. -/
def State.hifWrite (s : State) (m a : Nat) (f : State → State) : State :=
  match s.access m a .write with
  | .granted => f s
  | .denied => s.deny m 18 .write
  | _ => s

/-- R350: a write of a ring word. -/
def State.ringData (s : State) (m val : Nat) : State :=
  let r := s.selRing m
  if s.ringDenied m r then s.deny m 18 .write
  else if (s.ringOf r).st ≠ .disabled then s.refuseCfg .hif
  else match s.keyOf m HIF.RING_DATA with | some k => s.setN k val | none => s

def execRingDataWrite (m val t : Nat) (s : State) : Host.Outcome State Fault Refusal :=
  .next ((s.advance t).hifWrite m HIF.RING_DATA (fun x => x.ringData m val))
def execRingEnable (m ring t : Nat) (s : State) : Host.Outcome State Fault Refusal :=
  .next ((s.advance t).hifWrite m HIF.RING_CTRL (fun x => x.ringEnable m (ring % 1024)))
def execRingDisable (m ring t : Nat) (s : State) : Host.Outcome State Fault Refusal :=
  .next ((s.advance t).hifWrite m HIF.RING_CTRL (fun x => x.ringDisable m (ring % 1024)))
def execRingOpInvalid (m ring op t : Nat) (s : State) : Host.Outcome State Fault Refusal :=
  .next ((s.advance t).hifWrite m HIF.RING_CTRL (fun x => x.ringCtrl m ring (if op % 4 = 0 then 0 else 3) stREFUSED))

def execRingDrained (ring t : Nat) (s0 : State) : Host.Outcome State Fault Refusal :=
  let s := s0.advance t
  .next (if (s.ringOf ring).st = .draining ∧ s.descHeld ring = 0 then s.setRing ring { s.ringOf ring with st := .disabled } else s)

/-! ### Doorbells (R354) -/

/-- A doorbell of function `f` for its `i`-th ring; a bad one is ignored. -/
def State.doorbell (s : State) (f i index rsvd : Nat) (cq : Bool) : State :=
  let r := s.ringBase f + i
  let x := s.ringOf r
  let size := s.ringSize r
  let span := (x.cqTail + size - x.cqHead) % size
  let bad := decide (s.ringCount f ≤ i) || x.st != .enabled || decide (size ≤ index) || rsvd != 0
    || (if cq then decide (span < (index + size - x.cqHead) % size) else s.ringKind r == 4)
  if bad then s.sticky HIF.STICKY_DB_BAD
  else if cq then s.setRing r { x with cqHead := index }
  else s.setRing r { x with sqTail := index }

def execDoorbellSqTail (f i index rsvd t : Nat) (s : State) : Host.Outcome State Fault Refusal :=
  .next (if f < 64 then (s.advance t).doorbell f i index rsvd false else s.advance t)
def execDoorbellCqHead (f i index rsvd t : Nat) (s : State) : Host.Outcome State Fault Refusal :=
  .next (if f < 64 then (s.advance t).doorbell f i index rsvd true else s.advance t)

/-! ### Descriptor fetch and commands (R353, R359, R360) -/

/-- The commands of R360. -/
def knownCmd (block op : Nat) : Bool :=
  match block with
  | 3 | 12 | 16 | 18 | 19 | 22 | 23 | 24 => op == 1
  | 7 | 10 | 15 => op == 1 || op == 2
  | 17 => decide (1 ≤ op) && decide (op ≤ 3)
  | 20 => decide (1 ≤ op) && decide (op ≤ 4)
  | _ => false

/-- HIF's own codes for a command descriptor (R359), in the order of its checks. -/
def State.cmdPre (s : State) (f : Nat) (d : List Byte) (payErr : Option Nat) : List Nat :=
  let b := leAt d 0 1
  [codeIf (decide (32 ≤ b) || !zeroBytes d 4 8 || !zeroBytes d 16 32 || leAt d 8 8 % 32 != 0 || !knownCmd (b % 32) (leAt d 1 1)) stREFUSED,
   codeIf (!s.granted f (b % 32) 0xFFFFF .write) stDENIED,
   match payErr with | some 3 => stPOISONED | some _ => stABORTED | none => 0,
   codeIf (s.mode == 10 && (b == 16 || b == 17)) stMODE_FORBIDS]

/-- A command descriptor dispatched, or completed by HIF where no block can take it. -/
def State.dispatch (s : State) (r slot : Nat) (d : List Byte) (payErr : Option Nat) : State :=
  let f := (s.ringOwner r).getD 0
  let b := leAt d 0 1 % 32
  let codes := s.cmdPre f d payErr
  let s1 := match payErr with | some c => s.dmaAbort r 2 c | none => s
  let s2 := if payErr = some 3 then s1.poisonSeen else s1
  let s3 := if s.granted f b 0xFFFFF .write then s2 else s2.deny f b .write
  let c : HostCmd := ⟨r, slot, f, leAt d 2 2, b, leAt d 1 1, s.bytesAt (leAt d 8 8) 32, lowestCode codes⟩
  if payErr.isSome ∨ !knownCmd b (leAt d 1 1) then s3.complete c (lowestCode codes) 0
  else { s3.qPut 143 with hif := { s3.hif with cmdQ := s3.hif.cmdQ ++ [c] } }

/-- R353: the next descriptor of a ring is fetched, and what it is follows from the ring's kind. -/
def State.fetchDesc (s : State) (r : Nat) (descErr payErr : Option Nat) : State :=
  let x := s.ringOf r
  let kind := s.ringKind r
  if x.st ≠ .enabled ∨ !s.ringBme r ∨ kind = 4 ∨ x.sqHead = x.sqTail ∨ s.mode = 8 ∨ (kind = 0 ∧ !s.qRoom 143 1)
      ∨ s.fab.isolated.contains (Tok.desc.key r) = true then s
  else
    let d := s.bytesAt (s.sqAddr r + 32 * x.sqHead) 32
    let y := { x with sqHead := if x.sqHead + 1 = s.ringSize r then 0 else x.sqHead + 1 }
    let s1 := (((s.setRing r y).issue .desc r 1).bump48 HIF.DESC_FETCHED_LO).count 2 7 0
    match descErr with
    | some c => (((s1.dmaAbort r 0 c).setRing r { y with st := .error }).markErr r true).sticky HIF.STICKY_RING_ERROR
    | none =>
      match kind with
      | 0 => s1.dispatch r x.sqHead d payErr
      | 1 => s1.setRing r { y with txd := y.txd ++ [(x.sqHead, d)] }
      | _ => s1.setRing r { y with posted := y.posted ++ [(x.sqHead, leAt d 0 8)] }

def execDescFetch (ring : Nat) (descErr payErr : Option Nat) (t : Nat) (s : State) : Host.Outcome State Fault Refusal :=
  .next ((s.advance t).fetchDesc ring descErr payErr)

/-- R360: NOP. -/
def execNop (c : HostCmd) (t : Nat) (s : State) : Host.Outcome State Fault Refusal :=
  .next ((s.advance t).complete c (c.code []) 0)

/-! ### Receive (R364, R365) -/

/-- Buffers a frame needs. -/
def State.rxNeed (s : State) (j : Job) : Nat :=
  ceilDiv (j.frame.length + 16 * s.rd (ringFld j.ring 0 26 1)) (s.bufSize j.ring)

/-- The claim of R364 can be met. -/
def State.rxClaimable (s : State) (j : Job) : Bool :=
  let x := s.ringOf j.ring
  x.st == .enabled && s.ringBme j.ring && decide (s.rxNeed j ≤ x.posted.length) && decide (0 < s.cqFree j.ring)

/-- The first staged frame of a ring. -/
def State.rxFirst (s : State) (j : Job) : Bool :=
  match (s.rsp.jobs.filter (fun k => k.st == .staged && k.ring == j.ring)).head? with | some k => k.id == j.id | none => false

/-- The stamp record of R5 that precedes a frame. -/
def State.rxHeader (s : State) (j : Job) : List Byte :=
  let ts := s.rd (ringFld j.ring 0 20 6)
  stampBytes (s.rxStamp j ts) ts (s.stampFlags j.poisoned false) 0

/-- The frame is written; its request counts as sent-to-host when the completion is written. -/
def State.rxWrite (s : State) (j : Job) : State :=
  let r := j.ring
  let x := s.ringOf r
  let n := s.rxNeed j
  let bufs := x.posted.take n
  let hdr := s.on (ringFld r 0 26 1)
  let data := (if hdr then s.rxHeader j else []) ++ j.frame
  let slot := match bufs with | b :: _ => b.1 | [] => 0
  let s1 := (s.setRing r { x with posted := x.posted.drop n }).putGroup (bufs.map (·.2)) (s.bufSize r) 0 data
  (s1.freeJob j).postCpl r ⟨slot, stOK, n, j.frame.length, j.port + 2 ^ 8 * (j.profile.getD 0) + 2 ^ 16 * j.cause, 0,
    b2n j.trunc + 2 * b2n hdr, n, some j.quad⟩

/-- R364: the hold-off passed without a claim. -/
def State.rxStarve (s : State) (j : Job) : State :=
  let x := s.ringOf j.ring
  (((s.setRing j.ring { x with drops := (x.drops + 1) % 2 ^ 32 }).sumpJob j 0x11).bump HIF.RX_STARVED).sticky HIF.STICKY_RX_STARVED

/-- A slow-path ring that is absent or not in service (R259, R352). -/
def State.ringGone (s : State) (r : Nat) : Bool :=
  (s.ringOf r).st == .disabled || (s.ringOf r).st == .draining || s.ringKind r != 2

def execReceiveFrameWrite (id t : Nat) (s0 : State) : Host.Outcome State Fault Refusal :=
  let s := s0.advance t
  .next (match s.findJob id with
    | none => s
    | some j =>
      if j.st ≠ .staged ∨ !s.rxFirst j then s
      else if s.ringGone j.ring then s.sumpJob j 0x12
      else if s.rxClaimable j then s.rxWrite j
      else if s.rd (ringFld j.ring 7 0 16) = 0 then s.rxStarve j
      else s)

def execRxStarved (id t : Nat) (s0 : State) : Host.Outcome State Fault Refusal :=
  let s := s0.advance t
  .next (match s.findJob id with
    | none => s
    | some j =>
      if j.st = .staged ∧ !s.rxClaimable j ∧ j.since + s.rd (ringFld j.ring 7 0 16) * 1000 * qNs ≤ s.raw then s.rxStarve j else s)

/-! ### Stamp rings (R353, R363) -/

/-- A stamp record to a STAMP ring: written with its writeback word, or the answer is false where the ring is full. -/
def State.writeStamp (s : State) (r : Nat) (rcd : List Byte) : State × Bool :=
  let x := s.ringOf r
  let size := s.ringSize r
  if x.st = .enabled ∧ s.ringKind r = 4 ∧ s.ringBme r = true ∧ (x.cqTail + 1) % size ≠ x.cqHead then
    let tail := (x.cqTail + 1) % size
    ((((s.setBytes (s.sqAddr r + 16 * x.cqTail) rcd).setRing r { x with cqTail := tail }).setBytes (s.cqAddr r) (leBytes 4 tail)).entryWritten r,
      true)
  else (s, false)

/-- A transmit stamp that finds its ring full (R363). -/
def State.stampLost (s : State) (p r : Nat) : State :=
  let x := s.ringOf r
  (((((s.setRing r { x with drops := (x.drops + 1) % 2 ^ 32 }).sump 0x16 .stamp 12 p).stat p 55).sticky (PRT.STICKY_STAMP_OVF p)).bump
    HIF.STAMP_LOST).sticky HIF.STICKY_STAMP_OVF

/-! ### Functions and the link (R346, R348) -/

def execBusMasterClear (f t : Nat) (s : State) : Host.Outcome State Fault Refusal :=
  .next (if f < 64 then (s.advance t).setFn f { s.fnOf f with bme := false } else s.advance t)
def execBusMasterSet (f t : Nat) (s : State) : Host.Outcome State Fault Refusal :=
  .next (if f < 64 then (s.advance t).setFn f { s.fnOf f with bme := true } else s.advance t)

/-- R346: the link trains within the limits LINK_CTRL set. -/
def execPcieLinkUp (gen width numVfs t : Nat) (s0 : State) : Host.Outcome State Fault Refusal :=
  let s := s0.advance t
  let g := min gen (s.rd HIF.LINK_CTRL_MAX_GEN)
  let w := min width (s.rd HIF.LINK_CTRL_MAX_WIDTH)
  let s1 := (((s.wr HIF.LINK_STAT_UP 1).wr HIF.LINK_STAT_GEN g).wr HIF.LINK_STAT_WIDTH w).wr HIF.LINK_STAT_NUM_VFS numVfs
  .next (if g < 3 ∨ w < 4 then s1.sticky HIF.STICKY_LINK_DEGRADED else s1)

/-! ### Keep-alive (R370) -/

/-- HIF before the common domain consents to Keep-alive. -/
def State.hifEnterKa (s : State) : State :=
  let s1 := s.prt.tx.foldl (fun t f => t.dropTx f stABORTED 0x1E) s
  s1.hif.rings.foldl (fun t x =>
    let r := x.1
    let y := t.ringOf r
    let t1 := (t.setRing r { y with txd := [] }).abortTxd r y.txd.length y.txd
    (t1.closeBuf r).abortPosted r) s1

/-! ### Commit group HIF (R371) -/

def State.hifValid (s : State) : Bool :=
  let base := fun f => s.shd (fnCfgFld f 0 10)
  let cnt := fun f => s.shd (fnCfgFld f 10 10)
  let fs := List.range 64
  fs.all (fun f => decide (cnt f ≤ 512) && decide (base f + cnt f ≤ 1024) && decide (s.shd (fnCfgFld f 20 7) ≤ 64)
      && fs.all (fun g => f == g || cnt f == 0 || cnt g == 0 || decide (base f + cnt f ≤ base g) || decide (base g + cnt g ≤ base f)))
    && s.hif.rings.all (fun x => x.2.st == .disabled || (match s.ringOwner x.1 with
      | some f => decide (base f ≤ x.1) && decide (x.1 < base f + cnt f)
      | none => true))
    && (s.shd HIF.CTRL_ALARM_EN == 0 || s.ringIs 0 3 (s.shd HIF.CTRL_ALARM_RING))
    && (let g := s.shd HIF.LINK_CTRL_MAX_GEN; g == 3 || g == 4 || g == 5)
    && (let w := s.shd HIF.LINK_CTRL_MAX_WIDTH; w == 4 || w == 8 || w == 16)

def State.hifApply (s : State) : State := s.applyShadows .hif

end Sys2Proof.Machine
end

