-- ==== Sys2Proof/Machine/Gna.lean ====
section
/-! DEFINITION. GNA: sample ports (R167 to R172), searches (R174 to R183) and commit group GNA (R185). -/

namespace Sys2Proof.Machine

def State.setSearches (s : State) (l : List Search) : State := { s with gna := { s.gna with searches := l } }

/-! ### The cost of a search (R176) -/

/-- The indices a search selects, in ascending order. -/
def HostCmd.indices (c : HostCmd) : List Nat := (List.range 64).filter (fun i => bitAt (c.u 0 8) i) |>.map (· + 1)

def HostCmd.gnSignal (c : HostCmd) : Nat := bitsOf (c.u 9 1) 0 4
def HostCmd.gnPort (c : HostCmd) : Nat := bitsOf (c.u 8 1) 0 3
def HostCmd.gnBlocks (c : HostCmd) : Nat := c.u 10 1

/-- X of R176. -/
def HostCmd.transforms (c : HostCmd) : Nat :=
  let n := c.gnBlocks
  let sel := c.indices.length
  let b := 2 * c.u 11 1 + 1
  if c.gnSignal = 6 then 2 * n * sel + 1 + sel * b * n else 2 * n + sel + sel * b * n

/-- The capture of a search in q. -/
def HostCmd.captureQ (c : HostCmd) : Nat :=
  c.gnBlocks * (match sigOf c.gnSignal with | some g => g.tc | none => 0) * 1000000 * qNs

/-- X transforms of 3.2768 µs and the fixed overhead, in fifths of a q. -/
def HostCmd.workQ5 (c : HostCmd) : Nat := c.transforms * 1073741824 + 5 * 10000 * qNs

/-- The searches of an engine, the running one first. -/
def State.engSearches (s : State) (e : Nat) : List Search := s.gna.searches.filter (fun x => x.eng == e)

/-- How long, in fifths of a q, until the queue of engine `e` is free. -/
def State.engFree (s : State) (e : Nat) : Nat :=
  ((s.engSearches e).map (fun x =>
    if x.running then 5 * (x.capEnd - s.raw) + x.cmd.workQ5 else 5 * x.cmd.captureQ + x.cmd.workQ5)).sum

/-- The searches that wait in the queue of an engine, which holds 16 (R175). -/
def State.engQueued (s : State) (e : Nat) : Nat := ((s.engSearches e).filter (fun x => !x.running)).length

/-- An engine that ENGINE 7 may be sent to (R183). -/
def State.engOpen (s : State) (e : Nat) : Bool :=
  bitAt (s.rd GNA.STAT_USABLE) e && bitAt (s.rd GNA.CTRL_ENG_EN) e && decide (s.engQueued e < 16)

/-- The engine whose queue will free first; the lowest-numbered of equals. -/
def State.engFirst (s : State) : Option Nat :=
  ((List.range 4).filter s.engOpen).foldl (fun b e =>
    match b with
    | none => some e
    | some x => if s.engFree e < s.engFree x then some e else some x) none

/-- GNA.STAT's BUSY and QUEUED brought up to date. -/
def State.showSearches (s : State) : State :=
  (List.range 4).foldl (fun t e => t.wrB ⟨GNA.STAT, e, 1⟩ (s.gna.searches.any (fun x => x.eng == e && x.running)))
    (s.wr GNA.STAT_QUEUED (s.gna.searches.filter (fun x => !x.running)).length)

/-! ### SEARCH and its codes (R178, R179) -/

def State.searchRefused (s : State) (c : HostCmd) : Bool :=
  let p := c.gnPort
  let sig := c.gnSignal
  let eng := bitsOf (c.u 8 1) 4 3
  let base := bitsOf (c.u 18 2) 0 9
  let cnt := bitsOf (c.u 20 2) 0 10
  !s.on (GNA.PORT_CFG_EN p)
    || (match sigOf sig with
      | none => true
      | some g => !s.portSuits p sig || c.indices.any (fun i => decide (g.maxIdx < i) || !s.carrierFits p sig i g.rate))
    || c.gnBlocks == 0 || decide (8 < c.gnBlocks) || decide (200 < c.u 11 1) || decide (384 < base + cnt)
    || !s.ringIs c.fn 3 (bitsOf (c.u 22 2) 0 10)
    || !(eng == 7 || (decide (eng < 4) && bitAt (s.rd GNA.STAT_USABLE) eng && bitAt (s.rd GNA.CTRL_ENG_EN) eng))
    || bitAt (c.u 8 1) 3 || decide (16 ≤ c.u 9 1) || decide (512 ≤ c.u 18 2) || decide (1024 ≤ c.u 20 2)
    || decide (1024 ≤ c.u 22 2) || !c.zero 24 32

/-- The engine a search goes to, where one has room. -/
def State.searchEngine (s : State) (c : HostCmd) : Option Nat :=
  let eng := bitsOf (c.u 8 1) 4 3
  if eng = 7 then s.engFirst else if s.engQueued eng < 16 then some eng else none

def State.searchCode (s : State) (c : HostCmd) : Nat :=
  c.code [codeIf (c.u 0 8 == 0) stZERO_LEN, codeIf (s.searchRefused c) stREFUSED,
    codeIf (s.searchEngine c).isNone stBUSY, codeIf (s.mode == 8 || s.mode == 1) stMODE_FORBIDS]

/-- R179: SEARCH. -/
def execSearch (c : HostCmd) (t : Nat) (s0 : State) : Host.Outcome State Fault Refusal :=
  let s := s0.advance t
  let code := s.searchCode c
  .next (
    if code ≠ 0 then
      let s1 := if code = stREFUSED then s.refuseCfg .gna else s
      s1.complete c code 0
    else
      match s.searchEngine c with
      | some e => ((s.takeCmd c).setSearches (s.gna.searches ++ [⟨c, e, false, 0, 0, 0, false⟩])).showSearches
      | none => s.complete c stBUSY 0)

/-- R175: a free engine starts its queue's head at the first port sample of a whole millisecond; an absent port gives
none. -/
def execSearchCaptureStart (e t : Nat) (s0 : State) : Host.Outcome State Fault Refusal :=
  let s := s0.advance t
  .next (match s.engSearches e with
    | [] => s
    | x :: _ =>
      if x.running || !s.on (GNA.PORT_STAT_PRESENT x.cmd.gnPort) then s
      else
        let y : Search := { x with running := true, time := s.tsNow 0, capEnd := s.raw + x.cmd.captureQ,
                                   steps := s.tsc.steps0, clipped := false }
        (s.setSearches (y :: s.gna.searches.erase x)).showSearches)

/-! ### Handoff (R181) -/

/-- The first whole millisecond of timescale 0 at least 20 µs from now. -/
def State.handoffMs (s : State) : Nat := (s.tsNow 0 + 20000 * qNs + (qNs * 1000000 - 1)) / (qNs * 1000000)

/-- The code phase at the start instant, in units of 2^-48 chip, from R180's CODE_PHASE at TIME. -/
def phaseAt (sig idx time start codePhase : Nat) (doppler : Int) : Nat :=
  match sigOf sig with
  | none => 0
  | some g =>
    let fc := carrierHz sig idx
    let moved : Int := ((start - time : Nat) : Int) * g.chipRate * (256 * fc + doppler) * 2 ^ 48 / (256 * fc * qSec)
    ((codePhase * 2 ^ 32 : Nat) + moved).toNat % (g.chips * 2 ^ 48)

/-- The HANDOFF code and the channel for a detected index. -/
def State.handoffCode (s : State) (x : Search) : Nat × Nat :=
  let base := bitsOf (x.cmd.u 18 2) 0 9
  let cnt := bitsOf (x.cmd.u 20 2) 0 10
  let start := s.handoffMs * (qNs * 1000000)
  if cnt = 0 then (0, 0)
  else if s.tsc.steps0 ≠ x.steps then (3, 0)
  else if x.time + qSec < start then (4, 0)
  else
    match ((List.range cnt).map (· + base)).find? (fun c => (s.chan c).st == .idle && !(s.chan c).rsv) with
    | some c => (1, c)
    | none => (2, 0)

/-- Channel `ch` bound and loaded for the start instant. The spacings and the carrier phase it starts with, which the
manual does not give, are free values. -/
def State.handOff (s : State) (x : Search) (r : AcqRes) (ch : Nat) : State :=
  let p := x.cmd.gnPort
  let sig := x.cmd.gnSignal
  let ms := s.handoffMs
  let ph := phaseAt sig r.index x.time (ms * (qNs * 1000000)) r.codePhase r.doppler
  let f1 := s.free
  let f2 := f1.2.free
  let f3 := f2.2.free
  f3.2.setChan ch { dChan ch with
    st := .loaded, sig := sig, idx := r.index, port := p, space := 1 + f1.1 % 15, vspace := 2 + f2.1 % 6,
    code := ph % 2 ^ 48, chips := ph / 2 ^ 48, codeRate := s.codeRateFor p sig r.index r.doppler,
    carr := f3.1 % 2 ^ 48, carrRate := s.carrRateFor p sig r.index r.doppler, startMs := ms, first := true,
    ant := s.rd (GNA.PORT_CFG_ANTENNA p), rsv := (s.chan ch).rsv }

/-! ### Result records (R180) -/

/-- The threshold in force for a search. -/
def State.searchThresh (s : State) (c : HostCmd) : Nat := if bitAt (c.u 8 1) 7 then s.rd GNA.THRESH_M else c.u 16 2

/-- One result record, with the handoff. The answer says whether the record found room. -/
def State.acqRecord (s : State) (x : Search) (r : AcqRes) (last : Bool) : State × Bool :=
  let det := decide (s.searchThresh x.cmd ≤ r.metric) && !r.poisoned
  let h := if det then s.handoffCode x else (0, 0)
  let s1 := if h.1 = 1 then s.handOff x r h.2 else s
  let s2 := if det then s1.bumpF (GNA.ENG_STAT_DETECTS x.eng) else s1
  let flags := b2n det + 2 * b2n x.clipped + 4 * b2n r.poisoned + 8 * b2n r.edge + 16 * b2n last
    + 32 * b2n (s.tsc.steps0 != x.steps)
  s2.sendEvent (bitsOf (x.cmd.u 22 2) 0 10) 3
    (leBytes 12 x.time ++ leBytes 1 (x.cmd.gnSignal + 16 * x.eng) ++ leBytes 1 flags ++ leBytes 1 r.index ++ leBytes 1 h.1
      ++ leBytes 4 r.codePhase ++ leBytes 4 (ofSigned 32 r.doppler) ++ leBytes 2 (min 65535 r.metric)
      ++ leBytes 2 (min 65535 r.second) ++ leBytes 2 (if r.metric ≤ 16 then 0 else r.cn0) ++ leBytes 2 h.2)

/-- The records of a search in order, stopping after a poisoned one: the state, how many were written, and whether one
was lost or poisoned. -/
def State.acqRecords (s : State) (x : Search) : List AcqRes → Nat → Bool → State × Nat × Bool × Bool
  | [], n, lost => (s, n, lost, false)
  | r :: rest, n, lost =>
    let a := s.acqRecord x r (rest.isEmpty || r.poisoned)
    let n1 := if a.2 then n + 1 else n
    if r.poisoned then (a.1.poisonSeen, n1, lost || !a.2, true)
    else State.acqRecords a.1 x rest n1 (lost || !a.2)

/-- A search leaves its engine and completes. -/
def State.endSearch (s : State) (x : Search) (code n : Nat) : State :=
  ((((s.setSearches (s.gna.searches.erase x)).showSearches).bumpF (GNA.ENG_STAT_SEARCHES x.eng)).sticky
    GNA.STICKY_SEARCH_DONE).complete x.cmd code n

/-- What the transforms find for the selected indices, in ascending order; an index of which nothing is said has no
peak. -/
def orderedResults (c : HostCmd) (rs : List AcqRes) : List AcqRes :=
  c.indices.map (fun i => (rs.find? (fun r => r.index == i)).getD ⟨i, 0, 0, 0, 0, 0, false, false⟩)

/-- R180: the running search of engine `e` reports and completes. -/
def execSearchReport (e : Nat) (results : List AcqRes) (t : Nat) (s0 : State) : Host.Outcome State Fault Refusal :=
  let s := s0.advance t
  .next (match s.engSearches e with
    | [] => s
    | x :: _ =>
      if !x.running || decide (s.raw < x.capEnd) then s
      else
        let a := (s.count 5 3 0 x.cmd.transforms).acqRecords x (orderedResults x.cmd results) 0 false
        let code := lowestCode [codeIf a.2.2.2 stPOISONED, codeIf a.2.2.1 stINCOMPLETE]
        let s1 := if a.2.2.2 then a.1.sticky GNA.STICKY_POISON else a.1
        let s2 := if a.2.2.1 then s1.sticky GNA.STICKY_REC_LOST else s1
        s2.endSearch x code a.2.1)

/-! ### Aborts (R182) -/

/-- The searches that satisfy `p` complete ABORTED; none has written a record yet. -/
def State.abortSearches (s : State) (p : Search → Bool) : State :=
  (s.gna.searches.filter p).foldl (fun t x => t.endSearch x stABORTED 0) s

/-- R182: ABORT. -/
def execSearchAbort (c : HostCmd) (t : Nat) (s0 : State) : Host.Outcome State Fault Refusal :=
  let s := s0.advance t
  let e := c.u 0 1
  let hit : Search → Bool := fun x => x.cmd.fn == c.fn && (e == 7 || x.eng == e)
  let n := (s.gna.searches.filter hit).length
  let code := c.code [codeIf (!c.zero 1 32 || decide (8 ≤ e) || (decide (4 ≤ e) && e != 7)) stREFUSED, codeIf (n == 0) stZERO_LEN]
  .next (
    if code = 0 then (s.abortSearches hit).complete c stOK n
    else
      let s1 := if code = stREFUSED then s.refuseCfg .gna else s
      s1.complete c code 0)

/-- Keep-alive entry: every search completes ABORTED before the GNSS domain consents (R182). -/
def State.gnaEnterKa (s : State) : State := s.abortSearches (fun _ => true)

/-- An FFT engine found faulty (R183): it is unusable, and the search it runs completes ABORTED. Searches that wait in
its queue can no longer run and are stopped with it. -/
def State.engFail (s : State) (e : Nat) : State :=
  (s.sticky GNA.STICKY_ENG_UNUSABLE).abortSearches (fun x => x.eng == e)

/-! ### Sample ports (R170, R171) -/

/-- R170: a port becomes present; its samples count from 0 and channels in HOLD resume. -/
def State.portUp (s : State) (p : Nat) (freq : Int) : State :=
  let s1 := (((s.wr (GNA.PORT_STAT_PRESENT p) 1).wr (GNA.PORT_STAT_RATE_OOR p) 0).wrI (GNA.PORT_STAT_FREQ p) freq)
  (s1.setGport p ⟨[(0, s1.tsNow 0)]⟩).resumePort p

/-- A port that leaves presence: PORT_LOST; searches capturing from it complete ABORTED; its channels hold. -/
def State.portDown (s : State) (p : Nat) : State :=
  let s1 := ((s.wr (GNA.PORT_STAT_PRESENT p) 0).wr (GNA.PORT_STAT_FREQ p) 0x8000).sticky GNA.STICKY_PORT_LOST
  ((s1.setGport p ⟨[]⟩).abortSearches (fun x => x.running && decide (s.raw < x.capEnd) && x.cmd.gnPort == p)).holdPort p

/-- The window of R170: ±200 ppm, in units of 0.01 ppm. -/
def inWindow (freq : Int) : Bool := decide (freq.natAbs ≤ 20000)

def execSamplePortPresent (p : Nat) (freq : Int) (t : Nat) (s0 : State) : Host.Outcome State Fault Refusal :=
  let s := s0.advance t
  .next (if p < 8 ∧ s.on (GNA.PORT_CFG_EN p) = true ∧ s.on (GNA.PORT_STAT_PRESENT p) = false ∧ inWindow freq = true then
      s.portUp p freq
    else s)

/-- R170: the clock stops (no `freq`), or a measurement falls outside the window. -/
def execSamplePortLost (p : Nat) (freq : Option Int) (t : Nat) (s0 : State) : Host.Outcome State Fault Refusal :=
  let s := s0.advance t
  .next (
    if 8 ≤ p ∨ s.on (GNA.PORT_CFG_EN p) = false then s
    else
      match freq with
      | some f =>
        if inWindow f then s
        else
          let s1 := (s.wr (GNA.PORT_STAT_RATE_OOR p) 1).sticky GNA.STICKY_PORT_OOR
          if s1.on (GNA.PORT_STAT_PRESENT p) then s1.portDown p else s1
      | none => if s.on (GNA.PORT_STAT_PRESENT p) then s.portDown p else s)

/-- R171: the millisecond's tick record, level and rate of a present port. -/
def State.sampleTick (s : State) (p n clip meanI meanQ : Nat) (freq : Int) : State :=
  let s1 := s.setGport p ⟨((n % 2 ^ 48, s.tsNow 0) :: (s.gport p).ticks).take 2⟩
  let s2 := ((s1.wr (GNA.PORT_LEVEL_CLIP p) (min 255 clip)).wr (GNA.PORT_LEVEL_MEAN_I p) (min 255 meanI)).wr
    (GNA.PORT_LEVEL_MEAN_Q p) (min 255 meanQ)
  let s3 := (s2.wrI (GNA.PORT_STAT_FREQ p) freq).wr (GNA.PORT_STAT_RATE_OOR p) 0
  if s3.rd GNA.CTRL_CLIP_FLAG < min 255 clip then
    (s3.setSearches (s3.gna.searches.map (fun x =>
      if x.running && decide (s.raw ≤ x.capEnd) && x.cmd.gnPort == p then { x with clipped := true } else x))).sticky
      GNA.STICKY_CLIP
  else s3

def execSampleTick (p n clip meanI meanQ : Nat) (freq : Int) (t : Nat) (s0 : State) : Host.Outcome State Fault Refusal :=
  let s := s0.advance t
  .next (if p < 8 ∧ s.on (GNA.PORT_STAT_PRESENT p) = true ∧ inWindow freq = true then
      s.sampleTick p n clip meanI meanQ freq
    else s)

/-- The five tick registers for the port TICK_SEL names (R171), an absent port reading 0. -/
def State.tickWord (s : State) (k : Nat) : Nat :=
  match (s.gport (s.rd GNA.TICK_SEL_PORT)).ticks with
  | [] => 0
  | x :: _ =>
    if k < 2 then bitsOf x.1 (32 * k) 32 else bitsOf x.2 (32 * (k - 2)) 32

/-! ### Commit group GNA (R185) -/

def State.gnaValid (s : State) : Bool :=
  let en := (List.range 8).filter (fun p => s.shd (GNA.PORT_CFG_EN p) == 1)
  en.all (fun p =>
      let r := s.shd (GNA.PORT_CFG_RATE_KHZ p)
      s.shd (GNA.PORT_CFG_FORMAT p) != 3 && decide (2000 ≤ r) && decide (r ≤ 125000)
        && decide ((toSigned 32 (s.shadowWord (GNA.PORT_IF p))).natAbs ≤ r * 500))
    && en.all (fun p => en.all (fun q => p == q
      || !(s.shd (GNA.PORT_CFG_ANTENNA p) == s.shd (GNA.PORT_CFG_ANTENNA q)
        && s.shd (GNA.PORT_CFG_BAND p) == s.shd (GNA.PORT_CFG_BAND q))))
    && decide (16 ≤ s.shd GNA.THRESH_M)

/-- The commit takes effect: searches and channels of a changed port end (R182, R191); a port no longer enabled is
absent. -/
def State.gnaApply (old : State) : State :=
  let changed := fun p => old.nreg (GNA.PORT_CFG p) != old.shadowWord (GNA.PORT_CFG p)
    || old.nreg (GNA.PORT_IF p) != old.shadowWord (GNA.PORT_IF p)
  let s1 := (old.abortSearches (fun x => changed x.cmd.gnPort)).dropChans (fun _ x => changed x.port)
  let s2 := s1.applyShadows .gna
  (List.range 8).foldl (fun t p =>
    if changed p && t.on (GNA.PORT_STAT_PRESENT p) && !t.on (GNA.PORT_CFG_EN p) then t.portDown p else t) s2

end Sys2Proof.Machine
end

