-- ==== Sys2Proof/Machine/Prt.lean ====
section
/-! DEFINITION. PRT: links and calibration (R207 to R210), receiving (R215 to R217), preemption verify (R218), statistics
(R221 to R225), wake (R226 to R229), SyncE and ESMC (R230 to R232) and the rules of commit group PRTn (R233). What a
cancelled reservation does stands in Machine/Calendar.lean. -/

namespace Sys2Proof.Machine

/-! ### Layouts and speeds (R207, R208) -/

/-- Lanes of each port under a layout. -/
def lanesOf (layout : Nat) : Nat := match layout with | 0 => 1 | 1 => 2 | 2 => 4 | _ => 8
def firstLane (layout p : Nat) : Bool := p % 8 % lanesOf layout == 0

/-- The speeds R207 allows under a layout. -/
def speedFits (layout speed : Nat) : Bool :=
  match layout with
  | 0 => decide (speed ≤ 2)
  | 1 => speed == 3
  | 2 => speed == 4 || speed == 5
  | 3 => speed == 6
  | _ => false

/-- R208's combinations of speed and FEC. -/
def fecFits (speed fec : Nat) : Bool :=
  match speed with
  | 0 => fec == 0
  | 1 | 4 => decide (fec ≤ 1)
  | 2 | 3 | 5 | 6 => fec == 2
  | _ => false

/-- Lane rate of a speed in bits per second times the lanes it uses: the data rate of the PCS in units of 10^9 bit/s. -/
def gbps (speed : Nat) : Nat := match speed with | 0 => 10 | 1 => 25 | 2 => 50 | 3 => 100 | 4 => 100 | 5 => 200 | _ => 400

/-- One byte time of a port in q, as a numerator over 1000: 8 × 65 536 × 1000 / Gb/s. -/
def State.byteTime (s : State) (p n : Nat) : Nat := n * 8 * 65536 / gbps (s.rd (PRT.CTRL_SPEED p))

/-! ### Statistics (R221 to R225) -/

/-- Whole milliseconds of raw time since `r`. -/
def State.msSince (s : State) (r : Nat) : Nat := (s.raw - r) / (1000000 * qNs)

/-- A counter as it reads now: LINK_UP_SECONDS and DOWNSHIFT_MS run on while their condition holds. -/
def State.statNow (s : State) (p i : Nat) : Nat :=
  let base := Store.get zNat s.prt.stats (64 * p + i)
  let run := if i = 59 ∧ s.linkUp p = true then s.msSince (Store.get zNat s.prt.linkRaw p) / 1000
    else if i = 62 ∧ s.on (PRT.STAT_DOWNSHIFTED p) = true then s.msSince (Store.get zNat s.prt.downRaw p) else 0
  (base + run) % 2 ^ 48

/-- The payload of a PORT_STATS event (R223). -/
def State.statsPayload (s : State) (p first count flags : Nat) : List Byte :=
  leBytes 12 (s.tsNow 0) ++ leBytes 1 p ++ leBytes 1 first ++ leBytes 1 count ++ leBytes 1 flags
    ++ (List.range count).flatMap (fun i => leBytes 8 (s.statNow p (first + i)))

/-- A snapshot of all counters of a port to its own ring (R224). -/
def State.portSnap (s : State) (p flags : Nat) : State :=
  s.postNoted (s.rd (PRT.STATS_CTRL_RING p)) 6 (s.statsPayload p 0 64 flags)

/-- The snapshots a global freeze brings (R224). -/
def State.freezeSnaps (s : State) : State :=
  (List.range 32).foldl (fun t p => if t.portPresent p && t.on (PRT.STATS_CTRL_FREEZE_SNAP p) then t.portSnap p 2 else t) s

/-- R223: STATS_SNAP. -/
def execStatsSnap (c : HostCmd) (t : Nat) (s0 : State) : Host.Outcome State Fault Refusal :=
  let s := s0.advance t
  let mask := c.u 0 4
  let first := c.u 4 1
  let count := c.u 5 1
  let ring := c.u 6 2
  let ports := (List.range 32).filter (fun p => bitAt mask p)
  let code := c.code [codeIf (count == 0 || mask == 0) stZERO_LEN,
    codeIf (decide (1024 ≤ ring) || !c.zero 8 32 || decide (64 < first + count) || ports.any (fun p => !s.portPresent p)
      || !s.ringIs c.fn 3 (ring % 1024)) stREFUSED]
  .next (
    if code ≠ 0 then
      let s1 := if code = stREFUSED then
          (ports.filter s.portPresent).foldl (fun t p => t.sticky (PRT.STICKY_CFG_REFUSED p)) s else s
      s1.complete c code 0
    else
      let r := ports.foldl (fun (acc : State × Nat) p =>
        let d := acc.1.sendEvent ring 6 (s.statsPayload p first count 0)
        if d.2 then (d.1, acc.2 + 1) else (d.1.sticky (PRT.STICKY_STATS_LOST p), acc.2)) (s, 0)
      r.1.complete c (if r.2 = ports.length then stOK else stINCOMPLETE) r.2)

def execStatsPeriodicSnap (p t : Nat) (s0 : State) : Host.Outcome State Fault Refusal :=
  let s := s0.advance t
  let k := s.rd (PRT.STATS_CTRL_PERIOD p)
  .next (if s.portPresent p ∧ 1 ≤ k ∧ k ≤ 10 ∧ s.sec0 % 2 ^ (k - 1) = 0 then s.portSnap p 1 else s)

/-! ### Links (R210) -/

/-- LINK sets or clears: changes are counted, and LINK_UP_SECONDS runs from it. -/
def State.setLink (s : State) (p : Nat) (up : Bool) : State :=
  if s.linkUp p = up then s
  else
    let s1 := if up then s else s.stat p 59 (s.msSince (Store.get zNat s.prt.linkRaw p) / 1000)
    let s2 := { s1 with prt := { s1.prt with linkRaw := Store.put zNat s1.prt.linkRaw p s1.raw } }
    let s3 := (s2.wrB (PRT.STAT_LINK p) up).bumpF (PRT.STAT_LINK_CHANGES p)
    if up then s3.sticky (PRT.STICKY_LINK_UP p) else (s3.stat p 56).sticky (PRT.STICKY_LINK_DOWN p)

def State.calFails (s : State) (p : Nat) : Nat := Store.get zNat s.prt.calFails p
def State.setCalFails (s : State) (p n : Nat) : State :=
  { s with prt := { s.prt with calFails := Store.put zNat s.prt.calFails p n } }
def State.setVerify (s : State) (p n : Nat) : State :=
  { s with prt := { s.prt with verify := Store.put zNat s.prt.verify p n } }

/-- PREEMPT_ACTIVE from link-up or a commit: it follows PREEMPT_EN where no verify is run (R218). -/
def State.startPreempt (s : State) (p : Nat) : State :=
  let s1 := s.setVerify p 0
  s1.wrB (PRT.STAT_PREEMPT_ACTIVE p) (s1.linkUp p && s1.on (PRT.CTRL_PREEMPT_EN p) && !s1.on (PRT.PREEMPT_CFG_VERIFY_EN p))

/-- A commit gives a port that runs without preemption three new attempts; one whose exchange succeeded keeps it, and
without VERIFY_EN it follows PREEMPT_EN (R218). -/
def State.commitPreempt (s : State) (p : Nat) : State :=
  let keep := s.on (PRT.STAT_PREEMPT_ACTIVE p) && s.linkUp p && s.on (PRT.CTRL_PREEMPT_EN p)
  if keep then s else s.startPreempt p

/-- Locks gained; the port that failed calibration twice stays down. -/
def State.linkLock (s : State) (p : Nat) : State :=
  if s.on (PRT.CTRL_EN p) && s.on (PRT.STAT_PRESENT p) && decide (s.calFails p < 2) then
    ((((s.wr (PRT.STAT_PCS_LOCK p) 1).wr (PRT.STAT_FEC_LOCK p) 1).wr (PRT.STAT_LOCAL_FAULT p) 0).wr (PRT.STAT_REMOTE_FAULT p) 0)
  else s

/-- R210: the lane latencies are measured; `ok` says whether they lie in the image's windows. -/
def State.calDone (s : State) (p : Nat) (lats : List (Nat × Int)) (ok : Bool) : State :=
  if !(s.on (PRT.STAT_PCS_LOCK p)) || s.on (PRT.STAT_LINK p) then s
  else if ok then
    let ls := (lats.filter (fun x => decide (x.1 < 16))).foldl (fun m x => Store.put (fun _ => 0) m (16 * p + x.1) x.2) s.prt.lat
    let s1 := { s with prt := { s.prt with lat := ls } }
    (((s1.wr (PRT.STAT_CAL_VALID p) 1).setLink p true).setCalFails p 0).startPreempt p
  else
    let s1 := (((s.wr (PRT.STAT_PCS_LOCK p) 0).wr (PRT.STAT_FEC_LOCK p) 0).wr (PRT.STAT_CAL_VALID p) 0).setCalFails p (s.calFails p + 1)
    if s.calFails p = 0 then s1 else s1.sticky (PRT.STICKY_CAL_FAIL p)

def execCalDone (p : Nat) (lats : List (Nat × Int)) (ok : Bool) (t : Nat) (s : State) : Host.Outcome State Fault Refusal :=
  .next (if p < 32 then (s.advance t).calDone p lats ok else s.advance t)

/-- R218: one attempt of the verify exchange. -/
def State.preemptVerify (s : State) (p : Nat) (ok : Bool) : State :=
  let n := Store.get zNat s.prt.verify p
  if !(s.linkUp p && s.on (PRT.CTRL_PREEMPT_EN p) && s.on (PRT.PREEMPT_CFG_VERIFY_EN p)) || s.on (PRT.STAT_PREEMPT_ACTIVE p)
      || decide (3 ≤ n) then s
  else if ok then s.wr (PRT.STAT_PREEMPT_ACTIVE p) 1
  else
    let s1 := (s.stat p 63).setVerify p (n + 1)
    if n + 1 = 3 then s1.sticky (PRT.STICKY_PREEMPT_FAIL p) else s1

def execPreemptVerify (p : Nat) (ok : Bool) (t : Nat) (s : State) : Host.Outcome State Fault Refusal :=
  .next (if p < 32 then (s.advance t).preemptVerify p ok else s.advance t)

/-! ### Datapath clock (R229) -/

/-- Both rates over the last 1 ms, in % of line rate, lie below DOWN_PCT. -/
def execDownshift (p rxPct txPct t : Nat) (s0 : State) : Host.Outcome State Fault Refusal :=
  let s := s0.advance t
  let pct := s.rd (PRT.IDLE_CFG_DOWN_PCT p)
  .next (if s.variant ≠ .pyv1616 ∧ s.portPresent p ∧ s.on (PRT.IDLE_CFG_DOWN_EN p) = true
      ∧ s.on (PRT.STAT_DOWNSHIFTED p) = false ∧ rxPct < pct ∧ txPct < pct then
      { s.wr (PRT.STAT_DOWNSHIFTED p) 1 with prt := { s.prt with downRaw := Store.put zNat s.prt.downRaw p s.raw } }
    else s)

def execUpshift (p rxPct txPct t : Nat) (s0 : State) : Host.Outcome State Fault Refusal :=
  let s := s0.advance t
  let pct := s.rd (PRT.IDLE_CFG_DOWN_PCT p)
  .next (if s.portPresent p ∧ s.on (PRT.STAT_DOWNSHIFTED p) = true ∧ (pct < rxPct ∨ pct < txPct ∨ 256 < s.qOcc p) then
      (s.stat p 62 (s.msSince (Store.get zNat s.prt.downRaw p))).wr (PRT.STAT_DOWNSHIFTED p) 0
    else s)

/-! ### Receiving (R215 to R217, R226, R227) -/

/-- The first enabled pattern a frame matches (R226). -/
def State.wakeMatch (s : State) (p : Nat) (frame : List Byte) : Option Nat :=
  firstIdx 16 (fun k =>
    let w := fun i => s.nreg (Tbl.wakeData.key (256 * p + 8 * k + i))
    bitAt (s.rd (PRT.WAKE_CTRL_PAT_EN p)) k
      && patternHits (w 0 + 2 ^ 32 * w 1 + 2 ^ 64 * w 2 + 2 ^ 96 * w 3) (w 4) frame)

/-- A frame on a sleeping or listening port (R227). The answer says whether it is a wake event. -/
def State.wakeFrame (s : State) (p : Nat) (frame : List Byte) (fcsOk : Bool) : State × Bool :=
  let s1 := s.stat p 12
  let s2 := if s.mode = 8 then s1
    else ((s1.issue .request (p / 8) 1).count 0 1 (p / 8)).sumpRequest 0x1D (p / 8) 12 p frame (frame.length + 4)
  if !fcsOk then (s2, false)
  else
    match s2.wakeMatch p frame with
    | some k =>
      let s3 := ((s2.wr (PRT.WAKE_STAT_LAST p) k).wr (PRT.WAKE_STAT_LAST_VALID p) 1).bumpF (PRT.WAKE_STAT_MATCHES p)
      ((s3.sticky (PRT.STICKY_WAKE_MATCH p)).wakePort p 0, true)
    | none => if s2.on (PRT.WAKE_CTRL_ANY_FRAME p) then (s2.wakePort p 2, true) else (s2, false)

/-- The Sump reason of a frame the port discards, with the counter that moves, in the order of R215. -/
def State.portDiscard (s : State) (p : Nat) (frame : List Byte) (fcsOk : Bool) : Option (Nat × Option Nat) :=
  let len := frame.length + 4
  let max := s.nreg (PRT.MAX_FRAME p) % 2 ^ 14
  let trunc := decide (max < len)
  let e := ethOf (s.rd (PRT.VLAN_CFG_OUTER_TPID p)) frame
  if !trunc && !fcsOk then some (0x00, some 6)
  else if !s.qRoom p (ceilDiv (min len max) 64) then some (0x15, some 11)
  else if len < 64 then some (0x01, some 7)
  else if trunc && s.on (PRT.CTRL_TRUNC_DISCARD p) then some (0x02, none)
  else
    match e with
    | none => some (0x03, none)
    | some h =>
      if h.etype = 0x8808 then some (0x03, some 9)
      else if !bitAt (s.rd (PRT.VLAN_CFG_ACCEPT p)) h.tags.length then some (0x05, some 10)
      else none

/-- The counters of a good received frame (R222). -/
def State.goodRx (s : State) (p : Nat) (frame : List Byte) (express : Bool) : State :=
  let len := frame.length + 4
  let s1 := ((s.stat p 0).stat p 1 len).stat p (2 + castOf (frame.take 6))
  let tagged := match ethOf (s.rd (PRT.VLAN_CFG_OUTER_TPID p)) frame with | some h => !h.tags.isEmpty | none => false
  let s2 := if tagged then s1.stat p 5 else s1
  let s3 := if express && s.on (PRT.STAT_PREEMPT_ACTIVE p) then s2.stat p 14 else s2
  s3.stat p (sizeBin 16 len)

/-- R215: a frame whose start the MAC receives on a port that is awake. -/
def State.takeFrame (s0 : State) (p : Nat) (frame : List Byte) (fcsOk express poisoned : Bool) (rawS : Nat) : State :=
  let q := p / 8
  let len := frame.length + 4
  let max := s0.nreg (PRT.MAX_FRAME p) % 2 ^ 14
  let trunc := decide (max < len)
  let s := ((((s0.issue .request q 1).count 0 1 q).count 1 1 p).stat p 31 len).idleNow p
  let s1 := if trunc then (s.stat p 8).sticky (PRT.STICKY_TRUNC p) else s
  if s1.fab.isolated.contains (Tok.request.key q) then s1.sumpRequest 0x19 q 12 p frame len
  else
    match s1.portDiscard p frame fcsOk with
    | some d =>
      let s2 := match d.2 with | some i => s1.stat p i | none => s1
      s2.sumpRequest d.1 q 12 p frame len
    | none =>
      let cells := ceilDiv (min len max) 64
      let s2 := if trunc then s1 else s1.goodRx p frame express
      ((s2.qPut p cells).issue .buffer q 1).addJob
        { blankJob p with isReq := true, frame := if trunc then frame.take max else frame, rawS := rawS, since := s2.raw,
                          trunc := trunc, cells := cells, poisoned := poisoned, gotRaw := s2.raw,
                          rxT := (List.range 64).map (fun n => s2.tsAt n rawS) }

/-! ### ESMC (R231, R232) -/

/-- What an ESMC PDU says: SSM code and the enhanced code of an extended QL TLV; none for any other frame. The places of
the TLVs are those of ITU-T G.8264 (PRESUMED, log entry 21). -/
def esmcOf (outer : Nat) (f : List Byte) : Option (Nat × Option Nat) :=
  match ethOf outer f with
  | none => none
  | some e =>
    if e.etype ≠ 0x8809 ∨ beAt f e.off 1 ≠ 0x0A then none
    else
      let q := e.off + 10
      let x := q + 4
      some (beAt f (q + 3) 1 % 16, if beAt f x 1 = 2 ∧ 4 ≤ beAt f (x + 1) 2 then some (beAt f (x + 3) 1) else none)

def State.jobEsmc (s : State) (j : Job) : Option (Nat × Option Nat) :=
  if s.on (PRT.SYNCE_CFG_ESMC_RX_EN j.port) ∧ !j.trunc then esmcOf (s.rd (PRT.VLAN_CFG_OUTER_TPID j.port)) j.frame else none

/-- The codes of a received PDU recorded for REF. -/
def State.esmcRecord (s : State) (p ssm : Nat) (ext : Option Nat) : State :=
  let old := (s.rd (PRT.ESMC_STAT_SSM p), s.rd (PRT.ESMC_STAT_ESSM p), s.rd (PRT.ESMC_STAT_EXT p))
  let new := (ssm, ext.getD (s.rd (PRT.ESMC_STAT_ESSM p)), b2n ext.isSome)
  let seen := Store.get zNat s.ref.esmcAt p != 0
  let s1 := ((s.wr (PRT.ESMC_STAT_SSM p) new.1).wr (PRT.ESMC_STAT_ESSM p) new.2.1).wr (PRT.ESMC_STAT_EXT p) new.2.2
  let s2 := { s1 with ref := { s1.ref with esmcAt := Store.put zNat s1.ref.esmcAt p (s1.raw + 1) } }
  let s3 := s2.stat p 13
  if seen && old != new then s3.sticky (PRT.STICKY_ESMC_CHANGE p) else s3

/-- An ESMC PDU consumed as answered, or passed to the slow path of the default ring (R231). -/
def State.esmcTake (s : State) (j : Job) (ssm : Nat) (ext : Option Nat) : State :=
  let s1 := s.esmcRecord j.port ssm ext
  if s1.on (PRT.SYNCE_CFG_ESMC_TO_HOST j.port) then
    let s2 := (s1.qTake j.port j.cells).putJob { j with
      st := .slow, cells := 0, ring := s1.rd RSP.DEFAULT_RING_RING, cause := 5, since := s1.raw,
      maxRes := s1.rd RSP.DEFAULT_RING_MAX_RES }
    s2.pump j.quad
  else s1.answerJob j

def execEsmcPduReceive (id t : Nat) (s0 : State) : Host.Outcome State Fault Refusal :=
  let s := s0.advance t
  .next (match s.findJob id with
    | none => s
    | some j =>
      match (if j.st = .rx then s.jobEsmc j else none) with
      | some c => s.esmcTake j c.1 c.2
      | none => s)

def execEsmcTimeout (p t : Nat) (s0 : State) : Host.Outcome State Fault Refusal :=
  let s := s0.advance t
  let last := Store.get zNat s.ref.esmcAt p
  .next (if s.on (PRT.SYNCE_CFG_ESMC_RX_EN p) ∧ 0 < last ∧ last - 1 + 5 * qSec ≤ s.raw then s.sticky (PRT.STICKY_ESMC_TIMEOUT p) else s)

/-- AGE of `PRT.ESMC_STAT`. -/
def State.esmcAge (s : State) (p : Nat) : Nat :=
  let last := Store.get zNat s.ref.esmcAt p
  if last = 0 then 255 else min 255 ((s.raw - (last - 1)) / qSec)

/-- The SSM code a port advertises (R232). -/
def State.esmcCode (s : State) (p : Nat) : Nat :=
  let loop := s.on (PRT.SYNCE_CFG_TX_DNU_LOOP p) && s.on (PRT.SYNCE_CFG_RCLK_EN p) && (match s.active with
    | some n => s.bindType n == 3 && s.bindIndex n == s.rd (PRT.SYNCE_CFG_RCLK_IDX p)
    | none => false)
  if loop then 0xF else if s.on REF.CTRL_SSM_OPT then s.rd DSC.QUAL_NOW_QL2 else s.rd DSC.QUAL_NOW_QL1

/-- The PDU: slow protocol 0x0A with the QL TLV and, with ESMC_EXT, the extended one. Its source address, which the manual
does not give, is a free value. -/
def esmcFrame (smac : List Byte) (event : Bool) (ssm : Nat) (ext : Option Nat) : List Byte :=
  beBytes 6 0x0180C2000002 ++ smac ++ beBytes 2 0x8809 ++ beBytes 1 0x0A ++ beBytes 3 0x0019A7 ++ beBytes 2 1
    ++ beBytes 1 (0x10 + 8 * b2n event) ++ zeros 3 ++ beBytes 1 1 ++ beBytes 2 4 ++ beBytes 1 ssm
    ++ (match ext with
      | some e => beBytes 1 2 ++ beBytes 2 0x14 ++ beBytes 1 e ++ zeros 16
      | none => [])

/-- An ESMC PDU asks the port's calendar for a departure. -/
def State.esmcSend (s : State) (p : Nat) (event : Bool) : State :=
  let f := s.free
  let s1 := f.2.wr (PRT.ESMC_STAT_TX_SSM p) (s.esmcCode p)
  let ext := if s.on (PRT.SYNCE_CFG_ESMC_EXT p) then some (s.rd (PRT.SYNCE_CFG_TX_ESSM p)) else none
  let body := esmcFrame (beBytes 6 (f.1 % 2 ^ 48)) event (s.esmcCode p) ext
  let o : Out := ⟨body.take 6, (body.drop 6).take 6, [], 0x8809, 0, [], [], 0, 0, 0, 0, false, 0, body.drop 14⟩
  ((s1.issue .buffer (p / 8) 1).addJob
      { blankJob p with st := .wantSlot, what := some (.esmc event), out := some o, te := s1.raw + 800 * qNs,
                        tl := s1.raw + 1000000 * qNs, lead := 800, reqRaw := s1.raw, since := s1.raw }).pump (p / 8)

def execEsmcInfoTx (p t : Nat) (s0 : State) : Host.Outcome State Fault Refusal :=
  let s := s0.advance t
  .next (if s.portPresent p ∧ s.on (PRT.SYNCE_CFG_ESMC_TX_EN p) = true ∧ s.linkUp p = true then s.esmcSend p false else s)

def execEsmcEventTx (p t : Nat) (s0 : State) : Host.Outcome State Fault Refusal :=
  let s := s0.advance t
  .next (if s.portPresent p ∧ s.on (PRT.SYNCE_CFG_ESMC_TX_EN p) = true ∧ s.linkUp p = true
      ∧ s.esmcCode p ≠ s.rd (PRT.ESMC_STAT_TX_SSM p) then s.esmcSend p true else s)

/-! ### Commit group PRTn (R233) -/

def State.prtValid (s : State) (p : Nat) : Bool :=
  let first := 8 * (p / 8)
  let layout := if p = first then s.shd (PRT.QUAD_CFG_LAYOUT p) else s.rd (PRT.QUAD_CFG_LAYOUT first)
  let en := s.shd (PRT.CTRL_EN p) == 1
  let speed := s.shd (PRT.CTRL_SPEED p)
  let max := s.shadowWord (PRT.MAX_FRAME p) % 2 ^ 14
  decide (layout < 4) && (!en || (s.portPresent p && firstLane layout p && speedFits layout speed && (s.on (PRT.CTRL_EN p) || decide (s.domState p < 2))))
    && fecFits speed (s.shd (PRT.CTRL_FEC p))
    && !(s.shd (PRT.CTRL_EEE_EN p) == 1 && decide (2 ≤ speed))
    && decide (64 ≤ max) && decide (max ≤ 9600)
    && (List.range 16).all (fun k => !bitAt (s.shd (PRT.WAKE_CTRL_PAT_EN p)) k
      || (List.range 4).any (fun w => s.shadowWord (Tbl.wakeData.key (256 * p + 8 * k + w)) != 0))
    && s.shd (PRT.PREEMPT_CFG_VERIFY_MS p) != 0
    && (s.shd (PRT.SYNCE_CFG_RCLK_EN p) == 0 || (List.range 32).all (fun n => n == p || !s.on (PRT.SYNCE_CFG_RCLK_EN n)
      || s.rd (PRT.SYNCE_CFG_RCLK_IDX n) != s.shd (PRT.SYNCE_CFG_RCLK_IDX p)))
    && (p != first || s.rd (PRT.QUAD_CFG_LAYOUT p) == layout || (List.range 8).all (fun k => !s.on (PRT.CTRL_EN (first + k))))

/-- A commit that restarts the link. -/
def State.prtRestarts (s : State) (p : Nat) : Bool :=
  s.shd (PRT.CTRL_SPEED p) != s.rd (PRT.CTRL_SPEED p) || s.shd (PRT.CTRL_FEC p) != s.rd (PRT.CTRL_FEC p)
    || s.shd (PRT.CTRL_PREEMPT_EN p) != s.rd (PRT.CTRL_PREEMPT_EN p) || s.shd (PRT.CTRL_EEE_EN p) != s.rd (PRT.CTRL_EEE_EN p)
    || (p % 8 == 0 && s.shd (PRT.QUAD_CFG_LAYOUT p) != s.rd (PRT.QUAD_CFG_LAYOUT p))

/-- PRESENT of the ports of a quad under its layout. -/
def State.showFirstLanes (s : State) (p : Nat) : State :=
  (List.range 8).foldl (fun t k => t.wrB (PRT.STAT_PRESENT (8 * (p / 8) + k))
    (s.portPresent p && firstLane (s.rd (PRT.QUAD_CFG_LAYOUT (8 * (p / 8)))) k)) s

end Sys2Proof.Machine
end

