-- ==== Sys2Proof/Machine/Units.lean ====
section
/-! DEFINITION. Device modes as they change (R53, R55, R56) and the units BST keeps count of: which serve, which are
spare, which are unusable (R452), and what becomes of the mode when work is left unserved. -/

namespace Sys2Proof.Machine

/-! ### Mode transitions (R53, R55, R56) -/

/-- A pending host request (only Keep-alive takes time) is checked again from the new mode (R56). -/
def State.recheckReq (s : State) (dest : Nat) : State :=
  if !s.on GLB.MODE_STAT_PENDING || (dest == 4 || dest == 5) then s
  else ((s.wr GLB.MODE_STAT_PENDING 0).wr GLB.MODE_STAT_STATUS (if dest = 10 then stABORTED else stREFUSED)).sticky
    GLB.STICKY_MODE_DONE

/-- The mode changes: `GLB.MODE`, its log, the journal, MODE_CHANGE (R53, R55). -/
def State.setMode (s : State) (dest cause : Nat) : State :=
  let old := s.mode
  let n := s.rd GLB.MODE_LOG_NEXT
  let entry := old + 2 ^ 4 * dest + 2 ^ 8 * cause + 2 ^ 16 * (s.sec0 % 65536)
  let s1 := (s.setN (GLB.MODE_LOG n) entry).wr GLB.MODE_LOG_NEXT ((n + 1) % 16)
  let s2 := ((s1.wr GLB.MODE_PREVIOUS old).wr GLB.MODE_CURRENT dest).bumpF GLB.MODE_CHANGES
  let s3 := if dest = 3 then { s2 with dsc := { s2.dsc with first := true } } else s2
  let s4 := ((s3.journal 2 0 (leBytes 4 entry)).setQuiet GLB.STICKY_MODE_CHANGE).recheckReq dest
  -- both engines in Service (R466)
  if dest = 4 ∧ s4.rd TWN.STAT_LINK = 3 ∧ s4.rd TWN.STAT_PEER_MODE = 4 then s4.sticky TWN.STICKY_BOTH_ACTIVE else s4

/-! ### Units (R452) -/

/-- The numbers of units of a kind that serve by default; spares follow them. -/
def unitBase (k : Nat) : Nat :=
  match k with | 0 => 32 | 1 => 24 | 2 => 4 | 3 => 48 | 4 => 4 | 5 => 16 | 6 => 32 | _ => 28
/-- The highest INDEX of a kind plus one. -/
def unitTop (k : Nat) : Nat :=
  match k with | 0 => 36 | 1 => 26 | 2 => 5 | 3 => 52 | 4 => 4 | 5 => 16 | 6 => 32 | _ => 28
/-- The quad of a quad sequencer or of a pipe. -/
def unitQuad (k i : Nat) : Nat := if k = 0 then (if i < 32 then i / 8 else i - 32) else i / 6

def unitPresent (v : Variant) (k i : Nat) : Bool :=
  decide (i < unitTop k) && (match k with
    | 0 => decide (unitQuad 0 i < v.quads)
    | 1 => decide (24 ≤ i) || decide (i < v.pipes)
    | 6 => decide (i < v.lanes)
    | _ => true)

def dUnit : Nat → UnitS := fun key => ⟨false, false, decide (unitBase (key / 64) ≤ key % 64), key % 64, 0⟩
def State.unit (s : State) (k i : Nat) : UnitS := Store.get dUnit s.bst.units (64 * k + i)
def State.setUnit (s : State) (k i : Nat) (u : UnitS) : State :=
  { s with bst := { s.bst with units := Store.put dUnit s.bst.units (64 * k + i) u } }

def State.unitsOf (s : State) (k : Nat) : List Nat := (List.range (unitTop k)).filter (fun i => unitPresent s.variant k i)

/-- Unit `i` does work. -/
def State.serving (s : State) (k i : Nat) : Bool :=
  let u := s.unit k i
  !u.unusable && !u.fenced && !u.idle
/-- Whether the work of INDEX `w` is served. -/
def State.served (s : State) (k w : Nat) : Bool := (s.unitsOf k).any (fun i => s.serving k i && (s.unit k i).serves == w)
/-- A free spare that may take the work of INDEX `w`. -/
def State.freeSpare (s : State) (k w : Nat) : Option Nat :=
  (s.unitsOf k).find? (fun i => let u := s.unit k i
    u.idle && !u.unusable && !u.fenced && (k != 0 || unitQuad 0 i == unitQuad 0 w))

def State.unserved (s : State) (k : Nat) : Nat :=
  ((s.unitsOf k).filter (fun w => decide (w < unitBase k) && !s.served k w)).length

/-- The pipes that serve a quad (R300, R301). -/
def State.pipesOf (s : State) (q : Nat) : List Nat :=
  (s.unitsOf 1).filter (fun i => s.serving 1 i && unitQuad 1 (s.unit 1 i).serves == q)

/-- `NTS.PIPE_USABLE`, `NTS.PIPE_SPARE` and PIPES of each quad. -/
def State.showPipes (s : State) : State :=
  let s1 := s.setN NTS.PIPE_USABLE ((s.unitsOf 1).foldl (fun m i => if (s.unit 1 i).unusable then m else m + 2 ^ i) 0)
  let sp := fun i => let u := s.unit 1 i
    if u.idle || u.unusable then (0, 0) else (u.serves, 1)
  let s2 := ((s1.wr NTS.PIPE_SPARE_SPARE0_FOR (sp 24).1).wr NTS.PIPE_SPARE_SPARE0_USED (sp 24).2).wr NTS.PIPE_SPARE_SPARE1_FOR (sp 25).1
  (List.range s.variant.quads).foldl (fun t q => t.wr (NTS.Q_STAT_PIPES q) (t.pipesOf q).length)
    (s2.wr NTS.PIPE_SPARE_SPARE1_USED (sp 25).2)

/-- USABLE and the spare of the public-key engines (R417). -/
def State.showEngines (s : State) : State :=
  let s1 := (List.range 5).foldl (fun t e => t.wrB ⟨PKE.STAT, 8 + e, 1⟩ (!(t.unit 2 e).unusable)) s
  let u := s.unit 2 4
  (s1.wr PKE.STAT_SPARE_FOR (if u.idle then 0 else u.serves)).wrB PKE.STAT_SPARE_USED (!u.idle && !u.unusable)

/-- The correlator units served and the spares free (R204). -/
def State.showCorr (s : State) : State :=
  let s1 := (List.range 48).foldl (fun t u =>
    t.wrB (if u < 32 then ⟨GNC.UNIT_MAP_LO, u, 1⟩ else ⟨GNC.UNIT_MAP_HI, u - 32, 1⟩) (s.served 3 u)) s
  (List.range 4).foldl (fun t k => let u := s.unit 3 (48 + k)
    t.wrB ⟨GNC.UNIT_MAP_HI, 16 + k, 1⟩ (u.idle && !u.unusable && !u.fenced)) s1

/-- `SEQ.SPARE_MAP` and SPARED of the quad sequencers (R391). -/
def State.showSeqSpares (s : State) : State :=
  let s1 := (List.range s.variant.quads).foldl (fun t q =>
    let u := s.unit 0 (32 + q)
    let on := !u.idle && !u.unusable
    (t.wr ⟨SEQ.SPARE_MAP, 8 * q, 3⟩ (if on then u.serves % 8 else 0)).wrB ⟨SEQ.SPARE_MAP, 8 * q + 3, 1⟩ on) s
  s1

/-- `BST.KIND_STAT` and what the block of a kind shows of its units. -/
def State.showUnits (s : State) (k : Nat) : State :=
  let us := s.unitsOf k
  let bad := (us.filter (fun i => (s.unit k i).unusable)).length
  let free := (us.filter (fun i => let u := s.unit k i
    u.idle && !u.unusable && !u.fenced)).length
  let uns := s.unserved k
  let s1 := ((s.wr (BST.KIND_STAT_UNUSABLE k) bad).wr (BST.KIND_STAT_SPARES_FREE k) free).wr (BST.KIND_STAT_UNSERVED k) uns
  let s2 := s1.wrB ⟨BST.UNSERVED_KINDS, k, 1⟩ (uns != 0)
  match k with
  | 0 => s2.showSeqSpares
  | 1 => s2.showPipes
  | 2 => s2.showEngines
  | 3 => s2.showCorr
  | 4 => (List.range 4).foldl (fun t e => t.wrB ⟨GNA.STAT, 4 + e, 1⟩ (!(t.unit 4 e).unusable)) s2
  | _ => s2

/-- The work of unit `i` moves to a free spare of its kind. The answer says whether one took it. -/
def State.moveWork (s : State) (k i : Nat) : State × Bool :=
  let u := s.unit k i
  if u.idle then (s, true)
  else
    match s.freeSpare k u.serves with
    | none => (s, false)
    | some f =>
      let s1 := (s.setUnit k f { s.unit k f with idle := false, serves := u.serves }).setUnit k i { u with idle := true }
      ((s1.bump BST.SWAPS).sticky BST.STICKY_SPARE_USED, true)

/-- Whether an unusable block lacks a spare (R55). -/
def State.lacksSpare (s : State) : Bool := s.nreg BST.UNSERVED_KINDS != 0 || !s.fab.unusable.isEmpty

/-- R55: Service becomes Degraded when a block becomes unusable with no spare, and Degraded Service once none lacks one. -/
def State.settleMode (s : State) : State :=
  if s.mode = 4 && s.lacksSpare then s.setMode 5 6
  else if s.mode = 5 && !s.lacksSpare then s.setMode 4 7
  else s

/-- A unit is marked unusable; a free spare takes its work where there is one. The answer says whether its work is served. -/
def State.failUnit (s : State) (k i : Nat) : State × Bool :=
  let m := (s.setUnit k i { s.unit k i with unusable := true, fenced := false }).moveWork k i
  let s1 := (m.1.showUnits k).sticky BST.STICKY_UNUSABLE
  let s2 := if m.2 then s1 else s1.sticky BST.STICKY_SPARES_OUT
  (s2.setN BST.LAST_FAIL_SEC s2.sec0, m.2)

/-- A unit is usable again: it serves its own work, or, where that has gone to another, the first work left unserved, or
none. -/
def State.restoreUnit (s : State) (k i : Nat) : State :=
  let u := s.unit k i
  let s1 := s.setUnit k i { u with unusable := false, fenced := false }
  let s2 := if u.idle then
      (match (List.range (unitBase k)).find? (fun w => unitPresent s.variant k w && !s1.served k w
          && (k != 0 || unitQuad 0 w == unitQuad 0 i)) with
      | some w => s1.setUnit k i { s1.unit k i with idle := false, serves := w }
      | none => s1)
    else s1
  s2.showUnits k

end Sys2Proof.Machine
end

