-- ==== Sys2Proof/Machine/Keys.lean ====
section
/-! DEFINITION. The key store as the other blocks see it: keys by head slot (R394, R397), the device key in slot 0 (R395), what
`KEY.STAT` counts, and a use of a key (R397, R404). -/

namespace Sys2Proof.Machine

/-- No key. -/
def noKey : Key := ⟨false, false, false, false, 0, 0, 0, 1, 0, 0, 0, 0, 0, []⟩
/-- Slot 0: the device key, a P-384 private key of TYPE 0 and USAGE 3 (R395). ORIGIN reads generated. -/
def devKey : Key := ⟨true, false, true, false, 0, 3, 1, 1, 1, 384, 0, 0, 0, natBlock 48 devScalar⟩

/-- What an unlisted slot holds. -/
def dKey : Nat → Key := fun s => if s = 0 then devKey else noKey
def State.keyAt (s : State) (slot : Nat) : Key := Store.get dKey s.key.slots slot

/-- The head slot of the key that occupies a slot, if one does. -/
def State.headOf (s : State) (slot : Nat) : Option Nat :=
  if (s.keyAt slot).valid then some slot
  else (s.key.slots.find? (fun e => e.2.valid && decide (e.1 ≤ slot) && decide (slot < e.1 + e.2.span))).map (·.1)

/-- Whether any slot of a span is VALID. -/
def State.spanTaken (s : State) (slot span : Nat) : Bool := (List.range span).any (fun i => (s.headOf (slot + i)).isSome)
/-- Whether any slot of a span is claimed by a running command. -/
def State.spanWriting (s : State) (slot span : Nat) : Bool :=
  (List.range span).any (fun i => match s.headOf (slot + i) with | some h => (s.keyAt h).writing | none => false)

/-- `KEY.STAT` and `KEY.USAGE_SLOTS` brought up to date. -/
def State.showKeys (s : State) : State :=
  let ks := ((0, s.keyAt 0) :: s.key.slots.filter (fun e => e.1 != 0)).filter (fun e => e.2.valid)
  let n := fun (p : Key → Bool) => (ks.map (fun e => if p e.2 then e.2.span else 0)).sum
  let s1 := (s.wr KEY.STAT_VALID (n (fun _ => true))).wr KEY.STAT_POISONED (n (fun k => k.poisoned))
  (List.range 5).foldl (fun t u => t.setN (KEY.USAGE_SLOTS u) (n (fun k => k.usage == u))) s1

def State.setKey (s : State) (slot : Nat) (k : Key) : State :=
  ({ s with key := { s.key with slots := Store.put dKey s.key.slots slot k } }).showKeys
/-- The slots of a key zeroised: its material and metadata are gone. -/
def State.dropKey (s : State) (slot : Nat) : State := s.setKey slot noKey

/-- A use of the key in a head slot is counted (R397). -/
def State.useKey (s : State) (slot : Nat) : State :=
  let k := s.keyAt slot
  let s1 := { s with key := { s.key with slots := Store.put dKey s.key.slots slot { k with uses := (k.uses + 1) % 2 ^ 32 } } }
  s1.bump48 KEY.USES_LO

/-- A use that found its slot POISONED (R404). -/
def State.keyPoison (s : State) : State := s.sticky KEY.STICKY_POISON

end Sys2Proof.Machine
end

