-- ==== Sys2Proof/Machine/Nts.lean ====
section
/-! DEFINITION. NTS: the cookie (R286, R287), the limits on a request (R288), verification (R289), the response and its
Authenticator (R290 to R295), master keys (R297, R298), MINT (R299), the pipes (R300, R301) and commit group NTS (R305). The
field types of the extension fields are those of RFC 8915 (PRESUMED, log entry 22). -/

namespace Sys2Proof.Machine

/-! ### Generations (R297) -/

def State.mkSlot (s : State) (w : Nat) : Nat := if w = 0 then s.rd NTS.MK_CFG_SLOT_A else s.rd NTS.MK_CFG_SLOT_B
def State.curSlot (s : State) : Nat := s.mkSlot (s.rd NTS.MK_STAT_CUR_SLOT)
def State.prevSlot (s : State) : Nat := s.mkSlot (1 - s.rd NTS.MK_STAT_CUR_SLOT)

/-- The slot of a generation that may be opened under, and whether it is the previous one (R287, step 1). -/
def State.genSlot (s : State) (gen : Nat) : Option (Nat × Bool) :=
  let cur := s.rd NTS.MK_STAT_CUR_GEN
  if !s.on NTS.MK_STAT_CUR_VALID then none
  else if gen = cur then some (s.curSlot, false)
  else if s.on NTS.MK_STAT_PREV_VALID && gen == (cur + 255) % 256 then some (s.prevSlot, true)
  else none

/-- The cookie key and the IV key of a generation, in that order in its slot. -/
def Key.cookieKey (k : Key) : List Byte := k.material.take 32
def Key.ivKey (k : Key) : List Byte := (k.material.drop 32).take 32

/-- The generation in a slot can be used. -/
def State.genUsable (s : State) (slot : Nat) : Bool :=
  let k := s.keyAt slot
  k.valid && k.typ == 7 && !k.poisoned

/-- The slot of a generation reads poisoned (R298). -/
def State.mkPoison (s : State) : State := s.keyPoison.sticky NTS.STICKY_MK_POISON

/-- The generation a cookie names is one that opens, in a slot that reads poisoned. -/
def State.genPoisoned (s : State) (gen : Nat) : Bool :=
  match s.genSlot gen with | some g => (s.keyAt g.1).poisoned | none => false

/-! ### Counters of the pipes (R294) -/

/-- Block operations issued by a pipe. -/
def State.pipeOps (s : State) (p n : Nat) : State := if n = 0 then s else (s.bump48 NTS.OPS_LO n).count 3 1 p n

def blocksOf (n : Nat) : Nat := ceilDiv n 16

/-- ISSUER (R286). -/
def State.issuer (s : State) (p : Nat) : Nat := 128 * s.rd TWN.CTRL_ROLE + p

/-- The pipe that takes a job of quad `q`: of those that serve it, the one with the fewest unfinished jobs, the lowest on a
tie. -/
def State.pickPipe (s : State) (q : Nat) : Option Nat :=
  let load := fun p => (s.rsp.jobs.filter (fun j => !j.sealed && (match j.nts with | some x => x.pipe == p | none => false))).length
  (s.pipesOf q).foldl (fun b p => match b with
    | none => some p
    | some r => if load p < load r then some p else some r) none

/-! ### Cookies (R286, R287) -/

/-- One cookie minted under the current generation on a pipe. -/
def State.mintOne (s : State) (p : Nat) (keys : List Byte) : State × List Byte :=
  let k := s.keyAt s.curSlot
  let n := Store.get zNat s.nts.minted p
  let block := leBytes 1 (s.issuer p) ++ zeros 7 ++ leBytes 8 n
  let iv := leBytes 1 (s.rd NTS.MK_STAT_CUR_GEN) ++ (aes k.ivKey block).drop 1
  let s1 := { s with nts := { s.nts with minted := Store.put zNat s.nts.minted p (n + 1) } }
  (((s1.useKey s1.curSlot).pipeOps p 6).count 3 3 p, iv ++ (gcmSeal k.cookieKey iv [] keys).take 76)

def State.mintMany (s : State) (p : Nat) (keys : List Byte) : Nat → State × List (List Byte)
  | 0 => (s, [])
  | n + 1 =>
    let a := s.mintOne p keys
    let r := State.mintMany a.1 p keys n
    (r.1, a.2 :: r.2)

/-- The two session keys in a cookie: none where the open fails (R287). -/
def State.openCookie (s : State) (p : Nat) (cookie : List Byte) : State × Option (List Byte) :=
  let s0 := if s.on NTS.MK_STAT_CUR_VALID then s else s.sticky NTS.STICKY_NO_KEY
  match s0.genSlot (leAt cookie 0 1) with
  | none => (s0, none)
  | some g =>
    if !s0.genUsable g.1 then
      (if (s0.keyAt g.1).poisoned then (s0.mkPoison, none) else (s0, none))
    else
      let s1 := s0.useKey g.1
      match gcmOpen (s0.keyAt g.1).cookieKey (cookie.take 16) [] ((cookie.drop 16).take 64) ((cookie.drop 80).take 12) with
      | none => (s1.pipeOps p 1, none)
      | some keys => ((if g.2 then s1.bump NTS.PREV_ACCEPT else s1).pipeOps p 5, some keys)

/-! ### Extension fields and the limits of R288 -/

/-- An extension field: type, where it begins in the UDP payload, its length. -/
structure Ext where
  typ : Nat
  off : Nat
  len : Nat
  deriving DecidableEq, Repr

/-- The extension fields after an NTP header, as far as their lengths hold, and whether they reach the end. -/
def extsFrom (p : List Byte) : Nat → Nat → List Ext × Bool
  | 0, _ => ([], false)
  | fuel + 1, off =>
    if p.length ≤ off then ([], true)
    else
      let len := beAt p (off + 2) 2
      if p.length < off + 4 ∨ len < 16 ∨ len % 4 ≠ 0 ∨ p.length < off + len then ([], false)
      else
        let r := extsFrom p fuel (off + len)
        (⟨beAt p off 2, off, len⟩ :: r.1, r.2)
def extsOf (p : List Byte) : List Ext × Bool := extsFrom p (p.length + 1) 48

def extUid : Nat := 0x0104
def extCookie : Nat := 0x0204
def extHold : Nat := 0x0304
def extAuth : Nat := 0x0404
def ntsType (t : Nat) : Bool := t == extUid || t == extCookie || t == extHold || t == extAuth

/-- The request carries an NTS extension field. -/
def hasNts (p : List Byte) : Bool := (extsOf p).1.any (fun e => ntsType e.typ)

/-- What R288 makes of an NTS request: broken, a cookie of the wrong length, with an unknown field, or fit to be opened. -/
inductive NtsReq
  | format
  | badCookie (uid : List Byte)
  | unknown
  | good (uid cookie ad nonce ct : List Byte) (holders : Nat)
  deriving DecidableEq, Repr

def bodyOf (p : List Byte) (e : Ext) : List Byte := (p.drop (e.off + 4)).take (e.len - 4)

def ntsParse (p : List Byte) : NtsReq :=
  let x := extsOf p
  let of := fun t => x.1.filter (fun e => e.typ == t)
  match x.2, of extUid, of extCookie, of extAuth, x.1.getLast? with
  | true, [u], [c], [a], some l =>
    let b := bodyOf p a
    let nl := beAt b 0 2
    let hs := of extHold
    if 1072 < p.length ∨ u.len < 36 ∨ 68 < u.len ∨ 7 < hs.length ∨ hs.any (fun h => h.len != 96) = true ∨ l.typ ≠ extAuth
        ∨ nl < 16 ∨ 32 < nl ∨ nl % 4 ≠ 0 ∨ beAt b 2 2 ≠ 16 ∨ b.length < 4 + nl + 16 then .format
    else if c.len ≠ 96 then .badCookie (bodyOf p u)
    else if x.1.any (fun e => !ntsType e.typ) then .unknown
    else .good (bodyOf p u) (bodyOf p c) (p.take a.off) ((b.drop 4).take nl) ((b.drop (4 + nl)).take 16) hs.length
  | _, _, _, _, _ => .format

def extField (t : Nat) (body : List Byte) : List Byte := beBytes 2 t ++ beBytes 2 (body.length + 4) ++ body

/-! ### Verification and the response (R289 to R295) -/

/-- The request is verified under its C2S key (R289); the operations are counted either way. -/
def State.ntsVerify (s : State) (p : Nat) (c2s ad nonce ct : List Byte) : State × Bool :=
  (s.pipeOps p (3 + blocksOf ad.length + blocksOf nonce.length), (sivOpen c2s ad nonce ct).isSome)

/-- Block operations of the Authenticator done before the stamp is known, and those done after it (R291). -/
def authBefore (plain : Nat) : Nat := 4 + (blocksOf plain - 1)
def authAfter (ad plain : Nat) : Nat := blocksOf ad - 2 + 1 + 1 + blocksOf plain

/-- The nonce of a response (R290). -/
def State.respNonce (s : State) (p : Nat) : State × List Byte :=
  let n := Store.get zNat s.nts.sent p
  ({ s with nts := { s.nts with sent := Store.put zNat s.nts.sent p ((n + 1) % 2 ^ 64) } },
    leBytes 8 n ++ leBytes 1 (s.issuer p) ++ leBytes 7 (Config.random s.nts.tail))

/-- What follows the NTP header of an NTS response before it is sealed: the Unique Identifier, and the Authenticator with
its plaintext in place of its ciphertext (R290). -/
def State.ntsTail (s : State) (x : NtsCtx) : State × List Byte :=
  let uid := extField extUid x.uid
  if !x.auth then (s, uid)
  else
    let m := s.mintMany x.pipe (x.c2s ++ x.s2c) x.cookies
    let n := m.1.respNonce x.pipe
    let plain := m.2.flatMap (extField extCookie)
    (n.1.pipeOps x.pipe (authBefore plain.length),
      uid ++ extField extAuth (beBytes 2 16 ++ beBytes 2 (16 + plain.length) ++ n.2 ++ zeros 16 ++ plain))

/-- The NTP payload with its Authenticator made over the finished header (R250, R290). -/
def ntsSeal (x : NtsCtx) (p : List Byte) : List Byte :=
  if !x.auth then p
  else
    let off := 48 + 4 + x.uid.length
    let nonce := (p.drop (off + 8)).take 16
    p.take (off + 24) ++ sivSeal x.s2c (p.take off) nonce (p.drop (off + 40))

/-- The block operations of `ntsSeal`. -/
def sealOps (x : NtsCtx) : Nat := if x.auth then authAfter (52 + x.uid.length) (96 * x.cookies) else 0

/-- A request counts as failed for one of the reasons of R303: 9 cookie, 10 authentication, 11 format. -/
def State.ntsFailed (s : State) (q reason : Nat) : State :=
  match reason with
  | 9 => (s.bump (NTS.Q_COOKIE_FAIL q)).sticky NTS.STICKY_COOKIE_FAIL
  | 10 => (s.bump (NTS.Q_AUTH_FAIL q)).sticky NTS.STICKY_AUTH_FAIL
  | _ => (s.bump (NTS.Q_FORMAT_FAIL q)).sticky NTS.STICKY_FORMAT_FAIL

/-- How an NTS request comes out of its pipe: to the Sump, to the sequencers, answered by a NAK, or served with a context. -/
inductive NtsOut
  | sump (reason : Nat)
  | decline
  | nak (x : NtsCtx)
  | serve (x : NtsCtx)
  deriving DecidableEq, Repr

/-- A failed open (R287, R296). -/
def State.cookieFailed (s : State) (q pipe : Nat) (uid : List Byte) : State × NtsOut :=
  let s1 := (s.ntsFailed q 9).count 3 2 pipe
  (s1, if s1.on NTS.CTRL_NAK_EN then .nak ⟨[], [], uid, 0, pipe, false⟩ else .sump 9)

/-- An NTS request on a pipe of quad `q` (R287 to R289): `kod` asks for the authenticated KoD, which carries no cookie. A
poisoned generation slot is reason POISON (R303). -/
def State.ntsRequest (s0 : State) (q pipe : Nat) (p : List Byte) (kod : Bool) : State × NtsOut :=
  let s := (s0.qPut (100 + q)).qTake (100 + q)
  match ntsParse p with
  | .format => (s.ntsFailed q 11, .sump 11)
  | .badCookie uid => s.cookieFailed q pipe uid
  | .unknown => (s, .decline)
  | .good uid cookie ad nonce ct holders =>
    let o := s.openCookie pipe cookie
    match o.2 with
    | none => if o.1.genPoisoned (leAt cookie 0 1) then ((o.1.ntsFailed q 9).count 3 2 pipe, .sump 16) else o.1.cookieFailed q pipe uid
    | some keys =>
      let c2s := keys.take 32
      let v := o.1.ntsVerify pipe c2s ad nonce ct
      if !v.2 then (v.1.ntsFailed q 10, .sump 10)
      else
        let n := if kod then 0 else 1 + min holders (v.1.rd NTS.CTRL_MAX_COOKIES - 1)
        if n != 0 && (v.1.keyAt v.1.curSlot).poisoned then (v.1.mkPoison, .sump 16)
        else (v.1, .serve ⟨c2s, keys.drop 32, uid, n, pipe, true⟩)

/-! ### MINT (R299) -/

def State.ntsForbids (s : State) : Bool := s.mode == 10 || s.modeNoCmd

def execMint (c : HostCmd) (keyErr outAfter : Option Nat) (t : Nat) (s0 : State) : Host.Outcome State Fault Refusal :=
  let s := s0.advance t
  let n := c.u 16 1
  let noKey := !s.on NTS.MK_STAT_CUR_VALID || !s.genUsable s.curSlot
  let code := c.code [codeIf (n == 0) stZERO_LEN, codeIf (decide (8 < n) || c.u 17 1 != 15 || !c.zero 18 32) stREFUSED,
    match keyErr with | some 3 => stPOISONED | some _ => stABORTED | none => 0,
    codeIf noKey stNO_KEY, codeIf s.ntsForbids stMODE_FORBIDS]
  let s1 := if code = stREFUSED then s.refuseCfg .nts else s
  let s2 := if !noKey || n == 0 then s1
    else if s1.on NTS.MK_STAT_CUR_VALID && (s1.keyAt s1.curSlot).poisoned then s1.mkPoison else s1.sticky NTS.STICKY_NO_KEY
  let s3 := if code = stPOISONED then (s2.poisonSeen).dmaAbort c.ring 3 3
    else if code = stABORTED then (match keyErr with | some e => s2.dmaAbort c.ring 3 e | none => s2) else s2
  .next (
    if code ≠ 0 then s3.complete c code 0
    else
      match s3.pickPipe 0 with
      | none => s3.complete c stABORTED 0
      | some p =>
        let w := match outAfter with | some k => min k n | none => n
        let m := s3.mintMany p (s3.bytesAt (c.u 0 8) 64) w
        let s4 := (m.1.setBytes (c.u 8 8) m.2.flatten).bump NTS.MINT_COUNT w
        s4.complete c (if outAfter.isSome then stABORTED else stOK) w)

/-! ### ROTATE (R298) -/

/-- Steps 1 and 2: the generation before the current one is retired. -/
def execRotate (c : HostCmd) (t : Nat) (s0 : State) : Host.Outcome State Fault Refusal :=
  let s := s0.advance t
  let code := c.code [codeIf (!c.zero 0 32) stREFUSED, codeIf s.nts.rot.isSome stBUSY, codeIf (c.fn != 0) stDENIED,
    codeIf s.ntsForbids stMODE_FORBIDS]
  .next (
    if code ≠ 0 then (if code = stREFUSED then s.refuseCfg .nts else s).complete c code 0
    else
      let s1 := (s.wr NTS.MK_STAT_PREV_VALID 0).wr NTS.MK_STAT_ROTATING 1
      { s1 with nts := { s1.nts with rot := some c } })

/-- 64 bytes of the random source. -/
def State.drawBytes (s : State) (n : Nat) : State × List Byte :=
  let d := s.draw
  (d.2, leBytes n d.1)

/-- The slot ROTATE generates into: that of g − 1; SLOT_A where there is no current generation. -/
def State.nextSlot (s : State) : Nat := if s.on NTS.MK_STAT_CUR_VALID then 1 - s.rd NTS.MK_STAT_CUR_SLOT else 0

/-- Steps 3 to 5. `ok` is false where key generation fails; so it does where the slot holds material that is not NTS
material. -/
def State.rotateDone (s : State) (c : HostCmd) (ok : Bool) : State :=
  let w := s.nextSlot
  let slot := s.mkSlot w
  let foreign := match s.headOf slot with | some h => (s.keyAt h).typ != 7 | none => false
  let s0 := { s.wr NTS.MK_STAT_ROTATING 0 with nts := { s.nts with rot := none } }
  let s1 := if foreign then s0 else s0.dropKey slot
  if !ok || foreign then (s1.sticky NTS.STICKY_ROTATE_FAIL).complete c stABORTED 0
  else
    let d := s1.drawBytes 64
    let g := (s1.rd NTS.MK_STAT_CUR_GEN + 1) % 256
    let s2 := d.1.setKey slot ⟨true, false, true, false, 7, 0, 0, 1, 1, 512, 0, 0, 0, d.2⟩
    let s3 := (((s2.wr NTS.MK_STAT_PREV_VALID (s2.rd NTS.MK_STAT_CUR_VALID)).wr NTS.MK_STAT_CUR_VALID 1).wr NTS.MK_STAT_CUR_GEN g).wr
      NTS.MK_STAT_CUR_SLOT w
    let s4 := ({ s3 with nts := { s3.nts with minted := [] } }).bumpF NTS.MK_STAT_ROTATIONS
    (((s4.setN NTS.MK_ROTATED s4.sec0).sticky NTS.STICKY_ROTATED).journal 12 15 (leBytes 1 g)).complete c stOK 0

def execRotateComplete (ok : Bool) (t : Nat) (s0 : State) : Host.Outcome State Fault Refusal :=
  let s := s0.advance t
  .next (match s.nts.rot with | some c => s.rotateDone c ok | none => s)

/-! ### The pipes (R301) -/

/-- A pipe marked unusable: a free spare takes its place, and the jobs on it go on on another pipe. -/
def State.pipeFail (s : State) (p : Nat) : State :=
  if (s.unit 1 p).unusable then s
  else
    let q := unitQuad 1 (s.unit 1 p).serves
    let s1 := ((s.failUnit 1 p).1.sticky NTS.STICKY_PIPE_FAIL).settleMode
    s1.setJobs (s1.rsp.jobs.map (fun j => match j.nts with
      | some x => if x.pipe = p then (match s1.pickPipe q with | some r => { j with nts := some { x with pipe := r } } | none => j) else j
      | none => j))

def execPipeKat (p : Nat) (ok : Bool) (t : Nat) (s0 : State) : Host.Outcome State Fault Refusal :=
  let s := s0.advance t
  .next (if !unitPresent s.variant 1 p || (s.unit 1 p).unusable then s
    else
      let s1 := s.pipeOps p 1
      if ok then s1 else s1.pipeFail p)

/-! ### Commit group NTS (R305) -/

def State.ntsValid (s : State) : Bool :=
  let n := s.shd NTS.CTRL_MAX_COOKIES
  let a := s.shd NTS.MK_CFG_SLOT_A
  let b := s.shd NTS.MK_CFG_SLOT_B
  let own := fun x => match s.headOf x with | some h => (s.keyAt h).typ == 7 | none => true
  n != 0 && decide (n ≤ 8) && a != b && own a && own b
    && ((a == s.rd NTS.MK_CFG_SLOT_A && b == s.rd NTS.MK_CFG_SLOT_B)
      || !(s.on NTS.MK_STAT_CUR_VALID || s.on NTS.MK_STAT_PREV_VALID))

def State.ntsApply (s : State) : State := s.applyShadows .nts

end Sys2Proof.Machine
end

