-- ==== Sys2Proof/Machine/Build.lean ====
section
/-! DEFINITION. Stage 4 as a builder: the tables of a request's bank (R262), the frame a reply or a message goes out in (R243),
the NTP header (R244 to R246), PTP messages (R264, R267 to R270), where the predicted stamp goes in (R250), and the
reservation request of stage 5 (R247, R249). The layouts of NTP and PTP messages are those of RFC 5905 and IEEE 1588-2019,
which the manual names by their fields (PRESUMED, log entry 23). -/

namespace Sys2Proof.Machine

/-! ### The tables of a bank (R262) -/

/-- A word of commit group RSP as bank `b` holds it. -/
def State.rspWord (s : State) (b k : Nat) : Nat :=
  if b = s.rd RSP.STAT_BANK then s.nreg k else (Store.get (resetWord s.variant) s.rsp.old k).toNat
def State.rspF (s : State) (b : Nat) (f : Fld) : Nat := bitsOf (s.rspWord b f.addr) f.lo f.w

/-- A field of a service profile, of a rate-limit class and of a response template. -/
def State.prof (s : State) (b p word lo w : Nat) : Nat := bitsOf (s.rspWord b (Tbl.rspProfiles.key (4 * p + word))) lo w
def State.cls (s : State) (b c word lo w : Nat) : Nat := bitsOf (s.rspWord b (Tbl.rspClasses.key (4 * c + word))) lo w
def State.tpl (s : State) (b i word lo w : Nat) : Nat := bitsOf (s.rspWord b (Tbl.rspTemplates.key (16 * i + word))) lo w

def State.tplMac (s : State) (b i : Nat) : List Byte := leBytes 4 (s.tpl b i 0 0 32) ++ leBytes 2 (s.tpl b i 1 0 16)
/-- The source override for an IP version; none where it is all zero. -/
def State.override (s : State) (b i v : Nat) : Option (List Byte) :=
  let a := if v = 4 then leBytes 4 (s.tpl b i 3 0 32)
    else if v = 6 then (List.range 4).flatMap (fun w => leBytes 4 (s.tpl b i (4 + w) 0 32)) else []
  if a.any (· != 0) then some a else none

/-! ### The frame of a reply (R243) -/

def etypeOf (v : Nat) : Nat := if v = 4 then 0x0800 else if v = 6 then 0x86DD else 0x88F7

/-- A frame to send under template `i`, with everything but its addressing taken from the template. -/
def State.frameTo (s : State) (b i v : Nat) (dmac : List Byte) (tags : List (Nat × Nat)) (src dst : List Byte) (sport dport : Nat)
    (body : List Byte) : Out :=
  ⟨dmac, s.tplMac b i, if s.tpl b i 1 16 1 = 1 then tags else [], etypeOf v, v, src, dst, sport, dport, 4 * s.tpl b i 1 20 6,
    s.tpl b i 2 0 8, s.tpl b i 1 17 1 == 1, s.tpl b i 2 12 20, body⟩

/-- A request sent to a multicast or broadcast address without the matching source override is not served. -/
def State.castBad (s : State) (b i : Nat) (k : Pkt) : Bool := k.v != 0 && ipMulti k.v k.dst && (s.override b i k.v).isNone

/-- The reply to a packet: addresses and ports exchanged. -/
def State.replyTo (s : State) (b i : Nat) (k : Pkt) (body : List Byte) : Out :=
  s.frameTo b i k.v k.eth.src k.eth.tags ((s.override b i k.v).getD k.dst) k.src k.dport k.sport body

/-! ### The NTP header (R244 to R246) -/

/-- The request is one an NTP profile serves, NTS apart: version 3 or 4, mode 3. -/
def ntpClient (p : List Byte) : Bool :=
  let b := beAt p 0 1
  decide (48 ≤ p.length) && (b / 8 % 8 == 3 || b / 8 % 8 == 4) && b % 8 == 3

/-- R245: the leap indicator on timescale `n`. -/
def State.leapInd (s : State) (b n : Nat) : Nat :=
  if s.on DSC.QUAL_NOW_LI3 || (s.leapAt s.sec0).isNone then 3
  else if s.rd (TSC.CTRL_KIND n) = 1 && s.rspF b RSP.CTRL_SMEAR_LI = 0 then 0
  else s.leapWarn s.sec0

/-- Root dispersion: with a holdover set advertised, the error bound is added, rounded up. -/
def State.rootDisp (s : State) (b : Nat) : Nat :=
  let k := s.rd DSC.STATE_ADV
  let e := if k = 2 ∨ k = 3 then ceilDiv (s.nreg DSC.HO_ERR * 65536) (10 ^ 9) else 0
  min (s.rspWord b RSP.NTP_ROOT_DISP + e) (2 ^ 32 - 1)

/-- The reference ID, first byte first. -/
def State.refId (s : State) (b i : Nat) : List Byte :=
  if s.tpl b i 8 17 1 = 1 then leBytes 4 (s.tpl b i 9 0 32)
  else match s.active with
    | some n => leBytes 4 (s.rspWord b (RSP.REFID n))
    | none => leBytes 4 (s.rspWord b RSP.REFID_NONE)

/-- The kiss codes "RATE" and "NTSN". -/
def kissRate : List Byte := [0x52, 0x41, 0x54, 0x45]
def kissNak : List Byte := [0x4E, 0x54, 0x53, 0x4E]

/-- The 48 bytes of an NTP response, its transmit timestamp still zero. `kod` is 0 for a response, 1 for RATE, 2 for the NTS
NAK (R296). -/
def State.ntpHeader (s : State) (b i ts kod : Nat) (req : List Byte) (rx : Nat) : List Byte :=
  let vn := beAt req 0 1 / 8 % 8
  let poll := (req.drop 2).take 1
  let tail := (req.drop 40).take 8 ++ beBytes 8 (s.ntp64 ts rx) ++ zeros 8
  if kod ≠ 0 then
    beBytes 1 (3 * 64 + vn * 8 + 4) ++ beBytes 1 0 ++ poll ++ leBytes 1 (s.tpl b i 8 0 8) ++ zeros 8
      ++ (if kod = 1 then kissRate else kissNak) ++ zeros 8 ++ tail
  else
    beBytes 1 (s.leapInd b ts * 64 + vn * 8 + 4) ++ beBytes 1 (s.rd DSC.QUAL_NOW_STRATUM)
      ++ (if s.tpl b i 8 16 1 = 1 then leBytes 1 (s.tpl b i 8 8 8) else poll) ++ leBytes 1 (s.tpl b i 8 0 8)
      ++ beBytes 4 (s.rspWord b RSP.NTP_ROOT_DELAY) ++ beBytes 4 (s.rootDisp b) ++ s.refId b i
      ++ (match s.rsp.refRaw with | some r => beBytes 8 (s.ntp64 ts (s.tsAt ts r)) | none => zeros 8) ++ tail

/-! ### PTP messages -/

/-- A field of a domain (R263), live. -/
def domKey (d w : Nat) : Nat := Tbl.ptpDomains.key (8 * d + w)
def State.dom (s : State) (d w lo n : Nat) : Nat := bitsOf (s.nreg (domKey d w)) lo n
def State.domI (s : State) (d w lo : Nat) : Int := toSigned 8 (s.dom d w lo 8)
def State.domEn (s : State) (d : Nat) : Bool := s.dom d 0 0 1 == 1
def State.domProfile (s : State) (d : Nat) : Nat := s.dom d 0 1 3
def State.domTs (s : State) (d : Nat) : Nat := s.dom d 0 4 6
def State.domTwoStep (s : State) (d : Nat) : Bool := s.dom d 0 10 1 == 1
def State.domOnPort (s : State) (d p : Nat) : Bool := s.dom d 1 p 1 == 1
def State.domClock (s : State) (d : Nat) : List Byte := leBytes 4 (s.nreg (domKey d 2)) ++ leBytes 4 (s.nreg (domKey d 3))
def State.domTpl (s : State) (d : Nat) : Nat := s.dom d 6 0 6
def State.domLead (s : State) (d : Nat) : Nat := s.dom d 6 6 13
def State.domTransport (s : State) (d : Nat) : Nat := s.dom d 0 15 2
/-- Whether a domain's profile measures peer delay (R264). -/
def p2pProfile (f : Nat) : Bool := f == 1 || f == 6
/-- The engine's portIdentity on domain `d` and port `p` (R263). -/
def State.ownPort (s : State) (d p : Nat) : List Byte := s.domClock d ++ beBytes 2 (p + 1)

/-- IP version of a domain's TRANSPORT (0 for Ethernet). -/
def verOf (transport : Nat) : Nat := match transport with | 1 => 4 | 2 => 6 | _ => 0

/-- A message: header and body. `sub` is the low byte of flagField, `flags` its high byte. -/
def State.ptpMsg (s : State) (d p typ flags sub : Nat) (corr : Int) (seq : Nat) (log : Int) (body : List Byte) : List Byte :=
  let ctl := match typ with | 0 => 0 | 1 => 1 | 8 => 2 | 9 => 3 | _ => 5
  beBytes 1 (s.dom d 4 16 4 * 16 + typ) ++ beBytes 1 0x12 ++ beBytes 2 (34 + body.length) ++ beBytes 1 (s.dom d 0 24 8)
    ++ beBytes 1 (s.dom d 4 24 8) ++ beBytes 1 flags ++ beBytes 1 sub ++ beBytes 8 (ofSigned 64 corr) ++ zeros 4 ++ s.ownPort d p
    ++ beBytes 2 seq ++ beBytes 1 ctl ++ beBytes 1 (ofSigned 8 log) ++ body

/-- A timestamp field (R93), and the sub-nanosecond part that goes with it. -/
def ptpStamp (t : Nat) : List Byte := beBytes 6 (ptpSec t) ++ beBytes 4 (taiNs t)

/-- The Follow_Up information TLV of profile 6 (R264). -/
def State.infoTlv (s : State) : List Byte :=
  beBytes 2 3 ++ beBytes 2 28 ++ beBytes 3 0x0080C2 ++ beBytes 3 1 ++ zeros 4 ++ beBytes 2 (s.rd PTP.STAT_GM_TBI) ++ zeros 12 ++ zeros 4

/-- The advertised Announce dataset: from the header's low flags byte, currentUtcOffset, a reserved byte, grandmasterPriority1,
quality, priority2, identity, stepsRemoved, timeSource (R269, or R270 where the domain follows an upstream). -/
def State.annFields (s : State) (d : Nat) : Nat × List Byte :=
  let up := match s.active with
    | some n => if s.dom d 0 14 1 = 1 ∧ s.bindType n = 2 ∧ s.dstate = dLOCKED then (Store.get (fun _ => (none : Option (List Byte)))
        (s.ptp.ups.map (fun e => (e.1, e.2.ann))) (s.bindIndex n)) else none
    | none => none
  match up with
  | some a => (beAt a 7 1, (a.drop 44).take 2 ++ zeros 1 ++ (a.drop 47).take 14 ++ beBytes 2 (beAt a 61 2 + 1) ++ (a.drop 63).take 1)
  | none =>
    let k := s.rd DSC.STATE_ADV
    let sec := s.sec0
    let warn := s.leapWarn sec
    let flags := 8 + 4 * b2n (s.leapAt sec).isSome + b2n (warn == 1) + 2 * b2n (warn == 2) + 16 * s.rd (PTP.QUAL_EXT_TIME_TRACE k)
      + 32 * s.rd (PTP.QUAL_EXT_FREQ_TRACE k)
    let f := s.domProfile d
    let cc := if f = 4 ∨ f = 5 then s.rd DSC.QUAL_NOW_CLASS_G8275 else s.rd DSC.QUAL_NOW_CLASS_DEF
    let src := match s.active with
      | some n => if s.bindType n = 1 then 0x20 else if s.bindType n = 2 then 0x40 else s.rd PTP.TSRC_OTHER
      | none => 0xA0
    (flags, beBytes 2 (ofSigned 16 (s.taiUtc sec)) ++ zeros 1 ++ beBytes 1 (s.dom d 4 0 8) ++ beBytes 1 cc
      ++ beBytes 1 (s.rd (PTP.QUAL_EXT_ACCURACY k)) ++ beBytes 2 (s.rd (PTP.QUAL_EXT_VARIANCE k)) ++ beBytes 1 (s.dom d 4 8 8)
      ++ s.domClock d ++ beBytes 2 0 ++ beBytes 1 src)

/-- 2^`l` seconds in q. -/
def pow2Sec (l : Int) : Nat := if l < 0 then qSec / 2 ^ l.natAbs else qSec * 2 ^ l.natAbs

/-- unicastFlag and twoStepFlag in the high byte of flagField. -/
def flUnicast (b : Bool) : Nat := 4 * b2n b
def flTwoStep (b : Bool) : Nat := 2 * b2n b

/-- The domain a PTP job belongs to: a message's own, or that of the request's profile. -/
def State.jobDom (s : State) (j : Job) : Nat :=
  match j.what with
  | some (.sync d _) | some (.announce d _) | some (.followUp d _ _) | some (.pdelayReq d) | some (.pdelayFollow d _) => d
  | some (.delayReq u) | some (.upRequest u _) => s.rd (PTP.UP_CFG_DOMAIN u)
  | some (.cancelGrant d _) => d
  | _ => match j.profile with | some p => s.prof j.bank p 0 24 6 | none => 0

/-- The TLV of R280 that asks an upstream for a grant: 0 Announce, 1 Sync, 2 Delay_Resp. -/
def grantMsg (typ : Nat) : Nat := match typ with | 0 => 0xB | 1 => 0 | _ => 9
def State.upLog (s : State) (u typ : Nat) : Int :=
  toSigned 8 (match typ with
    | 0 => s.rd (PTP.UP_INTERVALS_LOG_ANN u) | 1 => s.rd (PTP.UP_INTERVALS_LOG_SYNC u) | _ => s.rd (PTP.UP_INTERVALS_LOG_DREQ u))

/-- The logMessageInterval of a Sync or an Announce: the domain's, or the grant's. -/
def State.msgLog (s : State) (d : Nat) (grant : Option Int) (typ : Nat) : Int :=
  match grant with
  | some l => l
  | none => s.domI d 5 (if typ = 0 then 8 else 0)

/-- The payload of a PTP message the engine sends, its own transmit stamp still zero (R267 to R270, R273, R280 to R282).
`uni` says whether it goes to one partner; `req` is the message it answers. -/
def State.ptpBody (s : State) (j : Job) (uni : Bool) (req : List Byte) : List Byte :=
  let d := s.jobDom j
  let fl := flUnicast uni
  let rx := s.rxStamp j (s.domTs d)
  let corr := toSigned 64 (beAt req 8 8)
  let reqPort := (req.drop 20).take 10
  match j.what with
  | some (.sync _ g) =>
    let two := s.domTwoStep d
    s.ptpMsg d j.port 0 (fl + flTwoStep two) 8 0 j.seqId (s.msgLog d g 1)
      (zeros 10 ++ (if s.domProfile d = 6 && !two then s.infoTlv else []))
  | some (.announce _ g) =>
    let a := s.annFields d
    s.ptpMsg d j.port 0xB fl a.1 0 j.seqId (s.msgLog d g 0)
      (zeros 10 ++ a.2 ++ (if s.domProfile d = 6 then beBytes 2 8 ++ beBytes 2 8 ++ s.domClock d else []))
  | some (.followUp _ g t) =>
    s.ptpMsg d j.port 8 fl 8 (taiSub t) j.seqId (s.msgLog d g 1) (ptpStamp t ++ (if s.domProfile d = 6 then s.infoTlv else []))
  | some .delayResp =>
    s.ptpMsg d j.port 9 fl 8 (corr - taiSub rx) (beAt req 30 2) (s.domI d 5 16) (ptpStamp rx ++ reqPort)
  | some .pdelayResp =>
    let two := s.domTwoStep d
    s.ptpMsg d j.port 3 (fl + flTwoStep two) 8 (if two then corr - taiSub rx else corr) (beAt req 30 2) 0x7F
      ((if two then ptpStamp rx else zeros 10) ++ reqPort)
  | some (.pdelayFollow _ t) => s.ptpMsg d j.port 0xA fl 8 (taiSub t) (beAt req 30 2) 0x7F (ptpStamp t ++ reqPort)
  | some (.signaling tlvs) => s.ptpMsg d j.port 0xC fl 8 0 j.seqId 0x7F (reqPort ++ tlvs)
  | some (.cancelGrant _ b) => s.ptpMsg d j.port 0xC fl 8 0 j.seqId 0x7F b
  | some (.upRequest u typ) =>
    s.ptpMsg d j.port 0xC fl 8 0 j.seqId 0x7F
      ((leBytes 4 (s.nreg (PTP.UP_MASTER_LO u)) ++ leBytes 4 (s.nreg (PTP.UP_MASTER_HI u)) ++ beBytes 2 (s.nreg (PTP.UP_MASTER_PORT u)))
        ++ beBytes 2 4 ++ beBytes 2 6 ++ beBytes 1 (grantMsg typ * 16) ++ beBytes 1 (ofSigned 8 (s.upLog u typ))
        ++ beBytes 4 (10 * s.rd (PTP.UP_INTERVALS_DUR_10S u)))
  | some (.delayReq _) => s.ptpMsg d j.port 1 fl 8 0 j.seqId 0x7F (zeros 10)
  | some (.pdelayReq _) => s.ptpMsg d j.port 2 fl 8 0 j.seqId (s.domI d 5 24) (zeros 20)
  | _ => []

/-- What the engine sends as a PTP message rather than as an answer to a request. -/
def What.isPtp : What → Bool
  | .ntp _ | .esmc _ | .program _ _ => false
  | _ => true

/-- A message of the calendar, or a Follow_Up: what R277 counts. -/
def What.isCal : What → Bool
  | .sync _ _ | .announce _ _ | .followUp _ _ _ | .pdelayFollow _ _ | .delayReq _ | .pdelayReq _ => true
  | _ => false

/-! ### The predicted stamp (R250) -/

/-- The payload with the predicted stamp `t` in it, converted for what it is. -/
def State.stampIn (s : State) (j : Job) (t : Nat) (p : List Byte) : List Byte :=
  match j.what with
  | some (.ntp _) => setAt p 40 (beBytes 8 (s.ntp64 j.ts t))
  | some (.sync _ _) => if bitAt (beAt p 6 1) 1 then p else setAt (setAt p 8 (beBytes 8 (taiSub t))) 34 (ptpStamp t)
  | some .pdelayResp =>
    if bitAt (beAt p 6 1) 1 then p
    else setAt p 8 (beBytes 8 (ofSigned 64 (toSigned 64 (beAt p 8 8) + ((t : Int) - (s.rxStamp j j.ts : Int)))))
  | _ => p

/-- The bytes of a frame a program built with its stamp in place: 8 bytes of NTP, or 10 of a PTP timestamp. -/
def State.stampFrame (s : State) (j : Job) (t : Nat) (f : List Byte) : List Byte :=
  match j.what with
  | some (.program _ (some x)) => setAt f x.1 (if x.2 then ptpStamp t else beBytes 8 (s.ntp64 j.ts t))
  | _ => f

/-! ### Stage 5 asked for a departure (R247, R249) -/

/-- Q_LAT's maxima, in ns, saturating. -/
def State.maxFld (s : State) (f : Fld) (v : Nat) : State := if s.rd f < v then s.wr f (min v (2 ^ f.w - 1)) else s

/-- A stage-4 issue slot taken (R480). -/
def State.issueSlot (s : State) (j : Job) : State × Job := (s.slotIssued j.quad, { j with slotted := true })

/-- The reservation request: its place in queue 108 + q is taken as credit allows. -/
def State.askSlot (s : State) (j : Job) : State :=
  let s1 := if j.isReq && !j.rebuilt then s.maxFld (RSP.Q_LAT_MAX_BUILD j.quad) ((s.raw - j.gotRaw) / qNs) else s
  (s1.putJob { j with st := .wantSlot, inQ := false, slot := none, sealed := false, checked := false, reqRaw := s.raw,
                      since := s.raw }).pump j.quad

/-- A request's reservation: t_e a lead after the request for it, t_l its ingress plus MAX_RES. -/
def State.askReply (s : State) (j : Job) : State :=
  s.askSlot { j with te := s.raw + j.lead * qNs, tl := j.rawS + j.maxRes * 1000 * qNs }

/-! ### Writes that act (R13, R36) -/

/-- A write of a register of target `tgt` that acts, by master `m`. -/
def State.busWrite (s : State) (m tgt a : Nat) (f : State → State) : State :=
  match s.access m a .write with
  | .granted => f s
  | .denied => s.deny m tgt .write
  | _ => s

/-! ### The mode gate (R236) -/

/-- Whether the mode serves a quad; `nts` says that the request carries an NTS extension field. An isolated quad (R47) and one
whose domain is stopped (R436) serve nothing. -/
def State.modeServes (s : State) (q : Nat) (nts : Bool) : Bool :=
  if s.fab.isolated.contains (Tok.request.key q) || decide (2 ≤ s.domState (32 + q)) then false
  else match s.mode with
  | 4 | 5 => true
  | 6 => !(bitAt (s.rd RSP.MAINT_QUADS_QUADS) q && s.maint 13)
  | 10 => s.on GLB.POLICY_LOCKDOWN_SERVE && !nts
  | _ => false

end Sys2Proof.Machine
end

