-- ==== Sys2Proof/Machine/Ptp.lean ====
section
/-! DEFINITION. PTP: the checks and the handling of a message (R265, R266), the grant table (R271 to R274, R284), upstream
masters (R279 to R281), peer delay (R282), the message calendar (R275 to R278) and commit group PTP (R263, R264, R285). -/

namespace Sys2Proof.Machine

/-! ### Messages as bytes -/

/-- The length of a message type before its TLVs. -/
def ptpFixed (typ : Nat) : Nat :=
  match typ with | 0 | 1 | 8 | 0xC => 44 | 2 | 3 | 9 | 0xA => 54 | 0xB => 64 | 0xD => 48 | _ => 34

/-- A TLV: type, where its value begins, its length. -/
structure Tlv where
  typ : Nat
  off : Nat
  len : Nat
  deriving DecidableEq, Repr

/-- The TLVs of a message that ends at `stop`; none where one overruns it. -/
def tlvsFrom (p : List Byte) (stop : Nat) : Nat → Nat → Option (List Tlv)
  | 0, _ => none
  | fuel + 1, off =>
    if off = stop then some []
    else if stop < off + 4 then none
    else
      let n := beAt p (off + 2) 2
      if stop < off + 4 + n then none
      else (tlvsFrom p stop fuel (off + 4 + n)).map (fun r => ⟨beAt p off 2, off + 4, n⟩ :: r)

/-- The TLVs of a message R265 finds well formed; none for PTP_FORMAT. A message shorter than its type's fixed part is taken
as malformed (DEDUCED, log entry 24). -/
def ptpTlvs (p : List Byte) : Option (List Tlv) :=
  let len := beAt p 2 2
  let fix := ptpFixed (beAt p 0 1 % 16)
  if p.length < 34 ∨ beAt p 1 1 % 16 ≠ 2 ∨ 1 < beAt p 1 1 / 16 ∨ p.length < len ∨ len < fix then none
  else tlvsFrom p len (len + 1) fix

/-- A timestamp field as seconds, and nanoseconds. -/
def stampSec (p : List Byte) (off : Nat) : Nat := beAt p off 6
def stampNs (p : List Byte) (off : Nat) : Nat := beAt p (off + 6) 4
def corrOf (p : List Byte) : Int := toSigned 64 (beAt p 8 8)
def seqOf (p : List Byte) : Nat := beAt p 30 2
def senderOf (p : List Byte) : List Byte := (p.drop 20).take 10

/-- A packet that arrived for one receiver. -/
def Pkt.unicast (k : Pkt) : Bool := if k.v = 0 then castOf k.eth.dst == 0 else !ipMulti k.v k.dst

/-! ### The grant table (R271) -/

def dGrant : Nat → Grant := fun _ => ⟨false, 0, 0, 0, false, 0, [], 0, [], [], [], 0, [], 0, 0, 0⟩
def State.grantAt (s : State) (i : Nat) : Grant := Store.get dGrant s.ptp.grants i
def State.setGrant (s : State) (i : Nat) (g : Grant) : State :=
  { s with ptp := { s.ptp with grants := Store.put dGrant s.ptp.grants i g } }

/-- Grant `k` of an entry (0 Announce, 1 Sync, 2 Delay_Resp) is live. -/
def Grant.isLive (g : Grant) (sec k : Nat) : Bool := g.valid && bitAt g.live k && decide (sec < g.exps.getD k 0)
def Grant.inUse (g : Grant) (sec : Nat) : Bool := g.isLive sec 0 || g.isLive sec 1 || g.isLive sec 2
def Grant.owner (g : Grant) : List Byte := g.clockId ++ beBytes 2 g.portNum

/-- The first index of a candidate set: `inv` selects the one with the seed inverted. -/
def State.grantSet (s : State) (q d : Nat) (id : List Byte) (inv : Bool) : Nat :=
  let seed := if inv then 0xFFFFFFFF - s.nreg PTP.HASH_SEED else s.nreg PTP.HASH_SEED
  q * s.variant.grants + 8 * (crc32c (leBytes 4 seed ++ leBytes 1 d ++ id) % (s.variant.grants / 8))

def State.setWays (s : State) (q d : Nat) (id : List Byte) : List Nat :=
  let a := s.grantSet q d id false
  let b := s.grantSet q d id true
  (List.range 8).map (a + ·) ++ (List.range 8).map (b + ·)

/-- The entry a partner holds on a domain in a quad. -/
def State.findGrant (s : State) (q d : Nat) (id : List Byte) : Option Nat :=
  (s.setWays q d id).find? (fun i => let g := s.grantAt i
    g.valid && g.dom == d && g.owner == id)

/-- The way a new key takes: the lowest free one of the emptier set, the lower-numbered set on a tie. -/
def State.newWay (s : State) (q d : Nat) (id : List Byte) : Option Nat :=
  let sec := s.sec0
  let free := fun base => ((List.range 8).map (base + ·)).filter (fun i => !(s.grantAt i).inUse sec)
  let a := s.grantSet q d id false
  let b := s.grantSet q d id true
  let lo := min a b
  let hi := max a b
  if (free hi).length > (free lo).length then (free hi).head? else (free lo).head?

/-! ### Calendar rate (R284) -/

/-- One message every 2^`l` s, in units of 1/16 message/s. -/
def rate16 (l : Int) : Nat := if l ≤ 0 then 16 * 2 ^ l.natAbs else 16 / 2 ^ l.natAbs

def State.grantRate (s : State) (g : Grant) (k : Nat) : Nat :=
  if g.valid && bitAt g.live k then (if k = 0 then 1 else if k = 1 then (if s.domTwoStep g.dom then 2 else 1) else 0) * rate16 (g.logs.getD k 0)
  else 0

/-- The multicast rate of a quad, of the domains a reader of table words gives. -/
def mcastRate (v : Variant) (word : Nat → Nat) (q : Nat) : Nat :=
  ((List.range 64).map (fun d =>
    let w0 := word (domKey d 0)
    if bitAt w0 0 && bitAt w0 11 then
      let log := fun lo => toSigned 8 (bitsOf (word (domKey d 5)) lo 8)
      let r := (if bitAt w0 10 then 2 else 1) * rate16 (log 0) + rate16 (log 8)
      r * ((List.range 8).filter (fun k => decide (8 * q + k < v.lanes) && bitAt (word (domKey d 1)) (8 * q + k))).length
    else 0)).sum

def State.quadGrants (s : State) (q : Nat) : List Grant :=
  (s.ptp.grants.filter (fun e => decide (e.1 / s.variant.grants = q))).map (·.2)

def State.quadRate (s : State) (q : Nat) : Nat :=
  mcastRate s.variant s.nreg q + ((s.quadGrants q).map (fun g => s.grantRate g 0 + s.grantRate g 1)).sum

/-- `PTP.Q_GRANTS` and `PTP.Q_RATE` brought up to date. -/
def State.showGrants (s : State) (q : Nat) : State :=
  (s.wr (PTP.Q_GRANTS_USED q) ((s.quadGrants q).filter (·.valid)).length).setN (PTP.Q_RATE q) (s.quadRate q)

/-- An entry freed. -/
def State.freeGrant (s : State) (i : Nat) : State := (s.setGrant i (dGrant i)).showGrants (i / s.variant.grants)

/-! ### Unicast negotiation (R272, R273) -/

/-- The grant a messageType names. -/
def grantKind (m : Nat) : Option Nat := match m with | 0xB => some 0 | 0 => some 1 | 9 => some 2 | _ => none

def grantTlv (m : Nat) (log : Int) (dur : Nat) (renew : Nat) : List Byte :=
  beBytes 2 5 ++ beBytes 2 8 ++ beBytes 1 (m * 16) ++ beBytes 1 (ofSigned 8 log) ++ beBytes 4 dur ++ zeros 1 ++ beBytes 1 renew

def State.refuseGrant (s : State) (m : Nat) (log : Int) (q : Nat) (full : Bool) : State × List Byte :=
  let s1 := ((s.bump PTP.GRANT_REFUSED).sticky PTP.STICKY_GRANT_REFUSED).count 4 3 q
  let s2 := if full then
      (if s1.rd (PTP.Q_GRANTS_FULL q) < 255 then s1.bumpF (PTP.Q_GRANTS_FULL q) else s1).sticky PTP.STICKY_GRANT_FULL
    else s1
  (s2, grantTlv m log 0 (s2.rd PTP.CTRL_RENEW_INV))

/-- An entry for a new partner: its addresses as its request carried them. PHASE is drawn at random (R275). -/
def State.newGrant (s : State) (j : Job) (k : Pkt) (d : Nat) (id : List Byte) : State × Grant :=
  let r := s.draw
  (r.2, ⟨true, d, j.port, if k.v = 4 then 1 else if k.v = 6 then 2 else 0, !k.eth.tags.isEmpty,
    (match k.eth.tags.head? with | some t => t.2 % 4096 | none => 0), id.take 8, beAt id 8 2, fit 16 k.src, k.eth.src, [0, 0, 0], 0,
    [0, 0, 0], 0, 0, r.1 % 2 ^ 20⟩)

/-- One REQUEST_UNICAST_TRANSMISSION TLV (R272): the GRANT TLV that answers it. -/
def State.grantOne (s : State) (j : Job) (k : Pkt) (d : Nat) (p : List Byte) (t : Tlv) : State × List Byte :=
  let m := beAt p t.off 1 / 16
  let log := toSigned 8 (beAt p (t.off + 1) 1)
  let dur := beAt p (t.off + 2) 4
  let q := j.quad
  let id := senderOf p
  match grantKind m with
  | none => s.refuseGrant m log q false
  | some kind =>
    if log < s.domI d 7 0 ∨ dur = 0 then s.refuseGrant m log q false
    else
      let l := min log (s.domI d 7 8)
      let n := min dur (s.dom d 7 16 16)
      let old := s.findGrant q d id
      match (match old with | some i => some i | none => s.newWay q d id) with
      | none => s.refuseGrant m log q true
      | some i =>
        let made := match old with | some _ => (s, s.grantAt i) | none => s.newGrant j k d id
        let g := made.2
        let g1 := { g with live := withBits g.live kind 1 1, logs := g.logs.set kind l, exps := g.exps.set kind (s.sec0 + n) }
        let rest := match old with
          | some _ => s.quadRate q - s.grantRate g kind
          | none => s.quadRate q - s.grantRate (s.grantAt i) 0 - s.grantRate (s.grantAt i) 1
        if kind < 2 ∧ 16 * s.variant.calShare < rest + s.grantRate g1 kind then s.refuseGrant m log q false
        else
          let s1 := (((made.1.setGrant i g1).showGrants q).bump PTP.GRANTS_ISSUED).count 4 2 q
          let from0 := s1.tsNow (s1.domTs d)
          let hs := s1.ptp.handed.filter (fun e => e.1 != .grant i true && e.1 != .grant i false)
          let s2 := match old with
            | some _ => s1
            | none => { s1 with ptp := { s1.ptp with handed := (.grant i true, from0) :: (.grant i false, from0) :: hs } }
          (s2, grantTlv m l n (s2.rd PTP.CTRL_RENEW_INV))

/-- One CANCEL_UNICAST_TRANSMISSION TLV (R273): the acknowledgement. -/
def State.cancelOne (s : State) (q d : Nat) (p : List Byte) (t : Tlv) : State × List Byte :=
  let b := beAt p t.off 1
  let s1 := s.bump PTP.CANCELS_RX
  let ack := beBytes 2 7 ++ beBytes 2 2 ++ beBytes 1 (b / 16 * 16) ++ zeros 1
  match grantKind (b / 16), s1.findGrant q d (senderOf p) with
  | some kind, some i =>
    let g := s1.grantAt i
    ((s1.setGrant i { g with live := withBits g.live kind 1 0 }).showGrants q, ack)
  | _, _ => (s1, ack)

/-- The TLVs of a Signaling message answered in order. -/
def State.negotiate (s : State) (j : Job) (k : Pkt) (d : Nat) (p : List Byte) (ts : List Tlv) : State × List Byte :=
  ts.foldl (fun acc t =>
    let r := if t.typ = 4 then acc.1.grantOne j k d p t else acc.1.cancelOne j.quad d p t
    (r.1, acc.2 ++ r.2)) (s, [])

/-! ### Upstream masters (R279 to R281) -/

def dUpS : Nat → UpS := fun _ => ⟨none, none, [], [], 0, 0, none, [⟨0, 0⟩, ⟨0, 0⟩, ⟨0, 0⟩], 0, 0⟩
def State.upS (s : State) (u : Nat) : UpS := Store.get dUpS s.ptp.ups u
def State.setUpS (s : State) (u : Nat) (x : UpS) : State := { s with ptp := { s.ptp with ups := Store.put dUpS s.ptp.ups u x } }
def dPdS : Nat → PdS := fun _ => ⟨0, 0, none, none, none, 0, false, []⟩
def State.pdS (s : State) (p : Nat) : PdS := Store.get dPdS s.ptp.pds p
def State.setPdS (s : State) (p : Nat) (x : PdS) : State := { s with ptp := { s.ptp with pds := Store.put dPdS s.ptp.pds p x } }

def State.upMaster (s : State) (u : Nat) : List Byte :=
  leBytes 4 (s.nreg (PTP.UP_MASTER_LO u)) ++ leBytes 4 (s.nreg (PTP.UP_MASTER_HI u)) ++ beBytes 2 (s.nreg (PTP.UP_MASTER_PORT u))

/-- The enabled upstream whose master sent a message to a domain on a port. -/
def State.upOf (s : State) (port d : Nat) (id : List Byte) : Option Nat :=
  firstIdx 4 (fun u => s.on (PTP.UP_CFG_EN u) && s.rd (PTP.UP_CFG_PORT u) == port && s.rd (PTP.UP_CFG_DOMAIN u) == d
    && (bitAt (s.nreg (PTP.UP_MASTER_PORT u)) 16 || s.upMaster u == id))

/-- A timestamp field as a value of timescale 0: its seconds take the upper bits that put it nearest to timescale 0. -/
def State.extStamp (s : State) (sec ns : Nat) : Int :=
  let now : Int := s.sec0
  let k := roundDiv (now - (sec : Int)) (2 ^ 48)
  ((sec : Int) + k * 2 ^ 48) * (qSec : Nat) + (ns * 65536 : Nat)

/-- The mean path delay of an upstream in q: the mean over its exchanges, or the port's peer delay (R281, R282). -/
def meanHalf (xs : List Int) : Option Int := if xs.isEmpty then none else some (roundDiv xs.sum (2 * xs.length))
def State.portMpd (s : State) (p : Nat) : Option Int := meanHalf (s.pdS p).vals
def State.upMpd (s : State) (u : Nat) : Option Int :=
  if p2pProfile (s.domProfile (s.rd (PTP.UP_CFG_DOMAIN u))) then s.portMpd (s.rd (PTP.UP_CFG_PORT u))
  else meanHalf ((s.upS u).exch.take (2 ^ s.rd (PTP.UP_CFG_DELAY_AVG u)))

/-- `PTP.UP_MPD` and MPD_VALID. -/
def State.showMpd (s : State) (u : Nat) : State :=
  match s.upMpd u with
  | some m => (s.setN (PTP.UP_MPD u) (ofSigned 32 (roundDiv m 256))).wr (PTP.UP_STAT_MPD_VALID u) 1
  | none => s.wr (PTP.UP_STAT_MPD_VALID u) 0

/-- A PTP_MEAS event (R282). -/
def measEvent (t1 t2 t3 t4 : Nat) (kind index seq : Nat) (mpd phi : Int) (flags : Nat) : List Byte :=
  leBytes 12 t1 ++ leBytes 12 t2 ++ leBytes 12 t3 ++ leBytes 12 t4 ++ leBytes 1 kind ++ leBytes 1 index ++ leBytes 2 seq
    ++ leBytes 4 (ofSigned 32 (roundDiv mpd 256)) ++ leBytes 4 (ofSigned 32 (roundDiv phi 256)) ++ leBytes 1 flags ++ zeros 3

/-- The logMessageInterval of an upstream's message; 0x7F, which unicast messages may carry, stands for the interval asked for. -/
def State.upInterval (s : State) (u typ : Nat) (p : List Byte) : Int :=
  let l := toSigned 8 (beAt p 33 1)
  if l = 127 then s.upLog u typ else l

/-- A Sync whose t1 is known: φ goes to REF once there is an MPD (R281). -/
def State.upSync (s : State) (u seq : Nat) (t1 : Int) (t2 : Nat) (two : Bool) (interval : Nat) : State :=
  let fwd := (t2 : Int) - t1
  let s1 := s.setUpS u { s.upS u with fwd := some fwd, sync := none }
  match s1.upMpd u with
  | none => s1
  | some mpd =>
    let phi := mpd + s1.sreg (PTP.UP_ASYM u) * 256 - fwd
    let s2 := (s1.showMpd u).bumpF (PTP.UP_STAT_SAMPLES u)
    let s3 := s2.setUpq u { s2.upq u with syncRaw := s2.raw, syncInt := interval }
    let s4 := match s3.slotBound 2 u with
      | some n => s3.measure n ⟨t2, phi, s3.raw⟩ phi false
      | none => s3
    if s4.on PTP.EVENT_CFG_UP_EVENTS then
      let x := s4.upS u
      s4.postNoted (s4.rd PTP.EVENT_CFG_RING) 10 (measEvent (ofSigned 96 t1) t2 x.t3 x.t4 0 u seq mpd phi (b2n two))
    else s4

/-- A Sync of an upstream. -/
def State.upTakeSync (s : State) (u : Nat) (j : Job) (p : List Byte) : State :=
  let two := bitAt (beAt p 6 1) 1
  let t2 := s.rxStamp j 0
  let s1 := s.wrB (PTP.UP_STAT_TWO_STEP u) two
  if two then s1.setUpS u { s1.upS u with sync := some (seqOf p, t2, corrOf p) }
  else s1.upSync u (seqOf p) (s1.extStamp (stampSec p 34) (stampNs p 34) + corrOf p) t2 false (pow2Sec (s1.upInterval u 1 p))

def State.upTakeFollow (s : State) (u : Nat) (p : List Byte) : State :=
  match (s.upS u).sync with
  | some (seq, t2, c) =>
    if seq = seqOf p then
      s.upSync u seq (s.extStamp (stampSec p 34) (stampNs p 34) + corrOf p + c) t2 true (pow2Sec (s.upInterval u 1 p))
    else s
  | none => s

/-- A Delay_Resp: the exchange it completes, or UNMATCHED. -/
def State.upTakeResp (s : State) (u : Nat) (p : List Byte) : State :=
  let x := s.upS u
  let own := (p.drop 44).take 10 == s.ownPort (s.rd (PTP.UP_CFG_DOMAIN u)) (s.rd (PTP.UP_CFG_PORT u))
  match x.dreqs.find? (fun r => own && r.seqId == seqOf p && r.t3.isSome && decide (s.raw ≤ r.raw + qSec)) with
  | none => if s.rd (PTP.UP_STAT_UNMATCHED u) < 255 then s.bumpF (PTP.UP_STAT_UNMATCHED u) else s
  | some r =>
    let t3 := r.t3.getD 0
    let t4 := s.extStamp (stampSec p 34) (stampNs p 34) - corrOf p
    let y := { x with dreqs := x.dreqs.filter (fun z => z.seqId != r.seqId), t3 := t3, t4 := ofSigned 96 t4 }
    let z := match r.fwd with
      | some f => { y with exch := ((f + (t4 - (t3 : Int))) :: y.exch).take 128 }
      | none => y
    (s.setUpS u z).showMpd u

/-- An accepted Announce (R106, R107, R279). -/
def State.upTakeAnn (s : State) (u : Nat) (p : List Byte) : State :=
  let wait := s.rd (PTP.UP_CFG_ANN_TO u) * pow2Sec (s.upInterval u 0 p)
  let s1 := (s.setUpS u { s.upS u with ann := some p }).wr (PTP.UP_STAT_ANN_OK u) 1
  s1.setUpq u { s1.upq u with cls := beAt p 48 1, acc := beAt p 49 1, var := beAt p 50 2, tai := bitAt (beAt p 7 1) 3,
                              annUntil := s1.raw + wait }

/-- The two-second retry of R280. -/
def State.setNego (s : State) (u typ : Nat) (n : Nego) : State :=
  s.setUpS u { s.upS u with nego := (s.upS u).nego.set typ n }
def State.upGranted (s : State) (u typ : Nat) (b : Bool) : State := s.wrB ⟨PTP.UP_STAT u, typ, 1⟩ b

/-- A GRANT or CANCEL TLV from an upstream's master: what it grants us. -/
def State.upTlv (s : State) (u : Nat) (p : List Byte) (t : Tlv) : State :=
  match grantKind (beAt p t.off 1 / 16) with
  | none => s
  | some typ =>
    let dur := if t.typ = 5 then beAt p (t.off + 2) 4 else 0
    if dur = 0 then ((s.upGranted u typ false).setNego u typ ⟨s.raw + 2 * qSec, 0⟩).sticky PTP.STICKY_UP_LOST
    else (s.upGranted u typ true).setNego u typ ⟨s.raw + dur * qSec / 2, s.raw + dur * qSec⟩

/-! ### Peer delay (R282) -/

/-- The lowest-numbered enabled P2P domain served on a port. -/
def State.pdDom (s : State) (p : Nat) : Option Nat :=
  firstIdx 64 (fun d => s.domEn d && p2pProfile (s.domProfile d) && s.domOnPort d p)

/-- The four stamps are in: the delay joins the last eight, and the event is written. -/
def State.pdDone (s : State) (p : Nat) (t2 t3 : Int) (two : Bool) : State :=
  let x := s.pdS p
  let t1 := x.t1.getD 0
  let t4 := x.t4.getD 0
  let twice := ((t4 : Int) - (t1 : Int)) - (t3 - t2) - x.corr
  let s1 := s.setPdS p { x with vals := (twice :: x.vals).take 8, t1 := none, t2 := none, t4 := none, wait := false }
  s1.postNoted (s1.rd PTP.EVENT_CFG_RING) 10
    (measEvent t1 (ofSigned 96 t2) (ofSigned 96 t3) t4 1 p x.seqId ((s1.portMpd p).getD 0) 0 (b2n two))

/-- Whether a Pdelay_Resp or its Follow_Up answers the Pdelay_Req under way on a port. -/
def State.pdAnswers (s : State) (p d : Nat) (m : List Byte) : Bool :=
  let x := s.pdS p
  x.t1.isSome && x.seqId == seqOf m && (m.drop 44).take 10 == s.ownPort d p && (beAt m 0 1 % 16 == 3 || x.wait)

def State.pdTakeResp (s : State) (j : Job) (m : List Byte) : State :=
  let x := s.pdS j.port
  let t2 := s.extStamp (stampSec m 34) (stampNs m 34)
  let y := { x with t4 := some (s.rxStamp j 0), corr := corrOf m, t2 := some (ofSigned 96 t2), wait := true }
  if bitAt (beAt m 6 1) 1 then s.setPdS j.port y
  else (s.setPdS j.port { y with corr := 0 }).pdDone j.port 0 (corrOf m) false

def State.pdTakeFollow (s : State) (p : Nat) (m : List Byte) : State :=
  let x := s.pdS p
  (s.setPdS p { x with corr := x.corr + corrOf m }).pdDone p ((x.t2.getD 0 : Nat) : Int) (s.extStamp (stampSec m 34) (stampNs m 34)) true

/-! ### What the quads do with a message (R265, R266) -/

inductive PtpOut
  | sump (reason : Nat)
  | decline
  | slow
  | consume
  | reply (w : What)
  deriving DecidableEq, Repr

/-- The Sump reason of a message, in the order of R265. A message of an enabled upstream's master needs no domain that serves
(R279). -/
def State.ptpFault (s : State) (j : Job) (k : Pkt) (d : Nat) (up : Bool) : Option Nat :=
  let p := k.body
  if (ptpTlvs p).isNone then some 0x0E
  else if (!up && (!s.domEn d || !s.domOnPort d j.port)) || beAt p 4 1 != s.dom d 0 24 8 || beAt p 0 1 / 16 != s.dom d 4 16 4
      || beAt p 5 1 != s.dom d 4 24 8 then some 0x0C
  else if beAt p 0 1 % 16 == 1 && k.unicast && s.dom d 0 13 1 == 1 then
    match s.findGrant j.quad d (senderOf p) with
    | some i => if (s.grantAt i).isLive s.sec0 2 then none else some 0x0D
    | none => some 0x0D
  else none

/-- R266 for a message that passes R265. -/
def State.ptpTake (s : State) (j : Job) (k : Pkt) (d : Nat) (up : Option Nat) (tlvs : List Tlv) : State × PtpOut :=
  let p := k.body
  let typ := beAt p 0 1 % 16
  let all := fun (f : Nat → Bool) => tlvs.all (fun t => f t.typ)
  let f := s.domProfile d
  if typ = 0xC then
    match up with
    | some u =>
      if s.on (PTP.UP_CFG_MODE u) && !tlvs.isEmpty && all (fun t => t == 5 || t == 6) then
        let s1 := tlvs.foldl (fun t x => t.upTlv u p x) s
        let acks := (tlvs.filter (fun x => x.typ == 6)).flatMap (fun x =>
          beBytes 2 7 ++ beBytes 2 2 ++ beBytes 1 (beAt p x.off 1 / 16 * 16) ++ zeros 1)
        (s1, if acks.isEmpty then .consume else .reply (.signaling acks))
      else if !tlvs.isEmpty && all (· == 7) then (s, .consume) else (s, .decline)
    | none =>
      if tlvs.isEmpty then (s, .decline)
      else if all (· == 7) then (s, .consume)
      else if s.dom d 0 12 1 = 1 && decide (tlvs.length ≤ 4) && all (fun t => t == 4 || t == 6) then
        let r := s.negotiate j k d p tlvs
        (r.1, .reply (.signaling r.2))
      else (s, .decline)
  else if !tlvs.isEmpty then (s, .decline)
  else
    match typ, up with
    | 1, _ => if p2pProfile f then (s, .decline) else (s, .reply .delayResp)
    | 2, _ => if p2pProfile f then (s, .reply .pdelayResp) else (s, .decline)
    | 3, _ => if s.pdAnswers j.port d p then (s.pdTakeResp j p, .consume) else (s, .decline)
    | 0xA, _ => if s.pdAnswers j.port d p then (s.pdTakeFollow j.port p, .consume) else (s, .decline)
    | 0, some u => (s.upTakeSync u j p, .consume)
    | 8, some u => (s.upTakeFollow u p, .consume)
    | 9, some u => (s.upTakeResp u p, .consume)
    | 0xB, some u => (s.upTakeAnn u p, if s.on (PTP.UP_CFG_ANN_TO_HOST u) then .slow else .consume)
    | _, _ => (s, .decline)

/-- Whether a message type is one an upstream's master sends us. -/
def upType (t : Nat) : Bool := t == 0 || t == 8 || t == 9 || t == 0xB || t == 0xC

/-- A PTP message at stage 4 (R265, R266). -/
def State.ptpHandle (s : State) (j : Job) (k : Pkt) (d : Nat) : State × PtpOut :=
  let up := if upType (beAt k.body 0 1 % 16) then s.upOf j.port d (senderOf k.body) else none
  match s.ptpFault j k d up.isSome with
  | some r => (s, .sump r)
  | none => s.ptpTake j k d up ((ptpTlvs k.body).getD [])

/-! ### Where messages go -/

/-- The multicast MAC and IP address of a message of a domain over IP version `v`. PRESUMED (log entry 23) from IEEE 1588
where R264 gives none. -/
def State.castGroup (s : State) (d v : Nat) (pdelay : Bool) : List Byte × List Byte :=
  if v = 4 then
    (if pdelay then (beBytes 6 0x01005E00006B, beBytes 4 0xE000006B) else (beBytes 6 0x01005E000181, beBytes 4 0xE0000181))
  else if v = 6 then
    (if pdelay then (beBytes 6 0x33330000006B, beBytes 16 (0xFF02 * 2 ^ 112 + 0x6B))
     else (beBytes 6 0x333300000181, beBytes 16 (0xFF0E * 2 ^ 112 + 0x181)))
  else
    let near := s.domProfile d == 6 || (s.domProfile d == 4 && s.on PTP.CTRL_G82751_MAC) || pdelay
    (beBytes 6 (if near then 0x0180C200000E else 0x011B19000000), [])

/-- A source address where the template gives none: the manual leaves it open, so it is a free value. -/
def State.msgSource (s : State) (b i v : Nat) : State × List Byte :=
  match s.override b i v with
  | some a => (s, a)
  | none =>
    if v = 0 then (s, [])
    else
      let r := s.free
      (r.2, leBytes (if v = 4 then 4 else 16) r.1)

/-- A message put into a frame and handed to stage 4; its reservation is asked for at once. `dst` is MAC, IP address and tags. -/
def State.sendMsg (s : State) (j0 : Job) (d v : Nat) (dst : List Byte × List Byte × List (Nat × Nat)) (uni event : Bool)
    (req : List Byte) : State :=
  let b := s.rd RSP.STAT_BANK
  let i := s.domTpl d
  let src := s.msgSource b i v
  let j1 := { j0 with bank := b, lead := s.domLead d }
  let pn := if event then 319 else 320
  let o := src.1.frameTo b i v dst.1 dst.2.2 src.2 dst.2.1 pn pn (src.1.ptpBody j1 uni req)
  let s1 := (src.1.issue .buffer j1.quad 1).slotIssued j1.quad
  let id := s1.rsp.nextId
  (s1.addJob { j1 with out := some o, slotted := true }).askSlot { j1 with id := id, out := some o, slotted := true }

/-! ### The message calendar (R275, R276) -/

/-- What the calendar needs of a source while it runs: domain, port, timescale, lead, interval in q and offset. -/
structure CalInfo where
  dom : Nat
  port : Nat
  ts : Nat
  per : Nat
  off : Nat
  deriving DecidableEq, Repr

def State.calInfo (s : State) (src : CalSrc) : Option CalInfo :=
  match src with
  | .mcast d p ann =>
    if s.domEn d && s.dom d 0 11 1 == 1 && s.domOnPort d p && s.portPresent p
        && (s.domProfile d != 6 || bitAt (s.nreg PTP.AS_CAPABLE) p) then
      some ⟨d, p, s.domTs d, pow2Sec (s.domI d 5 (if ann then 8 else 0)), 0⟩
    else none
  | .grant i ann =>
    let g := s.grantAt i
    let k := if ann then 0 else 1
    if g.valid && bitAt g.live k && s.domEn g.dom then
      let per := pow2Sec (g.logs.getD k 0)
      some ⟨g.dom, g.port, s.domTs g.dom, per, g.phase * per * 10 ^ 6 / (qSec * 2 ^ 20) * 1000 * qNs⟩
    else none
  | .dreq u =>
    let d := s.rd (PTP.UP_CFG_DOMAIN u)
    if s.on (PTP.UP_CFG_EN u) && !p2pProfile (s.domProfile d) then
      some ⟨d, s.rd (PTP.UP_CFG_PORT u), s.domTs d, pow2Sec (s.upLog u 2), 0⟩
    else none
  | .pdelay p =>
    match s.pdDom p with
    | some d => if s.on PTP.CTRL_PDELAY_EN && s.portPresent p then some ⟨d, p, s.domTs d, pow2Sec (s.domI d 5 24), 0⟩ else none
    | none => none

/-- The latest due time of a source at or before a value of its timescale. -/
def CalInfo.dueBy (c : CalInfo) (v : Nat) : Option Nat :=
  if c.per = 0 ∨ v < c.off then none else some ((v - c.off) / c.per * c.per + c.off)

/-- Up to which value of its timescale the due times of a source have been handed off or passed over. -/
def State.handedTo (s : State) (src : CalSrc) (dflt : Nat) : Nat :=
  match s.ptp.handed.find? (fun e => e.1 == src) with | some e => e.2 | none => dflt
def State.setHanded (s : State) (src : CalSrc) (v : Nat) : State :=
  { s with ptp := { s.ptp with handed := (src, v) :: s.ptp.handed.filter (fun e => e.1 != src) } }

/-- The value of a source's timescale up to which due times are handed off now: a lead and 400 ns ahead. -/
def State.horizon (s : State) (c : CalInfo) : Nat := s.tsNow c.ts + (s.domLead c.dom + 400) * qNs

/-- What a source sends: its message, whether it is an event message, and the state with its sequenceId taken. -/
def State.calWhat (s : State) (src : CalSrc) (c : CalInfo) : State × What × Nat × Bool :=
  match src with
  | .mcast d p ann =>
    let k := 2 * (32 * d + p) + b2n ann
    let n := Store.get zNat s.ptp.seqs k
    let s1 := { s with ptp := { s.ptp with seqs := Store.put zNat s.ptp.seqs k ((n + 1) % 2 ^ 16) } }
    (s1, if ann then .announce d none else .sync d none, n, !ann)
  | .grant i ann =>
    let g := s.grantAt i
    if ann then (s.setGrant i { g with seqAnn := (g.seqAnn + 1) % 2 ^ 16 }, .announce c.dom (some (g.logs.getD 0 0)), g.seqAnn, false)
    else (s.setGrant i { g with seqSync := (g.seqSync + 1) % 2 ^ 16 }, .sync c.dom (some (g.logs.getD 1 0)), g.seqSync, true)
  | .dreq u =>
    let x := s.upS u
    let r : DreqP := ⟨x.dreqSeq, none, s.raw, x.fwd⟩
    (s.setUpS u { x with dreqSeq := (x.dreqSeq + 1) % 2 ^ 16,
                         dreqs := r :: x.dreqs.filter (fun z => decide (s.raw ≤ z.raw + 2 * qSec)) }, .delayReq u, x.dreqSeq, true)
  | .pdelay p =>
    let x := s.pdS p
    (s.setPdS p { x with nextSeq := (x.nextSeq + 1) % 2 ^ 16, seqId := x.nextSeq, t1 := none, t2 := none, t4 := none, corr := 0,
                         wait := false }, .pdelayReq c.dom, x.nextSeq, true)

/-- The address of an upstream's master (table 2), over the domain's transport. -/
def State.upDest (s : State) (u : Nat) : Nat × List Byte × List Byte × List (Nat × Nat) :=
  let w := fun i => s.nreg (Tbl.ptpDomains.key (512 + 8 * u + i))
  let v := verOf (s.domTransport (s.rd (PTP.UP_CFG_DOMAIN u)))
  (v, leBytes 4 (w 0) ++ leBytes 2 (w 1), ((List.range 4).flatMap (fun i => leBytes 4 (w (2 + i)))).take (if v = 4 then 4 else if v = 6 then 16 else 0),
    if bitAt (w 6) 0 then [(0x8100, bitsOf (w 6) 4 12)] else [])

/-- Where a source's messages go: IP version, addresses, and whether to one partner. -/
def State.calDest (s : State) (src : CalSrc) (c : CalInfo) : Nat × (List Byte × List Byte × List (Nat × Nat)) × Bool :=
  let v := verOf (s.domTransport c.dom)
  let group := fun pd => let g := s.castGroup c.dom v pd
    (v, (g.1, g.2, []), false)
  match src with
  | .grant i _ =>
    let g := s.grantAt i
    let w := verOf g.transport
    (w, (g.mac, g.addr.take (if w = 4 then 4 else if w = 6 then 16 else 0), if g.tagged then [(0x8100, g.vid)] else []), true)
  | .dreq u =>
    if s.on (PTP.UP_CFG_MODE u) then
      let a := s.upDest u
      (a.1, a.2, true)
    else group false
  | .pdelay _ => group true
  | .mcast _ _ _ => group false

/-- Whether a grant runs out by a due time. -/
def State.dueExpired (s : State) (src : CalSrc) (c : CalInfo) (due : Nat) : Bool :=
  match src with
  | .grant i ann =>
    let at0 := s.tsNow 0 + due - s.tsNow c.ts
    !(s.grantAt i).isLive (at0 / qSec) (if ann then 0 else 1)
  | _ => false

/-- A message handed to stage 4 at D − LEAD_NS − 400 ns (R276). -/
def State.handoff (s : State) (src : CalSrc) : State :=
  match s.calInfo src with
  | none => s
  | some c =>
    match c.dueBy (s.horizon c) with
    | none => s
    | some due =>
      if due ≤ s.handedTo src (s.tsNow c.ts) then s
      else
        let s1 := s.setHanded src due
        if !s1.modeServes (c.port / 8) false || s1.dueExpired src c due then s1
        else
          let w := s1.calWhat src c
          let dst := w.1.calDest src c
          let late := w.1.rd PTP.CTRL_LATE_US
          let stampTs := match src with | .dreq _ | .pdelay _ => 0 | _ => c.ts
          (w.1.count 4 1 (c.port / 8)).sendMsg
            { blankJob c.port with what := some w.2.1, seqId := w.2.2.1, ts := stampTs, due := some (c.ts, due, some late) }
            c.dom dst.1 dst.2.1 dst.2.2 w.2.2.2 []

def execCalendarHandoff (src : CalSrc) (t : Nat) (s : State) : Host.Outcome State Fault Refusal := .next ((s.advance t).handoff src)

/-- Due times of a source between two values of its timescale. -/
def CalInfo.between (c : CalInfo) (lo hi : Nat) : Nat :=
  if c.per = 0 ∨ hi ≤ lo then 0 else (hi + c.per - c.off % c.per) / c.per - (lo + c.per - c.off % c.per) / c.per

/-- CAL_MISSED, `n` more (R277, R278). -/
def State.calMissed (s : State) (p : Nat) (n : Nat := 1) : State :=
  if n = 0 then s else ((s.bump PTP.CAL_MISSED n).sticky PTP.STICKY_CAL_MISSED).count 4 4 (p / 8) n

/-- The sources that may run. -/
def State.calSources (s : State) : List CalSrc :=
  ((List.range 64).filter s.domEn).flatMap (fun d => (List.range 32).flatMap (fun p =>
      if s.domOnPort d p then [CalSrc.mcast d p true, CalSrc.mcast d p false] else []))
    ++ s.ptp.grants.flatMap (fun e => [CalSrc.grant e.1 true, CalSrc.grant e.1 false])
    ++ (List.range 4).map CalSrc.dreq ++ (List.range 32).map CalSrc.pdelay

/-- A step of timescale `n` has just moved the wheel from where it stood in `old` (R278). -/
def State.calStepped (s old : State) (n : Nat) : State :=
  s.calSources.foldl (fun t src =>
    match t.calInfo src with
    | none => t
    | some c =>
      if c.ts ≠ n ∧ !(n == 0 && t.follows c.ts) then t
      else
        let from0 := max (t.handedTo src (old.horizon c)) (min (old.horizon c) (t.horizon c))
        let upTo := t.horizon c
        if upTo ≤ from0 then t else (t.calMissed c.port (c.between from0 upTo)).setHanded src upTo) s

/-! ### Ends of grants (R273, R274) -/

/-- A grant ends: its rate leaves the sum. -/
def execGrantExpiry (idx typ t : Nat) (s0 : State) : Host.Outcome State Fault Refusal :=
  let s := s0.advance t
  let g := s.grantAt idx
  .next (if g.valid && decide (typ < 3) && bitAt g.live typ && decide (g.exps.getD typ 0 ≤ s.sec0) then
      (s.setGrant idx { g with live := withBits g.live typ 1 0 }).showGrants (idx / s.variant.grants)
    else s)

/-- The scrubber visits an entry; the pass is counted at the last one. -/
def execGrantScrubVisit (idx t : Nat) (s0 : State) : Host.Outcome State Fault Refusal :=
  let s := s0.advance t
  let g := s.grantAt idx
  let s1 := if g.valid && !g.inUse s.sec0 then (s.freeGrant idx).bumpF ⟨PTP.GRANT_SCRUB, 16, 16⟩ else s
  .next (if idx = 262143 then s1.bumpF ⟨PTP.GRANT_SCRUB, 0, 16⟩ else s1)

/-- A CANCEL_UNICAST_TRANSMISSION for one live grant of an entry. -/
def State.sendCancel (s : State) (i k : Nat) : State :=
  let g := s.grantAt i
  let r := s.free
  let w := verOf g.transport
  let tlv := g.owner ++ beBytes 2 6 ++ beBytes 2 2 ++ beBytes 1 (grantMsg k * 16) ++ zeros 1
  r.2.sendMsg { blankJob g.port with what := some (.cancelGrant g.dom tlv), seqId := r.1 % 2 ^ 16, ts := s.domTs g.dom,
                                     te := s.raw + s.domLead g.dom * qNs, tl := s.raw + 1000000 * qNs }
    g.dom w (g.mac, g.addr.take (if w = 4 then 4 else if w = 6 then 16 else 0), if g.tagged then [(0x8100, g.vid)] else []) true false []

/-- OP 2 on one entry. -/
def State.cancelEntry (s : State) (i : Nat) : State :=
  let g := s.grantAt i
  ((List.range 3).foldl (fun t k => if g.isLive s.sec0 k then t.sendCancel i k else t) s).freeGrant i

/-- `PTP.GRANT_CMD` after a GO. -/
def State.grantStatus (s : State) (idx op code : Nat) : State :=
  let s1 := s.setN PTP.GRANT_CMD (idx % 2 ^ 18 + 2 ^ 18 * (op % 4) + 2 ^ 24 * code)
  if code = stREFUSED then s1.refuseCfg .ptp else s1

/-- A GO of `PTP.GRANT_CMD` by master `m`: a denied one completes DENIED (R36). -/
def State.grantCmd (s : State) (m idx op : Nat) (f : State → State × Nat) : State :=
  match s.access m PTP.GRANT_CMD .write with
  | .granted => let r := f s
    r.1.grantStatus idx op r.2
  | .denied => (s.deny m 14 .write).wr PTP.GRANT_CMD_STATUS stDENIED
  | _ => s

/-- The code of OP 1 and OP 2 on an entry. -/
def State.entryCode (s : State) (i : Nat) : Nat :=
  if !s.quadPresent (i / s.variant.grants) then stREFUSED else if (s.grantAt i).valid then stOK else stZERO_LEN

def execGrantFree (m idx t : Nat) (s0 : State) : Host.Outcome State Fault Refusal :=
  .next ((s0.advance t).grantCmd m idx 1 (fun s =>
    let i := idx % 2 ^ 18
    (if s.entryCode i = stOK then s.freeGrant i else s, s.entryCode i)))

def execGrantCancel (m idx t : Nat) (s0 : State) : Host.Outcome State Fault Refusal :=
  .next ((s0.advance t).grantCmd m idx 2 (fun s =>
    let i := idx % 2 ^ 18
    (if s.entryCode i = stOK then s.cancelEntry i else s, s.entryCode i)))

def execGrantCancelDomain (m dom t : Nat) (s0 : State) : Host.Outcome State Fault Refusal :=
  .next ((s0.advance t).grantCmd m dom 3 (fun s =>
    let es := (s.ptp.grants.filter (fun e => e.2.valid && e.2.dom == dom % 64)).map (·.1)
    (es.foldl (fun u i => u.cancelEntry i) s, if es.isEmpty then stZERO_LEN else stOK)))

def execGrantCmdNone (m idx t : Nat) (s0 : State) : Host.Outcome State Fault Refusal :=
  .next ((s0.advance t).grantCmd m idx 0 (fun s => (s, stREFUSED)))

/-! ### What an upstream is asked for (R280) -/

/-- A REQUEST_UNICAST_TRANSMISSION to upstream `u`. -/
def State.upAsk (s : State) (u typ : Nat) : State :=
  let d := s.rd (PTP.UP_CFG_DOMAIN u)
  let x := s.upS u
  let n := (x.nego.getD typ ⟨0, 0⟩)
  let s1 := s.setUpS u { x with sigSeq := (x.sigSeq + 1) % 2 ^ 16, nego := x.nego.set typ { n with due := s.raw + 2 * qSec } }
  let a := s1.upDest u
  if !s1.modeServes (s1.rd (PTP.UP_CFG_PORT u) / 8) false then s1
  else
    s1.sendMsg { blankJob (s1.rd (PTP.UP_CFG_PORT u)) with
        what := some (.upRequest u typ), seqId := x.sigSeq, ts := s1.domTs d, te := s1.raw + s1.domLead d * qNs,
        tl := s1.raw + 1000000 * qNs } d a.1 a.2 true false []

/-- Whether upstream `u` negotiates grant `typ`, and whether the grant is held. -/
def State.upAsks (s : State) (u typ : Nat) : Bool := decide (u < 4) && decide (typ < 3) && s.on (PTP.UP_CFG_EN u) && s.on (PTP.UP_CFG_MODE u)
def State.upHolds (s : State) (u typ : Nat) : Bool := s.on ⟨PTP.UP_STAT u, typ, 1⟩
def State.negoOf (s : State) (u typ : Nat) : Nego := (s.upS u).nego.getD typ ⟨0, 0⟩

def execUpstreamRenew (u typ t : Nat) (s0 : State) : Host.Outcome State Fault Refusal :=
  let s := s0.advance t
  .next (if s.upAsks u typ && s.upHolds u typ && decide ((s.negoOf u typ).due ≤ s.raw) && decide (s.raw < (s.negoOf u typ).exp) then s.upAsk u typ
    else s)

/-- A retry; a grant that ran out unrenewed is lost first. -/
def execUpstreamRetry (u typ t : Nat) (s0 : State) : Host.Outcome State Fault Refusal :=
  let s := s0.advance t
  .next (if !s.upAsks u typ then s
    else
      let n := s.negoOf u typ
      let s1 := if s.upHolds u typ && decide (n.exp ≤ s.raw) then (s.upGranted u typ false).sticky PTP.STICKY_UP_LOST else s
      if !s1.upHolds u typ && decide (n.due ≤ s1.raw) then s1.upAsk u typ else s1)

def execAnnounceTimeout (u t : Nat) (s0 : State) : Host.Outcome State Fault Refusal :=
  let s := s0.advance t
  .next (if s.on (PTP.UP_STAT_ANN_OK u) && decide (u < 4) && decide ((s.upq u).annUntil ≤ s.raw) then
      (s.wr (PTP.UP_STAT_ANN_OK u) 0).sticky PTP.STICKY_ANN_TIMEOUT
    else s)

/-! ### Commit group PTP (R264, R285) -/

/-- A range of logMessageIntervals. -/
def logIn (lo hi l : Int) : Bool := decide (lo ≤ l) && decide (l ≤ hi)

/-- The row of R264 an enabled domain must keep, from its words. -/
def profileOk (w : Nat → Nat) : Bool :=
  let f := bitsOf (w 0) 1 3
  let tr := bitsOf (w 0) 15 2
  let neg := bitAt (w 0) 12
  let num := bitsOf (w 0) 24 8
  let sync := toSigned 8 (bitsOf (w 5) 0 8)
  let ann := toSigned 8 (bitsOf (w 5) 8 8)
  let dreq := toSigned 8 (bitsOf (w 5) 16 8)
  let pdreq := toSigned 8 (bitsOf (w 5) 24 8)
  match f with
  | 0 => decide (tr ≤ 2) && decide (num ≤ 127) && logIn (-7) 4 sync && logIn (-7) 4 ann && logIn (-7) 4 dreq
  | 1 => decide (tr ≤ 2) && !neg && decide (num ≤ 127) && logIn (-7) 4 sync && logIn (-7) 4 ann && logIn (-7) 4 pdreq
  | 2 => (tr == 1 || tr == 2) && decide (num ≤ 127) && logIn (-7) (-1) sync && logIn (-3) 1 ann
  | 3 => tr == 1 && !neg && decide (num ≤ 127) && logIn (-4) 1 sync
  | 4 => tr == 0 && !neg && decide (24 ≤ num) && decide (num ≤ 43) && sync == -4 && dreq == -4 && ann == -3
  | 5 => (tr == 1 || tr == 2) && neg && !bitAt (w 0) 11 && decide (44 ≤ num) && decide (num ≤ 63) && logIn (-7) 0 sync && logIn (-7) 0 dreq
      && logIn (-3) 0 ann
  | 6 => tr == 0 && !neg && decide (num ≤ 127) && bitsOf (w 4) 16 4 == 1 && logIn (-7) 4 sync && logIn (-7) 4 ann && logIn (-7) 4 pdreq
  | _ => false

def State.ptpValid (s : State) : Bool :=
  let w := fun d i => s.shadowWord (domKey d i)
  let en := fun d => bitAt (w d 0) 0
  let ds := (List.range 64).filter en
  let free := s.mode == 3 || (s.mode == 6 && s.maint 14)
  ds.all (fun d => profileOk (w d) && s.rd (TSC.CTRL_KIND (bitsOf (w d 0) 4 6)) != 1 && decide (bitsOf (w d 0) 15 2 < 3)
      && decide (800 ≤ bitsOf (w d 6) 6 13) && decide (toSigned 8 (bitsOf (w d 7) 0 8) ≤ toSigned 8 (bitsOf (w d 7) 8 8))
      && !(bitAt (w d 0) 12 && bitsOf (w d 7) 16 16 == 0)
      && (free || !s.domEn d || s.domTs d == bitsOf (w d 0) 4 6)
      && ds.all (fun e => d == e || bitsOf (w d 0) 24 8 != bitsOf (w e 0) 24 8 || bitsOf (w d 4) 16 4 != bitsOf (w e 4) 16 4
        || w d 1 &&& w e 1 == 0))
    && (List.range s.variant.quads).all (fun q => decide (mcastRate s.variant s.shadowWord q ≤ 16 * s.variant.calShare))
    && (List.range 4).all (fun u => s.shd (PTP.UP_CFG_EN u) == 0
      || (s.portPresent (s.shd (PTP.UP_CFG_PORT u)) && s.on (PRT.CTRL_EN (s.shd (PTP.UP_CFG_PORT u)))
        && !(s.shd (PTP.UP_CFG_MODE u) == 1 && s.shd (PTP.UP_INTERVALS_DUR_10S u) == 0)))
    && ((s.shd PTP.CTRL_PDELAY_EN == 0 && s.shd PTP.EVENT_CFG_UP_EVENTS == 0) || s.ringIs 0 3 (s.shd PTP.EVENT_CFG_RING))

/-- The new set in force: entries of domains disabled or ports removed are freed silently, and every entry where HASH_SEED
changed (R274). -/
def State.ptpApply (old : State) : State :=
  let s := old.applyShadows .ptp
  let all := s.nreg PTP.HASH_SEED != old.nreg PTP.HASH_SEED
  let gone := fun (g : Grant) => all || !s.domEn g.dom || !s.domOnPort g.dom g.port
  let gs := s.ptp.grants.filter (fun e => !gone e.2)
  let s1 := { s with ptp := { s.ptp with grants := gs } }
  let s2 := s1.wr PTP.STAT_DOMAINS ((List.range 64).filter s1.domEn).length
  (List.range s2.variant.quads).foldl (fun t q => t.showGrants q) s2

end Sys2Proof.Machine
end

