-- ==== Sys2Proof/Machine/Rsp.lean ====
section
/-! DEFINITION. RSP: a request through stages 1 to 4 (R234 to R246, R289), rebuilds at stage 4 (R255), the side buffer and the
quad sequencers' actions (R257, R258), the limiter's scrubber (R241), fencing (R236) and commit group RSP (R262, R292). -/

namespace Sys2Proof.Machine

/-! ### Classification (R237, R238) -/

/-- What a rule compares: tags, what the frame is (0 UDP, 1 PTP over Ethernet, 2 other), IP version and addresses, and the
ports where the frame has them. -/
structure View where
  tags : List Nat
  l4 : Nat
  v : Nat
  src : List Byte
  dst : List Byte
  ports : Option (Nat × Nat)
  deriving DecidableEq, Repr

/-- Whether an IP fragment is not the first of its datagram: it has no UDP header. -/
def laterFrag (f : List Byte) (e : Eth) (h : Ip) : Bool :=
  if h.v = 4 then beAt f (e.off + 6) 2 % 0x2000 != 0
  else h.frag && ((List.range 17).any (fun i =>
    -- the fragment header lies eight bytes before the payload, or before further extension headers
    decide (e.off + 40 + 8 * i + 8 ≤ h.off) && beAt f (e.off + 40 + 8 * i) 1 == h.proto
      && beAt f (e.off + 40 + 8 * i + 2) 2 / 8 != 0))

def viewOf (outer : Nat) (f : List Byte) : View :=
  match ethOf outer f with
  | none => ⟨[], 2, 0, [], [], none⟩
  | some e =>
    let tags := e.tags.map (·.2)
    match l3Of f e with
    | .ip h =>
      if h.proto ≠ 17 then ⟨tags, 2, h.v, h.src, h.dst, none⟩
      else
        let has := !laterFrag f e h && decide (h.off + 4 ≤ f.length)
        ⟨tags, 0, h.v, h.src, h.dst, if has then some (beAt f h.off 2, beAt f (h.off + 2) 2) else none⟩
    | .ptp _ => ⟨tags, 1, 0, [], [], none⟩
    | _ => ⟨tags, 2, 0, [], [], none⟩

/-- The first `n` bits of two addresses agree (R237). -/
def prefixEq (a b : List Byte) (n : Nat) : Bool :=
  let l := 8 * a.length
  decide (n ≤ l) && beAt a 0 a.length / 2 ^ (l - n) == beAt b 0 a.length / 2 ^ (l - n)

def maskEq (x y m : Nat) : Bool := (x ^^^ y) &&& m == 0

/-- Whether a frame matches a rule, from the rule's words. -/
def ruleHits (w : Nat → Nat) (k : View) (port : Nat) : Bool :=
  let portOk := bitAt (w 0) 12 || bitsOf (w 0) 13 5 == port
  let outer := maskEq (k.tags.getD 0 0 % 4096) (bitsOf (w 1) 0 12) (bitsOf (w 1) 16 12)
  let inner := maskEq (k.tags.getD 1 0 % 4096) (bitsOf (w 2) 0 12) (bitsOf (w 2) 16 12)
  let vlanOk := match bitsOf (w 0) 20 2 with
    | 0 => true
    | 1 => k.tags.isEmpty
    | 2 => decide (1 ≤ k.tags.length) && outer
    | _ => decide (2 ≤ k.tags.length) && outer && inner
  let addr := fun base => (List.range 4).flatMap (fun i => leBytes 4 (w (base + i)))
  portOk && vlanOk && (match bitsOf (w 0) 22 2 with
    | 0 =>
      let ipv := bitsOf (w 0) 18 2
      let ports := match k.ports with
        | some x => maskEq x.2 (bitsOf (w 3) 0 16) (bitsOf (w 3) 16 16) && maskEq x.1 (bitsOf (w 4) 0 16) (bitsOf (w 4) 16 16)
        | none => bitsOf (w 3) 16 16 == 0 && bitsOf (w 4) 16 16 == 0
      k.l4 == 0 && (ipv == 0 || (ipv == 1 && k.v == 4) || (ipv == 2 && k.v == 6)) && ports
        && prefixEq k.src (addr 5) (bitsOf (w 13) 0 8) && prefixEq k.dst (addr 9) (bitsOf (w 13) 8 8)
    | 1 => k.l4 == 1
    | _ => true)

/-- The numbers of the valid rules of the live bank, ascending. -/
def State.validRules (s : State) : List Nat :=
  let b := Tbl.rspRules.key 0
  s.regs.filterMap (fun e =>
    if b ≤ e.1 ∧ e.1 < b + 65536 ∧ (e.1 - b) % 16 = 0 ∧ bitAt e.2.toNat 0 = true then some ((e.1 - b) / 16) else none)

def State.ruleWord (s : State) (i w : Nat) : Nat := s.nreg (Tbl.rspRules.key (16 * i + w))

def State.classify (s : State) (f : List Byte) (port : Nat) : Option Nat :=
  let k := viewOf (s.rd (PRT.VLAN_CFG_OUTER_TPID port)) f
  s.validRules.find? (fun i => ruleHits (s.ruleWord i) k port)

/-- HITS of a rule and REQS of the profile it names (R237, R239). -/
def State.countRule (s : State) (i : Nat) : State :=
  let hit := fun m k => Store.upd zNat m k (fun n => (n + 1) % 2 ^ 32)
  let p := bitsOf (s.ruleWord i 0) 4 6
  let s1 := { s with rsp := { s.rsp with hits := hit s.rsp.hits i } }
  if bitsOf (s.ruleWord i 0) 1 2 = 3 then s1 else { s1 with rsp := { s1.rsp with reqs := hit s1.rsp.reqs p } }

/-! ### The limiter (R240 to R242) -/

def dBucket : Nat → Bucket := fun _ => ⟨0xFFFFFF, 0, false, 0⟩
def bucketKey (q i : Nat) : Nat := 2 ^ 20 * q + i
def State.bucket (s : State) (q i : Nat) : Bucket := Store.get dBucket s.rsp.buckets (bucketKey q i)
def State.setBucket (s : State) (q i : Nat) (b : Bucket) : State :=
  { s with rsp := { s.rsp with buckets := Store.put dBucket s.rsp.buckets (bucketKey q i) b } }

/-- The raw counter in units of 1 024 ns, modulo 2^32. -/
def State.unitsNow (s : State) : Nat := s.raw / 2 ^ 26 % 2 ^ 32

/-- Steps 1 to 3 of R241. -/
def refill (b : Bucket) (now rate depth : Nat) : Bucket :=
  let d := (now + 2 ^ 32 - b.stamp) % 2 ^ 32
  let gain := rate * d * 1024 / 10 ^ 9
  let used := if rate = 0 then 0 else gain * 10 ^ 9 / (rate * 1024)
  let lvl := b.level + gain
  if 16 * depth < lvl then { b with level := 16 * depth, stamp := now }
  else { b with level := lvl, stamp := (b.stamp + used) % 2 ^ 32 }

/-- The key bytes of a request under a class's KEY (R240). -/
def keyBytes (key : Nat) (k : View) (mac : List Byte) : List Byte :=
  if key = 3 then []
  else if k.v = 4 then (if key = 2 then k.src.take 3 else k.src)
  else if k.v = 6 then k.src.take (if key = 0 then 16 else if key = 1 then 8 else 7)
  else mac

def State.bucketIndex (s : State) (b c : Nat) (k : View) (mac : List Byte) : Nat :=
  crc32c (leBytes 4 (s.rspWord b RSP.LIMIT_SEED) ++ leBytes 1 c ++ keyBytes (s.cls b c 0 20 2) k mac) % 2 ^ s.variant.bucketsLog2

def ehKey (q c : Nat) : Nat := 16 * q + c
def State.emptyHits (s : State) (q c : Nat) : Nat := Store.get zNat s.rsp.emptyHits (ehKey q c)

/-- Stage 3 (R241): the bucket is read, refilled and charged. The answer says whether it held enough; an empty hit is counted. -/
def State.charge (s : State) (q b c : Nat) (k : View) (mac : List Byte) : State × Bool :=
  let i := s.bucketIndex b c k mac
  let r := { refill (s.bucket q i) s.unitsNow (s.cls b c 0 0 20) (s.cls b c 1 0 16) with cls := c, clsValid := true }
  let cost := s.cls b c 1 16 8
  if cost ≤ r.level then (s.setBucket q i { r with level := r.level - cost }, true)
  else
    let s1 := s.setBucket q i r
    let s2 := { s1 with rsp := { s1.rsp with emptyHits := Store.upd zNat s1.rsp.emptyHits (ehKey q c) (fun n => (n + 1) % 2 ^ 32) } }
    (((s2.bump (RSP.Q_LIMIT_EMPTY q)).sticky RSP.STICKY_LIMIT_EMPTY).count 0 8 q, false)

/-- The scrubber visits a bucket; a pass is complete at the last bucket of the last quad. -/
def execLimitScrubVisit (q bucket t : Nat) (s0 : State) : Host.Outcome State Fault Refusal :=
  let s := s0.advance t
  let n := 2 ^ s.variant.bucketsLog2
  .next (if !s.quadPresent q || decide (n ≤ bucket) then s
    else
      let b := s.bucket q bucket
      let live := s.rd RSP.STAT_BANK
      let r := if b.clsValid then refill b s.unitsNow (s.cls live b.cls 0 0 20) (s.cls live b.cls 1 0 16)
        else { b with stamp := s.unitsNow }
      let s1 := s.setBucket q bucket r
      if bucket + 1 = n ∧ q + 1 = s.variant.quads then s1.bumpF RSP.LIMIT_STAT_SCRUB_PASS else s1)

/-! ### Where a request goes at stage 4 -/

/-- How stage 4 ends: with a state, or in a stall, for want of side-buffer space or of a pipe. -/
inductive Stage4
  | done (s : State)
  | sideFull
  | stall
  deriving DecidableEq, Repr

def State.sideRoom (s : State) (q : Nat) : Bool := decide (s.sideUsed q < 1024)

/-- The slot of an item that is consumed, declined or passed to the slow path is retired (R480). -/
def State.retireSlot (s : State) (j : Job) : State × Job :=
  if j.slotted then (s.slotRetired j.quad, { j with slotted := false }) else (s, j)

/-- The slow path (R238, R242, R259): causes 0 sequencer, 1 HOST, 2 default ring, 3 truncated, 4 empty bucket, 5 ESMC, 6
upstream Announce. -/
def State.enterSlow (s : State) (j : Job) (cause : Nat) : Stage4 :=
  if !j.slowOk then .done (s.sumpJob j 0x13)
  else if !s.sideRoom j.quad then .sideFull
  else
    let r := s.retireSlot j
    .done ((r.1.putJob { r.2 with st := .slow, cause := cause, since := s.raw }).pump j.quad)

/-- A declined request enters the side buffer (R257). -/
def State.enterSeq (s : State) (j : Job) : Stage4 :=
  if !s.sideRoom j.quad then .sideFull
  else
    let r := s.retireSlot j
    let s1 := (r.1.bump48 (RSP.Q_DECLINED_LO j.quad)).count 0 4 j.quad
    .done ((s1.putJob { r.2 with st := .declined, cause := 0, since := s.raw }).pump j.quad)

/-- What a job takes from the profile it is classified to, or from the default ring. -/
def State.withProfile (s : State) (j : Job) (p : Nat) : Job :=
  let b := s.rd RSP.STAT_BANK
  { j with bank := b, profile := some p, ring := s.prof b p 1 0 10, maxRes := s.prof b p 1 16 16, slowOk := s.prof b p 0 20 1 == 1,
           lead := s.prof b p 2 0 13 }
def State.withDefault (s : State) (j : Job) : Job :=
  { j with bank := s.rd RSP.STAT_BANK, profile := none, ring := s.rd RSP.DEFAULT_RING_RING, maxRes := s.rd RSP.DEFAULT_RING_MAX_RES,
           slowOk := true }

/-! ### The builder (R243 to R246, R255, R293) -/

/-- The packet of a job's frame. -/
def State.pktOfJob (s : State) (j : Job) : Option Pkt :=
  if j.trunc then none else pktOf (s.rd (PRT.VLAN_CFG_OUTER_TPID j.port)) j.frame

/-- The frame of a request's answer. A PTP reply goes to the requester, or to the profile's multicast address where the request
came so and the profile has multicast Delay_Resp (R266). -/
def State.replyFrame (s : State) (j : Job) (k : Pkt) : State × Out :=
  let p := j.profile.getD 0
  match j.what with
  | some (.ntp kod) =>
    let i := s.prof j.bank p 0 10 6
    let ts := s.prof j.bank p 0 2 6
    let h := s.ntpHeader j.bank i ts kod k.body (s.rxStamp j ts)
    let r := match j.nts with | some x => s.ntsTail x | none => (s, [])
    (r.1, r.1.replyTo j.bank i k (h ++ r.2))
  | _ =>
    let d := s.jobDom j
    let f := s.domProfile d
    let i := s.domTpl d
    let multi := !k.unicast && (f == 0 || f == 2 || f == 3)
    let o := s.replyTo j.bank i k (s.ptpBody j (!multi) k.body)
    let g := s.castGroup d k.v false
    (s, if multi then { o with dmac := g.1, dst := g.2 } else o)

/-- Stage 4's build, first or second: a reply from its request, a message from its first frame's addressing. -/
def State.build (s : State) (j : Job) : State × Job :=
  match j.what with
  | some (.esmc _) | some (.program _ _) => (s, j)
  | _ =>
    if j.isReq then
      match s.pktOfJob j with
      | some k => let r := s.replyFrame j k
        (r.1, { j with out := some r.2 })
      | none => (s, j)
    else
      let req := match s.pktOfJob j with | some k => k.body | none => []
      let uni := match j.out with | some o => castOf o.dmac == 0 | none => false
      (s, { j with out := j.out.map (fun o => { o with body := s.ptpBody j uni req }) })

/-- The timescale a request's stamps are on. -/
def State.jobTs (s : State) (j : Job) : Nat :=
  match j.profile with
  | some p => if s.prof j.bank p 0 0 2 = 1 then s.domTs (s.prof j.bank p 0 24 6) else s.prof j.bank p 0 2 6
  | none => 0

/-- A request built and its departure asked for. -/
def State.buildReply (s : State) (j : Job) (w : What) (kod : Bool) (x : Option NtsCtx) : State :=
  let r := s.build { j with what := some w, kod := kod, nts := x, ts := s.jobTs j }
  r.1.askReply r.2

/-! ### Stages 3 and 4 of a request -/

/-- What comes out of a pipe (R289, R295, R296). -/
def State.ntsServe (s : State) (j : Job) (k : Pkt) (kod : Bool) : Stage4 :=
  match s.pickPipe j.quad with
  | none => .stall
  | some pipe =>
    let r := s.ntsRequest j.quad pipe k.body kod
    match r.2 with
    | .sump c => .done (r.1.sumpJob j c)
    | .decline => if kod then .done (r.1.sumpJob j 0x08) else r.1.enterSeq j
    | .nak x => .done (r.1.buildReply j (.ntp 2) true (some x))
    | .serve x => .done (r.1.buildReply j (.ntp (b2n kod)) kod (some x))

/-- Stage 4 of a request to an NTP profile (R244). -/
def State.serveNtp (s : State) (j : Job) (k : Pkt) : Stage4 :=
  let p := j.profile.getD 0
  let set := s.prof j.bank p 0 8 2
  let nts := hasNts k.body
  if !ntpClient k.body || s.castBad j.bank (s.prof j.bank p 0 10 6) k then s.enterSeq j
  else if k.body.length = 48 then (if set = 2 then s.enterSeq j else .done (s.buildReply j (.ntp 0) false none))
  else if nts && set != 0 then s.ntsServe j k false
  else s.enterSeq j

/-- Stage 4 of a request to a PTP profile (R265, R266). -/
def State.servePtp (s : State) (j : Job) (k : Pkt) : Stage4 :=
  let d := s.prof j.bank (j.profile.getD 0) 0 24 6
  let r := s.ptpHandle j k d
  match r.2 with
  | .sump c => .done (r.1.sumpJob j c)
  | .decline => r.1.enterSeq j
  | .slow => r.1.enterSlow j 6
  | .consume => .done (r.1.answerJob j)
  | .reply w =>
    if s.castBad j.bank (s.domTpl d) k then s.enterSeq j
    else
      -- the sequenceId of a Signaling message of ours is left open
      let f := r.1.free
      match w with
      | .signaling _ => .done (f.2.buildReply { j with seqId := f.1 % 2 ^ 16 } w false none)
      | _ => .done (r.1.buildReply j w false none)

/-- An empty bucket (R242). -/
def State.emptyBucket (s : State) (j : Job) (c : Nat) : Stage4 :=
  let b := j.bank
  let p := j.profile.getD 0
  let due := s.emptyHits j.quad c % 2 ^ s.cls b c 0 24 4 == 0
  let fit := match s.pktOfJob j with
    | some k => if decide (48 ≤ k.body.length) && !s.castBad b (s.prof b p 0 10 6) k && k.v != 0 then some k else none
    | none => none
  match s.cls b c 0 22 2 with
  | 2 => let r := s.issueSlot j
    r.1.enterSlow r.2 4
  | 0 =>
    match fit with
    | some k =>
      if !due || s.prof b p 0 0 2 != 0 then .done (s.sumpJob j 0x08)
      else
        let r := s.issueSlot j
        if hasNts k.body then
          (if s.cls b c 0 28 1 = 1 then r.1.ntsServe r.2 k true else .done (s.sumpJob j 0x08))
        else .done (r.1.buildReply r.2 (.ntp 1) true none)
    | none => .done (s.sumpJob j 0x08)
  | _ => .done (s.sumpJob j 0x08)

/-- Stages 3 and 4 under a rule of ACTION 0 or 1. -/
def State.limitAndServe (s : State) (j : Job) (decline : Bool) : Stage4 :=
  let p := j.profile.getD 0
  let c := s.prof j.bank p 0 16 4
  let k := viewOf (s.rd (PRT.VLAN_CFG_OUTER_TPID j.port)) j.frame
  let x := s.charge j.quad j.bank c k ((j.frame.drop 6).take 6)
  if !x.2 then x.1.emptyBucket j c
  else
    let r := x.1.issueSlot j
    match decline, s.pktOfJob j with
    | false, some k => if s.prof j.bank p 0 0 2 = 1 then r.1.servePtp r.2 k else if k.v = 0 then r.1.enterSeq r.2 else r.1.serveNtp r.2 k
    | _, _ => r.1.enterSeq r.2

/-- Whether a request carries an NTS extension field, before it is classified (R236). -/
def State.jobNts (s : State) (j : Job) : Bool :=
  match s.pktOfJob j with | some k => k.v != 0 && decide (48 < k.body.length) && hasNts k.body | none => false

/-- R234, stages 1 to 4. -/
def State.arrive (s0 : State) (j0 : Job) : Stage4 :=
  let s := if j0.cells = 0 then s0 else s0.qTake j0.port j0.cells
  let j := { j0 with cells := 0 }
  if !s.modeServes j.quad (s.jobNts j) then .done (s.sumpJob j 0x18)
  else if j.poisoned then .done (s.poisonSeen.sumpJob j 0x10)
  else
    let rule := s.classify j.frame j.port
    if j.trunc then
      match rule with
      | some i =>
        let s1 := s.countRule i
        let r := s1.issueSlot (s1.withProfile j (bitsOf (s1.ruleWord i 0) 4 6))
        r.1.enterSlow r.2 3
      | none => let r := s.issueSlot (s.withDefault j)
        r.1.enterSlow r.2 3
    else
      match (ethOf (s.rd (PRT.VLAN_CFG_OUTER_TPID j.port)) j.frame).bind (headerFault j.frame) with
      | some c => .done (s.sumpJob j c)
      | none =>
        match rule with
        | none =>
          if s.on RSP.CTRL_DEFAULT_ACTION then let r := s.issueSlot (s.withDefault j)
            r.1.enterSlow r.2 2
          else .done (s.sumpJob j 0x06)
        | some i =>
          let s1 := s.countRule i
          let j1 := s1.withProfile j (bitsOf (s1.ruleWord i 0) 4 6)
          match bitsOf (s1.ruleWord i 0) 1 2 with
          | 0 => s1.limitAndServe j1 false
          | 1 => s1.limitAndServe j1 true
          | 2 => let r := s1.issueSlot j1
            r.1.enterSlow r.2 1
          | _ => .done (s1.sumpJob j1 0x07)

/-- A request at stage 1. A stalled one has not moved (R29, R257); an ESMC PDU is not a request (R231). -/
def execRequestArrival (id t : Nat) (s0 : State) : Host.Outcome State Fault Refusal :=
  let s := s0.advance t
  .next (match s.findJob id with
    | none => s
    | some j =>
      if j.st ≠ .rx ∨ (s.jobEsmc j).isSome = true then s
      else match s.arrive j with
        | .done s1 => s1
        | .sideFull => s.sticky RSP.STICKY_SIDE_FULL
        | .stall => s)

/-! ### The side buffer and the sequencers (R257, R258) -/

/-- A request goes to EXPIRED. -/
def State.expireJob (s : State) (j : Job) : State :=
  let s1 := s.sumpJob j 0x14
  if j.isReq then (s1.bump (RSP.Q_EXPIRED j.quad)).sticky RSP.STICKY_EXPIRED else s1

def execSideBufferExpire (id t : Nat) (s0 : State) : Host.Outcome State Fault Refusal :=
  let s := s0.advance t
  .next (match s.findJob id with
    | none => s
    | some j => if (j.st = .declined ∨ j.st = .slow) ∧ j.since + j.maxRes * 1000 * qNs < s.raw then s.expireJob j else s)

/-- The request at the head of the sequencers' queue of a quad. -/
def State.seqHead (s : State) (q : Nat) : Option Job := (s.jobsIn q .atSeq).head?
/-- The request sequencer `n` holds for a build. -/
def State.buildingOf (s : State) (n : Nat) : Option Job := s.rsp.jobs.find? (fun j => j.st == .building n)

/-- REQ_ACTION 1: the head is retired to sequencer `n` for a build. -/
def execReqActionBuild (n t : Nat) (s0 : State) : Host.Outcome State Fault Refusal :=
  let s := s0.advance t
  .next (match (if n < 32 then s.seqHead (n / 8) else none), s.buildingOf n with
    | some j, none => (((s.qTake (96 + j.quad)).putJob { j with st := .building n }).itemOwe n j.id).pump j.quad
    | _, _ => s)

/-- REQ_ACTION 2: the head goes to the slow path, through the side buffer. -/
def execReqActionSlowPath (n t : Nat) (s0 : State) : Host.Outcome State Fault Refusal :=
  let s := s0.advance t
  .next (match (if n < 32 then s.seqHead (n / 8) else none) with
    | some j =>
      match (s.qTake (96 + j.quad)).enterSlow { j with st := .declined } 0 with
      | .done s1 => (s1.itemEnd n true).pump j.quad
      | _ => s.sticky RSP.STICKY_SIDE_FULL
    | none => s)

/-- The reasons a program may discard a request with (R258). -/
def seqReason (r : Nat) : Bool :=
  decide (r < 0x20) && !([0x0F, 0x19, 0x1E, 0x1D, 0x16, 0x17, 0x1B, 0x1F].contains r)

/-- REQ_ACTION 3: the head is discarded. A reason a program may not name leaves it. -/
def execReqActionDiscard (n reason t : Nat) (s0 : State) : Host.Outcome State Fault Refusal :=
  let s := s0.advance t
  .next (match (if n < 32 then s.seqHead (n / 8) else none) with
    | some j => if seqReason reason then (s.sumpJob j reason).itemEnd n false else s
    | none => s)

/-- A frame a program built, as bytes from the destination address. -/
def rawOut (f : List Byte) : Out := ⟨f.take 6, (f.drop 6).take 6, [], beAt f 12 2, 0, [], [], 0, 0, 0, 0, false, 0, f.drop 14⟩

/-- BUILD_GO: the frame of the build buffer, at most 2 048 bytes, enters stage 5 for the request the sequencer holds. -/
def execBuildGo (n : Nat) (frame : List Byte) (stamp : Option (Nat × Bool)) (t : Nat) (s0 : State) :
    Host.Outcome State Fault Refusal :=
  let s := s0.advance t
  .next (match s.buildingOf n with
    | some j =>
      let f := fit (max 14 (min 2048 frame.length)) frame
      s.askReply { j with what := some (.program f stamp), out := some (rawOut f), ts := s.jobTs j }
    | none => s)

/-- A quad sequencer faulted: what it holds goes to the Sump as SEQ_FAULT (R258). -/
def State.seqFaultJobs (s : State) (n : Nat) : State :=
  match s.buildingOf n with
  | some j => (s.sumpJob j 0x1C).sticky RSP.STICKY_SEQ_FAULT
  | none => s

/-! ### Fencing (R236) and registers that act -/

def fencedFld (q : Nat) : Fld := ⟨RSP.STAT, 4 + q, 1⟩
def State.setFenced (s : State) (q : Nat) (b : Bool) : State := (s.wrB (fencedFld q) b).wrB (RSP.Q_STAT_FENCED q) b

def execMaintQuadsWrite (m val t : Nat) (s : State) : Host.Outcome State Fault Refusal :=
  .next ((s.advance t).busWrite m 13 RSP.MAINT_QUADS (fun s =>
    if s.mode = 6 && s.maint 13 then
      (List.range 4).foldl (fun u q => if bitAt val q then u else u.setFenced q false) (s.wr RSP.MAINT_QUADS_QUADS val)
    else s.refuseCfg .rsp))

def execQuadFence (q t : Nat) (s0 : State) : Host.Outcome State Fault Refusal :=
  let s := s0.advance t
  .next (if s.quadPresent q && s.mode == 6 && s.maint 13 && bitAt (s.rd RSP.MAINT_QUADS_QUADS) q && !s.on (RSP.Q_STAT_FENCED q)
      && !s.rsp.jobs.any (fun j => j.quad == q && j.st == .held) then
      (s.setFenced q true).sticky RSP.STICKY_FENCED
    else s)

def execQLatReset (m q t : Nat) (s : State) : Host.Outcome State Fault Refusal :=
  .next (if q < 4 then
      (s.advance t).busWrite m 13 (RSP.Q_LAT q) (fun s => (s.wr (RSP.Q_LAT_MAX_BUILD q) 0).wr (RSP.Q_LAT_MAX_WAIT q) 0)
    else s.advance t)

/-! ### Commit group RSP (R262, R292) -/

/-- A profile a valid rule of ACTION 0 to 2 names, after the commit. -/
def State.profileOkRsp (s : State) (p : Nat) : Bool :=
  let w := fun i => s.shadowWord (Tbl.rspProfiles.key (4 * p + i))
  let c := bitsOf (w 0) 16 4
  let cw := fun i => s.shadowWord (Tbl.rspClasses.key (4 * c + i))
  let kind := bitsOf (w 0) 0 2
  let nts := bitsOf (w 0) 8 2
  let lead := bitsOf (w 2) 0 13
  let depth := bitsOf (cw 1) 0 16
  decide (kind < 2) && nts != 3 && !(nts != 0 && kind == 1) && bitsOf (w 1) 16 16 != 0 && decide (800 ≤ lead)
    && !(nts != 0 && decide (lead < 1200))
    && bitsOf (cw 0) 22 2 != 3 && depth != 0 && decide (bitsOf (cw 1) 16 8 ≤ 16 * depth)
    && bitsOf (s.shadowWord (Tbl.rspTemplates.key (16 * bitsOf (w 0) 10 6 + 2))) 0 8 != 0

/-- A valid rule, after the commit. -/
def State.ruleOk (s : State) (i : Nat) : Bool :=
  let w := fun k => s.shadowWord (Tbl.rspRules.key (16 * i + k))
  let ipv := bitsOf (w 0) 18 2
  let lens := [bitsOf (w 13) 0 8, bitsOf (w 13) 8 8]
  !bitAt (w 0) 0 || (ipv != 3 && bitsOf (w 0) 22 2 != 3
    && lens.all (fun l => decide (l ≤ 128) && !(ipv == 1 && decide (32 < l)) && !(ipv == 0 && l != 0))
    && (bitsOf (w 0) 1 2 == 3 || s.profileOkRsp (bitsOf (w 0) 4 6)))

/-- The rules any word of which is listed, live or shadow: all others are invalid. -/
def State.ruleNums (s : State) : List Nat :=
  let b := Tbl.rspRules.key 0
  ((s.regs.map (·.1)) ++ (s.shadow.map (·.1))).filterMap (fun k =>
    if b ≤ k ∧ k < b + 65536 ∧ (k - b) % 16 = 0 then some ((k - b) / 16) else none)

def State.rspValid (s : State) : Bool :=
  s.ruleNums.all s.ruleOk && !(s.shd RSP.CTRL_DEFAULT_ACTION == 1 && s.shd RSP.DEFAULT_RING_MAX_RES == 0)

/-- The banks swap. PENDING stays until no request holds the old bank. A new LIMIT_SEED fills every bucket (R241). -/
def State.rspApply (old : State) : State :=
  let kept := old.regs.filter (fun e => groupOf e.1 == Blk.rsp.commit)
  let s := old.applyShadows .rsp
  let s1 := s.wr RSP.STAT_BANK (1 - old.rd RSP.STAT_BANK)
  let bs := if s1.nreg RSP.LIMIT_SEED = old.nreg RSP.LIMIT_SEED then s1.rsp.buckets else []
  { s1 with rsp := { s1.rsp with old := kept, buckets := bs, draining := true } }

/-- No request holds the old bank any more: PENDING clears. -/
def execRspBankRelease (t : Nat) (s0 : State) : Host.Outcome State Fault Refusal :=
  let s := s0.advance t
  .next (if s.rsp.draining && !s.rsp.jobs.any (fun j => j.isReq && j.st != .rx && j.bank != s.rd RSP.STAT_BANK) then
      let s1 := { s with rsp := { s.rsp with old := [], draining := false } }
      s1.wr (cmPENDING .rsp) 0
    else s)

end Sys2Proof.Machine
end

