-- ==== Sys2Proof/Machine/Calendar.lean ====
section
/-! DEFINITION. The departure calendar: grants (R247 to R249), the predicted stamp (R250), the seal (R291), the launch check
(R251), cancellation and rebuild (R253 to R256) and the commit of a frame (R252, R267, R268, R363). -/

namespace Sys2Proof.Machine

/-! ### Reservations (R247) -/

def State.heldOn (s : State) (p : Nat) : List Job := s.rsp.jobs.filter (fun j => j.port == p && j.st == .held)
def Job.len (j : Job) : Nat := match j.out with | some o => o.len | none => 64

/-- The window of a departure at `c` of a frame of `n` bytes: from 8 byte times before it until n + 12 after it. -/
def State.window (s : State) (p c n : Nat) : Int × Int := ((c : Int) - s.byteTime p 8, (c : Int) + s.byteTime p (n + 12))

def State.windowFree (s : State) (p c n : Nat) : Bool :=
  let w := s.window p c n
  (s.heldOn p).all (fun j => match j.slot with
    | some x => let v := s.window p x j.len
      decide (w.2 ≤ v.1) || decide (v.2 ≤ w.1)
    | none => true)

/-- Whether a start position meets the conditions of R247, R249 and R276 for a job; `starts` are the port's positions and
`busy` the end of a preemptable frame already started. -/
def State.fits (s : State) (j : Job) (starts : List Nat) (busy c : Nat) : Bool :=
  let late := j.reqRaw + 24 * qNs < s.raw
  decide (s.raw < c) && decide (j.te ≤ c) && (!late || decide (s.raw + j.lead * qNs ≤ c + 24 * qNs))
    && (s.on (PRT.STAT_PREEMPT_ACTIVE j.port) || decide (busy ≤ c))
    && s.windowFree j.port c j.len
    && (match j.due with
      | none => decide (c ≤ j.tl)
      | some (ts, d, late) =>
        let v := s.tsAt ts c
        decide (d ≤ v) && (match late with
          | some 0 | none => starts.find? (fun x => decide (d ≤ s.tsAt ts x)) == some c
          | some n => decide (v ≤ d + n * 1000 * qNs)))

/-- CAL_MISSED where a message the calendar owes is not sent (R277). -/
def State.missJob (s : State) (j : Job) : State :=
  if !j.isReq && (match j.what with | some w => w.isCal | none => false) then s.calMissed j.port else s

/-- No slot: EXPIRED on a first build, CANCEL_DROP on a rebuild (R255). -/
def State.noSlot (s : State) (j : Job) : State := (if j.rebuilt then s.cancelDrop j else s.expireJob j).missJob j

/-- The slot granted: DEPART issued, the predicted stamp evaluated and written (R250). -/
def State.grantSlot (s : State) (j : Job) (c : Nat) : State :=
  let t := s.tsAt j.ts (ofSigned 64 ((c : Int) + s.txLag j.port))
  let o := match j.what, j.out with
    | some (.program f _), _ => some (rawOut (s.stampFrame j t f))
    | _, some o => some { o with body := s.stampIn j t o.body }
    | _, none => none
  let s1 := ((s.qTake (108 + j.quad)).issue .depart j.port 1).count 1 3 j.port
  let s2 := if j.isReq then s1.maxFld (RSP.Q_LAT_MAX_WAIT j.quad) ((c - j.te) / qNs) else s1
  (s2.putJob { j with st := .held, inQ := false, slot := some c, pred := t, out := o, sealed := false, checked := false }).pump j.quad

/-- R247: the calendar takes a request from queue 108 + q. A port that sleeps is woken first (R227, R249). -/
def State.reserve (s : State) (j : Job) (starts : List Nat) (busy : Nat) : State :=
  let p := j.port
  if 2 ≤ s.domState p then s.wakePort p 3
  else if !s.linkUp p || s.fab.isolated.contains (Tok.depart.key p) then s.noSlot j
  else if 64 ≤ (s.heldOn p).length then s
  else match starts.find? (s.fits j starts busy) with
    | some c => s.grantSlot j c
    | none => s.noSlot j

def execReservationGrant (id : Nat) (starts : List Nat) (busyUntil t : Nat) (s0 : State) : Host.Outcome State Fault Refusal :=
  let s := s0.advance t
  .next (match s.findJob id with
    | some j => if j.st = .wantSlot && j.inQ then s.reserve j starts busyUntil else s
    | none => s)

/-! ### The seal (R250, R291) -/

/-- A frame with its UDP checksum made over what it carries; frames that are not UDP stay. -/
def fixUdp (outer : Nat) (f : List Byte) : List Byte :=
  match ethOf outer f with
  | none => f
  | some e =>
    match l3Of f e with
    | .ip h =>
      if h.proto ≠ 17 ∨ h.frag ∨ h.stop < h.off + 8 then f
      else
        let g := setAt f (h.off + 6) (zeros 2)
        setAt f (h.off + 6) (beBytes 2 (csumField (onesSum (pseudo h.src h.dst (h.stop - h.off)
          ++ (g.drop h.off).take (h.stop - h.off)))))
    | _ => f

/-- Stage 6 done: the NTS authenticator over the finished payload, the UDP checksum, the FCS. -/
def State.sealJob (s : State) (j : Job) : State :=
  let o := match j.what, j.out, j.nts with
    | some (.program _ _), some o, _ => some (rawOut (fixUdp (s.rd (PRT.VLAN_CFG_OUTER_TPID j.port)) o.bytes))
    | _, some o, some x => some { o with body := ntsSeal x o.body }
    | _, o, _ => o
  let s1 := match j.nts with | some x => s.pipeOps x.pipe (sealOps x) | none => s
  s1.putJob { j with out := o, sealed := true }

def execSealDone (id t : Nat) (s0 : State) : Host.Outcome State Fault Refusal :=
  let s := s0.advance t
  .next (match s.findJob id with
    | some j => if j.st = .held && !j.sealed then s.sealJob j else s
    | none => s)

/-! ### Cancellation (R253, R254, R256) -/

def caLINK : Nat := 0
def caCONFLICT : Nat := 1
def caMISMATCH : Nat := 2
def caLATE : Nat := 3
def caPOISON : Nat := 4
def caISOLATE : Nat := 5
def caFLUSH : Nat := 6
def caMODE : Nat := 7

/-- What is counted of a cancellation. -/
def State.countCancel (s : State) (j : Job) (reason : Nat) : State :=
  let q := j.quad
  let k := 16 * q + 8 * b2n j.checked + reason
  let s1 := (s.stat j.port (if j.checked then 49 else 48)).bump48 (RSP.Q_CANCEL_LO q)
  let s2 := { s1 with rsp := { s1.rsp with cancels := Store.upd zNat s1.rsp.cancels k (fun n => (n + 1) % 2 ^ 32) } }
  let n := s2.rd RSP.CANCEL_LAST_COUNT
  let s3 := s2.setN RSP.CANCEL_LAST (j.port + 2 ^ 8 * reason + 2 ^ 11 * b2n j.checked + 2 ^ 12 * b2n j.rebuilt + 2 ^ 16 * ((n + 1) % 65536))
  let s4 := (s3.count 0 5 q).sticky RSP.STICKY_CANCEL
  if reason = caMISMATCH then s4.sticky RSP.STICKY_MISMATCH else if reason = caLATE then s4.sticky RSP.STICKY_LATE else s4

/-- The Sump reason that follows a cancellation without rebuild. -/
def cancelSump (reason : Nat) : Nat := match reason with | 4 => 0x10 | 5 => 0x19 | 6 => 0x1E | _ => 0x18

/-- A reservation cancelled: a launched frame (one that passed its launch check) can no longer be cancelled for CONFLICT,
MISMATCH or LATE. Its DEPART token is returned and its issue slot is wasted. -/
def State.cancelJob (s : State) (j : Job) (reason : Nat) : State :=
  if j.st ≠ .held ∨ (j.checked = true ∧ (reason = caCONFLICT ∨ reason = caMISMATCH ∨ reason = caLATE)) then s
  else
    let s1 := (s.countCancel j reason).give .depart j.port 1
    let s2 := if j.slotted then s1.slotWasted j.quad else s1
    let j1 := { j with st := .again, slotted := false, slot := none, sealed := false, checked := false }
    let s3 := s2.putJob j1
    if reason < 4 then (if j.rebuilt then (s3.cancelDrop j1).missJob j1 else s3)
    else if j.rebuilt then (s3.cancelDrop j1).missJob j1
    else (s3.sumpJob j1 (cancelSump reason)).missJob j1

/-- Every reservation that satisfies `p` cancelled. -/
def State.cancelWhere (s : State) (p : Job → Bool) (reason : Nat) : State :=
  (s.rsp.jobs.filter (fun j => j.st == .held && p j)).foldl (fun t j => t.cancelJob j reason) s
def State.cancelPort (s : State) (p reason : Nat) : State := s.cancelWhere (fun j => j.port == p) reason
def State.cancelQuad (s : State) (q reason : Nat) : State := s.cancelWhere (fun j => j.quad == q) reason

/-! ### The launch check (R251) -/

def execLaunchCheck (id t : Nat) (s0 : State) : Host.Outcome State Fault Refusal :=
  let s := s0.advance t
  .next (match s.findJob id with
    | none => s
    | some j =>
      match (if j.st = .held && !j.checked then j.slot else none) with
      | none => s
      | some c =>
        if !j.sealed then s.cancelJob j caLATE
        else
          let now : Int := s.tsAt j.ts (ofSigned 64 ((c : Int) + s.txLag j.port))
          if s.rd RSP.CTRL_TOL_Q < (now - j.pred).natAbs then s.cancelJob j caMISMATCH else s.putJob { j with checked := true })

/-! ### Rebuild (R255) -/

/-- A cancelled frame built again, once: a new reservation with the original t_l; the due time of a message still holds. -/
def execRebuild (id t : Nat) (s0 : State) : Host.Outcome State Fault Refusal :=
  let s := s0.advance t
  .next (match s.findJob id with
    | none => s
    | some j =>
      if j.st ≠ .again then s
      else
        let s1 := (s.bump48 (RSP.Q_REBUILT_LO j.quad)).count 0 6 j.quad
        let r := s1.issueSlot { j with rebuilt := true }
        let b := r.1.build r.2
        let te := b.1.raw + j.lead * qNs
        b.1.askSlot { b.2 with te := if j.isReq then te else max te j.te })

/-! ### The commit of a frame (R252) -/

/-- The transmit counters of a frame of `len` bytes (R221, R222). -/
def State.countTx (s : State) (p : Nat) (f : List Byte) (express : Bool) : State :=
  let len := frameLen f.length
  let s1 := ((s.stat p 32).stat p 33 len).stat p (34 + castOf (f.take 6))
  let tagged := match ethOf (s.rd (PRT.VLAN_CFG_OUTER_TPID p)) f with | some h => !h.tags.isEmpty | none => false
  let s2 := if tagged then s1.stat p 37 else s1
  let s3 := if s.on (PRT.STAT_PREEMPT_ACTIVE p) then s2.stat p (if express then 38 else 39) else s2
  ((s3.stat p (sizeBin 40 len)).idleNow p).count 1 2 p

/-- The follow-up of a two-step message is built at its commit and asks for its own departure (R267, R268). -/
def State.followUp (s : State) (j : Job) (w : What) : State :=
  let lead := s.domLead (s.jobDom j)
  let j1 : Job := { blankJob j.port with
    what := some w, seqId := j.seqId, ts := j.ts, frame := j.frame, bank := j.bank, profile := j.profile, lead := lead,
    te := s.raw + lead * qNs, tl := s.raw + 1000000 * qNs,
    out := j.out.map (fun o => if o.v = 0 then o else { o with sport := 320, dport := 320 }), slotted := true }
  let b := s.build j1
  let s1 := (b.1.issue .buffer j.quad 1).slotIssued j.quad
  let id := s1.rsp.nextId
  (s1.addJob b.2).askSlot { b.2 with id := id }

/-- What a message that has left brings with it. -/
def State.afterSend (s : State) (j : Job) : State :=
  let two := match j.out with | some o => bitAt (beAt o.body 6 1) 1 | none => false
  match j.what with
  | some (.sync d g) => if two then s.followUp j (.followUp d g j.pred) else s
  | some .pdelayResp => if two then s.followUp j (.pdelayFollow (s.jobDom j) j.pred) else s
  | some (.delayReq u) =>
    let x := s.upS u
    s.setUpS u { x with dreqs := x.dreqs.map (fun r => if r.seqId = j.seqId then { r with t3 := some j.pred, raw := s.raw } else r) }
  | some (.pdelayReq _) =>
    let x := s.pdS j.port
    if x.seqId = j.seqId then s.setPdS j.port { x with t1 := some j.pred } else s
  | _ => s

/-- What an NTS response counts at its commit. -/
def State.ntsSent (s : State) (j : Job) : State :=
  match j.nts with
  | none => s
  | some x =>
    if x.auth then (s.bump48 (NTS.Q_RESP_LO j.quad)).bump48 NTS.COOKIES_OUT_LO x.cookies
    else s.bump NTS.NAK_COUNT

/-- The commit of a frame built on chip. -/
def State.commitJob (s : State) (j : Job) : State :=
  let bytes := match j.out with | some o => o.bytes | none => []
  let s1 := s.countTx j.port bytes true
  let s2 := match j.what with | some (.esmc _) => s1.stat j.port 52 | _ => s1
  let s3 := if j.isReq then
      (let a := s2.bump48 (RSP.Q_ANSWERED_LO j.quad)
       if j.kod then (a.bump48 (RSP.Q_KOD_LO j.quad)).count 0 3 j.quad else a)
    else s2
  let cal := !j.isReq && (match j.what with | some w => w.isCal | none => false)
  let s4 := if cal then s3.bump48 PTP.CAL_SENT_LO else s3
  ((s4.ntsSent j).answerJob j).afterSend j

/-- The commit of a host frame: its stamp record before its completion (R362, R363). -/
def State.commitTx (s : State) (f : TxFrame) (rawS : Nat) : State :=
  let p := f.port
  let s1 := (s.countTx p f.bytes f.express).freeTx f
  let len := f.bytes.length
  if !f.stamp then s1.txCpl f.ring f.slot f.ndesc f.tag stOK len 0
  else
    let x : Int := (rawS : Int) + s1.txLag p
    let time := if f.rawTs then ofSigned 96 x else s1.tsAt f.ts (ofSigned 64 x)
    let rcd := stampBytes time (if f.rawTs then 0xFF else f.ts) (1 + 2 * b2n s1.srcWarm + 4 * b2n f.poisoned) f.tag
    let ring := s1.rd (ringFld f.ring 7 16 10)
    let s2 := ((s1.qPut (64 + p)).qTake (64 + p)).stat p 54
    let r := s2.writeStamp ring rcd
    let s3 := if r.2 then r.1 else r.1.stampLost p ring
    s3.txCpl f.ring f.slot f.ndesc f.tag stOK len (b2n (!r.2))

/-- The first frame of its ring and port in the pool: frames of one ring to one port leave in SQ order. -/
def State.txFirst (s : State) (f : TxFrame) : Bool :=
  match s.prt.tx.find? (fun x => x.ring == f.ring && x.port == f.port) with | some x => x.id == f.id | none => false

/-- A frame's last FCS byte passes into the PCS; `rawS` is when its S crossed the boundary, for a host frame. -/
def execFrameCommit (id rawS t : Nat) (s0 : State) : Host.Outcome State Fault Refusal :=
  let s := s0.advance t
  .next (match s.findJob id with
    | some j => if j.st = .held && j.checked then s.commitJob j else s
    | none =>
      match s.findTx id with
      | some f => if s.linkUp f.port && s.txFirst f then s.commitTx f rawS else s
      | none => s)

end Sys2Proof.Machine
end

