-- ==== Sys2Proof/Machine/Evt.lean ====
section
/-! DEFINITION. EVT: pulse outputs (R306 to R310), captures (R311, R312), scheduled commands (R314 to R317) and commit
group EVT (R318). The write a slot makes is in Machine/RegAccess.lean. -/

namespace Sys2Proof.Machine

def dPulse : Nat → Pulse := fun _ => ⟨none, none, false, false⟩
def State.pulse (s : State) (n : Nat) : Pulse := Store.get dPulse s.evt.pulses n

/-- A pulse output's state, with `EVT.PULSE_STAT` kept in step. -/
def State.setPulse (s : State) (n : Nat) (p : Pulse) : State :=
  let s1 := { s with evt := { s.evt with pulses := Store.put dPulse s.evt.pulses n p } }
  (s1.wrB ⟨EVT.PULSE_STAT, n, 1⟩ p.act.isSome).wrB ⟨EVT.PULSE_STAT, 16 + n, 1⟩ (p.next.isSome || p.act.isSome)

/-- D_out of an output or D_in of an input in q (R307, R311). -/
def State.evtDelay (s : State) (i dir : Nat) : Int := s.sreg (Tbl.evtDelay.key (i + 16 * dir)) * 256

/-! ### Pulse outputs -/

/-- U of R306 in ns. -/
def wunitNs (u : Nat) : Nat := 10 ^ u

/-- W, START and PERIOD of an output in q. -/
def State.pulseW (s : State) (n : Nat) : Nat := s.rd (EVT.PULSE_CFG_WIDTH n) * wunitNs (s.rd (EVT.PULSE_CFG_WUNIT n)) * qNs
def State.pulseStart (s : State) (n : Nat) : Nat := s.reg64 (EVT.PULSE_START_LO n)
def State.pulsePeriod (s : State) (n : Nat) : Nat := s.nreg (EVT.PULSE_PERIOD n) * qNs
def State.pulseTs (s : State) (n : Nat) : Nat := s.rd (EVT.PULSE_CFG_TS n)

/-- The value at which compare unit `n` fires for a leading edge at `g`: early by the output's delay (R307). The fixed
output latency is inside the engine and not modelled. -/
def State.pulseFire (s : State) (n g : Nat) : Nat := ofSigned 64 ((g : Int) - s.evtDelay n 0)

/-- Compare unit `n` armed for the next leading edge, or disarmed where there is none. -/
def State.armPulse (s : State) (n : Nat) : State :=
  match (s.pulse n).next with
  | some g => s.arm n (s.pulseTs n) (s.pulseFire n g)
  | none => s.disarm n

/-- `g` moved on by whole periods to the first edge that does not lie behind value `v`, and how many were passed. -/
def skipTo (g period v : Nat) : Nat × Nat :=
  let d := cmpDiff g v
  if d < 0 ∧ 0 < period then
    let k := ceilDiv d.natAbs period
    ((g + k * period) % 2 ^ 64, k)
  else (g, 0)

/-- An output starts its schedule with the committed set (R310): a periodic one behind the timescale moves to its first
edge at least 1 µs ahead. -/
def State.startPulse (s : State) (n : Nat) : State :=
  let p := s.pulse n
  if s.on (EVT.PULSE_CFG_EN n) then
    let v := s.tsNow (s.pulseTs n)
    let g := s.pulseStart n
    let g1 := if s.on (EVT.PULSE_CFG_PERIODIC n) && decide (cmpDiff g v < 0) then
        (skipTo g (s.pulsePeriod n) (v + 1000 * qNs)).1 else g
    (s.setPulse n { p with next := some g1 }).armPulse n
  else (s.setPulse n { p with next := none }).armPulse n

/-- R309: whether the discipline state (0 FREE_RUN, 2 LOCKED, 4 HOLDOVER_EXPIRED) lets a pulse through. -/
def State.gateOpen (s : State) (n : Nat) : Bool :=
  match s.rd (EVT.PULSE_CFG_GATE n) with
  | 0 => true
  | 1 => s.rd DSC.STATE_STATE != 0 && s.rd DSC.STATE_STATE != 4
  | _ => s.rd DSC.STATE_STATE == 2

/-- Edges not produced because a forward step passed over them (R308). -/
def State.missPulses (s : State) (k : Nat) : State :=
  if k = 0 then s else (s.bump EVT.MISSED k).sticky EVT.STICKY_PULSE_LATE

/-- The leading edge at `g`, placed or suppressed (R306, R309); `next` is what follows it. -/
def State.leadPulse (s : State) (n g : Nat) (next : Option Nat) : State :=
  let p := s.pulse n
  if s.gateOpen n then
    let a : Active := ⟨(g + s.pulseW n) % 2 ^ 64, s.pulseTs n, s.evtDelay n 0, s.on (EVT.PULSE_CFG_POL n)⟩
    (s.setPulse n { p with next := next, act := some a }).armPulse n
  else ((s.setPulse n { p with next := next }).armPulse n).sticky EVT.STICKY_PULSE_SUPPRESSED

/-- Compare unit `n` fires for a pulse output (R306 to R309). -/
def State.pulseFires (s : State) (n : Nat) (late : Bool) : State :=
  match (s.pulse n).next with
  | none => s
  | some g =>
    if s.on (EVT.PULSE_CFG_PERIODIC n) then
      if late then
        let k := skipTo g (s.pulsePeriod n) (ofSigned 64 ((s.tsNow (s.pulseTs n) : Int) + s.evtDelay n 0))
        ((s.setPulse n { s.pulse n with next := some k.1 }).armPulse n).missPulses k.2
      else s.leadPulse n g (some ((g + s.pulsePeriod n) % 2 ^ 64))
    else if late then
      let s1 := s.sticky EVT.STICKY_PULSE_LATE
      if s1.on (EVT.PULSE_CFG_LATE_FIRE n) then
        s1.leadPulse n (ofSigned 64 ((s1.tsNow (s1.pulseTs n) : Int) + s1.evtDelay n 0)) none
      else (s1.setPulse n { s1.pulse n with next := none }).armPulse n
    else s.leadPulse n g none

/-- PENDING of commit group EVT clears once no output waits (R318). -/
def State.evtTaken (s : State) : State :=
  if (List.range 16).any (fun n => (s.pulse n).waits) then s else s.wr EVT.COMMIT_PENDING 0

/-- R306: the trailing edge is placed once its value is due; an output that waited takes the committed set (R318). -/
def State.trailPulse (s : State) (n : Nat) : State :=
  let p := s.pulse n
  match p.act with
  | none => s
  | some a =>
    if cmpDiff (ofSigned 64 ((a.trail : Int) - a.delay)) (s.tsAt a.ts (s.raw + 65536)) < 0 then
      let s1 := s.setPulse n { p with act := none, waits := false, restart := false }
      if p.waits then (if p.restart then s1.startPulse n else s1.armPulse n).evtTaken else s1
    else s

/-- Timescales were stepped between `old` and `s` (R308): leading edges of periodic outputs that are passed over are
missed, and a trailing edge follows at W on the new values. -/
def State.pulsesStepped (s old : State) : State :=
  (List.range 16).foldl (fun t n =>
    let p := t.pulse n
    let t1 := match p.act with
      | none => t
      | some a =>
        let by' := (t.tsNow a.ts : Int) - old.tsNow a.ts
        t.setPulse n { p with act := some { a with trail := ofSigned 64 ((a.trail : Int) + by') } }
    match p.next with
    | none => t1
    | some g =>
      let ts := t1.pulseTs n
      if t1.on (EVT.PULSE_CFG_PERIODIC n) && t1.tsNow ts != old.tsNow ts then
        let k := skipTo g (t1.pulsePeriod n) (ofSigned 64 ((t1.tsNow ts : Int) + t1.evtDelay n 0))
        ((t1.setPulse n { t1.pulse n with next := some k.1 }).armPulse n).missPulses k.2
      else t1) s

/-! ### Commit group EVT (R318) -/

/-- Whether the shadow set of an output passes (R310, R318). -/
def State.pulseOk (s : State) (n : Nat) : Bool :=
  if s.shd (EVT.PULSE_CFG_EN n) = 0 then true
  else
    let u := s.shd (EVT.PULSE_CFG_WUNIT n)
    let w := s.shd (EVT.PULSE_CFG_WIDTH n) * wunitNs u
    let p := s.shadowWord (EVT.PULSE_PERIOD n)
    u != 7 && s.shd (EVT.PULSE_CFG_GATE n) != 3 && decide (100 ≤ p) && decide (20 ≤ w) && decide (w + 20 ≤ p)

def State.evtValid (s : State) : Bool :=
  (List.range 16).all s.pulseOk
  && (List.range 16).all (fun i => s.shd (EVT.CAP_CFG_EN i) == 0
      || (s.shd (EVT.CAP_CFG_EDGE i) != 3
          && (let r := s.shd (EVT.CAP_CFG_RING i)
              s.ringKind r == 3 && decide ((s.ringOf r).st = .enabled))))
  && (List.range 32).all (fun i => decide ((toSigned 32 (s.shadowWord (Tbl.evtDelay.key i))).natAbs ≤ 25600000))

/-- Whether a commit restarts output `n`. -/
def State.pulseRestarts (s : State) (n : Nat) : Bool :=
  s.shd (EVT.PULSE_CFG_EN n) != s.rd (EVT.PULSE_CFG_EN n)
  || s.shd (EVT.PULSE_CFG_PERIODIC n) != s.rd (EVT.PULSE_CFG_PERIODIC n)
  || s.shd (EVT.PULSE_CFG_TS n) != s.rd (EVT.PULSE_CFG_TS n)
  || s.shadowWord (EVT.PULSE_START_LO n) != s.nreg (EVT.PULSE_START_LO n)
  || s.shadowWord (EVT.PULSE_START_HI n) != s.nreg (EVT.PULSE_START_HI n)
  || s.shadowWord (EVT.PULSE_PERIOD n) != s.nreg (EVT.PULSE_PERIOD n)

/-- Commit group EVT takes effect; an output at its active level takes it at its trailing edge, and PENDING stays until
then. -/
def State.evtApply (s : State) : State :=
  let again := (List.range 16).filter s.pulseRestarts
  let s1 := s.applyShadows .evt
  let s2 := (List.range 16).foldl (fun t n =>
    let p := t.pulse n
    if p.act.isSome then t.setPulse n { p with waits := true, restart := again.contains n }
    else if again.contains n then t.startPulse n
    else t.armPulse n) s1
  s2.evtTaken

/-- Whether the last commit still waits for outputs. -/
def State.evtWaits (s : State) : Bool := (List.range 16).any (fun n => (s.pulse n).waits)

def execPulseTrailingEdge (n t : Nat) (s : State) : Host.Outcome State Fault Refusal :=
  .next (if n < 16 then (s.advance t).trailPulse n else s.advance t)

/-! ### Captures (R311, R312) -/

/-- Whether EDGE stamps this edge. -/
def edgeSense (sense : Nat) (rising : Bool) : Bool :=
  match sense with | 0 => rising | 1 => !rising | _ => true

/-- The stamp record of an edge on a capture input at raw value `edge`. -/
def State.capStamp (s : State) (i : Nat) (rising poisoned : Bool) (edge : Nat) : List Byte :=
  let raw := s.on (EVT.CAP_CFG_RAW i)
  let ts := s.rd (EVT.CAP_CFG_TS i)
  let v := ofSigned 96 (((if raw then edge else s.tsAt ts edge : Nat) : Int) - s.evtDelay i 1)
  stampBytes v (if raw then 0xFF else ts) (s.stampFlags poisoned false)
    (i + 16 * b2n rising + 32 * s.rd (EVT.CAP_CFG_TAG i))

/-- R311, R312: an edge on a capture input at raw value `edge`. -/
def execCaptureEdge (i : Nat) (rising poisoned : Bool) (edge t : Nat) (s0 : State) : Host.Outcome State Fault Refusal :=
  let s := s0.advance t
  .next (
    if 16 ≤ i ∨ !s.on (EVT.CAP_CFG_EN i) ∨ !edgeSense (s.rd (EVT.CAP_CFG_EDGE i)) rising then s
    else
      let last := Store.get zNat s.evt.capRaw i
      if last ≠ 0 ∧ edge + 1 < last + 20 * qNs then
        (s.satF (EVT.CAP_STAT_DEAD i)).sticky EVT.STICKY_CAP_DEAD
      else
        let r := s.capStamp i rising poisoned edge
        let s1 := { s with evt := { s.evt with capRaw := Store.put zNat s.evt.capRaw i (edge + 1),
                                               capLast := Store.put (fun _ => []) s.evt.capLast i r } }
        (if poisoned then s1.poisonSeen else s1).postNoted (s.rd (EVT.CAP_CFG_RING i)) 7 r)

/-- The latest stamp of the input `EVT.CAP_SEL` selects (R312). -/
def State.capLastSel (s : State) : List Byte := Store.get (fun _ => []) s.evt.capLast (s.rd EVT.CAP_SEL_INPUT)

/-! ### Scheduled commands (R314 to R317) -/

def State.schedOf (s : State) (k : Nat) : Option Sched := Store.get (fun _ => none) s.evt.slots k

/-- A slot holds a command, or none; BUSY follows. -/
def State.setSched (s : State) (k : Nat) (x : Option Sched) : State :=
  let s1 := { s with evt := { s.evt with slots := Store.put (fun _ => none) s.evt.slots k x } }
  s1.wrB ⟨EVT.SCHED_STAT, k, 1⟩ x.isSome

/-- What EVT keeps of a SCHEDULE that completes; `k` its slot, where it had one. -/
def State.schedNote (s : State) (k : Option Nat) (status : Nat) : State :=
  let s1 := match k with | some n => s.wr EVT.SCHED_LAST_SLOT n | none => s
  let s2 := (s1.wr EVT.SCHED_LAST_STATUS status).wr EVT.SCHED_LAST_SECONDS s1.sec0
  if status = stOK then (s2.bumpF EVT.SCHED_STAT_DONE).sticky EVT.STICKY_SCHED_DONE
  else (s2.bump EVT.SCHED_REFUSED).sticky EVT.STICKY_SCHED_FAIL

/-- A slot ends: it is freed, its unit disarmed, and its command completes. -/
def State.endSlot (s : State) (k status : Nat) : State :=
  match s.schedOf k with
  | none => s
  | some x => ((((s.setSched k none).disarm (23 + k)).schedNote (some k) status).complete x.cmd status 0)

/-- Every pending slot completes ABORTED (R317). -/
def State.abortScheds (s : State) : State := (List.range 8).foldl (fun t k => t.endSlot k stABORTED) s

/-- Addresses a scheduled write may not name (R314). -/
def schedBarred (a : Nat) : Bool := a == GLB.MODE_REQ || a == GLB.RESET_CTRL || a == DSC.STEP_CMD

/-- R314, R316: SCHEDULE. -/
def execSchedule (c : HostCmd) (t : Nat) (s0 : State) : Host.Outcome State Fault Refusal :=
  let s := s0.advance t
  let target := c.u 0 12
  let ts := bitsOf (c.u 12 1) 0 6
  let lateOk := bitAt (c.u 12 1) 6
  let addr := c.u 16 4
  let now := s.tsNow ts
  let free := firstIdx 8 (fun k => (s.schedOf k).isNone)
  let code := c.code [
    codeIf (bitAt (c.u 12 1) 7 || !c.zero 13 16 || !c.zero 24 32 || addr % 4 != 0 || (rowAt addr).isNone
      || s.absentReg addr || schedBarred addr || decide (now + 2 ^ 63 ≤ target)) stREFUSED,
    codeIf free.isNone stBUSY,
    codeIf (c.fn != 0 && !s.on EVT.CTRL_SCHED_VF) stDENIED,
    codeIf (decide (target < now) && !lateOk) stSTALE,
    codeIf s.modeNoCmd stMODE_FORBIDS]
  .next (match free with
    | some k =>
      if code ≠ 0 then
        let s1 := if code = stREFUSED then s.refuseCfg .evt else s
        (s1.schedNote none code).complete c code 0
      else (s.setSched k (some ⟨c, ts, target, lateOk, addr, c.u 20 4⟩)).arm (23 + k) ts
        (if target < now then now + 2 ^ 64 - 1 else target)
    | none =>
      let s1 := if code = stREFUSED then s.refuseCfg .evt else s
      (s1.schedNote none code).complete c code 0)

/-- R317: CANCEL. -/
def execScheduleCancel (c : HostCmd) (t : Nat) (s0 : State) : Host.Outcome State Fault Refusal :=
  let s := s0.advance t
  let b := c.u 0 1
  let named := (List.range 8).filter (fun k => (b == 0xFF || b == k) &&
    (match s.schedOf k with | some x => x.cmd.fn == c.fn | none => false))
  let code := c.code [codeIf ((decide (8 ≤ b) && b != 0xFF) || !c.zero 1 32) stREFUSED, codeIf named.isEmpty stZERO_LEN]
  .next (
    if code = stREFUSED then (s.refuseCfg .evt).complete c code 0
    else if code ≠ 0 then s.complete c code 0
    else (named.foldl (fun u k => u.endSlot k stABORTED) s).complete c stOK named.length)

end Sys2Proof.Machine
end

