-- ==== Sys2Proof/Machine/Vid.lean ====
section
/-! DEFINITION. VID: positions on the SMPTE epoch (R319), the outputs (R320 to R324), the genlock input (R325, R326), what
the line sequencers write (R327) and commit group VID (R329). Outputs are numbered DAC 0 to 3, LTC 4 and 5, word clock 6
and 7. -/

namespace Sys2Proof.Machine

def dVOut : Nat → VOut := fun _ => ⟨false, none, none, 0, 0⟩
def State.vout (s : State) (o : Nat) : VOut := Store.get dVOut s.vid.outs o

/-! ### Positions (R319, R322, R323) -/

/-- A time grid: boundary k lies at k × num / den seconds. -/
structure Grid where
  num : Nat
  den : Nat
  deriving DecidableEq, Repr

/-- The index of the last boundary at or before value `v` (a timescale-0 value less DELAY, in q). -/
def Grid.idx (g : Grid) (v : Int) : Int := v * g.den / ((g.num * qSec : Nat) : Int)

/-- The value of boundary `k`, rounded up to whole q. -/
def Grid.at' (g : Grid) (k : Int) : Int := -(-(k * ((g.num * qSec : Nat) : Int)) / g.den)

/-- P of R322. -/
def ltcGrid (rate : Nat) : Grid :=
  match rate with | 0 => ⟨1, 24⟩ | 1 => ⟨1, 25⟩ | 2 => ⟨1001, 30000⟩ | 3 => ⟨1001, 30000⟩ | _ => ⟨1, 30⟩

/-- 1/f of R323. -/
def wcGrid (rate : Nat) (pull : Bool) : Grid :=
  let f := match rate with | 0 => 44100 | 1 => 48000 | 2 => 96000 | _ => 192000
  if pull then ⟨1001, f * 1000⟩ else ⟨1, f⟩

/-- Sequence boundaries of a DAC, frame boundaries of an LTC output, rising edges of a word clock (R324). -/
def State.voGrid (s : State) (o : Nat) : Grid :=
  if o < 4 then (match vidFormat (s.rd (VID.OUT_CFG_FORMAT o)) with
    | some v => ⟨v.num * v.seq, v.den⟩
    | none => ⟨1, 1⟩)
  else if o < 6 then ltcGrid (s.rd (VID.LTC_CFG_RATE (o - 4)))
  else wcGrid (s.rd (VID.WC_CFG_RATE (o - 6))) (s.on (VID.WC_CFG_PULLDOWN (o - 6)))

/-- The enable bit and the delay register of an output. -/
def voEn (o : Nat) : Fld :=
  if o < 4 then VID.OUT_CFG_EN o else if o < 6 then VID.LTC_CFG_EN (o - 4) else VID.WC_CFG_EN (o - 6)
def voDelay (o : Nat) : Nat :=
  if o < 4 then VID.OUT_DELAY o else if o < 6 then VID.LTC_DELAY (o - 4) else VID.WC_DELAY (o - 6)

/-- The DELAY an output has now, in units of 2^-8 ns: where its walk has come to, or its register. -/
def State.voDelayNow (s : State) (o : Nat) : Int :=
  match (s.vout o).walk with
  | some w => walkAt w (s.rd DSC.PULL_CFG_SLOPE) (s.tsNow 0)
  | none => s.sreg (voDelay o)

/-- Timescale 0 now, less the output's DELAY, in q. -/
def State.voNow (s : State) (o : Nat) : Int := (s.tsNow 0 : Int) - s.voDelayNow o * 256

/-- The index of an output's last boundary. -/
def State.voIdx (s : State) (o : Nat) : Int := (s.voGrid o).idx (s.voNow o)

/-! ### Outputs (R324) -/

/-- The modes and the domain state in which outputs may run (R54). -/
def State.vidOn (s : State) : Bool :=
  s.mode != 0 && s.mode != 1 && s.mode != 8 && s.mode != 11 && decide (s.domState 38 < 2)

/-- The status bits of an output: RUNNING, WAITING, WALKING. -/
def State.showVout (s : State) (o : Nat) : State :=
  let x := s.vout o
  let s1 := s.wrB ⟨VID.STAT, o, 1⟩ x.running
  if 4 ≤ o ∧ o < 6 then s1
  else
    let r := if o < 4 then VID.OUT_STAT o else VID.WC_STAT (o - 6)
    ((s1.wrB ⟨r, 0, 1⟩ x.running).wrB ⟨r, 1, 1⟩ x.waiting.isSome).wrB ⟨r, 2, 1⟩ x.walk.isSome

def State.setVout (s : State) (o : Nat) (x : VOut) : State :=
  ({ s with vid := { s.vid with outs := Store.put dVOut s.vid.outs o x } }).showVout o

/-- Rising edges a word clock has sent (R323). -/
def State.wcEdges (s : State) (o : Nat) : Nat :=
  let x := s.vout o
  if x.running then x.sent + (s.voIdx o + 1 - x.startIdx).toNat else x.sent

/-- An output stops at the end of its element; it waits again where it is enabled. -/
def State.stopVout (s : State) (o : Nat) : State :=
  s.setVout o ⟨false, if s.on (voEn o) then some (s.tsNow 0) else none, none, s.wcEdges o % 2 ^ 32, 0⟩

/-- The MUTED bits of the outputs and of `VID.STAT`. -/
def State.showMuted (s : State) (b : Bool) : State :=
  let s1 := s.wrB VID.STAT_MUTED b
  let s2 := (List.range 4).foldl (fun t n => t.wrB (VID.OUT_STAT_MUTED n) (b && t.on (VID.OUT_CFG_EN n))) s1
  (List.range 2).foldl (fun t n => t.wrB ⟨VID.WC_STAT n, 3, 1⟩ (b && t.on (VID.WC_CFG_EN n))) s2

/-- MUTE_FREE holds every output while DSC is in FREE_RUN (R324). -/
def State.settleMute (s : State) : State :=
  let want := s.on VID.CTRL_MUTE_FREE && s.rd DSC.STATE_STATE == 0
  if want && !s.on VID.STAT_MUTED then
    let any := (List.range 8).any (fun o => s.on (voEn o))
    let s1 := (List.range 8).foldl (fun t o => if (t.vout o).running then t.stopVout o else t) s
    let s2 := s1.showMuted true
    if any then s2.sticky VID.STICKY_MUTED else s2
  else if !want && s.on VID.STAT_MUTED then
    (List.range 8).foldl (fun t o => if t.on (voEn o) then t.stopVout o else t) (s.showMuted false)
  else s

/-- A step of timescale 0 restarts every running output (R320). -/
def State.vidStepped (s : State) : State :=
  let run := (List.range 8).filter (fun o => (s.vout o).running)
  if run.isEmpty then s
  else ((run.foldl (fun t o => t.stopVout o) s).bump VID.RESTARTS run.length).sticky VID.STICKY_RESTART

/-- R324: a waiting output begins at its first boundary after the event. -/
def execVideoOutputStart (o t : Nat) (s0 : State) : Host.Outcome State Fault Refusal :=
  let s := s0.advance t
  let x := s.vout o
  .next (match x.waiting with
    | none => s
    | some w =>
      let was := (s.voGrid o).idx ((w : Int) - s.voDelayNow o * 256)
      if o < 8 ∧ s.vidOn = true ∧ s.on VID.STAT_MUTED = false ∧ was < s.voIdx o then
        let s1 := s.setVout o { x with running := true, waiting := none, startIdx := s.voIdx o }
        if o < 4 then s1.bumpF (VID.OUT_STAT_RESTARTS o)
        else if 6 ≤ o then s1.bumpF ⟨VID.WC_STAT (o - 6), 16, 16⟩ else s1
      else s)

/-- R324: an output's walk arrives. -/
def execVideoWalkDone (o t : Nat) (s0 : State) : Host.Outcome State Fault Refusal :=
  let s := s0.advance t
  let x := s.vout o
  .next (match x.walk with
    | some w => if walkAt w (s.rd DSC.PULL_CFG_SLOPE) (s.tsNow 0) = w.goal then s.setVout o { x with walk := none } else s
    | none => s)

/-! ### LTC (R322) -/

/-- The drop-frame label count of frame `n` of the day (ST 12-1). -/
def dropCount (n : Nat) : Nat :=
  let d := n / 17982
  let m := n % 17982
  n + 18 * d + 2 * ((m - 2) / 1798)

def bcd (x : Nat) : Nat := x % 10 + 16 * (x / 10 % 10)

/-- The time address of the frame whose bit 0 falls at value `v` of its timescale, as `VID.LTC_STAT` shows it. -/
def State.ltcAddress (s : State) (n v : Nat) : Nat :=
  let rate := s.rd (VID.LTC_CFG_RATE n)
  let ts := s.rd (VID.LTC_CFG_TS n)
  let sec : Int := if s.on (VID.LTC_CFG_UTC n) then s.utcSec ts v else taiSec v
  let loc := ((sec + s.rdI (VID.LTC_CFG_ZONE n) * 900) % 86400).toNat
  let g := ltcGrid rate
  let per := match rate with | 0 => 24 | 1 => 25 | _ => 30
  let count := if rate = 2 ∨ rate = 3 then
      let k := (g.idx ((loc * qSec + v % qSec : Nat) : Int)).toNat
      if rate = 2 then dropCount k else k
    else loc * per + (g.idx ((v % qSec : Nat) : Int)).toNat
  let s' := count / per
  bcd (count % per) + 2 ^ 8 * bcd (s' % 60) + 2 ^ 16 * bcd (s' / 60 % 60) + 2 ^ 24 * bcd (s' / 3600 % 24)

/-- The user bits in force 100 µs before raw value `r` (R322): the newest write older than that. -/
def latchedBits (ws : List (Nat × Nat)) (r : Nat) : Nat :=
  match ws.find? (fun w => decide (w.1 + 100000 * qNs ≤ r)) with | some w => w.2 | none => 0

/-- LTC_UBITS written: the register, and when, for the latch. Writes older than the newest that can still be latched are
forgotten. -/
def State.writeUbits (s : State) (n v : Nat) : State :=
  let ws := Store.get (fun _ => []) s.vid.ubits n
  let young := ws.takeWhile (fun w => decide (s.raw < w.1 + 100000 * qNs))
  let old := (ws.drop young.length).take 1
  let all := (s.raw, v % 2 ^ 32) :: (young ++ old)
  let s1 := { s with vid := { s.vid with ubits := Store.put (fun _ => []) s.vid.ubits n all } }
  s1.setN (VID.LTC_UBITS n) v

/-- R322: an LTC frame starts. -/
def execLtcFrame (n t : Nat) (s0 : State) : Host.Outcome State Fault Refusal :=
  let s := s0.advance t
  let o := 4 + n
  let k := s.voIdx o
  let x := s.vout o
  .next (
    if 2 ≤ n ∨ !x.running ∨ !s.vidOn ∨ k < x.startIdx
        ∨ (s.vid.lastFrame.any (fun e => e.1 == n && e.2 == k)) then s
    else
      let ts := s.rd (VID.LTC_CFG_TS n)
      let past := s.voNow o - (s.voGrid o).at' k
      let v := ofSigned 96 ((s.tsNow ts : Int) - past)
      let ofs : Int := if s.on (VID.LTC_CFG_UTC n) then (taiSec v : Int) - s.utcSec ts v else 0
      let leap := s.vid.lastOfs.any (fun e => e.1 == n && e.2 != ofs)
      let bits := latchedBits (Store.get (fun _ => []) s.vid.ubits n) s.raw
      let z : Nat → Int := fun _ => 2 ^ 100
      let s1 := { s with vid := { s.vid with lastFrame := Store.put z s.vid.lastFrame n k,
                                             lastOfs := Store.put z s.vid.lastOfs n ofs,
                                             sentBits := Store.put zNat s.vid.sentBits n bits } }
      let s2 := (s1.setN (VID.LTC_STAT n) (s1.ltcAddress n v)).count 11 1 0
      if leap then s2.sticky VID.STICKY_LTC_LEAP else s2)

/-- R327: a line sequencer writes user bits. -/
def execLtcUbitsPortWrite (n val t : Nat) (s : State) : Host.Outcome State Fault Refusal :=
  .next (if n < 2 then (s.advance t).writeUbits n val else s.advance t)

/-- R377: a line sequencer arms compare unit 21 or 22 again. -/
def execCompareRearm (u ts target t : Nat) (s : State) : Host.Outcome State Fault Refusal :=
  .next (if u = 21 ∨ u = 22 then (s.advance t).arm u (ts % 64) target else s.advance t)

/-! ### Genlock (R325, R326) -/

/-- The genlock input becomes unlocked. -/
def State.glUnlock (s : State) : State :=
  if s.on VID.GL_STAT_LOCKED then
    let s1 := ((s.wr VID.GL_STAT_LOCKED 0).wr VID.STAT_GL_LOCKED 0).bump VID.GL_UNLOCKS
    let s2 := { s1 with vid := { s1.vid with glPhi := none } }
    let s3 := match s2.slotBound 4 0 with | some n => (s2.forgetSource n).lookSlot n | none => s2
    s3.sticky VID.STICKY_GL_UNLOCK
  else s

/-- A genlock frame that is missing or does not match. -/
def State.glMiss (s : State) : State :=
  let s1 := { s with vid := { s.vid with glBad := s.vid.glBad + 1 } }
  let s2 := s1.wr VID.GL_STAT_GOOD 0
  if 2 ≤ s1.vid.glBad then s2.glUnlock else s2

/-- A frame that matches its format. -/
def State.glMatch (s : State) : State :=
  let s1 := { s with vid := { s.vid with glBad := 0 } }
  let g := min 255 (s1.rd VID.GL_STAT_GOOD + 1)
  let s2 := s1.wr VID.GL_STAT_GOOD g
  if 8 ≤ g ∧ s2.on VID.GL_STAT_LOCKED = false then
    ((s2.wr VID.GL_STAT_LOCKED 1).wr VID.STAT_GL_LOCKED 1).sticky VID.STICKY_GL_LOCK
  else s2

/-- The stamp minus the nearest alignment point of a format with DELAY 0, in q. -/
def glPhase (v : VidFormat) (stamp : Nat) : Int :=
  let g : Grid := ⟨v.num, v.den⟩
  let k := g.idx stamp
  let a := (stamp : Int) - g.at' k
  let b := g.at' (k + 1) - stamp
  if a ≤ b then a else -b

/-- The sample of a locked frame to the genlock slot (R326): φ is reference minus timescale 0, with whole frames counted. -/
def State.glSample (s : State) (v : VidFormat) (edge : Nat) : State :=
  let stamp := ofSigned 96 ((s.tsAt 0 edge : Int) - s.sreg VID.GL_DELAY * 256)
  let ph := glPhase v stamp
  let s1 := s.setN VID.GL_PHASE (ofSigned 32 (truncDiv ph 256))
  let phi := match s1.vid.glPhi with
    | some p => -ph + roundDiv (roundDiv ((p + ph) * v.den) ((v.num * qSec : Nat) : Int) * (v.num * qSec : Nat)) v.den
    | none => -ph
  let s2 := { s1 with vid := { s1.vid with glPhi := some phi } }
  match s2.slotBound 4 0 with
  | some n => ((s2.bump VID.GL_FRAMES).count 11 2 0).measure n ⟨stamp, phi, edge⟩ (-ph) false
  | none => s2

/-- R325, R326: a genlock frame of `lines` lines that lasted `period` q, with its alignment point at raw value `edge`. -/
def execGenlockFrame (lines period syncMv burstMv edge t : Nat) (s0 : State) : Host.Outcome State Fault Refusal :=
  let s := (s0.advance t).seqEvent 49 1
  .next (match (if s.on VID.GL_CFG_EN && s.vidOn && !s.on VID.SEQ_STAT_FAULT1 then vidFormat (s.rd VID.GL_CFG_FORMAT) else none) with
    | none => s
    | some v =>
      let s1 := ((s.wr VID.GL_STAT_LINES lines).wr VID.GL_LEVEL_SYNC_MV syncMv).wr VID.GL_LEVEL_BURST_MV
        (if s.rd VID.GL_CFG_FORMAT < 3 then burstMv else 0)
      let off := (((period * v.den : Nat) : Int) - ((v.num * qSec : Nat) : Int)).natAbs
      let ok := lines == v.lines && decide (off * 10000 ≤ v.num * qSec)
      let s2 := if lines = v.lines then s1 else s1.sticky VID.STICKY_GL_FORMAT
      let s3 := if ok then s2.glMatch else s2.glMiss
      if s3.on VID.GL_STAT_LOCKED then s3.glSample v edge else s3)

/-- R325: a frame period without a genlock frame. -/
def execGenlockFrameMissing (t : Nat) (s0 : State) : Host.Outcome State Fault Refusal :=
  let s := s0.advance t
  .next (if s.on VID.GL_CFG_EN && s.vidOn then s.glMiss else s)

/-! ### Position snapshots (R319) -/

/-- `VID.POS_CTRL.GO`. -/
def State.posGo (s : State) (format : Nat) : State :=
  let t0 := s.tsNow 0
  let s1 := ((s.wr VID.POS_CTRL_FORMAT format).bumpF VID.POS_CTRL_COUNT).set96 VID.POS_TIME_LO t0
  match vidFormat (format % 16) with
  | none => ((s1.set64 VID.POS_FRAME_LO 0).setN VID.POS_LINE 0).setN VID.POS_FRAC 0
  | some v =>
    let p := v.num * qSec
    let k := t0 * v.den / p
    let r := (t0 * v.den % p) * v.lines
    ((((s1.setN VID.POS_FRAME_LO k).setN VID.POS_FRAME_HI (k / 2 ^ 32 % 2 ^ 16)).setN VID.POS_LINE
      (r / p + 2 ^ 16 * (k % v.seq))).setN VID.POS_FRAC (r % p * 2 ^ 32 / p))

def execPosGo (m val t : Nat) (s0 : State) : Host.Outcome State Fault Refusal :=
  let s := s0.advance t
  .next (match s.access m VID.POS_CTRL .write with
    | .granted => s.posGo (val % 16)
    | .denied => s.deny m 11 .write
    | _ => s)

/-! ### Commit group VID (R329) -/

def State.vidValid (s : State) : Bool :=
  (List.range 4).all (fun n => s.shd (VID.OUT_CFG_EN n) == 0 || s.shd (VID.OUT_CFG_FORMAT n) != 0)
  && (List.range 2).all (fun n => s.shd (VID.LTC_CFG_EN n) == 0
      || (decide (s.shd (VID.LTC_CFG_RATE n) < 5) && decide ((toSigned 8 (s.shd (VID.LTC_CFG_ZONE n))).natAbs ≤ 56)))
  && (s.shd VID.GL_CFG_EN == 0 || s.shd VID.GL_CFG_FORMAT != 0)

/-- Whether a commit restarts output `o`: EN, FORMAT, RATE, PULLDOWN or TS changed, or DELAY of a DAC with CUT = 1. -/
def State.voRestarts (s old : State) (o : Nat) : Bool :=
  let d := fun (f : Fld) => s.rd f != old.rd f
  d (voEn o) ||
    (if o < 4 then d (VID.OUT_CFG_FORMAT o)
        || (s.on (VID.OUT_CFG_CUT o) && s.nreg (VID.OUT_DELAY o) != old.nreg (VID.OUT_DELAY o))
      else if o < 6 then d (VID.LTC_CFG_RATE (o - 4)) || d (VID.LTC_CFG_TS (o - 4))
      else d (VID.WC_CFG_RATE (o - 6)) || d (VID.WC_CFG_PULLDOWN (o - 6)))

/-- Commit group VID takes effect. -/
def State.vidApply (old : State) : State :=
  let s := (old.applyShadows .vid).setN VID.LAST_COMMIT old.sec0
  let s1 := (List.range 8).foldl (fun t o =>
    if t.voRestarts old o then
      -- the edges sent are those of the old set
      (t.setVout o { t.vout o with running := false, sent := old.wcEdges o % 2 ^ 32 }).stopVout o
    else if t.nreg (voDelay o) ≠ old.nreg (voDelay o) ∧ (t.vout o).running then
      t.setVout o { t.vout o with walk := some ⟨old.voDelayNow o, t.sreg (voDelay o), t.tsNow 0⟩ }
    else t) s
  let s2 := if s1.on VID.GL_CFG_EN && s1.nreg VID.GL_CFG == old.nreg VID.GL_CFG then s1
    else if old.nreg VID.GL_CFG ≠ s1.nreg VID.GL_CFG then (s1.wr VID.GL_STAT_GOOD 0).glUnlock else s1
  let kept := s2.vid.lastOfs.filter (fun e => s2.nreg (VID.LTC_CFG e.1) == old.nreg (VID.LTC_CFG e.1))
  let s3 := { s2 with vid := { s2.vid with lastOfs := kept } }.settleMute
  if s3.on VID.STAT_MUTED then s3.showMuted true else s3

end Sys2Proof.Machine
end

