-- ==== Sys2Proof/Machine/Tdc.lean ====
section
/-! DEFINITION. TDC: the time bases (R330 to R332), stamps (R333 to R336), the twin interpolators (R337 to R341), the frequency
fit (R342, R343) and commit group TDC (R345). -/

namespace Sys2Proof.Machine

def dTBase : Nat → TBase := fun _ => ⟨0, false⟩
def State.tbase (s : State) (b : Nat) : TBase := Store.get dTBase s.tdc.bases b
def dTCh : Nat → TCh := fun _ => ⟨false, false, [], [], none, none, none, 0, 0, 0, 0, 0, none, false, none, none⟩
def State.tch (s : State) (c : Nat) : TCh := Store.get dTCh s.tdc.chs c

/-- A channel's state, with the bits of `TDC.CH_STAT` that show it. -/
def State.setTch (s : State) (c : Nat) (x : TCh) : State :=
  let s1 := { s with tdc := { s.tdc with chs := Store.put dTCh s.tdc.chs c x } }
  (s1.wrB (TDC.CH_STAT_ACTIVE_B c) x.measB).wrB (TDC.CH_STAT_GATE_OPEN c) x.gate.isSome

/-- The base of a channel (R330) and the timescale of a base. -/
def baseOf (c : Nat) : Nat := if c < 12 then 0 else 1
def State.baseTs (s : State) (b : Nat) : Nat := if b = 0 then s.rd TDC.TB_CFG_TS else s.rd TDC.GR_CFG_TS
def State.tdcOn (s : State) : Bool := decide (s.domState 37 < 2)

/-! ### Time bases (R331, R332) -/

/-- The GR PLL is locked while the Grotto's oscillator is ready and the TDC domain runs. -/
def State.grLocked (s : State) : Bool := s.on TSC.LO_STAT_GR_READY && s.tdcOn

/-- What `TDC.GR_STAT` shows. -/
def State.grStat (s : State) : Nat :=
  let g := s.rd GRT.STATE_STATE
  b2n (s.on TSC.LO_STAT_GR_READY) + 2 * b2n (g == 2 || g == 3) + 4 * b2n (g == 3) + 8 * b2n s.grLocked

/-- Base `b` re-anchors at raw value `edge` (R332). -/
def State.anchorBase (s : State) (b edge : Nat) : State :=
  let v := s.tsAt (s.baseTs b) edge
  let s1 := { s with tdc := { s.tdc with bases := Store.put dTBase s.tdc.bases b ⟨v, true⟩ } }
  let s2 := (List.range 16).foldl (fun t c =>
    if baseOf c = b then
      let x := t.tch c
      t.setTch c { x with fresh := true, lastT := none,
                          gate := x.gate.map (fun g => { g with anchored := true }) }
    else t) s1
  ((s2.bumpF ⟨TDC.ANCHOR_CTRL, 16 + 8 * b, 8⟩).setQuiet TDC.STICKY_ANCHORED).journal 9 9 (leBytes 1 4)

/-- Base `b` has edges to anchor at: TB_IN present, the Grotto ready. -/
def State.baseEdges (s : State) (b : Nat) : Bool :=
  s.tdcOn && (if b = 0 then s.on TDC.TB_STAT_PRESENT else s.on TSC.LO_STAT_GR_READY)

def State.anchorIf (s : State) (b edge : Nat) : State := if s.baseEdges b then s.anchorBase b edge else s

/-- R331: TB_IN becomes present, its PLL locks, and base TB re-anchors at the edge `edge`. -/
def execTbPresent (freq : Int) (edge t : Nat) (s0 : State) : Host.Outcome State Fault Refusal :=
  let s := s0.advance t
  .next (
    if s.on TDC.TB_STAT_PRESENT = true ∨ s.tdcOn = false ∨ freq.natAbs > s.rd TDC.TB_CFG_WIN_PPM * 100 then s
    else
      let s1 := { s with tdc := { s.tdc with tbRaw := s.raw } }
      let s2 := ((s1.wr TDC.TB_STAT_PRESENT 1).wr TDC.TB_STAT_LOCKED 1).wr TDC.TB_STAT_FREQ (ofSigned 16 (saturate 16 freq))
      let s3 := s2.wrB TDC.TB_STAT_SETTLED (s2.rd TDC.TB_CFG_SETTLE_S == 0)
      (s3.anchorBase 0 edge).sticky TDC.STICKY_TB_BACK)

/-- R331: TB_IN becomes absent; `freq` is the measurement outside the window, if that was the cause. -/
def execTbLost (freq : Option Int) (t : Nat) (s0 : State) : Host.Outcome State Fault Refusal :=
  let s := s0.advance t
  let out := match freq with | some f => decide (f.natAbs > s.rd TDC.TB_CFG_WIN_PPM * 100) | none => false
  .next (
    if s.on TDC.TB_STAT_PRESENT = false ∨ (freq.isSome && !out) = true then s
    else
      let s1 := (((s.wr TDC.TB_STAT_PRESENT 0).wr TDC.TB_STAT_LOCKED 0).wr TDC.TB_STAT_SETTLED 0).wr TDC.TB_STAT_FREQ 0x8000
      let s2 := s1.sticky TDC.STICKY_TB_LOST
      if out then s2.sticky TDC.STICKY_TB_OOR else s2)

/-- R331: TB_IN has been present and locked for SETTLE_S seconds. -/
def execTbSettled (t : Nat) (s0 : State) : Host.Outcome State Fault Refusal :=
  let s := s0.advance t
  .next (if s.on TDC.TB_STAT_PRESENT = true ∧ s.on TDC.TB_STAT_LOCKED = true
      ∧ s.tdc.tbRaw + s.rd TDC.TB_CFG_SETTLE_S * qSec ≤ s.raw then s.wr TDC.TB_STAT_SETTLED 1 else s)

/-- A write of GO_TB or GO_GR by master `m`. -/
def State.anchorGo (s : State) (m b edge : Nat) : State :=
  match s.access m TDC.ANCHOR_CTRL .write with
  | .granted => s.anchorIf b edge
  | .denied => s.deny m 9 .write
  | _ => s

def execAnchorGoTb (m edge t : Nat) (s : State) : Host.Outcome State Fault Refusal := .next ((s.advance t).anchorGo m 0 edge)
def execAnchorGoGr (m edge t : Nat) (s : State) : Host.Outcome State Fault Refusal := .next ((s.advance t).anchorGo m 1 edge)

/-! ### Stamps (R333 to R336) -/

/-- 2 × H_<k + h_k: the middle of bin `k`, in units of P_c / 2^21 (R334). -/
def binMid (tbl : List Nat) (k : Nat) : Nat := 2 * (tbl.take k).sum + tbl.getD k 0

def TCh.tbl (x : TCh) (b : Bool) : List Nat := if b then x.tblB else x.tblA
def TCh.off (x : TCh) (b : Bool) : Option Int := if b then x.offB else x.offA
def TCh.setTbl (x : TCh) (b : Bool) (h : List Nat) : TCh := if b then { x with tblB := h } else { x with tblA := h }
def TCh.setOff (x : TCh) (b : Bool) (o : Int) : TCh := if b then { x with offB := some o } else { x with offA := some o }
def TCh.rej (x : TCh) (b : Bool) : Nat := if b then x.rejB else x.rejA
def TCh.setRej (x : TCh) (b : Bool) (n : Nat) : TCh := if b then { x with rejB := n } else { x with rejA := n }

/-- T of R334: anchor, coarse edges since it, bin middle and offset (units of P_c / 2^53 less the 2^21 of the table), delay;
truncated to whole q. P_c is 65 536 / 5 q. -/
def tdcTime (anchor coarse mid : Nat) (off delay : Int) : Int :=
  let p : Int := (((coarse : Int) * 2 ^ 53 - (mid : Int) * 2 ^ 32 + off) * 65536) / (5 * 2 ^ 53)
  -- D is a whole number of q, so truncation is that of the first part
  (anchor : Int) + p - delay * 256

/-- The base time of a coarse edge. -/
def baseTime (anchor coarse : Nat) : Nat := anchor + coarse * 65536 / 5

/-- VALID, SRC_WARM and READY of a channel's stamps (R335). -/
def State.tdcValid (s : State) (c : Nat) : Bool :=
  if c < 12 then s.on TDC.TB_STAT_PRESENT && s.on TDC.TB_STAT_LOCKED else s.on TSC.LO_STAT_GR_READY && s.grLocked
def State.tdcWarm (s : State) (c : Nat) : Bool :=
  if c < 12 then s.on TDC.TB_STAT_SETTLED else s.rd GRT.STATE_STATE == 2 || s.rd GRT.STATE_STATE == 3
def State.tdcReady (s : State) (c : Nat) : Bool := decide (12 ≤ c) && s.rd GRT.STATE_STATE == 3

/-! ### Frequency gates (R342, R343) -/

def State.gateLen (s : State) (c : Nat) : Nat := s.rd (TDC.CH_GATE_GATE_MS c) * 1000000 * qNs

/-- f of R342 in units of 2^-60 Hz; 0 where the sums give no slope. -/
def fitFreq (g : Gate) : Nat :=
  let num : Int := (g.n * g.smt : Nat) - ((g.sm * g.st : Nat) : Int)
  let den : Int := (g.n * g.smm : Nat) - ((g.sm * g.sm : Nat) : Int)
  if num ≤ 0 then 0 else (den * ((qSec * 2 ^ 60 : Nat) : Int) / num).toNat

/-- A gate ends: its result is written to FREQ_RING (R343). -/
def State.endGate (s : State) (c : Nat) (cut : Bool) : State :=
  let x := s.tch c
  match x.gate with
  | none => s
  | some g =>
    let empty := decide (g.n < 2)
    let valid := g.valid && !g.poisoned && !g.anchored && !empty
    let flags := b2n valid + 2 * b2n g.warm + 4 * b2n g.poisoned + 8 * b2n empty + 16 * b2n cut + 32 * b2n g.ready
    let tag := if g.n = 0 then c + 256 * s.rd (TDC.CH_CFG_TAG c) else g.tag
    let body := leBytes 12 g.start ++ leBytes 1 c ++ leBytes 1 flags ++ leBytes 2 tag
      ++ leBytes 4 (s.rd (TDC.CH_GATE_GATE_MS c)) ++ leBytes 8 g.n ++ leBytes 8 (g.last - g.first)
      ++ leBytes 12 (if valid then fitFreq g else 0)
    let s1 := (s.setTch c { x with gate := none }).postNoted (s.rd (TDC.CH_RING_FREQ_RING c)) 9 body
    if valid then s1 else s1.sticky TDC.STICKY_GATE_INVALID

/-- Base time stands at `v`: the gate that holds it is open, or, in the part of a gate in which none was open, none. -/
def State.rollGate (s : State) (c v : Nat) : State :=
  let len := s.gateLen c
  if !s.on (TDC.CH_CFG_FREQ_EN c) || len == 0 then s
  else
    let i := v / len
    let fresh : Gate := ⟨i, i * len, 0, 0, 0, 0, 0, 0, 0, 0, false, false, true, false, false⟩
    let x := s.tch c
    match x.gate with
    | some g =>
      if g.idx = i then s
      else
        let s1 := s.endGate c false
        s1.setTch c { s1.tch c with gate := some fresh }
    | none =>
      match x.skip with
      | none => if v % len = 0 then s.setTch c { x with gate := some fresh } else s.setTch c { x with skip := some i }
      | some j => if i = j then s else s.setTch c { x with gate := some fresh, skip := none }

/-- A stamp enters the gate that is open. -/
def Gate.add (g : Gate) (t m tag : Nat) (valid warm ready poisoned : Bool) : Gate :=
  let first := if g.n = 0 then m else g.first
  let i := m - first
  let d := t - g.start
  { g with n := g.n + 1, sm := g.sm + i, st := g.st + d, smm := g.smm + i * i, smt := g.smt + i * d, first := first, last := m,
           tag := tag, warm := warm, ready := ready, valid := g.valid && valid, poisoned := g.poisoned || poisoned }

/-! ### Edges -/

/-- A stamp put into queue 112 + c, or lost (R336). -/
def State.streamStamp (s : State) (c : Nat) (r : List Byte) : State :=
  if s.qRoom (112 + c) 1 then
    let q := Store.get (fun _ => []) s.tdc.q c ++ [(s.rd (TDC.CH_RING_RING c), r)]
    let s1 := s.qPut (112 + c)
    ({ s1 with tdc := { s1.tdc with q := Store.put (fun _ => []) s1.tdc.q c q } }).tdcPump c
  else ((s.sump 0x17 .stamp 9 c).satF (TDC.CH_STAT_LOST c)).sticky TDC.STICKY_LOST

/-- A shared edge measured by both interpolators (R339): `code` by the measuring one, `other` by the incoming one. -/
def TCh.share (x : TCh) (code : Nat) (other : Option Nat) : TCh :=
  match x.cal, other with
  | some (b, .shared n sum since), some k =>
    if n < 4096 then
      { x with cal := some (b, .shared (n + 1) (sum + binMid (x.tbl b) k - binMid (x.tbl !b) code) since) }
    else x
  | _, _ => x

/-- R333 to R339: a counted edge on channel `c`, `coarse` coarse edges after the last anchor, measured as `code`; `other` is
what the calibrating interpolator measures of it. -/
def execTdcEdge (c : Nat) (rising : Bool) (coarse code : Nat) (other : Option Nat) (poisoned : Bool) (t : Nat)
    (s0 : State) : Host.Outcome State Fault Refusal :=
  let s := s0.advance t
  let x := s.tch c
  .next (
    if 16 ≤ c ∨ !s.tdcOn ∨ !s.on (TDC.CH_CFG_EN c) ∨ !edgeSense (s.rd (TDC.CH_CFG_EDGE c)) rising
        ∨ s.on (TDC.CH_STAT_UNUSABLE c) then s
    else
      let m := x.edges + 1
      if x.div + 1 < s.rd (TDC.CH_CFG_DIV c) ∨ !x.on then
        s.setTch c { x with edges := m, div := if x.div + 1 < s.rd (TDC.CH_CFG_DIV c) then x.div + 1 else 0 }
      else
        let b := baseOf c
        let v := ofSigned 96 (tdcTime (s.tbase b).anchor coarse (binMid (x.tbl x.measB) code) ((x.off x.measB).getD 0)
          (s.sreg (TDC.CH_DELAY c)))
        let dead := match x.lastT with | some l => decide (v < l + 25 * qNs) | none => false
        if dead then
          (((s.setTch c { x with edges := m, div := 0 }).satF (TDC.CH_STAT_DEAD c)).sticky TDC.STICKY_DEAD).count 8 2 c
        else
          let valid := s.tdcValid c
          let warm := s.tdcWarm c
          let ready := s.tdcReady c
          let tag := c + 16 * b2n rising + 32 * b2n ready + 64 * b2n x.measB + 128 * b2n x.fresh
            + 256 * s.rd (TDC.CH_CFG_TAG c)
          let rcd := stampBytes v (s.baseTs b) (b2n valid + 2 * b2n warm + 4 * b2n poisoned) tag
          let s1 := (s.setTch c ({ x with edges := m, div := 0, lastT := some v, fresh := false }.share code other)).rollGate c v
          let y := s1.tch c
          let s2 := s1.setTch c { y with gate := y.gate.map (fun g => g.add v m tag valid warm ready poisoned) }
          let s3 := (s2.bump (TDC.CH_COUNT c)).count 8 1 c
          let s4 := if poisoned then s3.poisonSeen else s3
          if s4.on (TDC.CH_CFG_STREAM_EN c) then s4.streamStamp c rcd else s4)

/-- R343: base time, `coarse` coarse edges after the last anchor, reaches the end of a gate. -/
def execTdcGateEnd (c coarse t : Nat) (s0 : State) : Host.Outcome State Fault Refusal :=
  let s := s0.advance t
  .next (if c < 16 ∧ s.on (TDC.CH_CFG_EN c) = true ∧ (s.tch c).on = true then
      s.rollGate c (baseTime (s.tbase (baseOf c)).anchor coarse) else s)

/-! ### Calibration (R337 to R341) -/

/-- Which interpolator a channel calibrates next: A before it measures, else the one that does not measure; the other one
where the first has been rejected three times. -/
def TCh.idle (x : TCh) : Bool := if x.on then !x.measB else decide (3 ≤ x.rejA && x.rejB < 3)

/-- R339, R341: the idle interpolator is connected to the random edge source. -/
def execTdcCalStart (c t : Nat) (s0 : State) : Host.Outcome State Fault Refusal :=
  let s := s0.advance t
  let x := s.tch c
  .next (if c < 16 ∧ s.tdcOn = true ∧ s.on (TDC.CH_CFG_EN c) = true ∧ s.on (TDC.CH_STAT_UNUSABLE c) = false
      ∧ x.cal.isNone = true ∧ (x.rej x.idle < 3 ∨ x.retry ≤ s.raw) then
      s.setTch c { x with cal := some (x.idle, .hits) } else s)

/-- A candidate table passes R337. -/
def calAccepts (h : List Nat) : Bool :=
  decide (180 ≤ (h.filter (· ≠ 0)).length) && h.all (fun x => decide (x ≤ 15728))

/-- Whether a cumulative position moved by more than CAL_JUMP × 0.1 ps (R339). -/
def calJumps (old new : List Nat) (jump : Nat) : Bool :=
  (List.range 257).any (fun k =>
    let a : Int := (old.take k).sum
    let b : Int := (new.take k).sum
    decide ((a - b).natAbs * 2000 > jump * 2 ^ 20))

/-- R337: 2^20 hits complete with the histogram `hist`. -/
def execTdcCalDone (c : Nat) (hist : List Nat) (t : Nat) (s0 : State) : Host.Outcome State Fault Refusal :=
  let s := s0.advance t
  let x := s.tch c
  .next (match x.cal with
    | some (b, .hits) =>
      if hist.length ≠ 256 ∨ hist.sum ≠ 2 ^ 20 then s
      else if calAccepts hist then
        let s1 := (s.bumpF TDC.CAL_COUNT_DONE).count 8 3 c
        let s2 := if !(x.tbl b).isEmpty && calJumps (x.tbl b) hist (s1.rd TDC.CTRL_CAL_JUMP) then s1.sticky TDC.STICKY_CAL_JUMP
          else s1
        let y := ((x.setTbl b hist).setRej b 0)
        let y1 := if (y.off b).isSome then y else y.setOff b (toSigned 32 (Config.calImage (2 * c + b2n b)))
        let y2 : TCh := if y1.on then { y1 with cal := some (b, .shared 0 0 s2.raw) }
          else { y1 with on := true, measB := b, cal := none }
        (if y2.rejA < 3 ∧ y2.rejB < 3 then s2.wr (TDC.CH_STAT_SINGLE c) 0 else s2).setTch c y2
      else
        let n := x.rej b + 1
        let s1 := ((s.bumpF TDC.CAL_COUNT_FAILS).satF (TDC.CH_STAT_CAL_FAILS c)).sticky TDC.STICKY_CAL_FAIL
        let y := x.setRej b n
        if n < 3 then s1.setTch c y
        else
          let s2 := s1.setTch c { y with cal := none, retry := s1.raw + s1.rd TDC.CTRL_CAL_PERIOD * 100000000 * qNs }
          (s2.wr (TDC.CH_STAT_SINGLE c) 1).sticky TDC.STICKY_SINGLE
    | _ => s)

/-- R339: the interpolators swap; the outgoing one's stamps and the incoming one's agree in the mean. -/
def execInterpSwap (c t : Nat) (s0 : State) : Host.Outcome State Fault Refusal :=
  let s := s0.advance t
  let x := s.tch c
  .next (match x.cal with
    | some (b, .shared n sum since) =>
      if n < 4096 ∧ s.raw < since + 100000000 * qNs then s
      else
        let y := if 64 ≤ n then x.setOff b (roundDiv (sum * 2 ^ 32) n + (x.off !b).getD 0) else x
        s.setTch c { y with measB := b, cal := none }
    | _ => s)

/-- R340: the measuring interpolator of a SINGLE channel failed a BIST: the channel stops. -/
def State.tdcUnusable (s : State) (c : Nat) : State :=
  (((s.wr (TDC.CH_STAT_UNUSABLE c) 1).wr ⟨TDC.CH_SUMMARY, 16 + c, 1⟩ 1).setTch c { s.tch c with on := false, cal := none }).sticky
    TDC.STICKY_CH_UNUSABLE

/-! ### Commit group TDC (R345) -/

def State.ringOk (s : State) (r : Nat) : Bool := s.ringKind r == 3 && decide ((s.ringOf r).st = .enabled)

def State.tdcOk (s : State) : Bool :=
  decide (s.shd TDC.TB_CFG_FREQ < 6) && decide (1 ≤ s.shd TDC.TB_CFG_WIN_PPM) && decide (s.shd TDC.TB_CFG_WIN_PPM ≤ 1000)
  && s.shd TDC.CTRL_CAL_PERIOD != 0
  && (List.range 16).all (fun c =>
    decide ((toSigned 32 (s.shadowWord (TDC.CH_DELAY c))).natAbs ≤ 25600000)
    && (s.shd (TDC.CH_CFG_EN c) == 0
      || (let e := s.shd (TDC.CH_CFG_EDGE c)
          let g := s.shd (TDC.CH_GATE_GATE_MS c)
          e != 3 && s.shd (TDC.CH_CFG_DIV c) != 0 && g != 0 && decide (g ≤ 1000000)
          && !(s.shd (TDC.CH_CFG_FREQ_EN c) == 1 && e == 2)
          && (s.shd (TDC.CH_CFG_STREAM_EN c) == 0 || s.ringOk (s.shd (TDC.CH_RING_RING c)))
          && (s.shd (TDC.CH_CFG_FREQ_EN c) == 0 || s.ringOk (s.shd (TDC.CH_RING_FREQ_RING c))))))

/-- Whether a commit cuts channel `c`'s gate. -/
def State.tdcCuts (s : State) (c : Nat) : Bool :=
  s.shd (TDC.CH_CFG_EN c) != s.rd (TDC.CH_CFG_EN c) || s.shd (TDC.CH_CFG_EDGE c) != s.rd (TDC.CH_CFG_EDGE c)
  || s.shd (TDC.CH_CFG_DIV c) != s.rd (TDC.CH_CFG_DIV c) || s.shd (TDC.CH_GATE_GATE_MS c) != s.rd (TDC.CH_GATE_GATE_MS c)
  || s.shd (TDC.CH_CFG_FREQ_EN c) != s.rd (TDC.CH_CFG_FREQ_EN c)

/-- Whether some channel of a base is enabled. -/
def State.baseUsed (s : State) (b : Nat) : Bool :=
  (List.range 16).any (fun c => baseOf c == b && s.on (TDC.CH_CFG_EN c))

/-- Commit group TDC takes effect. -/
def State.tdcApply (old : State) : State :=
  let cuts := (List.range 16).filter old.tdcCuts
  let s := (cuts.foldl (fun t c => (t.endGate c true).setTch c { (t.endGate c true).tch c with skip := none }) old).applyShadows .tdc
  let s1 := (List.range 16).foldl (fun t c =>
    let t1 := t.wrB ⟨TDC.CH_SUMMARY, c, 1⟩ (t.on (TDC.CH_CFG_EN c))
    if t1.rd (TDC.CH_CFG_EN c) ≠ old.rd (TDC.CH_CFG_EN c) then
      -- a channel that starts keeps the offsets its interpolators last had
      (t1.setTch c { dTCh c with offA := (t1.tch c).offA, offB := (t1.tch c).offB }).wr (TDC.CH_STAT_SINGLE c) 0
    else t1) s
  (List.range 2).foldl (fun t b =>
    if (t.baseUsed b && !old.baseUsed b) || t.baseTs b != old.baseTs b then t.anchorIf b t.raw else t) s1

/-- The TDC domain enters Run (R332, R341): the bases re-anchor and enabled channels calibrate anew. -/
def State.tdcRun (s : State) : State :=
  let s1 := (List.range 16).foldl (fun t c =>
    if t.on (TDC.CH_CFG_EN c) then t.setTch c { dTCh c with offA := (t.tch c).offA, offB := (t.tch c).offB } else t) s
  (List.range 2).foldl (fun t b => t.anchorIf b t.raw) s1

end Sys2Proof.Machine
end

