-- ==== Sys2Proof/Machine/KeyPke.lean ====
section
/-! DEFINITION. KEY and PKE: import, generation and zeroisation (R399 to R402), aborts and poison (R403, R404), the row
multiplier (R405 to R407), curves (R409, R410), jobs (R411 to R417) and the commit groups PKE and KEY (R418, R419). -/

namespace Sys2Proof.Machine

/-! ### Queues and engines (R413) -/

def dPkQ : Nat → List PkJob := fun _ => []
def State.pkQ (s : State) (w : Nat) : List PkJob := Store.get dPkQ s.pke.queues w

/-- The engine that serves queue `w`: its own, or the spare in its place (R417). -/
def State.engOf (s : State) (w : Nat) : Option Nat :=
  (s.unitsOf 2).find? (fun i => s.serving 2 i && (s.unit 2 i).serves == w)

/-- `PKE.STAT.BUSY` and the QUEUED fields brought up to date. -/
def State.showPke (s : State) : State :=
  (List.range 5).foldl (fun t e =>
    let u := t.unit 2 e
    let q := if t.serving 2 e then t.pkQ u.serves else []
    (t.wr (PKE.ENG_STAT_QUEUED e) q.length).wrB ⟨PKE.STAT, e, 1⟩ (q.any (fun j => j.running))) s

def State.setPkQ (s : State) (w : Nat) (l : List PkJob) : State :=
  ({ s with pke := { s.pke with queues := Store.put dPkQ s.pke.queues w l } }).showPke

/-- Operand memory (R405). -/
def State.operand (s : State) (e i : Nat) : Nat := Store.get zNat s.pke.opmem (64 * e + i)
def State.setOperand (s : State) (e i v : Nat) : State :=
  { s with pke := { s.pke with opmem := Store.put zNat s.pke.opmem (64 * e + i) v } }
/-- R407: every operand slot of an engine zeroised, and no row in flight. -/
def State.clearOperands (s : State) (e : Nat) : State :=
  { s with pke := { s.pke with opmem := Store.drop (fun k => k / 64 == e) s.pke.opmem,
                               rows := Store.drop (fun k => k == e) s.pke.rows } }

/-! ### Curves (R409, R410) -/

/-- The number a parameter of a curve entry spells. -/
def State.curveWord (s : State) (c j : Nat) : Nat :=
  (List.range 18).foldl (fun a w => a + s.nreg (Tbl.pkeCurves.key (256 * c + 32 * j + w)) * 2 ^ (32 * w)) 0

/-- A short Weierstrass curve: built in, or as its table entry has it. -/
def State.curveOf (s : State) (c : Nat) : Curve :=
  if c ≤ 2 then stdCurve c
  else ⟨s.curveWord c 0, s.curveWord c 1, s.curveWord c 2, s.curveWord c 3, s.curveWord c 4, s.curveWord c 5, s.curveWord c 6,
    s.curveWord c 7 % 1024⟩

def weierstrass (c : Nat) : Bool := decide (c ≤ 2) || (decide (8 ≤ c) && decide (c ≤ 15))
def State.checked (s : State) (c : Nat) : Bool := s.on ⟨PKE.CURVE_STAT, c, 1⟩
def State.insane (s : State) (c : Nat) : Bool := s.on ⟨PKE.CURVE_STAT, 16 + c, 1⟩

/-- `n` draws of the random source. -/
def State.draws (s : State) : Nat → State × List Nat
  | 0 => (s, [])
  | n + 1 =>
    let d := s.draw
    let r := State.draws d.2 n
    (r.1, d.1 :: r.2)

/-- CURVE_CHECK (R410): the curve becomes CHECKED or INSANE. The answer says whether it passed. -/
def State.curveCheck (s : State) (c : Nat) : State × Bool :=
  let d := s.draws 40
  let ok := (s.curveOf c).sane d.2
  if ok then ((d.1.wr ⟨PKE.CURVE_STAT, c, 1⟩ 1).wr ⟨PKE.CURVE_STAT, 16 + c, 1⟩ 0, true)
  else ((d.1.wr ⟨PKE.CURVE_STAT, 16 + c, 1⟩ 1).wr ⟨PKE.CURVE_STAT, c, 1⟩ 0, false)

/-! ### Keys and their material (R394, R396) -/

/-- Whether TYPE and USAGE form a pair a host may name for slots other than 0. -/
def pairOk (typ usage : Nat) : Bool :=
  match typ with
  | 0 => usage == 1 || usage == 2
  | 1 | 3 => usage == 4
  | 2 | 5 => usage == 1
  | 4 => usage == 2
  | 6 => usage == 3
  | _ => false

/-- Whether the curve of a key goes with its TYPE. -/
def typeCurve (typ curve : Nat) : Bool :=
  match typ with
  | 0 | 1 => weierstrass curve
  | 4 => curve == 3
  | 5 => curve == 4
  | _ => curve == 0

def rsaSize (k : Nat) : Bool := k % 256 == 0 && decide (2048 ≤ k) && decide (k ≤ 8192)
def typeSecret (typ : Nat) : Bool := typ != 1 && typ != 3

/-- The size in bits a key of a TYPE and curve has; an RSA key has the size its header names. -/
def State.keyBits (s : State) (typ curve bits : Nat) : Nat :=
  match typ with
  | 0 | 1 => (s.curveOf curve).bits
  | 2 | 3 => bits
  | _ => 256

/-- Bytes of material. -/
def State.materialLen (s : State) (typ curve bits : Nat) : Nat :=
  match typ with
  | 0 => (s.curveOf curve).ln
  | 1 => 2 * (s.curveOf curve).lp
  | 2 => 7 * bits / 16 + 8
  | 3 => bits / 8 + 8
  | _ => 32

def spanOf (bytes : Nat) : Nat := max 1 (ceilDiv bytes 128)

/-- The numbers material is made of, in the order of R396: those KEY_USE can load. -/
def Key.parts (k : Key) (lp : Nat) : List Nat :=
  let m := k.material
  let h := k.bits / 16
  match k.typ with
  | 1 => [blockNat (m.take lp), blockNat (m.drop lp)]
  | 2 => [blockNat (m.take (2 * h)), blockNat ((m.drop (2 * h)).take h), blockNat ((m.drop (3 * h)).take h),
      blockNat ((m.drop (4 * h)).take h), blockNat ((m.drop (5 * h)).take h), blockNat ((m.drop (6 * h)).take h),
      blockNat (m.drop (7 * h))]
  | 3 => [blockNat (m.take (2 * h)), blockNat (m.drop (2 * h))]
  | _ => [blockNat m]

/-! ### Rights (R398) -/

def keyPage (slot : Nat) : Nat := 0x1000 + slot
def State.spanWritable (s : State) (m slot span : Nat) : Bool :=
  (List.range span).all (fun i => s.granted m 17 (keyPage (slot + i)) .write)
def State.mayUse (s : State) (m slot : Nat) : Bool := s.granted m 17 (keyPage slot) .useKey

/-! ### Choosing an engine (R411, R413) -/

def State.pkFull (s : State) (w : Nat) : Bool := !s.qRoom (137 + w) 1 || s.fab.isolated.contains (Tok.keytok.key w)

/-- The queue an ENGINE field names: itself, or for 7 the one that holds fewest among the usable and enabled. -/
def State.pkPick (s : State) (engine : Nat) : Option Nat :=
  if engine = 7 then
    ((List.range 4).filter (fun w => s.served 2 w && bitAt (s.rd PKE.CTRL_ENG_EN) w && !s.pkFull w)).foldl (fun b w =>
      match b with
      | none => some w
      | some r => if (s.pkQ w).length < (s.pkQ r).length then some w else some r) none
  else if engine < 4 && s.served 2 engine && !s.pkFull engine then some engine
  else none

/-- BUSY of the queues: the named one is full, or for ENGINE 7 every usable one. -/
def State.pkBusy (s : State) (engine : Nat) : Bool :=
  if engine = 7 then (List.range 4).all (fun w => !(s.served 2 w && bitAt (s.rd PKE.CTRL_ENG_EN) w) || s.pkFull w)
  else decide (engine < 4) && s.pkFull engine

/-! ### Notes of completed commands -/

/-- What KEY keeps of a command that completes. -/
def State.keyNote (s : State) (op status slot : Nat) : State :=
  let s1 := s.setN KEY.LAST (op % 4 + 2 ^ 8 * status + 2 ^ 16 * (slot % 1024))
  let s2 := if status = stOK ∨ status = stZERO_LEN then s1 else s1.bump KEY.REFUSED
  if status = stREFUSED then s2.refuseCfg .key
  else if status = stPOISONED then s2.keyPoison
  else s2

/-- What PKE keeps of a PK_RUN that completes. -/
def State.pkNote (s : State) (fn status engine : Nat) (stage4 : Bool) : State :=
  let s1 := (s.setN PKE.LAST (fn % 256 + 2 ^ 8 * status + 2 ^ 16 * (engine % 8))).bump (PKE.FN_COUNT (if fn < 12 then fn else 0))
  if status = stOK then s1.bump PKE.JOBS_OK
  else
    let s2 := s1.bump PKE.JOBS_FAIL
    if stage4 then (s2.bump PKE.INPUT_REFUSED).sticky PKE.STICKY_INPUT_REFUSED
    else if status = stREFUSED then s2.refuseCfg .pke
    else if status = stPARAM_INSANE then s2.sticky PKE.STICKY_PARAM_INSANE
    else if status = stPOISONED then (s2.sticky PKE.STICKY_POISON).keyPoison
    else if status = stABORTED then s2.sticky PKE.STICKY_ABORTED
    else s2.sticky PKE.STICKY_JOB_FAIL

/-- A command's fields that its job needs again. -/
def PkJob.fn (j : PkJob) : Nat := if j.op = 0 then j.cmd.u 0 1 else 0
def PkJob.curve (j : PkJob) : Nat := if j.op = 0 then j.cmd.u 1 1 else if j.op = 2 then j.cmd.u 2 1 else leAt j.input 3 1
def PkJob.keySlot (j : PkJob) : Nat := j.cmd.u 4 2 % 1024
def PkJob.none (j : PkJob) : Bool := bitAt (j.cmd.u 4 2) 15
def PkJob.destEn (j : PkJob) : Bool := bitAt (j.cmd.u 3 1) 0
/-- The wrapper of an import or a generation. -/
def PkJob.wrapper (j : PkJob) : Nat := (if j.op = 1 then j.cmd.u 14 2 else j.cmd.u 12 2) % 1024

/-- The slots a job takes its key from. -/
def PkJob.sources (j : PkJob) : List Nat :=
  if j.op = 0 then (if j.none then [] else [j.keySlot])
  else if j.op = 1 ∨ bitAt (j.cmd.u 3 1) 0 = true then [j.wrapper] else []

/-! ### Starting and ending jobs (R403, R407, R413, R416) -/

/-- A commit of group PKE that waits changes a curve. -/
def State.curveChanging (s : State) (c : Nat) : Bool :=
  s.shadow.any (fun e => e.1 / 2 ^ 32 == Tbl.pkeCurves.num + 1 && (e.1 % 2 ^ 32) / 256 == c)

/-- The job at the head of queue `w` starts, where its engine serves and no waiting commit changes its curve (R418). The
sequencer's event 0 is raised. -/
def State.pkStart (s : State) (w : Nat) : State :=
  match s.pkQ w with
  | [] => s
  | j :: r =>
    let curve := if j.op = 0 then j.cmd.u 1 1 else 0
    if j.running || (s.engOf w).isNone || decide (2 ≤ s.domState 40)
        || (s.on PKE.COMMIT_PENDING && s.curveChanging curve) then s
    else
      let input := if j.op = 0 then s.bytesAt (j.cmd.u 8 8) (j.cmd.u 16 4)
        else if j.op = 1 then s.bytesAt (j.cmd.u 0 8) (j.cmd.u 8 4) else []
      (s.setPkQ w ({ j with running := true, start := s.raw, input := input } :: r)).seqEvent (44 + w) 0

def State.pkStartAll (s : State) : State := (List.range 4).foldl State.pkStart s

/-- A command accepted into queue `w`: one KEYTOK is taken, and its span is claimed (R403, R413). -/
def State.pkAccept (s : State) (w : Nat) (c : HostCmd) (op : Nat) (claim : Option (Nat × Key)) : State :=
  let s1 := ((s.takeCmd c).qPut (137 + w)).issue .keytok w 1
  let s2 := match claim with
    | some k => s1.setKey k.1 { k.2 with valid := true, writing := true, poisoned := false, material := [] }
    | none => s1
  ((s2.setPkQ w (s2.pkQ w ++ [⟨c, op, claim.map (·.1), false, 0, []⟩])).startWake 40).pkStart w

/-- A completed job leaves queue `w`; its engine's operand slots are zeroised. -/
def State.pkLeave (s : State) (w : Nat) (j : PkJob) : State :=
  let s1 := ((s.setPkQ w ((s.pkQ w).erase j)).qTake (137 + w)).give .keytok w 1
  match (if j.running then s1.engOf w else none) with
  | some e => ((s1.clearOperands e).bumpF (PKE.ENG_STAT_DONE e)).count 9 2 e
  | none => s1

/-- A job aborted (R403, R416): its claimed slots stay POISONED, secret ones zeroised; it completes ABORTED with nothing
written; its KEYTOK goes to the Sump. -/
def State.pkAbort (s : State) (w : Nat) (j : PkJob) (reason : Nat) : State :=
  let s1 := (s.pkLeave w j).sump reason .keytok 16 w
  let s2 := match j.claim with
    | some k => (s1.setKey k { s1.keyAt k with writing := false, poisoned := true, material := [] }).sticky KEY.STICKY_ABORT_ZEROISED
    | none => s1
  let s3 := (s2.bump PKE.ABORTS).sticky PKE.STICKY_ABORTED
  let s4 := if j.op = 0 then s3.pkNote j.fn stABORTED ((s.engOf w).getD w) false
    else s3.keyNote j.op stABORTED (j.claim.getD 0)
  ((s4.complete j.cmd stABORTED 0).itemEnd (44 + w) false).pkStart w

/-- Every job that satisfies `p` aborted, queue by queue. -/
def State.pkAbortIf (s : State) (p : Nat → PkJob → Bool) (reason : Nat) : State :=
  (List.range 4).foldl (fun t w => ((t.pkQ w).filter (p w)).foldl (fun u j =>
    match (u.pkQ w).find? (fun x => x.cmd == j.cmd && x.claim == j.claim) with
    | some x => u.pkAbort w x reason
    | none => u) t) s

/-- R66, R67: every slot and every operand slot zeroised, slot 0 included; no generation is left. -/
def State.zeroiseAll (s : State) : State :=
  let s1 := s.pkAbortIf (fun _ _ => true) 0x1F
  let s2 := ({ s1 with key := { s1.key with slots := [(0, noKey)] }, pke := { s1.pke with opmem := [], rows := [] } }).showKeys
  let s3 := ((s2.wr NTS.MK_STAT_CUR_VALID 0).wr NTS.MK_STAT_PREV_VALID 0).wr KEY.STAT_DEVKEY_OK 0
  (s3.setN KEY.ZERO_ALL_SEC s3.sec0).sticky KEY.STICKY_ALL_ZEROISED

/-- R395: the device key derived from the fuses into slot 0. Where that fails DEVKEY_OK reads 0. -/
def State.deriveDevKey (s : State) (ok : Bool) : State :=
  let s1 := s.setKey 0 (if ok then { devKey with uses := (s.keyAt 0).uses } else noKey)
  (s1.wrB KEY.STAT_DEVKEY_OK ok).setN KEY.DEVKEY_ID (if ok then devKeyId else 0)

/-! ### PK_RUN: stage 1 (R411 to R414) -/

/-- Whether a curve may be named for a function (R412). -/
def fnCurve (f c : Nat) : Bool :=
  match f with
  | 1 | 2 | 3 | 10 => weierstrass c
  | 4 => weierstrass c || c == 4
  | 5 => c == 3
  | 6 | 7 => c == 4
  | _ => c == 0

/-- Whether a function may go without a key, and whether it must. -/
def fnNoneOk (f : Nat) : Bool := f == 2 || f == 3 || f == 5 || f == 7 || f == 9 || f == 10 || f == 11
def fnNoneOnly (f : Nat) : Bool := f == 7 || f == 10 || f == 11

/-- Whether a key serves a function on a curve. -/
def fnKey (f c : Nat) (k : Key) : Bool :=
  (match f with
   | 1 => k.typ == 0 && k.usage == 1
   | 2 => k.typ == 1 && k.usage == 4
   | 3 => k.typ == 0 && k.usage == 2
   | 4 => if c = 4 then k.typ == 5 else k.typ == 0
   | 5 => k.typ == 4 && k.usage == 2
   | 6 => k.typ == 5 && k.usage == 1
   | 8 => k.typ == 2 && k.usage == 1
   | 9 => k.typ == 3 && k.usage == 4
   | _ => false) && (k.typ == 2 || k.typ == 3 || k.curve == c)

/-- The RSA size of a job in bits: its key's, or the one its input length gives. -/
def rsaBits (k : Option Key) (inLen : Nat) : Nat := match k with | some x => x.bits | none => 4 * (inLen - 8)

/-- The input length a function takes: whether `n` bytes are right. -/
def State.fnInOk (s : State) (f c : Nat) (k : Option Key) (n : Nat) : Bool :=
  let v := s.curveOf c
  match f with
  | 1 => n == v.ln
  | 2 => n == (if k.isNone then 2 * v.lp else 0) + 3 * v.ln
  | 3 => n == 2 * v.lp
  | 5 => n == 32
  | 6 => decide (1 ≤ n) && decide (n ≤ 16384)
  | 7 => decide (97 ≤ n) && decide (n ≤ 96 + 16384)
  | 8 => n == rsaBits k n / 8
  | 9 => rsaSize (rsaBits k n) && n == (if k.isNone then rsaBits k n / 8 + 8 else 0) + rsaBits k n / 8
  | _ => n == 0

/-- The output length of a function. -/
def State.fnOut (s : State) (f c : Nat) (k : Option Key) (dest : Bool) (inLen outLen : Nat) : Nat :=
  let v := s.curveOf c
  match f with
  | 1 => 2 * v.ln
  | 3 => (if k.isNone then 2 * v.lp else 0) + (if dest then 0 else v.lp)
  | 4 => if c = 4 then 32 else 2 * v.lp
  | 5 => (if k.isNone then 32 else 0) + (if dest then 0 else 32)
  | 6 => 64
  | 8 | 9 => rsaBits k inLen / 8
  | 11 => outLen
  | _ => 0

/-- The key a PK_RUN names, where it is the head of one. -/
def State.pkKey (s : State) (none : Bool) (slot : Nat) : Option Key :=
  if none then Option.none else if (s.keyAt slot).valid then some (s.keyAt slot) else Option.none

/-- The code of stage 1 (R414). -/
def State.pkRunCode (s : State) (c : HostCmd) : Nat :=
  let f := c.u 0 1
  let cv := c.u 1 1
  let eng := c.u 2 1 % 8
  let dest := bitAt (c.u 3 1) 0
  let none := bitAt (c.u 4 2) 15
  let slot := c.u 4 2 % 1024
  let d := c.u 6 2 % 1024
  let k := s.pkKey none slot
  let empty := !none && (s.headOf slot).isNone
  let known := decide (1 ≤ f) && decide (f ≤ 11)
  let w := s.pkPick eng
  c.code [
    codeIf (!known || !fnCurve f cv || decide (8 ≤ c.u 2 1) || decide (2 ≤ c.u 3 1) || bitsOf (c.u 4 2) 10 5 != 0
      || bitsOf (c.u 6 2) 10 6 != 0
      || (if none then !fnNoneOk f else fnNoneOnly f || (!empty && (match k with | some x => !fnKey f cv x | Option.none => true)))
      || (dest && !(f == 3 || f == 5)) || (dest && s.spanTaken d 1)
      || (!empty && (!s.fnInOk f cv k (c.u 16 4) || decide (c.u 28 4 < s.fnOut f cv k dest (c.u 16 4) (c.u 28 4))))
      || (f == 11 && (c.u 28 4 == 0 || decide (4096 < c.u 28 4)))
      || (decide (4 ≤ eng) && eng != 7) || (decide (eng < 4) && !s.served 2 eng)) stREFUSED,
    codeIf (s.pkBusy eng || (!none && s.spanWriting slot 1) || (dest && s.spanWriting d 1)) stBUSY,
    codeIf empty stNO_KEY,
    codeIf ((!none && !s.mayUse c.fn slot) || (dest && !s.spanWritable c.fn d 1)
      || (!none && (match w with | some q => !s.mayUse (108 + q) slot | Option.none => false))) stDENIED,
    codeIf (s.modeNoCmd || s.mode == 10) stMODE_FORBIDS]

def execPkRun (c : HostCmd) (t : Nat) (s0 : State) : Host.Outcome State Fault Refusal :=
  let s := s0.advance t
  let code := s.pkRunCode c
  let f := c.u 0 1
  let d := c.u 6 2 % 1024
  let dest := bitAt (c.u 3 1) 0
  .next (match (if code = 0 then s.pkPick (c.u 2 1 % 8) else none) with
    | some w => s.pkAccept w c 0 (if dest then some (d, ⟨true, false, true, true, 6, 3, 0, 1, 2, 256, c.fn, 0, 0, []⟩) else none)
    | none =>
      let s1 := if code = stDENIED then s.deny c.fn 17 (if bitAt (c.u 4 2) 15 then .write else .useKey) true else s
      (s1.pkNote f code (c.u 2 1 % 8) false).complete c code 0)

/-! ### Jobs: stages 2 to 5 (R414, R415) -/

/-- What a job comes to: its status, whether stage 4 gave it, the bytes for OUT, and the material for its claimed slot. -/
structure PkOut where
  status : Nat
  stage4 : Bool
  out : List Byte
  put : Option (List Byte)
  deriving DecidableEq, Repr

def pkFail (c : Nat) : PkOut := ⟨c, false, [], none⟩
def pkRefuse (c : Nat) : PkOut := ⟨c, true, [], none⟩
def pkGive (out : List Byte) : PkOut := ⟨stOK, false, out, none⟩

/-- Stage-4 codes of a point (R414). -/
def Curve.pointCode (c : Curve) (x y : Nat) : Nat :=
  if x = 0 ∧ y = 0 then stINPUT_ZERO
  else if c.p ≤ x ∨ c.p ≤ y then stINPUT_RANGE
  else if !c.on x y then stNOT_ON_CURVE else 0
/-- Stage-4 codes of a value below a modulus. -/
def valueCode (x m : Nat) : Nat := if x = 0 then stINPUT_ZERO else if m ≤ x then stINPUT_RANGE else 0
/-- Stage-4 codes of an RSA input. -/
def rsaCode (x n : Nat) : Nat := if x = 0 then stINPUT_ZERO else if n ≤ x ∨ x = 1 ∨ x = n - 1 then stINPUT_RANGE else 0

/-- A scalar drawn from [1, n − 1]. -/
def State.drawScalar (s : State) (n : Nat) : State × Nat := let d := s.draw; (d.2, 1 + d.1 % (n - 1))

/-- ECDSA, with nonces drawn until r and s are not 0; at most four are tried here, after which the signature is a free
value. -/
def State.signTry (s : State) (v : Curve) (d : Nat) (h : List Byte) : Nat → State × List Byte
  | 0 => let f := s.free; (f.2, natBlock (2 * v.ln) f.1)
  | n + 1 =>
    let k := s.drawScalar v.n
    match v.sign d k.2 h with
    | some r => (k.1, natBlock v.ln r.1 ++ natBlock v.ln r.2)
    | none => State.signTry k.1 v d h n

/-- EC_SIGN, EC_VERIFY, ECDH and EC_KEYPUB. -/
def State.pkEc (s : State) (f : Nat) (v : Curve) (k : Option Key) (dest : Bool) (p : List Byte) : State × PkOut :=
  let lp := v.lp
  let ln := v.ln
  match f with
  | 1 =>
    let r := s.signTry v (blockNat ((k.map (·.material)).getD [])) p 4
    (r.1, pkGive r.2)
  | 2 =>
    let q := match k with | some x => x.material | none => p.take (2 * lp)
    let rest := if k.isSome then p else p.drop (2 * lp)
    let x := blockNat (q.take lp)
    let y := blockNat (q.drop lp)
    let r := blockNat ((rest.drop ln).take ln)
    let t := blockNat (rest.drop (2 * ln))
    let code := lowestCode [v.pointCode x y, valueCode r v.n, valueCode t v.n]
    (s, if code ≠ 0 then pkRefuse code else if v.verify x y r t (rest.take ln) then pkGive [] else pkFail stSIGNATURE_BAD)
  | 3 =>
    let x := blockNat (p.take lp)
    let y := blockNat (p.drop lp)
    let code := v.pointCode x y
    if code ≠ 0 then (s, pkRefuse code)
    else
      let d := match k with | some a => (s, blockNat a.material) | none => s.drawScalar v.n
      match v.mul d.2 (some (x, y)) with
      | none => (d.1, pkFail stINPUT_ZERO)
      | some z =>
        let own := if k.isNone then ptBytes lp (v.mul d.2 v.base) else []
        let sh := natBlock lp z.1
        (d.1, ⟨stOK, false, own ++ (if dest then [] else sh), if dest then some (sha256 sh) else none⟩)
  | _ => (s, pkGive (ptBytes lp (v.mul (blockNat ((k.map (·.material)).getD [])) v.base)))

/-- X25519 (RFC 7748). The value is checked with its unused bit masked. -/
def State.pkX25519 (s : State) (k : Option Key) (dest : Bool) (p : List Byte) : State × PkOut :=
  let u := leNat p % 2 ^ 255
  let code := if u = 0 then stINPUT_ZERO else if p25519 ≤ u ∨ u = 1 then stINPUT_RANGE else 0
  if code ≠ 0 then (s, pkRefuse code)
  else
    let d := match k with | some a => (s, a.material) | none => s.drawBytes 32
    let z := x25519 d.2 p
    if z.all (· == 0) then (d.1, pkFail stINPUT_ZERO)
    else
      let own := if k.isNone then x25519 d.2 (leBytes 32 9) else []
      (d.1, ⟨stOK, false, own ++ (if dest then [] else z), if dest then some (sha256 z) else none⟩)

/-- ED_VERIFY's checks and equation (RFC 8032). -/
def pkEdVerify (p : List Byte) : PkOut :=
  let a := p.take 32
  let r := (p.drop 32).take 32
  let sc := leNat ((p.drop 64).take 32)
  let pt := fun (b : List Byte) => if b.all (· == 0) then stINPUT_ZERO else if (edDecode b).isNone then stNOT_ON_CURVE else 0
  let code := lowestCode [pt a, pt r, valueCode sc edL]
  if code ≠ 0 then pkRefuse code
  else if edVerify a ((p.drop 32).take 64) (p.drop 96) then pkGive [] else pkFail stSIGNATURE_BAD

/-- RSA_PRIVATE and RSA_PUBLIC. -/
def pkRsa (f : Nat) (k : Option Key) (p : List Byte) : PkOut :=
  let bits := rsaBits k p.length
  let b := bits / 8
  if f = 8 then
    match (match k with | some x => x.parts 0 | none => []) with
    | [n, q1, q2, dp, dq, qi, _] =>
      let x := blockNat p
      let code := rsaCode x n
      if code ≠ 0 then pkRefuse code
      else if Nat.gcd x n ≠ 1 then pkFail stNOT_INVERTIBLE
      else pkGive (natBlock b (rsaCrt q1 q2 dp dq qi x))
    | _ => pkFail stNO_KEY
  else
    let ne := match k with | some x => x.material | none => p.take (b + 8)
    let n := blockNat (ne.take b)
    let e := blockNat (ne.drop b)
    let x := blockNat (if k.isSome then p else p.drop (b + 8))
    let code := lowestCode [codeIf (n == 0 || e == 0) stINPUT_ZERO, rsaCode x n]
    if code ≠ 0 then pkRefuse code else pkGive (natBlock b (powMod x e n))

/-- The function of a PK_RUN, its inputs read and its curve sane. -/
def State.pkFn (s : State) (j : PkJob) : State × PkOut :=
  let f := j.fn
  let k := s.pkKey j.none j.keySlot
  let p := j.input
  match f with
  | 1 | 2 | 3 => s.pkEc f (s.curveOf j.curve) k j.destEn p
  | 4 => if j.curve = 4 then (s, pkGive (edPub ((k.map (·.material)).getD []))) else s.pkEc 4 (s.curveOf j.curve) k false p
  | 5 => s.pkX25519 k j.destEn p
  | 6 => (s, pkGive (edSign ((k.map (·.material)).getD []) p))
  | 7 => (s, pkEdVerify p)
  | 8 | 9 => (s, pkRsa f k p)
  | 10 => (s, pkGive [])
  | _ => let d := s.drawBytes (j.cmd.u 28 4); (d.1, pkGive d.2)

/-- A read that failed: cause 3 is a poisoned read. -/
def readCode : Option Nat → Nat
  | none => 0
  | some c => if c = 3 then stPOISONED else stABORTED

/-- Stages 2 to 5 of a PK_RUN. -/
def State.pkEval (s : State) (j : PkJob) (readErr : Option Nat) : State × PkOut :=
  let f := j.fn
  let c := j.curve
  let named := f == 1 || f == 2 || f == 3 || f == 10 || (f == 4 && c != 4)
  let m := if named && s.insane c then (s, false)
    else if f == 10 || (named && !s.checked c) then s.curveCheck c else (s, true)
  if !m.2 then (m.1, pkFail stPARAM_INSANE)
  else
    let poisoned := j.sources.any (fun k => (s.keyAt k).poisoned)
    let code := lowestCode [readCode readErr, codeIf poisoned stPOISONED]
    if code ≠ 0 then (m.1, pkFail code)
    else
      let u := j.sources.foldl (fun t k => t.useKey k) m.1
      u.pkFn j

/-! ### Job times (R415) -/

/-- Which row of the curve table a size takes. -/
def sizeRow (bits : Nat) : Nat := if bits ≤ 256 then 0 else if bits ≤ 384 then 1 else 2

def vNs (r : Nat) : Nat := if r = 0 then 12000 else if r = 1 then 22000 else 40000
/-- V in ns. -/
def State.pkV (s : State) (j : PkJob) : Nat :=
  let f := j.fn
  let k := rsaBits (s.pkKey j.none j.keySlot) j.input.length
  if f = 8 ∨ f = 9 then (if k ≤ 2048 then 6000 else if k ≤ 3072 then 8000 else if k ≤ 4096 then 10000 else 18000)
  else if f = 5 then 4000
  else if f = 6 ∨ f = 7 ∨ (f = 4 ∧ j.curve = 4) then 14000
  else if f = 1 ∨ f = 2 ∨ f = 3 ∨ f = 4 then vNs (sizeRow (s.curveOf j.curve).bits)
  else 0

/-- The columns of the curve table and of the RSA table, in ns. -/
def signNs (r : Nat) : Nat := if r = 0 then 110000 else if r = 1 then 240000 else 520000
def verifyNs (r : Nat) : Nat := if r = 0 then 210000 else if r = 1 then 460000 else 1000000
def ecdhNs (r : Nat) : Nat := if r = 0 then 100000 else if r = 1 then 220000 else 480000
def rsaPrivNs (k : Nat) : Nat := if k ≤ 2048 then 300000 else if k ≤ 3072 then 900000 else if k ≤ 4096 then 2500000 else 17000000
def rsaPubNs (k : Nat) : Nat := if k ≤ 2048 then 8000 else if k ≤ 3072 then 15000 else if k ≤ 4096 then 25000 else 85000

/-- The public exponent of an RSA_PUBLIC job. -/
def State.pkExp (s : State) (j : PkJob) (k : Nat) : Nat :=
  match s.pkKey j.none j.keySlot with
  | some x => blockNat (x.material.drop (k / 8))
  | none => blockNat ((j.input.drop (k / 8)).take 8)

/-- The time of a whole job in ns; 0 where the manual gives none. -/
def State.pkTime (s : State) (j : PkJob) : Nat :=
  let f := j.fn
  let r := sizeRow (s.curveOf j.curve).bits
  let k := rsaBits (s.pkKey j.none j.keySlot) j.input.length
  if f = 1 then signNs r
  else if f = 2 then verifyNs r
  else if f = 3 then (if j.none then 2 * ecdhNs r else ecdhNs r)
  else if f = 4 then (if j.curve = 4 then 70000 else ecdhNs r)
  else if f = 5 then (if j.none then 140000 else 70000)
  else if f = 6 then 75000 + 4000 * (j.input.length / 128)
  else if f = 7 then 150000 + 4000 * ((j.input.length - 96) / 128)
  else if f = 8 then rsaPrivNs k
  else if f = 9 ∧ s.pkExp j k = 65537 then rsaPubNs k
  else 0

/-- The earliest end of a job that comes to `o`, in ns after its start: the time of R415 less its tolerance. -/
def State.pkDue (s : State) (j : PkJob) (o : PkOut) : Nat :=
  if j.op ≠ 0 then 0
  else if o.stage4 then s.pkV j - 100
  else if o.status = stOK ∨ o.status = stSIGNATURE_BAD then s.pkTime j - 1000
  else 0

/-! ### KEY_IMPORT (R399, R401) -/

/-- The first 16 bytes of a blob. -/
def blobHeader (typ usage curve bits wrapper : Nat) : List Byte :=
  leBytes 1 1 ++ leBytes 1 typ ++ leBytes 1 usage ++ leBytes 1 curve ++ leBytes 2 bits ++ zeros 2
    ++ (if wrapper = 0 then leBytes 4 devKeyId else zeros 4) ++ zeros 4

/-- The length of a blob of `m` bytes of material. -/
def blobLen (wrapper m : Nat) : Nat := 16 + (if wrapper = 0 then 96 else 0) + 12 + m + 16

/-- The new key of an import or generation, its material still missing. -/
def State.newKey (s : State) (typ usage curve bits origin owner label span : Nat) : Key :=
  ⟨true, false, typeSecret typ, true, typ, usage, curve, span, origin, s.keyBits typ curve bits, owner, label, 0, []⟩

/-- Functions other than 0 need the bit of `KEY.CTRL` for their command (R401). -/
def State.vfDenied (s : State) (fn bit : Nat) : Bool := fn != 0 && !s.on ⟨KEY.CTRL, bit, 1⟩

/-- Stage 1 of an import, from the command and the blob's header. -/
def State.importCode (s : State) (c : HostCmd) (h : List Byte) : Nat :=
  let slot := c.u 12 2 % 1024
  let wr := c.u 14 2 % 1024
  let typ := leAt h 1 1
  let cv := leAt h 3 1
  let bits := leAt h 4 2
  let m := s.materialLen typ cv bits
  let span := spanOf m
  let good := pairOk typ (leAt h 2 1) && typeCurve typ cv && (if typ = 2 ∨ typ = 3 then rsaSize bits else bits == s.keyBits typ cv bits)
  let w := s.pkPick 7
  c.code [
    codeIf (bitsOf (c.u 12 2) 10 6 != 0 || bitsOf (c.u 14 2) 10 6 != 0 || !c.zero 20 32 || leAt h 0 1 != 1 || leAt h 6 2 != 0
      || leAt h 12 4 != 0 || !good || slot == 0 || decide (1024 < slot + span) || s.spanTaken slot span
      || c.u 8 4 != blobLen wr m || leAt h 8 4 != (if wr = 0 then s.nreg KEY.DEVKEY_ID else 0)) stREFUSED,
    codeIf (s.spanWriting slot span || s.pkBusy 7) stBUSY,
    codeIf (!s.spanWritable c.fn slot span || !s.mayUse c.fn wr || s.vfDenied c.fn 0
      || (match w with | some q => !s.mayUse (108 + q) wr | none => false)) stDENIED,
    codeIf (s.modeNoCmd || s.mode == 10) stMODE_FORBIDS]

def execKeyImport (c : HostCmd) (hdrErr : Option Nat) (t : Nat) (s0 : State) : Host.Outcome State Fault Refusal :=
  let s := s0.advance t
  let h := s.bytesAt (c.u 0 8) 16
  let slot := c.u 12 2 % 1024
  let code := match hdrErr with
    | none => s.importCode c h
    | some e => c.code [codeIf (bitsOf (c.u 12 2) 10 6 != 0 || bitsOf (c.u 14 2) 10 6 != 0 || !c.zero 20 32 || slot == 0) stREFUSED,
        codeIf (s.vfDenied c.fn 0) stDENIED, codeIf (s.modeNoCmd || s.mode == 10) stMODE_FORBIDS, readCode (some e)]
  let s1 := match hdrErr with
    | some e => if e = 3 then (s.dmaAbort c.ring 3 3).poisonSeen else s.dmaAbort c.ring 3 e
    | none => s
  .next (match (if code = 0 then s.pkPick 7 else none) with
    | some w =>
      let typ := leAt h 1 1
      let span := spanOf (s.materialLen typ (leAt h 3 1) (leAt h 4 2))
      s.pkAccept w c 1 (some (slot, s.newKey typ (leAt h 2 1) (leAt h 3 1) (leAt h 4 2) 0 c.fn (c.u 16 4) span))
    | none => ((if code = stDENIED then s1.deny c.fn 17 .write true else s1).keyNote 1 code slot).complete c code 0)

/-- The key that wraps a blob, for WRAPPER 0 from the shared x-coordinate (R399). -/
def wrapKey (x : Nat) (hdr : List Byte) : List Byte := sha256 (natBlock 48 x ++ hdr)

/-- Stage 2: no key to unwrap or wrap with. -/
def State.noWrapper (s : State) (wr : Nat) : Bool :=
  if wr = 0 then !s.on KEY.STAT_DEVKEY_OK else !((s.keyAt wr).valid && (s.keyAt wr).typ == 6)

/-- Stage 5 of an import: the codes of material (R401). -/
def State.materialCode (s : State) (k : Key) (m : List Byte) : Nat :=
  let v := s.curveOf k.curve
  match k.typ with
  | 0 => valueCode (blockNat m) v.n
  | 1 => v.pointCode (blockNat (m.take v.lp)) (blockNat (m.drop v.lp))
  | 2 =>
    match ({ k with material := m }).parts 0 with
    | [n, p, q, dp, dq, qi, e] =>
      codeIf (p * q != n || e % 2 == 0 || decide (e < 3) || decide (p < 2) || decide (q < 2) || dp * e % (p - 1) != 1 % (p - 1)
        || dq * e % (q - 1) != 1 % (q - 1) || qi * q % p != 1 % p) stINPUT_RANGE
    | _ => stINPUT_RANGE
  | 3 =>
    let e := blockNat (m.drop (k.bits / 8))
    codeIf (e % 2 == 0 || decide (e < 3)) stINPUT_RANGE
  | _ => 0

/-- Stages 2 to 5 of an import. -/
def State.importEval (s : State) (j : PkJob) (readErr : Option Nat) : State × PkOut :=
  let b := j.input
  let wr := j.wrapper
  let k := s.keyAt (j.claim.getD 0)
  let hdr := b.take 16
  let e := (b.drop 16).take (if wr = 0 then 96 else 0)
  let rest := b.drop (16 + e.length)
  let ct := (rest.drop 12).take (rest.length - 28)
  let x := blockNat (e.take 48)
  let y := blockNat (e.drop 48)
  let p384 := stdCurve 1
  let code3 := lowestCode [readCode readErr, codeIf ((s.keyAt wr).poisoned) stPOISONED]
  if s.noWrapper wr then (s, pkFail stNO_KEY)
  else if code3 ≠ 0 then (s, pkFail code3)
  else
    let key := if wr ≠ 0 then some (s.keyAt wr).material
      else if p384.on x y then (p384.mul devScalar (some (x, y))).map (fun z => wrapKey z.1 hdr) else none
    let u := s.useKey wr
    match key.bind (fun kk => gcmOpen kk (rest.take 12) (hdr ++ e) ct (rest.drop (rest.length - 16))) with
    | none => (u, pkFail stSIGNATURE_BAD)
    | some m =>
      let c := s.materialCode k m
      (u, if c ≠ 0 then pkFail c else ⟨stOK, false, [], some m⟩)

/-! ### KEY_GENERATE (R400) -/

/-- Bytes of the public key a generation gives. -/
def State.publicLen (s : State) (typ cv bits : Nat) : Nat :=
  match typ with
  | 0 => 2 * (s.curveOf cv).lp
  | 2 => bits / 8 + 8
  | 4 | 5 => 32
  | _ => 0

/-- Stage 1 of a generation. -/
def State.generateCode (s : State) (c : HostCmd) : Nat :=
  let typ := c.u 0 1
  let cv := c.u 2 1
  let fl := c.u 3 1
  let bits := c.u 4 2
  let slot := c.u 6 2 % 1024
  let wr := c.u 12 2 % 1024
  let m := s.materialLen typ cv bits
  let span := spanOf m
  let need := (if bitAt fl 0 then blobLen wr m else 0) + (if bitAt fl 1 then s.publicLen typ cv bits else 0)
  let w := s.pkPick 7
  c.code [
    codeIf (!(typ == 0 || typ == 2 || typ == 4 || typ == 5 || typ == 6) || !pairOk typ (c.u 1 1) || !typeCurve typ cv
      || decide (4 ≤ fl) || (if typ = 2 then !rsaSize bits else bits != 0) || bitsOf (c.u 6 2) 10 6 != 0 || bitsOf (c.u 12 2) 10 6 != 0
      || c.u 14 2 != 0 || !c.zero 28 32 || (typ == 6 && bitAt fl 1) || slot == 0 || decide (1024 < slot + span)
      || s.spanTaken slot span || decide (c.u 24 4 < need)) stREFUSED,
    codeIf (s.spanWriting slot span || s.pkBusy 7) stBUSY,
    codeIf (!s.spanWritable c.fn slot span || s.vfDenied c.fn 1
      || (bitAt fl 0 && (!s.mayUse c.fn wr || (match w with | some q => !s.mayUse (108 + q) wr | none => false)))) stDENIED,
    codeIf (s.modeNoCmd || s.mode == 10) stMODE_FORBIDS]

def execKeyGenerate (c : HostCmd) (t : Nat) (s0 : State) : Host.Outcome State Fault Refusal :=
  let s := s0.advance t
  let code := s.generateCode c
  let slot := c.u 6 2 % 1024
  .next (match (if code = 0 then s.pkPick 7 else none) with
    | some w =>
      let typ := c.u 0 1
      let span := spanOf (s.materialLen typ (c.u 2 1) (c.u 4 2))
      s.pkAccept w c 2 (some (slot, s.newKey typ (c.u 1 1) (c.u 2 1) (c.u 4 2) 1 c.fn (c.u 8 4) span))
    | none => ((if code = stDENIED then s.deny c.fn 17 .write true else s).keyNote 2 code slot).complete c code 0)

/-- Two numbers make an RSA key of `k` bits with e = 65 537: odd primes of half the size whose product has the full size,
and e prime to both less one (R400). -/
def rsaPrimes (k : Nat) (bases : List Nat) : List Nat → Bool
  | [p, q] => p != q && Nat.log2 p + 1 == k / 2 && Nat.log2 q + 1 == k / 2 && Nat.log2 (p * q) + 1 == k
      && Nat.gcd 65537 (p - 1) == 1 && Nat.gcd 65537 (q - 1) == 1 && isPrime p bases && isPrime q bases
  | _ => false

def rsaMaterial (k p q : Nat) : List Byte :=
  let b := k / 16
  let d := invMod 65537 ((p - 1) * (q - 1))
  natBlock (2 * b) (p * q) ++ natBlock b p ++ natBlock b q ++ natBlock b (d % (p - 1)) ++ natBlock b (d % (q - 1))
    ++ natBlock b (invMod q p) ++ natBlock 8 65537

/-- The material of a new key and its public key; for RSA the primes found are the engine's. None where they are not such
primes. -/
def State.newMaterial (s : State) (k : Key) (primes : List Nat) : State × Option (List Byte × List Byte) :=
  match k.typ with
  | 0 =>
    let v := s.curveOf k.curve
    let d := s.drawScalar v.n
    (d.1, some (natBlock v.ln d.2, ptBytes v.lp (v.mul d.2 v.base)))
  | 2 =>
    let d := s.draws 40
    match primes with
    | [p, q] =>
      if rsaPrimes k.bits d.2 primes then
        (d.1, some (rsaMaterial k.bits p q, natBlock (k.bits / 8) (p * q) ++ natBlock 8 65537))
      else (s, none)
    | _ => (s, none)
  | 4 => let d := s.drawBytes 32; (d.1, some (d.2, x25519 d.2 (leBytes 32 9)))
  | 5 => let d := s.drawBytes 32; (d.1, some (d.2, edPub d.2))
  | _ => let d := s.drawBytes 32; (d.1, some (d.2, []))

/-- The blob of R399 around material. -/
def State.wrap (s : State) (wr : Nat) (k : Key) (m : List Byte) : State × List Byte :=
  let hdr := blobHeader k.typ k.usage k.curve k.bits wr
  let iv := s.drawBytes 12
  if wr ≠ 0 then (iv.1.useKey wr, hdr ++ iv.2 ++ gcmSeal (s.keyAt wr).material iv.2 hdr m)
  else
    let p := stdCurve 1
    let d := iv.1.drawScalar p.n
    let e := ptBytes 48 (p.mul d.2 p.base)
    let x := match p.mul d.2 devPublic with | some z => z.1 | none => 0
    (d.1.useKey 0, hdr ++ e ++ iv.2 ++ gcmSeal (wrapKey x hdr) iv.2 (hdr ++ e) m)

/-- Stages 2 to 5 of a generation; none where the primes given are none. -/
def State.generateEval (s : State) (j : PkJob) (primes : List Nat) : Option (State × PkOut) :=
  let wr := j.wrapper
  let fl := j.cmd.u 3 1
  let k := s.keyAt (j.claim.getD 0)
  if bitAt fl 0 && s.noWrapper wr then some (s, pkFail stNO_KEY)
  else if bitAt fl 0 && (s.keyAt wr).poisoned then some (s, pkFail stPOISONED)
  else
    let n := s.newMaterial k primes
    match n.2 with
    | none => none
    | some m =>
      let b := if bitAt fl 0 then n.1.wrap wr k m.1 else (n.1, [])
      some (b.1, ⟨stOK, false, b.2 ++ (if bitAt fl 1 then m.2 else []), some m.1⟩)

/-! ### The end of a job -/

/-- A job completes: OUT and its claimed slot are written where it is OK, else the slot is released unwritten. -/
def State.pkFinish (s : State) (w : Nat) (j : PkJob) (o : PkOut) : State :=
  let e := (s.engOf w).getD w
  let span := match j.claim with | some k => (s.keyAt k).span | none => 0
  let s1 := s.pkLeave w j
  let s2 := match j.claim with
    | none => s1
    | some k => match o.put with
      | some m => s1.setKey k { s1.keyAt k with writing := false, material := m }
      | none => s1.dropKey k
  let s3 := s2.setBytes (if j.op = 0 then j.cmd.u 20 8 else j.cmd.u 16 8) (if o.status = stOK then o.out else [])
  let s4 := match j.op with
    | 0 => s3.pkNote j.fn o.status e o.stage4
    | 1 =>
      let t := s3.keyNote 1 o.status (j.claim.getD 0)
      if o.status = stOK then (t.bump KEY.IMPORTS).sticky KEY.STICKY_IMPORTED
      else if o.status = stSIGNATURE_BAD then (t.bump KEY.UNWRAP_FAILS).sticky KEY.STICKY_UNWRAP_FAIL else t
    | _ =>
      let t := s3.keyNote 2 o.status (j.claim.getD 0)
      if o.status = stOK then (t.bump KEY.GENERATES).sticky KEY.STICKY_GENERATED else t
  let count := if o.status ≠ stOK then 0 else if j.op = 1 then span else o.out.length
  ((s4.complete j.cmd o.status count).itemEnd (44 + w) (o.status == stOK)).pkStart w

/-- What the job at the head of a queue comes to. -/
def State.pkResult (s : State) (j : PkJob) (readErr : Option Nat) (primes : List Nat) : Option (State × PkOut) :=
  match j.op with
  | 0 => some (s.pkEval j readErr)
  | 1 => some (s.importEval j readErr)
  | _ => s.generateEval j primes

/-- R415: the running job of a queue ends at its time. A failed read is a DMA abort of the command's ring; a generation
reads nothing. -/
def execPkJobComplete (q : Nat) (readErr : Option Nat) (primes : List Nat) (t : Nat) (s0 : State) :
    Host.Outcome State Fault Refusal :=
  let s := s0.advance t
  .next (match s.pkQ q with
    | j :: _ =>
      if !j.running ∨ (s.engOf q).isNone then s
      else
        let s1 := match (if j.op = 2 then none else readErr) with
          | some c => if c = 3 then (s.dmaAbort j.cmd.ring 3 3).poisonSeen else s.dmaAbort j.cmd.ring 3 c
          | none => s
        match s1.pkResult j readErr primes with
        | none => s
        | some r => if j.start + s.pkDue j r.2 * qNs ≤ s.raw then r.1.pkFinish q j r.2 else s
    | [] => s)

/-- R377: the key sequencer completes the head of its queue with a status. A status other than OK writes nothing; OK gives
what the function gives. -/
def execKeyHeadComplete (k status t : Nat) (s0 : State) : Host.Outcome State Fault Refusal :=
  let s := s0.advance t
  .next (match s.pkQ k with
    | j :: _ =>
      if !j.running ∨ (s.engOf k).isNone then s
      else if status % 256 ≠ stOK then s.pkFinish k j (pkFail (status % 256))
      else (match s.pkResult j none [] with
        | some r => r.1.pkFinish k j { r.2 with status := stOK }
        | none => s)
    | [] => s)

/-! ### KEY_ZEROISE (R402) -/

/-- One key zeroised: the jobs that use it or claim its slots are aborted, its generation ends, its span is cleared. A span
with a slot in `bad` fails its read-back and stays POISONED. -/
def State.zeroiseKey (s : State) (slot : Nat) (bad : List Nat) : State × Nat :=
  let s1 := s.pkAbortIf (fun _ j => j.claim == some slot || j.sources.contains slot) 0x1F
  let k := s1.keyAt slot
  let s2 := if k.typ = 7 then
      (if slot = s1.curSlot then s1.wr NTS.MK_STAT_CUR_VALID 0
       else if slot = s1.prevSlot then s1.wr NTS.MK_STAT_PREV_VALID 0 else s1)
    else s1
  if (List.range k.span).any (fun i => bad.contains (slot + i)) then
    (s2.setKey slot { k with poisoned := true, writing := false, material := [] }, 0)
  else ((s2.dropKey slot).bump KEY.ZEROISES k.span, k.span)

def execKeyZeroise (c : HostCmd) (bad : List Nat) (t : Nat) (s0 : State) : Host.Outcome State Fault Refusal :=
  let s := s0.advance t
  let slot := c.u 0 2 % 1024
  let all := bitAt (c.u 0 2) 15
  let heads := if all then (s.key.slots.filter (fun e => e.1 != 0 && e.2.valid)).map (·.1) else [slot]
  let k := s.keyAt slot
  let code := c.code [
    codeIf (bitsOf (c.u 0 2) 10 5 != 0 || !c.zero 2 32 || (!all && (slot == 0 || (!k.valid && (s.headOf slot).isSome)))) stREFUSED,
    codeIf ((all && c.fn != 0) || (!all && s.vfDenied c.fn 2)
      || heads.any (fun h => !s.spanWritable c.fn h (s.keyAt h).span)) stDENIED,
    codeIf (!all && slot != 0 && (s.headOf slot).isNone) stZERO_LEN,
    codeIf (s.modeNoCmd || s.mode == 10) stMODE_FORBIDS]
  .next (if code ≠ 0 then
      ((if code = stDENIED then s.deny c.fn 17 .write true else s).keyNote 3 code slot).complete c code 0
    else
      let r := heads.foldl (fun (a : State × Nat) h => let z := a.1.zeroiseKey h bad; (z.1, a.2 + z.2)) (s, 0)
      let failed := heads.any (fun h => (r.1.keyAt h).valid)
      let s1 := if r.2 = 0 then r.1 else (r.1.sticky KEY.STICKY_ZEROISED).journal 12 17 (leBytes 2 slot ++ leBytes 1 (b2n all))
      let st := if failed then stPOISONED else stOK
      (s1.keyNote 3 st slot).complete c st r.2)

/-! ### The row multiplier and KEY_USE (R377, R378, R404 to R406) -/

/-- A fresh 32-bit value that is not zero (R406). -/
def State.drawMask (s : State) : Nat → State × Nat
  | 0 => let f := s.free; (f.2, f.1)
  | n + 1 =>
    let d := s.draw
    if d.1 % 2 ^ 32 = 0 then State.drawMask d.2 n else (d.2, d.1 % 2 ^ 32)

/-- R378, R406: sequencer 44 + k loads part `part` of a key into operand slot `dst`, as x + r·N with N the operand slot
`modulus`. -/
def execKeyUse (k slot part dst modulus t : Nat) (s0 : State) : Host.Outcome State Fault Refusal :=
  let s := s0.advance t
  .next (match s.engOf k with
    | none => s
    | some e =>
      let key := s.keyAt slot
      if (s.sq (44 + k)).st ≠ .run ∨ 64 ≤ dst ∨ 64 ≤ modulus ∨ 1024 ≤ slot then s
      else if !s.mayUse (108 + k) slot then s.deny (108 + k) 17 .useKey true
      else if !key.valid || key.writing then s
      else if key.poisoned then s.keyPoison
      else
        match (key.parts (s.curveOf key.curve).lp)[part]? with
        | none => s
        | some x =>
          let d := s.drawMask 4
          (d.1.setOperand e dst (x + d.2 * s.operand e modulus)).useKey slot)

/-- A row in flight on engine `e` of queue `k` completes. -/
def State.rowEnd (s : State) (k e : Nat) : State :=
  match Store.get (fun _ => (none : Option RowOp)) s.pke.rows e with
  | none => s
  | some r =>
    let d := s.operand e r.d
    let m := 2 ^ r.w
    let v := d / m * m + (d + s.operand e r.a * r.b + r.c) % m
    let s1 := { s.setOperand e r.d v with pke := { (s.setOperand e r.d v).pke with rows := Store.drop (fun i => i == e) s.pke.rows } }
    ((s1.bump48 PKE.ROWS_LO).count 9 1 e).seqEvent (44 + k) 1

/-- R405: a row starts; one still in flight ends first. A width that is no multiple of 64 up to 8 448 starts none. -/
def execRowGo (k d a b c w t : Nat) (s0 : State) : Host.Outcome State Fault Refusal :=
  let s := s0.advance t
  .next (match s.engOf k with
    | none => s
    | some e =>
      if (s.sq (44 + k)).st ≠ .run ∨ 64 ≤ d ∨ 64 ≤ a ∨ w = 0 ∨ w % 64 ≠ 0 ∨ 8448 < w then s
      else
        let s1 := s.rowEnd k e
        { s1 with pke := { s1.pke with
            rows := Store.put (fun _ => (none : Option RowOp)) s1.pke.rows e (some ⟨d, a, b % 2 ^ 64, c % 2 ^ 64, w⟩) } })

def execRowDone (k t : Nat) (s0 : State) : Host.Outcome State Fault Refusal :=
  let s := s0.advance t
  .next (match s.engOf k with
    | none => s
    | some e => s.rowEnd k e)

/-! ### Known-answer tests and lost engines (R417) -/

/-- An engine marked unusable under a sticky bit: its running job is aborted, and with no spare the rest of its queue. -/
def State.engineFail (s : State) (e : Nat) (f : Fld) (reason : Nat) : State :=
  let u := s.unit 2 e
  let w := u.serves
  let s1 := if u.idle then s else s.pkAbortIf (fun q j => q == w && j.running) reason
  let r := s1.failUnit 2 e
  let s2 := r.1.sticky f
  if u.idle then s2.settleMode
  else if r.2 then ((s2.sticky PKE.STICKY_SPARE_USED).showPke).pkStart w
  else ((s2.pkAbortIf (fun q _ => q == w) reason).showPke).settleMode

def execPkeKat (e : Nat) (ok : Bool) (t : Nat) (s0 : State) : Host.Outcome State Fault Refusal :=
  let s := s0.advance t
  .next (if !unitPresent s.variant 2 e || (s.unit 2 e).unusable || ok then s else s.engineFail e PKE.STICKY_KAT_FAIL 0x1F)

/-! ### The search for free slots (R419) -/

def State.findFree (s : State) (span : Nat) : Option Nat :=
  (firstIdx (1024 - span) (fun i => !s.spanTaken (i + 1) span)).map (· + 1)

/-- A write of `KEY.FIND_CTRL` with GO. -/
def State.findGo (s : State) (span : Nat) : State :=
  if span % 32 = 0 then s.refuseCfg .key
  else
    let s1 := s.wr KEY.FIND_CTRL_SPAN span
    match s1.findFree (span % 32) with
    | some i => s1.setN KEY.FIND_RESULT (i + 2 ^ 16)
    | none => s1.setN KEY.FIND_RESULT 0

def execFindGo (m span t : Nat) (s : State) : Host.Outcome State Fault Refusal :=
  .next ((s.advance t).busWrite m 17 KEY.FIND_CTRL (fun x => x.findGo span))

/-! ### Commit groups PKE and KEY (R418, R419) -/

def State.pkeValid (s : State) : Bool :=
  s.shd PKE.CTRL_ENG_EN != 0
    && (List.range 8).all (fun i =>
      let b := s.shadowWord (Tbl.pkeCurves.key (256 * (8 + i) + 32 * 7)) % 1024
      b == 0 || (decide (160 ≤ b) && decide (b ≤ 576)))

/-- The safe point is not reached while a running job names a curve the commit changes. -/
def State.pkeWaits (s : State) : Bool :=
  (List.range 4).any (fun w => (s.pkQ w).any (fun j => j.running && j.op == 0 && s.curveChanging (j.cmd.u 1 1)))

/-- The group applied: a changed entry loses CHECKED and INSANE; the jobs that waited start. -/
def State.pkeApply (s : State) : State :=
  let cs := (List.range 16).filter (fun c => s.curveChanging c)
  let s1 := cs.foldl (fun t c => (t.wr ⟨PKE.CURVE_STAT, c, 1⟩ 0).wr ⟨PKE.CURVE_STAT, 16 + c, 1⟩ 0) (s.applyShadows .pke)
  s1.pkStartAll

def State.keyValid (_ : State) : Bool := true
def State.keyApply (s : State) : State := s.applyShadows .key

end Sys2Proof.Machine
end

