-- ==== Sys2Proof/Machine/Fls.lean ====
section
/-! DEFINITION. FLS: what the medium answers (R421 to R426, R434), the journal (R427 to R431), images and the boot record
(R432), the commands (R433) and commit group FLS (R435). The medium is outside the engine: what it answers is an operand. -/

namespace Sys2Proof.Machine

def State.setFls (s : State) (f : FlsS → FlsS) : State := { s with fls := f s.fls }

/-- A medium operation with nothing to report. -/
def nandClean : NandOut := ⟨0, 0, 0, 0, 0, 0, none, [], []⟩

/-! ### Images (R63, R433) -/

def noImg : Img := ⟨false, 0, []⟩
/-- The copy of a kind: 1 A, 2 B, 3 golden. -/
def State.img (s : State) (kind copy : Nat) : Img := Store.get (fun _ => noImg) s.fls.imgs (4 * kind + copy)
def State.setImg (s : State) (kind copy : Nat) (x : Img) : State :=
  s.setFls (fun f => { f with imgs := Store.put (fun _ => noImg) f.imgs (4 * kind + copy) x })

/-- The fused minimum security version of a kind. -/
def State.minVersion (s : State) (kind : Nat) : Nat := Store.get zNat s.fls.minVer kind

/-- The copy the boot record prefers (R432). -/
def State.prefers (s : State) (kind : Nat) : Nat :=
  if (if kind = 15 then s.on FLS.BOOTREC_PREF_KEYS else bitAt (s.rd FLS.BOOTREC_PREF) kind) then 2 else 1

/-! ### Journal records (R428) -/

/-- Bytes 0 to 55 of a record. -/
def JRec.head (r : JRec) (seq : Nat) : List Byte :=
  leBytes 12 r.time ++ leBytes 6 seq ++ leBytes 1 r.typ ++ leBytes 1 r.src ++ leBytes 2 (b2n (r.gap != 0) + 2 * b2n r.ka)
    ++ (if r.gap = 0 then fit 34 r.body else leBytes 4 r.gap ++ fit 30 (r.body.drop 4))

/-- The CHECK that follows another, as a number whose byte 0 is the first. -/
def chainCheck (prev : Nat) (head : List Byte) : Nat := leNat ((sha256 (leBytes 8 prev ++ head)).take 8)

def JBuf.bytes (b : JBuf) : List Byte := b.rcd.head b.seq ++ leBytes 8 b.check

/-- FLS.SEQ, FLS.DURABLE and FLS.ARCHIVED as numbers. -/
def State.jrnSeq (s : State) : Nat := s.reg48 FLS.SEQ_LO
def State.set48 (s : State) (k v : Nat) : State := (s.setN k v).wr ⟨k + 4, 0, 16⟩ (v / 2 ^ 32)
def State.setBuf (s : State) (l : List JBuf) : State :=
  ({ s with jrn := { s.jrn with buf := l } }).wr FLS.STAT_BUF l.length

/-- A record takes the next SEQ and its CHECK and enters the buffer; it is streamed where STREAM_EN is 1 (R427, R429). -/
def State.bufPut (s : State) (r : JRec) : State :=
  let seq := s.jrnSeq
  let check := chainCheck (s.reg64 FLS.CHECK_LO) (r.head seq)
  let b : JBuf := ⟨seq, check, r, s.raw⟩
  let s1 := (((s.setBuf (s.jrn.buf ++ [b])).set48 FLS.SEQ_LO ((seq + 1) % 2 ^ 48)).set64 FLS.CHECK_LO check).count 10 3 0
  if s1.on FLS.JRN_CFG_STREAM_EN then s1.postNoted (s1.rd FLS.JRN_CFG_RING) 2 b.bytes else s1

/-! ### The medium (R420 to R426, R430, R434) -/

def State.mediumOk (s : State) : Bool := s.on FLS.STAT_MEDIUM_OK
def State.readOnly (s : State) : Bool := s.on FLS.STAT_READ_ONLY

/-- Blocks of the journal partition that hold pages, and those free. -/
def State.jrnUsed (s : State) : Nat := ceilDiv s.fls.made 256 - s.fls.first / 256
def State.jrnFree (s : State) : Nat := s.fls.blocks - s.jrnUsed

/-- The oldest journal block erased: its records above ARCHIVED count as OVERRUN (R430). -/
def State.eraseOldest (s : State) : State :=
  let upto := (s.fls.first / 256 + 1) * 256
  let gone := s.fls.pages.filter (fun p => decide (p.1 < upto))
  let n := (gone.flatMap (·.2)).countP (fun b => decide (s.reg48 FLS.ARCHIVED_LO < b.seq))
  let s1 := (s.setFls (fun f => { f with first := upto, pages := f.pages.filter (fun p => decide (upto ≤ p.1)) })).bump FLS.ERASES
  if n = 0 then s1 else (s1.bump FLS.OVERRUN n).sticky FLS.STICKY_OVERRUN

/-- R434: fewer than 64 journal blocks. -/
def State.checkReadOnly (s : State) : State :=
  if s.fls.blocks < 64 && !s.readOnly then (s.wr FLS.STAT_READ_ONLY 1).sticky FLS.STICKY_READ_ONLY else s

/-- One block grown bad (R423, R434): a spare takes its place, or, with none left, the oldest journal block. -/
def State.growBad (s : State) : State :=
  let spare := s.nreg FLS.SPARE % 2 ^ 16
  let good := s.nreg FLS.BLOCKS % 2 ^ 16
  let bad := s.nreg FLS.BLOCKS / 2 ^ 16
  let s1 := (s.setN FLS.BLOCKS ((good - 1) + 2 ^ 16 * (bad + 1))).setN FLS.SPARE ((spare - 1) + 2 ^ 16 * (s.nreg FLS.SPARE / 2 ^ 16 + 1))
  let s2 := if spare = 0 then
      ((if s1.jrnFree = 0 then s1.eraseOldest else s1).setFls (fun f => { f with blocks := f.blocks - 1 })).checkReadOnly
    else s1
  let s3 := if (spare - 1) * 100 < good + bad then s2.sticky FLS.STICKY_SPARE_LOW else s2
  (s3.setQuiet FLS.STICKY_GROWN).journal 11 20 (leBytes 1 0)

/-- What the medium answered to an operation, counted. -/
def State.nand (s : State) (o : NandOut) : State :=
  let s1 := ((s.bump FLS.ERASES o.erases).bump FLS.PROG_FAILS o.progFails).bump FLS.CORRECTED o.corrected
  let s2 := if o.corrected = 0 then s1 else s1.count 10 2 0 o.corrected
  let s3 := match o.wear with | some w => s2.setN FLS.WEAR (w.1 % 2 ^ 16 + 2 ^ 16 * w.2) | none => s2
  let s4 := if o.uncorr = 0 then s3 else (s3.bump FLS.UNCORR o.uncorr).sticky FLS.STICKY_UNCORR
  let s5 := if o.jrnBad.isEmpty then s4
    else (s4.bump FLS.JRN_UNREADABLE o.jrnBad.length).setFls (fun f => { f with unread := f.unread ++ o.jrnBad })
  let s6 := if o.imgBad.isEmpty then s5
    else (o.imgBad.foldl (fun t k => t.setImg (k / 4) (k % 4) { t.img (k / 4) (k % 4) with valid := false }) s5).sticky FLS.STICKY_IMAGE_FAIL
  let s7 := if o.refreshed = 0 then s6
    else ((s6.setN FLS.SCRUB_STAT (s6.nreg FLS.SCRUB_STAT % 2 ^ 16 + 2 ^ 16 * (s6.nreg FLS.SCRUB_STAT / 2 ^ 16 + o.refreshed))).sticky
      FLS.STICKY_REFRESH).journal 11 20 (leBytes 1 1 ++ leBytes 2 o.refreshed)
  (List.range o.grown).foldl (fun t _ => t.growBad) s7

/-- The Flowstone domain can program pages. -/
def State.canProgram (s : State) : Bool := s.mediumOk && !s.readOnly

/-- The JOURNAL_APPENDs whose record is durable complete (R433). -/
def State.appsDurable (s : State) (seq : Nat) : State :=
  let done := s.fls.apps.filter (fun a => match a.2.2 with | some q => decide (q ≤ seq) | none => false)
  done.foldl (fun t a => ((t.setFls (fun f => { f with apps := f.apps.erase a })).setN FLS.LAST_CMD 1).complete a.2.1 stOK (a.2.1.u 0 1)) s

/-- One page of 240 records programmed: they are durable (R427). -/
def State.programPage (s : State) : State :=
  let page := s.jrn.buf.take 240
  match page.getLast? with
  | none => s
  | some l =>
    let s0 := if s.fls.made % 256 = 0 ∧ s.jrnFree ≤ 8 then s.eraseOldest else s
    let s1 := ((s0.setBuf (s0.jrn.buf.drop 240)).setFls (fun f => { f with pages := f.pages ++ [(f.made, page)], made := f.made + 1 })).set48
      FLS.DURABLE_LO l.seq
    (((s1.bump48 FLS.PAGES_LO).count 10 1 0).seqEvent 50 0).appsDurable l.seq

/-- The open page padded with FILLER records (R427, R431). -/
def State.padPage (s : State) : State :=
  let n := (240 - s.jrn.buf.length % 240) % 240
  (List.range n).foldl (fun t _ => t.bufPut ⟨t.tsNow 0, 0, 20, t.mode == 8, 0, zeros 34⟩) s

/-- Every full page programmed. -/
def State.programAll (s : State) : State := (List.range (s.jrn.buf.length / 240)).foldl (fun t _ => t.programPage) s

/-- Before the Flowstone domain enters Retain or Off it programs the open page, padded (R431). -/
def State.flsFlush (s : State) : State :=
  if !s.canProgram || s.jrn.buf.isEmpty then s else s.padPage.programAll

/-! ### Journal rows -/

/-- R427: the record at the head of queue 141 enters the buffer. A full buffer keeps it waiting, but in READ_ONLY the oldest
record is lost (R434). -/
def execJournalRecord (t : Nat) (s0 : State) : Host.Outcome State Fault Refusal :=
  let s := s0.advance t
  .next (match s.jrn.q with
    | [] => s
    | r :: _ =>
      if 2048 ≤ s.jrn.buf.length ∧ !s.readOnly then s
      else
        let s1 := if 2048 ≤ s.jrn.buf.length then ((s.setBuf (s.jrn.buf.drop 1)).bump FLS.JRN_LOST).sticky FLS.STICKY_JRN_LOST else s
        let ord := s1.fls.taken
        let seq := s1.jrnSeq
        let s2 := ({ s1.qTake 141 with jrn := { s1.jrn with q := s1.jrn.q.drop 1 } }).setFls (fun f => { f with taken := ord + 1 })
        let s3 := s2.bufPut r
        match s3.fls.apps.find? (fun a => a.1 == ord && a.2.2.isNone) with
        | none => s3
        | some a =>
          if bitAt (a.2.1.u 2 1) 0 then
            s3.setFls (fun f => { f with apps := f.apps.map (fun x => if x.1 = ord then (ord, a.2.1, some seq) else x) })
          else ((s3.setFls (fun f => { f with apps := f.apps.erase a })).setN FLS.LAST_CMD 1).complete a.2.1 stOK (a.2.1.u 0 1))

def execJournalPageProgram (out : NandOut) (t : Nat) (s0 : State) : Host.Outcome State Fault Refusal :=
  let s := s0.advance t
  .next (if s.jrn.buf.length < 240 ∨ !s.canProgram ∨ 2 ≤ s.domState 41 then s else s.programPage.nand out)

def execJournalFlushTimeout (out : NandOut) (t : Nat) (s0 : State) : Host.Outcome State Fault Refusal :=
  let s := s0.advance t
  .next (match s.jrn.buf with
    | [] => s
    | b :: _ =>
      if b.raw + s.rd FLS.CTRL_FLUSH_S * qSec ≤ s.raw ∧ s.canProgram = true ∧ s.domState 41 < 2 then
        (s.padPage.programAll).nand out
      else s)

/-- R431, R445: in Keep-alive 1 536 buffered records wake the Flowstone domain to program the full pages; before it returns
to Off it programs the open page, padded. -/
def execFlowstoneKaCycle (out : NandOut) (t : Nat) (s0 : State) : Host.Outcome State Fault Refusal :=
  let s := s0.advance t
  .next (if s.mode ≠ 8 ∨ s.jrn.buf.length < 1536 ∨ !s.canProgram then s
    else ((s.bump PWR.WAKES).setN PWR.WAKE_LAST (5 + 2 ^ 16 * (s.sec0 % 65536))).flsFlush.nand out)

/-! ### Scrub passes and wear (R424, R425) -/

def execScrubPassStart (t : Nat) (s0 : State) : Host.Outcome State Fault Refusal :=
  let s := s0.advance t
  .next (if s.on FLS.STAT_SCRUBBING || !s.mediumOk || decide (2 ≤ s.domState 41)
      || decide (s.sec0 < s.fls.scrubSec + s.rd FLS.CTRL_SCRUB_DAYS * 86400) then s
    else (s.wr FLS.STAT_SCRUBBING 1).setFls (fun f => { f with scrubSec := s.sec0 }))

def execScrubPassEnd (corrMax : Nat) (out : NandOut) (t : Nat) (s0 : State) : Host.Outcome State Fault Refusal :=
  let s := s0.advance t
  .next (if !s.on FLS.STAT_SCRUBBING then s
    else
      let s1 := (s.wr FLS.STAT_SCRUBBING 0).nand out
      let st := s1.nreg FLS.SCRUB_STAT
      let s2 := ((s1.setN FLS.SCRUB_STAT ((st + 1) % 2 ^ 16 + 2 ^ 16 * (st / 2 ^ 16))).setN FLS.CORR_MAX (corrMax % 256)).setN
        FLS.SCRUB_LAST s1.sec0
      (s2.setQuiet FLS.STICKY_SCRUB_DONE).journal 11 20 (leBytes 1 2 ++ leBytes 1 corrMax))

def execWearLevelMove (out : NandOut) (t : Nat) (s0 : State) : Host.Outcome State Fault Refusal :=
  let s := s0.advance t
  let w := s.nreg FLS.WEAR
  .next (if !s.mediumOk || decide (2 ≤ s.domState 41) || decide (w / 2 ^ 16 ≤ w % 2 ^ 16 + 64)
      || (s.fls.moveRaw != 0 && decide (s.raw < s.fls.moveRaw + 60 * qSec)) then s
    else ((s.setFls (fun f => { f with moveRaw := max 1 s.raw })).nand out).seqEvent 51 0)

/-! ### Commands (R433) -/

/-- A command of FLS that completes. -/
def State.flsDone (s : State) (c : HostCmd) (status count : Nat) : State :=
  let s1 := s.setN FLS.LAST_CMD (c.opcode + 2 ^ 8 * status)
  ((if status = stREFUSED then s1.refuseCfg .fls else s1)).complete c status count

def imgKind (k : Nat) : Bool := decide (k ≤ 7) || k == 15
def imgCopy (c : Nat) : Bool := c == 1 || c == 2

/-- The bytes one unit of a read takes: records, hours or bytes. -/
def readUnit (what : Nat) : Nat := match what with | 0 => 64 | 1 => 14416 | _ => 1

/-- KIND and COPY of an image read: byte 1 is laid out as `FLS.IMG_SEL`. -/
def readKind (b : Nat) : Nat := b % 16
def readCopy (b : Nat) : Nat := b / 16 % 4

/-- The oldest record on the medium. -/
def State.oldestSeq (s : State) : Nat :=
  match s.fls.pages.flatMap (·.2) ++ s.jrn.buf with | b :: _ => b.seq | [] => s.jrnSeq

/-- Hours the mirror holds. -/
def State.mirrorHours (s : State) : Nat := s.dsc.mirror.length / 3600

/-- The codes a command gives before the medium is touched. -/
def State.flsCode (s : State) (c : HostCmd) (busy : Bool) : Nat :=
  let noCmd := s.modeNoCmd
  match c.opcode with
  | 1 => c.code [codeIf (c.u 0 1 == 0) stZERO_LEN, codeIf (decide (7 < c.u 0 1) || decide (1 < c.u 2 1) || c.u 3 1 != 0) stREFUSED,
      codeIf noCmd stMODE_FORBIDS]
  | 2 =>
    let k := c.u 12 1
    let cp := c.u 13 1
    c.code [codeIf (c.u 8 4 == 0) stZERO_LEN,
      codeIf (!imgKind k || !imgCopy cp || !c.zero 14 32 || decide (2 ^ 20 < c.u 8 4) || cp == s.prefers k || s.readOnly) stREFUSED,
      codeIf busy stBUSY, codeIf (noCmd || s.mode == 10) stMODE_FORBIDS]
  | 3 =>
    let k := c.u 0 1
    let cp := c.u 1 1
    let raise := bitAt (c.u 2 1) 0
    c.code [codeIf (!imgKind k || !imgCopy cp || decide (1 < c.u 2 1) || !c.zero 3 32 || !(s.img k cp).valid || s.readOnly
        || (raise && (k == 15 || decide ((s.img k 3).version < (s.img k cp).version)))) stREFUSED,
      codeIf busy stBUSY, codeIf (noCmd || s.mode == 10) stMODE_FORBIDS]
  | _ =>
    let what := c.u 0 1
    let b := c.u 1 1
    let n := c.u 8 4
    let from_ := c.u 2 6
    let stale := match what with
      | 0 => decide (from_ < s.oldestSeq)
      | 1 => decide (s.mirrorHours ≤ from_) && decide (s.mirrorHours * 3600 < s.dsc.nrec)
      | _ => false
    c.code [codeIf (n == 0 || c.u 20 4 == 0) stZERO_LEN,
      codeIf (decide (3 < what) || !c.zero 24 32 || decide (2 ^ 20 < c.u 20 4) || decide (c.u 20 4 < n * readUnit what)
        || (what == 2 && (!imgKind (readKind b) || readCopy b == 0 || decide (64 ≤ b)))) stREFUSED,
      codeIf busy stBUSY, codeIf stale stSTALE, codeIf noCmd stMODE_FORBIDS]

/-- R433: a HOST record with CODE and the words. -/
def execJournalAppend (c : HostCmd) (t : Nat) (s0 : State) : Host.Outcome State Fault Refusal :=
  let s := s0.advance t
  let code := s.flsCode c false
  .next (if code ≠ 0 then s.flsDone c code 0
    else if !s.qRoom 141 1 then (s.journal 10 20 (c.payload.drop 1 |>.take 34)).flsDone c stABORTED 0
    else
      let n := c.u 0 1
      let ord := s.fls.taken + s.jrn.q.length
      let s1 := s.journal 10 20 (leBytes 1 (c.u 1 1) ++ leBytes 1 n ++ zeros 2 ++ (c.payload.drop 4).take (4 * n))
      (s1.takeCmd c).setFls (fun f => { f with apps := f.apps ++ [(ord, c, none)] }))

/-- The status the checks of R64 give a written or loaded copy. -/
def State.copyCode (s : State) (kind : Nat) (k : CopyCheck) : Nat :=
  if !k.readable then stPOISONED
  else if kind = 15 then stOK
  else if !k.kindOk then stREFUSED
  else if k.version < s.minVersion kind then stSTALE
  else if !k.sigOk then stSIGNATURE_BAD else stOK

/-- R433: a copy erased, written, and read back through the checks of R64. -/
def execImageWrite (c : HostCmd) (busy : Bool) (readErr : Option Nat) (chk : CopyCheck) (out : NandOut) (t : Nat) (s0 : State) :
    Host.Outcome State Fault Refusal :=
  let s := s0.advance t
  let code := s.flsCode c busy
  let k := c.u 12 1
  let cp := c.u 13 1
  .next (if code ≠ 0 then s.flsDone c code 0
    else
      let s1 := (s.nand out).setImg k cp noImg
      match readErr with
      | some e =>
        let s2 := if e = 3 then (s1.dmaAbort c.ring 3 3).poisonSeen else s1.dmaAbort c.ring 3 e
        (s2.sticky FLS.STICKY_IMAGE_FAIL).flsDone c (readCode (some e)) 0
      | none =>
        let st := s1.copyCode k chk
        let s2 := s1.seqEvent 51 0
        if st ≠ stOK then (s2.sticky FLS.STICKY_IMAGE_FAIL).flsDone c st 0
        else
          let s3 := s2.setImg k cp ⟨true, if k = 15 then 0 else chk.version % 2 ^ 16, s.bytesAt (c.u 0 8) (c.u 8 4)⟩
          (s3.journal 8 20 (leBytes 1 2 ++ leBytes 1 k ++ leBytes 1 cp)).flsDone c stOK (c.u 8 4))

/-- R432, R433: a copy made preferred in a new boot record. -/
def execImageCommit (c : HostCmd) (busy : Bool) (out : NandOut) (t : Nat) (s0 : State) : Host.Outcome State Fault Refusal :=
  let s := s0.advance t
  let code := s.flsCode c busy
  let k := c.u 0 1
  let cp := c.u 1 1
  .next (if code ≠ 0 then s.flsDone c code 0
    else
      let s0 := (s.nand out).setFls (fun f => { f with oldRec := s.nreg FLS.BOOTREC })
      let s1 := s0.bumpF FLS.BOOTREC_GEN
      let s2 := s1.wrB ⟨FLS.BOOTREC, if k = 15 then 8 else k, 1⟩ (cp == 2)
      let s3 := if bitAt (c.u 2 1) 0 then
          s2.setFls (fun f => { f with minVer := Store.put zNat f.minVer k (max (s.minVersion k) (s.img k cp).version) }) else s2
      (s3.journal 8 20 (leBytes 1 3 ++ leBytes 1 k ++ leBytes 1 cp ++ leBytes 1 (c.u 2 1))).flsDone c stOK 0)

/-- One hour of the mirror: its header and 3 600 records (R145). -/
def hourBytes (l : List HRec) : List Byte :=
  match l with
  | [] => []
  | h :: _ =>
    let mean := (l.map (·.theta)).sum / (l.length : Int)
    leBytes 8 (ofSigned 64 h.base) ++ leBytes 4 (ofSigned 32 mean) ++ leBytes 4 h.sec ++ l.flatMap (fun r => leBytes 4 r.word)

/-- The units a read delivers, oldest first, up to COUNT; none stands for a unit that reads poisoned. -/
def State.readUnits (s : State) (what b from_ n : Nat) : List (Option (List Byte)) :=
  match what with
  | 0 => (((s.fls.pages.flatMap (·.2) ++ s.jrn.buf).filter (fun x => decide (from_ ≤ x.seq))).take n).map (fun x =>
      if s.fls.unread.contains x.seq then none else some x.bytes)
  | 1 => (List.range (min n (s.mirrorHours - from_))).map (fun i =>
      some (hourBytes ((s.dsc.mirror.drop (3600 * (from_ + i))).take 3600).reverse))
  | 2 =>
    let m := s.img (readKind b) (readCopy b)
    ((m.bytes.drop from_).take n).map (fun x => if m.valid then some [x] else none)
  | _ => (List.range n).map (fun i => some [BitVec.ofNat 8 (Config.calImage (2 ^ 32 + from_ + i))])

/-- R433: journal, history, an image copy or calibration copied to host memory. `dma` gives the cause of a DMA abort and how
many units were delivered before it. -/
def execFlsRead (c : HostCmd) (busy : Bool) (dma : Option (Nat × Nat)) (out : NandOut) (t : Nat) (s0 : State) :
    Host.Outcome State Fault Refusal :=
  let s := s0.advance t
  let code := s.flsCode c busy
  .next (if code ≠ 0 then s.flsDone c code 0
    else
      let s1 := s.nand out
      let us := s1.readUnits (c.u 0 1) (c.u 1 1) (c.u 2 6) (c.u 8 4)
      let good := us.takeWhile (fun u => u.isSome)
      match dma with
      | some d =>
        let got := good.take d.2
        ((s1.setBytes (c.u 12 8) (got.flatMap (fun u => u.getD []))).dmaAbort c.ring 3 d.1).flsDone c stABORTED got.length
      | none =>
        let s2 := (s1.setBytes (c.u 12 8) (good.flatMap (fun u => u.getD []))).seqEvent 51 0
        s2.flsDone c (if good.length < us.length then stPOISONED else stOK) good.length)

/-- R433, R434: the medium gave no answer within 100 ms. -/
def execNandTimeout (c : HostCmd) (t : Nat) (s0 : State) : Host.Outcome State Fault Refusal :=
  let s := s0.advance t
  let waits := s.fls.apps.any (fun a => a.2.1 == c)
  let code := if waits then 0 else s.flsCode c false
  .next (if c.block ≠ 20 then s
    else
      let s1 := (s.setFls (fun f => { f with apps := f.apps.filter (fun a => a.2.1 != c) })).sticky FLS.STICKY_NAND_FAIL
      s1.flsDone c (if code ≠ 0 then code else stTIMEOUT) 0)

/-! ### Commit group FLS (R435) and registers read through selectors -/

def State.flsValid (s : State) : Bool :=
  let sd := s.shd FLS.CTRL_SCRUB_DAYS
  let rd := s.shd FLS.CTRL_REFRESH_DAYS
  s.shd FLS.CTRL_FLUSH_S != 0 && sd != 0 && decide (sd ≤ 30) && decide (2 * sd ≤ rd) && decide (rd ≤ 360)
    && (s.shd FLS.JRN_CFG_STREAM_EN == 0 || s.ringIs 0 3 (s.shd FLS.JRN_CFG_RING))

def State.flsApply (s : State) : State := s.applyShadows .fls

/-- Blocks of a partition (R422), and its first block. -/
def State.partBlocks (s : State) (p : Nat) : Nat :=
  match p with | 0 => 2 | 1 => 4 | 2 => 16 | 3 => 64 | 4 => 4 | 5 => 192 | 6 => s.fls.blocks | _ => 41
def partFirst (p : Nat) : Nat :=
  match p with | 0 => 0 | 1 => 2 | 2 => 6 | 3 => 22 | 4 => 86 | 5 => 90 | 6 => 282 | _ => 3354
def State.partInfo (s : State) : Nat := let p := s.rd FLS.PART_SEL_PART; partFirst p + 2 ^ 16 * s.partBlocks p
def State.partFree (s : State) : Nat :=
  match s.rd FLS.PART_SEL_PART with | 6 => s.jrnFree | 7 => s.nreg FLS.SPARE % 2 ^ 16 | _ => 0
/-- `FLS.IMG_INFO` of the copy selected. -/
def State.imgInfo (s : State) : Nat :=
  let x := s.img (s.nreg FLS.IMG_SEL % 16) (s.nreg FLS.IMG_SEL / 16 % 4)
  x.version + 2 ^ 16 * b2n x.valid

end Sys2Proof.Machine
end

