-- ==== Sys2Proof/Machine/Seq.lean ====
section
/-! DEFINITION. SEQ: the Umber instruction set (R373 to R376), block ports (R377), safe points, waits and states (R379, R380),
faults, watchdog and restart (R381 to R383), program images and loading (R384, R385), swaps (R386 to R388) and halting (R389).
A row `SEQ_X` is the fetch and execution of the word at PC; FLD and FST stand in SeqFab.lean. -/

namespace Sys2Proof.Machine

/-! ### Places (R372) -/

/-- The first sequencer and the number of sequencers of a place. -/
def placeBase (p : Nat) : Nat := match p with | 0 => 0 | 1 => 32 | 2 => 40 | 3 => 44 | 4 => 48 | _ => 50
def placeSize (p : Nat) : Nat := match p with | 0 => 32 | 1 => 8 | 2 => 4 | 3 => 4 | _ => 2
def placeOf (n : Nat) : Nat :=
  if n < 32 then 0 else if n < 40 then 1 else if n < 44 then 2 else if n < 48 then 3 else if n < 50 then 4 else 5
/-- The image kind of a place, and the power domain of a sequencer. -/
def placeKind (p : Nat) : Nat := match p with | 0 => 4 | 1 => 3 | 2 => 2 | 3 => 5 | 4 => 6 | _ => 1
def seqDomain (n : Nat) : Nat :=
  if n < 32 then 32 + n / 8 else match placeOf n with | 1 => 36 | 2 => 43 | 3 => 40 | 4 => 38 | _ => 41
/-- A sequencer the variant has. -/
def State.seqPresent (s : State) (n : Nat) : Bool := decide (n < 52) && (decide (32 ≤ n) || s.quadPresent (n / 8))

/-! ### State of one sequencer -/

def Sq.active (x : Sq) : SqBank := if x.bankB then x.b else x.a
def Sq.idle (x : Sq) : SqBank := if x.bankB then x.a else x.b
def Sq.setIdle (x : Sq) (k : SqBank) : Sq := if x.bankB then { x with a := k } else { x with b := k }

def zWord : Nat → Word := fun _ => 0
def Sq.reg (x : Sq) (i : Nat) : Word := Store.get zWord x.w i
def Sq.setReg (x : Sq) (i : Nat) (v : Word) : Sq := { x with w := Store.put zWord x.w i v }

/-- The state changes; time in RUN is kept. -/
def State.sqTo (s : State) (n : Nat) (st : SqSt) : State :=
  let x := s.sq n
  s.setSq n { x with st := st, runQ := if x.st = .run then x.runQ + (s.raw - x.runFrom) else x.runQ, runFrom := s.raw }

/-- `SEQ.CYCLES`: core cycles in RUN, at 1.25 GHz. -/
def State.sqCycles (s : State) (n : Nat) : Nat :=
  let x := s.sq n
  ((if x.st = .run then x.runQ + (s.raw - x.runFrom) else x.runQ) * 5 / (4 * qNs)) % 2 ^ 48

/-- A local-data image as a table of words. -/
def ldOf (l : List Word) : Store Word :=
  ((List.range l.length).zip l).foldl (fun m e => Store.put zWord m e.1 e.2) []

/-- The swap a sequencer is a member of. -/
def State.swapOf (s : State) (n : Nat) : Option SqSwap := s.seq.swaps.find? (fun w => w.members.contains n)
def State.setSwaps (s : State) (l : List SqSwap) : State := s.setSeqS (fun x => { x with swaps := l })
/-- Armed: its swap has neither been taken nor given up, and it has not swapped yet (R386). -/
def State.sqArmed (s : State) (n : Nat) : Bool :=
  match s.swapOf n with | some w => w.sync || w.waiting.contains n | none => false

/-- The page of a bank of target 19, and whether the sequencer's master holds X on it (R386). -/
def bankPage (n : Nat) (b : Bool) : Nat := 0x1000 + 16 * n + 8 * b2n b
def State.mayRun (s : State) (n : Nat) (b : Bool) : Bool := s.granted (64 + n) 19 (bankPage n b) .exec

/-- Words of SWAP_CTRL and RUN_CTRL: OP, BUSY, SYNC, INIT, STATUS. -/
def ctrlWord (op : Nat) (busy sync init : Bool) (status : Nat) : Nat :=
  op % 4 + 8 * b2n busy + 16 * b2n sync + 32 * b2n init + 2 ^ 8 * status
def ctrlDone (w status : Nat) : Nat := withBits (withBits w 3 1 0) 8 8 status

/-! ### Ending a swap (R385 to R388) -/

/-- A PROG_LOAD completes. -/
def State.loadDone (s : State) (c : HostCmd) (status count : Nat) : State :=
  let s1 := s.setN SEQ.LOAD_LAST (c.u 16 1 % 8 + 2 ^ 8 * status + 2 ^ 16 * (count % 64))
  let s2 := if status = stOK then s1.bump SEQ.LOAD_COUNT
    else if status = stZERO_LEN then s1 else s1.sticky SEQ.STICKY_LOAD_FAIL
  (if status = stREFUSED then s2.refuseCfg .seq else s2).complete c status count

/-- A swap ends: its command completes, and the members that are parked go on after their SAFE. -/
def State.swapEnd (s : State) (w : SqSwap) (status count : Nat) : State :=
  let s1 := s.setSwaps (s.seq.swaps.erase w)
  let s2 := w.members.foldl (fun t n =>
    if (t.sq n).st = .parked then
      let u := t.sqTo n .run
      u.setSq n { u.sq n with safeRaw := u.raw }
    else t) s1
  match w.cmd with
  | some c => s2.loadDone c status count
  | none => w.members.foldl (fun t n => t.setSq n { t.sq n with swapCtrl := ctrlDone (t.sq n).swapCtrl status }) s2

/-- COUNT of a swap that did not complete: under SYNC none has swapped. -/
def SqSwap.count (w : SqSwap) : Nat := if w.sync then 0 else w.swapped

/-- The armed swap of a sequencer disarmed: its command completes ABORTED (R387, R388). -/
def State.disarmSwap (s : State) (n : Nat) : State :=
  match s.swapOf n with
  | none => s
  | some w => s.swapEnd w stABORTED w.count

/-! ### Faults and halts (R141, R204, R258, R327, R381, R389, R416) -/

/-- What the block of a faulted or halted sequencer does with the work it held. -/
def State.stopWork (s : State) (n : Nat) (halt : Bool) : State :=
  match placeOf n with
  | 0 => (s.seqFaultJobs n).itemEnd n false
  | 1 => s.sticky GNC.STICKY_SEQ_FAULT
  | 3 => if halt then s else s.pkAbortIf (fun w j => w == n - 44 && j.running) 0x1F
  | 4 =>
    let s1 := (s.wr ⟨VID.SEQ_STAT, 16 + (n - 48), 1⟩ 1).sticky VID.STICKY_SEQ_FAULT
    if n = 49 then s1.glUnlock else s1
  | _ => s

/-- A fault: the sequencer stops at the instruction with its cause (R381); an armed swap is disarmed (R388). -/
def State.sqFault (s : State) (n cause code : Nat) : State :=
  let s1 := s.sqTo n .faulted
  let x := s1.sq n
  let s2 := s1.setSq n { x with fault := cause + 16 * b2n x.bankB + 2 ^ 8 * x.pc + 2 ^ 20 * code, stopRaw := s.raw, fldTo := none,
                                waitOn := none, haltPend := false,
                                runCtrl := if x.haltPend then ctrlDone x.runCtrl stABORTED else x.runCtrl }
  let s3 := (((s2.bump SEQ.FAULTS).setQuiet SEQ.STICKY_FAULT).journal 9 19 (leBytes 1 1 ++ leBytes 1 n ++ leBytes 4 (s2.sq n).fault))
  let s4 := if cause = 4 then s3.sticky SEQ.STICKY_DENIED else if cause = 6 then s3.sticky SEQ.STICKY_WATCHDOG else s3
  (s4.disarmSwap n).stopWork n false

/-! ### Starting (R380, R382, R386, R390) -/

/-- The block's fault flags clear as the sequencer runs again. -/
def State.runsAgain (s : State) (n : Nat) : State :=
  if placeOf n = 4 then s.wr ⟨VID.SEQ_STAT, 16 + (n - 48), 1⟩ 0 else s

/-- A sequencer starts at ENTRY of its active bank; with `fresh`, local data from the initial image and w and C zero. -/
def State.sqStart (s : State) (n : Nat) (fresh : Bool) : State :=
  let x := s.sq n
  let k := x.active
  let y := { x with pc := k.entry, waitOn := none, fldTo := none, safeRaw := s.raw }
  let z := if fresh then { y with ld := ldOf k.init, w := [], c := false, events := 0 } else y
  let s1 := s.setSq n z
  if !s.mayRun n x.bankB then (s1.deny (64 + n) 19 .exec).sqFault n 4 0
  else (s1.sqTo n .run).runsAgain n

/-- The swap itself (R386): the idle bank becomes active and runs from ENTRY. -/
def State.sqSwapIn (s : State) (n : Nat) (init : Bool) : State :=
  let x := s.sq n
  let k := x.idle
  let y := { x with bankB := !x.bankB, pc := k.entry, idleOk := true, waitOn := none, safeRaw := s.raw }
  let z := if init then { y with ld := ldOf k.init, w := [], c := false } else y
  let s1 := ((s.setSq n z).sqTo n .run).runsAgain n
  ((s1.bump SEQ.SWAPS).setQuiet SEQ.STICKY_SWAPPED).journal 8 19
    (leBytes 1 0 ++ leBytes 1 n ++ leBytes 2 x.active.progId ++ leBytes 2 x.active.version ++ leBytes 2 k.progId ++ leBytes 2 k.version)

/-- Execution goes on at `pc`; outside the bank's instructions it faults PC_RANGE at the instruction that led there. -/
def State.sqGoto (s : State) (n : Nat) (pc : Int) : State :=
  let x := s.sq n
  if 0 ≤ pc ∧ pc < (x.active.words.length : Int) then s.setSq n { x with pc := pc.toNat } else s.sqFault n 2 0
def State.sqNext (s : State) (n : Nat) : State := s.sqGoto n ((s.sq n).pc + 1)

/-- A swap is due for sequencer `n`, which has come to its SAFE: it swaps alone, or parks, and the last member parked swaps
all (R386). -/
def State.swapAtSafe (s : State) (n : Nat) (w : SqSwap) : State :=
  let others := s.seq.swaps.erase w
  let s0 := s.sqTo n .parked
  if w.sync then
    let w1 := { w with waiting := w.waiting.erase n }
    if !w1.waiting.isEmpty then s0.setSwaps (others ++ [w1])
    else
      match w.members.find? (fun m => !s.mayRun m (!(s.sq m).bankB)) with
      | some m => ((s0.setSwaps (others ++ [w1])).deny (64 + m) 19 .exec).swapEnd w1 stDENIED 0
      | none =>
        let s1 := w.members.foldl (fun t m => t.sqSwapIn m w.init) (s0.setSwaps (others ++ [w1]))
        s1.swapEnd w1 stOK w.members.length
  else if !s.mayRun n (!(s.sq n).bankB) then ((s0.deny (64 + n) 19 .exec).swapEnd w stDENIED w.swapped).sqNext n
  else
    let w1 := { w with waiting := w.waiting.erase n, swapped := w.swapped + 1 }
    let s1 := (s.setSwaps (others ++ [w1])).sqSwapIn n w.init
    if w1.waiting.isEmpty then s1.swapEnd w1 stOK w1.swapped else s1

/-! ### Instructions (R374, R375) -/

/-- An Umber instruction. -/
inductive SqI
  | nop
  | alu (op d a b : Nat)
  | imm (op d a i : Nat)
  | ld (d a i : Nat)
  | st (d a i : Nat)
  | fld (d a i : Nat)
  | fst (d a i : Nat)
  | br (op a b off : Nat)
  | jal (off : Nat)
  | jr (a : Nat)
  | safe
  | wait (d m : Nat)
  | time (d i : Nat)
  | fault (code : Nat)
  deriving DecidableEq, Repr

/-- The instruction a word spells; none for one that faults ILLEGAL. -/
def sqDecode (w : Nat) : Option SqI :=
  let op := bitsOf w 26 6
  let d := bitsOf w 22 4
  let a := bitsOf w 18 4
  let b := bitsOf w 14 4
  let z := bitsOf w 0 14
  let i := bitsOf w 0 18
  if op = 0 then (if w % 2 ^ 26 = 0 then some .nop else none)
  else if op ≤ 0x0D then (if z = 0 then some (.alu op d a b) else none)
  else if op = 0x0E then (if z = 0 ∧ b = 0 then some (.alu op d a 0) else none)
  else if 0x10 ≤ op ∧ op ≤ 0x13 then some (.imm op d a i)
  else if 0x14 ≤ op ∧ op ≤ 0x16 then (if i < 32 then some (.imm op d a i) else none)
  else if op = 0x17 then (if a = 0 then some (.imm op d 0 i) else none)
  else if op = 0x18 then some (.ld d a i)
  else if op = 0x19 then some (.st d a i)
  else if op = 0x1A then some (.fld d a i)
  else if op = 0x1B then some (.fst d a i)
  else if 0x20 ≤ op ∧ op ≤ 0x25 then some (.br op d a i)
  else if op = 0x26 then some (.jal (w % 2 ^ 26))
  else if op = 0x27 then (if d = 0 ∧ b = 0 ∧ z = 0 then some (.jr a) else none)
  else if op = 0x30 then (if w % 2 ^ 26 = 0 then some .safe else none)
  else if op = 0x31 then (if a = 0 ∧ i < 2 ^ 16 then some (.wait d i) else none)
  else if op = 0x32 then (if d % 2 = 0 then some (.time d i) else none)
  else if op = 0x33 then some (.fault (i % 256))
  else none

/-- Leading zeros of a word. -/
def clz32 (x : Word) : Nat := if x = 0 then 32 else 31 - Nat.log2 x.toNat

/-- The result and the carry of an R-format operation. -/
def sqAlu (op : Nat) (x y : Word) (c : Bool) : Word × Bool :=
  match op with
  | 0x01 => (x + y, decide (2 ^ 32 ≤ x.toNat + y.toNat))
  | 0x02 => (x - y, decide (x.toNat < y.toNat))
  | 0x03 => (x + y + BitVec.ofNat 32 (b2n c), decide (2 ^ 32 ≤ x.toNat + y.toNat + b2n c))
  | 0x04 => (x - y - BitVec.ofNat 32 (b2n c), decide (x.toNat < y.toNat + b2n c))
  | 0x05 => (x &&& y, c)
  | 0x06 => (x ||| y, c)
  | 0x07 => (x ^^^ y, c)
  | 0x08 => (x <<< (y.toNat % 32), c)
  | 0x09 => (x >>> (y.toNat % 32), c)
  | 0x0A => (x.sshiftRight (y.toNat % 32), c)
  | 0x0B => (x * y, c)
  | 0x0C => (BitVec.ofInt 32 (x.toInt * y.toInt / 2 ^ 32), c)
  | 0x0D => (BitVec.ofNat 32 (x.toNat * y.toNat / 2 ^ 32), c)
  | _ => (BitVec.ofNat 32 (clz32 x), c)

/-- imm18 sign-extended. -/
def sext18 (i : Nat) : Word := BitVec.ofInt 32 (toSigned 18 i)

/-- The result and the carry of an I-format operation: only ADDI's sum wraps, and no immediate form writes C. -/
def sqImm (op : Nat) (x : Word) (i : Nat) : Word :=
  match op with
  | 0x10 => x + sext18 i
  | 0x11 => x &&& BitVec.ofNat 32 i
  | 0x12 => x ||| BitVec.ofNat 32 i
  | 0x13 => x ^^^ BitVec.ofNat 32 i
  | 0x14 => x <<< (i % 32)
  | 0x15 => x >>> (i % 32)
  | 0x16 => x.sshiftRight (i % 32)
  | _ => BitVec.ofNat 32 (i * 2 ^ 14)

/-- Whether a branch is taken. -/
def sqTaken (op : Nat) (x y : Word) : Bool :=
  match op with
  | 0x20 => x == y
  | 0x21 => x != y
  | 0x22 => decide (x.toInt < y.toInt)
  | 0x23 => decide (y.toInt ≤ x.toInt)
  | 0x24 => decide (x.toNat < y.toNat)
  | _ => decide (y.toNat ≤ x.toNat)

/-! ### Issue and the next instruction (R375, R481) -/

/-- An issued instruction counts retired, or is held in its work item. -/
def State.sqIssued (s : State) (n : Nat) : State :=
  match (s.sq n).item with
  | some k => (s.setSq n { s.sq n with item := some (k + 1) }).updTd (64 + n) (fun t => { t with pend := t.pend + 1 })
  | none => (s.updTd (64 + n) (fun t => { t with retired := (t.retired + 1) % 2 ^ 64 })).count 6 1 n

def State.sqPut (s : State) (n d : Nat) (v : Word) : State := s.setSq n ((s.sq n).setReg d v)

/-! ### Block ports (R377) -/

/-- Whether a byte of a port lies in a range. -/
def inR (a lo hi : Nat) : Bool := decide (lo ≤ a) && decide (a ≤ hi)

/-- Words a place defines that may be loaded. -/
def portReads (place a : Nat) : Bool :=
  match place with
  | 0 => inR a 0x4000 0x657F || a == 0x6580 || a == 0x6E04
  | 1 => inR a 0x4000 0x401F || inR a 0x4A00 0x4A07
  | 2 => inR a 0x4000 0x41FF || inR a 0x4300 0x433F || a == 0x4400 || a == 0x4404
  | 3 => inR a 0x4000 0x401F || inR a 0x4100 0x41FF || a == 0x4300
  | 4 => a == 0x4100
  | _ => inR a 0x4000 0x50FF || inR a 0x5100 0x513F

/-- Words a place defines that may be stored. -/
def portWrites (place a : Nat) : Bool :=
  match place with
  | 0 => a == 0x6584 || inR a 0x6600 0x6DFF || a == 0x6E00
  | 1 => a == 0x4020 || inR a 0x4100 0x46FF || a == 0x4800 || inR a 0x4900 0x491F || a == 0x4920
  | 2 => inR a 0x4200 0x4213 || a == 0x4400 || a == 0x4404 || a == 0x4500 || inR a 0x4600 0x463F || a == 0x4640
      || (inR a 0x4000 0x41FF && a % 0x20 == 0x1C)
  | 3 => a == 0x4020 || inR a 0x4100 0x41FF || a == 0x4200
  | 4 => inR a 0x4000 0x4007 || a == 0x4200
  | _ => inR a 0x4000 0x50FF

/-- A word of what stands at the head of a queue; the bytes beyond it, which nothing lays down, are free values. -/
def State.portBytes (s : State) (l : List Byte) (off : Nat) : State × Word :=
  if off + 4 ≤ l.length then (s, BitVec.ofNat 32 (leAt l off 4))
  else let f := s.free; (f.2, BitVec.ofNat 32 (leAt l off 4 + 2 ^ (8 * (l.length - off)) * f.1))

/-- The record at the head of queue 141, as the buffer will hold it (R427, R428). -/
def State.jrnHead (s : State) : List Byte :=
  match s.jrn.q with
  | r :: _ => JBuf.bytes ⟨s.jrnSeq, chainCheck (s.reg64 FLS.CHECK_LO) (r.head s.jrnSeq), r, s.raw⟩
  | [] => []

/-- The value of a port word that is loaded: those the manual lays out come from the state, the others are free values. -/
def State.portValue (s : State) (n a : Nat) : State × Word :=
  let free := let f := s.free; (f.2, BitVec.ofNat 32 f.1)
  match placeOf n with
  | 0 => if inR a 0x4000 0x657F then
      s.portBytes (match s.seqHead (n / 8) with | some j => j.frame | none => []) (a - 0x4000)
    else free
  | 1 =>
    if inR a 0x4000 0x401F then
      s.portBytes (match (Store.get dDumps s.gnc.dumps (n - 32)) with | d :: _ => d | [] => []) (a - 0x4000)
    else (s, s.reg (if a = 0x4A00 then GNC.GSEQ_CFG (n - 32) else GNC.GSEQ_BURST (n - 32)))
  | 3 =>
    if inR a 0x4000 0x401F then
      s.portBytes (match s.pkQ (n - 44) with | j :: _ => j.cmd.payload | [] => []) (a - 0x4000)
    else if a = 0x4300 then let d := s.draw; (d.2, BitVec.ofNat 32 d.1) else free
  | 5 => if inR a 0x5100 0x513F then s.portBytes s.jrnHead (a - 0x5100) else free
  | _ => free

/-- A work item begins: the read of REQ_INFO, or of the head descriptor (R481). -/
def State.itemBegin (s : State) (n a : Nat) : State :=
  if (s.sq n).item.isNone && ((placeOf n == 0 && a == 0x6580) || (placeOf n == 3 && inR a 0x4000 0x401F)) then
    s.setSq n { s.sq n with item := some 0 }
  else s

/-! ### Running one instruction -/

/-- What the instruction at PC of a running sequencer is: none where it is not running, or stalls. -/
def State.sqReady (s : State) (n : Nat) : Bool := (s.sq n).st == .run && (s.sq n).fldTo.isNone && s.seqPresent n

/-- The fetch of R373 and R381, shared by every row: a poisoned word faults POISON, an undefined one ILLEGAL, a word of
another operation than the row's leaves the state as it is; else `f` executes it. -/
def State.sqExec (s : State) (n op : Nat) (poisoned : Bool) (f : State → SqI → State) : State :=
  let x := s.sq n
  if !s.sqReady n then s
  else
    match x.active.words[x.pc]? with
    | none => s.sqFault n 2 0
    | some w =>
      if poisoned then s.poisonSeen.sqFault n 5 0
      else
        match sqDecode w.toNat with
        | none => s.sqFault n 1 0
        | some i => if bitsOf w.toNat 26 6 = op then f s i else s

/-- The operations that only compute: their destination written, execution goes on. -/
def State.sqStep (n : Nat) (s : State) (i : SqI) : State :=
  let x := s.sq n
  match i with
  | .alu op d a b =>
    let r := sqAlu op (x.reg a) (x.reg b) x.c
    let y := x.setReg d r.1
    ((s.setSq n { y with c := r.2 }).sqIssued n).sqNext n
  | .imm op d a k => ((s.sqPut n d (sqImm op (x.reg a) k)).sqIssued n).sqNext n
  | .br op a b off => (s.sqIssued n).sqGoto n ((x.pc : Int) + (if sqTaken op (x.reg a) (x.reg b) then toSigned 18 off else 1))
  | .jal off => ((s.sqPut n 15 (BitVec.ofNat 32 (x.pc + 1))).sqIssued n).sqGoto n ((x.pc : Int) + toSigned 26 off)
  | .jr a => (s.sqIssued n).sqGoto n (((x.reg a).toNat % 4096 : Nat) : Int)
  | .time d k =>
    let v := if bitAt k 6 then s.raw else s.tsNow (k % 64)
    (((s.sqPut n d (BitVec.ofNat 32 v)).sqPut n (d + 1) (BitVec.ofNat 32 (v / 2 ^ 32))).sqIssued n).sqNext n
  | .fault code => s.sqFault n 7 code
  | _ => (s.sqIssued n).sqNext n

/-- LD (R376). -/
def State.sqLoad (n : Nat) (dataPoisoned : Bool) (s : State) (i : SqI) : State :=
  match i with
  | .ld d a k =>
    let x := s.sq n
    let addr := (x.reg a + sext18 k).toNat
    if addr % 4 ≠ 0 then s.sqFault n 3 0
    else if addr < 0x2000 then
      (if dataPoisoned then s.poisonSeen.sqFault n 5 0
       else ((s.sqPut n d (Store.get zWord x.ld (addr / 4))).sqIssued n).sqNext n)
    else if portReads (placeOf n) addr then
      let v := (s.itemBegin n addr).portValue n addr
      ((v.1.sqPut n d v.2).sqIssued n).sqNext n
    else s.sqFault n 3 0
  | _ => s

/-- ST (R376). A store to a port word acts through the row of what it commands. -/
def State.sqStore (n : Nat) (s : State) (i : SqI) : State :=
  match i with
  | .st d a k =>
    let x := s.sq n
    let addr := (x.reg a + sext18 k).toNat
    if addr % 4 ≠ 0 then s.sqFault n 3 0
    else if addr < 0x2000 then ((s.setSq n { x with ld := Store.put zWord x.ld (addr / 4) (x.reg d) }).sqIssued n).sqNext n
    else if portWrites (placeOf n) addr then (s.sqIssued n).sqNext n
    else s.sqFault n 3 0
  | _ => s

/-- SAFE (R379). -/
def State.sqSafe (n : Nat) (s : State) (_ : SqI) : State :=
  let s1 := s.sqIssued n
  let x := s1.sq n
  let s2 := s1.setSq n { x with safeRaw := s.raw, iter := x.iter + 1 }
  if x.haltPend then
    let s3 := s2.sqNext n
    if (s3.sq n).st ≠ .run then s3
    else
      let s4 := s3.sqTo n .halted
      let y := s4.sq n
      (s4.setSq n { y with haltPend := false, stopRaw := s.raw, runCtrl := ctrlDone y.runCtrl stOK }).stopWork n true
  else if s2.sqArmed n then
    match s2.swapOf n with
    | some w =>
      -- a parked sequencer goes on after its SAFE
      let s3 := if w.sync then s2.sqNext n else s2
      if (s3.sq n).st = .run then s3.swapAtSafe n w else s3
    | none => s2.sqNext n
  else s2.sqNext n

/-- WAIT (R379): at once with 0 where a swap is armed or a HALT is pending, at once with the pending events, or it stalls. -/
def State.sqWait (n : Nat) (s : State) (i : SqI) : State :=
  match i with
  | .wait d m =>
    let x := s.sq n
    let ev := x.events &&& m
    let s1 := s.sqIssued n
    if s.sqArmed n || x.haltPend then (s1.sqPut n d 0).sqNext n
    else if ev ≠ 0 then
      ((s1.setSq n { s1.sq n with events := x.events - ev }).sqPut n d (BitVec.ofNat 32 ev)).sqNext n
    else
      let s2 := s1.sqTo n .wait
      s2.setSq n { s2.sq n with waitOn := some (d, m) }
  | _ => s

/-! ### The rows of the instruction set -/

/-- A row of an operation that only computes. -/
def State.sqRow (s : State) (n op : Nat) (poisoned : Bool) (t : Nat) : State :=
  (s.advance t).sqExec n op poisoned (State.sqStep n)

def execSeqNop (n : Nat) (p : Bool) (t : Nat) (s : State) : Host.Outcome State Fault Refusal := .next (s.sqRow n 0x00 p t)
def execSeqAdd (n : Nat) (p : Bool) (t : Nat) (s : State) : Host.Outcome State Fault Refusal := .next (s.sqRow n 0x01 p t)
def execSeqSub (n : Nat) (p : Bool) (t : Nat) (s : State) : Host.Outcome State Fault Refusal := .next (s.sqRow n 0x02 p t)
def execSeqAddc (n : Nat) (p : Bool) (t : Nat) (s : State) : Host.Outcome State Fault Refusal := .next (s.sqRow n 0x03 p t)
def execSeqSubc (n : Nat) (p : Bool) (t : Nat) (s : State) : Host.Outcome State Fault Refusal := .next (s.sqRow n 0x04 p t)
def execSeqAnd (n : Nat) (p : Bool) (t : Nat) (s : State) : Host.Outcome State Fault Refusal := .next (s.sqRow n 0x05 p t)
def execSeqOr (n : Nat) (p : Bool) (t : Nat) (s : State) : Host.Outcome State Fault Refusal := .next (s.sqRow n 0x06 p t)
def execSeqXor (n : Nat) (p : Bool) (t : Nat) (s : State) : Host.Outcome State Fault Refusal := .next (s.sqRow n 0x07 p t)
def execSeqShl (n : Nat) (p : Bool) (t : Nat) (s : State) : Host.Outcome State Fault Refusal := .next (s.sqRow n 0x08 p t)
def execSeqShr (n : Nat) (p : Bool) (t : Nat) (s : State) : Host.Outcome State Fault Refusal := .next (s.sqRow n 0x09 p t)
def execSeqSar (n : Nat) (p : Bool) (t : Nat) (s : State) : Host.Outcome State Fault Refusal := .next (s.sqRow n 0x0A p t)
def execSeqMul (n : Nat) (p : Bool) (t : Nat) (s : State) : Host.Outcome State Fault Refusal := .next (s.sqRow n 0x0B p t)
def execSeqMulh (n : Nat) (p : Bool) (t : Nat) (s : State) : Host.Outcome State Fault Refusal := .next (s.sqRow n 0x0C p t)
def execSeqMulhu (n : Nat) (p : Bool) (t : Nat) (s : State) : Host.Outcome State Fault Refusal := .next (s.sqRow n 0x0D p t)
def execSeqClz (n : Nat) (p : Bool) (t : Nat) (s : State) : Host.Outcome State Fault Refusal := .next (s.sqRow n 0x0E p t)
def execSeqAddi (n : Nat) (p : Bool) (t : Nat) (s : State) : Host.Outcome State Fault Refusal := .next (s.sqRow n 0x10 p t)
def execSeqAndi (n : Nat) (p : Bool) (t : Nat) (s : State) : Host.Outcome State Fault Refusal := .next (s.sqRow n 0x11 p t)
def execSeqOri (n : Nat) (p : Bool) (t : Nat) (s : State) : Host.Outcome State Fault Refusal := .next (s.sqRow n 0x12 p t)
def execSeqXori (n : Nat) (p : Bool) (t : Nat) (s : State) : Host.Outcome State Fault Refusal := .next (s.sqRow n 0x13 p t)
def execSeqShli (n : Nat) (p : Bool) (t : Nat) (s : State) : Host.Outcome State Fault Refusal := .next (s.sqRow n 0x14 p t)
def execSeqShri (n : Nat) (p : Bool) (t : Nat) (s : State) : Host.Outcome State Fault Refusal := .next (s.sqRow n 0x15 p t)
def execSeqSari (n : Nat) (p : Bool) (t : Nat) (s : State) : Host.Outcome State Fault Refusal := .next (s.sqRow n 0x16 p t)
def execSeqLui (n : Nat) (p : Bool) (t : Nat) (s : State) : Host.Outcome State Fault Refusal := .next (s.sqRow n 0x17 p t)
def execSeqLd (n : Nat) (p dp : Bool) (t : Nat) (s : State) : Host.Outcome State Fault Refusal :=
  .next ((s.advance t).sqExec n 0x18 p (State.sqLoad n dp))
def execSeqSt (n : Nat) (p : Bool) (t : Nat) (s : State) : Host.Outcome State Fault Refusal :=
  .next ((s.advance t).sqExec n 0x19 p (State.sqStore n))
def execSeqBeq (n : Nat) (p : Bool) (t : Nat) (s : State) : Host.Outcome State Fault Refusal := .next (s.sqRow n 0x20 p t)
def execSeqBne (n : Nat) (p : Bool) (t : Nat) (s : State) : Host.Outcome State Fault Refusal := .next (s.sqRow n 0x21 p t)
def execSeqBlt (n : Nat) (p : Bool) (t : Nat) (s : State) : Host.Outcome State Fault Refusal := .next (s.sqRow n 0x22 p t)
def execSeqBge (n : Nat) (p : Bool) (t : Nat) (s : State) : Host.Outcome State Fault Refusal := .next (s.sqRow n 0x23 p t)
def execSeqBltu (n : Nat) (p : Bool) (t : Nat) (s : State) : Host.Outcome State Fault Refusal := .next (s.sqRow n 0x24 p t)
def execSeqBgeu (n : Nat) (p : Bool) (t : Nat) (s : State) : Host.Outcome State Fault Refusal := .next (s.sqRow n 0x25 p t)
def execSeqJal (n : Nat) (p : Bool) (t : Nat) (s : State) : Host.Outcome State Fault Refusal := .next (s.sqRow n 0x26 p t)
def execSeqJr (n : Nat) (p : Bool) (t : Nat) (s : State) : Host.Outcome State Fault Refusal := .next (s.sqRow n 0x27 p t)
def execSeqSafe (n : Nat) (p : Bool) (t : Nat) (s : State) : Host.Outcome State Fault Refusal :=
  .next ((s.advance t).sqExec n 0x30 p (State.sqSafe n))
def execSeqWait (n : Nat) (p : Bool) (t : Nat) (s : State) : Host.Outcome State Fault Refusal :=
  .next ((s.advance t).sqExec n 0x31 p (State.sqWait n))
def execSeqTime (n : Nat) (p : Bool) (t : Nat) (s : State) : Host.Outcome State Fault Refusal := .next (s.sqRow n 0x32 p t)
def execSeqFaultInstr (n : Nat) (p : Bool) (t : Nat) (s : State) : Host.Outcome State Fault Refusal := .next (s.sqRow n 0x33 p t)

/-- R380: an event, an armed swap or a HALT ends a WAIT. -/
def execWaitWake (n t : Nat) (s0 : State) : Host.Outcome State Fault Refusal :=
  let s := s0.advance t
  let x := s.sq n
  .next (match (if x.st = .wait then x.waitOn else none) with
    | none => s
    | some w =>
      let ev := x.events &&& w.2
      if ev = 0 && !s.sqArmed n && !x.haltPend then s
      else
        let s1 := s.sqTo n .run
        ((s1.setSq n { s1.sq n with waitOn := none, events := x.events - ev }).sqPut n w.1 (BitVec.ofNat 32 ev)).sqNext n)

/-! ### Restarts and the watchdog (R382, R383) -/

def State.wdogPeriod (s : State) (n : Nat) : Nat := s.rd ⟨Tbl.seqWdog.key n, 0, 16⟩
def State.wdogRestart (s : State) (n : Nat) : Nat := s.rd ⟨Tbl.seqWdog.key n, 16, 2⟩

/-- A restart: RESTART code 1, 2 or 3. -/
def State.sqRestart (s : State) (n code : Nat) : State :=
  let s1 := (s.bump SEQ.RESTARTS).sticky SEQ.STICKY_RESTARTED
  if code = 3 && (s1.sq n).idleOk then
    (if s1.mayRun n (!(s1.sq n).bankB) then s1.sqSwapIn n true else s1.sqStart n true)
  else s1.sqStart n (code != 1)

def execSeqAutoRestart (n t : Nat) (s0 : State) : Host.Outcome State Fault Refusal :=
  let s := s0.advance t
  let x := s.sq n
  let code := s.wdogRestart n
  let recent := x.restartsRaw.filter (fun r => decide (s.raw < r + 3600 * qSec))
  .next (if x.st ≠ .faulted ∨ !s.seqPresent n ∨ code = 0 ∨ s.raw < x.stopRaw + 1000 * qNs then s
    else if s.rd SEQ.CTRL_RESTART_MAX ≤ recent.length then s.sticky SEQ.STICKY_GAVE_UP
    else (s.setSq n { x with restartsRaw := recent ++ [s.raw] }).sqRestart n code)

def execSeqWatchdog (n t : Nat) (s0 : State) : Host.Outcome State Fault Refusal :=
  let s := s0.advance t
  let x := s.sq n
  .next (if (x.st = .run ∨ x.st = .wait) ∧ s.seqPresent n = true ∧ x.safeRaw + s.wdogPeriod n * 10000 * qNs ≤ s.raw then s.sqFault n 6 0
    else s)

/-! ### Program images and PROG_LOAD (R384, R385) -/

/-- A program image read from bytes: the bank it makes, its kind, place, version, length, and whether its signature
verifies. -/
structure ProgImg where
  bank : SqBank
  kind : Nat
  place : Nat
  len : Nat
  sigOk : Bool
  deriving DecidableEq, Repr

/-- The signature of an image: ECDSA P-384 over the SHA-384 of what precedes it, by the key whose hash is in fuses. -/
def imageSigned (b : List Byte) (len : Nat) : Bool :=
  let body := b.take (len - 96)
  let key := (b.drop (len - 192)).take 96
  let sg := (b.drop (len - 96)).take 96
  let c := stdCurve 1
  blockNat (sha384 key) == Config.signerHash && c.on (blockNat (key.take 48)) (blockNat (key.drop 48))
    && (let r := blockNat (sg.take 48); let t := blockNat (sg.drop 48)
        decide (0 < r) && decide (r < c.n) && decide (0 < t) && decide (t < c.n)
          && c.verify (blockNat (key.take 48)) (blockNat (key.drop 48)) r t (sha384 body))

def wordsOf : Nat → List Byte → List Word
  | 0, _ => []
  | n + 1, l => BitVec.ofNat 32 (leAt l 0 4) :: wordsOf n (l.drop 4)

/-- The image at the head of some bytes; none where its header breaks R384 or it is cut short. -/
def parseImage (b : List Byte) : Option ProgImg :=
  let n := leAt b 6 2
  let li := leAt b 12 2
  let len := 64 + 4 * n + 4 * li + 192
  if b.length < len ∨ 128 ≤ leAt b 0 1 ∨ leAt b 1 1 ≠ 0 ∨ n = 0 ∨ 4096 < n ∨ n ≤ leAt b 8 2 ∨ 2048 < li ∨ !zeroBytes b 14 64 then none
  else some ⟨⟨wordsOf n (b.drop 64), wordsOf li (b.drop (64 + 4 * n)), leAt b 8 2, leAt b 2 2, leAt b 4 2, leAt b 10 2⟩,
    leAt b 0 1 % 16, leAt b 0 1 / 16, len, imageSigned b len⟩

/-- The images of a whole copy, one for each sequencer of its place, in order. -/
def parseImages : Nat → List Byte → List (Option ProgImg)
  | 0, _ => []
  | k + 1, b =>
    match parseImage b with
    | some i => some i :: parseImages k (b.drop i.len)
    | none => none :: []

/-- The bits of a MASK, in order. -/
def maskBits (m : Nat) : List Nat := (List.range 32).filter (bitAt m)

/-- The image PROG_LOAD gives each named sequencer: `none` where it breaks R384. -/
def State.loadImages (s : State) (c : HostCmd) : List (Nat × Option ProgImg) :=
  let p := c.u 16 1 % 8
  let src := c.u 16 1 / 16 % 4
  let ns := maskBits (c.u 12 4)
  if src = 0 then
    let b := s.bytesAt (c.u 0 8) (c.u 8 4)
    let i := match parseImage b with | some x => if x.len = b.length then some x else none | none => none
    ns.map (fun k => (placeBase p + k, i))
  else
    let l := parseImages (placeSize p) (s.img (placeKind p) src).bytes
    ns.map (fun k => (placeBase p + k, (l[k]?).join))

/-- The status of PROG_LOAD (R385). -/
def State.progCode (s : State) (c : HostCmd) (readErr : Option Nat) : Nat :=
  let p := c.u 16 1 % 8
  let src := c.u 16 1 / 16 % 4
  let mask := c.u 12 4
  let arm := bitAt (c.u 17 1) 0
  let init := bitAt (c.u 17 1) 2
  let ns := (maskBits mask).map (fun k => placeBase p + k)
  let zero := mask == 0 || (src == 0 && c.u 8 4 == 0)
  let bad := decide (6 ≤ p) || bitAt (c.u 16 1) 3 || decide (64 ≤ c.u 16 1) || decide (8 ≤ c.u 17 1) || !c.zero 18 32
    || decide (2 ^ placeSize p ≤ mask) || ns.any (fun n => !s.seqPresent n) || (src != 0 && c.u 8 4 != 0)
  let busy := ns.any (fun n => s.sqArmed n) || s.seq.swaps.any (fun w => w.cmd.isSome)
  let mode := codeIf (s.modeNoCmd || (s.mode == 10 && p == 3)) stMODE_FORBIDS
  let early := c.code [codeIf zero stZERO_LEN, codeIf bad stREFUSED, codeIf busy stBUSY, mode]
  if zero || bad then early
  else
    let im := s.loadImages c
    let read := if readErr.isSome then readCode readErr else codeIf (src != 0 && !(s.img (placeKind p) src).valid) stPOISONED
    if read ≠ 0 then lowestCode [early, read]
    else
      let hdr := im.any (fun x => match x.2 with
        | none => true
        | some i => i.kind != placeKind p || i.place != p || (arm && !init && i.bank.layout != (s.sq x.1).active.layout))
      let vs := im.any (fun x => match x.2 with | some i => decide (i.bank.version < s.minVersion (placeKind p)) | none => false)
      let sg := im.any (fun x => match x.2 with | some i => !i.sigOk | none => false)
      lowestCode [early, codeIf hdr stREFUSED, codeIf vs stSTALE, codeIf sg stSIGNATURE_BAD]

/-- The idle banks written. -/
def State.writeBanks (s : State) (im : List (Nat × Option ProgImg)) : State :=
  im.foldl (fun t x => match x.2 with
    | some i =>
      let y := (t.sq x.1).setIdle i.bank
      t.setSq x.1 { y with idleOk := true }
    | none => t) s

def execProgLoad (c : HostCmd) (readErr : Option Nat) (t : Nat) (s0 : State) : Host.Outcome State Fault Refusal :=
  let s := s0.advance t
  let code := s.progCode c readErr
  let ns := (s.loadImages c).map (·.1)
  .next (if code ≠ 0 then
      let s1 := match readErr with
        | some e => if e = 3 then (s.dmaAbort c.ring 3 3).poisonSeen else s.dmaAbort c.ring 3 e
        | none => s
      (if code = stABORTED ∨ code = stPOISONED then s1 else s).loadDone c code 0
    else
      let s1 := s.writeBanks (s.loadImages c)
      if bitAt (c.u 17 1) 0 then
        (s1.takeCmd c).setSwaps (s1.seq.swaps ++ [⟨ns, ns, bitAt (c.u 17 1) 1, bitAt (c.u 17 1) 2, s.raw, some c, 0⟩])
      else s1.loadDone c stOK ns.length)

/-! ### SWAP_CTRL and RUN_CTRL (R386, R387, R389) -/

def execSwapTimeout (n t : Nat) (s0 : State) : Host.Outcome State Fault Refusal :=
  let s := s0.advance t
  .next (match s.swapOf n with
    | none => s
    | some w =>
      if w.raw + s.rd SEQ.CTRL_SWAP_TO * 1000000 * qNs ≤ s.raw then
        (s.swapEnd w stTIMEOUT w.count).sticky SEQ.STICKY_SWAP_TIMEOUT
      else s)

/-- An operation of SWAP_CTRL or RUN_CTRL on the selected sequencer by master `m`; a selection of 52 to 63 ignores it. -/
def State.sqCtrl (s : State) (m a : Nat) (f : State → Nat → State) : State :=
  s.busWrite m 19 a (fun x => let n := x.selSeq m; if 52 ≤ n then x else f x n)

def State.swapStatus (s : State) (n op : Nat) (sync init : Bool) (status : Nat) : State :=
  let s1 := s.setSq n { s.sq n with swapCtrl := ctrlWord op false sync init status }
  if status = stREFUSED then s1.refuseCfg .seq else s1

/-- ARM (R387). -/
def State.swapArm (s : State) (n : Nat) (sync init : Bool) : State :=
  let x := s.sq n
  let code := lowestCode [codeIf (!s.seqPresent n || !x.idleOk || (!init && x.idle.layout != x.active.layout)) stREFUSED,
    codeIf (s.sqArmed n || s.seq.swaps.any (fun w => w.cmd.isSome)) stBUSY,
    codeIf (s.modeNoCmd || (s.mode == 10 && placeOf n == 3)) stMODE_FORBIDS]
  if code ≠ 0 then s.swapStatus n 1 sync init code
  else
    (s.setSq n { x with swapCtrl := ctrlWord 1 true sync init 0 }).setSwaps
      (s.seq.swaps ++ [⟨[n], [n], false, init, s.raw, none, 0⟩])

def execSwapArm (m : Nat) (sync init : Bool) (t : Nat) (s : State) : Host.Outcome State Fault Refusal :=
  .next ((s.advance t).sqCtrl m SEQ.SWAP_CTRL (fun x n => x.swapArm n sync init))

/-- DISARM (R387). -/
def State.swapDisarm (s : State) (n : Nat) (sync init : Bool) : State :=
  if s.sqArmed n then (s.disarmSwap n).swapStatus n 2 sync init stOK else s.swapStatus n 2 sync init stZERO_LEN
def execSwapDisarm (m : Nat) (sync init : Bool) (t : Nat) (s : State) : Host.Outcome State Fault Refusal :=
  .next ((s.advance t).sqCtrl m SEQ.SWAP_CTRL (fun x n => x.swapDisarm n sync init))
def execSwapOpInvalid (m op t : Nat) (s : State) : Host.Outcome State Fault Refusal :=
  .next ((s.advance t).sqCtrl m SEQ.SWAP_CTRL (fun x n => x.swapStatus n (if op % 4 = 0 then 0 else 3) false false stREFUSED))

def State.runStatus (s : State) (n op status : Nat) : State :=
  let s1 := s.setSq n { s.sq n with runCtrl := ctrlWord op false false false status }
  if status = stREFUSED then s1.refuseCfg .seq else s1

/-- HALT and RESUME only in Provisioning, or in Maintenance with target 19 in the set. -/
def State.haltMode (s : State) : Bool := s.mode == 3 || (s.mode == 6 && s.maint 19)

def State.sqHalt (s : State) (n : Nat) : State :=
  let x := s.sq n
  let code := lowestCode [codeIf (!(x.st == .run || x.st == .wait || x.st == .parked) || x.haltPend) stREFUSED, codeIf (s.sqArmed n) stBUSY,
    codeIf (!s.haltMode) stMODE_FORBIDS]
  if code ≠ 0 then s.runStatus n 1 code
  else s.setSq n { x with haltPend := true, runCtrl := ctrlWord 1 true false false 0 }
def execSeqHalt (m t : Nat) (s : State) : Host.Outcome State Fault Refusal :=
  .next ((s.advance t).sqCtrl m SEQ.RUN_CTRL State.sqHalt)

def State.sqResume (s : State) (n : Nat) : State :=
  let x := s.sq n
  let code := lowestCode [codeIf (x.st != .halted) stREFUSED, codeIf (!s.haltMode) stMODE_FORBIDS]
  if code ≠ 0 then s.runStatus n 2 code
  else (((s.setSq n { x with safeRaw := s.raw }).sqTo n .run).runsAgain n).runStatus n 2 stOK
def execSeqResume (m t : Nat) (s : State) : Host.Outcome State Fault Refusal :=
  .next ((s.advance t).sqCtrl m SEQ.RUN_CTRL State.sqResume)

def State.sqRestartOp (s : State) (n : Nat) : State :=
  let x := s.sq n
  let code := lowestCode [codeIf (!(x.st == .halted || x.st == .faulted)) stREFUSED, codeIf s.modeNoCmd stMODE_FORBIDS]
  if code ≠ 0 then s.runStatus n 3 code else (s.sqRestart n 2).runStatus n 3 stOK
def execSeqRestart (m t : Nat) (s : State) : Host.Outcome State Fault Refusal :=
  .next ((s.advance t).sqCtrl m SEQ.RUN_CTRL State.sqRestartOp)
def execSeqRunOpNone (m t : Nat) (s : State) : Host.Outcome State Fault Refusal :=
  .next ((s.advance t).sqCtrl m SEQ.RUN_CTRL (fun x n => x.runStatus n 0 stREFUSED))

/-- R378, R389: a host write of `SEQ.LD_DATA`. -/
def State.ldWrite (s : State) (n val : Nat) : State :=
  let x := s.sq n
  if placeOf n = 3 then s
  else if x.st = .halted ∨ x.st = .faulted then
    s.setSq n { x with ld := Store.put zWord x.ld (s.nreg SEQ.LD_ADDR / 4 % 2048) (BitVec.ofNat 32 val) }
  else s.refuseCfg .seq
def execLdDataWrite (m val t : Nat) (s : State) : Host.Outcome State Fault Refusal :=
  .next ((s.advance t).sqCtrl m SEQ.LD_DATA (fun x n => x.ldWrite n val))

/-! ### Power (R390) -/

/-- Before the domain leaves Run the sequencer is disarmed and parked; it is then OFF. After Off both banks are lost. -/
def State.sqPowerDown (s : State) (n : Nat) (retain : Bool) : State :=
  let s1 := (s.disarmSwap n).sqTo n .off
  let x := s1.sq n
  s1.setSq n (if retain then { x with fldTo := none, waitOn := none, haltPend := false, events := 0, item := none }
    else { dSq n with st := .off, restartsRaw := x.restartsRaw, iter := x.iter, runQ := x.runQ })

/-- The domain is back in Run. -/
def State.sqPowerUp (s : State) (n : Nat) : State :=
  if (s.sq n).st ≠ .off then s
  else if (s.sq n).active.words.isEmpty then s.sqTo n .empty
  else s.sqStart n true

/-! ### Commit group SEQ (R393) and registers of the selected sequencer -/

def State.seqValid (s : State) : Bool :=
  s.shd SEQ.CTRL_SWAP_TO != 0 && (List.range 52).all (fun n =>
    let w := s.shadowWord (Tbl.seqWdog.key n)
    w % 2 ^ 16 != 0 && !(placeOf n == 3 && bitsOf w 16 2 == 3))
def State.seqApply (s : State) : State := s.applyShadows .seq

def SqSt.code : SqSt → Nat
  | .empty => 0 | .run => 1 | .wait => 2 | .parked => 3 | .halted => 4 | .faulted => 5 | .off => 6

/-- A quad sequencer whose work the quad's spare does (R391). -/
def State.sqSpared (s : State) (n : Nat) : Bool :=
  decide (n < 32) && s.serving 0 (32 + n / 8) && (s.unit 0 (32 + n / 8)).serves == n

def State.sqState (s : State) (n : Nat) : Nat :=
  let x := s.sq n
  let r := (x.restartsRaw.filter (fun q => decide (s.raw < q + 3600 * qSec))).length
  x.st.code + 16 * b2n x.bankB + 32 * b2n (s.sqArmed n) + 64 * b2n x.idleOk + 128 * b2n (s.sqSpared n) + 2 ^ 8 * min 15 r
    + 2 ^ 16 * x.pc

/-- A summary: bit n for each sequencer that satisfies `p`. -/
def State.sqSum (p : Nat → Bool) (hi : Bool) : Nat :=
  if hi then (List.range 20).foldl (fun m i => if p (32 + i) then m + 2 ^ i else m) 0
  else (List.range 32).foldl (fun m i => if p i then m + 2 ^ i else m) 0

/-- What a register of SEQ reads that a selection or the sequencers' state gives; none for those the bank holds. -/
def State.seqRead (s : State) (m a : Nat) : Option Nat :=
  let n := s.selSeq m
  let x := s.sq n
  let off := decide (52 ≤ n)
  let stopped := x.st == .halted || x.st == .faulted
  let sel := fun (v : Nat) => some (if off then 0 else v)
  if a = SEQ.STATE then sel (s.sqState n)
  else if a = SEQ.FAULT then sel x.fault
  else if a = SEQ.BANK_INFO 0 then sel (x.a.version + 2 ^ 16 * x.a.progId)
  else if a = SEQ.BANK_INFO 1 then sel (x.b.version + 2 ^ 16 * x.b.progId)
  else if a = SEQ.SWAP_CTRL then sel x.swapCtrl
  else if a = SEQ.RUN_CTRL then sel x.runCtrl
  else if a = SEQ.REG_DATA then
    sel (if !stopped ∨ placeOf n = 3 then 0
      else let r := s.nreg SEQ.REG_SEL % 32
        if r < 16 then (x.reg r).toNat else if r = 16 then b2n x.c else 0)
  else if a = SEQ.LD_DATA then sel (if placeOf n = 3 then 0 else (Store.get zWord x.ld (s.nreg SEQ.LD_ADDR / 4 % 2048)).toNat)
  else if a = SEQ.PROG_DATA then
    sel (if placeOf n = 3 then 0
      else let k := if bitAt (s.nreg SEQ.PROG_ADDR) 12 then x.b else x.a
        ((k.words[s.nreg SEQ.PROG_ADDR % 4096]?).getD 0).toNat)
  else if a = SEQ.CYCLES_LO then sel (s.sqCycles n % 2 ^ 32)
  else if a = SEQ.CYCLES_HI then sel (s.sqCycles n / 2 ^ 32)
  else if a = SEQ.FAULT_SUM_LO ∨ a = SEQ.FAULT_SUM_HI then some (State.sqSum (fun k => (s.sq k).st == .faulted) (a == SEQ.FAULT_SUM_HI))
  else if a = SEQ.HALT_SUM_LO ∨ a = SEQ.HALT_SUM_HI then some (State.sqSum (fun k => (s.sq k).st == .halted) (a == SEQ.HALT_SUM_HI))
  else if a = SEQ.ARMED_SUM_LO ∨ a = SEQ.ARMED_SUM_HI then some (State.sqSum (fun k => s.sqArmed k) (a == SEQ.ARMED_SUM_HI))
  else if a = SEQ.BANK_SUM_LO ∨ a = SEQ.BANK_SUM_HI then some (State.sqSum (fun k => (s.sq k).bankB) (a == SEQ.BANK_SUM_HI))
  else if a = SEQ.RUN_SUM_LO ∨ a = SEQ.RUN_SUM_HI then
    some (State.sqSum (fun k => let st := (s.sq k).st
      st == .run || st == .wait || st == .parked) (a == SEQ.RUN_SUM_HI))
  else if a = SEQ.IDLE_OK_SUM_LO ∨ a = SEQ.IDLE_OK_SUM_HI then some (State.sqSum (fun k => (s.sq k).idleOk) (a == SEQ.IDLE_OK_SUM_HI))
  else if SEQ.HB 0 ≤ a ∧ a ≤ SEQ.HB 25 then
    let k := (a - SEQ.HB 0) / 4
    some ((s.sq (2 * k)).iter % 2 ^ 16 + 2 ^ 16 * ((s.sq (2 * k + 1)).iter % 2 ^ 16))
  else none

end Sys2Proof.Machine
end

