-- ==== Sys2Proof/Machine/Fab.lean ====
section
/-! DEFINITION. The audits of the conservation ledger and what follows an imbalance (R42 to R48), and the high-water mark
of a queue (R31). -/

namespace Sys2Proof.Machine

/-! ### Audits (R44 to R46) -/

/-- A trigger captures the counts; one that finds both copies taken is ignored (R45). -/
def State.auditStart (s : State) : State :=
  if 2 ≤ s.fab.copies.length then s
  else (s.setFab (fun f => { f with copies := f.copies ++ [⟨f.ledger, f.terms, []⟩] })).wr FAB.LEDGER_CTRL_AUDITING 1

/-- The instances in the order an audit compares them (R46), as kind and instance. -/
def auditOrder : List (Tok × Nat) :=
  (List.range 4).map (fun i => (.request, i)) ++ (List.range 5).map (fun i => (.buffer, i))
    ++ (List.range 32).map (fun i => (.depart, i)) ++ (List.range 4).map (fun i => (.keytok, i))
    ++ (List.range 256).map (fun i => (.credit, i)) ++ (List.range 1024).map (fun i => (.desc, i))

/-- The sum of the four terminal terms of a quad (R43). -/
def ReqTerms.sum (t : ReqTerms) : Nat := t.answered + t.cancelDrop + t.toHost + t.sumped

/-- What an instance's captured copy shows as returned: for kind REQUEST, the sum of the four terms (R42). -/
def LedgerCopy.returned (c : LedgerCopy) (k : Tok) (i : Nat) : Nat :=
  if k = .request then (Store.get dTerms c.terms i).sum else (Store.get dLInst c.insts (k.key i)).returned

/-- The difference issued − returned − held, modulo 2^48 (R42, R47). -/
def LedgerCopy.diff (c : LedgerCopy) (k : Tok) (i : Nat) : Nat :=
  let l := Store.get dLInst c.insts (k.key i)
  (l.issued + 2 * 2 ^ 48 - c.returned k i % 2 ^ 48 - l.held % 2 ^ 48) % 2 ^ 48

/-- The instances of a copy that fail. -/
def LedgerCopy.fails (c : LedgerCopy) : List (Tok × Nat) :=
  auditOrder.filter (fun p => c.diff p.1 p.2 != 0 && !c.skip.contains (p.1.key p.2))

/-! ### Isolation (R47) -/

/-- The unit that owns an instance, named by one instance of its own: a quad owns its REQUEST and its BUFFER instance. -/
def ownerOf (k : Tok) (i : Nat) : Nat := if k = .buffer ∧ i < 4 then Tok.request.key i else k.key i

/-- What stands in a queue whose consumer is isolated leaves it: requests to the Sump as ISOLATED, frames and commands
completing ABORTED; the credits still held are returned by FAB and counted as ISOLATED, class CREDIT. -/
def State.emptyQueue (s : State) (n : Nat) : State :=
  let jobs := fun (t : State) (p : Job → Bool) => (t.rsp.jobs.filter p).foldl (fun u j => u.sumpJob j 0x19) t
  let s1 :=
    if n < 32 then jobs s (fun j => j.port == n && j.cells != 0)
    else if n < 64 then (s.prt.tx.filter (fun f => f.port == n - 32)).foldl (fun t f => t.dropTx f stABORTED 0x19) s
    else if n < 96 then s
    else if n < 100 then jobs s (fun j => j.quad == n - 96 && j.st == .atSeq)
    else if n < 104 then s
    else if n < 108 then jobs s (fun j => j.quad == n - 104 && j.st == .staged)
    else if n < 112 then jobs s (fun j => j.quad == n - 108 && j.st == .wantSlot && j.inQ)
    else if n < 128 then { s with tdc := { s.tdc with q := Store.put (fun _ => []) s.tdc.q (n - 112) [] } }
    else if n < 136 then s.setGnc (fun g => { g with dumps := Store.put dDumps g.dumps (n - 128) [] })
    else if n = 136 then s.setGnc (fun g => { g with epochQ := [] })
    else if n < 141 then s.pkAbortIf (fun w _ => w == n - 137) 0x19
    else if n = 141 then { s with jrn := { s.jrn with q := [] } }
    else if n = 142 then { s with hif := { s.hif with evQ := [] } }
    else if n = 143 then s.hif.cmdQ.foldl (fun t c => t.complete c stABORTED 0) s
    else if n < 160 then s.setSlot (n - 144) { s.slot (n - 144) with wait := [] }
    else s
  let left := s1.qOcc n
  (s1.qTake n left).sump 0x19 .credit 1 n left

/-- Steps 2 to 4 of R47 for the unit that owns an instance. -/
def State.isolate (s : State) (k : Tok) (i : Nat) : State :=
  let u := ownerOf k i
  let s1 := s.setFab (fun f => { f with isolated := if f.isolated.contains u then f.isolated else u :: f.isolated })
  match k with
  | .request => (s1.rsp.jobs.filter (fun j => j.quad == i)).foldl (fun t j =>
      match t.findJob j.id with | some x => t.sumpJob x 0x19 | none => t) (s1.cancelQuad i caISOLATE)
  | .buffer =>
    if i < 4 then (s1.rsp.jobs.filter (fun j => j.quad == i)).foldl (fun t j =>
      match t.findJob j.id with | some x => t.sumpJob x 0x19 | none => t) (s1.cancelQuad i caISOLATE)
    else s1.prt.tx.foldl (fun t f => t.dropTx f stABORTED 0x19) s1
  | .depart => s1.cancelPort i caISOLATE
  | .credit => s1.emptyQueue i
  | .desc =>
    let x := s1.ringOf i
    (s1.setRing i { x with posted := [], txd := [], cpls := [], openBuf := none }).give .desc i (s1.lget .desc i).held
  | .keytok => s1.pkAbortIf (fun w _ => w == i) 0x19

/-- Step 5 of R47: issued = returned, held = 0. -/
def State.rebaseline (s : State) (k : Tok) (i : Nat) : State :=
  let r := if k = .request then (Store.get dTerms s.fab.terms i).sum % 2 ^ 48 else (s.lget k i).returned
  s.lset k i ⟨r, r, 0⟩

/-- When a unit failed its audits (R48): its first failure, and a second one within 3 600 s of it. -/
def State.noteFail (s : State) (u : Nat) : State :=
  let first := Store.get zNat s.fab.failRaw u
  if first ≠ 0 ∧ s.raw + 1 ≤ first + 3600 * qSec then
    s.setFab (fun f => { f with failRaw := Store.put zNat f.failRaw (65536 + u) (s.raw + 1) })
  else s.setFab (fun f => { f with failRaw := Store.put zNat (Store.put zNat f.failRaw u (s.raw + 1)) (65536 + u) 0 })

/-- One failing instance (R47); the audit that waits passes over it (R45). -/
def State.auditFail (s : State) (k : Tok) (i d : Nat) : State :=
  let s1 := if s.on FAB.STICKY_LEDGER_FAULT then s
    else ((s.wr FAB.LEDGER_FAULT_KIND k.code).wr FAB.LEDGER_FAULT_INSTANCE i).wr FAB.LEDGER_FAULT_VALID 1
  let s2 := (s1.setQuiet FAB.STICKY_LEDGER_FAULT).noteFail (ownerOf k i)
  let s3 := (s2.isolate k i).rebaseline k i
  let s4 := s3.setFab (fun f => { f with copies := f.copies.map (fun c => { c with skip := k.key i :: c.skip }) })
  s4.journal 9 1 (leBytes 1 2 ++ leBytes 1 k.code ++ leBytes 2 i ++ leBytes 6 d)

/-- The running audit compares every instance and ends (R46); the captured copy that waits is audited next. -/
def State.auditEnd (s : State) : State :=
  match s.fab.copies with
  | [] => s
  | c :: rest =>
    let bad := c.fails
    let s1 := bad.foldl (fun t p => t.auditFail p.1 p.2 (c.diff p.1 p.2)) (s.setFab (fun f => { f with copies := rest }))
    let s2 := if bad.isEmpty then s1 else s1.wr FAB.LEDGER_FAULT_FAILS (min 255 bad.length)
    let s3 := ((s2.wrB FAB.LEDGER_CTRL_AUDITING (!rest.isEmpty)).bumpF FAB.LEDGER_CTRL_AUDIT_COUNT).count 2 0xA 0
    s3.sticky FAB.STICKY_AUDIT_DONE

/-- A write of `FAB.LEDGER_CTRL`: AUTO_PERIOD, unless 12 to 15, and AUDIT. -/
def State.ledgerCtrl (s : State) (val : Nat) : State :=
  let p := bitsOf val 8 4
  let s1 := if p < 12 then s.wr FAB.LEDGER_CTRL_AUTO_PERIOD p else s.refuseCfg .fab
  if bitAt val 0 then s1.auditStart else s1

def execLedgerAuditRequest (m val t : Nat) (s0 : State) : Host.Outcome State Fault Refusal :=
  let s := s0.advance t
  .next (if bitAt val 0 then s.busWrite m 1 FAB.LEDGER_CTRL (fun x => x.ledgerCtrl val) else s)

def execLedgerAutoAudit (t : Nat) (s0 : State) : Host.Outcome State Fault Refusal :=
  let s := s0.advance t
  .next (if s.rd FAB.LEDGER_CTRL_AUTO_PERIOD = 0 then s else s.auditStart)

def execLedgerAuditEnd (t : Nat) (s0 : State) : Host.Outcome State Fault Refusal := .next (s0.advance t).auditEnd

/-! ### Return to service (R48) -/

def tokOf (kind : Nat) : Option Tok :=
  match kind with
  | 0 => some .request | 1 => some .buffer | 2 => some .credit | 3 => some .desc | 4 => some .depart | 5 => some .keytok
  | _ => none

/-- An isolated unit is re-initialised, or after a second failure marked unusable. No unit the ledger isolates has a
spare, so an unusable one leaves the mode Degraded. -/
def State.reinit (s : State) (u : Nat) : State :=
  if !s.fab.isolated.contains u || s.fab.unusable.contains u || !s.on FAB.CTRL_REINIT_ON_FAULT then s
  else if Store.get zNat s.fab.failRaw (65536 + u) ≠ 0 then
    ((s.setFab (fun f => { f with unusable := u :: f.unusable })).sticky FAB.STICKY_UNUSABLE).settleMode
  else (s.setFab (fun f => { f with isolated := f.isolated.filter (· != u) })).bump BST.REINITS

def execUnitReinit (kind inst t : Nat) (s0 : State) : Host.Outcome State Fault Refusal :=
  let s := s0.advance t
  .next (match tokOf kind with | some k => s.reinit (ownerOf k inst) | none => s)

/-! ### High-water marks (R31) -/

def State.hwReset (s : State) : State :=
  let q := s.rd FAB.QUEUE_SEL_QUEUE
  if queueCap s.variant q = 0 then s
  else s.setFab (fun f => { f with qHigh := Store.put zNat f.qHigh q (s.qOcc q) })

def execQueueHwReset (m val t : Nat) (s0 : State) : Host.Outcome State Fault Refusal :=
  let s := s0.advance t
  .next (if bitAt val 31 then s.busWrite m 1 FAB.QUEUE_STAT State.hwReset else s)

end Sys2Proof.Machine
end

