-- ==== Sys2Proof/Machine/Pmc.lean ====
section
/-! DEFINITION. PMC: the scrubber (R471), performance counters, freezes and their delivery (R474 to R479), top-down slot
counts (R480, R481) and commit group PMC (R482). -/

namespace Sys2Proof.Machine

def State.setPmc (s : State) (f : PmcS → PmcS) : State := { s with pmc := f s.pmc }

/-! ### Counters -/

def State.cntWord (s : State) (c : Nat) : Nat := s.nreg (Tbl.cntCfg.key c)

/-- The power domain of the block a counter sits in (R474, R476). -/
def State.cntDomain (s : State) (c : Nat) : Nat :=
  let u := bitsOf (s.cntWord c) 16 6
  match cntGroup c with
  | 0 => 32 + c / 128
  | 1 => (c - 512) / 16
  | 2 => 42
  | 3 => 39
  | 4 => 32 + u % 4
  | 5 => 36
  | 6 => seqDomain u
  | 7 => 43
  | 8 => 37
  | 9 => 40
  | 10 => 41
  | _ => 38

/-- The core cycles (1.25 GHz) that domain `d` has been in Run up to now, those before it last stopped included. -/
def State.runCycles (s : State) (d : Nat) : Nat :=
  (match s.pwr.outRaw.find? (fun e => e.1 == d) with | some e => e.2 - 1 | none => s.raw) * 5 / (4 * 65536)

/-- The enabled counters of event CYCLES (R475). Their stored value is what `runCycles` has to be added to. -/
def State.cycleCounters (s : State) : List Nat :=
  (s.regs.filter (fun x => decide (Tbl.cntCfg.key 0 ≤ x.1) && decide (x.1 < Tbl.cntCfg.key 1536) && bitsOf x.2.toNat 12 1 == 1
    && bitsOf x.2.toNat 0 12 == 256 * cntGroup (x.1 - Tbl.cntCfg.key 0))).map (fun x => x.1 - Tbl.cntCfg.key 0)

/-- The live value of a counter. -/
def State.cntNow (s : State) (c : Nat) : Nat :=
  let v := Store.get zNat s.pmc.cnt c
  if s.cycleCounters.contains c then (v + s.runCycles (s.cntDomain c)) % 2 ^ 48 else v

/-- The live values of all counters, as a freeze copies them. -/
def State.liveCounts (s : State) : List (Nat × Nat) :=
  s.cycleCounters.foldl (fun l c => Store.put zNat l c (s.cntNow c)) s.pmc.cnt

/-- Counters `p` of event CYCLES begin at zero now. -/
def State.zeroCycles (s : State) (p : Nat → Bool) : State :=
  let l := (s.cycleCounters.filter p).foldl (fun l c =>
    Store.put zNat l c ((2 ^ 48 - s.runCycles (s.cntDomain c) % 2 ^ 48) % 2 ^ 48)) s.pmc.cnt
  s.setPmc (fun x => { x with cnt := l })

/-- The counters of a domain restart at zero as it is back in Run (R476). -/
def State.restartCounters (s : State) (d : Nat) : State :=
  let keep := s.pmc.cnt.filter (fun e => s.cntDomain e.1 != d)
  (s.setPmc (fun p => { p with cnt := keep })).zeroCycles (fun c => s.cntDomain c == d)

/-- Every counter and every top-down count restarts at zero (R476); slots already issued stay pending. -/
def State.restartAllCounters (s : State) : State :=
  let td := (s.pmc.td.filter (fun e => e.2.pend != 0)).map (fun e => (e.1, { dTd 0 with pend := e.2.pend }))
  (s.setPmc (fun p => { p with cnt := [], td := td, tdRaw := s.raw })).zeroCycles (fun _ => true)

/-! ### Top-down counts (R480, R481) -/

/-- The units of `PMC.TD_SEL`: quads 0 to 3, then sequencers 0 to 51. -/
def tdKey (u : Nat) : Nat := if u < 4 then u else 64 + (u - 4)
def tdDomain (u : Nat) : Nat := if u < 4 then 32 + u else seqDomain (u - 4)
def State.tdPresent (s : State) (u : Nat) : Bool := if u < 4 then s.quadPresent u else s.seqPresent (u - 4)

/-- The five counts of a unit: retired, wasted, front-starved, back-stalled, pending. A quad has a slot in every two core
cycles, a sequencer one in each; what is in none of the other counts was front-starved. -/
def State.tdCounts (s : State) (u : Nat) : List Nat :=
  if !s.tdPresent u then [0, 0, 0, 0, 0]
  else
    let x := Store.get dTd s.pmc.td (tdKey u)
    let now := match s.pwr.outRaw.find? (fun e => e.1 == tdDomain u) with | some e => e.2 - 1 | none => s.raw
    let cycles := (now - s.pmc.tdRaw - x.outQ) * 5 / (4 * 65536)
    let slots := if u < 4 then cycles / 2 else cycles
    [x.retired, x.wasted, slots - x.retired - x.wasted - x.back - x.pend, x.back, x.pend]

/-! ### Freeze (R477) -/

/-- FLAGS of a COUNTER_SNAP payload (R478). -/
def fzPERIODIC : Nat := 1
def fzCOMMAND : Nat := 2
def fzKA : Nat := 4

/-- `PMC.FREEZE.BUSY` follows the deliveries that run. -/
def State.setDeliveries (s : State) (l : List Delivery) : State :=
  (s.setPmc (fun p => { p with delivering := l })).wrB ⟨PMC.FREEZE, 1, 1⟩ (!l.isEmpty)

/-- A trigger of a global freeze; one that comes while a delivery runs is skipped. -/
def State.freeze (s : State) (flags : Nat) : State :=
  if !s.pmc.delivering.isEmpty then (s.bump PMC.FREEZE_SKIPPED).sticky PMC.STICKY_FREEZE_SKIP
  else
    let tds := (List.range 56).map (fun u => (u, s.tdCounts u))
    let s1 := s.setPmc (fun p => { p with frozen := s.liveCounts, tdFrozen := tds, freezes := (p.freezes + 1) % 2 ^ 32 })
    let s2 := (s1.set96 PMC.FREEZE_TIME_LO (s1.tsNow 0)).bumpF ⟨PMC.FREEZE, 16, 16⟩
    let s3 := (s2.auditStart.freezeSnaps).sticky PMC.STICKY_FROZE
    if s3.on PMC.CTRL_SNAP_EN then s3.setDeliveries [⟨flags, none⟩] else s3

def execGlobalFreeze (m val t : Nat) (s0 : State) : Host.Outcome State Fault Refusal :=
  let s := s0.advance t
  .next (if bitAt val 0 then s.busWrite m 23 PMC.FREEZE (fun x => x.freeze 0) else s)

/-- At a timescale-0 second boundary that PERIOD names. -/
def execPeriodicFreeze (t : Nat) (s0 : State) : Host.Outcome State Fault Refusal :=
  let s := s0.advance t
  let k := s.rd PMC.CTRL_PERIOD
  .next (if 1 ≤ k ∧ k ≤ 10 ∧ s.sec0 % 2 ^ (k - 1) = 0 then s.freeze fzPERIODIC else s)

/-! ### Delivery (R478, R479) -/

/-- The payload of a COUNTER_SNAP event. -/
def State.snapPayload (s : State) (first count flags : Nat) (poisoned : Bool) : List Byte :=
  let td := s.on PMC.CTRL_TD_SNAP
  let word := fun i =>
    let c := first + i
    let w := s.cntWord c
    Store.get zNat s.pmc.frozen c + 2 ^ 48 * bitsOf w 0 12 + 2 ^ 60 * (bitsOf w 16 6 % 8) + 2 ^ 63 * bitsOf w 12 1
  leBytes 12 (s.reg96 PMC.FREEZE_TIME_LO) ++ leBytes 4 s.pmc.freezes ++ leBytes 2 first ++ leBytes 2 count
    ++ leBytes 1 (flags + 8 * b2n poisoned + 16 * b2n td) ++ zeros 11
    ++ (List.range count).flatMap (fun i => leBytes 8 (word i))
    ++ (if td then (List.range 56).flatMap (fun u => (Store.get (fun _ => [0, 0, 0, 0, 0]) s.pmc.tdFrozen u).flatMap (leBytes 8)) else [])

/-- COUNTER_SNAP. -/
def execCounterSnap (c : HostCmd) (t : Nat) (s0 : State) : Host.Outcome State Fault Refusal :=
  let s := s0.advance t
  let first := c.u 0 2
  let count := c.u 2 2
  let ring := c.u 4 2
  let code := c.code [codeIf (count == 0) stZERO_LEN,
    codeIf (decide (1536 < first + count) || bitsOf ring 10 5 != 0 || !c.zero 6 32 || !s.ringIs c.fn 3 (ring % 1024)) stREFUSED,
    codeIf (!s.pmc.delivering.isEmpty) stBUSY, codeIf s.modeNoCmd stMODE_FORBIDS]
  .next (
    if code ≠ 0 then
      let s1 := if code = stREFUSED then s.refuseCfg .pmc else s
      (s1.setN PMC.SNAP_LAST code).complete c code 0
    else
      let s1 := if bitAt ring 15 then s.freeze fzCOMMAND else s
      s1.setDeliveries (s1.pmc.delivering ++ [⟨fzCOMMAND, some c⟩]))

/-- The delivery at the head ends: its event is written or lost, and its command completes. -/
def State.endDelivery (s : State) (poisoned : Bool) : State :=
  match s.pmc.delivering with
  | [] => s
  | d :: rest =>
    let s1 := if poisoned then s.poisonSeen else s
    match d.cmd with
    | none =>
      let p := s1.snapPayload (s1.rd PMC.SNAP_RANGE_FIRST) (s1.rd PMC.SNAP_RANGE_COUNT) d.flags poisoned
      (s1.postNoted (s1.rd PMC.CTRL_RING) 11 p).setDeliveries rest
    | some c =>
      let n := c.u 2 2
      let r := s1.sendEvent (c.u 4 2 % 1024) 11 (s1.snapPayload (c.u 0 2) n d.flags poisoned)
      let s2 := if r.2 then r.1 else r.1.sticky PMC.STICKY_SNAP_LOST
      let code := if r.2 then stOK else stINCOMPLETE
      let got := if r.2 then n else 0
      ((s2.setDeliveries rest).setN PMC.SNAP_LAST (code + 2 ^ 16 * got)).complete c code got

def execSnapDeliveryEnd (poisoned : Bool) (t : Nat) (s0 : State) : Host.Outcome State Fault Refusal :=
  .next ((s0.advance t).endDelivery poisoned)

/-! ### Scrubbing (R471) -/

/-- The scrubber reads a granule; `last` says that the visit completes a pass. -/
def execMemoryScrubVisit (target offset : Nat) (res : ScrubRes) (last : Bool) (t : Nat) (s0 : State) :
    Host.Outcome State Fault Refusal :=
  let s := s0.advance t
  let s1 := match res with
    | .clean => s
    | .corrected => s.bump PMC.ECC_CORR
    | .poisoned false => s
    | .poisoned true =>
      ((s.bump PMC.ECC_UNCORR).setN PMC.ECC_LAST (target % 32 + 2 ^ 8 * (offset % 2 ^ 24))).sticky PMC.STICKY_ECC_UNCORR
  .next (if last then (s1.wr ⟨PMC.SCRUB_STAT, 0, 16⟩ (bitsOf (s1.nreg PMC.SCRUB_STAT) 0 16 + 1)).sticky PMC.STICKY_SCRUB_DONE
    else s1)

/-! ### Commit group PMC (R482) -/

/-- The highest event of a group (R475). -/
def lastEvent (g : Nat) : Nat :=
  match g with
  | 0 => 0xD | 1 => 7 | 2 => 0xA | 3 => 4 | 4 => 4 | 5 => 4 | 6 => 5 | 7 => 5 | 8 => 3 | 9 => 3 | 10 => 3 | _ => 2
/-- How many UNITs a group selects from; none where it selects none (R474). -/
def groupUnits (g : Nat) : Option Nat :=
  match g with | 3 => some 26 | 4 => some 4 | 5 => some 8 | 6 => some 52 | 8 => some 16 | 9 => some 5 | _ => none

def cntOk (c w : Nat) : Bool :=
  bitsOf w 12 1 == 0 ||
    (let g := bitsOf w 8 4
     g == cntGroup c && decide (bitsOf w 0 8 ≤ lastEvent g)
       && (match groupUnits g with | some n => decide (bitsOf w 16 6 < n) | none => true))

def State.pmcValid (s : State) : Bool :=
  let keys := (s.regs ++ s.shadow).filterMap (fun e =>
    if Tbl.cntCfg.key 0 ≤ e.1 ∧ e.1 < Tbl.cntCfg.key 1536 then some (e.1 - Tbl.cntCfg.key 0) else none)
  keys.all (fun c => cntOk c (s.shadowWord (Tbl.cntCfg.key c))) && decide (s.shd PMC.CTRL_PERIOD ≤ 10)
    && s.shd PMC.SCRUB_CTRL_MINUTES != 0
    && (s.shd PMC.CTRL_SNAP_EN == 0
      || (s.shd PMC.SNAP_RANGE_COUNT != 0 && decide (s.shd PMC.SNAP_RANGE_FIRST + s.shd PMC.SNAP_RANGE_COUNT ≤ 1536)
        && s.ringIs 0 3 (s.shd PMC.CTRL_RING)))

/-- A counter whose EVENT, UNIT or EN changes restarts at zero. -/
def State.pmcApply (old : State) : State :=
  let s := old.applyShadows .pmc
  let keep := s.pmc.cnt.filter (fun e => s.cntWord e.1 == old.cntWord e.1)
  (s.setPmc (fun p => { p with cnt := keep })).zeroCycles (fun c => s.cntWord c != old.cntWord c)

/-- `PMC.CNT_ENABLED`. -/
def State.cntEnabled (s : State) : Nat :=
  (s.regs.filter (fun e => decide (Tbl.cntCfg.key 0 ≤ e.1) && decide (e.1 < Tbl.cntCfg.key 1536) && bitsOf e.2.toNat 12 1 == 1)).length

end Sys2Proof.Machine
end

