-- ==== Sys2Proof/Machine/Bst.lean ====
section
/-! DEFINITION. BST: the units and their tests (R452 to R460), power-on self-test (R457), JTAG (R456). -/

namespace Sys2Proof.Machine

def State.setBst (s : State) (f : BstS → BstS) : State := { s with bst := f s.bst }

/-! ### What units are (R452) -/

/-- The target of a unit's block (R33), which the Maintenance of R460 names. -/
def unitTarget (k i : Nat) : Nat :=
  match k with | 0 => 19 | 1 => 15 | 2 => 16 | 3 => 8 | 4 => 7 | 5 => 9 | 6 => 12 | _ => i

/-- The power domain of a block, as a target (R436). -/
def targetDomain (t : Nat) : Nat :=
  match t with
  | 7 => 36 | 8 => 36 | 9 => 37 | 11 => 38 | 15 => 39 | 16 => 40 | 17 => 40 | 20 => 41
  | 1 => 42 | 18 => 42 | 19 => 42 | 22 => 42 | 23 => 42 | 24 => 42 | 25 => 42 | 27 => 42
  | _ => 43
def unitDomain (k i : Nat) : Nat :=
  match k with
  | 0 => 32 + unitQuad 0 i | 1 => 39 | 2 => 40 | 3 => 36 | 4 => 36 | 5 => 37 | 6 => i | _ => targetDomain i

/-- The blocks of the timing domain (R61). -/
def timingTarget (t : Nat) : Bool := t == 0 || t == 2 || t == 3 || t == 4 || t == 5 || t == 6 || t == 10 || t == 21

/-! ### Work that moves, stops and comes back (R301, R391, R417, R459) -/

/-- A quad sequencer's work goes to another unit: it starts at ENTRY with local data from the initial image, and what it held
goes to the Sump as SEQ_FAULT (R391). -/
def State.sqTakenOver (s : State) (n : Nat) : State :=
  let s1 := (s.seqFaultJobs n).itemEnd n false
  if (s1.sq n).st = .run ∨ (s1.sq n).st = .wait then s1.sqStart n true else s1

/-- Jobs of pipe `p` go on on another pipe of their quad (R301). -/
def State.pipeJobs (s : State) (p q : Nat) : State :=
  s.setJobs (s.rsp.jobs.map (fun j => match j.nts with
    | some x => if x.pipe = p then (match s.pickPipe q with | some r => { j with nts := some { x with pipe := r } } | none => j) else j
    | none => j))

/-- What follows at the boundary of R452 where the work of unit `i` has moved. -/
def State.workMoved (s : State) (k i w : Nat) : State :=
  match k with
  | 0 => s.sqTakenOver w
  | 1 => s.pipeJobs i (unitQuad 1 w)
  | 2 => (s.sticky PKE.STICKY_SPARE_USED).showPke
  | _ => s

/-- Jobs that satisfy `p` sent to the Sump as ISOLATED. -/
def State.isolateJobs (s : State) (p : Job → Bool) : State :=
  let s1 := s.cancelWhere p caISOLATE
  (s1.rsp.jobs.filter p).foldl (fun t j => match t.findJob j.id with | some x => t.sumpJob x 0x19 | none => t) s1

/-- A port's link drops: locks are lost, and reservations cancelled LINK. -/
def State.portDrops (s : State) (p : Nat) : State :=
  let s1 := (s.setLink p false).cancelPort p caLINK
  (((s1.wr (PRT.STAT_PCS_LOCK p) 0).wr (PRT.STAT_FEC_LOCK p) 0).wr (PRT.STAT_CAL_VALID p) 0).setCalFails p 0

/-- A unit without a spare that is fenced stops, and its tokens are returned as for an isolation (R47, R459). -/
def State.stopUnit (s : State) (k i : Nat) : State :=
  match k with
  | 0 => (match s.buildingOf i with | some j => s.sumpJob j 0x19 | none => s).sqPowerDown i true
  | 1 => s.isolateJobs (fun j => match j.nts with | some x => x.pipe == i | none => false)
  | 2 => s.pkAbortIf (fun w j => s.engOf w == some i && j.running) 0x19
  | 3 => s.unitLost i
  | 4 => s.abortSearches (fun x => x.eng == i)
  | 5 =>
    let n := s.qOcc (112 + i)
    let s1 := (s.qTake (112 + i) n).sump 0x19 .credit 9 (112 + i) n
    { s1 with tdc := { s1.tdc with q := Store.put (fun _ => []) s1.tdc.q i [], chs := Store.put dTCh s1.tdc.chs i { s1.tch i with on := false } } }
  | 6 =>
    let s1 := s.isolateJobs (fun j => j.port == i)
    let s2 := (s1.prt.tx.filter (fun f => f.port == i)).foldl (fun t f => t.dropTx f stABORTED 0x19) s1
    s2.portDrops i
  | _ =>
    match i with
    | 7 => s.abortSearches (fun _ => true)
    | 8 => s.dropChans (fun _ _ => true)
    | 12 => (s.isolateJobs (fun _ => true)).prt.tx.foldl (fun t f => t.dropTx f stABORTED 0x19) (s.isolateJobs (fun _ => true))
    | 13 => s.isolateJobs (fun _ => true)
    | 14 => s.isolateJobs (fun j => !j.isReq)
    | 15 => s.isolateJobs (fun j => j.nts.isSome)
    | 16 => s.pkAbortIf (fun _ _ => true) 0x19
    | 17 => s.pkAbortIf (fun _ _ => true) 0x19
    | _ => s

/-- A unit is re-initialised (R459). -/
def State.reinitUnit (s : State) (k i : Nat) : State :=
  let s1 := s.bump BST.REINITS
  match k with
  | 0 => s1.sqPowerUp i
  | 5 => if s1.tdcOn then s1.setTch i { dTCh i with offA := (s1.tch i).offA, offB := (s1.tch i).offB } else s1
  | _ => s1

/-- What a block keeps of a unit that is lost for good and has no spare (R183, R204, R301, R340, R417). -/
def State.unitDead (s : State) (k i : Nat) (served : Bool) : State :=
  match k with
  | 1 => s.sticky NTS.STICKY_PIPE_FAIL
  | 2 => s.sticky PKE.STICKY_ENG_UNUSABLE
  | 3 => (if served then s else s.unitLost i).sticky GNC.STICKY_UNIT_FAIL
  | 4 => s.engFail i
  | 5 => s.tdcUnusable i
  | 6 => s.portDrops i
  | _ => s

/-! ### The secrets of a unit (R455) -/

/-- Before a logic test: the secrets of a pipe or an engine zeroised and read back. -/
def State.clearSecrets (s : State) (k i : Nat) (ok : Bool) : State :=
  if k ≠ 1 ∧ k ≠ 2 then s
  else
    let s1 := if k = 2 then
        let s2 := s.clearOperands i
        if i < 4 then s2.setSq (44 + i) { s2.sq (44 + i) with w := [], c := false, ld := [] } else s2
      else s
    (s1.setN BST.SECRET_STAT (b2n (!ok) + 2 ^ 4 * k + 2 ^ 8 * i)).sticky BST.STICKY_SECRET_CLEAR

/-! ### TEST_BLOCK (R458 to R460) -/

/-- The unit, MODE and PATTERNS of a TEST_BLOCK. -/
def HostCmd.tKind (c : HostCmd) : Nat := c.u 0 1 % 8
def HostCmd.tMode (c : HostCmd) : Nat := c.u 0 1 / 16 % 4
def HostCmd.tIndex (c : HostCmd) : Nat := c.u 1 1
def HostCmd.tPatterns (c : HostCmd) : Nat := c.u 4 4

def State.testCode (s : State) (c : HostCmd) : Nat :=
  let k := c.tKind
  let i := c.tIndex
  let m := c.tMode
  let maint := s.mode == 6 && s.maint (unitTarget k i)
  c.code [
    codeIf (c.tPatterns == 0 && (m == 0 || m == 2)) stZERO_LEN,
    codeIf (bitAt (c.u 0 1) 3 || decide (64 ≤ c.u 0 1) || !c.zero 2 4 || !c.zero 8 32 || !unitPresent s.variant k i
      || decide (2 ^ 24 < c.tPatterns) || (m == 3 && k != 5 && k != 6) || (k == 7 && (timingTarget i || i == 22))) stREFUSED,
    codeIf s.bst.test.isSome stBUSY,
    codeIf (s.modeNoCmd || (!maint && (decide (4 ≤ k) || (s.serving k i && (s.freeSpare k (s.unit k i).serves).isNone)))) stMODE_FORBIDS]

/-- `BST.STAT` of the test that runs. -/
def State.showTest (s : State) (phase : Nat) : State :=
  match s.bst.test with
  | none => s.setN BST.STAT (2 ^ 20 * s.rd BST.STAT_POWERON_DONE)
  | some r => s.setN BST.STAT (1 + 2 ^ 4 * r.kind + 2 ^ 8 * r.index + 2 ^ 16 * phase + 2 ^ 20 * s.rd BST.STAT_POWERON_DONE)

/-- The test of a command is over with a status. -/
def State.testDone (s : State) (r : TestRun) (status : Nat) (done : Bool) : State :=
  let s0 := (s.setBst (fun b => { b with test := none })).showTest 0
  let u := s0.unit r.kind r.index
  let s1 := s0.setUnit r.kind r.index { u with tests := (u.tests + 1) % 65536 }
  let s2 := (s1.setN BST.TEST_LAST (r.kind + 2 ^ 4 * r.mode + 2 ^ 6 * b2n done + 2 ^ 8 * r.index + 2 ^ 16 * status)).bump BST.TESTS
  let s3 := s2.sticky BST.STICKY_TEST_DONE
  let s4 := if status = stSIGNATURE_BAD then ((s3.bump BST.FAILS).sticky BST.STICKY_TEST_FAIL).setN BST.LAST_FAIL_SEC s3.sec0
    else if status = stINCOMPLETE then (s3.bump BST.INCOMPLETES).sticky BST.STICKY_INCOMPLETE else s3
  s4.complete r.cmd status (s4.nreg BST.APPLIED)

/-- A unit under test failed: it is unusable. -/
def State.testFailed (s : State) (r : TestRun) (done : Bool) : State :=
  let f := s.failUnit r.kind r.index
  ((f.1.unitDead r.kind r.index (r.moved || f.2)).testDone r stSIGNATURE_BAD done).settleMode

/-- Steps 1 to 4 of R459. -/
def State.testStart (s : State) (r0 : TestRun) (clearOk : Bool) : State :=
  let k := r0.kind
  let i := r0.index
  let s1 := s.takeCmd r0.cmd
  if r0.mode = 3 then
    let s2 := (s1.setBst (fun b => { b with test := some r0 })).showTest 2
    if k = 6 then s2.portDrops i
    else
      let x := s2.tch i
      if x.cal.isNone then s2.setTch i { x with cal := some (x.idle, .hits) } else s2
  else
    let work := (s1.unit k i).serves
    let serves := s1.serving k i
    let m := if serves then s1.moveWork k i else (s1, false)
    let r := { r0 with moved := m.2 }
    let s2 := if m.2 then m.1.workMoved k i work else if serves then m.1.stopUnit k i else m.1
    let s3 := (s2.setUnit k i { s2.unit k i with fenced := true }).showUnits k
    let s4 := if r0.mode = 1 then s3 else s3.clearSecrets k i clearOk
    if r0.mode ≠ 1 ∧ !clearOk ∧ (k = 1 ∨ k = 2) then s4.testFailed r false
    else
      let s5 := if r0.mode = 1 then s4 else s4.setN BST.EXPECTED r0.patterns
      (s5.setBst (fun b => { b with test := some r })).showTest 2

def execTestBlock (c : HostCmd) (clearOk : Bool) (t : Nat) (s0 : State) : Host.Outcome State Fault Refusal :=
  let s := s0.advance t
  let code := s.testCode c
  .next (if code ≠ 0 then (if code = stREFUSED then s.refuseCfg .bst else s).complete c code 0
    else s.testStart ⟨c, c.tKind, c.tIndex, c.tMode, c.tPatterns, false⟩ clearOk)

/-- The unit is back as it was before the test: usable or not, with its own work. -/
def State.unfence (s : State) (k i : Nat) : State := (s.setUnit k i { s.unit k i with fenced := false }).showUnits k

/-- The work that moved to a spare returns to unit `i` at the next boundary. -/
def State.workBack (s : State) (k i : Nat) : State :=
  match (s.unitsOf k).find? (fun f => f != i && !(s.unit k f).idle && (s.unit k f).serves == i) with
  | none => s
  | some f =>
    let s1 := (s.setUnit k f { s.unit k f with idle := true, serves := f }).setUnit k i { s.unit k i with idle := false, serves := i }
    ((s1.bump BST.SWAPS).showUnits k).workMoved k f i

/-- Steps 5 and 6 of R459, and the outcomes of R460. -/
def State.testEnd (s : State) (r : TestRun) (o : TestOut) : State :=
  let k := r.kind
  let i := r.index
  let logic := r.mode = 0 ∨ r.mode = 2
  let s1 := (s.bump BST.MEM_REPAIRED o.repaired).bump BST.MEM_FAILS o.memFails
  let s2 := if logic then (s1.setN BST.APPLIED o.applied).set64 BST.MISR_LO o.misr else s1
  if r.mode = 3 then ((s2.bump BST.RECALS)).testDone r stOK o.done
  else if !o.done ∨ (logic ∧ o.applied ≠ r.patterns) then
    let s3 := (s2.unfence k i).reinitUnit k i
    (if r.moved then s3.workBack k i else s3).testDone r stINCOMPLETE o.done
  else if o.memFails ≠ 0 ∨ (logic ∧ !o.sigOk) then s2.testFailed r o.done
  else
    let s3 := (s2.restoreUnit k i).reinitUnit k i
    let s4 := if r.moved && !s3.on BST.CTRL_ROTATE then s3.workBack k i else s3
    (s4.testDone r stOK o.done).settleMode

def execTestComplete (o : TestOut) (t : Nat) (s0 : State) : Host.Outcome State Fault Refusal :=
  let s := s0.advance t
  .next (match s.bst.test with | some r => s.testEnd r o | none => s)

/-- The unit's domain left Run, or Lockdown was entered (R460): the unit is re-initialised untested. How many patterns a logic
test had applied is a free value. -/
def State.testAbort (s : State) : State :=
  match s.bst.test with
  | none => s
  | some r =>
    let s1 := if r.mode = 3 then s else (s.unfence r.kind r.index).reinitUnit r.kind r.index
    let s2 := if r.mode = 0 ∨ r.mode = 2 then let f := s1.free; f.2.setN BST.APPLIED (f.1 % (r.patterns + 1)) else s1
    s2.testDone r stABORTED false

/-! ### Power-on self-test (R457) -/

def State.allUnits (s : State) : List (Nat × Nat) := (List.range 8).flatMap (fun k => (s.unitsOf k).map (fun i => (k, i)))

/-- Every unit of `l` has had one more test. -/
def State.countTests (s : State) (l : List (Nat × Nat)) : State :=
  (l.foldl (fun t x => t.setUnit x.1 x.2 { t.unit x.1 x.2 with tests := ((t.unit x.1 x.2).tests + 1) % 65536 }) s).bump BST.TESTS l.length

def execPoweronSelfTest (t : Nat) (s0 : State) : Host.Outcome State Fault Refusal :=
  let s := s0.advance t
  .next (if s.mode ≠ 1 ∨ s.on BST.STAT_RUNNING = true then s
    else ((s.countTests s.allUnits).sticky BST.STICKY_SECRET_CLEAR).setN BST.STAT (1 + 2 ^ 16 * 2))

/-- A unit that failed: unusable, its work on a free spare where there is one. -/
def State.selfFail (s : State) (x : Nat × Nat) : State :=
  let w := (s.unit x.1 x.2).serves
  let f := s.failUnit x.1 x.2
  let s1 := if f.2 && !(s.unit x.1 x.2).idle then f.1.workMoved x.1 x.2 w else f.1
  (s1.unitDead x.1 x.2 f.2).bump BST.FAILS

/-! ### JTAG (R456) -/

/-- An instruction decoded in every mode, or else only in Factory-test. -/
def State.jtagLoad (s : State) (j : JtagSel) (always : Bool) : State :=
  s.setBst (fun b => { b with jtag := if always || s.mode == 11 then j else .bypass })

def execJtagIdcode (t : Nat) (s : State) : Host.Outcome State Fault Refusal := .next ((s.advance t).jtagLoad .idcode true)
def execJtagBypass (t : Nat) (s : State) : Host.Outcome State Fault Refusal := .next ((s.advance t).jtagLoad .bypass true)
def execJtagSamplePreload (t : Nat) (s : State) : Host.Outcome State Fault Refusal := .next ((s.advance t).jtagLoad .sample true)
def execJtagExtest (t : Nat) (s : State) : Host.Outcome State Fault Refusal := .next ((s.advance t).jtagLoad .extest false)
def execJtagIntest (t : Nat) (s : State) : Host.Outcome State Fault Refusal := .next ((s.advance t).jtagLoad .intest false)

/-! ### Commit group BST (R467) and the selected unit -/

def State.bstApply (s : State) : State := s.applyShadows .bst

/-- `BST.UNIT_STAT`. -/
def State.unitStat (s : State) : Nat :=
  let k := s.rd BST.UNIT_SEL_KIND
  let i := s.rd BST.UNIT_SEL_INDEX
  if !unitPresent s.variant k i then 0
  else
    let u := s.unit k i
    (if u.unusable then 3 else if u.fenced then 2 else if u.idle then 1 else 0) + 2 ^ 2 + 2 ^ 8 * (u.serves % 64) + 2 ^ 16 * u.tests

end Sys2Proof.Machine
end

