-- ==== Sys2Proof/Machine/Pwr.lean ====
section
/-! DEFINITION. PWR: the consent protocol (R440, R441), Keep-alive (R442 to R445, R448), what domains lose and how they wake
(R439, R446, R447), Doze (R438), `PWR.DOM_REQ` (R449), rails and temperature (R490, R493), commit group PWR (R451), and the
entry to Lockdown (R67). -/

namespace Sys2Proof.Machine

def State.setPwr (s : State) (f : PwrS → PwrS) : State := { s with pwr := f s.pwr }

/-! ### What a stopped domain loses (R49, R390, R439) -/

/-- The registers of a block back at their after-reset values. -/
def State.dropBlock (s : State) (b : Blk) : State :=
  let keep := fun (e : Nat × Word) => decide (2 ^ 32 ≤ e.1) || blkAt e.1 != some b
  ({ s with regs := s.regs.filter keep, shadow := s.shadow.filter keep }).wr ⟨PMC.ALARM_SUM, b.target, 1⟩ 0

/-- The tables of a block back at their after-reset values: keys from `lo` up to `hi`. -/
def State.dropTable (s : State) (lo hi : Nat) : State :=
  let keep := fun (e : Nat × Word) => decide (e.1 < lo) || decide (hi ≤ e.1)
  { s with regs := s.regs.filter keep, shadow := s.shadow.filter keep }

/-- Requests, messages and frames of some ports or quads flushed to the Sump; reservations cancelled FLUSH, not rebuilt. -/
def State.flushJobs (s : State) (p : Job → Bool) : State :=
  let s1 := s.cancelWhere p caFLUSH
  (s1.rsp.jobs.filter p).foldl (fun t j => match t.findJob j.id with | some x => t.sumpJob x 0x1E | none => t) s1
def State.flushTx (s : State) (p : TxFrame → Bool) : State :=
  (s.prt.tx.filter p).foldl (fun t f => t.dropTx f stABORTED 0x1E) s

/-- Entries of a queue that are stamps or events flushed to the Sump. -/
def State.flushQueue (s : State) (n : Nat) (c : SClass) (tgt : Nat) : State :=
  let k := s.qOcc n
  (s.qTake n k).sump 0x1E c tgt n k

def State.flushTdc (s : State) : State :=
  let s1 := (List.range 16).foldl (fun t c => t.flushQueue (112 + c) .stamp 9) s
  { s1 with tdc := { s1.tdc with q := [] } }
def State.flushGnss (s : State) : State :=
  let s1 := (List.range 9).foldl (fun t g => t.flushQueue (128 + g) .event 8) s
  s1.setGnc (fun g => { g with dumps := [], epochQ := [] })
def State.flushEvents (s : State) : State :=
  let s1 := s.flushQueue 142 .event 18
  { s1 with hif := { s1.hif with evQ := [] } }

/-- The sequencers of a domain. -/
def domSeqs (d : Nat) : List Nat := (List.range 52).filter (fun n => seqDomain n == d)

/-- Whether the program banks are retained (R439). -/
def State.banksKept (s : State) : Bool := bitAt (s.nreg PWR.RET_MASK) 3 && bitAt (s.nreg PWR.RET_MASK) 4 && bitAt (s.nreg PWR.RET_MASK) 5
/-- Any key slot other than slot 0 is VALID (R394). -/
def State.keysHeld (s : State) : Bool := s.key.slots.any (fun e => e.1 != 0 && e.2.valid)

/-- What domain `d` loses as it enters state `st` (2 Retain, 3 Off). -/
def State.loseDomain (s : State) (d st : Nat) : State :=
  let s1 := (domSeqs d).foldl (fun t n => t.sqPowerDown n (st == 2 && t.banksKept)) s
  if d < 32 then s1
  else if d < 36 then
    let q := d - 32
    let g := s1.variant.grants
    let s2 := { s1 with ptp := { s1.ptp with grants := s1.ptp.grants.filter (fun e => e.1 / g != q) },
                        rsp := { s1.rsp with buckets := s1.rsp.buckets.filter (fun e => e.1 / 2 ^ 20 != q) } }
    let s3 := s2.showGrants q
    -- the rule tables are common to the quads: they are lost with the last quad in Run
    if (List.range s.variant.quads).all (fun k => k == q || decide (2 ≤ s.domState (32 + k))) then
      s3.dropTable (Tbl.rspRules.key 0) (Tbl.rspProfiles.key 0)
    else s3
  else
    match d with
    | 36 => { ((s1.dropBlock .gna).dropBlock .gnc).disarm 20 with gna := State.reset.gna, gnc := State.reset.gnc }
    | 37 => { s1.dropBlock .tdc with tdc := State.reset.tdc }
    | 38 => { s1.dropBlock .vid with vid := State.reset.vid }
    | 39 =>
      -- the generations survive (R297), and so do the registers that name them and the counters that keep their IVs unique
      let s2 := { s1.dropBlock .nts with nts := { State.reset.nts with minted := s1.nts.minted, sent := s1.nts.sent, tail := s1.nts.tail } }
      ((s2.setBoth NTS.MK_CFG (s1.nreg NTS.MK_CFG)).setBoth NTS.MK_STAT (s1.nreg NTS.MK_STAT)).showPipes
    | 40 => { s1 with pke := { s1.pke with opmem := [], rows := [] } }
    | _ => s1

/-- Domain `d` stops in state `st`. -/
def State.stopDomain (s : State) (d st : Nat) : State :=
  let s0 := match s.bst.test with | some r => if unitDomain r.kind r.index = d then s.testAbort else s | none => s
  let s1 := (s0.loseDomain d st).wr (domFld d) st
  let s2 := s1.setPwr (fun p => { p with outRaw := Store.put zNat p.outRaw d (s.raw + 1) })
  if st = 2 then (List.range 8).foldl (fun t b =>
    t.wrB (PWR.BANK_STAT_RETAINED b) (bitAt (t.nreg PWR.RET_MASK) b || (b == 6 && t.keysHeld))) s2
  else s2

/-! ### Keep-alive: the domains in order (R442) -/

/-- The entry order: the ports of each quad, the quads, then the others. -/
def State.kaOrder (s : State) : List Nat :=
  [0, 8, 16, 24].filter s.portPresent ++ ((List.range 4).filter s.quadPresent).map (· + 32) ++ [39, 40, 37, 38, 36, 41, 42]

/-- The domains a step of a request moves. -/
def State.members (s : State) (k : SleepKind) (d : Nat) : List Nat :=
  if k = .keepAlive ∧ d < 32 then ((List.range 8).map (· + d)).filter s.portPresent else [d]

/-- The state a step of a request puts a domain in. -/
def State.sleepState (s : State) (k : SleepKind) (d : Nat) : Nat :=
  match k with
  | .port _ => 3
  | .dom _ st => st
  | .keepAlive =>
    if d < 32 then 3 else if d < 36 then 2
    else match d with
      | 36 => 1 | 40 => if s.keysHeld then 2 else 3 | 42 => 2 | _ => 3

/-- A port listens in Keep-alive. -/
def State.listens (s : State) (p : Nat) : Bool :=
  s.on (PRT.CTRL_EN p) && (s.rd (PRT.WAKE_CTRL_PAT_EN p) != 0 || s.on (PRT.WAKE_CTRL_LINK_WAKE p) || s.on (PRT.WAKE_CTRL_ANY_FRAME p))

/-- The totals before entry, journalled (R49). -/
def State.journalTotals (s : State) : State :=
  let sumps := (List.range 32).foldl (fun n r => n + s.reg48 (FAB.SUMP_CNT_LO r) % 2 ^ 48) 0
  s.journal 9 1 (leBytes 1 3 ++ leBytes 6 sumps ++ (List.range 4).flatMap (fun q => leBytes 6 (s.lget .request q).issued))

/-- Prepare (R440 step 1): the domain's blocks stop accepting work and do their entry work. -/
def State.prepare (s : State) (k : SleepKind) (d : Nat) : State :=
  match k with
  | .port _ => s
  | _ =>
    if d < 32 then
      let ps := s.members k d
      (s.flushJobs (fun j => ps.contains j.port)).flushTx (fun f => ps.contains f.port)
    else if d < 36 then s.flushJobs (fun j => j.quad == d - 32)
    else
      match d with
      | 36 =>
        let s1 := (s.gnaEnterKa).gncEnterKa
        if k = .keepAlive then s1 else s1.flushGnss
      | 37 => s.flushTdc
      | 38 => (List.range 8).foldl (fun t o => if (t.vout o).running then t.stopVout o else t) s
      | 39 => match s.nts.rot with | some c => s.rotateDone c false | none => s
      | 40 => s.pkAbortIf (fun _ _ => true) 0x1E
      | 41 => s.flsFlush
      | 42 => (s.hifEnterKa.flushEvents).journalTotals
      | _ => s

/-- Enter (R440 step 3). -/
def State.enter (s : State) (k : SleepKind) (d : Nat) : State :=
  (s.members k d).foldl (fun t e =>
    let st := t.sleepState k e
    let t1 := if k = .keepAlive ∧ e < 32 ∧ t.on (PRT.CTRL_EN e) = true ∧ !t.listens e then t.portDrops e else t
    if st < 2 then t1.wr (domFld e) st else t1.stopDomain e st) s

/-! ### Lockdown (R67) -/

/-- Entry to Lockdown: secrets zeroised, NTS stopped, held NTS responses cancelled MODE, NTS requests to the Sump as MODE,
scheduled commands aborted. -/
def State.lockdown (s : State) (cause : Nat) : State :=
  let s1 := s.zeroiseAll
  let s2 := match s1.nts.rot with | some c => s1.rotateDone c false | none => s1
  let s3 := (s2.cancelWhere (fun j => j.nts.isSome) caMODE)
  let s4 := (s3.rsp.jobs.filter (fun j => j.nts.isSome)).foldl (fun t j =>
    match t.findJob j.id with | some x => t.sumpJob x 0x18 | none => t) s3
  let s5 := (List.range s4.variant.quads).foldl (fun t q => if t.on (fencedFld q) then t.setFenced q false else t) s4
  ((s5.abortScheds.testAbort).wr GLB.MAINT_SET_TARGETS 0).setMode 10 cause

/-! ### Completion of requests -/

/-- A mode request completes (R58). -/
def State.modeDone (s : State) (status : Nat) : State :=
  ((s.wr GLB.MODE_STAT_PENDING 0).wr GLB.MODE_STAT_STATUS status).sticky GLB.STICKY_MODE_DONE

/-- `PWR.DOM_REQ` completes (R449). -/
def State.domReqDone (s : State) (status : Nat) : State := (s.wr PWR.DOM_REQ_STATUS status).wr PWR.DOM_REQ_BUSY 0

/-- A Lockdown that waited for the end of a rollback or an exit takes effect. -/
def State.dueLock (s : State) : State :=
  match s.pwr.lock with
  | none => s
  | some c => (s.setPwr (fun p => { p with lock := none })).lockdown c

/-- The rollback is complete (R441). -/
def State.rollbackDone (s : State) (r : SleepReq) (code0 : Nat) : State :=
  let code := if s.pwr.failed then min code0 stWAKE_FAILED else code0
  let s1 := s.setPwr (fun p => { p with sleep := none, failed := false, xoOff := false })
  let s2 := ((s1.wr PWR.SLEEP_STAT_STATE 0).bump PWR.ROLLBACKS)
  let s3 := match r.kind with
    | .keepAlive => (s2.wr GLB.MODE_STAT_BLOCK (s2.rd PWR.SLEEP_STAT_TARGET)).modeDone code
    | .dom _ _ => s2.domReqDone code
    | .port p => s2.idleNow p
  (s3.sticky PWR.STICKY_SLEEP_ABORT).dueLock

/-- Keep-alive is left (R55, R448). -/
def State.exitDone (s : State) : State :=
  let failed := s.pwr.failed
  let q := s.pwr.kaQ + (s.raw - s.pwr.kaRaw)
  let s1 := s.setPwr (fun p => { p with exiting := false, failed := false, xoOff := false, kaQ := q })
  let s2 := (s1.wr PWR.SLEEP_STAT_STATE 0).setMode (if s1.lacksSpare then 5 else 4) 9
  let s3 := (s2.sticky PWR.STICKY_KA_EXIT).setN PWR.KA_SECONDS (q / qSec)
  let s4 := if s3.on GLB.MODE_STAT_PENDING then s3.modeDone (if failed then stWAKE_FAILED else stOK)
    else if failed then s3.wr GLB.MODE_STAT_STATUS stWAKE_FAILED else s3
  s4.dueLock

/-- Every count of the ledger and the Sump restarts at zero (R49); a token that is still held counts as issued. -/
def State.restartLedger (s : State) : State :=
  let held := (s.fab.ledger.filter (fun e => e.2.held != 0)).map (fun e => (e.1, ({ issued := e.2.held, returned := 0, held := e.2.held } : LInst)))
  let s1 := { s with fab := { s.fab with ledger := held, terms := [], copies := [] } }
  (List.range 32).foldl (fun t r => (t.setN (FAB.SUMP_CNT_LO r) 0).wr (FAB.SUMP_CNT_HI_COUNT r) 0) (s1.wr FAB.LEDGER_CTRL_AUDITING 0)

/-! ### Waking one group after another (R441, R448) -/

/-- A domain that Keep-alive left running in bursts is back in full Run. -/
def State.unburst (s : State) : State := if s.domState 36 = 1 then (s.wr (domFld 36) 0).gncLeaveKa else s

/-- The next group whose domains have to be woken; at the end the rollback or the exit completes. -/
def State.nextGroup : Nat → State → State
  | 0, s => s
  | n + 1, s =>
    match s.pwr.chain with
    | [] =>
      let s1 := s.setPwr (fun p => { p with cur := [] })
      match s1.pwr.sleep with
      | some r => match r.rolling with | some c => s1.rollbackDone r c | none => s1
      | none => if s1.pwr.exiting then s1.exitDone else s1
    | g :: rest =>
      let s1 := s.setPwr (fun p => { p with chain := rest, cur := g })
      let s2 := if g.contains 36 then s1.unburst else s1
      let s3 := g.foldl (fun t d => t.startWake d) s2
      let s4 := match g with | d :: _ => s3.wr PWR.SLEEP_STAT_DOMAIN d | [] => s3
      if s4.pwr.wakes.any (fun w => g.contains w.dom) then s4 else s4.nextGroup n

/-- The group in turn has woken: the next one. -/
def State.groupStep (s : State) : State :=
  if s.pwr.cur.isEmpty ∨ s.pwr.wakes.any (fun w => s.pwr.cur.contains w.dom) = true then s
  else s.nextGroup (s.pwr.chain.length + 1)

/-! ### Refusal and rollback (R441) -/

/-- The step at the head of a request refuses. `cause`: 0 refused, 1 TIMEOUT, 2 WAKE, 3 tamper. -/
def State.refuseSleep (s : State) (cause target code : Nat) : State :=
  match s.pwr.sleep with
  | none => s
  | some r =>
    if r.rolling.isSome then s
    else
      let d := r.todo.headD 0
      let s1 := (((s.wr PWR.SLEEP_STAT_REFUSER d).wr PWR.SLEEP_STAT_CAUSE cause).wr PWR.SLEEP_STAT_TARGET target).wr PWR.SLEEP_STAT_STATE 3
      let s2 := if d = 36 then s1.gncLeaveKa else s1
      let s3 := s2.setPwr (fun p => { p with sleep := some { r with rolling := some code },
                                             chain := r.stopped.map (s.members r.kind), failed := false })
      s3.nextGroup (r.stopped.length + 1)

/-! ### Requests (R440) -/

/-- The next step of a request goes into prepare; after the last the request is done. -/
def State.nextSleep (s : State) (r : SleepReq) : State :=
  match r.todo with
  | d :: _ =>
    let s1 := s.setPwr (fun p => { p with sleep := some { r with t0 := s.raw } })
    ((s1.wr PWR.SLEEP_STAT_STATE 1).wr PWR.SLEEP_STAT_DOMAIN d).prepare r.kind d
  | [] =>
    let s1 := (s.setPwr (fun p => { p with sleep := none })).wr PWR.SLEEP_STAT_STATE 0
    match r.kind with
    | .port p =>
      (((s1.wr (PRT.STAT_SLEEPING p) 1).bump PWR.PORT_SLEEPS).stat p 60).sticky (PRT.STICKY_SLEEP p)
    | .dom _ _ => s1.domReqDone stOK
    | .keepAlive =>
      let s2 := ((s1.modeDone stOK).setMode 8 2).setPwr (fun p => { p with kaRaw := s.raw })
      ((s2.bump PWR.KA_ENTRIES).setN PWR.LAST_ENTRY_SEC s2.sec0).sticky PWR.STICKY_KA_ENTER

/-- Keep-alive entry starts (R442, R443, R477). -/
def State.kaStart (s : State) (delta : Int) : State :=
  let s0 := s.freeze fzKA
  let s1 :=
    if s0.on PWR.KA_CFG_XO_OFF && !s0.grottoActive then
      let t := s0.askSwitch delta false
      if t.grottoActive then (t.wr TSC.LO_STAT_XO_READY 0).setPwr (fun p => { p with xoOff := true }) else t
    else s0
  let todo := s1.kaOrder.filter (fun d => (s1.members .keepAlive d).any (fun e => decide (s1.domState e < 2)))
  s1.nextSleep ⟨.keepAlive, todo, [], s1.raw, none⟩

/-- Whether a sleep or a wake runs (R449, R451). -/
def State.pwrBusy (s : State) : Bool := s.pwr.sleep.isSome || !s.pwr.wakes.isEmpty || s.pwr.exiting

/-- The tokens a port holds (R228). -/
def State.portTokens (s : State) (p : Nat) : Bool :=
  s.rsp.jobs.any (fun j => j.port == p) || s.prt.tx.any (fun f => f.port == p)
    || s.qOcc p != 0 || s.qOcc (32 + p) != 0 || s.qOcc (64 + p) != 0

/-- The block of a domain that refuses for a reason of its own (R441). -/
def State.ownRefusal (s : State) (k : SleepKind) (d : Nat) : Option Nat :=
  match k with
  | .port p => if s.portTokens p then some 12 else none
  | _ => if d = 42 ∧ s.bst.test.isSome = true then some 22 else none

/-- R440, R441: the blocks of the domain in prepare consent, or one of them refuses (`refuse` names its target). The common
domain cannot consent while dispatched commands have not completed (R370). -/
def execDomainConsent (d : Nat) (refuse : Option Nat) (t : Nat) (s0 : State) : Host.Outcome State Fault Refusal :=
  let s := s0.advance t
  .next (match s.pwr.sleep with
    | none => s
    | some r =>
      if r.todo.head? ≠ some d ∨ r.rolling.isSome then s
      else
        match (match refuse with | some b => some b | none => s.ownRefusal r.kind d) with
        | some b => s.refuseSleep 0 b stROLLED_BACK
        | none =>
          if d = 42 ∧ !s.hif.cmdQ.isEmpty then s
          else
            let s1 := (s.wr PWR.SLEEP_STAT_STATE 2).enter r.kind d
            s1.nextSleep { r with todo := r.todo.tail, stopped := d :: r.stopped })

/-- R440 step 2: no answer of block `block` within CONSENT_TO. -/
def execConsentTimeout (d block t : Nat) (s0 : State) : Host.Outcome State Fault Refusal :=
  let s := s0.advance t
  .next (match s.pwr.sleep with
    | none => s
    | some r =>
      if r.todo.head? ≠ some d ∨ r.rolling.isSome ∨ s.raw < r.t0 + s.nreg PWR.CONSENT_TO % 256 * 1000000 * qNs then s
      else s.refuseSleep 1 block stROLLED_BACK)

/-! ### Leaving Keep-alive (R444, R445, R448) -/

/-- A wake source: recorded, and every domain is woken in reverse order. `cause` as `PWR.WAKE_LAST`. -/
def State.startExit (s : State) (cause port : Nat) : State :=
  if s.mode ≠ 8 ∨ s.pwr.exiting then s
  else
    let s1 := s.setN PWR.WAKE_LAST (cause + 2 ^ 8 * port + 2 ^ 16 * (s.sec0 % 65536))
    let s2 := s1.setPwr (fun p => { p with exiting := true, failed := false,
                                           chain := s.kaOrder.reverse.map (s.members .keepAlive) })
    (s2.wr PWR.SLEEP_STAT_STATE 4).nextGroup (s.kaOrder.length + 1)

/-- A wake event of a listening port (R227, R445): it ends Keep-alive, or rolls an entry back with cause WAKE. -/
def State.portWakes (s : State) (p cause : Nat) : State :=
  if s.mode = 8 then s.startExit cause p
  else match s.pwr.sleep with
    | some r => if r.kind = SleepKind.keepAlive then s.refuseSleep 2 12 stROLLED_BACK else s
    | none => s

/-! ### A domain is up (R446, R448) -/

/-- The copy of a kind that the order of R64 takes: preferred, other, golden. -/
def State.bootCopy (s : State) (kind : Nat) : Option Nat :=
  [s.prefers kind, 3 - s.prefers kind, 3].find? (fun c => (s.img kind c).valid && decide (s.minVersion kind ≤ (s.img kind c).version))

/-- A sequencer's program read from a copy of its place's kind. -/
def State.progOf (s : State) (n copy : Nat) : Option ProgImg :=
  let p := placeOf n
  ((parseImages (placeSize p) (s.img (placeKind p) copy).bytes)[n - placeBase p]?).join

/-- After Off the active bank is reloaded from Flowstone, and the idle bank reads IDLE_OK 0 (R390). -/
def State.sqReload (s : State) (n : Nat) : State :=
  let x := s.sq n
  if x.st ≠ .off ∨ !x.active.words.isEmpty then s
  else
    match s.bootCopy (placeKind (placeOf n)) with
    | none => s
    | some c => match s.progOf n c with
      | some i => s.setSq n { x with a := i.bank, b := dBank, bankB := false, idleOk := false }
      | none => s

/-- A retained register found poisoned takes its after-reset value (R470); its granule is counted and recorded (R471). Which
granule of the retained SRAM holds it is a free value. -/
def State.loseReg (s : State) (a : Nat) : State :=
  let f := s.free
  let s1 := (((f.2.bump PMC.ECC_UNCORR).setN PMC.ECC_LAST (26 + 2 ^ 8 * (f.1 % 2 ^ 24))).sticky PMC.STICKY_ECC_UNCORR)
  ((s1.setBoth a (resetReg s.variant a)).sticky PWR.STICKY_RET_ERR).poisonSeen

/-- The retained banks scrubbed at a wake (R471). -/
def State.wakeScrub (s : State) (w : WakeScrub) : State :=
  let s1 := w.corrected.foldl (fun t x => if x.1 < 8 then
    (t.wr (PWR.BANK_STAT_CORRECTED x.1) (min 65535 x.2)).bump PMC.ECC_CORR x.2 else t) s
  w.lost.foldl State.loseReg s1

/-- Access tables that were not retained reload from the boot stage (R37, R439). -/
def State.reloadAcl (s : State) : State :=
  let s1 := s.dropTable (Tbl.aclBase.key 0) (Tbl.leapSec.key 0)
  s1.glb.bootAcl.foldl (fun t e => t.setBoth e.1 e.2) s1

/-- Departures that wait for a port which has just woken keep their whole lead from now on (R249). -/
def State.wakeLeads (s : State) (p : Nat) : State :=
  s.setJobs (s.rsp.jobs.map (fun j =>
    if j.port = p ∧ j.st = .wantSlot then { j with te := max j.te (s.raw + j.lead * qNs) } else j))

/-- What a domain does as it is back in Run. -/
def State.domainUp (s : State) (d : Nat) (keyOk : Bool) : State :=
  let was := s.domState d
  let out := match s.pwr.outRaw.find? (fun e => e.1 == d) with | some e => s.raw + 1 - e.2 | none => 0
  let s1 := (((s.wr (domFld d) 0).wr (domFailed d) 0).bump PWR.WAKES).setPwr (fun p => { p with
    wakes := p.wakes.filter (fun w => w.dom != d), outRaw := p.outRaw.filter (fun e => e.1 != d) })
  let s2 := s1.setFab (fun f => { f with unusable := f.unusable.filter (· != 8192 + d) })
  let s3 := ((List.range 56).filter (fun u => tdDomain u == d)).foldl (fun t u => t.updTd (tdKey u) (fun x => { x with outQ := x.outQ + out })) s2
  let s4 := (domSeqs d).foldl (fun t n => (t.sqReload n).sqPowerUp n) (s3.restartCounters d)
  if d < 32 then (((if s4.on (PRT.STAT_SLEEPING d) then s4.stat d 61 else s4).wr (PRT.STAT_SLEEPING d) 0).idleNow d).wakeLeads d
  else match d with
    | 37 => s4.tdcRun
    | 40 =>
      let s5 := if was = 3 then s4.deriveDevKey keyOk else s4
      s5.pkStartAll
    | 42 =>
      let s5 := if bitAt (s4.nreg PWR.RET_MASK) 6 || s4.keysHeld then s4 else s4.reloadAcl
      if s5.pwr.exiting then s5.restartLedger.restartAllCounters else s5
    | _ => s4

/-- After a wake: a request of `PWR.DOM_REQ` for it is done, Degraded may end, and the next group follows. -/
def State.wakeEnded (s : State) (d status : Nat) : State :=
  let s1 := match s.pwr.sleep with
    | some r => if r.kind = SleepKind.dom d 0 then (s.setPwr (fun p => { p with sleep := none })).domReqDone status else s
    | none => s
  let s2 := if s1.pwr.sleep.isNone && !s1.pwr.exiting && s1.pwr.wakes.isEmpty then s1.wr PWR.SLEEP_STAT_STATE 0 else s1
  s2.settleMode.groupStep

def State.wakeOf (s : State) (d : Nat) : Option Wake := s.pwr.wakes.find? (fun w => w.dom == d)
def State.setWake (s : State) (w : Wake) : State :=
  s.setPwr (fun p => { p with wakes := p.wakes.map (fun x => if x.dom = w.dom then w else x) })

/-! ### The wake steps (R446, R447) -/

/-- Step 1 done. Where no oscillator was switched off at entry, step 2 is done with it. -/
def execWakeRegulatorDone (d t : Nat) (s0 : State) : Host.Outcome State Fault Refusal :=
  let s := s0.advance t
  .next (match s.wakeOf d with
    | some w => if w.step = 1 then s.setWake ⟨d, if s.pwr.xoOff then 2 else 3, false, s.raw⟩ else s
    | none => s)

/-- Step 2 done: XO_IN is ready, and is switched back to per R74. -/
def execWakeOscReady (d : Nat) (delta : Int) (t : Nat) (s0 : State) : Host.Outcome State Fault Refusal :=
  let s := s0.advance t
  .next (match s.wakeOf d with
    | some w =>
      if w.step ≠ 2 then s
      else
        let s1 := ((s.setWake ⟨d, 3, false, s.raw⟩).wr TSC.LO_STAT_XO_READY 1).setPwr (fun p => { p with xoOff := false })
        if s1.grottoActive then s1.switchover delta else s1
    | none => s)

/-- Step 3 done: the domain is in Run. -/
def execWakePllLock (d : Nat) (w : WakeScrub) (t : Nat) (s0 : State) : Host.Outcome State Fault Refusal :=
  let s := s0.advance t
  .next (match s.wakeOf d with
    | some x =>
      if x.step ≠ 3 then s
      else
        let s1 := (s.wakeScrub w).domainUp d w.keyOk
        (if s1.pwr.exiting then s1.setN PWR.KA_POWER_MW w.powerMw else s1).wakeEnded d stOK
    | none => s)

/-- A wake has failed at a step (R446). -/
def State.noteWakeFail (s : State) (d step : Nat) : State :=
  let s1 := (s.bump PWR.WAKE_FAILS).setN PWR.WAKE_FAIL_LAST (d + 2 ^ 8 * step + 2 ^ 16 * (s.sec0 % 65536))
  (s1.setPwr (fun p => { p with failed := true })).sticky PWR.STICKY_WAKE_FAILED

/-- The domain goes to Off (the common domain stays in Retain), reads FAILED, and its blocks are unusable: no spare stands
outside the domain whose work it does. -/
def State.wakeFailed (s : State) (d step : Nat) : State :=
  let st := if d = 42 then 2 else 3
  let s1 := if st = 3 ∧ s.domState d ≠ 3 then s.loseDomain d 3 else s
  let s2 := ((s1.wr (domFld d) st).wr (domFailed d) 1).setPwr (fun p => { p with wakes := p.wakes.filter (fun w => w.dom != d) })
  let s3 := s2.noteWakeFail d step
  let s4 := s3.setFab (fun f => { f with unusable := if f.unusable.contains (8192 + d) then f.unusable else (8192 + d) :: f.unusable })
  let s5 := if d < 32 then (s4.prt.tx.filter (fun f => f.port == d)).foldl (fun t f => t.dropTx f stWAKE_FAILED 0x1B) s4 else s4
  s5.wakeEnded d stWAKE_FAILED

def stepLimitMs (step : Nat) : Nat := match step with | 1 => 2 | 2 => 10 | _ => 5

/-- A step times out: tried once more, then failed. XO_IN failing step 2 leaves the timing clock on the Grotto, and the
domain goes on without it (R447). -/
def execWakeStepTimeout (d t : Nat) (s0 : State) : Host.Outcome State Fault Refusal :=
  let s := s0.advance t
  .next (match s.wakeOf d with
    | some w =>
      if s.raw < w.t0 + stepLimitMs w.step * 1000000 * qNs then s
      else if !w.again then s.setWake { w with again := true, t0 := s.raw }
      else if w.step = 2 then
        let s1 := ((s.noteWakeFail d 2).setPwr (fun p => { p with xoOff := false })).sticky TSC.STICKY_LO_FAIL
        s1.setWake ⟨d, 3, false, s.raw⟩
      else s.wakeFailed d w.step
    | none => s)

/-! ### PWR.DOM_REQ (R449) -/

/-- Whether a domain is in use. -/
def State.domUsed (s : State) (d : Nat) : Bool :=
  if d < 32 then s.on (PRT.CTRL_EN d)
  else if d < 36 then (List.range 8).any (fun k => s.on (PRT.CTRL_EN (8 * (d - 32) + k)))
  else match d with
    | 36 => (List.range 8).any (fun p => s.on (GNA.PORT_CFG_EN p)) || s.on GNC.EPOCH_CFG_EN
    | 37 => (List.range 16).any (fun c => s.on (TDC.CH_CFG_EN c))
    | 38 => (List.range 8).any (fun o => s.on (voEn o)) || s.on VID.GL_CFG_EN
    | 39 => s.validRules.any (fun i => bitsOf (s.ruleWord i 0) 1 2 != 3
      && bitsOf (s.nreg (Tbl.rspProfiles.key (4 * bitsOf (s.ruleWord i 0) 4 6))) 8 2 != 0)
    | 40 => (List.range 4).any (fun w => !(s.pkQ w).isEmpty)
    | _ => true

def State.domReqCode (s : State) (d st : Nat) : Nat :=
  let cur := s.domState d
  lowestCode [
    codeIf (decide (41 ≤ d) || st == 1 || domAbsent s.variant d || (decide (2 ≤ st) && decide (cur < 2) && s.domUsed d)
      || (d == 40 && st == 3 && s.keysHeld)) stREFUSED,
    codeIf s.pwrBusy stBUSY,
    codeIf (!(s.mode == 3 || s.mode == 4 || s.mode == 5 || s.mode == 6)) stMODE_FORBIDS]

def State.domReqGo (s : State) (d st : Nat) : State :=
  let code := s.domReqCode d st
  if code ≠ 0 then
    let s1 := if code = stREFUSED then s.refuseCfg .pwr else s
    if s1.on PWR.DOM_REQ_BUSY then s1.wr PWR.DOM_REQ_STATUS code else s1.domReqDone code
  else
    let s1 := s.wr PWR.DOM_REQ_BUSY 1
    let cur := s1.domState d
    if cur = st ∨ (st = 0 ∧ cur = 1) then (s1.wr (domFld d) st).domReqDone stOK
    else if st = 0 then
      (((s1.wr PWR.SLEEP_STAT_STATE 4).wr PWR.SLEEP_STAT_DOMAIN d).setPwr (fun p =>
        { p with sleep := some ⟨.dom d 0, [], [], s.raw, none⟩ })).startWake d
    else if 2 ≤ cur then ((s1.loseDomain d st).wr (domFld d) st).domReqDone stOK
    else s1.nextSleep ⟨.dom d st, [d], [], s.raw, none⟩

/-- A write of `PWR.DOM_REQ` by master `m`. -/
def execDomReq (m val t : Nat) (s0 : State) : Host.Outcome State Fault Refusal :=
  let s := s0.advance t
  .next (match s.access m PWR.DOM_REQ .write with
    | .granted =>
      let s1 := (s.wr PWR.DOM_REQ_DOMAIN (bitsOf val 0 6)).wr PWR.DOM_REQ_STATE (bitsOf val 8 2)
      if bitAt val 15 then s1.domReqGo (bitsOf val 0 6) (bitsOf val 8 2) else s1
    | .denied => (s.deny m 21 .write).wr PWR.DOM_REQ_STATUS stDENIED
    | _ => s)

/-! ### Doze (R438) -/

/-- Whether a domain holds a token or a queue entry. -/
def State.domHolds (s : State) (d : Nat) : Bool :=
  if d < 32 then s.portTokens d
  else if d < 36 then s.rsp.jobs.any (fun j => j.quad == d - 32)
  else match d with
    | 36 => !s.gna.searches.isEmpty || (List.range 9).any (fun g => s.qOcc (128 + g) != 0)
    | 37 => (List.range 16).any (fun c => s.qOcc (112 + c) != 0)
    | 38 => false
    | 39 => s.nts.rot.isSome || s.rsp.jobs.any (fun j => j.nts.isSome)
    | 40 => (List.range 4).any (fun w => s.qOcc (137 + w) != 0)
    | 41 => s.qOcc 141 != 0
    | _ => s.qOcc 142 != 0 || s.qOcc 143 != 0 || s.fab.ledger.any (fun e => e.1 / 1024 == 3 && e.2.held != 0)

def execDozeEnter (d t : Nat) (s0 : State) : Host.Outcome State Fault Refusal :=
  let s := s0.advance t
  .next (if d < 43 ∧ s.domState d = 0 ∧ domAbsent s.variant d = false ∧ s.domHolds d = false ∧ s.pwrBusy = false then
      s.wr (domFld d) 1 else s)

def execDozeExit (d t : Nat) (s0 : State) : Host.Outcome State Fault Refusal :=
  let s := s0.advance t
  .next (if d < 43 ∧ s.domState d = 1 then s.wr (domFld d) 0 else s)

/-! ### Rails and temperature (R486, R490, R493) -/

/-- The limits of a rail in µV. -/
def State.railRange (s : State) (r : Nat) : Nat × Nat :=
  match r with
  | 0 => (s.nreg PWR.CORE_MV * 1000 - 15000, s.nreg PWR.CORE_MV * 1000 + 15000)
  | 1 => (776000, 824000) | 2 => (727500, 772500) | 3 => (1164000, 1236000) | 4 => (727500, 772500)
  | 5 => (1710000, 1890000) | 6 => (3135000, 3465000) | 7 => (1140000, 1260000) | 8 => (1746000, 1854000)
  | _ => (4750000, 5250000)

/-- Rail `r` measured at `uv` µV: outside its limits it is a fault. -/
def execRailFault (r uv t : Nat) (s0 : State) : Host.Outcome State Fault Refusal :=
  let s := s0.advance t
  .next (if 10 ≤ r then s
    else
      let g := s.railRange r
      let ok := decide (g.1 ≤ uv) && decide (uv ≤ g.2)
      let s1 := (s.setN (PWR.RAIL_MV r) (uv / 1000)).wrB ⟨PWR.RAIL_STAT, r, 1⟩ ok
      if ok then s1 else s1.sticky PWR.STICKY_RAIL_FAULT)

/-- The hottest junction sensor at `mK` thousandths of a degree. -/
def execTempHigh (mK : Int) (t : Nat) (s0 : State) : Host.Outcome State Fault Refusal :=
  let s := s0.advance t
  let s1 := s.setN PWR.TJ (ofSigned 32 mK)
  .next (if ((s1.rd PWR.CTRL_TJ_ALARM : Nat) : Int) * 1000 ≤ mK then s1.sticky PWR.STICKY_TEMP_HIGH else s1)

/-! ### Commit group PWR (R451) -/

def State.pwrValid (s : State) : Bool :=
  let m := s.shadowWord PWR.RET_MASK
  s.shadowWord PWR.CONSENT_TO % 256 != 0 && bitAt m 0 && bitAt m 1 && bitAt m 2 && bitAt m 7 && (bitAt m 6 || !s.keysHeld)
    && decide (s.shd PWR.CTRL_TJ_ALARM ≤ 125)
def State.pwrApply (s : State) : State := s.applyShadows .pwr

/-- `PWR.KA_SECONDS` now. -/
def State.kaSeconds (s : State) : Nat :=
  (s.pwr.kaQ + (if s.mode = 8 then s.raw - s.pwr.kaRaw else 0)) / qSec

end Sys2Proof.Machine
end

