-- ==== Sys2Proof/Machine/Ports.lean ====
section
/-! DEFINITION. Links up and down (R210, R254), frames as they come in (R215, R227, R441), port sleep (R228), commit group PRTn
(R233), and resets of the PCI Express side (R62, R348). -/

namespace Sys2Proof.Machine

/-! ### Links (R210) -/

/-- PCS and FEC lock. On a port whose datapath is stopped this is the link-up transition of R227. -/
def execLinkLock (p t : Nat) (s0 : State) : Host.Outcome State Fault Refusal :=
  let s := s0.advance t
  .next (if 32 ≤ p ∨ !s.portPresent p ∨ (s.mode = 6 ∧ s.maint 12 = true) then s
    else
      let was := s.on (PRT.STAT_PCS_LOCK p)
      let s1 := s.linkLock p
      if !was && s1.on (PRT.STAT_PCS_LOCK p) && s1.on (PRT.WAKE_CTRL_LINK_WAKE p) && decide (2 ≤ s1.domState p)
          && (!s1.kaNow || s1.listens p) then
        (s1.wakePort p 1).portWakes p 1
      else s1)

/-- Loss of lock (`cause` 0) or a local or remote fault (1, 2). A host frame that was being sent is ended: its number and the
bytes that had passed into the PCS (R254, R362). -/
def State.linkDown (s : State) (p cause : Nat) (hostSent : Option (Nat × Nat)) : State :=
  let s1 := if cause = 0 then ((s.wr (PRT.STAT_PCS_LOCK p) 0).wr (PRT.STAT_FEC_LOCK p) 0).wr (PRT.STAT_CAL_VALID p) 0 else s
  let s1f := match cause with
    | 1 => ((s1.wr (PRT.STAT_LOCAL_FAULT p) 1).stat p 57).sticky (PRT.STICKY_LOCAL_FAULT p)
    | 2 => ((s1.wr (PRT.STAT_REMOTE_FAULT p) 1).stat p 58).sticky (PRT.STICKY_REMOTE_FAULT p)
    | _ => s1
  let s2 := ((s1f.setLink p false).wr (PRT.STAT_PREEMPT_ACTIVE p) 0).cancelPort p caLINK
  match hostSent with
  | none => s2
  | some x =>
    match (if s.linkUp p then s2.findTx x.1 else none) with
    | some f =>
      if f.port ≠ p then s2
      else ((s2.freeTx f).sump 0x1B .buffer 18 f.ring 1 f.bytes (f.bytes.length + 4)).txCpl f.ring f.slot f.ndesc f.tag stABORTED
        (min x.2 f.bytes.length) (b2n f.stamp)
    | none => s2

def execLinkDown (p cause : Nat) (hostSent : Option (Nat × Nat)) (t : Nat) (s0 : State) : Host.Outcome State Fault Refusal :=
  let s := s0.advance t
  .next (if p < 32 ∧ s.portPresent p = true then s.linkDown p cause hostSent else s)

/-! ### Frames in (R215, R227) -/

/-- A frame that comes while Keep-alive is being entered: handed over and flushed. -/
def State.flushFrame (s0 : State) (p : Nat) (frame : List Byte) (fcsOk express : Bool) : State :=
  let q := p / 8
  let s := (((s0.issue .request q 1).count 0 1 q).count 1 1 p).stat p 31 (frame.length + 4)
  (if fcsOk then s.goodRx p frame express else s).sumpRequest 0x1E q 12 p frame (frame.length + 4)

/-- A frame on a port that sleeps or listens, and what its wake event starts. -/
def State.sleepFrame (s : State) (p : Nat) (frame : List Byte) (fcsOk : Bool) : State :=
  let r := s.wakeFrame p frame fcsOk
  if r.2 then r.1.portWakes p (r.1.rd (PRT.WAKE_STAT_CAUSE p)) else r.1

def execFrameReceive (p : Nat) (frame : List Byte) (fcsOk express poisoned : Bool) (rawS t : Nat) (s0 : State) :
    Host.Outcome State Fault Refusal :=
  let s := s0.advance t
  .next (if 32 ≤ p ∨ !s.portPresent p ∨ !s.on (PRT.CTRL_EN p) ∨ !s.linkUp p then s
    else if s.mode = 8 ∨ 2 ≤ s.domState p then (if s.kaNow && !s.listens p then s else s.sleepFrame p frame fcsOk)
    else
      match s.pwr.sleep with
      | some r =>
        if r.kind = SleepKind.keepAlive ∧ r.rolling = none then s.flushFrame p frame fcsOk express
        else s.takeFrame p frame fcsOk express poisoned rawS
      | none => s.takeFrame p frame fcsOk express poisoned rawS)

/-! ### Port sleep (R228) -/

/-- The quad's message calendar holds an entry for the port. -/
def State.calHolds (s : State) (p : Nat) : Bool :=
  s.calSources.any (fun x => match s.calInfo x with | some c => c.port == p | none => false)

def execPortSleepEntry (p t : Nat) (s0 : State) : Host.Outcome State Fault Refusal :=
  let s := s0.advance t
  .next (if 32 ≤ p ∨ s.variant ≠ .pyv1616 ∨ !s.on (PRT.CTRL_EN p) ∨ !s.on (PRT.IDLE_CFG_SLEEP_EN p) ∨ 2 ≤ s.domState p
      ∨ s.pwrBusy = true ∨ s.calHolds p = true ∨ s.on (PRT.SYNCE_CFG_ESMC_TX_EN p) = true
      ∨ s.msSince (Store.get zNat s.prt.idleRaw p) < s.rd (PRT.IDLE_CFG_IDLE_MS p) then s
    else s.nextSleep ⟨.port p, [p], [], s.raw, none⟩)

/-- The datapath of a port that was asked to wake is in Run. -/
def execPortWakeComplete (p t : Nat) (s0 : State) : Host.Outcome State Fault Refusal :=
  let s := s0.advance t
  .next (if p < 32 ∧ (s.wakeOf p).isSome = true then (s.domainUp p true).wakeEnded p stOK else s)

/-! ### Commit group PRTn (R233) -/

def State.prtApply (old : State) (p : Nat) : State :=
  let s0 := if old.shadowWord (PRT.TX_DELAY p) ≠ old.nreg (PRT.TX_DELAY p) then old.cancelPort p caCONFLICT else old
  let s1 := s0.applyShadows (.prt p)
  let s2 := if s1.rd (PRT.QUAD_CFG_LAYOUT p) ≠ old.rd (PRT.QUAD_CFG_LAYOUT p) then s1.showFirstLanes p else s1
  let s3 := if old.prtRestarts p || s2.on (PRT.CTRL_EN p) != old.on (PRT.CTRL_EN p) then s2.portDrops p else s2
  let s4 := if s3.on (PRT.STAT_DOWNSHIFTED p) && !s3.on (PRT.IDLE_CFG_DOWN_EN p) then
      (s3.stat p 62 (s3.msSince (Store.get zNat s3.prt.downRaw p))).wr (PRT.STAT_DOWNSHIFTED p) 0 else s3
  (s4.setCalFails p 0).commitPreempt p

/-! ### Function-level resets, PERST# and loss of the link (R62, R348) -/

/-- Every ring of a function goes to DISABLED at once. -/
def State.flrRings (s : State) (f : Nat) : State :=
  (s.hif.rings.filter (fun e => s.owns f e.1)).foldl (fun t e => t.killRing e.1) s

/-- The PCI Express state of a function, reset. -/
def State.flrFn (s : State) (f : Nat) : State :=
  let keep := fun (e : Nat × Bool) => e.1 / 64 != f
  { s.setFn f (dFn f) with hif := { (s.setFn f (dFn f)).hif with msixMask := s.hif.msixMask.filter keep,
                                                                   msixPend := s.hif.msixPend.filter keep } }

def execFlr (f t : Nat) (s0 : State) : Host.Outcome State Fault Refusal :=
  let s := s0.advance t
  .next (if 64 ≤ f then s else (((s.flrRings f).flrFn f).bump HIF.FLR_COUNT).sticky HIF.STICKY_FLR)

/-- The registers of HIF that its reset keeps: STICKY and the counters. -/
def hifKept (a : Nat) : Bool :=
  let o := a - Blk.hif.base
  o == 0x08 || o == 0x40 || (decide (0x48 ≤ o) && decide (o ≤ 0x70)) || o == 0x78

/-- An FLR of every function, and every register of HIF at its reset value but STICKY and the counters. -/
def State.hifReset (s : State) : State :=
  let s1 := s.hif.rings.foldl (fun t e => t.killRing e.1) s
  let tables := fun (a : Nat) => (decide (Tbl.fnCfg.key 0 ≤ a) && decide (a < Tbl.seqWdog.key 0))
    || (decide (Tbl.fnSel.key 0 ≤ a) && decide (a < Tbl.seqSel.key 0))
  let keep := fun (e : Nat × Word) => !tables e.1 && (blkAt e.1 != some .hif || decide (2 ^ 32 ≤ e.1) || hifKept e.1)
  let s2 := { s1 with regs := s1.regs.filter keep, shadow := s1.shadow.filter keep,
                      hif := { s1.hif with fns := [], msixMask := [], msixPend := [] } }
  -- link losses stay counted
  let s3 := s2.wr HIF.LINK_STAT_DOWNS (s.rd HIF.LINK_STAT_DOWNS)
  ((s3.bump HIF.FLR_COUNT).sticky HIF.STICKY_FLR).sticky HIF.STICKY_LINK_DOWN

def execPcieLinkLoss (t : Nat) (s0 : State) : Host.Outcome State Fault Refusal :=
  .next ((s0.advance t).hifReset.bumpF HIF.LINK_STAT_DOWNS)

def execPerst (t : Nat) (s0 : State) : Host.Outcome State Fault Refusal :=
  .next ((s0.advance t).hifReset.wr GLB.RESET_CAUSE_PERST 1)

end Sys2Proof.Machine
end

