-- ==== Sys2Proof/Machine/Steps.lean ====
section
/-! DEFINITION. What a step of a timescale and a change of DSC's state bring about in the blocks that follow them
(R86, R161, R278, R308, R320, R324), and the rows that can bring either. -/

namespace Sys2Proof.Machine

/-- A step of timescale `n` has just been applied to the values of `old`. -/
def State.stepEffects (s old : State) (n : Nat) : State :=
  let s1 :=
    if n = 0 then
      let a := { s with gnc := { s.gnc with stepped := true } }
      ((a.alignLost).bumpF PTP.STAT_GM_TBI).vidStepped
    else s
  (s1.pulsesStepped old).calStepped old n

/-- The effects of a step of timescale 0, if one was made since `old`, and of MUTE_FREE. -/
def State.settled (s old : State) : State :=
  (if s.tsc.steps0 = old.tsc.steps0 then s else s.stepEffects old 0).settleMute

/-- R113: a selector tick, every 1 ms of raw count. -/
def execSelectorTick (rclk : List (Nat × Int)) (t : Nat) (s0 : State) : Host.Outcome State Fault Refusal :=
  let s := s0.advance t
  .next ((((s.tick rclk).settled s).dscEvent 1).count 7 1 0)

/-- R140: `DSC.STEP_CMD`. -/
def execStepCmd (m val t : Nat) (s0 : State) : Host.Outcome State Fault Refusal :=
  let s := s0.advance t
  .next (s.busWrite m 4 DSC.STEP_CMD (fun x => (x.stepCmd val).settled s))

/-- R141: the lock criteria have held for LOCK_TIME. -/
def execLockTimeElapsed (t : Nat) (s0 : State) : Host.Outcome State Fault Refusal :=
  let s := s0.advance t
  .next (if s.dstate = dACQ then s.dscEval.settled s else s)

/-- R141: |e| above 4 × LOCK_PHASE for 10 s. -/
def execUnlockTimeout (t : Nat) (s0 : State) : Host.Outcome State Fault Refusal :=
  let s := s0.advance t
  .next (if s.dstate = dLOCKED then s.dscEval.settled s else s)

/-- R149: each second while the estimator runs. -/
def execEstimatorUpdate (t : Nat) (s0 : State) : Host.Outcome State Fault Refusal :=
  let s1 := s0.advance t
  .next (match s1.dsc.est with
    | none => s1
    | some x =>
      let now := s1.tsNow 0
      let y := { x with integral := x.integral + (s1.theta - x.theta).natAbs * ((now - x.last) / qSec),
                        last := x.last + (now - x.last) / qSec * qSec }
      let s2 := s1.setDsc (fun d => { d with est := some y })
      ((s2.setN DSC.HO_ERR (min (s2.errNum y / errUnit) (2 ^ 32 - 1))).checkBudget).settled s1)

/-- R141: the main-loop sequencer has been faulted for 1 s. -/
def execDscSeqFaultTimeout (t : Nat) (s0 : State) : Host.Outcome State Fault Refusal :=
  let s := s0.advance t
  .next (if s.mainFaulted then s.dscEval.settled s else s)

end Sys2Proof.Machine
end

