-- ==== Sys2Proof/Machine/Commit.lean ====
section
/-! DEFINITION. Commit groups (R16 to R20): what each validates at GO, and what it does at its safe point. -/

namespace Sys2Proof.Machine

/-! ### Commit group FAB (R39) -/

/-- Page numbers of the memories of targets 25 to 27 end here (R34). -/
def lastPage (t : Nat) : Nat := match t with | 25 => 0x17FF | 26 => 0x07FF | 27 => 0x0FFF | _ => 0xFFFFF

/-- A window of the shadow set keeps within its target's pages, or is empty. -/
def State.windowOk (s : State) (t w : Nat) : Bool :=
  let b := s.shadowWord (Tbl.aclBase.key (16 * t + w))
  let l := s.shadowWord (Tbl.aclLimit.key (16 * t + w))
  decide (l < b) || decide (l ≤ lastPage t)

/-- The keys at which a word of the rights table is listed, live or shadow. -/
def State.rightsKeys (s : State) : List Nat :=
  ((s.regs ++ s.shadow).map (·.1)).filter (fun k =>
    decide (Tbl.aclRights.key 0 ≤ k) && decide (k < Tbl.aclRights.key (128 * 16 * 28)))

def State.fabValid (s : State) : Bool :=
  [25, 26, 27].all (fun t => (List.range 16).all (s.windowOk t))
    && s.rightsKeys.all (fun k => (k - Tbl.aclRights.key 0) / 2048 == 19 || !bitAt (s.shadowWord k) 2)
    && (List.range 16).any (fun w =>
      s.shadowWord (Tbl.aclBase.key (16 + w)) == 0 && bitAt (s.shadowWord (Tbl.aclRights.key (128 * (16 + w)))) 1)

/-! ### Commit group TWN (R467) -/

def State.twnValid (s : State) : Bool :=
  let same := s.shd TWN.CTRL_ROLE == s.rd TWN.CTRL_ROLE
    && (List.range 4).all (fun k => s.shadowWord (TWN.PEER_ID k) == s.nreg (TWN.PEER_ID k))
  (s.rd TWN.STAT_LINK != 3 || same) && decide ((toSigned 32 (s.shadowWord TWN.ASYM)).natAbs ≤ 25600000)

/-- The handover that runs is aborted; the engines stay as they are (R465). -/
def State.hoAbort (s : State) (status : Nat) : State :=
  match s.twn.ho with
  | none => s
  | some h =>
    let us := min (2 ^ 23 - 1) ((s.raw - h.t0) / (1000 * qNs))
    let s1 := { s with twn := { s.twn with ho := none } }
    let s2 := (s1.setN TWN.HO_LAST (status + 2 ^ 8 * h.dir + 2 ^ 9 * us)).setN TWN.HO_LAST_SEC s.sec0
    let s3 := s2.wr TWN.STAT_HO_PHASE 0
    match h.cmd with | some c => s3.complete c status 0 | none => s3

/-- The Nirel link goes to `st`, below UP. Leaving UP is recorded, ends mirroring and any handover (R461). -/
def State.nirelDown (s : State) (st : Nat) : State :=
  let was := s.rd TWN.STAT_LINK
  let s1 := s.wr TWN.STAT_LINK st
  if was = 3 then
    let s2 := ((s1.wr TWN.STAT_MIRROR_SYNC 0).wr TWN.STAT_CMP_VALID 0).bump TWN.LINK_DOWNS
    ({ s2 with twn := { s2.twn with bad := true } }.sticky TWN.STICKY_LINK_DOWN).hoAbort stABORTED
  else s1

/-- The group applied; without EN the link is down. -/
def State.twnApply (old : State) : State :=
  let s := old.applyShadows .twn
  if s.on TWN.CTRL_EN then s else s.nirelDown 0

/-! ### All groups -/

/-- Whether field `f` goes from 0 to 1 in the shadow set. -/
def State.enables (s : State) (f : Fld) : Bool := s.shd f != 0 && !s.on f

/-- A commit that enables a block of a domain not in Run is refused (R449). Doze counts as Run: its clocks run on demand
(R437). -/
def State.domainsOk (s : State) (b : Blk) : Bool :=
  let up := fun d => decide (s.domState d < 2)
  match b with
  | .prt p => up p || !s.enables (PRT.CTRL_EN p)
  | .gna => up 36 || !(List.range 8).any (fun p => s.enables (GNA.PORT_CFG_EN p))
  | .gnc => up 36 || !s.enables GNC.EPOCH_CFG_EN
  | .tdc => up 37 || !(List.range 16).any (fun c => s.enables (TDC.CH_CFG_EN c))
  | .vid => up 38 || !((List.range 8).any (fun o => s.enables (voEn o)) || s.enables VID.GL_CFG_EN)
  | .pke => up 40 || (List.range 5).all (fun e => !bitAt (s.shd PKE.CTRL_ENG_EN) e || bitAt (s.rd PKE.CTRL_ENG_EN) e)
  | _ => true

/-- The rules of the block's chapter over the whole shadow set (R18). -/
def State.groupValid (s : State) (b : Blk) : Bool :=
  s.domainsOk b &&
  match b with
  | .glb => false
  | .fab => s.fabValid
  | .tsc => s.tscValid
  | .ref => s.refValid
  | .dsc => s.dscValid
  | .cko => s.ckoValid
  | .grt => false
  | .gna => s.gnaValid
  | .gnc => s.gncValid
  | .tdc => s.tdcOk
  | .evt => s.evtValid
  | .vid => s.vidValid
  | .prt p => s.prtValid p
  | .rsp => s.rspValid
  | .ptp => s.ptpValid
  | .nts => s.ntsValid
  | .pke => s.pkeValid
  | .key => s.keyValid
  | .hif => s.hifValid
  | .seq => s.seqValid
  | .fls => s.flsValid
  | .pwr => s.pwrValid
  | .bst => true
  | .pmc => s.pmcValid
  | .twn => s.twnValid

/-- The shadows take effect, with what follows from that in the block (R17). -/
def State.groupApply (s : State) (b : Blk) : State :=
  match b with
  | .glb => s
  | .fab => s.applyShadows .fab
  | .tsc => s.tscApply
  | .ref => s.refApply
  | .dsc => s.dscApply
  | .cko => s.ckoApply
  | .grt => s
  | .gna => s.gnaApply
  | .gnc => s.gncApply
  | .tdc => s.tdcApply
  | .evt => s.evtApply
  | .vid => s.vidApply
  | .prt p => s.prtApply p
  | .rsp => s.rspApply
  | .ptp => s.ptpApply
  | .nts => s.ntsApply
  | .pke => s.pkeApply
  | .key => s.keyApply
  | .hif => s.hifApply
  | .seq => s.seqApply
  | .fls => s.flsApply
  | .pwr => s.pwrApply
  | .bst => s.bstApply
  | .pmc => s.pmcApply
  | .twn => s.twnApply

/-- Whether the block's safe point is held off by work that runs (R262, R318, R418, R451, R467, R482). -/
def State.groupWaits (s : State) (b : Blk) : Bool :=
  match b with
  | .rsp => s.rsp.draining
  | .evt => s.evtWaits
  | .pke => s.pkeWaits
  | .pwr => s.pwrBusy
  | .pmc => !s.pmc.delivering.isEmpty
  | .bst => s.on BST.STAT_RUNNING
  | _ => false

/-- A write of GO (R18, R19). -/
def State.groupGo (s : State) (b : Blk) : State :=
  if b.commitOff = none then s
  else if s.on (cmPENDING b) then s.refuseCfg b
  else if s.groupValid b then s.wr (cmPENDING b) 1
  else (s.wr (cmREFUSED b) 1).refuseCfg b

/-- A write of DISCARD (R16). -/
def State.groupDiscard (s : State) (b : Blk) : State :=
  if b.commitOff = none ∨ s.on (cmPENDING b) = true then s else s.dropShadows b

/-- A write of a COMMIT register: VIEW is set as written, REFUSED clears where written 1, and DISCARD comes before GO
(R16). -/
def State.commitWrite (s : State) (b : Blk) (val : Nat) : State :=
  let s1 := s.wr (cmVIEW b) (bitsOf val 1 1)
  let s2 := if bitAt val 4 then s1.wr (cmREFUSED b) 0 else s1
  let s3 := if bitAt val 3 then s2.groupDiscard b else s2
  if bitAt val 0 then s3.groupGo b else s3

/-- The safe point of a pending group (R17). Where the block still has to hand the set on (R262, R318), PENDING stays. -/
def State.groupTake (s : State) (b : Blk) : State :=
  if b.commitOff = none ∨ s.on (cmPENDING b) = false ∨ s.groupWaits b = true then s
  else
    let s1 := s.commitDone b (fun x => x.groupApply b)
    match b with
    | .rsp => s1.wr (cmPENDING b) 1
    | .evt => s1.wrB (cmPENDING b) s1.evtWaits
    | .tsc => if s.shd TSC.STEP_CTRL_ARM = 1 then (s1.stepEffects s (s.shd TSC.STEP_CTRL_TS)).settleMute else s1
    | _ => s1.settled s

/-- A write of GO to a COMMIT register by master `m`: the whole register is written, VIEW with 0. -/
def execCommitGo (m : Nat) (b : Blk) (s : State) : Host.Outcome State Fault Refusal :=
  .next (if b.commitOff = none then s else s.busWrite m b.target b.commit (fun x => x.commitWrite b 1))

/-- A write of DISCARD to a COMMIT register by master `m`. -/
def execCommitDiscard (m : Nat) (b : Blk) (s : State) : Host.Outcome State Fault Refusal :=
  .next (if b.commitOff = none then s else s.busWrite m b.target b.commit (fun x => x.commitWrite b 8))

/-- R17: the safe point of a block's commit group. -/
def execCommitTakesEffect (b : Blk) (t : Nat) (s : State) : Host.Outcome State Fault Refusal :=
  .next ((s.advance t).groupTake b)

end Sys2Proof.Machine
end

