-- ==== Sys2Proof/Machine/Twn.lean ====
section
/-! DEFINITION. TWN: the Nirel link (R461), the comparison of the twins (R462, R463), mirroring as the standby applies it
(R464), handover (R465, R466) and the twin's mode requests (R57). -/

namespace Sys2Proof.Machine

def State.setTwn (s : State) (f : TwnS → TwnS) : State := { s with twn := f s.twn }

/-! ### The link (R461) -/

/-- The lanes lock: the link goes through TRAINING to PAIRING. -/
def execNirelLinkLock (t : Nat) (s0 : State) : Host.Outcome State Fault Refusal :=
  let s := s0.advance t
  .next (if s.on TWN.CTRL_EN ∧ s.rd TWN.STAT_LINK < 2 then s.wr TWN.STAT_LINK 2 else s)

/-- Whether the twin's key hash begins with `TWN.PEER_ID`, word 0 first. -/
def State.peerMatches (s : State) (pub : List Byte) : Bool :=
  (List.range 4).all (fun k => leAt (sha256 pub) (4 * k) 4 == s.nreg (TWN.PEER_ID k))

/-- What the twin's mode says when it is learned: both engines in Service set BOTH_ACTIVE (R466). -/
def State.peerMode (s : State) (m : Nat) : State :=
  let s1 := s.wr TWN.STAT_PEER_MODE m
  if s1.rd TWN.STAT_LINK = 3 ∧ s1.mode = 4 ∧ m = 4 then s1.sticky TWN.STICKY_BOTH_ACTIVE else s1

/-- The identity exchange: the link is UP, or stays in PAIRING. An engine without its own device key proves nothing. -/
def State.pair (s : State) (p : Peer) : State :=
  if s.rd TWN.STAT_LINK ≠ 2 ∨ s.on TWN.CTRL_EN = false then s
  else
    let clash := p.role % 2 == s.rd TWN.CTRL_ROLE
    let bad := !p.proved || !s.peerMatches p.pub
    let s1 := if clash then s.sticky TWN.STICKY_ROLE_CLASH else s
    let s2 := if bad then s1.sticky TWN.STICKY_PEER_BAD else s1
    if clash || bad || !s.on KEY.STAT_DEVKEY_OK then s2
    else
      let s3 := (((s2.wr TWN.STAT_LINK 3).wr TWN.STAT_PEER_ROLE p.role).setN TWN.PEER_SERIAL p.serial).setN TWN.MIRROR_STAT 0
      (s3.sticky TWN.STICKY_LINK_UP).peerMode p.mode

def execNirelPairing (p : Peer) (t : Nat) (s0 : State) : Host.Outcome State Fault Refusal := .next ((s0.advance t).pair p)

/-- A failed pairing is tried again. -/
def execNirelPairingRetry (p : Peer) (t : Nat) (s0 : State) : Host.Outcome State Fault Refusal := .next ((s0.advance t).pair p)

def execNirelLinkDown (t : Nat) (s0 : State) : Host.Outcome State Fault Refusal := .next ((s0.advance t).nirelDown 0)

/-! ### The comparison (R462) -/

def State.comparing (s : State) : Bool := s.on TWN.CTRL_CMP_EN && s.rd TWN.STAT_LINK == 3

/-- A timing frame leaves: its departure is stamped on timescale 0 through CAL_TX. -/
def execTimingFrameTx (t : Nat) (s0 : State) : Host.Outcome State Fault Refusal :=
  let s := s0.advance t
  .next (if s.comparing then
      (s.bump48 TWN.FRAMES_TX_LO).setTwn (fun x => { x with sentT0 := some (s.tsNow 0 + 256 * s.nreg TWN.CAL_TX) })
    else s)

/-- 2φ in q of one exchange: own departure, twin arrival, twin departure, own arrival, and ASYM in 2^-8 ns. -/
def twoPhi (dO aT dT aO asym : Int) : Int := ((aT - dO) - (aO - dT)) - 2 * asym * 256

/-- A timing frame arrives; none where it was received bad. `arrivalRaw` is the raw instant of its arrival. -/
def execTimingFrameRx (frame : Option TimingFrame) (arrivalRaw t : Nat) (s0 : State) : Host.Outcome State Fault Refusal :=
  let s := s0.advance t
  .next (if s.rd TWN.STAT_LINK ≠ 3 then s
    else
      match frame with
      | none => s.bump TWN.CRC_ERRS
      | some f =>
        let s1 := (s.bump48 TWN.FRAMES_RX_LO).setTwn (fun x => { x with peerFree := f.free })
        let s2 := (s1.setN TWN.PEER_QRANK (if f.mode = 4 ∨ f.mode = 5 then f.qrank % 16 else 15)).peerMode f.mode
        match f.arrived, s2.twn.sentT0 with
        | some aT, some dO =>
          if s2.on TWN.CTRL_CMP_EN then
            let aO : Int := (s2.tsAt 0 arrivalRaw : Int) - (256 * s2.nreg TWN.CAL_RX : Nat)
            let p := twoPhi dO aT f.departed aO (s2.sreg TWN.ASYM)
            let rtt : Int := ((aT : Int) - dO) + (aO - f.departed)
            ((s2.setSat TWN.OFFSET (truncDiv p 512)).setSat TWN.RTT (truncDiv rtt 256)).setTwn
              (fun x => { x with sum := x.sum + p, n := x.n + 1 })
          else s2
        | _, _ => s2)

/-- The mean φ of the second goes to the twin slot, or is marked invalid. -/
def execTwinSample (t : Nat) (s0 : State) : Host.Outcome State Fault Refusal :=
  let s := s0.advance t
  let x := s.twn
  let s1 := s.setTwn (fun y => { y with sum := 0, n := 0, bad := false })
  let ok := s.comparing && decide (0 < x.n) && !x.bad && !x.peerFree && s.rd DSC.STATE_STATE != 0
  .next (if !(s.comparing || (s.on TWN.CTRL_CMP_EN && x.bad)) then s1.wr TWN.STAT_CMP_VALID 0
    else
      let s2 := (s1.wrB TWN.STAT_CMP_VALID ok).bump TWN.SAMPLES
      match s2.slotBound 5 0 with
      | some n =>
        let phi := roundDiv x.sum (2 * x.n)
        if ok then s2.measure n ⟨s2.tsNow 0, phi, s2.raw⟩ phi false else s2
      | none => s2)

/-! ### Mirroring (R464) -/

/-- The master number of the twin's accesses. -/
def twinMaster : Nat := 119

/-- The words of a grant entry (R274). -/
def Grant.word (g : Grant) (w : Nat) : Nat :=
  match w with
  | 0 => b2n g.valid + 2 * g.dom + 2 ^ 7 * g.port + 2 ^ 12 * g.transport + 2 ^ 14 * b2n g.tagged + 2 ^ 16 * g.vid
  | 1 => leAt g.clockId 0 4
  | 2 => leAt g.clockId 4 4
  | 3 => g.portNum
  | 4 | 5 | 6 | 7 => leAt g.addr (4 * (w - 4)) 4
  | 8 => leAt g.mac 0 4
  | 9 => leAt g.mac 4 2
  | 10 => ofSigned 8 (g.logs.getD 0 0) + 2 ^ 8 * ofSigned 8 (g.logs.getD 1 0) + 2 ^ 16 * ofSigned 8 (g.logs.getD 2 0) + 2 ^ 24 * g.live
  | 11 => g.exps.getD 0 0 % 2 ^ 32
  | 12 => g.exps.getD 1 0 % 2 ^ 32
  | 13 => g.exps.getD 2 0 % 2 ^ 32
  | 14 => g.seqAnn + 2 ^ 16 * g.seqSync
  | _ => g.phase

/-- A grant entry from its words; expiries lie nearest to the present second `now`. -/
def grantOf (ws : List Nat) (now : Nat) : Grant :=
  let w := fun k => ws.getD k 0
  let by4 := fun (l : List Nat) => l.flatMap (fun k => leBytes 4 (w k))
  let exp := fun k => now / 2 ^ 32 * 2 ^ 32 + w k % 2 ^ 32
  { valid := bitAt (w 0) 0, dom := bitsOf (w 0) 1 6, port := bitsOf (w 0) 7 5, transport := bitsOf (w 0) 12 2,
    tagged := bitAt (w 0) 14, vid := bitsOf (w 0) 16 12, clockId := by4 [1, 2], portNum := w 3 % 65536,
    addr := by4 [4, 5, 6, 7], mac := (by4 [8, 9]).take 6,
    logs := [toSigned 8 (w 10), toSigned 8 (w 10 / 2 ^ 8), toSigned 8 (w 10 / 2 ^ 16)], live := bitsOf (w 10) 24 3,
    exps := [exp 11, exp 12, exp 13], seqAnn := w 14 % 65536, seqSync := bitsOf (w 14) 16 16, phase := bitsOf (w 15) 0 20 }

/-- The row of R464 an item belongs to. -/
def MirrorItem.row : MirrorItem → Nat
  | .timescale .. => 0 | .leapSmear .. => 1 | .history .. => 2 | .config .. => 3 | .grant .. => 4 | .bucket .. => 4
  | .ntsGens .. => 5 | .keySlot .. => 6

/-- What an item's access is checked as: target and page (R34). -/
def MirrorItem.place : MirrorItem → Nat × Nat
  | .timescale .. => (2, 0) | .leapSmear .. => (2, 0) | .history .. => (4, 0) | .config b _ => (b.target, 0)
  | .grant .. => (14, 0) | .bucket .. => (13, 0) | .ntsGens _ _ _ _ ks => (17, keyPage ((ks.map (·.slot)).headD 1))
  | .keySlot k => (17, keyPage k.slot)

/-- Words of a group committed as a whole: no other shadow is taken along, and a set its block refuses changes nothing. -/
def State.mirrorCommit (s : State) (b : Blk) (words : List (Nat × Nat)) : Option State :=
  if s.on (cmPENDING b) || words.any (fun w => groupOf w.1 != b.commit) then none
  else
    let s1 := words.foldl (fun t w => t.setShadow w.1 w.2) (s.dropShadows b)
    if s1.groupValid b then some ((s1.wr (cmPENDING b) 1).groupTake b) else none

/-- A word of `REF.SLOT_CFG` with the slot's own binding kept (R464). -/
def State.keepBinding (s : State) (w : Nat × Nat) : Nat × Nat :=
  match firstIdx 16 (fun n => REF.SLOT_CFG n == w.1) with
  | none => w
  | some n =>
    let f := REF.SLOT_CFG_BIND_TYPE n
    let g := REF.SLOT_CFG_BIND_INDEX n
    (w.1, withBits (withBits w.2 f.lo f.w (s.rd f)) g.lo g.w (s.rd g))

/-- A mirrored key takes its span, whatever stood there, unless a command is writing it. -/
def State.mirrorKey (s : State) (k : MirrorKey) : Option State :=
  let span := spanOf k.material.length
  if k.slot = 0 ∨ 1024 < k.slot + span ∨ s.spanWriting k.slot span = true then none
  else
    let s1 := (List.range span).foldl (fun t i => match t.headOf (k.slot + i) with | some h => t.dropKey h | none => t) s
    some ((s1.setKey k.slot ⟨true, false, typeSecret k.typ, false, k.typ, k.usage, k.curve, span, 3, k.bits, k.owner, k.label,
      k.uses, k.material⟩).bump TWN.KEY_XFERS)

def State.mirrorKeys (s : State) (ks : List MirrorKey) : Option State :=
  ks.foldl (fun a k => match a with | some t => t.mirrorKey k | none => none) (some s)

/-- A history record put in its place, newest first; one already there is kept. -/
def putRec (r : HRec) : List HRec → List HRec
  | [] => [r]
  | x :: l => if x.sec < r.sec then r :: x :: l else if x.sec = r.sec then x :: l else x :: putRec r l

/-- An item applied, if it can be. -/
def State.mirrorApply (s : State) (i : MirrorItem) : Option State :=
  match i with
  | .timescale n ctrl rateLo rateHi bound diff =>
    if n = 0 ∨ 64 ≤ n then none
    else
      let own : Int := (s.tsNow n : Int) - s.tsNow 0
      let r := ofSigned 64 (saturate 64 (diff - own))
      let load := if r = 0 then 0 else 1
      let f := TSC.CTRL_LOAD_TARGET n
      s.mirrorCommit .tsc [(TSC.CTRL n, withBits ctrl f.lo f.w load), (TSC.RATE_LO n, rateLo), (TSC.RATE_HI n, rateHi),
        (TSC.SLEW_BOUND n, bound), (TSC.TARGET_LO n, r), (TSC.TARGET_HI n, r / 2 ^ 32)]
  | .leapSmear ws =>
    if ws.all (fun w => decide (Tbl.leapSec.key 0 ≤ w.1) || (List.range 4).any (fun p => TSC.SMEAR_CFG p == w.1)) then
      s.mirrorCommit .tsc ws
    else none
  | .history rs =>
    let l := rs.foldl (fun h r => putRec ⟨r.1, r.2.1, r.2.2.1, r.2.2.2.1, r.2.2.2.2, 0, false⟩ h) s.dsc.hist
    some (s.setDsc (fun d => { d with hist := l.take 604800 }))
  | .config b ws =>
    match b with
    | .ref => s.mirrorCommit .ref (ws.map s.keepBinding)
    | .dsc => s.mirrorCommit .dsc ws
    | .ptp => s.mirrorCommit .ptp ws
    | .rsp => s.mirrorCommit .rsp ws
    | .nts => s.mirrorCommit .nts ws
    | _ => none
  | .grant idx ws =>
    let q := idx / s.variant.grants
    if s.quadPresent q then some ((s.setGrant idx (grantOf ws s.sec0)).showGrants q) else none
  | .bucket q idx level cls v =>
    if s.quadPresent q ∧ idx < 2 ^ s.variant.bucketsLog2 then some (s.setBucket q idx ⟨level % 2 ^ 24, cls % 16, v, s.unitsNow⟩)
    else none
  | .ntsGens gen cur cv pv ks =>
    if ks.all (fun k => k.slot == s.rd NTS.MK_CFG_SLOT_A || k.slot == s.rd NTS.MK_CFG_SLOT_B) then
      match s.mirrorKeys ks with
      | none => none
      | some s1 =>
        let s2 := if gen = s1.rd NTS.MK_STAT_CUR_GEN then s1 else { s1 with nts := { s1.nts with minted := [] } }
        some ((((s2.wr NTS.MK_STAT_CUR_GEN gen).wr NTS.MK_STAT_CUR_SLOT cur).wrB NTS.MK_STAT_CUR_VALID cv).wrB NTS.MK_STAT_PREV_VALID pv)
    else none
  | .keySlot k => if s.on TWN.CTRL_MIRROR_KEYS then s.mirrorKey k else none

/-- The item failed: it is sent again in full. -/
def State.mirrorFail (s : State) (row : Nat) : State :=
  ((s.bump TWN.MIRROR_ERRS).wr ⟨TWN.MIRROR_STAT, row, 1⟩ 0).sticky TWN.STICKY_MIRROR_ERR

/-- A mirrored item: it is applied only in Twin-standby, as an access of master 119. `inStep` says that its row of R464 is now
complete; `lagUs` is how far the standby is behind. -/
def execMirrorItemReceive (item : MirrorItem) (inStep : Bool) (lagUs t : Nat) (s0 : State) : Host.Outcome State Fault Refusal :=
  let s := s0.advance t
  .next (if s.mode ≠ 7 ∨ s.rd TWN.STAT_LINK ≠ 3 ∨ s.on TWN.CTRL_MIRROR_EN = false then s
    else
      let s1 := s.setN TWN.MIRROR_LAG (min lagUs (2 ^ 32 - 1))
      let p := item.place
      if !s1.granted twinMaster p.1 p.2 .write then (s1.deny twinMaster p.1 .write).mirrorFail item.row
      else
        match s1.mirrorApply item with
        | none => s1.mirrorFail item.row
        | some s2 => s2.wrB ⟨TWN.MIRROR_STAT, item.row, 1⟩ inStep)

/-! ### Handover (R465, R466) -/

/-- Whether this engine and its twin stand as active and mirrored standby; `taking` on the standby. -/
def State.hoModes (s : State) (taking : Bool) : Bool :=
  let p := s.rd TWN.STAT_PEER_MODE
  s.rd TWN.STAT_LINK == 3 && s.on TWN.CTRL_MIRROR_EN
    && (if taking then s.mode == 7 && (p == 4 || p == 5) else (s.mode == 4 || s.mode == 5) && p == 7)

def State.hoCode (s : State) (c : HostCmd) (peerAllows : Bool) : Nat :=
  let dir := c.u 0 1 % 2
  c.code [
    codeIf (decide (2 ≤ c.u 0 1) || !c.zero 1 32 || (dir == 1 && !peerAllows)) stREFUSED,
    codeIf s.twn.ho.isSome stBUSY,
    codeIf (!s.hoModes (dir == 1)) stMODE_FORBIDS]

/-- HANDOVER: on the active engine step 1 runs; on the standby the request goes over the link. -/
def State.handover (s : State) (c : HostCmd) (peerAllows : Bool) : State :=
  let code := s.hoCode c peerAllows
  let dir := c.u 0 1 % 2
  if code ≠ 0 then (if code = stREFUSED then s.refuseCfg .twn else s).complete c code 0
  else
    let s1 := (s.takeCmd c).setTwn (fun x => { x with ho := some ⟨some c, dir, s.raw⟩ })
    if dir = 0 then (s1.setMode 9 2).wr TWN.STAT_HO_PHASE 2 else s1.wr TWN.STAT_HO_PHASE 1

def execHandoverGive (c : HostCmd) (t : Nat) (s0 : State) : Host.Outcome State Fault Refusal :=
  .next ((s0.advance t).handover c true)

/-- `peerAllows`: whether the active engine's TWIN_REQ is 1. -/
def execHandoverTake (c : HostCmd) (peerAllows : Bool) (t : Nat) (s0 : State) : Host.Outcome State Fault Refusal :=
  .next ((s0.advance t).handover c peerAllows)

/-- Steps 2 and 3 on the active engine: no reservation is left, and the final delta of `bytes` bytes with `keys` key slots is
sent. -/
def execHandoverDrainDone (bytes keys t : Nat) (s0 : State) : Host.Outcome State Fault Refusal :=
  let s := s0.advance t
  .next (if s.rd TWN.STAT_HO_PHASE = 2 ∧ s.mode = 9 ∧ s.rsp.jobs.all (fun j => j.st != .held) then
      ((s.bump48 TWN.MIRROR_BYTES_LO bytes).bump TWN.KEY_XFERS keys).wr TWN.STAT_HO_PHASE 3
    else s)

/-- The handover is done on this engine. -/
def State.hoDone (s : State) (act : Bool) : State :=
  (((s.setTwn (fun x => { x with act := act })).bump TWN.HANDOVERS).hoAbort stOK).sticky TWN.STICKY_HANDOVER

/-- Steps 4 and 5: on the active engine the acknowledgement of the final delta arrives; on the standby the final delta has been
applied. -/
def execHandoverDeltaAck (t : Nat) (s0 : State) : Host.Outcome State Fault Refusal :=
  let s := s0.advance t
  .next (if s.rd TWN.STAT_LINK ≠ 3 then s
    else if s.mode = 9 ∧ s.rd TWN.STAT_HO_PHASE = 3 then
      ((s.wr TWN.STAT_MIRROR_SYNC 1).setMode 7 3).hoDone false
    else if s.mode = 7 ∧ s.on TWN.CTRL_MIRROR_EN then
      let s1 := (s.setN TWN.PEER_QRANK 15).wr TWN.STAT_PEER_MODE 9
      let s2 := s1.setMode (if s1.lacksSpare then 5 else 4) 3
      let s3 := if s2.twn.ho.isSome then s2 else s2.setTwn (fun x => { x with ho := some ⟨none, 0, s.raw⟩ })
      s3.hoDone true
    else s)

/-! ### The twin's requests (R57) -/

/-- The twin asks for Quiesce or, as its DIR 1, for a handover. -/
def execTwinModeRequest (handover : Bool) (t : Nat) (s0 : State) : Host.Outcome State Fault Refusal :=
  let s := s0.advance t
  .next (if s.on GLB.POLICY_TWIN_REQ = false ∨ s.rd TWN.STAT_LINK ≠ 3 then s
    else if handover then
      if s.hoModes false ∧ s.twn.ho = none then
        ((s.setTwn (fun x => { x with ho := some ⟨none, 1, s.raw⟩ })).setMode 9 3).wr TWN.STAT_HO_PHASE 2
      else s
    else if s.mode = 4 ∨ s.mode = 5 then s.setMode 9 3 else s)

end Sys2Proof.Machine
end

