-- ==== Sys2Proof/Machine/Modes.lean ====
section
/-! DEFINITION. GLB: mode requests (R55 to R58, R68), tamper and policy (R506), power-on reset (R59, R60, R66), Boot (R63 to
R65) and warm reset (R61, R507). -/

namespace Sys2Proof.Machine

/-! ### Tamper and policy (R444, R506) -/

/-- A tamper event: secrets zeroised and Lockdown, after Keep-alive has been left or its entry rolled back; in Boot and Self-test
it is recorded. In Lockdown itself the secrets are zeroised again and the mode stays. -/
def State.tamperNow (s : State) : State :=
  let s1 := s.sticky GLB.STICKY_TAMPER
  match s1.mode with
  | 0 | 1 => { s1 with glb := { s1.glb with tampered := true } }
  | 11 => s1
  | 10 => s1.zeroiseAll
  | 8 => ((s1.zeroiseAll).setPwr (fun p => { p with lock := some 8 })).startExit 4 0
  | _ =>
    match s1.pwr.sleep with
    | some r =>
      if r.kind = SleepKind.keepAlive then ((s1.zeroiseAll).setPwr (fun p => { p with lock := some 8 })).refuseSleep 3 0 stABORTED
      else s1.lockdown 8
    | none => s1.lockdown 8

/-- The inputs that are enabled and at their active level. -/
def State.tamperActive (s : State) : Nat :=
  (List.range 4).foldl (fun m i =>
    if bitAt (s.rd GLB.POLICY_TAMPER_EN) i && bitAt s.glb.tamper i == bitAt (s.rd GLB.POLICY_TAMPER_POL) i then m + 2 ^ i else m) 0

/-- The level of a TAMPER ball. -/
def State.setBall (s : State) (ball : Nat) (level : Bool) : State :=
  { s with glb := { s.glb with tamper := withBits s.glb.tamper ball 1 (b2n level) } }

/-- A TAMPER ball goes to its active level. -/
def execTamperEvent (ball t : Nat) (s0 : State) : Host.Outcome State Fault Refusal :=
  let s := s0.advance t
  .next (if 4 ≤ ball then s
    else
      let s1 := s.setBall ball (bitAt (s.rd GLB.POLICY_TAMPER_POL) ball)
      if bitAt s1.tamperActive ball && !bitAt s.tamperActive ball then s1.tamperNow else s1)

/-- A TAMPER ball returns to its inactive level. -/
def execTamperRelease (ball t : Nat) (s0 : State) : Host.Outcome State Fault Refusal :=
  let s := s0.advance t
  .next (if 4 ≤ ball then s else s.setBall ball (!bitAt (s.rd GLB.POLICY_TAMPER_POL) ball))

/-- A granted write of `GLB.POLICY`. -/
def State.policyWrite (s : State) (val : Nat) : State :=
  if s.mode ≠ 3 then s.refuseCfg .glb
  else
    let s1 := { s.setN GLB.POLICY (val % 1024) with glb := { s.glb with policySet := true } }
    if (List.range 4).any (fun i => bitAt s1.tamperActive i && !bitAt s.tamperActive i) then s1.tamperNow else s1

def execPolicyWrite (m val t : Nat) (s0 : State) : Host.Outcome State Fault Refusal :=
  .next ((s0.advance t).busWrite m 0 GLB.POLICY (fun x => x.policyWrite val))

/-! ### Mode requests (R55, R58, R68) -/

/-- A request that is not taken, with its code. -/
def State.modeFail (s : State) (code : Nat) : State :=
  (if code = stREFUSED then s.refuseCfg .glb else s).modeDone code

/-- The preconditions of R68 hold. -/
def State.mayServe (s : State) : Bool :=
  !s.on GLB.STICKY_CORE_FAIL
    && ([Blk.fab, .tsc, .ref, .dsc, .cko, .gna, .gnc, .tdc, .evt, .vid, .rsp, .ptp, .nts, .pke, .key, .hif, .seq, .fls, .pwr, .bst,
        .pmc, .twn] ++ (List.range 32).map Blk.prt).all (fun b => !s.on (cmPENDING b))
    && s.rd (cmCOUNT .fab) != 0 && s.glb.policySet

/-- The mode of service: Service, or Degraded where a block lacks a spare. -/
def State.serviceMode (s : State) : Nat := if s.lacksSpare then 5 else 4

def State.reqService (s : State) : State :=
  match s.mode with
  | 3 => if s.mayServe then (s.setMode s.serviceMode 2).modeDone stOK else s.modeFail stMODE_FORBIDS
  | 7 => (s.setMode s.serviceMode 2).modeDone stOK
  | 9 => (((s.hoAbort stABORTED).setMode s.serviceMode 2)).modeDone stOK
  | 8 => (s.wr GLB.MODE_STAT_PENDING 1).startExit 3 0
  | _ => s.modeFail stREFUSED

/-- A block is fenced: of target 12 the ports stop. -/
def State.fenceBlock (s : State) (b : Nat) : State :=
  let s1 := s.wr ⟨GLB.MAINT_SET, b, 1⟩ 1
  if b = 12 then
    (List.range 32).foldl (fun t p => if t.portPresent p ∧ t.on (PRT.CTRL_EN p) = true then t.portDrops p else t) s1
  else s1

/-- A block is unfenced: quads fenced while target 13 was in Maintenance serve again. -/
def State.unfenceBlock (s : State) (b : Nat) : State :=
  let s1 := s.wr ⟨GLB.MAINT_SET, b, 1⟩ 0
  if b = 13 then (List.range 4).foldl (fun t q => if t.on (fencedFld q) then t.setFenced q false else t) s1 else s1

def State.reqMaintenance (s : State) (b : Nat) : State :=
  if 24 < b then s.modeFail stREFUSED
  else match s.mode with
    | 4 | 5 => ((s.fenceBlock b).setMode 6 2).modeDone stOK
    | 6 => (if s.maint b then s else s.fenceBlock b).modeDone stOK
    | _ => s.modeFail stREFUSED

def State.reqRelease (s : State) (b : Nat) : State :=
  if s.mode = 6 ∧ b ≤ 24 ∧ s.maint b = true then
    let s1 := s.unfenceBlock b
    (if s1.nreg GLB.MAINT_SET = 0 then s1.setMode s1.serviceMode 10 else s1).modeDone stOK
  else s.modeFail stREFUSED

def State.reqKeepAlive (s : State) (delta : Int) : State :=
  if s.mode ≠ 4 ∧ s.mode ≠ 5 then s.modeFail stREFUSED
  else if s.pwrBusy then s.modeFail stBUSY
  else (s.wr GLB.MODE_STAT_PENDING 1).kaStart delta

def State.reqLockdown (s : State) : State :=
  match s.mode with
  | 0 | 1 | 11 => s.modeFail stREFUSED
  | 10 => (s.zeroiseAll).modeDone stOK
  | 8 => (((s.zeroiseAll).setPwr (fun p => { p with lock := some 2 })).wr GLB.MODE_STAT_PENDING 1).startExit 3 0
  | _ => (s.lockdown 2).modeDone stOK

/-- GO of `GLB.MODE_REQ`. While a request is pending another completes BUSY, but a Lockdown request rolls a Keep-alive entry
back (R441). -/
def State.modeGo (s : State) (target block : Nat) (release : Bool) (delta : Int) : State :=
  let entering := match s.pwr.sleep with | some r => r.kind == SleepKind.keepAlive | none => false
  if target = 10 ∧ entering = true then (s.setPwr (fun p => { p with lock := some 2 })).refuseSleep 3 0 stABORTED
  else if s.on GLB.MODE_STAT_PENDING then (s.wr GLB.MODE_STAT_STATUS stBUSY).sticky GLB.STICKY_MODE_DONE
  else
    match target with
    | 3 => if s.mode = 7 then ((s.wr TWN.STAT_MIRROR_SYNC 0).setMode 3 2).modeDone stOK else s.modeFail stREFUSED
    | 4 => s.reqService
    | 6 => if release then s.reqRelease block else s.reqMaintenance block
    | 7 =>
      if s.mode = 3 ∧ s.rd TWN.STAT_LINK = 3 then ((s.setN TWN.MIRROR_STAT 0).setMode 7 2).modeDone stOK else s.modeFail stREFUSED
    | 8 => s.reqKeepAlive delta
    | 9 => if s.mode = 4 ∨ s.mode = 5 then (s.setMode 9 2).modeDone stOK else s.modeFail stREFUSED
    | 10 => s.reqLockdown
    | _ => s.modeFail stREFUSED

/-- A granted write of `GLB.MODE_REQ`. -/
def State.modeReqWrite (s : State) (val : Nat) (delta : Int) : State :=
  let s1 := s.setN GLB.MODE_REQ (val &&& 0x3F0F)
  if bitAt val 31 then s1.modeGo (bitsOf val 0 4) (bitsOf val 8 5) (bitAt val 13) delta else s1

/-- A write of `GLB.MODE_REQ` by master `m` with GO. -/
def State.modeReq (s : State) (m val : Nat) (delta : Int) : State :=
  s.busWrite m 0 GLB.MODE_REQ (fun x => x.modeReqWrite (2 ^ 31 + val) delta)

def execModeReqService (m t : Nat) (s : State) : Host.Outcome State Fault Refusal := .next ((s.advance t).modeReq m 4 0)
def execModeReqDegraded (m t : Nat) (s : State) : Host.Outcome State Fault Refusal := .next ((s.advance t).modeReq m 5 0)
def execModeReqMaintenance (m block t : Nat) (s : State) : Host.Outcome State Fault Refusal :=
  .next ((s.advance t).modeReq m (6 + 2 ^ 8 * (block % 32)) 0)
def execModeReqRelease (m block t : Nat) (s : State) : Host.Outcome State Fault Refusal :=
  .next ((s.advance t).modeReq m (6 + 2 ^ 8 * (block % 32) + 2 ^ 13) 0)
def execModeReqQuiesce (m t : Nat) (s : State) : Host.Outcome State Fault Refusal := .next ((s.advance t).modeReq m 9 0)
def execModeReqTwinStandby (m t : Nat) (s : State) : Host.Outcome State Fault Refusal := .next ((s.advance t).modeReq m 7 0)
def execModeReqProvisioning (m t : Nat) (s : State) : Host.Outcome State Fault Refusal := .next ((s.advance t).modeReq m 3 0)
/-- `delta`: as at a switchover of oscillators (R75), which XO_OFF may bring. -/
def execModeReqKeepAlive (m : Nat) (delta : Int) (t : Nat) (s : State) : Host.Outcome State Fault Refusal :=
  .next ((s.advance t).modeReq m 8 delta)
def execModeReqLockdown (m t : Nat) (s : State) : Host.Outcome State Fault Refusal := .next ((s.advance t).modeReq m 10 0)
/-- A target no transition reaches by request. -/
def execModeReqUnreachable (m target t : Nat) (s : State) : Host.Outcome State Fault Refusal :=
  .next ((s.advance t).modeReq m (if target % 16 < 3 ∨ 11 ≤ target % 16 then target % 16 else 0) 0)

/-! ### Power-on reset (R59, R60, R66) -/

/-- Two seeds drawn from the on-chip random source (R240, R271), and the response nonces' draw (R290). -/
def State.drawSeeds (s : State) : State :=
  let a := s.draw
  let b := a.2.draw
  let c := b.2.draw
  let s1 := (c.2.setBoth RSP.LIMIT_SEED a.1).setBoth PTP.HASH_SEED b.1
  { s1 with nts := { s1.nts with tail := s.freeCtr + 2 } }

/-- The registers of FLS that show the medium and keep their values without power. -/
def mediumRegs : List Nat := [FLS.BLOCKS, FLS.SPARE, FLS.WEAR, FLS.BOOTREC]

/-- The last record programmed on the medium. -/
def State.lastDurable (s : State) : Option JBuf := (s.fls.pages.flatMap (·.2)).getLast?

/-- The journal goes on from the last durable record, after a jump in SEQ whose size is left open (R428). -/
def State.journalAfterLoss (s : State) : State :=
  match s.lastDurable with
  | none => s
  | some b =>
    let f := s.free
    ((f.2.set48 FLS.DURABLE_LO b.seq).set64 FLS.CHECK_LO b.check).set48 FLS.SEQ_LO ((b.seq + 2 + f.1) % 2 ^ 48)

/-- The generation journalled at the last rotation (R297). -/
def State.lastGen (s : State) : Nat :=
  match ((s.fls.pages.flatMap (·.2)).reverse).find? (fun b => b.rcd.typ == 12 && b.rcd.src == 15) with
  | some b => leAt b.rcd.body 0 1
  | none => 0

/-- All logic reset. What lies outside it stays: the commands that wait, host memory, the ordering code, the TAMPER balls, the
medium with the mirror of the history, the fused minimum versions, and the hours of the Grotto. -/
def State.powerReset (s : State) : State :=
  let r := State.reset
  let keep := fun (k : Nat) (t : State) => t.setReg k (s.reg k)
  let s1 := { r with
    pending := s.pending, variant := s.variant, freeCtr := s.freeCtr, mem := s.mem,
    glb := { r.glb with tamper := s.glb.tamper },
    dsc := { r.dsc with mirror := s.dsc.mirror },
    grt := { r.grt with readyQ := s.grt.readyQ },
    fls := { s.fls with taken := 0, apps := [], scrubSec := 0, moveRaw := 0 } }
  let s2 := (GRT.RUN_HOURS :: mediumRegs).foldl (fun t k => keep k t) s1
  ((s2.drawSeeds).journalAfterLoss).wr NTS.MK_STAT_CUR_GEN s.lastGen

/-- Power-on reset, and with TEST_EN high and the fuse intact the entry to Factory-test, or to Lockdown. -/
def State.powerOn (s : State) (p : PowerOn) : State :=
  let s1 := ((s.powerReset).setActiveLo p.losel).wrB TSC.LO_CTRL_SEL p.losel
  let s2 := s1.deriveDevKey p.keyOk
  let s3 := if p.coreFail then s2.sticky GLB.STICKY_CORE_FAIL else s2
  if p.test then
    if p.clearOk then (s3.zeroiseAll).setMode 11 0 else s3.lockdown 0
  else s3

/-- R60. -/
def execPowerOnReset (p : PowerOn) (s : State) : Host.Outcome State Fault Refusal := .next (s.powerOn p)

/-! ### Boot (R63 to R65) -/

/-- The kinds in the order of R63. -/
def bootOrder : List Nat := [0, 7, 2, 1, 3, 4, 5, 6]
/-- The place whose sequencers an image kind programs. -/
def kindPlace (k : Nat) : Option Nat := match k with | 4 => some 0 | 3 => some 1 | 2 => some 2 | 5 => some 3 | 6 => some 4 | 1 => some 5 | _ => none

/-- The copies of a kind in the order tried: preferred, other, golden. -/
def State.bootCopies (s : State) (kind : Nat) (x : BootImages) : List (Nat × CopyCheck) :=
  let a := (1, x.a)
  let b := (2, x.b)
  (if s.prefers kind = 2 then [b, a] else [a, b]) ++ [(3, x.golden)]

/-- A copy failed a check of R64. -/
def State.copyFailed (s : State) (kind copy code : Nat) : State :=
  let s1 := (s.wr ⟨GLB.IMAGE_STAT kind, 17 + copy, 1⟩ 1).sticky GLB.STICKY_IMAGE_FAIL
  if s1.rd GLB.BOOT_STAT_FAIL_CODE = 0 then (s1.wr GLB.BOOT_STAT_FAIL_KIND kind).wr GLB.BOOT_STAT_FAIL_CODE code else s1

/-- The first copy that passes, and the state with the failures before it recorded. -/
def State.tryCopies (kind : Nat) : List (Nat × CopyCheck) → State → State × Option (Nat × CopyCheck)
  | [], s => (s, none)
  | c :: r, s =>
    let code := s.copyCode kind c.2
    if code = stOK then (s, some c) else (s.copyFailed kind c.1 code).tryCopies kind r

/-- The medium as the boot ROM finds it. -/
def State.mediumFound (s : State) (m : Medium) : State :=
  let s1 := ((s.wrB FLS.STAT_MEDIUM_OK m.ok).wrB FLS.STAT_NVDDR3 m.nvddr3).wr FLS.STAT_TARGETS m.targets
  (List.range 4).foldl (fun t i => t.setN (FLS.NAND_ID i) (m.id.getD i 0)) s1

/-- A sequencer takes its program: into its active bank where it has none, else what R390 says of a warm reset. The idle banks of
discipline sequencers that run are written where the program differs. -/
def State.bootProg (s : State) (n : Nat) (i : Option ProgImg) : State :=
  let x := s.sq n
  match i with
  | none => s.sqPowerUp n
  | some im =>
    if x.active.words.isEmpty then (s.setSq n { x with a := im.bank, b := dBank, bankB := false, idleOk := false, st := .off }).sqPowerUp n
    else if x.st = .off then s.sqPowerUp n
    else if placeOf n = 2 ∧ ¬(im.bank.progId = x.active.progId ∧ im.bank.version = x.active.version) then s.writeBanks [(n, some im)]
    else s

/-- The discipline sequencers whose idle banks Boot has written swap together, as by ARM = 1, SYNC = 1, INIT = 0 (R390). -/
def State.bootSwap (s old : State) : State :=
  let ns := [40, 41, 42, 43].filter (fun n => (s.sq n).idle != (old.sq n).idle && (s.sq n).active == (old.sq n).active
    && (s.sq n).st != .empty && (s.sq n).st != .off)
  if ns.isEmpty then s else s.setSwaps (s.seq.swaps ++ [⟨ns, ns, true, false, s.raw, none, 0⟩])

/-- What loading a kind does. -/
def State.bootLoaded (s : State) (kind copy : Nat) (c : CopyCheck) (x : BootImages) : State :=
  let s1 := (((s.setImg kind copy ⟨true, c.version % 2 ^ 16, c.bytes⟩).wr (GLB.IMAGE_STAT_VERSION kind) c.version).wr
    (GLB.IMAGE_STAT_SLOT kind) copy)
  let s2 := if copy = 3 then s1.wr GLB.BOOT_STAT_GOLDEN 1 else s1
  if kind = 0 then
    let acl := x.acl.filter (fun e => decide (Tbl.aclBase.key 0 ≤ e.1) && decide (e.1 < Tbl.leapSec.key 0))
    acl.foldl (fun t e => t.setBoth e.1 e.2) { s2 with glb := { s2.glb with bootAcl := acl } }
  else
    match kindPlace kind with
    | none => s2
    | some p =>
      let l := parseImages (placeSize p) c.bytes
      let s3 := (List.range (placeSize p)).foldl (fun t k =>
        if t.seqPresent (placeBase p + k) then t.bootProg (placeBase p + k) ((l[k]?).join) else t) s2
      s3.bootSwap s2

/-- The mode after Boot or Self-test (R55): Lockdown where a tamper event was recorded, else Recovery or Provisioning. -/
def State.afterBoot (s : State) (cause : Nat) : State :=
  if s.glb.tampered then s.lockdown 8
  else s.setMode (if s.on GLB.BOOT_STAT_GOLDEN then 2 else 3) cause

/-- After the last kind: the history reloaded from the mirror where power was lost (R145), DONE, and the next mode. -/
def State.bootDone (s : State) : State :=
  let s1 := if s.dsc.hist.isEmpty then
      s.setDsc (fun d => { d with hist := d.mirror.map (fun r => { r with live := false, lo := 0 }) })
    else s
  let s2 := s1.wr GLB.BOOT_STAT_DONE 1
  if s2.glb.skipBist then s2.afterBoot 4 else s2.setMode 1 4

/-- The next kind in the order of R63 is loaded, or Boot stays with FATAL. -/
def execBootImageLoad (x : BootImages) (t : Nat) (s0 : State) : Host.Outcome State Fault Refusal :=
  let s := s0.advance t
  let k := s.rd GLB.BOOT_STAT_STAGE
  .next (if s.mode ≠ 0 ∨ s.on GLB.BOOT_STAT_FATAL = true ∨ 8 ≤ k then s
    else
      let kind := bootOrder.getD k 0
      let s1 := (if k = 0 then s.mediumFound x.medium else s).wr GLB.BOOT_STAT_STAGE (k + 1)
      match State.tryCopies kind (s1.bootCopies kind x) s1 with
      | (s2, none) => s2.wr GLB.BOOT_STAT_FATAL 1
      | (s2, some c) =>
        let s3 := s2.bootLoaded kind c.1 c.2 x
        if k = 7 then s3.bootDone else s3)

/-- R457: units `again` read INCOMPLETE once and were tested once more. -/
def execSelfTestDone (failed again : List (Nat × Nat)) (repaired ms t : Nat) (s0 : State) : Host.Outcome State Fault Refusal :=
  let s := s0.advance t
  let here := fun (l : List (Nat × Nat)) => l.filter (fun x => decide (x.1 < 8) && unitPresent s.variant x.1 x.2)
  .next (if s.mode ≠ 1 ∨ s.on BST.STAT_RUNNING = false then s
    else
      let s1 := (s.countTests (here again)).bump BST.INCOMPLETES (here again).length
      let s2 := (here failed).foldl State.selfFail s1
      let s3 := ((s2.setN BST.STAT (2 ^ 20)).bump BST.MEM_REPAIRED repaired).setN BST.POWERON_MS ms
      s3.afterBoot 5)

/-! ### Warm reset (R61, R507) -/

/-- What a ring holds of requests and events goes to the Sump as FLUSH; it is then DISABLED, with nothing written. -/
def State.flushRing (s : State) (r : Nat) : State :=
  let x := s.ringOf r
  let s1 := x.cpls.foldl (fun t c => match c.quad with | some q => t.sumpRequest 0x1E q 13 q | none => t) s
  let s2 := s1.sump 0x1E .event 18 r (match x.openBuf with | some b => b.events | none => 0)
  s2.setRing r { x with st := .disabled, posted := [], txd := [], cpls := [], openBuf := none, sigN := 0 }

/-- The jobs of engine queue `w` go to the Sump as FLUSH; slots they had claimed are POISONED (R416). -/
def State.flushPk (s : State) (w : Nat) : State :=
  let js := s.pkQ w
  let s1 := js.foldl (fun t j => match j.claim with
    | some k => t.setKey k { t.keyAt k with writing := false, poisoned := true, material := [] }
    | none => t) s
  let s2 := (s1.sump 0x1E .keytok 16 w js.length).give .keytok w js.length
  (s2.setPkQ w []).qTake (137 + w) js.length

/-- Step 1: everything held outside the timing domain goes to the Sump. No ring is written. -/
def State.warmFlush (s : State) : State :=
  let s1 := s.hif.rings.foldl (fun t e => t.flushRing e.1) s
  let s2 := ((s1.flushJobs (fun _ => true)).flushTx (fun _ => true)).flushTdc.flushGnss.flushEvents
  let n := s2.hif.cmdQ.length
  let s3 := (s2.qTake 143 n).sump 0x1E .credit 18 143 n
  let s4 := (List.range 4).foldl State.flushPk { s3 with hif := { s3.hif with cmdQ := [] } }
  let k := s4.jrn.q.length
  let s5 := (s4.qTake 141 k).sump 0x1E .event 20 141 k
  { s5 with jrn := { s5.jrn with q := [] } }

/-- The blocks a warm reset leaves alone: those of the timing domain (R61), and the ports, whose registers stand in their
islands (R436). -/
def warmKeeps : Blk → Bool
  | .glb | .tsc | .ref | .dsc | .cko | .grt | .evt | .pwr | .prt _ => true
  | _ => false

/-- The words of other blocks that survive: sticky bits (R12), what is kept with the journal and the medium (R435), the twin's
settings (R467), the NTS generations (R297). -/
def warmKept (a : Nat) : Bool :=
  (match blkAt a with | some b => a == b.sticky | none => false)
    || mediumRegs.contains a || a == FLS.CTRL || (decide (FLS.JRN_CFG ≤ a) && decide (a ≤ FLS.CHECK_HI))
    || a == TWN.CTRL || a == TWN.ASYM || (decide (TWN.PEER_ID 0 ≤ a) && decide (a ≤ TWN.PEER_ID 3))
    || a == NTS.MK_CFG || a == NTS.MK_STAT

/-- Whether the word at a key survives a warm reset: a register, or a table word of the leap table, the wake patterns, the delays
of EVT or the watchdogs. -/
def warmKey (k : Nat) : Bool :=
  if k < 2 ^ 32 then (match blkAt k with | some b => warmKeeps b || warmKept k | none => false)
  else (decide (Tbl.leapSec.key 0 ≤ k) && decide (k < Tbl.chData.key 0)) || (decide (Tbl.wakeData.key 0 ≤ k) && decide (k < Tbl.rspRules.key 0))
    || (decide (Tbl.seqWdog.key 0 ≤ k) && decide (k < Tbl.cntCfg.key 0))

/-- The alarm summary over the sticky bits that were kept (R472). -/
def State.showAlarms (s : State) : State :=
  let hot := fun (b : Blk) => s.nreg b.sticky &&& s.nreg b.intEn != 0
  let ports := (List.range 32).foldl (fun m p => if hot (.prt p) then m + 2 ^ p else m) 0
  let sum := ([Blk.glb, .fab, .tsc, .ref, .dsc, .cko, .grt, .gna, .gnc, .tdc, .evt, .vid, .rsp, .ptp, .nts, .pke, .key, .hif, .seq,
    .fls, .pwr, .bst, .pmc, .twn].foldl (fun m b => if hot b then m + 2 ^ b.target else m) 0)
  (s.setN PMC.ALARM_PORTS ports).setN PMC.ALARM_SUM (sum + (if ports = 0 then 0 else 2 ^ 12))

/-- Step 3: the domains reset. Credits of the queues of the timing domain stay held; every other count restarts at zero. -/
def State.warmDomains (s : State) : State :=
  let r := State.reset
  let held := (s.fab.ledger.filter (fun e => decide (Tok.credit.key 144 ≤ e.1) && decide (e.1 < Tok.credit.key 160) && e.2.held != 0)).map
    (fun e => (e.1, ({ issued := e.2.held, returned := 0, held := e.2.held } : LInst)))
  let s1 := (List.range 52).foldl (fun t n => if placeOf n = 2 then t else t.sqPowerDown n true) s
  let s2 := [16, 17, 18, 19, 20, 21, 22].foldl (fun t u => t.disarm u) s1
  let s3 := { s2 with
    regs := s2.regs.filter (fun e => warmKey e.1), shadow := s2.shadow.filter (fun e => warmKey e.1),
    latch := s2.latch.filter (fun e => warmKey (e.1 % 2 ^ 32)), held := s2.held.filter (fun e => warmKey e.1),
    fab := { r.fab with ledger := held }, hif := r.hif, pmc := { r.pmc with tdRaw := s2.raw },
    gna := r.gna, gnc := r.gnc, tdc := r.tdc, vid := r.vid, rsp := r.rsp, ptp := r.ptp,
    nts := { r.nts with minted := s2.nts.minted, sent := s2.nts.sent, tail := s2.nts.tail },
    pke := r.pke, bst := { r.bst with jtag := s2.bst.jtag }, twn := r.twn,
    prt := { s2.prt with tx := [], verify := [], calFails := [] },
    fls := { s2.fls with taken := 0, apps := [] },
    jrn := { s2.jrn with q := [], lost := 0 },
    pwr := { s2.pwr with sleep := none, wakes := [], chain := [], cur := [], exiting := false, failed := false, xoOff := false,
                         lock := none, outRaw := [] },
    seq := { s2.seq with owed := [], sram := s2.seq.sram.filter (fun e => e.1 / 2 ^ 27 == 26) } }
  let s4 := (List.range 6).foldl (fun t k => t.setN (PWR.DOM_STATE k) (domStateReset t.variant k)) s3
  let s5 := ((s4.wr PWR.SLEEP_STAT_STATE 0).wr PWR.DOM_REQ_BUSY 0).setBuf s4.jrn.buf
  let s6 := (List.range 32).foldl (fun t p => if t.portPresent p then t.portDrops p else t) s5
  ((s6.showKeys).drawSeeds).showAlarms

/-- A warm reset. The work in flight is flushed, the ledger and the Sump are journalled into the retained buffer, the domains
reset, and Boot begins. -/
def State.warmReset (s : State) (skipBist keyOk : Bool) : State :=
  -- no command in progress completes
  let s0 := (s.setTwn (fun x => { x with ho := none })).setSwaps (s.seq.swaps.map (fun w => { w with cmd := none }))
  let s1 := (s0.nirelDown 0).warmFlush
  let sumps := (List.range 32).foldl (fun n r => n + s1.reg48 (FAB.SUMP_CNT_LO r) % 2 ^ 48) 0
  let body := leBytes 1 4 ++ leBytes 6 sumps ++ (List.range 4).flatMap (fun q => leBytes 6 (s1.lget .request q).issued)
  let s2 := s1.bufPut ⟨s1.tsNow 0, 9, 1, s1.mode == 8, s1.jrn.lost, fit 34 body⟩
  let s3 := (s2.warmDomains).deriveDevKey keyOk
  let s4 := (List.range 16).foldl (fun t n => t.setN (GLB.IMAGE_STAT n) 0) ((s3.setN GLB.BOOT_STAT 0).setN GLB.MAINT_SET 0)
  let s5 := { s4.wr GLB.RESET_CAUSE_WARM 1 with glb := { s4.glb with policySet := false, skipBist := skipBist, tampered := false, bootAcl := [] } }
  s5.setMode 0 1

/-- A granted write of `GLB.RESET_CTRL`. -/
def State.resetCtrl (s : State) (val : Nat) (keyOk : Bool) : State :=
  if val % 256 ≠ 0xA5 then s.refuseCfg .glb
  else if bitAt val 8 then s.warmReset (bitAt val 9) keyOk else s

/-- `keyOk`: whether the device key derives again (R395). -/
def execWarmReset (m : Nat) (skipBist keyOk : Bool) (t : Nat) (s0 : State) : Host.Outcome State Fault Refusal :=
  .next ((s0.advance t).busWrite m 0 GLB.RESET_CTRL (fun x => x.resetCtrl (0x1A5 + 2 ^ 9 * b2n skipBist) keyOk))

def execResetCtrlWrongKey (m val t : Nat) (s0 : State) : Host.Outcome State Fault Refusal :=
  .next ((s0.advance t).busWrite m 0 GLB.RESET_CTRL (fun x => if val % 256 = 0xA5 then x else x.resetCtrl val true))

end Sys2Proof.Machine
end

