-- ==== Sys2Proof/Machine/Read.lean ====
section
/-! DEFINITION. Reads of registers: what a register shows that a selection or the engine's state gives, the shadows under VIEW
(R11), and the latched higher words of a multi-word value (R14). -/

namespace Sys2Proof.Machine

/-- Whole seconds in a span of raw count, saturating at `top`. -/
def secsSat (q top : Nat) : Nat := min top (q / qSec)

/-- A bit per index below `n`. -/
def maskOfIdx (n : Nat) (p : Nat → Bool) : Nat := (List.range n).foldl (fun m i => if p i then m + 2 ^ i else m) 0

/-- Word `k` of a value. -/
def wordAt (v k : Nat) : Nat := v / 2 ^ (32 * k) % 2 ^ 32

/-! ### FAB, TSC, REF, DSC, GRT -/

/-- The token kind and instance `FAB.LEDGER_SEL` names. -/
def State.lgSel (s : State) : LInst :=
  match tokOf (bitsOf (s.nreg FAB.LEDGER_SEL) 0 3) with
  | some k => s.lget k (bitsOf (s.nreg FAB.LEDGER_SEL) 16 10)
  | none => ⟨0, 0, 0⟩

def State.fabRead (s : State) (a : Nat) : Option Nat :=
  let l := s.lgSel
  let k := bitsOf (s.nreg FAB.LEDGER_SEL) 0 3
  let i := bitsOf (s.nreg FAB.LEDGER_SEL) 16 10
  let t := if k = 0 then Store.get dTerms s.fab.terms i else ⟨0, 0, 0, 0⟩
  let q := s.rd FAB.QUEUE_SEL_QUEUE
  if a = FAB.QUEUE_STAT then some (s.qOcc q + 2 ^ 16 * Store.get zNat s.fab.qHigh q)
  else if a = FAB.LG_ISSUED_LO then some (wordAt l.issued 0)
  else if a = FAB.LG_ISSUED_HI then some (wordAt l.issued 1)
  else if a = FAB.LG_RETURNED_LO then some (wordAt l.returned 0)
  else if a = FAB.LG_RETURNED_HI then some (wordAt l.returned 1)
  else if a = FAB.LG_HELD_LO then some (wordAt l.held 0)
  else if a = FAB.LG_HELD_HI then some (wordAt l.held 1)
  else if a = FAB.RB_RECEIVED_LO then some (if k = 0 then wordAt l.issued 0 else 0)
  else if a = FAB.RB_RECEIVED_HI then some (if k = 0 then wordAt l.issued 1 else 0)
  else if a = FAB.RB_ANSWERED_LO then some (wordAt t.answered 0)
  else if a = FAB.RB_ANSWERED_HI then some (wordAt t.answered 1)
  else if a = FAB.RB_CANCEL_DROP_LO then some (wordAt t.cancelDrop 0)
  else if a = FAB.RB_CANCEL_DROP_HI then some (wordAt t.cancelDrop 1)
  else if a = FAB.RB_TO_HOST_LO then some (wordAt t.toHost 0)
  else if a = FAB.RB_TO_HOST_HI then some (wordAt t.toHost 1)
  else if a = FAB.RB_SUMPED_LO then some (wordAt t.sumped 0)
  else if a = FAB.RB_SUMPED_HI then some (wordAt t.sumped 1)
  else if a = FAB.RB_INFLIGHT then some (if k = 0 then l.held else 0)
  else none

def State.tscRead (s : State) (a : Nat) : Option Nat :=
  if a = TSC.RAW_LO then some (wordAt s.raw 0)
  else if a = TSC.RAW_MID then some (wordAt s.raw 1)
  else if a = TSC.RAW_HI then some (wordAt s.raw 2)
  else if a = TSC.UTC_STAT then some s.utcStat
  else match firstIdx 64 (fun n => a == TSC.STATUS n || a == TSC.REMAIN n) with
    | some n => some ((s.showSlew n).nreg a)
    | none => none

def State.refRead (s : State) (a : Nat) : Option Nat :=
  let st := fun n => s.slotState n
  if a = REF.QUAL_MASK then
    some (maskOfIdx 16 (fun n => st n == slQUALIFIED || st n == slACTIVE) + 2 ^ 16 * maskOfIdx 16 (fun n => st n == slDISPUTED))
  else if a = REF.SLOT_SUMMARY then some (maskOfIdx 16 (fun n => bitsOf (s.nreg (REF.SLOT_STICKY n)) 0 6 != 0))
  else if a = REF.GNSS_STAT then
    some (withBits (s.nreg a) 16 8 (match s.ref.gnssOk with | some t => secsSat (s.tsNow 0 - t) 255 | none => 255))
  else none

/-- Seconds of LOCK_TIME left while the loop acquires (R141). -/
def State.lockLeft (s : State) : Nat :=
  if s.dstate ≠ dACQ then 0
  else
    let lt := s.rd DSC.LOCK_CFG_LOCK_TIME * qSec
    let left := match s.dsc.lockAt with | some t => t + lt - s.tsNow 0 | none => lt
    min 255 ((left + qSec - 1) / qSec)

/-- `DSC.HIST_DATA` (R145): the record of AGE seconds before the newest, or a word of the header of its hour. -/
def State.histData (s : State) : Nat :=
  let sel := s.nreg DSC.HIST_SEL
  match s.dsc.hist with
  | [] => 0
  | n :: _ =>
    match s.dsc.hist.find? (fun r => r.sec + sel % 2 ^ 20 == n.sec) with
    | none => 0
    | some r =>
      if !bitAt sel 20 then r.word
      else
        let hour := s.dsc.hist.filter (fun x => x.hour == r.hour && x.base == r.base)
        match bitsOf sel 21 2 with
        | 0 => wordAt (ofSigned 64 r.base) 0
        | 1 => wordAt (ofSigned 64 r.base) 1
        | 2 => ofSigned 32 (roundDiv (hour.map (·.theta)).sum hour.length)
        | _ => (match hour.getLast? with | some f => f.sec | none => r.sec) % 2 ^ 32

def State.dscRead (s : State) (a : Nat) : Option Nat :=
  if a = DSC.STATE then some (withBits (s.nreg a) 24 8 s.lockLeft)
  else if a = DSC.PULL_REMAIN then some ((s.showSlew 0).nreg (TSC.REMAIN 0))
  else if a = DSC.HIST_DATA then some s.histData
  else if a = DSC.SEQ_STAT then some ((List.range 4).foldl (fun m k => m + 2 ^ (8 * k) * ((s.sq (40 + k)).iter % 256)) 0)
  else none

def State.grtRead (s : State) (a : Nat) : Option Nat :=
  if a = GRT.STATE_TIME then some (secsSat (s.raw - s.grt.stateRaw) (2 ^ 32 - 1))
  else if a = GRT.HEAT_TIME then some (secsSat (s.raw - s.grt.heatRaw) (2 ^ 32 - 1))
  else none

/-! ### GNA, GNC, TDC, EVT, VID -/

def State.gnaRead (s : State) (a : Nat) : Option Nat :=
  if GNA.TICK_SAMPLES_LO ≤ a ∧ a ≤ GNA.TICK_TIME_HI then some (s.tickWord ((a - GNA.TICK_SAMPLES_LO) / 4)) else none

def State.gncRead (s : State) (a : Nat) : Option Nat :=
  match firstIdx 8 (fun g => a == GNC.GSEQ_STAT g) with
  | some g =>
    let cs := ((List.range 48).map (fun i => s.chan (48 * g + i))).filter (fun x => x.st != .idle)
    let q := s.sq (32 + g)
    some (cs.length + 2 ^ 8 * (cs.filter (fun x => bitAt x.locks 1)).length + 2 ^ 14 * b2n (q.st == .faulted)
      + 2 ^ 16 * (q.iter % 256) + 2 ^ 24 * s.rd (GNC.GSEQ_STAT_LATE g))
  | none => none

def State.tdcRead (s : State) (a : Nat) : Option Nat :=
  let anc := (Store.get dTBase s.tdc.bases (s.rd TDC.ANCHOR_CTRL_BASE)).anchor
  if a = TDC.ANCHOR_LO then some (wordAt anc 0)
  else if a = TDC.ANCHOR_MID then some (wordAt anc 1)
  else if a = TDC.ANCHOR_HI then some (wordAt anc 2)
  else if a = TDC.GR_STAT then some s.grStat
  else if a = TDC.CAL_DATA then
    let c := s.nreg TDC.CAL_SEL
    let t := (s.tch (c % 16)).tbl (bitAt c 4)
    some (t.getD (bitsOf c 8 8) 0 % 2 ^ 21 + 2 ^ 31 * b2n (!t.isEmpty))
  else none

def State.evtRead (s : State) (a : Nat) : Option Nat :=
  if EVT.CAP_LAST_LO ≤ a ∧ a ≤ EVT.CAP_LAST_INFO then some (leAt s.capLastSel (a - EVT.CAP_LAST_LO) 4) else none

def State.vidRead (s : State) (a : Nat) : Option Nat :=
  if a = VID.SEQ_STAT then some ((s.sq 48).iter % 256 + 2 ^ 8 * ((s.sq 49).iter % 256) + 2 ^ 16 * bitsOf (s.nreg a) 16 2)
  else if a = VID.WC_EDGES 0 then some (s.wcEdges 6 % 2 ^ 32)
  else if a = VID.WC_EDGES 1 then some (s.wcEdges 7 % 2 ^ 32)
  else none

/-! ### PRT, RSP, PTP, NTS -/

def State.prtRead (s : State) (p a : Nat) : Option Nat :=
  if a = PRT.STATS_LO p then some (wordAt (s.statNow p (s.rd (PRT.STATS_SEL_INDEX p))) 0)
  else if a = PRT.STATS_HI p then some (wordAt (s.statNow p (s.rd (PRT.STATS_SEL_INDEX p))) 1)
  else if a = PRT.LANE_LAT p then
    let c := s.nreg (PRT.LANE_CAL_SEL p)
    some (ofSigned 32 (Store.get (fun _ => 0) s.prt.lat (16 * p + c % 16)))
  else if a = PRT.ESMC_STAT p then
    let e := Store.get zNat s.ref.esmcAt p
    some (withBits (s.nreg a) 16 8 (if e = 0 then 255 else secsSat (s.raw + 1 - e) 255))
  else none

/-- The read-only words of the RSP tables (R238 to R243); none where the word is an ordinary one. -/
def State.rspTable (s : State) : Option Nat :=
  let w := s.rd RSP.TBL_SEL_WORD
  let i := s.rd RSP.TBL_SEL_INDEX
  let q := bitsOf (s.nreg RSP.TBL_SEL) 28 2
  match s.rd RSP.TBL_SEL_TABLE with
  | 0 => if i < 4096 ∧ w = 14 then some (Store.get zNat s.rsp.hits i) else none
  | 1 => if i < 64 ∧ w = 3 then some (Store.get zNat s.rsp.reqs i) else none
  | 2 => if i < 16 ∧ w = 2 then some (if s.quadPresent q then s.emptyHits q i else 0) else none
  | 4 =>
    if !s.quadPresent q ∨ 2 ^ s.variant.bucketsLog2 ≤ i then some 0
    else
      let b := s.bucket q i
      if w = 0 then some (b.level + 2 ^ 24 * b.cls + 2 ^ 28 * b2n b.clsValid) else if w = 1 then some b.stamp else some 0
  | _ => none

def State.rspRead (s : State) (a : Nat) : Option Nat :=
  let iso := fun q => s.fab.isolated.contains (Tok.request.key q)
  if a = RSP.TBL_DATA then s.rspTable
  else if a = RSP.STAT then some (withBits (s.nreg a) 8 4 (maskOfIdx 4 iso))
  else match firstIdx 4 (fun q => a == RSP.Q_STAT q) with
    | some q =>
      let resv := (s.rsp.jobs.filter (fun j => j.quad == q && j.st == .held)).length
      some (bitsOf (s.nreg a) 0 2 + 4 * b2n (iso q) + 2 ^ 8 * resv + 2 ^ 18 * s.sideUsed q)
    | none =>
      match firstIdx 4 (fun q => a == RSP.Q_CANCEL_CNT q) with
      | some q => some (Store.get zNat s.rsp.cancels (16 * q + s.nreg (RSP.Q_CANCEL_SEL q) / 8 % 2 * 8 + s.nreg (RSP.Q_CANCEL_SEL q) % 8))
      | none => none

def State.ptpRead (s : State) (a : Nat) : Option Nat :=
  let live := fun u =>
    let x := s.upq u
    s.on (PTP.UP_CFG_EN u) && x.syncInt != 0 && decide (s.raw ≤ x.syncRaw + 3 * x.syncInt) && decide (s.raw < x.annUntil)
  if a = PTP.STAT then some (withBits (s.nreg a) 24 4 (maskOfIdx 4 live))
  else if a = PTP.UP_SUMMARY then some ((List.range 4).foldl (fun m u => m + 2 ^ (8 * u) * (s.nreg (PTP.UP_STAT u) % 256)) 0)
  else if a = PTP.TBL_DATA ∧ s.rd PTP.TBL_SEL_TABLE = 1 then
    let i := s.rd PTP.TBL_SEL_INDEX
    some (if s.quadPresent (i / s.variant.grants) then (s.grantAt i).word (s.rd PTP.TBL_SEL_WORD) else 0)
  else none

def State.ntsRead (s : State) (a : Nat) : Option Nat :=
  match firstIdx 4 (fun q => a == NTS.Q_STAT q) with
  | some q => some (withBits (s.nreg a) 0 7 (s.qOcc (100 + q)))
  | none => none

/-! ### KEY, HIF, FLS, PWR, PMC -/

/-- A word of a slot's metadata (R397). Every slot of a key shows its key's fields; HEAD is set in the first. -/
def State.slotMeta (s : State) (slot w : Nat) : Nat :=
  match s.headOf slot with
  | none => 0
  | some h =>
    let k := s.keyAt h
    match w with
    | 0 => 1 + 2 * b2n (h == slot) + 4 * b2n k.poisoned + 8 * b2n k.secret + 16 * b2n k.writing + 2 ^ 8 * (k.typ % 16)
        + 2 ^ 12 * (k.usage % 8) + 2 ^ 16 * (k.curve % 16) + 2 ^ 20 * (k.span % 32) + 2 ^ 25 * (k.origin % 4)
    | 1 => k.bits % 2 ^ 14 + 2 ^ 16 * (k.owner % 64)
    | 2 => k.label
    | _ => k.uses

def State.keyRead (s : State) (a : Nat) : Option Nat :=
  if a = KEY.SLOT_META then some (s.slotMeta (s.rd KEY.SLOT_SEL_SLOT) (s.rd KEY.SLOT_SEL_WORD)) else none

def RingSt.code : RingSt → Nat | .disabled => 0 | .enabled => 1 | .draining => 2 | .error => 3

/-- Of the ring and the function the master's own selections name (R347). -/
def State.hifRead (s : State) (m a : Nat) : Option Nat :=
  let f := s.selFn m
  let r := s.selRing m
  let x := s.ringOf r
  if a = HIF.FN_STAT then
    let y := s.fnOf f
    let n := ((List.range (s.ringCount f)).filter (fun i => (s.ringOf (s.ringBase f + i)).st != .disabled)).length
    some (b2n y.bme + 2 * b2n y.msixEn + 4 * b2n y.fnMask + 2 ^ 16 * (n % 1024))
  else if a = HIF.RING_STAT then
    some (x.st.code + (match s.ringOwner r with | some o => 2 ^ 8 * o + 2 ^ 14 | none => 0) + 2 ^ 16 * (s.descHeld r % 2 ^ 16))
  else if a = HIF.RING_IDX then some (x.sqHead % 2 ^ 16 + 2 ^ 16 * (x.cqTail % 2 ^ 16))
  else if a = HIF.RING_DROP then some x.drops
  else if a = HIF.RING_DONE then some (x.writes % 2 ^ 32)
  else none

def State.flsRead (s : State) (a : Nat) : Option Nat :=
  if a = FLS.PART_INFO then some s.partInfo
  else if a = FLS.PART_FREE then some s.partFree
  else if a = FLS.IMG_INFO then some s.imgInfo
  else none

def State.pwrRead (s : State) (a : Nat) : Option Nat :=
  if a = PWR.KA_SECONDS then some (s.kaSeconds % 2 ^ 32)
  else match firstIdx 8 (fun b => a == PWR.BANK_STAT b) with
    | some b => some (withBits (s.nreg a) 1 1 (b2n (decide (b ≤ 2) || b == 7 || (b == 6 && s.keysHeld))))
    | none => none

def State.pmcRead (s : State) (a : Nat) : Option Nat :=
  let c := s.rd PMC.CNT_SEL_INDEX
  let td := fun (i k : Nat) => some (wordAt ((s.tdCounts (s.rd PMC.TD_SEL_UNIT)).getD i 0 % 2 ^ 48) k)
  if a = PMC.CNT_VAL_LO then some (wordAt (s.cntNow c) 0)
  else if a = PMC.CNT_VAL_HI then some (wordAt (s.cntNow c) 1)
  else if a = PMC.CNT_FROZEN_LO then some (wordAt (Store.get zNat s.pmc.frozen c) 0)
  else if a = PMC.CNT_FROZEN_HI then some (wordAt (Store.get zNat s.pmc.frozen c) 1)
  else if a = PMC.TD_RETIRED_LO then td 0 0
  else if a = PMC.TD_RETIRED_HI then td 0 1
  else if a = PMC.TD_WASTED_LO then td 1 0
  else if a = PMC.TD_WASTED_HI then td 1 1
  else if a = PMC.TD_FRONT_LO then td 2 0
  else if a = PMC.TD_FRONT_HI then td 2 1
  else if a = PMC.TD_BACK_LO then td 3 0
  else if a = PMC.TD_BACK_HI then td 3 1
  else if a = PMC.TD_PENDING then td 4 0
  else if a = PMC.CNT_ENABLED then some s.cntEnabled
  else none

/-! ### The value of a register -/

/-- What a selection or the engine's state gives at an address; none for what the bank holds. -/
def State.derived (s : State) (m a : Nat) : Option Nat :=
  match blkAt a with
  | some .fab => s.fabRead a
  | some .tsc => s.tscRead a
  | some .ref => s.refRead a
  | some .dsc => s.dscRead a
  | some .grt => s.grtRead a
  | some .gna => s.gnaRead a
  | some .gnc => s.gncRead a
  | some .tdc => s.tdcRead a
  | some .evt => s.evtRead a
  | some .vid => s.vidRead a
  | some (.prt p) => s.prtRead p a
  | some .rsp => s.rspRead a
  | some .ptp => s.ptpRead a
  | some .nts => s.ntsRead a
  | some .key => s.keyRead a
  | some .hif => s.hifRead m a
  | some .seq => s.seqRead m a
  | some .fls => s.flsRead a
  | some .pwr => s.pwrRead a
  | some .bst => if a = BST.UNIT_STAT then some s.unitStat else none
  | some .pmc => s.pmcRead a
  | _ => none

/-- The current value of a register as master `m` sees it, latches apart (R11, R16): RWS bits are the shadow's under VIEW, GO
of a COMMIT register reads as PENDING. -/
def State.current (s : State) (m a : Nat) : Nat :=
  match blkAt a, rowAt a with
  | some b, some row =>
    match s.derived m a with
    | some v => v
    | none =>
      match s.keyOf m a with
      | none => 0
      | some k =>
        let live := s.nreg k
        if a = b.commit then withBits live 0 1 (bitsOf live 2 1)
        else if b.commitOff.isSome && s.on (cmVIEW b) then
          let rws := row.maskOf .rws
          (live - (live &&& rws)) ||| (s.shadowWord k &&& rws)
        else live
  | _, _ => 0

/-- The key of a latched word (R14). -/
def latchKey (m a : Nat) : Nat := 2 ^ 32 * m + a

def zWord32 : Nat → Word := fun _ => 0

/-- The master has latched the tick registers through `GNA.TICK_SAMPLES_LO`. -/
def State.ticked (s : State) (m : Nat) : Bool := Store.get zWord32 s.latch (latchKey m GNA.TICK_SAMPLES_LO) != 0

/-- What a granted read returns (R11, R14). -/
def State.readWord (s : State) (m a : Nat) : Nat :=
  match rowAt a with
  | none => 0
  | some row =>
    if 0 < row.lead ∨ (a = GNA.TICK_TIME_LO ∧ s.ticked m = true) then (Store.get zWord32 s.latch (latchKey m a)).toNat
    else s.current m a

def State.latchWord (s : State) (m a : Nat) : State :=
  { s with latch := Store.put zWord32 s.latch (latchKey m a) (BitVec.ofNat 32 (s.current m a)) }

/-- The latches a granted read replaces: the higher words of a lowest word; of `GNA.TICK_SAMPLES_LO` the tick's time as well. -/
def State.readLatch (s : State) (m a : Nat) : State :=
  match rowAt a with
  | none => s
  | some row =>
    if row.lead ≠ 0 ∨ row.words < 2 ∨ (a = GNA.TICK_TIME_LO ∧ s.ticked m = true) then s
    else
      let s1 := (List.range (row.words - 1)).foldl (fun t k => t.latchWord m (a + 4 * (k + 1))) s
      if a = GNA.TICK_SAMPLES_LO then
        let s2 := [GNA.TICK_TIME_LO, GNA.TICK_TIME_MID, GNA.TICK_TIME_HI].foldl (fun t b => t.latchWord m b) s1
        { s2 with latch := Store.put zWord32 s2.latch (latchKey m a) 1 }
      else s1

/-- A read of BAR0 by master `m`: its latches, its denial, and what it returns. A read that is not decoded, held back by the mode
or denied returns 0 (R13, R54, R502). -/
def State.busRead (s : State) (m a : Nat) : State × Nat :=
  match s.access m a .read with
  | .granted => (s.readLatch m a, s.readWord m a)
  | .denied => (s.deny m (match blkAt a with | some b => b.target | none => 0) .read, 0)
  | _ => (s, 0)

/-- R14: a read of the lowest word of a multi-word value. -/
def execMultiwordLowRead (m addr : Nat) (s : State) : Host.Outcome State Fault Refusal := .next (s.busRead m addr).1

end Sys2Proof.Machine
end

