-- ==== Sys2Proof/Machine/RegAccess.lean ====
section
/-! DEFINITION. Writes of registers by host and masters: access codes (R11 to R15), the registers whose write starts something
or is held to a rule of its chapter, and partial writes (R503). -/

namespace Sys2Proof.Machine

/-- A free value as a signed number. -/
def State.freeInt (s : State) : Int × State :=
  let r := s.free
  ((if r.1 % 2 = 0 then (r.1 / 2 : Int) else -((r.1 / 2 : Nat) : Int) - 1), r.2)

/-! ### Sticky bits (R12) -/

/-- What else clears with a block's sticky bits: HALF_VALID of a port (R225), VALID of `PMC.HALF_IDX` (R476), VALID of
`FAB.LEDGER_FAULT` (R46). -/
def State.stickyWrite (s : State) (b : Blk) (val recurs : Nat) : State :=
  let s1 := s.clearSticky b val recurs
  match b with
  | .prt p => if bitAt val 7 && !s1.on (PRT.STICKY_STATS_HALF p) then s1.wr (PRT.STATS_SEL_HALF_VALID p) 0 else s1
  | .pmc => if bitAt val 4 && !s1.on PMC.STICKY_HALF then s1.wr ⟨PMC.HALF_IDX, 16, 1⟩ 0 else s1
  | .fab => if bitAt val 2 && !s1.on FAB.STICKY_LEDGER_FAULT then s1.wr FAB.LEDGER_FAULT_VALID 0 else s1
  | _ => s1

/-- R12: a W1C write by master `m`; `recurs` are the bits whose events recur in the same cycle. -/
def execStickyClear (m : Nat) (b : Blk) (val recurs : Nat) (s : State) : Host.Outcome State Fault Refusal :=
  .next (s.busWrite m b.target b.sticky (fun x => x.stickyWrite b val recurs))

/-! ### Registers held to a rule of their chapter -/

/-- The RSP table words that ignore writes: HITS and the word above it, REQS, EMPTY_HITS and the word above it. -/
def State.rspReadOnly (s : State) : Bool :=
  let w := s.rd RSP.TBL_SEL_WORD
  match s.rd RSP.TBL_SEL_TABLE with
  | 0 => decide (14 ≤ w)
  | 1 => w == 3
  | 2 => decide (2 ≤ w)
  | _ => false

/-- A write of `PRT.STATS_CTRL` that its rule refuses. -/
def State.statsCtrlBad (s : State) (val : Nat) : Bool :=
  let k := val % 16
  decide (11 ≤ k) || ((k != 0 || bitAt val 4) && !s.ringIs 0 3 (bitsOf val 8 10))

/-- Bits of a register that this variant or this instance does not take: SLEEP_EN off the PYV-1616, DOWN_EN on it, LAYOUT but
in a quad's first port. -/
def State.fixedBits (s : State) (a : Nat) : Nat :=
  match blkAt a with
  | some (.prt p) =>
    if a = PRT.IDLE_CFG p then
      (if s.variant = .pyv1616 then 2 ^ (PRT.IDLE_CFG_DOWN_EN p).lo else 2 ^ (PRT.IDLE_CFG_SLEEP_EN p).lo)
    else if a = PRT.QUAD_CFG p ∧ p % 8 ≠ 0 then 2 ^ 32 - 1
    else 0
  | _ => 0

/-- Whether an address is one of timescale 0's RATE, TARGET and SLEW_BOUND, which only the steering port writes (R80). -/
def steerReg (a : Nat) : Bool :=
  a == TSC.RATE_LO 0 || a == TSC.RATE_HI 0 || a == TSC.TARGET_LO 0 || a == TSC.TARGET_HI 0 || a == TSC.SLEW_BOUND 0

/-! ### The plain write -/

/-- The RW, W1C and RWS fields of a register written with `val` (R11): RW bits at once, W1C bits cleared, RWS bits to the shadow
unless the group is pending (R19). -/
def State.writeFields (s : State) (b : Blk) (row : RegSpec) (k val : Nat) : State :=
  let rw := row.maskOf .rw
  let w1c := row.maskOf .w1c
  let rws := row.maskOf .rws
  let live := s.nreg k
  let kept := live - (live &&& rw)
  let new := (kept - (kept &&& w1c &&& val)) ||| (val &&& rw)
  let s1 := if rw = 0 ∧ w1c = 0 then s else s.setN k new
  if rws = 0 then s1
  else if s1.on (cmPENDING b) then s1.refuseCfg b
  else
    let fixed := s1.fixedBits k
    let sh := s1.shadowWord k
    let take := rws - (rws &&& fixed)
    if take = 0 then s1 else s1.setShadow k ((sh - (sh &&& take)) ||| (val &&& take))

/-- The word held for an address, and the state that holds one, or none (R15). -/
def State.heldWord (s : State) (a : Nat) : Option Word := Store.get (fun _ => none) s.held a
def State.hold (s : State) (a : Nat) (w : Option Word) : State := { s with held := Store.put (fun _ => none) s.held a w }

/-- The lower words of an RW multi-word value, held since they were written, take effect (R15). -/
def State.applyHeld (s : State) (row : RegSpec) (a : Nat) : State :=
  (List.range row.lead).foldl (fun t i =>
    let k := a - 4 * (i + 1)
    match t.heldWord k with
    | some w => (t.setReg k w).hold k none
    | none => t) s

/-- A write of a register's fields. The lower words of an RW multi-word value are held (R15). -/
def State.plainWrite (s : State) (m a val : Nat) : State :=
  match blkAt a, rowAt a, s.keyOf m a with
  | some b, some row, some k =>
    if row.maskOf .rw = 2 ^ 32 - 1 ∧ row.lead + 1 < row.words then
      s.hold a (some (BitVec.ofNat 32 val))
    else if row.maskOf .rw ≠ 0 ∧ 0 < row.lead then (s.applyHeld row a).writeFields b row k val
    else s.writeFields b row k val
  | _, _, _ => s

/-! ### Registers whose write starts something -/

def State.grantOp (s : State) (m idx op : Nat) : State :=
  match op with
  | 1 => s.grantCmd m idx 1 (fun x => (if x.entryCode idx = stOK then x.freeGrant idx else x, x.entryCode idx))
  | 2 => s.grantCmd m idx 2 (fun x => (if x.entryCode idx = stOK then x.cancelEntry idx else x, x.entryCode idx))
  | 3 => s.grantCmd m idx 3 (fun x =>
      let es := (x.ptp.grants.filter (fun e => e.2.valid && e.2.dom == idx % 64)).map (·.1)
      (es.foldl (fun u i => u.cancelEntry i) x, if es.isEmpty then stZERO_LEN else stOK))
  | _ => s.grantCmd m idx 0 (fun x => (x, stREFUSED))

def State.ringOp (s : State) (m ring op : Nat) : State :=
  match op with
  | 1 => s.ringEnable m ring
  | 2 => s.ringDisable m ring
  | _ => s.ringCtrl m ring op stREFUSED

/-- SWAP_CTRL and RUN_CTRL: the fields as written, and with GO the operation. -/
def State.swapCtrlWrite (s : State) (n val : Nat) : State :=
  let sync := bitAt val 4
  let init := bitAt val 5
  if bitAt val 2 then
    match val % 4 with
    | 1 => s.swapArm n sync init
    | 2 => s.swapDisarm n sync init
    | op => s.swapStatus n op sync init stREFUSED
  else s.setSq n { s.sq n with swapCtrl := withBits (withBits (s.sq n).swapCtrl 0 2 val) 4 2 (bitsOf val 4 2) }

def State.runCtrlWrite (s : State) (n val : Nat) : State :=
  let s1 :=
    if bitAt val 2 then
      match val % 4 with
      | 1 => s.sqHalt n
      | 2 => s.sqResume n
      | 3 => s.sqRestartOp n
      | _ => s.runStatus n 0 stREFUSED
    else s.setSq n { s.sq n with runCtrl := withBits (s.sq n).runCtrl 0 2 val }
  s1.setSq n { s1.sq n with runCtrl := withBits (s1.sq n).runCtrl 4 2 (bitsOf val 4 2) }

def State.findCtrl (s : State) (val : Nat) : State :=
  if val % 32 = 0 then s.refuseCfg .key else if bitAt val 8 then s.findGo val else s.wr KEY.FIND_CTRL_SPAN val

def State.maintQuads (s : State) (val : Nat) : State :=
  if s.mode = 6 && s.maint 13 then
    (List.range 4).foldl (fun u q => if bitAt val q then u else u.setFenced q false) (s.wr RSP.MAINT_QUADS_QUADS val)
  else s.refuseCfg .rsp

/-- GO_TB and GO_GR: the next edge of the base, which lies within 200 ns, is a free value. -/
def State.anchorCtrl (s : State) (val : Nat) : State :=
  let s1 := s.wr TDC.ANCHOR_CTRL_BASE val
  let go := fun (t : State) (b : Nat) =>
    let r := t.free
    r.2.anchorIf b (r.2.raw + r.1 % (200 * qNs))
  let s2 := if bitAt val 1 then go s1 0 else s1
  if bitAt val 2 then go s2 1 else s2

/-- The handlers of system registers: their whole write is their own. -/
def State.writeSys (s : State) (a val : Nat) : Option State :=
  if a = GLB.MODE_REQ then let r := s.freeInt
    some (r.2.modeReqWrite val r.1)
  else if a = GLB.RESET_CTRL then let r := s.free
    some (r.2.resetCtrl val (r.1 % 2 == 1))
  else if a = GLB.POLICY then some (s.policyWrite val)
  else if a = FAB.LEDGER_CTRL then some (s.ledgerCtrl val)
  else if a = FAB.QUEUE_STAT then some (if bitAt val 31 then s.hwReset else s)
  else if steerReg a then some (s.refuseCfg .tsc)
  else if a = TSC.SNAP_CTRL then some (if bitAt val 8 then s.snap (val % 64) else s.wr TSC.SNAP_CTRL_TS val)
  else if a = TSC.LO_CTRL then let r := s.freeInt
    some (r.2.loCtrl val r.1)
  else if a = DSC.STEP_CMD then some ((s.stepCmd val).settled s)
  else if a = DSC.SW_CTRL_HI then
    let lo := match s.heldWord DSC.SW_CTRL_LO with | some w => w.toNat | none => s.nreg DSC.SW_CTRL_LO
    some ((s.hold DSC.SW_CTRL_LO none).swWrite (lo + 2 ^ 32 * (val % 2 ^ 32)))
  else if a = CKO.ALIGN_CTRL then some (if bitAt val 0 then s.alignGo else s)
  else if a = GRT.CTRL then some (s.grtCtrl val)
  else none

/-- The handlers of the other registers that start something or are held to a rule. -/
def State.writeOwn (s : State) (m a val : Nat) : Option State :=
  let n := s.selSeq m
  let sel := fun (t : State) => some (if 52 ≤ n then s else t)
  if a = GNC.CH_SEL then (if bitAt val 15 then some (s.chOp (val % 512) (bitsOf val 12 2)) else none)
  else if a = TDC.ANCHOR_CTRL then some (s.anchorCtrl val)
  else if a = VID.POS_CTRL then (if bitAt val 8 then some (s.posGo (val % 16)) else none)
  else if a = VID.LTC_UBITS 0 then some (s.writeUbits 0 val)
  else if a = VID.LTC_UBITS 1 then some (s.writeUbits 1 val)
  else if a = RSP.MAINT_QUADS then some (s.maintQuads val)
  else if a = RSP.TBL_DATA then (if s.rspReadOnly then some s else none)
  else if a = PTP.GRANT_CMD then (if bitAt val 20 then some (s.grantOp m (val % 2 ^ 18) (bitsOf val 18 2)) else none)
  else if a = PTP.TBL_DATA then (if s.rd PTP.TBL_SEL_TABLE = 1 then some s else none)
  else if a = PKE.TBL_DATA then (if s.rd PKE.TBL_SEL_CURVE < 8 then some s else none)
  else if a = KEY.FIND_CTRL then some (s.findCtrl val)
  else if a = HIF.RING_DATA then some (s.ringData m val)
  else if a = HIF.RING_CTRL then (if bitAt val 15 then some (s.ringOp m (val % 1024) (bitsOf val 12 2)) else none)
  else if a = SEQ.SWAP_CTRL then sel (s.swapCtrlWrite n val)
  else if a = SEQ.RUN_CTRL then sel (s.runCtrlWrite n val)
  else if a = SEQ.LD_DATA then sel (s.ldWrite n val)
  else if a = PWR.DOM_REQ then
    let s1 := (s.wr PWR.DOM_REQ_DOMAIN (bitsOf val 0 6)).wr PWR.DOM_REQ_STATE (bitsOf val 8 2)
    some (if bitAt val 15 then s1.domReqGo (bitsOf val 0 6) (bitsOf val 8 2) else s1)
  else if a = PMC.FREEZE then some (if bitAt val 0 then s.freeze 0 else s)
  else
    match blkAt a with
    | some (.prt p) => if a = PRT.STATS_CTRL p ∧ s.statsCtrlBad val = true then some (s.refuseCfg (.prt p)) else none
    | some .rsp =>
      match firstIdx 4 (fun q => a == RSP.Q_LAT q) with
      | some q => some (if bitAt val (RSP.Q_LAT_RESET q).lo then (s.wr (RSP.Q_LAT_MAX_BUILD q) 0).wr (RSP.Q_LAT_MAX_WAIT q) 0 else s)
      | none => none
    | _ => none

/-- A granted write of a register. -/
def State.regWrite (s : State) (m a val : Nat) : State :=
  match blkAt a with
  | none => s
  | some b =>
    if a = b.commit ∧ b.commitOff.isSome = true then s.commitWrite b val
    else if a = b.sticky then s.stickyWrite b val 0
    else match s.writeSys a val with
      | some t => t
      | none =>
        match s.writeOwn m a val with
        | some t => t
        | none => s.plainWrite m a val

/-- A denied write of a register whose operation reports its outcome in a STATUS field completes DENIED (R36). -/
def State.denyStatus (s : State) (a : Nat) : State :=
  if a = PTP.GRANT_CMD then s.wr PTP.GRANT_CMD_STATUS stDENIED
  else if a = GNC.CH_SEL then s.wr GNC.CH_SEL_STATUS stDENIED
  else if a = PWR.DOM_REQ then s.wr PWR.DOM_REQ_STATUS stDENIED
  else s

/-- A write of BAR0 by master `m` (R11, R13, R54, R502). -/
def State.busPut (s : State) (m a val : Nat) : State :=
  match s.access m a .write with
  | .granted => s.regWrite m a (val % 2 ^ 32)
  | .denied => (s.deny m (match blkAt a with | some b => b.target | none => 0) .write).denyStatus a
  | _ => s

/-- R11: a whole write of a register. -/
def execRegisterWrite (m addr val : Nat) (s : State) : Host.Outcome State Fault Refusal := .next (s.busPut m addr val)

/-- R15: a write of the highest word of a multi-word value. -/
def execMultiwordHighWrite (m addr val : Nat) (s : State) : Host.Outcome State Fault Refusal :=
  .next (match rowAt addr with
    | some row => if 1 < row.words ∧ row.lead + 1 = row.words then s.busPut m addr val else s
    | none => s)

/-- R503: fewer than four byte enables, and the write is ignored. -/
def execPartialByteWrite (m addr val enables : Nat) (s : State) : Host.Outcome State Fault Refusal :=
  .next (if enables % 16 = 15 then s.busPut m addr val else s.refuseCfg .fab)

end Sys2Proof.Machine
end

