-- ==== Sys2Proof/Machine/SeqFab.lean ====
section
/-! DEFINITION. What reaches registers and memories over the fabric from within the engine: FLD and FST of the sequencers (R376),
and the firing of a compare unit with what its user does (R94 to R96, R315). -/

namespace Sys2Proof.Machine

/-! ### Fabric addresses (R376) -/

/-- The BAR0 address of a fabric address of targets 0 to 24, where it lies in the target's range (R502). -/
def fabReg (addr : Nat) : Option Nat :=
  match blkOfTarget (addr / 2 ^ 27) 0 with
  | none => none
  | some b =>
    let a := b.base + addr % 2 ^ 27
    match blkAt a with
    | some c => if c.target = b.target then some a else none
    | none => none

/-- A word of the memories of targets 25 to 27: what a master last wrote there, else a free value. -/
def State.sramWord (s : State) (k : Nat) : Option Word := Store.get (fun _ => none) s.seq.sram k

/-- Where a fabric access stands. A memory access is checked on its page; so is a register's. -/
def State.fabAccess (s : State) (m addr : Nat) (r : Right) : Access :=
  let t := addr / 2 ^ 27
  if 25 ≤ t ∧ t ≤ 27 then (if s.granted m t (addr % 2 ^ 27 / 4096) r then .granted else .denied)
  else match fabReg addr with
    | some a => s.access m a r
    | none => .undecoded

/-- The word a granted or undecoded read returns. -/
def State.fabRead32 (s : State) (m addr : Nat) : State × Nat :=
  let t := addr / 2 ^ 27
  if 25 ≤ t ∧ t ≤ 27 then
    if s.granted m t (addr % 2 ^ 27 / 4096) .read then
      match s.sramWord (addr / 4 * 4) with
      | some w => (s, w.toNat)
      | none => let r := s.free
        (r.2, r.1 % 2 ^ 32)
    else (s, 0)
  else match fabReg addr with
    | some a => s.busRead m a
    | none => (s, 0)

/-- A write over the fabric by master `m`. -/
def State.fabPut (s : State) (m addr val : Nat) : State :=
  let t := addr / 2 ^ 27
  if 25 ≤ t ∧ t ≤ 27 then
    if s.granted m t (addr % 2 ^ 27 / 4096) .write then
      s.setSeqS (fun x => { x with sram := Store.put (fun _ => none) x.sram (addr / 4 * 4) (some (BitVec.ofNat 32 val)) })
    else s.deny m t .write
  else match fabReg addr with
    | some a => s.busPut m a val
    | none => s

/-! ### FLD and FST -/

/-- FLD: a denied read faults DENIED; else the sequencer stalls until the data comes. -/
def State.sqFabLoad (n : Nat) (s : State) (i : SqI) : State :=
  match i with
  | .fld d a k =>
    let addr := ((s.sq n).reg a + sext18 k).toNat
    match s.fabAccess (64 + n) addr .read with
    | .denied => (s.deny (64 + n) (addr / 2 ^ 27) .read).sqFault n 4 0
    | _ => s.setSq n { s.sq n with fldTo := some (d, addr, s.raw) }
  | _ => s

def execSeqFld (n : Nat) (poisoned : Bool) (t : Nat) (s : State) : Host.Outcome State Fault Refusal :=
  .next ((s.advance t).sqExec n 0x1A poisoned (State.sqFabLoad n))

/-- The data of an FLD arrives; `poisoned` says that the read met poison. -/
def execFldDataReturn (n : Nat) (poisoned : Bool) (t : Nat) (s0 : State) : Host.Outcome State Fault Refusal :=
  let s := s0.advance t
  .next (match (s.sq n).fldTo with
    | none => s
    | some f =>
      let s1 := s.setSq n { s.sq n with fldTo := none }
      if poisoned then s1.poisonSeen.sqFault n 5 0
      else
        let r := s1.fabRead32 (64 + n) f.2.1
        ((r.1.sqPut n f.1 (BitVec.ofNat 32 r.2)).sqIssued n).sqNext n)

/-- An FLD not answered within 10 µs. -/
def execFldBusTimeout (n t : Nat) (s0 : State) : Host.Outcome State Fault Refusal :=
  let s := s0.advance t
  .next (match (s.sq n).fldTo with
    | none => s
    | some f => if f.2.2 + 10000 * qNs ≤ s.raw then s.sqFault n 8 0 else s)

/-- FST: posted; a denied write faults DENIED. -/
def State.sqFabStore (n : Nat) (s : State) (i : SqI) : State :=
  match i with
  | .fst d a k =>
    let addr := ((s.sq n).reg a + sext18 k).toNat
    let s1 := s.fabPut (64 + n) addr ((s.sq n).reg d).toNat
    match s.fabAccess (64 + n) addr .write with
    | .denied => s1.sqFault n 4 0
    | _ => (s1.sqIssued n).sqNext n
  | _ => s

def execSeqFst (n : Nat) (poisoned : Bool) (t : Nat) (s : State) : Host.Outcome State Fault Refusal :=
  .next ((s.advance t).sqExec n 0x1B poisoned (State.sqFabStore n))

/-! ### Compare units (R94, R315, R316) -/

/-- Slot `k` of the scheduled commands: STALE where it is late and may not be; BUSY where it names the COMMIT register of a group
that is pending; else the write under the issuing function's master. -/
def State.slotFires (s : State) (k : Nat) (late : Bool) : State :=
  match s.schedOf k with
  | none => s
  | some x =>
    if late && !x.lateOk then s.endSlot k stSTALE
    else
      let busy := match blkAt x.addr with
        | some b => b.commitOff.isSome && x.addr == b.commit && s.on (cmPENDING b)
        | none => false
      if busy then s.endSlot k stBUSY
      else
        let s1 := s.busPut x.cmd.fn x.addr x.value
        s1.endSlot k (if s.access x.cmd.fn x.addr .write = .denied then stDENIED else stOK)

/-- R94: compare unit `u` fires, if it is due, and its user acts: pulse outputs 0 to 15, the calendars of the quads 16 to 19
(whose hand-off is a command of its own, R276), the epoch strobe 20, the line sequencers 21 and 22, the scheduled commands
23 to 30. `latch` is what the sample ports latch at a strobe. -/
def execCompareFire (u : Nat) (latch : List PortLatch) (t : Nat) (s0 : State) : Host.Outcome State Fault Refusal :=
  let s := s0.advance t
  .next (if 32 ≤ u then s else
    let r := s.fireCmp u
    match r.2 with
    | none => r.1
    | some f =>
      if u < 16 then r.1.pulseFires u f.2
      else if u = 20 then r.1.strobeFire f.1 f.2 latch
      else if u = 21 then r.1.seqEvent 48 0
      else if u = 22 then r.1.seqEvent 49 0
      else if 23 ≤ u ∧ u ≤ 30 then r.1.slotFires (u - 23) f.2
      else r.1)

end Sys2Proof.Machine
end

