-- ==== Sys2Proof/Machine/Dispatch.lean ====
section
/-! DEFINITION. What each command does to everything but the queue of waiting commands: one arm per command. -/

namespace Sys2Proof.Machine

def exec (i : Instr) (s : State) : Host.Outcome State Fault Refusal :=
  match i with
  | .registerWrite m addr val => Sys2Proof.Machine.execRegisterWrite m addr val s
  | .stickyClear m b val recurs => Sys2Proof.Machine.execStickyClear m b val recurs s
  | .multiwordLowRead m addr => Sys2Proof.Machine.execMultiwordLowRead m addr s
  | .multiwordHighWrite m addr val => Sys2Proof.Machine.execMultiwordHighWrite m addr val s
  | .partialByteWrite m addr val enables => Sys2Proof.Machine.execPartialByteWrite m addr val enables s
  | .commitGo m b => Sys2Proof.Machine.execCommitGo m b s
  | .commitDiscard m b => Sys2Proof.Machine.execCommitDiscard m b s
  | .commitTakesEffect b t => Sys2Proof.Machine.execCommitTakesEffect b t s
  | .rspBankRelease t => Sys2Proof.Machine.execRspBankRelease t s
  | .ledgerAuditRequest m val t => Sys2Proof.Machine.execLedgerAuditRequest m val t s
  | .ledgerAutoAudit t => Sys2Proof.Machine.execLedgerAutoAudit t s
  | .ledgerAuditEnd t => Sys2Proof.Machine.execLedgerAuditEnd t s
  | .unitReinit kind inst t => Sys2Proof.Machine.execUnitReinit kind inst t s
  | .queueHwReset m val t => Sys2Proof.Machine.execQueueHwReset m val t s
  | .powerOnReset p => Sys2Proof.Machine.execPowerOnReset p s
  | .loReady grotto => Sys2Proof.Machine.execLoReady grotto s
  | .loFallback grottoReady => Sys2Proof.Machine.execLoFallback grottoReady s
  | .timingPllLock => Sys2Proof.Machine.execTimingPllLock s
  | .bootImageLoad x t => Sys2Proof.Machine.execBootImageLoad x t s
  | .poweronSelfTest t => Sys2Proof.Machine.execPoweronSelfTest t s
  | .selfTestDone failed again repaired ms t => Sys2Proof.Machine.execSelfTestDone failed again repaired ms t s
  | .modeReqService m t => Sys2Proof.Machine.execModeReqService m t s
  | .modeReqDegraded m t => Sys2Proof.Machine.execModeReqDegraded m t s
  | .modeReqMaintenance m block t => Sys2Proof.Machine.execModeReqMaintenance m block t s
  | .modeReqRelease m block t => Sys2Proof.Machine.execModeReqRelease m block t s
  | .modeReqQuiesce m t => Sys2Proof.Machine.execModeReqQuiesce m t s
  | .modeReqTwinStandby m t => Sys2Proof.Machine.execModeReqTwinStandby m t s
  | .modeReqProvisioning m t => Sys2Proof.Machine.execModeReqProvisioning m t s
  | .modeReqKeepAlive m delta t => Sys2Proof.Machine.execModeReqKeepAlive m delta t s
  | .modeReqLockdown m t => Sys2Proof.Machine.execModeReqLockdown m t s
  | .twinModeRequest handover t => Sys2Proof.Machine.execTwinModeRequest handover t s
  | .warmReset m skipBist keyOk t => Sys2Proof.Machine.execWarmReset m skipBist keyOk t s
  | .perst t => Sys2Proof.Machine.execPerst t s
  | .tamperEvent ball t => Sys2Proof.Machine.execTamperEvent ball t s
  | .policyWrite m val t => Sys2Proof.Machine.execPolicyWrite m val t s
  | .loLoss delta t => Sys2Proof.Machine.execLoLoss delta t s
  | .loCtrlWrite m val delta t => Sys2Proof.Machine.execLoCtrlWrite m val delta t s
  | .loSwitchRetry delta t => Sys2Proof.Machine.execLoSwitchRetry delta t s
  | .oscillatorReady grotto delta t => Sys2Proof.Machine.execOscillatorReady grotto delta t s
  | .steeringPortWrite rate target bound t => Sys2Proof.Machine.execSteeringPortWrite rate target bound t s
  | .slewDone n t => Sys2Proof.Machine.execSlewDone n t s
  | .leapWarnStart t => Sys2Proof.Machine.execLeapWarnStart t s
  | .leapDone t => Sys2Proof.Machine.execLeapDone t s
  | .smearStart prof entry t => Sys2Proof.Machine.execSmearStart prof entry t s
  | .snapGo m ts t => Sys2Proof.Machine.execSnapGo m ts t s
  | .compareFire u latch t => Sys2Proof.Machine.execCompareFire u latch t s
  | .selectorTick rclk t => Sys2Proof.Machine.execSelectorTick rclk t s
  | .holdoffElapsed n t => Sys2Proof.Machine.execHoldoffElapsed n t s
  | .failHoldElapsed n t => Sys2Proof.Machine.execFailHoldElapsed n t s
  | .disputeWindowEnd t => Sys2Proof.Machine.execDisputeWindowEnd t s
  | .refInEdge ix n t => Sys2Proof.Machine.execRefInEdge ix n t s
  | .refInAbsent ix t => Sys2Proof.Machine.execRefInAbsent ix t s
  | .refokChange ix level t => Sys2Proof.Machine.execRefokChange ix level t s
  | .gnssSolution c t => Sys2Proof.Machine.execGnssSolution c t s
  | .gnssSlotLos t => Sys2Proof.Machine.execGnssSlotLos t s
  | .loopUpdate t => Sys2Proof.Machine.execLoopUpdate t s
  | .fallbackUpdate t => Sys2Proof.Machine.execFallbackUpdate t s
  | .pullDone t => Sys2Proof.Machine.execPullDone t s
  | .lockTimeElapsed t => Sys2Proof.Machine.execLockTimeElapsed t s
  | .unlockTimeout t => Sys2Proof.Machine.execUnlockTimeout t s
  | .holdoverSecond t => Sys2Proof.Machine.execHoldoverSecond t s
  | .estimatorUpdate t => Sys2Proof.Machine.execEstimatorUpdate t s
  | .historyRecord theta xdiff mirrorOk t => Sys2Proof.Machine.execHistoryRecord theta xdiff mirrorOk t s
  | .swCtrlWrite m val t => Sys2Proof.Machine.execSwCtrlWrite m val t s
  | .swTimeout t => Sys2Proof.Machine.execSwTimeout t s
  | .stepCmd m val t => Sys2Proof.Machine.execStepCmd m val t s
  | .dscSeqFaultTimeout t => Sys2Proof.Machine.execDscSeqFaultTimeout t s
  | .grtCtrlWrite m val t => Sys2Proof.Machine.execGrtCtrlWrite m val t s
  | .grtRetry m t => Sys2Proof.Machine.execGrtRetry m t s
  | .grottoWarm cavity t => Sys2Proof.Machine.execGrottoWarm cavity t s
  | .grottoReady cavity t => Sys2Proof.Machine.execGrottoReady cavity t s
  | .grottoReadyLost cavity t => Sys2Proof.Machine.execGrottoReadyLost cavity t s
  | .grottoBandLost cavity t => Sys2Proof.Machine.execGrottoBandLost cavity t s
  | .vhtrLow mv t => Sys2Proof.Machine.execVhtrLow mv t s
  | .grottoSensorFault sensor0 sensor1 t => Sys2Proof.Machine.execGrottoSensorFault sensor0 sensor1 t s
  | .alignGo m t => Sys2Proof.Machine.execAlignGo m t s
  | .outputAlign n residual t => Sys2Proof.Machine.execOutputAlign n residual t s
  | .planeLockLost p t => Sys2Proof.Machine.execPlaneLockLost p t s
  | .planeLockReturn p t => Sys2Proof.Machine.execPlaneLockReturn p t s
  | .phaseWalkDone n t => Sys2Proof.Machine.execPhaseWalkDone n t s
  | .search c t => Sys2Proof.Machine.execSearch c t s
  | .searchCaptureStart e t => Sys2Proof.Machine.execSearchCaptureStart e t s
  | .searchReport e results t => Sys2Proof.Machine.execSearchReport e results t s
  | .searchAbort c t => Sys2Proof.Machine.execSearchAbort c t s
  | .samplePortPresent p freq t => Sys2Proof.Machine.execSamplePortPresent p freq t s
  | .samplePortLost p freq t => Sys2Proof.Machine.execSamplePortLost p freq t s
  | .sampleTick p n clip meanI meanQ freq t => Sys2Proof.Machine.execSampleTick p n clip meanI meanQ freq t s
  | .correlatorDump u dumps t => Sys2Proof.Machine.execCorrelatorDump u dumps t s
  | .dumpClear ch t => Sys2Proof.Machine.execDumpClear ch t s
  | .dumpPop g t => Sys2Proof.Machine.execDumpPop g t s
  | .channelSteeringWrite g ch codeRate carrRate word1 t => Sys2Proof.Machine.execChannelSteeringWrite g ch codeRate carrRate word1 t s
  | .steerTimeout ch t => Sys2Proof.Machine.execSteerTimeout ch t s
  | .chRead m ch t => Sys2Proof.Machine.execChRead m ch t s
  | .chLoad m ch t => Sys2Proof.Machine.execChLoad m ch t s
  | .chRelease m ch t => Sys2Proof.Machine.execChRelease m ch t s
  | .chOpNone m ch t => Sys2Proof.Machine.execChOpNone m ch t s
  | .channelStart ch sample t => Sys2Proof.Machine.execChannelStart ch sample t s
  | .burstStart g t => Sys2Proof.Machine.execBurstStart g t s
  | .burstEnd g t => Sys2Proof.Machine.execBurstEnd g t s
  | .epochDeliver t => Sys2Proof.Machine.execEpochDeliver t s
  | .gnssNavSend g body t => Sys2Proof.Machine.execGnssNavSend g body t s
  | .spoofIndicatorWrite g word t => Sys2Proof.Machine.execSpoofIndicatorWrite g word t s
  | .linkLock p t => Sys2Proof.Machine.execLinkLock p t s
  | .calDone p lats ok t => Sys2Proof.Machine.execCalDone p lats ok t s
  | .linkDown p cause hostSent t => Sys2Proof.Machine.execLinkDown p cause hostSent t s
  | .frameReceive p frame fcsOk express poisoned rawS t => Sys2Proof.Machine.execFrameReceive p frame fcsOk express poisoned rawS t s
  | .portWakeComplete p t => Sys2Proof.Machine.execPortWakeComplete p t s
  | .portSleepEntry p t => Sys2Proof.Machine.execPortSleepEntry p t s
  | .downshift p rxPct txPct t => Sys2Proof.Machine.execDownshift p rxPct txPct t s
  | .upshift p rxPct txPct t => Sys2Proof.Machine.execUpshift p rxPct txPct t s
  | .preemptVerify p ok t => Sys2Proof.Machine.execPreemptVerify p ok t s
  | .statsSnap c t => Sys2Proof.Machine.execStatsSnap c t s
  | .statsPeriodicSnap p t => Sys2Proof.Machine.execStatsPeriodicSnap p t s
  | .esmcPduReceive id t => Sys2Proof.Machine.execEsmcPduReceive id t s
  | .esmcTimeout p t => Sys2Proof.Machine.execEsmcTimeout p t s
  | .esmcInfoTx p t => Sys2Proof.Machine.execEsmcInfoTx p t s
  | .esmcEventTx p t => Sys2Proof.Machine.execEsmcEventTx p t s
  | .requestArrival id t => Sys2Proof.Machine.execRequestArrival id t s
  | .reservationGrant id starts busyUntil t => Sys2Proof.Machine.execReservationGrant id starts busyUntil t s
  | .sealDone id t => Sys2Proof.Machine.execSealDone id t s
  | .launchCheck id t => Sys2Proof.Machine.execLaunchCheck id t s
  | .rebuild id t => Sys2Proof.Machine.execRebuild id t s
  | .frameCommit id rawS t => Sys2Proof.Machine.execFrameCommit id rawS t s
  | .sideBufferExpire id t => Sys2Proof.Machine.execSideBufferExpire id t s
  | .reqActionBuild n t => Sys2Proof.Machine.execReqActionBuild n t s
  | .reqActionSlowPath n t => Sys2Proof.Machine.execReqActionSlowPath n t s
  | .reqActionDiscard n reason t => Sys2Proof.Machine.execReqActionDiscard n reason t s
  | .buildGo n frame stamp t => Sys2Proof.Machine.execBuildGo n frame stamp t s
  | .limitScrubVisit q bucket t => Sys2Proof.Machine.execLimitScrubVisit q bucket t s
  | .maintQuadsWrite m val t => Sys2Proof.Machine.execMaintQuadsWrite m val t s
  | .quadFence q t => Sys2Proof.Machine.execQuadFence q t s
  | .qLatReset m q t => Sys2Proof.Machine.execQLatReset m q t s
  | .calendarHandoff src t => Sys2Proof.Machine.execCalendarHandoff src t s
  | .grantExpiry idx typ t => Sys2Proof.Machine.execGrantExpiry idx typ t s
  | .grantScrubVisit idx t => Sys2Proof.Machine.execGrantScrubVisit idx t s
  | .grantFree m idx t => Sys2Proof.Machine.execGrantFree m idx t s
  | .grantCancel m idx t => Sys2Proof.Machine.execGrantCancel m idx t s
  | .grantCancelDomain m dom t => Sys2Proof.Machine.execGrantCancelDomain m dom t s
  | .grantCmdNone m idx t => Sys2Proof.Machine.execGrantCmdNone m idx t s
  | .upstreamRenew u typ t => Sys2Proof.Machine.execUpstreamRenew u typ t s
  | .upstreamRetry u typ t => Sys2Proof.Machine.execUpstreamRetry u typ t s
  | .announceTimeout u t => Sys2Proof.Machine.execAnnounceTimeout u t s
  | .mint c keyErr outAfter t => Sys2Proof.Machine.execMint c keyErr outAfter t s
  | .rotate c t => Sys2Proof.Machine.execRotate c t s
  | .rotateComplete ok t => Sys2Proof.Machine.execRotateComplete ok t s
  | .pipeKat p ok t => Sys2Proof.Machine.execPipeKat p ok t s
  | .pulseTrailingEdge n t => Sys2Proof.Machine.execPulseTrailingEdge n t s
  | .captureEdge ix rising poisoned edge t => Sys2Proof.Machine.execCaptureEdge ix rising poisoned edge t s
  | .schedule c t => Sys2Proof.Machine.execSchedule c t s
  | .scheduleCancel c t => Sys2Proof.Machine.execScheduleCancel c t s
  | .videoOutputStart o t => Sys2Proof.Machine.execVideoOutputStart o t s
  | .videoWalkDone o t => Sys2Proof.Machine.execVideoWalkDone o t s
  | .ltcFrame n t => Sys2Proof.Machine.execLtcFrame n t s
  | .genlockFrame lines period syncMv burstMv edge t => Sys2Proof.Machine.execGenlockFrame lines period syncMv burstMv edge t s
  | .posGo m val t => Sys2Proof.Machine.execPosGo m val t s
  | .ltcUbitsPortWrite n val t => Sys2Proof.Machine.execLtcUbitsPortWrite n val t s
  | .compareRearm u ts target t => Sys2Proof.Machine.execCompareRearm u ts target t s
  | .tdcEdge c rising coarse code other poisoned t => Sys2Proof.Machine.execTdcEdge c rising coarse code other poisoned t s
  | .tdcGateEnd c coarse t => Sys2Proof.Machine.execTdcGateEnd c coarse t s
  | .tdcCalStart c t => Sys2Proof.Machine.execTdcCalStart c t s
  | .tdcCalDone c hist t => Sys2Proof.Machine.execTdcCalDone c hist t s
  | .interpSwap c t => Sys2Proof.Machine.execInterpSwap c t s
  | .tbPresent freq edge t => Sys2Proof.Machine.execTbPresent freq edge t s
  | .tbLost freq t => Sys2Proof.Machine.execTbLost freq t s
  | .tbSettled t => Sys2Proof.Machine.execTbSettled t s
  | .anchorGoTb m edge t => Sys2Proof.Machine.execAnchorGoTb m edge t s
  | .anchorGoGr m edge t => Sys2Proof.Machine.execAnchorGoGr m edge t s
  | .ringDataWrite m val t => Sys2Proof.Machine.execRingDataWrite m val t s
  | .ringEnable m ring t => Sys2Proof.Machine.execRingEnable m ring t s
  | .ringDisable m ring t => Sys2Proof.Machine.execRingDisable m ring t s
  | .ringOpInvalid m ring op t => Sys2Proof.Machine.execRingOpInvalid m ring op t s
  | .ringDrained ring t => Sys2Proof.Machine.execRingDrained ring t s
  | .doorbellSqTail f ix index rsvd t => Sys2Proof.Machine.execDoorbellSqTail f ix index rsvd t s
  | .doorbellCqHead f ix index rsvd t => Sys2Proof.Machine.execDoorbellCqHead f ix index rsvd t s
  | .descFetch ring descErr payErr t => Sys2Proof.Machine.execDescFetch ring descErr payErr t s
  | .completionWrite ring t => Sys2Proof.Machine.execCompletionWrite ring t s
  | .msixModerationTimeout ring t => Sys2Proof.Machine.execMsixModerationTimeout ring t s
  | .nop c t => Sys2Proof.Machine.execNop c t s
  | .transmitFrame ring dataErr poisoned t => Sys2Proof.Machine.execTransmitFrame ring dataErr poisoned t s
  | .txLinkTimeout id t => Sys2Proof.Machine.execTxLinkTimeout id t s
  | .receiveFrameWrite id t => Sys2Proof.Machine.execReceiveFrameWrite id t s
  | .rxStarved id t => Sys2Proof.Machine.execRxStarved id t s
  | .eventDeliver t => Sys2Proof.Machine.execEventDeliver t s
  | .eventFlushTimeout ring t => Sys2Proof.Machine.execEventFlushTimeout ring t s
  | .flr f t => Sys2Proof.Machine.execFlr f t s
  | .busMasterClear f t => Sys2Proof.Machine.execBusMasterClear f t s
  | .busMasterSet f t => Sys2Proof.Machine.execBusMasterSet f t s
  | .pcieLinkLoss t => Sys2Proof.Machine.execPcieLinkLoss t s
  | .pcieLinkUp gen width numVfs t => Sys2Proof.Machine.execPcieLinkUp gen width numVfs t s
  | .seqNop n poisoned t => Sys2Proof.Machine.execSeqNop n poisoned t s
  | .seqAdd n poisoned t => Sys2Proof.Machine.execSeqAdd n poisoned t s
  | .seqSub n poisoned t => Sys2Proof.Machine.execSeqSub n poisoned t s
  | .seqAddc n poisoned t => Sys2Proof.Machine.execSeqAddc n poisoned t s
  | .seqSubc n poisoned t => Sys2Proof.Machine.execSeqSubc n poisoned t s
  | .seqAnd n poisoned t => Sys2Proof.Machine.execSeqAnd n poisoned t s
  | .seqOr n poisoned t => Sys2Proof.Machine.execSeqOr n poisoned t s
  | .seqXor n poisoned t => Sys2Proof.Machine.execSeqXor n poisoned t s
  | .seqShl n poisoned t => Sys2Proof.Machine.execSeqShl n poisoned t s
  | .seqShr n poisoned t => Sys2Proof.Machine.execSeqShr n poisoned t s
  | .seqSar n poisoned t => Sys2Proof.Machine.execSeqSar n poisoned t s
  | .seqMul n poisoned t => Sys2Proof.Machine.execSeqMul n poisoned t s
  | .seqMulh n poisoned t => Sys2Proof.Machine.execSeqMulh n poisoned t s
  | .seqMulhu n poisoned t => Sys2Proof.Machine.execSeqMulhu n poisoned t s
  | .seqClz n poisoned t => Sys2Proof.Machine.execSeqClz n poisoned t s
  | .seqAddi n poisoned t => Sys2Proof.Machine.execSeqAddi n poisoned t s
  | .seqAndi n poisoned t => Sys2Proof.Machine.execSeqAndi n poisoned t s
  | .seqOri n poisoned t => Sys2Proof.Machine.execSeqOri n poisoned t s
  | .seqXori n poisoned t => Sys2Proof.Machine.execSeqXori n poisoned t s
  | .seqShli n poisoned t => Sys2Proof.Machine.execSeqShli n poisoned t s
  | .seqShri n poisoned t => Sys2Proof.Machine.execSeqShri n poisoned t s
  | .seqSari n poisoned t => Sys2Proof.Machine.execSeqSari n poisoned t s
  | .seqLui n poisoned t => Sys2Proof.Machine.execSeqLui n poisoned t s
  | .seqLd n poisoned dataPoisoned t => Sys2Proof.Machine.execSeqLd n poisoned dataPoisoned t s
  | .seqSt n poisoned t => Sys2Proof.Machine.execSeqSt n poisoned t s
  | .seqFld n poisoned t => Sys2Proof.Machine.execSeqFld n poisoned t s
  | .fldDataReturn n poisoned t => Sys2Proof.Machine.execFldDataReturn n poisoned t s
  | .fldBusTimeout n t => Sys2Proof.Machine.execFldBusTimeout n t s
  | .seqFst n poisoned t => Sys2Proof.Machine.execSeqFst n poisoned t s
  | .seqBeq n poisoned t => Sys2Proof.Machine.execSeqBeq n poisoned t s
  | .seqBne n poisoned t => Sys2Proof.Machine.execSeqBne n poisoned t s
  | .seqBlt n poisoned t => Sys2Proof.Machine.execSeqBlt n poisoned t s
  | .seqBge n poisoned t => Sys2Proof.Machine.execSeqBge n poisoned t s
  | .seqBltu n poisoned t => Sys2Proof.Machine.execSeqBltu n poisoned t s
  | .seqBgeu n poisoned t => Sys2Proof.Machine.execSeqBgeu n poisoned t s
  | .seqJal n poisoned t => Sys2Proof.Machine.execSeqJal n poisoned t s
  | .seqJr n poisoned t => Sys2Proof.Machine.execSeqJr n poisoned t s
  | .seqSafe n poisoned t => Sys2Proof.Machine.execSeqSafe n poisoned t s
  | .seqWait n poisoned t => Sys2Proof.Machine.execSeqWait n poisoned t s
  | .waitWake n t => Sys2Proof.Machine.execWaitWake n t s
  | .seqTime n poisoned t => Sys2Proof.Machine.execSeqTime n poisoned t s
  | .seqFaultInstr n poisoned t => Sys2Proof.Machine.execSeqFaultInstr n poisoned t s
  | .seqAutoRestart n t => Sys2Proof.Machine.execSeqAutoRestart n t s
  | .seqWatchdog n t => Sys2Proof.Machine.execSeqWatchdog n t s
  | .progLoad c readErr t => Sys2Proof.Machine.execProgLoad c readErr t s
  | .swapTimeout n t => Sys2Proof.Machine.execSwapTimeout n t s
  | .swapArm m sync init t => Sys2Proof.Machine.execSwapArm m sync init t s
  | .swapDisarm m sync init t => Sys2Proof.Machine.execSwapDisarm m sync init t s
  | .swapOpInvalid m op t => Sys2Proof.Machine.execSwapOpInvalid m op t s
  | .seqHalt m t => Sys2Proof.Machine.execSeqHalt m t s
  | .seqResume m t => Sys2Proof.Machine.execSeqResume m t s
  | .seqRestart m t => Sys2Proof.Machine.execSeqRestart m t s
  | .ldDataWrite m val t => Sys2Proof.Machine.execLdDataWrite m val t s
  | .keyUse k slot part dst modulus t => Sys2Proof.Machine.execKeyUse k slot part dst modulus t s
  | .rowGo k d a b c w t => Sys2Proof.Machine.execRowGo k d a b c w t s
  | .rowDone k t => Sys2Proof.Machine.execRowDone k t s
  | .keyHeadComplete k status t => Sys2Proof.Machine.execKeyHeadComplete k status t s
  | .keyImport c hdrErr t => Sys2Proof.Machine.execKeyImport c hdrErr t s
  | .keyGenerate c t => Sys2Proof.Machine.execKeyGenerate c t s
  | .keyZeroise c bad t => Sys2Proof.Machine.execKeyZeroise c bad t s
  | .pkRun c t => Sys2Proof.Machine.execPkRun c t s
  | .pkJobComplete q readErr primes t => Sys2Proof.Machine.execPkJobComplete q readErr primes t s
  | .pkeKat e ok t => Sys2Proof.Machine.execPkeKat e ok t s
  | .findGo m span t => Sys2Proof.Machine.execFindGo m span t s
  | .journalAppend c t => Sys2Proof.Machine.execJournalAppend c t s
  | .imageWrite c busy readErr chk out t => Sys2Proof.Machine.execImageWrite c busy readErr chk out t s
  | .imageCommit c busy out t => Sys2Proof.Machine.execImageCommit c busy out t s
  | .flsRead c busy dma out t => Sys2Proof.Machine.execFlsRead c busy dma out t s
  | .journalRecord t => Sys2Proof.Machine.execJournalRecord t s
  | .journalPageProgram out t => Sys2Proof.Machine.execJournalPageProgram out t s
  | .journalFlushTimeout out t => Sys2Proof.Machine.execJournalFlushTimeout out t s
  | .scrubPassStart t => Sys2Proof.Machine.execScrubPassStart t s
  | .scrubPassEnd corrMax out t => Sys2Proof.Machine.execScrubPassEnd corrMax out t s
  | .wearLevelMove out t => Sys2Proof.Machine.execWearLevelMove out t s
  | .flowstoneKaCycle out t => Sys2Proof.Machine.execFlowstoneKaCycle out t s
  | .nandTimeout c t => Sys2Proof.Machine.execNandTimeout c t s
  | .domainConsent d refuse t => Sys2Proof.Machine.execDomainConsent d refuse t s
  | .consentTimeout d block t => Sys2Proof.Machine.execConsentTimeout d block t s
  | .wakeRegulatorDone d t => Sys2Proof.Machine.execWakeRegulatorDone d t s
  | .wakeOscReady d delta t => Sys2Proof.Machine.execWakeOscReady d delta t s
  | .wakePllLock d w t => Sys2Proof.Machine.execWakePllLock d w t s
  | .wakeStepTimeout d t => Sys2Proof.Machine.execWakeStepTimeout d t s
  | .domReq m val t => Sys2Proof.Machine.execDomReq m val t s
  | .dozeEnter d t => Sys2Proof.Machine.execDozeEnter d t s
  | .dozeExit d t => Sys2Proof.Machine.execDozeExit d t s
  | .railFault r uv t => Sys2Proof.Machine.execRailFault r uv t s
  | .tempHigh mK t => Sys2Proof.Machine.execTempHigh mK t s
  | .testBlock c clearOk t => Sys2Proof.Machine.execTestBlock c clearOk t s
  | .testComplete o t => Sys2Proof.Machine.execTestComplete o t s
  | .jtagIdcode t => Sys2Proof.Machine.execJtagIdcode t s
  | .jtagBypass t => Sys2Proof.Machine.execJtagBypass t s
  | .jtagSamplePreload t => Sys2Proof.Machine.execJtagSamplePreload t s
  | .jtagExtest t => Sys2Proof.Machine.execJtagExtest t s
  | .jtagIntest t => Sys2Proof.Machine.execJtagIntest t s
  | .nirelLinkLock t => Sys2Proof.Machine.execNirelLinkLock t s
  | .nirelPairing p t => Sys2Proof.Machine.execNirelPairing p t s
  | .nirelPairingRetry p t => Sys2Proof.Machine.execNirelPairingRetry p t s
  | .nirelLinkDown t => Sys2Proof.Machine.execNirelLinkDown t s
  | .timingFrameTx t => Sys2Proof.Machine.execTimingFrameTx t s
  | .timingFrameRx frame arrivalRaw t => Sys2Proof.Machine.execTimingFrameRx frame arrivalRaw t s
  | .twinSample t => Sys2Proof.Machine.execTwinSample t s
  | .mirrorItemReceive item inStep lagUs t => Sys2Proof.Machine.execMirrorItemReceive item inStep lagUs t s
  | .handoverGive c t => Sys2Proof.Machine.execHandoverGive c t s
  | .handoverTake c peerAllows t => Sys2Proof.Machine.execHandoverTake c peerAllows t s
  | .handoverDrainDone bytes keys t => Sys2Proof.Machine.execHandoverDrainDone bytes keys t s
  | .handoverDeltaAck t => Sys2Proof.Machine.execHandoverDeltaAck t s
  | .globalFreeze m val t => Sys2Proof.Machine.execGlobalFreeze m val t s
  | .periodicFreeze t => Sys2Proof.Machine.execPeriodicFreeze t s
  | .counterSnap c t => Sys2Proof.Machine.execCounterSnap c t s
  | .snapDeliveryEnd poisoned t => Sys2Proof.Machine.execSnapDeliveryEnd poisoned t s
  | .memoryScrubVisit target offset res last t => Sys2Proof.Machine.execMemoryScrubVisit target offset res last t s
  | .vhtrRestored mv t => Sys2Proof.Machine.execVhtrRestored mv t s
  | .genlockFrameMissing t => Sys2Proof.Machine.execGenlockFrameMissing t s
  | .tamperRelease ball t => Sys2Proof.Machine.execTamperRelease ball t s
  | .msixUnmask f what vec t => Sys2Proof.Machine.execMsixUnmask f what vec t s
  | .modeReqUnreachable m target t => Sys2Proof.Machine.execModeReqUnreachable m target t s
  | .seqRunOpNone m t => Sys2Proof.Machine.execSeqRunOpNone m t s
  | .resetCtrlWrongKey m val t => Sys2Proof.Machine.execResetCtrlWrongKey m val t s
  | .alternateNotReady t => Sys2Proof.Machine.execAlternateNotReady t s

end Sys2Proof.Machine
end

