-- ==== Sys2Proof/Machine/Step.lean ====
section
/-! DEFINITION. One step of the engine: the command at the front of the queue, or, on an empty queue, one edge of the timing
clock (log entry 4). -/

namespace Sys2Proof.Machine

/-- The state one timing-clock edge later (R70): the raw counter adds one clock period, once it counts (R60). -/
def State.tickEdge (s : State) : State := if s.rawRun then { s with raw := s.raw + 65536 } else s

/-- The command at the front of the queue runs with the rest of the queue; an empty queue lets an edge pass. -/
def step (s : State) : Host.Outcome State Fault Refusal :=
  match s.pending with
  | [] => .next s.tickEdge
  | c :: rest => exec c { s with pending := rest }

/-- The state with the command a word spells at the front of its queue. The opcode table gives its rows no bits, so no word
spells one. -/
def State.withFetchWord (s : State) (nbits w : Nat) : State :=
  match decodeTableWord nbits w with
  | some c => { s with pending := c :: s.pending }
  | none => s

end Sys2Proof.Machine
end

