-- ==== Sys2Proof/Safety.lean ====
section
/-! DEFINITION. What counts as a safe run, and the terms claims are stated in: the canonical form every step keeps, and the
registers that an alarm of any block writes beside its own. -/

namespace Sys2Proof

/-- A step from `s` answers a next state. -/
def Safe (s : Machine.State) : Prop := ∃ t, Machine.step s = .next t

namespace Machine

/-- The conservation equation of R42 for every instance the ledger lists: what was issued is what was returned and what is held,
modulo 2^48. An instance it does not list holds zeros, and none is listed twice. -/
def LedgerBalanced (l : Store LInst) : Prop :=
  Store.wf dLInst l = true ∧ ∀ e ∈ l, e.2.issued % 2 ^ 48 = (e.2.returned + e.2.held) % 2 ^ 48

/-- The ledger of the engine balances. -/
abbrev State.Balanced (s : State) : Prop := LedgerBalanced s.fab.ledger

/-- The canonical form of a state: the register bank, the latches, the held words, host memory, the timescales, the compare
units and the sequencers list nothing that an unlisted key reads as, shadows stand in rising order, and the raw counter stands on an edge of the timing clock (R70). -/
structure State.Canon (s : State) : Prop where
  regs : Store.wf (resetWord s.variant) s.regs = true
  shadow : Store.rising s.shadow
  latch : Store.wf zWord32 s.latch = true
  held : Store.wf (fun _ => none) s.held = true
  mem : Memory.wf s.mem
  ts : Store.wf dTs s.tsc.ts = true
  cmps : Store.wf dCmp s.tsc.cmps = true
  sqs : Store.wf dSq s.seq.sq = true
  raw : s.raw % 65536 = 0

/-- Registers of numbers that an alarm of any block may write: the alarm summary, the ports' alarms, the record of the first
counter past its half, the journalled alarms, the messages sent, the events lost in the Sump, and the records lost. -/
def alarmNums : List Nat :=
  [PMC.ALARM_SUM, PMC.ALARM_PORTS, PMC.HALF_IDX, PMC.JRN_COUNT, HIF.MSIX_SENT, FAB.SUMP_CNT_LO 0x17, FAB.SUMP_CNT_LO 0x17 + 4,
   FLS.JRN_LOST]

/-- All registers that an alarm of any block may write beside the block's own. -/
def alarmKeys : List Nat := alarmNums ++ [PMC.STICKY, FAB.STICKY, FLS.STICKY]

/-- The registers every mode change writes: the mode, the request and its outcome, the sticky bits of GLB and the mode log. -/
def modeKeys : List Nat :=
  [GLB.MODE, GLB.MODE_REQ, GLB.MODE_STAT, GLB.STICKY] ++ (List.range 16).map GLB.MODE_LOG

/-- A mode request by master `m` is taken at raw value `t`: its write is granted and no request is pending. -/
def State.takesRequest (s : State) (m t : Nat) : Prop :=
  (s.advance t).access m GLB.MODE_REQ .write = .granted ∧ s.on GLB.MODE_STAT_PENDING = false

/-- The request completed with a status: it is pending no more and `GLB.STICKY.MODE_DONE` is set. -/
def State.requestDone (u : State) (status : Nat) : Prop :=
  u.on GLB.MODE_STAT_PENDING = false ∧ u.rd GLB.MODE_STAT_STATUS = status ∧ u.on GLB.STICKY_MODE_DONE = true

/-- The mode went from `old` to `new`: both are shown, and `GLB.STICKY.MODE_CHANGE` is set. -/
def State.wentTo (u : State) (old new : Nat) : Prop :=
  u.mode = new ∧ u.rd GLB.MODE_PREVIOUS = old ∧ u.on GLB.STICKY_MODE_CHANGE = true

/-- The register bank in canonical form. -/
abbrev State.RegsWf (s : State) : Prop := Store.wf (resetWord s.variant) s.regs = true

/-- The table of rings in canonical form. -/
abbrev State.RingsWf (s : State) : Prop := Store.wf dRing s.hif.rings = true

/-- The ring of a host command takes completions: it is not DISABLED. -/
def State.accepts (s : State) (c : HostCmd) : Prop := s.RingsWf ∧ (s.ringOf c.ring).st ≠ .disabled

/-- Host command `c` completed with a status and a count: its completion is the last that waits on its ring. -/
def State.completed (u : State) (c : HostCmd) (status count : Nat) : Prop :=
  (u.ringOf c.ring).cpls.getLast? = some ⟨c.slot, status, c.block, count, c.opcode, c.tag, 0, 1, none⟩

/-- Host command `c` failed: it completed with a code other than OK and ZERO_LEN, which CMD_FAIL and LAST_CMD show. -/
def State.failed (u : State) (c : HostCmd) (status : Nat) : Prop :=
  u.completed c status 0
    ∧ (status ≠ stOK → status ≠ stZERO_LEN → u.on HIF.STICKY_CMD_FAIL = true
        ∧ u.nreg HIF.LAST_CMD = (c.block + 2 ^ 8 * c.opcode + 2 ^ 16 * status + 2 ^ 24 * c.fn) % 2 ^ 32)

/-- The registers a completed host command writes. -/
def cmdKeys : List Nat := [HIF.LAST_CMD, HIF.STICKY, HIF.CMD_REFUSED]

/-- Frame `id` is gone from the quads, and the Sump counts one more under `reason`. -/
def State.dropped (s u : State) (id reason : Nat) : Prop :=
  (∀ y ∈ u.rsp.jobs, y.id ≠ id) ∧ u.reg48 (FAB.SUMP_CNT_LO reason) = (s.reg48 (FAB.SUMP_CNT_LO reason) + 1) % 2 ^ 48

/-- Sequencer `n` runs and waits for no data, and the word at its PC is `w`, with another instruction behind it. -/
def State.fetches (s : State) (n w : Nat) : Prop :=
  s.sqReady n = true ∧ (s.sq n).active.words[(s.sq n).pc]? = some (BitVec.ofNat 32 w) ∧ (s.sq n).pc + 1 < (s.sq n).active.words.length
    ∧ (s.sq n).pc < 4096 ∧ Store.wf zWord (s.sq n).w = true

/-- Sequencer `n` went on from `s` to `u` at `pc`, with its local data as before; no other sequencer moved (events may have
come to Flowstone's first). -/
def State.wentOn (s u : State) (n pc : Nat) : Prop :=
  (u.sq n).st = .run ∧ (u.sq n).pc = pc ∧ (u.sq n).ld = (s.sq n).ld ∧ ∀ k, k ≠ n → k ≠ 50 → u.sq k = s.sq k

/-- Sequencer `n` went on to its next instruction with `v` in register `d` and carry `c`, and its other registers as before. -/
def State.wrote (s u : State) (n d : Nat) (v : Word) (c : Bool) : Prop :=
  s.wentOn u n ((s.sq n).pc + 1) ∧ (u.sq n).c = c ∧ (u.sq n).reg d = v ∧ ∀ i, i ≠ d → (u.sq n).reg i = (s.sq n).reg i

/-- Sequencer `n` stopped with a fault. -/
def State.faulted (u : State) (n cause code : Nat) : Prop :=
  (u.sq n).st = .faulted ∧ bitsOf (u.sq n).fault 0 4 = cause ∧ bitsOf (u.sq n).fault 20 8 = code ∧ u.on SEQ.STICKY_FAULT = true

/-- The request `r`, whose step for domain `d` refused, rolls back (R441): `PWR.SLEEP_STAT` shows who refused and why. Where it had
stopped nothing yet it is over, and its STATUS and BLOCK say so; else the domain stopped last is woken. -/
def State.rolledBack (s u : State) (r : SleepReq) (d cause target : Nat) : Prop :=
  u.rd PWR.SLEEP_STAT_REFUSER = d % 64 ∧ u.rd PWR.SLEEP_STAT_CAUSE = cause ∧ u.rd PWR.SLEEP_STAT_TARGET = target % 32
    ∧ (r.stopped = [] → u.pwr.sleep = none ∧ u.on PWR.STICKY_SLEEP_ABORT = true ∧ u.nreg PWR.ROLLBACKS = (s.nreg PWR.ROLLBACKS + 1) % 2 ^ 32
        ∧ (r.kind = .keepAlive → s.pwr.lock = none → u.requestDone stROLLED_BACK ∧ u.rd GLB.MODE_STAT_BLOCK = target % 32)
        ∧ (∀ x st, r.kind = .dom x st → u.rd PWR.DOM_REQ_STATUS = stROLLED_BACK ∧ u.on PWR.DOM_REQ_BUSY = false))
    ∧ (∀ g l, r.stopped = g :: l → 32 ≤ g → g ≠ 36 → 2 ≤ s.domState g → s.wakeOf g = none →
        u.wakeOf g = some ⟨g, 1, false, s.raw⟩ ∧ u.pwr.sleep = some { r with rolling := some stROLLED_BACK })

/-- `t` is `s` but for the registers `ks` and what signalling changes: alarms, events, journal records, counts and discards write
the registers `alarmKeys`, the queues and tokens of the ledger, the rings, the journal, the performance counters and the pending
events of sequencers, and sticky bits that are set stay set. Every other part of the state is the same. -/
structure Signals (ks : List Nat) (s t : State) : Prop where
  regsWf : s.RegsWf → t.RegsWf
  pending : t.pending = s.pending
  variant : t.variant = s.variant
  raw : t.raw = s.raw
  rawRun : t.rawRun = s.rawRun
  shadow : t.shadow = s.shadow
  latch : t.latch = s.latch
  held : t.held = s.held
  mem : t.mem = s.mem
  tsc : t.tsc = s.tsc
  glb : t.glb = s.glb
  ref : t.ref = s.ref
  dsc : t.dsc = s.dsc
  grt : t.grt = s.grt
  cko : t.cko = s.cko
  gna : t.gna = s.gna
  gnc : t.gnc = s.gnc
  prt : t.prt = s.prt
  rsp : t.rsp = s.rsp
  ptp : t.ptp = s.ptp
  nts : t.nts = s.nts
  evt : t.evt = s.evt
  vid : t.vid = s.vid
  tdc : t.tdc = s.tdc
  key : t.key = s.key
  pke : t.pke = s.pke
  fls : t.fls = s.fls
  pwr : t.pwr = s.pwr
  bst : t.bst = s.bst
  twn : t.twn = s.twn
  isolated : t.fab.isolated = s.fab.isolated
  copies : t.fab.copies = s.fab.copies
  cmdQ : t.hif.cmdQ = s.hif.cmdQ
  sram : t.seq.sram = s.seq.sram
  swaps : t.seq.swaps = s.seq.swaps
  reg : s.RegsWf → ∀ k, k ∉ ks → k ∉ alarmKeys → t.reg k = s.reg k
  on : s.RegsWf → ∀ f : Fld, f.w = 1 → f.lo < 32 → f.addr ∉ alarmNums → f.addr ∉ ks → s.on f = true → t.on f = true

end Machine
end Sys2Proof
end

