-- ==== Sys2Proof/Certificates/Slice0/Obligations.lean ====
section
/-! DEFINITION. The statements for the provers, from the numbered rules of the spec. `s.advance t` is the state once time has
passed to raw value `t`; `Signals ks s t` says that `t` is `s` but for the registers `ks` and what alarms, records and counts
write. Every statement about a command says that `exec` answers a next state and what it holds. -/

open Sys2Proof Sys2Proof.Machine

/-- For every command c, queue rest r and state s, a step with c at the front of the queue is exec of c with the queue's
rest; on an empty queue the step lets one edge of the timing clock pass (the model's own reading, log entry 4). -/
def Obligations.StepRunsFrontCommand : Prop :=
  (∀ (c : Instr) (r : List Instr) (s : State), step { s with pending := c :: r } = exec c { s with pending := r })
  ∧ (∀ s : State, s.pending = [] → step s = .next s.tickEdge)

/-- For every command and every state, exec answers a next state: no command ends in a fault or a refusal. That state has the
same queue of waiting commands and the same ordering code. -/
def Obligations.EveryCommandCompletes : Prop :=
  ∀ (c : Instr) (s : State), ∃ u, exec c s = .next u ∧ u.pending = s.pending ∧ u.variant = s.variant

/-- From every state in canonical form (register bank, latches, held words, host memory, timescales, compare units and
sequencers list nothing that an unlisted key reads as, shadows in rising order, raw counter on an edge of the timing clock),
a step that answers a next state answers one in canonical form. -/
def Obligations.CanonicalFormKept : Prop :=
  ∀ s u : State, s.Canon → step s = .next u → u.Canon

/-- The state after reset is in canonical form, in Boot mode, with the raw counter stopped at 0 and no command waiting. -/
def Obligations.ResetCanonical : Prop :=
  State.reset.Canon ∧ State.reset.mode = 0 ∧ State.reset.raw = 0 ∧ State.reset.rawRun = false ∧ State.reset.pending = []

/-- For every step from a canonical state, unless the command is a power-on reset or the lock of the timing PLL, the raw
counter stands at or past its value before, on an edge of the timing clock; whether it counts is unchanged, and where it does
not count it keeps its value. -/
def Obligations.RawCounterNeverRunsBack : Prop :=
  ∀ s u : State, s.Canon → step s = .next u →
    (∀ p r, s.pending ≠ Instr.powerOnReset p :: r) → (∀ r, s.pending ≠ Instr.timingPllLock :: r) →
    s.raw ≤ u.raw ∧ u.raw % 65536 = 0 ∧ u.rawRun = s.rawRun ∧ (s.rawRun = false → u.raw = s.raw)

/-- For every command but a completion write, an event or epoch delivery, a receive-frame write, a search report, a
statistics or counter snapshot, a mint, a frame commit, a public-key job or key-engine completion and a Flowstone read, every
byte of host memory reads after as it read before. -/
def Obligations.OnlyStoringCommandsWriteHostMemory : Prop :=
  ∀ (c : Instr) (s u : State), exec c s = .next u →
    (match c with
      | .completionWrite _ _ | .eventDeliver _ | .epochDeliver _ | .receiveFrameWrite _ _ | .searchReport _ _ _ | .statsSnap _ _
      | .mint _ _ _ _ | .frameCommit _ _ _ | .pkJobComplete _ _ _ _ | .keyHeadComplete _ _ _ | .flsRead _ _ _ _ _
      | .snapDeliveryEnd _ _ | .powerOnReset _ => False
      | _ => True) →
    ∀ a, u.byteAt a = s.byteAt a

/-- For every granted write of a register of one word that no rule of its own governs, with no commit of its block pending:
exec answers a next state in which each RW bit holds the written bit, each W1C bit written 1 is clear and every other live
bit is as before; each RWS bit the variant takes stands in the shadow as written; every other register, every shadow of
another register and all the rest of the state are unchanged. -/
def Obligations.RegisterWriteSetsFields : Prop :=
  ∀ (m a val : Nat) (s : State) (b : Blk) (row : RegSpec) (k : Nat), s.Canon →
    blkAt a = some b → rowAt a = some row → s.keyOf m a = some k → s.access m a .write = .granted →
    a ≠ b.commit → a ≠ b.sticky → s.writeSys a (val % 2 ^ 32) = none → s.writeOwn m a (val % 2 ^ 32) = none →
    row.lead = 0 → row.words ≤ 1 → s.on (cmPENDING b) = false →
    ∃ u, exec (.registerWrite m a val) s = .next u
      ∧ (∀ i, i < 32 → (u.nreg k).testBit i =
          if (row.maskOf .rw).testBit i then val.testBit i
          else ((s.nreg k).testBit i && !((row.maskOf .w1c).testBit i && val.testBit i)))
      ∧ (∀ i, i < 32 → (row.maskOf .rws).testBit i = true → (s.fixedBits k).testBit i = false →
          (u.shadowWord k).testBit i = val.testBit i)
      ∧ (∀ j, j ≠ k → u.reg j = s.reg j)
      ∧ (∀ j, j ≠ k → u.shadowWord j = s.shadowWord j)
      ∧ u = { s with regs := u.regs, shadow := u.shadow }

/-- For every granted write of a block's sticky register: exec answers a next state in which a bit written 1 reads as before
only if its event recurs in the same cycle and else reads 0, and a bit written 0 reads as before; no register changes but the
sticky register, the alarm summary, the ports' alarms and the words that show the first counter past its half, the first
faulty ledger instance; no other part of the state changes. -/
def Obligations.StickyBitsClearWhereWritten : Prop :=
  ∀ (m val recurs : Nat) (b : Blk) (s : State), s.Canon → blkAt b.sticky = some b → s.access m b.sticky .write = .granted →
    ∃ u, exec (.stickyClear m b val recurs) s = .next u
      ∧ (∀ i, i < 32 → (u.nreg b.sticky).testBit i = ((s.nreg b.sticky).testBit i && (!val.testBit i || recurs.testBit i)))
      ∧ (∀ j, j ∉ [b.sticky, PMC.ALARM_SUM, PMC.ALARM_PORTS, PMC.HALF_IDX, FAB.LEDGER_FAULT] →
          (∀ p, b = .prt p → j ≠ (PRT.STATS_SEL_HALF_VALID p).addr) → u.reg j = s.reg j)
      ∧ u = { s with regs := u.regs }

/-- For every granted read of the lowest word of a multi-word register (the tick registers apart): exec answers a next state
in which the master's latch of each higher word holds that word's value of this moment, every latch of every other master is
unchanged, and nothing else of the state changes; a read of a higher word returns the latched copy. For a register of two
words that no rule of its own governs: a granted write of the lower word, where all its bits are RW, is held and changes no
live register, and a granted write of the higher word, where it has no RWS or W1C bit, sets its RW bits as written and makes
a held lower word take effect, after which none is held; no other register changes. -/
def Obligations.MultiwordReadsLatchAndWritesTakeEffect : Prop :=
  (∀ (m a : Nat) (s : State) (row : RegSpec), rowAt a = some row → s.access m a .read = .granted → row.lead = 0 → 2 ≤ row.words →
    a ≠ GNA.TICK_SAMPLES_LO → a ≠ GNA.TICK_TIME_LO → a + 4 * row.words ≤ 2 ^ 32 → Store.wf zWord32 s.latch = true →
    ∃ u, exec (.multiwordLowRead m a) s = .next u
      ∧ (∀ i, 1 ≤ i → i < row.words → Store.get zWord32 u.latch (latchKey m (a + 4 * i)) = BitVec.ofNat 32 (s.current m (a + 4 * i)))
      ∧ (∀ m' a', m' ≠ m → a' < 2 ^ 32 → Store.get zWord32 u.latch (latchKey m' a') = Store.get zWord32 s.latch (latchKey m' a'))
      ∧ u = { s with latch := u.latch })
  ∧ (∀ (m a : Nat) (s : State) (row : RegSpec), rowAt a = some row → 0 < row.lead →
      s.readWord m a = (Store.get zWord32 s.latch (latchKey m a)).toNat)
  ∧ (∀ (m a val : Nat) (s : State) (b : Blk) (row : RegSpec), s.Canon → Store.wf (fun _ => none) s.held = true →
      blkAt a = some b → rowAt a = some row → s.keyOf m a = some a → s.access m a .write = .granted →
      a ≠ b.commit → a ≠ b.sticky → s.writeSys a (val % 2 ^ 32) = none → s.writeOwn m a (val % 2 ^ 32) = none →
      row.words = 2 →
      (row.lead = 0 → row.maskOf .rw = 2 ^ 32 - 1 → ∃ u, exec (.registerWrite m a val) s = .next u
          ∧ u.heldWord a = some (BitVec.ofNat 32 val) ∧ u = { s with held := u.held })
      ∧ (row.lead = 1 → row.maskOf .rw ≠ 0 → row.maskOf .rws = 0 → row.maskOf .w1c = 0 → ∃ u, exec (.multiwordHighWrite m a val) s = .next u
          ∧ (∀ i, i < 32 → (u.nreg a).testBit i = if (row.maskOf .rw).testBit i then val.testBit i else (s.nreg a).testBit i) ∧ u.heldWord (a - 4) = none
          ∧ (∀ w, s.heldWord (a - 4) = some w → u.reg (a - 4) = w)
          ∧ (s.heldWord (a - 4) = none → u.reg (a - 4) = s.reg (a - 4))
          ∧ (∀ j, j ≠ a → j ≠ a - 4 → u.reg j = s.reg j)
          ∧ u = { s with regs := u.regs, held := u.held }))

/-- From a canonical state: a write with fewer than four byte enables, by any master at any address, sets
FAB.STICKY.CFG_REFUSED and changes nothing else but what an alarm makes. Every denied register write or read counts
FAB.DENY_COUNT, records the master, target and right in FAB.DENY_LAST, sets FAB.STICKY.DENIED and changes no register beside
those and what every alarm writes (a denied write of a register whose operation reports a STATUS writes DENIED there and is
not stated here); a denied read returns 0. -/
def Obligations.PartialAndDeniedAccessesChangeNothing : Prop :=
  ∀ (m a val : Nat) (b : Blk) (s : State), s.Canon →
    (∀ en, en % 16 ≠ 15 → ∃ u, exec (.partialByteWrite m a val en) s = .next u ∧ u.on FAB.STICKY_CFG_REFUSED = true ∧ Signals [] s u)
    ∧ (blkAt a = some b → s.access m a .write = .denied → a ∉ [PTP.GRANT_CMD, GNC.CH_SEL, PWR.DOM_REQ] →
      ∃ u, exec (.registerWrite m a val) s = .next u
        ∧ u.nreg FAB.DENY_COUNT = (s.nreg FAB.DENY_COUNT + 1) % 2 ^ 32
        ∧ u.nreg FAB.DENY_LAST = (m + 2 ^ 8 * b.target + 2 ^ 16) % 2 ^ 32
        ∧ u.on FAB.STICKY_DENIED = true
        ∧ Signals [FAB.DENY_COUNT, FAB.DENY_LAST] s u)
    ∧ (blkAt a = some b → s.access m a .read = .denied →
      ∃ u, exec (.multiwordLowRead m a) s = .next u
        ∧ u.nreg FAB.DENY_COUNT = (s.nreg FAB.DENY_COUNT + 1) % 2 ^ 32
        ∧ u.nreg FAB.DENY_LAST = (m + 2 ^ 8 * b.target) % 2 ^ 32
        ∧ u.on FAB.STICKY_DENIED = true
        ∧ (s.busRead m a).2 = 0
        ∧ Signals [FAB.DENY_COUNT, FAB.DENY_LAST] s u)

/-- For every block with a commit group and a granted write, from a canonical state with no commit pending: GO on a valid
shadow set sets PENDING and changes no register but COMMIT; DISCARD makes every shadow of the group equal its live value,
leaves every other shadow, and changes no live register but COMMIT. At its safe point (here: of group FAB) a pending set
takes effect whole, PENDING clears and COUNT counts it. -/
def Obligations.CommitGoDiscardAndEffect : Prop :=
  ∀ (m : Nat) (b : Blk) (s : State), s.Canon → b.commitOff.isSome = true → blkAt b.commit = some b → s.access m b.commit .write = .granted →
    (s.on (cmPENDING b) = false → (s.wr (cmVIEW b) 0).groupValid b = true → ∃ u, exec (.commitGo m b) s = .next u
        ∧ u.on (cmPENDING b) = true ∧ u.shadow = s.shadow ∧ (∀ j, j ≠ b.commit → u.reg j = s.reg j)
        ∧ u = { s with regs := u.regs })
    ∧ (s.on (cmPENDING b) = false → ∃ u, exec (.commitDiscard m b) s = .next u
        ∧ (∀ k, groupOf k = b.commit → u.shadowWord k = u.nreg k)
        ∧ (∀ k, groupOf k ≠ b.commit → u.shadowWord k = s.shadowWord k)
        ∧ (∀ j, j ≠ b.commit → u.reg j = s.reg j)
        ∧ u = { s with regs := u.regs, shadow := u.shadow })
    ∧ (∀ t : Nat, s.on (cmPENDING .fab) = true → ∃ u, exec (.commitTakesEffect .fab t) s = .next u
        ∧ u.on (cmPENDING .fab) = false ∧ u.rd (cmCOUNT .fab) = (s.rd (cmCOUNT .fab) + 1) % 2 ^ 16
        ∧ (∀ e ∈ s.shadow, groupOf e.1 = Blk.fab.commit → e.1 ∉ alarmKeys → e.1 ≠ Blk.fab.commit → u.reg e.1 = e.2)
        ∧ (∀ k, groupOf k = Blk.fab.commit → u.shadowWord k = u.nreg k))

/-- For every block with a commit group, a granted write of GO with no commit pending, on a shadow set that breaks a rule of
its chapter, answers a next state in which PENDING is clear, REFUSED and the block's CFG_REFUSED sticky bit are set, and no
live register changes but COMMIT, the sticky register and what signalling writes. -/
def Obligations.InvalidCommitRefused : Prop :=
  ∀ (m : Nat) (b : Blk) (s : State), s.Canon → b.commitOff.isSome = true → blkAt b.commit = some b → blkAt b.sticky = some b →
    s.access m b.commit .write = .granted → s.on (cmPENDING b) = false → (s.wr (cmVIEW b) 0).groupValid b = false →
    ∃ u, exec (.commitGo m b) s = .next u
      ∧ u.on (cmPENDING b) = false ∧ u.on (cmREFUSED b) = true ∧ u.on b.cfgRefused = true ∧ Signals [b.commit, b.sticky] s u

/-- For every block with a commit group whose commit is pending: a granted write of GO, and a granted write of a register
with shadow bits that no rule of its own governs, answer a next state with the same shadows, PENDING still set and the
block's CFG_REFUSED sticky bit set. -/
def Obligations.PendingCommitIgnoresWrites : Prop :=
  ∀ (m : Nat) (b : Blk) (s : State), s.Canon → b.commitOff.isSome = true → blkAt b.commit = some b → blkAt b.sticky = some b →
    s.on (cmPENDING b) = true →
    (s.access m b.commit .write = .granted → ∃ u, exec (.commitGo m b) s = .next u
        ∧ u.shadow = s.shadow ∧ u.on (cmPENDING b) = true ∧ u.on b.cfgRefused = true ∧ Signals [b.commit, b.sticky] s u)
    ∧ (∀ (a val : Nat) (row : RegSpec) (k : Nat), blkAt a = some b → rowAt a = some row → s.keyOf m a = some k →
        s.access m a .write = .granted → a ≠ b.commit → a ≠ b.sticky → s.writeSys a (val % 2 ^ 32) = none →
        s.writeOwn m a (val % 2 ^ 32) = none → row.maskOf .rws ≠ 0 → row.maskOf .rw ≠ 2 ^ 32 - 1 → row.maskOf .rw = 0 ∨ row.lead = 0 →
        ∃ u, exec (.registerWrite m a val) s = .next u
          ∧ u.shadow = s.shadow ∧ u.on (cmPENDING b) = true ∧ u.on b.cfgRefused = true)

/-- For every master other than 0 and every state, a write of GLB.MODE_REQ or GLB.RESET_CTRL is never granted, whatever the
access tables hold, and where the mode lets the master reach it, it is denied: DENY_COUNT counts it and STICKY.DENIED sets,
and no mode changes; a request of the twin while POLICY.TWIN_REQ is 0 changes nothing but the time. -/
def Obligations.OnlyMasterZeroRequestsModes : Prop :=
  (∀ (m a : Nat) (s : State), m ≠ 0 → a = GLB.MODE_REQ ∨ a = GLB.RESET_CTRL → s.access m a .write ≠ .granted)
  ∧ (∀ (m t : Nat) (s : State) (c : Instr), s.Canon → m ≠ 0 → (s.advance t).modeAllows m .glb GLB.MODE_REQ true = true →
      c = .modeReqService m t ∨ c = .modeReqDegraded m t ∨ c = .modeReqQuiesce m t ∨ c = .modeReqTwinStandby m t
        ∨ c = .modeReqProvisioning m t ∨ c = .modeReqLockdown m t ∨ (∃ d, c = .modeReqKeepAlive m d t)
        ∨ (∃ b, c = .modeReqMaintenance m b t ∨ c = .modeReqRelease m b t ∨ c = .modeReqUnreachable m b t) →
      ∃ u, exec c s = .next u ∧ u.mode = s.mode ∧ u.nreg FAB.DENY_COUNT = (s.nreg FAB.DENY_COUNT + 1) % 2 ^ 32
        ∧ u.on FAB.STICKY_DENIED = true ∧ Signals [FAB.DENY_COUNT, FAB.DENY_LAST] (s.advance t) u)
  ∧ (∀ (m t : Nat) (skip ok : Bool) (s : State), s.Canon → m ≠ 0 → (s.advance t).modeAllows m .glb GLB.RESET_CTRL true = true →
      ∃ u, exec (.warmReset m skip ok t) s = .next u ∧ u.mode = s.mode
        ∧ u.nreg FAB.DENY_COUNT = (s.nreg FAB.DENY_COUNT + 1) % 2 ^ 32 ∧ u.on FAB.STICKY_DENIED = true
        ∧ Signals [FAB.DENY_COUNT, FAB.DENY_LAST] (s.advance t) u)
  ∧ (∀ (h : Bool) (t : Nat) (s : State), s.on GLB.POLICY_TWIN_REQ = false → exec (.twinModeRequest h t) s = .next (s.advance t))

/-- From every state in which each ledger instance satisfies issued = returned + held modulo 2^48, every step that answers a
next state answers one in which each instance satisfies it; the ledger after reset satisfies it. -/
def Obligations.LedgerBalanceKept : Prop :=
  State.reset.Balanced ∧ ∀ s u : State, s.Balanced → step s = .next u → u.Balanced

/-- A granted write of AUDIT with an allowed AUTO_PERIOD, and an AUTO_PERIOD interval that is on, capture ledger and terms
into a copy where fewer than two copies are taken, and change no copy where two are. The end of an audit none of whose
instances fails releases the copy, counts AUDIT_COUNT and sets AUDIT_DONE. Nothing else changes but what alarms and records
change. A granted write of FAB.QUEUE_STAT with bit 31 set, for a selected queue that exists, sets its high-water mark to the
entries it now holds and changes nothing else. -/
def Obligations.AuditsAndHighWaterMarks : Prop :=
  (∀ (m val t : Nat) (s : State), s.Canon → (s.advance t).access m FAB.LEDGER_CTRL .write = .granted → bitAt val 0 = true →
      bitsOf val 8 4 < 12 → s.fab.copies.length < 2 →
      ∃ u, exec (.ledgerAuditRequest m val t) s = .next u
        ∧ u.fab = { s.fab with copies := s.fab.copies ++ [⟨s.fab.ledger, s.fab.terms, []⟩] }
        ∧ u.on FAB.LEDGER_CTRL_AUDITING = true ∧ u.rd FAB.LEDGER_CTRL_AUTO_PERIOD = bitsOf val 8 4
        ∧ (∀ j, j ≠ FAB.LEDGER_CTRL → u.reg j = s.reg j)
        ∧ u = { s.advance t with fab := u.fab, regs := u.regs })
  ∧ (∀ (t : Nat) (s : State), s.Canon → s.rd FAB.LEDGER_CTRL_AUTO_PERIOD ≠ 0 → s.fab.copies.length < 2 →
      ∃ u, exec (.ledgerAutoAudit t) s = .next u
        ∧ u.fab = { s.fab with copies := s.fab.copies ++ [⟨s.fab.ledger, s.fab.terms, []⟩] }
        ∧ u.on FAB.LEDGER_CTRL_AUDITING = true ∧ (∀ j, j ≠ FAB.LEDGER_CTRL → u.reg j = s.reg j)
        ∧ u = { s.advance t with fab := u.fab, regs := u.regs })
  ∧ (∀ (t : Nat) (s : State), s.rd FAB.LEDGER_CTRL_AUTO_PERIOD ≠ 0 → 2 ≤ s.fab.copies.length →
      exec (.ledgerAutoAudit t) s = .next (s.advance t))
  ∧ (∀ (t : Nat) (s : State) (c : LedgerCopy) (rest : List LedgerCopy), s.Canon → s.fab.copies = c :: rest → c.fails = [] →
      ∃ u, exec (.ledgerAuditEnd t) s = .next u
        ∧ u.fab.copies = rest ∧ u.rd FAB.LEDGER_CTRL_AUDIT_COUNT = (s.rd FAB.LEDGER_CTRL_AUDIT_COUNT + 1) % 2 ^ FAB.LEDGER_CTRL_AUDIT_COUNT.w
        ∧ u.on FAB.LEDGER_CTRL_AUDITING = !rest.isEmpty ∧ u.on FAB.STICKY_AUDIT_DONE = true
        ∧ Signals [FAB.LEDGER_CTRL, FAB.STICKY] { s.advance t with fab := { s.fab with copies := rest } } u)
  ∧ (∀ (m val t : Nat) (s : State), (s.advance t).access m FAB.QUEUE_STAT .write = .granted → bitAt val 31 = true →
    queueCap s.variant (s.rd FAB.QUEUE_SEL_QUEUE) ≠ 0 →
    exec (.queueHwReset m val t) s = .next { s.advance t with fab := { s.fab with
      qHigh := Store.put zNat s.fab.qHigh (s.rd FAB.QUEUE_SEL_QUEUE) (s.qOcc (s.rd FAB.QUEUE_SEL_QUEUE)) } })

/-- The end of an audit with one failing instance (of a kind other than CREDIT) sets LEDGER_FAULT, isolates the unit that
owns the instance, and leaves the instance with issued = returned and held = 0. With REINIT_ON_FAULT an isolated unit that
has not failed twice returns to service and counts in BST.REINITS, and nothing else changes; one that failed twice becomes
unusable. -/
def Obligations.FailingInstanceIsolatesItsUnit : Prop :=
  (∀ (t : Nat) (s : State) (c : LedgerCopy) (rest : List LedgerCopy) (k : Tok) (i : Nat), s.Canon →
      s.Balanced → s.fab.copies = c :: rest → c.fails = [(k, i)] → k ≠ .credit →
      ∃ u, exec (.ledgerAuditEnd t) s = .next u
        ∧ u.on FAB.STICKY_LEDGER_FAULT = true ∧ u.on FAB.STICKY_AUDIT_DONE = true ∧ ownerOf k i ∈ u.fab.isolated
        ∧ (u.lget k i).issued = (u.lget k i).returned ∧ (u.lget k i).held = 0)
  ∧ (∀ (kind inst t : Nat) (k : Tok) (s : State), s.Canon → tokOf kind = some k → ownerOf k inst ∈ s.fab.isolated →
      ownerOf k inst ∉ s.fab.unusable → s.on FAB.CTRL_REINIT_ON_FAULT = true →
      Store.get zNat s.fab.failRaw (65536 + ownerOf k inst) = 0 →
      ∃ u, exec (.unitReinit kind inst t) s = .next u
        ∧ u.fab = { s.fab with isolated := s.fab.isolated.filter (· != ownerOf k inst) }
        ∧ u.nreg BST.REINITS = (s.nreg BST.REINITS + 1) % 2 ^ 32 ∧ (∀ j, j ≠ BST.REINITS → u.reg j = s.reg j)
        ∧ u = { s.advance t with fab := u.fab, regs := u.regs })

/-- From a canonical state in which a mode request is taken: Quiesce from Service or Degraded, Service from Twin-standby,
Twin-standby from Provisioning with the twin link UP, Provisioning from Twin-standby, Maintenance of a block from Service,
Degraded or Maintenance, and the release of a maintained block each answer a next state in the mode the transition names,
with status OK, MODE_DONE and MODE_CHANGE set and the mode before shown; only the registers of the mode, what the row names
beside them and what signalling changes are written (fencing and unfencing of the ports and the fenced quads apart). From
Provisioning a Service request leads to Service, or to Degraded where a block lacks a spare, where no core failed, no commit
is pending, FAB was committed and POLICY written, and else completes MODE_FORBIDS. -/
def Obligations.ModeRequestsChangeTheMode : Prop :=
  ∀ (m t b : Nat) (s : State), s.Canon → s.takesRequest m t →
    (s.mode = 4 ∨ s.mode = 5 → ∃ u, exec (.modeReqQuiesce m t) s = .next u
        ∧ u.wentTo s.mode 9 ∧ u.requestDone stOK ∧ Signals modeKeys (s.advance t) u)
    ∧ (s.mode = 7 → ∃ u, exec (.modeReqService m t) s = .next u
        ∧ u.wentTo 7 s.serviceMode ∧ u.requestDone stOK ∧ Signals (TWN.STICKY :: modeKeys) (s.advance t) u)
    ∧ (s.mode = 3 → s.rd TWN.STAT_LINK = 3 → ∃ u, exec (.modeReqTwinStandby m t) s = .next u
        ∧ u.wentTo 3 7 ∧ u.requestDone stOK ∧ Signals (TWN.MIRROR_STAT :: modeKeys) (s.advance t) u)
    ∧ (s.mode = 7 → ∃ u, exec (.modeReqProvisioning m t) s = .next u
        ∧ u.wentTo 7 3 ∧ u.requestDone stOK
        ∧ Signals (TWN.STAT :: modeKeys) { s.advance t with dsc := { s.dsc with first := true } } u)
    ∧ (s.mode = 4 ∨ s.mode = 5 → b ≤ 24 → ∃ u, exec (.modeReqMaintenance m b t) s = .next u
        ∧ u.wentTo s.mode 6 ∧ u.requestDone stOK ∧ u.maint b = true
        ∧ (b ≠ 12 → Signals (GLB.MAINT_SET :: modeKeys) (s.advance t) u))
    ∧ (s.mode = 6 → b ≤ 24 → b ≠ 12 → s.maint b = false → ∃ u, exec (.modeReqMaintenance m b t) s = .next u
        ∧ u.mode = 6 ∧ u.requestDone stOK ∧ u.maint b = true ∧ Signals (GLB.MAINT_SET :: modeKeys) (s.advance t) u)
    ∧ (s.mode = 6 → b ≤ 24 → s.nreg GLB.MAINT_SET = 2 ^ b → (b = 13 → ∀ q, q < 4 → s.on (fencedFld q) = false) →
        ∃ u, exec (.modeReqRelease m b t) s = .next u
        ∧ u.wentTo 6 s.serviceMode ∧ u.requestDone stOK ∧ u.maint b = false
        ∧ Signals (GLB.MAINT_SET :: TWN.STICKY :: modeKeys) (s.advance t) u)
    ∧ (s.mode = 3 → s.mayServe = true → ∃ u, exec (.modeReqService m t) s = .next u
        ∧ u.wentTo 3 s.serviceMode ∧ u.requestDone stOK ∧ Signals (TWN.STICKY :: modeKeys) (s.advance t) u)
    ∧ (s.mode = 3 → s.mayServe = false → ∃ u, exec (.modeReqService m t) s = .next u
        ∧ u.mode = 3 ∧ u.requestDone stMODE_FORBIDS ∧ Signals modeKeys (s.advance t) u)

/-- From a canonical state in which a mode request is taken: a request for Degraded, from any mode, and one for a mode that
no request reaches (Boot, Self-test, Recovery, Factory-test and the numbers that are no mode) complete REFUSED, set
CFG_REFUSED and leave the mode; so do Quiesce outside Service and Degraded, Twin-standby outside Provisioning, Provisioning
outside Twin-standby and the release of a block outside Maintenance. No register changes but those of the request and what
signalling writes. -/
def Obligations.UnreachableRequestsRefused : Prop :=
  ∀ (m t b tgt : Nat) (s : State), s.Canon → s.takesRequest m t → ∀ c : Instr,
    (c = .modeReqDegraded m t ∨ c = .modeReqUnreachable m tgt t
      ∨ (c = .modeReqQuiesce m t ∧ s.mode ≠ 4 ∧ s.mode ≠ 5) ∨ (c = .modeReqTwinStandby m t ∧ s.mode ≠ 3)
      ∨ (c = .modeReqProvisioning m t ∧ s.mode ≠ 7) ∨ (c = .modeReqRelease m b t ∧ s.mode ≠ 6)
      ∨ (c = .modeReqMaintenance m b t ∧ s.mode ≠ 4 ∧ s.mode ≠ 5 ∧ s.mode ≠ 6)) →
    ∃ u, exec c s = .next u ∧ u.mode = s.mode ∧ u.requestDone stREFUSED ∧ u.on GLB.STICKY_CFG_REFUSED = true
      ∧ Signals modeKeys (s.advance t) u

/-- From a canonical state: a Lockdown request that is taken (from a mode other than Boot, Self-test, Keep-alive, Lockdown
and Factory-test, with no Keep-alive entry running) leads to Lockdown, completes OK and leaves no key but an unusable slot 0;
a Keep-alive request that is taken in Service or Degraded, with no sleep or wake running, XO_OFF 0 and the first ports not
yet asleep, is pending and puts the first domain of the order into question while the mode stays; a twin's request, with
TWIN_REQ 1 and the link UP, puts an engine in Service or Degraded into Quiesce. -/
def Obligations.LockdownKeepAliveAndTwinRequests : Prop :=
  ∀ (m t : Nat) (s : State), s.Canon →
    (s.takesRequest m t → s.mode ∉ [0, 1, 8, 10, 11] → s.pwr.sleep = none → ∃ u, exec (.modeReqLockdown m t) s = .next u
        ∧ u.mode = 10 ∧ u.requestDone stOK ∧ u.key.slots = [(0, noKey)] ∧ u.on KEY.STICKY_ALL_ZEROISED = true)
    ∧ (s.takesRequest m t → s.mode = 4 ∨ s.mode = 5 → s.pwrBusy = false → s.on PWR.KA_CFG_XO_OFF = false →
        s.domState 0 < 2 → ∃ u, exec (.modeReqKeepAlive m 0 t) s = .next u
        ∧ u.mode = s.mode ∧ u.on GLB.MODE_STAT_PENDING = true ∧ u.rd PWR.SLEEP_STAT_STATE = 1 ∧ u.rd PWR.SLEEP_STAT_DOMAIN = 0
        ∧ u.pwr.sleep.isSome = true)
    ∧ (s.on GLB.POLICY_TWIN_REQ = true → s.rd TWN.STAT_LINK = 3 → s.mode = 4 ∨ s.mode = 5 → s.on GLB.MODE_STAT_PENDING = false →
        ∃ u, exec (.twinModeRequest false t) s = .next u
        ∧ u.wentTo s.mode 9 ∧ Signals modeKeys (s.advance t) u)

/-- A power-on reset outside test leaves Boot mode with the raw counter stopped at 0, no shadow, no ring and no key request,
and keeps the waiting commands, host memory, the ordering code and the medium; a granted warm reset enters Boot with
RESET_CAUSE.WARM set, no ring, no shadow set waiting, an empty command queue and the raw counter unchanged; a write of
RESET_CTRL with a wrong key sets CFG_REFUSED and resets nothing. PERST# sets its reset cause and ends every ring, and touches
no sequencer, key or timescale. -/
def Obligations.ResetsLeaveWhatTheyMust : Prop :=
  (∀ (p : PowerOn) (s : State), p.test = false → ∃ u, exec (.powerOnReset p) s = .next u
      ∧ u.mode = 0 ∧ u.raw = 0 ∧ u.rawRun = false ∧ u.hif.cmdQ = [] ∧ u.pke.queues = []
      ∧ u.pending = s.pending ∧ u.mem = s.mem ∧ u.variant = s.variant ∧ u.fls.pages = s.fls.pages)
  ∧ (∀ (m t : Nat) (skip ok : Bool) (s : State), s.Canon → (s.advance t).access m GLB.RESET_CTRL .write = .granted →
      ∃ u, exec (.warmReset m skip ok t) s = .next u
      ∧ u.mode = 0 ∧ u.on GLB.RESET_CAUSE_WARM = true ∧ u.raw = (s.advance t).raw ∧ u.hif.cmdQ = [] ∧ u.glb.skipBist = skip
      ∧ u.rsp.jobs = [] ∧ u.glb.policySet = false)
  ∧ (∀ (m val t : Nat) (s : State), s.Canon → (s.advance t).access m GLB.RESET_CTRL .write = .granted → val % 256 ≠ 0xA5 →
      ∃ u, exec (.resetCtrlWrongKey m val t) s = .next u
      ∧ u.mode = s.mode ∧ u.on GLB.STICKY_CFG_REFUSED = true ∧ Signals [GLB.STICKY] (s.advance t) u)
  ∧ (∀ (t : Nat) (s : State), s.Canon → ∃ u, exec (.perst t) s = .next u
      ∧ u.on GLB.RESET_CAUSE_PERST = true ∧ u.on HIF.STICKY_LINK_DOWN = true ∧ u.hif.fns = [] ∧ u.mode = s.mode
      ∧ u.tsc = s.tsc ∧ u.key = s.key ∧ u.dsc = s.dsc)

/-- In Boot with no fatal failure: where no copy of the next kind passes its checks the load sets FATAL and STICKY.IMAGE_FAIL
and Boot goes on no further; where the preferred copy of the second kind, calibration, passes, the load takes it: the stage
counts it and the image's slot and version are shown, and nothing else changes. A power-on self-test counts its tests and
runs; when it is done with no failing unit the next mode is Recovery after a golden image and Provisioning otherwise. -/
def Obligations.BootAndSelfTest : Prop :=
  (∀ (x : BootImages) (t : Nat) (s : State), s.Canon → s.mode = 0 → s.on GLB.BOOT_STAT_FATAL = false → s.rd GLB.BOOT_STAT_STAGE < 8 →
      x.a.readable = false → x.b.readable = false → x.golden.readable = false →
      ∃ u, exec (.bootImageLoad x t) s = .next u
      ∧ u.on GLB.BOOT_STAT_FATAL = true ∧ u.on GLB.STICKY_IMAGE_FAIL = true ∧ u.mode = 0
      ∧ u.rd GLB.BOOT_STAT_STAGE = s.rd GLB.BOOT_STAT_STAGE + 1)
  ∧ (∀ (x : BootImages) (t : Nat) (s : State), s.Canon → s.mode = 0 → s.on GLB.BOOT_STAT_FATAL = false → s.rd GLB.BOOT_STAT_STAGE = 1 →
      (s.advance t).prefers 7 = 1 → (s.advance t).copyCode 7 x.a = stOK →
      ∃ u, exec (.bootImageLoad x t) s = .next u
      ∧ u.rd GLB.BOOT_STAT_STAGE = 2 ∧ u.rd (GLB.IMAGE_STAT_SLOT 7) = 1
      ∧ u.rd (GLB.IMAGE_STAT_VERSION 7) = x.a.version % 2 ^ (GLB.IMAGE_STAT_VERSION 7).w ∧ u.mode = 0
      ∧ (∀ j, j ≠ GLB.BOOT_STAT → j ≠ GLB.IMAGE_STAT 7 → u.reg j = s.reg j)
      ∧ u = { s.advance t with regs := u.regs, fls := u.fls })
  ∧ (∀ (t : Nat) (s : State), s.Canon → s.mode = 1 → s.on BST.STAT_RUNNING = false → ∃ u, exec (.poweronSelfTest t) s = .next u
      ∧ u.on BST.STAT_RUNNING = true ∧ u.on BST.STICKY_SECRET_CLEAR = true ∧ u.mode = 1)
  ∧ (∀ (rep ms t : Nat) (s : State), s.Canon → s.mode = 1 → s.on BST.STAT_RUNNING = true → s.glb.tampered = false →
      s.on GLB.MODE_STAT_PENDING = false → ∃ u, exec (.selfTestDone [] [] rep ms t) s = .next u
      ∧ u.wentTo 1 (if s.on GLB.BOOT_STAT_GOLDEN then 2 else 3) ∧ u.on BST.STAT_RUNNING = false
      ∧ u.nreg BST.POWERON_MS = ms % 2 ^ 32)

/-- From a canonical state: an enabled TAMPER input that goes active in Service, Degraded, Maintenance, Quiesce, Recovery,
Provisioning or Twin-standby with no Keep-alive entry running leads to Lockdown with STICKY.TAMPER set and no key left; in
Boot and Self-test it is recorded; a ball that returns to its inactive level is stored and changes nothing else; a granted
write of POLICY in Provisioning that makes no input active sets the register and nothing else, and in any other mode it is
refused with CFG_REFUSED. -/
def Obligations.TamperAndPolicy : Prop :=
  ∀ (m val t i : Nat) (s : State), s.Canon → i < 4 →
    (s.mode ∈ [2, 3, 4, 5, 6, 7, 9] → s.pwr.sleep = none → bitAt (s.rd GLB.POLICY_TAMPER_EN) i = true → bitAt s.tamperActive i = false →
      ∃ u, exec (.tamperEvent i t) s = .next u
      ∧ u.mode = 10 ∧ u.on GLB.STICKY_TAMPER = true ∧ u.key.slots = [(0, noKey)])
    ∧ (s.mode = 0 ∨ s.mode = 1 → bitAt (s.rd GLB.POLICY_TAMPER_EN) i = true → bitAt s.tamperActive i = false →
      ∃ u, exec (.tamperEvent i t) s = .next u
      ∧ u.glb.tampered = true ∧ u.on GLB.STICKY_TAMPER = true ∧ u.mode = s.mode
      ∧ Signals [GLB.STICKY] { s.advance t with glb := u.glb } u)
    ∧ (∃ u, exec (.tamperRelease i t) s = .next u
      ∧ bitAt u.glb.tamper i = !bitAt (s.rd GLB.POLICY_TAMPER_POL) i ∧ u = { s.advance t with glb := { s.glb with tamper := u.glb.tamper } })
    ∧ ((s.advance t).access m GLB.POLICY .write = .granted → s.mode ≠ 3 → ∃ u, exec (.policyWrite m val t) s = .next u
      ∧ u.on GLB.STICKY_CFG_REFUSED = true ∧ Signals [GLB.STICKY] (s.advance t) u)
    ∧ ((s.advance t).access m GLB.POLICY .write = .granted → s.mode = 3 → bitsOf val GLB.POLICY_TAMPER_EN.lo 4 = 0 →
      ∃ u, exec (.policyWrite m val t) s = .next u
      ∧ u.nreg GLB.POLICY = val % 1024 ∧ u.glb.policySet = true ∧ (∀ j, j ≠ GLB.POLICY → u.reg j = s.reg j)
      ∧ u = { s.advance t with regs := u.regs, glb := u.glb })

/-- From a canonical state: an oscillator that becomes ready is shown so; at power-on, before the raw counter runs, the
selected oscillator that stays not ready is replaced by the other one with LO_FALLBACK set; the lock of the timing PLL starts
the raw counter at 0 and, once it runs, changes nothing; the loss of the active oscillator without AUTO sets LO_LOST and
PLL_HOLD and shows the hold; the active oscillator back in PLL hold ends the hold and a retry that its loss began; the
alternate no longer ready is shown so with LO_XDIFF unknown; a retry that finds the alternate not ready sets LO_FAIL. Nothing
else changes but what signalling changes. -/
def Obligations.OscillatorEvents : Prop :=
  ∀ (g : Bool) (d : Int) (t : Nat) (s : State), s.Canon →
    (∃ u, exec (.loReady g) s = .next u ∧ u.on (loReady g) = true ∧ (∀ j, j ≠ TSC.LO_STAT → u.reg j = s.reg j)
        ∧ u = { s with regs := u.regs })
    ∧ (s.rawRun = false → s.on (loReady s.grottoActive) = false → ∃ u, exec (.loFallback g) s = .next u
        ∧ u.grottoActive = !s.grottoActive ∧ u.on (loReady u.grottoActive) = g ∧ u.on GLB.STICKY_LO_FALLBACK = true
        ∧ Signals [TSC.LO_STAT, TSC.LO_CTRL, GRT.STATE, GLB.STICKY] s u)
    ∧ (s.rawRun = false → ∃ u, exec .timingPllLock s = .next u
        ∧ u.rawRun = true ∧ u.raw = 0 ∧ u.on TSC.LO_STAT_PLL_LOCK = true ∧ (∀ j, j ≠ TSC.LO_STAT → u.reg j = s.reg j)
        ∧ u = { s with regs := u.regs, rawRun := true, raw := 0 })
    ∧ (s.rawRun = true → exec .timingPllLock s = .next s)
    ∧ (s.on TSC.LO_CTRL_AUTO = false → ∃ u, exec (.loLoss d t) s = .next u
        ∧ u.on TSC.STICKY_LO_LOST = true ∧ u.on TSC.STICKY_PLL_HOLD = true ∧ u.on TSC.LO_STAT_PLL_HOLD = true
        ∧ u.on (loReady s.grottoActive) = false ∧ u.grottoActive = s.grottoActive
        ∧ Signals [TSC.LO_STAT, TSC.STICKY] (s.advance t) u)
    ∧ (s.on TSC.LO_STAT_PLL_HOLD = true → ∃ u, exec (.oscillatorReady s.grottoActive d t) s = .next u
        ∧ u.on TSC.LO_STAT_PLL_HOLD = false ∧ u.on (loReady s.grottoActive) = true
        ∧ (∀ j, j ≠ TSC.LO_STAT → u.reg j = s.reg j)
        ∧ u = { s.advance t with regs := u.regs, tsc := { s.tsc with retryAt := if s.tsc.afterLoss then none else s.tsc.retryAt, afterLoss := false } })
    ∧ (∃ u, exec (.alternateNotReady t) s = .next u
        ∧ u.altReady = false ∧ u.nreg TSC.LO_XDIFF = 0x80000000
        ∧ (∀ j, j ≠ TSC.LO_STAT → j ≠ TSC.LO_XDIFF → u.reg j = s.reg j) ∧ u = { s.advance t with regs := u.regs })
    ∧ (∀ e, s.tsc.retryAt = some e → e ≤ (s.advance t).raw → s.altReady = false → ∃ u, exec (.loSwitchRetry d t) s = .next u
        ∧ u.on TSC.STICKY_LO_FAIL = true ∧ u.tsc.retryAt = none ∧ u.grottoActive = s.grottoActive
        ∧ (s.tsc.afterLoss = false → u.on TSC.LO_CTRL_SEL = s.grottoActive)
        ∧ Signals [TSC.STICKY, TSC.LO_CTRL] { s.advance t with tsc := { s.tsc with retryAt := none } } u)

/-- From a canonical state whose alternate oscillator is ready: the loss of the active oscillator with AUTO, a granted write
of SEL that names the alternate, a retry that is due, and the alternate becoming ready in PLL hold with AUTO each answer a
next state in which the other oscillator is active, LO_SWITCH is set, the raw counter is as time has brought it, and all 64
timescales read at this edge what they read before. -/
def Obligations.SwitchoverKeepsTimescaleValues : Prop :=
  ∀ (m : Nat) (d : Int) (t e : Nat) (s : State), s.Canon →
    ∀ c : Instr, (s.altReady = true ∧ c = .loLoss d t ∧ s.on TSC.LO_CTRL_AUTO = true)
      ∨ (s.altReady = true ∧ c = .loCtrlWrite m (16 * s.rd TSC.LO_CTRL_XO_FREQ + b2n (!s.grottoActive)) d t
          ∧ (s.advance t).access m TSC.LO_CTRL .write = .granted)
      ∨ (s.altReady = true ∧ c = .loSwitchRetry d t ∧ s.tsc.retryAt = some e ∧ e ≤ (s.advance t).raw)
      ∨ (c = .oscillatorReady (!s.grottoActive) d t ∧ s.on TSC.LO_STAT_PLL_HOLD = true ∧ s.tsc.retryAt = none
          ∧ s.on TSC.LO_CTRL_AUTO = true) →
    ∃ u, exec c s = .next u
      ∧ u.grottoActive = !s.grottoActive ∧ u.on TSC.STICKY_LO_SWITCH = true ∧ u.on TSC.LO_STAT_PLL_HOLD = false
      ∧ u.raw = (s.advance t).raw ∧ ∀ n, n < 64 → u.tsNow n = (s.advance t).tsNow n

/-- For every canonical state and every write of the discipline steering port: exec answers a next state in which all 64
timescales read at this edge what they read before; a rate within ±2^54 is timescale 0's rate in live value and shadow; a
bound of less than 2^31 is its slew bound; a target in q within the signed 64 bits is its remaining offset; what is not
written stays. -/
def Obligations.SteeringKeepsValues : Prop :=
  ∀ (r x b : Option Int) (t : Nat) (s : State), s.Canon → s.follows 0 = false →
    ∃ u, exec (.steeringPortWrite r x b t) s = .next u
      ∧ (∀ n, n < 64 → u.tsNow n = (s.advance t).tsNow n) ∧ u.raw = (s.advance t).raw
      ∧ (∀ v, r = some v → -(2 ^ 54) ≤ v → v ≤ 2 ^ 54 → u.rho 0 = v ∧ u.shRho 0 = v) ∧ (r = none → u.rho 0 = s.rho 0)
      ∧ (∀ v, b = some v → 0 ≤ v → v < 2 ^ 31 → u.rd (TSC.SLEW_BOUND_BOUND 0) = v.toNat)
      ∧ (b = none → u.rd (TSC.SLEW_BOUND_BOUND 0) = s.rd (TSC.SLEW_BOUND_BOUND 0))
      ∧ (∀ v, x = some v → u.remAt 0 u.raw = v * 2 ^ 32) ∧ (x = none → u.remAt 0 u.raw = (s.advance t).remAt 0 (s.advance t).raw)

/-- From a canonical state: a slew whose last share has been absorbed leaves no remaining offset, sets SLEW_DONE and keeps
every timescale's value at this edge; UTC_STAT shows the offset, the warning and the next entry of this second when the
warning begins and when the leap is reached, and LEAP_DONE sets for an entry that was warned of and reached; a due smear sets
every SMEAR timescale of its profile smearing, adds minus the leap step to its offset and is remembered; a granted snapshot
copies the timescale's value, anchor and base into the SNAP registers and changes no other register. -/
def Obligations.SlewsLeapsSmearsAndSnapshots : Prop :=
  (∀ (n t : Nat) (s : State), s.Canon → n < 64 → ((s.advance t).tsOf n).rem ≠ 0 → s.boundOf n ≠ 0 → s.slewEnd n ≤ (s.advance t).raw →
      ∃ u, exec (.slewDone n t) s = .next u
      ∧ u.remAt n u.raw = 0 ∧ u.on TSC.STICKY_SLEW_DONE = true ∧ u.on (TSC.STATUS_SLEWING n) = false ∧ u.raw = (s.advance t).raw)
  ∧ (∀ (t : Nat) (s : State), s.Canon → ∃ u, exec (.leapWarnStart t) s = .next u
      ∧ u.nreg TSC.UTC_STAT = (s.advance t).utcStat % 2 ^ 32 ∧ (∀ j, j ≠ TSC.UTC_STAT → u.reg j = s.reg j)
      ∧ u = { s.advance t with regs := u.regs })
  ∧ (∀ (t : Nat) (l : Leap) (s : State), s.Canon → s.rd TSC.UTC_STAT_LEAP_WARN ≠ 0 → l ∈ s.leaps →
      l.idx = s.rd TSC.UTC_STAT_NEXT → l.sec ≤ (s.advance t).sec0 → ∃ u, exec (.leapDone t) s = .next u
      ∧ u.on TSC.STICKY_LEAP_DONE = true ∧ u.nreg TSC.UTC_STAT = (s.advance t).utcStat % 2 ^ 32
      ∧ Signals [TSC.UTC_STAT, TSC.STICKY] (s.advance t) u)
  ∧ (∀ (p t : Nat) (l : Leap × Int) (s : State), s.Canon → p < 4 → l ∈ s.leapSteps → (s.advance t).smearDue p l.1 = true →
      (∀ k ∈ s.leapSteps, k.1.idx = l.1.idx → k = l) →
      ∃ u, exec (.smearStart p l.1.idx t) s = .next u
      ∧ (p, l.1.sec) ∈ u.tsc.smeared
      ∧ (∀ n, n < 64 → s.rd (TSC.CTRL_KIND n) = 1 → s.rd (TSC.CTRL_SMEAR_PROF n) = p → u.on (TSC.STATUS_SMEARING n) = true)
      ∧ u.raw = (s.advance t).raw)
  ∧ (∀ (m ts t : Nat) (s : State), s.Canon → ts < 64 → (s.advance t).access m TSC.SNAP_CTRL .write = .granted →
      ∃ u, exec (.snapGo m ts t) s = .next u
      ∧ u.reg96 TSC.SNAP_VAL_LO = (s.advance t).tsNow ts ∧ u.reg96 TSC.SNAP_ANC_LO = (s.tsOf ts).anc % 2 ^ 96
      ∧ u.rd TSC.SNAP_CTRL_TS = ts ∧ u.rd TSC.SNAP_CTRL_COUNT = (s.rd TSC.SNAP_CTRL_COUNT + 1) % 2 ^ TSC.SNAP_CTRL_COUNT.w
      ∧ u = { s.advance t with regs := u.regs })

/-- From a canonical state: a granted re-arm of a sequencer's compare unit arms it for the low 64 bits of its target; a unit
that is not due changes nothing but the time; a sequencer's unit that is due or late is disarmed by its firing and makes
event 0 of its sequencer pending, and a late one counts in CMP_LATE_COUNT and sets CMP_LATE. -/
def Obligations.CompareUnitsFire : Prop :=
  (∀ (n ts g t : Nat) (s : State), n = 21 ∨ n = 22 → s.Canon → ts < 64 → ∃ u, exec (.compareRearm n ts g t) s = .next u
      ∧ u.cmpOf n = ⟨ts, g % 2 ^ 64, true⟩ ∧ (∀ k, k ≠ n → u.cmpOf k = s.cmpOf k)
      ∧ u = { s.advance t with tsc := { s.tsc with cmps := u.tsc.cmps } })
  ∧ (∀ (n t : Nat) (l : List PortLatch) (s : State), n < 32 → (s.advance t).cmpAns n = .notDue →
      exec (.compareFire n l t) s = .next (s.advance t))
  ∧ (∀ (n t : Nat) (l : List PortLatch) (s : State), s.Canon → n = 21 ∨ n = 22 →
      (s.advance t).cmpAns n = .late → ∃ u, exec (.compareFire n l t) s = .next u
      ∧ (u.cmpOf n).armed = false ∧ u.nreg TSC.CMP_LATE_COUNT = (s.nreg TSC.CMP_LATE_COUNT + 1) % 2 ^ 32
      ∧ u.on TSC.STICKY_CMP_LATE = true ∧ Signals [TSC.CMP_LATE_COUNT, TSC.STICKY] { s.advance t with tsc := u.tsc } u)
  ∧ (∀ (n d t : Nat) (l : List PortLatch) (s : State), s.Canon → n = 21 ∨ n = 22 →
      (s.advance t).cmpAns n = .fires d → ∃ u, exec (.compareFire n l t) s = .next u
      ∧ (u.cmpOf n).armed = false ∧ Signals [] { s.advance t with tsc := u.tsc } u)

/-- From a canonical state: a QUALIFYING slot whose HOLDOFF has passed with its tests unbroken becomes QUALIFIED, a FAILED
slot that R121 lets go becomes QUALIFYING with its count begun now, and each changes nothing else; a slot in neither case
stays as it is; a dispute window that has not ended changes nothing; a window that has ended is judged once, and where one
dispute is open through it and its two disputed members' means lie one outside and one within half of THRESH of the arbiter,
the outlier is FAILED, the other is restored, the dispute is closed and RESOLVED is set. -/
def Obligations.SlotsQualifyFailAndDispute : Prop :=
  ∀ (n t : Nat) (s a : State), s.Canon → n < 16 → a = s.advance t →
    (a.slotState n = slQUALIFYING → a.holdoffOver n = true → ∃ u, exec (.holdoffElapsed n t) s = .next u
        ∧ u.slotState n = slQUALIFIED ∧ (∀ j, j ≠ REF.SLOT_STATE n → u.reg j = s.reg j)
        ∧ u = { a with regs := u.regs, ref := { s.ref with slots := u.ref.slots } })
    ∧ (a.slotState n ≠ slQUALIFYING ∨ a.holdoffOver n = false → exec (.holdoffElapsed n t) s = .next a)
    ∧ (a.slotState n = slFAILED → a.failOver n = true → ∃ u, exec (.failHoldElapsed n t) s = .next u
        ∧ u.slotState n = slQUALIFYING ∧ (∀ j, j ≠ REF.SLOT_STATE n → u.reg j = s.reg j)
        ∧ u.ref.slots = Store.put dRSlot s.ref.slots n { s.slot n with countAt := a.tsNow 0, outlierAt := none, agreed := false }
        ∧ u = { a with regs := u.regs, ref := { s.ref with slots := u.ref.slots } })
    ∧ (a.slotState n ≠ slFAILED ∨ a.failOver n = false → exec (.failHoldElapsed n t) s = .next a)
    ∧ (a.windowLen = 0 ∨ a.windowEnd ≤ s.ref.winEnd → exec (.disputeWindowEnd t) s = .next a)
    ∧ (∀ (d : Disp) (oa : Bool), Store.wf dRSlot s.ref.slots = true → a.windowLen ≠ 0 → s.ref.winEnd < a.windowEnd →
        s.ref.disp = [d] → d.closing = false → d.since ≤ a.windowEnd - a.windowLen → d.a ≠ d.b → d.a < 16 → d.b < 16 →
        a.slotState d.a = slDISPUTED → a.slotState d.b = slDISPUTED →
        meanAbove (a.arbDiff a.arbiter d.a (a.windowEnd - a.windowLen) a.windowEnd) (s.rd REF.DISPUTE_CFG_THRESH) 2 = some oa →
        meanAbove (a.arbDiff a.arbiter d.b (a.windowEnd - a.windowLen) a.windowEnd) (s.rd REF.DISPUTE_CFG_THRESH) 2 = some (!oa) →
        ∃ u, exec (.disputeWindowEnd t) s = .next u
          ∧ u.ref.winEnd = a.windowEnd ∧ d ∉ u.ref.disp
          ∧ u.slotState (if oa then d.a else d.b) = slFAILED
          ∧ u.slotState (if oa then d.b else d.a) = (if s.active = some (if oa then d.b else d.a) then slACTIVE else slQUALIFIED)
          ∧ u.on REF.STICKY_RESOLVED = true
          ∧ Signals ([REF.STICKY, REF.DISPUTE_STAT] ++ (List.range 16).map REF.SLOT_STATE ++ (List.range 16).map REF.SLOT_STICKY)
              { a with ref := u.ref } u)

/-- From a canonical state: an edge on a PPS input that no slot is bound to and no input takes its phase from is stamped with
the raw counter and its timescale-0 time, counts in EDGES and makes the input present where it came 0.999 s to 1.001 s after
the one before; an edge on an input that is off changes nothing; an input without edges for its mode's time is shown absent
and nothing else changes where no slot is bound to it; REFOK shows the level of its ball; the GNSS slot in loss by R105 shows
LOS and forgets its frequency; an input or a solution that is not late changes nothing. -/
def Obligations.InputsAreStampedAndLost : Prop :=
  ∀ (i n t : Nat) (l : Bool) (s a : State), s.Canon → i < 8 → a = s.advance t →
    (s.rd (REF.IN_CFG_MODE i) = 1 → s.slotBound 0 i = none →
        (∀ k, k < 8 → k ≠ i → ¬(s.on (REF.IN_CFG_COMP_EN k) = true ∧ s.rd (REF.IN_CFG_COMP_IN k) = i)) →
        ∃ u, exec (.refInEdge i n t) s = .next u
          ∧ u.ref.ins = Store.put dRIn s.ref.ins i { s.rin i with lastRaw := some a.raw, lastT0 := a.tsNow 0, stampRaw := a.raw }
          ∧ u.rd (REF.IN_STAT_EDGES i) = (s.rd (REF.IN_STAT_EDGES i) + 1) % 2 ^ (REF.IN_STAT_EDGES i).w
          ∧ (u.on (REF.IN_STAT_PRESENT i) = true ↔ s.on (REF.IN_STAT_PRESENT i) = true ∨ ((s.rin i).lastRaw ≠ none
              ∧ (s.rin i).lastT0 + qSec * 999 / 1000 ≤ a.tsNow 0 ∧ a.tsNow 0 ≤ (s.rin i).lastT0 + qSec * 1001 / 1000))
          ∧ (∀ j, j ≠ REF.IN_STAT i → u.reg j = s.reg j)
          ∧ u = { a with regs := u.regs, ref := { s.ref with ins := u.ref.ins } })
    ∧ (s.rd (REF.IN_CFG_MODE i) = 0 → exec (.refInEdge i n t) s = .next a ∧ exec (.refInAbsent i t) s = .next a)
    ∧ (s.rd (REF.IN_CFG_MODE i) ≠ 0 → a.inAbsent i = true → ∃ u, exec (.refInAbsent i t) s = .next u
          ∧ u.on (REF.IN_STAT_PRESENT i) = false
          ∧ (s.slotBound 0 i = none → (∀ j, j ≠ REF.IN_STAT i → u.reg j = s.reg j) ∧ u = { a with regs := u.regs })
          ∧ (∀ k, s.slotBound 0 i = some k → u.nreg (REF.SLOT_FREQ k) = 0x80000000
              ∧ (∀ j, j ≠ REF.IN_STAT i → j ≠ REF.SLOT_FREQ k → u.reg j = s.reg j)))
    ∧ (a.inAbsent i = false → exec (.refInAbsent i t) s = .next a)
    ∧ (∃ u, exec (.refokChange i l t) s = .next u ∧ u.on (REF.IN_STAT_REFOK i) = l
          ∧ (s.slotBound 0 i = none → (∀ j, j ≠ REF.IN_STAT i → u.reg j = s.reg j) ∧ u = { a with regs := u.regs }))
    ∧ (s.slotBound 1 0 = none ∨ a.gnssLos = false → exec (.gnssSlotLos t) s = .next a)
    ∧ (∀ k, s.slotBound 1 0 = some k → a.gnssLos = true → s.slotState k ≠ slDISABLED → ∃ u, exec (.gnssSlotLos t) s = .next u
          ∧ u.on (REF.SLOT_STATE_LOS k) = true ∧ u.nreg (REF.SLOT_FREQ k) = 0x80000000
          ∧ Signals ([REF.STICKY] ++ [REF.SLOT_STATE k, REF.SLOT_FREQ k, REF.SLOT_QUALITY k, REF.SLOT_STICKY k])
              { a with ref := u.ref } u)

/-- For every canonical state: a selector tick answers a next state in which no commit of REF or DSC waits any more, and
either the active slot is the one before or SWITCH_STAT.COUNT is one more, SWITCH is set and, where a slot is active, it is
named as the target of the pull. -/
def Obligations.TickEndsCommitsAndLogsSwitches : Prop :=
  ∀ (r : List (Nat × Int)) (t : Nat) (s : State), s.Canon → ∃ u, exec (.selectorTick r t) s = .next u
    ∧ u.on (cmPENDING .ref) = false ∧ u.on (cmPENDING .dsc) = false ∧ u.raw = (s.advance t).raw
    ∧ (u.active = s.active ∨ (u.on REF.STICKY_SWITCH = true
        ∧ u.rd REF.SWITCH_STAT_COUNT = (s.rd REF.SWITCH_STAT_COUNT + 1) % 2 ^ REF.SWITCH_STAT_COUNT.w
        ∧ ∀ n, u.active = some n → n < 16 → u.rd DSC.PULL_STAT_TARGET = n))

/-- From a canonical state, with the ramp of R136 off and the step's time passed: the oldest sample of the active slot,
outside a frequency pull, moves the integral by Ki times e and gives timescale 0 the rate u = I + Kp e where that lies within
its limit; with software steering only the measured phase is shown and timescale 0 keeps its rate; the oldest sample of the
standby moves the fallback integral by Ki times the phase and shows the sum, and timescale 0 and the main integral stay; each
second of holdover gives timescale 0 the holdover value, held to its limit with CTRL_LIMIT, and shows the seconds elapsed; a
granted software write within its limits is the rate at once, and outside them it is refused and the rate stays; a loop whose
sequencer does not run, or whose slot is none, changes nothing. -/
def Obligations.LoopsSteerTimescaleZero : Prop :=
  ∀ (n m t val : Nat) (p : Smp) (r : List Smp) (s a : State), s.Canon → a = s.advance t →
    (s.active = some n → s.sqRuns sqMain = true → (s.slot n).wait = p :: r → s.loopOpen = false → s.pullKind ≠ 1 →
        s.on DSC.PULL_CFG_FRAMP_EN = false →
        (roundDiv (s.dsc.want + kiE (effBw (s.mainLoop n).1 (s.smpInt n)) (s.mainLoop n).2 (s.smpInt n) (p.phi - s.dsc.build)
          + kpE (effBw (s.mainLoop n).1 (s.smpInt n)) (s.mainLoop n).2 (p.phi - s.dsc.build)) (2 ^ 64)).natAbs ≤ 2 ^ 54 →
        ∃ u, exec (.loopUpdate t) s = .next u
          ∧ u.dsc.i = s.dsc.want + kiE (effBw (s.mainLoop n).1 (s.smpInt n)) (s.mainLoop n).2 (s.smpInt n) (p.phi - s.dsc.build)
          ∧ u.rho 0 = clampU (u.dsc.i + kpE (effBw (s.mainLoop n).1 (s.smpInt n)) (s.mainLoop n).2 (p.phi - s.dsc.build))
          ∧ u.reg64 DSC.CTRL_VAL_LO = ofSigned 64 (u.rho 0)
          ∧ u.nreg DSC.PD_PHASE = ofSigned 32 (phaseReg (p.phi - s.dsc.build)) ∧ u.raw = a.raw)
    ∧ (s.active = some n → s.sqRuns sqMain = true → (s.slot n).wait = p :: r → s.loopOpen = true →
        ∃ u, exec (.loopUpdate t) s = .next u
          ∧ u.nreg DSC.PD_PHASE = ofSigned 32 (phaseReg (p.phi - s.dsc.build)) ∧ u.tsc = s.tsc
          ∧ (∀ j, j ≠ DSC.PD_PHASE → j ≠ DSC.PD_FREQ → u.reg j = s.reg j))
    ∧ (s.active = none ∨ s.sqRuns sqMain = false → exec (.loopUpdate t) s = .next a)
    ∧ (s.standby = some n → s.sqRuns sqFallback = true → (s.slot n).wait = p :: r → s.on DSC.LOOP_CFG_FB_OPEN = false →
        s.dsc.fbSlot = some n → ∃ u, exec (.fallbackUpdate t) s = .next u
          ∧ u.dsc.fbI = s.dsc.fbI + kiE (effBw (s.fallbackBw n) (s.smpInt n)) 1 (s.smpInt n) p.phi
          ∧ u.reg64 DSC.FB_VAL_LO = ofSigned 64 (saturate 64 (roundDiv
              (u.dsc.fbI + kpE (effBw (s.fallbackBw n) (s.smpInt n)) 1 p.phi) (2 ^ 64)))
          ∧ u.tsc = s.tsc ∧ u.dsc.i = s.dsc.i
          ∧ (∀ j, j ∉ [DSC.FB_VAL_LO, DSC.FB_VAL_LO + 4, DSC.STATE] → u.reg j = s.reg j))
    ∧ (s.standby = none ∨ s.sqRuns sqFallback = false → exec (.fallbackUpdate t) s = .next a)
    ∧ (∀ h, s.dstate = dHOLD ∨ s.dstate = dEXPIRED → s.dsc.hold = some h → s.loopOpen = false →
        s.on DSC.PULL_CFG_FRAMP_EN = false → ∃ u, exec (.holdoverSecond t) s = .next u
          ∧ u.rd DSC.HO_STAT_ELAPSED = min ((a.tsNow 0 - h.t0) / qSec) (2 ^ 24 - 1)
          ∧ u.dsc.i = (if beyondU (a.uHo h) then clampU (a.uHo h) * 2 ^ 64 else a.uHo h) ∧ u.rho 0 = clampU (a.uHo h)
          ∧ (beyondU (a.uHo h) = true → u.on DSC.STICKY_CTRL_LIMIT = true) ∧ u.raw = a.raw)
    ∧ (s.dstate ≠ dHOLD → s.dstate ≠ dEXPIRED → exec (.holdoverSecond t) s = .next a)
    ∧ (a.access m DSC.SW_CTRL_HI .write = .granted → val < 2 ^ 64 → s.on DSC.LOOP_CFG_MAIN_OPEN = true →
        (toSigned 64 val).natAbs ≤ 2 ^ 54 → s.dstate ≠ dHOLD → s.dstate ≠ dEXPIRED → ∃ u, exec (.swCtrlWrite m val t) s = .next u
          ∧ u.rho 0 = toSigned 64 val ∧ u.reg64 DSC.SW_CTRL_LO = val ∧ u.on DSC.STATE_SW_LAPSED = false ∧ u.dsc.swT0 = a.tsNow 0)
    ∧ (a.access m DSC.SW_CTRL_HI .write = .granted → s.on DSC.LOOP_CFG_MAIN_OPEN = false → ∃ u, exec (.swCtrlWrite m val t) s = .next u
          ∧ u.on Blk.dsc.cfgRefused = true ∧ u.rho 0 = s.rho 0 ∧ Signals [Blk.dsc.sticky] a u)
    ∧ (s.loopOpen = true → s.dsc.swT0 + s.rd DSC.LOOP_CFG_SW_TIMEOUT * qSec ≤ a.tsNow 0 → ∃ u, exec (.swTimeout t) s = .next u
          ∧ u.on DSC.STATE_SW_LAPSED = true ∧ u.on DSC.STICKY_SW_TIMEOUT = true ∧ u.loopOpen = false
          ∧ u.dsc.i = toSigned 64 (s.reg64 DSC.SW_CTRL_LO) * 2 ^ 64
          ∧ Signals [DSC.STATE, DSC.STICKY] { a with dsc := u.dsc } u)
    ∧ (s.loopOpen = false → exec (.swTimeout t) s = .next a)

/-- From a canonical state: a pull that is absorbed and whose ramp is over is reported done; ACQUIRING with an active slot,
no pull and the lock criteria held for LOCK_TIME becomes LOCKED with advertised set 1; LOCKED with the error far for 10 s
becomes ACQUIRING with UNLOCK and a running estimator; in any other state these rows change nothing; a main-loop sequencer
faulted for 1 s in LOCKED sets SEQ_FAULT and leaves holdover or, with too few samples, free run; a change of state sets
STATE_CHANGE and counts once in STATE_STAT. -/
def Obligations.DisciplineStatesChangeAndAreLogged : Prop :=
  ∀ (t : Nat) (s a : State), s.Canon → a = s.advance t →
    (s.pullKind = 0 → exec (.pullDone t) s = .next a)
    ∧ (s.pullKind ≠ 0 → s.dsc.pullRaw < a.raw → a.remAt 0 a.raw = 0 → s.dsc.i = s.dsc.want → ∃ u, exec (.pullDone t) s = .next u
        ∧ u.pullKind = 0 ∧ u.on REF.SEL_STAT_PULLING = false ∧ u.on DSC.STATE_PULLING = false ∧ u.on DSC.STICKY_PULL_DONE = true
        ∧ Signals [TSC.STATUS 0, TSC.REMAIN 0, DSC.PULL_STAT, DSC.STATE, DSC.STICKY, REF.SEL_STAT] a u)
    ∧ (∀ l, s.dstate = dACQ → s.active.isSome = true → s.pullKind = 0 → s.dsc.lockAt = some l →
        l + s.rd DSC.LOCK_CFG_LOCK_TIME * qSec ≤ a.tsNow 0 → ∃ u, exec (.lockTimeElapsed t) s = .next u
        ∧ u.dstate = dLOCKED ∧ u.rd DSC.STATE_ADV = 1 ∧ u.nreg DSC.QUAL_NOW = s.nreg (DSC.QUAL 1)
        ∧ u.on DSC.STICKY_STATE_CHANGE = true ∧ u.dsc.est = none ∧ u.dsc.hold = none
        ∧ u.rd DSC.STATE_STAT_COUNT = (s.rd DSC.STATE_STAT_COUNT + 1) % 2 ^ DSC.STATE_STAT_COUNT.w ∧ u.raw = a.raw)
    ∧ (s.dstate ≠ dACQ → exec (.lockTimeElapsed t) s = .next a)
    ∧ (∀ l, s.dstate = dLOCKED → s.active.isSome = true → s.dsc.farAt = some l → l + 10 * qSec ≤ a.tsNow 0 →
        ∃ u, exec (.unlockTimeout t) s = .next u
        ∧ u.dstate = dACQ ∧ u.on DSC.STICKY_UNLOCK = true ∧ u.on DSC.STICKY_STATE_CHANGE = true ∧ u.dsc.est.isSome = true
        ∧ u.dsc.entered = dLOCKED
        ∧ u.rd DSC.STATE_STAT_COUNT = (s.rd DSC.STATE_STAT_COUNT + 1) % 2 ^ DSC.STATE_STAT_COUNT.w ∧ u.raw = a.raw)
    ∧ (s.dstate ≠ dLOCKED → exec (.unlockTimeout t) s = .next a)
    ∧ (s.dstate = dLOCKED → s.active.isSome = true → a.mainFaulted = true → s.dsc.farAt = none → ∃ u, exec (.dscSeqFaultTimeout t) s = .next u
        ∧ u.dstate = (if (a.winStat a.sec0).n < 64 then dFREE else dHOLD) ∧ u.on DSC.STICKY_SEQ_FAULT = true
        ∧ u.on DSC.STICKY_STATE_CHANGE = true
        ∧ u.on DSC.HO_STAT_SHORT = decide ((a.winStat a.sec0).n < 64)
        ∧ (64 ≤ (a.winStat a.sec0).n → u.on DSC.STICKY_HO_ENTER = true ∧ u.nreg DSC.HO_ENTRY = a.sec0 % 2 ^ 32))
    ∧ (a.mainFaulted = false → exec (.dscSeqFaultTimeout t) s = .next a)

/-- From a canonical state: with the history sequencer running, the record of the second just past is the newest of at most
604 800, with the temperature told and the oscillator in use, and AMBIENT_T shows that temperature; without it only the
readings and RSP.REFTIME are renewed; the estimator's second integrates the temperature and shows the error bound, and
without an estimator nothing changes; a granted write of STEP_CMD with its key, in Maintenance with DSC selected and a
phase-bearing active slot, steps timescale 0 by that slot's phase and leaves no offset to slew, and with another key, while
the video outputs are muted as MUTE_FREE says, it is refused and nothing else changes. -/
def Obligations.HistoryEstimatorAndSteps : Prop :=
  ∀ (th x : Int) (mok : Bool) (m n val t : Nat) (s a : State), s.Canon → a = s.advance t →
    (s.sqRuns sqHistory = true → ∃ u, exec (.historyRecord th x mok t) s = .next u
        ∧ u.nreg GRT.AMBIENT_T = ofSigned 32 th
        ∧ (∃ h, u.dsc.hist = (h :: s.dsc.hist).take 604800 ∧ h.sec = a.sec0 - 1 ∧ h.lo = s.dsc.los.length
            ∧ h.theta = toSigned 32 (ofSigned 32 th) ∧ h.live = true
            ∧ h.locked = (s.dsc.clean && s.dstate == dLOCKED && s.pullKind == 0))
        ∧ u.dsc.nrec = s.dsc.nrec + 1 ∧ u.dsc.secRaw = a.raw ∧ u.tsc = s.tsc)
    ∧ (s.sqRuns sqHistory = false → ∃ u, exec (.historyRecord th x mok t) s = .next u
        ∧ u.nreg GRT.AMBIENT_T = ofSigned 32 th ∧ u.dsc = s.dsc
        ∧ (∀ j, j ∉ [GRT.AMBIENT_T, TSC.LO_XDIFF, RSP.REFTIME] → u.reg j = s.reg j))
    ∧ (s.dsc.est = none → exec (.estimatorUpdate t) s = .next a)
    ∧ (∀ y, s.dsc.est = some y → ∃ u, exec (.estimatorUpdate t) s = .next u
        ∧ u.dsc.est = some { y with integral := y.integral + (a.theta - y.theta).natAbs * ((a.tsNow 0 - y.last) / qSec),
                                    last := y.last + (a.tsNow 0 - y.last) / qSec * qSec }
        ∧ (∀ z, u.dsc.est = some z → u.nreg DSC.HO_ERR = min (a.errNum z / errUnit) (2 ^ 32 - 1))
        ∧ (s.dsc.spent = true → u.dsc.spent = true) ∧ u.raw = a.raw)
    ∧ (a.access m DSC.STEP_CMD .write = .granted → val % 256 = 0x5A → bitAt val 8 = true → s.mode = 6 → s.maint 4 = true →
        s.active = some n → s.phaseBearing n = true → ∃ u, exec (.stepCmd m val t) s = .next u
        ∧ (u.tsNow 0 : Int) = ((a.tsNow 0 : Int) + s.phiOf n) % 2 ^ 96
        ∧ u.remAt 0 u.raw = 0 ∧ u.tsc.steps0 = s.tsc.steps0 + 1 ∧ u.on TSC.STICKY_STEPPED = true ∧ u.raw = a.raw)
    ∧ (a.access m DSC.STEP_CMD .write = .granted → val % 256 ≠ 0x5A →
        s.on VID.STAT_MUTED = (s.on VID.CTRL_MUTE_FREE && s.dstate == dFREE) → ∃ u, exec (.stepCmd m val t) s = .next u
        ∧ u.on Blk.dsc.cfgRefused = true ∧ Signals [Blk.dsc.sticky] a u)

/-- From a canonical state: the heater starts where HEAT_EN is written 1 in OFF with VHTR above 4.6 V, stops where it is
written 0 in WARMING, WARM or READY and the Grotto is not the active oscillator, and a 0 written while it is active is
refused; RETRY leaves FAULT for OFF and, where the heater may start, WARMING; each row of the cavity, of VHTR and of the
sensors moves the state where its event holds in its state, sets its sticky bit, and elsewhere leaves the state as it is;
nothing else changes but the reading, the log and what signalling changes. -/
def Obligations.GrottoStates : Prop :=
  ∀ (c c2 : Int) (m mv val t : Nat) (s a : State), s.Canon → a = s.advance t → val < 2 ^ 32 →
    (a.access m GRT.CTRL .write = .granted →
      (bitAt val 0 = true → bitAt val 1 = false → ∃ u, exec (.grtCtrlWrite m val t) s = .next u
        ∧ u.on GRT.CTRL_HEAT_EN = true
        ∧ u.gstate = (if s.gstate = gOFF ∧ 4600 < s.nreg GRT.VHTR_MV then gWARMING else s.gstate)
        ∧ Signals ([GRT.CTRL, GRT.STATE, GRT.RUN_HOURS, GRT.STICKY] ++ (List.range 16).map GRT.STATE_LOG) { a with grt := u.grt } u)
      ∧ (bitAt val 0 = false → bitAt val 1 = false → s.grottoActive = false → ∃ u, exec (.grtCtrlWrite m val t) s = .next u
        ∧ u.on GRT.CTRL_HEAT_EN = false ∧ u.gstate = (if s.gstate = gFAULT then gFAULT else gOFF)
        ∧ Signals ([GRT.CTRL, GRT.STATE, GRT.RUN_HOURS, GRT.STICKY] ++ (List.range 16).map GRT.STATE_LOG) { a with grt := u.grt } u)
      ∧ (bitAt val 0 = false → bitAt val 1 = false → s.grottoActive = true → ∃ u, exec (.grtCtrlWrite m val t) s = .next u
        ∧ u.on GRT.STICKY_CFG_REFUSED = true ∧ u.gstate = s.gstate ∧ Signals [GRT.STICKY] a u)
      ∧ (∃ u, exec (.grtRetry m t) s = .next u
        ∧ u.gstate = (if s.gstate ≠ gFAULT then s.gstate
            else if s.on GRT.CTRL_HEAT_EN = true ∧ 4600 < s.nreg GRT.VHTR_MV then gWARMING else gOFF)
        ∧ Signals ([GRT.STATE, GRT.RUN_HOURS, GRT.STICKY] ++ (List.range 16).map GRT.STATE_LOG) { a with grt := u.grt } u))
    ∧ (∃ u, exec (.grottoWarm c t) s = .next u ∧ u.sreg GRT.CAVITY_T = toSigned 32 (ofSigned 32 c)
        ∧ u.gstate = (if s.gstate = gWARMING ∧ inBand c 250 = true then gWARM else s.gstate)
        ∧ (s.gstate = gWARMING → inBand c 250 = true → u.on GRT.STICKY_WARM = true)
        ∧ Signals ([GRT.CAVITY_T, GRT.STATE, GRT.RUN_HOURS, GRT.STICKY] ++ (List.range 16).map GRT.STATE_LOG) { a with grt := u.grt } u)
    ∧ (∃ u, exec (.grottoReady c t) s = .next u
        ∧ u.gstate = (if s.gstate = gWARM ∧ inBand c 10 = true ∧ 1800 * qSec ≤ a.heatTime then gREADY else s.gstate)
        ∧ (s.gstate = gWARM → inBand c 10 = true → 1800 * qSec ≤ a.heatTime → u.on GRT.STICKY_READY = true)
        ∧ Signals ([GRT.CAVITY_T, GRT.STATE, GRT.RUN_HOURS, GRT.STICKY] ++ (List.range 16).map GRT.STATE_LOG) { a with grt := u.grt } u)
    ∧ (∃ u, exec (.grottoReadyLost c t) s = .next u
        ∧ u.gstate = (if s.gstate = gREADY ∧ inBand c 20 = false then gWARM else s.gstate)
        ∧ (s.gstate = gREADY → inBand c 20 = false → u.on GRT.STICKY_READY_LOST = true)
        ∧ Signals ([GRT.CAVITY_T, GRT.STATE, GRT.RUN_HOURS, GRT.STICKY] ++ (List.range 16).map GRT.STATE_LOG) { a with grt := u.grt } u)
    ∧ (∃ u, exec (.grottoBandLost c t) s = .next u
        ∧ u.gstate = (if (s.gstate = gWARM ∨ s.gstate = gREADY) ∧ inBand c 500 = false then gWARMING else s.gstate)
        ∧ (s.gstate = gWARM ∨ s.gstate = gREADY → inBand c 500 = false → u.on GRT.STICKY_WARMING = true ∧ u.heatTime = 0)
        ∧ Signals ([GRT.CAVITY_T, GRT.STATE, GRT.RUN_HOURS, GRT.STICKY] ++ (List.range 16).map GRT.STATE_LOG) { a with grt := u.grt } u)
    ∧ (∃ u, exec (.vhtrLow mv t) s = .next u ∧ u.nreg GRT.VHTR_MV = mv % 2 ^ 32
        ∧ u.gstate = (if mv < 4500 ∧ s.gstate ≠ gFAULT then gOFF else s.gstate)
        ∧ (mv < 4500 → s.gstate ≠ gFAULT → u.on GRT.STICKY_VHTR_LOW = true)
        ∧ Signals ([GRT.VHTR_MV, GRT.STATE, GRT.RUN_HOURS, GRT.STICKY] ++ (List.range 16).map GRT.STATE_LOG) { a with grt := u.grt } u)
    ∧ (mv < 2 ^ 32 → ∃ u, exec (.vhtrRestored mv t) s = .next u ∧ u.nreg GRT.VHTR_MV = mv
        ∧ u.gstate = (if s.gstate = gOFF ∧ s.on GRT.CTRL_HEAT_EN = true ∧ 4600 < mv then gWARMING else s.gstate)
        ∧ Signals ([GRT.VHTR_MV, GRT.STATE, GRT.RUN_HOURS, GRT.STICKY] ++ (List.range 16).map GRT.STATE_LOG) { a with grt := u.grt } u)
    ∧ (∃ u, exec (.grottoSensorFault c c2 t) s = .next u
        ∧ u.gstate = (if 1000 < (c - c2).natAbs ∨ 125000 < c ∨ 125000 < c2 then gFAULT else s.gstate)
        ∧ (1000 < (c - c2).natAbs ∨ 125000 < c ∨ 125000 < c2 → s.gstate ≠ gFAULT →
            u.on GRT.STICKY_FAULT = true ∧ u.nreg GRT.FAULTS = (s.nreg GRT.FAULTS + 1) % 2 ^ 32)
        ∧ Signals ([GRT.CAVITY_T, GRT.STATE, GRT.RUN_HOURS, GRT.STICKY, GRT.FAULTS] ++ (List.range 16).map GRT.STATE_LOG)
            { a with grt := u.grt } u)

/-- From a canonical state with canonical tables of CKO: a granted GO where R160 accepts it makes every enabled output with
ALIGN_EN wait for the next second and changes nothing else, and elsewhere is refused; a waiting output whose second has come
and whose plane is locked runs aligned and unsquelched, sets ALIGN_DONE, waits no more and has ended its walk with
PHASE_DONE; a plane that loses lock shows it, counts it, sets its sticky bit and, with SQUELCH, stops every enabled output of
it; a plane that locks shows it, and its squelched outputs wait to be aligned or, without ALIGN_EN, run; a walk that has
arrived ends with PHASE_DONE; where the event does not hold nothing changes. -/
def Obligations.ClockOutputsAlignSquelchAndWalk : Prop :=
  ∀ (m n p res t : Nat) (s a : State), s.Canon → Store.wf zNat s.cko.waiting = true → a = s.advance t →
    (a.access m CKO.ALIGN_CTRL .write = .granted → s.mode = 3 ∨ (s.mode = 6 ∧ s.maint 5 = true) → ∃ u, exec (.alignGo m t) s = .next u
      ∧ (∀ k, k < 12 → Store.get zNat u.cko.waiting k = if s.alignable k then a.sec0 + 1 else Store.get zNat s.cko.waiting k)
      ∧ u = { a with cko := { s.cko with waiting := u.cko.waiting } })
    ∧ (a.access m CKO.ALIGN_CTRL .write = .granted → s.mode ≠ 3 → s.mode ≠ 6 ∨ s.maint 5 = false →
      ∃ u, exec (.alignGo m t) s = .next u ∧ u.on CKO.STICKY_CFG_REFUSED = true ∧ Signals [CKO.STICKY] a u)
    ∧ (n < 12 → Store.get zNat s.cko.waiting n ≠ 0 → Store.get zNat s.cko.waiting n ≤ a.sec0 → s.alignable n = true →
      s.planeLocked (s.planeOf n) = true → ∃ u, exec (.outputAlign n res t) s = .next u
        ∧ u.on (CKO.OUT_STAT_ALIGNED n) = true ∧ u.on (CKO.OUT_STAT_RUNNING n) = true ∧ u.on (CKO.OUT_STAT_SQUELCHED n) = false
        ∧ u.rd (CKO.OUT_STAT_RESTARTS n) = (s.rd (CKO.OUT_STAT_RESTARTS n) + 1) % 2 ^ 16
        ∧ u.rd CKO.ALIGN_CTRL_COUNT = (s.rd CKO.ALIGN_CTRL_COUNT + 1) % 2 ^ 16 ∧ u.on CKO.STICKY_ALIGN_DONE = true
        ∧ u.cko.waiting = Store.put zNat s.cko.waiting n 0
        ∧ (s.on (CKO.OUT_STAT_WALKING n) = false → u.cko.walks = s.cko.walks)
        ∧ (s.on (CKO.OUT_STAT_WALKING n) = true → u.cko.walks = Store.put dWalk s.cko.walks n ⟨0, 0, 0⟩
            ∧ u.on (CKO.OUT_STAT_WALKING n) = false ∧ u.on CKO.STICKY_PHASE_DONE = true)
        ∧ Signals [CKO.OUT_STAT n, CKO.STAT, CKO.ALIGN_CTRL, CKO.ALIGN_STAT, CKO.STICKY]
            { a with cko := { s.cko with waiting := u.cko.waiting, walks := u.cko.walks } } u)
    ∧ (12 ≤ n ∨ Store.get zNat s.cko.waiting n = 0 ∨ a.sec0 < Store.get zNat s.cko.waiting n →
      exec (.outputAlign n res t) s = .next a)
    ∧ (p < 2 → s.planeLocked p = true → ∃ u, exec (.planeLockLost p t) s = .next u
        ∧ u.planeLocked p = false ∧ u.on ⟨CKO.STAT, p, 1⟩ = false
        ∧ u.rd (CKO.PLANE_STAT_LOSSES p) = (s.rd (CKO.PLANE_STAT_LOSSES p) + 1) % 2 ^ 16
        ∧ u.on (if p = 0 then CKO.STICKY_LOCK_LOST_A else CKO.STICKY_LOCK_LOST_B) = true
        ∧ (s.on CKO.CTRL_SQUELCH = true → ∀ k, k < 12 → s.planeOf k = p → s.on (CKO.OUT_CFG_EN k) = true →
            u.on (CKO.OUT_STAT_RUNNING k) = false ∧ u.on (CKO.OUT_STAT_SQUELCHED k) = true ∧ u.on (CKO.OUT_STAT_ALIGNED k) = false)
        ∧ (∀ k, k < 12 → s.on CKO.CTRL_SQUELCH = false ∨ s.planeOf k ≠ p → u.reg (CKO.OUT_STAT k) = s.reg (CKO.OUT_STAT k))
        ∧ Signals ([CKO.PLANE_STAT p, CKO.STAT, CKO.STICKY] ++ (List.range 12).map CKO.OUT_STAT) a u)
    ∧ (2 ≤ p ∨ s.planeLocked p = false → exec (.planeLockLost p t) s = .next a)
    ∧ (p < 2 → s.planeLocked p = false → s.on (CKO.PLANE_CFG_EN p) = true → ∃ u, exec (.planeLockReturn p t) s = .next u
        ∧ u.planeLocked p = true ∧ u.on ⟨CKO.STAT, p, 1⟩ = true
        ∧ (∀ k, k < 12 → s.planeOf k = p → s.on (CKO.OUT_STAT_SQUELCHED k) = true →
            if s.alignable k then Store.get zNat u.cko.waiting k = a.sec0 + 1
            else u.on (CKO.OUT_STAT_SQUELCHED k) = false ∧ u.on (CKO.OUT_STAT_RUNNING k) = true)
        ∧ (∀ j, j ∉ [CKO.PLANE_STAT p, CKO.STAT] ++ (List.range 12).map CKO.OUT_STAT → u.reg j = s.reg j)
        ∧ u = { a with regs := u.regs, cko := { s.cko with waiting := u.cko.waiting } })
    ∧ (n < 12 → s.on (CKO.OUT_STAT_WALKING n) = true →
        walkAt (Store.get dWalk s.cko.walks n) (s.rd DSC.PULL_CFG_SLOPE) (a.tsNow 0) = (Store.get dWalk s.cko.walks n).goal →
        ∃ u, exec (.phaseWalkDone n t) s = .next u
        ∧ u.on (CKO.OUT_STAT_WALKING n) = false ∧ u.on CKO.STICKY_PHASE_DONE = true
        ∧ Signals [CKO.OUT_STAT n, CKO.STICKY] { a with cko := { s.cko with walks := Store.put dWalk s.cko.walks n ⟨0, 0, 0⟩ } } u)
    ∧ (s.on (CKO.OUT_STAT_WALKING n) = false → exec (.phaseWalkDone n t) s = .next a)

/-- From a canonical state, for a command whose ring takes completions: SEARCH with no code against it waits at the tail of
its engine's queue and completes nothing yet; with a code it completes with that code and no search is added; an engine whose
first search waits starts it when its port is present, at the time and with the capture R175 gives, and waits on while the
port is absent; a search whose capture is over leaves its engine, sets SEARCH_DONE and completes OK, POISONED or INCOMPLETE;
ABORT with no code against it ends exactly the searches of its function that it names and completes with their number; an
engine without a search that is over changes nothing. -/
def Obligations.SearchesQueueRunAndEnd : Prop :=
  ∀ (c : HostCmd) (e t : Nat) (rs : List AcqRes) (s a : State), s.Canon → s.accepts c → a = s.advance t →
    (∀ k, a.searchCode c = 0 → a.searchEngine c = some k → ∃ u, exec (.search c t) s = .next u
        ∧ u.gna = { s.gna with searches := s.gna.searches ++ [⟨c, k, false, 0, 0, 0, false⟩] }
        ∧ u.rd GNA.STAT_QUEUED = (u.gna.searches.filter (fun x => !x.running)).length % 2 ^ GNA.STAT_QUEUED.w
        ∧ (∀ j, j ≠ GNA.STAT → u.reg j = s.reg j) ∧ u = { a.takeCmd c with gna := u.gna, regs := u.regs })
    ∧ (a.searchCode c ≠ 0 → ∃ u, exec (.search c t) s = .next u
        ∧ u.failed c (a.searchCode c) ∧ Signals (cmdKeys ++ [GNA.STICKY]) (a.takeCmd c) u)
    ∧ (∀ x r, s.engSearches e = x :: r → x.running = false → s.on (GNA.PORT_STAT_PRESENT x.cmd.gnPort) = true →
        ∃ u, exec (.searchCaptureStart e t) s = .next u
        ∧ u.gna = { s.gna with searches := { x with running := true, time := a.tsNow 0, capEnd := a.raw + x.cmd.captureQ,
                                                    steps := s.tsc.steps0, clipped := false } :: s.gna.searches.erase x }
        ∧ (∀ j, j ≠ GNA.STAT → u.reg j = s.reg j) ∧ u = { a with gna := u.gna, regs := u.regs })
    ∧ (∀ x r, s.engSearches e = x :: r → s.on (GNA.PORT_STAT_PRESENT x.cmd.gnPort) = false → exec (.searchCaptureStart e t) s = .next a)
    ∧ (s.engSearches e = [] → exec (.searchCaptureStart e t) s = .next a ∧ exec (.searchReport e rs t) s = .next a)
    ∧ (∀ x r, s.engSearches e = x :: r → x.running = true → a.raw < x.capEnd → exec (.searchReport e rs t) s = .next a)
    ∧ (∀ x r, s.engSearches e = x :: r → x.running = true → x.capEnd ≤ a.raw → s.accepts x.cmd →
        ∃ u code n, exec (.searchReport e rs t) s = .next u ∧ code ∈ [stOK, stPOISONED, stINCOMPLETE]
        ∧ u.gna.searches = s.gna.searches.erase x ∧ u.on GNA.STICKY_SEARCH_DONE = true ∧ u.completed x.cmd code n
        ∧ (code = stPOISONED → u.on GNA.STICKY_POISON = true) ∧ u.raw = a.raw)
    ∧ (c.code [codeIf (!c.zero 1 32 || decide (8 ≤ c.u 0 1) || (decide (4 ≤ c.u 0 1) && c.u 0 1 != 7)) stREFUSED,
          codeIf ((s.gna.searches.filter (fun x => x.cmd.fn == c.fn && (c.u 0 1 == 7 || x.eng == c.u 0 1))).length == 0) stZERO_LEN] = 0 →
        ∃ u, exec (.searchAbort c t) s = .next u
        ∧ u.gna.searches = s.gna.searches.filter (fun x => !(x.cmd.fn == c.fn && (c.u 0 1 == 7 || x.eng == c.u 0 1)))
        ∧ u.on GNA.STICKY_SEARCH_DONE = true
        ∧ u.completed c stOK (s.gna.searches.filter (fun x => x.cmd.fn == c.fn && (c.u 0 1 == 7 || x.eng == c.u 0 1))).length)

/-- From a canonical state: an enabled absent port with a rate inside the window becomes present with its rate and its
samples counted from 0; a present port whose clock stops, or any enabled port measured outside the window, is absent and sets
its sticky bit; the millisecond of a present port keeps its last two tick records, shows its level saturated and its rate,
and sets CLIP where the clip count exceeds CLIP_FLAG; elsewhere nothing changes. -/
def Obligations.SamplePortsComeAndGo : Prop :=
  ∀ (p k clip mi mq t : Nat) (f : Int) (s a : State), s.Canon → p < 8 → a = s.advance t → -32768 ≤ f → f < 32768 →
    (s.on (GNA.PORT_CFG_EN p) = true → s.on (GNA.PORT_STAT_PRESENT p) = false → inWindow f = true →
      ∃ u, exec (.samplePortPresent p f t) s = .next u
        ∧ u.on (GNA.PORT_STAT_PRESENT p) = true ∧ u.rdI (GNA.PORT_STAT_FREQ p) = f ∧ u.on (GNA.PORT_STAT_RATE_OOR p) = false
        ∧ u.gna = { s.gna with ports := Store.put dGPort s.gna.ports p ⟨[(0, a.tsNow 0)]⟩ }
        ∧ (∀ j, j ≠ GNA.PORT_STAT p → u.reg j = s.reg j) ∧ u = { a with regs := u.regs, gna := u.gna, gnc := u.gnc })
    ∧ (s.on (GNA.PORT_STAT_PRESENT p) = true ∨ inWindow f = false → exec (.samplePortPresent p f t) s = .next a)
    ∧ (s.on (GNA.PORT_CFG_EN p) = true → s.on (GNA.PORT_STAT_PRESENT p) = true → ∃ u, exec (.samplePortLost p none t) s = .next u
        ∧ u.on (GNA.PORT_STAT_PRESENT p) = false ∧ u.on GNA.STICKY_PORT_LOST = true ∧ u.raw = a.raw)
    ∧ (s.on (GNA.PORT_CFG_EN p) = true → inWindow f = false → ∃ u, exec (.samplePortLost p (some f) t) s = .next u
        ∧ u.on (GNA.PORT_STAT_PRESENT p) = false ∧ u.on (GNA.PORT_STAT_RATE_OOR p) = true ∧ u.on GNA.STICKY_PORT_OOR = true
        ∧ (s.on (GNA.PORT_STAT_PRESENT p) = true → u.on GNA.STICKY_PORT_LOST = true) ∧ u.raw = a.raw)
    ∧ (inWindow f = true ∨ s.on (GNA.PORT_CFG_EN p) = false → exec (.samplePortLost p (some f) t) s = .next a)
    ∧ (s.on (GNA.PORT_STAT_PRESENT p) = true → inWindow f = true → ∃ u, exec (.sampleTick p k clip mi mq f t) s = .next u
        ∧ u.gna.ports = Store.put dGPort s.gna.ports p ⟨((k % 2 ^ 48, a.tsNow 0) :: (s.gport p).ticks).take 2⟩
        ∧ u.rd (GNA.PORT_LEVEL_CLIP p) = min 255 clip ∧ u.rd (GNA.PORT_LEVEL_MEAN_I p) = min 255 mi
        ∧ u.rd (GNA.PORT_LEVEL_MEAN_Q p) = min 255 mq ∧ u.rdI (GNA.PORT_STAT_FREQ p) = f
        ∧ (s.rd GNA.CTRL_CLIP_FLAG < min 255 clip → u.on GNA.STICKY_CLIP = true)
        ∧ Signals [GNA.PORT_LEVEL p, GNA.PORT_STAT p, GNA.STICKY] { a with gna := u.gna } u)
    ∧ (s.on (GNA.PORT_STAT_PRESENT p) = false → exec (.sampleTick p k clip mi mq f t) s = .next a)

/-- From a canonical state with a canonical table of channels: a boundary with room sends the dump of a tracking channel and
starts its integration anew, and without room integrates on; 255 ms without room clear the integration and set EXTENDED; the
sequencer takes the oldest dump; a program's steering of its own channel waits for the boundary, the last write of each field
standing; STEER_TO missed milliseconds clear the locks and set STALE; a granted READ copies the record, LOAD that passes
waits for its start, RELEASE makes the channel IDLE, OP 0 is refused, each with its STATUS; a loaded channel starts at its
millisecond; where a row's condition does not hold, nothing changes. -/
def Obligations.ChannelsTrackAndObeyTheHost : Prop :=
  ∀ (m g ch k t : Nat) (d : DumpIn) (cr rr w1 : Option Nat) (s a : State), s.Canon → Store.wf dChan s.gnc.chans = true → ch < 384 →
    g < 8 → a = s.advance t →
    (d.ch = ch → (s.chan ch).st = .track → s.qRoom (128 + ch / 48) 1 = true → ∃ u, exec (.correlatorDump (ch / 8) [d] t) s = .next u
        ∧ (u.chan ch).intMs = 0 ∧ (u.chan ch).first = false ∧ (u.chan ch).sample = max (s.chan ch).sample d.sample
        ∧ u.gnc.dumps = Store.put dDumps s.gnc.dumps (ch / 48) (Store.get dDumps s.gnc.dumps (ch / 48)
            ++ [a.dumpBytes ch { (s.chan ch).runTo d.sample with intMs := min 255 ((s.chan ch).intMs + 1) } d])
        ∧ (∀ x, x ≠ ch → u.chan x = s.chan x))
    ∧ (d.ch = ch → (s.chan ch).st = .track → s.qRoom (128 + ch / 48) 1 = false → ∃ u, exec (.correlatorDump (ch / 8) [d] t) s = .next u
        ∧ (u.chan ch).intMs = min 255 ((s.chan ch).intMs + 1) ∧ u.gnc.dumps = s.gnc.dumps ∧ (∀ x, x ≠ ch → u.chan x = s.chan x))
    ∧ ((s.chan ch).st = .track → (s.chan ch).intMs = 255 → ∃ u, exec (.dumpClear ch t) s = .next u
        ∧ u.chan ch = { s.chan ch with intMs := 0, cleared := true } ∧ u.on GNC.STICKY_EXTENDED = true
        ∧ (∀ x, x ≠ ch → u.chan x = s.chan x) ∧ Signals [GNC.GSEQ_LAG (ch / 48), GNC.STICKY] { a with gnc := u.gnc } u)
    ∧ ((s.chan ch).intMs ≠ 255 → exec (.dumpClear ch t) s = .next a)
    ∧ (∀ b r, Store.get dDumps s.gnc.dumps g = b :: r → ∃ u, exec (.dumpPop g t) s = .next u
        ∧ u.gnc = { s.gnc with dumps := Store.put dDumps s.gnc.dumps g r } ∧ u = { a with gnc := u.gnc, fab := u.fab })
    ∧ (ch / 48 = g → (s.chan ch).st ≠ .idle → ∃ u, exec (.channelSteeringWrite g ch cr rr w1 t) s = .next u
        ∧ u.chan ch = { s.chan ch with steer := some ⟨(cr.map (· % 2 ^ 48)) <|> ((s.chan ch).steer.getD ⟨none, none, none⟩).codeRate,
              (rr.map (· % 2 ^ 48)) <|> ((s.chan ch).steer.getD ⟨none, none, none⟩).carrRate,
              (w1.map (· % 2 ^ 32)) <|> ((s.chan ch).steer.getD ⟨none, none, none⟩).word1⟩ }
        ∧ (∀ x, x ≠ ch → u.chan x = s.chan x) ∧ u = { a with gnc := { s.gnc with chans := u.gnc.chans } })
    ∧ (ch / 48 ≠ g ∨ (s.chan ch).st = .idle → exec (.channelSteeringWrite g ch cr rr w1 t) s = .next a)
    ∧ ((s.chan ch).st = .track → s.rd GNC.CTRL_STEER_TO ≤ (s.chan ch).missed → ∃ u, exec (.steerTimeout ch t) s = .next u
        ∧ u.chan ch = { s.chan ch with locks := 0, stale := true } ∧ (∀ x, x ≠ ch → u.chan x = s.chan x)
        ∧ u = { a with gnc := { s.gnc with chans := u.gnc.chans } })
    ∧ (a.access m GNC.CH_SEL .write = .granted → s.chForbidden = false →
        (∃ u, exec (.chRead m ch t) s = .next u ∧ u.rd GNC.CH_SEL_STATUS = stOK
          ∧ (∀ i, i < 12 → u.nreg (GNC.CH_DATA i) = (a.chanWords ch).getD i 0 % 2 ^ 32)
          ∧ u.gnc = s.gnc)
        ∧ (((a.wr GNC.CH_SEL_CHANNEL ch).wr GNC.CH_SEL_OP 2).loadCode ch = 0 → ∃ u, exec (.chLoad m ch t) s = .next u
          ∧ u.rd GNC.CH_SEL_STATUS = stOK ∧ (u.chan ch).st = .loaded ∧ (u.chan ch).sig = bitsOf (s.nreg (GNC.CH_DATA 0)) 0 4
          ∧ (u.chan ch).port = bitsOf (s.nreg (GNC.CH_DATA 0)) 10 3 ∧ (∀ x, x ≠ ch → u.chan x = s.chan x)
          ∧ (∀ j, j ≠ GNC.CH_SEL → u.reg j = s.reg j))
        ∧ (∃ u, exec (.chRelease m ch t) s = .next u ∧ u.rd GNC.CH_SEL_STATUS = stOK ∧ u.chan ch = dChan ch
          ∧ (∀ x, x ≠ ch → u.chan x = s.chan x) ∧ (∀ j, j ≠ GNC.CH_SEL → u.reg j = s.reg j))
        ∧ (∃ u, exec (.chOpNone m ch t) s = .next u ∧ u.rd GNC.CH_SEL_STATUS = stREFUSED ∧ u.on GNC.STICKY_CFG_REFUSED = true
          ∧ u.gnc = s.gnc ∧ Signals [GNC.CH_SEL, GNC.STICKY] a u))
    ∧ ((s.chan ch).st = .loaded → (s.chan ch).startMs ≤ a.msNow → ∃ u, exec (.channelStart ch k t) s = .next u
        ∧ ((u.chan ch).st = .track ∨ (u.chan ch).st = .gap) ∧ (u.chan ch).sample = k ∧ (u.chan ch).first = true
        ∧ (∀ x, x ≠ ch → u.chan x = s.chan x) ∧ u = { a with gnc := { s.gnc with chans := u.gnc.chans } })
    ∧ ((s.chan ch).st ≠ .loaded ∨ a.msNow < (s.chan ch).startMs → exec (.channelStart ch k t) s = .next a)

/-- From a canonical state: a sequencer whose plan says so begins its burst, which makes event 1 pending and is remembered,
and at its end no channel of it tracks; the epoch at the head of queue 136 leaves it, counted and marked done or lost; a
program with NAV_EN outside Keep-alive posts its event; the indicators shown are the OR of all sequencers' words; a host
solution with no code against it is the measurement of the GNSS slot and completes OK, and one with a code completes with it,
a stale one counted and STALE set; where the condition does not hold nothing changes. -/
def Obligations.BurstsEpochsIndicatorsAndSolutions : Prop :=
  ∀ (c : HostCmd) (g word n t : Nat) (b : List Byte) (s a : State), s.Canon → Store.wf dChan s.gnc.chans = true → g < 8 →
    a = s.advance t →
    ((a.burstPlan g).isSome = true → a.burstNow g ≠ 0 → ∃ u, exec (.burstStart g t) s = .next u
        ∧ u.gnc.burst = Store.put zNat s.gnc.burst g (a.burstNow g) ∧ u.regs = s.regs
        ∧ (∀ x, x / 48 ≠ g → u.chan x = s.chan x) ∧ (∀ x, (u.chan x).st = .track → (s.chan x).st = .track ∨ (s.chan x).st = .gap))
    ∧ ((a.burstPlan g).isSome = true → a.burstNow g = 0 → ∃ u, exec (.burstEnd g t) s = .next u
        ∧ u.gnc.burst = Store.put zNat s.gnc.burst g 0 ∧ u.regs = s.regs
        ∧ (∀ x, x / 48 ≠ g → u.chan x = s.chan x) ∧ (∀ x, x / 48 = g → (u.chan x).st ≠ .track))
    ∧ ((a.burstPlan g).isSome = false → exec (.burstStart g t) s = .next a ∧ exec (.burstEnd g t) s = .next a)
    ∧ (s.gnc.epochQ = [] → exec (.epochDeliver t) s = .next a)
    ∧ (∀ x r, s.gnc.epochQ = x :: r → ∃ u, exec (.epochDeliver t) s = .next u
        ∧ u.gnc = { s.gnc with epochQ := r } ∧ (u.on GNC.STICKY_EPOCH_DONE = true ∨ u.on GNC.STICKY_EPOCH_LOST = true))
    ∧ (s.on (GNC.GSEQ_CFG_NAV_EN g) = true → s.mode ≠ 8 → s.qRoom 142 1 = true → ∃ u, exec (.gnssNavSend g b t) s = .next u
        ∧ u.hif = { s.hif with evQ := s.hif.evQ ++ [⟨s.rd (GNC.GSEQ_CFG_NAV_RING g), 5, fit 32 b⟩] }
        ∧ u = { a with hif := u.hif, fab := u.fab })
    ∧ (s.on (GNC.GSEQ_CFG_NAV_EN g) = false ∨ s.mode = 8 → exec (.gnssNavSend g b t) s = .next a)
    ∧ (∃ u, exec (.spoofIndicatorWrite g word t) s = .next u
        ∧ u.gnc = { s.gnc with words := Store.put zNat s.gnc.words g (word % 2 ^ 32) }
        ∧ (∀ i, i < 9 → u.on ⟨GNC.SPOOF_STAT, i, 1⟩ = bitAt ((List.range 8).foldl (fun o j => o ||| Store.get zNat u.gnc.words j) 0) i)
        ∧ u.rd GNC.SPOOF_STAT_VAR = bitsOf word 16 8 ∧ u.rd GNC.SPOOF_STAT_SATS = bitsOf word 24 8
        ∧ Signals [GNC.SPOOF_STAT, GNC.STICKY] { a with gnc := u.gnc } u)
    ∧ (∀ e, s.accepts c → s.slotBound 1 0 = some n → c.zero 24 32 = true → c.pre = 0 → a.epochStale (c.u 0 12) = false →
        s.ref.epochs.find? (fun x => x.1 == c.u 0 12) = some e → n < 16 → ∃ u, exec (.gnssSolution c t) s = .next u
        ∧ u.completed c stOK 0 ∧ u.rd REF.GNSS_STAT_LAST_SEC = c.u 0 12 / qSec % 2 ^ REF.GNSS_STAT_LAST_SEC.w
        ∧ u.ref.gnssOk = some (a.tsNow 0) ∧ u.nreg (REF.SLOT_PHASE n) = ofSigned 32 (phaseReg (toSigned 64 (c.u 12 8))))
    ∧ (s.accepts c → s.slotBound 1 0 = none → c.pre = 0 → ∃ u, exec (.gnssSolution c t) s = .next u
        ∧ u.failed c stREFUSED ∧ u.ref = s.ref)
    ∧ (s.accepts c → s.slotBound 1 0 = some n → c.zero 24 32 = true → c.pre = 0 → a.epochStale (c.u 0 12) = true →
        ∃ u, exec (.gnssSolution c t) s = .next u ∧ u.failed c stSTALE ∧ u.on REF.STICKY_GNSS_STALE = true ∧ u.ref = s.ref)

/-- From a canonical state with a canonical table of rings: a granted word written to a DISABLED ring of the master's range
is that word of the ring, and to another ring is refused; ENABLE with no code against it makes the ring ENABLED and empty,
and with a code leaves its state and shows the code; DISABLE of an ENABLED or ERROR ring the master may touch makes it
DRAINING with nothing posted, fetched or open, and of another changes no ring; OP 0 and 3 are refused; a draining ring
without tokens becomes DISABLED; a good doorbell moves its index and a bad one sets DB_BAD and nothing else; where a row's
condition does not hold nothing changes. -/
def Obligations.RingsAreSetUpAndDrained : Prop :=
  ∀ (m r f i ix val op t : Nat) (s a : State), s.Canon → s.RingsWf → r < 1024 → f < 64 → a = s.advance t →
    (∀ k, a.access m HIF.RING_DATA .write = .granted → s.keyOf m HIF.RING_DATA = some k → s.ringDenied m (s.selRing m) = false →
      ((s.ringOf (s.selRing m)).st = .disabled → ∃ u, exec (.ringDataWrite m val t) s = .next u
        ∧ u.nreg k = val % 2 ^ 32 ∧ (∀ j, j ≠ k → u.reg j = s.reg j) ∧ u = { a with regs := u.regs })
      ∧ ((s.ringOf (s.selRing m)).st ≠ .disabled → ∃ u, exec (.ringDataWrite m val t) s = .next u
        ∧ u.on HIF.STICKY_CFG_REFUSED = true ∧ Signals [HIF.STICKY] a u))
    ∧ (a.access m HIF.RING_CTRL .write = .granted →
      (s.enableBad r = false → (s.ringOf r).st = .disabled → s.ringDenied m r = false → s.modeNoCmd = false →
        ∃ u, exec (.ringEnable m r t) s = .next u
          ∧ u.hif.rings = Store.put dRing s.hif.rings r
              { s.ringOf r with st := .enabled, sqHead := 0, sqTail := 0, cqHead := 0, cqTail := 0,
                                phase := true, posted := [], txd := [], cpls := [], openBuf := none, sigN := 0 }
          ∧ u.nreg (Tbl.ringCtrl.key m) = r + 2 ^ 12 ∧ (∀ j, j ≠ Tbl.ringCtrl.key m → u.reg j = s.reg j)
          ∧ u = { a with regs := u.regs, hif := { s.hif with rings := u.hif.rings } })
      ∧ (∀ code, code = lowestCode [codeIf (s.enableBad r) stREFUSED, codeIf ((s.ringOf r).st != .disabled) stBUSY,
            codeIf (s.ringDenied m r) stDENIED, codeIf s.modeNoCmd stMODE_FORBIDS] → code ≠ 0 →
          ∃ u, exec (.ringEnable m r t) s = .next u ∧ (u.ringOf r).st = (s.ringOf r).st
            ∧ u.nreg (Tbl.ringCtrl.key m) = r + 2 ^ 12 + 2 ^ 24 * code)
      ∧ (s.ringDenied m r = false → (s.ringOf r).st = .enabled ∨ (s.ringOf r).st = .error → ∃ u, exec (.ringDisable m r t) s = .next u
          ∧ (u.ringOf r).st = .draining ∧ (u.ringOf r).posted = [] ∧ (u.ringOf r).txd = [] ∧ (u.ringOf r).openBuf = none
          ∧ (∀ c ∈ u.hif.cmdQ, c.ring ≠ r) ∧ u.nreg (Tbl.ringCtrl.key m) = r + 2 ^ 13 ∧ u.on ⟨HIF.RING_ERR (r / 32), r % 32, 1⟩ = false)
      ∧ (s.ringDenied m r = false → (s.ringOf r).st = .disabled ∨ (s.ringOf r).st = .draining → ∃ u, exec (.ringDisable m r t) s = .next u
          ∧ u.nreg (Tbl.ringCtrl.key m) = r + 2 ^ 13 ∧ (∀ j, j ≠ Tbl.ringCtrl.key m → u.reg j = s.reg j) ∧ u = { a with regs := u.regs })
      ∧ (∃ u, exec (.ringOpInvalid m r op t) s = .next u ∧ u.on HIF.STICKY_CFG_REFUSED = true
          ∧ u.nreg (Tbl.ringCtrl.key m) = r + 2 ^ 12 * (if op % 4 = 0 then 0 else 3) + 2 ^ 24 * stREFUSED
          ∧ Signals [HIF.STICKY, Tbl.ringCtrl.key m] a u))
    ∧ ((s.ringOf r).st = .draining → s.descHeld r = 0 → ∃ u, exec (.ringDrained r t) s = .next u
        ∧ u = { a with hif := { s.hif with rings := Store.put dRing s.hif.rings r { s.ringOf r with st := .disabled } } })
    ∧ ((s.ringOf r).st ≠ .draining ∨ s.descHeld r ≠ 0 → exec (.ringDrained r t) s = .next a)
    ∧ (i < s.ringCount f → (s.ringOf (s.ringBase f + i)).st = .enabled → ix < s.ringSize (s.ringBase f + i) →
        (s.ringKind (s.ringBase f + i) ≠ 4 → exec (.doorbellSqTail f i ix 0 t) s
          = .next (a.setRing (s.ringBase f + i) { s.ringOf (s.ringBase f + i) with sqTail := ix }))
        ∧ ((ix + s.ringSize (s.ringBase f + i) - (s.ringOf (s.ringBase f + i)).cqHead) % s.ringSize (s.ringBase f + i)
              ≤ s.cqUsed (s.ringBase f + i) → exec (.doorbellCqHead f i ix 0 t) s
          = .next (a.setRing (s.ringBase f + i) { s.ringOf (s.ringBase f + i) with cqHead := ix })))
    ∧ (s.ringCount f ≤ i ∨ val ≠ 0 → ∀ c ∈ [Instr.doorbellSqTail f i ix val t, .doorbellCqHead f i ix val t],
        ∃ u, exec c s = .next u ∧ u.on HIF.STICKY_DB_BAD = true ∧ Signals [HIF.STICKY] a u)

/-- From a canonical state with a canonical table of rings: a fetch from a ring that may fetch takes the 32 bytes at its
head, moves the head, counts, and keeps a transmit descriptor or a buffer at the tail of the ring's list, while a descriptor
that cannot be read puts the ring in ERROR; a command descriptor that a block takes waits at the tail of queue 143; NOP
completes with HIF's own code; the oldest completion of a ring with room is written in its 16 bytes at the CQ tail with the
phase and no other byte of memory changes, and the tail moves, the phase turning at the end; the moderation timeout signals
and starts counting anew; unmasking opens what it names, and a pending message that it lets through is pending no more; where
a row's condition does not hold nothing changes. -/
def Obligations.DescriptorsCommandsAndCompletions : Prop :=
  ∀ (r f v what t : Nat) (c : HostCmd) (d : List Byte) (s a : State), s.Canon → s.RingsWf → a = s.advance t →
    d = s.bytesAt (s.sqAddr r + 32 * (s.ringOf r).sqHead) 32 →
    ((s.ringOf r).st = .enabled → s.ringBme r = true → (s.ringOf r).sqHead ≠ (s.ringOf r).sqTail → s.mode ≠ 8 →
        s.fab.isolated.contains (Tok.desc.key r) = false →
      (s.ringKind r = 1 → ∃ u, exec (.descFetch r none none t) s = .next u
        ∧ (u.ringOf r).txd = (s.ringOf r).txd ++ [((s.ringOf r).sqHead, d)]
        ∧ (u.ringOf r).sqHead = (if (s.ringOf r).sqHead + 1 = s.ringSize r then 0 else (s.ringOf r).sqHead + 1)
        ∧ u.reg48 HIF.DESC_FETCHED_LO = (s.reg48 HIF.DESC_FETCHED_LO + 1) % 2 ^ 48
        ∧ Signals [HIF.DESC_FETCHED_LO, HIF.DESC_FETCHED_LO + 4] a u)
      ∧ (s.ringKind r = 2 ∨ s.ringKind r = 3 → ∃ u, exec (.descFetch r none none t) s = .next u
        ∧ (u.ringOf r).posted = (s.ringOf r).posted ++ [((s.ringOf r).sqHead, leAt d 0 8)]
        ∧ Signals [HIF.DESC_FETCHED_LO, HIF.DESC_FETCHED_LO + 4] a u)
      ∧ (s.ringKind r ≠ 4 → s.ringKind r ≠ 0 → ∃ u, exec (.descFetch r (some 2) none t) s = .next u
        ∧ (u.ringOf r).st = .error ∧ (r < 1024 → u.on ⟨HIF.RING_ERR (r / 32), r % 32, 1⟩ = true)
        ∧ u.on HIF.STICKY_RING_ERROR = true ∧ u.on HIF.STICKY_DMA_ABORT = true
        ∧ u.nreg HIF.DMA_ABORTS = (s.nreg HIF.DMA_ABORTS + 1) % 2 ^ 32)
      ∧ (s.ringKind r = 0 → s.qRoom 143 1 = true → knownCmd (leAt d 0 1 % 32) (leAt d 1 1) = true →
          s.granted ((s.ringOwner r).getD 0) (leAt d 0 1 % 32) 0xFFFFF .write = true → ∃ u, exec (.descFetch r none none t) s = .next u
        ∧ u.hif.cmdQ = s.hif.cmdQ ++ [⟨r, (s.ringOf r).sqHead, (s.ringOwner r).getD 0, leAt d 2 2, leAt d 0 1 % 32, leAt d 1 1,
            s.bytesAt (leAt d 8 8) 32, lowestCode (s.cmdPre ((s.ringOwner r).getD 0) d none)⟩]))
    ∧ ((s.ringOf r).st ≠ .enabled ∨ (s.ringOf r).sqHead = (s.ringOf r).sqTail → exec (.descFetch r none none t) s = .next a)
    ∧ (s.accepts c → c.pre = 0 → ∃ u, exec (.nop c t) s = .next u ∧ u.completed c stOK 0 ∧ u.regs = s.regs)
    ∧ (s.accepts c → c.pre ≠ 0 → ∃ u, exec (.nop c t) s = .next u ∧ u.failed c c.pre ∧ Signals cmdKeys (a.takeCmd c) u)
    ∧ (∀ x l, (s.ringOf r).cpls = x :: l → (s.ringOf r).st ≠ .disabled → s.ringBme r = true → s.cqUsed r + 1 < s.ringSize r →
        x.quad = none → ∃ u, exec (.completionWrite r t) s = .next u
          ∧ (u.ringOf r).cpls = l
          ∧ (∀ i, i < 16 → u.byteAt (s.cqAddr r + 16 * (s.ringOf r).cqTail + i) = (x.bytes (s.ringOf r).phase).getD i 0)
          ∧ (∀ b, b < 2 ^ 64 → (∀ i, i < 16 → b ≠ (s.cqAddr r + 16 * (s.ringOf r).cqTail + i) % 2 ^ 64) → u.byteAt b = s.byteAt b)
          ∧ (u.ringOf r).cqTail = (if (s.ringOf r).cqTail + 1 = s.ringSize r then 0 else (s.ringOf r).cqTail + 1)
          ∧ (u.ringOf r).phase = (if (s.ringOf r).cqTail + 1 = s.ringSize r then !(s.ringOf r).phase else (s.ringOf r).phase)
          ∧ u.reg48 HIF.CPL_WRITTEN_LO = (s.reg48 HIF.CPL_WRITTEN_LO + 1) % 2 ^ 48)
    ∧ ((s.ringOf r).cpls = [] → exec (.completionWrite r t) s = .next a)
    ∧ (s.on (ringFld r 0 14 1) = true → 0 < (s.ringOf r).sigN → 0 < s.rd (ringFld r 6 0 16) → s.ringOwner r = some f →
        (s.ringOf r).sigRaw + s.rd (ringFld r 6 0 16) * 1000 * qNs ≤ a.raw → ∃ u, exec (.msixModerationTimeout r t) s = .next u
          ∧ (u.ringOf r).sigN = 0 ∧ Signals [] a u)
    ∧ ((s.ringOf r).sigN = 0 → exec (.msixModerationTimeout r t) s = .next a)
    ∧ (f < 64 → v < 64 → Store.wf (zBool true) s.hif.msixMask = true → Store.wf (zBool false) s.hif.msixPend = true →
        Store.wf dFn s.hif.fns = true → ∃ u, exec (.msixUnmask f what v t) s = .next u
          ∧ (what = 0 → Store.get (zBool true) u.hif.msixMask (64 * f + v) = false ∧ u.hif.fns = s.hif.fns)
          ∧ (what = 1 → u.fnOf f = { s.fnOf f with fnMask := false }) ∧ (1 < what → u.fnOf f = { s.fnOf f with msixEn := true })
          ∧ (what = 0 → (s.fnOf f).msixEn = true → (s.fnOf f).fnMask = false → (s.fnOf f).bme = true →
              Store.get (zBool false) u.hif.msixPend (64 * f + v) = false)
          ∧ Signals [] a u)

/-- From a canonical state with a canonical table of rings: the frame at the head of a transmit ring that no code stops joins
the host frames with its bytes and its descriptors leave the ring, and one that a code stops completes with that code and
joins nothing; a frame whose link stayed down for 10 ms leaves with TIMEOUT; a staged frame that is first and can be claimed
leaves its quad and its buffers, and one that waits longer than its ring allows leaves and counts in RX_STARVED; the oldest
event leaves queue 142 and, on a ring that is not in service, counts in EVENT_LOST and sets EVENT_LOST; an open buffer whose
flush time has passed closes with one completion; where a row's condition does not hold nothing changes. -/
def Obligations.FramesAndEventsPass : Prop :=
  ∀ (r id t : Nat) (p : Bool) (ds : List (Nat × List Byte)) (s a : State), s.Canon → s.RingsWf → a = s.advance t →
    (txFrameDescs 8 (s.ringOf r).txd = some ds → (s.ringOf r).st = .enabled → s.ringKind r = 1 → s.txPoolOpen = true →
      (s.txCode r ds = 0 → s.qRoom (32 + leAt ((ds.head?.map (·.2)).getD []) 10 1 % 32) 1 = true → ∃ u, exec (.transmitFrame r none false t) s = .next u
        ∧ (u.ringOf r).txd = (s.ringOf r).txd.drop ds.length
        ∧ (∃ x, u.prt.tx = s.prt.tx ++ [x] ∧ x.id = s.rsp.nextId ∧ x.ring = r ∧ x.ndesc = ds.length ∧ x.readRaw = a.raw
            ∧ x.port = leAt ((ds.head?.map (·.2)).getD []) 10 1 % 32
            ∧ x.bytes = ds.flatMap (fun y => s.bytesAt (leAt y.2 0 8) (leAt y.2 8 2)))
        ∧ u.rsp.nextId = s.rsp.nextId + 1 ∧ u.mem = s.mem)
      ∧ (s.txCode r ds ≠ 0 → ∃ u, exec (.transmitFrame r none p t) s = .next u
        ∧ (u.ringOf r).txd = (s.ringOf r).txd.drop ds.length ∧ u.prt.tx = s.prt.tx
        ∧ ((u.ringOf r).cpls.getLast?.map (fun x => (x.status, x.count))) = some (s.txCode r ds, 0)))
    ∧ ((s.ringOf r).txd = [] → exec (.transmitFrame r none p t) s = .next a)
    ∧ (∀ x, s.findTx id = some x → s.linkUp x.port = false → x.readRaw + 10000000 * qNs ≤ a.raw →
        Store.get zNat s.prt.linkRaw x.port + 10000000 * qNs ≤ a.raw → (s.ringOf x.ring).st ≠ .disabled →
        ∃ u, exec (.txLinkTimeout id t) s = .next u ∧ u.prt.tx = s.prt.tx.filter (fun y => y.id != id)
        ∧ ((u.ringOf x.ring).cpls.getLast?.map (fun y => (y.slot, y.status))) = some (x.slot, stTIMEOUT))
    ∧ (s.findTx id = none → exec (.txLinkTimeout id t) s = .next a)
    ∧ (∀ j, s.findJob id = some j → j.st = .staged → s.rxFirst j = true → s.ringGone j.ring = false → s.rxClaimable j = true →
        ∃ u, exec (.receiveFrameWrite id t) s = .next u
        ∧ (∀ x ∈ u.rsp.jobs, x.id ≠ id) ∧ (u.ringOf j.ring).posted = (s.ringOf j.ring).posted.drop (s.rxNeed j)
        ∧ ((u.ringOf j.ring).cpls.getLast?.map (fun y => (y.status, y.count))) = some (stOK, j.frame.length))
    ∧ (∀ j, s.findJob id = some j → j.st = .staged → s.rxClaimable j = false → j.since + s.rd (ringFld j.ring 7 0 16) * 1000 * qNs ≤ a.raw →
        ∃ u, exec (.rxStarved id t) s = .next u ∧ (∀ x ∈ u.rsp.jobs, x.id ≠ id)
        ∧ u.nreg HIF.RX_STARVED = (s.nreg HIF.RX_STARVED + 1) % 2 ^ 32 ∧ u.on HIF.STICKY_RX_STARVED = true)
    ∧ (s.findJob id = none → exec (.receiveFrameWrite id t) s = .next a ∧ exec (.rxStarved id t) s = .next a)
    ∧ (s.hif.evQ = [] → exec (.eventDeliver t) s = .next a)
    ∧ (∀ e l, s.hif.evQ = e :: l → s.tdc.q = [] → (s.ringOf e.ring).st ≠ .enabled → e.kind = 5 → ∃ u, exec (.eventDeliver t) s = .next u
        ∧ u.nreg HIF.EVENT_LOST = (s.nreg HIF.EVENT_LOST + 1) % 2 ^ 32 ∧ u.on HIF.STICKY_EVENT_LOST = true ∧ u.mem = s.mem)
    ∧ (∀ e l b, s.hif.evQ = e :: l → s.tdc.q = [] → (s.ringOf e.ring).st = .enabled → s.ringKind e.ring = 3 → e.kind = 5 →
        (s.ringOf e.ring).openBuf = some b → s.rd (ringFld e.ring 1 20 12) ≠ 0 → e.payload.length = 32 →
        b.used + 48 ≤ b.addrs.length * s.bufSize e.ring → ∃ u, exec (.eventDeliver t) s = .next u
        ∧ u.hif.evQ = l ∧ (u.ringOf e.ring).evSeq = ((s.ringOf e.ring).evSeq + 1) % 2 ^ 32
        ∧ (∃ b', (u.ringOf e.ring).openBuf = some b' ∧ b'.used = b.used + 40 ∧ b'.events = b.events + 1) ∧ u.regs = s.regs)
    ∧ (∀ b, (s.ringOf r).openBuf = some b → (s.ringOf r).st ≠ .disabled → b.firstRaw + s.rd (ringFld r 1 20 12) * 1000 * qNs ≤ a.raw →
        exec (.eventFlushTimeout r t) s = .next (a.setRing r
          { s.ringOf r with openBuf := none,
                            cpls := (s.ringOf r).cpls ++ [⟨b.slot, stOK, b.addrs.length, b.used, b.events, 0, 0, b.addrs.length, none⟩] }))
    ∧ ((s.ringOf r).openBuf = none → exec (.eventFlushTimeout r t) s = .next a)

/-- From a canonical state with canonical tables of rings and functions: bus mastering of a function is set and cleared
alone; a function-level reset leaves its rings DISABLED and its PCI Express state reset, counts and sets FLR, and leaves the
state of every other function; the loss of the link leaves every ring DISABLED and every function reset, the link down and
counted; the link trains within LINK_CTRL's limits, and below Gen3 or four lanes sets LINK_DEGRADED. -/
def Obligations.FunctionsAndLinkAreReset : Prop :=
  ∀ (f g w nv t : Nat) (s a : State), s.Canon → s.RingsWf → Store.wf dFn s.hif.fns = true → f < 64 → a = s.advance t →
    (exec (.busMasterSet f t) s = .next (a.setFn f { s.fnOf f with bme := true }))
    ∧ (exec (.busMasterClear f t) s = .next (a.setFn f { s.fnOf f with bme := false }))
    ∧ (∃ u, exec (.flr f t) s = .next u
        ∧ (∀ r, s.owns f r = true → (u.ringOf r).st = .disabled) ∧ (∀ r, s.owns f r = false → (u.ringOf r).st = (s.ringOf r).st)
        ∧ u.fnOf f = dFn f ∧ (∀ k, k ≠ f → u.fnOf k = s.fnOf k)
        ∧ u.nreg HIF.FLR_COUNT = (s.nreg HIF.FLR_COUNT + 1) % 2 ^ 32 ∧ u.on HIF.STICKY_FLR = true)
    ∧ (∃ u, exec (.pcieLinkLoss t) s = .next u
        ∧ (∀ r, (u.ringOf r).st = .disabled) ∧ (∀ k, u.fnOf k = dFn k)
        ∧ u.on HIF.LINK_STAT_UP = false ∧ u.rd HIF.LINK_STAT_DOWNS = (s.rd HIF.LINK_STAT_DOWNS + 1) % 256
        ∧ u.on HIF.STICKY_FLR = true ∧ u.on HIF.STICKY_LINK_DOWN = true)
    ∧ (g < 8 → w < 32 → nv < 64 → ∃ u, exec (.pcieLinkUp g w nv t) s = .next u
        ∧ u.on HIF.LINK_STAT_UP = true ∧ u.rd HIF.LINK_STAT_GEN = min g (s.rd HIF.LINK_CTRL_MAX_GEN)
        ∧ u.rd HIF.LINK_STAT_WIDTH = min w (s.rd HIF.LINK_CTRL_MAX_WIDTH) ∧ u.rd HIF.LINK_STAT_NUM_VFS = nv
        ∧ (min g (s.rd HIF.LINK_CTRL_MAX_GEN) < 3 ∨ min w (s.rd HIF.LINK_CTRL_MAX_WIDTH) < 4 → u.on HIF.STICKY_LINK_DEGRADED = true)
        ∧ Signals [HIF.LINK_STAT, HIF.STICKY] a u)

/-- For every present port from a canonical state: locks gained on an enabled port that may lock set both locks, clear both
faults and change nothing else; a passed calibration of a locked port that is down sets CAL_VALID and LINK and LINK_UP,
counted, with preemption active where no verify is asked; a failed one drops the locks, and the second sets CAL_FAIL; on a
port without lock a calibration changes nothing; loss of lock clears the locks, CAL_VALID and LINK, and a local or remote
fault sets its bits and clears LINK, LINK_DOWN setting and counting where it was up; a port the variant lacks changes
nothing. -/
def Obligations.LinksComeUpCalibrated : Prop :=
  ∀ (p cause t : Nat) (l : List (Nat × Int)) (s a : State), s.Canon → Store.wf zNat s.prt.stats = true →
    Store.wf zNat s.prt.calFails = true → p < 32 → a = s.advance t →
    (s.portPresent p = true → (s.mode ≠ 6 ∨ s.maint 12 = false) → s.on (PRT.CTRL_EN p) = true → s.on (PRT.STAT_PRESENT p) = true →
        s.calFails p < 2 → s.on (PRT.WAKE_CTRL_LINK_WAKE p) = false ∨ s.domState p < 2 → ∃ u, exec (.linkLock p t) s = .next u
      ∧ u.on (PRT.STAT_PCS_LOCK p) = true ∧ u.on (PRT.STAT_FEC_LOCK p) = true ∧ u.on (PRT.STAT_LOCAL_FAULT p) = false
      ∧ u.on (PRT.STAT_REMOTE_FAULT p) = false ∧ u.on (PRT.STAT_LINK p) = s.on (PRT.STAT_LINK p)
      ∧ (∀ j, j ≠ PRT.STAT p → u.reg j = s.reg j) ∧ u = { a with regs := u.regs })
    ∧ (s.portPresent p = false → exec (.linkLock p t) s = .next a ∧ exec (.linkDown p cause none t) s = .next a)
    ∧ (s.on (PRT.STAT_PCS_LOCK p) = true → s.on (PRT.STAT_LINK p) = false → ∃ u, exec (.calDone p l true t) s = .next u
      ∧ u.on (PRT.STAT_CAL_VALID p) = true ∧ u.on (PRT.STAT_LINK p) = true ∧ u.on (PRT.STICKY_LINK_UP p) = true
      ∧ u.rd (PRT.STAT_LINK_CHANGES p) = (s.rd (PRT.STAT_LINK_CHANGES p) + 1) % 2 ^ (PRT.STAT_LINK_CHANGES p).w
      ∧ u.on (PRT.STAT_PREEMPT_ACTIVE p) = (s.on (PRT.CTRL_PREEMPT_EN p) && !s.on (PRT.PREEMPT_CFG_VERIFY_EN p))
      ∧ u.calFails p = 0 ∧ Signals [PRT.STAT p, PRT.STICKY p] { a with prt := u.prt } u)
    ∧ (s.on (PRT.STAT_PCS_LOCK p) = true → s.on (PRT.STAT_LINK p) = false → ∃ u, exec (.calDone p l false t) s = .next u
      ∧ u.on (PRT.STAT_PCS_LOCK p) = false ∧ u.on (PRT.STAT_CAL_VALID p) = false ∧ u.on (PRT.STAT_LINK p) = false
      ∧ u.calFails p = s.calFails p + 1 ∧ (s.calFails p ≠ 0 → u.on (PRT.STICKY_CAL_FAIL p) = true)
      ∧ Signals [PRT.STAT p, PRT.STICKY p] { a with prt := u.prt } u)
    ∧ (s.on (PRT.STAT_PCS_LOCK p) = false → ∀ ok, exec (.calDone p l ok t) s = .next a)
    ∧ (s.portPresent p = true → ∃ u, exec (.linkDown p cause none t) s = .next u
      ∧ u.on (PRT.STAT_LINK p) = false ∧ u.on (PRT.STAT_PREEMPT_ACTIVE p) = false
      ∧ (cause = 0 → u.on (PRT.STAT_PCS_LOCK p) = false ∧ u.on (PRT.STAT_CAL_VALID p) = false)
      ∧ (cause = 1 → u.on (PRT.STAT_LOCAL_FAULT p) = true ∧ u.on (PRT.STICKY_LOCAL_FAULT p) = true
          ∧ Store.get zNat u.prt.stats (64 * p + 57) = (Store.get zNat s.prt.stats (64 * p + 57) + 1) % 2 ^ 48)
      ∧ (cause = 2 → u.on (PRT.STAT_REMOTE_FAULT p) = true ∧ u.on (PRT.STICKY_REMOTE_FAULT p) = true)
      ∧ (s.on (PRT.STAT_LINK p) = true → u.on (PRT.STICKY_LINK_DOWN p) = true
          ∧ Store.get zNat u.prt.stats (64 * p + 56) = (Store.get zNat s.prt.stats (64 * p + 56) + 1) % 2 ^ 48)
      ∧ u.raw = a.raw)

/-- For every present port from a canonical state: a frame on a port that is enabled, up, awake and not isolated, which no
row of R215 discards, joins the frames of its quad with its cells, its start and nothing lost; one that a row discards joins
nothing and counts in the Sump under that row's reason; on a port that is down or disabled nothing changes; an idle port that
may sleep asks for consent, and another does not; a port whose wake ends is awake; a port downshifts and upshifts as its
rates and its queue say, and a verify attempt activates preemption or counts, the third failure setting PREEMPT_FAIL. -/
def Obligations.FramesAreTakenOrDiscarded : Prop :=
  ∀ (p rx tx rawS t : Nat) (f : List Byte) (ok ex po : Bool) (s a : State), s.Canon → Store.wf zNat s.prt.stats = true →
    Store.wf zNat s.prt.verify = true → p < 32 → s.portPresent p = true → a = s.advance t →
    (s.on (PRT.CTRL_EN p) = true → s.on (PRT.STAT_LINK p) = true → s.mode ≠ 8 → s.domState p < 2 → s.pwr.sleep = none →
        s.fab.isolated.contains (Tok.request.key (p / 8)) = false →
      (s.portDiscard p f ok = none → ∃ u, exec (.frameReceive p f ok ex po rawS t) s = .next u
        ∧ (∃ j, u.rsp.jobs = s.rsp.jobs ++ [j] ∧ j.id = s.rsp.nextId ∧ j.port = p ∧ j.quad = p / 8 ∧ j.isReq = true ∧ j.st = .rx
            ∧ j.frame = (if s.nreg (PRT.MAX_FRAME p) % 2 ^ 14 < f.length + 4 then f.take (s.nreg (PRT.MAX_FRAME p) % 2 ^ 14) else f)
            ∧ j.rawS = rawS ∧ j.poisoned = po ∧ j.cells = ceilDiv (min (f.length + 4) (s.nreg (PRT.MAX_FRAME p) % 2 ^ 14)) 64)
        ∧ u.rsp.nextId = s.rsp.nextId + 1 ∧ Signals [PRT.STICKY p, (PRT.STATS_SEL_HALF_IDX p).addr] { a with prt := u.prt, rsp := u.rsp } u)
      ∧ (∀ d, s.portDiscard p f ok = some d → ∃ u, exec (.frameReceive p f ok ex po rawS t) s = .next u
        ∧ u.rsp = s.rsp ∧ u.reg48 (FAB.SUMP_CNT_LO d.1) = (s.reg48 (FAB.SUMP_CNT_LO d.1) + 1) % 2 ^ 48))
    ∧ (s.on (PRT.CTRL_EN p) = false ∨ s.on (PRT.STAT_LINK p) = false → exec (.frameReceive p f ok ex po rawS t) s = .next a)
    ∧ (s.variant = .pyv1616 → s.on (PRT.CTRL_EN p) = true → s.on (PRT.IDLE_CFG_SLEEP_EN p) = true → s.domState p < 2 →
        s.pwrBusy = false → a.calHolds p = false → s.on (PRT.SYNCE_CFG_ESMC_TX_EN p) = false →
        s.rd (PRT.IDLE_CFG_IDLE_MS p) ≤ a.msSince (Store.get zNat s.prt.idleRaw p) → ∃ u, exec (.portSleepEntry p t) s = .next u
        ∧ u.pwr = { s.pwr with sleep := some ⟨.port p, [p], [], a.raw, none⟩ } ∧ u.rd PWR.SLEEP_STAT_STATE = 1
        ∧ u.rd PWR.SLEEP_STAT_DOMAIN = p ∧ (∀ j, j ≠ PWR.SLEEP_STAT → u.reg j = s.reg j) ∧ u = { a with regs := u.regs, pwr := u.pwr })
    ∧ (s.variant ≠ .pyv1616 ∨ s.on (PRT.IDLE_CFG_SLEEP_EN p) = false ∨ s.pwrBusy = true → exec (.portSleepEntry p t) s = .next a)
    ∧ ((s.wakeOf p).isSome = true → ∃ u, exec (.portWakeComplete p t) s = .next u ∧ u.on (PRT.STAT_SLEEPING p) = false ∧ u.domState p = 0)
    ∧ (s.wakeOf p = none → exec (.portWakeComplete p t) s = .next a)
    ∧ (s.variant ≠ .pyv1616 → s.on (PRT.IDLE_CFG_DOWN_EN p) = true → s.on (PRT.STAT_DOWNSHIFTED p) = false →
        rx < s.rd (PRT.IDLE_CFG_DOWN_PCT p) → tx < s.rd (PRT.IDLE_CFG_DOWN_PCT p) → ∃ u, exec (.downshift p rx tx t) s = .next u
        ∧ u.on (PRT.STAT_DOWNSHIFTED p) = true ∧ (∀ j, j ≠ PRT.STAT p → u.reg j = s.reg j)
        ∧ u = { a with regs := u.regs, prt := { s.prt with downRaw := Store.put zNat s.prt.downRaw p a.raw } })
    ∧ (s.variant = .pyv1616 ∨ s.rd (PRT.IDLE_CFG_DOWN_PCT p) ≤ rx → exec (.downshift p rx tx t) s = .next a)
    ∧ (s.on (PRT.STAT_DOWNSHIFTED p) = true → s.rd (PRT.IDLE_CFG_DOWN_PCT p) < rx ∨ s.rd (PRT.IDLE_CFG_DOWN_PCT p) < tx ∨ 256 < s.qOcc p →
        ∃ u, exec (.upshift p rx tx t) s = .next u ∧ u.on (PRT.STAT_DOWNSHIFTED p) = false)
    ∧ (s.on (PRT.STAT_DOWNSHIFTED p) = false → exec (.upshift p rx tx t) s = .next a)
    ∧ (s.on (PRT.STAT_LINK p) = true → s.on (PRT.CTRL_PREEMPT_EN p) = true → s.on (PRT.PREEMPT_CFG_VERIFY_EN p) = true →
        s.on (PRT.STAT_PREEMPT_ACTIVE p) = false → Store.get zNat s.prt.verify p < 3 →
        (∃ u, exec (.preemptVerify p true t) s = .next u ∧ u.on (PRT.STAT_PREEMPT_ACTIVE p) = true
          ∧ (∀ j, j ≠ PRT.STAT p → u.reg j = s.reg j) ∧ u = { a with regs := u.regs })
        ∧ (∃ u, exec (.preemptVerify p false t) s = .next u ∧ u.on (PRT.STAT_PREEMPT_ACTIVE p) = false
          ∧ Store.get zNat u.prt.verify p = Store.get zNat s.prt.verify p + 1
          ∧ (Store.get zNat s.prt.verify p = 2 → u.on (PRT.STICKY_PREEMPT_FAIL p) = true)
          ∧ Store.get zNat u.prt.stats (64 * p + 63) = (Store.get zNat s.prt.stats (64 * p + 63) + 1) % 2 ^ 48))

/-- From a canonical state: STATS_SNAP with a code against it fails with that code, and else completes OK or INCOMPLETE with
at most as many records as it names ports; a periodic snapshot that is due is posted to the port's ring; an ESMC PDU of an
enabled port that does not go to the host is recorded and its frame is answered; five seconds without one set ESMC_TIMEOUT;
an information PDU of a port that is up asks for a departure with the code advertised, and an event PDU does where that code
differs from the last sent; where a row's condition does not hold nothing changes. -/
def Obligations.StatisticsAndEsmc : Prop :=
  ∀ (c : HostCmd) (p id t : Nat) (s a : State), s.Canon → p < 32 → a = s.advance t →
    (s.accepts c →
      (∀ code, code = c.code [codeIf (c.u 5 1 == 0 || c.u 0 4 == 0) stZERO_LEN,
          codeIf (decide (1024 ≤ c.u 6 2) || !c.zero 8 32 || decide (64 < c.u 4 1 + c.u 5 1)
            || ((List.range 32).filter (fun q => bitAt (c.u 0 4) q)).any (fun q => !s.portPresent q)
            || !s.ringIs c.fn 3 (c.u 6 2 % 1024)) stREFUSED] →
        (code ≠ 0 → ∃ u, exec (.statsSnap c t) s = .next u ∧ u.failed c code ∧ u.mem = s.mem)
        ∧ (code = 0 → ∃ u st n, exec (.statsSnap c t) s = .next u ∧ u.completed c st n
            ∧ n ≤ ((List.range 32).filter (fun q => bitAt (c.u 0 4) q)).length
            ∧ st = (if n = ((List.range 32).filter (fun q => bitAt (c.u 0 4) q)).length then stOK else stINCOMPLETE))))
    ∧ (s.portPresent p = true → 1 ≤ s.rd (PRT.STATS_CTRL_PERIOD p) → s.rd (PRT.STATS_CTRL_PERIOD p) ≤ 10 →
        a.sec0 % 2 ^ (s.rd (PRT.STATS_CTRL_PERIOD p) - 1) = 0 → s.qRoom 142 1 = true → ∃ u, exec (.statsPeriodicSnap p t) s = .next u
        ∧ u.hif = { s.hif with evQ := s.hif.evQ ++ [⟨s.rd (PRT.STATS_CTRL_RING p), 6, a.statsPayload p 0 64 1⟩] }
        ∧ u = { a with hif := u.hif, fab := u.fab })
    ∧ (s.rd (PRT.STATS_CTRL_PERIOD p) = 0 → exec (.statsPeriodicSnap p t) s = .next a)
    ∧ (∀ j x, s.findJob id = some j → j.st = .rx → s.jobEsmc j = some x → j.port < 32 →
        s.on (PRT.SYNCE_CFG_ESMC_TO_HOST j.port) = false → ∃ u, exec (.esmcPduReceive id t) s = .next u
        ∧ u.rd (PRT.ESMC_STAT_SSM j.port) = x.1 % 2 ^ (PRT.ESMC_STAT_SSM j.port).w ∧ u.on (PRT.ESMC_STAT_EXT j.port) = x.2.isSome
        ∧ (∀ y ∈ u.rsp.jobs, y.id ≠ id))
    ∧ (s.findJob id = none → exec (.esmcPduReceive id t) s = .next a)
    ∧ (s.on (PRT.SYNCE_CFG_ESMC_RX_EN p) = true → 0 < Store.get zNat s.ref.esmcAt p →
        Store.get zNat s.ref.esmcAt p - 1 + 5 * qSec ≤ a.raw → ∃ u, exec (.esmcTimeout p t) s = .next u
        ∧ u.on (PRT.STICKY_ESMC_TIMEOUT p) = true ∧ Signals [PRT.STICKY p] a u)
    ∧ (Store.get zNat s.ref.esmcAt p = 0 → exec (.esmcTimeout p t) s = .next a)
    ∧ (s.portPresent p = true → s.on (PRT.SYNCE_CFG_ESMC_TX_EN p) = true → s.on (PRT.STAT_LINK p) = true → s.findJob s.rsp.nextId = none →
        (∃ u j, exec (.esmcInfoTx p t) s = .next u ∧ u.findJob s.rsp.nextId = some j ∧ j.port = p ∧ j.what = some (.esmc false)
          ∧ u.rd (PRT.ESMC_STAT_TX_SSM p) = s.esmcCode p % 2 ^ (PRT.ESMC_STAT_TX_SSM p).w)
        ∧ (s.esmcCode p ≠ s.rd (PRT.ESMC_STAT_TX_SSM p) → ∃ u j, exec (.esmcEventTx p t) s = .next u
          ∧ u.findJob s.rsp.nextId = some j ∧ j.port = p ∧ j.what = some (.esmc true)
          ∧ u.rd (PRT.ESMC_STAT_TX_SSM p) = s.esmcCode p % 2 ^ (PRT.ESMC_STAT_TX_SSM p).w)
        ∧ (s.esmcCode p = s.rd (PRT.ESMC_STAT_TX_SSM p) → exec (.esmcEventTx p t) s = .next a))
    ∧ (s.on (PRT.STAT_LINK p) = false → exec (.esmcInfoTx p t) s = .next a ∧ exec (.esmcEventTx p t) s = .next a)

/-- From a canonical state, for a request at stage 1 that is no ESMC PDU: where the mode or the isolation of its quad forbids
it, it goes to the Sump as MODE, a poisoned one as POISON, one that no rule matches with the default drop as NO_RULE, one
under a DROP rule as RULE_DROP; one under a HOST rule takes the slow path with cause 1 and its profile's ring; one under a
DECLINE rule whose bucket pays waits for the quad's sequencers and is counted; a plain mode 3 NTP request under a SERVE rule
whose bucket pays asks for a departure LEAD_NS ahead with a mode 4 answer that returns its transmit timestamp. A request that
waits in the side buffer past its MAX_RES goes to EXPIRED. A sequencer builds for, passes on or discards the head of its
quad's queue and its build asks for a departure; without a request nothing changes. -/
def Obligations.RequestsTakeTheirPath : Prop :=
  ∀ (id n reason t : Nat) (f : List Byte) (st : Option (Nat × Bool)) (s a : State), s.Canon → a = s.advance t →
    (∀ j : Job, s.findJob id = some j → j.st = .rx → s.jobEsmc j = none → j.quad < 4 →
      (s.modeServes j.quad (s.jobNts j) = false → ∃ u, exec (.requestArrival id t) s = .next u ∧ s.dropped u id 0x18)
      ∧ (s.modeServes j.quad (s.jobNts j) = true → j.poisoned = true →
          ∃ u, exec (.requestArrival id t) s = .next u ∧ s.dropped u id 0x10)
      ∧ (s.modeServes j.quad (s.jobNts j) = true → j.poisoned = false → j.trunc = false →
          (ethOf (s.rd (PRT.VLAN_CFG_OUTER_TPID j.port)) j.frame).bind (headerFault j.frame) = none →
        (s.classify j.frame j.port = none → s.on RSP.CTRL_DEFAULT_ACTION = false →
          ∃ u, exec (.requestArrival id t) s = .next u ∧ s.dropped u id 0x06)
        ∧ (∀ i p b : Nat, s.classify j.frame j.port = some i → p = bitsOf (s.ruleWord i 0) 4 6 → b = s.rd RSP.STAT_BANK →
          (bitsOf (s.ruleWord i 0) 1 2 = 3 → ∃ u, exec (.requestArrival id t) s = .next u ∧ s.dropped u id 0x07)
          ∧ (bitsOf (s.ruleWord i 0) 1 2 = 2 → s.prof b p 0 20 1 = 1 → s.sideRoom j.quad = true →
              ∃ u k, exec (.requestArrival id t) s = .next u ∧ u.findJob id = some k ∧ (k.st = .slow ∨ k.st = .staged)
                ∧ k.cause = 1 ∧ k.ring = s.prof b p 1 0 10 ∧ k.maxRes = s.prof b p 1 16 16)
          ∧ ((a.charge j.quad b (s.prof b p 0 16 4) (viewOf (s.rd (PRT.VLAN_CFG_OUTER_TPID j.port)) j.frame)
                ((j.frame.drop 6).take 6)).2 = true →
            (bitsOf (s.ruleWord i 0) 1 2 = 1 → s.sideRoom j.quad = true →
              ∃ u k, exec (.requestArrival id t) s = .next u ∧ u.findJob id = some k ∧ (k.st = .declined ∨ k.st = .atSeq)
                ∧ u.reg48 (RSP.Q_DECLINED_LO j.quad) = (s.reg48 (RSP.Q_DECLINED_LO j.quad) + 1) % 2 ^ 48)
            ∧ (∀ k : Pkt, bitsOf (s.ruleWord i 0) 1 2 = 0 → s.prof b p 0 0 2 = 0 → s.prof b p 0 8 2 ≠ 2 → s.pktOfJob j = some k →
                k.v ≠ 0 → ntpClient k.body = true → k.body.length = 48 → s.castBad b (s.prof b p 0 10 6) k = false →
              ∃ u y o, exec (.requestArrival id t) s = .next u ∧ u.findJob id = some y ∧ y.st = .wantSlot ∧ y.what = some (.ntp 0)
                ∧ y.te = a.raw + s.prof b p 2 0 13 * qNs ∧ y.tl = j.rawS + s.prof b p 1 16 16 * 1000 * qNs
                ∧ y.out = some o ∧ o.body.length = 48 ∧ beAt o.body 0 1 % 8 = 4 ∧ beAt o.body 24 8 = beAt k.body 40 8)))))
    ∧ (∀ j : Job, s.findJob id = some j → j.st = .declined ∨ j.st = .slow → j.quad < 4 →
        (j.since + j.maxRes * 1000 * qNs < a.raw → ∃ u, exec (.sideBufferExpire id t) s = .next u ∧ s.dropped u id 0x14
          ∧ (j.isReq = true → u.on RSP.STICKY_EXPIRED = true))
        ∧ (a.raw ≤ j.since + j.maxRes * 1000 * qNs → exec (.sideBufferExpire id t) s = .next a))
    ∧ (∀ j : Job, n < 32 → s.seqHead (n / 8) = some j → s.findJob j.id = some j →
        (s.buildingOf n = none → ∃ u k, exec (.reqActionBuild n t) s = .next u ∧ u.findJob j.id = some k ∧ k.st = .building n
          ∧ k.frame = j.frame)
        ∧ (j.slowOk = true → s.sideRoom j.quad = true → ∃ u k, exec (.reqActionSlowPath n t) s = .next u ∧ u.findJob j.id = some k
          ∧ (k.st = .slow ∨ k.st = .staged) ∧ k.cause = 0)
        ∧ (seqReason reason = true → ∃ u, exec (.reqActionDiscard n reason t) s = .next u ∧ s.dropped u j.id reason)
        ∧ (seqReason reason = false → exec (.reqActionDiscard n reason t) s = .next a))
    ∧ (s.seqHead (n / 8) = none → exec (.reqActionBuild n t) s = .next a ∧ exec (.reqActionSlowPath n t) s = .next a
        ∧ exec (.reqActionDiscard n reason t) s = .next a)
    ∧ (∀ j : Job, s.buildingOf n = some j → j.quad < 4 → ∃ u k, exec (.buildGo n f st t) s = .next u ∧ u.findJob j.id = some k
        ∧ k.st = .wantSlot ∧ k.what = some (.program (fit (max 14 (min 2048 f.length)) f) st)
        ∧ k.te = a.raw + j.lead * qNs ∧ k.tl = j.rawS + j.maxRes * 1000 * qNs)
    ∧ (s.buildingOf n = none → exec (.buildGo n f st t) s = .next a)
    ∧ (s.findJob id = none → exec (.requestArrival id t) s = .next a ∧ exec (.sideBufferExpire id t) s = .next a)

/-- From a canonical state whose ledger balances: a frame that waits for a slot on a port that is up and awake is granted the
first start that fits, with its predicted stamp there and a DEPART token issued, and without one goes to EXPIRED, or to
CANCEL_DROP once rebuilt; a held frame is sealed; a sealed one whose stamp stays within TOL_Q is checked and nothing else
changes, one not sealed is cancelled LATE and one past the tolerance MISMATCH; a cancelled frame is built again once and asks
for a new slot; a checked frame commits: it is gone and a request counts as answered, and a host frame that leaves its port
without a stamp leaves the pool. A bucket the scrubber visits is refilled and nothing charged; a named quad without a
reservation is fenced; MAINT_QUADS is written only in Maintenance of RSP; a granted write of Q_LAT clears its maxima; the old
bank is released when no request holds it. Where a row's condition does not hold nothing changes. -/
def Obligations.DeparturesAreGrantedCheckedAndSent : Prop :=
  ∀ (id t m val q i rawS busy : Nat) (starts : List Nat) (s a : State), s.Canon → s.Balanced → a = s.advance t →
    (∀ j : Job, s.findJob id = some j → j.quad < 4 → j.port < 32 →
      (j.st = .wantSlot → j.inQ = true → s.domState j.port < 2 → s.linkUp j.port = true →
          s.fab.isolated.contains (Tok.depart.key j.port) = false → (s.heldOn j.port).length < 64 →
        (∀ c, starts.find? (a.fits j starts busy) = some c → ∃ u k, exec (.reservationGrant id starts busy t) s = .next u
            ∧ u.findJob id = some k ∧ k.st = .held ∧ k.slot = some c ∧ k.checked = false ∧ k.sealed = false
            ∧ k.pred = a.tsAt j.ts (ofSigned 64 ((c : Int) + s.txLag j.port))
            ∧ (u.lget .depart j.port).issued = ((s.lget .depart j.port).issued + 1) % 2 ^ 48)
        ∧ (starts.find? (a.fits j starts busy) = none → ∃ u, exec (.reservationGrant id starts busy t) s = .next u
            ∧ s.dropped u id (if j.rebuilt then 0x0F else 0x14)))
      ∧ (j.st = .held → j.sealed = false → ∃ u k, exec (.sealDone id t) s = .next u ∧ u.findJob id = some k ∧ k.sealed = true
          ∧ k.slot = j.slot ∧ k.pred = j.pred ∧ (j.nts = none → (∀ f x, j.what ≠ some (.program f x)) → k.out = j.out))
      ∧ (∀ c, j.st = .held → j.checked = false → j.slot = some c →
        (j.sealed = true →
            ((a.tsAt j.ts (ofSigned 64 ((c : Int) + s.txLag j.port)) : Int) - j.pred).natAbs ≤ s.rd RSP.CTRL_TOL_Q →
            exec (.launchCheck id t) s = .next (a.putJob { j with checked := true }))
        ∧ (j.sealed = false → ∃ u, exec (.launchCheck id t) s = .next u ∧ u.on RSP.STICKY_LATE = true ∧ u.on RSP.STICKY_CANCEL = true
            ∧ (j.rebuilt = false → ∃ k, u.findJob id = some k ∧ k.st = .again)
            ∧ (j.rebuilt = true → ∀ y ∈ u.rsp.jobs, y.id ≠ id))
        ∧ (j.sealed = true →
            s.rd RSP.CTRL_TOL_Q < ((a.tsAt j.ts (ofSigned 64 ((c : Int) + s.txLag j.port)) : Int) - j.pred).natAbs →
            ∃ u, exec (.launchCheck id t) s = .next u ∧ u.on RSP.STICKY_MISMATCH = true ∧ u.on RSP.STICKY_CANCEL = true
            ∧ (j.rebuilt = false → ∃ k, u.findJob id = some k ∧ k.st = .again)))
      ∧ (j.st = .again → ∃ u k, exec (.rebuild id t) s = .next u ∧ u.findJob id = some k ∧ k.st = .wantSlot ∧ k.rebuilt = true
          ∧ k.tl = j.tl ∧ k.te = (if j.isReq then a.raw + j.lead * qNs else max (a.raw + j.lead * qNs) j.te)
          ∧ u.reg48 (RSP.Q_REBUILT_LO j.quad) = (s.reg48 (RSP.Q_REBUILT_LO j.quad) + 1) % 2 ^ 48)
      ∧ (j.st = .held → j.checked = true → s.findJob s.rsp.nextId = none → ∃ u, exec (.frameCommit id rawS t) s = .next u
          ∧ (∀ y ∈ u.rsp.jobs, y.id ≠ id)
          ∧ (j.isReq = true → u.reg48 (RSP.Q_ANSWERED_LO j.quad) = (s.reg48 (RSP.Q_ANSWERED_LO j.quad) + 1) % 2 ^ 48))
      ∧ (j.st ≠ .held → exec (.sealDone id t) s = .next a ∧ exec (.launchCheck id t) s = .next a
          ∧ exec (.frameCommit id rawS t) s = .next a)
      ∧ (j.st ≠ .again → exec (.rebuild id t) s = .next a)
      ∧ (j.st ≠ .wantSlot → exec (.reservationGrant id starts busy t) s = .next a))
    ∧ (∀ f : TxFrame, s.findJob id = none → s.findTx id = some f → s.linkUp f.port = true → s.txFirst f = true → f.stamp = false →
        ∃ u, exec (.frameCommit id rawS t) s = .next u ∧ u.findTx id = none)
    ∧ (s.quadPresent q = true → i < 2 ^ s.variant.bucketsLog2 → Store.wf dBucket s.rsp.buckets = true →
        ∃ u, exec (.limitScrubVisit q i t) s = .next u
        ∧ u.bucket q i = (if (s.bucket q i).clsValid then
            refill (s.bucket q i) a.unitsNow (s.cls (s.rd RSP.STAT_BANK) (s.bucket q i).cls 0 0 20)
              (s.cls (s.rd RSP.STAT_BANK) (s.bucket q i).cls 1 0 16)
          else { s.bucket q i with stamp := a.unitsNow })
        ∧ (∀ k, k ≠ bucketKey q i → Store.get dBucket u.rsp.buckets k = Store.get dBucket s.rsp.buckets k)
        ∧ (∀ k, k ≠ RSP.LIMIT_STAT → u.reg k = s.reg k) ∧ u = { a with regs := u.regs, rsp := { s.rsp with buckets := u.rsp.buckets } })
    ∧ (s.quadPresent q = true → s.mode = 6 → s.maint 13 = true → bitAt (s.rd RSP.MAINT_QUADS_QUADS) q = true →
        s.on (RSP.Q_STAT_FENCED q) = false → (∀ j ∈ s.rsp.jobs, ¬(j.quad = q ∧ j.st = .held)) →
        ∃ u, exec (.quadFence q t) s = .next u ∧ u.on (RSP.Q_STAT_FENCED q) = true ∧ u.on (fencedFld q) = true
        ∧ u.on RSP.STICKY_FENCED = true ∧ Signals [RSP.STAT, RSP.Q_STAT q, RSP.STICKY] a u)
    ∧ (s.mode ≠ 6 → exec (.quadFence q t) s = .next a)
    ∧ (a.access m RSP.MAINT_QUADS .write = .granted →
      (s.mode = 6 → s.maint 13 = true → ∃ u, exec (.maintQuadsWrite m val t) s = .next u
        ∧ u.rd RSP.MAINT_QUADS_QUADS = val % 2 ^ RSP.MAINT_QUADS_QUADS.w
        ∧ (∀ p, p < 4 → bitAt val p = false → u.on (RSP.Q_STAT_FENCED p) = false) ∧ u = { a with regs := u.regs })
      ∧ (¬(s.mode = 6 ∧ s.maint 13 = true) → ∃ u, exec (.maintQuadsWrite m val t) s = .next u
        ∧ u.on RSP.STICKY_CFG_REFUSED = true ∧ Signals [RSP.STICKY] a u))
    ∧ (q < 4 → a.access m (RSP.Q_LAT q) .write = .granted → ∃ u, exec (.qLatReset m q t) s = .next u
        ∧ u.rd (RSP.Q_LAT_MAX_BUILD q) = 0 ∧ u.rd (RSP.Q_LAT_MAX_WAIT q) = 0 ∧ (∀ k, k ≠ RSP.Q_LAT q → u.reg k = s.reg k)
        ∧ u = { a with regs := u.regs })
    ∧ (s.rsp.draining = true → (∀ j ∈ s.rsp.jobs, j.isReq = true → j.st ≠ .rx → j.bank = s.rd RSP.STAT_BANK) →
        ∃ u, exec (.rspBankRelease t) s = .next u ∧ u.on (cmPENDING .rsp) = false
        ∧ (∀ k, k ≠ Blk.rsp.commit → u.reg k = s.reg k) ∧ u = { a with regs := u.regs, rsp := { s.rsp with old := [], draining := false } })
    ∧ (s.rsp.draining = false → exec (.rspBankRelease t) s = .next a)

/-- From a canonical state whose grants are in canonical form: a due time of a running source is handed to stage 4 as a
message that asks for a departure no later than LATE_US after it; a live grant that ran out ends, the scrubber frees an entry
with no live grant, OP 1 frees a valid entry, OP 2 frees it after a CANCEL for each live grant, OP 3 does so for every entry
of a domain, and OP 0 is refused; an upstream that negotiates asks again when half a duration has passed or a retry is due,
and a grant run out sets UP_LOST; an Announce timeout clears ANN_OK. MINT completes with its code or writes COUNT cookies
into their 92 bytes each and nowhere else; ROTATE retires the previous generation and, done, makes the next one current, or
on failure keeps the current one and completes ABORTED; a failed known answer makes a pipe unusable. Where a row's condition
does not hold nothing changes. -/
def Obligations.CalendarGrantsUpstreamsAndKeys : Prop :=
  ∀ (src : CalSrc) (idx typ m dom u0 p t : Nat) (c : HostCmd) (s a : State), s.Canon → a = s.advance t →
    Store.wf dGrant s.ptp.grants = true → s.findJob s.rsp.nextId = none →
    (∀ ci due, s.calInfo src = some ci → ci.dueBy (a.horizon ci) = some due →
      (a.handedTo src (a.tsNow ci.ts) < due → s.modeServes (ci.port / 8) false = true → a.dueExpired src ci due = false →
        ∃ v k, exec (.calendarHandoff src t) s = .next v ∧ v.findJob s.rsp.nextId = some k ∧ k.st = .wantSlot ∧ k.isReq = false
          ∧ k.port = ci.port ∧ k.due = some (ci.ts, due, some (s.rd PTP.CTRL_LATE_US)) ∧ k.lead = s.domLead ci.dom)
      ∧ (due ≤ a.handedTo src (a.tsNow ci.ts) → exec (.calendarHandoff src t) s = .next a))
    ∧ (s.calInfo src = none → exec (.calendarHandoff src t) s = .next a)
    ∧ ((s.grantAt idx).valid = true → typ < 3 → bitAt (s.grantAt idx).live typ = true → (s.grantAt idx).exps.getD typ 0 ≤ a.sec0 →
        ∃ v, exec (.grantExpiry idx typ t) s = .next v
        ∧ v.grantAt idx = { s.grantAt idx with live := withBits (s.grantAt idx).live typ 1 0 }
        ∧ (∀ i, i ≠ idx → v.grantAt i = s.grantAt i)
        ∧ (∀ j, j ≠ (PTP.Q_GRANTS_USED (idx / s.variant.grants)).addr → j ≠ PTP.Q_RATE (idx / s.variant.grants) → v.reg j = s.reg j)
        ∧ v = { a with regs := v.regs, ptp := { s.ptp with grants := v.ptp.grants } })
    ∧ (bitAt (s.grantAt idx).live typ = false ∨ a.sec0 < (s.grantAt idx).exps.getD typ 0 → exec (.grantExpiry idx typ t) s = .next a)
    ∧ ((s.grantAt idx).valid = true → (s.grantAt idx).inUse a.sec0 = false → ∃ v, exec (.grantScrubVisit idx t) s = .next v
        ∧ v.grantAt idx = dGrant idx ∧ (∀ i, i ≠ idx → v.grantAt i = s.grantAt i))
    ∧ ((s.grantAt idx).inUse a.sec0 = true → idx ≠ 262143 → exec (.grantScrubVisit idx t) s = .next a)
    ∧ (a.access m PTP.GRANT_CMD .write = .granted →
      (idx < 2 ^ 18 → s.quadPresent (idx / s.variant.grants) = true → (s.grantAt idx).valid = true →
        (∃ v, exec (.grantFree m idx t) s = .next v ∧ v.rd PTP.GRANT_CMD_STATUS = stOK ∧ v.grantAt idx = dGrant idx
          ∧ (∀ i, i ≠ idx → v.grantAt i = s.grantAt i) ∧ v = { a with regs := v.regs, ptp := { s.ptp with grants := v.ptp.grants } })
        ∧ (∃ v, exec (.grantCancel m idx t) s = .next v ∧ v.rd PTP.GRANT_CMD_STATUS = stOK ∧ v.grantAt idx = dGrant idx
          ∧ (∀ i, i ≠ idx → v.grantAt i = s.grantAt i)
          ∧ v.rsp.jobs.length = s.rsp.jobs.length + ((List.range 3).filter (fun k => (s.grantAt idx).isLive a.sec0 k)).length))
      ∧ (idx < 2 ^ 18 → s.quadPresent (idx / s.variant.grants) = true → (s.grantAt idx).valid = false →
        (∃ v, exec (.grantFree m idx t) s = .next v ∧ v.rd PTP.GRANT_CMD_STATUS = stZERO_LEN ∧ v = { a with regs := v.regs })
        ∧ (∃ v, exec (.grantCancel m idx t) s = .next v ∧ v.rd PTP.GRANT_CMD_STATUS = stZERO_LEN ∧ v = { a with regs := v.regs }))
      ∧ ((∃ e ∈ s.ptp.grants, e.2.valid = true ∧ e.2.dom = dom % 64) → ∃ v, exec (.grantCancelDomain m dom t) s = .next v
          ∧ v.rd PTP.GRANT_CMD_STATUS = stOK ∧ (∀ e ∈ v.ptp.grants, e.2.valid = true → e.2.dom ≠ dom % 64))
      ∧ ((∀ e ∈ s.ptp.grants, e.2.valid = true → e.2.dom ≠ dom % 64) → ∃ v, exec (.grantCancelDomain m dom t) s = .next v
          ∧ v.rd PTP.GRANT_CMD_STATUS = stZERO_LEN ∧ v = { a with regs := v.regs })
      ∧ (∃ v, exec (.grantCmdNone m idx t) s = .next v ∧ v.rd PTP.GRANT_CMD_STATUS = stREFUSED
          ∧ v.on PTP.STICKY_CFG_REFUSED = true ∧ Signals [PTP.GRANT_CMD, PTP.STICKY] a v))
    ∧ (a.upAsks u0 typ = true → s.modeServes (s.rd (PTP.UP_CFG_PORT u0) / 8) false = true →
      (s.upHolds u0 typ = true → (s.negoOf u0 typ).due ≤ a.raw → a.raw < (s.negoOf u0 typ).exp →
        ∃ v k, exec (.upstreamRenew u0 typ t) s = .next v ∧ v.findJob s.rsp.nextId = some k ∧ k.what = some (.upRequest u0 typ)
          ∧ k.port = s.rd (PTP.UP_CFG_PORT u0) ∧ (v.upS u0).sigSeq = ((s.upS u0).sigSeq + 1) % 2 ^ 16)
      ∧ (s.upHolds u0 typ = false → (s.negoOf u0 typ).due ≤ a.raw →
        ∃ v k, exec (.upstreamRetry u0 typ t) s = .next v ∧ v.findJob s.rsp.nextId = some k ∧ k.what = some (.upRequest u0 typ)
          ∧ k.port = s.rd (PTP.UP_CFG_PORT u0) ∧ (v.upS u0).sigSeq = ((s.upS u0).sigSeq + 1) % 2 ^ 16)
      ∧ (s.upHolds u0 typ = true → (s.negoOf u0 typ).exp ≤ a.raw → ∃ v, exec (.upstreamRetry u0 typ t) s = .next v
          ∧ v.upHolds u0 typ = false ∧ v.on PTP.STICKY_UP_LOST = true))
    ∧ (s.upAsks u0 typ = false → exec (.upstreamRenew u0 typ t) s = .next a ∧ exec (.upstreamRetry u0 typ t) s = .next a)
    ∧ (u0 < 4 → s.on (PTP.UP_STAT_ANN_OK u0) = true → (s.upq u0).annUntil ≤ a.raw → ∃ v, exec (.announceTimeout u0 t) s = .next v
        ∧ v.on (PTP.UP_STAT_ANN_OK u0) = false ∧ v.on PTP.STICKY_ANN_TIMEOUT = true ∧ Signals [PTP.UP_STAT u0, PTP.STICKY] a v)
    ∧ (s.on (PTP.UP_STAT_ANN_OK u0) = false → exec (.announceTimeout u0 t) s = .next a)
    ∧ (s.accepts c →
      (∀ e code, code = c.code [codeIf (c.u 16 1 == 0) stZERO_LEN,
          codeIf (decide (8 < c.u 16 1) || c.u 17 1 != 15 || !c.zero 18 32) stREFUSED,
          match e with | some 3 => stPOISONED | some _ => stABORTED | none => 0,
          codeIf (!s.on NTS.MK_STAT_CUR_VALID || !s.genUsable s.curSlot) stNO_KEY, codeIf s.ntsForbids stMODE_FORBIDS] →
        (code ≠ 0 → ∃ v, exec (.mint c e none t) s = .next v ∧ v.failed c code ∧ v.mem = s.mem)
        ∧ (code = 0 → (s.pickPipe 0).isSome = true → ∃ v, exec (.mint c e none t) s = .next v ∧ v.completed c stOK (c.u 16 1)
            ∧ v.nreg NTS.MINT_COUNT = (s.nreg NTS.MINT_COUNT + c.u 16 1) % 2 ^ 32
            ∧ (∀ x, (∀ i, i < 92 * c.u 16 1 → (c.u 8 8 + i) % 2 ^ 64 ≠ x) → Store.get dByte v.mem x = Store.get dByte s.mem x)))
      ∧ (∀ code, code = c.code [codeIf (!c.zero 0 32) stREFUSED, codeIf s.nts.rot.isSome stBUSY, codeIf (c.fn != 0) stDENIED,
          codeIf s.ntsForbids stMODE_FORBIDS] →
        (code ≠ 0 → ∃ v, exec (.rotate c t) s = .next v ∧ v.failed c code ∧ v.nts = s.nts)
        ∧ (code = 0 → ∃ v, exec (.rotate c t) s = .next v ∧ v.nts.rot = some c ∧ v.on NTS.MK_STAT_PREV_VALID = false
            ∧ v.on NTS.MK_STAT_ROTATING = true ∧ (∀ j, j ≠ NTS.MK_STAT → v.reg j = s.reg j)
            ∧ v = { a with regs := v.regs, nts := { s.nts with rot := some c } }))
      ∧ (∀ w, s.nts.rot = some c → w = s.nextSlot → (∀ h, s.headOf (s.mkSlot w) = some h → (s.keyAt h).typ = 7) →
        (∃ v, exec (.rotateComplete true t) s = .next v ∧ v.completed c stOK 0 ∧ v.nts.rot = none ∧ v.on NTS.STICKY_ROTATED = true
            ∧ v.on NTS.MK_STAT_CUR_VALID = true ∧ v.on NTS.MK_STAT_PREV_VALID = s.on NTS.MK_STAT_CUR_VALID
            ∧ v.rd NTS.MK_STAT_CUR_GEN = (s.rd NTS.MK_STAT_CUR_GEN + 1) % 256 ∧ v.rd NTS.MK_STAT_CUR_SLOT = w
            ∧ v.genUsable (s.mkSlot w) = true)
        ∧ (∃ v, exec (.rotateComplete false t) s = .next v ∧ v.completed c stABORTED 0 ∧ v.nts.rot = none
            ∧ v.on NTS.STICKY_ROTATE_FAIL = true ∧ v.rd NTS.MK_STAT_CUR_GEN = s.rd NTS.MK_STAT_CUR_GEN
            ∧ v.on NTS.MK_STAT_CUR_VALID = s.on NTS.MK_STAT_CUR_VALID)))
    ∧ (s.nts.rot = none → ∀ ok, exec (.rotateComplete ok t) s = .next a)
    ∧ (unitPresent s.variant 1 p = true → (s.unit 1 p).unusable = false →
        (∃ v, exec (.pipeKat p true t) s = .next v ∧ v.reg48 NTS.OPS_LO = (s.reg48 NTS.OPS_LO + 1) % 2 ^ 48 ∧ v.bst = s.bst)
        ∧ (∃ v, exec (.pipeKat p false t) s = .next v ∧ (v.unit 1 p).unusable = true ∧ v.on NTS.STICKY_PIPE_FAIL = true
            ∧ v.on BST.STICKY_UNUSABLE = true))
    ∧ ((s.unit 1 p).unusable = true → ∀ ok, exec (.pipeKat p ok t) s = .next a)

/-- From a canonical state: the trailing edge of a pulse that is due ends the pulse and changes nothing but it and
PULSE_STAT; an edge of an enabled capture input in its sense is stamped, unless it comes within 20 ns of the last, which
counts DEAD; SCHEDULE completes with its code or takes the lowest free slot and arms its compare unit at the target, and
CANCEL ends the named slots of its function and counts them; a waiting video output starts at its first boundary unless
outputs are muted, and a walk that has arrived ends; a new LTC frame shows its time address; user bits are written; a genlock
frame that matches raises GOOD, the eighth locks, one of other lines sets GL_FORMAT, and the second bad or missing one
unlocks; a GO of POS_CTRL shows the position of timescale 0. Where a row's condition does not hold nothing changes. -/
def Obligations.PulsesCapturesSchedulesAndVideo : Prop :=
  ∀ (n i o k m val lines period sync burst edge t : Nat) (rising po : Bool) (c : HostCmd) (s a : State), s.Canon → a = s.advance t →
    Store.wf dPulse s.evt.pulses = true → Store.wf (fun _ => none) s.evt.slots = true → Store.wf dVOut s.vid.outs = true →
    (∀ x : Active, n < 16 → (s.pulse n).act = some x → (s.pulse n).waits = false →
      (cmpDiff (ofSigned 64 ((x.trail : Int) - x.delay)) (a.tsAt x.ts (a.raw + 65536)) < 0 →
        ∃ u, exec (.pulseTrailingEdge n t) s = .next u ∧ u.pulse n = { s.pulse n with act := none, waits := false, restart := false }
          ∧ u.on ⟨EVT.PULSE_STAT, n, 1⟩ = false ∧ (∀ j, j ≠ n → u.pulse j = s.pulse j) ∧ (∀ j, j ≠ EVT.PULSE_STAT → u.reg j = s.reg j)
          ∧ u = { a with regs := u.regs, evt := { s.evt with pulses := u.evt.pulses } })
      ∧ (0 ≤ cmpDiff (ofSigned 64 ((x.trail : Int) - x.delay)) (a.tsAt x.ts (a.raw + 65536)) →
        exec (.pulseTrailingEdge n t) s = .next a))
    ∧ ((s.pulse n).act = none → exec (.pulseTrailingEdge n t) s = .next a)
    ∧ (i < 16 → s.on (EVT.CAP_CFG_EN i) = true → edgeSense (s.rd (EVT.CAP_CFG_EDGE i)) rising = true →
      (Store.get zNat s.evt.capRaw i = 0 ∨ Store.get zNat s.evt.capRaw i + 20 * qNs ≤ edge + 1 →
        ∃ u, exec (.captureEdge i rising po edge t) s = .next u ∧ Store.get (fun _ => []) u.evt.capLast i = a.capStamp i rising po edge
          ∧ Store.get zNat u.evt.capRaw i = edge + 1
          ∧ (s.qRoom 142 1 = true → po = false → u.hif.evQ = s.hif.evQ ++ [⟨s.rd (EVT.CAP_CFG_RING i), 7, a.capStamp i rising po edge⟩]))
      ∧ (0 < Store.get zNat s.evt.capRaw i → edge + 1 < Store.get zNat s.evt.capRaw i + 20 * qNs →
        ∃ u, exec (.captureEdge i rising po edge t) s = .next u ∧ u.evt = s.evt ∧ u.on EVT.STICKY_CAP_DEAD = true
          ∧ Signals [EVT.CAP_STAT i, EVT.STICKY] a u))
    ∧ (s.on (EVT.CAP_CFG_EN i) = false ∨ edgeSense (s.rd (EVT.CAP_CFG_EDGE i)) rising = false →
        exec (.captureEdge i rising po edge t) s = .next a)
    ∧ (s.accepts c →
      (∀ code, code = c.code [
          codeIf (bitAt (c.u 12 1) 7 || !c.zero 13 16 || !c.zero 24 32 || c.u 16 4 % 4 != 0 || (rowAt (c.u 16 4)).isNone
            || s.absentReg (c.u 16 4) || schedBarred (c.u 16 4) || decide (a.tsNow (bitsOf (c.u 12 1) 0 6) + 2 ^ 63 ≤ c.u 0 12)) stREFUSED,
          codeIf (firstIdx 8 (fun j => (s.schedOf j).isNone)).isNone stBUSY,
          codeIf (c.fn != 0 && !s.on EVT.CTRL_SCHED_VF) stDENIED,
          codeIf (decide (c.u 0 12 < a.tsNow (bitsOf (c.u 12 1) 0 6)) && !bitAt (c.u 12 1) 6) stSTALE,
          codeIf s.modeNoCmd stMODE_FORBIDS] →
        (code ≠ 0 → ∃ u, exec (.schedule c t) s = .next u ∧ u.failed c code ∧ u.evt = s.evt ∧ u.on EVT.STICKY_SCHED_FAIL = true)
        ∧ (code = 0 → ∃ u j, firstIdx 8 (fun j => (s.schedOf j).isNone) = some j ∧ exec (.schedule c t) s = .next u
          ∧ u.schedOf j = some ⟨c, bitsOf (c.u 12 1) 0 6, c.u 0 12, bitAt (c.u 12 1) 6, c.u 16 4, c.u 20 4⟩
          ∧ (u.cmpOf (23 + j)).armed = true ∧ (u.cmpOf (23 + j)).ts = bitsOf (c.u 12 1) 0 6
          ∧ (a.tsNow (bitsOf (c.u 12 1) 0 6) ≤ c.u 0 12 → u.cmpOf (23 + j) = ⟨bitsOf (c.u 12 1) 0 6, c.u 0 12 % 2 ^ 64, true⟩)
          ∧ (∀ x, x ≠ EVT.SCHED_STAT → u.reg x = s.reg x) ∧ u.hif = s.hif))
      ∧ (∀ l code, l = (List.range 8).filter (fun j => (c.u 0 1 == 0xFF || c.u 0 1 == j) &&
            (match s.schedOf j with | some x => x.cmd.fn == c.fn | none => false)) →
          code = c.code [codeIf ((decide (8 ≤ c.u 0 1) && c.u 0 1 != 0xFF) || !c.zero 1 32) stREFUSED, codeIf l.isEmpty stZERO_LEN] →
        (code ≠ 0 → ∃ u, exec (.scheduleCancel c t) s = .next u ∧ u.failed c code ∧ u.evt = s.evt)
        ∧ (code = 0 → ∃ u, exec (.scheduleCancel c t) s = .next u ∧ u.completed c stOK l.length ∧ ∀ j ∈ l, u.schedOf j = none)))
    ∧ (∀ w, (s.vout o).waiting = some w → o < 8 → s.vidOn = true → s.on VID.STAT_MUTED = false →
      ((s.voGrid o).idx ((w : Int) - a.voDelayNow o * 256) < a.voIdx o → ∃ u, exec (.videoOutputStart o t) s = .next u
          ∧ u.vout o = { s.vout o with running := true, waiting := none, startIdx := a.voIdx o } ∧ u.on ⟨VID.STAT, o, 1⟩ = true
          ∧ (∀ j, j ≠ o → u.vout j = s.vout j) ∧ u = { a with regs := u.regs, vid := { s.vid with outs := u.vid.outs } })
      ∧ (a.voIdx o ≤ (s.voGrid o).idx ((w : Int) - a.voDelayNow o * 256) → exec (.videoOutputStart o t) s = .next a))
    ∧ ((s.vout o).waiting = none ∨ s.on VID.STAT_MUTED = true → exec (.videoOutputStart o t) s = .next a)
    ∧ (∀ w, (s.vout o).walk = some w → o < 8 → walkAt w (s.rd DSC.PULL_CFG_SLOPE) (a.tsNow 0) = w.goal →
        ∃ u, exec (.videoWalkDone o t) s = .next u ∧ u.vout o = { s.vout o with walk := none }
          ∧ u = { a with regs := u.regs, vid := { s.vid with outs := u.vid.outs } })
    ∧ ((s.vout o).walk = none → exec (.videoWalkDone o t) s = .next a)
    ∧ (k < 2 → (s.vout (4 + k)).running = true → s.vidOn = true → (s.vout (4 + k)).startIdx ≤ a.voIdx (4 + k) →
        (∀ e ∈ s.vid.lastFrame, ¬(e.1 = k ∧ e.2 = a.voIdx (4 + k))) → ∃ u, exec (.ltcFrame k t) s = .next u
          ∧ u.nreg (VID.LTC_STAT k) = a.ltcAddress k (ofSigned 96 ((a.tsNow (s.rd (VID.LTC_CFG_TS k)) : Int)
              - (a.voNow (4 + k) - (s.voGrid (4 + k)).at' (a.voIdx (4 + k))))) % 2 ^ 32
          ∧ Signals [VID.LTC_STAT k, VID.STICKY] { a with vid := u.vid } u)
    ∧ ((s.vout (4 + k)).running = false → exec (.ltcFrame k t) s = .next a)
    ∧ (k < 2 → ∃ u, exec (.ltcUbitsPortWrite k val t) s = .next u ∧ u.nreg (VID.LTC_UBITS k) = val % 2 ^ 32
        ∧ (∀ j, j ≠ VID.LTC_UBITS k → u.reg j = s.reg j) ∧ u = { a with regs := u.regs, vid := { s.vid with ubits := u.vid.ubits } })
    ∧ (∀ v : VidFormat, s.on VID.GL_CFG_EN = true → s.vidOn = true → s.on VID.SEQ_STAT_FAULT1 = false →
        vidFormat (s.rd VID.GL_CFG_FORMAT) = some v →
      (lines = v.lines → (((period * v.den : Nat) : Int) - ((v.num * qSec : Nat) : Int)).natAbs * 10000 ≤ v.num * qSec →
        ∃ u, exec (.genlockFrame lines period sync burst edge t) s = .next u
          ∧ u.rd VID.GL_STAT_GOOD = min 255 (s.rd VID.GL_STAT_GOOD + 1) ∧ u.rd VID.GL_STAT_LINES = lines ∧ u.vid.glBad = 0
          ∧ u.on VID.GL_STAT_LOCKED = (s.on VID.GL_STAT_LOCKED || decide (7 ≤ s.rd VID.GL_STAT_GOOD)))
      ∧ (lines ≠ v.lines → ∃ u, exec (.genlockFrame lines period sync burst edge t) s = .next u
          ∧ u.rd VID.GL_STAT_GOOD = 0 ∧ u.vid.glBad = s.vid.glBad + 1 ∧ u.on VID.STICKY_GL_FORMAT = true
          ∧ u.on VID.GL_STAT_LOCKED = (s.on VID.GL_STAT_LOCKED && decide (s.vid.glBad = 0))))
    ∧ (s.on VID.GL_CFG_EN = false → exec (.genlockFrame lines period sync burst edge t) s = .next (a.seqEvent 49 1)
        ∧ exec (.genlockFrameMissing t) s = .next a)
    ∧ (s.on VID.GL_CFG_EN = true → s.vidOn = true → ∃ u, exec (.genlockFrameMissing t) s = .next u
        ∧ u.rd VID.GL_STAT_GOOD = 0 ∧ u.vid.glBad = s.vid.glBad + 1
        ∧ u.on VID.GL_STAT_LOCKED = (s.on VID.GL_STAT_LOCKED && decide (s.vid.glBad = 0)))
    ∧ (a.access m VID.POS_CTRL .write = .granted → ∃ u, exec (.posGo m val t) s = .next u
        ∧ u.rd VID.POS_CTRL_FORMAT = val % 16 ∧ u.rd VID.POS_CTRL_COUNT = (s.rd VID.POS_CTRL_COUNT + 1) % 2 ^ 16
        ∧ u.reg96 VID.POS_TIME_LO = a.tsNow 0 ∧ u = { a with regs := u.regs }
        ∧ (∀ v, vidFormat (val % 16) = some v → u.rd VID.POS_LINE_LINE = a.tsNow 0 * v.den % (v.num * qSec) * v.lines / (v.num * qSec)
            ∧ u.nreg VID.POS_FRAME_LO = a.tsNow 0 * v.den / (v.num * qSec) % 2 ^ 32))

/-- From a canonical state with the channels and bases in canonical form: TB_IN present within its window locks and anchors
base TB at the edge, its loss clears PRESENT, LOCKED and SETTLED and sets TB_OOR where it was out of range, and SETTLED sets
after SETTLE_S; a granted GO anchors a base that has edges, on its timescale; an edge of an enabled channel is counted,
divided, kept from the dead time of 25 ns, or stamped; base time past a gate's end opens the next gate, and a gate of fewer
than two stamps is invalid; a calibration starts on the idle interpolator, an accepted histogram becomes its table and puts a
channel that did not measure to work, a rejected one counts, and after 4 096 shared edges or 100 ms the interpolators swap.
Where a row's condition does not hold nothing changes. -/
def Obligations.TimeBasesStampsGatesAndCalibration : Prop :=
  ∀ (c coarse code m edge t : Nat) (freq : Int) (lost : Option Int) (hist : List Nat) (other : Option Nat) (rising po : Bool) (s a : State),
    s.Canon → a = s.advance t → Store.wf dTBase s.tdc.bases = true → Store.wf dTCh s.tdc.chs = true →
    (s.on TDC.TB_STAT_PRESENT = false → s.tdcOn = true → freq.natAbs ≤ s.rd TDC.TB_CFG_WIN_PPM * 100 →
        ∃ u, exec (.tbPresent freq edge t) s = .next u ∧ u.on TDC.TB_STAT_PRESENT = true ∧ u.on TDC.TB_STAT_LOCKED = true
        ∧ u.on TDC.TB_STAT_SETTLED = (s.rd TDC.TB_CFG_SETTLE_S == 0) ∧ u.on TDC.STICKY_TB_BACK = true
        ∧ u.tbase 0 = ⟨a.tsAt (s.baseTs 0) edge, true⟩ ∧ u.tbase 1 = s.tbase 1)
    ∧ (s.on TDC.TB_STAT_PRESENT = true ∨ s.rd TDC.TB_CFG_WIN_PPM * 100 < freq.natAbs → exec (.tbPresent freq edge t) s = .next a)
    ∧ (s.on TDC.TB_STAT_PRESENT = true → (∀ f, lost = some f → s.rd TDC.TB_CFG_WIN_PPM * 100 < f.natAbs) →
        ∃ u, exec (.tbLost lost t) s = .next u ∧ u.on TDC.TB_STAT_PRESENT = false ∧ u.on TDC.TB_STAT_LOCKED = false
        ∧ u.on TDC.TB_STAT_SETTLED = false ∧ u.on TDC.STICKY_TB_LOST = true ∧ (lost.isSome = true → u.on TDC.STICKY_TB_OOR = true)
        ∧ Signals [TDC.TB_STAT, TDC.STICKY] a u)
    ∧ (s.on TDC.TB_STAT_PRESENT = false → exec (.tbLost lost t) s = .next a ∧ exec (.tbSettled t) s = .next a)
    ∧ (s.on TDC.TB_STAT_PRESENT = true → s.on TDC.TB_STAT_LOCKED = true →
      (s.tdc.tbRaw + s.rd TDC.TB_CFG_SETTLE_S * qSec ≤ a.raw → ∃ u, exec (.tbSettled t) s = .next u ∧ u.on TDC.TB_STAT_SETTLED = true
        ∧ (∀ j, j ≠ TDC.TB_STAT → u.reg j = s.reg j) ∧ u = { a with regs := u.regs })
      ∧ (a.raw < s.tdc.tbRaw + s.rd TDC.TB_CFG_SETTLE_S * qSec → exec (.tbSettled t) s = .next a))
    ∧ (a.access m TDC.ANCHOR_CTRL .write = .granted →
      (s.baseEdges 0 = true → ∃ u, exec (.anchorGoTb m edge t) s = .next u ∧ u.tbase 0 = ⟨a.tsAt (s.baseTs 0) edge, true⟩
        ∧ u.tbase 1 = s.tbase 1 ∧ u.on TDC.STICKY_ANCHORED = true ∧ (∀ k, k < 12 → (u.tch k).fresh = true ∧ (u.tch k).lastT = none))
      ∧ (s.baseEdges 0 = false → exec (.anchorGoTb m edge t) s = .next a)
      ∧ (s.baseEdges 1 = true → ∃ u, exec (.anchorGoGr m edge t) s = .next u ∧ u.tbase 1 = ⟨a.tsAt (s.baseTs 1) edge, true⟩
        ∧ u.tbase 0 = s.tbase 0 ∧ u.on TDC.STICKY_ANCHORED = true ∧ (∀ k, 12 ≤ k → k < 16 → (u.tch k).fresh = true))
      ∧ (s.baseEdges 1 = false → exec (.anchorGoGr m edge t) s = .next a))
    ∧ (∀ x : TCh, ∀ v : Nat, x = s.tch c → v = ofSigned 96 (tdcTime (s.tbase (baseOf c)).anchor coarse (binMid (x.tbl x.measB) code)
          ((x.off x.measB).getD 0) (s.sreg (TDC.CH_DELAY c))) → c < 16 → s.tdcOn = true → s.on (TDC.CH_CFG_EN c) = true →
        edgeSense (s.rd (TDC.CH_CFG_EDGE c)) rising = true → s.on (TDC.CH_STAT_UNUSABLE c) = false →
      (x.div + 1 < s.rd (TDC.CH_CFG_DIV c) → ∃ u, exec (.tdcEdge c rising coarse code other po t) s = .next u
        ∧ u.tch c = { x with edges := x.edges + 1, div := x.div + 1 } ∧ u = { a with regs := u.regs, tdc := { s.tdc with chs := u.tdc.chs } })
      ∧ (s.rd (TDC.CH_CFG_DIV c) ≤ x.div + 1 → x.on = true → (∃ l, x.lastT = some l ∧ v < l + 25 * qNs) →
        ∃ u, exec (.tdcEdge c rising coarse code other po t) s = .next u ∧ u.tch c = { x with edges := x.edges + 1, div := 0 }
        ∧ u.on TDC.STICKY_DEAD = true ∧ Signals [TDC.CH_STAT c, TDC.STICKY] { a with tdc := u.tdc } u)
      ∧ (s.rd (TDC.CH_CFG_DIV c) ≤ x.div + 1 → x.on = true → (∀ l, x.lastT = some l → l + 25 * qNs ≤ v) →
        ∃ u, exec (.tdcEdge c rising coarse code other po t) s = .next u ∧ (u.tch c).lastT = some v ∧ (u.tch c).edges = x.edges + 1
        ∧ (u.tch c).fresh = false ∧ (∀ k, k ≠ c → u.tch k = s.tch k) ∧ u.nreg (TDC.CH_COUNT c) = (s.nreg (TDC.CH_COUNT c) + 1) % 2 ^ 32))
    ∧ (s.on (TDC.CH_CFG_EN c) = false → exec (.tdcEdge c rising coarse code other po t) s = .next a
        ∧ exec (.tdcGateEnd c coarse t) s = .next a ∧ exec (.tdcCalStart c t) s = .next a)
    ∧ (∀ g, c < 16 → s.on (TDC.CH_CFG_EN c) = true → (s.tch c).on = true → s.on (TDC.CH_CFG_FREQ_EN c) = true → s.gateLen c ≠ 0 →
        (s.tch c).gate = some g →
      (g.idx ≠ baseTime (s.tbase (baseOf c)).anchor coarse / s.gateLen c → ∃ u h, exec (.tdcGateEnd c coarse t) s = .next u
        ∧ (u.tch c).gate = some h ∧ h.idx = baseTime (s.tbase (baseOf c)).anchor coarse / s.gateLen c ∧ h.n = 0
        ∧ (g.n < 2 → u.on TDC.STICKY_GATE_INVALID = true))
      ∧ (g.idx = baseTime (s.tbase (baseOf c)).anchor coarse / s.gateLen c → exec (.tdcGateEnd c coarse t) s = .next a))
    ∧ (c < 16 → s.tdcOn = true → s.on (TDC.CH_CFG_EN c) = true → s.on (TDC.CH_STAT_UNUSABLE c) = false → (s.tch c).cal = none →
        (s.tch c).rej (s.tch c).idle < 3 → ∃ u, exec (.tdcCalStart c t) s = .next u
        ∧ u.tch c = { s.tch c with cal := some ((s.tch c).idle, .hits) } ∧ u = { a with regs := u.regs, tdc := { s.tdc with chs := u.tdc.chs } })
    ∧ (∀ b, c < 16 → (s.tch c).cal = some (b, .hits) → hist.length = 256 → hist.sum = 2 ^ 20 →
      (calAccepts hist = true → ∃ u, exec (.tdcCalDone c hist t) s = .next u ∧ (u.tch c).tbl b = hist ∧ (u.tch c).rej b = 0
        ∧ u.rd TDC.CAL_COUNT_DONE = (s.rd TDC.CAL_COUNT_DONE + 1) % 2 ^ TDC.CAL_COUNT_DONE.w
        ∧ ((s.tch c).on = false → (u.tch c).on = true ∧ (u.tch c).measB = b ∧ (u.tch c).cal = none))
      ∧ (calAccepts hist = false → ∃ u, exec (.tdcCalDone c hist t) s = .next u ∧ (u.tch c).rej b = (s.tch c).rej b + 1
        ∧ (u.tch c).tbl b = (s.tch c).tbl b ∧ u.on TDC.STICKY_CAL_FAIL = true
        ∧ u.rd TDC.CAL_COUNT_FAILS = (s.rd TDC.CAL_COUNT_FAILS + 1) % 2 ^ TDC.CAL_COUNT_FAILS.w))
    ∧ ((s.tch c).cal = none → exec (.tdcCalDone c hist t) s = .next a ∧ exec (.interpSwap c t) s = .next a)
    ∧ (∀ b n sum since, c < 16 → (s.tch c).cal = some (b, .shared n sum since) →
      (4096 ≤ n ∨ since + 100000000 * qNs ≤ a.raw → ∃ u, exec (.interpSwap c t) s = .next u ∧ (u.tch c).measB = b ∧ (u.tch c).cal = none
        ∧ (u.tch c).tbl b = (s.tch c).tbl b ∧ (∀ j, j ≠ TDC.CH_STAT c → u.reg j = s.reg j)
        ∧ u = { a with regs := u.regs, tdc := { s.tdc with chs := u.tdc.chs } })
      ∧ (n < 4096 → a.raw < since + 100000000 * qNs → exec (.interpSwap c t) s = .next a))

/-- For every sequencer that fetches one of the words R374 and R375 lay out for NOP, ADD to CLZ, ADDI to SARI and LUI, with
every register and every immediate the format admits: the row answers a next state in which the destination holds the result
(shifts by the low five bits, MULH signed, CLZ 32 of zero, immediates sign-extended only for ADDI, LUI shifted left by 14), C
is the carry or borrow of ADD, SUB, ADDC and SUBC and else unchanged, the PC is one more, every other register, the local
data and every other sequencer are unchanged, and no other part of the state changes but what counting changes. -/
def Obligations.UmberArithmetic : Prop :=
  ∀ (n d a b i t : Nat) (x y : Word) (q : Bool) (s z : State), s.Canon → z = s.advance t → d < 16 → a < 16 → b < 16 → i < 2 ^ 18 →
    x = (s.sq n).reg a → y = (s.sq n).reg b → q = (s.sq n).c →
    (s.fetches n 0 → ∃ u, exec (.seqNop n false t) s = .next u ∧ s.wrote u n 0 ((s.sq n).reg 0) q ∧ Signals [] z u)
    ∧ (s.fetches n (1 * 2 ^ 26 + d * 2 ^ 22 + a * 2 ^ 18 + b * 2 ^ 14) → ∃ u, exec (.seqAdd n false t) s = .next u
        ∧ s.wrote u n d (x + y) (decide (2 ^ 32 ≤ x.toNat + y.toNat)) ∧ Signals [] z u)
    ∧ (s.fetches n (2 * 2 ^ 26 + d * 2 ^ 22 + a * 2 ^ 18 + b * 2 ^ 14) → ∃ u, exec (.seqSub n false t) s = .next u
        ∧ s.wrote u n d (x - y) (decide (x.toNat < y.toNat)) ∧ Signals [] z u)
    ∧ (s.fetches n (3 * 2 ^ 26 + d * 2 ^ 22 + a * 2 ^ 18 + b * 2 ^ 14) → ∃ u, exec (.seqAddc n false t) s = .next u
        ∧ s.wrote u n d (x + y + BitVec.ofNat 32 (b2n q)) (decide (2 ^ 32 ≤ x.toNat + y.toNat + b2n q)) ∧ Signals [] z u)
    ∧ (s.fetches n (4 * 2 ^ 26 + d * 2 ^ 22 + a * 2 ^ 18 + b * 2 ^ 14) → ∃ u, exec (.seqSubc n false t) s = .next u
        ∧ s.wrote u n d (x - y - BitVec.ofNat 32 (b2n q)) (decide (x.toNat < y.toNat + b2n q)) ∧ Signals [] z u)
    ∧ (s.fetches n (5 * 2 ^ 26 + d * 2 ^ 22 + a * 2 ^ 18 + b * 2 ^ 14) → ∃ u, exec (.seqAnd n false t) s = .next u
        ∧ s.wrote u n d (x &&& y) (q) ∧ Signals [] z u)
    ∧ (s.fetches n (6 * 2 ^ 26 + d * 2 ^ 22 + a * 2 ^ 18 + b * 2 ^ 14) → ∃ u, exec (.seqOr n false t) s = .next u
        ∧ s.wrote u n d (x ||| y) (q) ∧ Signals [] z u)
    ∧ (s.fetches n (7 * 2 ^ 26 + d * 2 ^ 22 + a * 2 ^ 18 + b * 2 ^ 14) → ∃ u, exec (.seqXor n false t) s = .next u
        ∧ s.wrote u n d (x ^^^ y) (q) ∧ Signals [] z u)
    ∧ (s.fetches n (8 * 2 ^ 26 + d * 2 ^ 22 + a * 2 ^ 18 + b * 2 ^ 14) → ∃ u, exec (.seqShl n false t) s = .next u
        ∧ s.wrote u n d (x <<< (y.toNat % 32)) (q) ∧ Signals [] z u)
    ∧ (s.fetches n (9 * 2 ^ 26 + d * 2 ^ 22 + a * 2 ^ 18 + b * 2 ^ 14) → ∃ u, exec (.seqShr n false t) s = .next u
        ∧ s.wrote u n d (x >>> (y.toNat % 32)) (q) ∧ Signals [] z u)
    ∧ (s.fetches n (10 * 2 ^ 26 + d * 2 ^ 22 + a * 2 ^ 18 + b * 2 ^ 14) → ∃ u, exec (.seqSar n false t) s = .next u
        ∧ s.wrote u n d (x.sshiftRight (y.toNat % 32)) (q) ∧ Signals [] z u)
    ∧ (s.fetches n (11 * 2 ^ 26 + d * 2 ^ 22 + a * 2 ^ 18 + b * 2 ^ 14) → ∃ u, exec (.seqMul n false t) s = .next u
        ∧ s.wrote u n d (BitVec.ofNat 32 (x.toNat * y.toNat)) (q) ∧ Signals [] z u)
    ∧ (s.fetches n (12 * 2 ^ 26 + d * 2 ^ 22 + a * 2 ^ 18 + b * 2 ^ 14) → ∃ u, exec (.seqMulh n false t) s = .next u
        ∧ s.wrote u n d (BitVec.ofInt 32 (x.toInt * y.toInt / 2 ^ 32)) (q) ∧ Signals [] z u)
    ∧ (s.fetches n (13 * 2 ^ 26 + d * 2 ^ 22 + a * 2 ^ 18 + b * 2 ^ 14) → ∃ u, exec (.seqMulhu n false t) s = .next u
        ∧ s.wrote u n d (BitVec.ofNat 32 (x.toNat * y.toNat / 2 ^ 32)) (q) ∧ Signals [] z u)
    ∧ (s.fetches n (14 * 2 ^ 26 + d * 2 ^ 22 + a * 2 ^ 18) → ∃ u v, exec (.seqClz n false t) s = .next u
        ∧ s.wrote u n d (BitVec.ofNat 32 v) q ∧ v ≤ 32 ∧ x.toNat < 2 ^ (32 - v) ∧ (v < 32 → 2 ^ (31 - v) ≤ x.toNat) ∧ Signals [] z u)
    ∧ (s.fetches n (16 * 2 ^ 26 + d * 2 ^ 22 + a * 2 ^ 18 + i) → ∃ u, exec (.seqAddi n false t) s = .next u
        ∧ s.wrote u n d (x + BitVec.ofInt 32 (toSigned 18 i)) q ∧ Signals [] z u)
    ∧ (s.fetches n (17 * 2 ^ 26 + d * 2 ^ 22 + a * 2 ^ 18 + i) → ∃ u, exec (.seqAndi n false t) s = .next u
        ∧ s.wrote u n d (x &&& BitVec.ofNat 32 i) q ∧ Signals [] z u)
    ∧ (s.fetches n (18 * 2 ^ 26 + d * 2 ^ 22 + a * 2 ^ 18 + i) → ∃ u, exec (.seqOri n false t) s = .next u
        ∧ s.wrote u n d (x ||| BitVec.ofNat 32 i) q ∧ Signals [] z u)
    ∧ (s.fetches n (19 * 2 ^ 26 + d * 2 ^ 22 + a * 2 ^ 18 + i) → ∃ u, exec (.seqXori n false t) s = .next u
        ∧ s.wrote u n d (x ^^^ BitVec.ofNat 32 i) q ∧ Signals [] z u)
    ∧ (i < 32 → s.fetches n (20 * 2 ^ 26 + d * 2 ^ 22 + a * 2 ^ 18 + i) → ∃ u, exec (.seqShli n false t) s = .next u
        ∧ s.wrote u n d (x <<< i) q ∧ Signals [] z u)
    ∧ (i < 32 → s.fetches n (21 * 2 ^ 26 + d * 2 ^ 22 + a * 2 ^ 18 + i) → ∃ u, exec (.seqShri n false t) s = .next u
        ∧ s.wrote u n d (x >>> i) q ∧ Signals [] z u)
    ∧ (i < 32 → s.fetches n (22 * 2 ^ 26 + d * 2 ^ 22 + a * 2 ^ 18 + i) → ∃ u, exec (.seqSari n false t) s = .next u
        ∧ s.wrote u n d (x.sshiftRight i) q ∧ Signals [] z u)
    ∧ (s.fetches n (23 * 2 ^ 26 + d * 2 ^ 22 + i) → ∃ u, exec (.seqLui n false t) s = .next u
        ∧ s.wrote u n d (BitVec.ofNat 32 (i * 2 ^ 14)) q ∧ Signals [] z u)

/-- For every sequencer that fetches the word R374 and R375 lay out, from a canonical state: a branch goes to PC + offset
where its comparison holds and that lies in the bank, and else on; JAL links and jumps, JR goes to the low twelve bits; LD
and ST of an aligned local address move the word, other addresses that are no port word fault ADDR, and poisoned data faults
POISON; FLD stalls until its data comes, faults DENIED without the right and BUS after 10 µs; FST stores to a fabric memory
or faults DENIED; SAFE counts an iteration and restarts the watchdog, halts where a HALT is pending, or swaps; WAIT takes the
pending events of its mask or stalls, and an event wakes it; TIME writes both halves of a timescale or of the raw counter;
FAULT faults PROGRAM with its code; a poisoned fetch faults POISON, an undefined word ILLEGAL, and a step past the bank
PC_RANGE. A sequencer that does not run does nothing. -/
def Obligations.UmberFlowAndAccess : Prop :=
  ∀ (n d a b off i t : Nat) (x y : Word) (s z : State), s.Canon → z = s.advance t → d < 16 → a < 16 → b < 16 → off < 2 ^ 18 → i < 2 ^ 18 →
    x = (s.sq n).reg a → y = (s.sq n).reg b →
    (s.fetches n (32 * 2 ^ 26 + a * 2 ^ 22 + b * 2 ^ 18 + off) →
        (x = y → 0 ≤ ((s.sq n).pc : Int) + toSigned 18 off → ((s.sq n).pc : Int) + toSigned 18 off < (s.sq n).active.words.length →
          ∃ u, exec (.seqBeq n false t) s = .next u ∧ s.wentOn u n (((s.sq n).pc : Int) + toSigned 18 off).toNat ∧ (u.sq n).w = (s.sq n).w)
        ∧ (¬(x = y) → ∃ u, exec (.seqBeq n false t) s = .next u ∧ s.wentOn u n ((s.sq n).pc + 1) ∧ (u.sq n).w = (s.sq n).w))
    ∧ (s.fetches n (33 * 2 ^ 26 + a * 2 ^ 22 + b * 2 ^ 18 + off) →
        (x ≠ y → 0 ≤ ((s.sq n).pc : Int) + toSigned 18 off → ((s.sq n).pc : Int) + toSigned 18 off < (s.sq n).active.words.length →
          ∃ u, exec (.seqBne n false t) s = .next u ∧ s.wentOn u n (((s.sq n).pc : Int) + toSigned 18 off).toNat ∧ (u.sq n).w = (s.sq n).w)
        ∧ (¬(x ≠ y) → ∃ u, exec (.seqBne n false t) s = .next u ∧ s.wentOn u n ((s.sq n).pc + 1) ∧ (u.sq n).w = (s.sq n).w))
    ∧ (s.fetches n (34 * 2 ^ 26 + a * 2 ^ 22 + b * 2 ^ 18 + off) →
        (x.toInt < y.toInt → 0 ≤ ((s.sq n).pc : Int) + toSigned 18 off → ((s.sq n).pc : Int) + toSigned 18 off < (s.sq n).active.words.length →
          ∃ u, exec (.seqBlt n false t) s = .next u ∧ s.wentOn u n (((s.sq n).pc : Int) + toSigned 18 off).toNat ∧ (u.sq n).w = (s.sq n).w)
        ∧ (¬(x.toInt < y.toInt) → ∃ u, exec (.seqBlt n false t) s = .next u ∧ s.wentOn u n ((s.sq n).pc + 1) ∧ (u.sq n).w = (s.sq n).w))
    ∧ (s.fetches n (35 * 2 ^ 26 + a * 2 ^ 22 + b * 2 ^ 18 + off) →
        (y.toInt ≤ x.toInt → 0 ≤ ((s.sq n).pc : Int) + toSigned 18 off → ((s.sq n).pc : Int) + toSigned 18 off < (s.sq n).active.words.length →
          ∃ u, exec (.seqBge n false t) s = .next u ∧ s.wentOn u n (((s.sq n).pc : Int) + toSigned 18 off).toNat ∧ (u.sq n).w = (s.sq n).w)
        ∧ (¬(y.toInt ≤ x.toInt) → ∃ u, exec (.seqBge n false t) s = .next u ∧ s.wentOn u n ((s.sq n).pc + 1) ∧ (u.sq n).w = (s.sq n).w))
    ∧ (s.fetches n (36 * 2 ^ 26 + a * 2 ^ 22 + b * 2 ^ 18 + off) →
        (x.toNat < y.toNat → 0 ≤ ((s.sq n).pc : Int) + toSigned 18 off → ((s.sq n).pc : Int) + toSigned 18 off < (s.sq n).active.words.length →
          ∃ u, exec (.seqBltu n false t) s = .next u ∧ s.wentOn u n (((s.sq n).pc : Int) + toSigned 18 off).toNat ∧ (u.sq n).w = (s.sq n).w)
        ∧ (¬(x.toNat < y.toNat) → ∃ u, exec (.seqBltu n false t) s = .next u ∧ s.wentOn u n ((s.sq n).pc + 1) ∧ (u.sq n).w = (s.sq n).w))
    ∧ (s.fetches n (37 * 2 ^ 26 + a * 2 ^ 22 + b * 2 ^ 18 + off) →
        (y.toNat ≤ x.toNat → 0 ≤ ((s.sq n).pc : Int) + toSigned 18 off → ((s.sq n).pc : Int) + toSigned 18 off < (s.sq n).active.words.length →
          ∃ u, exec (.seqBgeu n false t) s = .next u ∧ s.wentOn u n (((s.sq n).pc : Int) + toSigned 18 off).toNat ∧ (u.sq n).w = (s.sq n).w)
        ∧ (¬(y.toNat ≤ x.toNat) → ∃ u, exec (.seqBgeu n false t) s = .next u ∧ s.wentOn u n ((s.sq n).pc + 1) ∧ (u.sq n).w = (s.sq n).w))
    ∧ (s.fetches n (0x20 * 2 ^ 26 + a * 2 ^ 22 + a * 2 ^ 18 + off) → ((s.sq n).active.words.length : Int) ≤ ((s.sq n).pc : Int) + toSigned 18 off →
        ∃ u, exec (.seqBeq n false t) s = .next u ∧ u.faulted n 2 0)
    ∧ (∀ j, j < 2 ^ 26 → s.fetches n (0x26 * 2 ^ 26 + j) → 0 ≤ ((s.sq n).pc : Int) + toSigned 26 j →
        ((s.sq n).pc : Int) + toSigned 26 j < (s.sq n).active.words.length → ∃ u, exec (.seqJal n false t) s = .next u
        ∧ s.wentOn u n (((s.sq n).pc : Int) + toSigned 26 j).toNat ∧ (u.sq n).reg 15 = BitVec.ofNat 32 ((s.sq n).pc + 1)
        ∧ ∀ k, k ≠ 15 → (u.sq n).reg k = (s.sq n).reg k)
    ∧ (s.fetches n (0x27 * 2 ^ 26 + a * 2 ^ 18) → x.toNat % 4096 < (s.sq n).active.words.length →
        ∃ u, exec (.seqJr n false t) s = .next u ∧ s.wentOn u n (x.toNat % 4096) ∧ (u.sq n).w = (s.sq n).w)
    ∧ (∀ ad, ad = (x + BitVec.ofInt 32 (toSigned 18 i)).toNat →
      (s.fetches n (0x18 * 2 ^ 26 + d * 2 ^ 22 + a * 2 ^ 18 + i) →
        (ad % 4 = 0 → ad < 0x2000 → (∃ u, exec (.seqLd n false false t) s = .next u
              ∧ s.wrote u n d (Store.get zWord (s.sq n).ld (ad / 4)) (s.sq n).c ∧ Signals [] z u)
          ∧ (∃ u, exec (.seqLd n false true t) s = .next u ∧ u.faulted n 5 0))
        ∧ (ad % 4 = 0 → 0x2000 ≤ ad → portReads (placeOf n) ad = true → ∃ u v, exec (.seqLd n false false t) s = .next u
              ∧ s.wrote u n d v (s.sq n).c)
        ∧ (ad % 4 ≠ 0 ∨ (0x2000 ≤ ad ∧ portReads (placeOf n) ad = false) → ∃ u, exec (.seqLd n false false t) s = .next u ∧ u.faulted n 3 0))
      ∧ (s.fetches n (0x19 * 2 ^ 26 + d * 2 ^ 22 + a * 2 ^ 18 + i) →
        (ad % 4 = 0 → ad < 0x2000 → Store.wf zWord (s.sq n).ld = true → ∃ u, exec (.seqSt n false t) s = .next u ∧ (u.sq n).st = .run
            ∧ (u.sq n).pc = (s.sq n).pc + 1 ∧ (u.sq n).w = (s.sq n).w ∧ Store.get zWord (u.sq n).ld (ad / 4) = (s.sq n).reg d
            ∧ (∀ k, k ≠ ad / 4 → Store.get zWord (u.sq n).ld k = Store.get zWord (s.sq n).ld k) ∧ Signals [] z u)
        ∧ (ad % 4 = 0 → 0x2000 ≤ ad → portWrites (placeOf n) ad = true → ∃ u, exec (.seqSt n false t) s = .next u
            ∧ s.wentOn u n ((s.sq n).pc + 1) ∧ (u.sq n).w = (s.sq n).w)
        ∧ (ad % 4 ≠ 0 ∨ (0x2000 ≤ ad ∧ portWrites (placeOf n) ad = false) → ∃ u, exec (.seqSt n false t) s = .next u ∧ u.faulted n 3 0))
      ∧ (s.fetches n (0x1A * 2 ^ 26 + d * 2 ^ 22 + a * 2 ^ 18 + i) →
        (z.fabAccess (64 + n) ad .read ≠ .denied → ∃ u, exec (.seqFld n false t) s = .next u
            ∧ u.sq n = { s.sq n with fldTo := some (d, ad, z.raw) } ∧ u = { z with seq := u.seq })
        ∧ (z.fabAccess (64 + n) ad .read = .denied → ∃ u, exec (.seqFld n false t) s = .next u ∧ u.faulted n 4 0
            ∧ u.on SEQ.STICKY_DENIED = true))
      ∧ (s.fetches n (0x1B * 2 ^ 26 + d * 2 ^ 22 + a * 2 ^ 18 + i) →
        (25 ≤ ad / 2 ^ 27 → ad / 2 ^ 27 ≤ 27 → z.granted (64 + n) (ad / 2 ^ 27) (ad % 2 ^ 27 / 4096) .write = true →
            ∃ u, exec (.seqFst n false t) s = .next u ∧ u.sramWord (ad / 4 * 4) = some ((s.sq n).reg d)
            ∧ s.wentOn u n ((s.sq n).pc + 1) ∧ (u.sq n).w = (s.sq n).w)
        ∧ (z.fabAccess (64 + n) ad .write = .denied → ∃ u, exec (.seqFst n false t) s = .next u ∧ u.faulted n 4 0)))
    ∧ (∀ f, (s.sq n).fldTo = some f → (s.sq n).st = .run → (s.sq n).pc < 4096 → (s.sq n).pc + 1 < (s.sq n).active.words.length → Store.wf zWord (s.sq n).w = true →
      (25 ≤ f.2.1 / 2 ^ 27 → f.2.1 / 2 ^ 27 ≤ 27 → z.granted (64 + n) (f.2.1 / 2 ^ 27) (f.2.1 % 2 ^ 27 / 4096) .read = true →
          ∀ w, s.sramWord (f.2.1 / 4 * 4) = some w → ∃ u, exec (.fldDataReturn n false t) s = .next u
          ∧ s.wrote u n f.1 w (s.sq n).c ∧ (u.sq n).fldTo = none)
      ∧ (∃ u, exec (.fldDataReturn n true t) s = .next u ∧ u.faulted n 5 0)
      ∧ (f.2.2 + 10000 * qNs ≤ z.raw → ∃ u, exec (.fldBusTimeout n t) s = .next u ∧ u.faulted n 8 0)
      ∧ (z.raw < f.2.2 + 10000 * qNs → exec (.fldBusTimeout n t) s = .next z))
    ∧ ((s.sq n).fldTo = none → exec (.fldDataReturn n false t) s = .next z ∧ exec (.fldBusTimeout n t) s = .next z)
    ∧ (s.fetches n (0x30 * 2 ^ 26) →
      ((s.sq n).haltPend = false → s.sqArmed n = false → ∃ u, exec (.seqSafe n false t) s = .next u ∧ s.wentOn u n ((s.sq n).pc + 1)
          ∧ (u.sq n).iter = (s.sq n).iter + 1 ∧ (u.sq n).safeRaw = z.raw ∧ (u.sq n).w = (s.sq n).w)
      ∧ ((s.sq n).haltPend = true → ∃ u, exec (.seqSafe n false t) s = .next u ∧ (u.sq n).st = .halted
          ∧ (u.sq n).pc = (s.sq n).pc + 1 ∧ (u.sq n).haltPend = false ∧ (u.sq n).iter = (s.sq n).iter + 1)
      ∧ (∀ w, (s.sq n).haltPend = false → s.swapOf n = some w → w.sync = false → w.waiting.contains n = true →
          s.mayRun n (!(s.sq n).bankB) = true → ∃ u, exec (.seqSafe n false t) s = .next u ∧ (u.sq n).bankB = !(s.sq n).bankB
          ∧ (u.sq n).pc = (s.sq n).idle.entry ∧ (w.init = false → (u.sq n).w = (s.sq n).w ∧ (u.sq n).ld = (s.sq n).ld)
          ∧ (w.init = true → ∀ k, (u.sq n).reg k = 0)))
    ∧ (∀ ms, ms < 2 ^ 16 → s.fetches n (0x31 * 2 ^ 26 + d * 2 ^ 22 + ms) →
      (s.sqArmed n = true ∨ (s.sq n).haltPend = true → ∃ u, exec (.seqWait n false t) s = .next u ∧ s.wrote u n d 0 (s.sq n).c)
      ∧ (s.sqArmed n = false → (s.sq n).haltPend = false → (s.sq n).events &&& ms ≠ 0 → n ≠ 50 → ∃ u, exec (.seqWait n false t) s = .next u
          ∧ s.wrote u n d (BitVec.ofNat 32 ((s.sq n).events &&& ms)) (s.sq n).c ∧ (u.sq n).events = (s.sq n).events - ((s.sq n).events &&& ms))
      ∧ (s.sqArmed n = false → (s.sq n).haltPend = false → (s.sq n).events &&& ms = 0 → n ≠ 50 → ∃ u, exec (.seqWait n false t) s = .next u
          ∧ (u.sq n).st = .wait ∧ (u.sq n).waitOn = some (d, ms) ∧ (u.sq n).pc = (s.sq n).pc ∧ (u.sq n).w = (s.sq n).w))
    ∧ (∀ w, (s.sq n).st = .wait → (s.sq n).waitOn = some w → (s.sq n).pc + 1 < (s.sq n).active.words.length → Store.wf zWord (s.sq n).w = true →
      ((s.sq n).events &&& w.2 ≠ 0 ∨ s.sqArmed n = true ∨ (s.sq n).haltPend = true → ∃ u, exec (.waitWake n t) s = .next u
          ∧ s.wrote u n w.1 (BitVec.ofNat 32 ((s.sq n).events &&& w.2)) (s.sq n).c ∧ (u.sq n).waitOn = none)
      ∧ ((s.sq n).events &&& w.2 = 0 → s.sqArmed n = false → (s.sq n).haltPend = false → exec (.waitWake n t) s = .next z))
    ∧ ((s.sq n).st ≠ .wait → exec (.waitWake n t) s = .next z)
    ∧ (d % 2 = 0 → s.fetches n (0x32 * 2 ^ 26 + d * 2 ^ 22 + i) → ∀ v, v = (if bitAt i 6 then z.raw else z.tsNow (i % 64)) →
        ∃ u, exec (.seqTime n false t) s = .next u ∧ s.wentOn u n ((s.sq n).pc + 1) ∧ (u.sq n).reg d = BitVec.ofNat 32 v
        ∧ (u.sq n).reg (d + 1) = BitVec.ofNat 32 (v / 2 ^ 32) ∧ ∀ k, k ≠ d → k ≠ d + 1 → (u.sq n).reg k = (s.sq n).reg k)
    ∧ (s.fetches n (0x33 * 2 ^ 26 + d * 2 ^ 22 + a * 2 ^ 18 + i) → ∃ u, exec (.seqFaultInstr n false t) s = .next u ∧ u.faulted n 7 (i % 256))
    ∧ (∀ w, s.fetches n w → (∃ u, exec (.seqNop n true t) s = .next u ∧ u.faulted n 5 0)
        ∧ (w < 2 ^ 32 → sqDecode w = none → ∃ u, exec (.seqNop n false t) s = .next u ∧ u.faulted n 1 0))
    ∧ (s.sqReady n = false → ∀ c ∈ [Instr.seqNop n false t, .seqAdd n false t, .seqLd n false false t, .seqSt n false t, .seqFld n false t,
        .seqFst n false t, .seqBeq n false t, .seqJal n false t, .seqJr n false t, .seqSafe n false t, .seqWait n false t,
        .seqTime n false t, .seqFaultInstr n false t], exec c s = .next z)

/-- From a canonical state: PROG_LOAD completes with its code and writes no bank, or writes the idle bank of every named
sequencer with its image and sets IDLE_OK, completing OK with their number, or, with ARM, arms their swap; a swap not taken
within SWAP_TO ends TIMEOUT; for a selected sequencer and a granted write, ARM answers its code in STATUS or arms a swap of
that sequencer alone, DISARM ends an armed one or reports ZERO_LEN, any other OP is REFUSED; HALT is taken up or answers its
code, RESUME lets a halted one run, RESTART starts a halted or faulted one with fresh local data, OP 0 is REFUSED; LD_DATA
writes the word of a halted or faulted one and else is refused. One microsecond after a fault the RESTART code applies up to
RESTART_MAX, past which GAVE_UP sets; a sequencer that passes no SAFE for its period faults WATCHDOG. Where a row's condition
does not hold nothing changes. -/
def Obligations.SequencersAreLoadedAndControlled : Prop :=
  ∀ (c : HostCmd) (m n op val t : Nat) (e : Option Nat) (sync init : Bool) (s z : State), s.Canon → z = s.advance t →
    (s.accepts c → (∀ code, code = z.progCode c e →
      (code ≠ 0 → ∃ u, exec (.progLoad c e t) s = .next u ∧ u.failed c code ∧ ∀ k, (u.sq k).a = (s.sq k).a ∧ (u.sq k).b = (s.sq k).b)
      ∧ (code = 0 → bitAt (c.u 17 1) 0 = false → ∃ u, exec (.progLoad c e t) s = .next u ∧ u.completed c stOK (z.loadImages c).length
          ∧ u.nreg SEQ.LOAD_COUNT = (s.nreg SEQ.LOAD_COUNT + 1) % 2 ^ 32
          ∧ (∀ k g, (k, some g) ∈ z.loadImages c → (u.sq k).idle = g.bank ∧ (u.sq k).idleOk = true ∧ (u.sq k).active = (s.sq k).active)
          ∧ (∀ k, (∀ g, (k, g) ∉ z.loadImages c) → u.sq k = s.sq k))
      ∧ (code = 0 → bitAt (c.u 17 1) 0 = true → ∃ u, exec (.progLoad c e t) s = .next u
          ∧ u.seq.swaps = s.seq.swaps ++ [⟨(z.loadImages c).map (·.1), (z.loadImages c).map (·.1), bitAt (c.u 17 1) 1, bitAt (c.u 17 1) 2, z.raw,
              some c, 0⟩] ∧ (∀ k g, (k, some g) ∈ z.loadImages c → (u.sq k).idle = g.bank))))
    ∧ (∀ w, s.swapOf n = some w →
      (w.raw + s.rd SEQ.CTRL_SWAP_TO * 1000000 * qNs ≤ z.raw → ∃ u, exec (.swapTimeout n t) s = .next u
          ∧ u.seq.swaps = s.seq.swaps.erase w ∧ u.on SEQ.STICKY_SWAP_TIMEOUT = true
          ∧ (∀ x, w.cmd = some x → s.accepts x → u.completed x stTIMEOUT w.count))
      ∧ (z.raw < w.raw + s.rd SEQ.CTRL_SWAP_TO * 1000000 * qNs → exec (.swapTimeout n t) s = .next z))
    ∧ (s.swapOf n = none → exec (.swapTimeout n t) s = .next z)
    ∧ (z.access m SEQ.SWAP_CTRL .write = .granted → n = z.selSeq m → n < 52 →
      (∀ code, code = lowestCode [codeIf (!s.seqPresent n || !(s.sq n).idleOk || (!init && (s.sq n).idle.layout != (s.sq n).active.layout)) stREFUSED,
          codeIf (s.sqArmed n || s.seq.swaps.any (fun w => w.cmd.isSome)) stBUSY,
          codeIf (s.modeNoCmd || (s.mode == 10 && placeOf n == 3)) stMODE_FORBIDS] →
        (code ≠ 0 → ∃ u, exec (.swapArm m sync init t) s = .next u ∧ bitsOf (u.sq n).swapCtrl 8 8 = code ∧ u.seq.swaps = s.seq.swaps)
        ∧ (code = 0 → ∃ u, exec (.swapArm m sync init t) s = .next u ∧ u.seq.swaps = s.seq.swaps ++ [⟨[n], [n], false, init, z.raw, none, 0⟩]
            ∧ bitAt (u.sq n).swapCtrl 3 = true ∧ u = { z with seq := u.seq }))
      ∧ (∀ w, s.sqArmed n = true → s.swapOf n = some w → ∃ u, exec (.swapDisarm m sync init t) s = .next u
            ∧ u.seq.swaps = s.seq.swaps.erase w ∧ bitsOf (u.sq n).swapCtrl 8 8 = stOK
            ∧ (∀ x, w.cmd = some x → s.accepts x → u.completed x stABORTED w.count))
      ∧ (s.sqArmed n = false → ∃ u, exec (.swapDisarm m sync init t) s = .next u ∧ bitsOf (u.sq n).swapCtrl 8 8 = stZERO_LEN
            ∧ u = { z with seq := u.seq } ∧ u.seq.swaps = s.seq.swaps)
      ∧ (∃ u, exec (.swapOpInvalid m op t) s = .next u ∧ bitsOf (u.sq n).swapCtrl 8 8 = stREFUSED ∧ u.on SEQ.STICKY_CFG_REFUSED = true
            ∧ Signals [SEQ.STICKY] z u))
    ∧ (z.access m SEQ.RUN_CTRL .write = .granted → n = z.selSeq m → n < 52 →
      (∀ code, code = lowestCode [codeIf (!((s.sq n).st == .run || (s.sq n).st == .wait || (s.sq n).st == .parked) || (s.sq n).haltPend) stREFUSED,
          codeIf (s.sqArmed n) stBUSY, codeIf (!s.haltMode) stMODE_FORBIDS] →
        (code ≠ 0 → ∃ u, exec (.seqHalt m t) s = .next u ∧ bitsOf (u.sq n).runCtrl 8 8 = code ∧ (u.sq n).haltPend = (s.sq n).haltPend)
        ∧ (code = 0 → ∃ u, exec (.seqHalt m t) s = .next u ∧ (u.sq n).haltPend = true ∧ (u.sq n).st = (s.sq n).st
            ∧ bitAt (u.sq n).runCtrl 3 = true ∧ u = { z with seq := u.seq }))
      ∧ ((s.sq n).st = .halted → s.haltMode = true → ∃ u, exec (.seqResume m t) s = .next u ∧ (u.sq n).st = .run
            ∧ (u.sq n).pc = (s.sq n).pc ∧ (u.sq n).w = (s.sq n).w ∧ (u.sq n).safeRaw = z.raw ∧ bitsOf (u.sq n).runCtrl 8 8 = stOK)
      ∧ ((s.sq n).st ≠ .halted ∨ s.haltMode = false → ∃ u, exec (.seqResume m t) s = .next u ∧ (u.sq n).st = (s.sq n).st
            ∧ bitsOf (u.sq n).runCtrl 8 8 ≠ stOK)
      ∧ ((s.sq n).st = .halted ∨ (s.sq n).st = .faulted → s.modeNoCmd = false → s.mayRun n (s.sq n).bankB = true →
            ∃ u, exec (.seqRestart m t) s = .next u ∧ (u.sq n).st = .run ∧ (u.sq n).pc = (s.sq n).active.entry
            ∧ (u.sq n).ld = ldOf (s.sq n).active.init ∧ (∀ k, (u.sq n).reg k = 0) ∧ (u.sq n).c = false
            ∧ u.on SEQ.STICKY_RESTARTED = true ∧ bitsOf (u.sq n).runCtrl 8 8 = stOK)
      ∧ ((s.sq n).st ≠ .halted → (s.sq n).st ≠ .faulted → ∃ u, exec (.seqRestart m t) s = .next u ∧ (u.sq n).st = (s.sq n).st
            ∧ bitsOf (u.sq n).runCtrl 8 8 = stREFUSED ∧ u.on SEQ.STICKY_CFG_REFUSED = true)
      ∧ (∃ u, exec (.seqRunOpNone m t) s = .next u ∧ bitsOf (u.sq n).runCtrl 8 8 = stREFUSED ∧ u.on SEQ.STICKY_CFG_REFUSED = true
            ∧ Signals [SEQ.STICKY] z u))
    ∧ (z.access m SEQ.LD_DATA .write = .granted → n = z.selSeq m → n < 52 → placeOf n ≠ 3 → Store.wf zWord (s.sq n).ld = true →
      ((s.sq n).st = .halted ∨ (s.sq n).st = .faulted → ∃ u, exec (.ldDataWrite m val t) s = .next u
            ∧ Store.get zWord (u.sq n).ld (s.nreg SEQ.LD_ADDR / 4 % 2048) = BitVec.ofNat 32 val
            ∧ (∀ k, k ≠ s.nreg SEQ.LD_ADDR / 4 % 2048 → Store.get zWord (u.sq n).ld k = Store.get zWord (s.sq n).ld k)
            ∧ (∀ k, k ≠ n → u.sq k = s.sq k) ∧ u = { z with seq := u.seq })
      ∧ ((s.sq n).st ≠ .halted → (s.sq n).st ≠ .faulted → ∃ u, exec (.ldDataWrite m val t) s = .next u
            ∧ (u.sq n).ld = (s.sq n).ld ∧ u.on SEQ.STICKY_CFG_REFUSED = true ∧ Signals [SEQ.STICKY] z u))
    ∧ (∀ rs, rs = (s.sq n).restartsRaw.filter (fun r => decide (z.raw < r + 3600 * qSec)) → (s.sq n).st = .faulted → s.seqPresent n = true →
        s.wdogRestart n ≠ 0 → (s.sq n).stopRaw + 1000 * qNs ≤ z.raw →
      (rs.length < s.rd SEQ.CTRL_RESTART_MAX → s.mayRun n (s.sq n).bankB = true → s.wdogRestart n ≠ 3 ∨ (s.sq n).idleOk = false → ∃ u, exec (.seqAutoRestart n t) s = .next u
            ∧ (u.sq n).st = .run ∧ (u.sq n).pc = (s.sq n).active.entry ∧ (u.sq n).restartsRaw = rs ++ [z.raw]
            ∧ (s.wdogRestart n = 1 → (u.sq n).ld = (s.sq n).ld ∧ (u.sq n).w = (s.sq n).w)
            ∧ (s.wdogRestart n ≠ 1 → (u.sq n).ld = ldOf (s.sq n).active.init ∧ ∀ k, (u.sq n).reg k = 0)
            ∧ u.on SEQ.STICKY_RESTARTED = true)
      ∧ (rs.length < s.rd SEQ.CTRL_RESTART_MAX → s.wdogRestart n = 3 → (s.sq n).idleOk = true → s.mayRun n (!(s.sq n).bankB) = true →
            ∃ u, exec (.seqAutoRestart n t) s = .next u ∧ (u.sq n).st = .run ∧ (u.sq n).bankB = !(s.sq n).bankB
            ∧ (u.sq n).pc = (s.sq n).idle.entry ∧ (u.sq n).ld = ldOf (s.sq n).idle.init ∧ ∀ k, (u.sq n).reg k = 0)
      ∧ (s.rd SEQ.CTRL_RESTART_MAX ≤ rs.length → ∃ u, exec (.seqAutoRestart n t) s = .next u ∧ u.on SEQ.STICKY_GAVE_UP = true
            ∧ Signals [SEQ.STICKY] z u))
    ∧ ((s.sq n).st ≠ .faulted ∨ s.wdogRestart n = 0 → exec (.seqAutoRestart n t) s = .next z)
    ∧ (s.seqPresent n = true → (s.sq n).st = .run ∨ (s.sq n).st = .wait →
      ((s.sq n).safeRaw + s.wdogPeriod n * 10000 * qNs ≤ z.raw → (s.sq n).pc < 4096 → ∃ u, exec (.seqWatchdog n t) s = .next u ∧ u.faulted n 6 0
            ∧ u.on SEQ.STICKY_WATCHDOG = true)
      ∧ (z.raw < (s.sq n).safeRaw + s.wdogPeriod n * 10000 * qNs → exec (.seqWatchdog n t) s = .next z))

/-- From a canonical state whose key slots, queues and operand slots are in canonical form: KEY_IMPORT, KEY_GENERATE and
PK_RUN complete with their code and change no key, or join the tail of the chosen queue, take a KEYTOK and claim their span;
a running job that is due completes with its result (OK writes OUT and the claimed slot, anything else writes no memory and
releases it), leaves the queue, and its engine's operand slots are zero; an RSA_PUBLIC without a key gives x^e mod n; the key
sequencer may complete the head itself; KEY_ZEROISE clears a key, or every key but slot 0, and aborts the jobs that use it,
or leaves a slot that failed its read-back POISONED; KEY_USE loads x + r N and counts a use, or is denied, or finds the slot
poisoned; a row computes D + A b + c over w bits; a failed known answer makes an engine unusable; FIND_CTRL finds the lowest
free span or none. Where a row's condition does not hold nothing changes. -/
def Obligations.KeysAndPublicKeyJobs : Prop :=
  ∀ (c : HostCmd) (q e slot part dst md t : Nat) (bad : List Nat) (s a : State), s.Canon → a = s.advance t →
    Store.wf dKey s.key.slots = true → Store.wf dPkQ s.pke.queues = true → Store.wf zNat s.pke.opmem = true →
    (s.accepts c →
      (∀ code, code = a.importCode c (a.bytesAt (c.u 0 8) 16) →
        (code ≠ 0 → ∃ u, exec (.keyImport c none t) s = .next u ∧ u.failed c code ∧ u.key = s.key ∧ u.pke = s.pke)
        ∧ (code = 0 → ∃ w u x, a.pkPick 7 = some w ∧ exec (.keyImport c none t) s = .next u
            ∧ (u.pkQ w).map (·.cmd) = (s.pkQ w).map (·.cmd) ++ [c] ∧ u.keyAt (c.u 12 2 % 1024) = x ∧ x.valid = true ∧ x.writing = true
            ∧ x.poisoned = false ∧ x.material = [] ∧ x.origin = 0 ∧ x.owner = c.fn ∧ x.label = c.u 16 4 ∧ x.typ = leAt (a.bytesAt (c.u 0 8) 16) 1 1
            ∧ (u.lget .keytok w).held = ((s.lget .keytok w).held + 1) % 2 ^ 48 ∧ (∀ i, i ≠ c.u 12 2 % 1024 → u.keyAt i = s.keyAt i)))
      ∧ (∀ r, ∃ u code, exec (.keyImport c (some r) t) s = .next u ∧ code ≠ 0 ∧ u.failed c code ∧ u.key = s.key ∧ u.pke = s.pke)
      ∧ (∀ code, code = a.generateCode c →
        (code ≠ 0 → ∃ u, exec (.keyGenerate c t) s = .next u ∧ u.failed c code ∧ u.key = s.key ∧ u.pke = s.pke)
        ∧ (code = 0 → ∃ w u x, a.pkPick 7 = some w ∧ exec (.keyGenerate c t) s = .next u
            ∧ (u.pkQ w).map (·.cmd) = (s.pkQ w).map (·.cmd) ++ [c] ∧ u.keyAt (c.u 6 2 % 1024) = x ∧ x.valid = true ∧ x.writing = true
            ∧ x.poisoned = false ∧ x.material = [] ∧ x.origin = 1 ∧ x.owner = c.fn ∧ x.label = c.u 8 4 ∧ x.typ = c.u 0 1
            ∧ (u.lget .keytok w).held = ((s.lget .keytok w).held + 1) % 2 ^ 48 ∧ (∀ i, i ≠ c.u 6 2 % 1024 → u.keyAt i = s.keyAt i)))
      ∧ (∀ code, code = a.pkRunCode c →
        (code ≠ 0 → ∃ u, exec (.pkRun c t) s = .next u ∧ u.failed c code ∧ u.key = s.key ∧ u.pke = s.pke)
        ∧ (code = 0 → ∃ w u, a.pkPick (c.u 2 1 % 8) = some w ∧ exec (.pkRun c t) s = .next u
            ∧ (u.pkQ w).map (·.cmd) = (s.pkQ w).map (·.cmd) ++ [c] ∧ (u.lget .keytok w).held = ((s.lget .keytok w).held + 1) % 2 ^ 48
            ∧ (bitAt (c.u 3 1) 0 = false → u.key = s.key)
            ∧ (bitAt (c.u 3 1) 0 = true → (u.keyAt (c.u 6 2 % 1024)).writing = true ∧ (u.keyAt (c.u 6 2 % 1024)).typ = 6
                ∧ ∀ i, i ≠ c.u 6 2 % 1024 → u.keyAt i = s.keyAt i)))
      ∧ (∀ all heads k code, all = bitAt (c.u 0 2) 15 → slot = c.u 0 2 % 1024 → k = s.keyAt slot →
          heads = (if all then (s.key.slots.filter (fun x => x.1 != 0 && x.2.valid)).map (·.1) else [slot]) →
          code = c.code [codeIf (bitsOf (c.u 0 2) 10 5 != 0 || !c.zero 2 32 || (!all && (slot == 0 || (!k.valid && (s.headOf slot).isSome)))) stREFUSED,
            codeIf ((all && c.fn != 0) || (!all && s.vfDenied c.fn 2) || heads.any (fun h => !s.spanWritable c.fn h (s.keyAt h).span)) stDENIED,
            codeIf (!all && slot != 0 && (s.headOf slot).isNone) stZERO_LEN, codeIf (s.modeNoCmd || s.mode == 10) stMODE_FORBIDS] →
        (code ≠ 0 → ∃ u, exec (.keyZeroise c bad t) s = .next u ∧ u.failed c code ∧ u.key = s.key ∧ u.pke = s.pke)
        ∧ (code = 0 → all = false → 1 ≤ k.span → (∀ i, i < k.span → slot + i ∉ bad) → ∃ u, exec (.keyZeroise c bad t) s = .next u
            ∧ u.completed c stOK k.span ∧ u.keyAt slot = noKey ∧ u.on KEY.STICKY_ZEROISED = true
            ∧ (∀ i, i ≠ slot → (∀ w, w < 4 → ∀ j ∈ s.pkQ w, j.claim ≠ some i) → u.keyAt i = s.keyAt i)
            ∧ (∀ w j, w < 4 → s.pkQ w = [j] → (∀ v, v ≠ w → s.pkQ v = []) →
                (j.claim = some slot ∨ slot ∈ j.sources → u.pkQ w = []) ∧ (j.claim ≠ some slot → slot ∉ j.sources → u.pkQ w = [j])))
        ∧ (code = 0 → all = false → (∃ i, i < k.span ∧ slot + i ∈ bad) → ∃ u, exec (.keyZeroise c bad t) s = .next u
            ∧ u.completed c stPOISONED 0 ∧ (u.keyAt slot).poisoned = true ∧ (u.keyAt slot).material = [])
        ∧ (code = 0 → all = true → bad = [] → ∃ u, exec (.keyZeroise c bad t) s = .next u ∧ ∀ i, i ≠ 0 → (u.keyAt i).valid = false)))
    ∧ (∀ j r primes z o, s.pkQ q = j :: r → j.running = true → s.engOf q = some e → s.accepts j.cmd →
      (a.pkResult j none primes = some (z, o) →
        (j.start + a.pkDue j o * qNs ≤ a.raw → o.out.length ≤ 2 ^ 64 → ∃ u, exec (.pkJobComplete q none primes t) s = .next u
            ∧ u.completed j.cmd o.status (if o.status ≠ stOK then 0 else if j.op = 1 then ((j.claim.map (fun k => (z.keyAt k).span)).getD 0) else o.out.length)
            ∧ (u.pkQ q).map (·.cmd) = r.map (·.cmd) ∧ (∀ i, i < 64 → u.operand e i = 0)
            ∧ (o.status = stOK → ∀ i, i < o.out.length → u.byteAt ((if j.op = 0 then j.cmd.u 20 8 else j.cmd.u 16 8) + i) = o.out.getD i 0)
            ∧ (o.status ≠ stOK → u.mem = s.mem)
            ∧ (∀ k m, j.claim = some k → o.put = some m → (u.keyAt k).material = m ∧ (u.keyAt k).writing = false)
            ∧ (∀ k, j.claim = some k → o.put = none → u.keyAt k = noKey))
        ∧ (a.raw < j.start + a.pkDue j o * qNs → exec (.pkJobComplete q none primes t) s = .next a))
      ∧ (∀ n x y b, j.op = 0 → j.fn = 9 → j.none = true → j.input.length = 2 * b + 8 → j.input.length < 2 ^ 32 →
          n = blockNat (j.input.take b) → x = blockNat ((j.input.drop b).take 8) → y = blockNat (j.input.drop (b + 8)) →
          x ≠ 0 → 1 < y → y + 1 < n → j.start + 85000 * qNs ≤ a.raw →
          ∃ u, exec (.pkJobComplete q none primes t) s = .next u ∧ u.completed j.cmd stOK b
            ∧ blockNat (u.bytesAt (j.cmd.u 20 8) b) = y ^ x % n)
      ∧ (md % 256 ≠ stOK → ∃ u, exec (.keyHeadComplete q md t) s = .next u ∧ u.completed j.cmd (md % 256) 0 ∧ u.mem = s.mem
          ∧ (u.pkQ q).map (·.cmd) = r.map (·.cmd) ∧ ∀ k, j.claim = some k → u.keyAt k = noKey)
      ∧ (md % 256 = stOK → a.pkResult j none [] = some (z, o) → o.out.length ≤ 2 ^ 64 → ∃ u n, exec (.keyHeadComplete q md t) s = .next u
          ∧ u.completed j.cmd stOK n ∧ (u.pkQ q).map (·.cmd) = r.map (·.cmd)
          ∧ (∀ i, i < o.out.length → u.byteAt ((if j.op = 0 then j.cmd.u 20 8 else j.cmd.u 16 8) + i) = o.out.getD i 0)))
    ∧ (s.pkQ q = [] ∨ s.engOf q = none → ∀ r p, exec (.pkJobComplete q r p t) s = .next a ∧ exec (.keyHeadComplete q md t) s = .next a)
    ∧ (s.engOf q = some e → (s.sq (44 + q)).st = .run → dst < 64 → md < 64 → slot < 1024 →
      (s.mayUse (108 + q) slot = true → (s.keyAt slot).valid = true → (s.keyAt slot).writing = false →
        ((s.keyAt slot).poisoned = false → ∀ x, ((s.keyAt slot).parts (s.curveOf (s.keyAt slot).curve).lp)[part]? = some x →
          ∃ u r, exec (.keyUse q slot part dst md t) s = .next u ∧ u.operand e dst = x + r * s.operand e md
            ∧ u.keyAt slot = { s.keyAt slot with uses := ((s.keyAt slot).uses + 1) % 2 ^ 32 }
            ∧ u.reg48 KEY.USES_LO = (s.reg48 KEY.USES_LO + 1) % 2 ^ 48 ∧ (∀ i, i ≠ 64 * e + dst → Store.get zNat u.pke.opmem i = Store.get zNat s.pke.opmem i)
            ∧ (∀ i, i ≠ slot → u.keyAt i = s.keyAt i))
        ∧ ((s.keyAt slot).poisoned = true → ∃ u, exec (.keyUse q slot part dst md t) s = .next u ∧ u.on KEY.STICKY_POISON = true
            ∧ Signals [KEY.STICKY] a u))
      ∧ (s.mayUse (108 + q) slot = false → ∃ u, exec (.keyUse q slot part dst md t) s = .next u
          ∧ u.nreg FAB.DENY_COUNT = (s.nreg FAB.DENY_COUNT + 1) % 2 ^ 32 ∧ u.on FAB.STICKY_DENIED = true ∧ u.pke = s.pke ∧ u.key = s.key))
    ∧ (∀ b k w, s.engOf q = some e → (s.sq (44 + q)).st = .run → dst < 64 → md < 64 →
      (0 < w → w % 64 = 0 → w ≤ 8448 → Store.get (fun _ => (none : Option RowOp)) s.pke.rows e = none →
        ∃ u, exec (.rowGo q dst md b k w t) s = .next u
          ∧ Store.get (fun _ => (none : Option RowOp)) u.pke.rows e = some ⟨dst, md, b % 2 ^ 64, k % 2 ^ 64, w⟩ ∧ u = { a with pke := u.pke }
          ∧ u.pke.opmem = s.pke.opmem)
      ∧ (w = 0 ∨ w % 64 ≠ 0 ∨ 8448 < w → exec (.rowGo q dst md b k w t) s = .next a))
    ∧ (∀ r, s.engOf q = some e → Store.get (fun _ => (none : Option RowOp)) s.pke.rows e = some r → r.d < 64 →
        Store.wf (fun _ => (none : Option RowOp)) s.pke.rows = true →
        ∃ u, exec (.rowDone q t) s = .next u
          ∧ u.operand e r.d = s.operand e r.d / 2 ^ r.w * 2 ^ r.w + (s.operand e r.d + s.operand e r.a * r.b + r.c) % 2 ^ r.w
          ∧ (∀ i, i ≠ 64 * e + r.d → Store.get zNat u.pke.opmem i = Store.get zNat s.pke.opmem i)
          ∧ Store.get (fun _ => (none : Option RowOp)) u.pke.rows e = none ∧ u.reg48 PKE.ROWS_LO = (s.reg48 PKE.ROWS_LO + 1) % 2 ^ 48)
    ∧ (s.engOf q = none → exec (.rowDone q t) s = .next a)
    ∧ (unitPresent s.variant 2 e = true → (s.unit 2 e).unusable = false → ∃ u, exec (.pkeKat e false t) s = .next u
        ∧ (u.unit 2 e).unusable = true ∧ u.on PKE.STICKY_KAT_FAIL = true)
    ∧ (∀ ok, unitPresent s.variant 2 e = false ∨ (s.unit 2 e).unusable = true ∨ ok = true → exec (.pkeKat e ok t) s = .next a)
    ∧ (a.access md KEY.FIND_CTRL .write = .granted →
      (∀ i, dst % 32 ≠ 0 → 1 ≤ i → i + dst % 32 ≤ 1024 → s.spanTaken i (dst % 32) = false → (∀ h, 1 ≤ h → h < i → s.spanTaken h (dst % 32) = true) →
        ∃ u, exec (.findGo md dst t) s = .next u ∧ u.nreg KEY.FIND_RESULT = i + 2 ^ 16 ∧ u = { a with regs := u.regs }
          ∧ ∀ k, k ≠ KEY.FIND_CTRL → k ≠ KEY.FIND_RESULT → u.reg k = s.reg k)
      ∧ (dst % 32 ≠ 0 → (∀ h, 1 ≤ h → h + dst % 32 ≤ 1024 → s.spanTaken h (dst % 32) = true) →
        ∃ u, exec (.findGo md dst t) s = .next u ∧ u.nreg KEY.FIND_RESULT = 0 ∧ u = { a with regs := u.regs })
      ∧ (dst % 32 = 0 → ∃ u, exec (.findGo md dst t) s = .next u ∧ u.on KEY.STICKY_CFG_REFUSED = true ∧ Signals [KEY.STICKY] a u))

/-- From a canonical state whose image copies are in canonical form: JOURNAL_APPEND queues a HOST record of CODE and its
words, or completes with its code, or ABORTED where queue 141 is full; the head of queue 141 enters the buffer with the next
SEQ and its chained CHECK, 64 bytes long, completing an append without SYNC; 240 records program a page, which makes them
durable; a record that waited FLUSH_S pads and programs the open page; in Keep-alive 1 536 records wake the Flowstone domain,
as WAKE_LAST names, and are programmed, the open page padded (log entry 35); a scrub pass starts when due and ends counted; a
wear move is made at most once every 60 s where erase counts differ by more than 64. IMAGE_WRITE leaves the copy written or
erased, IMAGE_COMMIT makes a copy preferred and RAISE lifts the minimum version, FLS_READ writes what it read up to the first
poisoned unit or what an aborted DMA delivered, and a medium that does not answer completes TIMEOUT. Where a row's condition
does not hold nothing changes. -/
def Obligations.FlowstoneRecordsAndImages : Prop :=
  ∀ (c : HostCmd) (out : NandOut) (chk : CopyCheck) (busy : Bool) (cm e t : Nat) (s a : State), s.Canon → a = s.advance t →
    Store.wf (fun _ => noImg) s.fls.imgs = true → Store.wf zNat s.fls.minVer = true →
    (s.accepts c →
      (∀ code, code = a.flsCode c false →
        (code ≠ 0 → ∃ u, exec (.journalAppend c t) s = .next u ∧ u.failed c code ∧ u.fls = s.fls)
        ∧ (code = 0 → s.qRoom 141 1 = true → ∃ u, exec (.journalAppend c t) s = .next u
            ∧ u.jrn.q = s.jrn.q ++ [⟨a.tsNow 0, 10, 20, s.mode == 8, s.jrn.lost,
                fit 34 (leBytes 1 (c.u 1 1) ++ leBytes 1 (c.u 0 1) ++ zeros 2 ++ (c.payload.drop 4).take (4 * c.u 0 1))⟩]
            ∧ u.jrn.lost = 0 ∧ u.fls.apps = s.fls.apps ++ [(s.fls.taken + s.jrn.q.length, c, none)]
            ∧ (u.ringOf c.ring).cpls = (s.ringOf c.ring).cpls)
        ∧ (code = 0 → s.qRoom 141 1 = false → ∃ u, exec (.journalAppend c t) s = .next u ∧ u.completed c stABORTED 0
            ∧ u.on FLS.STICKY_JRN_LOST = true ∧ u.fls = s.fls))
      ∧ (∀ code, code = a.flsCode c busy →
        (code ≠ 0 → ∃ u, exec (.imageWrite c busy none chk out t) s = .next u ∧ u.failed c code ∧ u.fls = s.fls)
        ∧ (code = 0 →
          (a.copyCode (c.u 12 1) chk = stOK → ∃ u, exec (.imageWrite c busy none chk out t) s = .next u ∧ u.completed c stOK (c.u 8 4)
              ∧ (u.img (c.u 12 1) (c.u 13 1)).valid = true ∧ (u.img (c.u 12 1) (c.u 13 1)).bytes = s.bytesAt (c.u 0 8) (c.u 8 4)
              ∧ (c.u 12 1 ≠ 15 → (u.img (c.u 12 1) (c.u 13 1)).version = chk.version % 2 ^ 16)
              ∧ (out.imgBad = [] → ∀ i, i ≠ 4 * c.u 12 1 + c.u 13 1 → Store.get (fun _ => noImg) u.fls.imgs i = Store.get (fun _ => noImg) s.fls.imgs i))
          ∧ (∀ st, st = a.copyCode (c.u 12 1) chk → st ≠ stOK → ∃ u, exec (.imageWrite c busy none chk out t) s = .next u
              ∧ u.completed c st 0 ∧ u.img (c.u 12 1) (c.u 13 1) = noImg ∧ u.on FLS.STICKY_IMAGE_FAIL = true)
          ∧ (∃ u st, exec (.imageWrite c busy (some e) chk out t) s = .next u ∧ u.completed c st 0 ∧ st = (if e = 3 then stPOISONED else stABORTED)
              ∧ u.img (c.u 12 1) (c.u 13 1) = noImg ∧ u.on FLS.STICKY_IMAGE_FAIL = true)))
      ∧ (∀ code, code = a.flsCode c busy → c.opcode = 3 →
        (code ≠ 0 → ∃ u, exec (.imageCommit c busy out t) s = .next u ∧ u.failed c code ∧ u.fls = s.fls)
        ∧ (code = 0 → ∃ u, exec (.imageCommit c busy out t) s = .next u ∧ u.completed c stOK 0 ∧ u.prefers (c.u 0 1) = c.u 1 1
            ∧ (∀ k, k ≤ 7 ∨ k = 15 → k ≠ c.u 0 1 → u.prefers k = s.prefers k)
            ∧ u.rd FLS.BOOTREC_GEN = (s.rd FLS.BOOTREC_GEN + 1) % 2 ^ 16 ∧ u.fls.oldRec = s.nreg FLS.BOOTREC
            ∧ (bitAt (c.u 2 1) 0 = true → u.minVersion (c.u 0 1) = max (s.minVersion (c.u 0 1)) (s.img (c.u 0 1) (c.u 1 1)).version)
            ∧ (bitAt (c.u 2 1) 0 = false → u.fls.minVer = s.fls.minVer)))
      ∧ (∀ code us good, code = a.flsCode c busy → us = a.readUnits (c.u 0 1) (c.u 1 1) (c.u 2 6) (c.u 8 4) →
          good = us.takeWhile (fun x => x.isSome) → (good.flatMap (fun x => x.getD [])).length ≤ 2 ^ 64 →
        (code ≠ 0 → ∃ u, exec (.flsRead c busy none out t) s = .next u ∧ u.failed c code ∧ u.mem = s.mem)
        ∧ (code = 0 → (∃ u, exec (.flsRead c busy none nandClean t) s = .next u
              ∧ u.completed c (if good.length < us.length then stPOISONED else stOK) good.length
              ∧ (∀ i, i < (good.flatMap (fun x => x.getD [])).length → u.byteAt (c.u 12 8 + i) = (good.flatMap (fun x => x.getD [])).getD i 0)
              ∧ (∀ x, (∀ i, i < (good.flatMap (fun x => x.getD [])).length → (c.u 12 8 + i) % 2 ^ 64 ≠ x) → Store.get dByte u.mem x = Store.get dByte s.mem x))
          ∧ (∀ n got, got = (good.take n).flatMap (fun x => x.getD []) → ∃ u, exec (.flsRead c busy (some (e, n)) nandClean t) s = .next u
              ∧ u.completed c stABORTED (good.take n).length ∧ u.on HIF.STICKY_DMA_ABORT = true
              ∧ (∀ i, i < got.length → u.byteAt (c.u 12 8 + i) = got.getD i 0))))
      ∧ (c.block = 20 → (∀ x ∈ s.fls.apps, x.2.1 ≠ c) → a.flsCode c false = 0 → ∃ u, exec (.nandTimeout c t) s = .next u
          ∧ u.completed c stTIMEOUT 0 ∧ u.on FLS.STICKY_NAND_FAIL = true)
      ∧ (c.block = 20 → (∃ x ∈ s.fls.apps, x.2.1 = c) → ∃ u, exec (.nandTimeout c t) s = .next u ∧ u.completed c stTIMEOUT 0
          ∧ (∀ x ∈ u.fls.apps, x.2.1 ≠ c) ∧ u.on FLS.STICKY_NAND_FAIL = true))
    ∧ (c.block ≠ 20 → exec (.nandTimeout c t) s = .next a)
    ∧ (∀ r rest b, s.jrn.q = r :: rest → b = ⟨s.jrnSeq, chainCheck (s.reg64 FLS.CHECK_LO) (r.head s.jrnSeq), r, a.raw⟩ →
      b.bytes.length = 64
      ∧ (s.jrn.buf.length < 2048 → ∃ u, exec (.journalRecord t) s = .next u ∧ u.jrn.buf = s.jrn.buf ++ [b] ∧ u.jrnSeq = (s.jrnSeq + 1) % 2 ^ 48
          ∧ u.reg64 FLS.CHECK_LO = b.check ∧ (∃ more, u.jrn.q = rest ++ more) ∧ u.fls.taken = s.fls.taken + 1
          ∧ (∀ x, s.fls.apps.find? (fun y => y.1 == s.fls.taken && y.2.2.isNone) = some (s.fls.taken, x, none) → s.accepts x →
              (bitAt (x.u 2 1) 0 = false → u.completed x stOK (x.u 0 1) ∧ u.fls.apps = s.fls.apps.erase (s.fls.taken, x, none))
              ∧ (bitAt (x.u 2 1) 0 = true → (s.fls.taken, x, some s.jrnSeq) ∈ u.fls.apps)))
      ∧ (2048 ≤ s.jrn.buf.length → s.readOnly = false → exec (.journalRecord t) s = .next a)
      ∧ (2048 ≤ s.jrn.buf.length → s.readOnly = true → ∃ u, exec (.journalRecord t) s = .next u ∧ u.jrn.buf = s.jrn.buf.drop 1 ++ [b]
          ∧ (s.qRoom 141 3 = true → u.nreg FLS.JRN_LOST = (s.nreg FLS.JRN_LOST + 1) % 2 ^ 32) ∧ u.on FLS.STICKY_JRN_LOST = true ∧ ∃ more, u.jrn.q = rest ++ more))
    ∧ (s.jrn.q = [] → exec (.journalRecord t) s = .next a)
    ∧ (∀ l, (s.jrn.buf.take 240).getLast? = some l → 240 ≤ s.jrn.buf.length → s.canProgram = true → s.domState 41 < 2 →
        l.seq < 2 ^ 48 → out.grown = 0 →
        ∃ u, exec (.journalPageProgram out t) s = .next u ∧ u.jrn.buf = s.jrn.buf.drop 240 ∧ u.reg48 FLS.DURABLE_LO = l.seq
          ∧ u.reg48 FLS.PAGES_LO = (s.reg48 FLS.PAGES_LO + 1) % 2 ^ 48 ∧ u.fls.made = s.fls.made + 1
          ∧ u.fls.pages.getLast? = some (s.fls.made, s.jrn.buf.take 240)
          ∧ (s.fls.made % 256 ≠ 0 ∨ 8 < s.jrnFree → u.fls.pages = s.fls.pages ++ [(s.fls.made, s.jrn.buf.take 240)])
          ∧ (∀ x ∈ u.fls.apps, ∀ n, x.2.2 = some n → l.seq < n))
    ∧ (s.jrn.buf.length < 240 ∨ s.canProgram = false ∨ 2 ≤ s.domState 41 → exec (.journalPageProgram out t) s = .next a)
    ∧ (∀ b, s.jrn.buf.head? = some b → s.canProgram = true → s.domState 41 < 2 →
      (b.raw + s.rd FLS.CTRL_FLUSH_S * qSec ≤ a.raw → ∃ u, exec (.journalFlushTimeout out t) s = .next u ∧ u.jrn.buf = []
          ∧ u.reg48 FLS.PAGES_LO = (s.reg48 FLS.PAGES_LO + ceilDiv s.jrn.buf.length 240) % 2 ^ 48
          ∧ (s.jrn.buf.length % 240 ≠ 0 → (u.reg48 FLS.DURABLE_LO + 1) % 2 ^ 48 = u.jrnSeq
              ∧ u.jrnSeq = (s.jrnSeq + (240 - s.jrn.buf.length % 240)) % 2 ^ 48))
      ∧ (a.raw < b.raw + s.rd FLS.CTRL_FLUSH_S * qSec → exec (.journalFlushTimeout out t) s = .next a))
    ∧ (s.jrn.buf = [] ∨ s.canProgram = false → exec (.journalFlushTimeout out t) s = .next a)
    ∧ (s.mode = 8 → 1536 ≤ s.jrn.buf.length → s.canProgram = true → ∃ u, exec (.flowstoneKaCycle out t) s = .next u
        ∧ u.jrn.buf = [] ∧ u.reg48 FLS.PAGES_LO = (s.reg48 FLS.PAGES_LO + ceilDiv s.jrn.buf.length 240) % 2 ^ 48
        ∧ u.nreg PWR.WAKES = (s.nreg PWR.WAKES + 1) % 2 ^ 32 ∧ u.nreg PWR.WAKE_LAST = 5 + 2 ^ 16 * (a.sec0 % 65536) ∧ u.mode = 8)
    ∧ (s.mode ≠ 8 ∨ s.jrn.buf.length < 1536 ∨ s.canProgram = false → exec (.flowstoneKaCycle out t) s = .next a)
    ∧ (s.on FLS.STAT_SCRUBBING = false → s.mediumOk = true → s.domState 41 < 2 →
      (s.fls.scrubSec + s.rd FLS.CTRL_SCRUB_DAYS * 86400 ≤ a.sec0 → ∃ u, exec (.scrubPassStart t) s = .next u ∧ u.on FLS.STAT_SCRUBBING = true
          ∧ u = { a with regs := u.regs, fls := { s.fls with scrubSec := a.sec0 } } ∧ ∀ k, k ≠ FLS.STAT → u.reg k = s.reg k)
      ∧ (a.sec0 < s.fls.scrubSec + s.rd FLS.CTRL_SCRUB_DAYS * 86400 → exec (.scrubPassStart t) s = .next a))
    ∧ (s.on FLS.STAT_SCRUBBING = true → exec (.scrubPassStart t) s = .next a ∧ ∃ u, exec (.scrubPassEnd cm out t) s = .next u
        ∧ u.on FLS.STAT_SCRUBBING = false ∧ u.nreg FLS.SCRUB_STAT % 2 ^ 16 = (s.nreg FLS.SCRUB_STAT + 1) % 2 ^ 16 ∧ u.nreg FLS.CORR_MAX = cm % 256
        ∧ u.nreg FLS.SCRUB_LAST = a.sec0 % 2 ^ 32 ∧ u.on FLS.STICKY_SCRUB_DONE = true)
    ∧ (s.on FLS.STAT_SCRUBBING = false → exec (.scrubPassEnd cm out t) s = .next a)
    ∧ (s.mediumOk = true → s.domState 41 < 2 →
      (s.nreg FLS.WEAR % 2 ^ 16 + 64 < s.nreg FLS.WEAR / 2 ^ 16 → s.fls.moveRaw = 0 ∨ s.fls.moveRaw + 60 * qSec ≤ a.raw →
        ∃ u, exec (.wearLevelMove out t) s = .next u ∧ u.fls.moveRaw = max 1 a.raw
          ∧ (∀ x y, out.wear = some (x, y) → u.nreg FLS.WEAR = (x % 2 ^ 16 + 2 ^ 16 * y) % 2 ^ 32))
      ∧ (s.nreg FLS.WEAR / 2 ^ 16 ≤ s.nreg FLS.WEAR % 2 ^ 16 + 64 → exec (.wearLevelMove out t) s = .next a)
      ∧ (s.fls.moveRaw ≠ 0 → a.raw < s.fls.moveRaw + 60 * qSec → exec (.wearLevelMove out t) s = .next a))

/-- From a canonical state, for the domain a running request prepares: consent puts it into its state and the next one is
prepared, and after the last the request is done (a port sleeps, DOM_REQ is OK, the mode becomes Keep-alive); a refusal or no
consent within CONSENT_TO rolls the request back; a waking domain passes its three steps, back to Run with WAKES counted; a
step that times out is tried once more, then the domain is Off (the common domain Retain), FAILED, or for step 2 goes on
without XO_IN; a granted write of DOM_REQ with GO is answered by its code, or starts the move; a domain in Run that holds
nothing may doze and leave it; a rail or temperature shows its measurement and raises its alarm outside its limits. Where a
row's condition does not hold nothing changes. -/
def Obligations.DomainsSleepAndWake : Prop :=
  ∀ (m d b x val t : Nat) (mK delta : Int) (sc : WakeScrub) (s a : State), s.Canon → a = s.advance t → d < 43 →
    (∀ r, s.pwr.sleep = some r → r.todo.head? = some d → r.rolling = none →
      (∃ u, exec (.domainConsent d (some b) t) s = .next u ∧ a.rolledBack u r d 0 b)
      ∧ (∀ w, s.ownRefusal r.kind d = some w → ∃ u, exec (.domainConsent d none t) s = .next u ∧ a.rolledBack u r d 0 w)
      ∧ (s.ownRefusal r.kind d = none → d = 42 → s.hif.cmdQ ≠ [] → exec (.domainConsent d none t) s = .next a)
      ∧ (s.ownRefusal r.kind d = none → (d = 42 → s.hif.cmdQ = []) →
        (∀ st, r.todo = [d] → r.kind = .dom d st → st < 4 → ∃ u, exec (.domainConsent d none t) s = .next u ∧ u.domState d = st
            ∧ u.pwr.sleep = none ∧ u.rd PWR.DOM_REQ_STATUS = stOK ∧ u.on PWR.DOM_REQ_BUSY = false)
        ∧ (r.todo = [d] → r.kind = .port d → d < 32 → ∃ u, exec (.domainConsent d none t) s = .next u ∧ u.domState d = 3 ∧ u.pwr.sleep = none
            ∧ u.on (PRT.STAT_SLEEPING d) = true ∧ u.nreg PWR.PORT_SLEEPS = (s.nreg PWR.PORT_SLEEPS + 1) % 2 ^ 32)
        ∧ (∀ n rest, r.kind = .keepAlive → r.todo = d :: n :: rest → ∃ u, exec (.domainConsent d none t) s = .next u
            ∧ u.pwr.sleep = some { r with todo := n :: rest, stopped := d :: r.stopped, t0 := a.raw } ∧ u.rd PWR.SLEEP_STAT_DOMAIN = n % 64
            ∧ (∀ p ∈ s.members .keepAlive d, u.domState p = s.sleepState .keepAlive p))
        ∧ (r.kind = .keepAlive → r.todo = [42] → d = 42 → ∃ u, exec (.domainConsent d none t) s = .next u ∧ u.mode = 8 ∧ u.domState 42 = 2
            ∧ u.pwr.sleep = none ∧ u.requestDone stOK ∧ u.on PWR.STICKY_KA_ENTER = true ∧ u.pwr.kaRaw = a.raw))
      ∧ (r.t0 + s.nreg PWR.CONSENT_TO % 256 * 1000000 * qNs ≤ a.raw → ∃ u, exec (.consentTimeout d b t) s = .next u ∧ a.rolledBack u r d 1 b)
      ∧ (a.raw < r.t0 + s.nreg PWR.CONSENT_TO % 256 * 1000000 * qNs → exec (.consentTimeout d b t) s = .next a))
    ∧ (s.pwr.sleep = none ∨ (∃ r, s.pwr.sleep = some r ∧ (r.todo.head? ≠ some d ∨ r.rolling.isSome = true)) →
        (∀ o, exec (.domainConsent d o t) s = .next a) ∧ exec (.consentTimeout d b t) s = .next a)
    ∧ (∀ w, s.wakeOf d = some w →
      (w.step = 1 → ∃ u, exec (.wakeRegulatorDone d t) s = .next u ∧ u.wakeOf d = some ⟨d, if s.pwr.xoOff then 2 else 3, false, a.raw⟩
          ∧ (∀ e, e ≠ d → u.wakeOf e = s.wakeOf e) ∧ u = { a with pwr := { s.pwr with wakes := u.pwr.wakes } })
      ∧ (w.step ≠ 1 → exec (.wakeRegulatorDone d t) s = .next a)
      ∧ (w.step = 2 → ∃ u, exec (.wakeOscReady d delta t) s = .next u ∧ u.wakeOf d = some ⟨d, 3, false, a.raw⟩ ∧ u.pwr.xoOff = false
          ∧ u.on TSC.LO_STAT_XO_READY = true ∧ u.grottoActive = false)
      ∧ (w.step ≠ 2 → exec (.wakeOscReady d delta t) s = .next a)
      ∧ (w.step = 3 → sc.lost = [] → ∃ u, exec (.wakePllLock d sc t) s = .next u ∧ u.domState d = 0 ∧ u.on (domFailed d) = false
          ∧ u.nreg PWR.WAKES = (s.nreg PWR.WAKES + 1) % 2 ^ 32 ∧ u.wakeOf d = none)
      ∧ (w.step ≠ 3 → exec (.wakePllLock d sc t) s = .next a)
      ∧ (a.raw < w.t0 + stepLimitMs w.step * 1000000 * qNs → exec (.wakeStepTimeout d t) s = .next a)
      ∧ (w.t0 + stepLimitMs w.step * 1000000 * qNs ≤ a.raw →
        (w.again = false → ∃ u, exec (.wakeStepTimeout d t) s = .next u ∧ u.wakeOf d = some { w with again := true, t0 := a.raw }
            ∧ u = { a with pwr := { s.pwr with wakes := u.pwr.wakes } })
        ∧ (w.again = true → w.step = 2 → ∃ u, exec (.wakeStepTimeout d t) s = .next u ∧ u.wakeOf d = some ⟨d, 3, false, a.raw⟩
            ∧ u.pwr.xoOff = false ∧ u.on TSC.STICKY_LO_FAIL = true ∧ u.on PWR.STICKY_WAKE_FAILED = true)
        ∧ (w.again = true → w.step ≠ 2 → ∃ u, exec (.wakeStepTimeout d t) s = .next u ∧ u.domState d = (if d = 42 then 2 else 3)
            ∧ u.on (domFailed d) = true ∧ u.on PWR.STICKY_WAKE_FAILED = true ∧ u.nreg PWR.WAKE_FAILS = (s.nreg PWR.WAKE_FAILS + 1) % 2 ^ 32)))
    ∧ (s.wakeOf d = none → exec (.wakeRegulatorDone d t) s = .next a ∧ exec (.wakeOscReady d delta t) s = .next a
        ∧ exec (.wakePllLock d sc t) s = .next a ∧ exec (.wakeStepTimeout d t) s = .next a)
    ∧ (a.access m PWR.DOM_REQ .write = .denied → ∃ u, exec (.domReq m val t) s = .next u ∧ u.rd PWR.DOM_REQ_STATUS = stDENIED ∧ u.pwr = s.pwr)
    ∧ (a.access m PWR.DOM_REQ .write = .granted →
      (bitAt val 15 = false → ∃ u, exec (.domReq m val t) s = .next u ∧ u.rd PWR.DOM_REQ_DOMAIN = bitsOf val 0 6
          ∧ u.rd PWR.DOM_REQ_STATE = bitsOf val 8 2 ∧ u.rd PWR.DOM_REQ_STATUS = s.rd PWR.DOM_REQ_STATUS ∧ u = { a with regs := u.regs })
      ∧ (∀ st code, bitAt val 15 = true → d = bitsOf val 0 6 → st = bitsOf val 8 2 → code = a.domReqCode d st →
        (code ≠ 0 → ∃ u, exec (.domReq m val t) s = .next u ∧ u.rd PWR.DOM_REQ_STATUS = code ∧ u.pwr = s.pwr ∧ u.domState d = s.domState d)
        ∧ (code = 0 → s.domState d = st → ∃ u, exec (.domReq m val t) s = .next u ∧ u.rd PWR.DOM_REQ_STATUS = stOK
            ∧ u.on PWR.DOM_REQ_BUSY = false ∧ u.domState d = st ∧ u.pwr = s.pwr)
        ∧ (code = 0 → st = 0 → 2 ≤ s.domState d → ∃ u, exec (.domReq m val t) s = .next u ∧ u.on PWR.DOM_REQ_BUSY = true
            ∧ u.wakeOf d = some ⟨d, 1, false, a.raw⟩ ∧ u.pwr.sleep = some ⟨.dom d 0, [], [], a.raw, none⟩)
        ∧ (code = 0 → 2 ≤ st → s.domState d < 2 → ∃ u, exec (.domReq m val t) s = .next u ∧ u.on PWR.DOM_REQ_BUSY = true
            ∧ u.pwr.sleep = some ⟨.dom d st, [d], [], a.raw, none⟩ ∧ u.rd PWR.SLEEP_STAT_DOMAIN = d)
        ∧ (code = 0 → 2 ≤ st → 2 ≤ s.domState d → ∃ u, exec (.domReq m val t) s = .next u ∧ u.rd PWR.DOM_REQ_STATUS = stOK
            ∧ u.on PWR.DOM_REQ_BUSY = false ∧ u.domState d = st)))
    ∧ (s.domState d = 0 → domAbsent s.variant d = false → s.domHolds d = false → s.pwrBusy = false → ∃ u, exec (.dozeEnter d t) s = .next u
        ∧ u.domState d = 1 ∧ u = { a with regs := u.regs } ∧ ∀ k, k ≠ (domFld d).addr → u.reg k = s.reg k)
    ∧ (s.domState d ≠ 0 ∨ s.domHolds d = true ∨ s.pwrBusy = true → exec (.dozeEnter d t) s = .next a)
    ∧ (s.domState d = 1 → ∃ u, exec (.dozeExit d t) s = .next u ∧ u.domState d = 0 ∧ u = { a with regs := u.regs }
        ∧ ∀ k, k ≠ (domFld d).addr → u.reg k = s.reg k)
    ∧ (s.domState d ≠ 1 → exec (.dozeExit d t) s = .next a)
    ∧ (x < 10 →
      ((s.railRange x).1 ≤ val → val ≤ (s.railRange x).2 → ∃ u, exec (.railFault x val t) s = .next u ∧ u.nreg (PWR.RAIL_MV x) = val / 1000 % 2 ^ 32
          ∧ u.on ⟨PWR.RAIL_STAT, x, 1⟩ = true ∧ u = { a with regs := u.regs } ∧ ∀ k, k ≠ PWR.RAIL_MV x → k ≠ PWR.RAIL_STAT → u.reg k = s.reg k)
      ∧ (val < (s.railRange x).1 ∨ (s.railRange x).2 < val → ∃ u, exec (.railFault x val t) s = .next u ∧ u.nreg (PWR.RAIL_MV x) = val / 1000 % 2 ^ 32
          ∧ u.on ⟨PWR.RAIL_STAT, x, 1⟩ = false ∧ u.on PWR.STICKY_RAIL_FAULT = true ∧ Signals [PWR.RAIL_MV x, PWR.RAIL_STAT, PWR.STICKY] a u))
    ∧ (10 ≤ x → exec (.railFault x val t) s = .next a)
    ∧ ((s.rd PWR.CTRL_TJ_ALARM : Int) * 1000 ≤ mK → ∃ u, exec (.tempHigh mK t) s = .next u ∧ u.nreg PWR.TJ = ofSigned 32 mK
        ∧ u.on PWR.STICKY_TEMP_HIGH = true ∧ Signals [PWR.TJ, PWR.STICKY] a u)
    ∧ (mK < (s.rd PWR.CTRL_TJ_ALARM : Int) * 1000 → ∃ u, exec (.tempHigh mK t) s = .next u ∧ u.nreg PWR.TJ = ofSigned 32 mK
        ∧ u = { a with regs := u.regs } ∧ ∀ k, k ≠ PWR.TJ → u.reg k = s.reg k)

/-- From a canonical state: an enabled link whose lanes lock goes to PAIRING; there a proved and expected identity of the
other role takes it UP, a clash of roles or a wrong identity leaves it in PAIRING with its sticky bit, at the first try and
at each retry; loss of an UP link drops it and ends a running handover ABORTED; each timing frame is stamped, counted, and
with both departures known adds 2 phi = ((a_t - d_o) - (a_o - d_t)) - 2 ASYM; each second closes the mean as one sample; a
mirrored item is applied only in Twin-standby with MIRROR_EN on an UP link, else is refused with MIRROR_ERR; HANDOVER
completes with its code, or gives (Quiesce, phase 2) or takes (phase 1), goes to phase 3 as the reservations are gone, and
ends with the standby in service and the old engine in Twin-standby. Where a row's condition does not hold nothing changes. -/
def Obligations.TwinLinkMirrorAndHandover : Prop :=
  ∀ (p : Peer) (f : TimingFrame) (c : HostCmd) (item : MirrorItem) (step allows : Bool) (x y t : Nat) (s a : State), s.Canon → a = s.advance t →
    (s.on TWN.CTRL_EN = true → s.rd TWN.STAT_LINK < 2 → ∃ u, exec (.nirelLinkLock t) s = .next u ∧ u.rd TWN.STAT_LINK = 2
        ∧ u = { a with regs := u.regs } ∧ ∀ k, k ≠ TWN.STAT → u.reg k = s.reg k)
    ∧ (s.on TWN.CTRL_EN = false ∨ 2 ≤ s.rd TWN.STAT_LINK → exec (.nirelLinkLock t) s = .next a)
    ∧ (s.rd TWN.STAT_LINK = 2 → s.on TWN.CTRL_EN = true →
      (p.role % 2 ≠ s.rd TWN.CTRL_ROLE → p.proved = true → s.peerMatches p.pub = true → s.on KEY.STAT_DEVKEY_OK = true →
        ∃ u, exec (.nirelPairing p t) s = .next u ∧ exec (.nirelPairingRetry p t) s = .next u ∧ u.rd TWN.STAT_LINK = 3
          ∧ u.rd TWN.STAT_PEER_ROLE = p.role % 2 ∧ u.nreg TWN.PEER_SERIAL = p.serial % 2 ^ 32 ∧ u.rd TWN.STAT_PEER_MODE = p.mode % 16
          ∧ u.on TWN.STICKY_LINK_UP = true ∧ Signals [TWN.STAT, TWN.PEER_SERIAL, TWN.MIRROR_STAT, TWN.STICKY] a u
          ∧ (s.mode = 4 → p.mode = 4 → u.on TWN.STICKY_BOTH_ACTIVE = true))
      ∧ (p.role % 2 = s.rd TWN.CTRL_ROLE → ∃ u, exec (.nirelPairing p t) s = .next u ∧ exec (.nirelPairingRetry p t) s = .next u
          ∧ u.rd TWN.STAT_LINK = 2 ∧ u.on TWN.STICKY_ROLE_CLASH = true ∧ Signals [TWN.STICKY] a u)
      ∧ (p.proved = false ∨ s.peerMatches p.pub = false → ∃ u, exec (.nirelPairing p t) s = .next u ∧ exec (.nirelPairingRetry p t) s = .next u
          ∧ u.rd TWN.STAT_LINK = 2 ∧ u.on TWN.STICKY_PEER_BAD = true ∧ Signals [TWN.STICKY] a u))
    ∧ (s.rd TWN.STAT_LINK ≠ 2 ∨ s.on TWN.CTRL_EN = false → exec (.nirelPairing p t) s = .next a ∧ exec (.nirelPairingRetry p t) s = .next a)
    ∧ (∃ u, exec (.nirelLinkDown t) s = .next u ∧ u.rd TWN.STAT_LINK = 0
        ∧ (s.rd TWN.STAT_LINK = 3 → u.on TWN.STICKY_LINK_DOWN = true ∧ u.nreg TWN.LINK_DOWNS = (s.nreg TWN.LINK_DOWNS + 1) % 2 ^ 32
            ∧ u.twn.bad = true ∧ u.twn.ho = none ∧ ∀ h k, s.twn.ho = some h → h.cmd = some k → s.accepts k → u.completed k stABORTED 0)
        ∧ (s.rd TWN.STAT_LINK ≠ 3 → u = { a with regs := u.regs }))
    ∧ (s.comparing = true → ∃ u, exec (.timingFrameTx t) s = .next u ∧ u.twn.sentT0 = some (a.tsNow 0 + 256 * s.nreg TWN.CAL_TX)
        ∧ u.reg48 TWN.FRAMES_TX_LO = (s.reg48 TWN.FRAMES_TX_LO + 1) % 2 ^ 48
        ∧ u = { a with regs := u.regs, twn := { s.twn with sentT0 := u.twn.sentT0 } })
    ∧ (s.comparing = false → exec (.timingFrameTx t) s = .next a)
    ∧ (s.rd TWN.STAT_LINK = 3 →
      (∃ u, exec (.timingFrameRx none x t) s = .next u ∧ u.nreg TWN.CRC_ERRS = (s.nreg TWN.CRC_ERRS + 1) % 2 ^ 32 ∧ u = { a with regs := u.regs }
        ∧ ∀ k, k ≠ TWN.CRC_ERRS → u.reg k = s.reg k)
      ∧ (∃ u, exec (.timingFrameRx (some f) x t) s = .next u ∧ u.reg48 TWN.FRAMES_RX_LO = (s.reg48 TWN.FRAMES_RX_LO + 1) % 2 ^ 48
        ∧ u.twn.peerFree = f.free ∧ u.rd TWN.STAT_PEER_MODE = f.mode % 16
        ∧ u.nreg TWN.PEER_QRANK = (if f.mode = 4 ∨ f.mode = 5 then f.qrank % 16 else 15)
        ∧ (∀ aT dO aO : Nat, ∀ v : Int, f.arrived = some aT → s.twn.sentT0 = some dO → s.on TWN.CTRL_CMP_EN = true → aO = a.tsAt 0 x →
            v = (((aT : Int) - dO) - (((aO : Int) - (256 * s.nreg TWN.CAL_RX : Nat)) - f.departed)) - 2 * s.sreg TWN.ASYM * 256 →
            u.twn.sum = s.twn.sum + v ∧ u.twn.n = s.twn.n + 1 ∧ u.sreg TWN.OFFSET = saturate 32 (truncDiv v 512))
        ∧ (f.arrived = none ∨ s.twn.sentT0 = none ∨ s.on TWN.CTRL_CMP_EN = false → u.twn.sum = s.twn.sum ∧ u.twn.n = s.twn.n)))
    ∧ (s.rd TWN.STAT_LINK ≠ 3 → ∀ o, exec (.timingFrameRx o x t) s = .next a)
    ∧ (s.comparing = true → ∃ u, exec (.twinSample t) s = .next u ∧ u.nreg TWN.SAMPLES = (s.nreg TWN.SAMPLES + 1) % 2 ^ 32
        ∧ u.twn.sum = 0 ∧ u.twn.n = 0 ∧ u.twn.bad = false
        ∧ (u.on TWN.STAT_CMP_VALID = true ↔ 0 < s.twn.n ∧ s.twn.bad = false ∧ s.twn.peerFree = false ∧ s.rd DSC.STATE_STATE ≠ 0))
    ∧ (s.comparing = false → s.on TWN.CTRL_CMP_EN = false ∨ s.twn.bad = false → ∃ u, exec (.twinSample t) s = .next u
        ∧ u.on TWN.STAT_CMP_VALID = false ∧ u.nreg TWN.SAMPLES = s.nreg TWN.SAMPLES ∧ u = { a with regs := u.regs, twn := u.twn })
    ∧ (s.mode = 7 → s.rd TWN.STAT_LINK = 3 → s.on TWN.CTRL_MIRROR_EN = true →
      (s.granted twinMaster item.place.1 item.place.2 .write = true →
        (∀ v, (a.setN TWN.MIRROR_LAG (min x (2 ^ 32 - 1))).mirrorApply item = some v → ∃ u, exec (.mirrorItemReceive item step x t) s = .next u
            ∧ u.on ⟨TWN.MIRROR_STAT, item.row, 1⟩ = step ∧ u = { v with regs := u.regs } ∧ ∀ k, k ≠ TWN.MIRROR_STAT → u.reg k = v.reg k)
        ∧ ((a.setN TWN.MIRROR_LAG (min x (2 ^ 32 - 1))).mirrorApply item = none → ∃ u, exec (.mirrorItemReceive item step x t) s = .next u
            ∧ u.on ⟨TWN.MIRROR_STAT, item.row, 1⟩ = false ∧ u.on TWN.STICKY_MIRROR_ERR = true
            ∧ u.nreg TWN.MIRROR_ERRS = (s.nreg TWN.MIRROR_ERRS + 1) % 2 ^ 32
            ∧ Signals [TWN.MIRROR_LAG, TWN.MIRROR_ERRS, TWN.MIRROR_STAT, TWN.STICKY] a u)
        ∧ (∀ i ws, item = .grant i ws → s.quadPresent (i / s.variant.grants) = true → (grantOf ws a.sec0).valid = true →
            ∃ u, exec (.mirrorItemReceive item step x t) s = .next u ∧ u.grantAt i = grantOf ws a.sec0)
        ∧ (∀ k, item = .keySlot k → s.on TWN.CTRL_MIRROR_KEYS = true → 0 < k.slot → k.slot + spanOf k.material.length ≤ 1024 →
            s.spanWriting k.slot (spanOf k.material.length) = false → ∃ u, exec (.mirrorItemReceive item step x t) s = .next u
              ∧ (u.keyAt k.slot).origin = 3 ∧ (u.keyAt k.slot).material = k.material ∧ (u.keyAt k.slot).valid = true))
      ∧ (s.granted twinMaster item.place.1 item.place.2 .write = false → ∃ u, exec (.mirrorItemReceive item step x t) s = .next u
          ∧ u.on TWN.STICKY_MIRROR_ERR = true ∧ u.nreg FAB.DENY_COUNT = (s.nreg FAB.DENY_COUNT + 1) % 2 ^ 32
          ∧ u.nreg TWN.MIRROR_LAG = min x (2 ^ 32 - 1)))
    ∧ (s.mode ≠ 7 ∨ s.rd TWN.STAT_LINK ≠ 3 ∨ s.on TWN.CTRL_MIRROR_EN = false → exec (.mirrorItemReceive item step x t) s = .next a)
    ∧ (s.accepts c → ∀ code, code = c.code [codeIf (decide (2 ≤ c.u 0 1) || !c.zero 1 32 || (c.u 0 1 % 2 == 1 && !allows)) stREFUSED,
          codeIf s.twn.ho.isSome stBUSY, codeIf (!s.hoModes (c.u 0 1 % 2 == 1)) stMODE_FORBIDS] →
      (code ≠ 0 → (∃ u, exec (.handoverTake c allows t) s = .next u ∧ u.failed c code ∧ u.twn = s.twn ∧ u.mode = s.mode)
        ∧ (allows = true → ∃ u, exec (.handoverGive c t) s = .next u ∧ u.failed c code ∧ u.twn = s.twn ∧ u.mode = s.mode))
      ∧ (code = 0 → c.u 0 1 % 2 = 0 → allows = true → ∃ u, exec (.handoverGive c t) s = .next u ∧ u.twn.ho = some ⟨some c, 0, a.raw⟩
          ∧ u.rd TWN.STAT_HO_PHASE = 2 ∧ u.wentTo s.mode 9)
      ∧ (code = 0 → c.u 0 1 % 2 = 1 → ∃ u, exec (.handoverTake c allows t) s = .next u ∧ u.twn.ho = some ⟨some c, 1, a.raw⟩
          ∧ u.rd TWN.STAT_HO_PHASE = 1 ∧ u.mode = s.mode))
    ∧ (s.rd TWN.STAT_HO_PHASE = 2 → s.mode = 9 →
      ((∀ j ∈ s.rsp.jobs, j.st ≠ .held) → ∃ u, exec (.handoverDrainDone x y t) s = .next u ∧ u.rd TWN.STAT_HO_PHASE = 3
          ∧ u.reg48 TWN.MIRROR_BYTES_LO = (s.reg48 TWN.MIRROR_BYTES_LO + x) % 2 ^ 48 ∧ u.nreg TWN.KEY_XFERS = (s.nreg TWN.KEY_XFERS + y) % 2 ^ 32
          ∧ u = { a with regs := u.regs })
      ∧ ((∃ j ∈ s.rsp.jobs, j.st = .held) → exec (.handoverDrainDone x y t) s = .next a))
    ∧ (s.rd TWN.STAT_HO_PHASE ≠ 2 ∨ s.mode ≠ 9 → exec (.handoverDrainDone x y t) s = .next a)
    ∧ (s.rd TWN.STAT_LINK = 3 → s.mode = 9 → s.rd TWN.STAT_HO_PHASE = 3 → ∃ u, exec (.handoverDeltaAck t) s = .next u ∧ u.wentTo 9 7
        ∧ u.twn.act = false ∧ u.twn.ho = none ∧ u.on TWN.STICKY_HANDOVER = true ∧ u.nreg TWN.HANDOVERS = (s.nreg TWN.HANDOVERS + 1) % 2 ^ 32
        ∧ ∀ h k, s.twn.ho = some h → h.cmd = some k → s.accepts k → ⟨k.slot, stOK, k.block, 0, k.opcode, k.tag, 0, 1, none⟩ ∈ (u.ringOf k.ring).cpls)
    ∧ (s.rd TWN.STAT_LINK = 3 → s.mode = 7 → s.on TWN.CTRL_MIRROR_EN = true → ∃ u, exec (.handoverDeltaAck t) s = .next u
        ∧ u.wentTo 7 (if s.lacksSpare then 5 else 4) ∧ u.twn.act = true ∧ u.twn.ho = none ∧ u.nreg TWN.PEER_QRANK = 15
        ∧ u.nreg TWN.HANDOVERS = (s.nreg TWN.HANDOVERS + 1) % 2 ^ 32)
    ∧ (s.rd TWN.STAT_LINK ≠ 3 ∨ (s.mode ≠ 7 ∧ s.mode ≠ 9) → exec (.handoverDeltaAck t) s = .next a)

/-- From a canonical state whose units are in canonical form: TEST_BLOCK completes with its code, fences the unit and runs
its test, drops or recalibrates it in place for MODE 3, or, where a pipe's or engine's secrets do not clear, marks it
unusable and completes SIGNATURE_BAD; a test ends OK and restored, INCOMPLETE and as before, or SIGNATURE_BAD and unusable;
IDCODE, BYPASS and SAMPLE/PRELOAD load in every mode, EXTEST and INTEST only in Factory-test and otherwise act as BYPASS. A
freeze copies every counter at one edge and counts, or is skipped while a delivery runs; the PERIOD names its seconds;
COUNTER_SNAP completes with its code or starts a delivery, freezing first where FREEZE is 1; a delivery ends with its event
written, or lost and INCOMPLETE; the scrubber counts corrected and newly poisoned granules and its passes. Where a row's
condition does not hold nothing changes. -/
def Obligations.UnitsTestedCountersFrozen : Prop :=
  ∀ (c : HostCmd) (o : TestOut) (clr : Bool) (m val x y t : Nat) (s a : State), s.Canon → a = s.advance t →
    Store.wf dUnit s.bst.units = true →
    (s.accepts c → ∀ code, code = a.testCode c →
      (code ≠ 0 → ∃ u, exec (.testBlock c clr t) s = .next u ∧ u.failed c code ∧ u.bst = s.bst)
      ∧ (code = 0 → c.tMode = 3 → ∃ u, exec (.testBlock c clr t) s = .next u
          ∧ u.bst.test = some ⟨c, c.tKind, c.tIndex, 3, c.tPatterns, false⟩ ∧ u.on BST.STAT_RUNNING = true
          ∧ (c.tKind = 6 → u.on (PRT.STAT_CAL_VALID c.tIndex) = false) ∧ (c.tKind = 5 → (u.tch c.tIndex).cal.isSome = true))
      ∧ (code = 0 → c.tMode ≠ 3 → clr = true ∨ c.tMode = 1 ∨ (c.tKind ≠ 1 ∧ c.tKind ≠ 2) → ∃ u r, exec (.testBlock c clr t) s = .next u
          ∧ u.bst.test = some r ∧ r.cmd = c ∧ r.kind = c.tKind ∧ r.index = c.tIndex ∧ r.mode = c.tMode ∧ r.patterns = c.tPatterns
          ∧ (u.unit c.tKind c.tIndex).fenced = true ∧ u.on BST.STAT_RUNNING = true ∧ (c.tMode ≠ 1 → u.nreg BST.EXPECTED = c.tPatterns))
      ∧ (code = 0 → c.tMode ≠ 3 → clr = false → c.tMode ≠ 1 → c.tKind = 1 ∨ c.tKind = 2 → ∃ u n, exec (.testBlock c clr t) s = .next u
          ∧ u.bst.test = none ∧ (u.unit c.tKind c.tIndex).unusable = true ∧ u.nreg BST.SECRET_STAT = 1 + 2 ^ 4 * c.tKind + 2 ^ 8 * c.tIndex
          ∧ ⟨c.slot, stSIGNATURE_BAD, c.block, n, c.opcode, c.tag, 0, 1, none⟩ ∈ (u.ringOf c.ring).cpls))
    ∧ (∀ r, s.bst.test = some r → s.accepts r.cmd →
      (r.mode = 3 → ∃ u, exec (.testComplete o t) s = .next u ∧ u.completed r.cmd stOK (if r.mode = 0 ∨ r.mode = 2 then o.applied % 2 ^ 32 else s.nreg BST.APPLIED) ∧ u.bst.test = none
          ∧ u.nreg BST.RECALS = (s.nreg BST.RECALS + 1) % 2 ^ 32 ∧ u.on BST.STICKY_TEST_DONE = true)
      ∧ (r.mode ≠ 3 → o.done = false ∨ ((r.mode = 0 ∨ r.mode = 2) ∧ o.applied ≠ r.patterns) → ∃ u, exec (.testComplete o t) s = .next u
          ∧ u.completed r.cmd stINCOMPLETE (if r.mode = 0 ∨ r.mode = 2 then o.applied % 2 ^ 32 else s.nreg BST.APPLIED) ∧ u.bst.test = none ∧ (u.unit r.kind r.index).fenced = false
          ∧ (u.unit r.kind r.index).unusable = (s.unit r.kind r.index).unusable ∧ u.on BST.STICKY_INCOMPLETE = true)
      ∧ (r.mode ≠ 3 → o.done = true → ((r.mode = 0 ∨ r.mode = 2) → o.applied = r.patterns) →
        (o.memFails ≠ 0 ∨ ((r.mode = 0 ∨ r.mode = 2) ∧ o.sigOk = false) → ∃ u, exec (.testComplete o t) s = .next u ∧ u.bst.test = none
            ∧ (u.unit r.kind r.index).unusable = true ∧ u.on BST.STICKY_UNUSABLE = true ∧ u.on BST.STICKY_TEST_FAIL = true
            ∧ ⟨r.cmd.slot, stSIGNATURE_BAD, r.cmd.block, (if r.mode = 0 ∨ r.mode = 2 then o.applied % 2 ^ 32 else s.nreg BST.APPLIED), r.cmd.opcode, r.cmd.tag, 0, 1, none⟩ ∈ (u.ringOf r.cmd.ring).cpls)
        ∧ (o.memFails = 0 → ((r.mode = 0 ∨ r.mode = 2) → o.sigOk = true) → ∃ u, exec (.testComplete o t) s = .next u ∧ u.bst.test = none
            ∧ (u.unit r.kind r.index).unusable = false ∧ (u.unit r.kind r.index).fenced = false ∧ u.on BST.STICKY_TEST_DONE = true
            ∧ ⟨r.cmd.slot, stOK, r.cmd.block, (if r.mode = 0 ∨ r.mode = 2 then o.applied % 2 ^ 32 else s.nreg BST.APPLIED), r.cmd.opcode, r.cmd.tag, 0, 1, none⟩ ∈ (u.ringOf r.cmd.ring).cpls)))
    ∧ (s.bst.test = none → exec (.testComplete o t) s = .next a)
    ∧ exec (.jtagIdcode t) s = .next { a with bst := { s.bst with jtag := .idcode } }
    ∧ exec (.jtagBypass t) s = .next { a with bst := { s.bst with jtag := .bypass } }
    ∧ exec (.jtagSamplePreload t) s = .next { a with bst := { s.bst with jtag := .sample } }
    ∧ exec (.jtagExtest t) s = .next { a with bst := { s.bst with jtag := if s.mode = 11 then .extest else .bypass } }
    ∧ exec (.jtagIntest t) s = .next { a with bst := { s.bst with jtag := if s.mode = 11 then .intest else .bypass } }
    ∧ (bitAt val 0 = true → a.access m PMC.FREEZE .write = .granted →
      (s.pmc.delivering = [] → ∃ u, exec (.globalFreeze m val t) s = .next u ∧ u.pmc.frozen = a.liveCounts ∧ u.pmc.freezes = (s.pmc.freezes + 1) % 2 ^ 32
          ∧ u.reg96 PMC.FREEZE_TIME_LO = a.tsNow 0 ∧ u.on PMC.STICKY_FROZE = true
          ∧ u.pmc.delivering = (if s.on PMC.CTRL_SNAP_EN then [⟨0, none⟩] else []))
      ∧ (s.pmc.delivering ≠ [] → ∃ u, exec (.globalFreeze m val t) s = .next u ∧ u.pmc.frozen = s.pmc.frozen
          ∧ u.nreg PMC.FREEZE_SKIPPED = (s.nreg PMC.FREEZE_SKIPPED + 1) % 2 ^ 32 ∧ u.on PMC.STICKY_FREEZE_SKIP = true
          ∧ Signals [PMC.FREEZE_SKIPPED, PMC.STICKY] a u))
    ∧ (bitAt val 0 = false → exec (.globalFreeze m val t) s = .next a)
    ∧ (1 ≤ s.rd PMC.CTRL_PERIOD → s.rd PMC.CTRL_PERIOD ≤ 10 → s.pmc.delivering = [] →
      (a.sec0 % 2 ^ (s.rd PMC.CTRL_PERIOD - 1) = 0 → ∃ u, exec (.periodicFreeze t) s = .next u ∧ u.pmc.frozen = a.liveCounts
          ∧ u.pmc.freezes = (s.pmc.freezes + 1) % 2 ^ 32 ∧ u.pmc.delivering = (if s.on PMC.CTRL_SNAP_EN then [⟨1, none⟩] else []))
      ∧ (a.sec0 % 2 ^ (s.rd PMC.CTRL_PERIOD - 1) ≠ 0 → exec (.periodicFreeze t) s = .next a))
    ∧ (s.rd PMC.CTRL_PERIOD = 0 ∨ 10 < s.rd PMC.CTRL_PERIOD → exec (.periodicFreeze t) s = .next a)
    ∧ (s.accepts c → ∀ code, code = c.code [codeIf (c.u 2 2 == 0) stZERO_LEN,
          codeIf (decide (1536 < c.u 0 2 + c.u 2 2) || bitsOf (c.u 4 2) 10 5 != 0 || !c.zero 6 32 || !s.ringIs c.fn 3 (c.u 4 2 % 1024)) stREFUSED,
          codeIf (!s.pmc.delivering.isEmpty) stBUSY, codeIf s.modeNoCmd stMODE_FORBIDS] →
      (code ≠ 0 → ∃ u, exec (.counterSnap c t) s = .next u ∧ u.failed c code ∧ u.pmc.delivering = s.pmc.delivering ∧ u.nreg PMC.SNAP_LAST = code % 2 ^ 32)
      ∧ (code = 0 → bitAt (c.u 4 2) 15 = false → ∃ u, exec (.counterSnap c t) s = .next u ∧ u.pmc = { s.pmc with delivering := [⟨2, some c⟩] }
          ∧ u.on ⟨PMC.FREEZE, 1, 1⟩ = true ∧ u = { a with regs := u.regs, pmc := u.pmc })
      ∧ (code = 0 → bitAt (c.u 4 2) 15 = true → ∃ u, exec (.counterSnap c t) s = .next u ∧ u.pmc.frozen = a.liveCounts
          ∧ u.pmc.delivering = (if s.on PMC.CTRL_SNAP_EN then [⟨2, none⟩, ⟨2, some c⟩] else [⟨2, some c⟩])))
    ∧ (∀ d rest, s.pmc.delivering = d :: rest →
      (∀ k r, d.cmd = some k → s.accepts k → r = a.sendEvent (k.u 4 2 % 1024) 11 (a.snapPayload (k.u 0 2) (k.u 2 2) d.flags false) →
        (r.2 = true → ∃ u, exec (.snapDeliveryEnd false t) s = .next u ∧ u.pmc.delivering = rest ∧ u.completed k stOK (k.u 2 2))
        ∧ (r.2 = false → ∃ u, exec (.snapDeliveryEnd false t) s = .next u ∧ u.pmc.delivering = rest ∧ u.completed k stINCOMPLETE 0
            ∧ u.on PMC.STICKY_SNAP_LOST = true))
      ∧ (d.cmd = none → ∃ u, exec (.snapDeliveryEnd false t) s = .next u ∧ u.pmc.delivering = rest ∧ u.on ⟨PMC.FREEZE, 1, 1⟩ = !rest.isEmpty))
    ∧ (s.pmc.delivering = [] → ∀ b, exec (.snapDeliveryEnd b t) s = .next a)
    ∧ (exec (.memoryScrubVisit x y .clean false t) s = .next a ∧ exec (.memoryScrubVisit x y (.poisoned false) false t) s = .next a
      ∧ (∃ u, exec (.memoryScrubVisit x y .corrected false t) s = .next u ∧ u.nreg PMC.ECC_CORR = (s.nreg PMC.ECC_CORR + 1) % 2 ^ 32
          ∧ u = { a with regs := u.regs } ∧ ∀ k, k ≠ PMC.ECC_CORR → u.reg k = s.reg k)
      ∧ (∃ u, exec (.memoryScrubVisit x y (.poisoned true) false t) s = .next u ∧ u.nreg PMC.ECC_UNCORR = (s.nreg PMC.ECC_UNCORR + 1) % 2 ^ 32
          ∧ u.nreg PMC.ECC_LAST = x % 32 + 2 ^ 8 * (y % 2 ^ 24) ∧ u.on PMC.STICKY_ECC_UNCORR = true
          ∧ Signals [PMC.ECC_UNCORR, PMC.ECC_LAST, PMC.STICKY] a u)
      ∧ (∀ res, ∃ u, exec (.memoryScrubVisit x y res true t) s = .next u ∧ u.on PMC.STICKY_SCRUB_DONE = true
          ∧ u.nreg PMC.SCRUB_STAT % 2 ^ 16 = (s.nreg PMC.SCRUB_STAT + 1) % 2 ^ 16))
end

