-- ==== Sys2Proof/Laws/Bits.lean ====
section
/-! SUPPORT. The laws of bit fields: what a field reads after a field of the same word was written. -/

namespace Sys2Proof.Machine

/-- A word split at a field. -/
theorem withBits_eq (x lo w v : Nat) :
    withBits x lo w v = 2 ^ lo * (2 ^ w * (x / 2 ^ (lo + w)) + v % 2 ^ w) + x % 2 ^ lo := by
  unfold withBits bitsOf
  rw [Nat.shiftRight_eq_div_pow]
  have h1 : x = 2 ^ lo * (x / 2 ^ lo) + x % 2 ^ lo := (Nat.div_add_mod x (2 ^ lo)).symm
  have h2 : x / 2 ^ lo = 2 ^ w * (x / 2 ^ (lo + w)) + x / 2 ^ lo % 2 ^ w := by
    rw [pow_add, ← Nat.div_div_eq_div_mul]
    exact (Nat.div_add_mod _ _).symm
  have h3 : x = 2 ^ lo * (2 ^ w * (x / 2 ^ (lo + w))) + x / 2 ^ lo % 2 ^ w * 2 ^ lo + x % 2 ^ lo := by
    conv_lhs => rw [h1, h2]
    ring
  have h4 : x - x / 2 ^ lo % 2 ^ w * 2 ^ lo = 2 ^ lo * (2 ^ w * (x / 2 ^ (lo + w))) + x % 2 ^ lo := by omega
  rw [h4]
  ring

/-- Bit `i` of a word with a field replaced. -/
theorem testBit_withBits (x lo w v i : Nat) :
    (withBits x lo w v).testBit i = if lo ≤ i ∧ i < lo + w then v.testBit (i - lo) else x.testBit i := by
  rw [withBits_eq, Nat.testBit_two_pow_mul_add _ (Nat.mod_lt _ (by positivity))]
  by_cases h : i < lo
  · have h1 : ¬ (lo ≤ i ∧ i < lo + w) := by omega
    simp [h, h1, Nat.testBit_mod_two_pow]
  · rw [if_neg h, Nat.testBit_two_pow_mul_add _ (Nat.mod_lt _ (by positivity))]
    by_cases h2 : i - lo < w
    · have h1 : lo ≤ i ∧ i < lo + w := by omega
      simp [h1, h2, Nat.testBit_mod_two_pow]
    · have h1 : ¬ (lo ≤ i ∧ i < lo + w) := by omega
      rw [if_neg h2, if_neg h1, Nat.testBit_div_two_pow]
      congr 1
      omega

theorem testBit_bitsOf (x lo w i : Nat) : (bitsOf x lo w).testBit i = (decide (i < w) && x.testBit (lo + i)) := by
  simp [bitsOf, Nat.testBit_mod_two_pow, Nat.testBit_shiftRight]

/-- A field written reads back. -/
theorem bitsOf_withBits (x lo w v : Nat) : bitsOf (withBits x lo w v) lo w = v % 2 ^ w := by
  apply Nat.eq_of_testBit_eq
  intro i
  rw [testBit_bitsOf, testBit_withBits, Nat.testBit_mod_two_pow]
  by_cases h : i < w
  · have : lo ≤ lo + i ∧ lo + i < lo + w := by omega
    simp [h]
  · simp [h]

/-- A field apart from the one written keeps its value. -/
theorem bitsOf_withBits_disj (x lo w v lo' w' : Nat) (h : lo' + w' ≤ lo ∨ lo + w ≤ lo') :
    bitsOf (withBits x lo w v) lo' w' = bitsOf x lo' w' := by
  apply Nat.eq_of_testBit_eq
  intro i
  rw [testBit_bitsOf, testBit_bitsOf, testBit_withBits]
  by_cases hi : i < w'
  · have : ¬ (lo ≤ lo' + i ∧ lo' + i < lo + w) := by omega
    simp [this]
  · simp [hi]

/-- A field written within a 32-bit word leaves a 32-bit word. -/
theorem withBits_lt (x lo w v : Nat) (hx : x < 2 ^ 32) (hw : lo + w ≤ 32) : withBits x lo w v < 2 ^ 32 := by
  apply Nat.lt_pow_two_of_testBit
  intro i hi
  rw [testBit_withBits]
  have h : ¬ (lo ≤ i ∧ i < lo + w) := by omega
  rw [if_neg h]
  exact Nat.testBit_lt_two_pow (lt_of_lt_of_le hx (Nat.pow_le_pow_right (by omega) hi))

theorem bitsOf_lt (x lo w : Nat) : bitsOf x lo w < 2 ^ w := Nat.mod_lt _ (by positivity)

end Sys2Proof.Machine
end

