-- ==== Sys2Proof/Laws/Store.lean ====
section
/-! SUPPORT. The laws of the sparse table: what a read gives after a write, and that every operation keeps the canonical form. -/

namespace Sys2Proof.Machine

variable {α : Type}

/-- A key below every listed one reads as its default. -/
theorem Store.get_of_lt [DecidableEq α] {d : Nat → α} {m : Store α} {lo k : Nat} (h : Store.wfFrom d lo m = true)
    (hk : k < lo) : Store.get d m k = d k := by
  cases m with
  | nil => rfl
  | cons e r =>
    obtain ⟨a, v⟩ := e
    simp only [Store.wfFrom, Bool.and_eq_true, decide_eq_true_eq] at h
    have h1 : ¬ a = k := by omega
    have h2 : k < a := by omega
    simp [Store.get, h1, h2]

theorem Store.wfFrom_mono [DecidableEq α] {d : Nat → α} {m : Store α} {lo lo' : Nat} (h : Store.wfFrom d lo m = true)
    (hl : lo' ≤ lo) : Store.wfFrom d lo' m = true := by
  cases m with
  | nil => rfl
  | cons e r =>
    obtain ⟨a, v⟩ := e
    simp only [Store.wfFrom, Bool.and_eq_true, decide_eq_true_eq] at h ⊢
    exact ⟨⟨by omega, h.1.2⟩, h.2⟩

/-- A write of something else than the default reads back, whatever the table. -/
theorem Store.get_put_same_of_ne [DecidableEq α] {d : Nat → α} {m : Store α} {k : Nat} {v : α} (h : v ≠ d k) :
    Store.get d (Store.put d m k v) k = v := by
  induction m with
  | nil => simp [Store.put, Store.get, h]
  | cons e r ih =>
    obtain ⟨a, w⟩ := e
    unfold Store.put
    split
    · simp [Store.get]
    · split
      · simp [Store.get]
      · rename_i h1 h2
        simp [Store.get, h1, h2, ih]

/-- In canonical form a write reads back. -/
theorem Store.get_put_same_from [DecidableEq α] {d : Nat → α} {m : Store α} {lo k : Nat} {v : α}
    (h : Store.wfFrom d lo m = true) : Store.get d (Store.put d m k v) k = v := by
  by_cases hv : v = d k
  · subst hv
    induction m generalizing lo with
    | nil => simp [Store.put, Store.get]
    | cons e r ih =>
      obtain ⟨a, w⟩ := e
      simp only [Store.wfFrom, Bool.and_eq_true, decide_eq_true_eq] at h
      unfold Store.put
      split
      · rename_i h1
        subst h1
        simpa using Store.get_of_lt h.2 (by omega)
      · split
        · rename_i h1 h2
          simp [Store.get, h1, h2]
        · rename_i h1 h2
          simp [Store.get, h1, h2, ih h.2]
  · exact Store.get_put_same_of_ne hv

/-- In canonical form a write leaves every other key alone. -/
theorem Store.get_put_ne_from [DecidableEq α] {d : Nat → α} {m : Store α} {lo k j : Nat} {v : α}
    (h : Store.wfFrom d lo m = true) (hj : j ≠ k) : Store.get d (Store.put d m k v) j = Store.get d m j := by
  induction m generalizing lo with
  | nil =>
    unfold Store.put
    split
    · rfl
    · simp [Store.get, Ne.symm hj]
  | cons e r ih =>
    obtain ⟨a, w⟩ := e
    simp only [Store.wfFrom, Bool.and_eq_true, decide_eq_true_eq] at h
    unfold Store.put
    split
    · rename_i h1
      subst h1
      split
      · by_cases hja : j < a
        · rw [Store.get_of_lt h.2 (by omega)]
          simp [Store.get, Ne.symm hj, hja]
        · simp [Store.get, Ne.symm hj, hja]
      · simp [Store.get, Ne.symm hj]
    · rename_i h1
      split
      · rename_i h2
        split
        · rfl
        · by_cases hjk : j < k
          · have h3 : ¬ a = j := by omega
            have h4 : j < a := by omega
            simp [Store.get, Ne.symm hj, hjk, h3, h4]
          · simp [Store.get, Ne.symm hj, hjk]
      · simp only [Store.get, ih h.2]

theorem Store.put_wfFrom [DecidableEq α] {d : Nat → α} {m : Store α} {lo k : Nat} {v : α}
    (h : Store.wfFrom d lo m = true) (hk : lo ≤ k) : Store.wfFrom d lo (Store.put d m k v) = true := by
  induction m generalizing lo with
  | nil =>
    unfold Store.put
    split
    · rfl
    · rename_i hv
      simp [Store.wfFrom, hk, hv]
  | cons e r ih =>
    obtain ⟨a, w⟩ := e
    simp only [Store.wfFrom, Bool.and_eq_true, decide_eq_true_eq] at h
    unfold Store.put
    split
    · rename_i h1
      subst h1
      split
      · exact Store.wfFrom_mono h.2 (by omega)
      · rename_i hv
        simp [Store.wfFrom, hk, hv, h.2]
    · split
      · rename_i h1 h2
        split
        · simp [Store.wfFrom, h.1.1, h.1.2, h.2]
        · rename_i hv
          simp only [Store.wfFrom, Bool.and_eq_true, decide_eq_true_eq]
          exact ⟨⟨hk, hv⟩, ⟨by omega, h.1.2⟩, h.2⟩
      · rename_i h1 h2
        simp only [Store.wfFrom, Bool.and_eq_true, decide_eq_true_eq]
        exact ⟨h.1, ih h.2 (by omega)⟩

/-- In canonical form a write reads back. -/
theorem Store.get_put_same [DecidableEq α] {d : Nat → α} {m : Store α} {k : Nat} {v : α} (h : Store.wf d m = true) :
    Store.get d (Store.put d m k v) k = v := Store.get_put_same_from h

/-- In canonical form a write leaves every other key alone. -/
theorem Store.get_put_ne [DecidableEq α] {d : Nat → α} {m : Store α} {k j : Nat} {v : α} (h : Store.wf d m = true)
    (hj : j ≠ k) : Store.get d (Store.put d m k v) j = Store.get d m j := Store.get_put_ne_from h hj

/-- A write keeps the canonical form. -/
theorem Store.put_wf [DecidableEq α] {d : Nat → α} {m : Store α} {k : Nat} {v : α} (h : Store.wf d m = true) :
    Store.wf d (Store.put d m k v) = true := Store.put_wfFrom h (Nat.zero_le k)

theorem Store.wfFrom_filter [DecidableEq α] {d : Nat → α} {m : Store α} {lo : Nat} (p : Nat × α → Bool)
    (h : Store.wfFrom d lo m = true) : Store.wfFrom d lo (m.filter p) = true := by
  induction m generalizing lo with
  | nil => rfl
  | cons e r ih =>
    obtain ⟨a, w⟩ := e
    simp only [Store.wfFrom, Bool.and_eq_true, decide_eq_true_eq] at h
    rw [List.filter_cons]
    split
    · simp only [Store.wfFrom, Bool.and_eq_true, decide_eq_true_eq]
      exact ⟨h.1, ih h.2⟩
    · exact Store.wfFrom_mono (ih h.2) (by omega)

/-- Leaving entries out keeps the canonical form. -/
theorem Store.filter_wf [DecidableEq α] {d : Nat → α} {m : Store α} (p : Nat × α → Bool) (h : Store.wf d m = true) :
    Store.wf d (m.filter p) = true := Store.wfFrom_filter p h

/-- Rising keys alone: what the canonical form gives where no default is asked for. -/
theorem Store.rising_filter {m : Store α} (p : Nat × α → Bool) (h : m.rising) : Store.rising (m.filter p) :=
  List.Pairwise.filter p h

theorem Store.put_keys [DecidableEq α] {d : Nat → α} {m : Store α} {k : Nat} {v : α} {e : Nat × α}
    (h : e ∈ Store.put d m k v) : e.1 = k ∨ e ∈ m := by
  induction m with
  | nil =>
    unfold Store.put at h
    split at h
    · simp at h
    · simp at h
      simp [h]
  | cons x r ih =>
    obtain ⟨a, w⟩ := x
    unfold Store.put at h
    split at h
    · split at h
      · simp [h]
      · simp at h
        rcases h with h | h <;> simp [h]
    · split at h
      · split at h
        · exact .inr h
        · simp at h
          rcases h with h | h | h <;> simp [h]
      · simp at h
        rcases h with h | h
        · simp [h]
        · rcases ih h with h | h <;> simp [h]

/-- What a write leaves in the table: the entry written, or one that stood there. -/
theorem Store.put_val [DecidableEq α] {d : Nat → α} {m : Store α} {k : Nat} {v : α} {e : Nat × α}
    (h : e ∈ Store.put d m k v) : e = (k, v) ∨ e ∈ m := by
  induction m with
  | nil =>
    unfold Store.put at h
    split at h <;> simp_all
  | cons x r ih =>
    obtain ⟨a, w⟩ := x
    unfold Store.put at h
    split at h
    · split at h
      · exact .inr (List.mem_cons_of_mem _ h)
      · rcases List.mem_cons.mp h with h | h
        · exact .inl h
        · exact .inr (List.mem_cons_of_mem _ h)
    · split at h
      · split at h
        · exact .inr h
        · rcases List.mem_cons.mp h with h | h
          · exact .inl h
          · exact .inr h
      · rcases List.mem_cons.mp h with h | h
        · exact .inr (h ▸ List.mem_cons_self ..)
        · rcases ih h with h | h
          · exact .inl h
          · exact .inr (List.mem_cons_of_mem _ h)

/-- A table gives an entry of its own, or the default. -/
theorem Store.get_mem (d : Nat → α) (m : Store α) (k : Nat) : Store.get d m k = d k ∨ (k, Store.get d m k) ∈ m := by
  induction m with
  | nil => exact .inl rfl
  | cons x r ih =>
    obtain ⟨a, w⟩ := x
    unfold Store.get
    split
    · rename_i e
      subst e
      exact .inr (List.mem_cons_self ..)
    · split
      · exact .inl rfl
      · rcases ih with h | h
        · exact .inl h
        · exact .inr (List.mem_cons_of_mem _ h)

/-- A write keeps keys rising. -/
theorem Store.put_rising [DecidableEq α] {d : Nat → α} {m : Store α} {k : Nat} {v : α} (h : m.rising) :
    Store.rising (Store.put d m k v) := by
  induction m with
  | nil =>
    unfold Store.put
    split <;> simp [Store.rising]
  | cons x r ih =>
    obtain ⟨a, w⟩ := x
    have h' := List.pairwise_cons.1 h
    unfold Store.put
    split
    · rename_i h1
      subst h1
      split
      · exact h'.2
      · exact List.pairwise_cons.2 ⟨h'.1, h'.2⟩
    · split
      · rename_i h1 h2
        split
        · exact h
        · refine List.pairwise_cons.2 ⟨fun e he => ?_, h⟩
          rcases List.mem_cons.1 he with he | he
          · subst he; exact h2
          · have h3 : a < e.1 := h'.1 e he
            show k < e.1
            omega
      · rename_i h1 h2
        refine List.pairwise_cons.2 ⟨fun e he => ?_, ih h'.2⟩
        rcases Store.put_keys he with he | he
        · rw [he]
          show a < k
          omega
        · exact h'.1 e he

end Sys2Proof.Machine
end

