-- ==== Sys2Proof/Laws/Ops.lean ====
section
/-! SUPPORT. The laws of the register bank: what a register or a field reads after another was written. -/

namespace Sys2Proof.Machine

@[simp] theorem State.setReg_regsWf (s : State) (k : Nat) (w : Word) (h : s.RegsWf) : (s.setReg k w).RegsWf :=
  Store.put_wf h

theorem State.reg_setReg (s : State) (k : Nat) (w : Word) (h : s.RegsWf) : (s.setReg k w).reg k = w :=
  Store.get_put_same h

theorem State.reg_setReg_ne (s : State) (k j : Nat) (w : Word) (h : s.RegsWf) (hj : j ≠ k) : (s.setReg k w).reg j = s.reg j :=
  Store.get_put_ne h hj

theorem State.nreg_lt (s : State) (k : Nat) : s.nreg k < 2 ^ 32 := (s.reg k).isLt

@[simp] theorem State.setN_regsWf (s : State) (k v : Nat) (h : s.RegsWf) : (s.setN k v).RegsWf := s.setReg_regsWf _ _ h

theorem State.nreg_setN (s : State) (k v : Nat) (h : s.RegsWf) : (s.setN k v).nreg k = v % 2 ^ 32 := by
  unfold State.nreg State.setN
  rw [s.reg_setReg _ _ h, BitVec.toNat_ofNat]

theorem State.reg_setN_ne (s : State) (k j v : Nat) (h : s.RegsWf) (hj : j ≠ k) : (s.setN k v).reg j = s.reg j :=
  s.reg_setReg_ne _ _ _ h hj

theorem State.nreg_setN_ne (s : State) (k j v : Nat) (h : s.RegsWf) (hj : j ≠ k) : (s.setN k v).nreg j = s.nreg j := by
  unfold State.nreg
  rw [s.reg_setN_ne _ _ _ h hj]

theorem State.rd_setN_ne (s : State) (k v : Nat) (f : Fld) (h : s.RegsWf) (hj : f.addr ≠ k) : (s.setN k v).rd f = s.rd f := by
  unfold State.rd
  rw [s.nreg_setN_ne _ _ _ h hj]

/-- A field of a register that was written whole. -/
theorem State.rd_setN (s : State) (f : Fld) (v : Nat) (h : s.RegsWf) :
    (s.setN f.addr v).rd f = bitsOf (v % 2 ^ 32) f.lo f.w := by
  unfold State.rd
  rw [s.nreg_setN _ _ h]

@[simp] theorem State.wr_regsWf (s : State) (f : Fld) (v : Nat) (h : s.RegsWf) : (s.wr f v).RegsWf := s.setN_regsWf _ _ h

theorem State.nreg_wr (s : State) (f : Fld) (v : Nat) (h : s.RegsWf) (hw : f.lo + f.w ≤ 32) :
    (s.wr f v).nreg f.addr = withBits (s.nreg f.addr) f.lo f.w v := by
  unfold State.wr
  rw [s.nreg_setN _ _ h, Nat.mod_eq_of_lt (withBits_lt _ _ _ _ (s.nreg_lt _) hw)]

theorem State.reg_wr_ne (s : State) (f : Fld) (j v : Nat) (h : s.RegsWf) (hj : j ≠ f.addr) : (s.wr f v).reg j = s.reg j :=
  s.reg_setN_ne _ _ _ h hj

theorem State.nreg_wr_ne (s : State) (f : Fld) (j v : Nat) (h : s.RegsWf) (hj : j ≠ f.addr) : (s.wr f v).nreg j = s.nreg j :=
  s.nreg_setN_ne _ _ _ h hj

/-- A field written reads back. -/
theorem State.rd_wr (s : State) (f : Fld) (v : Nat) (h : s.RegsWf) (hw : f.lo + f.w ≤ 32) : (s.wr f v).rd f = v % 2 ^ f.w := by
  unfold State.rd
  rw [s.nreg_wr _ _ h hw, bitsOf_withBits]

/-- A field of another register keeps its value. -/
theorem State.rd_wr_ne (s : State) (f g : Fld) (v : Nat) (h : s.RegsWf) (hj : g.addr ≠ f.addr) : (s.wr f v).rd g = s.rd g :=
  s.rd_setN_ne _ _ _ h hj

/-- A field of the same register, apart from the one written, keeps its value. -/
theorem State.rd_wr_disj (s : State) (f g : Fld) (v : Nat) (h : s.RegsWf) (hw : f.lo + f.w ≤ 32) (ha : g.addr = f.addr)
    (hd : g.lo + g.w ≤ f.lo ∨ f.lo + f.w ≤ g.lo) : (s.wr f v).rd g = s.rd g := by
  unfold State.rd
  rw [ha, s.nreg_wr _ _ h hw, bitsOf_withBits_disj _ _ _ _ _ _ hd]

/-- A one-bit field that is set stays set whatever one-bit field is set. -/
theorem State.on_wr_one (s : State) (f g : Fld) (h : s.RegsWf) (hf : f.lo + f.w ≤ 32) (h1 : f.w = 1) (hg : g.w = 1)
    (ho : s.on g = true) : (s.wr f 1).on g = true := by
  unfold State.on at *
  by_cases ha : g.addr = f.addr
  · by_cases hl : g.lo = f.lo
    · have : g = f := by
        cases f; cases g; simp_all
      subst this
      rw [s.rd_wr _ _ h hf, h1]
      rfl
    · rw [s.rd_wr_disj _ _ _ h hf ha (by omega)]
      exact ho
  · rw [s.rd_wr_ne _ _ _ h ha]
    exact ho

theorem State.on_wr (s : State) (f : Fld) (h : s.RegsWf) (hf : f.lo + f.w ≤ 32) (h1 : f.w = 1) : (s.wr f 1).on f = true := by
  unfold State.on
  rw [s.rd_wr _ _ h hf, h1]
  rfl

/-- Time passing changes the raw counter alone. -/
theorem State.advance_eq (s : State) (t : Nat) : s.advance t = s ∨ s.advance t = { s with raw := t / 65536 * 65536 } := by
  unfold State.advance
  split
  · exact .inr rfl
  · exact .inl rfl

end Sys2Proof.Machine
end

