-- ==== Sys2Proof/Laws/Keeps.lean ====
section
/-! SUPPORT. What no operation of the engine changes: the queue of commands, the ordering code, the raw counter, and, but for the
operations that store, host memory; and the canonical form is kept. One lemma per operation, in the form its callers use. -/

namespace Sys2Proof.Machine

/-- What every operation keeps between `b` and `s`. With `st` false, host memory too. -/
structure Keeps (st : Bool) (b s : State) : Prop where
  pending : s.pending = b.pending
  variant : s.variant = b.variant
  raw : s.raw = b.raw
  rawRun : s.rawRun = b.rawRun
  mem : st = false → s.mem = b.mem
  regsWf : b.RegsWf → s.RegsWf
  rising : Store.rising b.shadow → Store.rising s.shadow
  latchWf : Store.wf zWord32 b.latch = true → Store.wf zWord32 s.latch = true
  heldWf : Store.wf (fun _ => none) b.held = true → Store.wf (fun _ => none) s.held = true
  balanced : b.Balanced → s.Balanced
  memWf : Memory.wf b.mem → Memory.wf s.mem
  tsWf : Store.wf dTs b.tsc.ts = true → Store.wf dTs s.tsc.ts = true
  cmpsWf : Store.wf dCmp b.tsc.cmps = true → Store.wf dCmp s.tsc.cmps = true
  sqsWf : Store.wf dSq b.seq.sq = true → Store.wf dSq s.seq.sq = true

variable {st : Bool} {b s : State}

theorem Keeps.refl (st : Bool) (s : State) : Keeps st s s := ⟨rfl, rfl, rfl, rfl, fun _ => rfl, id, id, id, id, id, id, id, id, id⟩

theorem Keeps.trans {u : State} (h : Keeps st b s) (g : Keeps st s u) : Keeps st b u :=
  ⟨g.pending.trans h.pending, g.variant.trans h.variant, g.raw.trans h.raw, g.rawRun.trans h.rawRun,
   fun e => (g.mem e).trans (h.mem e), fun w => g.regsWf (h.regsWf w), fun w => g.rising (h.rising w),
   fun w => g.latchWf (h.latchWf w), fun w => g.heldWf (h.heldWf w), fun w => g.balanced (h.balanced w), fun w => g.memWf (h.memWf w), fun w => g.tsWf (h.tsWf w),
   fun w => g.cmpsWf (h.cmpsWf w), fun w => g.sqsWf (h.sqsWf w)⟩

/-- The canonical form is kept. -/
theorem Keeps.canon (h : Keeps st b s) (c : b.Canon) : s.Canon :=
  ⟨h.regsWf c.regs, h.rising c.shadow, h.latchWf c.latch, h.heldWf c.held, h.memWf c.mem, h.tsWf c.ts, h.cmpsWf c.cmps, h.sqsWf c.sqs, by rw [h.raw]; exact c.raw⟩

/-- Parts of the state that `Keeps` does not speak of may change. -/
theorem Keeps.of_fields {t : State} (h : Keeps st b s) (h1 : t.pending = s.pending) (h2 : t.variant = s.variant)
    (h3 : t.raw = s.raw) (h4 : t.rawRun = s.rawRun) (h5 : t.mem = s.mem) (h6 : t.regs = s.regs) (h7 : t.shadow = s.shadow)
    (h8 : t.latch = s.latch) (h9 : t.held = s.held) (h10 : t.fab.ledger = s.fab.ledger)
    (h11 : t.tsc = s.tsc) (h12 : t.seq = s.seq) : Keeps st b t :=
  ⟨h1.trans h.pending, h2.trans h.variant, h3.trans h.raw, h4.trans h.rawRun, fun e => h5.trans (h.mem e),
   fun w => by have := h.regsWf w; unfold State.RegsWf at *; rw [h6, h2]; exact this,
   fun w => by rw [h7]; exact h.rising w, fun w => by rw [h8]; exact h.latchWf w, fun w => by rw [h9]; exact h.heldWf w,
   fun w => by have := h.balanced w; unfold State.Balanced at *; rw [h10]; exact this, fun w => by rw [h5]; exact h.memWf w,
   fun w => by rw [h11]; exact h.tsWf w, fun w => by rw [h11]; exact h.cmpsWf w, fun w => by rw [h12]; exact h.sqsWf w⟩

/-- The parts of the state that `Keeps` does not speak of may change. -/
theorem Keeps.upd (h : Keeps st b s) (x_freeCtr : Nat) (x_hif : HifS) (x_jrn : JrnS) (x_pmc :
    PmcS) (x_glb : GlbS) (x_ref : RefS) (x_dsc : DscS) (x_grt : GrtS) (x_cko : CkoS) (x_gna : GnaS) (x_gnc : GncS) (x_prt :
    PrtS) (x_rsp : RspS) (x_ptp : PtpS) (x_nts : NtsS) (x_evt : EvtS) (x_vid : VidS) (x_tdc : TdcS) (x_key :
    KeyS) (x_pke : PkeS) (x_fls : FlsS) (x_pwr : PwrS) (x_bst : BstS) (x_twn : TwnS) : Keeps st b (State.mk s.pending
    s.variant x_freeCtr s.raw s.rawRun s.regs s.shadow s.latch s.held s.mem s.fab s.tsc x_hif x_jrn x_pmc x_glb x_ref x_dsc
    x_grt x_cko x_gna x_gnc x_prt x_rsp x_ptp x_nts x_evt x_vid x_tdc s.seq x_key x_pke x_fls x_pwr x_bst x_twn) :=
  Keeps.of_fields h rfl rfl rfl rfl rfl rfl rfl rfl rfl rfl rfl rfl

/-- The fabric's part may change, where its counts stay. -/
theorem Keeps.upd_fab (h : Keeps st b s) (x : FabS) (hx : x.ledger = s.fab.ledger) : Keeps st b { s with fab := x } :=
  Keeps.of_fields h rfl rfl rfl rfl rfl rfl rfl rfl rfl hx rfl rfl

/-- The part of TSC may change, where its timescales and compare units keep their form. -/
theorem Keeps.upd_tsc (h : Keeps st b s) (x : TscS) (h1 : Store.wf dTs s.tsc.ts = true → Store.wf dTs x.ts = true)
    (h2 : Store.wf dCmp s.tsc.cmps = true → Store.wf dCmp x.cmps = true) : Keeps st b { s with tsc := x } :=
  h.trans ⟨rfl, rfl, rfl, rfl, fun _ => rfl, id, id, id, id, id, id, h1, h2, id⟩

/-- The sequencers' part may change, where the sequencers keep their form. -/
theorem Keeps.upd_seq (h : Keeps st b s) (x : SeqS) (h1 : Store.wf dSq s.seq.sq = true → Store.wf dSq x.sq = true) :
    Keeps st b { s with seq := x } :=
  h.trans ⟨rfl, rfl, rfl, rfl, fun _ => rfl, id, id, id, id, id, id, id, id, h1⟩

/-- The counts may be replaced by counts that balance. -/
theorem Keeps.upd_ledger (h : Keeps st b s) (x : FabS)
    (hx : s.Balanced → LedgerBalanced x.ledger) : Keeps st b { s with fab := x } :=
  h.trans ⟨rfl, rfl, rfl, rfl, fun _ => rfl, id, id, id, id, hx, id, id, id, id⟩

/-- Counts that restart with what is held (R49) keep their form. -/
theorem Store.restart_wf {m : Store LInst} (p : Nat × LInst → Bool) (hp : ∀ e, p e = true → e.2.held ≠ 0)
    (h : Store.wf dLInst m = true) : Store.wf dLInst
      ((m.filter p).map (fun e => (e.1, ({ issued := e.2.held, returned := 0, held := e.2.held } : LInst)))) = true := by
  suffices g : ∀ lo, Store.wfFrom dLInst lo m = true → Store.wfFrom dLInst lo
      ((m.filter p).map (fun e => (e.1, ({ issued := e.2.held, returned := 0, held := e.2.held } : LInst)))) = true from g 0 h
  clear h
  induction m with
  | nil => exact fun _ _ => rfl
  | cons e r ih =>
    intro lo h
    obtain ⟨a, v⟩ := e
    simp only [Store.wfFrom, Bool.and_eq_true, decide_eq_true_eq] at h
    by_cases hv : p (a, v) = true
    · have := hp _ hv
      simp only [List.filter_cons, hv, if_true, List.map_cons, Store.wfFrom, Bool.and_eq_true, decide_eq_true_eq]
      exact ⟨⟨h.1.1, fun c => this (congrArg LInst.held c)⟩, ih _ h.2⟩
    · simp only [List.filter_cons, hv]
      exact Store.wfFrom_mono (ih _ h.2) (by omega)

/-- Counts that restart with what is held balance. -/
theorem Store.restart_even (m : Store LInst) (p : Nat × LInst → Bool) :
    ∀ e ∈ (m.filter p).map (fun e => (e.1, ({ issued := e.2.held, returned := 0, held := e.2.held } : LInst))),
      e.2.issued % 2 ^ 48 = (e.2.returned + e.2.held) % 2 ^ 48 := by
  intro e he
  obtain ⟨x, _, rfl⟩ := List.mem_map.mp he
  simp

/-- The latches may change too, where they keep their form. -/
theorem Keeps.upd_latch (h : Keeps st b s) (x : Store Word) (hx : Store.wf zWord32 s.latch = true → Store.wf zWord32 x = true) :
    Keeps st b { s with latch := x } :=
  h.trans ⟨rfl, rfl, rfl, rfl, fun _ => rfl, id, id, hx, id, id, id, id, id, id⟩

/-- Registers may go back to what they read after reset, and shadows to their live values. -/
theorem Keeps.upd_filter (h : Keeps st b s) (p q : Nat × Word → Bool) (x_freeCtr : Nat) (x_hif
    : HifS) (x_jrn : JrnS) (x_pmc : PmcS) (x_glb : GlbS) (x_ref : RefS) (x_dsc : DscS) (x_grt : GrtS) (x_cko : CkoS) (x_gna
    : GnaS) (x_gnc : GncS) (x_prt : PrtS) (x_rsp : RspS) (x_ptp : PtpS) (x_nts : NtsS) (x_evt : EvtS) (x_vid : VidS) (x_tdc
    : TdcS) (x_key : KeyS) (x_pke : PkeS) (x_fls : FlsS) (x_pwr : PwrS) (x_bst : BstS) (x_twn : TwnS) : Keeps
    st b (State.mk s.pending s.variant x_freeCtr s.raw s.rawRun (s.regs.filter p) (s.shadow.filter q) s.latch s.held s.mem
    s.fab s.tsc x_hif x_jrn x_pmc x_glb x_ref x_dsc x_grt x_cko x_gna x_gnc x_prt x_rsp x_ptp x_nts x_evt x_vid x_tdc s.seq
    x_key x_pke x_fls x_pwr x_bst x_twn) := by
  have g : Keeps st s (State.mk s.pending s.variant x_freeCtr s.raw s.rawRun (s.regs.filter p) (s.shadow.filter q) s.latch
    s.held s.mem s.fab s.tsc x_hif x_jrn x_pmc x_glb x_ref x_dsc x_grt x_cko x_gna x_gnc x_prt x_rsp x_ptp x_nts x_evt x_vid
    x_tdc s.seq x_key x_pke x_fls x_pwr x_bst x_twn) :=
    ⟨rfl, rfl, rfl, rfl, fun _ => rfl, fun w => Store.filter_wf p w, fun w => Store.rising_filter q w, id, id, id, id, id, id, id⟩
  exact h.trans g

/-- Latches and held words may go as well. -/
theorem Keeps.upd_filter_all (h : Keeps st b s) (p q p2 : Nat × Word → Bool) (q2 : Nat × Option Word → Bool) (x_freeCtr :
    Nat) (x_hif : HifS) (x_jrn : JrnS) (x_pmc : PmcS) (x_glb : GlbS) (x_ref : RefS) (x_dsc :
    DscS) (x_grt : GrtS) (x_cko : CkoS) (x_gna : GnaS) (x_gnc : GncS) (x_prt : PrtS) (x_rsp : RspS) (x_ptp : PtpS) (x_nts :
    NtsS) (x_evt : EvtS) (x_vid : VidS) (x_tdc : TdcS) (x_key : KeyS) (x_pke : PkeS) (x_fls : FlsS) (x_pwr :
    PwrS) (x_bst : BstS) (x_twn : TwnS) : Keeps st b (State.mk s.pending s.variant x_freeCtr s.raw s.rawRun (s.regs.filter
    p) (s.shadow.filter q) (s.latch.filter p2) (s.held.filter q2) s.mem s.fab s.tsc x_hif x_jrn x_pmc x_glb x_ref x_dsc
    x_grt x_cko x_gna x_gnc x_prt x_rsp x_ptp x_nts x_evt x_vid x_tdc s.seq x_key x_pke x_fls x_pwr x_bst x_twn) := by
  have g : Keeps st s (State.mk s.pending s.variant x_freeCtr s.raw s.rawRun (s.regs.filter p) (s.shadow.filter q)
    (s.latch.filter p2) (s.held.filter q2) s.mem s.fab s.tsc x_hif x_jrn x_pmc x_glb x_ref x_dsc x_grt x_cko x_gna x_gnc
    x_prt x_rsp x_ptp x_nts x_evt x_vid x_tdc s.seq x_key x_pke x_fls x_pwr x_bst x_twn) :=
    ⟨rfl, rfl, rfl, rfl, fun _ => rfl, fun w => Store.filter_wf p w, fun w => Store.rising_filter q w,
     fun w => Store.filter_wf p2 w, fun w => Store.filter_wf q2 w, id, id, id, id, id⟩
  exact h.trans g

/-- A state on the way is dealt with once. -/
theorem Keeps.cut {P : Prop} (x : State) (h : Keeps st b x) (k : Keeps st b x → P) : P := k h

theorem Keeps.ite {c : Prop} [Decidable c] {x y : State} (h1 : Keeps st b x) (h2 : Keeps st b y) :
    Keeps st b (if c then x else y) := by
  split
  · exact h1
  · exact h2

theorem Keeps.of_pair {α : Type} {p : State × α} {x : State} {y : α} (e : p = (x, y)) (h : Keeps st b p.1) : Keeps st b x := by
  rw [e] at h
  exact h

theorem Keeps.of_pair2 {α : Type} {p : α × State} {x : State} {y : α} (e : p = (y, x)) (h : Keeps st b p.2) : Keeps st b x := by
  rw [e] at h
  exact h

theorem Keeps.foldl {α : Type} {f : State → α → State} {l : List α} (h : Keeps st b s) (hf : ∀ u a, Keeps st b u → Keeps st b (f u a)) :
    Keeps st b (l.foldl f s) := by
  induction l generalizing s with
  | nil => exact h
  | cons x r ih => exact ih (hf _ _ h)

theorem Keeps.foldl_fst {α β : Type} {f : State × β → α → State × β} {l : List α} {p : State × β} (h : Keeps st b p.1)
    (hf : ∀ u a, Keeps st b u.1 → Keeps st b (f u a).1) : Keeps st b (l.foldl f p).1 := by
  induction l generalizing p with
  | nil => exact h
  | cons x r ih => exact ih (hf _ _ h)

/-- What an operation keeps that may have nothing to do. -/
def OKeeps (st : Bool) (b : State) : Option State → Prop
  | some s => Keeps st b s
  | none => True

theorem OKeeps.some (h : Keeps st b s) : OKeeps st b (.some s) := h

theorem OKeeps.none (st : Bool) (b : State) : OKeeps st b .none := True.intro

theorem OKeeps.ite {c : Prop} [Decidable c] {x y : Option State} (h1 : OKeeps st b x) (h2 : OKeeps st b y) :
    OKeeps st b (if c then x else y) := by
  split
  · exact h1
  · exact h2

theorem OKeeps.of_some {t : State} {x : Option State} (e : x = .some t) (h : OKeeps st b x) : Keeps st b t := by
  rw [e] at h
  exact h

theorem State.setReg_keeps (h : Keeps st b s) (k : Nat) (w : Word) : Keeps st b (s.setReg k w) :=
  h.trans ⟨rfl, rfl, rfl, rfl, fun _ => rfl, fun c => s.setReg_regsWf k w c, id, id, id, id, id, id, id, id⟩

theorem State.setN_keeps (h : Keeps st b s) (k v : Nat) : Keeps st b (s.setN k v) := State.setReg_keeps h _ _
theorem State.wr_keeps (h : Keeps st b s) (f : Fld) (v : Nat) : Keeps st b (s.wr f v) := State.setN_keeps h _ _
theorem State.wrB_keeps (h : Keeps st b s) (f : Fld) (v : Bool) : Keeps st b (s.wrB f v) := State.setN_keeps h _ _
theorem State.wrI_keeps (h : Keeps st b s) (f : Fld) (v : Int) : Keeps st b (s.wrI f v) := State.setN_keeps h _ _
theorem State.setSat_keeps (h : Keeps st b s) (k : Nat) (v : Int) : Keeps st b (s.setSat k v) := State.setN_keeps h _ _
theorem State.bumpF_keeps (h : Keeps st b s) (f : Fld) (v : Nat) : Keeps st b (s.bumpF f v) := State.setN_keeps h _ _
theorem State.bump_keeps (h : Keeps st b s) (k v : Nat) : Keeps st b (s.bump k v) := State.setN_keeps h _ _
theorem State.set64_keeps (h : Keeps st b s) (k v : Nat) : Keeps st b (s.set64 k v) := State.setN_keeps (State.setN_keeps h _ _) _ _
theorem State.set96_keeps (h : Keeps st b s) (k v : Nat) : Keeps st b (s.set96 k v) := State.setN_keeps (State.set64_keeps h _ _) _ _
theorem State.bump48_keeps (h : Keeps st b s) (k v : Nat) : Keeps st b (s.bump48 k v) := State.wr_keeps (State.setN_keeps h _ _) _ _

theorem State.setShadow_keeps (h : Keeps st b s) (k v : Nat) : Keeps st b (s.setShadow k v) :=
  h.trans ⟨rfl, rfl, rfl, rfl, fun _ => rfl, id, fun c => Store.put_rising c, id, id, id, id, id, id, id⟩

theorem State.dropShadows_keeps (h : Keeps st b s) (x : Blk) : Keeps st b (s.dropShadows x) :=
  h.trans ⟨rfl, rfl, rfl, rfl, fun _ => rfl, id, fun c => Store.rising_filter _ c, id, id, id, id, id, id, id⟩

theorem State.applyShadows_keeps (h : Keeps st b s) (x : Blk) : Keeps st b (s.applyShadows x) :=
  Keeps.foldl (State.dropShadows_keeps h x) (fun _ _ g => State.setReg_keeps g _ _)

theorem State.setBoth_keeps (h : Keeps st b s) (k v : Nat) : Keeps st b (s.setBoth k v) :=
  (State.setN_keeps h k v).trans ⟨rfl, rfl, rfl, rfl, fun _ => rfl, id, fun c => Store.rising_filter _ c, id, id, id, id, id, id, id⟩

theorem State.free_keeps (h : Keeps st b s) : Keeps st b s.free.2 := Keeps.of_fields h rfl rfl rfl rfl rfl rfl rfl rfl rfl rfl rfl rfl
theorem State.draw_keeps (h : Keeps st b s) : Keeps st b s.draw.2 := Keeps.of_fields h rfl rfl rfl rfl rfl rfl rfl rfl rfl rfl rfl rfl

/-- Stores keep the canonical form of host memory. -/
theorem State.setBytes_keeps {b s : State} (h : Keeps true b s) (a : Nat) (l : List Byte) : Keeps true b (s.setBytes a l) := by
  induction l generalizing s a with
  | nil => exact h
  | cons x r ih =>
    refine ih (h.trans ?_) (a + 1)
    exact ⟨rfl, rfl, rfl, rfl, fun e => (Bool.noConfusion e), id, id, id, id, id, fun c => Store.put_wf c, id, id, id⟩

end Sys2Proof.Machine
end

