-- ==== Sys2Proof/Laws/KOps.lean ====
section
/-! SUPPORT. What the operations of Machine/Ops.lean keep. -/

set_option linter.unusedTactic false
set_option linter.unreachableTactic false

namespace Sys2Proof.Machine

theorem State.setTsc_keeps {st : Bool} {b s : State} (h : Keeps st b s) (f : TscS → TscS) (hf : ∀ x, (f x).ts = x.ts)
    (hg : ∀ x, (f x).cmps = x.cmps) : Keeps st b (State.setTsc s f) :=
  Keeps.upd_tsc h _ (fun w => by rw [hf]; exact w) (fun w => by rw [hg]; exact w)

theorem State.setTs_keeps {st : Bool} {b s : State} (h : Keeps st b s) (n : Nat) (t : Ts) : Keeps st b (State.setTs s n t) :=
  Keeps.upd_tsc h _ (fun w => Store.put_wf w) id

theorem State.reanchor_keeps {st : Bool} {b s : State} (h : Keeps st b s) (n : Nat) (e : Nat) :
    Keeps st b (State.reanchor s n e) := by
  unfold State.reanchor
  repeat' first
    | with_reducible assumption
    | with_reducible exact Keeps.refl _ _
    | with_reducible apply Keeps.ite
    | (fail_if_no_progress with_reducible apply Keeps.upd)
    | with_reducible apply State.setTs_keeps
    | with_reducible apply State.bumpF_keeps
    | (extract_lets +onlyGivenNames x; refine Keeps.cut (st := st) (b := b) x ?_ ?_; rotate_left; (clear_value x; intro hx); rotate_left; subst x)
    | (extract_lets +onlyGivenNames x; refine Keeps.cut (st := st) (b := b) x.1 ?_ ?_; rotate_left; (clear_value x; intro hx); rotate_left; subst x)
    | (extract_lets +onlyGivenNames x; refine Keeps.cut (st := st) (b := b) x.2 ?_ ?_; rotate_left; (clear_value x; intro hx); rotate_left; subst x)
    | (extract_lets +onlyGivenNames x; clear_value x)
    | (extract_lets +onlyGivenNames x)
    | (fail_if_no_progress dsimp only)

theorem State.reanchorAll_keeps {st : Bool} {b s : State} (h : Keeps st b s) (n : Nat) (e : Nat) :
    Keeps st b (State.reanchorAll s n e) := by
  unfold State.reanchorAll
  repeat' first
    | with_reducible assumption
    | with_reducible exact Keeps.refl _ _
    | with_reducible apply Keeps.ite
    | (fail_if_no_progress with_reducible apply Keeps.upd)
    | (fail_if_no_progress with_reducible apply Keeps.upd_filter)
    | (fail_if_no_progress with_reducible apply Keeps.upd_filter_all)
    | with_reducible apply State.reanchor_keeps
    | (with_reducible refine Keeps.foldl ?_ ?_)
    | (with_reducible refine Keeps.foldl_fst ?_ ?_)
    | (intro u a hu; beta_reduce)
    | (intro u hu; beta_reduce)
    | (extract_lets +onlyGivenNames x; refine Keeps.cut (st := st) (b := b) x ?_ ?_; rotate_left; (clear_value x; intro hx); rotate_left; subst x)
    | (extract_lets +onlyGivenNames x; refine Keeps.cut (st := st) (b := b) x.1 ?_ ?_; rotate_left; (clear_value x; intro hx); rotate_left; subst x)
    | (extract_lets +onlyGivenNames x; refine Keeps.cut (st := st) (b := b) x.2 ?_ ?_; rotate_left; (clear_value x; intro hx); rotate_left; subst x)
    | (extract_lets +onlyGivenNames x; clear_value x)
    | (extract_lets +onlyGivenNames x)
    | split
    | (fail_if_no_progress dsimp only)

theorem State.showSlew_keeps {st : Bool} {b s : State} (h : Keeps st b s) (n : Nat) :
    Keeps st b (State.showSlew s n) := by
  unfold State.showSlew
  repeat' first
    | with_reducible assumption
    | with_reducible exact Keeps.refl _ _
    | with_reducible apply Keeps.ite
    | (fail_if_no_progress with_reducible apply Keeps.upd)
    | with_reducible apply State.wrB_keeps
    | with_reducible apply State.setSat_keeps
    | (extract_lets +onlyGivenNames x; refine Keeps.cut (st := st) (b := b) x ?_ ?_; rotate_left; (clear_value x; intro hx); rotate_left; subst x)
    | (extract_lets +onlyGivenNames x; refine Keeps.cut (st := st) (b := b) x.1 ?_ ?_; rotate_left; (clear_value x; intro hx); rotate_left; subst x)
    | (extract_lets +onlyGivenNames x; refine Keeps.cut (st := st) (b := b) x.2 ?_ ?_; rotate_left; (clear_value x; intro hx); rotate_left; subst x)
    | (extract_lets +onlyGivenNames x; clear_value x)
    | (extract_lets +onlyGivenNames x)
    | (fail_if_no_progress dsimp only)

theorem State.setFab_keeps {st : Bool} {b s : State} (h : Keeps st b s) (f : FabS → FabS) (hf : ∀ x, (f x).ledger = x.ledger) :
    Keeps st b (State.setFab s f) := Keeps.upd_fab h _ (hf _)

/-- A ledger instance is written with counts that balance (R42). -/
theorem State.lset_keeps {st : Bool} {b s : State} (h : Keeps st b s) (k : Tok) (i : Nat) (l : LInst)
    (hl : s.Balanced → l.issued % 2 ^ 48 = (l.returned + l.held) % 2 ^ 48) : Keeps st b (State.lset s k i l) :=
  Keeps.upd_ledger h _ (fun w => ⟨Store.put_wf w.1, fun e he => by
    rcases Store.put_val he with rfl | he
    · exact hl w
    · exact w.2 e he⟩)

/-- What the ledger lists of an instance balances. -/
theorem State.lget_balanced {s : State} (w : s.Balanced) (k : Tok) (i : Nat) :
    (s.lget k i).issued % 2 ^ 48 = ((s.lget k i).returned + (s.lget k i).held) % 2 ^ 48 := by
  unfold State.lget
  rcases Store.get_mem dLInst s.fab.ledger (k.key i) with h | h
  · rw [h]; rfl
  · exact w.2 _ h

theorem State.issue_keeps {st : Bool} {b s : State} (h : Keeps st b s) (k : Tok) (i n : Nat) : Keeps st b (State.issue s k i n) := by
  refine State.lset_keeps h k i _ (fun w => ?_)
  have := State.lget_balanced w k i
  dsimp only
  omega

theorem State.give_keeps {st : Bool} {b s : State} (h : Keeps st b s) (k : Tok) (i n : Nat) : Keeps st b (State.give s k i n) := by
  refine State.lset_keeps h k i _ (fun w => ?_)
  have := State.lget_balanced w k i
  dsimp only
  omega

theorem State.endRequest_keeps {st : Bool} {b s : State} (h : Keeps st b s) (q : Nat) (t : Term) : Keeps st b (State.endRequest s q t) := by
  refine State.give_keeps (Keeps.upd_fab h _ ?_) _ _ _
  rfl

theorem State.qPut_keeps {st : Bool} {b s : State} (h : Keeps st b s) (q : Nat) (n : Nat) :
    Keeps st b (State.qPut s q n) := by
  unfold State.qPut
  repeat' first
    | with_reducible assumption
    | with_reducible exact Keeps.refl _ _
    | with_reducible apply Keeps.ite
    | (fail_if_no_progress with_reducible apply Keeps.upd)
    | with_reducible apply State.issue_keeps
    | (with_reducible refine State.setFab_keeps ?_ _ ?hx; case hx => (intro _; rfl))
    | (intro u a hu; beta_reduce)
    | (intro u hu; beta_reduce)
    | (extract_lets +onlyGivenNames x; refine Keeps.cut (st := st) (b := b) x ?_ ?_; rotate_left; (clear_value x; intro hx); rotate_left; subst x)
    | (extract_lets +onlyGivenNames x; refine Keeps.cut (st := st) (b := b) x.1 ?_ ?_; rotate_left; (clear_value x; intro hx); rotate_left; subst x)
    | (extract_lets +onlyGivenNames x; refine Keeps.cut (st := st) (b := b) x.2 ?_ ?_; rotate_left; (clear_value x; intro hx); rotate_left; subst x)
    | (extract_lets +onlyGivenNames x; clear_value x)
    | (extract_lets +onlyGivenNames x)
    | split
    | (fail_if_no_progress dsimp only)

theorem State.qTake_keeps {st : Bool} {b s : State} (h : Keeps st b s) (q : Nat) (n : Nat) :
    Keeps st b (State.qTake s q n) := by
  unfold State.qTake
  repeat' first
    | with_reducible assumption
    | with_reducible exact Keeps.refl _ _
    | with_reducible apply Keeps.ite
    | (fail_if_no_progress with_reducible apply Keeps.upd)
    | with_reducible apply State.give_keeps
    | (fail_if_no_progress dsimp only)

theorem State.setRing_keeps {st : Bool} {b s : State} (h : Keeps st b s) (r : Nat) (x : Ring) :
    Keeps st b (State.setRing s r x) := by
  unfold State.setRing
  repeat' first
    | with_reducible assumption
    | with_reducible exact Keeps.refl _ _
    | with_reducible apply Keeps.ite
    | (fail_if_no_progress with_reducible apply Keeps.upd)
    | split
    | (fail_if_no_progress dsimp only)

theorem State.setFn_keeps {st : Bool} {b s : State} (h : Keeps st b s) (f : Nat) (x : FnSt) :
    Keeps st b (State.setFn s f x) := by
  unfold State.setFn
  repeat' first
    | with_reducible assumption
    | with_reducible exact Keeps.refl _ _
    | with_reducible apply Keeps.ite
    | (fail_if_no_progress with_reducible apply Keeps.upd)
    | split
    | (fail_if_no_progress dsimp only)

theorem State.pmcAdd_keeps {st : Bool} {b s : State} (h : Keeps st b s) (g : Nat) (e : Nat) (u : Nat) (n : Nat) :
    Keeps st b (State.pmcAdd s g e u n).1 := by
  unfold State.pmcAdd
  repeat' first
    | with_reducible assumption
    | with_reducible exact Keeps.refl _ _
    | with_reducible apply Keeps.ite
    | (fail_if_no_progress with_reducible apply Keeps.upd)
    | (with_reducible refine Keeps.foldl ?_ ?_)
    | (with_reducible refine Keeps.foldl_fst ?_ ?_)
    | (intro u a hu; beta_reduce)
    | (intro u hu; beta_reduce)
    | (extract_lets +onlyGivenNames x; refine Keeps.cut (st := st) (b := b) x ?_ ?_; rotate_left; (clear_value x; intro hx); rotate_left; subst x)
    | (extract_lets +onlyGivenNames x; refine Keeps.cut (st := st) (b := b) x.1 ?_ ?_; rotate_left; (clear_value x; intro hx); rotate_left; subst x)
    | (extract_lets +onlyGivenNames x; refine Keeps.cut (st := st) (b := b) x.2 ?_ ?_; rotate_left; (clear_value x; intro hx); rotate_left; subst x)
    | (extract_lets +onlyGivenNames x; clear_value x)
    | (extract_lets +onlyGivenNames x)
    | split
    | (refine OKeeps.of_some (by assumption) ?_)
    | (with_reducible refine Keeps.of_pair (by assumption) ?_)
    | (with_reducible refine Keeps.of_pair2 (by assumption) ?_)
    | (fail_if_no_progress dsimp only)

theorem State.updTd_keeps {st : Bool} {b s : State} (h : Keeps st b s) (u : Nat) (f : Td → Td) :
    Keeps st b (State.updTd s u f) := by
  unfold State.updTd
  repeat' first
    | with_reducible assumption
    | with_reducible exact Keeps.refl _ _
    | with_reducible apply Keeps.ite
    | (fail_if_no_progress with_reducible apply Keeps.upd)
    | (fail_if_no_progress dsimp only)

theorem State.setSeqS_keeps {st : Bool} {b s : State} (h : Keeps st b s) (f : SeqS → SeqS) (hf : ∀ x, (f x).sq = x.sq) :
    Keeps st b (State.setSeqS s f) :=
  Keeps.upd_seq h _ (fun w => by rw [hf]; exact w)

theorem State.setSq_keeps {st : Bool} {b s : State} (h : Keeps st b s) (n : Nat) (x : Sq) : Keeps st b (State.setSq s n x) :=
  Keeps.upd_seq h _ (fun w => Store.put_wf w)

theorem State.seqEvent_keeps {st : Bool} {b s : State} (h : Keeps st b s) (n : Nat) (bit : Nat) :
    Keeps st b (State.seqEvent s n bit) := by
  unfold State.seqEvent
  repeat' first
    | with_reducible assumption
    | with_reducible exact Keeps.refl _ _
    | with_reducible apply Keeps.ite
    | (fail_if_no_progress with_reducible apply Keeps.upd)
    | with_reducible apply State.setSq_keeps
    | (extract_lets +onlyGivenNames x; refine Keeps.cut (st := st) (b := b) x ?_ ?_; rotate_left; (clear_value x; intro hx); rotate_left; subst x)
    | (extract_lets +onlyGivenNames x; refine Keeps.cut (st := st) (b := b) x.1 ?_ ?_; rotate_left; (clear_value x; intro hx); rotate_left; subst x)
    | (extract_lets +onlyGivenNames x; refine Keeps.cut (st := st) (b := b) x.2 ?_ ?_; rotate_left; (clear_value x; intro hx); rotate_left; subst x)
    | (extract_lets +onlyGivenNames x; clear_value x)
    | (extract_lets +onlyGivenNames x)
    | split
    | (fail_if_no_progress dsimp only)

end Sys2Proof.Machine
end

