-- ==== Sys2Proof/Laws/KFlags.lean ====
section
/-! SUPPORT. What the operations of Machine/Flags.lean keep. -/

set_option linter.unusedTactic false
set_option linter.unreachableTactic false

namespace Sys2Proof.Machine

theorem State.msixCore_keeps {st : Bool} {b s : State} (h : Keeps st b s) (fn : Nat) (vec : Nat) :
    Keeps st b (State.msixCore s fn vec).1 := by
  unfold State.msixCore
  repeat' first
    | with_reducible assumption
    | with_reducible exact Keeps.refl _ _
    | with_reducible apply Keeps.ite
    | (fail_if_no_progress with_reducible apply Keeps.upd)
    | with_reducible apply State.bump_keeps
    | (extract_lets +onlyGivenNames x; refine Keeps.cut (st := st) (b := b) x ?_ ?_; rotate_left; (clear_value x; intro hx); rotate_left; subst x)
    | (extract_lets +onlyGivenNames x; refine Keeps.cut (st := st) (b := b) x.1 ?_ ?_; rotate_left; (clear_value x; intro hx); rotate_left; subst x)
    | (extract_lets +onlyGivenNames x; refine Keeps.cut (st := st) (b := b) x.2 ?_ ?_; rotate_left; (clear_value x; intro hx); rotate_left; subst x)
    | (extract_lets +onlyGivenNames x; clear_value x)
    | (extract_lets +onlyGivenNames x)
    | split
    | (fail_if_no_progress dsimp only)

theorem State.markHalf_keeps {st : Bool} {b s : State} (h : Keeps st b s) (c : Option Nat) :
    Keeps st b (State.markHalf s c) := by
  unfold State.markHalf
  repeat' first
    | with_reducible assumption
    | with_reducible exact Keeps.refl _ _
    | with_reducible apply Keeps.ite
    | (fail_if_no_progress with_reducible apply Keeps.upd)
    | with_reducible apply State.setN_keeps
    | with_reducible apply State.wr_keeps
    | (extract_lets +onlyGivenNames x; refine Keeps.cut (st := st) (b := b) x ?_ ?_; rotate_left; (clear_value x; intro hx); rotate_left; subst x)
    | (extract_lets +onlyGivenNames x; refine Keeps.cut (st := st) (b := b) x.1 ?_ ?_; rotate_left; (clear_value x; intro hx); rotate_left; subst x)
    | (extract_lets +onlyGivenNames x; refine Keeps.cut (st := st) (b := b) x.2 ?_ ?_; rotate_left; (clear_value x; intro hx); rotate_left; subst x)
    | (extract_lets +onlyGivenNames x; clear_value x)
    | (extract_lets +onlyGivenNames x)
    | split
    | (refine OKeeps.of_some (by assumption) ?_)
    | (with_reducible refine Keeps.of_pair (by assumption) ?_)
    | (with_reducible refine Keeps.of_pair2 (by assumption) ?_)
    | (fail_if_no_progress dsimp only)

theorem State.alarmMsix_keeps {st : Bool} {b s : State} (h : Keeps st b s)  :
    Keeps st b (State.alarmMsix s) := by
  unfold State.alarmMsix
  repeat' first
    | with_reducible assumption
    | with_reducible exact Keeps.refl _ _
    | with_reducible apply Keeps.ite
    | (fail_if_no_progress with_reducible apply Keeps.upd)
    | with_reducible apply State.msixCore_keeps
    | with_reducible apply State.pmcAdd_keeps
    | with_reducible apply State.markHalf_keeps
    | (extract_lets +onlyGivenNames x; refine Keeps.cut (st := st) (b := b) x ?_ ?_; rotate_left; (clear_value x; intro hx); rotate_left; subst x)
    | (extract_lets +onlyGivenNames x; refine Keeps.cut (st := st) (b := b) x.1 ?_ ?_; rotate_left; (clear_value x; intro hx); rotate_left; subst x)
    | (extract_lets +onlyGivenNames x; refine Keeps.cut (st := st) (b := b) x.2 ?_ ?_; rotate_left; (clear_value x; intro hx); rotate_left; subst x)
    | (extract_lets +onlyGivenNames x; clear_value x)
    | (extract_lets +onlyGivenNames x)
    | split
    | (fail_if_no_progress dsimp only)

theorem State.raiseBit_keeps {st : Bool} {b s : State} (h : Keeps st b s) (f : Fld) :
    Keeps st b (State.raiseBit s f) := by
  unfold State.raiseBit
  repeat' first
    | with_reducible assumption
    | with_reducible exact Keeps.refl _ _
    | with_reducible apply Keeps.ite
    | (fail_if_no_progress with_reducible apply Keeps.upd)
    | with_reducible apply State.wr_keeps
    | with_reducible apply State.alarmMsix_keeps
    | (extract_lets +onlyGivenNames x; refine Keeps.cut (st := st) (b := b) x ?_ ?_; rotate_left; (clear_value x; intro hx); rotate_left; subst x)
    | (extract_lets +onlyGivenNames x; refine Keeps.cut (st := st) (b := b) x.1 ?_ ?_; rotate_left; (clear_value x; intro hx); rotate_left; subst x)
    | (extract_lets +onlyGivenNames x; refine Keeps.cut (st := st) (b := b) x.2 ?_ ?_; rotate_left; (clear_value x; intro hx); rotate_left; subst x)
    | (extract_lets +onlyGivenNames x; clear_value x)
    | (extract_lets +onlyGivenNames x)
    | split
    | (refine OKeeps.of_some (by assumption) ?_)
    | (with_reducible refine Keeps.of_pair (by assumption) ?_)
    | (with_reducible refine Keeps.of_pair2 (by assumption) ?_)
    | (fail_if_no_progress dsimp only)

theorem State.count_keeps {st : Bool} {b s : State} (h : Keeps st b s) (g : Nat) (e : Nat) (u : Nat) (n : Nat) :
    Keeps st b (State.count s g e u n) := by
  unfold State.count
  repeat' first
    | with_reducible assumption
    | with_reducible exact Keeps.refl _ _
    | with_reducible apply Keeps.ite
    | (fail_if_no_progress with_reducible apply Keeps.upd)
    | with_reducible apply State.pmcAdd_keeps
    | with_reducible apply State.setN_keeps
    | with_reducible apply State.raiseBit_keeps
    | (extract_lets +onlyGivenNames x; refine Keeps.cut (st := st) (b := b) x ?_ ?_; rotate_left; (clear_value x; intro hx); rotate_left; subst x)
    | (extract_lets +onlyGivenNames x; refine Keeps.cut (st := st) (b := b) x.1 ?_ ?_; rotate_left; (clear_value x; intro hx); rotate_left; subst x)
    | (extract_lets +onlyGivenNames x; refine Keeps.cut (st := st) (b := b) x.2 ?_ ?_; rotate_left; (clear_value x; intro hx); rotate_left; subst x)
    | (extract_lets +onlyGivenNames x; clear_value x)
    | (extract_lets +onlyGivenNames x)
    | split
    | (refine OKeeps.of_some (by assumption) ?_)
    | (with_reducible refine Keeps.of_pair (by assumption) ?_)
    | (with_reducible refine Keeps.of_pair2 (by assumption) ?_)
    | (fail_if_no_progress dsimp only)

theorem State.sumpTally_keeps {st : Bool} {b s : State} (h : Keeps st b s) (reason : Nat) (n : Nat) :
    Keeps st b (State.sumpTally s reason n).1 := by
  unfold State.sumpTally
  repeat' first
    | with_reducible assumption
    | with_reducible exact Keeps.refl _ _
    | with_reducible apply Keeps.ite
    | (fail_if_no_progress with_reducible apply Keeps.upd)
    | with_reducible apply State.bump48_keeps
    | with_reducible apply State.count_keeps
    | (extract_lets +onlyGivenNames x; refine Keeps.cut (st := st) (b := b) x ?_ ?_; rotate_left; (clear_value x; intro hx); rotate_left; subst x)
    | (extract_lets +onlyGivenNames x; refine Keeps.cut (st := st) (b := b) x.1 ?_ ?_; rotate_left; (clear_value x; intro hx); rotate_left; subst x)
    | (extract_lets +onlyGivenNames x; refine Keeps.cut (st := st) (b := b) x.2 ?_ ?_; rotate_left; (clear_value x; intro hx); rotate_left; subst x)
    | (extract_lets +onlyGivenNames x; clear_value x)
    | (extract_lets +onlyGivenNames x)
    | (fail_if_no_progress dsimp only)

theorem State.sumpCount_keeps {st : Bool} {b s : State} (h : Keeps st b s) (reason : Nat) (n : Nat) :
    Keeps st b (State.sumpCount s reason n) := by
  unfold State.sumpCount
  repeat' first
    | with_reducible assumption
    | with_reducible exact Keeps.refl _ _
    | with_reducible apply Keeps.ite
    | (fail_if_no_progress with_reducible apply Keeps.upd)
    | with_reducible apply State.sumpTally_keeps
    | with_reducible apply State.raiseBit_keeps
    | (extract_lets +onlyGivenNames x; refine Keeps.cut (st := st) (b := b) x ?_ ?_; rotate_left; (clear_value x; intro hx); rotate_left; subst x)
    | (extract_lets +onlyGivenNames x; refine Keeps.cut (st := st) (b := b) x.1 ?_ ?_; rotate_left; (clear_value x; intro hx); rotate_left; subst x)
    | (extract_lets +onlyGivenNames x; refine Keeps.cut (st := st) (b := b) x.2 ?_ ?_; rotate_left; (clear_value x; intro hx); rotate_left; subst x)
    | (extract_lets +onlyGivenNames x; clear_value x)
    | (extract_lets +onlyGivenNames x)
    | split
    | (fail_if_no_progress dsimp only)

theorem State.postEvent_keeps {st : Bool} {b s : State} (h : Keeps st b s) (ring : Nat) (kind : Nat) (payload : List Byte) :
    Keeps st b (State.postEvent s ring kind payload).1 := by
  unfold State.postEvent
  repeat' first
    | with_reducible assumption
    | with_reducible exact Keeps.refl _ _
    | with_reducible apply Keeps.ite
    | (fail_if_no_progress with_reducible apply Keeps.upd)
    | with_reducible apply State.qPut_keeps
    | with_reducible apply State.setRing_keeps
    | with_reducible apply State.sumpCount_keeps
    | (extract_lets +onlyGivenNames x; refine Keeps.cut (st := st) (b := b) x ?_ ?_; rotate_left; (clear_value x; intro hx); rotate_left; subst x)
    | (extract_lets +onlyGivenNames x; refine Keeps.cut (st := st) (b := b) x.1 ?_ ?_; rotate_left; (clear_value x; intro hx); rotate_left; subst x)
    | (extract_lets +onlyGivenNames x; refine Keeps.cut (st := st) (b := b) x.2 ?_ ?_; rotate_left; (clear_value x; intro hx); rotate_left; subst x)
    | (extract_lets +onlyGivenNames x; clear_value x)
    | (extract_lets +onlyGivenNames x)
    | split
    | (fail_if_no_progress dsimp only)

theorem State.setQuiet_keeps {st : Bool} {b s : State} (h : Keeps st b s) (f : Fld) :
    Keeps st b (State.setQuiet s f) := by
  unfold State.setQuiet
  repeat' first
    | with_reducible assumption
    | with_reducible exact Keeps.refl _ _
    | with_reducible apply Keeps.ite
    | (fail_if_no_progress with_reducible apply Keeps.upd)
    | with_reducible apply State.raiseBit_keeps
    | with_reducible apply State.postEvent_keeps
    | split
    | (refine OKeeps.of_some (by assumption) ?_)
    | (with_reducible refine Keeps.of_pair (by assumption) ?_)
    | (with_reducible refine Keeps.of_pair2 (by assumption) ?_)
    | (fail_if_no_progress dsimp only)

theorem State.journal_keeps {st : Bool} {b s : State} (h : Keeps st b s) (typ : Nat) (src : Nat) (body : List Byte) :
    Keeps st b (State.journal s typ src body) := by
  unfold State.journal
  repeat' first
    | with_reducible assumption
    | with_reducible exact Keeps.refl _ _
    | with_reducible apply Keeps.ite
    | (fail_if_no_progress with_reducible apply Keeps.upd)
    | with_reducible apply State.qPut_keeps
    | with_reducible apply State.seqEvent_keeps
    | with_reducible apply State.sumpCount_keeps
    | with_reducible apply State.bump_keeps
    | with_reducible apply State.setQuiet_keeps
    | (extract_lets +onlyGivenNames x; refine Keeps.cut (st := st) (b := b) x ?_ ?_; rotate_left; (clear_value x; intro hx); rotate_left; subst x)
    | (extract_lets +onlyGivenNames x; refine Keeps.cut (st := st) (b := b) x.1 ?_ ?_; rotate_left; (clear_value x; intro hx); rotate_left; subst x)
    | (extract_lets +onlyGivenNames x; refine Keeps.cut (st := st) (b := b) x.2 ?_ ?_; rotate_left; (clear_value x; intro hx); rotate_left; subst x)
    | (extract_lets +onlyGivenNames x; clear_value x)
    | (extract_lets +onlyGivenNames x)
    | split
    | (fail_if_no_progress dsimp only)

theorem State.sticky_keeps {st : Bool} {b s : State} (h : Keeps st b s) (f : Fld) :
    Keeps st b (State.sticky s f) := by
  unfold State.sticky
  repeat' first
    | with_reducible assumption
    | with_reducible exact Keeps.refl _ _
    | with_reducible apply Keeps.ite
    | (fail_if_no_progress with_reducible apply Keeps.upd)
    | with_reducible apply State.setQuiet_keeps
    | with_reducible apply State.bump_keeps
    | with_reducible apply State.journal_keeps
    | (extract_lets +onlyGivenNames x; refine Keeps.cut (st := st) (b := b) x ?_ ?_; rotate_left; (clear_value x; intro hx); rotate_left; subst x)
    | (extract_lets +onlyGivenNames x; refine Keeps.cut (st := st) (b := b) x.1 ?_ ?_; rotate_left; (clear_value x; intro hx); rotate_left; subst x)
    | (extract_lets +onlyGivenNames x; refine Keeps.cut (st := st) (b := b) x.2 ?_ ?_; rotate_left; (clear_value x; intro hx); rotate_left; subst x)
    | (extract_lets +onlyGivenNames x; clear_value x)
    | (extract_lets +onlyGivenNames x)
    | split
    | (refine OKeeps.of_some (by assumption) ?_)
    | (with_reducible refine Keeps.of_pair (by assumption) ?_)
    | (with_reducible refine Keeps.of_pair2 (by assumption) ?_)
    | (fail_if_no_progress dsimp only)

theorem State.refuseCfg_keeps {st : Bool} {b s : State} (h : Keeps st b s) (x_b : Blk) :
    Keeps st b (State.refuseCfg s x_b) := by
  unfold State.refuseCfg
  repeat' first
    | with_reducible assumption
    | with_reducible exact Keeps.refl _ _
    | with_reducible apply Keeps.ite
    | (fail_if_no_progress with_reducible apply Keeps.upd)
    | with_reducible apply State.sticky_keeps
    | (fail_if_no_progress dsimp only)

theorem State.clearSticky_keeps {st : Bool} {b s : State} (h : Keeps st b s) (x_b : Blk) (val : Nat) (recurs : Nat) :
    Keeps st b (State.clearSticky s x_b val recurs) := by
  unfold State.clearSticky
  repeat' first
    | with_reducible assumption
    | with_reducible exact Keeps.refl _ _
    | with_reducible apply Keeps.ite
    | (fail_if_no_progress with_reducible apply Keeps.upd)
    | with_reducible apply State.sticky_keeps
    | with_reducible apply State.setN_keeps
    | with_reducible apply State.wr_keeps
    | (extract_lets +onlyGivenNames x; refine Keeps.cut (st := st) (b := b) x ?_ ?_; rotate_left; (clear_value x; intro hx); rotate_left; subst x)
    | (extract_lets +onlyGivenNames x; refine Keeps.cut (st := st) (b := b) x.1 ?_ ?_; rotate_left; (clear_value x; intro hx); rotate_left; subst x)
    | (extract_lets +onlyGivenNames x; refine Keeps.cut (st := st) (b := b) x.2 ?_ ?_; rotate_left; (clear_value x; intro hx); rotate_left; subst x)
    | (extract_lets +onlyGivenNames x; clear_value x)
    | (extract_lets +onlyGivenNames x)
    | split
    | (refine OKeeps.of_some (by assumption) ?_)
    | (with_reducible refine Keeps.of_pair (by assumption) ?_)
    | (with_reducible refine Keeps.of_pair2 (by assumption) ?_)
    | (fail_if_no_progress dsimp only)

theorem State.sump_keeps {st : Bool} {b s : State} (h : Keeps st b s) (reason : Nat) (c : SClass) (tgt : Nat) (inst : Nat) (n : Nat) (frame : List Byte) (flen : Nat) :
    Keeps st b (State.sump s reason c tgt inst n frame flen) := by
  unfold State.sump
  repeat' first
    | with_reducible assumption
    | with_reducible exact Keeps.refl _ _
    | with_reducible apply Keeps.ite
    | (fail_if_no_progress with_reducible apply Keeps.upd)
    | with_reducible apply State.sumpTally_keeps
    | with_reducible apply State.sticky_keeps
    | (with_reducible refine State.setFab_keeps ?_ _ ?hx; case hx => (intro _; rfl))
    | with_reducible apply State.postEvent_keeps
    | (intro u a hu; beta_reduce)
    | (intro u hu; beta_reduce)
    | (extract_lets +onlyGivenNames x; refine Keeps.cut (st := st) (b := b) x ?_ ?_; rotate_left; (clear_value x; intro hx); rotate_left; subst x)
    | (extract_lets +onlyGivenNames x; refine Keeps.cut (st := st) (b := b) x.1 ?_ ?_; rotate_left; (clear_value x; intro hx); rotate_left; subst x)
    | (extract_lets +onlyGivenNames x; refine Keeps.cut (st := st) (b := b) x.2 ?_ ?_; rotate_left; (clear_value x; intro hx); rotate_left; subst x)
    | (extract_lets +onlyGivenNames x; clear_value x)
    | (extract_lets +onlyGivenNames x)
    | split
    | (fail_if_no_progress dsimp only)

theorem State.sumpRequest_keeps {st : Bool} {b s : State} (h : Keeps st b s) (reason : Nat) (q : Nat) (tgt : Nat) (inst : Nat) (frame : List Byte) (flen : Nat) :
    Keeps st b (State.sumpRequest s reason q tgt inst frame flen) := by
  unfold State.sumpRequest
  repeat' first
    | with_reducible assumption
    | with_reducible exact Keeps.refl _ _
    | with_reducible apply Keeps.ite
    | (fail_if_no_progress with_reducible apply Keeps.upd)
    | with_reducible apply State.sump_keeps
    | with_reducible apply State.endRequest_keeps
    | with_reducible apply State.count_keeps
    | (fail_if_no_progress dsimp only)

theorem State.poisonSeen_keeps {st : Bool} {b s : State} (h : Keeps st b s)  :
    Keeps st b (State.poisonSeen s) := by
  unfold State.poisonSeen
  repeat' first
    | with_reducible assumption
    | with_reducible exact Keeps.refl _ _
    | with_reducible apply Keeps.ite
    | (fail_if_no_progress with_reducible apply Keeps.upd)
    | with_reducible apply State.bump_keeps
    | with_reducible apply State.sticky_keeps
    | (fail_if_no_progress dsimp only)

theorem State.msix_keeps {st : Bool} {b s : State} (h : Keeps st b s) (fn : Nat) (vec : Nat) :
    Keeps st b (State.msix s fn vec) := by
  unfold State.msix
  repeat' first
    | with_reducible assumption
    | with_reducible exact Keeps.refl _ _
    | with_reducible apply Keeps.ite
    | (fail_if_no_progress with_reducible apply Keeps.upd)
    | with_reducible apply State.msixCore_keeps
    | with_reducible apply State.count_keeps
    | (extract_lets +onlyGivenNames x; refine Keeps.cut (st := st) (b := b) x ?_ ?_; rotate_left; (clear_value x; intro hx); rotate_left; subst x)
    | (extract_lets +onlyGivenNames x; refine Keeps.cut (st := st) (b := b) x.1 ?_ ?_; rotate_left; (clear_value x; intro hx); rotate_left; subst x)
    | (extract_lets +onlyGivenNames x; refine Keeps.cut (st := st) (b := b) x.2 ?_ ?_; rotate_left; (clear_value x; intro hx); rotate_left; subst x)
    | (extract_lets +onlyGivenNames x; clear_value x)
    | (extract_lets +onlyGivenNames x)
    | split
    | (fail_if_no_progress dsimp only)

end Sys2Proof.Machine
end

