-- ==== Sys2Proof/Laws/KOperands.lean ====
section
/-! SUPPORT. What the operations of Machine/Operands.lean keep. -/

set_option linter.unusedTactic false
set_option linter.unreachableTactic false

namespace Sys2Proof.Machine

theorem State.deny_keeps {st : Bool} {b s : State} (h : Keeps st b s) (m : Nat) (t : Nat) (r : Right) (secret : Bool) :
    Keeps st b (State.deny s m t r secret) := by
  unfold State.deny
  repeat' first
    | with_reducible assumption
    | with_reducible exact Keeps.refl _ _
    | with_reducible apply Keeps.ite
    | (fail_if_no_progress with_reducible apply Keeps.upd)
    | with_reducible apply State.bump_keeps
    | with_reducible apply State.setN_keeps
    | with_reducible apply State.sticky_keeps
    | with_reducible apply State.count_keeps
    | (extract_lets +onlyGivenNames x; refine Keeps.cut (st := st) (b := b) x ?_ ?_; rotate_left; (clear_value x; intro hx); rotate_left; subst x)
    | (extract_lets +onlyGivenNames x; refine Keeps.cut (st := st) (b := b) x.1 ?_ ?_; rotate_left; (clear_value x; intro hx); rotate_left; subst x)
    | (extract_lets +onlyGivenNames x; refine Keeps.cut (st := st) (b := b) x.2 ?_ ?_; rotate_left; (clear_value x; intro hx); rotate_left; subst x)
    | (extract_lets +onlyGivenNames x; clear_value x)
    | (extract_lets +onlyGivenNames x)
    | (fail_if_no_progress dsimp only)

theorem State.postCpl_keeps {st : Bool} {b s : State} (h : Keeps st b s) (r : Nat) (c : Cpl) :
    Keeps st b (State.postCpl s r c) := by
  unfold State.postCpl
  repeat' first
    | with_reducible assumption
    | with_reducible exact Keeps.refl _ _
    | with_reducible apply Keeps.ite
    | (fail_if_no_progress with_reducible apply Keeps.upd)
    | with_reducible apply State.setRing_keeps
    | (extract_lets +onlyGivenNames x; refine Keeps.cut (st := st) (b := b) x ?_ ?_; rotate_left; (clear_value x; intro hx); rotate_left; subst x)
    | (extract_lets +onlyGivenNames x; refine Keeps.cut (st := st) (b := b) x.1 ?_ ?_; rotate_left; (clear_value x; intro hx); rotate_left; subst x)
    | (extract_lets +onlyGivenNames x; refine Keeps.cut (st := st) (b := b) x.2 ?_ ?_; rotate_left; (clear_value x; intro hx); rotate_left; subst x)
    | (extract_lets +onlyGivenNames x; clear_value x)
    | (extract_lets +onlyGivenNames x)
    | split
    | (fail_if_no_progress dsimp only)

theorem State.takeCmd_keeps {st : Bool} {b s : State} (h : Keeps st b s) (c : HostCmd) :
    Keeps st b (State.takeCmd s c) := by
  unfold State.takeCmd
  repeat' first
    | with_reducible assumption
    | with_reducible exact Keeps.refl _ _
    | with_reducible apply Keeps.ite
    | (fail_if_no_progress with_reducible apply Keeps.upd)
    | with_reducible apply State.qTake_keeps
    | split
    | (fail_if_no_progress dsimp only)

theorem State.complete_keeps {st : Bool} {b s : State} (h : Keeps st b s) (c : HostCmd) (status : Nat) (count : Nat) :
    Keeps st b (State.complete s c status count) := by
  unfold State.complete
  repeat' first
    | with_reducible assumption
    | with_reducible exact Keeps.refl _ _
    | with_reducible apply Keeps.ite
    | (fail_if_no_progress with_reducible apply Keeps.upd)
    | with_reducible apply State.takeCmd_keeps
    | with_reducible apply State.setN_keeps
    | with_reducible apply State.sticky_keeps
    | with_reducible apply State.bump_keeps
    | with_reducible apply State.postCpl_keeps
    | with_reducible apply State.count_keeps
    | (extract_lets +onlyGivenNames x; refine Keeps.cut (st := st) (b := b) x ?_ ?_; rotate_left; (clear_value x; intro hx); rotate_left; subst x)
    | (extract_lets +onlyGivenNames x; refine Keeps.cut (st := st) (b := b) x.1 ?_ ?_; rotate_left; (clear_value x; intro hx); rotate_left; subst x)
    | (extract_lets +onlyGivenNames x; refine Keeps.cut (st := st) (b := b) x.2 ?_ ?_; rotate_left; (clear_value x; intro hx); rotate_left; subst x)
    | (extract_lets +onlyGivenNames x; clear_value x)
    | (extract_lets +onlyGivenNames x)
    | split
    | (fail_if_no_progress dsimp only)

end Sys2Proof.Machine
end

