-- ==== Sys2Proof/Laws/KTimescale.lean ====
section
/-! SUPPORT. What the operations of Machine/Timescale.lean keep. -/

set_option linter.unusedTactic false
set_option linter.unreachableTactic false

namespace Sys2Proof.Machine

theorem State.rebase_keeps {st : Bool} {b s : State} (h : Keeps st b s) (n : Nat) (e : Nat) :
    Keeps st b (State.rebase s n e) := by
  unfold State.rebase
  repeat' first
    | with_reducible assumption
    | with_reducible exact Keeps.refl _ _
    | with_reducible apply Keeps.ite
    | (fail_if_no_progress with_reducible apply Keeps.upd)
    | with_reducible apply State.setTs_keeps
    | (extract_lets +onlyGivenNames x; refine Keeps.cut (st := st) (b := b) x ?_ ?_; rotate_left; (clear_value x; intro hx); rotate_left; subst x)
    | (extract_lets +onlyGivenNames x; refine Keeps.cut (st := st) (b := b) x.1 ?_ ?_; rotate_left; (clear_value x; intro hx); rotate_left; subst x)
    | (extract_lets +onlyGivenNames x; refine Keeps.cut (st := st) (b := b) x.2 ?_ ?_; rotate_left; (clear_value x; intro hx); rotate_left; subst x)
    | (extract_lets +onlyGivenNames x; clear_value x)
    | (extract_lets +onlyGivenNames x)
    | (fail_if_no_progress dsimp only)

theorem State.rebaseAll_keeps {st : Bool} {b s : State} (h : Keeps st b s) (e : Nat) :
    Keeps st b (State.rebaseAll s e) := by
  unfold State.rebaseAll
  repeat' first
    | with_reducible assumption
    | with_reducible exact Keeps.refl _ _
    | with_reducible apply Keeps.ite
    | (fail_if_no_progress with_reducible apply Keeps.upd)
    | (fail_if_no_progress with_reducible apply Keeps.upd_filter)
    | (fail_if_no_progress with_reducible apply Keeps.upd_filter_all)
    | with_reducible apply State.rebase_keeps
    | (with_reducible refine Keeps.foldl ?_ ?_)
    | (with_reducible refine Keeps.foldl_fst ?_ ?_)
    | (intro u a hu; beta_reduce)
    | (intro u hu; beta_reduce)
    | (fail_if_no_progress dsimp only)

theorem State.steer_keeps {st : Bool} {b s : State} (h : Keeps st b s) (rate : Option Int) (target : Option Int) (bound : Option Int) :
    Keeps st b (State.steer s rate target bound) := by
  unfold State.steer
  repeat' first
    | with_reducible assumption
    | with_reducible exact Keeps.refl _ _
    | with_reducible apply Keeps.ite
    | (fail_if_no_progress with_reducible apply Keeps.upd)
    | with_reducible apply State.free_keeps
    | with_reducible apply State.reanchorAll_keeps
    | with_reducible apply State.count_keeps
    | with_reducible apply State.rebaseAll_keeps
    | with_reducible apply State.setBoth_keeps
    | with_reducible apply State.setTs_keeps
    | with_reducible apply State.showSlew_keeps
    | (extract_lets +onlyGivenNames x; refine Keeps.cut (st := st) (b := b) x ?_ ?_; rotate_left; (clear_value x; intro hx); rotate_left; subst x)
    | (extract_lets +onlyGivenNames x; refine Keeps.cut (st := st) (b := b) x.1 ?_ ?_; rotate_left; (clear_value x; intro hx); rotate_left; subst x)
    | (extract_lets +onlyGivenNames x; refine Keeps.cut (st := st) (b := b) x.2 ?_ ?_; rotate_left; (clear_value x; intro hx); rotate_left; subst x)
    | (extract_lets +onlyGivenNames x; clear_value x)
    | (extract_lets +onlyGivenNames x)
    | split
    | (refine OKeeps.of_some (by assumption) ?_)
    | (with_reducible refine Keeps.of_pair (by assumption) ?_)
    | (with_reducible refine Keeps.of_pair2 (by assumption) ?_)
    | (fail_if_no_progress dsimp only)

theorem State.endSlew_keeps {st : Bool} {b s : State} (h : Keeps st b s) (n : Nat) :
    Keeps st b (State.endSlew s n) := by
  unfold State.endSlew
  repeat' first
    | with_reducible assumption
    | with_reducible exact Keeps.refl _ _
    | with_reducible apply Keeps.ite
    | (fail_if_no_progress with_reducible apply Keeps.upd)
    | with_reducible apply State.reanchorAll_keeps
    | with_reducible apply State.count_keeps
    | with_reducible apply State.setTs_keeps
    | with_reducible apply State.wr_keeps
    | with_reducible apply State.showSlew_keeps
    | with_reducible apply State.sticky_keeps
    | (extract_lets +onlyGivenNames x; refine Keeps.cut (st := st) (b := b) x ?_ ?_; rotate_left; (clear_value x; intro hx); rotate_left; subst x)
    | (extract_lets +onlyGivenNames x; refine Keeps.cut (st := st) (b := b) x.1 ?_ ?_; rotate_left; (clear_value x; intro hx); rotate_left; subst x)
    | (extract_lets +onlyGivenNames x; refine Keeps.cut (st := st) (b := b) x.2 ?_ ?_; rotate_left; (clear_value x; intro hx); rotate_left; subst x)
    | (extract_lets +onlyGivenNames x; clear_value x)
    | (extract_lets +onlyGivenNames x)
    | split
    | (fail_if_no_progress dsimp only)

theorem State.stepBy_keeps {st : Bool} {b s : State} (h : Keeps st b s) (n : Nat) (amount : Int) :
    Keeps st b (State.stepBy s n amount) := by
  unfold State.stepBy
  repeat' first
    | with_reducible assumption
    | with_reducible exact Keeps.refl _ _
    | with_reducible apply Keeps.ite
    | (fail_if_no_progress with_reducible apply Keeps.upd)
    | (fail_if_no_progress with_reducible apply Keeps.upd_filter)
    | (fail_if_no_progress with_reducible apply Keeps.upd_filter_all)
    | with_reducible apply State.setTs_keeps
    | (with_reducible refine State.setTsc_keeps ?_ _ ?hx ?hy; (case hx => (intro _; rfl)); (case hy => (intro _; rfl)))
    | with_reducible apply State.setQuiet_keeps
    | with_reducible apply State.journal_keeps
    | (with_reducible refine Keeps.foldl ?_ ?_)
    | (with_reducible refine Keeps.foldl_fst ?_ ?_)
    | (intro u a hu; beta_reduce)
    | (intro u hu; beta_reduce)
    | (extract_lets +onlyGivenNames x; refine Keeps.cut (st := st) (b := b) x ?_ ?_; rotate_left; (clear_value x; intro hx); rotate_left; subst x)
    | (extract_lets +onlyGivenNames x; refine Keeps.cut (st := st) (b := b) x.1 ?_ ?_; rotate_left; (clear_value x; intro hx); rotate_left; subst x)
    | (extract_lets +onlyGivenNames x; refine Keeps.cut (st := st) (b := b) x.2 ?_ ?_; rotate_left; (clear_value x; intro hx); rotate_left; subst x)
    | (extract_lets +onlyGivenNames x; clear_value x)
    | (extract_lets +onlyGivenNames x)
    | split
    | (fail_if_no_progress dsimp only)

theorem State.startSmear_keeps {st : Bool} {b s : State} (h : Keeps st b s) (prof : Nat) (sec : Nat) (delta : Int) :
    Keeps st b (State.startSmear s prof sec delta) := by
  unfold State.startSmear
  repeat' first
    | with_reducible assumption
    | with_reducible exact Keeps.refl _ _
    | with_reducible apply Keeps.ite
    | (fail_if_no_progress with_reducible apply Keeps.upd)
    | (fail_if_no_progress with_reducible apply Keeps.upd_filter)
    | (fail_if_no_progress with_reducible apply Keeps.upd_filter_all)
    | with_reducible apply State.reanchor_keeps
    | with_reducible apply State.count_keeps
    | with_reducible apply State.setTs_keeps
    | with_reducible apply State.wr_keeps
    | with_reducible apply State.showSlew_keeps
    | (with_reducible refine State.setTsc_keeps ?_ _ ?hx ?hy; (case hx => (intro _; rfl)); (case hy => (intro _; rfl)))
    | (with_reducible refine Keeps.foldl ?_ ?_)
    | (with_reducible refine Keeps.foldl_fst ?_ ?_)
    | (intro u a hu; beta_reduce)
    | (intro u hu; beta_reduce)
    | (extract_lets +onlyGivenNames x; refine Keeps.cut (st := st) (b := b) x ?_ ?_; rotate_left; (clear_value x; intro hx); rotate_left; subst x)
    | (extract_lets +onlyGivenNames x; refine Keeps.cut (st := st) (b := b) x.1 ?_ ?_; rotate_left; (clear_value x; intro hx); rotate_left; subst x)
    | (extract_lets +onlyGivenNames x; refine Keeps.cut (st := st) (b := b) x.2 ?_ ?_; rotate_left; (clear_value x; intro hx); rotate_left; subst x)
    | (extract_lets +onlyGivenNames x; clear_value x)
    | (extract_lets +onlyGivenNames x)
    | (fail_if_no_progress dsimp only)

theorem State.commitStep_keeps {st : Bool} {b s : State} (h : Keeps st b s)  :
    Keeps st b (State.commitStep s) := by
  unfold State.commitStep
  repeat' first
    | with_reducible assumption
    | with_reducible exact Keeps.refl _ _
    | with_reducible apply Keeps.ite
    | (fail_if_no_progress with_reducible apply Keeps.upd)
    | with_reducible apply State.stepBy_keeps
    | (extract_lets +onlyGivenNames x; refine Keeps.cut (st := st) (b := b) x ?_ ?_; rotate_left; (clear_value x; intro hx); rotate_left; subst x)
    | (extract_lets +onlyGivenNames x; refine Keeps.cut (st := st) (b := b) x.1 ?_ ?_; rotate_left; (clear_value x; intro hx); rotate_left; subst x)
    | (extract_lets +onlyGivenNames x; refine Keeps.cut (st := st) (b := b) x.2 ?_ ?_; rotate_left; (clear_value x; intro hx); rotate_left; subst x)
    | (extract_lets +onlyGivenNames x; clear_value x)
    | (extract_lets +onlyGivenNames x)
    | split
    | (refine OKeeps.of_some (by assumption) ?_)
    | (with_reducible refine Keeps.of_pair (by assumption) ?_)
    | (with_reducible refine Keeps.of_pair2 (by assumption) ?_)
    | (fail_if_no_progress dsimp only)

theorem State.lateSmears_keeps {st : Bool} {b s : State} (h : Keeps st b s) (old : State) :
    Keeps st b (State.lateSmears s old) := by
  unfold State.lateSmears
  repeat' first
    | with_reducible assumption
    | with_reducible exact Keeps.refl _ _
    | with_reducible apply Keeps.ite
    | (fail_if_no_progress with_reducible apply Keeps.upd)
    | with_reducible apply State.startSmear_keeps
    | with_reducible apply State.sticky_keeps
    | (with_reducible refine Keeps.foldl ?_ ?_)
    | (with_reducible refine Keeps.foldl_fst ?_ ?_)
    | (intro u a hu; beta_reduce)
    | (intro u hu; beta_reduce)
    | (extract_lets +onlyGivenNames x; refine Keeps.cut (st := st) (b := b) x ?_ ?_; rotate_left; (clear_value x; intro hx); rotate_left; subst x)
    | (extract_lets +onlyGivenNames x; refine Keeps.cut (st := st) (b := b) x.1 ?_ ?_; rotate_left; (clear_value x; intro hx); rotate_left; subst x)
    | (extract_lets +onlyGivenNames x; refine Keeps.cut (st := st) (b := b) x.2 ?_ ?_; rotate_left; (clear_value x; intro hx); rotate_left; subst x)
    | (extract_lets +onlyGivenNames x; clear_value x)
    | (extract_lets +onlyGivenNames x)
    | split
    | (fail_if_no_progress dsimp only)

theorem State.tscApply_keeps {st : Bool} {b s : State} (h : Keeps st b s)  :
    Keeps st b (State.tscApply s) := by
  unfold State.tscApply
  repeat' first
    | with_reducible assumption
    | with_reducible exact Keeps.refl _ _
    | with_reducible apply Keeps.ite
    | (fail_if_no_progress with_reducible apply Keeps.upd)
    | (fail_if_no_progress with_reducible apply Keeps.upd_filter)
    | (fail_if_no_progress with_reducible apply Keeps.upd_filter_all)
    | with_reducible apply State.commitStep_keeps
    | with_reducible apply State.reanchor_keeps
    | with_reducible apply State.count_keeps
    | with_reducible apply State.rebase_keeps
    | with_reducible apply State.applyShadows_keeps
    | with_reducible apply State.setTs_keeps
    | with_reducible apply State.wr_keeps
    | with_reducible apply State.lateSmears_keeps
    | with_reducible apply State.showSlew_keeps
    | with_reducible apply State.setN_keeps
    | (with_reducible refine Keeps.foldl ?_ ?_)
    | (with_reducible refine Keeps.foldl_fst ?_ ?_)
    | (intro u a hu; beta_reduce)
    | (intro u hu; beta_reduce)
    | (extract_lets +onlyGivenNames x; refine Keeps.cut (st := st) (b := b) x ?_ ?_; rotate_left; (clear_value x; intro hx); rotate_left; subst x)
    | (extract_lets +onlyGivenNames x; refine Keeps.cut (st := st) (b := b) x.1 ?_ ?_; rotate_left; (clear_value x; intro hx); rotate_left; subst x)
    | (extract_lets +onlyGivenNames x; refine Keeps.cut (st := st) (b := b) x.2 ?_ ?_; rotate_left; (clear_value x; intro hx); rotate_left; subst x)
    | (extract_lets +onlyGivenNames x; clear_value x)
    | (extract_lets +onlyGivenNames x)
    | split
    | (refine OKeeps.of_some (by assumption) ?_)
    | (with_reducible refine Keeps.of_pair (by assumption) ?_)
    | (with_reducible refine Keeps.of_pair2 (by assumption) ?_)
    | (fail_if_no_progress dsimp only)

theorem State.setCmp_keeps {st : Bool} {b s : State} (h : Keeps st b s) (n : Nat) (t : Cmp) : Keeps st b (State.setCmp s n t) :=
  Keeps.upd_tsc h _ id (fun w => Store.put_wf w)

theorem State.arm_keeps {st : Bool} {b s : State} (h : Keeps st b s) (u : Nat) (ts : Nat) (g : Nat) :
    Keeps st b (State.arm s u ts g) := by
  unfold State.arm
  repeat' first
    | with_reducible assumption
    | with_reducible exact Keeps.refl _ _
    | with_reducible apply Keeps.ite
    | (fail_if_no_progress with_reducible apply Keeps.upd)
    | with_reducible apply State.setCmp_keeps
    | (fail_if_no_progress dsimp only)

theorem State.disarm_keeps {st : Bool} {b s : State} (h : Keeps st b s) (u : Nat) :
    Keeps st b (State.disarm s u) := by
  unfold State.disarm
  repeat' first
    | with_reducible assumption
    | with_reducible exact Keeps.refl _ _
    | with_reducible apply Keeps.ite
    | (fail_if_no_progress with_reducible apply Keeps.upd)
    | with_reducible apply State.setCmp_keeps
    | (fail_if_no_progress dsimp only)

theorem State.fireCmp_keeps {st : Bool} {b s : State} (h : Keeps st b s) (u : Nat) :
    Keeps st b (State.fireCmp s u).1 := by
  unfold State.fireCmp
  repeat' first
    | with_reducible assumption
    | with_reducible exact Keeps.refl _ _
    | with_reducible apply Keeps.ite
    | (fail_if_no_progress with_reducible apply Keeps.upd)
    | with_reducible apply State.disarm_keeps
    | with_reducible apply State.count_keeps
    | with_reducible apply State.bump_keeps
    | with_reducible apply State.sticky_keeps
    | split
    | (refine OKeeps.of_some (by assumption) ?_)
    | (with_reducible refine Keeps.of_pair (by assumption) ?_)
    | (with_reducible refine Keeps.of_pair2 (by assumption) ?_)
    | (fail_if_no_progress dsimp only)

theorem State.snap_keeps {st : Bool} {b s : State} (h : Keeps st b s) (n : Nat) :
    Keeps st b (State.snap s n) := by
  unfold State.snap
  repeat' first
    | with_reducible assumption
    | with_reducible exact Keeps.refl _ _
    | with_reducible apply Keeps.ite
    | (fail_if_no_progress with_reducible apply Keeps.upd)
    | with_reducible apply State.set96_keeps
    | with_reducible apply State.wr_keeps
    | with_reducible apply State.bumpF_keeps
    | (extract_lets +onlyGivenNames x; refine Keeps.cut (st := st) (b := b) x ?_ ?_; rotate_left; (clear_value x; intro hx); rotate_left; subst x)
    | (extract_lets +onlyGivenNames x; refine Keeps.cut (st := st) (b := b) x.1 ?_ ?_; rotate_left; (clear_value x; intro hx); rotate_left; subst x)
    | (extract_lets +onlyGivenNames x; refine Keeps.cut (st := st) (b := b) x.2 ?_ ?_; rotate_left; (clear_value x; intro hx); rotate_left; subst x)
    | (extract_lets +onlyGivenNames x; clear_value x)
    | (extract_lets +onlyGivenNames x)
    | (fail_if_no_progress dsimp only)

end Sys2Proof.Machine
end

