-- ==== Sys2Proof/Laws/KRef.lean ====
section
/-! SUPPORT. What the operations of Machine/Ref.lean keep. -/

set_option linter.unusedTactic false
set_option linter.unreachableTactic false

namespace Sys2Proof.Machine

theorem State.setSlot_keeps {st : Bool} {b s : State} (h : Keeps st b s) (n : Nat) (x : RSlot) :
    Keeps st b (State.setSlot s n x) := by
  unfold State.setSlot
  repeat' first
    | with_reducible assumption
    | with_reducible exact Keeps.refl _ _
    | with_reducible apply Keeps.ite
    | (fail_if_no_progress with_reducible apply Keeps.upd)
    | (fail_if_no_progress dsimp only)

theorem State.setRin_keeps {st : Bool} {b s : State} (h : Keeps st b s) (i : Nat) (x : RIn) :
    Keeps st b (State.setRin s i x) := by
  unfold State.setRin
  repeat' first
    | with_reducible assumption
    | with_reducible exact Keeps.refl _ _
    | with_reducible apply Keeps.ite
    | (fail_if_no_progress with_reducible apply Keeps.upd)
    | (fail_if_no_progress dsimp only)

theorem State.setUpq_keeps {st : Bool} {b s : State} (h : Keeps st b s) (u : Nat) (x : UpQ) :
    Keeps st b (State.setUpq s u x) := by
  unfold State.setUpq
  repeat' first
    | with_reducible assumption
    | with_reducible exact Keeps.refl _ _
    | with_reducible apply Keeps.ite
    | (fail_if_no_progress with_reducible apply Keeps.upd)
    | (fail_if_no_progress dsimp only)

theorem State.setCause_keeps {st : Bool} {b s : State} (h : Keeps st b s) (c : Nat) :
    Keeps st b (State.setCause s c) := by
  unfold State.setCause
  repeat' first
    | with_reducible assumption
    | with_reducible exact Keeps.refl _ _
    | with_reducible apply Keeps.ite
    | (fail_if_no_progress with_reducible apply Keeps.upd)
    | (fail_if_no_progress dsimp only)

theorem State.setSlotState_keeps {st : Bool} {b s : State} (h : Keeps st b s) (n : Nat) (x_st : Nat) :
    Keeps st b (State.setSlotState s n x_st) := by
  unfold State.setSlotState
  repeat' first
    | with_reducible assumption
    | with_reducible exact Keeps.refl _ _
    | with_reducible apply Keeps.ite
    | (fail_if_no_progress with_reducible apply Keeps.upd)
    | with_reducible apply State.wr_keeps
    | (fail_if_no_progress dsimp only)

theorem State.history_keeps {st : Bool} {b s : State} (h : Keeps st b s) (n : Nat) (bit : Nat) :
    Keeps st b (State.history s n bit) := by
  unfold State.history
  repeat' first
    | with_reducible assumption
    | with_reducible exact Keeps.refl _ _
    | with_reducible apply Keeps.ite
    | (fail_if_no_progress with_reducible apply Keeps.upd)
    | with_reducible apply State.wr_keeps
    | with_reducible apply State.journal_keeps
    | with_reducible apply State.sticky_keeps
    | (extract_lets +onlyGivenNames x; refine Keeps.cut (st := st) (b := b) x ?_ ?_; rotate_left; (clear_value x; intro hx); rotate_left; subst x)
    | (extract_lets +onlyGivenNames x; refine Keeps.cut (st := st) (b := b) x.1 ?_ ?_; rotate_left; (clear_value x; intro hx); rotate_left; subst x)
    | (extract_lets +onlyGivenNames x; refine Keeps.cut (st := st) (b := b) x.2 ?_ ?_; rotate_left; (clear_value x; intro hx); rotate_left; subst x)
    | (extract_lets +onlyGivenNames x; clear_value x)
    | (extract_lets +onlyGivenNames x)
    | split
    | (fail_if_no_progress dsimp only)

theorem State.addFreq_keeps {st : Bool} {b s : State} (h : Keeps st b s) (n : Nat) (p : Smp) (nominal : Nat) :
    Keeps st b (State.addFreq s n p nominal) := by
  unfold State.addFreq
  repeat' first
    | with_reducible assumption
    | with_reducible exact Keeps.refl _ _
    | with_reducible apply Keeps.ite
    | (fail_if_no_progress with_reducible apply Keeps.upd)
    | (fail_if_no_progress with_reducible apply Keeps.upd_filter)
    | (fail_if_no_progress with_reducible apply Keeps.upd_filter_all)
    | with_reducible apply State.setSlot_keeps
    | with_reducible apply State.setSat_keeps
    | with_reducible apply State.setN_keeps
    | (intro u a hu; beta_reduce)
    | (intro u hu; beta_reduce)
    | (extract_lets +onlyGivenNames x; refine Keeps.cut (st := st) (b := b) x ?_ ?_; rotate_left; (clear_value x; intro hx); rotate_left; subst x)
    | (extract_lets +onlyGivenNames x; refine Keeps.cut (st := st) (b := b) x.1 ?_ ?_; rotate_left; (clear_value x; intro hx); rotate_left; subst x)
    | (extract_lets +onlyGivenNames x; refine Keeps.cut (st := st) (b := b) x.2 ?_ ?_; rotate_left; (clear_value x; intro hx); rotate_left; subst x)
    | (extract_lets +onlyGivenNames x; clear_value x)
    | (extract_lets +onlyGivenNames x)
    | split
    | (refine OKeeps.of_some (by assumption) ?_)
    | (with_reducible refine Keeps.of_pair (by assumption) ?_)
    | (with_reducible refine Keeps.of_pair2 (by assumption) ?_)
    | (fail_if_no_progress dsimp only)

theorem State.dscEvent_keeps {st : Bool} {b s : State} (h : Keeps st b s) (bit : Nat) :
    Keeps st b (State.dscEvent s bit) := by
  unfold State.dscEvent
  repeat' first
    | with_reducible assumption
    | with_reducible exact Keeps.refl _ _
    | with_reducible apply Keeps.ite
    | (fail_if_no_progress with_reducible apply Keeps.upd)
    | with_reducible apply State.seqEvent_keeps
    | (with_reducible refine Keeps.foldl ?_ ?_)
    | (with_reducible refine Keeps.foldl_fst ?_ ?_)
    | (intro u a hu; beta_reduce)
    | (intro u hu; beta_reduce)
    | (fail_if_no_progress dsimp only)

theorem State.toDsc_keeps {st : Bool} {b s : State} (h : Keeps st b s) (n : Nat) (p : Smp) :
    Keeps st b (State.toDsc s n p) := by
  unfold State.toDsc
  repeat' first
    | with_reducible assumption
    | with_reducible exact Keeps.refl _ _
    | with_reducible apply Keeps.ite
    | (fail_if_no_progress with_reducible apply Keeps.upd)
    | with_reducible apply State.setSlot_keeps
    | with_reducible apply State.qPut_keeps
    | with_reducible apply State.dscEvent_keeps
    | with_reducible apply State.qTake_keeps
    | (extract_lets +onlyGivenNames x; refine Keeps.cut (st := st) (b := b) x ?_ ?_; rotate_left; (clear_value x; intro hx); rotate_left; subst x)
    | (extract_lets +onlyGivenNames x; refine Keeps.cut (st := st) (b := b) x.1 ?_ ?_; rotate_left; (clear_value x; intro hx); rotate_left; subst x)
    | (extract_lets +onlyGivenNames x; refine Keeps.cut (st := st) (b := b) x.2 ?_ ?_; rotate_left; (clear_value x; intro hx); rotate_left; subst x)
    | (extract_lets +onlyGivenNames x; clear_value x)
    | (extract_lets +onlyGivenNames x)
    | split
    | (fail_if_no_progress dsimp only)

theorem State.takeSmp_keeps {st : Bool} {b s : State} (h : Keeps st b s) (n : Nat) :
    Keeps st b (State.takeSmp s n).1 := by
  unfold State.takeSmp
  repeat' first
    | with_reducible assumption
    | with_reducible exact Keeps.refl _ _
    | with_reducible apply Keeps.ite
    | (fail_if_no_progress with_reducible apply Keeps.upd)
    | with_reducible apply State.setSlot_keeps
    | with_reducible apply State.qTake_keeps
    | with_reducible apply State.qPut_keeps
    | (extract_lets +onlyGivenNames x; refine Keeps.cut (st := st) (b := b) x ?_ ?_; rotate_left; (clear_value x; intro hx); rotate_left; subst x)
    | (extract_lets +onlyGivenNames x; refine Keeps.cut (st := st) (b := b) x.1 ?_ ?_; rotate_left; (clear_value x; intro hx); rotate_left; subst x)
    | (extract_lets +onlyGivenNames x; refine Keeps.cut (st := st) (b := b) x.2 ?_ ?_; rotate_left; (clear_value x; intro hx); rotate_left; subst x)
    | (extract_lets +onlyGivenNames x; clear_value x)
    | (extract_lets +onlyGivenNames x)
    | split
    | (refine OKeeps.of_some (by assumption) ?_)
    | (with_reducible refine Keeps.of_pair (by assumption) ?_)
    | (with_reducible refine Keeps.of_pair2 (by assumption) ?_)
    | (fail_if_no_progress dsimp only)

theorem State.phaseBig_keeps {st : Bool} {b s : State} (h : Keeps st b s) (n : Nat) (phi : Int) :
    Keeps st b (State.phaseBig s n phi) := by
  unfold State.phaseBig
  repeat' first
    | with_reducible assumption
    | with_reducible exact Keeps.refl _ _
    | with_reducible apply Keeps.ite
    | (fail_if_no_progress with_reducible apply Keeps.upd)
    | with_reducible apply State.setSlot_keeps
    | with_reducible apply State.wrB_keeps
    | with_reducible apply State.sticky_keeps
    | (extract_lets +onlyGivenNames x; refine Keeps.cut (st := st) (b := b) x ?_ ?_; rotate_left; (clear_value x; intro hx); rotate_left; subst x)
    | (extract_lets +onlyGivenNames x; refine Keeps.cut (st := st) (b := b) x.1 ?_ ?_; rotate_left; (clear_value x; intro hx); rotate_left; subst x)
    | (extract_lets +onlyGivenNames x; refine Keeps.cut (st := st) (b := b) x.2 ?_ ?_; rotate_left; (clear_value x; intro hx); rotate_left; subst x)
    | (extract_lets +onlyGivenNames x; clear_value x)
    | (extract_lets +onlyGivenNames x)
    | split
    | (fail_if_no_progress dsimp only)

theorem State.addPhase_keeps {st : Bool} {b s : State} (h : Keeps st b s) (n : Nat) (p : Smp) (shown : Int) (jumpEvent : Bool) :
    Keeps st b (State.addPhase s n p shown jumpEvent) := by
  unfold State.addPhase
  repeat' first
    | with_reducible assumption
    | with_reducible exact Keeps.refl _ _
    | with_reducible apply Keeps.ite
    | (fail_if_no_progress with_reducible apply Keeps.upd)
    | with_reducible apply State.setSlot_keeps
    | with_reducible apply State.setN_keeps
    | with_reducible apply State.phaseBig_keeps
    | with_reducible apply State.toDsc_keeps
    | with_reducible apply State.count_keeps
    | (extract_lets +onlyGivenNames x; refine Keeps.cut (st := st) (b := b) x ?_ ?_; rotate_left; (clear_value x; intro hx); rotate_left; subst x)
    | (extract_lets +onlyGivenNames x; refine Keeps.cut (st := st) (b := b) x.1 ?_ ?_; rotate_left; (clear_value x; intro hx); rotate_left; subst x)
    | (extract_lets +onlyGivenNames x; refine Keeps.cut (st := st) (b := b) x.2 ?_ ?_; rotate_left; (clear_value x; intro hx); rotate_left; subst x)
    | (extract_lets +onlyGivenNames x; clear_value x)
    | (extract_lets +onlyGivenNames x)
    | split
    | (refine OKeeps.of_some (by assumption) ?_)
    | (with_reducible refine Keeps.of_pair (by assumption) ?_)
    | (with_reducible refine Keeps.of_pair2 (by assumption) ?_)
    | (fail_if_no_progress dsimp only)

theorem State.measure_keeps {st : Bool} {b s : State} (h : Keeps st b s) (n : Nat) (p : Smp) (shown : Int) (jumpEvent : Bool) :
    Keeps st b (State.measure s n p shown jumpEvent) := by
  unfold State.measure
  repeat' first
    | with_reducible assumption
    | with_reducible exact Keeps.refl _ _
    | with_reducible apply Keeps.ite
    | (fail_if_no_progress with_reducible apply Keeps.upd)
    | with_reducible apply State.addPhase_keeps
    | with_reducible apply State.addFreq_keeps
    | (fail_if_no_progress dsimp only)

theorem State.forgetSource_keeps {st : Bool} {b s : State} (h : Keeps st b s) (n : Nat) :
    Keeps st b (State.forgetSource s n) := by
  unfold State.forgetSource
  repeat' first
    | with_reducible assumption
    | with_reducible exact Keeps.refl _ _
    | with_reducible apply Keeps.ite
    | (fail_if_no_progress with_reducible apply Keeps.upd)
    | with_reducible apply State.setSlot_keeps
    | with_reducible apply State.setN_keeps
    | (fail_if_no_progress dsimp only)

theorem State.ppsEdge_keeps {st : Bool} {b s : State} (h : Keeps st b s) (i : Nat) :
    Keeps st b (State.ppsEdge s i) := by
  unfold State.ppsEdge
  repeat' first
    | with_reducible assumption
    | with_reducible exact Keeps.refl _ _
    | with_reducible apply Keeps.ite
    | (fail_if_no_progress with_reducible apply Keeps.upd)
    | with_reducible apply State.setRin_keeps
    | with_reducible apply State.bumpF_keeps
    | with_reducible apply State.wr_keeps
    | with_reducible apply State.measure_keeps
    | with_reducible apply State.addPhase_keeps
    | (with_reducible refine Keeps.foldl ?_ ?_)
    | (with_reducible refine Keeps.foldl_fst ?_ ?_)
    | (intro u a hu; beta_reduce)
    | (intro u hu; beta_reduce)
    | (extract_lets +onlyGivenNames x; refine Keeps.cut (st := st) (b := b) x ?_ ?_; rotate_left; (clear_value x; intro hx); rotate_left; subst x)
    | (extract_lets +onlyGivenNames x; refine Keeps.cut (st := st) (b := b) x.1 ?_ ?_; rotate_left; (clear_value x; intro hx); rotate_left; subst x)
    | (extract_lets +onlyGivenNames x; refine Keeps.cut (st := st) (b := b) x.2 ?_ ?_; rotate_left; (clear_value x; intro hx); rotate_left; subst x)
    | (extract_lets +onlyGivenNames x; clear_value x)
    | (extract_lets +onlyGivenNames x)
    | split
    | (refine OKeeps.of_some (by assumption) ?_)
    | (with_reducible refine Keeps.of_pair (by assumption) ?_)
    | (with_reducible refine Keeps.of_pair2 (by assumption) ?_)
    | (fail_if_no_progress dsimp only)

theorem State.freqEdge_keeps {st : Bool} {b s : State} (h : Keeps st b s) (i : Nat) (n : Nat) :
    Keeps st b (State.freqEdge s i n) := by
  unfold State.freqEdge
  repeat' first
    | with_reducible assumption
    | with_reducible exact Keeps.refl _ _
    | with_reducible apply Keeps.ite
    | (fail_if_no_progress with_reducible apply Keeps.upd)
    | with_reducible apply State.wr_keeps
    | with_reducible apply State.setRin_keeps
    | with_reducible apply State.bumpF_keeps
    | with_reducible apply State.addFreq_keeps
    | with_reducible apply State.measure_keeps
    | (extract_lets +onlyGivenNames x; refine Keeps.cut (st := st) (b := b) x ?_ ?_; rotate_left; (clear_value x; intro hx); rotate_left; subst x)
    | (extract_lets +onlyGivenNames x; refine Keeps.cut (st := st) (b := b) x.1 ?_ ?_; rotate_left; (clear_value x; intro hx); rotate_left; subst x)
    | (extract_lets +onlyGivenNames x; refine Keeps.cut (st := st) (b := b) x.2 ?_ ?_; rotate_left; (clear_value x; intro hx); rotate_left; subst x)
    | (extract_lets +onlyGivenNames x; clear_value x)
    | (extract_lets +onlyGivenNames x)
    | split
    | (refine OKeeps.of_some (by assumption) ?_)
    | (with_reducible refine Keeps.of_pair (by assumption) ?_)
    | (with_reducible refine Keeps.of_pair2 (by assumption) ?_)
    | (fail_if_no_progress dsimp only)

theorem State.gnssAccept_keeps {st : Bool} {b s : State} (h : Keeps st b s) (n : Nat) (epoch : Nat) (offset : Int) (qword : Nat) :
    Keeps st b (State.gnssAccept s n epoch offset qword) := by
  unfold State.gnssAccept
  repeat' first
    | with_reducible assumption
    | with_reducible exact Keeps.refl _ _
    | with_reducible apply Keeps.ite
    | (fail_if_no_progress with_reducible apply Keeps.upd)
    | with_reducible apply State.setN_keeps
    | with_reducible apply State.wr_keeps
    | with_reducible apply State.measure_keeps
    | (extract_lets +onlyGivenNames x; refine Keeps.cut (st := st) (b := b) x ?_ ?_; rotate_left; (clear_value x; intro hx); rotate_left; subst x)
    | (extract_lets +onlyGivenNames x; refine Keeps.cut (st := st) (b := b) x.1 ?_ ?_; rotate_left; (clear_value x; intro hx); rotate_left; subst x)
    | (extract_lets +onlyGivenNames x; refine Keeps.cut (st := st) (b := b) x.2 ?_ ?_; rotate_left; (clear_value x; intro hx); rotate_left; subst x)
    | (extract_lets +onlyGivenNames x; clear_value x)
    | (extract_lets +onlyGivenNames x)
    | (fail_if_no_progress dsimp only)

theorem State.lookSlot_keeps {st : Bool} {b s : State} (h : Keeps st b s) (n : Nat) :
    Keeps st b (State.lookSlot s n) := by
  unfold State.lookSlot
  repeat' first
    | with_reducible assumption
    | with_reducible exact Keeps.refl _ _
    | with_reducible apply Keeps.ite
    | (fail_if_no_progress with_reducible apply Keeps.upd)
    | with_reducible apply State.setSlot_keeps
    | with_reducible apply State.wrB_keeps
    | with_reducible apply State.wr_keeps
    | with_reducible apply State.setN_keeps
    | with_reducible apply State.history_keeps
    | (extract_lets +onlyGivenNames x; refine Keeps.cut (st := st) (b := b) x ?_ ?_; rotate_left; (clear_value x; intro hx); rotate_left; subst x)
    | (extract_lets +onlyGivenNames x; refine Keeps.cut (st := st) (b := b) x.1 ?_ ?_; rotate_left; (clear_value x; intro hx); rotate_left; subst x)
    | (extract_lets +onlyGivenNames x; refine Keeps.cut (st := st) (b := b) x.2 ?_ ?_; rotate_left; (clear_value x; intro hx); rotate_left; subst x)
    | (extract_lets +onlyGivenNames x; clear_value x)
    | (extract_lets +onlyGivenNames x)
    | split
    | (fail_if_no_progress dsimp only)

theorem State.qualify_keeps {st : Bool} {b s : State} (h : Keeps st b s) (n : Nat) :
    Keeps st b (State.qualify s n) := by
  unfold State.qualify
  repeat' first
    | with_reducible assumption
    | with_reducible exact Keeps.refl _ _
    | with_reducible apply Keeps.ite
    | (fail_if_no_progress with_reducible apply Keeps.upd)
    | with_reducible apply State.setSlotState_keeps
    | with_reducible apply State.setSlot_keeps
    | split
    | (fail_if_no_progress dsimp only)

theorem State.leaveFailed_keeps {st : Bool} {b s : State} (h : Keeps st b s) (n : Nat) :
    Keeps st b (State.leaveFailed s n) := by
  unfold State.leaveFailed
  repeat' first
    | with_reducible assumption
    | with_reducible exact Keeps.refl _ _
    | with_reducible apply Keeps.ite
    | (fail_if_no_progress with_reducible apply Keeps.upd)
    | with_reducible apply State.setSlotState_keeps
    | with_reducible apply State.setSlot_keeps
    | split
    | (fail_if_no_progress dsimp only)

theorem State.moveSlot_keeps {st : Bool} {b s : State} (h : Keeps st b s) (n : Nat) :
    Keeps st b (State.moveSlot s n) := by
  unfold State.moveSlot
  repeat' first
    | with_reducible assumption
    | with_reducible exact Keeps.refl _ _
    | with_reducible apply Keeps.ite
    | (fail_if_no_progress with_reducible apply Keeps.upd)
    | with_reducible apply State.setSlotState_keeps
    | with_reducible apply State.setSlot_keeps
    | with_reducible apply State.leaveFailed_keeps
    | with_reducible apply State.qualify_keeps
    | with_reducible apply State.wr_keeps
    | (extract_lets +onlyGivenNames x; refine Keeps.cut (st := st) (b := b) x ?_ ?_; rotate_left; (clear_value x; intro hx); rotate_left; subst x)
    | (extract_lets +onlyGivenNames x; refine Keeps.cut (st := st) (b := b) x.1 ?_ ?_; rotate_left; (clear_value x; intro hx); rotate_left; subst x)
    | (extract_lets +onlyGivenNames x; refine Keeps.cut (st := st) (b := b) x.2 ?_ ?_; rotate_left; (clear_value x; intro hx); rotate_left; subst x)
    | (extract_lets +onlyGivenNames x; clear_value x)
    | (extract_lets +onlyGivenNames x)
    | split
    | (fail_if_no_progress dsimp only)

theorem State.restoreSlot_keeps {st : Bool} {b s : State} (h : Keeps st b s) (n : Nat) :
    Keeps st b (State.restoreSlot s n) := by
  unfold State.restoreSlot
  repeat' first
    | with_reducible assumption
    | with_reducible exact Keeps.refl _ _
    | with_reducible apply Keeps.ite
    | (fail_if_no_progress with_reducible apply Keeps.upd)
    | with_reducible apply State.setSlotState_keeps
    | with_reducible apply State.setSlot_keeps
    | split
    | (fail_if_no_progress dsimp only)

theorem State.setDisp_keeps {st : Bool} {b s : State} (h : Keeps st b s) (ds : List Disp) :
    Keeps st b (State.setDisp s ds) := by
  unfold State.setDisp
  repeat' first
    | with_reducible assumption
    | with_reducible exact Keeps.refl _ _
    | with_reducible apply Keeps.ite
    | (fail_if_no_progress with_reducible apply Keeps.upd)
    | (fail_if_no_progress dsimp only)

theorem State.outcome_keeps {st : Bool} {b s : State} (h : Keeps st b s) (d : Disp) (out : Nat) (arb : Option Arb) :
    Keeps st b (State.outcome s d out arb) := by
  unfold State.outcome
  repeat' first
    | with_reducible assumption
    | with_reducible exact Keeps.refl _ _
    | with_reducible apply Keeps.ite
    | (fail_if_no_progress with_reducible apply Keeps.upd)
    | with_reducible apply State.wr_keeps
    | (extract_lets +onlyGivenNames x; refine Keeps.cut (st := st) (b := b) x ?_ ?_; rotate_left; (clear_value x; intro hx); rotate_left; subst x)
    | (extract_lets +onlyGivenNames x; refine Keeps.cut (st := st) (b := b) x.1 ?_ ?_; rotate_left; (clear_value x; intro hx); rotate_left; subst x)
    | (extract_lets +onlyGivenNames x; refine Keeps.cut (st := st) (b := b) x.2 ?_ ?_; rotate_left; (clear_value x; intro hx); rotate_left; subst x)
    | (extract_lets +onlyGivenNames x; clear_value x)
    | (extract_lets +onlyGivenNames x)
    | split
    | (refine OKeeps.of_some (by assumption) ?_)
    | (with_reducible refine Keeps.of_pair (by assumption) ?_)
    | (with_reducible refine Keeps.of_pair2 (by assumption) ?_)
    | (fail_if_no_progress dsimp only)

theorem State.vote_keeps {st : Bool} {b s : State} (h : Keeps st b s) (d : Disp) (lo : Nat) (hi : Nat) :
    Keeps st b (State.vote s d lo hi) := by
  unfold State.vote
  repeat' first
    | with_reducible assumption
    | with_reducible exact Keeps.refl _ _
    | with_reducible apply Keeps.ite
    | (fail_if_no_progress with_reducible apply Keeps.upd)
    | (fail_if_no_progress with_reducible apply Keeps.upd_filter)
    | (fail_if_no_progress with_reducible apply Keeps.upd_filter_all)
    | with_reducible apply State.outcome_keeps
    | with_reducible apply State.setSlotState_keeps
    | with_reducible apply State.setSlot_keeps
    | with_reducible apply State.setCause_keeps
    | with_reducible apply State.restoreSlot_keeps
    | with_reducible apply State.sticky_keeps
    | with_reducible apply State.setDisp_keeps
    | (intro u a hu; beta_reduce)
    | (intro u hu; beta_reduce)
    | (extract_lets +onlyGivenNames x; refine Keeps.cut (st := st) (b := b) x ?_ ?_; rotate_left; (clear_value x; intro hx); rotate_left; subst x)
    | (extract_lets +onlyGivenNames x; refine Keeps.cut (st := st) (b := b) x.1 ?_ ?_; rotate_left; (clear_value x; intro hx); rotate_left; subst x)
    | (extract_lets +onlyGivenNames x; refine Keeps.cut (st := st) (b := b) x.2 ?_ ?_; rotate_left; (clear_value x; intro hx); rotate_left; subst x)
    | (extract_lets +onlyGivenNames x; clear_value x)
    | (extract_lets +onlyGivenNames x)
    | split
    | (refine OKeeps.of_some (by assumption) ?_)
    | (with_reducible refine Keeps.of_pair (by assumption) ?_)
    | (with_reducible refine Keeps.of_pair2 (by assumption) ?_)
    | (fail_if_no_progress dsimp only)

theorem State.declare_keeps {st : Bool} {b s : State} (h : Keeps st b s) (a : Nat) (x_b : Nat) (hi : Nat) :
    Keeps st b (State.declare s a x_b hi) := by
  unfold State.declare
  repeat' first
    | with_reducible assumption
    | with_reducible exact Keeps.refl _ _
    | with_reducible apply Keeps.ite
    | (fail_if_no_progress with_reducible apply Keeps.upd)
    | with_reducible apply State.setSlotState_keeps
    | with_reducible apply State.setSlot_keeps
    | with_reducible apply State.history_keeps
    | with_reducible apply State.sticky_keeps
    | with_reducible apply State.setN_keeps
    | with_reducible apply State.setDisp_keeps
    | (extract_lets +onlyGivenNames x; refine Keeps.cut (st := st) (b := b) x ?_ ?_; rotate_left; (clear_value x; intro hx); rotate_left; subst x)
    | (extract_lets +onlyGivenNames x; refine Keeps.cut (st := st) (b := b) x.1 ?_ ?_; rotate_left; (clear_value x; intro hx); rotate_left; subst x)
    | (extract_lets +onlyGivenNames x; refine Keeps.cut (st := st) (b := b) x.2 ?_ ?_; rotate_left; (clear_value x; intro hx); rotate_left; subst x)
    | (extract_lets +onlyGivenNames x; clear_value x)
    | (extract_lets +onlyGivenNames x)
    | (fail_if_no_progress dsimp only)

theorem State.closeDisputes_keeps {st : Bool} {b s : State} (h : Keeps st b s)  :
    Keeps st b (State.closeDisputes s) := by
  unfold State.closeDisputes
  repeat' first
    | with_reducible assumption
    | with_reducible exact Keeps.refl _ _
    | with_reducible apply Keeps.ite
    | (fail_if_no_progress with_reducible apply Keeps.upd)
    | (fail_if_no_progress with_reducible apply Keeps.upd_filter)
    | (fail_if_no_progress with_reducible apply Keeps.upd_filter_all)
    | with_reducible apply State.restoreSlot_keeps
    | with_reducible apply State.outcome_keeps
    | with_reducible apply State.setDisp_keeps
    | (with_reducible refine Keeps.foldl ?_ ?_)
    | (with_reducible refine Keeps.foldl_fst ?_ ?_)
    | (intro u a hu; beta_reduce)
    | (intro u hu; beta_reduce)
    | (extract_lets +onlyGivenNames x; refine Keeps.cut (st := st) (b := b) x ?_ ?_; rotate_left; (clear_value x; intro hx); rotate_left; subst x)
    | (extract_lets +onlyGivenNames x; refine Keeps.cut (st := st) (b := b) x.1 ?_ ?_; rotate_left; (clear_value x; intro hx); rotate_left; subst x)
    | (extract_lets +onlyGivenNames x; refine Keeps.cut (st := st) (b := b) x.2 ?_ ?_; rotate_left; (clear_value x; intro hx); rotate_left; subst x)
    | (extract_lets +onlyGivenNames x; clear_value x)
    | (extract_lets +onlyGivenNames x)
    | split
    | (fail_if_no_progress dsimp only)

theorem State.judgeWindow_keeps {st : Bool} {b s : State} (h : Keeps st b s)  :
    Keeps st b (State.judgeWindow s) := by
  unfold State.judgeWindow
  repeat' first
    | with_reducible assumption
    | with_reducible exact Keeps.refl _ _
    | with_reducible apply Keeps.ite
    | (fail_if_no_progress with_reducible apply Keeps.upd)
    | (fail_if_no_progress with_reducible apply Keeps.upd_filter)
    | (fail_if_no_progress with_reducible apply Keeps.upd_filter_all)
    | with_reducible apply State.vote_keeps
    | with_reducible apply State.setSlot_keeps
    | with_reducible apply State.declare_keeps
    | (with_reducible refine Keeps.foldl ?_ ?_)
    | (with_reducible refine Keeps.foldl_fst ?_ ?_)
    | (intro u a hu; beta_reduce)
    | (intro u hu; beta_reduce)
    | (extract_lets +onlyGivenNames x; refine Keeps.cut (st := st) (b := b) x ?_ ?_; rotate_left; (clear_value x; intro hx); rotate_left; subst x)
    | (extract_lets +onlyGivenNames x; refine Keeps.cut (st := st) (b := b) x.1 ?_ ?_; rotate_left; (clear_value x; intro hx); rotate_left; subst x)
    | (extract_lets +onlyGivenNames x; refine Keeps.cut (st := st) (b := b) x.2 ?_ ?_; rotate_left; (clear_value x; intro hx); rotate_left; subst x)
    | (extract_lets +onlyGivenNames x; clear_value x)
    | (extract_lets +onlyGivenNames x)
    | split
    | (refine OKeeps.of_some (by assumption) ?_)
    | (with_reducible refine Keeps.of_pair (by assumption) ?_)
    | (with_reducible refine Keeps.of_pair2 (by assumption) ?_)
    | (fail_if_no_progress dsimp only)

theorem State.select_keeps {st : Bool} {b s : State} (h : Keeps st b s)  :
    Keeps st b (State.select s).1 := by
  unfold State.select
  repeat' first
    | with_reducible assumption
    | with_reducible exact Keeps.refl _ _
    | with_reducible apply Keeps.ite
    | (fail_if_no_progress with_reducible apply Keeps.upd)
    | (fail_if_no_progress with_reducible apply Keeps.upd_filter)
    | (fail_if_no_progress with_reducible apply Keeps.upd_filter_all)
    | with_reducible apply State.sticky_keeps
    | with_reducible apply State.setSlotState_keeps
    | with_reducible apply State.history_keeps
    | with_reducible apply State.setN_keeps
    | with_reducible apply State.bumpF_keeps
    | with_reducible apply State.journal_keeps
    | with_reducible apply State.wr_keeps
    | with_reducible apply State.wrB_keeps
    | (intro u a hu; beta_reduce)
    | (intro u hu; beta_reduce)
    | (extract_lets +onlyGivenNames x; refine Keeps.cut (st := st) (b := b) x ?_ ?_; rotate_left; (clear_value x; intro hx); rotate_left; subst x)
    | (extract_lets +onlyGivenNames x; refine Keeps.cut (st := st) (b := b) x.1 ?_ ?_; rotate_left; (clear_value x; intro hx); rotate_left; subst x)
    | (extract_lets +onlyGivenNames x; refine Keeps.cut (st := st) (b := b) x.2 ?_ ?_; rotate_left; (clear_value x; intro hx); rotate_left; subst x)
    | (extract_lets +onlyGivenNames x; clear_value x)
    | (extract_lets +onlyGivenNames x)
    | split
    | (refine OKeeps.of_some (by assumption) ?_)
    | (with_reducible refine Keeps.of_pair (by assumption) ?_)
    | (with_reducible refine Keeps.of_pair2 (by assumption) ?_)
    | (fail_if_no_progress dsimp only)

theorem State.restartSlot_keeps {st : Bool} {b s : State} (h : Keeps st b s) (n : Nat) :
    Keeps st b (State.restartSlot s n) := by
  unfold State.restartSlot
  repeat' first
    | with_reducible assumption
    | with_reducible exact Keeps.refl _ _
    | with_reducible apply Keeps.ite
    | (fail_if_no_progress with_reducible apply Keeps.upd)
    | with_reducible apply State.setSlot_keeps
    | with_reducible apply State.setN_keeps
    | with_reducible apply State.setCause_keeps
    | (extract_lets +onlyGivenNames x; refine Keeps.cut (st := st) (b := b) x ?_ ?_; rotate_left; (clear_value x; intro hx); rotate_left; subst x)
    | (extract_lets +onlyGivenNames x; refine Keeps.cut (st := st) (b := b) x.1 ?_ ?_; rotate_left; (clear_value x; intro hx); rotate_left; subst x)
    | (extract_lets +onlyGivenNames x; refine Keeps.cut (st := st) (b := b) x.2 ?_ ?_; rotate_left; (clear_value x; intro hx); rotate_left; subst x)
    | (extract_lets +onlyGivenNames x; clear_value x)
    | (extract_lets +onlyGivenNames x)
    | split
    | (fail_if_no_progress dsimp only)

theorem State.refApply_keeps {st : Bool} {b s : State} (h : Keeps st b s)  :
    Keeps st b (State.refApply s) := by
  unfold State.refApply
  repeat' first
    | with_reducible assumption
    | with_reducible exact Keeps.refl _ _
    | with_reducible apply Keeps.ite
    | (fail_if_no_progress with_reducible apply Keeps.upd)
    | with_reducible apply State.applyShadows_keeps
    | with_reducible apply State.setBoth_keeps
    | with_reducible apply State.setRin_keeps
    | with_reducible apply State.wr_keeps
    | with_reducible apply State.forgetSource_keeps
    | with_reducible apply State.restartSlot_keeps
    | with_reducible apply State.setCause_keeps
    | (with_reducible refine Keeps.foldl ?_ ?_)
    | (with_reducible refine Keeps.foldl_fst ?_ ?_)
    | (intro u a hu; beta_reduce)
    | (intro u hu; beta_reduce)
    | (extract_lets +onlyGivenNames x; refine Keeps.cut (st := st) (b := b) x ?_ ?_; rotate_left; (clear_value x; intro hx); rotate_left; subst x)
    | (extract_lets +onlyGivenNames x; refine Keeps.cut (st := st) (b := b) x.1 ?_ ?_; rotate_left; (clear_value x; intro hx); rotate_left; subst x)
    | (extract_lets +onlyGivenNames x; refine Keeps.cut (st := st) (b := b) x.2 ?_ ?_; rotate_left; (clear_value x; intro hx); rotate_left; subst x)
    | (extract_lets +onlyGivenNames x; clear_value x)
    | (extract_lets +onlyGivenNames x)
    | split
    | (refine OKeeps.of_some (by assumption) ?_)
    | (with_reducible refine Keeps.of_pair (by assumption) ?_)
    | (with_reducible refine Keeps.of_pair2 (by assumption) ?_)
    | (fail_if_no_progress dsimp only)

end Sys2Proof.Machine
end

