-- ==== Sys2Proof/Laws/KDsc.lean ====
section
/-! SUPPORT. What the operations of Machine/Dsc.lean keep. -/

set_option linter.unusedTactic false
set_option linter.unreachableTactic false

namespace Sys2Proof.Machine

theorem State.setDsc_keeps {st : Bool} {b s : State} (h : Keeps st b s) (f : DscS → DscS) :
    Keeps st b (State.setDsc s f) := by
  unfold State.setDsc
  repeat' first
    | with_reducible assumption
    | with_reducible exact Keeps.refl _ _
    | with_reducible apply Keeps.ite
    | (fail_if_no_progress with_reducible apply Keeps.upd)
    | (fail_if_no_progress dsimp only)

theorem State.accU_keeps {st : Bool} {b s : State} (h : Keeps st b s)  :
    Keeps st b (State.accU s) := by
  unfold State.accU
  repeat' first
    | with_reducible assumption
    | with_reducible exact Keeps.refl _ _
    | with_reducible apply Keeps.ite
    | (fail_if_no_progress with_reducible apply Keeps.upd)
    | with_reducible apply State.setDsc_keeps
    | (intro u a hu; beta_reduce)
    | (intro u hu; beta_reduce)
    | (fail_if_no_progress dsimp only)

theorem State.emitU_keeps {st : Bool} {b s : State} (h : Keeps st b s) (u : Int) :
    Keeps st b (State.emitU s u) := by
  unfold State.emitU
  repeat' first
    | with_reducible assumption
    | with_reducible exact Keeps.refl _ _
    | with_reducible apply Keeps.ite
    | (fail_if_no_progress with_reducible apply Keeps.upd)
    | with_reducible apply State.accU_keeps
    | with_reducible apply State.steer_keeps
    | with_reducible apply State.set64_keeps
    | (fail_if_no_progress dsimp only)

theorem State.moveI_keeps {st : Bool} {b s : State} (h : Keeps st b s) (want : Int) :
    Keeps st b (State.moveI s want) := by
  unfold State.moveI
  repeat' first
    | with_reducible assumption
    | with_reducible exact Keeps.refl _ _
    | with_reducible apply Keeps.ite
    | (fail_if_no_progress with_reducible apply Keeps.upd)
    | with_reducible apply State.setDsc_keeps
    | (intro u a hu; beta_reduce)
    | (intro u hu; beta_reduce)
    | (extract_lets +onlyGivenNames x; refine Keeps.cut (st := st) (b := b) x ?_ ?_; rotate_left; (clear_value x; intro hx); rotate_left; subst x)
    | (extract_lets +onlyGivenNames x; refine Keeps.cut (st := st) (b := b) x.1 ?_ ?_; rotate_left; (clear_value x; intro hx); rotate_left; subst x)
    | (extract_lets +onlyGivenNames x; refine Keeps.cut (st := st) (b := b) x.2 ?_ ?_; rotate_left; (clear_value x; intro hx); rotate_left; subst x)
    | (extract_lets +onlyGivenNames x; clear_value x)
    | (extract_lets +onlyGivenNames x)
    | split
    | (fail_if_no_progress dsimp only)

theorem State.loadI_keeps {st : Bool} {b s : State} (h : Keeps st b s) (want : Int) :
    Keeps st b (State.loadI s want) := by
  unfold State.loadI
  repeat' first
    | with_reducible assumption
    | with_reducible exact Keeps.refl _ _
    | with_reducible apply Keeps.ite
    | (fail_if_no_progress with_reducible apply Keeps.upd)
    | with_reducible apply State.setDsc_keeps
    | (intro u a hu; beta_reduce)
    | (intro u hu; beta_reduce)
    | split
    | (fail_if_no_progress dsimp only)

theorem State.setPull_keeps {st : Bool} {b s : State} (h : Keeps st b s) (kind : Nat) :
    Keeps st b (State.setPull s kind) := by
  unfold State.setPull
  repeat' first
    | with_reducible assumption
    | with_reducible exact Keeps.refl _ _
    | with_reducible apply Keeps.ite
    | (fail_if_no_progress with_reducible apply Keeps.upd)
    | with_reducible apply State.wrB_keeps
    | with_reducible apply State.wr_keeps
    | (fail_if_no_progress dsimp only)

theorem State.setBuild_keeps {st : Bool} {b s : State} (h : Keeps st b s) (p : Int) :
    Keeps st b (State.setBuild s p) := by
  unfold State.setBuild
  repeat' first
    | with_reducible assumption
    | with_reducible exact Keeps.refl _ _
    | with_reducible apply Keeps.ite
    | (fail_if_no_progress with_reducible apply Keeps.upd)
    | with_reducible apply State.setDsc_keeps
    | with_reducible apply State.build_keeps
    | with_reducible apply State.wrB_keeps
    | (intro u a hu; beta_reduce)
    | (intro u hu; beta_reduce)
    | (fail_if_no_progress dsimp only)

theorem State.judgeLock_keeps {st : Bool} {b s : State} (h : Keeps st b s) (e : Int) (nu : Option Int) :
    Keeps st b (State.judgeLock s e nu) := by
  unfold State.judgeLock
  repeat' first
    | with_reducible assumption
    | with_reducible exact Keeps.refl _ _
    | with_reducible apply Keeps.ite
    | (fail_if_no_progress with_reducible apply Keeps.upd)
    | with_reducible apply State.setDsc_keeps
    | (intro u a hu; beta_reduce)
    | (intro u hu; beta_reduce)
    | (extract_lets +onlyGivenNames x; refine Keeps.cut (st := st) (b := b) x ?_ ?_; rotate_left; (clear_value x; intro hx); rotate_left; subst x)
    | (extract_lets +onlyGivenNames x; refine Keeps.cut (st := st) (b := b) x.1 ?_ ?_; rotate_left; (clear_value x; intro hx); rotate_left; subst x)
    | (extract_lets +onlyGivenNames x; refine Keeps.cut (st := st) (b := b) x.2 ?_ ?_; rotate_left; (clear_value x; intro hx); rotate_left; subst x)
    | (extract_lets +onlyGivenNames x; clear_value x)
    | (extract_lets +onlyGivenNames x)
    | split
    | (refine OKeeps.of_some (by assumption) ?_)
    | (with_reducible refine Keeps.of_pair (by assumption) ?_)
    | (with_reducible refine Keeps.of_pair2 (by assumption) ?_)
    | (fail_if_no_progress dsimp only)

theorem State.showBw_keeps {st : Bool} {b s : State} (h : Keeps st b s) (conf : Nat) (eff : Nat) :
    Keeps st b (State.showBw s conf eff) := by
  unfold State.showBw
  repeat' first
    | with_reducible assumption
    | with_reducible exact Keeps.refl _ _
    | with_reducible apply Keeps.ite
    | (fail_if_no_progress with_reducible apply Keeps.upd)
    | with_reducible apply State.sticky_keeps
    | with_reducible apply State.wrB_keeps
    | with_reducible apply State.wr_keeps
    | (extract_lets +onlyGivenNames x; refine Keeps.cut (st := st) (b := b) x ?_ ?_; rotate_left; (clear_value x; intro hx); rotate_left; subst x)
    | (extract_lets +onlyGivenNames x; refine Keeps.cut (st := st) (b := b) x.1 ?_ ?_; rotate_left; (clear_value x; intro hx); rotate_left; subst x)
    | (extract_lets +onlyGivenNames x; refine Keeps.cut (st := st) (b := b) x.2 ?_ ?_; rotate_left; (clear_value x; intro hx); rotate_left; subst x)
    | (extract_lets +onlyGivenNames x; clear_value x)
    | (extract_lets +onlyGivenNames x)
    | split
    | (fail_if_no_progress dsimp only)

theorem State.mainUpdate_keeps {st : Bool} {b s : State} (h : Keeps st b s) (n : Nat) (p : Smp) :
    Keeps st b (State.mainUpdate s n p) := by
  unfold State.mainUpdate
  repeat' first
    | with_reducible assumption
    | with_reducible exact Keeps.refl _ _
    | with_reducible apply Keeps.ite
    | (fail_if_no_progress with_reducible apply Keeps.upd)
    | with_reducible apply State.build_keeps
    | with_reducible apply State.setN_keeps
    | with_reducible apply State.judgeLock_keeps
    | with_reducible apply State.setSat_keeps
    | with_reducible apply State.showBw_keeps
    | with_reducible apply State.moveI_keeps
    | with_reducible apply State.sticky_keeps
    | with_reducible apply State.emitU_keeps
    | (extract_lets +onlyGivenNames x; refine Keeps.cut (st := st) (b := b) x ?_ ?_; rotate_left; (clear_value x; intro hx); rotate_left; subst x)
    | (extract_lets +onlyGivenNames x; refine Keeps.cut (st := st) (b := b) x.1 ?_ ?_; rotate_left; (clear_value x; intro hx); rotate_left; subst x)
    | (extract_lets +onlyGivenNames x; refine Keeps.cut (st := st) (b := b) x.2 ?_ ?_; rotate_left; (clear_value x; intro hx); rotate_left; subst x)
    | (extract_lets +onlyGivenNames x; clear_value x)
    | (extract_lets +onlyGivenNames x)
    | split
    | (refine OKeeps.of_some (by assumption) ?_)
    | (with_reducible refine Keeps.of_pair (by assumption) ?_)
    | (with_reducible refine Keeps.of_pair2 (by assumption) ?_)
    | (fail_if_no_progress dsimp only)

theorem State.fbFollow_keeps {st : Bool} {b s : State} (h : Keeps st b s)  :
    Keeps st b (State.fbFollow s) := by
  unfold State.fbFollow
  repeat' first
    | with_reducible assumption
    | with_reducible exact Keeps.refl _ _
    | with_reducible apply Keeps.ite
    | (fail_if_no_progress with_reducible apply Keeps.upd)
    | with_reducible apply State.setDsc_keeps
    | with_reducible apply State.set64_keeps
    | with_reducible apply State.wr_keeps
    | (intro u a hu; beta_reduce)
    | (intro u hu; beta_reduce)
    | (extract_lets +onlyGivenNames x; refine Keeps.cut (st := st) (b := b) x ?_ ?_; rotate_left; (clear_value x; intro hx); rotate_left; subst x)
    | (extract_lets +onlyGivenNames x; refine Keeps.cut (st := st) (b := b) x.1 ?_ ?_; rotate_left; (clear_value x; intro hx); rotate_left; subst x)
    | (extract_lets +onlyGivenNames x; refine Keeps.cut (st := st) (b := b) x.2 ?_ ?_; rotate_left; (clear_value x; intro hx); rotate_left; subst x)
    | (extract_lets +onlyGivenNames x; clear_value x)
    | (extract_lets +onlyGivenNames x)
    | split
    | (fail_if_no_progress dsimp only)

theorem State.fbSettle_keeps {st : Bool} {b s : State} (h : Keeps st b s)  :
    Keeps st b (State.fbSettle s) := by
  unfold State.fbSettle
  repeat' first
    | with_reducible assumption
    | with_reducible exact Keeps.refl _ _
    | with_reducible apply Keeps.ite
    | (fail_if_no_progress with_reducible apply Keeps.upd)
    | with_reducible apply State.wr_keeps
    | with_reducible apply State.setDsc_keeps
    | with_reducible apply State.wrB_keeps
    | (intro u a hu; beta_reduce)
    | (intro u hu; beta_reduce)
    | (extract_lets +onlyGivenNames x; refine Keeps.cut (st := st) (b := b) x ?_ ?_; rotate_left; (clear_value x; intro hx); rotate_left; subst x)
    | (extract_lets +onlyGivenNames x; refine Keeps.cut (st := st) (b := b) x.1 ?_ ?_; rotate_left; (clear_value x; intro hx); rotate_left; subst x)
    | (extract_lets +onlyGivenNames x; refine Keeps.cut (st := st) (b := b) x.2 ?_ ?_; rotate_left; (clear_value x; intro hx); rotate_left; subst x)
    | (extract_lets +onlyGivenNames x; clear_value x)
    | (extract_lets +onlyGivenNames x)
    | split
    | (refine OKeeps.of_some (by assumption) ?_)
    | (with_reducible refine Keeps.of_pair (by assumption) ?_)
    | (with_reducible refine Keeps.of_pair2 (by assumption) ?_)
    | (fail_if_no_progress dsimp only)

theorem State.fbUpdate_keeps {st : Bool} {b s : State} (h : Keeps st b s) (n : Nat) (p : Smp) :
    Keeps st b (State.fbUpdate s n p) := by
  unfold State.fbUpdate
  repeat' first
    | with_reducible assumption
    | with_reducible exact Keeps.refl _ _
    | with_reducible apply Keeps.ite
    | (fail_if_no_progress with_reducible apply Keeps.upd)
    | with_reducible apply State.setDsc_keeps
    | with_reducible apply State.set64_keeps
    | with_reducible apply State.fbSettle_keeps
    | (intro u a hu; beta_reduce)
    | (intro u hu; beta_reduce)
    | (extract_lets +onlyGivenNames x; refine Keeps.cut (st := st) (b := b) x ?_ ?_; rotate_left; (clear_value x; intro hx); rotate_left; subst x)
    | (extract_lets +onlyGivenNames x; refine Keeps.cut (st := st) (b := b) x.1 ?_ ?_; rotate_left; (clear_value x; intro hx); rotate_left; subst x)
    | (extract_lets +onlyGivenNames x; refine Keeps.cut (st := st) (b := b) x.2 ?_ ?_; rotate_left; (clear_value x; intro hx); rotate_left; subst x)
    | (extract_lets +onlyGivenNames x; clear_value x)
    | (extract_lets +onlyGivenNames x)
    | split
    | (fail_if_no_progress dsimp only)

theorem State.publish_keeps {st : Bool} {b s : State} (h : Keeps st b s)  :
    Keeps st b (State.publish s) := by
  unfold State.publish
  repeat' first
    | with_reducible assumption
    | with_reducible exact Keeps.refl _ _
    | with_reducible apply Keeps.ite
    | (fail_if_no_progress with_reducible apply Keeps.upd)
    | with_reducible apply State.wr_keeps
    | with_reducible apply State.setN_keeps
    | (extract_lets +onlyGivenNames x; refine Keeps.cut (st := st) (b := b) x ?_ ?_; rotate_left; (clear_value x; intro hx); rotate_left; subst x)
    | (extract_lets +onlyGivenNames x; refine Keeps.cut (st := st) (b := b) x.1 ?_ ?_; rotate_left; (clear_value x; intro hx); rotate_left; subst x)
    | (extract_lets +onlyGivenNames x; refine Keeps.cut (st := st) (b := b) x.2 ?_ ?_; rotate_left; (clear_value x; intro hx); rotate_left; subst x)
    | (extract_lets +onlyGivenNames x; clear_value x)
    | (extract_lets +onlyGivenNames x)
    | (fail_if_no_progress dsimp only)

theorem State.dchange_keeps {st : Bool} {b s : State} (h : Keeps st b s) (new : Nat) (cause : Nat) :
    Keeps st b (State.dchange s new cause) := by
  unfold State.dchange
  repeat' first
    | with_reducible assumption
    | with_reducible exact Keeps.refl _ _
    | with_reducible apply Keeps.ite
    | (fail_if_no_progress with_reducible apply Keeps.upd)
    | with_reducible apply State.setN_keeps
    | with_reducible apply State.bumpF_keeps
    | with_reducible apply State.setDsc_keeps
    | with_reducible apply State.wr_keeps
    | with_reducible apply State.publish_keeps
    | with_reducible apply State.journal_keeps
    | with_reducible apply State.sticky_keeps
    | (intro u a hu; beta_reduce)
    | (intro u hu; beta_reduce)
    | (extract_lets +onlyGivenNames x; refine Keeps.cut (st := st) (b := b) x ?_ ?_; rotate_left; (clear_value x; intro hx); rotate_left; subst x)
    | (extract_lets +onlyGivenNames x; refine Keeps.cut (st := st) (b := b) x.1 ?_ ?_; rotate_left; (clear_value x; intro hx); rotate_left; subst x)
    | (extract_lets +onlyGivenNames x; refine Keeps.cut (st := st) (b := b) x.2 ?_ ?_; rotate_left; (clear_value x; intro hx); rotate_left; subst x)
    | (extract_lets +onlyGivenNames x; clear_value x)
    | (extract_lets +onlyGivenNames x)
    | split
    | (fail_if_no_progress dsimp only)

theorem State.showWin_keeps {st : Bool} {b s : State} (h : Keeps st b s) (now : Nat) :
    Keeps st b (State.showWin s now) := by
  unfold State.showWin
  repeat' first
    | with_reducible assumption
    | with_reducible exact Keeps.refl _ _
    | with_reducible apply Keeps.ite
    | (fail_if_no_progress with_reducible apply Keeps.upd)
    | with_reducible apply State.set64_keeps
    | with_reducible apply State.setN_keeps
    | (extract_lets +onlyGivenNames x; refine Keeps.cut (st := st) (b := b) x ?_ ?_; rotate_left; (clear_value x; intro hx); rotate_left; subst x)
    | (extract_lets +onlyGivenNames x; refine Keeps.cut (st := st) (b := b) x.1 ?_ ?_; rotate_left; (clear_value x; intro hx); rotate_left; subst x)
    | (extract_lets +onlyGivenNames x; refine Keeps.cut (st := st) (b := b) x.2 ?_ ?_; rotate_left; (clear_value x; intro hx); rotate_left; subst x)
    | (extract_lets +onlyGivenNames x; clear_value x)
    | (extract_lets +onlyGivenNames x)
    | split
    | (fail_if_no_progress dsimp only)

theorem State.showAge_keeps {st : Bool} {b s : State} (h : Keeps st b s)  :
    Keeps st b (State.showAge s) := by
  unfold State.showAge
  repeat' first
    | with_reducible assumption
    | with_reducible exact Keeps.refl _ _
    | with_reducible apply Keeps.ite
    | (fail_if_no_progress with_reducible apply Keeps.upd)
    | with_reducible apply State.wr_keeps
    | with_reducible apply State.wrB_keeps
    | with_reducible apply State.setSat_keeps
    | (extract_lets +onlyGivenNames x; refine Keeps.cut (st := st) (b := b) x ?_ ?_; rotate_left; (clear_value x; intro hx); rotate_left; subst x)
    | (extract_lets +onlyGivenNames x; refine Keeps.cut (st := st) (b := b) x.1 ?_ ?_; rotate_left; (clear_value x; intro hx); rotate_left; subst x)
    | (extract_lets +onlyGivenNames x; refine Keeps.cut (st := st) (b := b) x.2 ?_ ?_; rotate_left; (clear_value x; intro hx); rotate_left; subst x)
    | (extract_lets +onlyGivenNames x; clear_value x)
    | (extract_lets +onlyGivenNames x)
    | split
    | (fail_if_no_progress dsimp only)

theorem State.applyHo_keeps {st : Bool} {b s : State} (h : Keeps st b s)  :
    Keeps st b (State.applyHo s) := by
  unfold State.applyHo
  repeat' first
    | with_reducible assumption
    | with_reducible exact Keeps.refl _ _
    | with_reducible apply Keeps.ite
    | (fail_if_no_progress with_reducible apply Keeps.upd)
    | with_reducible apply State.hold_keeps
    | with_reducible apply State.moveI_keeps
    | with_reducible apply State.sticky_keeps
    | with_reducible apply State.emitU_keeps
    | (extract_lets +onlyGivenNames x; refine Keeps.cut (st := st) (b := b) x ?_ ?_; rotate_left; (clear_value x; intro hx); rotate_left; subst x)
    | (extract_lets +onlyGivenNames x; refine Keeps.cut (st := st) (b := b) x.1 ?_ ?_; rotate_left; (clear_value x; intro hx); rotate_left; subst x)
    | (extract_lets +onlyGivenNames x; refine Keeps.cut (st := st) (b := b) x.2 ?_ ?_; rotate_left; (clear_value x; intro hx); rotate_left; subst x)
    | (extract_lets +onlyGivenNames x; clear_value x)
    | (extract_lets +onlyGivenNames x)
    | split
    | (refine OKeeps.of_some (by assumption) ?_)
    | (with_reducible refine Keeps.of_pair (by assumption) ?_)
    | (with_reducible refine Keeps.of_pair2 (by assumption) ?_)
    | (fail_if_no_progress dsimp only)

theorem State.startEst_keeps {st : Bool} {b s : State} (h : Keeps st b s)  :
    Keeps st b (State.startEst s) := by
  unfold State.startEst
  repeat' first
    | with_reducible assumption
    | with_reducible exact Keeps.refl _ _
    | with_reducible apply Keeps.ite
    | (fail_if_no_progress with_reducible apply Keeps.upd)
    | with_reducible apply State.setDsc_keeps
    | with_reducible apply State.setN_keeps
    | (intro u a hu; beta_reduce)
    | (intro u hu; beta_reduce)
    | (extract_lets +onlyGivenNames x; refine Keeps.cut (st := st) (b := b) x ?_ ?_; rotate_left; (clear_value x; intro hx); rotate_left; subst x)
    | (extract_lets +onlyGivenNames x; refine Keeps.cut (st := st) (b := b) x.1 ?_ ?_; rotate_left; (clear_value x; intro hx); rotate_left; subst x)
    | (extract_lets +onlyGivenNames x; refine Keeps.cut (st := st) (b := b) x.2 ?_ ?_; rotate_left; (clear_value x; intro hx); rotate_left; subst x)
    | (extract_lets +onlyGivenNames x; clear_value x)
    | (extract_lets +onlyGivenNames x)
    | (fail_if_no_progress dsimp only)

theorem State.loseRef_keeps {st : Bool} {b s : State} (h : Keeps st b s) (cause : Nat) :
    Keeps st b (State.loseRef s cause) := by
  unfold State.loseRef
  repeat' first
    | with_reducible assumption
    | with_reducible exact Keeps.refl _ _
    | with_reducible apply Keeps.ite
    | (fail_if_no_progress with_reducible apply Keeps.upd)
    | with_reducible apply State.setBoth_keeps
    | with_reducible apply State.setDsc_keeps
    | with_reducible apply State.hold_keeps
    | with_reducible apply State.wr_keeps
    | with_reducible apply State.dchange_keeps
    | with_reducible apply State.startEst_keeps
    | with_reducible apply State.setN_keeps
    | with_reducible apply State.sticky_keeps
    | with_reducible apply State.applyHo_keeps
    | (intro u a hu; beta_reduce)
    | (intro u hu; beta_reduce)
    | (extract_lets +onlyGivenNames x; refine Keeps.cut (st := st) (b := b) x ?_ ?_; rotate_left; (clear_value x; intro hx); rotate_left; subst x)
    | (extract_lets +onlyGivenNames x; refine Keeps.cut (st := st) (b := b) x.1 ?_ ?_; rotate_left; (clear_value x; intro hx); rotate_left; subst x)
    | (extract_lets +onlyGivenNames x; refine Keeps.cut (st := st) (b := b) x.2 ?_ ?_; rotate_left; (clear_value x; intro hx); rotate_left; subst x)
    | (extract_lets +onlyGivenNames x; clear_value x)
    | (extract_lets +onlyGivenNames x)
    | split
    | (fail_if_no_progress dsimp only)

theorem State.checkBudget_keeps {st : Bool} {b s : State} (h : Keeps st b s)  :
    Keeps st b (State.checkBudget s) := by
  unfold State.checkBudget
  repeat' first
    | with_reducible assumption
    | with_reducible exact Keeps.refl _ _
    | with_reducible apply Keeps.ite
    | (fail_if_no_progress with_reducible apply Keeps.upd)
    | with_reducible apply State.setDsc_keeps
    | with_reducible apply State.sticky_keeps
    | with_reducible apply State.dchange_keeps
    | with_reducible apply State.publish_keeps
    | (intro u a hu; beta_reduce)
    | (intro u hu; beta_reduce)
    | (extract_lets +onlyGivenNames x; refine Keeps.cut (st := st) (b := b) x ?_ ?_; rotate_left; (clear_value x; intro hx); rotate_left; subst x)
    | (extract_lets +onlyGivenNames x; refine Keeps.cut (st := st) (b := b) x.1 ?_ ?_; rotate_left; (clear_value x; intro hx); rotate_left; subst x)
    | (extract_lets +onlyGivenNames x; refine Keeps.cut (st := st) (b := b) x.2 ?_ ?_; rotate_left; (clear_value x; intro hx); rotate_left; subst x)
    | (extract_lets +onlyGivenNames x; clear_value x)
    | (extract_lets +onlyGivenNames x)
    | split
    | (refine OKeeps.of_some (by assumption) ?_)
    | (with_reducible refine Keeps.of_pair (by assumption) ?_)
    | (with_reducible refine Keeps.of_pair2 (by assumption) ?_)
    | (fail_if_no_progress dsimp only)

theorem State.dscEval_keeps {st : Bool} {b s : State} (h : Keeps st b s)  :
    Keeps st b (State.dscEval s) := by
  unfold State.dscEval
  repeat' first
    | with_reducible assumption
    | with_reducible exact Keeps.refl _ _
    | with_reducible apply Keeps.ite
    | (fail_if_no_progress with_reducible apply Keeps.upd)
    | with_reducible apply State.dchange_keeps
    | with_reducible apply State.setDsc_keeps
    | with_reducible apply State.hold_keeps
    | with_reducible apply State.setN_keeps
    | with_reducible apply State.sticky_keeps
    | with_reducible apply State.applyHo_keeps
    | with_reducible apply State.loseRef_keeps
    | with_reducible apply State.startEst_keeps
    | with_reducible apply State.publish_keeps
    | (intro u a hu; beta_reduce)
    | (intro u hu; beta_reduce)
    | (extract_lets +onlyGivenNames x; refine Keeps.cut (st := st) (b := b) x ?_ ?_; rotate_left; (clear_value x; intro hx); rotate_left; subst x)
    | (extract_lets +onlyGivenNames x; refine Keeps.cut (st := st) (b := b) x.1 ?_ ?_; rotate_left; (clear_value x; intro hx); rotate_left; subst x)
    | (extract_lets +onlyGivenNames x; refine Keeps.cut (st := st) (b := b) x.2 ?_ ?_; rotate_left; (clear_value x; intro hx); rotate_left; subst x)
    | (extract_lets +onlyGivenNames x; clear_value x)
    | (extract_lets +onlyGivenNames x)
    | split
    | (refine OKeeps.of_some (by assumption) ?_)
    | (with_reducible refine Keeps.of_pair (by assumption) ?_)
    | (with_reducible refine Keeps.of_pair2 (by assumption) ?_)
    | (fail_if_no_progress dsimp only)

theorem State.pullDone_keeps {st : Bool} {b s : State} (h : Keeps st b s)  :
    Keeps st b (State.pullDone s) := by
  unfold State.pullDone
  repeat' first
    | with_reducible assumption
    | with_reducible exact Keeps.refl _ _
    | with_reducible apply Keeps.ite
    | (fail_if_no_progress with_reducible apply Keeps.upd)
    | with_reducible apply State.setPull_keeps
    | with_reducible apply State.wr_keeps
    | with_reducible apply State.sticky_keeps
    | (fail_if_no_progress dsimp only)

theorem State.pullCheck_keeps {st : Bool} {b s : State} (h : Keeps st b s)  :
    Keeps st b (State.pullCheck s) := by
  unfold State.pullCheck
  repeat' first
    | with_reducible assumption
    | with_reducible exact Keeps.refl _ _
    | with_reducible apply Keeps.ite
    | (fail_if_no_progress with_reducible apply Keeps.upd)
    | with_reducible apply State.showSlew_keeps
    | with_reducible apply State.pullDone_keeps
    | with_reducible apply State.setPull_keeps
    | (extract_lets +onlyGivenNames x; refine Keeps.cut (st := st) (b := b) x ?_ ?_; rotate_left; (clear_value x; intro hx); rotate_left; subst x)
    | (extract_lets +onlyGivenNames x; refine Keeps.cut (st := st) (b := b) x.1 ?_ ?_; rotate_left; (clear_value x; intro hx); rotate_left; subst x)
    | (extract_lets +onlyGivenNames x; refine Keeps.cut (st := st) (b := b) x.2 ?_ ?_; rotate_left; (clear_value x; intro hx); rotate_left; subst x)
    | (extract_lets +onlyGivenNames x; clear_value x)
    | (extract_lets +onlyGivenNames x)
    | split
    | (fail_if_no_progress dsimp only)

theorem State.dscSwitch_keeps {st : Bool} {b s : State} (h : Keeps st b s) (retarget : Bool) :
    Keeps st b (State.dscSwitch s retarget) := by
  unfold State.dscSwitch
  repeat' first
    | with_reducible assumption
    | with_reducible exact Keeps.refl _ _
    | with_reducible apply Keeps.ite
    | (fail_if_no_progress with_reducible apply Keeps.upd)
    | with_reducible apply State.setDsc_keeps
    | with_reducible apply State.steer_keeps
    | with_reducible apply State.setPull_keeps
    | with_reducible apply State.setN_keeps
    | with_reducible apply State.bumpF_keeps
    | with_reducible apply State.wr_keeps
    | with_reducible apply State.setBuild_keeps
    | with_reducible apply State.loadI_keeps
    | with_reducible apply State.stepBy_keeps
    | (intro u a hu; beta_reduce)
    | (intro u hu; beta_reduce)
    | (extract_lets +onlyGivenNames x; refine Keeps.cut (st := st) (b := b) x ?_ ?_; rotate_left; (clear_value x; intro hx); rotate_left; subst x)
    | (extract_lets +onlyGivenNames x; refine Keeps.cut (st := st) (b := b) x.1 ?_ ?_; rotate_left; (clear_value x; intro hx); rotate_left; subst x)
    | (extract_lets +onlyGivenNames x; refine Keeps.cut (st := st) (b := b) x.2 ?_ ?_; rotate_left; (clear_value x; intro hx); rotate_left; subst x)
    | (extract_lets +onlyGivenNames x; clear_value x)
    | (extract_lets +onlyGivenNames x)
    | split
    | (refine OKeeps.of_some (by assumption) ?_)
    | (with_reducible refine Keeps.of_pair (by assumption) ?_)
    | (with_reducible refine Keeps.of_pair2 (by assumption) ?_)
    | (fail_if_no_progress dsimp only)

theorem State.dscLoSwitch_keeps {st : Bool} {b s : State} (h : Keeps st b s) (delta : Int) :
    Keeps st b (State.dscLoSwitch s delta) := by
  unfold State.dscLoSwitch
  repeat' first
    | with_reducible assumption
    | with_reducible exact Keeps.refl _ _
    | with_reducible apply Keeps.ite
    | (fail_if_no_progress with_reducible apply Keeps.upd)
    | with_reducible apply State.accU_keeps
    | with_reducible apply State.setDsc_keeps
    | with_reducible apply State.hold_keeps
    | with_reducible apply State.set64_keeps
    | with_reducible apply State.wr_keeps
    | with_reducible apply State.sticky_keeps
    | (intro u a hu; beta_reduce)
    | (intro u hu; beta_reduce)
    | (extract_lets +onlyGivenNames x; refine Keeps.cut (st := st) (b := b) x ?_ ?_; rotate_left; (clear_value x; intro hx); rotate_left; subst x)
    | (extract_lets +onlyGivenNames x; refine Keeps.cut (st := st) (b := b) x.1 ?_ ?_; rotate_left; (clear_value x; intro hx); rotate_left; subst x)
    | (extract_lets +onlyGivenNames x; refine Keeps.cut (st := st) (b := b) x.2 ?_ ?_; rotate_left; (clear_value x; intro hx); rotate_left; subst x)
    | (extract_lets +onlyGivenNames x; clear_value x)
    | (extract_lets +onlyGivenNames x)
    | split
    | (fail_if_no_progress dsimp only)

theorem State.freeRate_keeps {st : Bool} {b s : State} (h : Keeps st b s)  :
    Keeps st b (State.freeRate s) := by
  unfold State.freeRate
  repeat' first
    | with_reducible assumption
    | with_reducible exact Keeps.refl _ _
    | with_reducible apply Keeps.ite
    | (fail_if_no_progress with_reducible apply Keeps.upd)
    | with_reducible apply State.setDsc_keeps
    | with_reducible apply State.emitU_keeps
    | (intro u a hu; beta_reduce)
    | (intro u hu; beta_reduce)
    | (extract_lets +onlyGivenNames x; refine Keeps.cut (st := st) (b := b) x ?_ ?_; rotate_left; (clear_value x; intro hx); rotate_left; subst x)
    | (extract_lets +onlyGivenNames x; refine Keeps.cut (st := st) (b := b) x.1 ?_ ?_; rotate_left; (clear_value x; intro hx); rotate_left; subst x)
    | (extract_lets +onlyGivenNames x; refine Keeps.cut (st := st) (b := b) x.2 ?_ ?_; rotate_left; (clear_value x; intro hx); rotate_left; subst x)
    | (extract_lets +onlyGivenNames x; clear_value x)
    | (extract_lets +onlyGivenNames x)
    | (fail_if_no_progress dsimp only)

theorem State.dscApply_keeps {st : Bool} {b s : State} (h : Keeps st b s)  :
    Keeps st b (State.dscApply s) := by
  unfold State.dscApply
  repeat' first
    | with_reducible assumption
    | with_reducible exact Keeps.refl _ _
    | with_reducible apply Keeps.ite
    | (fail_if_no_progress with_reducible apply Keeps.upd)
    | with_reducible apply State.applyShadows_keeps
    | with_reducible apply State.steer_keeps
    | with_reducible apply State.freeRate_keeps
    | with_reducible apply State.setDsc_keeps
    | with_reducible apply State.wr_keeps
    | with_reducible apply State.fbSettle_keeps
    | with_reducible apply State.publish_keeps
    | (intro u a hu; beta_reduce)
    | (intro u hu; beta_reduce)
    | (extract_lets +onlyGivenNames x; refine Keeps.cut (st := st) (b := b) x ?_ ?_; rotate_left; (clear_value x; intro hx); rotate_left; subst x)
    | (extract_lets +onlyGivenNames x; refine Keeps.cut (st := st) (b := b) x.1 ?_ ?_; rotate_left; (clear_value x; intro hx); rotate_left; subst x)
    | (extract_lets +onlyGivenNames x; refine Keeps.cut (st := st) (b := b) x.2 ?_ ?_; rotate_left; (clear_value x; intro hx); rotate_left; subst x)
    | (extract_lets +onlyGivenNames x; clear_value x)
    | (extract_lets +onlyGivenNames x)
    | split
    | (fail_if_no_progress dsimp only)

theorem State.recordSecond_keeps {st : Bool} {b s : State} (h : Keeps st b s) (mirrorOk : Bool) :
    Keeps st b (State.recordSecond s mirrorOk) := by
  unfold State.recordSecond
  repeat' first
    | with_reducible assumption
    | with_reducible exact Keeps.refl _ _
    | with_reducible apply Keeps.ite
    | (fail_if_no_progress with_reducible apply Keeps.upd)
    | with_reducible apply State.accU_keeps
    | with_reducible apply State.setDsc_keeps
    | with_reducible apply State.sticky_keeps
    | with_reducible apply State.showWin_keeps
    | with_reducible apply State.showAge_keeps
    | with_reducible apply State.setN_keeps
    | with_reducible apply State.journal_keeps
    | (intro u a hu; beta_reduce)
    | (intro u hu; beta_reduce)
    | (extract_lets +onlyGivenNames x; refine Keeps.cut (st := st) (b := b) x ?_ ?_; rotate_left; (clear_value x; intro hx); rotate_left; subst x)
    | (extract_lets +onlyGivenNames x; refine Keeps.cut (st := st) (b := b) x.1 ?_ ?_; rotate_left; (clear_value x; intro hx); rotate_left; subst x)
    | (extract_lets +onlyGivenNames x; refine Keeps.cut (st := st) (b := b) x.2 ?_ ?_; rotate_left; (clear_value x; intro hx); rotate_left; subst x)
    | (extract_lets +onlyGivenNames x; clear_value x)
    | (extract_lets +onlyGivenNames x)
    | split
    | (refine OKeeps.of_some (by assumption) ?_)
    | (with_reducible refine Keeps.of_pair (by assumption) ?_)
    | (with_reducible refine Keeps.of_pair2 (by assumption) ?_)
    | (fail_if_no_progress dsimp only)

theorem State.markLocked_keeps {st : Bool} {b s : State} (h : Keeps st b s)  :
    Keeps st b (State.markLocked s) := by
  unfold State.markLocked
  repeat' first
    | with_reducible assumption
    | with_reducible exact Keeps.refl _ _
    | with_reducible apply Keeps.ite
    | (fail_if_no_progress with_reducible apply Keeps.upd)
    | with_reducible apply State.setN_keeps
    | (extract_lets +onlyGivenNames x; refine Keeps.cut (st := st) (b := b) x ?_ ?_; rotate_left; (clear_value x; intro hx); rotate_left; subst x)
    | (extract_lets +onlyGivenNames x; refine Keeps.cut (st := st) (b := b) x.1 ?_ ?_; rotate_left; (clear_value x; intro hx); rotate_left; subst x)
    | (extract_lets +onlyGivenNames x; refine Keeps.cut (st := st) (b := b) x.2 ?_ ?_; rotate_left; (clear_value x; intro hx); rotate_left; subst x)
    | (extract_lets +onlyGivenNames x; clear_value x)
    | (extract_lets +onlyGivenNames x)
    | split
    | (fail_if_no_progress dsimp only)

theorem State.swWrite_keeps {st : Bool} {b s : State} (h : Keeps st b s) (val : Nat) :
    Keeps st b (State.swWrite s val) := by
  unfold State.swWrite
  repeat' first
    | with_reducible assumption
    | with_reducible exact Keeps.refl _ _
    | with_reducible apply Keeps.ite
    | (fail_if_no_progress with_reducible apply Keeps.upd)
    | with_reducible apply State.refuseCfg_keeps
    | with_reducible apply State.set64_keeps
    | with_reducible apply State.wr_keeps
    | with_reducible apply State.setDsc_keeps
    | with_reducible apply State.emitU_keeps
    | (intro u a hu; beta_reduce)
    | (intro u hu; beta_reduce)
    | (extract_lets +onlyGivenNames x; refine Keeps.cut (st := st) (b := b) x ?_ ?_; rotate_left; (clear_value x; intro hx); rotate_left; subst x)
    | (extract_lets +onlyGivenNames x; refine Keeps.cut (st := st) (b := b) x.1 ?_ ?_; rotate_left; (clear_value x; intro hx); rotate_left; subst x)
    | (extract_lets +onlyGivenNames x; refine Keeps.cut (st := st) (b := b) x.2 ?_ ?_; rotate_left; (clear_value x; intro hx); rotate_left; subst x)
    | (extract_lets +onlyGivenNames x; clear_value x)
    | (extract_lets +onlyGivenNames x)
    | split
    | (fail_if_no_progress dsimp only)

theorem State.stepCmd_keeps {st : Bool} {b s : State} (h : Keeps st b s) (val : Nat) :
    Keeps st b (State.stepCmd s val) := by
  unfold State.stepCmd
  repeat' first
    | with_reducible assumption
    | with_reducible exact Keeps.refl _ _
    | with_reducible apply Keeps.ite
    | (fail_if_no_progress with_reducible apply Keeps.upd)
    | with_reducible apply State.stepBy_keeps
    | with_reducible apply State.steer_keeps
    | with_reducible apply State.refuseCfg_keeps
    | split
    | (refine OKeeps.of_some (by assumption) ?_)
    | (with_reducible refine Keeps.of_pair (by assumption) ?_)
    | (with_reducible refine Keeps.of_pair2 (by assumption) ?_)
    | (fail_if_no_progress dsimp only)

end Sys2Proof.Machine
end

