-- ==== Sys2Proof/Laws/KSelector.lean ====
section
/-! SUPPORT. What the operations of Machine/Selector.lean keep. -/

set_option linter.unusedTactic false
set_option linter.unreachableTactic false

namespace Sys2Proof.Machine

theorem State.commitDone_keeps {st : Bool} {b s : State} (h : Keeps st b s) (x_b : Blk) (apply : State → State) (h_apply : ∀ u, Keeps st b u → Keeps st b (apply u)) :
    Keeps st b (State.commitDone s x_b apply) := by
  unfold State.commitDone
  repeat' first
    | with_reducible assumption
    | with_reducible exact Keeps.refl _ _
    | with_reducible apply Keeps.ite
    | (fail_if_no_progress with_reducible apply Keeps.upd)
    | with_reducible apply State.wr_keeps
    | with_reducible apply State.bumpF_keeps
    | with_reducible apply State.journal_keeps
    | with_reducible apply h_apply
    | (extract_lets +onlyGivenNames x; refine Keeps.cut (st := st) (b := b) x ?_ ?_; rotate_left; (clear_value x; intro hx); rotate_left; subst x)
    | (extract_lets +onlyGivenNames x; refine Keeps.cut (st := st) (b := b) x.1 ?_ ?_; rotate_left; (clear_value x; intro hx); rotate_left; subst x)
    | (extract_lets +onlyGivenNames x; refine Keeps.cut (st := st) (b := b) x.2 ?_ ?_; rotate_left; (clear_value x; intro hx); rotate_left; subst x)
    | (extract_lets +onlyGivenNames x; clear_value x)
    | (extract_lets +onlyGivenNames x)
    | split
    | (refine OKeeps.of_some (by assumption) ?_)
    | (with_reducible refine Keeps.of_pair (by assumption) ?_)
    | (with_reducible refine Keeps.of_pair2 (by assumption) ?_)
    | (fail_if_no_progress dsimp only)

theorem State.drainIdle_keeps {st : Bool} {b s : State} (h : Keeps st b s)  :
    Keeps st b (State.drainIdle s) := by
  unfold State.drainIdle
  repeat' first
    | with_reducible assumption
    | with_reducible exact Keeps.refl _ _
    | with_reducible apply Keeps.ite
    | (fail_if_no_progress with_reducible apply Keeps.upd)
    | with_reducible apply State.setSlot_keeps
    | with_reducible apply State.qTake_keeps
    | (with_reducible refine Keeps.foldl ?_ ?_)
    | (with_reducible refine Keeps.foldl_fst ?_ ?_)
    | (intro u a hu; beta_reduce)
    | (intro u hu; beta_reduce)
    | split
    | (fail_if_no_progress dsimp only)

theorem State.tick_keeps {st : Bool} {b s : State} (h : Keeps st b s) (rclk : List (Nat × Int)) :
    Keeps st b (State.tick s rclk) := by
  unfold State.tick
  repeat' first
    | with_reducible assumption
    | with_reducible exact Keeps.refl _ _
    | with_reducible apply Keeps.ite
    | (fail_if_no_progress with_reducible apply Keeps.upd)
    | with_reducible apply State.commitDone_keeps
    | with_reducible apply State.refApply_keeps
    | with_reducible apply State.dscApply_keeps
    | with_reducible apply State.measure_keeps
    | with_reducible apply State.lookSlot_keeps
    | with_reducible apply State.moveSlot_keeps
    | with_reducible apply State.closeDisputes_keeps
    | with_reducible apply State.judgeWindow_keeps
    | with_reducible apply State.select_keeps
    | with_reducible apply State.dscSwitch_keeps
    | with_reducible apply State.drainIdle_keeps
    | with_reducible apply State.pullCheck_keeps
    | with_reducible apply State.fbFollow_keeps
    | with_reducible apply State.fbSettle_keeps
    | with_reducible apply State.dscEval_keeps
    | (with_reducible refine Keeps.foldl ?_ ?_)
    | (with_reducible refine Keeps.foldl_fst ?_ ?_)
    | (intro u a hu; beta_reduce)
    | (intro u hu; beta_reduce)
    | (extract_lets +onlyGivenNames x; refine Keeps.cut (st := st) (b := b) x ?_ ?_; rotate_left; (clear_value x; intro hx); rotate_left; subst x)
    | (extract_lets +onlyGivenNames x; refine Keeps.cut (st := st) (b := b) x.1 ?_ ?_; rotate_left; (clear_value x; intro hx); rotate_left; subst x)
    | (extract_lets +onlyGivenNames x; refine Keeps.cut (st := st) (b := b) x.2 ?_ ?_; rotate_left; (clear_value x; intro hx); rotate_left; subst x)
    | (extract_lets +onlyGivenNames x; clear_value x)
    | (extract_lets +onlyGivenNames x)
    | split
    | (refine OKeeps.of_some (by assumption) ?_)
    | (with_reducible refine Keeps.of_pair (by assumption) ?_)
    | (with_reducible refine Keeps.of_pair2 (by assumption) ?_)
    | (fail_if_no_progress dsimp only)

end Sys2Proof.Machine
end

