-- ==== Sys2Proof/Laws/KGrtCko.lean ====
section
/-! SUPPORT. What the operations of Machine/GrtCko.lean keep. -/

set_option linter.unusedTactic false
set_option linter.unreachableTactic false

namespace Sys2Proof.Machine

theorem State.setGrt_keeps {st : Bool} {b s : State} (h : Keeps st b s) (f : GrtS → GrtS) :
    Keeps st b (State.setGrt s f) := by
  unfold State.setGrt
  repeat' first
    | with_reducible assumption
    | with_reducible exact Keeps.refl _ _
    | with_reducible apply Keeps.ite
    | (fail_if_no_progress with_reducible apply Keeps.upd)
    | (fail_if_no_progress dsimp only)

theorem State.gchange_keeps {st : Bool} {b s : State} (h : Keeps st b s) (new : Nat) (cause : Nat) :
    Keeps st b (State.gchange s new cause) := by
  unfold State.gchange
  repeat' first
    | with_reducible assumption
    | with_reducible exact Keeps.refl _ _
    | with_reducible apply Keeps.ite
    | (fail_if_no_progress with_reducible apply Keeps.upd)
    | with_reducible apply State.setN_keeps
    | with_reducible apply State.wr_keeps
    | with_reducible apply State.bumpF_keeps
    | with_reducible apply State.setGrt_keeps
    | with_reducible apply State.journal_keeps
    | (intro u a hu; beta_reduce)
    | (intro u hu; beta_reduce)
    | (extract_lets +onlyGivenNames x; refine Keeps.cut (st := st) (b := b) x ?_ ?_; rotate_left; (clear_value x; intro hx); rotate_left; subst x)
    | (extract_lets +onlyGivenNames x; refine Keeps.cut (st := st) (b := b) x.1 ?_ ?_; rotate_left; (clear_value x; intro hx); rotate_left; subst x)
    | (extract_lets +onlyGivenNames x; refine Keeps.cut (st := st) (b := b) x.2 ?_ ?_; rotate_left; (clear_value x; intro hx); rotate_left; subst x)
    | (extract_lets +onlyGivenNames x; clear_value x)
    | (extract_lets +onlyGivenNames x)
    | split
    | (fail_if_no_progress dsimp only)

theorem State.heatStart_keeps {st : Bool} {b s : State} (h : Keeps st b s)  :
    Keeps st b (State.heatStart s) := by
  unfold State.heatStart
  repeat' first
    | with_reducible assumption
    | with_reducible exact Keeps.refl _ _
    | with_reducible apply Keeps.ite
    | (fail_if_no_progress with_reducible apply Keeps.upd)
    | with_reducible apply State.gchange_keeps
    | split
    | (fail_if_no_progress dsimp only)

theorem State.heatWrite_keeps {st : Bool} {b s : State} (h : Keeps st b s) (en : Bool) :
    Keeps st b (State.heatWrite s en) := by
  unfold State.heatWrite
  repeat' first
    | with_reducible assumption
    | with_reducible exact Keeps.refl _ _
    | with_reducible apply Keeps.ite
    | (fail_if_no_progress with_reducible apply Keeps.upd)
    | with_reducible apply State.refuseCfg_keeps
    | with_reducible apply State.wrB_keeps
    | with_reducible apply State.heatStart_keeps
    | with_reducible apply State.gchange_keeps
    | (extract_lets +onlyGivenNames x; refine Keeps.cut (st := st) (b := b) x ?_ ?_; rotate_left; (clear_value x; intro hx); rotate_left; subst x)
    | (extract_lets +onlyGivenNames x; refine Keeps.cut (st := st) (b := b) x.1 ?_ ?_; rotate_left; (clear_value x; intro hx); rotate_left; subst x)
    | (extract_lets +onlyGivenNames x; refine Keeps.cut (st := st) (b := b) x.2 ?_ ?_; rotate_left; (clear_value x; intro hx); rotate_left; subst x)
    | (extract_lets +onlyGivenNames x; clear_value x)
    | (extract_lets +onlyGivenNames x)
    | split
    | (fail_if_no_progress dsimp only)

theorem State.grtRetry_keeps {st : Bool} {b s : State} (h : Keeps st b s)  :
    Keeps st b (State.grtRetry s) := by
  unfold State.grtRetry
  repeat' first
    | with_reducible assumption
    | with_reducible exact Keeps.refl _ _
    | with_reducible apply Keeps.ite
    | (fail_if_no_progress with_reducible apply Keeps.upd)
    | with_reducible apply State.gchange_keeps
    | with_reducible apply State.heatStart_keeps
    | split
    | (fail_if_no_progress dsimp only)

theorem State.grtCtrl_keeps {st : Bool} {b s : State} (h : Keeps st b s) (val : Nat) :
    Keeps st b (State.grtCtrl s val) := by
  unfold State.grtCtrl
  repeat' first
    | with_reducible assumption
    | with_reducible exact Keeps.refl _ _
    | with_reducible apply Keeps.ite
    | (fail_if_no_progress with_reducible apply Keeps.upd)
    | with_reducible apply State.heatWrite_keeps
    | with_reducible apply State.grtRetry_keeps
    | (extract_lets +onlyGivenNames x; refine Keeps.cut (st := st) (b := b) x ?_ ?_; rotate_left; (clear_value x; intro hx); rotate_left; subst x)
    | (extract_lets +onlyGivenNames x; refine Keeps.cut (st := st) (b := b) x.1 ?_ ?_; rotate_left; (clear_value x; intro hx); rotate_left; subst x)
    | (extract_lets +onlyGivenNames x; refine Keeps.cut (st := st) (b := b) x.2 ?_ ?_; rotate_left; (clear_value x; intro hx); rotate_left; subst x)
    | (extract_lets +onlyGivenNames x; clear_value x)
    | (extract_lets +onlyGivenNames x)
    | split
    | (fail_if_no_progress dsimp only)

theorem State.setCavity_keeps {st : Bool} {b s : State} (h : Keeps st b s) (c : Int) :
    Keeps st b (State.setCavity s c) := by
  unfold State.setCavity
  repeat' first
    | with_reducible assumption
    | with_reducible exact Keeps.refl _ _
    | with_reducible apply Keeps.ite
    | (fail_if_no_progress with_reducible apply Keeps.upd)
    | with_reducible apply State.setN_keeps
    | (fail_if_no_progress dsimp only)

theorem State.setCko_keeps {st : Bool} {b s : State} (h : Keeps st b s) (f : CkoS → CkoS) :
    Keeps st b (State.setCko s f) := by
  unfold State.setCko
  repeat' first
    | with_reducible assumption
    | with_reducible exact Keeps.refl _ _
    | with_reducible apply Keeps.ite
    | (fail_if_no_progress with_reducible apply Keeps.upd)
    | (fail_if_no_progress dsimp only)

theorem State.askAlign_keeps {st : Bool} {b s : State} (h : Keeps st b s) (n : Nat) :
    Keeps st b (State.askAlign s n) := by
  unfold State.askAlign
  repeat' first
    | with_reducible assumption
    | with_reducible exact Keeps.refl _ _
    | with_reducible apply Keeps.ite
    | (fail_if_no_progress with_reducible apply Keeps.upd)
    | with_reducible apply State.setCko_keeps
    | (intro u a hu; beta_reduce)
    | (intro u hu; beta_reduce)
    | (fail_if_no_progress dsimp only)

theorem State.setAligned_keeps {st : Bool} {b s : State} (h : Keeps st b s) (n : Nat) (x_b : Bool) :
    Keeps st b (State.setAligned s n x_b) := by
  unfold State.setAligned
  repeat' first
    | with_reducible assumption
    | with_reducible exact Keeps.refl _ _
    | with_reducible apply Keeps.ite
    | (fail_if_no_progress with_reducible apply Keeps.upd)
    | with_reducible apply State.wrB_keeps
    | (fail_if_no_progress dsimp only)

theorem State.alignLost_keeps {st : Bool} {b s : State} (h : Keeps st b s)  :
    Keeps st b (State.alignLost s) := by
  unfold State.alignLost
  repeat' first
    | with_reducible assumption
    | with_reducible exact Keeps.refl _ _
    | with_reducible apply Keeps.ite
    | (fail_if_no_progress with_reducible apply Keeps.upd)
    | with_reducible apply State.setAligned_keeps
    | with_reducible apply State.askAlign_keeps
    | with_reducible apply State.sticky_keeps
    | (with_reducible refine Keeps.foldl ?_ ?_)
    | (with_reducible refine Keeps.foldl_fst ?_ ?_)
    | (intro u a hu; beta_reduce)
    | (intro u hu; beta_reduce)
    | (extract_lets +onlyGivenNames x; refine Keeps.cut (st := st) (b := b) x ?_ ?_; rotate_left; (clear_value x; intro hx); rotate_left; subst x)
    | (extract_lets +onlyGivenNames x; refine Keeps.cut (st := st) (b := b) x.1 ?_ ?_; rotate_left; (clear_value x; intro hx); rotate_left; subst x)
    | (extract_lets +onlyGivenNames x; refine Keeps.cut (st := st) (b := b) x.2 ?_ ?_; rotate_left; (clear_value x; intro hx); rotate_left; subst x)
    | (extract_lets +onlyGivenNames x; clear_value x)
    | (extract_lets +onlyGivenNames x)
    | split
    | (fail_if_no_progress dsimp only)

theorem State.alignGo_keeps {st : Bool} {b s : State} (h : Keeps st b s)  :
    Keeps st b (State.alignGo s) := by
  unfold State.alignGo
  repeat' first
    | with_reducible assumption
    | with_reducible exact Keeps.refl _ _
    | with_reducible apply Keeps.ite
    | (fail_if_no_progress with_reducible apply Keeps.upd)
    | with_reducible apply State.askAlign_keeps
    | with_reducible apply State.refuseCfg_keeps
    | (with_reducible refine Keeps.foldl ?_ ?_)
    | (with_reducible refine Keeps.foldl_fst ?_ ?_)
    | (intro u a hu; beta_reduce)
    | (intro u hu; beta_reduce)
    | split
    | (fail_if_no_progress dsimp only)

theorem State.walkDone_keeps {st : Bool} {b s : State} (h : Keeps st b s) (n : Nat) :
    Keeps st b (State.walkDone s n) := by
  unfold State.walkDone
  repeat' first
    | with_reducible assumption
    | with_reducible exact Keeps.refl _ _
    | with_reducible apply Keeps.ite
    | (fail_if_no_progress with_reducible apply Keeps.upd)
    | with_reducible apply State.setCko_keeps
    | with_reducible apply State.wr_keeps
    | with_reducible apply State.sticky_keeps
    | (intro u a hu; beta_reduce)
    | (intro u hu; beta_reduce)
    | (fail_if_no_progress dsimp only)

theorem State.ckoApply_keeps {st : Bool} {b s : State} (h : Keeps st b s)  :
    Keeps st b (State.ckoApply s) := by
  unfold State.ckoApply
  repeat' first
    | with_reducible assumption
    | with_reducible exact Keeps.refl _ _
    | with_reducible apply Keeps.ite
    | (fail_if_no_progress with_reducible apply Keeps.upd)
    | with_reducible apply State.applyShadows_keeps
    | with_reducible apply State.wr_keeps
    | with_reducible apply State.setAligned_keeps
    | with_reducible apply State.wrB_keeps
    | with_reducible apply State.askAlign_keeps
    | with_reducible apply State.setCko_keeps
    | with_reducible apply State.setN_keeps
    | (with_reducible refine Keeps.foldl ?_ ?_)
    | (with_reducible refine Keeps.foldl_fst ?_ ?_)
    | (intro u a hu; beta_reduce)
    | (intro u hu; beta_reduce)
    | (extract_lets +onlyGivenNames x; refine Keeps.cut (st := st) (b := b) x ?_ ?_; rotate_left; (clear_value x; intro hx); rotate_left; subst x)
    | (extract_lets +onlyGivenNames x; refine Keeps.cut (st := st) (b := b) x.1 ?_ ?_; rotate_left; (clear_value x; intro hx); rotate_left; subst x)
    | (extract_lets +onlyGivenNames x; refine Keeps.cut (st := st) (b := b) x.2 ?_ ?_; rotate_left; (clear_value x; intro hx); rotate_left; subst x)
    | (extract_lets +onlyGivenNames x; clear_value x)
    | (extract_lets +onlyGivenNames x)
    | split
    | (fail_if_no_progress dsimp only)

end Sys2Proof.Machine
end

