-- ==== Sys2Proof/Laws/KOsc.lean ====
section
/-! SUPPORT. What the operations of Machine/Osc.lean keep. -/

set_option linter.unusedTactic false
set_option linter.unreachableTactic false

namespace Sys2Proof.Machine

theorem State.setActiveLo_keeps {st : Bool} {b s : State} (h : Keeps st b s) (grotto : Bool) :
    Keeps st b (State.setActiveLo s grotto) := by
  unfold State.setActiveLo
  repeat' first
    | with_reducible assumption
    | with_reducible exact Keeps.refl _ _
    | with_reducible apply Keeps.ite
    | (fail_if_no_progress with_reducible apply Keeps.upd)
    | with_reducible apply State.wrB_keeps
    | (fail_if_no_progress dsimp only)

theorem State.switchover_keeps {st : Bool} {b s : State} (h : Keeps st b s) (delta0 : Int) :
    Keeps st b (State.switchover s delta0) := by
  unfold State.switchover
  repeat' first
    | with_reducible assumption
    | with_reducible exact Keeps.refl _ _
    | with_reducible apply Keeps.ite
    | (fail_if_no_progress with_reducible apply Keeps.upd)
    | (fail_if_no_progress with_reducible apply Keeps.upd_filter)
    | (fail_if_no_progress with_reducible apply Keeps.upd_filter_all)
    | with_reducible apply State.accU_keeps
    | with_reducible apply State.reanchor_keeps
    | with_reducible apply State.count_keeps
    | with_reducible apply State.setBoth_keeps
    | with_reducible apply State.set64_keeps
    | with_reducible apply State.setShadow_keeps
    | with_reducible apply State.setActiveLo_keeps
    | with_reducible apply State.bumpF_keeps
    | with_reducible apply State.wr_keeps
    | with_reducible apply State.wrB_keeps
    | (with_reducible refine State.setTsc_keeps ?_ _ ?hx ?hy; (case hx => (intro _; rfl)); (case hy => (intro _; rfl)))
    | with_reducible apply State.setN_keeps
    | with_reducible apply State.dscLoSwitch_keeps
    | with_reducible apply State.setQuiet_keeps
    | with_reducible apply State.journal_keeps
    | (with_reducible refine Keeps.foldl ?_ ?_)
    | (with_reducible refine Keeps.foldl_fst ?_ ?_)
    | (intro u a hu; beta_reduce)
    | (intro u hu; beta_reduce)
    | (extract_lets +onlyGivenNames x; refine Keeps.cut (st := st) (b := b) x ?_ ?_; rotate_left; (clear_value x; intro hx); rotate_left; subst x)
    | (extract_lets +onlyGivenNames x; refine Keeps.cut (st := st) (b := b) x.1 ?_ ?_; rotate_left; (clear_value x; intro hx); rotate_left; subst x)
    | (extract_lets +onlyGivenNames x; refine Keeps.cut (st := st) (b := b) x.2 ?_ ?_; rotate_left; (clear_value x; intro hx); rotate_left; subst x)
    | (extract_lets +onlyGivenNames x; clear_value x)
    | (extract_lets +onlyGivenNames x)
    | split
    | (fail_if_no_progress dsimp only)

theorem State.askSwitch_keeps {st : Bool} {b s : State} (h : Keeps st b s) (delta : Int) (afterLoss : Bool) :
    Keeps st b (State.askSwitch s delta afterLoss) := by
  unfold State.askSwitch
  repeat' first
    | with_reducible assumption
    | with_reducible exact Keeps.refl _ _
    | with_reducible apply Keeps.ite
    | (fail_if_no_progress with_reducible apply Keeps.upd)
    | with_reducible apply State.switchover_keeps
    | (with_reducible refine State.setTsc_keeps ?_ _ ?hx ?hy; (case hx => (intro _; rfl)); (case hy => (intro _; rfl)))
    | (intro u a hu; beta_reduce)
    | (intro u hu; beta_reduce)
    | split
    | (fail_if_no_progress dsimp only)

theorem State.loCtrl_keeps {st : Bool} {b s : State} (h : Keeps st b s) (val : Nat) (delta : Int) :
    Keeps st b (State.loCtrl s val delta) := by
  unfold State.loCtrl
  repeat' first
    | with_reducible assumption
    | with_reducible exact Keeps.refl _ _
    | with_reducible apply Keeps.ite
    | (fail_if_no_progress with_reducible apply Keeps.upd)
    | with_reducible apply State.refuseCfg_keeps
    | with_reducible apply State.wr_keeps
    | with_reducible apply State.wrB_keeps
    | with_reducible apply State.askSwitch_keeps
    | (extract_lets +onlyGivenNames x; refine Keeps.cut (st := st) (b := b) x ?_ ?_; rotate_left; (clear_value x; intro hx); rotate_left; subst x)
    | (extract_lets +onlyGivenNames x; refine Keeps.cut (st := st) (b := b) x.1 ?_ ?_; rotate_left; (clear_value x; intro hx); rotate_left; subst x)
    | (extract_lets +onlyGivenNames x; refine Keeps.cut (st := st) (b := b) x.2 ?_ ?_; rotate_left; (clear_value x; intro hx); rotate_left; subst x)
    | (extract_lets +onlyGivenNames x; clear_value x)
    | (extract_lets +onlyGivenNames x)
    | split
    | (fail_if_no_progress dsimp only)

end Sys2Proof.Machine
end

