-- ==== Sys2Proof/Laws/KJobs.lean ====
section
/-! SUPPORT. What the operations of Machine/Jobs.lean keep. -/

set_option linter.unusedTactic false
set_option linter.unreachableTactic false

namespace Sys2Proof.Machine

theorem State.stat_keeps {st : Bool} {b s : State} (h : Keeps st b s) (p : Nat) (i : Nat) (n : Nat) :
    Keeps st b (State.stat s p i n) := by
  unfold State.stat
  repeat' first
    | with_reducible assumption
    | with_reducible exact Keeps.refl _ _
    | with_reducible apply Keeps.ite
    | (fail_if_no_progress with_reducible apply Keeps.upd)
    | with_reducible apply State.wr_keeps
    | with_reducible apply State.sticky_keeps
    | (extract_lets +onlyGivenNames x; refine Keeps.cut (st := st) (b := b) x ?_ ?_; rotate_left; (clear_value x; intro hx); rotate_left; subst x)
    | (extract_lets +onlyGivenNames x; refine Keeps.cut (st := st) (b := b) x.1 ?_ ?_; rotate_left; (clear_value x; intro hx); rotate_left; subst x)
    | (extract_lets +onlyGivenNames x; refine Keeps.cut (st := st) (b := b) x.2 ?_ ?_; rotate_left; (clear_value x; intro hx); rotate_left; subst x)
    | (extract_lets +onlyGivenNames x; clear_value x)
    | (extract_lets +onlyGivenNames x)
    | split
    | (fail_if_no_progress dsimp only)

theorem State.idleNow_keeps {st : Bool} {b s : State} (h : Keeps st b s) (p : Nat) :
    Keeps st b (State.idleNow s p) := by
  unfold State.idleNow
  repeat' first
    | with_reducible assumption
    | with_reducible exact Keeps.refl _ _
    | with_reducible apply Keeps.ite
    | (fail_if_no_progress with_reducible apply Keeps.upd)
    | (fail_if_no_progress dsimp only)

theorem State.startWake_keeps {st : Bool} {b s : State} (h : Keeps st b s) (d : Nat) :
    Keeps st b (State.startWake s d) := by
  unfold State.startWake
  repeat' first
    | with_reducible assumption
    | with_reducible exact Keeps.refl _ _
    | with_reducible apply Keeps.ite
    | (fail_if_no_progress with_reducible apply Keeps.upd)
    | with_reducible apply State.wr_keeps
    | (intro u a hu; beta_reduce)
    | (intro u hu; beta_reduce)
    | (extract_lets +onlyGivenNames x; refine Keeps.cut (st := st) (b := b) x ?_ ?_; rotate_left; (clear_value x; intro hx); rotate_left; subst x)
    | (extract_lets +onlyGivenNames x; refine Keeps.cut (st := st) (b := b) x.1 ?_ ?_; rotate_left; (clear_value x; intro hx); rotate_left; subst x)
    | (extract_lets +onlyGivenNames x; refine Keeps.cut (st := st) (b := b) x.2 ?_ ?_; rotate_left; (clear_value x; intro hx); rotate_left; subst x)
    | (extract_lets +onlyGivenNames x; clear_value x)
    | (extract_lets +onlyGivenNames x)
    | split
    | (fail_if_no_progress dsimp only)

theorem State.wakePort_keeps {st : Bool} {b s : State} (h : Keeps st b s) (p : Nat) (cause : Nat) :
    Keeps st b (State.wakePort s p cause) := by
  unfold State.wakePort
  repeat' first
    | with_reducible assumption
    | with_reducible exact Keeps.refl _ _
    | with_reducible apply Keeps.ite
    | (fail_if_no_progress with_reducible apply Keeps.upd)
    | with_reducible apply State.wr_keeps
    | with_reducible apply State.startWake_keeps
    | (extract_lets +onlyGivenNames x; refine Keeps.cut (st := st) (b := b) x ?_ ?_; rotate_left; (clear_value x; intro hx); rotate_left; subst x)
    | (extract_lets +onlyGivenNames x; refine Keeps.cut (st := st) (b := b) x.1 ?_ ?_; rotate_left; (clear_value x; intro hx); rotate_left; subst x)
    | (extract_lets +onlyGivenNames x; refine Keeps.cut (st := st) (b := b) x.2 ?_ ?_; rotate_left; (clear_value x; intro hx); rotate_left; subst x)
    | (extract_lets +onlyGivenNames x; clear_value x)
    | (extract_lets +onlyGivenNames x)
    | split
    | (fail_if_no_progress dsimp only)

theorem State.setJobs_keeps {st : Bool} {b s : State} (h : Keeps st b s) (l : List Job) :
    Keeps st b (State.setJobs s l) := by
  unfold State.setJobs
  repeat' first
    | with_reducible assumption
    | with_reducible exact Keeps.refl _ _
    | with_reducible apply Keeps.ite
    | (fail_if_no_progress with_reducible apply Keeps.upd)
    | (fail_if_no_progress dsimp only)

theorem State.putJob_keeps {st : Bool} {b s : State} (h : Keeps st b s) (j : Job) :
    Keeps st b (State.putJob s j) := by
  unfold State.putJob
  repeat' first
    | with_reducible assumption
    | with_reducible exact Keeps.refl _ _
    | with_reducible apply Keeps.ite
    | (fail_if_no_progress with_reducible apply Keeps.upd)
    | with_reducible apply State.setJobs_keeps
    | (intro u a hu; beta_reduce)
    | (intro u hu; beta_reduce)
    | split
    | (fail_if_no_progress dsimp only)

theorem State.delJob_keeps {st : Bool} {b s : State} (h : Keeps st b s) (id : Nat) :
    Keeps st b (State.delJob s id) := by
  unfold State.delJob
  repeat' first
    | with_reducible assumption
    | with_reducible exact Keeps.refl _ _
    | with_reducible apply Keeps.ite
    | (fail_if_no_progress with_reducible apply Keeps.upd)
    | (fail_if_no_progress with_reducible apply Keeps.upd_filter)
    | (fail_if_no_progress with_reducible apply Keeps.upd_filter_all)
    | with_reducible apply State.setJobs_keeps
    | (intro u a hu; beta_reduce)
    | (intro u hu; beta_reduce)
    | (fail_if_no_progress dsimp only)

theorem State.addJob_keeps {st : Bool} {b s : State} (h : Keeps st b s) (j : Job) :
    Keeps st b (State.addJob s j) := by
  unfold State.addJob
  repeat' first
    | with_reducible assumption
    | with_reducible exact Keeps.refl _ _
    | with_reducible apply Keeps.ite
    | (fail_if_no_progress with_reducible apply Keeps.upd)
    | (fail_if_no_progress dsimp only)

theorem State.quadEvent_keeps {st : Bool} {b s : State} (h : Keeps st b s) (q : Nat) (bit : Nat) :
    Keeps st b (State.quadEvent s q bit) := by
  unfold State.quadEvent
  repeat' first
    | with_reducible assumption
    | with_reducible exact Keeps.refl _ _
    | with_reducible apply Keeps.ite
    | (fail_if_no_progress with_reducible apply Keeps.upd)
    | with_reducible apply State.seqEvent_keeps
    | (with_reducible refine Keeps.foldl ?_ ?_)
    | (with_reducible refine Keeps.foldl_fst ?_ ?_)
    | (intro u a hu; beta_reduce)
    | (intro u hu; beta_reduce)
    | (fail_if_no_progress dsimp only)

theorem State.pump_keeps {st : Bool} {b s : State} (h : Keeps st b s) (q : Nat) :
    Keeps st b (State.pump s q) := by
  unfold State.pump
  repeat' first
    | with_reducible assumption
    | with_reducible exact Keeps.refl _ _
    | with_reducible apply Keeps.ite
    | (fail_if_no_progress with_reducible apply Keeps.upd)
    | with_reducible apply State.qPut_keeps
    | with_reducible apply State.putJob_keeps
    | with_reducible apply State.quadEvent_keeps
    | (with_reducible refine Keeps.foldl ?_ ?_)
    | (with_reducible refine Keeps.foldl_fst ?_ ?_)
    | (intro u a hu; beta_reduce)
    | (intro u hu; beta_reduce)
    | (extract_lets +onlyGivenNames x; refine Keeps.cut (st := st) (b := b) x ?_ ?_; rotate_left; (clear_value x; intro hx); rotate_left; subst x)
    | (extract_lets +onlyGivenNames x; refine Keeps.cut (st := st) (b := b) x.1 ?_ ?_; rotate_left; (clear_value x; intro hx); rotate_left; subst x)
    | (extract_lets +onlyGivenNames x; refine Keeps.cut (st := st) (b := b) x.2 ?_ ?_; rotate_left; (clear_value x; intro hx); rotate_left; subst x)
    | (extract_lets +onlyGivenNames x; clear_value x)
    | (extract_lets +onlyGivenNames x)
    | split
    | (fail_if_no_progress dsimp only)

theorem State.slotIssued_keeps {st : Bool} {b s : State} (h : Keeps st b s) (q : Nat) :
    Keeps st b (State.slotIssued s q) := by
  unfold State.slotIssued
  repeat' first
    | with_reducible assumption
    | with_reducible exact Keeps.refl _ _
    | with_reducible apply Keeps.ite
    | (fail_if_no_progress with_reducible apply Keeps.upd)
    | with_reducible apply State.updTd_keeps
    | (intro u a hu; beta_reduce)
    | (intro u hu; beta_reduce)
    | (fail_if_no_progress dsimp only)

theorem State.slotRetired_keeps {st : Bool} {b s : State} (h : Keeps st b s) (q : Nat) :
    Keeps st b (State.slotRetired s q) := by
  unfold State.slotRetired
  repeat' first
    | with_reducible assumption
    | with_reducible exact Keeps.refl _ _
    | with_reducible apply Keeps.ite
    | (fail_if_no_progress with_reducible apply Keeps.upd)
    | with_reducible apply State.updTd_keeps
    | with_reducible apply State.count_keeps
    | (intro u a hu; beta_reduce)
    | (intro u hu; beta_reduce)
    | (fail_if_no_progress dsimp only)

theorem State.slotWasted_keeps {st : Bool} {b s : State} (h : Keeps st b s) (q : Nat) :
    Keeps st b (State.slotWasted s q) := by
  unfold State.slotWasted
  repeat' first
    | with_reducible assumption
    | with_reducible exact Keeps.refl _ _
    | with_reducible apply Keeps.ite
    | (fail_if_no_progress with_reducible apply Keeps.upd)
    | with_reducible apply State.updTd_keeps
    | with_reducible apply State.count_keeps
    | (intro u a hu; beta_reduce)
    | (intro u hu; beta_reduce)
    | (fail_if_no_progress dsimp only)

theorem State.itemCycles_keeps {st : Bool} {b s : State} (h : Keeps st b s) (n : Nat) (k : Nat) (ok : Bool) :
    Keeps st b (State.itemCycles s n k ok) := by
  unfold State.itemCycles
  repeat' first
    | with_reducible assumption
    | with_reducible exact Keeps.refl _ _
    | with_reducible apply Keeps.ite
    | (fail_if_no_progress with_reducible apply Keeps.upd)
    | with_reducible apply State.updTd_keeps
    | with_reducible apply State.count_keeps
    | (intro u a hu; beta_reduce)
    | (intro u hu; beta_reduce)
    | split
    | (fail_if_no_progress dsimp only)

theorem State.itemEnd_keeps {st : Bool} {b s : State} (h : Keeps st b s) (n : Nat) (ok : Bool) :
    Keeps st b (State.itemEnd s n ok) := by
  unfold State.itemEnd
  repeat' first
    | with_reducible assumption
    | with_reducible exact Keeps.refl _ _
    | with_reducible apply Keeps.ite
    | (fail_if_no_progress with_reducible apply Keeps.upd)
    | with_reducible apply State.setSq_keeps
    | with_reducible apply State.itemCycles_keeps
    | split
    | (refine OKeeps.of_some (by assumption) ?_)
    | (with_reducible refine Keeps.of_pair (by assumption) ?_)
    | (with_reducible refine Keeps.of_pair2 (by assumption) ?_)
    | (fail_if_no_progress dsimp only)

theorem State.itemOwe_keeps {st : Bool} {b s : State} (h : Keeps st b s) (n : Nat) (id : Nat) :
    Keeps st b (State.itemOwe s n id) := by
  unfold State.itemOwe
  repeat' first
    | with_reducible assumption
    | with_reducible exact Keeps.refl _ _
    | with_reducible apply Keeps.ite
    | (fail_if_no_progress with_reducible apply Keeps.upd)
    | with_reducible apply State.setSq_keeps
    | (with_reducible refine State.setSeqS_keeps ?_ _ ?hx; case hx => (intro _; rfl))
    | (intro u a hu; beta_reduce)
    | (intro u hu; beta_reduce)
    | (extract_lets +onlyGivenNames x; refine Keeps.cut (st := st) (b := b) x ?_ ?_; rotate_left; (clear_value x; intro hx); rotate_left; subst x)
    | (extract_lets +onlyGivenNames x; refine Keeps.cut (st := st) (b := b) x.1 ?_ ?_; rotate_left; (clear_value x; intro hx); rotate_left; subst x)
    | (extract_lets +onlyGivenNames x; refine Keeps.cut (st := st) (b := b) x.2 ?_ ?_; rotate_left; (clear_value x; intro hx); rotate_left; subst x)
    | (extract_lets +onlyGivenNames x; clear_value x)
    | (extract_lets +onlyGivenNames x)
    | split
    | (refine OKeeps.of_some (by assumption) ?_)
    | (with_reducible refine Keeps.of_pair (by assumption) ?_)
    | (with_reducible refine Keeps.of_pair2 (by assumption) ?_)
    | (fail_if_no_progress dsimp only)

theorem State.itemSettle_keeps {st : Bool} {b s : State} (h : Keeps st b s) (id : Nat) (ok : Bool) :
    Keeps st b (State.itemSettle s id ok) := by
  unfold State.itemSettle
  repeat' first
    | with_reducible assumption
    | with_reducible exact Keeps.refl _ _
    | with_reducible apply Keeps.ite
    | (fail_if_no_progress with_reducible apply Keeps.upd)
    | (fail_if_no_progress with_reducible apply Keeps.upd_filter)
    | (fail_if_no_progress with_reducible apply Keeps.upd_filter_all)
    | (with_reducible refine State.setSeqS_keeps ?_ _ ?hx; case hx => (intro _; rfl))
    | with_reducible apply State.itemCycles_keeps
    | (intro u a hu; beta_reduce)
    | (intro u hu; beta_reduce)
    | split
    | (refine OKeeps.of_some (by assumption) ?_)
    | (with_reducible refine Keeps.of_pair (by assumption) ?_)
    | (with_reducible refine Keeps.of_pair2 (by assumption) ?_)
    | (fail_if_no_progress dsimp only)

theorem State.leaveQueues_keeps {st : Bool} {b s : State} (h : Keeps st b s) (j : Job) :
    Keeps st b (State.leaveQueues s j) := by
  unfold State.leaveQueues
  repeat' first
    | with_reducible assumption
    | with_reducible exact Keeps.refl _ _
    | with_reducible apply Keeps.ite
    | (fail_if_no_progress with_reducible apply Keeps.upd)
    | with_reducible apply State.qTake_keeps
    | (extract_lets +onlyGivenNames x; refine Keeps.cut (st := st) (b := b) x ?_ ?_; rotate_left; (clear_value x; intro hx); rotate_left; subst x)
    | (extract_lets +onlyGivenNames x; refine Keeps.cut (st := st) (b := b) x.1 ?_ ?_; rotate_left; (clear_value x; intro hx); rotate_left; subst x)
    | (extract_lets +onlyGivenNames x; refine Keeps.cut (st := st) (b := b) x.2 ?_ ?_; rotate_left; (clear_value x; intro hx); rotate_left; subst x)
    | (extract_lets +onlyGivenNames x; clear_value x)
    | (extract_lets +onlyGivenNames x)
    | split
    | (refine OKeeps.of_some (by assumption) ?_)
    | (with_reducible refine Keeps.of_pair (by assumption) ?_)
    | (with_reducible refine Keeps.of_pair2 (by assumption) ?_)
    | (fail_if_no_progress dsimp only)

theorem State.leaveSlot_keeps {st : Bool} {b s : State} (h : Keeps st b s) (j : Job) :
    Keeps st b (State.leaveSlot s j) := by
  unfold State.leaveSlot
  repeat' first
    | with_reducible assumption
    | with_reducible exact Keeps.refl _ _
    | with_reducible apply Keeps.ite
    | (fail_if_no_progress with_reducible apply Keeps.upd)
    | with_reducible apply State.give_keeps
    | split
    | (fail_if_no_progress dsimp only)

theorem State.freeJob_keeps {st : Bool} {b s : State} (h : Keeps st b s) (j : Job) :
    Keeps st b (State.freeJob s j) := by
  unfold State.freeJob
  repeat' first
    | with_reducible assumption
    | with_reducible exact Keeps.refl _ _
    | with_reducible apply Keeps.ite
    | (fail_if_no_progress with_reducible apply Keeps.upd)
    | with_reducible apply State.leaveQueues_keeps
    | with_reducible apply State.leaveSlot_keeps
    | with_reducible apply State.give_keeps
    | with_reducible apply State.delJob_keeps
    | with_reducible apply State.quadEvent_keeps
    | with_reducible apply State.pump_keeps
    | (fail_if_no_progress dsimp only)

theorem State.sumpJob_keeps {st : Bool} {b s : State} (h : Keeps st b s) (j : Job) (reason : Nat) :
    Keeps st b (State.sumpJob s j reason) := by
  unfold State.sumpJob
  repeat' first
    | with_reducible assumption
    | with_reducible exact Keeps.refl _ _
    | with_reducible apply Keeps.ite
    | (fail_if_no_progress with_reducible apply Keeps.upd)
    | with_reducible apply State.freeJob_keeps
    | with_reducible apply State.itemSettle_keeps
    | with_reducible apply State.slotWasted_keeps
    | with_reducible apply State.sumpRequest_keeps
    | with_reducible apply State.sump_keeps
    | (extract_lets +onlyGivenNames x; refine Keeps.cut (st := st) (b := b) x ?_ ?_; rotate_left; (clear_value x; intro hx); rotate_left; subst x)
    | (extract_lets +onlyGivenNames x; refine Keeps.cut (st := st) (b := b) x.1 ?_ ?_; rotate_left; (clear_value x; intro hx); rotate_left; subst x)
    | (extract_lets +onlyGivenNames x; refine Keeps.cut (st := st) (b := b) x.2 ?_ ?_; rotate_left; (clear_value x; intro hx); rotate_left; subst x)
    | (extract_lets +onlyGivenNames x; clear_value x)
    | (extract_lets +onlyGivenNames x)
    | split
    | (fail_if_no_progress dsimp only)

theorem State.answerJob_keeps {st : Bool} {b s : State} (h : Keeps st b s) (j : Job) :
    Keeps st b (State.answerJob s j) := by
  unfold State.answerJob
  repeat' first
    | with_reducible assumption
    | with_reducible exact Keeps.refl _ _
    | with_reducible apply Keeps.ite
    | (fail_if_no_progress with_reducible apply Keeps.upd)
    | with_reducible apply State.freeJob_keeps
    | with_reducible apply State.itemSettle_keeps
    | with_reducible apply State.slotRetired_keeps
    | with_reducible apply State.endRequest_keeps
    | with_reducible apply State.count_keeps
    | (extract_lets +onlyGivenNames x; refine Keeps.cut (st := st) (b := b) x ?_ ?_; rotate_left; (clear_value x; intro hx); rotate_left; subst x)
    | (extract_lets +onlyGivenNames x; refine Keeps.cut (st := st) (b := b) x.1 ?_ ?_; rotate_left; (clear_value x; intro hx); rotate_left; subst x)
    | (extract_lets +onlyGivenNames x; refine Keeps.cut (st := st) (b := b) x.2 ?_ ?_; rotate_left; (clear_value x; intro hx); rotate_left; subst x)
    | (extract_lets +onlyGivenNames x; clear_value x)
    | (extract_lets +onlyGivenNames x)
    | split
    | (fail_if_no_progress dsimp only)

theorem State.cancelDrop_keeps {st : Bool} {b s : State} (h : Keeps st b s) (j : Job) :
    Keeps st b (State.cancelDrop s j) := by
  unfold State.cancelDrop
  repeat' first
    | with_reducible assumption
    | with_reducible exact Keeps.refl _ _
    | with_reducible apply Keeps.ite
    | (fail_if_no_progress with_reducible apply Keeps.upd)
    | with_reducible apply State.freeJob_keeps
    | with_reducible apply State.itemSettle_keeps
    | with_reducible apply State.sticky_keeps
    | with_reducible apply State.slotWasted_keeps
    | with_reducible apply State.sump_keeps
    | with_reducible apply State.endRequest_keeps
    | (extract_lets +onlyGivenNames x; refine Keeps.cut (st := st) (b := b) x ?_ ?_; rotate_left; (clear_value x; intro hx); rotate_left; subst x)
    | (extract_lets +onlyGivenNames x; refine Keeps.cut (st := st) (b := b) x.1 ?_ ?_; rotate_left; (clear_value x; intro hx); rotate_left; subst x)
    | (extract_lets +onlyGivenNames x; refine Keeps.cut (st := st) (b := b) x.2 ?_ ?_; rotate_left; (clear_value x; intro hx); rotate_left; subst x)
    | (extract_lets +onlyGivenNames x; clear_value x)
    | (extract_lets +onlyGivenNames x)
    | split
    | (fail_if_no_progress dsimp only)

end Sys2Proof.Machine
end

