-- ==== Sys2Proof/Laws/KNts.lean ====
section
/-! SUPPORT. What the operations of Machine/Nts.lean keep. -/

set_option linter.unusedTactic false
set_option linter.unreachableTactic false

namespace Sys2Proof.Machine

theorem State.mkPoison_keeps {st : Bool} {b s : State} (h : Keeps st b s)  :
    Keeps st b (State.mkPoison s) := by
  unfold State.mkPoison
  repeat' first
    | with_reducible assumption
    | with_reducible exact Keeps.refl _ _
    | with_reducible apply Keeps.ite
    | (fail_if_no_progress with_reducible apply Keeps.upd)
    | with_reducible apply State.keyPoison_keeps
    | with_reducible apply State.sticky_keeps
    | (fail_if_no_progress dsimp only)

theorem State.pipeOps_keeps {st : Bool} {b s : State} (h : Keeps st b s) (p : Nat) (n : Nat) :
    Keeps st b (State.pipeOps s p n) := by
  unfold State.pipeOps
  repeat' first
    | with_reducible assumption
    | with_reducible exact Keeps.refl _ _
    | with_reducible apply Keeps.ite
    | (fail_if_no_progress with_reducible apply Keeps.upd)
    | with_reducible apply State.bump48_keeps
    | with_reducible apply State.count_keeps
    | split
    | (fail_if_no_progress dsimp only)

theorem State.mintOne_keeps {st : Bool} {b s : State} (h : Keeps st b s) (p : Nat) (keys : List Byte) :
    Keeps st b (State.mintOne s p keys).1 := by
  unfold State.mintOne
  repeat' first
    | with_reducible assumption
    | with_reducible exact Keeps.refl _ _
    | with_reducible apply Keeps.ite
    | (fail_if_no_progress with_reducible apply Keeps.upd)
    | with_reducible apply State.useKey_keeps
    | with_reducible apply State.pipeOps_keeps
    | with_reducible apply State.count_keeps
    | (extract_lets +onlyGivenNames x; refine Keeps.cut (st := st) (b := b) x ?_ ?_; rotate_left; (clear_value x; intro hx); rotate_left; subst x)
    | (extract_lets +onlyGivenNames x; refine Keeps.cut (st := st) (b := b) x.1 ?_ ?_; rotate_left; (clear_value x; intro hx); rotate_left; subst x)
    | (extract_lets +onlyGivenNames x; refine Keeps.cut (st := st) (b := b) x.2 ?_ ?_; rotate_left; (clear_value x; intro hx); rotate_left; subst x)
    | (extract_lets +onlyGivenNames x; clear_value x)
    | (extract_lets +onlyGivenNames x)
    | (fail_if_no_progress dsimp only)

theorem State.mintMany_keeps {st : Bool} {b s : State} (h : Keeps st b s) (p : Nat) (keys : List Byte) (n : Nat) :
    Keeps st b (State.mintMany s p keys n).1 := by
  induction n generalizing s with
  | zero => exact h
  | succ n ih => exact ih (State.mintOne_keeps h p keys)

theorem State.openCookie_keeps {st : Bool} {b s : State} (h : Keeps st b s) (p : Nat) (cookie : List Byte) :
    Keeps st b (State.openCookie s p cookie).1 := by
  unfold State.openCookie
  repeat' first
    | with_reducible assumption
    | with_reducible exact Keeps.refl _ _
    | with_reducible apply Keeps.ite
    | (fail_if_no_progress with_reducible apply Keeps.upd)
    | with_reducible apply State.sticky_keeps
    | with_reducible apply State.mkPoison_keeps
    | with_reducible apply State.useKey_keeps
    | with_reducible apply State.pipeOps_keeps
    | with_reducible apply State.bump_keeps
    | (extract_lets +onlyGivenNames x; refine Keeps.cut (st := st) (b := b) x ?_ ?_; rotate_left; (clear_value x; intro hx); rotate_left; subst x)
    | (extract_lets +onlyGivenNames x; refine Keeps.cut (st := st) (b := b) x.1 ?_ ?_; rotate_left; (clear_value x; intro hx); rotate_left; subst x)
    | (extract_lets +onlyGivenNames x; refine Keeps.cut (st := st) (b := b) x.2 ?_ ?_; rotate_left; (clear_value x; intro hx); rotate_left; subst x)
    | (extract_lets +onlyGivenNames x; clear_value x)
    | (extract_lets +onlyGivenNames x)
    | split
    | (refine OKeeps.of_some (by assumption) ?_)
    | (with_reducible refine Keeps.of_pair (by assumption) ?_)
    | (with_reducible refine Keeps.of_pair2 (by assumption) ?_)
    | (fail_if_no_progress dsimp only)

theorem State.ntsVerify_keeps {st : Bool} {b s : State} (h : Keeps st b s) (p : Nat) (c2s : List Byte) (ad : List Byte) (nonce : List Byte) (ct : List Byte) :
    Keeps st b (State.ntsVerify s p c2s ad nonce ct).1 := by
  unfold State.ntsVerify
  repeat' first
    | with_reducible assumption
    | with_reducible exact Keeps.refl _ _
    | with_reducible apply Keeps.ite
    | (fail_if_no_progress with_reducible apply Keeps.upd)
    | with_reducible apply State.pipeOps_keeps
    | (fail_if_no_progress dsimp only)

theorem State.respNonce_keeps {st : Bool} {b s : State} (h : Keeps st b s) (p : Nat) :
    Keeps st b (State.respNonce s p).1 := by
  unfold State.respNonce
  repeat' first
    | with_reducible assumption
    | with_reducible exact Keeps.refl _ _
    | with_reducible apply Keeps.ite
    | (fail_if_no_progress with_reducible apply Keeps.upd)
    | (extract_lets +onlyGivenNames x; refine Keeps.cut (st := st) (b := b) x ?_ ?_; rotate_left; (clear_value x; intro hx); rotate_left; subst x)
    | (extract_lets +onlyGivenNames x; refine Keeps.cut (st := st) (b := b) x.1 ?_ ?_; rotate_left; (clear_value x; intro hx); rotate_left; subst x)
    | (extract_lets +onlyGivenNames x; refine Keeps.cut (st := st) (b := b) x.2 ?_ ?_; rotate_left; (clear_value x; intro hx); rotate_left; subst x)
    | (extract_lets +onlyGivenNames x; clear_value x)
    | (extract_lets +onlyGivenNames x)
    | (fail_if_no_progress dsimp only)

theorem State.ntsTail_keeps {st : Bool} {b s : State} (h : Keeps st b s) (x : NtsCtx) :
    Keeps st b (State.ntsTail s x).1 := by
  unfold State.ntsTail
  repeat' first
    | with_reducible assumption
    | with_reducible exact Keeps.refl _ _
    | with_reducible apply Keeps.ite
    | (fail_if_no_progress with_reducible apply Keeps.upd)
    | with_reducible apply State.mintMany_keeps
    | with_reducible apply State.respNonce_keeps
    | with_reducible apply State.pipeOps_keeps
    | (extract_lets +onlyGivenNames x; refine Keeps.cut (st := st) (b := b) x ?_ ?_; rotate_left; (clear_value x; intro hx); rotate_left; subst x)
    | (extract_lets +onlyGivenNames x; refine Keeps.cut (st := st) (b := b) x.1 ?_ ?_; rotate_left; (clear_value x; intro hx); rotate_left; subst x)
    | (extract_lets +onlyGivenNames x; refine Keeps.cut (st := st) (b := b) x.2 ?_ ?_; rotate_left; (clear_value x; intro hx); rotate_left; subst x)
    | (extract_lets +onlyGivenNames x; clear_value x)
    | (extract_lets +onlyGivenNames x)
    | split
    | (fail_if_no_progress dsimp only)

theorem State.ntsFailed_keeps {st : Bool} {b s : State} (h : Keeps st b s) (q : Nat) (reason : Nat) :
    Keeps st b (State.ntsFailed s q reason) := by
  unfold State.ntsFailed
  repeat' first
    | with_reducible assumption
    | with_reducible exact Keeps.refl _ _
    | with_reducible apply Keeps.ite
    | (fail_if_no_progress with_reducible apply Keeps.upd)
    | with_reducible apply State.bump_keeps
    | with_reducible apply State.sticky_keeps
    | split
    | (refine OKeeps.of_some (by assumption) ?_)
    | (with_reducible refine Keeps.of_pair (by assumption) ?_)
    | (with_reducible refine Keeps.of_pair2 (by assumption) ?_)
    | (fail_if_no_progress dsimp only)

theorem State.cookieFailed_keeps {st : Bool} {b s : State} (h : Keeps st b s) (q : Nat) (pipe : Nat) (uid : List Byte) :
    Keeps st b (State.cookieFailed s q pipe uid).1 := by
  unfold State.cookieFailed
  repeat' first
    | with_reducible assumption
    | with_reducible exact Keeps.refl _ _
    | with_reducible apply Keeps.ite
    | (fail_if_no_progress with_reducible apply Keeps.upd)
    | with_reducible apply State.ntsFailed_keeps
    | with_reducible apply State.count_keeps
    | with_reducible apply State.sump_keeps
    | (extract_lets +onlyGivenNames x; refine Keeps.cut (st := st) (b := b) x ?_ ?_; rotate_left; (clear_value x; intro hx); rotate_left; subst x)
    | (extract_lets +onlyGivenNames x; refine Keeps.cut (st := st) (b := b) x.1 ?_ ?_; rotate_left; (clear_value x; intro hx); rotate_left; subst x)
    | (extract_lets +onlyGivenNames x; refine Keeps.cut (st := st) (b := b) x.2 ?_ ?_; rotate_left; (clear_value x; intro hx); rotate_left; subst x)
    | (extract_lets +onlyGivenNames x; clear_value x)
    | (extract_lets +onlyGivenNames x)
    | split
    | (fail_if_no_progress dsimp only)

theorem State.ntsRequest_keeps {st : Bool} {b s : State} (h : Keeps st b s) (q : Nat) (pipe : Nat) (p : List Byte) (kod : Bool) :
    Keeps st b (State.ntsRequest s q pipe p kod).1 := by
  unfold State.ntsRequest
  repeat' first
    | with_reducible assumption
    | with_reducible exact Keeps.refl _ _
    | with_reducible apply Keeps.ite
    | (fail_if_no_progress with_reducible apply Keeps.upd)
    | with_reducible apply State.qPut_keeps
    | with_reducible apply State.qTake_keeps
    | with_reducible apply State.ntsFailed_keeps
    | with_reducible apply State.sump_keeps
    | with_reducible apply State.cookieFailed_keeps
    | with_reducible apply State.openCookie_keeps
    | with_reducible apply State.count_keeps
    | with_reducible apply State.ntsVerify_keeps
    | with_reducible apply State.mkPoison_keeps
    | (extract_lets +onlyGivenNames x; refine Keeps.cut (st := st) (b := b) x ?_ ?_; rotate_left; (clear_value x; intro hx); rotate_left; subst x)
    | (extract_lets +onlyGivenNames x; refine Keeps.cut (st := st) (b := b) x.1 ?_ ?_; rotate_left; (clear_value x; intro hx); rotate_left; subst x)
    | (extract_lets +onlyGivenNames x; refine Keeps.cut (st := st) (b := b) x.2 ?_ ?_; rotate_left; (clear_value x; intro hx); rotate_left; subst x)
    | (extract_lets +onlyGivenNames x; clear_value x)
    | (extract_lets +onlyGivenNames x)
    | split
    | (refine OKeeps.of_some (by assumption) ?_)
    | (with_reducible refine Keeps.of_pair (by assumption) ?_)
    | (with_reducible refine Keeps.of_pair2 (by assumption) ?_)
    | (fail_if_no_progress dsimp only)

theorem State.drawBytes_keeps {st : Bool} {b s : State} (h : Keeps st b s) (n : Nat) :
    Keeps st b (State.drawBytes s n).1 := by
  unfold State.drawBytes
  repeat' first
    | with_reducible assumption
    | with_reducible exact Keeps.refl _ _
    | with_reducible apply Keeps.ite
    | (fail_if_no_progress with_reducible apply Keeps.upd)
    | with_reducible apply State.draw_keeps
    | (extract_lets +onlyGivenNames x; refine Keeps.cut (st := st) (b := b) x ?_ ?_; rotate_left; (clear_value x; intro hx); rotate_left; subst x)
    | (extract_lets +onlyGivenNames x; refine Keeps.cut (st := st) (b := b) x.1 ?_ ?_; rotate_left; (clear_value x; intro hx); rotate_left; subst x)
    | (extract_lets +onlyGivenNames x; refine Keeps.cut (st := st) (b := b) x.2 ?_ ?_; rotate_left; (clear_value x; intro hx); rotate_left; subst x)
    | (extract_lets +onlyGivenNames x; clear_value x)
    | (extract_lets +onlyGivenNames x)
    | (fail_if_no_progress dsimp only)

theorem State.rotateDone_keeps {st : Bool} {b s : State} (h : Keeps st b s) (c : HostCmd) (ok : Bool) :
    Keeps st b (State.rotateDone s c ok) := by
  unfold State.rotateDone
  repeat' first
    | with_reducible assumption
    | with_reducible exact Keeps.refl _ _
    | with_reducible apply Keeps.ite
    | (fail_if_no_progress with_reducible apply Keeps.upd)
    | with_reducible apply State.wr_keeps
    | with_reducible apply State.dropKey_keeps
    | with_reducible apply State.sticky_keeps
    | with_reducible apply State.complete_keeps
    | with_reducible apply State.drawBytes_keeps
    | with_reducible apply State.setKey_keeps
    | with_reducible apply State.bumpF_keeps
    | with_reducible apply State.setN_keeps
    | with_reducible apply State.journal_keeps
    | (extract_lets +onlyGivenNames x; refine Keeps.cut (st := st) (b := b) x ?_ ?_; rotate_left; (clear_value x; intro hx); rotate_left; subst x)
    | (extract_lets +onlyGivenNames x; refine Keeps.cut (st := st) (b := b) x.1 ?_ ?_; rotate_left; (clear_value x; intro hx); rotate_left; subst x)
    | (extract_lets +onlyGivenNames x; refine Keeps.cut (st := st) (b := b) x.2 ?_ ?_; rotate_left; (clear_value x; intro hx); rotate_left; subst x)
    | (extract_lets +onlyGivenNames x; clear_value x)
    | (extract_lets +onlyGivenNames x)
    | split
    | (refine OKeeps.of_some (by assumption) ?_)
    | (with_reducible refine Keeps.of_pair (by assumption) ?_)
    | (with_reducible refine Keeps.of_pair2 (by assumption) ?_)
    | (fail_if_no_progress dsimp only)

theorem State.pipeFail_keeps {st : Bool} {b s : State} (h : Keeps st b s) (p : Nat) :
    Keeps st b (State.pipeFail s p) := by
  unfold State.pipeFail
  repeat' first
    | with_reducible assumption
    | with_reducible exact Keeps.refl _ _
    | with_reducible apply Keeps.ite
    | (fail_if_no_progress with_reducible apply Keeps.upd)
    | with_reducible apply State.failUnit_keeps
    | with_reducible apply State.sticky_keeps
    | with_reducible apply State.settleMode_keeps
    | with_reducible apply State.setJobs_keeps
    | (intro u a hu; beta_reduce)
    | (intro u hu; beta_reduce)
    | (extract_lets +onlyGivenNames x; refine Keeps.cut (st := st) (b := b) x ?_ ?_; rotate_left; (clear_value x; intro hx); rotate_left; subst x)
    | (extract_lets +onlyGivenNames x; refine Keeps.cut (st := st) (b := b) x.1 ?_ ?_; rotate_left; (clear_value x; intro hx); rotate_left; subst x)
    | (extract_lets +onlyGivenNames x; refine Keeps.cut (st := st) (b := b) x.2 ?_ ?_; rotate_left; (clear_value x; intro hx); rotate_left; subst x)
    | (extract_lets +onlyGivenNames x; clear_value x)
    | (extract_lets +onlyGivenNames x)
    | split
    | (refine OKeeps.of_some (by assumption) ?_)
    | (with_reducible refine Keeps.of_pair (by assumption) ?_)
    | (with_reducible refine Keeps.of_pair2 (by assumption) ?_)
    | (fail_if_no_progress dsimp only)

theorem State.ntsApply_keeps {st : Bool} {b s : State} (h : Keeps st b s)  :
    Keeps st b (State.ntsApply s) := by
  unfold State.ntsApply
  repeat' first
    | with_reducible assumption
    | with_reducible exact Keeps.refl _ _
    | with_reducible apply Keeps.ite
    | (fail_if_no_progress with_reducible apply Keeps.upd)
    | with_reducible apply State.applyShadows_keeps
    | (fail_if_no_progress dsimp only)

end Sys2Proof.Machine
end

