-- ==== Sys2Proof/Laws/KBuild.lean ====
section
/-! SUPPORT. What the operations of Machine/Build.lean keep. -/

set_option linter.unusedTactic false
set_option linter.unreachableTactic false

namespace Sys2Proof.Machine

theorem State.maxFld_keeps {st : Bool} {b s : State} (h : Keeps st b s) (f : Fld) (v : Nat) :
    Keeps st b (State.maxFld s f v) := by
  unfold State.maxFld
  repeat' first
    | with_reducible assumption
    | with_reducible exact Keeps.refl _ _
    | with_reducible apply Keeps.ite
    | (fail_if_no_progress with_reducible apply Keeps.upd)
    | with_reducible apply State.wr_keeps
    | split
    | (fail_if_no_progress dsimp only)

theorem State.issueSlot_keeps {st : Bool} {b s : State} (h : Keeps st b s) (j : Job) :
    Keeps st b (State.issueSlot s j).1 := by
  unfold State.issueSlot
  repeat' first
    | with_reducible assumption
    | with_reducible exact Keeps.refl _ _
    | with_reducible apply Keeps.ite
    | (fail_if_no_progress with_reducible apply Keeps.upd)
    | with_reducible apply State.slotIssued_keeps
    | (fail_if_no_progress dsimp only)

theorem State.askSlot_keeps {st : Bool} {b s : State} (h : Keeps st b s) (j : Job) :
    Keeps st b (State.askSlot s j) := by
  unfold State.askSlot
  repeat' first
    | with_reducible assumption
    | with_reducible exact Keeps.refl _ _
    | with_reducible apply Keeps.ite
    | (fail_if_no_progress with_reducible apply Keeps.upd)
    | with_reducible apply State.maxFld_keeps
    | with_reducible apply State.putJob_keeps
    | with_reducible apply State.pump_keeps
    | (extract_lets +onlyGivenNames x; refine Keeps.cut (st := st) (b := b) x ?_ ?_; rotate_left; (clear_value x; intro hx); rotate_left; subst x)
    | (extract_lets +onlyGivenNames x; refine Keeps.cut (st := st) (b := b) x.1 ?_ ?_; rotate_left; (clear_value x; intro hx); rotate_left; subst x)
    | (extract_lets +onlyGivenNames x; refine Keeps.cut (st := st) (b := b) x.2 ?_ ?_; rotate_left; (clear_value x; intro hx); rotate_left; subst x)
    | (extract_lets +onlyGivenNames x; clear_value x)
    | (extract_lets +onlyGivenNames x)
    | split
    | (fail_if_no_progress dsimp only)

theorem State.askReply_keeps {st : Bool} {b s : State} (h : Keeps st b s) (j : Job) :
    Keeps st b (State.askReply s j) := by
  unfold State.askReply
  repeat' first
    | with_reducible assumption
    | with_reducible exact Keeps.refl _ _
    | with_reducible apply Keeps.ite
    | (fail_if_no_progress with_reducible apply Keeps.upd)
    | with_reducible apply State.askSlot_keeps
    | (fail_if_no_progress dsimp only)

theorem State.busWrite_keeps {st : Bool} {b s : State} (h : Keeps st b s) (m : Nat) (tgt : Nat) (a : Nat) (f : State → State) (h_f : ∀ u, Keeps st b u → Keeps st b (f u)) :
    Keeps st b (State.busWrite s m tgt a f) := by
  unfold State.busWrite
  repeat' first
    | with_reducible assumption
    | with_reducible exact Keeps.refl _ _
    | with_reducible apply Keeps.ite
    | (fail_if_no_progress with_reducible apply Keeps.upd)
    | with_reducible apply State.deny_keeps
    | with_reducible apply h_f
    | split
    | (refine OKeeps.of_some (by assumption) ?_)
    | (with_reducible refine Keeps.of_pair (by assumption) ?_)
    | (with_reducible refine Keeps.of_pair2 (by assumption) ?_)
    | (fail_if_no_progress dsimp only)

end Sys2Proof.Machine
end

