-- ==== Sys2Proof/Laws/KRsp.lean ====
section
/-! SUPPORT. What the operations of Machine/Rsp.lean keep. -/

set_option linter.unusedTactic false
set_option linter.unreachableTactic false

namespace Sys2Proof.Machine

/-- What a stage of the fast path keeps where it is done. -/
def Stage4.Keeps (st : Bool) (b : State) : Stage4 → Prop
  | .done s => Sys2Proof.Machine.Keeps st b s
  | _ => True

theorem Stage4.Keeps.done {st : Bool} {b s : State} (h : Sys2Proof.Machine.Keeps st b s) : Stage4.Keeps st b (.done s) := h

theorem Stage4.Keeps.sideFull (st : Bool) (b : State) : Stage4.Keeps st b .sideFull := True.intro

theorem Stage4.Keeps.stall (st : Bool) (b : State) : Stage4.Keeps st b .stall := True.intro

theorem Stage4.Keeps.of_done {st : Bool} {b t : State} {x : Stage4} (e : x = .done t) (h : Stage4.Keeps st b x) :
    Sys2Proof.Machine.Keeps st b t := by
  rw [e] at h
  exact h

theorem State.countRule_keeps {st : Bool} {b s : State} (h : Keeps st b s) (i : Nat) :
    Keeps st b (State.countRule s i) := by
  unfold State.countRule
  repeat' first
    | with_reducible assumption
    | with_reducible exact Keeps.refl _ _
    | with_reducible apply Keeps.ite
    | (fail_if_no_progress with_reducible apply Keeps.upd)
    | (intro u a hu; beta_reduce)
    | (intro u hu; beta_reduce)
    | (extract_lets +onlyGivenNames x; refine Keeps.cut (st := st) (b := b) x ?_ ?_; rotate_left; (clear_value x; intro hx); rotate_left; subst x)
    | (extract_lets +onlyGivenNames x; refine Keeps.cut (st := st) (b := b) x.1 ?_ ?_; rotate_left; (clear_value x; intro hx); rotate_left; subst x)
    | (extract_lets +onlyGivenNames x; refine Keeps.cut (st := st) (b := b) x.2 ?_ ?_; rotate_left; (clear_value x; intro hx); rotate_left; subst x)
    | (extract_lets +onlyGivenNames x; clear_value x)
    | (extract_lets +onlyGivenNames x)
    | split
    | (fail_if_no_progress dsimp only)

theorem State.setBucket_keeps {st : Bool} {b s : State} (h : Keeps st b s) (q : Nat) (i : Nat) (x_b : Bucket) :
    Keeps st b (State.setBucket s q i x_b) := by
  unfold State.setBucket
  repeat' first
    | with_reducible assumption
    | with_reducible exact Keeps.refl _ _
    | with_reducible apply Keeps.ite
    | (fail_if_no_progress with_reducible apply Keeps.upd)
    | (fail_if_no_progress dsimp only)

theorem State.charge_keeps {st : Bool} {b s : State} (h : Keeps st b s) (q : Nat) (x_b : Nat) (c : Nat) (k : View) (mac : List Byte) :
    Keeps st b (State.charge s q x_b c k mac).1 := by
  unfold State.charge
  repeat' first
    | with_reducible assumption
    | with_reducible exact Keeps.refl _ _
    | with_reducible apply Keeps.ite
    | (fail_if_no_progress with_reducible apply Keeps.upd)
    | with_reducible apply State.setBucket_keeps
    | with_reducible apply State.bump_keeps
    | with_reducible apply State.sticky_keeps
    | with_reducible apply State.count_keeps
    | (intro u a hu; beta_reduce)
    | (intro u hu; beta_reduce)
    | (extract_lets +onlyGivenNames x; refine Keeps.cut (st := st) (b := b) x ?_ ?_; rotate_left; (clear_value x; intro hx); rotate_left; subst x)
    | (extract_lets +onlyGivenNames x; refine Keeps.cut (st := st) (b := b) x.1 ?_ ?_; rotate_left; (clear_value x; intro hx); rotate_left; subst x)
    | (extract_lets +onlyGivenNames x; refine Keeps.cut (st := st) (b := b) x.2 ?_ ?_; rotate_left; (clear_value x; intro hx); rotate_left; subst x)
    | (extract_lets +onlyGivenNames x; clear_value x)
    | (extract_lets +onlyGivenNames x)
    | split
    | (fail_if_no_progress dsimp only)

theorem State.retireSlot_keeps {st : Bool} {b s : State} (h : Keeps st b s) (j : Job) :
    Keeps st b (State.retireSlot s j).1 := by
  unfold State.retireSlot
  repeat' first
    | with_reducible assumption
    | with_reducible exact Keeps.refl _ _
    | with_reducible apply Keeps.ite
    | (fail_if_no_progress with_reducible apply Keeps.upd)
    | with_reducible apply State.slotRetired_keeps
    | split
    | (fail_if_no_progress dsimp only)

theorem State.enterSlow_keeps {st : Bool} {b s : State} (h : Keeps st b s) (j : Job) (cause : Nat) :
    Stage4.Keeps st b (State.enterSlow s j cause) := by
  unfold State.enterSlow
  repeat' first
    | with_reducible assumption
    | with_reducible exact Keeps.refl _ _
    | with_reducible apply Keeps.ite
    | (fail_if_no_progress with_reducible apply Keeps.upd)
    | with_reducible apply State.sumpJob_keeps
    | with_reducible apply State.retireSlot_keeps
    | with_reducible apply State.putJob_keeps
    | with_reducible apply State.pump_keeps
    | (extract_lets +onlyGivenNames x; refine Keeps.cut (st := st) (b := b) x ?_ ?_; rotate_left; (clear_value x; intro hx); rotate_left; subst x)
    | (extract_lets +onlyGivenNames x; refine Keeps.cut (st := st) (b := b) x.1 ?_ ?_; rotate_left; (clear_value x; intro hx); rotate_left; subst x)
    | (extract_lets +onlyGivenNames x; refine Keeps.cut (st := st) (b := b) x.2 ?_ ?_; rotate_left; (clear_value x; intro hx); rotate_left; subst x)
    | (extract_lets +onlyGivenNames x; clear_value x)
    | (extract_lets +onlyGivenNames x)
    | split
    | with_reducible apply Stage4.Keeps.done
    | with_reducible apply OKeeps.some
    | with_reducible apply OKeeps.none
    | with_reducible apply Stage4.Keeps.sideFull
    | with_reducible apply Stage4.Keeps.stall
    | (fail_if_no_progress dsimp only)

theorem State.enterSeq_keeps {st : Bool} {b s : State} (h : Keeps st b s) (j : Job) :
    Stage4.Keeps st b (State.enterSeq s j) := by
  unfold State.enterSeq
  repeat' first
    | with_reducible assumption
    | with_reducible exact Keeps.refl _ _
    | with_reducible apply Keeps.ite
    | (fail_if_no_progress with_reducible apply Keeps.upd)
    | with_reducible apply State.retireSlot_keeps
    | with_reducible apply State.bump48_keeps
    | with_reducible apply State.count_keeps
    | with_reducible apply State.putJob_keeps
    | with_reducible apply State.pump_keeps
    | (extract_lets +onlyGivenNames x; refine Keeps.cut (st := st) (b := b) x ?_ ?_; rotate_left; (clear_value x; intro hx); rotate_left; subst x)
    | (extract_lets +onlyGivenNames x; refine Keeps.cut (st := st) (b := b) x.1 ?_ ?_; rotate_left; (clear_value x; intro hx); rotate_left; subst x)
    | (extract_lets +onlyGivenNames x; refine Keeps.cut (st := st) (b := b) x.2 ?_ ?_; rotate_left; (clear_value x; intro hx); rotate_left; subst x)
    | (extract_lets +onlyGivenNames x; clear_value x)
    | (extract_lets +onlyGivenNames x)
    | split
    | with_reducible apply Stage4.Keeps.done
    | with_reducible apply OKeeps.some
    | with_reducible apply OKeeps.none
    | with_reducible apply Stage4.Keeps.sideFull
    | with_reducible apply Stage4.Keeps.stall
    | (fail_if_no_progress dsimp only)

theorem State.replyFrame_keeps {st : Bool} {b s : State} (h : Keeps st b s) (j : Job) (k : Pkt) :
    Keeps st b (State.replyFrame s j k).1 := by
  unfold State.replyFrame
  repeat' first
    | with_reducible assumption
    | with_reducible exact Keeps.refl _ _
    | with_reducible apply Keeps.ite
    | (fail_if_no_progress with_reducible apply Keeps.upd)
    | with_reducible apply State.ntsTail_keeps
    | (extract_lets +onlyGivenNames x; refine Keeps.cut (st := st) (b := b) x ?_ ?_; rotate_left; (clear_value x; intro hx); rotate_left; subst x)
    | (extract_lets +onlyGivenNames x; refine Keeps.cut (st := st) (b := b) x.1 ?_ ?_; rotate_left; (clear_value x; intro hx); rotate_left; subst x)
    | (extract_lets +onlyGivenNames x; refine Keeps.cut (st := st) (b := b) x.2 ?_ ?_; rotate_left; (clear_value x; intro hx); rotate_left; subst x)
    | (extract_lets +onlyGivenNames x; clear_value x)
    | (extract_lets +onlyGivenNames x)
    | split
    | (refine OKeeps.of_some (by assumption) ?_)
    | (refine Stage4.Keeps.of_done (by assumption) ?_)
    | (with_reducible refine Keeps.of_pair (by assumption) ?_)
    | (with_reducible refine Keeps.of_pair2 (by assumption) ?_)
    | (fail_if_no_progress dsimp only)

theorem State.build_keeps {st : Bool} {b s : State} (h : Keeps st b s) (j : Job) :
    Keeps st b (State.build s j).1 := by
  unfold State.build
  repeat' first
    | with_reducible assumption
    | with_reducible exact Keeps.refl _ _
    | with_reducible apply Keeps.ite
    | (fail_if_no_progress with_reducible apply Keeps.upd)
    | with_reducible apply State.replyFrame_keeps
    | (intro u a hu; beta_reduce)
    | (intro u hu; beta_reduce)
    | (extract_lets +onlyGivenNames x; refine Keeps.cut (st := st) (b := b) x ?_ ?_; rotate_left; (clear_value x; intro hx); rotate_left; subst x)
    | (extract_lets +onlyGivenNames x; refine Keeps.cut (st := st) (b := b) x.1 ?_ ?_; rotate_left; (clear_value x; intro hx); rotate_left; subst x)
    | (extract_lets +onlyGivenNames x; refine Keeps.cut (st := st) (b := b) x.2 ?_ ?_; rotate_left; (clear_value x; intro hx); rotate_left; subst x)
    | (extract_lets +onlyGivenNames x; clear_value x)
    | (extract_lets +onlyGivenNames x)
    | split
    | (refine OKeeps.of_some (by assumption) ?_)
    | (refine Stage4.Keeps.of_done (by assumption) ?_)
    | (with_reducible refine Keeps.of_pair (by assumption) ?_)
    | (with_reducible refine Keeps.of_pair2 (by assumption) ?_)
    | (fail_if_no_progress dsimp only)

theorem State.buildReply_keeps {st : Bool} {b s : State} (h : Keeps st b s) (j : Job) (w : What) (kod : Bool) (x : Option NtsCtx) :
    Keeps st b (State.buildReply s j w kod x) := by
  unfold State.buildReply
  repeat' first
    | with_reducible assumption
    | with_reducible exact Keeps.refl _ _
    | with_reducible apply Keeps.ite
    | (fail_if_no_progress with_reducible apply Keeps.upd)
    | with_reducible apply State.build_keeps
    | with_reducible apply State.askReply_keeps
    | (extract_lets +onlyGivenNames x; refine Keeps.cut (st := st) (b := b) x ?_ ?_; rotate_left; (clear_value x; intro hx); rotate_left; subst x)
    | (extract_lets +onlyGivenNames x; refine Keeps.cut (st := st) (b := b) x.1 ?_ ?_; rotate_left; (clear_value x; intro hx); rotate_left; subst x)
    | (extract_lets +onlyGivenNames x; refine Keeps.cut (st := st) (b := b) x.2 ?_ ?_; rotate_left; (clear_value x; intro hx); rotate_left; subst x)
    | (extract_lets +onlyGivenNames x; clear_value x)
    | (extract_lets +onlyGivenNames x)
    | (fail_if_no_progress dsimp only)

theorem State.ntsServe_keeps {st : Bool} {b s : State} (h : Keeps st b s) (j : Job) (k : Pkt) (kod : Bool) :
    Stage4.Keeps st b (State.ntsServe s j k kod) := by
  unfold State.ntsServe
  repeat' first
    | with_reducible assumption
    | with_reducible exact Keeps.refl _ _
    | with_reducible apply Keeps.ite
    | (fail_if_no_progress with_reducible apply Keeps.upd)
    | with_reducible apply State.ntsRequest_keeps
    | with_reducible apply State.sump_keeps
    | with_reducible apply State.sumpJob_keeps
    | with_reducible apply State.enterSeq_keeps
    | with_reducible apply State.buildReply_keeps
    | (extract_lets +onlyGivenNames x; refine Keeps.cut (st := st) (b := b) x ?_ ?_; rotate_left; (clear_value x; intro hx); rotate_left; subst x)
    | (extract_lets +onlyGivenNames x; refine Keeps.cut (st := st) (b := b) x.1 ?_ ?_; rotate_left; (clear_value x; intro hx); rotate_left; subst x)
    | (extract_lets +onlyGivenNames x; refine Keeps.cut (st := st) (b := b) x.2 ?_ ?_; rotate_left; (clear_value x; intro hx); rotate_left; subst x)
    | (extract_lets +onlyGivenNames x; clear_value x)
    | (extract_lets +onlyGivenNames x)
    | split
    | with_reducible apply Stage4.Keeps.done
    | with_reducible apply OKeeps.some
    | with_reducible apply OKeeps.none
    | with_reducible apply Stage4.Keeps.sideFull
    | with_reducible apply Stage4.Keeps.stall
    | (refine OKeeps.of_some (by assumption) ?_)
    | (refine Stage4.Keeps.of_done (by assumption) ?_)
    | (with_reducible refine Keeps.of_pair (by assumption) ?_)
    | (with_reducible refine Keeps.of_pair2 (by assumption) ?_)
    | (fail_if_no_progress dsimp only)

theorem State.serveNtp_keeps {st : Bool} {b s : State} (h : Keeps st b s) (j : Job) (k : Pkt) :
    Stage4.Keeps st b (State.serveNtp s j k) := by
  unfold State.serveNtp
  repeat' first
    | with_reducible assumption
    | with_reducible exact Keeps.refl _ _
    | with_reducible apply Keeps.ite
    | (fail_if_no_progress with_reducible apply Keeps.upd)
    | with_reducible apply State.enterSeq_keeps
    | with_reducible apply State.buildReply_keeps
    | with_reducible apply State.ntsServe_keeps
    | (extract_lets +onlyGivenNames x; refine Keeps.cut (st := st) (b := b) x ?_ ?_; rotate_left; (clear_value x; intro hx); rotate_left; subst x)
    | (extract_lets +onlyGivenNames x; refine Keeps.cut (st := st) (b := b) x.1 ?_ ?_; rotate_left; (clear_value x; intro hx); rotate_left; subst x)
    | (extract_lets +onlyGivenNames x; refine Keeps.cut (st := st) (b := b) x.2 ?_ ?_; rotate_left; (clear_value x; intro hx); rotate_left; subst x)
    | (extract_lets +onlyGivenNames x; clear_value x)
    | (extract_lets +onlyGivenNames x)
    | split
    | with_reducible apply Stage4.Keeps.done
    | with_reducible apply OKeeps.some
    | with_reducible apply OKeeps.none
    | with_reducible apply Stage4.Keeps.sideFull
    | with_reducible apply Stage4.Keeps.stall
    | (fail_if_no_progress dsimp only)

theorem State.servePtp_keeps {st : Bool} {b s : State} (h : Keeps st b s) (j : Job) (k : Pkt) :
    Stage4.Keeps st b (State.servePtp s j k) := by
  unfold State.servePtp
  repeat' first
    | with_reducible assumption
    | with_reducible exact Keeps.refl _ _
    | with_reducible apply Keeps.ite
    | (fail_if_no_progress with_reducible apply Keeps.upd)
    | with_reducible apply State.ptpHandle_keeps
    | with_reducible apply State.sump_keeps
    | with_reducible apply State.sumpJob_keeps
    | with_reducible apply State.enterSeq_keeps
    | with_reducible apply State.enterSlow_keeps
    | with_reducible apply State.answerJob_keeps
    | with_reducible apply State.free_keeps
    | with_reducible apply State.buildReply_keeps
    | (extract_lets +onlyGivenNames x; refine Keeps.cut (st := st) (b := b) x ?_ ?_; rotate_left; (clear_value x; intro hx); rotate_left; subst x)
    | (extract_lets +onlyGivenNames x; refine Keeps.cut (st := st) (b := b) x.1 ?_ ?_; rotate_left; (clear_value x; intro hx); rotate_left; subst x)
    | (extract_lets +onlyGivenNames x; refine Keeps.cut (st := st) (b := b) x.2 ?_ ?_; rotate_left; (clear_value x; intro hx); rotate_left; subst x)
    | (extract_lets +onlyGivenNames x; clear_value x)
    | (extract_lets +onlyGivenNames x)
    | split
    | with_reducible apply Stage4.Keeps.done
    | with_reducible apply OKeeps.some
    | with_reducible apply OKeeps.none
    | with_reducible apply Stage4.Keeps.sideFull
    | with_reducible apply Stage4.Keeps.stall
    | (refine OKeeps.of_some (by assumption) ?_)
    | (refine Stage4.Keeps.of_done (by assumption) ?_)
    | (with_reducible refine Keeps.of_pair (by assumption) ?_)
    | (with_reducible refine Keeps.of_pair2 (by assumption) ?_)
    | (fail_if_no_progress dsimp only)

theorem State.emptyBucket_keeps {st : Bool} {b s : State} (h : Keeps st b s) (j : Job) (c : Nat) :
    Stage4.Keeps st b (State.emptyBucket s j c) := by
  unfold State.emptyBucket
  repeat' first
    | with_reducible assumption
    | with_reducible exact Keeps.refl _ _
    | with_reducible apply Keeps.ite
    | (fail_if_no_progress with_reducible apply Keeps.upd)
    | with_reducible apply State.issueSlot_keeps
    | with_reducible apply State.enterSlow_keeps
    | with_reducible apply State.sumpJob_keeps
    | with_reducible apply State.ntsServe_keeps
    | with_reducible apply State.buildReply_keeps
    | (extract_lets +onlyGivenNames x; refine Keeps.cut (st := st) (b := b) x ?_ ?_; rotate_left; (clear_value x; intro hx); rotate_left; subst x)
    | (extract_lets +onlyGivenNames x; refine Keeps.cut (st := st) (b := b) x.1 ?_ ?_; rotate_left; (clear_value x; intro hx); rotate_left; subst x)
    | (extract_lets +onlyGivenNames x; refine Keeps.cut (st := st) (b := b) x.2 ?_ ?_; rotate_left; (clear_value x; intro hx); rotate_left; subst x)
    | (extract_lets +onlyGivenNames x; clear_value x)
    | (extract_lets +onlyGivenNames x)
    | split
    | with_reducible apply Stage4.Keeps.done
    | with_reducible apply OKeeps.some
    | with_reducible apply OKeeps.none
    | with_reducible apply Stage4.Keeps.sideFull
    | with_reducible apply Stage4.Keeps.stall
    | (refine OKeeps.of_some (by assumption) ?_)
    | (refine Stage4.Keeps.of_done (by assumption) ?_)
    | (with_reducible refine Keeps.of_pair (by assumption) ?_)
    | (with_reducible refine Keeps.of_pair2 (by assumption) ?_)
    | (fail_if_no_progress dsimp only)

theorem State.limitAndServe_keeps {st : Bool} {b s : State} (h : Keeps st b s) (j : Job) (decline : Bool) :
    Stage4.Keeps st b (State.limitAndServe s j decline) := by
  unfold State.limitAndServe
  repeat' first
    | with_reducible assumption
    | with_reducible exact Keeps.refl _ _
    | with_reducible apply Keeps.ite
    | (fail_if_no_progress with_reducible apply Keeps.upd)
    | with_reducible apply State.charge_keeps
    | with_reducible apply State.emptyBucket_keeps
    | with_reducible apply State.issueSlot_keeps
    | with_reducible apply State.servePtp_keeps
    | with_reducible apply State.enterSeq_keeps
    | with_reducible apply State.serveNtp_keeps
    | (extract_lets +onlyGivenNames x; refine Keeps.cut (st := st) (b := b) x ?_ ?_; rotate_left; (clear_value x; intro hx); rotate_left; subst x)
    | (extract_lets +onlyGivenNames x; refine Keeps.cut (st := st) (b := b) x.1 ?_ ?_; rotate_left; (clear_value x; intro hx); rotate_left; subst x)
    | (extract_lets +onlyGivenNames x; refine Keeps.cut (st := st) (b := b) x.2 ?_ ?_; rotate_left; (clear_value x; intro hx); rotate_left; subst x)
    | (extract_lets +onlyGivenNames x; clear_value x)
    | (extract_lets +onlyGivenNames x)
    | split
    | with_reducible apply Stage4.Keeps.done
    | with_reducible apply OKeeps.some
    | with_reducible apply OKeeps.none
    | with_reducible apply Stage4.Keeps.sideFull
    | with_reducible apply Stage4.Keeps.stall
    | (refine OKeeps.of_some (by assumption) ?_)
    | (refine Stage4.Keeps.of_done (by assumption) ?_)
    | (with_reducible refine Keeps.of_pair (by assumption) ?_)
    | (with_reducible refine Keeps.of_pair2 (by assumption) ?_)
    | (fail_if_no_progress dsimp only)

theorem State.arrive_keeps {st : Bool} {b s : State} (h : Keeps st b s) (j0 : Job) :
    Stage4.Keeps st b (State.arrive s j0) := by
  unfold State.arrive
  repeat' first
    | with_reducible assumption
    | with_reducible exact Keeps.refl _ _
    | with_reducible apply Keeps.ite
    | (fail_if_no_progress with_reducible apply Keeps.upd)
    | with_reducible apply State.qTake_keeps
    | with_reducible apply State.sumpJob_keeps
    | with_reducible apply State.poisonSeen_keeps
    | with_reducible apply State.countRule_keeps
    | with_reducible apply State.issueSlot_keeps
    | with_reducible apply State.enterSlow_keeps
    | with_reducible apply State.limitAndServe_keeps
    | (extract_lets +onlyGivenNames x; refine Keeps.cut (st := st) (b := b) x ?_ ?_; rotate_left; (clear_value x; intro hx); rotate_left; subst x)
    | (extract_lets +onlyGivenNames x; refine Keeps.cut (st := st) (b := b) x.1 ?_ ?_; rotate_left; (clear_value x; intro hx); rotate_left; subst x)
    | (extract_lets +onlyGivenNames x; refine Keeps.cut (st := st) (b := b) x.2 ?_ ?_; rotate_left; (clear_value x; intro hx); rotate_left; subst x)
    | (extract_lets +onlyGivenNames x; clear_value x)
    | (extract_lets +onlyGivenNames x)
    | split
    | with_reducible apply Stage4.Keeps.done
    | with_reducible apply OKeeps.some
    | with_reducible apply OKeeps.none
    | with_reducible apply Stage4.Keeps.sideFull
    | with_reducible apply Stage4.Keeps.stall
    | (refine OKeeps.of_some (by assumption) ?_)
    | (refine Stage4.Keeps.of_done (by assumption) ?_)
    | (with_reducible refine Keeps.of_pair (by assumption) ?_)
    | (with_reducible refine Keeps.of_pair2 (by assumption) ?_)
    | (fail_if_no_progress dsimp only)

theorem State.expireJob_keeps {st : Bool} {b s : State} (h : Keeps st b s) (j : Job) :
    Keeps st b (State.expireJob s j) := by
  unfold State.expireJob
  repeat' first
    | with_reducible assumption
    | with_reducible exact Keeps.refl _ _
    | with_reducible apply Keeps.ite
    | (fail_if_no_progress with_reducible apply Keeps.upd)
    | with_reducible apply State.sumpJob_keeps
    | with_reducible apply State.bump_keeps
    | with_reducible apply State.sticky_keeps
    | (extract_lets +onlyGivenNames x; refine Keeps.cut (st := st) (b := b) x ?_ ?_; rotate_left; (clear_value x; intro hx); rotate_left; subst x)
    | (extract_lets +onlyGivenNames x; refine Keeps.cut (st := st) (b := b) x.1 ?_ ?_; rotate_left; (clear_value x; intro hx); rotate_left; subst x)
    | (extract_lets +onlyGivenNames x; refine Keeps.cut (st := st) (b := b) x.2 ?_ ?_; rotate_left; (clear_value x; intro hx); rotate_left; subst x)
    | (extract_lets +onlyGivenNames x; clear_value x)
    | (extract_lets +onlyGivenNames x)
    | split
    | (fail_if_no_progress dsimp only)

theorem State.seqFaultJobs_keeps {st : Bool} {b s : State} (h : Keeps st b s) (n : Nat) :
    Keeps st b (State.seqFaultJobs s n) := by
  unfold State.seqFaultJobs
  repeat' first
    | with_reducible assumption
    | with_reducible exact Keeps.refl _ _
    | with_reducible apply Keeps.ite
    | (fail_if_no_progress with_reducible apply Keeps.upd)
    | with_reducible apply State.sumpJob_keeps
    | with_reducible apply State.sticky_keeps
    | split
    | (refine OKeeps.of_some (by assumption) ?_)
    | (refine Stage4.Keeps.of_done (by assumption) ?_)
    | (with_reducible refine Keeps.of_pair (by assumption) ?_)
    | (with_reducible refine Keeps.of_pair2 (by assumption) ?_)
    | (fail_if_no_progress dsimp only)

theorem State.setFenced_keeps {st : Bool} {b s : State} (h : Keeps st b s) (q : Nat) (x_b : Bool) :
    Keeps st b (State.setFenced s q x_b) := by
  unfold State.setFenced
  repeat' first
    | with_reducible assumption
    | with_reducible exact Keeps.refl _ _
    | with_reducible apply Keeps.ite
    | (fail_if_no_progress with_reducible apply Keeps.upd)
    | with_reducible apply State.wrB_keeps
    | (fail_if_no_progress dsimp only)

theorem State.rspApply_keeps {st : Bool} {b s : State} (h : Keeps st b s)  :
    Keeps st b (State.rspApply s) := by
  unfold State.rspApply
  repeat' first
    | with_reducible assumption
    | with_reducible exact Keeps.refl _ _
    | with_reducible apply Keeps.ite
    | (fail_if_no_progress with_reducible apply Keeps.upd)
    | (fail_if_no_progress with_reducible apply Keeps.upd_filter)
    | (fail_if_no_progress with_reducible apply Keeps.upd_filter_all)
    | with_reducible apply State.applyShadows_keeps
    | with_reducible apply State.wr_keeps
    | (intro u a hu; beta_reduce)
    | (intro u hu; beta_reduce)
    | (extract_lets +onlyGivenNames x; refine Keeps.cut (st := st) (b := b) x ?_ ?_; rotate_left; (clear_value x; intro hx); rotate_left; subst x)
    | (extract_lets +onlyGivenNames x; refine Keeps.cut (st := st) (b := b) x.1 ?_ ?_; rotate_left; (clear_value x; intro hx); rotate_left; subst x)
    | (extract_lets +onlyGivenNames x; refine Keeps.cut (st := st) (b := b) x.2 ?_ ?_; rotate_left; (clear_value x; intro hx); rotate_left; subst x)
    | (extract_lets +onlyGivenNames x; clear_value x)
    | (extract_lets +onlyGivenNames x)
    | split
    | (fail_if_no_progress dsimp only)

end Sys2Proof.Machine
end

