-- ==== Sys2Proof/Laws/KSteps.lean ====
section
/-! SUPPORT. What the operations of Machine/Steps.lean keep. -/

set_option linter.unusedTactic false
set_option linter.unreachableTactic false

namespace Sys2Proof.Machine

theorem State.stepEffects_keeps {st : Bool} {b s : State} (h : Keeps st b s) (old : State) (n : Nat) :
    Keeps st b (State.stepEffects s old n) := by
  unfold State.stepEffects
  repeat' first
    | with_reducible assumption
    | with_reducible exact Keeps.refl _ _
    | with_reducible apply Keeps.ite
    | (fail_if_no_progress with_reducible apply Keeps.upd)
    | with_reducible apply State.alignLost_keeps
    | with_reducible apply State.bumpF_keeps
    | with_reducible apply State.vidStepped_keeps
    | with_reducible apply State.pulsesStepped_keeps
    | with_reducible apply State.calStepped_keeps
    | (extract_lets +onlyGivenNames x; refine Keeps.cut (st := st) (b := b) x ?_ ?_; rotate_left; (clear_value x; intro hx); rotate_left; subst x)
    | (extract_lets +onlyGivenNames x; refine Keeps.cut (st := st) (b := b) x.1 ?_ ?_; rotate_left; (clear_value x; intro hx); rotate_left; subst x)
    | (extract_lets +onlyGivenNames x; refine Keeps.cut (st := st) (b := b) x.2 ?_ ?_; rotate_left; (clear_value x; intro hx); rotate_left; subst x)
    | (extract_lets +onlyGivenNames x; clear_value x)
    | (extract_lets +onlyGivenNames x)
    | split
    | (fail_if_no_progress dsimp only)

theorem State.settled_keeps {st : Bool} {b s : State} (h : Keeps st b s) (old : State) :
    Keeps st b (State.settled s old) := by
  unfold State.settled
  repeat' first
    | with_reducible assumption
    | with_reducible exact Keeps.refl _ _
    | with_reducible apply Keeps.ite
    | (fail_if_no_progress with_reducible apply Keeps.upd)
    | with_reducible apply State.stepEffects_keeps
    | with_reducible apply State.settleMute_keeps
    | split
    | (fail_if_no_progress dsimp only)

end Sys2Proof.Machine
end

