-- ==== Sys2Proof/Laws/KTwn.lean ====
section
/-! SUPPORT. What the operations of Machine/Twn.lean keep. -/

set_option linter.unusedTactic false
set_option linter.unreachableTactic false

namespace Sys2Proof.Machine

theorem State.setTwn_keeps {st : Bool} {b s : State} (h : Keeps st b s) (f : TwnS → TwnS) :
    Keeps st b (State.setTwn s f) := by
  unfold State.setTwn
  repeat' first
    | with_reducible assumption
    | with_reducible exact Keeps.refl _ _
    | with_reducible apply Keeps.ite
    | (fail_if_no_progress with_reducible apply Keeps.upd)
    | (fail_if_no_progress dsimp only)

theorem State.peerMode_keeps {st : Bool} {b s : State} (h : Keeps st b s) (m : Nat) :
    Keeps st b (State.peerMode s m) := by
  unfold State.peerMode
  repeat' first
    | with_reducible assumption
    | with_reducible exact Keeps.refl _ _
    | with_reducible apply Keeps.ite
    | (fail_if_no_progress with_reducible apply Keeps.upd)
    | with_reducible apply State.wr_keeps
    | with_reducible apply State.sticky_keeps
    | (extract_lets +onlyGivenNames x; refine Keeps.cut (st := st) (b := b) x ?_ ?_; rotate_left; (clear_value x; intro hx); rotate_left; subst x)
    | (extract_lets +onlyGivenNames x; refine Keeps.cut (st := st) (b := b) x.1 ?_ ?_; rotate_left; (clear_value x; intro hx); rotate_left; subst x)
    | (extract_lets +onlyGivenNames x; refine Keeps.cut (st := st) (b := b) x.2 ?_ ?_; rotate_left; (clear_value x; intro hx); rotate_left; subst x)
    | (extract_lets +onlyGivenNames x; clear_value x)
    | (extract_lets +onlyGivenNames x)
    | split
    | (fail_if_no_progress dsimp only)

theorem State.pair_keeps {st : Bool} {b s : State} (h : Keeps st b s) (p : Peer) :
    Keeps st b (State.pair s p) := by
  unfold State.pair
  repeat' first
    | with_reducible assumption
    | with_reducible exact Keeps.refl _ _
    | with_reducible apply Keeps.ite
    | (fail_if_no_progress with_reducible apply Keeps.upd)
    | with_reducible apply State.sticky_keeps
    | with_reducible apply State.wr_keeps
    | with_reducible apply State.setN_keeps
    | with_reducible apply State.peerMode_keeps
    | (extract_lets +onlyGivenNames x; refine Keeps.cut (st := st) (b := b) x ?_ ?_; rotate_left; (clear_value x; intro hx); rotate_left; subst x)
    | (extract_lets +onlyGivenNames x; refine Keeps.cut (st := st) (b := b) x.1 ?_ ?_; rotate_left; (clear_value x; intro hx); rotate_left; subst x)
    | (extract_lets +onlyGivenNames x; refine Keeps.cut (st := st) (b := b) x.2 ?_ ?_; rotate_left; (clear_value x; intro hx); rotate_left; subst x)
    | (extract_lets +onlyGivenNames x; clear_value x)
    | (extract_lets +onlyGivenNames x)
    | split
    | (fail_if_no_progress dsimp only)

theorem State.mirrorCommit_keeps {st : Bool} {b s : State} (h : Keeps st b s) (x_b : Blk) (words : List (Nat × Nat)) :
    OKeeps st b (State.mirrorCommit s x_b words) := by
  unfold State.mirrorCommit
  repeat' first
    | with_reducible assumption
    | with_reducible apply OKeeps.ite
    | with_reducible exact Keeps.refl _ _
    | with_reducible apply Keeps.ite
    | (fail_if_no_progress with_reducible apply Keeps.upd)
    | with_reducible apply State.setShadow_keeps
    | with_reducible apply State.dropShadows_keeps
    | with_reducible apply State.wr_keeps
    | with_reducible apply State.groupTake_keeps
    | (with_reducible refine Keeps.foldl ?_ ?_)
    | (with_reducible refine Keeps.foldl_fst ?_ ?_)
    | (intro u a hu; beta_reduce)
    | (intro u hu; beta_reduce)
    | (extract_lets +onlyGivenNames x; refine Keeps.cut (st := st) (b := b) x ?_ ?_; rotate_left; (clear_value x; intro hx); rotate_left; subst x)
    | (extract_lets +onlyGivenNames x; refine Keeps.cut (st := st) (b := b) x.1 ?_ ?_; rotate_left; (clear_value x; intro hx); rotate_left; subst x)
    | (extract_lets +onlyGivenNames x; refine Keeps.cut (st := st) (b := b) x.2 ?_ ?_; rotate_left; (clear_value x; intro hx); rotate_left; subst x)
    | (extract_lets +onlyGivenNames x; clear_value x)
    | (extract_lets +onlyGivenNames x)
    | split
    | with_reducible apply Stage4.Keeps.done
    | with_reducible apply OKeeps.some
    | with_reducible apply OPKeeps.some
    | with_reducible apply OKeeps.none
    | with_reducible apply OPKeeps.none
    | with_reducible apply Stage4.Keeps.sideFull
    | with_reducible apply Stage4.Keeps.stall
    | (fail_if_no_progress dsimp only)

theorem State.mirrorKey_keeps {st : Bool} {b s : State} (h : Keeps st b s) (k : MirrorKey) :
    OKeeps st b (State.mirrorKey s k) := by
  unfold State.mirrorKey
  repeat' first
    | with_reducible assumption
    | with_reducible apply OKeeps.ite
    | with_reducible exact Keeps.refl _ _
    | with_reducible apply Keeps.ite
    | (fail_if_no_progress with_reducible apply Keeps.upd)
    | with_reducible apply State.dropKey_keeps
    | with_reducible apply State.setKey_keeps
    | with_reducible apply State.bump_keeps
    | (with_reducible refine Keeps.foldl ?_ ?_)
    | (with_reducible refine Keeps.foldl_fst ?_ ?_)
    | (intro u a hu; beta_reduce)
    | (intro u hu; beta_reduce)
    | (extract_lets +onlyGivenNames x; refine Keeps.cut (st := st) (b := b) x ?_ ?_; rotate_left; (clear_value x; intro hx); rotate_left; subst x)
    | (extract_lets +onlyGivenNames x; refine Keeps.cut (st := st) (b := b) x.1 ?_ ?_; rotate_left; (clear_value x; intro hx); rotate_left; subst x)
    | (extract_lets +onlyGivenNames x; refine Keeps.cut (st := st) (b := b) x.2 ?_ ?_; rotate_left; (clear_value x; intro hx); rotate_left; subst x)
    | (extract_lets +onlyGivenNames x; clear_value x)
    | (extract_lets +onlyGivenNames x)
    | split
    | with_reducible apply Stage4.Keeps.done
    | with_reducible apply OKeeps.some
    | with_reducible apply OPKeeps.some
    | with_reducible apply OKeeps.none
    | with_reducible apply OPKeeps.none
    | with_reducible apply Stage4.Keeps.sideFull
    | with_reducible apply Stage4.Keeps.stall
    | (refine OKeeps.of_some (by assumption) ?_)
    | (refine OPKeeps.of_some (by assumption) ?_)
    | (refine Stage4.Keeps.of_done (by assumption) ?_)
    | (with_reducible refine Keeps.of_pair (by assumption) ?_)
    | (with_reducible refine Keeps.of_pair2 (by assumption) ?_)
    | (fail_if_no_progress dsimp only)

theorem State.mirrorKeys_keeps {st : Bool} {b s : State} (h : Keeps st b s) (ks : List MirrorKey) :
    OKeeps st b (State.mirrorKeys s ks) := by
  unfold State.mirrorKeys
  suffices g : ∀ a : Option State, OKeeps st b a → OKeeps st b (ks.foldl (fun a k => match a with
      | some t => t.mirrorKey k
      | none => none) a) from g _ h
  induction ks with
  | nil => exact fun a g => g
  | cons k r ih =>
    intro a g
    cases a with
    | none => exact ih _ True.intro
    | some t => exact ih _ (State.mirrorKey_keeps g k)

theorem State.mirrorApply_keeps {st : Bool} {b s : State} (h : Keeps st b s) (i : MirrorItem) :
    OKeeps st b (State.mirrorApply s i) := by
  unfold State.mirrorApply
  repeat' first
    | with_reducible assumption
    | with_reducible apply OKeeps.ite
    | with_reducible exact Keeps.refl _ _
    | with_reducible apply Keeps.ite
    | (fail_if_no_progress with_reducible apply Keeps.upd)
    | with_reducible apply State.mirrorCommit_keeps
    | with_reducible apply State.history_keeps
    | with_reducible apply State.setDsc_keeps
    | with_reducible apply State.setGrant_keeps
    | with_reducible apply State.showGrants_keeps
    | with_reducible apply State.setBucket_keeps
    | with_reducible apply State.mirrorKeys_keeps
    | with_reducible apply State.wr_keeps
    | with_reducible apply State.wrB_keeps
    | with_reducible apply State.mirrorKey_keeps
    | (with_reducible refine Keeps.foldl ?_ ?_)
    | (with_reducible refine Keeps.foldl_fst ?_ ?_)
    | (intro u a hu; beta_reduce)
    | (intro u hu; beta_reduce)
    | (extract_lets +onlyGivenNames x; refine Keeps.cut (st := st) (b := b) x ?_ ?_; rotate_left; (clear_value x; intro hx); rotate_left; subst x)
    | (extract_lets +onlyGivenNames x; refine Keeps.cut (st := st) (b := b) x.1 ?_ ?_; rotate_left; (clear_value x; intro hx); rotate_left; subst x)
    | (extract_lets +onlyGivenNames x; refine Keeps.cut (st := st) (b := b) x.2 ?_ ?_; rotate_left; (clear_value x; intro hx); rotate_left; subst x)
    | (extract_lets +onlyGivenNames x; clear_value x)
    | (extract_lets +onlyGivenNames x)
    | split
    | with_reducible apply Stage4.Keeps.done
    | with_reducible apply OKeeps.some
    | with_reducible apply OPKeeps.some
    | with_reducible apply OKeeps.none
    | with_reducible apply OPKeeps.none
    | with_reducible apply Stage4.Keeps.sideFull
    | with_reducible apply Stage4.Keeps.stall
    | (refine OKeeps.of_some (by assumption) ?_)
    | (refine OPKeeps.of_some (by assumption) ?_)
    | (refine Stage4.Keeps.of_done (by assumption) ?_)
    | (with_reducible refine Keeps.of_pair (by assumption) ?_)
    | (with_reducible refine Keeps.of_pair2 (by assumption) ?_)
    | (fail_if_no_progress dsimp only)

theorem State.mirrorFail_keeps {st : Bool} {b s : State} (h : Keeps st b s) (row : Nat) :
    Keeps st b (State.mirrorFail s row) := by
  unfold State.mirrorFail
  repeat' first
    | with_reducible assumption
    | with_reducible exact Keeps.refl _ _
    | with_reducible apply Keeps.ite
    | (fail_if_no_progress with_reducible apply Keeps.upd)
    | with_reducible apply State.bump_keeps
    | with_reducible apply State.wr_keeps
    | with_reducible apply State.sticky_keeps
    | (fail_if_no_progress dsimp only)

theorem State.handover_keeps {st : Bool} {b s : State} (h : Keeps st b s) (c : HostCmd) (peerAllows : Bool) :
    Keeps st b (State.handover s c peerAllows) := by
  unfold State.handover
  repeat' first
    | with_reducible assumption
    | with_reducible exact Keeps.refl _ _
    | with_reducible apply Keeps.ite
    | (fail_if_no_progress with_reducible apply Keeps.upd)
    | with_reducible apply State.refuseCfg_keeps
    | with_reducible apply State.complete_keeps
    | with_reducible apply State.takeCmd_keeps
    | with_reducible apply State.setTwn_keeps
    | with_reducible apply State.setMode_keeps
    | with_reducible apply State.wr_keeps
    | (intro u a hu; beta_reduce)
    | (intro u hu; beta_reduce)
    | (extract_lets +onlyGivenNames x; refine Keeps.cut (st := st) (b := b) x ?_ ?_; rotate_left; (clear_value x; intro hx); rotate_left; subst x)
    | (extract_lets +onlyGivenNames x; refine Keeps.cut (st := st) (b := b) x.1 ?_ ?_; rotate_left; (clear_value x; intro hx); rotate_left; subst x)
    | (extract_lets +onlyGivenNames x; refine Keeps.cut (st := st) (b := b) x.2 ?_ ?_; rotate_left; (clear_value x; intro hx); rotate_left; subst x)
    | (extract_lets +onlyGivenNames x; clear_value x)
    | (extract_lets +onlyGivenNames x)
    | split
    | (fail_if_no_progress dsimp only)

theorem State.hoDone_keeps {st : Bool} {b s : State} (h : Keeps st b s) (act : Bool) :
    Keeps st b (State.hoDone s act) := by
  unfold State.hoDone
  repeat' first
    | with_reducible assumption
    | with_reducible exact Keeps.refl _ _
    | with_reducible apply Keeps.ite
    | (fail_if_no_progress with_reducible apply Keeps.upd)
    | with_reducible apply State.setTwn_keeps
    | with_reducible apply State.bump_keeps
    | with_reducible apply State.hoAbort_keeps
    | with_reducible apply State.sticky_keeps
    | (intro u a hu; beta_reduce)
    | (intro u hu; beta_reduce)
    | (fail_if_no_progress dsimp only)

end Sys2Proof.Machine
end

