-- ==== Sys2Proof/Laws/KRead.lean ====
section
/-! SUPPORT. What the operations of Machine/Read.lean keep. -/

set_option linter.unusedTactic false
set_option linter.unreachableTactic false

namespace Sys2Proof.Machine

theorem State.latchWord_keeps {st : Bool} {b s : State} (h : Keeps st b s) (m a : Nat) : Keeps st b (State.latchWord s m a) :=
  Keeps.upd_latch h _ (fun w => Store.put_wf w)

theorem State.readLatch_keeps {st : Bool} {b s : State} (h : Keeps st b s) (m a : Nat) : Keeps st b (State.readLatch s m a) := by
  unfold State.readLatch
  split
  · exact h
  · split
    · exact h
    · have h1 := fun l : List Nat => Keeps.foldl (f := fun t k => State.latchWord t m (a + 4 * (k + 1))) (l := l) h
        (fun _ _ g => State.latchWord_keeps g _ _)
      dsimp only
      split
      · refine Keeps.upd_latch (Keeps.foldl (h1 _) (fun _ _ g => State.latchWord_keeps g _ _)) _ (fun w => Store.put_wf w)
      · exact h1 _

theorem State.busRead_keeps {st : Bool} {b s : State} (h : Keeps st b s) (m : Nat) (a : Nat) :
    Keeps st b (State.busRead s m a).1 := by
  unfold State.busRead
  repeat' first
    | with_reducible assumption
    | with_reducible exact Keeps.refl _ _
    | with_reducible apply Keeps.ite
    | (fail_if_no_progress with_reducible apply Keeps.upd)
    | with_reducible apply State.readLatch_keeps
    | with_reducible apply State.deny_keeps
    | split
    | (refine OKeeps.of_some (by assumption) ?_)
    | (refine OPKeeps.of_some (by assumption) ?_)
    | (refine Stage4.Keeps.of_done (by assumption) ?_)
    | (with_reducible refine Keeps.of_pair (by assumption) ?_)
    | (with_reducible refine Keeps.of_pair2 (by assumption) ?_)
    | (fail_if_no_progress dsimp only)

end Sys2Proof.Machine
end

