-- ==== Sys2Proof/Laws/KRegAccess.lean ====
section
/-! SUPPORT. What the operations of Machine/RegAccess.lean keep. -/

set_option linter.unusedTactic false
set_option linter.unreachableTactic false

namespace Sys2Proof.Machine

theorem State.freeInt_keeps {st : Bool} {b s : State} (h : Keeps st b s)  :
    Keeps st b (State.freeInt s).2 := by
  unfold State.freeInt
  repeat' first
    | with_reducible assumption
    | with_reducible exact Keeps.refl _ _
    | with_reducible apply Keeps.ite
    | (fail_if_no_progress with_reducible apply Keeps.upd)
    | with_reducible apply State.free_keeps
    | (extract_lets +onlyGivenNames x; refine Keeps.cut (st := st) (b := b) x ?_ ?_; rotate_left; (clear_value x; intro hx); rotate_left; subst x)
    | (extract_lets +onlyGivenNames x; refine Keeps.cut (st := st) (b := b) x.1 ?_ ?_; rotate_left; (clear_value x; intro hx); rotate_left; subst x)
    | (extract_lets +onlyGivenNames x; refine Keeps.cut (st := st) (b := b) x.2 ?_ ?_; rotate_left; (clear_value x; intro hx); rotate_left; subst x)
    | (extract_lets +onlyGivenNames x; clear_value x)
    | (extract_lets +onlyGivenNames x)
    | split
    | (fail_if_no_progress dsimp only)

theorem State.stickyWrite_keeps {st : Bool} {b s : State} (h : Keeps st b s) (x_b : Blk) (val : Nat) (recurs : Nat) :
    Keeps st b (State.stickyWrite s x_b val recurs) := by
  unfold State.stickyWrite
  repeat' first
    | with_reducible assumption
    | with_reducible exact Keeps.refl _ _
    | with_reducible apply Keeps.ite
    | (fail_if_no_progress with_reducible apply Keeps.upd)
    | with_reducible apply State.clearSticky_keeps
    | with_reducible apply State.wr_keeps
    | (extract_lets +onlyGivenNames x; refine Keeps.cut (st := st) (b := b) x ?_ ?_; rotate_left; (clear_value x; intro hx); rotate_left; subst x)
    | (extract_lets +onlyGivenNames x; refine Keeps.cut (st := st) (b := b) x.1 ?_ ?_; rotate_left; (clear_value x; intro hx); rotate_left; subst x)
    | (extract_lets +onlyGivenNames x; refine Keeps.cut (st := st) (b := b) x.2 ?_ ?_; rotate_left; (clear_value x; intro hx); rotate_left; subst x)
    | (extract_lets +onlyGivenNames x; clear_value x)
    | (extract_lets +onlyGivenNames x)
    | split
    | (refine OKeeps.of_some (by assumption) ?_)
    | (refine OPKeeps.of_some (by assumption) ?_)
    | (refine Stage4.Keeps.of_done (by assumption) ?_)
    | (with_reducible refine Keeps.of_pair (by assumption) ?_)
    | (with_reducible refine Keeps.of_pair2 (by assumption) ?_)
    | (fail_if_no_progress dsimp only)

theorem State.writeFields_keeps {st : Bool} {b s : State} (h : Keeps st b s) (x_b : Blk) (row : RegSpec) (k : Nat) (val : Nat) :
    Keeps st b (State.writeFields s x_b row k val) := by
  unfold State.writeFields
  repeat' first
    | with_reducible assumption
    | with_reducible exact Keeps.refl _ _
    | with_reducible apply Keeps.ite
    | (fail_if_no_progress with_reducible apply Keeps.upd)
    | with_reducible apply State.setN_keeps
    | with_reducible apply State.refuseCfg_keeps
    | with_reducible apply State.setShadow_keeps
    | (extract_lets +onlyGivenNames x; refine Keeps.cut (st := st) (b := b) x ?_ ?_; rotate_left; (clear_value x; intro hx); rotate_left; subst x)
    | (extract_lets +onlyGivenNames x; refine Keeps.cut (st := st) (b := b) x.1 ?_ ?_; rotate_left; (clear_value x; intro hx); rotate_left; subst x)
    | (extract_lets +onlyGivenNames x; refine Keeps.cut (st := st) (b := b) x.2 ?_ ?_; rotate_left; (clear_value x; intro hx); rotate_left; subst x)
    | (extract_lets +onlyGivenNames x; clear_value x)
    | (extract_lets +onlyGivenNames x)
    | split
    | (fail_if_no_progress dsimp only)

theorem State.hold_keeps {st : Bool} {b s : State} (h : Keeps st b s) (a : Nat) (w : Option Word) :
    Keeps st b (State.hold s a w) :=
  h.trans ⟨rfl, rfl, rfl, rfl, fun _ => rfl, id, id, id, fun c => Store.put_wf c, id, id, id, id, id⟩

theorem State.applyHeld_keeps {st : Bool} {b s : State} (h : Keeps st b s) (row : RegSpec) (a : Nat) :
    Keeps st b (State.applyHeld s row a) := by
  unfold State.applyHeld
  repeat' first
    | with_reducible assumption
    | with_reducible exact Keeps.refl _ _
    | with_reducible apply Keeps.ite
    | (fail_if_no_progress with_reducible apply Keeps.upd)
    | with_reducible apply State.setReg_keeps
    | with_reducible apply State.hold_keeps
    | (with_reducible refine Keeps.foldl ?_ ?_)
    | (with_reducible refine Keeps.foldl_fst ?_ ?_)
    | (intro u a hu; beta_reduce)
    | (intro u hu; beta_reduce)
    | (extract_lets +onlyGivenNames x; refine Keeps.cut (st := st) (b := b) x ?_ ?_; rotate_left; (clear_value x; intro hx); rotate_left; subst x)
    | (extract_lets +onlyGivenNames x; refine Keeps.cut (st := st) (b := b) x.1 ?_ ?_; rotate_left; (clear_value x; intro hx); rotate_left; subst x)
    | (extract_lets +onlyGivenNames x; refine Keeps.cut (st := st) (b := b) x.2 ?_ ?_; rotate_left; (clear_value x; intro hx); rotate_left; subst x)
    | (extract_lets +onlyGivenNames x; clear_value x)
    | (extract_lets +onlyGivenNames x)
    | split
    | (refine OKeeps.of_some (by assumption) ?_)
    | (refine OPKeeps.of_some (by assumption) ?_)
    | (refine Stage4.Keeps.of_done (by assumption) ?_)
    | (with_reducible refine Keeps.of_pair (by assumption) ?_)
    | (with_reducible refine Keeps.of_pair2 (by assumption) ?_)
    | (fail_if_no_progress dsimp only)

theorem State.plainWrite_keeps {st : Bool} {b s : State} (h : Keeps st b s) (m : Nat) (a : Nat) (val : Nat) :
    Keeps st b (State.plainWrite s m a val) := by
  unfold State.plainWrite
  repeat' first
    | with_reducible assumption
    | with_reducible exact Keeps.refl _ _
    | with_reducible apply Keeps.ite
    | (fail_if_no_progress with_reducible apply Keeps.upd)
    | with_reducible apply State.hold_keeps
    | with_reducible apply State.applyHeld_keeps
    | with_reducible apply State.writeFields_keeps
    | split
    | (refine OKeeps.of_some (by assumption) ?_)
    | (refine OPKeeps.of_some (by assumption) ?_)
    | (refine Stage4.Keeps.of_done (by assumption) ?_)
    | (with_reducible refine Keeps.of_pair (by assumption) ?_)
    | (with_reducible refine Keeps.of_pair2 (by assumption) ?_)
    | (fail_if_no_progress dsimp only)

theorem State.grantOp_keeps {st : Bool} {b s : State} (h : Keeps st b s) (m : Nat) (idx : Nat) (op : Nat) :
    Keeps st b (State.grantOp s m idx op) := by
  unfold State.grantOp
  repeat' first
    | with_reducible assumption
    | with_reducible exact Keeps.refl _ _
    | with_reducible apply Keeps.ite
    | (fail_if_no_progress with_reducible apply Keeps.upd)
    | (fail_if_no_progress with_reducible apply Keeps.upd_filter)
    | (fail_if_no_progress with_reducible apply Keeps.upd_filter_all)
    | with_reducible apply State.grantCmd_keeps
    | with_reducible apply State.freeGrant_keeps
    | with_reducible apply State.cancelEntry_keeps
    | (with_reducible refine Keeps.foldl ?_ ?_)
    | (with_reducible refine Keeps.foldl_fst ?_ ?_)
    | (intro u a hu; beta_reduce)
    | (intro u hu; beta_reduce)
    | (extract_lets +onlyGivenNames x; refine Keeps.cut (st := st) (b := b) x ?_ ?_; rotate_left; (clear_value x; intro hx); rotate_left; subst x)
    | (extract_lets +onlyGivenNames x; refine Keeps.cut (st := st) (b := b) x.1 ?_ ?_; rotate_left; (clear_value x; intro hx); rotate_left; subst x)
    | (extract_lets +onlyGivenNames x; refine Keeps.cut (st := st) (b := b) x.2 ?_ ?_; rotate_left; (clear_value x; intro hx); rotate_left; subst x)
    | (extract_lets +onlyGivenNames x; clear_value x)
    | (extract_lets +onlyGivenNames x)
    | split
    | (refine OKeeps.of_some (by assumption) ?_)
    | (refine OPKeeps.of_some (by assumption) ?_)
    | (refine Stage4.Keeps.of_done (by assumption) ?_)
    | (with_reducible refine Keeps.of_pair (by assumption) ?_)
    | (with_reducible refine Keeps.of_pair2 (by assumption) ?_)
    | (fail_if_no_progress dsimp only)

theorem State.ringOp_keeps {st : Bool} {b s : State} (h : Keeps st b s) (m : Nat) (ring : Nat) (op : Nat) :
    Keeps st b (State.ringOp s m ring op) := by
  unfold State.ringOp
  repeat' first
    | with_reducible assumption
    | with_reducible exact Keeps.refl _ _
    | with_reducible apply Keeps.ite
    | (fail_if_no_progress with_reducible apply Keeps.upd)
    | with_reducible apply State.ringEnable_keeps
    | with_reducible apply State.ringDisable_keeps
    | with_reducible apply State.ringCtrl_keeps
    | split
    | (refine OKeeps.of_some (by assumption) ?_)
    | (refine OPKeeps.of_some (by assumption) ?_)
    | (refine Stage4.Keeps.of_done (by assumption) ?_)
    | (with_reducible refine Keeps.of_pair (by assumption) ?_)
    | (with_reducible refine Keeps.of_pair2 (by assumption) ?_)
    | (fail_if_no_progress dsimp only)

theorem State.swapCtrlWrite_keeps {st : Bool} {b s : State} (h : Keeps st b s) (n : Nat) (val : Nat) :
    Keeps st b (State.swapCtrlWrite s n val) := by
  unfold State.swapCtrlWrite
  repeat' first
    | with_reducible assumption
    | with_reducible exact Keeps.refl _ _
    | with_reducible apply Keeps.ite
    | (fail_if_no_progress with_reducible apply Keeps.upd)
    | with_reducible apply State.swapArm_keeps
    | with_reducible apply State.swapDisarm_keeps
    | with_reducible apply State.swapStatus_keeps
    | with_reducible apply State.setSq_keeps
    | (extract_lets +onlyGivenNames x; refine Keeps.cut (st := st) (b := b) x ?_ ?_; rotate_left; (clear_value x; intro hx); rotate_left; subst x)
    | (extract_lets +onlyGivenNames x; refine Keeps.cut (st := st) (b := b) x.1 ?_ ?_; rotate_left; (clear_value x; intro hx); rotate_left; subst x)
    | (extract_lets +onlyGivenNames x; refine Keeps.cut (st := st) (b := b) x.2 ?_ ?_; rotate_left; (clear_value x; intro hx); rotate_left; subst x)
    | (extract_lets +onlyGivenNames x; clear_value x)
    | (extract_lets +onlyGivenNames x)
    | split
    | (refine OKeeps.of_some (by assumption) ?_)
    | (refine OPKeeps.of_some (by assumption) ?_)
    | (refine Stage4.Keeps.of_done (by assumption) ?_)
    | (with_reducible refine Keeps.of_pair (by assumption) ?_)
    | (with_reducible refine Keeps.of_pair2 (by assumption) ?_)
    | (fail_if_no_progress dsimp only)

theorem State.runCtrlWrite_keeps {st : Bool} {b s : State} (h : Keeps st b s) (n : Nat) (val : Nat) :
    Keeps st b (State.runCtrlWrite s n val) := by
  unfold State.runCtrlWrite
  repeat' first
    | with_reducible assumption
    | with_reducible exact Keeps.refl _ _
    | with_reducible apply Keeps.ite
    | (fail_if_no_progress with_reducible apply Keeps.upd)
    | with_reducible apply State.sqHalt_keeps
    | with_reducible apply State.sqResume_keeps
    | with_reducible apply State.sqRestartOp_keeps
    | with_reducible apply State.runStatus_keeps
    | with_reducible apply State.setSq_keeps
    | (extract_lets +onlyGivenNames x; refine Keeps.cut (st := st) (b := b) x ?_ ?_; rotate_left; (clear_value x; intro hx); rotate_left; subst x)
    | (extract_lets +onlyGivenNames x; refine Keeps.cut (st := st) (b := b) x.1 ?_ ?_; rotate_left; (clear_value x; intro hx); rotate_left; subst x)
    | (extract_lets +onlyGivenNames x; refine Keeps.cut (st := st) (b := b) x.2 ?_ ?_; rotate_left; (clear_value x; intro hx); rotate_left; subst x)
    | (extract_lets +onlyGivenNames x; clear_value x)
    | (extract_lets +onlyGivenNames x)
    | split
    | (refine OKeeps.of_some (by assumption) ?_)
    | (refine OPKeeps.of_some (by assumption) ?_)
    | (refine Stage4.Keeps.of_done (by assumption) ?_)
    | (with_reducible refine Keeps.of_pair (by assumption) ?_)
    | (with_reducible refine Keeps.of_pair2 (by assumption) ?_)
    | (fail_if_no_progress dsimp only)

theorem State.findCtrl_keeps {st : Bool} {b s : State} (h : Keeps st b s) (val : Nat) :
    Keeps st b (State.findCtrl s val) := by
  unfold State.findCtrl
  repeat' first
    | with_reducible assumption
    | with_reducible exact Keeps.refl _ _
    | with_reducible apply Keeps.ite
    | (fail_if_no_progress with_reducible apply Keeps.upd)
    | with_reducible apply State.refuseCfg_keeps
    | with_reducible apply State.findGo_keeps
    | with_reducible apply State.wr_keeps
    | split
    | (fail_if_no_progress dsimp only)

theorem State.maintQuads_keeps {st : Bool} {b s : State} (h : Keeps st b s) (val : Nat) :
    Keeps st b (State.maintQuads s val) := by
  unfold State.maintQuads
  repeat' first
    | with_reducible assumption
    | with_reducible exact Keeps.refl _ _
    | with_reducible apply Keeps.ite
    | (fail_if_no_progress with_reducible apply Keeps.upd)
    | with_reducible apply State.setFenced_keeps
    | with_reducible apply State.wr_keeps
    | with_reducible apply State.refuseCfg_keeps
    | (with_reducible refine Keeps.foldl ?_ ?_)
    | (with_reducible refine Keeps.foldl_fst ?_ ?_)
    | (intro u a hu; beta_reduce)
    | (intro u hu; beta_reduce)
    | split
    | (fail_if_no_progress dsimp only)

theorem State.anchorCtrl_keeps {st : Bool} {b s : State} (h : Keeps st b s) (val : Nat) :
    Keeps st b (State.anchorCtrl s val) := by
  unfold State.anchorCtrl
  repeat' first
    | with_reducible assumption
    | with_reducible exact Keeps.refl _ _
    | with_reducible apply Keeps.ite
    | (fail_if_no_progress with_reducible apply Keeps.upd)
    | with_reducible apply State.wr_keeps
    | with_reducible apply State.free_keeps
    | with_reducible apply State.anchorIf_keeps
    | (intro u a hu; beta_reduce)
    | (intro u hu; beta_reduce)
    | (extract_lets +onlyGivenNames x; refine Keeps.cut (st := st) (b := b) x ?_ ?_; rotate_left; (clear_value x; intro hx); rotate_left; subst x)
    | (extract_lets +onlyGivenNames x; refine Keeps.cut (st := st) (b := b) x.1 ?_ ?_; rotate_left; (clear_value x; intro hx); rotate_left; subst x)
    | (extract_lets +onlyGivenNames x; refine Keeps.cut (st := st) (b := b) x.2 ?_ ?_; rotate_left; (clear_value x; intro hx); rotate_left; subst x)
    | (extract_lets +onlyGivenNames x; clear_value x)
    | (extract_lets +onlyGivenNames x)
    | split
    | (fail_if_no_progress dsimp only)

theorem State.writeSys_keeps {st : Bool} {b s : State} (h : Keeps st b s) (a : Nat) (val : Nat) :
    OKeeps st b (State.writeSys s a val) := by
  unfold State.writeSys
  repeat' first
    | with_reducible assumption
    | with_reducible apply OKeeps.ite
    | with_reducible exact Keeps.refl _ _
    | with_reducible apply Keeps.ite
    | (fail_if_no_progress with_reducible apply Keeps.upd)
    | with_reducible apply State.freeInt_keeps
    | with_reducible apply State.modeReqWrite_keeps
    | with_reducible apply State.free_keeps
    | with_reducible apply State.resetCtrl_keeps
    | with_reducible apply State.policyWrite_keeps
    | with_reducible apply State.ledgerCtrl_keeps
    | with_reducible apply State.hwReset_keeps
    | with_reducible apply State.refuseCfg_keeps
    | with_reducible apply State.snap_keeps
    | with_reducible apply State.wr_keeps
    | with_reducible apply State.loCtrl_keeps
    | with_reducible apply State.stepCmd_keeps
    | with_reducible apply State.settled_keeps
    | with_reducible apply State.hold_keeps
    | with_reducible apply State.swWrite_keeps
    | with_reducible apply State.alignGo_keeps
    | with_reducible apply State.grtCtrl_keeps
    | (extract_lets +onlyGivenNames x; refine Keeps.cut (st := st) (b := b) x ?_ ?_; rotate_left; (clear_value x; intro hx); rotate_left; subst x)
    | (extract_lets +onlyGivenNames x; refine Keeps.cut (st := st) (b := b) x.1 ?_ ?_; rotate_left; (clear_value x; intro hx); rotate_left; subst x)
    | (extract_lets +onlyGivenNames x; refine Keeps.cut (st := st) (b := b) x.2 ?_ ?_; rotate_left; (clear_value x; intro hx); rotate_left; subst x)
    | (extract_lets +onlyGivenNames x; clear_value x)
    | (extract_lets +onlyGivenNames x)
    | split
    | with_reducible apply Stage4.Keeps.done
    | with_reducible apply OKeeps.some
    | with_reducible apply OPKeeps.some
    | with_reducible apply OKeeps.none
    | with_reducible apply OPKeeps.none
    | with_reducible apply Stage4.Keeps.sideFull
    | with_reducible apply Stage4.Keeps.stall
    | (refine OKeeps.of_some (by assumption) ?_)
    | (refine OPKeeps.of_some (by assumption) ?_)
    | (refine Stage4.Keeps.of_done (by assumption) ?_)
    | (with_reducible refine Keeps.of_pair (by assumption) ?_)
    | (with_reducible refine Keeps.of_pair2 (by assumption) ?_)
    | (fail_if_no_progress dsimp only)

theorem State.writeOwn_keeps {st : Bool} {b s : State} (h : Keeps st b s) (m : Nat) (a : Nat) (val : Nat) :
    OKeeps st b (State.writeOwn s m a val) := by
  unfold State.writeOwn
  extract_lets +onlyGivenNames n sel
  have hsel : ∀ t, Keeps st b t → OKeeps st b (sel t) := fun t g => Keeps.ite h g
  clear_value n sel
  repeat' first
    | with_reducible assumption
    | with_reducible apply hsel
    | with_reducible apply OKeeps.ite
    | with_reducible exact Keeps.refl _ _
    | with_reducible apply Keeps.ite
    | (fail_if_no_progress with_reducible apply Keeps.upd)
    | with_reducible apply State.chOp_keeps
    | with_reducible apply State.anchorCtrl_keeps
    | with_reducible apply State.posGo_keeps
    | with_reducible apply State.writeUbits_keeps
    | with_reducible apply State.maintQuads_keeps
    | with_reducible apply State.grantOp_keeps
    | with_reducible apply State.findCtrl_keeps
    | with_reducible apply State.ringData_keeps
    | with_reducible apply State.ringOp_keeps
    | with_reducible apply State.swapCtrlWrite_keeps
    | with_reducible apply State.runCtrlWrite_keeps
    | with_reducible apply State.ldWrite_keeps
    | with_reducible apply State.wr_keeps
    | with_reducible apply State.domReqGo_keeps
    | with_reducible apply State.freeze_keeps
    | with_reducible apply State.refuseCfg_keeps
    | (intro u a hu; beta_reduce)
    | (intro u hu; beta_reduce)
    | (extract_lets +onlyGivenNames x; refine Keeps.cut (st := st) (b := b) x ?_ ?_; rotate_left; (clear_value x; intro hx); rotate_left; subst x)
    | (extract_lets +onlyGivenNames x; refine Keeps.cut (st := st) (b := b) x.1 ?_ ?_; rotate_left; (clear_value x; intro hx); rotate_left; subst x)
    | (extract_lets +onlyGivenNames x; refine Keeps.cut (st := st) (b := b) x.2 ?_ ?_; rotate_left; (clear_value x; intro hx); rotate_left; subst x)
    | (extract_lets +onlyGivenNames x; clear_value x)
    | (extract_lets +onlyGivenNames x)
    | split
    | with_reducible apply Stage4.Keeps.done
    | with_reducible apply OKeeps.some
    | with_reducible apply OPKeeps.some
    | with_reducible apply OKeeps.none
    | with_reducible apply OPKeeps.none
    | with_reducible apply Stage4.Keeps.sideFull
    | with_reducible apply Stage4.Keeps.stall
    | (refine OKeeps.of_some (by assumption) ?_)
    | (refine OPKeeps.of_some (by assumption) ?_)
    | (refine Stage4.Keeps.of_done (by assumption) ?_)
    | (with_reducible refine Keeps.of_pair (by assumption) ?_)
    | (with_reducible refine Keeps.of_pair2 (by assumption) ?_)
    | (fail_if_no_progress dsimp only)

theorem State.regWrite_keeps {st : Bool} {b s : State} (h : Keeps st b s) (m : Nat) (a : Nat) (val : Nat) :
    Keeps st b (State.regWrite s m a val) := by
  unfold State.regWrite
  repeat' first
    | with_reducible assumption
    | with_reducible exact Keeps.refl _ _
    | with_reducible apply Keeps.ite
    | (fail_if_no_progress with_reducible apply Keeps.upd)
    | with_reducible apply State.commitWrite_keeps
    | with_reducible apply State.sticky_keeps
    | with_reducible apply State.stickyWrite_keeps
    | with_reducible apply State.writeSys_keeps
    | with_reducible apply State.writeOwn_keeps
    | with_reducible apply State.plainWrite_keeps
    | split
    | (refine OKeeps.of_some (by assumption) ?_)
    | (refine OPKeeps.of_some (by assumption) ?_)
    | (refine Stage4.Keeps.of_done (by assumption) ?_)
    | (with_reducible refine Keeps.of_pair (by assumption) ?_)
    | (with_reducible refine Keeps.of_pair2 (by assumption) ?_)
    | (fail_if_no_progress dsimp only)

theorem State.denyStatus_keeps {st : Bool} {b s : State} (h : Keeps st b s) (a : Nat) :
    Keeps st b (State.denyStatus s a) := by
  unfold State.denyStatus
  repeat' first
    | with_reducible assumption
    | with_reducible exact Keeps.refl _ _
    | with_reducible apply Keeps.ite
    | (fail_if_no_progress with_reducible apply Keeps.upd)
    | with_reducible apply State.wr_keeps
    | split
    | (fail_if_no_progress dsimp only)

theorem State.busPut_keeps {st : Bool} {b s : State} (h : Keeps st b s) (m : Nat) (a : Nat) (val : Nat) :
    Keeps st b (State.busPut s m a val) := by
  unfold State.busPut
  repeat' first
    | with_reducible assumption
    | with_reducible exact Keeps.refl _ _
    | with_reducible apply Keeps.ite
    | (fail_if_no_progress with_reducible apply Keeps.upd)
    | with_reducible apply State.regWrite_keeps
    | with_reducible apply State.deny_keeps
    | with_reducible apply State.denyStatus_keeps
    | split
    | (refine OKeeps.of_some (by assumption) ?_)
    | (refine OPKeeps.of_some (by assumption) ?_)
    | (refine Stage4.Keeps.of_done (by assumption) ?_)
    | (with_reducible refine Keeps.of_pair (by assumption) ?_)
    | (with_reducible refine Keeps.of_pair2 (by assumption) ?_)
    | (fail_if_no_progress dsimp only)

end Sys2Proof.Machine
end

