-- ==== Sys2Proof/Laws/KExec.lean ====
section
/-! SUPPORT. What each command keeps: it answers a next state, with the queue, the ordering code, the canonical form and the
balance of the ledger as before. -/

set_option linter.unusedTactic false
set_option linter.unreachableTactic false

namespace Sys2Proof.Machine

/-- What a sequencer's instruction keeps. -/
theorem State.sqRow_keeps (s : State) (n op : Nat) (p : Bool) (t : Nat) : Keeps false (s.advance t) (s.sqRow n op p t) :=
  State.sqExec_keeps (Keeps.refl _ _) n op p _ (fun _ i hu => State.sqStep_keeps hu n i)

theorem execSteeringPortWrite_keeps (rate : Option Int) (target : Option Int) (bound : Option Int) (t : Nat) (s : State) :
    ∃ z, execSteeringPortWrite rate target bound t s = .next z ∧ Keeps false (s.advance t) z := by
  unfold execSteeringPortWrite
  refine ⟨_, rfl, ?_⟩
  repeat' first
    | with_reducible assumption
    | with_reducible exact Keeps.refl _ _
    | with_reducible apply Keeps.ite
    | (fail_if_no_progress with_reducible apply Keeps.upd)
    | with_reducible apply State.advance_keeps
    | with_reducible apply State.steer_keeps
    | (fail_if_no_progress dsimp only)

theorem execSlewDone_keeps (n : Nat) (t : Nat) (s : State) :
    ∃ z, execSlewDone n t s = .next z ∧ Keeps false (s.advance t) z := by
  unfold execSlewDone
  refine ⟨_, rfl, ?_⟩
  repeat' first
    | with_reducible assumption
    | with_reducible exact Keeps.refl _ _
    | with_reducible apply Keeps.ite
    | (fail_if_no_progress with_reducible apply Keeps.upd)
    | with_reducible apply State.advance_keeps
    | with_reducible apply State.endSlew_keeps
    | split
    | (fail_if_no_progress dsimp only)

theorem execLeapWarnStart_keeps (t : Nat) (s : State) :
    ∃ z, execLeapWarnStart t s = .next z ∧ Keeps false (s.advance t) z := by
  unfold execLeapWarnStart
  refine ⟨_, rfl, ?_⟩
  repeat' first
    | with_reducible assumption
    | with_reducible exact Keeps.refl _ _
    | with_reducible apply Keeps.ite
    | (fail_if_no_progress with_reducible apply Keeps.upd)
    | with_reducible apply State.advance_keeps
    | with_reducible apply State.setN_keeps
    | (extract_lets +onlyGivenNames x; refine Keeps.cut (st := false) (b := (s.advance t)) x ?_ ?_; rotate_left; (clear_value x; intro hx); rotate_left; subst x)
    | (extract_lets +onlyGivenNames x; refine Keeps.cut (st := false) (b := (s.advance t)) x.1 ?_ ?_; rotate_left; (clear_value x; intro hx); rotate_left; subst x)
    | (extract_lets +onlyGivenNames x; refine Keeps.cut (st := false) (b := (s.advance t)) x.2 ?_ ?_; rotate_left; (clear_value x; intro hx); rotate_left; subst x)
    | (extract_lets +onlyGivenNames x; clear_value x)
    | (extract_lets +onlyGivenNames x)
    | (fail_if_no_progress dsimp only)

theorem execLeapDone_keeps (t : Nat) (s : State) :
    ∃ z, execLeapDone t s = .next z ∧ Keeps false (s.advance t) z := by
  unfold execLeapDone
  refine ⟨_, rfl, ?_⟩
  repeat' first
    | with_reducible assumption
    | with_reducible exact Keeps.refl _ _
    | with_reducible apply Keeps.ite
    | (fail_if_no_progress with_reducible apply Keeps.upd)
    | with_reducible apply State.advance_keeps
    | with_reducible apply State.setN_keeps
    | with_reducible apply State.setQuiet_keeps
    | with_reducible apply State.journal_keeps
    | (intro u a hu; beta_reduce)
    | (intro u hu; beta_reduce)
    | (extract_lets +onlyGivenNames x; refine Keeps.cut (st := false) (b := (s.advance t)) x ?_ ?_; rotate_left; (clear_value x; intro hx); rotate_left; subst x)
    | (extract_lets +onlyGivenNames x; refine Keeps.cut (st := false) (b := (s.advance t)) x.1 ?_ ?_; rotate_left; (clear_value x; intro hx); rotate_left; subst x)
    | (extract_lets +onlyGivenNames x; refine Keeps.cut (st := false) (b := (s.advance t)) x.2 ?_ ?_; rotate_left; (clear_value x; intro hx); rotate_left; subst x)
    | (extract_lets +onlyGivenNames x; clear_value x)
    | (extract_lets +onlyGivenNames x)
    | split
    | (fail_if_no_progress dsimp only)

theorem execSmearStart_keeps (prof : Nat) (entry : Nat) (t : Nat) (s : State) :
    ∃ z, execSmearStart prof entry t s = .next z ∧ Keeps false (s.advance t) z := by
  unfold execSmearStart
  refine ⟨_, rfl, ?_⟩
  repeat' first
    | with_reducible assumption
    | with_reducible exact Keeps.refl _ _
    | with_reducible apply Keeps.ite
    | (fail_if_no_progress with_reducible apply Keeps.upd)
    | with_reducible apply State.advance_keeps
    | with_reducible apply State.startSmear_keeps
    | (intro u a hu; beta_reduce)
    | (intro u hu; beta_reduce)
    | (extract_lets +onlyGivenNames x; refine Keeps.cut (st := false) (b := (s.advance t)) x ?_ ?_; rotate_left; (clear_value x; intro hx); rotate_left; subst x)
    | (extract_lets +onlyGivenNames x; refine Keeps.cut (st := false) (b := (s.advance t)) x.1 ?_ ?_; rotate_left; (clear_value x; intro hx); rotate_left; subst x)
    | (extract_lets +onlyGivenNames x; refine Keeps.cut (st := false) (b := (s.advance t)) x.2 ?_ ?_; rotate_left; (clear_value x; intro hx); rotate_left; subst x)
    | (extract_lets +onlyGivenNames x; clear_value x)
    | (extract_lets +onlyGivenNames x)
    | split
    | (refine OKeeps.of_some (by assumption) ?_)
    | (with_reducible refine Keeps.of_pair (by assumption) ?_)
    | (with_reducible refine Keeps.of_pair2 (by assumption) ?_)
    | (fail_if_no_progress dsimp only)

theorem execSnapGo_keeps (m : Nat) (ts : Nat) (t : Nat) (s : State) :
    ∃ z, execSnapGo m ts t s = .next z ∧ Keeps false (s.advance t) z := by
  unfold execSnapGo
  refine ⟨_, rfl, ?_⟩
  repeat' first
    | with_reducible assumption
    | with_reducible exact Keeps.refl _ _
    | with_reducible apply Keeps.ite
    | (fail_if_no_progress with_reducible apply Keeps.upd)
    | with_reducible apply State.advance_keeps
    | with_reducible apply State.snap_keeps
    | with_reducible apply State.deny_keeps
    | (extract_lets +onlyGivenNames x; refine Keeps.cut (st := false) (b := (s.advance t)) x ?_ ?_; rotate_left; (clear_value x; intro hx); rotate_left; subst x)
    | (extract_lets +onlyGivenNames x; refine Keeps.cut (st := false) (b := (s.advance t)) x.1 ?_ ?_; rotate_left; (clear_value x; intro hx); rotate_left; subst x)
    | (extract_lets +onlyGivenNames x; refine Keeps.cut (st := false) (b := (s.advance t)) x.2 ?_ ?_; rotate_left; (clear_value x; intro hx); rotate_left; subst x)
    | (extract_lets +onlyGivenNames x; clear_value x)
    | (extract_lets +onlyGivenNames x)
    | split
    | (refine OKeeps.of_some (by assumption) ?_)
    | (with_reducible refine Keeps.of_pair (by assumption) ?_)
    | (with_reducible refine Keeps.of_pair2 (by assumption) ?_)
    | (fail_if_no_progress dsimp only)

theorem execHoldoffElapsed_keeps (n : Nat) (t : Nat) (s : State) :
    ∃ z, execHoldoffElapsed n t s = .next z ∧ Keeps false (s.advance t) z := by
  unfold execHoldoffElapsed
  refine ⟨_, rfl, ?_⟩
  repeat' first
    | with_reducible assumption
    | with_reducible exact Keeps.refl _ _
    | with_reducible apply Keeps.ite
    | (fail_if_no_progress with_reducible apply Keeps.upd)
    | with_reducible apply State.advance_keeps
    | with_reducible apply State.qualify_keeps
    | split
    | (fail_if_no_progress dsimp only)

theorem execFailHoldElapsed_keeps (n : Nat) (t : Nat) (s : State) :
    ∃ z, execFailHoldElapsed n t s = .next z ∧ Keeps false (s.advance t) z := by
  unfold execFailHoldElapsed
  refine ⟨_, rfl, ?_⟩
  repeat' first
    | with_reducible assumption
    | with_reducible exact Keeps.refl _ _
    | with_reducible apply Keeps.ite
    | (fail_if_no_progress with_reducible apply Keeps.upd)
    | with_reducible apply State.advance_keeps
    | with_reducible apply State.leaveFailed_keeps
    | split
    | (fail_if_no_progress dsimp only)

theorem execDisputeWindowEnd_keeps (t : Nat) (s : State) :
    ∃ z, execDisputeWindowEnd t s = .next z ∧ Keeps false (s.advance t) z := by
  unfold execDisputeWindowEnd
  refine ⟨_, rfl, ?_⟩
  repeat' first
    | with_reducible assumption
    | with_reducible exact Keeps.refl _ _
    | with_reducible apply Keeps.ite
    | (fail_if_no_progress with_reducible apply Keeps.upd)
    | with_reducible apply State.advance_keeps
    | with_reducible apply State.judgeWindow_keeps
    | (fail_if_no_progress dsimp only)

theorem execRefInEdge_keeps (i : Nat) (n : Nat) (t : Nat) (s : State) :
    ∃ z, execRefInEdge i n t s = .next z ∧ Keeps false (s.advance t) z := by
  unfold execRefInEdge
  refine ⟨_, rfl, ?_⟩
  repeat' first
    | with_reducible assumption
    | with_reducible exact Keeps.refl _ _
    | with_reducible apply Keeps.ite
    | (fail_if_no_progress with_reducible apply Keeps.upd)
    | with_reducible apply State.advance_keeps
    | with_reducible apply State.ppsEdge_keeps
    | with_reducible apply State.freqEdge_keeps
    | (extract_lets +onlyGivenNames x; refine Keeps.cut (st := false) (b := (s.advance t)) x ?_ ?_; rotate_left; (clear_value x; intro hx); rotate_left; subst x)
    | (extract_lets +onlyGivenNames x; refine Keeps.cut (st := false) (b := (s.advance t)) x.1 ?_ ?_; rotate_left; (clear_value x; intro hx); rotate_left; subst x)
    | (extract_lets +onlyGivenNames x; refine Keeps.cut (st := false) (b := (s.advance t)) x.2 ?_ ?_; rotate_left; (clear_value x; intro hx); rotate_left; subst x)
    | (extract_lets +onlyGivenNames x; clear_value x)
    | (extract_lets +onlyGivenNames x)
    | split
    | (refine OKeeps.of_some (by assumption) ?_)
    | (with_reducible refine Keeps.of_pair (by assumption) ?_)
    | (with_reducible refine Keeps.of_pair2 (by assumption) ?_)
    | (fail_if_no_progress dsimp only)

theorem execRefInAbsent_keeps (i : Nat) (t : Nat) (s : State) :
    ∃ z, execRefInAbsent i t s = .next z ∧ Keeps false (s.advance t) z := by
  unfold execRefInAbsent
  refine ⟨_, rfl, ?_⟩
  repeat' first
    | with_reducible assumption
    | with_reducible exact Keeps.refl _ _
    | with_reducible apply Keeps.ite
    | (fail_if_no_progress with_reducible apply Keeps.upd)
    | with_reducible apply State.advance_keeps
    | with_reducible apply State.wr_keeps
    | with_reducible apply State.forgetSource_keeps
    | (extract_lets +onlyGivenNames x; refine Keeps.cut (st := false) (b := (s.advance t)) x ?_ ?_; rotate_left; (clear_value x; intro hx); rotate_left; subst x)
    | (extract_lets +onlyGivenNames x; refine Keeps.cut (st := false) (b := (s.advance t)) x.1 ?_ ?_; rotate_left; (clear_value x; intro hx); rotate_left; subst x)
    | (extract_lets +onlyGivenNames x; refine Keeps.cut (st := false) (b := (s.advance t)) x.2 ?_ ?_; rotate_left; (clear_value x; intro hx); rotate_left; subst x)
    | (extract_lets +onlyGivenNames x; clear_value x)
    | (extract_lets +onlyGivenNames x)
    | split
    | (refine OKeeps.of_some (by assumption) ?_)
    | (with_reducible refine Keeps.of_pair (by assumption) ?_)
    | (with_reducible refine Keeps.of_pair2 (by assumption) ?_)
    | (fail_if_no_progress dsimp only)

theorem execRefokChange_keeps (i : Nat) (level : Bool) (t : Nat) (s : State) :
    ∃ z, execRefokChange i level t s = .next z ∧ Keeps false (s.advance t) z := by
  unfold execRefokChange
  refine ⟨_, rfl, ?_⟩
  repeat' first
    | with_reducible assumption
    | with_reducible exact Keeps.refl _ _
    | with_reducible apply Keeps.ite
    | (fail_if_no_progress with_reducible apply Keeps.upd)
    | with_reducible apply State.advance_keeps
    | with_reducible apply State.wrB_keeps
    | with_reducible apply State.lookSlot_keeps
    | (extract_lets +onlyGivenNames x; refine Keeps.cut (st := false) (b := (s.advance t)) x ?_ ?_; rotate_left; (clear_value x; intro hx); rotate_left; subst x)
    | (extract_lets +onlyGivenNames x; refine Keeps.cut (st := false) (b := (s.advance t)) x.1 ?_ ?_; rotate_left; (clear_value x; intro hx); rotate_left; subst x)
    | (extract_lets +onlyGivenNames x; refine Keeps.cut (st := false) (b := (s.advance t)) x.2 ?_ ?_; rotate_left; (clear_value x; intro hx); rotate_left; subst x)
    | (extract_lets +onlyGivenNames x; clear_value x)
    | (extract_lets +onlyGivenNames x)
    | split
    | (refine OKeeps.of_some (by assumption) ?_)
    | (with_reducible refine Keeps.of_pair (by assumption) ?_)
    | (with_reducible refine Keeps.of_pair2 (by assumption) ?_)
    | (fail_if_no_progress dsimp only)

theorem execGnssSlotLos_keeps (t : Nat) (s : State) :
    ∃ z, execGnssSlotLos t s = .next z ∧ Keeps false (s.advance t) z := by
  unfold execGnssSlotLos
  refine ⟨_, rfl, ?_⟩
  repeat' first
    | with_reducible assumption
    | with_reducible exact Keeps.refl _ _
    | with_reducible apply Keeps.ite
    | (fail_if_no_progress with_reducible apply Keeps.upd)
    | with_reducible apply State.advance_keeps
    | with_reducible apply State.forgetSource_keeps
    | with_reducible apply State.lookSlot_keeps
    | (extract_lets +onlyGivenNames x; refine Keeps.cut (st := false) (b := (s.advance t)) x ?_ ?_; rotate_left; (clear_value x; intro hx); rotate_left; subst x)
    | (extract_lets +onlyGivenNames x; refine Keeps.cut (st := false) (b := (s.advance t)) x.1 ?_ ?_; rotate_left; (clear_value x; intro hx); rotate_left; subst x)
    | (extract_lets +onlyGivenNames x; refine Keeps.cut (st := false) (b := (s.advance t)) x.2 ?_ ?_; rotate_left; (clear_value x; intro hx); rotate_left; subst x)
    | (extract_lets +onlyGivenNames x; clear_value x)
    | (extract_lets +onlyGivenNames x)
    | split
    | (refine OKeeps.of_some (by assumption) ?_)
    | (with_reducible refine Keeps.of_pair (by assumption) ?_)
    | (with_reducible refine Keeps.of_pair2 (by assumption) ?_)
    | (fail_if_no_progress dsimp only)

theorem execLoopUpdate_keeps (t : Nat) (s : State) :
    ∃ z, execLoopUpdate t s = .next z ∧ Keeps false (s.advance t) z := by
  unfold execLoopUpdate
  refine ⟨_, rfl, ?_⟩
  repeat' first
    | with_reducible assumption
    | with_reducible exact Keeps.refl _ _
    | with_reducible apply Keeps.ite
    | (fail_if_no_progress with_reducible apply Keeps.upd)
    | with_reducible apply State.advance_keeps
    | with_reducible apply State.takeSmp_keeps
    | with_reducible apply State.mainUpdate_keeps
    | (extract_lets +onlyGivenNames x; refine Keeps.cut (st := false) (b := (s.advance t)) x ?_ ?_; rotate_left; (clear_value x; intro hx); rotate_left; subst x)
    | (extract_lets +onlyGivenNames x; refine Keeps.cut (st := false) (b := (s.advance t)) x.1 ?_ ?_; rotate_left; (clear_value x; intro hx); rotate_left; subst x)
    | (extract_lets +onlyGivenNames x; refine Keeps.cut (st := false) (b := (s.advance t)) x.2 ?_ ?_; rotate_left; (clear_value x; intro hx); rotate_left; subst x)
    | (extract_lets +onlyGivenNames x; clear_value x)
    | (extract_lets +onlyGivenNames x)
    | split
    | (refine OKeeps.of_some (by assumption) ?_)
    | (with_reducible refine Keeps.of_pair (by assumption) ?_)
    | (with_reducible refine Keeps.of_pair2 (by assumption) ?_)
    | (fail_if_no_progress dsimp only)

theorem execFallbackUpdate_keeps (t : Nat) (s : State) :
    ∃ z, execFallbackUpdate t s = .next z ∧ Keeps false (s.advance t) z := by
  unfold execFallbackUpdate
  refine ⟨_, rfl, ?_⟩
  repeat' first
    | with_reducible assumption
    | with_reducible exact Keeps.refl _ _
    | with_reducible apply Keeps.ite
    | (fail_if_no_progress with_reducible apply Keeps.upd)
    | with_reducible apply State.advance_keeps
    | with_reducible apply State.takeSmp_keeps
    | with_reducible apply State.fbFollow_keeps
    | with_reducible apply State.fbUpdate_keeps
    | (extract_lets +onlyGivenNames x; refine Keeps.cut (st := false) (b := (s.advance t)) x ?_ ?_; rotate_left; (clear_value x; intro hx); rotate_left; subst x)
    | (extract_lets +onlyGivenNames x; refine Keeps.cut (st := false) (b := (s.advance t)) x.1 ?_ ?_; rotate_left; (clear_value x; intro hx); rotate_left; subst x)
    | (extract_lets +onlyGivenNames x; refine Keeps.cut (st := false) (b := (s.advance t)) x.2 ?_ ?_; rotate_left; (clear_value x; intro hx); rotate_left; subst x)
    | (extract_lets +onlyGivenNames x; clear_value x)
    | (extract_lets +onlyGivenNames x)
    | split
    | (refine OKeeps.of_some (by assumption) ?_)
    | (with_reducible refine Keeps.of_pair (by assumption) ?_)
    | (with_reducible refine Keeps.of_pair2 (by assumption) ?_)
    | (fail_if_no_progress dsimp only)

theorem execPullDone_keeps (t : Nat) (s : State) :
    ∃ z, execPullDone t s = .next z ∧ Keeps false (s.advance t) z := by
  unfold execPullDone
  refine ⟨_, rfl, ?_⟩
  repeat' first
    | with_reducible assumption
    | with_reducible exact Keeps.refl _ _
    | with_reducible apply Keeps.ite
    | (fail_if_no_progress with_reducible apply Keeps.upd)
    | with_reducible apply State.advance_keeps
    | with_reducible apply State.pullCheck_keeps
    | (fail_if_no_progress dsimp only)

theorem execHoldoverSecond_keeps (t : Nat) (s : State) :
    ∃ z, execHoldoverSecond t s = .next z ∧ Keeps false (s.advance t) z := by
  unfold execHoldoverSecond
  refine ⟨_, rfl, ?_⟩
  repeat' first
    | with_reducible assumption
    | with_reducible exact Keeps.refl _ _
    | with_reducible apply Keeps.ite
    | (fail_if_no_progress with_reducible apply Keeps.upd)
    | with_reducible apply State.advance_keeps
    | with_reducible apply State.hold_keeps
    | with_reducible apply State.wr_keeps
    | with_reducible apply State.applyHo_keeps
    | (extract_lets +onlyGivenNames x; refine Keeps.cut (st := false) (b := (s.advance t)) x ?_ ?_; rotate_left; (clear_value x; intro hx); rotate_left; subst x)
    | (extract_lets +onlyGivenNames x; refine Keeps.cut (st := false) (b := (s.advance t)) x.1 ?_ ?_; rotate_left; (clear_value x; intro hx); rotate_left; subst x)
    | (extract_lets +onlyGivenNames x; refine Keeps.cut (st := false) (b := (s.advance t)) x.2 ?_ ?_; rotate_left; (clear_value x; intro hx); rotate_left; subst x)
    | (extract_lets +onlyGivenNames x; clear_value x)
    | (extract_lets +onlyGivenNames x)
    | split
    | (refine OKeeps.of_some (by assumption) ?_)
    | (with_reducible refine Keeps.of_pair (by assumption) ?_)
    | (with_reducible refine Keeps.of_pair2 (by assumption) ?_)
    | (fail_if_no_progress dsimp only)

theorem execHistoryRecord_keeps (theta : Int) (xdiff : Int) (mirrorOk : Bool) (t : Nat) (s : State) :
    ∃ z, execHistoryRecord theta xdiff mirrorOk t s = .next z ∧ Keeps false (s.advance t) z := by
  unfold execHistoryRecord
  refine ⟨_, rfl, ?_⟩
  repeat' first
    | with_reducible assumption
    | with_reducible exact Keeps.refl _ _
    | with_reducible apply Keeps.ite
    | (fail_if_no_progress with_reducible apply Keeps.upd)
    | with_reducible apply State.advance_keeps
    | with_reducible apply State.setN_keeps
    | with_reducible apply State.markLocked_keeps
    | with_reducible apply State.setSat_keeps
    | with_reducible apply State.recordSecond_keeps
    | with_reducible apply State.dscEvent_keeps
    | (extract_lets +onlyGivenNames x; refine Keeps.cut (st := false) (b := (s.advance t)) x ?_ ?_; rotate_left; (clear_value x; intro hx); rotate_left; subst x)
    | (extract_lets +onlyGivenNames x; refine Keeps.cut (st := false) (b := (s.advance t)) x.1 ?_ ?_; rotate_left; (clear_value x; intro hx); rotate_left; subst x)
    | (extract_lets +onlyGivenNames x; refine Keeps.cut (st := false) (b := (s.advance t)) x.2 ?_ ?_; rotate_left; (clear_value x; intro hx); rotate_left; subst x)
    | (extract_lets +onlyGivenNames x; clear_value x)
    | (extract_lets +onlyGivenNames x)
    | split
    | (fail_if_no_progress dsimp only)

theorem execSwCtrlWrite_keeps (m : Nat) (val : Nat) (t : Nat) (s : State) :
    ∃ z, execSwCtrlWrite m val t s = .next z ∧ Keeps false (s.advance t) z := by
  unfold execSwCtrlWrite
  refine ⟨_, rfl, ?_⟩
  repeat' first
    | with_reducible assumption
    | with_reducible exact Keeps.refl _ _
    | with_reducible apply Keeps.ite
    | (fail_if_no_progress with_reducible apply Keeps.upd)
    | with_reducible apply State.advance_keeps
    | with_reducible apply State.swWrite_keeps
    | with_reducible apply State.deny_keeps
    | (extract_lets +onlyGivenNames x; refine Keeps.cut (st := false) (b := (s.advance t)) x ?_ ?_; rotate_left; (clear_value x; intro hx); rotate_left; subst x)
    | (extract_lets +onlyGivenNames x; refine Keeps.cut (st := false) (b := (s.advance t)) x.1 ?_ ?_; rotate_left; (clear_value x; intro hx); rotate_left; subst x)
    | (extract_lets +onlyGivenNames x; refine Keeps.cut (st := false) (b := (s.advance t)) x.2 ?_ ?_; rotate_left; (clear_value x; intro hx); rotate_left; subst x)
    | (extract_lets +onlyGivenNames x; clear_value x)
    | (extract_lets +onlyGivenNames x)
    | split
    | (refine OKeeps.of_some (by assumption) ?_)
    | (with_reducible refine Keeps.of_pair (by assumption) ?_)
    | (with_reducible refine Keeps.of_pair2 (by assumption) ?_)
    | (fail_if_no_progress dsimp only)

theorem execSwTimeout_keeps (t : Nat) (s : State) :
    ∃ z, execSwTimeout t s = .next z ∧ Keeps false (s.advance t) z := by
  unfold execSwTimeout
  refine ⟨_, rfl, ?_⟩
  repeat' first
    | with_reducible assumption
    | with_reducible exact Keeps.refl _ _
    | with_reducible apply Keeps.ite
    | (fail_if_no_progress with_reducible apply Keeps.upd)
    | with_reducible apply State.advance_keeps
    | with_reducible apply State.setDsc_keeps
    | with_reducible apply State.wr_keeps
    | with_reducible apply State.sticky_keeps
    | (intro u a hu; beta_reduce)
    | (intro u hu; beta_reduce)
    | (extract_lets +onlyGivenNames x; refine Keeps.cut (st := false) (b := (s.advance t)) x ?_ ?_; rotate_left; (clear_value x; intro hx); rotate_left; subst x)
    | (extract_lets +onlyGivenNames x; refine Keeps.cut (st := false) (b := (s.advance t)) x.1 ?_ ?_; rotate_left; (clear_value x; intro hx); rotate_left; subst x)
    | (extract_lets +onlyGivenNames x; refine Keeps.cut (st := false) (b := (s.advance t)) x.2 ?_ ?_; rotate_left; (clear_value x; intro hx); rotate_left; subst x)
    | (extract_lets +onlyGivenNames x; clear_value x)
    | (extract_lets +onlyGivenNames x)
    | split
    | (fail_if_no_progress dsimp only)

theorem execGrtCtrlWrite_keeps (m : Nat) (val : Nat) (t : Nat) (s : State) :
    ∃ z, execGrtCtrlWrite m val t s = .next z ∧ Keeps false (s.advance t) z := by
  unfold execGrtCtrlWrite
  refine ⟨_, rfl, ?_⟩
  repeat' first
    | with_reducible assumption
    | with_reducible exact Keeps.refl _ _
    | with_reducible apply Keeps.ite
    | (fail_if_no_progress with_reducible apply Keeps.upd)
    | with_reducible apply State.advance_keeps
    | with_reducible apply State.grtCtrl_keeps
    | with_reducible apply State.deny_keeps
    | (extract_lets +onlyGivenNames x; refine Keeps.cut (st := false) (b := (s.advance t)) x ?_ ?_; rotate_left; (clear_value x; intro hx); rotate_left; subst x)
    | (extract_lets +onlyGivenNames x; refine Keeps.cut (st := false) (b := (s.advance t)) x.1 ?_ ?_; rotate_left; (clear_value x; intro hx); rotate_left; subst x)
    | (extract_lets +onlyGivenNames x; refine Keeps.cut (st := false) (b := (s.advance t)) x.2 ?_ ?_; rotate_left; (clear_value x; intro hx); rotate_left; subst x)
    | (extract_lets +onlyGivenNames x; clear_value x)
    | (extract_lets +onlyGivenNames x)
    | split
    | (refine OKeeps.of_some (by assumption) ?_)
    | (with_reducible refine Keeps.of_pair (by assumption) ?_)
    | (with_reducible refine Keeps.of_pair2 (by assumption) ?_)
    | (fail_if_no_progress dsimp only)

theorem execGrtRetry_keeps (m : Nat) (t : Nat) (s : State) :
    ∃ z, execGrtRetry m t s = .next z ∧ Keeps false (s.advance t) z := by
  unfold execGrtRetry
  refine ⟨_, rfl, ?_⟩
  repeat' first
    | with_reducible assumption
    | with_reducible exact Keeps.refl _ _
    | with_reducible apply Keeps.ite
    | (fail_if_no_progress with_reducible apply Keeps.upd)
    | with_reducible apply State.advance_keeps
    | with_reducible apply State.grtRetry_keeps
    | with_reducible apply State.deny_keeps
    | (extract_lets +onlyGivenNames x; refine Keeps.cut (st := false) (b := (s.advance t)) x ?_ ?_; rotate_left; (clear_value x; intro hx); rotate_left; subst x)
    | (extract_lets +onlyGivenNames x; refine Keeps.cut (st := false) (b := (s.advance t)) x.1 ?_ ?_; rotate_left; (clear_value x; intro hx); rotate_left; subst x)
    | (extract_lets +onlyGivenNames x; refine Keeps.cut (st := false) (b := (s.advance t)) x.2 ?_ ?_; rotate_left; (clear_value x; intro hx); rotate_left; subst x)
    | (extract_lets +onlyGivenNames x; clear_value x)
    | (extract_lets +onlyGivenNames x)
    | split
    | (refine OKeeps.of_some (by assumption) ?_)
    | (with_reducible refine Keeps.of_pair (by assumption) ?_)
    | (with_reducible refine Keeps.of_pair2 (by assumption) ?_)
    | (fail_if_no_progress dsimp only)

theorem execGrottoWarm_keeps (cavity : Int) (t : Nat) (s : State) :
    ∃ z, execGrottoWarm cavity t s = .next z ∧ Keeps false (s.advance t) z := by
  unfold execGrottoWarm
  refine ⟨_, rfl, ?_⟩
  repeat' first
    | with_reducible assumption
    | with_reducible exact Keeps.refl _ _
    | with_reducible apply Keeps.ite
    | (fail_if_no_progress with_reducible apply Keeps.upd)
    | with_reducible apply State.advance_keeps
    | with_reducible apply State.setCavity_keeps
    | with_reducible apply State.gchange_keeps
    | with_reducible apply State.sticky_keeps
    | (extract_lets +onlyGivenNames x; refine Keeps.cut (st := false) (b := (s.advance t)) x ?_ ?_; rotate_left; (clear_value x; intro hx); rotate_left; subst x)
    | (extract_lets +onlyGivenNames x; refine Keeps.cut (st := false) (b := (s.advance t)) x.1 ?_ ?_; rotate_left; (clear_value x; intro hx); rotate_left; subst x)
    | (extract_lets +onlyGivenNames x; refine Keeps.cut (st := false) (b := (s.advance t)) x.2 ?_ ?_; rotate_left; (clear_value x; intro hx); rotate_left; subst x)
    | (extract_lets +onlyGivenNames x; clear_value x)
    | (extract_lets +onlyGivenNames x)
    | split
    | (fail_if_no_progress dsimp only)

theorem execGrottoReady_keeps (cavity : Int) (t : Nat) (s : State) :
    ∃ z, execGrottoReady cavity t s = .next z ∧ Keeps false (s.advance t) z := by
  unfold execGrottoReady
  refine ⟨_, rfl, ?_⟩
  repeat' first
    | with_reducible assumption
    | with_reducible exact Keeps.refl _ _
    | with_reducible apply Keeps.ite
    | (fail_if_no_progress with_reducible apply Keeps.upd)
    | with_reducible apply State.advance_keeps
    | with_reducible apply State.setCavity_keeps
    | with_reducible apply State.gchange_keeps
    | with_reducible apply State.sticky_keeps
    | (extract_lets +onlyGivenNames x; refine Keeps.cut (st := false) (b := (s.advance t)) x ?_ ?_; rotate_left; (clear_value x; intro hx); rotate_left; subst x)
    | (extract_lets +onlyGivenNames x; refine Keeps.cut (st := false) (b := (s.advance t)) x.1 ?_ ?_; rotate_left; (clear_value x; intro hx); rotate_left; subst x)
    | (extract_lets +onlyGivenNames x; refine Keeps.cut (st := false) (b := (s.advance t)) x.2 ?_ ?_; rotate_left; (clear_value x; intro hx); rotate_left; subst x)
    | (extract_lets +onlyGivenNames x; clear_value x)
    | (extract_lets +onlyGivenNames x)
    | split
    | (fail_if_no_progress dsimp only)

theorem execGrottoReadyLost_keeps (cavity : Int) (t : Nat) (s : State) :
    ∃ z, execGrottoReadyLost cavity t s = .next z ∧ Keeps false (s.advance t) z := by
  unfold execGrottoReadyLost
  refine ⟨_, rfl, ?_⟩
  repeat' first
    | with_reducible assumption
    | with_reducible exact Keeps.refl _ _
    | with_reducible apply Keeps.ite
    | (fail_if_no_progress with_reducible apply Keeps.upd)
    | with_reducible apply State.advance_keeps
    | with_reducible apply State.setCavity_keeps
    | with_reducible apply State.gchange_keeps
    | with_reducible apply State.sticky_keeps
    | (extract_lets +onlyGivenNames x; refine Keeps.cut (st := false) (b := (s.advance t)) x ?_ ?_; rotate_left; (clear_value x; intro hx); rotate_left; subst x)
    | (extract_lets +onlyGivenNames x; refine Keeps.cut (st := false) (b := (s.advance t)) x.1 ?_ ?_; rotate_left; (clear_value x; intro hx); rotate_left; subst x)
    | (extract_lets +onlyGivenNames x; refine Keeps.cut (st := false) (b := (s.advance t)) x.2 ?_ ?_; rotate_left; (clear_value x; intro hx); rotate_left; subst x)
    | (extract_lets +onlyGivenNames x; clear_value x)
    | (extract_lets +onlyGivenNames x)
    | split
    | (fail_if_no_progress dsimp only)

theorem execGrottoBandLost_keeps (cavity : Int) (t : Nat) (s : State) :
    ∃ z, execGrottoBandLost cavity t s = .next z ∧ Keeps false (s.advance t) z := by
  unfold execGrottoBandLost
  refine ⟨_, rfl, ?_⟩
  repeat' first
    | with_reducible assumption
    | with_reducible exact Keeps.refl _ _
    | with_reducible apply Keeps.ite
    | (fail_if_no_progress with_reducible apply Keeps.upd)
    | with_reducible apply State.advance_keeps
    | with_reducible apply State.setCavity_keeps
    | with_reducible apply State.gchange_keeps
    | with_reducible apply State.sticky_keeps
    | (extract_lets +onlyGivenNames x; refine Keeps.cut (st := false) (b := (s.advance t)) x ?_ ?_; rotate_left; (clear_value x; intro hx); rotate_left; subst x)
    | (extract_lets +onlyGivenNames x; refine Keeps.cut (st := false) (b := (s.advance t)) x.1 ?_ ?_; rotate_left; (clear_value x; intro hx); rotate_left; subst x)
    | (extract_lets +onlyGivenNames x; refine Keeps.cut (st := false) (b := (s.advance t)) x.2 ?_ ?_; rotate_left; (clear_value x; intro hx); rotate_left; subst x)
    | (extract_lets +onlyGivenNames x; clear_value x)
    | (extract_lets +onlyGivenNames x)
    | split
    | (fail_if_no_progress dsimp only)

theorem execVhtrLow_keeps (mv : Nat) (t : Nat) (s : State) :
    ∃ z, execVhtrLow mv t s = .next z ∧ Keeps false (s.advance t) z := by
  unfold execVhtrLow
  refine ⟨_, rfl, ?_⟩
  repeat' first
    | with_reducible assumption
    | with_reducible exact Keeps.refl _ _
    | with_reducible apply Keeps.ite
    | (fail_if_no_progress with_reducible apply Keeps.upd)
    | with_reducible apply State.advance_keeps
    | with_reducible apply State.setN_keeps
    | with_reducible apply State.gchange_keeps
    | with_reducible apply State.sticky_keeps
    | (extract_lets +onlyGivenNames x; refine Keeps.cut (st := false) (b := (s.advance t)) x ?_ ?_; rotate_left; (clear_value x; intro hx); rotate_left; subst x)
    | (extract_lets +onlyGivenNames x; refine Keeps.cut (st := false) (b := (s.advance t)) x.1 ?_ ?_; rotate_left; (clear_value x; intro hx); rotate_left; subst x)
    | (extract_lets +onlyGivenNames x; refine Keeps.cut (st := false) (b := (s.advance t)) x.2 ?_ ?_; rotate_left; (clear_value x; intro hx); rotate_left; subst x)
    | (extract_lets +onlyGivenNames x; clear_value x)
    | (extract_lets +onlyGivenNames x)
    | split
    | (fail_if_no_progress dsimp only)

theorem execGrottoSensorFault_keeps (sensor0 : Int) (sensor1 : Int) (t : Nat) (s : State) :
    ∃ z, execGrottoSensorFault sensor0 sensor1 t s = .next z ∧ Keeps false (s.advance t) z := by
  unfold execGrottoSensorFault
  refine ⟨_, rfl, ?_⟩
  repeat' first
    | with_reducible assumption
    | with_reducible exact Keeps.refl _ _
    | with_reducible apply Keeps.ite
    | (fail_if_no_progress with_reducible apply Keeps.upd)
    | with_reducible apply State.advance_keeps
    | with_reducible apply State.setCavity_keeps
    | with_reducible apply State.gchange_keeps
    | with_reducible apply State.bump_keeps
    | with_reducible apply State.sticky_keeps
    | (extract_lets +onlyGivenNames x; refine Keeps.cut (st := false) (b := (s.advance t)) x ?_ ?_; rotate_left; (clear_value x; intro hx); rotate_left; subst x)
    | (extract_lets +onlyGivenNames x; refine Keeps.cut (st := false) (b := (s.advance t)) x.1 ?_ ?_; rotate_left; (clear_value x; intro hx); rotate_left; subst x)
    | (extract_lets +onlyGivenNames x; refine Keeps.cut (st := false) (b := (s.advance t)) x.2 ?_ ?_; rotate_left; (clear_value x; intro hx); rotate_left; subst x)
    | (extract_lets +onlyGivenNames x; clear_value x)
    | (extract_lets +onlyGivenNames x)
    | split
    | (fail_if_no_progress dsimp only)

theorem execVhtrRestored_keeps (mv : Nat) (t : Nat) (s : State) :
    ∃ z, execVhtrRestored mv t s = .next z ∧ Keeps false (s.advance t) z := by
  unfold execVhtrRestored
  refine ⟨_, rfl, ?_⟩
  repeat' first
    | with_reducible assumption
    | with_reducible exact Keeps.refl _ _
    | with_reducible apply Keeps.ite
    | (fail_if_no_progress with_reducible apply Keeps.upd)
    | with_reducible apply State.advance_keeps
    | with_reducible apply State.setN_keeps
    | with_reducible apply State.heatStart_keeps
    | (fail_if_no_progress dsimp only)

theorem execAlignGo_keeps (m : Nat) (t : Nat) (s : State) :
    ∃ z, execAlignGo m t s = .next z ∧ Keeps false (s.advance t) z := by
  unfold execAlignGo
  refine ⟨_, rfl, ?_⟩
  repeat' first
    | with_reducible assumption
    | with_reducible exact Keeps.refl _ _
    | with_reducible apply Keeps.ite
    | (fail_if_no_progress with_reducible apply Keeps.upd)
    | with_reducible apply State.advance_keeps
    | with_reducible apply State.alignGo_keeps
    | with_reducible apply State.deny_keeps
    | (extract_lets +onlyGivenNames x; refine Keeps.cut (st := false) (b := (s.advance t)) x ?_ ?_; rotate_left; (clear_value x; intro hx); rotate_left; subst x)
    | (extract_lets +onlyGivenNames x; refine Keeps.cut (st := false) (b := (s.advance t)) x.1 ?_ ?_; rotate_left; (clear_value x; intro hx); rotate_left; subst x)
    | (extract_lets +onlyGivenNames x; refine Keeps.cut (st := false) (b := (s.advance t)) x.2 ?_ ?_; rotate_left; (clear_value x; intro hx); rotate_left; subst x)
    | (extract_lets +onlyGivenNames x; clear_value x)
    | (extract_lets +onlyGivenNames x)
    | split
    | (refine OKeeps.of_some (by assumption) ?_)
    | (with_reducible refine Keeps.of_pair (by assumption) ?_)
    | (with_reducible refine Keeps.of_pair2 (by assumption) ?_)
    | (fail_if_no_progress dsimp only)

theorem execOutputAlign_keeps (n : Nat) (residual : Nat) (t : Nat) (s : State) :
    ∃ z, execOutputAlign n residual t s = .next z ∧ Keeps false (s.advance t) z := by
  unfold execOutputAlign
  refine ⟨_, rfl, ?_⟩
  repeat' first
    | with_reducible assumption
    | with_reducible exact Keeps.refl _ _
    | with_reducible apply Keeps.ite
    | (fail_if_no_progress with_reducible apply Keeps.upd)
    | with_reducible apply State.advance_keeps
    | with_reducible apply State.setCko_keeps
    | with_reducible apply State.setAligned_keeps
    | with_reducible apply State.wr_keeps
    | with_reducible apply State.bumpF_keeps
    | with_reducible apply State.walkDone_keeps
    | with_reducible apply State.sticky_keeps
    | (intro u a hu; beta_reduce)
    | (intro u hu; beta_reduce)
    | (extract_lets +onlyGivenNames x; refine Keeps.cut (st := false) (b := (s.advance t)) x ?_ ?_; rotate_left; (clear_value x; intro hx); rotate_left; subst x)
    | (extract_lets +onlyGivenNames x; refine Keeps.cut (st := false) (b := (s.advance t)) x.1 ?_ ?_; rotate_left; (clear_value x; intro hx); rotate_left; subst x)
    | (extract_lets +onlyGivenNames x; refine Keeps.cut (st := false) (b := (s.advance t)) x.2 ?_ ?_; rotate_left; (clear_value x; intro hx); rotate_left; subst x)
    | (extract_lets +onlyGivenNames x; clear_value x)
    | (extract_lets +onlyGivenNames x)
    | split
    | (fail_if_no_progress dsimp only)

theorem execPlaneLockLost_keeps (p : Nat) (t : Nat) (s : State) :
    ∃ z, execPlaneLockLost p t s = .next z ∧ Keeps false (s.advance t) z := by
  unfold execPlaneLockLost
  refine ⟨_, rfl, ?_⟩
  repeat' first
    | with_reducible assumption
    | with_reducible exact Keeps.refl _ _
    | with_reducible apply Keeps.ite
    | (fail_if_no_progress with_reducible apply Keeps.upd)
    | with_reducible apply State.advance_keeps
    | with_reducible apply State.wr_keeps
    | with_reducible apply State.bumpF_keeps
    | with_reducible apply State.setAligned_keeps
    | with_reducible apply State.sticky_keeps
    | (with_reducible refine Keeps.foldl ?_ ?_)
    | (with_reducible refine Keeps.foldl_fst ?_ ?_)
    | (intro u a hu; beta_reduce)
    | (intro u hu; beta_reduce)
    | (extract_lets +onlyGivenNames x; refine Keeps.cut (st := false) (b := (s.advance t)) x ?_ ?_; rotate_left; (clear_value x; intro hx); rotate_left; subst x)
    | (extract_lets +onlyGivenNames x; refine Keeps.cut (st := false) (b := (s.advance t)) x.1 ?_ ?_; rotate_left; (clear_value x; intro hx); rotate_left; subst x)
    | (extract_lets +onlyGivenNames x; refine Keeps.cut (st := false) (b := (s.advance t)) x.2 ?_ ?_; rotate_left; (clear_value x; intro hx); rotate_left; subst x)
    | (extract_lets +onlyGivenNames x; clear_value x)
    | (extract_lets +onlyGivenNames x)
    | split
    | (fail_if_no_progress dsimp only)

theorem execPlaneLockReturn_keeps (p : Nat) (t : Nat) (s : State) :
    ∃ z, execPlaneLockReturn p t s = .next z ∧ Keeps false (s.advance t) z := by
  unfold execPlaneLockReturn
  refine ⟨_, rfl, ?_⟩
  repeat' first
    | with_reducible assumption
    | with_reducible exact Keeps.refl _ _
    | with_reducible apply Keeps.ite
    | (fail_if_no_progress with_reducible apply Keeps.upd)
    | with_reducible apply State.advance_keeps
    | with_reducible apply State.wr_keeps
    | with_reducible apply State.askAlign_keeps
    | with_reducible apply State.bumpF_keeps
    | (with_reducible refine Keeps.foldl ?_ ?_)
    | (with_reducible refine Keeps.foldl_fst ?_ ?_)
    | (intro u a hu; beta_reduce)
    | (intro u hu; beta_reduce)
    | (extract_lets +onlyGivenNames x; refine Keeps.cut (st := false) (b := (s.advance t)) x ?_ ?_; rotate_left; (clear_value x; intro hx); rotate_left; subst x)
    | (extract_lets +onlyGivenNames x; refine Keeps.cut (st := false) (b := (s.advance t)) x.1 ?_ ?_; rotate_left; (clear_value x; intro hx); rotate_left; subst x)
    | (extract_lets +onlyGivenNames x; refine Keeps.cut (st := false) (b := (s.advance t)) x.2 ?_ ?_; rotate_left; (clear_value x; intro hx); rotate_left; subst x)
    | (extract_lets +onlyGivenNames x; clear_value x)
    | (extract_lets +onlyGivenNames x)
    | split
    | (fail_if_no_progress dsimp only)

theorem execPhaseWalkDone_keeps (n : Nat) (t : Nat) (s : State) :
    ∃ z, execPhaseWalkDone n t s = .next z ∧ Keeps false (s.advance t) z := by
  unfold execPhaseWalkDone
  refine ⟨_, rfl, ?_⟩
  repeat' first
    | with_reducible assumption
    | with_reducible exact Keeps.refl _ _
    | with_reducible apply Keeps.ite
    | (fail_if_no_progress with_reducible apply Keeps.upd)
    | with_reducible apply State.advance_keeps
    | with_reducible apply State.walkDone_keeps
    | (extract_lets +onlyGivenNames x; refine Keeps.cut (st := false) (b := (s.advance t)) x ?_ ?_; rotate_left; (clear_value x; intro hx); rotate_left; subst x)
    | (extract_lets +onlyGivenNames x; refine Keeps.cut (st := false) (b := (s.advance t)) x.1 ?_ ?_; rotate_left; (clear_value x; intro hx); rotate_left; subst x)
    | (extract_lets +onlyGivenNames x; refine Keeps.cut (st := false) (b := (s.advance t)) x.2 ?_ ?_; rotate_left; (clear_value x; intro hx); rotate_left; subst x)
    | (extract_lets +onlyGivenNames x; clear_value x)
    | (extract_lets +onlyGivenNames x)
    | split
    | (fail_if_no_progress dsimp only)

theorem execLoReady_keeps (grotto : Bool) (s : State) :
    ∃ z, execLoReady grotto s = .next z ∧ Keeps false s z := by
  unfold execLoReady
  refine ⟨_, rfl, ?_⟩
  repeat' first
    | with_reducible assumption
    | with_reducible exact Keeps.refl _ _
    | with_reducible apply Keeps.ite
    | (fail_if_no_progress with_reducible apply Keeps.upd)
    | with_reducible apply State.wr_keeps
    | (fail_if_no_progress dsimp only)

theorem execLoFallback_keeps (grottoReady : Bool) (s : State) :
    ∃ z, execLoFallback grottoReady s = .next z ∧ Keeps false s z := by
  unfold execLoFallback
  refine ⟨_, rfl, ?_⟩
  repeat' first
    | with_reducible assumption
    | with_reducible exact Keeps.refl _ _
    | with_reducible apply Keeps.ite
    | (fail_if_no_progress with_reducible apply Keeps.upd)
    | with_reducible apply State.setActiveLo_keeps
    | with_reducible apply State.wrB_keeps
    | with_reducible apply State.sticky_keeps
    | (extract_lets +onlyGivenNames x; refine Keeps.cut (st := false) (b := s) x ?_ ?_; rotate_left; (clear_value x; intro hx); rotate_left; subst x)
    | (extract_lets +onlyGivenNames x; refine Keeps.cut (st := false) (b := s) x.1 ?_ ?_; rotate_left; (clear_value x; intro hx); rotate_left; subst x)
    | (extract_lets +onlyGivenNames x; refine Keeps.cut (st := false) (b := s) x.2 ?_ ?_; rotate_left; (clear_value x; intro hx); rotate_left; subst x)
    | (extract_lets +onlyGivenNames x; clear_value x)
    | (extract_lets +onlyGivenNames x)
    | split
    | (fail_if_no_progress dsimp only)

theorem execLoLoss_keeps (delta : Int) (t : Nat) (s : State) :
    ∃ z, execLoLoss delta t s = .next z ∧ Keeps false (s.advance t) z := by
  unfold execLoLoss
  refine ⟨_, rfl, ?_⟩
  repeat' first
    | with_reducible assumption
    | with_reducible exact Keeps.refl _ _
    | with_reducible apply Keeps.ite
    | (fail_if_no_progress with_reducible apply Keeps.upd)
    | with_reducible apply State.advance_keeps
    | with_reducible apply State.wr_keeps
    | with_reducible apply State.sticky_keeps
    | with_reducible apply State.askSwitch_keeps
    | (extract_lets +onlyGivenNames x; refine Keeps.cut (st := false) (b := (s.advance t)) x ?_ ?_; rotate_left; (clear_value x; intro hx); rotate_left; subst x)
    | (extract_lets +onlyGivenNames x; refine Keeps.cut (st := false) (b := (s.advance t)) x.1 ?_ ?_; rotate_left; (clear_value x; intro hx); rotate_left; subst x)
    | (extract_lets +onlyGivenNames x; refine Keeps.cut (st := false) (b := (s.advance t)) x.2 ?_ ?_; rotate_left; (clear_value x; intro hx); rotate_left; subst x)
    | (extract_lets +onlyGivenNames x; clear_value x)
    | (extract_lets +onlyGivenNames x)
    | split
    | (fail_if_no_progress dsimp only)

theorem execLoCtrlWrite_keeps (m : Nat) (val : Nat) (delta : Int) (t : Nat) (s : State) :
    ∃ z, execLoCtrlWrite m val delta t s = .next z ∧ Keeps false (s.advance t) z := by
  unfold execLoCtrlWrite
  refine ⟨_, rfl, ?_⟩
  repeat' first
    | with_reducible assumption
    | with_reducible exact Keeps.refl _ _
    | with_reducible apply Keeps.ite
    | (fail_if_no_progress with_reducible apply Keeps.upd)
    | with_reducible apply State.advance_keeps
    | with_reducible apply State.loCtrl_keeps
    | with_reducible apply State.deny_keeps
    | (extract_lets +onlyGivenNames x; refine Keeps.cut (st := false) (b := (s.advance t)) x ?_ ?_; rotate_left; (clear_value x; intro hx); rotate_left; subst x)
    | (extract_lets +onlyGivenNames x; refine Keeps.cut (st := false) (b := (s.advance t)) x.1 ?_ ?_; rotate_left; (clear_value x; intro hx); rotate_left; subst x)
    | (extract_lets +onlyGivenNames x; refine Keeps.cut (st := false) (b := (s.advance t)) x.2 ?_ ?_; rotate_left; (clear_value x; intro hx); rotate_left; subst x)
    | (extract_lets +onlyGivenNames x; clear_value x)
    | (extract_lets +onlyGivenNames x)
    | split
    | (refine OKeeps.of_some (by assumption) ?_)
    | (with_reducible refine Keeps.of_pair (by assumption) ?_)
    | (with_reducible refine Keeps.of_pair2 (by assumption) ?_)
    | (fail_if_no_progress dsimp only)

theorem execLoSwitchRetry_keeps (delta : Int) (t : Nat) (s : State) :
    ∃ z, execLoSwitchRetry delta t s = .next z ∧ Keeps false (s.advance t) z := by
  unfold execLoSwitchRetry
  refine ⟨_, rfl, ?_⟩
  repeat' first
    | with_reducible assumption
    | with_reducible exact Keeps.refl _ _
    | with_reducible apply Keeps.ite
    | (fail_if_no_progress with_reducible apply Keeps.upd)
    | with_reducible apply State.advance_keeps
    | with_reducible apply State.switchover_keeps
    | (with_reducible refine State.setTsc_keeps ?_ _ ?hx ?hy; (case hx => (intro _; rfl)); (case hy => (intro _; rfl)))
    | with_reducible apply State.sticky_keeps
    | with_reducible apply State.wrB_keeps
    | (intro u a hu; beta_reduce)
    | (intro u hu; beta_reduce)
    | (extract_lets +onlyGivenNames x; refine Keeps.cut (st := false) (b := (s.advance t)) x ?_ ?_; rotate_left; (clear_value x; intro hx); rotate_left; subst x)
    | (extract_lets +onlyGivenNames x; refine Keeps.cut (st := false) (b := (s.advance t)) x.1 ?_ ?_; rotate_left; (clear_value x; intro hx); rotate_left; subst x)
    | (extract_lets +onlyGivenNames x; refine Keeps.cut (st := false) (b := (s.advance t)) x.2 ?_ ?_; rotate_left; (clear_value x; intro hx); rotate_left; subst x)
    | (extract_lets +onlyGivenNames x; clear_value x)
    | (extract_lets +onlyGivenNames x)
    | split
    | (refine OKeeps.of_some (by assumption) ?_)
    | (with_reducible refine Keeps.of_pair (by assumption) ?_)
    | (with_reducible refine Keeps.of_pair2 (by assumption) ?_)
    | (fail_if_no_progress dsimp only)

theorem execOscillatorReady_keeps (grotto : Bool) (delta : Int) (t : Nat) (s : State) :
    ∃ z, execOscillatorReady grotto delta t s = .next z ∧ Keeps false (s.advance t) z := by
  unfold execOscillatorReady
  refine ⟨_, rfl, ?_⟩
  repeat' first
    | with_reducible assumption
    | with_reducible exact Keeps.refl _ _
    | with_reducible apply Keeps.ite
    | (fail_if_no_progress with_reducible apply Keeps.upd)
    | with_reducible apply State.advance_keeps
    | with_reducible apply State.wr_keeps
    | (with_reducible refine State.setTsc_keeps ?_ _ ?hx ?hy; (case hx => (intro _; rfl)); (case hy => (intro _; rfl)))
    | with_reducible apply State.switchover_keeps
    | (intro u a hu; beta_reduce)
    | (intro u hu; beta_reduce)
    | (extract_lets +onlyGivenNames x; refine Keeps.cut (st := false) (b := (s.advance t)) x ?_ ?_; rotate_left; (clear_value x; intro hx); rotate_left; subst x)
    | (extract_lets +onlyGivenNames x; refine Keeps.cut (st := false) (b := (s.advance t)) x.1 ?_ ?_; rotate_left; (clear_value x; intro hx); rotate_left; subst x)
    | (extract_lets +onlyGivenNames x; refine Keeps.cut (st := false) (b := (s.advance t)) x.2 ?_ ?_; rotate_left; (clear_value x; intro hx); rotate_left; subst x)
    | (extract_lets +onlyGivenNames x; clear_value x)
    | (extract_lets +onlyGivenNames x)
    | split
    | (fail_if_no_progress dsimp only)

theorem execAlternateNotReady_keeps (t : Nat) (s : State) :
    ∃ z, execAlternateNotReady t s = .next z ∧ Keeps false (s.advance t) z := by
  unfold execAlternateNotReady
  refine ⟨_, rfl, ?_⟩
  repeat' first
    | with_reducible assumption
    | with_reducible exact Keeps.refl _ _
    | with_reducible apply Keeps.ite
    | (fail_if_no_progress with_reducible apply Keeps.upd)
    | with_reducible apply State.advance_keeps
    | with_reducible apply State.wr_keeps
    | with_reducible apply State.setN_keeps
    | (extract_lets +onlyGivenNames x; refine Keeps.cut (st := false) (b := (s.advance t)) x ?_ ?_; rotate_left; (clear_value x; intro hx); rotate_left; subst x)
    | (extract_lets +onlyGivenNames x; refine Keeps.cut (st := false) (b := (s.advance t)) x.1 ?_ ?_; rotate_left; (clear_value x; intro hx); rotate_left; subst x)
    | (extract_lets +onlyGivenNames x; refine Keeps.cut (st := false) (b := (s.advance t)) x.2 ?_ ?_; rotate_left; (clear_value x; intro hx); rotate_left; subst x)
    | (extract_lets +onlyGivenNames x; clear_value x)
    | (extract_lets +onlyGivenNames x)
    | (fail_if_no_progress dsimp only)

theorem execGnssSolution_keeps (c : HostCmd) (t : Nat) (s : State) :
    ∃ z, execGnssSolution c t s = .next z ∧ Keeps false (s.advance t) z := by
  unfold execGnssSolution
  refine ⟨_, rfl, ?_⟩
  repeat' first
    | with_reducible assumption
    | with_reducible exact Keeps.refl _ _
    | with_reducible apply Keeps.ite
    | (fail_if_no_progress with_reducible apply Keeps.upd)
    | with_reducible apply State.advance_keeps
    | with_reducible apply State.timeCheck_keeps
    | with_reducible apply State.gnssAccept_keeps
    | with_reducible apply State.complete_keeps
    | with_reducible apply State.satF_keeps
    | with_reducible apply State.sticky_keeps
    | (intro u a hu; beta_reduce)
    | (intro u hu; beta_reduce)
    | (extract_lets +onlyGivenNames x; refine Keeps.cut (st := false) (b := (s.advance t)) x ?_ ?_; rotate_left; (clear_value x; intro hx); rotate_left; subst x)
    | (extract_lets +onlyGivenNames x; refine Keeps.cut (st := false) (b := (s.advance t)) x.1 ?_ ?_; rotate_left; (clear_value x; intro hx); rotate_left; subst x)
    | (extract_lets +onlyGivenNames x; refine Keeps.cut (st := false) (b := (s.advance t)) x.2 ?_ ?_; rotate_left; (clear_value x; intro hx); rotate_left; subst x)
    | (extract_lets +onlyGivenNames x; clear_value x)
    | (extract_lets +onlyGivenNames x)
    | split
    | (refine OKeeps.of_some (by assumption) ?_)
    | (with_reducible refine Keeps.of_pair (by assumption) ?_)
    | (with_reducible refine Keeps.of_pair2 (by assumption) ?_)
    | (fail_if_no_progress dsimp only)

theorem execCorrelatorDump_keeps (u : Nat) (dumps : List DumpIn) (t : Nat) (s : State) :
    ∃ z, execCorrelatorDump u dumps t s = .next z ∧ Keeps false (s.advance t) z := by
  unfold execCorrelatorDump
  refine ⟨_, rfl, ?_⟩
  repeat' first
    | with_reducible assumption
    | with_reducible exact Keeps.refl _ _
    | with_reducible apply Keeps.ite
    | (fail_if_no_progress with_reducible apply Keeps.upd)
    | (fail_if_no_progress with_reducible apply Keeps.upd_filter)
    | (fail_if_no_progress with_reducible apply Keeps.upd_filter_all)
    | with_reducible apply State.boundary_keeps
    | with_reducible apply State.advance_keeps
    | (with_reducible refine Keeps.foldl ?_ ?_)
    | (with_reducible refine Keeps.foldl_fst ?_ ?_)
    | (intro u a hu; beta_reduce)
    | (intro u hu; beta_reduce)
    | (fail_if_no_progress dsimp only)

theorem execDumpClear_keeps (ch : Nat) (t : Nat) (s : State) :
    ∃ z, execDumpClear ch t s = .next z ∧ Keeps false (s.advance t) z := by
  unfold execDumpClear
  refine ⟨_, rfl, ?_⟩
  repeat' first
    | with_reducible assumption
    | with_reducible exact Keeps.refl _ _
    | with_reducible apply Keeps.ite
    | (fail_if_no_progress with_reducible apply Keeps.upd)
    | with_reducible apply State.advance_keeps
    | with_reducible apply State.dumpClear_keeps
    | split
    | (fail_if_no_progress dsimp only)

theorem execDumpPop_keeps (g : Nat) (t : Nat) (s : State) :
    ∃ z, execDumpPop g t s = .next z ∧ Keeps false (s.advance t) z := by
  unfold execDumpPop
  refine ⟨_, rfl, ?_⟩
  repeat' first
    | with_reducible assumption
    | with_reducible exact Keeps.refl _ _
    | with_reducible apply Keeps.ite
    | (fail_if_no_progress with_reducible apply Keeps.upd)
    | with_reducible apply State.advance_keeps
    | with_reducible apply State.dumpPop_keeps
    | split
    | (fail_if_no_progress dsimp only)

theorem execChannelSteeringWrite_keeps (g : Nat) (ch : Nat) (codeRate : Option Nat) (carrRate : Option Nat) (word1 : Option Nat) (t : Nat) (s : State) :
    ∃ z, execChannelSteeringWrite g ch codeRate carrRate word1 t s = .next z ∧ Keeps false (s.advance t) z := by
  unfold execChannelSteeringWrite
  refine ⟨_, rfl, ?_⟩
  repeat' first
    | with_reducible assumption
    | with_reducible exact Keeps.refl _ _
    | with_reducible apply Keeps.ite
    | (fail_if_no_progress with_reducible apply Keeps.upd)
    | with_reducible apply State.advance_keeps
    | with_reducible apply State.steerWrite_keeps
    | (extract_lets +onlyGivenNames x; refine Keeps.cut (st := false) (b := (s.advance t)) x ?_ ?_; rotate_left; (clear_value x; intro hx); rotate_left; subst x)
    | (extract_lets +onlyGivenNames x; refine Keeps.cut (st := false) (b := (s.advance t)) x.1 ?_ ?_; rotate_left; (clear_value x; intro hx); rotate_left; subst x)
    | (extract_lets +onlyGivenNames x; refine Keeps.cut (st := false) (b := (s.advance t)) x.2 ?_ ?_; rotate_left; (clear_value x; intro hx); rotate_left; subst x)
    | (extract_lets +onlyGivenNames x; clear_value x)
    | (extract_lets +onlyGivenNames x)
    | split
    | (fail_if_no_progress dsimp only)

theorem execSteerTimeout_keeps (ch : Nat) (t : Nat) (s : State) :
    ∃ z, execSteerTimeout ch t s = .next z ∧ Keeps false (s.advance t) z := by
  unfold execSteerTimeout
  refine ⟨_, rfl, ?_⟩
  repeat' first
    | with_reducible assumption
    | with_reducible exact Keeps.refl _ _
    | with_reducible apply Keeps.ite
    | (fail_if_no_progress with_reducible apply Keeps.upd)
    | with_reducible apply State.advance_keeps
    | with_reducible apply State.setChan_keeps
    | (extract_lets +onlyGivenNames x; refine Keeps.cut (st := false) (b := (s.advance t)) x ?_ ?_; rotate_left; (clear_value x; intro hx); rotate_left; subst x)
    | (extract_lets +onlyGivenNames x; refine Keeps.cut (st := false) (b := (s.advance t)) x.1 ?_ ?_; rotate_left; (clear_value x; intro hx); rotate_left; subst x)
    | (extract_lets +onlyGivenNames x; refine Keeps.cut (st := false) (b := (s.advance t)) x.2 ?_ ?_; rotate_left; (clear_value x; intro hx); rotate_left; subst x)
    | (extract_lets +onlyGivenNames x; clear_value x)
    | (extract_lets +onlyGivenNames x)
    | split
    | (fail_if_no_progress dsimp only)

theorem execChRead_keeps (m : Nat) (ch : Nat) (t : Nat) (s : State) :
    ∃ z, execChRead m ch t s = .next z ∧ Keeps false (s.advance t) z := by
  unfold execChRead
  refine ⟨_, rfl, ?_⟩
  repeat' first
    | with_reducible assumption
    | with_reducible exact Keeps.refl _ _
    | with_reducible apply Keeps.ite
    | (fail_if_no_progress with_reducible apply Keeps.upd)
    | with_reducible apply State.advance_keeps
    | with_reducible apply State.chWrite_keeps
    | (fail_if_no_progress dsimp only)

theorem execChLoad_keeps (m : Nat) (ch : Nat) (t : Nat) (s : State) :
    ∃ z, execChLoad m ch t s = .next z ∧ Keeps false (s.advance t) z := by
  unfold execChLoad
  refine ⟨_, rfl, ?_⟩
  repeat' first
    | with_reducible assumption
    | with_reducible exact Keeps.refl _ _
    | with_reducible apply Keeps.ite
    | (fail_if_no_progress with_reducible apply Keeps.upd)
    | with_reducible apply State.advance_keeps
    | with_reducible apply State.chWrite_keeps
    | (fail_if_no_progress dsimp only)

theorem execChRelease_keeps (m : Nat) (ch : Nat) (t : Nat) (s : State) :
    ∃ z, execChRelease m ch t s = .next z ∧ Keeps false (s.advance t) z := by
  unfold execChRelease
  refine ⟨_, rfl, ?_⟩
  repeat' first
    | with_reducible assumption
    | with_reducible exact Keeps.refl _ _
    | with_reducible apply Keeps.ite
    | (fail_if_no_progress with_reducible apply Keeps.upd)
    | with_reducible apply State.advance_keeps
    | with_reducible apply State.chWrite_keeps
    | (fail_if_no_progress dsimp only)

theorem execChOpNone_keeps (m : Nat) (ch : Nat) (t : Nat) (s : State) :
    ∃ z, execChOpNone m ch t s = .next z ∧ Keeps false (s.advance t) z := by
  unfold execChOpNone
  refine ⟨_, rfl, ?_⟩
  repeat' first
    | with_reducible assumption
    | with_reducible exact Keeps.refl _ _
    | with_reducible apply Keeps.ite
    | (fail_if_no_progress with_reducible apply Keeps.upd)
    | with_reducible apply State.advance_keeps
    | with_reducible apply State.chWrite_keeps
    | (fail_if_no_progress dsimp only)

theorem execChannelStart_keeps (ch : Nat) (sample : Nat) (t : Nat) (s : State) :
    ∃ z, execChannelStart ch sample t s = .next z ∧ Keeps false (s.advance t) z := by
  unfold execChannelStart
  refine ⟨_, rfl, ?_⟩
  repeat' first
    | with_reducible assumption
    | with_reducible exact Keeps.refl _ _
    | with_reducible apply Keeps.ite
    | (fail_if_no_progress with_reducible apply Keeps.upd)
    | with_reducible apply State.advance_keeps
    | with_reducible apply State.setChan_keeps
    | (extract_lets +onlyGivenNames x; refine Keeps.cut (st := false) (b := (s.advance t)) x ?_ ?_; rotate_left; (clear_value x; intro hx); rotate_left; subst x)
    | (extract_lets +onlyGivenNames x; refine Keeps.cut (st := false) (b := (s.advance t)) x.1 ?_ ?_; rotate_left; (clear_value x; intro hx); rotate_left; subst x)
    | (extract_lets +onlyGivenNames x; refine Keeps.cut (st := false) (b := (s.advance t)) x.2 ?_ ?_; rotate_left; (clear_value x; intro hx); rotate_left; subst x)
    | (extract_lets +onlyGivenNames x; clear_value x)
    | (extract_lets +onlyGivenNames x)
    | split
    | (fail_if_no_progress dsimp only)

theorem execBurstStart_keeps (g : Nat) (t : Nat) (s : State) :
    ∃ z, execBurstStart g t s = .next z ∧ Keeps false (s.advance t) z := by
  unfold execBurstStart
  refine ⟨_, rfl, ?_⟩
  repeat' first
    | with_reducible assumption
    | with_reducible exact Keeps.refl _ _
    | with_reducible apply Keeps.ite
    | (fail_if_no_progress with_reducible apply Keeps.upd)
    | with_reducible apply State.advance_keeps
    | with_reducible apply State.seqEvent_keeps
    | with_reducible apply State.beginBurst_keeps
    | (extract_lets +onlyGivenNames x; refine Keeps.cut (st := false) (b := (s.advance t)) x ?_ ?_; rotate_left; (clear_value x; intro hx); rotate_left; subst x)
    | (extract_lets +onlyGivenNames x; refine Keeps.cut (st := false) (b := (s.advance t)) x.1 ?_ ?_; rotate_left; (clear_value x; intro hx); rotate_left; subst x)
    | (extract_lets +onlyGivenNames x; refine Keeps.cut (st := false) (b := (s.advance t)) x.2 ?_ ?_; rotate_left; (clear_value x; intro hx); rotate_left; subst x)
    | (extract_lets +onlyGivenNames x; clear_value x)
    | (extract_lets +onlyGivenNames x)
    | split
    | (fail_if_no_progress dsimp only)

theorem execBurstEnd_keeps (g : Nat) (t : Nat) (s : State) :
    ∃ z, execBurstEnd g t s = .next z ∧ Keeps false (s.advance t) z := by
  unfold execBurstEnd
  refine ⟨_, rfl, ?_⟩
  repeat' first
    | with_reducible assumption
    | with_reducible exact Keeps.refl _ _
    | with_reducible apply Keeps.ite
    | (fail_if_no_progress with_reducible apply Keeps.upd)
    | with_reducible apply State.advance_keeps
    | with_reducible apply State.seqEvent_keeps
    | with_reducible apply State.endBurst_keeps
    | (extract_lets +onlyGivenNames x; refine Keeps.cut (st := false) (b := (s.advance t)) x ?_ ?_; rotate_left; (clear_value x; intro hx); rotate_left; subst x)
    | (extract_lets +onlyGivenNames x; refine Keeps.cut (st := false) (b := (s.advance t)) x.1 ?_ ?_; rotate_left; (clear_value x; intro hx); rotate_left; subst x)
    | (extract_lets +onlyGivenNames x; refine Keeps.cut (st := false) (b := (s.advance t)) x.2 ?_ ?_; rotate_left; (clear_value x; intro hx); rotate_left; subst x)
    | (extract_lets +onlyGivenNames x; clear_value x)
    | (extract_lets +onlyGivenNames x)
    | split
    | (fail_if_no_progress dsimp only)

theorem execGnssNavSend_keeps (g : Nat) (body : List Byte) (t : Nat) (s : State) :
    ∃ z, execGnssNavSend g body t s = .next z ∧ Keeps false (s.advance t) z := by
  unfold execGnssNavSend
  refine ⟨_, rfl, ?_⟩
  repeat' first
    | with_reducible assumption
    | with_reducible exact Keeps.refl _ _
    | with_reducible apply Keeps.ite
    | (fail_if_no_progress with_reducible apply Keeps.upd)
    | with_reducible apply State.advance_keeps
    | with_reducible apply State.postEvent_keeps
    | (extract_lets +onlyGivenNames x; refine Keeps.cut (st := false) (b := (s.advance t)) x ?_ ?_; rotate_left; (clear_value x; intro hx); rotate_left; subst x)
    | (extract_lets +onlyGivenNames x; refine Keeps.cut (st := false) (b := (s.advance t)) x.1 ?_ ?_; rotate_left; (clear_value x; intro hx); rotate_left; subst x)
    | (extract_lets +onlyGivenNames x; refine Keeps.cut (st := false) (b := (s.advance t)) x.2 ?_ ?_; rotate_left; (clear_value x; intro hx); rotate_left; subst x)
    | (extract_lets +onlyGivenNames x; clear_value x)
    | (extract_lets +onlyGivenNames x)
    | split
    | (fail_if_no_progress dsimp only)

theorem execSpoofIndicatorWrite_keeps (g : Nat) (word : Nat) (t : Nat) (s : State) :
    ∃ z, execSpoofIndicatorWrite g word t s = .next z ∧ Keeps false (s.advance t) z := by
  unfold execSpoofIndicatorWrite
  refine ⟨_, rfl, ?_⟩
  repeat' first
    | with_reducible assumption
    | with_reducible exact Keeps.refl _ _
    | with_reducible apply Keeps.ite
    | (fail_if_no_progress with_reducible apply Keeps.upd)
    | with_reducible apply State.advance_keeps
    | with_reducible apply State.writeIndicators_keeps
    | split
    | (fail_if_no_progress dsimp only)

theorem execCompletionWrite_keeps (ring : Nat) (t : Nat) (s : State) :
    ∃ z, execCompletionWrite ring t s = .next z ∧ Keeps true (s.advance t) z := by
  unfold execCompletionWrite
  refine ⟨_, rfl, ?_⟩
  repeat' first
    | with_reducible assumption
    | with_reducible exact Keeps.refl _ _
    | with_reducible apply Keeps.ite
    | (fail_if_no_progress with_reducible apply Keeps.upd)
    | with_reducible apply State.advance_keeps
    | with_reducible apply State.writeCpl_keeps
    | (fail_if_no_progress dsimp only)

theorem execMsixModerationTimeout_keeps (ring : Nat) (t : Nat) (s0 : State) :
    ∃ z, execMsixModerationTimeout ring t s0 = .next z ∧ Keeps false (s0.advance t) z := by
  unfold execMsixModerationTimeout
  refine ⟨_, rfl, ?_⟩
  repeat' first
    | with_reducible assumption
    | with_reducible exact Keeps.refl _ _
    | with_reducible apply Keeps.ite
    | (fail_if_no_progress with_reducible apply Keeps.upd)
    | with_reducible apply State.advance_keeps
    | with_reducible apply State.setRing_keeps
    | with_reducible apply State.msix_keeps
    | (extract_lets +onlyGivenNames x; refine Keeps.cut (st := false) (b := (s0.advance t)) x ?_ ?_; rotate_left; (clear_value x; intro hx); rotate_left; subst x)
    | (extract_lets +onlyGivenNames x; refine Keeps.cut (st := false) (b := (s0.advance t)) x.1 ?_ ?_; rotate_left; (clear_value x; intro hx); rotate_left; subst x)
    | (extract_lets +onlyGivenNames x; refine Keeps.cut (st := false) (b := (s0.advance t)) x.2 ?_ ?_; rotate_left; (clear_value x; intro hx); rotate_left; subst x)
    | (extract_lets +onlyGivenNames x; clear_value x)
    | (extract_lets +onlyGivenNames x)
    | split
    | (refine OKeeps.of_some (by assumption) ?_)
    | (with_reducible refine Keeps.of_pair (by assumption) ?_)
    | (with_reducible refine Keeps.of_pair2 (by assumption) ?_)
    | (fail_if_no_progress dsimp only)

theorem execMsixUnmask_keeps (f : Nat) (what : Nat) (vec : Nat) (t : Nat) (s0 : State) :
    ∃ z, execMsixUnmask f what vec t s0 = .next z ∧ Keeps false (s0.advance t) z := by
  unfold execMsixUnmask
  refine ⟨_, rfl, ?_⟩
  repeat' first
    | with_reducible assumption
    | with_reducible exact Keeps.refl _ _
    | with_reducible apply Keeps.ite
    | (fail_if_no_progress with_reducible apply Keeps.upd)
    | with_reducible apply State.advance_keeps
    | with_reducible apply State.setFn_keeps
    | with_reducible apply State.msix_keeps
    | (with_reducible refine Keeps.foldl ?_ ?_)
    | (with_reducible refine Keeps.foldl_fst ?_ ?_)
    | (intro u a hu; beta_reduce)
    | (intro u hu; beta_reduce)
    | (extract_lets +onlyGivenNames x; refine Keeps.cut (st := false) (b := (s0.advance t)) x ?_ ?_; rotate_left; (clear_value x; intro hx); rotate_left; subst x)
    | (extract_lets +onlyGivenNames x; refine Keeps.cut (st := false) (b := (s0.advance t)) x.1 ?_ ?_; rotate_left; (clear_value x; intro hx); rotate_left; subst x)
    | (extract_lets +onlyGivenNames x; refine Keeps.cut (st := false) (b := (s0.advance t)) x.2 ?_ ?_; rotate_left; (clear_value x; intro hx); rotate_left; subst x)
    | (extract_lets +onlyGivenNames x; clear_value x)
    | (extract_lets +onlyGivenNames x)
    | split
    | (refine OKeeps.of_some (by assumption) ?_)
    | (with_reducible refine Keeps.of_pair (by assumption) ?_)
    | (with_reducible refine Keeps.of_pair2 (by assumption) ?_)
    | (fail_if_no_progress dsimp only)

theorem execEventDeliver_keeps (t : Nat) (s : State) :
    ∃ z, execEventDeliver t s = .next z ∧ Keeps true (s.advance t) z := by
  unfold execEventDeliver
  refine ⟨_, rfl, ?_⟩
  repeat' first
    | with_reducible assumption
    | with_reducible exact Keeps.refl _ _
    | with_reducible apply Keeps.ite
    | (fail_if_no_progress with_reducible apply Keeps.upd)
    | with_reducible apply State.advance_keeps
    | with_reducible apply State.deliverHead_keeps
    | (fail_if_no_progress dsimp only)

theorem execEpochDeliver_keeps (t : Nat) (s : State) :
    ∃ z, execEpochDeliver t s = .next z ∧ Keeps true (s.advance t) z := by
  unfold execEpochDeliver
  refine ⟨_, rfl, ?_⟩
  repeat' first
    | with_reducible assumption
    | with_reducible exact Keeps.refl _ _
    | with_reducible apply Keeps.ite
    | (fail_if_no_progress with_reducible apply Keeps.upd)
    | with_reducible apply State.advance_keeps
    | with_reducible apply State.deliverEpoch_keeps
    | (fail_if_no_progress dsimp only)

theorem execEventFlushTimeout_keeps (ring : Nat) (t : Nat) (s0 : State) :
    ∃ z, execEventFlushTimeout ring t s0 = .next z ∧ Keeps false (s0.advance t) z := by
  unfold execEventFlushTimeout
  refine ⟨_, rfl, ?_⟩
  repeat' first
    | with_reducible assumption
    | with_reducible exact Keeps.refl _ _
    | with_reducible apply Keeps.ite
    | (fail_if_no_progress with_reducible apply Keeps.upd)
    | with_reducible apply State.advance_keeps
    | with_reducible apply State.closeBuf_keeps
    | (extract_lets +onlyGivenNames x; refine Keeps.cut (st := false) (b := (s0.advance t)) x ?_ ?_; rotate_left; (clear_value x; intro hx); rotate_left; subst x)
    | (extract_lets +onlyGivenNames x; refine Keeps.cut (st := false) (b := (s0.advance t)) x.1 ?_ ?_; rotate_left; (clear_value x; intro hx); rotate_left; subst x)
    | (extract_lets +onlyGivenNames x; refine Keeps.cut (st := false) (b := (s0.advance t)) x.2 ?_ ?_; rotate_left; (clear_value x; intro hx); rotate_left; subst x)
    | (extract_lets +onlyGivenNames x; clear_value x)
    | (extract_lets +onlyGivenNames x)
    | split
    | (refine OKeeps.of_some (by assumption) ?_)
    | (with_reducible refine Keeps.of_pair (by assumption) ?_)
    | (with_reducible refine Keeps.of_pair2 (by assumption) ?_)
    | (fail_if_no_progress dsimp only)

theorem execTransmitFrame_keeps (ring : Nat) (dataErr : Option Nat) (poisoned : Bool) (t : Nat) (s : State) :
    ∃ z, execTransmitFrame ring dataErr poisoned t s = .next z ∧ Keeps false (s.advance t) z := by
  unfold execTransmitFrame
  refine ⟨_, rfl, ?_⟩
  repeat' first
    | with_reducible assumption
    | with_reducible exact Keeps.refl _ _
    | with_reducible apply Keeps.ite
    | (fail_if_no_progress with_reducible apply Keeps.upd)
    | with_reducible apply State.advance_keeps
    | with_reducible apply State.transmit_keeps
    | (fail_if_no_progress dsimp only)

theorem execTxLinkTimeout_keeps (id : Nat) (t : Nat) (s0 : State) :
    ∃ z, execTxLinkTimeout id t s0 = .next z ∧ Keeps false (s0.advance t) z := by
  unfold execTxLinkTimeout
  refine ⟨_, rfl, ?_⟩
  repeat' first
    | with_reducible assumption
    | with_reducible exact Keeps.refl _ _
    | with_reducible apply Keeps.ite
    | (fail_if_no_progress with_reducible apply Keeps.upd)
    | with_reducible apply State.advance_keeps
    | with_reducible apply State.dropTx_keeps
    | (extract_lets +onlyGivenNames x; refine Keeps.cut (st := false) (b := (s0.advance t)) x ?_ ?_; rotate_left; (clear_value x; intro hx); rotate_left; subst x)
    | (extract_lets +onlyGivenNames x; refine Keeps.cut (st := false) (b := (s0.advance t)) x.1 ?_ ?_; rotate_left; (clear_value x; intro hx); rotate_left; subst x)
    | (extract_lets +onlyGivenNames x; refine Keeps.cut (st := false) (b := (s0.advance t)) x.2 ?_ ?_; rotate_left; (clear_value x; intro hx); rotate_left; subst x)
    | (extract_lets +onlyGivenNames x; clear_value x)
    | (extract_lets +onlyGivenNames x)
    | split
    | (refine OKeeps.of_some (by assumption) ?_)
    | (with_reducible refine Keeps.of_pair (by assumption) ?_)
    | (with_reducible refine Keeps.of_pair2 (by assumption) ?_)
    | (fail_if_no_progress dsimp only)

theorem execRingDataWrite_keeps (m : Nat) (val : Nat) (t : Nat) (s : State) :
    ∃ z, execRingDataWrite m val t s = .next z ∧ Keeps false (s.advance t) z := by
  unfold execRingDataWrite
  refine ⟨_, rfl, ?_⟩
  repeat' first
    | with_reducible assumption
    | with_reducible exact Keeps.refl _ _
    | with_reducible apply Keeps.ite
    | (fail_if_no_progress with_reducible apply Keeps.upd)
    | with_reducible apply State.advance_keeps
    | with_reducible apply State.hifWrite_keeps
    | with_reducible apply State.ringData_keeps
    | (intro u a hu; beta_reduce)
    | (intro u hu; beta_reduce)
    | (fail_if_no_progress dsimp only)

theorem execRingEnable_keeps (m : Nat) (ring : Nat) (t : Nat) (s : State) :
    ∃ z, execRingEnable m ring t s = .next z ∧ Keeps false (s.advance t) z := by
  unfold execRingEnable
  refine ⟨_, rfl, ?_⟩
  repeat' first
    | with_reducible assumption
    | with_reducible exact Keeps.refl _ _
    | with_reducible apply Keeps.ite
    | (fail_if_no_progress with_reducible apply Keeps.upd)
    | with_reducible apply State.advance_keeps
    | with_reducible apply State.hifWrite_keeps
    | with_reducible apply State.ringEnable_keeps
    | (intro u a hu; beta_reduce)
    | (intro u hu; beta_reduce)
    | (fail_if_no_progress dsimp only)

theorem execRingDisable_keeps (m : Nat) (ring : Nat) (t : Nat) (s : State) :
    ∃ z, execRingDisable m ring t s = .next z ∧ Keeps false (s.advance t) z := by
  unfold execRingDisable
  refine ⟨_, rfl, ?_⟩
  repeat' first
    | with_reducible assumption
    | with_reducible exact Keeps.refl _ _
    | with_reducible apply Keeps.ite
    | (fail_if_no_progress with_reducible apply Keeps.upd)
    | with_reducible apply State.advance_keeps
    | with_reducible apply State.hifWrite_keeps
    | with_reducible apply State.ringDisable_keeps
    | (intro u a hu; beta_reduce)
    | (intro u hu; beta_reduce)
    | (fail_if_no_progress dsimp only)

theorem execRingOpInvalid_keeps (m : Nat) (ring : Nat) (op : Nat) (t : Nat) (s : State) :
    ∃ z, execRingOpInvalid m ring op t s = .next z ∧ Keeps false (s.advance t) z := by
  unfold execRingOpInvalid
  refine ⟨_, rfl, ?_⟩
  repeat' first
    | with_reducible assumption
    | with_reducible exact Keeps.refl _ _
    | with_reducible apply Keeps.ite
    | (fail_if_no_progress with_reducible apply Keeps.upd)
    | with_reducible apply State.advance_keeps
    | with_reducible apply State.hifWrite_keeps
    | with_reducible apply State.ringCtrl_keeps
    | (intro u a hu; beta_reduce)
    | (intro u hu; beta_reduce)
    | split
    | (fail_if_no_progress dsimp only)

theorem execRingDrained_keeps (ring : Nat) (t : Nat) (s0 : State) :
    ∃ z, execRingDrained ring t s0 = .next z ∧ Keeps false (s0.advance t) z := by
  unfold execRingDrained
  refine ⟨_, rfl, ?_⟩
  repeat' first
    | with_reducible assumption
    | with_reducible exact Keeps.refl _ _
    | with_reducible apply Keeps.ite
    | (fail_if_no_progress with_reducible apply Keeps.upd)
    | with_reducible apply State.advance_keeps
    | with_reducible apply State.setRing_keeps
    | (extract_lets +onlyGivenNames x; refine Keeps.cut (st := false) (b := (s0.advance t)) x ?_ ?_; rotate_left; (clear_value x; intro hx); rotate_left; subst x)
    | (extract_lets +onlyGivenNames x; refine Keeps.cut (st := false) (b := (s0.advance t)) x.1 ?_ ?_; rotate_left; (clear_value x; intro hx); rotate_left; subst x)
    | (extract_lets +onlyGivenNames x; refine Keeps.cut (st := false) (b := (s0.advance t)) x.2 ?_ ?_; rotate_left; (clear_value x; intro hx); rotate_left; subst x)
    | (extract_lets +onlyGivenNames x; clear_value x)
    | (extract_lets +onlyGivenNames x)
    | split
    | (fail_if_no_progress dsimp only)

theorem execDoorbellSqTail_keeps (f : Nat) (i : Nat) (index : Nat) (rsvd : Nat) (t : Nat) (s : State) :
    ∃ z, execDoorbellSqTail f i index rsvd t s = .next z ∧ Keeps false (s.advance t) z := by
  unfold execDoorbellSqTail
  refine ⟨_, rfl, ?_⟩
  repeat' first
    | with_reducible assumption
    | with_reducible exact Keeps.refl _ _
    | with_reducible apply Keeps.ite
    | (fail_if_no_progress with_reducible apply Keeps.upd)
    | with_reducible apply State.advance_keeps
    | with_reducible apply State.doorbell_keeps
    | split
    | (fail_if_no_progress dsimp only)

theorem execDoorbellCqHead_keeps (f : Nat) (i : Nat) (index : Nat) (rsvd : Nat) (t : Nat) (s : State) :
    ∃ z, execDoorbellCqHead f i index rsvd t s = .next z ∧ Keeps false (s.advance t) z := by
  unfold execDoorbellCqHead
  refine ⟨_, rfl, ?_⟩
  repeat' first
    | with_reducible assumption
    | with_reducible exact Keeps.refl _ _
    | with_reducible apply Keeps.ite
    | (fail_if_no_progress with_reducible apply Keeps.upd)
    | with_reducible apply State.advance_keeps
    | with_reducible apply State.doorbell_keeps
    | split
    | (fail_if_no_progress dsimp only)

theorem execDescFetch_keeps (ring : Nat) (descErr : Option Nat) (payErr : Option Nat) (t : Nat) (s : State) :
    ∃ z, execDescFetch ring descErr payErr t s = .next z ∧ Keeps false (s.advance t) z := by
  unfold execDescFetch
  refine ⟨_, rfl, ?_⟩
  repeat' first
    | with_reducible assumption
    | with_reducible exact Keeps.refl _ _
    | with_reducible apply Keeps.ite
    | (fail_if_no_progress with_reducible apply Keeps.upd)
    | with_reducible apply State.advance_keeps
    | with_reducible apply State.fetchDesc_keeps
    | (fail_if_no_progress dsimp only)

theorem execNop_keeps (c : HostCmd) (t : Nat) (s : State) :
    ∃ z, execNop c t s = .next z ∧ Keeps false (s.advance t) z := by
  unfold execNop
  refine ⟨_, rfl, ?_⟩
  repeat' first
    | with_reducible assumption
    | with_reducible exact Keeps.refl _ _
    | with_reducible apply Keeps.ite
    | (fail_if_no_progress with_reducible apply Keeps.upd)
    | with_reducible apply State.advance_keeps
    | with_reducible apply State.complete_keeps
    | (fail_if_no_progress dsimp only)

theorem execReceiveFrameWrite_keeps (id : Nat) (t : Nat) (s0 : State) :
    ∃ z, execReceiveFrameWrite id t s0 = .next z ∧ Keeps true (s0.advance t) z := by
  unfold execReceiveFrameWrite
  refine ⟨_, rfl, ?_⟩
  repeat' first
    | with_reducible assumption
    | with_reducible exact Keeps.refl _ _
    | with_reducible apply Keeps.ite
    | (fail_if_no_progress with_reducible apply Keeps.upd)
    | with_reducible apply State.advance_keeps
    | with_reducible apply State.sumpJob_keeps
    | with_reducible apply State.rxWrite_keeps
    | with_reducible apply State.rxStarve_keeps
    | (extract_lets +onlyGivenNames x; refine Keeps.cut (st := true) (b := (s0.advance t)) x ?_ ?_; rotate_left; (clear_value x; intro hx); rotate_left; subst x)
    | (extract_lets +onlyGivenNames x; refine Keeps.cut (st := true) (b := (s0.advance t)) x.1 ?_ ?_; rotate_left; (clear_value x; intro hx); rotate_left; subst x)
    | (extract_lets +onlyGivenNames x; refine Keeps.cut (st := true) (b := (s0.advance t)) x.2 ?_ ?_; rotate_left; (clear_value x; intro hx); rotate_left; subst x)
    | (extract_lets +onlyGivenNames x; clear_value x)
    | (extract_lets +onlyGivenNames x)
    | split
    | (refine OKeeps.of_some (by assumption) ?_)
    | (with_reducible refine Keeps.of_pair (by assumption) ?_)
    | (with_reducible refine Keeps.of_pair2 (by assumption) ?_)
    | (fail_if_no_progress dsimp only)

theorem execRxStarved_keeps (id : Nat) (t : Nat) (s0 : State) :
    ∃ z, execRxStarved id t s0 = .next z ∧ Keeps false (s0.advance t) z := by
  unfold execRxStarved
  refine ⟨_, rfl, ?_⟩
  repeat' first
    | with_reducible assumption
    | with_reducible exact Keeps.refl _ _
    | with_reducible apply Keeps.ite
    | (fail_if_no_progress with_reducible apply Keeps.upd)
    | with_reducible apply State.advance_keeps
    | with_reducible apply State.rxStarve_keeps
    | (extract_lets +onlyGivenNames x; refine Keeps.cut (st := false) (b := (s0.advance t)) x ?_ ?_; rotate_left; (clear_value x; intro hx); rotate_left; subst x)
    | (extract_lets +onlyGivenNames x; refine Keeps.cut (st := false) (b := (s0.advance t)) x.1 ?_ ?_; rotate_left; (clear_value x; intro hx); rotate_left; subst x)
    | (extract_lets +onlyGivenNames x; refine Keeps.cut (st := false) (b := (s0.advance t)) x.2 ?_ ?_; rotate_left; (clear_value x; intro hx); rotate_left; subst x)
    | (extract_lets +onlyGivenNames x; clear_value x)
    | (extract_lets +onlyGivenNames x)
    | split
    | (refine OKeeps.of_some (by assumption) ?_)
    | (with_reducible refine Keeps.of_pair (by assumption) ?_)
    | (with_reducible refine Keeps.of_pair2 (by assumption) ?_)
    | (fail_if_no_progress dsimp only)

theorem execBusMasterClear_keeps (f : Nat) (t : Nat) (s : State) :
    ∃ z, execBusMasterClear f t s = .next z ∧ Keeps false (s.advance t) z := by
  unfold execBusMasterClear
  refine ⟨_, rfl, ?_⟩
  repeat' first
    | with_reducible assumption
    | with_reducible exact Keeps.refl _ _
    | with_reducible apply Keeps.ite
    | (fail_if_no_progress with_reducible apply Keeps.upd)
    | with_reducible apply State.advance_keeps
    | with_reducible apply State.setFn_keeps
    | split
    | (fail_if_no_progress dsimp only)

theorem execBusMasterSet_keeps (f : Nat) (t : Nat) (s : State) :
    ∃ z, execBusMasterSet f t s = .next z ∧ Keeps false (s.advance t) z := by
  unfold execBusMasterSet
  refine ⟨_, rfl, ?_⟩
  repeat' first
    | with_reducible assumption
    | with_reducible exact Keeps.refl _ _
    | with_reducible apply Keeps.ite
    | (fail_if_no_progress with_reducible apply Keeps.upd)
    | with_reducible apply State.advance_keeps
    | with_reducible apply State.setFn_keeps
    | split
    | (fail_if_no_progress dsimp only)

theorem execPcieLinkUp_keeps (gen : Nat) (width : Nat) (numVfs : Nat) (t : Nat) (s0 : State) :
    ∃ z, execPcieLinkUp gen width numVfs t s0 = .next z ∧ Keeps false (s0.advance t) z := by
  unfold execPcieLinkUp
  refine ⟨_, rfl, ?_⟩
  repeat' first
    | with_reducible assumption
    | with_reducible exact Keeps.refl _ _
    | with_reducible apply Keeps.ite
    | (fail_if_no_progress with_reducible apply Keeps.upd)
    | with_reducible apply State.advance_keeps
    | with_reducible apply State.wr_keeps
    | with_reducible apply State.sticky_keeps
    | (extract_lets +onlyGivenNames x; refine Keeps.cut (st := false) (b := (s0.advance t)) x ?_ ?_; rotate_left; (clear_value x; intro hx); rotate_left; subst x)
    | (extract_lets +onlyGivenNames x; refine Keeps.cut (st := false) (b := (s0.advance t)) x.1 ?_ ?_; rotate_left; (clear_value x; intro hx); rotate_left; subst x)
    | (extract_lets +onlyGivenNames x; refine Keeps.cut (st := false) (b := (s0.advance t)) x.2 ?_ ?_; rotate_left; (clear_value x; intro hx); rotate_left; subst x)
    | (extract_lets +onlyGivenNames x; clear_value x)
    | (extract_lets +onlyGivenNames x)
    | split
    | (fail_if_no_progress dsimp only)

theorem execSearch_keeps (c : HostCmd) (t : Nat) (s0 : State) :
    ∃ z, execSearch c t s0 = .next z ∧ Keeps false (s0.advance t) z := by
  unfold execSearch
  refine ⟨_, rfl, ?_⟩
  repeat' first
    | with_reducible assumption
    | with_reducible exact Keeps.refl _ _
    | with_reducible apply Keeps.ite
    | (fail_if_no_progress with_reducible apply Keeps.upd)
    | with_reducible apply State.advance_keeps
    | with_reducible apply State.refuseCfg_keeps
    | with_reducible apply State.complete_keeps
    | with_reducible apply State.takeCmd_keeps
    | with_reducible apply State.setSearches_keeps
    | with_reducible apply State.showSearches_keeps
    | (extract_lets +onlyGivenNames x; refine Keeps.cut (st := false) (b := (s0.advance t)) x ?_ ?_; rotate_left; (clear_value x; intro hx); rotate_left; subst x)
    | (extract_lets +onlyGivenNames x; refine Keeps.cut (st := false) (b := (s0.advance t)) x.1 ?_ ?_; rotate_left; (clear_value x; intro hx); rotate_left; subst x)
    | (extract_lets +onlyGivenNames x; refine Keeps.cut (st := false) (b := (s0.advance t)) x.2 ?_ ?_; rotate_left; (clear_value x; intro hx); rotate_left; subst x)
    | (extract_lets +onlyGivenNames x; clear_value x)
    | (extract_lets +onlyGivenNames x)
    | split
    | (refine OKeeps.of_some (by assumption) ?_)
    | (with_reducible refine Keeps.of_pair (by assumption) ?_)
    | (with_reducible refine Keeps.of_pair2 (by assumption) ?_)
    | (fail_if_no_progress dsimp only)

theorem execSearchCaptureStart_keeps (e : Nat) (t : Nat) (s0 : State) :
    ∃ z, execSearchCaptureStart e t s0 = .next z ∧ Keeps false (s0.advance t) z := by
  unfold execSearchCaptureStart
  refine ⟨_, rfl, ?_⟩
  repeat' first
    | with_reducible assumption
    | with_reducible exact Keeps.refl _ _
    | with_reducible apply Keeps.ite
    | (fail_if_no_progress with_reducible apply Keeps.upd)
    | with_reducible apply State.advance_keeps
    | with_reducible apply State.setSearches_keeps
    | with_reducible apply State.showSearches_keeps
    | (extract_lets +onlyGivenNames x; refine Keeps.cut (st := false) (b := (s0.advance t)) x ?_ ?_; rotate_left; (clear_value x; intro hx); rotate_left; subst x)
    | (extract_lets +onlyGivenNames x; refine Keeps.cut (st := false) (b := (s0.advance t)) x.1 ?_ ?_; rotate_left; (clear_value x; intro hx); rotate_left; subst x)
    | (extract_lets +onlyGivenNames x; refine Keeps.cut (st := false) (b := (s0.advance t)) x.2 ?_ ?_; rotate_left; (clear_value x; intro hx); rotate_left; subst x)
    | (extract_lets +onlyGivenNames x; clear_value x)
    | (extract_lets +onlyGivenNames x)
    | split
    | (refine OKeeps.of_some (by assumption) ?_)
    | (with_reducible refine Keeps.of_pair (by assumption) ?_)
    | (with_reducible refine Keeps.of_pair2 (by assumption) ?_)
    | (fail_if_no_progress dsimp only)

theorem execSearchReport_keeps (e : Nat) (results : List AcqRes) (t : Nat) (s0 : State) :
    ∃ z, execSearchReport e results t s0 = .next z ∧ Keeps true (s0.advance t) z := by
  unfold execSearchReport
  refine ⟨_, rfl, ?_⟩
  repeat' first
    | with_reducible assumption
    | with_reducible exact Keeps.refl _ _
    | with_reducible apply Keeps.ite
    | (fail_if_no_progress with_reducible apply Keeps.upd)
    | with_reducible apply State.advance_keeps
    | with_reducible apply State.count_keeps
    | with_reducible apply State.acqRecords_keeps
    | with_reducible apply State.sticky_keeps
    | with_reducible apply State.endSearch_keeps
    | (extract_lets +onlyGivenNames x; refine Keeps.cut (st := true) (b := (s0.advance t)) x ?_ ?_; rotate_left; (clear_value x; intro hx); rotate_left; subst x)
    | (extract_lets +onlyGivenNames x; refine Keeps.cut (st := true) (b := (s0.advance t)) x.1 ?_ ?_; rotate_left; (clear_value x; intro hx); rotate_left; subst x)
    | (extract_lets +onlyGivenNames x; refine Keeps.cut (st := true) (b := (s0.advance t)) x.2 ?_ ?_; rotate_left; (clear_value x; intro hx); rotate_left; subst x)
    | (extract_lets +onlyGivenNames x; clear_value x)
    | (extract_lets +onlyGivenNames x)
    | split
    | (refine OKeeps.of_some (by assumption) ?_)
    | (with_reducible refine Keeps.of_pair (by assumption) ?_)
    | (with_reducible refine Keeps.of_pair2 (by assumption) ?_)
    | (fail_if_no_progress dsimp only)

theorem execSearchAbort_keeps (c : HostCmd) (t : Nat) (s0 : State) :
    ∃ z, execSearchAbort c t s0 = .next z ∧ Keeps false (s0.advance t) z := by
  unfold execSearchAbort
  refine ⟨_, rfl, ?_⟩
  repeat' first
    | with_reducible assumption
    | with_reducible exact Keeps.refl _ _
    | with_reducible apply Keeps.ite
    | (fail_if_no_progress with_reducible apply Keeps.upd)
    | (fail_if_no_progress with_reducible apply Keeps.upd_filter)
    | (fail_if_no_progress with_reducible apply Keeps.upd_filter_all)
    | with_reducible apply State.advance_keeps
    | with_reducible apply State.abortSearches_keeps
    | with_reducible apply State.complete_keeps
    | with_reducible apply State.refuseCfg_keeps
    | (intro u a hu; beta_reduce)
    | (intro u hu; beta_reduce)
    | (extract_lets +onlyGivenNames x; refine Keeps.cut (st := false) (b := (s0.advance t)) x ?_ ?_; rotate_left; (clear_value x; intro hx); rotate_left; subst x)
    | (extract_lets +onlyGivenNames x; refine Keeps.cut (st := false) (b := (s0.advance t)) x.1 ?_ ?_; rotate_left; (clear_value x; intro hx); rotate_left; subst x)
    | (extract_lets +onlyGivenNames x; refine Keeps.cut (st := false) (b := (s0.advance t)) x.2 ?_ ?_; rotate_left; (clear_value x; intro hx); rotate_left; subst x)
    | (extract_lets +onlyGivenNames x; clear_value x)
    | (extract_lets +onlyGivenNames x)
    | split
    | (fail_if_no_progress dsimp only)

theorem execSamplePortPresent_keeps (p : Nat) (freq : Int) (t : Nat) (s0 : State) :
    ∃ z, execSamplePortPresent p freq t s0 = .next z ∧ Keeps false (s0.advance t) z := by
  unfold execSamplePortPresent
  refine ⟨_, rfl, ?_⟩
  repeat' first
    | with_reducible assumption
    | with_reducible exact Keeps.refl _ _
    | with_reducible apply Keeps.ite
    | (fail_if_no_progress with_reducible apply Keeps.upd)
    | with_reducible apply State.advance_keeps
    | with_reducible apply State.portUp_keeps
    | (extract_lets +onlyGivenNames x; refine Keeps.cut (st := false) (b := (s0.advance t)) x ?_ ?_; rotate_left; (clear_value x; intro hx); rotate_left; subst x)
    | (extract_lets +onlyGivenNames x; refine Keeps.cut (st := false) (b := (s0.advance t)) x.1 ?_ ?_; rotate_left; (clear_value x; intro hx); rotate_left; subst x)
    | (extract_lets +onlyGivenNames x; refine Keeps.cut (st := false) (b := (s0.advance t)) x.2 ?_ ?_; rotate_left; (clear_value x; intro hx); rotate_left; subst x)
    | (extract_lets +onlyGivenNames x; clear_value x)
    | (extract_lets +onlyGivenNames x)
    | split
    | (fail_if_no_progress dsimp only)

theorem execSamplePortLost_keeps (p : Nat) (freq : Option Int) (t : Nat) (s0 : State) :
    ∃ z, execSamplePortLost p freq t s0 = .next z ∧ Keeps false (s0.advance t) z := by
  unfold execSamplePortLost
  refine ⟨_, rfl, ?_⟩
  repeat' first
    | with_reducible assumption
    | with_reducible exact Keeps.refl _ _
    | with_reducible apply Keeps.ite
    | (fail_if_no_progress with_reducible apply Keeps.upd)
    | with_reducible apply State.advance_keeps
    | with_reducible apply State.wr_keeps
    | with_reducible apply State.sticky_keeps
    | with_reducible apply State.portDown_keeps
    | (extract_lets +onlyGivenNames x; refine Keeps.cut (st := false) (b := (s0.advance t)) x ?_ ?_; rotate_left; (clear_value x; intro hx); rotate_left; subst x)
    | (extract_lets +onlyGivenNames x; refine Keeps.cut (st := false) (b := (s0.advance t)) x.1 ?_ ?_; rotate_left; (clear_value x; intro hx); rotate_left; subst x)
    | (extract_lets +onlyGivenNames x; refine Keeps.cut (st := false) (b := (s0.advance t)) x.2 ?_ ?_; rotate_left; (clear_value x; intro hx); rotate_left; subst x)
    | (extract_lets +onlyGivenNames x; clear_value x)
    | (extract_lets +onlyGivenNames x)
    | split
    | (refine OKeeps.of_some (by assumption) ?_)
    | (with_reducible refine Keeps.of_pair (by assumption) ?_)
    | (with_reducible refine Keeps.of_pair2 (by assumption) ?_)
    | (fail_if_no_progress dsimp only)

theorem execSampleTick_keeps (p : Nat) (n : Nat) (clip : Nat) (meanI : Nat) (meanQ : Nat) (freq : Int) (t : Nat) (s0 : State) :
    ∃ z, execSampleTick p n clip meanI meanQ freq t s0 = .next z ∧ Keeps false (s0.advance t) z := by
  unfold execSampleTick
  refine ⟨_, rfl, ?_⟩
  repeat' first
    | with_reducible assumption
    | with_reducible exact Keeps.refl _ _
    | with_reducible apply Keeps.ite
    | (fail_if_no_progress with_reducible apply Keeps.upd)
    | with_reducible apply State.advance_keeps
    | with_reducible apply State.sampleTick_keeps
    | (extract_lets +onlyGivenNames x; refine Keeps.cut (st := false) (b := (s0.advance t)) x ?_ ?_; rotate_left; (clear_value x; intro hx); rotate_left; subst x)
    | (extract_lets +onlyGivenNames x; refine Keeps.cut (st := false) (b := (s0.advance t)) x.1 ?_ ?_; rotate_left; (clear_value x; intro hx); rotate_left; subst x)
    | (extract_lets +onlyGivenNames x; refine Keeps.cut (st := false) (b := (s0.advance t)) x.2 ?_ ?_; rotate_left; (clear_value x; intro hx); rotate_left; subst x)
    | (extract_lets +onlyGivenNames x; clear_value x)
    | (extract_lets +onlyGivenNames x)
    | split
    | (fail_if_no_progress dsimp only)

theorem execStatsSnap_keeps (c : HostCmd) (t : Nat) (s0 : State) :
    ∃ z, execStatsSnap c t s0 = .next z ∧ Keeps true (s0.advance t) z := by
  unfold execStatsSnap
  refine ⟨_, rfl, ?_⟩
  repeat' first
    | with_reducible assumption
    | with_reducible exact Keeps.refl _ _
    | with_reducible apply Keeps.ite
    | (fail_if_no_progress with_reducible apply Keeps.upd)
    | (fail_if_no_progress with_reducible apply Keeps.upd_filter)
    | (fail_if_no_progress with_reducible apply Keeps.upd_filter_all)
    | with_reducible apply State.advance_keeps
    | with_reducible apply State.count_keeps
    | with_reducible apply State.sticky_keeps
    | with_reducible apply State.complete_keeps
    | with_reducible apply State.sendEvent_keeps
    | (with_reducible refine Keeps.foldl ?_ ?_)
    | (with_reducible refine Keeps.foldl_fst ?_ ?_)
    | (intro u a hu; beta_reduce)
    | (intro u hu; beta_reduce)
    | (extract_lets +onlyGivenNames x; refine Keeps.cut (st := true) (b := (s0.advance t)) x ?_ ?_; rotate_left; (clear_value x; intro hx); rotate_left; subst x)
    | (extract_lets +onlyGivenNames x; refine Keeps.cut (st := true) (b := (s0.advance t)) x.1 ?_ ?_; rotate_left; (clear_value x; intro hx); rotate_left; subst x)
    | (extract_lets +onlyGivenNames x; refine Keeps.cut (st := true) (b := (s0.advance t)) x.2 ?_ ?_; rotate_left; (clear_value x; intro hx); rotate_left; subst x)
    | (extract_lets +onlyGivenNames x; clear_value x)
    | (extract_lets +onlyGivenNames x)
    | split
    | (fail_if_no_progress dsimp only)

theorem execStatsPeriodicSnap_keeps (p : Nat) (t : Nat) (s0 : State) :
    ∃ z, execStatsPeriodicSnap p t s0 = .next z ∧ Keeps false (s0.advance t) z := by
  unfold execStatsPeriodicSnap
  refine ⟨_, rfl, ?_⟩
  repeat' first
    | with_reducible assumption
    | with_reducible exact Keeps.refl _ _
    | with_reducible apply Keeps.ite
    | (fail_if_no_progress with_reducible apply Keeps.upd)
    | with_reducible apply State.advance_keeps
    | with_reducible apply State.portSnap_keeps
    | (extract_lets +onlyGivenNames x; refine Keeps.cut (st := false) (b := (s0.advance t)) x ?_ ?_; rotate_left; (clear_value x; intro hx); rotate_left; subst x)
    | (extract_lets +onlyGivenNames x; refine Keeps.cut (st := false) (b := (s0.advance t)) x.1 ?_ ?_; rotate_left; (clear_value x; intro hx); rotate_left; subst x)
    | (extract_lets +onlyGivenNames x; refine Keeps.cut (st := false) (b := (s0.advance t)) x.2 ?_ ?_; rotate_left; (clear_value x; intro hx); rotate_left; subst x)
    | (extract_lets +onlyGivenNames x; clear_value x)
    | (extract_lets +onlyGivenNames x)
    | split
    | (fail_if_no_progress dsimp only)

theorem execCalDone_keeps (p : Nat) (lats : List (Nat × Int)) (ok : Bool) (t : Nat) (s : State) :
    ∃ z, execCalDone p lats ok t s = .next z ∧ Keeps false (s.advance t) z := by
  unfold execCalDone
  refine ⟨_, rfl, ?_⟩
  repeat' first
    | with_reducible assumption
    | with_reducible exact Keeps.refl _ _
    | with_reducible apply Keeps.ite
    | (fail_if_no_progress with_reducible apply Keeps.upd)
    | with_reducible apply State.advance_keeps
    | with_reducible apply State.calDone_keeps
    | split
    | (fail_if_no_progress dsimp only)

theorem execPreemptVerify_keeps (p : Nat) (ok : Bool) (t : Nat) (s : State) :
    ∃ z, execPreemptVerify p ok t s = .next z ∧ Keeps false (s.advance t) z := by
  unfold execPreemptVerify
  refine ⟨_, rfl, ?_⟩
  repeat' first
    | with_reducible assumption
    | with_reducible exact Keeps.refl _ _
    | with_reducible apply Keeps.ite
    | (fail_if_no_progress with_reducible apply Keeps.upd)
    | with_reducible apply State.advance_keeps
    | with_reducible apply State.preemptVerify_keeps
    | split
    | (fail_if_no_progress dsimp only)

theorem execDownshift_keeps (p : Nat) (rxPct : Nat) (txPct : Nat) (t : Nat) (s0 : State) :
    ∃ z, execDownshift p rxPct txPct t s0 = .next z ∧ Keeps false (s0.advance t) z := by
  unfold execDownshift
  refine ⟨_, rfl, ?_⟩
  repeat' first
    | with_reducible assumption
    | with_reducible exact Keeps.refl _ _
    | with_reducible apply Keeps.ite
    | (fail_if_no_progress with_reducible apply Keeps.upd)
    | with_reducible apply State.advance_keeps
    | with_reducible apply State.wr_keeps
    | (extract_lets +onlyGivenNames x; refine Keeps.cut (st := false) (b := (s0.advance t)) x ?_ ?_; rotate_left; (clear_value x; intro hx); rotate_left; subst x)
    | (extract_lets +onlyGivenNames x; refine Keeps.cut (st := false) (b := (s0.advance t)) x.1 ?_ ?_; rotate_left; (clear_value x; intro hx); rotate_left; subst x)
    | (extract_lets +onlyGivenNames x; refine Keeps.cut (st := false) (b := (s0.advance t)) x.2 ?_ ?_; rotate_left; (clear_value x; intro hx); rotate_left; subst x)
    | (extract_lets +onlyGivenNames x; clear_value x)
    | (extract_lets +onlyGivenNames x)
    | split
    | (fail_if_no_progress dsimp only)

theorem execUpshift_keeps (p : Nat) (rxPct : Nat) (txPct : Nat) (t : Nat) (s0 : State) :
    ∃ z, execUpshift p rxPct txPct t s0 = .next z ∧ Keeps false (s0.advance t) z := by
  unfold execUpshift
  refine ⟨_, rfl, ?_⟩
  repeat' first
    | with_reducible assumption
    | with_reducible exact Keeps.refl _ _
    | with_reducible apply Keeps.ite
    | (fail_if_no_progress with_reducible apply Keeps.upd)
    | with_reducible apply State.advance_keeps
    | with_reducible apply State.stat_keeps
    | with_reducible apply State.wr_keeps
    | (extract_lets +onlyGivenNames x; refine Keeps.cut (st := false) (b := (s0.advance t)) x ?_ ?_; rotate_left; (clear_value x; intro hx); rotate_left; subst x)
    | (extract_lets +onlyGivenNames x; refine Keeps.cut (st := false) (b := (s0.advance t)) x.1 ?_ ?_; rotate_left; (clear_value x; intro hx); rotate_left; subst x)
    | (extract_lets +onlyGivenNames x; refine Keeps.cut (st := false) (b := (s0.advance t)) x.2 ?_ ?_; rotate_left; (clear_value x; intro hx); rotate_left; subst x)
    | (extract_lets +onlyGivenNames x; clear_value x)
    | (extract_lets +onlyGivenNames x)
    | split
    | (fail_if_no_progress dsimp only)

theorem execEsmcPduReceive_keeps (id : Nat) (t : Nat) (s0 : State) :
    ∃ z, execEsmcPduReceive id t s0 = .next z ∧ Keeps false (s0.advance t) z := by
  unfold execEsmcPduReceive
  refine ⟨_, rfl, ?_⟩
  repeat' first
    | with_reducible assumption
    | with_reducible exact Keeps.refl _ _
    | with_reducible apply Keeps.ite
    | (fail_if_no_progress with_reducible apply Keeps.upd)
    | with_reducible apply State.advance_keeps
    | with_reducible apply State.esmcTake_keeps
    | (extract_lets +onlyGivenNames x; refine Keeps.cut (st := false) (b := (s0.advance t)) x ?_ ?_; rotate_left; (clear_value x; intro hx); rotate_left; subst x)
    | (extract_lets +onlyGivenNames x; refine Keeps.cut (st := false) (b := (s0.advance t)) x.1 ?_ ?_; rotate_left; (clear_value x; intro hx); rotate_left; subst x)
    | (extract_lets +onlyGivenNames x; refine Keeps.cut (st := false) (b := (s0.advance t)) x.2 ?_ ?_; rotate_left; (clear_value x; intro hx); rotate_left; subst x)
    | (extract_lets +onlyGivenNames x; clear_value x)
    | (extract_lets +onlyGivenNames x)
    | split
    | (refine OKeeps.of_some (by assumption) ?_)
    | (with_reducible refine Keeps.of_pair (by assumption) ?_)
    | (with_reducible refine Keeps.of_pair2 (by assumption) ?_)
    | (fail_if_no_progress dsimp only)

theorem execEsmcTimeout_keeps (p : Nat) (t : Nat) (s0 : State) :
    ∃ z, execEsmcTimeout p t s0 = .next z ∧ Keeps false (s0.advance t) z := by
  unfold execEsmcTimeout
  refine ⟨_, rfl, ?_⟩
  repeat' first
    | with_reducible assumption
    | with_reducible exact Keeps.refl _ _
    | with_reducible apply Keeps.ite
    | (fail_if_no_progress with_reducible apply Keeps.upd)
    | with_reducible apply State.advance_keeps
    | with_reducible apply State.sticky_keeps
    | (extract_lets +onlyGivenNames x; refine Keeps.cut (st := false) (b := (s0.advance t)) x ?_ ?_; rotate_left; (clear_value x; intro hx); rotate_left; subst x)
    | (extract_lets +onlyGivenNames x; refine Keeps.cut (st := false) (b := (s0.advance t)) x.1 ?_ ?_; rotate_left; (clear_value x; intro hx); rotate_left; subst x)
    | (extract_lets +onlyGivenNames x; refine Keeps.cut (st := false) (b := (s0.advance t)) x.2 ?_ ?_; rotate_left; (clear_value x; intro hx); rotate_left; subst x)
    | (extract_lets +onlyGivenNames x; clear_value x)
    | (extract_lets +onlyGivenNames x)
    | split
    | (fail_if_no_progress dsimp only)

theorem execEsmcInfoTx_keeps (p : Nat) (t : Nat) (s0 : State) :
    ∃ z, execEsmcInfoTx p t s0 = .next z ∧ Keeps false (s0.advance t) z := by
  unfold execEsmcInfoTx
  refine ⟨_, rfl, ?_⟩
  repeat' first
    | with_reducible assumption
    | with_reducible exact Keeps.refl _ _
    | with_reducible apply Keeps.ite
    | (fail_if_no_progress with_reducible apply Keeps.upd)
    | with_reducible apply State.advance_keeps
    | with_reducible apply State.esmcSend_keeps
    | (extract_lets +onlyGivenNames x; refine Keeps.cut (st := false) (b := (s0.advance t)) x ?_ ?_; rotate_left; (clear_value x; intro hx); rotate_left; subst x)
    | (extract_lets +onlyGivenNames x; refine Keeps.cut (st := false) (b := (s0.advance t)) x.1 ?_ ?_; rotate_left; (clear_value x; intro hx); rotate_left; subst x)
    | (extract_lets +onlyGivenNames x; refine Keeps.cut (st := false) (b := (s0.advance t)) x.2 ?_ ?_; rotate_left; (clear_value x; intro hx); rotate_left; subst x)
    | (extract_lets +onlyGivenNames x; clear_value x)
    | (extract_lets +onlyGivenNames x)
    | split
    | (fail_if_no_progress dsimp only)

theorem execEsmcEventTx_keeps (p : Nat) (t : Nat) (s0 : State) :
    ∃ z, execEsmcEventTx p t s0 = .next z ∧ Keeps false (s0.advance t) z := by
  unfold execEsmcEventTx
  refine ⟨_, rfl, ?_⟩
  repeat' first
    | with_reducible assumption
    | with_reducible exact Keeps.refl _ _
    | with_reducible apply Keeps.ite
    | (fail_if_no_progress with_reducible apply Keeps.upd)
    | with_reducible apply State.advance_keeps
    | with_reducible apply State.esmcSend_keeps
    | (extract_lets +onlyGivenNames x; refine Keeps.cut (st := false) (b := (s0.advance t)) x ?_ ?_; rotate_left; (clear_value x; intro hx); rotate_left; subst x)
    | (extract_lets +onlyGivenNames x; refine Keeps.cut (st := false) (b := (s0.advance t)) x.1 ?_ ?_; rotate_left; (clear_value x; intro hx); rotate_left; subst x)
    | (extract_lets +onlyGivenNames x; refine Keeps.cut (st := false) (b := (s0.advance t)) x.2 ?_ ?_; rotate_left; (clear_value x; intro hx); rotate_left; subst x)
    | (extract_lets +onlyGivenNames x; clear_value x)
    | (extract_lets +onlyGivenNames x)
    | split
    | (fail_if_no_progress dsimp only)

theorem execMint_keeps (c : HostCmd) (keyErr : Option Nat) (outAfter : Option Nat) (t : Nat) (s0 : State) :
    ∃ z, execMint c keyErr outAfter t s0 = .next z ∧ Keeps true (s0.advance t) z := by
  unfold execMint
  refine ⟨_, rfl, ?_⟩
  repeat' first
    | with_reducible assumption
    | with_reducible exact Keeps.refl _ _
    | with_reducible apply Keeps.ite
    | (fail_if_no_progress with_reducible apply Keeps.upd)
    | with_reducible apply State.advance_keeps
    | with_reducible apply State.refuseCfg_keeps
    | with_reducible apply State.mkPoison_keeps
    | with_reducible apply State.sticky_keeps
    | with_reducible apply State.poisonSeen_keeps
    | with_reducible apply State.dmaAbort_keeps
    | with_reducible apply State.complete_keeps
    | with_reducible apply State.mintMany_keeps
    | with_reducible apply State.setBytes_keeps
    | with_reducible apply State.bump_keeps
    | (extract_lets +onlyGivenNames x; refine Keeps.cut (st := true) (b := (s0.advance t)) x ?_ ?_; rotate_left; (clear_value x; intro hx); rotate_left; subst x)
    | (extract_lets +onlyGivenNames x; refine Keeps.cut (st := true) (b := (s0.advance t)) x.1 ?_ ?_; rotate_left; (clear_value x; intro hx); rotate_left; subst x)
    | (extract_lets +onlyGivenNames x; refine Keeps.cut (st := true) (b := (s0.advance t)) x.2 ?_ ?_; rotate_left; (clear_value x; intro hx); rotate_left; subst x)
    | (extract_lets +onlyGivenNames x; clear_value x)
    | (extract_lets +onlyGivenNames x)
    | split
    | (refine OKeeps.of_some (by assumption) ?_)
    | (with_reducible refine Keeps.of_pair (by assumption) ?_)
    | (with_reducible refine Keeps.of_pair2 (by assumption) ?_)
    | (fail_if_no_progress dsimp only)

theorem execRotate_keeps (c : HostCmd) (t : Nat) (s0 : State) :
    ∃ z, execRotate c t s0 = .next z ∧ Keeps false (s0.advance t) z := by
  unfold execRotate
  refine ⟨_, rfl, ?_⟩
  repeat' first
    | with_reducible assumption
    | with_reducible exact Keeps.refl _ _
    | with_reducible apply Keeps.ite
    | (fail_if_no_progress with_reducible apply Keeps.upd)
    | with_reducible apply State.advance_keeps
    | with_reducible apply State.refuseCfg_keeps
    | with_reducible apply State.complete_keeps
    | with_reducible apply State.wr_keeps
    | (extract_lets +onlyGivenNames x; refine Keeps.cut (st := false) (b := (s0.advance t)) x ?_ ?_; rotate_left; (clear_value x; intro hx); rotate_left; subst x)
    | (extract_lets +onlyGivenNames x; refine Keeps.cut (st := false) (b := (s0.advance t)) x.1 ?_ ?_; rotate_left; (clear_value x; intro hx); rotate_left; subst x)
    | (extract_lets +onlyGivenNames x; refine Keeps.cut (st := false) (b := (s0.advance t)) x.2 ?_ ?_; rotate_left; (clear_value x; intro hx); rotate_left; subst x)
    | (extract_lets +onlyGivenNames x; clear_value x)
    | (extract_lets +onlyGivenNames x)
    | split
    | (fail_if_no_progress dsimp only)

theorem execRotateComplete_keeps (ok : Bool) (t : Nat) (s0 : State) :
    ∃ z, execRotateComplete ok t s0 = .next z ∧ Keeps false (s0.advance t) z := by
  unfold execRotateComplete
  refine ⟨_, rfl, ?_⟩
  repeat' first
    | with_reducible assumption
    | with_reducible exact Keeps.refl _ _
    | with_reducible apply Keeps.ite
    | (fail_if_no_progress with_reducible apply Keeps.upd)
    | with_reducible apply State.advance_keeps
    | with_reducible apply State.rotateDone_keeps
    | (extract_lets +onlyGivenNames x; refine Keeps.cut (st := false) (b := (s0.advance t)) x ?_ ?_; rotate_left; (clear_value x; intro hx); rotate_left; subst x)
    | (extract_lets +onlyGivenNames x; refine Keeps.cut (st := false) (b := (s0.advance t)) x.1 ?_ ?_; rotate_left; (clear_value x; intro hx); rotate_left; subst x)
    | (extract_lets +onlyGivenNames x; refine Keeps.cut (st := false) (b := (s0.advance t)) x.2 ?_ ?_; rotate_left; (clear_value x; intro hx); rotate_left; subst x)
    | (extract_lets +onlyGivenNames x; clear_value x)
    | (extract_lets +onlyGivenNames x)
    | split
    | (refine OKeeps.of_some (by assumption) ?_)
    | (with_reducible refine Keeps.of_pair (by assumption) ?_)
    | (with_reducible refine Keeps.of_pair2 (by assumption) ?_)
    | (fail_if_no_progress dsimp only)

theorem execPipeKat_keeps (p : Nat) (ok : Bool) (t : Nat) (s0 : State) :
    ∃ z, execPipeKat p ok t s0 = .next z ∧ Keeps false (s0.advance t) z := by
  unfold execPipeKat
  refine ⟨_, rfl, ?_⟩
  repeat' first
    | with_reducible assumption
    | with_reducible exact Keeps.refl _ _
    | with_reducible apply Keeps.ite
    | (fail_if_no_progress with_reducible apply Keeps.upd)
    | with_reducible apply State.advance_keeps
    | with_reducible apply State.pipeOps_keeps
    | with_reducible apply State.pipeFail_keeps
    | (extract_lets +onlyGivenNames x; refine Keeps.cut (st := false) (b := (s0.advance t)) x ?_ ?_; rotate_left; (clear_value x; intro hx); rotate_left; subst x)
    | (extract_lets +onlyGivenNames x; refine Keeps.cut (st := false) (b := (s0.advance t)) x.1 ?_ ?_; rotate_left; (clear_value x; intro hx); rotate_left; subst x)
    | (extract_lets +onlyGivenNames x; refine Keeps.cut (st := false) (b := (s0.advance t)) x.2 ?_ ?_; rotate_left; (clear_value x; intro hx); rotate_left; subst x)
    | (extract_lets +onlyGivenNames x; clear_value x)
    | (extract_lets +onlyGivenNames x)
    | split
    | (fail_if_no_progress dsimp only)

theorem execCalendarHandoff_keeps (src : CalSrc) (t : Nat) (s : State) :
    ∃ z, execCalendarHandoff src t s = .next z ∧ Keeps false (s.advance t) z := by
  unfold execCalendarHandoff
  refine ⟨_, rfl, ?_⟩
  repeat' first
    | with_reducible assumption
    | with_reducible exact Keeps.refl _ _
    | with_reducible apply Keeps.ite
    | (fail_if_no_progress with_reducible apply Keeps.upd)
    | with_reducible apply State.advance_keeps
    | with_reducible apply State.handoff_keeps
    | (fail_if_no_progress dsimp only)

theorem execGrantExpiry_keeps (idx : Nat) (typ : Nat) (t : Nat) (s0 : State) :
    ∃ z, execGrantExpiry idx typ t s0 = .next z ∧ Keeps false (s0.advance t) z := by
  unfold execGrantExpiry
  refine ⟨_, rfl, ?_⟩
  repeat' first
    | with_reducible assumption
    | with_reducible exact Keeps.refl _ _
    | with_reducible apply Keeps.ite
    | (fail_if_no_progress with_reducible apply Keeps.upd)
    | with_reducible apply State.advance_keeps
    | with_reducible apply State.setGrant_keeps
    | with_reducible apply State.showGrants_keeps
    | (extract_lets +onlyGivenNames x; refine Keeps.cut (st := false) (b := (s0.advance t)) x ?_ ?_; rotate_left; (clear_value x; intro hx); rotate_left; subst x)
    | (extract_lets +onlyGivenNames x; refine Keeps.cut (st := false) (b := (s0.advance t)) x.1 ?_ ?_; rotate_left; (clear_value x; intro hx); rotate_left; subst x)
    | (extract_lets +onlyGivenNames x; refine Keeps.cut (st := false) (b := (s0.advance t)) x.2 ?_ ?_; rotate_left; (clear_value x; intro hx); rotate_left; subst x)
    | (extract_lets +onlyGivenNames x; clear_value x)
    | (extract_lets +onlyGivenNames x)
    | split
    | (fail_if_no_progress dsimp only)

theorem execGrantScrubVisit_keeps (idx : Nat) (t : Nat) (s0 : State) :
    ∃ z, execGrantScrubVisit idx t s0 = .next z ∧ Keeps false (s0.advance t) z := by
  unfold execGrantScrubVisit
  refine ⟨_, rfl, ?_⟩
  repeat' first
    | with_reducible assumption
    | with_reducible exact Keeps.refl _ _
    | with_reducible apply Keeps.ite
    | (fail_if_no_progress with_reducible apply Keeps.upd)
    | with_reducible apply State.advance_keeps
    | with_reducible apply State.freeGrant_keeps
    | with_reducible apply State.bumpF_keeps
    | (extract_lets +onlyGivenNames x; refine Keeps.cut (st := false) (b := (s0.advance t)) x ?_ ?_; rotate_left; (clear_value x; intro hx); rotate_left; subst x)
    | (extract_lets +onlyGivenNames x; refine Keeps.cut (st := false) (b := (s0.advance t)) x.1 ?_ ?_; rotate_left; (clear_value x; intro hx); rotate_left; subst x)
    | (extract_lets +onlyGivenNames x; refine Keeps.cut (st := false) (b := (s0.advance t)) x.2 ?_ ?_; rotate_left; (clear_value x; intro hx); rotate_left; subst x)
    | (extract_lets +onlyGivenNames x; clear_value x)
    | (extract_lets +onlyGivenNames x)
    | split
    | (fail_if_no_progress dsimp only)

theorem execGrantFree_keeps (m : Nat) (idx : Nat) (t : Nat) (s0 : State) :
    ∃ z, execGrantFree m idx t s0 = .next z ∧ Keeps false (s0.advance t) z := by
  unfold execGrantFree
  refine ⟨_, rfl, ?_⟩
  repeat' first
    | with_reducible assumption
    | with_reducible exact Keeps.refl _ _
    | with_reducible apply Keeps.ite
    | (fail_if_no_progress with_reducible apply Keeps.upd)
    | with_reducible apply State.advance_keeps
    | with_reducible apply State.grantCmd_keeps
    | with_reducible apply State.freeGrant_keeps
    | (intro u a hu; beta_reduce)
    | (intro u hu; beta_reduce)
    | (extract_lets +onlyGivenNames x; refine Keeps.cut (st := false) (b := (s0.advance t)) x ?_ ?_; rotate_left; (clear_value x; intro hx); rotate_left; subst x)
    | (extract_lets +onlyGivenNames x; refine Keeps.cut (st := false) (b := (s0.advance t)) x.1 ?_ ?_; rotate_left; (clear_value x; intro hx); rotate_left; subst x)
    | (extract_lets +onlyGivenNames x; refine Keeps.cut (st := false) (b := (s0.advance t)) x.2 ?_ ?_; rotate_left; (clear_value x; intro hx); rotate_left; subst x)
    | (extract_lets +onlyGivenNames x; clear_value x)
    | (extract_lets +onlyGivenNames x)
    | split
    | (fail_if_no_progress dsimp only)

theorem execGrantCancel_keeps (m : Nat) (idx : Nat) (t : Nat) (s0 : State) :
    ∃ z, execGrantCancel m idx t s0 = .next z ∧ Keeps false (s0.advance t) z := by
  unfold execGrantCancel
  refine ⟨_, rfl, ?_⟩
  repeat' first
    | with_reducible assumption
    | with_reducible exact Keeps.refl _ _
    | with_reducible apply Keeps.ite
    | (fail_if_no_progress with_reducible apply Keeps.upd)
    | with_reducible apply State.advance_keeps
    | with_reducible apply State.grantCmd_keeps
    | with_reducible apply State.cancelEntry_keeps
    | (intro u a hu; beta_reduce)
    | (intro u hu; beta_reduce)
    | (extract_lets +onlyGivenNames x; refine Keeps.cut (st := false) (b := (s0.advance t)) x ?_ ?_; rotate_left; (clear_value x; intro hx); rotate_left; subst x)
    | (extract_lets +onlyGivenNames x; refine Keeps.cut (st := false) (b := (s0.advance t)) x.1 ?_ ?_; rotate_left; (clear_value x; intro hx); rotate_left; subst x)
    | (extract_lets +onlyGivenNames x; refine Keeps.cut (st := false) (b := (s0.advance t)) x.2 ?_ ?_; rotate_left; (clear_value x; intro hx); rotate_left; subst x)
    | (extract_lets +onlyGivenNames x; clear_value x)
    | (extract_lets +onlyGivenNames x)
    | split
    | (fail_if_no_progress dsimp only)

theorem execGrantCancelDomain_keeps (m : Nat) (dom : Nat) (t : Nat) (s0 : State) :
    ∃ z, execGrantCancelDomain m dom t s0 = .next z ∧ Keeps false (s0.advance t) z := by
  unfold execGrantCancelDomain
  refine ⟨_, rfl, ?_⟩
  repeat' first
    | with_reducible assumption
    | with_reducible exact Keeps.refl _ _
    | with_reducible apply Keeps.ite
    | (fail_if_no_progress with_reducible apply Keeps.upd)
    | (fail_if_no_progress with_reducible apply Keeps.upd_filter)
    | (fail_if_no_progress with_reducible apply Keeps.upd_filter_all)
    | with_reducible apply State.advance_keeps
    | with_reducible apply State.grantCmd_keeps
    | with_reducible apply State.cancelEntry_keeps
    | (with_reducible refine Keeps.foldl ?_ ?_)
    | (with_reducible refine Keeps.foldl_fst ?_ ?_)
    | (intro u a hu; beta_reduce)
    | (intro u hu; beta_reduce)
    | (extract_lets +onlyGivenNames x; refine Keeps.cut (st := false) (b := (s0.advance t)) x ?_ ?_; rotate_left; (clear_value x; intro hx); rotate_left; subst x)
    | (extract_lets +onlyGivenNames x; refine Keeps.cut (st := false) (b := (s0.advance t)) x.1 ?_ ?_; rotate_left; (clear_value x; intro hx); rotate_left; subst x)
    | (extract_lets +onlyGivenNames x; refine Keeps.cut (st := false) (b := (s0.advance t)) x.2 ?_ ?_; rotate_left; (clear_value x; intro hx); rotate_left; subst x)
    | (extract_lets +onlyGivenNames x; clear_value x)
    | (extract_lets +onlyGivenNames x)
    | split
    | (fail_if_no_progress dsimp only)

theorem execGrantCmdNone_keeps (m : Nat) (idx : Nat) (t : Nat) (s0 : State) :
    ∃ z, execGrantCmdNone m idx t s0 = .next z ∧ Keeps false (s0.advance t) z := by
  unfold execGrantCmdNone
  refine ⟨_, rfl, ?_⟩
  repeat' first
    | with_reducible assumption
    | with_reducible exact Keeps.refl _ _
    | with_reducible apply Keeps.ite
    | (fail_if_no_progress with_reducible apply Keeps.upd)
    | with_reducible apply State.advance_keeps
    | with_reducible apply State.grantCmd_keeps
    | (intro u a hu; beta_reduce)
    | (intro u hu; beta_reduce)
    | (fail_if_no_progress dsimp only)

theorem execUpstreamRenew_keeps (u : Nat) (typ : Nat) (t : Nat) (s0 : State) :
    ∃ z, execUpstreamRenew u typ t s0 = .next z ∧ Keeps false (s0.advance t) z := by
  unfold execUpstreamRenew
  refine ⟨_, rfl, ?_⟩
  repeat' first
    | with_reducible assumption
    | with_reducible exact Keeps.refl _ _
    | with_reducible apply Keeps.ite
    | (fail_if_no_progress with_reducible apply Keeps.upd)
    | with_reducible apply State.advance_keeps
    | with_reducible apply State.upAsk_keeps
    | (extract_lets +onlyGivenNames x; refine Keeps.cut (st := false) (b := (s0.advance t)) x ?_ ?_; rotate_left; (clear_value x; intro hx); rotate_left; subst x)
    | (extract_lets +onlyGivenNames x; refine Keeps.cut (st := false) (b := (s0.advance t)) x.1 ?_ ?_; rotate_left; (clear_value x; intro hx); rotate_left; subst x)
    | (extract_lets +onlyGivenNames x; refine Keeps.cut (st := false) (b := (s0.advance t)) x.2 ?_ ?_; rotate_left; (clear_value x; intro hx); rotate_left; subst x)
    | (extract_lets +onlyGivenNames x; clear_value x)
    | (extract_lets +onlyGivenNames x)
    | split
    | (fail_if_no_progress dsimp only)

theorem execUpstreamRetry_keeps (u : Nat) (typ : Nat) (t : Nat) (s0 : State) :
    ∃ z, execUpstreamRetry u typ t s0 = .next z ∧ Keeps false (s0.advance t) z := by
  unfold execUpstreamRetry
  refine ⟨_, rfl, ?_⟩
  repeat' first
    | with_reducible assumption
    | with_reducible exact Keeps.refl _ _
    | with_reducible apply Keeps.ite
    | (fail_if_no_progress with_reducible apply Keeps.upd)
    | with_reducible apply State.advance_keeps
    | with_reducible apply State.upGranted_keeps
    | with_reducible apply State.sticky_keeps
    | with_reducible apply State.upAsk_keeps
    | (extract_lets +onlyGivenNames x; refine Keeps.cut (st := false) (b := (s0.advance t)) x ?_ ?_; rotate_left; (clear_value x; intro hx); rotate_left; subst x)
    | (extract_lets +onlyGivenNames x; refine Keeps.cut (st := false) (b := (s0.advance t)) x.1 ?_ ?_; rotate_left; (clear_value x; intro hx); rotate_left; subst x)
    | (extract_lets +onlyGivenNames x; refine Keeps.cut (st := false) (b := (s0.advance t)) x.2 ?_ ?_; rotate_left; (clear_value x; intro hx); rotate_left; subst x)
    | (extract_lets +onlyGivenNames x; clear_value x)
    | (extract_lets +onlyGivenNames x)
    | split
    | (fail_if_no_progress dsimp only)

theorem execAnnounceTimeout_keeps (u : Nat) (t : Nat) (s0 : State) :
    ∃ z, execAnnounceTimeout u t s0 = .next z ∧ Keeps false (s0.advance t) z := by
  unfold execAnnounceTimeout
  refine ⟨_, rfl, ?_⟩
  repeat' first
    | with_reducible assumption
    | with_reducible exact Keeps.refl _ _
    | with_reducible apply Keeps.ite
    | (fail_if_no_progress with_reducible apply Keeps.upd)
    | with_reducible apply State.advance_keeps
    | with_reducible apply State.wr_keeps
    | with_reducible apply State.sticky_keeps
    | (extract_lets +onlyGivenNames x; refine Keeps.cut (st := false) (b := (s0.advance t)) x ?_ ?_; rotate_left; (clear_value x; intro hx); rotate_left; subst x)
    | (extract_lets +onlyGivenNames x; refine Keeps.cut (st := false) (b := (s0.advance t)) x.1 ?_ ?_; rotate_left; (clear_value x; intro hx); rotate_left; subst x)
    | (extract_lets +onlyGivenNames x; refine Keeps.cut (st := false) (b := (s0.advance t)) x.2 ?_ ?_; rotate_left; (clear_value x; intro hx); rotate_left; subst x)
    | (extract_lets +onlyGivenNames x; clear_value x)
    | (extract_lets +onlyGivenNames x)
    | split
    | (fail_if_no_progress dsimp only)

theorem execLimitScrubVisit_keeps (q : Nat) (bucket : Nat) (t : Nat) (s0 : State) :
    ∃ z, execLimitScrubVisit q bucket t s0 = .next z ∧ Keeps false (s0.advance t) z := by
  unfold execLimitScrubVisit
  refine ⟨_, rfl, ?_⟩
  repeat' first
    | with_reducible assumption
    | with_reducible exact Keeps.refl _ _
    | with_reducible apply Keeps.ite
    | (fail_if_no_progress with_reducible apply Keeps.upd)
    | with_reducible apply State.advance_keeps
    | with_reducible apply State.setBucket_keeps
    | with_reducible apply State.bumpF_keeps
    | (extract_lets +onlyGivenNames x; refine Keeps.cut (st := false) (b := (s0.advance t)) x ?_ ?_; rotate_left; (clear_value x; intro hx); rotate_left; subst x)
    | (extract_lets +onlyGivenNames x; refine Keeps.cut (st := false) (b := (s0.advance t)) x.1 ?_ ?_; rotate_left; (clear_value x; intro hx); rotate_left; subst x)
    | (extract_lets +onlyGivenNames x; refine Keeps.cut (st := false) (b := (s0.advance t)) x.2 ?_ ?_; rotate_left; (clear_value x; intro hx); rotate_left; subst x)
    | (extract_lets +onlyGivenNames x; clear_value x)
    | (extract_lets +onlyGivenNames x)
    | split
    | (fail_if_no_progress dsimp only)

theorem execRequestArrival_keeps (id : Nat) (t : Nat) (s0 : State) :
    ∃ z, execRequestArrival id t s0 = .next z ∧ Keeps false (s0.advance t) z := by
  unfold execRequestArrival
  refine ⟨_, rfl, ?_⟩
  repeat' first
    | with_reducible assumption
    | with_reducible exact Keeps.refl _ _
    | with_reducible apply Keeps.ite
    | (fail_if_no_progress with_reducible apply Keeps.upd)
    | with_reducible apply State.advance_keeps
    | with_reducible apply State.arrive_keeps
    | with_reducible apply State.sticky_keeps
    | (extract_lets +onlyGivenNames x; refine Keeps.cut (st := false) (b := (s0.advance t)) x ?_ ?_; rotate_left; (clear_value x; intro hx); rotate_left; subst x)
    | (extract_lets +onlyGivenNames x; refine Keeps.cut (st := false) (b := (s0.advance t)) x.1 ?_ ?_; rotate_left; (clear_value x; intro hx); rotate_left; subst x)
    | (extract_lets +onlyGivenNames x; refine Keeps.cut (st := false) (b := (s0.advance t)) x.2 ?_ ?_; rotate_left; (clear_value x; intro hx); rotate_left; subst x)
    | (extract_lets +onlyGivenNames x; clear_value x)
    | (extract_lets +onlyGivenNames x)
    | split
    | (refine OKeeps.of_some (by assumption) ?_)
    | (refine Stage4.Keeps.of_done (by assumption) ?_)
    | (with_reducible refine Keeps.of_pair (by assumption) ?_)
    | (with_reducible refine Keeps.of_pair2 (by assumption) ?_)
    | (fail_if_no_progress dsimp only)

theorem execSideBufferExpire_keeps (id : Nat) (t : Nat) (s0 : State) :
    ∃ z, execSideBufferExpire id t s0 = .next z ∧ Keeps false (s0.advance t) z := by
  unfold execSideBufferExpire
  refine ⟨_, rfl, ?_⟩
  repeat' first
    | with_reducible assumption
    | with_reducible exact Keeps.refl _ _
    | with_reducible apply Keeps.ite
    | (fail_if_no_progress with_reducible apply Keeps.upd)
    | with_reducible apply State.advance_keeps
    | with_reducible apply State.expireJob_keeps
    | (extract_lets +onlyGivenNames x; refine Keeps.cut (st := false) (b := (s0.advance t)) x ?_ ?_; rotate_left; (clear_value x; intro hx); rotate_left; subst x)
    | (extract_lets +onlyGivenNames x; refine Keeps.cut (st := false) (b := (s0.advance t)) x.1 ?_ ?_; rotate_left; (clear_value x; intro hx); rotate_left; subst x)
    | (extract_lets +onlyGivenNames x; refine Keeps.cut (st := false) (b := (s0.advance t)) x.2 ?_ ?_; rotate_left; (clear_value x; intro hx); rotate_left; subst x)
    | (extract_lets +onlyGivenNames x; clear_value x)
    | (extract_lets +onlyGivenNames x)
    | split
    | (refine OKeeps.of_some (by assumption) ?_)
    | (refine Stage4.Keeps.of_done (by assumption) ?_)
    | (with_reducible refine Keeps.of_pair (by assumption) ?_)
    | (with_reducible refine Keeps.of_pair2 (by assumption) ?_)
    | (fail_if_no_progress dsimp only)

theorem execReqActionBuild_keeps (n : Nat) (t : Nat) (s0 : State) :
    ∃ z, execReqActionBuild n t s0 = .next z ∧ Keeps false (s0.advance t) z := by
  unfold execReqActionBuild
  refine ⟨_, rfl, ?_⟩
  repeat' first
    | with_reducible assumption
    | with_reducible exact Keeps.refl _ _
    | with_reducible apply Keeps.ite
    | (fail_if_no_progress with_reducible apply Keeps.upd)
    | with_reducible apply State.advance_keeps
    | with_reducible apply State.qTake_keeps
    | with_reducible apply State.putJob_keeps
    | with_reducible apply State.itemOwe_keeps
    | with_reducible apply State.pump_keeps
    | (extract_lets +onlyGivenNames x; refine Keeps.cut (st := false) (b := (s0.advance t)) x ?_ ?_; rotate_left; (clear_value x; intro hx); rotate_left; subst x)
    | (extract_lets +onlyGivenNames x; refine Keeps.cut (st := false) (b := (s0.advance t)) x.1 ?_ ?_; rotate_left; (clear_value x; intro hx); rotate_left; subst x)
    | (extract_lets +onlyGivenNames x; refine Keeps.cut (st := false) (b := (s0.advance t)) x.2 ?_ ?_; rotate_left; (clear_value x; intro hx); rotate_left; subst x)
    | (extract_lets +onlyGivenNames x; clear_value x)
    | (extract_lets +onlyGivenNames x)
    | split
    | (refine OKeeps.of_some (by assumption) ?_)
    | (refine Stage4.Keeps.of_done (by assumption) ?_)
    | (with_reducible refine Keeps.of_pair (by assumption) ?_)
    | (with_reducible refine Keeps.of_pair2 (by assumption) ?_)
    | (fail_if_no_progress dsimp only)

theorem execReqActionSlowPath_keeps (n : Nat) (t : Nat) (s0 : State) :
    ∃ z, execReqActionSlowPath n t s0 = .next z ∧ Keeps false (s0.advance t) z := by
  unfold execReqActionSlowPath
  refine ⟨_, rfl, ?_⟩
  repeat' first
    | with_reducible assumption
    | with_reducible exact Keeps.refl _ _
    | with_reducible apply Keeps.ite
    | (fail_if_no_progress with_reducible apply Keeps.upd)
    | with_reducible apply State.advance_keeps
    | with_reducible apply State.qTake_keeps
    | with_reducible apply State.enterSlow_keeps
    | with_reducible apply State.itemEnd_keeps
    | with_reducible apply State.pump_keeps
    | with_reducible apply State.sticky_keeps
    | (extract_lets +onlyGivenNames x; refine Keeps.cut (st := false) (b := (s0.advance t)) x ?_ ?_; rotate_left; (clear_value x; intro hx); rotate_left; subst x)
    | (extract_lets +onlyGivenNames x; refine Keeps.cut (st := false) (b := (s0.advance t)) x.1 ?_ ?_; rotate_left; (clear_value x; intro hx); rotate_left; subst x)
    | (extract_lets +onlyGivenNames x; refine Keeps.cut (st := false) (b := (s0.advance t)) x.2 ?_ ?_; rotate_left; (clear_value x; intro hx); rotate_left; subst x)
    | (extract_lets +onlyGivenNames x; clear_value x)
    | (extract_lets +onlyGivenNames x)
    | split
    | (refine OKeeps.of_some (by assumption) ?_)
    | (refine Stage4.Keeps.of_done (by assumption) ?_)
    | (with_reducible refine Keeps.of_pair (by assumption) ?_)
    | (with_reducible refine Keeps.of_pair2 (by assumption) ?_)
    | (fail_if_no_progress dsimp only)

theorem execReqActionDiscard_keeps (n : Nat) (reason : Nat) (t : Nat) (s0 : State) :
    ∃ z, execReqActionDiscard n reason t s0 = .next z ∧ Keeps false (s0.advance t) z := by
  unfold execReqActionDiscard
  refine ⟨_, rfl, ?_⟩
  repeat' first
    | with_reducible assumption
    | with_reducible exact Keeps.refl _ _
    | with_reducible apply Keeps.ite
    | (fail_if_no_progress with_reducible apply Keeps.upd)
    | with_reducible apply State.advance_keeps
    | with_reducible apply State.sumpJob_keeps
    | with_reducible apply State.itemEnd_keeps
    | (extract_lets +onlyGivenNames x; refine Keeps.cut (st := false) (b := (s0.advance t)) x ?_ ?_; rotate_left; (clear_value x; intro hx); rotate_left; subst x)
    | (extract_lets +onlyGivenNames x; refine Keeps.cut (st := false) (b := (s0.advance t)) x.1 ?_ ?_; rotate_left; (clear_value x; intro hx); rotate_left; subst x)
    | (extract_lets +onlyGivenNames x; refine Keeps.cut (st := false) (b := (s0.advance t)) x.2 ?_ ?_; rotate_left; (clear_value x; intro hx); rotate_left; subst x)
    | (extract_lets +onlyGivenNames x; clear_value x)
    | (extract_lets +onlyGivenNames x)
    | split
    | (refine OKeeps.of_some (by assumption) ?_)
    | (refine Stage4.Keeps.of_done (by assumption) ?_)
    | (with_reducible refine Keeps.of_pair (by assumption) ?_)
    | (with_reducible refine Keeps.of_pair2 (by assumption) ?_)
    | (fail_if_no_progress dsimp only)

theorem execBuildGo_keeps (n : Nat) (frame : List Byte) (stamp : Option (Nat × Bool)) (t : Nat) (s0 : State) :
    ∃ z, execBuildGo n frame stamp t s0 = .next z ∧ Keeps false (s0.advance t) z := by
  unfold execBuildGo
  refine ⟨_, rfl, ?_⟩
  repeat' first
    | with_reducible assumption
    | with_reducible exact Keeps.refl _ _
    | with_reducible apply Keeps.ite
    | (fail_if_no_progress with_reducible apply Keeps.upd)
    | with_reducible apply State.advance_keeps
    | with_reducible apply State.askReply_keeps
    | (extract_lets +onlyGivenNames x; refine Keeps.cut (st := false) (b := (s0.advance t)) x ?_ ?_; rotate_left; (clear_value x; intro hx); rotate_left; subst x)
    | (extract_lets +onlyGivenNames x; refine Keeps.cut (st := false) (b := (s0.advance t)) x.1 ?_ ?_; rotate_left; (clear_value x; intro hx); rotate_left; subst x)
    | (extract_lets +onlyGivenNames x; refine Keeps.cut (st := false) (b := (s0.advance t)) x.2 ?_ ?_; rotate_left; (clear_value x; intro hx); rotate_left; subst x)
    | (extract_lets +onlyGivenNames x; clear_value x)
    | (extract_lets +onlyGivenNames x)
    | split
    | (refine OKeeps.of_some (by assumption) ?_)
    | (refine Stage4.Keeps.of_done (by assumption) ?_)
    | (with_reducible refine Keeps.of_pair (by assumption) ?_)
    | (with_reducible refine Keeps.of_pair2 (by assumption) ?_)
    | (fail_if_no_progress dsimp only)

theorem execMaintQuadsWrite_keeps (m : Nat) (val : Nat) (t : Nat) (s : State) :
    ∃ z, execMaintQuadsWrite m val t s = .next z ∧ Keeps false (s.advance t) z := by
  unfold execMaintQuadsWrite
  refine ⟨_, rfl, ?_⟩
  repeat' first
    | with_reducible assumption
    | with_reducible exact Keeps.refl _ _
    | with_reducible apply Keeps.ite
    | (fail_if_no_progress with_reducible apply Keeps.upd)
    | with_reducible apply State.advance_keeps
    | with_reducible apply State.busWrite_keeps
    | with_reducible apply State.setFenced_keeps
    | with_reducible apply State.wr_keeps
    | with_reducible apply State.refuseCfg_keeps
    | (with_reducible refine Keeps.foldl ?_ ?_)
    | (with_reducible refine Keeps.foldl_fst ?_ ?_)
    | (intro u a hu; beta_reduce)
    | (intro u hu; beta_reduce)
    | split
    | (fail_if_no_progress dsimp only)

theorem execQuadFence_keeps (q : Nat) (t : Nat) (s0 : State) :
    ∃ z, execQuadFence q t s0 = .next z ∧ Keeps false (s0.advance t) z := by
  unfold execQuadFence
  refine ⟨_, rfl, ?_⟩
  repeat' first
    | with_reducible assumption
    | with_reducible exact Keeps.refl _ _
    | with_reducible apply Keeps.ite
    | (fail_if_no_progress with_reducible apply Keeps.upd)
    | with_reducible apply State.advance_keeps
    | with_reducible apply State.setFenced_keeps
    | with_reducible apply State.sticky_keeps
    | (intro u a hu; beta_reduce)
    | (intro u hu; beta_reduce)
    | (extract_lets +onlyGivenNames x; refine Keeps.cut (st := false) (b := (s0.advance t)) x ?_ ?_; rotate_left; (clear_value x; intro hx); rotate_left; subst x)
    | (extract_lets +onlyGivenNames x; refine Keeps.cut (st := false) (b := (s0.advance t)) x.1 ?_ ?_; rotate_left; (clear_value x; intro hx); rotate_left; subst x)
    | (extract_lets +onlyGivenNames x; refine Keeps.cut (st := false) (b := (s0.advance t)) x.2 ?_ ?_; rotate_left; (clear_value x; intro hx); rotate_left; subst x)
    | (extract_lets +onlyGivenNames x; clear_value x)
    | (extract_lets +onlyGivenNames x)
    | split
    | (fail_if_no_progress dsimp only)

theorem execQLatReset_keeps (m : Nat) (q : Nat) (t : Nat) (s : State) :
    ∃ z, execQLatReset m q t s = .next z ∧ Keeps false (s.advance t) z := by
  unfold execQLatReset
  refine ⟨_, rfl, ?_⟩
  repeat' first
    | with_reducible assumption
    | with_reducible exact Keeps.refl _ _
    | with_reducible apply Keeps.ite
    | (fail_if_no_progress with_reducible apply Keeps.upd)
    | with_reducible apply State.advance_keeps
    | with_reducible apply State.busWrite_keeps
    | with_reducible apply State.wr_keeps
    | (intro u a hu; beta_reduce)
    | (intro u hu; beta_reduce)
    | split
    | (fail_if_no_progress dsimp only)

theorem execRspBankRelease_keeps (t : Nat) (s0 : State) :
    ∃ z, execRspBankRelease t s0 = .next z ∧ Keeps false (s0.advance t) z := by
  unfold execRspBankRelease
  refine ⟨_, rfl, ?_⟩
  repeat' first
    | with_reducible assumption
    | with_reducible exact Keeps.refl _ _
    | with_reducible apply Keeps.ite
    | (fail_if_no_progress with_reducible apply Keeps.upd)
    | with_reducible apply State.advance_keeps
    | with_reducible apply State.wr_keeps
    | (intro u a hu; beta_reduce)
    | (intro u hu; beta_reduce)
    | (extract_lets +onlyGivenNames x; refine Keeps.cut (st := false) (b := (s0.advance t)) x ?_ ?_; rotate_left; (clear_value x; intro hx); rotate_left; subst x)
    | (extract_lets +onlyGivenNames x; refine Keeps.cut (st := false) (b := (s0.advance t)) x.1 ?_ ?_; rotate_left; (clear_value x; intro hx); rotate_left; subst x)
    | (extract_lets +onlyGivenNames x; refine Keeps.cut (st := false) (b := (s0.advance t)) x.2 ?_ ?_; rotate_left; (clear_value x; intro hx); rotate_left; subst x)
    | (extract_lets +onlyGivenNames x; clear_value x)
    | (extract_lets +onlyGivenNames x)
    | split
    | (fail_if_no_progress dsimp only)

theorem execReservationGrant_keeps (id : Nat) (starts : List Nat) (busyUntil : Nat) (t : Nat) (s0 : State) :
    ∃ z, execReservationGrant id starts busyUntil t s0 = .next z ∧ Keeps false (s0.advance t) z := by
  unfold execReservationGrant
  refine ⟨_, rfl, ?_⟩
  repeat' first
    | with_reducible assumption
    | with_reducible exact Keeps.refl _ _
    | with_reducible apply Keeps.ite
    | (fail_if_no_progress with_reducible apply Keeps.upd)
    | with_reducible apply State.advance_keeps
    | with_reducible apply State.reserve_keeps
    | (extract_lets +onlyGivenNames x; refine Keeps.cut (st := false) (b := (s0.advance t)) x ?_ ?_; rotate_left; (clear_value x; intro hx); rotate_left; subst x)
    | (extract_lets +onlyGivenNames x; refine Keeps.cut (st := false) (b := (s0.advance t)) x.1 ?_ ?_; rotate_left; (clear_value x; intro hx); rotate_left; subst x)
    | (extract_lets +onlyGivenNames x; refine Keeps.cut (st := false) (b := (s0.advance t)) x.2 ?_ ?_; rotate_left; (clear_value x; intro hx); rotate_left; subst x)
    | (extract_lets +onlyGivenNames x; clear_value x)
    | (extract_lets +onlyGivenNames x)
    | split
    | (refine OKeeps.of_some (by assumption) ?_)
    | (refine Stage4.Keeps.of_done (by assumption) ?_)
    | (with_reducible refine Keeps.of_pair (by assumption) ?_)
    | (with_reducible refine Keeps.of_pair2 (by assumption) ?_)
    | (fail_if_no_progress dsimp only)

theorem execSealDone_keeps (id : Nat) (t : Nat) (s0 : State) :
    ∃ z, execSealDone id t s0 = .next z ∧ Keeps false (s0.advance t) z := by
  unfold execSealDone
  refine ⟨_, rfl, ?_⟩
  repeat' first
    | with_reducible assumption
    | with_reducible exact Keeps.refl _ _
    | with_reducible apply Keeps.ite
    | (fail_if_no_progress with_reducible apply Keeps.upd)
    | with_reducible apply State.advance_keeps
    | with_reducible apply State.sealJob_keeps
    | (extract_lets +onlyGivenNames x; refine Keeps.cut (st := false) (b := (s0.advance t)) x ?_ ?_; rotate_left; (clear_value x; intro hx); rotate_left; subst x)
    | (extract_lets +onlyGivenNames x; refine Keeps.cut (st := false) (b := (s0.advance t)) x.1 ?_ ?_; rotate_left; (clear_value x; intro hx); rotate_left; subst x)
    | (extract_lets +onlyGivenNames x; refine Keeps.cut (st := false) (b := (s0.advance t)) x.2 ?_ ?_; rotate_left; (clear_value x; intro hx); rotate_left; subst x)
    | (extract_lets +onlyGivenNames x; clear_value x)
    | (extract_lets +onlyGivenNames x)
    | split
    | (refine OKeeps.of_some (by assumption) ?_)
    | (refine Stage4.Keeps.of_done (by assumption) ?_)
    | (with_reducible refine Keeps.of_pair (by assumption) ?_)
    | (with_reducible refine Keeps.of_pair2 (by assumption) ?_)
    | (fail_if_no_progress dsimp only)

theorem execLaunchCheck_keeps (id : Nat) (t : Nat) (s0 : State) :
    ∃ z, execLaunchCheck id t s0 = .next z ∧ Keeps false (s0.advance t) z := by
  unfold execLaunchCheck
  refine ⟨_, rfl, ?_⟩
  repeat' first
    | with_reducible assumption
    | with_reducible exact Keeps.refl _ _
    | with_reducible apply Keeps.ite
    | (fail_if_no_progress with_reducible apply Keeps.upd)
    | with_reducible apply State.advance_keeps
    | with_reducible apply State.cancelJob_keeps
    | with_reducible apply State.putJob_keeps
    | (extract_lets +onlyGivenNames x; refine Keeps.cut (st := false) (b := (s0.advance t)) x ?_ ?_; rotate_left; (clear_value x; intro hx); rotate_left; subst x)
    | (extract_lets +onlyGivenNames x; refine Keeps.cut (st := false) (b := (s0.advance t)) x.1 ?_ ?_; rotate_left; (clear_value x; intro hx); rotate_left; subst x)
    | (extract_lets +onlyGivenNames x; refine Keeps.cut (st := false) (b := (s0.advance t)) x.2 ?_ ?_; rotate_left; (clear_value x; intro hx); rotate_left; subst x)
    | (extract_lets +onlyGivenNames x; clear_value x)
    | (extract_lets +onlyGivenNames x)
    | split
    | (refine OKeeps.of_some (by assumption) ?_)
    | (refine Stage4.Keeps.of_done (by assumption) ?_)
    | (with_reducible refine Keeps.of_pair (by assumption) ?_)
    | (with_reducible refine Keeps.of_pair2 (by assumption) ?_)
    | (fail_if_no_progress dsimp only)

theorem execRebuild_keeps (id : Nat) (t : Nat) (s0 : State) :
    ∃ z, execRebuild id t s0 = .next z ∧ Keeps false (s0.advance t) z := by
  unfold execRebuild
  refine ⟨_, rfl, ?_⟩
  repeat' first
    | with_reducible assumption
    | with_reducible exact Keeps.refl _ _
    | with_reducible apply Keeps.ite
    | (fail_if_no_progress with_reducible apply Keeps.upd)
    | with_reducible apply State.advance_keeps
    | with_reducible apply State.bump48_keeps
    | with_reducible apply State.count_keeps
    | with_reducible apply State.issueSlot_keeps
    | with_reducible apply State.build_keeps
    | with_reducible apply State.askSlot_keeps
    | (extract_lets +onlyGivenNames x; refine Keeps.cut (st := false) (b := (s0.advance t)) x ?_ ?_; rotate_left; (clear_value x; intro hx); rotate_left; subst x)
    | (extract_lets +onlyGivenNames x; refine Keeps.cut (st := false) (b := (s0.advance t)) x.1 ?_ ?_; rotate_left; (clear_value x; intro hx); rotate_left; subst x)
    | (extract_lets +onlyGivenNames x; refine Keeps.cut (st := false) (b := (s0.advance t)) x.2 ?_ ?_; rotate_left; (clear_value x; intro hx); rotate_left; subst x)
    | (extract_lets +onlyGivenNames x; clear_value x)
    | (extract_lets +onlyGivenNames x)
    | split
    | (refine OKeeps.of_some (by assumption) ?_)
    | (refine Stage4.Keeps.of_done (by assumption) ?_)
    | (with_reducible refine Keeps.of_pair (by assumption) ?_)
    | (with_reducible refine Keeps.of_pair2 (by assumption) ?_)
    | (fail_if_no_progress dsimp only)

theorem execFrameCommit_keeps (id : Nat) (rawS : Nat) (t : Nat) (s0 : State) :
    ∃ z, execFrameCommit id rawS t s0 = .next z ∧ Keeps true (s0.advance t) z := by
  unfold execFrameCommit
  refine ⟨_, rfl, ?_⟩
  repeat' first
    | with_reducible assumption
    | with_reducible exact Keeps.refl _ _
    | with_reducible apply Keeps.ite
    | (fail_if_no_progress with_reducible apply Keeps.upd)
    | with_reducible apply State.advance_keeps
    | with_reducible apply State.commitJob_keeps
    | with_reducible apply State.commitTx_keeps
    | (extract_lets +onlyGivenNames x; refine Keeps.cut (st := true) (b := (s0.advance t)) x ?_ ?_; rotate_left; (clear_value x; intro hx); rotate_left; subst x)
    | (extract_lets +onlyGivenNames x; refine Keeps.cut (st := true) (b := (s0.advance t)) x.1 ?_ ?_; rotate_left; (clear_value x; intro hx); rotate_left; subst x)
    | (extract_lets +onlyGivenNames x; refine Keeps.cut (st := true) (b := (s0.advance t)) x.2 ?_ ?_; rotate_left; (clear_value x; intro hx); rotate_left; subst x)
    | (extract_lets +onlyGivenNames x; clear_value x)
    | (extract_lets +onlyGivenNames x)
    | split
    | (refine OKeeps.of_some (by assumption) ?_)
    | (refine Stage4.Keeps.of_done (by assumption) ?_)
    | (with_reducible refine Keeps.of_pair (by assumption) ?_)
    | (with_reducible refine Keeps.of_pair2 (by assumption) ?_)
    | (fail_if_no_progress dsimp only)

theorem execPulseTrailingEdge_keeps (n : Nat) (t : Nat) (s : State) :
    ∃ z, execPulseTrailingEdge n t s = .next z ∧ Keeps false (s.advance t) z := by
  unfold execPulseTrailingEdge
  refine ⟨_, rfl, ?_⟩
  repeat' first
    | with_reducible assumption
    | with_reducible exact Keeps.refl _ _
    | with_reducible apply Keeps.ite
    | (fail_if_no_progress with_reducible apply Keeps.upd)
    | with_reducible apply State.advance_keeps
    | with_reducible apply State.trailPulse_keeps
    | split
    | (fail_if_no_progress dsimp only)

theorem execCaptureEdge_keeps (i : Nat) (rising : Bool) (poisoned : Bool) (edge : Nat) (t : Nat) (s0 : State) :
    ∃ z, execCaptureEdge i rising poisoned edge t s0 = .next z ∧ Keeps false (s0.advance t) z := by
  unfold execCaptureEdge
  refine ⟨_, rfl, ?_⟩
  repeat' first
    | with_reducible assumption
    | with_reducible exact Keeps.refl _ _
    | with_reducible apply Keeps.ite
    | (fail_if_no_progress with_reducible apply Keeps.upd)
    | with_reducible apply State.advance_keeps
    | with_reducible apply State.satF_keeps
    | with_reducible apply State.sticky_keeps
    | with_reducible apply State.poisonSeen_keeps
    | with_reducible apply State.postNoted_keeps
    | (intro u a hu; beta_reduce)
    | (intro u hu; beta_reduce)
    | (extract_lets +onlyGivenNames x; refine Keeps.cut (st := false) (b := (s0.advance t)) x ?_ ?_; rotate_left; (clear_value x; intro hx); rotate_left; subst x)
    | (extract_lets +onlyGivenNames x; refine Keeps.cut (st := false) (b := (s0.advance t)) x.1 ?_ ?_; rotate_left; (clear_value x; intro hx); rotate_left; subst x)
    | (extract_lets +onlyGivenNames x; refine Keeps.cut (st := false) (b := (s0.advance t)) x.2 ?_ ?_; rotate_left; (clear_value x; intro hx); rotate_left; subst x)
    | (extract_lets +onlyGivenNames x; clear_value x)
    | (extract_lets +onlyGivenNames x)
    | split
    | (fail_if_no_progress dsimp only)

theorem execSchedule_keeps (c : HostCmd) (t : Nat) (s0 : State) :
    ∃ z, execSchedule c t s0 = .next z ∧ Keeps false (s0.advance t) z := by
  unfold execSchedule
  refine ⟨_, rfl, ?_⟩
  repeat' first
    | with_reducible assumption
    | with_reducible exact Keeps.refl _ _
    | with_reducible apply Keeps.ite
    | (fail_if_no_progress with_reducible apply Keeps.upd)
    | with_reducible apply State.advance_keeps
    | with_reducible apply State.free_keeps
    | with_reducible apply State.refuseCfg_keeps
    | with_reducible apply State.schedNote_keeps
    | with_reducible apply State.complete_keeps
    | with_reducible apply State.setSched_keeps
    | with_reducible apply State.arm_keeps
    | (intro u a hu; beta_reduce)
    | (intro u hu; beta_reduce)
    | (extract_lets +onlyGivenNames x; refine Keeps.cut (st := false) (b := (s0.advance t)) x ?_ ?_; rotate_left; (clear_value x; intro hx); rotate_left; subst x)
    | (extract_lets +onlyGivenNames x; refine Keeps.cut (st := false) (b := (s0.advance t)) x.1 ?_ ?_; rotate_left; (clear_value x; intro hx); rotate_left; subst x)
    | (extract_lets +onlyGivenNames x; refine Keeps.cut (st := false) (b := (s0.advance t)) x.2 ?_ ?_; rotate_left; (clear_value x; intro hx); rotate_left; subst x)
    | (extract_lets +onlyGivenNames x; clear_value x)
    | (extract_lets +onlyGivenNames x)
    | split
    | (refine OKeeps.of_some (by assumption) ?_)
    | (refine Stage4.Keeps.of_done (by assumption) ?_)
    | (with_reducible refine Keeps.of_pair (by assumption) ?_)
    | (with_reducible refine Keeps.of_pair2 (by assumption) ?_)
    | (fail_if_no_progress dsimp only)

theorem execScheduleCancel_keeps (c : HostCmd) (t : Nat) (s0 : State) :
    ∃ z, execScheduleCancel c t s0 = .next z ∧ Keeps false (s0.advance t) z := by
  unfold execScheduleCancel
  refine ⟨_, rfl, ?_⟩
  repeat' first
    | with_reducible assumption
    | with_reducible exact Keeps.refl _ _
    | with_reducible apply Keeps.ite
    | (fail_if_no_progress with_reducible apply Keeps.upd)
    | (fail_if_no_progress with_reducible apply Keeps.upd_filter)
    | (fail_if_no_progress with_reducible apply Keeps.upd_filter_all)
    | with_reducible apply State.advance_keeps
    | with_reducible apply State.refuseCfg_keeps
    | with_reducible apply State.complete_keeps
    | with_reducible apply State.endSlot_keeps
    | (with_reducible refine Keeps.foldl ?_ ?_)
    | (with_reducible refine Keeps.foldl_fst ?_ ?_)
    | (intro u a hu; beta_reduce)
    | (intro u hu; beta_reduce)
    | (extract_lets +onlyGivenNames x; refine Keeps.cut (st := false) (b := (s0.advance t)) x ?_ ?_; rotate_left; (clear_value x; intro hx); rotate_left; subst x)
    | (extract_lets +onlyGivenNames x; refine Keeps.cut (st := false) (b := (s0.advance t)) x.1 ?_ ?_; rotate_left; (clear_value x; intro hx); rotate_left; subst x)
    | (extract_lets +onlyGivenNames x; refine Keeps.cut (st := false) (b := (s0.advance t)) x.2 ?_ ?_; rotate_left; (clear_value x; intro hx); rotate_left; subst x)
    | (extract_lets +onlyGivenNames x; clear_value x)
    | (extract_lets +onlyGivenNames x)
    | split
    | (refine OKeeps.of_some (by assumption) ?_)
    | (refine Stage4.Keeps.of_done (by assumption) ?_)
    | (with_reducible refine Keeps.of_pair (by assumption) ?_)
    | (with_reducible refine Keeps.of_pair2 (by assumption) ?_)
    | (fail_if_no_progress dsimp only)

theorem execVideoOutputStart_keeps (o : Nat) (t : Nat) (s0 : State) :
    ∃ z, execVideoOutputStart o t s0 = .next z ∧ Keeps false (s0.advance t) z := by
  unfold execVideoOutputStart
  refine ⟨_, rfl, ?_⟩
  repeat' first
    | with_reducible assumption
    | with_reducible exact Keeps.refl _ _
    | with_reducible apply Keeps.ite
    | (fail_if_no_progress with_reducible apply Keeps.upd)
    | with_reducible apply State.advance_keeps
    | with_reducible apply State.setVout_keeps
    | with_reducible apply State.bumpF_keeps
    | (extract_lets +onlyGivenNames x; refine Keeps.cut (st := false) (b := (s0.advance t)) x ?_ ?_; rotate_left; (clear_value x; intro hx); rotate_left; subst x)
    | (extract_lets +onlyGivenNames x; refine Keeps.cut (st := false) (b := (s0.advance t)) x.1 ?_ ?_; rotate_left; (clear_value x; intro hx); rotate_left; subst x)
    | (extract_lets +onlyGivenNames x; refine Keeps.cut (st := false) (b := (s0.advance t)) x.2 ?_ ?_; rotate_left; (clear_value x; intro hx); rotate_left; subst x)
    | (extract_lets +onlyGivenNames x; clear_value x)
    | (extract_lets +onlyGivenNames x)
    | split
    | (refine OKeeps.of_some (by assumption) ?_)
    | (refine Stage4.Keeps.of_done (by assumption) ?_)
    | (with_reducible refine Keeps.of_pair (by assumption) ?_)
    | (with_reducible refine Keeps.of_pair2 (by assumption) ?_)
    | (fail_if_no_progress dsimp only)

theorem execVideoWalkDone_keeps (o : Nat) (t : Nat) (s0 : State) :
    ∃ z, execVideoWalkDone o t s0 = .next z ∧ Keeps false (s0.advance t) z := by
  unfold execVideoWalkDone
  refine ⟨_, rfl, ?_⟩
  repeat' first
    | with_reducible assumption
    | with_reducible exact Keeps.refl _ _
    | with_reducible apply Keeps.ite
    | (fail_if_no_progress with_reducible apply Keeps.upd)
    | with_reducible apply State.advance_keeps
    | with_reducible apply State.setVout_keeps
    | (extract_lets +onlyGivenNames x; refine Keeps.cut (st := false) (b := (s0.advance t)) x ?_ ?_; rotate_left; (clear_value x; intro hx); rotate_left; subst x)
    | (extract_lets +onlyGivenNames x; refine Keeps.cut (st := false) (b := (s0.advance t)) x.1 ?_ ?_; rotate_left; (clear_value x; intro hx); rotate_left; subst x)
    | (extract_lets +onlyGivenNames x; refine Keeps.cut (st := false) (b := (s0.advance t)) x.2 ?_ ?_; rotate_left; (clear_value x; intro hx); rotate_left; subst x)
    | (extract_lets +onlyGivenNames x; clear_value x)
    | (extract_lets +onlyGivenNames x)
    | split
    | (refine OKeeps.of_some (by assumption) ?_)
    | (refine Stage4.Keeps.of_done (by assumption) ?_)
    | (with_reducible refine Keeps.of_pair (by assumption) ?_)
    | (with_reducible refine Keeps.of_pair2 (by assumption) ?_)
    | (fail_if_no_progress dsimp only)

theorem execLtcFrame_keeps (n : Nat) (t : Nat) (s0 : State) :
    ∃ z, execLtcFrame n t s0 = .next z ∧ Keeps false (s0.advance t) z := by
  unfold execLtcFrame
  refine ⟨_, rfl, ?_⟩
  repeat' first
    | with_reducible assumption
    | with_reducible exact Keeps.refl _ _
    | with_reducible apply Keeps.ite
    | (fail_if_no_progress with_reducible apply Keeps.upd)
    | with_reducible apply State.advance_keeps
    | with_reducible apply State.setN_keeps
    | with_reducible apply State.count_keeps
    | with_reducible apply State.sticky_keeps
    | (intro u a hu; beta_reduce)
    | (intro u hu; beta_reduce)
    | (extract_lets +onlyGivenNames x; refine Keeps.cut (st := false) (b := (s0.advance t)) x ?_ ?_; rotate_left; (clear_value x; intro hx); rotate_left; subst x)
    | (extract_lets +onlyGivenNames x; refine Keeps.cut (st := false) (b := (s0.advance t)) x.1 ?_ ?_; rotate_left; (clear_value x; intro hx); rotate_left; subst x)
    | (extract_lets +onlyGivenNames x; refine Keeps.cut (st := false) (b := (s0.advance t)) x.2 ?_ ?_; rotate_left; (clear_value x; intro hx); rotate_left; subst x)
    | (extract_lets +onlyGivenNames x; clear_value x)
    | (extract_lets +onlyGivenNames x)
    | split
    | (fail_if_no_progress dsimp only)

theorem execLtcUbitsPortWrite_keeps (n : Nat) (val : Nat) (t : Nat) (s : State) :
    ∃ z, execLtcUbitsPortWrite n val t s = .next z ∧ Keeps false (s.advance t) z := by
  unfold execLtcUbitsPortWrite
  refine ⟨_, rfl, ?_⟩
  repeat' first
    | with_reducible assumption
    | with_reducible exact Keeps.refl _ _
    | with_reducible apply Keeps.ite
    | (fail_if_no_progress with_reducible apply Keeps.upd)
    | with_reducible apply State.advance_keeps
    | with_reducible apply State.writeUbits_keeps
    | split
    | (fail_if_no_progress dsimp only)

theorem execCompareRearm_keeps (u : Nat) (ts : Nat) (target : Nat) (t : Nat) (s : State) :
    ∃ z, execCompareRearm u ts target t s = .next z ∧ Keeps false (s.advance t) z := by
  unfold execCompareRearm
  refine ⟨_, rfl, ?_⟩
  repeat' first
    | with_reducible assumption
    | with_reducible exact Keeps.refl _ _
    | with_reducible apply Keeps.ite
    | (fail_if_no_progress with_reducible apply Keeps.upd)
    | with_reducible apply State.advance_keeps
    | with_reducible apply State.arm_keeps
    | split
    | (fail_if_no_progress dsimp only)

theorem execGenlockFrame_keeps (lines : Nat) (period : Nat) (syncMv : Nat) (burstMv : Nat) (edge : Nat) (t : Nat) (s0 : State) :
    ∃ z, execGenlockFrame lines period syncMv burstMv edge t s0 = .next z ∧ Keeps false (s0.advance t) z := by
  unfold execGenlockFrame
  refine ⟨_, rfl, ?_⟩
  repeat' first
    | with_reducible assumption
    | with_reducible exact Keeps.refl _ _
    | with_reducible apply Keeps.ite
    | (fail_if_no_progress with_reducible apply Keeps.upd)
    | with_reducible apply State.advance_keeps
    | with_reducible apply State.seqEvent_keeps
    | with_reducible apply State.wr_keeps
    | with_reducible apply State.sticky_keeps
    | with_reducible apply State.glMatch_keeps
    | with_reducible apply State.glMiss_keeps
    | with_reducible apply State.glSample_keeps
    | (extract_lets +onlyGivenNames x; refine Keeps.cut (st := false) (b := (s0.advance t)) x ?_ ?_; rotate_left; (clear_value x; intro hx); rotate_left; subst x)
    | (extract_lets +onlyGivenNames x; refine Keeps.cut (st := false) (b := (s0.advance t)) x.1 ?_ ?_; rotate_left; (clear_value x; intro hx); rotate_left; subst x)
    | (extract_lets +onlyGivenNames x; refine Keeps.cut (st := false) (b := (s0.advance t)) x.2 ?_ ?_; rotate_left; (clear_value x; intro hx); rotate_left; subst x)
    | (extract_lets +onlyGivenNames x; clear_value x)
    | (extract_lets +onlyGivenNames x)
    | split
    | (refine OKeeps.of_some (by assumption) ?_)
    | (refine Stage4.Keeps.of_done (by assumption) ?_)
    | (with_reducible refine Keeps.of_pair (by assumption) ?_)
    | (with_reducible refine Keeps.of_pair2 (by assumption) ?_)
    | (fail_if_no_progress dsimp only)

theorem execGenlockFrameMissing_keeps (t : Nat) (s0 : State) :
    ∃ z, execGenlockFrameMissing t s0 = .next z ∧ Keeps false (s0.advance t) z := by
  unfold execGenlockFrameMissing
  refine ⟨_, rfl, ?_⟩
  repeat' first
    | with_reducible assumption
    | with_reducible exact Keeps.refl _ _
    | with_reducible apply Keeps.ite
    | (fail_if_no_progress with_reducible apply Keeps.upd)
    | with_reducible apply State.advance_keeps
    | with_reducible apply State.glMiss_keeps
    | (extract_lets +onlyGivenNames x; refine Keeps.cut (st := false) (b := (s0.advance t)) x ?_ ?_; rotate_left; (clear_value x; intro hx); rotate_left; subst x)
    | (extract_lets +onlyGivenNames x; refine Keeps.cut (st := false) (b := (s0.advance t)) x.1 ?_ ?_; rotate_left; (clear_value x; intro hx); rotate_left; subst x)
    | (extract_lets +onlyGivenNames x; refine Keeps.cut (st := false) (b := (s0.advance t)) x.2 ?_ ?_; rotate_left; (clear_value x; intro hx); rotate_left; subst x)
    | (extract_lets +onlyGivenNames x; clear_value x)
    | (extract_lets +onlyGivenNames x)
    | split
    | (fail_if_no_progress dsimp only)

theorem execPosGo_keeps (m : Nat) (val : Nat) (t : Nat) (s0 : State) :
    ∃ z, execPosGo m val t s0 = .next z ∧ Keeps false (s0.advance t) z := by
  unfold execPosGo
  refine ⟨_, rfl, ?_⟩
  repeat' first
    | with_reducible assumption
    | with_reducible exact Keeps.refl _ _
    | with_reducible apply Keeps.ite
    | (fail_if_no_progress with_reducible apply Keeps.upd)
    | with_reducible apply State.advance_keeps
    | with_reducible apply State.posGo_keeps
    | with_reducible apply State.deny_keeps
    | (extract_lets +onlyGivenNames x; refine Keeps.cut (st := false) (b := (s0.advance t)) x ?_ ?_; rotate_left; (clear_value x; intro hx); rotate_left; subst x)
    | (extract_lets +onlyGivenNames x; refine Keeps.cut (st := false) (b := (s0.advance t)) x.1 ?_ ?_; rotate_left; (clear_value x; intro hx); rotate_left; subst x)
    | (extract_lets +onlyGivenNames x; refine Keeps.cut (st := false) (b := (s0.advance t)) x.2 ?_ ?_; rotate_left; (clear_value x; intro hx); rotate_left; subst x)
    | (extract_lets +onlyGivenNames x; clear_value x)
    | (extract_lets +onlyGivenNames x)
    | split
    | (refine OKeeps.of_some (by assumption) ?_)
    | (refine Stage4.Keeps.of_done (by assumption) ?_)
    | (with_reducible refine Keeps.of_pair (by assumption) ?_)
    | (with_reducible refine Keeps.of_pair2 (by assumption) ?_)
    | (fail_if_no_progress dsimp only)

theorem execTbPresent_keeps (freq : Int) (edge : Nat) (t : Nat) (s0 : State) :
    ∃ z, execTbPresent freq edge t s0 = .next z ∧ Keeps false (s0.advance t) z := by
  unfold execTbPresent
  refine ⟨_, rfl, ?_⟩
  repeat' first
    | with_reducible assumption
    | with_reducible exact Keeps.refl _ _
    | with_reducible apply Keeps.ite
    | (fail_if_no_progress with_reducible apply Keeps.upd)
    | with_reducible apply State.advance_keeps
    | with_reducible apply State.wr_keeps
    | with_reducible apply State.wrB_keeps
    | with_reducible apply State.anchorBase_keeps
    | with_reducible apply State.sticky_keeps
    | (extract_lets +onlyGivenNames x; refine Keeps.cut (st := false) (b := (s0.advance t)) x ?_ ?_; rotate_left; (clear_value x; intro hx); rotate_left; subst x)
    | (extract_lets +onlyGivenNames x; refine Keeps.cut (st := false) (b := (s0.advance t)) x.1 ?_ ?_; rotate_left; (clear_value x; intro hx); rotate_left; subst x)
    | (extract_lets +onlyGivenNames x; refine Keeps.cut (st := false) (b := (s0.advance t)) x.2 ?_ ?_; rotate_left; (clear_value x; intro hx); rotate_left; subst x)
    | (extract_lets +onlyGivenNames x; clear_value x)
    | (extract_lets +onlyGivenNames x)
    | split
    | (fail_if_no_progress dsimp only)

theorem execTbLost_keeps (freq : Option Int) (t : Nat) (s0 : State) :
    ∃ z, execTbLost freq t s0 = .next z ∧ Keeps false (s0.advance t) z := by
  unfold execTbLost
  refine ⟨_, rfl, ?_⟩
  repeat' first
    | with_reducible assumption
    | with_reducible exact Keeps.refl _ _
    | with_reducible apply Keeps.ite
    | (fail_if_no_progress with_reducible apply Keeps.upd)
    | with_reducible apply State.advance_keeps
    | with_reducible apply State.wr_keeps
    | with_reducible apply State.sticky_keeps
    | (extract_lets +onlyGivenNames x; refine Keeps.cut (st := false) (b := (s0.advance t)) x ?_ ?_; rotate_left; (clear_value x; intro hx); rotate_left; subst x)
    | (extract_lets +onlyGivenNames x; refine Keeps.cut (st := false) (b := (s0.advance t)) x.1 ?_ ?_; rotate_left; (clear_value x; intro hx); rotate_left; subst x)
    | (extract_lets +onlyGivenNames x; refine Keeps.cut (st := false) (b := (s0.advance t)) x.2 ?_ ?_; rotate_left; (clear_value x; intro hx); rotate_left; subst x)
    | (extract_lets +onlyGivenNames x; clear_value x)
    | (extract_lets +onlyGivenNames x)
    | split
    | (refine OKeeps.of_some (by assumption) ?_)
    | (refine Stage4.Keeps.of_done (by assumption) ?_)
    | (with_reducible refine Keeps.of_pair (by assumption) ?_)
    | (with_reducible refine Keeps.of_pair2 (by assumption) ?_)
    | (fail_if_no_progress dsimp only)

theorem execTbSettled_keeps (t : Nat) (s0 : State) :
    ∃ z, execTbSettled t s0 = .next z ∧ Keeps false (s0.advance t) z := by
  unfold execTbSettled
  refine ⟨_, rfl, ?_⟩
  repeat' first
    | with_reducible assumption
    | with_reducible exact Keeps.refl _ _
    | with_reducible apply Keeps.ite
    | (fail_if_no_progress with_reducible apply Keeps.upd)
    | with_reducible apply State.advance_keeps
    | with_reducible apply State.wr_keeps
    | (extract_lets +onlyGivenNames x; refine Keeps.cut (st := false) (b := (s0.advance t)) x ?_ ?_; rotate_left; (clear_value x; intro hx); rotate_left; subst x)
    | (extract_lets +onlyGivenNames x; refine Keeps.cut (st := false) (b := (s0.advance t)) x.1 ?_ ?_; rotate_left; (clear_value x; intro hx); rotate_left; subst x)
    | (extract_lets +onlyGivenNames x; refine Keeps.cut (st := false) (b := (s0.advance t)) x.2 ?_ ?_; rotate_left; (clear_value x; intro hx); rotate_left; subst x)
    | (extract_lets +onlyGivenNames x; clear_value x)
    | (extract_lets +onlyGivenNames x)
    | split
    | (fail_if_no_progress dsimp only)

theorem execAnchorGoTb_keeps (m : Nat) (edge : Nat) (t : Nat) (s : State) :
    ∃ z, execAnchorGoTb m edge t s = .next z ∧ Keeps false (s.advance t) z := by
  unfold execAnchorGoTb
  refine ⟨_, rfl, ?_⟩
  repeat' first
    | with_reducible assumption
    | with_reducible exact Keeps.refl _ _
    | with_reducible apply Keeps.ite
    | (fail_if_no_progress with_reducible apply Keeps.upd)
    | with_reducible apply State.advance_keeps
    | with_reducible apply State.anchorGo_keeps
    | (fail_if_no_progress dsimp only)

theorem execAnchorGoGr_keeps (m : Nat) (edge : Nat) (t : Nat) (s : State) :
    ∃ z, execAnchorGoGr m edge t s = .next z ∧ Keeps false (s.advance t) z := by
  unfold execAnchorGoGr
  refine ⟨_, rfl, ?_⟩
  repeat' first
    | with_reducible assumption
    | with_reducible exact Keeps.refl _ _
    | with_reducible apply Keeps.ite
    | (fail_if_no_progress with_reducible apply Keeps.upd)
    | with_reducible apply State.advance_keeps
    | with_reducible apply State.anchorGo_keeps
    | (fail_if_no_progress dsimp only)

theorem execTdcEdge_keeps (c : Nat) (rising : Bool) (coarse : Nat) (code : Nat) (other : Option Nat) (poisoned : Bool) (t : Nat) (s0 : State) :
    ∃ z, execTdcEdge c rising coarse code other poisoned t s0 = .next z ∧ Keeps false (s0.advance t) z := by
  unfold execTdcEdge
  refine ⟨_, rfl, ?_⟩
  repeat' first
    | with_reducible assumption
    | with_reducible exact Keeps.refl _ _
    | with_reducible apply Keeps.ite
    | (fail_if_no_progress with_reducible apply Keeps.upd)
    | with_reducible apply State.advance_keeps
    | with_reducible apply State.setTch_keeps
    | with_reducible apply State.satF_keeps
    | with_reducible apply State.sticky_keeps
    | with_reducible apply State.count_keeps
    | with_reducible apply State.rollGate_keeps
    | with_reducible apply State.bump_keeps
    | with_reducible apply State.poisonSeen_keeps
    | with_reducible apply State.streamStamp_keeps
    | (intro u a hu; beta_reduce)
    | (intro u hu; beta_reduce)
    | (extract_lets +onlyGivenNames x; refine Keeps.cut (st := false) (b := (s0.advance t)) x ?_ ?_; rotate_left; (clear_value x; intro hx); rotate_left; subst x)
    | (extract_lets +onlyGivenNames x; refine Keeps.cut (st := false) (b := (s0.advance t)) x.1 ?_ ?_; rotate_left; (clear_value x; intro hx); rotate_left; subst x)
    | (extract_lets +onlyGivenNames x; refine Keeps.cut (st := false) (b := (s0.advance t)) x.2 ?_ ?_; rotate_left; (clear_value x; intro hx); rotate_left; subst x)
    | (extract_lets +onlyGivenNames x; clear_value x)
    | (extract_lets +onlyGivenNames x)
    | split
    | (refine OKeeps.of_some (by assumption) ?_)
    | (refine Stage4.Keeps.of_done (by assumption) ?_)
    | (with_reducible refine Keeps.of_pair (by assumption) ?_)
    | (with_reducible refine Keeps.of_pair2 (by assumption) ?_)
    | (fail_if_no_progress dsimp only)

theorem execTdcGateEnd_keeps (c : Nat) (coarse : Nat) (t : Nat) (s0 : State) :
    ∃ z, execTdcGateEnd c coarse t s0 = .next z ∧ Keeps false (s0.advance t) z := by
  unfold execTdcGateEnd
  refine ⟨_, rfl, ?_⟩
  repeat' first
    | with_reducible assumption
    | with_reducible exact Keeps.refl _ _
    | with_reducible apply Keeps.ite
    | (fail_if_no_progress with_reducible apply Keeps.upd)
    | with_reducible apply State.advance_keeps
    | with_reducible apply State.rollGate_keeps
    | (extract_lets +onlyGivenNames x; refine Keeps.cut (st := false) (b := (s0.advance t)) x ?_ ?_; rotate_left; (clear_value x; intro hx); rotate_left; subst x)
    | (extract_lets +onlyGivenNames x; refine Keeps.cut (st := false) (b := (s0.advance t)) x.1 ?_ ?_; rotate_left; (clear_value x; intro hx); rotate_left; subst x)
    | (extract_lets +onlyGivenNames x; refine Keeps.cut (st := false) (b := (s0.advance t)) x.2 ?_ ?_; rotate_left; (clear_value x; intro hx); rotate_left; subst x)
    | (extract_lets +onlyGivenNames x; clear_value x)
    | (extract_lets +onlyGivenNames x)
    | split
    | (fail_if_no_progress dsimp only)

theorem execTdcCalStart_keeps (c : Nat) (t : Nat) (s0 : State) :
    ∃ z, execTdcCalStart c t s0 = .next z ∧ Keeps false (s0.advance t) z := by
  unfold execTdcCalStart
  refine ⟨_, rfl, ?_⟩
  repeat' first
    | with_reducible assumption
    | with_reducible exact Keeps.refl _ _
    | with_reducible apply Keeps.ite
    | (fail_if_no_progress with_reducible apply Keeps.upd)
    | with_reducible apply State.advance_keeps
    | with_reducible apply State.setTch_keeps
    | (extract_lets +onlyGivenNames x; refine Keeps.cut (st := false) (b := (s0.advance t)) x ?_ ?_; rotate_left; (clear_value x; intro hx); rotate_left; subst x)
    | (extract_lets +onlyGivenNames x; refine Keeps.cut (st := false) (b := (s0.advance t)) x.1 ?_ ?_; rotate_left; (clear_value x; intro hx); rotate_left; subst x)
    | (extract_lets +onlyGivenNames x; refine Keeps.cut (st := false) (b := (s0.advance t)) x.2 ?_ ?_; rotate_left; (clear_value x; intro hx); rotate_left; subst x)
    | (extract_lets +onlyGivenNames x; clear_value x)
    | (extract_lets +onlyGivenNames x)
    | split
    | (fail_if_no_progress dsimp only)

theorem execTdcCalDone_keeps (c : Nat) (hist : List Nat) (t : Nat) (s0 : State) :
    ∃ z, execTdcCalDone c hist t s0 = .next z ∧ Keeps false (s0.advance t) z := by
  unfold execTdcCalDone
  refine ⟨_, rfl, ?_⟩
  repeat' first
    | with_reducible assumption
    | with_reducible exact Keeps.refl _ _
    | with_reducible apply Keeps.ite
    | (fail_if_no_progress with_reducible apply Keeps.upd)
    | with_reducible apply State.advance_keeps
    | with_reducible apply State.bumpF_keeps
    | with_reducible apply State.count_keeps
    | with_reducible apply State.sticky_keeps
    | with_reducible apply State.wr_keeps
    | with_reducible apply State.setTch_keeps
    | with_reducible apply State.satF_keeps
    | (extract_lets +onlyGivenNames x; refine Keeps.cut (st := false) (b := (s0.advance t)) x ?_ ?_; rotate_left; (clear_value x; intro hx); rotate_left; subst x)
    | (extract_lets +onlyGivenNames x; refine Keeps.cut (st := false) (b := (s0.advance t)) x.1 ?_ ?_; rotate_left; (clear_value x; intro hx); rotate_left; subst x)
    | (extract_lets +onlyGivenNames x; refine Keeps.cut (st := false) (b := (s0.advance t)) x.2 ?_ ?_; rotate_left; (clear_value x; intro hx); rotate_left; subst x)
    | (extract_lets +onlyGivenNames x; clear_value x)
    | (extract_lets +onlyGivenNames x)
    | split
    | (refine OKeeps.of_some (by assumption) ?_)
    | (refine Stage4.Keeps.of_done (by assumption) ?_)
    | (with_reducible refine Keeps.of_pair (by assumption) ?_)
    | (with_reducible refine Keeps.of_pair2 (by assumption) ?_)
    | (fail_if_no_progress dsimp only)

theorem execInterpSwap_keeps (c : Nat) (t : Nat) (s0 : State) :
    ∃ z, execInterpSwap c t s0 = .next z ∧ Keeps false (s0.advance t) z := by
  unfold execInterpSwap
  refine ⟨_, rfl, ?_⟩
  repeat' first
    | with_reducible assumption
    | with_reducible exact Keeps.refl _ _
    | with_reducible apply Keeps.ite
    | (fail_if_no_progress with_reducible apply Keeps.upd)
    | with_reducible apply State.advance_keeps
    | with_reducible apply State.setTch_keeps
    | (extract_lets +onlyGivenNames x; refine Keeps.cut (st := false) (b := (s0.advance t)) x ?_ ?_; rotate_left; (clear_value x; intro hx); rotate_left; subst x)
    | (extract_lets +onlyGivenNames x; refine Keeps.cut (st := false) (b := (s0.advance t)) x.1 ?_ ?_; rotate_left; (clear_value x; intro hx); rotate_left; subst x)
    | (extract_lets +onlyGivenNames x; refine Keeps.cut (st := false) (b := (s0.advance t)) x.2 ?_ ?_; rotate_left; (clear_value x; intro hx); rotate_left; subst x)
    | (extract_lets +onlyGivenNames x; clear_value x)
    | (extract_lets +onlyGivenNames x)
    | split
    | (refine OKeeps.of_some (by assumption) ?_)
    | (refine Stage4.Keeps.of_done (by assumption) ?_)
    | (with_reducible refine Keeps.of_pair (by assumption) ?_)
    | (with_reducible refine Keeps.of_pair2 (by assumption) ?_)
    | (fail_if_no_progress dsimp only)

theorem execPkRun_keeps (c : HostCmd) (t : Nat) (s0 : State) :
    ∃ z, execPkRun c t s0 = .next z ∧ Keeps false (s0.advance t) z := by
  unfold execPkRun
  refine ⟨_, rfl, ?_⟩
  repeat' first
    | with_reducible assumption
    | with_reducible exact Keeps.refl _ _
    | with_reducible apply Keeps.ite
    | (fail_if_no_progress with_reducible apply Keeps.upd)
    | with_reducible apply State.advance_keeps
    | with_reducible apply State.pkAccept_keeps
    | with_reducible apply State.deny_keeps
    | with_reducible apply State.useKey_keeps
    | with_reducible apply State.pkNote_keeps
    | with_reducible apply State.complete_keeps
    | (extract_lets +onlyGivenNames x; refine Keeps.cut (st := false) (b := (s0.advance t)) x ?_ ?_; rotate_left; (clear_value x; intro hx); rotate_left; subst x)
    | (extract_lets +onlyGivenNames x; refine Keeps.cut (st := false) (b := (s0.advance t)) x.1 ?_ ?_; rotate_left; (clear_value x; intro hx); rotate_left; subst x)
    | (extract_lets +onlyGivenNames x; refine Keeps.cut (st := false) (b := (s0.advance t)) x.2 ?_ ?_; rotate_left; (clear_value x; intro hx); rotate_left; subst x)
    | (extract_lets +onlyGivenNames x; clear_value x)
    | (extract_lets +onlyGivenNames x)
    | split
    | (refine OKeeps.of_some (by assumption) ?_)
    | (refine OPKeeps.of_some (by assumption) ?_)
    | (refine Stage4.Keeps.of_done (by assumption) ?_)
    | (with_reducible refine Keeps.of_pair (by assumption) ?_)
    | (with_reducible refine Keeps.of_pair2 (by assumption) ?_)
    | (fail_if_no_progress dsimp only)

theorem execKeyImport_keeps (c : HostCmd) (hdrErr : Option Nat) (t : Nat) (s0 : State) :
    ∃ z, execKeyImport c hdrErr t s0 = .next z ∧ Keeps false (s0.advance t) z := by
  unfold execKeyImport
  refine ⟨_, rfl, ?_⟩
  repeat' first
    | with_reducible assumption
    | with_reducible exact Keeps.refl _ _
    | with_reducible apply Keeps.ite
    | (fail_if_no_progress with_reducible apply Keeps.upd)
    | with_reducible apply State.advance_keeps
    | with_reducible apply State.dmaAbort_keeps
    | with_reducible apply State.poisonSeen_keeps
    | with_reducible apply State.pkAccept_keeps
    | with_reducible apply State.deny_keeps
    | with_reducible apply State.keyNote_keeps
    | with_reducible apply State.complete_keeps
    | (extract_lets +onlyGivenNames x; refine Keeps.cut (st := false) (b := (s0.advance t)) x ?_ ?_; rotate_left; (clear_value x; intro hx); rotate_left; subst x)
    | (extract_lets +onlyGivenNames x; refine Keeps.cut (st := false) (b := (s0.advance t)) x.1 ?_ ?_; rotate_left; (clear_value x; intro hx); rotate_left; subst x)
    | (extract_lets +onlyGivenNames x; refine Keeps.cut (st := false) (b := (s0.advance t)) x.2 ?_ ?_; rotate_left; (clear_value x; intro hx); rotate_left; subst x)
    | (extract_lets +onlyGivenNames x; clear_value x)
    | (extract_lets +onlyGivenNames x)
    | split
    | (refine OKeeps.of_some (by assumption) ?_)
    | (refine OPKeeps.of_some (by assumption) ?_)
    | (refine Stage4.Keeps.of_done (by assumption) ?_)
    | (with_reducible refine Keeps.of_pair (by assumption) ?_)
    | (with_reducible refine Keeps.of_pair2 (by assumption) ?_)
    | (fail_if_no_progress dsimp only)

theorem execKeyGenerate_keeps (c : HostCmd) (t : Nat) (s0 : State) :
    ∃ z, execKeyGenerate c t s0 = .next z ∧ Keeps false (s0.advance t) z := by
  unfold execKeyGenerate
  refine ⟨_, rfl, ?_⟩
  repeat' first
    | with_reducible assumption
    | with_reducible exact Keeps.refl _ _
    | with_reducible apply Keeps.ite
    | (fail_if_no_progress with_reducible apply Keeps.upd)
    | with_reducible apply State.advance_keeps
    | with_reducible apply State.pkAccept_keeps
    | with_reducible apply State.deny_keeps
    | with_reducible apply State.keyNote_keeps
    | with_reducible apply State.complete_keeps
    | (extract_lets +onlyGivenNames x; refine Keeps.cut (st := false) (b := (s0.advance t)) x ?_ ?_; rotate_left; (clear_value x; intro hx); rotate_left; subst x)
    | (extract_lets +onlyGivenNames x; refine Keeps.cut (st := false) (b := (s0.advance t)) x.1 ?_ ?_; rotate_left; (clear_value x; intro hx); rotate_left; subst x)
    | (extract_lets +onlyGivenNames x; refine Keeps.cut (st := false) (b := (s0.advance t)) x.2 ?_ ?_; rotate_left; (clear_value x; intro hx); rotate_left; subst x)
    | (extract_lets +onlyGivenNames x; clear_value x)
    | (extract_lets +onlyGivenNames x)
    | split
    | (refine OKeeps.of_some (by assumption) ?_)
    | (refine OPKeeps.of_some (by assumption) ?_)
    | (refine Stage4.Keeps.of_done (by assumption) ?_)
    | (with_reducible refine Keeps.of_pair (by assumption) ?_)
    | (with_reducible refine Keeps.of_pair2 (by assumption) ?_)
    | (fail_if_no_progress dsimp only)

theorem execPkJobComplete_keeps (q : Nat) (readErr : Option Nat) (primes : List Nat) (t : Nat) (s0 : State) :
    ∃ z, execPkJobComplete q readErr primes t s0 = .next z ∧ Keeps true (s0.advance t) z := by
  unfold execPkJobComplete
  refine ⟨_, rfl, ?_⟩
  repeat' first
    | with_reducible assumption
    | with_reducible exact Keeps.refl _ _
    | with_reducible apply Keeps.ite
    | (fail_if_no_progress with_reducible apply Keeps.upd)
    | with_reducible apply State.advance_keeps
    | with_reducible apply State.dmaAbort_keeps
    | with_reducible apply State.poisonSeen_keeps
    | with_reducible apply State.pkResult_keeps
    | with_reducible apply State.pkFinish_keeps
    | (extract_lets +onlyGivenNames x; refine Keeps.cut (st := true) (b := (s0.advance t)) x ?_ ?_; rotate_left; (clear_value x; intro hx); rotate_left; subst x)
    | (extract_lets +onlyGivenNames x; refine Keeps.cut (st := true) (b := (s0.advance t)) x.1 ?_ ?_; rotate_left; (clear_value x; intro hx); rotate_left; subst x)
    | (extract_lets +onlyGivenNames x; refine Keeps.cut (st := true) (b := (s0.advance t)) x.2 ?_ ?_; rotate_left; (clear_value x; intro hx); rotate_left; subst x)
    | (extract_lets +onlyGivenNames x; clear_value x)
    | (extract_lets +onlyGivenNames x)
    | split
    | (refine OKeeps.of_some (by assumption) ?_)
    | (refine OPKeeps.of_some (by assumption) ?_)
    | (refine Stage4.Keeps.of_done (by assumption) ?_)
    | (with_reducible refine Keeps.of_pair (by assumption) ?_)
    | (with_reducible refine Keeps.of_pair2 (by assumption) ?_)
    | (fail_if_no_progress dsimp only)

theorem execKeyHeadComplete_keeps (k : Nat) (status : Nat) (t : Nat) (s0 : State) :
    ∃ z, execKeyHeadComplete k status t s0 = .next z ∧ Keeps true (s0.advance t) z := by
  unfold execKeyHeadComplete
  refine ⟨_, rfl, ?_⟩
  repeat' first
    | with_reducible assumption
    | with_reducible exact Keeps.refl _ _
    | with_reducible apply Keeps.ite
    | (fail_if_no_progress with_reducible apply Keeps.upd)
    | with_reducible apply State.advance_keeps
    | with_reducible apply State.pkFinish_keeps
    | with_reducible apply State.pkResult_keeps
    | (extract_lets +onlyGivenNames x; refine Keeps.cut (st := true) (b := (s0.advance t)) x ?_ ?_; rotate_left; (clear_value x; intro hx); rotate_left; subst x)
    | (extract_lets +onlyGivenNames x; refine Keeps.cut (st := true) (b := (s0.advance t)) x.1 ?_ ?_; rotate_left; (clear_value x; intro hx); rotate_left; subst x)
    | (extract_lets +onlyGivenNames x; refine Keeps.cut (st := true) (b := (s0.advance t)) x.2 ?_ ?_; rotate_left; (clear_value x; intro hx); rotate_left; subst x)
    | (extract_lets +onlyGivenNames x; clear_value x)
    | (extract_lets +onlyGivenNames x)
    | split
    | (refine OKeeps.of_some (by assumption) ?_)
    | (refine OPKeeps.of_some (by assumption) ?_)
    | (refine Stage4.Keeps.of_done (by assumption) ?_)
    | (with_reducible refine Keeps.of_pair (by assumption) ?_)
    | (with_reducible refine Keeps.of_pair2 (by assumption) ?_)
    | (fail_if_no_progress dsimp only)

theorem execKeyZeroise_keeps (c : HostCmd) (bad : List Nat) (t : Nat) (s0 : State) :
    ∃ z, execKeyZeroise c bad t s0 = .next z ∧ Keeps false (s0.advance t) z := by
  unfold execKeyZeroise
  refine ⟨_, rfl, ?_⟩
  repeat' first
    | with_reducible assumption
    | with_reducible exact Keeps.refl _ _
    | with_reducible apply Keeps.ite
    | (fail_if_no_progress with_reducible apply Keeps.upd)
    | (fail_if_no_progress with_reducible apply Keeps.upd_filter)
    | (fail_if_no_progress with_reducible apply Keeps.upd_filter_all)
    | with_reducible apply State.advance_keeps
    | with_reducible apply State.deny_keeps
    | with_reducible apply State.keyNote_keeps
    | with_reducible apply State.complete_keeps
    | with_reducible apply State.zeroiseKey_keeps
    | with_reducible apply State.sticky_keeps
    | with_reducible apply State.journal_keeps
    | (with_reducible refine Keeps.foldl ?_ ?_)
    | (with_reducible refine Keeps.foldl_fst ?_ ?_)
    | (intro u a hu; beta_reduce)
    | (intro u hu; beta_reduce)
    | (extract_lets +onlyGivenNames x; refine Keeps.cut (st := false) (b := (s0.advance t)) x ?_ ?_; rotate_left; (clear_value x; intro hx); rotate_left; subst x)
    | (extract_lets +onlyGivenNames x; refine Keeps.cut (st := false) (b := (s0.advance t)) x.1 ?_ ?_; rotate_left; (clear_value x; intro hx); rotate_left; subst x)
    | (extract_lets +onlyGivenNames x; refine Keeps.cut (st := false) (b := (s0.advance t)) x.2 ?_ ?_; rotate_left; (clear_value x; intro hx); rotate_left; subst x)
    | (extract_lets +onlyGivenNames x; clear_value x)
    | (extract_lets +onlyGivenNames x)
    | split
    | (fail_if_no_progress dsimp only)

theorem execKeyUse_keeps (k : Nat) (slot : Nat) (part : Nat) (dst : Nat) (modulus : Nat) (t : Nat) (s0 : State) :
    ∃ z, execKeyUse k slot part dst modulus t s0 = .next z ∧ Keeps false (s0.advance t) z := by
  unfold execKeyUse
  refine ⟨_, rfl, ?_⟩
  repeat' first
    | with_reducible assumption
    | with_reducible exact Keeps.refl _ _
    | with_reducible apply Keeps.ite
    | (fail_if_no_progress with_reducible apply Keeps.upd)
    | with_reducible apply State.advance_keeps
    | with_reducible apply State.deny_keeps
    | with_reducible apply State.useKey_keeps
    | with_reducible apply State.keyPoison_keeps
    | with_reducible apply State.drawMask_keeps
    | with_reducible apply State.setOperand_keeps
    | (extract_lets +onlyGivenNames x; refine Keeps.cut (st := false) (b := (s0.advance t)) x ?_ ?_; rotate_left; (clear_value x; intro hx); rotate_left; subst x)
    | (extract_lets +onlyGivenNames x; refine Keeps.cut (st := false) (b := (s0.advance t)) x.1 ?_ ?_; rotate_left; (clear_value x; intro hx); rotate_left; subst x)
    | (extract_lets +onlyGivenNames x; refine Keeps.cut (st := false) (b := (s0.advance t)) x.2 ?_ ?_; rotate_left; (clear_value x; intro hx); rotate_left; subst x)
    | (extract_lets +onlyGivenNames x; clear_value x)
    | (extract_lets +onlyGivenNames x)
    | split
    | (refine OKeeps.of_some (by assumption) ?_)
    | (refine OPKeeps.of_some (by assumption) ?_)
    | (refine Stage4.Keeps.of_done (by assumption) ?_)
    | (with_reducible refine Keeps.of_pair (by assumption) ?_)
    | (with_reducible refine Keeps.of_pair2 (by assumption) ?_)
    | (fail_if_no_progress dsimp only)

theorem execRowGo_keeps (k : Nat) (d : Nat) (a : Nat) (b : Nat) (c : Nat) (w : Nat) (t : Nat) (s0 : State) :
    ∃ z, execRowGo k d a b c w t s0 = .next z ∧ Keeps false (s0.advance t) z := by
  unfold execRowGo
  refine ⟨_, rfl, ?_⟩
  repeat' first
    | with_reducible assumption
    | with_reducible exact Keeps.refl _ _
    | with_reducible apply Keeps.ite
    | (fail_if_no_progress with_reducible apply Keeps.upd)
    | with_reducible apply State.advance_keeps
    | with_reducible apply State.rowEnd_keeps
    | (intro u a hu; beta_reduce)
    | (intro u hu; beta_reduce)
    | (extract_lets +onlyGivenNames x; refine Keeps.cut (st := false) (b := (s0.advance t)) x ?_ ?_; rotate_left; (clear_value x; intro hx); rotate_left; subst x)
    | (extract_lets +onlyGivenNames x; refine Keeps.cut (st := false) (b := (s0.advance t)) x.1 ?_ ?_; rotate_left; (clear_value x; intro hx); rotate_left; subst x)
    | (extract_lets +onlyGivenNames x; refine Keeps.cut (st := false) (b := (s0.advance t)) x.2 ?_ ?_; rotate_left; (clear_value x; intro hx); rotate_left; subst x)
    | (extract_lets +onlyGivenNames x; clear_value x)
    | (extract_lets +onlyGivenNames x)
    | split
    | (refine OKeeps.of_some (by assumption) ?_)
    | (refine OPKeeps.of_some (by assumption) ?_)
    | (refine Stage4.Keeps.of_done (by assumption) ?_)
    | (with_reducible refine Keeps.of_pair (by assumption) ?_)
    | (with_reducible refine Keeps.of_pair2 (by assumption) ?_)
    | (fail_if_no_progress dsimp only)

theorem execRowDone_keeps (k : Nat) (t : Nat) (s0 : State) :
    ∃ z, execRowDone k t s0 = .next z ∧ Keeps false (s0.advance t) z := by
  unfold execRowDone
  refine ⟨_, rfl, ?_⟩
  repeat' first
    | with_reducible assumption
    | with_reducible exact Keeps.refl _ _
    | with_reducible apply Keeps.ite
    | (fail_if_no_progress with_reducible apply Keeps.upd)
    | with_reducible apply State.advance_keeps
    | with_reducible apply State.rowEnd_keeps
    | (extract_lets +onlyGivenNames x; refine Keeps.cut (st := false) (b := (s0.advance t)) x ?_ ?_; rotate_left; (clear_value x; intro hx); rotate_left; subst x)
    | (extract_lets +onlyGivenNames x; refine Keeps.cut (st := false) (b := (s0.advance t)) x.1 ?_ ?_; rotate_left; (clear_value x; intro hx); rotate_left; subst x)
    | (extract_lets +onlyGivenNames x; refine Keeps.cut (st := false) (b := (s0.advance t)) x.2 ?_ ?_; rotate_left; (clear_value x; intro hx); rotate_left; subst x)
    | (extract_lets +onlyGivenNames x; clear_value x)
    | (extract_lets +onlyGivenNames x)
    | split
    | (refine OKeeps.of_some (by assumption) ?_)
    | (refine OPKeeps.of_some (by assumption) ?_)
    | (refine Stage4.Keeps.of_done (by assumption) ?_)
    | (with_reducible refine Keeps.of_pair (by assumption) ?_)
    | (with_reducible refine Keeps.of_pair2 (by assumption) ?_)
    | (fail_if_no_progress dsimp only)

theorem execPkeKat_keeps (e : Nat) (ok : Bool) (t : Nat) (s0 : State) :
    ∃ z, execPkeKat e ok t s0 = .next z ∧ Keeps false (s0.advance t) z := by
  unfold execPkeKat
  refine ⟨_, rfl, ?_⟩
  repeat' first
    | with_reducible assumption
    | with_reducible exact Keeps.refl _ _
    | with_reducible apply Keeps.ite
    | (fail_if_no_progress with_reducible apply Keeps.upd)
    | with_reducible apply State.advance_keeps
    | with_reducible apply State.engineFail_keeps
    | (extract_lets +onlyGivenNames x; refine Keeps.cut (st := false) (b := (s0.advance t)) x ?_ ?_; rotate_left; (clear_value x; intro hx); rotate_left; subst x)
    | (extract_lets +onlyGivenNames x; refine Keeps.cut (st := false) (b := (s0.advance t)) x.1 ?_ ?_; rotate_left; (clear_value x; intro hx); rotate_left; subst x)
    | (extract_lets +onlyGivenNames x; refine Keeps.cut (st := false) (b := (s0.advance t)) x.2 ?_ ?_; rotate_left; (clear_value x; intro hx); rotate_left; subst x)
    | (extract_lets +onlyGivenNames x; clear_value x)
    | (extract_lets +onlyGivenNames x)
    | split
    | (fail_if_no_progress dsimp only)

theorem execFindGo_keeps (m : Nat) (span : Nat) (t : Nat) (s : State) :
    ∃ z, execFindGo m span t s = .next z ∧ Keeps false (s.advance t) z := by
  unfold execFindGo
  refine ⟨_, rfl, ?_⟩
  repeat' first
    | with_reducible assumption
    | with_reducible exact Keeps.refl _ _
    | with_reducible apply Keeps.ite
    | (fail_if_no_progress with_reducible apply Keeps.upd)
    | with_reducible apply State.advance_keeps
    | with_reducible apply State.busWrite_keeps
    | with_reducible apply State.findGo_keeps
    | (intro u a hu; beta_reduce)
    | (intro u hu; beta_reduce)
    | (fail_if_no_progress dsimp only)

theorem execJournalRecord_keeps (t : Nat) (s0 : State) :
    ∃ z, execJournalRecord t s0 = .next z ∧ Keeps false (s0.advance t) z := by
  unfold execJournalRecord
  refine ⟨_, rfl, ?_⟩
  repeat' first
    | with_reducible assumption
    | with_reducible exact Keeps.refl _ _
    | with_reducible apply Keeps.ite
    | (fail_if_no_progress with_reducible apply Keeps.upd)
    | with_reducible apply State.advance_keeps
    | with_reducible apply State.setBuf_keeps
    | with_reducible apply State.bump_keeps
    | with_reducible apply State.sticky_keeps
    | with_reducible apply State.qTake_keeps
    | with_reducible apply State.setFls_keeps
    | with_reducible apply State.bufPut_keeps
    | with_reducible apply State.setN_keeps
    | with_reducible apply State.complete_keeps
    | (intro u a hu; beta_reduce)
    | (intro u hu; beta_reduce)
    | (extract_lets +onlyGivenNames x; refine Keeps.cut (st := false) (b := (s0.advance t)) x ?_ ?_; rotate_left; (clear_value x; intro hx); rotate_left; subst x)
    | (extract_lets +onlyGivenNames x; refine Keeps.cut (st := false) (b := (s0.advance t)) x.1 ?_ ?_; rotate_left; (clear_value x; intro hx); rotate_left; subst x)
    | (extract_lets +onlyGivenNames x; refine Keeps.cut (st := false) (b := (s0.advance t)) x.2 ?_ ?_; rotate_left; (clear_value x; intro hx); rotate_left; subst x)
    | (extract_lets +onlyGivenNames x; clear_value x)
    | (extract_lets +onlyGivenNames x)
    | split
    | (refine OKeeps.of_some (by assumption) ?_)
    | (refine OPKeeps.of_some (by assumption) ?_)
    | (refine Stage4.Keeps.of_done (by assumption) ?_)
    | (with_reducible refine Keeps.of_pair (by assumption) ?_)
    | (with_reducible refine Keeps.of_pair2 (by assumption) ?_)
    | (fail_if_no_progress dsimp only)

theorem execJournalPageProgram_keeps (out : NandOut) (t : Nat) (s0 : State) :
    ∃ z, execJournalPageProgram out t s0 = .next z ∧ Keeps false (s0.advance t) z := by
  unfold execJournalPageProgram
  refine ⟨_, rfl, ?_⟩
  repeat' first
    | with_reducible assumption
    | with_reducible exact Keeps.refl _ _
    | with_reducible apply Keeps.ite
    | (fail_if_no_progress with_reducible apply Keeps.upd)
    | with_reducible apply State.advance_keeps
    | with_reducible apply State.programPage_keeps
    | with_reducible apply State.nand_keeps
    | (extract_lets +onlyGivenNames x; refine Keeps.cut (st := false) (b := (s0.advance t)) x ?_ ?_; rotate_left; (clear_value x; intro hx); rotate_left; subst x)
    | (extract_lets +onlyGivenNames x; refine Keeps.cut (st := false) (b := (s0.advance t)) x.1 ?_ ?_; rotate_left; (clear_value x; intro hx); rotate_left; subst x)
    | (extract_lets +onlyGivenNames x; refine Keeps.cut (st := false) (b := (s0.advance t)) x.2 ?_ ?_; rotate_left; (clear_value x; intro hx); rotate_left; subst x)
    | (extract_lets +onlyGivenNames x; clear_value x)
    | (extract_lets +onlyGivenNames x)
    | split
    | (fail_if_no_progress dsimp only)

theorem execJournalFlushTimeout_keeps (out : NandOut) (t : Nat) (s0 : State) :
    ∃ z, execJournalFlushTimeout out t s0 = .next z ∧ Keeps false (s0.advance t) z := by
  unfold execJournalFlushTimeout
  refine ⟨_, rfl, ?_⟩
  repeat' first
    | with_reducible assumption
    | with_reducible exact Keeps.refl _ _
    | with_reducible apply Keeps.ite
    | (fail_if_no_progress with_reducible apply Keeps.upd)
    | with_reducible apply State.advance_keeps
    | with_reducible apply State.padPage_keeps
    | with_reducible apply State.programAll_keeps
    | with_reducible apply State.nand_keeps
    | (extract_lets +onlyGivenNames x; refine Keeps.cut (st := false) (b := (s0.advance t)) x ?_ ?_; rotate_left; (clear_value x; intro hx); rotate_left; subst x)
    | (extract_lets +onlyGivenNames x; refine Keeps.cut (st := false) (b := (s0.advance t)) x.1 ?_ ?_; rotate_left; (clear_value x; intro hx); rotate_left; subst x)
    | (extract_lets +onlyGivenNames x; refine Keeps.cut (st := false) (b := (s0.advance t)) x.2 ?_ ?_; rotate_left; (clear_value x; intro hx); rotate_left; subst x)
    | (extract_lets +onlyGivenNames x; clear_value x)
    | (extract_lets +onlyGivenNames x)
    | split
    | (refine OKeeps.of_some (by assumption) ?_)
    | (refine OPKeeps.of_some (by assumption) ?_)
    | (refine Stage4.Keeps.of_done (by assumption) ?_)
    | (with_reducible refine Keeps.of_pair (by assumption) ?_)
    | (with_reducible refine Keeps.of_pair2 (by assumption) ?_)
    | (fail_if_no_progress dsimp only)

theorem execFlowstoneKaCycle_keeps (out : NandOut) (t : Nat) (s0 : State) :
    ∃ z, execFlowstoneKaCycle out t s0 = .next z ∧ Keeps false (s0.advance t) z := by
  unfold execFlowstoneKaCycle
  refine ⟨_, rfl, ?_⟩
  repeat' first
    | with_reducible assumption
    | with_reducible exact Keeps.refl _ _
    | with_reducible apply Keeps.ite
    | (fail_if_no_progress with_reducible apply Keeps.upd)
    | with_reducible apply State.advance_keeps
    | with_reducible apply State.bump_keeps
    | with_reducible apply State.setN_keeps
    | with_reducible apply State.flsFlush_keeps
    | with_reducible apply State.nand_keeps
    | (extract_lets +onlyGivenNames x; refine Keeps.cut (st := false) (b := (s0.advance t)) x ?_ ?_; rotate_left; (clear_value x; intro hx); rotate_left; subst x)
    | (extract_lets +onlyGivenNames x; refine Keeps.cut (st := false) (b := (s0.advance t)) x.1 ?_ ?_; rotate_left; (clear_value x; intro hx); rotate_left; subst x)
    | (extract_lets +onlyGivenNames x; refine Keeps.cut (st := false) (b := (s0.advance t)) x.2 ?_ ?_; rotate_left; (clear_value x; intro hx); rotate_left; subst x)
    | (extract_lets +onlyGivenNames x; clear_value x)
    | (extract_lets +onlyGivenNames x)
    | split
    | (fail_if_no_progress dsimp only)

theorem execScrubPassStart_keeps (t : Nat) (s0 : State) :
    ∃ z, execScrubPassStart t s0 = .next z ∧ Keeps false (s0.advance t) z := by
  unfold execScrubPassStart
  refine ⟨_, rfl, ?_⟩
  repeat' first
    | with_reducible assumption
    | with_reducible exact Keeps.refl _ _
    | with_reducible apply Keeps.ite
    | (fail_if_no_progress with_reducible apply Keeps.upd)
    | with_reducible apply State.advance_keeps
    | with_reducible apply State.wr_keeps
    | with_reducible apply State.setFls_keeps
    | (intro u a hu; beta_reduce)
    | (intro u hu; beta_reduce)
    | (extract_lets +onlyGivenNames x; refine Keeps.cut (st := false) (b := (s0.advance t)) x ?_ ?_; rotate_left; (clear_value x; intro hx); rotate_left; subst x)
    | (extract_lets +onlyGivenNames x; refine Keeps.cut (st := false) (b := (s0.advance t)) x.1 ?_ ?_; rotate_left; (clear_value x; intro hx); rotate_left; subst x)
    | (extract_lets +onlyGivenNames x; refine Keeps.cut (st := false) (b := (s0.advance t)) x.2 ?_ ?_; rotate_left; (clear_value x; intro hx); rotate_left; subst x)
    | (extract_lets +onlyGivenNames x; clear_value x)
    | (extract_lets +onlyGivenNames x)
    | split
    | (fail_if_no_progress dsimp only)

theorem execScrubPassEnd_keeps (corrMax : Nat) (out : NandOut) (t : Nat) (s0 : State) :
    ∃ z, execScrubPassEnd corrMax out t s0 = .next z ∧ Keeps false (s0.advance t) z := by
  unfold execScrubPassEnd
  refine ⟨_, rfl, ?_⟩
  repeat' first
    | with_reducible assumption
    | with_reducible exact Keeps.refl _ _
    | with_reducible apply Keeps.ite
    | (fail_if_no_progress with_reducible apply Keeps.upd)
    | with_reducible apply State.advance_keeps
    | with_reducible apply State.wr_keeps
    | with_reducible apply State.nand_keeps
    | with_reducible apply State.setN_keeps
    | with_reducible apply State.setQuiet_keeps
    | with_reducible apply State.journal_keeps
    | (extract_lets +onlyGivenNames x; refine Keeps.cut (st := false) (b := (s0.advance t)) x ?_ ?_; rotate_left; (clear_value x; intro hx); rotate_left; subst x)
    | (extract_lets +onlyGivenNames x; refine Keeps.cut (st := false) (b := (s0.advance t)) x.1 ?_ ?_; rotate_left; (clear_value x; intro hx); rotate_left; subst x)
    | (extract_lets +onlyGivenNames x; refine Keeps.cut (st := false) (b := (s0.advance t)) x.2 ?_ ?_; rotate_left; (clear_value x; intro hx); rotate_left; subst x)
    | (extract_lets +onlyGivenNames x; clear_value x)
    | (extract_lets +onlyGivenNames x)
    | split
    | (fail_if_no_progress dsimp only)

theorem execWearLevelMove_keeps (out : NandOut) (t : Nat) (s0 : State) :
    ∃ z, execWearLevelMove out t s0 = .next z ∧ Keeps false (s0.advance t) z := by
  unfold execWearLevelMove
  refine ⟨_, rfl, ?_⟩
  repeat' first
    | with_reducible assumption
    | with_reducible exact Keeps.refl _ _
    | with_reducible apply Keeps.ite
    | (fail_if_no_progress with_reducible apply Keeps.upd)
    | with_reducible apply State.advance_keeps
    | with_reducible apply State.setFls_keeps
    | with_reducible apply State.nand_keeps
    | with_reducible apply State.seqEvent_keeps
    | (intro u a hu; beta_reduce)
    | (intro u hu; beta_reduce)
    | (extract_lets +onlyGivenNames x; refine Keeps.cut (st := false) (b := (s0.advance t)) x ?_ ?_; rotate_left; (clear_value x; intro hx); rotate_left; subst x)
    | (extract_lets +onlyGivenNames x; refine Keeps.cut (st := false) (b := (s0.advance t)) x.1 ?_ ?_; rotate_left; (clear_value x; intro hx); rotate_left; subst x)
    | (extract_lets +onlyGivenNames x; refine Keeps.cut (st := false) (b := (s0.advance t)) x.2 ?_ ?_; rotate_left; (clear_value x; intro hx); rotate_left; subst x)
    | (extract_lets +onlyGivenNames x; clear_value x)
    | (extract_lets +onlyGivenNames x)
    | split
    | (fail_if_no_progress dsimp only)

theorem execJournalAppend_keeps (c : HostCmd) (t : Nat) (s0 : State) :
    ∃ z, execJournalAppend c t s0 = .next z ∧ Keeps false (s0.advance t) z := by
  unfold execJournalAppend
  refine ⟨_, rfl, ?_⟩
  repeat' first
    | with_reducible assumption
    | with_reducible exact Keeps.refl _ _
    | with_reducible apply Keeps.ite
    | (fail_if_no_progress with_reducible apply Keeps.upd)
    | with_reducible apply State.advance_keeps
    | with_reducible apply State.flsDone_keeps
    | with_reducible apply State.journal_keeps
    | with_reducible apply State.takeCmd_keeps
    | with_reducible apply State.setFls_keeps
    | (intro u a hu; beta_reduce)
    | (intro u hu; beta_reduce)
    | (extract_lets +onlyGivenNames x; refine Keeps.cut (st := false) (b := (s0.advance t)) x ?_ ?_; rotate_left; (clear_value x; intro hx); rotate_left; subst x)
    | (extract_lets +onlyGivenNames x; refine Keeps.cut (st := false) (b := (s0.advance t)) x.1 ?_ ?_; rotate_left; (clear_value x; intro hx); rotate_left; subst x)
    | (extract_lets +onlyGivenNames x; refine Keeps.cut (st := false) (b := (s0.advance t)) x.2 ?_ ?_; rotate_left; (clear_value x; intro hx); rotate_left; subst x)
    | (extract_lets +onlyGivenNames x; clear_value x)
    | (extract_lets +onlyGivenNames x)
    | split
    | (fail_if_no_progress dsimp only)

theorem execImageWrite_keeps (c : HostCmd) (busy : Bool) (readErr : Option Nat) (chk : CopyCheck) (out : NandOut) (t : Nat) (s0 : State) :
    ∃ z, execImageWrite c busy readErr chk out t s0 = .next z ∧ Keeps false (s0.advance t) z := by
  unfold execImageWrite
  refine ⟨_, rfl, ?_⟩
  repeat' first
    | with_reducible assumption
    | with_reducible exact Keeps.refl _ _
    | with_reducible apply Keeps.ite
    | (fail_if_no_progress with_reducible apply Keeps.upd)
    | with_reducible apply State.advance_keeps
    | with_reducible apply State.flsDone_keeps
    | with_reducible apply State.nand_keeps
    | with_reducible apply State.setImg_keeps
    | with_reducible apply State.dmaAbort_keeps
    | with_reducible apply State.poisonSeen_keeps
    | with_reducible apply State.sticky_keeps
    | with_reducible apply State.seqEvent_keeps
    | with_reducible apply State.journal_keeps
    | (extract_lets +onlyGivenNames x; refine Keeps.cut (st := false) (b := (s0.advance t)) x ?_ ?_; rotate_left; (clear_value x; intro hx); rotate_left; subst x)
    | (extract_lets +onlyGivenNames x; refine Keeps.cut (st := false) (b := (s0.advance t)) x.1 ?_ ?_; rotate_left; (clear_value x; intro hx); rotate_left; subst x)
    | (extract_lets +onlyGivenNames x; refine Keeps.cut (st := false) (b := (s0.advance t)) x.2 ?_ ?_; rotate_left; (clear_value x; intro hx); rotate_left; subst x)
    | (extract_lets +onlyGivenNames x; clear_value x)
    | (extract_lets +onlyGivenNames x)
    | split
    | (refine OKeeps.of_some (by assumption) ?_)
    | (refine OPKeeps.of_some (by assumption) ?_)
    | (refine Stage4.Keeps.of_done (by assumption) ?_)
    | (with_reducible refine Keeps.of_pair (by assumption) ?_)
    | (with_reducible refine Keeps.of_pair2 (by assumption) ?_)
    | (fail_if_no_progress dsimp only)

theorem execImageCommit_keeps (c : HostCmd) (busy : Bool) (out : NandOut) (t : Nat) (s0 : State) :
    ∃ z, execImageCommit c busy out t s0 = .next z ∧ Keeps false (s0.advance t) z := by
  unfold execImageCommit
  refine ⟨_, rfl, ?_⟩
  repeat' first
    | with_reducible assumption
    | with_reducible exact Keeps.refl _ _
    | with_reducible apply Keeps.ite
    | (fail_if_no_progress with_reducible apply Keeps.upd)
    | with_reducible apply State.advance_keeps
    | with_reducible apply State.flsDone_keeps
    | with_reducible apply State.nand_keeps
    | with_reducible apply State.setFls_keeps
    | with_reducible apply State.bumpF_keeps
    | with_reducible apply State.wrB_keeps
    | with_reducible apply State.journal_keeps
    | (intro u a hu; beta_reduce)
    | (intro u hu; beta_reduce)
    | (extract_lets +onlyGivenNames x; refine Keeps.cut (st := false) (b := (s0.advance t)) x ?_ ?_; rotate_left; (clear_value x; intro hx); rotate_left; subst x)
    | (extract_lets +onlyGivenNames x; refine Keeps.cut (st := false) (b := (s0.advance t)) x.1 ?_ ?_; rotate_left; (clear_value x; intro hx); rotate_left; subst x)
    | (extract_lets +onlyGivenNames x; refine Keeps.cut (st := false) (b := (s0.advance t)) x.2 ?_ ?_; rotate_left; (clear_value x; intro hx); rotate_left; subst x)
    | (extract_lets +onlyGivenNames x; clear_value x)
    | (extract_lets +onlyGivenNames x)
    | split
    | (fail_if_no_progress dsimp only)

theorem execFlsRead_keeps (c : HostCmd) (busy : Bool) (dma : Option (Nat × Nat)) (out : NandOut) (t : Nat) (s0 : State) :
    ∃ z, execFlsRead c busy dma out t s0 = .next z ∧ Keeps true (s0.advance t) z := by
  unfold execFlsRead
  refine ⟨_, rfl, ?_⟩
  repeat' first
    | with_reducible assumption
    | with_reducible exact Keeps.refl _ _
    | with_reducible apply Keeps.ite
    | (fail_if_no_progress with_reducible apply Keeps.upd)
    | with_reducible apply State.advance_keeps
    | with_reducible apply State.flsDone_keeps
    | with_reducible apply State.nand_keeps
    | with_reducible apply State.setBytes_keeps
    | with_reducible apply State.dmaAbort_keeps
    | with_reducible apply State.seqEvent_keeps
    | (intro u a hu; beta_reduce)
    | (intro u hu; beta_reduce)
    | (extract_lets +onlyGivenNames x; refine Keeps.cut (st := true) (b := (s0.advance t)) x ?_ ?_; rotate_left; (clear_value x; intro hx); rotate_left; subst x)
    | (extract_lets +onlyGivenNames x; refine Keeps.cut (st := true) (b := (s0.advance t)) x.1 ?_ ?_; rotate_left; (clear_value x; intro hx); rotate_left; subst x)
    | (extract_lets +onlyGivenNames x; refine Keeps.cut (st := true) (b := (s0.advance t)) x.2 ?_ ?_; rotate_left; (clear_value x; intro hx); rotate_left; subst x)
    | (extract_lets +onlyGivenNames x; clear_value x)
    | (extract_lets +onlyGivenNames x)
    | split
    | (refine OKeeps.of_some (by assumption) ?_)
    | (refine OPKeeps.of_some (by assumption) ?_)
    | (refine Stage4.Keeps.of_done (by assumption) ?_)
    | (with_reducible refine Keeps.of_pair (by assumption) ?_)
    | (with_reducible refine Keeps.of_pair2 (by assumption) ?_)
    | (fail_if_no_progress dsimp only)

theorem execNandTimeout_keeps (c : HostCmd) (t : Nat) (s0 : State) :
    ∃ z, execNandTimeout c t s0 = .next z ∧ Keeps false (s0.advance t) z := by
  unfold execNandTimeout
  refine ⟨_, rfl, ?_⟩
  repeat' first
    | with_reducible assumption
    | with_reducible exact Keeps.refl _ _
    | with_reducible apply Keeps.ite
    | (fail_if_no_progress with_reducible apply Keeps.upd)
    | (fail_if_no_progress with_reducible apply Keeps.upd_filter)
    | (fail_if_no_progress with_reducible apply Keeps.upd_filter_all)
    | with_reducible apply State.advance_keeps
    | with_reducible apply State.setFls_keeps
    | with_reducible apply State.sticky_keeps
    | with_reducible apply State.flsDone_keeps
    | (intro u a hu; beta_reduce)
    | (intro u hu; beta_reduce)
    | (extract_lets +onlyGivenNames x; refine Keeps.cut (st := false) (b := (s0.advance t)) x ?_ ?_; rotate_left; (clear_value x; intro hx); rotate_left; subst x)
    | (extract_lets +onlyGivenNames x; refine Keeps.cut (st := false) (b := (s0.advance t)) x.1 ?_ ?_; rotate_left; (clear_value x; intro hx); rotate_left; subst x)
    | (extract_lets +onlyGivenNames x; refine Keeps.cut (st := false) (b := (s0.advance t)) x.2 ?_ ?_; rotate_left; (clear_value x; intro hx); rotate_left; subst x)
    | (extract_lets +onlyGivenNames x; clear_value x)
    | (extract_lets +onlyGivenNames x)
    | split
    | (fail_if_no_progress dsimp only)

theorem execSeqNop_keeps (n : Nat) (p : Bool) (t : Nat) (s : State) :
    ∃ z, execSeqNop n p t s = .next z ∧ Keeps false (s.advance t) z := by
  exact ⟨_, rfl, State.sqRow_keeps ..⟩

theorem execSeqAdd_keeps (n : Nat) (p : Bool) (t : Nat) (s : State) :
    ∃ z, execSeqAdd n p t s = .next z ∧ Keeps false (s.advance t) z := by
  exact ⟨_, rfl, State.sqRow_keeps ..⟩

theorem execSeqSub_keeps (n : Nat) (p : Bool) (t : Nat) (s : State) :
    ∃ z, execSeqSub n p t s = .next z ∧ Keeps false (s.advance t) z := by
  exact ⟨_, rfl, State.sqRow_keeps ..⟩

theorem execSeqAddc_keeps (n : Nat) (p : Bool) (t : Nat) (s : State) :
    ∃ z, execSeqAddc n p t s = .next z ∧ Keeps false (s.advance t) z := by
  exact ⟨_, rfl, State.sqRow_keeps ..⟩

theorem execSeqSubc_keeps (n : Nat) (p : Bool) (t : Nat) (s : State) :
    ∃ z, execSeqSubc n p t s = .next z ∧ Keeps false (s.advance t) z := by
  exact ⟨_, rfl, State.sqRow_keeps ..⟩

theorem execSeqAnd_keeps (n : Nat) (p : Bool) (t : Nat) (s : State) :
    ∃ z, execSeqAnd n p t s = .next z ∧ Keeps false (s.advance t) z := by
  exact ⟨_, rfl, State.sqRow_keeps ..⟩

theorem execSeqOr_keeps (n : Nat) (p : Bool) (t : Nat) (s : State) :
    ∃ z, execSeqOr n p t s = .next z ∧ Keeps false (s.advance t) z := by
  exact ⟨_, rfl, State.sqRow_keeps ..⟩

theorem execSeqXor_keeps (n : Nat) (p : Bool) (t : Nat) (s : State) :
    ∃ z, execSeqXor n p t s = .next z ∧ Keeps false (s.advance t) z := by
  exact ⟨_, rfl, State.sqRow_keeps ..⟩

theorem execSeqShl_keeps (n : Nat) (p : Bool) (t : Nat) (s : State) :
    ∃ z, execSeqShl n p t s = .next z ∧ Keeps false (s.advance t) z := by
  exact ⟨_, rfl, State.sqRow_keeps ..⟩

theorem execSeqShr_keeps (n : Nat) (p : Bool) (t : Nat) (s : State) :
    ∃ z, execSeqShr n p t s = .next z ∧ Keeps false (s.advance t) z := by
  exact ⟨_, rfl, State.sqRow_keeps ..⟩

theorem execSeqSar_keeps (n : Nat) (p : Bool) (t : Nat) (s : State) :
    ∃ z, execSeqSar n p t s = .next z ∧ Keeps false (s.advance t) z := by
  exact ⟨_, rfl, State.sqRow_keeps ..⟩

theorem execSeqMul_keeps (n : Nat) (p : Bool) (t : Nat) (s : State) :
    ∃ z, execSeqMul n p t s = .next z ∧ Keeps false (s.advance t) z := by
  exact ⟨_, rfl, State.sqRow_keeps ..⟩

theorem execSeqMulh_keeps (n : Nat) (p : Bool) (t : Nat) (s : State) :
    ∃ z, execSeqMulh n p t s = .next z ∧ Keeps false (s.advance t) z := by
  exact ⟨_, rfl, State.sqRow_keeps ..⟩

theorem execSeqMulhu_keeps (n : Nat) (p : Bool) (t : Nat) (s : State) :
    ∃ z, execSeqMulhu n p t s = .next z ∧ Keeps false (s.advance t) z := by
  exact ⟨_, rfl, State.sqRow_keeps ..⟩

theorem execSeqClz_keeps (n : Nat) (p : Bool) (t : Nat) (s : State) :
    ∃ z, execSeqClz n p t s = .next z ∧ Keeps false (s.advance t) z := by
  exact ⟨_, rfl, State.sqRow_keeps ..⟩

theorem execSeqAddi_keeps (n : Nat) (p : Bool) (t : Nat) (s : State) :
    ∃ z, execSeqAddi n p t s = .next z ∧ Keeps false (s.advance t) z := by
  exact ⟨_, rfl, State.sqRow_keeps ..⟩

theorem execSeqAndi_keeps (n : Nat) (p : Bool) (t : Nat) (s : State) :
    ∃ z, execSeqAndi n p t s = .next z ∧ Keeps false (s.advance t) z := by
  exact ⟨_, rfl, State.sqRow_keeps ..⟩

theorem execSeqOri_keeps (n : Nat) (p : Bool) (t : Nat) (s : State) :
    ∃ z, execSeqOri n p t s = .next z ∧ Keeps false (s.advance t) z := by
  exact ⟨_, rfl, State.sqRow_keeps ..⟩

theorem execSeqXori_keeps (n : Nat) (p : Bool) (t : Nat) (s : State) :
    ∃ z, execSeqXori n p t s = .next z ∧ Keeps false (s.advance t) z := by
  exact ⟨_, rfl, State.sqRow_keeps ..⟩

theorem execSeqShli_keeps (n : Nat) (p : Bool) (t : Nat) (s : State) :
    ∃ z, execSeqShli n p t s = .next z ∧ Keeps false (s.advance t) z := by
  exact ⟨_, rfl, State.sqRow_keeps ..⟩

theorem execSeqShri_keeps (n : Nat) (p : Bool) (t : Nat) (s : State) :
    ∃ z, execSeqShri n p t s = .next z ∧ Keeps false (s.advance t) z := by
  exact ⟨_, rfl, State.sqRow_keeps ..⟩

theorem execSeqSari_keeps (n : Nat) (p : Bool) (t : Nat) (s : State) :
    ∃ z, execSeqSari n p t s = .next z ∧ Keeps false (s.advance t) z := by
  exact ⟨_, rfl, State.sqRow_keeps ..⟩

theorem execSeqLui_keeps (n : Nat) (p : Bool) (t : Nat) (s : State) :
    ∃ z, execSeqLui n p t s = .next z ∧ Keeps false (s.advance t) z := by
  exact ⟨_, rfl, State.sqRow_keeps ..⟩

theorem execSeqLd_keeps (n : Nat) (p : Bool) (dp : Bool) (t : Nat) (s : State) :
    ∃ z, execSeqLd n p dp t s = .next z ∧ Keeps false (s.advance t) z := by
  unfold execSeqLd
  refine ⟨_, rfl, ?_⟩
  repeat' first
    | with_reducible assumption
    | with_reducible exact Keeps.refl _ _
    | with_reducible apply Keeps.ite
    | (fail_if_no_progress with_reducible apply Keeps.upd)
    | with_reducible apply State.advance_keeps
    | with_reducible apply State.sqExec_keeps
    | with_reducible apply State.sqLoad_keeps
    | (with_reducible refine Keeps.foldl ?_ ?_)
    | (with_reducible refine Keeps.foldl_fst ?_ ?_)
    | (intro u a hu; beta_reduce)
    | (intro u hu; beta_reduce)
    | (extract_lets +onlyGivenNames x; refine Keeps.cut (st := false) (b := (s.advance t)) x ?_ ?_; rotate_left; (clear_value x; intro hx); rotate_left; subst x)
    | (extract_lets +onlyGivenNames x; refine Keeps.cut (st := false) (b := (s.advance t)) x.1 ?_ ?_; rotate_left; (clear_value x; intro hx); rotate_left; subst x)
    | (extract_lets +onlyGivenNames x; refine Keeps.cut (st := false) (b := (s.advance t)) x.2 ?_ ?_; rotate_left; (clear_value x; intro hx); rotate_left; subst x)
    | (extract_lets +onlyGivenNames x; clear_value x)
    | (extract_lets +onlyGivenNames x)
    | split
    | (refine OKeeps.of_some (by assumption) ?_)
    | (refine OPKeeps.of_some (by assumption) ?_)
    | (refine Stage4.Keeps.of_done (by assumption) ?_)
    | (with_reducible refine Keeps.of_pair (by assumption) ?_)
    | (with_reducible refine Keeps.of_pair2 (by assumption) ?_)
    | (fail_if_no_progress dsimp only)

theorem execSeqSt_keeps (n : Nat) (p : Bool) (t : Nat) (s : State) :
    ∃ z, execSeqSt n p t s = .next z ∧ Keeps false (s.advance t) z := by
  unfold execSeqSt
  refine ⟨_, rfl, ?_⟩
  repeat' first
    | with_reducible assumption
    | with_reducible exact Keeps.refl _ _
    | with_reducible apply Keeps.ite
    | (fail_if_no_progress with_reducible apply Keeps.upd)
    | with_reducible apply State.advance_keeps
    | with_reducible apply State.sqExec_keeps
    | with_reducible apply State.sqStore_keeps
    | (with_reducible refine Keeps.foldl ?_ ?_)
    | (with_reducible refine Keeps.foldl_fst ?_ ?_)
    | (intro u a hu; beta_reduce)
    | (intro u hu; beta_reduce)
    | (extract_lets +onlyGivenNames x; refine Keeps.cut (st := false) (b := (s.advance t)) x ?_ ?_; rotate_left; (clear_value x; intro hx); rotate_left; subst x)
    | (extract_lets +onlyGivenNames x; refine Keeps.cut (st := false) (b := (s.advance t)) x.1 ?_ ?_; rotate_left; (clear_value x; intro hx); rotate_left; subst x)
    | (extract_lets +onlyGivenNames x; refine Keeps.cut (st := false) (b := (s.advance t)) x.2 ?_ ?_; rotate_left; (clear_value x; intro hx); rotate_left; subst x)
    | (extract_lets +onlyGivenNames x; clear_value x)
    | (extract_lets +onlyGivenNames x)
    | split
    | (refine OKeeps.of_some (by assumption) ?_)
    | (refine OPKeeps.of_some (by assumption) ?_)
    | (refine Stage4.Keeps.of_done (by assumption) ?_)
    | (with_reducible refine Keeps.of_pair (by assumption) ?_)
    | (with_reducible refine Keeps.of_pair2 (by assumption) ?_)
    | (fail_if_no_progress dsimp only)

theorem execSeqBeq_keeps (n : Nat) (p : Bool) (t : Nat) (s : State) :
    ∃ z, execSeqBeq n p t s = .next z ∧ Keeps false (s.advance t) z := by
  exact ⟨_, rfl, State.sqRow_keeps ..⟩

theorem execSeqBne_keeps (n : Nat) (p : Bool) (t : Nat) (s : State) :
    ∃ z, execSeqBne n p t s = .next z ∧ Keeps false (s.advance t) z := by
  exact ⟨_, rfl, State.sqRow_keeps ..⟩

theorem execSeqBlt_keeps (n : Nat) (p : Bool) (t : Nat) (s : State) :
    ∃ z, execSeqBlt n p t s = .next z ∧ Keeps false (s.advance t) z := by
  exact ⟨_, rfl, State.sqRow_keeps ..⟩

theorem execSeqBge_keeps (n : Nat) (p : Bool) (t : Nat) (s : State) :
    ∃ z, execSeqBge n p t s = .next z ∧ Keeps false (s.advance t) z := by
  exact ⟨_, rfl, State.sqRow_keeps ..⟩

theorem execSeqBltu_keeps (n : Nat) (p : Bool) (t : Nat) (s : State) :
    ∃ z, execSeqBltu n p t s = .next z ∧ Keeps false (s.advance t) z := by
  exact ⟨_, rfl, State.sqRow_keeps ..⟩

theorem execSeqBgeu_keeps (n : Nat) (p : Bool) (t : Nat) (s : State) :
    ∃ z, execSeqBgeu n p t s = .next z ∧ Keeps false (s.advance t) z := by
  exact ⟨_, rfl, State.sqRow_keeps ..⟩

theorem execSeqJal_keeps (n : Nat) (p : Bool) (t : Nat) (s : State) :
    ∃ z, execSeqJal n p t s = .next z ∧ Keeps false (s.advance t) z := by
  exact ⟨_, rfl, State.sqRow_keeps ..⟩

theorem execSeqJr_keeps (n : Nat) (p : Bool) (t : Nat) (s : State) :
    ∃ z, execSeqJr n p t s = .next z ∧ Keeps false (s.advance t) z := by
  exact ⟨_, rfl, State.sqRow_keeps ..⟩

theorem execSeqSafe_keeps (n : Nat) (p : Bool) (t : Nat) (s : State) :
    ∃ z, execSeqSafe n p t s = .next z ∧ Keeps false (s.advance t) z := by
  unfold execSeqSafe
  refine ⟨_, rfl, ?_⟩
  repeat' first
    | with_reducible assumption
    | with_reducible exact Keeps.refl _ _
    | with_reducible apply Keeps.ite
    | (fail_if_no_progress with_reducible apply Keeps.upd)
    | with_reducible apply State.advance_keeps
    | with_reducible apply State.sqExec_keeps
    | with_reducible apply State.sqSafe_keeps
    | (with_reducible refine Keeps.foldl ?_ ?_)
    | (with_reducible refine Keeps.foldl_fst ?_ ?_)
    | (intro u a hu; beta_reduce)
    | (intro u hu; beta_reduce)
    | (extract_lets +onlyGivenNames x; refine Keeps.cut (st := false) (b := (s.advance t)) x ?_ ?_; rotate_left; (clear_value x; intro hx); rotate_left; subst x)
    | (extract_lets +onlyGivenNames x; refine Keeps.cut (st := false) (b := (s.advance t)) x.1 ?_ ?_; rotate_left; (clear_value x; intro hx); rotate_left; subst x)
    | (extract_lets +onlyGivenNames x; refine Keeps.cut (st := false) (b := (s.advance t)) x.2 ?_ ?_; rotate_left; (clear_value x; intro hx); rotate_left; subst x)
    | (extract_lets +onlyGivenNames x; clear_value x)
    | (extract_lets +onlyGivenNames x)
    | split
    | (refine OKeeps.of_some (by assumption) ?_)
    | (refine OPKeeps.of_some (by assumption) ?_)
    | (refine Stage4.Keeps.of_done (by assumption) ?_)
    | (with_reducible refine Keeps.of_pair (by assumption) ?_)
    | (with_reducible refine Keeps.of_pair2 (by assumption) ?_)
    | (fail_if_no_progress dsimp only)

theorem execSeqWait_keeps (n : Nat) (p : Bool) (t : Nat) (s : State) :
    ∃ z, execSeqWait n p t s = .next z ∧ Keeps false (s.advance t) z := by
  unfold execSeqWait
  refine ⟨_, rfl, ?_⟩
  repeat' first
    | with_reducible assumption
    | with_reducible exact Keeps.refl _ _
    | with_reducible apply Keeps.ite
    | (fail_if_no_progress with_reducible apply Keeps.upd)
    | with_reducible apply State.advance_keeps
    | with_reducible apply State.sqExec_keeps
    | with_reducible apply State.sqWait_keeps
    | (with_reducible refine Keeps.foldl ?_ ?_)
    | (with_reducible refine Keeps.foldl_fst ?_ ?_)
    | (intro u a hu; beta_reduce)
    | (intro u hu; beta_reduce)
    | (extract_lets +onlyGivenNames x; refine Keeps.cut (st := false) (b := (s.advance t)) x ?_ ?_; rotate_left; (clear_value x; intro hx); rotate_left; subst x)
    | (extract_lets +onlyGivenNames x; refine Keeps.cut (st := false) (b := (s.advance t)) x.1 ?_ ?_; rotate_left; (clear_value x; intro hx); rotate_left; subst x)
    | (extract_lets +onlyGivenNames x; refine Keeps.cut (st := false) (b := (s.advance t)) x.2 ?_ ?_; rotate_left; (clear_value x; intro hx); rotate_left; subst x)
    | (extract_lets +onlyGivenNames x; clear_value x)
    | (extract_lets +onlyGivenNames x)
    | split
    | (refine OKeeps.of_some (by assumption) ?_)
    | (refine OPKeeps.of_some (by assumption) ?_)
    | (refine Stage4.Keeps.of_done (by assumption) ?_)
    | (with_reducible refine Keeps.of_pair (by assumption) ?_)
    | (with_reducible refine Keeps.of_pair2 (by assumption) ?_)
    | (fail_if_no_progress dsimp only)

theorem execSeqTime_keeps (n : Nat) (p : Bool) (t : Nat) (s : State) :
    ∃ z, execSeqTime n p t s = .next z ∧ Keeps false (s.advance t) z := by
  exact ⟨_, rfl, State.sqRow_keeps ..⟩

theorem execSeqFaultInstr_keeps (n : Nat) (p : Bool) (t : Nat) (s : State) :
    ∃ z, execSeqFaultInstr n p t s = .next z ∧ Keeps false (s.advance t) z := by
  exact ⟨_, rfl, State.sqRow_keeps ..⟩

theorem execWaitWake_keeps (n : Nat) (t : Nat) (s0 : State) :
    ∃ z, execWaitWake n t s0 = .next z ∧ Keeps false (s0.advance t) z := by
  unfold execWaitWake
  refine ⟨_, rfl, ?_⟩
  repeat' first
    | with_reducible assumption
    | with_reducible exact Keeps.refl _ _
    | with_reducible apply Keeps.ite
    | (fail_if_no_progress with_reducible apply Keeps.upd)
    | with_reducible apply State.advance_keeps
    | with_reducible apply State.sqTo_keeps
    | with_reducible apply State.setSq_keeps
    | with_reducible apply State.sqPut_keeps
    | with_reducible apply State.sqNext_keeps
    | (extract_lets +onlyGivenNames x; refine Keeps.cut (st := false) (b := (s0.advance t)) x ?_ ?_; rotate_left; (clear_value x; intro hx); rotate_left; subst x)
    | (extract_lets +onlyGivenNames x; refine Keeps.cut (st := false) (b := (s0.advance t)) x.1 ?_ ?_; rotate_left; (clear_value x; intro hx); rotate_left; subst x)
    | (extract_lets +onlyGivenNames x; refine Keeps.cut (st := false) (b := (s0.advance t)) x.2 ?_ ?_; rotate_left; (clear_value x; intro hx); rotate_left; subst x)
    | (extract_lets +onlyGivenNames x; clear_value x)
    | (extract_lets +onlyGivenNames x)
    | split
    | (refine OKeeps.of_some (by assumption) ?_)
    | (refine OPKeeps.of_some (by assumption) ?_)
    | (refine Stage4.Keeps.of_done (by assumption) ?_)
    | (with_reducible refine Keeps.of_pair (by assumption) ?_)
    | (with_reducible refine Keeps.of_pair2 (by assumption) ?_)
    | (fail_if_no_progress dsimp only)

theorem execSeqAutoRestart_keeps (n : Nat) (t : Nat) (s0 : State) :
    ∃ z, execSeqAutoRestart n t s0 = .next z ∧ Keeps false (s0.advance t) z := by
  unfold execSeqAutoRestart
  refine ⟨_, rfl, ?_⟩
  repeat' first
    | with_reducible assumption
    | with_reducible exact Keeps.refl _ _
    | with_reducible apply Keeps.ite
    | (fail_if_no_progress with_reducible apply Keeps.upd)
    | (fail_if_no_progress with_reducible apply Keeps.upd_filter)
    | (fail_if_no_progress with_reducible apply Keeps.upd_filter_all)
    | with_reducible apply State.advance_keeps
    | with_reducible apply State.sticky_keeps
    | with_reducible apply State.setSq_keeps
    | with_reducible apply State.sqRestart_keeps
    | (intro u a hu; beta_reduce)
    | (intro u hu; beta_reduce)
    | (extract_lets +onlyGivenNames x; refine Keeps.cut (st := false) (b := (s0.advance t)) x ?_ ?_; rotate_left; (clear_value x; intro hx); rotate_left; subst x)
    | (extract_lets +onlyGivenNames x; refine Keeps.cut (st := false) (b := (s0.advance t)) x.1 ?_ ?_; rotate_left; (clear_value x; intro hx); rotate_left; subst x)
    | (extract_lets +onlyGivenNames x; refine Keeps.cut (st := false) (b := (s0.advance t)) x.2 ?_ ?_; rotate_left; (clear_value x; intro hx); rotate_left; subst x)
    | (extract_lets +onlyGivenNames x; clear_value x)
    | (extract_lets +onlyGivenNames x)
    | split
    | (fail_if_no_progress dsimp only)

theorem execSeqWatchdog_keeps (n : Nat) (t : Nat) (s0 : State) :
    ∃ z, execSeqWatchdog n t s0 = .next z ∧ Keeps false (s0.advance t) z := by
  unfold execSeqWatchdog
  refine ⟨_, rfl, ?_⟩
  repeat' first
    | with_reducible assumption
    | with_reducible exact Keeps.refl _ _
    | with_reducible apply Keeps.ite
    | (fail_if_no_progress with_reducible apply Keeps.upd)
    | with_reducible apply State.advance_keeps
    | with_reducible apply State.sqFault_keeps
    | (extract_lets +onlyGivenNames x; refine Keeps.cut (st := false) (b := (s0.advance t)) x ?_ ?_; rotate_left; (clear_value x; intro hx); rotate_left; subst x)
    | (extract_lets +onlyGivenNames x; refine Keeps.cut (st := false) (b := (s0.advance t)) x.1 ?_ ?_; rotate_left; (clear_value x; intro hx); rotate_left; subst x)
    | (extract_lets +onlyGivenNames x; refine Keeps.cut (st := false) (b := (s0.advance t)) x.2 ?_ ?_; rotate_left; (clear_value x; intro hx); rotate_left; subst x)
    | (extract_lets +onlyGivenNames x; clear_value x)
    | (extract_lets +onlyGivenNames x)
    | split
    | (fail_if_no_progress dsimp only)

theorem execProgLoad_keeps (c : HostCmd) (readErr : Option Nat) (t : Nat) (s0 : State) :
    ∃ z, execProgLoad c readErr t s0 = .next z ∧ Keeps false (s0.advance t) z := by
  unfold execProgLoad
  refine ⟨_, rfl, ?_⟩
  repeat' first
    | with_reducible assumption
    | with_reducible exact Keeps.refl _ _
    | with_reducible apply Keeps.ite
    | (fail_if_no_progress with_reducible apply Keeps.upd)
    | with_reducible apply State.advance_keeps
    | with_reducible apply State.dmaAbort_keeps
    | with_reducible apply State.poisonSeen_keeps
    | with_reducible apply State.loadDone_keeps
    | with_reducible apply State.writeBanks_keeps
    | with_reducible apply State.takeCmd_keeps
    | with_reducible apply State.setSwaps_keeps
    | (extract_lets +onlyGivenNames x; refine Keeps.cut (st := false) (b := (s0.advance t)) x ?_ ?_; rotate_left; (clear_value x; intro hx); rotate_left; subst x)
    | (extract_lets +onlyGivenNames x; refine Keeps.cut (st := false) (b := (s0.advance t)) x.1 ?_ ?_; rotate_left; (clear_value x; intro hx); rotate_left; subst x)
    | (extract_lets +onlyGivenNames x; refine Keeps.cut (st := false) (b := (s0.advance t)) x.2 ?_ ?_; rotate_left; (clear_value x; intro hx); rotate_left; subst x)
    | (extract_lets +onlyGivenNames x; clear_value x)
    | (extract_lets +onlyGivenNames x)
    | split
    | (refine OKeeps.of_some (by assumption) ?_)
    | (refine OPKeeps.of_some (by assumption) ?_)
    | (refine Stage4.Keeps.of_done (by assumption) ?_)
    | (with_reducible refine Keeps.of_pair (by assumption) ?_)
    | (with_reducible refine Keeps.of_pair2 (by assumption) ?_)
    | (fail_if_no_progress dsimp only)

theorem execSwapTimeout_keeps (n : Nat) (t : Nat) (s0 : State) :
    ∃ z, execSwapTimeout n t s0 = .next z ∧ Keeps false (s0.advance t) z := by
  unfold execSwapTimeout
  refine ⟨_, rfl, ?_⟩
  repeat' first
    | with_reducible assumption
    | with_reducible exact Keeps.refl _ _
    | with_reducible apply Keeps.ite
    | (fail_if_no_progress with_reducible apply Keeps.upd)
    | with_reducible apply State.advance_keeps
    | with_reducible apply State.swapEnd_keeps
    | with_reducible apply State.count_keeps
    | with_reducible apply State.sticky_keeps
    | (extract_lets +onlyGivenNames x; refine Keeps.cut (st := false) (b := (s0.advance t)) x ?_ ?_; rotate_left; (clear_value x; intro hx); rotate_left; subst x)
    | (extract_lets +onlyGivenNames x; refine Keeps.cut (st := false) (b := (s0.advance t)) x.1 ?_ ?_; rotate_left; (clear_value x; intro hx); rotate_left; subst x)
    | (extract_lets +onlyGivenNames x; refine Keeps.cut (st := false) (b := (s0.advance t)) x.2 ?_ ?_; rotate_left; (clear_value x; intro hx); rotate_left; subst x)
    | (extract_lets +onlyGivenNames x; clear_value x)
    | (extract_lets +onlyGivenNames x)
    | split
    | (refine OKeeps.of_some (by assumption) ?_)
    | (refine OPKeeps.of_some (by assumption) ?_)
    | (refine Stage4.Keeps.of_done (by assumption) ?_)
    | (with_reducible refine Keeps.of_pair (by assumption) ?_)
    | (with_reducible refine Keeps.of_pair2 (by assumption) ?_)
    | (fail_if_no_progress dsimp only)

theorem execSwapArm_keeps (m : Nat) (sync : Bool) (init : Bool) (t : Nat) (s : State) :
    ∃ z, execSwapArm m sync init t s = .next z ∧ Keeps false (s.advance t) z := by
  unfold execSwapArm
  refine ⟨_, rfl, ?_⟩
  repeat' first
    | with_reducible assumption
    | with_reducible exact Keeps.refl _ _
    | with_reducible apply Keeps.ite
    | (fail_if_no_progress with_reducible apply Keeps.upd)
    | with_reducible apply State.advance_keeps
    | with_reducible apply State.sqCtrl_keeps
    | with_reducible apply State.swapArm_keeps
    | (intro u a hu; beta_reduce)
    | (intro u hu; beta_reduce)
    | (fail_if_no_progress dsimp only)

theorem execSwapDisarm_keeps (m : Nat) (sync : Bool) (init : Bool) (t : Nat) (s : State) :
    ∃ z, execSwapDisarm m sync init t s = .next z ∧ Keeps false (s.advance t) z := by
  unfold execSwapDisarm
  refine ⟨_, rfl, ?_⟩
  repeat' first
    | with_reducible assumption
    | with_reducible exact Keeps.refl _ _
    | with_reducible apply Keeps.ite
    | (fail_if_no_progress with_reducible apply Keeps.upd)
    | with_reducible apply State.advance_keeps
    | with_reducible apply State.sqCtrl_keeps
    | with_reducible apply State.swapDisarm_keeps
    | (intro u a hu; beta_reduce)
    | (intro u hu; beta_reduce)
    | (fail_if_no_progress dsimp only)

theorem execSwapOpInvalid_keeps (m : Nat) (op : Nat) (t : Nat) (s : State) :
    ∃ z, execSwapOpInvalid m op t s = .next z ∧ Keeps false (s.advance t) z := by
  unfold execSwapOpInvalid
  refine ⟨_, rfl, ?_⟩
  repeat' first
    | with_reducible assumption
    | with_reducible exact Keeps.refl _ _
    | with_reducible apply Keeps.ite
    | (fail_if_no_progress with_reducible apply Keeps.upd)
    | with_reducible apply State.advance_keeps
    | with_reducible apply State.sqCtrl_keeps
    | with_reducible apply State.swapStatus_keeps
    | (intro u a hu; beta_reduce)
    | (intro u hu; beta_reduce)
    | split
    | (fail_if_no_progress dsimp only)

theorem execSeqHalt_keeps (m : Nat) (t : Nat) (s : State) :
    ∃ z, execSeqHalt m t s = .next z ∧ Keeps false (s.advance t) z := by
  unfold execSeqHalt
  refine ⟨_, rfl, ?_⟩
  repeat' first
    | with_reducible assumption
    | with_reducible exact Keeps.refl _ _
    | with_reducible apply Keeps.ite
    | (fail_if_no_progress with_reducible apply Keeps.upd)
    | with_reducible apply State.advance_keeps
    | with_reducible apply State.sqCtrl_keeps
    | with_reducible apply State.sqHalt_keeps
    | (with_reducible refine Keeps.foldl ?_ ?_)
    | (with_reducible refine Keeps.foldl_fst ?_ ?_)
    | (intro u a hu; beta_reduce)
    | (intro u hu; beta_reduce)
    | (extract_lets +onlyGivenNames x; refine Keeps.cut (st := false) (b := (s.advance t)) x ?_ ?_; rotate_left; (clear_value x; intro hx); rotate_left; subst x)
    | (extract_lets +onlyGivenNames x; refine Keeps.cut (st := false) (b := (s.advance t)) x.1 ?_ ?_; rotate_left; (clear_value x; intro hx); rotate_left; subst x)
    | (extract_lets +onlyGivenNames x; refine Keeps.cut (st := false) (b := (s.advance t)) x.2 ?_ ?_; rotate_left; (clear_value x; intro hx); rotate_left; subst x)
    | (extract_lets +onlyGivenNames x; clear_value x)
    | (extract_lets +onlyGivenNames x)
    | split
    | (refine OKeeps.of_some (by assumption) ?_)
    | (refine OPKeeps.of_some (by assumption) ?_)
    | (refine Stage4.Keeps.of_done (by assumption) ?_)
    | (with_reducible refine Keeps.of_pair (by assumption) ?_)
    | (with_reducible refine Keeps.of_pair2 (by assumption) ?_)
    | (fail_if_no_progress dsimp only)

theorem execSeqResume_keeps (m : Nat) (t : Nat) (s : State) :
    ∃ z, execSeqResume m t s = .next z ∧ Keeps false (s.advance t) z := by
  unfold execSeqResume
  refine ⟨_, rfl, ?_⟩
  repeat' first
    | with_reducible assumption
    | with_reducible exact Keeps.refl _ _
    | with_reducible apply Keeps.ite
    | (fail_if_no_progress with_reducible apply Keeps.upd)
    | with_reducible apply State.advance_keeps
    | with_reducible apply State.sqCtrl_keeps
    | with_reducible apply State.sqResume_keeps
    | (with_reducible refine Keeps.foldl ?_ ?_)
    | (with_reducible refine Keeps.foldl_fst ?_ ?_)
    | (intro u a hu; beta_reduce)
    | (intro u hu; beta_reduce)
    | (extract_lets +onlyGivenNames x; refine Keeps.cut (st := false) (b := (s.advance t)) x ?_ ?_; rotate_left; (clear_value x; intro hx); rotate_left; subst x)
    | (extract_lets +onlyGivenNames x; refine Keeps.cut (st := false) (b := (s.advance t)) x.1 ?_ ?_; rotate_left; (clear_value x; intro hx); rotate_left; subst x)
    | (extract_lets +onlyGivenNames x; refine Keeps.cut (st := false) (b := (s.advance t)) x.2 ?_ ?_; rotate_left; (clear_value x; intro hx); rotate_left; subst x)
    | (extract_lets +onlyGivenNames x; clear_value x)
    | (extract_lets +onlyGivenNames x)
    | split
    | (refine OKeeps.of_some (by assumption) ?_)
    | (refine OPKeeps.of_some (by assumption) ?_)
    | (refine Stage4.Keeps.of_done (by assumption) ?_)
    | (with_reducible refine Keeps.of_pair (by assumption) ?_)
    | (with_reducible refine Keeps.of_pair2 (by assumption) ?_)
    | (fail_if_no_progress dsimp only)

theorem execSeqRestart_keeps (m : Nat) (t : Nat) (s : State) :
    ∃ z, execSeqRestart m t s = .next z ∧ Keeps false (s.advance t) z := by
  unfold execSeqRestart
  refine ⟨_, rfl, ?_⟩
  repeat' first
    | with_reducible assumption
    | with_reducible exact Keeps.refl _ _
    | with_reducible apply Keeps.ite
    | (fail_if_no_progress with_reducible apply Keeps.upd)
    | with_reducible apply State.advance_keeps
    | with_reducible apply State.sqCtrl_keeps
    | with_reducible apply State.sqRestartOp_keeps
    | (with_reducible refine Keeps.foldl ?_ ?_)
    | (with_reducible refine Keeps.foldl_fst ?_ ?_)
    | (intro u a hu; beta_reduce)
    | (intro u hu; beta_reduce)
    | (extract_lets +onlyGivenNames x; refine Keeps.cut (st := false) (b := (s.advance t)) x ?_ ?_; rotate_left; (clear_value x; intro hx); rotate_left; subst x)
    | (extract_lets +onlyGivenNames x; refine Keeps.cut (st := false) (b := (s.advance t)) x.1 ?_ ?_; rotate_left; (clear_value x; intro hx); rotate_left; subst x)
    | (extract_lets +onlyGivenNames x; refine Keeps.cut (st := false) (b := (s.advance t)) x.2 ?_ ?_; rotate_left; (clear_value x; intro hx); rotate_left; subst x)
    | (extract_lets +onlyGivenNames x; clear_value x)
    | (extract_lets +onlyGivenNames x)
    | split
    | (refine OKeeps.of_some (by assumption) ?_)
    | (refine OPKeeps.of_some (by assumption) ?_)
    | (refine Stage4.Keeps.of_done (by assumption) ?_)
    | (with_reducible refine Keeps.of_pair (by assumption) ?_)
    | (with_reducible refine Keeps.of_pair2 (by assumption) ?_)
    | (fail_if_no_progress dsimp only)

theorem execSeqRunOpNone_keeps (m : Nat) (t : Nat) (s : State) :
    ∃ z, execSeqRunOpNone m t s = .next z ∧ Keeps false (s.advance t) z := by
  unfold execSeqRunOpNone
  refine ⟨_, rfl, ?_⟩
  repeat' first
    | with_reducible assumption
    | with_reducible exact Keeps.refl _ _
    | with_reducible apply Keeps.ite
    | (fail_if_no_progress with_reducible apply Keeps.upd)
    | with_reducible apply State.advance_keeps
    | with_reducible apply State.sqCtrl_keeps
    | with_reducible apply State.runStatus_keeps
    | (intro u a hu; beta_reduce)
    | (intro u hu; beta_reduce)
    | (fail_if_no_progress dsimp only)

theorem execLdDataWrite_keeps (m : Nat) (val : Nat) (t : Nat) (s : State) :
    ∃ z, execLdDataWrite m val t s = .next z ∧ Keeps false (s.advance t) z := by
  unfold execLdDataWrite
  refine ⟨_, rfl, ?_⟩
  repeat' first
    | with_reducible assumption
    | with_reducible exact Keeps.refl _ _
    | with_reducible apply Keeps.ite
    | (fail_if_no_progress with_reducible apply Keeps.upd)
    | with_reducible apply State.advance_keeps
    | with_reducible apply State.sqCtrl_keeps
    | with_reducible apply State.ldWrite_keeps
    | (intro u a hu; beta_reduce)
    | (intro u hu; beta_reduce)
    | (fail_if_no_progress dsimp only)

theorem execLedgerAuditRequest_keeps (m : Nat) (val : Nat) (t : Nat) (s0 : State) :
    ∃ z, execLedgerAuditRequest m val t s0 = .next z ∧ Keeps false (s0.advance t) z := by
  unfold execLedgerAuditRequest
  refine ⟨_, rfl, ?_⟩
  repeat' first
    | with_reducible assumption
    | with_reducible exact Keeps.refl _ _
    | with_reducible apply Keeps.ite
    | (fail_if_no_progress with_reducible apply Keeps.upd)
    | with_reducible apply State.advance_keeps
    | with_reducible apply State.busWrite_keeps
    | with_reducible apply State.ledgerCtrl_keeps
    | (intro u a hu; beta_reduce)
    | (intro u hu; beta_reduce)
    | (extract_lets +onlyGivenNames x; refine Keeps.cut (st := false) (b := (s0.advance t)) x ?_ ?_; rotate_left; (clear_value x; intro hx); rotate_left; subst x)
    | (extract_lets +onlyGivenNames x; refine Keeps.cut (st := false) (b := (s0.advance t)) x.1 ?_ ?_; rotate_left; (clear_value x; intro hx); rotate_left; subst x)
    | (extract_lets +onlyGivenNames x; refine Keeps.cut (st := false) (b := (s0.advance t)) x.2 ?_ ?_; rotate_left; (clear_value x; intro hx); rotate_left; subst x)
    | (extract_lets +onlyGivenNames x; clear_value x)
    | (extract_lets +onlyGivenNames x)
    | split
    | (fail_if_no_progress dsimp only)

theorem execLedgerAutoAudit_keeps (t : Nat) (s0 : State) :
    ∃ z, execLedgerAutoAudit t s0 = .next z ∧ Keeps false (s0.advance t) z := by
  unfold execLedgerAutoAudit
  refine ⟨_, rfl, ?_⟩
  repeat' first
    | with_reducible assumption
    | with_reducible exact Keeps.refl _ _
    | with_reducible apply Keeps.ite
    | (fail_if_no_progress with_reducible apply Keeps.upd)
    | with_reducible apply State.advance_keeps
    | with_reducible apply State.auditStart_keeps
    | (extract_lets +onlyGivenNames x; refine Keeps.cut (st := false) (b := (s0.advance t)) x ?_ ?_; rotate_left; (clear_value x; intro hx); rotate_left; subst x)
    | (extract_lets +onlyGivenNames x; refine Keeps.cut (st := false) (b := (s0.advance t)) x.1 ?_ ?_; rotate_left; (clear_value x; intro hx); rotate_left; subst x)
    | (extract_lets +onlyGivenNames x; refine Keeps.cut (st := false) (b := (s0.advance t)) x.2 ?_ ?_; rotate_left; (clear_value x; intro hx); rotate_left; subst x)
    | (extract_lets +onlyGivenNames x; clear_value x)
    | (extract_lets +onlyGivenNames x)
    | split
    | (fail_if_no_progress dsimp only)

theorem execLedgerAuditEnd_keeps (t : Nat) (s0 : State) :
    ∃ z, execLedgerAuditEnd t s0 = .next z ∧ Keeps false (s0.advance t) z := by
  unfold execLedgerAuditEnd
  refine ⟨_, rfl, ?_⟩
  repeat' first
    | with_reducible assumption
    | with_reducible exact Keeps.refl _ _
    | with_reducible apply Keeps.ite
    | (fail_if_no_progress with_reducible apply Keeps.upd)
    | with_reducible apply State.advance_keeps
    | with_reducible apply State.auditEnd_keeps
    | (fail_if_no_progress dsimp only)

theorem execUnitReinit_keeps (kind : Nat) (inst : Nat) (t : Nat) (s0 : State) :
    ∃ z, execUnitReinit kind inst t s0 = .next z ∧ Keeps false (s0.advance t) z := by
  unfold execUnitReinit
  refine ⟨_, rfl, ?_⟩
  repeat' first
    | with_reducible assumption
    | with_reducible exact Keeps.refl _ _
    | with_reducible apply Keeps.ite
    | (fail_if_no_progress with_reducible apply Keeps.upd)
    | with_reducible apply State.advance_keeps
    | with_reducible apply State.reinit_keeps
    | (extract_lets +onlyGivenNames x; refine Keeps.cut (st := false) (b := (s0.advance t)) x ?_ ?_; rotate_left; (clear_value x; intro hx); rotate_left; subst x)
    | (extract_lets +onlyGivenNames x; refine Keeps.cut (st := false) (b := (s0.advance t)) x.1 ?_ ?_; rotate_left; (clear_value x; intro hx); rotate_left; subst x)
    | (extract_lets +onlyGivenNames x; refine Keeps.cut (st := false) (b := (s0.advance t)) x.2 ?_ ?_; rotate_left; (clear_value x; intro hx); rotate_left; subst x)
    | (extract_lets +onlyGivenNames x; clear_value x)
    | (extract_lets +onlyGivenNames x)
    | split
    | (refine OKeeps.of_some (by assumption) ?_)
    | (refine OPKeeps.of_some (by assumption) ?_)
    | (refine Stage4.Keeps.of_done (by assumption) ?_)
    | (with_reducible refine Keeps.of_pair (by assumption) ?_)
    | (with_reducible refine Keeps.of_pair2 (by assumption) ?_)
    | (fail_if_no_progress dsimp only)

theorem execQueueHwReset_keeps (m : Nat) (val : Nat) (t : Nat) (s0 : State) :
    ∃ z, execQueueHwReset m val t s0 = .next z ∧ Keeps false (s0.advance t) z := by
  unfold execQueueHwReset
  refine ⟨_, rfl, ?_⟩
  repeat' first
    | with_reducible assumption
    | with_reducible exact Keeps.refl _ _
    | with_reducible apply Keeps.ite
    | (fail_if_no_progress with_reducible apply Keeps.upd)
    | with_reducible apply State.advance_keeps
    | with_reducible apply State.busWrite_keeps
    | with_reducible apply State.hwReset_keeps
    | (extract_lets +onlyGivenNames x; refine Keeps.cut (st := false) (b := (s0.advance t)) x ?_ ?_; rotate_left; (clear_value x; intro hx); rotate_left; subst x)
    | (extract_lets +onlyGivenNames x; refine Keeps.cut (st := false) (b := (s0.advance t)) x.1 ?_ ?_; rotate_left; (clear_value x; intro hx); rotate_left; subst x)
    | (extract_lets +onlyGivenNames x; refine Keeps.cut (st := false) (b := (s0.advance t)) x.2 ?_ ?_; rotate_left; (clear_value x; intro hx); rotate_left; subst x)
    | (extract_lets +onlyGivenNames x; clear_value x)
    | (extract_lets +onlyGivenNames x)
    | split
    | (fail_if_no_progress dsimp only)

theorem execGlobalFreeze_keeps (m : Nat) (val : Nat) (t : Nat) (s0 : State) :
    ∃ z, execGlobalFreeze m val t s0 = .next z ∧ Keeps false (s0.advance t) z := by
  unfold execGlobalFreeze
  refine ⟨_, rfl, ?_⟩
  repeat' first
    | with_reducible assumption
    | with_reducible exact Keeps.refl _ _
    | with_reducible apply Keeps.ite
    | (fail_if_no_progress with_reducible apply Keeps.upd)
    | with_reducible apply State.advance_keeps
    | with_reducible apply State.busWrite_keeps
    | with_reducible apply State.freeze_keeps
    | (intro u a hu; beta_reduce)
    | (intro u hu; beta_reduce)
    | (extract_lets +onlyGivenNames x; refine Keeps.cut (st := false) (b := (s0.advance t)) x ?_ ?_; rotate_left; (clear_value x; intro hx); rotate_left; subst x)
    | (extract_lets +onlyGivenNames x; refine Keeps.cut (st := false) (b := (s0.advance t)) x.1 ?_ ?_; rotate_left; (clear_value x; intro hx); rotate_left; subst x)
    | (extract_lets +onlyGivenNames x; refine Keeps.cut (st := false) (b := (s0.advance t)) x.2 ?_ ?_; rotate_left; (clear_value x; intro hx); rotate_left; subst x)
    | (extract_lets +onlyGivenNames x; clear_value x)
    | (extract_lets +onlyGivenNames x)
    | split
    | (fail_if_no_progress dsimp only)

theorem execPeriodicFreeze_keeps (t : Nat) (s0 : State) :
    ∃ z, execPeriodicFreeze t s0 = .next z ∧ Keeps false (s0.advance t) z := by
  unfold execPeriodicFreeze
  refine ⟨_, rfl, ?_⟩
  repeat' first
    | with_reducible assumption
    | with_reducible exact Keeps.refl _ _
    | with_reducible apply Keeps.ite
    | (fail_if_no_progress with_reducible apply Keeps.upd)
    | with_reducible apply State.advance_keeps
    | with_reducible apply State.freeze_keeps
    | (extract_lets +onlyGivenNames x; refine Keeps.cut (st := false) (b := (s0.advance t)) x ?_ ?_; rotate_left; (clear_value x; intro hx); rotate_left; subst x)
    | (extract_lets +onlyGivenNames x; refine Keeps.cut (st := false) (b := (s0.advance t)) x.1 ?_ ?_; rotate_left; (clear_value x; intro hx); rotate_left; subst x)
    | (extract_lets +onlyGivenNames x; refine Keeps.cut (st := false) (b := (s0.advance t)) x.2 ?_ ?_; rotate_left; (clear_value x; intro hx); rotate_left; subst x)
    | (extract_lets +onlyGivenNames x; clear_value x)
    | (extract_lets +onlyGivenNames x)
    | split
    | (fail_if_no_progress dsimp only)

theorem execCounterSnap_keeps (c : HostCmd) (t : Nat) (s0 : State) :
    ∃ z, execCounterSnap c t s0 = .next z ∧ Keeps false (s0.advance t) z := by
  unfold execCounterSnap
  refine ⟨_, rfl, ?_⟩
  repeat' first
    | with_reducible assumption
    | with_reducible exact Keeps.refl _ _
    | with_reducible apply Keeps.ite
    | (fail_if_no_progress with_reducible apply Keeps.upd)
    | with_reducible apply State.advance_keeps
    | with_reducible apply State.count_keeps
    | with_reducible apply State.refuseCfg_keeps
    | with_reducible apply State.setN_keeps
    | with_reducible apply State.complete_keeps
    | with_reducible apply State.freeze_keeps
    | with_reducible apply State.setDeliveries_keeps
    | (extract_lets +onlyGivenNames x; refine Keeps.cut (st := false) (b := (s0.advance t)) x ?_ ?_; rotate_left; (clear_value x; intro hx); rotate_left; subst x)
    | (extract_lets +onlyGivenNames x; refine Keeps.cut (st := false) (b := (s0.advance t)) x.1 ?_ ?_; rotate_left; (clear_value x; intro hx); rotate_left; subst x)
    | (extract_lets +onlyGivenNames x; refine Keeps.cut (st := false) (b := (s0.advance t)) x.2 ?_ ?_; rotate_left; (clear_value x; intro hx); rotate_left; subst x)
    | (extract_lets +onlyGivenNames x; clear_value x)
    | (extract_lets +onlyGivenNames x)
    | split
    | (fail_if_no_progress dsimp only)

theorem execSnapDeliveryEnd_keeps (poisoned : Bool) (t : Nat) (s0 : State) :
    ∃ z, execSnapDeliveryEnd poisoned t s0 = .next z ∧ Keeps true (s0.advance t) z := by
  unfold execSnapDeliveryEnd
  refine ⟨_, rfl, ?_⟩
  repeat' first
    | with_reducible assumption
    | with_reducible exact Keeps.refl _ _
    | with_reducible apply Keeps.ite
    | (fail_if_no_progress with_reducible apply Keeps.upd)
    | with_reducible apply State.advance_keeps
    | with_reducible apply State.endDelivery_keeps
    | (fail_if_no_progress dsimp only)

theorem execMemoryScrubVisit_keeps (target : Nat) (offset : Nat) (res : ScrubRes) (last : Bool) (t : Nat) (s0 : State) :
    ∃ z, execMemoryScrubVisit target offset res last t s0 = .next z ∧ Keeps false (s0.advance t) z := by
  unfold execMemoryScrubVisit
  refine ⟨_, rfl, ?_⟩
  repeat' first
    | with_reducible assumption
    | with_reducible exact Keeps.refl _ _
    | with_reducible apply Keeps.ite
    | (fail_if_no_progress with_reducible apply Keeps.upd)
    | with_reducible apply State.advance_keeps
    | with_reducible apply State.bump_keeps
    | with_reducible apply State.setN_keeps
    | with_reducible apply State.sticky_keeps
    | with_reducible apply State.wr_keeps
    | (extract_lets +onlyGivenNames x; refine Keeps.cut (st := false) (b := (s0.advance t)) x ?_ ?_; rotate_left; (clear_value x; intro hx); rotate_left; subst x)
    | (extract_lets +onlyGivenNames x; refine Keeps.cut (st := false) (b := (s0.advance t)) x.1 ?_ ?_; rotate_left; (clear_value x; intro hx); rotate_left; subst x)
    | (extract_lets +onlyGivenNames x; refine Keeps.cut (st := false) (b := (s0.advance t)) x.2 ?_ ?_; rotate_left; (clear_value x; intro hx); rotate_left; subst x)
    | (extract_lets +onlyGivenNames x; clear_value x)
    | (extract_lets +onlyGivenNames x)
    | split
    | (refine OKeeps.of_some (by assumption) ?_)
    | (refine OPKeeps.of_some (by assumption) ?_)
    | (refine Stage4.Keeps.of_done (by assumption) ?_)
    | (with_reducible refine Keeps.of_pair (by assumption) ?_)
    | (with_reducible refine Keeps.of_pair2 (by assumption) ?_)
    | (fail_if_no_progress dsimp only)

theorem execTestBlock_keeps (c : HostCmd) (clearOk : Bool) (t : Nat) (s0 : State) :
    ∃ z, execTestBlock c clearOk t s0 = .next z ∧ Keeps false (s0.advance t) z := by
  unfold execTestBlock
  refine ⟨_, rfl, ?_⟩
  repeat' first
    | with_reducible assumption
    | with_reducible exact Keeps.refl _ _
    | with_reducible apply Keeps.ite
    | (fail_if_no_progress with_reducible apply Keeps.upd)
    | with_reducible apply State.advance_keeps
    | with_reducible apply State.refuseCfg_keeps
    | with_reducible apply State.complete_keeps
    | with_reducible apply State.testStart_keeps
    | (extract_lets +onlyGivenNames x; refine Keeps.cut (st := false) (b := (s0.advance t)) x ?_ ?_; rotate_left; (clear_value x; intro hx); rotate_left; subst x)
    | (extract_lets +onlyGivenNames x; refine Keeps.cut (st := false) (b := (s0.advance t)) x.1 ?_ ?_; rotate_left; (clear_value x; intro hx); rotate_left; subst x)
    | (extract_lets +onlyGivenNames x; refine Keeps.cut (st := false) (b := (s0.advance t)) x.2 ?_ ?_; rotate_left; (clear_value x; intro hx); rotate_left; subst x)
    | (extract_lets +onlyGivenNames x; clear_value x)
    | (extract_lets +onlyGivenNames x)
    | split
    | (fail_if_no_progress dsimp only)

theorem execTestComplete_keeps (o : TestOut) (t : Nat) (s0 : State) :
    ∃ z, execTestComplete o t s0 = .next z ∧ Keeps false (s0.advance t) z := by
  unfold execTestComplete
  refine ⟨_, rfl, ?_⟩
  repeat' first
    | with_reducible assumption
    | with_reducible exact Keeps.refl _ _
    | with_reducible apply Keeps.ite
    | (fail_if_no_progress with_reducible apply Keeps.upd)
    | with_reducible apply State.advance_keeps
    | with_reducible apply State.testEnd_keeps
    | (extract_lets +onlyGivenNames x; refine Keeps.cut (st := false) (b := (s0.advance t)) x ?_ ?_; rotate_left; (clear_value x; intro hx); rotate_left; subst x)
    | (extract_lets +onlyGivenNames x; refine Keeps.cut (st := false) (b := (s0.advance t)) x.1 ?_ ?_; rotate_left; (clear_value x; intro hx); rotate_left; subst x)
    | (extract_lets +onlyGivenNames x; refine Keeps.cut (st := false) (b := (s0.advance t)) x.2 ?_ ?_; rotate_left; (clear_value x; intro hx); rotate_left; subst x)
    | (extract_lets +onlyGivenNames x; clear_value x)
    | (extract_lets +onlyGivenNames x)
    | split
    | (refine OKeeps.of_some (by assumption) ?_)
    | (refine OPKeeps.of_some (by assumption) ?_)
    | (refine Stage4.Keeps.of_done (by assumption) ?_)
    | (with_reducible refine Keeps.of_pair (by assumption) ?_)
    | (with_reducible refine Keeps.of_pair2 (by assumption) ?_)
    | (fail_if_no_progress dsimp only)

theorem execPoweronSelfTest_keeps (t : Nat) (s0 : State) :
    ∃ z, execPoweronSelfTest t s0 = .next z ∧ Keeps false (s0.advance t) z := by
  unfold execPoweronSelfTest
  refine ⟨_, rfl, ?_⟩
  repeat' first
    | with_reducible assumption
    | with_reducible exact Keeps.refl _ _
    | with_reducible apply Keeps.ite
    | (fail_if_no_progress with_reducible apply Keeps.upd)
    | with_reducible apply State.advance_keeps
    | with_reducible apply State.countTests_keeps
    | with_reducible apply State.sticky_keeps
    | with_reducible apply State.setN_keeps
    | (extract_lets +onlyGivenNames x; refine Keeps.cut (st := false) (b := (s0.advance t)) x ?_ ?_; rotate_left; (clear_value x; intro hx); rotate_left; subst x)
    | (extract_lets +onlyGivenNames x; refine Keeps.cut (st := false) (b := (s0.advance t)) x.1 ?_ ?_; rotate_left; (clear_value x; intro hx); rotate_left; subst x)
    | (extract_lets +onlyGivenNames x; refine Keeps.cut (st := false) (b := (s0.advance t)) x.2 ?_ ?_; rotate_left; (clear_value x; intro hx); rotate_left; subst x)
    | (extract_lets +onlyGivenNames x; clear_value x)
    | (extract_lets +onlyGivenNames x)
    | split
    | (fail_if_no_progress dsimp only)

theorem execJtagIdcode_keeps (t : Nat) (s : State) :
    ∃ z, execJtagIdcode t s = .next z ∧ Keeps false (s.advance t) z := by
  unfold execJtagIdcode
  refine ⟨_, rfl, ?_⟩
  repeat' first
    | with_reducible assumption
    | with_reducible exact Keeps.refl _ _
    | with_reducible apply Keeps.ite
    | (fail_if_no_progress with_reducible apply Keeps.upd)
    | with_reducible apply State.advance_keeps
    | with_reducible apply State.jtagLoad_keeps
    | (fail_if_no_progress dsimp only)

theorem execJtagBypass_keeps (t : Nat) (s : State) :
    ∃ z, execJtagBypass t s = .next z ∧ Keeps false (s.advance t) z := by
  unfold execJtagBypass
  refine ⟨_, rfl, ?_⟩
  repeat' first
    | with_reducible assumption
    | with_reducible exact Keeps.refl _ _
    | with_reducible apply Keeps.ite
    | (fail_if_no_progress with_reducible apply Keeps.upd)
    | with_reducible apply State.advance_keeps
    | with_reducible apply State.jtagLoad_keeps
    | (fail_if_no_progress dsimp only)

theorem execJtagSamplePreload_keeps (t : Nat) (s : State) :
    ∃ z, execJtagSamplePreload t s = .next z ∧ Keeps false (s.advance t) z := by
  unfold execJtagSamplePreload
  refine ⟨_, rfl, ?_⟩
  repeat' first
    | with_reducible assumption
    | with_reducible exact Keeps.refl _ _
    | with_reducible apply Keeps.ite
    | (fail_if_no_progress with_reducible apply Keeps.upd)
    | with_reducible apply State.advance_keeps
    | with_reducible apply State.jtagLoad_keeps
    | (fail_if_no_progress dsimp only)

theorem execJtagExtest_keeps (t : Nat) (s : State) :
    ∃ z, execJtagExtest t s = .next z ∧ Keeps false (s.advance t) z := by
  unfold execJtagExtest
  refine ⟨_, rfl, ?_⟩
  repeat' first
    | with_reducible assumption
    | with_reducible exact Keeps.refl _ _
    | with_reducible apply Keeps.ite
    | (fail_if_no_progress with_reducible apply Keeps.upd)
    | with_reducible apply State.advance_keeps
    | with_reducible apply State.jtagLoad_keeps
    | (fail_if_no_progress dsimp only)

theorem execJtagIntest_keeps (t : Nat) (s : State) :
    ∃ z, execJtagIntest t s = .next z ∧ Keeps false (s.advance t) z := by
  unfold execJtagIntest
  refine ⟨_, rfl, ?_⟩
  repeat' first
    | with_reducible assumption
    | with_reducible exact Keeps.refl _ _
    | with_reducible apply Keeps.ite
    | (fail_if_no_progress with_reducible apply Keeps.upd)
    | with_reducible apply State.advance_keeps
    | with_reducible apply State.jtagLoad_keeps
    | (fail_if_no_progress dsimp only)

theorem execDomainConsent_keeps (d : Nat) (refuse : Option Nat) (t : Nat) (s0 : State) :
    ∃ z, execDomainConsent d refuse t s0 = .next z ∧ Keeps false (s0.advance t) z := by
  unfold execDomainConsent
  refine ⟨_, rfl, ?_⟩
  repeat' first
    | with_reducible assumption
    | with_reducible exact Keeps.refl _ _
    | with_reducible apply Keeps.ite
    | (fail_if_no_progress with_reducible apply Keeps.upd)
    | with_reducible apply State.advance_keeps
    | with_reducible apply State.refuseSleep_keeps
    | with_reducible apply State.wr_keeps
    | with_reducible apply State.enter_keeps
    | with_reducible apply State.nextSleep_keeps
    | (extract_lets +onlyGivenNames x; refine Keeps.cut (st := false) (b := (s0.advance t)) x ?_ ?_; rotate_left; (clear_value x; intro hx); rotate_left; subst x)
    | (extract_lets +onlyGivenNames x; refine Keeps.cut (st := false) (b := (s0.advance t)) x.1 ?_ ?_; rotate_left; (clear_value x; intro hx); rotate_left; subst x)
    | (extract_lets +onlyGivenNames x; refine Keeps.cut (st := false) (b := (s0.advance t)) x.2 ?_ ?_; rotate_left; (clear_value x; intro hx); rotate_left; subst x)
    | (extract_lets +onlyGivenNames x; clear_value x)
    | (extract_lets +onlyGivenNames x)
    | split
    | (refine OKeeps.of_some (by assumption) ?_)
    | (refine OPKeeps.of_some (by assumption) ?_)
    | (refine Stage4.Keeps.of_done (by assumption) ?_)
    | (with_reducible refine Keeps.of_pair (by assumption) ?_)
    | (with_reducible refine Keeps.of_pair2 (by assumption) ?_)
    | (fail_if_no_progress dsimp only)

theorem execConsentTimeout_keeps (d : Nat) (block : Nat) (t : Nat) (s0 : State) :
    ∃ z, execConsentTimeout d block t s0 = .next z ∧ Keeps false (s0.advance t) z := by
  unfold execConsentTimeout
  refine ⟨_, rfl, ?_⟩
  repeat' first
    | with_reducible assumption
    | with_reducible exact Keeps.refl _ _
    | with_reducible apply Keeps.ite
    | (fail_if_no_progress with_reducible apply Keeps.upd)
    | with_reducible apply State.advance_keeps
    | with_reducible apply State.refuseSleep_keeps
    | (extract_lets +onlyGivenNames x; refine Keeps.cut (st := false) (b := (s0.advance t)) x ?_ ?_; rotate_left; (clear_value x; intro hx); rotate_left; subst x)
    | (extract_lets +onlyGivenNames x; refine Keeps.cut (st := false) (b := (s0.advance t)) x.1 ?_ ?_; rotate_left; (clear_value x; intro hx); rotate_left; subst x)
    | (extract_lets +onlyGivenNames x; refine Keeps.cut (st := false) (b := (s0.advance t)) x.2 ?_ ?_; rotate_left; (clear_value x; intro hx); rotate_left; subst x)
    | (extract_lets +onlyGivenNames x; clear_value x)
    | (extract_lets +onlyGivenNames x)
    | split
    | (refine OKeeps.of_some (by assumption) ?_)
    | (refine OPKeeps.of_some (by assumption) ?_)
    | (refine Stage4.Keeps.of_done (by assumption) ?_)
    | (with_reducible refine Keeps.of_pair (by assumption) ?_)
    | (with_reducible refine Keeps.of_pair2 (by assumption) ?_)
    | (fail_if_no_progress dsimp only)

theorem execWakeRegulatorDone_keeps (d : Nat) (t : Nat) (s0 : State) :
    ∃ z, execWakeRegulatorDone d t s0 = .next z ∧ Keeps false (s0.advance t) z := by
  unfold execWakeRegulatorDone
  refine ⟨_, rfl, ?_⟩
  repeat' first
    | with_reducible assumption
    | with_reducible exact Keeps.refl _ _
    | with_reducible apply Keeps.ite
    | (fail_if_no_progress with_reducible apply Keeps.upd)
    | with_reducible apply State.advance_keeps
    | with_reducible apply State.setWake_keeps
    | (extract_lets +onlyGivenNames x; refine Keeps.cut (st := false) (b := (s0.advance t)) x ?_ ?_; rotate_left; (clear_value x; intro hx); rotate_left; subst x)
    | (extract_lets +onlyGivenNames x; refine Keeps.cut (st := false) (b := (s0.advance t)) x.1 ?_ ?_; rotate_left; (clear_value x; intro hx); rotate_left; subst x)
    | (extract_lets +onlyGivenNames x; refine Keeps.cut (st := false) (b := (s0.advance t)) x.2 ?_ ?_; rotate_left; (clear_value x; intro hx); rotate_left; subst x)
    | (extract_lets +onlyGivenNames x; clear_value x)
    | (extract_lets +onlyGivenNames x)
    | split
    | (refine OKeeps.of_some (by assumption) ?_)
    | (refine OPKeeps.of_some (by assumption) ?_)
    | (refine Stage4.Keeps.of_done (by assumption) ?_)
    | (with_reducible refine Keeps.of_pair (by assumption) ?_)
    | (with_reducible refine Keeps.of_pair2 (by assumption) ?_)
    | (fail_if_no_progress dsimp only)

theorem execWakeOscReady_keeps (d : Nat) (delta : Int) (t : Nat) (s0 : State) :
    ∃ z, execWakeOscReady d delta t s0 = .next z ∧ Keeps false (s0.advance t) z := by
  unfold execWakeOscReady
  refine ⟨_, rfl, ?_⟩
  repeat' first
    | with_reducible assumption
    | with_reducible exact Keeps.refl _ _
    | with_reducible apply Keeps.ite
    | (fail_if_no_progress with_reducible apply Keeps.upd)
    | with_reducible apply State.advance_keeps
    | with_reducible apply State.setWake_keeps
    | with_reducible apply State.wr_keeps
    | with_reducible apply State.setPwr_keeps
    | with_reducible apply State.switchover_keeps
    | (intro u a hu; beta_reduce)
    | (intro u hu; beta_reduce)
    | (extract_lets +onlyGivenNames x; refine Keeps.cut (st := false) (b := (s0.advance t)) x ?_ ?_; rotate_left; (clear_value x; intro hx); rotate_left; subst x)
    | (extract_lets +onlyGivenNames x; refine Keeps.cut (st := false) (b := (s0.advance t)) x.1 ?_ ?_; rotate_left; (clear_value x; intro hx); rotate_left; subst x)
    | (extract_lets +onlyGivenNames x; refine Keeps.cut (st := false) (b := (s0.advance t)) x.2 ?_ ?_; rotate_left; (clear_value x; intro hx); rotate_left; subst x)
    | (extract_lets +onlyGivenNames x; clear_value x)
    | (extract_lets +onlyGivenNames x)
    | split
    | (refine OKeeps.of_some (by assumption) ?_)
    | (refine OPKeeps.of_some (by assumption) ?_)
    | (refine Stage4.Keeps.of_done (by assumption) ?_)
    | (with_reducible refine Keeps.of_pair (by assumption) ?_)
    | (with_reducible refine Keeps.of_pair2 (by assumption) ?_)
    | (fail_if_no_progress dsimp only)

theorem execWakePllLock_keeps (d : Nat) (w : WakeScrub) (t : Nat) (s0 : State) :
    ∃ z, execWakePllLock d w t s0 = .next z ∧ Keeps false (s0.advance t) z := by
  unfold execWakePllLock
  refine ⟨_, rfl, ?_⟩
  repeat' first
    | with_reducible assumption
    | with_reducible exact Keeps.refl _ _
    | with_reducible apply Keeps.ite
    | (fail_if_no_progress with_reducible apply Keeps.upd)
    | with_reducible apply State.advance_keeps
    | with_reducible apply State.wakeScrub_keeps
    | with_reducible apply State.domainUp_keeps
    | with_reducible apply State.setN_keeps
    | with_reducible apply State.wakeEnded_keeps
    | (extract_lets +onlyGivenNames x; refine Keeps.cut (st := false) (b := (s0.advance t)) x ?_ ?_; rotate_left; (clear_value x; intro hx); rotate_left; subst x)
    | (extract_lets +onlyGivenNames x; refine Keeps.cut (st := false) (b := (s0.advance t)) x.1 ?_ ?_; rotate_left; (clear_value x; intro hx); rotate_left; subst x)
    | (extract_lets +onlyGivenNames x; refine Keeps.cut (st := false) (b := (s0.advance t)) x.2 ?_ ?_; rotate_left; (clear_value x; intro hx); rotate_left; subst x)
    | (extract_lets +onlyGivenNames x; clear_value x)
    | (extract_lets +onlyGivenNames x)
    | split
    | (refine OKeeps.of_some (by assumption) ?_)
    | (refine OPKeeps.of_some (by assumption) ?_)
    | (refine Stage4.Keeps.of_done (by assumption) ?_)
    | (with_reducible refine Keeps.of_pair (by assumption) ?_)
    | (with_reducible refine Keeps.of_pair2 (by assumption) ?_)
    | (fail_if_no_progress dsimp only)

theorem execWakeStepTimeout_keeps (d : Nat) (t : Nat) (s0 : State) :
    ∃ z, execWakeStepTimeout d t s0 = .next z ∧ Keeps false (s0.advance t) z := by
  unfold execWakeStepTimeout
  refine ⟨_, rfl, ?_⟩
  repeat' first
    | with_reducible assumption
    | with_reducible exact Keeps.refl _ _
    | with_reducible apply Keeps.ite
    | (fail_if_no_progress with_reducible apply Keeps.upd)
    | with_reducible apply State.advance_keeps
    | with_reducible apply State.setWake_keeps
    | with_reducible apply State.noteWakeFail_keeps
    | with_reducible apply State.setPwr_keeps
    | with_reducible apply State.sticky_keeps
    | with_reducible apply State.wakeFailed_keeps
    | (intro u a hu; beta_reduce)
    | (intro u hu; beta_reduce)
    | (extract_lets +onlyGivenNames x; refine Keeps.cut (st := false) (b := (s0.advance t)) x ?_ ?_; rotate_left; (clear_value x; intro hx); rotate_left; subst x)
    | (extract_lets +onlyGivenNames x; refine Keeps.cut (st := false) (b := (s0.advance t)) x.1 ?_ ?_; rotate_left; (clear_value x; intro hx); rotate_left; subst x)
    | (extract_lets +onlyGivenNames x; refine Keeps.cut (st := false) (b := (s0.advance t)) x.2 ?_ ?_; rotate_left; (clear_value x; intro hx); rotate_left; subst x)
    | (extract_lets +onlyGivenNames x; clear_value x)
    | (extract_lets +onlyGivenNames x)
    | split
    | (refine OKeeps.of_some (by assumption) ?_)
    | (refine OPKeeps.of_some (by assumption) ?_)
    | (refine Stage4.Keeps.of_done (by assumption) ?_)
    | (with_reducible refine Keeps.of_pair (by assumption) ?_)
    | (with_reducible refine Keeps.of_pair2 (by assumption) ?_)
    | (fail_if_no_progress dsimp only)

theorem execDomReq_keeps (m : Nat) (val : Nat) (t : Nat) (s0 : State) :
    ∃ z, execDomReq m val t s0 = .next z ∧ Keeps false (s0.advance t) z := by
  unfold execDomReq
  refine ⟨_, rfl, ?_⟩
  repeat' first
    | with_reducible assumption
    | with_reducible exact Keeps.refl _ _
    | with_reducible apply Keeps.ite
    | (fail_if_no_progress with_reducible apply Keeps.upd)
    | with_reducible apply State.advance_keeps
    | with_reducible apply State.wr_keeps
    | with_reducible apply State.domReqGo_keeps
    | with_reducible apply State.deny_keeps
    | (extract_lets +onlyGivenNames x; refine Keeps.cut (st := false) (b := (s0.advance t)) x ?_ ?_; rotate_left; (clear_value x; intro hx); rotate_left; subst x)
    | (extract_lets +onlyGivenNames x; refine Keeps.cut (st := false) (b := (s0.advance t)) x.1 ?_ ?_; rotate_left; (clear_value x; intro hx); rotate_left; subst x)
    | (extract_lets +onlyGivenNames x; refine Keeps.cut (st := false) (b := (s0.advance t)) x.2 ?_ ?_; rotate_left; (clear_value x; intro hx); rotate_left; subst x)
    | (extract_lets +onlyGivenNames x; clear_value x)
    | (extract_lets +onlyGivenNames x)
    | split
    | (refine OKeeps.of_some (by assumption) ?_)
    | (refine OPKeeps.of_some (by assumption) ?_)
    | (refine Stage4.Keeps.of_done (by assumption) ?_)
    | (with_reducible refine Keeps.of_pair (by assumption) ?_)
    | (with_reducible refine Keeps.of_pair2 (by assumption) ?_)
    | (fail_if_no_progress dsimp only)

theorem execDozeEnter_keeps (d : Nat) (t : Nat) (s0 : State) :
    ∃ z, execDozeEnter d t s0 = .next z ∧ Keeps false (s0.advance t) z := by
  unfold execDozeEnter
  refine ⟨_, rfl, ?_⟩
  repeat' first
    | with_reducible assumption
    | with_reducible exact Keeps.refl _ _
    | with_reducible apply Keeps.ite
    | (fail_if_no_progress with_reducible apply Keeps.upd)
    | with_reducible apply State.advance_keeps
    | with_reducible apply State.wr_keeps
    | (extract_lets +onlyGivenNames x; refine Keeps.cut (st := false) (b := (s0.advance t)) x ?_ ?_; rotate_left; (clear_value x; intro hx); rotate_left; subst x)
    | (extract_lets +onlyGivenNames x; refine Keeps.cut (st := false) (b := (s0.advance t)) x.1 ?_ ?_; rotate_left; (clear_value x; intro hx); rotate_left; subst x)
    | (extract_lets +onlyGivenNames x; refine Keeps.cut (st := false) (b := (s0.advance t)) x.2 ?_ ?_; rotate_left; (clear_value x; intro hx); rotate_left; subst x)
    | (extract_lets +onlyGivenNames x; clear_value x)
    | (extract_lets +onlyGivenNames x)
    | split
    | (fail_if_no_progress dsimp only)

theorem execDozeExit_keeps (d : Nat) (t : Nat) (s0 : State) :
    ∃ z, execDozeExit d t s0 = .next z ∧ Keeps false (s0.advance t) z := by
  unfold execDozeExit
  refine ⟨_, rfl, ?_⟩
  repeat' first
    | with_reducible assumption
    | with_reducible exact Keeps.refl _ _
    | with_reducible apply Keeps.ite
    | (fail_if_no_progress with_reducible apply Keeps.upd)
    | with_reducible apply State.advance_keeps
    | with_reducible apply State.wr_keeps
    | (extract_lets +onlyGivenNames x; refine Keeps.cut (st := false) (b := (s0.advance t)) x ?_ ?_; rotate_left; (clear_value x; intro hx); rotate_left; subst x)
    | (extract_lets +onlyGivenNames x; refine Keeps.cut (st := false) (b := (s0.advance t)) x.1 ?_ ?_; rotate_left; (clear_value x; intro hx); rotate_left; subst x)
    | (extract_lets +onlyGivenNames x; refine Keeps.cut (st := false) (b := (s0.advance t)) x.2 ?_ ?_; rotate_left; (clear_value x; intro hx); rotate_left; subst x)
    | (extract_lets +onlyGivenNames x; clear_value x)
    | (extract_lets +onlyGivenNames x)
    | split
    | (fail_if_no_progress dsimp only)

theorem execRailFault_keeps (r : Nat) (uv : Nat) (t : Nat) (s0 : State) :
    ∃ z, execRailFault r uv t s0 = .next z ∧ Keeps false (s0.advance t) z := by
  unfold execRailFault
  refine ⟨_, rfl, ?_⟩
  repeat' first
    | with_reducible assumption
    | with_reducible exact Keeps.refl _ _
    | with_reducible apply Keeps.ite
    | (fail_if_no_progress with_reducible apply Keeps.upd)
    | with_reducible apply State.advance_keeps
    | with_reducible apply State.setN_keeps
    | with_reducible apply State.wrB_keeps
    | with_reducible apply State.sticky_keeps
    | (extract_lets +onlyGivenNames x; refine Keeps.cut (st := false) (b := (s0.advance t)) x ?_ ?_; rotate_left; (clear_value x; intro hx); rotate_left; subst x)
    | (extract_lets +onlyGivenNames x; refine Keeps.cut (st := false) (b := (s0.advance t)) x.1 ?_ ?_; rotate_left; (clear_value x; intro hx); rotate_left; subst x)
    | (extract_lets +onlyGivenNames x; refine Keeps.cut (st := false) (b := (s0.advance t)) x.2 ?_ ?_; rotate_left; (clear_value x; intro hx); rotate_left; subst x)
    | (extract_lets +onlyGivenNames x; clear_value x)
    | (extract_lets +onlyGivenNames x)
    | split
    | (fail_if_no_progress dsimp only)

theorem execTempHigh_keeps (mK : Int) (t : Nat) (s0 : State) :
    ∃ z, execTempHigh mK t s0 = .next z ∧ Keeps false (s0.advance t) z := by
  unfold execTempHigh
  refine ⟨_, rfl, ?_⟩
  repeat' first
    | with_reducible assumption
    | with_reducible exact Keeps.refl _ _
    | with_reducible apply Keeps.ite
    | (fail_if_no_progress with_reducible apply Keeps.upd)
    | with_reducible apply State.advance_keeps
    | with_reducible apply State.setN_keeps
    | with_reducible apply State.sticky_keeps
    | (extract_lets +onlyGivenNames x; refine Keeps.cut (st := false) (b := (s0.advance t)) x ?_ ?_; rotate_left; (clear_value x; intro hx); rotate_left; subst x)
    | (extract_lets +onlyGivenNames x; refine Keeps.cut (st := false) (b := (s0.advance t)) x.1 ?_ ?_; rotate_left; (clear_value x; intro hx); rotate_left; subst x)
    | (extract_lets +onlyGivenNames x; refine Keeps.cut (st := false) (b := (s0.advance t)) x.2 ?_ ?_; rotate_left; (clear_value x; intro hx); rotate_left; subst x)
    | (extract_lets +onlyGivenNames x; clear_value x)
    | (extract_lets +onlyGivenNames x)
    | split
    | (fail_if_no_progress dsimp only)

theorem execLinkLock_keeps (p : Nat) (t : Nat) (s0 : State) :
    ∃ z, execLinkLock p t s0 = .next z ∧ Keeps false (s0.advance t) z := by
  unfold execLinkLock
  refine ⟨_, rfl, ?_⟩
  repeat' first
    | with_reducible assumption
    | with_reducible exact Keeps.refl _ _
    | with_reducible apply Keeps.ite
    | (fail_if_no_progress with_reducible apply Keeps.upd)
    | with_reducible apply State.advance_keeps
    | with_reducible apply State.linkLock_keeps
    | with_reducible apply State.wakePort_keeps
    | with_reducible apply State.portWakes_keeps
    | (extract_lets +onlyGivenNames x; refine Keeps.cut (st := false) (b := (s0.advance t)) x ?_ ?_; rotate_left; (clear_value x; intro hx); rotate_left; subst x)
    | (extract_lets +onlyGivenNames x; refine Keeps.cut (st := false) (b := (s0.advance t)) x.1 ?_ ?_; rotate_left; (clear_value x; intro hx); rotate_left; subst x)
    | (extract_lets +onlyGivenNames x; refine Keeps.cut (st := false) (b := (s0.advance t)) x.2 ?_ ?_; rotate_left; (clear_value x; intro hx); rotate_left; subst x)
    | (extract_lets +onlyGivenNames x; clear_value x)
    | (extract_lets +onlyGivenNames x)
    | split
    | (fail_if_no_progress dsimp only)

theorem execLinkDown_keeps (p : Nat) (cause : Nat) (hostSent : Option (Nat × Nat)) (t : Nat) (s0 : State) :
    ∃ z, execLinkDown p cause hostSent t s0 = .next z ∧ Keeps false (s0.advance t) z := by
  unfold execLinkDown
  refine ⟨_, rfl, ?_⟩
  repeat' first
    | with_reducible assumption
    | with_reducible exact Keeps.refl _ _
    | with_reducible apply Keeps.ite
    | (fail_if_no_progress with_reducible apply Keeps.upd)
    | with_reducible apply State.advance_keeps
    | with_reducible apply State.linkDown_keeps
    | (extract_lets +onlyGivenNames x; refine Keeps.cut (st := false) (b := (s0.advance t)) x ?_ ?_; rotate_left; (clear_value x; intro hx); rotate_left; subst x)
    | (extract_lets +onlyGivenNames x; refine Keeps.cut (st := false) (b := (s0.advance t)) x.1 ?_ ?_; rotate_left; (clear_value x; intro hx); rotate_left; subst x)
    | (extract_lets +onlyGivenNames x; refine Keeps.cut (st := false) (b := (s0.advance t)) x.2 ?_ ?_; rotate_left; (clear_value x; intro hx); rotate_left; subst x)
    | (extract_lets +onlyGivenNames x; clear_value x)
    | (extract_lets +onlyGivenNames x)
    | split
    | (fail_if_no_progress dsimp only)

theorem execFrameReceive_keeps (p : Nat) (frame : List Byte) (fcsOk : Bool) (express : Bool) (poisoned : Bool) (rawS : Nat) (t : Nat) (s0 : State) :
    ∃ z, execFrameReceive p frame fcsOk express poisoned rawS t s0 = .next z ∧ Keeps false (s0.advance t) z := by
  unfold execFrameReceive
  refine ⟨_, rfl, ?_⟩
  repeat' first
    | with_reducible assumption
    | with_reducible exact Keeps.refl _ _
    | with_reducible apply Keeps.ite
    | (fail_if_no_progress with_reducible apply Keeps.upd)
    | with_reducible apply State.advance_keeps
    | with_reducible apply State.sleepFrame_keeps
    | with_reducible apply State.flushFrame_keeps
    | with_reducible apply State.takeFrame_keeps
    | (extract_lets +onlyGivenNames x; refine Keeps.cut (st := false) (b := (s0.advance t)) x ?_ ?_; rotate_left; (clear_value x; intro hx); rotate_left; subst x)
    | (extract_lets +onlyGivenNames x; refine Keeps.cut (st := false) (b := (s0.advance t)) x.1 ?_ ?_; rotate_left; (clear_value x; intro hx); rotate_left; subst x)
    | (extract_lets +onlyGivenNames x; refine Keeps.cut (st := false) (b := (s0.advance t)) x.2 ?_ ?_; rotate_left; (clear_value x; intro hx); rotate_left; subst x)
    | (extract_lets +onlyGivenNames x; clear_value x)
    | (extract_lets +onlyGivenNames x)
    | split
    | (refine OKeeps.of_some (by assumption) ?_)
    | (refine OPKeeps.of_some (by assumption) ?_)
    | (refine Stage4.Keeps.of_done (by assumption) ?_)
    | (with_reducible refine Keeps.of_pair (by assumption) ?_)
    | (with_reducible refine Keeps.of_pair2 (by assumption) ?_)
    | (fail_if_no_progress dsimp only)

theorem execPortSleepEntry_keeps (p : Nat) (t : Nat) (s0 : State) :
    ∃ z, execPortSleepEntry p t s0 = .next z ∧ Keeps false (s0.advance t) z := by
  unfold execPortSleepEntry
  refine ⟨_, rfl, ?_⟩
  repeat' first
    | with_reducible assumption
    | with_reducible exact Keeps.refl _ _
    | with_reducible apply Keeps.ite
    | (fail_if_no_progress with_reducible apply Keeps.upd)
    | with_reducible apply State.advance_keeps
    | with_reducible apply State.nextSleep_keeps
    | (extract_lets +onlyGivenNames x; refine Keeps.cut (st := false) (b := (s0.advance t)) x ?_ ?_; rotate_left; (clear_value x; intro hx); rotate_left; subst x)
    | (extract_lets +onlyGivenNames x; refine Keeps.cut (st := false) (b := (s0.advance t)) x.1 ?_ ?_; rotate_left; (clear_value x; intro hx); rotate_left; subst x)
    | (extract_lets +onlyGivenNames x; refine Keeps.cut (st := false) (b := (s0.advance t)) x.2 ?_ ?_; rotate_left; (clear_value x; intro hx); rotate_left; subst x)
    | (extract_lets +onlyGivenNames x; clear_value x)
    | (extract_lets +onlyGivenNames x)
    | split
    | (fail_if_no_progress dsimp only)

theorem execPortWakeComplete_keeps (p : Nat) (t : Nat) (s0 : State) :
    ∃ z, execPortWakeComplete p t s0 = .next z ∧ Keeps false (s0.advance t) z := by
  unfold execPortWakeComplete
  refine ⟨_, rfl, ?_⟩
  repeat' first
    | with_reducible assumption
    | with_reducible exact Keeps.refl _ _
    | with_reducible apply Keeps.ite
    | (fail_if_no_progress with_reducible apply Keeps.upd)
    | with_reducible apply State.advance_keeps
    | with_reducible apply State.domainUp_keeps
    | with_reducible apply State.wakeEnded_keeps
    | (extract_lets +onlyGivenNames x; refine Keeps.cut (st := false) (b := (s0.advance t)) x ?_ ?_; rotate_left; (clear_value x; intro hx); rotate_left; subst x)
    | (extract_lets +onlyGivenNames x; refine Keeps.cut (st := false) (b := (s0.advance t)) x.1 ?_ ?_; rotate_left; (clear_value x; intro hx); rotate_left; subst x)
    | (extract_lets +onlyGivenNames x; refine Keeps.cut (st := false) (b := (s0.advance t)) x.2 ?_ ?_; rotate_left; (clear_value x; intro hx); rotate_left; subst x)
    | (extract_lets +onlyGivenNames x; clear_value x)
    | (extract_lets +onlyGivenNames x)
    | split
    | (fail_if_no_progress dsimp only)

theorem execFlr_keeps (f : Nat) (t : Nat) (s0 : State) :
    ∃ z, execFlr f t s0 = .next z ∧ Keeps false (s0.advance t) z := by
  unfold execFlr
  refine ⟨_, rfl, ?_⟩
  repeat' first
    | with_reducible assumption
    | with_reducible exact Keeps.refl _ _
    | with_reducible apply Keeps.ite
    | (fail_if_no_progress with_reducible apply Keeps.upd)
    | with_reducible apply State.advance_keeps
    | with_reducible apply State.flrRings_keeps
    | with_reducible apply State.flrFn_keeps
    | with_reducible apply State.bump_keeps
    | with_reducible apply State.sticky_keeps
    | (extract_lets +onlyGivenNames x; refine Keeps.cut (st := false) (b := (s0.advance t)) x ?_ ?_; rotate_left; (clear_value x; intro hx); rotate_left; subst x)
    | (extract_lets +onlyGivenNames x; refine Keeps.cut (st := false) (b := (s0.advance t)) x.1 ?_ ?_; rotate_left; (clear_value x; intro hx); rotate_left; subst x)
    | (extract_lets +onlyGivenNames x; refine Keeps.cut (st := false) (b := (s0.advance t)) x.2 ?_ ?_; rotate_left; (clear_value x; intro hx); rotate_left; subst x)
    | (extract_lets +onlyGivenNames x; clear_value x)
    | (extract_lets +onlyGivenNames x)
    | split
    | (fail_if_no_progress dsimp only)

theorem execPcieLinkLoss_keeps (t : Nat) (s0 : State) :
    ∃ z, execPcieLinkLoss t s0 = .next z ∧ Keeps false (s0.advance t) z := by
  unfold execPcieLinkLoss
  refine ⟨_, rfl, ?_⟩
  repeat' first
    | with_reducible assumption
    | with_reducible exact Keeps.refl _ _
    | with_reducible apply Keeps.ite
    | (fail_if_no_progress with_reducible apply Keeps.upd)
    | with_reducible apply State.advance_keeps
    | with_reducible apply State.hifReset_keeps
    | with_reducible apply State.bumpF_keeps
    | (fail_if_no_progress dsimp only)

theorem execPerst_keeps (t : Nat) (s0 : State) :
    ∃ z, execPerst t s0 = .next z ∧ Keeps false (s0.advance t) z := by
  unfold execPerst
  refine ⟨_, rfl, ?_⟩
  repeat' first
    | with_reducible assumption
    | with_reducible exact Keeps.refl _ _
    | with_reducible apply Keeps.ite
    | (fail_if_no_progress with_reducible apply Keeps.upd)
    | with_reducible apply State.advance_keeps
    | with_reducible apply State.hifReset_keeps
    | with_reducible apply State.wr_keeps
    | (fail_if_no_progress dsimp only)

theorem execSelectorTick_keeps (rclk : List (Nat × Int)) (t : Nat) (s0 : State) :
    ∃ z, execSelectorTick rclk t s0 = .next z ∧ Keeps false (s0.advance t) z := by
  unfold execSelectorTick
  refine ⟨_, rfl, ?_⟩
  repeat' first
    | with_reducible assumption
    | with_reducible exact Keeps.refl _ _
    | with_reducible apply Keeps.ite
    | (fail_if_no_progress with_reducible apply Keeps.upd)
    | with_reducible apply State.advance_keeps
    | with_reducible apply State.tick_keeps
    | with_reducible apply State.settled_keeps
    | with_reducible apply State.dscEvent_keeps
    | with_reducible apply State.count_keeps
    | (extract_lets +onlyGivenNames x; refine Keeps.cut (st := false) (b := (s0.advance t)) x ?_ ?_; rotate_left; (clear_value x; intro hx); rotate_left; subst x)
    | (extract_lets +onlyGivenNames x; refine Keeps.cut (st := false) (b := (s0.advance t)) x.1 ?_ ?_; rotate_left; (clear_value x; intro hx); rotate_left; subst x)
    | (extract_lets +onlyGivenNames x; refine Keeps.cut (st := false) (b := (s0.advance t)) x.2 ?_ ?_; rotate_left; (clear_value x; intro hx); rotate_left; subst x)
    | (extract_lets +onlyGivenNames x; clear_value x)
    | (extract_lets +onlyGivenNames x)
    | (fail_if_no_progress dsimp only)

theorem execStepCmd_keeps (m : Nat) (val : Nat) (t : Nat) (s0 : State) :
    ∃ z, execStepCmd m val t s0 = .next z ∧ Keeps false (s0.advance t) z := by
  unfold execStepCmd
  refine ⟨_, rfl, ?_⟩
  repeat' first
    | with_reducible assumption
    | with_reducible exact Keeps.refl _ _
    | with_reducible apply Keeps.ite
    | (fail_if_no_progress with_reducible apply Keeps.upd)
    | with_reducible apply State.advance_keeps
    | with_reducible apply State.busWrite_keeps
    | with_reducible apply State.stepCmd_keeps
    | with_reducible apply State.settled_keeps
    | (intro u a hu; beta_reduce)
    | (intro u hu; beta_reduce)
    | (extract_lets +onlyGivenNames x; refine Keeps.cut (st := false) (b := (s0.advance t)) x ?_ ?_; rotate_left; (clear_value x; intro hx); rotate_left; subst x)
    | (extract_lets +onlyGivenNames x; refine Keeps.cut (st := false) (b := (s0.advance t)) x.1 ?_ ?_; rotate_left; (clear_value x; intro hx); rotate_left; subst x)
    | (extract_lets +onlyGivenNames x; refine Keeps.cut (st := false) (b := (s0.advance t)) x.2 ?_ ?_; rotate_left; (clear_value x; intro hx); rotate_left; subst x)
    | (extract_lets +onlyGivenNames x; clear_value x)
    | (extract_lets +onlyGivenNames x)
    | (fail_if_no_progress dsimp only)

theorem execLockTimeElapsed_keeps (t : Nat) (s0 : State) :
    ∃ z, execLockTimeElapsed t s0 = .next z ∧ Keeps false (s0.advance t) z := by
  unfold execLockTimeElapsed
  refine ⟨_, rfl, ?_⟩
  repeat' first
    | with_reducible assumption
    | with_reducible exact Keeps.refl _ _
    | with_reducible apply Keeps.ite
    | (fail_if_no_progress with_reducible apply Keeps.upd)
    | with_reducible apply State.advance_keeps
    | with_reducible apply State.dscEval_keeps
    | with_reducible apply State.settled_keeps
    | (extract_lets +onlyGivenNames x; refine Keeps.cut (st := false) (b := (s0.advance t)) x ?_ ?_; rotate_left; (clear_value x; intro hx); rotate_left; subst x)
    | (extract_lets +onlyGivenNames x; refine Keeps.cut (st := false) (b := (s0.advance t)) x.1 ?_ ?_; rotate_left; (clear_value x; intro hx); rotate_left; subst x)
    | (extract_lets +onlyGivenNames x; refine Keeps.cut (st := false) (b := (s0.advance t)) x.2 ?_ ?_; rotate_left; (clear_value x; intro hx); rotate_left; subst x)
    | (extract_lets +onlyGivenNames x; clear_value x)
    | (extract_lets +onlyGivenNames x)
    | split
    | (fail_if_no_progress dsimp only)

theorem execUnlockTimeout_keeps (t : Nat) (s0 : State) :
    ∃ z, execUnlockTimeout t s0 = .next z ∧ Keeps false (s0.advance t) z := by
  unfold execUnlockTimeout
  refine ⟨_, rfl, ?_⟩
  repeat' first
    | with_reducible assumption
    | with_reducible exact Keeps.refl _ _
    | with_reducible apply Keeps.ite
    | (fail_if_no_progress with_reducible apply Keeps.upd)
    | with_reducible apply State.advance_keeps
    | with_reducible apply State.dscEval_keeps
    | with_reducible apply State.settled_keeps
    | (extract_lets +onlyGivenNames x; refine Keeps.cut (st := false) (b := (s0.advance t)) x ?_ ?_; rotate_left; (clear_value x; intro hx); rotate_left; subst x)
    | (extract_lets +onlyGivenNames x; refine Keeps.cut (st := false) (b := (s0.advance t)) x.1 ?_ ?_; rotate_left; (clear_value x; intro hx); rotate_left; subst x)
    | (extract_lets +onlyGivenNames x; refine Keeps.cut (st := false) (b := (s0.advance t)) x.2 ?_ ?_; rotate_left; (clear_value x; intro hx); rotate_left; subst x)
    | (extract_lets +onlyGivenNames x; clear_value x)
    | (extract_lets +onlyGivenNames x)
    | split
    | (fail_if_no_progress dsimp only)

theorem execEstimatorUpdate_keeps (t : Nat) (s0 : State) :
    ∃ z, execEstimatorUpdate t s0 = .next z ∧ Keeps false (s0.advance t) z := by
  unfold execEstimatorUpdate
  refine ⟨_, rfl, ?_⟩
  repeat' first
    | with_reducible assumption
    | with_reducible exact Keeps.refl _ _
    | with_reducible apply Keeps.ite
    | (fail_if_no_progress with_reducible apply Keeps.upd)
    | with_reducible apply State.advance_keeps
    | with_reducible apply State.setDsc_keeps
    | with_reducible apply State.setN_keeps
    | with_reducible apply State.checkBudget_keeps
    | with_reducible apply State.settled_keeps
    | (intro u a hu; beta_reduce)
    | (intro u hu; beta_reduce)
    | (extract_lets +onlyGivenNames x; refine Keeps.cut (st := false) (b := (s0.advance t)) x ?_ ?_; rotate_left; (clear_value x; intro hx); rotate_left; subst x)
    | (extract_lets +onlyGivenNames x; refine Keeps.cut (st := false) (b := (s0.advance t)) x.1 ?_ ?_; rotate_left; (clear_value x; intro hx); rotate_left; subst x)
    | (extract_lets +onlyGivenNames x; refine Keeps.cut (st := false) (b := (s0.advance t)) x.2 ?_ ?_; rotate_left; (clear_value x; intro hx); rotate_left; subst x)
    | (extract_lets +onlyGivenNames x; clear_value x)
    | (extract_lets +onlyGivenNames x)
    | split
    | (refine OKeeps.of_some (by assumption) ?_)
    | (refine OPKeeps.of_some (by assumption) ?_)
    | (refine Stage4.Keeps.of_done (by assumption) ?_)
    | (with_reducible refine Keeps.of_pair (by assumption) ?_)
    | (with_reducible refine Keeps.of_pair2 (by assumption) ?_)
    | (fail_if_no_progress dsimp only)

theorem execDscSeqFaultTimeout_keeps (t : Nat) (s0 : State) :
    ∃ z, execDscSeqFaultTimeout t s0 = .next z ∧ Keeps false (s0.advance t) z := by
  unfold execDscSeqFaultTimeout
  refine ⟨_, rfl, ?_⟩
  repeat' first
    | with_reducible assumption
    | with_reducible exact Keeps.refl _ _
    | with_reducible apply Keeps.ite
    | (fail_if_no_progress with_reducible apply Keeps.upd)
    | with_reducible apply State.advance_keeps
    | with_reducible apply State.dscEval_keeps
    | with_reducible apply State.settled_keeps
    | (extract_lets +onlyGivenNames x; refine Keeps.cut (st := false) (b := (s0.advance t)) x ?_ ?_; rotate_left; (clear_value x; intro hx); rotate_left; subst x)
    | (extract_lets +onlyGivenNames x; refine Keeps.cut (st := false) (b := (s0.advance t)) x.1 ?_ ?_; rotate_left; (clear_value x; intro hx); rotate_left; subst x)
    | (extract_lets +onlyGivenNames x; refine Keeps.cut (st := false) (b := (s0.advance t)) x.2 ?_ ?_; rotate_left; (clear_value x; intro hx); rotate_left; subst x)
    | (extract_lets +onlyGivenNames x; clear_value x)
    | (extract_lets +onlyGivenNames x)
    | split
    | (fail_if_no_progress dsimp only)

theorem execCommitGo_keeps (m : Nat) (b : Blk) (s : State) :
    ∃ z, execCommitGo m b s = .next z ∧ Keeps false s z := by
  unfold execCommitGo
  refine ⟨_, rfl, ?_⟩
  repeat' first
    | with_reducible assumption
    | with_reducible exact Keeps.refl _ _
    | with_reducible apply Keeps.ite
    | (fail_if_no_progress with_reducible apply Keeps.upd)
    | with_reducible apply State.busWrite_keeps
    | with_reducible apply State.commitWrite_keeps
    | (intro u a hu; beta_reduce)
    | (intro u hu; beta_reduce)
    | split
    | (fail_if_no_progress dsimp only)

theorem execCommitDiscard_keeps (m : Nat) (b : Blk) (s : State) :
    ∃ z, execCommitDiscard m b s = .next z ∧ Keeps false s z := by
  unfold execCommitDiscard
  refine ⟨_, rfl, ?_⟩
  repeat' first
    | with_reducible assumption
    | with_reducible exact Keeps.refl _ _
    | with_reducible apply Keeps.ite
    | (fail_if_no_progress with_reducible apply Keeps.upd)
    | with_reducible apply State.busWrite_keeps
    | with_reducible apply State.commitWrite_keeps
    | (intro u a hu; beta_reduce)
    | (intro u hu; beta_reduce)
    | split
    | (fail_if_no_progress dsimp only)

theorem execCommitTakesEffect_keeps (b : Blk) (t : Nat) (s : State) :
    ∃ z, execCommitTakesEffect b t s = .next z ∧ Keeps false (s.advance t) z := by
  unfold execCommitTakesEffect
  refine ⟨_, rfl, ?_⟩
  repeat' first
    | with_reducible assumption
    | with_reducible exact Keeps.refl _ _
    | with_reducible apply Keeps.ite
    | (fail_if_no_progress with_reducible apply Keeps.upd)
    | with_reducible apply State.advance_keeps
    | with_reducible apply State.groupTake_keeps
    | (fail_if_no_progress dsimp only)

theorem execNirelLinkLock_keeps (t : Nat) (s0 : State) :
    ∃ z, execNirelLinkLock t s0 = .next z ∧ Keeps false (s0.advance t) z := by
  unfold execNirelLinkLock
  refine ⟨_, rfl, ?_⟩
  repeat' first
    | with_reducible assumption
    | with_reducible exact Keeps.refl _ _
    | with_reducible apply Keeps.ite
    | (fail_if_no_progress with_reducible apply Keeps.upd)
    | with_reducible apply State.advance_keeps
    | with_reducible apply State.wr_keeps
    | (extract_lets +onlyGivenNames x; refine Keeps.cut (st := false) (b := (s0.advance t)) x ?_ ?_; rotate_left; (clear_value x; intro hx); rotate_left; subst x)
    | (extract_lets +onlyGivenNames x; refine Keeps.cut (st := false) (b := (s0.advance t)) x.1 ?_ ?_; rotate_left; (clear_value x; intro hx); rotate_left; subst x)
    | (extract_lets +onlyGivenNames x; refine Keeps.cut (st := false) (b := (s0.advance t)) x.2 ?_ ?_; rotate_left; (clear_value x; intro hx); rotate_left; subst x)
    | (extract_lets +onlyGivenNames x; clear_value x)
    | (extract_lets +onlyGivenNames x)
    | split
    | (fail_if_no_progress dsimp only)

theorem execNirelPairing_keeps (p : Peer) (t : Nat) (s0 : State) :
    ∃ z, execNirelPairing p t s0 = .next z ∧ Keeps false (s0.advance t) z := by
  unfold execNirelPairing
  refine ⟨_, rfl, ?_⟩
  repeat' first
    | with_reducible assumption
    | with_reducible exact Keeps.refl _ _
    | with_reducible apply Keeps.ite
    | (fail_if_no_progress with_reducible apply Keeps.upd)
    | with_reducible apply State.advance_keeps
    | with_reducible apply State.pair_keeps
    | (fail_if_no_progress dsimp only)

theorem execNirelPairingRetry_keeps (p : Peer) (t : Nat) (s0 : State) :
    ∃ z, execNirelPairingRetry p t s0 = .next z ∧ Keeps false (s0.advance t) z := by
  unfold execNirelPairingRetry
  refine ⟨_, rfl, ?_⟩
  repeat' first
    | with_reducible assumption
    | with_reducible exact Keeps.refl _ _
    | with_reducible apply Keeps.ite
    | (fail_if_no_progress with_reducible apply Keeps.upd)
    | with_reducible apply State.advance_keeps
    | with_reducible apply State.pair_keeps
    | (fail_if_no_progress dsimp only)

theorem execNirelLinkDown_keeps (t : Nat) (s0 : State) :
    ∃ z, execNirelLinkDown t s0 = .next z ∧ Keeps false (s0.advance t) z := by
  unfold execNirelLinkDown
  refine ⟨_, rfl, ?_⟩
  repeat' first
    | with_reducible assumption
    | with_reducible exact Keeps.refl _ _
    | with_reducible apply Keeps.ite
    | (fail_if_no_progress with_reducible apply Keeps.upd)
    | with_reducible apply State.advance_keeps
    | with_reducible apply State.nirelDown_keeps
    | (fail_if_no_progress dsimp only)

theorem execTimingFrameTx_keeps (t : Nat) (s0 : State) :
    ∃ z, execTimingFrameTx t s0 = .next z ∧ Keeps false (s0.advance t) z := by
  unfold execTimingFrameTx
  refine ⟨_, rfl, ?_⟩
  repeat' first
    | with_reducible assumption
    | with_reducible exact Keeps.refl _ _
    | with_reducible apply Keeps.ite
    | (fail_if_no_progress with_reducible apply Keeps.upd)
    | with_reducible apply State.advance_keeps
    | with_reducible apply State.bump48_keeps
    | with_reducible apply State.setTwn_keeps
    | (intro u a hu; beta_reduce)
    | (intro u hu; beta_reduce)
    | (extract_lets +onlyGivenNames x; refine Keeps.cut (st := false) (b := (s0.advance t)) x ?_ ?_; rotate_left; (clear_value x; intro hx); rotate_left; subst x)
    | (extract_lets +onlyGivenNames x; refine Keeps.cut (st := false) (b := (s0.advance t)) x.1 ?_ ?_; rotate_left; (clear_value x; intro hx); rotate_left; subst x)
    | (extract_lets +onlyGivenNames x; refine Keeps.cut (st := false) (b := (s0.advance t)) x.2 ?_ ?_; rotate_left; (clear_value x; intro hx); rotate_left; subst x)
    | (extract_lets +onlyGivenNames x; clear_value x)
    | (extract_lets +onlyGivenNames x)
    | split
    | (fail_if_no_progress dsimp only)

theorem execTimingFrameRx_keeps (frame : Option TimingFrame) (arrivalRaw : Nat) (t : Nat) (s0 : State) :
    ∃ z, execTimingFrameRx frame arrivalRaw t s0 = .next z ∧ Keeps false (s0.advance t) z := by
  unfold execTimingFrameRx
  refine ⟨_, rfl, ?_⟩
  repeat' first
    | with_reducible assumption
    | with_reducible exact Keeps.refl _ _
    | with_reducible apply Keeps.ite
    | (fail_if_no_progress with_reducible apply Keeps.upd)
    | with_reducible apply State.advance_keeps
    | with_reducible apply State.bump_keeps
    | with_reducible apply State.bump48_keeps
    | with_reducible apply State.setTwn_keeps
    | with_reducible apply State.free_keeps
    | with_reducible apply State.setN_keeps
    | with_reducible apply State.peerMode_keeps
    | with_reducible apply State.setSat_keeps
    | (intro u a hu; beta_reduce)
    | (intro u hu; beta_reduce)
    | (extract_lets +onlyGivenNames x; refine Keeps.cut (st := false) (b := (s0.advance t)) x ?_ ?_; rotate_left; (clear_value x; intro hx); rotate_left; subst x)
    | (extract_lets +onlyGivenNames x; refine Keeps.cut (st := false) (b := (s0.advance t)) x.1 ?_ ?_; rotate_left; (clear_value x; intro hx); rotate_left; subst x)
    | (extract_lets +onlyGivenNames x; refine Keeps.cut (st := false) (b := (s0.advance t)) x.2 ?_ ?_; rotate_left; (clear_value x; intro hx); rotate_left; subst x)
    | (extract_lets +onlyGivenNames x; clear_value x)
    | (extract_lets +onlyGivenNames x)
    | split
    | (refine OKeeps.of_some (by assumption) ?_)
    | (refine OPKeeps.of_some (by assumption) ?_)
    | (refine Stage4.Keeps.of_done (by assumption) ?_)
    | (with_reducible refine Keeps.of_pair (by assumption) ?_)
    | (with_reducible refine Keeps.of_pair2 (by assumption) ?_)
    | (fail_if_no_progress dsimp only)

theorem execTwinSample_keeps (t : Nat) (s0 : State) :
    ∃ z, execTwinSample t s0 = .next z ∧ Keeps false (s0.advance t) z := by
  unfold execTwinSample
  refine ⟨_, rfl, ?_⟩
  repeat' first
    | with_reducible assumption
    | with_reducible exact Keeps.refl _ _
    | with_reducible apply Keeps.ite
    | (fail_if_no_progress with_reducible apply Keeps.upd)
    | with_reducible apply State.advance_keeps
    | with_reducible apply State.setTwn_keeps
    | with_reducible apply State.wr_keeps
    | with_reducible apply State.wrB_keeps
    | with_reducible apply State.bump_keeps
    | with_reducible apply State.measure_keeps
    | (intro u a hu; beta_reduce)
    | (intro u hu; beta_reduce)
    | (extract_lets +onlyGivenNames x; refine Keeps.cut (st := false) (b := (s0.advance t)) x ?_ ?_; rotate_left; (clear_value x; intro hx); rotate_left; subst x)
    | (extract_lets +onlyGivenNames x; refine Keeps.cut (st := false) (b := (s0.advance t)) x.1 ?_ ?_; rotate_left; (clear_value x; intro hx); rotate_left; subst x)
    | (extract_lets +onlyGivenNames x; refine Keeps.cut (st := false) (b := (s0.advance t)) x.2 ?_ ?_; rotate_left; (clear_value x; intro hx); rotate_left; subst x)
    | (extract_lets +onlyGivenNames x; clear_value x)
    | (extract_lets +onlyGivenNames x)
    | split
    | (refine OKeeps.of_some (by assumption) ?_)
    | (refine OPKeeps.of_some (by assumption) ?_)
    | (refine Stage4.Keeps.of_done (by assumption) ?_)
    | (with_reducible refine Keeps.of_pair (by assumption) ?_)
    | (with_reducible refine Keeps.of_pair2 (by assumption) ?_)
    | (fail_if_no_progress dsimp only)

theorem execMirrorItemReceive_keeps (item : MirrorItem) (inStep : Bool) (lagUs : Nat) (t : Nat) (s0 : State) :
    ∃ z, execMirrorItemReceive item inStep lagUs t s0 = .next z ∧ Keeps false (s0.advance t) z := by
  unfold execMirrorItemReceive
  refine ⟨_, rfl, ?_⟩
  repeat' first
    | with_reducible assumption
    | with_reducible exact Keeps.refl _ _
    | with_reducible apply Keeps.ite
    | (fail_if_no_progress with_reducible apply Keeps.upd)
    | with_reducible apply State.advance_keeps
    | with_reducible apply State.setN_keeps
    | with_reducible apply State.deny_keeps
    | with_reducible apply State.mirrorFail_keeps
    | with_reducible apply State.mirrorApply_keeps
    | with_reducible apply State.wrB_keeps
    | (extract_lets +onlyGivenNames x; refine Keeps.cut (st := false) (b := (s0.advance t)) x ?_ ?_; rotate_left; (clear_value x; intro hx); rotate_left; subst x)
    | (extract_lets +onlyGivenNames x; refine Keeps.cut (st := false) (b := (s0.advance t)) x.1 ?_ ?_; rotate_left; (clear_value x; intro hx); rotate_left; subst x)
    | (extract_lets +onlyGivenNames x; refine Keeps.cut (st := false) (b := (s0.advance t)) x.2 ?_ ?_; rotate_left; (clear_value x; intro hx); rotate_left; subst x)
    | (extract_lets +onlyGivenNames x; clear_value x)
    | (extract_lets +onlyGivenNames x)
    | split
    | (refine OKeeps.of_some (by assumption) ?_)
    | (refine OPKeeps.of_some (by assumption) ?_)
    | (refine Stage4.Keeps.of_done (by assumption) ?_)
    | (with_reducible refine Keeps.of_pair (by assumption) ?_)
    | (with_reducible refine Keeps.of_pair2 (by assumption) ?_)
    | (fail_if_no_progress dsimp only)

theorem execHandoverGive_keeps (c : HostCmd) (t : Nat) (s0 : State) :
    ∃ z, execHandoverGive c t s0 = .next z ∧ Keeps false (s0.advance t) z := by
  unfold execHandoverGive
  refine ⟨_, rfl, ?_⟩
  repeat' first
    | with_reducible assumption
    | with_reducible exact Keeps.refl _ _
    | with_reducible apply Keeps.ite
    | (fail_if_no_progress with_reducible apply Keeps.upd)
    | with_reducible apply State.advance_keeps
    | with_reducible apply State.handover_keeps
    | (fail_if_no_progress dsimp only)

theorem execHandoverTake_keeps (c : HostCmd) (peerAllows : Bool) (t : Nat) (s0 : State) :
    ∃ z, execHandoverTake c peerAllows t s0 = .next z ∧ Keeps false (s0.advance t) z := by
  unfold execHandoverTake
  refine ⟨_, rfl, ?_⟩
  repeat' first
    | with_reducible assumption
    | with_reducible exact Keeps.refl _ _
    | with_reducible apply Keeps.ite
    | (fail_if_no_progress with_reducible apply Keeps.upd)
    | with_reducible apply State.advance_keeps
    | with_reducible apply State.handover_keeps
    | (fail_if_no_progress dsimp only)

theorem execHandoverDrainDone_keeps (bytes : Nat) (keys : Nat) (t : Nat) (s0 : State) :
    ∃ z, execHandoverDrainDone bytes keys t s0 = .next z ∧ Keeps false (s0.advance t) z := by
  unfold execHandoverDrainDone
  refine ⟨_, rfl, ?_⟩
  repeat' first
    | with_reducible assumption
    | with_reducible exact Keeps.refl _ _
    | with_reducible apply Keeps.ite
    | (fail_if_no_progress with_reducible apply Keeps.upd)
    | with_reducible apply State.advance_keeps
    | with_reducible apply State.bump48_keeps
    | with_reducible apply State.bump_keeps
    | with_reducible apply State.wr_keeps
    | (intro u a hu; beta_reduce)
    | (intro u hu; beta_reduce)
    | (extract_lets +onlyGivenNames x; refine Keeps.cut (st := false) (b := (s0.advance t)) x ?_ ?_; rotate_left; (clear_value x; intro hx); rotate_left; subst x)
    | (extract_lets +onlyGivenNames x; refine Keeps.cut (st := false) (b := (s0.advance t)) x.1 ?_ ?_; rotate_left; (clear_value x; intro hx); rotate_left; subst x)
    | (extract_lets +onlyGivenNames x; refine Keeps.cut (st := false) (b := (s0.advance t)) x.2 ?_ ?_; rotate_left; (clear_value x; intro hx); rotate_left; subst x)
    | (extract_lets +onlyGivenNames x; clear_value x)
    | (extract_lets +onlyGivenNames x)
    | split
    | (fail_if_no_progress dsimp only)

theorem execHandoverDeltaAck_keeps (t : Nat) (s0 : State) :
    ∃ z, execHandoverDeltaAck t s0 = .next z ∧ Keeps false (s0.advance t) z := by
  unfold execHandoverDeltaAck
  refine ⟨_, rfl, ?_⟩
  repeat' first
    | with_reducible assumption
    | with_reducible exact Keeps.refl _ _
    | with_reducible apply Keeps.ite
    | (fail_if_no_progress with_reducible apply Keeps.upd)
    | with_reducible apply State.advance_keeps
    | with_reducible apply State.wr_keeps
    | with_reducible apply State.setMode_keeps
    | with_reducible apply State.hoDone_keeps
    | with_reducible apply State.setN_keeps
    | with_reducible apply State.setTwn_keeps
    | (intro u a hu; beta_reduce)
    | (intro u hu; beta_reduce)
    | (extract_lets +onlyGivenNames x; refine Keeps.cut (st := false) (b := (s0.advance t)) x ?_ ?_; rotate_left; (clear_value x; intro hx); rotate_left; subst x)
    | (extract_lets +onlyGivenNames x; refine Keeps.cut (st := false) (b := (s0.advance t)) x.1 ?_ ?_; rotate_left; (clear_value x; intro hx); rotate_left; subst x)
    | (extract_lets +onlyGivenNames x; refine Keeps.cut (st := false) (b := (s0.advance t)) x.2 ?_ ?_; rotate_left; (clear_value x; intro hx); rotate_left; subst x)
    | (extract_lets +onlyGivenNames x; clear_value x)
    | (extract_lets +onlyGivenNames x)
    | split
    | (fail_if_no_progress dsimp only)

theorem execTwinModeRequest_keeps (handover : Bool) (t : Nat) (s0 : State) :
    ∃ z, execTwinModeRequest handover t s0 = .next z ∧ Keeps false (s0.advance t) z := by
  unfold execTwinModeRequest
  refine ⟨_, rfl, ?_⟩
  repeat' first
    | with_reducible assumption
    | with_reducible exact Keeps.refl _ _
    | with_reducible apply Keeps.ite
    | (fail_if_no_progress with_reducible apply Keeps.upd)
    | with_reducible apply State.advance_keeps
    | with_reducible apply State.handover_keeps
    | with_reducible apply State.setTwn_keeps
    | with_reducible apply State.setMode_keeps
    | with_reducible apply State.wr_keeps
    | (intro u a hu; beta_reduce)
    | (intro u hu; beta_reduce)
    | (extract_lets +onlyGivenNames x; refine Keeps.cut (st := false) (b := (s0.advance t)) x ?_ ?_; rotate_left; (clear_value x; intro hx); rotate_left; subst x)
    | (extract_lets +onlyGivenNames x; refine Keeps.cut (st := false) (b := (s0.advance t)) x.1 ?_ ?_; rotate_left; (clear_value x; intro hx); rotate_left; subst x)
    | (extract_lets +onlyGivenNames x; refine Keeps.cut (st := false) (b := (s0.advance t)) x.2 ?_ ?_; rotate_left; (clear_value x; intro hx); rotate_left; subst x)
    | (extract_lets +onlyGivenNames x; clear_value x)
    | (extract_lets +onlyGivenNames x)
    | split
    | (fail_if_no_progress dsimp only)

theorem execTamperEvent_keeps (ball : Nat) (t : Nat) (s0 : State) :
    ∃ z, execTamperEvent ball t s0 = .next z ∧ Keeps false (s0.advance t) z := by
  unfold execTamperEvent
  refine ⟨_, rfl, ?_⟩
  repeat' first
    | with_reducible assumption
    | with_reducible exact Keeps.refl _ _
    | with_reducible apply Keeps.ite
    | (fail_if_no_progress with_reducible apply Keeps.upd)
    | with_reducible apply State.advance_keeps
    | with_reducible apply State.setBall_keeps
    | with_reducible apply State.tamperNow_keeps
    | (extract_lets +onlyGivenNames x; refine Keeps.cut (st := false) (b := (s0.advance t)) x ?_ ?_; rotate_left; (clear_value x; intro hx); rotate_left; subst x)
    | (extract_lets +onlyGivenNames x; refine Keeps.cut (st := false) (b := (s0.advance t)) x.1 ?_ ?_; rotate_left; (clear_value x; intro hx); rotate_left; subst x)
    | (extract_lets +onlyGivenNames x; refine Keeps.cut (st := false) (b := (s0.advance t)) x.2 ?_ ?_; rotate_left; (clear_value x; intro hx); rotate_left; subst x)
    | (extract_lets +onlyGivenNames x; clear_value x)
    | (extract_lets +onlyGivenNames x)
    | split
    | (fail_if_no_progress dsimp only)

theorem execTamperRelease_keeps (ball : Nat) (t : Nat) (s0 : State) :
    ∃ z, execTamperRelease ball t s0 = .next z ∧ Keeps false (s0.advance t) z := by
  unfold execTamperRelease
  refine ⟨_, rfl, ?_⟩
  repeat' first
    | with_reducible assumption
    | with_reducible exact Keeps.refl _ _
    | with_reducible apply Keeps.ite
    | (fail_if_no_progress with_reducible apply Keeps.upd)
    | with_reducible apply State.advance_keeps
    | with_reducible apply State.setBall_keeps
    | (extract_lets +onlyGivenNames x; refine Keeps.cut (st := false) (b := (s0.advance t)) x ?_ ?_; rotate_left; (clear_value x; intro hx); rotate_left; subst x)
    | (extract_lets +onlyGivenNames x; refine Keeps.cut (st := false) (b := (s0.advance t)) x.1 ?_ ?_; rotate_left; (clear_value x; intro hx); rotate_left; subst x)
    | (extract_lets +onlyGivenNames x; refine Keeps.cut (st := false) (b := (s0.advance t)) x.2 ?_ ?_; rotate_left; (clear_value x; intro hx); rotate_left; subst x)
    | (extract_lets +onlyGivenNames x; clear_value x)
    | (extract_lets +onlyGivenNames x)
    | split
    | (fail_if_no_progress dsimp only)

theorem execPolicyWrite_keeps (m : Nat) (val : Nat) (t : Nat) (s0 : State) :
    ∃ z, execPolicyWrite m val t s0 = .next z ∧ Keeps false (s0.advance t) z := by
  unfold execPolicyWrite
  refine ⟨_, rfl, ?_⟩
  repeat' first
    | with_reducible assumption
    | with_reducible exact Keeps.refl _ _
    | with_reducible apply Keeps.ite
    | (fail_if_no_progress with_reducible apply Keeps.upd)
    | with_reducible apply State.advance_keeps
    | with_reducible apply State.busWrite_keeps
    | with_reducible apply State.policyWrite_keeps
    | (intro u a hu; beta_reduce)
    | (intro u hu; beta_reduce)
    | (fail_if_no_progress dsimp only)

theorem execModeReqService_keeps (m : Nat) (t : Nat) (s : State) :
    ∃ z, execModeReqService m t s = .next z ∧ Keeps false (s.advance t) z := by
  unfold execModeReqService
  refine ⟨_, rfl, ?_⟩
  repeat' first
    | with_reducible assumption
    | with_reducible exact Keeps.refl _ _
    | with_reducible apply Keeps.ite
    | (fail_if_no_progress with_reducible apply Keeps.upd)
    | with_reducible apply State.advance_keeps
    | with_reducible apply State.modeReq_keeps
    | (fail_if_no_progress dsimp only)

theorem execModeReqDegraded_keeps (m : Nat) (t : Nat) (s : State) :
    ∃ z, execModeReqDegraded m t s = .next z ∧ Keeps false (s.advance t) z := by
  unfold execModeReqDegraded
  refine ⟨_, rfl, ?_⟩
  repeat' first
    | with_reducible assumption
    | with_reducible exact Keeps.refl _ _
    | with_reducible apply Keeps.ite
    | (fail_if_no_progress with_reducible apply Keeps.upd)
    | with_reducible apply State.advance_keeps
    | with_reducible apply State.modeReq_keeps
    | (fail_if_no_progress dsimp only)

theorem execModeReqMaintenance_keeps (m : Nat) (block : Nat) (t : Nat) (s : State) :
    ∃ z, execModeReqMaintenance m block t s = .next z ∧ Keeps false (s.advance t) z := by
  unfold execModeReqMaintenance
  refine ⟨_, rfl, ?_⟩
  repeat' first
    | with_reducible assumption
    | with_reducible exact Keeps.refl _ _
    | with_reducible apply Keeps.ite
    | (fail_if_no_progress with_reducible apply Keeps.upd)
    | with_reducible apply State.advance_keeps
    | with_reducible apply State.modeReq_keeps
    | (fail_if_no_progress dsimp only)

theorem execModeReqRelease_keeps (m : Nat) (block : Nat) (t : Nat) (s : State) :
    ∃ z, execModeReqRelease m block t s = .next z ∧ Keeps false (s.advance t) z := by
  unfold execModeReqRelease
  refine ⟨_, rfl, ?_⟩
  repeat' first
    | with_reducible assumption
    | with_reducible exact Keeps.refl _ _
    | with_reducible apply Keeps.ite
    | (fail_if_no_progress with_reducible apply Keeps.upd)
    | with_reducible apply State.advance_keeps
    | with_reducible apply State.modeReq_keeps
    | (fail_if_no_progress dsimp only)

theorem execModeReqQuiesce_keeps (m : Nat) (t : Nat) (s : State) :
    ∃ z, execModeReqQuiesce m t s = .next z ∧ Keeps false (s.advance t) z := by
  unfold execModeReqQuiesce
  refine ⟨_, rfl, ?_⟩
  repeat' first
    | with_reducible assumption
    | with_reducible exact Keeps.refl _ _
    | with_reducible apply Keeps.ite
    | (fail_if_no_progress with_reducible apply Keeps.upd)
    | with_reducible apply State.advance_keeps
    | with_reducible apply State.modeReq_keeps
    | (fail_if_no_progress dsimp only)

theorem execModeReqTwinStandby_keeps (m : Nat) (t : Nat) (s : State) :
    ∃ z, execModeReqTwinStandby m t s = .next z ∧ Keeps false (s.advance t) z := by
  unfold execModeReqTwinStandby
  refine ⟨_, rfl, ?_⟩
  repeat' first
    | with_reducible assumption
    | with_reducible exact Keeps.refl _ _
    | with_reducible apply Keeps.ite
    | (fail_if_no_progress with_reducible apply Keeps.upd)
    | with_reducible apply State.advance_keeps
    | with_reducible apply State.modeReq_keeps
    | (fail_if_no_progress dsimp only)

theorem execModeReqProvisioning_keeps (m : Nat) (t : Nat) (s : State) :
    ∃ z, execModeReqProvisioning m t s = .next z ∧ Keeps false (s.advance t) z := by
  unfold execModeReqProvisioning
  refine ⟨_, rfl, ?_⟩
  repeat' first
    | with_reducible assumption
    | with_reducible exact Keeps.refl _ _
    | with_reducible apply Keeps.ite
    | (fail_if_no_progress with_reducible apply Keeps.upd)
    | with_reducible apply State.advance_keeps
    | with_reducible apply State.modeReq_keeps
    | (fail_if_no_progress dsimp only)

theorem execModeReqKeepAlive_keeps (m : Nat) (delta : Int) (t : Nat) (s : State) :
    ∃ z, execModeReqKeepAlive m delta t s = .next z ∧ Keeps false (s.advance t) z := by
  unfold execModeReqKeepAlive
  refine ⟨_, rfl, ?_⟩
  repeat' first
    | with_reducible assumption
    | with_reducible exact Keeps.refl _ _
    | with_reducible apply Keeps.ite
    | (fail_if_no_progress with_reducible apply Keeps.upd)
    | with_reducible apply State.advance_keeps
    | with_reducible apply State.modeReq_keeps
    | (fail_if_no_progress dsimp only)

theorem execModeReqLockdown_keeps (m : Nat) (t : Nat) (s : State) :
    ∃ z, execModeReqLockdown m t s = .next z ∧ Keeps false (s.advance t) z := by
  unfold execModeReqLockdown
  refine ⟨_, rfl, ?_⟩
  repeat' first
    | with_reducible assumption
    | with_reducible exact Keeps.refl _ _
    | with_reducible apply Keeps.ite
    | (fail_if_no_progress with_reducible apply Keeps.upd)
    | with_reducible apply State.advance_keeps
    | with_reducible apply State.modeReq_keeps
    | (fail_if_no_progress dsimp only)

theorem execModeReqUnreachable_keeps (m : Nat) (target : Nat) (t : Nat) (s : State) :
    ∃ z, execModeReqUnreachable m target t s = .next z ∧ Keeps false (s.advance t) z := by
  unfold execModeReqUnreachable
  refine ⟨_, rfl, ?_⟩
  repeat' first
    | with_reducible assumption
    | with_reducible exact Keeps.refl _ _
    | with_reducible apply Keeps.ite
    | (fail_if_no_progress with_reducible apply Keeps.upd)
    | with_reducible apply State.advance_keeps
    | with_reducible apply State.modeReq_keeps
    | split
    | (fail_if_no_progress dsimp only)

theorem execBootImageLoad_keeps (x : BootImages) (t : Nat) (s0 : State) :
    ∃ z, execBootImageLoad x t s0 = .next z ∧ Keeps false (s0.advance t) z := by
  unfold execBootImageLoad
  refine ⟨_, rfl, ?_⟩
  repeat' first
    | with_reducible assumption
    | with_reducible exact Keeps.refl _ _
    | with_reducible apply Keeps.ite
    | (fail_if_no_progress with_reducible apply Keeps.upd)
    | with_reducible apply State.advance_keeps
    | with_reducible apply State.mediumFound_keeps
    | with_reducible apply State.wr_keeps
    | with_reducible apply State.tryCopies_keeps
    | with_reducible apply State.bootLoaded_keeps
    | with_reducible apply State.bootDone_keeps
    | (extract_lets +onlyGivenNames x; refine Keeps.cut (st := false) (b := (s0.advance t)) x ?_ ?_; rotate_left; (clear_value x; intro hx); rotate_left; subst x)
    | (extract_lets +onlyGivenNames x; refine Keeps.cut (st := false) (b := (s0.advance t)) x.1 ?_ ?_; rotate_left; (clear_value x; intro hx); rotate_left; subst x)
    | (extract_lets +onlyGivenNames x; refine Keeps.cut (st := false) (b := (s0.advance t)) x.2 ?_ ?_; rotate_left; (clear_value x; intro hx); rotate_left; subst x)
    | (extract_lets +onlyGivenNames x; clear_value x)
    | (extract_lets +onlyGivenNames x)
    | split
    | (refine OKeeps.of_some (by assumption) ?_)
    | (refine OPKeeps.of_some (by assumption) ?_)
    | (refine Stage4.Keeps.of_done (by assumption) ?_)
    | (with_reducible refine Keeps.of_pair (by assumption) ?_)
    | (with_reducible refine Keeps.of_pair2 (by assumption) ?_)
    | (fail_if_no_progress dsimp only)

theorem execSelfTestDone_keeps (failed : List (Nat × Nat)) (again : List (Nat × Nat)) (repaired : Nat) (ms : Nat) (t : Nat) (s0 : State) :
    ∃ z, execSelfTestDone failed again repaired ms t s0 = .next z ∧ Keeps false (s0.advance t) z := by
  unfold execSelfTestDone
  refine ⟨_, rfl, ?_⟩
  repeat' first
    | with_reducible assumption
    | with_reducible exact Keeps.refl _ _
    | with_reducible apply Keeps.ite
    | (fail_if_no_progress with_reducible apply Keeps.upd)
    | (fail_if_no_progress with_reducible apply Keeps.upd_filter)
    | (fail_if_no_progress with_reducible apply Keeps.upd_filter_all)
    | with_reducible apply State.advance_keeps
    | with_reducible apply State.countTests_keeps
    | with_reducible apply State.bump_keeps
    | with_reducible apply State.selfFail_keeps
    | with_reducible apply State.setN_keeps
    | with_reducible apply State.afterBoot_keeps
    | (with_reducible refine Keeps.foldl ?_ ?_)
    | (with_reducible refine Keeps.foldl_fst ?_ ?_)
    | (intro u a hu; beta_reduce)
    | (intro u hu; beta_reduce)
    | (extract_lets +onlyGivenNames x; refine Keeps.cut (st := false) (b := (s0.advance t)) x ?_ ?_; rotate_left; (clear_value x; intro hx); rotate_left; subst x)
    | (extract_lets +onlyGivenNames x; refine Keeps.cut (st := false) (b := (s0.advance t)) x.1 ?_ ?_; rotate_left; (clear_value x; intro hx); rotate_left; subst x)
    | (extract_lets +onlyGivenNames x; refine Keeps.cut (st := false) (b := (s0.advance t)) x.2 ?_ ?_; rotate_left; (clear_value x; intro hx); rotate_left; subst x)
    | (extract_lets +onlyGivenNames x; clear_value x)
    | (extract_lets +onlyGivenNames x)
    | split
    | (fail_if_no_progress dsimp only)

theorem execWarmReset_keeps (m : Nat) (skipBist : Bool) (keyOk : Bool) (t : Nat) (s0 : State) :
    ∃ z, execWarmReset m skipBist keyOk t s0 = .next z ∧ Keeps false (s0.advance t) z := by
  unfold execWarmReset
  refine ⟨_, rfl, ?_⟩
  repeat' first
    | with_reducible assumption
    | with_reducible exact Keeps.refl _ _
    | with_reducible apply Keeps.ite
    | (fail_if_no_progress with_reducible apply Keeps.upd)
    | with_reducible apply State.advance_keeps
    | with_reducible apply State.busWrite_keeps
    | with_reducible apply State.resetCtrl_keeps
    | (intro u a hu; beta_reduce)
    | (intro u hu; beta_reduce)
    | (fail_if_no_progress dsimp only)

theorem execResetCtrlWrongKey_keeps (m : Nat) (val : Nat) (t : Nat) (s0 : State) :
    ∃ z, execResetCtrlWrongKey m val t s0 = .next z ∧ Keeps false (s0.advance t) z := by
  unfold execResetCtrlWrongKey
  refine ⟨_, rfl, ?_⟩
  repeat' first
    | with_reducible assumption
    | with_reducible exact Keeps.refl _ _
    | with_reducible apply Keeps.ite
    | (fail_if_no_progress with_reducible apply Keeps.upd)
    | with_reducible apply State.advance_keeps
    | with_reducible apply State.busWrite_keeps
    | with_reducible apply State.resetCtrl_keeps
    | (intro u a hu; beta_reduce)
    | (intro u hu; beta_reduce)
    | split
    | (fail_if_no_progress dsimp only)

theorem execMultiwordLowRead_keeps (m : Nat) (addr : Nat) (s : State) :
    ∃ z, execMultiwordLowRead m addr s = .next z ∧ Keeps false s z := by
  unfold execMultiwordLowRead
  refine ⟨_, rfl, ?_⟩
  repeat' first
    | with_reducible assumption
    | with_reducible exact Keeps.refl _ _
    | with_reducible apply Keeps.ite
    | (fail_if_no_progress with_reducible apply Keeps.upd)
    | with_reducible apply State.busRead_keeps
    | (fail_if_no_progress dsimp only)

theorem execStickyClear_keeps (m : Nat) (b : Blk) (val : Nat) (recurs : Nat) (s : State) :
    ∃ z, execStickyClear m b val recurs s = .next z ∧ Keeps false s z := by
  unfold execStickyClear
  refine ⟨_, rfl, ?_⟩
  repeat' first
    | with_reducible assumption
    | with_reducible exact Keeps.refl _ _
    | with_reducible apply Keeps.ite
    | (fail_if_no_progress with_reducible apply Keeps.upd)
    | with_reducible apply State.busWrite_keeps
    | with_reducible apply State.sticky_keeps
    | with_reducible apply State.stickyWrite_keeps
    | (intro u a hu; beta_reduce)
    | (intro u hu; beta_reduce)
    | (fail_if_no_progress dsimp only)

theorem execRegisterWrite_keeps (m : Nat) (addr : Nat) (val : Nat) (s : State) :
    ∃ z, execRegisterWrite m addr val s = .next z ∧ Keeps false s z := by
  unfold execRegisterWrite
  refine ⟨_, rfl, ?_⟩
  repeat' first
    | with_reducible assumption
    | with_reducible exact Keeps.refl _ _
    | with_reducible apply Keeps.ite
    | (fail_if_no_progress with_reducible apply Keeps.upd)
    | with_reducible apply State.busPut_keeps
    | (fail_if_no_progress dsimp only)

theorem execMultiwordHighWrite_keeps (m : Nat) (addr : Nat) (val : Nat) (s : State) :
    ∃ z, execMultiwordHighWrite m addr val s = .next z ∧ Keeps false s z := by
  unfold execMultiwordHighWrite
  refine ⟨_, rfl, ?_⟩
  repeat' first
    | with_reducible assumption
    | with_reducible exact Keeps.refl _ _
    | with_reducible apply Keeps.ite
    | (fail_if_no_progress with_reducible apply Keeps.upd)
    | with_reducible apply State.busPut_keeps
    | split
    | (refine OKeeps.of_some (by assumption) ?_)
    | (refine OPKeeps.of_some (by assumption) ?_)
    | (refine Stage4.Keeps.of_done (by assumption) ?_)
    | (with_reducible refine Keeps.of_pair (by assumption) ?_)
    | (with_reducible refine Keeps.of_pair2 (by assumption) ?_)
    | (fail_if_no_progress dsimp only)

theorem execPartialByteWrite_keeps (m : Nat) (addr : Nat) (val : Nat) (enables : Nat) (s : State) :
    ∃ z, execPartialByteWrite m addr val enables s = .next z ∧ Keeps false s z := by
  unfold execPartialByteWrite
  refine ⟨_, rfl, ?_⟩
  repeat' first
    | with_reducible assumption
    | with_reducible exact Keeps.refl _ _
    | with_reducible apply Keeps.ite
    | (fail_if_no_progress with_reducible apply Keeps.upd)
    | with_reducible apply State.busPut_keeps
    | with_reducible apply State.refuseCfg_keeps
    | split
    | (fail_if_no_progress dsimp only)

theorem execSeqFld_keeps (n : Nat) (poisoned : Bool) (t : Nat) (s : State) :
    ∃ z, execSeqFld n poisoned t s = .next z ∧ Keeps false (s.advance t) z := by
  unfold execSeqFld
  refine ⟨_, rfl, ?_⟩
  repeat' first
    | with_reducible assumption
    | with_reducible exact Keeps.refl _ _
    | with_reducible apply Keeps.ite
    | (fail_if_no_progress with_reducible apply Keeps.upd)
    | with_reducible apply State.advance_keeps
    | with_reducible apply State.sqExec_keeps
    | with_reducible apply State.sqFabLoad_keeps
    | (with_reducible refine Keeps.foldl ?_ ?_)
    | (with_reducible refine Keeps.foldl_fst ?_ ?_)
    | (intro u a hu; beta_reduce)
    | (intro u hu; beta_reduce)
    | (extract_lets +onlyGivenNames x; refine Keeps.cut (st := false) (b := (s.advance t)) x ?_ ?_; rotate_left; (clear_value x; intro hx); rotate_left; subst x)
    | (extract_lets +onlyGivenNames x; refine Keeps.cut (st := false) (b := (s.advance t)) x.1 ?_ ?_; rotate_left; (clear_value x; intro hx); rotate_left; subst x)
    | (extract_lets +onlyGivenNames x; refine Keeps.cut (st := false) (b := (s.advance t)) x.2 ?_ ?_; rotate_left; (clear_value x; intro hx); rotate_left; subst x)
    | (extract_lets +onlyGivenNames x; clear_value x)
    | (extract_lets +onlyGivenNames x)
    | split
    | (refine OKeeps.of_some (by assumption) ?_)
    | (refine OPKeeps.of_some (by assumption) ?_)
    | (refine Stage4.Keeps.of_done (by assumption) ?_)
    | (with_reducible refine Keeps.of_pair (by assumption) ?_)
    | (with_reducible refine Keeps.of_pair2 (by assumption) ?_)
    | (fail_if_no_progress dsimp only)

theorem execFldDataReturn_keeps (n : Nat) (poisoned : Bool) (t : Nat) (s0 : State) :
    ∃ z, execFldDataReturn n poisoned t s0 = .next z ∧ Keeps false (s0.advance t) z := by
  unfold execFldDataReturn
  refine ⟨_, rfl, ?_⟩
  repeat' first
    | with_reducible assumption
    | with_reducible exact Keeps.refl _ _
    | with_reducible apply Keeps.ite
    | (fail_if_no_progress with_reducible apply Keeps.upd)
    | with_reducible apply State.advance_keeps
    | with_reducible apply State.setSq_keeps
    | with_reducible apply State.poisonSeen_keeps
    | with_reducible apply State.sqFault_keeps
    | with_reducible apply State.fabRead32_keeps
    | with_reducible apply State.sqPut_keeps
    | with_reducible apply State.sqIssued_keeps
    | with_reducible apply State.sqNext_keeps
    | (extract_lets +onlyGivenNames x; refine Keeps.cut (st := false) (b := (s0.advance t)) x ?_ ?_; rotate_left; (clear_value x; intro hx); rotate_left; subst x)
    | (extract_lets +onlyGivenNames x; refine Keeps.cut (st := false) (b := (s0.advance t)) x.1 ?_ ?_; rotate_left; (clear_value x; intro hx); rotate_left; subst x)
    | (extract_lets +onlyGivenNames x; refine Keeps.cut (st := false) (b := (s0.advance t)) x.2 ?_ ?_; rotate_left; (clear_value x; intro hx); rotate_left; subst x)
    | (extract_lets +onlyGivenNames x; clear_value x)
    | (extract_lets +onlyGivenNames x)
    | split
    | (refine OKeeps.of_some (by assumption) ?_)
    | (refine OPKeeps.of_some (by assumption) ?_)
    | (refine Stage4.Keeps.of_done (by assumption) ?_)
    | (with_reducible refine Keeps.of_pair (by assumption) ?_)
    | (with_reducible refine Keeps.of_pair2 (by assumption) ?_)
    | (fail_if_no_progress dsimp only)

theorem execFldBusTimeout_keeps (n : Nat) (t : Nat) (s0 : State) :
    ∃ z, execFldBusTimeout n t s0 = .next z ∧ Keeps false (s0.advance t) z := by
  unfold execFldBusTimeout
  refine ⟨_, rfl, ?_⟩
  repeat' first
    | with_reducible assumption
    | with_reducible exact Keeps.refl _ _
    | with_reducible apply Keeps.ite
    | (fail_if_no_progress with_reducible apply Keeps.upd)
    | with_reducible apply State.advance_keeps
    | with_reducible apply State.sqFault_keeps
    | (extract_lets +onlyGivenNames x; refine Keeps.cut (st := false) (b := (s0.advance t)) x ?_ ?_; rotate_left; (clear_value x; intro hx); rotate_left; subst x)
    | (extract_lets +onlyGivenNames x; refine Keeps.cut (st := false) (b := (s0.advance t)) x.1 ?_ ?_; rotate_left; (clear_value x; intro hx); rotate_left; subst x)
    | (extract_lets +onlyGivenNames x; refine Keeps.cut (st := false) (b := (s0.advance t)) x.2 ?_ ?_; rotate_left; (clear_value x; intro hx); rotate_left; subst x)
    | (extract_lets +onlyGivenNames x; clear_value x)
    | (extract_lets +onlyGivenNames x)
    | split
    | (refine OKeeps.of_some (by assumption) ?_)
    | (refine OPKeeps.of_some (by assumption) ?_)
    | (refine Stage4.Keeps.of_done (by assumption) ?_)
    | (with_reducible refine Keeps.of_pair (by assumption) ?_)
    | (with_reducible refine Keeps.of_pair2 (by assumption) ?_)
    | (fail_if_no_progress dsimp only)

theorem execSeqFst_keeps (n : Nat) (poisoned : Bool) (t : Nat) (s : State) :
    ∃ z, execSeqFst n poisoned t s = .next z ∧ Keeps false (s.advance t) z := by
  unfold execSeqFst
  refine ⟨_, rfl, ?_⟩
  repeat' first
    | with_reducible assumption
    | with_reducible exact Keeps.refl _ _
    | with_reducible apply Keeps.ite
    | (fail_if_no_progress with_reducible apply Keeps.upd)
    | with_reducible apply State.advance_keeps
    | with_reducible apply State.sqExec_keeps
    | with_reducible apply State.sqFabStore_keeps
    | (with_reducible refine Keeps.foldl ?_ ?_)
    | (with_reducible refine Keeps.foldl_fst ?_ ?_)
    | (intro u a hu; beta_reduce)
    | (intro u hu; beta_reduce)
    | (extract_lets +onlyGivenNames x; refine Keeps.cut (st := false) (b := (s.advance t)) x ?_ ?_; rotate_left; (clear_value x; intro hx); rotate_left; subst x)
    | (extract_lets +onlyGivenNames x; refine Keeps.cut (st := false) (b := (s.advance t)) x.1 ?_ ?_; rotate_left; (clear_value x; intro hx); rotate_left; subst x)
    | (extract_lets +onlyGivenNames x; refine Keeps.cut (st := false) (b := (s.advance t)) x.2 ?_ ?_; rotate_left; (clear_value x; intro hx); rotate_left; subst x)
    | (extract_lets +onlyGivenNames x; clear_value x)
    | (extract_lets +onlyGivenNames x)
    | split
    | (refine OKeeps.of_some (by assumption) ?_)
    | (refine OPKeeps.of_some (by assumption) ?_)
    | (refine Stage4.Keeps.of_done (by assumption) ?_)
    | (with_reducible refine Keeps.of_pair (by assumption) ?_)
    | (with_reducible refine Keeps.of_pair2 (by assumption) ?_)
    | (fail_if_no_progress dsimp only)

theorem execCompareFire_keeps (u : Nat) (latch : List PortLatch) (t : Nat) (s0 : State) :
    ∃ z, execCompareFire u latch t s0 = .next z ∧ Keeps false (s0.advance t) z := by
  unfold execCompareFire
  refine ⟨_, rfl, ?_⟩
  repeat' first
    | with_reducible assumption
    | with_reducible exact Keeps.refl _ _
    | with_reducible apply Keeps.ite
    | (fail_if_no_progress with_reducible apply Keeps.upd)
    | with_reducible apply State.advance_keeps
    | with_reducible apply State.fireCmp_keeps
    | with_reducible apply State.pulseFires_keeps
    | with_reducible apply State.strobeFire_keeps
    | with_reducible apply State.seqEvent_keeps
    | with_reducible apply State.slotFires_keeps
    | (extract_lets +onlyGivenNames x; refine Keeps.cut (st := false) (b := (s0.advance t)) x ?_ ?_; rotate_left; (clear_value x; intro hx); rotate_left; subst x)
    | (extract_lets +onlyGivenNames x; refine Keeps.cut (st := false) (b := (s0.advance t)) x.1 ?_ ?_; rotate_left; (clear_value x; intro hx); rotate_left; subst x)
    | (extract_lets +onlyGivenNames x; refine Keeps.cut (st := false) (b := (s0.advance t)) x.2 ?_ ?_; rotate_left; (clear_value x; intro hx); rotate_left; subst x)
    | (extract_lets +onlyGivenNames x; clear_value x)
    | (extract_lets +onlyGivenNames x)
    | split
    | (refine OKeeps.of_some (by assumption) ?_)
    | (refine OPKeeps.of_some (by assumption) ?_)
    | (refine Stage4.Keeps.of_done (by assumption) ?_)
    | (with_reducible refine Keeps.of_pair (by assumption) ?_)
    | (with_reducible refine Keeps.of_pair2 (by assumption) ?_)
    | (fail_if_no_progress dsimp only)

end Sys2Proof.Machine
end

