-- ==== Sys2Proof/Laws/Shadow.lean ====
section
/-! SUPPORT. The shadow words of a commit group: what a shadow reads after it, or another, was written (R11, R20). -/

namespace Sys2Proof.Machine

/-- A write leaves what is found under another key. -/
theorem Store.find_put_ne {d : Nat → Word} {m : Store Word} (h : m.rising) (k j : Nat) (v : Word) (hj : j ≠ k) :
    (Store.put d m k v).find? (fun e => e.1 == j) = m.find? (fun e => e.1 == j) := by
  induction m with
  | nil =>
    have : (k == j) = false := by simp; omega
    unfold Store.put; split <;> simp [List.find?, this]
  | cons e r ih =>
    obtain ⟨a, w⟩ := e
    have h' := List.pairwise_cons.mp h
    unfold Store.put
    split
    · rename_i hak
      subst hak
      have : (a == j) = false := by simp; omega
      split <;> simp [List.find?, this]
    · split
      · have : (k == j) = false := by simp; omega
        split <;> simp [List.find?, this]
      · simp only [List.find?]
        split
        · rfl
        · exact ih h'.2

/-- What is found under a key that was written. -/
theorem Store.find_put_same {d : Nat → Word} {m : Store Word} (h : m.rising) (k : Nat) (v : Word) :
    (Store.put d m k v).find? (fun e => e.1 == k) = if v = d k then none else some (k, v) := by
  have none_of : ∀ (r : Store Word), (∀ e ∈ r, k < e.1) → r.find? (fun e => e.1 == k) = none := by
    intro r hr
    rw [List.find?_eq_none]
    intro e he
    have := hr e he
    simp; omega
  induction m with
  | nil => unfold Store.put; split <;> simp_all [List.find?]
  | cons e r ih =>
    obtain ⟨a, w⟩ := e
    have h' := List.pairwise_cons.mp h
    unfold Store.put
    split
    · rename_i hak
      subst hak
      split
      · exact none_of _ h'.1
      · simp [List.find?]
    · split
      · split
        · refine none_of _ ?_
          intro e he
          rcases List.mem_cons.mp he with rfl | he
          · assumption
          · exact lt_trans ‹_› (h'.1 e he)
        · simp [List.find?]
      · have : (a == k) = false := by simp; omega
        simp only [List.find?, this]
        exact ih h'.2

/-- A shadow word reads as it was written (R11). -/
theorem State.shadowWord_setShadow (s : State) (k v : Nat) (h : Store.rising s.shadow) :
    (s.setShadow k v).shadowWord k = v % 2 ^ 32 := by
  unfold State.shadowWord State.setShadow
  dsimp only
  rw [Store.find_put_same h]
  split
  · rename_i e
    split at e
    · simp at e
    · cases e; simp
  · rename_i e
    split at e
    · rename_i e'
      show s.nreg k = _
      unfold State.nreg
      rw [← e']; simp
    · simp at e

/-- Every other shadow word reads as before. -/
theorem State.shadowWord_setShadow_ne (s : State) (k v j : Nat) (h : Store.rising s.shadow) (hj : j ≠ k) :
    (s.setShadow k v).shadowWord j = s.shadowWord j := by
  unfold State.shadowWord State.setShadow
  dsimp only
  rw [Store.find_put_ne h _ _ _ hj]
  rfl

end Sys2Proof.Machine
end

