-- ==== Sys2Proof/Laws/Signals.lean ====
section
/-! SUPPORT. What an alarm, an event, a journal record, a count or a discard does to the rest of the state: registers outside
`alarmKeys` (and the register that was asked for) keep their values, sticky bits that are set stay set, and no other part of
the state changes but queues, rings' counts, the journal, the performance counters and the Flowstone sequencer's events. -/

namespace Sys2Proof.Machine

theorem Signals.refl (ks : List Nat) (s : State) : Signals ks s s :=
  ⟨id, rfl, rfl, rfl, rfl, rfl, rfl, rfl, rfl, rfl, rfl, rfl, rfl, rfl, rfl, rfl, rfl, rfl, rfl, rfl, rfl, rfl, rfl, rfl, rfl, rfl,
   rfl, rfl, rfl, rfl, rfl, rfl, rfl, rfl, rfl, fun _ _ _ _ => rfl, fun _ _ _ _ _ _ h => h⟩

theorem Signals.trans {ks : List Nat} {s t u : State} (h : Signals ks s t) (g : Signals ks t u) : Signals ks s u := by
  constructor
  · exact fun w => g.regsWf (h.regsWf w)
  case reg => exact fun w k h1 h2 => (g.reg (h.regsWf w) k h1 h2).trans (h.reg w k h1 h2)
  case on => exact fun w f h1 h2 h3 h4 h5 => g.on (h.regsWf w) f h1 h2 h3 h4 (h.on w f h1 h2 h3 h4 h5)
  all_goals first
    | exact g.pending.trans h.pending | exact g.variant.trans h.variant | exact g.raw.trans h.raw
    | exact g.rawRun.trans h.rawRun | exact g.shadow.trans h.shadow | exact g.latch.trans h.latch
    | exact g.held.trans h.held | exact g.mem.trans h.mem | exact g.tsc.trans h.tsc | exact g.glb.trans h.glb
    | exact g.ref.trans h.ref | exact g.dsc.trans h.dsc | exact g.grt.trans h.grt | exact g.cko.trans h.cko
    | exact g.gna.trans h.gna | exact g.gnc.trans h.gnc | exact g.prt.trans h.prt | exact g.rsp.trans h.rsp
    | exact g.ptp.trans h.ptp | exact g.nts.trans h.nts | exact g.evt.trans h.evt | exact g.vid.trans h.vid
    | exact g.tdc.trans h.tdc | exact g.key.trans h.key | exact g.pke.trans h.pke | exact g.fls.trans h.fls
    | exact g.pwr.trans h.pwr | exact g.bst.trans h.bst | exact g.twn.trans h.twn
    | exact g.isolated.trans h.isolated | exact g.copies.trans h.copies | exact g.cmdQ.trans h.cmdQ
    | exact g.sram.trans h.sram | exact g.swaps.trans h.swaps

theorem Signals.mono {ks ks' : List Nat} {s t : State} (h : Signals ks s t) (hk : ∀ k ∈ ks, k ∈ ks') : Signals ks' s t :=
  { h with
    reg := fun w k h1 h2 => h.reg w k (fun c => h1 (hk k c)) h2
    on := fun w f h1 h2 h3 h4 h5 => h.on w f h1 h2 h3 (fun c => h4 (hk _ c)) h5 }

/-- A register that `ks` or the numbers of `alarmKeys` name is written. -/
theorem Signals.setN {ks : List Nat} (s : State) (k v : Nat) (h : k ∈ ks ∨ k ∈ alarmNums) : Signals ks s (s.setN k v) := by
  refine { Signals.refl ks s with regsWf := fun w => s.setN_regsWf _ _ w, reg := fun w j h1 h2 => ?_, on := ?_ }
  · refine s.reg_setN_ne _ _ _ w (fun c => ?_)
    subst c
    rcases h with h | h
    · exact h1 h
    · exact h2 (List.mem_append_left _ h)
  · intro w f h1 h2 h3 h4 h5
    unfold State.on at *
    rw [s.rd_setN_ne _ _ _ w (fun c => ?_)]
    · exact h5
    · rw [c] at h3 h4
      rcases h with h | h
      · exact h4 h
      · exact h3 h

theorem Signals.wr {ks : List Nat} (s : State) (f : Fld) (v : Nat) (h : f.addr ∈ ks ∨ f.addr ∈ alarmNums) :
    Signals ks s (s.wr f v) := Signals.setN s _ _ h

/-- A one-bit field of a register that `ks` or `alarmKeys` names is set. -/
theorem Signals.wr_one {ks : List Nat} (s : State) (f : Fld) (hw : f.w = 1) (hl : f.lo < 32)
    (h : f.addr ∈ ks ∨ f.addr ∈ alarmKeys) : Signals ks s (s.wr f 1) := by
  refine { Signals.refl ks s with regsWf := fun w => s.wr_regsWf _ _ w, reg := fun w j h1 h2 => ?_, on := ?_ }
  · refine s.reg_wr_ne _ _ _ w (fun c => ?_)
    subst c
    rcases h with h | h
    · exact h1 h
    · exact h2 h
  · intro w g h1 _ _ _ h5
    exact s.on_wr_one f g w (by omega) hw h1 h5

theorem Signals.bump {ks : List Nat} (s : State) (k n : Nat) (h : k ∈ ks ∨ k ∈ alarmNums) : Signals ks s (s.bump k n) :=
  Signals.setN s _ _ h

/-! ### Parts of the state that signalling does not name -/

theorem Signals.setHif {ks : List Nat} (s : State) (h : HifS) (hc : h.cmdQ = s.hif.cmdQ) : Signals ks s { s with hif := h } :=
  { Signals.refl ks s with cmdQ := hc, reg := fun _ _ _ _ => rfl, on := fun _ _ _ _ _ _ h => h }

theorem Signals.setPmc {ks : List Nat} (s : State) (p : PmcS) : Signals ks s { s with pmc := p } :=
  { Signals.refl ks s with reg := fun _ _ _ _ => rfl, on := fun _ _ _ _ _ _ h => h }

theorem Signals.setJrn {ks : List Nat} (s : State) (j : JrnS) : Signals ks s { s with jrn := j } :=
  { Signals.refl ks s with reg := fun _ _ _ _ => rfl, on := fun _ _ _ _ _ _ h => h }

theorem Signals.setFab {ks : List Nat} (s : State) (f : FabS) (hi : f.isolated = s.fab.isolated) (hc : f.copies = s.fab.copies) :
    Signals ks s { s with fab := f } :=
  { Signals.refl ks s with isolated := hi, copies := hc, reg := fun _ _ _ _ => rfl, on := fun _ _ _ _ _ _ h => h }

theorem Signals.setSeq {ks : List Nat} (s : State) (q : SeqS) (h1 : q.sram = s.seq.sram) (h2 : q.swaps = s.seq.swaps) :
    Signals ks s { s with seq := q } :=
  { Signals.refl ks s with sram := h1, swaps := h2, reg := fun _ _ _ _ => rfl, on := fun _ _ _ _ _ _ h => h }

/-! ### The operations that signal -/

variable {ks : List Nat}

theorem State.msixCore_signals (s : State) (fn vec : Nat) : Signals ks s (s.msixCore fn vec).1 := by
  unfold State.msixCore
  dsimp only
  split
  · refine Signals.trans ?_ (Signals.bump _ HIF.MSIX_SENT _ (.inr (by decide)))
    exact Signals.setHif s _ rfl
  · exact Signals.setHif s _ rfl

theorem State.pmcAdd_signals (s : State) (g e u n : Nat) : Signals ks s (s.pmcAdd g e u n).1 := by
  unfold State.pmcAdd
  generalize s.cntMatches g e u = l
  suffices h : ∀ (a : State × Option Nat), Signals ks s a.1 → Signals ks s (l.foldl (fun acc i =>
      let old := Store.get zNat acc.1.pmc.cnt i
      let new := (old + n) % 2 ^ 48
      let half := !bitAt old 47 && bitAt new 47
      let s1 := { acc.1 with pmc := { acc.1.pmc with cnt := Store.put zNat acc.1.pmc.cnt i new } }
      (s1, match acc.2 with | some j => some j | none => if half then some i else none)) a).1 from h _ (Signals.refl ks s)
  induction l with
  | nil => exact fun a h => h
  | cons x r ih => exact fun a h => ih _ (h.trans (Signals.setPmc _ _))

theorem State.markHalf_signals (s : State) (c : Option Nat) : Signals ks s (s.markHalf c) := by
  unfold State.markHalf
  split
  · exact Signals.refl ks s
  · rename_i i
    have h1 : Signals ks s (if s.on PMC.STICKY_HALF then s else s.setN PMC.HALF_IDX (i + 2 ^ 16)) := by
      split
      · exact Signals.refl ks s
      · exact Signals.setN _ _ _ (.inr (by decide))
    generalize (if s.on PMC.STICKY_HALF then s else s.setN PMC.HALF_IDX (i + 2 ^ 16)) = u at h1
    have h2 := h1.trans (Signals.wr_one (ks := ks) _ PMC.STICKY_HALF (by decide) (by decide) (.inr (by decide)))
    dsimp only
    split
    · exact h2.trans (Signals.wr _ _ _ (.inr (show PMC.ALARM_SUM ∈ alarmNums by decide)))
    · exact h2

theorem State.alarmMsix_signals (s : State) : Signals ks s s.alarmMsix := by
  unfold State.alarmMsix
  dsimp only
  split
  · exact ((s.msixCore_signals _ _).trans (State.pmcAdd_signals _ _ _ _ _)).trans (State.markHalf_signals _ _)
  · exact s.msixCore_signals _ _

/-- A sticky bit sets: `ks` or `alarmKeys` must name its register. -/
theorem State.raiseBit_signals (s : State) (f : Fld) (hw : f.w = 1) (hl : f.lo < 32) (h : f.addr ∈ ks ∨ f.addr ∈ alarmKeys) :
    Signals ks s (s.raiseBit f) := by
  unfold State.raiseBit
  split
  · exact Signals.refl ks s
  · have h1 := Signals.wr_one (ks := ks) s f hw hl h
    dsimp only
    split
    · split
      · exact h1
      · have h2 := fun v => h1.trans (Signals.wr (ks := ks) _ ⟨PMC.ALARM_SUM, v, 1⟩ 1 (.inr (show PMC.ALARM_SUM ∈ alarmNums by decide)))
        split
        · exact ((h2 _).trans (Signals.wr _ _ _ (.inr (by decide : PMC.ALARM_PORTS ∈ alarmNums)))).trans (State.alarmMsix_signals _)
        · exact (h2 _).trans (State.alarmMsix_signals _)
    · exact h1

theorem State.count_signals (s : State) (g e u n : Nat) : Signals ks s (s.count g e u n) := by
  unfold State.count
  dsimp only
  split
  · exact s.pmcAdd_signals _ _ _ _
  · refine ((s.pmcAdd_signals g e u n).trans ?_).trans
      (State.raiseBit_signals _ _ (by decide) (by decide) (.inr (by decide)))
    split
    · exact Signals.refl ks _
    · exact Signals.setN _ _ _ (.inr (by decide))

/-- A discard counted: `ks` or `alarmKeys` must name the count of its reason. -/
theorem State.sumpTally_signals (s : State) (reason n : Nat) (h : FAB.SUMP_CNT_LO reason ∈ ks ∨ FAB.SUMP_CNT_LO reason ∈ alarmNums)
    (h' : FAB.SUMP_CNT_LO reason + 4 ∈ ks ∨ FAB.SUMP_CNT_LO reason + 4 ∈ alarmNums) :
    Signals ks s (s.sumpTally reason n).1 :=
  ((Signals.setN s _ _ h).trans (Signals.wr _ _ _ h')).trans (State.count_signals _ _ _ _ _)

theorem State.sumpCount_signals (s : State) (reason n : Nat)
    (h : FAB.SUMP_CNT_LO reason ∈ ks ∨ FAB.SUMP_CNT_LO reason ∈ alarmNums)
    (h' : FAB.SUMP_CNT_LO reason + 4 ∈ ks ∨ FAB.SUMP_CNT_LO reason + 4 ∈ alarmNums) :
    Signals ks s (s.sumpCount reason n) := by
  unfold State.sumpCount
  dsimp only
  split
  · exact (s.sumpTally_signals reason n h h').trans (State.raiseBit_signals _ _ (by decide) (by decide) (.inr (by decide)))
  · exact s.sumpTally_signals reason n h h'

theorem State.lset_signals (s : State) (k : Tok) (i : Nat) (l : LInst) : Signals ks s (s.lset k i l) := Signals.setFab s _ rfl rfl

theorem State.issue_signals (s : State) (k : Tok) (i n : Nat) : Signals ks s (s.issue k i n) := s.lset_signals _ _ _

theorem State.give_signals (s : State) (k : Tok) (i n : Nat) : Signals ks s (s.give k i n) := s.lset_signals _ _ _

theorem State.qPut_signals (s : State) (q n : Nat) : Signals ks s (s.qPut q n) := by
  unfold State.qPut
  dsimp only
  split
  · exact (s.issue_signals _ _ _).trans (Signals.setFab _ _ rfl rfl)
  · exact s.issue_signals _ _ _

theorem State.qTake_signals (s : State) (q n : Nat) : Signals ks s (s.qTake q n) := s.give_signals _ _ _

theorem State.setRing_signals (s : State) (r : Nat) (x : Ring) : Signals ks s (s.setRing r x) := Signals.setHif s _ rfl

theorem State.postEvent_signals (s : State) (ring kind : Nat) (p : List Byte) : Signals ks s (s.postEvent ring kind p).1 := by
  unfold State.postEvent
  split
  · exact (s.qPut_signals _ _).trans (Signals.setHif _ _ (by rw [(s.qPut_signals (ks := ks) 142 1).cmdQ]))
  · exact (s.setRing_signals _ _).trans (State.sumpCount_signals _ _ _ (.inr (by decide)) (.inr (by decide)))

theorem State.setQuiet_signals (s : State) (f : Fld) (hw : f.w = 1) (hl : f.lo < 32) (h : f.addr ∈ ks ∨ f.addr ∈ alarmKeys) :
    Signals ks s (s.setQuiet f) := by
  unfold State.setQuiet
  split
  · exact Signals.refl ks s
  · split
    · exact s.raiseBit_signals f hw hl h
    · split
      · exact (s.postEvent_signals _ _ _).trans (State.raiseBit_signals _ f hw hl h)
      · exact s.raiseBit_signals f hw hl h

theorem State.seqEvent_signals (s : State) (n bit : Nat) : Signals ks s (s.seqEvent n bit) := by
  unfold State.seqEvent
  dsimp only
  split
  · exact Signals.refl ks s
  · exact Signals.setSeq s _ rfl rfl

theorem State.journal_signals (s : State) (typ src : Nat) (b : List Byte) : Signals ks s (s.journal typ src b) := by
  unfold State.journal
  split
  · exact ((s.qPut_signals _ _).trans (Signals.setJrn _ _)).trans (State.seqEvent_signals _ _ _)
  · exact (((s.sumpCount_signals 0x17 1 (.inr (by decide)) (.inr (by decide))).trans
      (Signals.bump _ _ _ (.inr (by decide)))).trans (Signals.setJrn _ _)).trans
      (State.setQuiet_signals _ _ (by decide) (by decide) (.inr (by decide)))

/-- A sticky bit sets, with its alarm and its journal record. -/
theorem State.sticky_signals (s : State) (f : Fld) (hw : f.w = 1) (hl : f.lo < 32) (h : f.addr ∈ ks ∨ f.addr ∈ alarmKeys) :
    Signals ks s (s.sticky f) := by
  unfold State.sticky
  split
  · exact Signals.refl ks s
  · have h1 := s.setQuiet_signals f hw hl h
    dsimp only
    split
    · exact h1
    · split
      · exact (h1.trans (Signals.bump _ _ _ (.inr (by decide)))).trans (State.journal_signals _ _ _ _)
      · exact h1

theorem State.msix_signals (s : State) (fn vec : Nat) : Signals ks s (s.msix fn vec) := by
  unfold State.msix
  dsimp only
  split
  · exact (s.msixCore_signals _ _).trans (State.count_signals _ _ _ _ _)
  · exact s.msixCore_signals _ _

/-! ### The bit that was asked for is set -/

theorem State.raiseBit_on (s : State) (f : Fld) (w : s.RegsWf) (hw : f.w = 1) (hl : f.lo < 32) (hn : f.addr ∉ alarmNums) :
    (s.raiseBit f).on f = true := by
  unfold State.raiseBit
  split
  · assumption
  · have h0 := s.on_wr f w (by omega) hw
    have w1 := s.wr_regsWf f 1 w
    dsimp only
    split
    · split
      · exact h0
      · have h2 := fun v => (Signals.wr (ks := []) (s.wr f 1) ⟨PMC.ALARM_SUM, v, 1⟩ 1 (.inr (show PMC.ALARM_SUM ∈ alarmNums by decide)))
        split
        · exact (((h2 _).trans (Signals.wr _ _ _ (.inr (by decide : PMC.ALARM_PORTS ∈ alarmNums)))).trans
            (State.alarmMsix_signals _)).on w1 f hw hl hn (by simp) h0
        · exact ((h2 _).trans (State.alarmMsix_signals _)).on w1 f hw hl hn (by simp) h0
    · exact h0

theorem State.setQuiet_on (s : State) (f : Fld) (w : s.RegsWf) (hw : f.w = 1) (hl : f.lo < 32) (hn : f.addr ∉ alarmNums) :
    (s.setQuiet f).on f = true := by
  unfold State.setQuiet
  split
  · assumption
  · split
    · exact s.raiseBit_on f w hw hl hn
    · split
      · exact State.raiseBit_on _ f ((s.postEvent_signals (ks := []) _ _ _).regsWf w) hw hl hn
      · exact s.raiseBit_on f w hw hl hn

/-- A sticky bit that sets reads 1. -/
theorem State.sticky_on (s : State) (f : Fld) (w : s.RegsWf) (hw : f.w = 1) (hl : f.lo < 32) (hn : f.addr ∉ alarmNums) :
    (s.sticky f).on f = true := by
  unfold State.sticky
  split
  · assumption
  · have h1 := s.setQuiet_on f w hw hl hn
    have w1 := (s.setQuiet_signals (ks := [f.addr]) f hw hl (.inl (by simp))).regsWf w
    dsimp only
    split
    · exact h1
    · split
      · exact ((Signals.bump (ks := []) _ PMC.JRN_COUNT 1 (.inr (by decide))).trans (State.journal_signals _ _ _ _)).on w1 f hw hl hn
          (by simp) h1
      · exact h1

end Sys2Proof.Machine
end

