-- ==== Sys2Proof/Laws/State.lean ====
section
/-! SUPPORT. The fields of the state under each basic operation: what it leaves is what it was, one lemma for each field and
operation, so that no proof unfolds a record update; and what each operation changes, read back. -/

namespace Sys2Proof.Machine

variable (s : State)

/-! ### The live word at a key -/

@[simp] theorem State.setReg_pending (k : Nat) (w : Word) : (s.setReg k w).pending = s.pending := rfl
@[simp] theorem State.setReg_variant (k : Nat) (w : Word) : (s.setReg k w).variant = s.variant := rfl
@[simp] theorem State.setReg_freeCtr (k : Nat) (w : Word) : (s.setReg k w).freeCtr = s.freeCtr := rfl
@[simp] theorem State.setReg_raw (k : Nat) (w : Word) : (s.setReg k w).raw = s.raw := rfl
@[simp] theorem State.setReg_rawRun (k : Nat) (w : Word) : (s.setReg k w).rawRun = s.rawRun := rfl
@[simp] theorem State.setReg_shadow (k : Nat) (w : Word) : (s.setReg k w).shadow = s.shadow := rfl
@[simp] theorem State.setReg_latch (k : Nat) (w : Word) : (s.setReg k w).latch = s.latch := rfl
@[simp] theorem State.setReg_held (k : Nat) (w : Word) : (s.setReg k w).held = s.held := rfl
@[simp] theorem State.setReg_mem (k : Nat) (w : Word) : (s.setReg k w).mem = s.mem := rfl
@[simp] theorem State.setReg_fab (k : Nat) (w : Word) : (s.setReg k w).fab = s.fab := rfl
@[simp] theorem State.setReg_tsc (k : Nat) (w : Word) : (s.setReg k w).tsc = s.tsc := rfl
@[simp] theorem State.setReg_hif (k : Nat) (w : Word) : (s.setReg k w).hif = s.hif := rfl
@[simp] theorem State.setReg_jrn (k : Nat) (w : Word) : (s.setReg k w).jrn = s.jrn := rfl
@[simp] theorem State.setReg_pmc (k : Nat) (w : Word) : (s.setReg k w).pmc = s.pmc := rfl
@[simp] theorem State.setReg_glb (k : Nat) (w : Word) : (s.setReg k w).glb = s.glb := rfl
@[simp] theorem State.setReg_ref (k : Nat) (w : Word) : (s.setReg k w).ref = s.ref := rfl
@[simp] theorem State.setReg_dsc (k : Nat) (w : Word) : (s.setReg k w).dsc = s.dsc := rfl
@[simp] theorem State.setReg_grt (k : Nat) (w : Word) : (s.setReg k w).grt = s.grt := rfl
@[simp] theorem State.setReg_cko (k : Nat) (w : Word) : (s.setReg k w).cko = s.cko := rfl
@[simp] theorem State.setReg_gna (k : Nat) (w : Word) : (s.setReg k w).gna = s.gna := rfl
@[simp] theorem State.setReg_gnc (k : Nat) (w : Word) : (s.setReg k w).gnc = s.gnc := rfl
@[simp] theorem State.setReg_prt (k : Nat) (w : Word) : (s.setReg k w).prt = s.prt := rfl
@[simp] theorem State.setReg_rsp (k : Nat) (w : Word) : (s.setReg k w).rsp = s.rsp := rfl
@[simp] theorem State.setReg_ptp (k : Nat) (w : Word) : (s.setReg k w).ptp = s.ptp := rfl
@[simp] theorem State.setReg_nts (k : Nat) (w : Word) : (s.setReg k w).nts = s.nts := rfl
@[simp] theorem State.setReg_evt (k : Nat) (w : Word) : (s.setReg k w).evt = s.evt := rfl
@[simp] theorem State.setReg_vid (k : Nat) (w : Word) : (s.setReg k w).vid = s.vid := rfl
@[simp] theorem State.setReg_tdc (k : Nat) (w : Word) : (s.setReg k w).tdc = s.tdc := rfl
@[simp] theorem State.setReg_seq (k : Nat) (w : Word) : (s.setReg k w).seq = s.seq := rfl
@[simp] theorem State.setReg_key (k : Nat) (w : Word) : (s.setReg k w).key = s.key := rfl
@[simp] theorem State.setReg_pke (k : Nat) (w : Word) : (s.setReg k w).pke = s.pke := rfl
@[simp] theorem State.setReg_fls (k : Nat) (w : Word) : (s.setReg k w).fls = s.fls := rfl
@[simp] theorem State.setReg_pwr (k : Nat) (w : Word) : (s.setReg k w).pwr = s.pwr := rfl
@[simp] theorem State.setReg_bst (k : Nat) (w : Word) : (s.setReg k w).bst = s.bst := rfl
@[simp] theorem State.setReg_twn (k : Nat) (w : Word) : (s.setReg k w).twn = s.twn := rfl

/-! ### A register written as a number -/

@[simp] theorem State.setN_pending (k v : Nat) : (s.setN k v).pending = s.pending := rfl
@[simp] theorem State.setN_variant (k v : Nat) : (s.setN k v).variant = s.variant := rfl
@[simp] theorem State.setN_freeCtr (k v : Nat) : (s.setN k v).freeCtr = s.freeCtr := rfl
@[simp] theorem State.setN_raw (k v : Nat) : (s.setN k v).raw = s.raw := rfl
@[simp] theorem State.setN_rawRun (k v : Nat) : (s.setN k v).rawRun = s.rawRun := rfl
@[simp] theorem State.setN_shadow (k v : Nat) : (s.setN k v).shadow = s.shadow := rfl
@[simp] theorem State.setN_latch (k v : Nat) : (s.setN k v).latch = s.latch := rfl
@[simp] theorem State.setN_held (k v : Nat) : (s.setN k v).held = s.held := rfl
@[simp] theorem State.setN_mem (k v : Nat) : (s.setN k v).mem = s.mem := rfl
@[simp] theorem State.setN_fab (k v : Nat) : (s.setN k v).fab = s.fab := rfl
@[simp] theorem State.setN_tsc (k v : Nat) : (s.setN k v).tsc = s.tsc := rfl
@[simp] theorem State.setN_hif (k v : Nat) : (s.setN k v).hif = s.hif := rfl
@[simp] theorem State.setN_jrn (k v : Nat) : (s.setN k v).jrn = s.jrn := rfl
@[simp] theorem State.setN_pmc (k v : Nat) : (s.setN k v).pmc = s.pmc := rfl
@[simp] theorem State.setN_glb (k v : Nat) : (s.setN k v).glb = s.glb := rfl
@[simp] theorem State.setN_ref (k v : Nat) : (s.setN k v).ref = s.ref := rfl
@[simp] theorem State.setN_dsc (k v : Nat) : (s.setN k v).dsc = s.dsc := rfl
@[simp] theorem State.setN_grt (k v : Nat) : (s.setN k v).grt = s.grt := rfl
@[simp] theorem State.setN_cko (k v : Nat) : (s.setN k v).cko = s.cko := rfl
@[simp] theorem State.setN_gna (k v : Nat) : (s.setN k v).gna = s.gna := rfl
@[simp] theorem State.setN_gnc (k v : Nat) : (s.setN k v).gnc = s.gnc := rfl
@[simp] theorem State.setN_prt (k v : Nat) : (s.setN k v).prt = s.prt := rfl
@[simp] theorem State.setN_rsp (k v : Nat) : (s.setN k v).rsp = s.rsp := rfl
@[simp] theorem State.setN_ptp (k v : Nat) : (s.setN k v).ptp = s.ptp := rfl
@[simp] theorem State.setN_nts (k v : Nat) : (s.setN k v).nts = s.nts := rfl
@[simp] theorem State.setN_evt (k v : Nat) : (s.setN k v).evt = s.evt := rfl
@[simp] theorem State.setN_vid (k v : Nat) : (s.setN k v).vid = s.vid := rfl
@[simp] theorem State.setN_tdc (k v : Nat) : (s.setN k v).tdc = s.tdc := rfl
@[simp] theorem State.setN_seq (k v : Nat) : (s.setN k v).seq = s.seq := rfl
@[simp] theorem State.setN_key (k v : Nat) : (s.setN k v).key = s.key := rfl
@[simp] theorem State.setN_pke (k v : Nat) : (s.setN k v).pke = s.pke := rfl
@[simp] theorem State.setN_fls (k v : Nat) : (s.setN k v).fls = s.fls := rfl
@[simp] theorem State.setN_pwr (k v : Nat) : (s.setN k v).pwr = s.pwr := rfl
@[simp] theorem State.setN_bst (k v : Nat) : (s.setN k v).bst = s.bst := rfl
@[simp] theorem State.setN_twn (k v : Nat) : (s.setN k v).twn = s.twn := rfl

/-! ### A field written -/

@[simp] theorem State.wr_pending (f : Fld) (v : Nat) : (s.wr f v).pending = s.pending := rfl
@[simp] theorem State.wr_variant (f : Fld) (v : Nat) : (s.wr f v).variant = s.variant := rfl
@[simp] theorem State.wr_freeCtr (f : Fld) (v : Nat) : (s.wr f v).freeCtr = s.freeCtr := rfl
@[simp] theorem State.wr_raw (f : Fld) (v : Nat) : (s.wr f v).raw = s.raw := rfl
@[simp] theorem State.wr_rawRun (f : Fld) (v : Nat) : (s.wr f v).rawRun = s.rawRun := rfl
@[simp] theorem State.wr_shadow (f : Fld) (v : Nat) : (s.wr f v).shadow = s.shadow := rfl
@[simp] theorem State.wr_latch (f : Fld) (v : Nat) : (s.wr f v).latch = s.latch := rfl
@[simp] theorem State.wr_held (f : Fld) (v : Nat) : (s.wr f v).held = s.held := rfl
@[simp] theorem State.wr_mem (f : Fld) (v : Nat) : (s.wr f v).mem = s.mem := rfl
@[simp] theorem State.wr_fab (f : Fld) (v : Nat) : (s.wr f v).fab = s.fab := rfl
@[simp] theorem State.wr_tsc (f : Fld) (v : Nat) : (s.wr f v).tsc = s.tsc := rfl
@[simp] theorem State.wr_hif (f : Fld) (v : Nat) : (s.wr f v).hif = s.hif := rfl
@[simp] theorem State.wr_jrn (f : Fld) (v : Nat) : (s.wr f v).jrn = s.jrn := rfl
@[simp] theorem State.wr_pmc (f : Fld) (v : Nat) : (s.wr f v).pmc = s.pmc := rfl
@[simp] theorem State.wr_glb (f : Fld) (v : Nat) : (s.wr f v).glb = s.glb := rfl
@[simp] theorem State.wr_ref (f : Fld) (v : Nat) : (s.wr f v).ref = s.ref := rfl
@[simp] theorem State.wr_dsc (f : Fld) (v : Nat) : (s.wr f v).dsc = s.dsc := rfl
@[simp] theorem State.wr_grt (f : Fld) (v : Nat) : (s.wr f v).grt = s.grt := rfl
@[simp] theorem State.wr_cko (f : Fld) (v : Nat) : (s.wr f v).cko = s.cko := rfl
@[simp] theorem State.wr_gna (f : Fld) (v : Nat) : (s.wr f v).gna = s.gna := rfl
@[simp] theorem State.wr_gnc (f : Fld) (v : Nat) : (s.wr f v).gnc = s.gnc := rfl
@[simp] theorem State.wr_prt (f : Fld) (v : Nat) : (s.wr f v).prt = s.prt := rfl
@[simp] theorem State.wr_rsp (f : Fld) (v : Nat) : (s.wr f v).rsp = s.rsp := rfl
@[simp] theorem State.wr_ptp (f : Fld) (v : Nat) : (s.wr f v).ptp = s.ptp := rfl
@[simp] theorem State.wr_nts (f : Fld) (v : Nat) : (s.wr f v).nts = s.nts := rfl
@[simp] theorem State.wr_evt (f : Fld) (v : Nat) : (s.wr f v).evt = s.evt := rfl
@[simp] theorem State.wr_vid (f : Fld) (v : Nat) : (s.wr f v).vid = s.vid := rfl
@[simp] theorem State.wr_tdc (f : Fld) (v : Nat) : (s.wr f v).tdc = s.tdc := rfl
@[simp] theorem State.wr_seq (f : Fld) (v : Nat) : (s.wr f v).seq = s.seq := rfl
@[simp] theorem State.wr_key (f : Fld) (v : Nat) : (s.wr f v).key = s.key := rfl
@[simp] theorem State.wr_pke (f : Fld) (v : Nat) : (s.wr f v).pke = s.pke := rfl
@[simp] theorem State.wr_fls (f : Fld) (v : Nat) : (s.wr f v).fls = s.fls := rfl
@[simp] theorem State.wr_pwr (f : Fld) (v : Nat) : (s.wr f v).pwr = s.pwr := rfl
@[simp] theorem State.wr_bst (f : Fld) (v : Nat) : (s.wr f v).bst = s.bst := rfl
@[simp] theorem State.wr_twn (f : Fld) (v : Nat) : (s.wr f v).twn = s.twn := rfl

/-! ### A one-bit field written -/

@[simp] theorem State.wrB_pending (f : Fld) (b : Bool) : (s.wrB f b).pending = s.pending := rfl
@[simp] theorem State.wrB_variant (f : Fld) (b : Bool) : (s.wrB f b).variant = s.variant := rfl
@[simp] theorem State.wrB_freeCtr (f : Fld) (b : Bool) : (s.wrB f b).freeCtr = s.freeCtr := rfl
@[simp] theorem State.wrB_raw (f : Fld) (b : Bool) : (s.wrB f b).raw = s.raw := rfl
@[simp] theorem State.wrB_rawRun (f : Fld) (b : Bool) : (s.wrB f b).rawRun = s.rawRun := rfl
@[simp] theorem State.wrB_shadow (f : Fld) (b : Bool) : (s.wrB f b).shadow = s.shadow := rfl
@[simp] theorem State.wrB_latch (f : Fld) (b : Bool) : (s.wrB f b).latch = s.latch := rfl
@[simp] theorem State.wrB_held (f : Fld) (b : Bool) : (s.wrB f b).held = s.held := rfl
@[simp] theorem State.wrB_mem (f : Fld) (b : Bool) : (s.wrB f b).mem = s.mem := rfl
@[simp] theorem State.wrB_fab (f : Fld) (b : Bool) : (s.wrB f b).fab = s.fab := rfl
@[simp] theorem State.wrB_tsc (f : Fld) (b : Bool) : (s.wrB f b).tsc = s.tsc := rfl
@[simp] theorem State.wrB_hif (f : Fld) (b : Bool) : (s.wrB f b).hif = s.hif := rfl
@[simp] theorem State.wrB_jrn (f : Fld) (b : Bool) : (s.wrB f b).jrn = s.jrn := rfl
@[simp] theorem State.wrB_pmc (f : Fld) (b : Bool) : (s.wrB f b).pmc = s.pmc := rfl
@[simp] theorem State.wrB_glb (f : Fld) (b : Bool) : (s.wrB f b).glb = s.glb := rfl
@[simp] theorem State.wrB_ref (f : Fld) (b : Bool) : (s.wrB f b).ref = s.ref := rfl
@[simp] theorem State.wrB_dsc (f : Fld) (b : Bool) : (s.wrB f b).dsc = s.dsc := rfl
@[simp] theorem State.wrB_grt (f : Fld) (b : Bool) : (s.wrB f b).grt = s.grt := rfl
@[simp] theorem State.wrB_cko (f : Fld) (b : Bool) : (s.wrB f b).cko = s.cko := rfl
@[simp] theorem State.wrB_gna (f : Fld) (b : Bool) : (s.wrB f b).gna = s.gna := rfl
@[simp] theorem State.wrB_gnc (f : Fld) (b : Bool) : (s.wrB f b).gnc = s.gnc := rfl
@[simp] theorem State.wrB_prt (f : Fld) (b : Bool) : (s.wrB f b).prt = s.prt := rfl
@[simp] theorem State.wrB_rsp (f : Fld) (b : Bool) : (s.wrB f b).rsp = s.rsp := rfl
@[simp] theorem State.wrB_ptp (f : Fld) (b : Bool) : (s.wrB f b).ptp = s.ptp := rfl
@[simp] theorem State.wrB_nts (f : Fld) (b : Bool) : (s.wrB f b).nts = s.nts := rfl
@[simp] theorem State.wrB_evt (f : Fld) (b : Bool) : (s.wrB f b).evt = s.evt := rfl
@[simp] theorem State.wrB_vid (f : Fld) (b : Bool) : (s.wrB f b).vid = s.vid := rfl
@[simp] theorem State.wrB_tdc (f : Fld) (b : Bool) : (s.wrB f b).tdc = s.tdc := rfl
@[simp] theorem State.wrB_seq (f : Fld) (b : Bool) : (s.wrB f b).seq = s.seq := rfl
@[simp] theorem State.wrB_key (f : Fld) (b : Bool) : (s.wrB f b).key = s.key := rfl
@[simp] theorem State.wrB_pke (f : Fld) (b : Bool) : (s.wrB f b).pke = s.pke := rfl
@[simp] theorem State.wrB_fls (f : Fld) (b : Bool) : (s.wrB f b).fls = s.fls := rfl
@[simp] theorem State.wrB_pwr (f : Fld) (b : Bool) : (s.wrB f b).pwr = s.pwr := rfl
@[simp] theorem State.wrB_bst (f : Fld) (b : Bool) : (s.wrB f b).bst = s.bst := rfl
@[simp] theorem State.wrB_twn (f : Fld) (b : Bool) : (s.wrB f b).twn = s.twn := rfl

/-! ### A signed field written -/

@[simp] theorem State.wrI_pending (f : Fld) (i : Int) : (s.wrI f i).pending = s.pending := rfl
@[simp] theorem State.wrI_variant (f : Fld) (i : Int) : (s.wrI f i).variant = s.variant := rfl
@[simp] theorem State.wrI_freeCtr (f : Fld) (i : Int) : (s.wrI f i).freeCtr = s.freeCtr := rfl
@[simp] theorem State.wrI_raw (f : Fld) (i : Int) : (s.wrI f i).raw = s.raw := rfl
@[simp] theorem State.wrI_rawRun (f : Fld) (i : Int) : (s.wrI f i).rawRun = s.rawRun := rfl
@[simp] theorem State.wrI_shadow (f : Fld) (i : Int) : (s.wrI f i).shadow = s.shadow := rfl
@[simp] theorem State.wrI_latch (f : Fld) (i : Int) : (s.wrI f i).latch = s.latch := rfl
@[simp] theorem State.wrI_held (f : Fld) (i : Int) : (s.wrI f i).held = s.held := rfl
@[simp] theorem State.wrI_mem (f : Fld) (i : Int) : (s.wrI f i).mem = s.mem := rfl
@[simp] theorem State.wrI_fab (f : Fld) (i : Int) : (s.wrI f i).fab = s.fab := rfl
@[simp] theorem State.wrI_tsc (f : Fld) (i : Int) : (s.wrI f i).tsc = s.tsc := rfl
@[simp] theorem State.wrI_hif (f : Fld) (i : Int) : (s.wrI f i).hif = s.hif := rfl
@[simp] theorem State.wrI_jrn (f : Fld) (i : Int) : (s.wrI f i).jrn = s.jrn := rfl
@[simp] theorem State.wrI_pmc (f : Fld) (i : Int) : (s.wrI f i).pmc = s.pmc := rfl
@[simp] theorem State.wrI_glb (f : Fld) (i : Int) : (s.wrI f i).glb = s.glb := rfl
@[simp] theorem State.wrI_ref (f : Fld) (i : Int) : (s.wrI f i).ref = s.ref := rfl
@[simp] theorem State.wrI_dsc (f : Fld) (i : Int) : (s.wrI f i).dsc = s.dsc := rfl
@[simp] theorem State.wrI_grt (f : Fld) (i : Int) : (s.wrI f i).grt = s.grt := rfl
@[simp] theorem State.wrI_cko (f : Fld) (i : Int) : (s.wrI f i).cko = s.cko := rfl
@[simp] theorem State.wrI_gna (f : Fld) (i : Int) : (s.wrI f i).gna = s.gna := rfl
@[simp] theorem State.wrI_gnc (f : Fld) (i : Int) : (s.wrI f i).gnc = s.gnc := rfl
@[simp] theorem State.wrI_prt (f : Fld) (i : Int) : (s.wrI f i).prt = s.prt := rfl
@[simp] theorem State.wrI_rsp (f : Fld) (i : Int) : (s.wrI f i).rsp = s.rsp := rfl
@[simp] theorem State.wrI_ptp (f : Fld) (i : Int) : (s.wrI f i).ptp = s.ptp := rfl
@[simp] theorem State.wrI_nts (f : Fld) (i : Int) : (s.wrI f i).nts = s.nts := rfl
@[simp] theorem State.wrI_evt (f : Fld) (i : Int) : (s.wrI f i).evt = s.evt := rfl
@[simp] theorem State.wrI_vid (f : Fld) (i : Int) : (s.wrI f i).vid = s.vid := rfl
@[simp] theorem State.wrI_tdc (f : Fld) (i : Int) : (s.wrI f i).tdc = s.tdc := rfl
@[simp] theorem State.wrI_seq (f : Fld) (i : Int) : (s.wrI f i).seq = s.seq := rfl
@[simp] theorem State.wrI_key (f : Fld) (i : Int) : (s.wrI f i).key = s.key := rfl
@[simp] theorem State.wrI_pke (f : Fld) (i : Int) : (s.wrI f i).pke = s.pke := rfl
@[simp] theorem State.wrI_fls (f : Fld) (i : Int) : (s.wrI f i).fls = s.fls := rfl
@[simp] theorem State.wrI_pwr (f : Fld) (i : Int) : (s.wrI f i).pwr = s.pwr := rfl
@[simp] theorem State.wrI_bst (f : Fld) (i : Int) : (s.wrI f i).bst = s.bst := rfl
@[simp] theorem State.wrI_twn (f : Fld) (i : Int) : (s.wrI f i).twn = s.twn := rfl

/-! ### A saturating register written -/

@[simp] theorem State.setSat_pending (k : Nat) (i : Int) : (s.setSat k i).pending = s.pending := rfl
@[simp] theorem State.setSat_variant (k : Nat) (i : Int) : (s.setSat k i).variant = s.variant := rfl
@[simp] theorem State.setSat_freeCtr (k : Nat) (i : Int) : (s.setSat k i).freeCtr = s.freeCtr := rfl
@[simp] theorem State.setSat_raw (k : Nat) (i : Int) : (s.setSat k i).raw = s.raw := rfl
@[simp] theorem State.setSat_rawRun (k : Nat) (i : Int) : (s.setSat k i).rawRun = s.rawRun := rfl
@[simp] theorem State.setSat_shadow (k : Nat) (i : Int) : (s.setSat k i).shadow = s.shadow := rfl
@[simp] theorem State.setSat_latch (k : Nat) (i : Int) : (s.setSat k i).latch = s.latch := rfl
@[simp] theorem State.setSat_held (k : Nat) (i : Int) : (s.setSat k i).held = s.held := rfl
@[simp] theorem State.setSat_mem (k : Nat) (i : Int) : (s.setSat k i).mem = s.mem := rfl
@[simp] theorem State.setSat_fab (k : Nat) (i : Int) : (s.setSat k i).fab = s.fab := rfl
@[simp] theorem State.setSat_tsc (k : Nat) (i : Int) : (s.setSat k i).tsc = s.tsc := rfl
@[simp] theorem State.setSat_hif (k : Nat) (i : Int) : (s.setSat k i).hif = s.hif := rfl
@[simp] theorem State.setSat_jrn (k : Nat) (i : Int) : (s.setSat k i).jrn = s.jrn := rfl
@[simp] theorem State.setSat_pmc (k : Nat) (i : Int) : (s.setSat k i).pmc = s.pmc := rfl
@[simp] theorem State.setSat_glb (k : Nat) (i : Int) : (s.setSat k i).glb = s.glb := rfl
@[simp] theorem State.setSat_ref (k : Nat) (i : Int) : (s.setSat k i).ref = s.ref := rfl
@[simp] theorem State.setSat_dsc (k : Nat) (i : Int) : (s.setSat k i).dsc = s.dsc := rfl
@[simp] theorem State.setSat_grt (k : Nat) (i : Int) : (s.setSat k i).grt = s.grt := rfl
@[simp] theorem State.setSat_cko (k : Nat) (i : Int) : (s.setSat k i).cko = s.cko := rfl
@[simp] theorem State.setSat_gna (k : Nat) (i : Int) : (s.setSat k i).gna = s.gna := rfl
@[simp] theorem State.setSat_gnc (k : Nat) (i : Int) : (s.setSat k i).gnc = s.gnc := rfl
@[simp] theorem State.setSat_prt (k : Nat) (i : Int) : (s.setSat k i).prt = s.prt := rfl
@[simp] theorem State.setSat_rsp (k : Nat) (i : Int) : (s.setSat k i).rsp = s.rsp := rfl
@[simp] theorem State.setSat_ptp (k : Nat) (i : Int) : (s.setSat k i).ptp = s.ptp := rfl
@[simp] theorem State.setSat_nts (k : Nat) (i : Int) : (s.setSat k i).nts = s.nts := rfl
@[simp] theorem State.setSat_evt (k : Nat) (i : Int) : (s.setSat k i).evt = s.evt := rfl
@[simp] theorem State.setSat_vid (k : Nat) (i : Int) : (s.setSat k i).vid = s.vid := rfl
@[simp] theorem State.setSat_tdc (k : Nat) (i : Int) : (s.setSat k i).tdc = s.tdc := rfl
@[simp] theorem State.setSat_seq (k : Nat) (i : Int) : (s.setSat k i).seq = s.seq := rfl
@[simp] theorem State.setSat_key (k : Nat) (i : Int) : (s.setSat k i).key = s.key := rfl
@[simp] theorem State.setSat_pke (k : Nat) (i : Int) : (s.setSat k i).pke = s.pke := rfl
@[simp] theorem State.setSat_fls (k : Nat) (i : Int) : (s.setSat k i).fls = s.fls := rfl
@[simp] theorem State.setSat_pwr (k : Nat) (i : Int) : (s.setSat k i).pwr = s.pwr := rfl
@[simp] theorem State.setSat_bst (k : Nat) (i : Int) : (s.setSat k i).bst = s.bst := rfl
@[simp] theorem State.setSat_twn (k : Nat) (i : Int) : (s.setSat k i).twn = s.twn := rfl

/-! ### A counter register advanced -/

@[simp] theorem State.bump_pending (k n : Nat) : (s.bump k n).pending = s.pending := rfl
@[simp] theorem State.bump_variant (k n : Nat) : (s.bump k n).variant = s.variant := rfl
@[simp] theorem State.bump_freeCtr (k n : Nat) : (s.bump k n).freeCtr = s.freeCtr := rfl
@[simp] theorem State.bump_raw (k n : Nat) : (s.bump k n).raw = s.raw := rfl
@[simp] theorem State.bump_rawRun (k n : Nat) : (s.bump k n).rawRun = s.rawRun := rfl
@[simp] theorem State.bump_shadow (k n : Nat) : (s.bump k n).shadow = s.shadow := rfl
@[simp] theorem State.bump_latch (k n : Nat) : (s.bump k n).latch = s.latch := rfl
@[simp] theorem State.bump_held (k n : Nat) : (s.bump k n).held = s.held := rfl
@[simp] theorem State.bump_mem (k n : Nat) : (s.bump k n).mem = s.mem := rfl
@[simp] theorem State.bump_fab (k n : Nat) : (s.bump k n).fab = s.fab := rfl
@[simp] theorem State.bump_tsc (k n : Nat) : (s.bump k n).tsc = s.tsc := rfl
@[simp] theorem State.bump_hif (k n : Nat) : (s.bump k n).hif = s.hif := rfl
@[simp] theorem State.bump_jrn (k n : Nat) : (s.bump k n).jrn = s.jrn := rfl
@[simp] theorem State.bump_pmc (k n : Nat) : (s.bump k n).pmc = s.pmc := rfl
@[simp] theorem State.bump_glb (k n : Nat) : (s.bump k n).glb = s.glb := rfl
@[simp] theorem State.bump_ref (k n : Nat) : (s.bump k n).ref = s.ref := rfl
@[simp] theorem State.bump_dsc (k n : Nat) : (s.bump k n).dsc = s.dsc := rfl
@[simp] theorem State.bump_grt (k n : Nat) : (s.bump k n).grt = s.grt := rfl
@[simp] theorem State.bump_cko (k n : Nat) : (s.bump k n).cko = s.cko := rfl
@[simp] theorem State.bump_gna (k n : Nat) : (s.bump k n).gna = s.gna := rfl
@[simp] theorem State.bump_gnc (k n : Nat) : (s.bump k n).gnc = s.gnc := rfl
@[simp] theorem State.bump_prt (k n : Nat) : (s.bump k n).prt = s.prt := rfl
@[simp] theorem State.bump_rsp (k n : Nat) : (s.bump k n).rsp = s.rsp := rfl
@[simp] theorem State.bump_ptp (k n : Nat) : (s.bump k n).ptp = s.ptp := rfl
@[simp] theorem State.bump_nts (k n : Nat) : (s.bump k n).nts = s.nts := rfl
@[simp] theorem State.bump_evt (k n : Nat) : (s.bump k n).evt = s.evt := rfl
@[simp] theorem State.bump_vid (k n : Nat) : (s.bump k n).vid = s.vid := rfl
@[simp] theorem State.bump_tdc (k n : Nat) : (s.bump k n).tdc = s.tdc := rfl
@[simp] theorem State.bump_seq (k n : Nat) : (s.bump k n).seq = s.seq := rfl
@[simp] theorem State.bump_key (k n : Nat) : (s.bump k n).key = s.key := rfl
@[simp] theorem State.bump_pke (k n : Nat) : (s.bump k n).pke = s.pke := rfl
@[simp] theorem State.bump_fls (k n : Nat) : (s.bump k n).fls = s.fls := rfl
@[simp] theorem State.bump_pwr (k n : Nat) : (s.bump k n).pwr = s.pwr := rfl
@[simp] theorem State.bump_bst (k n : Nat) : (s.bump k n).bst = s.bst := rfl
@[simp] theorem State.bump_twn (k n : Nat) : (s.bump k n).twn = s.twn := rfl

/-! ### A counter field advanced -/

@[simp] theorem State.bumpF_pending (f : Fld) (n : Nat) : (s.bumpF f n).pending = s.pending := rfl
@[simp] theorem State.bumpF_variant (f : Fld) (n : Nat) : (s.bumpF f n).variant = s.variant := rfl
@[simp] theorem State.bumpF_freeCtr (f : Fld) (n : Nat) : (s.bumpF f n).freeCtr = s.freeCtr := rfl
@[simp] theorem State.bumpF_raw (f : Fld) (n : Nat) : (s.bumpF f n).raw = s.raw := rfl
@[simp] theorem State.bumpF_rawRun (f : Fld) (n : Nat) : (s.bumpF f n).rawRun = s.rawRun := rfl
@[simp] theorem State.bumpF_shadow (f : Fld) (n : Nat) : (s.bumpF f n).shadow = s.shadow := rfl
@[simp] theorem State.bumpF_latch (f : Fld) (n : Nat) : (s.bumpF f n).latch = s.latch := rfl
@[simp] theorem State.bumpF_held (f : Fld) (n : Nat) : (s.bumpF f n).held = s.held := rfl
@[simp] theorem State.bumpF_mem (f : Fld) (n : Nat) : (s.bumpF f n).mem = s.mem := rfl
@[simp] theorem State.bumpF_fab (f : Fld) (n : Nat) : (s.bumpF f n).fab = s.fab := rfl
@[simp] theorem State.bumpF_tsc (f : Fld) (n : Nat) : (s.bumpF f n).tsc = s.tsc := rfl
@[simp] theorem State.bumpF_hif (f : Fld) (n : Nat) : (s.bumpF f n).hif = s.hif := rfl
@[simp] theorem State.bumpF_jrn (f : Fld) (n : Nat) : (s.bumpF f n).jrn = s.jrn := rfl
@[simp] theorem State.bumpF_pmc (f : Fld) (n : Nat) : (s.bumpF f n).pmc = s.pmc := rfl
@[simp] theorem State.bumpF_glb (f : Fld) (n : Nat) : (s.bumpF f n).glb = s.glb := rfl
@[simp] theorem State.bumpF_ref (f : Fld) (n : Nat) : (s.bumpF f n).ref = s.ref := rfl
@[simp] theorem State.bumpF_dsc (f : Fld) (n : Nat) : (s.bumpF f n).dsc = s.dsc := rfl
@[simp] theorem State.bumpF_grt (f : Fld) (n : Nat) : (s.bumpF f n).grt = s.grt := rfl
@[simp] theorem State.bumpF_cko (f : Fld) (n : Nat) : (s.bumpF f n).cko = s.cko := rfl
@[simp] theorem State.bumpF_gna (f : Fld) (n : Nat) : (s.bumpF f n).gna = s.gna := rfl
@[simp] theorem State.bumpF_gnc (f : Fld) (n : Nat) : (s.bumpF f n).gnc = s.gnc := rfl
@[simp] theorem State.bumpF_prt (f : Fld) (n : Nat) : (s.bumpF f n).prt = s.prt := rfl
@[simp] theorem State.bumpF_rsp (f : Fld) (n : Nat) : (s.bumpF f n).rsp = s.rsp := rfl
@[simp] theorem State.bumpF_ptp (f : Fld) (n : Nat) : (s.bumpF f n).ptp = s.ptp := rfl
@[simp] theorem State.bumpF_nts (f : Fld) (n : Nat) : (s.bumpF f n).nts = s.nts := rfl
@[simp] theorem State.bumpF_evt (f : Fld) (n : Nat) : (s.bumpF f n).evt = s.evt := rfl
@[simp] theorem State.bumpF_vid (f : Fld) (n : Nat) : (s.bumpF f n).vid = s.vid := rfl
@[simp] theorem State.bumpF_tdc (f : Fld) (n : Nat) : (s.bumpF f n).tdc = s.tdc := rfl
@[simp] theorem State.bumpF_seq (f : Fld) (n : Nat) : (s.bumpF f n).seq = s.seq := rfl
@[simp] theorem State.bumpF_key (f : Fld) (n : Nat) : (s.bumpF f n).key = s.key := rfl
@[simp] theorem State.bumpF_pke (f : Fld) (n : Nat) : (s.bumpF f n).pke = s.pke := rfl
@[simp] theorem State.bumpF_fls (f : Fld) (n : Nat) : (s.bumpF f n).fls = s.fls := rfl
@[simp] theorem State.bumpF_pwr (f : Fld) (n : Nat) : (s.bumpF f n).pwr = s.pwr := rfl
@[simp] theorem State.bumpF_bst (f : Fld) (n : Nat) : (s.bumpF f n).bst = s.bst := rfl
@[simp] theorem State.bumpF_twn (f : Fld) (n : Nat) : (s.bumpF f n).twn = s.twn := rfl

/-! ### A shadow written -/

@[simp] theorem State.setShadow_pending (k v : Nat) : (s.setShadow k v).pending = s.pending := rfl
@[simp] theorem State.setShadow_variant (k v : Nat) : (s.setShadow k v).variant = s.variant := rfl
@[simp] theorem State.setShadow_freeCtr (k v : Nat) : (s.setShadow k v).freeCtr = s.freeCtr := rfl
@[simp] theorem State.setShadow_raw (k v : Nat) : (s.setShadow k v).raw = s.raw := rfl
@[simp] theorem State.setShadow_rawRun (k v : Nat) : (s.setShadow k v).rawRun = s.rawRun := rfl
@[simp] theorem State.setShadow_regs (k v : Nat) : (s.setShadow k v).regs = s.regs := rfl
@[simp] theorem State.setShadow_latch (k v : Nat) : (s.setShadow k v).latch = s.latch := rfl
@[simp] theorem State.setShadow_held (k v : Nat) : (s.setShadow k v).held = s.held := rfl
@[simp] theorem State.setShadow_mem (k v : Nat) : (s.setShadow k v).mem = s.mem := rfl
@[simp] theorem State.setShadow_fab (k v : Nat) : (s.setShadow k v).fab = s.fab := rfl
@[simp] theorem State.setShadow_tsc (k v : Nat) : (s.setShadow k v).tsc = s.tsc := rfl
@[simp] theorem State.setShadow_hif (k v : Nat) : (s.setShadow k v).hif = s.hif := rfl
@[simp] theorem State.setShadow_jrn (k v : Nat) : (s.setShadow k v).jrn = s.jrn := rfl
@[simp] theorem State.setShadow_pmc (k v : Nat) : (s.setShadow k v).pmc = s.pmc := rfl
@[simp] theorem State.setShadow_glb (k v : Nat) : (s.setShadow k v).glb = s.glb := rfl
@[simp] theorem State.setShadow_ref (k v : Nat) : (s.setShadow k v).ref = s.ref := rfl
@[simp] theorem State.setShadow_dsc (k v : Nat) : (s.setShadow k v).dsc = s.dsc := rfl
@[simp] theorem State.setShadow_grt (k v : Nat) : (s.setShadow k v).grt = s.grt := rfl
@[simp] theorem State.setShadow_cko (k v : Nat) : (s.setShadow k v).cko = s.cko := rfl
@[simp] theorem State.setShadow_gna (k v : Nat) : (s.setShadow k v).gna = s.gna := rfl
@[simp] theorem State.setShadow_gnc (k v : Nat) : (s.setShadow k v).gnc = s.gnc := rfl
@[simp] theorem State.setShadow_prt (k v : Nat) : (s.setShadow k v).prt = s.prt := rfl
@[simp] theorem State.setShadow_rsp (k v : Nat) : (s.setShadow k v).rsp = s.rsp := rfl
@[simp] theorem State.setShadow_ptp (k v : Nat) : (s.setShadow k v).ptp = s.ptp := rfl
@[simp] theorem State.setShadow_nts (k v : Nat) : (s.setShadow k v).nts = s.nts := rfl
@[simp] theorem State.setShadow_evt (k v : Nat) : (s.setShadow k v).evt = s.evt := rfl
@[simp] theorem State.setShadow_vid (k v : Nat) : (s.setShadow k v).vid = s.vid := rfl
@[simp] theorem State.setShadow_tdc (k v : Nat) : (s.setShadow k v).tdc = s.tdc := rfl
@[simp] theorem State.setShadow_seq (k v : Nat) : (s.setShadow k v).seq = s.seq := rfl
@[simp] theorem State.setShadow_key (k v : Nat) : (s.setShadow k v).key = s.key := rfl
@[simp] theorem State.setShadow_pke (k v : Nat) : (s.setShadow k v).pke = s.pke := rfl
@[simp] theorem State.setShadow_fls (k v : Nat) : (s.setShadow k v).fls = s.fls := rfl
@[simp] theorem State.setShadow_pwr (k v : Nat) : (s.setShadow k v).pwr = s.pwr := rfl
@[simp] theorem State.setShadow_bst (k v : Nat) : (s.setShadow k v).bst = s.bst := rfl
@[simp] theorem State.setShadow_twn (k v : Nat) : (s.setShadow k v).twn = s.twn := rfl

/-! ### A timescale replaced -/

@[simp] theorem State.setTs_pending (n : Nat) (t : Ts) : (s.setTs n t).pending = s.pending := rfl
@[simp] theorem State.setTs_variant (n : Nat) (t : Ts) : (s.setTs n t).variant = s.variant := rfl
@[simp] theorem State.setTs_freeCtr (n : Nat) (t : Ts) : (s.setTs n t).freeCtr = s.freeCtr := rfl
@[simp] theorem State.setTs_raw (n : Nat) (t : Ts) : (s.setTs n t).raw = s.raw := rfl
@[simp] theorem State.setTs_rawRun (n : Nat) (t : Ts) : (s.setTs n t).rawRun = s.rawRun := rfl
@[simp] theorem State.setTs_regs (n : Nat) (t : Ts) : (s.setTs n t).regs = s.regs := rfl
@[simp] theorem State.setTs_shadow (n : Nat) (t : Ts) : (s.setTs n t).shadow = s.shadow := rfl
@[simp] theorem State.setTs_latch (n : Nat) (t : Ts) : (s.setTs n t).latch = s.latch := rfl
@[simp] theorem State.setTs_held (n : Nat) (t : Ts) : (s.setTs n t).held = s.held := rfl
@[simp] theorem State.setTs_mem (n : Nat) (t : Ts) : (s.setTs n t).mem = s.mem := rfl
@[simp] theorem State.setTs_fab (n : Nat) (t : Ts) : (s.setTs n t).fab = s.fab := rfl
@[simp] theorem State.setTs_hif (n : Nat) (t : Ts) : (s.setTs n t).hif = s.hif := rfl
@[simp] theorem State.setTs_jrn (n : Nat) (t : Ts) : (s.setTs n t).jrn = s.jrn := rfl
@[simp] theorem State.setTs_pmc (n : Nat) (t : Ts) : (s.setTs n t).pmc = s.pmc := rfl
@[simp] theorem State.setTs_glb (n : Nat) (t : Ts) : (s.setTs n t).glb = s.glb := rfl
@[simp] theorem State.setTs_ref (n : Nat) (t : Ts) : (s.setTs n t).ref = s.ref := rfl
@[simp] theorem State.setTs_dsc (n : Nat) (t : Ts) : (s.setTs n t).dsc = s.dsc := rfl
@[simp] theorem State.setTs_grt (n : Nat) (t : Ts) : (s.setTs n t).grt = s.grt := rfl
@[simp] theorem State.setTs_cko (n : Nat) (t : Ts) : (s.setTs n t).cko = s.cko := rfl
@[simp] theorem State.setTs_gna (n : Nat) (t : Ts) : (s.setTs n t).gna = s.gna := rfl
@[simp] theorem State.setTs_gnc (n : Nat) (t : Ts) : (s.setTs n t).gnc = s.gnc := rfl
@[simp] theorem State.setTs_prt (n : Nat) (t : Ts) : (s.setTs n t).prt = s.prt := rfl
@[simp] theorem State.setTs_rsp (n : Nat) (t : Ts) : (s.setTs n t).rsp = s.rsp := rfl
@[simp] theorem State.setTs_ptp (n : Nat) (t : Ts) : (s.setTs n t).ptp = s.ptp := rfl
@[simp] theorem State.setTs_nts (n : Nat) (t : Ts) : (s.setTs n t).nts = s.nts := rfl
@[simp] theorem State.setTs_evt (n : Nat) (t : Ts) : (s.setTs n t).evt = s.evt := rfl
@[simp] theorem State.setTs_vid (n : Nat) (t : Ts) : (s.setTs n t).vid = s.vid := rfl
@[simp] theorem State.setTs_tdc (n : Nat) (t : Ts) : (s.setTs n t).tdc = s.tdc := rfl
@[simp] theorem State.setTs_seq (n : Nat) (t : Ts) : (s.setTs n t).seq = s.seq := rfl
@[simp] theorem State.setTs_key (n : Nat) (t : Ts) : (s.setTs n t).key = s.key := rfl
@[simp] theorem State.setTs_pke (n : Nat) (t : Ts) : (s.setTs n t).pke = s.pke := rfl
@[simp] theorem State.setTs_fls (n : Nat) (t : Ts) : (s.setTs n t).fls = s.fls := rfl
@[simp] theorem State.setTs_pwr (n : Nat) (t : Ts) : (s.setTs n t).pwr = s.pwr := rfl
@[simp] theorem State.setTs_bst (n : Nat) (t : Ts) : (s.setTs n t).bst = s.bst := rfl
@[simp] theorem State.setTs_twn (n : Nat) (t : Ts) : (s.setTs n t).twn = s.twn := rfl

/-! ### The part of TSC changed -/

@[simp] theorem State.setTsc_pending (f : TscS → TscS) : (s.setTsc f).pending = s.pending := rfl
@[simp] theorem State.setTsc_variant (f : TscS → TscS) : (s.setTsc f).variant = s.variant := rfl
@[simp] theorem State.setTsc_freeCtr (f : TscS → TscS) : (s.setTsc f).freeCtr = s.freeCtr := rfl
@[simp] theorem State.setTsc_raw (f : TscS → TscS) : (s.setTsc f).raw = s.raw := rfl
@[simp] theorem State.setTsc_rawRun (f : TscS → TscS) : (s.setTsc f).rawRun = s.rawRun := rfl
@[simp] theorem State.setTsc_regs (f : TscS → TscS) : (s.setTsc f).regs = s.regs := rfl
@[simp] theorem State.setTsc_shadow (f : TscS → TscS) : (s.setTsc f).shadow = s.shadow := rfl
@[simp] theorem State.setTsc_latch (f : TscS → TscS) : (s.setTsc f).latch = s.latch := rfl
@[simp] theorem State.setTsc_held (f : TscS → TscS) : (s.setTsc f).held = s.held := rfl
@[simp] theorem State.setTsc_mem (f : TscS → TscS) : (s.setTsc f).mem = s.mem := rfl
@[simp] theorem State.setTsc_fab (f : TscS → TscS) : (s.setTsc f).fab = s.fab := rfl
@[simp] theorem State.setTsc_hif (f : TscS → TscS) : (s.setTsc f).hif = s.hif := rfl
@[simp] theorem State.setTsc_jrn (f : TscS → TscS) : (s.setTsc f).jrn = s.jrn := rfl
@[simp] theorem State.setTsc_pmc (f : TscS → TscS) : (s.setTsc f).pmc = s.pmc := rfl
@[simp] theorem State.setTsc_glb (f : TscS → TscS) : (s.setTsc f).glb = s.glb := rfl
@[simp] theorem State.setTsc_ref (f : TscS → TscS) : (s.setTsc f).ref = s.ref := rfl
@[simp] theorem State.setTsc_dsc (f : TscS → TscS) : (s.setTsc f).dsc = s.dsc := rfl
@[simp] theorem State.setTsc_grt (f : TscS → TscS) : (s.setTsc f).grt = s.grt := rfl
@[simp] theorem State.setTsc_cko (f : TscS → TscS) : (s.setTsc f).cko = s.cko := rfl
@[simp] theorem State.setTsc_gna (f : TscS → TscS) : (s.setTsc f).gna = s.gna := rfl
@[simp] theorem State.setTsc_gnc (f : TscS → TscS) : (s.setTsc f).gnc = s.gnc := rfl
@[simp] theorem State.setTsc_prt (f : TscS → TscS) : (s.setTsc f).prt = s.prt := rfl
@[simp] theorem State.setTsc_rsp (f : TscS → TscS) : (s.setTsc f).rsp = s.rsp := rfl
@[simp] theorem State.setTsc_ptp (f : TscS → TscS) : (s.setTsc f).ptp = s.ptp := rfl
@[simp] theorem State.setTsc_nts (f : TscS → TscS) : (s.setTsc f).nts = s.nts := rfl
@[simp] theorem State.setTsc_evt (f : TscS → TscS) : (s.setTsc f).evt = s.evt := rfl
@[simp] theorem State.setTsc_vid (f : TscS → TscS) : (s.setTsc f).vid = s.vid := rfl
@[simp] theorem State.setTsc_tdc (f : TscS → TscS) : (s.setTsc f).tdc = s.tdc := rfl
@[simp] theorem State.setTsc_seq (f : TscS → TscS) : (s.setTsc f).seq = s.seq := rfl
@[simp] theorem State.setTsc_key (f : TscS → TscS) : (s.setTsc f).key = s.key := rfl
@[simp] theorem State.setTsc_pke (f : TscS → TscS) : (s.setTsc f).pke = s.pke := rfl
@[simp] theorem State.setTsc_fls (f : TscS → TscS) : (s.setTsc f).fls = s.fls := rfl
@[simp] theorem State.setTsc_pwr (f : TscS → TscS) : (s.setTsc f).pwr = s.pwr := rfl
@[simp] theorem State.setTsc_bst (f : TscS → TscS) : (s.setTsc f).bst = s.bst := rfl
@[simp] theorem State.setTsc_twn (f : TscS → TscS) : (s.setTsc f).twn = s.twn := rfl

/-! ### The part of FAB changed -/

@[simp] theorem State.setFab_pending (f : FabS → FabS) : (s.setFab f).pending = s.pending := rfl
@[simp] theorem State.setFab_variant (f : FabS → FabS) : (s.setFab f).variant = s.variant := rfl
@[simp] theorem State.setFab_freeCtr (f : FabS → FabS) : (s.setFab f).freeCtr = s.freeCtr := rfl
@[simp] theorem State.setFab_raw (f : FabS → FabS) : (s.setFab f).raw = s.raw := rfl
@[simp] theorem State.setFab_rawRun (f : FabS → FabS) : (s.setFab f).rawRun = s.rawRun := rfl
@[simp] theorem State.setFab_regs (f : FabS → FabS) : (s.setFab f).regs = s.regs := rfl
@[simp] theorem State.setFab_shadow (f : FabS → FabS) : (s.setFab f).shadow = s.shadow := rfl
@[simp] theorem State.setFab_latch (f : FabS → FabS) : (s.setFab f).latch = s.latch := rfl
@[simp] theorem State.setFab_held (f : FabS → FabS) : (s.setFab f).held = s.held := rfl
@[simp] theorem State.setFab_mem (f : FabS → FabS) : (s.setFab f).mem = s.mem := rfl
@[simp] theorem State.setFab_tsc (f : FabS → FabS) : (s.setFab f).tsc = s.tsc := rfl
@[simp] theorem State.setFab_hif (f : FabS → FabS) : (s.setFab f).hif = s.hif := rfl
@[simp] theorem State.setFab_jrn (f : FabS → FabS) : (s.setFab f).jrn = s.jrn := rfl
@[simp] theorem State.setFab_pmc (f : FabS → FabS) : (s.setFab f).pmc = s.pmc := rfl
@[simp] theorem State.setFab_glb (f : FabS → FabS) : (s.setFab f).glb = s.glb := rfl
@[simp] theorem State.setFab_ref (f : FabS → FabS) : (s.setFab f).ref = s.ref := rfl
@[simp] theorem State.setFab_dsc (f : FabS → FabS) : (s.setFab f).dsc = s.dsc := rfl
@[simp] theorem State.setFab_grt (f : FabS → FabS) : (s.setFab f).grt = s.grt := rfl
@[simp] theorem State.setFab_cko (f : FabS → FabS) : (s.setFab f).cko = s.cko := rfl
@[simp] theorem State.setFab_gna (f : FabS → FabS) : (s.setFab f).gna = s.gna := rfl
@[simp] theorem State.setFab_gnc (f : FabS → FabS) : (s.setFab f).gnc = s.gnc := rfl
@[simp] theorem State.setFab_prt (f : FabS → FabS) : (s.setFab f).prt = s.prt := rfl
@[simp] theorem State.setFab_rsp (f : FabS → FabS) : (s.setFab f).rsp = s.rsp := rfl
@[simp] theorem State.setFab_ptp (f : FabS → FabS) : (s.setFab f).ptp = s.ptp := rfl
@[simp] theorem State.setFab_nts (f : FabS → FabS) : (s.setFab f).nts = s.nts := rfl
@[simp] theorem State.setFab_evt (f : FabS → FabS) : (s.setFab f).evt = s.evt := rfl
@[simp] theorem State.setFab_vid (f : FabS → FabS) : (s.setFab f).vid = s.vid := rfl
@[simp] theorem State.setFab_tdc (f : FabS → FabS) : (s.setFab f).tdc = s.tdc := rfl
@[simp] theorem State.setFab_seq (f : FabS → FabS) : (s.setFab f).seq = s.seq := rfl
@[simp] theorem State.setFab_key (f : FabS → FabS) : (s.setFab f).key = s.key := rfl
@[simp] theorem State.setFab_pke (f : FabS → FabS) : (s.setFab f).pke = s.pke := rfl
@[simp] theorem State.setFab_fls (f : FabS → FabS) : (s.setFab f).fls = s.fls := rfl
@[simp] theorem State.setFab_pwr (f : FabS → FabS) : (s.setFab f).pwr = s.pwr := rfl
@[simp] theorem State.setFab_bst (f : FabS → FabS) : (s.setFab f).bst = s.bst := rfl
@[simp] theorem State.setFab_twn (f : FabS → FabS) : (s.setFab f).twn = s.twn := rfl

/-! ### A ledger instance replaced -/

@[simp] theorem State.lset_pending (k : Tok) (i : Nat) (l : LInst) : (s.lset k i l).pending = s.pending := rfl
@[simp] theorem State.lset_variant (k : Tok) (i : Nat) (l : LInst) : (s.lset k i l).variant = s.variant := rfl
@[simp] theorem State.lset_freeCtr (k : Tok) (i : Nat) (l : LInst) : (s.lset k i l).freeCtr = s.freeCtr := rfl
@[simp] theorem State.lset_raw (k : Tok) (i : Nat) (l : LInst) : (s.lset k i l).raw = s.raw := rfl
@[simp] theorem State.lset_rawRun (k : Tok) (i : Nat) (l : LInst) : (s.lset k i l).rawRun = s.rawRun := rfl
@[simp] theorem State.lset_regs (k : Tok) (i : Nat) (l : LInst) : (s.lset k i l).regs = s.regs := rfl
@[simp] theorem State.lset_shadow (k : Tok) (i : Nat) (l : LInst) : (s.lset k i l).shadow = s.shadow := rfl
@[simp] theorem State.lset_latch (k : Tok) (i : Nat) (l : LInst) : (s.lset k i l).latch = s.latch := rfl
@[simp] theorem State.lset_held (k : Tok) (i : Nat) (l : LInst) : (s.lset k i l).held = s.held := rfl
@[simp] theorem State.lset_mem (k : Tok) (i : Nat) (l : LInst) : (s.lset k i l).mem = s.mem := rfl
@[simp] theorem State.lset_tsc (k : Tok) (i : Nat) (l : LInst) : (s.lset k i l).tsc = s.tsc := rfl
@[simp] theorem State.lset_hif (k : Tok) (i : Nat) (l : LInst) : (s.lset k i l).hif = s.hif := rfl
@[simp] theorem State.lset_jrn (k : Tok) (i : Nat) (l : LInst) : (s.lset k i l).jrn = s.jrn := rfl
@[simp] theorem State.lset_pmc (k : Tok) (i : Nat) (l : LInst) : (s.lset k i l).pmc = s.pmc := rfl
@[simp] theorem State.lset_glb (k : Tok) (i : Nat) (l : LInst) : (s.lset k i l).glb = s.glb := rfl
@[simp] theorem State.lset_ref (k : Tok) (i : Nat) (l : LInst) : (s.lset k i l).ref = s.ref := rfl
@[simp] theorem State.lset_dsc (k : Tok) (i : Nat) (l : LInst) : (s.lset k i l).dsc = s.dsc := rfl
@[simp] theorem State.lset_grt (k : Tok) (i : Nat) (l : LInst) : (s.lset k i l).grt = s.grt := rfl
@[simp] theorem State.lset_cko (k : Tok) (i : Nat) (l : LInst) : (s.lset k i l).cko = s.cko := rfl
@[simp] theorem State.lset_gna (k : Tok) (i : Nat) (l : LInst) : (s.lset k i l).gna = s.gna := rfl
@[simp] theorem State.lset_gnc (k : Tok) (i : Nat) (l : LInst) : (s.lset k i l).gnc = s.gnc := rfl
@[simp] theorem State.lset_prt (k : Tok) (i : Nat) (l : LInst) : (s.lset k i l).prt = s.prt := rfl
@[simp] theorem State.lset_rsp (k : Tok) (i : Nat) (l : LInst) : (s.lset k i l).rsp = s.rsp := rfl
@[simp] theorem State.lset_ptp (k : Tok) (i : Nat) (l : LInst) : (s.lset k i l).ptp = s.ptp := rfl
@[simp] theorem State.lset_nts (k : Tok) (i : Nat) (l : LInst) : (s.lset k i l).nts = s.nts := rfl
@[simp] theorem State.lset_evt (k : Tok) (i : Nat) (l : LInst) : (s.lset k i l).evt = s.evt := rfl
@[simp] theorem State.lset_vid (k : Tok) (i : Nat) (l : LInst) : (s.lset k i l).vid = s.vid := rfl
@[simp] theorem State.lset_tdc (k : Tok) (i : Nat) (l : LInst) : (s.lset k i l).tdc = s.tdc := rfl
@[simp] theorem State.lset_seq (k : Tok) (i : Nat) (l : LInst) : (s.lset k i l).seq = s.seq := rfl
@[simp] theorem State.lset_key (k : Tok) (i : Nat) (l : LInst) : (s.lset k i l).key = s.key := rfl
@[simp] theorem State.lset_pke (k : Tok) (i : Nat) (l : LInst) : (s.lset k i l).pke = s.pke := rfl
@[simp] theorem State.lset_fls (k : Tok) (i : Nat) (l : LInst) : (s.lset k i l).fls = s.fls := rfl
@[simp] theorem State.lset_pwr (k : Tok) (i : Nat) (l : LInst) : (s.lset k i l).pwr = s.pwr := rfl
@[simp] theorem State.lset_bst (k : Tok) (i : Nat) (l : LInst) : (s.lset k i l).bst = s.bst := rfl
@[simp] theorem State.lset_twn (k : Tok) (i : Nat) (l : LInst) : (s.lset k i l).twn = s.twn := rfl

/-! ### A ring replaced -/

@[simp] theorem State.setRing_pending (r : Nat) (x : Ring) : (s.setRing r x).pending = s.pending := rfl
@[simp] theorem State.setRing_variant (r : Nat) (x : Ring) : (s.setRing r x).variant = s.variant := rfl
@[simp] theorem State.setRing_freeCtr (r : Nat) (x : Ring) : (s.setRing r x).freeCtr = s.freeCtr := rfl
@[simp] theorem State.setRing_raw (r : Nat) (x : Ring) : (s.setRing r x).raw = s.raw := rfl
@[simp] theorem State.setRing_rawRun (r : Nat) (x : Ring) : (s.setRing r x).rawRun = s.rawRun := rfl
@[simp] theorem State.setRing_regs (r : Nat) (x : Ring) : (s.setRing r x).regs = s.regs := rfl
@[simp] theorem State.setRing_shadow (r : Nat) (x : Ring) : (s.setRing r x).shadow = s.shadow := rfl
@[simp] theorem State.setRing_latch (r : Nat) (x : Ring) : (s.setRing r x).latch = s.latch := rfl
@[simp] theorem State.setRing_held (r : Nat) (x : Ring) : (s.setRing r x).held = s.held := rfl
@[simp] theorem State.setRing_mem (r : Nat) (x : Ring) : (s.setRing r x).mem = s.mem := rfl
@[simp] theorem State.setRing_fab (r : Nat) (x : Ring) : (s.setRing r x).fab = s.fab := rfl
@[simp] theorem State.setRing_tsc (r : Nat) (x : Ring) : (s.setRing r x).tsc = s.tsc := rfl
@[simp] theorem State.setRing_jrn (r : Nat) (x : Ring) : (s.setRing r x).jrn = s.jrn := rfl
@[simp] theorem State.setRing_pmc (r : Nat) (x : Ring) : (s.setRing r x).pmc = s.pmc := rfl
@[simp] theorem State.setRing_glb (r : Nat) (x : Ring) : (s.setRing r x).glb = s.glb := rfl
@[simp] theorem State.setRing_ref (r : Nat) (x : Ring) : (s.setRing r x).ref = s.ref := rfl
@[simp] theorem State.setRing_dsc (r : Nat) (x : Ring) : (s.setRing r x).dsc = s.dsc := rfl
@[simp] theorem State.setRing_grt (r : Nat) (x : Ring) : (s.setRing r x).grt = s.grt := rfl
@[simp] theorem State.setRing_cko (r : Nat) (x : Ring) : (s.setRing r x).cko = s.cko := rfl
@[simp] theorem State.setRing_gna (r : Nat) (x : Ring) : (s.setRing r x).gna = s.gna := rfl
@[simp] theorem State.setRing_gnc (r : Nat) (x : Ring) : (s.setRing r x).gnc = s.gnc := rfl
@[simp] theorem State.setRing_prt (r : Nat) (x : Ring) : (s.setRing r x).prt = s.prt := rfl
@[simp] theorem State.setRing_rsp (r : Nat) (x : Ring) : (s.setRing r x).rsp = s.rsp := rfl
@[simp] theorem State.setRing_ptp (r : Nat) (x : Ring) : (s.setRing r x).ptp = s.ptp := rfl
@[simp] theorem State.setRing_nts (r : Nat) (x : Ring) : (s.setRing r x).nts = s.nts := rfl
@[simp] theorem State.setRing_evt (r : Nat) (x : Ring) : (s.setRing r x).evt = s.evt := rfl
@[simp] theorem State.setRing_vid (r : Nat) (x : Ring) : (s.setRing r x).vid = s.vid := rfl
@[simp] theorem State.setRing_tdc (r : Nat) (x : Ring) : (s.setRing r x).tdc = s.tdc := rfl
@[simp] theorem State.setRing_seq (r : Nat) (x : Ring) : (s.setRing r x).seq = s.seq := rfl
@[simp] theorem State.setRing_key (r : Nat) (x : Ring) : (s.setRing r x).key = s.key := rfl
@[simp] theorem State.setRing_pke (r : Nat) (x : Ring) : (s.setRing r x).pke = s.pke := rfl
@[simp] theorem State.setRing_fls (r : Nat) (x : Ring) : (s.setRing r x).fls = s.fls := rfl
@[simp] theorem State.setRing_pwr (r : Nat) (x : Ring) : (s.setRing r x).pwr = s.pwr := rfl
@[simp] theorem State.setRing_bst (r : Nat) (x : Ring) : (s.setRing r x).bst = s.bst := rfl
@[simp] theorem State.setRing_twn (r : Nat) (x : Ring) : (s.setRing r x).twn = s.twn := rfl

/-! ### A function replaced -/

@[simp] theorem State.setFn_pending (n : Nat) (x : FnSt) : (s.setFn n x).pending = s.pending := rfl
@[simp] theorem State.setFn_variant (n : Nat) (x : FnSt) : (s.setFn n x).variant = s.variant := rfl
@[simp] theorem State.setFn_freeCtr (n : Nat) (x : FnSt) : (s.setFn n x).freeCtr = s.freeCtr := rfl
@[simp] theorem State.setFn_raw (n : Nat) (x : FnSt) : (s.setFn n x).raw = s.raw := rfl
@[simp] theorem State.setFn_rawRun (n : Nat) (x : FnSt) : (s.setFn n x).rawRun = s.rawRun := rfl
@[simp] theorem State.setFn_regs (n : Nat) (x : FnSt) : (s.setFn n x).regs = s.regs := rfl
@[simp] theorem State.setFn_shadow (n : Nat) (x : FnSt) : (s.setFn n x).shadow = s.shadow := rfl
@[simp] theorem State.setFn_latch (n : Nat) (x : FnSt) : (s.setFn n x).latch = s.latch := rfl
@[simp] theorem State.setFn_held (n : Nat) (x : FnSt) : (s.setFn n x).held = s.held := rfl
@[simp] theorem State.setFn_mem (n : Nat) (x : FnSt) : (s.setFn n x).mem = s.mem := rfl
@[simp] theorem State.setFn_fab (n : Nat) (x : FnSt) : (s.setFn n x).fab = s.fab := rfl
@[simp] theorem State.setFn_tsc (n : Nat) (x : FnSt) : (s.setFn n x).tsc = s.tsc := rfl
@[simp] theorem State.setFn_jrn (n : Nat) (x : FnSt) : (s.setFn n x).jrn = s.jrn := rfl
@[simp] theorem State.setFn_pmc (n : Nat) (x : FnSt) : (s.setFn n x).pmc = s.pmc := rfl
@[simp] theorem State.setFn_glb (n : Nat) (x : FnSt) : (s.setFn n x).glb = s.glb := rfl
@[simp] theorem State.setFn_ref (n : Nat) (x : FnSt) : (s.setFn n x).ref = s.ref := rfl
@[simp] theorem State.setFn_dsc (n : Nat) (x : FnSt) : (s.setFn n x).dsc = s.dsc := rfl
@[simp] theorem State.setFn_grt (n : Nat) (x : FnSt) : (s.setFn n x).grt = s.grt := rfl
@[simp] theorem State.setFn_cko (n : Nat) (x : FnSt) : (s.setFn n x).cko = s.cko := rfl
@[simp] theorem State.setFn_gna (n : Nat) (x : FnSt) : (s.setFn n x).gna = s.gna := rfl
@[simp] theorem State.setFn_gnc (n : Nat) (x : FnSt) : (s.setFn n x).gnc = s.gnc := rfl
@[simp] theorem State.setFn_prt (n : Nat) (x : FnSt) : (s.setFn n x).prt = s.prt := rfl
@[simp] theorem State.setFn_rsp (n : Nat) (x : FnSt) : (s.setFn n x).rsp = s.rsp := rfl
@[simp] theorem State.setFn_ptp (n : Nat) (x : FnSt) : (s.setFn n x).ptp = s.ptp := rfl
@[simp] theorem State.setFn_nts (n : Nat) (x : FnSt) : (s.setFn n x).nts = s.nts := rfl
@[simp] theorem State.setFn_evt (n : Nat) (x : FnSt) : (s.setFn n x).evt = s.evt := rfl
@[simp] theorem State.setFn_vid (n : Nat) (x : FnSt) : (s.setFn n x).vid = s.vid := rfl
@[simp] theorem State.setFn_tdc (n : Nat) (x : FnSt) : (s.setFn n x).tdc = s.tdc := rfl
@[simp] theorem State.setFn_seq (n : Nat) (x : FnSt) : (s.setFn n x).seq = s.seq := rfl
@[simp] theorem State.setFn_key (n : Nat) (x : FnSt) : (s.setFn n x).key = s.key := rfl
@[simp] theorem State.setFn_pke (n : Nat) (x : FnSt) : (s.setFn n x).pke = s.pke := rfl
@[simp] theorem State.setFn_fls (n : Nat) (x : FnSt) : (s.setFn n x).fls = s.fls := rfl
@[simp] theorem State.setFn_pwr (n : Nat) (x : FnSt) : (s.setFn n x).pwr = s.pwr := rfl
@[simp] theorem State.setFn_bst (n : Nat) (x : FnSt) : (s.setFn n x).bst = s.bst := rfl
@[simp] theorem State.setFn_twn (n : Nat) (x : FnSt) : (s.setFn n x).twn = s.twn := rfl

/-! ### A sequencer replaced -/

@[simp] theorem State.setSq_pending (n : Nat) (x : Sq) : (s.setSq n x).pending = s.pending := rfl
@[simp] theorem State.setSq_variant (n : Nat) (x : Sq) : (s.setSq n x).variant = s.variant := rfl
@[simp] theorem State.setSq_freeCtr (n : Nat) (x : Sq) : (s.setSq n x).freeCtr = s.freeCtr := rfl
@[simp] theorem State.setSq_raw (n : Nat) (x : Sq) : (s.setSq n x).raw = s.raw := rfl
@[simp] theorem State.setSq_rawRun (n : Nat) (x : Sq) : (s.setSq n x).rawRun = s.rawRun := rfl
@[simp] theorem State.setSq_regs (n : Nat) (x : Sq) : (s.setSq n x).regs = s.regs := rfl
@[simp] theorem State.setSq_shadow (n : Nat) (x : Sq) : (s.setSq n x).shadow = s.shadow := rfl
@[simp] theorem State.setSq_latch (n : Nat) (x : Sq) : (s.setSq n x).latch = s.latch := rfl
@[simp] theorem State.setSq_held (n : Nat) (x : Sq) : (s.setSq n x).held = s.held := rfl
@[simp] theorem State.setSq_mem (n : Nat) (x : Sq) : (s.setSq n x).mem = s.mem := rfl
@[simp] theorem State.setSq_fab (n : Nat) (x : Sq) : (s.setSq n x).fab = s.fab := rfl
@[simp] theorem State.setSq_tsc (n : Nat) (x : Sq) : (s.setSq n x).tsc = s.tsc := rfl
@[simp] theorem State.setSq_hif (n : Nat) (x : Sq) : (s.setSq n x).hif = s.hif := rfl
@[simp] theorem State.setSq_jrn (n : Nat) (x : Sq) : (s.setSq n x).jrn = s.jrn := rfl
@[simp] theorem State.setSq_pmc (n : Nat) (x : Sq) : (s.setSq n x).pmc = s.pmc := rfl
@[simp] theorem State.setSq_glb (n : Nat) (x : Sq) : (s.setSq n x).glb = s.glb := rfl
@[simp] theorem State.setSq_ref (n : Nat) (x : Sq) : (s.setSq n x).ref = s.ref := rfl
@[simp] theorem State.setSq_dsc (n : Nat) (x : Sq) : (s.setSq n x).dsc = s.dsc := rfl
@[simp] theorem State.setSq_grt (n : Nat) (x : Sq) : (s.setSq n x).grt = s.grt := rfl
@[simp] theorem State.setSq_cko (n : Nat) (x : Sq) : (s.setSq n x).cko = s.cko := rfl
@[simp] theorem State.setSq_gna (n : Nat) (x : Sq) : (s.setSq n x).gna = s.gna := rfl
@[simp] theorem State.setSq_gnc (n : Nat) (x : Sq) : (s.setSq n x).gnc = s.gnc := rfl
@[simp] theorem State.setSq_prt (n : Nat) (x : Sq) : (s.setSq n x).prt = s.prt := rfl
@[simp] theorem State.setSq_rsp (n : Nat) (x : Sq) : (s.setSq n x).rsp = s.rsp := rfl
@[simp] theorem State.setSq_ptp (n : Nat) (x : Sq) : (s.setSq n x).ptp = s.ptp := rfl
@[simp] theorem State.setSq_nts (n : Nat) (x : Sq) : (s.setSq n x).nts = s.nts := rfl
@[simp] theorem State.setSq_evt (n : Nat) (x : Sq) : (s.setSq n x).evt = s.evt := rfl
@[simp] theorem State.setSq_vid (n : Nat) (x : Sq) : (s.setSq n x).vid = s.vid := rfl
@[simp] theorem State.setSq_tdc (n : Nat) (x : Sq) : (s.setSq n x).tdc = s.tdc := rfl
@[simp] theorem State.setSq_key (n : Nat) (x : Sq) : (s.setSq n x).key = s.key := rfl
@[simp] theorem State.setSq_pke (n : Nat) (x : Sq) : (s.setSq n x).pke = s.pke := rfl
@[simp] theorem State.setSq_fls (n : Nat) (x : Sq) : (s.setSq n x).fls = s.fls := rfl
@[simp] theorem State.setSq_pwr (n : Nat) (x : Sq) : (s.setSq n x).pwr = s.pwr := rfl
@[simp] theorem State.setSq_bst (n : Nat) (x : Sq) : (s.setSq n x).bst = s.bst := rfl
@[simp] theorem State.setSq_twn (n : Nat) (x : Sq) : (s.setSq n x).twn = s.twn := rfl

/-! ### The part of TWN changed -/

@[simp] theorem State.setTwn_pending (f : TwnS → TwnS) : (s.setTwn f).pending = s.pending := rfl
@[simp] theorem State.setTwn_variant (f : TwnS → TwnS) : (s.setTwn f).variant = s.variant := rfl
@[simp] theorem State.setTwn_freeCtr (f : TwnS → TwnS) : (s.setTwn f).freeCtr = s.freeCtr := rfl
@[simp] theorem State.setTwn_raw (f : TwnS → TwnS) : (s.setTwn f).raw = s.raw := rfl
@[simp] theorem State.setTwn_rawRun (f : TwnS → TwnS) : (s.setTwn f).rawRun = s.rawRun := rfl
@[simp] theorem State.setTwn_regs (f : TwnS → TwnS) : (s.setTwn f).regs = s.regs := rfl
@[simp] theorem State.setTwn_shadow (f : TwnS → TwnS) : (s.setTwn f).shadow = s.shadow := rfl
@[simp] theorem State.setTwn_latch (f : TwnS → TwnS) : (s.setTwn f).latch = s.latch := rfl
@[simp] theorem State.setTwn_held (f : TwnS → TwnS) : (s.setTwn f).held = s.held := rfl
@[simp] theorem State.setTwn_mem (f : TwnS → TwnS) : (s.setTwn f).mem = s.mem := rfl
@[simp] theorem State.setTwn_fab (f : TwnS → TwnS) : (s.setTwn f).fab = s.fab := rfl
@[simp] theorem State.setTwn_tsc (f : TwnS → TwnS) : (s.setTwn f).tsc = s.tsc := rfl
@[simp] theorem State.setTwn_hif (f : TwnS → TwnS) : (s.setTwn f).hif = s.hif := rfl
@[simp] theorem State.setTwn_jrn (f : TwnS → TwnS) : (s.setTwn f).jrn = s.jrn := rfl
@[simp] theorem State.setTwn_pmc (f : TwnS → TwnS) : (s.setTwn f).pmc = s.pmc := rfl
@[simp] theorem State.setTwn_glb (f : TwnS → TwnS) : (s.setTwn f).glb = s.glb := rfl
@[simp] theorem State.setTwn_ref (f : TwnS → TwnS) : (s.setTwn f).ref = s.ref := rfl
@[simp] theorem State.setTwn_dsc (f : TwnS → TwnS) : (s.setTwn f).dsc = s.dsc := rfl
@[simp] theorem State.setTwn_grt (f : TwnS → TwnS) : (s.setTwn f).grt = s.grt := rfl
@[simp] theorem State.setTwn_cko (f : TwnS → TwnS) : (s.setTwn f).cko = s.cko := rfl
@[simp] theorem State.setTwn_gna (f : TwnS → TwnS) : (s.setTwn f).gna = s.gna := rfl
@[simp] theorem State.setTwn_gnc (f : TwnS → TwnS) : (s.setTwn f).gnc = s.gnc := rfl
@[simp] theorem State.setTwn_prt (f : TwnS → TwnS) : (s.setTwn f).prt = s.prt := rfl
@[simp] theorem State.setTwn_rsp (f : TwnS → TwnS) : (s.setTwn f).rsp = s.rsp := rfl
@[simp] theorem State.setTwn_ptp (f : TwnS → TwnS) : (s.setTwn f).ptp = s.ptp := rfl
@[simp] theorem State.setTwn_nts (f : TwnS → TwnS) : (s.setTwn f).nts = s.nts := rfl
@[simp] theorem State.setTwn_evt (f : TwnS → TwnS) : (s.setTwn f).evt = s.evt := rfl
@[simp] theorem State.setTwn_vid (f : TwnS → TwnS) : (s.setTwn f).vid = s.vid := rfl
@[simp] theorem State.setTwn_tdc (f : TwnS → TwnS) : (s.setTwn f).tdc = s.tdc := rfl
@[simp] theorem State.setTwn_seq (f : TwnS → TwnS) : (s.setTwn f).seq = s.seq := rfl
@[simp] theorem State.setTwn_key (f : TwnS → TwnS) : (s.setTwn f).key = s.key := rfl
@[simp] theorem State.setTwn_pke (f : TwnS → TwnS) : (s.setTwn f).pke = s.pke := rfl
@[simp] theorem State.setTwn_fls (f : TwnS → TwnS) : (s.setTwn f).fls = s.fls := rfl
@[simp] theorem State.setTwn_pwr (f : TwnS → TwnS) : (s.setTwn f).pwr = s.pwr := rfl
@[simp] theorem State.setTwn_bst (f : TwnS → TwnS) : (s.setTwn f).bst = s.bst := rfl

/-! ### Time passes -/

@[simp] theorem State.advance_pending (t : Nat) : (s.advance t).pending = s.pending := by unfold State.advance; split <;> rfl
@[simp] theorem State.advance_variant (t : Nat) : (s.advance t).variant = s.variant := by unfold State.advance; split <;> rfl
@[simp] theorem State.advance_freeCtr (t : Nat) : (s.advance t).freeCtr = s.freeCtr := by unfold State.advance; split <;> rfl
@[simp] theorem State.advance_rawRun (t : Nat) : (s.advance t).rawRun = s.rawRun := by unfold State.advance; split <;> rfl
@[simp] theorem State.advance_regs (t : Nat) : (s.advance t).regs = s.regs := by unfold State.advance; split <;> rfl
@[simp] theorem State.advance_shadow (t : Nat) : (s.advance t).shadow = s.shadow := by unfold State.advance; split <;> rfl
@[simp] theorem State.advance_latch (t : Nat) : (s.advance t).latch = s.latch := by unfold State.advance; split <;> rfl
@[simp] theorem State.advance_held (t : Nat) : (s.advance t).held = s.held := by unfold State.advance; split <;> rfl
@[simp] theorem State.advance_mem (t : Nat) : (s.advance t).mem = s.mem := by unfold State.advance; split <;> rfl
@[simp] theorem State.advance_fab (t : Nat) : (s.advance t).fab = s.fab := by unfold State.advance; split <;> rfl
@[simp] theorem State.advance_tsc (t : Nat) : (s.advance t).tsc = s.tsc := by unfold State.advance; split <;> rfl
@[simp] theorem State.advance_hif (t : Nat) : (s.advance t).hif = s.hif := by unfold State.advance; split <;> rfl
@[simp] theorem State.advance_jrn (t : Nat) : (s.advance t).jrn = s.jrn := by unfold State.advance; split <;> rfl
@[simp] theorem State.advance_pmc (t : Nat) : (s.advance t).pmc = s.pmc := by unfold State.advance; split <;> rfl
@[simp] theorem State.advance_glb (t : Nat) : (s.advance t).glb = s.glb := by unfold State.advance; split <;> rfl
@[simp] theorem State.advance_ref (t : Nat) : (s.advance t).ref = s.ref := by unfold State.advance; split <;> rfl
@[simp] theorem State.advance_dsc (t : Nat) : (s.advance t).dsc = s.dsc := by unfold State.advance; split <;> rfl
@[simp] theorem State.advance_grt (t : Nat) : (s.advance t).grt = s.grt := by unfold State.advance; split <;> rfl
@[simp] theorem State.advance_cko (t : Nat) : (s.advance t).cko = s.cko := by unfold State.advance; split <;> rfl
@[simp] theorem State.advance_gna (t : Nat) : (s.advance t).gna = s.gna := by unfold State.advance; split <;> rfl
@[simp] theorem State.advance_gnc (t : Nat) : (s.advance t).gnc = s.gnc := by unfold State.advance; split <;> rfl
@[simp] theorem State.advance_prt (t : Nat) : (s.advance t).prt = s.prt := by unfold State.advance; split <;> rfl
@[simp] theorem State.advance_rsp (t : Nat) : (s.advance t).rsp = s.rsp := by unfold State.advance; split <;> rfl
@[simp] theorem State.advance_ptp (t : Nat) : (s.advance t).ptp = s.ptp := by unfold State.advance; split <;> rfl
@[simp] theorem State.advance_nts (t : Nat) : (s.advance t).nts = s.nts := by unfold State.advance; split <;> rfl
@[simp] theorem State.advance_evt (t : Nat) : (s.advance t).evt = s.evt := by unfold State.advance; split <;> rfl
@[simp] theorem State.advance_vid (t : Nat) : (s.advance t).vid = s.vid := by unfold State.advance; split <;> rfl
@[simp] theorem State.advance_tdc (t : Nat) : (s.advance t).tdc = s.tdc := by unfold State.advance; split <;> rfl
@[simp] theorem State.advance_seq (t : Nat) : (s.advance t).seq = s.seq := by unfold State.advance; split <;> rfl
@[simp] theorem State.advance_key (t : Nat) : (s.advance t).key = s.key := by unfold State.advance; split <;> rfl
@[simp] theorem State.advance_pke (t : Nat) : (s.advance t).pke = s.pke := by unfold State.advance; split <;> rfl
@[simp] theorem State.advance_fls (t : Nat) : (s.advance t).fls = s.fls := by unfold State.advance; split <;> rfl
@[simp] theorem State.advance_pwr (t : Nat) : (s.advance t).pwr = s.pwr := by unfold State.advance; split <;> rfl
@[simp] theorem State.advance_bst (t : Nat) : (s.advance t).bst = s.bst := by unfold State.advance; split <;> rfl
@[simp] theorem State.advance_twn (t : Nat) : (s.advance t).twn = s.twn := by unfold State.advance; split <;> rfl

/-! ### What each operation changes -/

@[simp] theorem State.setReg_regs (k : Nat) (w : Word) :
    (s.setReg k w).regs = Store.put (resetWord s.variant) s.regs k w := rfl
@[simp] theorem State.setTsc_tsc (f : TscS → TscS) : (s.setTsc f).tsc = f s.tsc := rfl
@[simp] theorem State.setFab_fab (f : FabS → FabS) : (s.setFab f).fab = f s.fab := rfl
@[simp] theorem State.setTwn_twn (f : TwnS → TwnS) : (s.setTwn f).twn = f s.twn := rfl

/-- A timescale replaced is what is read of it. -/
theorem State.tsOf_setTs (n : Nat) (t : Ts) (h : Store.wf dTs s.tsc.ts = true) : (s.setTs n t).tsOf n = t :=
  Store.get_put_same h

/-- The other timescales stay. -/
theorem State.tsOf_setTs_ne (n j : Nat) (t : Ts) (h : Store.wf dTs s.tsc.ts = true) (hj : j ≠ n) :
    (s.setTs n t).tsOf j = s.tsOf j := Store.get_put_ne h hj

/-- A ledger instance replaced is what is read of it. -/
theorem State.lget_lset (k : Tok) (i : Nat) (l : LInst) (h : s.Balanced) : (s.lset k i l).lget k i = l :=
  Store.get_put_same h.1

/-- A sequencer replaced is what is read of it. -/
theorem State.sq_setSq (n : Nat) (x : Sq) (h : Store.wf dSq s.seq.sq = true) : (s.setSq n x).sq n = x :=
  Store.get_put_same h

end Sys2Proof.Machine
end

