-- ==== Sys2Proof/Tests/Slice0.lean ====
section
/-! SUPPORT. The model's own tests: for every statement a concrete state and operands that meet its hypotheses, each clause at
a value of its range, and for every check of well-formedness a command it refuses. -/

namespace Sys2Proof.Tests

open Sys2Proof Sys2Proof.Machine

/-- The engine in Service with the raw counter running, everything else as at reset. -/
def sv : State := { State.reset.wr GLB.MODE_CURRENT 4 with rawRun := true }

/-- The state an outcome answers, `s` where it answers none. -/
def nx (o : Host.Outcome State Fault Refusal) (s : State) : State := match o with | .next u => u | _ => s

/-- Keys stand in rising order, as a test. -/
def risingB : List (Nat × Word) → Bool
  | [] => true
  | e :: r => r.all (fun f => decide (e.1 < f.1)) && risingB r

/-- The canonical form of a state, as a test. -/
def canonB (s : State) : Bool := Store.wf (resetWord s.variant) s.regs && risingB s.shadow && Store.wf zWord32 s.latch
  && Store.wf (fun _ => none) s.held && Store.wf dByte s.mem && Store.wf dTs s.tsc.ts && Store.wf dCmp s.tsc.cmps
  && Store.wf dSq s.seq.sq && s.raw % 65536 == 0

theorem test_reset_canonical : canonB State.reset = true ∧ State.reset.pending = [] := by decide
theorem test_service_canonical : canonB sv = true ∧ sv.mode = 4 ∧ sv.rawRun = true := by decide
theorem test_empty_queue : State.reset.tickEdge = State.reset ∧ sv.tickEdge = { sv with raw := 65536 } := by decide
theorem test_front : ({ sv with pending := [Instr.loReady true, Instr.perst 0] } : State).pending ≠ [] := by decide
theorem test_read_stores_nothing : nx (execMultiwordLowRead 0 FLS.SEQ_LO sv) sv = sv := by decide

/-- A register that no rule of its own governs, by the tables: its row's words, place and masks. -/
def plain (s : State) (a : Nat) : Bool := s.keyOf 0 a == some a && (s.writeSys a 5).isNone && (s.writeOwn 0 a 5).isNone
theorem test_plain_write : (rowAt PWR.INT_EN).map (fun r => (r.lead, r.words)) = some (0, 1) ∧ sv.access 0 PWR.INT_EN .write = .granted
    ∧ blkAt PWR.INT_EN = some .pwr ∧ plain sv PWR.INT_EN = true ∧ sv.on (cmPENDING .pwr) = false
    ∧ (nx (execRegisterWrite 0 PWR.INT_EN 0x1FF sv) sv).nreg PWR.INT_EN = 0xFF := by decide
theorem test_shadow_write : plain sv PWR.CONSENT_TO = true ∧ (rowAt PWR.CONSENT_TO).map (fun r => r.maskOf .rws) = some 255
    ∧ (nx (execRegisterWrite 0 PWR.CONSENT_TO 7 sv) sv).nreg PWR.CONSENT_TO = 2
    ∧ (nx (execRegisterWrite 0 PWR.CONSENT_TO 7 sv) sv).shadowWord PWR.CONSENT_TO = 7 := by decide
theorem test_sticky_clear : blkAt (Blk.pwr).sticky = some .pwr ∧ sv.access 0 (Blk.pwr).sticky .write = .granted
    ∧ (nx (execStickyClear 0 .pwr 6 2 ((sv.wr PWR.STICKY_SLEEP_ABORT 1).wr PWR.STICKY_WAKE_FAILED 1)) sv).nreg PWR.STICKY = 2 := by decide
theorem test_words_latch : (rowAt FLS.SEQ_LO).map (fun r => (r.lead, r.words)) = some (0, 2) ∧ sv.access 0 FLS.SEQ_LO .read = .granted
    ∧ Store.wf zWord32 sv.latch = true := by decide
theorem test_words_held : (rowAt FLS.ARCHIVED_LO).map (fun r => (r.lead, r.words, r.maskOf .rw)) = some (0, 2, 0xFFFFFFFF)
    ∧ (rowAt FLS.ARCHIVED_HI).map (fun r => (r.lead, r.words, r.maskOf .rw, r.maskOf .rws, r.maskOf .w1c)) = some (1, 2, 0xFFFF, 0, 0)
    ∧ plain sv FLS.ARCHIVED_LO = true ∧ plain sv FLS.ARCHIVED_HI = true ∧ sv.access 0 FLS.ARCHIVED_HI .write = .granted := by decide
theorem test_high_word_applies : let u := nx (execMultiwordHighWrite 0 FLS.ARCHIVED_HI 0x1FFFF (nx (execRegisterWrite 0 FLS.ARCHIVED_LO 9 sv) sv)) sv
    u.nreg FLS.ARCHIVED_LO = 9 ∧ u.nreg FLS.ARCHIVED_HI = 0xFFFF := by decide
theorem test_denied : sv.access 1 PWR.INT_EN .write = .denied ∧ sv.access 1 PWR.INT_EN .read = .denied ∧ 3 % 16 ≠ 15
    ∧ PWR.INT_EN ∉ [PTP.GRANT_CMD, GNC.CH_SEL, PWR.DOM_REQ] := by decide
theorem test_commit : (Blk.pwr).commitOff.isSome = true ∧ blkAt (Blk.pwr).commit = some .pwr ∧ sv.access 0 (Blk.pwr).commit .write = .granted
    ∧ sv.on (cmPENDING .pwr) = false ∧ (sv.wr (cmVIEW .pwr) 0).groupValid .pwr = true := by decide
theorem test_commit_due : let s := (sv.wr (cmPENDING .fab) 1).setShadow (Tbl.aclBase.key 3) 77
    canonB s = true ∧ s.on (cmPENDING .fab) = true ∧ groupOf (Tbl.aclBase.key 3) = (Blk.fab).commit
    ∧ (nx (execCommitTakesEffect .fab 0 s) sv).nreg (Tbl.aclBase.key 3) = 77 := by decide
theorem test_commit_invalid : let s := sv.setShadow PWR.CONSENT_TO 0
    canonB s = true ∧ (s.wr (cmVIEW .pwr) 0).groupValid .pwr = false ∧ s.access 0 (Blk.pwr).commit .write = .granted := by decide
theorem test_commit_pending : let s := sv.wr (cmPENDING .pwr) 1
    canonB s = true ∧ s.on (cmPENDING .pwr) = true ∧ plain s PWR.CONSENT_TO = true ∧ s.access 0 PWR.CONSENT_TO .write = .granted
    ∧ (rowAt PWR.CONSENT_TO).map (fun r => (r.maskOf .rw, r.lead)) = some (0, 0) := by decide
theorem test_other_masters : (sv.advance 5).modeAllows 1 .glb GLB.MODE_REQ true = true ∧ (sv.advance 5).modeAllows 1 .glb GLB.RESET_CTRL true = true
    ∧ sv.on GLB.POLICY_TWIN_REQ = false := by decide

theorem test_balanced : State.reset.fab.ledger = [] := by decide
theorem test_audit : sv.access 0 FAB.LEDGER_CTRL .write = .granted ∧ bitAt 1 0 = true ∧ bitsOf 1 8 4 < 12 ∧ sv.fab.copies.length < 2
    ∧ sv.rd FAB.LEDGER_CTRL_AUTO_PERIOD ≠ 0 ∧ sv.access 0 FAB.QUEUE_STAT .write = .granted ∧ bitAt (2 ^ 31) 31 = true
    ∧ queueCap sv.variant (sv.rd FAB.QUEUE_SEL_QUEUE) ≠ 0 := by decide
def goodCopyOf : LedgerCopy := ⟨[], [], []⟩
def badCopyOf : LedgerCopy := ⟨[(Tok.keytok.key 1, ⟨5, 1, 2⟩)], [], []⟩
def audited (c : LedgerCopy) : State := { sv with fab := { sv.fab with copies := [c, goodCopyOf] } }
theorem test_audit_ends : canonB (audited goodCopyOf) = true ∧ 2 ≤ (audited goodCopyOf).fab.copies.length ∧ (audited goodCopyOf).rd FAB.LEDGER_CTRL_AUTO_PERIOD ≠ 0
    ∧ (audited goodCopyOf).fab.ledger = [] := by decide
set_option maxRecDepth 20000 in
theorem test_audit_fails : badCopyOf.fails = [(.keytok, 1)] ∧ goodCopyOf.fails = [] := by decide
def isolatedEng : State := { sv with fab := { sv.fab with isolated := [ownerOf .keytok 1] } }
theorem test_reinit : canonB isolatedEng = true ∧ tokOf 5 = some .keytok ∧ ownerOf .keytok 1 ∈ isolatedEng.fab.isolated
    ∧ ownerOf .keytok 1 ∉ isolatedEng.fab.unusable ∧ isolatedEng.on FAB.CTRL_REINIT_ON_FAULT = true
    ∧ Store.get zNat isolatedEng.fab.failRaw (65536 + ownerOf .keytok 1) = 0 := by decide

def md (n : Nat) : State := sv.wr GLB.MODE_CURRENT n
theorem test_requests_taken : ∀ n ∈ [2, 3, 4, 5, 6, 7, 9], canonB (md n) = true ∧ (md n).mode = n
    ∧ (md n).access 0 GLB.MODE_REQ .write = .granted ∧ (md n).on GLB.MODE_STAT_PENDING = false ∧ (md n).pwr.sleep = none := by decide
theorem test_twin_up : ((md 3).wr TWN.STAT_LINK 3).rd TWN.STAT_LINK = 3 := by decide
theorem test_maintained : ((md 6).setN GLB.MAINT_SET (2 ^ 7)).nreg GLB.MAINT_SET = 2 ^ 7 ∧ (md 6).maint 7 = false := by decide
def provisioned3 : State := let s := (md 3).wr (cmCOUNT .fab) 1; { s with glb := { s.glb with policySet := true } }
theorem test_may_serve : canonB provisioned3 = true ∧ provisioned3.mayServe = true ∧ (md 3).mayServe = false := by decide
theorem test_keep_alive : (md 5).pwrBusy = false ∧ (md 5).on PWR.KA_CFG_XO_OFF = false ∧ (md 5).domState 0 < 2 := by decide
theorem test_twin_asks : let s := ((md 5).wr GLB.POLICY_TWIN_REQ 1).wr TWN.STAT_LINK 3
    canonB s = true ∧ s.on GLB.POLICY_TWIN_REQ = true ∧ s.rd TWN.STAT_LINK = 3 ∧ s.mode = 5 := by decide
theorem test_reset_ctrl : sv.access 0 GLB.RESET_CTRL .write = .granted ∧ 0x5A % 256 ≠ 0xA5 := by decide
theorem test_boot_stage : let s := State.reset.wr GLB.BOOT_STAT_STAGE 1
    canonB s = true ∧ s.mode = 0 ∧ s.on GLB.BOOT_STAT_FATAL = false ∧ s.rd GLB.BOOT_STAT_STAGE = 1 ∧ s.prefers 7 = 1
    ∧ s.copyCode 7 ⟨true, true, 3, true, []⟩ = stOK := by decide
theorem test_self_test : (md 1).mode = 1 ∧ (md 1).on BST.STAT_RUNNING = false ∧ ((md 1).wr BST.STAT_RUNNING 1).on BST.STAT_RUNNING = true
    ∧ (md 1).glb.tampered = false ∧ (md 1).on GLB.MODE_STAT_PENDING = false := by decide
theorem test_tamper : ∀ n ∈ [0, 1, 2, 3, 4, 5, 6, 7, 9], let s := (md n).wr GLB.POLICY_TAMPER_EN 1
    bitAt (s.rd GLB.POLICY_TAMPER_EN) 0 = true ∧ bitAt s.tamperActive 0 = false ∧ s.mode = n := by decide
theorem test_policy : (md 3).access 0 GLB.POLICY .write = .granted ∧ sv.access 0 GLB.POLICY .write = .granted
    ∧ bitsOf 1 GLB.POLICY_TAMPER_EN.lo 4 = 0 := by decide

def stopped : State := { sv with rawRun := false }
theorem test_not_running_yet : canonB stopped = true ∧ stopped.rawRun = false ∧ stopped.on (loReady stopped.grottoActive) = false := by decide
theorem test_lo_loss : (sv.wr TSC.LO_CTRL_AUTO 0).on TSC.LO_CTRL_AUTO = false ∧ (sv.wr TSC.LO_STAT_PLL_HOLD 1).on TSC.LO_STAT_PLL_HOLD = true
    ∧ sv.tsc.retryAt = none := by decide
def retrying : State := { sv with tsc := { sv.tsc with retryAt := some 0 } }
theorem test_retry : canonB retrying = true ∧ retrying.tsc.retryAt = some 0 ∧ retrying.altReady = false ∧ retrying.tsc.afterLoss = false := by decide
def bothReady : State := ((((sv.wr (TSC.CTRL_FOLLOW 1) 1).setN (TSC.SLEW_BOUND 0) (2 ^ 29)).wr TSC.LO_STAT_XO_READY 1).wr TSC.LO_STAT_GR_READY 1).wr TSC.LO_CTRL_AUTO 1
def slewing2 : State := { (((bothReady.setTs 0 ⟨0, 0, 10 ^ 9 * 2 ^ 32, 0⟩).setTs 2 ⟨65536, -7, -10 ^ 9 * 2 ^ 32, 0⟩).setN (TSC.SLEW_BOUND 2) (2 ^ 28)) with raw := 65536 * 10 ^ 4 }
theorem test_alternate_ready : canonB slewing2 = true ∧ slewing2.altReady = true ∧ slewing2.on TSC.LO_CTRL_AUTO = true
    ∧ slewing2.access 0 TSC.LO_CTRL .write = .granted ∧ slewing2.follows 0 = false := by decide
theorem test_slew_over : let s := { bothReady.setTs 0 ⟨0, 0, 5 * 2 ^ 32, 0⟩ with raw := 65536 * 10 ^ 7 }
    canonB s = true ∧ ((s.advance 0).tsOf 0).rem ≠ 0 ∧ s.boundOf 0 ≠ 0 ∧ s.slewEnd 0 ≤ s.raw := by decide
def leaps : State := (((sv.setN (Tbl.leapSec.key 0) 0).setN (Tbl.leapOfs.key 0) 0x10025).setN (Tbl.leapSec.key 1) 100).setN (Tbl.leapOfs.key 1) 0x10026
def warned : State := { (nx (execLeapWarnStart 0 leaps) sv) with raw := 65536 * 101 * 10 ^ 9 }
theorem test_leap_due : canonB warned = true ∧ warned.rd TSC.UTC_STAT_LEAP_WARN ≠ 0
    ∧ warned.leaps.any (fun l => l.idx == warned.rd TSC.UTC_STAT_NEXT && decide (l.sec ≤ warned.sec0)) = true := by decide
def smeared5 : State := ((((leaps.wr (TSC.CTRL_KIND 5) 1).wr (TSC.CTRL_FOLLOW 5) 1).wr (TSC.CTRL_SMEAR_PROF 5) 2).wr (TSC.SMEAR_CFG_LEAD 2) 720).wr ⟨TSC.SMEAR_CFG 2, 14, 14⟩ 1440
theorem test_smear_due : canonB smeared5 = true ∧ smeared5.leapSteps.map (fun l => (l.1.idx, smeared5.smearDue 2 l.1)) = [(1, true)]
    ∧ smeared5.rd (TSC.CTRL_KIND 5) = 1 ∧ smeared5.rd (TSC.CTRL_SMEAR_PROF 5) = 2 := by decide
theorem test_snap_go : sv.access 0 TSC.SNAP_CTRL .write = .granted := by decide
def armed21 (g : Nat) : State := nx (execCompareRearm 21 0 g 0 sv) sv
theorem test_compare_not_due : sv.cmpAns 21 = .notDue := by decide
theorem test_compare_late : (armed21 (2 ^ 64 - 5)).cmpAns 21 = .late := by decide
theorem test_compare_fires : (armed21 5).cmpAns 21 = .fires 5 := by decide +kernel

def slotQing : State := { ((((sv.setSlotState 3 slQUALIFYING).setN (REF.SLOT_FREQ 3) 0).wr (REF.SLOT_CFG_MIN_RANK 3) 15).wr
  (REF.SLOT_LIMITS_FREQ_LIMIT 3) 50).wr (REF.IN_STAT_PRESENT 0) 1 with raw := 65536 * 10 ^ 11 }
theorem test_holdoff_over : canonB slotQing = true ∧ slotQing.slotState 3 = slQUALIFYING ∧ slotQing.holdoffOver 3 = true := by decide
def slotFailed : State := slotQing.setSlotState 3 slFAILED
theorem test_failHold_over : canonB slotFailed = true ∧ slotFailed.slotState 3 = slFAILED ∧ slotFailed.failOver 3 = true := by decide
def disputed : State :=
  let s := ((((((sv.setSlotState 1 slDISPUTED).setSlotState 2 slDISPUTED).wr REF.DISPUTE_CFG_WINDOW 10).wr REF.DISPUTE_CFG_THRESH 10).wr
    REF.DISPUTE_CFG_GROTTO_ARB 1).wr GRT.STATE_STATE 3).setN TSC.LO_XDIFF 0
  let s1 := (s.setSlot 1 { s.slot 1 with results := [(95 * qSec, 2 ^ 32)] }).setSlot 2 { s.slot 2 with results := [(95 * qSec, 0)] }
  { s1.setDisp [⟨1, 2, 0, false⟩] with raw := 65536 * 101 * 10 ^ 9 }
theorem test_dispute_open : canonB disputed = true ∧ Store.wf dRSlot disputed.ref.slots = true ∧ disputed.windowLen ≠ 0
    ∧ disputed.ref.winEnd < disputed.windowEnd ∧ disputed.ref.disp = [⟨1, 2, 0, false⟩]
    ∧ disputed.slotState 1 = slDISPUTED ∧ disputed.slotState 2 = slDISPUTED
    ∧ meanAbove (disputed.arbDiff disputed.arbiter 1 (disputed.windowEnd - disputed.windowLen) disputed.windowEnd) 10 2 = some true
    ∧ meanAbove (disputed.arbDiff disputed.arbiter 2 (disputed.windowEnd - disputed.windowLen) disputed.windowEnd) 10 2 = some false
    ∧ disputed.rd REF.DISPUTE_CFG_THRESH = 10 := by decide
def ppsIn : State := { (sv.wr (REF.IN_CFG_MODE 2) 1).setRin 2 ⟨some 0, 0, 0, 0⟩ with raw := 65536 * 10 ^ 9 }
theorem test_pps_edge : canonB ppsIn = true ∧ ppsIn.rd (REF.IN_CFG_MODE 2) = 1 ∧ ppsIn.slotBound 0 2 = none
    ∧ (∀ k, k < 8 → k ≠ 2 → ¬(ppsIn.on (REF.IN_CFG_COMP_EN k) = true ∧ ppsIn.rd (REF.IN_CFG_COMP_IN k) = 2)) := by decide
theorem test_in_off : canonB sv = true ∧ sv.rd (REF.IN_CFG_MODE 2) = 0 := by decide
theorem test_in_absent : canonB (ppsIn.advance (65536 * 3 * 10 ^ 9)) = true ∧ ppsIn.rd (REF.IN_CFG_MODE 2) ≠ 0
    ∧ (ppsIn.advance (65536 * 3 * 10 ^ 9)).inAbsent 2 = true ∧ ppsIn.inAbsent 2 = false := by decide
def gnssSlot : State := ((sv.wr (REF.SLOT_CFG_ENABLE 5) 1).wr (REF.SLOT_CFG_BIND_TYPE 5) 1).setSlotState 5 slQUALIFIED
theorem test_gnss_los : canonB gnssSlot = true ∧ gnssSlot.slotBound 1 0 = some 5 ∧ gnssSlot.gnssLos = true
    ∧ gnssSlot.slotState 5 ≠ slDISABLED := by decide

def runSq (s : State) (n : Nat) : State := s.setSq n { s.sq n with st := .run }
def tracking : State :=
  let s := ((runSq (runSq (runSq sv 40) 41) 42).setN REF.SEL_STAT 0).setN DSC.LOCK_CFG 0x00640064
  let s1 := ((((s.wr REF.SEL_STAT_ACTIVE 2).wr REF.SEL_STAT_ACTIVE_VALID 1).wr REF.SEL_STAT_STANDBY 3).wr REF.SEL_STAT_STANDBY_VALID 1)
  let s2 := ((s1.setSlot 2 { s1.slot 2 with wait := [⟨0, 5000000, 0⟩] }).setSlot 3 { s1.slot 3 with wait := [⟨0, -7000000, 0⟩] })
  { ((s2.wr DSC.PULL_CFG_FRAMP_EN 0).wr (REF.IN_CFG_MODE 0) 1).setDsc (fun d => { d with fbSlot := some 3 }) with raw := 65536 * 10 ^ 12 }
theorem test_loop_ready : canonB tracking = true ∧ tracking.active = some 2 ∧ tracking.sqRuns sqMain = true
    ∧ (tracking.slot 2).wait = [⟨0, 5000000, 0⟩] ∧ tracking.loopOpen = false ∧ tracking.pullKind ≠ 1
    ∧ tracking.on DSC.PULL_CFG_FRAMP_EN = false := by decide
theorem test_loop_in_range : (roundDiv (tracking.dsc.want + kiE (effBw (tracking.mainLoop 2).1 (tracking.smpInt 2)) (tracking.mainLoop 2).2
    (tracking.smpInt 2) (5000000 - tracking.dsc.build) + kpE (effBw (tracking.mainLoop 2).1 (tracking.smpInt 2)) (tracking.mainLoop 2).2
    (5000000 - tracking.dsc.build)) (2 ^ 64)).natAbs ≤ 2 ^ 54 := by decide
def swSteered : State := (tracking.wr DSC.LOOP_CFG_MAIN_OPEN 1).wr DSC.LOOP_CFG_SW_TIMEOUT 10
theorem test_loop_open : canonB swSteered = true ∧ swSteered.active = some 2 ∧ swSteered.sqRuns sqMain = true
    ∧ (swSteered.slot 2).wait = [⟨0, 5000000, 0⟩] ∧ swSteered.loopOpen = true
    ∧ swSteered.dsc.swT0 + swSteered.rd DSC.LOOP_CFG_SW_TIMEOUT * qSec ≤ swSteered.tsNow 0 := by decide
theorem test_sw_write : swSteered.access 0 DSC.SW_CTRL_HI .write = .granted ∧ swSteered.on DSC.LOOP_CFG_MAIN_OPEN = true
    ∧ (toSigned 64 (2 ^ 64 - 5)).natAbs ≤ 2 ^ 54 ∧ swSteered.dstate ≠ dHOLD ∧ swSteered.dstate ≠ dEXPIRED := by decide
theorem test_sw_refused : canonB tracking = true ∧ tracking.access 0 DSC.SW_CTRL_HI .write = .granted
    ∧ tracking.on DSC.LOOP_CFG_MAIN_OPEN = false ∧ tracking.loopOpen = false := by decide
theorem test_fallback_ready : tracking.standby = some 3 ∧ tracking.sqRuns sqFallback = true
    ∧ (tracking.slot 3).wait = [⟨0, -7000000, 0⟩] ∧ tracking.on DSC.LOOP_CFG_FB_OPEN = false ∧ tracking.dsc.fbSlot = some 3 := by decide
theorem test_loops_idle : canonB sv = true ∧ sv.active = none ∧ sv.standby = none ∧ sv.dstate ≠ dHOLD ∧ sv.dstate ≠ dEXPIRED
    ∧ sv.dstate ≠ dACQ ∧ sv.dstate ≠ dLOCKED ∧ sv.pullKind = 0 ∧ sv.mainFaulted = false ∧ sv.dsc.est = none
    ∧ sv.sqRuns sqHistory = false := by decide
def holding : State := (tracking.wr DSC.STATE_STATE dHOLD).setDsc (fun d => { d with hold := some ⟨0, 12345678, 0⟩ })
theorem test_holding : canonB holding = true ∧ holding.dstate = dHOLD ∧ holding.dsc.hold = some ⟨0, 12345678, 0⟩
    ∧ holding.loopOpen = false ∧ holding.on DSC.PULL_CFG_FRAMP_EN = false := by decide
def pulling : State := (tracking.setPull 1).wr REF.SEL_STAT_PULLING 1
theorem test_pull_over : canonB pulling = true ∧ pulling.pullKind ≠ 0 ∧ pulling.dsc.pullRaw < pulling.raw
    ∧ pulling.remAt 0 pulling.raw = 0 ∧ pulling.dsc.i = pulling.dsc.want := by decide
def acquiring : State := (tracking.wr DSC.STATE_STATE dACQ).setDsc (fun d => { d with lockAt := some 0 })
theorem test_lock_held : canonB acquiring = true ∧ acquiring.dstate = dACQ ∧ acquiring.active.isSome = true ∧ acquiring.pullKind = 0
    ∧ acquiring.dsc.lockAt = some 0 ∧ 0 + acquiring.rd DSC.LOCK_CFG_LOCK_TIME * qSec ≤ acquiring.tsNow 0 := by decide
def far : State := (tracking.wr DSC.STATE_STATE dLOCKED).setDsc (fun d => { d with farAt := some 0 })
theorem test_far_held : canonB far = true ∧ far.dstate = dLOCKED ∧ far.active.isSome = true ∧ far.dsc.farAt = some 0
    ∧ 0 + 10 * qSec ≤ far.tsNow 0 := by decide
def seqDown : State := let s := tracking.wr DSC.STATE_STATE dLOCKED; s.setSq 40 { s.sq 40 with st := .faulted, stopRaw := 0 }
theorem test_main_faulted : canonB seqDown = true ∧ seqDown.dstate = dLOCKED ∧ seqDown.active.isSome = true
    ∧ seqDown.mainFaulted = true ∧ seqDown.dsc.farAt = none := by decide
theorem test_history_runs : canonB tracking = true ∧ tracking.sqRuns sqHistory = true := by decide
def estimating : State := holding.startEst
theorem test_estimating : canonB estimating = true ∧ estimating.dsc.est.isSome = true := by decide
def mayStep : State := (tracking.wr GLB.MODE_CURRENT 6).wr GLB.MAINT_SET_TARGETS 16
theorem test_may_step : canonB mayStep = true ∧ mayStep.access 0 DSC.STEP_CMD .write = .granted ∧ mayStep.mode = 6
    ∧ mayStep.maint 4 = true ∧ mayStep.active = some 2 ∧ mayStep.phaseBearing 2 = true
    ∧ mayStep.on VID.STAT_MUTED = (mayStep.on VID.CTRL_MUTE_FREE && mayStep.dstate == dFREE) := by decide

def grt (st : Nat) : State := { ((sv.wr GRT.STATE_STATE st).setN GRT.VHTR_MV 5000).wr GRT.CTRL_HEAT_EN 1 with raw := 65536 * 2 * 10 ^ 12 }
theorem test_grotto_states : (List.range 5).all (fun st => canonB (grt st) && (grt st).gstate == st) = true := by decide
theorem test_grotto_write : (grt gOFF).access 0 GRT.CTRL .write = .granted ∧ 4600 < (grt gOFF).nreg GRT.VHTR_MV
    ∧ (grt gREADY).grottoActive = false ∧ ((grt gREADY).wr TSC.LO_STAT_ACTIVE 1).grottoActive = true
    ∧ canonB ((grt gREADY).wr TSC.LO_STAT_ACTIVE 1) = true
    ∧ ((grt gREADY).wr TSC.LO_STAT_ACTIVE 1).access 0 GRT.CTRL .write = .granted := by decide
theorem test_grotto_bands : inBand 110250 250 = true ∧ inBand 110010 10 = true ∧ 1800 * qSec ≤ (grt gWARM).heatTime
    ∧ inBand 109979 20 = false ∧ inBand 110501 500 = false := by decide
def clocks : State :=
  let s := ((((sv.wr GLB.MODE_CURRENT 3).wr (CKO.OUT_CFG_EN 4) 1).wr (CKO.OUT_CFG_ALIGN_EN 4) 1).wr (CKO.OUT_CFG_EN 5) 1).wr (CKO.OUT_CFG_ALIGN_EN 5) 0
  let s1 := ((s.wr (CKO.PLANE_CFG_EN 0) 1).wr (CKO.PLANE_STAT_LOCK 0) 1).wr ⟨CKO.STAT, 0, 1⟩ 1
  { ((s1.wr (CKO.OUT_STAT_WALKING 5) 1).wr CKO.CTRL_SQUELCH 1).setCko (fun c => { c with waiting := [(4, 2)] }) with raw := 65536 * 3 * 10 ^ 9 }
theorem test_clocks : canonB clocks = true ∧ Store.wf zNat clocks.cko.waiting = true ∧ clocks.access 0 CKO.ALIGN_CTRL .write = .granted
    ∧ clocks.mode = 3 ∧ clocks.alignable 4 = true ∧ clocks.planeLocked (clocks.planeOf 4) = true
    ∧ Store.get zNat clocks.cko.waiting 4 ≠ 0 ∧ Store.get zNat clocks.cko.waiting 4 ≤ clocks.sec0
    ∧ clocks.planeOf 4 = 0 ∧ clocks.on CKO.CTRL_SQUELCH = true ∧ clocks.on (CKO.OUT_CFG_EN 4) = true := by decide
theorem test_walk_arrived : clocks.on (CKO.OUT_STAT_WALKING 5) = true
    ∧ walkAt (Store.get dWalk clocks.cko.walks 5) (clocks.rd DSC.PULL_CFG_SLOPE) (clocks.tsNow 0) = (Store.get dWalk clocks.cko.walks 5).goal := by
  decide
theorem test_walk_and_align : let s := clocks.wr (CKO.OUT_STAT_WALKING 4) 1
    canonB s = true ∧ s.on (CKO.OUT_STAT_WALKING 4) = true ∧ s.alignable 4 = true ∧ s.planeLocked (s.planeOf 4) = true
    ∧ Store.get zNat s.cko.waiting 4 ≠ 0 ∧ Store.get zNat s.cko.waiting 4 ≤ s.sec0 := by decide
theorem test_align_refused : canonB sv = true ∧ sv.access 0 CKO.ALIGN_CTRL .write = .granted ∧ sv.mode ≠ 3 ∧ sv.mode ≠ 6
    ∧ Store.get zNat sv.cko.waiting 4 = 0 ∧ sv.planeLocked 1 = false ∧ sv.on (CKO.OUT_STAT_WALKING 3) = false := by decide
def unlocked : State := (((clocks.wr (CKO.PLANE_STAT_LOCK 0) 0).wr (CKO.OUT_STAT_SQUELCHED 4) 1).wr (CKO.OUT_STAT_SQUELCHED 5) 1)
theorem test_plane_back : canonB unlocked = true ∧ unlocked.planeLocked 0 = false ∧ unlocked.on (CKO.PLANE_CFG_EN 0) = true
    ∧ unlocked.planeOf 4 = 0 ∧ unlocked.on (CKO.OUT_STAT_SQUELCHED 4) = true ∧ unlocked.alignable 4 = true
    ∧ unlocked.planeOf 5 = 0 ∧ unlocked.on (CKO.OUT_STAT_SQUELCHED 5) = true ∧ unlocked.alignable 5 = false := by decide

def cmd (block op : Nat) (payload : List Byte) : HostCmd := ⟨0, 5, 0, 9, block, op, fit 32 payload, 0⟩
def rings : State :=
  let s := (sv.wr (fnCfgFld 0 0 10) 0).wr (fnCfgFld 0 10 10) 8
  let s1 := (((s.wr (ringFld 0 1 0 17) 64).wr (ringFld 1 0 0 3) 3).wr (ringFld 1 1 0 17) 64).wr (ringFld 1 0 16 4) 4
  ((s1.setRing 0 { dRing 0 with st := .enabled }).setRing 1 { dRing 1 with st := .enabled }).setFn 0 ⟨true, true, false⟩
def sampling : State := ((((rings.wr (GNA.PORT_CFG_EN 0) 1).wr (GNA.PORT_CFG_RATE_KHZ 0) 20000).wr (GNA.PORT_CFG_BAND 0) 0).wr
  GNA.CTRL_ENG_EN 15).wr GNA.STAT_USABLE 15
def searchCmd : HostCmd := cmd 7 1 (leBytes 8 1 ++ leBytes 1 0x70 ++ leBytes 1 0 ++ leBytes 1 1 ++ leBytes 5 0 ++ leBytes 2 100 ++ leBytes 4 0 ++ leBytes 2 1)
theorem test_search_accepted : canonB sampling = true ∧ Store.wf dRing sampling.hif.rings = true
    ∧ (sampling.ringOf searchCmd.ring).st ≠ .disabled ∧ sampling.searchCode searchCmd = 0 ∧ sampling.searchEngine searchCmd = some 0 := by decide
theorem test_search_refused : sampling.searchCode (cmd 7 1 []) ≠ 0 ∧ sampling.engSearches 0 = [] := by decide
def waitingSearch : State := sampling.setSearches [⟨searchCmd, 0, false, 0, 0, 0, false⟩]
theorem test_search_waits : canonB waitingSearch = true
    ∧ waitingSearch.engSearches 0 = [⟨searchCmd, 0, false, 0, 0, 0, false⟩]
    ∧ (waitingSearch.wr (GNA.PORT_STAT_PRESENT 0) 1).engSearches 0 = waitingSearch.engSearches 0
    ∧ (waitingSearch.wr (GNA.PORT_STAT_PRESENT 0) 1).on (GNA.PORT_STAT_PRESENT searchCmd.gnPort) = true
    ∧ waitingSearch.on (GNA.PORT_STAT_PRESENT searchCmd.gnPort) = false := by decide
def runningSearch : State := sampling.setSearches [⟨searchCmd, 0, true, 0, 0, 0, false⟩]
theorem test_search_over : canonB runningSearch = true ∧ runningSearch.engSearches 0 = [⟨searchCmd, 0, true, 0, 0, 0, false⟩]
    ∧ (runningSearch.ringOf 0).st ≠ .disabled ∧ runningSearch.raw < 1 := by decide
def abortCmd : HostCmd := cmd 7 2 [7]
theorem test_search_abort : abortCmd.code [codeIf (!abortCmd.zero 1 32 || decide (8 ≤ abortCmd.u 0 1) || (decide (4 ≤ abortCmd.u 0 1) && abortCmd.u 0 1 != 7)) stREFUSED,
    codeIf ((runningSearch.gna.searches.filter (fun x => x.cmd.fn == abortCmd.fn && (abortCmd.u 0 1 == 7 || x.eng == abortCmd.u 0 1))).length == 0) stZERO_LEN] = 0 := by
  decide
theorem test_port_absent : sampling.on (GNA.PORT_CFG_EN 0) = true ∧ sampling.on (GNA.PORT_STAT_PRESENT 0) = false ∧ inWindow 20000 = true
    ∧ inWindow (-20001) = false ∧ sampling.on (GNA.PORT_CFG_EN 1) = false := by decide
def present : State := sampling.wr (GNA.PORT_STAT_PRESENT 0) 1
theorem test_port_present : canonB present = true ∧ present.on (GNA.PORT_CFG_EN 0) = true ∧ present.on (GNA.PORT_STAT_PRESENT 0) = true
    ∧ present.rd GNA.CTRL_CLIP_FLAG < min 255 300 := by decide
def channel (st : ChSt) : State := present.setChan 50 { dChan 50 with st := st, intMs := 255, missed := 200, sig := 0, idx := 3 }
theorem test_channel : canonB (channel .track) = true ∧ Store.wf dChan (channel .track).gnc.chans = true ∧ ((channel .track).chan 50).st = .track
    ∧ (channel .track).qRoom (128 + 50 / 48) 1 = true ∧ ((channel .track).chan 50).intMs = 255
    ∧ (channel .track).rd GNC.CTRL_STEER_TO ≤ ((channel .track).chan 50).missed
    ∧ (channel .track).access 0 GNC.CH_SEL .write = .granted ∧ (channel .track).chForbidden = false := by decide
def noRoom : State := (channel .track).issue .credit (128 + 1) 96
theorem test_channel_full : canonB noRoom = true ∧ noRoom.qRoom (128 + 50 / 48) 1 = false ∧ (noRoom.chan 50).st = .track := by decide
theorem test_channel_free : ((channel .track).chan 51).st = .idle ∧ ((channel .track).chan 51).intMs ≠ 255
    ∧ Store.wf dChan (channel .loaded).gnc.chans = true ∧ ((channel .loaded).chan 50).st = .loaded
    ∧ ((channel .loaded).chan 50).startMs ≤ (channel .loaded).msNow := by decide
def dumped : State := (channel .track).setGnc (fun k => { k with dumps := [(1, [[1, 2]])], epochQ := [[3]] })
theorem test_dump_waits : canonB dumped = true ∧ Store.get dDumps dumped.gnc.dumps 1 = [[1, 2]] ∧ dumped.gnc.epochQ = [[3]] := by decide
def loadable : State := ((present.setN (GNC.CH_DATA 0) (1 * 16 + 2 ^ 13 + 2 * 2 ^ 17)).setN (GNC.CH_DATA 11) 7)
theorem test_ch_load : canonB loadable = true ∧ Store.wf dChan loadable.gnc.chans = true ∧ loadable.chForbidden = false
    ∧ ((loadable.wr GNC.CH_SEL_CHANNEL 60).wr GNC.CH_SEL_OP 2).loadCode 60 = 0 := by decide
def bursts : State := ((((channel .gap).wr (GNC.GSEQ_BURST_BURST_EN 1) 1).wr (GNC.GSEQ_BURST_LEN_MS 1) 20).wr (GNC.GSEQ_BURST_PERIOD_MS 1) 100).wr
  (GNC.GSEQ_BURST_ANT_MASK 1) 5
theorem test_burst_due : canonB bursts = true ∧ (bursts.burstPlan 1).isSome = true ∧ bursts.burstNow 1 ≠ 0
    ∧ ((bursts.advance (65536 * 50000000)).burstPlan 1).isSome = true ∧ (bursts.advance (65536 * 50000000)).burstNow 1 = 0
    ∧ (bursts.burstPlan 2).isSome = false := by decide
theorem test_nav : (bursts.wr (GNC.GSEQ_CFG_NAV_EN 1) 1).on (GNC.GSEQ_CFG_NAV_EN 1) = true ∧ bursts.mode ≠ 8 ∧ bursts.qRoom 142 1 = true
    ∧ bursts.on (GNC.GSEQ_CFG_NAV_EN 2) = false := by decide
def solved : State := let s := ((rings.wr (REF.SLOT_CFG_ENABLE 5) 1).wr (REF.SLOT_CFG_BIND_TYPE 5) 1)
  { s with ref := { s.ref with epochs := [(0, 0)] } }
def solution : HostCmd := cmd 3 1 (leBytes 12 0 ++ leBytes 8 1000)
theorem test_solution : canonB solved = true ∧ Store.wf dRing solved.hif.rings = true ∧ (solved.ringOf 0).st ≠ .disabled
    ∧ solved.slotBound 1 0 = some 5 ∧ solution.zero 24 32 = true ∧ solution.pre = 0 ∧ solved.epochStale (solution.u 0 12) = false
    ∧ solved.ref.epochs.find? (fun x => x.1 == solution.u 0 12) = some (0, 0)
    ∧ solved.epochStale ((cmd 3 1 [1]).u 0 12) = true ∧ (cmd 3 1 [1]).zero 24 32 = true ∧ rings.slotBound 1 0 = none := by decide

theorem test_ring_idle : canonB rings = true ∧ Store.wf dRing rings.hif.rings = true ∧ rings.access 0 HIF.RING_DATA .write = .granted
    ∧ rings.access 0 HIF.RING_CTRL .write = .granted ∧ rings.keyOf 0 HIF.RING_DATA = some (Tbl.ringWord.key 0)
    ∧ rings.ringDenied 0 (rings.selRing 0) = false ∧ (rings.ringOf (rings.selRing 0)).st ≠ .disabled ∧ rings.modeNoCmd = false := by decide
def ring2 : State := ((((rings.wr (ringFld 2 1 0 17) 64).wr (ringFld 2 0 0 3) 1).wr ⟨Tbl.ringSel.key 0, 0, 10⟩ 2).wr (ringFld 2 0 14 1) 1).wr (ringFld 2 6 0 16) 5
theorem test_ring_enable : canonB ring2 = true ∧ (ring2.ringOf (ring2.selRing 0)).st = .disabled
    ∧ (ring2.wr (ringFld 2 0 14 1) 0).enableBad 2 = false ∧ (ring2.ringOf 2).st = .disabled ∧ ring2.ringDenied 0 2 = false
    ∧ lowestCode [codeIf (ring2.enableBad 3) stREFUSED, codeIf ((ring2.ringOf 3).st != .disabled) stBUSY,
            codeIf (ring2.ringDenied 0 3) stDENIED, codeIf ring2.modeNoCmd stMODE_FORBIDS] ≠ 0 := by decide
def draining : State := rings.setRing 0 { dRing 0 with st := .draining }
theorem test_ring_drained : canonB draining = true ∧ (draining.ringOf 0).st = .draining ∧ draining.descHeld 0 = 0
    ∧ (rings.ringOf 0).st ≠ .draining := by decide
theorem test_doorbell : 0 < rings.ringCount 0 ∧ (rings.ringOf (rings.ringBase 0 + 0)).st = .enabled ∧ 5 < rings.ringSize (rings.ringBase 0 + 0)
    ∧ rings.ringKind (rings.ringBase 0 + 0) ≠ 4
    ∧ (0 + rings.ringSize (rings.ringBase 0 + 0) - (rings.ringOf (rings.ringBase 0 + 0)).cqHead) % rings.ringSize (rings.ringBase 0 + 0)
      ≤ rings.cqUsed (rings.ringBase 0 + 0) ∧ rings.ringCount 0 ≤ 8 := by decide
def desc (kind : Nat) (b : List Byte) : State :=
  (((rings.wr (ringFld 0 0 0 3) kind).setN (Tbl.ringWord.key 2) 4096).setRing 0 { dRing 0 with st := .enabled, sqTail := 3 }).setBytes 4096 b
theorem test_fetch : (List.range 4).all (fun k => let s := desc k [23, 1]; canonB s && decide ((s.ringOf 0).st = .enabled) && s.ringBme 0
    && (s.ringOf 0).sqHead != (s.ringOf 0).sqTail && s.mode != 8 && !s.fab.isolated.contains (Tok.desc.key 0) && s.ringKind 0 == k) = true := by decide
theorem test_fetch_command : (desc 0 [23, 1]).qRoom 143 1 = true
    ∧ knownCmd (leAt ((desc 0 [23, 1]).bytesAt 4096 32) 0 1 % 32) (leAt ((desc 0 [23, 1]).bytesAt 4096 32) 1 1) = true
    ∧ (desc 0 [23, 1]).granted (((desc 0 [23, 1]).ringOwner 0).getD 0) (leAt ((desc 0 [23, 1]).bytesAt 4096 32) 0 1 % 32) 0xFFFFF .write = true := by decide
theorem test_nop : rings.accepts (cmd 18 1 []) := by unfold State.accepts; decide
def cpl : Cpl := ⟨7, 0, 18, 3, 1, 9, 0, 1, none⟩
def completing : State := (rings.setN (Tbl.ringWord.key 4) 8192).setRing 0 { dRing 0 with st := .enabled, cpls := [cpl], cqTail := 63, cqHead := 60, sigN := 1 }
theorem test_completion : canonB completing = true ∧ Store.wf dRing completing.hif.rings = true ∧ (completing.ringOf 0).cpls = [cpl]
    ∧ (completing.ringOf 0).st ≠ .disabled ∧ completing.ringBme 0 = true ∧ completing.cqUsed 0 + 1 < completing.ringSize 0 := by decide
def moderated : State := { (completing.wr (ringFld 0 0 14 1) 1).wr (ringFld 0 6 0 16) 5 with raw := 65536 * 5000 }
theorem test_moderation : canonB moderated = true ∧ moderated.on (ringFld 0 0 14 1) = true ∧ 0 < (moderated.ringOf 0).sigN
    ∧ 0 < moderated.rd (ringFld 0 6 0 16) ∧ moderated.ringOwner 0 = some 0
    ∧ (moderated.ringOf 0).sigRaw + moderated.rd (ringFld 0 6 0 16) * 1000 * qNs ≤ moderated.raw := by decide
def pendingMsg : State := { rings with hif := { rings.hif with msixPend := [(3, true)] } }
theorem test_pending_message : canonB pendingMsg = true ∧ Store.wf (zBool true) pendingMsg.hif.msixMask = true
    ∧ Store.wf (zBool false) pendingMsg.hif.msixPend = true ∧ Store.wf dFn pendingMsg.hif.fns = true
    ∧ (pendingMsg.fnOf 0).msixEn = true ∧ (pendingMsg.fnOf 0).fnMask = false ∧ (pendingMsg.fnOf 0).bme = true := by decide
def txDesc : List Byte := leBytes 8 65536 ++ leBytes 2 64 ++ leBytes 1 0 ++ leBytes 1 0 ++ leBytes 2 5 ++ zeros 18
def txReady : State :=
  let s := ((((desc 1 []).wr (PRT.CTRL_EN 0) 1).wr (PRT.STAT_PRESENT 0) 1).setN (PRT.MAX_FRAME 0) 1522)
  s.setRing 0 { dRing 0 with st := .enabled, txd := [(2, txDesc)] }
theorem test_tx_ready : canonB txReady = true ∧ txFrameDescs 8 (txReady.ringOf 0).txd = some [(2, txDesc)] ∧ (txReady.ringOf 0).st = .enabled
    ∧ txReady.ringKind 0 = 1 ∧ txReady.txPoolOpen = true ∧ txReady.txCode 0 [(2, txDesc)] = 0 ∧ txReady.qRoom 32 1 = true
    ∧ (txReady.wr (PRT.CTRL_EN 0) 0).txCode 0 [(2, txDesc)] ≠ 0 := by decide
def txHeld : State := { (txReady.setTx [⟨4, 0, 2, 1, 0, false, false, 5, 0, false, [1], 0, false⟩]) with raw := 65536 * 10 ^ 7 }
theorem test_tx_late : canonB txHeld = true ∧ (txHeld.findTx 4).isSome = true ∧ txHeld.linkUp 0 = false ∧ 0 + 10000000 * qNs ≤ txHeld.raw
    ∧ Store.get zNat txHeld.prt.linkRaw 0 + 10000000 * qNs ≤ txHeld.raw ∧ (txHeld.ringOf 0).st ≠ .disabled ∧ txHeld.findTx 5 = none := by decide
def stagedJob : Job := { blankJob 0 with id := 6, isReq := true, st := .staged, frame := [1, 2, 3], ring := 0 }
def rxReady : State :=
  let s := (desc 2 []).setRing 0 { dRing 0 with st := .enabled, posted := [(3, 131072)] }
  { s.setJobs [stagedJob] with raw := 65536 * 10 ^ 9 }
theorem test_rx_ready : canonB rxReady = true ∧ rxReady.findJob 6 = some stagedJob ∧ rxReady.rxFirst stagedJob = true
    ∧ rxReady.ringGone 0 = false ∧ rxReady.rxClaimable stagedJob = true := by decide
def rxEmpty : State := rxReady.setRing 0 { dRing 0 with st := .enabled }
theorem test_rx_starved : canonB rxEmpty = true ∧ rxEmpty.findJob 6 = some stagedJob ∧ rxEmpty.rxClaimable stagedJob = false
    ∧ stagedJob.since + rxEmpty.rd (ringFld 0 7 0 16) * 1000 * qNs ≤ rxEmpty.raw := by decide
def eventReady (st : RingSt) : State :=
  let s := (rings.wr (ringFld 1 1 20 12) 5).setRing 1 { dRing 1 with st := st, openBuf := some ⟨9, [262144], 0, 0, 0⟩ }
  { s with hif := { s.hif with evQ := [⟨1, 5, zeros 32⟩] }, raw := 65536 * 10 ^ 6 }
theorem test_event_ready : canonB (eventReady .enabled) = true ∧ (eventReady .enabled).tdc.q = [] ∧ ((eventReady .enabled).ringOf 1).st = .enabled
    ∧ (eventReady .enabled).ringKind 1 = 3 ∧ (eventReady .enabled).rd (ringFld 1 1 20 12) ≠ 0
    ∧ 0 + 48 ≤ 1 * (eventReady .enabled).bufSize 1 ∧ ((eventReady .error).ringOf 1).st ≠ .enabled ∧ canonB (eventReady .error) = true
    ∧ 0 + (eventReady .enabled).rd (ringFld 1 1 20 12) * 1000 * qNs ≤ (eventReady .enabled).raw := by decide
theorem test_functions : Store.wf dFn rings.hif.fns = true ∧ rings.owns 0 1 = true ∧ rings.owns 0 8 = false := by decide

def portUp : State := (((sv.wr (PRT.CTRL_EN 0) 1).wr (PRT.STAT_PRESENT 0) 1).setN (PRT.MAX_FRAME 0) 1522)
theorem test_port_locks : canonB portUp = true ∧ Store.wf zNat portUp.prt.stats = true ∧ Store.wf zNat portUp.prt.calFails = true
    ∧ portUp.portPresent 0 = true ∧ portUp.mode = 4 ∧ portUp.on (PRT.CTRL_EN 0) = true ∧ portUp.on (PRT.STAT_PRESENT 0) = true
    ∧ portUp.calFails 0 < 2 ∧ portUp.domState 0 < 2 := by decide
def locked : State := portUp.wr (PRT.STAT_PCS_LOCK 0) 1
theorem test_port_calibrates : canonB locked = true ∧ locked.on (PRT.STAT_PCS_LOCK 0) = true ∧ locked.on (PRT.STAT_LINK 0) = false
    ∧ portUp.on (PRT.STAT_PCS_LOCK 0) = false := by decide
def linked : State := (locked.wr (PRT.STAT_LINK 0) 1).wr (PRT.STAT_CAL_VALID 0) 1
def macFrame : List Byte := leBytes 6 0xFFFFFFFFFFFF ++ leBytes 6 5 ++ [8, 6] ++ zeros 50
theorem test_frame_taken : canonB linked = true ∧ Store.wf zNat linked.prt.verify = true ∧ linked.portPresent 0 = true
    ∧ linked.on (PRT.STAT_LINK 0) = true ∧ linked.mode ≠ 8 ∧ linked.domState 0 < 2 ∧ linked.pwr.sleep = none
    ∧ linked.fab.isolated.contains (Tok.request.key 0) = false ∧ linked.portDiscard 0 macFrame true = none
    ∧ (linked.portDiscard 0 macFrame false).isSome = true ∧ portUp.on (PRT.STAT_LINK 0) = false := by decide
def idlePort : State := { ((linked.wr (PRT.IDLE_CFG_SLEEP_EN 0) 1).wr (PRT.IDLE_CFG_IDLE_MS 0) 10) with raw := 65536 * 10 ^ 9 }
theorem test_port_idle : canonB idlePort = true ∧ idlePort.variant = .pyv1616 ∧ idlePort.on (PRT.IDLE_CFG_SLEEP_EN 0) = true
    ∧ idlePort.pwrBusy = false ∧ idlePort.calHolds 0 = false ∧ idlePort.on (PRT.SYNCE_CFG_ESMC_TX_EN 0) = false
    ∧ idlePort.rd (PRT.IDLE_CFG_IDLE_MS 0) ≤ idlePort.msSince (Store.get zNat idlePort.prt.idleRaw 0) := by decide
def wakingPort : State := ((linked.wr (domFld 0) 2).wr (PRT.STAT_SLEEPING 0) 1).startWake 0
theorem test_port_waking : canonB wakingPort = true ∧ (wakingPort.wakeOf 0).isSome = true ∧ linked.wakeOf 0 = none := by decide
def smallPort : State :=
  let s := (linked.wr (PRT.IDLE_CFG_DOWN_EN 0) 1).wr (PRT.IDLE_CFG_DOWN_PCT 0) 10
  { s with variant := .pyv1604, regs := s.regs.filter (fun e => resetWord .pyv1604 e.1 != e.2) }
theorem test_port_downshifts : canonB smallPort = true ∧ smallPort.portPresent 20 = false ∧ smallPort.variant ≠ .pyv1616 ∧ smallPort.portPresent 0 = true
    ∧ smallPort.on (PRT.IDLE_CFG_DOWN_EN 0) = true ∧ smallPort.on (PRT.STAT_DOWNSHIFTED 0) = false
    ∧ 3 < smallPort.rd (PRT.IDLE_CFG_DOWN_PCT 0) ∧ (smallPort.wr (PRT.STAT_DOWNSHIFTED 0) 1).on (PRT.STAT_DOWNSHIFTED 0) = true := by decide
def verifying : State := (linked.wr (PRT.CTRL_PREEMPT_EN 0) 1).wr (PRT.PREEMPT_CFG_VERIFY_EN 0) 1
theorem test_port_verifies : canonB verifying = true ∧ verifying.on (PRT.STAT_LINK 0) = true ∧ verifying.on (PRT.CTRL_PREEMPT_EN 0) = true
    ∧ verifying.on (PRT.PREEMPT_CFG_VERIFY_EN 0) = true ∧ verifying.on (PRT.STAT_PREEMPT_ACTIVE 0) = false
    ∧ Store.get zNat verifying.prt.verify 0 < 3 ∧ Store.get zNat (verifying.setVerify 0 2).prt.verify 0 = 2 := by decide
def snapCmd : HostCmd := cmd 11 1 (leBytes 4 1 ++ leBytes 1 0 ++ leBytes 1 16 ++ leBytes 2 1)
def statsCode (c : HostCmd) (s : State) : Nat := c.code [codeIf (c.u 5 1 == 0 || c.u 0 4 == 0) stZERO_LEN,
  codeIf (decide (1024 ≤ c.u 6 2) || !c.zero 8 32 || decide (64 < c.u 4 1 + c.u 5 1)
    || ((List.range 32).filter (fun q => bitAt (c.u 0 4) q)).any (fun q => !s.portPresent q)
    || !s.ringIs c.fn 3 (c.u 6 2 % 1024)) stREFUSED]
theorem test_stats_snap : canonB rings = true ∧ Store.wf dRing rings.hif.rings = true ∧ (rings.ringOf snapCmd.ring).st ≠ .disabled
    ∧ statsCode snapCmd rings = 0 ∧ statsCode (cmd 11 1 []) rings ≠ 0 := by decide
def snapDue : State := { (rings.wr (PRT.STATS_CTRL_PERIOD 0) 1).wr (PRT.STATS_CTRL_RING 0) 1 with raw := 65536 * 10 ^ 9 }
theorem test_stats_periodic : canonB snapDue = true ∧ snapDue.portPresent 0 = true ∧ 1 ≤ snapDue.rd (PRT.STATS_CTRL_PERIOD 0)
    ∧ snapDue.rd (PRT.STATS_CTRL_PERIOD 0) ≤ 10 ∧ snapDue.sec0 % 2 ^ (snapDue.rd (PRT.STATS_CTRL_PERIOD 0) - 1) = 0
    ∧ snapDue.qRoom 142 1 = true ∧ rings.rd (PRT.STATS_CTRL_PERIOD 0) = 0 := by decide
def esmcJob : Job := { blankJob 0 with id := 7, isReq := true, frame := esmcFrame (zeros 6) false 4 none }
def esmcIn : State := (linked.wr (PRT.SYNCE_CFG_ESMC_RX_EN 0) 1).setJobs [esmcJob]
theorem test_esmc_received : canonB esmcIn = true ∧ esmcIn.findJob 7 = some esmcJob ∧ esmcJob.st = .rx
    ∧ (esmcIn.jobEsmc esmcJob).isSome = true ∧ esmcIn.on (PRT.SYNCE_CFG_ESMC_TO_HOST 0) = false ∧ linked.findJob 7 = none := by decide
def esmcOld : State := { esmcIn with ref := { esmcIn.ref with esmcAt := [(0, 1)] }, raw := 65536 * 6 * 10 ^ 9 }
theorem test_esmc_silent : canonB esmcOld = true ∧ 0 < Store.get zNat esmcOld.ref.esmcAt 0
    ∧ Store.get zNat esmcOld.ref.esmcAt 0 - 1 + 5 * qSec ≤ esmcOld.raw ∧ Store.get zNat linked.ref.esmcAt 0 = 0 := by decide
def esmcOut : State := linked.wr (PRT.SYNCE_CFG_ESMC_TX_EN 0) 1
theorem test_esmc_sent : canonB esmcOut = true ∧ esmcOut.on (PRT.SYNCE_CFG_ESMC_TX_EN 0) = true ∧ esmcOut.on (PRT.STAT_LINK 0) = true
    ∧ esmcOut.findJob esmcOut.rsp.nextId = none ∧ esmcOut.esmcCode 0 ≠ esmcOut.rd (PRT.ESMC_STAT_TX_SSM 0)
    ∧ (esmcOut.wr (PRT.ESMC_STAT_TX_SSM 0) (esmcOut.esmcCode 0)).esmcCode 0 = (esmcOut.wr (PRT.ESMC_STAT_TX_SSM 0) (esmcOut.esmcCode 0)).rd (PRT.ESMC_STAT_TX_SSM 0) := by decide

def ipHead : List Byte := [0x45, 0] ++ beBytes 2 76 ++ zeros 4 ++ [64, 17, 0, 0] ++ beBytes 4 0x0A000002 ++ beBytes 4 0x0A000001
def ntpAsk : List Byte := beBytes 6 0x020000000001 ++ beBytes 6 0x020000000002 ++ beBytes 2 0x0800
  ++ setAt ipHead 10 (beBytes 2 (csumField (onesSum ipHead))) ++ beBytes 2 12345 ++ beBytes 2 123 ++ beBytes 2 56 ++ zeros 2
  ++ [0x23] ++ zeros 39 ++ beBytes 8 0x1122334455667788
def ruled (action : Nat) : State :=
  let s := ((linked.setN (Tbl.rspRules.key 0) (1 + 2 * action + 48 + 4096 + 2 ^ 23)).setN (Tbl.rspProfiles.key 12) (2 ^ 20)).setN
    (Tbl.rspProfiles.key 13) (7 + 1000 * 2 ^ 16)
  (((s.setN (Tbl.rspProfiles.key 14) 900).setN (Tbl.rspClasses.key 1) (100 + 16 * 2 ^ 16)).setN (Tbl.rspClasses.key 0) 1000)
def ntpJob : Job := { blankJob 0 with id := 9, isReq := true, frame := ntpAsk, rxT := List.replicate 64 0 }
def asking (action : Nat) (j : Job) : State := { (ruled action).setJobs [j] with raw := 65536 * 10 ^ 9 }
def askView : View := viewOf 0 ntpAsk
theorem test_request_arrives : canonB (asking 0 ntpJob) = true ∧ (asking 0 ntpJob).findJob 9 = some ntpJob ∧ ntpJob.st = .rx
    ∧ (asking 0 ntpJob).jobEsmc ntpJob = none ∧ (asking 0 ntpJob).modeServes 0 false = true ∧ (asking 0 ntpJob).jobNts ntpJob = false
    ∧ (ethOf ((asking 0 ntpJob).rd (PRT.VLAN_CFG_OUTER_TPID 0)) ntpAsk).bind (headerFault ntpAsk) = none
    ∧ ((asking 0 ntpJob).wr GLB.MODE_CURRENT 3).modeServes 0 false = false := by decide
theorem test_request_ruled : ((List.range 4).all fun a => (asking a ntpJob).classify ntpAsk 0 == some 0 && bitsOf ((asking a ntpJob).ruleWord 0 0) 1 2 == a
    && bitsOf ((asking a ntpJob).ruleWord 0 0) 4 6 == 3) = true ∧ (asking 0 ntpJob).prof 0 3 0 20 1 = 1 ∧ (asking 0 ntpJob).sideRoom 0 = true
    ∧ linked.classify ntpAsk 0 = none ∧ linked.on RSP.CTRL_DEFAULT_ACTION = false := by decide
theorem test_bucket_pays : ((asking 0 ntpJob).charge 0 0 0 (viewOf ((asking 0 ntpJob).rd (PRT.VLAN_CFG_OUTER_TPID 0)) ntpAsk) ((ntpAsk.drop 6).take 6)).2 = true := by decide
theorem test_request_served : ∃ k, (asking 0 ntpJob).pktOfJob ntpJob = some k ∧ k.v ≠ 0 ∧ ntpClient k.body = true ∧ k.body.length = 48
    ∧ (asking 0 ntpJob).castBad 0 0 k = false ∧ (asking 0 ntpJob).prof 0 3 0 0 2 = 0 ∧ (asking 0 ntpJob).prof 0 3 0 8 2 ≠ 2 := by
  refine ⟨_, rfl, ?_⟩; decide
def sideJob (st : JobSt) : Job := { ntpJob with st := st, maxRes := 5 }
theorem test_side_buffer : canonB (asking 0 (sideJob .declined)) = true ∧ (asking 0 (sideJob .declined)).findJob 9 = some (sideJob .declined)
    ∧ 0 + 5 * 1000 * qNs < (asking 0 (sideJob .declined)).raw := by decide
theorem test_seq_head : (asking 0 (sideJob .atSeq)).seqHead (3 / 8) = some (sideJob .atSeq) ∧ (asking 0 (sideJob .atSeq)).buildingOf 3 = none
    ∧ (asking 0 (sideJob .atSeq)).sideRoom 0 = true ∧ (sideJob .atSeq).slowOk = true ∧ seqReason 0x1A = true ∧ seqReason 0x16 = false
    ∧ (asking 0 (sideJob (.building 3))).buildingOf 3 = some (sideJob (.building 3)) ∧ linked.seqHead 0 = none := by decide
def slotJob : Job := { ntpJob with st := .wantSlot, inQ := true, tl := 65536 * 3 * 10 ^ 9, what := some (.ntp 0), out := some (rawOut ntpAsk), lead := 800 }
def departing (j : Job) : State := asking 0 j
theorem test_slot_fits : canonB (departing slotJob) = true ∧ LedgerBalanced (departing slotJob).fab.ledger ∧ (departing slotJob).domState 0 < 2 ∧ (departing slotJob).linkUp 0 = true
    ∧ ((departing slotJob).heldOn 0).length < 64 ∧ [1, 65536 * 2 * 10 ^ 9].find? ((departing slotJob).fits slotJob [1, 65536 * 2 * 10 ^ 9] 0) = some (65536 * 2 * 10 ^ 9)
    ∧ [1].find? ((departing slotJob).fits slotJob [1] 0) = none := by
  unfold LedgerBalanced; decide
def heldJob : Job := { slotJob with st := .held, inQ := false, slot := some (65536 * 2 * 10 ^ 9),
                                    pred := (departing slotJob).tsAt 0 (ofSigned 64 ((65536 * 2 * 10 ^ 9 : Int) + (departing slotJob).txLag 0)) }
theorem test_launch : canonB (departing heldJob) = true ∧ ((departing heldJob).tsAt 0 (ofSigned 64 ((65536 * 2 * 10 ^ 9 : Int) + (departing heldJob).txLag 0)) : Int) - heldJob.pred = 0
    ∧ (departing heldJob).rd RSP.CTRL_TOL_Q < (((departing heldJob).tsAt 0 (ofSigned 64 ((65536 * 2 * 10 ^ 9 : Int) + (departing heldJob).txLag 0)) : Int) - 0).natAbs
    ∧ (departing { heldJob with st := .again }).findJob 9 = some { heldJob with st := .again }
    ∧ (departing { heldJob with checked := true }).findJob 0 = none := by decide
def hostOut : State := { linked.setTx [⟨4, 0, 2, 1, 0, false, false, 5, 0, false, macFrame, 0, false⟩] with raw := 65536 * 10 ^ 7 }
theorem test_host_frame_leaves : canonB hostOut = true ∧ hostOut.findJob 4 = none ∧ (hostOut.findTx 4).isSome = true ∧ hostOut.linkUp 0 = true := by decide
def maintRsp : State := ((linked.wr GLB.MODE_CURRENT 6).setN GLB.MAINT_SET (2 ^ 13)).wr RSP.MAINT_QUADS_QUADS 1
theorem test_fence : canonB maintRsp = true ∧ maintRsp.quadPresent 0 = true ∧ maintRsp.mode = 6 ∧ maintRsp.maint 13 = true
    ∧ bitAt (maintRsp.rd RSP.MAINT_QUADS_QUADS) 0 = true ∧ maintRsp.on (RSP.Q_STAT_FENCED 0) = false ∧ maintRsp.rsp.jobs = []
    ∧ maintRsp.access 0 RSP.MAINT_QUADS .write = .granted ∧ linked.access 0 RSP.MAINT_QUADS .write = .granted
    ∧ linked.access 0 (RSP.Q_LAT 0) .write = .granted ∧ Store.wf dBucket linked.rsp.buckets = true := by decide
def swapped : State := { linked with rsp := { linked.rsp with draining := true } }
theorem test_bank_release : canonB swapped = true ∧ swapped.rsp.draining = true ∧ swapped.rsp.jobs = [] ∧ linked.rsp.draining = false := by decide

def ptpOn : State := { ((linked.setN (domKey 5 0) (1 + 2 ^ 11 + 2 ^ 15)).setN (domKey 5 1) 1).setN (domKey 5 6) (900 * 2 ^ 6) with raw := 65536 * 9999999700 }
theorem test_due_message : canonB ptpOn = true ∧ Store.wf dGrant ptpOn.ptp.grants = true ∧ ptpOn.findJob ptpOn.rsp.nextId = none
    ∧ ptpOn.calInfo (.mcast 5 0 false) = some ⟨5, 0, 0, qSec, 0⟩
    ∧ (⟨5, 0, 0, qSec, 0⟩ : CalInfo).dueBy (ptpOn.horizon ⟨5, 0, 0, qSec, 0⟩) = some (10 * qSec)
    ∧ ptpOn.handedTo (.mcast 5 0 false) (ptpOn.tsNow 0) < 10 * qSec ∧ ptpOn.modeServes 0 false = true
    ∧ ptpOn.calInfo (.mcast 6 0 false) = none := by decide
def granted1 : Grant := { dGrant 7 with valid := true, dom := 5, port := 0, logs := [0, 0, 0], live := 7, exps := [5, 20, 30] }
def granting : State := ptpOn.setGrant 7 granted1
theorem test_grant : canonB granting = true ∧ Store.wf dGrant granting.ptp.grants = true ∧ (granting.grantAt 7).valid = true
    ∧ bitAt (granting.grantAt 7).live 0 = true ∧ (granting.grantAt 7).exps.getD 0 0 ≤ granting.sec0
    ∧ granting.sec0 < (granting.grantAt 7).exps.getD 1 0 ∧ (granting.grantAt 7).inUse granting.sec0 = true
    ∧ ({ granting with raw := 65536 * 40 * 10 ^ 9 }.grantAt 7).inUse ({ granting with raw := 65536 * 40 * 10 ^ 9 }.sec0) = false
    ∧ granting.access 0 PTP.GRANT_CMD .write = .granted ∧ granting.quadPresent (7 / granting.variant.grants) = true
    ∧ (granting.grantAt 8).valid = false ∧ granted1.dom = 5 % 64 := by decide
def asksUp : State := (((linked.wr (PTP.UP_CFG_EN 1) 1).wr (PTP.UP_CFG_MODE 1) 1).wr (PTP.UP_CFG_DOMAIN 1) 5)
def holdsUp : State := { (asksUp.upGranted 1 0 true).setUpS 1 { dUpS 1 with nego := [⟨5, 65536⟩, ⟨0, 0⟩, ⟨0, 0⟩] } with raw := 0 }
theorem test_upstream : canonB asksUp = true ∧ asksUp.upAsks 1 0 = true ∧ asksUp.modeServes (asksUp.rd (PTP.UP_CFG_PORT 1) / 8) false = true
    ∧ asksUp.upHolds 1 0 = false ∧ (asksUp.negoOf 1 0).due ≤ asksUp.raw ∧ holdsUp.upHolds 1 0 = true ∧ holdsUp.upAsks 1 0 = true
    ∧ (holdsUp.negoOf 1 0).due ≤ (holdsUp.advance 131072).raw ∧ (holdsUp.negoOf 1 0).exp ≤ (holdsUp.advance 131072).raw
    ∧ linked.upAsks 1 0 = false := by decide
def renewable : State := (asksUp.upGranted 1 0 true).setUpS 1 { dUpS 1 with nego := [⟨0, 65536⟩, ⟨0, 0⟩, ⟨0, 0⟩] }
theorem test_upstream_renews : canonB renewable = true ∧ renewable.upHolds 1 0 = true ∧ (renewable.negoOf 1 0).due ≤ renewable.raw
    ∧ renewable.raw < (renewable.negoOf 1 0).exp := by decide
theorem test_announce_ok : (asksUp.wr (PTP.UP_STAT_ANN_OK 1) 1).on (PTP.UP_STAT_ANN_OK 1) = true
    ∧ ((asksUp.wr (PTP.UP_STAT_ANN_OK 1) 1).upq 1).annUntil ≤ 0 ∧ asksUp.on (PTP.UP_STAT_ANN_OK 1) = false := by decide
def mintCmd : HostCmd := cmd 15 1 (leBytes 8 4096 ++ leBytes 8 8192 ++ [2, 15])
def keyed : State := ((rings.wr NTS.MK_STAT_CUR_VALID 1).wr NTS.MK_CFG_SLOT_A 8).setKey 8 { noKey with valid := true, typ := 7, material := zeros 64 }
theorem test_mint : canonB keyed = true ∧ Store.wf dRing keyed.hif.rings = true ∧ (keyed.ringOf mintCmd.ring).st ≠ .disabled
    ∧ keyed.genUsable keyed.curSlot = true ∧ keyed.ntsForbids = false ∧ (keyed.pickPipe 0).isSome = true
    ∧ mintCmd.pre = 0 ∧ mintCmd.u 16 1 = 2 ∧ mintCmd.u 17 1 = 15 ∧ mintCmd.zero 18 32 = true ∧ rings.on NTS.MK_STAT_CUR_VALID = false
    ∧ (cmd 15 2 []).zero 0 32 = true ∧ (cmd 15 2 []).fn = 0 ∧ keyed.nts.rot = none := by decide
def rotating : State := { keyed with nts := { keyed.nts with rot := some (cmd 15 2 []) } }
theorem test_rotate : canonB rotating = true ∧ rotating.nts.rot = some (cmd 15 2 []) ∧ rotating.headOf (rotating.mkSlot rotating.nextSlot) = none := by decide
theorem test_pipe : unitPresent sv.variant 1 3 = true ∧ (sv.unit 1 3).unusable = false
    ∧ ((sv.pipeFail 3).unit 1 3).unusable = true := by decide

def pulsing : State := { sv.setPulse 2 { dPulse 2 with act := some ⟨65536 * 50, 0, 0, false⟩ } with raw := 65536 * 10 ^ 6 }
theorem test_trailing_edge : canonB pulsing = true ∧ Store.wf dPulse pulsing.evt.pulses = true ∧ (pulsing.pulse 2).act = some ⟨65536 * 50, 0, 0, false⟩
    ∧ (pulsing.pulse 2).waits = false ∧ cmpDiff (ofSigned 64 ((65536 * 50 : Int) - 0)) (pulsing.tsAt 0 (pulsing.raw + 65536)) < 0
    ∧ 0 ≤ cmpDiff (ofSigned 64 ((65536 * 50 : Int) - 0)) (sv.tsAt 0 (sv.raw + 65536)) ∧ (pulsing.pulse 3).act = none := by decide
def capturing : State := ((rings.wr (EVT.CAP_CFG_EN 3) 1).wr (EVT.CAP_CFG_EDGE 3) 2).wr (EVT.CAP_CFG_RING 3) 1
def captured : State := { capturing with evt := { capturing.evt with capRaw := [(3, 65536 * 100 + 1)] } }
theorem test_capture : canonB capturing = true ∧ capturing.on (EVT.CAP_CFG_EN 3) = true ∧ edgeSense (capturing.rd (EVT.CAP_CFG_EDGE 3)) true = true
    ∧ Store.get zNat capturing.evt.capRaw 3 = 0 ∧ capturing.qRoom 142 1 = true ∧ 0 < Store.get zNat captured.evt.capRaw 3
    ∧ 65536 * 110 + 1 < Store.get zNat captured.evt.capRaw 3 + 20 * qNs ∧ capturing.on (EVT.CAP_CFG_EN 4) = false := by decide
def schedCmd : HostCmd := cmd 10 1 (leBytes 12 (65536 * 10 ^ 9) ++ zeros 4 ++ leBytes 4 GNA.CTRL ++ leBytes 4 5)
def schedCode (c : HostCmd) (s : State) : Nat := c.code [
  codeIf (bitAt (c.u 12 1) 7 || !c.zero 13 16 || !c.zero 24 32 || c.u 16 4 % 4 != 0 || (rowAt (c.u 16 4)).isNone
    || s.absentReg (c.u 16 4) || schedBarred (c.u 16 4) || decide (s.tsNow (bitsOf (c.u 12 1) 0 6) + 2 ^ 63 ≤ c.u 0 12)) stREFUSED,
  codeIf (firstIdx 8 (fun j => (s.schedOf j).isNone)).isNone stBUSY,
  codeIf (c.fn != 0 && !s.on EVT.CTRL_SCHED_VF) stDENIED,
  codeIf (decide (c.u 0 12 < s.tsNow (bitsOf (c.u 12 1) 0 6)) && !bitAt (c.u 12 1) 6) stSTALE,
  codeIf s.modeNoCmd stMODE_FORBIDS]
theorem test_schedule : schedCode schedCmd rings = 0 ∧ schedCode (cmd 10 1 (zeros 13 ++ [1])) rings ≠ 0 ∧ rings.tsNow 0 ≤ schedCmd.u 0 12
    ∧ (firstIdx 8 (fun j => (rings.schedOf j).isNone)) = some 0 := by decide
def scheduled : State := rings.setSched 2 (some ⟨schedCmd, 0, 7, false, 0, 5⟩)
theorem test_schedule_cancel : canonB scheduled = true ∧ (scheduled.ringOf schedCmd.ring).st ≠ .disabled
    ∧ (List.range 8).filter (fun j => ((cmd 10 2 [0xFF]).u 0 1 == 0xFF || (cmd 10 2 [0xFF]).u 0 1 == j) &&
        (match scheduled.schedOf j with | some x => x.cmd.fn == (cmd 10 2 [0xFF]).fn | none => false)) = [2]
    ∧ (cmd 10 2 [0xFF]).zero 1 32 = true := by decide
def vidWaits : State := { (sv.wr (VID.OUT_CFG_FORMAT 1) 1).setVout 1 { dVOut 1 with waiting := some 0 } with raw := 65536 * 10 ^ 9 }
theorem test_video_start : canonB vidWaits = true ∧ Store.wf dVOut vidWaits.vid.outs = true ∧ (vidWaits.vout 1).waiting = some 0
    ∧ vidWaits.vidOn = true ∧ vidWaits.on VID.STAT_MUTED = false
    ∧ (vidWaits.voGrid 1).idx ((0 : Int) - vidWaits.voDelayNow 1 * 256) < vidWaits.voIdx 1 ∧ (vidWaits.vout 2).waiting = none
    ∧ ({ vidWaits with raw := 0 } : State).voIdx 1 ≤ (vidWaits.voGrid 1).idx ((0 : Int) - ({ vidWaits with raw := 0 } : State).voDelayNow 1 * 256) := by decide
def vidWalks : State := { sv.setVout 1 { dVOut 1 with running := true, walk := some ⟨0, 5, 0⟩ } with raw := 65536 * 10 ^ 11 }
theorem test_video_walk : canonB vidWalks = true ∧ (vidWalks.vout 1).walk = some ⟨0, 5, 0⟩ ∧ (vidWalks.vout 2).walk = none
    ∧ walkAt ⟨0, 5, 0⟩ (vidWalks.rd DSC.PULL_CFG_SLOPE) (vidWalks.tsNow 0) = 5 := by decide
def ltcRuns : State := { ((sv.wr (VID.LTC_CFG_RATE 0) 1).setVout 4 { dVOut 4 with running := true }) with raw := 65536 * 3661000000000 }
theorem test_ltc : canonB ltcRuns = true ∧ (ltcRuns.vout 4).running = true ∧ ltcRuns.vidOn = true ∧ (ltcRuns.vout 4).startIdx ≤ ltcRuns.voIdx 4
    ∧ ltcRuns.vid.lastFrame = [] ∧ (ltcRuns.vout 5).running = false := by decide
def genlock (good : Nat) : State := ((sv.wr VID.GL_CFG_EN 1).wr VID.GL_CFG_FORMAT 1).wr VID.GL_STAT_GOOD good
theorem test_genlock : canonB (genlock 7) = true ∧ (genlock 7).on VID.GL_CFG_EN = true ∧ (genlock 7).on VID.SEQ_STAT_FAULT1 = false
    ∧ vidFormat ((genlock 7).rd VID.GL_CFG_FORMAT) = some ⟨625, 1, 25, 4⟩
    ∧ (((65536 * 40000000 * 25 : Nat) : Int) - ((1 * qSec : Nat) : Int)).natAbs * 10000 ≤ 1 * qSec ∧ sv.on VID.GL_CFG_EN = false
    ∧ ((genlock 7).wr VID.GL_STAT_LOCKED 1).on VID.GL_STAT_LOCKED = true ∧ sv.access 0 VID.POS_CTRL .write = .granted := by decide

theorem test_tb_present : canonB sv = true ∧ Store.wf dTBase sv.tdc.bases = true ∧ Store.wf dTCh sv.tdc.chs = true
    ∧ sv.on TDC.TB_STAT_PRESENT = false ∧ sv.tdcOn = true ∧ (5 : Int).natAbs ≤ sv.rd TDC.TB_CFG_WIN_PPM * 100
    ∧ sv.rd TDC.TB_CFG_WIN_PPM * 100 < (2 ^ 20 : Int).natAbs := by decide
def tbUp : State := (sv.wr TDC.TB_STAT_PRESENT 1).wr TDC.TB_STAT_LOCKED 1
theorem test_tb_up : canonB tbUp = true ∧ tbUp.on TDC.TB_STAT_PRESENT = true ∧ tbUp.on TDC.TB_STAT_LOCKED = true
    ∧ tbUp.tdc.tbRaw + tbUp.rd TDC.TB_CFG_SETTLE_S * qSec ≤ (tbUp.advance (2 ^ 60)).raw ∧ tbUp.baseEdges 0 = true
    ∧ tbUp.access 0 TDC.ANCHOR_CTRL .write = .granted ∧ (tbUp.wr TSC.LO_STAT_GR_READY 1).baseEdges 1 = true ∧ tbUp.baseEdges 1 = false
    ∧ sv.baseEdges 0 = false := by decide
theorem test_tb_not_settled : (tbUp.wr TDC.TB_CFG_SETTLE_S 5).raw < (tbUp.wr TDC.TB_CFG_SETTLE_S 5).tdc.tbRaw + (tbUp.wr TDC.TB_CFG_SETTLE_S 5).rd TDC.TB_CFG_SETTLE_S * qSec := by decide
def goodHist : List Nat := List.replicate 256 4096
def measuring : State := (((tbUp.wr (TDC.CH_CFG_EN 3) 1).wr (TDC.CH_CFG_DIV 3) 1).wr (TDC.CH_GATE_GATE_MS 3) 10).setTch 3 { dTCh 3 with on := true, tblA := goodHist, offA := some 0 }
def justStamped : State := measuring.setTch 3 { measuring.tch 3 with lastT := some (ofSigned 96 (tdcTime (measuring.tbase (baseOf 3)).anchor 1000 (binMid goodHist 9) 0 (measuring.sreg (TDC.CH_DELAY 3)))) }
theorem test_tdc_edge : canonB measuring = true ∧ Store.wf dTCh measuring.tdc.chs = true ∧ measuring.tdcOn = true
    ∧ edgeSense (measuring.rd (TDC.CH_CFG_EDGE 3)) true = true ∧ measuring.on (TDC.CH_STAT_UNUSABLE 3) = false
    ∧ measuring.rd (TDC.CH_CFG_DIV 3) ≤ (measuring.tch 3).div + 1 ∧ (measuring.tch 3).on = true ∧ (measuring.tch 3).lastT = none
    ∧ (measuring.wr (TDC.CH_CFG_DIV 3) 4).rd (TDC.CH_CFG_DIV 3) = 4 ∧ (justStamped.tch 3).lastT.isSome = true := by decide
def gating : State := (measuring.wr (TDC.CH_CFG_FREQ_EN 3) 1).setTch 3 { measuring.tch 3 with gate := some ⟨0, 0, 0, 0, 0, 0, 0, 0, 0, 0, false, false, true, false, false⟩ }
theorem test_tdc_gate : canonB gating = true ∧ gating.gateLen 3 ≠ 0 ∧ gating.on (TDC.CH_CFG_FREQ_EN 3) = true
    ∧ 0 ≠ baseTime (gating.tbase (baseOf 3)).anchor (5 * 10 ^ 7) / gating.gateLen 3
    ∧ 0 = baseTime (gating.tbase (baseOf 3)).anchor 5 / gating.gateLen 3 := by decide
def calibrating (on : Bool) : State := measuring.setTch 3 { dTCh 3 with on := on, cal := some (false, .hits) }
theorem test_tdc_cal : canonB (calibrating false) = true ∧ ((calibrating false).tch 3).cal = some (false, .hits) ∧ (measuring.tch 3).cal = none
    ∧ (measuring.tch 3).rej (measuring.tch 3).idle < 3 := by decide
set_option maxRecDepth 10000 in
theorem test_tdc_hist : goodHist.length = 256 ∧ goodHist.sum = 2 ^ 20 ∧ calAccepts goodHist = true := by decide
set_option maxRecDepth 10000 in
theorem test_tdc_bad_hist : ((List.replicate 64 16384) ++ List.replicate 192 0).length = 256 ∧ ((List.replicate 64 16384) ++ List.replicate 192 0).sum = 2 ^ 20
    ∧ calAccepts ((List.replicate 64 16384) ++ List.replicate 192 0) = false := by decide
def sharing (n : Nat) : State := measuring.setTch 3 { measuring.tch 3 with cal := some (true, .shared n 7 0) }
theorem test_tdc_swap : canonB (sharing 4096) = true ∧ ((sharing 4096).tch 3).cal = some (true, .shared 4096 7 0)
    ∧ ((sharing 5).tch 3).cal = some (true, .shared 5 7 0) ∧ (sharing 5).raw < 0 + 100000000 * qNs := by decide

def running (n : Nat) (words : List Nat) (x : Sq) : State :=
  { sv.setSq n { x with st := .run, a := ⟨words.map (BitVec.ofNat 32), [], 0, 1, 1, 0⟩ } with raw := 65536 * 10 ^ 6 }
def allow (s : State) (m t : Nat) : State :=
  ((s.setN (Tbl.aclBase.key (16 * t + 15)) 0).setN (Tbl.aclLimit.key (16 * t + 15)) 0xFFFFF).setN (Tbl.aclRights.key (128 * (16 * t + 15) + m)) 15
def sq3 : Sq := { dSq 0 with w := [(1, 7), (2, 0xFFFFFFFE)] }
def word3 (op d a b : Nat) : Nat := op * 2 ^ 26 + d * 2 ^ 22 + a * 2 ^ 18 + b * 2 ^ 14
theorem test_fetches : canonB (running 3 [word3 1 5 1 2, 0, 0] sq3) = true ∧ (running 3 [word3 1 5 1 2, 0, 0] sq3).sqReady 3 = true
    ∧ ((running 3 [word3 1 5 1 2, 0, 0] sq3).sq 3).active.words[((running 3 [word3 1 5 1 2, 0, 0] sq3).sq 3).pc]? = some (BitVec.ofNat 32 (word3 1 5 1 2))
    ∧ ((running 3 [word3 1 5 1 2, 0, 0] sq3).sq 3).pc + 1 < ((running 3 [word3 1 5 1 2, 0, 0] sq3).sq 3).active.words.length
    ∧ Store.wf zWord ((running 3 [word3 1 5 1 2, 0, 0] sq3).sq 3).w = true := by decide
theorem test_decode_add : sqDecode (word3 1 5 1 2) = some (.alu 1 5 1 2) := by decide
theorem test_decode_bne : sqDecode 0x84C3FFFC = some (.br 0x21 3 0 (2 ^ 18 - 4)) := by decide
theorem test_decode_illegal : sqDecode (0x3F * 2 ^ 26) = none ∧ sqDecode (word3 1 5 1 2 + 1) = none ∧ sqDecode (0x32 * 2 ^ 26 + 2 ^ 22) = none := by decide
theorem test_umber_add : let u := nx (execSeqAdd 3 false 0 (running 3 [word3 1 5 1 2, 0, 0] sq3)) sv
    (u.sq 3).reg 5 = 5 ∧ (u.sq 3).c = true ∧ (u.sq 3).pc = 1 := by decide
theorem test_umber_mulh : let u := nx (execSeqMulh 3 false 0 (running 3 [word3 12 5 1 2, 0, 0] sq3)) sv
    (u.sq 3).reg 5 = 0xFFFFFFFF ∧ (u.sq 3).c = false := by decide
theorem test_umber_lui : let u := nx (execSeqLui 3 false 0 (running 3 [0x17 * 2 ^ 26 + 4 * 2 ^ 22 + 0x3FFFF, 0] sq3)) sv
    (u.sq 3).reg 4 = 0xFFFFC000 := by decide
theorem test_not_running : sv.sqReady 3 = false ∧ (sv.sq 3).st ≠ .wait ∧ (sv.sq 3).fldTo = none := by decide
def fldWaits : State := (allow (running 3 [0, 0] { sq3 with fldTo := some (4, 25 * 2 ^ 27, 0) }) 67 25).setSeqS (fun x => { x with sram := [(25 * 2 ^ 27, some 9)] })
theorem test_fld : canonB fldWaits = true ∧ (fldWaits.sq 3).fldTo = some (4, 25 * 2 ^ 27, 0) ∧ fldWaits.sramWord (25 * 2 ^ 27) = some 9
    ∧ (fldWaits.sq 3).pc + 1 < (fldWaits.sq 3).active.words.length ∧ fldWaits.raw = 65536 * 10 ^ 6 ∧ 10000 * qNs ≤ fldWaits.raw := by decide
def swapping : State := (allow (running 3 [0x30 * 2 ^ 26, 0] { sq3 with b := ⟨[0, 0, 0], [], 1, 2, 2, 0⟩, idleOk := true }) 67 19).setSwaps [⟨[3], [3], false, false, 0, none, 0⟩]
theorem test_safe_swap : canonB swapping = true ∧ swapping.swapOf 3 = some ⟨[3], [3], false, false, 0, none, 0⟩ ∧ swapping.sqArmed 3 = true
    ∧ swapping.mayRun 3 (!(swapping.sq 3).bankB) = true ∧ (swapping.sq 3).haltPend = false := by decide
theorem test_wait_events : (({ sq3 with events := 6 } : Sq).events &&& 2) ≠ 0 ∧ sq3.events &&& 2 = 0 := by decide
def stalled : State := let s := running 3 [0x31 * 2 ^ 26, 0] { sq3 with waitOn := some (4, 6), events := 2 }
  s.setSq 3 { s.sq 3 with st := .wait }
theorem test_wait_wakes : canonB stalled = true ∧ (stalled.sq 3).st = .wait ∧ (stalled.sq 3).waitOn = some (4, 6) ∧ (stalled.sq 3).events &&& 6 ≠ 0
    ∧ (stalled.sq 3).pc + 1 < (stalled.sq 3).active.words.length := by decide
theorem test_fab_rights : (allow (running 3 [0, 0] sq3) 67 25).fabAccess 67 (25 * 2 ^ 27) .read ≠ .denied
    ∧ fldWaits.granted 67 25 0 .read = true ∧ (allow (running 3 [0, 0] sq3) 67 25).granted 67 25 0 .write = true
    ∧ (running 3 [0, 0] sq3).fabAccess 67 0 .write = .denied := by decide

def sel3 (x : Sq) (st : SqSt) : State :=
  let s := (allow (running 3 [0, 0] x) 67 19).wr ⟨Tbl.seqSel.key 0, 0, 6⟩ 3
  s.setSq 3 { s.sq 3 with st := st }
theorem test_seq_selected : canonB (sel3 sq3 .run) = true ∧ (sel3 sq3 .run).selSeq 0 = 3 ∧ (sel3 sq3 .run).access 0 SEQ.SWAP_CTRL .write = .granted
    ∧ (sel3 sq3 .run).access 0 SEQ.RUN_CTRL .write = .granted ∧ (sel3 sq3 .run).access 0 SEQ.LD_DATA .write = .granted ∧ placeOf 3 ≠ 3
    ∧ (sel3 sq3 .run).seqPresent 3 = true ∧ (sel3 sq3 .run).modeNoCmd = false ∧ (sel3 sq3 .run).sqArmed 3 = false := by decide
theorem test_swap_arm : let x := ({ sq3 with b := ⟨[0], [], 0, 2, 2, 0⟩, idleOk := true } : Sq)
    lowestCode [codeIf (!(sel3 x .run).seqPresent 3 || !((sel3 x .run).sq 3).idleOk || (!true && ((sel3 x .run).sq 3).idle.layout != ((sel3 x .run).sq 3).active.layout)) stREFUSED,
      codeIf ((sel3 x .run).sqArmed 3 || (sel3 x .run).seq.swaps.any (fun w => w.cmd.isSome)) stBUSY,
      codeIf ((sel3 x .run).modeNoCmd || ((sel3 x .run).mode == 10 && placeOf 3 == 3)) stMODE_FORBIDS] = 0 := by decide
def armed3 : State := { ((sel3 sq3 .run).setSwaps [⟨[3], [3], false, false, 0, none, 0⟩]) with raw := 65536 * 10 ^ 12 }
theorem test_swap_armed : canonB armed3 = true ∧ armed3.sqArmed 3 = true ∧ armed3.swapOf 3 = some ⟨[3], [3], false, false, 0, none, 0⟩
    ∧ 0 + armed3.rd SEQ.CTRL_SWAP_TO * 1000000 * qNs ≤ armed3.raw ∧ sv.swapOf 3 = none
    ∧ ({ armed3 with raw := 0 } : State).raw < 0 + armed3.rd SEQ.CTRL_SWAP_TO * 1000000 * qNs := by decide
def provisioned (st : SqSt) : State := (sel3 sq3 st).wr GLB.MODE_CURRENT 3
theorem test_halt_mode : canonB (provisioned .run) = true ∧ (provisioned .run).haltMode = true ∧ (provisioned .run).selSeq 0 = 3
    ∧ (provisioned .run).access 0 SEQ.RUN_CTRL .write = .granted ∧ (provisioned .halted).mayRun 3 ((provisioned .halted).sq 3).bankB = true
    ∧ ((provisioned .halted).sq 3).st = .halted ∧ (provisioned .halted).modeNoCmd = false ∧ (sel3 sq3 .run).haltMode = false := by decide
def faulted3 (code : Nat) : State := { (sel3 sq3 .faulted).wr ⟨Tbl.seqWdog.key 3, 16, 2⟩ code with raw := 65536 * 10 ^ 7 }
theorem test_auto_restart : canonB (faulted3 1) = true ∧ ((faulted3 1).sq 3).st = .faulted ∧ (faulted3 1).wdogRestart 3 = 1 ∧ (faulted3 2).wdogRestart 3 = 2
    ∧ ((faulted3 1).sq 3).stopRaw + 1000 * qNs ≤ (faulted3 1).raw ∧ ((faulted3 1).sq 3).restartsRaw = []
    ∧ 0 < (faulted3 1).rd SEQ.CTRL_RESTART_MAX ∧ (faulted3 1).mayRun 3 ((faulted3 1).sq 3).bankB = true
    ∧ ((faulted3 1).wr SEQ.CTRL_RESTART_MAX 0).rd SEQ.CTRL_RESTART_MAX = 0 := by decide
theorem test_watchdog_due : let s := ({ sel3 sq3 .run with raw := 65536 * 10 ^ 12 } : State)
    canonB s = true ∧ (s.sq 3).safeRaw + s.wdogPeriod 3 * 10000 * qNs ≤ s.raw ∧ (s.sq 3).st = .run ∧ (s.sq 3).pc < 4096
    ∧ ({ s with raw := 0 } : State).raw < (s.sq 3).safeRaw + s.wdogPeriod 3 * 10000 * qNs := by decide
theorem test_prog_refused : rings.progCode (cmd 19 1 [1]) none ≠ 0 := by decide

def keyCmd (op : Nat) (p : List Byte) : HostCmd := cmd 17 op p
def withRights : State := allow (allow rings 0 17) 108 17
def aesKey : Key := ⟨true, false, true, false, 6, 3, 0, 1, 0, 256, 0, 0, 0, natBlock 32 99⟩
def keyedAes : State := withRights.setKey 5 aesKey
def genCmd : HostCmd := keyCmd 2 (leBytes 1 6 ++ leBytes 1 3 ++ leBytes 4 0 ++ leBytes 2 6 ++ leBytes 4 77)
theorem test_generate_accepted : canonB keyedAes = true ∧ Store.wf dKey keyedAes.key.slots = true ∧ Store.wf dPkQ keyedAes.pke.queues = true
    ∧ Store.wf dRing keyedAes.hif.rings = true ∧ (keyedAes.ringOf genCmd.ring).st ≠ .disabled ∧ keyedAes.generateCode genCmd = 0
    ∧ keyedAes.pkPick 7 = some 0 ∧ keyedAes.generateCode (keyCmd 2 (leBytes 1 9)) ≠ 0 := by decide
def blobAt : State := keyedAes.setBytes 4096 (leBytes 1 1 ++ leBytes 1 6 ++ leBytes 1 3 ++ leBytes 1 0 ++ leBytes 2 256)
def importCmd : HostCmd := keyCmd 1 (leBytes 8 4096 ++ leBytes 4 76 ++ leBytes 2 7 ++ leBytes 2 5 ++ leBytes 4 77)
theorem test_import_accepted : canonB blobAt = true ∧ blobAt.importCode importCmd (blobAt.bytesAt 4096 16) = 0
    ∧ blobAt.importCode (keyCmd 1 []) (blobAt.bytesAt 0 16) ≠ 0 := by decide
def randomCmd : HostCmd := cmd 16 1 (leBytes 1 11 ++ leBytes 1 0 ++ leBytes 1 7 ++ leBytes 1 0 ++ leBytes 2 32768 ++ leBytes 2 0 ++ leBytes 12 0 ++ leBytes 8 8192 ++ leBytes 4 16)
set_option maxRecDepth 10000 in
theorem test_random_accepted : keyedAes.pkRunCode randomCmd = 0 ∧ keyedAes.pkPick (randomCmd.u 2 1 % 8) = some 0 ∧ bitAt (randomCmd.u 3 1) 0 = false
    ∧ keyedAes.pkRunCode (cmd 16 1 []) ≠ 0 := by decide
def zeroCmd : HostCmd := keyCmd 3 (leBytes 2 5)
theorem test_zeroise_accepted : zeroCmd.code [codeIf (bitsOf (zeroCmd.u 0 2) 10 5 != 0 || !zeroCmd.zero 2 32
      || (!bitAt (zeroCmd.u 0 2) 15 && ((5 : Nat) == 0 || (!(keyedAes.keyAt 5).valid && (keyedAes.headOf 5).isSome)))) stREFUSED,
    codeIf ((bitAt (zeroCmd.u 0 2) 15 && zeroCmd.fn != 0) || (!bitAt (zeroCmd.u 0 2) 15 && keyedAes.vfDenied zeroCmd.fn 2)
      || [5].any (fun h => !keyedAes.spanWritable zeroCmd.fn h (keyedAes.keyAt h).span)) stDENIED,
    codeIf (!bitAt (zeroCmd.u 0 2) 15 && (5 : Nat) != 0 && (keyedAes.headOf 5).isNone) stZERO_LEN,
    codeIf (keyedAes.modeNoCmd || keyedAes.mode == 10) stMODE_FORBIDS] = 0 ∧ (keyedAes.keyAt 5).span = 1 := by decide
def zeroAllCmd : HostCmd := keyCmd 3 (leBytes 2 32768)
theorem test_zeroise_all_accepted : zeroAllCmd.code [codeIf (bitsOf (zeroAllCmd.u 0 2) 10 5 != 0 || !zeroAllCmd.zero 2 32) stREFUSED,
    codeIf ([5].any (fun h => !keyedAes.spanWritable zeroAllCmd.fn h (keyedAes.keyAt h).span)) stDENIED] = 0
    ∧ bitAt (zeroAllCmd.u 0 2) 15 = true ∧ (keyedAes.key.slots.filter (fun x => x.1 != 0 && x.2.valid)).map (·.1) = [5] := by decide
def rsaCmd : HostCmd := cmd 16 1 (leBytes 1 9 ++ leBytes 3 0 ++ leBytes 2 32768 ++ leBytes 2 0 ++ leBytes 12 0 ++ leBytes 8 8192 ++ leBytes 4 2)
def rsaJob : PkJob := ⟨rsaCmd, 0, none, true, 0, natBlock 2 3233 ++ natBlock 8 17 ++ natBlock 2 65⟩
def rsaRuns : State := { (keyedAes.setPkQ 0 [rsaJob]).issue .keytok 0 1 with raw := 65536 * 10 ^ 6 }
theorem test_rsa_job : canonB rsaRuns = true ∧ Store.wf dPkQ rsaRuns.pke.queues = true ∧ rsaRuns.pkQ 0 = [rsaJob] ∧ rsaRuns.engOf 0 = some 0
    ∧ (rsaRuns.ringOf rsaCmd.ring).st ≠ .disabled ∧ rsaJob.fn = 9 ∧ rsaJob.none = true ∧ rsaJob.input.length = 2 * 2 + 8
    ∧ blockNat (rsaJob.input.drop 10) = 65 ∧ 0 + 85000 * qNs ≤ rsaRuns.raw := by decide
theorem test_rsa_public : (nx (execPkJobComplete 0 none [] 0 rsaRuns) sv).bytesAt 8192 2 = natBlock 2 2790 := by decide
theorem test_no_job : keyedAes.pkQ 1 = [] := by decide
def keyRuns (p : Bool) : State := (withRights.setKey 5 { aesKey with poisoned := p }).setSq 44 { dSq 44 with st := .run }
theorem test_key_use : canonB (keyRuns false) = true ∧ (keyRuns false).engOf 0 = some 0 ∧ ((keyRuns false).sq 44).st = .run
    ∧ (keyRuns false).mayUse 108 5 = true ∧ ((keyRuns false).keyAt 5).valid = true ∧ ((keyRuns false).keyAt 5).writing = false
    ∧ ((keyRuns false).keyAt 5).poisoned = false ∧ ((keyRuns true).keyAt 5).poisoned = true
    ∧ (((keyRuns false).keyAt 5).parts ((keyRuns false).curveOf 0).lp)[0]? = some 99 ∧ rings.mayUse 108 5 = false := by decide
def rowRuns : State := let s := ((keyRuns false).setOperand 0 3 7).setOperand 0 4 (2 ^ 64 - 1)
  { s with pke := { s.pke with rows := [(0, some ⟨3, 4, 2, 5, 64⟩)] } }
theorem test_row : canonB rowRuns = true ∧ Store.wf zNat rowRuns.pke.opmem = true ∧ rowRuns.engOf 0 = some 0
    ∧ Store.get (fun _ => (none : Option RowOp)) rowRuns.pke.rows 0 = some ⟨3, 4, 2, 5, 64⟩
    ∧ Store.wf (fun _ => (none : Option RowOp)) rowRuns.pke.rows = true := by decide
theorem test_row_sum : (nx (execRowDone 0 0 rowRuns) sv).operand 0 3 = 10 := by decide
theorem test_kat : unitPresent keyedAes.variant 2 1 = true ∧ (keyedAes.unit 2 1).unusable = false ∧ unitPresent keyedAes.variant 2 9 = false := by decide
set_option maxRecDepth 10000 in
theorem test_no_engine : (nx (execPkeKat 0 false 0 (nx (execPkeKat 0 false 0 (nx (execPkeKat 4 false 0 keyedAes) sv)) sv)) sv).engOf 0 = none := by decide
set_option maxRecDepth 10000 in
theorem test_find : keyedAes.access 0 KEY.FIND_CTRL .write = .granted ∧ keyedAes.spanTaken 1 1 = false ∧ keyedAes.spanTaken 5 1 = true
    ∧ (nx (execFindGo 0 5 0 keyedAes) sv).nreg KEY.FIND_RESULT = 6 + 2 ^ 16 := by decide

def flsCmd (op : Nat) (p : List Byte) : HostCmd := cmd 20 op p
def medium : State := rings.wr FLS.STAT_MEDIUM_OK 1
def appendCmd (sync : Nat) : HostCmd := flsCmd 1 (leBytes 1 2 ++ leBytes 1 9 ++ leBytes 1 sync ++ leBytes 1 0 ++ leBytes 8 77)
theorem test_append_accepted : canonB medium = true ∧ Store.wf (fun _ => noImg) medium.fls.imgs = true ∧ Store.wf zNat medium.fls.minVer = true
    ∧ (medium.ringOf (appendCmd 0).ring).st ≠ .disabled ∧ medium.flsCode (appendCmd 0) false = 0 ∧ medium.qRoom 141 1 = true
    ∧ medium.flsCode (flsCmd 1 []) false = stZERO_LEN := by decide
def appended (sync : Nat) : State := nx (execJournalAppend (appendCmd sync) 0 medium) sv
def noQueue : State := medium.issue .credit 141 4096
theorem test_append_no_room : noQueue.qRoom 141 1 = false ∧ noQueue.flsCode (appendCmd 0) false = 0 ∧ canonB noQueue = true := by decide
theorem test_append_waits : canonB (appended 0) = true ∧ (appended 0).jrn.q.length = 1
    ∧ (appended 1).fls.apps.find? (fun y => y.1 == (appended 1).fls.taken && y.2.2.isNone) = some ((appended 1).fls.taken, appendCmd 1, none) := by decide
def goodCopy : CopyCheck := ⟨true, true, 3, true, []⟩
def writeCmd : HostCmd := flsCmd 2 (leBytes 8 4096 ++ leBytes 4 4 ++ leBytes 1 2 ++ leBytes 1 2)
theorem test_write_accepted : medium.flsCode writeCmd false = 0 ∧ medium.flsCode writeCmd true = stBUSY ∧ medium.copyCode 2 goodCopy = stOK
    ∧ medium.copyCode 2 { goodCopy with sigOk := false } = stSIGNATURE_BAD := by decide
def written : State := medium.setImg 2 2 ⟨true, 3, [1, 2, 3, 4]⟩
def commitCmd (raise : Nat) : HostCmd := flsCmd 3 (leBytes 1 2 ++ leBytes 1 2 ++ leBytes 1 raise)
theorem test_commit_accepted : canonB written = true ∧ Store.wf (fun _ => noImg) written.fls.imgs = true ∧ written.flsCode (commitCmd 0) false = 0
    ∧ (written.setImg 2 3 ⟨true, 3, []⟩).flsCode (commitCmd 1) false = 0 ∧ written.flsCode (commitCmd 1) false = stREFUSED
    ∧ (commitCmd 0).opcode = 3 := by decide
def readCmd : HostCmd := flsCmd 4 (leBytes 1 2 ++ leBytes 1 0x22 ++ leBytes 6 1 ++ leBytes 4 2 ++ leBytes 8 8192 ++ leBytes 4 2)
theorem test_read_accepted : written.flsCode readCmd false = 0 ∧ written.readUnits 2 0x22 1 2 = [some [2], some [3]] := by decide
theorem test_no_answer : writeCmd.block = 20 ∧ medium.fls.apps = [] ∧ (appended 1).fls.apps.map (·.2.1) = [appendCmd 1] := by decide
def filled (n : Nat) : State := { medium with jrn := { medium.jrn with buf := (List.range n).map (fun i => (⟨i, 0, ⟨0, 10, 20, false, 0, []⟩, 0⟩ : JBuf)) }, raw := 65536 * 10 ^ 14 }
set_option maxRecDepth 10000 in
theorem test_page_full : canonB (filled 240) = true ∧ (filled 240).jrn.buf.length = 240 ∧ ((filled 240).jrn.buf.take 240).getLast? = some ⟨239, 0, ⟨0, 10, 20, false, 0, []⟩, 0⟩
    ∧ (filled 240).canProgram = true ∧ (filled 240).domState 41 = 0 ∧ 8 < (filled 240).jrnFree := by decide
set_option maxRecDepth 10000 in
theorem test_flush_due : (filled 2).jrn.buf.head? = some ⟨0, 0, ⟨0, 10, 20, false, 0, []⟩, 0⟩ ∧ 0 + (filled 2).rd FLS.CTRL_FLUSH_S * qSec ≤ (filled 2).raw
    ∧ 0 < 0 + (filled 2).rd FLS.CTRL_FLUSH_S * qSec := by decide
set_option maxRecDepth 10000 in
theorem test_ka_cycle : (filled 1536).jrn.buf.length = 1536 ∧ ((filled 1536).wr GLB.MODE_CURRENT 8).mode = 8 := by decide
theorem test_scrub_due : let s := (medium.wr FLS.CTRL_SCRUB_DAYS 0)
    s.on FLS.STAT_SCRUBBING = false ∧ s.mediumOk = true ∧ s.domState 41 = 0 ∧ s.fls.scrubSec + s.rd FLS.CTRL_SCRUB_DAYS * 86400 ≤ s.sec0
    ∧ medium.sec0 < medium.fls.scrubSec + medium.rd FLS.CTRL_SCRUB_DAYS * 86400 := by decide
def worn : State := { medium.setN FLS.WEAR (10 + 2 ^ 16 * 80) with raw := 65536 * 10 ^ 12 }
theorem test_wear_due : canonB worn = true ∧ worn.nreg FLS.WEAR % 2 ^ 16 + 64 < worn.nreg FLS.WEAR / 2 ^ 16 ∧ worn.fls.moveRaw = 0
    ∧ medium.nreg FLS.WEAR / 2 ^ 16 ≤ medium.nreg FLS.WEAR % 2 ^ 16 + 64 ∧ worn.raw < worn.raw + 60 * qSec := by decide

def asleep (r : SleepReq) : State := { { sv with raw := 65536 * 10 ^ 7 } with pwr := { sv.pwr with sleep := some r } }
def dropTdc : SleepReq := ⟨.dom 37 3, [37], [], 0, none⟩
theorem test_consent_one : canonB (asleep dropTdc) = true ∧ (asleep dropTdc).pwr.sleep = some dropTdc ∧ dropTdc.todo.head? = some 37
    ∧ (asleep dropTdc).ownRefusal dropTdc.kind 37 = none ∧ 0 + (asleep dropTdc).nreg PWR.CONSENT_TO % 256 * 1000000 * qNs ≤ (asleep dropTdc).raw
    ∧ 0 < 0 + (asleep dropTdc).nreg PWR.CONSENT_TO % 256 * 1000000 * qNs ∧ dropTdc.rolling = none := by decide
def dropPort : SleepReq := ⟨.port 3, [3], [], 0, none⟩
theorem test_consent_port : (asleep dropPort).ownRefusal dropPort.kind 3 = none ∧ dropPort.todo = [3]
    ∧ ((asleep dropPort).qPut 3).ownRefusal dropPort.kind 3 = some 12 := by decide
def kaMid : SleepReq := ⟨.keepAlive, [37, 38], [40, 39], 0, none⟩
theorem test_consent_ka : (asleep kaMid).ownRefusal kaMid.kind 37 = none ∧ kaMid.todo.head? = some 37 := by decide
def kaBack : State := (asleep kaMid).wr (domFld 40) 3
theorem test_refusal_wakes : canonB kaBack = true ∧ kaMid.stopped = [40, 39] ∧ 2 ≤ kaBack.domState 40 ∧ kaBack.wakeOf 40 = none := by decide
def kaLast : SleepReq := ⟨.keepAlive, [42], [41], 0, none⟩
theorem test_consent_last : (asleep kaLast).ownRefusal kaLast.kind 42 = none ∧ (asleep kaLast).hif.cmdQ = [] ∧ (asleep kaLast).pwr.lock = none
    ∧ kaLast.todo = [42] := by decide
def commonBusy : State := let s := asleep kaLast; { s with hif := { s.hif with cmdQ := [⟨0, 5, 0, 9, 20, 1, [], 0⟩] } }
theorem test_common_waits : canonB commonBusy = true ∧ commonBusy.hif.cmdQ ≠ [] ∧ commonBusy.ownRefusal kaLast.kind 42 = none := by decide
theorem test_no_request : sv.pwr.sleep = none ∧ sv.wakeOf 37 = none ∧ sv.domState 37 = 0 ∧ sv.domState 37 ≠ 1 := by decide
def waking (step : Nat) (again : Bool) : State :=
  let s := (asleep ⟨.dom 37 0, [], [], 0, none⟩).wr (domFld 37) 3
  { s with pwr := { s.pwr with wakes := [⟨37, step, again, 0⟩] } }
theorem test_wake : canonB (waking 1 false) = true ∧ (waking 1 false).wakeOf 37 = some ⟨37, 1, false, 0⟩
    ∧ 0 + stepLimitMs 1 * 1000000 * qNs ≤ (waking 1 false).raw ∧ (waking 2 true).wakeOf 37 = some ⟨37, 2, true, 0⟩
    ∧ (waking 3 true).wakeOf 37 = some ⟨37, 3, true, 0⟩ ∧ 0 < 0 + stepLimitMs 3 * 1000000 * qNs ∧ 0 + stepLimitMs 3 * 1000000 * qNs ≤ (waking 3 true).raw
    ∧ 0 + stepLimitMs 2 * 1000000 * qNs ≤ (waking 2 true).raw := by decide
theorem test_dom_req : sv.access 0 PWR.DOM_REQ .write = .granted ∧ sv.access 1 PWR.DOM_REQ .write = .denied
    ∧ sv.domReqCode 37 3 = 0 ∧ sv.domReqCode 37 0 = 0 ∧ sv.domReqCode 41 3 = stREFUSED ∧ (sv.wr (domFld 37) 3).domReqCode 37 0 = 0
    ∧ (sv.wr (domFld 37) 3).domReqCode 37 2 = 0 ∧ bitAt (37 + 3 * 2 ^ 8 + 2 ^ 15) 15 = true ∧ bitsOf (37 + 3 * 2 ^ 8 + 2 ^ 15) 0 6 = 37
    ∧ bitsOf (37 + 3 * 2 ^ 8 + 2 ^ 15) 8 2 = 3 := by decide
theorem test_doze : domAbsent sv.variant 37 = false ∧ sv.domHolds 37 = false ∧ sv.pwrBusy = false ∧ (sv.wr (domFld 37) 1).domState 37 = 1
    ∧ (sv.issue .credit 115 1).domHolds 37 = true := by decide
theorem test_rail : sv.railRange 1 = (776000, 824000) ∧ (sv.rd PWR.CTRL_TJ_ALARM : Int) * 1000 = 105000 := by decide

def twin (link mode : Nat) (s : State) : State :=
  (((s.wr TWN.CTRL_EN 1).wr TWN.STAT_LINK link).wr GLB.MODE_CURRENT mode).wr KEY.STAT_DEVKEY_OK 1
def peerPub : List Byte := [1, 2, 3]
def peerWord (k : Nat) : Nat := leAt (sha256 peerPub) (4 * k) 4
def knownTwin : State := (((( twin 2 4 sv).setN (TWN.PEER_ID 0) (peerWord 0)).setN (TWN.PEER_ID 1) (peerWord 1)).setN (TWN.PEER_ID 2) (peerWord 2)).setN (TWN.PEER_ID 3) (peerWord 3)
theorem test_link_lock : (twin 0 4 sv).on TWN.CTRL_EN = true ∧ (twin 0 4 sv).rd TWN.STAT_LINK = 0 ∧ canonB (twin 0 4 sv) = true
    ∧ sv.on TWN.CTRL_EN = false := by decide
set_option maxRecDepth 10000 in
theorem test_pairing : canonB knownTwin = true ∧ knownTwin.rd TWN.STAT_LINK = 2 ∧ knownTwin.on TWN.CTRL_EN = true ∧ knownTwin.rd TWN.CTRL_ROLE = 0
    ∧ knownTwin.peerMatches peerPub = true ∧ knownTwin.on KEY.STAT_DEVKEY_OK = true ∧ (twin 2 4 sv).peerMatches peerPub = false := by decide
def comparing : State := (twin 3 4 sv).setTwn (fun w => { w with sentT0 := some 100, n := 3, sum := 9 })
theorem test_comparing : canonB comparing = true ∧ comparing.comparing = true ∧ (twin 2 4 sv).comparing = false ∧ comparing.rd TWN.STAT_LINK = 3
    ∧ comparing.twn.sentT0 = some 100 ∧ comparing.on TWN.CTRL_CMP_EN = true ∧ 0 < comparing.twn.n ∧ comparing.twn.bad = false := by decide
def mirroring : State := (allow (twin 3 7 sv) 119 17).wr TWN.CTRL_MIRROR_EN 1
def mirrored : MirrorItem := .keySlot ⟨5, 6, 3, 0, 256, 0, 0, 0, natBlock 32 9⟩
theorem test_mirroring : canonB mirroring = true ∧ mirroring.mode = 7 ∧ mirroring.rd TWN.STAT_LINK = 3 ∧ mirroring.on TWN.CTRL_MIRROR_EN = true
    ∧ mirroring.granted twinMaster mirrored.place.1 mirrored.place.2 .write = true ∧ mirroring.on TWN.CTRL_MIRROR_KEYS = false
    ∧ (mirroring.wr TWN.CTRL_MIRROR_KEYS 1).on TWN.CTRL_MIRROR_KEYS = true ∧ mirroring.spanWriting 5 (spanOf 32) = false
    ∧ mirroring.granted twinMaster 14 0 .write = false ∧ (allow mirroring 119 14).granted twinMaster 14 0 .write = true
    ∧ mirroring.quadPresent 0 = true ∧ (grantOf [1] 0).valid = true := by decide
theorem test_mirror_refused : mirroring.mirrorApply mirrored = none := by decide
def hoCmd (dir : Nat) : HostCmd := cmd 24 1 (leBytes 1 dir)
def active : State := (twin 3 4 rings).wr TWN.CTRL_MIRROR_EN 1 |>.wr TWN.STAT_PEER_MODE 7
def standby : State := (twin 3 7 rings).wr TWN.CTRL_MIRROR_EN 1 |>.wr TWN.STAT_PEER_MODE 4
def hoCodes (s : State) (c : HostCmd) (allows : Bool) : Nat :=
  c.code [codeIf (decide (2 ≤ c.u 0 1) || !c.zero 1 32 || (c.u 0 1 % 2 == 1 && !allows)) stREFUSED,
    codeIf s.twn.ho.isSome stBUSY, codeIf (!s.hoModes (c.u 0 1 % 2 == 1)) stMODE_FORBIDS]
theorem test_handover : canonB active = true ∧ canonB standby = true ∧ hoCodes active (hoCmd 0) true = 0 ∧ hoCodes standby (hoCmd 1) true = 0
    ∧ hoCodes standby (hoCmd 1) false = stREFUSED ∧ hoCodes standby (hoCmd 0) true = stMODE_FORBIDS
    ∧ Store.wf dRing active.hif.rings = true ∧ (active.ringOf (hoCmd 0).ring).st ≠ .disabled := by decide
def hoDraining (ph : Nat) : State := ((twin 3 9 rings).wr TWN.STAT_HO_PHASE ph).setTwn (fun w => { w with ho := some ⟨some (hoCmd 0), 0, 0⟩, act := true })
theorem test_draining : canonB (hoDraining 2) = true ∧ (hoDraining 2).rd TWN.STAT_HO_PHASE = 2 ∧ (hoDraining 2).mode = 9 ∧ (hoDraining 2).rsp.jobs = []
    ∧ (hoDraining 3).rd TWN.STAT_HO_PHASE = 3 ∧ (hoDraining 3).rd TWN.STAT_LINK = 3 := by decide

def testCmd (k m i n : Nat) : HostCmd := cmd 22 1 (leBytes 1 (k + 16 * m) ++ leBytes 1 i ++ leBytes 2 0 ++ leBytes 4 n)
theorem test_block_accepted : canonB rings = true ∧ Store.wf dUnit rings.bst.units = true ∧ rings.testCode (testCmd 2 0 1 65536) = 0
    ∧ rings.testCode (testCmd 2 0 1 0) = stZERO_LEN ∧ (testCmd 2 0 1 65536).tMode = 0 ∧ (testCmd 2 0 1 65536).tKind = 2
    ∧ (rings.ringOf (testCmd 2 0 1 65536).ring).st ≠ .disabled := by decide
def inMaint (t : Nat) : State := (rings.wr GLB.MODE_CURRENT 6).wr GLB.MAINT_SET_TARGETS (2 ^ t)
theorem test_recalibrate_accepted : canonB (inMaint 12) = true ∧ (inMaint 12).testCode (testCmd 6 3 4 0) = 0 ∧ (testCmd 6 3 4 0).tMode = 3
    ∧ (inMaint 9).testCode (testCmd 5 3 4 0) = 0 := by decide
def testing (k m i n : Nat) : State :=
  let s := nx (execTestBlock (testCmd k m i n) true 0 rings) sv
  s
set_option maxRecDepth 10000 in
theorem test_running : canonB (testing 2 0 1 5) = true ∧ (testing 2 0 1 5).bst.test = some ⟨testCmd 2 0 1 5, 2, 1, 0, 5, true⟩
    ∧ Store.wf dUnit (testing 2 0 1 5).bst.units = true := by decide
def recal : State := nx (execTestBlock (testCmd 5 3 4 0) true 0 (inMaint 9)) sv
theorem test_recalibrating : canonB recal = true ∧ recal.bst.test = some ⟨testCmd 5 3 4 0, 5, 4, 3, 0, false⟩ := by decide
theorem test_incomplete : (nx (execTestComplete ⟨true, 4, 9, true, 0, 0⟩ 0 (testing 2 0 1 5)) sv).rd BST.TEST_LAST_STATUS = stINCOMPLETE := by decide
theorem test_failed : ((nx (execTestComplete ⟨true, 5, 9, false, 0, 0⟩ 0 (testing 2 0 1 5)) sv).unit 2 1).unusable = true := by decide
theorem test_jtag : sv.mode = 4 ∧ (sv.wr GLB.MODE_CURRENT 11).mode = 11 ∧ rings.bst.test = none := by decide
theorem test_freeze : sv.access 0 PMC.FREEZE .write = .granted ∧ sv.pmc.delivering = [] ∧ sv.rd PMC.CTRL_PERIOD = 0
    ∧ (sv.wr PMC.CTRL_PERIOD 1).rd PMC.CTRL_PERIOD = 1 ∧ sv.sec0 % 2 ^ 0 = 0 ∧ ({ sv.wr PMC.CTRL_PERIOD 2 with raw := 65536 * 10 ^ 9 } : State).sec0 % 2 ^ 1 ≠ 0 := by decide
def snapRing : State := (rings.wr (ringFld 2 0 0 3) 3).setRing 2 { dRing 2 with st := .enabled }
def pmcSnapCmd (fz : Nat) : HostCmd := cmd 23 1 (leBytes 2 0 ++ leBytes 2 4 ++ leBytes 2 (2 + 32768 * fz))
def snapCode (s : State) (c : HostCmd) : Nat := c.code [codeIf (c.u 2 2 == 0) stZERO_LEN,
  codeIf (decide (1536 < c.u 0 2 + c.u 2 2) || bitsOf (c.u 4 2) 10 5 != 0 || !c.zero 6 32 || !s.ringIs c.fn 3 (c.u 4 2 % 1024)) stREFUSED,
  codeIf (!s.pmc.delivering.isEmpty) stBUSY, codeIf s.modeNoCmd stMODE_FORBIDS]
set_option maxRecDepth 10000 in
theorem test_snap : canonB snapRing = true ∧ Store.wf dRing snapRing.hif.rings = true ∧ snapCode snapRing (pmcSnapCmd 0) = 0 ∧ snapCode snapRing (pmcSnapCmd 1) = 0
    ∧ snapCode rings (pmcSnapCmd 0) = stREFUSED ∧ bitAt ((pmcSnapCmd 1).u 4 2) 15 = true ∧ bitAt ((pmcSnapCmd 0).u 4 2) 15 = false := by decide
def snapPost : State := ((((rings.wr (ringFld 2 0 0 3) 3).wr (ringFld 2 0 16 4) 4).wr (ringFld 2 1 0 17) 64).setRing 2 { dRing 2 with st := .enabled, posted := [(0, 131072)] }).setDeliveries [⟨2, some (pmcSnapCmd 0)⟩]
set_option maxRecDepth 10000 in
theorem test_delivery : canonB snapPost = true ∧ snapPost.pmc.delivering = [⟨2, some (pmcSnapCmd 0)⟩]
    ∧ (snapPost.sendEvent 2 11 (snapPost.snapPayload 0 4 2 false)).2 = true
    ∧ ((snapPost.setRing 2 { dRing 2 with st := .enabled }).sendEvent 2 11 []).2 = false := by decide

/-! Well-formedness: for each check, a command it refuses beside one it takes. -/

theorem test_wf_takes : (Instr.registerWrite 0 0x3C 7).wf = true ∧ (Instr.frameReceive 31 [] true false false 0 0).wf = true := by decide
theorem test_wf_master : (Instr.registerWrite 120 0 0).wf = false := by decide
theorem test_wf_address : (Instr.registerWrite 0 2 0).wf = false ∧ (Instr.multiwordLowRead 0 (2 ^ 22)).wf = false := by decide
theorem test_wf_word : (Instr.registerWrite 0 0 (2 ^ 32)).wf = false := by decide
theorem test_wf_word64 : (Instr.swCtrlWrite 0 (2 ^ 64) 0).wf = false := by decide
theorem test_wf_block : (Instr.commitGo 0 (.prt 32)).wf = false := by decide
theorem test_wf_port : (Instr.linkLock 32 0).wf = false := by decide
theorem test_wf_quad : (Instr.quadFence 4 0).wf = false := by decide
theorem test_wf_ring : (Instr.ringEnable 0 1024 0).wf = false := by decide
theorem test_wf_function : (Instr.flr 64 0).wf = false := by decide
theorem test_wf_sequencer : (Instr.seqWatchdog 52 0).wf = false := by decide
theorem test_wf_channel : (Instr.dumpClear 384 0).wf = false := by decide
theorem test_wf_channel_select : (Instr.chRead 0 512 0).wf = false := by decide
theorem test_wf_timescale : (Instr.slewDone 64 0).wf = false := by decide
theorem test_wf_slot : (Instr.holdoffElapsed 16 0).wf = false := by decide
theorem test_wf_clock_output : (Instr.phaseWalkDone 12 0).wf = false := by decide
theorem test_wf_plane : (Instr.planeLockLost 2 0).wf = false := by decide
theorem test_wf_sample_port : (Instr.dumpPop 8 0).wf = false := by decide
theorem test_wf_pipe : (Instr.pipeKat 26 true 0).wf = false := by decide
theorem test_wf_unit : (Instr.compareFire 32 [] 0).wf = false := by decide
theorem test_wf_video_output : (Instr.videoOutputStart 8 0).wf = false := by decide
theorem test_wf_key_sequencer : (Instr.rowDone 4 0).wf = false := by decide
theorem test_wf_engine : (Instr.pkeKat 5 true 0).wf = false := by decide
theorem test_wf_domain : (Instr.dozeEnter 44 0).wf = false := by decide
theorem test_wf_ball : (Instr.tamperEvent 4 0).wf = false := by decide
theorem test_wf_ltc : (Instr.ltcFrame 2 0).wf = false := by decide
theorem test_wf_upstream : (Instr.announceTimeout 4 0).wf = false := by decide
theorem test_wf_rail : (Instr.railFault 10 0 0).wf = false := by decide
theorem test_wf_reference_input : (Instr.refInAbsent 8 0).wf = false := by decide
theorem test_wf_quad_sequencer : (Instr.reqActionBuild 32 0).wf = false := by decide
theorem test_wf_key_slot : (Instr.keyUse 0 1024 0 0 0 0).wf = false := by decide
theorem test_wf_capture : (Instr.captureEdge 8 true false 0 0).wf = false := by decide
theorem test_wf_target : (Instr.memoryScrubVisit 32 0 .clean false 0).wf = false := by decide
theorem test_wf_partial : (Instr.partialByteWrite 0 0 0 15).wf = false := by decide
theorem test_wf_frame : okFrame (List.replicate 2049 0) = false := decide_eq_false (by rw [List.length_replicate]; omega)
theorem test_wf_command : (Instr.nop ⟨0, 0, 0, 0, 0, 0, [], 0⟩ 0).wf = false := by decide

/-! The table gives no row bits: no word spells a command, and none is put in front. -/

theorem test_no_word : decodeTableWord 32 0x12345678 = none ∧ decodeTableWord 0 0 = none := by decide
theorem test_front_word : sv.withFetchWord 32 5 = sv := rfl

end Sys2Proof.Tests
end

namespace Sys2Proof.Machine

/-! ### What every command keeps

The lemmas `exec…_keeps` of Laws/KExec.lean, one per command, as one lemma about `exec`. Power-on reset and the lock of the
timing PLL, which set the raw counter anew, stand beside it. -/

/-- The commands that store to host memory. -/
def storesHost (c : Instr) : Bool :=
  match c with
  | .searchReport _ _ _ | .epochDeliver _ | .statsSnap _ _ | .frameCommit _ _ _ | .mint _ _ _ _ | .completionWrite _ _
  | .receiveFrameWrite _ _ | .eventDeliver _ | .keyHeadComplete _ _ _ | .pkJobComplete _ _ _ _ | .flsRead _ _ _ _ _
  | .snapDeliveryEnd _ _ => true
  | _ => false

theorem State.advance_zero (s : State) : s.advance 0 = s := by
  simp [State.advance]

/-- A command that does not let time pass is one that lets it pass to where it stands. -/
theorem keeps_now {st : Bool} {s : State} {o : Host.Outcome State Fault Refusal} (h : ∃ z, o = .next z ∧ Keeps st s z) :
    ∃ t z, o = .next z ∧ Keeps st (s.advance t) z :=
  ⟨0, s.advance_zero.symm ▸ h⟩

/-- Every command but power-on reset and the lock of the timing PLL lets time pass, if at all, and then keeps what `Keeps` says. -/
theorem exec_keeps (c : Instr) (s : State) (hp : ∀ p, c ≠ .powerOnReset p) (hl : c ≠ .timingPllLock) :
    ∃ t u, exec c s = .next u ∧ Keeps (storesHost c) (s.advance t) u := by
  cases c with
  | registerWrite m addr val => exact keeps_now (execRegisterWrite_keeps m addr val s)
  | stickyClear m b val recurs => exact keeps_now (execStickyClear_keeps m b val recurs s)
  | multiwordLowRead m addr => exact keeps_now (execMultiwordLowRead_keeps m addr s)
  | multiwordHighWrite m addr val => exact keeps_now (execMultiwordHighWrite_keeps m addr val s)
  | partialByteWrite m addr val enables => exact keeps_now (execPartialByteWrite_keeps m addr val enables s)
  | commitGo m b => exact keeps_now (execCommitGo_keeps m b s)
  | commitDiscard m b => exact keeps_now (execCommitDiscard_keeps m b s)
  | commitTakesEffect b t => exact ⟨t, execCommitTakesEffect_keeps b t s⟩
  | rspBankRelease t => exact ⟨t, execRspBankRelease_keeps t s⟩
  | ledgerAuditRequest m val t => exact ⟨t, execLedgerAuditRequest_keeps m val t s⟩
  | ledgerAutoAudit t => exact ⟨t, execLedgerAutoAudit_keeps t s⟩
  | ledgerAuditEnd t => exact ⟨t, execLedgerAuditEnd_keeps t s⟩
  | unitReinit kind inst t => exact ⟨t, execUnitReinit_keeps kind inst t s⟩
  | queueHwReset m val t => exact ⟨t, execQueueHwReset_keeps m val t s⟩
  | powerOnReset p => exact absurd rfl (hp p)
  | loReady grotto => exact keeps_now (execLoReady_keeps grotto s)
  | loFallback grottoReady => exact keeps_now (execLoFallback_keeps grottoReady s)
  | timingPllLock => exact absurd rfl hl
  | bootImageLoad x t => exact ⟨t, execBootImageLoad_keeps x t s⟩
  | poweronSelfTest t => exact ⟨t, execPoweronSelfTest_keeps t s⟩
  | selfTestDone failed again repaired ms t => exact ⟨t, execSelfTestDone_keeps failed again repaired ms t s⟩
  | modeReqService m t => exact ⟨t, execModeReqService_keeps m t s⟩
  | modeReqDegraded m t => exact ⟨t, execModeReqDegraded_keeps m t s⟩
  | modeReqMaintenance m block t => exact ⟨t, execModeReqMaintenance_keeps m block t s⟩
  | modeReqRelease m block t => exact ⟨t, execModeReqRelease_keeps m block t s⟩
  | modeReqQuiesce m t => exact ⟨t, execModeReqQuiesce_keeps m t s⟩
  | modeReqTwinStandby m t => exact ⟨t, execModeReqTwinStandby_keeps m t s⟩
  | modeReqProvisioning m t => exact ⟨t, execModeReqProvisioning_keeps m t s⟩
  | modeReqKeepAlive m delta t => exact ⟨t, execModeReqKeepAlive_keeps m delta t s⟩
  | modeReqLockdown m t => exact ⟨t, execModeReqLockdown_keeps m t s⟩
  | twinModeRequest handover t => exact ⟨t, execTwinModeRequest_keeps handover t s⟩
  | warmReset m skipBist keyOk t => exact ⟨t, execWarmReset_keeps m skipBist keyOk t s⟩
  | perst t => exact ⟨t, execPerst_keeps t s⟩
  | tamperEvent ball t => exact ⟨t, execTamperEvent_keeps ball t s⟩
  | policyWrite m val t => exact ⟨t, execPolicyWrite_keeps m val t s⟩
  | loLoss delta t => exact ⟨t, execLoLoss_keeps delta t s⟩
  | loCtrlWrite m val delta t => exact ⟨t, execLoCtrlWrite_keeps m val delta t s⟩
  | loSwitchRetry delta t => exact ⟨t, execLoSwitchRetry_keeps delta t s⟩
  | oscillatorReady grotto delta t => exact ⟨t, execOscillatorReady_keeps grotto delta t s⟩
  | steeringPortWrite rate target bound t => exact ⟨t, execSteeringPortWrite_keeps rate target bound t s⟩
  | slewDone n t => exact ⟨t, execSlewDone_keeps n t s⟩
  | leapWarnStart t => exact ⟨t, execLeapWarnStart_keeps t s⟩
  | leapDone t => exact ⟨t, execLeapDone_keeps t s⟩
  | smearStart prof entry t => exact ⟨t, execSmearStart_keeps prof entry t s⟩
  | snapGo m ts t => exact ⟨t, execSnapGo_keeps m ts t s⟩
  | compareFire u latch t => exact ⟨t, execCompareFire_keeps u latch t s⟩
  | selectorTick rclk t => exact ⟨t, execSelectorTick_keeps rclk t s⟩
  | holdoffElapsed n t => exact ⟨t, execHoldoffElapsed_keeps n t s⟩
  | failHoldElapsed n t => exact ⟨t, execFailHoldElapsed_keeps n t s⟩
  | disputeWindowEnd t => exact ⟨t, execDisputeWindowEnd_keeps t s⟩
  | refInEdge ix n t => exact ⟨t, execRefInEdge_keeps ix n t s⟩
  | refInAbsent ix t => exact ⟨t, execRefInAbsent_keeps ix t s⟩
  | refokChange ix level t => exact ⟨t, execRefokChange_keeps ix level t s⟩
  | gnssSolution c t => exact ⟨t, execGnssSolution_keeps c t s⟩
  | gnssSlotLos t => exact ⟨t, execGnssSlotLos_keeps t s⟩
  | loopUpdate t => exact ⟨t, execLoopUpdate_keeps t s⟩
  | fallbackUpdate t => exact ⟨t, execFallbackUpdate_keeps t s⟩
  | pullDone t => exact ⟨t, execPullDone_keeps t s⟩
  | lockTimeElapsed t => exact ⟨t, execLockTimeElapsed_keeps t s⟩
  | unlockTimeout t => exact ⟨t, execUnlockTimeout_keeps t s⟩
  | holdoverSecond t => exact ⟨t, execHoldoverSecond_keeps t s⟩
  | estimatorUpdate t => exact ⟨t, execEstimatorUpdate_keeps t s⟩
  | historyRecord theta xdiff mirrorOk t => exact ⟨t, execHistoryRecord_keeps theta xdiff mirrorOk t s⟩
  | swCtrlWrite m val t => exact ⟨t, execSwCtrlWrite_keeps m val t s⟩
  | swTimeout t => exact ⟨t, execSwTimeout_keeps t s⟩
  | stepCmd m val t => exact ⟨t, execStepCmd_keeps m val t s⟩
  | dscSeqFaultTimeout t => exact ⟨t, execDscSeqFaultTimeout_keeps t s⟩
  | grtCtrlWrite m val t => exact ⟨t, execGrtCtrlWrite_keeps m val t s⟩
  | grtRetry m t => exact ⟨t, execGrtRetry_keeps m t s⟩
  | grottoWarm cavity t => exact ⟨t, execGrottoWarm_keeps cavity t s⟩
  | grottoReady cavity t => exact ⟨t, execGrottoReady_keeps cavity t s⟩
  | grottoReadyLost cavity t => exact ⟨t, execGrottoReadyLost_keeps cavity t s⟩
  | grottoBandLost cavity t => exact ⟨t, execGrottoBandLost_keeps cavity t s⟩
  | vhtrLow mv t => exact ⟨t, execVhtrLow_keeps mv t s⟩
  | grottoSensorFault sensor0 sensor1 t => exact ⟨t, execGrottoSensorFault_keeps sensor0 sensor1 t s⟩
  | alignGo m t => exact ⟨t, execAlignGo_keeps m t s⟩
  | outputAlign n residual t => exact ⟨t, execOutputAlign_keeps n residual t s⟩
  | planeLockLost p t => exact ⟨t, execPlaneLockLost_keeps p t s⟩
  | planeLockReturn p t => exact ⟨t, execPlaneLockReturn_keeps p t s⟩
  | phaseWalkDone n t => exact ⟨t, execPhaseWalkDone_keeps n t s⟩
  | search c t => exact ⟨t, execSearch_keeps c t s⟩
  | searchCaptureStart e t => exact ⟨t, execSearchCaptureStart_keeps e t s⟩
  | searchReport e results t => exact ⟨t, execSearchReport_keeps e results t s⟩
  | searchAbort c t => exact ⟨t, execSearchAbort_keeps c t s⟩
  | samplePortPresent p freq t => exact ⟨t, execSamplePortPresent_keeps p freq t s⟩
  | samplePortLost p freq t => exact ⟨t, execSamplePortLost_keeps p freq t s⟩
  | sampleTick p n clip meanI meanQ freq t => exact ⟨t, execSampleTick_keeps p n clip meanI meanQ freq t s⟩
  | correlatorDump u dumps t => exact ⟨t, execCorrelatorDump_keeps u dumps t s⟩
  | dumpClear ch t => exact ⟨t, execDumpClear_keeps ch t s⟩
  | dumpPop g t => exact ⟨t, execDumpPop_keeps g t s⟩
  | channelSteeringWrite g ch codeRate carrRate word1 t => exact ⟨t, execChannelSteeringWrite_keeps g ch codeRate carrRate word1 t s⟩
  | steerTimeout ch t => exact ⟨t, execSteerTimeout_keeps ch t s⟩
  | chRead m ch t => exact ⟨t, execChRead_keeps m ch t s⟩
  | chLoad m ch t => exact ⟨t, execChLoad_keeps m ch t s⟩
  | chRelease m ch t => exact ⟨t, execChRelease_keeps m ch t s⟩
  | chOpNone m ch t => exact ⟨t, execChOpNone_keeps m ch t s⟩
  | channelStart ch sample t => exact ⟨t, execChannelStart_keeps ch sample t s⟩
  | burstStart g t => exact ⟨t, execBurstStart_keeps g t s⟩
  | burstEnd g t => exact ⟨t, execBurstEnd_keeps g t s⟩
  | epochDeliver t => exact ⟨t, execEpochDeliver_keeps t s⟩
  | gnssNavSend g body t => exact ⟨t, execGnssNavSend_keeps g body t s⟩
  | spoofIndicatorWrite g word t => exact ⟨t, execSpoofIndicatorWrite_keeps g word t s⟩
  | linkLock p t => exact ⟨t, execLinkLock_keeps p t s⟩
  | calDone p lats ok t => exact ⟨t, execCalDone_keeps p lats ok t s⟩
  | linkDown p cause hostSent t => exact ⟨t, execLinkDown_keeps p cause hostSent t s⟩
  | frameReceive p frame fcsOk express poisoned rawS t => exact ⟨t, execFrameReceive_keeps p frame fcsOk express poisoned rawS t s⟩
  | portWakeComplete p t => exact ⟨t, execPortWakeComplete_keeps p t s⟩
  | portSleepEntry p t => exact ⟨t, execPortSleepEntry_keeps p t s⟩
  | downshift p rxPct txPct t => exact ⟨t, execDownshift_keeps p rxPct txPct t s⟩
  | upshift p rxPct txPct t => exact ⟨t, execUpshift_keeps p rxPct txPct t s⟩
  | preemptVerify p ok t => exact ⟨t, execPreemptVerify_keeps p ok t s⟩
  | statsSnap c t => exact ⟨t, execStatsSnap_keeps c t s⟩
  | statsPeriodicSnap p t => exact ⟨t, execStatsPeriodicSnap_keeps p t s⟩
  | esmcPduReceive id t => exact ⟨t, execEsmcPduReceive_keeps id t s⟩
  | esmcTimeout p t => exact ⟨t, execEsmcTimeout_keeps p t s⟩
  | esmcInfoTx p t => exact ⟨t, execEsmcInfoTx_keeps p t s⟩
  | esmcEventTx p t => exact ⟨t, execEsmcEventTx_keeps p t s⟩
  | requestArrival id t => exact ⟨t, execRequestArrival_keeps id t s⟩
  | reservationGrant id starts busyUntil t => exact ⟨t, execReservationGrant_keeps id starts busyUntil t s⟩
  | sealDone id t => exact ⟨t, execSealDone_keeps id t s⟩
  | launchCheck id t => exact ⟨t, execLaunchCheck_keeps id t s⟩
  | rebuild id t => exact ⟨t, execRebuild_keeps id t s⟩
  | frameCommit id rawS t => exact ⟨t, execFrameCommit_keeps id rawS t s⟩
  | sideBufferExpire id t => exact ⟨t, execSideBufferExpire_keeps id t s⟩
  | reqActionBuild n t => exact ⟨t, execReqActionBuild_keeps n t s⟩
  | reqActionSlowPath n t => exact ⟨t, execReqActionSlowPath_keeps n t s⟩
  | reqActionDiscard n reason t => exact ⟨t, execReqActionDiscard_keeps n reason t s⟩
  | buildGo n frame stamp t => exact ⟨t, execBuildGo_keeps n frame stamp t s⟩
  | limitScrubVisit q bucket t => exact ⟨t, execLimitScrubVisit_keeps q bucket t s⟩
  | maintQuadsWrite m val t => exact ⟨t, execMaintQuadsWrite_keeps m val t s⟩
  | quadFence q t => exact ⟨t, execQuadFence_keeps q t s⟩
  | qLatReset m q t => exact ⟨t, execQLatReset_keeps m q t s⟩
  | calendarHandoff src t => exact ⟨t, execCalendarHandoff_keeps src t s⟩
  | grantExpiry idx typ t => exact ⟨t, execGrantExpiry_keeps idx typ t s⟩
  | grantScrubVisit idx t => exact ⟨t, execGrantScrubVisit_keeps idx t s⟩
  | grantFree m idx t => exact ⟨t, execGrantFree_keeps m idx t s⟩
  | grantCancel m idx t => exact ⟨t, execGrantCancel_keeps m idx t s⟩
  | grantCancelDomain m dom t => exact ⟨t, execGrantCancelDomain_keeps m dom t s⟩
  | grantCmdNone m idx t => exact ⟨t, execGrantCmdNone_keeps m idx t s⟩
  | upstreamRenew u typ t => exact ⟨t, execUpstreamRenew_keeps u typ t s⟩
  | upstreamRetry u typ t => exact ⟨t, execUpstreamRetry_keeps u typ t s⟩
  | announceTimeout u t => exact ⟨t, execAnnounceTimeout_keeps u t s⟩
  | mint c keyErr outAfter t => exact ⟨t, execMint_keeps c keyErr outAfter t s⟩
  | rotate c t => exact ⟨t, execRotate_keeps c t s⟩
  | rotateComplete ok t => exact ⟨t, execRotateComplete_keeps ok t s⟩
  | pipeKat p ok t => exact ⟨t, execPipeKat_keeps p ok t s⟩
  | pulseTrailingEdge n t => exact ⟨t, execPulseTrailingEdge_keeps n t s⟩
  | captureEdge ix rising poisoned edge t => exact ⟨t, execCaptureEdge_keeps ix rising poisoned edge t s⟩
  | schedule c t => exact ⟨t, execSchedule_keeps c t s⟩
  | scheduleCancel c t => exact ⟨t, execScheduleCancel_keeps c t s⟩
  | videoOutputStart o t => exact ⟨t, execVideoOutputStart_keeps o t s⟩
  | videoWalkDone o t => exact ⟨t, execVideoWalkDone_keeps o t s⟩
  | ltcFrame n t => exact ⟨t, execLtcFrame_keeps n t s⟩
  | genlockFrame lines period syncMv burstMv edge t => exact ⟨t, execGenlockFrame_keeps lines period syncMv burstMv edge t s⟩
  | posGo m val t => exact ⟨t, execPosGo_keeps m val t s⟩
  | ltcUbitsPortWrite n val t => exact ⟨t, execLtcUbitsPortWrite_keeps n val t s⟩
  | compareRearm u ts target t => exact ⟨t, execCompareRearm_keeps u ts target t s⟩
  | tdcEdge c rising coarse code other poisoned t => exact ⟨t, execTdcEdge_keeps c rising coarse code other poisoned t s⟩
  | tdcGateEnd c coarse t => exact ⟨t, execTdcGateEnd_keeps c coarse t s⟩
  | tdcCalStart c t => exact ⟨t, execTdcCalStart_keeps c t s⟩
  | tdcCalDone c hist t => exact ⟨t, execTdcCalDone_keeps c hist t s⟩
  | interpSwap c t => exact ⟨t, execInterpSwap_keeps c t s⟩
  | tbPresent freq edge t => exact ⟨t, execTbPresent_keeps freq edge t s⟩
  | tbLost freq t => exact ⟨t, execTbLost_keeps freq t s⟩
  | tbSettled t => exact ⟨t, execTbSettled_keeps t s⟩
  | anchorGoTb m edge t => exact ⟨t, execAnchorGoTb_keeps m edge t s⟩
  | anchorGoGr m edge t => exact ⟨t, execAnchorGoGr_keeps m edge t s⟩
  | ringDataWrite m val t => exact ⟨t, execRingDataWrite_keeps m val t s⟩
  | ringEnable m ring t => exact ⟨t, execRingEnable_keeps m ring t s⟩
  | ringDisable m ring t => exact ⟨t, execRingDisable_keeps m ring t s⟩
  | ringOpInvalid m ring op t => exact ⟨t, execRingOpInvalid_keeps m ring op t s⟩
  | ringDrained ring t => exact ⟨t, execRingDrained_keeps ring t s⟩
  | doorbellSqTail f ix index rsvd t => exact ⟨t, execDoorbellSqTail_keeps f ix index rsvd t s⟩
  | doorbellCqHead f ix index rsvd t => exact ⟨t, execDoorbellCqHead_keeps f ix index rsvd t s⟩
  | descFetch ring descErr payErr t => exact ⟨t, execDescFetch_keeps ring descErr payErr t s⟩
  | completionWrite ring t => exact ⟨t, execCompletionWrite_keeps ring t s⟩
  | msixModerationTimeout ring t => exact ⟨t, execMsixModerationTimeout_keeps ring t s⟩
  | nop c t => exact ⟨t, execNop_keeps c t s⟩
  | transmitFrame ring dataErr poisoned t => exact ⟨t, execTransmitFrame_keeps ring dataErr poisoned t s⟩
  | txLinkTimeout id t => exact ⟨t, execTxLinkTimeout_keeps id t s⟩
  | receiveFrameWrite id t => exact ⟨t, execReceiveFrameWrite_keeps id t s⟩
  | rxStarved id t => exact ⟨t, execRxStarved_keeps id t s⟩
  | eventDeliver t => exact ⟨t, execEventDeliver_keeps t s⟩
  | eventFlushTimeout ring t => exact ⟨t, execEventFlushTimeout_keeps ring t s⟩
  | flr f t => exact ⟨t, execFlr_keeps f t s⟩
  | busMasterClear f t => exact ⟨t, execBusMasterClear_keeps f t s⟩
  | busMasterSet f t => exact ⟨t, execBusMasterSet_keeps f t s⟩
  | pcieLinkLoss t => exact ⟨t, execPcieLinkLoss_keeps t s⟩
  | pcieLinkUp gen width numVfs t => exact ⟨t, execPcieLinkUp_keeps gen width numVfs t s⟩
  | seqNop n poisoned t => exact ⟨t, execSeqNop_keeps n poisoned t s⟩
  | seqAdd n poisoned t => exact ⟨t, execSeqAdd_keeps n poisoned t s⟩
  | seqSub n poisoned t => exact ⟨t, execSeqSub_keeps n poisoned t s⟩
  | seqAddc n poisoned t => exact ⟨t, execSeqAddc_keeps n poisoned t s⟩
  | seqSubc n poisoned t => exact ⟨t, execSeqSubc_keeps n poisoned t s⟩
  | seqAnd n poisoned t => exact ⟨t, execSeqAnd_keeps n poisoned t s⟩
  | seqOr n poisoned t => exact ⟨t, execSeqOr_keeps n poisoned t s⟩
  | seqXor n poisoned t => exact ⟨t, execSeqXor_keeps n poisoned t s⟩
  | seqShl n poisoned t => exact ⟨t, execSeqShl_keeps n poisoned t s⟩
  | seqShr n poisoned t => exact ⟨t, execSeqShr_keeps n poisoned t s⟩
  | seqSar n poisoned t => exact ⟨t, execSeqSar_keeps n poisoned t s⟩
  | seqMul n poisoned t => exact ⟨t, execSeqMul_keeps n poisoned t s⟩
  | seqMulh n poisoned t => exact ⟨t, execSeqMulh_keeps n poisoned t s⟩
  | seqMulhu n poisoned t => exact ⟨t, execSeqMulhu_keeps n poisoned t s⟩
  | seqClz n poisoned t => exact ⟨t, execSeqClz_keeps n poisoned t s⟩
  | seqAddi n poisoned t => exact ⟨t, execSeqAddi_keeps n poisoned t s⟩
  | seqAndi n poisoned t => exact ⟨t, execSeqAndi_keeps n poisoned t s⟩
  | seqOri n poisoned t => exact ⟨t, execSeqOri_keeps n poisoned t s⟩
  | seqXori n poisoned t => exact ⟨t, execSeqXori_keeps n poisoned t s⟩
  | seqShli n poisoned t => exact ⟨t, execSeqShli_keeps n poisoned t s⟩
  | seqShri n poisoned t => exact ⟨t, execSeqShri_keeps n poisoned t s⟩
  | seqSari n poisoned t => exact ⟨t, execSeqSari_keeps n poisoned t s⟩
  | seqLui n poisoned t => exact ⟨t, execSeqLui_keeps n poisoned t s⟩
  | seqLd n poisoned dataPoisoned t => exact ⟨t, execSeqLd_keeps n poisoned dataPoisoned t s⟩
  | seqSt n poisoned t => exact ⟨t, execSeqSt_keeps n poisoned t s⟩
  | seqFld n poisoned t => exact ⟨t, execSeqFld_keeps n poisoned t s⟩
  | fldDataReturn n poisoned t => exact ⟨t, execFldDataReturn_keeps n poisoned t s⟩
  | fldBusTimeout n t => exact ⟨t, execFldBusTimeout_keeps n t s⟩
  | seqFst n poisoned t => exact ⟨t, execSeqFst_keeps n poisoned t s⟩
  | seqBeq n poisoned t => exact ⟨t, execSeqBeq_keeps n poisoned t s⟩
  | seqBne n poisoned t => exact ⟨t, execSeqBne_keeps n poisoned t s⟩
  | seqBlt n poisoned t => exact ⟨t, execSeqBlt_keeps n poisoned t s⟩
  | seqBge n poisoned t => exact ⟨t, execSeqBge_keeps n poisoned t s⟩
  | seqBltu n poisoned t => exact ⟨t, execSeqBltu_keeps n poisoned t s⟩
  | seqBgeu n poisoned t => exact ⟨t, execSeqBgeu_keeps n poisoned t s⟩
  | seqJal n poisoned t => exact ⟨t, execSeqJal_keeps n poisoned t s⟩
  | seqJr n poisoned t => exact ⟨t, execSeqJr_keeps n poisoned t s⟩
  | seqSafe n poisoned t => exact ⟨t, execSeqSafe_keeps n poisoned t s⟩
  | seqWait n poisoned t => exact ⟨t, execSeqWait_keeps n poisoned t s⟩
  | waitWake n t => exact ⟨t, execWaitWake_keeps n t s⟩
  | seqTime n poisoned t => exact ⟨t, execSeqTime_keeps n poisoned t s⟩
  | seqFaultInstr n poisoned t => exact ⟨t, execSeqFaultInstr_keeps n poisoned t s⟩
  | seqAutoRestart n t => exact ⟨t, execSeqAutoRestart_keeps n t s⟩
  | seqWatchdog n t => exact ⟨t, execSeqWatchdog_keeps n t s⟩
  | progLoad c readErr t => exact ⟨t, execProgLoad_keeps c readErr t s⟩
  | swapTimeout n t => exact ⟨t, execSwapTimeout_keeps n t s⟩
  | swapArm m sync init t => exact ⟨t, execSwapArm_keeps m sync init t s⟩
  | swapDisarm m sync init t => exact ⟨t, execSwapDisarm_keeps m sync init t s⟩
  | swapOpInvalid m op t => exact ⟨t, execSwapOpInvalid_keeps m op t s⟩
  | seqHalt m t => exact ⟨t, execSeqHalt_keeps m t s⟩
  | seqResume m t => exact ⟨t, execSeqResume_keeps m t s⟩
  | seqRestart m t => exact ⟨t, execSeqRestart_keeps m t s⟩
  | ldDataWrite m val t => exact ⟨t, execLdDataWrite_keeps m val t s⟩
  | keyUse k slot part dst modulus t => exact ⟨t, execKeyUse_keeps k slot part dst modulus t s⟩
  | rowGo k d a b c w t => exact ⟨t, execRowGo_keeps k d a b c w t s⟩
  | rowDone k t => exact ⟨t, execRowDone_keeps k t s⟩
  | keyHeadComplete k status t => exact ⟨t, execKeyHeadComplete_keeps k status t s⟩
  | keyImport c hdrErr t => exact ⟨t, execKeyImport_keeps c hdrErr t s⟩
  | keyGenerate c t => exact ⟨t, execKeyGenerate_keeps c t s⟩
  | keyZeroise c bad t => exact ⟨t, execKeyZeroise_keeps c bad t s⟩
  | pkRun c t => exact ⟨t, execPkRun_keeps c t s⟩
  | pkJobComplete q readErr primes t => exact ⟨t, execPkJobComplete_keeps q readErr primes t s⟩
  | pkeKat e ok t => exact ⟨t, execPkeKat_keeps e ok t s⟩
  | findGo m span t => exact ⟨t, execFindGo_keeps m span t s⟩
  | journalAppend c t => exact ⟨t, execJournalAppend_keeps c t s⟩
  | imageWrite c busy readErr chk out t => exact ⟨t, execImageWrite_keeps c busy readErr chk out t s⟩
  | imageCommit c busy out t => exact ⟨t, execImageCommit_keeps c busy out t s⟩
  | flsRead c busy dma out t => exact ⟨t, execFlsRead_keeps c busy dma out t s⟩
  | journalRecord t => exact ⟨t, execJournalRecord_keeps t s⟩
  | journalPageProgram out t => exact ⟨t, execJournalPageProgram_keeps out t s⟩
  | journalFlushTimeout out t => exact ⟨t, execJournalFlushTimeout_keeps out t s⟩
  | scrubPassStart t => exact ⟨t, execScrubPassStart_keeps t s⟩
  | scrubPassEnd corrMax out t => exact ⟨t, execScrubPassEnd_keeps corrMax out t s⟩
  | wearLevelMove out t => exact ⟨t, execWearLevelMove_keeps out t s⟩
  | flowstoneKaCycle out t => exact ⟨t, execFlowstoneKaCycle_keeps out t s⟩
  | nandTimeout c t => exact ⟨t, execNandTimeout_keeps c t s⟩
  | domainConsent d refuse t => exact ⟨t, execDomainConsent_keeps d refuse t s⟩
  | consentTimeout d block t => exact ⟨t, execConsentTimeout_keeps d block t s⟩
  | wakeRegulatorDone d t => exact ⟨t, execWakeRegulatorDone_keeps d t s⟩
  | wakeOscReady d delta t => exact ⟨t, execWakeOscReady_keeps d delta t s⟩
  | wakePllLock d w t => exact ⟨t, execWakePllLock_keeps d w t s⟩
  | wakeStepTimeout d t => exact ⟨t, execWakeStepTimeout_keeps d t s⟩
  | domReq m val t => exact ⟨t, execDomReq_keeps m val t s⟩
  | dozeEnter d t => exact ⟨t, execDozeEnter_keeps d t s⟩
  | dozeExit d t => exact ⟨t, execDozeExit_keeps d t s⟩
  | railFault r uv t => exact ⟨t, execRailFault_keeps r uv t s⟩
  | tempHigh mK t => exact ⟨t, execTempHigh_keeps mK t s⟩
  | testBlock c clearOk t => exact ⟨t, execTestBlock_keeps c clearOk t s⟩
  | testComplete o t => exact ⟨t, execTestComplete_keeps o t s⟩
  | jtagIdcode t => exact ⟨t, execJtagIdcode_keeps t s⟩
  | jtagBypass t => exact ⟨t, execJtagBypass_keeps t s⟩
  | jtagSamplePreload t => exact ⟨t, execJtagSamplePreload_keeps t s⟩
  | jtagExtest t => exact ⟨t, execJtagExtest_keeps t s⟩
  | jtagIntest t => exact ⟨t, execJtagIntest_keeps t s⟩
  | nirelLinkLock t => exact ⟨t, execNirelLinkLock_keeps t s⟩
  | nirelPairing p t => exact ⟨t, execNirelPairing_keeps p t s⟩
  | nirelPairingRetry p t => exact ⟨t, execNirelPairingRetry_keeps p t s⟩
  | nirelLinkDown t => exact ⟨t, execNirelLinkDown_keeps t s⟩
  | timingFrameTx t => exact ⟨t, execTimingFrameTx_keeps t s⟩
  | timingFrameRx frame arrivalRaw t => exact ⟨t, execTimingFrameRx_keeps frame arrivalRaw t s⟩
  | twinSample t => exact ⟨t, execTwinSample_keeps t s⟩
  | mirrorItemReceive item inStep lagUs t => exact ⟨t, execMirrorItemReceive_keeps item inStep lagUs t s⟩
  | handoverGive c t => exact ⟨t, execHandoverGive_keeps c t s⟩
  | handoverTake c peerAllows t => exact ⟨t, execHandoverTake_keeps c peerAllows t s⟩
  | handoverDrainDone bytes keys t => exact ⟨t, execHandoverDrainDone_keeps bytes keys t s⟩
  | handoverDeltaAck t => exact ⟨t, execHandoverDeltaAck_keeps t s⟩
  | globalFreeze m val t => exact ⟨t, execGlobalFreeze_keeps m val t s⟩
  | periodicFreeze t => exact ⟨t, execPeriodicFreeze_keeps t s⟩
  | counterSnap c t => exact ⟨t, execCounterSnap_keeps c t s⟩
  | snapDeliveryEnd poisoned t => exact ⟨t, execSnapDeliveryEnd_keeps poisoned t s⟩
  | memoryScrubVisit target offset res last t => exact ⟨t, execMemoryScrubVisit_keeps target offset res last t s⟩
  | vhtrRestored mv t => exact ⟨t, execVhtrRestored_keeps mv t s⟩
  | genlockFrameMissing t => exact ⟨t, execGenlockFrameMissing_keeps t s⟩
  | tamperRelease ball t => exact ⟨t, execTamperRelease_keeps ball t s⟩
  | msixUnmask f what vec t => exact ⟨t, execMsixUnmask_keeps f what vec t s⟩
  | modeReqUnreachable m target t => exact ⟨t, execModeReqUnreachable_keeps m target t s⟩
  | seqRunOpNone m t => exact ⟨t, execSeqRunOpNone_keeps m t s⟩
  | resetCtrlWrongKey m val t => exact ⟨t, execResetCtrlWrongKey_keeps m val t s⟩
  | alternateNotReady t => exact ⟨t, execAlternateNotReady_keeps t s⟩

/-- Power-on reset starts from a cleared state that has kept the queue and the ordering code. -/
theorem State.powerReset_keeps (s : State) :
    ∃ b, b.pending = s.pending ∧ b.variant = s.variant ∧ Keeps false b s.powerReset := by
  unfold State.powerReset
  refine ⟨_, ?pending, ?variant, State.wr_keeps (State.journalAfterLoss_keeps (State.drawSeeds_keeps
    (Keeps.foldl (Keeps.refl _ _) fun _ _ h => State.setReg_keeps h _ _))) _ _⟩
  case pending => rfl
  case variant => rfl

theorem State.powerOn_keeps (s : State) (p : PowerOn) : Keeps false s.powerReset (s.powerOn p) := by
  have h2 : Keeps false s.powerReset (((s.powerReset.setActiveLo p.losel).wrB TSC.LO_CTRL_SEL p.losel).deriveDevKey p.keyOk) :=
    State.deriveDevKey_keeps (State.wrB_keeps (State.setActiveLo_keeps (Keeps.refl _ _) _) _ _) _
  unfold State.powerOn
  exact Keeps.cut _ (Keeps.ite (State.sticky_keeps h2 _) h2) fun h3 =>
    Keeps.ite (Keeps.ite (State.setMode_keeps (State.zeroiseAll_keeps h3) _ _) (State.lockdown_keeps h3 _)) h3

/-- Settles O2: by `exec_keeps`, with power-on reset and the lock of the timing PLL on their own. -/
theorem everyCommandCompletes : Obligations.EveryCommandCompletes := by
  intro c s
  by_cases hp : ∃ p, c = .powerOnReset p
  · obtain ⟨p, rfl⟩ := hp
    obtain ⟨b, hpend, hvar, hk⟩ := s.powerReset_keeps
    have hu := hk.trans (s.powerOn_keeps p)
    exact ⟨_, rfl, hu.pending.trans hpend, hu.variant.trans hvar⟩
  · by_cases hl : c = .timingPllLock
    · subst hl
      refine ⟨_, rfl, ?_⟩
      split <;> exact ⟨rfl, rfl⟩
    · obtain ⟨t, u, hu, hk⟩ := exec_keeps c s (fun p h => hp ⟨p, h⟩) hl
      exact ⟨u, hu, by simp [hk.pending], by simp [hk.variant]⟩

end Sys2Proof.Machine

namespace Sys2Proof.Machine

/-! ### Bits left out of a word -/

/-- What remains of a word once the bits of a mask are taken out of it. -/
theorem testBit_sub_and (x m i : Nat) : (x - (x &&& m)).testBit i = (x.testBit i && !m.testBit i) := by
  have hle : x &&& m ≤ x := Nat.and_le_left
  have hlow := Nat.and_mod_two_eq_one (a := x) (b := m)
  induction i generalizing x m with
  | zero =>
    rw [Nat.testBit_zero, Nat.testBit_zero, Nat.testBit_zero, ← decide_not, ← Bool.decide_and, decide_eq_decide]
    omega
  | succ i ih =>
    have hhalf : (x - (x &&& m)) / 2 = x / 2 - (x / 2 &&& m / 2) := by
      rw [← Nat.and_div_two]
      omega
    rw [Nat.testBit_succ, Nat.testBit_succ, Nat.testBit_succ, hhalf]
    exact ih _ _ Nat.and_le_left Nat.and_mod_two_eq_one

/-! ### Where registers and commit groups lie -/

/-- An address of a port's block lies in the range of one of 32 ports. -/
theorem blkAt_prt_lt {a p : Nat} (h : blkAt a = some (.prt p)) : p < 32 := by
  unfold blkAt at h
  by_cases h1 : a < 0xC0000
  · rw [if_pos h1] at h
    split at h <;> cases h
  · rw [if_neg h1] at h
    simp only [ite_eq_iff, Option.some.injEq, Blk.prt.injEq, reduceCtorEq, and_false, false_or, or_false] at h
    omega

theorem Blk.commit_lt {a : Nat} {b : Blk} (h : blkAt a = some b) : b.commit < 2 ^ 32 := by
  cases b with
  | prt p =>
    have := blkAt_prt_lt h
    simp only [Blk.commit, Blk.commitOff, Blk.base]
    omega
  | _ => decide

theorem Tbl.le_key (t : Tbl) (i : Nat) : 2 ^ 32 ≤ t.key i := by
  unfold Tbl.key
  omega
/-- Where an access to address `a` may come out: at no key, at `a` itself or at a word of a table. -/
def ReachesFrom (a : Nat) (o : Option Nat) : Prop := ∀ k, o = some k → k = a ∨ 2 ^ 32 ≤ k

theorem ReachesFrom.none (a : Nat) : ReachesFrom a .none := fun _ h => nomatch h
theorem ReachesFrom.self (a : Nat) : ReachesFrom a (some a) := fun _ h => .inl (Option.some.inj h).symm
theorem ReachesFrom.table (a : Nat) (t : Tbl) (i : Nat) : ReachesFrom a (some (t.key i)) :=
  fun _ h => .inr (Option.some.inj h ▸ t.le_key i)
theorem ReachesFrom.ite {a : Nat} {c : Prop} [Decidable c] {x y : Option Nat} (hx : ReachesFrom a x) (hy : ReachesFrom a y) :
    ReachesFrom a (if c then x else y) := by
  split
  · exact hx
  · exact hy

theorem State.rspKey_reaches (s : State) (a : Nat) : ReachesFrom a s.rspKey := by
  unfold State.rspKey
  dsimp only
  split <;> apply_rules [ReachesFrom.ite, ReachesFrom.none, ReachesFrom.table]

theorem State.ptpKey_reaches (s : State) (a : Nat) : ReachesFrom a s.ptpKey := by
  unfold State.ptpKey
  dsimp only
  split <;> apply_rules [ReachesFrom.ite, ReachesFrom.none, ReachesFrom.table]

theorem State.keyOf_reaches (s : State) (m a : Nat) : ReachesFrom a (s.keyOf m a) := by
  unfold State.keyOf State.wakeKey
  dsimp only
  apply_rules [ReachesFrom.ite, ReachesFrom.none, ReachesFrom.self, ReachesFrom.table, State.rspKey_reaches, State.ptpKey_reaches]
  split <;> apply_rules [ReachesFrom.ite, ReachesFrom.none, ReachesFrom.self, ReachesFrom.table]

/-- A COMMIT register is reached under its own address only. -/
theorem State.keyOf_ne_commit {s : State} {m a k : Nat} {b : Blk} (hb : blkAt a = some b) (hk : s.keyOf m a = some k)
    (hc : a ≠ b.commit) : k ≠ b.commit := by
  have := Blk.commit_lt hb
  rcases s.keyOf_reaches m a k hk with rfl | h
  · exact hc
  · omega

/-! ### The fields of a register written (R11) -/

/-- The live word of a register of this row after `val` is written to it: RW bits as written, W1C bits written 1 clear. -/
def RegSpec.written (row : RegSpec) (live val : Nat) : Nat :=
  let kept := live - (live &&& row.maskOf .rw)
  (kept - (kept &&& row.maskOf .w1c &&& val)) ||| (val &&& row.maskOf .rw)

theorem RegSpec.testBit_written (row : RegSpec) (live val i : Nat) : (row.written live val).testBit i =
    if (row.maskOf .rw).testBit i then val.testBit i
    else live.testBit i && !((row.maskOf .w1c).testBit i && val.testBit i) := by
  unfold RegSpec.written
  dsimp only
  rw [Nat.and_assoc, Nat.testBit_or, testBit_sub_and, testBit_sub_and, Nat.testBit_and, Nat.testBit_and]
  cases (row.maskOf .rw).testBit i <;> simp

/-- The part of `State.writeFields` that acts on the live word. -/
def State.writeLive (s : State) (row : RegSpec) (k val : Nat) : State :=
  if row.maskOf .rw = 0 ∧ row.maskOf .w1c = 0 then s else s.setN k (row.written (s.nreg k) val)

/-- The part of `State.writeFields` that acts on the shadow. -/
def State.writeShadow (s : State) (row : RegSpec) (k val : Nat) : State :=
  let take := row.maskOf .rws - (row.maskOf .rws &&& s.fixedBits k)
  if take = 0 then s
  else s.setShadow k ((s.shadowWord k - (s.shadowWord k &&& take)) ||| (val &&& take))

/-- A register's fields are written in two parts: the live word, then the shadow, which a pending commit refuses (R19). -/
theorem State.writeFields_eq (s : State) (b : Blk) (row : RegSpec) (k val : Nat) : s.writeFields b row k val =
    if row.maskOf .rws = 0 then s.writeLive row k val
    else if (s.writeLive row k val).on (cmPENDING b) then (s.writeLive row k val).refuseCfg b
    else (s.writeLive row k val).writeShadow row k val := rfl

section
variable (s : State) (row : RegSpec) (k val : Nat)

theorem State.writeLive_eq : s.writeLive row k val = { s with regs := (s.writeLive row k val).regs } := by
  unfold State.writeLive
  split <;> rfl

@[simp] theorem State.writeLive_shadow : (s.writeLive row k val).shadow = s.shadow := by rw [s.writeLive_eq]
@[simp] theorem State.writeLive_fixedBits (a : Nat) : (s.writeLive row k val).fixedBits a = s.fixedBits a := by
  rw [s.writeLive_eq]
  rfl

theorem State.writeLive_regsWf (h : s.RegsWf) : (s.writeLive row k val).RegsWf := by
  unfold State.writeLive
  split
  · exact h
  · exact s.setN_regsWf _ _ h

theorem State.testBit_nreg_writeLive (h : s.RegsWf) (i : Nat) (hi : i < 32) :
    ((s.writeLive row k val).nreg k).testBit i =
      if (row.maskOf .rw).testBit i then val.testBit i
      else (s.nreg k).testBit i && !((row.maskOf .w1c).testBit i && val.testBit i) := by
  unfold State.writeLive
  split
  · rename_i h0
    simp [h0.1, h0.2]
  · rw [s.nreg_setN _ _ h, Nat.testBit_mod_two_pow, RegSpec.testBit_written]
    simp [hi]

theorem State.reg_writeLive_ne (h : s.RegsWf) (j : Nat) (hj : j ≠ k) : (s.writeLive row k val).reg j = s.reg j := by
  unfold State.writeLive
  split
  · rfl
  · exact s.reg_setN_ne _ _ _ h hj

theorem State.on_writeLive_ne (h : s.RegsWf) (f : Fld) (hf : f.addr ≠ k) : (s.writeLive row k val).on f = s.on f := by
  unfold State.on State.rd State.nreg
  rw [s.reg_writeLive_ne row k val h _ hf]

theorem State.writeShadow_eq : s.writeShadow row k val = { s with shadow := (s.writeShadow row k val).shadow } := by
  unfold State.writeShadow
  dsimp only
  split <;> rfl

@[simp] theorem State.reg_writeShadow (j : Nat) : (s.writeShadow row k val).reg j = s.reg j := by
  rw [s.writeShadow_eq]
  rfl

@[simp] theorem State.nreg_writeShadow (j : Nat) : (s.writeShadow row k val).nreg j = s.nreg j := by
  rw [State.nreg, s.reg_writeShadow, State.nreg]

theorem State.testBit_shadowWord_writeShadow (h : Store.rising s.shadow) (i : Nat) (hi : i < 32)
    (hr : (row.maskOf .rws).testBit i = true) (hf : (s.fixedBits k).testBit i = false) :
    ((s.writeShadow row k val).shadowWord k).testBit i = val.testBit i := by
  have htake : (row.maskOf .rws - (row.maskOf .rws &&& s.fixedBits k)).testBit i = true := by
    rw [testBit_sub_and, hr, hf]
    rfl
  unfold State.writeShadow
  dsimp only
  split
  · rename_i h0
    simp [h0] at htake
  · rw [s.shadowWord_setShadow _ _ h, Nat.testBit_mod_two_pow, Nat.testBit_or, testBit_sub_and, Nat.testBit_and, htake]
    simp [hi]

theorem State.shadowWord_writeShadow_ne (h : Store.rising s.shadow) (j : Nat) (hj : j ≠ k) :
    (s.writeShadow row k val).shadowWord j = s.shadowWord j := by
  unfold State.writeShadow
  dsimp only
  split
  · rfl
  · exact s.shadowWord_setShadow_ne _ _ _ h hj

end

/-- Live words written, then shadow words: nothing else has changed. -/
theorem State.eq_of_live_then_shadow {s t u : State} (ht : t = { s with regs := t.regs }) (hu : u = { t with shadow := u.shadow }) :
    u = { s with regs := u.regs, shadow := u.shadow } := by
  rw [hu]
  dsimp only
  rw [ht]

/-- A shadow word follows the listed shadows and, where none is listed, the live word. -/
theorem State.shadowWord_congr {s t : State} {k : Nat} (hs : t.shadow = s.shadow) (hr : t.reg k = s.reg k) :
    t.shadowWord k = s.shadowWord k := by
  unfold State.shadowWord State.nreg
  rw [hs, hr]

/-! ### A granted write of a register that no rule of its own governs -/

/-- Master `m`'s write of `val` to address `a` is granted and reaches key `k` of a register of row `row` of block `b`, which is
neither COMMIT nor STICKY nor held to a rule of its own. -/
structure State.PlainAccess (s : State) (m a val : Nat) (b : Blk) (row : RegSpec) (k : Nat) : Prop where
  blk : blkAt a = some b
  row : rowAt a = some row
  key : s.keyOf m a = some k
  granted : s.access m a .write = .granted
  ne_commit : a ≠ b.commit
  ne_sticky : a ≠ b.sticky
  sys : s.writeSys a (val % 2 ^ 32) = none
  own : s.writeOwn m a (val % 2 ^ 32) = none

section
variable {s : State} {m a val : Nat} {b : Blk} {row : RegSpec} {k : Nat}

theorem State.PlainAccess.busPut (h : s.PlainAccess m a val b row k) : s.busPut m a val = s.plainWrite m a (val % 2 ^ 32) := by
  simp only [State.busPut, State.regWrite, h.granted, h.blk, h.ne_commit, h.ne_sticky, h.sys, h.own, false_and, if_false]

/-- A write that no higher or lower word takes part in writes the register's fields. -/
theorem State.PlainAccess.busPut_fields (h : s.PlainAccess m a val b row k)
    (hold : ¬ (row.maskOf .rw = 2 ^ 32 - 1 ∧ row.lead + 1 < row.words)) (hhigh : ¬ (row.maskOf .rw ≠ 0 ∧ 0 < row.lead)) :
    s.busPut m a val = s.writeFields b row k (val % 2 ^ 32) := by
  rw [h.busPut]
  simp only [State.plainWrite, h.blk, h.row, h.key, if_neg hold, if_neg hhigh]

end

/-- Settles O7: the live word and the shadow are written as `writeLive` and `writeShadow` say. -/
theorem registerWriteSetsFields : Obligations.RegisterWriteSetsFields := by
  intro m a val s b row k hc hb hrow hk hacc hcom hst hsys hown hlead hwords hpend
  have hplain : s.PlainAccess m a val b row k := ⟨hb, hrow, hk, hacc, hcom, hst, hsys, hown⟩
  have hkc : k ≠ b.commit := State.keyOf_ne_commit hb hk hcom
  have hbit : ∀ i, i < 32 → (val % 2 ^ 32).testBit i = val.testBit i := fun i hi => by
    rw [Nat.testBit_mod_two_pow, decide_eq_true hi, Bool.true_and]
  refine ⟨_, rfl, ?_⟩
  rw [hplain.busPut_fields (by omega) (by omega), State.writeFields_eq]
  generalize val % 2 ^ 32 = v at hbit ⊢
  have hlive : ∀ i, i < 32 → ((s.writeLive row k v).nreg k).testBit i =
      if (row.maskOf .rw).testBit i then val.testBit i
      else (s.nreg k).testBit i && !((row.maskOf .w1c).testBit i && val.testBit i) := fun i hi => by
    rw [s.testBit_nreg_writeLive row k v hc.regs i hi, hbit i hi]
  have hother := s.reg_writeLive_ne row k v hc.regs
  have hshadow : ∀ j, j ≠ k → (s.writeLive row k v).shadowWord j = s.shadowWord j :=
    fun j hj => State.shadowWord_congr (s.writeLive_shadow ..) (hother j hj)
  by_cases hrws : row.maskOf .rws = 0
  · rw [if_pos hrws]
    exact ⟨hlive, by simp [hrws], hother, hshadow, State.eq_of_live_then_shadow (s.writeLive_eq ..) rfl⟩
  · have hgroup : (s.writeLive row k v).on (cmPENDING b) = false :=
      (s.on_writeLive_ne row k v hc.regs (cmPENDING b) hkc.symm).trans hpend
    have hrise : Store.rising (s.writeLive row k v).shadow := by simpa using hc.shadow
    rw [if_neg hrws, hgroup, if_neg Bool.false_ne_true]
    refine ⟨by simpa using hlive, fun i hi hr hf => ?_, by simpa using hother, fun j hj => ?_,
      State.eq_of_live_then_shadow (s.writeLive_eq ..) (State.writeShadow_eq ..)⟩
    · rw [State.testBit_shadowWord_writeShadow _ _ _ _ hrise i hi hr (by simpa using hf), hbit i hi]
    · rw [State.shadowWord_writeShadow_ne _ _ _ _ hrise j hj, hshadow j hj]

end Sys2Proof.Machine

namespace Sys2Proof.Machine

/-! ### COMMIT and STICKY registers among the registers an alarm writes -/

theorem Blk.commit_not_mem_alarmKeys {a : Nat} {b : Blk} (h : blkAt a = some b) : b.commit ∉ alarmKeys := by
  cases b with
  | prt p => exact (by decide : ∀ p < 32, (Blk.prt p).commit ∉ alarmKeys) p (blkAt_prt_lt h)
  | _ => decide

theorem Blk.sticky_not_mem_alarmNums {a : Nat} {b : Blk} (h : blkAt a = some b) : b.sticky ∉ alarmNums := by
  cases b with
  | prt p => exact (by decide : ∀ p < 32, (Blk.prt p).sticky ∉ alarmNums) p (blkAt_prt_lt h)
  | _ => decide

theorem Blk.commit_ne_sticky (b : Blk) : b.commit ≠ b.sticky := by
  cases b with
  | prt p => simp [Blk.commit, Blk.commitOff, Blk.sticky, Blk.stickyOff]
  | _ => decide

/-! ### A refusal (R18, R21) -/

/-- A field reads alike where its register does. -/
theorem State.on_congr {s t : State} {f : Fld} (h : t.reg f.addr = s.reg f.addr) : t.on f = s.on f := by
  unfold State.on State.rd State.nreg
  rw [h]

theorem State.refuseCfg_signals (s : State) (b : Blk) : Signals [b.sticky] s (s.refuseCfg b) :=
  s.sticky_signals _ rfl (by decide : 0 < 32) (.inl (List.mem_singleton.mpr rfl))

theorem State.refuseCfg_on {s : State} {a : Nat} {b : Blk} (hb : blkAt a = some b) (h : s.RegsWf) :
    (s.refuseCfg b).on b.cfgRefused = true :=
  s.sticky_on _ h rfl (by decide : 0 < 32) (Blk.sticky_not_mem_alarmNums hb)

/-- A refusal leaves the COMMIT register. -/
theorem State.refuseCfg_reg_commit {s : State} {a : Nat} {b : Blk} (hb : blkAt a = some b) (h : s.RegsWf) :
    (s.refuseCfg b).reg b.commit = s.reg b.commit :=
  (s.refuseCfg_signals b).reg h _ (by simpa using b.commit_ne_sticky) (Blk.commit_not_mem_alarmKeys hb)

/-! ### A write of GO (R16 to R19) -/

theorem State.on_pending_view (s : State) (b : Blk) (v : Nat) (h : s.RegsWf) :
    (s.wr (cmVIEW b) v).on (cmPENDING b) = s.on (cmPENDING b) := by
  unfold State.on
  rw [s.rd_wr_disj (cmVIEW b) (cmPENDING b) v h (by decide : 1 + 1 ≤ 32) rfl (.inr (by decide : 1 + 1 ≤ 2))]

theorem State.on_pending_refused (s : State) (b : Blk) (v : Nat) (h : s.RegsWf) :
    (s.wr (cmREFUSED b) v).on (cmPENDING b) = s.on (cmPENDING b) := by
  unfold State.on
  rw [s.rd_wr_disj (cmREFUSED b) (cmPENDING b) v h (by decide : 4 + 1 ≤ 32) rfl (.inl (by decide : 2 + 1 ≤ 4))]

/-- A granted write of GO sets VIEW to 0 and lets the group go. -/
theorem exec_commitGo {s : State} {m : Nat} {b : Blk} (ho : b.commitOff.isSome = true) (hg : s.access m b.commit .write = .granted) :
    exec (.commitGo m b) s = .next ((s.wr (cmVIEW b) 0).groupGo b) := by
  have hn : b.commitOff ≠ none := Option.isSome_iff_ne_none.mp ho
  show execCommitGo m b s = _
  unfold execCommitGo State.busWrite
  rw [if_neg hn, hg]
  rfl

theorem State.groupGo_pending {s : State} {b : Blk} (ho : b.commitOff.isSome = true) (hp : s.on (cmPENDING b) = true) :
    s.groupGo b = s.refuseCfg b := by
  unfold State.groupGo
  rw [if_neg (Option.isSome_iff_ne_none.mp ho), if_pos hp]

theorem State.groupGo_invalid {s : State} {b : Blk} (ho : b.commitOff.isSome = true) (hp : s.on (cmPENDING b) = false)
    (hv : s.groupValid b = false) : s.groupGo b = (s.wr (cmREFUSED b) 1).refuseCfg b := by
  unfold State.groupGo
  rw [if_neg (Option.isSome_iff_ne_none.mp ho), hp, hv]
  rfl

/-- Settles O12: REFUSED is written before the refusal, which leaves COMMIT. -/
theorem invalidCommitRefused : Obligations.InvalidCommitRefused := by
  intro m b s hc ho hb _ hg hp hv
  have hw := s.wr_regsWf (cmVIEW b) 0 hc.regs
  have hp' := (s.on_pending_view b 0 hc.regs).trans hp
  refine ⟨_, exec_commitGo ho hg, ?_⟩
  rw [State.groupGo_invalid ho hp' hv]
  generalize hs : s.wr (cmVIEW b) 0 = v at hw hp' ⊢
  have hw1 := v.wr_regsWf (cmREFUSED b) 1 hw
  have hreg := State.refuseCfg_reg_commit hb hw1
  refine ⟨?_, ?_, State.refuseCfg_on hb hw1, ?_⟩
  · rw [State.on_congr (f := cmPENDING b) hreg, v.on_pending_refused b 1 hw, hp']
  · rw [State.on_congr (f := cmREFUSED b) hreg]
    exact v.on_wr _ hw (by decide : 4 + 1 ≤ 32) rfl
  · have hcommit : b.commit ∈ [b.commit, b.sticky] := List.mem_cons_self
    subst hs
    exact ((Signals.wr s (cmVIEW b) 0 (.inl hcommit)).trans (Signals.wr _ (cmREFUSED b) 1 (.inl hcommit))).trans
      ((State.refuseCfg_signals _ b).mono (by simp))

/-- Settles O13: both writes come to a refusal, which leaves COMMIT and the shadows. -/
theorem pendingCommitIgnoresWrites : Obligations.PendingCommitIgnoresWrites := by
  intro m b s hc ho hb _ hp
  constructor
  · intro hg
    have hw := s.wr_regsWf (cmVIEW b) 0 hc.regs
    have hp' := (s.on_pending_view b 0 hc.regs).trans hp
    have hsig : Signals [b.commit, b.sticky] s (s.wr (cmVIEW b) 0) := Signals.wr s (cmVIEW b) 0 (.inl List.mem_cons_self)
    refine ⟨_, exec_commitGo ho hg, ?_⟩
    rw [State.groupGo_pending ho hp']
    have hall := hsig.trans ((State.refuseCfg_signals _ b).mono (by simp))
    exact ⟨hall.shadow, (State.on_congr (f := cmPENDING b) (State.refuseCfg_reg_commit hb hw)).trans hp',
      State.refuseCfg_on hb hw, hall⟩
  · intro a val row k hba hrow hk hacc hcom hst hsys hown hrws hfull hlow
    have hplain : s.PlainAccess m a val b row k := ⟨hba, hrow, hk, hacc, hcom, hst, hsys, hown⟩
    have hw := s.writeLive_regsWf row k (val % 2 ^ 32) hc.regs
    have hp' : (s.writeLive row k (val % 2 ^ 32)).on (cmPENDING b) = true :=
      (s.on_writeLive_ne row k _ hc.regs (cmPENDING b) (State.keyOf_ne_commit hba hk hcom).symm).trans hp
    refine ⟨_, rfl, ?_⟩
    rw [hplain.busPut_fields (by omega) (by omega), State.writeFields_eq, if_neg hrws, if_pos hp']
    exact ⟨by rw [(State.refuseCfg_signals _ b).shadow, State.writeLive_shadow],
      (State.on_congr (f := cmPENDING b) (State.refuseCfg_reg_commit hb hw)).trans hp', State.refuseCfg_on hb hw⟩

end Sys2Proof.Machine

namespace Sys2Proof.Machine

/-! ### Operations that write registers and nothing else -/

/-- `t` is `s` but for the registers `ks`. -/
structure RegsOnly (ks : List Nat) (s t : State) : Prop where
  eq : t = { s with regs := t.regs }
  regsWf : s.RegsWf → t.RegsWf
  reg : s.RegsWf → ∀ j, j ∉ ks → t.reg j = s.reg j

section
variable {ks : List Nat} {s t u : State}

theorem RegsOnly.refl (ks : List Nat) (s : State) : RegsOnly ks s s := ⟨rfl, id, fun _ _ _ => rfl⟩

theorem RegsOnly.setN (h : RegsOnly ks s t) (k v : Nat) (hk : k ∈ ks) : RegsOnly ks s (t.setN k v) where
  eq := by
    rw [h.eq]
    rfl
  regsWf w := t.setN_regsWf k v (h.regsWf w)
  reg w j hj := (t.reg_setN_ne k j v (h.regsWf w) fun e => hj (e ▸ hk)).trans (h.reg w j hj)

theorem RegsOnly.wr (h : RegsOnly ks s t) (f : Fld) (v : Nat) (hk : f.addr ∈ ks) : RegsOnly ks s (t.wr f v) := h.setN _ _ hk

theorem RegsOnly.ite {c : Prop} [Decidable c] (ht : RegsOnly ks s t) (hu : RegsOnly ks s u) :
    RegsOnly ks s (if c then t else u) := by
  split
  · exact ht
  · exact hu

end

/-! ### Sticky bits cleared (R12) -/

/-- The sticky word that a W1C write of `val` leaves where the events of `recurs` recur. -/
def stickyLeft (old val recurs : Nat) : Nat :=
  (old &&& (0xFFFFFFFF - (val &&& 0xFFFFFFFF))) ||| (old &&& val &&& recurs)

theorem testBit_stickyLeft (old val recurs i : Nat) (hi : i < 32) :
    (stickyLeft old val recurs).testBit i = (old.testBit i && (!val.testBit i || recurs.testBit i)) := by
  have hnot : (0xFFFFFFFF - (val &&& 0xFFFFFFFF)).testBit i = !val.testBit i := by
    rw [Nat.and_comm, testBit_sub_and, show 0xFFFFFFFF = 2 ^ 32 - 1 from rfl, Nat.testBit_two_pow_sub_one, decide_eq_true hi,
      Bool.true_and]
  rw [stickyLeft, Nat.testBit_or, Nat.testBit_and, Nat.testBit_and, Nat.testBit_and, hnot]
  cases old.testBit i <;> cases val.testBit i <;> rfl

/-- The registers beside a block's sticky register that a write of it may change. -/
def stickyKeys (b : Blk) : List Nat :=
  [PMC.ALARM_SUM, PMC.ALARM_PORTS, PMC.HALF_IDX, FAB.LEDGER_FAULT] ++
    match b with
    | .prt p => [PRT.STATS_SEL p]
    | _ => []

theorem Blk.sticky_not_mem_stickyKeys {a : Nat} {b : Blk} (h : blkAt a = some b) : b.sticky ∉ stickyKeys b := by
  cases b with
  | prt p => exact (by decide : ∀ p < 32, (Blk.prt p).sticky ∉ stickyKeys (.prt p)) p (blkAt_prt_lt h)
  | _ => decide

theorem State.clearSticky_regsOnly (s : State) (b : Blk) (val recurs : Nat) :
    RegsOnly (stickyKeys b) (s.setN b.sticky (stickyLeft (s.nreg b.sticky) val recurs)) (s.clearSticky b val recurs) := by
  have hs := RegsOnly.refl (stickyKeys b) (s.setN b.sticky (stickyLeft (s.nreg b.sticky) val recurs))
  unfold State.clearSticky
  refine RegsOnly.ite ?_ hs
  split
  · rename_i p
    have hp := hs.wr ⟨PMC.ALARM_PORTS, p, 1⟩ 0 (by simp [stickyKeys])
    exact RegsOnly.ite (hp.wr _ 0 (by simp [stickyKeys])) hp
  · exact hs.wr _ 0 (by simp [stickyKeys])

theorem State.stickyWrite_regsOnly (s : State) (b : Blk) (val recurs : Nat) :
    RegsOnly (stickyKeys b) (s.setN b.sticky (stickyLeft (s.nreg b.sticky) val recurs)) (s.stickyWrite b val recurs) := by
  have hc := s.clearSticky_regsOnly b val recurs
  unfold State.stickyWrite
  dsimp only
  split
  · exact RegsOnly.ite (hc.wr _ 0 (by simp [stickyKeys, PRT.STATS_SEL_HALF_VALID])) hc
  · exact RegsOnly.ite (hc.wr _ 0 (by simp [stickyKeys])) hc
  · exact RegsOnly.ite (hc.wr _ 0 (by simp [stickyKeys, FAB.LEDGER_FAULT_VALID])) hc
  · exact hc

/-- Settles O8: the sticky register is written first, and `stickyWrite_regsOnly` leaves it from there on. -/
theorem stickyBitsClearWhereWritten : Obligations.StickyBitsClearWhereWritten := by
  intro m val recurs b s hc hb hg
  have hw := s.setN_regsWf b.sticky (stickyLeft (s.nreg b.sticky) val recurs) hc.regs
  have hk := s.stickyWrite_regsOnly b val recurs
  have hexec : exec (.stickyClear m b val recurs) s = .next (s.stickyWrite b val recurs) := by
    show execStickyClear m b val recurs s = _
    unfold execStickyClear State.busWrite
    rw [hg]
  refine ⟨_, hexec, fun i hi => ?_, fun j hj hport => ?_, hk.eq⟩
  · have hreg := hk.reg hw _ (Blk.sticky_not_mem_stickyKeys hb)
    rw [State.nreg, hreg, ← State.nreg, s.nreg_setN _ _ hc.regs, Nat.testBit_mod_two_pow, testBit_stickyLeft _ _ _ _ hi,
      decide_eq_true hi, Bool.true_and]
  · simp only [List.mem_cons, List.not_mem_nil, or_false, not_or] at hj
    obtain ⟨hst, hsum, hports, hhalf, hfault⟩ := hj
    have hmem : j ∉ stickyKeys b := by
      cases b with
      | prt p => simpa [stickyKeys, hsum, hports, hhalf, hfault, PRT.STATS_SEL_HALF_VALID] using hport p rfl
      | _ => simp [stickyKeys, hsum, hports, hhalf, hfault]
    exact (hk.reg hw j hmem).trans (s.reg_setN_ne _ _ _ hc.regs hst)

end Sys2Proof.Machine

namespace Sys2Proof.Machine

/-! ### A denied access (R36) -/

/-- A denial counted and recorded, before it signals. -/
def State.recordDenial (s : State) (m t : Nat) (r : Right) (secret : Bool) : State :=
  (s.bump FAB.DENY_COUNT).setN FAB.DENY_LAST (m + 2 ^ 8 * t + 2 ^ 16 * r.code + 2 ^ 18 * b2n secret)

theorem State.deny_eq (s : State) (m t : Nat) (r : Right) (secret : Bool) :
    s.deny m t r secret = ((s.recordDenial m t r secret).sticky FAB.STICKY_DENIED).count 2 5 0 := rfl

section
variable (s : State) (m t : Nat) (r : Right) (secret : Bool)

theorem State.recordDenial_signals : Signals [FAB.DENY_COUNT, FAB.DENY_LAST] s (s.recordDenial m t r secret) :=
  (Signals.bump s _ 1 (.inl (by simp))).trans (Signals.setN _ _ _ (.inl (by simp)))

theorem State.sticky_denied_signals : Signals [] s (s.sticky FAB.STICKY_DENIED) :=
  s.sticky_signals _ rfl (by decide) (.inr (by decide))

/-- Once an access is counted and recorded, its denial only signals. -/
theorem State.deny_signals_recorded : Signals [] (s.recordDenial m t r secret) (s.deny m t r secret) :=
  (State.sticky_denied_signals _).trans (State.count_signals _ _ _ _ _)

theorem State.deny_signals : Signals [FAB.DENY_COUNT, FAB.DENY_LAST] s (s.deny m t r secret) :=
  (s.recordDenial_signals m t r secret).trans ((s.deny_signals_recorded m t r secret).mono (by simp))

variable {s}

theorem State.recordDenial_regsWf (h : s.RegsWf) : (s.recordDenial m t r secret).RegsWf :=
  (s.recordDenial_signals m t r secret).regsWf h

theorem State.nreg_deny_count (h : s.RegsWf) :
    (s.deny m t r secret).nreg FAB.DENY_COUNT = (s.nreg FAB.DENY_COUNT + 1) % 2 ^ 32 := by
  have hreg := (s.deny_signals_recorded m t r secret).reg (State.recordDenial_regsWf m t r secret h) FAB.DENY_COUNT
    (by simp) (by decide)
  rw [State.nreg, hreg, State.recordDenial, State.bump, State.reg_setN_ne _ _ _ _ (s.setN_regsWf _ _ h) (by decide)]
  exact s.nreg_setN _ _ h

theorem State.nreg_deny_last (h : s.RegsWf) :
    (s.deny m t r secret).nreg FAB.DENY_LAST = (m + 2 ^ 8 * t + 2 ^ 16 * r.code + 2 ^ 18 * b2n secret) % 2 ^ 32 := by
  have hreg := (s.deny_signals_recorded m t r secret).reg (State.recordDenial_regsWf m t r secret h) FAB.DENY_LAST
    (by simp) (by decide)
  rw [State.nreg, hreg]
  exact State.nreg_setN _ _ _ (s.setN_regsWf _ _ h)

theorem State.deny_on (h : s.RegsWf) : (s.deny m t r secret).on FAB.STICKY_DENIED = true := by
  have hw := State.recordDenial_regsWf m t r secret h
  rw [State.deny_eq]
  exact (State.count_signals (ks := []) _ 2 5 0 1).on ((State.sticky_denied_signals _).regsWf hw) _ rfl (by decide) (by decide)
    (by simp) (State.sticky_on _ _ hw rfl (by decide) (by decide))

end

/-! ### Denied accesses on the register bus -/

section
variable {s : State} {m a : Nat} {b : Blk}

/-- A denied write is recorded, and nothing else, where no operation of the register reports a STATUS. -/
theorem State.busPut_denied (val : Nat) (hb : blkAt a = some b) (hd : s.access m a .write = .denied)
    (hst : a ∉ [PTP.GRANT_CMD, GNC.CH_SEL, PWR.DOM_REQ]) : s.busPut m a val = s.deny m b.target .write := by
  simp only [List.mem_cons, List.not_mem_nil, or_false, not_or] at hst
  obtain ⟨hgrant, hch, hdom⟩ := hst
  unfold State.busPut
  simp only [hd, hb]
  simp only [State.denyStatus, hgrant, hch, hdom, if_false]

theorem State.busRead_denied (hb : blkAt a = some b) (hd : s.access m a .read = .denied) :
    s.busRead m a = (s.deny m b.target .read, 0) := by
  unfold State.busRead
  simp only [hd, hb]

end

/-- Settles O10: a write with too few byte enables comes to a refusal of FAB, a denied access to `State.deny`. -/
theorem partialAndDeniedAccessesChangeNothing : Obligations.PartialAndDeniedAccessesChangeNothing := by
  intro m a val b s hc
  refine ⟨fun en hen => ?_, fun hb hd hst => ?_, fun hb hd => ?_⟩
  · have hexec : exec (.partialByteWrite m a val en) s = .next (s.sticky FAB.STICKY_CFG_REFUSED) :=
      congrArg Host.Outcome.next (if_neg hen)
    exact ⟨_, hexec, s.sticky_on _ hc.regs rfl (by decide) (by decide),
      s.sticky_signals _ rfl (by decide) (.inr (by decide))⟩
  · have hexec : exec (.registerWrite m a val) s = .next (s.deny m b.target .write) :=
      congrArg Host.Outcome.next (State.busPut_denied val hb hd hst)
    exact ⟨_, hexec, State.nreg_deny_count _ _ _ _ hc.regs, State.nreg_deny_last _ _ _ _ hc.regs, State.deny_on _ _ _ _ hc.regs,
      s.deny_signals _ _ _ _⟩
  · have hread := State.busRead_denied hb hd
    have hexec : exec (.multiwordLowRead m a) s = .next (s.deny m b.target .read) :=
      congrArg (fun r : State × Nat => Host.Outcome.next r.1) hread
    exact ⟨_, hexec, State.nreg_deny_count _ _ _ _ hc.regs, State.nreg_deny_last _ _ _ _ hc.regs, State.deny_on _ _ _ _ hc.regs,
      congrArg Prod.snd hread, s.deny_signals _ _ _ _⟩

end Sys2Proof.Machine

namespace Sys2Proof.Machine

/-! ### A shadow listed at a COMMIT register

The canonical form says of the shadows that their keys rise, not which keys they are. A state that lists one under the COMMIT
register's own address, with PENDING 1 in it, is canonical, though no write brings it about: a write of COMMIT is a write of its
fields (R16), and COMMIT has no RWS bits. Where such a group takes effect, the shadow sets PENDING again after it was cleared. -/

/-- The engine in Service with the commit of `b` pending and a shadow listed at its COMMIT register, PENDING 1. -/
def shadowedCommit (b : Blk) : State :=
  { (State.reset.wr GLB.MODE_CURRENT 4).wr (cmPENDING b) 1 with shadow := [(b.commit, 4)] }

theorem shadowedCommit_canon (b : Blk) : (shadowedCommit b).Canon where
  regs := (State.reset.wr GLB.MODE_CURRENT 4).wr_regsWf (cmPENDING b) 1 (State.reset.wr_regsWf GLB.MODE_CURRENT 4 (by rfl))
  shadow := List.pairwise_singleton _ _
  latch := rfl
  held := rfl
  mem := rfl
  ts := rfl
  cmps := rfl
  sqs := rfl
  raw := rfl

/-- The safe point of FAB finds PENDING set again by the shadow. -/
theorem shadowedCommit_fab_stays_pending : ((shadowedCommit .fab).groupTake .fab).on (cmPENDING .fab) = true := by decide

/-- So does a selector tick, for REF. -/
theorem shadowedCommit_ref_stays_pending :
    (((((shadowedCommit .ref).tick []).settled (shadowedCommit .ref)).dscEvent 1).count 7 1 0).on (cmPENDING .ref) = true := by
  decide +kernel

/-- Refutes O11: with a shadow listed at `FAB.COMMIT` and PENDING 1 in it, the set that takes effect leaves PENDING set. -/
theorem not_commitGoDiscardAndEffect : ¬ Obligations.CommitGoDiscardAndEffect := by
  intro h
  obtain ⟨-, -, htake⟩ := h 0 .fab (shadowedCommit .fab) (shadowedCommit_canon .fab) (by decide) (by decide) (by decide)
  obtain ⟨u, hu, hclear, -⟩ := htake 0 (by decide)
  obtain rfl : (shadowedCommit .fab).groupTake .fab = u := by
    injection hu
  exact Bool.false_ne_true (hclear.symm.trans shadowedCommit_fab_stays_pending)

/-- Refutes O31: with a shadow listed at `REF.COMMIT` and PENDING 1 in it, a tick leaves the commit of REF pending. -/
theorem not_tickEndsCommitsAndLogsSwitches : ¬ Obligations.TickEndsCommitsAndLogsSwitches := by
  intro h
  obtain ⟨u, hu, hclear, -⟩ := h [] 0 (shadowedCommit .ref) (shadowedCommit_canon .ref)
  obtain rfl : (((((shadowedCommit .ref).tick []).settled (shadowedCommit .ref)).dscEvent 1).count 7 1 0) = u := by
    injection hu
  exact Bool.false_ne_true (hclear.symm.trans shadowedCommit_ref_stays_pending)

end Sys2Proof.Machine

namespace Sys2Proof.Machine

/-! ### The latches of a read (R14) -/

/-- What a register shows does not depend on what is latched. -/
theorem State.current_latch (s : State) (l : Store Word) (m a : Nat) : ({ s with latch := l }).current m a = s.current m a := rfl

/-- The `n` words above address `a` latched for master `m`. -/
def State.latchHigher (s : State) (m a n : Nat) : State :=
  (List.range n).foldl (fun t k => t.latchWord m (a + 4 * (k + 1))) s

section
variable (s : State) (m a n : Nat)

theorem State.latchHigher_succ :
    s.latchHigher m a (n + 1) = (s.latchHigher m a n).latchWord m (a + 4 * (n + 1)) := by
  simp [State.latchHigher, List.range_succ]

theorem State.latchHigher_eq : s.latchHigher m a n = { s with latch := (s.latchHigher m a n).latch } := by
  induction n with
  | zero => rfl
  | succ n ih =>
    rw [s.latchHigher_succ, ih]
    rfl

theorem State.latchHigher_current (m' a' : Nat) : (s.latchHigher m a n).current m' a' = s.current m' a' := by
  rw [s.latchHigher_eq, State.current_latch]

theorem State.latchHigher_wf (h : Store.wf zWord32 s.latch = true) : Store.wf zWord32 (s.latchHigher m a n).latch = true := by
  induction n with
  | zero => exact h
  | succ n ih =>
    rw [s.latchHigher_succ]
    exact Store.put_wf ih

theorem State.get_latchHigher_ne (h : Store.wf zWord32 s.latch = true) (k : Nat)
    (hk : ∀ i, 1 ≤ i → i ≤ n → k ≠ latchKey m (a + 4 * i)) :
    Store.get zWord32 (s.latchHigher m a n).latch k = Store.get zWord32 s.latch k := by
  induction n with
  | zero => rfl
  | succ n ih =>
    rw [s.latchHigher_succ]
    exact (Store.get_put_ne (s.latchHigher_wf m a n h) (hk _ (by omega) (by omega))).trans
      (ih fun i h1 h2 => hk i h1 (by omega))

theorem State.get_latchHigher (h : Store.wf zWord32 s.latch = true) (i : Nat) (h1 : 1 ≤ i) (hn : i ≤ n) :
    Store.get zWord32 (s.latchHigher m a n).latch (latchKey m (a + 4 * i)) = BitVec.ofNat 32 (s.current m (a + 4 * i)) := by
  induction n with
  | zero => omega
  | succ n ih =>
    rw [s.latchHigher_succ]
    have hw := s.latchHigher_wf m a n h
    rcases Nat.lt_or_ge n i with hi | hi
    · obtain rfl : i = n + 1 := by omega
      rw [← s.latchHigher_current m a n]
      exact Store.get_put_same hw
    · refine (Store.get_put_ne hw ?_).trans (ih hi)
      unfold latchKey
      omega

end

/-- A granted read of a lowest word, the tick registers apart, latches the words above it. -/
theorem State.readLatch_lowest {s : State} {m a : Nat} {row : RegSpec} (hrow : rowAt a = some row) (hlead : row.lead = 0)
    (hwords : 2 ≤ row.words) (hs : a ≠ GNA.TICK_SAMPLES_LO) (ht : a ≠ GNA.TICK_TIME_LO) :
    s.readLatch m a = s.latchHigher m a (row.words - 1) := by
  have hlatches : ¬ (row.lead ≠ 0 ∨ row.words < 2 ∨ (a = GNA.TICK_TIME_LO ∧ s.ticked m = true)) := by
    simp only [hlead, ne_eq, not_true_eq_false, ht, false_and, or_false, false_or]
    omega
  unfold State.readLatch
  simp only [hrow, if_neg hlatches, if_neg hs]
  rfl

/-- A higher word reads as it is latched. -/
theorem State.readWord_higher {s : State} {m a : Nat} {row : RegSpec} (hrow : rowAt a = some row) (hlead : 0 < row.lead) :
    s.readWord m a = (Store.get zWord32 s.latch (latchKey m a)).toNat := by
  unfold State.readWord
  simp only [hrow]
  rw [if_pos (.inl hlead)]

/-! ### Values of two words written (R15) -/

/-- A higher word lies above the word before it. -/
theorem Blk.four_le_off_of_lead (b : Blk) : ∀ r ∈ b.rows, 0 < r.lead → 4 ≤ r.off := by
  cases b with
  | prt p => exact (by decide : ∀ r ∈ PRT.rows, 0 < r.lead → 4 ≤ r.off)
  | _ => decide

theorem four_le_of_lead {a : Nat} {row : RegSpec} (h : rowAt a = some row) (hlead : 0 < row.lead) : 4 ≤ a := by
  unfold rowAt at h
  split at h
  · cases h
  · rename_i b _
    have hoff := b.four_le_off_of_lead row (List.mem_of_find?_eq_some h) hlead
    have hidx : (row.indexAt (a - b.base)).isSome = true :=
      List.find?_some (p := fun r : RegSpec => (r.indexAt (a - b.base)).isSome) h
    unfold RegSpec.indexAt at hidx
    split at hidx
    · cases hidx
    · omega

section
variable {s : State} {m a val : Nat} {b : Blk} {row : RegSpec} {k : Nat}

/-- A lower word is held. -/
theorem State.PlainAccess.busPut_low (h : s.PlainAccess m a val b row k) (hrw : row.maskOf .rw = 2 ^ 32 - 1)
    (hl : row.lead + 1 < row.words) : s.busPut m a val = s.hold a (some (BitVec.ofNat 32 val)) := by
  rw [h.busPut]
  simp only [State.plainWrite, h.blk, h.row, h.key, if_pos (And.intro hrw hl)]
  rw [show BitVec.ofNat 32 (val % 2 ^ 32) = BitVec.ofNat 32 val from BitVec.eq_of_toNat_eq (by simp)]

/-- The highest word takes the held ones with it. -/
theorem State.PlainAccess.busPut_high (h : s.PlainAccess m a val b row k) (hrw : row.maskOf .rw ≠ 0) (hl : 0 < row.lead)
    (hlast : row.words = row.lead + 1) : s.busPut m a val = (s.applyHeld row a).writeFields b row k (val % 2 ^ 32) := by
  rw [h.busPut]
  simp only [State.plainWrite, h.blk, h.row, h.key, hlast, Nat.lt_irrefl, and_false, if_false, if_pos (And.intro hrw hl)]

end

/-- The held word of a value of two words takes effect, if there is one. -/
theorem State.applyHeld_one {s : State} {row : RegSpec} {a : Nat} (hl : row.lead = 1) : s.applyHeld row a =
    match s.heldWord (a - 4) with
    | some w => (s.setReg (a - 4) w).hold (a - 4) none
    | none => s := by
  unfold State.applyHeld
  rw [hl]
  rfl

/-- What a held word leaves once it has taken effect: the live word it was written for, and none held. -/
theorem State.applyHeld_spec {s : State} {row : RegSpec} {a : Nat} (hl : row.lead = 1) (hw : s.RegsWf)
    (hh : Store.wf (fun _ => none) s.held = true) :
    (s.applyHeld row a).RegsWf ∧ (s.applyHeld row a).heldWord (a - 4) = none
      ∧ (∀ w, s.heldWord (a - 4) = some w → (s.applyHeld row a).reg (a - 4) = w)
      ∧ (s.heldWord (a - 4) = none → (s.applyHeld row a).reg (a - 4) = s.reg (a - 4))
      ∧ (∀ j, j ≠ a - 4 → (s.applyHeld row a).reg j = s.reg j)
      ∧ s.applyHeld row a = { s with regs := (s.applyHeld row a).regs, held := (s.applyHeld row a).held } := by
  rw [State.applyHeld_one hl]
  cases hheld : s.heldWord (a - 4) with
  | none => exact ⟨hw, hheld, by simp, fun _ => rfl, fun _ _ => rfl, rfl⟩
  | some w =>
    refine ⟨s.setReg_regsWf _ _ hw, Store.get_put_same hh, fun w' h => ?_, by simp, fun j hj => s.reg_setReg_ne _ _ _ hw hj, rfl⟩
    cases h
    exact s.reg_setReg _ _ hw

/-- Settles O9: reads by `latchHigher`, writes by the held word and then the fields. -/
theorem multiwordReadsLatchAndWritesTakeEffect : Obligations.MultiwordReadsLatchAndWritesTakeEffect := by
  refine ⟨fun m a s row hrow hacc hlead hwords hs ht hend hwf => ?_, fun m a s row hrow hlead => State.readWord_higher hrow hlead,
    fun m a val s b row hc hh hb hrow hk hacc hcom hst hsys hown hwords => ?_⟩
  · have hexec : exec (.multiwordLowRead m a) s = .next (s.latchHigher m a (row.words - 1)) := by
      show Host.Outcome.next (s.busRead m a).1 = _
      simp only [State.busRead, hacc, State.readLatch_lowest hrow hlead hwords hs ht]
    refine ⟨_, hexec, fun i h1 h2 => s.get_latchHigher m a _ hwf i h1 (by omega), fun m' a' hm ha => ?_, s.latchHigher_eq m a _⟩
    refine s.get_latchHigher_ne m a _ hwf _ fun i h1 h2 => ?_
    unfold latchKey
    omega
  · have hplain : s.PlainAccess m a val b row a := ⟨hb, hrow, hk, hacc, hcom, hst, hsys, hown⟩
    refine ⟨fun hlead hrw => ?_, fun hlead hrw hrws hw1c => ?_⟩
    · refine ⟨_, rfl, ?_⟩
      rw [hplain.busPut_low hrw (by omega)]
      exact ⟨Store.get_put_same hh, rfl⟩
    · have hexec : exec (.multiwordHighWrite m a val) s = .next ((s.applyHeld row a).writeLive row a (val % 2 ^ 32)) := by
        show execMultiwordHighWrite m a val s = _
        unfold execMultiwordHighWrite
        simp only [hrow]
        rw [if_pos (by omega), hplain.busPut_high hrw (by omega) (by omega), State.writeFields_eq, if_pos hrws]
      have ha := four_le_of_lead hrow (by omega)
      obtain ⟨hw, hnone, hsome, hsame, hother, heq⟩ := State.applyHeld_spec (a := a) hlead hc.regs hh
      generalize s.applyHeld row a = t at *
      have hlive := t.reg_writeLive_ne row a (val % 2 ^ 32) hw
      have hframe := t.writeLive_eq row a (val % 2 ^ 32)
      refine ⟨_, hexec, fun i hi => ?_, ?_, fun w h => ?_, fun h => ?_, fun j hj hj' => ?_, ?_⟩
      · rw [t.testBit_nreg_writeLive _ _ _ hw i hi, hw1c, State.nreg, hother a (by omega), Nat.testBit_mod_two_pow]
        simp [hi, State.nreg]
      · rw [hframe]
        exact hnone
      · rw [hlive _ (by omega), hsome w h]
      · rw [hlive _ (by omega), hsame h]
      · rw [hlive j hj, hother j hj']
      · rw [hframe]
        dsimp only
        rw [heq]

end Sys2Proof.Machine

namespace Sys2Proof.Machine

/-! ### The conservation of tokens (R41, R42)

`Keeps` carries the balance of the ledger through every command that works on the state it finds. Only power-on reset does not:
it starts from a ledger that lists nothing. -/

/-- After reset no token is issued, returned or held. -/
theorem State.reset_balanced : State.reset.Balanced := ⟨rfl, by simp [State.reset]⟩

/-- The balance of the ledger does not depend on the raw counter. -/
theorem State.balanced_advance {s : State} (h : s.Balanced) (t : Nat) : (s.advance t).Balanced := by
  rw [State.Balanced, s.advance_fab]
  exact h

theorem State.balanced_tickEdge {s : State} (h : s.Balanced) : s.tickEdge.Balanced := by
  unfold State.tickEdge
  split <;> exact h

/-- Power-on reset balances the ledger whatever it held before. -/
theorem State.powerReset_balanced (s : State) : s.powerReset.Balanced := by
  unfold State.powerReset
  refine (State.wr_keeps (st := false) (State.journalAfterLoss_keeps (State.drawSeeds_keeps
    (Keeps.foldl (Keeps.refl _ _) fun _ _ h => State.setReg_keeps h _ _))) _ _).balanced ?cleared
  case cleared => exact State.reset_balanced

theorem execTimingPllLock_balanced {s u : State} (h : s.Balanced) (hu : execTimingPllLock s = .next u) : u.Balanced := by
  cases hu
  have hstart : State.Balanced { s with rawRun := true, raw := 0 } := h
  split
  · exact h
  · exact (State.wr_keeps (Keeps.refl false _) _ _).balanced hstart

/-- Every command keeps the ledger in balance (R42). -/
theorem exec_balanced {c : Instr} {s u : State} (h : s.Balanced) (hu : exec c s = .next u) : u.Balanced := by
  by_cases hp : ∃ p, c = .powerOnReset p
  · obtain ⟨p, rfl⟩ := hp
    cases hu
    exact (s.powerOn_keeps p).balanced s.powerReset_balanced
  · by_cases hl : c = .timingPllLock
    · subst hl
      exact execTimingPllLock_balanced h hu
    · obtain ⟨t, v, hv, hk⟩ := exec_keeps c s (fun p e => hp ⟨p, e⟩) hl
      cases hv.symm.trans hu
      exact hk.balanced (State.balanced_advance h t)

/-- Settles O15: an empty queue lets only the raw counter move, and a command keeps the balance by `exec_balanced`. -/
theorem ledgerBalanceKept : Obligations.LedgerBalanceKept := by
  refine ⟨State.reset_balanced, fun s u h hu => ?_⟩
  cases hq : s.pending with
  | nil =>
    simp only [step, hq] at hu
    cases hu
    exact State.balanced_tickEdge h
  | cons c rest =>
    simp only [step, hq] at hu
    exact exec_balanced (s := { s with pending := rest }) h hu

end Sys2Proof.Machine

namespace Sys2Proof.Machine

/-! ### The raw counter (R60, R70) -/

/-- What time does to the raw counter between `s` and `u`: it never runs back, stands on an edge of the timing clock, and moves only
where it counts. -/
structure RawPasses (s u : State) : Prop where
  le : s.raw ≤ u.raw
  edge : s.raw % 65536 = 0 → u.raw % 65536 = 0
  run : u.rawRun = s.rawRun
  stands : s.rawRun = false → u.raw = s.raw

theorem State.advance_rawPasses (s : State) (t : Nat) (h : s.raw % 65536 = 0) : RawPasses s (s.advance t) := by
  unfold State.advance
  split
  next hc =>
    obtain ⟨hrun, hlt⟩ : s.rawRun = true ∧ s.raw < t := by simpa using hc
    exact ⟨by dsimp only; omega, fun _ => Nat.mul_mod_left .., rfl, fun hstop => absurd (hrun.symm.trans hstop) (by decide)⟩
  next => exact ⟨le_rfl, id, rfl, fun _ => rfl⟩

theorem State.tickEdge_rawPasses (s : State) : RawPasses s s.tickEdge := by
  unfold State.tickEdge
  split
  next hrun => exact ⟨by simp, fun h => by simpa using h, rfl, fun hstop => absurd (hrun.symm.trans hstop) (by decide)⟩
  next => exact ⟨le_rfl, id, rfl, fun _ => rfl⟩

/-- Settles O5: an edge passes on an empty queue, and a command lets time pass and then keeps the raw counter (`exec_keeps`). -/
theorem rawCounterNeverRunsBack : Obligations.RawCounterNeverRunsBack := by
  intro s u hc hu hreset hlock
  suffices h : RawPasses s u from ⟨h.le, h.edge hc.raw, h.run, h.stands⟩
  cases hq : s.pending with
  | nil =>
    simp only [step, hq] at hu
    cases hu
    exact s.tickEdge_rawPasses
  | cons c rest =>
    simp only [step, hq] at hu
    obtain ⟨t, v, hv, hk⟩ := exec_keeps c { s with pending := rest } (fun p e => hreset p rest (e ▸ hq)) (fun e => hlock rest (e ▸ hq))
    cases hv.symm.trans hu
    have ht := State.advance_rawPasses { s with pending := rest } t hc.raw
    exact ⟨hk.raw ▸ ht.le, fun h => hk.raw ▸ ht.edge h, hk.rawRun.trans ht.run, fun h => hk.raw.trans (ht.stands h)⟩

end Sys2Proof.Machine

namespace Sys2Proof.Machine

/-! ### Only master 0 asks for modes and resets (R57) -/

/-- A write to one of the registers of the mode that R57 keeps for master 0 is never granted to another. -/
theorem State.access_masterZeroOnly_ne_granted (s : State) {m a : Nat} (hm : m ≠ 0) (ha : masterZeroOnly a = true) :
    s.access m a .write ≠ .granted := by
  have hm' : (m != 0) = true := bne_iff_ne.mpr hm
  unfold State.access
  split
  · simp only [beq_self_eq_true, ha, hm', Bool.and_self, if_true]
    split
    · simp
    · split <;> simp
  · simp

/-- Where the mode lets another master reach such a register, its write is denied. -/
theorem State.access_masterZeroOnly_denied {s : State} {m a : Nat} (hm : m ≠ 0) (ha : a = GLB.MODE_REQ ∨ a = GLB.RESET_CTRL)
    (hmode : s.modeAllows m .glb a true = true) : s.access m a .write = .denied := by
  have hblk : blkAt a = some .glb := by rcases ha with rfl | rfl <;> rfl
  obtain ⟨row, hrow⟩ : ∃ row, rowAt a = some row := by rcases ha with rfl | rfl <;> exact ⟨_, rfl⟩
  have hmz : masterZeroOnly a = true := by rcases ha with rfl | rfl <;> rfl
  have habs : s.absentReg a = false := by simp [State.absentReg, hblk]
  have hm' : (m != 0) = true := bne_iff_ne.mpr hm
  unfold State.access
  simp only [hblk, hrow, habs, beq_self_eq_true, hmode, hmz, hm', Bool.and_self, if_true, Bool.not_true, Bool.false_eq_true, if_false]

/-- A denied bus write is recorded and does nothing else (R36). -/
theorem State.busWrite_denied {s : State} {m a : Nat} (tgt : Nat) (f : State → State) (h : s.access m a .write = .denied) :
    s.busWrite m tgt a f = s.deny m tgt .write := by
  unfold State.busWrite
  rw [h]

theorem State.busWrite_granted {s : State} {m a : Nat} (tgt : Nat) (f : State → State) (h : s.access m a .write = .granted) :
    s.busWrite m tgt a f = f s := by
  unfold State.busWrite
  rw [h]

/-- Every mode request is a write of `GLB.MODE_REQ` with GO. -/
theorem exec_modeReq {m t : Nat} {c : Instr} (s : State)
    (hc : c = .modeReqService m t ∨ c = .modeReqDegraded m t ∨ c = .modeReqQuiesce m t ∨ c = .modeReqTwinStandby m t
      ∨ c = .modeReqProvisioning m t ∨ c = .modeReqLockdown m t ∨ (∃ d, c = .modeReqKeepAlive m d t)
      ∨ (∃ b, c = .modeReqMaintenance m b t ∨ c = .modeReqRelease m b t ∨ c = .modeReqUnreachable m b t)) :
    ∃ val delta, exec c s = .next ((s.advance t).modeReq m val delta) := by
  obtain rfl | rfl | rfl | rfl | rfl | rfl | ⟨d, rfl⟩ | ⟨b, rfl | rfl | rfl⟩ := hc <;> exact ⟨_, _, rfl⟩

theorem State.advance_regsWf {s : State} (h : s.RegsWf) (t : Nat) : (s.advance t).RegsWf := by
  rw [State.RegsWf, s.advance_regs, s.advance_variant]
  exact h

@[simp] theorem State.advance_reg (s : State) (t k : Nat) : (s.advance t).reg k = s.reg k := by
  rw [State.reg, s.advance_regs, s.advance_variant, State.reg]

@[simp] theorem State.advance_nreg (s : State) (t k : Nat) : (s.advance t).nreg k = s.nreg k := by
  rw [State.nreg, s.advance_reg, State.nreg]

@[simp] theorem State.advance_rd (s : State) (t : Nat) (f : Fld) : (s.advance t).rd f = s.rd f := by
  rw [State.rd, s.advance_nreg, State.rd]

@[simp] theorem State.advance_on (s : State) (t : Nat) (f : Fld) : (s.advance t).on f = s.on f := by
  rw [State.on, s.advance_rd, State.on]

/-- What a denied write of a register of GLB leaves. -/
theorem State.deny_mode_spec {s : State} (h : s.RegsWf) (m t : Nat) : ((s.advance t).deny m 0 .write).mode = s.mode
      ∧ ((s.advance t).deny m 0 .write).nreg FAB.DENY_COUNT = (s.nreg FAB.DENY_COUNT + 1) % 2 ^ 32
      ∧ ((s.advance t).deny m 0 .write).on FAB.STICKY_DENIED = true
      ∧ Signals [FAB.DENY_COUNT, FAB.DENY_LAST] (s.advance t) ((s.advance t).deny m 0 .write) := by
  have hw := State.advance_regsWf h t
  have hsig := (s.advance t).deny_signals m 0 .write false
  have hmode := hsig.reg hw GLB.MODE (by decide) (by decide)
  refine ⟨?_, by rw [State.nreg_deny_count m 0 .write false hw, s.advance_nreg], State.deny_on m 0 .write false hw, hsig⟩
  rw [State.mode, State.rd, State.nreg, show GLB.MODE_CURRENT.addr = GLB.MODE from rfl, hmode, s.advance_reg]
  rfl

/-- Settles O14: such a write comes to `State.deny`, and a twin's request without TWIN_REQ to the time that has passed. -/
theorem onlyMasterZeroRequestsModes : Obligations.OnlyMasterZeroRequestsModes := by
  refine ⟨fun m a s hm ha => ?_, fun m t s c hc hm hmode hreq => ?_, fun m t skip ok s hc hm hmode => ?_, fun h t s hreq => ?_⟩
  · exact s.access_masterZeroOnly_ne_granted hm (by rcases ha with rfl | rfl <;> rfl)
  · obtain ⟨val, delta, hexec⟩ := exec_modeReq s hreq
    have hd := State.access_masterZeroOnly_denied hm (.inl rfl) hmode
    rw [State.modeReq, State.busWrite_denied 0 _ hd] at hexec
    exact ⟨_, hexec, State.deny_mode_spec hc.regs m t⟩
  · have hd := State.access_masterZeroOnly_denied hm (.inr rfl) hmode
    exact ⟨_, congrArg Host.Outcome.next (State.busWrite_denied 0 _ hd), State.deny_mode_spec hc.regs m t⟩
  · exact congrArg Host.Outcome.next (if_pos (.inl (by rw [s.advance_on]; exact hreq)))

end Sys2Proof.Machine

namespace Sys2Proof.Machine

/-! ### Reading through signals, and the sticky bits of one register -/

section
variable {ks : List Nat} {s t u : State}

theorem Signals.nreg_eq (h : Signals ks s t) (w : s.RegsWf) {k : Nat} (hk : k ∉ ks) (ha : k ∉ alarmKeys) : t.nreg k = s.nreg k := by
  rw [State.nreg, h.reg w k hk ha, State.nreg]

theorem Signals.rd_eq (h : Signals ks s t) (w : s.RegsWf) {f : Fld} (hk : f.addr ∉ ks) (ha : f.addr ∉ alarmKeys) : t.rd f = s.rd f := by
  rw [State.rd, h.nreg_eq w hk ha, State.rd]

theorem Signals.on_eq (h : Signals ks s t) (w : s.RegsWf) {f : Fld} (hk : f.addr ∉ ks) (ha : f.addr ∉ alarmKeys) : t.on f = s.on f := by
  rw [State.on, h.rd_eq w hk ha, State.on]

theorem Signals.mode_eq (h : Signals ks s t) (w : s.RegsWf) (hk : GLB.MODE ∉ ks) : t.mode = s.mode :=
  h.rd_eq (f := GLB.MODE_CURRENT) w hk (by decide)

/-- Every one-bit field that is set in `s` is set in `t`, but for those of the registers that hold numbers. -/
def BitsStay (s t : State) : Prop :=
  s.RegsWf → t.RegsWf ∧ ∀ g : Fld, g.w = 1 → g.lo < 32 → g.addr ∉ alarmNums → s.on g = true → t.on g = true

theorem BitsStay.refl (s : State) : BitsStay s s := fun w => ⟨w, fun _ _ _ _ h => h⟩

theorem BitsStay.trans (h : BitsStay s t) (g : BitsStay t u) : BitsStay s u := fun w =>
  have ⟨wt, ht⟩ := h w
  have ⟨wu, hu⟩ := g wt
  ⟨wu, fun f h1 h2 h3 h4 => hu f h1 h2 h3 (ht f h1 h2 h3 h4)⟩

theorem Signals.bitsStay (h : Signals [] s t) : BitsStay s t := fun w =>
  ⟨h.regsWf w, fun f h1 h2 h3 h4 => h.on w f h1 h2 h3 (by simp) h4⟩

theorem State.wr_one_bitsStay (s : State) {f : Fld} (hw : f.w = 1) (hl : f.lo < 32) : BitsStay s (s.wr f 1) := fun w =>
  ⟨s.wr_regsWf f 1 w, fun g h1 _ _ h4 => s.on_wr_one f g w (by omega) hw h1 h4⟩

theorem State.raiseBit_bitsStay (s : State) {f : Fld} (hw : f.w = 1) (hl : f.lo < 32) : BitsStay s (s.raiseBit f) := by
  unfold State.raiseBit
  split
  · exact BitsStay.refl s
  · have hset := s.wr_one_bitsStay hw hl
    have hsum := fun v => Signals.wr (ks := []) (s.wr f 1) ⟨PMC.ALARM_SUM, v, 1⟩ 1 (.inr (show PMC.ALARM_SUM ∈ alarmNums by decide))
    dsimp only
    split
    · split
      · exact hset
      · split
        · exact hset.trans (((hsum _).trans (Signals.wr _ _ _ (.inr (by decide : PMC.ALARM_PORTS ∈ alarmNums)))).trans
            (State.alarmMsix_signals _)).bitsStay
        · exact hset.trans ((hsum _).trans (State.alarmMsix_signals _)).bitsStay
    · exact hset

theorem State.setQuiet_bitsStay (s : State) {f : Fld} (hw : f.w = 1) (hl : f.lo < 32) : BitsStay s (s.setQuiet f) := by
  unfold State.setQuiet
  split
  · exact BitsStay.refl s
  · split
    · exact s.raiseBit_bitsStay hw hl
    · split
      · exact (s.postEvent_signals _ _ _).bitsStay.trans (State.raiseBit_bitsStay _ hw hl)
      · exact s.raiseBit_bitsStay hw hl

/-- A sticky bit that sets leaves those that are set, of its own register too. -/
theorem State.sticky_bitsStay (s : State) {f : Fld} (hw : f.w = 1) (hl : f.lo < 32) : BitsStay s (s.sticky f) := by
  unfold State.sticky
  split
  · exact BitsStay.refl s
  · have hset := s.setQuiet_bitsStay hw hl
    dsimp only
    split
    · exact hset
    · split
      · exact hset.trans ((Signals.bump _ PMC.JRN_COUNT 1 (.inr (by decide))).trans (State.journal_signals _ _ _ _)).bitsStay
      · exact hset

end

end Sys2Proof.Machine

namespace Sys2Proof.Machine

/-! ### A mode request completes (R58) -/

section
variable {s : State}

theorem GLB.sticky_not_mem_alarmNums : GLB.STICKY ∉ alarmNums := by decide

theorem State.sticky_glb_signals (s : State) {f : Fld} (hw : f.w = 1) (hl : f.lo < 32) (ha : f.addr = GLB.STICKY) :
    Signals [GLB.STICKY] s (s.sticky f) := s.sticky_signals f hw hl (.inl (by simp [ha]))

/-- A completion writes the request's outcome and signals MODE_DONE. -/
theorem State.modeDone_signals (s : State) (status : Nat) : Signals [GLB.MODE_STAT, GLB.STICKY] s (s.modeDone status) :=
  ((Signals.wr s GLB.MODE_STAT_PENDING 0 (.inl (by decide))).trans (Signals.wr _ GLB.MODE_STAT_STATUS status (.inl (by decide)))).trans
    ((State.sticky_glb_signals _ (f := GLB.STICKY_MODE_DONE) rfl (by decide) rfl).mono (by simp))

theorem State.modeDone_mode (h : s.RegsWf) (status : Nat) : (s.modeDone status).mode = s.mode :=
  (s.modeDone_signals status).mode_eq h (by decide)

theorem State.modeDone_requestDone (h : s.RegsWf) {status : Nat} (hst : status < 2 ^ 8) : (s.modeDone status).requestDone status := by
  have h1 := s.wr_regsWf GLB.MODE_STAT_PENDING 0 h
  have h2 := (s.wr GLB.MODE_STAT_PENDING 0).wr_regsWf GLB.MODE_STAT_STATUS status h1
  have hsig := State.sticky_glb_signals ((s.wr GLB.MODE_STAT_PENDING 0).wr GLB.MODE_STAT_STATUS status)
    (f := GLB.STICKY_MODE_DONE) rfl (by decide) rfl
  refine ⟨?_, ?_, State.sticky_on _ _ h2 rfl (by decide) (by decide)⟩
  · refine (hsig.on_eq h2 (by decide) (by decide)).trans ?_
    rw [State.on, State.rd_wr_disj _ GLB.MODE_STAT_STATUS GLB.MODE_STAT_PENDING _ h1 (by decide) rfl (by decide),
      s.rd_wr _ _ h (by decide)]
    rfl
  · refine (hsig.rd_eq h2 (by decide) (by decide)).trans ?_
    rw [State.rd_wr _ _ _ h1 (by decide)]
    exact Nat.mod_eq_of_lt hst

/-- A sticky bit of GLB that is set stays set as a request completes. -/
theorem State.modeDone_on_sticky (h : s.RegsWf) (status : Nat) {f : Fld} (hw : f.w = 1) (hl : f.lo < 32) (ha : f.addr = GLB.STICKY)
    (hon : s.on f = true) : (s.modeDone status).on f = true := by
  have hn : f.addr ∉ alarmNums := ha ▸ GLB.sticky_not_mem_alarmNums
  have hne : f.addr ≠ GLB.MODE_STAT := by rw [ha]; decide
  have h1 := s.wr_regsWf GLB.MODE_STAT_PENDING 0 h
  have h2 := (s.wr GLB.MODE_STAT_PENDING 0).wr_regsWf GLB.MODE_STAT_STATUS status h1
  refine ((State.sticky_bitsStay _ rfl (by decide)) h2).2 f hw hl hn ?_
  rw [State.on, State.rd_wr_ne _ _ _ _ h1 hne, State.rd_wr_ne _ _ _ _ h hne]
  exact hon

/-- A request that is refused: CFG_REFUSED sets, the request is over and the mode stays. -/
theorem State.modeFail_refused (h : s.RegsWf) : (s.modeFail stREFUSED).mode = s.mode ∧ (s.modeFail stREFUSED).requestDone stREFUSED
    ∧ (s.modeFail stREFUSED).on GLB.STICKY_CFG_REFUSED = true ∧ Signals modeKeys s (s.modeFail stREFUSED) := by
  have hsig : Signals [GLB.STICKY] s (s.refuseCfg .glb) := s.refuseCfg_signals .glb
  have hw := hsig.regsWf h
  have hon : (s.refuseCfg .glb).on GLB.STICKY_CFG_REFUSED = true := State.refuseCfg_on (a := GLB.MODE_REQ) rfl h
  refine ⟨(State.modeDone_mode hw _).trans (hsig.mode_eq h (by decide)), State.modeDone_requestDone hw (by decide),
    State.modeDone_on_sticky hw _ rfl (by decide) rfl hon, ?_⟩
  exact (hsig.mono (by decide)).trans ((State.modeDone_signals _ _).mono (by decide))

end

end Sys2Proof.Machine

namespace Sys2Proof.Machine

/-! ### A request that is taken (R57, R58) -/

theorem Blk.commit_ne_modeReq (b : Blk) : b.commit ≠ GLB.MODE_REQ := by
  cases b with
  | prt p =>
    simp only [Blk.commit, Blk.commitOff, Blk.base, GLB.MODE_REQ]
    omega
  | _ => decide

/-- Once time has passed to `t`, the request `val` is shown in `GLB.MODE_REQ`. -/
def State.asked (s : State) (t val : Nat) : State := (s.advance t).setN GLB.MODE_REQ ((2 ^ 31 + val) &&& 0x3F0F)

section
variable {s : State} (t val : Nat)

theorem State.asked_signals : Signals [GLB.MODE_REQ] (s.advance t) (s.asked t val) := Signals.setN _ _ _ (.inl (by simp))

theorem State.asked_regsWf (h : s.RegsWf) : (s.asked t val).RegsWf := State.setN_regsWf _ _ _ (State.advance_regsWf h t)

/-- A request shows in `GLB.MODE_REQ` alone. -/
theorem State.asked_nreg (h : s.RegsWf) {k : Nat} (hk : k ≠ GLB.MODE_REQ) : (s.asked t val).nreg k = s.nreg k := by
  rw [State.asked, State.nreg_setN_ne _ _ _ _ (State.advance_regsWf h t) hk, s.advance_nreg]

theorem State.asked_rd (h : s.RegsWf) {f : Fld} (hk : f.addr ≠ GLB.MODE_REQ) : (s.asked t val).rd f = s.rd f := by
  rw [State.rd, State.asked_nreg t val h hk, State.rd]

theorem State.asked_on (h : s.RegsWf) {f : Fld} (hk : f.addr ≠ GLB.MODE_REQ) : (s.asked t val).on f = s.on f := by
  rw [State.on, State.asked_rd t val h hk, State.on]

theorem State.asked_mode (h : s.RegsWf) : (s.asked t val).mode = s.mode := State.asked_rd t val h (f := GLB.MODE_CURRENT) (by decide)

theorem State.asked_serviceMode (h : s.RegsWf) : (s.asked t val).serviceMode = s.serviceMode := by
  rw [State.serviceMode, State.lacksSpare, State.asked_nreg t val h (by decide), State.asked, State.setN_fab, State.advance_fab]
  rfl

theorem State.asked_on_pending (h : s.RegsWf) (b : Blk) : (s.asked t val).on (cmPENDING b) = s.on (cmPENDING b) :=
  State.asked_on t val h b.commit_ne_modeReq

theorem State.asked_glb (s : State) (t val : Nat) : (s.asked t val).glb = s.glb := by rw [State.asked, State.setN_glb, State.advance_glb]

theorem State.asked_mayServe (h : s.RegsWf) : (s.asked t val).mayServe = s.mayServe := by
  unfold State.mayServe
  simp only [State.asked_on_pending t val h, State.asked_on t val h (f := GLB.STICKY_CORE_FAIL) (by decide),
    State.asked_rd t val h (f := cmCOUNT .fab) (by decide), State.asked_glb]

end

/-- The value a request writes names GO, its target, its block and RELEASE. -/
theorem bitsOf_request (target block : Nat) (release : Bool) (ht : target < 16) (hb : block < 32) :
    bitAt (2 ^ 31 + (target + 2 ^ 8 * block + 2 ^ 13 * b2n release)) 31 = true
      ∧ bitsOf (2 ^ 31 + (target + 2 ^ 8 * block + 2 ^ 13 * b2n release)) 0 4 = target
      ∧ bitsOf (2 ^ 31 + (target + 2 ^ 8 * block + 2 ^ 13 * b2n release)) 8 5 = block
      ∧ bitAt (2 ^ 31 + (target + 2 ^ 8 * block + 2 ^ 13 * b2n release)) 13 = release := by
  cases release <;> simp only [bitAt, bitsOf, b2n, Nat.shiftRight_eq_div_pow, beq_iff_eq, beq_eq_false_iff_ne, Bool.false_eq_true, if_false, if_true] <;>
    omega

/-- A request that is taken goes to its target. -/
theorem State.modeReq_taken {s : State} {m t : Nat} (h : s.takesRequest m t) {target block : Nat} (release : Bool) (delta : Int)
    (ht : target < 16) (hb : block < 32) : (s.advance t).modeReq m (target + 2 ^ 8 * block + 2 ^ 13 * b2n release) delta
      = (s.asked t (target + 2 ^ 8 * block + 2 ^ 13 * b2n release)).modeGo target block release delta := by
  obtain ⟨hgo, htarget, hblock, hrel⟩ := bitsOf_request target block release ht hb
  unfold State.modeReq
  rw [State.busWrite_granted 0 _ h.1]
  unfold State.modeReqWrite
  rw [if_pos hgo, htarget, hblock, hrel]
  rfl

end Sys2Proof.Machine

namespace Sys2Proof.Machine

/-! ### GO of `GLB.MODE_REQ` while no request is pending -/

section
variable {s : State} (hp : s.on GLB.MODE_STAT_PENDING = false) (block : Nat) (delta : Int)
include hp

theorem State.modeGo_provisioning (r : Bool) : s.modeGo 3 block r delta =
    if s.mode = 7 then ((s.wr TWN.STAT_MIRROR_SYNC 0).setMode 3 2).modeDone stOK else s.modeFail stREFUSED := by
  unfold State.modeGo
  simp only [hp, Nat.reduceEqDiff, false_and, if_false, Bool.false_eq_true]

theorem State.modeGo_service (r : Bool) : s.modeGo 4 block r delta = s.reqService := by
  unfold State.modeGo
  simp only [hp, Nat.reduceEqDiff, false_and, if_false, Bool.false_eq_true]

theorem State.modeGo_maintenance : s.modeGo 6 block false delta = s.reqMaintenance block := by
  unfold State.modeGo
  simp only [hp, Nat.reduceEqDiff, false_and, if_false, Bool.false_eq_true]

theorem State.modeGo_release : s.modeGo 6 block true delta = s.reqRelease block := by
  unfold State.modeGo
  simp only [hp, Nat.reduceEqDiff, false_and, if_false, Bool.false_eq_true, if_true]

theorem State.modeGo_twinStandby (r : Bool) : s.modeGo 7 block r delta =
    if s.mode = 3 ∧ s.rd TWN.STAT_LINK = 3 then ((s.setN TWN.MIRROR_STAT 0).setMode 7 2).modeDone stOK else s.modeFail stREFUSED := by
  unfold State.modeGo
  simp only [hp, Nat.reduceEqDiff, false_and, if_false, Bool.false_eq_true]

theorem State.modeGo_quiesce (r : Bool) : s.modeGo 9 block r delta =
    if s.mode = 4 ∨ s.mode = 5 then (s.setMode 9 2).modeDone stOK else s.modeFail stREFUSED := by
  unfold State.modeGo
  simp only [hp, Nat.reduceEqDiff, false_and, if_false, Bool.false_eq_true]

/-- A target no transition reaches by request is refused. -/
theorem State.modeGo_unreachable (r : Bool) {target : Nat} (ht : target ∉ [3, 4, 6, 7, 8, 9, 10]) :
    s.modeGo target block r delta = s.modeFail stREFUSED := by
  simp only [List.mem_cons, List.not_mem_nil, or_false, not_or] at ht
  obtain ⟨h3, h4, h6, h7, h8, h9, h10⟩ := ht
  unfold State.modeGo
  simp only [hp, h10, false_and, if_false, Bool.false_eq_true]

end

end Sys2Proof.Machine

namespace Sys2Proof.Machine

/-! ### The mode changes (R53, R55) -/

/-- Provisioning starts DSC's references anew; no other mode touches DSC. -/
def State.entered (s : State) (dest : Nat) : State := if dest = 3 then { s with dsc := { s.dsc with first := true } } else s

/-- `GLB.MODE` and its log after a change to `dest`. -/
def State.showMode (s : State) (dest cause : Nat) : State :=
  ((((s.setN (GLB.MODE_LOG (s.rd GLB.MODE_LOG_NEXT)) (s.mode + 2 ^ 4 * dest + 2 ^ 8 * cause + 2 ^ 16 * (s.sec0 % 65536))).wr
    GLB.MODE_LOG_NEXT ((s.rd GLB.MODE_LOG_NEXT + 1) % 16)).wr GLB.MODE_PREVIOUS s.mode).wr GLB.MODE_CURRENT dest).bumpF GLB.MODE_CHANGES

/-- What a mode change signals: its journal record, MODE_CHANGE and, where both engines serve, BOTH_ACTIVE. -/
def State.tellMode (s : State) (dest entry : Nat) : State :=
  let s4 := ((s.journal 2 0 (leBytes 4 entry)).setQuiet GLB.STICKY_MODE_CHANGE).recheckReq dest
  if dest = 4 ∧ s4.rd TWN.STAT_LINK = 3 ∧ s4.rd TWN.STAT_PEER_MODE = 4 then s4.sticky TWN.STICKY_BOTH_ACTIVE else s4

theorem State.setMode_eq (s : State) (dest cause : Nat) : s.setMode dest cause =
    ((s.showMode dest cause).entered dest).tellMode dest (s.mode + 2 ^ 4 * dest + 2 ^ 8 * cause + 2 ^ 16 * (s.sec0 % 65536)) := rfl

theorem Signals.entered {ks : List Nat} {s t : State} (h : Signals ks s t) (dest : Nat) : Signals ks (s.entered dest) (t.entered dest) := by
  unfold State.entered
  split
  · exact { h with dsc := by simp only [h.dsc] }
  · exact h

section
variable {s : State} (dest cause : Nat)

theorem State.entered_reg (k : Nat) : (s.entered dest).reg k = s.reg k := by
  unfold State.entered
  split <;> rfl

theorem State.entered_regsWf (h : s.RegsWf) : (s.entered dest).RegsWf := by
  unfold State.entered
  split <;> exact h

theorem State.showMode_signals (s : State) : Signals modeKeys s (s.showMode dest cause) := by
  have hlog : GLB.MODE_LOG (s.rd GLB.MODE_LOG_NEXT) ∈ modeKeys :=
    List.mem_append_right _ (List.mem_map_of_mem (List.mem_range.mpr (bitsOf_lt _ _ _)))
  have hmode : GLB.MODE ∈ modeKeys := by decide
  exact ((((Signals.setN s _ _ (.inl hlog)).trans (Signals.wr _ GLB.MODE_LOG_NEXT _ (.inl hmode))).trans
    (Signals.wr _ GLB.MODE_PREVIOUS _ (.inl hmode))).trans (Signals.wr _ GLB.MODE_CURRENT _ (.inl hmode))).trans
    (Signals.wr _ GLB.MODE_CHANGES _ (.inl hmode))

theorem State.showMode_rd (h : s.RegsWf) (hd : dest < 16) :
    (s.showMode dest cause).mode = dest ∧ (s.showMode dest cause).rd GLB.MODE_PREVIOUS = s.mode
      ∧ (s.showMode dest cause).on GLB.MODE_STAT_PENDING = s.on GLB.MODE_STAT_PENDING := by
  have hold : s.mode < 2 ^ 4 := bitsOf_lt _ _ _
  unfold State.showMode
  generalize s.mode + 2 ^ 4 * dest + 2 ^ 8 * cause + 2 ^ 16 * (s.sec0 % 65536) = entry
  have hlog : GLB.MODE_STAT ≠ GLB.MODE_LOG (s.rd GLB.MODE_LOG_NEXT) := by unfold GLB.MODE_STAT GLB.MODE_LOG; omega
  generalize (s.rd GLB.MODE_LOG_NEXT + 1) % 16 = next
  generalize GLB.MODE_LOG (s.rd GLB.MODE_LOG_NEXT) = k at hlog ⊢
  have h0 := s.setN_regsWf k entry h
  have h1 := State.wr_regsWf _ GLB.MODE_LOG_NEXT next h0
  have h2 := State.wr_regsWf _ GLB.MODE_PREVIOUS s.mode h1
  have h3 := State.wr_regsWf _ GLB.MODE_CURRENT dest h2
  refine ⟨?_, ?_, ?_⟩
  · rw [State.mode, State.bumpF, State.rd_wr_disj _ GLB.MODE_CHANGES GLB.MODE_CURRENT _ h3 (by decide) rfl (by decide), State.rd_wr _ _ _ h2 (by decide)]
    exact Nat.mod_eq_of_lt hd
  · rw [State.bumpF, State.rd_wr_disj _ GLB.MODE_CHANGES GLB.MODE_PREVIOUS _ h3 (by decide) rfl (by decide),
      State.rd_wr_disj _ GLB.MODE_CURRENT GLB.MODE_PREVIOUS _ h2 (by decide) rfl (by decide), State.rd_wr _ _ _ h1 (by decide)]
    exact Nat.mod_eq_of_lt hold
  · rw [State.on, State.bumpF, State.rd_wr_ne _ _ _ _ h3 (by decide), State.rd_wr_ne _ _ _ _ h2 (by decide),
      State.rd_wr_ne _ _ _ _ h1 (by decide), State.rd_wr_ne _ _ _ _ h0 (by decide), State.rd_setN_ne _ _ _ _ h hlog, State.on]

/-- A change of mode tells of itself and, where no request is pending, writes no other register. -/
theorem State.tellMode_spec (h : s.RegsWf) (hp : s.on GLB.MODE_STAT_PENDING = false) (entry : Nat) :
    (s.tellMode dest entry).on GLB.STICKY_MODE_CHANGE = true
      ∧ Signals (if dest = 4 then [GLB.STICKY, TWN.STICKY] else [GLB.STICKY]) s (s.tellMode dest entry) := by
  have hj := s.journal_signals (ks := [GLB.STICKY]) 2 0 (leBytes 4 entry)
  have hwj := hj.regsWf h
  have hq : Signals [GLB.STICKY] s ((s.journal 2 0 (leBytes 4 entry)).setQuiet GLB.STICKY_MODE_CHANGE) :=
    hj.trans (State.setQuiet_signals _ _ rfl (by decide) (.inl (by decide)))
  have hon := State.setQuiet_on (s.journal 2 0 (leBytes 4 entry)) GLB.STICKY_MODE_CHANGE hwj rfl (by decide) (by decide)
  unfold State.tellMode
  generalize (s.journal 2 0 (leBytes 4 entry)).setQuiet GLB.STICKY_MODE_CHANGE = q at hq hon ⊢
  have hqp : q.on GLB.MODE_STAT_PENDING = false := (hq.on_eq h (by decide) (by decide)).trans hp
  have hrecheck : q.recheckReq dest = q := by
    unfold State.recheckReq
    simp [hqp]
  rw [hrecheck]
  dsimp only
  by_cases hd : dest = 4
  · have hq' : Signals [GLB.STICKY, TWN.STICKY] s q := hq.mono (by simp)
    rw [if_pos hd]
    split
    · exact ⟨(State.sticky_bitsStay q rfl (by decide) (hq.regsWf h)).2 _ rfl (by decide) (by decide) hon,
        hq'.trans (State.sticky_signals _ _ rfl (by decide) (.inl (by decide)))⟩
    · exact ⟨hon, hq'⟩
  · rw [if_neg hd, if_neg (fun hc => hd hc.1)]
    exact ⟨hon, hq⟩

/-- A change of mode with no request pending: what it shows, and all that it changes. -/
theorem State.setMode_spec (h : s.RegsWf) (hp : s.on GLB.MODE_STAT_PENDING = false) (hd : dest < 16) :
    (s.setMode dest cause).wentTo s.mode dest ∧ (s.setMode dest cause).RegsWf
      ∧ Signals (if dest = 4 then TWN.STICKY :: modeKeys else modeKeys) (s.entered dest) (s.setMode dest cause) := by
  obtain ⟨hmode, hprev, hpend⟩ := State.showMode_rd dest cause h hd
  have hshow := State.showMode_signals dest cause s
  have hw := State.entered_regsWf dest (hshow.regsWf h)
  have hsame : ∀ f, ((s.showMode dest cause).entered dest).rd f = (s.showMode dest cause).rd f := fun f => by
    rw [State.rd, State.nreg, State.entered_reg, ← State.nreg, ← State.rd]
  have hpend' : ((s.showMode dest cause).entered dest).on GLB.MODE_STAT_PENDING = false := by
    rw [State.on, hsame]
    exact hpend.trans hp
  rw [State.setMode_eq]
  generalize s.mode + 2 ^ 4 * dest + 2 ^ 8 * cause + 2 ^ 16 * (s.sec0 % 65536) = entry
  obtain ⟨hon, htell⟩ := State.tellMode_spec dest hw hpend' entry
  have hkeep : ∀ f : Fld, f.addr = GLB.MODE → (((s.showMode dest cause).entered dest).tellMode dest entry).rd f = (s.showMode dest cause).rd f :=
    fun f hf => (htell.rd_eq hw (by rw [hf]; split <;> decide) (by rw [hf]; decide)).trans (hsame f)
  refine ⟨⟨(hkeep GLB.MODE_CURRENT rfl).trans hmode, (hkeep GLB.MODE_PREVIOUS rfl).trans hprev, hon⟩, htell.regsWf hw, ?_⟩
  refine ((hshow.entered dest).mono ?_).trans (htell.mono ?_)
  · split <;> simp +contextual
  · split <;> decide

/-- A mode change that ends a request: where it went, that the request is over, and all that changed. -/
theorem State.setMode_done (h : s.RegsWf) (hp : s.on GLB.MODE_STAT_PENDING = false) (hd : dest < 16) :
    ((s.setMode dest cause).modeDone stOK).wentTo s.mode dest ∧ ((s.setMode dest cause).modeDone stOK).requestDone stOK
      ∧ Signals (if dest = 4 then TWN.STICKY :: modeKeys else modeKeys) (s.entered dest) ((s.setMode dest cause).modeDone stOK) := by
  obtain ⟨⟨hmode, hprev, hchange⟩, hw, hsig⟩ := State.setMode_spec dest cause h hp hd
  have hdone := (s.setMode dest cause).modeDone_signals stOK
  exact ⟨⟨(State.modeDone_mode hw _).trans hmode, (hdone.rd_eq hw (by decide) (by decide)).trans hprev,
      State.modeDone_on_sticky hw _ rfl (by decide) rfl hchange⟩, State.modeDone_requestDone hw (by decide),
    hsig.trans (hdone.mono (by split <;> decide))⟩

end

end Sys2Proof.Machine

namespace Sys2Proof.Machine

/-! ### Requests that no transition allows (R55, R58) -/

section
variable {s : State} {m t : Nat}

/-- A request with target 0 to 15 and block 0 to 31 that is taken finds no request pending. -/
theorem State.takesRequest.asked_pending (h : s.takesRequest m t) (hw : s.RegsWf) (val : Nat) :
    (s.asked t val).on GLB.MODE_STAT_PENDING = false :=
  (State.asked_on t val hw (f := GLB.MODE_STAT_PENDING) (by decide)).trans h.2

/-- A request that is taken and comes to `modeFail REFUSED` keeps the mode. -/
theorem State.asked_refused (h : s.RegsWf) (val : Nat) : ((s.asked t val).modeFail stREFUSED).mode = s.mode
    ∧ ((s.asked t val).modeFail stREFUSED).requestDone stREFUSED
    ∧ ((s.asked t val).modeFail stREFUSED).on GLB.STICKY_CFG_REFUSED = true
    ∧ Signals modeKeys (s.advance t) ((s.asked t val).modeFail stREFUSED) := by
  obtain ⟨hmode, hdone, hon, hsig⟩ := State.modeFail_refused (State.asked_regsWf t val h)
  exact ⟨hmode.trans (State.asked_mode t val h), hdone, hon, ((State.asked_signals t val).mono (by decide)).trans hsig⟩

theorem State.reqMaintenance_refused {b : Nat} (h4 : s.mode ≠ 4) (h5 : s.mode ≠ 5) (h6 : s.mode ≠ 6) :
    s.reqMaintenance b = s.modeFail stREFUSED := by
  unfold State.reqMaintenance
  split
  · rfl
  · split
    next h => exact absurd h h4
    next h => exact absurd h h5
    next h => exact absurd h h6
    next => rfl

theorem State.reqRelease_refused {b : Nat} (h6 : s.mode ≠ 6) : s.reqRelease b = s.modeFail stREFUSED := by
  unfold State.reqRelease
  rw [if_neg (fun hc => h6 hc.1)]

end

end Sys2Proof.Machine

namespace Sys2Proof.Machine

section
variable {s : State} {m t : Nat}

/-- A request that is taken, with its target, block and RELEASE, is GO of `GLB.MODE_REQ` with no request pending. -/
theorem State.takesRequest.next_modeReq (h : s.takesRequest m t) {target block : Nat} (release : Bool) (delta : Int)
    (ht : target < 16) (hb : block < 32) :
    Host.Outcome.next (φ := Fault) (ρ := Refusal) ((s.advance t).modeReq m (target + 2 ^ 8 * block + 2 ^ 13 * b2n release) delta)
      = .next ((s.asked t (target + 2 ^ 8 * block + 2 ^ 13 * b2n release)).modeGo target block release delta) :=
  congrArg _ (State.modeReq_taken h release delta ht hb)

end

/-- Settles O19: each of these requests comes to `modeFail REFUSED`. -/
theorem unreachableRequestsRefused : Obligations.UnreachableRequestsRefused := by
  intro m t b tgt s hc h c hreq
  have hw := hc.regs
  have hp := h.asked_pending hw
  suffices hfail : ∃ val, exec c s = .next ((s.asked t val).modeFail stREFUSED) by
    obtain ⟨val, hexec⟩ := hfail
    exact ⟨_, hexec, State.asked_refused hw val⟩
  have hgo := fun target block release ht hb => h.next_modeReq (target := target) (block := block) release 0 ht hb
  obtain rfl | rfl | ⟨rfl, h4, h5⟩ | ⟨rfl, h3⟩ | ⟨rfl, h7⟩ | ⟨rfl, h6⟩ | ⟨rfl, h4, h5, h6⟩ := hreq
  case inl =>
    exact ⟨_, (hgo 5 0 false (by omega) (by omega)).trans (by rw [State.modeGo_unreachable (hp _) _ _ _ (by decide)])⟩
  case inr.inl =>
    generalize hx : (if tgt % 16 < 3 ∨ 11 ≤ tgt % 16 then tgt % 16 else 0) = x
    have hx16 : x < 16 ∧ x ∉ [3, 4, 6, 7, 8, 9, 10] := by
      simp only [List.mem_cons, List.not_mem_nil, or_false, not_or]
      split at hx <;> omega
    have hexec : exec (.modeReqUnreachable m tgt t) s = .next ((s.advance t).modeReq m (x + 2 ^ 8 * 0 + 2 ^ 13 * b2n false) 0) := by
      rw [← hx]
      rfl
    exact ⟨_, hexec.trans ((hgo x 0 false hx16.1 (by omega)).trans (by rw [State.modeGo_unreachable (hp _) _ _ _ hx16.2]))⟩
  case inr.inr.inl =>
    exact ⟨_, (hgo 9 0 false (by omega) (by omega)).trans (by
      rw [State.modeGo_quiesce (hp _), State.asked_mode _ _ hw, if_neg (by simp [h4, h5])])⟩
  case inr.inr.inr.inl =>
    exact ⟨_, (hgo 7 0 false (by omega) (by omega)).trans (by
      rw [State.modeGo_twinStandby (hp _), State.asked_mode _ _ hw, if_neg (by simp [h3])])⟩
  case inr.inr.inr.inr.inl =>
    exact ⟨_, (hgo 3 0 false (by omega) (by omega)).trans (by
      rw [State.modeGo_provisioning (hp _), State.asked_mode _ _ hw, if_neg h7])⟩
  case inr.inr.inr.inr.inr.inl =>
    exact ⟨_, (hgo 6 (b % 32) true (by omega) (by omega)).trans (by
      rw [State.modeGo_release (hp _), State.reqRelease_refused (by rwa [State.asked_mode _ _ hw])])⟩
  case inr.inr.inr.inr.inr.inr =>
    exact ⟨_, (hgo 6 (b % 32) false (by omega) (by omega)).trans (by
      rw [State.modeGo_maintenance (hp _), State.reqMaintenance_refused] <;> rwa [State.asked_mode _ _ hw])⟩

end Sys2Proof.Machine

namespace Sys2Proof.Machine

/-! ### One-bit fields read back -/

section
variable {s : State}

theorem State.on_wrB (h : s.RegsWf) {f : Fld} (hf : f.lo < 32) (h1 : f.w = 1) (b : Bool) : (s.wrB f b).on f = b := by
  rw [State.on, State.wrB, s.rd_wr _ _ h (by omega), h1]
  cases b <;> rfl

theorem State.on_wr_zero (h : s.RegsWf) {f : Fld} (hf : f.lo < 32) (h1 : f.w = 1) : (s.wr f 0).on f = false := s.on_wrB h hf h1 false

theorem State.on_wr_ne (h : s.RegsWf) {f g : Fld} (v : Nat) (hj : g.addr ≠ f.addr) : (s.wr f v).on g = s.on g := by
  rw [State.on, s.rd_wr_ne _ _ _ h hj, State.on]

theorem State.on_wr_disj (h : s.RegsWf) {f g : Fld} (v : Nat) (hw : f.lo + f.w ≤ 32) (ha : g.addr = f.addr)
    (hd : g.lo + g.w ≤ f.lo ∨ f.lo + f.w ≤ g.lo) : (s.wr f v).on g = s.on g := by
  rw [State.on, s.rd_wr_disj _ _ _ h hw ha hd, State.on]

/-- Two one-bit fields are the same or apart. -/
theorem State.on_wr_bit_ne (h : s.RegsWf) {f g : Fld} (v : Nat) (hf : f.w = 1) (hl : f.lo < 32) (hg : g.w = 1) (hne : g ≠ f) :
    (s.wr f v).on g = s.on g := by
  by_cases ha : g.addr = f.addr
  · have hlo : g.lo ≠ f.lo := fun hlo => hne (by cases f; cases g; simp_all)
    exact State.on_wr_disj h v (by omega) ha (by omega)
  · exact State.on_wr_ne h v ha

end

/-! ### The oscillators (R59, R60, R73, R74) -/

@[simp] theorem loReady_addr (g : Bool) : (loReady g).addr = TSC.LO_STAT := by cases g <;> rfl
@[simp] theorem loReady_w (g : Bool) : (loReady g).w = 1 := by cases g <;> rfl
theorem loReady_lo_lt (g : Bool) : (loReady g).lo < 32 := by cases g <;> decide
theorem loReady_ne_active (g : Bool) : loReady g ≠ TSC.LO_STAT_ACTIVE := by cases g <;> decide
theorem loReady_ne_pllHold (g : Bool) : loReady g ≠ TSC.LO_STAT_PLL_HOLD := by cases g <;> decide

section
variable {s : State}

theorem State.on_loReady_wr (h : s.RegsWf) (g : Bool) : (s.wr (loReady g) 1).on (loReady g) = true :=
  s.on_wr _ h (by have := loReady_lo_lt g; simp; omega) (loReady_w g)

/-- A ready bit written leaves which oscillator is active. -/
theorem State.grottoActive_wr_loReady (h : s.RegsWf) (g : Bool) (v : Nat) : (s.wr (loReady g) v).grottoActive = s.grottoActive :=
  State.on_wr_bit_ne h v (loReady_w g) (loReady_lo_lt g) rfl (loReady_ne_active g).symm

/-- The fallback of power-on shows the other oscillator as active and selected. -/
def State.selectOther (s : State) (ready : Bool) : State :=
  ((s.setActiveLo (!s.grottoActive)).wrB TSC.LO_CTRL_SEL (!s.grottoActive)).wrB (loReady (!s.grottoActive)) ready

theorem State.selectOther_signals (s : State) (ready : Bool) : Signals [TSC.LO_STAT, TSC.LO_CTRL, GRT.STATE] s (s.selectOther ready) :=
  (((Signals.wr s TSC.LO_STAT_ACTIVE _ (.inl (by decide))).trans (Signals.wr _ GRT.STATE_LO_ACTIVE _ (.inl (by decide)))).trans
    (Signals.wr _ TSC.LO_CTRL_SEL _ (.inl (by decide)))).trans (Signals.wr _ (loReady _) _ (.inl (by simp)))

theorem State.selectOther_on (h : s.RegsWf) (ready : Bool) : (s.selectOther ready).grottoActive = !s.grottoActive
    ∧ (s.selectOther ready).on (loReady (!s.grottoActive)) = ready := by
  have h1 := s.wr_regsWf TSC.LO_STAT_ACTIVE (b2n (!s.grottoActive)) h
  have h2 := State.wr_regsWf _ GRT.STATE_LO_ACTIVE (b2n (!s.grottoActive)) h1
  have h3 := State.wr_regsWf _ TSC.LO_CTRL_SEL (b2n (!s.grottoActive)) h2
  refine ⟨?_, State.on_wrB h3 (loReady_lo_lt _) (loReady_w _) ready⟩
  calc (s.selectOther ready).grottoActive
      = (((s.wrB TSC.LO_STAT_ACTIVE (!s.grottoActive)).wrB GRT.STATE_LO_ACTIVE (!s.grottoActive)).wrB TSC.LO_CTRL_SEL
          (!s.grottoActive)).on TSC.LO_STAT_ACTIVE := State.grottoActive_wr_loReady h3 _ _
    _ = (s.wrB TSC.LO_STAT_ACTIVE (!s.grottoActive)).on TSC.LO_STAT_ACTIVE :=
        (State.on_wr_ne h2 _ (by decide)).trans (State.on_wr_ne h1 _ (by decide))
    _ = !s.grottoActive := State.on_wrB h (by decide) rfl _

theorem State.loFallback_spec (h : s.RegsWf) (ready : Bool) :
    ((s.selectOther ready).sticky GLB.STICKY_LO_FALLBACK).grottoActive = !s.grottoActive
      ∧ ((s.selectOther ready).sticky GLB.STICKY_LO_FALLBACK).on (loReady (!s.grottoActive)) = ready
      ∧ ((s.selectOther ready).sticky GLB.STICKY_LO_FALLBACK).on GLB.STICKY_LO_FALLBACK = true
      ∧ Signals [TSC.LO_STAT, TSC.LO_CTRL, GRT.STATE, GLB.STICKY] s ((s.selectOther ready).sticky GLB.STICKY_LO_FALLBACK) := by
  have hsel := s.selectOther_signals ready
  have hw := hsel.regsWf h
  have hsig := State.sticky_glb_signals (s.selectOther ready) (f := GLB.STICKY_LO_FALLBACK) rfl (by decide) rfl
  obtain ⟨hact, hready⟩ := State.selectOther_on h ready
  exact ⟨(hsig.on_eq (f := TSC.LO_STAT_ACTIVE) hw (by decide) (by decide)).trans hact,
    (hsig.on_eq hw (by simp; decide) (by simp; decide)).trans hready, State.sticky_on _ _ hw rfl (by decide) (by decide),
    (hsel.mono (by simp)).trans (hsig.mono (by simp))⟩

/-- The loss of the active oscillator shown: it is not ready, and the PLL holds. -/
def State.showLoss (s : State) : State := (s.wr (loReady s.grottoActive) 0).wr TSC.LO_STAT_PLL_HOLD 1

theorem State.showLoss_signals (s : State) : Signals [TSC.LO_STAT] s s.showLoss :=
  (Signals.wr s _ 0 (.inl (by simp))).trans (Signals.wr _ TSC.LO_STAT_PLL_HOLD 1 (.inl (by decide)))

/-- The loss signalled. -/
def State.tellLoss (s : State) : State := (s.sticky TSC.STICKY_LO_LOST).sticky TSC.STICKY_PLL_HOLD

theorem State.tellLoss_signals (s : State) : Signals [TSC.STICKY] s s.tellLoss :=
  (s.sticky_signals _ rfl (by decide) (.inl (by decide))).trans (State.sticky_signals _ _ rfl (by decide) (.inl (by decide)))

theorem State.tellLoss_on (h : s.RegsWf) : s.tellLoss.on TSC.STICKY_LO_LOST = true ∧ s.tellLoss.on TSC.STICKY_PLL_HOLD = true := by
  have h1 : Signals [TSC.STICKY] s (s.sticky TSC.STICKY_LO_LOST) := s.sticky_signals _ rfl (by decide) (.inl (by decide))
  have hw := h1.regsWf h
  exact ⟨(State.sticky_bitsStay _ rfl (by decide) hw).2 _ rfl (by decide) (by decide) (State.sticky_on _ _ h rfl (by decide) (by decide)),
    State.sticky_on _ _ hw rfl (by decide) (by decide)⟩

theorem State.loLoss_spec (h : s.RegsWf) : s.showLoss.tellLoss.on TSC.STICKY_LO_LOST = true
    ∧ s.showLoss.tellLoss.on TSC.STICKY_PLL_HOLD = true ∧ s.showLoss.tellLoss.on TSC.LO_STAT_PLL_HOLD = true
    ∧ s.showLoss.tellLoss.on (loReady s.grottoActive) = false ∧ s.showLoss.tellLoss.grottoActive = s.grottoActive
    ∧ s.showLoss.tellLoss.on TSC.LO_CTRL_AUTO = s.on TSC.LO_CTRL_AUTO ∧ Signals [TSC.LO_STAT, TSC.STICKY] s s.showLoss.tellLoss := by
  have h1 := s.wr_regsWf (loReady s.grottoActive) 0 h
  have hshow := s.showLoss_signals
  have hw := hshow.regsWf h
  have htell := s.showLoss.tellLoss_signals
  obtain ⟨hlost, hhold⟩ := State.tellLoss_on hw
  have hstat : ∀ f : Fld, f.addr = TSC.LO_STAT → s.showLoss.tellLoss.on f = s.showLoss.on f :=
    fun f hf => htell.on_eq hw (by rw [hf]; decide) (by rw [hf]; decide)
  refine ⟨hlost, hhold, (hstat _ rfl).trans (State.on_wr _ _ h1 (by decide) rfl), (hstat _ (loReady_addr _)).trans ?_,
    (hstat TSC.LO_STAT_ACTIVE rfl).trans ?_, ?_, (hshow.mono (by simp)).trans (htell.mono (by simp))⟩
  · exact (State.on_wr_bit_ne h1 1 rfl (by decide) (loReady_w _) (loReady_ne_pllHold _)).trans
      (State.on_wr_zero h (loReady_lo_lt _) (loReady_w _))
  · exact (State.on_wr_bit_ne h1 1 rfl (by decide) rfl (by decide)).trans (State.grottoActive_wr_loReady h _ 0)
  · exact (htell.on_eq hw (by decide) (by decide)).trans (hshow.on_eq h (by decide) (by decide))

end

theorem State.advance_grottoActive (s : State) (t : Nat) : (s.advance t).grottoActive = s.grottoActive := s.advance_on t _

theorem State.advance_altReady (s : State) (t : Nat) : (s.advance t).altReady = s.altReady := by
  rw [State.altReady, s.advance_grottoActive, s.advance_on, State.altReady]

/-- The last try of a switch has failed: LO_FAIL sets, and a switch that was asked for is undone in `TSC.LO_CTRL`. -/
def State.retryFails (s : State) : State :=
  let u := (s.setTsc (fun x => { x with retryAt := none })).sticky TSC.STICKY_LO_FAIL
  if u.tsc.afterLoss then u else u.wrB TSC.LO_CTRL_SEL u.grottoActive

theorem State.retryFails_spec {s : State} (h : s.RegsWf) : s.retryFails.on TSC.STICKY_LO_FAIL = true
    ∧ s.retryFails.tsc.retryAt = none ∧ s.retryFails.grottoActive = s.grottoActive
    ∧ (s.tsc.afterLoss = false → s.retryFails.on TSC.LO_CTRL_SEL = s.grottoActive)
    ∧ Signals [TSC.STICKY, TSC.LO_CTRL] { s with tsc := { s.tsc with retryAt := none } } s.retryFails := by
  have hw : (s.setTsc (fun x => { x with retryAt := none })).RegsWf := h
  have hsig : Signals [TSC.STICKY] _ ((s.setTsc (fun x => { x with retryAt := none })).sticky TSC.STICKY_LO_FAIL) :=
    State.sticky_signals _ _ rfl (by decide) (.inl (by decide))
  have hfail := State.sticky_on _ TSC.STICKY_LO_FAIL hw rfl (by decide) (by decide)
  have hact : State.grottoActive _ = s.grottoActive := hsig.on_eq (f := TSC.LO_STAT_ACTIVE) hw (by decide) (by decide)
  unfold State.retryFails
  generalize (s.setTsc (fun x => { x with retryAt := none })).sticky TSC.STICKY_LO_FAIL = u at hsig hfail hact ⊢
  have htsc : u.tsc = { s.tsc with retryAt := none } := hsig.tsc
  have hu := hsig.regsWf hw
  dsimp only
  split
  next hloss =>
    rw [htsc] at hloss ⊢
    exact ⟨hfail, rfl, hact, fun hasked => absurd (hloss.symm.trans hasked) (by decide), hsig.mono (by simp)⟩
  next =>
    refine ⟨(State.on_wr_ne hu _ (by decide)).trans hfail, by rw [State.wrB_tsc, htsc], (State.on_wr_ne hu _ (by decide)).trans hact,
      fun _ => hact ▸ State.on_wrB hu (by decide) rfl _, (hsig.mono (by simp)).trans (Signals.wr _ _ _ (.inl (by decide)))⟩

/-- Settles O24: each event by the registers it writes, in their order. -/
theorem oscillatorEvents : Obligations.OscillatorEvents := by
  intro g d t s hc
  have hw := hc.regs
  have ha := State.advance_regsWf hw t
  refine ⟨⟨_, rfl, State.on_loReady_wr hw g, fun j hj => s.reg_wr_ne _ j _ hw (by simpa using hj), rfl⟩, fun hrun hready => ?_,
    fun hrun => ?_, fun hrun => ?_, fun hauto => ?_, fun hhold => ?_, ?_, fun e he hdue halt => ?_⟩
  · have hexec : exec (.loFallback g) s = .next ((s.selectOther g).sticky GLB.STICKY_LO_FALLBACK) :=
      congrArg Host.Outcome.next (if_pos ⟨hrun, hready⟩)
    obtain ⟨hact, hon, hsticky, hsig⟩ := State.loFallback_spec hw g
    exact ⟨_, hexec, hact, hact ▸ hon, hsticky, hsig⟩
  · have hw' : State.RegsWf { s with rawRun := true, raw := 0 } := hw
    have hexec : exec .timingPllLock s = .next (({ s with rawRun := true, raw := 0 } : State).wr TSC.LO_STAT_PLL_LOCK 1) :=
      congrArg Host.Outcome.next (if_neg (by simp [hrun]))
    exact ⟨_, hexec, rfl, rfl, State.on_wr _ _ hw' (by decide) rfl, fun j hj => State.reg_wr_ne _ _ _ _ hw' hj, rfl⟩
  · exact congrArg Host.Outcome.next (if_pos hrun)
  · obtain ⟨hlost, hsth, hhold, hready, hact, hau, hsig⟩ := State.loLoss_spec ha
    have hexec : exec (.loLoss d t) s = .next (s.advance t).showLoss.tellLoss :=
      congrArg Host.Outcome.next (if_neg (by
        show ¬ ((s.advance t).showLoss.tellLoss.on TSC.LO_CTRL_AUTO = true)
        simp [hau, hauto]))
    rw [s.advance_grottoActive] at hready hact
    exact ⟨_, hexec, hlost, hsth, hhold, hready, hact, hsig⟩
  · have hact : ((s.advance t).wr (loReady s.grottoActive) 1).grottoActive = s.grottoActive :=
      (State.grottoActive_wr_loReady ha _ 1).trans (s.advance_grottoActive t)
    have hheld : ((s.advance t).wr (loReady s.grottoActive) 1).on TSC.LO_STAT_PLL_HOLD = true :=
      (State.on_wr_bit_ne ha 1 (loReady_w _) (loReady_lo_lt _) rfl (loReady_ne_pllHold _).symm).trans ((s.advance_on t _).trans hhold)
    have h1 := State.wr_regsWf _ (loReady s.grottoActive) 1 ha
    have hexec : exec (.oscillatorReady s.grottoActive d t) s = .next
        ((((s.advance t).wr (loReady s.grottoActive) 1).wr TSC.LO_STAT_PLL_HOLD 0).setTsc
          (fun x => { x with retryAt := if x.afterLoss then none else x.retryAt, afterLoss := false })) :=
      congrArg Host.Outcome.next ((if_pos hheld).trans (if_pos hact.symm))
    refine ⟨_, hexec, State.on_wr_zero h1 (by decide) rfl, ?_, fun j hj => ?_, ?_⟩
    · exact (State.on_wr_bit_ne h1 0 rfl (by decide) (loReady_w _) (loReady_ne_pllHold _)).trans (State.on_loReady_wr ha _)
    · exact (State.reg_wr_ne _ _ j _ h1 hj).trans ((State.reg_wr_ne _ _ j _ ha (by simpa using hj)).trans (s.advance_reg t j))
    · rw [← s.advance_tsc t]
      rfl
  · have h1 := State.wr_regsWf _ (loReady !(s.advance t).grottoActive) 0 ha
    have hbit : ∀ f : Fld, f.addr = TSC.LO_STAT → (((s.advance t).wr (loReady !(s.advance t).grottoActive) 0).setN TSC.LO_XDIFF 0x80000000).on f
        = ((s.advance t).wr (loReady !(s.advance t).grottoActive) 0).on f := fun f hf => by
      rw [State.on, State.rd_setN_ne _ _ _ _ h1 (by rw [hf]; decide), State.on]
    have hact : State.grottoActive _ = (s.advance t).grottoActive :=
      (hbit TSC.LO_STAT_ACTIVE rfl).trans (State.grottoActive_wr_loReady ha _ 0)
    refine ⟨_, rfl, ?_, ?_, fun j hj hj' => ?_, rfl⟩
    · rw [State.altReady, hact, hbit _ (loReady_addr _)]
      exact State.on_wr_zero ha (loReady_lo_lt _) (loReady_w _)
    · exact State.nreg_setN _ _ _ h1
    · rw [State.reg_setN_ne _ _ _ _ h1 hj', State.reg_wr_ne _ _ _ _ ha (by simpa using hj), s.advance_reg]
  · have hexec : exec (.loSwitchRetry d t) s = .next (s.advance t).retryFails := by
      show execLoSwitchRetry d t s = _
      unfold execLoSwitchRetry
      simp only [s.advance_tsc, he, if_neg (Nat.not_lt.mpr hdue), s.advance_altReady, halt, Bool.false_eq_true, if_false]
      rfl
    have hfails := State.retryFails_spec ha
    rw [s.advance_grottoActive, s.advance_tsc] at hfails
    exact ⟨_, hexec, hfails⟩

end Sys2Proof.Machine

namespace Sys2Proof.Machine

/-! ### A key job that Lockdown misses

The canonical form says nothing of the table of the engines' queues. A state whose table lists queue 0 twice is canonical, though
no step brings it about: the entry behind the first shows only once the first is gone. Lockdown aborts the jobs of the first entry
and zeroises the keys, and then finds the job of the second. The self-test it aborts afterwards powers the sequencer of that queue
up again; the sequencer may not execute its bank, faults, and its fault aborts the job that is left. An aborted job leaves its
claimed slot POISONED (R416), so slot 5 is listed again after the zeroisation. -/

/-- A public-key job with no bytes of its own. -/
def keyJob (claim : Option Nat) (running : Bool) : PkJob := ⟨⟨0, 0, 0, 0, 0, 0, [], 0⟩, 0, claim, running, 0, []⟩

/-- The engine in Service while a self-test of sequencer 44 runs, and queue 0 listed twice, the job behind with a claim of slot 5. -/
def queueListedTwice : State :=
  let s := State.reset.wr GLB.MODE_CURRENT 4
  { s with
    pke := { s.pke with queues := [(0, [keyJob none false]), (0, [keyJob (some 5) true])] }
    bst := { s.bst with test := some ⟨⟨0, 0, 0, 0, 0, 0, [], 0⟩, 0, 44, 1, 0, false⟩ }
    seq := { s.seq with sq := [(44, { dSq 44 with st := .off, a := { dBank with words := [0] } })] } }

theorem queueListedTwice_canon : queueListedTwice.Canon where
  regs := State.reset.wr_regsWf GLB.MODE_CURRENT 4 rfl
  shadow := List.Pairwise.nil
  latch := rfl
  held := rfl
  mem := rfl
  ts := rfl
  cmps := rfl
  sqs := rfl
  raw := rfl

theorem queueListedTwice_takesRequest : queueListedTwice.takesRequest 0 0 := by
  unfold State.takesRequest
  decide +kernel

/-- The Lockdown request as `exec` runs it. -/
theorem exec_modeReqLockdown (m t : Nat) (s : State) : exec (.modeReqLockdown m t) s = .next ((s.advance t).modeReq m 10 0) := rfl

theorem queueListedTwice_keeps_slot : ((queueListedTwice.advance 0).modeReq 0 10 0).key.slots ≠ [(0, noKey)] := by decide +kernel

/-- Refutes O20: from a canonical state whose table lists queue 0 twice, a Lockdown leaves slot 5 listed, POISONED. -/
theorem not_lockdownKeepAliveAndTwinRequests : ¬ Obligations.LockdownKeepAliveAndTwinRequests := by
  intro h
  obtain ⟨hlock, -, -⟩ := h 0 0 queueListedTwice queueListedTwice_canon
  obtain ⟨u, hu, -, -, hslots, -⟩ := hlock queueListedTwice_takesRequest (by decide) rfl
  obtain rfl : (queueListedTwice.advance 0).modeReq 0 10 0 = u := by
    rw [exec_modeReqLockdown] at hu
    injection hu
  exact queueListedTwice_keeps_slot hslots

end Sys2Proof.Machine

namespace Sys2Proof.Machine

/-! ### What frames, commands and records leave as they pass

Frames, commands, events, alarms and records move tokens and count. None of them writes a register of GLB or the count of
function-level resets, and none of them changes the state of a ring or a function. -/

/-- The registers the passing of frames, commands and records never writes. -/
abbrev calm (k : Nat) : Prop := k < 0x10000 ∨ k = HIF.FLR_COUNT

/-- What the passing of frames, commands and records keeps between `b` and `s`. -/
structure Flows (b s : State) : Prop where
  regsWf : b.RegsWf → s.RegsWf
  reg : b.RegsWf → ∀ k, calm k → s.reg k = b.reg k
  fns : s.hif.fns = b.hif.fns
  ringsWf : b.RingsWf → s.RingsWf
  ringSt : b.RingsWf → ∀ r, (s.ringOf r).st = (b.ringOf r).st

section
variable {b s t : State}

theorem Flows.refl (s : State) : Flows s s := ⟨id, fun _ _ _ => rfl, rfl, id, fun _ _ => rfl⟩

/-- Parts of the state that `Flows` does not speak of may change. -/
theorem Flows.of_fields (h : Flows b s) (hv : t.variant = s.variant) (hr : t.regs = s.regs) (hf : t.hif.fns = s.hif.fns)
    (hh : t.hif.rings = s.hif.rings) : Flows b t where
  regsWf w := by rw [State.RegsWf, hv, hr]; exact h.regsWf w
  reg w k hk := by rw [State.reg, hv, hr]; exact h.reg w k hk
  fns := hf.trans h.fns
  ringsWf w := by rw [State.RingsWf, hh]; exact h.ringsWf w
  ringSt w r := by rw [State.ringOf, hh]; exact h.ringSt w r

theorem Flows.ite {c : Prop} [Decidable c] (hs : Flows b s) (ht : Flows b t) : Flows b (if c then s else t) := by
  split <;> assumption

theorem Flows.foldl {α : Type} {f : State → α → State} (hf : ∀ u a, Flows b u → Flows b (f u a)) (l : List α) (h : Flows b s) :
    Flows b (l.foldl f s) := by
  induction l generalizing s with
  | nil => exact h
  | cons a l ih => exact ih (hf s a h)

theorem Flows.rd (h : Flows b s) (w : b.RegsWf) {f : Fld} (hf : calm f.addr) : s.rd f = b.rd f := by
  rw [State.rd, State.nreg, h.reg w _ hf, State.rd, State.nreg]

/-! ### Registers of the ports, the quads and the Sump are not calm -/

theorem not_calm_prt (p : Nat) {off : Nat} (h : off % 0x10000 ≠ 0x78) : ¬ calm (0x100000 + off + 0x10000 * p) := by
  unfold calm HIF.FLR_COUNT
  omega

theorem not_calm_alarmSum : ¬ calm PMC.ALARM_SUM := by decide

theorem not_calm_alarmPorts : ¬ calm PMC.ALARM_PORTS := by decide

theorem not_calm_stickyPrt (p : Nat) : ¬ calm (PRT.STICKY p) := not_calm_prt p (off := 8) (by decide)

theorem not_calm_statPrt (p : Nat) : ¬ calm (PRT.STAT p) := not_calm_prt p (off := 0x10) (by decide)

theorem not_calm_statsSel (p : Nat) : ¬ calm (PRT.STATS_SEL p) := not_calm_prt p (off := 0x40) (by decide)

theorem not_calm_qCancel (q : Nat) : ¬ calm (RSP.Q_CANCEL_LO q) ∧ ¬ calm (RSP.Q_CANCEL_LO q + 4) := by
  unfold calm HIF.FLR_COUNT RSP.Q_CANCEL_LO
  omega

theorem not_calm_sumpCnt {reason : Nat} (h : reason < 32) : ¬ calm (FAB.SUMP_CNT_LO reason) ∧ ¬ calm (FAB.SUMP_CNT_LO reason + 4) := by
  unfold calm HIF.FLR_COUNT FAB.SUMP_CNT_LO
  omega

theorem not_calm_ringErr (r : Nat) : ¬ calm (HIF.RING_ERR r) := by
  unfold calm HIF.FLR_COUNT HIF.RING_ERR
  omega

end

theorem State.qPut_hif (s : State) (q n : Nat) : (s.qPut q n).hif = s.hif := by
  unfold State.qPut
  dsimp only
  split <;> rfl

/-! ### Registers -/

section
variable {b s : State} (h : Flows b s)
include h

theorem State.setN_flows {k : Nat} (hk : ¬ calm k) (v : Nat) : Flows b (s.setN k v) where
  regsWf w := s.setN_regsWf k v (h.regsWf w)
  reg w j hj := (s.reg_setN_ne k j v (h.regsWf w) (fun e => hk (e ▸ hj))).trans (h.reg w j hj)
  fns := h.fns
  ringsWf := h.ringsWf
  ringSt := h.ringSt

theorem State.wr_flows {f : Fld} (hf : ¬ calm f.addr) (v : Nat) : Flows b (s.wr f v) := State.setN_flows h hf _

theorem State.wrB_flows {f : Fld} (hf : ¬ calm f.addr) (v : Bool) : Flows b (s.wrB f v) := State.setN_flows h hf _

theorem State.bump_flows {k : Nat} (hk : ¬ calm k) (n : Nat) : Flows b (s.bump k n) := State.setN_flows h hk _

theorem State.bumpF_flows {f : Fld} (hf : ¬ calm f.addr) (n : Nat) : Flows b (s.bumpF f n) := State.setN_flows h hf _

theorem State.bump48_flows {k : Nat} (hk : ¬ calm k ∧ ¬ calm (k + 4)) (n : Nat) : Flows b (s.bump48 k n) :=
  State.wr_flows (State.setN_flows h hk.1 _) hk.2 _

/-! ### Alarms and counts -/

theorem State.msixCore_flows (fn vec : Nat) : Flows b (s.msixCore fn vec).1 := by
  unfold State.msixCore
  dsimp only
  split
  · refine State.bump_flows ?_ (k := HIF.MSIX_SENT) (by decide) 1
    exact h.of_fields rfl rfl rfl rfl
  · exact h.of_fields rfl rfl rfl rfl

theorem State.pmcAdd_flows (g e u n : Nat) : Flows b (s.pmcAdd g e u n).1 := by
  unfold State.pmcAdd
  generalize s.cntMatches g e u = l
  suffices hl : ∀ acc : State × Option Nat, Flows b acc.1 → Flows b (l.foldl _ acc).1 from hl _ h
  induction l with
  | nil => exact fun _ hacc => hacc
  | cons i l ih => exact fun acc hacc => ih _ (hacc.of_fields rfl rfl rfl rfl)

theorem State.markHalf_flows (c : Option Nat) : Flows b (s.markHalf c) := by
  cases c with
  | none => exact h
  | some i =>
    have h2 := State.wr_flows (f := PMC.STICKY_HALF) (Flows.ite (c := s.on PMC.STICKY_HALF = true) h
      (State.setN_flows h (k := PMC.HALF_IDX) (by decide) (i + 2 ^ 16))) (by decide) 1
    exact Flows.ite (State.wr_flows h2 (f := ⟨PMC.ALARM_SUM, 23, 1⟩) (by decide) 1) h2

theorem State.alarmMsix_flows : Flows b s.alarmMsix := by
  unfold State.alarmMsix
  have h1 := State.msixCore_flows h 0 (s.rd HIF.CTRL_ALARM_VEC)
  exact Flows.ite (State.markHalf_flows (State.pmcAdd_flows h1 2 9 0 1) _) h1

theorem State.raiseBit_flows {f : Fld} (hf : ¬ calm f.addr) : Flows b (s.raiseBit f) := by
  have h1 := State.wr_flows h hf 1
  have hsum := fun v => State.wr_flows h1 (f := ⟨PMC.ALARM_SUM, v, 1⟩) not_calm_alarmSum 1
  unfold State.raiseBit
  dsimp only
  split
  · exact h
  · split
    · split
      · exact h1
      · split
        · exact State.alarmMsix_flows (State.wr_flows (hsum _) not_calm_alarmPorts 1)
        · exact State.alarmMsix_flows (hsum _)
    · exact h1

theorem State.count_flows (g e u n : Nat) : Flows b (s.count g e u n) := by
  have h1 := State.pmcAdd_flows h g e u n
  unfold State.count
  dsimp only
  split
  · exact h1
  · exact State.raiseBit_flows (f := PMC.STICKY_HALF) (Flows.ite h1 (State.setN_flows h1 (k := PMC.HALF_IDX) (by decide) _)) (by decide)

/-! ### Tokens -/

theorem State.give_flows (k : Tok) (i n : Nat) : Flows b (s.give k i n) := h.of_fields rfl rfl rfl rfl

theorem State.qTake_flows (q n : Nat) : Flows b (s.qTake q n) := State.give_flows h _ _ _

theorem State.setFab_flows (f : FabS → FabS) : Flows b (s.setFab f) := h.of_fields rfl rfl rfl rfl

theorem State.issue_flows (k : Tok) (i n : Nat) : Flows b (s.issue k i n) := h.of_fields rfl rfl rfl rfl

theorem State.qPut_flows (q n : Nat) : Flows b (s.qPut q n) :=
  have h1 := State.issue_flows h .credit q n
  Flows.ite (State.setFab_flows h1 _) h1

theorem State.endRequest_flows (q : Nat) (x : Term) : Flows b (s.endRequest q x) := h.of_fields rfl rfl rfl rfl

theorem State.setRing_flows {r : Nat} {x : Ring} (hx : x.st = (s.ringOf r).st) : Flows b (s.setRing r x) where
  regsWf := h.regsWf
  reg := h.reg
  fns := h.fns
  ringsWf w := Store.put_wf (h.ringsWf w)
  ringSt w j := by
    refine Eq.trans ?_ (h.ringSt w j)
    by_cases hj : j = r
    · subst hj
      exact (congrArg Ring.st (Store.get_put_same (h.ringsWf w))).trans hx
    · exact congrArg Ring.st (Store.get_put_ne (h.ringsWf w) hj)

/-! ### Sticky bits, events and records -/

theorem State.sumpTally_flows {reason : Nat} (hr : reason < 32) (n : Nat) : Flows b (s.sumpTally reason n).1 :=
  State.count_flows (State.bump48_flows h (not_calm_sumpCnt hr) n) 2 6 0 n

theorem State.sumpCount_flows {reason : Nat} (hr : reason < 32) (n : Nat) : Flows b (s.sumpCount reason n) := by
  have h1 := State.sumpTally_flows h hr n
  exact Flows.ite (State.raiseBit_flows h1 (f := FAB.STICKY_SUMP_HALF) (by decide)) h1

theorem State.postEvent_flows (ring kind : Nat) (p : List Byte) : Flows b (s.postEvent ring kind p).1 := by
  unfold State.postEvent
  dsimp only
  split
  · exact (State.qPut_flows h 142 1).of_fields rfl rfl (by rw [s.qPut_hif]) (by rw [s.qPut_hif])
  · refine State.sumpCount_flows ?_ (reason := 0x17) (by decide) 1
    exact State.setRing_flows h rfl

theorem State.setQuiet_flows {f : Fld} (hf : ¬ calm f.addr) : Flows b (s.setQuiet f) := by
  unfold State.setQuiet
  split
  · exact h
  · split
    · exact State.raiseBit_flows h hf
    · exact Flows.ite (State.raiseBit_flows (State.postEvent_flows h _ _ _) hf) (State.raiseBit_flows h hf)

theorem State.setSq_flows (n : Nat) (x : Sq) : Flows b (s.setSq n x) := h.of_fields rfl rfl rfl rfl

theorem State.seqEvent_flows (n bit : Nat) : Flows b (s.seqEvent n bit) := Flows.ite h (State.setSq_flows h n _)

theorem State.journal_flows (typ src : Nat) (body : List Byte) : Flows b (s.journal typ src body) := by
  unfold State.journal
  dsimp only
  split
  · refine State.seqEvent_flows ?_ 50 1
    exact (State.qPut_flows h 141 1).of_fields rfl rfl rfl rfl
  · have h1 := State.bump_flows (State.sumpCount_flows h (reason := 0x17) (by decide) 1) (k := FLS.JRN_LOST) (by decide) 1
    refine State.setQuiet_flows ?_ (f := FLS.STICKY_JRN_LOST) (by decide)
    exact h1.of_fields rfl rfl rfl rfl

theorem State.sticky_flows {f : Fld} (hf : ¬ calm f.addr) : Flows b (s.sticky f) := by
  have h1 := State.setQuiet_flows h hf
  unfold State.sticky
  dsimp only
  split
  · exact h
  · split
    · exact h1
    · exact Flows.ite (State.journal_flows (State.bump_flows h1 (k := PMC.JRN_COUNT) (by decide) 1) _ _ _) h1

theorem State.stat_flows (p i n : Nat) : Flows b (s.stat p i n) := by
  unfold State.stat
  dsimp only
  generalize hn : (Store.get zNat s.prt.stats (64 * p + i) + n) % 2 ^ 48 = v
  have h1 : Flows b { s with prt := { s.prt with stats := Store.put zNat s.prt.stats (64 * p + i) v } } := h.of_fields rfl rfl rfl rfl
  refine Flows.ite (State.sticky_flows (Flows.ite h1 ?_) (not_calm_stickyPrt p)) h1
  exact State.wr_flows (State.wr_flows h1 (not_calm_statsSel p) i) (not_calm_statsSel p) 1

/-- A discard is counted, sampled and signalled (R46, R49). -/
theorem State.sump_flows {reason : Nat} (hr : reason < 32) (c : SClass) (tgt inst n : Nat) (frame : List Byte) (flen : Nat) :
    Flows b (s.sump reason c tgt inst n frame flen) := by
  have h1 := State.sumpTally_flows h hr n
  have h2 := Flows.ite (c := (s.sumpTally reason n).2 = true) (State.sticky_flows h1 (f := FAB.STICKY_SUMP_HALF) (by decide)) h1
  refine Flows.ite h (Flows.ite (Flows.ite ?_ ?_) h2)
  · exact State.postEvent_flows (State.setFab_flows h2 _) _ _ _
  · exact State.sticky_flows h2 (f := FAB.STICKY_SAMPLE_LOST) (by decide)

theorem State.sumpRequest_flows {reason : Nat} (hr : reason < 32) (q tgt inst : Nat) (frame : List Byte) (flen : Nat) :
    Flows b (s.sumpRequest reason q tgt inst frame flen) :=
  State.count_flows (State.endRequest_flows (State.sump_flows h hr .request tgt inst 1 frame flen) q .sumped) 0 7 q 1

/-! ### Commands, completions and host frames -/

theorem State.takeCmd_flows (c : HostCmd) : Flows b (s.takeCmd c) :=
  Flows.ite ((State.qTake_flows h 143 1).of_fields rfl rfl rfl rfl) h

theorem State.postCpl_flows (r : Nat) (c : Cpl) : Flows b (s.postCpl r c) := Flows.ite h (State.setRing_flows h rfl)

theorem State.freeTx_flows (f : TxFrame) : Flows b (s.freeTx f) := h.of_fields rfl rfl rfl rfl

theorem State.dropTx_flows (f : TxFrame) (status : Nat) {reason : Nat} (hr : reason < 32) : Flows b (s.dropTx f status reason) :=
  State.postCpl_flows (State.sump_flows (State.freeTx_flows h f) hr .buffer 18 f.ring 1 f.bytes (f.bytes.length + 4)) _ _

/-! ### Frames in the quads -/

theorem State.quadEvent_flows (q bit : Nat) : Flows b (s.quadEvent q bit) :=
  Flows.foldl (fun _ i hu => State.seqEvent_flows hu (8 * q + i) bit) _ h

theorem State.putJob_flows (j : Job) : Flows b (s.putJob j) := h.of_fields rfl rfl rfl rfl

theorem State.pump_flows (q : Nat) : Flows b (s.pump q) := by
  have h1 : Flows b ((s.jobsIn q .declined).foldl _ s) := Flows.foldl (f := fun t j =>
    if t.qRoom (96 + q) 1 then ((t.qPut (96 + q)).putJob { j with st := .atSeq }).quadEvent q 0 else t)
    (fun u j hu => Flows.ite (State.quadEvent_flows (State.putJob_flows (State.qPut_flows hu _ 1) _) q 0) hu) _ h
  refine Flows.foldl (fun u j hu => ?_) _ (Flows.foldl (fun u j hu => ?_) _ h1)
  · exact Flows.ite (State.putJob_flows (State.qPut_flows hu _ 1) _) hu
  · exact Flows.ite (State.putJob_flows (State.qPut_flows hu _ 1) _) hu

theorem State.updTd_flows (u : Nat) (f : Td → Td) : Flows b (s.updTd u f) := h.of_fields rfl rfl rfl rfl

theorem State.setSeqS_flows (f : SeqS → SeqS) : Flows b (s.setSeqS f) := h.of_fields rfl rfl rfl rfl

theorem State.itemCycles_flows (n k : Nat) (ok : Bool) : Flows b (s.itemCycles n k ok) :=
  Flows.ite h (Flows.ite (State.count_flows (State.updTd_flows h _ _) 6 1 n k) (State.count_flows (State.updTd_flows h _ _) 6 2 n k))

theorem State.itemSettle_flows (id : Nat) (ok : Bool) : Flows b (s.itemSettle id ok) := by
  unfold State.itemSettle
  split
  · exact h
  · exact State.itemCycles_flows (State.setSeqS_flows h _) _ _ ok

theorem State.slotWasted_flows (q : Nat) : Flows b (s.slotWasted q) := State.count_flows (State.updTd_flows h _ _) 0 10 q 1

theorem State.leaveQueues_flows (j : Job) : Flows b (s.leaveQueues j) := by
  have h1 := Flows.ite (c := j.cells = 0) h (State.qTake_flows h j.port j.cells)
  unfold State.leaveQueues
  dsimp only
  split
  · exact State.qTake_flows h1 _ 1
  · exact State.qTake_flows h1 _ 1
  · exact Flows.ite (State.qTake_flows h1 _ 1) h1
  · exact h1

theorem State.freeJob_flows (j : Job) : Flows b (s.freeJob j) := by
  have h1 : Flows b ((s.leaveQueues j).leaveSlot j) :=
    Flows.ite (State.give_flows (State.leaveQueues_flows h j) .depart j.port 1) (State.leaveQueues_flows h j)
  have h2 : Flows b ((((s.leaveQueues j).leaveSlot j).give .buffer j.quad 1).delJob j.id) := h1.of_fields rfl rfl rfl rfl
  exact State.pump_flows (State.quadEvent_flows h2 j.quad 1) j.quad

theorem State.sumpJob_flows (j : Job) {reason : Nat} (hr : reason < 32) : Flows b (s.sumpJob j reason) := by
  have h1 := State.itemSettle_flows (State.freeJob_flows h j) j.id false
  have h2 := Flows.ite (c := j.slotted = true) (State.slotWasted_flows h1 j.quad) h1
  exact Flows.ite (State.sumpRequest_flows h2 hr _ _ _ _ _) (State.sump_flows h2 hr _ _ _ _ _ _)

end

end Sys2Proof.Machine

namespace Sys2Proof.Machine

/-! ### Rings that go to DISABLED at once (R352) -/

/-- Between `b` and `s` the rings of `p` went to DISABLED and no other ring changed its state; what frames and commands leave as
they pass is left. -/
structure Kills (p : Nat → Prop) (b s : State) : Prop where
  regsWf : b.RegsWf → s.RegsWf
  reg : b.RegsWf → ∀ k, calm k → s.reg k = b.reg k
  fns : s.hif.fns = b.hif.fns
  ringsWf : b.RingsWf → s.RingsWf
  dead : b.RingsWf → ∀ r, p r → (s.ringOf r).st = .disabled
  others : b.RingsWf → ∀ r, ¬ p r → (s.ringOf r).st = (b.ringOf r).st

/-- Ring `r` in state DISABLED, with nothing on it. -/
def State.clearRing (s : State) (r : Nat) : State :=
  s.setRing r { s.ringOf r with st := .disabled, posted := [], txd := [], cpls := [], openBuf := none, sigN := 0 }

section
variable {p q : Nat → Prop} {b s t : State}

theorem Kills.refl (s : State) : Kills (fun _ => False) s s :=
  ⟨id, fun _ _ _ => rfl, rfl, id, fun _ _ hr => hr.elim, fun _ _ _ => rfl⟩

theorem Kills.trans (h : Kills p b s) (g : Kills q s t) : Kills (fun r => p r ∨ q r) b t where
  regsWf w := g.regsWf (h.regsWf w)
  reg w k hk := (g.reg (h.regsWf w) k hk).trans (h.reg w k hk)
  fns := g.fns.trans h.fns
  ringsWf w := g.ringsWf (h.ringsWf w)
  dead w r hr := by
    by_cases hq : q r
    · exact g.dead (h.ringsWf w) r hq
    · exact (g.others (h.ringsWf w) r hq).trans (h.dead w r (hr.resolve_right hq))
  others w r hr := (g.others (h.ringsWf w) r (fun hq => hr (.inr hq))).trans (h.others w r (fun hp => hr (.inl hp)))

theorem Kills.congr (h : Kills p b s) (hpq : ∀ r, q r ↔ p r) : Kills q b s :=
  { h with dead := fun w r hr => h.dead w r ((hpq r).mp hr), others := fun w r hr => h.others w r (fun hp => hr ((hpq r).mpr hp)) }

theorem Kills.of_disabled {r : Nat} (h : (s.ringOf r).st = .disabled) : Kills (· = r) s s :=
  ⟨id, fun _ _ _ => rfl, rfl, id, fun _ _ hr => hr ▸ h, fun _ _ _ => rfl⟩

theorem Kills.of_clearRing {r : Nat} (h : Flows (s.clearRing r) t) : Kills (· = r) s t where
  regsWf := h.regsWf
  reg := h.reg
  fns := h.fns
  ringsWf w := h.ringsWf (Store.put_wf w)
  dead w k hk := by
    rw [h.ringSt (Store.put_wf w), hk]
    exact congrArg Ring.st (Store.get_put_same w)
  others w k hk := (h.ringSt (Store.put_wf w) k).trans (congrArg Ring.st (Store.get_put_ne w hk))

end

theorem State.markErr_flows {b s : State} (h : Flows b s) (r : Nat) (x : Bool) : Flows b (s.markErr r x) :=
  State.wrB_flows (State.wrB_flows h (f := ⟨HIF.RING_ERR (r / 32), r % 32, 1⟩) (not_calm_ringErr _) x)
    (f := ⟨HIF.RING_ERR_SUMMARY, r / 32, 1⟩) (by show ¬ calm HIF.RING_ERR_SUMMARY; decide) _

/-- The frames and commands of a ring that ends leave. -/
theorem State.killRing_flows (s : State) {r : Nat} (h : (s.ringOf r).st ≠ .disabled) : Flows (s.clearRing r) (s.killRing r) := by
  unfold State.killRing
  rw [if_neg h]
  extract_lets s0 s1 s2 s3 s4 lost n taken left s5 s6
  have h0 : Flows (s.clearRing r) s0 := State.markErr_flows (Flows.refl (s.clearRing r)) r false
  have h1 : Flows (s.clearRing r) s1 := State.give_flows h0 _ _ _
  have h2 : Flows (s.clearRing r) s2 := Flows.foldl (fun _ c hu => State.takeCmd_flows hu c) _ h1
  have h3 : Flows (s.clearRing r) s3 := Flows.foldl (fun _ f hu => State.dropTx_flows hu f stABORTED (by decide)) _ h2
  have h4 : Flows (s.clearRing r) s4 := Flows.foldl (fun _ j hu => State.sumpJob_flows hu j (by decide)) _ h3
  have h5 : Flows (s.clearRing r) s5 := (State.qTake_flows h4 142 n).of_fields rfl rfl rfl rfl
  have h6 : Flows (s.clearRing r) s6 := Flows.ite h5 (State.sumpCount_flows h5 (reason := 0x17) (by decide) lost)
  refine Flows.foldl (fun u c hu => ?_) _ h6
  split
  · exact State.sumpRequest_flows hu (by decide) _ _ _ _ _
  · exact hu

theorem State.killRing_kills (s : State) (r : Nat) : Kills (· = r) s (s.killRing r) := by
  by_cases h : (s.ringOf r).st = .disabled
  · have hsame : s.killRing r = s := by
      unfold State.killRing
      rw [if_pos h]
    rw [hsame]
    exact Kills.of_disabled h
  · exact Kills.of_clearRing (s.killRing_flows h)

theorem State.foldl_killRing_kills (l : List (Nat × Ring)) (s : State) :
    Kills (fun r => ∃ e ∈ l, e.1 = r) s (l.foldl (fun t e => t.killRing e.1) s) := by
  induction l generalizing s with
  | nil => exact (Kills.refl s).congr (by simp)
  | cons e l ih => exact ((s.killRing_kills e.1).trans (ih _)).congr (by simp [eq_comm])

/-- A ring that the table does not list is DISABLED. -/
theorem State.ringOf_unlisted {s : State} {r : Nat} (h : ¬ ∃ e ∈ s.hif.rings, e.1 = r) : (s.ringOf r).st = .disabled := by
  rcases Store.get_mem dRing s.hif.rings r with hr | hr
  · rw [State.ringOf, hr]
    rfl
  · exact absurd ⟨_, hr, rfl⟩ h

end Sys2Proof.Machine

namespace Sys2Proof.Machine

/-! ### A function-level reset (R62, R348) -/

section
variable {s : State} (f : Nat)

theorem State.flrRings_kills : Kills (fun r => (∃ e ∈ s.hif.rings, e.1 = r) ∧ s.owns f r = true) s (s.flrRings f) :=
  (State.foldl_killRing_kills _ s).congr (fun r => by
    simp only [List.mem_filter]
    exact ⟨fun ⟨⟨e, he, hr⟩, ho⟩ => ⟨e, ⟨he, hr ▸ ho⟩, hr⟩, fun ⟨e, ⟨he, ho⟩, hr⟩ => ⟨⟨e, he, hr⟩, hr ▸ ho⟩⟩)

theorem State.flrRings_owned (h : s.RingsWf) {r : Nat} (ho : s.owns f r = true) : ((s.flrRings f).ringOf r).st = .disabled := by
  by_cases hr : ∃ e ∈ s.hif.rings, e.1 = r
  · exact (s.flrRings_kills f).dead h r ⟨hr, ho⟩
  · exact ((s.flrRings_kills f).others h r (fun hc => hr hc.1)).trans (State.ringOf_unlisted hr)

theorem State.flrRings_not_owned (h : s.RingsWf) {r : Nat} (ho : s.owns f r = false) :
    ((s.flrRings f).ringOf r).st = (s.ringOf r).st :=
  (s.flrRings_kills f).others h r (fun hc => absurd (ho.symm.trans hc.2) (by decide))

theorem State.flrFn_fnOf_same (h : Store.wf dFn s.hif.fns = true) : (s.flrFn f).fnOf f = dFn f := Store.get_put_same h

theorem State.flrFn_fnOf_ne (h : Store.wf dFn s.hif.fns = true) {k : Nat} (hk : k ≠ f) : (s.flrFn f).fnOf k = s.fnOf k :=
  Store.get_put_ne h hk

end

/-- The reset of a function counted and signalled. -/
theorem State.flrTold_spec {s : State} (h : s.RegsWf) : ((s.bump HIF.FLR_COUNT).sticky HIF.STICKY_FLR).on HIF.STICKY_FLR = true
    ∧ ((s.bump HIF.FLR_COUNT).sticky HIF.STICKY_FLR).nreg HIF.FLR_COUNT = (s.nreg HIF.FLR_COUNT + 1) % 2 ^ 32
    ∧ Flows (s.bump HIF.FLR_COUNT) ((s.bump HIF.FLR_COUNT).sticky HIF.STICKY_FLR) := by
  have hw : (s.bump HIF.FLR_COUNT).RegsWf := s.setN_regsWf _ _ h
  have hflow := State.sticky_flows (Flows.refl (s.bump HIF.FLR_COUNT)) (f := HIF.STICKY_FLR) (by decide)
  refine ⟨State.sticky_on _ _ hw rfl (by decide) (by decide), ?_, hflow⟩
  rw [State.nreg, hflow.reg hw _ (.inr rfl), ← State.nreg]
  exact s.nreg_setN _ _ h

/-- What a function-level reset leaves. -/
theorem State.flr_spec {s : State} (h : s.RegsWf) (hr : s.RingsWf) (hf : Store.wf dFn s.hif.fns = true) (f : Nat) :
    let u := (((s.flrRings f).flrFn f).bump HIF.FLR_COUNT).sticky HIF.STICKY_FLR
    (∀ r, s.owns f r = true → (u.ringOf r).st = .disabled) ∧ (∀ r, s.owns f r = false → (u.ringOf r).st = (s.ringOf r).st)
      ∧ u.fnOf f = dFn f ∧ (∀ k, k ≠ f → u.fnOf k = s.fnOf k)
      ∧ u.nreg HIF.FLR_COUNT = (s.nreg HIF.FLR_COUNT + 1) % 2 ^ 32 ∧ u.on HIF.STICKY_FLR = true := by
  intro u
  have hk := s.flrRings_kills f
  have hf' : Store.wf dFn (s.flrRings f).hif.fns = true := hk.fns ▸ hf
  obtain ⟨hon, hcount, hflow⟩ := State.flrTold_spec (s := (s.flrRings f).flrFn f) (hk.regsWf h)
  have hring : ∀ r, (u.ringOf r).st = ((s.flrRings f).ringOf r).st := hflow.ringSt (hk.ringsWf hr)
  have hfn : ∀ k, u.fnOf k = ((s.flrRings f).flrFn f).fnOf k := fun k => by
    rw [State.fnOf, hflow.fns]
    rfl
  refine ⟨fun r ho => (hring r).trans (State.flrRings_owned f hr ho), fun r ho => (hring r).trans (State.flrRings_not_owned f hr ho),
    (hfn f).trans (State.flrFn_fnOf_same f hf'), fun k hne => ?_, ?_, hon⟩
  · rw [hfn k, State.flrFn_fnOf_ne f hf' hne, State.fnOf, hk.fns, State.fnOf]
  · have hnreg : ((s.flrRings f).flrFn f).nreg HIF.FLR_COUNT = s.nreg HIF.FLR_COUNT := congrArg BitVec.toNat (hk.reg h _ (.inr rfl))
    rw [hcount, hnreg]

end Sys2Proof.Machine

namespace Sys2Proof.Machine

/-! ### The loss of the link (R62, R346) -/

/-- A key whose entries are dropped reads as unlisted. -/
theorem Store.get_filter_dropped {α : Type} (d : Nat → α) (m : Store α) (keep : Nat × α → Bool) {k : Nat} (h : ∀ v, keep (k, v) = false) :
    Store.get d (m.filter keep) k = d k := by
  rcases Store.get_mem d (m.filter keep) k with hk | hk
  · exact hk
  · exact absurd ((List.mem_filter.mp hk).2.symm.trans (h _)) (by decide)

/-- The keys the reset of HIF keeps: those of the other blocks, STICKY and the counters. -/
def hifKeeps (k : Nat) : Bool :=
  !((decide (Tbl.fnCfg.key 0 ≤ k) && decide (k < Tbl.seqWdog.key 0)) || (decide (Tbl.fnSel.key 0 ≤ k) && decide (k < Tbl.seqSel.key 0)))
    && (blkAt k != some .hif || decide (2 ^ 32 ≤ k) || hifKept k)

/-- The registers of HIF at their reset values but STICKY and the counters, and no function configured. -/
def State.hifCleared (s : State) : State :=
  { s with regs := s.regs.filter (fun e => hifKeeps e.1), shadow := s.shadow.filter (fun e => hifKeeps e.1),
           hif := { s.hif with fns := [], msixMask := [], msixPend := [] } }

/-- The loss of the link counted and signalled, `downs` losses before. -/
def State.tellLinkLoss (s : State) (downs : Nat) : State :=
  ((((s.wr HIF.LINK_STAT_DOWNS downs).bump HIF.FLR_COUNT).sticky HIF.STICKY_FLR).sticky HIF.STICKY_LINK_DOWN)

theorem State.hifReset_eq (s : State) :
    s.hifReset = (s.hif.rings.foldl (fun t e => t.killRing e.1) s).hifCleared.tellLinkLoss (s.rd HIF.LINK_STAT_DOWNS) := rfl

section
variable {s : State}

theorem State.hifCleared_regsWf (h : s.RegsWf) : s.hifCleared.RegsWf := Store.filter_wf _ h

theorem State.hifCleared_linkStat (s : State) : s.hifCleared.reg HIF.LINK_STAT = 0 := by
  have hdrop : hifKeeps HIF.LINK_STAT = false := by decide
  refine (Store.get_filter_dropped _ _ _ (fun _ => hdrop)).trans ?_
  show resetWord s.variant HIF.LINK_STAT = 0
  cases s.variant <;> rfl

theorem State.tellLinkLoss_spec (h : s.RegsWf) (downs : Nat) : (s.tellLinkLoss downs).RegsWf
    ∧ (s.tellLinkLoss downs).on HIF.LINK_STAT_UP = s.on HIF.LINK_STAT_UP
    ∧ (s.tellLinkLoss downs).rd HIF.LINK_STAT_DOWNS = downs % 2 ^ 8
    ∧ (s.tellLinkLoss downs).on HIF.STICKY_FLR = true ∧ (s.tellLinkLoss downs).on HIF.STICKY_LINK_DOWN = true
    ∧ (s.tellLinkLoss downs).hif.fns = s.hif.fns
    ∧ (s.RingsWf → ∀ r, ((s.tellLinkLoss downs).ringOf r).st = (s.ringOf r).st) := by
  have h1 := s.wr_regsWf HIF.LINK_STAT_DOWNS downs h
  have h2 : ((s.wr HIF.LINK_STAT_DOWNS downs).bump HIF.FLR_COUNT).RegsWf := State.setN_regsWf _ _ _ h1
  have hstat : ∀ g : Fld, g.addr = HIF.LINK_STAT → ((s.wr HIF.LINK_STAT_DOWNS downs).bump HIF.FLR_COUNT).rd g
      = (s.wr HIF.LINK_STAT_DOWNS downs).rd g := fun g hg => State.rd_setN_ne _ _ _ _ h1 (by rw [hg]; decide)
  unfold State.tellLinkLoss
  generalize hv : (s.wr HIF.LINK_STAT_DOWNS downs).bump HIF.FLR_COUNT = v at h2 hstat
  have hflr : Signals [HIF.STICKY] v (v.sticky HIF.STICKY_FLR) := v.sticky_signals _ rfl (by decide) (.inl (by decide))
  have hdown : Signals [HIF.STICKY] _ ((v.sticky HIF.STICKY_FLR).sticky HIF.STICKY_LINK_DOWN) :=
    State.sticky_signals _ _ rfl (by decide) (.inl (by decide))
  have hw := hflr.regsWf h2
  have hboth := hflr.trans hdown
  have hflow := State.sticky_flows (State.sticky_flows (Flows.refl v) (f := HIF.STICKY_FLR) (by decide)) (f := HIF.STICKY_LINK_DOWN)
    (by decide)
  have hrd : ∀ g : Fld, g.addr = HIF.LINK_STAT → ((v.sticky HIF.STICKY_FLR).sticky HIF.STICKY_LINK_DOWN).rd g
      = (s.wr HIF.LINK_STAT_DOWNS downs).rd g := fun g hg =>
    (hboth.rd_eq h2 (by rw [hg]; decide) (by rw [hg]; decide)).trans (hstat g hg)
  refine ⟨hboth.regsWf h2, ?_, (hrd _ rfl).trans (State.rd_wr _ _ _ h (by decide)), ?_,
    State.sticky_on _ _ hw rfl (by decide) (by decide), ?_, fun hr r => ?_⟩
  · rw [State.on, hrd _ rfl, State.rd_wr_disj _ HIF.LINK_STAT_DOWNS HIF.LINK_STAT_UP _ h (by decide) rfl (by decide), State.on]
  · exact (State.sticky_bitsStay _ rfl (by decide) hw).2 _ rfl (by decide) (by decide) (State.sticky_on _ _ h2 rfl (by decide) (by decide))
  · rw [hflow.fns, ← hv]
    rfl
  · subst hv
    exact hflow.ringSt hr r

/-- What the loss of the link leaves. -/
theorem State.linkLoss_spec (h : s.RegsWf) (hr : s.RingsWf) {u : State} (hu : s.hifReset.bumpF HIF.LINK_STAT_DOWNS = u) :
    (∀ r, (u.ringOf r).st = .disabled) ∧ (∀ k, u.fnOf k = dFn k)
      ∧ u.on HIF.LINK_STAT_UP = false ∧ u.rd HIF.LINK_STAT_DOWNS = (s.rd HIF.LINK_STAT_DOWNS + 1) % 256
      ∧ u.on HIF.STICKY_FLR = true ∧ u.on HIF.STICKY_LINK_DOWN = true := by
  have hk := State.foldl_killRing_kills s.hif.rings s
  have hdead : ∀ r, ((s.hif.rings.foldl (fun t e => t.killRing e.1) s).ringOf r).st = .disabled := fun r => by
    by_cases hl : ∃ e ∈ s.hif.rings, e.1 = r
    · exact hk.dead hr r hl
    · exact (hk.others hr r hl).trans (State.ringOf_unlisted hl)
  have hwf := hk.ringsWf hr
  have hreg := hk.regsWf h
  rw [State.hifReset_eq] at hu
  generalize s.hif.rings.foldl (fun t e => t.killRing e.1) s = k at hdead hwf hreg hu
  obtain ⟨hw, hup, hdowns, hflr, hdown, hfns, hring⟩ := State.tellLinkLoss_spec (State.hifCleared_regsWf hreg) (s.rd HIF.LINK_STAT_DOWNS)
  generalize k.hifCleared.tellLinkLoss (s.rd HIF.LINK_STAT_DOWNS) = v at hw hup hdowns hflr hdown hfns hring hu
  subst hu
  have hlt : s.rd HIF.LINK_STAT_DOWNS < 2 ^ 8 := bitsOf_lt _ _ _
  refine ⟨fun r => (hring hwf r).trans (hdead r), fun j => ?_, ?_, ?_, ?_, ?_⟩
  · show Store.get dFn v.hif.fns j = dFn j
    rw [hfns]
    rfl
  · refine (State.on_wr_disj hw (f := HIF.LINK_STAT_DOWNS) (g := HIF.LINK_STAT_UP) _ (by decide) rfl (by decide)).trans (hup.trans ?_)
    rw [State.on, State.rd, State.nreg, show HIF.LINK_STAT_UP.addr = HIF.LINK_STAT from rfl, k.hifCleared_linkStat]
    rfl
  · rw [State.bumpF, State.rd_wr _ _ _ hw (by decide), hdowns, Nat.mod_eq_of_lt hlt]
    rfl
  · exact (State.on_wr_ne hw _ (by decide)).trans hflr
  · exact (State.on_wr_ne hw _ (by decide)).trans hdown

end

/-! ### The link trains (R346) -/

/-- What the link trained to, shown. -/
def State.showLink (s : State) (g w nv : Nat) : State :=
  (((s.wr HIF.LINK_STAT_UP 1).wr HIF.LINK_STAT_GEN g).wr HIF.LINK_STAT_WIDTH w).wr HIF.LINK_STAT_NUM_VFS nv

theorem State.showLink_signals (s : State) (g w nv : Nat) : Signals [HIF.LINK_STAT] s (s.showLink g w nv) :=
  (((Signals.wr s HIF.LINK_STAT_UP _ (.inl (by decide))).trans (Signals.wr _ HIF.LINK_STAT_GEN _ (.inl (by decide)))).trans
    (Signals.wr _ HIF.LINK_STAT_WIDTH _ (.inl (by decide)))).trans (Signals.wr _ HIF.LINK_STAT_NUM_VFS _ (.inl (by decide)))

theorem State.showLink_rd {s : State} (h : s.RegsWf) {g w nv : Nat} (hg : g < 8) (hw : w < 32) (hn : nv < 64) :
    (s.showLink g w nv).on HIF.LINK_STAT_UP = true ∧ (s.showLink g w nv).rd HIF.LINK_STAT_GEN = g
      ∧ (s.showLink g w nv).rd HIF.LINK_STAT_WIDTH = w ∧ (s.showLink g w nv).rd HIF.LINK_STAT_NUM_VFS = nv := by
  have h1 := s.wr_regsWf HIF.LINK_STAT_UP 1 h
  have h2 := State.wr_regsWf _ HIF.LINK_STAT_GEN g h1
  have h3 := State.wr_regsWf _ HIF.LINK_STAT_WIDTH w h2
  unfold State.showLink
  refine ⟨?_, ?_, ?_, ?_⟩
  · rw [State.on_wr_disj h3 (f := HIF.LINK_STAT_NUM_VFS) (g := HIF.LINK_STAT_UP) _ (by decide) rfl (by decide),
      State.on_wr_disj h2 (f := HIF.LINK_STAT_WIDTH) (g := HIF.LINK_STAT_UP) _ (by decide) rfl (by decide),
      State.on_wr_disj h1 (f := HIF.LINK_STAT_GEN) (g := HIF.LINK_STAT_UP) _ (by decide) rfl (by decide)]
    exact s.on_wr _ h (by decide) rfl
  · rw [State.rd_wr_disj _ HIF.LINK_STAT_NUM_VFS HIF.LINK_STAT_GEN _ h3 (by decide) rfl (by decide),
      State.rd_wr_disj _ HIF.LINK_STAT_WIDTH HIF.LINK_STAT_GEN _ h2 (by decide) rfl (by decide), State.rd_wr _ _ _ h1 (by decide)]
    exact Nat.mod_eq_of_lt hg
  · rw [State.rd_wr_disj _ HIF.LINK_STAT_NUM_VFS HIF.LINK_STAT_WIDTH _ h3 (by decide) rfl (by decide), State.rd_wr _ _ _ h2 (by decide)]
    exact Nat.mod_eq_of_lt hw
  · rw [State.rd_wr _ _ _ h3 (by decide)]
    exact Nat.mod_eq_of_lt hn

theorem State.linkUp_spec {s : State} (h : s.RegsWf) {g w nv : Nat} (hg : g < 8) (hw : w < 32) (hn : nv < 64) :
    let u := if g < 3 ∨ w < 4 then (s.showLink g w nv).sticky HIF.STICKY_LINK_DEGRADED else s.showLink g w nv
    u.on HIF.LINK_STAT_UP = true ∧ u.rd HIF.LINK_STAT_GEN = g ∧ u.rd HIF.LINK_STAT_WIDTH = w ∧ u.rd HIF.LINK_STAT_NUM_VFS = nv
      ∧ (g < 3 ∨ w < 4 → u.on HIF.STICKY_LINK_DEGRADED = true) ∧ Signals [HIF.LINK_STAT, HIF.STICKY] s u := by
  obtain ⟨hup, hgen, hwidth, hnum⟩ := State.showLink_rd h hg hw hn
  have hshow := s.showLink_signals g w nv
  have hwf := hshow.regsWf h
  have hmono := hshow.mono (ks' := [HIF.LINK_STAT, HIF.STICKY]) (by simp)
  dsimp only
  split
  next =>
    have hs : Signals [HIF.STICKY] _ ((s.showLink g w nv).sticky HIF.STICKY_LINK_DEGRADED) :=
      State.sticky_signals _ _ rfl (by decide) (.inl (by decide))
    have hrd : ∀ f : Fld, f.addr = HIF.LINK_STAT → _ = (s.showLink g w nv).rd f := fun f hf =>
      hs.rd_eq hwf (by rw [hf]; decide) (by rw [hf]; decide)
    exact ⟨(hs.on_eq hwf (by decide) (by decide)).trans hup, (hrd _ rfl).trans hgen, (hrd _ rfl).trans hwidth, (hrd _ rfl).trans hnum,
      fun _ => State.sticky_on _ _ hwf rfl (by decide) (by decide), hmono.trans (hs.mono (by simp))⟩
  next hno => exact ⟨hup, hgen, hwidth, hnum, fun hlow => absurd hlow hno, hmono⟩

/-- Settles O44: a reset ends the rings it owns one by one and then clears the function; so does the loss of the link, for all. -/
theorem functionsAndLinkAreReset : Obligations.FunctionsAndLinkAreReset := by
  intro f g w nv t s a hc hr hfns hf ha
  subst ha
  have haw := State.advance_regsWf hc.regs t
  have har : (s.advance t).RingsWf := by rwa [State.RingsWf, s.advance_hif]
  have hring : ∀ r, (s.advance t).ringOf r = s.ringOf r := fun r => by rw [State.ringOf, s.advance_hif, State.ringOf]
  have hfn : ∀ k, (s.advance t).fnOf k = s.fnOf k := fun k => by rw [State.fnOf, s.advance_hif, State.fnOf]
  have howns : ∀ r, (s.advance t).owns f r = s.owns f r := fun r => by
    unfold State.owns State.ringBase State.ringCount
    rw [s.advance_rd, s.advance_rd]
  refine ⟨congrArg Host.Outcome.next (if_pos hf), congrArg Host.Outcome.next (if_pos hf), ⟨_, congrArg Host.Outcome.next (if_neg (by omega)), ?_⟩,
    ⟨_, rfl, ?_⟩, fun hg hw hn => ⟨_, rfl, ?_⟩⟩
  · have hflr := State.flr_spec haw har (by rwa [s.advance_hif]) f
    simp only [hring, hfn, howns, s.advance_nreg] at hflr
    exact hflr
  · have hloss := State.linkLoss_spec haw har rfl
    rw [s.advance_rd] at hloss
    exact hloss
  · have hup := State.linkUp_spec haw (g := min g (s.rd HIF.LINK_CTRL_MAX_GEN)) (w := min w (s.rd HIF.LINK_CTRL_MAX_WIDTH))
      (by omega) (by omega) hn
    rw [s.advance_rd, s.advance_rd]
    exact hup

end Sys2Proof.Machine

namespace Sys2Proof.Machine

/-! ### Reservations cancelled and links that drop leave what frames leave as they pass -/

theorem cancelSump_lt (reason : Nat) : cancelSump reason < 32 := by
  unfold cancelSump
  split <;> decide

section
variable {b s : State} (h : Flows b s)
include h

theorem State.calMissed_flows (p n : Nat) : Flows b (s.calMissed p n) :=
  Flows.ite h (State.count_flows (State.sticky_flows (State.bump_flows h (k := PTP.CAL_MISSED) (by decide) n)
    (f := PTP.STICKY_CAL_MISSED) (by decide)) 4 4 (p / 8) n)

theorem State.missJob_flows (j : Job) : Flows b (s.missJob j) := Flows.ite (State.calMissed_flows h j.port 1) h

theorem State.setRsp_flows (x : RspS) : Flows b { s with rsp := x } := h.of_fields rfl rfl rfl rfl

theorem State.setPrt_flows (x : PrtS) : Flows b { s with prt := x } := h.of_fields rfl rfl rfl rfl

theorem State.countCancel_flows (j : Job) (reason : Nat) : Flows b (s.countCancel j reason) := by
  unfold State.countCancel
  have h1 := State.bump48_flows (State.stat_flows h j.port (if j.checked then 49 else 48) 1) (not_calm_qCancel j.quad) 1
  have h2 := fun x v => State.setN_flows (State.setRsp_flows h1 x) (k := RSP.CANCEL_LAST) (by decide) v
  have h3 := fun x v => State.sticky_flows (State.count_flows (h2 x v) 0 5 j.quad 1) (f := RSP.STICKY_CANCEL) (by decide)
  exact Flows.ite (State.sticky_flows (h3 _ _) (f := RSP.STICKY_MISMATCH) (by decide))
    (Flows.ite (State.sticky_flows (h3 _ _) (f := RSP.STICKY_LATE) (by decide)) (h3 _ _))

theorem State.cancelDrop_flows (j : Job) : Flows b (s.cancelDrop j) := by
  unfold State.cancelDrop
  have h0 := State.itemSettle_flows (State.freeJob_flows h j) j.id false
  have h1 := Flows.ite (c := j.isReq = true) (State.sticky_flows h0 (f := RSP.STICKY_REBUILD_DROP) (by decide)) h0
  have h2 := Flows.ite (c := j.slotted = true) (State.slotWasted_flows h1 j.quad) h1
  exact Flows.ite (State.endRequest_flows (State.sump_flows h2 (reason := 0x0F) (by decide) _ _ _ _ _ _) _ _)
    (State.sump_flows h2 (reason := 0x0F) (by decide) _ _ _ _ _ _)

theorem State.cancelJob_flows (j : Job) (reason : Nat) : Flows b (s.cancelJob j reason) := by
  unfold State.cancelJob
  have h1 := State.give_flows (State.countCancel_flows h j reason) .depart j.port 1
  have h2 := Flows.ite (c := j.slotted = true) (State.slotWasted_flows h1 j.quad) h1
  have h3 := fun x => State.putJob_flows h2 x
  exact Flows.ite h (Flows.ite
    (Flows.ite (State.missJob_flows (State.cancelDrop_flows (h3 _) _) _) (h3 _))
    (Flows.ite (State.missJob_flows (State.cancelDrop_flows (h3 _) _) _)
      (State.missJob_flows (State.sumpJob_flows (h3 _) _ (cancelSump_lt reason)) _)))

theorem State.cancelPort_flows (p reason : Nat) : Flows b (s.cancelPort p reason) :=
  Flows.foldl (fun _ j hu => State.cancelJob_flows hu j reason) _ h

theorem State.setLinkDown_flows (p : Nat) : Flows b (s.setLink p false) := by
  unfold State.setLink
  simp only [Bool.false_eq_true, if_false]
  have h1 := fun x => State.setPrt_flows (State.stat_flows h p 59 (s.msSince (Store.get zNat s.prt.linkRaw p) / 1000)) x
  have h2 := fun x => State.bumpF_flows (State.wrB_flows (h1 x) (f := PRT.STAT_LINK p) (not_calm_statPrt p) false)
    (f := PRT.STAT_LINK_CHANGES p) (not_calm_statPrt p) 1
  exact Flows.ite h (State.sticky_flows (State.stat_flows (h2 _) p 56 1) (not_calm_stickyPrt p))

theorem State.portDrops_flows (p : Nat) : Flows b (s.portDrops p) := by
  have h1 := State.cancelPort_flows (State.setLinkDown_flows h p) p caLINK
  have h2 := State.wr_flows (State.wr_flows (State.wr_flows h1 (f := PRT.STAT_PCS_LOCK p) (not_calm_statPrt p) 0)
    (f := PRT.STAT_FEC_LOCK p) (not_calm_statPrt p) 0) (f := PRT.STAT_CAL_VALID p) (not_calm_statPrt p) 0
  exact State.setPrt_flows h2 _

end

end Sys2Proof.Machine

namespace Sys2Proof.Machine

/-! ### The blocks in Maintenance -/

theorem bitAt_eq_testBit (x i : Nat) : bitAt x i = x.testBit i := by
  rw [bitAt, Nat.testBit_eq_decide_div_mod_eq, Nat.shiftRight_eq_div_pow]
  rfl

theorem State.maint_eq_testBit (s : State) {b : Nat} (hb : b ≤ 24) : s.maint b = (s.nreg GLB.MAINT_SET).testBit b := by
  rw [State.maint, bitAt_eq_testBit, State.rd, testBit_bitsOf]
  have hlt : b < GLB.MAINT_SET_TARGETS.w := by
    show b < 25
    omega
  rw [decide_eq_true hlt, Bool.true_and]
  exact congrArg _ (Nat.zero_add b)

/-- The bit of block `b` in `GLB.MAINT_SET`. -/
abbrev maintFld (b : Nat) : Fld := ⟨GLB.MAINT_SET, b, 1⟩

theorem State.maint_congr {s t : State} (h : t.reg GLB.MAINT_SET = s.reg GLB.MAINT_SET) (b : Nat) : t.maint b = s.maint b := by
  rw [State.maint, State.rd, State.nreg, show GLB.MAINT_SET_TARGETS.addr = GLB.MAINT_SET from rfl, h]
  rfl

section
variable {s : State} {b : Nat}

theorem State.nreg_wr_maint (h : s.RegsWf) (hb : b ≤ 24) (v : Nat) :
    (s.wr (maintFld b) v).nreg GLB.MAINT_SET = withBits (s.nreg GLB.MAINT_SET) b 1 v :=
  s.nreg_wr (maintFld b) v h (by show b + 1 ≤ 32; omega)

theorem State.maint_wr (h : s.RegsWf) (hb : b ≤ 24) (v : Nat) : (s.wr (maintFld b) v).maint b = v.testBit 0 := by
  rw [State.maint_eq_testBit _ hb, State.nreg_wr_maint h hb, testBit_withBits, if_pos (by omega), Nat.sub_self]

/-- The last block released leaves none. -/
theorem State.nreg_wr_maint_last (h : s.RegsWf) (hb : b ≤ 24) (hset : s.nreg GLB.MAINT_SET = 2 ^ b) :
    (s.wr (maintFld b) 0).nreg GLB.MAINT_SET = 0 := by
  rw [State.nreg_wr_maint h hb, hset]
  refine Nat.eq_of_testBit_eq fun i => ?_
  rw [testBit_withBits, Nat.zero_testBit, Nat.zero_testBit, Nat.testBit_two_pow]
  split
  · rfl
  next hi => exact decide_eq_false (by omega)

/-- Of a block that is fenced, its bit sets, and of target 12 the ports' links drop. -/
theorem State.fenceBlock_flows (s : State) (b : Nat) : Flows (s.wr (maintFld b) 1) (s.fenceBlock b) := by
  have h := Flows.refl (s.wr (maintFld b) 1)
  exact Flows.ite (Flows.foldl (fun _ p hu => Flows.ite (State.portDrops_flows hu p) hu) _ h) h

theorem State.fenceBlock_of_ne (s : State) (hb : b ≠ 12) : s.fenceBlock b = s.wr (maintFld b) 1 := if_neg hb

/-- With no quad fenced a block is unfenced by its bit alone. -/
theorem State.unfenceBlock_of_unfenced (h : s.RegsWf) (hq : b = 13 → ∀ q, q < 4 → s.on (fencedFld q) = false) :
    s.unfenceBlock b = s.wr (maintFld b) 0 := by
  unfold State.unfenceBlock
  by_cases hb : b = 13
  · have hoff : ∀ q, q < 4 → (s.wr (maintFld b) 0).on (fencedFld q) = false := fun q hlt =>
      (State.on_wr_ne h 0 (show RSP.STAT ≠ GLB.MAINT_SET by decide)).trans (hq hb q hlt)
    simp only [if_pos hb, List.range_succ, List.range_zero, List.nil_append, List.cons_append, List.foldl_cons, List.foldl_nil,
      hoff _ (show 0 < 4 by decide), hoff _ (show 1 < 4 by decide), hoff _ (show 2 < 4 by decide), hoff _ (show 3 < 4 by decide),
      Bool.false_eq_true, if_false]
  · exact if_neg hb

theorem State.entered_of_ne (s : State) {dest : Nat} (h : dest ≠ 3) : s.entered dest = s := if_neg h

/-- A block fenced: its bit is set, and no other register of GLB changes. -/
theorem State.fenceBlock_spec (h : s.RegsWf) (hb : b ≤ 24) : (s.fenceBlock b).RegsWf ∧ (s.fenceBlock b).maint b = true
    ∧ (∀ f : Fld, f.addr < 0x10000 → f.addr ≠ GLB.MAINT_SET → (s.fenceBlock b).rd f = s.rd f) := by
  have hw := s.wr_regsWf (maintFld b) 1 h
  have hflow := s.fenceBlock_flows b
  exact ⟨hflow.regsWf hw, (State.maint_congr (hflow.reg hw _ (by decide)) b).trans (State.maint_wr h hb 1),
    fun f hf hne => (hflow.rd hw (.inl hf)).trans (s.rd_wr_ne _ _ _ h hne)⟩

theorem State.fenceBlock_signals (s : State) (hb : b ≠ 12) : Signals [GLB.MAINT_SET] s (s.fenceBlock b) := by
  rw [s.fenceBlock_of_ne hb]
  exact Signals.wr s _ _ (.inl (List.mem_singleton.mpr rfl))

/-- What ends with a change to Maintenance leaves the blocks in it. -/
theorem Signals.maint_eq {ks : List Nat} {s t : State} (h : Signals ks s t) (w : s.RegsWf) (hk : GLB.MAINT_SET ∉ ks) (b : Nat) :
    t.maint b = s.maint b := State.maint_congr (h.reg w _ hk (by decide)) b

/-- Maintenance of a block from Service or Degraded. -/
theorem State.reqMaintenance_enters (h : s.RegsWf) (hp : s.on GLB.MODE_STAT_PENDING = false) (hb : b ≤ 24) (hm : s.mode = 4 ∨ s.mode = 5) :
    (s.reqMaintenance b).wentTo s.mode 6 ∧ (s.reqMaintenance b).requestDone stOK ∧ (s.reqMaintenance b).maint b = true
      ∧ (b ≠ 12 → Signals (GLB.MAINT_SET :: modeKeys) s (s.reqMaintenance b)) := by
  have hreq : s.reqMaintenance b = ((s.fenceBlock b).setMode 6 2).modeDone stOK := by
    unfold State.reqMaintenance
    rw [if_neg (by omega)]
    rcases hm with hm | hm <;> simp only [hm]
  obtain ⟨hw, hmaint, hglb⟩ := State.fenceBlock_spec h hb
  have hp' : (s.fenceBlock b).on GLB.MODE_STAT_PENDING = false := by
    rw [State.on, hglb _ (by decide) (by decide)]
    exact hp
  have hmode : (s.fenceBlock b).mode = s.mode := hglb GLB.MODE_CURRENT (by decide) (by decide)
  obtain ⟨hwent, hdone, hsig⟩ := State.setMode_done 6 2 hw hp' (by decide)
  rw [State.entered_of_ne _ (by decide), if_neg (by decide)] at hsig
  rw [hreq]
  exact ⟨hmode ▸ hwent, hdone, (hsig.maint_eq hw (by decide) b).trans hmaint, fun hne =>
    ((s.fenceBlock_signals hne).mono (by simp)).trans (hsig.mono (by simp +contextual))⟩

/-- Maintenance of one more block. -/
theorem State.reqMaintenance_adds (h : s.RegsWf) (hb : b ≤ 24) (hb' : b ≠ 12) (hm : s.mode = 6) (hmaint : s.maint b = false) :
    (s.reqMaintenance b).mode = 6 ∧ (s.reqMaintenance b).requestDone stOK ∧ (s.reqMaintenance b).maint b = true
      ∧ Signals (GLB.MAINT_SET :: modeKeys) s (s.reqMaintenance b) := by
  have hreq : s.reqMaintenance b = (s.fenceBlock b).modeDone stOK := by
    unfold State.reqMaintenance
    rw [if_neg (by omega), hm, hmaint]
    rfl
  obtain ⟨hw, hset, hglb⟩ := State.fenceBlock_spec h hb
  have hdone := (s.fenceBlock b).modeDone_signals stOK
  rw [hreq]
  exact ⟨(State.modeDone_mode hw _).trans ((hglb GLB.MODE_CURRENT (by decide) (by decide)).trans hm),
    State.modeDone_requestDone hw (by decide), (hdone.maint_eq hw (by decide) b).trans hset,
    ((s.fenceBlock_signals hb').mono (by simp)).trans (hdone.mono (by decide))⟩

theorem State.serviceMode_lt (s : State) : s.serviceMode < 16 := by
  unfold State.serviceMode
  split <;> decide

theorem State.serviceMode_ne (s : State) : s.serviceMode ≠ 3 := by
  unfold State.serviceMode
  split <;> decide

/-- A change to Service or Degraded that ends a request. -/
theorem State.serves_done (cause : Nat) (h : s.RegsWf) (hp : s.on GLB.MODE_STAT_PENDING = false) :
    ((s.setMode s.serviceMode cause).modeDone stOK).wentTo s.mode s.serviceMode
      ∧ ((s.setMode s.serviceMode cause).modeDone stOK).requestDone stOK
      ∧ Signals (TWN.STICKY :: modeKeys) s ((s.setMode s.serviceMode cause).modeDone stOK) := by
  obtain ⟨hwent, hdone, hsig⟩ := State.setMode_done s.serviceMode cause h hp s.serviceMode_lt
  rw [State.entered_of_ne _ s.serviceMode_ne] at hsig
  exact ⟨hwent, hdone, hsig.mono (by split <;> simp +contextual)⟩

/-- The last block released: the engine serves again. -/
theorem State.reqRelease_leaves (h : s.RegsWf) (hp : s.on GLB.MODE_STAT_PENDING = false) (hm : s.mode = 6) (hb : b ≤ 24)
    (hset : s.nreg GLB.MAINT_SET = 2 ^ b) (hq : b = 13 → ∀ q, q < 4 → s.on (fencedFld q) = false) :
    (s.reqRelease b).wentTo 6 s.serviceMode ∧ (s.reqRelease b).requestDone stOK ∧ (s.reqRelease b).maint b = false
      ∧ Signals (GLB.MAINT_SET :: TWN.STICKY :: modeKeys) s (s.reqRelease b) := by
  have hmaint : s.maint b = true := by
    rw [State.maint_eq_testBit _ hb, hset]
    exact Nat.testBit_two_pow_self
  have hservice : (s.wr (maintFld b) 0).serviceMode = s.serviceMode := by
    rw [State.serviceMode, State.lacksSpare, State.wr, State.nreg_setN_ne _ _ _ _ h (show BST.UNSERVED_KINDS ≠ GLB.MAINT_SET by decide),
      State.setN_fab]
    rfl
  have hreq : s.reqRelease b = ((s.wr (maintFld b) 0).setMode (s.wr (maintFld b) 0).serviceMode 10).modeDone stOK := by
    unfold State.reqRelease
    rw [if_pos ⟨hm, hb, hmaint⟩, State.unfenceBlock_of_unfenced h hq]
    dsimp only
    rw [if_pos (State.nreg_wr_maint_last h hb hset)]
  have hw := s.wr_regsWf (maintFld b) 0 h
  have hmode : (s.wr (maintFld b) 0).mode = 6 := (s.rd_wr_ne (maintFld b) GLB.MODE_CURRENT 0 h (show GLB.MODE ≠ GLB.MAINT_SET by decide)).trans hm
  obtain ⟨hwent, hdone, hsig⟩ := State.serves_done 10 hw
    ((State.on_wr_ne h 0 (show GLB.MODE_STAT ≠ GLB.MAINT_SET by decide)).trans hp)
  rw [hreq]
  exact ⟨hservice ▸ hmode ▸ hwent, hdone, (hsig.maint_eq hw (by decide) b).trans (State.maint_wr h hb 0),
    (Signals.wr s (maintFld b) 0 (.inl (List.mem_cons_self ..))).trans (hsig.mono (by simp +contextual))⟩

end

end Sys2Proof.Machine

namespace Sys2Proof.Machine

/-! ### Changes of mode by request (R53, R55, R57, R58) -/

section
variable {s : State}

theorem State.reqService_of_standby (hm : s.mode = 7) : s.reqService = (s.setMode s.serviceMode 2).modeDone stOK := by
  unfold State.reqService
  simp only [hm]

theorem State.reqService_of_provisioning (hm : s.mode = 3) :
    s.reqService = if s.mayServe then (s.setMode s.serviceMode 2).modeDone stOK else s.modeFail stMODE_FORBIDS := by
  unfold State.reqService
  simp only [hm]

/-- A request that fails for another reason than a refusal completes with its status. -/
theorem State.modeFail_of_ne (s : State) {code : Nat} (hcode : code ≠ stREFUSED) : s.modeFail code = s.modeDone code := by
  unfold State.modeFail
  rw [if_neg hcode]

/-- A change of mode that writes one register first, and ends a request. -/
theorem State.written_setMode_done {v : State} {k : Nat} (hwr : Signals [k] s v) (h : s.RegsWf)
    (hk : k ∉ [GLB.MODE, GLB.MODE_STAT]) {dest : Nat} (hd : dest < 16) (h4 : dest ≠ 4) (hp : s.on GLB.MODE_STAT_PENDING = false) :
    ((v.setMode dest 2).modeDone stOK).wentTo s.mode dest ∧ ((v.setMode dest 2).modeDone stOK).requestDone stOK
      ∧ Signals (k :: modeKeys) (s.entered dest) ((v.setMode dest 2).modeDone stOK) := by
  simp only [List.mem_cons, List.not_mem_nil, or_false, not_or] at hk
  have hmode : v.mode = s.mode := hwr.mode_eq h (by simpa [eq_comm] using hk.1)
  have hpend : v.on GLB.MODE_STAT_PENDING = s.on GLB.MODE_STAT_PENDING :=
    hwr.on_eq h (by simpa [eq_comm] using (show ¬ k = GLB.MODE_STAT_PENDING.addr from hk.2)) (by decide)
  obtain ⟨hwent, hdone, hsig⟩ := State.setMode_done dest 2 (hwr.regsWf h) (hpend.trans hp) hd
  rw [if_neg h4] at hsig
  exact ⟨hmode ▸ hwent, hdone, ((hwr.entered dest).mono (by simp)).trans (hsig.mono (by simp +contextual))⟩

end

/-- A request that is taken goes to its target from the state that shows it. -/
theorem State.takesRequest.exists_modeGo {s : State} {m t : Nat} (h : s.takesRequest m t) {target block : Nat} (release : Bool)
    (ht : target < 16) (hb : block < 32) : ∃ val, Host.Outcome.next (φ := Fault) (ρ := Refusal)
      ((s.advance t).modeReq m (target + 2 ^ 8 * block + 2 ^ 13 * b2n release) 0) = .next ((s.asked t val).modeGo target block release 0) :=
  ⟨_, h.next_modeReq release 0 ht hb⟩

/-- Settles O18: each request goes to its target once it is shown, and changes the mode where the transition allows. -/
theorem modeRequestsChangeTheMode : Obligations.ModeRequestsChangeTheMode := by
  intro m t b s hc h
  have hw := hc.regs
  have hp := h.asked_pending hw
  have haw := fun val => State.asked_regsWf t val hw
  have hmode := fun val => State.asked_mode t val hw
  have hservice := fun val => State.asked_serviceMode t val hw
  have hask : ∀ {ks : List Nat} {val : Nat} {u : State}, GLB.MODE_REQ ∈ ks → Signals ks (s.asked t val) u → Signals ks (s.advance t) u :=
    fun hmem hu => ((State.asked_signals t _).mono (by simpa using hmem)).trans hu
  have hgo := fun target block release ht hb => h.exists_modeGo (target := target) (block := block) release ht hb
  have hmaint : ∀ val, (s.asked t val).maint b = s.maint b := fun val => by
    rw [State.maint, State.asked_rd t val hw (by decide), State.maint]
  have hdsc : (s.advance t).entered 3 = { s.advance t with dsc := { s.dsc with first := true } } := by
    rw [← s.advance_dsc t]
    rfl
  refine ⟨fun hm => ?_, fun hm => ?_, fun hm hl => ?_, fun hm => ?_, fun hm hb => ?_, fun hm hb hne hs => ?_, fun hm hb hs hq => ?_,
    fun hm hs => ?_, fun hm hs => ?_⟩
  · obtain ⟨val, hexec⟩ : ∃ val, exec (.modeReqQuiesce m t) s = .next ((s.asked t val).modeGo 9 0 false 0) :=
      hgo 9 0 false (by omega) (by omega)
    obtain ⟨hwent, hdone, hsig⟩ := State.setMode_done 9 2 (haw val) (hp val) (by decide)
    rw [hmode] at hwent
    rw [State.entered_of_ne _ (by decide), if_neg (by decide)] at hsig
    rw [State.modeGo_quiesce (hp val), hmode, if_pos hm] at hexec
    exact ⟨_, hexec, hwent, hdone, hask (by decide) hsig⟩
  · obtain ⟨val, hexec⟩ : ∃ val, exec (.modeReqService m t) s = .next ((s.asked t val).modeGo 4 0 false 0) :=
      hgo 4 0 false (by omega) (by omega)
    obtain ⟨hwent, hdone, hsig⟩ := State.serves_done 2 (haw val) (hp val)
    rw [hservice] at hwent hdone hsig
    rw [hmode, hm] at hwent
    rw [State.modeGo_service (hp val), State.reqService_of_standby ((hmode val).trans hm), hservice] at hexec
    exact ⟨_, hexec, hwent, hdone, hask (by decide) hsig⟩
  · obtain ⟨val, hexec⟩ : ∃ val, exec (.modeReqTwinStandby m t) s = .next ((s.asked t val).modeGo 7 0 false 0) :=
      hgo 7 0 false (by omega) (by omega)
    have hlink : (s.asked t val).rd TWN.STAT_LINK = 3 := (State.asked_rd t val hw (by decide)).trans hl
    have hwr : Signals [TWN.MIRROR_STAT] (s.asked t val) _ := Signals.setN _ TWN.MIRROR_STAT 0 (.inl (by simp))
    obtain ⟨hwent, hdone, hsig⟩ := State.written_setMode_done hwr (haw val) (by decide) (dest := 7) (by decide) (by decide) (hp val)
    rw [hmode, hm] at hwent
    rw [State.entered_of_ne _ (by decide)] at hsig
    rw [State.modeGo_twinStandby (hp val), if_pos ⟨(hmode val).trans hm, hlink⟩] at hexec
    exact ⟨_, hexec, hwent, hdone, hask (by decide) hsig⟩
  · obtain ⟨val, hexec⟩ : ∃ val, exec (.modeReqProvisioning m t) s = .next ((s.asked t val).modeGo 3 0 false 0) :=
      hgo 3 0 false (by omega) (by omega)
    have hwr : Signals [TWN.STAT] (s.asked t val) _ := Signals.wr _ TWN.STAT_MIRROR_SYNC 0 (.inl (by decide))
    obtain ⟨hwent, hdone, hsig⟩ := State.written_setMode_done hwr (haw val) (by decide) (dest := 3) (by decide) (by decide) (hp val)
    rw [hmode, hm] at hwent
    rw [State.modeGo_provisioning (hp val), if_pos ((hmode val).trans hm)] at hexec
    have hstart := (State.asked_signals t val).entered (s := s.advance t) 3
    rw [hdsc] at hstart
    exact ⟨_, hexec, hwent, hdone, (hstart.mono (by decide)).trans hsig⟩
  · obtain ⟨val, hexec⟩ : ∃ val, exec (.modeReqMaintenance m b t) s = .next ((s.asked t val).modeGo 6 (b % 32) false 0) :=
      hgo 6 (b % 32) false (by omega) (by omega)
    obtain ⟨hwent, hdone, hin, hsig⟩ := State.reqMaintenance_enters (haw val) (hp val) hb ((hmode val).symm ▸ hm)
    rw [hmode] at hwent
    rw [State.modeGo_maintenance (hp val), Nat.mod_eq_of_lt (show b < 32 by omega)] at hexec
    exact ⟨_, hexec, hwent, hdone, hin, fun hne => hask (by decide) (hsig hne)⟩
  · obtain ⟨val, hexec⟩ : ∃ val, exec (.modeReqMaintenance m b t) s = .next ((s.asked t val).modeGo 6 (b % 32) false 0) :=
      hgo 6 (b % 32) false (by omega) (by omega)
    obtain ⟨hsame, hdone, hin, hsig⟩ := State.reqMaintenance_adds (haw val) hb hne ((hmode val).trans hm) ((hmaint val).trans hs)
    rw [State.modeGo_maintenance (hp val), Nat.mod_eq_of_lt (show b < 32 by omega)] at hexec
    exact ⟨_, hexec, hsame, hdone, hin, hask (by decide) hsig⟩
  · obtain ⟨val, hexec⟩ : ∃ val, exec (.modeReqRelease m b t) s = .next ((s.asked t val).modeGo 6 (b % 32) true 0) :=
      hgo 6 (b % 32) true (by omega) (by omega)
    obtain ⟨hwent, hdone, hout, hsig⟩ := State.reqRelease_leaves (haw val) (hp val) ((hmode val).trans hm) hb
      ((State.asked_nreg t val hw (by decide)).trans hs)
      (fun h13 q hlt => (State.asked_on t val hw (f := fencedFld q) (show RSP.STAT ≠ GLB.MODE_REQ by decide)).trans (hq h13 q hlt))
    rw [hservice] at hwent
    rw [State.modeGo_release (hp val), Nat.mod_eq_of_lt (show b < 32 by omega)] at hexec
    exact ⟨_, hexec, hwent, hdone, hout, hask (by decide) hsig⟩
  · obtain ⟨val, hexec⟩ : ∃ val, exec (.modeReqService m t) s = .next ((s.asked t val).modeGo 4 0 false 0) :=
      hgo 4 0 false (by omega) (by omega)
    obtain ⟨hwent, hdone, hsig⟩ := State.serves_done 2 (haw val) (hp val)
    rw [hservice] at hwent hdone hsig
    rw [hmode, hm] at hwent
    rw [State.modeGo_service (hp val), State.reqService_of_provisioning ((hmode val).trans hm), State.asked_mayServe t val hw,
      if_pos hs, hservice] at hexec
    exact ⟨_, hexec, hwent, hdone, hask (by decide) hsig⟩
  · obtain ⟨val, hexec⟩ : ∃ val, exec (.modeReqService m t) s = .next ((s.asked t val).modeGo 4 0 false 0) :=
      hgo 4 0 false (by omega) (by omega)
    have hsig := State.modeDone_signals (s.asked t val) stMODE_FORBIDS
    rw [State.modeGo_service (hp val), State.reqService_of_provisioning ((hmode val).trans hm), State.asked_mayServe t val hw,
      if_neg (by simp [hs]), State.modeFail_of_ne _ (by decide)] at hexec
    exact ⟨_, hexec, (State.modeDone_mode (haw val) _).trans ((hmode val).trans hm), State.modeDone_requestDone (haw val) (by decide),
      hask (by decide) (hsig.mono (by decide))⟩

end Sys2Proof.Machine

namespace Sys2Proof.Machine

/-! ### The canonical form (R20, R70)

`Keeps` carries the canonical form through every command that works on the state it finds. Power-on reset starts from a cleared
state, and the lock of the timing PLL starts the raw counter anew at 0. -/

/-- A state that lists nothing but host memory is canonical with its raw counter at 0. -/
theorem State.canon_of_cleared {s : State} (hregs : s.regs = []) (hshadow : s.shadow = []) (hlatch : s.latch = []) (hheld : s.held = [])
    (hmem : Memory.wf s.mem) (hts : s.tsc.ts = []) (hcmps : s.tsc.cmps = []) (hsqs : s.seq.sq = []) (hraw : s.raw = 0) : s.Canon where
  regs := by rw [hregs]; rfl
  shadow := by rw [hshadow]; exact List.Pairwise.nil
  latch := by rw [hlatch]; rfl
  held := by rw [hheld]; rfl
  mem := hmem
  ts := by rw [hts]; rfl
  cmps := by rw [hcmps]; rfl
  sqs := by rw [hsqs]; rfl
  raw := by rw [hraw]

theorem State.reset_canon : State.reset.Canon := State.canon_of_cleared rfl rfl rfl rfl rfl rfl rfl rfl rfl

/-- Time passes by whole edges. -/
theorem State.advance_canon {s : State} (h : s.Canon) (t : Nat) : (s.advance t).Canon := by
  have hraw := (s.advance_rawPasses t h.raw).edge h.raw
  rcases s.advance_eq t with he | he
  · rw [he]
    exact h
  · rw [he] at hraw ⊢
    exact { h with raw := hraw }

theorem State.tickEdge_canon {s : State} (h : s.Canon) : s.tickEdge.Canon := by
  have hraw := s.tickEdge_rawPasses.edge h.raw
  unfold State.tickEdge at hraw ⊢
  split
  next hrun =>
    rw [if_pos hrun] at hraw
    exact { h with raw := hraw }
  next => exact h

/-- Power-on reset keeps host memory and clears the rest of what the canonical form speaks of. -/
theorem State.powerReset_canon {s : State} (h : Memory.wf s.mem) : s.powerReset.Canon := by
  unfold State.powerReset
  refine (State.wr_keeps (st := false) (State.journalAfterLoss_keeps (State.drawSeeds_keeps
    (Keeps.foldl (Keeps.refl _ _) fun _ _ h => State.setReg_keeps h _ _))) _ _).canon ?cleared
  case cleared => exact State.canon_of_cleared rfl rfl rfl rfl h rfl rfl rfl rfl

theorem execTimingPllLock_canon {s u : State} (h : s.Canon) (hu : execTimingPllLock s = .next u) : u.Canon := by
  cases hu
  have hstart : State.Canon { s with rawRun := true, raw := 0 } := { h with raw := rfl }
  split
  · exact h
  · exact (State.wr_keeps (Keeps.refl false _) _ _).canon hstart

theorem exec_canon {c : Instr} {s u : State} (h : s.Canon) (hu : exec c s = .next u) : u.Canon := by
  by_cases hp : ∃ p, c = .powerOnReset p
  · obtain ⟨p, rfl⟩ := hp
    cases hu
    exact (s.powerOn_keeps p).canon (State.powerReset_canon h.mem)
  · by_cases hl : c = .timingPllLock
    · subst hl
      exact execTimingPllLock_canon h hu
    · obtain ⟨t, v, hv, hk⟩ := exec_keeps c s (fun p e => hp ⟨p, e⟩) hl
      cases hv.symm.trans hu
      exact hk.canon (State.advance_canon h t)

/-- Settles O3: an edge of the timing clock by `tickEdge_canon`, a command by `exec_canon`. -/
theorem canonicalFormKept : Obligations.CanonicalFormKept := by
  intro s u h hu
  cases hq : s.pending with
  | nil =>
    simp only [step, hq] at hu
    cases hu
    exact State.tickEdge_canon h
  | cons c rest =>
    simp only [step, hq] at hu
    exact exec_canon (s := { s with pending := rest }) { h with } hu

/-- Settles O4: the state after reset lists nothing, and `GLB.MODE` reads its reset value. -/
theorem resetCanonical : Obligations.ResetCanonical :=
  ⟨State.reset_canon, by decide, rfl, rfl, rfl⟩

end Sys2Proof.Machine

namespace Sys2Proof.Machine

/-! ### What the value of a timescale is formed with (R77, R78, R83) -/

/-- The registers the value of timescale `n` is formed with, those of timescale 0 apart. -/
def valueKeys (n : Nat) : List Nat := [TSC.CTRL n, TSC.RATE_LO n, TSC.RATE_LO n + 4, TSC.SLEW_BOUND n]

section
variable {s t : State} {n raw : Nat}

section
variable (h : ∀ k ∈ valueKeys n, t.reg k = s.reg k)
include h

theorem State.rho_congr : t.rho n = s.rho n := by
  unfold State.rho State.reg64 State.nreg
  rw [h (TSC.RATE_LO n) (by simp [valueKeys]), h (TSC.RATE_LO n + 4) (by simp [valueKeys])]

theorem State.follows_congr : t.follows n = s.follows n := by
  unfold State.follows State.on State.rd State.nreg
  rw [h (TSC.CTRL_FOLLOW n).addr (by simp [valueKeys, TSC.CTRL_FOLLOW])]

theorem State.boundOf_congr (hts : t.tsOf n = s.tsOf n) : t.boundOf n = s.boundOf n := by
  unfold State.boundOf State.rd State.nreg
  rw [hts, h (TSC.SLEW_BOUND_BOUND n).addr (by simp [valueKeys, TSC.SLEW_BOUND_BOUND])]

theorem State.absorbed_congr (hts : t.tsOf n = s.tsOf n) : t.absorbed n raw = s.absorbed n raw := by
  unfold State.absorbed
  rw [State.boundOf_congr h hts, hts]

theorem State.remAt_congr (hts : t.tsOf n = s.tsOf n) : t.remAt n raw = s.remAt n raw := by
  rw [State.remAt, State.absorbed_congr h hts, hts, State.remAt]

theorem State.tsExact_congr (hts : t.tsOf n = s.tsOf n) (hts0 : t.tsOf 0 = s.tsOf 0)
    (h0 : ∀ k ∈ valueKeys 0, t.reg k = s.reg k) : t.tsExact n raw = s.tsExact n raw := by
  unfold State.tsExact
  simp only [State.follows_congr h, State.rho_congr h, State.rho_congr h0, State.absorbed_congr h hts,
    State.absorbed_congr h0 hts0, hts]

end

/-- At its anchor a timescale has absorbed nothing yet. -/
theorem State.absorbed_anchor (h : (s.tsOf n).anc = raw) : s.absorbed n raw = 0 := by
  unfold State.absorbed
  simp only [h, Nat.sub_self, Nat.zero_div, Nat.zero_mul, Nat.cast_zero]
  split <;> omega

theorem State.remAt_anchor (h : (s.tsOf n).anc = raw) : s.remAt n raw = (s.tsOf n).rem := by
  rw [State.remAt, State.absorbed_anchor h, sub_zero]

/-- At its anchor a timescale reads its base, whatever its rate and its bound. -/
theorem State.tsExact_anchor (h : (s.tsOf n).anc = raw) : s.tsExact n raw = (s.tsOf n).base * 2 ^ 32 := by
  unfold State.tsExact
  simp only [State.absorbed_anchor h, h, sub_self, zero_mul, add_zero, ite_self]

theorem State.tsAt_anchor (h : (s.tsOf n).anc = raw) : s.tsAt n raw = ofSigned 96 ((s.tsOf n).base / 2 ^ 32) := by
  rw [State.tsAt, State.tsExact_anchor h, show (2 : Int) ^ 64 = 2 ^ 32 * 2 ^ 32 from rfl,
    Int.mul_ediv_mul_of_pos_left _ _ (by decide)]

/-! ### Re-anchoring (R79) -/

/-- Timescale `n` re-anchored at raw value `raw`. -/
def State.anchoredTs (s : State) (n raw : Nat) : Ts :=
  { s.tsOf n with anc := raw, base := s.tsExact n raw / 2 ^ 32, rem := s.remAt n raw }

/-- Re-anchored where it is anchored, a timescale stays as it is. -/
theorem State.anchoredTs_anchor (h : (s.tsOf n).anc = raw) : s.anchoredTs n raw = s.tsOf n := by
  unfold State.anchoredTs
  rw [State.tsExact_anchor h, State.remAt_anchor h, Int.mul_ediv_cancel _ (by decide), ← h]

/-- A timescale that was re-anchored at the present edge reads what it read. -/
theorem State.tsNow_anchored (hts : t.tsOf n = s.anchoredTs n t.raw) : t.tsNow n = s.tsAt n t.raw := by
  have hanc : (t.tsOf n).anc = t.raw := by rw [hts, State.anchoredTs]
  rw [State.tsNow, State.tsAt_anchor hanc, hts, State.anchoredTs, State.tsAt, show (2 : Int) ^ 64 = 2 ^ 32 * 2 ^ 32 from rfl,
    Int.ediv_ediv_of_nonneg (by decide)]

/-- Registers that re-anchoring does not write: neither the STATUS of a timescale nor what its counts write. -/
def anchorKeeps (k : Nat) : Prop := (∀ n < 64, k ≠ TSC.STATUS n) ∧ k ∉ alarmKeys

theorem anchorKeeps_of_mem_valueKeys (hn : n < 64) {k : Nat} (hk : k ∈ valueKeys n) : anchorKeeps k := by
  refine ⟨fun m _ => ?_, (by decide : ∀ n < 64, ∀ k ∈ valueKeys n, k ∉ alarmKeys) n hn k hk⟩
  simp only [valueKeys, TSC.CTRL, TSC.RATE_LO, TSC.SLEW_BOUND, TSC.STATUS, List.mem_cons, List.not_mem_nil, or_false] at hk ⊢
  omega

/-- `s` is `b` with the timescales `l` re-anchored at its edge, as far as values of timescales are formed. -/
structure Anchored (l : List Nat) (b s : State) : Prop where
  regsWf : s.RegsWf
  tsWf : Store.wf dTs s.tsc.ts = true
  reg : ∀ k, anchorKeeps k → s.reg k = b.reg k
  raw : s.raw = b.raw
  steps0 : s.tsc.steps0 = b.tsc.steps0
  tsOf : ∀ n, s.tsOf n = if n ∈ l then b.anchoredTs n b.raw else b.tsOf n

end

section
variable {l : List Nat} {b s t : State} {n : Nat}

theorem Anchored.refl (hr : b.RegsWf) (ht : Store.wf dTs b.tsc.ts = true) : Anchored [] b b :=
  ⟨hr, ht, fun _ _ => rfl, rfl, rfl, fun _ => by simp⟩

/-- Counting a re-anchoring forms no value anew. -/
theorem Anchored.signals (h : Anchored l b s) {ks : List Nat} (hks : ∀ k ∈ ks, ∃ n < 64, k = TSC.STATUS n)
    (hs : Signals ks s t) : Anchored l b t where
  regsWf := hs.regsWf h.regsWf
  tsWf := by rw [hs.tsc]; exact h.tsWf
  reg k hk := by
    refine (hs.reg h.regsWf k (fun hmem => ?_) hk.2).trans (h.reg k hk)
    obtain ⟨n, hn, rfl⟩ := hks k hmem
    exact hk.1 n hn rfl
  raw := hs.raw.trans h.raw
  steps0 := by rw [hs.tsc]; exact h.steps0
  tsOf n := by rw [State.tsOf, hs.tsc]; exact h.tsOf n

/-- A timescale re-anchored before timescale 0 takes the value it had at first. -/
theorem Anchored.rebase (h : Anchored l b s) (hn : n < 64) (hl : n ∉ l) (h0 : 0 ∉ l) : Anchored (n :: l) b (s.rebase n b.raw) := by
  have hts : s.tsOf n = b.tsOf n := by rw [h.tsOf, if_neg hl]
  have hts0 : s.tsOf 0 = b.tsOf 0 := by rw [h.tsOf, if_neg h0]
  have hkeys : ∀ m < 64, ∀ k ∈ valueKeys m, s.reg k = b.reg k := fun m hm k hk => h.reg k (anchorKeeps_of_mem_valueKeys hm hk)
  have hx : s.rebase n b.raw = s.setTs n (b.anchoredTs n b.raw) := by
    rw [State.rebase, State.anchoredTs, hts, State.tsExact_congr (hkeys n hn) hts hts0 (hkeys 0 (by decide)),
      State.remAt_congr (hkeys n hn) hts]
  rw [hx]
  refine ⟨h.regsWf, Store.put_wf h.tsWf, h.reg, h.raw, h.steps0, fun m => ?_⟩
  by_cases hm : m = n
  · rw [hm, State.tsOf_setTs _ _ _ h.tsWf, if_pos (List.mem_cons_self ..)]
  · rw [State.tsOf_setTs_ne _ _ _ _ h.tsWf hm, h.tsOf]
    simp only [List.mem_cons, hm, false_or]

theorem Anchored.reanchor (h : Anchored l b s) (hn : n < 64) (hl : n ∉ l) (h0 : 0 ∉ l) : Anchored (n :: l) b (s.reanchor n b.raw) :=
  (h.rebase hn hl h0).signals (ks := [TSC.STATUS n]) (fun _ hk => ⟨n, hn, List.mem_singleton.mp hk⟩)
    (Signals.wr _ (TSC.STATUS_RE_ANCHORS n) _ (.inl (List.mem_singleton.mpr rfl)))

theorem Anchored.count (h : Anchored l b s) (g e u n : Nat) : Anchored l b (s.count g e u n) :=
  h.signals (ks := []) (fun _ hk => absurd hk List.not_mem_nil) (State.count_signals s g e u n)

/-- Timescales re-anchored one by one, those listed last first and timescale 0 last of all. -/
theorem Anchored.foldl {f : State → Nat → State}
    (hf : ∀ l s n, Anchored l b s → n < 64 → n ∉ l → 0 ∉ l → Anchored (n :: l) b (f s n)) (hb : Anchored [] b b)
    (hlt : ∀ n ∈ l, n < 64) (hnd : l.Nodup) (h0 : 0 ∉ l.tail) : Anchored l b (l.reverse.foldl f b) := by
  rw [List.foldl_reverse]
  induction l with
  | nil => exact hb
  | cons n l ih =>
    obtain ⟨hl, hnd⟩ := List.nodup_cons.mp hnd
    exact hf l _ n (ih (fun m hm => hlt m (List.mem_cons_of_mem n hm)) hnd (fun hm => h0 (List.mem_of_mem_tail hm)))
      (hlt n (List.mem_cons_self ..)) hl h0

end

end Sys2Proof.Machine

namespace Sys2Proof.Machine

/-! ### What leaves the values of the timescales where they stand -/

/-- From `b` to `s` the raw counter and the table of the timescales stand, no step of timescale 0 is made, and the registers that
`p` names stand, those of alarms apart. -/
structure Stands (p : Nat → Prop) (b s : State) : Prop where
  regsWf : b.RegsWf → s.RegsWf
  reg : b.RegsWf → ∀ k, p k → k ∉ alarmKeys → s.reg k = b.reg k
  raw : s.raw = b.raw
  ts : s.tsc.ts = b.tsc.ts
  steps0 : s.tsc.steps0 = b.tsc.steps0

section
variable {p : Nat → Prop} {b s t : State}

theorem Stands.refl (p : Nat → Prop) (s : State) : Stands p s s := ⟨id, fun _ _ _ _ => rfl, rfl, rfl, rfl⟩

theorem Stands.trans (h : Stands p b s) (g : Stands p s t) : Stands p b t where
  regsWf w := g.regsWf (h.regsWf w)
  reg w k hk ha := (g.reg (h.regsWf w) k hk ha).trans (h.reg w k hk ha)
  raw := g.raw.trans h.raw
  ts := g.ts.trans h.ts
  steps0 := g.steps0.trans h.steps0

theorem Stands.of_signals {ks : List Nat} (h : Signals ks s t) (hks : ∀ k ∈ ks, ¬ p k) : Stands p s t where
  regsWf := h.regsWf
  reg w k hk ha := h.reg w k (fun hmem => hks k hmem hk) ha
  raw := h.raw
  ts := by rw [h.tsc]
  steps0 := by rw [h.tsc]

theorem Stands.tsOf (h : Stands p b s) (n : Nat) : s.tsOf n = b.tsOf n := by rw [State.tsOf, h.ts, State.tsOf]

section
variable (h : Stands p b s)
include h

/-- Parts of the state that `Stands` does not speak of may change. -/
theorem Stands.of_fields (hv : t.variant = s.variant) (hg : t.regs = s.regs) (hr : t.raw = s.raw) (ht : t.tsc.ts = s.tsc.ts)
    (h0 : t.tsc.steps0 = s.tsc.steps0) : Stands p b t where
  regsWf w := by rw [State.RegsWf, hv, hg]; exact h.regsWf w
  reg w k hk ha := by rw [State.reg, hv, hg]; exact h.reg w k hk ha
  raw := hr.trans h.raw
  ts := ht.trans h.ts
  steps0 := h0.trans h.steps0

theorem Stands.setReg {k : Nat} (hk : ¬ p k) (w : Word) : Stands p b (s.setReg k w) where
  regsWf hw := s.setReg_regsWf k w (h.regsWf hw)
  reg hw j hj ha := (s.reg_setReg_ne k j w (h.regsWf hw) fun e => hk (e ▸ hj)).trans (h.reg hw j hj ha)
  raw := h.raw
  ts := h.ts
  steps0 := h.steps0

theorem Stands.setN {k : Nat} (hk : ¬ p k) (v : Nat) : Stands p b (s.setN k v) := h.setReg hk _
theorem Stands.wr {f : Fld} (hf : ¬ p f.addr) (v : Nat) : Stands p b (s.wr f v) := h.setReg hf _
theorem Stands.wrB {f : Fld} (hf : ¬ p f.addr) (v : Bool) : Stands p b (s.wrB f v) := h.setReg hf _
theorem Stands.bump {k : Nat} (hk : ¬ p k) (n : Nat) : Stands p b (s.bump k n) := h.setReg hk _
theorem Stands.bumpF {f : Fld} (hf : ¬ p f.addr) (n : Nat) : Stands p b (s.bumpF f n) := h.setReg hf _
theorem Stands.setSat {k : Nat} (hk : ¬ p k) (i : Int) : Stands p b (s.setSat k i) := h.setReg hk _
theorem Stands.set64 {k : Nat} (hk : ¬ p k) (hk4 : ¬ p (k + 4)) (v : Nat) : Stands p b (s.set64 k v) := (h.setN hk v).setN hk4 _
theorem Stands.setShadow (k v : Nat) : Stands p b (s.setShadow k v) := h.of_fields rfl rfl rfl rfl rfl
theorem Stands.setBoth {k : Nat} (hk : ¬ p k) (v : Nat) : Stands p b (s.setBoth k v) := (h.setN hk v).of_fields rfl rfl rfl rfl rfl
theorem Stands.setDsc (f : DscS → DscS) : Stands p b (s.setDsc f) := h.of_fields rfl rfl rfl rfl rfl
theorem Stands.count (g e u n : Nat) : Stands p b (s.count g e u n) :=
  h.trans (.of_signals (s.count_signals (ks := []) g e u n) fun _ hk => absurd hk List.not_mem_nil)
theorem Stands.journal (typ src : Nat) (body : List Byte) : Stands p b (s.journal typ src body) :=
  h.trans (.of_signals (s.journal_signals (ks := []) typ src body) fun _ hk => absurd hk List.not_mem_nil)
theorem Stands.sticky {f : Fld} (hw : f.w = 1) (hl : f.lo < 32) (hf : ¬ p f.addr) : Stands p b (s.sticky f) :=
  h.trans (.of_signals (s.sticky_signals f hw hl (.inl List.mem_cons_self)) fun _ hk => List.mem_singleton.mp hk ▸ hf)
theorem Stands.setQuiet {f : Fld} (hw : f.w = 1) (hl : f.lo < 32) (hf : ¬ p f.addr) : Stands p b (s.setQuiet f) :=
  h.trans (.of_signals (s.setQuiet_signals f hw hl (.inl List.mem_cons_self)) fun _ hk => List.mem_singleton.mp hk ▸ hf)

end

theorem Stands.ite {c : Prop} [Decidable c] (hs : Stands p b s) (ht : Stands p b t) : Stands p b (if c then s else t) := by
  split <;> assumption

theorem Stands.foldl {α : Type} {f : State → α → State} {l : List α} (h : Stands p b s)
    (hf : ∀ u, ∀ a ∈ l, Stands p b u → Stands p b (f u a)) : Stands p b (l.foldl f s) := by
  induction l generalizing s with
  | nil => exact h
  | cons a l ih =>
    exact ih (hf s a List.mem_cons_self h) fun u x hx => hf u x (List.mem_cons_of_mem a hx)

end

/-! ### A switchover (R74, R75, R79) -/

/-- Every timescale re-anchored at this edge, timescale 0 last. -/
def State.anchorEvery (s : State) : State := (List.range 64).reverse.foldl (fun t n => (t.reanchor n t.raw).count 7 2 0) s

/-- The rate that timescale `n` had in `s` mapped to the other oscillator, live and shadow. -/
def State.mapRate (s : State) (delta : Int) : State → Nat → State := fun t n =>
  let live := ofSigned 64 (mapLo (s.rho n) delta)
  let sh := ofSigned 64 (mapLo (s.shRho n) delta)
  if n = 0 then (t.setBoth (TSC.RATE_LO 0) (live % 2 ^ 32)).setBoth (TSC.RATE_HI 0) (live / 2 ^ 32)
  else ((t.set64 (TSC.RATE_LO n) live).setShadow (TSC.RATE_LO n) sh).setShadow (TSC.RATE_HI n) (sh / 2 ^ 32)

/-- The registers of the oscillators after a switchover to `g`. -/
def State.showSwitch (s : State) (g : Bool) : State :=
  (((s.setActiveLo g).bumpF TSC.LO_STAT_SWITCHES).wr TSC.LO_STAT_PLL_HOLD 0).wrB TSC.LO_CTRL_SEL g

/-- What a switchover tells DSC, before it signals. -/
def State.tellDsc (s : State) (delta : Int) : State :=
  let s4 := (s.setTsc (fun x => { x with retryAt := none, afterLoss := false })).setN TSC.LO_XDIFF 0x80000000
  (s4.dscLoSwitch delta).set64 DSC.CTRL_VAL_LO (ofSigned 64 (s4.rho 0))

theorem State.switchover_eq (s : State) (delta0 : Int) : s.switchover delta0 =
    ((((((List.range 64).filter (fun n => n == 0 || !s.follows n)).foldl (s.mapRate (s.loDelta delta0)) s.accU.anchorEvery).showSwitch
      (!s.grottoActive)).tellDsc (s.loDelta delta0)).setQuiet TSC.STICKY_LO_SWITCH).journal 6 2
        (leBytes 1 2 ++ leBytes 1 (b2n (!s.grottoActive)) ++ leBytes 8 (ofSigned 64 (s.loDelta delta0))) := by
  unfold State.switchover State.anchorEvery State.mapRate State.showSwitch State.tellDsc
  rfl

section
variable {s : State}

theorem State.anchorEvery_anchored (hr : s.RegsWf) (ht : Store.wf dTs s.tsc.ts = true) : Anchored (List.range 64) s s.anchorEvery := by
  refine Anchored.foldl (fun l t n h hn hl h0 => ?_) (Anchored.refl hr ht) (fun n hn => List.mem_range.mp hn) List.nodup_range
    (by decide)
  rw [h.raw]
  exact (h.reanchor hn hl h0).count 7 2 0 1

theorem State.mapRate_stands {b t : State} (h : Stands (fun _ => False) b t) (s : State) (delta : Int) (n : Nat) :
    Stands (fun _ => False) b (s.mapRate delta t n) :=
  Stands.ite ((h.setBoth not_false _).setBoth not_false _) (((h.set64 not_false not_false _).setShadow _ _).setShadow _ _)

theorem State.showSwitch_stands (s : State) (g : Bool) : Stands (fun _ => False) s (s.showSwitch g) :=
  (((((Stands.refl _ s).wrB not_false g).wrB not_false g).bumpF not_false 1).wr not_false 0).wrB not_false g

/-- After a switchover the other oscillator is shown as active, and the hold of the PLL is over. -/
theorem State.showSwitch_on (h : s.RegsWf) (g : Bool) : (s.showSwitch g).grottoActive = g
    ∧ (s.showSwitch g).on TSC.LO_STAT_PLL_HOLD = false := by
  have h1 : (s.wrB TSC.LO_STAT_ACTIVE g).RegsWf := s.wr_regsWf _ _ h
  have h2 : (s.setActiveLo g).RegsWf := State.wr_regsWf _ _ _ h1
  have h3 : ((s.setActiveLo g).bumpF TSC.LO_STAT_SWITCHES).RegsWf := State.wr_regsWf _ _ _ h2
  have h4 := State.wr_regsWf _ TSC.LO_STAT_PLL_HOLD 0 h3
  refine ⟨?_, (State.on_wr_ne h4 _ (by decide)).trans (State.on_wr_zero h3 (by decide) rfl)⟩
  calc (s.showSwitch g).grottoActive
      = (((s.setActiveLo g).bumpF TSC.LO_STAT_SWITCHES).wr TSC.LO_STAT_PLL_HOLD 0).on TSC.LO_STAT_ACTIVE :=
        State.on_wr_ne h4 _ (by decide)
    _ = ((s.setActiveLo g).bumpF TSC.LO_STAT_SWITCHES).on TSC.LO_STAT_ACTIVE := State.on_wr_bit_ne h3 0 rfl (by decide) rfl (by decide)
    _ = (s.setActiveLo g).on TSC.LO_STAT_ACTIVE := State.on_wr_disj h2 _ (by decide) rfl (by decide)
    _ = (s.wrB TSC.LO_STAT_ACTIVE g).on TSC.LO_STAT_ACTIVE := State.on_wr_ne h1 _ (by decide)
    _ = g := State.on_wrB h (by decide) rfl g

/-- The register that shows the oscillators. -/
def isLoStat (k : Nat) : Prop := k = TSC.LO_STAT

theorem isLoStat_ne {k : Nat} (h : k ≠ TSC.LO_STAT := by decide) : ¬ isLoStat k := h

theorem State.dscLoSwitch_stands {b : State} (h : Stands isLoStat b s) (delta : Int) : Stands isLoStat b (s.dscLoSwitch delta) := by
  unfold State.dscLoSwitch
  have h3 := fun f g x y => (((((((h.setDsc f).setDsc g).set64 (k := DSC.FB_VAL_LO) isLoStat_ne isLoStat_ne x).set64
    (k := DSC.HO_MEAN_LO) isLoStat_ne isLoStat_ne y).wr (f := DSC.AGE_STAT_VALID) isLoStat_ne 0).wr
    (f := DSC.STATE_AGE_VALID) isLoStat_ne 0).wr (f := DSC.AGE_STAT_LEARNED) isLoStat_ne 0)
  exact Stands.ite ((h3 _ _ _ _).sticky rfl (by decide) isLoStat_ne) (h3 _ _ _ _)

/-- DSC maps its values and its registers, and leaves `TSC.LO_STAT`. -/
theorem State.tellDsc_stands (s : State) (delta : Int) : Stands isLoStat s (s.tellDsc delta) := by
  have h4 := fun f hf h0 => ((Stands.refl isLoStat s).of_fields (t := s.setTsc f) rfl rfl rfl hf h0).setN (k := TSC.LO_XDIFF)
    isLoStat_ne 0x80000000
  exact (State.dscLoSwitch_stands (h4 _ rfl rfl) delta).set64 isLoStat_ne isLoStat_ne _

/-- A switchover: the other oscillator is active, LO_SWITCH is set, the PLL holds no more, and no value changes. -/
theorem State.switchover_spec (hr : s.RegsWf) (ht : Store.wf dTs s.tsc.ts = true) (delta : Int) :
    (s.switchover delta).grottoActive = !s.grottoActive ∧ (s.switchover delta).on TSC.STICKY_LO_SWITCH = true
      ∧ (s.switchover delta).on TSC.LO_STAT_PLL_HOLD = false ∧ (s.switchover delta).raw = s.raw
      ∧ ∀ n, n < 64 → (s.switchover delta).tsNow n = s.tsNow n := by
  rw [State.switchover_eq]
  generalize s.loDelta delta = d
  have hanc : Anchored (List.range 64) s.accU s.accU.anchorEvery := State.anchorEvery_anchored hr ht
  have hmap : Stands (fun _ => False) s.accU.anchorEvery
      (((List.range 64).filter (fun n => n == 0 || !s.follows n)).foldl (s.mapRate d) s.accU.anchorEvery) :=
    Stands.foldl (Stands.refl _ _) fun _ n _ hu => State.mapRate_stands hu s d n
  generalize ((List.range 64).filter (fun n => n == 0 || !s.follows n)).foldl (s.mapRate d) s.accU.anchorEvery = v at hmap ⊢
  have hv := hmap.regsWf hanc.regsWf
  have hshow := v.showSwitch_stands (!s.grottoActive)
  obtain ⟨hact, hhold⟩ := State.showSwitch_on hv (!s.grottoActive)
  generalize v.showSwitch (!s.grottoActive) = w at hshow hact hhold ⊢
  have hw := hshow.regsWf hv
  have htell := w.tellDsc_stands d
  generalize w.tellDsc d = x at htell ⊢
  have hx := htell.regsWf hw
  have hquiet := (Stands.refl isLoStat x).setQuiet (f := TSC.STICKY_LO_SWITCH) rfl (by decide) isLoStat_ne
  have hset := x.setQuiet_on TSC.STICKY_LO_SWITCH hx rfl (by decide) (by decide)
  generalize x.setQuiet TSC.STICKY_LO_SWITCH = y at hquiet hset ⊢
  have hy := hquiet.regsWf hx
  have hj := y.journal_signals (ks := []) 6 2 (leBytes 1 2 ++ leBytes 1 (b2n (!s.grottoActive)) ++ leBytes 8 (ofSigned 64 d))
  generalize y.journal 6 2 (leBytes 1 2 ++ leBytes 1 (b2n (!s.grottoActive)) ++ leBytes 8 (ofSigned 64 d)) = u at hj ⊢
  have hend : Stands isLoStat w u := (htell.trans hquiet).trans (.of_signals hj fun _ hk => absurd hk List.not_mem_nil)
  have hstat := hend.reg hw TSC.LO_STAT rfl (by decide)
  have hraw : u.raw = s.raw := hend.raw.trans (hshow.raw.trans (hmap.raw.trans hanc.raw))
  refine ⟨(State.on_congr (f := TSC.LO_STAT_ACTIVE) hstat).trans hact, hj.on hy _ rfl (by decide) (by decide) List.not_mem_nil hset,
    (State.on_congr (f := TSC.LO_STAT_PLL_HOLD) hstat).trans hhold, hraw, fun n hn => ?_⟩
  have hts : u.tsOf n = s.accU.anchoredTs n u.raw := by
    rw [hend.tsOf, hshow.tsOf, hmap.tsOf, hanc.tsOf, if_pos (List.mem_range.mpr hn), hraw]
    rfl
  rw [State.tsNow_anchored hts, hraw]
  rfl

end

end Sys2Proof.Machine

namespace Sys2Proof.Machine

/-! ### The switchovers (R73 to R76) -/

section
variable {s t : State}

theorem State.tsNow_congr (hts : t.tsc.ts = s.tsc.ts) (hraw : t.raw = s.raw)
    (hreg : ∀ m < 64, ∀ k ∈ valueKeys m, t.reg k = s.reg k) {n : Nat} (hn : n < 64) : t.tsNow n = s.tsNow n := by
  have htab : ∀ m, t.tsOf m = s.tsOf m := fun m => by rw [State.tsOf, hts, State.tsOf]
  rw [State.tsNow, State.tsNow, hraw, State.tsAt, State.tsExact_congr (hreg n hn) (htab n) (htab 0) (hreg 0 (by decide)), State.tsAt]

/-- The registers that values are formed with lie below the others of TSC. -/
theorem lt_of_mem_valueKeys {n k : Nat} (hn : n < 64) (hk : k ∈ valueKeys n) : k < 0x20800 := by
  simp only [valueKeys, TSC.CTRL, TSC.RATE_LO, TSC.SLEW_BOUND, List.mem_cons, List.not_mem_nil, or_false] at hk
  omega

/-- Registers above those of the timescales form no value. -/
theorem State.tsNow_of_signals {ks : List Nat} (h : Signals ks s t) (hr : s.RegsWf) (hks : ∀ k ∈ ks, 0x20800 ≤ k) {n : Nat}
    (hn : n < 64) : t.tsNow n = s.tsNow n :=
  State.tsNow_congr (by rw [h.tsc]) h.raw (fun _ hm k hk => h.reg hr k
    (fun hmem => Nat.not_lt.mpr (hks k hmem) (lt_of_mem_valueKeys hm hk)) (anchorKeeps_of_mem_valueKeys hm hk).2) hn

/-- A switchover from a state that has signalled the event behind it. -/
theorem State.switchover_after {ks : List Nat} (h : Signals ks s t) (hr : s.RegsWf) (hks : ∀ k ∈ ks, 0x20800 ≤ k)
    (ht : Store.wf dTs s.tsc.ts = true) (hact : t.grottoActive = s.grottoActive) (delta : Int) :
    (t.switchover delta).grottoActive = !s.grottoActive ∧ (t.switchover delta).on TSC.STICKY_LO_SWITCH = true
      ∧ (t.switchover delta).on TSC.LO_STAT_PLL_HOLD = false ∧ (t.switchover delta).raw = s.raw
      ∧ ∀ n, n < 64 → (t.switchover delta).tsNow n = s.tsNow n := by
  obtain ⟨hother, hset, hhold, hraw, hval⟩ := State.switchover_spec (h.regsWf hr) (by rw [h.tsc]; exact ht) delta
  exact ⟨hact ▸ hother, hset, hhold, hraw.trans h.raw, fun n hn => (hval n hn).trans (State.tsNow_of_signals h hr hks hn)⟩

theorem State.altReady_congr (h : t.reg TSC.LO_STAT = s.reg TSC.LO_STAT) : t.altReady = s.altReady := by
  have hact : t.grottoActive = s.grottoActive := State.on_congr (f := TSC.LO_STAT_ACTIVE) h
  rw [State.altReady, hact, State.altReady]
  exact State.on_congr (by rw [loReady_addr]; exact h)

theorem State.askSwitch_of_ready (h : s.altReady = true) (delta : Int) (b : Bool) : s.askSwitch delta b = s.switchover delta := if_pos h

theorem loReady_not_ne (g : Bool) : loReady (!g) ≠ loReady g := by cases g <;> decide

/-- The loss of the active oscillator leaves the alternate as it is. -/
theorem State.showLoss_tellLoss_altReady (h : s.RegsWf) : s.showLoss.tellLoss.altReady = s.altReady := by
  have h1 := s.wr_regsWf (loReady s.grottoActive) 0 h
  have hshow : s.showLoss.grottoActive = s.grottoActive :=
    (State.on_wr_bit_ne h1 1 rfl (by decide) rfl (by decide)).trans (State.grottoActive_wr_loReady h _ 0)
  calc s.showLoss.tellLoss.altReady
      = s.showLoss.altReady := State.altReady_congr
        (s.showLoss.tellLoss_signals.reg (s.showLoss_signals.regsWf h) TSC.LO_STAT (by decide) (by decide))
    _ = s.showLoss.on (loReady !s.grottoActive) := by rw [State.altReady, hshow]
    _ = (s.wr (loReady s.grottoActive) 0).on (loReady !s.grottoActive) :=
        State.on_wr_bit_ne h1 1 rfl (by decide) (loReady_w _) (loReady_ne_pllHold _)
    _ = s.altReady := State.on_wr_bit_ne h 0 (loReady_w _) (loReady_lo_lt _) (loReady_w _) (loReady_not_ne _)

/-- A write of `TSC.LO_CTRL` before it asks for a switch. -/
def State.loCtrlSet (s : State) (val : Nat) : State :=
  let f := bitsOf val 4 3
  let bad := decide (6 ≤ f) || (f != s.rd TSC.LO_CTRL_XO_FREQ && !s.grottoActive)
  let s1 := if bad then s.refuseCfg .tsc else s.wr TSC.LO_CTRL_XO_FREQ f
  (s1.wrB TSC.LO_CTRL_AUTO (bitAt val 1)).wrB TSC.LO_CTRL_SEL (bitAt val 0)

theorem State.loCtrlSet_signals (s : State) (val : Nat) : Signals [TSC.STICKY, TSC.LO_CTRL] s (s.loCtrlSet val) := by
  have hauto : ∀ v : State, Signals [TSC.STICKY, TSC.LO_CTRL] v
      ((v.wrB TSC.LO_CTRL_AUTO (bitAt val 1)).wrB TSC.LO_CTRL_SEL (bitAt val 0)) := fun v =>
    (Signals.wr v TSC.LO_CTRL_AUTO _ (.inl (by decide))).trans (Signals.wr _ TSC.LO_CTRL_SEL _ (.inl (by decide)))
  unfold State.loCtrlSet
  dsimp only
  split
  · exact ((s.refuseCfg_signals .tsc).mono (by decide)).trans (hauto _)
  · exact (Signals.wr s TSC.LO_CTRL_XO_FREQ _ (.inl (by decide))).trans (hauto _)

/-- A write of SEL that names the other oscillator, where that one is ready. -/
theorem State.loCtrl_switches (hr : s.RegsWf) (halt : s.altReady = true) {val : Nat} (hsel : bitAt val 0 = !s.grottoActive)
    (delta : Int) : s.loCtrl val delta = (s.loCtrlSet val).switchover delta ∧ (s.loCtrlSet val).grottoActive = s.grottoActive := by
  have hstat := (s.loCtrlSet_signals val).reg hr TSC.LO_STAT (by decide) (by decide)
  have hact : (s.loCtrlSet val).grottoActive = s.grottoActive := State.on_congr (f := TSC.LO_STAT_ACTIVE) hstat
  refine ⟨?_, hact⟩
  have hne : ¬ bitAt val 0 = (s.loCtrlSet val).grottoActive := by rw [hsel, hact]; cases s.grottoActive <;> decide
  exact (if_neg hne).trans (State.askSwitch_of_ready ((State.altReady_congr hstat).trans halt) delta false)

end

/-- Settles O25: each event comes to a switchover from a state in which the same oscillator is active and no value has changed. -/
theorem switchoverKeepsTimescaleValues : Obligations.SwitchoverKeepsTimescaleValues := by
  intro m d t e s hc c hcase
  have ha := State.advance_regsWf hc.regs t
  have ht : Store.wf dTs (s.advance t).tsc.ts = true := by rw [s.advance_tsc]; exact hc.ts
  suffices h : ∃ ks v, exec c s = .next (v.switchover d) ∧ Signals ks (s.advance t) v ∧ (∀ k ∈ ks, 0x20800 ≤ k)
      ∧ v.grottoActive = (s.advance t).grottoActive by
    obtain ⟨ks, v, hexec, hsig, hks, hact⟩ := h
    rw [← s.advance_grottoActive t]
    exact ⟨_, hexec, State.switchover_after hsig ha hks ht hact d⟩
  rcases hcase with ⟨halt, rfl, hauto⟩ | ⟨halt, rfl, hacc⟩ | ⟨halt, rfl, he, hdue⟩ | ⟨rfl, hhold, hnone, hauto⟩
  case inl =>
    obtain ⟨-, -, -, -, hact, hau, hsig⟩ := State.loLoss_spec ha
    have hready := (State.showLoss_tellLoss_altReady ha).trans ((s.advance_altReady t).trans halt)
    exact ⟨_, _, congrArg Host.Outcome.next ((if_pos (hau.trans ((s.advance_on t _).trans hauto))).trans
      (State.askSwitch_of_ready hready d true)), hsig, by decide, hact⟩
  case inr.inl =>
    have hsel : bitAt (16 * s.rd TSC.LO_CTRL_XO_FREQ + b2n (!s.grottoActive)) 0 = !(s.advance t).grottoActive := by
      rw [s.advance_grottoActive]
      cases s.grottoActive <;> simp [bitAt, b2n] <;> omega
    obtain ⟨hgo, hact⟩ := State.loCtrl_switches ha ((s.advance_altReady t).trans halt) hsel d
    refine ⟨_, _, ?_, State.loCtrlSet_signals _ _, by decide, hact⟩
    show execLoCtrlWrite m _ d t s = _
    unfold execLoCtrlWrite
    simp only [hacc, hgo]
  case inr.inr.inl =>
    refine ⟨[], s.advance t, ?_, Signals.refl _ _, by simp, rfl⟩
    show execLoSwitchRetry d t s = _
    unfold execLoSwitchRetry
    simp only [s.advance_tsc, he, if_neg (Nat.not_lt.mpr hdue), s.advance_altReady, halt, if_true]
  case inr.inr.inr =>
    have hact : ((s.advance t).wr (loReady !s.grottoActive) 1).grottoActive = (s.advance t).grottoActive :=
      State.grottoActive_wr_loReady ha _ 1
    have hheld : ((s.advance t).wr (loReady !s.grottoActive) 1).on TSC.LO_STAT_PLL_HOLD = true :=
      (State.on_wr_bit_ne ha 1 (loReady_w _) (loReady_lo_lt _) rfl (loReady_ne_pllHold _).symm).trans ((s.advance_on t _).trans hhold)
    have hau : ((s.advance t).wr (loReady !s.grottoActive) 1).on TSC.LO_CTRL_AUTO = true :=
      (State.on_wr_ne ha 1 (by simp; decide)).trans ((s.advance_on t _).trans hauto)
    have hne : ¬ (!s.grottoActive) = ((s.advance t).wr (loReady !s.grottoActive) 1).grottoActive := by
      rw [hact, s.advance_grottoActive]
      cases s.grottoActive <;> decide
    have hretry : ((s.advance t).wr (loReady !s.grottoActive) 1).tsc.retryAt = none := by
      rw [State.wr_tsc, s.advance_tsc]
      exact hnone
    exact ⟨[TSC.LO_STAT], _, congrArg Host.Outcome.next ((if_pos hheld).trans ((if_neg hne).trans (if_pos ⟨hau, hretry⟩))),
      Signals.wr _ _ 1 (.inl (by simp)), by decide, hact⟩

end Sys2Proof.Machine

namespace Sys2Proof.Machine

/-! ### A step of timescale 0 and MUTE_FREE leave the blocks that keep time (R86, R161, R278, R308, R320, R324)

What follows a step writes registers of CKO, PTP, VID and EVT and moves compare units. -/

/-- The registers of the timescales, of the references and of discipline. -/
def timeReg (k : Nat) : Prop := 0x20000 ≤ k ∧ k < 0x50000

theorem not_timeReg {k : Nat} (h : 0x50000 ≤ k := by decide) : ¬ timeReg k := fun ht => Nat.not_lt.mpr h ht.2

theorem not_timeReg_add {k : Nat} (n : Nat) (h : 0x50000 ≤ k := by decide) : ¬ timeReg (k + n) := not_timeReg (Nat.le_add_right_of_le h)

section
variable {b s : State} (h : Stands timeReg b s)
include h

theorem State.setAligned_stands (n : Nat) (x : Bool) : Stands timeReg b (s.setAligned n x) :=
  (h.wrB (f := CKO.OUT_STAT_ALIGNED n) (not_timeReg_add _) x).wrB (not_timeReg (k := CKO.STAT)) x

theorem State.askAlign_stands (n : Nat) : Stands timeReg b (s.askAlign n) := h.of_fields rfl rfl rfl rfl rfl

theorem State.alignLost_stands : Stands timeReg b s.alignLost :=
  (h.foldl fun _ n _ hu => Stands.ite (State.askAlign_stands (State.setAligned_stands hu n false) n)
    (State.setAligned_stands hu n false)).sticky rfl (by decide) not_timeReg

theorem State.showVout_stands (o : Nat) : Stands timeReg b (s.showVout o) := by
  have h1 := h.wrB (f := ⟨VID.STAT, o, 1⟩) (not_timeReg (k := VID.STAT)) (s.vout o).running
  refine Stands.ite h1 ?_
  have hreg : ¬ timeReg (if o < 4 then VID.OUT_STAT o else VID.WC_STAT (o - 6)) := by
    split
    · exact not_timeReg_add _
    · exact not_timeReg_add _
  exact ((h1.wrB (f := ⟨_, 0, 1⟩) hreg _).wrB (f := ⟨_, 1, 1⟩) hreg _).wrB (f := ⟨_, 2, 1⟩) hreg _

theorem State.setVout_stands (o : Nat) (x : VOut) : Stands timeReg b (s.setVout o x) :=
  State.showVout_stands (s := { s with vid := { s.vid with outs := Store.put dVOut s.vid.outs o x } })
    (h.of_fields rfl rfl rfl rfl rfl) o

theorem State.stopVout_stands (o : Nat) : Stands timeReg b (s.stopVout o) := State.setVout_stands h o _

theorem State.showMuted_stands (x : Bool) : Stands timeReg b (s.showMuted x) :=
  ((h.wrB (f := VID.STAT_MUTED) not_timeReg x).foldl fun _ n _ hu => hu.wrB (f := VID.OUT_STAT_MUTED n) (not_timeReg_add _) _).foldl
    fun _ n _ hu => hu.wrB (f := ⟨VID.WC_STAT n, 3, 1⟩) (not_timeReg_add _) _

theorem State.settleMute_stands : Stands timeReg b s.settleMute := by
  have hstop := h.foldl (l := List.range 8) (f := fun t o => if (t.vout o).running then t.stopVout o else t) fun _ o _ hu =>
    Stands.ite (State.stopVout_stands hu o) hu
  have hmute := State.showMuted_stands hstop true
  refine Stands.ite (Stands.ite (hmute.sticky rfl (by decide) not_timeReg) hmute) (Stands.ite ?_ h)
  exact (State.showMuted_stands h false).foldl fun _ o _ hu => Stands.ite (State.stopVout_stands hu o) hu

theorem State.vidStepped_stands : Stands timeReg b s.vidStepped :=
  Stands.ite h (((h.foldl fun _ o _ hu => State.stopVout_stands hu o).bump (k := VID.RESTARTS) not_timeReg _).sticky rfl (by decide)
    not_timeReg)

theorem State.setPulse_stands (n : Nat) (x : Pulse) : Stands timeReg b (s.setPulse n x) :=
  ((h.of_fields (t := { s with evt := { s.evt with pulses := Store.put dPulse s.evt.pulses n x } }) rfl rfl rfl rfl rfl).wrB
    (f := ⟨EVT.PULSE_STAT, n, 1⟩) (not_timeReg (k := EVT.PULSE_STAT)) _).wrB (f := ⟨EVT.PULSE_STAT, 16 + n, 1⟩)
    (not_timeReg (k := EVT.PULSE_STAT)) _

theorem State.armPulse_stands (n : Nat) : Stands timeReg b (s.armPulse n) := by
  unfold State.armPulse
  split <;> exact h.of_fields rfl rfl rfl rfl rfl

theorem State.missPulses_stands (k : Nat) : Stands timeReg b (s.missPulses k) :=
  Stands.ite h ((h.bump (k := EVT.MISSED) not_timeReg k).sticky rfl (by decide) not_timeReg)

/-- One output after a step. -/
theorem State.pulsesStepped_stands (old : State) : Stands timeReg b (s.pulsesStepped old) := by
  unfold State.pulsesStepped
  refine h.foldl fun t n _ ht => ?_
  dsimp only
  have hskip : ∀ u : State, Stands timeReg b u → ∀ x : Pulse, ∀ k, Stands timeReg b (((u.setPulse n x).armPulse n).missPulses k) :=
    fun u hu x k => State.missPulses_stands (State.armPulse_stands (State.setPulse_stands hu n x) n) k
  cases (t.pulse n).act <;> cases (t.pulse n).next
  case none.none => exact ht
  case none.some => exact Stands.ite (hskip _ ht _ _) ht
  case some.none => exact State.setPulse_stands ht n _
  case some.some =>
    have hact := fun x => State.setPulse_stands ht n x
    exact Stands.ite (hskip _ (hact _) _ _) (hact _)

theorem State.calMissed_stands (p n : Nat) : Stands timeReg b (s.calMissed p n) :=
  Stands.ite h (((h.bump (k := PTP.CAL_MISSED) not_timeReg n).sticky rfl (by decide) not_timeReg).count 4 4 (p / 8) n)

theorem State.calStepped_stands (old : State) (n : Nat) : Stands timeReg b (s.calStepped old n) := by
  unfold State.calStepped
  refine h.foldl fun t src _ ht => ?_
  split
  · exact ht
  · exact Stands.ite ht (Stands.ite ht ((State.calMissed_stands ht _ _).of_fields rfl rfl rfl rfl rfl))

theorem State.stepEffects_stands (old : State) : Stands timeReg b (s.stepEffects old 0) := by
  have hgnc : Stands timeReg b { s with gnc := { s.gnc with stepped := true } } := h.of_fields rfl rfl rfl rfl rfl
  exact State.calStepped_stands (State.pulsesStepped_stands (State.vidStepped_stands
    ((State.alignLost_stands hgnc).bumpF (f := PTP.STAT_GM_TBI) not_timeReg 1)) old) old 0

theorem State.settled_stands (old : State) : Stands timeReg b (s.settled old) :=
  State.settleMute_stands (Stands.ite h (State.stepEffects_stands h old))

end

end Sys2Proof.Machine

namespace Sys2Proof.Machine

/-! ### A step of timescale 0 (R86) -/

section
variable {s t : State}

/-- Timescale 0 and the timescales that follow it. -/
def State.movers (s : State) : List Nat := (List.range 64).filter (fun k => k == 0 || s.follows k)

/-- The timescales that follow timescale 0. -/
def State.followers (s : State) : List Nat := ((List.range 63).map Nat.succ).filter (fun k => k == 0 || s.follows k)

theorem State.movers_eq (s : State) : s.movers = 0 :: s.followers := by
  rw [State.movers, List.range_succ_eq_map, List.filter_cons_of_pos rfl, State.followers]

theorem State.zero_not_mem_followers (s : State) : 0 ∉ s.followers := by
  simp [State.followers]

theorem State.movers_lt (s : State) : ∀ n ∈ s.movers, n < 64 := fun _ hn => List.mem_range.mp (List.mem_of_mem_filter hn)

theorem State.movers_nodup (s : State) : s.movers.Nodup := List.nodup_range.filter _

theorem State.zero_not_mem_tail_movers (s : State) : 0 ∉ s.movers.tail := by
  rw [s.movers_eq]
  exact s.zero_not_mem_followers

/-- A timescale placed at a value: its anchor, its base and what remains to slew. -/
def State.place (raw : Nat) (s : State) (v : Nat × Int × Int) : State :=
  s.setTs v.1 { s.tsOf v.1 with anc := raw, base := v.2.1 * 2 ^ 32, rem := v.2.2 }

/-- Placing timescales that follow timescale 0 leaves timescale 0 and all beside the table. -/
theorem State.foldl_place {raw : Nat} {l : List (Nat × Int × Int)} (h0 : ∀ v ∈ l, v.1 ≠ 0) (ht : Store.wf dTs s.tsc.ts = true) :
    Store.wf dTs (l.foldl (State.place raw) s).tsc.ts = true ∧ (l.foldl (State.place raw) s).tsOf 0 = s.tsOf 0
      ∧ l.foldl (State.place raw) s = { s with tsc := { s.tsc with ts := (l.foldl (State.place raw) s).tsc.ts } } := by
  induction l generalizing s with
  | nil => exact ⟨ht, rfl, rfl⟩
  | cons v l ih =>
    obtain ⟨hwf, hts, heq⟩ := ih (s := s.place raw v) (fun x hx => h0 x (List.mem_cons_of_mem v hx)) (Store.put_wf ht)
    refine ⟨hwf, hts.trans (State.tsOf_setTs_ne _ _ _ _ ht (h0 v List.mem_cons_self).symm), ?_⟩
    rw [List.foldl_cons, heq]
    rfl

/-- The timescales that a step of timescale 0 by `amount` moves, with their new values and what remains to slew. -/
def State.stepped (s : State) (amount : Int) (k : Nat) : Nat × Int × Int :=
  (k, s.tsExact k s.raw / 2 ^ 64 + amount, s.remAt k s.raw)

/-- The table after a step of timescale 0. -/
def State.stepTable (s : State) (amount : Int) : State := (s.movers.map (s.stepped amount)).foldl (State.place s.raw) s

/-- What a step of timescale 0 signals. -/
def State.tellStep (s : State) (amount : Int) : State :=
  (s.setQuiet TSC.STICKY_STEPPED).journal 6 2 (leBytes 1 0 ++ leBytes 1 0 ++ leBytes 12 (ofSigned 96 amount))

theorem State.stepBy_zero_eq (s : State) (amount : Int) : s.stepBy 0 amount =
    ((s.stepTable amount).setTsc (fun x => { x with steps0 := x.steps0 + 1 })).tellStep amount := by
  unfold State.stepBy State.tellStep State.stepTable State.movers State.stepped State.place
  rfl

theorem State.tellStep_signals (s : State) (amount : Int) : Signals [TSC.STICKY] s (s.tellStep amount) :=
  (s.setQuiet_signals TSC.STICKY_STEPPED rfl (by decide) (.inl (by decide))).trans (State.journal_signals _ _ _ _)

theorem State.tellStep_on (h : s.RegsWf) (amount : Int) : (s.tellStep amount).on TSC.STICKY_STEPPED = true :=
  (State.journal_signals (ks := []) _ _ _ _).on ((s.setQuiet_signals (ks := [TSC.STICKY]) TSC.STICKY_STEPPED rfl (by decide)
    (.inl (by decide))).regsWf h) _ rfl (by decide) (by decide) List.not_mem_nil (s.setQuiet_on _ h rfl (by decide) (by decide))

theorem State.stepTable_spec (ht : Store.wf dTs s.tsc.ts = true) (amount : Int) :
    Store.wf dTs (s.stepTable amount).tsc.ts = true
      ∧ (s.stepTable amount).tsOf 0 = { s.tsOf 0 with anc := s.raw, base := (s.tsExact 0 s.raw / 2 ^ 64 + amount) * 2 ^ 32,
                                                      rem := s.remAt 0 s.raw }
      ∧ s.stepTable amount = { s with tsc := { s.tsc with ts := (s.stepTable amount).tsc.ts } } := by
  unfold State.stepTable
  rw [s.movers_eq, List.map_cons, List.foldl_cons]
  have h0 : ∀ v ∈ s.followers.map (s.stepped amount), v.1 ≠ 0 := by
    intro v hv
    obtain ⟨k, hk, rfl⟩ := List.mem_map.mp hv
    exact fun e => s.zero_not_mem_followers (e ▸ hk)
  obtain ⟨hwf, hts, heq⟩ := State.foldl_place (s := s.place s.raw (s.stepped amount 0)) (raw := s.raw) h0 (Store.put_wf ht)
  refine ⟨hwf, hts.trans (State.tsOf_setTs _ _ _ ht), ?_⟩
  rw [heq]
  rfl

/-- A step of timescale 0: its value, the step counted, and STEPPED set. -/
theorem State.stepBy_spec (hr : s.RegsWf) (ht : Store.wf dTs s.tsc.ts = true) (amount : Int) :
    (s.stepBy 0 amount).RegsWf ∧ Store.wf dTs (s.stepBy 0 amount).tsc.ts = true ∧ (s.stepBy 0 amount).raw = s.raw
      ∧ ((s.stepBy 0 amount).tsOf 0).anc = s.raw
      ∧ ((s.stepBy 0 amount).tsOf 0).base = (s.tsExact 0 s.raw / 2 ^ 64 + amount) * 2 ^ 32
      ∧ (s.stepBy 0 amount).tsc.steps0 = s.tsc.steps0 + 1 ∧ (s.stepBy 0 amount).on TSC.STICKY_STEPPED = true := by
  obtain ⟨hwf, hts, heq⟩ := State.stepTable_spec ht amount
  rw [State.stepBy_zero_eq]
  generalize s.stepTable amount = v at hwf hts heq ⊢
  have hv : (v.setTsc (fun x => { x with steps0 := x.steps0 + 1 })).RegsWf := by
    rw [heq]
    exact hr
  have hraw : (v.setTsc (fun x => { x with steps0 := x.steps0 + 1 })).raw = s.raw := by rw [heq]; rfl
  have hsteps : (v.setTsc (fun x => { x with steps0 := x.steps0 + 1 })).tsc.steps0 = s.tsc.steps0 + 1 := by rw [heq]; rfl
  have hts' : (v.setTsc (fun x => { x with steps0 := x.steps0 + 1 })).tsOf 0 = v.tsOf 0 := rfl
  have hwf' : Store.wf dTs (v.setTsc (fun x => { x with steps0 := x.steps0 + 1 })).tsc.ts = true := hwf
  generalize v.setTsc (fun x => { x with steps0 := x.steps0 + 1 }) = w at hv hraw hsteps hts' hwf' ⊢
  have htell := w.tellStep_signals amount
  have htsc : (w.tellStep amount).tsOf 0 = v.tsOf 0 := by rw [State.tsOf, htell.tsc, ← hts', State.tsOf]
  exact ⟨htell.regsWf hv, by rw [htell.tsc]; exact hwf', htell.raw.trans hraw, by rw [htsc, hts], by rw [htsc, hts],
    by rw [htell.tsc, hsteps], State.tellStep_on hv amount⟩

/-! ### A target written by discipline (R79, R80) -/

theorem State.rebaseAll_anchored (hr : s.RegsWf) (ht : Store.wf dTs s.tsc.ts = true) : Anchored s.movers s (s.rebaseAll s.raw) :=
  Anchored.foldl (fun _ _ _ h hn hl h0 => h.rebase hn hl h0) (Anchored.refl hr ht) s.movers_lt s.movers_nodup s.zero_not_mem_tail_movers

theorem State.reanchorAll_anchored (hr : s.RegsWf) (ht : Store.wf dTs s.tsc.ts = true) :
    Anchored s.movers s ((s.reanchorAll 0 s.raw).count 7 2 0) :=
  Anchored.count (Anchored.foldl (fun _ _ _ h hn hl h0 => h.reanchor hn hl h0) (Anchored.refl hr ht) s.movers_lt s.movers_nodup
    s.zero_not_mem_tail_movers) 7 2 0 1

/-- A target written: timescales re-anchored where their rate changes or something is left to slew, then the new target. -/
theorem State.steer_target (hr : s.RegsWf) (ht : Store.wf dTs s.tsc.ts = true) (x : Int) : ∃ l v, Anchored l s v ∧
    s.steer none (some x) none = ((((v.setBoth (TSC.TARGET_LO 0) (ofSigned 64 x)).setBoth (TSC.TARGET_HI 0)
      (ofSigned 64 x / 2 ^ 32)).setTs 0 { v.tsOf 0 with rem := x * 2 ^ 32 }).showSlew 0) := by
  unfold State.steer
  dsimp only
  split
  next => exact ⟨_, _, State.reanchorAll_anchored hr ht, rfl⟩
  next =>
    split
    next => exact ⟨_, _, State.rebaseAll_anchored hr ht, rfl⟩
    next => exact ⟨_, _, Anchored.refl hr ht, rfl⟩

theorem State.showSlew_signals (s : State) (n : Nat) : Signals [TSC.STATUS n, TSC.REMAIN n] s (s.showSlew n) :=
  ((Signals.wr s (TSC.STATUS_SLEWING n) _ (.inl (by simp [TSC.STATUS_SLEWING]))).trans
    (Signals.wr _ (TSC.STATUS_FROZEN n) _ (.inl (by simp [TSC.STATUS_FROZEN])))).trans (Signals.setN _ _ _ (.inl (by simp)))

theorem anchorKeeps_sticky : anchorKeeps TSC.STICKY := by
  refine ⟨fun n hn => ?_, by decide⟩
  unfold TSC.STICKY TSC.STATUS
  omega

/-- A target of 0 for timescale 0 where it is anchored leaves it its value and nothing to slew. -/
theorem State.steer_zero_spec (hr : s.RegsWf) (ht : Store.wf dTs s.tsc.ts = true) (hanc : (s.tsOf 0).anc = s.raw) :
    (s.steer none (some 0) none).tsOf 0 = { s.tsOf 0 with rem := 0 } ∧ (s.steer none (some 0) none).raw = s.raw
      ∧ (s.steer none (some 0) none).tsc.steps0 = s.tsc.steps0 ∧ (s.steer none (some 0) none).RegsWf
      ∧ (s.steer none (some 0) none).reg TSC.STICKY = s.reg TSC.STICKY := by
  obtain ⟨l, v, hv, heq⟩ := State.steer_target hr ht 0
  rw [heq]
  have hts : v.tsOf 0 = s.tsOf 0 := by
    rw [hv.tsOf, State.anchoredTs_anchor hanc, ite_self]
  have h1 : ((v.setBoth (TSC.TARGET_LO 0) (ofSigned 64 0)).setBoth (TSC.TARGET_HI 0) (ofSigned 64 0 / 2 ^ 32)).RegsWf :=
    State.setN_regsWf _ _ _ (State.setN_regsWf v _ _ hv.regsWf)
  have hreg : ((v.setBoth (TSC.TARGET_LO 0) (ofSigned 64 0)).setBoth (TSC.TARGET_HI 0) (ofSigned 64 0 / 2 ^ 32)).reg TSC.STICKY
      = v.reg TSC.STICKY :=
    (State.reg_setN_ne _ _ _ _ (State.setN_regsWf v _ _ hv.regsWf) (by decide)).trans (State.reg_setN_ne v _ _ _ hv.regsWf (by decide))
  have hshow := State.showSlew_signals (((v.setBoth (TSC.TARGET_LO 0) (ofSigned 64 0)).setBoth (TSC.TARGET_HI 0)
      (ofSigned 64 0 / 2 ^ 32)).setTs 0 { v.tsOf 0 with rem := 0 * 2 ^ 32 }) 0
  refine ⟨?_, hshow.raw.trans hv.raw, ?_, hshow.regsWf h1, ?_⟩
  · rw [State.tsOf, hshow.tsc, ← hts]
    exact State.tsOf_setTs v 0 _ hv.tsWf
  · rw [hshow.tsc]
    exact hv.steps0
  · exact (hshow.reg h1 _ (by decide) (by decide)).trans (hreg.trans (hv.reg _ anchorKeeps_sticky))

end

end Sys2Proof.Machine

namespace Sys2Proof.Machine

/-! ### A write of `DSC.STEP_CMD` (R140) -/

theorem ofSigned_cast (w : Nat) (i : Int) : ((ofSigned w i : Nat) : Int) = i % 2 ^ w := by
  rw [ofSigned, Int.toNat_of_nonneg (Int.emod_nonneg _ (by positivity))]
  norm_cast

section
variable {s : State}

theorem State.advance_active (t : Nat) : (s.advance t).active = s.active := by
  rw [State.active, s.advance_on, s.advance_rd, State.active]

theorem State.advance_phiOf (t n : Nat) : (s.advance t).phiOf n = s.phiOf n := by
  rw [State.phiOf, State.slot, s.advance_ref, State.phiOf, State.slot]

theorem State.advance_phaseBearing (t n : Nat) : (s.advance t).phaseBearing n = s.phaseBearing n := by
  simp only [State.phaseBearing, State.bindType, State.bindIndex, s.advance_rd, s.advance_on]

/-- With its key, in Maintenance with DSC selected and a phase-bearing active slot, the command steps and has nothing left to slew. -/
theorem State.stepCmd_steps {n val : Nat} (hact : s.active = some n) (hkey : val % 256 = 0x5A) (hgo : bitAt val 8 = true)
    (hmode : s.mode = 6) (hm : s.maint 4 = true) (hpb : s.phaseBearing n = true) :
    s.stepCmd val = (s.stepBy 0 (s.phiOf n)).steer none (some 0) none := by
  unfold State.stepCmd
  rw [hact]
  exact if_pos ⟨hkey, hgo, hmode, hm, hpb⟩

theorem State.stepCmd_refused {val : Nat} (hkey : val % 256 ≠ 0x5A) : s.stepCmd val = s.refuseCfg .dsc := by
  unfold State.stepCmd
  cases s.active with
  | none => rfl
  | some n => exact if_neg fun h => hkey h.1

theorem exec_stepCmd {m val t : Nat} (h : (s.advance t).access m DSC.STEP_CMD .write = .granted) :
    exec (.stepCmd m val t) s = .next (((s.advance t).stepCmd val).settled (s.advance t)) :=
  congrArg Host.Outcome.next (State.busWrite_granted 4 _ h)

/-- Timescale 0 after a step by `amount` with nothing left to slew, and all that follows the step. -/
theorem State.step_settled (hr : s.RegsWf) (ht : Store.wf dTs s.tsc.ts = true) (amount : Int) (old : State) :
    let u := ((s.stepBy 0 amount).steer none (some 0) none).settled old
    (u.tsNow 0 : Int) = ((s.tsNow 0 : Int) + amount) % 2 ^ 96 ∧ u.remAt 0 u.raw = 0 ∧ u.tsc.steps0 = s.tsc.steps0 + 1
      ∧ u.on TSC.STICKY_STEPPED = true ∧ u.raw = s.raw := by
  intro u
  obtain ⟨hw, hwf, hraw, hanc, hbase, hsteps, hon⟩ := State.stepBy_spec hr ht amount
  obtain ⟨hts, hraw', hsteps', hw', hsticky⟩ := State.steer_zero_spec hw hwf (hanc.trans hraw.symm)
  have hu : Stands timeReg ((s.stepBy 0 amount).steer none (some 0) none) u := State.settled_stands (Stands.refl _ _) old
  have huts : u.tsOf 0 = { (s.stepBy 0 amount).tsOf 0 with rem := 0 } := (hu.tsOf 0).trans hts
  have huraw : u.raw = s.raw := hu.raw.trans (hraw'.trans hraw)
  have huanc : (u.tsOf 0).anc = u.raw := by rw [huts, huraw]; exact hanc
  refine ⟨?_, by rw [State.remAt_anchor huanc, huts], hu.steps0.trans (hsteps'.trans hsteps), ?_, huraw⟩
  · rw [State.tsNow, State.tsAt_anchor huanc, huts, hbase, Int.mul_ediv_cancel _ (by decide), ofSigned_cast, State.tsNow, State.tsAt,
      ofSigned_cast, Int.emod_add_emod]
  · exact (State.on_congr (f := TSC.STICKY_STEPPED) ((hu.reg hw' _ (by unfold timeReg; decide) (by decide)).trans hsticky)).trans hon

/-! ### What settles where no step was made -/

theorem State.settled_of_steps0 {old : State} (h : s.tsc.steps0 = old.tsc.steps0) : s.settled old = s.settleMute := by
  unfold State.settled
  rw [if_pos h]

/-- Where the outputs are muted as MUTE_FREE says, nothing is left to settle (R324). -/
theorem State.settleMute_of_muted (h : s.on VID.STAT_MUTED = (s.on VID.CTRL_MUTE_FREE && s.rd DSC.STATE_STATE == 0)) :
    s.settleMute = s := by
  unfold State.settleMute
  dsimp only
  rw [h]
  cases (s.on VID.CTRL_MUTE_FREE && s.rd DSC.STATE_STATE == 0) <;> rfl

/-- A refusal by DSC, while the outputs are muted as MUTE_FREE says, settles at once. -/
theorem State.refuseCfg_dsc_settled (hr : s.RegsWf)
    (h : s.on VID.STAT_MUTED = (s.on VID.CTRL_MUTE_FREE && s.rd DSC.STATE_STATE == 0)) :
    (s.refuseCfg .dsc).settled s = s.refuseCfg .dsc := by
  have hsig : Signals [DSC.STICKY] s (s.refuseCfg .dsc) := s.refuseCfg_signals .dsc
  rw [State.settled_of_steps0 (by rw [hsig.tsc]), State.settleMute_of_muted]
  rw [hsig.on_eq hr (by decide) (by decide), hsig.on_eq hr (by decide) (by decide), hsig.rd_eq hr (by decide) (by decide), h]

end

/-! ### The estimator (R149) -/

section
variable {s t : State}

theorem Signals.setDsc {ks : List Nat} (h : Signals ks s t) (f : DscS → DscS) : Signals ks (s.setDsc f) (t.setDsc f) :=
  { h with dsc := congrArg f h.dsc }

/-- The registers a change of discipline state writes. -/
def dstateKeys : List Nat := [DSC.STICKY, DSC.STATE, DSC.STATE_STAT, DSC.QUAL_NOW] ++ (List.range 16).map DSC.STATE_LOG

theorem State.publish_signals (s : State) : Signals dstateKeys s s.publish :=
  (Signals.wr s DSC.STATE_ADV _ (.inl (by decide))).trans (Signals.setN _ DSC.QUAL_NOW _ (.inl (by decide)))

/-- DSC's own part after a change of discipline state. -/
def DscS.changed (old new : Nat) (d : DscS) : DscS := { d with entered := if new = dACQ then old else d.entered, clean := false }

/-- A change of discipline state in its log. -/
def State.logDstate (s : State) (e : Nat) : State :=
  ((s.setN (DSC.STATE_LOG (s.rd DSC.STATE_STAT_LOG_NEXT)) e).bumpF DSC.STATE_STAT_LOG_NEXT).bumpF DSC.STATE_STAT_COUNT

theorem State.logDstate_signals (s : State) (e : Nat) : Signals dstateKeys s (s.logDstate e) := by
  have hlog : DSC.STATE_LOG (s.rd DSC.STATE_STAT_LOG_NEXT) ∈ dstateKeys :=
    List.mem_append_right _ (List.mem_map_of_mem (List.mem_range.mpr (bitsOf_lt _ _ _)))
  exact ((Signals.setN s _ e (.inl hlog)).trans (Signals.wr _ DSC.STATE_STAT_LOG_NEXT _ (.inl (by decide)))).trans
    (Signals.wr _ DSC.STATE_STAT_COUNT _ (.inl (by decide)))

theorem State.dchange_signals (s : State) (new cause : Nat) :
    Signals dstateKeys (s.setDsc (DscS.changed s.dstate new)) (s.dchange new cause) :=
  ((((s.logDstate_signals _).setDsc (DscS.changed s.dstate new)).trans (Signals.wr _ DSC.STATE_STATE new (.inl (by decide)))).trans
    (State.publish_signals _)).trans
    ((State.journal_signals _ 5 4 _).trans (State.sticky_signals _ DSC.STICKY_STATE_CHANGE rfl (by decide) (.inl (by decide))))

/-- The budget checked: the estimator runs on, and a budget that is spent stays so. -/
theorem State.checkBudget_signals (s : State) : ∃ f : DscS → DscS, Signals dstateKeys (s.setDsc f) s.checkBudget
    ∧ (∀ d, (f d).est = d.est) ∧ (∀ d, d.spent = true → (f d).spent = true) := by
  unfold State.checkBudget
  cases s.dsc.est with
  | none => exact ⟨id, Signals.refl _ _, fun _ => rfl, fun _ => id⟩
  | some x =>
    dsimp only
    split
    next =>
      have hsig : Signals dstateKeys (s.setDsc (fun d => { d with spent := true })) _ :=
        State.sticky_signals _ DSC.STICKY_HO_EXPIRED rfl (by decide) (.inl (by decide))
      generalize (s.setDsc (fun d => { d with spent := true })).sticky DSC.STICKY_HO_EXPIRED = v at hsig ⊢
      split
      next => exact ⟨fun d => DscS.changed v.dstate dEXPIRED { d with spent := true }, (hsig.setDsc _).trans (v.dchange_signals _ _),
        fun _ => rfl, fun _ _ => rfl⟩
      next =>
        split
        next => exact ⟨fun d => { d with spent := true }, hsig.trans v.publish_signals, fun _ => rfl, fun _ _ => rfl⟩
        next => exact ⟨fun d => { d with spent := true }, hsig, fun _ => rfl, fun _ _ => rfl⟩
    next => exact ⟨id, Signals.refl _ _, fun _ => rfl, fun _ => id⟩

theorem State.foldl_dsc {α : Type} {f : State → α → State} (hf : ∀ u a, (f u a).dsc = u.dsc) (l : List α) (s : State) :
    (l.foldl f s).dsc = s.dsc := by
  induction l generalizing s with
  | nil => rfl
  | cons a l ih => exact (ih (f s a)).trans (hf s a)

theorem State.stopVout_dsc (s : State) (o : Nat) : (s.stopVout o).dsc = s.dsc := by
  unfold State.stopVout State.setVout State.showVout
  dsimp only
  split <;> rfl

theorem State.showMuted_dsc (s : State) (x : Bool) : (s.showMuted x).dsc = s.dsc := by
  unfold State.showMuted
  rw [State.foldl_dsc (fun u n => State.wrB_dsc u _ _), State.foldl_dsc (fun u n => State.wrB_dsc u _ _), State.wrB_dsc]

/-- MUTE_FREE moves nothing of DSC. -/
theorem State.settleMute_dsc (s : State) : s.settleMute.dsc = s.dsc := by
  have hstop : ∀ (c : State → Nat → Bool) (v : State),
      ((List.range 8).foldl (fun t o => if c t o then t.stopVout o else t) v).dsc = v.dsc := fun c v =>
    State.foldl_dsc (fun u o => by split; exacts [u.stopVout_dsc o, rfl]) _ v
  unfold State.settleMute
  dsimp only
  split
  · split
    · exact (State.sticky_signals (ks := [VID.STICKY]) _ VID.STICKY_MUTED rfl (by decide) (.inl (by decide))).dsc.trans
        ((State.showMuted_dsc _ _).trans (hstop (fun t o => (t.vout o).running) s))
    · exact (State.showMuted_dsc _ _).trans (hstop (fun t o => (t.vout o).running) s)
  · split
    · exact (hstop (fun t o => t.on (voEn o)) _).trans (State.showMuted_dsc _ _)
    · rfl

/-- The estimate `y` noted, and its bound shown. -/
def State.estimated (s : State) (y : Est) : State :=
  (s.setDsc (fun d => { d with est := some y })).setN DSC.HO_ERR (min (s.errNum y / errUnit) (2 ^ 32 - 1))

theorem State.estimated_nreg (hr : s.RegsWf) (y : Est) : (s.estimated y).nreg DSC.HO_ERR = min (s.errNum y / errUnit) (2 ^ 32 - 1) := by
  have hval := State.nreg_setN (s.setDsc (fun d => { d with est := some y })) DSC.HO_ERR (min (s.errNum y / errUnit) (2 ^ 32 - 1)) hr
  rwa [Nat.mod_eq_of_lt (by omega)] at hval

/-- The estimator's second: the estimate runs on, its bound is shown, and a spent budget stays so. -/
theorem State.estimated_settled (hr : s.RegsWf) (y : Est) :
    let u := (s.estimated y).checkBudget.settled s
    u.dsc.est = some y ∧ u.nreg DSC.HO_ERR = min (s.errNum y / errUnit) (2 ^ 32 - 1) ∧ (s.dsc.spent = true → u.dsc.spent = true)
      ∧ u.raw = s.raw := by
  intro u
  obtain ⟨f, hsig, hest, hspent⟩ := (s.estimated y).checkBudget_signals
  have hw : ((s.estimated y).setDsc f).RegsWf := State.setN_regsWf (s.setDsc (fun d => { d with est := some y })) _ _ hr
  have hu : u = (s.estimated y).checkBudget.settleMute := State.settled_of_steps0 (by rw [hsig.tsc]; rfl)
  have hmute := State.settleMute_stands (Stands.refl timeReg (s.estimated y).checkBudget)
  have hdsc : u.dsc = f { s.dsc with est := some y } := by rw [hu, State.settleMute_dsc, hsig.dsc]; rfl
  have hreg : u.nreg DSC.HO_ERR = (s.estimated y).nreg DSC.HO_ERR := by
    rw [hu, State.nreg, hmute.reg (hsig.regsWf hw) _ (by unfold timeReg; decide) (by decide), hsig.reg hw _ (by decide) (by decide)]
    rfl
  exact ⟨by rw [hdsc, hest], hreg.trans (State.estimated_nreg hr y), fun h => by rw [hdsc]; exact hspent _ h,
    by rw [hu, hmute.raw, hsig.raw]; rfl⟩

end

end Sys2Proof.Machine

namespace Sys2Proof.Machine

/-! ### The readings of each second (R73, R155, R244) -/

theorem ofSigned_lt (w : Nat) (i : Int) : ofSigned w i < 2 ^ w := by
  have h := ofSigned_cast w i
  have hlt := Int.emod_lt_of_pos i (show (0 : Int) < 2 ^ w by positivity)
  exact_mod_cast h ▸ hlt

section
variable {s : State}

/-- The readings that are renewed each second, before the second is recorded. -/
def State.readings (s : State) (theta xdiff : Int) : State :=
  let s1 := s.setN GRT.AMBIENT_T (ofSigned 32 theta)
  let alt := s1.on (if s1.grottoActive then TSC.LO_STAT_XO_READY else TSC.LO_STAT_GR_READY)
  if alt then s1.markLocked.setSat TSC.LO_XDIFF xdiff else s1.markLocked

theorem exec_historyRecord (theta xdiff : Int) (mirrorOk : Bool) (t : Nat) (s : State) :
    exec (.historyRecord theta xdiff mirrorOk t) s = .next ((if ((s.advance t).readings theta xdiff).sqRuns sqHistory
      then ((s.advance t).readings theta xdiff).recordSecond mirrorOk else (s.advance t).readings theta xdiff).dscEvent 2) := rfl

theorem State.markLocked_regsOnly (s : State) : ∃ x, RegsOnly [TSC.LO_XDIFF, RSP.REFTIME] { s with rsp := x } s.markLocked := by
  refine ⟨s.markLocked.rsp, ?_⟩
  unfold State.markLocked
  dsimp only
  split
  · exact (RegsOnly.refl _ { s with rsp := _ }).setN RSP.REFTIME s.sec0 (by decide)
  · exact RegsOnly.refl _ s

/-- After the temperature, the readings write `TSC.LO_XDIFF` and `RSP.REFTIME` and note when the loop was last locked. -/
theorem State.readings_regsOnly (s : State) (theta xdiff : Int) : ∃ x, RegsOnly [TSC.LO_XDIFF, RSP.REFTIME]
    { s.setN GRT.AMBIENT_T (ofSigned 32 theta) with rsp := x } (s.readings theta xdiff) := by
  obtain ⟨x, hx⟩ := (s.setN GRT.AMBIENT_T (ofSigned 32 theta)).markLocked_regsOnly
  exact ⟨x, RegsOnly.ite (hx.setN TSC.LO_XDIFF _ (by decide)) hx⟩

/-- What the readings leave, and the temperature they show. -/
structure Readings (theta : Int) (s r : State) : Prop where
  regsWf : r.RegsWf
  ambient : r.nreg GRT.AMBIENT_T = ofSigned 32 theta
  reg : ∀ j, j ∉ [GRT.AMBIENT_T, TSC.LO_XDIFF, RSP.REFTIME] → r.reg j = s.reg j
  raw : r.raw = s.raw
  tsc : r.tsc = s.tsc
  dsc : r.dsc = s.dsc
  seq : r.seq = s.seq

theorem State.readings_spec (hr : s.RegsWf) (theta xdiff : Int) : Readings theta s (s.readings theta xdiff) := by
  obtain ⟨x, hx⟩ := s.readings_regsOnly theta xdiff
  have hw : State.RegsWf { s.setN GRT.AMBIENT_T (ofSigned 32 theta) with rsp := x } := s.setN_regsWf _ _ hr
  refine ⟨hx.regsWf hw, ?_, fun j hj => ?_, by rw [hx.eq]; rfl, by rw [hx.eq]; rfl, by rw [hx.eq]; rfl, by rw [hx.eq]; rfl⟩
  · rw [State.nreg, hx.reg hw _ (by decide)]
    exact (s.nreg_setN GRT.AMBIENT_T _ hr).trans (Nat.mod_eq_of_lt (ofSigned_lt 32 theta))
  · simp only [List.mem_cons, List.not_mem_nil, or_false, not_or] at hj
    obtain ⟨ha, hd, hf⟩ := hj
    exact (hx.reg hw j (by simp [hd, hf])).trans (s.reg_setN_ne _ _ _ hr ha)

section
variable {theta : Int} {r : State} (h : Readings theta s r)
include h

theorem Readings.rd {f : Fld} (hf : f.addr ∉ [GRT.AMBIENT_T, TSC.LO_XDIFF, RSP.REFTIME]) : r.rd f = s.rd f := by
  rw [State.rd, State.nreg, h.reg _ hf, State.rd, State.nreg]

theorem Readings.sec0 : r.sec0 = s.sec0 := by
  have hreg : ∀ m < 64, ∀ k ∈ valueKeys m, r.reg k = s.reg k := fun m hm k hk => h.reg k fun hmem => by
    have hlow := lt_of_mem_valueKeys hm hk
    simp only [GRT.AMBIENT_T, TSC.LO_XDIFF, RSP.REFTIME, List.mem_cons, List.not_mem_nil, or_false] at hmem
    omega
  rw [State.sec0, State.tsNow_congr (by rw [h.tsc]) h.raw hreg (by decide), State.sec0]

theorem Readings.sqRuns (n : Nat) : r.sqRuns n = s.sqRuns n := by
  rw [State.sqRuns, State.sq, h.seq, State.sqRuns, State.sq]

end

end

/-! ### The record of a second (R145) -/

/-- The registers that the record of a second writes. -/
def secondKeys : List Nat := [DSC.STICKY, DSC.HO_MEAN_LO, DSC.HO_MEAN_LO + 4, DSC.HO_TEMP_MEAN, DSC.HO_SAMPLES, DSC.HO_SDEV, DSC.AGE_STAT,
  DSC.STATE, DSC.AGEING, DSC.HO_TEMP_NOW]

theorem State.showWin_signals (s : State) (now : Nat) : Signals secondKeys s (s.showWin now) := by
  have hmean := (((Signals.setN s DSC.HO_MEAN_LO (ofSigned 64 (s.winStat now).mean) (.inl (by decide))).trans
    (Signals.setN _ (DSC.HO_MEAN_LO + 4) (ofSigned 64 (s.winStat now).mean / 2 ^ 32) (.inl (by decide)))).trans
    (Signals.setN _ DSC.HO_TEMP_MEAN (ofSigned 32 (s.winStat now).theta) (.inl (by decide)))).trans
    (Signals.setN (ks := secondKeys) _ DSC.HO_SAMPLES (s.winStat now).n (.inl (by decide)))
  unfold State.showWin
  dsimp only
  split
  · exact hmean
  · exact hmean.trans (Signals.setN _ DSC.HO_SDEV _ (.inl (by decide)))

theorem State.showAge_signals (s : State) : Signals secondKeys s s.showAge := by
  have hfit := fun a b c => ((Signals.wr s DSC.AGE_STAT_LEARNED a (.inl (by decide))).trans
    (Signals.wr _ DSC.AGE_STAT_VALID b (.inl (by decide)))).trans (Signals.wr (ks := secondKeys) _ DSC.STATE_AGE_VALID c (.inl (by decide)))
  unfold State.showAge
  dsimp only
  split
  · exact (hfit _ _ _).trans (Signals.setN _ DSC.AGEING _ (.inl (by decide)))
  · exact hfit _ _ _

/-- What is shown and told of a second once it is recorded; `lost` says that its hour found no mirror. -/
def State.tellSecond (s : State) (lost : Bool) : State :=
  let s3 := if lost then s.sticky DSC.STICKY_MIRROR_FAIL else s
  let s4 := (s3.showWin s3.sec0).showAge
  let s5 := s4.setN DSC.HO_TEMP_NOW (ofSigned 32 s4.theta)
  if s5.mode = 8 ∧ s5.sec0 % 60 ≠ 0 then s5
  else s5.journal 1 4 (leBytes 8 (ofSigned 64 (s5.rho 0)) ++ leBytes 4 (s5.nreg DSC.PD_PHASE)
    ++ leBytes 1 ((s5.active).getD 255) ++ leBytes 1 s5.dstate)

theorem State.tellSecond_signals (s : State) (lost : Bool) : Signals secondKeys s (s.tellSecond lost) := by
  have hlost : Signals secondKeys s (if lost then s.sticky DSC.STICKY_MIRROR_FAIL else s) := by
    split
    · exact s.sticky_signals _ rfl (by decide) (.inl (by decide))
    · exact Signals.refl _ _
  unfold State.tellSecond
  dsimp only
  generalize (if lost then s.sticky DSC.STICKY_MIRROR_FAIL else s) = v at hlost ⊢
  have hshow := fun x => hlost.trans (((v.showWin_signals v.sec0).trans (State.showAge_signals _)).trans
    (Signals.setN _ DSC.HO_TEMP_NOW x (.inl (by decide))))
  split
  · exact hshow _
  · exact (hshow _).trans (State.journal_signals _ _ _ _)

/-- LOCKED stands in bit 30 of a record's word, over its 30 bits of value. -/
theorem bitAt_lockedWord {w : Nat} (hw : w < 2 ^ 30) (locked sat : Bool) : bitAt (w + 2 ^ 30 * b2n locked + 2 ^ 31 * b2n sat) 30 = locked := by
  rw [bitAt, Nat.shiftRight_eq_div_pow]
  cases locked <;> cases sat <;> simp only [b2n, if_true, Bool.false_eq_true, if_false, beq_iff_eq, beq_eq_false_iff_ne] <;> omega

/-- The record `h` of the second just past stands in front of the history in `d`. -/
structure Recorded (s : State) (h : HRec) (d : DscS) : Prop where
  hist : d.hist = (h :: s.dsc.hist).take 604800
  nrec : d.nrec = s.dsc.nrec + 1
  secRaw : d.secRaw = s.raw
  sec : h.sec = s.sec0 - 1
  lo : h.lo = s.dsc.los.length
  theta : h.theta = s.theta
  live : h.live = true
  locked : h.locked = (s.dsc.clean && s.dstate == dLOCKED && s.pullKind == 0)

theorem State.recordSecond_eq (s : State) (mirrorOk : Bool) : ∃ d h lost, s.recordSecond mirrorOk = State.tellSecond { s with dsc := d } lost
    ∧ Recorded s h d :=
  ⟨_, _, _, rfl, rfl, rfl, rfl, rfl, rfl, rfl, rfl, bitAt_lockedWord (ofSigned_lt 30 _) _ _⟩

theorem State.dscEvent_signals (s : State) (bit : Nat) : Signals [] s (s.dscEvent bit) := by
  unfold State.dscEvent
  generalize List.range 4 = l
  induction l generalizing s with
  | nil => exact Signals.refl _ _
  | cons i l ih => exact (s.seqEvent_signals _ _).trans (ih _)

end Sys2Proof.Machine

namespace Sys2Proof.Machine

/-! ### The history, the estimator and the steps: O34 -/

section
variable {s : State}

theorem State.seqEvent_reg (s : State) (n bit j : Nat) : (s.seqEvent n bit).reg j = s.reg j := by
  unfold State.seqEvent
  dsimp only
  split <;> rfl

/-- An event for the discipline sequencers writes no register. -/
theorem State.dscEvent_reg (s : State) (bit j : Nat) : (s.dscEvent bit).reg j = s.reg j := by
  unfold State.dscEvent
  generalize List.range 4 = l
  induction l generalizing s with
  | nil => rfl
  | cons i l ih => exact (ih _).trans (s.seqEvent_reg _ _ _)

theorem State.advance_sqRuns (t n : Nat) : (s.advance t).sqRuns n = s.sqRuns n := by
  rw [State.sqRuns, State.sq, s.advance_seq, State.sqRuns, State.sq]

/-- The second just past is recorded where the history sequencer runs (R145). -/
theorem exec_historyRecord_runs (hr : s.RegsWf) (hrun : s.sqRuns sqHistory = true) (theta xdiff : Int) (mirrorOk : Bool) (t : Nat) :
    ∃ u, exec (.historyRecord theta xdiff mirrorOk t) s = .next u
      ∧ u.nreg GRT.AMBIENT_T = ofSigned 32 theta
      ∧ (∃ h, u.dsc.hist = (h :: s.dsc.hist).take 604800 ∧ h.sec = (s.advance t).sec0 - 1 ∧ h.lo = s.dsc.los.length
          ∧ h.theta = toSigned 32 (ofSigned 32 theta) ∧ h.live = true
          ∧ h.locked = (s.dsc.clean && s.dstate == dLOCKED && s.pullKind == 0))
      ∧ u.dsc.nrec = s.dsc.nrec + 1 ∧ u.dsc.secRaw = (s.advance t).raw ∧ u.tsc = s.tsc := by
  have hR := State.readings_spec (State.advance_regsWf hr t) theta xdiff
  rw [exec_historyRecord, if_pos ((hR.sqRuns _).trans ((s.advance_sqRuns t _).trans hrun))]
  generalize (s.advance t).readings theta xdiff = r at hR ⊢
  obtain ⟨d, h, lost, hrec, hd⟩ := r.recordSecond_eq mirrorOk
  have hsig : Signals secondKeys { r with dsc := d } ((r.recordSecond mirrorOk).dscEvent 2) := by
    rw [hrec]
    exact (State.tellSecond_signals _ lost).trans ((State.dscEvent_signals _ 2).mono (by simp))
  have hw : State.RegsWf { r with dsc := d } := hR.regsWf
  have hdsc : r.dsc = s.dsc := hR.dsc.trans (s.advance_dsc t)
  have hstate : r.dstate = s.dstate := (hR.rd (by decide)).trans (s.advance_rd t _)
  have hkind : r.pullKind = s.pullKind := (hR.rd (by decide)).trans (s.advance_rd t _)
  have htheta : r.theta = toSigned 32 (ofSigned 32 theta) := congrArg (toSigned 32) hR.ambient
  refine ⟨_, rfl, ?_, ⟨h, ?_⟩, ?_, ?_, ?_⟩
  · rw [State.nreg, hsig.reg hw _ (by decide) (by decide)]
    exact hR.ambient
  · rw [hsig.dsc, ← hdsc, ← hstate, ← hkind, ← htheta, ← hR.sec0]
    exact ⟨hd.hist, hd.sec, hd.lo, hd.theta, hd.live, hd.locked⟩
  · rw [hsig.dsc, ← hdsc]
    exact hd.nrec
  · rw [hsig.dsc, ← hR.raw]
    exact hd.secRaw
  · rw [hsig.tsc, ← s.advance_tsc t, ← hR.tsc]

/-- Without the history sequencer only the readings are renewed. -/
theorem exec_historyRecord_stopped (hr : s.RegsWf) (hstop : s.sqRuns sqHistory = false) (theta xdiff : Int) (mirrorOk : Bool) (t : Nat) :
    ∃ u, exec (.historyRecord theta xdiff mirrorOk t) s = .next u ∧ u.nreg GRT.AMBIENT_T = ofSigned 32 theta ∧ u.dsc = s.dsc
      ∧ ∀ j, j ∉ [GRT.AMBIENT_T, TSC.LO_XDIFF, RSP.REFTIME] → u.reg j = s.reg j := by
  have hR := State.readings_spec (State.advance_regsWf hr t) theta xdiff
  have hnot : ¬((s.advance t).readings theta xdiff).sqRuns sqHistory = true := by
    rw [hR.sqRuns, s.advance_sqRuns, hstop]
    decide
  rw [exec_historyRecord, if_neg hnot]
  generalize (s.advance t).readings theta xdiff = r at hR ⊢
  refine ⟨_, rfl, by rw [State.nreg, State.dscEvent_reg]; exact hR.ambient, ?_, fun j hj => ?_⟩
  · rw [(State.dscEvent_signals _ 2).dsc, hR.dsc, s.advance_dsc]
  · rw [State.dscEvent_reg, hR.reg j hj, s.advance_reg]

theorem exec_estimatorUpdate_none (h : s.dsc.est = none) (t : Nat) : exec (.estimatorUpdate t) s = .next (s.advance t) := by
  show execEstimatorUpdate t s = _
  unfold execEstimatorUpdate
  simp only [s.advance_dsc, h]

/-- The estimate `y` with the temperature integrated over the whole seconds since it was last (R149). -/
def State.integrated (s : State) (y : Est) : Est :=
  { y with integral := y.integral + (s.theta - y.theta).natAbs * ((s.tsNow 0 - y.last) / qSec),
           last := y.last + (s.tsNow 0 - y.last) / qSec * qSec }

theorem exec_estimatorUpdate_some {y : Est} (h : s.dsc.est = some y) (t : Nat) : exec (.estimatorUpdate t) s =
    .next ((((s.advance t).estimated ((s.advance t).integrated y)).checkBudget).settled (s.advance t)) := by
  show execEstimatorUpdate t s = _
  unfold execEstimatorUpdate
  simp only [s.advance_dsc, h]
  rfl

end

/-- Settles O34: the record of a second and the readings, the estimator's second, and the two writes of STEP_CMD are each a
lemma about the row. -/
theorem historyEstimatorAndSteps : Obligations.HistoryEstimatorAndSteps := by
  intro theta xdiff mirrorOk m n val t s a hc ha
  subst ha
  have hr := State.advance_regsWf hc.regs t
  have ht : Store.wf dTs (s.advance t).tsc.ts = true := by rw [s.advance_tsc]; exact hc.ts
  refine ⟨fun hrun => exec_historyRecord_runs hc.regs hrun theta xdiff mirrorOk t,
    fun hstop => exec_historyRecord_stopped hc.regs hstop theta xdiff mirrorOk t, fun h => exec_estimatorUpdate_none h t,
    fun y hy => ?_, fun hacc hkey hgo hmode hmaint hact hphase => ?_, fun hacc hkey hmuted => ?_⟩
  · obtain ⟨hest, herr, hspent, hraw⟩ := State.estimated_settled hr ((s.advance t).integrated y)
    refine ⟨_, exec_estimatorUpdate_some hy t, hest, fun z hz => ?_, fun h => hspent (by rw [s.advance_dsc]; exact h), hraw⟩
    rw [herr, Option.some.inj (hz.symm.trans hest)]
  · have hstep := State.stepCmd_steps ((s.advance_active t).trans hact) hkey hgo ((s.advance_rd t _).trans hmode)
      ((congrArg (bitAt · 4) (s.advance_rd t _)).trans hmaint) ((s.advance_phaseBearing t n).trans hphase)
    refine ⟨_, (exec_stepCmd hacc).trans (by rw [hstep]), ?_⟩
    rw [← s.advance_phiOf t, ← s.advance_tsc t]
    exact State.step_settled hr ht _ _
  · have hmuted' : (s.advance t).on VID.STAT_MUTED = ((s.advance t).on VID.CTRL_MUTE_FREE && (s.advance t).rd DSC.STATE_STATE == 0) := by
      rw [s.advance_on, s.advance_on, s.advance_rd]
      exact hmuted
    refine ⟨_, (exec_stepCmd hacc).trans (by rw [State.stepCmd_refused hkey, State.refuseCfg_dsc_settled hr hmuted']), ?_, ?_⟩
    · exact State.refuseCfg_on (a := DSC.STEP_CMD) rfl hr
    · exact State.refuseCfg_signals _ .dsc

end Sys2Proof.Machine

namespace Sys2Proof.Machine

/-! ### Slots of REF: their registers and their table -/

theorem not_mem_alarmKeys_of_ref {k : Nat} (h : 0x30000 ≤ k) (h' : k < 0x40000) : k ∉ alarmKeys := fun hk =>
  absurd ((by decide : ∀ j ∈ alarmKeys, j < 0x30000 ∨ 0x40000 ≤ j) k hk) (by omega)

theorem slotState_not_mem_alarmKeys {n : Nat} (hn : n < 16) : REF.SLOT_STATE n ∉ alarmKeys :=
  not_mem_alarmKeys_of_ref (by unfold REF.SLOT_STATE; omega) (by unfold REF.SLOT_STATE; omega)

theorem slotState_ne {n m : Nat} (h : n ≠ m) : REF.SLOT_STATE n ≠ REF.SLOT_STATE m := by
  unfold REF.SLOT_STATE
  omega

theorem State.rd_congr {s t : State} {f : Fld} (h : t.reg f.addr = s.reg f.addr) : t.rd f = s.rd f := by
  rw [State.rd, State.nreg, h, State.rd, State.nreg]

theorem State.slotState_congr {s t : State} {n : Nat} (h : t.reg (REF.SLOT_STATE n) = s.reg (REF.SLOT_STATE n)) :
    t.slotState n = s.slotState n := State.rd_congr h

theorem State.active_congr {s t : State} (h : t.reg REF.SEL_STAT = s.reg REF.SEL_STAT) : t.active = s.active := by
  have hon : t.on REF.SEL_STAT_ACTIVE_VALID = s.on REF.SEL_STAT_ACTIVE_VALID := State.on_congr h
  have hrd : t.rd REF.SEL_STAT_ACTIVE = s.rd REF.SEL_STAT_ACTIVE := State.rd_congr h
  rw [State.active, hon, hrd, State.active]

section
variable {s : State} {n m : Nat}

theorem State.slot_setSlot (h : Store.wf dRSlot s.ref.slots = true) (x : RSlot) : (s.setSlot n x).slot n = x := Store.get_put_same h

theorem State.slot_setSlot_ne (h : Store.wf dRSlot s.ref.slots = true) (x : RSlot) (hnm : n ≠ m) : (s.setSlot m x).slot n = s.slot n :=
  Store.get_put_ne h hnm

theorem State.slotState_setSlotState (h : s.RegsWf) {st : Nat} (hst : st < 8) : (s.setSlotState n st).slotState n = st :=
  (s.rd_wr (REF.SLOT_STATE_STATE n) st h (show 0 + 3 ≤ 32 by decide)).trans (Nat.mod_eq_of_lt hst)

theorem State.slotState_setSlotState_ne (h : s.RegsWf) (st : Nat) (hnm : n ≠ m) : (s.setSlotState m st).slotState n = s.slotState n :=
  s.rd_wr_ne (REF.SLOT_STATE_STATE m) (REF.SLOT_STATE_STATE n) st h (slotState_ne hnm)

end

/-! ### A slot goes to another state (R111) -/

/-- Slot `n` goes to state `st`, and holds `x` beyond its registers. -/
def State.moved (s : State) (n st : Nat) (x : RSlot) : State := (s.setSlotState n st).setSlot n x

section
variable {s : State} {n m st : Nat} {x : RSlot}

theorem State.moved_eq : s.moved n st x
    = { s with regs := (s.moved n st x).regs, ref := { s.ref with slots := (s.moved n st x).ref.slots } } := rfl

theorem State.moved_slots : (s.moved n st x).ref.slots = Store.put dRSlot s.ref.slots n x := rfl

theorem State.moved_reg (h : s.RegsWf) {j : Nat} (hj : j ≠ REF.SLOT_STATE n) : (s.moved n st x).reg j = s.reg j :=
  s.reg_wr_ne (REF.SLOT_STATE_STATE n) j st h hj

theorem State.moved_slotState (h : s.RegsWf) (hst : st < 8) : (s.moved n st x).slotState n = st := State.slotState_setSlotState h hst

theorem State.moved_slotState_ne (h : s.RegsWf) (hnm : n ≠ m) : (s.moved m st x).slotState n = s.slotState n :=
  State.slotState_setSlotState_ne h st hnm

theorem State.moved_slot (h : Store.wf dRSlot s.ref.slots = true) : (s.moved n st x).slot n = x := Store.get_put_same h

theorem State.moved_regsWf (h : s.RegsWf) : (s.moved n st x).RegsWf := s.wr_regsWf _ st h

theorem State.moved_slotsWf (h : Store.wf dRSlot s.ref.slots = true) : Store.wf dRSlot (s.moved n st x).ref.slots = true := Store.put_wf h

/-! ### HOLDOFF and FAIL_HOLD end (R109, R121) -/

theorem State.qualify_over (hq : s.slotState n = slQUALIFYING) (ho : s.holdoffOver n = true) :
    s.qualify n = s.moved n slQUALIFIED { s.slot n with steady := some (s.tsNow 0) } := if_pos ⟨hq, ho⟩

theorem State.qualify_not_over (h : s.slotState n ≠ slQUALIFYING ∨ s.holdoffOver n = false) : s.qualify n = s :=
  if_neg fun ⟨hq, ho⟩ => h.elim (· hq) (by simp [ho])

theorem State.leaveFailed_over (hf : s.slotState n = slFAILED) (ho : s.failOver n = true) :
    s.leaveFailed n = s.moved n slQUALIFYING { s.slot n with countAt := s.tsNow 0, outlierAt := none, agreed := false } :=
  if_pos ⟨hf, ho⟩

theorem State.leaveFailed_not_over (h : s.slotState n ≠ slFAILED ∨ s.failOver n = false) : s.leaveFailed n = s :=
  if_neg fun ⟨hf, ho⟩ => h.elim (· hf) (by simp [ho])

end

theorem exec_holdoffElapsed {n : Nat} (hn : n < 16) (t : Nat) (s : State) :
    exec (.holdoffElapsed n t) s = .next ((s.advance t).qualify n) := congrArg Host.Outcome.next (if_pos hn)

theorem exec_failHoldElapsed {n : Nat} (hn : n < 16) (t : Nat) (s : State) :
    exec (.failHoldElapsed n t) s = .next ((s.advance t).leaveFailed n) := congrArg Host.Outcome.next (if_pos hn)

theorem exec_disputeWindowEnd (t : Nat) (s : State) : exec (.disputeWindowEnd t) s = .next (s.advance t).judgeWindow := rfl

end Sys2Proof.Machine

namespace Sys2Proof.Machine

/-! ### Signals beside a change of the part of REF -/

/-- `t` is `s` but for the part of REF beyond its registers, the registers `ks` and what signalling changes. -/
abbrev RefSignals (ks : List Nat) (s t : State) : Prop := Signals ks { s with ref := t.ref } t

section
variable {ks : List Nat} {s t u : State}

theorem Signals.setRef (h : Signals ks s t) (r : RefS) : Signals ks { s with ref := r } { t with ref := r } :=
  { h with ref := rfl, reg := h.reg, on := h.on }

theorem RefSignals.of_signals (h : Signals ks s t) : RefSignals ks s t := by
  rw [RefSignals, h.ref]
  exact h

theorem RefSignals.setRef (s : State) (r : RefS) : RefSignals ks s { s with ref := r } := Signals.refl ks _

theorem RefSignals.trans (h : RefSignals ks s t) (g : RefSignals ks t u) : RefSignals ks s u := Signals.trans (Signals.setRef h u.ref) g

theorem RefSignals.mono {ks' : List Nat} (h : RefSignals ks s t) (hk : ∀ k ∈ ks, k ∈ ks') : RefSignals ks' s t := Signals.mono h hk

theorem RefSignals.regsWf (h : RefSignals ks s t) (w : s.RegsWf) : t.RegsWf := Signals.regsWf h w

theorem RefSignals.reg (h : RefSignals ks s t) (w : s.RegsWf) {k : Nat} (hk : k ∉ ks) (ha : k ∉ alarmKeys) : t.reg k = s.reg k :=
  Signals.reg h w k hk ha

theorem RefSignals.slotState (h : RefSignals ks s t) (w : s.RegsWf) {n : Nat} (hn : n < 16) (hk : REF.SLOT_STATE n ∉ ks) :
    t.slotState n = s.slotState n := State.slotState_congr (h.reg w hk (slotState_not_mem_alarmKeys hn))

theorem RefSignals.active (h : RefSignals ks s t) (w : s.RegsWf) (hk : REF.SEL_STAT ∉ ks) : t.active = s.active :=
  State.active_congr (h.reg w hk (by decide))

theorem RefSignals.tsNow (h : RefSignals ks s t) (w : s.RegsWf) (hks : ∀ k ∈ ks, 0x20800 ≤ k) : t.tsNow 0 = s.tsNow 0 :=
  State.tsNow_of_signals (n := 0) h w hks (by decide)

theorem State.moved_signals (s : State) (n st : Nat) (x : RSlot) : RefSignals [REF.SLOT_STATE n] s (s.moved n st x) :=
  Signals.wr { s with ref := (s.moved n st x).ref } (REF.SLOT_STATE_STATE n) st (.inl List.mem_cons_self)

end

/-! ### The registers of disputes -/

/-- The registers that the judgement of a dispute window writes. -/
def disputeKeys : List Nat :=
  [REF.STICKY, REF.DISPUTE_STAT] ++ (List.range 16).map REF.SLOT_STATE ++ (List.range 16).map REF.SLOT_STICKY

theorem slotState_mem_disputeKeys {n : Nat} (hn : n < 16) : REF.SLOT_STATE n ∈ disputeKeys :=
  List.mem_append_left _ (List.mem_append_right _ (List.mem_map_of_mem (List.mem_range.mpr hn)))

theorem slotSticky_mem_disputeKeys {n : Nat} (hn : n < 16) : REF.SLOT_STICKY n ∈ disputeKeys :=
  List.mem_append_right _ (List.mem_map_of_mem (List.mem_range.mpr hn))

section
variable {s : State}

theorem State.history_signals (n : Nat) {bit : Nat} (hb : bit < 16) : Signals [REF.STICKY, REF.SLOT_STICKY n] s (s.history n bit) := by
  have hset := (Signals.wr_one (ks := [REF.STICKY, REF.SLOT_STICKY n]) s ⟨REF.SLOT_STICKY n, bit, 1⟩ rfl
    (show bit < 32 by omega) (.inl (by simp))).trans
    (State.journal_signals _ 3 3 (leBytes 1 n ++ leBytes 1 bit ++ leBytes 12 ((s.wr ⟨REF.SLOT_STICKY n, bit, 1⟩ 1).tsNow 0)))
  unfold State.history
  dsimp only
  split
  · exact hset.trans (State.sticky_signals _ REF.STICKY_SLOT rfl (by decide) (.inl List.mem_cons_self))
  · exact hset

theorem State.history_bitsStay (n : Nat) {bit : Nat} (hb : bit < 16) : BitsStay s (s.history n bit) := by
  have hset := (s.wr_one_bitsStay (f := ⟨REF.SLOT_STICKY n, bit, 1⟩) rfl (show bit < 32 by omega)).trans
    (State.journal_signals _ 3 3 (leBytes 1 n ++ leBytes 1 bit ++ leBytes 12 ((s.wr ⟨REF.SLOT_STICKY n, bit, 1⟩ 1).tsNow 0))).bitsStay
  unfold State.history
  dsimp only
  split
  · exact hset.trans (State.sticky_bitsStay _ rfl (by decide))
  · exact hset

theorem State.outcome_signals (d : Disp) (out : Nat) (arb : Option Arb) : Signals [REF.DISPUTE_STAT] s (s.outcome d out arb) := by
  have hw : ∀ (u : State) (f : Fld) (v : Nat), f.addr = REF.DISPUTE_STAT → Signals [REF.DISPUTE_STAT] u (u.wr f v) :=
    fun u f v hf => Signals.wr u f v (.inl (List.mem_singleton.mpr hf))
  unfold State.outcome
  dsimp only
  split
  · have h := hw s REF.DISPUTE_STAT_OUTCOME out rfl
    have hshow := fun x y => (h.trans (hw _ REF.DISPUTE_STAT_ARBITER x rfl)).trans (hw _ REF.DISPUTE_STAT_ARB_SLOT y rfl)
    split
    · exact h
    · exact hshow 0 0
    · exact hshow 1 0
    · exact hshow 2 _
  · exact Signals.refl _ s

end

/-! ### A vote that names an outlier (R120) -/

/-- The member that a vote finds the outlier, and the other one. -/
def Disp.outlier (d : Disp) (oa : Bool) : Nat := if oa then d.a else d.b
def Disp.other (d : Disp) (oa : Bool) : Nat := if oa then d.b else d.a

/-- The state that a disputed slot is restored to (R111). -/
def State.restoredTo (s : State) (n : Nat) : Nat := if s.active = some n then slACTIVE else slQUALIFIED

/-- Slot `n` fails as the outlier of a vote. -/
def State.failOutlier (s : State) (n : Nat) : State :=
  let s1 := s.moved n slFAILED { s.slot n with failAt := s.tsNow 0, outlierAt := some (s.tsNow 0), agreed := false, steady := none }
  if s1.active = some n then s1.setCause 4 else s1

/-- Dispute `d` closes with outcome `o`. -/
def State.closeDispute (s : State) (d : Disp) (o : Nat) (arb : Arb) : State :=
  let s1 := s.outcome d o (some arb)
  s1.setDisp (s1.ref.disp.filter (fun e => e != d))

section
variable {s : State} {d : Disp} {n : Nat}

/-- What is so of the slot as it failed, and does not speak of why the active slot left, is so. -/
theorem State.failOutlier_ind {P : State → Prop} (hc : ∀ u c, P u → P (u.setCause c)) (hm : ∀ x, P (s.moved n slFAILED x)) :
    P (s.failOutlier n) := by
  unfold State.failOutlier
  dsimp only
  split
  · exact hc _ _ (hm _)
  · exact hm _

theorem State.failOutlier_signals : RefSignals [REF.SLOT_STATE n] s (s.failOutlier n) :=
  State.failOutlier_ind (fun _ _ h => h.trans (RefSignals.setRef _ _)) fun x => s.moved_signals n slFAILED x

theorem State.failOutlier_slotState (h : s.RegsWf) : (s.failOutlier n).slotState n = slFAILED :=
  State.failOutlier_ind (P := fun u => u.slotState n = slFAILED) (fun _ _ h => h) fun _ => State.moved_slotState h (by decide)

theorem State.failOutlier_slotsWf (h : Store.wf dRSlot s.ref.slots = true) : Store.wf dRSlot (s.failOutlier n).ref.slots = true :=
  State.failOutlier_ind (P := fun u => Store.wf dRSlot u.ref.slots = true) (fun _ _ h => h) fun _ => State.moved_slotsWf h

theorem State.failOutlier_winEnd : (s.failOutlier n).ref.winEnd = s.ref.winEnd :=
  State.failOutlier_ind (P := fun u => u.ref.winEnd = s.ref.winEnd) (fun _ _ h => h) fun _ => rfl

theorem State.restoreSlot_disputed (h : s.slotState n = slDISPUTED) :
    s.restoreSlot n = s.moved n (s.restoredTo n) { s.slot n with steady := some (s.tsNow 0) } := if_pos h

theorem State.restoredTo_lt (s : State) (n : Nat) : s.restoredTo n < 8 := by
  unfold State.restoredTo
  split <;> decide

theorem State.closeDispute_signals (o : Nat) (arb : Arb) : RefSignals [REF.DISPUTE_STAT] s (s.closeDispute d o arb) :=
  (RefSignals.of_signals (State.outcome_signals d o (some arb))).trans (RefSignals.setRef _ _)

theorem State.closeDispute_ref (o : Nat) (arb : Arb) :
    (s.closeDispute d o arb).ref = { s.ref with disp := s.ref.disp.filter (fun e => e != d) } := by
  simp only [State.closeDispute, State.setDisp, (State.outcome_signals d o (some arb)).ref]

/-- The vote, where one member of the dispute is an outlier and the other is not. -/
theorem State.vote_outlier {lo hi : Nat} {oa : Bool}
    (ha : meanAbove (s.arbDiff s.arbiter d.a lo hi) (s.rd REF.DISPUTE_CFG_THRESH) 2 = some oa)
    (hb : meanAbove (s.arbDiff s.arbiter d.b lo hi) (s.rd REF.DISPUTE_CFG_THRESH) 2 = some (!oa)) :
    s.vote d lo hi = (((s.failOutlier (d.outlier oa)).restoreSlot (d.other oa)).sticky
      REF.STICKY_RESOLVED).closeDispute d (if oa then 1 else 2) s.arbiter := by
  unfold State.vote
  simp only [ha, hb]
  cases oa <;> rfl

end

/-! ### What the judgement of a window leaves of a dispute that a vote has closed -/

/-- From `b`, before the vote, to `s`: the vote has failed `out`, restored `keep` and closed `d`, and that stands. -/
structure Judged (d : Disp) (out keep : Nat) (b s : State) : Prop where
  signals : RefSignals disputeKeys b s
  slotsWf : Store.wf dRSlot s.ref.slots = true
  winEnd : s.ref.winEnd = b.ref.winEnd
  closed : d ∉ s.ref.disp
  failed : s.slotState out = slFAILED
  restored : s.slotState keep = b.restoredTo keep
  steady : (s.slot keep).steady = some (b.tsNow 0)
  resolved : s.on REF.STICKY_RESOLVED = true

section
variable {b s : State} {d : Disp} {out keep : Nat}

/-- RESOLVED sets and the dispute closes, and no slot changes. -/
theorem State.resolved_spec {v : State} (hr : v.RegsWf) (d : Disp) (o : Nat) (arb : Arb) :
    let u := (v.sticky REF.STICKY_RESOLVED).closeDispute d o arb
    RefSignals [REF.STICKY, REF.DISPUTE_STAT] v u ∧ u.ref = { v.ref with disp := v.ref.disp.filter (fun e => e != d) }
      ∧ u.on REF.STICKY_RESOLVED = true := by
  have hset : Signals [REF.STICKY, REF.DISPUTE_STAT] v (v.sticky REF.STICKY_RESOLVED) :=
    State.sticky_signals v _ rfl (by decide) (.inl List.mem_cons_self)
  have hclose := State.closeDispute_signals (s := v.sticky REF.STICKY_RESOLVED) (d := d) o arb
  refine ⟨(RefSignals.of_signals hset).trans (hclose.mono (by simp)), ?_, ?_⟩
  · rw [State.closeDispute_ref, hset.ref]
  · exact Signals.on hclose (hset.regsWf hr) _ rfl (by decide) (by decide) (by decide)
      (v.sticky_on REF.STICKY_RESOLVED hr rfl (by decide) (by decide))

theorem State.voted (hr : b.RegsWf) (hs : Store.wf dRSlot b.ref.slots = true) (hne : out ≠ keep) (ho : out < 16) (hk : keep < 16)
    (hd : b.slotState keep = slDISPUTED) (o : Nat) (arb : Arb) :
    Judged d out keep b ((((b.failOutlier out).restoreSlot keep).sticky REF.STICKY_RESOLVED).closeDispute d o arb) := by
  have hfail : RefSignals [REF.SLOT_STATE out] b (b.failOutlier out) := State.failOutlier_signals
  have hr1 := hfail.regsWf hr
  have hs1 : Store.wf dRSlot (b.failOutlier out).ref.slots = true := State.failOutlier_slotsWf hs
  have hout : (b.failOutlier out).slotState out = slFAILED := State.failOutlier_slotState hr
  have hend : (b.failOutlier out).ref.winEnd = b.ref.winEnd := State.failOutlier_winEnd
  have hdisp : (b.failOutlier out).slotState keep = slDISPUTED :=
    (hfail.slotState hr hk (fun h => slotState_ne hne.symm (List.mem_singleton.mp h))).trans hd
  have hto : (b.failOutlier out).restoredTo keep = b.restoredTo keep := by
    rw [State.restoredTo, hfail.active hr (by simp only [List.mem_singleton, REF.SEL_STAT, REF.SLOT_STATE]; omega), State.restoredTo]
  have hnow : (b.failOutlier out).tsNow 0 = b.tsNow 0 :=
    hfail.tsNow hr (by simp only [List.mem_singleton, REF.SLOT_STATE]; omega)
  rw [State.restoreSlot_disputed hdisp, hto, hnow]
  generalize b.failOutlier out = f at *
  have hmove := f.moved_signals keep (b.restoredTo keep) { f.slot keep with steady := some (b.tsNow 0) }
  obtain ⟨hclose, href, hres⟩ := State.resolved_spec (hmove.regsWf hr1) d o arb
  have hkept : ∀ n < 16, REF.SLOT_STATE n ∉ [REF.STICKY, REF.DISPUTE_STAT] := by decide
  exact {
    signals := ((hfail.mono (by simpa using slotState_mem_disputeKeys ho)).trans
      (hmove.mono (by simpa using slotState_mem_disputeKeys hk))).trans (hclose.mono (by decide))
    slotsWf := by rw [href]; exact State.moved_slotsWf hs1
    winEnd := by rw [href]; exact hend
    closed := by rw [href]; simp
    failed := (hclose.slotState (State.moved_regsWf hr1) ho (hkept _ ho)).trans ((State.moved_slotState_ne hr1 hne).trans hout)
    restored := (hclose.slotState (State.moved_regsWf hr1) hk (hkept _ hk)).trans (State.moved_slotState hr1 (b.restoredTo_lt keep))
    steady := by rw [State.slot, href]; exact congrArg RSlot.steady (State.moved_slot hs1)
    resolved := hres }

end

end Sys2Proof.Machine

namespace Sys2Proof.Machine

/-! ### A dispute declared (R119) -/

/-- Slots `a` and `b` are DISPUTED. -/
def State.parted (s : State) (a b : Nat) : State :=
  let s1 := ((s.setSlotState a slDISPUTED).setSlotState b slDISPUTED)
  let s2 := (s1.setSlot a { s1.slot a with steady := none })
  s2.setSlot b { s2.slot b with steady := none }

/-- The history of both slots, the sticky bit and the record of a dispute. -/
def State.tellDispute (s : State) (a b : Nat) : State :=
  let s1 := ((s.history a hbDISPUTE).history b hbDISPUTE).sticky REF.STICKY_DISPUTE
  s1.setN REF.DISPUTE_STAT (a + 2 ^ 4 * b + 2 ^ 24 * ((s1.rd REF.DISPUTE_STAT_COUNT + 1) % 256))

/-- The registers that a dispute of slots `a` and `b` writes. -/
def pairKeys (a b : Nat) : List Nat :=
  [REF.STICKY, REF.DISPUTE_STAT, REF.SLOT_STATE a, REF.SLOT_STATE b, REF.SLOT_STICKY a, REF.SLOT_STICKY b]

theorem pairKeys_subset {a b : Nat} (ha : a < 16) (hb : b < 16) : ∀ k ∈ pairKeys a b, k ∈ disputeKeys := by
  simp only [pairKeys, List.forall_mem_cons, slotState_mem_disputeKeys ha, slotState_mem_disputeKeys hb,
    slotSticky_mem_disputeKeys ha, slotSticky_mem_disputeKeys hb]
  exact ⟨by decide, by decide, trivial, trivial, trivial, trivial, by simp⟩

theorem slotState_not_mem_pairKeys {a b n : Nat} (ha : n ≠ a) (hb : n ≠ b) : REF.SLOT_STATE n ∉ pairKeys a b := by
  simp only [pairKeys, List.mem_cons, List.not_mem_nil, or_false, REF.STICKY, REF.DISPUTE_STAT, REF.SLOT_STATE, REF.SLOT_STICKY]
  omega

section
variable {s : State} {a b : Nat}

theorem State.declare_eq (s : State) (a b hi : Nat) :
    s.declare a b hi = ((s.parted a b).tellDispute a b).setDisp
      (((s.parted a b).tellDispute a b).ref.disp ++ [⟨a, b, hi, false⟩]) := rfl

theorem State.parted_signals : RefSignals (pairKeys a b) s (s.parted a b) :=
  (Signals.wr { s with ref := (s.parted a b).ref } (REF.SLOT_STATE_STATE a) slDISPUTED
    (.inl (by simp [pairKeys, REF.SLOT_STATE_STATE]))).trans
    (Signals.wr _ (REF.SLOT_STATE_STATE b) slDISPUTED (.inl (by simp [pairKeys, REF.SLOT_STATE_STATE])))

theorem State.parted_slotsWf (h : Store.wf dRSlot s.ref.slots = true) : Store.wf dRSlot (s.parted a b).ref.slots = true :=
  Store.put_wf (Store.put_wf h)

theorem State.parted_slot_ne (h : Store.wf dRSlot s.ref.slots = true) {n : Nat} (ha : n ≠ a) (hb : n ≠ b) :
    (s.parted a b).slot n = s.slot n :=
  (Store.get_put_ne (Store.put_wf h) hb).trans (Store.get_put_ne h ha)

theorem State.tellDispute_signals : Signals (pairKeys a b) s (s.tellDispute a b) :=
  ((((s.history_signals a (by decide : hbDISPUTE < 16)).mono (ks' := pairKeys a b) (by simp [pairKeys])).trans
    ((State.history_signals b (by decide)).mono (by simp [pairKeys]))).trans
    (State.sticky_signals _ REF.STICKY_DISPUTE rfl (by decide) (.inl List.mem_cons_self))).trans
    (Signals.setN _ _ _ (.inl (by simp [pairKeys])))

/-- A dispute told leaves the bits of `REF.STICKY` that are set. -/
theorem State.tellDispute_on (h : s.RegsWf) {f : Fld} (hf : f.addr = REF.STICKY) (hw : f.w = 1) (hl : f.lo < 32) (hon : s.on f = true) :
    (s.tellDispute a b).on f = true := by
  have hna : f.addr ∉ alarmNums := by rw [hf]; decide
  obtain ⟨hr, hstay⟩ := ((s.history_bitsStay a (by decide : hbDISPUTE < 16)).trans
    ((State.history_bitsStay b (by decide : hbDISPUTE < 16)).trans
    (State.sticky_bitsStay _ (f := REF.STICKY_DISPUTE) rfl (by decide)))) h
  exact (Signals.setN (ks := [REF.DISPUTE_STAT]) _ _ _ (.inl List.mem_cons_self)).on hr f hw hl hna (by rw [hf]; decide)
    (hstay f hw hl hna hon)

theorem State.declare_signals (hi : Nat) : RefSignals (pairKeys a b) s (s.declare a b hi) :=
  (State.parted_signals.trans (RefSignals.of_signals State.tellDispute_signals)).trans (RefSignals.setRef _ _)

theorem State.declare_ref (hi : Nat) :
    (s.declare a b hi).ref = { (s.parted a b).ref with disp := s.ref.disp ++ [⟨a, b, hi, false⟩] } := by
  have hdisp : (s.parted a b).ref.disp = s.ref.disp := rfl
  rw [State.declare_eq, ← hdisp]
  simp only [State.setDisp, State.tellDispute_signals.ref]

theorem State.declare_on (h : s.RegsWf) (hi : Nat) {f : Fld} (hf : f.addr = REF.STICKY) (hw : f.w = 1) (hl : f.lo < 32)
    (hon : s.on f = true) :
    (s.declare a b hi).on f = true := by
  have hreg : (s.parted a b).reg f.addr = s.reg f.addr := by
    have hne : ∀ n, f.addr ≠ REF.SLOT_STATE n := fun n => by rw [hf, REF.STICKY, REF.SLOT_STATE]; omega
    exact (State.reg_wr_ne _ _ _ _ (s.wr_regsWf (REF.SLOT_STATE_STATE a) slDISPUTED h) (hne b)).trans (s.reg_wr_ne _ _ _ h (hne a))
  exact State.tellDispute_on (State.parted_signals.regsWf h) hf hw hl ((State.on_congr hreg).trans hon)

end

/-! ### The rest of a window's judgement leaves what a vote has closed -/

/-- An outlier that a whole window has found in agreement with the active slot (R121). -/
def State.agreeOutlier (thr lo hi : Nat) (t : State) (n : Nat) : State :=
  match (t.slot n).outlierAt, t.active with
  | some since, some a =>
    if t.slotState n = slFAILED ∧ since ≤ lo ∧ meanAbove (t.windowDiff n a lo hi) thr 1 = some false
    then t.setSlot n { t.slot n with agreed := true } else t
  | _, _ => t

/-- Slot `n` was QUALIFIED or ACTIVE from `lo` on. -/
def State.steadyFrom (t : State) (lo n : Nat) : Bool :=
  match (t.slot n).steady with | some since => decide (since ≤ lo) | none => false

/-- A pair of slots found apart over a window (R119). -/
def State.declareApart (thr lo hi : Nat) (t : State) (p : Nat × Nat) : State :=
  if t.candidate p.1 && t.candidate p.2 && t.steadyFrom lo p.1 && t.steadyFrom lo p.2 && t.equalRank p.1 p.2
      && meanAbove (t.windowDiff p.1 p.2 lo hi) thr 1 == some true
  then t.declare p.1 p.2 hi else t

/-- The pairs of slots. -/
def slotPairs : List (Nat × Nat) :=
  (List.range 16).flatMap (fun a => ((List.range 16).filter (fun b => decide (a < b))).map (fun b => (a, b)))

theorem lt_of_mem_slotPairs {p : Nat × Nat} (h : p ∈ slotPairs) : p.1 < 16 ∧ p.2 < 16 := by
  obtain ⟨a, ha, hp⟩ := List.mem_flatMap.mp h
  obtain ⟨b, hb, rfl⟩ := List.mem_map.mp hp
  exact ⟨List.mem_range.mp ha, List.mem_range.mp (List.mem_filter.mp hb).1⟩

section
variable {b s : State} {d : Disp} {out keep thr lo hi : Nat}

theorem Judged.agreeOutlier (h : Judged d out keep b s) (n : Nat) : Judged d out keep b (s.agreeOutlier thr lo hi n) := by
  have hset : Judged d out keep b (s.setSlot n { s.slot n with agreed := true }) :=
    { h with
      signals := h.signals.trans (RefSignals.setRef _ _)
      slotsWf := Store.put_wf h.slotsWf
      steady := by
        by_cases hn : keep = n
        · rw [← hn, State.slot_setSlot h.slotsWf]
          exact h.steady
        · rw [State.slot_setSlot_ne h.slotsWf _ hn]
          exact h.steady }
  unfold State.agreeOutlier
  split
  · split
    · exact hset
    · exact h
  · exact h

/-- The member that failed is no candidate, and the one restored now was not steady through the window. -/
theorem Judged.not_apart (h : Judged d out keep b s) (hlo : lo < b.tsNow 0) {n : Nat} (hc : s.candidate n = true)
    (ht : s.steadyFrom lo n = true) : n ≠ out ∧ n ≠ keep := by
  refine ⟨fun hn => ?_, fun hn => ?_⟩
  · rw [hn, State.candidate, h.failed] at hc
    simp [slFAILED, slQUALIFIED, slACTIVE] at hc
  · rw [hn, State.steadyFrom, h.steady] at ht
    exact absurd (of_decide_eq_true ht) (by omega)

theorem Judged.declare (hr : b.RegsWf) (h : Judged d out keep b s) (ho : out < 16) (hk : keep < 16) (hd : d.since < hi) {p : Nat × Nat}
    (hp : p.1 < 16 ∧ p.2 < 16) (hout : out ≠ p.1 ∧ out ≠ p.2) (hkeep : keep ≠ p.1 ∧ keep ≠ p.2) :
    Judged d out keep b (s.declare p.1 p.2 hi) := by
  have hrs := h.signals.regsWf hr
  have hsig : RefSignals (pairKeys p.1 p.2) s (s.declare p.1 p.2 hi) := State.declare_signals hi
  have href := State.declare_ref (s := s) (a := p.1) (b := p.2) hi
  exact {
    signals := h.signals.trans (hsig.mono (pairKeys_subset hp.1 hp.2))
    slotsWf := by rw [href]; exact State.parted_slotsWf h.slotsWf
    winEnd := by rw [href]; exact h.winEnd
    closed := by
      have hne : d ≠ ⟨p.1, p.2, hi, false⟩ := fun e => by rw [e] at hd; exact absurd hd (lt_irrefl hi)
      rw [href]
      simp [h.closed, hne]
    failed := (hsig.slotState hrs ho (slotState_not_mem_pairKeys hout.1 hout.2)).trans h.failed
    restored := (hsig.slotState hrs hk (slotState_not_mem_pairKeys hkeep.1 hkeep.2)).trans h.restored
    steady := by
      rw [State.slot, href]
      exact (congrArg RSlot.steady (State.parted_slot_ne h.slotsWf hkeep.1 hkeep.2)).trans h.steady
    resolved := State.declare_on hrs hi rfl rfl (by decide) h.resolved }

theorem Judged.declareApart (hr : b.RegsWf) (h : Judged d out keep b s) (ho : out < 16) (hk : keep < 16) (hd : d.since < hi)
    (hlo : lo < b.tsNow 0) {p : Nat × Nat} (hp : p.1 < 16 ∧ p.2 < 16) : Judged d out keep b (s.declareApart thr lo hi p) := by
  unfold State.declareApart
  split
  next hc =>
    simp only [Bool.and_eq_true] at hc
    obtain ⟨⟨⟨⟨⟨hc1, hc2⟩, ht1⟩, ht2⟩, -⟩, -⟩ := hc
    obtain ⟨hout1, hkeep1⟩ := h.not_apart hlo hc1 ht1
    obtain ⟨hout2, hkeep2⟩ := h.not_apart hlo hc2 ht2
    exact h.declare hr ho hk hd hp ⟨hout1.symm, hout2.symm⟩ ⟨hkeep1.symm, hkeep2.symm⟩
  next => exact h

end

/-! ### The judgement of a window (R119, R120) -/

/-- No window that ends up to `hi` is judged again. -/
def State.judgedTo (s : State) (hi : Nat) : State := { s with ref := { s.ref with winEnd := hi } }

theorem State.judgeWindow_idle {s : State} (h : s.windowLen = 0 ∨ s.windowEnd ≤ s.ref.winEnd) : s.judgeWindow = s := if_pos h

/-- The window from `lo` to `hi` has ended and is not judged yet, and dispute `d`, the only one, was open through it; of its
members, both disputed still, the one that `oa` says is an outlier and the other is not. -/
structure VoteDue (d : Disp) (oa : Bool) (lo hi : Nat) (s : State) : Prop where
  len : s.windowLen ≠ 0
  ended : s.windowEnd = hi
  begun : hi - s.windowLen = lo
  unjudged : s.ref.winEnd < hi
  only : s.ref.disp = [d]
  stays : d.closing = false
  since : d.since ≤ lo
  apart : d.a ≠ d.b
  ltA : d.a < 16
  ltB : d.b < 16
  disputedA : s.slotState d.a = slDISPUTED
  disputedB : s.slotState d.b = slDISPUTED
  meanA : meanAbove (s.arbDiff s.arbiter d.a lo hi) (s.rd REF.DISPUTE_CFG_THRESH) 2 = some oa
  meanB : meanAbove (s.arbDiff s.arbiter d.b lo hi) (s.rd REF.DISPUTE_CFG_THRESH) 2 = some (!oa)

section
variable {s : State} {d : Disp} {oa : Bool} {lo hi : Nat} (h : VoteDue d oa lo hi s)
include h

theorem VoteDue.outlier_lt : d.outlier oa < 16 := by
  cases oa
  · exact h.ltB
  · exact h.ltA

theorem VoteDue.other_lt : d.other oa < 16 := by
  cases oa
  · exact h.ltA
  · exact h.ltB

theorem VoteDue.outlier_ne_other : d.outlier oa ≠ d.other oa := by
  cases oa
  · exact h.apart.symm
  · exact h.apart

theorem VoteDue.other_disputed : s.slotState (d.other oa) = slDISPUTED := by
  cases oa
  · exact h.disputedA
  · exact h.disputedB

/-- The window began before the present time. -/
theorem VoteDue.begun_lt : lo < hi ∧ hi ≤ s.tsNow 0 := by
  have hle : hi ≤ s.tsNow 0 := h.ended ▸ Nat.div_mul_le_self _ _
  have hbegun := h.begun
  have hlen := h.len
  have hend := h.unjudged
  omega

/-- The judgement: the vote, then the outliers, then the pairs. -/
theorem VoteDue.judgeWindow_eq : s.judgeWindow = slotPairs.foldl (State.declareApart (s.rd REF.DISPUTE_CFG_THRESH) lo hi)
      ((List.range 16).foldl (State.agreeOutlier (s.rd REF.DISPUTE_CFG_THRESH) lo hi) ((s.judgedTo hi).vote d lo hi)) := by
  have hvote : [d].foldl (fun t d => if d.closing = false ∧ d.since ≤ lo then t.vote d lo hi else t) (s.judgedTo hi)
      = (s.judgedTo hi).vote d lo hi := if_pos ⟨h.stays, h.since⟩
  have hdue : ¬(s.windowLen = 0 ∨ hi ≤ s.ref.winEnd) := fun hnot => hnot.elim h.len (Nat.not_le.mpr h.unjudged)
  rw [← hvote, ← h.only]
  unfold State.judgeWindow
  rw [h.ended, ← h.begun]
  exact if_neg hdue

theorem VoteDue.judged (hr : s.RegsWf) (hs : Store.wf dRSlot s.ref.slots = true) :
    Judged d (d.outlier oa) (d.other oa) (s.judgedTo hi) s.judgeWindow := by
  have hvote : Judged d (d.outlier oa) (d.other oa) (s.judgedTo hi) ((s.judgedTo hi).vote d lo hi) := by
    rw [State.vote_outlier (s := s.judgedTo hi) h.meanA h.meanB]
    exact State.voted (b := s.judgedTo hi) hr hs h.outlier_ne_other h.outlier_lt h.other_lt h.other_disputed _ _
  obtain ⟨hlt, hnow⟩ := h.begun_lt
  rw [h.judgeWindow_eq]
  refine List.foldlRecOn _ _ (List.foldlRecOn _ _ hvote fun u hu n _ => hu.agreeOutlier n) fun u hu p hp => ?_
  exact Judged.declareApart (b := s.judgedTo hi) hr hu h.outlier_lt h.other_lt (h.since.trans_lt hlt) (hlt.trans_le hnow)
    (lt_of_mem_slotPairs hp)

/-- What the judgement leaves of the dispute, of its two members, and of the rest. -/
theorem VoteDue.judgeWindow_votes (hr : s.RegsWf) (hs : Store.wf dRSlot s.ref.slots = true) : s.judgeWindow.ref.winEnd = hi
      ∧ d ∉ s.judgeWindow.ref.disp ∧ s.judgeWindow.slotState (d.outlier oa) = slFAILED
      ∧ s.judgeWindow.slotState (d.other oa) = s.restoredTo (d.other oa)
      ∧ s.judgeWindow.on REF.STICKY_RESOLVED = true ∧ RefSignals disputeKeys s s.judgeWindow := by
  have hj := h.judged hr hs
  exact ⟨hj.winEnd, hj.closed, hj.failed, hj.restored, hj.resolved, hj.signals⟩

end

/-- Settles O29: each end of a hold is a lemma about the row, and the judgement of a window keeps what its vote has closed. -/
theorem slotsQualifyFailAndDispute : Obligations.SlotsQualifyFailAndDispute := by
  intro n t s a hc hn ha
  have hr : a.RegsWf := ha ▸ State.advance_regsWf hc.regs t
  have href : a.ref = s.ref := ha ▸ s.advance_ref t
  have hreg : ∀ j, a.reg j = s.reg j := fun j => ha ▸ s.advance_reg t j
  have hslot : s.slot n = a.slot n := by rw [State.slot, State.slot, href]
  rw [exec_holdoffElapsed hn, exec_failHoldElapsed hn, exec_disputeWindowEnd, ← ha, hslot, ← href]
  refine ⟨fun hq ho => ⟨_, rfl, ?_⟩, fun h => congrArg _ (State.qualify_not_over h), fun hf ho => ⟨_, rfl, ?_⟩,
    fun h => congrArg _ (State.leaveFailed_not_over h), fun h => congrArg _ (State.judgeWindow_idle h),
    fun d oa hs hlen hend hdisp hopen hsince hne hda hdb hsa hsb hma hmb => ⟨_, rfl, ?_⟩⟩
  · rw [State.qualify_over hq ho]
    exact ⟨State.moved_slotState hr (by decide), fun j hj => (State.moved_reg hr hj).trans (hreg j), State.moved_eq⟩
  · rw [State.leaveFailed_over hf ho]
    exact ⟨State.moved_slotState hr (by decide), fun j hj => (State.moved_reg hr hj).trans (hreg j), State.moved_slots, State.moved_eq⟩
  · have hthr : s.rd REF.DISPUTE_CFG_THRESH = a.rd REF.DISPUTE_CFG_THRESH := ha ▸ (s.advance_rd t _).symm
    have hact : a.active = s.active := ha ▸ State.advance_active t
    rw [hthr] at hma hmb
    rw [← hact]
    exact VoteDue.judgeWindow_votes ⟨hlen, rfl, rfl, hend, hdisp, hopen, hsince, hne, hda, hdb, hsa, hsb, hma, hmb⟩ hr hs

end Sys2Proof.Machine

namespace Sys2Proof.Machine

/-! ### The slot that is bound to a source (R102) -/

section
variable {s t : State} {i k bt ix : Nat}

theorem State.bindType_congr {n : Nat} (h : t.reg (REF.SLOT_CFG n) = s.reg (REF.SLOT_CFG n)) : t.bindType n = s.bindType n :=
  State.rd_congr h

theorem State.bindIndex_congr {n : Nat} (h : t.reg (REF.SLOT_CFG n) = s.reg (REF.SLOT_CFG n)) : t.bindIndex n = s.bindIndex n :=
  State.rd_congr h

theorem State.slotBound_congr (h : ∀ n, t.reg (REF.SLOT_CFG n) = s.reg (REF.SLOT_CFG n)) : t.slotBound bt ix = s.slotBound bt ix := by
  unfold State.slotBound firstIdx
  refine List.find?_congr fun n _ => ?_
  have hon : t.on (REF.SLOT_CFG_ENABLE n) = s.on (REF.SLOT_CFG_ENABLE n) := State.on_congr (h n)
  rw [hon, State.bindType_congr (h n), State.bindIndex_congr (h n)]

theorem State.slotBound_some (h : s.slotBound bt ix = some k) : k < 16 ∧ s.bindType k = bt := by
  rw [State.slotBound, firstIdx] at h
  have hk := List.find?_some h
  simp only [Bool.and_eq_true, beq_iff_eq] at hk
  exact ⟨List.mem_range.mp (List.mem_of_find?_eq_some h), hk.1.2⟩

theorem RegsOnly.rd {ks : List Nat} (h : RegsOnly ks s t) (w : s.RegsWf) {f : Fld} (hf : f.addr ∉ ks) : t.rd f = s.rd f :=
  State.rd_congr (h.reg w _ hf)

theorem RegsOnly.on {ks : List Nat} (h : RegsOnly ks s t) (w : s.RegsWf) {f : Fld} (hf : f.addr ∉ ks) : t.on f = s.on f :=
  State.on_congr (h.reg w _ hf)

/-- The registers of the inputs bind no slot. -/
theorem RegsOnly.slotBound (h : RegsOnly [REF.IN_STAT i] s t) (w : s.RegsWf) : t.slotBound bt ix = s.slotBound bt ix :=
  State.slotBound_congr fun n => h.reg w _ (by simp only [List.mem_singleton, REF.SLOT_CFG, REF.IN_STAT]; omega)

end

/-! ### An edge on a PPS input (R98 to R100) -/

/-- The edge comes 0.999 s to 1.001 s after the one before. -/
def State.ppsNear (s : State) (i : Nat) : Bool :=
  (s.rin i).lastRaw.isSome && decide ((s.rin i).lastT0 + qSec * 999 / 1000 ≤ s.tsNow 0)
    && decide (s.tsNow 0 ≤ (s.rin i).lastT0 + qSec * 1001 / 1000)

/-- Input `i` holds the stamp of an edge now. -/
def State.stamped (s : State) (i : Nat) : State := s.setRin i { s.rin i with lastRaw := some s.raw, lastT0 := s.tsNow 0, stampRaw := s.raw }

/-- The edge is stamped and counted, and shows the input present where it is near. -/
def State.stampPps (s : State) (i : Nat) : State :=
  let s1 := (s.stamped i).bumpF (REF.IN_STAT_EDGES i)
  if s.ppsNear i then s1.wr (REF.IN_STAT_PRESENT i) 1 else s1

section
variable {s : State} {i : Nat}

@[simp] theorem State.stamped_reg (j : Nat) : (s.stamped i).reg j = s.reg j := by rw [State.stamped, State.setRin, State.reg, State.reg]

@[simp] theorem State.stamped_rd (f : Fld) : (s.stamped i).rd f = s.rd f := State.rd_congr (State.stamped_reg _)

@[simp] theorem State.stamped_on (f : Fld) : (s.stamped i).on f = s.on f := State.on_congr (State.stamped_reg _)

theorem State.stampPps_regsOnly (s : State) (i : Nat) : RegsOnly [REF.IN_STAT i] (s.stamped i) (s.stampPps i) := by
  have hedge := (RegsOnly.refl [REF.IN_STAT i] (s.stamped i)).wr (REF.IN_STAT_EDGES i) ((s.stamped i).rd (REF.IN_STAT_EDGES i) + 1)
    List.mem_cons_self
  exact (hedge.wr (REF.IN_STAT_PRESENT i) 1 List.mem_cons_self).ite hedge

/-- An edge of a PPS input that no slot takes its frequency or its phase from. -/
theorem State.ppsEdge_unbound (hr : s.RegsWf) (hb : s.slotBound 0 i = none)
    (hc : ∀ k, k < 8 → k ≠ i → ¬(s.on (REF.IN_CFG_COMP_EN k) = true ∧ s.rd (REF.IN_CFG_COMP_IN k) = i)) :
    s.ppsEdge i = s.stampPps i := by
  have hreg := s.stampPps_regsOnly i
  have hbound : (s.stampPps i).slotBound 0 i = none := (hreg.slotBound hr).trans hb
  unfold State.ppsEdge
  dsimp only
  refine List.foldlRecOn (motive := fun u => u = s.stampPps i) (List.range 8) _ ?_ ?_
  · show (match (s.stampPps i).slotBound 0 i with | some _ => _ | none => s.stampPps i) = _
    rw [hbound]
  · rintro u rfl k hk
    have hcfg : REF.IN_CFG k ∉ [REF.IN_STAT i] := by simp only [List.mem_singleton, REF.IN_CFG, REF.IN_STAT]; omega
    refine if_neg fun ⟨hne, hon, hin⟩ => hc k (List.mem_range.mp hk) hne ⟨?_, ?_⟩
    · rw [← hon, hreg.on hr hcfg, State.stamped_on]
    · rw [← hin, hreg.rd hr hcfg, State.stamped_rd]

theorem State.stampPps_edges (hr : s.RegsWf) :
    (s.stampPps i).rd (REF.IN_STAT_EDGES i) = (s.rd (REF.IN_STAT_EDGES i) + 1) % 2 ^ (REF.IN_STAT_EDGES i).w := by
  have hrs : (s.stamped i).RegsWf := hr
  have hedge : ((s.stamped i).bumpF (REF.IN_STAT_EDGES i)).rd (REF.IN_STAT_EDGES i)
      = (s.rd (REF.IN_STAT_EDGES i) + 1) % 2 ^ (REF.IN_STAT_EDGES i).w := by
    rw [State.bumpF, State.rd_wr _ _ _ hrs (show 16 + 16 ≤ 32 by decide), State.stamped_rd]
  unfold State.stampPps
  dsimp only
  split
  · rw [← hedge]
    exact State.rd_wr_disj _ _ _ _ ((s.stamped i).wr_regsWf _ _ hrs) (show 0 + 1 ≤ 32 by decide) rfl (.inr (show 0 + 1 ≤ 16 by decide))
  · exact hedge

theorem State.stampPps_present (hr : s.RegsWf) :
    (s.stampPps i).on (REF.IN_STAT_PRESENT i) = (s.on (REF.IN_STAT_PRESENT i) || s.ppsNear i) := by
  have hrs : (s.stamped i).RegsWf := hr
  unfold State.stampPps
  dsimp only
  split
  next hn =>
    rw [hn, Bool.or_true]
    exact State.on_wr _ _ ((s.stamped i).wr_regsWf _ _ hrs) (show 0 + 1 ≤ 32 by decide) rfl
  next hn =>
    rw [Bool.not_eq_true] at hn
    rw [hn, Bool.or_false, ← State.stamped_on (i := i)]
    exact State.on_wr_disj hrs _ (show 16 + 16 ≤ 32 by decide) rfl (.inl (show 0 + 1 ≤ 16 by decide))

end

/-! ### A slot is looked at (R106 to R108, R112) -/

/-- `REF.SLOT_STATE` of slot `n` shows loss, the tests that fail, the rank and whether it is phase-bearing. -/
def State.showState (s : State) (n : Nat) (los oor low : Bool) (rank : Nat) (bearing : Bool) : State :=
  ((((s.wrB (REF.SLOT_STATE_LOS n) los).wrB (REF.SLOT_STATE_FREQ_OOR n) oor).wrB (REF.SLOT_STATE_QL_LOW n) low).wr
    (REF.SLOT_STATE_QRANK n) rank).wrB (REF.SLOT_STATE_PHASE_BEARING n) bearing

/-- Loss, tests and quality of slot `n` are found and shown (step 2 of R113). -/
def State.showSlot (s : State) (n : Nat) : State :=
  let x := s.slot n
  let s1 := s.setSlot n { x with okLos := !s.slotLos n, okFreq := s.testFreq n, okJump := !x.jumped }
  let s2 := s1.showState n (s.slotLos n) (!s.testFreq n) (!s1.testRank n) (s.qrank n) (s1.phaseBearing n)
  s2.setN (REF.SLOT_QUALITY n) (s2.slotQuality n)

/-- The registers that a look at slot `n` writes. -/
def lookKeys (n : Nat) : List Nat := [REF.STICKY, REF.SLOT_STATE n, REF.SLOT_QUALITY n, REF.SLOT_STICKY n]

section
variable {s : State} {n : Nat}

theorem State.showState_signals (s : State) (n : Nat) (los oor low : Bool) (rank : Nat) (bearing : Bool) :
    Signals [REF.SLOT_STATE n] s (s.showState n los oor low rank bearing) := by
  have hwr : ∀ (u : State) (f : Fld) (v : Nat), f.addr = REF.SLOT_STATE n → Signals [REF.SLOT_STATE n] u (u.wr f v) :=
    fun u f v hf => Signals.wr u f v (.inl (hf ▸ List.mem_cons_self))
  exact ((((hwr _ (REF.SLOT_STATE_LOS n) _ rfl).trans (hwr _ (REF.SLOT_STATE_FREQ_OOR n) _ rfl)).trans
    (hwr _ (REF.SLOT_STATE_QL_LOW n) _ rfl)).trans (hwr _ (REF.SLOT_STATE_QRANK n) _ rfl)).trans
    (hwr _ (REF.SLOT_STATE_PHASE_BEARING n) _ rfl)

/-- LOS, which is written first, stands apart from the fields written after it. -/
theorem State.showState_los (hr : s.RegsWf) (los oor low : Bool) (rank : Nat) (bearing : Bool) :
    (s.showState n los oor low rank bearing).on (REF.SLOT_STATE_LOS n) = los := by
  have w1 := s.wr_regsWf (REF.SLOT_STATE_LOS n) (b2n los) hr
  have w2 := State.wr_regsWf _ (REF.SLOT_STATE_FREQ_OOR n) (b2n oor) w1
  have w3 := State.wr_regsWf _ (REF.SLOT_STATE_QL_LOW n) (b2n low) w2
  have w4 := State.wr_regsWf _ (REF.SLOT_STATE_QRANK n) rank w3
  calc (s.showState n los oor low rank bearing).on (REF.SLOT_STATE_LOS n)
      = _ := State.on_wr_disj w4 _ (show 3 + 1 ≤ 32 by decide) rfl (.inr (show 3 + 1 ≤ 8 by decide))
    _ = _ := State.on_wr_disj w3 _ (show 4 + 4 ≤ 32 by decide) rfl (.inr (show 4 + 4 ≤ 8 by decide))
    _ = _ := State.on_wr_disj w2 _ (show 10 + 1 ≤ 32 by decide) rfl (.inl (show 8 + 1 ≤ 10 by decide))
    _ = _ := State.on_wr_disj w1 _ (show 9 + 1 ≤ 32 by decide) rfl (.inl (show 8 + 1 ≤ 9 by decide))
    _ = los := State.on_wrB hr (show 8 < 32 by decide) rfl los

theorem State.showSlot_signals (s : State) (n : Nat) : RefSignals [REF.SLOT_STATE n, REF.SLOT_QUALITY n] s (s.showSlot n) :=
  ((State.showState_signals { s with ref := (s.showSlot n).ref } n _ _ _ _ _).mono (by simp)).trans
    (Signals.setN _ _ _ (.inl (by simp)))

theorem State.showSlot_los (hr : s.RegsWf) : (s.showSlot n).on (REF.SLOT_STATE_LOS n) = s.slotLos n := by
  have hset : ∀ x, (s.setSlot n x).RegsWf := fun _ => hr
  unfold State.showSlot
  dsimp only
  refine (State.on_congr (State.reg_setN_ne _ _ _ _ ((State.showState_signals _ n _ _ _ _ _).regsWf (hset _)) ?_)).trans
    (State.showState_los (hset _) _ _ _ _ _)
  show REF.SLOT_STATE n ≠ REF.SLOT_QUALITY n
  unfold REF.SLOT_STATE REF.SLOT_QUALITY
  omega

theorem State.historyIf_signals (s : State) (n : Nat) {bit : Nat} (hb : bit < 16) (c : Bool) :
    Signals [REF.STICKY, REF.SLOT_STICKY n] s (if c then s.history n bit else s) := by
  cases c
  · exact Signals.refl _ s
  · exact s.history_signals n hb

/-- What is shown, and the history bits that set. -/
theorem State.lookSlot_showSlot (h : s.slotState n ≠ slDISABLED) :
    Signals [REF.STICKY, REF.SLOT_STICKY n] (s.showSlot n) (s.lookSlot n) := by
  unfold State.lookSlot
  rw [if_neg h]
  exact ((((s.showSlot n).historyIf_signals n (by decide : hbQL < 16) _).trans
    (State.historyIf_signals _ n (by decide : hbLOS < 16) _)).trans (State.historyIf_signals _ n (by decide : hbFREQ < 16) _)).trans
    (State.historyIf_signals _ n (by decide : hbJUMP < 16) _)

theorem State.lookSlot_signals (s : State) (n : Nat) : RefSignals (lookKeys n) s (s.lookSlot n) := by
  by_cases h : s.slotState n = slDISABLED
  · rw [State.lookSlot, if_pos h]
    exact Signals.refl _ s
  · exact ((s.showSlot_signals n).mono (by simp [lookKeys])).trans
      (RefSignals.of_signals ((State.lookSlot_showSlot h).mono (by simp [lookKeys])))

/-- A slot that is not DISABLED shows whether its source is lost. -/
theorem State.lookSlot_los (hr : s.RegsWf) (hn : n < 16) (h : s.slotState n ≠ slDISABLED) :
    (s.lookSlot n).on (REF.SLOT_STATE_LOS n) = s.slotLos n := by
  have hkept : (s.lookSlot n).on (REF.SLOT_STATE_LOS n) = (s.showSlot n).on (REF.SLOT_STATE_LOS n) :=
    (State.lookSlot_showSlot h).on_eq ((s.showSlot_signals n).regsWf hr)
      (by simp only [List.mem_cons, List.not_mem_nil, or_false, REF.SLOT_STATE_LOS, REF.STICKY, REF.SLOT_STATE, REF.SLOT_STICKY]; omega)
      (slotState_not_mem_alarmKeys hn)
  exact hkept.trans (State.showSlot_los hr)

end

/-! ### A lost source (R105, R106) -/

section
variable {s : State} {n : Nat}

theorem State.forgetSource_signals (s : State) (n : Nat) : RefSignals [REF.SLOT_FREQ n] s (s.forgetSource n) :=
  Signals.setN { s with ref := (s.forgetSource n).ref } _ _ (.inl List.mem_cons_self)

theorem State.forgetSource_reg (hr : s.RegsWf) {j : Nat} (hj : j ≠ REF.SLOT_FREQ n) : (s.forgetSource n).reg j = s.reg j :=
  s.reg_setN_ne _ _ _ hr hj

theorem State.forgetSource_freq (hr : s.RegsWf) : (s.forgetSource n).nreg (REF.SLOT_FREQ n) = 0x80000000 := s.nreg_setN _ _ hr

theorem State.slotLos_gnss (h : s.bindType n = 1) : s.slotLos n = s.gnssLos := by
  unfold State.slotLos
  simp only [h]

theorem State.gnssLos_congr {t : State} (hok : t.ref.gnssOk = s.ref.gnssOk) (hnow : t.tsNow 0 = s.tsNow 0) : t.gnssLos = s.gnssLos := by
  rw [State.gnssLos, hok, hnow, State.gnssLos]

end

end Sys2Proof.Machine

namespace Sys2Proof.Machine

/-! ### The commands of the inputs and of the GNSS slot -/

/-- Input `i` is shown absent (R100). -/
def State.showAbsent (s : State) (i : Nat) : State := s.wr (REF.IN_STAT_PRESENT i) 0

/-- Ball REFOKi is shown (R101). -/
def State.showRefok (s : State) (i : Nat) (level : Bool) : State := s.wrB (REF.IN_STAT_REFOK i) level

theorem inStat_ne_slotFreq {i k : Nat} : REF.IN_STAT i ≠ REF.SLOT_FREQ k := by
  unfold REF.IN_STAT REF.SLOT_FREQ
  omega

theorem inStat_not_mem_lookKeys {i k : Nat} (hk : k < 16) : REF.IN_STAT i ∉ lookKeys k := by
  simp only [lookKeys, List.mem_cons, List.not_mem_nil, or_false, REF.IN_STAT, REF.STICKY, REF.SLOT_STATE, REF.SLOT_QUALITY,
    REF.SLOT_STICKY]
  omega

theorem slotFreq_not_mem_lookKeys {k : Nat} : REF.SLOT_FREQ k ∉ lookKeys k := by
  simp only [lookKeys, List.mem_cons, List.not_mem_nil, or_false, REF.SLOT_FREQ, REF.STICKY, REF.SLOT_STATE, REF.SLOT_QUALITY,
    REF.SLOT_STICKY]
  omega

section
variable {s : State} {i k t : Nat}

theorem State.showAbsent_regsOnly : RegsOnly [REF.IN_STAT i] s (s.showAbsent i) :=
  (RegsOnly.refl _ s).wr (REF.IN_STAT_PRESENT i) 0 List.mem_cons_self

theorem State.showAbsent_on (hr : s.RegsWf) : (s.showAbsent i).on (REF.IN_STAT_PRESENT i) = false :=
  State.on_wr_zero hr (show 0 < 32 by decide) rfl

theorem State.showRefok_regsOnly (l : Bool) : RegsOnly [REF.IN_STAT i] s (s.showRefok i l) :=
  (RegsOnly.refl _ s).wr (REF.IN_STAT_REFOK i) (b2n l) List.mem_cons_self

theorem State.showRefok_on (hr : s.RegsWf) (l : Bool) : (s.showRefok i l).on (REF.IN_STAT_REFOK i) = l :=
  State.on_wrB hr (show 1 < 32 by decide) rfl l

theorem exec_refInEdge_off (hm : s.rd (REF.IN_CFG_MODE i) = 0) (n : Nat) : exec (.refInEdge i n t) s = .next (s.advance t) := by
  show execRefInEdge i n t s = _
  simp only [execRefInEdge, s.advance_rd, hm, ite_self]

theorem exec_refInEdge_pps (hi : i < 8) (hm : s.rd (REF.IN_CFG_MODE i) = 1) (n : Nat) :
    exec (.refInEdge i n t) s = .next ((s.advance t).ppsEdge i) := by
  show execRefInEdge i n t s = _
  simp only [execRefInEdge, s.advance_rd, hm, if_neg (Nat.not_le.mpr hi)]

theorem exec_refInAbsent_idle (h : s.rd (REF.IN_CFG_MODE i) = 0 ∨ (s.advance t).inAbsent i = false) :
    exec (.refInAbsent i t) s = .next (s.advance t) :=
  congrArg Host.Outcome.next (if_neg fun ⟨_, hm, ha⟩ => h.elim (fun h => hm ((s.advance_rd t _).trans h)) (by simp [ha]))

theorem State.advance_slotBound (bt ix : Nat) : (s.advance t).slotBound bt ix = s.slotBound bt ix :=
  State.slotBound_congr fun _ => s.advance_reg t _

section
variable (hr : s.RegsWf) (hi : i < 8)
include hr hi

/-- A source that goes absent leaves no frequency in the slot bound to it (R100, R108). -/
theorem exec_refInAbsent (hm : s.rd (REF.IN_CFG_MODE i) ≠ 0) (ha : (s.advance t).inAbsent i = true) :
    exec (.refInAbsent i t) s = .next (((s.slotBound 0 i).elim id fun n u => u.forgetSource n) ((s.advance t).showAbsent i)) := by
  have hb : ((s.advance t).showAbsent i).slotBound 0 i = s.slotBound 0 i :=
    (State.showAbsent_regsOnly.slotBound (State.advance_regsWf hr t)).trans (State.advance_slotBound 0 i)
  refine congrArg Host.Outcome.next ((if_pos ⟨hi, (s.advance_rd t _).symm ▸ hm, ha⟩).trans ?_)
  show (match ((s.advance t).showAbsent i).slotBound 0 i with | some _ => _ | none => _) = _
  rw [hb]
  cases s.slotBound 0 i <;> rfl

/-- A change of REFOKi shows in the slot bound to the input at once (R101, R107). -/
theorem exec_refokChange (l : Bool) :
    exec (.refokChange i l t) s = .next (((s.slotBound 0 i).elim id fun n u => u.lookSlot n) ((s.advance t).showRefok i l)) := by
  have hb : ((s.advance t).showRefok i l).slotBound 0 i = s.slotBound 0 i :=
    ((State.showRefok_regsOnly l).slotBound (State.advance_regsWf hr t)).trans (State.advance_slotBound 0 i)
  refine congrArg Host.Outcome.next ((if_pos hi).trans ?_)
  show (match ((s.advance t).showRefok i l).slotBound 0 i with | some _ => _ | none => _) = _
  rw [hb]
  cases s.slotBound 0 i <;> rfl

end

theorem exec_gnssSlotLos_idle (h : s.slotBound 1 0 = none ∨ (s.advance t).gnssLos = false) :
    exec (.gnssSlotLos t) s = .next (s.advance t) := by
  show execGnssSlotLos t s = _
  simp only [execGnssSlotLos, State.advance_slotBound]
  rcases h with h | h
  · rw [h]
  · simp only [h, Bool.false_eq_true, if_false]
    cases s.slotBound 1 0 <;> rfl

theorem exec_gnssSlotLos (hb : s.slotBound 1 0 = some k) (hl : (s.advance t).gnssLos = true) :
    exec (.gnssSlotLos t) s = .next (((s.advance t).forgetSource k).lookSlot k) := by
  show execGnssSlotLos t s = _
  simp only [execGnssSlotLos, State.advance_slotBound, hb, hl, if_true]

end

/-! ### What each command leaves -/

section
variable {s : State} {i k : Nat}

theorem State.stampPps_spec (hr : s.RegsWf) : (s.stampPps i).ref.ins
        = Store.put dRIn s.ref.ins i { s.rin i with lastRaw := some s.raw, lastT0 := s.tsNow 0, stampRaw := s.raw }
      ∧ (s.stampPps i).rd (REF.IN_STAT_EDGES i) = (s.rd (REF.IN_STAT_EDGES i) + 1) % 2 ^ (REF.IN_STAT_EDGES i).w
      ∧ ((s.stampPps i).on (REF.IN_STAT_PRESENT i) = true ↔ s.on (REF.IN_STAT_PRESENT i) = true ∨ ((s.rin i).lastRaw ≠ none
          ∧ (s.rin i).lastT0 + qSec * 999 / 1000 ≤ s.tsNow 0 ∧ s.tsNow 0 ≤ (s.rin i).lastT0 + qSec * 1001 / 1000))
      ∧ (∀ j, j ≠ REF.IN_STAT i → (s.stampPps i).reg j = s.reg j)
      ∧ s.stampPps i = { s with regs := (s.stampPps i).regs, ref := { s.ref with ins := (s.stampPps i).ref.ins } } := by
  have hreg := s.stampPps_regsOnly i
  have heq := hreg.eq
  refine ⟨by rw [heq]; rfl, State.stampPps_edges hr, ?_, fun j hj => ?_, by rw [heq]; rfl⟩
  · rw [State.stampPps_present hr, State.ppsNear]
    simp only [Bool.or_eq_true, Bool.and_eq_true, decide_eq_true_eq, Option.isSome_iff_ne_none, and_assoc]
  · exact (hreg.reg hr j (by simpa using hj)).trans (State.stamped_reg j)

theorem State.showAbsent_forgetSource (hr : s.RegsWf) : ((s.showAbsent i).forgetSource k).on (REF.IN_STAT_PRESENT i) = false
      ∧ ((s.showAbsent i).forgetSource k).nreg (REF.SLOT_FREQ k) = 0x80000000
      ∧ ∀ j, j ≠ REF.IN_STAT i → j ≠ REF.SLOT_FREQ k → ((s.showAbsent i).forgetSource k).reg j = s.reg j := by
  have hreg : RegsOnly [REF.IN_STAT i] s (s.showAbsent i) := State.showAbsent_regsOnly
  have hw := hreg.regsWf hr
  exact ⟨(State.on_congr (State.forgetSource_reg hw inStat_ne_slotFreq)).trans (State.showAbsent_on hr), State.forgetSource_freq hw,
    fun j hj hk => (State.forgetSource_reg hw hk).trans (hreg.reg hr j (by simpa using hj))⟩

theorem State.lookSlot_refok (hr : s.RegsWf) (hi : i < 8) (hk : k < 16) (l : Bool) :
    ((s.showRefok i l).lookSlot k).on (REF.IN_STAT_REFOK i) = l :=
  (State.on_congr (f := REF.IN_STAT_REFOK i) (((s.showRefok i l).lookSlot_signals k).reg ((State.showRefok_regsOnly l).regsWf hr)
    (inStat_not_mem_lookKeys hk) (not_mem_alarmKeys_of_ref (show 0x30000 ≤ 0x3030C + 0x10 * i by omega)
      (show 0x3030C + 0x10 * i < 0x40000 by omega)))).trans (State.showRefok_on hr l)

/-- The slot of the GNSS solution, where it is not DISABLED, shows the loss and has no frequency left. -/
theorem State.lookSlot_gnss (hr : s.RegsWf) (hk : k < 16) (hb : s.bindType k = 1) (hl : s.gnssLos = true)
    (hst : s.slotState k ≠ slDISABLED) :
    ((s.forgetSource k).lookSlot k).on (REF.SLOT_STATE_LOS k) = true
      ∧ ((s.forgetSource k).lookSlot k).nreg (REF.SLOT_FREQ k) = 0x80000000
      ∧ RefSignals ([REF.STICKY] ++ [REF.SLOT_STATE k, REF.SLOT_FREQ k, REF.SLOT_QUALITY k, REF.SLOT_STICKY k]) s
          ((s.forgetSource k).lookSlot k) := by
  have hforget := s.forgetSource_signals k
  have hw := hforget.regsWf hr
  have hlook := (s.forgetSource k).lookSlot_signals k
  have hreg : ∀ {j}, j ≠ REF.SLOT_FREQ k → (s.forgetSource k).reg j = s.reg j := fun hj => State.forgetSource_reg hr hj
  have hst' : (s.forgetSource k).slotState k ≠ slDISABLED :=
    (State.slotState_congr (hreg (by unfold REF.SLOT_STATE REF.SLOT_FREQ; omega))).symm ▸ hst
  have hb' : (s.forgetSource k).bindType k = 1 := (State.bindType_congr (hreg (by unfold REF.SLOT_CFG REF.SLOT_FREQ; omega))).trans hb
  have hnow : (s.forgetSource k).tsNow 0 = s.tsNow 0 :=
    hforget.tsNow hr (by simp only [List.mem_singleton, REF.SLOT_FREQ]; omega)
  have hok : (s.forgetSource k).ref.gnssOk = s.ref.gnssOk := rfl
  have hloss : (s.forgetSource k).gnssLos = true := (State.gnssLos_congr hok hnow).trans hl
  refine ⟨?_, ?_, (hforget.mono (by simp)).trans (hlook.mono (by simp [lookKeys]))⟩
  · rw [State.lookSlot_los hw hk hst', State.slotLos_gnss hb', hloss]
  · have hfreq := hlook.reg hw slotFreq_not_mem_lookKeys (not_mem_alarmKeys_of_ref
      (show 0x30000 ≤ 0x30114 + 0x20 * k by omega) (show 0x30114 + 0x20 * k < 0x40000 by omega))
    rw [State.nreg, hfreq]
    exact State.forgetSource_freq hr

end

/-- Settles O30: what each command of the inputs and of the GNSS slot leaves is a lemma about the row. -/
theorem inputsAreStampedAndLost : Obligations.InputsAreStampedAndLost := by
  intro i n t l s a hc hi ha
  have hr : a.RegsWf := ha ▸ State.advance_regsWf hc.regs t
  have href : a.ref = s.ref := ha ▸ s.advance_ref t
  have hrin : s.rin i = a.rin i := by rw [State.rin, State.rin, href]
  have hreg : ∀ j, a.reg j = s.reg j := fun j => ha ▸ s.advance_reg t j
  have hrd : ∀ f, s.rd f = a.rd f := fun f => ha ▸ (s.advance_rd t f).symm
  have hon : ∀ f, s.on f = a.on f := fun f => ha ▸ (s.advance_on t f).symm
  have hbound : ∀ bt ix, a.slotBound bt ix = s.slotBound bt ix := fun bt ix => ha ▸ State.advance_slotBound bt ix
  refine ⟨fun hm hb hcomp => ⟨a.stampPps i, ?_, ?_⟩, fun hm => ⟨?_, ?_⟩, fun hm habs => ?_, fun habs => ?_, ?_, fun h => ?_,
    fun k hb hl hst => ?_⟩
  · have hcomp' : ∀ k, k < 8 → k ≠ i → ¬(a.on (REF.IN_CFG_COMP_EN k) = true ∧ a.rd (REF.IN_CFG_COMP_IN k) = i) := by
      simpa only [hon, hrd] using hcomp
    rw [exec_refInEdge_pps hi hm, ← ha, State.ppsEdge_unbound hr ((hbound 0 i).trans hb) hcomp']
  · rw [hrin, hrd, hon, ← href]
    simpa only [hreg] using State.stampPps_spec hr
  · rw [exec_refInEdge_off hm, ha]
  · rw [exec_refInAbsent_idle (.inl hm), ha]
  · rw [exec_refInAbsent hc.regs hi hm (ha ▸ habs), ← ha]
    have hshow : RegsOnly [REF.IN_STAT i] a (a.showAbsent i) := State.showAbsent_regsOnly
    cases hb : s.slotBound 0 i with
    | none =>
      exact ⟨_, rfl, State.showAbsent_on hr, fun _ => ⟨fun j hj => (hshow.reg hr j (by simpa using hj)).trans (hreg j), hshow.eq⟩,
        fun k hk => nomatch hk⟩
    | some k =>
      obtain ⟨hpres, hfreq, hkeep⟩ := State.showAbsent_forgetSource (s := a) (i := i) (k := k) hr
      refine ⟨_, rfl, hpres, fun hk => (nomatch hk), fun m hm => ?_⟩
      obtain rfl := Option.some.inj hm
      exact ⟨hfreq, fun j hj hk => (hkeep j hj hk).trans (hreg j)⟩
  · rw [exec_refInAbsent_idle (.inr (ha ▸ habs)), ha]
  · rw [exec_refokChange hc.regs hi, ← ha]
    have hshow : RegsOnly [REF.IN_STAT i] a (a.showRefok i l) := State.showRefok_regsOnly l
    cases hb : s.slotBound 0 i with
    | none =>
      exact ⟨_, rfl, State.showRefok_on hr l, fun _ => ⟨fun j hj => (hshow.reg hr j (by simpa using hj)).trans (hreg j), hshow.eq⟩⟩
    | some k => exact ⟨_, rfl, State.lookSlot_refok hr hi (State.slotBound_some hb).1 l, fun hk => (nomatch hk)⟩
  · rw [exec_gnssSlotLos_idle (ha ▸ h), ha]
  · obtain ⟨hk, hbt⟩ := State.slotBound_some ((hbound 1 0).trans hb)
    have hst' : a.slotState k ≠ slDISABLED := (State.slotState_congr (hreg _)).symm ▸ hst
    exact ⟨_, by rw [exec_gnssSlotLos hb (ha ▸ hl), ← ha], State.lookSlot_gnss hr hk hbt hl hst'⟩

end Sys2Proof.Machine

namespace Sys2Proof.Machine

/-! ### Numbers of 64 bits in two registers, and the bounds of u (R129) -/

theorem toSigned_ofSigned {x : Int} (hlo : -(2 ^ 63) ≤ x) (hhi : x < 2 ^ 63) : toSigned 64 (ofSigned 64 x) = x := by
  have hcast := ofSigned_cast 64 x
  unfold toSigned
  rw [Nat.mod_eq_of_lt (ofSigned_lt 64 x)]
  dsimp only
  split <;> omega

theorem roundDiv_mul_self (k : Int) {b : Int} (hb : 0 < b) : roundDiv (k * b) b = k := by
  have hround : ∀ j : Int, (2 * (j * b) + b) / (2 * b) = j := fun j => by
    rw [show 2 * (j * b) + b = b + 2 * b * j by ring, Int.add_mul_ediv_left _ _ (by omega), Int.ediv_eq_zero_of_lt hb.le (by omega),
      zero_add]
  unfold roundDiv
  split
  · exact hround k
  · rw [← Int.neg_mul, hround, neg_neg]

theorem neg_uMax_le_clampU (x : Int) : -uMax ≤ clampU x := by
  unfold clampU uMax
  dsimp only
  split
  · omega
  · split <;> omega

theorem clampU_le_uMax (x : Int) : clampU x ≤ uMax := by
  unfold clampU uMax
  dsimp only
  split
  · omega
  · split <;> omega

/-- A control value within its limits is held to them already. -/
theorem clampU_mul {u : Int} (hlo : -uMax ≤ u) (hhi : u ≤ uMax) : clampU (u * 2 ^ 64) = u := by
  unfold clampU
  rw [roundDiv_mul_self u (by decide)]
  dsimp only
  rw [if_neg (by omega), if_neg (by omega)]

section
variable {s : State} {k v : Nat}

theorem State.set64_regsWf (hr : s.RegsWf) : (s.set64 k v).RegsWf := State.setN_regsWf _ _ _ (s.setN_regsWf k v hr)

theorem State.reg_set64_ne (hr : s.RegsWf) {j : Nat} (hj : j ≠ k) (hj4 : j ≠ k + 4) : (s.set64 k v).reg j = s.reg j :=
  (State.reg_setN_ne _ _ _ _ (s.setN_regsWf k v hr) hj4).trans (s.reg_setN_ne k j v hr hj)

/-- A value of 64 bits written to two registers reads back. -/
theorem State.reg64_set64 (hr : s.RegsWf) (hv : v < 2 ^ 64) : (s.set64 k v).reg64 k = v := by
  have hw : (s.setN k v).RegsWf := s.setN_regsWf k v hr
  have hlo : (s.set64 k v).nreg k = v % 2 ^ 32 := (State.nreg_setN_ne _ _ _ _ hw (by omega)).trans (s.nreg_setN k v hr)
  have hhi : (s.set64 k v).nreg (k + 4) = v / 2 ^ 32 % 2 ^ 32 := State.nreg_setN _ _ _ hw
  rw [State.reg64, hlo, hhi]
  omega

theorem State.reg64_congr {t : State} (h : t.reg k = s.reg k) (h4 : t.reg (k + 4) = s.reg (k + 4)) : t.reg64 k = s.reg64 k := by
  rw [State.reg64, State.nreg, h, State.nreg, h4, State.reg64, State.nreg, State.nreg]

end

/-! ### A rate written by discipline (R79, R80) -/

section
variable {s t : State}

theorem State.reanchorAll_dsc (s : State) : ((s.reanchorAll 0 s.raw).count 7 2 0).dsc = s.dsc :=
  (State.count_signals (ks := []) _ 7 2 0 1).dsc.trans (State.foldl_dsc (f := fun t n => t.reanchor n s.raw) (fun _ _ => rfl) _ s)

theorem State.rebaseAll_dsc (s : State) : (s.rebaseAll s.raw).dsc = s.dsc :=
  State.foldl_dsc (f := fun t n => t.rebase n s.raw) (fun _ _ => rfl) _ s

/-- A rate of timescale 0 in its registers, live and shadow. -/
def State.setRate0 (s : State) (x : Int) : State :=
  (s.setBoth (TSC.RATE_LO 0) (ofSigned 64 x)).setBoth (TSC.RATE_HI 0) (ofSigned 64 x / 2 ^ 32)

theorem State.setRate0_regsWf (hr : s.RegsWf) (x : Int) : (s.setRate0 x).RegsWf :=
  State.setN_regsWf (s.setBoth _ _) _ _ (s.setN_regsWf _ _ hr)

theorem State.setRate0_reg (hr : s.RegsWf) (x : Int) {k : Nat} (hlo : k ≠ TSC.RATE_LO 0) (hhi : k ≠ TSC.RATE_HI 0) :
    (s.setRate0 x).reg k = s.reg k :=
  State.reg_set64_ne (v := ofSigned 64 x) hr hlo hhi

theorem State.setRate0_rho (hr : s.RegsWf) {x : Int} (hlo : -(2 ^ 54) ≤ x) (hhi : x ≤ 2 ^ 54) : (s.setRate0 x).rho 0 = x := by
  have h64 : (s.setRate0 x).reg64 (TSC.RATE_LO 0) = ofSigned 64 x := State.reg64_set64 (k := TSC.RATE_LO 0) hr (ofSigned_lt 64 x)
  rw [State.rho, h64, toSigned_ofSigned (by omega) (by omega)]

/-- A rate written: timescales re-anchored where their rate changes or something is left to slew, then the new rate. -/
theorem State.steer_rate (hr : s.RegsWf) (ht : Store.wf dTs s.tsc.ts = true) {x : Int} (hx : -(2 ^ 54) ≤ x ∧ x ≤ 2 ^ 54) :
    ∃ l v, Anchored l s v ∧ v.dsc = s.dsc ∧ s.steer (some x) none none = (v.setRate0 x).showSlew 0 := by
  unfold State.steer
  simp only [if_pos hx]
  split
  next => exact ⟨_, _, State.reanchorAll_anchored hr ht, s.reanchorAll_dsc, rfl⟩
  next =>
    split
    next => exact ⟨_, _, State.rebaseAll_anchored hr ht, s.rebaseAll_dsc, rfl⟩
    next => exact ⟨_, _, Anchored.refl hr ht, rfl, rfl⟩

/-! ### The control value written and shown (R123, R126, R145) -/

/-- The registers of DSC. -/
abbrev dscReg (k : Nat) : Prop := 0x40000 ≤ k ∧ k < 0x50000

theorem not_mem_alarmKeys_of_dsc {k : Nat} (h : dscReg k) : k ∉ alarmKeys := fun hk =>
  absurd ((by decide : ∀ j ∈ alarmKeys, j < 0x40000 ∨ 0x50000 ≤ j) k hk) (by obtain ⟨hlo, hhi⟩ := h; omega)

theorem anchorKeeps_of_dsc {k : Nat} (h : dscReg k) : anchorKeeps k := by
  refine ⟨fun n hn => ?_, not_mem_alarmKeys_of_dsc h⟩
  obtain ⟨hlo, hhi⟩ := h
  unfold TSC.STATUS
  omega

/-- `t` is `s` with the control value `x` written to timescale 0 and shown, as far as discipline and steps see it. -/
structure Emitted (x : Int) (s t : State) : Prop where
  regsWf : t.RegsWf
  rho : t.rho 0 = x
  shown : t.reg64 DSC.CTRL_VAL_LO = ofSigned 64 x
  reg : ∀ k, dscReg k → k ≠ DSC.CTRL_VAL_LO → k ≠ DSC.CTRL_VAL_LO + 4 → t.reg k = s.reg k
  raw : t.raw = s.raw
  steps0 : t.tsc.steps0 = s.tsc.steps0
  dsc : t.dsc = s.accU.dsc

/-- What a control value that is written to timescale 0 leaves before it is shown. -/
theorem State.steer_rate_spec (hr : s.RegsWf) (ht : Store.wf dTs s.tsc.ts = true) {x : Int} (hlo : -(2 ^ 54) ≤ x) (hhi : x ≤ 2 ^ 54) :
    (s.steer (some x) none none).RegsWf ∧ (s.steer (some x) none none).rho 0 = x
      ∧ (∀ k, dscReg k → (s.steer (some x) none none).reg k = s.reg k) ∧ (s.steer (some x) none none).raw = s.raw
      ∧ (s.steer (some x) none none).tsc.steps0 = s.tsc.steps0 ∧ (s.steer (some x) none none).dsc = s.dsc := by
  obtain ⟨l, v, hv, hdsc, heq⟩ := State.steer_rate hr ht ⟨hlo, hhi⟩
  rw [heq]
  have hw := State.setRate0_regsWf hv.regsWf x
  have hshow := (v.setRate0 x).showSlew_signals 0
  generalize (v.setRate0 x).showSlew 0 = w at hshow ⊢
  refine ⟨hshow.regsWf hw, ?_, fun k hk => ?_, hshow.raw.trans hv.raw, (congrArg TscS.steps0 hshow.tsc).trans hv.steps0,
    hshow.dsc.trans hdsc⟩
  · have hkeys : ∀ k ∈ valueKeys 0, k ∉ [TSC.STATUS 0, TSC.REMAIN 0] ∧ k ∉ alarmKeys := by decide
    rw [State.rho_congr fun k hk => hshow.reg hw k (hkeys k hk).1 (hkeys k hk).2, State.setRate0_rho hv.regsWf hlo hhi]
  · have htsc : k ∉ [TSC.STATUS 0, TSC.REMAIN 0] ∧ k ≠ TSC.RATE_LO 0 ∧ k ≠ TSC.RATE_HI 0 := by
      obtain ⟨hlow, _⟩ := hk
      simp only [List.mem_cons, List.not_mem_nil, or_false, TSC.STATUS, TSC.REMAIN, TSC.RATE_LO, TSC.RATE_HI]
      omega
    obtain ⟨hslew, hrlo, hrhi⟩ := htsc
    exact (hshow.reg hw k hslew (not_mem_alarmKeys_of_dsc hk)).trans ((State.setRate0_reg hv.regsWf x hrlo hrhi).trans
      (hv.reg k (anchorKeeps_of_dsc hk)))

theorem Emitted.keeps {x : Int} (h : Emitted x s t) {k : Nat} (hd : dscReg k := by decide) (hne : k ≠ DSC.CTRL_VAL_LO := by decide)
    (hne4 : k ≠ DSC.CTRL_VAL_LO + 4 := by decide) : t.reg k = s.reg k := h.reg k hd hne hne4

theorem State.emitU_emitted (hr : s.RegsWf) (ht : Store.wf dTs s.tsc.ts = true) {x : Int} (hlo : -uMax ≤ x) (hhi : x ≤ uMax) :
    Emitted x s (s.emitU x) := by
  obtain ⟨hw, hrho, hreg, hraw, hsteps, hdsc⟩ := State.steer_rate_spec (s := s.accU) hr ht hlo hhi
  unfold State.emitU
  generalize s.accU.steer (some x) none none = w at hw hrho hreg hraw hsteps hdsc ⊢
  have hkeep : ∀ k, k ≠ DSC.CTRL_VAL_LO → k ≠ DSC.CTRL_VAL_LO + 4 → (w.set64 DSC.CTRL_VAL_LO (ofSigned 64 x)).reg k = w.reg k :=
    fun k => State.reg_set64_ne hw
  have hkeys : ∀ k ∈ valueKeys 0, k ≠ DSC.CTRL_VAL_LO ∧ k ≠ DSC.CTRL_VAL_LO + 4 := by decide
  exact ⟨State.set64_regsWf hw, (State.rho_congr fun k hk => hkeep k (hkeys k hk).1 (hkeys k hk).2).trans hrho,
    State.reg64_set64 hw (ofSigned_lt 64 x), fun k hk hne hne4 => (hkeep k hne hne4).trans (hreg k hk), hraw, hsteps, hdsc⟩

end

end Sys2Proof.Machine

namespace Sys2Proof.Machine

/-! ### Signals beside a change of the part of DSC -/

/-- `t` is `s` but for the part of DSC beyond its registers, the registers `ks` and what signalling changes. -/
abbrev DscSignals (ks : List Nat) (s t : State) : Prop := Signals ks { s with dsc := t.dsc } t

section
variable {ks : List Nat} {s t u : State}

theorem DscSignals.of_signals (h : Signals ks s t) : DscSignals ks s t := by
  rw [DscSignals, h.dsc]
  exact h

theorem DscSignals.setDsc (s : State) (f : DscS → DscS) : DscSignals ks s (s.setDsc f) := Signals.refl ks _

theorem DscSignals.trans (h : DscSignals ks s t) (g : DscSignals ks t u) : DscSignals ks s u :=
  Signals.trans (Signals.setDsc h fun _ => u.dsc) g

theorem DscSignals.regsWf (h : DscSignals ks s t) (w : s.RegsWf) : t.RegsWf := Signals.regsWf h w

theorem DscSignals.reg (h : DscSignals ks s t) (w : s.RegsWf) {k : Nat} (hk : k ∉ ks) (ha : k ∉ alarmKeys) : t.reg k = s.reg k :=
  Signals.reg h w k hk ha

/-- Where a state reads alike but for its part of DSC, timescale 0 reads alike. -/
theorem DscSignals.tsNow (h : DscSignals ks s t) (w : s.RegsWf) (hks : ∀ k ∈ ks, 0x20800 ≤ k) : t.tsNow 0 = s.tsNow 0 :=
  State.tsNow_of_signals (n := 0) h w hks (by decide)

end

/-! ### A measurement is taken from its queue (R125) -/

section
variable {s t : State} {n : Nat} {p : Smp} {r : List Smp}

/-- The slots' part of REF and the fabric's part replaced. -/
def State.taken (s : State) (slots : Store RSlot) (fab : FabS) : State := { s with ref := { s.ref with slots := slots }, fab := fab }

/-- The oldest measurement of a slot is taken: the slot's part of REF and the tokens of its queue change. -/
theorem State.takeSmp_waiting (h : (s.slot n).wait = p :: r) : ∃ slots fab, s.takeSmp n = (s.taken slots fab, some p) := by
  unfold State.takeSmp
  dsimp only
  rw [h]
  dsimp only
  split
  · unfold State.qPut
    dsimp only
    split <;> exact ⟨_, _, rfl⟩
  · exact ⟨_, _, rfl⟩

theorem State.advance_slot (i : Nat) : (s.advance i).slot n = s.slot n := by rw [State.slot, s.advance_ref, State.slot]

theorem State.advance_ups (i : Nat) : (s.advance i).ref.ups = s.ref.ups := by rw [s.advance_ref]

theorem State.advance_standby (i : Nat) : (s.advance i).standby = s.standby := by
  rw [State.standby, s.advance_on, s.advance_rd, State.standby]

theorem State.active_lt (h : s.active = some n) : n < 16 := by
  unfold State.active at h
  split at h
  · rw [← Option.some.inj h]
    exact bitsOf_lt _ _ 4
  · cases h

/-! ### What the gains of the loops are formed with (R126, R127) -/

theorem State.phaseBearing_congr (hreg : ∀ k, ¬ dscReg k → t.reg k = s.reg k) (hn : n < 16) : t.phaseBearing n = s.phaseBearing n := by
  have hcfg : t.reg (REF.SLOT_CFG n) = s.reg (REF.SLOT_CFG n) := hreg _ (by unfold dscReg REF.SLOT_CFG; omega)
  have htype : t.bindType n = s.bindType n := State.rd_congr hcfg
  have hindex : t.bindIndex n = s.bindIndex n := State.rd_congr hcfg
  have hlt : s.bindIndex n < 8 := bitsOf_lt _ _ 3
  have hin : t.reg (REF.IN_CFG (s.bindIndex n)) = s.reg (REF.IN_CFG (s.bindIndex n)) := hreg _ (by unfold dscReg REF.IN_CFG; omega)
  have hmode : t.rd (REF.IN_CFG_MODE (s.bindIndex n)) = s.rd (REF.IN_CFG_MODE (s.bindIndex n)) := State.rd_congr hin
  have hcomp : t.on (REF.IN_CFG_COMP_EN (s.bindIndex n)) = s.on (REF.IN_CFG_COMP_EN (s.bindIndex n)) := State.on_congr hin
  simp only [State.phaseBearing, htype, hindex, hmode, hcomp]

theorem State.smpInt_congr (hreg : ∀ k, ¬ dscReg k → t.reg k = s.reg k) (hups : t.ref.ups = s.ref.ups) (hn : n < 16) :
    t.smpInt n = s.smpInt n := by
  have hcfg : t.reg (REF.SLOT_CFG n) = s.reg (REF.SLOT_CFG n) := hreg _ (by unfold dscReg REF.SLOT_CFG; omega)
  have htype : t.bindType n = s.bindType n := State.rd_congr hcfg
  have hindex : t.bindIndex n = s.bindIndex n := State.rd_congr hcfg
  have hphase := State.phaseBearing_congr hreg hn
  have hformat : t.rd VID.GL_CFG_FORMAT = s.rd VID.GL_CFG_FORMAT := State.rd_congr (hreg _ (by decide))
  have hframe : t.glFrame = s.glFrame := by simp only [State.glFrame, hformat]
  simp only [State.smpInt, htype, hindex, hphase, hframe, State.upq, hups]

theorem State.mainLoop_congr (hloop : t.reg (DSC.SLOT_LOOP n) = s.reg (DSC.SLOT_LOOP n)) (hcfg : t.reg DSC.LOOP_CFG = s.reg DSC.LOOP_CFG) :
    t.mainLoop n = s.mainLoop n := by
  have hown : t.on (DSC.SLOT_LOOP_OVERRIDE n) = s.on (DSC.SLOT_LOOP_OVERRIDE n) := State.on_congr hloop
  have hbw : t.rd (DSC.SLOT_LOOP_BW n) = s.rd (DSC.SLOT_LOOP_BW n) := State.rd_congr hloop
  have hdamp : t.rd (DSC.SLOT_LOOP_DAMP n) = s.rd (DSC.SLOT_LOOP_DAMP n) := State.rd_congr hloop
  have hmain : t.rd DSC.LOOP_CFG_MAIN_BW = s.rd DSC.LOOP_CFG_MAIN_BW := State.rd_congr hcfg
  have hmaind : t.rd DSC.LOOP_CFG_DAMP = s.rd DSC.LOOP_CFG_DAMP := State.rd_congr hcfg
  simp only [State.mainLoop, hown, hbw, hdamp, hmain, hmaind]

theorem State.loopOpen_congr (hcfg : t.reg DSC.LOOP_CFG = s.reg DSC.LOOP_CFG) (hstate : t.reg DSC.STATE = s.reg DSC.STATE) :
    t.loopOpen = s.loopOpen := by
  have hopen : t.on DSC.LOOP_CFG_MAIN_OPEN = s.on DSC.LOOP_CFG_MAIN_OPEN := State.on_congr hcfg
  have hlapsed : t.on DSC.STATE_SW_LAPSED = s.on DSC.STATE_SW_LAPSED := State.on_congr hstate
  rw [State.loopOpen, hopen, hlapsed, State.loopOpen]

theorem State.advance_loopOpen (i : Nat) : (s.advance i).loopOpen = s.loopOpen :=
  State.loopOpen_congr (s.advance_reg i _) (s.advance_reg i _)

/-- The bandwidth code in effect for the main loop with active slot `n` (R127). -/
def State.loopCode (s : State) (n : Nat) : Nat := effBw (s.mainLoop n).1 (s.smpInt n)

/-- The integral after an error `e` (R126). -/
def State.loopI (s : State) (n : Nat) (e : Int) : Int := s.dsc.want + kiE (s.loopCode n) (s.mainLoop n).2 (s.smpInt n) e

/-- The proportional part of an error `e` (R126). -/
def State.loopP (s : State) (n : Nat) (e : Int) : Int := kpE (s.loopCode n) (s.mainLoop n).2 e

/-! ### I takes a value at once where the ramp is off (R136) -/

/-- DSC's own part after I took a value at timescale-0 time `now`. -/
def DscS.moved (want : Int) (now : Nat) (d : DscS) : DscS := { d with i := want, want := want, updT0 := now }

theorem State.moveI_at_once (h : s.on DSC.PULL_CFG_FRAMP_EN = false) (want : Int) :
    s.moveI want = s.setDsc (DscS.moved want (s.tsNow 0)) := by
  simp only [State.moveI, h, Bool.false_eq_true, if_false]
  rfl

/-! ### A sample of the main loop (R125 to R129) -/

/-- The error of a sample measured, judged and shown. -/
def State.showPd (s : State) (n : Nat) (p : Smp) : State :=
  let e := p.phi - s.dsc.build
  let s1 := (s.setN DSC.PD_PHASE (ofSigned 32 (phaseReg e))).judgeLock e (s.nuOf n)
  match s.nuOf n with
  | some v => s1.setSat DSC.PD_FREQ v
  | none => s1.setN DSC.PD_FREQ 0x80000000

theorem State.showPd_regsOnly (s : State) (n : Nat) (p : Smp) :
    RegsOnly [DSC.PD_PHASE, DSC.PD_FREQ] { s with dsc := (s.showPd n p).dsc } (s.showPd n p) := by
  have hphase := fun d v => (RegsOnly.refl [DSC.PD_PHASE, DSC.PD_FREQ] { s with dsc := d }).setN DSC.PD_PHASE v (by decide)
  unfold State.showPd
  cases s.nuOf n with
  | some v => exact (hphase _ _).setN DSC.PD_FREQ _ (by decide)
  | none => exact (hphase _ _).setN DSC.PD_FREQ _ (by decide)

theorem State.showPd_want (s : State) (n : Nat) (p : Smp) : (s.showPd n p).dsc.want = s.dsc.want := by
  unfold State.showPd
  cases s.nuOf n <;> rfl

theorem State.showPd_phase (hr : s.RegsWf) : (s.showPd n p).nreg DSC.PD_PHASE = ofSigned 32 (phaseReg (p.phi - s.dsc.build)) := by
  have hval : (s.setN DSC.PD_PHASE (ofSigned 32 (phaseReg (p.phi - s.dsc.build)))).nreg DSC.PD_PHASE = _ := s.nreg_setN _ _ hr
  rw [Nat.mod_eq_of_lt (ofSigned_lt 32 _)] at hval
  have hkeep : ∀ d v, (({ s.setN DSC.PD_PHASE (ofSigned 32 (phaseReg (p.phi - s.dsc.build))) with dsc := d } : State).setN
      DSC.PD_FREQ v).nreg DSC.PD_PHASE = ofSigned 32 (phaseReg (p.phi - s.dsc.build)) := fun d v =>
    (State.nreg_setN_ne _ _ _ _ (s.setN_regsWf DSC.PD_PHASE _ hr) (by decide)).trans hval
  unfold State.showPd
  cases s.nuOf n with
  | some v => exact hkeep _ _
  | none => exact hkeep _ _

/-- With software steering, a sample is measured and nothing more. -/
theorem State.mainUpdate_open (h : (s.showPd n p).loopOpen = true) : s.mainUpdate n p = s.showPd n p := if_pos h

/-- The code in effect shown for active slot `n`. -/
def State.showCode (s : State) (n : Nat) : State := s.showBw (s.mainLoop n).1 (s.loopCode n)

theorem State.showCode_signals (s : State) (n : Nat) : Signals [DSC.STICKY, DSC.STATE] s (s.showCode n) := by
  have hstate : ∀ w x y, Signals [DSC.STICKY, DSC.STATE] s w →
      Signals [DSC.STICKY, DSC.STATE] s ((w.wrB DSC.STATE_BW_CLAMPED x).wr DSC.STATE_EFF_BW y) := fun w x y h =>
    (h.trans (Signals.wr w DSC.STATE_BW_CLAMPED _ (.inl (by decide)))).trans (Signals.wr _ DSC.STATE_EFF_BW y (.inl (by decide)))
  unfold State.showCode State.showBw
  dsimp only
  split
  · exact hstate _ _ _ (s.sticky_signals _ rfl (by decide) (.inl (by decide)))
  · exact hstate _ _ _ (Signals.refl _ s)

/-- I moves to `next`, and u is I with the proportional part `kp` added, both held to their limits. -/
def State.steerByPhase (s : State) (next kp : Int) : State :=
  let ovr := beyondU (next + kp)
  let s4 := s.moveI (if ovr && decide (next.natAbs > s.dsc.want.natAbs) then s.dsc.want else next)
  let s5 := if ovr then s4.sticky DSC.STICKY_CTRL_LIMIT else s4
  s5.emitU (clampU (s5.dsc.i + kp))

/-- Within the limits and with the ramp off, I is `next` at once. -/
theorem State.steerByPhase_within {next kp : Int} (hramp : s.on DSC.PULL_CFG_FRAMP_EN = false) (hlim : beyondU (next + kp) = false) :
    s.steerByPhase next kp = (s.setDsc (DscS.moved next (s.tsNow 0))).emitU (clampU (next + kp)) := by
  simp only [State.steerByPhase, hlim, Bool.false_and, Bool.false_eq_true, if_false, State.moveI_at_once hramp]
  rfl

/-- Outside a frequency pull, a sample steers by its error. -/
theorem State.mainUpdate_phase {v : State} (hv : s.showPd n p = v) (hopen : v.loopOpen = false) (hkind : (v.showCode n).pullKind ≠ 1) :
    s.mainUpdate n p = (v.showCode n).steerByPhase (v.loopI n (p.phi - s.dsc.build)) (v.loopP n (p.phi - s.dsc.build)) := by
  have hwant : (v.showCode n).dsc.want = v.dsc.want := by rw [(v.showCode_signals n).dsc]
  subst hv
  rw [State.loopI, ← hwant]
  exact (if_neg (Bool.not_eq_true _ ▸ hopen)).trans (if_neg hkind)

/-- What the main loop is formed with reads alike. -/
structure LoopAlike (n : Nat) (s t : State) : Prop where
  code : t.loopCode n = s.loopCode n
  i : ∀ e, t.loopI n e = s.loopI n e
  p : ∀ e, t.loopP n e = s.loopP n e

theorem LoopAlike.of_congr (hreg : ∀ k, ¬ dscReg k → t.reg k = s.reg k) (hloop : t.reg (DSC.SLOT_LOOP n) = s.reg (DSC.SLOT_LOOP n))
    (hcfg : t.reg DSC.LOOP_CFG = s.reg DSC.LOOP_CFG) (hups : t.ref.ups = s.ref.ups) (hwant : t.dsc.want = s.dsc.want) (hn : n < 16) :
    LoopAlike n s t := by
  have hint := State.smpInt_congr hreg hups hn
  have hgains := State.mainLoop_congr hloop hcfg
  have hcode : t.loopCode n = s.loopCode n := by rw [State.loopCode, hint, hgains, State.loopCode]
  exact ⟨hcode, fun e => by rw [State.loopI, hwant, hcode, hgains, hint, State.loopI],
    fun e => by rw [State.loopP, hcode, hgains, State.loopP]⟩

theorem State.showPd_loopAlike (hr : s.RegsWf) (hn : n < 16) : LoopAlike n s (s.showPd n p) := by
  have hpd := s.showPd_regsOnly n p
  refine .of_congr (fun k hk => hpd.reg hr k fun hmem => hk ?_) (hpd.reg hr _ ?_) (hpd.reg hr _ (by decide)) (by rw [hpd.eq])
    (s.showPd_want n p) hn
  · exact (by decide : ∀ k ∈ [DSC.PD_PHASE, DSC.PD_FREQ], dscReg k) k hmem
  · simp only [DSC.SLOT_LOOP, DSC.PD_PHASE, DSC.PD_FREQ, List.mem_cons, List.not_mem_nil, or_false]
    omega

theorem State.pullKind_congr (h : t.reg DSC.PULL_STAT = s.reg DSC.PULL_STAT) : t.pullKind = s.pullKind := State.rd_congr h

/-- A sample of active slot `n` outside a frequency pull, with a value within its limits and the ramp off. -/
theorem State.mainUpdate_spec (hr : s.RegsWf) (ht : Store.wf dTs s.tsc.ts = true) (hn : n < 16) (hopen : s.loopOpen = false)
    (hkind : s.pullKind ≠ 1) (hramp : s.on DSC.PULL_CFG_FRAMP_EN = false)
    {e : Int} (he : p.phi - s.dsc.build = e) (hlim : beyondU (s.loopI n e + s.loopP n e) = false) :
    let u := s.mainUpdate n p
    u.dsc.i = s.loopI n e ∧ u.rho 0 = clampU (s.loopI n e + s.loopP n e) ∧ u.reg64 DSC.CTRL_VAL_LO = ofSigned 64 (u.rho 0)
      ∧ u.nreg DSC.PD_PHASE = ofSigned 32 (phaseReg e) ∧ u.raw = s.raw := by
  intro u
  have hpd := s.showPd_regsOnly n p
  have halike := State.showPd_loopAlike (p := p) hr hn
  have hphase := State.showPd_phase (n := n) (p := p) hr
  rw [he] at hphase
  have hopen' : (s.showPd n p).loopOpen = false :=
    (State.loopOpen_congr (hpd.reg hr _ (by decide)) (hpd.reg hr _ (by decide))).trans hopen
  have hv := hpd.regsWf hr
  have hcode := (s.showPd n p).showCode_signals n
  have hstands : ∀ k, k ∉ [DSC.PD_PHASE, DSC.PD_FREQ] → k ∉ [DSC.STICKY, DSC.STATE] → k ∉ alarmKeys →
      ((s.showPd n p).showCode n).reg k = s.reg k := fun k hk hk' ha => (hcode.reg hv k hk' ha).trans (hpd.reg hr k hk)
  have hkind' : ((s.showPd n p).showCode n).pullKind ≠ 1 := by
    rwa [State.pullKind_congr (hstands _ (by decide) (by decide) (by decide))]
  have hramp' : ((s.showPd n p).showCode n).on DSC.PULL_CFG_FRAMP_EN = false :=
    (State.on_congr (hstands _ (by decide) (by decide) (by decide))).trans hramp
  have hu : u = _ := State.mainUpdate_phase rfl hopen' hkind'
  rw [he, halike.i, halike.p, State.steerByPhase_within hramp' hlim] at hu
  have hw := hcode.regsWf hv
  have hemit := State.emitU_emitted (s := ((s.showPd n p).showCode n).setDsc
    (DscS.moved (s.loopI n e) (((s.showPd n p).showCode n).tsNow 0))) hw
    (by rw [show (((s.showPd n p).showCode n).setDsc _).tsc = (s.showPd n p).tsc from hcode.tsc, hpd.eq]; exact ht)
    (neg_uMax_le_clampU (s.loopI n e + s.loopP n e)) (clampU_le_uMax _)
  rw [← hu] at hemit
  refine ⟨by rw [hemit.dsc]; rfl, hemit.rho, hemit.rho ▸ hemit.shown, ?_, hemit.raw.trans (hcode.raw.trans (by rw [hpd.eq]))⟩
  rw [State.nreg, hemit.keeps]
  exact (hcode.nreg_eq hv (by decide) (by decide)).trans hphase

end

end Sys2Proof.Machine

namespace Sys2Proof.Machine

/-! ### A sample of the active slot and of the standby (R126, R128) -/

section
variable {s : State} {n : Nat} {p : Smp} {r : List Smp}

theorem exec_loopUpdate_waiting (hact : s.active = some n) (hrun : s.sqRuns sqMain = true) (hwait : (s.slot n).wait = p :: r) (t : Nat) :
    ∃ slots fab, exec (.loopUpdate t) s = .next (((s.advance t).taken slots fab).mainUpdate n p) := by
  obtain ⟨slots, fab, htake⟩ := State.takeSmp_waiting ((congrArg RSlot.wait (s.advance_slot t)).trans hwait)
  refine ⟨slots, fab, ?_⟩
  show execLoopUpdate t s = _
  simp only [execLoopUpdate, s.advance_active, hact, s.advance_sqRuns, hrun, htake, if_true]

theorem exec_loopUpdate_idle (h : s.active = none ∨ s.sqRuns sqMain = false) (t : Nat) :
    exec (.loopUpdate t) s = .next (s.advance t) := by
  show execLoopUpdate t s = _
  unfold execLoopUpdate
  simp only [s.advance_active, s.advance_sqRuns]
  cases hact : s.active with
  | none => rfl
  | some n => simp [h.resolve_left (by simp [hact])]

theorem State.taken_loopAlike (hn : n < 16) (t : Nat) (slots : Store RSlot) (fab : FabS) : LoopAlike n s ((s.advance t).taken slots fab) :=
  .of_congr (fun k _ => s.advance_reg t k) (s.advance_reg t _) (s.advance_reg t _) (s.advance_ups t)
    (congrArg DscS.want (s.advance_dsc t)) hn

/-- Outside a frequency pull, a sample within the limits moves I and gives timescale 0 its rate. -/
theorem exec_loopUpdate_steers (hc : s.Canon) (hact : s.active = some n) (hrun : s.sqRuns sqMain = true) (hwait : (s.slot n).wait = p :: r)
    (hopen : s.loopOpen = false) (hkind : s.pullKind ≠ 1) (hramp : s.on DSC.PULL_CFG_FRAMP_EN = false)
    (hlim : (roundDiv (s.loopI n (p.phi - s.dsc.build) + s.loopP n (p.phi - s.dsc.build)) (2 ^ 64)).natAbs ≤ 2 ^ 54) (t : Nat) :
    ∃ u, exec (.loopUpdate t) s = .next u ∧ u.dsc.i = s.loopI n (p.phi - s.dsc.build)
      ∧ u.rho 0 = clampU (u.dsc.i + s.loopP n (p.phi - s.dsc.build)) ∧ u.reg64 DSC.CTRL_VAL_LO = ofSigned 64 (u.rho 0)
      ∧ u.nreg DSC.PD_PHASE = ofSigned 32 (phaseReg (p.phi - s.dsc.build)) ∧ u.raw = (s.advance t).raw := by
  obtain ⟨slots, fab, hexec⟩ := exec_loopUpdate_waiting hact hrun hwait t
  have hn := State.active_lt hact
  have halike : LoopAlike n s ((s.advance t).taken slots fab) := State.taken_loopAlike hn t slots fab
  have hbuild : ((s.advance t).taken slots fab).dsc.build = s.dsc.build := congrArg DscS.build (s.advance_dsc t)
  have hspec := State.mainUpdate_spec (s := (s.advance t).taken slots fab) (n := n) (p := p) (State.advance_canon hc t).regs
    (State.advance_canon hc t).ts hn ((s.advance_loopOpen t).trans hopen) (fun h => hkind ((s.advance_rd t _).symm.trans h))
    ((s.advance_on t _).trans hramp) (congrArg (p.phi - ·) hbuild) (by
      rw [halike.i, halike.p]
      exact decide_eq_false (Nat.not_lt.mpr hlim))
  rw [halike.i, halike.p] at hspec
  obtain ⟨hi, hrho, hval, hphase, hraw⟩ := hspec
  exact ⟨_, hexec, hi, hi.symm ▸ hrho, hval, hphase, hraw⟩

/-- With software steering a sample is shown, and neither timescale 0 nor another register changes. -/
theorem exec_loopUpdate_open (hr : s.RegsWf) (hact : s.active = some n) (hrun : s.sqRuns sqMain = true) (hwait : (s.slot n).wait = p :: r)
    (hopen : s.loopOpen = true) (t : Nat) :
    ∃ u, exec (.loopUpdate t) s = .next u ∧ u.nreg DSC.PD_PHASE = ofSigned 32 (phaseReg (p.phi - s.dsc.build)) ∧ u.tsc = s.tsc
      ∧ ∀ j, j ≠ DSC.PD_PHASE → j ≠ DSC.PD_FREQ → u.reg j = s.reg j := by
  obtain ⟨slots, fab, hexec⟩ := exec_loopUpdate_waiting hact hrun hwait t
  have hw : ((s.advance t).taken slots fab).RegsWf := State.advance_regsWf hr t
  have hpd := ((s.advance t).taken slots fab).showPd_regsOnly n p
  have hreg : ∀ j, j ∉ [DSC.PD_PHASE, DSC.PD_FREQ] → (((s.advance t).taken slots fab).showPd n p).reg j = s.reg j := fun j hj =>
    (hpd.reg hw j hj).trans (s.advance_reg t j)
  have hopen' : (((s.advance t).taken slots fab).showPd n p).loopOpen = true :=
    (State.loopOpen_congr (hreg _ (by decide)) (hreg _ (by decide))).trans hopen
  refine ⟨_, hexec.trans (congrArg _ (State.mainUpdate_open hopen')), ?_, ?_, fun j hj hj' => hreg j (by simp [hj, hj'])⟩
  · rw [State.showPd_phase hw]
    exact congrArg (fun d : DscS => ofSigned 32 (phaseReg (p.phi - d.build))) (s.advance_dsc t)
  · rw [hpd.eq]
    exact s.advance_tsc t

theorem exec_fallbackUpdate_waiting (hsb : s.standby = some n) (hrun : s.sqRuns sqFallback = true) (hwait : (s.slot n).wait = p :: r)
    (t : Nat) : ∃ slots fab, exec (.fallbackUpdate t) s = .next (((s.advance t).taken slots fab).fbFollow.fbUpdate n p) := by
  obtain ⟨slots, fab, htake⟩ := State.takeSmp_waiting ((congrArg RSlot.wait (s.advance_slot t)).trans hwait)
  refine ⟨slots, fab, ?_⟩
  show execFallbackUpdate t s = _
  simp only [execFallbackUpdate, s.advance_standby, hsb, s.advance_sqRuns, hrun, htake, if_true]

theorem exec_fallbackUpdate_idle (h : s.standby = none ∨ s.sqRuns sqFallback = false) (t : Nat) :
    exec (.fallbackUpdate t) s = .next (s.advance t) := by
  show execFallbackUpdate t s = _
  unfold execFallbackUpdate
  simp only [s.advance_standby, s.advance_sqRuns]
  cases hsb : s.standby with
  | none => rfl
  | some n => simp [h.resolve_left (by simp [hsb])]

theorem State.standby_lt (h : s.standby = some n) : n < 16 := by
  unfold State.standby at h
  split at h
  · rw [← Option.some.inj h]
    exact bitsOf_lt _ _ 4
  · cases h

/-! ### The fallback loop (R128, R131) -/

/-- Whether the fallback loop is settled is shown, and its tracking may begin anew. -/
theorem State.fbSettle_regsOnly (s : State) :
    ∃ since, RegsOnly [DSC.STATE] { s with dsc := { s.dsc with fbSince := since } } s.fbSettle := by
  have hshow := fun since v => (RegsOnly.refl [DSC.STATE] { s with dsc := { s.dsc with fbSince := since } }).wr DSC.STATE_FB_SETTLED v
    (by decide)
  unfold State.fbSettle
  cases s.dsc.fbSlot with
  | none => exact ⟨_, hshow s.dsc.fbSince 0⟩
  | some n =>
    dsimp only
    split
    · exact ⟨_, hshow _ 0⟩
    · exact ⟨_, hshow s.dsc.fbSince _⟩

/-- The bandwidth code in effect for the fallback loop with standby `n` (R127, R128). -/
def State.fbCode (s : State) (n : Nat) : Nat := effBw (s.fallbackBw n) (s.smpInt n)

/-- The integral of the fallback loop after a phase `x`. -/
def State.fbNextI (s : State) (n : Nat) (x : Int) : Int := s.dsc.fbI + kiE (s.fbCode n) 1 (s.smpInt n) x

/-- The value of the fallback loop after a phase `x`. -/
def State.fbVal (s : State) (n : Nat) (x : Int) : Int := saturate 64 (roundDiv (s.fbNextI n x + kpE (s.fbCode n) 1 x) (2 ^ 64))

/-- The fallback loop takes a phase `x`: its integral, and the value shown. -/
def State.fbTake (s : State) (n : Nat) (x : Int) : State :=
  (s.setDsc (fun d => { d with fbI := s.fbNextI n x })).set64 DSC.FB_VAL_LO (ofSigned 64 (s.fbVal n x))

theorem State.fbUpdate_closed (h : s.on DSC.LOOP_CFG_FB_OPEN = false) : s.fbUpdate n p = (s.fbTake n p.phi).fbSettle :=
  if_neg (Bool.not_eq_true _ ▸ h)

theorem State.fbUpdate_spec (hr : s.RegsWf) (h : s.on DSC.LOOP_CFG_FB_OPEN = false) :
    let u := s.fbUpdate n p
    u.dsc.fbI = s.fbNextI n p.phi ∧ u.reg64 DSC.FB_VAL_LO = ofSigned 64 (s.fbVal n p.phi) ∧ u.tsc = s.tsc ∧ u.dsc.i = s.dsc.i
      ∧ ∀ j, j ∉ [DSC.FB_VAL_LO, DSC.FB_VAL_LO + 4, DSC.STATE] → u.reg j = s.reg j := by
  intro u
  have hu : u = (s.fbTake n p.phi).fbSettle := State.fbUpdate_closed h
  obtain ⟨since, hsettle⟩ := (s.fbTake n p.phi).fbSettle_regsOnly
  have hw : (s.fbTake n p.phi).RegsWf := State.set64_regsWf (s := s.setDsc _) hr
  rw [← hu] at hsettle
  have hreg : ∀ j, j ∉ [DSC.STATE] → u.reg j = (s.fbTake n p.phi).reg j := fun j hj => hsettle.reg hw j hj
  refine ⟨by rw [hsettle.eq]; rfl, ?_, by rw [hsettle.eq]; rfl, by rw [hsettle.eq]; rfl, fun j hj => ?_⟩
  · rw [State.reg64_congr (hreg _ (by decide)) (hreg _ (by decide))]
    exact State.reg64_set64 (s := s.setDsc _) hr (ofSigned_lt 64 _)
  · simp only [List.mem_cons, List.not_mem_nil, or_false, not_or] at hj
    obtain ⟨hlo, hhi, hstate⟩ := hj
    exact (hreg j (by simpa using hstate)).trans (State.reg_set64_ne (s := s.setDsc _) hr hlo hhi)

theorem State.fallbackBw_congr {t : State} (hreg : ∀ k, t.reg k = s.reg k) (hn : n < 16) : t.fallbackBw n = s.fallbackBw n := by
  have hrd : ∀ f, t.rd f = s.rd f := fun f => State.rd_congr (hreg f.addr)
  have htype : t.bindType n = s.bindType n := hrd _
  simp only [State.fallbackBw, htype, State.phaseBearing_congr (fun k _ => hreg k) hn, hrd]

theorem exec_fallbackUpdate_tracks (hr : s.RegsWf) (hsb : s.standby = some n) (hrun : s.sqRuns sqFallback = true)
    (hwait : (s.slot n).wait = p :: r) (hopen : s.on DSC.LOOP_CFG_FB_OPEN = false) (hslot : s.dsc.fbSlot = some n) (t : Nat) :
    ∃ u, exec (.fallbackUpdate t) s = .next u ∧ u.dsc.fbI = s.fbNextI n p.phi
      ∧ u.reg64 DSC.FB_VAL_LO = ofSigned 64 (s.fbVal n p.phi) ∧ u.tsc = s.tsc ∧ u.dsc.i = s.dsc.i
      ∧ ∀ j, j ∉ [DSC.FB_VAL_LO, DSC.FB_VAL_LO + 4, DSC.STATE] → u.reg j = s.reg j := by
  obtain ⟨slots, fab, hexec⟩ := exec_fallbackUpdate_waiting hsb hrun hwait t
  have hfollow : ((s.advance t).taken slots fab).fbFollow = (s.advance t).taken slots fab :=
    if_pos ((s.advance_standby t).trans (hsb.trans ((congrArg DscS.fbSlot (s.advance_dsc t)).trans hslot).symm))
  have hint : ((s.advance t).taken slots fab).smpInt n = s.smpInt n :=
    State.smpInt_congr (fun k _ => s.advance_reg t k) (s.advance_ups t) (State.standby_lt hsb)
  have hbw : ((s.advance t).taken slots fab).fallbackBw n = s.fallbackBw n :=
    State.fallbackBw_congr (fun k => s.advance_reg t k) (State.standby_lt hsb)
  have hcode : ((s.advance t).taken slots fab).fbCode n = s.fbCode n := by rw [State.fbCode, hint, hbw, State.fbCode]
  have hdsc : ((s.advance t).taken slots fab).dsc = s.dsc := s.advance_dsc t
  have hi : ∀ x, ((s.advance t).taken slots fab).fbNextI n x = s.fbNextI n x := fun x => by
    rw [State.fbNextI, hdsc, hcode, hint, State.fbNextI]
  have hval : ∀ x, ((s.advance t).taken slots fab).fbVal n x = s.fbVal n x := fun x => by rw [State.fbVal, hi, hcode, State.fbVal]
  have hspec := State.fbUpdate_spec (s := (s.advance t).taken slots fab) (n := n) (p := p) (State.advance_regsWf hr t)
    ((s.advance_on t _).trans hopen)
  rw [hi, hval, hdsc] at hspec
  obtain ⟨hfb, hshown, htsc, hmain, hreg⟩ := hspec
  exact ⟨_, by rw [hexec, hfollow], hfb, hshown, htsc.trans (s.advance_tsc t), hmain, fun j hj => (hreg j hj).trans (s.advance_reg t j)⟩

end

end Sys2Proof.Machine

namespace Sys2Proof.Machine

/-! ### The holdover value (R146) -/

section
variable {s t : State} {h : Hold}

/-- A value in units of 2^-128 held to the limits of u. -/
def heldU (x : Int) : Int := if beyondU x then clampU x * 2 ^ 64 else x

theorem clampU_heldU (x : Int) : clampU (heldU x) = clampU x := by
  unfold heldU
  split
  · exact clampU_mul (neg_uMax_le_clampU x) (clampU_le_uMax x)
  · rfl

/-- I moves to the holdover value, and CTRL_LIMIT tells of one beyond the limits. -/
def State.moveHo (s : State) (h : Hold) : State :=
  if beyondU (s.uHo h) then (s.moveI (heldU (s.uHo h))).sticky DSC.STICKY_CTRL_LIMIT else s.moveI (heldU (s.uHo h))

theorem State.moveHo_signals (s : State) (h : Hold) : DscSignals [DSC.STICKY] s (s.moveHo h) := by
  have hmove : DscSignals [DSC.STICKY] s (s.moveI (heldU (s.uHo h))) := DscSignals.setDsc s _
  unfold State.moveHo
  split
  · exact hmove.trans (.of_signals (State.sticky_signals _ _ rfl (by decide) (.inl (by decide))))
  · exact hmove

theorem State.moveHo_i (hramp : s.on DSC.PULL_CFG_FRAMP_EN = false) : (s.moveHo h).dsc.i = heldU (s.uHo h) := by
  unfold State.moveHo
  rw [State.moveI_at_once hramp]
  split
  · rw [(State.sticky_signals (ks := [DSC.STICKY]) _ DSC.STICKY_CTRL_LIMIT rfl (by decide) (.inl (by decide))).dsc]
    rfl
  · rfl

theorem State.moveHo_limit (hr : s.RegsWf) (hb : beyondU (s.uHo h) = true) : (s.moveHo h).on DSC.STICKY_CTRL_LIMIT = true := by
  rw [State.moveHo, if_pos hb]
  exact State.sticky_on _ _ hr rfl (by decide) (by decide)

theorem State.applyHo_eq (hhold : s.dsc.hold = some h) (hsw : (s.loopOpen && s.on DSC.LOOP_CFG_SW_HOLDOVER) = false) :
    s.applyHo = (s.moveHo h).emitU (clampU (s.moveHo h).dsc.i) := by
  unfold State.applyHo
  simp only [hhold, hsw, Bool.false_eq_true, if_false, State.moveHo, heldU]

theorem State.ageFit_congr (hd : t.dsc = s.dsc) : t.ageFit = s.ageFit := by
  simp only [State.ageFit, State.recU, hd]

/-- The holdover value is not formed with what `DSC.HO_STAT` shows. -/
theorem State.uHo_of_signals (hs : Signals [DSC.HO_STAT] s t) (hr : s.RegsWf) : t.uHo h = s.uHo h := by
  have hnow : t.tsNow 0 = s.tsNow 0 := State.tsNow_of_signals (n := 0) hs hr (by decide) (by decide)
  have hw : t.rd DSC.HO_WINDOW_W = s.rd DSC.HO_WINDOW_W := hs.rd_eq hr (by decide) (by decide)
  have hg : t.rd DSC.HO_WINDOW_G = s.rd DSC.HO_WINDOW_G := hs.rd_eq hr (by decide) (by decide)
  have hage : t.on DSC.AGE_STAT_VALID = s.on DSC.AGE_STAT_VALID := hs.on_eq hr (by decide) (by decide)
  have hgrotto : t.grottoActive = s.grottoActive := hs.on_eq (f := TSC.LO_STAT_ACTIVE) hr (by decide) (by decide)
  have hcoef : t.sreg DSC.HO_TEMP_COEF = s.sreg DSC.HO_TEMP_COEF := congrArg (toSigned 32) (hs.nreg_eq hr (by decide) (by decide))
  have htheta : t.theta = s.theta := congrArg (toSigned 32) (hs.nreg_eq (k := GRT.AMBIENT_T) hr (by decide) (by decide))
  simp only [State.uHo, hnow, hw, hg, hage, hgrotto, hcoef, htheta, State.ageFit_congr hs.dsc]

/-- The seconds of holdover elapsed, as shown. -/
def State.hoElapsed (s : State) (h : Hold) : Nat := min ((s.tsNow 0 - h.t0) / qSec) (2 ^ 24 - 1)

theorem exec_holdoverSecond_holds (hst : s.dstate = dHOLD ∨ s.dstate = dEXPIRED) (hhold : s.dsc.hold = some h) (i : Nat) :
    exec (.holdoverSecond i) s = .next ((s.advance i).wr DSC.HO_STAT_ELAPSED ((s.advance i).hoElapsed h)).applyHo := by
  show execHoldoverSecond i s = _
  have hst' : (s.advance i).dstate = dHOLD ∨ (s.advance i).dstate = dEXPIRED := by rwa [State.dstate, s.advance_rd]
  simp only [execHoldoverSecond, if_pos hst', s.advance_dsc, hhold, State.hoElapsed]

theorem exec_holdoverSecond_idle (hnh : s.dstate ≠ dHOLD) (hne : s.dstate ≠ dEXPIRED) (i : Nat) :
    exec (.holdoverSecond i) s = .next (s.advance i) :=
  congrArg Host.Outcome.next (if_neg fun hst => hst.elim (fun e => hnh ((s.advance_rd i _).symm.trans e))
    fun e => hne ((s.advance_rd i _).symm.trans e))

/-- A second of holdover, with the ramp off: the seconds elapsed, and the holdover value in timescale 0. -/
theorem State.holdover_spec (hr : s.RegsWf) (ht : Store.wf dTs s.tsc.ts = true) (hhold : s.dsc.hold = some h) (hopen : s.loopOpen = false)
    (hramp : s.on DSC.PULL_CFG_FRAMP_EN = false) :
    let u := (s.wr DSC.HO_STAT_ELAPSED (s.hoElapsed h)).applyHo
    u.rd DSC.HO_STAT_ELAPSED = s.hoElapsed h ∧ u.dsc.i = heldU (s.uHo h) ∧ u.rho 0 = clampU (s.uHo h)
      ∧ (beyondU (s.uHo h) = true → u.on DSC.STICKY_CTRL_LIMIT = true) ∧ u.raw = s.raw := by
  have hshow : Signals [DSC.HO_STAT] s (s.wr DSC.HO_STAT_ELAPSED (s.hoElapsed h)) :=
    Signals.wr s DSC.HO_STAT_ELAPSED _ (.inl (by decide))
  have hel : (s.wr DSC.HO_STAT_ELAPSED (s.hoElapsed h)).rd DSC.HO_STAT_ELAPSED = s.hoElapsed h :=
    (s.rd_wr _ _ hr (by decide)).trans (Nat.mod_eq_of_lt (lt_of_le_of_lt (Nat.min_le_right _ _) (by decide)))
  generalize s.wr DSC.HO_STAT_ELAPSED (s.hoElapsed h) = v at hshow hel ⊢
  intro u
  have hv := hshow.regsWf hr
  have hopen' : v.loopOpen = false :=
    (State.loopOpen_congr (hshow.reg hr _ (by decide) (by decide)) (hshow.reg hr _ (by decide) (by decide))).trans hopen
  have hramp' : v.on DSC.PULL_CFG_FRAMP_EN = false := (hshow.on_eq hr (by decide) (by decide)).trans hramp
  have hho : v.uHo h = s.uHo h := State.uHo_of_signals hshow hr
  have hi : (v.moveHo h).dsc.i = heldU (s.uHo h) := hho ▸ State.moveHo_i hramp'
  have hmove := v.moveHo_signals h
  have hu : u = (v.moveHo h).emitU (clampU (s.uHo h)) := by
    rw [← clampU_heldU, ← hi]
    exact State.applyHo_eq (hshow.dsc ▸ hhold) (by rw [hopen', Bool.false_and])
  have hemit := State.emitU_emitted (hmove.regsWf hv) (by rw [hmove.tsc]; exact hshow.tsc ▸ ht)
    (neg_uMax_le_clampU (s.uHo h)) (clampU_le_uMax (s.uHo h))
  rw [← hu] at hemit
  refine ⟨?_, by rw [hemit.dsc]; exact hi, hemit.rho, fun hb => ?_, hemit.raw.trans (hmove.raw.trans hshow.raw)⟩
  · rw [← hel]
    exact State.rd_congr ((hemit.keeps).trans (hmove.reg hv (by decide) (by decide)))
  · exact (State.on_congr (hemit.keeps)).trans
      (State.moveHo_limit hv (hho.symm ▸ hb))

end

/-! ### Software steering (R130) -/

section
variable {s : State} {m val t : Nat}

theorem exec_swCtrlWrite_granted (h : (s.advance t).access m DSC.SW_CTRL_HI .write = .granted) :
    exec (.swCtrlWrite m val t) s = .next ((s.advance t).swWrite (val % 2 ^ 64)) := by
  show execSwCtrlWrite m val t s = _
  simp only [execSwCtrlWrite, h]

/-- Software's value in its registers, with the loop open again. -/
def State.showSw (s : State) (val : Nat) : State := (s.set64 DSC.SW_CTRL_LO val).wr DSC.STATE_SW_LAPSED 0

theorem State.showSw_signals (s : State) (val : Nat) : Signals [DSC.SW_CTRL_LO, DSC.SW_CTRL_LO + 4, DSC.STATE] s (s.showSw val) :=
  ((Signals.setN s DSC.SW_CTRL_LO val (.inl (by decide))).trans (Signals.setN _ (DSC.SW_CTRL_LO + 4) _ (.inl (by decide)))).trans
    (Signals.wr _ DSC.STATE_SW_LAPSED 0 (.inl (by decide)))

/-- DSC's own part after software wrote `u` at timescale-0 time `now`. -/
def DscS.steered (u : Int) (now : Nat) (d : DscS) : DscS := { d with i := u * 2 ^ 64, want := u * 2 ^ 64, swT0 := now }

theorem State.swWrite_taken (hopen : s.on DSC.LOOP_CFG_MAIN_OPEN = true) (hlim : (toSigned 64 val).natAbs ≤ 2 ^ 54)
    (hnh : s.dstate ≠ dHOLD) (hne : s.dstate ≠ dEXPIRED) :
    s.swWrite val = ((s.showSw val).setDsc (DscS.steered (toSigned 64 val) ((s.showSw val).tsNow 0))).emitU (toSigned 64 val) := by
  refine if_neg ?_
  simpa [hopen, hnh, hne] using hlim

theorem State.swWrite_refused (hopen : s.on DSC.LOOP_CFG_MAIN_OPEN = false) : s.swWrite val = s.refuseCfg .dsc :=
  if_pos (by rw [hopen]; rfl)

/-- A value of software within the limits is the rate at once. -/
theorem State.swWrite_spec (hr : s.RegsWf) (ht : Store.wf dTs s.tsc.ts = true) (hval : val < 2 ^ 64)
    (hopen : s.on DSC.LOOP_CFG_MAIN_OPEN = true) (hlim : (toSigned 64 val).natAbs ≤ 2 ^ 54) (hnh : s.dstate ≠ dHOLD)
    (hne : s.dstate ≠ dEXPIRED) :
    (s.swWrite val).rho 0 = toSigned 64 val ∧ (s.swWrite val).reg64 DSC.SW_CTRL_LO = val
      ∧ (s.swWrite val).on DSC.STATE_SW_LAPSED = false ∧ (s.swWrite val).dsc.swT0 = s.tsNow 0 := by
  have hshow := s.showSw_signals val
  have hset : (s.set64 DSC.SW_CTRL_LO val).RegsWf := State.set64_regsWf hr
  have hsw : (s.showSw val).reg64 DSC.SW_CTRL_LO = val :=
    (State.reg64_congr (State.reg_wr_ne _ _ _ _ hset (by decide)) (State.reg_wr_ne _ _ _ _ hset (by decide))).trans
      (State.reg64_set64 hr hval)
  have hlapsed : (s.showSw val).on DSC.STATE_SW_LAPSED = false := State.on_wr_zero hset (by decide) rfl
  rw [State.swWrite_taken hopen hlim hnh hne]
  have hnow : (s.showSw val).tsNow 0 = s.tsNow 0 := State.tsNow_of_signals (n := 0) hshow hr (by decide) (by decide)
  generalize s.showSw val = v at hshow hsw hlapsed hnow ⊢
  have hemit := State.emitU_emitted (s := v.setDsc (DscS.steered (toSigned 64 val) (v.tsNow 0))) (x := toSigned 64 val) (hshow.regsWf hr)
    (hshow.tsc ▸ ht) (by unfold uMax; omega) (by unfold uMax; omega)
  have hreg : ∀ k, dscReg k → k ≠ DSC.CTRL_VAL_LO → k ≠ DSC.CTRL_VAL_LO + 4 → _ = v.reg k := hemit.reg
  exact ⟨hemit.rho, (State.reg64_congr (hemit.keeps)
    (hemit.keeps)).trans hsw,
    (State.on_congr (hemit.keeps)).trans hlapsed, by rw [hemit.dsc]; exact hnow⟩

/-- DSC's own part after software wrote nothing for its time. -/
def DscS.lapsed (u : Int) (d : DscS) : DscS := { d with i := u * 2 ^ 64, want := u * 2 ^ 64 }

/-- Software has lapsed: the loop closes from the last value written. -/
def State.swLapse (s : State) : State :=
  ((s.setDsc (DscS.lapsed (toSigned 64 (s.reg64 DSC.SW_CTRL_LO)))).wr DSC.STATE_SW_LAPSED 1).sticky DSC.STICKY_SW_TIMEOUT

theorem exec_swTimeout_lapses (hopen : s.loopOpen = true)
    (hlate : s.dsc.swT0 + s.rd DSC.LOOP_CFG_SW_TIMEOUT * qSec ≤ (s.advance t).tsNow 0) :
    exec (.swTimeout t) s = .next (s.advance t).swLapse :=
  congrArg Host.Outcome.next (if_pos ⟨(s.advance_loopOpen t).trans hopen, by rw [s.advance_dsc, s.advance_rd]; exact hlate⟩)

theorem exec_swTimeout_idle (hopen : s.loopOpen = false) : exec (.swTimeout t) s = .next (s.advance t) :=
  congrArg Host.Outcome.next (if_neg fun h => by
    rw [s.advance_loopOpen, hopen] at h
    exact absurd h.1 (by decide))

theorem State.swLapse_spec (hr : s.RegsWf) :
    s.swLapse.on DSC.STATE_SW_LAPSED = true ∧ s.swLapse.on DSC.STICKY_SW_TIMEOUT = true ∧ s.swLapse.loopOpen = false
      ∧ s.swLapse.dsc.i = toSigned 64 (s.reg64 DSC.SW_CTRL_LO) * 2 ^ 64 ∧ DscSignals [DSC.STATE, DSC.STICKY] s s.swLapse := by
  have hset := s.setDsc (DscS.lapsed (toSigned 64 (s.reg64 DSC.SW_CTRL_LO))) |>.on_wr DSC.STATE_SW_LAPSED hr (by decide) rfl
  have hw := s.setDsc (DscS.lapsed (toSigned 64 (s.reg64 DSC.SW_CTRL_LO))) |>.wr_regsWf DSC.STATE_SW_LAPSED 1 hr
  have hsig := (DscSignals.setDsc s (DscS.lapsed (toSigned 64 (s.reg64 DSC.SW_CTRL_LO)))).trans (.of_signals
    (Signals.wr _ DSC.STATE_SW_LAPSED 1 (.inl (by decide : _ ∈ [DSC.STATE, DSC.STICKY]))))
  have hi : ((s.setDsc (DscS.lapsed (toSigned 64 (s.reg64 DSC.SW_CTRL_LO)))).wr DSC.STATE_SW_LAPSED 1).dsc.i
    = toSigned 64 (s.reg64 DSC.SW_CTRL_LO) * 2 ^ 64 := rfl
  unfold State.swLapse
  generalize (s.setDsc (DscS.lapsed (toSigned 64 (s.reg64 DSC.SW_CTRL_LO)))).wr DSC.STATE_SW_LAPSED 1 = v at hset hw hsig hi ⊢
  have htell := v.sticky_signals (ks := [DSC.STICKY]) DSC.STICKY_SW_TIMEOUT rfl (by decide) (.inl (by decide))
  have hlapsed : (v.sticky DSC.STICKY_SW_TIMEOUT).on DSC.STATE_SW_LAPSED = true := (htell.on_eq hw (by decide) (by decide)).trans hset
  exact ⟨hlapsed, v.sticky_on _ hw rfl (by decide) (by decide), by rw [State.loopOpen, hlapsed, Bool.not_true, Bool.and_false],
    by rw [htell.dsc, hi], hsig.trans (.of_signals (htell.mono (by simp)))⟩

end

end Sys2Proof.Machine

namespace Sys2Proof.Machine

/-- Settles O32: what each command of the loops leaves is a lemma about the row. -/
theorem loopsSteerTimescaleZero : Obligations.LoopsSteerTimescaleZero := by
  intro n m t val p r s a hc ha
  subst ha
  have hr := State.advance_regsWf hc.regs t
  have ht := (State.advance_canon hc t).ts
  have hopen_eq := s.advance_loopOpen t
  have hon : ∀ {f b}, s.on f = b → (s.advance t).on f = b := fun h => (s.advance_on t _).trans h
  refine ⟨fun hact hrun hwait hopen hkind hramp hlim => exec_loopUpdate_steers hc hact hrun hwait hopen hkind hramp hlim t,
    fun hact hrun hwait hopen => exec_loopUpdate_open hc.regs hact hrun hwait hopen t, fun h => exec_loopUpdate_idle h t,
    fun hsb hrun hwait hopen hslot => ?_, fun h => exec_fallbackUpdate_idle h t, fun h hst hhold hopen hramp => ?_,
    fun hnh hne => exec_holdoverSecond_idle hnh hne t, fun hacc hval hopen hlim hnh hne => ?_, fun hacc hopen => ?_,
    fun hopen hlate => ?_, fun hopen => exec_swTimeout_idle hopen⟩
  · obtain ⟨u, hexec, hi, hspec⟩ := exec_fallbackUpdate_tracks hc.regs hsb hrun hwait hopen hslot t
    exact ⟨u, hexec, hi, hi.symm ▸ hspec⟩
  · exact ⟨_, exec_holdoverSecond_holds hst hhold t, State.holdover_spec hr ht ((congrArg DscS.hold (s.advance_dsc t)).trans hhold)
      (hopen_eq.trans hopen) (hon hramp)⟩
  · refine ⟨_, exec_swCtrlWrite_granted hacc, ?_⟩
    rw [Nat.mod_eq_of_lt hval]
    exact State.swWrite_spec hr ht hval (hon hopen) hlim (fun h => hnh ((s.advance_rd t _).symm.trans h))
      fun h => hne ((s.advance_rd t _).symm.trans h)
  · refine ⟨_, (exec_swCtrlWrite_granted hacc).trans (congrArg _ (State.swWrite_refused (hon hopen))),
      State.refuseCfg_on (a := DSC.STICKY) rfl hr, ?_, State.refuseCfg_signals _ .dsc⟩
    have hkeys : ∀ k ∈ valueKeys 0, k ∉ [Blk.dsc.sticky] ∧ k ∉ alarmKeys := by decide
    exact State.rho_congr fun k hk => ((State.refuseCfg_signals (s.advance t) .dsc).reg hr k (hkeys k hk).1 (hkeys k hk).2).trans
      (s.advance_reg t k)
  · obtain ⟨hlapsed, htold, hclosed, hi, hsig⟩ := State.swLapse_spec hr
    rw [State.reg64_congr (s.advance_reg t _) (s.advance_reg t _)] at hi
    exact ⟨_, exec_swTimeout_lapses hopen hlate, hlapsed, htold, hclosed, hi, hsig⟩

end Sys2Proof.Machine

namespace Sys2Proof.Machine

/-! ### What the discipline states see of an operation -/

/-- From `s` to `t` the registers of DSC stand but for `ks` and the sticky register, whose bits that are set stay set; no time
passes and timescale 0 makes no step. -/
structure DscFrame (ks : List Nat) (s t : State) : Prop where
  regsWf : s.RegsWf → t.RegsWf
  tsWf : Store.wf dTs s.tsc.ts = true → Store.wf dTs t.tsc.ts = true
  reg : s.RegsWf → ∀ k, dscReg k → k ≠ DSC.STICKY → k ∉ ks → t.reg k = s.reg k
  tells : s.RegsWf → ∀ f : Fld, f.w = 1 → f.lo < 32 → f.addr = DSC.STICKY → s.on f = true → t.on f = true
  raw : t.raw = s.raw
  steps0 : t.tsc.steps0 = s.tsc.steps0

section
variable {ks ks' : List Nat} {s t u : State}

theorem DscFrame.refl (ks : List Nat) (s : State) : DscFrame ks s s := ⟨id, id, fun _ _ _ _ _ => rfl, fun _ _ _ _ _ => id, rfl, rfl⟩

theorem DscFrame.trans (h : DscFrame ks s t) (g : DscFrame ks t u) : DscFrame ks s u where
  regsWf w := g.regsWf (h.regsWf w)
  tsWf w := g.tsWf (h.tsWf w)
  reg w k hk hs hks := (g.reg (h.regsWf w) k hk hs hks).trans (h.reg w k hk hs hks)
  tells w f hw hl ha hon := g.tells (h.regsWf w) f hw hl ha (h.tells w f hw hl ha hon)
  raw := g.raw.trans h.raw
  steps0 := g.steps0.trans h.steps0

theorem DscFrame.mono (h : DscFrame ks s t) (hk : ∀ k ∈ ks, k ∈ ks') : DscFrame ks' s t :=
  { h with reg := fun w k hd hs hks => h.reg w k hd hs fun hm => hks (hk k hm) }

theorem DscFrame.keeps (h : DscFrame ks s t) (w : s.RegsWf) {k : Nat} (hd : dscReg k := by decide) (hs : k ≠ DSC.STICKY := by decide)
    (hk : k ∉ ks := by decide) : t.reg k = s.reg k := h.reg w k hd hs hk

theorem DscFrame.rd (h : DscFrame ks s t) (w : s.RegsWf) {f : Fld} (hd : dscReg f.addr := by decide)
    (hs : f.addr ≠ DSC.STICKY := by decide) (hk : f.addr ∉ ks := by decide) : t.rd f = s.rd f := State.rd_congr (h.reg w _ hd hs hk)

theorem DscFrame.on (h : DscFrame ks s t) (w : s.RegsWf) {f : Fld} (hd : dscReg f.addr := by decide)
    (hs : f.addr ≠ DSC.STICKY := by decide) (hk : f.addr ∉ ks := by decide) : t.on f = s.on f := State.on_congr (h.reg w _ hd hs hk)

theorem DscFrame.stays (h : DscFrame ks s t) (w : s.RegsWf) {f : Fld} (hon : s.on f = true)
    (hf : f.w = 1 ∧ f.lo < 32 ∧ f.addr = DSC.STICKY := by decide) : t.on f = true :=
  have ⟨hw, hl, ha⟩ := hf
  h.tells w f hw hl ha hon

theorem DscFrame.setN (s : State) {k : Nat} (hk : k ∈ ks) (hs : k ≠ DSC.STICKY) (v : Nat) : DscFrame ks s (s.setN k v) where
  regsWf w := s.setN_regsWf k v w
  tsWf := id
  reg w j _ _ hj := s.reg_setN_ne k j v w fun e => hj (e ▸ hk)
  tells w f _ _ ha hon := (State.on_congr (s.reg_setN_ne k f.addr v w (ha ▸ hs.symm))).trans hon
  raw := rfl
  steps0 := rfl

theorem DscFrame.wr (s : State) (f : Fld) (hk : f.addr ∈ ks) (hs : f.addr ≠ DSC.STICKY) (v : Nat) : DscFrame ks s (s.wr f v) :=
  .setN s hk hs _

theorem DscFrame.of_fields (hv : t.variant = s.variant) (hg : t.regs = s.regs) (hr : t.raw = s.raw) (ht : t.tsc = s.tsc) :
    DscFrame ks s t where
  regsWf w := by rw [State.RegsWf, hv, hg]; exact w
  tsWf w := by rw [ht]; exact w
  reg w k _ _ _ := by rw [State.reg, hv, hg, State.reg]
  tells w f _ _ _ hon := (State.on_congr (by rw [State.reg, hv, hg, State.reg])).trans hon
  raw := hr
  steps0 := by rw [ht]

theorem DscFrame.setDsc (s : State) (f : DscS → DscS) : DscFrame ks s (s.setDsc f) := .of_fields rfl rfl rfl rfl

theorem DscFrame.setBoth (s : State) {k : Nat} (hk : k ∈ ks) (hs : k ≠ DSC.STICKY) (v : Nat) : DscFrame ks s (s.setBoth k v) :=
  (DscFrame.setN s hk hs v).trans (.of_fields rfl rfl rfl rfl)

/-- Signals that leave the sticky register of DSC to its alarms. -/
theorem DscFrame.of_signals {js : List Nat} (h : Signals js s t) (hs : DSC.STICKY ∉ js) (hks : ∀ k ∈ js, k ∈ ks) :
    DscFrame ks s t where
  regsWf := h.regsWf
  tsWf w := by rw [h.tsc]; exact w
  reg w k hd _ hk := h.reg w k (fun hm => hk (hks k hm)) (not_mem_alarmKeys_of_dsc hd)
  tells w f hw hl ha hon := h.on w f hw hl (ha ▸ by decide) (ha ▸ hs) hon
  raw := h.raw
  steps0 := by rw [h.tsc]

/-- A sticky bit of DSC that sets. -/
theorem DscFrame.sticky (s : State) {f : Fld} (hw : f.w = 1) (hl : f.lo < 32) (ha : f.addr = DSC.STICKY) : DscFrame ks s (s.sticky f) := by
  have h : Signals [DSC.STICKY] s (s.sticky f) := s.sticky_signals f hw hl (.inl (by simp [ha]))
  exact {
    regsWf := h.regsWf
    tsWf := fun w => by rw [h.tsc]; exact w
    reg := fun w k hd hk _ => h.reg w k (by simpa using hk) (not_mem_alarmKeys_of_dsc hd)
    tells := fun w g hgw hgl hga hon => (s.sticky_bitsStay hw hl w).2 g hgw hgl (hga ▸ by decide) hon
    raw := h.raw
    steps0 := by rw [h.tsc] }

theorem State.sticky_dsc_on (hr : s.RegsWf) {f : Fld} (hw : f.w = 1) (hl : f.lo < 32) (ha : f.addr = DSC.STICKY) :
    (s.sticky f).on f = true := s.sticky_on f hr hw hl (ha ▸ by decide)

theorem DscFrame.ite {c : Prop} [Decidable c] (ht : DscFrame ks s t) (hu : DscFrame ks s u) : DscFrame ks s (if c then t else u) := by
  split <;> assumption

/-- The registers of the control value. -/
def ctrlKeys : List Nat := [DSC.CTRL_VAL_LO, DSC.CTRL_VAL_LO + 4]

theorem State.emitU_keeps_tsWf (ht : Store.wf dTs s.tsc.ts = true) (x : Int) : Store.wf dTs (s.emitU x).tsc.ts = true :=
  (State.emitU_keeps (Keeps.refl true s) x).tsWf ht

/-- A control value within the limits written and shown. -/
theorem DscFrame.emitU (s : State) (hr : s.RegsWf) (ht : Store.wf dTs s.tsc.ts = true) (x : Int) :
    DscFrame ctrlKeys s (s.emitU (clampU x)) := by
  have h := State.emitU_emitted hr ht (neg_uMax_le_clampU x) (clampU_le_uMax x)
  have hreg : ∀ k, dscReg k → k ∉ ctrlKeys → (s.emitU (clampU x)).reg k = s.reg k := fun k hd hk => by
    simp only [ctrlKeys, List.mem_cons, List.not_mem_nil, or_false, not_or] at hk
    exact h.reg k hd hk.1 hk.2
  exact {
    regsWf := fun _ => h.regsWf
    tsWf := fun w => State.emitU_keeps_tsWf w _
    reg := fun _ k hd _ hk => hreg k hd hk
    tells := fun _ f _ _ ha hon => (State.on_congr (hreg _ (ha ▸ by decide) (ha ▸ by decide))).trans hon
    raw := h.raw
    steps0 := h.steps0 }

/-- The holdover value applied. -/
theorem State.applyHo_frame (s : State) (hr : s.RegsWf) (ht : Store.wf dTs s.tsc.ts = true) : DscFrame ctrlKeys s s.applyHo := by
  cases hhold : s.dsc.hold with
  | none =>
    rw [State.applyHo, hhold]
    exact .refl _ s
  | some h =>
    by_cases hsw : (s.loopOpen && s.on DSC.LOOP_CFG_SW_HOLDOVER) = true
    · simp only [State.applyHo, hhold, hsw, if_true]
      exact .refl _ s
    · rw [State.applyHo_eq hhold (by simpa using hsw)]
      have hset : DscFrame ctrlKeys s (s.moveI (heldU (s.uHo h))) := .of_fields rfl rfl rfl rfl
      have hmove : DscFrame ctrlKeys s (s.moveHo h) := DscFrame.ite (hset.trans (.sticky _ rfl (by decide) rfl)) hset
      exact hmove.trans (.emitU _ (hmove.regsWf hr) (hmove.tsWf ht) _)

/-- MUTE_FREE settles where timescale 0 made no step (R86, R324). -/
theorem State.settled_frame {old : State} (h0 : s.tsc.steps0 = old.tsc.steps0) :
    (∀ k, s.RegsWf → dscReg k → (s.settled old).reg k = s.reg k) ∧ (s.settled old).dsc = s.dsc ∧ (s.settled old).raw = s.raw := by
  have hs := State.settled_stands (Stands.refl timeReg s) old
  refine ⟨fun k hr hd => hs.reg hr k ?_ (not_mem_alarmKeys_of_dsc hd), ?_, hs.raw⟩
  · obtain ⟨hlo, hhi⟩ := hd
    exact ⟨by omega, hhi⟩
  · rw [State.settled_of_steps0 h0, State.settleMute_dsc]

end

end Sys2Proof.Machine

namespace Sys2Proof.Machine

/-! ### A pull is over (R133, R135, R136) -/

section
variable {s : State}

theorem State.pullCheck_idle (h : s.pullKind = 0) : s.pullCheck = s := if_pos (.inl h)

theorem State.showSlew_absorbed (hr : s.RegsWf) (hrem : s.remAt 0 s.raw = 0) : (s.showSlew 0).on (TSC.STATUS_SLEWING 0) = false := by
  have hslew := s.wr_regsWf (TSC.STATUS_SLEWING 0) (b2n (s.remAt 0 s.raw != 0 && s.boundOf 0 != 0)) hr
  have hset := State.on_wrB hr (f := TSC.STATUS_SLEWING 0) (by decide) rfl (s.remAt 0 s.raw != 0 && s.boundOf 0 != 0)
  rw [hrem] at hslew hset
  unfold State.showSlew
  dsimp only
  rw [hrem]
  refine (State.on_congr (State.reg_setN_ne _ _ _ _ (State.wr_regsWf _ _ _ hslew) (by decide))).trans ?_
  exact (State.on_wr_bit_ne hslew _ rfl (by decide) rfl (by decide)).trans hset

/-- A pull that is absorbed, its ramp over, is reported done. -/
theorem State.pullCheck_done (hr : s.RegsWf) (hk : s.pullKind ≠ 0) (hraw : s.dsc.pullRaw < s.raw) (hrem : s.remAt 0 s.raw = 0)
    (hi : s.dsc.i = s.dsc.want) : s.pullCheck = (s.showSlew 0).pullDone := by
  have hdue : ¬(s.pullKind = 0 ∨ s.raw ≤ s.dsc.pullRaw) := fun h => h.elim hk (Nat.not_le.mpr hraw)
  have hslew : ¬(s.pullKind = 1 ∧ (s.showSlew 0).on (TSC.STATUS_SLEWING 0) = true) := by
    rw [State.showSlew_absorbed hr hrem]
    exact fun h => absurd h.2 (by decide)
  unfold State.pullCheck
  dsimp only
  rw [if_neg hdue, if_neg hslew]
  exact if_pos hi

/-- The registers that the end of a pull writes. -/
def pullKeys : List Nat := [DSC.PULL_STAT, DSC.STATE, DSC.STICKY, REF.SEL_STAT]

theorem State.setPull_signals (s : State) (kind : Nat) : Signals pullKeys s (s.setPull kind) :=
  ((Signals.wr s DSC.PULL_STAT_PULLING _ (.inl (by decide))).trans (Signals.wr _ DSC.PULL_STAT_KIND _ (.inl (by decide)))).trans
    (Signals.wr _ DSC.STATE_PULLING _ (.inl (by decide)))

theorem State.pullDone_spec (hr : s.RegsWf) :
    s.pullDone.pullKind = 0 ∧ s.pullDone.on REF.SEL_STAT_PULLING = false ∧ s.pullDone.on DSC.STATE_PULLING = false
      ∧ s.pullDone.on DSC.STICKY_PULL_DONE = true ∧ Signals pullKeys s s.pullDone := by
  have h1 := s.wr_regsWf DSC.PULL_STAT_PULLING (b2n (0 != 0)) hr
  have h2 := State.wr_regsWf _ DSC.PULL_STAT_KIND 0 h1
  have hset := s.setPull_signals 0
  have hw := hset.regsWf hr
  have hkind : (s.setPull 0).rd DSC.PULL_STAT_KIND = 0 :=
    (State.rd_wr_ne _ DSC.STATE_PULLING _ _ h2 (by decide)).trans (State.rd_wr _ DSC.PULL_STAT_KIND 0 h1 (by decide))
  have hpulling : (s.setPull 0).on DSC.STATE_PULLING = false := State.on_wrB h2 (by decide) rfl false
  unfold State.pullDone
  generalize s.setPull 0 = v at hset hw hkind hpulling ⊢
  have hsel : (v.wr REF.SEL_STAT_PULLING 0).on REF.SEL_STAT_PULLING = false := State.on_wr_zero hw (by decide) rfl
  have hsig : Signals pullKeys v (v.wr REF.SEL_STAT_PULLING 0) := Signals.wr v _ 0 (.inl (by decide))
  have hw' := hsig.regsWf hw
  have htell : Signals [DSC.STICKY] (v.wr REF.SEL_STAT_PULLING 0) _ :=
    State.sticky_signals _ DSC.STICKY_PULL_DONE rfl (by decide) (.inl (by decide))
  refine ⟨?_, (htell.on_eq hw' (by decide) (by decide)).trans hsel, ?_, State.sticky_on _ _ hw' rfl (by decide) (by decide),
    (hset.trans hsig).trans (htell.mono (by decide))⟩
  · exact (htell.rd_eq hw' (by decide) (by decide)).trans ((State.rd_wr_ne _ _ _ _ hw (by decide)).trans hkind)
  · exact (htell.on_eq hw' (by decide) (by decide)).trans ((State.on_wr_ne hw _ (by decide)).trans hpulling)

end

/-! ### A change of discipline state (R141, R144) -/

section
variable {ks : List Nat} {s t u : State} {new cause : Nat}

/-- The registers that publishing the advertised set writes. -/
def publishKeys : List Nat := [DSC.STATE, DSC.QUAL_NOW]

/-- The registers that a change of discipline state writes beside the sticky one. -/
def changeKeys : List Nat := publishKeys ++ DSC.STATE_STAT :: (List.range 16).map DSC.STATE_LOG

theorem stateLog_mem_changeKeys (hn : new < 16) : DSC.STATE_LOG new ∈ changeKeys :=
  List.mem_append_right _ (List.mem_cons_of_mem _ (List.mem_map_of_mem (List.mem_range.mpr hn)))

theorem State.publish_frame (s : State) : DscFrame publishKeys s s.publish :=
  (DscFrame.wr s DSC.STATE_ADV (by decide) (by decide) s.advSet).trans (.setN _ (by decide) (by decide) _)

/-- The advertised set is shown, and its qualities with it; the state stays. -/
theorem State.publish_spec (hr : s.RegsWf) : s.publish.rd DSC.STATE_ADV = s.advSet % 4
    ∧ s.publish.nreg DSC.QUAL_NOW = s.nreg (DSC.QUAL s.advSet) ∧ s.publish.dstate = s.dstate := by
  have hw := s.wr_regsWf DSC.STATE_ADV s.advSet hr
  refine ⟨(State.rd_setN_ne _ _ _ _ hw (by decide)).trans (s.rd_wr _ _ hr (by decide)), ?_, ?_⟩
  · have hval := State.nreg_setN (s.wr DSC.STATE_ADV s.advSet) DSC.QUAL_NOW (s.nreg (DSC.QUAL s.advSet)) hw
    rwa [Nat.mod_eq_of_lt (s.nreg_lt _)] at hval
  · exact (State.rd_setN_ne _ _ _ _ hw (by decide)).trans (s.rd_wr_disj _ _ _ hr (by decide) rfl (by decide))

/-- A change of discipline state in its log, its register and DSC's own part, before it is published. -/
def State.toDstate (s : State) (new e : Nat) : State :=
  ((s.logDstate e).setDsc (DscS.changed s.dstate new)).wr DSC.STATE_STATE new

theorem State.dchange_eq (s : State) (new cause : Nat) : ∃ e, s.dchange new cause =
    ((s.toDstate new e).publish.journal 5 4 (leBytes 4 e)).sticky DSC.STICKY_STATE_CHANGE := ⟨_, rfl⟩

theorem State.logDstate_frame (s : State) (e : Nat) : DscFrame changeKeys s (s.logDstate e) :=
  ((DscFrame.setN s (stateLog_mem_changeKeys (bitsOf_lt _ _ _)) (by unfold DSC.STATE_LOG DSC.STICKY; omega) e).trans
    (.wr _ DSC.STATE_STAT_LOG_NEXT (by decide) (by decide) _)).trans (.wr _ DSC.STATE_STAT_COUNT (by decide) (by decide) _)

theorem State.toDstate_frame (s : State) (new e : Nat) : DscFrame changeKeys s (s.toDstate new e) :=
  ((s.logDstate_frame e).trans (.setDsc _ _)).trans (.wr _ DSC.STATE_STATE (by decide) (by decide) new)

theorem State.logDstate_count (hr : s.RegsWf) (e : Nat) :
    (s.logDstate e).rd DSC.STATE_STAT_COUNT = (s.rd DSC.STATE_STAT_COUNT + 1) % 2 ^ DSC.STATE_STAT_COUNT.w := by
  have hlog := s.setN_regsWf (DSC.STATE_LOG (s.rd DSC.STATE_STAT_LOG_NEXT)) e hr
  have hkeep : (s.setN (DSC.STATE_LOG (s.rd DSC.STATE_STAT_LOG_NEXT)) e).rd DSC.STATE_STAT_COUNT = s.rd DSC.STATE_STAT_COUNT :=
    s.rd_setN_ne _ _ _ hr (by unfold DSC.STATE_STAT_COUNT DSC.STATE_STAT DSC.STATE_LOG; dsimp only; omega)
  unfold State.logDstate
  generalize s.setN (DSC.STATE_LOG (s.rd DSC.STATE_STAT_LOG_NEXT)) e = v at hlog hkeep ⊢
  have hnext : (v.bumpF DSC.STATE_STAT_LOG_NEXT).rd DSC.STATE_STAT_COUNT = v.rd DSC.STATE_STAT_COUNT :=
    v.rd_wr_disj _ _ _ hlog (by decide) rfl (by decide)
  rw [← hkeep, ← hnext]
  exact State.rd_wr _ _ _ (v.wr_regsWf _ _ hlog) (by decide)

/-- From `s` to `u` discipline went to state `new`, and the change is logged. -/
structure WentTo (new : Nat) (s u : State) : Prop where
  dstate : u.dstate = new
  told : u.on DSC.STICKY_STATE_CHANGE = true
  count : u.rd DSC.STATE_STAT_COUNT = (s.rd DSC.STATE_STAT_COUNT + 1) % 2 ^ DSC.STATE_STAT_COUNT.w

/-- What follows a change of state leaves it. -/
theorem WentTo.frame (h : WentTo new s t) (hf : DscFrame ks t u) (w : t.RegsWf) (hst : DSC.STATE ∉ ks) (hstat : DSC.STATE_STAT ∉ ks) :
    WentTo new s u where
  dstate := (hf.rd w (by decide) (by decide) hst).trans h.dstate
  told := hf.stays w h.told
  count := (hf.rd w (by decide) (by decide) hstat).trans h.count

/-- What precedes a change of state without another one. -/
theorem WentTo.of_frame (h : WentTo new t u) (hf : DscFrame ks s t) (w : s.RegsWf) (hstat : DSC.STATE_STAT ∉ ks) : WentTo new s u where
  dstate := h.dstate
  told := h.told
  count := (hf.rd (f := DSC.STATE_STAT_COUNT) w (hk := hstat)) ▸ h.count

theorem State.toDstate_dstate (hr : s.RegsWf) (hnew : new < 8) (e : Nat) : (s.toDstate new e).dstate = new :=
  (State.rd_wr _ DSC.STATE_STATE new ((s.logDstate_frame e).regsWf hr) (by decide)).trans (Nat.mod_eq_of_lt hnew)

/-- A journal record and a sticky bit of DSC. -/
theorem State.logged_frame (s : State) (body : List Byte) {f : Fld} (hw : f.w = 1) (hl : f.lo < 32) (ha : f.addr = DSC.STICKY) :
    DscFrame ks s ((s.journal 5 4 body).sticky f) :=
  (DscFrame.of_signals (s.journal_signals (ks := []) 5 4 body) List.not_mem_nil (fun _ h => absurd h List.not_mem_nil)).trans
    (.sticky _ hw hl ha)

theorem State.dchange_frame (s : State) (new cause : Nat) : DscFrame changeKeys s (s.dchange new cause) := by
  obtain ⟨e, heq⟩ := s.dchange_eq new cause
  rw [heq]
  exact ((s.toDstate_frame new e).trans ((State.publish_frame _).mono fun k hk => List.mem_append_left _ hk)).trans
    (State.logged_frame _ _ rfl (by decide) rfl)

theorem State.dchange_wentTo (hr : s.RegsWf) (hnew : new < 8) : WentTo new s (s.dchange new cause) := by
  obtain ⟨e, heq⟩ := s.dchange_eq new cause
  rw [heq]
  have hw := (s.toDstate_frame new e).regsWf hr
  obtain ⟨_, _, hstate⟩ := State.publish_spec hw
  have hcount : (s.toDstate new e).publish.rd DSC.STATE_STAT_COUNT = (s.logDstate e).rd DSC.STATE_STAT_COUNT :=
    ((State.publish_frame _).rd hw).trans
      (State.rd_wr_ne _ DSC.STATE_STATE _ _ ((s.logDstate_frame e).regsWf hr) (by decide))
  have hpub := (State.publish_frame (s.toDstate new e)).regsWf hw
  have hlogged : DscFrame [] _ _ :=
    State.logged_frame (s.toDstate new e).publish (leBytes 4 e) (f := DSC.STICKY_STATE_CHANGE) rfl (by decide) rfl
  refine ⟨?_, State.sticky_dsc_on ((State.journal_signals (ks := []) _ _ _ _).regsWf hpub) rfl (by decide) rfl, ?_⟩
  · exact (hlogged.rd hpub).trans (hstate.trans (State.toDstate_dstate hr hnew e))
  · exact (hlogged.rd hpub).trans (hcount.trans (State.logDstate_count hr e))

theorem State.dchange_dsc (s : State) (new cause : Nat) : (s.dchange new cause).dsc = DscS.changed s.dstate new s.dsc :=
  (s.dchange_signals new cause).dsc

/-- LOCKED advertises set 1 (R144). -/
theorem State.dchange_locked_adv (hr : s.RegsWf) : (s.dchange dLOCKED cause).rd DSC.STATE_ADV = 1
    ∧ (s.dchange dLOCKED cause).nreg DSC.QUAL_NOW = s.nreg (DSC.QUAL 1) := by
  obtain ⟨e, heq⟩ := s.dchange_eq dLOCKED cause
  rw [heq]
  have hto := s.toDstate_frame dLOCKED e
  have hset : (s.toDstate dLOCKED e).advSet = 1 := by
    rw [State.advSet, State.toDstate_dstate hr (by decide)]
    rfl
  obtain ⟨hadv, hqual, _⟩ := State.publish_spec (hto.regsWf hr)
  rw [hset] at hadv hqual
  have hpub := (State.publish_frame (s.toDstate dLOCKED e)).regsWf (hto.regsWf hr)
  have hlogged : DscFrame [] _ _ :=
    State.logged_frame (s.toDstate dLOCKED e).publish (leBytes 4 e) (f := DSC.STICKY_STATE_CHANGE) rfl (by decide) rfl
  refine ⟨(hlogged.rd hpub).trans hadv, ?_⟩
  rw [State.nreg, hlogged.keeps hpub]
  exact hqual.trans (congrArg BitVec.toNat (hto.keeps hr))

end

end Sys2Proof.Machine

namespace Sys2Proof.Machine

/-! ### LOCKED is reached and left (R141, R142, R149) -/

section
variable {s : State} {l : Nat}

/-- Settling leaves a change of state that was logged. -/
theorem WentTo.settled {b old : State} {new : Nat} (h : WentTo new b s) (hr : s.RegsWf) (h0 : s.tsc.steps0 = old.tsc.steps0) :
    WentTo new b (s.settled old) := by
  obtain ⟨hreg, _, _⟩ := State.settled_frame h0
  exact ⟨(State.rd_congr (hreg _ hr (by decide))).trans h.dstate, (State.on_congr (hreg _ hr (by decide))).trans h.told,
    (State.rd_congr (hreg _ hr (by decide))).trans h.count⟩

/-- DSC's own part once LOCKED is reached: no estimate, no holdover, nothing spent. -/
def DscS.relocked (d : DscS) : DscS := { d with est := none, hold := none, spent := false }

/-- LOCKED is reached, and holdover is over if there was any. -/
def State.lock (s : State) : State :=
  let s1 := (s.dchange dLOCKED 1).setDsc DscS.relocked
  if s.dsc.entered == dHOLD || s.dsc.entered == dEXPIRED then (s1.setN DSC.HO_EXIT s1.sec0).sticky DSC.STICKY_HO_EXIT else s1

/-- From ACQUIRING only the row of R141 that leads to LOCKED comes first. -/
theorem State.dscEval_lock (hst : s.dstate = dACQ) (hact : s.active.isSome = true) (hkind : s.pullKind = 0) (hlock : s.dsc.lockAt = some l)
    (hdue : l + s.rd DSC.LOCK_CFG_LOCK_TIME * qSec ≤ s.tsNow 0) : s.dscEval = s.lock := by
  unfold State.dscEval State.lock
  dsimp only
  rw [if_neg (by rw [hst]; exact fun h => absurd h.1 (by decide)), if_pos ⟨hst, hact, hkind, by rw [hlock]; exact decide_eq_true hdue⟩]
  rfl

theorem State.lock_frame (s : State) : DscFrame [DSC.HO_EXIT] ((s.dchange dLOCKED 1).setDsc DscS.relocked) s.lock := by
  unfold State.lock
  dsimp only
  exact DscFrame.ite ((DscFrame.setN _ (by decide) (by decide) _).trans (.sticky _ rfl (by decide) rfl)) (.refl _ _)

theorem State.lock_dsc (s : State) : s.lock.dsc = DscS.relocked (DscS.changed s.dstate dLOCKED s.dsc) := by
  have hsticky : ∀ v : State, (v.sticky DSC.STICKY_HO_EXIT).dsc = v.dsc := fun v =>
    (v.sticky_signals (ks := [DSC.STICKY]) _ rfl (by decide) (.inl (by decide))).dsc
  rw [← s.dchange_dsc dLOCKED 1]
  unfold State.lock
  dsimp only
  split
  · rw [hsticky]
    rfl
  · rfl

/-- LOCKED with its advertised set, settled. -/
theorem State.lock_settled (hr : s.RegsWf) :
    let u := s.lock.settled s
    WentTo dLOCKED s u ∧ u.rd DSC.STATE_ADV = 1 ∧ u.nreg DSC.QUAL_NOW = s.nreg (DSC.QUAL 1) ∧ u.dsc.est = none ∧ u.dsc.hold = none
      ∧ u.raw = s.raw := by
  intro u
  have hchange := s.dchange_frame dLOCKED 1
  have hset : DscFrame [DSC.HO_EXIT] (s.dchange dLOCKED 1) s.lock := (DscFrame.setDsc _ _).trans s.lock_frame
  have hw := hchange.regsWf hr
  have h0 : s.lock.tsc.steps0 = s.tsc.steps0 := hset.steps0.trans hchange.steps0
  obtain ⟨hreg, hdsc, hraw⟩ := State.settled_frame h0
  obtain ⟨hadv, hqual⟩ := State.dchange_locked_adv (cause := 1) hr
  have hwent := ((State.dchange_wentTo (cause := 1) hr (by decide)).frame hset hw (by decide) (by decide)).settled (hset.regsWf hw) h0
  refine ⟨hwent, ?_, ?_, ?_, ?_, hraw.trans (hset.raw.trans hchange.raw)⟩
  · exact (State.rd_congr (hreg _ (hset.regsWf hw) (by decide))).trans ((hset.rd hw).trans hadv)
  · rw [State.nreg, hreg _ (hset.regsWf hw) (by decide), hset.keeps hw]
    exact hqual
  · rw [hdsc, State.lock_dsc]
    rfl
  · rw [hdsc, State.lock_dsc]
    rfl

/-- ACQUIRING is entered from LOCKED, and the estimator starts. -/
def State.acquire (s : State) : State := (s.dchange dACQ 4).startEst.publish

/-- From LOCKED, with an error far for its time, the row of R141 that leads to ACQUIRING comes first. -/
theorem State.dscEval_unlock (hst : s.dstate = dLOCKED) (hact : s.active.isSome = true) (hfar : s.dsc.farAt = some l)
    (hdue : l + 10 * qSec ≤ s.tsNow 0) : s.dscEval = (s.sticky DSC.STICKY_UNLOCK).acquire := by
  have hne : ∀ {k} {P : Prop}, k ≠ dLOCKED → ¬(s.dstate = k ∧ P) := fun hk h => hk (h.1.symm.trans hst)
  unfold State.dscEval State.acquire
  dsimp only
  rw [if_neg (hne (by decide)), if_neg (hne (by decide)), if_neg (hne (by decide)),
    if_pos ⟨hst, hact, by rw [hfar]; exact decide_eq_true hdue⟩]

theorem State.startEst_frame (s : State) : DscFrame [DSC.HO_SDEV] s s.startEst :=
  (DscFrame.setDsc s _).trans (.setN _ (by decide) (by decide) _)

theorem State.acquire_frame (s : State) : DscFrame (changeKeys ++ [DSC.HO_SDEV] ++ publishKeys) s s.acquire :=
  (((s.dchange_frame dACQ 4).mono (by simp +contextual)).trans ((State.startEst_frame _).mono (by simp))).trans
    ((State.publish_frame _).mono (by simp +contextual))

theorem State.acquire_wentTo (hr : s.RegsWf) : WentTo dACQ s s.acquire := by
  have hchange := s.dchange_frame dACQ 4
  have hest := (s.dchange dACQ 4).startEst_frame
  have hw := hest.regsWf (hchange.regsWf hr)
  have hwent := (State.dchange_wentTo (cause := 4) hr (new := dACQ) (by decide)).frame hest (hchange.regsWf hr) (by decide) (by decide)
  have hpub := ((s.dchange dACQ 4).startEst).publish_frame
  obtain ⟨_, _, hstate⟩ := State.publish_spec hw
  exact ⟨hstate.trans hwent.dstate, hpub.stays hw hwent.told, (hpub.rd hw).trans hwent.count⟩

theorem State.acquire_entered (s : State) : s.acquire.dsc.entered = s.dstate := by
  have hentered : s.acquire.dsc.entered = (s.dchange dACQ 4).dsc.entered := rfl
  rw [hentered, State.dchange_dsc]
  rfl

/-- ACQUIRING after UNLOCK, with the estimator running, settled. -/
theorem State.unlock_settled (hr : s.RegsWf) (hst : s.dstate = dLOCKED) :
    let u := (s.sticky DSC.STICKY_UNLOCK).acquire.settled s
    WentTo dACQ s u ∧ u.on DSC.STICKY_UNLOCK = true ∧ u.dsc.est.isSome = true ∧ u.dsc.entered = dLOCKED ∧ u.raw = s.raw := by
  have htell : DscFrame [] s (s.sticky DSC.STICKY_UNLOCK) := .sticky s rfl (by decide) rfl
  have hset : (s.sticky DSC.STICKY_UNLOCK).on DSC.STICKY_UNLOCK = true := State.sticky_dsc_on hr rfl (by decide) rfl
  generalize s.sticky DSC.STICKY_UNLOCK = v at htell hset ⊢
  intro u
  have hv := htell.regsWf hr
  have hacq := v.acquire_frame
  have h0 := hacq.steps0.trans htell.steps0
  obtain ⟨hreg, hdsc, hraw⟩ := State.settled_frame h0
  refine ⟨((State.acquire_wentTo hv).of_frame htell hr (by decide)).settled (hacq.regsWf hv) h0, ?_, by rw [hdsc]; rfl, ?_,
    hraw.trans (hacq.raw.trans htell.raw)⟩
  · exact (State.on_congr (hreg _ (hacq.regsWf hv) (by decide))).trans (hacq.stays hv hset)
  · rw [hdsc, State.acquire_entered]
    exact (htell.rd hr).trans hst

end

/-! ### The reference is lost, or its sequencer (R141, R146, R147) -/

section
variable {s : State}

/-- From LOCKED, with a reference and no far error, the rows of R141 before that of the faulted sequencer do not hold. -/
theorem State.dscEval_faulted (hst : s.dstate = dLOCKED) (hact : s.active.isSome = true) (hfar : s.dsc.farAt = none)
    (hf : s.mainFaulted = true) : s.dscEval = (s.sticky DSC.STICKY_SEQ_FAULT).loseRef 6 := by
  have hne : ∀ {k} {P : Prop}, k ≠ dLOCKED → ¬(s.dstate = k ∧ P) := fun hk h => hk (h.1.symm.trans hst)
  unfold State.dscEval
  dsimp only
  rw [if_neg (hne (by decide)), if_neg (hne (by decide)), if_neg (hne (by decide)), hfar, if_neg (fun h => Bool.false_ne_true h.2.2),
    if_neg (fun h => absurd (hact.symm.trans h.2) (by decide)), if_neg (hne (by decide)),
    if_neg (fun h => absurd (hf.symm.trans h.2.2) (by decide)), if_pos ⟨hf, .inr hst⟩, if_neg (hne (by decide))]

/-- DSC's own part when a loss leaves too few samples: the loop starts from the present rate. -/
def DscS.freed (u : Int) (d : DscS) : DscS := { d with i := u * 2 ^ 64, want := u * 2 ^ 64, est := none, hold := none }

/-- The present rate kept for FREE_RUN, and the short window told (R147). -/
def State.keepRate (s : State) : State :=
  (((s.setBoth DSC.FREE_CTRL_LO (ofSigned 64 (s.rho 0) % 2 ^ 32)).setBoth DSC.FREE_CTRL_HI (ofSigned 64 (s.rho 0) / 2 ^ 32)).setDsc
    (DscS.freed (s.rho 0))).wr DSC.HO_STAT_SHORT 1

/-- DSC's own part with the holdover value's constants. -/
def DscS.holding (h : Hold) (d : DscS) : DscS := { d with hold := some h }

/-- The estimator runs and the holdover value's constants are noted (R146, R149). -/
def State.noteHold (s : State) : State :=
  let w := s.winStat s.sec0
  (s.startEst.setDsc (DscS.holding ⟨s.tsNow 0, w.mean, w.theta⟩)).wr DSC.HO_STAT_SHORT 0

/-- The entry to holdover shown and told. -/
def State.showEntry (s : State) : State := ((s.setN DSC.HO_ENTRY s.sec0).wr DSC.HO_STAT_ELAPSED 0).sticky DSC.STICKY_HO_ENTER

theorem State.loseRef_short (h : (s.winStat s.sec0).n < 64) : s.loseRef 6 = s.keepRate.dchange dFREE 6 := if_pos h

theorem State.loseRef_hold (h : ¬(s.winStat s.sec0).n < 64) : s.loseRef 6 = (s.noteHold.showEntry.dchange dHOLD 6).applyHo := if_neg h

theorem State.keepRate_frame (s : State) : DscFrame [DSC.FREE_CTRL_LO, DSC.FREE_CTRL_HI, DSC.HO_STAT] s s.keepRate :=
  (((DscFrame.setBoth s (k := DSC.FREE_CTRL_LO) (by decide) (by decide) _).trans
    (.setBoth _ (k := DSC.FREE_CTRL_HI) (by decide) (by decide) _)).trans (.setDsc _ _)).trans
    (.wr _ DSC.HO_STAT_SHORT (by decide) (by decide) 1)

theorem State.keepRate_short (hr : s.RegsWf) : s.keepRate.on DSC.HO_STAT_SHORT = true :=
  State.on_wr _ DSC.HO_STAT_SHORT (State.setN_regsWf (s.setBoth _ _) _ _ (s.setN_regsWf _ _ hr)) (by decide) rfl

theorem State.noteHold_signals (s : State) : DscSignals [DSC.HO_SDEV, DSC.HO_STAT] s s.noteHold :=
  (((DscSignals.setDsc s _).trans (.of_signals (Signals.setN _ DSC.HO_SDEV _ (.inl (by decide))))).trans (.setDsc _ _)).trans
    (.of_signals (Signals.wr _ DSC.HO_STAT_SHORT 0 (.inl (by decide))))

theorem State.noteHold_frame (s : State) : DscFrame [DSC.HO_SDEV, DSC.HO_STAT] s s.noteHold :=
  ((s.startEst_frame.mono (by simp)).trans (.setDsc _ _)).trans (.wr _ DSC.HO_STAT_SHORT (by decide) (by decide) 0)

theorem State.noteHold_short (hr : s.RegsWf) : s.noteHold.on DSC.HO_STAT_SHORT = false :=
  State.on_wr_zero (s := s.startEst.setDsc _) (s.startEst_frame.regsWf hr) (f := DSC.HO_STAT_SHORT) (by decide) rfl

theorem State.showEntry_frame (s : State) : DscFrame [DSC.HO_ENTRY, DSC.HO_STAT] s s.showEntry :=
  ((DscFrame.setN s (k := DSC.HO_ENTRY) (by decide) (by decide) _).trans (.wr _ DSC.HO_STAT_ELAPSED (by decide) (by decide) 0)).trans
    (.sticky _ rfl (by decide) rfl)

theorem State.showEntry_spec (hr : s.RegsWf) : s.showEntry.on DSC.HO_STAT_SHORT = s.on DSC.HO_STAT_SHORT
    ∧ s.showEntry.on DSC.STICKY_HO_ENTER = true ∧ s.showEntry.nreg DSC.HO_ENTRY = s.sec0 % 2 ^ 32 := by
  have hw := s.setN_regsWf DSC.HO_ENTRY s.sec0 hr
  have hx := State.wr_regsWf _ DSC.HO_STAT_ELAPSED 0 hw
  have htell : DscFrame [] _ s.showEntry := .sticky ((s.setN DSC.HO_ENTRY s.sec0).wr DSC.HO_STAT_ELAPSED 0) rfl (by decide) rfl
  refine ⟨?_, State.sticky_dsc_on hx rfl (by decide) rfl, ?_⟩
  · exact (htell.on hx).trans
      ((State.on_wr_disj hw (f := DSC.HO_STAT_ELAPSED) (g := DSC.HO_STAT_SHORT) 0 (by decide) rfl (by decide)).trans
        (State.on_congr (s.reg_setN_ne _ _ _ hr (by decide))))
  · rw [State.nreg, htell.keeps hx]
    exact (State.nreg_wr_ne _ _ _ _ hw (by decide)).trans (s.nreg_setN _ _ hr)

/-- How many samples the window holds is not formed with a sticky bit of DSC. -/
theorem State.winStat_of_signals {t : State} (h : Signals [DSC.STICKY] s t) (hr : s.RegsWf) : t.winStat t.sec0 = s.winStat s.sec0 := by
  have hsec : t.sec0 = s.sec0 := congrArg (· / qSec) (State.tsNow_of_signals (n := 0) h hr (by decide) (by decide))
  have hw : t.rd DSC.HO_WINDOW_W = s.rd DSC.HO_WINDOW_W := h.rd_eq hr (by decide) (by decide)
  have hg : t.rd DSC.HO_WINDOW_G = s.rd DSC.HO_WINDOW_G := h.rd_eq hr (by decide) (by decide)
  have hrecs : t.winRecs s.sec0 = s.winRecs s.sec0 := by simp only [State.winRecs, hw, hg, h.dsc]
  have hu : t.recU = s.recU := by
    funext r
    rw [State.recU, h.dsc, State.recU]
  rw [hsec, State.winStat, hrecs, hu, State.winStat]

/-- FREE_RUN after a loss. -/
theorem State.loseRef_short_spec (hr : s.RegsWf) (hfault : s.on DSC.STICKY_SEQ_FAULT = true) :
    let u := s.keepRate.dchange dFREE 6
    u.RegsWf ∧ u.tsc.steps0 = s.tsc.steps0 ∧ u.dstate = dFREE ∧ u.on DSC.STICKY_SEQ_FAULT = true
      ∧ u.on DSC.STICKY_STATE_CHANGE = true ∧ u.on DSC.HO_STAT_SHORT = true := by
  intro u
  have hkeep := s.keepRate_frame
  have hw := hkeep.regsWf hr
  have hchange := s.keepRate.dchange_frame dFREE 6
  have hwent : WentTo dFREE s.keepRate u := State.dchange_wentTo hw (by decide)
  exact ⟨hchange.regsWf hw, hchange.steps0.trans hkeep.steps0, hwent.dstate,
    hchange.stays hw (hkeep.stays hr hfault), hwent.told, (hchange.on hw).trans (State.keepRate_short hr)⟩

/-- HOLDOVER after a loss. -/
theorem State.loseRef_hold_spec (hr : s.RegsWf) (ht : Store.wf dTs s.tsc.ts = true) (hfault : s.on DSC.STICKY_SEQ_FAULT = true) :
    let u := (s.noteHold.showEntry.dchange dHOLD 6).applyHo
    u.RegsWf ∧ u.tsc.steps0 = s.tsc.steps0 ∧ u.dstate = dHOLD ∧ u.on DSC.STICKY_SEQ_FAULT = true
      ∧ u.on DSC.STICKY_STATE_CHANGE = true ∧ u.on DSC.HO_STAT_SHORT = false
      ∧ u.on DSC.STICKY_HO_ENTER = true ∧ u.nreg DSC.HO_ENTRY = s.sec0 % 2 ^ 32 := by
  intro u
  have hnote := s.noteHold_frame
  have hn := hnote.regsWf hr
  have hsec : s.noteHold.sec0 = s.sec0 := congrArg (· / qSec) (s.noteHold_signals.tsNow hr (by decide))
  have hshow := s.noteHold.showEntry_frame
  obtain ⟨hshort, henter, hentry⟩ := State.showEntry_spec hn
  have hw := hshow.regsWf hn
  have hchange := s.noteHold.showEntry.dchange_frame dHOLD 6
  have hx := hchange.regsWf hw
  have hho := (s.noteHold.showEntry.dchange dHOLD 6).applyHo_frame hx (hchange.tsWf (hshow.tsWf (hnote.tsWf ht)))
  have hwent : WentTo dHOLD s.noteHold.showEntry u := (State.dchange_wentTo hw (by decide)).frame hho hx (by decide) (by decide)
  have hall : DscFrame (changeKeys ++ ctrlKeys) s.noteHold.showEntry u :=
    (hchange.mono (by simp +contextual)).trans (hho.mono (by simp +contextual))
  refine ⟨hho.regsWf hx, hall.steps0.trans (hshow.steps0.trans hnote.steps0), hwent.dstate,
    hall.stays hw (hshow.stays hn (hnote.stays hr hfault)), hwent.told, ?_, hall.stays hw henter, ?_⟩
  · exact (hall.on hw).trans (hshort.trans (State.noteHold_short hr))
  · rw [State.nreg, hall.keeps hw, ← hsec]
    exact hentry

/-- The loss of the main loop's sequencer: holdover or, with too few samples, free run (R141, R147). -/
theorem State.loseRef_spec (hr : s.RegsWf) (ht : Store.wf dTs s.tsc.ts = true) (hfault : s.on DSC.STICKY_SEQ_FAULT = true) :
    let n := (s.winStat s.sec0).n
    let u := s.loseRef 6
    u.RegsWf ∧ u.tsc.steps0 = s.tsc.steps0 ∧ u.dstate = (if n < 64 then dFREE else dHOLD) ∧ u.on DSC.STICKY_SEQ_FAULT = true
      ∧ u.on DSC.STICKY_STATE_CHANGE = true ∧ u.on DSC.HO_STAT_SHORT = decide (n < 64)
      ∧ (64 ≤ n → u.on DSC.STICKY_HO_ENTER = true ∧ u.nreg DSC.HO_ENTRY = s.sec0 % 2 ^ 32) := by
  dsimp only
  by_cases hn : (s.winStat s.sec0).n < 64
  · rw [State.loseRef_short hn, if_pos hn, decide_eq_true hn]
    obtain ⟨hw, h0, hst, hseq, hchanged, hshort⟩ := State.loseRef_short_spec hr hfault
    exact ⟨hw, h0, hst, hseq, hchanged, hshort, fun hle => absurd hn (Nat.not_lt.mpr hle)⟩
  · rw [State.loseRef_hold hn, if_neg hn, decide_eq_false hn]
    obtain ⟨hw, h0, hst, hseq, hchanged, hshort, henter⟩ := State.loseRef_hold_spec hr ht hfault
    exact ⟨hw, h0, hst, hseq, hchanged, hshort, fun _ => henter⟩

/-- SEQ_FAULT told and the reference lost, settled. -/
theorem State.faulted_settled (hr : s.RegsWf) (ht : Store.wf dTs s.tsc.ts = true) :
    let n := (s.winStat s.sec0).n
    let u := ((s.sticky DSC.STICKY_SEQ_FAULT).loseRef 6).settled s
    u.dstate = (if n < 64 then dFREE else dHOLD) ∧ u.on DSC.STICKY_SEQ_FAULT = true
      ∧ u.on DSC.STICKY_STATE_CHANGE = true ∧ u.on DSC.HO_STAT_SHORT = decide (n < 64)
      ∧ (64 ≤ n → u.on DSC.STICKY_HO_ENTER = true ∧ u.nreg DSC.HO_ENTRY = s.sec0 % 2 ^ 32) := by
  have htell : Signals [DSC.STICKY] s _ := s.sticky_signals DSC.STICKY_SEQ_FAULT rfl (by decide) (.inl (by decide))
  have hset : (s.sticky DSC.STICKY_SEQ_FAULT).on DSC.STICKY_SEQ_FAULT = true := State.sticky_dsc_on hr rfl (by decide) rfl
  have hwin := State.winStat_of_signals htell hr
  have hsec : (s.sticky DSC.STICKY_SEQ_FAULT).sec0 = s.sec0 :=
    congrArg (· / qSec) (State.tsNow_of_signals (n := 0) htell hr (by decide) (by decide))
  obtain ⟨hw, h0, hlost⟩ := State.loseRef_spec (htell.regsWf hr) (htell.tsc ▸ ht) hset
  rw [hwin, hsec] at hlost
  obtain ⟨hst, hseq, hchanged, hshort, henter⟩ := hlost
  obtain ⟨hreg, _, _⟩ := State.settled_frame (h0.trans (congrArg TscS.steps0 htell.tsc))
  have hkeep : ∀ k, dscReg k → _ = ((s.sticky DSC.STICKY_SEQ_FAULT).loseRef 6).reg k := fun k hd => hreg k hw hd
  have hon : ∀ f : Fld, dscReg f.addr → _ = ((s.sticky DSC.STICKY_SEQ_FAULT).loseRef 6).on f := fun f hd => State.on_congr (hkeep _ hd)
  refine ⟨(State.rd_congr (hkeep _ (by decide))).trans hst, (hon _ (by decide)).trans hseq,
    (hon _ (by decide)).trans hchanged, (hon _ (by decide)).trans hshort, fun hle => ?_⟩
  obtain ⟨hentered, hentry⟩ := henter hle
  exact ⟨(hon _ (by decide)).trans hentered, (congrArg BitVec.toNat (hkeep _ (by decide))).trans hentry⟩

end

/-- Settles O33: what each row of the state table leaves is a lemma about the row. -/
theorem disciplineStatesChangeAndAreLogged : Obligations.DisciplineStatesChangeAndAreLogged := by
  intro t s a hc ha
  have hr : a.RegsWf := ha ▸ State.advance_regsWf hc.regs t
  have ht : Store.wf dTs a.tsc.ts = true := ha ▸ (State.advance_canon hc t).ts
  have hdsc : a.dsc = s.dsc := ha ▸ s.advance_dsc t
  have hrd : ∀ f, a.rd f = s.rd f := fun f => ha ▸ s.advance_rd t f
  have hreg : ∀ k, a.nreg k = s.nreg k := fun k => ha ▸ s.advance_nreg t k
  have hst : a.dstate = s.dstate := hrd _
  have hkind : a.pullKind = s.pullKind := hrd _
  have hact : a.active = s.active := ha ▸ s.advance_active t
  have hpull : exec (.pullDone t) s = .next a.pullCheck := ha ▸ rfl
  have hlocks : exec (.lockTimeElapsed t) s = .next (if a.dstate = dACQ then a.dscEval.settled a else a) := ha ▸ rfl
  have hunlocks : exec (.unlockTimeout t) s = .next (if a.dstate = dLOCKED then a.dscEval.settled a else a) := ha ▸ rfl
  have hfaults : exec (.dscSeqFaultTimeout t) s = .next (if a.mainFaulted then a.dscEval.settled a else a) := ha ▸ rfl
  rw [← hst, ← hkind, ← hact, ← hdsc]
  simp only [← hrd, ← hreg]
  refine ⟨fun hk => ?_, fun hk hraw hrem hi => ?_, fun l hacq hactive hk hlock hdue => ?_, fun hne => ?_,
    fun l hlocked hactive hfar hdue => ?_, fun hne => ?_, fun hlocked hactive hfault hfar => ?_, fun hok => ?_⟩
  · rw [hpull, State.pullCheck_idle hk]
  · have hshow := a.showSlew_signals 0
    obtain ⟨hnone, hsel, hpulling, htold, hsig⟩ := State.pullDone_spec (hshow.regsWf hr)
    exact ⟨_, hpull.trans (congrArg _ (State.pullCheck_done hr hk hraw hrem hi)), hnone, hsel, hpulling, htold,
      (hshow.mono (by decide)).trans (hsig.mono (by decide))⟩
  · obtain ⟨hwent, hadv, hqual, hest, hhold, hraw⟩ := State.lock_settled hr
    rw [hlocks, if_pos hacq, State.dscEval_lock hacq hactive hk hlock hdue]
    exact ⟨_, rfl, hwent.dstate, hadv, hqual, hwent.told, hest, hhold, hwent.count, hraw⟩
  · rw [hlocks, if_neg hne]
  · obtain ⟨hwent, hunlock, hest, hentered, hraw⟩ := State.unlock_settled hr hlocked
    rw [hunlocks, if_pos hlocked, State.dscEval_unlock hlocked hactive hfar hdue]
    exact ⟨_, rfl, hwent.dstate, hunlock, hwent.told, hest, hentered, hwent.count, hraw⟩
  · rw [hunlocks, if_neg hne]
  · rw [hfaults, if_pos hfault, State.dscEval_faulted hlocked hactive hfar hfault]
    exact ⟨_, rfl, State.faulted_settled hr ht⟩
  · rw [hfaults, hok]
    rfl

end Sys2Proof.Machine

namespace Sys2Proof.Machine

/-! ### Signals beside a change of the part of GRT -/

/-- `t` is `s` but for the part of GRT beyond its registers, the registers `ks` and what signalling changes. -/
abbrev GrtSignals (ks : List Nat) (s t : State) : Prop := Signals ks { s with grt := t.grt } t

section
variable {ks : List Nat} {s t u : State}

theorem Signals.setGrt (h : Signals ks s t) (g : GrtS) : Signals ks { s with grt := g } { t with grt := g } :=
  { h with grt := rfl, reg := h.reg, on := h.on }

theorem GrtSignals.of_signals (h : Signals ks s t) : GrtSignals ks s t := by
  rw [GrtSignals, h.grt]
  exact h

theorem GrtSignals.refl (ks : List Nat) (s : State) : GrtSignals ks s s := Signals.refl ks s

theorem GrtSignals.trans (h : GrtSignals ks s t) (g : GrtSignals ks t u) : GrtSignals ks s u := Signals.trans (Signals.setGrt h u.grt) g

theorem GrtSignals.mono {ks' : List Nat} (h : GrtSignals ks s t) (hk : ∀ k ∈ ks, k ∈ ks') : GrtSignals ks' s t := Signals.mono h hk

theorem GrtSignals.regsWf (h : GrtSignals ks s t) (w : s.RegsWf) : t.RegsWf := Signals.regsWf h w

theorem GrtSignals.nreg (h : GrtSignals ks s t) (w : s.RegsWf) {k : Nat} (hk : k ∉ ks) (ha : k ∉ alarmKeys) : t.nreg k = s.nreg k :=
  Signals.nreg_eq h w hk ha

theorem GrtSignals.on (h : GrtSignals ks s t) (w : s.RegsWf) {f : Fld} (hk : f.addr ∉ ks) (ha : f.addr ∉ alarmKeys) : t.on f = s.on f :=
  Signals.on_eq h w hk ha

end

/-! ### A change of the Grotto's state (R153) -/

/-- The registers that a change of the Grotto's state writes. -/
def grottoKeys : List Nat := [GRT.STATE, GRT.RUN_HOURS] ++ (List.range 16).map GRT.STATE_LOG

/-- Those and the sticky register of GRT. -/
def grottoRowKeys : List Nat := GRT.STICKY :: grottoKeys

/-- The entry `e` of the log written, and the change counted. -/
def State.logGrotto (s : State) (e : Nat) : State :=
  ((s.setN (GRT.STATE_LOG (s.rd GRT.STATE_LOG_NEXT)) e).wr GRT.STATE_LOG_NEXT ((s.rd GRT.STATE_LOG_NEXT + 1) % 10)).bumpF
    GRT.STATE_CHANGES

/-- A change to state `new` logged and written, with the hours in READY. -/
def State.toGstate (s : State) (new e hours : Nat) : State := ((s.logGrotto e).wr GRT.STATE_STATE new).setN GRT.RUN_HOURS hours

/-- From `s` to `u` the Grotto went to state `new`. -/
structure GrottoTo (new : Nat) (s u : State) : Prop where
  gstate : u.gstate = new
  heat : new = gWARMING → u.heatTime = 0
  signals : GrtSignals grottoKeys s u

section
variable {s u : State} {new cause : Nat} {f : Fld}

theorem State.gchange_eq (s : State) (new cause : Nat) : ∃ e hours g, (new = gWARMING → g.heatRaw = s.raw)
    ∧ s.gchange new cause = ((s.toGstate new e hours).setGrt fun _ => g).journal 9 6 (leBytes 4 e) :=
  ⟨_, _, _, fun h => if_pos h, rfl⟩

theorem stateLog_mem_grottoKeys {n : Nat} (hn : n < 16) : GRT.STATE_LOG n ∈ grottoKeys :=
  List.mem_append_right _ (List.mem_map_of_mem (List.mem_range.mpr hn))

theorem State.logGrotto_signals (s : State) (e : Nat) : Signals grottoKeys s (s.logGrotto e) :=
  ((Signals.setN s _ e (.inl (stateLog_mem_grottoKeys (bitsOf_lt _ _ _)))).trans
    (Signals.wr _ GRT.STATE_LOG_NEXT _ (.inl (by decide)))).trans (Signals.wr _ GRT.STATE_CHANGES _ (.inl (by decide)))

theorem State.toGstate_signals (s : State) (new e hours : Nat) : Signals grottoKeys s (s.toGstate new e hours) :=
  ((s.logGrotto_signals e).trans (Signals.wr _ GRT.STATE_STATE _ (.inl (by decide)))).trans (Signals.setN _ _ _ (.inl (by decide)))

theorem State.toGstate_gstate (hr : s.RegsWf) (hnew : new < 8) (e hours : Nat) : (s.toGstate new e hours).gstate = new := by
  have hlog := (s.logGrotto_signals e).regsWf hr
  calc (s.toGstate new e hours).gstate
      = ((s.logGrotto e).wr GRT.STATE_STATE new).gstate := State.rd_setN_ne _ _ _ _ (State.wr_regsWf _ _ _ hlog) (by decide)
    _ = new % 8 := State.rd_wr _ GRT.STATE_STATE new hlog (by decide)
    _ = new := Nat.mod_eq_of_lt hnew

@[simp] theorem State.setGrt_raw (s : State) (g : GrtS → GrtS) : (s.setGrt g).raw = s.raw := rfl

@[simp] theorem State.setGrt_grt (s : State) (g : GrtS → GrtS) : (s.setGrt g).grt = g s.grt := rfl

@[simp] theorem State.setGrt_gstate (s : State) (g : GrtS → GrtS) : (s.setGrt g).gstate = s.gstate := rfl

/-- The state is written, then a record is made of it. -/
theorem State.gchange_grottoTo (hr : s.RegsWf) (hnew : new < 8) (cause : Nat) : GrottoTo new s (s.gchange new cause) := by
  obtain ⟨e, hours, g, hheat, heq⟩ := s.gchange_eq new cause
  have hto := s.toGstate_signals new e hours
  have hjrn : Signals [] ((s.toGstate new e hours).setGrt fun _ => g) (s.gchange new cause) := heq ▸ State.journal_signals _ _ _ _
  have hset : GrtSignals grottoKeys s ((s.toGstate new e hours).setGrt fun _ => g) := hto.setGrt g
  refine ⟨?_, fun hn => ?_, hset.trans (.of_signals (hjrn.mono (by simp)))⟩
  · exact (hjrn.rd_eq (f := GRT.STATE_STATE) (hset.regsWf hr) (by simp) (by decide)).trans
      ((State.setGrt_gstate _ _).trans (State.toGstate_gstate hr hnew e hours))
  · rw [State.heatTime, hjrn.grt, hjrn.raw, State.setGrt_raw, State.setGrt_grt, hheat hn, hto.raw, Nat.sub_self]

theorem Signals.gstate {ks : List Nat} (h : Signals ks s u) (hr : s.RegsWf) (hk : GRT.STATE ∉ ks) : u.gstate = s.gstate :=
  h.rd_eq (f := GRT.STATE_STATE) hr hk (by decide)

/-- A sticky bit of GRT told after a change. -/
theorem GrtSignals.tell {ks : List Nat} (h : GrtSignals ks s u) (hr : s.RegsWf) (hw : f.w = 1) (hl : f.lo < 32)
    (ha : f.addr = GRT.STICKY) : (u.sticky f).gstate = u.gstate ∧ (u.sticky f).on f = true ∧ (u.sticky f).heatTime = u.heatTime
      ∧ GrtSignals (GRT.STICKY :: ks) s (u.sticky f) := by
  have hwf := h.regsWf hr
  have htell : Signals [GRT.STICKY] u (u.sticky f) := u.sticky_signals f hw hl (.inl (by simp [ha]))
  exact ⟨htell.gstate hwf (by decide), u.sticky_on f hwf hw hl (ha ▸ by decide),
    by rw [State.heatTime, htell.grt, htell.raw, State.heatTime],
    (h.mono fun _ => List.mem_cons_of_mem _).trans (.of_signals (htell.mono (by simp)))⟩

/-- A change of the Grotto's state told by a sticky bit. -/
theorem State.gchange_told (hr : s.RegsWf) (hnew : new < 8) (cause : Nat) (hw : f.w = 1) (hl : f.lo < 32) (ha : f.addr = GRT.STICKY) :
    ((s.gchange new cause).sticky f).gstate = new ∧ ((s.gchange new cause).sticky f).on f = true
      ∧ (new = gWARMING → ((s.gchange new cause).sticky f).heatTime = 0)
      ∧ GrtSignals grottoRowKeys s ((s.gchange new cause).sticky f) := by
  have hto := State.gchange_grottoTo hr hnew cause
  obtain ⟨hst, hon, hheat, hsig⟩ := hto.signals.tell hr hw hl ha
  exact ⟨hst.trans hto.gstate, hon, fun hn => hheat.trans (hto.heat hn), hsig⟩

/-- The heater starts from OFF with HEAT_EN and VHTR above 4.6 V. -/
theorem State.heatStart_spec (hr : s.RegsWf) :
    s.heatStart.gstate = (if s.gstate = gOFF ∧ s.on GRT.CTRL_HEAT_EN = true ∧ 4600 < s.nreg GRT.VHTR_MV then gWARMING else s.gstate)
      ∧ GrtSignals grottoKeys s s.heatStart := by
  unfold State.heatStart
  split
  · have hto := State.gchange_grottoTo hr (new := gWARMING) (by decide) 0
    exact ⟨hto.gstate, hto.signals⟩
  · exact ⟨rfl, .refl _ s⟩

/-- HEAT_EN written 1 starts the heater where VHTR allows it (R153). -/
theorem State.heatWrite_on (hr : s.RegsWf) : (s.heatWrite true).on GRT.CTRL_HEAT_EN = true
    ∧ (s.heatWrite true).gstate = (if s.gstate = gOFF ∧ 4600 < s.nreg GRT.VHTR_MV then gWARMING else s.gstate)
    ∧ GrtSignals (GRT.CTRL :: grottoKeys) s (s.heatWrite true) := by
  have hset : Signals [GRT.CTRL] s (s.wrB GRT.CTRL_HEAT_EN true) := Signals.wr s GRT.CTRL_HEAT_EN _ (.inl (by decide))
  have hon : (s.wrB GRT.CTRL_HEAT_EN true).on GRT.CTRL_HEAT_EN = true := State.on_wrB hr (by decide) rfl true
  have hw := hset.regsWf hr
  obtain ⟨hst, hsig⟩ := State.heatStart_spec hw
  rw [hset.gstate hr (by decide), hset.nreg_eq hr (by decide) (by decide), hon] at hst
  have heq : s.heatWrite true = (s.wrB GRT.CTRL_HEAT_EN true).heatStart := rfl
  rw [heq]
  exact ⟨(hsig.on hw (by decide) (by decide)).trans hon, by simpa using hst,
    (GrtSignals.of_signals (hset.mono (by decide))).trans (hsig.mono (by decide))⟩

/-- HEAT_EN written 0 stops the heater in every state but FAULT, where the Grotto is not the active oscillator (R153, R154). -/
theorem State.heatWrite_off (hr : s.RegsWf) (hact : s.grottoActive = false) : (s.heatWrite false).on GRT.CTRL_HEAT_EN = false
    ∧ (s.heatWrite false).gstate = (if s.gstate = gFAULT then gFAULT else gOFF)
    ∧ GrtSignals (GRT.CTRL :: grottoKeys) s (s.heatWrite false) := by
  have hset : Signals [GRT.CTRL] s (s.wrB GRT.CTRL_HEAT_EN false) := Signals.wr s GRT.CTRL_HEAT_EN _ (.inl (by decide))
  have hoff : (s.wrB GRT.CTRL_HEAT_EN false).on GRT.CTRL_HEAT_EN = false := State.on_wrB hr (by decide) rfl false
  have hst := hset.gstate hr (by decide)
  have hw := hset.regsWf hr
  have heq : s.heatWrite false = if (s.wrB GRT.CTRL_HEAT_EN false).gstate = gFAULT ∨ (s.wrB GRT.CTRL_HEAT_EN false).gstate = gOFF then
      s.wrB GRT.CTRL_HEAT_EN false else (s.wrB GRT.CTRL_HEAT_EN false).gchange gOFF 3 := by
    simp [State.heatWrite, hact]
  rw [heq, hst]
  split
  next h =>
    refine ⟨hoff, hst.trans ?_, .of_signals (hset.mono (by decide))⟩
    rcases h with h | h <;> rw [h] <;> rfl
  next h =>
    have hto := State.gchange_grottoTo hw (new := gOFF) (by decide) 3
    exact ⟨(hto.signals.on hw (by decide) (by decide)).trans hoff, by rw [hto.gstate, if_neg fun e => h (.inl e)],
      (GrtSignals.of_signals (hset.mono (by decide))).trans (hto.signals.mono (by decide))⟩

/-- RETRY leaves FAULT for OFF, and the heater starts from there where it may (R153). -/
theorem State.grtRetry_spec (hr : s.RegsWf) : s.grtRetry.gstate = (if s.gstate ≠ gFAULT then s.gstate
      else if s.on GRT.CTRL_HEAT_EN = true ∧ 4600 < s.nreg GRT.VHTR_MV then gWARMING else gOFF)
    ∧ GrtSignals grottoKeys s s.grtRetry := by
  unfold State.grtRetry
  by_cases hf : s.gstate = gFAULT
  · have hto := State.gchange_grottoTo hr (new := gOFF) (by decide) 6
    have hw := hto.signals.regsWf hr
    obtain ⟨hst, hsig⟩ := State.heatStart_spec hw
    rw [hto.gstate, hto.signals.on hr (by decide) (by decide), hto.signals.nreg hr (by decide) (by decide)] at hst
    rw [if_pos hf, if_neg (not_not.mpr hf)]
    exact ⟨by simpa using hst, hto.signals.trans hsig⟩
  · rw [if_neg hf, if_pos hf]
    exact ⟨rfl, .refl _ s⟩

end

/-! ### The rows of R153's table -/

/-- The register `k` reads `v`, and from `s` to `u` the Grotto went to state `new`, told by the sticky bit `f`, where the event `c`
holds; `ks` are the registers that the change writes. -/
structure GrottoRow (k v : Nat) (c : Prop) [Decidable c] (new : Nat) (f : Fld) (ks : List Nat) (s u : State) : Prop where
  val : u.nreg k = v % 2 ^ 32
  gstate : u.gstate = if c then new else s.gstate
  told : c → u.on f = true
  signals : GrtSignals (k :: ks) s u

section
variable {s w : State} {k v new cause : Nat} {f : Fld} {ks : List Nat}

/-- VHTR or the cavity is read, and the reading leaves the state. -/
theorem State.setN_reading (hr : s.RegsWf) (hk : k ∈ [GRT.CAVITY_T, GRT.VHTR_MV]) (v : Nat) : (s.setN k v).RegsWf
    ∧ (s.setN k v).gstate = s.gstate ∧ Signals [k] s (s.setN k v) := by
  have hsig : Signals [k] s (s.setN k v) := Signals.setN s k v (.inl List.mem_cons_self)
  have hst : GRT.STATE ≠ k := fun h => absurd (h ▸ hk) (by decide)
  exact ⟨hsig.regsWf hr, hsig.gstate hr (by simpa using hst), hsig⟩

/-- A reading, followed by a change where the event holds, is a row. -/
theorem GrottoRow.of_change (hr : s.RegsWf) (hk : k ∈ [GRT.CAVITY_T, GRT.VHTR_MV]) (hks : k ∉ ks) (c : Prop) [Decidable c]
    (h : c → w.gstate = new ∧ w.on f = true ∧ GrtSignals ks (s.setN k v) w) :
    GrottoRow k v c new f ks s (if c then w else s.setN k v) := by
  obtain ⟨hwf, hst, hread⟩ := State.setN_reading hr hk v
  have hval := s.nreg_setN k v hr
  have hfrom : GrtSignals (k :: ks) s (s.setN k v) := .of_signals (hread.mono (by simp))
  have hka : k ∉ alarmKeys := (by decide : ∀ k ∈ [GRT.CAVITY_T, GRT.VHTR_MV], k ∉ alarmKeys) k hk
  by_cases hc : c
  · obtain ⟨hnew, htold, hsig⟩ := h hc
    rw [if_pos hc]
    exact ⟨(hsig.nreg hwf hks hka).trans hval, hnew.trans (if_pos hc).symm, fun _ => htold,
      hfrom.trans (hsig.mono fun _ => List.mem_cons_of_mem _)⟩
  · rw [if_neg hc]
    exact ⟨hval, hst.trans (if_neg hc).symm, fun h => absurd h hc, hfrom⟩

/-- VHTR below 4.5 V stops the heater in every state but FAULT. -/
def State.vhtrDrop (s : State) : State := (if s.gstate = gOFF then s else s.gchange gOFF 4).sticky GRT.STICKY_VHTR_LOW

theorem State.vhtrDrop_spec (hr : s.RegsWf) : s.vhtrDrop.gstate = gOFF ∧ s.vhtrDrop.on GRT.STICKY_VHTR_LOW = true
    ∧ GrtSignals grottoRowKeys s s.vhtrDrop := by
  have hstop : (if s.gstate = gOFF then s else s.gchange gOFF 4).gstate = gOFF
      ∧ GrtSignals grottoKeys s (if s.gstate = gOFF then s else s.gchange gOFF 4) := by
    split
    next h => exact ⟨h, .refl _ s⟩
    next h =>
      have hto := State.gchange_grottoTo hr (new := gOFF) (by decide) 4
      exact ⟨hto.gstate, hto.signals⟩
  obtain ⟨hst, hon, -, hsig⟩ := hstop.2.tell hr (f := GRT.STICKY_VHTR_LOW) rfl (by decide) rfl
  exact ⟨hst.trans hstop.1, hon, hsig⟩

/-- A fault of the sensors is counted. -/
def State.sensorFault (s : State) : State := ((s.gchange gFAULT 5).bump GRT.FAULTS).sticky GRT.STICKY_FAULT

theorem State.sensorFault_spec (hr : s.RegsWf) : s.sensorFault.gstate = gFAULT ∧ s.sensorFault.on GRT.STICKY_FAULT = true
    ∧ s.sensorFault.nreg GRT.FAULTS = (s.nreg GRT.FAULTS + 1) % 2 ^ 32 ∧ GrtSignals (GRT.FAULTS :: grottoRowKeys) s s.sensorFault := by
  have hto := State.gchange_grottoTo hr (new := gFAULT) (by decide) 5
  have hw := hto.signals.regsWf hr
  have hbump : Signals [GRT.FAULTS] (s.gchange gFAULT 5) ((s.gchange gFAULT 5).bump GRT.FAULTS) := Signals.bump _ _ _ (.inl (by simp))
  have htell : Signals [GRT.STICKY] ((s.gchange gFAULT 5).bump GRT.FAULTS) s.sensorFault :=
    State.sticky_signals _ GRT.STICKY_FAULT rfl (by decide) (.inl (by decide))
  obtain ⟨hst, hon, -, hsig⟩ := (GrtSignals.of_signals hbump).tell hw (f := GRT.STICKY_FAULT) rfl (by decide) rfl
  refine ⟨hst.trans ((hbump.gstate hw (by decide)).trans hto.gstate), hon, ?_,
    (hto.signals.mono (by decide)).trans (hsig.mono (by decide))⟩
  rw [htell.nreg_eq (hbump.regsWf hw) (by decide) (by decide), State.bump, State.nreg_setN _ _ _ hw,
    hto.signals.nreg hr (by decide) (by decide)]

/-- A row of the cavity whose event holds changes the state with its cause. -/
theorem State.cavityRow (hr : s.RegsWf) (x : Int) (c : Prop) [Decidable c] (hnew : new < 8) (cause : Nat) (hw : f.w = 1) (hl : f.lo < 32)
    (ha : f.addr = GRT.STICKY) : GrottoRow GRT.CAVITY_T (ofSigned 32 x) c new f grottoRowKeys s
      (if c then ((s.setCavity x).gchange new cause).sticky f else s.setCavity x) := by
  obtain ⟨hst, hon, -, hsig⟩ := State.gchange_told (s.setN_regsWf _ _ hr) hnew cause hw hl ha
  exact .of_change hr (by decide) (by decide) c fun _ => ⟨hst, hon, hsig⟩

theorem State.setCavity_gstate (hr : s.RegsWf) (x : Int) : (s.setCavity x).gstate = s.gstate := (State.setN_reading hr (by decide) _).2.1

end

/-! ### The commands of the Grotto -/

section
variable {s a : State} {m val t : Nat} (ha : a = s.advance t)
include ha

theorem exec_grtCtrlWrite (hg : a.access m GRT.CTRL .write = .granted) (h1 : bitAt val 1 = false) :
    exec (.grtCtrlWrite m val t) s = .next (a.heatWrite (bitAt val 0)) := by
  show execGrtCtrlWrite m val t s = _
  simp [execGrtCtrlWrite, ← ha, hg, State.grtCtrl, h1]

theorem exec_grtRetry (hg : a.access m GRT.CTRL .write = .granted) :
    exec (.grtRetry m t) s = .next a.grtRetry := by
  show execGrtRetry m t s = _
  simp [execGrtRetry, ← ha, hg]

variable {c c2 : Int} {mv : Nat}

theorem exec_grottoWarm (hr : a.RegsWf) : ∃ u, exec (.grottoWarm c t) s = .next u
    ∧ GrottoRow GRT.CAVITY_T (ofSigned 32 c) (a.gstate = gWARMING ∧ inBand c 250 = true) gWARM GRT.STICKY_WARM grottoRowKeys
        a u := by
  refine ⟨_, ?_, State.cavityRow hr c _ (by decide) 1 rfl (by decide) rfl⟩
  rw [← State.setCavity_gstate hr c, ha]
  rfl

theorem exec_grottoReady (hr : a.RegsWf) : ∃ u, exec (.grottoReady c t) s = .next u
    ∧ GrottoRow GRT.CAVITY_T (ofSigned 32 c) (a.gstate = gWARM ∧ inBand c 10 = true ∧ 1800 * qSec ≤ a.heatTime)
        gREADY GRT.STICKY_READY grottoRowKeys a u := by
  refine ⟨_, ?_, State.cavityRow hr c _ (by decide) 1 rfl (by decide) rfl⟩
  rw [← State.setCavity_gstate hr c, ha]
  rfl

theorem exec_grottoReadyLost (hr : a.RegsWf) : ∃ u, exec (.grottoReadyLost c t) s = .next u
    ∧ GrottoRow GRT.CAVITY_T (ofSigned 32 c) (a.gstate = gREADY ∧ inBand c 20 = false) gWARM GRT.STICKY_READY_LOST grottoRowKeys
        a u := by
  refine ⟨_, ?_, State.cavityRow hr c _ (by decide) 2 rfl (by decide) rfl⟩
  rw [← State.setCavity_gstate hr c, ha]
  rfl

/-- Where the band is lost the heating time starts anew. -/
theorem exec_grottoBandLost (hr : a.RegsWf) : ∃ u, exec (.grottoBandLost c t) s = .next u
    ∧ GrottoRow GRT.CAVITY_T (ofSigned 32 c) ((a.gstate = gWARM ∨ a.gstate = gREADY) ∧ inBand c 500 = false)
        gWARMING GRT.STICKY_WARMING grottoRowKeys a u
    ∧ ((a.gstate = gWARM ∨ a.gstate = gREADY) ∧ inBand c 500 = false → u.heatTime = 0) := by
  refine ⟨_, ?_, State.cavityRow hr c _ (by decide) 2 rfl (by decide) rfl, fun h => ?_⟩
  · rw [← State.setCavity_gstate hr c, ha]
    rfl
  · rw [if_pos h]
    obtain ⟨-, -, hheat, -⟩ := State.gchange_told (State.setN_regsWf _ GRT.CAVITY_T (ofSigned 32 c) hr) (new := gWARMING) (by decide) 2
      (f := GRT.STICKY_WARMING) rfl (by decide) rfl
    exact hheat rfl

theorem exec_vhtrLow (hr : a.RegsWf) : ∃ u, exec (.vhtrLow mv t) s = .next u
    ∧ GrottoRow GRT.VHTR_MV mv (mv < 4500 ∧ a.gstate ≠ gFAULT) gOFF GRT.STICKY_VHTR_LOW grottoRowKeys a u := by
  obtain ⟨hw', hst, -⟩ := State.setN_reading hr (k := GRT.VHTR_MV) (by decide) mv
  refine ⟨_, ?_, .of_change hr (by decide) (by decide) _ fun _ => State.vhtrDrop_spec hw'⟩
  rw [← hst, ha]
  rfl

theorem exec_grottoSensorFault (hr : a.RegsWf) : ∃ u, exec (.grottoSensorFault c c2 t) s = .next u
    ∧ GrottoRow GRT.CAVITY_T (ofSigned 32 (roundDiv (c + c2) 2))
        ((1000 < (c - c2).natAbs ∨ 125000 < c ∨ 125000 < c2) ∧ a.gstate ≠ gFAULT) gFAULT GRT.STICKY_FAULT
        (GRT.FAULTS :: grottoRowKeys) a u
    ∧ ((1000 < (c - c2).natAbs ∨ 125000 < c ∨ 125000 < c2) ∧ a.gstate ≠ gFAULT →
        u.nreg GRT.FAULTS = (a.nreg GRT.FAULTS + 1) % 2 ^ 32) := by
  obtain ⟨hw', -, hread⟩ := State.setN_reading hr (k := GRT.CAVITY_T) (by decide) (ofSigned 32 (roundDiv (c + c2) 2))
  obtain ⟨hst, htold, hcount, hsig⟩ := State.sensorFault_spec hw'
  refine ⟨_, ?_, .of_change hr (by decide) (by decide) _ fun _ => ⟨hst, htold, hsig⟩, fun h => ?_⟩
  · rw [← State.setCavity_gstate hr (roundDiv (c + c2) 2), ha]
    rfl
  · rw [if_pos h, hcount, hread.nreg_eq hr (by decide) (by decide)]

theorem exec_vhtrRestored (hr : a.RegsWf) (hmv : mv < 2 ^ 32) : ∃ u, exec (.vhtrRestored mv t) s = .next u ∧ u.nreg GRT.VHTR_MV = mv
    ∧ u.gstate = (if a.gstate = gOFF ∧ a.on GRT.CTRL_HEAT_EN = true ∧ 4600 < mv then gWARMING
        else a.gstate)
    ∧ GrtSignals (GRT.VHTR_MV :: grottoKeys) a u := by
  obtain ⟨hw', hst, hread⟩ := State.setN_reading hr (k := GRT.VHTR_MV) (by decide) mv
  obtain ⟨hstart, hsig⟩ := State.heatStart_spec hw'
  have hval : (a.setN GRT.VHTR_MV mv).nreg GRT.VHTR_MV = mv := (State.nreg_setN _ _ _ hr).trans (Nat.mod_eq_of_lt hmv)
  rw [hst, hread.on_eq hr (by decide) (by decide), hval] at hstart
  exact ⟨_, ha ▸ rfl, (hsig.nreg hw' (by decide) (by decide)).trans hval, hstart,
    (GrtSignals.of_signals (hread.mono (by decide))).trans (hsig.mono (by decide))⟩

end

/-- Settles O35: a write of CTRL by what it does with HEAT_EN, each other command by its row of R153's table. -/
theorem grottoStates : Obligations.GrottoStates := by
  intro c c2 m mv val t s a hc ha _
  have hr : a.RegsWf := ha ▸ State.advance_regsWf hc.regs t
  have hst : a.gstate = s.gstate := ha ▸ s.advance_rd t _
  have hon : ∀ f, s.on f = a.on f := fun f => ha ▸ (s.advance_on t f).symm
  have hnreg : ∀ k, s.nreg k = a.nreg k := fun k => ha ▸ (s.advance_nreg t k).symm
  have hact : s.grottoActive = a.grottoActive := hon _
  simp only [← hst, hon, hnreg, hact]
  refine ⟨fun hg => ⟨fun h0 h1 => ?_, fun h0 h1 hact => ?_, fun h0 h1 hact => ?_, ?_⟩, ?_, ?_, ?_, ?_, ?_, fun hmv => ?_, ?_⟩
  · obtain ⟨hset, hgs, hsig⟩ := State.heatWrite_on hr
    exact ⟨_, h0 ▸ exec_grtCtrlWrite ha hg h1, hset, hgs, hsig.mono (by decide)⟩
  · obtain ⟨hset, hgs, hsig⟩ := State.heatWrite_off hr hact
    exact ⟨_, h0 ▸ exec_grtCtrlWrite ha hg h1, hset, hgs, hsig.mono (by decide)⟩
  · have heq : a.heatWrite false = a.refuseCfg .grt := by simp [State.heatWrite, hact]
    have hsig : Signals [GRT.STICKY] a (a.refuseCfg .grt) := a.refuseCfg_signals .grt
    exact ⟨a.refuseCfg .grt, heq ▸ h0 ▸ exec_grtCtrlWrite ha hg h1,
      State.sticky_on _ _ hr rfl (by decide) (by decide), hsig.gstate hr (by decide), hsig⟩
  · obtain ⟨hgs, hsig⟩ := State.grtRetry_spec hr
    exact ⟨_, exec_grtRetry ha hg, hgs, hsig.mono (by decide)⟩
  · obtain ⟨u, hx, hrow⟩ := exec_grottoWarm ha hr (c := c)
    exact ⟨u, hx, congrArg (toSigned 32) (hrow.val.trans (Nat.mod_eq_of_lt (ofSigned_lt 32 c))), hrow.gstate,
      fun h h' => hrow.told ⟨h, h'⟩, hrow.signals.mono (by decide)⟩
  · obtain ⟨u, hx, hrow⟩ := exec_grottoReady ha hr (c := c)
    exact ⟨u, hx, hrow.gstate, fun h h' h'' => hrow.told ⟨h, h', h''⟩, hrow.signals.mono (by decide)⟩
  · obtain ⟨u, hx, hrow⟩ := exec_grottoReadyLost ha hr (c := c)
    exact ⟨u, hx, hrow.gstate, fun h h' => hrow.told ⟨h, h'⟩, hrow.signals.mono (by decide)⟩
  · obtain ⟨u, hx, hrow, hheat⟩ := exec_grottoBandLost ha hr (c := c)
    exact ⟨u, hx, hrow.gstate, fun h h' => ⟨hrow.told ⟨h, h'⟩, hheat ⟨h, h'⟩⟩, hrow.signals.mono (by decide)⟩
  · obtain ⟨u, hx, hrow⟩ := exec_vhtrLow ha hr (mv := mv)
    exact ⟨u, hx, hrow.val, hrow.gstate, fun h h' => hrow.told ⟨h, h'⟩, hrow.signals.mono (by decide)⟩
  · obtain ⟨u, hx, hval, hgs, hsig⟩ := exec_vhtrRestored ha hr hmv
    exact ⟨u, hx, hval, hgs, hsig.mono (by decide)⟩
  · obtain ⟨u, hx, hrow, hcount⟩ := exec_grottoSensorFault ha hr (c := c) (c2 := c2)
    refine ⟨u, hx, hrow.gstate.trans ?_, fun h h' => ⟨hrow.told ⟨h, h'⟩, hcount ⟨h, h'⟩⟩, hrow.signals.mono (by decide)⟩
    by_cases hf : a.gstate = gFAULT <;> simp [hf]

end Sys2Proof.Machine

namespace Sys2Proof.Machine

/-! ### The clock outputs: their registers -/

theorem not_mem_alarmKeys_of_cko {k : Nat} (h : 0x50000 ≤ k) (h' : k < 0x60000) : k ∉ alarmKeys := fun hk =>
  absurd ((by decide : ∀ j ∈ alarmKeys, j < 0x50000 ∨ 0x60000 ≤ j) k hk) (by omega)

theorem outStat_not_mem_alarmKeys {n : Nat} (hn : n < 12) : CKO.OUT_STAT n ∉ alarmKeys :=
  not_mem_alarmKeys_of_cko (by unfold CKO.OUT_STAT; omega) (by unfold CKO.OUT_STAT; omega)

theorem planeStat_not_mem_alarmKeys {p : Nat} (hp : p < 2) : CKO.PLANE_STAT p ∉ alarmKeys :=
  not_mem_alarmKeys_of_cko (by unfold CKO.PLANE_STAT; omega) (by unfold CKO.PLANE_STAT; omega)

theorem outStat_ne_stat {n : Nat} : CKO.OUT_STAT n ≠ CKO.STAT := by
  unfold CKO.OUT_STAT CKO.STAT
  omega

theorem outStat_ne {n m : Nat} (h : n ≠ m) : CKO.OUT_STAT n ≠ CKO.OUT_STAT m := by
  unfold CKO.OUT_STAT
  omega

theorem outCfg_ne_outStat {n m : Nat} : CKO.OUT_CFG n ≠ CKO.OUT_STAT m := by
  unfold CKO.OUT_CFG CKO.OUT_STAT
  omega

theorem planeStat_ne_outStat {p n : Nat} (hp : p < 2) : CKO.PLANE_STAT p ≠ CKO.OUT_STAT n := by
  unfold CKO.PLANE_STAT CKO.OUT_STAT
  omega

theorem planeStat_ne_stat {p : Nat} : CKO.PLANE_STAT p ≠ CKO.STAT := by
  unfold CKO.PLANE_STAT CKO.STAT
  omega

/-! ### A register written field by field -/

/-- The register `k` of `s` holds the word `x`. -/
structure HasWord (k x : Nat) (s : State) : Prop where
  regsWf : s.RegsWf
  nreg : s.nreg k = x

section
variable {k x : Nat} {s : State}

/-- A field of the register written. -/
theorem HasWord.wr (h : HasWord k x s) (f : Fld) (v : Nat) (ha : f.addr = k := by rfl) (hw : (f.lo + f.w).ble 32 = true := by rfl) :
    HasWord k (withBits x f.lo f.w v) (s.wr f v) := by
  obtain ⟨hr, rfl⟩ := h
  subst ha
  exact ⟨s.wr_regsWf f v hr, s.nreg_wr f v hr (Nat.le_of_ble_eq_true hw)⟩

/-- A field of it advanced. -/
theorem HasWord.bumpF (h : HasWord k x s) (f : Fld) (ha : f.addr = k := by rfl) (hw : (f.lo + f.w).ble 32 = true := by rfl) :
    HasWord k (withBits x f.lo f.w (bitsOf x f.lo f.w + 1)) (s.bumpF f) := by
  have hrd : s.rd f = bitsOf x f.lo f.w := by rw [State.rd, ha, h.nreg]
  rw [State.bumpF, hrd]
  exact h.wr f _ ha hw

/-- A field of another register written. -/
theorem HasWord.wr_ne (h : HasWord k x s) (f : Fld) (v : Nat) (ha : k ≠ f.addr) : HasWord k x (s.wr f v) :=
  ⟨s.wr_regsWf f v h.regsWf, (s.nreg_wr_ne f k v h.regsWf ha).trans h.nreg⟩

theorem HasWord.rd (h : HasWord k x s) (f : Fld) (ha : f.addr = k := by rfl) : s.rd f = bitsOf x f.lo f.w := by
  rw [State.rd, ha, h.nreg]

theorem HasWord.on (h : HasWord k x s) (f : Fld) (ha : f.addr = k := by rfl) : s.on f = (bitsOf x f.lo f.w != 0) := by
  rw [State.on, h.rd f ha]

end

/-- Registers written, and nothing else, signal nothing. -/
theorem RegsOnly.signals {ks : List Nat} {s t : State} (h : RegsOnly ks s t) : Signals ks s t := by
  obtain ⟨heq, hw, hreg⟩ := h
  generalize t.regs = x at heq
  subst heq
  exact { Signals.refl ks s with
    regsWf := hw
    reg := fun w j hj _ => hreg w j hj
    on := fun w f _ _ _ hf hon => (State.on_congr (hreg w _ hf)).trans hon }

/-! ### An output starts, stops and starts again -/

/-- Output `n` runs aligned and unsquelched (R160). -/
def State.runAligned (s : State) (n : Nat) : State :=
  (((s.setAligned n true).wr (CKO.OUT_STAT_RUNNING n) 1).wr (CKO.OUT_STAT_SQUELCHED n) 0).bumpF (CKO.OUT_STAT_RESTARTS n)

/-- Output `n` is stopped and squelched (R163). -/
def State.squelchOut (s : State) (n : Nat) : State :=
  ((s.wr (CKO.OUT_STAT_RUNNING n) 0).wr (CKO.OUT_STAT_SQUELCHED n) 1).setAligned n false

/-- Output `n` runs again, not aligned (R163). -/
def State.unsquelchOut (s : State) (n : Nat) : State :=
  ((s.wr (CKO.OUT_STAT_SQUELCHED n) 0).wr (CKO.OUT_STAT_RUNNING n) 1).bumpF (CKO.OUT_STAT_RESTARTS n)

section
variable {s : State} {n : Nat}

theorem State.runAligned_signals (s : State) (n : Nat) : Signals [CKO.STAT, CKO.OUT_STAT n] s (s.runAligned n) :=
  ((((Signals.wr s (CKO.OUT_STAT_ALIGNED n) _ (.inl (by simp [CKO.OUT_STAT_ALIGNED]))).trans
    (Signals.wr _ ⟨CKO.STAT, 16 + n, 1⟩ _ (.inl (by simp)))).trans
    (Signals.wr _ (CKO.OUT_STAT_RUNNING n) _ (.inl (by simp [CKO.OUT_STAT_RUNNING])))).trans
    (Signals.wr _ (CKO.OUT_STAT_SQUELCHED n) _ (.inl (by simp [CKO.OUT_STAT_SQUELCHED])))).trans
    (Signals.wr _ (CKO.OUT_STAT_RESTARTS n) _ (.inl (by simp [CKO.OUT_STAT_RESTARTS])))

theorem State.runAligned_shows (hr : s.RegsWf) : (s.runAligned n).on (CKO.OUT_STAT_ALIGNED n) = true
    ∧ (s.runAligned n).on (CKO.OUT_STAT_RUNNING n) = true ∧ (s.runAligned n).on (CKO.OUT_STAT_SQUELCHED n) = false
    ∧ (s.runAligned n).rd (CKO.OUT_STAT_RESTARTS n) = (s.rd (CKO.OUT_STAT_RESTARTS n) + 1) % 2 ^ 16
    ∧ (s.runAligned n).on (CKO.OUT_STAT_WALKING n) = s.on (CKO.OUT_STAT_WALKING n) := by
  have h0 : HasWord (CKO.OUT_STAT n) (s.nreg (CKO.OUT_STAT n)) s := ⟨hr, rfl⟩
  have h : HasWord (CKO.OUT_STAT n) _ (s.runAligned n) := ((((h0.wr (CKO.OUT_STAT_ALIGNED n) 1).wr_ne ⟨CKO.STAT, 16 + n, 1⟩ 1
    outStat_ne_stat).wr (CKO.OUT_STAT_RUNNING n) 1).wr (CKO.OUT_STAT_SQUELCHED n) 0).bumpF (CKO.OUT_STAT_RESTARTS n)
  rw [h.on (CKO.OUT_STAT_ALIGNED n), h.on (CKO.OUT_STAT_RUNNING n), h.on (CKO.OUT_STAT_SQUELCHED n), h.rd (CKO.OUT_STAT_RESTARTS n),
    h.on (CKO.OUT_STAT_WALKING n), h0.rd (CKO.OUT_STAT_RESTARTS n), h0.on (CKO.OUT_STAT_WALKING n)]
  simp [CKO.OUT_STAT_ALIGNED, CKO.OUT_STAT_RUNNING, CKO.OUT_STAT_SQUELCHED, CKO.OUT_STAT_RESTARTS, CKO.OUT_STAT_WALKING,
    bitsOf_withBits, bitsOf_withBits_disj]

theorem State.squelchOut_shows (hr : s.RegsWf) : (s.squelchOut n).on (CKO.OUT_STAT_RUNNING n) = false
    ∧ (s.squelchOut n).on (CKO.OUT_STAT_SQUELCHED n) = true ∧ (s.squelchOut n).on (CKO.OUT_STAT_ALIGNED n) = false := by
  have h : HasWord (CKO.OUT_STAT n) _ (s.squelchOut n) := ((((HasWord.mk hr rfl).wr (CKO.OUT_STAT_RUNNING n) 0).wr
    (CKO.OUT_STAT_SQUELCHED n) 1).wr (CKO.OUT_STAT_ALIGNED n) 0).wr_ne ⟨CKO.STAT, 16 + n, 1⟩ 0 outStat_ne_stat
  rw [h.on (CKO.OUT_STAT_RUNNING n), h.on (CKO.OUT_STAT_SQUELCHED n), h.on (CKO.OUT_STAT_ALIGNED n)]
  simp [CKO.OUT_STAT_ALIGNED, CKO.OUT_STAT_RUNNING, CKO.OUT_STAT_SQUELCHED, bitsOf_withBits, bitsOf_withBits_disj]

theorem State.unsquelchOut_shows (hr : s.RegsWf) : (s.unsquelchOut n).on (CKO.OUT_STAT_SQUELCHED n) = false
    ∧ (s.unsquelchOut n).on (CKO.OUT_STAT_RUNNING n) = true := by
  have h : HasWord (CKO.OUT_STAT n) _ (s.unsquelchOut n) := (((HasWord.mk hr rfl).wr (CKO.OUT_STAT_SQUELCHED n) 0).wr
    (CKO.OUT_STAT_RUNNING n) 1).bumpF (CKO.OUT_STAT_RESTARTS n)
  rw [h.on (CKO.OUT_STAT_RUNNING n), h.on (CKO.OUT_STAT_SQUELCHED n)]
  simp [CKO.OUT_STAT_RUNNING, CKO.OUT_STAT_SQUELCHED, CKO.OUT_STAT_RESTARTS, bitsOf_withBits, bitsOf_withBits_disj]

end

/-! ### Signals beside a change of the part of CKO -/

/-- `t` is `s` but for the part of CKO beyond its registers, the registers `ks` and what signalling changes. -/
abbrev CkoSignals (ks : List Nat) (s t : State) : Prop := Signals ks { s with cko := t.cko } t

section
variable {ks : List Nat} {s t u : State}

theorem CkoSignals.of_signals (h : Signals ks s t) : CkoSignals ks s t := by
  rw [CkoSignals, h.cko]
  exact h

theorem CkoSignals.refl (ks : List Nat) (s : State) : CkoSignals ks s s := Signals.refl ks s

theorem CkoSignals.trans (h : CkoSignals ks s t) (g : CkoSignals ks t u) : CkoSignals ks s u :=
  Signals.trans (t := { t with cko := u.cko }) { h with cko := rfl, reg := h.reg, on := h.on } g

theorem CkoSignals.rd (h : CkoSignals ks s t) (w : s.RegsWf) {f : Fld} (hk : f.addr ∉ ks) (ha : f.addr ∉ alarmKeys) : t.rd f = s.rd f :=
  Signals.rd_eq h w hk ha

theorem CkoSignals.mono {ks' : List Nat} (h : CkoSignals ks s t) (hk : ∀ k ∈ ks, k ∈ ks') : CkoSignals ks' s t := Signals.mono h hk

end

/-! ### A walk ends (R162), and an output restarts (R160) -/

section
variable {s : State} {n : Nat}

/-- The walk of output `n` forgotten. -/
def CkoS.noWalk (c : CkoS) (n : Nat) : CkoS := { c with walks := Store.put dWalk c.walks n ⟨0, 0, 0⟩ }

theorem State.walkDone_spec (hr : s.RegsWf) (hn : n < 12) : (s.walkDone n).on (CKO.OUT_STAT_WALKING n) = false
    ∧ (s.walkDone n).on CKO.STICKY_PHASE_DONE = true
    ∧ (∀ f : Fld, f.addr = CKO.OUT_STAT n → f.lo + f.w ≤ 2 ∨ 3 ≤ f.lo → (s.walkDone n).rd f = s.rd f)
    ∧ Signals [CKO.OUT_STAT n, CKO.STICKY] { s with cko := s.cko.noWalk n } (s.walkDone n) := by
  have h : HasWord (CKO.OUT_STAT n) (s.nreg (CKO.OUT_STAT n)) { s with cko := s.cko.noWalk n } := ⟨hr, rfl⟩
  have hwalk := h.wr (CKO.OUT_STAT_WALKING n) 0
  have htell : Signals [CKO.STICKY] _ (s.walkDone n) :=
    State.sticky_signals (({ s with cko := s.cko.noWalk n } : State).wr (CKO.OUT_STAT_WALKING n) 0) CKO.STICKY_PHASE_DONE rfl (by decide)
      (.inl (by decide))
  have hout : CKO.OUT_STAT n ∉ [CKO.STICKY] := by
    simp only [List.mem_singleton, CKO.OUT_STAT, CKO.STICKY]
    omega
  have hword : HasWord (CKO.OUT_STAT n) _ (s.walkDone n) :=
    ⟨htell.regsWf hwalk.regsWf, (htell.nreg_eq hwalk.regsWf hout (outStat_not_mem_alarmKeys hn)).trans hwalk.nreg⟩
  refine ⟨?_, State.sticky_on _ _ hwalk.regsWf rfl (by decide) (by decide), fun f ha hf => ?_,
    (Signals.wr _ (CKO.OUT_STAT_WALKING n) 0 (.inl List.mem_cons_self)).trans (htell.mono (by simp))⟩
  · rw [hword.on (CKO.OUT_STAT_WALKING n)]
    simp [bitsOf_withBits, CKO.OUT_STAT_WALKING]
  · rw [hword.rd f ha, State.rd, ha]
    exact bitsOf_withBits_disj _ _ _ _ _ _ hf

/-- The walk of output `n` ends where there is one. -/
def State.endWalk (s : State) (n : Nat) : State := if s.on (CKO.OUT_STAT_WALKING n) then s.walkDone n else s

theorem State.endWalk_spec (hr : s.RegsWf) (hn : n < 12) : (s.on (CKO.OUT_STAT_WALKING n) = false → s.endWalk n = s)
    ∧ (s.on (CKO.OUT_STAT_WALKING n) = true → (s.endWalk n).cko = s.cko.noWalk n
        ∧ (s.endWalk n).on (CKO.OUT_STAT_WALKING n) = false ∧ (s.endWalk n).on CKO.STICKY_PHASE_DONE = true)
    ∧ (∀ f : Fld, f.addr = CKO.OUT_STAT n → f.lo + f.w ≤ 2 ∨ 3 ≤ f.lo → (s.endWalk n).rd f = s.rd f)
    ∧ CkoSignals [CKO.OUT_STAT n, CKO.STICKY] s (s.endWalk n) := by
  unfold State.endWalk
  cases hwalk : s.on (CKO.OUT_STAT_WALKING n) with
  | false => exact ⟨fun _ => rfl, fun h => absurd h (by decide), fun _ _ _ => rfl, .refl _ s⟩
  | true =>
    obtain ⟨hoff, hdone, hkeep, hsig⟩ := State.walkDone_spec hr hn
    refine ⟨fun h => absurd h (by decide), fun _ => ⟨hsig.cko, hoff, hdone⟩, hkeep, ?_⟩
    rw [CkoSignals, if_pos rfl, hsig.cko]
    exact hsig

/-- An alignment counted, with its residual, and told. -/
def State.tellAlign (s : State) (residual : Nat) : State :=
  ((s.bumpF CKO.ALIGN_CTRL_COUNT).wr CKO.ALIGN_STAT_WORST (min residual 65535)).sticky CKO.STICKY_ALIGN_DONE

theorem State.tellAlign_spec (hr : s.RegsWf) (residual : Nat) :
    (s.tellAlign residual).rd CKO.ALIGN_CTRL_COUNT = (s.rd CKO.ALIGN_CTRL_COUNT + 1) % 2 ^ 16
      ∧ (s.tellAlign residual).on CKO.STICKY_ALIGN_DONE = true
      ∧ (s.on CKO.STICKY_PHASE_DONE = true → (s.tellAlign residual).on CKO.STICKY_PHASE_DONE = true)
      ∧ Signals [CKO.ALIGN_CTRL, CKO.ALIGN_STAT, CKO.STICKY] s (s.tellAlign residual) := by
  have hset : Signals [CKO.ALIGN_CTRL, CKO.ALIGN_STAT] s ((s.bumpF CKO.ALIGN_CTRL_COUNT).wr CKO.ALIGN_STAT_WORST (min residual 65535)) :=
    (Signals.wr s CKO.ALIGN_CTRL_COUNT _ (.inl (by decide))).trans (Signals.wr _ CKO.ALIGN_STAT_WORST _ (.inl (by decide)))
  have hw := hset.regsWf hr
  have htell : Signals [CKO.STICKY] _ (s.tellAlign residual) :=
    State.sticky_signals _ CKO.STICKY_ALIGN_DONE rfl (by decide) (.inl (by decide))
  have hcount := s.wr_regsWf CKO.ALIGN_CTRL_COUNT (s.rd CKO.ALIGN_CTRL_COUNT + 1) hr
  refine ⟨?_, State.sticky_on _ _ hw rfl (by decide) (by decide), fun h => ?_, (hset.mono (by decide)).trans (htell.mono (by decide))⟩
  · exact (htell.rd_eq hw (by decide) (by decide)).trans ((State.rd_wr_ne _ _ _ _ hcount (by decide)).trans
      (s.rd_wr CKO.ALIGN_CTRL_COUNT _ hr (by decide)))
  · exact (State.sticky_bitsStay _ rfl (by decide) hw).2 _ rfl (by decide) (by decide)
      ((hset.on_eq hr (by decide) (by decide)).trans h)

/-- Output `n` waits no more. -/
def State.waitOver (s : State) (n : Nat) : State := { s with cko := { s.cko with waiting := Store.put zNat s.cko.waiting n 0 } }

/-- The registers that an alignment of output `n` writes. -/
def alignKeys (n : Nat) : List Nat := [CKO.OUT_STAT n, CKO.STAT, CKO.ALIGN_CTRL, CKO.ALIGN_STAT, CKO.STICKY]

/-- What an output's alignment writes, in its order (R160, R162). -/
def State.alignOut (s : State) (n residual : Nat) : State := (((s.waitOver n).runAligned n).endWalk n).tellAlign residual

theorem State.alignOut_spec (hr : s.RegsWf) (hn : n < 12) (residual : Nat) :
    (s.alignOut n residual).on (CKO.OUT_STAT_ALIGNED n) = true ∧ (s.alignOut n residual).on (CKO.OUT_STAT_RUNNING n) = true
    ∧ (s.alignOut n residual).on (CKO.OUT_STAT_SQUELCHED n) = false
    ∧ (s.alignOut n residual).rd (CKO.OUT_STAT_RESTARTS n) = (s.rd (CKO.OUT_STAT_RESTARTS n) + 1) % 2 ^ 16
    ∧ (s.alignOut n residual).rd CKO.ALIGN_CTRL_COUNT = (s.rd CKO.ALIGN_CTRL_COUNT + 1) % 2 ^ 16
    ∧ (s.alignOut n residual).on CKO.STICKY_ALIGN_DONE = true
    ∧ (s.alignOut n residual).cko.waiting = Store.put zNat s.cko.waiting n 0
    ∧ (s.on (CKO.OUT_STAT_WALKING n) = false → (s.alignOut n residual).cko.walks = s.cko.walks)
    ∧ (s.on (CKO.OUT_STAT_WALKING n) = true → (s.alignOut n residual).cko.walks = Store.put dWalk s.cko.walks n ⟨0, 0, 0⟩
        ∧ (s.alignOut n residual).on (CKO.OUT_STAT_WALKING n) = false ∧ (s.alignOut n residual).on CKO.STICKY_PHASE_DONE = true)
    ∧ CkoSignals (alignKeys n) s (s.alignOut n residual) := by
  have hw : (s.waitOver n).RegsWf := hr
  obtain ⟨hal, hrun, hsq, hres, hwalk⟩ := State.runAligned_shows (n := n) hw
  have hstart := (s.waitOver n).runAligned_signals n
  have hw1 := hstart.regsWf hw
  obtain ⟨hstays, hends, hkeep, hsig⟩ := State.endWalk_spec hw1 hn
  have hw2 : (((s.waitOver n).runAligned n).endWalk n).RegsWf := hsig.regsWf hw1
  obtain ⟨hcount, htold, hphase, htell⟩ := State.tellAlign_spec hw2 residual
  have hout : CKO.OUT_STAT n ∉ [CKO.ALIGN_CTRL, CKO.ALIGN_STAT, CKO.STICKY] := by
    simp only [List.mem_cons, List.not_mem_nil, or_false, CKO.OUT_STAT, CKO.ALIGN_CTRL, CKO.ALIGN_STAT, CKO.STICKY]
    omega
  have hon : ∀ f : Fld, f.addr = CKO.OUT_STAT n → f.lo + f.w ≤ 2 ∨ 3 ≤ f.lo →
      (s.alignOut n residual).rd f = ((s.waitOver n).runAligned n).rd f := fun f ha hf =>
    (htell.rd_eq hw2 (ha ▸ hout) (ha ▸ outStat_not_mem_alarmKeys hn)).trans (hkeep f ha hf)
  have hstat : ∀ f : Fld, f.addr = CKO.OUT_STAT n → f.lo + f.w ≤ 2 ∨ 3 ≤ f.lo →
      (s.alignOut n residual).on f = ((s.waitOver n).runAligned n).on f := fun f ha hf => by rw [State.on, hon f ha hf, State.on]
  have hcko : (s.alignOut n residual).cko = (((s.waitOver n).runAligned n).endWalk n).cko := htell.cko
  have hctrl : CKO.ALIGN_CTRL ∉ [CKO.OUT_STAT n, CKO.STICKY] ∧ CKO.ALIGN_CTRL ∉ [CKO.STAT, CKO.OUT_STAT n] := by
    simp only [List.mem_cons, List.not_mem_nil, or_false, CKO.OUT_STAT, CKO.ALIGN_CTRL, CKO.STICKY, CKO.STAT]
    omega
  refine ⟨(hstat _ rfl (.inl (show 1 + 1 ≤ 2 by decide))).trans hal, (hstat _ rfl (.inl (show 0 + 1 ≤ 2 by decide))).trans hrun,
    (hstat _ rfl (.inr (show 3 ≤ 3 by decide))).trans hsq, (hon _ rfl (.inr (show 3 ≤ 16 by decide))).trans hres, ?_, htold, ?_,
    fun h => ?_, fun h => ?_, ?_⟩
  · refine hcount.trans ?_
    have hkept : (((s.waitOver n).runAligned n).endWalk n).rd CKO.ALIGN_CTRL_COUNT = s.rd CKO.ALIGN_CTRL_COUNT :=
      (hsig.rd (f := CKO.ALIGN_CTRL_COUNT) hw1 hctrl.1 (by decide)).trans
        (hstart.rd_eq (f := CKO.ALIGN_CTRL_COUNT) hw hctrl.2 (by decide))
    rw [hkept]
  · rw [hcko]
    cases hb : ((s.waitOver n).runAligned n).on (CKO.OUT_STAT_WALKING n) with
    | false => rw [hstays hb, hstart.cko]; rfl
    | true => rw [(hends hb).1, CkoS.noWalk, hstart.cko]; rfl
  · rw [hcko, hstays (hwalk.trans h), hstart.cko]
    rfl
  · obtain ⟨hc, hoff, hdone⟩ := hends (hwalk.trans h)
    refine ⟨by rw [hcko, hc, CkoS.noWalk, hstart.cko]; rfl, ?_, hphase hdone⟩
    exact (htell.on_eq hw2 hout (outStat_not_mem_alarmKeys hn)).trans hoff
  · have hstart' : CkoSignals [CKO.STAT, CKO.OUT_STAT n] s ((s.waitOver n).runAligned n) := by
      rw [CkoSignals, hstart.cko]
      exact hstart
    exact ((hstart'.mono (by simp [alignKeys])).trans (hsig.mono (by simp [alignKeys]))).trans
      (.of_signals (htell.mono (by simp [alignKeys])))

end

/-! ### The outputs one after the other (R160, R163) -/

/-- What a pass over the outputs `l` leaves: every register but `CKO.STAT` and theirs, the locks that `CKO.STAT` shows, when the other
outputs are to be aligned, and every part of the state but when outputs are to be aligned. -/
structure OutFrame (l : List Nat) (s t : State) : Prop where
  eq : t = { s with regs := t.regs, cko := { s.cko with waiting := t.cko.waiting } }
  regsWf : s.RegsWf → t.RegsWf
  waitWf : Store.wf zNat s.cko.waiting = true → Store.wf zNat t.cko.waiting = true
  reg : s.RegsWf → ∀ j, j ≠ CKO.STAT → (∀ n ∈ l, j ≠ CKO.OUT_STAT n) → t.reg j = s.reg j
  locks : s.RegsWf → ∀ p, p < 16 → t.on ⟨CKO.STAT, p, 1⟩ = s.on ⟨CKO.STAT, p, 1⟩
  wait : Store.wf zNat s.cko.waiting = true → ∀ k, k ∉ l → Store.get zNat t.cko.waiting k = Store.get zNat s.cko.waiting k

section
variable {l r : List Nat} {s t u : State} {k n : Nat}

theorem OutFrame.refl (l : List Nat) (s : State) : OutFrame l s s :=
  ⟨rfl, id, id, fun _ _ _ _ => rfl, fun _ _ _ => rfl, fun _ _ _ => rfl⟩

theorem OutFrame.trans (h : OutFrame l s t) (g : OutFrame r t u) : OutFrame (l ++ r) s u where
  eq := by rw [g.eq, h.eq]
  regsWf w := g.regsWf (h.regsWf w)
  waitWf w := g.waitWf (h.waitWf w)
  reg w j hj hl := (g.reg (h.regsWf w) j hj fun n hn => hl n (List.mem_append_right _ hn)).trans
    (h.reg w j hj fun n hn => hl n (List.mem_append_left _ hn))
  locks w p hp := (g.locks (h.regsWf w) p hp).trans (h.locks w p hp)
  wait w k hk := (g.wait (h.waitWf w) k fun hr => hk (List.mem_append_right _ hr)).trans
    (h.wait w k fun hl => hk (List.mem_append_left _ hl))

/-- A field of output `n`'s own register written. -/
theorem OutFrame.wr (s : State) {f : Fld} (ha : f.addr = CKO.OUT_STAT n) (v : Nat) : OutFrame [n] s (s.wr f v) where
  eq := rfl
  regsWf w := s.wr_regsWf f v w
  waitWf := id
  reg w j _ hl := s.reg_wr_ne f j v w (ha ▸ hl n List.mem_cons_self)
  locks w _ _ := State.on_wr_ne w v (ha ▸ outStat_ne_stat.symm)
  wait _ _ _ := rfl

/-- The bit of output `n` in `CKO.STAT` written. -/
theorem OutFrame.wr_stat (s : State) (n v : Nat) (hn : n < 12) : OutFrame [n] s (s.wr ⟨CKO.STAT, 16 + n, 1⟩ v) where
  eq := rfl
  regsWf w := s.wr_regsWf _ v w
  waitWf := id
  reg w j hj _ := s.reg_wr_ne _ j v w hj
  locks w p hp := State.on_wr_disj w v (show 16 + n + 1 ≤ 32 by omega) rfl (.inl (show p + 1 ≤ 16 + n by omega))
  wait _ _ _ := rfl

theorem OutFrame.askAlign (s : State) (n : Nat) : OutFrame [n] s (s.askAlign n) where
  eq := rfl
  regsWf := id
  waitWf w := Store.put_wf w
  reg _ _ _ _ := rfl
  locks _ _ _ := rfl
  wait w k hk := Store.get_put_ne w (by simpa using hk)

/-- Two operations on the same output. -/
theorem OutFrame.trans_same (h : OutFrame [n] s t) (g : OutFrame [n] t u) : OutFrame [n] s u :=
  have h2 := h.trans g
  { h2 with
    reg := fun w j hj hl => h2.reg w j hj (by simpa using hl)
    wait := fun w k hk => h2.wait w k (by simpa using hk) }

theorem OutFrame.foldl {f : State → Nat → State} (hf : ∀ t n, n ∈ l → OutFrame [n] t (f t n)) (s : State) :
    OutFrame l s (l.foldl f s) := by
  induction l generalizing s with
  | nil => exact .refl [] s
  | cons n r ih => exact (hf s n List.mem_cons_self).trans (ih (fun t m hm => hf t m (List.mem_cons_of_mem _ hm)) _)

/-- A pass over the twelve outputs. -/
def State.eachOut (s : State) (f : State → Nat → State) : State := (List.range 12).foldl f s

theorem OutFrame.eachOut {f : State → Nat → State} (hf : ∀ t n, n < 12 → OutFrame [n] t (f t n)) (s : State) :
    OutFrame (List.range 12) s (s.eachOut f) := .foldl (fun t n hn => hf t n (List.mem_range.mp hn)) s

/-- A pass over the outputs, cut where output `k` has its turn. -/
theorem OutFrame.foldl_at {f : State → Nat → State} (hf : ∀ t n, n < 12 → OutFrame [n] t (f t n)) (hk : k < 12) (s : State) :
    ∃ l r t, k ∉ l ∧ k ∉ r ∧ OutFrame l s t ∧ OutFrame r (f t k) (s.eachOut f) := by
  obtain ⟨l, r, heq⟩ := List.append_of_mem (List.mem_range.mpr hk)
  have hnd : (l ++ k :: r).Nodup := heq ▸ List.nodup_range
  have hmem : ∀ n, n ∈ l ++ k :: r → n < 12 := fun n hn => List.mem_range.mp (heq ▸ hn)
  obtain ⟨hkl, hkr⟩ : k ∉ l ∧ k ∉ r := by simpa using (List.nodup_middle.mp hnd).notMem
  refine ⟨l, r, l.foldl f s, hkl, hkr, .foldl (fun t n hn => hf t n (hmem n (List.mem_append_left _ hn))) s, ?_⟩
  rw [State.eachOut, heq, List.foldl_append, List.foldl_cons]
  exact .foldl (fun t n hn => hf t n (hmem n (List.mem_append_right _ (List.mem_cons_of_mem _ hn)))) _

/-- What a pass leaves of the register of an output that it does not reach. -/
theorem OutFrame.outStat (h : OutFrame l s t) (hr : s.RegsWf) (hk : k ∉ l) : t.reg (CKO.OUT_STAT k) = s.reg (CKO.OUT_STAT k) :=
  h.reg hr _ outStat_ne_stat fun _ hn => outStat_ne fun e => hk (e ▸ hn)

theorem OutFrame.outCfg (h : OutFrame l s t) (hr : s.RegsWf) : t.reg (CKO.OUT_CFG k) = s.reg (CKO.OUT_CFG k) :=
  h.reg hr _ (by unfold CKO.OUT_CFG CKO.STAT; omega) fun _ _ => outCfg_ne_outStat

theorem OutFrame.planeOf (h : OutFrame l s t) (hr : s.RegsWf) : t.planeOf k = s.planeOf k := State.rd_congr (h.outCfg hr)

theorem OutFrame.enabled (h : OutFrame l s t) (hr : s.RegsWf) : t.on (CKO.OUT_CFG_EN k) = s.on (CKO.OUT_CFG_EN k) :=
  State.on_congr (h.outCfg hr)

theorem OutFrame.alignable (h : OutFrame l s t) (hr : s.RegsWf) : t.alignable k = s.alignable k := by
  have halign : t.on (CKO.OUT_CFG_ALIGN_EN k) = s.on (CKO.OUT_CFG_ALIGN_EN k) := State.on_congr (h.outCfg hr)
  rw [State.alignable, h.enabled hr, halign, State.alignable]

/-- Where no output waits anew, a pass writes registers and nothing else. -/
theorem OutFrame.regsOnly (h : OutFrame l s t) (hc : t.cko = s.cko) : RegsOnly (CKO.STAT :: l.map CKO.OUT_STAT) s t where
  eq := h.eq.trans (by rw [hc])
  regsWf := h.regsWf
  reg w j hj := h.reg w j (fun e => hj (e ▸ List.mem_cons_self)) fun _ hn e =>
    hj (List.mem_cons_of_mem _ (e ▸ List.mem_map_of_mem hn))

/-- A pass leaves the time. -/
theorem OutFrame.sec0 (h : OutFrame l s t) (hr : s.RegsWf) : t.sec0 = s.sec0 := by
  have hreg : ∀ m < 64, ∀ j ∈ valueKeys m, t.reg j = s.reg j := fun m hm j hj => by
    have hlt := lt_of_mem_valueKeys hm hj
    exact h.reg hr j (by unfold CKO.STAT; omega) fun n _ => by unfold CKO.OUT_STAT; omega
  have hnow : t.tsNow 0 = s.tsNow 0 := State.tsNow_congr (by rw [h.eq]) (by rw [h.eq]) hreg (by decide)
  rw [State.sec0, hnow, State.sec0]

end

/-- The turn of output `n` where plane `p` has lost lock (R163). -/
def squelchPass (p : Nat) (u : State) (n : Nat) : State :=
  if u.planeOf n = p ∧ u.on (CKO.OUT_CFG_EN n) = true then u.squelchOut n else u

/-- The turn of output `n` where plane `p` locks (R163). -/
def relockPass (p : Nat) (u : State) (n : Nat) : State :=
  if u.planeOf n = p ∧ u.on (CKO.OUT_STAT_SQUELCHED n) = true then
    if u.alignable n then u.askAlign n else u.unsquelchOut n
  else if u.planeOf n = p ∧ u.on (CKO.OUT_CFG_EN n) = true then u.wr (CKO.OUT_STAT_RUNNING n) 1 else u

section
variable {s : State} {n p k : Nat}

theorem State.squelchOut_frame (s : State) (hn : n < 12) : OutFrame [n] s (s.squelchOut n) :=
  (((OutFrame.wr s (f := CKO.OUT_STAT_RUNNING n) rfl 0).trans_same (.wr _ (f := CKO.OUT_STAT_SQUELCHED n) rfl 1)).trans_same
    (.wr _ (f := CKO.OUT_STAT_ALIGNED n) rfl 0)).trans_same (.wr_stat _ n 0 hn)

theorem State.unsquelchOut_frame (s : State) (n : Nat) : OutFrame [n] s (s.unsquelchOut n) :=
  ((OutFrame.wr s (f := CKO.OUT_STAT_SQUELCHED n) rfl 0).trans_same (.wr _ (f := CKO.OUT_STAT_RUNNING n) rfl 1)).trans_same
    (.wr _ (f := CKO.OUT_STAT_RESTARTS n) rfl _)

theorem squelchPass_frame (s : State) (hn : n < 12) : OutFrame [n] s (squelchPass p s n) := by
  unfold squelchPass
  split
  · exact s.squelchOut_frame hn
  · exact .refl _ s

theorem relockPass_frame (s : State) (n : Nat) : OutFrame [n] s (relockPass p s n) := by
  unfold relockPass
  split
  · split
    · exact .askAlign s n
    · exact s.unsquelchOut_frame n
  · split
    · exact .wr s (f := CKO.OUT_STAT_RUNNING n) rfl 1
    · exact .refl _ s

theorem squelch_cko (s : State) : (s.eachOut (squelchPass p)).cko = s.cko :=
  List.foldlRecOn (motive := fun t : State => t.cko = s.cko) (List.range 12) (squelchPass p) rfl fun t h n _ => by
    unfold squelchPass
    split <;> exact h

/-- Every enabled output of the plane is stopped, and no other (R163). -/
theorem squelch_shows (hr : s.RegsWf) (hk : k < 12) :
    (s.planeOf k = p → s.on (CKO.OUT_CFG_EN k) = true → (s.eachOut (squelchPass p)).on (CKO.OUT_STAT_RUNNING k) = false
      ∧ (s.eachOut (squelchPass p)).on (CKO.OUT_STAT_SQUELCHED k) = true
      ∧ (s.eachOut (squelchPass p)).on (CKO.OUT_STAT_ALIGNED k) = false)
    ∧ (s.planeOf k ≠ p → (s.eachOut (squelchPass p)).reg (CKO.OUT_STAT k) = s.reg (CKO.OUT_STAT k)) := by
  obtain ⟨l, r, t, hl, hrk, hbefore, hafter⟩ := OutFrame.foldl_at (fun t n hn => squelchPass_frame (p := p) t hn) hk s
  have hw := hbefore.regsWf hr
  have hlast := hafter.outStat ((squelchPass_frame t hk).regsWf hw) hrk
  have hplane : t.planeOf k = s.planeOf k := hbefore.planeOf hr
  refine ⟨fun hp hen => ?_, fun hp => ?_⟩
  · have hturn : squelchPass p t k = t.squelchOut k := if_pos ⟨hplane.trans hp, (hbefore.enabled hr).trans hen⟩
    obtain ⟨hrun, hsq, hal⟩ := State.squelchOut_shows (n := k) hw
    rw [hturn] at hlast
    exact ⟨(State.on_congr hlast).trans hrun, (State.on_congr hlast).trans hsq, (State.on_congr hlast).trans hal⟩
  · have hturn : squelchPass p t k = t := if_neg fun h => hp (hplane.symm.trans h.1)
    rw [hturn] at hlast
    exact hlast.trans (hbefore.outStat hr hl)

/-- A squelched output of the plane waits to be aligned or, without ALIGN_EN, runs (R163). -/
theorem relock_shows (hr : s.RegsWf) (hwait : Store.wf zNat s.cko.waiting = true) (hk : k < 12) (hp : s.planeOf k = p)
    (hsq : s.on (CKO.OUT_STAT_SQUELCHED k) = true) :
    if s.alignable k then Store.get zNat (s.eachOut (relockPass p)).cko.waiting k = s.sec0 + 1
      else (s.eachOut (relockPass p)).on (CKO.OUT_STAT_SQUELCHED k) = false
        ∧ (s.eachOut (relockPass p)).on (CKO.OUT_STAT_RUNNING k) = true := by
  obtain ⟨l, r, t, hl, hrk, hbefore, hafter⟩ := OutFrame.foldl_at (fun t n _ => relockPass_frame (p := p) t n) hk s
  have hw := hbefore.regsWf hr
  have hsq' : t.on (CKO.OUT_STAT_SQUELCHED k) = true := (State.on_congr (hbefore.outStat hr hl)).trans hsq
  have hturn : relockPass p t k = if t.alignable k then t.askAlign k else t.unsquelchOut k := if_pos ⟨(hbefore.planeOf hr).trans hp, hsq'⟩
  have hframe := relockPass_frame (p := p) t k
  have hlast := hafter.outStat (hframe.regsWf hw) hrk
  have hlater := hafter.wait (hframe.waitWf (hbefore.waitWf hwait)) k hrk
  rw [hturn, hbefore.alignable hr] at hlast hlater
  split
  next h =>
    rw [if_pos h] at hlater
    rw [hlater, ← hbefore.sec0 hr]
    exact Store.get_put_same (hbefore.waitWf hwait)
  next h =>
    rw [if_neg h] at hlast
    obtain ⟨hoff, hrun⟩ := State.unsquelchOut_shows (n := k) hw
    exact ⟨(State.on_congr hlast).trans hoff, (State.on_congr hlast).trans hrun⟩

/-- The turn of output `n` where GO is written (R160). -/
def alignPass (u : State) (n : Nat) : State := if u.alignable n then u.askAlign n else u

theorem alignPass_frame (s : State) (n : Nat) : OutFrame [n] s (alignPass s n) := by
  unfold alignPass
  split
  · exact .askAlign s n
  · exact .refl _ s

/-- GO makes the outputs that take part wait for the next second, and changes nothing else (R160). -/
theorem align_shows (hr : s.RegsWf) (hwait : Store.wf zNat s.cko.waiting = true) :
    (∀ k, k < 12 → Store.get zNat (s.eachOut alignPass).cko.waiting k
        = if s.alignable k then s.sec0 + 1 else Store.get zNat s.cko.waiting k)
    ∧ s.eachOut alignPass
        = { s with cko := { s.cko with waiting := (s.eachOut alignPass).cko.waiting } } := by
  refine ⟨fun k hk => ?_, ?_⟩
  · obtain ⟨l, r, t, hl, hrk, hbefore, hafter⟩ := OutFrame.foldl_at (fun t n _ => alignPass_frame t n) hk s
    have hlater := hafter.wait ((alignPass_frame t k).waitWf (hbefore.waitWf hwait)) k hrk
    rw [hlater, alignPass, hbefore.alignable hr]
    split
    · rw [← hbefore.sec0 hr]
      exact Store.get_put_same (hbefore.waitWf hwait)
    · exact hbefore.wait hwait k hl
  · have hregs : (s.eachOut alignPass).regs = s.regs :=
      List.foldlRecOn (motive := fun t : State => t.regs = s.regs) (List.range 12) alignPass rfl fun t h n _ => by
        unfold alignPass
        split <;> exact h
    have hframe : OutFrame (List.range 12) s (s.eachOut alignPass) := .eachOut (fun t n _ => alignPass_frame t n) s
    exact hframe.eq.trans (by rw [hregs])

end

/-! ### A plane loses lock and locks (R163) -/

/-- Plane `p` shown without lock, and the loss counted. -/
def State.planeDown (s : State) (p : Nat) : State :=
  ((s.wr (CKO.PLANE_STAT_LOCK p) 0).wr ⟨CKO.STAT, p, 1⟩ 0).bumpF (CKO.PLANE_STAT_LOSSES p)

/-- Plane `p` shown locked. -/
def State.planeUp (s : State) (p : Nat) : State := (s.wr (CKO.PLANE_STAT_LOCK p) 1).wr ⟨CKO.STAT, p, 1⟩ 1

/-- The outputs of plane `p` stopped where SQUELCH asks for it. -/
def State.squelchPlane (s : State) (p : Nat) : State :=
  if s.on CKO.CTRL_SQUELCH then s.eachOut (squelchPass p) else s

/-- The sticky bit of a plane that loses lock. -/
def lockLostFld (p : Nat) : Fld := if p = 0 then CKO.STICKY_LOCK_LOST_A else CKO.STICKY_LOCK_LOST_B

theorem lockLostFld_eq (p : Nat) : (lockLostFld p).addr = CKO.STICKY ∧ (lockLostFld p).w = 1 ∧ (lockLostFld p).lo < 32 := by
  unfold lockLostFld
  split <;> decide

section
variable {s : State} {p : Nat}

theorem State.planeDown_spec (hr : s.RegsWf) (hp : p < 2) : (s.planeDown p).planeLocked p = false
    ∧ (s.planeDown p).on ⟨CKO.STAT, p, 1⟩ = false
    ∧ (s.planeDown p).rd (CKO.PLANE_STAT_LOSSES p) = (s.rd (CKO.PLANE_STAT_LOSSES p) + 1) % 2 ^ 16
    ∧ RegsOnly [CKO.PLANE_STAT p, CKO.STAT] s (s.planeDown p) := by
  have h0 : HasWord (CKO.PLANE_STAT p) (s.nreg (CKO.PLANE_STAT p)) s := ⟨hr, rfl⟩
  have h1 := h0.wr (CKO.PLANE_STAT_LOCK p) 0
  have h2 := h1.wr_ne ⟨CKO.STAT, p, 1⟩ 0 planeStat_ne_stat
  have h3 : HasWord (CKO.PLANE_STAT p) _ (s.planeDown p) := h2.bumpF (CKO.PLANE_STAT_LOSSES p)
  refine ⟨?_, ?_, ?_, ?_⟩
  · rw [State.planeLocked, h3.on (CKO.PLANE_STAT_LOCK p)]
    simp [CKO.PLANE_STAT_LOCK, CKO.PLANE_STAT_LOSSES, bitsOf_withBits, bitsOf_withBits_disj]
  · exact (State.on_wr_ne h2.regsWf _ planeStat_ne_stat.symm).trans (State.on_wr_zero h1.regsWf (show p < 32 by omega) rfl)
  · rw [h3.rd (CKO.PLANE_STAT_LOSSES p), h0.rd (CKO.PLANE_STAT_LOSSES p)]
    simp [CKO.PLANE_STAT_LOCK, CKO.PLANE_STAT_LOSSES, bitsOf_withBits, bitsOf_withBits_disj]
  · exact (((RegsOnly.refl _ s).wr (CKO.PLANE_STAT_LOCK p) 0 List.mem_cons_self).wr ⟨CKO.STAT, p, 1⟩ 0 (by simp)).wr
      (CKO.PLANE_STAT_LOSSES p) _ List.mem_cons_self

theorem State.planeUp_spec (hr : s.RegsWf) (hp : p < 2) : (s.planeUp p).planeLocked p = true
    ∧ (s.planeUp p).on ⟨CKO.STAT, p, 1⟩ = true ∧ RegsOnly [CKO.PLANE_STAT p, CKO.STAT] s (s.planeUp p) := by
  have h0 : HasWord (CKO.PLANE_STAT p) (s.nreg (CKO.PLANE_STAT p)) s := ⟨hr, rfl⟩
  have h1 := h0.wr (CKO.PLANE_STAT_LOCK p) 1
  have h2 : HasWord (CKO.PLANE_STAT p) _ (s.planeUp p) := h1.wr_ne ⟨CKO.STAT, p, 1⟩ 1 planeStat_ne_stat
  refine ⟨?_, State.on_wr _ _ h1.regsWf (show p + 1 ≤ 32 by omega) rfl, ((RegsOnly.refl _ s).wr (CKO.PLANE_STAT_LOCK p) 1
    List.mem_cons_self).wr ⟨CKO.STAT, p, 1⟩ 1 (by simp)⟩
  rw [State.planeLocked, h2.on (CKO.PLANE_STAT_LOCK p)]
  simp [CKO.PLANE_STAT_LOCK, bitsOf_withBits]

/-- The registers that a pass over the outputs may write. -/
def outputKeys : List Nat := CKO.STAT :: (List.range 12).map CKO.OUT_STAT

theorem planeStat_not_mem_outputKeys (hp : p < 2) : CKO.PLANE_STAT p ∉ outputKeys := by
  simp only [outputKeys, List.mem_cons, List.mem_map, List.mem_range, not_or, not_exists, not_and]
  exact ⟨planeStat_ne_stat, fun n _ h => planeStat_ne_outStat hp h.symm⟩

theorem outStat_not_mem_planeKeys {k : Nat} (hp : p < 2) : CKO.OUT_STAT k ∉ [CKO.PLANE_STAT p, CKO.STAT] := by
  simpa using ⟨(planeStat_ne_outStat hp).symm, outStat_ne_stat⟩

theorem outCfg_not_mem_planeKeys {k : Nat} (hp : p < 2) : CKO.OUT_CFG k ∉ [CKO.PLANE_STAT p, CKO.STAT] := by
  simp only [List.mem_cons, List.not_mem_nil, or_false, CKO.OUT_CFG, CKO.PLANE_STAT, CKO.STAT]
  omega

theorem State.squelchPlane_frame (s : State) (p : Nat) : OutFrame (List.range 12) s (s.squelchPlane p)
    ∧ RegsOnly outputKeys s (s.squelchPlane p) := by
  unfold State.squelchPlane
  split
  · have hframe := OutFrame.eachOut (fun t n hn => squelchPass_frame (p := p) t hn) s
    exact ⟨hframe, hframe.regsOnly (squelch_cko s)⟩
  · exact ⟨.refl _ s, .refl _ s⟩

/-- The outputs of the plane are stopped with SQUELCH; the others, or all without it, are left. -/
theorem State.squelchPlane_shows {k : Nat} (hr : s.RegsWf) (hk : k < 12) :
    (s.on CKO.CTRL_SQUELCH = true → s.planeOf k = p → s.on (CKO.OUT_CFG_EN k) = true →
      (s.squelchPlane p).on (CKO.OUT_STAT_RUNNING k) = false ∧ (s.squelchPlane p).on (CKO.OUT_STAT_SQUELCHED k) = true
        ∧ (s.squelchPlane p).on (CKO.OUT_STAT_ALIGNED k) = false)
    ∧ (s.on CKO.CTRL_SQUELCH = false ∨ s.planeOf k ≠ p → (s.squelchPlane p).reg (CKO.OUT_STAT k) = s.reg (CKO.OUT_STAT k)) := by
  unfold State.squelchPlane
  cases hs : s.on CKO.CTRL_SQUELCH with
  | true =>
    obtain ⟨hstop, hleave⟩ := squelch_shows (p := p) hr hk
    exact ⟨fun _ => hstop, fun h => hleave (h.resolve_left (by decide))⟩
  | false => exact ⟨fun h => absurd h (by decide), fun _ => rfl⟩

/-- What a plane's loss of lock writes (R163). -/
def State.lockLost (s : State) (p : Nat) : State := ((s.planeDown p).squelchPlane p).sticky (lockLostFld p)

theorem State.lockLost_spec (hr : s.RegsWf) (hp : p < 2) : (s.lockLost p).planeLocked p = false
    ∧ (s.lockLost p).on ⟨CKO.STAT, p, 1⟩ = false
    ∧ (s.lockLost p).rd (CKO.PLANE_STAT_LOSSES p) = (s.rd (CKO.PLANE_STAT_LOSSES p) + 1) % 2 ^ 16
    ∧ (s.lockLost p).on (lockLostFld p) = true
    ∧ (s.on CKO.CTRL_SQUELCH = true → ∀ k, k < 12 → s.planeOf k = p → s.on (CKO.OUT_CFG_EN k) = true →
        (s.lockLost p).on (CKO.OUT_STAT_RUNNING k) = false ∧ (s.lockLost p).on (CKO.OUT_STAT_SQUELCHED k) = true
          ∧ (s.lockLost p).on (CKO.OUT_STAT_ALIGNED k) = false)
    ∧ (∀ k, k < 12 → s.on CKO.CTRL_SQUELCH = false ∨ s.planeOf k ≠ p → (s.lockLost p).reg (CKO.OUT_STAT k) = s.reg (CKO.OUT_STAT k))
    ∧ Signals ([CKO.PLANE_STAT p, CKO.STAT, CKO.STICKY] ++ (List.range 12).map CKO.OUT_STAT) s (s.lockLost p) := by
  obtain ⟨hlock, hstat, hloss, hdown⟩ := State.planeDown_spec hr hp
  have hw1 := hdown.regsWf hr
  obtain ⟨hframe, hsq⟩ := (s.planeDown p).squelchPlane_frame p
  have hw2 := hsq.regsWf hw1
  obtain ⟨haddr, hwidth, hlo⟩ := lockLostFld_eq p
  have htell : Signals [CKO.STICKY] _ (s.lockLost p) := State.sticky_signals _ _ hwidth hlo (.inl (by simp [haddr]))
  have hplane : (s.lockLost p).reg (CKO.PLANE_STAT p) = (s.planeDown p).reg (CKO.PLANE_STAT p) :=
    (htell.reg hw2 _ (by simp only [List.mem_singleton, CKO.PLANE_STAT, CKO.STICKY]; omega) (planeStat_not_mem_alarmKeys hp)).trans
      (hsq.reg hw1 _ (planeStat_not_mem_outputKeys hp))
  have hout : ∀ k, k < 12 → (s.lockLost p).reg (CKO.OUT_STAT k) = ((s.planeDown p).squelchPlane p).reg (CKO.OUT_STAT k) := fun k hk =>
    htell.reg hw2 _ (by simp only [List.mem_singleton, CKO.OUT_STAT, CKO.STICKY]; omega) (outStat_not_mem_alarmKeys hk)
  have hsquelch : (s.planeDown p).on CKO.CTRL_SQUELCH = s.on CKO.CTRL_SQUELCH := hdown.on hr (by
    simp only [List.mem_cons, List.not_mem_nil, or_false, CKO.CTRL_SQUELCH, CKO.CTRL, CKO.PLANE_STAT, CKO.STAT]
    omega)
  have hof : ∀ k, (s.planeDown p).planeOf k = s.planeOf k := fun k => hdown.rd hr (outCfg_not_mem_planeKeys hp)
  have hen : ∀ k, (s.planeDown p).on (CKO.OUT_CFG_EN k) = s.on (CKO.OUT_CFG_EN k) := fun k => hdown.on hr (outCfg_not_mem_planeKeys hp)
  refine ⟨(State.on_congr hplane).trans hlock, ?_, (State.rd_congr hplane).trans hloss,
    State.sticky_on _ _ hw2 hwidth hlo (haddr ▸ by decide), fun hs k hk hpk hek => ?_, fun k hk h => ?_, ?_⟩
  · exact (htell.on_eq hw2 (show CKO.STAT ∉ [CKO.STICKY] by decide) (show CKO.STAT ∉ alarmKeys by decide)).trans
      ((hframe.locks hw1 p (by omega)).trans hstat)
  · obtain ⟨hrun, hsqd, hal⟩ := (State.squelchPlane_shows hw1 hk).1 (hsquelch.trans hs) ((hof k).trans hpk) ((hen k).trans hek)
    exact ⟨(State.on_congr (hout k hk)).trans hrun, (State.on_congr (hout k hk)).trans hsqd, (State.on_congr (hout k hk)).trans hal⟩
  · rw [← hsquelch, ← hof k] at h
    exact (hout k hk).trans (((State.squelchPlane_shows hw1 hk).2 h).trans (hdown.reg hr _ (outStat_not_mem_planeKeys hp)))
  · exact ((hdown.signals.mono (by simp)).trans (hsq.signals.mono fun _ hk =>
      (List.mem_cons.mp hk).elim (fun e => by simp [e]) (List.mem_append_right _))).trans (htell.mono (by simp))

/-- What a plane that locks writes (R163). -/
def State.relock (s : State) (p : Nat) : State := (s.planeUp p).eachOut (relockPass p)

theorem State.relock_spec (hr : s.RegsWf) (hwait : Store.wf zNat s.cko.waiting = true) (hp : p < 2) :
    (s.relock p).planeLocked p = true ∧ (s.relock p).on ⟨CKO.STAT, p, 1⟩ = true
    ∧ (∀ k, k < 12 → s.planeOf k = p → s.on (CKO.OUT_STAT_SQUELCHED k) = true →
        if s.alignable k then Store.get zNat (s.relock p).cko.waiting k = s.sec0 + 1
        else (s.relock p).on (CKO.OUT_STAT_SQUELCHED k) = false ∧ (s.relock p).on (CKO.OUT_STAT_RUNNING k) = true)
    ∧ (∀ j, j ∉ [CKO.PLANE_STAT p, CKO.STAT] ++ (List.range 12).map CKO.OUT_STAT → (s.relock p).reg j = s.reg j)
    ∧ s.relock p = { s with regs := (s.relock p).regs, cko := { s.cko with waiting := (s.relock p).cko.waiting } } := by
  obtain ⟨hlock, hstat, hup⟩ := State.planeUp_spec hr hp
  have hw1 := hup.regsWf hr
  have hcko : (s.planeUp p).cko = s.cko := by rw [hup.eq]
  have hframe : OutFrame (List.range 12) (s.planeUp p) (s.relock p) := .eachOut (fun t n _ => relockPass_frame t n) _
  have hof : ∀ k, (s.planeUp p).planeOf k = s.planeOf k := fun k => hup.rd hr (outCfg_not_mem_planeKeys hp)
  have hal : ∀ k, (s.planeUp p).alignable k = s.alignable k := fun k => by
    rw [State.alignable, hup.on hr (outCfg_not_mem_planeKeys hp), hup.on hr (outCfg_not_mem_planeKeys hp), State.alignable]
  have hsec : (s.planeUp p).sec0 = s.sec0 := by
    rw [State.sec0, State.tsNow_of_signals hup.signals hr (by simp [CKO.PLANE_STAT, CKO.STAT]; omega) (by decide), State.sec0]
  refine ⟨?_, (hframe.locks hw1 p (by omega)).trans hstat, fun k hk hpk hsq => ?_, fun j hj => ?_, ?_⟩
  · exact (State.on_congr (hframe.reg hw1 _ planeStat_ne_stat fun _ _ => planeStat_ne_outStat hp)).trans hlock
  · rw [← hal k, ← hsec]
    exact relock_shows hw1 (hcko ▸ hwait) hk ((hof k).trans hpk) ((hup.on hr (outStat_not_mem_planeKeys hp)).trans hsq)
  · simp only [List.mem_append, List.mem_cons, List.not_mem_nil, or_false, List.mem_map, List.mem_range, not_or, not_exists, not_and] at hj
    exact (hframe.reg hw1 j hj.1.2 fun n hn e => hj.2 n (List.mem_range.mp hn) e.symm).trans (hup.reg hr j (by simpa using hj.1))
  · refine hframe.eq.trans ?_
    rw [hup.eq]

end

/-! ### The commands of the clock outputs -/

section
variable {s a : State} {m n p res t : Nat}

theorem exec_alignGo (ha : a = s.advance t) (hg : a.access m CKO.ALIGN_CTRL .write = .granted) :
    exec (.alignGo m t) s = .next a.alignGo := by
  show execAlignGo m t s = _
  simp [execAlignGo, ← ha, hg]

theorem exec_outputAlign (ha : a = s.advance t) (hn : n < 12) (h0 : Store.get zNat a.cko.waiting n ≠ 0)
    (hdue : Store.get zNat a.cko.waiting n ≤ a.sec0) (hen : a.alignable n = true) (hlock : a.planeLocked (a.planeOf n) = true) :
    exec (.outputAlign n res t) s = .next (a.alignOut n res) := by
  subst ha
  exact congrArg Host.Outcome.next (if_pos ⟨hn, h0, hdue, hen, hlock⟩)

theorem exec_outputAlign_idle (ha : a = s.advance t)
    (h : 12 ≤ n ∨ Store.get zNat a.cko.waiting n = 0 ∨ a.sec0 < Store.get zNat a.cko.waiting n) :
    exec (.outputAlign n res t) s = .next a := by
  subst ha
  refine congrArg Host.Outcome.next (if_neg fun ⟨hn, h0, hdue, _⟩ => ?_)
  rcases h with h | h | h
  · omega
  · exact h0 h
  · omega

theorem exec_planeLockLost (ha : a = s.advance t) (hp : p < 2) (hlock : a.planeLocked p = true) :
    exec (.planeLockLost p t) s = .next (a.lockLost p) := by
  subst ha
  exact congrArg Host.Outcome.next (if_pos ⟨hp, hlock⟩)

theorem exec_planeLockLost_idle (ha : a = s.advance t) (h : 2 ≤ p ∨ a.planeLocked p = false) :
    exec (.planeLockLost p t) s = .next a := by
  subst ha
  exact congrArg Host.Outcome.next (if_neg fun ⟨hp, hlock⟩ => h.elim (Nat.not_le.mpr hp) (by simp [hlock]))

theorem exec_planeLockReturn (ha : a = s.advance t) (hp : p < 2) (hlock : a.planeLocked p = false)
    (hen : a.on (CKO.PLANE_CFG_EN p) = true) :
    exec (.planeLockReturn p t) s = .next (a.relock p) := by
  subst ha
  exact congrArg Host.Outcome.next (if_pos ⟨hp, hlock, hen⟩)

end

/-- Settles O36: each command by what its row writes; a pass over the outputs is cut where an output has its turn. -/
theorem clockOutputsAlignSquelchAndWalk : Obligations.ClockOutputsAlignSquelchAndWalk := by
  intro m n p res t s a hc hwait ha
  have hr : a.RegsWf := ha ▸ State.advance_regsWf hc.regs t
  have hreg : ∀ j, s.reg j = a.reg j := fun j => ha ▸ (s.advance_reg t j).symm
  have hrd : ∀ f, s.rd f = a.rd f := fun f => ha ▸ (s.advance_rd t f).symm
  have hon : ∀ f, s.on f = a.on f := fun f => ha ▸ (s.advance_on t f).symm
  have hcko : s.cko = a.cko := ha ▸ (s.advance_cko t).symm
  have hmode : s.mode = a.mode := hrd _
  have hmaint : s.maint 5 = a.maint 5 := congrArg (fun x => bitAt x 5) (hrd GLB.MAINT_SET_TARGETS)
  have hal : ∀ k, s.alignable k = a.alignable k := fun k => by rw [State.alignable, hon, hon, State.alignable]
  have hof : ∀ k, s.planeOf k = a.planeOf k := fun k => hrd _
  have hlocked : ∀ q, s.planeLocked q = a.planeLocked q := fun q => hon _
  simp only [hreg, hrd, hon, hcko, hmode, hmaint, hal, hof, hlocked] at hwait ⊢
  refine ⟨fun hg hm => ?_, fun hg h3 h6 => ?_, fun hn h0 hdue hen hlock => ?_, exec_outputAlign_idle ha, fun hp hlock => ?_,
    exec_planeLockLost_idle ha, fun hp hlock hen => ?_, fun hn hwalk hgoal => ?_, fun hwalk => ?_⟩
  · have hgo : a.alignGo = a.eachOut alignPass := if_pos hm
    exact ⟨_, (exec_alignGo ha hg).trans (congrArg _ hgo), align_shows hr hwait⟩
  · have hgo : a.alignGo = a.refuseCfg .cko := if_neg fun hm => hm.elim h3 fun h => h6.elim (· h.1) (by simp [h.2])
    exact ⟨_, (exec_alignGo ha hg).trans (congrArg _ hgo), State.sticky_on _ _ hr rfl (by decide) (by decide), a.refuseCfg_signals .cko⟩
  · exact ⟨_, exec_outputAlign ha hn h0 hdue hen hlock, State.alignOut_spec hr hn res⟩
  · exact ⟨_, exec_planeLockLost ha hp hlock, State.lockLost_spec hr hp⟩
  · exact ⟨_, exec_planeLockReturn ha hp hlock hen, State.relock_spec hr hwait hp⟩
  · obtain ⟨hoff, hdone, -, hsig⟩ := State.walkDone_spec hr hn
    have hx : exec (.phaseWalkDone n t) s = .next (a.walkDone n) := by
      subst ha
      exact congrArg Host.Outcome.next (if_pos ⟨hn, hwalk, hgoal⟩)
    exact ⟨_, hx, hoff, hdone, hsig⟩
  · subst ha
    exact congrArg Host.Outcome.next (if_neg fun h => absurd (hwalk.symm.trans h.2.1) (by decide))

end Sys2Proof.Machine

namespace Sys2Proof.Machine

/-! ### A host command taken and completed (R357 to R360) -/

section
variable {ks : List Nat} {s t : State} {c : HostCmd} {status count : Nat}

/-- A command taken from queue 143 moves its credit and nothing else but the queue. -/
theorem State.takeCmd_eq (s : State) (c : HostCmd) : s.takeCmd c = { s with fab := (s.takeCmd c).fab, hif := (s.takeCmd c).hif } := by
  unfold State.takeCmd
  split <;> rfl

@[simp] theorem State.takeCmd_regs (s : State) (c : HostCmd) : (s.takeCmd c).regs = s.regs := by rw [s.takeCmd_eq c]

@[simp] theorem State.takeCmd_gna (s : State) (c : HostCmd) : (s.takeCmd c).gna = s.gna := by rw [s.takeCmd_eq c]

@[simp] theorem State.takeCmd_reg (s : State) (c : HostCmd) (k : Nat) : (s.takeCmd c).reg k = s.reg k := by rw [s.takeCmd_eq c]; rfl

theorem State.takeCmd_regsWf (h : s.RegsWf) (c : HostCmd) : (s.takeCmd c).RegsWf := by rw [s.takeCmd_eq c]; exact h

/-- What signals between two states signals between those that have taken the same command. -/
theorem Signals.takeCmd (h : Signals ks s t) (c : HostCmd) : Signals ks (s.takeCmd c) (t.takeCmd c) := by
  unfold State.takeCmd
  rw [h.cmdQ]
  split
  · exact { h with cmdQ := rfl, reg := h.reg, on := h.on }
  · exact h

/-- A command that fails shows in LAST_CMD and CMD_FAIL. -/
def State.showFail (s : State) (c : HostCmd) (status : Nat) : State :=
  (s.setN HIF.LAST_CMD (c.block + 2 ^ 8 * c.opcode + 2 ^ 16 * status + 2 ^ 24 * c.fn)).sticky HIF.STICKY_CMD_FAIL

/-- What is written of a completion before it is posted: a failure is shown, a refusal or a denial counted. -/
def State.noteCpl (s : State) (c : HostCmd) (status : Nat) : State :=
  let s1 := if status = stOK || status = stZERO_LEN then s else s.showFail c status
  if status = stREFUSED || status = stDENIED then s1.bump HIF.CMD_REFUSED else s1

theorem State.complete_eq (s : State) (c : HostCmd) (status count : Nat) : s.complete c status count =
    ((s.takeCmd c).noteCpl c status).postCpl c.ring ⟨c.slot, status, c.block, count, c.opcode, c.tag, 0, 1, none⟩ := rfl

theorem State.showFail_signals (s : State) (c : HostCmd) (status : Nat) : Signals cmdKeys s (s.showFail c status) :=
  (Signals.setN s HIF.LAST_CMD _ (.inl (by decide))).trans
    (State.sticky_signals _ HIF.STICKY_CMD_FAIL rfl (by decide) (.inl (by decide)))

theorem State.noteCpl_signals (s : State) (c : HostCmd) (status : Nat) : Signals cmdKeys s (s.noteCpl c status) := by
  have hfail : Signals cmdKeys s (if status = stOK || status = stZERO_LEN then s else s.showFail c status) := by
    split
    · exact Signals.refl _ s
    · exact s.showFail_signals c status
  unfold State.noteCpl
  dsimp only
  split
  · exact hfail.trans (Signals.bump _ HIF.CMD_REFUSED 1 (.inl (by decide)))
  · exact hfail

theorem State.postCpl_signals (s : State) (r : Nat) (x : Cpl) : Signals ks s (s.postCpl r x) := by
  unfold State.postCpl
  dsimp only
  split
  · exact Signals.refl ks s
  · exact s.setRing_signals r _

theorem State.complete_signals (s : State) (c : HostCmd) (status count : Nat) :
    Signals cmdKeys (s.takeCmd c) (s.complete c status count) :=
  ((s.takeCmd c).noteCpl_signals c status).trans (State.postCpl_signals _ _ _)

theorem State.showFail_shows (hr : s.RegsWf) (c : HostCmd) (status : Nat) : (s.showFail c status).on HIF.STICKY_CMD_FAIL = true
    ∧ (s.showFail c status).nreg HIF.LAST_CMD = (c.block + 2 ^ 8 * c.opcode + 2 ^ 16 * status + 2 ^ 24 * c.fn) % 2 ^ 32 := by
  have hwf := s.setN_regsWf HIF.LAST_CMD (c.block + 2 ^ 8 * c.opcode + 2 ^ 16 * status + 2 ^ 24 * c.fn) hr
  have htell : Signals [HIF.STICKY] _ (s.showFail c status) := State.sticky_signals _ HIF.STICKY_CMD_FAIL rfl (by decide) (.inl (by decide))
  exact ⟨State.sticky_on _ HIF.STICKY_CMD_FAIL hwf rfl (by decide) (by decide),
    (htell.nreg_eq hwf (by decide) (by decide)).trans (s.nreg_setN _ _ hr)⟩

theorem State.noteCpl_shows (hr : s.RegsWf) (hok : status ≠ stOK) (hzero : status ≠ stZERO_LEN) :
    (s.noteCpl c status).on HIF.STICKY_CMD_FAIL = true
      ∧ (s.noteCpl c status).nreg HIF.LAST_CMD = (c.block + 2 ^ 8 * c.opcode + 2 ^ 16 * status + 2 ^ 24 * c.fn) % 2 ^ 32 := by
  have hcount : Signals [HIF.CMD_REFUSED] (s.showFail c status) (s.noteCpl c status) := by
    simp only [State.noteCpl, hok, hzero, decide_false, Bool.or_self, Bool.false_eq_true, if_false]
    split
    · exact Signals.bump _ _ 1 (.inl (by decide))
    · exact Signals.refl _ _
  have hwf := (s.showFail_signals c status).regsWf hr
  obtain ⟨hon, hlast⟩ := State.showFail_shows hr c status
  exact ⟨(hcount.on_eq hwf (by decide) (by decide)).trans hon, (hcount.nreg_eq hwf (by decide) (by decide)).trans hlast⟩

/-- A completion posted on a ring that takes it waits there last. -/
theorem State.postCpl_getLast (hw : s.RingsWf) {r : Nat} (hst : (s.ringOf r).st ≠ .disabled) (x : Cpl) :
    ((s.postCpl r x).ringOf r).cpls.getLast? = some x := by
  have heq : s.postCpl r x = s.setRing r { s.ringOf r with cpls := (s.ringOf r).cpls ++ [x] } := if_neg hst
  have hring : (s.postCpl r x).ringOf r = { s.ringOf r with cpls := (s.ringOf r).cpls ++ [x] } := by
    rw [heq]
    exact Store.get_put_same hw
  rw [hring, List.getLast?_concat]

theorem State.noteCpl_flows {b : State} (h : Flows b s) (c : HostCmd) (status : Nat) : Flows b (s.noteCpl c status) := by
  have hshow : Flows b (s.showFail c status) := State.sticky_flows
    (State.setN_flows h (k := HIF.LAST_CMD) (by decide) _) (f := HIF.STICKY_CMD_FAIL) (by decide)
  have hfail := Flows.ite (c := (status = stOK || status = stZERO_LEN) = true) h hshow
  exact Flows.ite (State.bump_flows hfail (k := HIF.CMD_REFUSED) (by decide) 1) hfail

theorem State.complete_flows {b : State} (h : Flows b s) (c : HostCmd) (status count : Nat) : Flows b (s.complete c status count) :=
  State.postCpl_flows (State.noteCpl_flows (State.takeCmd_flows h c) c status) _ _

theorem State.complete_completed (ha : s.accepts c) (status count : Nat) : (s.complete c status count).completed c status count := by
  have hf := State.noteCpl_flows (State.takeCmd_flows (Flows.refl s) c) c status
  exact State.postCpl_getLast (hf.ringsWf ha.1) (by rw [hf.ringSt ha.1]; exact ha.2) _

theorem State.complete_failed (hr : s.RegsWf) (ha : s.accepts c) (status : Nat) : (s.complete c status 0).failed c status := by
  refine ⟨State.complete_completed ha status 0, fun hok hzero => ?_⟩
  have htw := State.takeCmd_regsWf hr c
  have hpost : Signals [] ((s.takeCmd c).noteCpl c status) (s.complete c status 0) := State.postCpl_signals _ _ _
  have hwf := ((s.takeCmd c).noteCpl_signals c status).regsWf htw
  obtain ⟨hon, hlast⟩ := State.noteCpl_shows (c := c) htw hok hzero
  exact ⟨(hpost.on_eq hwf (by simp) (by decide)).trans hon, (hpost.nreg_eq hwf (by simp) (by decide)).trans hlast⟩

end

end Sys2Proof.Machine

namespace Sys2Proof.Machine

/-! ### What the events of a command leave as they pass (R366)

An event that a command sends takes those ahead of it with it. They write host memory, registers and rings. None of them changes
the part of GNA, and none changes the state of a ring. -/

/-- From `b` to `s` the part of GNA is as it was, and so is the state of every ring. -/
structure Reports (b s : State) : Prop where
  gna : s.gna = b.gna
  ringsWf : b.RingsWf → s.RingsWf
  ringSt : b.RingsWf → ∀ r, (s.ringOf r).st = (b.ringOf r).st

section
variable {ks : List Nat} {b s t u : State}

theorem Reports.refl (s : State) : Reports s s := ⟨rfl, id, fun _ _ => rfl⟩

theorem Reports.trans (h : Reports s t) (g : Reports t u) : Reports s u :=
  ⟨g.gna.trans h.gna, fun w => g.ringsWf (h.ringsWf w), fun w r => (g.ringSt (h.ringsWf w) r).trans (h.ringSt w r)⟩

/-- Parts of the state that `Reports` does not speak of may change. -/
theorem Reports.of_fields (h : Reports b s) (hg : t.gna = s.gna) (hh : t.hif.rings = s.hif.rings) : Reports b t where
  gna := hg.trans h.gna
  ringsWf w := by rw [State.RingsWf, hh]; exact h.ringsWf w
  ringSt w r := by rw [State.ringOf, hh]; exact h.ringSt w r

theorem Reports.of_signals (hs : Signals ks s t) (hf : Flows s t) : Reports s t := ⟨hs.gna, hf.ringsWf, hf.ringSt⟩

theorem Reports.ite {c : Prop} [Decidable c] (hs : Reports b s) (ht : Reports b t) : Reports b (if c then s else t) := by
  split <;> assumption

theorem Reports.ite_fst {α : Type} {c : Prop} [Decidable c] {x y : State × α} (hx : Reports b x.1) (hy : Reports b y.1) :
    Reports b (if c then x else y).1 := by
  split <;> assumption

theorem Reports.foldl {α : Type} {f : State → α → State} (hf : ∀ u a, Reports b u → Reports b (f u a)) (l : List α)
    (h : Reports b s) : Reports b (l.foldl f s) :=
  List.foldlRecOn (motive := Reports b) l f h fun u hu a _ => hf u a hu

theorem Reports.accepts {c : HostCmd} (h : Reports b s) (ha : b.accepts c) : s.accepts c :=
  ⟨h.ringsWf ha.1, by rw [h.ringSt ha.1]; exact ha.2⟩

theorem State.setBytes_eq (s : State) (a : Nat) (l : List Byte) : s.setBytes a l = { s with mem := (s.setBytes a l).mem } := by
  induction l generalizing s a with
  | nil => rfl
  | cons x r ih => rw [State.setBytes, ih]

theorem State.putGroup_eq (s : State) (addrs : List Nat) (size off : Nat) (l : List Byte) :
    s.putGroup addrs size off l = { s with mem := (s.putGroup addrs size off l).mem } := by
  induction l generalizing s off with
  | nil => rfl
  | cons x r ih => rw [State.putGroup, ih, State.setBytes_eq]

end

section
variable {b s : State} (h : Reports b s)
include h

theorem State.sticky_reports {f : Fld} (hw : f.w = 1) (hl : f.lo < 32) (hf : ¬ calm f.addr) : Reports b (s.sticky f) :=
  h.trans (.of_signals (s.sticky_signals f hw hl (ks := [f.addr]) (.inl (by simp))) (State.sticky_flows (.refl s) hf))

theorem State.count_reports (g e u n : Nat) : Reports b (s.count g e u n) :=
  h.trans (.of_signals (ks := []) (s.count_signals g e u n) (State.count_flows (.refl s) g e u n))

theorem State.eventOvf_reports : Reports b (s.sumpCount 0x17) :=
  h.trans (.of_signals (ks := []) (s.sumpCount_signals 0x17 1 (.inr (by decide)) (.inr (by decide)))
    (State.sumpCount_flows (.refl s) (by decide) 1))

theorem State.postEvent_reports (ring kind : Nat) (p : List Byte) : Reports b (s.postEvent ring kind p).1 :=
  h.trans (.of_signals (ks := []) (s.postEvent_signals ring kind p) (State.postEvent_flows (.refl s) ring kind p))

theorem State.setRing_reports {r : Nat} {x : Ring} (hx : x.st = (s.ringOf r).st) : Reports b (s.setRing r x) :=
  h.trans (.of_signals (ks := []) (s.setRing_signals r x) (State.setRing_flows (.refl s) hx))

theorem State.postCpl_reports (r : Nat) (x : Cpl) : Reports b (s.postCpl r x) :=
  h.trans (.of_signals (ks := []) (s.postCpl_signals r x) (State.postCpl_flows (.refl s) r x))

theorem State.wr_reports (f : Fld) (v : Nat) : Reports b (s.wr f v) := h.of_fields rfl rfl

theorem State.bump_reports (k n : Nat) : Reports b (s.bump k n) := h.of_fields rfl rfl

theorem State.satF_reports (f : Fld) : Reports b (s.satF f) := Reports.ite h (State.wr_reports h f _)

theorem State.qTake_reports (q n : Nat) : Reports b (s.qTake q n) := h.of_fields rfl rfl

theorem State.putGroup_reports (addrs : List Nat) (size off : Nat) (l : List Byte) : Reports b (s.putGroup addrs size off l) :=
  h.of_fields (by rw [s.putGroup_eq]) (by rw [s.putGroup_eq])

/-! ### Event buffers -/

theorem State.closeBuf_reports (r : Nat) : Reports b (s.closeBuf r) := by
  unfold State.closeBuf
  dsimp only
  split
  · exact h
  · refine State.postCpl_reports (State.setRing_reports h ?_) r _
    rfl

theorem State.openGroup_reports {r n : Nat} {u : State} (hu : s.openGroup r n = some u) : Reports b u := by
  unfold State.openGroup at hu
  dsimp only at hu
  split at hu
  · cases hu
  · split at hu
    · cases hu
    · cases hu
      refine State.setRing_reports h ?_
      rfl

theorem State.placeEvent_reports (r : Nat) (bytes : List Byte) : Reports b (s.placeEvent r bytes) := by
  unfold State.placeEvent
  dsimp only
  split
  · exact h
  next x _ =>
    have hput := State.putGroup_reports h x.addrs (s.bufSize r) x.used bytes
    have hring : (s.ringOf r).st = ((s.putGroup x.addrs (s.bufSize r) x.used bytes).ringOf r).st := by
      rw [s.putGroup_eq]
      rfl
    have hset : ∀ y : OpenBuf, Reports b ((s.putGroup x.addrs (s.bufSize r) x.used bytes).setRing r
        { s.ringOf r with openBuf := some y }) := fun y => State.setRing_reports hput hring
    exact Reports.ite (State.closeBuf_reports (hset _) r) (hset _)

theorem State.eventLost_reports (r kind : Nat) : Reports b (s.eventLost r kind) := by
  have hdrop := State.bump_reports (State.setRing_reports h (r := r)
    (x := { s.ringOf r with drops := ((s.ringOf r).drops + 1) % 2 ^ 32 }) rfl) HIF.EVENT_LOST 1
  exact State.sticky_reports (Reports.ite hdrop (State.eventOvf_reports hdrop)) (f := HIF.STICKY_EVENT_LOST) rfl (by decide) (by decide)

/-! ### Events delivered -/

theorem State.deliver_reports (e : Event) : Reports b (s.deliver e).1 := by
  have hseq := State.setRing_reports h (r := e.ring)
    (x := { s.ringOf e.ring with evSeq := ((s.ringOf e.ring).evSeq + 1) % 2 ^ 32 }) rfl
  refine Reports.ite_fst (State.eventLost_reports hseq _ _) (Reports.ite_fst (State.placeEvent_reports hseq _ _) ?_)
  dsimp only
  split
  next u hu => exact State.placeEvent_reports (State.openGroup_reports (State.closeBuf_reports hseq e.ring) hu) _ _
  next => exact State.eventLost_reports (State.closeBuf_reports hseq e.ring) _ _

theorem State.noteLost_reports (e : Event) : Reports b (s.noteLost e) := by
  have htdc : ∀ f, Reports b (if s.rd f = 255 then s else s.wr f (s.rd f + 1)) := fun f => Reports.ite h (State.wr_reports h f _)
  unfold State.noteLost
  split
  · exact State.sticky_reports h (f := FAB.STICKY_SAMPLE_LOST) rfl (by decide) (by decide)
  · exact State.sticky_reports h rfl (by simp [PRT.STICKY_STATS_LOST]) (not_calm_stickyPrt _)
  · exact State.sticky_reports (State.satF_reports h _) (f := EVT.STICKY_CAP_LOST) rfl (by decide) (by decide)
  · exact State.sticky_reports (htdc _) (f := TDC.STICKY_LOST) rfl (by decide) (by decide)
  · exact State.sticky_reports h (f := TDC.STICKY_FREQ_LOST) rfl (by decide) (by decide)
  · exact State.sticky_reports h (f := PTP.STICKY_EVENT_LOST) rfl (by decide) (by decide)
  · exact State.sticky_reports h (f := PMC.STICKY_SNAP_LOST) rfl (by decide) (by decide)
  · exact h

theorem State.noteSent_reports (e : Event) : Reports b (s.noteSent e) := by
  unfold State.noteSent
  split
  · exact h.of_fields rfl rfl
  · exact h

theorem State.tdcPump_reports (c : Nat) : Reports b (s.tdcPump c) := by
  unfold State.tdcPump
  refine Reports.foldl (fun u x hu => Reports.ite (State.postEvent_reports ?_ _ 8 _) hu) _ h
  exact (State.qTake_reports hu (112 + c) 1).of_fields rfl rfl

theorem State.deliverHead_reports : Reports b s.deliverHead := by
  unfold State.deliverHead
  split
  · exact h
  next e rest _ =>
    have htake : Reports b { s.qTake 142 with hif := { (s.qTake 142).hif with evQ := rest } } := h.of_fields rfl rfl
    have hgo := State.deliver_reports htake e
    have hnote := Reports.ite (c := (State.deliver { s.qTake 142 with hif := { (s.qTake 142).hif with evQ := rest } } e).2 = true)
      (State.noteSent_reports hgo e) (State.noteLost_reports hgo e)
    exact Reports.ite hnote (Reports.foldl (fun u c hu => State.tdcPump_reports hu c) _ hnote)

theorem State.sendEvent_reports (ring kind : Nat) (p : List Byte) : Reports b (s.sendEvent ring kind p).1 :=
  State.deliver_reports (Reports.foldl (fun _ _ hu => State.deliverHead_reports hu) _ h) _

end

end Sys2Proof.Machine

namespace Sys2Proof.Machine

/-! ### The result records of a search (R180, R181) -/

section
variable {b s : State} (h : Reports b s)
include h

theorem State.handOff_reports (x : Search) (r : AcqRes) (ch : Nat) : Reports b (s.handOff x r ch) := h.of_fields rfl rfl

theorem State.acqRecord_reports (x : Search) (r : AcqRes) (last : Bool) : Reports b (s.acqRecord x r last).1 := by
  have hgive : ∀ c : Nat × Nat, Reports b (if c.1 = 1 then s.handOff x r c.2 else s) :=
    fun c => Reports.ite (State.handOff_reports h x r c.2) h
  exact State.sendEvent_reports (Reports.ite (State.wr_reports (hgive _) _ _) (hgive _)) _ 3 _

theorem State.poisonSeen_reports : Reports b s.poisonSeen :=
  State.sticky_reports (State.bump_reports h PMC.POISON_SEEN 1) (f := PMC.STICKY_POISON) rfl (by decide) (by decide)

theorem State.acqRecords_reports (x : Search) (l : List AcqRes) (n : Nat) (lost : Bool) : Reports b (s.acqRecords x l n lost).1 := by
  induction l generalizing s n lost with
  | nil => exact h
  | cons r rest ih =>
    have hone := State.acqRecord_reports h x r (rest.isEmpty || r.poisoned)
    exact Reports.ite_fst (State.poisonSeen_reports hone) (ih hone _ _)

end

/-! ### BUSY and QUEUED of `GNA.STAT` -/

section
variable {s a : State} {x : Search} {e t : Nat}

/-- The searches that no engine has begun. -/
def State.waitingSearches (s : State) : List Search := s.gna.searches.filter (fun x => !x.running)

theorem State.showSearches_regsOnly (s : State) : RegsOnly [GNA.STAT] s s.showSearches :=
  List.foldlRecOn (motive := RegsOnly [GNA.STAT] s) _ _ ((RegsOnly.refl _ s).wr GNA.STAT_QUEUED _ List.mem_cons_self)
    fun _ hu e _ => hu.wr ⟨GNA.STAT, e, 1⟩ _ List.mem_cons_self

/-- QUEUED counts the searches that wait; the bits of BUSY lie beside it. -/
theorem State.showSearches_queued (hr : s.RegsWf) :
    s.showSearches.rd GNA.STAT_QUEUED = s.waitingSearches.length % 2 ^ GNA.STAT_QUEUED.w := by
  suffices h : s.showSearches.RegsWf ∧ s.showSearches.rd GNA.STAT_QUEUED = s.waitingSearches.length % 2 ^ GNA.STAT_QUEUED.w from h.2
  refine List.foldlRecOn (List.range 4) _ (motive := fun u : State => u.RegsWf
      ∧ u.rd GNA.STAT_QUEUED = s.waitingSearches.length % 2 ^ GNA.STAT_QUEUED.w)
    ⟨s.wr_regsWf _ _ hr, s.rd_wr _ _ hr (by decide)⟩ fun u ⟨hw, hu⟩ e he => ?_
  have he4 : e < 4 := List.mem_range.mp he
  exact ⟨u.wr_regsWf _ _ hw, (u.rd_wr_disj ⟨GNA.STAT, e, 1⟩ GNA.STAT_QUEUED _ hw (by dsimp; omega) rfl
    (.inr (by simp only [GNA.STAT_QUEUED]; omega))).trans hu⟩

@[simp] theorem State.showSearches_gna (s : State) : s.showSearches.gna = s.gna := by rw [s.showSearches_regsOnly.eq]

/-- The list of searches set to `l`, and shown. -/
def State.listSearches (s : State) (l : List Search) : State := (s.setSearches l).showSearches

theorem State.listSearches_gna (s : State) (l : List Search) : (s.listSearches l).gna = { s.gna with searches := l } :=
  State.showSearches_gna _

theorem State.listSearches_eq (s : State) (l : List Search) :
    s.listSearches l = { s with gna := (s.listSearches l).gna, regs := (s.listSearches l).regs } := by
  have heq : s.listSearches l = { s.setSearches l with regs := (s.listSearches l).regs } := (s.setSearches l).showSearches_regsOnly.eq
  rw [heq]
  rfl

theorem State.listSearches_reg (hr : s.RegsWf) (l : List Search) {j : Nat} (hj : j ≠ GNA.STAT) : (s.listSearches l).reg j = s.reg j :=
  (s.setSearches l).showSearches_regsOnly.reg hr j (by simpa using hj)

theorem State.listSearches_regsWf (hr : s.RegsWf) (l : List Search) : (s.listSearches l).RegsWf :=
  (s.setSearches l).showSearches_regsOnly.regsWf hr

theorem State.listSearches_queued (hr : s.RegsWf) (l : List Search) : (s.listSearches l).rd GNA.STAT_QUEUED =
    ((s.listSearches l).gna.searches.filter (fun x => !x.running)).length % 2 ^ GNA.STAT_QUEUED.w := by
  rw [s.listSearches_gna]
  exact State.showSearches_queued (s := s.setSearches l) hr

theorem State.listSearches_reports (s : State) (l : List Search) :
    Reports { s with gna := { s.gna with searches := l } } (s.listSearches l) :=
  (Reports.refl _).of_fields (s.listSearches_gna l) (by rw [s.listSearches_eq])

/-! ### A search ends -/

/-- A one-bit field of the sticky register of GNA. -/
structure GnaSticky (f : Fld) : Prop where
  addr : f.addr = GNA.STICKY
  w : f.w = 1
  lo : f.lo < 32

theorem GnaSticky.sticky {f : Fld} (hf : GnaSticky f) (hr : s.RegsWf) : (s.sticky f).on f = true :=
  s.sticky_on f hr hf.w hf.lo (hf.addr ▸ by decide)

theorem GnaSticky.signals {f : Fld} (hf : GnaSticky f) (s : State) : Signals [GNA.STICKY] s (s.sticky f) :=
  s.sticky_signals f hf.w hf.lo (.inl (by simp [hf.addr]))

theorem GnaSticky.on_sticky {f g : Fld} (hf : GnaSticky f) (hg : GnaSticky g) (hr : s.RegsWf) (hon : s.on f = true) :
    (s.sticky g).on f = true :=
  (s.sticky_bitsStay hg.w hg.lo hr).2 f hf.w hf.lo (hf.addr ▸ by decide) hon

theorem GnaSticky.reports {f : Fld} (hf : GnaSticky f) {b : State} (h : Reports b s) : Reports b (s.sticky f) :=
  State.sticky_reports h hf.w hf.lo (hf.addr ▸ by decide)

theorem GnaSticky.searchDone : GnaSticky GNA.STICKY_SEARCH_DONE := ⟨rfl, rfl, by decide⟩

theorem GnaSticky.poison : GnaSticky GNA.STICKY_POISON := ⟨rfl, rfl, by decide⟩

theorem GnaSticky.recLost : GnaSticky GNA.STICKY_REC_LOST := ⟨rfl, rfl, by decide⟩

/-- A completion leaves the sticky bits of GNA. -/
theorem GnaSticky.on_complete {f : Fld} (hf : GnaSticky f) (hr : s.RegsWf) (c : HostCmd) (status count : Nat) :
    (s.complete c status count).on f = s.on f :=
  ((s.complete_signals c status count).on_eq (State.takeCmd_regsWf hr c) (hf.addr ▸ by decide) (hf.addr ▸ by decide)).trans
    (State.on_congr (s.takeCmd_reg c _))

/-- The search `x` is gone from its engine, which counts it. -/
def State.countSearch (s : State) (x : Search) : State :=
  (s.listSearches (s.gna.searches.erase x)).bumpF (GNA.ENG_STAT_SEARCHES x.eng)

/-- That, and SEARCH_DONE told. -/
def State.tellSearch (s : State) (x : Search) : State := (s.countSearch x).sticky GNA.STICKY_SEARCH_DONE

theorem State.endSearch_eq (s : State) (x : Search) (code n : Nat) : s.endSearch x code n = (s.tellSearch x).complete x.cmd code n := rfl

theorem State.countSearch_regsWf (hr : s.RegsWf) (x : Search) : (s.countSearch x).RegsWf :=
  State.wr_regsWf _ _ _ (State.listSearches_regsWf hr _)

/-- A sticky bit of GNA stands, whatever number the engine has: ENG_STAT lies above STICKY. -/
theorem GnaSticky.on_countSearch {f : Fld} (hf : GnaSticky f) (hr : s.RegsWf) (x : Search) : (s.countSearch x).on f = s.on f := by
  have hne : f.addr ≠ (GNA.ENG_STAT_SEARCHES x.eng).addr := by
    rw [hf.addr]
    simp only [GNA.ENG_STAT_SEARCHES, GNA.ENG_STAT, GNA.STICKY]
    omega
  exact (State.on_wr_ne (State.listSearches_regsWf hr _) _ hne).trans
    (State.on_congr (State.listSearches_reg hr _ (hf.addr ▸ by decide)))

theorem State.tellSearch_regsWf (hr : s.RegsWf) (x : Search) : (s.tellSearch x).RegsWf :=
  (GnaSticky.searchDone.signals _).regsWf (State.countSearch_regsWf hr x)

theorem State.tellSearch_reports (s : State) (x : Search) :
    Reports { s with gna := { s.gna with searches := s.gna.searches.erase x } } (s.tellSearch x) :=
  GnaSticky.searchDone.reports (State.wr_reports (s.listSearches_reports _) _ _)

theorem State.complete_reports (s : State) (c : HostCmd) (status count : Nat) : Reports s (s.complete c status count) where
  gna := (s.complete_signals c status count).gna.trans (s.takeCmd_gna c)
  ringsWf := (State.complete_flows (.refl s) c status count).ringsWf
  ringSt := (State.complete_flows (.refl s) c status count).ringSt

theorem State.endSearch_reports (s : State) (x : Search) (code n : Nat) :
    Reports { s with gna := { s.gna with searches := s.gna.searches.erase x } } (s.endSearch x code n) :=
  (s.tellSearch_reports x).trans ((s.tellSearch x).complete_reports x.cmd code n)

theorem State.endSearch_searches (s : State) (x : Search) (code n : Nat) :
    (s.endSearch x code n).gna.searches = s.gna.searches.erase x := by rw [(s.endSearch_reports x code n).gna]

theorem State.endSearch_accepts {c : HostCmd} (ha : s.accepts c) (x : Search) (code n : Nat) : (s.endSearch x code n).accepts c :=
  (s.endSearch_reports x code n).accepts ha

theorem State.endSearch_regsWf (hr : s.RegsWf) (x : Search) (code n : Nat) : (s.endSearch x code n).RegsWf :=
  (State.endSearch_keeps (.refl true s) x code n).regsWf hr

theorem State.endSearch_done (hr : s.RegsWf) (x : Search) (code n : Nat) :
    (s.endSearch x code n).on GNA.STICKY_SEARCH_DONE = true :=
  (GnaSticky.searchDone.on_complete (State.tellSearch_regsWf hr x) _ _ _).trans
    (GnaSticky.searchDone.sticky (State.countSearch_regsWf hr x))

theorem GnaSticky.on_endSearch {f : Fld} (hf : GnaSticky f) (hr : s.RegsWf) (hon : s.on f = true) (x : Search) (code n : Nat) :
    (s.endSearch x code n).on f = true :=
  (hf.on_complete (State.tellSearch_regsWf hr x) _ _ _).trans
    (hf.on_sticky .searchDone (State.countSearch_regsWf hr x) ((hf.on_countSearch hr x).trans hon))

theorem State.endSearch_completed (ha : s.accepts x.cmd) (code n : Nat) : (s.endSearch x code n).completed x.cmd code n :=
  State.complete_completed ((s.tellSearch_reports x).accepts ha) code n

/-! ### ABORT (R182) -/

theorem diff_filter_self {α : Type} [DecidableEq α] (p : α → Bool) (l : List α) : l.diff (l.filter p) = l.filter (fun x => !p x) := by
  induction l with
  | nil => rfl
  | cons x r ih =>
    cases hx : p x with
    | true => rw [List.filter_cons_of_pos hx, List.diff_cons, List.erase_cons_head, ih, List.filter_cons_of_neg (by simp [hx])]
    | false =>
      rw [List.filter_cons_of_neg (by simp [hx]), List.cons_diff_of_not_mem (by simp [hx]), ih, List.filter_cons_of_pos (by simp [hx])]

/-- The searches of `l` end one after the other. -/
def State.endAborted (s : State) (l : List Search) : State := l.foldl (fun t x => t.endSearch x stABORTED 0) s

theorem State.endAborted_spec (hr : s.RegsWf) (l : List Search) : (s.endAborted l).RegsWf
    ∧ (s.endAborted l).gna.searches = s.gna.searches.diff l
    ∧ (∀ c : HostCmd, s.accepts c → (s.endAborted l).accepts c)
    ∧ (l ≠ [] ∨ s.on GNA.STICKY_SEARCH_DONE = true → (s.endAborted l).on GNA.STICKY_SEARCH_DONE = true) := by
  induction l generalizing s with
  | nil => exact ⟨hr, by simp [State.endAborted], fun _ => id, fun h => h.resolve_left (· rfl)⟩
  | cons x r ih =>
    obtain ⟨hwf, hlist, hacc, hdone⟩ := ih (State.endSearch_regsWf hr x stABORTED 0)
    refine ⟨hwf, ?_, fun c ha => hacc c (State.endSearch_accepts ha x stABORTED 0),
      fun _ => hdone (.inr (State.endSearch_done hr x stABORTED 0))⟩
    rw [List.diff_cons, ← s.endSearch_searches x stABORTED 0]
    exact hlist

theorem State.abortSearches_searches (hr : s.RegsWf) (p : Search → Bool) :
    (s.abortSearches p).gna.searches = s.gna.searches.filter (fun x => !p x) :=
  have ⟨_, hlist, _, _⟩ := State.endAborted_spec hr (s.gna.searches.filter p)
  hlist.trans (diff_filter_self p _)

end

end Sys2Proof.Machine

namespace Sys2Proof.Machine

/-! ### SEARCH (R178, R179) -/

section
variable {s a : State} {c : HostCmd} {x : Search} {r : List Search} {e k t : Nat}

theorem exec_search_queued (ha : a = s.advance t) (h0 : a.searchCode c = 0) (hk : a.searchEngine c = some k) :
    exec (.search c t) s = .next ((a.takeCmd c).listSearches (a.gna.searches ++ [⟨c, k, false, 0, 0, 0, false⟩])) := by
  show execSearch c t s = _
  simp [execSearch, ← ha, h0, hk, State.listSearches]

/-- What a SEARCH that is not taken writes: a refusal is told, and the command completes. -/
def State.declineSearch (s : State) (c : HostCmd) (code : Nat) : State :=
  (if code = stREFUSED then s.refuseCfg .gna else s).complete c code 0

theorem exec_search_declined (ha : a = s.advance t) (h0 : a.searchCode c ≠ 0) :
    exec (.search c t) s = .next (a.declineSearch c (a.searchCode c)) := by
  subst ha
  exact congrArg Host.Outcome.next (if_pos h0)

theorem State.declineSearch_spec (hr : s.RegsWf) (hacc : s.accepts c) (code : Nat) :
    (s.declineSearch c code).failed c code ∧ Signals (cmdKeys ++ [GNA.STICKY]) (s.takeCmd c) (s.declineSearch c code) := by
  obtain ⟨v, hv⟩ : ∃ v, (if code = stREFUSED then s.refuseCfg .gna else s) = v := ⟨_, rfl⟩
  have htold : Signals [GNA.STICKY] s v ∧ Reports s v := by
    subst hv
    split
    · exact ⟨s.refuseCfg_signals .gna, State.sticky_reports (.refl s) rfl (by decide) (by decide)⟩
    · exact ⟨.refl _ s, .refl s⟩
  have heq : s.declineSearch c code = v.complete c code 0 := congrArg (fun u => u.complete c code 0) hv
  rw [heq]
  exact ⟨State.complete_failed (htold.1.regsWf hr) (htold.2.accepts hacc) code,
    ((htold.1.takeCmd c).mono (by simp)).trans ((v.complete_signals c code 0).mono fun _ => List.mem_append_left _)⟩

/-! ### An engine begins its first search (R175) -/

theorem exec_searchCaptureStart (ha : a = s.advance t) (hq : a.engSearches e = x :: r) (hwait : x.running = false)
    (hp : a.on (GNA.PORT_STAT_PRESENT x.cmd.gnPort) = true) : exec (.searchCaptureStart e t) s = .next (a.listSearches
      ({ x with running := true, time := a.tsNow 0, capEnd := a.raw + x.cmd.captureQ, steps := a.tsc.steps0, clipped := false }
        :: a.gna.searches.erase x)) := by
  show execSearchCaptureStart e t s = _
  simp [execSearchCaptureStart, ← ha, hq, hwait, hp, State.listSearches]

theorem exec_searchCaptureStart_absent (ha : a = s.advance t) (hq : a.engSearches e = x :: r)
    (hp : a.on (GNA.PORT_STAT_PRESENT x.cmd.gnPort) = false) : exec (.searchCaptureStart e t) s = .next a := by
  show execSearchCaptureStart e t s = _
  simp [execSearchCaptureStart, ← ha, hq, hp]

theorem exec_searchCaptureStart_none (ha : a = s.advance t) (hq : a.engSearches e = []) :
    exec (.searchCaptureStart e t) s = .next a := by
  show execSearchCaptureStart e t s = _
  simp [execSearchCaptureStart, ← ha, hq]

/-! ### A search reports (R180) -/

variable {rs : List AcqRes}

theorem exec_searchReport_none (ha : a = s.advance t) (hq : a.engSearches e = []) : exec (.searchReport e rs t) s = .next a := by
  show execSearchReport e rs t s = _
  simp [execSearchReport, ← ha, hq]

theorem exec_searchReport_capturing (ha : a = s.advance t) (hq : a.engSearches e = x :: r) (hcap : a.raw < x.capEnd) :
    exec (.searchReport e rs t) s = .next a := by
  show execSearchReport e rs t s = _
  simp [execSearchReport, ← ha, hq, hcap]

/-- The records of a search written, the transforms counted: as `State.acqRecords`. -/
def State.writeRecords (s : State) (x : Search) (rs : List AcqRes) : State × Nat × Bool × Bool :=
  (s.count 5 3 0 x.cmd.transforms).acqRecords x (orderedResults x.cmd rs) 0 false

/-- A sticky bit told where `c` holds. -/
def State.stickyIf (s : State) (f : Fld) (c : Bool) : State := if c then s.sticky f else s

/-- What is told of poisoned and of lost records. -/
def State.tellRecords (s : State) (poisoned lost : Bool) : State :=
  (s.stickyIf GNA.STICKY_POISON poisoned).stickyIf GNA.STICKY_REC_LOST lost

/-- The code of a search whose records are written (R24, R179). -/
def recordsCode (poisoned lost : Bool) : Nat := lowestCode [codeIf poisoned stPOISONED, codeIf lost stINCOMPLETE]

theorem recordsCode_mem (poisoned lost : Bool) : recordsCode poisoned lost ∈ [stOK, stPOISONED, stINCOMPLETE]
    ∧ (recordsCode poisoned lost = stPOISONED → poisoned = true) := by
  cases poisoned <;> cases lost <;> decide

/-- The records of a search are written, what became of them is told, and the search ends. -/
def State.reportSearch (s : State) (x : Search) (rs : List AcqRes) : State :=
  let v := s.writeRecords x rs
  (v.1.tellRecords v.2.2.2 v.2.2.1).endSearch x (recordsCode v.2.2.2 v.2.2.1) v.2.1

theorem exec_searchReport (ha : a = s.advance t) (hq : a.engSearches e = x :: r) (hrun : x.running = true) (hcap : x.capEnd ≤ a.raw) :
    exec (.searchReport e rs t) s = .next (a.reportSearch x rs) := by
  show execSearchReport e rs t s = _
  simp only [execSearchReport, ← ha, hq]
  exact congrArg Host.Outcome.next (if_neg (by simp [hrun, hcap]))

theorem State.writeRecords_reports (s : State) (x : Search) (rs : List AcqRes) : Reports s (s.writeRecords x rs).1 :=
  State.acqRecords_reports (State.count_reports (.refl s) 5 3 0 _) x _ 0 false

theorem State.writeRecords_keeps (s : State) (x : Search) (rs : List AcqRes) : Keeps true s (s.writeRecords x rs).1 :=
  State.acqRecords_keeps (State.count_keeps (.refl true s) 5 3 0 _) x _ 0 false

theorem GnaSticky.stickyIf {f : Fld} (hf : GnaSticky f) (s : State) (c : Bool) : Reports s (s.stickyIf f c)
    ∧ Signals [GNA.STICKY] s (s.stickyIf f c) := by
  unfold State.stickyIf
  split
  · exact ⟨hf.reports (.refl s), hf.signals s⟩
  · exact ⟨.refl s, .refl _ s⟩

theorem GnaSticky.on_stickyIf {f g : Fld} (hf : GnaSticky f) (hg : GnaSticky g) (hr : s.RegsWf) (hon : s.on f = true) (c : Bool) :
    (s.stickyIf g c).on f = true := by
  unfold State.stickyIf
  split
  · exact hf.on_sticky hg hr hon
  · exact hon

theorem State.tellRecords_spec (hr : s.RegsWf) (poisoned lost : Bool) : Reports s (s.tellRecords poisoned lost)
    ∧ Signals [GNA.STICKY] s (s.tellRecords poisoned lost)
    ∧ (poisoned = true → (s.tellRecords poisoned lost).on GNA.STICKY_POISON = true) := by
  obtain ⟨hrep, hsig⟩ := GnaSticky.poison.stickyIf s poisoned
  obtain ⟨hrep', hsig'⟩ := GnaSticky.recLost.stickyIf (s.stickyIf GNA.STICKY_POISON poisoned) lost
  refine ⟨hrep.trans hrep', hsig.trans hsig', fun h => GnaSticky.poison.on_stickyIf .recLost (hsig.regsWf hr) ?_ lost⟩
  subst h
  exact GnaSticky.poison.sticky hr

/-- A search whose records are written leaves its engine and completes. -/
theorem State.reportSearch_spec (hr : s.RegsWf) (hacc : s.accepts x.cmd) (rs : List AcqRes) : ∃ code n,
    code ∈ [stOK, stPOISONED, stINCOMPLETE] ∧ (s.reportSearch x rs).gna.searches = s.gna.searches.erase x
    ∧ (s.reportSearch x rs).on GNA.STICKY_SEARCH_DONE = true ∧ (s.reportSearch x rs).completed x.cmd code n
    ∧ (code = stPOISONED → (s.reportSearch x rs).on GNA.STICKY_POISON = true) ∧ (s.reportSearch x rs).raw = s.raw := by
  have hrep := s.writeRecords_reports x rs
  have hkeep := s.writeRecords_keeps x rs
  unfold State.reportSearch
  generalize s.writeRecords x rs = v at hrep hkeep ⊢
  obtain ⟨v, n, lost, poisoned⟩ := v
  obtain ⟨htrep, htsig, hpoison⟩ := State.tellRecords_spec (hkeep.regsWf hr) poisoned lost
  obtain ⟨hcode, hpois⟩ := recordsCode_mem poisoned lost
  have hw := htsig.regsWf (hkeep.regsWf hr)
  refine ⟨recordsCode poisoned lost, n, hcode, ?_, State.endSearch_done hw x _ n,
    State.endSearch_completed ((hrep.trans htrep).accepts hacc) _ n,
    fun h => GnaSticky.poison.on_endSearch hw (hpoison (hpois h)) x _ n, ?_⟩
  · exact (State.endSearch_searches _ x _ n).trans (by rw [(hrep.trans htrep).gna])
  · exact (State.endSearch_keeps (.refl true _) x _ n).raw.trans (htsig.raw.trans hkeep.raw)

/-! ### ABORT names the searches of its function (R182) -/

/-- The searches that ABORT names: those of its function on the engine it gives, or on any. -/
def HostCmd.aborts (c : HostCmd) (x : Search) : Bool := x.cmd.fn == c.fn && (c.u 0 1 == 7 || x.eng == c.u 0 1)

/-- The codes against ABORT where it names `n` searches. -/
def HostCmd.abortCode (c : HostCmd) (n : Nat) : Nat :=
  c.code [codeIf (!c.zero 1 32 || decide (8 ≤ c.u 0 1) || (decide (4 ≤ c.u 0 1) && c.u 0 1 != 7)) stREFUSED, codeIf (n == 0) stZERO_LEN]

theorem lowestCode_eq_zero {l : List Nat} (h : lowestCode l = 0) : ∀ d ∈ l, d = 0 := by
  induction l with
  | nil => simp
  | cons d l ih =>
    have hd : d = 0 ∧ lowestCode l = 0 := by
      simp only [lowestCode] at h
      split_ifs at h <;> omega
    simpa [hd.1] using ih hd.2

theorem HostCmd.abortCode_eq_zero {n : Nat} (h : c.abortCode n = 0) : n ≠ 0 := by
  rintro rfl
  exact absurd (lowestCode_eq_zero h stZERO_LEN (by simp [codeIf])) (by decide)

theorem exec_searchAbort (ha : a = s.advance t) (h0 : c.abortCode (a.gna.searches.filter c.aborts).length = 0) :
    exec (.searchAbort c t) s = .next ((a.abortSearches c.aborts).complete c stOK (a.gna.searches.filter c.aborts).length) := by
  subst ha
  exact congrArg Host.Outcome.next (if_pos h0)

theorem State.abortSearches_complete_spec (hr : a.RegsWf) (hacc : a.accepts c) (hne : a.gna.searches.filter c.aborts ≠ []) (n : Nat) :
    ((a.abortSearches c.aborts).complete c stOK n).gna.searches = a.gna.searches.filter (fun x => !c.aborts x)
    ∧ ((a.abortSearches c.aborts).complete c stOK n).on GNA.STICKY_SEARCH_DONE = true
    ∧ ((a.abortSearches c.aborts).complete c stOK n).completed c stOK n := by
  obtain ⟨hw, -, hkeep, hdone⟩ := State.endAborted_spec hr (a.gna.searches.filter c.aborts)
  have hsig := (a.abortSearches c.aborts).complete_signals c stOK n
  refine ⟨?_, (GnaSticky.searchDone.on_complete hw c stOK n).trans (hdone (.inl hne)), State.complete_completed (hkeep c hacc) stOK n⟩
  rw [hsig.gna, State.takeCmd_gna, State.abortSearches_searches hr]

end

/-- Settles O37: each command by its case; what the records of a search and the end of a search leave is told once for each. -/
theorem searchesQueueRunAndEnd : Obligations.SearchesQueueRunAndEnd := by
  intro c e t rs s a hc hacc ha
  have hr : a.RegsWf := ha ▸ State.advance_regsWf hc.regs t
  have hreg : ∀ j, s.reg j = a.reg j := fun j => ha ▸ (s.advance_reg t j).symm
  have hon : ∀ f, s.on f = a.on f := fun f => ha ▸ (s.advance_on t f).symm
  have hgna : s.gna = a.gna := ha ▸ (s.advance_gna t).symm
  have htsc : s.tsc = a.tsc := ha ▸ (s.advance_tsc t).symm
  have hhif : s.hif = a.hif := ha ▸ (s.advance_hif t).symm
  have haccepts : ∀ d : HostCmd, s.accepts d = a.accepts d := fun d => by
    rw [State.accepts, State.RingsWf, State.ringOf, hhif, State.accepts, State.RingsWf, State.ringOf]
  have heng : s.engSearches e = a.engSearches e := by rw [State.engSearches, hgna, State.engSearches]
  simp only [hreg, hon, hgna, htsc, haccepts, heng] at hacc ⊢
  refine ⟨fun k h0 hk => ?_, fun h0 => ⟨_, exec_search_declined ha h0, State.declineSearch_spec hr hacc _⟩, fun x r hq hwait hp => ?_,
    fun x r hq hp => exec_searchCaptureStart_absent ha hq hp,
    fun hq => ⟨exec_searchCaptureStart_none ha hq, exec_searchReport_none ha hq⟩,
    fun x r hq _ hcap => exec_searchReport_capturing ha hq hcap, fun x r hq hrun hcap hx => ?_, fun h0 => ?_⟩
  · have hw := State.takeCmd_regsWf hr c
    exact ⟨_, exec_search_queued ha h0 hk, by rw [State.listSearches_gna, State.takeCmd_gna], State.listSearches_queued hw _,
      fun j hj => (State.listSearches_reg hw _ hj).trans (a.takeCmd_reg c j), State.listSearches_eq _ _⟩
  · exact ⟨_, exec_searchCaptureStart ha hq hwait hp, State.listSearches_gna _ _, fun j hj => State.listSearches_reg hr _ hj,
      State.listSearches_eq _ _⟩
  · obtain ⟨code, n, hspec⟩ := State.reportSearch_spec hr hx rs
    exact ⟨_, code, n, exec_searchReport ha hq hrun hcap, hspec⟩
  · have hne : a.gna.searches.filter c.aborts ≠ [] := fun h => HostCmd.abortCode_eq_zero h0 (congrArg List.length h)
    exact ⟨_, exec_searchAbort ha h0, State.abortSearches_complete_spec hr hacc hne _⟩

end Sys2Proof.Machine

namespace Sys2Proof.Machine

/-! ### A search listed under an engine that GNA has not

The canonical form says nothing of the engines that searches name. A state that lists a running search under engine 12 is
canonical, though no SEARCH brings it about: one that names an engine above 3 is refused (R179). `ENG_STAT[12]` would lie where
`PORT_STAT[0]` lies. So where port 0 is lost, the search that captures from it is aborted (R182), its count is written to
`PORT_STAT[0]`, and PRESENT, just cleared (R170), is set again. -/

theorem GNA.engStat_twelve : GNA.ENG_STAT 12 = GNA.PORT_STAT 0 := rfl

/-- Port 0 enabled and present, and captured from by a search that engine 12 is said to run. -/
def strayCapture : State :=
  { (State.reset.wr (GNA.PORT_CFG_EN 0) 1).wr (GNA.PORT_STAT_PRESENT 0) 1 with
    gna := { State.reset.gna with searches := [⟨⟨0, 0, 0, 0, 0, 0, [], 0⟩, 12, true, 0, 65536, 0, false⟩] } }

theorem strayCapture_canon : strayCapture.Canon where
  regs := (State.reset.wr (GNA.PORT_CFG_EN 0) 1).wr_regsWf (GNA.PORT_STAT_PRESENT 0) 1
    (State.reset.wr_regsWf (GNA.PORT_CFG_EN 0) 1 (by rfl))
  shadow := List.Pairwise.nil
  latch := rfl
  held := rfl
  mem := rfl
  ts := rfl
  cmps := rfl
  sqs := rfl
  raw := rfl

/-- The count of the aborted search sets PRESENT again. -/
theorem strayCapture_stays_present : (strayCapture.portDown 0).on (GNA.PORT_STAT_PRESENT 0) = true := by decide

/-- Refutes O38: the clock of a present port stops, and a search listed under engine 12 leaves the port present. -/
theorem not_samplePortsComeAndGo : ¬ Obligations.SamplePortsComeAndGo := by
  intro h
  obtain ⟨-, -, hlost, -⟩ := h 0 0 0 0 0 0 0 strayCapture strayCapture strayCapture_canon (by decide) (by decide)
    (by decide) (by decide)
  obtain ⟨u, hu, habsent, -⟩ := hlost (by decide) (by decide)
  obtain rfl : strayCapture.portDown 0 = u := by
    injection hu
  exact Bool.false_ne_true (habsent.symm.trans strayCapture_stays_present)

end Sys2Proof.Machine

namespace Sys2Proof.Machine

/-! ### The table of channels -/

section
variable {s u : State} {c : Nat} {x : Chan}

/-- Where one channel was replaced, it is what was put there, and the others stay. -/
theorem State.chan_of_put (hwf : Store.wf dChan s.gnc.chans = true) (h : u.gnc.chans = Store.put dChan s.gnc.chans c x) :
    u.chan c = x ∧ ∀ y, y ≠ c → u.chan y = s.chan y := by
  simp only [State.chan, h]
  exact ⟨Store.get_put_same hwf, fun y hy => Store.get_put_ne hwf hy⟩

theorem State.chan_setChan (hwf : Store.wf dChan s.gnc.chans = true) (c : Nat) (x : Chan) :
    (s.setChan c x).chan c = x ∧ ∀ y, y ≠ c → (s.setChan c x).chan y = s.chan y := State.chan_of_put hwf rfl

theorem State.chan_congr (h : u.gnc = s.gnc) (c : Nat) : u.chan c = s.chan c := by rw [State.chan, h, State.chan]

theorem State.setChan_eq (s : State) (c : Nat) (x : Chan) :
    s.setChan c x = { s with gnc := { s.gnc with chans := (s.setChan c x).gnc.chans } } := rfl

end

/-! ### Signals of the tracking channels (R189, R190) -/

section
variable {ks : List Nat} {s : State} {f : Fld}

/-- A saturating field counts. -/
theorem State.satF_signals (s : State) (h : f.addr ∈ ks) : Signals ks s (s.satF f) := by
  unfold State.satF
  split
  · exact Signals.refl ks s
  · exact Signals.wr s f _ (.inl h)

/-- A sticky bit of GNC sets. -/
theorem State.sticky_gnc_signals (s : State) (k : Nat) (hw : f.w = 1) (hl : f.lo < 32) (ha : f.addr = GNC.STICKY) :
    Signals [k, GNC.STICKY] s (s.sticky f) :=
  s.sticky_signals f hw hl (.inl (ha ▸ List.mem_cons_of_mem k List.mem_cons_self))

/-- The counts and the sticky bit that the dump of `n` ms adds for sequencer `g`. -/
def State.noteDump (s : State) (g n : Nat) : State :=
  let v := (if s.rd (GNC.GSEQ_LAG_MAX_INT g) < n then s.wr (GNC.GSEQ_LAG_MAX_INT g) n else s).count 5 1 g
  if 2 ≤ n then ((v.bumpF (GNC.GSEQ_LAG_EXT g)).sticky GNC.STICKY_EXTENDED).count 5 2 g else v

theorem State.noteDump_signals (s : State) (g n : Nat) : Signals [GNC.GSEQ_LAG g, GNC.STICKY] s (s.noteDump g n) := by
  have hlag : GNC.GSEQ_LAG g ∈ [GNC.GSEQ_LAG g, GNC.STICKY] := List.mem_cons_self
  have hmax : Signals [GNC.GSEQ_LAG g, GNC.STICKY] s
      (if s.rd (GNC.GSEQ_LAG_MAX_INT g) < n then s.wr (GNC.GSEQ_LAG_MAX_INT g) n else s) := by
    split
    · exact Signals.wr s _ n (.inl hlag)
    · exact Signals.refl _ s
  unfold State.noteDump
  dsimp only
  split
  · exact (((hmax.trans (State.count_signals _ 5 1 g 1)).trans (Signals.wr _ (GNC.GSEQ_LAG_EXT g) _ (.inl hlag))).trans
      (State.sticky_gnc_signals _ _ rfl (by decide) rfl)).trans
      (State.count_signals _ 5 2 g 1)
  · exact hmax.trans (State.count_signals _ 5 1 g 1)

/-- A missed update counted for sequencer `g`. -/
def State.noteMiss (s : State) (g : Nat) : State := (s.satF (GNC.GSEQ_STAT_LATE g)).sticky GNC.STICKY_STEER_LATE

theorem State.noteMiss_signals (s : State) (g : Nat) : Signals [GNC.GSEQ_STAT g, GNC.STICKY] s (s.noteMiss g) :=
  (s.satF_signals (f := GNC.GSEQ_STAT_LATE g) List.mem_cons_self).trans
    (State.sticky_gnc_signals (f := GNC.STICKY_STEER_LATE) _ _ rfl (by decide) rfl)

/-- A clear of the accumulators counted for sequencer `g`. -/
def State.noteClear (s : State) (g : Nat) : State := (s.satF (GNC.GSEQ_LAG_CLEARED g)).sticky GNC.STICKY_EXTENDED

theorem State.noteClear_signals (s : State) (g : Nat) : Signals [GNC.GSEQ_LAG g, GNC.STICKY] s (s.noteClear g) :=
  (s.satF_signals (f := GNC.GSEQ_LAG_CLEARED g) List.mem_cons_self).trans
    (State.sticky_gnc_signals (f := GNC.STICKY_EXTENDED) _ _ rfl (by decide) rfl)

theorem State.noteClear_on (hr : s.RegsWf) (g : Nat) : (s.noteClear g).on GNC.STICKY_EXTENDED = true :=
  State.sticky_on _ _ ((s.satF_signals (ks := [GNC.GSEQ_LAG g]) List.mem_cons_self).regsWf hr) rfl (by decide) (by decide)

end

/-! ### A millisecond boundary (R188 to R190) -/

section
variable {s a : State} {c g t k : Nat} {x : Chan} {d : DumpIn}

/-- The channel with the millisecond up to sample `k` integrated. -/
def Chan.integrated (x : Chan) (k : Nat) : Chan := { x.runTo k with intMs := min 255 (x.intMs + 1) }

/-- The channel whose integration starts anew, its dump sent. -/
def Chan.restarted (x : Chan) : Chan := { x with intMs := 0, first := false, cleared := false }

theorem Chan.integrated_sample (x : Chan) (k : Nat) : (x.integrated k).sample = max x.sample k :=
  show x.sample + (k - x.sample) = max x.sample k by omega

/-- Steering leaves the integration and the sample count. -/
theorem Chan.steered_keeps (x : Chan) (now : Nat) :
    (x.steered now).intMs = x.intMs ∧ (x.steered now).first = x.first ∧ (x.steered now).sample = x.sample := by
  unfold Chan.steered
  split
  · exact ⟨rfl, rfl, rfl⟩
  · dsimp only
    split <;> exact ⟨rfl, rfl, rfl⟩

/-- Whether channel `y` misses an update at a boundary: nothing was written since the last, and it tracks on its own antenna. -/
def State.misses (s : State) (y : Chan) : Bool := y.steer.isNone && (y.ant == s.refAnt y)

/-- Channel `y` after a boundary: what was written takes effect, and a missed update counts. -/
def State.pastBoundary (s : State) (y : Chan) : Chan :=
  { y.steered (s.tsNow 0) with missed := if s.misses y then y.missed + 1 else 0, lastMs := s.tsNow 0 / (qNs * 1000000) }

theorem State.pastBoundary_keeps (s : State) (y : Chan) :
    (s.pastBoundary y).intMs = y.intMs ∧ (s.pastBoundary y).first = y.first ∧ (s.pastBoundary y).sample = y.sample :=
  y.steered_keeps (s.tsNow 0)

/-- A dump put into the queue of sequencer `g`, told to it and counted. -/
def State.sendDump (s : State) (g : Nat) (b : List Byte) (n : Nat) : State :=
  (((s.qPut (128 + g)).setGnc (fun k => { k with dumps := Store.put dDumps k.dumps g (Store.get dDumps s.gnc.dumps g ++ [b]) })).seqEvent
    (32 + g) 0).noteDump g n

theorem State.sendDump_gnc (s : State) (g : Nat) (b : List Byte) (n : Nat) : (s.sendDump g b n).gnc =
    { s.gnc with dumps := Store.put dDumps s.gnc.dumps g (Store.get dDumps s.gnc.dumps g ++ [b]) } := by
  rw [State.sendDump, (State.noteDump_signals _ g n).gnc, (State.seqEvent_signals (ks := []) _ (32 + g) 0).gnc, State.setGnc,
    (s.qPut_signals (ks := []) (128 + g) 1).gnc]

/-- The end of a boundary that began in `s`: channel `c` goes on as `y`. -/
def State.endBoundary (u s : State) (c : Nat) (y : Chan) : State :=
  if s.misses y then (u.setChan c (s.pastBoundary y)).noteMiss (c / 48) else u.setChan c (s.pastBoundary y)

theorem State.endBoundary_gnc (u s : State) (c : Nat) (y : Chan) : (u.endBoundary s c y).gnc =
    { u.gnc with chans := Store.put dChan u.gnc.chans c (s.pastBoundary y) } := by
  unfold State.endBoundary
  split
  · exact (State.noteMiss_signals _ _).gnc
  · rfl

/-- A boundary with room in the queue sends the dump. -/
theorem State.boundary_sent (hst : (s.chan c).st = .track) (hroom : s.qRoom (128 + c / 48) 1 = true) : s.boundary c d =
    (s.sendDump (c / 48) (s.dumpBytes c ((s.chan c).integrated d.sample) d) ((s.chan c).integrated d.sample).intMs).endBoundary s c
      ((s.chan c).integrated d.sample).restarted := by
  unfold State.boundary
  dsimp only
  rw [if_neg (not_not_intro hst), hroom]
  rfl

/-- A boundary without room integrates on. -/
theorem State.boundary_unsent (hst : (s.chan c).st = .track) (hroom : s.qRoom (128 + c / 48) 1 = false) : s.boundary c d =
    s.endBoundary s c ((s.chan c).integrated d.sample) := by
  unfold State.boundary
  dsimp only
  rw [if_neg (not_not_intro hst), hroom]
  rfl

theorem State.boundary_sent_spec (hwf : Store.wf dChan s.gnc.chans = true) (hst : (s.chan c).st = .track)
    (hroom : s.qRoom (128 + c / 48) 1 = true) : ((s.boundary c d).chan c).intMs = 0 ∧ ((s.boundary c d).chan c).first = false
      ∧ ((s.boundary c d).chan c).sample = max (s.chan c).sample d.sample
      ∧ (s.boundary c d).gnc.dumps = Store.put dDumps s.gnc.dumps (c / 48)
          (Store.get dDumps s.gnc.dumps (c / 48) ++ [s.dumpBytes c ((s.chan c).integrated d.sample) d])
      ∧ ∀ y, y ≠ c → (s.boundary c d).chan y = s.chan y := by
  have hgnc := congrArg State.gnc (State.boundary_sent (d := d) hst hroom)
  rw [State.endBoundary_gnc, State.sendDump_gnc] at hgnc
  obtain ⟨hc, hne⟩ := State.chan_of_put hwf (congrArg GncS.chans hgnc)
  obtain ⟨hint, hfirst, hsample⟩ := s.pastBoundary_keeps ((s.chan c).integrated d.sample).restarted
  rw [hc]
  exact ⟨hint, hfirst, hsample.trans (Chan.integrated_sample _ _), congrArg GncS.dumps hgnc, hne⟩

theorem State.boundary_unsent_spec (hwf : Store.wf dChan s.gnc.chans = true) (hst : (s.chan c).st = .track)
    (hroom : s.qRoom (128 + c / 48) 1 = false) : ((s.boundary c d).chan c).intMs = min 255 ((s.chan c).intMs + 1)
      ∧ (s.boundary c d).gnc.dumps = s.gnc.dumps ∧ ∀ y, y ≠ c → (s.boundary c d).chan y = s.chan y := by
  have hgnc := congrArg State.gnc (State.boundary_unsent (d := d) hst hroom)
  rw [State.endBoundary_gnc] at hgnc
  obtain ⟨hc, hne⟩ := State.chan_of_put hwf (congrArg GncS.chans hgnc)
  rw [hc]
  exact ⟨(s.pastBoundary_keeps _).1, (congrArg GncS.dumps hgnc :), hne⟩

theorem exec_correlatorDump (ha : a = s.advance t) (hc : c < 384) (hd : d.ch = c) :
    exec (.correlatorDump (c / 8) [d] t) s = .next (a.boundary c d) := by
  subst ha hd
  have hone : [d].filter (fun e => decide (e.ch < 384) && e.ch / 8 == d.ch / 8) = [d] := by simp [hc]
  exact congrArg (fun l => Host.Outcome.next (l.foldl (fun u e => u.boundary e.ch e) (s.advance t))) hone

/-! ### The accumulators cleared, and a dump taken (R189, R377) -/

/-- Channel `c` with its accumulators cleared, the clear counted. -/
def State.clearDump (s : State) (c : Nat) : State :=
  (s.setChan c { s.chan c with intMs := 0, cleared := true }).noteClear (c / 48)

theorem State.clearDump_spec (hr : s.RegsWf) (hwf : Store.wf dChan s.gnc.chans = true) (c : Nat) :
    (s.clearDump c).chan c = { s.chan c with intMs := 0, cleared := true } ∧ (s.clearDump c).on GNC.STICKY_EXTENDED = true
      ∧ (∀ y, y ≠ c → (s.clearDump c).chan y = s.chan y)
      ∧ Signals [GNC.GSEQ_LAG (c / 48), GNC.STICKY] { s with gnc := (s.clearDump c).gnc } (s.clearDump c) := by
  have hsig : Signals _ (s.setChan c { s.chan c with intMs := 0, cleared := true }) (s.clearDump c) := State.noteClear_signals _ _
  have hw : (s.setChan c { s.chan c with intMs := 0, cleared := true }).RegsWf := hr
  obtain ⟨hx, hne⟩ := State.chan_of_put hwf (congrArg GncS.chans hsig.gnc)
  refine ⟨hx, State.noteClear_on hw _, hne, ?_⟩
  rw [hsig.gnc]
  exact hsig

theorem exec_dumpClear (ha : a = s.advance t) (hc : c < 384) (hst : (a.chan c).st = .track) (h255 : (a.chan c).intMs = 255) :
    exec (.dumpClear c t) s = .next (a.clearDump c) := by
  subst ha
  exact congrArg Host.Outcome.next ((if_pos hc).trans (if_pos ⟨hst, h255⟩))

theorem exec_dumpClear_early (ha : a = s.advance t) (hc : c < 384) (h255 : (a.chan c).intMs ≠ 255) :
    exec (.dumpClear c t) s = .next a := by
  subst ha
  exact congrArg Host.Outcome.next ((if_pos hc).trans (if_neg fun h => h255 h.2))

/-- The queue of sequencer `g` with `r` left in it, the credit of the dump taken returned. -/
def State.leaveDumps (s : State) (g : Nat) (r : List (List Byte)) : State :=
  (s.setGnc (fun k => { k with dumps := Store.put dDumps k.dumps g r })).qTake (128 + g)

theorem exec_dumpPop {b : List Byte} {r : List (List Byte)} (ha : a = s.advance t) (hg : g < 8)
    (hq : Store.get dDumps a.gnc.dumps g = b :: r) : exec (.dumpPop g t) s = .next (a.leaveDumps g r) := by
  subst ha
  have hpop : (s.advance t).dumpPop g = (s.advance t).leaveDumps g r := by
    rw [State.dumpPop, hq]
    rfl
  exact congrArg Host.Outcome.next ((if_pos hg).trans hpop)

/-! ### Steering and its absence (R190), and the start of a loaded channel (R191) -/

theorem exec_channelSteeringWrite {cr rr w1 : Option Nat} (ha : a = s.advance t) (hc : c < 384) (hg : c / 48 = g)
    (hst : (a.chan c).st ≠ .idle) : exec (.channelSteeringWrite g c cr rr w1 t) s =
      .next (a.steerWrite c ⟨cr.map (· % 2 ^ 48), rr.map (· % 2 ^ 48), w1.map (· % 2 ^ 32)⟩) := by
  subst ha
  exact congrArg Host.Outcome.next (if_pos ⟨hc, hg, hst⟩)

theorem exec_channelSteeringWrite_other {cr rr w1 : Option Nat} (ha : a = s.advance t) (h : c / 48 ≠ g ∨ (a.chan c).st = .idle) :
    exec (.channelSteeringWrite g c cr rr w1 t) s = .next a := by
  subst ha
  exact congrArg Host.Outcome.next (if_neg fun ⟨_, hg, hst⟩ => h.elim (· hg) hst)

theorem exec_steerTimeout (ha : a = s.advance t) (hc : c < 384) (hst : (a.chan c).st = .track)
    (hto : a.rd GNC.CTRL_STEER_TO ≤ (a.chan c).missed) :
    exec (.steerTimeout c t) s = .next (a.setChan c { a.chan c with locks := 0, stale := true }) := by
  subst ha
  exact congrArg Host.Outcome.next (if_pos ⟨hc, hst, hto⟩)

/-- Channel `x` of sequencer `g` as it starts at sample `k` of its port: it correlates if the burst is for its antenna. -/
def State.startedChan (s : State) (g k : Nat) (x : Chan) : Chan :=
  { x with st := if s.burstNow g == 5 || (s.burstNow g != 0 && s.burstNow g - 1 == s.refAnt x) then .track else .gap,
           sample := k, first := true, lastMs := s.msNow, burstT0 := s.tsNow 0 }

theorem State.startedChan_st (s : State) (g k : Nat) (x : Chan) :
    (s.startedChan g k x).st = .track ∨ (s.startedChan g k x).st = .gap := by
  unfold State.startedChan
  dsimp only
  split
  · exact .inl rfl
  · exact .inr rfl

theorem exec_channelStart (ha : a = s.advance t) (hc : c < 384) (hst : (a.chan c).st = .loaded) (hdue : (a.chan c).startMs ≤ a.msNow) :
    exec (.channelStart c k t) s = .next (a.setChan c (a.startedChan (c / 48) k (a.chan c))) := by
  subst ha
  exact congrArg Host.Outcome.next (if_pos ⟨hc, hst, hdue⟩)

theorem exec_channelStart_early (ha : a = s.advance t) (h : (a.chan c).st ≠ .loaded ∨ a.msNow < (a.chan c).startMs) :
    exec (.channelStart c k t) s = .next a := by
  subst ha
  exact congrArg Host.Outcome.next (if_neg fun ⟨_, hst, hdue⟩ => h.elim (· hst) (Nat.not_lt.mpr hdue))

end

/-! ### The operations of `GNC.CH_SEL` (R192) -/

section
variable {s u a : State} {c m op code t : Nat}

theorem RegsOnly.chForbidden (h : RegsOnly [GNC.CH_SEL] s u) (hr : s.RegsWf) : u.chForbidden = s.chForbidden := by
  have hmode : u.mode = s.mode := by rw [State.mode, State.rd, State.nreg, h.reg hr _ (by decide), State.mode, State.rd, State.nreg]
  rw [State.chForbidden, hmode, State.chForbidden]

theorem RegsOnly.gnc {ks : List Nat} (h : RegsOnly ks s u) : u.gnc = s.gnc := by rw [h.eq]

/-- CHANNEL and OP of CH_SEL written. -/
def State.chNamed (s : State) (c op : Nat) : State := (s.wr GNC.CH_SEL_CHANNEL c).wr GNC.CH_SEL_OP op

theorem State.chNamed_regsOnly (s : State) (c op : Nat) : RegsOnly [GNC.CH_SEL] s (s.chNamed c op) :=
  ((RegsOnly.refl _ s).wr GNC.CH_SEL_CHANNEL c (by decide)).wr GNC.CH_SEL_OP op (by decide)

/-- STATUS of CH_SEL written, and BUSY cleared. -/
def State.chAnswer (s : State) (code : Nat) : State := (s.wr GNC.CH_SEL_STATUS code).wr GNC.CH_SEL_BUSY 0

theorem State.chAnswer_regsOnly (s : State) (code : Nat) : RegsOnly [GNC.CH_SEL] s (s.chAnswer code) :=
  ((RegsOnly.refl _ s).wr GNC.CH_SEL_STATUS code (by decide)).wr GNC.CH_SEL_BUSY 0 (by decide)

theorem State.chAnswer_status (hr : s.RegsWf) (hcode : code < 2 ^ 8) : (s.chAnswer code).rd GNC.CH_SEL_STATUS = code := by
  rw [State.chAnswer, State.rd_wr_disj _ GNC.CH_SEL_BUSY GNC.CH_SEL_STATUS _ (s.wr_regsWf _ _ hr) (by decide) rfl (by decide),
    s.rd_wr GNC.CH_SEL_STATUS _ hr (by decide)]
  exact Nat.mod_eq_of_lt hcode

/-- The words `l` written to CH_DATA from word `n` up. -/
def State.putChData (s : State) (n : Nat) (l : List Nat) : State := (l.zipIdx n).foldl (fun t v => t.setN (GNC.CH_DATA v.2) v.1) s

theorem State.putChData_cons (s : State) (n w : Nat) (l : List Nat) :
    s.putChData n (w :: l) = (s.setN (GNC.CH_DATA n) w).putChData (n + 1) l := rfl

theorem State.putChData_gnc (s : State) (n : Nat) (l : List Nat) : (s.putChData n l).gnc = s.gnc := by
  induction l generalizing s n with
  | nil => rfl
  | cons w l ih => rw [State.putChData_cons, ih, State.setN_gnc]

theorem chData_ne {i j : Nat} (h : i ≠ j) : GNC.CH_DATA i ≠ GNC.CH_DATA j := by
  unfold GNC.CH_DATA
  omega

theorem chData_ne_chSel {i : Nat} : GNC.CH_DATA i ≠ GNC.CH_SEL := by
  unfold GNC.CH_DATA GNC.CH_SEL
  omega

/-- The words put into CH_DATA read back; the words before them stay. -/
theorem State.putChData_nreg (hr : s.RegsWf) (n : Nat) (l : List Nat) : (s.putChData n l).RegsWf
    ∧ (∀ i, i < n → (s.putChData n l).nreg (GNC.CH_DATA i) = s.nreg (GNC.CH_DATA i))
    ∧ ∀ i, i < l.length → (s.putChData n l).nreg (GNC.CH_DATA (n + i)) = l.getD i 0 % 2 ^ 32 := by
  induction l generalizing s n with
  | nil => exact ⟨hr, fun _ _ => rfl, fun i hi => absurd hi (Nat.not_lt_zero i)⟩
  | cons w l ih =>
    obtain ⟨hw, hbefore, hput⟩ := ih (s.setN_regsWf (GNC.CH_DATA n) w hr) (n + 1)
    rw [State.putChData_cons]
    refine ⟨hw, fun i hi => (hbefore i (by omega)).trans (s.nreg_setN_ne _ _ _ hr (chData_ne (by omega))), fun i hi => ?_⟩
    cases i with
    | zero => exact (hbefore n (by omega)).trans (s.nreg_setN _ _ hr)
    | succ i =>
      rw [show n + (i + 1) = n + 1 + i by omega]
      exact hput i (Nat.lt_of_succ_lt_succ hi)

theorem State.chWrite_granted (hg : s.access m GNC.CH_SEL .write = .granted) (hc : c < 384) : s.chWrite m c op = s.chOp c op := by
  rw [State.chWrite, hg, Nat.mod_eq_of_lt (by omega : c < 512)]

/-- A row that writes CH_SEL with GO, the write granted. -/
theorem exec_chOp {i : Instr} (ha : a = s.advance t) (hi : exec i s = .next ((s.advance t).chWrite m c op))
    (hg : a.access m GNC.CH_SEL .write = .granted) (hc : c < 384) : exec i s = .next (a.chOp c op) := by
  subst ha
  exact hi.trans (congrArg Host.Outcome.next (State.chWrite_granted hg hc))

/-- No code stands against an operation on a channel that exists, in a mode that permits it. -/
theorem chCommon_eq_zero (hc : c < 384) (hf : s.chForbidden = false) :
    lowestCode [codeIf (decide (384 ≤ c)) stREFUSED, codeIf s.chForbidden stMODE_FORBIDS] = 0 := by
  rw [hf, decide_eq_false (Nat.not_le.mpr hc)]
  rfl

theorem State.chOp_read (hr : s.RegsWf) (hc : c < 384) (hf : s.chForbidden = false) :
    s.chOp c 1 = ((s.chNamed c 1).putChData 0 (s.chanWords c)).chAnswer stOK :=
  if_neg (not_not_intro (chCommon_eq_zero hc (((s.chNamed_regsOnly c 1).chForbidden hr).trans hf)))

theorem State.chOp_load (h : (s.chNamed c 2).loadCode c = 0) : s.chOp c 2 = ((s.chNamed c 2).loadChan c).chAnswer stOK :=
  if_neg (not_not_intro h)

theorem State.chOp_release (hr : s.RegsWf) (hc : c < 384) (hf : s.chForbidden = false) :
    s.chOp c 3 = ((s.chNamed c 3).setChan c (dChan c)).chAnswer stOK :=
  if_neg (not_not_intro (chCommon_eq_zero hc (((s.chNamed_regsOnly c 3).chForbidden hr).trans hf)))

theorem State.chOp_none (s : State) (c : Nat) : s.chOp c 0 = ((s.chNamed c 0).chAnswer stREFUSED).refuseCfg .gnc := rfl

theorem State.chOp_read_spec (hr : s.RegsWf) (hc : c < 384) (hf : s.chForbidden = false) :
    (s.chOp c 1).rd GNC.CH_SEL_STATUS = stOK
    ∧ (∀ i, i < 12 → (s.chOp c 1).nreg (GNC.CH_DATA i) = (s.chanWords c).getD i 0 % 2 ^ 32) ∧ (s.chOp c 1).gnc = s.gnc := by
  rw [State.chOp_read hr hc hf]
  obtain ⟨hw, -, hput⟩ := State.putChData_nreg ((s.chNamed_regsOnly c 1).regsWf hr) 0 (s.chanWords c)
  have hans := State.chAnswer_regsOnly ((s.chNamed c 1).putChData 0 (s.chanWords c)) stOK
  refine ⟨State.chAnswer_status hw (by decide), fun i hi => ?_,
    hans.gnc.trans ((State.putChData_gnc _ _ _).trans (s.chNamed_regsOnly c 1).gnc)⟩
  have hword := hput i hi
  rw [Nat.zero_add] at hword
  rw [← hword, State.nreg, hans.reg hw _ (by simpa using chData_ne_chSel), State.nreg]

/-- A channel replaced between CH_SEL written and STATUS answered: what that leaves. -/
theorem State.chAnswered_spec (hr : s.RegsWf) (hwf : Store.wf dChan s.gnc.chans = true) (op : Nat) (x : Chan)
    (hu : u = ((s.chNamed c op).setChan c x).chAnswer stOK) : u.rd GNC.CH_SEL_STATUS = stOK ∧ u.chan c = x
      ∧ (∀ y, y ≠ c → u.chan y = s.chan y) ∧ ∀ j, j ≠ GNC.CH_SEL → u.reg j = s.reg j := by
  subst hu
  have hname := s.chNamed_regsOnly c op
  have hans := ((s.chNamed c op).setChan c x).chAnswer_regsOnly stOK
  have hput : (((s.chNamed c op).setChan c x).chAnswer stOK).gnc.chans = Store.put dChan s.gnc.chans c x := by
    rw [hans.gnc, State.setChan, hname.gnc]
  obtain ⟨hc, hne⟩ := State.chan_of_put hwf hput
  exact ⟨State.chAnswer_status (hname.regsWf hr) (by decide), hc, hne, fun j hj =>
    (hans.reg (hname.regsWf hr) j (by simpa using hj)).trans (hname.reg hr j (by simpa using hj))⟩

theorem State.chOp_load_spec (hr : s.RegsWf) (hwf : Store.wf dChan s.gnc.chans = true) (h : (s.chNamed c 2).loadCode c = 0) :
    (s.chOp c 2).rd GNC.CH_SEL_STATUS = stOK ∧ ((s.chOp c 2).chan c).st = .loaded
    ∧ ((s.chOp c 2).chan c).sig = bitsOf (s.nreg (GNC.CH_DATA 0)) 0 4
    ∧ ((s.chOp c 2).chan c).port = bitsOf (s.nreg (GNC.CH_DATA 0)) 10 3
    ∧ (∀ y, y ≠ c → (s.chOp c 2).chan y = s.chan y) ∧ ∀ j, j ≠ GNC.CH_SEL → (s.chOp c 2).reg j = s.reg j := by
  obtain ⟨hstatus, hx, hne, hreg⟩ := State.chAnswered_spec hr hwf 2 _ (State.chOp_load h)
  have hdata : (s.chNamed c 2).nreg (GNC.CH_DATA 0) = s.nreg (GNC.CH_DATA 0) :=
    congrArg BitVec.toNat ((s.chNamed_regsOnly c 2).reg hr _ (by decide))
  rw [hx, ← hdata]
  exact ⟨hstatus, rfl, rfl, rfl, hne, hreg⟩

/-- OP 0 is refused, and nothing else done. -/
theorem State.chOp_none_spec (hr : s.RegsWf) (c : Nat) : (s.chOp c 0).rd GNC.CH_SEL_STATUS = stREFUSED
    ∧ (s.chOp c 0).on GNC.STICKY_CFG_REFUSED = true ∧ (s.chOp c 0).gnc = s.gnc ∧ Signals [GNC.CH_SEL, GNC.STICKY] s (s.chOp c 0) := by
  rw [State.chOp_none]
  have hname := s.chNamed_regsOnly c 0
  have hans := (s.chNamed c 0).chAnswer_regsOnly stREFUSED
  have hw := hans.regsWf (hname.regsWf hr)
  have hrefuse : Signals [GNC.STICKY] ((s.chNamed c 0).chAnswer stREFUSED) _ := State.refuseCfg_signals _ .gnc
  have hall := ((hname.signals.trans hans.signals).mono (by decide : ∀ k ∈ [GNC.CH_SEL], k ∈ [GNC.CH_SEL, GNC.STICKY])).trans
    (hrefuse.mono (by decide))
  exact ⟨(hrefuse.rd_eq hw (by decide) (by decide)).trans (State.chAnswer_status (hname.regsWf hr) (by decide)),
    State.sticky_on _ _ hw rfl (by decide) (by decide), hall.gnc, hall⟩

end

/-- Settles O39: each command by its row; what a boundary and an operation of CH_SEL leave is told once for each. -/
theorem channelsTrackAndObeyTheHost : Obligations.ChannelsTrackAndObeyTheHost := by
  intro m g ch k t d cr rr w1 s a hc hwf hch hg8 ha
  have hr : a.RegsWf := ha ▸ State.advance_regsWf hc.regs t
  have hreg : ∀ j, s.reg j = a.reg j := fun j => ha ▸ (s.advance_reg t j).symm
  have hnreg : ∀ j, s.nreg j = a.nreg j := fun j => ha ▸ (s.advance_nreg t j).symm
  have hrd : ∀ f, s.rd f = a.rd f := fun f => ha ▸ (s.advance_rd t f).symm
  have hgnc : s.gnc = a.gnc := ha ▸ (s.advance_gnc t).symm
  have hchan : ∀ c, s.chan c = a.chan c := State.chan_congr hgnc
  have hroom : ∀ q n, s.qRoom q n = a.qRoom q n := fun q n => by
    rw [ha, State.qRoom, State.qOcc, State.lget, State.qRoom, State.qOcc, State.lget, s.advance_fab, s.advance_variant]
  have hforbid : s.chForbidden = a.chForbidden := by rw [State.chForbidden, State.mode, hrd, State.chForbidden, State.mode]
  simp only [hreg, hnreg, hrd, hgnc, hchan, hroom, hforbid] at hwf ⊢
  refine ⟨fun hd hst hq => ⟨_, exec_correlatorDump ha hch hd, State.boundary_sent_spec hwf hst hq⟩,
    fun hd hst hq => ⟨_, exec_correlatorDump ha hch hd, State.boundary_unsent_spec hwf hst hq⟩,
    fun hst h255 => ⟨_, exec_dumpClear ha hch hst h255, State.clearDump_spec hr hwf ch⟩, exec_dumpClear_early ha hch,
    fun b r hq => ⟨_, exec_dumpPop ha hg8 hq, rfl, rfl⟩,
    fun hg hst => ?_, exec_channelSteeringWrite_other ha, fun hst hto => ?_, fun hacc hf => ⟨?_, fun h0 => ?_, ?_, ?_⟩,
    fun hst hdue => ?_, exec_channelStart_early ha⟩
  · obtain ⟨hx, hne⟩ := State.chan_setChan hwf ch _
    exact ⟨_, exec_channelSteeringWrite ha hch hg hst, hx, hne, State.setChan_eq _ _ _⟩
  · obtain ⟨hx, hne⟩ := State.chan_setChan hwf ch { a.chan ch with locks := 0, stale := true }
    exact ⟨_, exec_steerTimeout ha hch hst hto, hx, hne, State.setChan_eq _ _ _⟩
  · exact ⟨_, exec_chOp ha rfl hacc hch, State.chOp_read_spec hr hch hf⟩
  · exact ⟨_, exec_chOp ha rfl hacc hch, State.chOp_load_spec hr hwf h0⟩
  · exact ⟨_, exec_chOp ha rfl hacc hch, State.chAnswered_spec hr hwf 3 _ (State.chOp_release hr hch hf)⟩
  · exact ⟨_, exec_chOp ha rfl hacc hch, State.chOp_none_spec hr ch⟩
  · obtain ⟨hx, hne⟩ := State.chan_setChan hwf ch (a.startedChan (ch / 48) k (a.chan ch))
    refine ⟨_, exec_channelStart ha hch hst hdue, ?_, ?_, ?_, hne, State.setChan_eq _ _ _⟩ <;> rw [hx]
    · exact a.startedChan_st (ch / 48) k (a.chan ch)
    · rfl
    · rfl

end Sys2Proof.Machine

namespace Sys2Proof.Machine

/-! ### Signals beside a change of the part of the ports -/

/-- `t` is `s` but for the part of the ports beyond their registers, the registers `ks` and what signalling changes. -/
abbrev PrtSignals (ks : List Nat) (s t : State) : Prop := Signals ks { s with prt := t.prt } t

section
variable {ks : List Nat} {s t u : State}

theorem Signals.setPrt (h : Signals ks s t) (x : PrtS) : Signals ks { s with prt := x } { t with prt := x } :=
  { h with prt := rfl, reg := h.reg, on := h.on }

theorem PrtSignals.of_signals (h : Signals ks s t) : PrtSignals ks s t := by
  rw [PrtSignals, h.prt]
  exact h

theorem PrtSignals.refl (ks : List Nat) (s : State) : PrtSignals ks s s := Signals.refl ks s

theorem PrtSignals.setPrt (s : State) (x : PrtS) : PrtSignals ks s { s with prt := x } := Signals.refl ks _

theorem PrtSignals.trans (h : PrtSignals ks s t) (g : PrtSignals ks t u) : PrtSignals ks s u := Signals.trans (Signals.setPrt h u.prt) g

theorem PrtSignals.mono {ks' : List Nat} (h : PrtSignals ks s t) (hk : ∀ k ∈ ks, k ∈ ks') : PrtSignals ks' s t := Signals.mono h hk

theorem PrtSignals.ite {c : Prop} [Decidable c] (ht : PrtSignals ks s t) (hu : PrtSignals ks s u) :
    PrtSignals ks s (if c then t else u) := by
  split <;> assumption

theorem PrtSignals.regsWf (h : PrtSignals ks s t) (w : s.RegsWf) : t.RegsWf := Signals.regsWf h w

theorem PrtSignals.reg (h : PrtSignals ks s t) (w : s.RegsWf) {k : Nat} (hk : k ∉ ks) (ha : k ∉ alarmKeys) : t.reg k = s.reg k :=
  Signals.reg h w k hk ha

theorem PrtSignals.rd (h : PrtSignals ks s t) (w : s.RegsWf) {f : Fld} (hk : f.addr ∉ ks) (ha : f.addr ∉ alarmKeys) : t.rd f = s.rd f :=
  Signals.rd_eq h w hk ha

theorem PrtSignals.on (h : PrtSignals ks s t) (w : s.RegsWf) {f : Fld} (hk : f.addr ∉ ks) (ha : f.addr ∉ alarmKeys) : t.on f = s.on f :=
  Signals.on_eq h w hk ha

end

/-! ### The registers of a port -/

/-- No alarm writes a register of a port but its sticky bits. -/
theorem prt_not_mem_alarmKeys {p : Nat} (hp : p < 32) (off : Nat) (hoff : off < 0x10000) : 0x100000 + off + 0x10000 * p ∉ alarmKeys :=
  fun hk => (by decide : ∀ k ∈ alarmKeys, ¬ (0x100000 ≤ k ∧ k < 0x300000)) _ hk (by omega)

theorem PRT.stat_not_mem_alarmKeys {p : Nat} (hp : p < 32) : PRT.STAT p ∉ alarmKeys := prt_not_mem_alarmKeys hp 0x10 (by decide)

theorem PRT.sticky_not_mem_alarmNums {p : Nat} (hp : p < 32) : PRT.STICKY p ∉ alarmNums :=
  fun hk => prt_not_mem_alarmKeys hp 8 (by decide) (List.mem_append_left _ hk)

theorem PRT.stat_ne_sticky {p q : Nat} : PRT.STAT p ≠ PRT.STICKY q := by unfold PRT.STAT PRT.STICKY; omega

theorem PRT.sticky_ne_statsSel {p q : Nat} : PRT.STICKY p ≠ PRT.STATS_SEL q := by unfold PRT.STICKY PRT.STATS_SEL; omega

/-- The registers that counting at port `p` may write. -/
abbrev PRT.countKeys (p : Nat) : List Nat := [PRT.STICKY p, PRT.STATS_SEL p]

/-- A register of port `p` that counting at it does not write. -/
theorem PRT.not_mem_countKeys {p : Nat} {off : Nat} (h8 : off ≠ 8) (h40 : off ≠ 0x40) : 0x100000 + off + 0x10000 * p ∉ PRT.countKeys p := by
  simp only [PRT.STICKY, PRT.STATS_SEL, List.mem_cons, List.not_mem_nil, or_false]
  omega

theorem PRT.stat_not_mem_countKeys {p : Nat} : PRT.STAT p ∉ PRT.countKeys p := PRT.not_mem_countKeys (off := 0x10) (by decide) (by decide)

section
variable {s t : State}

/-- A field of a register keeps its value where a field apart from it is written. -/
theorem State.rd_wr_apart (h : s.RegsWf) (f g : Fld) (v : Nat) (ha : g.addr = f.addr := by rfl) (hw : (f.lo + f.w).ble 32 = true := by rfl)
    (hd : ((g.lo + g.w).ble f.lo || (f.lo + f.w).ble g.lo) = true := by rfl) : (s.wr f v).rd g = s.rd g :=
  s.rd_wr_disj f g v h (Nat.le_of_ble_eq_true hw) ha
    ((Bool.or_eq_true_iff.mp hd).imp Nat.le_of_ble_eq_true Nat.le_of_ble_eq_true)

theorem State.on_wr_apart (h : s.RegsWf) (f g : Fld) (v : Nat) (ha : g.addr = f.addr := by rfl) (hw : (f.lo + f.w).ble 32 = true := by rfl)
    (hd : ((g.lo + g.w).ble f.lo || (f.lo + f.w).ble g.lo) = true := by rfl) : (s.wr f v).on g = s.on g := by
  rw [State.on, s.rd_wr_apart h f g v ha hw hd, State.on]

/-! ### A port's sticky bits and counters (R12, R221, R225) -/

/-- A sticky bit of port `p` signals beside that register. -/
theorem State.sticky_prt_signals (s : State) {p : Nat} {f : Fld} (hw : f.w = 1) (hl : f.lo < 32) (ha : f.addr = PRT.STICKY p) :
    Signals [PRT.STICKY p] s (s.sticky f) := s.sticky_signals f hw hl (.inl (by simp [ha]))

theorem State.sticky_prt_on (hr : s.RegsWf) {p : Nat} (hp : p < 32) {f : Fld} (hw : f.w = 1) (hl : f.lo < 32) (ha : f.addr = PRT.STICKY p) :
    (s.sticky f).on f = true := s.sticky_on f hr hw hl (ha ▸ PRT.sticky_not_mem_alarmNums hp)

/-- The counters of the ports with `n` more in counter `i` of port `p`. -/
def PrtS.counted (x : PrtS) (p i n : Nat) : PrtS :=
  { x with stats := Store.put zNat x.stats (64 * p + i) ((Store.get zNat x.stats (64 * p + i) + n) % 2 ^ 48) }

/-- STATS_HALF of port `p` is set by counter `i`, whose number the first to set it leaves in STATS_SEL. -/
def State.tellHalf (s : State) (p i : Nat) : State :=
  (if s.on (PRT.STICKY_STATS_HALF p) then s
    else (s.wr (PRT.STATS_SEL_HALF_IDX p) i).wr (PRT.STATS_SEL_HALF_VALID p) 1).sticky (PRT.STICKY_STATS_HALF p)

theorem State.stat_cases (s : State) (p i n : Nat) : s.stat p i n = { s with prt := s.prt.counted p i n }
    ∨ s.stat p i n = State.tellHalf { s with prt := s.prt.counted p i n } p i := by
  unfold State.stat
  dsimp only
  split
  · exact .inr rfl
  · exact .inl rfl

theorem State.tellHalf_signals (s : State) (p i : Nat) : Signals (PRT.countKeys p) s (s.tellHalf p i) := by
  have hnote : Signals (PRT.countKeys p) s (if s.on (PRT.STICKY_STATS_HALF p) then s
      else (s.wr (PRT.STATS_SEL_HALF_IDX p) i).wr (PRT.STATS_SEL_HALF_VALID p) 1) := by
    have hsel : PRT.STATS_SEL p ∈ PRT.countKeys p := by simp
    split
    · exact Signals.refl _ s
    · exact (Signals.wr s (PRT.STATS_SEL_HALF_IDX p) i (.inl hsel)).trans (Signals.wr _ (PRT.STATS_SEL_HALF_VALID p) 1 (.inl hsel))
  exact hnote.trans ((State.sticky_prt_signals _ (f := PRT.STICKY_STATS_HALF p) rfl (show 7 < 32 by decide) rfl).mono (by simp))

/-- STATS_HALF leaves the other sticky bits of every port. -/
theorem State.tellHalf_on (hr : s.RegsWf) {p q : Nat} (hq : q < 32) (i : Nat) {f : Fld} (hw : f.w = 1) (hl : f.lo < 32)
    (ha : f.addr = PRT.STICKY q) (hon : s.on f = true) : (s.tellHalf p i).on f = true := by
  have hsel : f.addr ≠ PRT.STATS_SEL p := ha ▸ PRT.sticky_ne_statsSel
  have hn : f.addr ∉ alarmNums := ha ▸ PRT.sticky_not_mem_alarmNums hq
  unfold State.tellHalf
  split
  · exact (State.sticky_bitsStay (f := PRT.STICKY_STATS_HALF p) _ rfl (show 7 < 32 by decide) hr).2 f hw hl hn hon
  · have hr1 := s.wr_regsWf (PRT.STATS_SEL_HALF_IDX p) i hr
    have hr2 := State.wr_regsWf _ (PRT.STATS_SEL_HALF_VALID p) 1 hr1
    refine (State.sticky_bitsStay (f := PRT.STICKY_STATS_HALF p) _ rfl (show 7 < 32 by decide) hr2).2 f hw hl hn ?_
    rw [State.on_wr_ne hr1 1 hsel, State.on_wr_ne hr i hsel]
    exact hon

theorem State.stat_prt (s : State) (p i n : Nat) : (s.stat p i n).prt = s.prt.counted p i n := by
  rcases s.stat_cases p i n with h | h <;> rw [h]
  exact (State.tellHalf_signals _ p i).prt

theorem State.stat_signals (s : State) (p i n : Nat) : PrtSignals (PRT.countKeys p) s (s.stat p i n) := by
  rcases s.stat_cases p i n with h | h <;> rw [h]
  · exact PrtSignals.setPrt s _
  · exact (PrtSignals.setPrt s (s.prt.counted p i n)).trans (PrtSignals.of_signals (State.tellHalf_signals _ p i))

theorem State.stat_on (hr : s.RegsWf) {p q : Nat} (hq : q < 32) (i n : Nat) {f : Fld} (hw : f.w = 1) (hl : f.lo < 32)
    (ha : f.addr = PRT.STICKY q) (hon : s.on f = true) : (s.stat p i n).on f = true := by
  rcases s.stat_cases p i n with h | h <;> rw [h]
  · exact hon
  · exact State.tellHalf_on (s := { s with prt := s.prt.counted p i n }) hr hq i hw hl ha hon

theorem PrtS.counted_wf {x : PrtS} (h : Store.wf zNat x.stats = true) (p i n : Nat) : Store.wf zNat (x.counted p i n).stats = true :=
  Store.put_wf h

theorem PrtS.counted_same {x : PrtS} (h : Store.wf zNat x.stats = true) (p i n : Nat) :
    Store.get zNat (x.counted p i n).stats (64 * p + i) = (Store.get zNat x.stats (64 * p + i) + n) % 2 ^ 48 := Store.get_put_same h

theorem PrtS.counted_ne {x : PrtS} (h : Store.wf zNat x.stats = true) (p i n : Nat) {k : Nat} (hk : k ≠ 64 * p + i) :
    Store.get zNat (x.counted p i n).stats k = Store.get zNat x.stats k := Store.get_put_ne h hk

end

end Sys2Proof.Machine

namespace Sys2Proof.Machine

/-! ### What the ports show stands

Cancelling reservations and what follows a wake run through many blocks. Of the ports they may only set sticky bits and count
cancellations: `PortsStay` says so, and each operation has its lemma. -/

/-- No status of a port and no state of a port's power domain is kept in register `k`. -/
abbrev OffStates (k : Nat) : Prop :=
  (k < 0x100000 ∨ 0x300000 ≤ k ∨ k % 0x10000 ≠ 0x10) ∧ (k < 0x3E0030 ∨ 0x3E0040 ≤ k)

/-- Nor the sticky bits of a port. -/
abbrev OffPorts (k : Nat) : Prop := OffStates k ∧ (k < 0x100000 ∨ 0x300000 ≤ k ∨ k % 0x10000 ≠ 8)

theorem PRT.stat_not_offStates {p : Nat} (hp : p < 32) : ¬ OffStates (PRT.STAT p) := by
  unfold PRT.STAT OffStates
  omega

theorem PRT.sticky_not_offPorts {p : Nat} (hp : p < 32) : ¬ OffPorts (PRT.STICKY p) := by
  unfold PRT.STICKY OffPorts
  omega

theorem domFld_not_offStates {p : Nat} (hp : p < 32) : ¬ OffStates (domFld p).addr := by
  show ¬ OffStates (0x3E0030 + 4 * (p / 8))
  unfold OffStates
  omega

/-- A register that `OffStates` does not name is none of those an alarm writes. -/
theorem not_mem_alarmKeys_of_not_offStates {k : Nat} (hk : ¬ OffStates k) : k ∉ alarmKeys :=
  fun hm => hk ((by decide : ∀ k ∈ alarmKeys, OffStates k) k hm)

/-- The counts of the Sump hold nothing of a port. -/
theorem FAB.sumpCnt_offPorts {r : Nat} (hr : r < 32) : OffPorts (FAB.SUMP_CNT_LO r) ∧ OffPorts (FAB.SUMP_CNT_LO r + 4) := by
  unfold FAB.SUMP_CNT_LO OffPorts OffStates
  omega

theorem RSP.qCancel_offPorts (q : Nat) : OffPorts (RSP.Q_CANCEL_LO q) ∧ OffPorts (RSP.Q_CANCEL_LO q + 4) := by
  unfold RSP.Q_CANCEL_LO OffPorts OffStates
  omega

/-- From `b` to `s` the status of every port stands, its sticky bits that are set stay, a port's domain in Run stays there, and of
the counters of the ports only those of cancellations (48, 49) move. -/
structure PortsStay (b s : State) : Prop where
  regsWf : b.RegsWf → s.RegsWf
  stat : b.RegsWf → ∀ p, p < 32 → s.reg (PRT.STAT p) = b.reg (PRT.STAT p)
  sticky : b.RegsWf → ∀ p, p < 32 → ∀ f : Fld, f.w = 1 → f.lo < 32 → f.addr = PRT.STICKY p → b.on f = true → s.on f = true
  run : b.RegsWf → ∀ p, p < 32 → b.domState p = 0 → s.domState p = 0
  statsWf : Store.wf zNat b.prt.stats = true → Store.wf zNat s.prt.stats = true
  stats : Store.wf zNat b.prt.stats = true → ∀ k, k % 64 ≠ 48 → k % 64 ≠ 49 → Store.get zNat s.prt.stats k = Store.get zNat b.prt.stats k

section
variable {b s t : State}

theorem PortsStay.refl (s : State) : PortsStay s s :=
  ⟨id, fun _ _ _ => rfl, fun _ _ _ _ _ _ _ h => h, fun _ _ _ h => h, id, fun _ _ _ _ => rfl⟩

theorem PortsStay.trans (h : PortsStay b s) (g : PortsStay s t) : PortsStay b t where
  regsWf w := g.regsWf (h.regsWf w)
  stat w p hp := (g.stat (h.regsWf w) p hp).trans (h.stat w p hp)
  sticky w p hp f h1 h2 h3 h4 := g.sticky (h.regsWf w) p hp f h1 h2 h3 (h.sticky w p hp f h1 h2 h3 h4)
  run w p hp hd := g.run (h.regsWf w) p hp (h.run w p hp hd)
  statsWf w := g.statsWf (h.statsWf w)
  stats w k h1 h2 := (g.stats (h.statsWf w) k h1 h2).trans (h.stats w k h1 h2)

theorem State.domState_congr {d : Nat} (h : t.reg (domFld d).addr = s.reg (domFld d).addr) : t.domState d = s.domState d :=
  State.rd_congr h

/-- Registers and counters apart, anything may change. -/
theorem PortsStay.of_reg (hw : s.RegsWf → t.RegsWf) (hr : s.RegsWf → ∀ k, ¬ OffStates k → t.reg k = s.reg k)
    (ho : s.RegsWf → ∀ p, p < 32 → ∀ f : Fld, f.w = 1 → f.lo < 32 → f.addr = PRT.STICKY p → s.on f = true → t.on f = true)
    (hp : t.prt.stats = s.prt.stats) : PortsStay s t where
  regsWf := hw
  stat w p hp := hr w _ (PRT.stat_not_offStates hp)
  sticky := ho
  run w p hp hd := (State.domState_congr (hr w _ (domFld_not_offStates hp))).trans hd
  statsWf w := hp ▸ w
  stats _ k _ _ := by rw [hp]

/-- The signals of alarms, and registers that hold nothing of a port. -/
theorem PortsStay.of_signals {ks : List Nat} (h : Signals ks s t) (hks : ∀ k ∈ ks, OffPorts k) : PortsStay s t :=
  .of_reg h.regsWf (fun w k hk => h.reg w k (fun hm => hk (hks k hm).1) (not_mem_alarmKeys_of_not_offStates hk))
    (fun w _ hp f h1 h2 ha => h.on w f h1 h2 (ha ▸ PRT.sticky_not_mem_alarmNums hp)
      (fun hm => PRT.sticky_not_offPorts hp (ha ▸ hks _ hm)))
    (by rw [h.prt])

theorem PortsStay.of_alarm (h : Signals [] s t) : PortsStay s t := .of_signals h fun _ hk => absurd hk List.not_mem_nil

/-- A word written into a register that holds nothing of a port. -/
theorem State.setReg_portsStay (s : State) {k : Nat} (hk : OffPorts k) (w : Word) : PortsStay s (s.setReg k w) :=
  .of_reg (s.setReg_regsWf k w) (fun hw j hj => s.reg_setReg_ne k j w hw fun e => hj (e ▸ hk.1))
    (fun hw p hp f _ _ ha hon => by
      rw [State.on_congr (s.reg_setReg_ne k f.addr w hw fun e => PRT.sticky_not_offPorts hp (ha ▸ e ▸ hk))]
      exact hon) rfl

theorem PortsStay.ite {c : Prop} [Decidable c] (ht : PortsStay b s) (hu : PortsStay b t) : PortsStay b (if c then s else t) := by
  split <;> assumption

theorem PortsStay.foldl {α : Type} (h : PortsStay b s) (l : List α) (f : State → α → State)
    (hf : ∀ u a, PortsStay b u → PortsStay b (f u a)) : PortsStay b (l.foldl f s) :=
  List.foldlRecOn (motive := PortsStay b) l f h fun u hu a _ => hf u a hu

section
variable (h : PortsStay b s)
include h

/-- Parts of the state that `PortsStay` does not speak of may change. -/
theorem PortsStay.of_fields (hv : t.variant = s.variant) (hg : t.regs = s.regs) (hp : t.prt.stats = s.prt.stats) : PortsStay b t :=
  have hreg : ∀ k, t.reg k = s.reg k := fun k => by rw [State.reg, hv, hg, State.reg]
  h.trans (.of_reg (fun w => by rw [State.RegsWf, hv, hg]; exact w) (fun _ k _ => hreg k)
    (fun _ _ _ _ _ _ _ hon => (State.on_congr (hreg _)).trans hon) hp)

theorem PortsStay.signals {ks : List Nat} (g : Signals ks s t) (hks : ∀ k ∈ ks, OffPorts k) : PortsStay b t := h.trans (.of_signals g hks)
theorem PortsStay.alarm (g : Signals [] s t) : PortsStay b t := h.trans (.of_alarm g)

theorem PortsStay.setReg {k : Nat} (hk : OffPorts k) (w : Word) : PortsStay b (s.setReg k w) := h.trans (s.setReg_portsStay hk w)
theorem PortsStay.setN {k : Nat} (hk : OffPorts k) (v : Nat) : PortsStay b (s.setN k v) := h.setReg hk _
theorem PortsStay.wr {f : Fld} (hf : OffPorts f.addr) (v : Nat) : PortsStay b (s.wr f v) := h.setReg hf _
theorem PortsStay.wrB {f : Fld} (hf : OffPorts f.addr) (v : Bool) : PortsStay b (s.wrB f v) := h.setReg hf _
theorem PortsStay.bump {k : Nat} (hk : OffPorts k) (n : Nat) : PortsStay b (s.bump k n) := h.setReg hk _
theorem PortsStay.bump48 {k : Nat} (hk : OffPorts k) (hk4 : OffPorts (k + 4)) (n : Nat) : PortsStay b (s.bump48 k n) :=
  (h.setN hk _).wr (f := ⟨k + 4, 0, 16⟩) hk4 _

theorem PortsStay.bits {f : Fld} (hf : OffStates f.addr) (hb : BitsStay s t) (hg : Signals [f.addr] s t) : PortsStay b t :=
  h.trans (.of_reg hg.regsWf
    (fun w k hk => hg.reg w k (fun hm => hk (List.mem_singleton.mp hm ▸ hf)) (not_mem_alarmKeys_of_not_offStates hk))
    (fun w _ hp g h1 h2 ha hon => (hb w).2 g h1 h2 (ha ▸ PRT.sticky_not_mem_alarmNums hp) hon) (by rw [hg.prt]))

/-- A sticky bit may be a port's. -/
theorem PortsStay.stickyBit {f : Fld} (hw : f.w = 1) (hl : f.lo < 32) (hf : OffStates f.addr) : PortsStay b (s.sticky f) :=
  h.bits hf (s.sticky_bitsStay hw hl) (s.sticky_signals f hw hl (.inl List.mem_cons_self))

theorem PortsStay.setQuiet {f : Fld} (hw : f.w = 1) (hl : f.lo < 32) (hf : OffStates f.addr) : PortsStay b (s.setQuiet f) :=
  h.bits hf (s.setQuiet_bitsStay hw hl) (s.setQuiet_signals f hw hl (.inl List.mem_cons_self))

theorem PortsStay.count (g e u n : Nat) : PortsStay b (s.count g e u n) := h.alarm (s.count_signals g e u n)
theorem PortsStay.journal (typ src : Nat) (body : List Byte) : PortsStay b (s.journal typ src body) := h.alarm (s.journal_signals typ src body)
theorem PortsStay.give (k : Tok) (i n : Nat) : PortsStay b (s.give k i n) := h.alarm (s.give_signals k i n)
theorem PortsStay.qPut (q n : Nat) : PortsStay b (s.qPut q n) := h.alarm (s.qPut_signals q n)
theorem PortsStay.qTake (q n : Nat) : PortsStay b (s.qTake q n) := h.alarm (s.qTake_signals q n)
theorem PortsStay.seqEvent (n bit : Nat) : PortsStay b (s.seqEvent n bit) := h.alarm (s.seqEvent_signals n bit)
theorem PortsStay.postEvent (ring kind : Nat) (x : List Byte) : PortsStay b (s.postEvent ring kind x).1 := h.alarm (s.postEvent_signals ring kind x)
theorem PortsStay.setSq (n : Nat) (x : Sq) : PortsStay b (s.setSq n x) := h.of_fields rfl rfl rfl
theorem PortsStay.setSeqS (f : SeqS → SeqS) : PortsStay b (s.setSeqS f) := h.of_fields rfl rfl rfl
theorem PortsStay.setFab (f : FabS → FabS) : PortsStay b (s.setFab f) := h.of_fields rfl rfl rfl
theorem PortsStay.updTd (u : Nat) (f : Td → Td) : PortsStay b (s.updTd u f) := h.of_fields rfl rfl rfl
theorem PortsStay.setRsp (x : RspS) : PortsStay b { s with rsp := x } := h.of_fields rfl rfl rfl
theorem PortsStay.putJob (j : Job) : PortsStay b (s.putJob j) := h.of_fields rfl rfl rfl
theorem PortsStay.delJob (id : Nat) : PortsStay b (s.delJob id) := h.of_fields rfl rfl rfl

/-- A counter of cancellations moves. -/
theorem PortsStay.stat_cancel (p : Nat) {i : Nat} (hi : i = 48 ∨ i = 49) (n : Nat) : PortsStay b (s.stat p i n) := by
  have hcount : PortsStay s { s with prt := s.prt.counted p i n } :=
    { PortsStay.refl s with
      statsWf := fun w => PrtS.counted_wf w p i n
      stats := fun w k h48 h49 => PrtS.counted_ne w p i n (by omega) }
  refine h.trans ?_
  rcases s.stat_cases p i n with e | e <;> rw [e]
  · exact hcount
  · have hsel : OffPorts (PRT.STATS_SEL p) := by unfold PRT.STATS_SEL OffPorts OffStates; omega
    have hst : OffStates (PRT.STICKY_STATS_HALF p).addr := by show OffStates (PRT.STICKY p); unfold PRT.STICKY OffStates; omega
    exact (PortsStay.ite hcount ((hcount.wr (f := PRT.STATS_SEL_HALF_IDX p) hsel i).wr (f := PRT.STATS_SEL_HALF_VALID p) hsel 1)).stickyBit
      (f := PRT.STICKY_STATS_HALF p) rfl (show 7 < 32 by decide) hst

/-! ### Frames leave their quad -/

theorem PortsStay.quadEvent (q bit : Nat) : PortsStay b (s.quadEvent q bit) := h.foldl _ _ fun _ _ hu => hu.seqEvent _ _

theorem PortsStay.pump (q : Nat) : PortsStay b (s.pump q) := by
  unfold State.pump
  refine .foldl (.foldl (h.foldl _ _ fun u j hu => ?_) _ _ fun u j hu => ?_) _ _ fun u j hu => ?_
  · exact .ite (((hu.qPut _ _).putJob _).quadEvent _ _) hu
  · exact .ite ((hu.qPut _ _).putJob _) hu
  · exact .ite ((hu.qPut _ _).putJob _) hu

theorem PortsStay.leaveQueues (j : Job) : PortsStay b (s.leaveQueues j) := by
  have hcells : PortsStay b (if j.cells = 0 then s else s.qTake j.port j.cells) := .ite h (h.qTake _ _)
  unfold State.leaveQueues
  dsimp only
  split
  · exact hcells.qTake _ _
  · exact hcells.qTake _ _
  · exact .ite (hcells.qTake _ _) hcells
  · exact hcells

theorem PortsStay.freeJob (j : Job) : PortsStay b (s.freeJob j) :=
  (((PortsStay.give (.ite ((h.leaveQueues j).give _ _ _) (h.leaveQueues j)) _ _ _).delJob _).quadEvent _ _).pump _

theorem PortsStay.itemCycles (n k : Nat) (ok : Bool) : PortsStay b (s.itemCycles n k ok) :=
  .ite h (.ite ((h.updTd _ _).count _ _ _ _) ((h.updTd _ _).count _ _ _ _))

theorem PortsStay.itemSettle (id : Nat) (ok : Bool) : PortsStay b (s.itemSettle id ok) := by
  unfold State.itemSettle
  split
  · exact h
  · exact (h.setSeqS _).itemCycles _ _ _

theorem PortsStay.slotWasted (q : Nat) : PortsStay b (s.slotWasted q) := (h.updTd _ _).count _ _ _ _

theorem PortsStay.sump {reason : Nat} (hr : reason < 32) (c : SClass) (tgt inst n : Nat) (fr : List Byte) (fl : Nat) :
    PortsStay b (s.sump reason c tgt inst n fr fl) := by
  obtain ⟨hlo, hhi⟩ := FAB.sumpCnt_offPorts hr
  have htally : PortsStay b (s.sumpTally reason n).1 := (h.bump48 hlo hhi n).count 2 6 0 n
  have hhalf : PortsStay b (if (s.sumpTally reason n).2 then (s.sumpTally reason n).1.sticky FAB.STICKY_SUMP_HALF
      else (s.sumpTally reason n).1) := .ite (htally.stickyBit rfl (by decide) (by decide)) htally
  refine .ite h (.ite (.ite ((hhalf.setFab _).postEvent _ _ _) (hhalf.stickyBit rfl (by decide) (by decide))) hhalf)

theorem PortsStay.endRequest (q : Nat) (x : Term) : PortsStay b (s.endRequest q x) :=
  (h.setFab fun f => { f with terms := _ }).give _ _ _

theorem PortsStay.sumpRequest {reason : Nat} (hr : reason < 32) (q tgt inst : Nat) (fr : List Byte) (fl : Nat) :
    PortsStay b (s.sumpRequest reason q tgt inst fr fl) := ((h.sump hr _ _ _ _ _ _).endRequest _ _).count _ _ _ _

theorem PortsStay.sumpJob (j : Job) {reason : Nat} (hr : reason < 32) : PortsStay b (s.sumpJob j reason) := by
  have hleft := (h.freeJob j).itemSettle j.id false
  have hslot : PortsStay b (if j.slotted then ((s.freeJob j).itemSettle j.id false).slotWasted j.quad
      else (s.freeJob j).itemSettle j.id false) := .ite (hleft.slotWasted _) hleft
  exact .ite (hslot.sumpRequest hr _ _ _ _ _) (hslot.sump hr _ _ _ _ _ _)

/-! ### Reservations cancelled -/

theorem PortsStay.cancelDrop (j : Job) : PortsStay b (s.cancelDrop j) := by
  have hleft := (h.freeJob j).itemSettle j.id false
  have hdrop : PortsStay b (if j.isReq then ((s.freeJob j).itemSettle j.id false).sticky RSP.STICKY_REBUILD_DROP
      else (s.freeJob j).itemSettle j.id false) := .ite (hleft.stickyBit rfl (by decide) (by decide)) hleft
  have hslot := PortsStay.ite (c := j.slotted) (hdrop.slotWasted j.quad) hdrop
  exact .ite ((hslot.sump (by decide) _ _ _ _ _ _).endRequest _ _) (hslot.sump (by decide) _ _ _ _ _ _)

theorem PortsStay.calMissed (p n : Nat) : PortsStay b (s.calMissed p n) :=
  .ite h (((h.bump (by decide) n).stickyBit rfl (by decide) (by decide)).count _ _ _ _)

theorem PortsStay.missJob (j : Job) : PortsStay b (s.missJob j) := .ite (h.calMissed _ _) h

theorem PortsStay.countCancel (j : Job) (reason : Nat) : PortsStay b (s.countCancel j reason) := by
  obtain ⟨hlo, hhi⟩ := RSP.qCancel_offPorts j.quad
  have hstat := (h.stat_cancel j.port (i := if j.checked then 49 else 48) (by split <;> simp) 1).bump48 hlo hhi 1
  have hcause : ∀ u, PortsStay b u → PortsStay b (if reason = caMISMATCH then u.sticky RSP.STICKY_MISMATCH
      else if reason = caLATE then u.sticky RSP.STICKY_LATE else u) := fun u hu =>
    .ite (hu.stickyBit rfl (by decide) (by decide)) (.ite (hu.stickyBit rfl (by decide) (by decide)) hu)
  refine hcause _ (PortsStay.stickyBit (PortsStay.count (PortsStay.setN (k := RSP.CANCEL_LAST) ?_ (by decide) _) 0 5 j.quad 1)
    (f := RSP.STICKY_CANCEL) rfl (by decide) (by decide))
  exact hstat.setRsp _

theorem PortsStay.cancelJob (j : Job) (reason : Nat) : PortsStay b (s.cancelJob j reason) := by
  have hgive := (h.countCancel j reason).give .depart j.port 1
  have hslot := PortsStay.ite (c := j.slotted) (hgive.slotWasted j.quad) hgive
  have hput := hslot.putJob { j with st := .again, slotted := false, slot := none, sealed := false, checked := false }
  exact .ite h (.ite (.ite ((hput.cancelDrop _).missJob _) hput)
    (.ite ((hput.cancelDrop _).missJob _) ((hput.sumpJob _ (cancelSump_lt reason)).missJob _)))

theorem PortsStay.cancelWhere (f : Job → Bool) (reason : Nat) : PortsStay b (s.cancelWhere f reason) :=
  h.foldl _ _ fun _ _ hu => hu.cancelJob _ _

theorem PortsStay.cancelPort (p reason : Nat) : PortsStay b (s.cancelPort p reason) := h.cancelWhere _ _

end

end

end Sys2Proof.Machine

namespace Sys2Proof.Machine

/-! ### Links come up and go down (R207, R210) -/

section
variable {s t : State} {p : Nat}

/-- What counting and signalling at a port leave of its status. -/
theorem PrtSignals.rd_stat (h : PrtSignals (PRT.countKeys p) s t) (hr : s.RegsWf) (hp : p < 32) {f : Fld} (hf : f.addr = PRT.STAT p) :
    t.rd f = s.rd f := h.rd hr (hf ▸ PRT.stat_not_mem_countKeys) (hf ▸ PRT.stat_not_mem_alarmKeys hp)

theorem PrtSignals.on_stat (h : PrtSignals (PRT.countKeys p) s t) (hr : s.RegsWf) (hp : p < 32) {f : Fld} (hf : f.addr = PRT.STAT p) :
    t.on f = s.on f := h.on hr (hf ▸ PRT.stat_not_mem_countKeys) (hf ▸ PRT.stat_not_mem_alarmKeys hp)

theorem State.sticky_counts (s : State) {f : Fld} (hw : f.w = 1) (hl : f.lo < 32) (ha : f.addr = PRT.STICKY p) :
    PrtSignals (PRT.countKeys p) s (s.sticky f) := .of_signals ((s.sticky_prt_signals hw hl ha).mono (by simp))

/-! #### Locks gained -/

/-- Both locks set and both faults clear. -/
def State.locked (s : State) (p : Nat) : State :=
  (((s.wr (PRT.STAT_PCS_LOCK p) 1).wr (PRT.STAT_FEC_LOCK p) 1).wr (PRT.STAT_LOCAL_FAULT p) 0).wr (PRT.STAT_REMOTE_FAULT p) 0

theorem State.locked_regsOnly (s : State) (p : Nat) : RegsOnly [PRT.STAT p] s (s.locked p) :=
  ((((RegsOnly.refl _ s).wr (PRT.STAT_PCS_LOCK p) 1 List.mem_cons_self).wr (PRT.STAT_FEC_LOCK p) 1 List.mem_cons_self).wr
    (PRT.STAT_LOCAL_FAULT p) 0 List.mem_cons_self).wr (PRT.STAT_REMOTE_FAULT p) 0 List.mem_cons_self

theorem State.locked_spec (hr : s.RegsWf) (p : Nat) : (s.locked p).on (PRT.STAT_PCS_LOCK p) = true
    ∧ (s.locked p).on (PRT.STAT_FEC_LOCK p) = true ∧ (s.locked p).on (PRT.STAT_LOCAL_FAULT p) = false
    ∧ (s.locked p).on (PRT.STAT_REMOTE_FAULT p) = false ∧ (s.locked p).on (PRT.STAT_LINK p) = s.on (PRT.STAT_LINK p) := by
  have h1 := s.wr_regsWf (PRT.STAT_PCS_LOCK p) 1 hr
  have h2 := State.wr_regsWf _ (PRT.STAT_FEC_LOCK p) 1 h1
  have h3 := State.wr_regsWf _ (PRT.STAT_LOCAL_FAULT p) 0 h2
  refine ⟨?_, ?_, ?_, State.on_wr_zero h3 (show 4 < 32 by decide) rfl, ?_⟩
  · exact (State.on_wr_apart h3 _ _ _).trans ((State.on_wr_apart h2 _ _ _).trans ((State.on_wr_apart h1 _ _ _).trans
      (s.on_wr (PRT.STAT_PCS_LOCK p) hr (show 1 + 1 ≤ 32 by decide) rfl)))
  · exact (State.on_wr_apart h3 _ _ _).trans ((State.on_wr_apart h2 _ _ _).trans
      (State.on_wr _ (PRT.STAT_FEC_LOCK p) h1 (show 2 + 1 ≤ 32 by decide) rfl))
  · exact (State.on_wr_apart h3 _ _ _).trans (State.on_wr_zero h2 (show 3 < 32 by decide) rfl)
  · exact (State.on_wr_apart h3 _ _ _).trans ((State.on_wr_apart h2 _ _ _).trans ((State.on_wr_apart h1 _ _ _).trans
      (State.on_wr_apart hr _ _ _)))

theorem State.linkLock_eq (he : s.on (PRT.CTRL_EN p) = true) (hpr : s.on (PRT.STAT_PRESENT p) = true) (hc : s.calFails p < 2) :
    s.linkLock p = s.locked p := by
  rw [State.linkLock, if_pos (by simp [he, hpr, hc])]
  rfl

theorem PRT.wakeCtrl_not_mem_stat {q : Nat} : (PRT.WAKE_CTRL_LINK_WAKE q).addr ∉ [PRT.STAT p] := by
  simp only [PRT.WAKE_CTRL_LINK_WAKE, PRT.WAKE_CTRL, PRT.STAT, List.mem_singleton]
  omega

theorem domFld_not_mem_stat (hp : p < 32) {d : Nat} : (domFld d).addr ∉ [PRT.STAT p] := by
  show 0x3E0030 + 0x4 * (d / 8) ∉ [PRT.STAT p]
  simp only [PRT.STAT, List.mem_singleton]
  omega

/-- Locks gained on a port that does not wake by its link, or whose datapath runs. -/
theorem exec_linkLock {u : State} {tm : Nat} (hu : u = s.advance tm) (hr : u.RegsWf) (hp : p < 32) (hpres : u.portPresent p = true)
    (hm : ¬ (u.mode = 6 ∧ u.maint 12 = true)) (he : u.on (PRT.CTRL_EN p) = true) (hpr : u.on (PRT.STAT_PRESENT p) = true)
    (hc : u.calFails p < 2) (hw : u.on (PRT.WAKE_CTRL_LINK_WAKE p) = false ∨ u.domState p < 2) :
    exec (.linkLock p tm) s = .next (u.locked p) := by
  have hgo : ¬ (32 ≤ p ∨ (!u.portPresent p) = true ∨ (u.mode = 6 ∧ u.maint 12 = true)) := by simp [hp, hpres, hm]
  have hwake : (u.locked p).on (PRT.WAKE_CTRL_LINK_WAKE p) = u.on (PRT.WAKE_CTRL_LINK_WAKE p) :=
    (u.locked_regsOnly p).on hr PRT.wakeCtrl_not_mem_stat
  have hdom : (u.locked p).domState p = u.domState p := (u.locked_regsOnly p).rd hr (domFld_not_mem_stat hp)
  show execLinkLock p tm s = _
  unfold execLinkLock
  rw [← hu]
  dsimp only
  rw [if_neg hgo, State.linkLock_eq he hpr hc, hwake, hdom, if_neg]
  rcases hw with hw | hw
  · simp [hw]
  · simp [Nat.not_le.mpr hw]

theorem exec_linkLock_absent {u : State} {tm : Nat} (hu : u = s.advance tm) (h : u.portPresent p = false) : exec (.linkLock p tm) s = .next u := by
  show execLinkLock p tm s = _
  unfold execLinkLock
  rw [← hu]
  dsimp only
  rw [if_pos (by simp [h])]

theorem exec_linkDown_absent {u : State} {cause tm : Nat} {x : Option (Nat × Nat)} (hu : u = s.advance tm) (h : u.portPresent p = false) :
    exec (.linkDown p cause x tm) s = .next u := by
  show execLinkDown p cause x tm s = _
  unfold execLinkDown
  rw [← hu]
  dsimp only
  rw [if_neg (by simp [h])]

theorem exec_linkDown {u : State} {cause tm : Nat} {x : Option (Nat × Nat)} (hu : u = s.advance tm) (hp : p < 32) (h : u.portPresent p = true) :
    exec (.linkDown p cause x tm) s = .next (u.linkDown p cause x) := by
  show execLinkDown p cause x tm s = _
  unfold execLinkDown
  rw [← hu]
  dsimp only
  rw [if_pos ⟨hp, h⟩]

theorem exec_calDone {u : State} {tm : Nat} {l : List (Nat × Int)} {ok : Bool} (hu : u = s.advance tm) (hp : p < 32) :
    exec (.calDone p l ok tm) s = .next (u.calDone p l ok) := by
  show execCalDone p l ok tm s = _
  unfold execCalDone
  rw [← hu, if_pos hp]

/-! #### LINK sets and clears -/

/-- LINK as it changes, counted in LINK_CHANGES; the time of it is kept. -/
def State.turnLink (s : State) (p : Nat) (up : Bool) : State :=
  ({ s with prt := { s.prt with linkRaw := Store.put zNat s.prt.linkRaw p s.raw } }.wrB (PRT.STAT_LINK p) up).bumpF (PRT.STAT_LINK_CHANGES p)

theorem State.turnLink_signals (s : State) (p : Nat) (up : Bool) : PrtSignals [PRT.STAT p] s (s.turnLink p up) :=
  ((Signals.refl _ _).trans (Signals.wr _ (PRT.STAT_LINK p) (b2n up) (.inl List.mem_cons_self))).trans
    (Signals.wr _ (PRT.STAT_LINK_CHANGES p) _ (.inl List.mem_cons_self))

theorem State.turnLink_regsWf (hr : s.RegsWf) (p : Nat) (up : Bool) : (s.turnLink p up).RegsWf := (s.turnLink_signals p up).regsWf hr

theorem State.turnLink_link (hr : s.RegsWf) (p : Nat) (up : Bool) : (s.turnLink p up).on (PRT.STAT_LINK p) = up :=
  (State.on_wr_apart (State.wr_regsWf _ _ _ hr) _ _ _).trans (State.on_wrB hr (show 0 < 32 by decide) rfl up)

theorem State.turnLink_changes (hr : s.RegsWf) (p : Nat) (up : Bool) : (s.turnLink p up).rd (PRT.STAT_LINK_CHANGES p)
    = (s.rd (PRT.STAT_LINK_CHANGES p) + 1) % 2 ^ (PRT.STAT_LINK_CHANGES p).w := by
  have hsame : State.rd _ (PRT.STAT_LINK_CHANGES p) = s.rd (PRT.STAT_LINK_CHANGES p) :=
    State.rd_wr_apart (s := { s with prt := { s.prt with linkRaw := Store.put zNat s.prt.linkRaw p s.raw } }) hr (PRT.STAT_LINK p) _ (b2n up)
  rw [← hsame]
  exact State.rd_wr _ _ _ (State.wr_regsWf _ _ _ hr) (show 16 + 16 ≤ 32 by decide)

/-- The other bits of a port's status stand. -/
theorem State.turnLink_on (hr : s.RegsWf) (up : Bool) {i : Nat} (h0 : 0 < i) (h16 : i < 16) :
    (s.turnLink p up).on ⟨PRT.STAT p, i, 1⟩ = s.on ⟨PRT.STAT p, i, 1⟩ :=
  (State.on_wr_disj (State.wr_regsWf _ _ _ hr) _ (f := PRT.STAT_LINK_CHANGES p) (g := ⟨PRT.STAT p, i, 1⟩) (show 16 + 16 ≤ 32 by decide) rfl
    (.inl h16)).trans (State.on_wr_disj (s := { s with prt := { s.prt with linkRaw := _ } }) hr _ (f := PRT.STAT_LINK p)
      (g := ⟨PRT.STAT p, i, 1⟩) (show 0 + 1 ≤ 32 by decide) rfl (.inr h0))

theorem State.setLink_up (h : s.on (PRT.STAT_LINK p) = false) : s.setLink p true = (s.turnLink p true).sticky (PRT.STICKY_LINK_UP p) := by
  rw [State.setLink, if_neg (by simp [State.linkUp, h])]
  rfl

/-! #### Calibration -/

/-- A calibration that passed, before LINK: the latencies and CAL_VALID. -/
def State.calibrated (s : State) (p : Nat) (m : Store Int) : State :=
  { s with prt := { s.prt with lat := m } }.wr (PRT.STAT_CAL_VALID p) 1

theorem State.calDone_passed (hl : s.on (PRT.STAT_PCS_LOCK p) = true) (hd : s.on (PRT.STAT_LINK p) = false) (l : List (Nat × Int)) :
    ∃ m, s.calDone p l true = (((s.calibrated p m).setLink p true).setCalFails p 0).startPreempt p := by
  rw [State.calDone, if_neg (by simp [hl, hd]), if_pos rfl]
  exact ⟨_, rfl⟩

theorem State.calDone_unlocked (hl : s.on (PRT.STAT_PCS_LOCK p) = false) (l : List (Nat × Int)) (ok : Bool) : s.calDone p l ok = s := by
  rw [State.calDone, if_pos (by simp [hl])]

/-- A port comes up: LINK, counted, and LINK_UP; the rest of its status stands. -/
theorem State.setLink_up_spec (hr : s.RegsWf) (hp : p < 32) (hd : s.on (PRT.STAT_LINK p) = false) :
    (s.setLink p true).on (PRT.STAT_LINK p) = true ∧ (s.setLink p true).on (PRT.STICKY_LINK_UP p) = true
    ∧ (s.setLink p true).rd (PRT.STAT_LINK_CHANGES p) = (s.rd (PRT.STAT_LINK_CHANGES p) + 1) % 2 ^ (PRT.STAT_LINK_CHANGES p).w
    ∧ (∀ i, 0 < i → i < 16 → (s.setLink p true).on ⟨PRT.STAT p, i, 1⟩ = s.on ⟨PRT.STAT p, i, 1⟩)
    ∧ (s.setLink p true).prt.calFails = s.prt.calFails ∧ PrtSignals [PRT.STAT p, PRT.STICKY p] s (s.setLink p true) := by
  rw [State.setLink_up hd]
  have ht := s.turnLink_regsWf hr p true
  have hsig := State.sticky_prt_signals (s.turnLink p true) (f := PRT.STICKY_LINK_UP p) rfl (show 1 < 32 by decide) rfl
  have hstat : PrtSignals (PRT.countKeys p) (s.turnLink p true) ((s.turnLink p true).sticky (PRT.STICKY_LINK_UP p)) :=
    .of_signals (hsig.mono (by simp))
  refine ⟨(hstat.on_stat ht hp rfl).trans (State.turnLink_link hr p true),
    State.sticky_prt_on ht hp rfl (show 1 < 32 by decide) rfl,
    (hstat.rd_stat ht hp rfl).trans (State.turnLink_changes hr p true),
    fun i h0 h16 => (hstat.on_stat ht hp rfl).trans (State.turnLink_on hr true h0 h16), ?_,
    ((s.turnLink_signals p true).mono (by simp)).trans (.of_signals (hsig.mono (by simp)))⟩
  rw [hsig.prt]
  rfl

/-- The registers that ask for preemption hold no status and no sticky bits. -/
theorem PRT.preempt_apart (hp : p < 32) {k : Nat} (h : k = PRT.CTRL p ∨ k = PRT.PREEMPT_CFG p) :
    k ∉ [PRT.STAT p, PRT.STICKY p] ∧ k ∉ alarmKeys := by
  have hk : k = 0x100000 + 0 + 0x10000 * p ∨ k = 0x100000 + 0x28 + 0x10000 * p := h
  constructor
  · simp only [PRT.STAT, PRT.STICKY, List.mem_cons, List.not_mem_nil, or_false]
    omega
  · rcases hk with hk | hk
    · exact hk ▸ prt_not_mem_alarmKeys hp 0 (by decide)
    · exact hk ▸ prt_not_mem_alarmKeys hp 0x28 (by decide)

/-- PREEMPT_ACTIVE follows PREEMPT_EN where no verify is asked. -/
theorem State.startPreempt_spec (hr : s.RegsWf) : (s.startPreempt p).on (PRT.STAT_PREEMPT_ACTIVE p)
      = (s.on (PRT.STAT_LINK p) && s.on (PRT.CTRL_PREEMPT_EN p) && !s.on (PRT.PREEMPT_CFG_VERIFY_EN p))
    ∧ (∀ j, j ≠ PRT.STAT p → (s.startPreempt p).reg j = s.reg j)
    ∧ (s.startPreempt p).prt.calFails = s.prt.calFails ∧ PrtSignals [PRT.STAT p] s (s.startPreempt p) :=
  ⟨State.on_wrB hr (show 5 < 32 by decide) rfl _, fun j hj => State.reg_wr_ne _ _ j _ hr hj, rfl,
    Signals.wr _ (PRT.STAT_PREEMPT_ACTIVE p) _ (.inl List.mem_cons_self)⟩

theorem State.calibrated_spec (hr : s.RegsWf) (m : Store Int) : (s.calibrated p m).RegsWf
    ∧ (s.calibrated p m).on (PRT.STAT_CAL_VALID p) = true ∧ (s.calibrated p m).on (PRT.STAT_LINK p) = s.on (PRT.STAT_LINK p)
    ∧ (s.calibrated p m).rd (PRT.STAT_LINK_CHANGES p) = s.rd (PRT.STAT_LINK_CHANGES p)
    ∧ PrtSignals [PRT.STAT p] s (s.calibrated p m) :=
  ⟨State.wr_regsWf _ _ _ hr, State.on_wr _ (PRT.STAT_CAL_VALID p) hr (show 10 + 1 ≤ 32 by decide) rfl,
    State.on_wr_apart (s := { s with prt := _ }) hr (PRT.STAT_CAL_VALID p) (PRT.STAT_LINK p) 1,
    State.rd_wr_apart (s := { s with prt := _ }) hr (PRT.STAT_CAL_VALID p) (PRT.STAT_LINK_CHANGES p) 1,
    Signals.wr _ (PRT.STAT_CAL_VALID p) 1 (.inl List.mem_cons_self)⟩

/-- A calibration in the windows brings the port up (R207, R210). -/
theorem State.calDone_passed_spec (hr : s.RegsWf) (hf : Store.wf zNat s.prt.calFails = true) (hp : p < 32)
    (hl : s.on (PRT.STAT_PCS_LOCK p) = true) (hd : s.on (PRT.STAT_LINK p) = false) (l : List (Nat × Int)) :
    (s.calDone p l true).on (PRT.STAT_CAL_VALID p) = true ∧ (s.calDone p l true).on (PRT.STAT_LINK p) = true
    ∧ (s.calDone p l true).on (PRT.STICKY_LINK_UP p) = true
    ∧ (s.calDone p l true).rd (PRT.STAT_LINK_CHANGES p) = (s.rd (PRT.STAT_LINK_CHANGES p) + 1) % 2 ^ (PRT.STAT_LINK_CHANGES p).w
    ∧ (s.calDone p l true).on (PRT.STAT_PREEMPT_ACTIVE p) = (s.on (PRT.CTRL_PREEMPT_EN p) && !s.on (PRT.PREEMPT_CFG_VERIFY_EN p))
    ∧ (s.calDone p l true).calFails p = 0 ∧ PrtSignals [PRT.STAT p, PRT.STICKY p] s (s.calDone p l true) := by
  obtain ⟨m, hdone⟩ := State.calDone_passed hl hd l
  obtain ⟨hrc, hvalid, hlink, hchg, hsc⟩ := State.calibrated_spec (p := p) hr m
  obtain ⟨hup, hsticky, hchg', hrest, hfails, hsu⟩ := State.setLink_up_spec hrc hp (hlink.trans hd)
  generalize hv : (s.calibrated p m).setLink p true = v at *
  have hrv : v.RegsWf := hsu.regsWf hrc
  have hsv : PrtSignals [PRT.STAT p, PRT.STICKY p] s v := (hsc.mono (by simp)).trans hsu
  obtain ⟨hpre, hreg, hfails', hsp⟩ := State.startPreempt_spec (s := v.setCalFails p 0) (p := p) hrv
  have hkeep : ∀ f : Fld, f.addr = PRT.CTRL p ∨ f.addr = PRT.PREEMPT_CFG p → v.on f = s.on f := fun f h =>
    hsv.on hr (PRT.preempt_apart hp h).1 (PRT.preempt_apart hp h).2
  rw [hdone]
  refine ⟨?_, ?_, ?_, ?_, ?_, ?_, ?_⟩
  · exact (State.on_wr_apart (s := (v.setCalFails p 0).setVerify p 0) hrv _ _ _).trans ((hrest 10 (by decide) (by decide)).trans hvalid)
  · exact (State.on_wr_apart (s := (v.setCalFails p 0).setVerify p 0) hrv _ _ _).trans hup
  · exact (State.on_congr (hreg _ PRT.stat_ne_sticky.symm)).trans hsticky
  · exact (State.rd_wr_apart (s := (v.setCalFails p 0).setVerify p 0) hrv _ _ _).trans (hchg'.trans (by rw [hchg]))
  · rw [hpre]
    show (v.on (PRT.STAT_LINK p) && v.on (PRT.CTRL_PREEMPT_EN p) && !v.on (PRT.PREEMPT_CFG_VERIFY_EN p)) = _
    rw [hup, Bool.true_and]
    rw [hkeep (PRT.CTRL_PREEMPT_EN p) (.inl rfl), hkeep (PRT.PREEMPT_CFG_VERIFY_EN p) (.inr rfl)]
  · rw [State.calFails, hfails']
    refine Store.get_put_same ?_
    rw [hfails]
    exact hf
  · exact (hsv.trans (.setPrt v _)).trans (hsp.mono (by simp))

/-- The locks and CAL_VALID clear. -/
def State.lostLock (s : State) (p : Nat) : State :=
  ((s.wr (PRT.STAT_PCS_LOCK p) 0).wr (PRT.STAT_FEC_LOCK p) 0).wr (PRT.STAT_CAL_VALID p) 0

theorem State.lostLock_spec (hr : s.RegsWf) (p : Nat) : (s.lostLock p).on (PRT.STAT_PCS_LOCK p) = false
    ∧ (s.lostLock p).on (PRT.STAT_CAL_VALID p) = false ∧ (s.lostLock p).on (PRT.STAT_LINK p) = s.on (PRT.STAT_LINK p)
    ∧ RegsOnly [PRT.STAT p] s (s.lostLock p) := by
  have h1 := s.wr_regsWf (PRT.STAT_PCS_LOCK p) 0 hr
  have h2 := State.wr_regsWf _ (PRT.STAT_FEC_LOCK p) 0 h1
  refine ⟨?_, State.on_wr_zero h2 (show 10 < 32 by decide) rfl, ?_, ?_⟩
  · exact (State.on_wr_apart h2 _ _ _).trans ((State.on_wr_apart h1 _ _ _).trans (State.on_wr_zero hr (show 1 < 32 by decide) rfl))
  · exact (State.on_wr_apart h2 _ _ _).trans ((State.on_wr_apart h1 _ _ _).trans (State.on_wr_apart hr _ _ _))
  · exact (((RegsOnly.refl _ s).wr (PRT.STAT_PCS_LOCK p) 0 List.mem_cons_self).wr (PRT.STAT_FEC_LOCK p) 0 List.mem_cons_self).wr
      (PRT.STAT_CAL_VALID p) 0 List.mem_cons_self

/-- A calibration outside the windows: the locks are lost and the failure counted. -/
def State.uncalibrated (s : State) (p : Nat) : State := (s.lostLock p).setCalFails p (s.calFails p + 1)

theorem State.uncalibrated_signals (hr : s.RegsWf) (p : Nat) : (s.uncalibrated p).RegsWf
    ∧ PrtSignals [PRT.STAT p, PRT.STICKY p] s (s.uncalibrated p) := by
  obtain ⟨-, -, -, honly⟩ := State.lostLock_spec hr p
  exact ⟨honly.regsWf hr, (PrtSignals.of_signals (honly.signals.mono (by simp))).trans (.setPrt _ _)⟩

theorem State.calDone_failed (hl : s.on (PRT.STAT_PCS_LOCK p) = true) (hd : s.on (PRT.STAT_LINK p) = false) (l : List (Nat × Int)) :
    s.calDone p l false = if s.calFails p = 0 then s.uncalibrated p else (s.uncalibrated p).sticky (PRT.STICKY_CAL_FAIL p) := by
  rw [State.calDone, if_neg (by simp [hl, hd]), if_neg (by decide)]
  rfl

/-- A failed calibration drops the locks; the second sets CAL_FAIL (R210). -/
theorem State.calDone_failed_spec (hr : s.RegsWf) (hf : Store.wf zNat s.prt.calFails = true) (hp : p < 32)
    (hl : s.on (PRT.STAT_PCS_LOCK p) = true) (hd : s.on (PRT.STAT_LINK p) = false) (l : List (Nat × Int)) :
    (s.calDone p l false).on (PRT.STAT_PCS_LOCK p) = false ∧ (s.calDone p l false).on (PRT.STAT_CAL_VALID p) = false
    ∧ (s.calDone p l false).on (PRT.STAT_LINK p) = false ∧ (s.calDone p l false).calFails p = s.calFails p + 1
    ∧ (s.calFails p ≠ 0 → (s.calDone p l false).on (PRT.STICKY_CAL_FAIL p) = true)
    ∧ PrtSignals [PRT.STAT p, PRT.STICKY p] s (s.calDone p l false) := by
  obtain ⟨hpcs, hval, hlink, -⟩ := State.lostLock_spec hr p
  obtain ⟨hru, hregs⟩ := State.uncalibrated_signals hr p
  have hsig := State.sticky_prt_signals (s.uncalibrated p) (p := p) (f := PRT.STICKY_CAL_FAIL p) rfl (show 15 < 32 by decide) rfl
  have hdone : Signals [PRT.STICKY p] (s.uncalibrated p) (s.calDone p l false) := by
    rw [State.calDone_failed hl hd]
    split
    · exact Signals.refl _ _
    · exact hsig
  have hstat : PrtSignals (PRT.countKeys p) (s.uncalibrated p) (s.calDone p l false) := .of_signals (hdone.mono (by simp))
  refine ⟨(hstat.on_stat hru hp rfl).trans hpcs, (hstat.on_stat hru hp rfl).trans hval, (hstat.on_stat hru hp rfl).trans (hlink.trans hd),
    ?_, fun h0 => ?_, hregs.trans (.of_signals (hdone.mono (by simp)))⟩
  · rw [State.calFails, hdone.prt]
    exact Store.get_put_same hf
  · rw [State.calDone_failed hl hd, if_neg h0]
    exact State.sticky_on _ _ hru rfl (show 15 < 32 by decide) (PRT.sticky_not_mem_alarmNums hp)

/-! #### Links lost -/

/-- A happening at port `p` that counter `i` counts, with its sticky bit. -/
def State.noted (s : State) (p i : Nat) (g : Fld) : State := (s.stat p i).sticky g

/-- From `s` to `t` counter `i` of port `p` takes one more, the other counters stand and the port's sticky bits that are set stay. -/
structure Noted (p i : Nat) (g : Fld) (s t : State) : Prop where
  signals : PrtSignals (PRT.countKeys p) s t
  statsWf : Store.wf zNat t.prt.stats = true
  set : t.on g = true
  sticky : ∀ f : Fld, f.w = 1 → f.lo < 32 → f.addr = PRT.STICKY p → s.on f = true → t.on f = true
  counted : Store.get zNat t.prt.stats (64 * p + i) = (Store.get zNat s.prt.stats (64 * p + i) + 1) % 2 ^ 48
  stats : ∀ k, k ≠ 64 * p + i → Store.get zNat t.prt.stats k = Store.get zNat s.prt.stats k

theorem State.noted_spec (hr : s.RegsWf) (hw : Store.wf zNat s.prt.stats = true) (hp : p < 32) (i : Nat) {g : Fld} (h1 : g.w = 1)
    (hl : g.lo < 32) (ha : g.addr = PRT.STICKY p) : Noted p i g s (s.noted p i g) := by
  have hstat := s.stat_signals p i 1
  have hrs := hstat.regsWf hr
  have hsig := State.sticky_prt_signals (s.stat p i) h1 hl ha
  have hprt : (s.noted p i g).prt = s.prt.counted p i 1 := hsig.prt.trans (s.stat_prt p i 1)
  refine ⟨hstat.trans (.of_signals (hsig.mono (by simp))), ?_, State.sticky_prt_on hrs hp h1 hl ha, fun f hf1 hfl hfa hon => ?_, ?_,
    fun k hk => ?_⟩
  · rw [hprt]
    exact PrtS.counted_wf hw p i 1
  · exact (State.sticky_bitsStay _ h1 hl hrs).2 f hf1 hfl (hfa ▸ PRT.sticky_not_mem_alarmNums hp)
      (State.stat_on hr hp i 1 hf1 hfl hfa hon)
  · rw [hprt, PrtS.counted_same hw]
  · rw [hprt, PrtS.counted_ne hw p i 1 hk]

theorem State.turnLink_reg_ne (hr : s.RegsWf) (up : Bool) {j : Nat} (hj : j ≠ PRT.STAT p) : (s.turnLink p up).reg j = s.reg j :=
  (State.reg_wr_ne _ _ j _ (State.wr_regsWf _ _ _ hr) hj).trans
    (State.reg_wr_ne { s with prt := { s.prt with linkRaw := _ } } (PRT.STAT_LINK p) j _ hr hj)

theorem State.turnLink_stats (s : State) (p : Nat) (up : Bool) : (s.turnLink p up).prt.stats = s.prt.stats := rfl

/-- A port goes down: LINK clear and counted, the seconds it was up added, LINK_DOWN. -/
theorem State.setLink_down (h : s.on (PRT.STAT_LINK p) = true) : ∃ n, s.setLink p false
    = ((s.stat p 59 n).turnLink p false).noted p 56 (PRT.STICKY_LINK_DOWN p) := by
  rw [State.setLink, if_neg (by simp [State.linkUp, h])]
  exact ⟨_, rfl⟩

theorem State.setLink_down_idle (h : s.on (PRT.STAT_LINK p) = false) : s.setLink p false = s := by
  rw [State.setLink, if_pos (show s.linkUp p = false from h)]

/-- What the loss of a port's link leaves: its status but LINK, its sticky bits that are set, the other counters. -/
structure LinkLost (p : Nat) (s t : State) : Prop where
  regsWf : t.RegsWf
  statsWf : Store.wf zNat t.prt.stats = true
  link : t.on (PRT.STAT_LINK p) = false
  stat : ∀ i, 0 < i → i < 16 → t.on ⟨PRT.STAT p, i, 1⟩ = s.on ⟨PRT.STAT p, i, 1⟩
  sticky : ∀ f : Fld, f.w = 1 → f.lo < 32 → f.addr = PRT.STICKY p → s.on f = true → t.on f = true
  stats : ∀ i, i ≠ 56 → i ≠ 59 → Store.get zNat t.prt.stats (64 * p + i) = Store.get zNat s.prt.stats (64 * p + i)
  counted : s.on (PRT.STAT_LINK p) = true → t.on (PRT.STICKY_LINK_DOWN p) = true
    ∧ Store.get zNat t.prt.stats (64 * p + 56) = (Store.get zNat s.prt.stats (64 * p + 56) + 1) % 2 ^ 48

theorem State.setLink_lost (hr : s.RegsWf) (hw : Store.wf zNat s.prt.stats = true) (hp : p < 32) : LinkLost p s (s.setLink p false) := by
  cases hup : s.on (PRT.STAT_LINK p) with
  | false =>
    rw [State.setLink_down_idle hup]
    exact ⟨hr, hw, hup, fun _ _ _ => rfl, fun _ _ _ _ h => h, fun _ _ _ => rfl, fun h => absurd h (by simp [hup])⟩
  | true =>
    obtain ⟨n, hdown⟩ := State.setLink_down hup
    rw [hdown]
    have h59 := s.stat_signals p 59 n
    have hr1 := h59.regsWf hr
    have hr2 := State.turnLink_regsWf hr1 p false
    have hprt : ((s.stat p 59 n).turnLink p false).prt.stats = (s.prt.counted p 59 n).stats :=
      (State.turnLink_stats _ p false).trans (congrArg PrtS.stats (s.stat_prt p 59 n))
    have hw1 : Store.wf zNat ((s.stat p 59 n).turnLink p false).prt.stats = true := hprt ▸ PrtS.counted_wf hw p 59 n
    have hn := State.noted_spec hr2 hw1 hp 56 (g := PRT.STICKY_LINK_DOWN p) rfl (show 2 < 32 by decide) rfl
    have hget : ∀ i, i ≠ 59 → Store.get zNat ((s.stat p 59 n).turnLink p false).prt.stats (64 * p + i) = Store.get zNat s.prt.stats (64 * p + i) :=
      fun i hi => hprt ▸ PrtS.counted_ne hw p 59 n (by omega)
    refine ⟨hn.signals.regsWf hr2, hn.statsWf, (hn.signals.on_stat hr2 hp rfl).trans (State.turnLink_link hr1 p false),
      fun i h0 h16 => ?_, fun f h1 h2 ha hon => ?_, fun i h56 h59 => ?_, fun _ => ⟨hn.set, ?_⟩⟩
    · exact (hn.signals.on_stat hr2 hp rfl).trans ((State.turnLink_on hr1 false h0 h16).trans (h59.on_stat hr hp rfl))
    · refine hn.sticky f h1 h2 ha ((State.on_congr (State.turnLink_reg_ne hr1 false ?_)).trans (State.stat_on hr hp 59 n h1 h2 ha hon))
      exact ha ▸ PRT.stat_ne_sticky.symm
    · rw [hn.stats _ (by omega), hget i h59]
    · rw [hn.counted, hget 56 (by decide)]

/-- What a cause of the loss shows: the locks clear, or a fault set, counted where it is local (R210). -/
def State.showCause (s : State) (p cause : Nat) : State :=
  match cause with
  | 0 => s.lostLock p
  | 1 => (s.wr (PRT.STAT_LOCAL_FAULT p) 1).noted p 57 (PRT.STICKY_LOCAL_FAULT p)
  | 2 => (s.wr (PRT.STAT_REMOTE_FAULT p) 1).noted p 58 (PRT.STICKY_REMOTE_FAULT p)
  | _ => s

/-- The port with its cause shown, LINK and preemption clear; its reservations are still held. -/
def State.linkCut (s : State) (p cause : Nat) : State := ((s.showCause p cause).setLink p false).wr (PRT.STAT_PREEMPT_ACTIVE p) 0

theorem State.linkDown_eq (s : State) (p cause : Nat) : s.linkDown p cause none = (s.linkCut p cause).cancelPort p caLINK := by
  match cause with
  | 0 => rfl
  | 1 => rfl
  | 2 => rfl
  | _ + 3 => rfl

/-- A fault set, its sticky bit and its counter: LINK stands. -/
theorem State.fault_spec (hr : s.RegsWf) (hw : Store.wf zNat s.prt.stats = true) (hp : p < 32) {i j : Nat} (hi : i < 32) (h0 : 0 < i)
    (hj : j < 32) (n : Nat) :
    Noted p n ⟨PRT.STICKY p, j, 1⟩ (s.wr ⟨PRT.STAT p, i, 1⟩ 1) ((s.wr ⟨PRT.STAT p, i, 1⟩ 1).noted p n ⟨PRT.STICKY p, j, 1⟩)
    ∧ ((s.wr ⟨PRT.STAT p, i, 1⟩ 1).noted p n ⟨PRT.STICKY p, j, 1⟩).on ⟨PRT.STAT p, i, 1⟩ = true
    ∧ ((s.wr ⟨PRT.STAT p, i, 1⟩ 1).noted p n ⟨PRT.STICKY p, j, 1⟩).on (PRT.STAT_LINK p) = s.on (PRT.STAT_LINK p) := by
  have hr1 := s.wr_regsWf ⟨PRT.STAT p, i, 1⟩ 1 hr
  have hn := State.noted_spec (s := s.wr ⟨PRT.STAT p, i, 1⟩ 1) hr1 hw hp n (g := ⟨PRT.STICKY p, j, 1⟩) rfl hj rfl
  refine ⟨hn, (hn.signals.on_stat hr1 hp rfl).trans (s.on_wr _ hr hi rfl), (hn.signals.on_stat hr1 hp rfl).trans ?_⟩
  exact State.on_wr_disj hr 1 (g := PRT.STAT_LINK p) (f := ⟨PRT.STAT p, i, 1⟩) hi rfl (.inl h0)

/-- What the cause of a loss shows of port `p`. -/
structure CauseShown (p cause : Nat) (s t : State) : Prop where
  lock : cause = 0 → t.on (PRT.STAT_PCS_LOCK p) = false ∧ t.on (PRT.STAT_CAL_VALID p) = false
  loc : cause = 1 → t.on (PRT.STAT_LOCAL_FAULT p) = true ∧ t.on (PRT.STICKY_LOCAL_FAULT p) = true
    ∧ Store.get zNat t.prt.stats (64 * p + 57) = (Store.get zNat s.prt.stats (64 * p + 57) + 1) % 2 ^ 48
  remote : cause = 2 → t.on (PRT.STAT_REMOTE_FAULT p) = true ∧ t.on (PRT.STICKY_REMOTE_FAULT p) = true

theorem State.showCause_spec (hr : s.RegsWf) (hw : Store.wf zNat s.prt.stats = true) (hp : p < 32) (cause : Nat) :
    CauseShown p cause s (s.showCause p cause) ∧ (s.showCause p cause).RegsWf ∧ Store.wf zNat (s.showCause p cause).prt.stats = true
    ∧ (s.showCause p cause).on (PRT.STAT_LINK p) = s.on (PRT.STAT_LINK p)
    ∧ Store.get zNat (s.showCause p cause).prt.stats (64 * p + 56) = Store.get zNat s.prt.stats (64 * p + 56) := by
  match cause with
  | 0 =>
    obtain ⟨hpcs, hval, hlink, honly⟩ := State.lostLock_spec hr p
    exact ⟨⟨fun _ => ⟨hpcs, hval⟩, nofun, nofun⟩, honly.regsWf hr, hw, hlink, rfl⟩
  | 1 =>
    obtain ⟨hn, hset, hlink⟩ := State.fault_spec hr hw hp (i := 3) (j := 3) (by decide) (by decide) (by decide) 57
    exact ⟨⟨nofun, fun _ => ⟨hset, hn.set, hn.counted⟩, nofun⟩, hn.signals.regsWf (s.wr_regsWf _ 1 hr), hn.statsWf, hlink, hn.stats _ (by omega)⟩
  | 2 =>
    obtain ⟨hn, hset, hlink⟩ := State.fault_spec hr hw hp (i := 4) (j := 4) (by decide) (by decide) (by decide) 58
    exact ⟨⟨nofun, nofun, fun _ => ⟨hset, hn.set⟩⟩, hn.signals.regsWf (s.wr_regsWf _ 1 hr), hn.statsWf, hlink, hn.stats _ (by omega)⟩
  | _ + 3 => exact ⟨⟨nofun, nofun, nofun⟩, hr, hw, rfl, rfl⟩

/-- A port that is down: its cause is shown, LINK and preemption are clear, and a link that was up is counted with LINK_DOWN. -/
structure PortDown (p cause : Nat) (s t : State) : Prop extends CauseShown p cause s t where
  link : t.on (PRT.STAT_LINK p) = false
  preempt : t.on (PRT.STAT_PREEMPT_ACTIVE p) = false
  counted : s.on (PRT.STAT_LINK p) = true → t.on (PRT.STICKY_LINK_DOWN p) = true
    ∧ Store.get zNat t.prt.stats (64 * p + 56) = (Store.get zNat s.prt.stats (64 * p + 56) + 1) % 2 ^ 48

theorem State.linkCut_spec (hr : s.RegsWf) (hw : Store.wf zNat s.prt.stats = true) (hp : p < 32) (cause : Nat) :
    PortDown p cause s (s.linkCut p cause) ∧ (s.linkCut p cause).RegsWf ∧ Store.wf zNat (s.linkCut p cause).prt.stats = true := by
  obtain ⟨hcause, hrc, hwc, hlink, h56⟩ := State.showCause_spec hr hw hp cause
  have hlost := State.setLink_lost hrc hwc hp
  have hrl := hlost.regsWf
  have hbit : ∀ i, 0 < i → i < 16 → i ≠ 5 → (s.linkCut p cause).on ⟨PRT.STAT p, i, 1⟩ = (s.showCause p cause).on ⟨PRT.STAT p, i, 1⟩ :=
    fun i h0 h16 h5 => (State.on_wr_disj hrl 0 (f := PRT.STAT_PREEMPT_ACTIVE p) (g := ⟨PRT.STAT p, i, 1⟩) (show 5 + 1 ≤ 32 by decide) rfl
      (show i + 1 ≤ 5 ∨ 5 + 1 ≤ i by omega)).trans (hlost.stat i h0 h16)
  have hsticky : ∀ j, j < 32 → ((s.showCause p cause).setLink p false).on ⟨PRT.STICKY p, j, 1⟩ = true
      → (s.linkCut p cause).on ⟨PRT.STICKY p, j, 1⟩ = true := fun j _ hon =>
    (State.on_wr_ne hrl (f := PRT.STAT_PREEMPT_ACTIVE p) (g := ⟨PRT.STICKY p, j, 1⟩) 0 PRT.stat_ne_sticky.symm).trans hon
  refine ⟨⟨⟨fun h0 => ?_, fun h1 => ?_, fun h2 => ?_⟩, ?_, State.on_wr_zero hrl (show 5 < 32 by decide) rfl, fun hup => ?_⟩,
    State.wr_regsWf _ _ _ hrl, hlost.statsWf⟩
  · obtain ⟨hpcs, hval⟩ := hcause.lock h0
    exact ⟨(hbit 1 (by decide) (by decide) (by decide)).trans hpcs, (hbit 10 (by decide) (by decide) (by decide)).trans hval⟩
  · obtain ⟨hset, hst, hcnt⟩ := hcause.loc h1
    exact ⟨(hbit 3 (by decide) (by decide) (by decide)).trans hset, hsticky 3 (by decide) (hlost.sticky _ rfl (by decide : 3 < 32) rfl hst),
      (hlost.stats 57 (by decide) (by decide)).trans hcnt⟩
  · obtain ⟨hset, hst⟩ := hcause.remote h2
    exact ⟨(hbit 4 (by decide) (by decide) (by decide)).trans hset, hsticky 4 (by decide) (hlost.sticky _ rfl (by decide : 4 < 32) rfl hst)⟩
  · exact (State.on_wr_apart hrl _ _ _).trans hlost.link
  · obtain ⟨hst, hcnt⟩ := hlost.counted (hlink.trans hup)
    exact ⟨hsticky 2 (by decide) hst, hcnt.trans (by rw [h56])⟩

/-- Cancelling its reservations leaves a port down. -/
theorem PortDown.stay {cause : Nat} {u : State} (h : PortDown p cause s t) (hr : t.RegsWf) (hw : Store.wf zNat t.prt.stats = true) (hp : p < 32)
    (g : PortsStay t u) : PortDown p cause s u := by
  have hon : ∀ i w, u.on ⟨PRT.STAT p, i, w⟩ = t.on ⟨PRT.STAT p, i, w⟩ := fun _ _ => State.on_congr (g.stat hr p hp)
  have hst : ∀ i, i % 64 ≠ 48 → i % 64 ≠ 49 → Store.get zNat u.prt.stats (64 * p + i) = Store.get zNat t.prt.stats (64 * p + i) :=
    fun i h48 h49 => g.stats hw _ (by omega) (by omega)
  refine ⟨⟨fun h0 => ?_, fun h1 => ?_, fun h2 => ?_⟩, (hon 0 1).trans h.link, (hon 5 1).trans h.preempt, fun hup => ?_⟩
  · exact ⟨(hon 1 1).trans (h.lock h0).1, (hon 10 1).trans (h.lock h0).2⟩
  · obtain ⟨hset, hsticky, hcnt⟩ := h.loc h1
    exact ⟨(hon 3 1).trans hset, g.sticky hr p hp _ rfl (show 3 < 32 by decide) rfl hsticky, (hst 57 (by decide) (by decide)).trans hcnt⟩
  · obtain ⟨hset, hsticky⟩ := h.remote h2
    exact ⟨(hon 4 1).trans hset, g.sticky hr p hp _ rfl (show 4 < 32 by decide) rfl hsticky⟩
  · obtain ⟨hsticky, hcnt⟩ := h.counted hup
    exact ⟨g.sticky hr p hp _ rfl (show 2 < 32 by decide) rfl hsticky, (hst 56 (by decide) (by decide)).trans hcnt⟩

theorem State.linkDown_spec (hr : s.RegsWf) (hw : Store.wf zNat s.prt.stats = true) (hp : p < 32) (cause : Nat) :
    PortDown p cause s (s.linkDown p cause none) := by
  obtain ⟨hdown, hrc, hwc⟩ := State.linkCut_spec hr hw hp cause
  rw [State.linkDown_eq]
  exact hdown.stay hrc hwc hp ((PortsStay.refl _).cancelPort p caLINK)

end

/-- Settles O45, operation by operation: a port down or up is one predicate on its status, and cancelling the reservations of a
lost link leaves it (`PortsStay`). -/
theorem linksComeUpCalibrated : Obligations.LinksComeUpCalibrated := by
  unfold Obligations.LinksComeUpCalibrated
  intro p cause t l s a hc hstats hfails hp ha
  have hr : a.RegsWf := ha ▸ State.advance_regsWf hc.regs t
  have hprt : s.prt = a.prt := ha ▸ (s.advance_prt t).symm
  have hvar : s.variant = a.variant := ha ▸ (s.advance_variant t).symm
  have hreg : ∀ j, s.reg j = a.reg j := fun j => ha ▸ (s.advance_reg t j).symm
  have hrd : ∀ f, s.rd f = a.rd f := fun f => ha ▸ (s.advance_rd t f).symm
  have hon : ∀ f, s.on f = a.on f := fun f => ha ▸ (s.advance_on t f).symm
  simp only [State.portPresent, State.mode, State.maint, State.calFails, State.domState, hprt, hvar, hreg, hrd, hon] at hstats hfails ⊢
  refine ⟨fun hpres hm he hpr hcal hw => ?_, fun hpres => ⟨?_, ?_⟩, fun hl hd => ?_, fun hl hd => ?_, fun hl ok => ?_, fun hpres => ?_⟩
  · obtain ⟨hpcs, hfec, hloc, hrem, hlink⟩ := State.locked_spec hr p
    have honly := a.locked_regsOnly p
    exact ⟨_, exec_linkLock ha hr hp hpres (fun h => hm.elim (fun hm => hm h.1) (fun hm => absurd h.2 (by simp [State.maint, hm])))
      he hpr hcal hw, hpcs, hfec, hloc, hrem, hlink, fun j hj => honly.reg hr j (by simpa using hj), honly.eq⟩
  · exact exec_linkLock_absent ha hpres
  · exact exec_linkDown_absent ha hpres
  · exact ⟨_, exec_calDone ha hp, State.calDone_passed_spec hr hfails hp hl hd l⟩
  · exact ⟨_, exec_calDone ha hp, State.calDone_failed_spec hr hfails hp hl hd l⟩
  · exact (exec_calDone ha hp).trans (by rw [State.calDone_unlocked hl])
  · obtain ⟨⟨hlock, hloc, hrem⟩, hlink, hpre, hcnt⟩ := State.linkDown_spec hr hstats hp cause
    exact ⟨_, exec_linkDown ha hp hpres, hlink, hpre, hlock, hloc, hrem, hcnt, (State.linkDown_keeps (Keeps.refl false a) p cause none).raw⟩

end Sys2Proof.Machine

namespace Sys2Proof.Machine

/-! ### The credits of a port's receive buffer

The ledger need not be in canonical form here: what stands is the entry of a key below the one written, and of any other key where
the entry written is listed. -/

section
variable {α : Type} [DecidableEq α] {d : Nat → α}

/-- A write above a key leaves it, whatever the table. -/
theorem Store.get_put_above {m : Store α} {k j : Nat} {v : α} (hj : k < j) : Store.get d (Store.put d m k v) j = Store.get d m j := by
  induction m with
  | nil =>
    unfold Store.put
    split
    · rfl
    · simp [Store.get, Nat.ne_of_lt hj, Nat.not_lt_of_gt hj]
  | cons e r ih =>
    obtain ⟨a, w⟩ := e
    unfold Store.put
    split
    · rename_i hak
      subst hak
      split <;> simp [Store.get, Nat.ne_of_lt hj, Nat.not_lt_of_gt hj]
    · split
      · split
        · rfl
        · simp [Store.get, Nat.ne_of_lt hj, Nat.not_lt_of_gt hj]
      · simp only [Store.get, ih]

/-- A write that lists its entry leaves every other key, whatever the table. -/
theorem Store.get_put_listed {m : Store α} {k j : Nat} {v : α} (hv : v ≠ d k) (hj : j ≠ k) :
    Store.get d (Store.put d m k v) j = Store.get d m j := by
  induction m with
  | nil => simp [Store.put, hv, Store.get, Ne.symm hj]
  | cons e r ih =>
    obtain ⟨a, w⟩ := e
    unfold Store.put
    split
    · rename_i hak
      subst hak
      simp [Store.get, Ne.symm hj]
    · split
      · rename_i hlt
        simp only [if_false, Store.get, Ne.symm hj]
        split
        · rename_i hjk
          rw [if_neg (by omega), if_pos (by omega)]
        · rfl
      · simp only [Store.get, ih]

end

/-- The credits of the receive buffers (R29) stand from `s` to `t`. -/
def RxCreditsStand (s t : State) : Prop := ∀ q, q < 32 → t.qOcc q = s.qOcc q

section
variable {s t u : State}

theorem RxCreditsStand.refl (s : State) : RxCreditsStand s s := fun _ _ => rfl

theorem RxCreditsStand.trans (h : RxCreditsStand s t) (g : RxCreditsStand t u) : RxCreditsStand s u := fun q hq => (g q hq).trans (h q hq)

theorem RxCreditsStand.of_ledger (h : t.fab.ledger = s.fab.ledger) : RxCreditsStand s t := fun q _ => by
  rw [State.qOcc, State.lget, h, State.qOcc, State.lget]

theorem RxCreditsStand.ite {c : Prop} [Decidable c] (ht : RxCreditsStand s t) (hu : RxCreditsStand s u) :
    RxCreditsStand s (if c then t else u) := by
  split <;> assumption

/-! #### What leaves the ledger -/

theorem State.pmcAdd_fab (s : State) (g e u n : Nat) : (s.pmcAdd g e u n).1.fab = s.fab :=
  List.foldlRecOn (motive := fun x : State × Option Nat => x.1.fab = s.fab) _ _ rfl fun _ h _ _ => h

theorem State.msixCore_fab (s : State) (fn vec : Nat) : (s.msixCore fn vec).1.fab = s.fab := by
  unfold State.msixCore
  dsimp only
  split <;> rfl

theorem State.markHalf_fab (s : State) (c : Option Nat) : (s.markHalf c).fab = s.fab := by
  unfold State.markHalf
  split
  · rfl
  · dsimp only
    split <;> split <;> rfl

theorem State.alarmMsix_fab (s : State) : s.alarmMsix.fab = s.fab := by
  unfold State.alarmMsix
  dsimp only
  split
  · rw [State.markHalf_fab, State.pmcAdd_fab, State.msixCore_fab]
  · exact s.msixCore_fab _ _

theorem State.raiseBit_fab (s : State) (f : Fld) : (s.raiseBit f).fab = s.fab := by
  unfold State.raiseBit
  split
  · rfl
  · dsimp only
    split
    · split
      · rfl
      · split <;> exact State.alarmMsix_fab _
    · rfl

theorem State.count_fab (s : State) (g e u n : Nat) : (s.count g e u n).fab = s.fab := by
  unfold State.count
  dsimp only
  split
  · exact s.pmcAdd_fab g e u n
  · rw [State.raiseBit_fab]
    split <;> exact s.pmcAdd_fab g e u n

theorem State.sumpCount_fab (s : State) (reason n : Nat) : (s.sumpCount reason n).fab = s.fab := by
  have htally : (s.sumpTally reason n).1.fab = s.fab := State.count_fab _ 2 6 0 n
  unfold State.sumpCount
  dsimp only
  split
  · rw [State.raiseBit_fab, htally]
  · exact htally

/-! #### What moves other credits -/

/-- A token that is no credit. -/
theorem State.issue_request_rxCredits (s : State) {i : Nat} (hi : i < 1024) (n : Nat) : RxCreditsStand s (s.issue .request i n) := fun q _ =>
  congrArg LInst.held (Store.get_put_above (show 1024 * 0 + i < 1024 * 2 + q by omega))

/-- An entry that a queue of the engine has room for. -/
theorem State.qPut_rxCredits (s : State) {k : Nat} (hk : 32 ≤ k) (hcap : queueCap s.variant k = 1024) (hroom : s.qRoom k 1 = true) :
    RxCreditsStand s (s.qPut k) := by
  have hocc : s.qOcc k + 1 ≤ queueCap s.variant k := by
    rw [State.qRoom, Bool.and_eq_true, decide_eq_true_eq] at hroom
    exact hroom.1
  have hissue : RxCreditsStand s (s.issue .credit k 1) := fun q hq => by
    refine congrArg LInst.held (Store.get_put_listed (fun h => ?_) (show 1024 * 2 + q ≠ 1024 * 2 + k by omega))
    have hheld : ((s.lget .credit k).held + 1) % 2 ^ 48 = 0 := congrArg LInst.held h
    have hlt : (s.lget .credit k).held + 1 ≤ 1024 := hcap ▸ hocc
    omega
  exact .ite (hissue.trans (.of_ledger rfl)) hissue

theorem State.postEvent_rxCredits (s : State) (ring kind : Nat) (x : List Byte) : RxCreditsStand s (s.postEvent ring kind x).1 := by
  unfold State.postEvent
  split
  · rename_i hroom
    exact (s.qPut_rxCredits (by decide) rfl hroom).trans (.of_ledger rfl)
  · exact .of_ledger (congrArg FabS.ledger (State.sumpCount_fab _ _ _))

theorem State.setQuiet_rxCredits (s : State) (f : Fld) : RxCreditsStand s (s.setQuiet f) := by
  have hraise : ∀ v : State, RxCreditsStand v (v.raiseBit f) := fun v => .of_ledger (congrArg FabS.ledger (v.raiseBit_fab f))
  unfold State.setQuiet
  refine .ite (.refl s) ?_
  split
  · exact hraise s
  · exact .ite ((s.postEvent_rxCredits _ _ _).trans (hraise _)) (hraise s)

theorem State.journal_rxCredits (s : State) (typ src : Nat) (x : List Byte) : RxCreditsStand s (s.journal typ src x) := by
  unfold State.journal
  split
  · rename_i hroom
    refine ((s.qPut_rxCredits (by decide) rfl hroom).trans (.of_ledger rfl)).trans (.of_ledger ?_)
    unfold State.seqEvent
    dsimp only
    split <;> rfl
  · refine RxCreditsStand.trans (t := { (s.sumpCount 0x17).bump FLS.JRN_LOST with jrn := _ }) (.of_ledger ?_) (State.setQuiet_rxCredits _ _)
    exact congrArg FabS.ledger (s.sumpCount_fab 0x17 1)

theorem State.sticky_rxCredits (s : State) (f : Fld) : RxCreditsStand s (s.sticky f) := by
  unfold State.sticky
  refine .ite (.refl s) ?_
  dsimp only
  split
  · exact s.setQuiet_rxCredits f
  · have hcount : RxCreditsStand s ((s.setQuiet f).bump PMC.JRN_COUNT) := (s.setQuiet_rxCredits f).trans (.of_ledger rfl)
    exact .ite (hcount.trans (State.journal_rxCredits _ _ _ _)) (s.setQuiet_rxCredits f)

theorem State.stat_rxCredits (s : State) (p i n : Nat) : RxCreditsStand s (s.stat p i n) := by
  rcases s.stat_cases p i n with h | h <;> rw [h]
  · exact .of_ledger rfl
  · refine RxCreditsStand.trans (.of_ledger ?_) (State.sticky_rxCredits _ _)
    split <;> rfl

theorem State.count_rxCredits (s : State) (g e u n : Nat) : RxCreditsStand s (s.count g e u n) :=
  .of_ledger (congrArg FabS.ledger (s.count_fab g e u n))

end

/-! ### Frames in (R215) -/

section
variable {s t : State} {p : Nat}

/-- A frame whose start the MAC receives, counted before anything else is asked of it. -/
def State.arrival (s : State) (p len : Nat) : State :=
  ((((s.issue .request (p / 8) 1).count 0 1 (p / 8)).count 1 1 p).stat p 31 len).idleNow p

/-- It is cut at the longest frame the port takes. -/
def State.cutNoted (s : State) (p : Nat) (cut : Bool) : State := if cut then s.noted p 8 (PRT.STICKY_TRUNC p) else s

/-- The frame of a request as the port keeps it. -/
def State.rxJob (s : State) (p : Nat) (frame : List Byte) (cut poisoned : Bool) (max rawS : Nat) : Job :=
  { blankJob p with isReq := true, frame := if cut then frame.take max else frame, rawS := rawS, since := s.raw,
                    trunc := cut, cells := ceilDiv (min (frame.length + 4) max) 64, poisoned := poisoned, gotRaw := s.raw,
                    rxT := (List.range 64).map (fun n => s.tsAt n rawS) }

/-- A frame that is taken, before it joins the others: its cells and its buffer are held. -/
def State.rxHeld (s : State) (p : Nat) (frame : List Byte) (express cut : Bool) (cells : Nat) : State :=
  ((if cut then s else s.goodRx p frame express).qPut p cells).issue .buffer (p / 8) 1

/-- The counter of a row of R215, where it has one. -/
def State.rowCounted (s : State) (p : Nat) (i : Option Nat) : State := match i with | some i => s.stat p i | none => s

/-- A frame that is discarded, in the Sump under its reason. -/
def State.rxSumped (s : State) (p : Nat) (d : Nat × Option Nat) (frame : List Byte) : State :=
  (s.rowCounted p d.2).sumpRequest d.1 (p / 8) 12 p frame (frame.length + 4)

theorem State.arrival_signals (s : State) (p len : Nat) : PrtSignals (PRT.countKeys p) s (s.arrival p len) :=
  ((PrtSignals.of_signals (((s.issue_signals _ _ _).trans (State.count_signals _ _ _ _ _)).trans (State.count_signals _ _ _ _ _))).trans
    (State.stat_signals _ p 31 len)).trans (.setPrt _ _)

theorem State.arrival_rxCredits (s : State) (hp : p < 32) (len : Nat) : RxCreditsStand s (s.arrival p len) :=
  ((((s.issue_request_rxCredits (by omega) 1).trans (State.count_rxCredits _ 0 1 (p / 8) 1)).trans (State.count_rxCredits _ 1 1 p 1)).trans
    (State.stat_rxCredits _ p 31 len)).trans (.of_ledger rfl)

theorem State.cutNoted_signals (s : State) (p : Nat) (cut : Bool) : PrtSignals (PRT.countKeys p) s (s.cutNoted p cut) :=
  .ite ((s.stat_signals p 8 1).trans (State.sticky_counts _ (f := PRT.STICKY_TRUNC p) rfl (show 6 < 32 by decide) rfl)) (.refl _ s)

theorem State.cutNoted_rxCredits (s : State) (p : Nat) (cut : Bool) : RxCreditsStand s (s.cutNoted p cut) :=
  .ite ((s.stat_rxCredits p 8 1).trans (State.sticky_rxCredits _ _)) (.refl s)

/-- Which row of R215 discards a frame does not depend on the counters. -/
theorem State.portDiscard_congr (hm : t.nreg (PRT.MAX_FRAME p) = s.nreg (PRT.MAX_FRAME p))
    (hv : t.rd (PRT.VLAN_CFG_OUTER_TPID p) = s.rd (PRT.VLAN_CFG_OUTER_TPID p)) (ha : t.rd (PRT.VLAN_CFG_ACCEPT p) = s.rd (PRT.VLAN_CFG_ACCEPT p))
    (hc : t.on (PRT.CTRL_TRUNC_DISCARD p) = s.on (PRT.CTRL_TRUNC_DISCARD p)) (hq : ∀ n, t.qRoom p n = s.qRoom p n) (f : List Byte) (ok : Bool) :
    t.portDiscard p f ok = s.portDiscard p f ok := by
  simp only [State.portDiscard, hm, hv, ha, hc, hq]

/-- The reasons of R215. -/
def rxReasons : List Nat := [0x00, 0x15, 0x01, 0x02, 0x03, 0x05]

theorem State.portDiscard_reason {f : List Byte} {ok : Bool} {d : Nat × Option Nat} (h : s.portDiscard p f ok = some d) : d.1 ∈ rxReasons := by
  have hall : (s.portDiscard p f ok).all (fun x => rxReasons.contains x.1) = true := by
    unfold State.portDiscard
    dsimp only
    repeat' split
    all_goals decide
  rw [h] at hall
  exact List.contains_iff_mem.mp hall

theorem Signals.setRsp {ks : List Nat} (h : Signals ks s t) (x : RspS) : Signals ks { s with rsp := x } { t with rsp := x } :=
  { h with rsp := rfl, reg := h.reg, on := h.on }

theorem State.takeFrame_eq (s : State) (p : Nat) (f : List Byte) (ok ex po : Bool) (rawS : Nat) {max : Nat} {cut : Bool} {u : State}
    (hmax : max = s.nreg (PRT.MAX_FRAME p) % 2 ^ 14) (hcut : cut = decide (max < f.length + 4))
    (hu : u = (s.arrival p (f.length + 4)).cutNoted p cut) (hiso : u.fab.isolated.contains (Tok.request.key (p / 8)) = false) :
    s.takeFrame p f ok ex po rawS = match u.portDiscard p f ok with
      | some d => u.rxSumped p d f
      | none => (u.rxHeld p f ex cut (ceilDiv (min (f.length + 4) max) 64)).addJob
          ((if cut then u else u.goodRx p f ex).rxJob p f cut po max rawS) := by
  subst hmax hcut hu
  exact if_neg (Bool.eq_false_iff.mp hiso)

end

end Sys2Proof.Machine

namespace Sys2Proof.Machine

section
variable {s t u : State} {p : Nat}

/-! #### The frame is taken -/

theorem State.goodRx_signals (s : State) (p : Nat) (f : List Byte) (ex : Bool) : PrtSignals (PRT.countKeys p) s (s.goodRx p f ex) := by
  have hlen := ((s.stat_signals p 0 1).trans (State.stat_signals _ p 1 (f.length + 4))).trans (State.stat_signals _ p (2 + castOf (f.take 6)) 1)
  have htag : ∀ c : Bool, PrtSignals (PRT.countKeys p) s _ := fun c => PrtSignals.ite (c := c = true) (hlen.trans (State.stat_signals _ p 5 1)) hlen
  exact (PrtSignals.ite ((htag _).trans (State.stat_signals _ p 14 1)) (htag _)).trans (State.stat_signals _ p _ 1)

theorem State.rxHeld_signals (s : State) (p : Nat) (f : List Byte) (ex cut : Bool) (cells : Nat) :
    PrtSignals (PRT.countKeys p) s (s.rxHeld p f ex cut cells) :=
  (PrtSignals.ite (.refl _ s) (s.goodRx_signals p f ex)).trans
    (.of_signals ((State.qPut_signals _ p cells).trans (State.issue_signals _ .buffer (p / 8) 1)))

/-- What counting at a port leaves of the registers that R215 asks. -/
theorem PrtSignals.portDiscard (h : PrtSignals (PRT.countKeys p) s t) (hc : RxCreditsStand s t) (hr : s.RegsWf) (hp : p < 32)
    (f : List Byte) (ok : Bool) : t.portDiscard p f ok = s.portDiscard p f ok := by
  have hkeep : ∀ off, off < 0x10000 → off ≠ 8 → off ≠ 0x40 → ∀ k, k = 0x100000 + off + 0x10000 * p → t.reg k = s.reg k :=
    fun off hlt h8 h40 k hk => hk ▸ h.reg hr (PRT.not_mem_countKeys h8 h40) (prt_not_mem_alarmKeys hp off hlt)
  have hmax : t.reg (PRT.MAX_FRAME p) = s.reg (PRT.MAX_FRAME p) := hkeep 0x18 (by decide) (by decide) (by decide) _ rfl
  have hvlan : t.reg (PRT.VLAN_CFG p) = s.reg (PRT.VLAN_CFG p) := hkeep 0x1C (by decide) (by decide) (by decide) _ rfl
  have hctrl : t.reg (PRT.CTRL p) = s.reg (PRT.CTRL p) := hkeep 0 (by decide) (by decide) (by decide) _ (by unfold PRT.CTRL; omega)
  refine State.portDiscard_congr (congrArg BitVec.toNat hmax) (State.rd_congr hvlan) (State.rd_congr hvlan) (State.on_congr hctrl)
    (fun n => ?_) f ok
  rw [State.qRoom, hc p hp, h.variant, h.isolated, State.qRoom]

/-- The frame as the port has counted it. -/
abbrev State.frameSeen (s : State) (p len : Nat) (cut : Bool) : State := (s.arrival p len).cutNoted p cut

theorem State.frameSeen_signals (s : State) (p len : Nat) (cut : Bool) : PrtSignals (PRT.countKeys p) s (s.frameSeen p len cut) :=
  (s.arrival_signals p len).trans (State.cutNoted_signals _ p cut)

theorem State.frameSeen_portDiscard (hr : s.RegsWf) (hp : p < 32) (len : Nat) (cut : Bool) (f : List Byte) (ok : Bool) :
    (s.frameSeen p len cut).portDiscard p f ok = s.portDiscard p f ok :=
  (s.frameSeen_signals p len cut).portDiscard ((s.arrival_rxCredits hp len).trans (State.cutNoted_rxCredits _ p cut)) hr hp f ok

/-! #### The frame goes to the Sump -/

theorem State.reg48_bump48 (hr : s.RegsWf) (k n : Nat) : (s.bump48 k n).reg48 k = (s.reg48 k + n) % 2 ^ 48 := by
  unfold State.bump48
  dsimp only
  rw [show s.nreg k + 2 ^ 32 * bitsOf (s.nreg (k + 4)) 0 16 = s.reg48 k from rfl]
  have hlt : (s.reg48 k + n) % 2 ^ 48 < 2 ^ 48 := Nat.mod_lt _ (by decide)
  generalize (s.reg48 k + n) % 2 ^ 48 = v at hlt ⊢
  have hset := s.setN_regsWf k v hr
  have hlo : ((s.setN k v).wr ⟨k + 4, 0, 16⟩ (v / 2 ^ 32)).nreg k = v % 2 ^ 32 := by
    rw [State.nreg_wr_ne _ _ _ _ hset (by show k ≠ k + 4; omega), s.nreg_setN k v hr]
  have hhi : bitsOf (((s.setN k v).wr ⟨k + 4, 0, 16⟩ (v / 2 ^ 32)).nreg (k + 4)) 0 16 = v / 2 ^ 32 % 2 ^ 16 :=
    State.rd_wr _ ⟨k + 4, 0, 16⟩ _ hset (show 0 + 16 ≤ 32 by decide)
  rw [State.reg48, hlo, hhi]
  omega

theorem State.reg48_congr {k : Nat} (hlo : t.reg k = s.reg k) (hhi : t.reg (k + 4) = s.reg (k + 4)) : t.reg48 k = s.reg48 k := by
  rw [State.reg48, State.nreg, State.nreg, hlo, hhi]
  rfl

/-- The counts of a reason of R215 are none of those an alarm writes. -/
theorem FAB.sumpCnt_not_mem_alarmKeys {r : Nat} (h : r ∈ rxReasons) : FAB.SUMP_CNT_LO r ∉ alarmKeys ∧ FAB.SUMP_CNT_LO r + 4 ∉ alarmKeys :=
  (by decide : ∀ x ∈ rxReasons, FAB.SUMP_CNT_LO x ∉ alarmKeys ∧ FAB.SUMP_CNT_LO x + 4 ∉ alarmKeys) r h

theorem Signals.reg48 (h : Signals [] s t) (hr : s.RegsWf) {r : Nat} (hm : r ∈ rxReasons) :
    t.reg48 (FAB.SUMP_CNT_LO r) = s.reg48 (FAB.SUMP_CNT_LO r) :=
  State.reg48_congr (h.reg hr _ List.not_mem_nil (FAB.sumpCnt_not_mem_alarmKeys hm).1) (h.reg hr _ List.not_mem_nil (FAB.sumpCnt_not_mem_alarmKeys hm).2)

/-- After the count, the Sump signals. -/
theorem State.sump_tail (s : State) (reason : Nat) (c : SClass) (tgt inst : Nat) {n : Nat} (hn : n ≠ 0) (f : List Byte) (len : Nat) :
    Signals [] (s.bump48 (FAB.SUMP_CNT_LO reason) n) (s.sump reason c tgt inst n f len) := by
  have htally : Signals [] (s.bump48 (FAB.SUMP_CNT_LO reason) n) (s.sumpTally reason n).1 := State.count_signals _ 2 6 0 n
  have hhalf : Signals [] (s.bump48 (FAB.SUMP_CNT_LO reason) n) (if (s.sumpTally reason n).2 then
      (s.sumpTally reason n).1.sticky FAB.STICKY_SUMP_HALF else (s.sumpTally reason n).1) := by
    split
    · exact htally.trans (State.sticky_signals _ _ rfl (by decide) (.inr (by decide)))
    · exact htally
  rw [State.sump, if_neg hn]
  dsimp only
  generalize (if (s.sumpTally reason n).2 then (s.sumpTally reason n).1.sticky FAB.STICKY_SUMP_HALF else (s.sumpTally reason n).1) = v at hhalf ⊢
  split
  · split
    · refine (hhalf.trans ?_).trans (State.postEvent_signals (v.setFab _) _ _ _)
      exact Signals.setFab v _ rfl rfl
    · exact hhalf.trans (State.sticky_signals _ _ rfl (by decide) (.inr (by decide)))
  · exact hhalf

theorem State.endRequest_signals (s : State) (q : Nat) (x : Term) : Signals [] s (s.endRequest q x) := by
  refine Signals.trans ?_ (State.give_signals _ .request q 1)
  exact Signals.setFab s _ rfl rfl

theorem State.sumpRequest_tail (s : State) (reason q tgt inst : Nat) (f : List Byte) (len : Nat) :
    Signals [] (s.bump48 (FAB.SUMP_CNT_LO reason) 1) (s.sumpRequest reason q tgt inst f len) :=
  ((s.sump_tail reason .request tgt inst (n := 1) (by decide) f len).trans (State.endRequest_signals _ _ _)).trans
    (State.count_signals _ _ _ _ _)

theorem State.sumpRequest_reg48 (hr : s.RegsWf) {reason : Nat} (hm : reason ∈ rxReasons) (q tgt inst : Nat) (f : List Byte) (len : Nat) :
    (s.sumpRequest reason q tgt inst f len).reg48 (FAB.SUMP_CNT_LO reason) = (s.reg48 (FAB.SUMP_CNT_LO reason) + 1) % 2 ^ 48 := by
  have hb : (s.bump48 (FAB.SUMP_CNT_LO reason) 1).RegsWf := State.wr_regsWf _ _ _ (s.setN_regsWf _ _ hr)
  rw [(s.sumpRequest_tail reason q tgt inst f len).reg48 hb hm, State.reg48_bump48 hr]

/-- Counting at a port leaves the Sump's counts. -/
theorem PrtSignals.reg48 (h : PrtSignals (PRT.countKeys p) s t) (hr : s.RegsWf) {r : Nat} (hm : r ∈ rxReasons) :
    t.reg48 (FAB.SUMP_CNT_LO r) = s.reg48 (FAB.SUMP_CNT_LO r) := by
  have hoff : ∀ k, k < 0x100000 → k ∉ PRT.countKeys p := fun k hk => by
    simp only [PRT.STICKY, PRT.STATS_SEL, List.mem_cons, List.not_mem_nil, or_false]
    omega
  have hlt : FAB.SUMP_CNT_LO r + 4 < 0x100000 := (by decide : ∀ x ∈ rxReasons, FAB.SUMP_CNT_LO x + 4 < 0x100000) r hm
  exact State.reg48_congr (h.reg hr (hoff _ (by omega)) (FAB.sumpCnt_not_mem_alarmKeys hm).1) (h.reg hr (hoff _ hlt) (FAB.sumpCnt_not_mem_alarmKeys hm).2)

theorem State.rowCounted_signals (s : State) (p : Nat) (i : Option Nat) : PrtSignals (PRT.countKeys p) s (s.rowCounted p i) := by
  cases i with
  | none => exact .refl _ s
  | some i => exact s.stat_signals p i 1

theorem State.rxSumped_spec (hr : s.RegsWf) {d : Nat × Option Nat} (hm : d.1 ∈ rxReasons) (f : List Byte) :
    (s.rxSumped p d f).rsp = s.rsp ∧ (s.rxSumped p d f).reg48 (FAB.SUMP_CNT_LO d.1) = (s.reg48 (FAB.SUMP_CNT_LO d.1) + 1) % 2 ^ 48 := by
  have hrow := s.rowCounted_signals p d.2
  exact ⟨(State.sumpRequest_tail (s.rowCounted p d.2) d.1 (p / 8) 12 p f (f.length + 4)).rsp.trans hrow.rsp,
    (State.sumpRequest_reg48 (hrow.regsWf hr) hm _ _ _ _ _).trans (by rw [hrow.reg48 hr hm])⟩

/-! #### R215 -/

/-- Frames reach R215 on a port that is enabled, up and awake, while nothing sleeps. -/
theorem exec_frameReceive {f : List Byte} {ok ex po : Bool} {rawS tm : Nat} (hu : u = s.advance tm) (hp : p < 32) (hpres : u.portPresent p = true)
    (he : u.on (PRT.CTRL_EN p) = true) (hl : u.on (PRT.STAT_LINK p) = true) (hm : u.mode ≠ 8) (hd : u.domState p < 2) (hs : u.pwr.sleep = none) :
    exec (.frameReceive p f ok ex po rawS tm) s = .next (u.takeFrame p f ok ex po rawS) := by
  show execFrameReceive p f ok ex po rawS tm s = _
  unfold execFrameReceive
  rw [← hu]
  dsimp only
  rw [if_neg (by simp [hpres, he, State.linkUp, hl, hp]), if_neg (by simp [hm, hd]), hs]

theorem exec_frameReceive_down {f : List Byte} {ok ex po : Bool} {rawS tm : Nat} (hu : u = s.advance tm)
    (h : u.on (PRT.CTRL_EN p) = false ∨ u.on (PRT.STAT_LINK p) = false) : exec (.frameReceive p f ok ex po rawS tm) s = .next u := by
  show execFrameReceive p f ok ex po rawS tm s = _
  unfold execFrameReceive
  rw [← hu]
  dsimp only
  rw [if_pos (by rcases h with h | h <;> simp [State.linkUp, h])]

theorem State.takeFrame_discarded (hr : s.RegsWf) (hp : p < 32) {f : List Byte} {ok ex po : Bool} {rawS : Nat} {d : Nat × Option Nat}
    (hiso : s.fab.isolated.contains (Tok.request.key (p / 8)) = false) (hd : s.portDiscard p f ok = some d) :
    (s.takeFrame p f ok ex po rawS).rsp = s.rsp
    ∧ (s.takeFrame p f ok ex po rawS).reg48 (FAB.SUMP_CNT_LO d.1) = (s.reg48 (FAB.SUMP_CNT_LO d.1) + 1) % 2 ^ 48 := by
  have hseen := s.frameSeen_signals p (f.length + 4) (decide (s.nreg (PRT.MAX_FRAME p) % 2 ^ 14 < f.length + 4))
  have hm := State.portDiscard_reason hd
  rw [s.takeFrame_eq p f ok ex po rawS rfl rfl rfl (hseen.isolated ▸ hiso), State.frameSeen_portDiscard hr hp, hd]
  obtain ⟨hrsp, hcnt⟩ := State.rxSumped_spec (p := p) (hseen.regsWf hr) hm f
  exact ⟨hrsp.trans hseen.rsp, hcnt.trans (by rw [hseen.reg48 hr hm])⟩

theorem State.takeFrame_taken (hr : s.RegsWf) (hp : p < 32) {f : List Byte} {ok ex po : Bool} {rawS max : Nat}
    (hmax : max = s.nreg (PRT.MAX_FRAME p) % 2 ^ 14) (hiso : s.fab.isolated.contains (Tok.request.key (p / 8)) = false)
    (hd : s.portDiscard p f ok = none) : ∃ v w, PrtSignals (PRT.countKeys p) s w
      ∧ s.takeFrame p f ok ex po rawS = w.addJob (State.rxJob v p f (decide (max < f.length + 4)) po max rawS) := by
  have hseen := s.frameSeen_signals p (f.length + 4) (decide (max < f.length + 4))
  rw [s.takeFrame_eq p f ok ex po rawS hmax rfl rfl (hseen.isolated ▸ hiso), State.frameSeen_portDiscard hr hp, hd]
  exact ⟨_, _, hseen.trans (State.rxHeld_signals _ p f ex _ _), rfl⟩

end

end Sys2Proof.Machine

namespace Sys2Proof.Machine

/-! ### Idle ports, their clock and preemption (R218, R228, R229) -/

section
variable {s t u : State} {p : Nat}

/-! #### Sleep -/

/-- The request of an idle port for consent (R228). -/
def State.askSleep (s : State) (p : Nat) : State :=
  ((s.setPwr fun x => { x with sleep := some ⟨.port p, [p], [], s.raw, none⟩ }).wr PWR.SLEEP_STAT_STATE 1).wr PWR.SLEEP_STAT_DOMAIN p

theorem State.askSleep_spec (hr : s.RegsWf) (hp : p < 32) : (s.askSleep p).rd PWR.SLEEP_STAT_STATE = 1
    ∧ (s.askSleep p).rd PWR.SLEEP_STAT_DOMAIN = p ∧ (∀ j, j ≠ PWR.SLEEP_STAT → (s.askSleep p).reg j = s.reg j)
    ∧ s.askSleep p = { s with regs := (s.askSleep p).regs, pwr := (s.askSleep p).pwr } := by
  let v := s.setPwr fun x => { x with sleep := some ⟨.port p, [p], [], s.raw, none⟩ }
  have hv : v.RegsWf := hr
  have h1 := v.wr_regsWf PWR.SLEEP_STAT_STATE 1 hv
  refine ⟨?_, ?_, fun j hj => (State.reg_wr_ne _ _ j _ h1 hj).trans (v.reg_wr_ne _ j _ hv hj), rfl⟩
  · exact (State.rd_wr_apart h1 PWR.SLEEP_STAT_DOMAIN PWR.SLEEP_STAT_STATE p).trans (v.rd_wr _ _ hv (by decide))
  · refine (State.rd_wr _ _ _ h1 (by decide)).trans (Nat.mod_eq_of_lt (hp.trans_le ?_))
    decide

theorem exec_portSleepEntry {tm : Nat} (hu : u = s.advance tm) (hp : p < 32) (hv : u.variant = .pyv1616) (he : u.on (PRT.CTRL_EN p) = true)
    (hs : u.on (PRT.IDLE_CFG_SLEEP_EN p) = true) (hd : u.domState p < 2) (hb : u.pwrBusy = false) (hc : u.calHolds p = false)
    (hx : u.on (PRT.SYNCE_CFG_ESMC_TX_EN p) = false) (hi : u.rd (PRT.IDLE_CFG_IDLE_MS p) ≤ u.msSince (Store.get zNat u.prt.idleRaw p)) :
    exec (.portSleepEntry p tm) s = .next (u.askSleep p) := by
  show execPortSleepEntry p tm s = _
  unfold execPortSleepEntry
  rw [← hu]
  dsimp only
  rw [if_neg (by simp [hp, hv, he, hs, hd, hb, hc, hx, hi])]
  rfl

theorem exec_portSleepEntry_awake {tm : Nat} (hu : u = s.advance tm)
    (h : u.variant ≠ .pyv1616 ∨ u.on (PRT.IDLE_CFG_SLEEP_EN p) = false ∨ u.pwrBusy = true) : exec (.portSleepEntry p tm) s = .next u := by
  show execPortSleepEntry p tm s = _
  unfold execPortSleepEntry
  rw [← hu]
  dsimp only
  rw [if_pos (by rcases h with h | h | h <;> simp [h])]

/-! #### The datapath clock -/

theorem exec_downshift {rx tx tm : Nat} (hu : u = s.advance tm) (hv : u.variant ≠ .pyv1616) (hpres : u.portPresent p = true)
    (he : u.on (PRT.IDLE_CFG_DOWN_EN p) = true) (hd : u.on (PRT.STAT_DOWNSHIFTED p) = false) (hrx : rx < u.rd (PRT.IDLE_CFG_DOWN_PCT p))
    (htx : tx < u.rd (PRT.IDLE_CFG_DOWN_PCT p)) : exec (.downshift p rx tx tm) s
      = .next { u.wr (PRT.STAT_DOWNSHIFTED p) 1 with prt := { u.prt with downRaw := Store.put zNat u.prt.downRaw p u.raw } } := by
  show execDownshift p rx tx tm s = _
  unfold execDownshift
  rw [← hu]
  exact congrArg _ (if_pos ⟨hv, hpres, he, hd, hrx, htx⟩)

theorem exec_downshift_busy {rx tx tm : Nat} (hu : u = s.advance tm) (h : u.variant = .pyv1616 ∨ u.rd (PRT.IDLE_CFG_DOWN_PCT p) ≤ rx) :
    exec (.downshift p rx tx tm) s = .next u := by
  show execDownshift p rx tx tm s = _
  unfold execDownshift
  rw [← hu]
  refine congrArg _ (if_neg ?_)
  rintro ⟨hv, -, -, -, hrx, -⟩
  exact h.elim hv hrx.not_ge

theorem exec_upshift {rx tx tm : Nat} (hu : u = s.advance tm) (hpres : u.portPresent p = true) (hd : u.on (PRT.STAT_DOWNSHIFTED p) = true)
    (h : u.rd (PRT.IDLE_CFG_DOWN_PCT p) < rx ∨ u.rd (PRT.IDLE_CFG_DOWN_PCT p) < tx ∨ 256 < u.qOcc p) : exec (.upshift p rx tx tm) s
      = .next ((u.stat p 62 (u.msSince (Store.get zNat u.prt.downRaw p))).wr (PRT.STAT_DOWNSHIFTED p) 0) := by
  show execUpshift p rx tx tm s = _
  unfold execUpshift
  rw [← hu]
  exact congrArg _ (if_pos ⟨hpres, hd, h⟩)

theorem exec_upshift_full {rx tx tm : Nat} (hu : u = s.advance tm) (hd : u.on (PRT.STAT_DOWNSHIFTED p) = false) :
    exec (.upshift p rx tx tm) s = .next u := by
  show execUpshift p rx tx tm s = _
  unfold execUpshift
  rw [← hu]
  refine congrArg _ (if_neg ?_)
  rintro ⟨-, hset, -⟩
  exact absurd hset (by simp [hd])

/-! #### The verify exchange -/

/-- A verify that failed. -/
def State.verifyMissed (s : State) (p : Nat) : State := (s.stat p 63).setVerify p (Store.get zNat s.prt.verify p + 1)

/-- A port that is up asks for a verify and has attempts left. -/
def State.verifies (s : State) (p : Nat) : Prop :=
  s.on (PRT.STAT_LINK p) = true ∧ s.on (PRT.CTRL_PREEMPT_EN p) = true ∧ s.on (PRT.PREEMPT_CFG_VERIFY_EN p) = true
    ∧ s.on (PRT.STAT_PREEMPT_ACTIVE p) = false ∧ Store.get zNat s.prt.verify p < 3

theorem State.verifies_guard (h : s.verifies p) :
    ¬ (!(s.linkUp p && s.on (PRT.CTRL_PREEMPT_EN p) && s.on (PRT.PREEMPT_CFG_VERIFY_EN p)) || s.on (PRT.STAT_PREEMPT_ACTIVE p)
      || decide (3 ≤ Store.get zNat s.prt.verify p)) = true := by
  obtain ⟨hl, hpe, hve, hact, hn⟩ := h
  simp [State.linkUp, hl, hpe, hve, hact, hn]

theorem State.preemptVerify_passed (h : s.verifies p) : s.preemptVerify p true = s.wr (PRT.STAT_PREEMPT_ACTIVE p) 1 := by
  rw [State.preemptVerify, if_neg (State.verifies_guard h)]
  rfl

theorem State.preemptVerify_failed (h : s.verifies p) : s.preemptVerify p false
    = if Store.get zNat s.prt.verify p + 1 = 3 then (s.verifyMissed p).sticky (PRT.STICKY_PREEMPT_FAIL p) else s.verifyMissed p := by
  rw [State.preemptVerify, if_neg (State.verifies_guard h)]
  rfl

theorem exec_preemptVerify {ok : Bool} {tm : Nat} (hu : u = s.advance tm) (hp : p < 32) :
    exec (.preemptVerify p ok tm) s = .next (u.preemptVerify p ok) := by
  show execPreemptVerify p ok tm s = _
  unfold execPreemptVerify
  rw [← hu, if_pos hp]

theorem State.preemptVerify_failed_spec (hr : s.RegsWf) (hw : Store.wf zNat s.prt.stats = true) (hv : Store.wf zNat s.prt.verify = true)
    (hp : p < 32) (h : s.verifies p) : (s.preemptVerify p false).on (PRT.STAT_PREEMPT_ACTIVE p) = false
    ∧ Store.get zNat (s.preemptVerify p false).prt.verify p = Store.get zNat s.prt.verify p + 1
    ∧ (Store.get zNat s.prt.verify p = 2 → (s.preemptVerify p false).on (PRT.STICKY_PREEMPT_FAIL p) = true)
    ∧ Store.get zNat (s.preemptVerify p false).prt.stats (64 * p + 63) = (Store.get zNat s.prt.stats (64 * p + 63) + 1) % 2 ^ 48 := by
  have hmiss : PrtSignals (PRT.countKeys p) s (s.verifyMissed p) := (s.stat_signals p 63 1).trans (.setPrt _ _)
  have hrm := hmiss.regsWf hr
  have hfailed := State.preemptVerify_failed h
  have hfail : Signals [PRT.STICKY p] (s.verifyMissed p) (s.preemptVerify p false) := by
    rw [hfailed]
    split
    · exact State.sticky_prt_signals _ rfl (show 10 < 32 by decide) rfl
    · exact Signals.refl _ _
  have hall : PrtSignals (PRT.countKeys p) s (s.preemptVerify p false) := hmiss.trans (.of_signals (hfail.mono (by simp)))
  obtain ⟨-, -, -, hact, -⟩ := h
  refine ⟨(hall.on_stat hr hp rfl).trans hact, ?_, fun h2 => ?_, ?_⟩
  · rw [hfail.prt]
    exact (congrArg (fun x : PrtS => Store.get zNat (Store.put zNat x.verify p _) p) (s.stat_prt p 63 1)).trans (Store.get_put_same hv)
  · rw [hfailed, if_pos (by rw [h2])]
    exact State.sticky_prt_on hrm hp rfl (show 10 < 32 by decide) rfl
  · rw [hfail.prt]
    exact (congrArg (fun x : PrtS => Store.get zNat x.stats (64 * p + 63)) (s.stat_prt p 63 1)).trans (PrtS.counted_same hw p 63 1)

end

end Sys2Proof.Machine

namespace Sys2Proof.Machine

/-! ### What follows a wake leaves the ports

A wake that ends may end a request, change the mode and wake the next domains (R441, R448); a Lockdown that waited takes effect
(R67). None of it writes the status of a port or stops a port's domain. -/

section
variable {b s t : State}

/-- A field cleared beside the status and the sticky bits of the ports: a domain in Run stays there, whatever register it is. -/
theorem State.wr_zero_portsStay (s : State) {f : Fld}
    (hf : f.addr < 0x100000 ∨ 0x300000 ≤ f.addr ∨ f.addr % 0x10000 ≠ 8 ∧ f.addr % 0x10000 ≠ 0x10) (hw : f.lo + f.w ≤ 32) :
    PortsStay s (s.wr f 0) where
  regsWf w := s.wr_regsWf f 0 w
  stat w p hp := s.reg_wr_ne f _ 0 w (by unfold PRT.STAT; omega)
  sticky w p hp g _ _ ha hon := by
    rw [State.on_wr_ne w 0 (ha ▸ by unfold PRT.STICKY; omega)]
    exact hon
  run w p _ hd := by
    by_cases ha : (domFld p).addr = f.addr
    · rw [State.domState, State.rd, ha] at hd ⊢
      rw [s.nreg_wr f 0 w hw]
      refine Nat.eq_of_testBit_eq fun i => ?_
      have hi := congrArg (Nat.testBit · i) hd
      simp only [testBit_bitsOf, testBit_withBits, Nat.zero_testBit] at hi ⊢
      split
      · exact Bool.and_false _
      · exact hi
    · exact (s.rd_wr_ne f (domFld p) 0 w ha).trans hd
  statsWf := id
  stats _ _ _ _ := rfl

theorem NTS.qStat_offPorts (q : Nat) : OffPorts (NTS.Q_STAT q) := by
  unfold NTS.Q_STAT OffPorts OffStates
  omega

theorem RSP.qStat_offPorts (q : Nat) : OffPorts (RSP.Q_STAT q) := by
  unfold RSP.Q_STAT OffPorts OffStates
  omega

theorem KEY.usage_offPorts {u : Nat} (hu : u < 5) : OffPorts (KEY.USAGE_SLOTS u) := by
  unfold KEY.USAGE_SLOTS OffPorts OffStates
  omega

theorem PKE.fnCount_offPorts {n : Nat} (hn : n < 12) : OffPorts (PKE.FN_COUNT n) := by
  unfold PKE.FN_COUNT OffPorts OffStates
  omega

theorem PKE.engStat_offPorts {e : Nat} (he : e < 5) : OffPorts (PKE.ENG_STAT e) := by
  unfold PKE.ENG_STAT OffPorts OffStates
  omega

/-- The registers of a slot of REF. -/
theorem REF.slot_offPorts {n : Nat} (hn : n < 16) : ∀ k ∈ REF.SLOT_FREQ n :: lookKeys n, OffPorts k := by
  unfold lookKeys
  simp only [List.forall_mem_cons, REF.SLOT_FREQ, REF.STICKY, REF.SLOT_STATE, REF.SLOT_QUALITY, REF.SLOT_STICKY, OffPorts, OffStates]
  refine ⟨?_, ?_, ?_, ?_, ?_, fun _ hk => absurd hk List.not_mem_nil⟩ <;> omega

/-- An engine that serves a queue is one of the five. -/
theorem State.engOf_lt {w e : Nat} (he : s.engOf w = some e) : e < 5 := by
  have hmem := List.mem_of_find?_eq_some he
  exact List.mem_range.mp (List.mem_of_mem_filter hmem)

/-- A rotation that runs ends without a key. -/
def State.stopRotation (s : State) : State := match s.nts.rot with | some c => s.rotateDone c false | none => s

/-- The answers under NTS cancelled and their requests in the Sump. -/
def State.dropNts (s : State) : State :=
  ((s.cancelWhere (fun j => j.nts.isSome) caMODE).rsp.jobs.filter (fun j => j.nts.isSome)).foldl (fun t j =>
    match t.findJob j.id with | some x => t.sumpJob x 0x18 | none => t) (s.cancelWhere (fun j => j.nts.isSome) caMODE)

/-- Every quad that is fenced is not any more. -/
def State.unfenceQuads (s : State) : State :=
  (List.range s.variant.quads).foldl (fun t q => if t.on (fencedFld q) then t.setFenced q false else t) s

/-- The order of R67. -/
theorem State.lockdown_eq (s : State) (cause : Nat) : s.lockdown cause
    = (s.zeroiseAll.stopRotation.dropNts.unfenceQuads.abortScheds.testAbort.wr GLB.MAINT_SET_TARGETS 0).setMode 10 cause := rfl

section
variable (h : PortsStay b s)
include h

theorem PortsStay.bumpF {f : Fld} (hf : OffPorts f.addr) (n : Nat) : PortsStay b (s.bumpF f n) := h.setReg hf _
theorem PortsStay.setPwr (f : PwrS → PwrS) : PortsStay b (s.setPwr f) := h.of_fields rfl rfl rfl
theorem PortsStay.pwrPart (x : PwrS) : PortsStay b { s with pwr := x } := h.of_fields rfl rfl rfl
theorem PortsStay.setGnc (f : GncS → GncS) : PortsStay b (s.setGnc f) := h.of_fields rfl rfl rfl
theorem PortsStay.setBst (f : BstS → BstS) : PortsStay b (s.setBst f) := h.of_fields rfl rfl rfl
theorem PortsStay.setUnit (k i : Nat) (u : UnitS) : PortsStay b (s.setUnit k i u) := h.of_fields rfl rfl rfl
theorem PortsStay.arm (u ts g : Nat) : PortsStay b (s.arm u ts g) := h.of_fields rfl rfl rfl
theorem PortsStay.disarm (u : Nat) : PortsStay b (s.disarm u) := h.of_fields rfl rfl rfl
theorem PortsStay.free : PortsStay b s.free.2 := h.of_fields rfl rfl rfl
theorem PortsStay.clearOperands (e : Nat) : PortsStay b (s.clearOperands e) := h.of_fields rfl rfl rfl
theorem PortsStay.setKeyPke (k : KeyS) (x : PkeS) : PortsStay b { s with key := k, pke := x } := h.of_fields rfl rfl rfl
theorem PortsStay.idleNow (p : Nat) : PortsStay b (s.idleNow p) := h.of_fields rfl rfl rfl

/-- A sticky bit of a block. -/
theorem PortsStay.blkSticky (f : Fld) (hw : f.w = 1 := by rfl) (hl : f.lo < 32 := by decide) (hf : OffStates f.addr := by decide) :
    PortsStay b (s.sticky f) := h.stickyBit hw hl hf

theorem PortsStay.takeCmd (c : HostCmd) : PortsStay b (s.takeCmd c) := .ite ((h.qTake 143 1).of_fields rfl rfl rfl) h

theorem PortsStay.complete (c : HostCmd) (status n : Nat) : PortsStay b (s.complete c status n) :=
  (h.takeCmd c).signals (s.complete_signals c status n) (by decide)

theorem PortsStay.refuseCfg {k : Blk} (hk : OffStates k.sticky) : PortsStay b (s.refuseCfg k) := h.stickyBit rfl (by decide : 0 < 32) hk

theorem PortsStay.deny (m x : Nat) (r : Right) (secret : Bool) : PortsStay b (s.deny m x r secret) :=
  (((h.bump (k := FAB.DENY_COUNT) (by decide) 1).setN (k := FAB.DENY_LAST) (by decide) _).blkSticky FAB.STICKY_DENIED).count 2 5 0 1

/-! #### Modes (R53, R55) -/

theorem PortsStay.recheckReq (dest : Nat) : PortsStay b (s.recheckReq dest) :=
  .ite h (((h.wr (f := GLB.MODE_STAT_PENDING) (by decide) _).wr (f := GLB.MODE_STAT_STATUS) (by decide) _).blkSticky GLB.STICKY_MODE_DONE)

theorem PortsStay.setMode (dest cause : Nat) : PortsStay b (s.setMode dest cause) := by
  have hshow : PortsStay b (s.showMode dest cause) := h.signals (State.showMode_signals dest cause s) (by decide)
  have hent : PortsStay b ((s.showMode dest cause).entered dest) := .ite (hshow.of_fields rfl rfl rfl) hshow
  have htell := ((hent.journal 2 0 (leBytes 4 (s.mode + 2 ^ 4 * dest + 2 ^ 8 * cause + 2 ^ 16 * (s.sec0 % 65536)))).setQuiet
    (f := GLB.STICKY_MODE_CHANGE) rfl (by decide) (by decide)).recheckReq dest
  rw [State.setMode_eq]
  exact .ite (htell.blkSticky TWN.STICKY_BOTH_ACTIVE) htell

theorem PortsStay.settleMode : PortsStay b s.settleMode := .ite (h.setMode _ _) (.ite (h.setMode _ _) h)

theorem PortsStay.modeDone (status : Nat) : PortsStay b (s.modeDone status) := h.signals (s.modeDone_signals status) (by decide)

theorem PortsStay.domReqDone (status : Nat) : PortsStay b (s.domReqDone status) :=
  (h.wr (f := PWR.DOM_REQ_STATUS) (by decide) _).wr (f := PWR.DOM_REQ_BUSY) (by decide) _

/-! #### Units shown (R452) -/

theorem PortsStay.showSeqSpares : PortsStay b s.showSeqSpares :=
  h.foldl _ _ fun _ q hu => (hu.wr (f := ⟨SEQ.SPARE_MAP, 8 * q, 3⟩) (show OffPorts SEQ.SPARE_MAP by decide) _).wrB
    (f := ⟨SEQ.SPARE_MAP, 8 * q + 3, 1⟩) (show OffPorts SEQ.SPARE_MAP by decide) _

theorem PortsStay.showPipes : PortsStay b s.showPipes := by
  unfold State.showPipes
  refine PortsStay.foldl (.wr (.wr (.wr (.wr (h.setN ?_ _) ?_ _) ?_ _) ?_ _) ?_ _) _ _ fun u q hu => hu.wr (f := NTS.Q_STAT_PIPES q) (NTS.qStat_offPorts q) _
  all_goals decide

theorem PortsStay.showEngines : PortsStay b s.showEngines :=
  ((h.foldl _ _ fun _ e hu => hu.wrB (f := ⟨PKE.STAT, 8 + e, 1⟩) (show OffPorts PKE.STAT by decide) _).wr (f := PKE.STAT_SPARE_FOR) (by decide) _).wrB
    (f := PKE.STAT_SPARE_USED) (by decide) _

theorem PortsStay.showCorr : PortsStay b s.showCorr := by
  unfold State.showCorr
  refine PortsStay.foldl (h.foldl _ _ fun u n hu => hu.wrB ?_ _) _ _ fun u k hu => hu.wrB (f := ⟨GNC.UNIT_MAP_HI, 16 + k, 1⟩)
    (show OffPorts GNC.UNIT_MAP_HI by decide) _
  split
  · exact show OffPorts GNC.UNIT_MAP_LO by decide
  · exact show OffPorts GNC.UNIT_MAP_HI by decide

theorem PortsStay.showUnits (k : Nat) : PortsStay b (s.showUnits k) := by
  have hkind : OffPorts (BST.KIND_STAT k) := by
    unfold BST.KIND_STAT OffPorts OffStates
    omega
  have hs : ∀ bad free uns (x : Bool), PortsStay b ((((s.wr (BST.KIND_STAT_UNUSABLE k) bad).wr (BST.KIND_STAT_SPARES_FREE k) free).wr
      (BST.KIND_STAT_UNSERVED k) uns).wrB ⟨BST.UNSERVED_KINDS, k, 1⟩ x) := fun _ _ _ _ =>
    (((h.wr hkind _).wr hkind _).wr hkind _).wrB (show OffPorts BST.UNSERVED_KINDS by decide) _
  unfold State.showUnits
  dsimp only
  split
  · exact (hs _ _ _ _).showSeqSpares
  · exact (hs _ _ _ _).showPipes
  · exact (hs _ _ _ _).showEngines
  · exact (hs _ _ _ _).showCorr
  · exact (hs _ _ _ _).foldl _ _ fun _ e hu => hu.wrB (f := ⟨GNA.STAT, 4 + e, 1⟩) (show OffPorts GNA.STAT by decide) _
  · exact hs _ _ _ _

/-! #### Keys and public-key jobs (R403, R416) -/

theorem PortsStay.showKeys : PortsStay b s.showKeys := by
  unfold State.showKeys
  refine List.foldlRecOn (motive := PortsStay b) _ _ (.wr (h.wr (by decide) _) (by decide) _) fun u hu i hi => ?_
  exact hu.setN (KEY.usage_offPorts (List.mem_range.mp hi)) _

theorem PortsStay.setKey (slot : Nat) (k : Key) : PortsStay b (s.setKey slot k) :=
  PortsStay.showKeys (h.of_fields (t := { s with key := _ }) rfl rfl rfl)

theorem PortsStay.keyNote (op status slot : Nat) : PortsStay b (s.keyNote op status slot) := by
  have hlast := h.setN (k := KEY.LAST) (by decide) (op % 4 + 2 ^ 8 * status + 2 ^ 16 * (slot % 1024))
  have href := PortsStay.ite (c := status = stOK ∨ status = stZERO_LEN) hlast (hlast.bump (k := KEY.REFUSED) (by decide) 1)
  exact .ite (href.refuseCfg (by decide)) (.ite (href.blkSticky KEY.STICKY_POISON) href)

theorem PortsStay.pkNote (fn status engine : Nat) (stage4 : Bool) : PortsStay b (s.pkNote fn status engine stage4) := by
  have hfn : OffPorts (PKE.FN_COUNT (if fn < 12 then fn else 0)) := PKE.fnCount_offPorts (by split <;> omega)
  have hs := (h.setN (k := PKE.LAST) (by decide) (fn % 256 + 2 ^ 8 * status + 2 ^ 16 * (engine % 8))).bump hfn 1
  have hf := hs.bump (k := PKE.JOBS_FAIL) (by decide) 1
  unfold State.pkNote
  refine .ite (hs.bump (by decide) 1) (.ite ((hf.bump (k := PKE.INPUT_REFUSED) (by decide) 1).blkSticky _) (.ite (hf.refuseCfg (by decide))
    (.ite (hf.blkSticky _) (.ite ((hf.blkSticky PKE.STICKY_POISON).blkSticky KEY.STICKY_POISON) (.ite (hf.blkSticky _) (hf.blkSticky _))))))

theorem PortsStay.showPke : PortsStay b s.showPke :=
  List.foldlRecOn (motive := PortsStay b) _ _ h fun _ hu e he =>
    (hu.wr (f := PKE.ENG_STAT_QUEUED e) (PKE.engStat_offPorts (List.mem_range.mp he)) _).wrB (f := ⟨PKE.STAT, e, 1⟩) (show OffPorts PKE.STAT by decide) _

theorem PortsStay.setPkQ (w : Nat) (l : List PkJob) : PortsStay b (s.setPkQ w l) :=
  PortsStay.showPke (h.of_fields (t := { s with pke := _ }) rfl rfl rfl)

theorem PortsStay.pkStart (w : Nat) : PortsStay b (s.pkStart w) := by
  unfold State.pkStart
  split
  · exact h
  · exact .ite h ((h.setPkQ _ _).seqEvent _ _)

theorem PortsStay.pkLeave (w : Nat) (j : PkJob) : PortsStay b (s.pkLeave w j) := by
  have hs := ((h.setPkQ w ((s.pkQ w).erase j)).qTake (137 + w) 1).give .keytok w 1
  unfold State.pkLeave
  dsimp only
  split
  · rename_i e he
    have hlt : e < 5 := by
      split at he
      · exact State.engOf_lt he
      · exact absurd he nofun
    exact ((hs.clearOperands e).bumpF (f := PKE.ENG_STAT_DONE e) (PKE.engStat_offPorts hlt) 1).count _ _ _ _
  · exact hs

theorem PortsStay.itemEnd (n : Nat) (ok : Bool) : PortsStay b (s.itemEnd n ok) := by
  unfold State.itemEnd
  split
  · exact h
  · exact (h.setSq _ _).itemCycles _ _ _

theorem PortsStay.pkAbort (w : Nat) (j : PkJob) {reason : Nat} (hr : reason < 32) : PortsStay b (s.pkAbort w j reason) := by
  have hleft := (h.pkLeave w j).sump hr .keytok 16 w 1 [] 0
  have hclaim : ∀ u, PortsStay b u → PortsStay b (match j.claim with
      | some k => (u.setKey k { u.keyAt k with writing := false, poisoned := true, material := [] }).sticky KEY.STICKY_ABORT_ZEROISED
      | none => u) := fun u hu => by
    split
    · exact (hu.setKey _ _).blkSticky _
    · exact hu
  have habort := ((hclaim _ hleft).bump (k := PKE.ABORTS) (by decide) 1).blkSticky PKE.STICKY_ABORTED
  have hnote := PortsStay.ite (c := j.op = 0) (habort.pkNote j.fn stABORTED ((s.engOf w).getD w) false) (habort.keyNote j.op stABORTED (j.claim.getD 0))
  exact ((hnote.complete _ _ _).itemEnd _ _).pkStart _

theorem PortsStay.pkAbortIf (f : Nat → PkJob → Bool) {reason : Nat} (hr : reason < 32) : PortsStay b (s.pkAbortIf f reason) :=
  h.foldl _ _ fun _ w hu => hu.foldl _ _ fun _ _ hv => by
    split
    · exact hv.pkAbort w _ hr
    · exact hv

theorem PortsStay.zeroiseAll : PortsStay b s.zeroiseAll := by
  have hs := h.pkAbortIf (fun _ _ => true) (reason := 0x1F) (by decide)
  unfold State.zeroiseAll
  refine .blkSticky (.setN (.wr (.wr (.wr (PortsStay.showKeys (hs.setKeyPke _ _)) ?_ _) ?_ _) ?_ _) ?_ _) KEY.STICKY_ALL_ZEROISED
  all_goals decide

/-! #### Master keys, schedules and sequencers (R298, R317, R381, R388) -/

theorem PortsStay.setNts (x : NtsS) : PortsStay b { s with nts := x } := h.of_fields rfl rfl rfl
theorem PortsStay.setEvt (x : EvtS) : PortsStay b { s with evt := x } := h.of_fields rfl rfl rfl
theorem PortsStay.setVid (x : VidS) : PortsStay b { s with vid := x } := h.of_fields rfl rfl rfl
theorem PortsStay.setTdc (x : TdcS) : PortsStay b { s with tdc := x } := h.of_fields rfl rfl rfl

/-- A rotation that ends without a key. -/
theorem PortsStay.rotateFailed (c : HostCmd) : PortsStay b (s.rotateDone c false) := by
  have hend : PortsStay b { s.wr NTS.MK_STAT_ROTATING 0 with nts := { s.nts with rot := none } } :=
    (h.wr (f := NTS.MK_STAT_ROTATING) (by decide) 0).setNts _
  have hfail : ∀ u, PortsStay b u → PortsStay b ((u.sticky NTS.STICKY_ROTATE_FAIL).complete c stABORTED 0) := fun _ hu =>
    (hu.blkSticky NTS.STICKY_ROTATE_FAIL).complete _ _ _
  unfold State.rotateDone
  dsimp only
  rw [if_pos (by simp)]
  exact hfail _ (.ite hend (hend.setKey _ _))

theorem PortsStay.setFenced {q : Nat} (x : Bool) : PortsStay b (s.setFenced q x) :=
  (h.wrB (f := fencedFld q) (show OffPorts RSP.STAT by decide) x).wrB (f := RSP.Q_STAT_FENCED q) (RSP.qStat_offPorts q) x

theorem PortsStay.setSched (k : Nat) (x : Option Sched) : PortsStay b (s.setSched k x) :=
  (h.setEvt _).wrB (f := ⟨EVT.SCHED_STAT, k, 1⟩) (show OffPorts EVT.SCHED_STAT by decide) _

theorem PortsStay.schedNote (k : Option Nat) (status : Nat) : PortsStay b (s.schedNote k status) := by
  have hslot : PortsStay b (match k with | some n => s.wr EVT.SCHED_LAST_SLOT n | none => s) := by
    split
    · exact h.wr (by decide) _
    · exact h
  unfold State.schedNote
  refine .ite (.blkSticky (.bumpF (.wr (.wr hslot ?_ _) ?_ _) ?_ 1) _) (.blkSticky (.bump (.wr (.wr hslot ?_ _) ?_ _) ?_ 1) _)
  all_goals decide

theorem PortsStay.endSlot (k status : Nat) : PortsStay b (s.endSlot k status) := by
  unfold State.endSlot
  split
  · exact h
  · exact (((h.setSched _ _).disarm _).schedNote _ _).complete _ _ _

theorem PortsStay.abortScheds : PortsStay b s.abortScheds := h.foldl _ _ fun _ _ hu => hu.endSlot _ _

theorem PortsStay.sqTo (n : Nat) (st : SqSt) : PortsStay b (s.sqTo n st) := h.setSq _ _

theorem PortsStay.loadDone (c : HostCmd) (status n : Nat) : PortsStay b (s.loadDone c status n) := by
  have hlast := h.setN (k := SEQ.LOAD_LAST) (by decide) (c.u 16 1 % 8 + 2 ^ 8 * status + 2 ^ 16 * (n % 64))
  have hload : PortsStay b _ := .ite (c := status = stOK) (hlast.bump (k := SEQ.LOAD_COUNT) (by decide) 1)
    (.ite (c := status = stZERO_LEN) hlast (hlast.blkSticky SEQ.STICKY_LOAD_FAIL))
  exact PortsStay.complete (.ite (c := status = stREFUSED) (hload.refuseCfg (k := .seq) (by decide)) hload) _ _ _

theorem PortsStay.swapEnd (w : SqSwap) (status n : Nat) : PortsStay b (s.swapEnd w status n) := by
  have hgo := (h.setSeqS fun x => { x with swaps := s.seq.swaps.erase w }).foldl w.members (fun t n =>
    if (t.sq n).st = .parked then
      let u := t.sqTo n .run
      u.setSq n { u.sq n with safeRaw := u.raw }
    else t) fun u n hu => .ite ((hu.sqTo n .run).setSq n _) hu
  unfold State.swapEnd
  dsimp only
  split
  · exact hgo.loadDone _ _ _
  · exact hgo.foldl _ _ fun _ n hu => hu.setSq n _

theorem PortsStay.disarmSwap (n : Nat) : PortsStay b (s.disarmSwap n) := by
  unfold State.disarmSwap
  split
  · exact h
  · exact h.swapEnd _ _ _

theorem PortsStay.seqFaultJobs (n : Nat) : PortsStay b (s.seqFaultJobs n) := by
  unfold State.seqFaultJobs
  split
  · exact (h.sumpJob _ (by decide)).blkSticky _
  · exact h

theorem PortsStay.refSignals {ks : List Nat} (g : RefSignals ks s t) (hks : ∀ k ∈ ks, OffPorts k) : PortsStay b t :=
  (h.of_fields (t := { s with ref := t.ref }) rfl rfl rfl).signals g hks

theorem PortsStay.glUnlock : PortsStay b s.glUnlock := by
  unfold State.glUnlock
  refine .ite (PortsStay.blkSticky ?_ VID.STICKY_GL_UNLOCK) h
  have hun := ((((h.wr (f := VID.GL_STAT_LOCKED) (by decide) 0).wr (f := VID.STAT_GL_LOCKED) (by decide) 0).bump (k := VID.GL_UNLOCKS)
    (by decide) 1)).setVid { s.vid with glPhi := none }
  split
  · rename_i n hn
    have hslot := REF.slot_offPorts (State.slotBound_some hn).1
    have hforget := hun.refSignals (State.forgetSource_signals _ n) fun k hk => hslot k (List.mem_cons.mpr (.inl (List.mem_singleton.mp hk)))
    exact hforget.refSignals (State.lookSlot_signals _ n) fun k hk => hslot k (List.mem_cons_of_mem _ hk)
  · exact hun

theorem PortsStay.stopWork (n : Nat) (halt : Bool) : PortsStay b (s.stopWork n halt) := by
  unfold State.stopWork
  split
  · exact (h.seqFaultJobs n).itemEnd n false
  · exact h.blkSticky _
  · exact .ite h (h.pkAbortIf _ (by decide))
  · have hs := (h.wr (f := ⟨VID.SEQ_STAT, 16 + (n - 48), 1⟩) (show OffPorts VID.SEQ_STAT by decide) 1).blkSticky VID.STICKY_SEQ_FAULT
    exact .ite hs.glUnlock hs
  · exact h

theorem PortsStay.sqFault (n cause code : Nat) : PortsStay b (s.sqFault n cause code) := by
  have hcause : ∀ u, PortsStay b u → PortsStay b (((if cause = 4 then u.sticky SEQ.STICKY_DENIED
      else if cause = 6 then u.sticky SEQ.STICKY_WATCHDOG else u).disarmSwap n).stopWork n false) := fun u hu =>
    (PortsStay.disarmSwap (.ite (hu.blkSticky _) (.ite (hu.blkSticky _) hu)) n).stopWork n false
  exact hcause _ ((((h.sqTo n .faulted).setSq n _).bump (by decide) 1).setQuiet (f := SEQ.STICKY_FAULT) rfl (by decide) (by decide) |>.journal _ _ _)

theorem PortsStay.runsAgain (n : Nat) : PortsStay b (s.runsAgain n) :=
  .ite (h.wr (f := ⟨VID.SEQ_STAT, 16 + (n - 48), 1⟩) (show OffPorts VID.SEQ_STAT by decide) 0) h

theorem PortsStay.sqStart (n : Nat) (fresh : Bool) : PortsStay b (s.sqStart n fresh) :=
  .ite (((h.setSq n _).deny _ _ _ _).sqFault n 4 0) (((h.setSq n _).sqTo n .run).runsAgain n)

theorem PortsStay.sqPowerUp (n : Nat) : PortsStay b (s.sqPowerUp n) := .ite h (.ite (h.sqTo n .empty) (h.sqStart n true))

/-! #### Tests (R459, R460) -/

theorem PortsStay.showTest (phase : Nat) : PortsStay b (s.showTest phase) := by
  unfold State.showTest
  split <;> exact h.setN (by decide) _

theorem PortsStay.testDone (r : TestRun) (status : Nat) (done : Bool) : PortsStay b (s.testDone r status done) := by
  have hover : ∀ u, PortsStay b u → PortsStay b (if status = stSIGNATURE_BAD then
      ((u.bump BST.FAILS).sticky BST.STICKY_TEST_FAIL).setN BST.LAST_FAIL_SEC u.sec0
      else if status = stINCOMPLETE then (u.bump BST.INCOMPLETES).sticky BST.STICKY_INCOMPLETE else u) := fun u hu =>
    .ite (((hu.bump (by decide) 1).blkSticky _).setN (by decide) _) (.ite ((hu.bump (by decide) 1).blkSticky _) hu)
  have hs : ∀ u v, PortsStay b ((((((s.setBst fun x => { x with test := none }).showTest 0).setUnit r.kind r.index u).setN BST.TEST_LAST v).bump
      BST.TESTS).sticky BST.STICKY_TEST_DONE) := fun u v =>
    (((((h.setBst _).showTest 0).setUnit _ _ u).setN (by decide) v).bump (by decide) 1).blkSticky _
  exact (hover _ (hs _ _)).complete _ _ _

theorem PortsStay.unfence (k i : Nat) : PortsStay b (s.unfence k i) := (h.setUnit k i _).showUnits k

/-- A channel of TDC at rest shows no more than it did. -/
theorem PortsStay.restTch (c : Nat) {x : TCh} (hm : x.measB = false) (hg : x.gate = none) : PortsStay b (s.setTch c x) := by
  have hch : ∀ lo w, (⟨TDC.CH_STAT c, lo, w⟩ : Fld).addr < 0x100000 ∨ 0x300000 ≤ (⟨TDC.CH_STAT c, lo, w⟩ : Fld).addr
      ∨ (⟨TDC.CH_STAT c, lo, w⟩ : Fld).addr % 0x10000 ≠ 8 ∧ (⟨TDC.CH_STAT c, lo, w⟩ : Fld).addr % 0x10000 ≠ 0x10 := fun _ _ => by
    simp only [TDC.CH_STAT]
    omega
  unfold State.setTch
  rw [hm, hg]
  refine ((h.setTdc _).trans (State.wr_zero_portsStay _ (f := TDC.CH_STAT_ACTIVE_B c) (hch _ _) ?_)).trans
    (State.wr_zero_portsStay _ (f := TDC.CH_STAT_GATE_OPEN c) (hch _ _) ?_)
  · exact show 0 + 1 ≤ 32 by decide
  · exact show 3 + 1 ≤ 32 by decide

theorem PortsStay.reinitUnit (k i : Nat) : PortsStay b (s.reinitUnit k i) := by
  have hs := h.bump (k := BST.REINITS) (by decide) 1
  unfold State.reinitUnit
  split
  · exact hs.sqPowerUp i
  · exact .ite (hs.restTch i rfl rfl) hs
  · exact hs

theorem PortsStay.testAbort : PortsStay b s.testAbort := by
  unfold State.testAbort
  split
  · exact h
  · rename_i r _
    have hback := PortsStay.ite (c := r.mode = 3) h ((h.unfence r.kind r.index).reinitUnit r.kind r.index)
    exact PortsStay.testDone (.ite (hback.free.setN (k := BST.APPLIED) (by decide) _) hback) _ _ _

/-! #### Lockdown (R67) -/

theorem PortsStay.stopRotation : PortsStay b s.stopRotation := by
  unfold State.stopRotation
  split
  · exact h.rotateFailed _
  · exact h

theorem PortsStay.dropNts : PortsStay b s.dropNts := (h.cancelWhere (fun j => j.nts.isSome) caMODE).foldl _ _ fun _ _ hu => by
  split
  · exact hu.sumpJob _ (by decide)
  · exact hu

theorem PortsStay.unfenceQuads : PortsStay b s.unfenceQuads := h.foldl _ _ fun _ _ hu => .ite (hu.setFenced false) hu

theorem PortsStay.lockdown (cause : Nat) : PortsStay b (s.lockdown cause) := by
  rw [State.lockdown_eq]
  exact (h.zeroiseAll.stopRotation.dropNts.unfenceQuads.abortScheds.testAbort.wr (f := GLB.MAINT_SET_TARGETS) (by decide) 0).setMode 10 cause

theorem PortsStay.dueLock : PortsStay b s.dueLock := by
  unfold State.dueLock
  split
  · exact h
  · exact (h.setPwr _).lockdown _

/-! #### The end of a rollback or an exit (R441, R448) -/

theorem PortsStay.rollbackDone (r : SleepReq) (code0 : Nat) : PortsStay b (s.rollbackDone r code0) := by
  have hs : ∀ f, PortsStay b (((s.setPwr f).wr PWR.SLEEP_STAT_STATE 0).bump PWR.ROLLBACKS) := fun f =>
    ((h.setPwr f).wr (by decide) 0).bump (by decide) 1
  unfold State.rollbackDone
  refine (PortsStay.blkSticky ?_ PWR.STICKY_SLEEP_ABORT).dueLock
  split
  · exact ((hs _).wr (by decide) _).modeDone _
  · exact (hs _).domReqDone _
  · exact (hs _).idleNow _

theorem PortsStay.exitDone : PortsStay b s.exitDone := by
  have hleft : ∀ f dest q, PortsStay b (((((s.setPwr f).wr PWR.SLEEP_STAT_STATE 0).setMode dest 9).sticky PWR.STICKY_KA_EXIT).setN PWR.KA_SECONDS q) :=
    fun f dest q => ((((h.setPwr f).wr (by decide) 0).setMode dest 9).blkSticky _).setN (by decide) q
  unfold State.exitDone
  exact (PortsStay.ite ((hleft _ _ _).modeDone _) (.ite ((hleft _ _ _).wr (by decide) _) (hleft _ _ _))).dueLock

theorem PortsStay.armStrobe : PortsStay b s.armStrobe := .ite (h.arm _ _ _) (h.disarm _)

theorem PortsStay.unburst : PortsStay b s.unburst :=
  .ite (((h.wr (f := domFld 36) (by decide) 0).setGnc _).armStrobe) h

theorem PortsStay.startWake (d : Nat) : PortsStay b (s.startWake d) := by
  have hshow := PortsStay.ite (c := s.pwr.sleep.isNone && !s.pwr.exiting)
    ((h.wr (f := PWR.SLEEP_STAT_STATE) (by decide) 4).wr (f := PWR.SLEEP_STAT_DOMAIN) (by decide) d) h
  exact .ite h (hshow.pwrPart _)

theorem PortsStay.groupTurn (g : List Nat) : PortsStay b (match g with | d :: _ => s.wr PWR.SLEEP_STAT_DOMAIN d | [] => s) := by
  split
  · exact h.wr (by decide) _
  · exact h

omit h in
theorem PortsStay.nextGroup (n : Nat) : ∀ {s : State}, PortsStay b s → PortsStay b (State.nextGroup n s) := by
  induction n with
  | zero => exact fun h => h
  | succ n ih =>
    intro s h
    unfold State.nextGroup
    split
    · dsimp only
      split
      · split
        · exact (h.setPwr _).rollbackDone _ _
        · exact h.setPwr _
      · exact .ite (h.setPwr _).exitDone (h.setPwr _)
    · rename_i g rest _
      have hs := h.setPwr fun p => { p with chain := rest, cur := g }
      have hwoken := ((PortsStay.ite (c := g.contains 36) hs.unburst hs).foldl g (fun t d => t.startWake d) fun _ d hu => hu.startWake d).groupTurn g
      exact .ite hwoken (ih hwoken)

theorem PortsStay.groupStep : PortsStay b s.groupStep := .ite h (PortsStay.nextGroup _ h)

theorem PortsStay.wakeEnded (d status : Nat) : PortsStay b (s.wakeEnded d status) := by
  have hreq : PortsStay b (match s.pwr.sleep with
      | some r => if r.kind = SleepKind.dom d 0 then (s.setPwr (fun p => { p with sleep := none })).domReqDone status else s
      | none => s) := by
    split
    · exact .ite ((h.setPwr _).domReqDone _) h
    · exact h
  exact (PortsStay.ite (hreq.wr (f := PWR.SLEEP_STAT_STATE) (by decide) 0) hreq).settleMode.groupStep

end
end

end Sys2Proof.Machine

namespace Sys2Proof.Machine

/-! ### A port's wake ends (R446) -/

section
variable {s t u : State} {p : Nat}

theorem PortsStay.sqReload (h : PortsStay t s) (n : Nat) : PortsStay t (s.sqReload n) := by
  unfold State.sqReload
  refine .ite h ?_
  split
  · exact h
  · split
    · exact h.setSq n _
    · exact h

/-- The registers of PWR of a domain that is back in Run. -/
def State.runShown (s : State) (d : Nat) : State := ((s.wr (domFld d) 0).wr (domFailed d) 0).bump PWR.WAKES

/-- The domain before its port is looked at. -/
def State.runAgain (s : State) (d : Nat) : State :=
  let out := match s.pwr.outRaw.find? (fun e => e.1 == d) with | some e => s.raw + 1 - e.2 | none => 0
  let s1 := (s.runShown d).setPwr (fun p => { p with
    wakes := p.wakes.filter (fun w => w.dom != d), outRaw := p.outRaw.filter (fun e => e.1 != d) })
  let s2 := s1.setFab (fun f => { f with unusable := f.unusable.filter (· != 8192 + d) })
  let s3 := ((List.range 56).filter (fun u => tdDomain u == d)).foldl (fun t u => t.updTd (tdKey u) (fun x => { x with outQ := x.outQ + out })) s2
  (domSeqs d).foldl (fun t n => (t.sqReload n).sqPowerUp n) (s3.restartCounters d)

theorem State.domainUp_port (hp : p < 32) (x : Bool) : s.domainUp p x = ((((if (s.runAgain p).on (PRT.STAT_SLEEPING p) then (s.runAgain p).stat p 61
    else s.runAgain p).wr (PRT.STAT_SLEEPING p) 0).idleNow p).wakeLeads p) := if_pos hp

theorem State.runShown_spec (hr : s.RegsWf) {d : Nat} (hd : d < 32) : (s.runShown d).RegsWf ∧ (s.runShown d).domState d = 0 := by
  have h1 := s.wr_regsWf (domFld d) 0 hr
  have h2 := State.wr_regsWf _ (domFailed d) 0 h1
  have hfailed : ((s.wr (domFld d) 0).wr (domFailed d) 0).rd (domFld d) = (s.wr (domFld d) 0).rd (domFld d) :=
    State.rd_wr_disj _ (domFailed d) (domFld d) 0 h1 (show 4 * (d % 8) + 2 + 1 ≤ 32 by omega) rfl (.inl (Nat.le_refl _))
  have hzero : (s.wr (domFld d) 0).rd (domFld d) = 0 := s.rd_wr (domFld d) 0 hr (show 4 * (d % 8) + 2 ≤ 32 by omega)
  have hwakes : (domFld d).addr ≠ PWR.WAKES := by
    show 0x3E0030 + 0x4 * (d / 8) ≠ _
    unfold PWR.WAKES
    omega
  exact ⟨State.setN_regsWf _ _ _ h2, (State.rd_setN_ne _ _ _ _ h2 hwakes).trans (hfailed.trans hzero)⟩

theorem State.runAgain_stays (s : State) (d : Nat) : PortsStay (s.runShown d) (s.runAgain d) := by
  have hfab := ((PortsStay.refl (s.runShown d)).setPwr fun p => { p with
    wakes := p.wakes.filter (fun w => w.dom != d), outRaw := p.outRaw.filter (fun e => e.1 != d) }).setFab fun f =>
      { f with unusable := f.unusable.filter (· != 8192 + d) }
  have htd := fun out => hfab.foldl ((List.range 56).filter fun u => tdDomain u == d)
    (fun t u => t.updTd (tdKey u) (fun x => { x with outQ := x.outQ + out })) fun _ _ hu => hu.updTd _ _
  have hcnt := fun out => (htd out).of_fields (t := State.restartCounters _ d) rfl rfl rfl
  exact PortsStay.foldl (hcnt _) _ _ fun _ n hu => (hu.sqReload n).sqPowerUp n

theorem State.domainUp_spec (hr : s.RegsWf) (hp : p < 32) (x : Bool) :
    (s.domainUp p x).RegsWf ∧ (s.domainUp p x).on (PRT.STAT_SLEEPING p) = false ∧ (s.domainUp p x).domState p = 0 := by
  obtain ⟨hrs, hzero⟩ := State.runShown_spec hr hp
  have hstay := s.runAgain_stays p
  have hra := hstay.regsWf hrs
  have hcount : PrtSignals (PRT.countKeys p) (s.runAgain p)
      (if (s.runAgain p).on (PRT.STAT_SLEEPING p) then (s.runAgain p).stat p 61 else s.runAgain p) := .ite (State.stat_signals _ p 61 1) (.refl _ _)
  rw [State.domainUp_port hp]
  generalize (if (s.runAgain p).on (PRT.STAT_SLEEPING p) then (s.runAgain p).stat p 61 else s.runAgain p) = v at hcount ⊢
  have hrv := hcount.regsWf hra
  have hdom : (domFld p).addr ∉ PRT.countKeys p := by
    show 0x3E0030 + 0x4 * (p / 8) ∉ _
    simp only [PRT.STICKY, PRT.STATS_SEL, List.mem_cons, List.not_mem_nil, or_false]
    omega
  have hend := ((PortsStay.refl (v.wr (PRT.STAT_SLEEPING p) 0)).idleNow p).of_fields (t := State.wakeLeads _ p) rfl rfl rfl
  have hrw := v.wr_regsWf (PRT.STAT_SLEEPING p) 0 hrv
  refine ⟨hend.regsWf hrw, (State.on_congr (hend.stat hrw p hp)).trans (State.on_wr_zero hrv (show 8 < 32 by decide) rfl), hend.run hrw p hp ?_⟩
  have hne : (domFld p).addr ≠ (PRT.STAT_SLEEPING p).addr := fun e => domFld_not_mem_stat (d := p) hp (List.mem_singleton.mpr e)
  calc (v.wr (PRT.STAT_SLEEPING p) 0).domState p = v.domState p := v.rd_wr_ne _ _ 0 hrv hne
    _ = (s.runAgain p).domState p := hcount.rd hra hdom (not_mem_alarmKeys_of_not_offStates (domFld_not_offStates hp))
    _ = 0 := hstay.run hrs p hp hzero

theorem exec_portWakeComplete {tm : Nat} (hu : u = s.advance tm) (hp : p < 32) (h : (u.wakeOf p).isSome = true) :
    exec (.portWakeComplete p tm) s = .next ((u.domainUp p true).wakeEnded p stOK) := by
  show execPortWakeComplete p tm s = _
  unfold execPortWakeComplete
  rw [← hu]
  exact congrArg _ (if_pos ⟨hp, h⟩)

theorem exec_portWakeComplete_none {tm : Nat} (hu : u = s.advance tm) (h : u.wakeOf p = none) : exec (.portWakeComplete p tm) s = .next u := by
  show execPortWakeComplete p tm s = _
  unfold execPortWakeComplete
  rw [← hu]
  refine congrArg _ (if_neg ?_)
  rintro ⟨-, hsome⟩
  rw [h] at hsome
  exact absurd hsome nofun

end

/-- Settles O46, operation by operation: a frame is counted before R215 asks of it, and counting leaves the credits R215 asks
(`RxCreditsStand`); what follows the end of a wake leaves the port awake (`PortsStay`). -/
theorem framesAreTakenOrDiscarded : Obligations.FramesAreTakenOrDiscarded := by
  unfold Obligations.FramesAreTakenOrDiscarded
  intro p rx tx rawS t f ok ex po s a hc hstats hverify hp hpres ha
  have hr : a.RegsWf := ha ▸ State.advance_regsWf hc.regs t
  have hprt : s.prt = a.prt := ha ▸ (s.advance_prt t).symm
  have hrsp : s.rsp = a.rsp := ha ▸ (s.advance_rsp t).symm
  have hpwr : s.pwr = a.pwr := ha ▸ (s.advance_pwr t).symm
  have hfab : s.fab = a.fab := ha ▸ (s.advance_fab t).symm
  have hvar : s.variant = a.variant := ha ▸ (s.advance_variant t).symm
  have hreg : ∀ j, s.reg j = a.reg j := fun j => ha ▸ (s.advance_reg t j).symm
  have hnreg : ∀ j, s.nreg j = a.nreg j := fun j => ha ▸ (s.advance_nreg t j).symm
  have hrd : ∀ f, s.rd f = a.rd f := fun f => ha ▸ (s.advance_rd t f).symm
  have hon : ∀ f, s.on f = a.on f := fun f => ha ▸ (s.advance_on t f).symm
  have hroom : ∀ n, s.qRoom p n = a.qRoom p n := fun n => by rw [State.qRoom, State.qOcc, State.lget, hfab, hvar]; rfl
  have hocc : s.qOcc p = a.qOcc p := by rw [State.qOcc, State.lget, hfab]; rfl
  have hdis : s.portDiscard p f ok = a.portDiscard p f ok := State.portDiscard_congr (hnreg _) (hrd _) (hrd _) (hon _) hroom f ok
  have hcnt : ∀ k, s.reg48 k = a.reg48 k := fun k => State.reg48_congr (hreg _) (hreg _)
  have hdom : ∀ d, s.domState d = a.domState d := fun d => hrd _
  have hmode : s.mode = a.mode := hrd _
  have hwake : s.wakeOf p = a.wakeOf p := by rw [State.wakeOf, hpwr]; rfl
  have hbusy : s.pwrBusy = a.pwrBusy := by rw [State.pwrBusy, hpwr]; rfl
  have hpresent : a.portPresent p = true := by rw [State.portPresent, ← hvar]; exact hpres
  rw [hdis, hocc, hwake, hbusy, hmode]
  simp only [hprt, hrsp, hpwr, hfab, hvar, hreg, hnreg, hrd, hon, hcnt, hdom] at hstats hverify ⊢
  refine ⟨fun he hl hm hd hs hiso => ⟨fun hnone => ?_, fun d hsome => ?_⟩, fun h => exec_frameReceive_down ha h,
    fun hv he hse hd hb hcal hx hi => ?_, fun h => exec_portSleepEntry_awake ha h, fun hw => ?_, fun hw => exec_portWakeComplete_none ha hw,
    fun hv he hd hrx htx => ?_, fun h => exec_downshift_busy ha h, fun hd h => ?_, fun hd => exec_upshift_full ha hd,
    fun hl hpe hve hact hn => ⟨?_, ?_⟩⟩
  · obtain ⟨v, w, hsig, htaken⟩ := State.takeFrame_taken (ex := ex) (po := po) (rawS := rawS) hr hp rfl hiso hnone
    refine ⟨_, exec_frameReceive ha hp hpresent he hl hm hd hs, ?_⟩
    rw [htaken]
    refine ⟨⟨_, congrArg (fun x : RspS => x.jobs ++ _) hsig.rsp, congrArg RspS.nextId hsig.rsp, rfl, rfl, rfl, rfl, ?_, rfl, rfl, rfl⟩,
      congrArg (fun x : RspS => x.nextId + 1) hsig.rsp, Signals.setRsp hsig _⟩
    simp [State.rxJob]
  · exact ⟨_, exec_frameReceive ha hp hpresent he hl hm hd hs, State.takeFrame_discarded hr hp hiso hsome⟩
  · obtain ⟨hst, hdm, hrest, heq⟩ := State.askSleep_spec hr hp
    exact ⟨_, exec_portSleepEntry ha hp hv he hse hd hb hcal hx hi, rfl, hst, hdm, hrest, heq⟩
  · obtain ⟨hru, hsl, hzero⟩ := State.domainUp_spec hr hp true
    have hend := (PortsStay.refl (a.domainUp p true)).wakeEnded p stOK
    exact ⟨_, exec_portWakeComplete ha hp hw, (State.on_congr (hend.stat hru p hp)).trans hsl, hend.run hru p hp hzero⟩
  · exact ⟨_, exec_downshift ha hv hpresent he hd hrx htx, a.on_wr (PRT.STAT_DOWNSHIFTED p) hr (show 9 + 1 ≤ 32 by decide) rfl,
      fun j hj => a.reg_wr_ne _ j 1 hr hj, rfl⟩
  · exact ⟨_, exec_upshift ha hpresent hd h, State.on_wr_zero ((a.stat_signals p 62 _).regsWf hr) (show 9 < 32 by decide) rfl⟩
  · refine ⟨_, exec_preemptVerify ha hp, ?_⟩
    rw [State.preemptVerify_passed ⟨hl, hpe, hve, hact, hn⟩]
    exact ⟨a.on_wr (PRT.STAT_PREEMPT_ACTIVE p) hr (show 5 + 1 ≤ 32 by decide) rfl, fun j hj => a.reg_wr_ne _ j 1 hr hj, rfl⟩
  · exact ⟨_, exec_preemptVerify ha hp, State.preemptVerify_failed_spec hr hstats hverify hp ⟨hl, hpe, hve, hact, hn⟩⟩

end Sys2Proof.Machine
